-- ==== Sys2Proof/Word.lean ====
section
/-!
DEFINITION. The word types of the device and the one kind of table the state is made of: a list of
(key, value) pairs with strictly rising keys in which no value equals what an unlisted key reads as.
-/

namespace Sys2Proof

/-- One byte (R5, R6). -/
abbrev Byte := BitVec 8

/-- One 32-bit register value (R6). -/
abbrev Word := BitVec 32

/-- A sparse table: keys with values. -/
abbrev Tbl (α : Type) := List (Nat × α)

/-- What key `k` reads as, `d` where it is not listed. -/
def Tbl.get {α : Type} (d : α) : Tbl α → Nat → α
  | [], _ => d
  | (j, v) :: t, k => if j = k then v else Tbl.get d t k

/-- The table without key `k`. -/
def Tbl.erase {α : Type} : Tbl α → Nat → Tbl α
  | [], _ => []
  | (j, v) :: t, k => if j = k then Tbl.erase t k else (j, v) :: Tbl.erase t k

/-- A pair put before the first larger key. -/
def Tbl.insert {α : Type} : Tbl α → Nat → α → Tbl α
  | [], k, v => [(k, v)]
  | (j, w) :: t, k, v => if k < j then (k, v) :: (j, w) :: t else (j, w) :: Tbl.insert t k v

/-- Key `k` set to `v`; a value equal to the unlisted one `d` leaves the table. -/
def Tbl.set {α : Type} [DecidableEq α] (d : α) (t : Tbl α) (k : Nat) (v : α) : Tbl α :=
  if v = d then t.erase k else (t.erase k).insert k v

/-- Key `k` changed by `f`. -/
def Tbl.modify {α : Type} [DecidableEq α] (d : α) (t : Tbl α) (k : Nat) (f : α → α) : Tbl α :=
  t.set d k (f (t.get d k))

/-- The table without the keys from `lo` up to and without `hi`. -/
def Tbl.dropRange {α : Type} (t : Tbl α) (lo hi : Nat) : Tbl α :=
  t.filter fun p => p.1 < lo || hi ≤ p.1

/-- The keys rise strictly. -/
def Tbl.rising {α : Type} : Tbl α → Bool
  | [] => true
  | [_] => true
  | (j, _) :: (k, v) :: t => j < k && Tbl.rising ((k, v) :: t)

/-- The canonical form: rising keys, and no value equal to what its key reads as when unlisted. -/
def Tbl.wf {α : Type} [DecidableEq α] (d : Nat → α) (t : Tbl α) : Bool :=
  Tbl.rising t && t.all fun p => !(p.2 == d p.1)

/-- The signed value of the low `w` bits of `n`. -/
def signedOf (w n : Nat) : Int :=
  if n % 2 ^ w < 2 ^ (w - 1) then (n % 2 ^ w : Nat) else (n % 2 ^ w : Nat) - (2 ^ w : Nat)

/-- The low `w` bits of the two's complement of `i`. -/
def unsignedOf (w : Nat) (i : Int) : Nat := (i % (2 ^ w : Nat)).toNat

/-- A count that stays at the largest value `w` bits express (R4). -/
def satAdd (w a b : Nat) : Nat := min (a + b) (2 ^ w - 1)

end Sys2Proof
end

