-- ==== Sys2Proof/Syntax.lean ====
section
/-!
DEFINITION. The commands of the device: one constructor for each row of the table of operations and events, in its
order. Values that the surroundings give (a measurement, a received frame, what a memory of the host answers) are operands.
-/

namespace Sys2Proof

/-- One grant of a GRANT_MAP (R139): TID, subcarrier, start slot, length in slots, RNG, SRQ. -/
structure GrantIn where
  tid : Nat
  sc : Nat
  start : Nat
  len : Nat
  rng : Bool
  srq : Bool
  deriving DecidableEq, Repr

/-- The first register of a latched group (R352, and the byte counts of a port). -/
inductive FirstReg where
  | ppsIn
  | rxSfn (w : Fin 2)
  | txSfn (w : Fin 2)
  | bseq (w : Fin 2)
  | todRsfn (w : Fin 2)
  | rxBytes (p : Fin 96)
  | txBytes (p : Fin 96)
  deriving DecidableEq, Repr

/-- A transmitter tap (R310). -/
inductive Tap where
  | cm2 | cm1 | c0 | c1
  deriving DecidableEq, Repr

/-- The requests of a training frame (R310): preset, initial taps, steps up or down of taps. -/
structure TrainReq where
  preset : Bool
  initTaps : Bool
  steps : List (Tap × Bool)
  deriving DecidableEq, Repr

/-- The registers of the endpoint's PCI Express, L1 PM substates and AER capabilities that R327 speaks of, and the interrupt pin. -/
inductive CfgReg where
  | devCap | devCtl | linkCap | linkCtl | devCap2 | devCtl2 | l1Cap | l1Ctl | aerStatus | aerMask | intPin
  deriving DecidableEq, Repr

/-- How a read of the device ends badly (R343). -/
inductive DmaEnd where
  | errorCompletion | poisoned | timeout
  deriving DecidableEq, Repr

/-- A PCIe configuration request (R34, R327, R328): the identifiers, a BAR, the enables of the command register and of MSI-X, a
capability's register. -/
inductive CfgReq where
  | readId
  | readClass
  | readBar (i : Fin 6)
  | writeBar (i : Fin 6) (v : Word)
  | command (memEnable busMaster : Bool)
  | msix (enable funcMask : Bool)
  | readReg (r : CfgReg)
  | writeReg (r : CfgReg) (v : Word)
  deriving DecidableEq, Repr

/-- The instructions of the TAP (R439), and any other code. -/
inductive TapInstr where
  | bypass | idcode | samplePreload | extest | extestPulse | extestTrain | clamp | highz | other
  deriving DecidableEq, Repr

/-- The commands. -/
inductive Instr where
  /-- DEVICE_RESET (R472). -/
  | deviceReset (ns : Nat)
  /-- DEVICE_BRINGUP (R34). -/
  | deviceBringup (straps : Fin 4)
  /-- POWER_LOSS (R470). -/
  | powerLoss
  /-- REFCLK_VALID (R22). -/
  | refclkValid
  /-- REFCLK_LOST (R22). -/
  | refclkLost
  /-- ROOT_LOCK (R21). -/
  | rootLock
  /-- ROOT_UNLOCK (R423). -/
  | rootUnlock
  /-- REGISTER_WRITE (R7). -/
  | registerWrite (a : BitVec 28) (size : Nat) (v : Word)
  /-- AERR_READ (R457). -/
  | aerrRead
  /-- TIM_NS_READ (R352). -/
  | timNsRead
  /-- GROUP_FIRST_READ (R352). -/
  | groupFirstRead (r : FirstReg)
  /-- RC_FIELD_READ (R7). -/
  | rcFieldRead (a : BitVec 28) (size : Nat)
  /-- ACCESS_WAKE (R391). -/
  | accessWake (a : BitVec 28) (write : Option Word)
  /-- CORD_READY (R389). -/
  | cordReady (c : Fin 13) (badBanks : BitVec 16)
  /-- WAKE_TIMEOUT (R389). -/
  | wakeTimeout (c : Fin 13)
  /-- COLD_ENGINE_IDLE_OFF (R391). -/
  | coldEngineIdleOff (e : Fin 3)
  /-- RX_LOS (R39). -/
  | rxLos (w : Fin 2) (lvl : Word)
  /-- LOS_CLEAR (R39). -/
  | losClear (w : Fin 2) (lvl : Word)
  /-- ADC_CLIP (R40). -/
  | adcClip (w : Fin 2) (ch : Fin 4) (clips : Nat)
  /-- ACQUISITION_START (R62). -/
  | acquisitionStart (e : Fin 3)
  /-- CD_SCAN_DONE (R41). -/
  | cdScanDone (e : Fin 3) (est : Option Int)
  /-- CFO_ACQ_DONE (R52). -/
  | cfoAcqDone (e : Fin 3) (cfo : Int)
  /-- CFO_ACQ_FAIL (R52). -/
  | cfoAcqFail (e : Fin 3)
  /-- NCO_RANGE (R53). -/
  | ncoRange (e : Fin 3) (residual : Int)
  /-- TIMING_LOCK (R50). -/
  | timingLock (e : Fin 3) (offset : Int) (tejit : Nat)
  /-- TR_UNLOCK (R50). -/
  | trUnlock (e : Fin 3) (offset : Int) (tejit : Nat)
  /-- EQ_CONVERGED (R47). -/
  | eqConverged (e : Fin 3) (mask : Word)
  /-- PHASE_LOCK (R56). -/
  | phaseLock (e : Fin 3) (sc : Fin 32)
  /-- CR_UNLOCK (R57). -/
  | crUnlock (e : Fin 3) (sc : Fin 32)
  /-- CR_SLIP (R56). -/
  | crSlip (e : Fin 3) (sc : Fin 32)
  /-- EQ_SINGULAR (R48). -/
  | eqSingular (e : Fin 3) (sc : Fin 32)
  /-- CD_DRIFT (R43). -/
  | cdDrift (e : Fin 3) (est : Int)
  /-- ACQ_TIMEOUT (R62). -/
  | acqTimeout (e : Fin 3)
  /-- LASER_LOOP_DECISION (R54). -/
  | laserLoopDecision (e : Fin 3) (off : Int) (since : Nat)
  /-- DECODE_SET_CHANGE (R46). -/
  | decodeSetChange (e : Fin 3)
  /-- QUAL_LATCH (R61). -/
  | qualLatch (e : Fin 3) (sc : Fin 32) (level : Int) (evm : Nat)
  /-- EQ_SOP_RATE (R68). -/
  | eqSopRate (e : Fin 3) (sc : Fin 32) (rate dgd : Nat)
  /-- LLR_SAT (R58). -/
  | llrSat (e : Fin 3) (sc : Fin 32) (labels : List (List Int))
  /-- TX_PROFILE_APPLY (R79). -/
  | txProfileApply (w : Fin 2) (dir : Fin 2) (sfn : Word)
  /-- MASK_CHECK (R84). -/
  | maskCheck (e : Fin 3) (power : List Byte)
  /-- UNMUTE (R84). -/
  | unmute (e : Fin 3)
  /-- TX_DAC_CLIP (R85). -/
  | txDacClip (e : Fin 3) (ch : Fin 4) (xs : List Int)
  /-- TRD_GO (R96). -/
  | trdGo (w : Fin 2) (v : Word)
  /-- TURUID_COMMAND_START (R95). -/
  | turuidCommandStart (w : Fin 2)
  /-- TURUID_REPLY (R92). -/
  | turuidReply (w : Fin 2) (frame : BitVec 48)
  /-- TURUID_TIMEOUT (R92). -/
  | turuidTimeout (w : Fin 2)
  /-- TURUID_HEARTBEAT (R95). -/
  | turuidHeartbeat (w : Fin 2)
  /-- ALIGNMENT_TEST (R111). -/
  | alignmentTest (w : Fin 2) (sc : Fin 32) (pos : Nat) (signs : BitVec 512)
  /-- FRAME_HEADER_RX (R108). -/
  | frameHeaderRx (w : Fin 2) (sc : Fin 32) (llrs : List (Int × Int))
  /-- FEC_BLOCK_DECODE (R117). -/
  | fecBlockDecode (w : Fin 2) (sc : Fin 32) (j : Nat) (a : List Int) (b : Option (List Int))
  /-- PM_SECOND (R128). -/
  | pmSecond (w : Fin 2) (extra : List (Fin 32 × Nat)) (spared : Word)
  /-- PM_COMMIT (R131). -/
  | pmCommit (w : Fin 2)
  /-- PM_CLEAR (R131). -/
  | pmClear (w : Fin 2)
  /-- CELL_RX (R122). -/
  | cellRx (w : Fin 2) (sc : Fin 32) (k : Nat) (uncorr : Bool) (cell : List Byte)
  /-- REASSEMBLY_TIMEOUT (R122). -/
  | reassemblyTimeout (w : Fin 2) (flow : BitVec 20)
  /-- GROUP_RESUME (R125). -/
  | groupResume (w : Fin 2) (g : Fin 32)
  /-- CELL_TX (R119). -/
  | cellTx (w : Fin 2) (g : Fin 32)
  /-- DISCOVER (R144). -/
  | discover (w : Fin 2) (peqd : BitVec 24) (rspread : BitVec 16) (alen bkmax : Byte)
  /-- ASSIGN_ID (R145). -/
  | assignId (w : Fin 2) (serial : BitVec 64) (tid : BitVec 16)
  /-- RANGE (R147). -/
  | range (w : Fin 2) (eqd rtd : BitVec 24) (esfn : Word)
  /-- GRANT_MAP (R151). -/
  | grantMap (w : Fin 2) (tsfn : Word) (gs : List GrantIn)
  /-- PROFILE_CHANGE (R162). -/
  | profileChange (w : Fin 2) (tid : BitVec 12) (mseq : BitVec 16) (esfn : Word) (mdir op : Byte) (mask : Word) (codes : List Byte)
  /-- KEY_SWITCH (R188). -/
  | keySwitch (w : Fin 2) (tid : BitVec 12) (mseq : BitVec 16) (gid mdir kidx : Byte) (esfn : Word)
  /-- TIME_OF_DAY (R355). -/
  | timeOfDay (w : Fin 2) (rsfn : Word) (sec : BitVec 48) (ns : Word) (frac : BitVec 16)
  /-- SILENCE (R149). -/
  | silence (w : Fin 2) (tid : BitVec 12) (dur : BitVec 16)
  /-- SILENCE_EXPIRY (R149). -/
  | silenceExpiry (w : Fin 2)
  /-- RELEASE (R150). -/
  | release (w : Fin 2) (reason : Byte)
  /-- ACK (R164). -/
  | ack (w : Fin 2) (amtype : Byte) (amseq : BitVec 16) (result : Byte) (_esfn : Word)
  /-- ACK_RESEND (R164). -/
  | ackResend (w : Fin 2)
  /-- PRF_REQ_GO (R164). -/
  | prfReqGo (w : Fin 2) (v : Word)
  /-- PRF_PROPOSAL_EXPIRE (R164). -/
  | prfProposalExpire (w : Fin 2)
  /-- KSW_GO (R189). -/
  | kswGo (w : Fin 2) (v : Word)
  /-- TOD_SEND (R356). -/
  | todSend (w : Fin 2)
  /-- DISCTO_EXPIRY (R142). -/
  | disctoExpiry (w : Fin 2)
  /-- IDTO_EXPIRY (R144). -/
  | idtoExpiry (w : Fin 2)
  /-- RNGTO_EXPIRY (R142). -/
  | rngtoExpiry (w : Fin 2)
  /-- LOSTTO_EXPIRY (R142). -/
  | losttoExpiry (w : Fin 2)
  /-- BLOSSTO_EXPIRY (R148). -/
  | blosstoExpiry (w : Fin 2)
  /-- BURST_START (R153). -/
  | burstStart (w : Fin 2) (sc : Fin 32) (tsfn : Word) (start : BitVec 10) (mism : List Nat)
  /-- BURST_END (R155). -/
  | burstEnd (w : Fin 2) (sc : Fin 32) (tsfn : Word) (start : BitVec 10)
  /-- TX_POLICE (R167). -/
  | txPolice (w : Fin 2)
  /-- RESUME (R149). -/
  | resume (w : Fin 2)
  /-- DEACT (R150). -/
  | deact (w : Fin 2)
  /-- SEAL_GROUP (R178). -/
  | sealGroup (w : Fin 2) (g : Fin 32) (mismatches : Nat)
  /-- URGENT_PAIR (R182). -/
  | urgentPair (w : Fin 2) (g : Fin 32) (mismatches : Nat)
  /-- TAG_RX (R191). -/
  | tagRx (w : Fin 2) (sc : Fin 32) (k : Nat) (cell : List Byte) (mismatches : Nat)
  /-- KEY_SWITCH_APPLY (R188). -/
  | keySwitchApply (w : Fin 2) (dir : Fin 2) (sfn : Word)
  /-- HALT_RESUME (R185). -/
  | haltResume (w : Fin 2) (g : Fin 32)
  /-- KEY_LOAD (R187). -/
  | keyLoad (w : Fin 2) (v : Word)
  /-- KEY_ERASE (R187). -/
  | keyErase (w : Fin 2) (v : Word)
  /-- CRY_CLRFLT (R185). -/
  | cryClrflt (w : Fin 2) (g : Fin 32) (rx : Bool)
  /-- ENGINE_FAULT (R205). -/
  | engineFault (e : Fin 3) (cause : Fin 8) (other : Option (Fin 3 × Fin 8)) (lost : Nat)
  /-- TAKEOVER_GAP_END (R205). -/
  | takeoverGapEnd (w : Fin 2) (gap : Nat)
  /-- SPR_GAP_LIMIT (R208). -/
  | sprGapLimit (w : Fin 2)
  /-- SNAPSHOT_WRITE (R200). -/
  | snapshotWrite (e : Fin 3) (done : Bool)
  /-- REPAIR_SELF_TEST_DONE (R210). -/
  | repairSelfTestDone (e : Fin 3) (clean : Bool)
  /-- SEASON_PASS_DONE (R211). -/
  | seasonPassDone (e : Fin 3) (clean : Bool) (left : Nat) (again : Bool)
  /-- SEASONING_DONE (R211). -/
  | seasoningDone (e : Fin 3)
  /-- REVERT_START (R212). -/
  | revertStart (w : Fin 2)
  /-- REVERT_MOVE (R212). -/
  | revertMove (w : Fin 2) (clean : Nat)
  /-- REVERT_TIMEOUT (R213). -/
  | revertTimeout (w : Fin 2)
  /-- RESTORE (R209). -/
  | restore (w : Fin 2)
  /-- SPARE_SELF_TEST (R216). -/
  | spareSelfTest
  /-- SPARE_TEST_DONE (R216). -/
  | spareTestDone (clean : Bool)
  /-- SWITCH (R217). -/
  | switch (v : Word)
  /-- FORCE (R217). -/
  | force (v : Word)
  /-- REVERT_NOW (R217). -/
  | revertNow (v : Word)
  /-- RETIRE (R217). -/
  | retire (v : Word)
  /-- UNRETIRE (R217). -/
  | unretire (v : Word)
  /-- PACKET_ARRIVAL (R222). -/
  | packetArrival (k : Fin 5)
  /-- SLICE_PROCESS (R234). -/
  | sliceProcess (n : Fin 24) (badRules : List Nat) (badSlots : List Nat)
  /-- TEMPLATE_COMMIT (R227). -/
  | templateCommit
  /-- CLS_WRITE (R235). -/
  | clsWrite (v : Word)
  /-- CLS_READ (R235). -/
  | clsRead (v : Word) (bad : Bool)
  /-- CLS_INVALIDATE (R235). -/
  | clsInvalidate (v : Word)
  /-- CLS_READCLR (R235). -/
  | clsReadclr (v : Word) (bad : Bool)
  /-- INSERT (R240). -/
  | insert (v : Word) (bad : List Nat)
  /-- DELETE (R241). -/
  | delete (v : Word) (bad : List Nat)
  /-- LOOKUP (R241). -/
  | lookup (v : Word) (bad : List Nat)
  /-- READIDX (R241). -/
  | readidx (v : Word) (bad : List Nat)
  /-- WRITEIDX (R241). -/
  | writeidx (v : Word) (bad : List Nat)
  /-- CAD (R241). -/
  | cad (v : Word) (bad : List Nat)
  /-- AGE_STEP (R242). -/
  | ageStep (v : Word)
  /-- EPOCH_ADVANCE (R242). -/
  | epochAdvance
  /-- AGER_PASS_END (R242). -/
  | agerPassEnd (bad : List Nat)
  /-- LEARN_REQUEST (R245). -/
  | learnRequest (bad : List Nat)
  /-- HOLD_EXPIRE (R245). -/
  | holdExpire
  /-- QUEUE_ENQUEUE (R259). -/
  | queueEnqueue
  /-- BUFFER_FREE (R252). -/
  | bufferFree (b : BitVec 25) (agent : Nat)
  /-- BUFFER_RECLAIM (R253). -/
  | bufferReclaim (c : Fin 13)
  /-- SCHEDULER_SELECT (R263). -/
  | schedulerSelect (k : Fin 160) (corrected : Nat) (ecc : Bool)
  /-- SWEEPER_VISIT (R264). -/
  | sweeperVisit (q : Fin 8192)
  /-- SHAPER_REFILL (R265). -/
  | shaperRefill
  /-- SAMPLER_LATCH (R269). -/
  | samplerLatch (k : Fin 8448)
  /-- SAMPLER_READ (R272). -/
  | samplerRead (v : Word)
  /-- QM_FLUSH (R261). -/
  | qmFlush (v : Word)
  /-- Q_FLUSH_DONE (R261). -/
  | qFlushDone
  /-- MAC_FRAME_RX (R280). -/
  | macFrameRx (p : Fin 96) (f : List Byte) (pcs : Bool)
  /-- PAUSE_FRAME_RX (R286). -/
  | pauseFrameRx (p : Fin 96) (f : List Byte)
  /-- PAUSE_TIMER_EXPIRE (R286). -/
  | pauseTimerExpire (p : Fin 96) (c : Option (Fin 8))
  /-- MAC_FRAME_TX (R283). -/
  | macFrameTx (p : Fin 96)
  /-- PAUSE_XOFF (R288). -/
  | pauseXoff (p : Fin 96) (arriving : Nat)
  /-- PAUSE_REPEAT (R288). -/
  | pauseRepeat (p : Fin 96)
  /-- PAUSE_XON (R288). -/
  | pauseXon (p : Fin 96) (arriving : Nat)
  /-- GCL_COMMIT (R293). -/
  | gclCommit (p : Fin 96) (v : Word)
  /-- MAC_GCL_SWITCH (R293). -/
  | macGclSwitch (p : Fin 96)
  /-- GCL_CANCEL (R293). -/
  | gclCancel (p : Fin 96)
  /-- GATE_ENTRY_CHANGE (R289). -/
  | gateEntryChange (p : Fin 96)
  /-- MAC_LINK_UP (R278). -/
  | macLinkUp (p : Fin 96)
  /-- MAC_LINK_DOWN (R278). -/
  | macLinkDown (p : Fin 96) (rxFrame : Bool)
  /-- LPI_ENTER (R295). -/
  | lpiEnter (p : Fin 96)
  /-- LPI_EXIT (R295). -/
  | lpiExit (p : Fin 96)
  /-- MAC_PARK (R296). -/
  | macPark (p : Fin 96)
  /-- PORT_UNPARK (R297). -/
  | portUnpark (p : Fin 96)
  /-- MAC_TINDER_WAKE (R297). -/
  | macTinderWake (p : Fin 96) (periods : List (BitVec 128))
  /-- TXTS_POP (R299). -/
  | txtsPop (p : Fin 96)
  /-- LN_DETECT (R308). -/
  | lnDetect (l : Fin 96)
  /-- AUTONEG_DONE (R309). -/
  | autonegDone (l : Fin 96) (own : Bool) (offer : BitVec 4)
  /-- TRAINING_REQUEST (R310). -/
  | trainingRequest (l : Fin 96) (q : TrainReq)
  /-- TRAINING_DONE (R310). -/
  | trainingDone (l : Fin 96)
  /-- LN_TRAIN_TO (R317). -/
  | lnTrainTo (l : Fin 96)
  /-- SYMBOL_LOCK (R311). -/
  | symbolLock (l : Fin 96)
  /-- LN_LOCK_TO (R317). -/
  | lnLockTo (l : Fin 96)
  /-- KINDLING_FRAME_RX (R314). -/
  | kindlingFrameRx (l : Fin 96) (frame : BitVec 128)
  /-- LN_CAP_TO (R316). -/
  | lnCapTo (l : Fin 96)
  /-- RETRY_EXPIRE (R317). -/
  | retryExpire (l : Fin 96)
  /-- LN_REMOVED (R317). -/
  | lnRemoved (l : Fin 96)
  /-- LN_LOCK_LOST (R317). -/
  | lnLockLost (l : Fin 96)
  /-- EYE_MEASURE (R321). -/
  | eyeMeasure (l : Fin 96) (height width snr : Nat)
  /-- LN_FEC_UNCORR (R322). -/
  | lnFecUncorr (l : Fin 96)
  /-- LANE_FEC_SECOND (R322). -/
  | laneFecSecond (l : Fin 96) (corrections codewords : Nat)
  /-- LOOP_MODE (R320). -/
  | loopMode (l : Fin 96) (mode : Fin 4)
  /-- PRBS_CONTROL (R323). -/
  | prbsControl (l : Fin 96) (v : Word)
  /-- LN_PRBS_ERR (R323). -/
  | lnPrbsErr (l : Fin 96) (errors : Nat)
  /-- PCIE_LINK_UP (R346). -/
  | pcieLinkUp (speed width : Nat)
  /-- PCI_LINK_DOWN (R343). -/
  | pciLinkDown
  /-- PCIE_PERST (R473). -/
  | pciePerst (low : Bool)
  /-- RING_TAIL_WRITE (R333). -/
  | ringTailWrite (tx : Bool) (r : Fin 2048) (v : Word)
  /-- RING_ENABLE (R333). -/
  | ringEnable (tx : Bool) (r : Fin 2048)
  /-- RING_DISABLE (R342). -/
  | ringDisable (tx : Bool) (r : Fin 2048) (written : List (BitVec 64))
  /-- RING_FLUSH (R342): of a receive ring, the buffer addresses of the descriptors whose data is written; of a transmit ring, the first
64 bits that the host's memory holds in dwords 2 and 3 of each descriptor posted and not yet read. -/
  | ringFlush (tx : Bool) (r : Fin 2048) (written : List (BitVec 64))
  /-- PCI_FLUSH_DONE (R342). -/
  | pciFlushDone (tx : Bool) (r : Fin 2048)
  /-- RING_IRQ_ENABLE (R340). -/
  | ringIrqEnable (tx : Bool) (r : Fin 2048)
  /-- RXG_PACKET (R336). -/
  | rxgPacket
  /-- RXG_FRAME_WRITE (R336); a TAIL write of the host in the same clock (R344). -/
  | rxgFrameWrite (r : Fin 2048) (addrs : List (BitVec 64)) (tail : Option (BitVec 17))
  /-- RXG_TIMEOUT (R337). -/
  | rxgTimeout (r : Fin 2048)
  /-- TXG_FETCH (R338). -/
  | txgFetch (r : Fin 2048) (words : List Word) (data : List Byte)
  /-- TXG_FRAME_SUBMIT (R338); a TAIL write of the host in the same clock (R344). -/
  | txgFrameSubmit (r : Fin 2048) (tail : Option (BitVec 17))
  /-- TXG_TIMEOUT (R339). -/
  | txgTimeout (r : Fin 2048)
  /-- PCI_RING_PTR (R343). -/
  | pciRingPtr (tx : Bool) (r : Fin 2048)
  /-- PCI_DMA_ERR (R343). -/
  | pciDmaErr (tx : Bool) (r : Fin 2048) (why : DmaEnd)
  /-- TIME_WRAP (R351). -/
  | timeWrap
  /-- TIME_STEP (R351). -/
  | timeStep (v : Word)
  /-- SUPERFRAME_STAMP (R354). -/
  | superframeStamp (w : Fin 2) (kind : Fin 3) (n : Word)
  /-- PPS_IN (R357). -/
  | ppsIn (high : Nat)
  /-- PPS_IN_LOSS (R357). -/
  | ppsInLoss
  /-- PPS_OUT_RISE (R358). -/
  | ppsOutRise
  /-- PPS_OUT_FALL (R358). -/
  | ppsOutFall
  /-- BOOT_SELECTION (R368). -/
  | bootSelection
  /-- ACTIVATE (R372). -/
  | activate (v : Word)
  /-- RELOAD (R374). -/
  | reload (v : Word)
  /-- RESOLVE (R370). -/
  | resolve (v : Word)
  /-- DRAIN_COMPLETE (R374). -/
  | drainComplete (c : Fin 13)
  /-- DRAIN_TIMEOUT (R374). -/
  | drainTimeout (c : Fin 13) (units : Nat)
  /-- PKT_SLICE_PAIR_EMPTY (R379). -/
  | pktSlicePairEmpty
  /-- SPREAD_ENTRY_RETURN (R379). -/
  | spreadEntryReturn (i : Fin 256)
  /-- POWER_REQUEST (R399). -/
  | powerRequest (v : Word)
  /-- CORD_ON (R393). -/
  | cordOn (c : Fin 13)
  /-- CORD_OFF (R393). -/
  | cordOff (c : Fin 13)
  /-- CORD_CLEAR (R390). -/
  | cordClear (c : Fin 13)
  /-- DOZE_SEARCH_STEP (R396). -/
  | dozeSearchStep
  /-- INFO (R414). -/
  | info
  /-- RD (R414). -/
  | rd
  /-- WR0 (R415). -/
  | wr0
  /-- WR (R415). -/
  | wr
  /-- WRM (R415). -/
  | wrm
  /-- WRN (R415). -/
  | wrn
  /-- MBX_UNKNOWN_OPCODE (R414). -/
  | mbxUnknownOpcode
  /-- UPD_BEGIN (R418). -/
  | updBegin
  /-- UPD_DATA (R418). -/
  | updData
  /-- UPD_END (R418). -/
  | updEnd
  /-- UPD_ABORT (R418). -/
  | updAbort
  /-- UPD_SESSION_TIMEOUT (R418). -/
  | updSessionTimeout
  /-- FW_ACTIVATE (R419). -/
  | fwActivate
  /-- CFG (R414). -/
  | cfg
  /-- LOG_READ (R424). -/
  | logRead
  /-- LOG_NOTE (R425). -/
  | logNote
  /-- LOG_INFO (R414). -/
  | logInfo
  /-- SMB_BLOCK_READ (R417). -/
  | smbBlockRead (code : Byte) (pecOk : Bool)
  /-- SMB_READ_BYTE (R417). -/
  | smbReadByte (code : Byte) (pecOk : Bool)
  /-- WATCHDOG_RESTART (R410). -/
  | watchdogRestart (done : Nat)
  /-- SENSOR_READ (R420). -/
  | sensorRead (i : Fin 24) (t : Int)
  /-- THERM_TRIP (R421). -/
  | thermTrip
  /-- TRIP_CLEAR (R421). -/
  | tripClear
  /-- RAIL_SAMPLE (R422). -/
  | railSample (i : Fin 16) (mv : List Nat)
  /-- CLOCK_MONITOR (R423). -/
  | clockMonitor (m : Fin 4) (ppm : Int)
  /-- EVENT_STAT_CLEAR (R426). -/
  | eventStatClear (n : Fin 256) (raised : Bool)
  /-- EVENT_MSIEN_ENABLE (R427). -/
  | eventMsienEnable (g : Fin 16)
  /-- MSIX_HELD_SEND (R427). -/
  | msixHeldSend (v : Fin 512)
  /-- ASH_LOG_ENTRY (R424). -/
  | ashLogEntry
  /-- FI_ARM (R437). -/
  | fiArm (i : Fin 164)
  /-- FI_DISARM (R436). -/
  | fiDisarm (i : Fin 164)
  /-- FI_KILL (R436). -/
  | fiKill
  /-- FI_UNIT (R432). -/
  | fiUnit (i : Fin 164) (dir : Fin 2) (a b : Nat) (bytes : List Byte)
  /-- FI_HOLD_TO (R433). -/
  | fiHoldTo (i : Fin 164)
  /-- TAP_ACTIVE (R440). -/
  | tapActive
  /-- TAP_INSTRUCTION (R439). -/
  | tapInstruction (i : TapInstr)
  /-- KEY_REVOKE (R455). -/
  | keyRevoke (mask : BitVec 4)
  /-- SNAPSHOT_LOADED (R212). -/
  | snapshotLoaded (e : Fin 3)
  /-- FLT24_EXPIRY (R210). -/
  | flt24Expiry (e : Fin 3)
  /-- CORRECTABLE_ECC_ERROR (R198). -/
  | correctableEccError (e : Fin 3) (inSecond : Nat)
  /-- PRBS_CHECKER_LOCK (R323). -/
  | prbsCheckerLock (l : Fin 96)
  /-- RECEIVER_LPI (R324). -/
  | receiverLpi (p : Fin 96) (quiet : Bool)
  /-- SMB_BLOCK_WRITE (R417). -/
  | smbBlockWrite (code : Byte) (bytes : List Byte) (pec : Byte)
  /-- CONFIGURATION_REQUEST (R34). -/
  | configurationRequest (q : CfgReq)
  /-- MSIX_TABLE_WRITE (R328): an access through BAR2, a read where no value is given. -/
  | msixTableWrite (ofs : BitVec 16) (v : Option Word)
  deriving DecidableEq, Repr

end Sys2Proof
end

