-- ==== Sys2Proof/Config.lean ====
section
/-!
DEFINITION. What the spec leaves open, as constants without a body.
-/

namespace Sys2Proof

/-- Which of a pool's free buffers an allocation takes (R254 names none): the pool, the count of the allocation. -/
opaque Config.pickBuffer : Nat → Nat → Nat

/-- Whether a product that is no whole number is rounded up where a sample or an LLR takes it (R58, R85 name no rounding). -/
opaque Config.roundsUp : Int → Bool

/-- A value the spec leaves open, fresh for each number of the counter `State` holds. -/
opaque Config.freeWord : Nat → Word

/-- A byte the spec leaves open, for each number of the counter and each place. -/
opaque Config.freeByte : Nat → Nat → Byte

end Sys2Proof
end

