-- ==== Sys2Proof/Machine/RegMap.lean ====
section
/-!
DEFINITION. The names, BAR0 addresses and fields of every register of the device: R27, R28, R453 and the
field tables of the chapters. Indices are the identifier numbers of the manual (R27).
-/

namespace Sys2Proof.Machine

/-- A field of the register at BAR0 address `addr`. -/
structure Fld where
  addr : Nat
  lsb : Nat
  width : Nat
  deriving DecidableEq, Repr

/-- Block `blk` of the instance for port or lane `p` of HSA or HSB (R27). -/
def hsBase (blk p : Nat) : Nat := 0xA000000 + 0x1000000 * (p / 48) + 0x10000 * (blk + p % 48)

def R.hrtClkStat : Nat := 0x10000
def R.hrtClkDisc : Nat := 0x10004
def R.hrtClkSteer : Nat := 0x10008
def R.cvAdcCfg (w : Nat) : Nat := 0x4000000 + 0x1000000 * w
def R.cvAdcDeskew (w c : Nat) : Nat := 0x4000010 + 0x1000000 * w + 4 * c
def R.cvAdcLvl (w : Nat) : Nat := 0x4000020 + 0x1000000 * w
def R.cvAdcStat (w : Nat) : Nat := 0x4000024 + 0x1000000 * w
def R.cvSelStat (w : Nat) : Nat := 0x4010000 + 0x1000000 * w
def R.leRxcCdcfg (e : Nat) : Nat := 0x1000010 + 0x1000000 * e
def R.leRxcCdstat (e : Nat) : Nat := 0x1000014 + 0x1000000 * e
def R.leRxcCfg (e : Nat) : Nat := 0x1000000 + 0x1000000 * e
def R.leRxcDecode (e : Nat) : Nat := 0x1000044 + 0x1000000 * e
def R.leRxsEqcfg (e s : Nat) : Nat := 0x1200000 + 0x1000000 * e + 0x10000 * s
def R.leRxsStat (e s : Nat) : Nat := 0x1200004 + 0x1000000 * e + 0x10000 * s
def R.leRxsPol (e s : Nat) : Nat := 0x1200014 + 0x1000000 * e + 0x10000 * s
def R.leRxcTrstat (e : Nat) : Nat := 0x1000020 + 0x1000000 * e
def R.leRxcLsrcfg (e : Nat) : Nat := 0x1000034 + 0x1000000 * e
def R.leRxcCfostat (e : Nat) : Nat := 0x1000030 + 0x1000000 * e
def R.leRxsLlrcfg (e s : Nat) : Nat := 0x1200010 + 0x1000000 * e + 0x10000 * s
def R.leRxsQual (e s : Nat) : Nat := 0x1200008 + 0x1000000 * e + 0x10000 * s
def R.leRxsQthr (e s : Nat) : Nat := 0x120000C + 0x1000000 * e + 0x10000 * s
def R.leRxcStat (e : Nat) : Nat := 0x1000040 + 0x1000000 * e
def R.leTxsProf (e s : Nat) : Nat := 0x1600000 + 0x1000000 * e + 0x10000 * s
def R.leTxsShape (e s : Nat) : Nat := 0x1600004 + 0x1000000 * e + 0x10000 * s
def R.leTxmBin (e b : Nat) : Nat := 0x1410000 + 0x1000000 * e + 4 * b
def R.leTxcMaskctl (e : Nat) : Nat := 0x1400008 + 0x1000000 * e
def R.leTxcCfg (e : Nat) : Nat := 0x1400000 + 0x1000000 * e
def R.leTxpTap (e c t : Nat) : Nat := 0x1420000 + 0x1000000 * e + 0x100 * c + 4 * t
def R.cvDacDeskew (w c : Nat) : Nat := 0x4020000 + 0x1000000 * w + 4 * c
def R.leTxcStat (e : Nat) : Nat := 0x1400004 + 0x1000000 * e
def R.cvTrdCfg (w : Nat) : Nat := 0x4030000 + 0x1000000 * w
def R.cvTrdCmd (w : Nat) : Nat := 0x4030004 + 0x1000000 * w
def R.cvTrdArg (w : Nat) : Nat := 0x4030008 + 0x1000000 * w
def R.cvTrdRsp (w : Nat) : Nat := 0x403000C + 0x1000000 * w
def R.cvTrdStat (w : Nat) : Nat := 0x4030010 + 0x1000000 * w
def R.lfAlnCfg (w : Nat) : Nat := 0x6000400 + 0x1000000 * w
def R.lfAlnThr (w : Nat) : Nat := 0x6000404 + 0x1000000 * w
def R.lfAlnStat (w : Nat) : Nat := 0x6000408 + 0x1000000 * w
def R.lfScsAln (w s : Nat) : Nat := 0x6200000 + 0x1000000 * w + 0x10000 * s
def R.lfScsHdr (w s : Nat) : Nat := 0x6200004 + 0x1000000 * w + 0x10000 * s
def R.lfScsSfn (w s : Nat) : Nat := 0x6200008 + 0x1000000 * w + 0x10000 * s
def R.lfFecCfg (w : Nat) : Nat := 0x6010000 + 0x1000000 * w
def R.lfScsFeccb (w s : Nat) : Nat := 0x620000C + 0x1000000 * w + 0x10000 * s
def R.lfScsFecub (w s : Nat) : Nat := 0x6200010 + 0x1000000 * w + 0x10000 * s
def R.lfScsFecit (w s : Nat) : Nat := 0x6200014 + 0x1000000 * w + 0x10000 * s
def R.lfGrpStat (w g : Nat) : Nat := 0x6400000 + 0x1000000 * w + 0x10000 * g
def R.lfGrpMemb (w g : Nat) : Nat := 0x6400004 + 0x1000000 * w + 0x10000 * g
def R.lfCellCfg (w : Nat) : Nat := 0x6020000 + 0x1000000 * w
def R.lfCellIdle (w : Nat) : Nat := 0x6020010 + 0x1000000 * w
def R.lfCellErr (w : Nat) : Nat := 0x6020014 + 0x1000000 * w
def R.lfCellLost (w : Nat) : Nat := 0x6020018 + 0x1000000 * w
def R.lfCellPktdrop (w : Nat) : Nat := 0x602001C + 0x1000000 * w
def R.lfCellDlpdrop (w : Nat) : Nat := 0x6020020 + 0x1000000 * w
def R.lfPmCtl (w : Nat) : Nat := 0x6030000 + 0x1000000 * w
def R.lfPmStat (w : Nat) : Nat := 0x6030004 + 0x1000000 * w
def R.lfPmEs (w : Nat) : Nat := 0x6030010 + 0x1000000 * w
def R.lfPmSes (w : Nat) : Nat := 0x6030014 + 0x1000000 * w
def R.lfPmUas (w : Nat) : Nat := 0x6030018 + 0x1000000 * w
def R.lfPmSps (w : Nat) : Nat := 0x603001C + 0x1000000 * w
def R.lfScsPmes (w s : Nat) : Nat := 0x6200020 + 0x1000000 * w + 0x10000 * s
def R.lfScsPmses (w s : Nat) : Nat := 0x6200024 + 0x1000000 * w + 0x10000 * s
def R.lfScsPmuas (w s : Nat) : Nat := 0x6200028 + 0x1000000 * w + 0x10000 * s
def R.lfScsPmsps (w s : Nat) : Nat := 0x620002C + 0x1000000 * w + 0x10000 * s
def R.lfScsPmstat (w s : Nat) : Nat := 0x6200030 + 0x1000000 * w + 0x10000 * s
def R.lfCtlErr (w : Nat) : Nat := 0x6060000 + 0x1000000 * w
def R.lfActCfg (w : Nat) : Nat := 0x6040000 + 0x1000000 * w
def R.lfActCfg2 (w : Nat) : Nat := 0x6040004 + 0x1000000 * w
def R.lfActStat (w : Nat) : Nat := 0x6040008 + 0x1000000 * w
def R.lfActCtl (w : Nat) : Nat := 0x604000C + 0x1000000 * w
def R.lfActId (w : Nat) : Nat := 0x6040010 + 0x1000000 * w
def R.lfActEqd (w : Nat) : Nat := 0x6040014 + 0x1000000 * w
def R.lfActRtd (w : Nat) : Nat := 0x6040018 + 0x1000000 * w
def R.lfStsQg (w i : Nat) : Nat := 0x6070000 + 0x1000000 * w + 4 * i
def R.lfPrfCode (w s : Nat) : Nat := 0x6060100 + 0x1000000 * w + 4 * s
def R.lfPrfReq (w : Nat) : Nat := 0x6060010 + 0x1000000 * w
def R.lfPrfStat (w : Nat) : Nat := 0x6060014 + 0x1000000 * w
def R.lfPrfEsfn (w : Nat) : Nat := 0x6060018 + 0x1000000 * w
def R.lfGntBursts (w : Nat) : Nat := 0x6050000 + 0x1000000 * w
def R.lfGntErr (w : Nat) : Nat := 0x6050004 + 0x1000000 * w
def R.lfGntMiss (w : Nat) : Nat := 0x6050008 + 0x1000000 * w
def R.lfCryCfg (w : Nat) : Nat := 0x6080000 + 0x1000000 * w
def R.lfCryKeyw (w i : Nat) : Nat := 0x6080010 + 0x1000000 * w + 4 * i
def R.lfCrySalt (w : Nat) : Nat := 0x6080030 + 0x1000000 * w
def R.lfCryKcmd (w : Nat) : Nat := 0x6080034 + 0x1000000 * w
def R.lfCryKstat (w : Nat) : Nat := 0x6080038 + 0x1000000 * w
def R.lfCryKsw (w : Nat) : Nat := 0x6080040 + 0x1000000 * w
def R.lfCryKswstat (w : Nat) : Nat := 0x6080044 + 0x1000000 * w
def R.lfCrytStat (w g : Nat) : Nat := 0x6600000 + 0x1000000 * w + 0x10000 * g
def R.lfCrytGctrlo (w g : Nat) : Nat := 0x6600004 + 0x1000000 * w + 0x10000 * g
def R.lfCrytGctrhi (w g : Nat) : Nat := 0x6600008 + 0x1000000 * w + 0x10000 * g
def R.lfCrytCtl (w g : Nat) : Nat := 0x660000C + 0x1000000 * w + 0x10000 * g
def R.lfCryrCtl (w g : Nat) : Nat := 0x680000C + 0x1000000 * w + 0x10000 * g
def R.lfCryrStat (w g : Nat) : Nat := 0x6800000 + 0x1000000 * w + 0x10000 * g
def R.lfCryrTagfail (w g : Nat) : Nat := 0x6800004 + 0x1000000 * w + 0x10000 * g
def R.lfCryrErr (w g : Nat) : Nat := 0x6800008 + 0x1000000 * w + 0x10000 * g
def R.hrtSprCfg : Nat := 0x20000
def R.hrtSprCfg2 : Nat := 0x20004
def R.hrtSprCmd : Nat := 0x20008
def R.hrtSprStat : Nat := 0x2000C
def R.hrtSprEng (e : Nat) : Nat := 0x20010 + 4 * e
def R.hrtSprWl (w : Nat) : Nat := 0x20020 + 8 * w
def R.hrtSprWllost (w : Nat) : Nat := 0x20024 + 8 * w
def R.hrtSprSnap (e : Nat) : Nat := 0x20040 + 4 * e
def R.pktSprCfg : Nat := 0x8000000
def R.pktSprMap (i : Nat) : Nat := 0x8000100 + 4 * i
def R.pktSlcPkts (n : Nat) : Nat := 0x8010000 + 0x10000 * n
def R.pktSlcOvf (n : Nat) : Nat := 0x8010004 + 0x10000 * n
def R.pktPrsSrc (i : Nat) : Nat := 0x8200000 + 4 * i
def R.pktPrsProfSel (p e : Nat) : Nat := 0x8201000 + 0x40 * p + 4 * e
def R.pktPrsProfCfg (p : Nat) : Nat := 0x8201020 + 0x40 * p
def R.pktPrsProfSpr (p w : Nat) : Nat := 0x8201024 + 0x40 * p + 4 * w
def R.pktPrsAct : Nat := 0x8200404
def R.pktPrsRcnt (r : Nat) : Nat := 0x8200410 + 4 * r
def R.pktPrsTcommit : Nat := 0x8200400
def R.pktPrsTmplCfg (t : Nat) : Nat := 0x8202000 + 0x100 * t
def R.pktPrsTmplOfs (t w : Nat) : Nat := 0x8202010 + 0x100 * t + 4 * w
def R.pktPrsTmplDkey (t w : Nat) : Nat := 0x8202040 + 0x100 * t + 4 * w
def R.pktPrsTmplSkey (t w : Nat) : Nat := 0x8202050 + 0x100 * t + 4 * w
def R.pktClsKeyw (w : Nat) : Nat := 0x8300000 + 4 * w
def R.pktClsMaskw (w : Nat) : Nat := 0x8300040 + 4 * w
def R.pktClsActw (w : Nat) : Nat := 0x8300080 + 4 * w
def R.pktClsDefact (w : Nat) : Nat := 0x83000C0 + 4 * w
def R.pktClsCmd : Nat := 0x8300090
def R.pktClsStat : Nat := 0x8300094
def R.pktClsCntplo : Nat := 0x83000A0
def R.pktClsCntphi : Nat := 0x83000A4
def R.pktClsCntblo : Nat := 0x83000A8
def R.pktClsCntbhi : Nat := 0x83000AC
def R.pktClsMirror (m : Nat) : Nat := 0x8300100 + 4 * m
def R.pktClsErr : Nat := 0x8300140
def R.pktEmtKey (w : Nat) : Nat := 0x8400000 + 4 * w
def R.pktEmtRes : Nat := 0x8400010
def R.pktEmtAge : Nat := 0x8400014
def R.pktEmtIdx : Nat := 0x8400018
def R.pktEmtCmd : Nat := 0x840001C
def R.pktEmtStat : Nat := 0x8400020
def R.pktEmtSeed0 : Nat := 0x8400030
def R.pktEmtSeed1 : Nat := 0x8400034
def R.pktEmtOcc : Nat := 0x8400040
def R.pktEmtStash : Nat := 0x8400044
def R.pktEmtPart (k : Nat) : Nat := 0x8400080 + 4 * k
def R.pktEmtAgecfg : Nat := 0x8400048
def R.pktEmtEpoch : Nat := 0x840004C
def R.pktLrnCfg : Nat := 0x8500000
def R.pktLrnCnt : Nat := 0x8500010
def R.pktLrnPq (p : Nat) : Nat := 0x8500100 + 4 * p
def R.bufBmErr : Nat := 0x9000000
def R.bufBmErrlog : Nat := 0x9000004
def R.bufBmEcc : Nat := 0x9000008
def R.bufBmRecl : Nat := 0x900000C
def R.bufSmpCfg : Nat := 0x9000010
def R.bufSmpSel : Nat := 0x9000014
def R.bufSmpRec (w : Nat) : Nat := 0x9000020 + 4 * w
def R.bufSmpHist (b : Nat) : Nat := 0x9000040 + 4 * b
def R.bufQmCmd : Nat := 0x9000080
def R.bufQmLog : Nat := 0x9000084
def R.bufQmFlushed : Nat := 0x9000088
def R.bufPoolCfg (p : Nat) : Nat := 0x9010000 + 0x10 * p
def R.bufPoolFree (p : Nat) : Nat := 0x9010004 + 0x10 * p
def R.bufPoolLow (p : Nat) : Nat := 0x9010008 + 0x10 * p
def R.bufPclsMin (i : Nat) : Nat := 0x9020000 + 0x10 * i
def R.bufPclsMax (i : Nat) : Nat := 0x9020004 + 0x10 * i
def R.bufPclsUsed (i : Nat) : Nat := 0x9020008 + 0x10 * i
def R.bufPclsFail (i : Nat) : Nat := 0x902000C + 0x10 * i
def R.bufSrcCls (i : Nat) : Nat := 0x9030000 + 4 * i
def R.bufQMap (q : Nat) : Nat := 0x9100000 + 4 * q
def R.bufQFlow (q : Nat) : Nat := 0x9110000 + 4 * q
def R.bufQPar (q : Nat) : Nat := 0x9120000 + 4 * q
def R.bufQLim (q : Nat) : Nat := 0x9130000 + 4 * q
def R.bufQShp (q : Nat) : Nat := 0x9140000 + 4 * q
def R.bufShgShp (g : Nat) : Nat := 0x9180000 + 8 * g
def R.bufQBurst (q : Nat) : Nat := 0x9150000 + 4 * q
def R.bufShgBurst (g : Nat) : Nat := 0x9180004 + 8 * g
def R.bufQDepth (q : Nat) : Nat := 0x9160000 + 4 * q
def R.bufQDrop (q : Nat) : Nat := 0x9170000 + 4 * q
def R.bufSchV (s : Nat) : Nat := 0x9190000 + 8 * s
def R.bufSchVq (s : Nat) : Nat := 0x9190004 + 8 * s
def R.bufSmpGk (g : Nat) : Nat := 0x91A0000 + 4 * g
def R.hsMacBond (p : Nat) : Nat := hsBase 0x40 p
def R.hsMacCfg (p : Nat) : Nat := hsBase 0x40 p + 4
def R.hsMacFc (p : Nat) : Nat := hsBase 0x40 p + 8
def R.hsMacFcthr (p : Nat) : Nat := hsBase 0x40 p + 0xC
def R.hsMacPq (p : Nat) : Nat := hsBase 0x40 p + 0x10
def R.hsMacPsalo (p : Nat) : Nat := hsBase 0x40 p + 0x14
def R.hsMacPsahi (p : Nat) : Nat := hsBase 0x40 p + 0x18
def R.hsMacFcstat (p : Nat) : Nat := hsBase 0x40 p + 0x1C
def R.hsMacGctl (p : Nat) : Nat := hsBase 0x40 p + 0x100
def R.hsMacGbase (p : Nat) : Nat := hsBase 0x40 p + 0x104
def R.hsMacGcycle (p : Nat) : Nat := hsBase 0x40 p + 0x108
def R.hsMacGlead (p : Nat) : Nat := hsBase 0x40 p + 0x10C
def R.hsMacGchg (p : Nat) : Nat := hsBase 0x40 p + 0x110
def R.hsMacGstat (p : Nat) : Nat := hsBase 0x40 p + 0x114
def R.hsMacGclG (p i : Nat) : Nat := hsBase 0x40 p + 0x8000 + 8 * i
def R.hsMacGclT (p i : Nat) : Nat := hsBase 0x40 p + 0x8004 + 8 * i
def R.hsMacLpi (p : Nat) : Nat := hsBase 0x40 p + 0x200
def R.hsMacLpistat (p : Nat) : Nat := hsBase 0x40 p + 0x204
def R.hsMacPark (p : Nat) : Nat := hsBase 0x40 p + 0x300
def R.hsMacTxtsns (p : Nat) : Nat := hsBase 0x40 p + 0x410
def R.hsMacTxtssub (p : Nat) : Nat := hsBase 0x40 p + 0x414
def R.hsMacTxtsseq (p : Nat) : Nat := hsBase 0x40 p + 0x418
def R.hsMacTxtsctl (p : Nat) : Nat := hsBase 0x40 p + 0x41C
def R.hsMacRxfrm (p : Nat) : Nat := hsBase 0x40 p + 0x800
def R.hsMacRxbylo (p : Nat) : Nat := hsBase 0x40 p + 0x804
def R.hsMacRxbyhi (p : Nat) : Nat := hsBase 0x40 p + 0x808
def R.hsMacTxfrm (p : Nat) : Nat := hsBase 0x40 p + 0x80C
def R.hsMacTxbylo (p : Nat) : Nat := hsBase 0x40 p + 0x810
def R.hsMacTxbyhi (p : Nat) : Nat := hsBase 0x40 p + 0x814
def R.hsMacFcserr (p : Nat) : Nat := hsBase 0x40 p + 0x818
def R.hsMacRxerr (p : Nat) : Nat := hsBase 0x40 p + 0x81C
def R.hsMacRunt (p : Nat) : Nat := hsBase 0x40 p + 0x820
def R.hsMacGiant (p : Nat) : Nat := hsBase 0x40 p + 0x824
def R.hsMacRxovf (p : Nat) : Nat := hsBase 0x40 p + 0x828
def R.hsMacCtrlunk (p : Nat) : Nat := hsBase 0x40 p + 0x82C
def R.hsMacPauserx (p : Nat) : Nat := hsBase 0x40 p + 0x830
def R.hsMacPausetx (p : Nat) : Nat := hsBase 0x40 p + 0x834
def R.hsMacGatedrop (p : Nat) : Nat := hsBase 0x40 p + 0x838
def R.hsMacTxdrop (p : Nat) : Nat := hsBase 0x40 p + 0x83C
def R.hsMacDhdrop (p : Nat) : Nat := hsBase 0x40 p + 0x840
def R.hsLnCfg (p : Nat) : Nat := hsBase 0 p
def R.hsLnTmr (p : Nat) : Nat := hsBase 0 p + 4
def R.hsLnStat (p : Nat) : Nat := hsBase 0 p + 8
def R.hsLnLoop (p : Nat) : Nat := hsBase 0 p + 0xC
def R.hsLnCaprxlo (p : Nat) : Nat := hsBase 0 p + 0x18
def R.hsLnCaprxhi (p : Nat) : Nat := hsBase 0 p + 0x1C
def R.hsLnEye (p : Nat) : Nat := hsBase 0 p + 0x20
def R.hsLnEyethr (p : Nat) : Nat := hsBase 0 p + 0x24
def R.hsLnTxeq (p : Nat) : Nat := hsBase 0 p + 0x28
def R.hsLnFecsym (p : Nat) : Nat := hsBase 0 p + 0x2C
def R.hsLnFeccw (p : Nat) : Nat := hsBase 0 p + 0x30
def R.hsLnFecuc (p : Nat) : Nat := hsBase 0 p + 0x34
def R.hsLnPrbs (p : Nat) : Nat := hsBase 0 p + 0x38
def R.hsLngSum0 (h : Nat) : Nat := 0xA300000 + 0x1000000 * h
def R.hsLngSum1 (h : Nat) : Nat := 0xA300004 + 0x1000000 * h
def R.pciEpStat : Nat := 0xC000000
def R.pciEpCfg : Nat := 0xC000004
def R.pciEpRlog : Nat := 0xC000008
def R.pciRxgBaselo (r : Nat) : Nat := 0xC100000 + 0x20 * r
def R.pciTxgBaselo (r : Nat) : Nat := 0xC200000 + 0x20 * r
def R.pciRxgBasehi (r : Nat) : Nat := 0xC100004 + 0x20 * r
def R.pciTxgBasehi (r : Nat) : Nat := 0xC200004 + 0x20 * r
def R.pciRxgCfg (r : Nat) : Nat := 0xC100008 + 0x20 * r
def R.pciTxgCfg (r : Nat) : Nat := 0xC200008 + 0x20 * r
def R.pciRxgLevel (r : Nat) : Nat := 0xC10000C + 0x20 * r
def R.pciTxgLevel (r : Nat) : Nat := 0xC20000C + 0x20 * r
def R.pciRxgHead (r : Nat) : Nat := 0xC100010 + 0x20 * r
def R.pciTxgHead (r : Nat) : Nat := 0xC200010 + 0x20 * r
def R.pciRxgTail (r : Nat) : Nat := 0xC100014 + 0x20 * r
def R.pciTxgTail (r : Nat) : Nat := 0xC200014 + 0x20 * r
def R.pciRxgStat (r : Nat) : Nat := 0xC100018 + 0x20 * r
def R.pciTxgStat (r : Nat) : Nat := 0xC200018 + 0x20 * r
def R.pciRxgDrop (r : Nat) : Nat := 0xC10001C + 0x20 * r
def R.pciTxgDrop (r : Nat) : Nat := 0xC20001C + 0x20 * r
def R.hrtTimNs : Nat := 0x30000
def R.hrtTimSub : Nat := 0x30004
def R.hrtTimInc : Nat := 0x30008
def R.hrtTimStepns : Nat := 0x3000C
def R.hrtTimStepctl : Nat := 0x30010
def R.hrtTimStat : Nat := 0x30014
def R.hrtTimPpscfg : Nat := 0x30020
def R.hrtTimPpsnext : Nat := 0x30024
def R.hrtTimPpsper : Nat := 0x30028
def R.hrtTimPpsinns : Nat := 0x3002C
def R.hrtTimPpsinsub : Nat := 0x30030
def R.hrtTimSecbasehi : Nat := 0x30040
def R.hrtTimSecbaselo : Nat := 0x30044
def R.hrtTimNsbase : Nat := 0x30048
def R.hrtCfgStat : Nat := 0x40000
def R.hrtCfgSeqa : Nat := 0x40004
def R.hrtCfgSeqb : Nat := 0x40008
def R.hrtCfgCmd : Nat := 0x4000C
def R.hrtCfgDrain : Nat := 0x40010
def R.hrtCfgCtllvl : Nat := 0x40014
def R.hrtCfgFailmask : Nat := 0x40018
def R.hrtCfgCseq (c : Nat) : Nat := 0x40040 + 4 * c
def R.hrtPwrState : Nat := 0x50000
def R.hrtPwrReq : Nat := 0x50004
def R.hrtPwrCfg : Nat := 0x50008
def R.hrtPwrRetain : Nat := 0x5000C
def R.hrtPwrEmbwin : Nat := 0x50010
def R.hrtPwrCord (c : Nat) : Nat := 0x50100 + 4 * c
def R.hrtPwrRefcnt (k : Nat) : Nat := 0x50200 + 4 * k
def R.hrtSnsTemp (i : Nat) : Nat := 0x60000 + 4 * i
def R.hrtSnsTthr : Nat := 0x60080
def R.hrtSnsStat : Nat := 0x60084
def R.hrtSnsRail (i : Nat) : Nat := 0x60100 + 4 * i
def R.hrtSnsRlim (i : Nat) : Nat := 0x60140 + 4 * i
def R.hrtHstStat : Nat := 0x70000
def R.hrtHstFwver : Nat := 0x70004
def R.hrtHstFwseq : Nat := 0x7000C
def R.hrtMbxCtl : Nat := 0x70008
def R.hrtMbxReq (i : Nat) : Nat := 0x70100 + 4 * i
def R.hrtMbxRsp (i : Nat) : Nat := 0x70200 + 4 * i
def R.hrtEvtSrcCtl (n : Nat) : Nat := 0x80000 + 0x10 * n
def R.hrtEvtSrcFirstns (n : Nat) : Nat := 0x80004 + 0x10 * n
def R.hrtEvtSrcFirstw (n : Nat) : Nat := 0x80008 + 0x10 * n
def R.hrtEvtGstat (g : Nat) : Nat := 0x81000 + 4 * g
def R.hrtEvtGcfg (g : Nat) : Nat := 0x81040 + 4 * g
def R.hrtEvtTop : Nat := 0x81080
def R.hrtSmbStat : Nat := 0xA0000
def R.hsFiCtl (p : Nat) : Nat := hsBase 0x80 p
def R.hsFiPar (p : Nat) : Nat := hsBase 0x80 p + 4
def R.hsFiRate (p : Nat) : Nat := hsBase 0x80 p + 8
def R.hsFiSeed (p : Nat) : Nat := hsBase 0x80 p + 0xC
def R.hsFiLimit (p : Nat) : Nat := hsBase 0x80 p + 0x10
def R.hsFiStat (p : Nat) : Nat := hsBase 0x80 p + 0x14
def R.hsFiCnt (p : Nat) : Nat := hsBase 0x80 p + 0x18
def R.lfFiCtl (w s : Nat) : Nat := 0x6A00000 + 0x1000000 * w + 0x10000 * s
def R.lfFiPar (w s : Nat) : Nat := 0x6A00004 + 0x1000000 * w + 0x10000 * s
def R.lfFiRate (w s : Nat) : Nat := 0x6A00008 + 0x1000000 * w + 0x10000 * s
def R.lfFiSeed (w s : Nat) : Nat := 0x6A0000C + 0x1000000 * w + 0x10000 * s
def R.lfFiLimit (w s : Nat) : Nat := 0x6A00010 + 0x1000000 * w + 0x10000 * s
def R.lfFiStat (w s : Nat) : Nat := 0x6A00014 + 0x1000000 * w + 0x10000 * s
def R.lfFiCnt (w s : Nat) : Nat := 0x6A00018 + 0x1000000 * w + 0x10000 * s
def R.pktFiCtl (k : Nat) : Nat := 0x8600000 + 0x10000 * k
def R.pktFiPar (k : Nat) : Nat := 0x8600004 + 0x10000 * k
def R.pktFiRate (k : Nat) : Nat := 0x8600008 + 0x10000 * k
def R.pktFiSeed (k : Nat) : Nat := 0x860000C + 0x10000 * k
def R.pktFiLimit (k : Nat) : Nat := 0x8600010 + 0x10000 * k
def R.pktFiStat (k : Nat) : Nat := 0x8600014 + 0x10000 * k
def R.pktFiCnt (k : Nat) : Nat := 0x8600018 + 0x10000 * k
def R.hrtFiGlobal : Nat := 0xB0000
def R.hrtGlbId : Nat := 0
def R.hrtGlbSerlo : Nat := 4
def R.hrtGlbSerhi : Nat := 8
def R.hrtGlbKhash (k w : Nat) : Nat := 0x100 + 0x40 * k + 4 * w
def R.hrtGlbKrev : Nat := 0x200
def R.hrtGlbAerr : Nat := 0x10
def R.hrtGlbAerradr : Nat := 0x14
def R.hrtTimWlRxsfn (w : Nat) : Nat := 0x30100 + 0x40 * w
def R.hrtTimWlRxns (w : Nat) : Nat := 0x30104 + 0x40 * w
def R.hrtTimWlRxsub (w : Nat) : Nat := 0x30108 + 0x40 * w
def R.hrtTimWlTxsfn (w : Nat) : Nat := 0x3010C + 0x40 * w
def R.hrtTimWlTxns (w : Nat) : Nat := 0x30110 + 0x40 * w
def R.hrtTimWlTxsub (w : Nat) : Nat := 0x30114 + 0x40 * w
def R.hrtTimWlBseq (w : Nat) : Nat := 0x30118 + 0x40 * w
def R.hrtTimWlBns (w : Nat) : Nat := 0x3011C + 0x40 * w
def R.hrtTimWlBsub (w : Nat) : Nat := 0x30120 + 0x40 * w
def R.hrtTimWlTodrsfn (w : Nat) : Nat := 0x30124 + 0x40 * w
def R.hrtTimWlTodsechi (w : Nat) : Nat := 0x30128 + 0x40 * w
def R.hrtTimWlTodseclo (w : Nat) : Nat := 0x3012C + 0x40 * w
def R.hrtTimWlTodns (w : Nat) : Nat := 0x30130 + 0x40 * w
def R.hrtTimWlTodfrac (w : Nat) : Nat := 0x30134 + 0x40 * w
def R.hrtTimWlLocns (w : Nat) : Nat := 0x30138 + 0x40 * w
def R.hrtTimWlLocsub (w : Nat) : Nat := 0x3013C + 0x40 * w

def F.hrtClkStatRefok : Fld := ⟨R.hrtClkStat, 0, 1⟩
def F.hrtClkStatRootlock : Fld := ⟨R.hrtClkStat, 1, 1⟩
def F.hrtClkStatHrtsrc : Fld := ⟨R.hrtClkStat, 2, 2⟩
def F.hrtClkStatDiscact : Fld := ⟨R.hrtClkStat, 4, 1⟩
def F.hrtClkStatDischold : Fld := ⟨R.hrtClkStat, 5, 1⟩
def F.hrtClkStatDisclim : Fld := ⟨R.hrtClkStat, 6, 1⟩
def F.hrtClkStatReflost : Fld := ⟨R.hrtClkStat, 8, 1⟩
def F.hrtClkStatRootunlock : Fld := ⟨R.hrtClkStat, 9, 1⟩
def F.hrtClkStatDisclost : Fld := ⟨R.hrtClkStat, 10, 1⟩
def F.hrtClkDiscEn : Fld := ⟨R.hrtClkDisc, 0, 1⟩
def F.hrtClkDiscSrc : Fld := ⟨R.hrtClkDisc, 1, 1⟩
def F.hrtClkDiscBw : Fld := ⟨R.hrtClkDisc, 8, 4⟩
def F.hrtClkSteerSteer : Fld := ⟨R.hrtClkSteer, 0, 24⟩
def F.cvAdcCfgLoslvl (w : Nat) : Fld := ⟨(R.cvAdcCfg w), 0, 8⟩
def F.cvAdcCfgClipthr (w : Nat) : Fld := ⟨(R.cvAdcCfg w), 8, 8⟩
def F.cvAdcDeskewDeskew (w c : Nat) : Fld := ⟨(R.cvAdcDeskew w c), 0, 9⟩
def F.cvAdcLvlLvl0 (w : Nat) : Fld := ⟨(R.cvAdcLvl w), 0, 8⟩
def F.cvAdcLvlLvl1 (w : Nat) : Fld := ⟨(R.cvAdcLvl w), 8, 8⟩
def F.cvAdcLvlLvl2 (w : Nat) : Fld := ⟨(R.cvAdcLvl w), 16, 8⟩
def F.cvAdcLvlLvl3 (w : Nat) : Fld := ⟨(R.cvAdcLvl w), 24, 8⟩
def F.cvAdcStatLos (w : Nat) : Fld := ⟨(R.cvAdcStat w), 0, 1⟩
def F.cvAdcStatClip (w : Nat) : Fld := ⟨(R.cvAdcStat w), 1, 1⟩
def F.cvAdcStatLosstk (w : Nat) : Fld := ⟨(R.cvAdcStat w), 8, 1⟩
def F.cvAdcStatClipstk (w : Nat) : Fld := ⟨(R.cvAdcStat w), 9, 1⟩
def F.cvAdcStatClipcnt (w : Nat) : Fld := ⟨(R.cvAdcStat w), 16, 16⟩
def F.cvSelStatRxeng (w : Nat) : Fld := ⟨(R.cvSelStat w), 0, 2⟩
def F.cvSelStatRxeng2 (w : Nat) : Fld := ⟨(R.cvSelStat w), 2, 2⟩
def F.cvSelStatTxeng (w : Nat) : Fld := ⟨(R.cvSelStat w), 4, 2⟩
def F.cvSelStatOverlap (w : Nat) : Fld := ⟨(R.cvSelStat w), 8, 1⟩
def F.leRxcCdcfgPreset (e : Nat) : Fld := ⟨(R.leRxcCdcfg e), 0, 18⟩
def F.leRxcCdcfgTrken (e : Nat) : Fld := ⟨(R.leRxcCdcfg e), 18, 1⟩
def F.leRxcCdcfgWin (e : Nat) : Fld := ⟨(R.leRxcCdcfg e), 24, 8⟩
def F.leRxcCdstatEst (e : Nat) : Fld := ⟨(R.leRxcCdstat e), 0, 18⟩
def F.leRxcCdstatValid (e : Nat) : Fld := ⟨(R.leRxcCdstat e), 20, 1⟩
def F.leRxcCdstatSrc (e : Nat) : Fld := ⟨(R.leRxcCdstat e), 21, 2⟩
def F.leRxcCfgSpacing (e : Nat) : Fld := ⟨(R.leRxcCfg e), 0, 5⟩
def F.leRxcCfgAcqto (e : Nat) : Fld := ⟨(R.leRxcCfg e), 8, 8⟩
def F.leRxcCfgTrbw (e : Nat) : Fld := ⟨(R.leRxcCfg e), 16, 4⟩
def F.leRxcDecodeMask (e : Nat) : Fld := ⟨(R.leRxcDecode e), 0, 32⟩
def F.leRxsEqcfgTaps (e s : Nat) : Fld := ⟨(R.leRxsEqcfg e s), 0, 4⟩
def F.leRxsEqcfgMu (e s : Nat) : Fld := ⟨(R.leRxsEqcfg e s), 4, 5⟩
def F.leRxsEqcfgRolloff (e s : Nat) : Fld := ⟨(R.leRxsEqcfg e s), 12, 5⟩
def F.leRxsStatEqlock (e s : Nat) : Fld := ⟨(R.leRxsStat e s), 0, 1⟩
def F.leRxsStatPhlock (e s : Nat) : Fld := ⟨(R.leRxsStat e s), 1, 1⟩
def F.leRxsStatSingstk (e s : Nat) : Fld := ⟨(R.leRxsStat e s), 8, 1⟩
def F.leRxsStatSlipstk (e s : Nat) : Fld := ⟨(R.leRxsStat e s), 9, 1⟩
def F.leRxsStatSlipcnt (e s : Nat) : Fld := ⟨(R.leRxsStat e s), 16, 16⟩
def F.leRxsPolSoprate (e s : Nat) : Fld := ⟨(R.leRxsPol e s), 0, 16⟩
def F.leRxsPolDgd (e s : Nat) : Fld := ⟨(R.leRxsPol e s), 16, 16⟩
def F.leRxcTrstatLock (e : Nat) : Fld := ⟨(R.leRxcTrstat e), 0, 1⟩
def F.leRxcTrstatUnlkstk (e : Nat) : Fld := ⟨(R.leRxcTrstat e), 1, 1⟩
def F.leRxcTrstatTejit (e : Nat) : Fld := ⟨(R.leRxcTrstat e), 8, 8⟩
def F.leRxcTrstatOffset (e : Nat) : Fld := ⟨(R.leRxcTrstat e), 16, 16⟩
def F.leRxcLsrcfgEn (e : Nat) : Fld := ⟨(R.leRxcLsrcfg e), 0, 1⟩
def F.leRxcLsrcfgGain (e : Nat) : Fld := ⟨(R.leRxcLsrcfg e), 1, 3⟩
def F.leRxcLsrcfgDeadband (e : Nat) : Fld := ⟨(R.leRxcLsrcfg e), 8, 8⟩
def F.leRxcLsrcfgMaxstep (e : Nat) : Fld := ⟨(R.leRxcLsrcfg e), 16, 10⟩
def F.leRxcLsrcfgLimit (e : Nat) : Fld := ⟨(R.leRxcLsrcfg e), 26, 6⟩
def F.leRxcCfostatCfo (e : Nat) : Fld := ⟨(R.leRxcCfostat e), 0, 16⟩
def F.leRxcCfostatLaser (e : Nat) : Fld := ⟨(R.leRxcCfostat e), 16, 16⟩
def F.leRxsLlrcfgScale (e s : Nat) : Fld := ⟨(R.leRxsLlrcfg e s), 0, 8⟩
def F.leRxsLlrcfgSatthr (e s : Nat) : Fld := ⟨(R.leRxsLlrcfg e s), 8, 8⟩
def F.leRxsLlrcfgProfile (e s : Nat) : Fld := ⟨(R.leRxsLlrcfg e s), 16, 8⟩
def F.leRxsQualValid (e s : Nat) : Fld := ⟨(R.leRxsQual e s), 0, 1⟩
def F.leRxsQualKind (e s : Nat) : Fld := ⟨(R.leRxsQual e s), 1, 1⟩
def F.leRxsQualLevel (e s : Nat) : Fld := ⟨(R.leRxsQual e s), 4, 12⟩
def F.leRxsQualEvm (e s : Nat) : Fld := ⟨(R.leRxsQual e s), 16, 16⟩
def F.leRxsQthrSnrmin (e s : Nat) : Fld := ⟨(R.leRxsQthr e s), 0, 12⟩
def F.leRxsQthrPwrmin (e s : Nat) : Fld := ⟨(R.leRxsQthr e s), 16, 10⟩
def F.leRxcStatAcq (e : Nat) : Fld := ⟨(R.leRxcStat e), 0, 3⟩
def F.leRxcStatSettled (e : Nat) : Fld := ⟨(R.leRxcStat e), 3, 1⟩
def F.leRxcStatWide (e : Nat) : Fld := ⟨(R.leRxcStat e), 4, 1⟩
def F.leRxcStatLaserlim (e : Nat) : Fld := ⟨(R.leRxcStat e), 5, 1⟩
def F.leRxcStatLaserfail (e : Nat) : Fld := ⟨(R.leRxcStat e), 6, 1⟩
def F.leRxcStatAcqcnt (e : Nat) : Fld := ⟨(R.leRxcStat e), 8, 8⟩
def F.leTxsProfCur (e s : Nat) : Fld := ⟨(R.leTxsProf e s), 0, 8⟩
def F.leTxsProfNext (e s : Nat) : Fld := ⟨(R.leTxsProf e s), 8, 8⟩
def F.leTxsProfNextv (e s : Nat) : Fld := ⟨(R.leTxsProf e s), 16, 1⟩
def F.leTxsShapeRolloff (e s : Nat) : Fld := ⟨(R.leTxsShape e s), 0, 5⟩
def F.leTxsShapeGain (e s : Nat) : Fld := ⟨(R.leTxsShape e s), 8, 8⟩
def F.leTxmBinAtt (e b : Nat) : Fld := ⟨(R.leTxmBin e b), 0, 8⟩
def F.leTxmBinLimit (e b : Nat) : Fld := ⟨(R.leTxmBin e b), 8, 8⟩
def F.leTxmBinMeas (e b : Nat) : Fld := ⟨(R.leTxmBin e b), 16, 8⟩
def F.leTxcMaskctlMonen (e : Nat) : Fld := ⟨(R.leTxcMaskctl e), 0, 1⟩
def F.leTxcMaskctlMuteen (e : Nat) : Fld := ⟨(R.leTxcMaskctl e), 1, 1⟩
def F.leTxcMaskctlUnmute (e : Nat) : Fld := ⟨(R.leTxcMaskctl e), 2, 1⟩
def F.leTxcMaskctlViolbin (e : Nat) : Fld := ⟨(R.leTxcMaskctl e), 16, 9⟩
def F.leTxcCfgSpacing (e : Nat) : Fld := ⟨(R.leTxcCfg e), 0, 5⟩
def F.leTxcCfgOutlvl (e : Nat) : Fld := ⟨(R.leTxcCfg e), 8, 8⟩
def F.leTxcCfgClipthr (e : Nat) : Fld := ⟨(R.leTxcCfg e), 16, 8⟩
def F.leTxpTapCoef (e c t : Nat) : Fld := ⟨(R.leTxpTap e c t), 0, 12⟩
def F.cvDacDeskewDeskew (w c : Nat) : Fld := ⟨(R.cvDacDeskew w c), 0, 9⟩
def F.leTxcStatState (e : Nat) : Fld := ⟨(R.leTxcStat e), 0, 2⟩
def F.leTxcStatClip (e : Nat) : Fld := ⟨(R.leTxcStat e), 2, 1⟩
def F.leTxcStatMuted (e : Nat) : Fld := ⟨(R.leTxcStat e), 3, 1⟩
def F.leTxcStatMaskstk (e : Nat) : Fld := ⟨(R.leTxcStat e), 8, 1⟩
def F.leTxcStatClipstk (e : Nat) : Fld := ⟨(R.leTxcStat e), 9, 1⟩
def F.leTxcStatMaskcnt (e : Nat) : Fld := ⟨(R.leTxcStat e), 16, 8⟩
def F.leTxcStatClipcnt (e : Nat) : Fld := ⟨(R.leTxcStat e), 24, 8⟩
def F.cvTrdCfgTout (w : Nat) : Fld := ⟨(R.cvTrdCfg w), 0, 10⟩
def F.cvTrdCfgHbper (w : Nat) : Fld := ⟨(R.cvTrdCfg w), 16, 8⟩
def F.cvTrdCfgDowncnt (w : Nat) : Fld := ⟨(R.cvTrdCfg w), 24, 4⟩
def F.cvTrdCmdType (w : Nat) : Fld := ⟨(R.cvTrdCmd w), 0, 4⟩
def F.cvTrdCmdGo (w : Nat) : Fld := ⟨(R.cvTrdCmd w), 31, 1⟩
def F.cvTrdArgArg (w : Nat) : Fld := ⟨(R.cvTrdArg w), 0, 32⟩
def F.cvTrdRspArg (w : Nat) : Fld := ⟨(R.cvTrdRsp w), 0, 32⟩
def F.cvTrdStatBusy (w : Nat) : Fld := ⟨(R.cvTrdStat w), 0, 1⟩
def F.cvTrdStatResult (w : Nat) : Fld := ⟨(R.cvTrdStat w), 1, 3⟩
def F.cvTrdStatLinkup (w : Nat) : Fld := ⟨(R.cvTrdStat w), 4, 1⟩
def F.cvTrdStatTocnt (w : Nat) : Fld := ⟨(R.cvTrdStat w), 8, 8⟩
def F.cvTrdStatBadcnt (w : Nat) : Fld := ⟨(R.cvTrdStat w), 16, 8⟩
def F.cvTrdStatNakcnt (w : Nat) : Fld := ⟨(R.cvTrdStat w), 24, 8⟩
def F.lfAlnCfgN (w : Nat) : Fld := ⟨(R.lfAlnCfg w), 0, 4⟩
def F.lfAlnCfgM (w : Nat) : Fld := ⟨(R.lfAlnCfg w), 4, 4⟩
def F.lfAlnThrAwtol (w : Nat) : Fld := ⟨(R.lfAlnThr w), 0, 9⟩
def F.lfAlnStatAllaln (w : Nat) : Fld := ⟨(R.lfAlnStat w), 0, 1⟩
def F.lfAlnStatBcnv (w : Nat) : Fld := ⟨(R.lfAlnStat w), 1, 1⟩
def F.lfAlnStatBcnsc (w : Nat) : Fld := ⟨(R.lfAlnStat w), 8, 5⟩
def F.lfScsAlnState (w s : Nat) : Fld := ⟨(R.lfScsAln w s), 0, 2⟩
def F.lfScsAlnNcand (w s : Nat) : Fld := ⟨(R.lfScsAln w s), 2, 3⟩
def F.lfScsAlnVar (w s : Nat) : Fld := ⟨(R.lfScsAln w s), 5, 1⟩
def F.lfScsAlnLossstk (w s : Nat) : Fld := ⟨(R.lfScsAln w s), 8, 1⟩
def F.lfScsAlnLosscnt (w s : Nat) : Fld := ⟨(R.lfScsAln w s), 16, 8⟩
def F.lfScsAlnCandfull (w s : Nat) : Fld := ⟨(R.lfScsAln w s), 24, 8⟩
def F.lfScsHdrProf (w s : Nat) : Fld := ⟨(R.lfScsHdr w s), 0, 8⟩
def F.lfScsHdrRdi (w s : Nat) : Fld := ⟨(R.lfScsHdr w s), 8, 1⟩
def F.lfScsHdrCrccnt (w s : Nat) : Fld := ⟨(R.lfScsHdr w s), 16, 8⟩
def F.lfScsHdrMiscnt (w s : Nat) : Fld := ⟨(R.lfScsHdr w s), 24, 8⟩
def F.lfScsSfnSfn (w s : Nat) : Fld := ⟨(R.lfScsSfn w s), 0, 32⟩
def F.lfFecCfgIter (w : Nat) : Fld := ⟨(R.lfFecCfg w), 0, 5⟩
def F.lfFecCfgOfs (w : Nat) : Fld := ⟨(R.lfFecCfg w), 8, 2⟩
def F.lfFecCfgSdthr (w : Nat) : Fld := ⟨(R.lfFecCfg w), 16, 16⟩
def F.lfScsFeccbCb (w s : Nat) : Fld := ⟨(R.lfScsFeccb w s), 0, 32⟩
def F.lfScsFecubUb (w s : Nat) : Fld := ⟨(R.lfScsFecub w s), 0, 32⟩
def F.lfScsFecitAvgit (w s : Nat) : Fld := ⟨(R.lfScsFecit w s), 0, 9⟩
def F.lfScsFecitMaxhit (w s : Nat) : Fld := ⟨(R.lfScsFecit w s), 16, 16⟩
def F.lfGrpStatSize (w g : Nat) : Fld := ⟨(R.lfGrpStat w g), 0, 6⟩
def F.lfGrpStatState (w g : Nat) : Fld := ⟨(R.lfGrpStat w g), 8, 2⟩
def F.lfGrpStatSkew (w g : Nat) : Fld := ⟨(R.lfGrpStat w g), 12, 20⟩
def F.lfGrpMembMask (w g : Nat) : Fld := ⟨(R.lfGrpMemb w g), 0, 32⟩
def F.lfCellCfgReasmto (w : Nat) : Fld := ⟨(R.lfCellCfg w), 0, 8⟩
def F.lfCellIdleIdle (w : Nat) : Fld := ⟨(R.lfCellIdle w), 0, 32⟩
def F.lfCellErrHec (w : Nat) : Fld := ⟨(R.lfCellErr w), 0, 16⟩
def F.lfCellErrFmt (w : Nat) : Fld := ⟨(R.lfCellErr w), 16, 16⟩
def F.lfCellLostLost (w : Nat) : Fld := ⟨(R.lfCellLost w), 0, 32⟩
def F.lfCellPktdropPktdrop (w : Nat) : Fld := ⟨(R.lfCellPktdrop w), 0, 32⟩
def F.lfCellDlpdropDlpdrop (w : Nat) : Fld := ⟨(R.lfCellDlpdrop w), 0, 32⟩
def F.lfPmCtlClear (w : Nat) : Fld := ⟨(R.lfPmCtl w), 0, 1⟩
def F.lfPmStatUav (w : Nat) : Fld := ⟨(R.lfPmStat w), 0, 1⟩
def F.lfPmStatSecnum (w : Nat) : Fld := ⟨(R.lfPmStat w), 16, 16⟩
def F.lfPmEsCount (w : Nat) : Fld := ⟨(R.lfPmEs w), 0, 32⟩
def F.lfPmSesCount (w : Nat) : Fld := ⟨(R.lfPmSes w), 0, 32⟩
def F.lfPmUasCount (w : Nat) : Fld := ⟨(R.lfPmUas w), 0, 32⟩
def F.lfPmSpsCount (w : Nat) : Fld := ⟨(R.lfPmSps w), 0, 32⟩
def F.lfScsPmesCount (w s : Nat) : Fld := ⟨(R.lfScsPmes w s), 0, 32⟩
def F.lfScsPmsesCount (w s : Nat) : Fld := ⟨(R.lfScsPmses w s), 0, 32⟩
def F.lfScsPmuasCount (w s : Nat) : Fld := ⟨(R.lfScsPmuas w s), 0, 32⟩
def F.lfScsPmspsCount (w s : Nat) : Fld := ⟨(R.lfScsPmsps w s), 0, 32⟩
def F.lfScsPmstatUav (w s : Nat) : Fld := ⟨(R.lfScsPmstat w s), 0, 1⟩
def F.lfCtlErrMcrc (w : Nat) : Fld := ⟨(R.lfCtlErr w), 0, 8⟩
def F.lfCtlErrUnk (w : Nat) : Fld := ⟨(R.lfCtlErr w), 8, 8⟩
def F.lfCtlErrFld (w : Nat) : Fld := ⟨(R.lfCtlErr w), 16, 8⟩
def F.lfCtlErrRef (w : Nat) : Fld := ⟨(R.lfCtlErr w), 24, 8⟩
def F.lfActCfgActen (w : Nat) : Fld := ⟨(R.lfActCfg w), 0, 1⟩
def F.lfActCfgIdto (w : Nat) : Fld := ⟨(R.lfActCfg w), 8, 8⟩
def F.lfActCfgRngto (w : Nat) : Fld := ⟨(R.lfActCfg w), 16, 8⟩
def F.lfActCfgBlossto (w : Nat) : Fld := ⟨(R.lfActCfg w), 24, 8⟩
def F.lfActCfg2Lostto (w : Nat) : Fld := ⟨(R.lfActCfg2 w), 0, 16⟩
def F.lfActCfg2Discto (w : Nat) : Fld := ⟨(R.lfActCfg2 w), 16, 16⟩
def F.lfActStatState (w : Nat) : Fld := ⟨(R.lfActStat w), 0, 3⟩
def F.lfActStatRet (w : Nat) : Fld := ⟨(R.lfActStat w), 3, 3⟩
def F.lfActStatDsloss (w : Nat) : Fld := ⟨(R.lfActStat w), 6, 1⟩
def F.lfActStatSilhe (w : Nat) : Fld := ⟨(R.lfActStat w), 8, 1⟩
def F.lfActStatSilsp (w : Nat) : Fld := ⟨(R.lfActStat w), 9, 1⟩
def F.lfActStatSilrem (w : Nat) : Fld := ⟨(R.lfActStat w), 16, 16⟩
def F.lfActCtlResume (w : Nat) : Fld := ⟨(R.lfActCtl w), 0, 1⟩
def F.lfActCtlDeact (w : Nat) : Fld := ⟨(R.lfActCtl w), 1, 1⟩
def F.lfActIdTid (w : Nat) : Fld := ⟨(R.lfActId w), 0, 12⟩
def F.lfActEqdEqd (w : Nat) : Fld := ⟨(R.lfActEqd w), 0, 24⟩
def F.lfActRtdRtd (w : Nat) : Fld := ⟨(R.lfActRtd w), 0, 24⟩
def F.lfStsQgQg (w i : Nat) : Fld := ⟨(R.lfStsQg w i), 0, 8⟩
def F.lfStsQgEn (w i : Nat) : Fld := ⟨(R.lfStsQg w i), 31, 1⟩
def F.lfPrfCodeCode (w s : Nat) : Fld := ⟨(R.lfPrfCode w s), 0, 8⟩
def F.lfPrfCodeInc (w s : Nat) : Fld := ⟨(R.lfPrfCode w s), 8, 1⟩
def F.lfPrfReqDir (w : Nat) : Fld := ⟨(R.lfPrfReq w), 0, 1⟩
def F.lfPrfReqOp (w : Nat) : Fld := ⟨(R.lfPrfReq w), 1, 1⟩
def F.lfPrfReqLead (w : Nat) : Fld := ⟨(R.lfPrfReq w), 4, 12⟩
def F.lfPrfReqGo (w : Nat) : Fld := ⟨(R.lfPrfReq w), 31, 1⟩
def F.lfPrfStatBusy (w : Nat) : Fld := ⟨(R.lfPrfStat w), 0, 1⟩
def F.lfPrfStatResult (w : Nat) : Fld := ⟨(R.lfPrfStat w), 1, 3⟩
def F.lfPrfStatRcode (w : Nat) : Fld := ⟨(R.lfPrfStat w), 8, 8⟩
def F.lfPrfStatMaster (w : Nat) : Fld := ⟨(R.lfPrfStat w), 31, 1⟩
def F.lfPrfEsfnEsfn (w : Nat) : Fld := ⟨(R.lfPrfEsfn w), 0, 32⟩
def F.lfGntBurstsBursts (w : Nat) : Fld := ⟨(R.lfGntBursts w), 0, 32⟩
def F.lfGntErrRange (w : Nat) : Fld := ⟨(R.lfGntErr w), 0, 8⟩
def F.lfGntErrSet (w : Nat) : Fld := ⟨(R.lfGntErr w), 8, 8⟩
def F.lfGntErrLate (w : Nat) : Fld := ⟨(R.lfGntErr w), 16, 8⟩
def F.lfGntErrOvl (w : Nat) : Fld := ⟨(R.lfGntErr w), 24, 8⟩
def F.lfGntMissOvf (w : Nat) : Fld := ⟨(R.lfGntMiss w), 0, 16⟩
def F.lfGntMissMiss (w : Nat) : Fld := ⟨(R.lfGntMiss w), 16, 16⟩
def F.lfCryCfgWarn (w : Nat) : Fld := ⟨(R.lfCryCfg w), 0, 16⟩
def F.lfCryCfgUrgctl (w : Nat) : Fld := ⟨(R.lfCryCfg w), 16, 1⟩
def F.lfCryKeywKeyw (w i : Nat) : Fld := ⟨(R.lfCryKeyw w i), 0, 32⟩
def F.lfCrySaltSalt (w : Nat) : Fld := ⟨(R.lfCrySalt w), 0, 32⟩
def F.lfCryKcmdGid (w : Nat) : Fld := ⟨(R.lfCryKcmd w), 0, 5⟩
def F.lfCryKcmdDir (w : Nat) : Fld := ⟨(R.lfCryKcmd w), 8, 1⟩
def F.lfCryKcmdSlot (w : Nat) : Fld := ⟨(R.lfCryKcmd w), 12, 1⟩
def F.lfCryKcmdOp (w : Nat) : Fld := ⟨(R.lfCryKcmd w), 16, 2⟩
def F.lfCryKcmdGo (w : Nat) : Fld := ⟨(R.lfCryKcmd w), 31, 1⟩
def F.lfCryKstatBusy (w : Nat) : Fld := ⟨(R.lfCryKstat w), 0, 1⟩
def F.lfCryKswGid (w : Nat) : Fld := ⟨(R.lfCryKsw w), 0, 5⟩
def F.lfCryKswDir (w : Nat) : Fld := ⟨(R.lfCryKsw w), 8, 1⟩
def F.lfCryKswKidx (w : Nat) : Fld := ⟨(R.lfCryKsw w), 12, 1⟩
def F.lfCryKswLead (w : Nat) : Fld := ⟨(R.lfCryKsw w), 16, 12⟩
def F.lfCryKswGo (w : Nat) : Fld := ⟨(R.lfCryKsw w), 31, 1⟩
def F.lfCryKswstatBusy (w : Nat) : Fld := ⟨(R.lfCryKswstat w), 0, 1⟩
def F.lfCryKswstatResult (w : Nat) : Fld := ⟨(R.lfCryKswstat w), 1, 3⟩
def F.lfCryKswstatRcode (w : Nat) : Fld := ⟨(R.lfCryKswstat w), 8, 8⟩
def F.lfCrytStatEnc (w g : Nat) : Fld := ⟨(R.lfCrytStat w g), 0, 1⟩
def F.lfCrytStatSlot (w g : Nat) : Fld := ⟨(R.lfCrytStat w g), 1, 1⟩
def F.lfCrytStatLd0 (w g : Nat) : Fld := ⟨(R.lfCrytStat w g), 2, 1⟩
def F.lfCrytStatLd1 (w g : Nat) : Fld := ⟨(R.lfCrytStat w g), 3, 1⟩
def F.lfCrytStatHalt (w g : Nat) : Fld := ⟨(R.lfCrytStat w g), 4, 2⟩
def F.lfCrytStatWarnstk (w g : Nat) : Fld := ⟨(R.lfCrytStat w g), 8, 1⟩
def F.lfCrytStatRecomp (w g : Nat) : Fld := ⟨(R.lfCrytStat w g), 16, 16⟩
def F.lfCrytGctrloGctr (w g : Nat) : Fld := ⟨(R.lfCrytGctrlo w g), 0, 32⟩
def F.lfCrytGctrhiGctr (w g : Nat) : Fld := ⟨(R.lfCrytGctrhi w g), 0, 16⟩
def F.lfCrytCtlClrflt (w g : Nat) : Fld := ⟨(R.lfCrytCtl w g), 0, 1⟩
def F.lfCryrCtlClrflt (w g : Nat) : Fld := ⟨(R.lfCryrCtl w g), 0, 1⟩
def F.lfCryrStatEnc (w g : Nat) : Fld := ⟨(R.lfCryrStat w g), 0, 1⟩
def F.lfCryrStatLastslot (w g : Nat) : Fld := ⟨(R.lfCryrStat w g), 1, 1⟩
def F.lfCryrStatLd0 (w g : Nat) : Fld := ⟨(R.lfCryrStat w g), 2, 1⟩
def F.lfCryrStatLd1 (w g : Nat) : Fld := ⟨(R.lfCryrStat w g), 3, 1⟩
def F.lfCryrStatFault (w g : Nat) : Fld := ⟨(R.lfCryrStat w g), 4, 1⟩
def F.lfCryrStatModecnt (w g : Nat) : Fld := ⟨(R.lfCryrStat w g), 16, 16⟩
def F.lfCryrTagfailTagfail (w g : Nat) : Fld := ⟨(R.lfCryrTagfail w g), 0, 32⟩
def F.lfCryrErrIncomp (w g : Nat) : Fld := ⟨(R.lfCryrErr w g), 0, 8⟩
def F.lfCryrErrFmt (w g : Nat) : Fld := ⟨(R.lfCryrErr w g), 8, 8⟩
def F.lfCryrErrKeymiss (w g : Nat) : Fld := ⟨(R.lfCryrErr w g), 16, 8⟩
def F.lfCryrErrReplay (w g : Nat) : Fld := ⟨(R.lfCryrErr w g), 24, 8⟩
def F.hrtSprCfgAutorev : Fld := ⟨R.hrtSprCfg, 0, 1⟩
def F.hrtSprCfgSplock : Fld := ⟨R.hrtSprCfg, 1, 1⟩
def F.hrtSprCfgPri : Fld := ⟨R.hrtSprCfg, 2, 1⟩
def F.hrtSprCfgWtr : Fld := ⟨R.hrtSprCfg, 8, 12⟩
def F.hrtSprCfgRevq : Fld := ⟨R.hrtSprCfg, 20, 6⟩
def F.hrtSprCfg2Cethr : Fld := ⟨R.hrtSprCfg2, 0, 8⟩
def F.hrtSprCfg2Fltmax : Fld := ⟨R.hrtSprCfg2, 8, 4⟩
def F.hrtSprCfg2Sptest : Fld := ⟨R.hrtSprCfg2, 16, 8⟩
def F.hrtSprCmdOp : Fld := ⟨R.hrtSprCmd, 0, 3⟩
def F.hrtSprCmdWl : Fld := ⟨R.hrtSprCmd, 4, 1⟩
def F.hrtSprCmdEng : Fld := ⟨R.hrtSprCmd, 8, 2⟩
def F.hrtSprCmdGo : Fld := ⟨R.hrtSprCmd, 31, 1⟩
def F.hrtSprStatWaeng : Fld := ⟨R.hrtSprStat, 0, 2⟩
def F.hrtSprStatWbeng : Fld := ⟨R.hrtSprStat, 2, 2⟩
def F.hrtSprStatState : Fld := ⟨R.hrtSprStat, 4, 3⟩
def F.hrtSprStatBusy : Fld := ⟨R.hrtSprStat, 8, 1⟩
def F.hrtSprStatNosnap : Fld := ⟨R.hrtSprStat, 9, 1⟩
def F.hrtSprStatSeasrem : Fld := ⟨R.hrtSprStat, 16, 16⟩
def F.hrtSprEngRole (e : Nat) : Fld := ⟨(R.hrtSprEng e), 0, 3⟩
def F.hrtSprEngCause (e : Nat) : Fld := ⟨(R.hrtSprEng e), 4, 4⟩
def F.hrtSprEngFlt24 (e : Nat) : Fld := ⟨(R.hrtSprEng e), 8, 4⟩
def F.hrtSprEngCecnt (e : Nat) : Fld := ⟨(R.hrtSprEng e), 16, 8⟩
def F.hrtSprEngFltcnt (e : Nat) : Fld := ⟨(R.hrtSprEng e), 24, 8⟩
def F.hrtSprWlGap (w : Nat) : Fld := ⟨(R.hrtSprWl w), 0, 24⟩
def F.hrtSprWlTkcnt (w : Nat) : Fld := ⟨(R.hrtSprWl w), 24, 8⟩
def F.hrtSprWllostTxlost (w : Nat) : Fld := ⟨(R.hrtSprWllost w), 0, 32⟩
def F.hrtSprSnapSeq (e : Nat) : Fld := ⟨(R.hrtSprSnap e), 0, 16⟩
def F.hrtSprSnapValid (e : Nat) : Fld := ⟨(R.hrtSprSnap e), 16, 1⟩
def F.hrtSprSnapAcqd (e : Nat) : Fld := ⟨(R.hrtSprSnap e), 17, 1⟩
def F.hrtSprSnapWl (e : Nat) : Fld := ⟨(R.hrtSprSnap e), 18, 1⟩
def F.hrtSprSnapSkip (e : Nat) : Fld := ⟨(R.hrtSprSnap e), 24, 8⟩
def F.pktSprCfgSeed : Fld := ⟨R.pktSprCfg, 0, 32⟩
def F.pktSprMapSlice (i : Nat) : Fld := ⟨(R.pktSprMap i), 0, 5⟩
def F.pktSlcPktsCount (n : Nat) : Fld := ⟨(R.pktSlcPkts n), 0, 32⟩
def F.pktSlcOvfCount (n : Nat) : Fld := ⟨(R.pktSlcOvf n), 0, 32⟩
def F.pktPrsSrcProf (i : Nat) : Fld := ⟨(R.pktPrsSrc i), 0, 4⟩
def F.pktPrsSrcDefq (i : Nat) : Fld := ⟨(R.pktPrsSrc i), 16, 13⟩
def F.pktPrsProfSelEtype (p e : Nat) : Fld := ⟨(R.pktPrsProfSel p e), 0, 16⟩
def F.pktPrsProfSelTmpl (p e : Nat) : Fld := ⟨(R.pktPrsProfSel p e), 16, 4⟩
def F.pktPrsProfSelV (p e : Nat) : Fld := ⟨(R.pktPrsProfSel p e), 31, 1⟩
def F.pktPrsProfCfgDeft (p : Nat) : Fld := ⟨(R.pktPrsProfCfg p), 0, 4⟩
def F.pktPrsProfSprOfs0 (p w : Nat) : Fld := ⟨(R.pktPrsProfSpr p w), 0, 6⟩
def F.pktPrsProfSprOfs1 (p w : Nat) : Fld := ⟨(R.pktPrsProfSpr p w), 8, 6⟩
def F.pktPrsProfSprOfs2 (p w : Nat) : Fld := ⟨(R.pktPrsProfSpr p w), 16, 6⟩
def F.pktPrsProfSprOfs3 (p w : Nat) : Fld := ⟨(R.pktPrsProfSpr p w), 24, 6⟩
def F.pktPrsActMalact : Fld := ⟨R.pktPrsAct, 0, 2⟩
def F.pktPrsActNestact : Fld := ⟨R.pktPrsAct, 2, 2⟩
def F.pktPrsActMalring : Fld := ⟨R.pktPrsAct, 4, 11⟩
def F.pktPrsActNestring : Fld := ⟨R.pktPrsAct, 16, 11⟩
def F.pktPrsRcntCount (r : Nat) : Fld := ⟨(R.pktPrsRcnt r), 0, 32⟩
def F.pktPrsTcommitTmask : Fld := ⟨R.pktPrsTcommit, 0, 16⟩
def F.pktPrsTcommitBusy : Fld := ⟨R.pktPrsTcommit, 30, 1⟩
def F.pktPrsTcommitGo : Fld := ⟨R.pktPrsTcommit, 31, 1⟩
def F.pktPrsTmplCfgKind (t : Nat) : Fld := ⟨(R.pktPrsTmplCfg t), 0, 2⟩
def F.pktPrsTmplCfgL4len (t : Nat) : Fld := ⟨(R.pktPrsTmplCfg t), 2, 6⟩
def F.pktPrsTmplCfgLrnen (t : Nat) : Fld := ⟨(R.pktPrsTmplCfg t), 8, 1⟩
def F.pktPrsTmplCfgEmpart (t : Nat) : Fld := ⟨(R.pktPrsTmplCfg t), 12, 3⟩
def F.pktPrsTmplOfsOfs0 (t w : Nat) : Fld := ⟨(R.pktPrsTmplOfs t w), 0, 6⟩
def F.pktPrsTmplOfsOfs1 (t w : Nat) : Fld := ⟨(R.pktPrsTmplOfs t w), 8, 6⟩
def F.pktPrsTmplOfsOfs2 (t w : Nat) : Fld := ⟨(R.pktPrsTmplOfs t w), 16, 6⟩
def F.pktPrsTmplOfsOfs3 (t w : Nat) : Fld := ⟨(R.pktPrsTmplOfs t w), 24, 6⟩
def F.pktPrsTmplOfsV0 (t w : Nat) : Fld := ⟨(R.pktPrsTmplOfs t w), 7, 1⟩
def F.pktPrsTmplOfsV1 (t w : Nat) : Fld := ⟨(R.pktPrsTmplOfs t w), 15, 1⟩
def F.pktPrsTmplOfsV2 (t w : Nat) : Fld := ⟨(R.pktPrsTmplOfs t w), 23, 1⟩
def F.pktPrsTmplOfsV3 (t w : Nat) : Fld := ⟨(R.pktPrsTmplOfs t w), 31, 1⟩
def F.pktPrsTmplDkeyIdx0 (t w : Nat) : Fld := ⟨(R.pktPrsTmplDkey t w), 0, 6⟩
def F.pktPrsTmplDkeyIdx1 (t w : Nat) : Fld := ⟨(R.pktPrsTmplDkey t w), 8, 6⟩
def F.pktPrsTmplDkeyIdx2 (t w : Nat) : Fld := ⟨(R.pktPrsTmplDkey t w), 16, 6⟩
def F.pktPrsTmplDkeyIdx3 (t w : Nat) : Fld := ⟨(R.pktPrsTmplDkey t w), 24, 6⟩
def F.pktPrsTmplSkeyIdx0 (t w : Nat) : Fld := ⟨(R.pktPrsTmplSkey t w), 0, 6⟩
def F.pktPrsTmplSkeyIdx1 (t w : Nat) : Fld := ⟨(R.pktPrsTmplSkey t w), 8, 6⟩
def F.pktPrsTmplSkeyIdx2 (t w : Nat) : Fld := ⟨(R.pktPrsTmplSkey t w), 16, 6⟩
def F.pktPrsTmplSkeyIdx3 (t w : Nat) : Fld := ⟨(R.pktPrsTmplSkey t w), 24, 6⟩
def F.pktClsKeywBits (w : Nat) : Fld := ⟨(R.pktClsKeyw w), 0, 32⟩
def F.pktClsMaskwBits (w : Nat) : Fld := ⟨(R.pktClsMaskw w), 0, 32⟩
def F.pktClsActwBits (w : Nat) : Fld := ⟨(R.pktClsActw w), 0, 32⟩
def F.pktClsDefactBits (w : Nat) : Fld := ⟨(R.pktClsDefact w), 0, 32⟩
def F.pktClsCmdIdx : Fld := ⟨R.pktClsCmd, 0, 15⟩
def F.pktClsCmdOp : Fld := ⟨R.pktClsCmd, 16, 3⟩
def F.pktClsCmdGo : Fld := ⟨R.pktClsCmd, 31, 1⟩
def F.pktClsStatBusy : Fld := ⟨R.pktClsStat, 0, 1⟩
def F.pktClsStatStatus : Fld := ⟨R.pktClsStat, 4, 2⟩
def F.pktClsStatEccidx : Fld := ⟨R.pktClsStat, 16, 15⟩
def F.pktClsCntploCount : Fld := ⟨R.pktClsCntplo, 0, 32⟩
def F.pktClsCntphiCount : Fld := ⟨R.pktClsCntphi, 0, 32⟩
def F.pktClsCntbloCount : Fld := ⟨R.pktClsCntblo, 0, 32⟩
def F.pktClsCntbhiCount : Fld := ⟨R.pktClsCntbhi, 0, 32⟩
def F.pktClsMirrorDest (m : Nat) : Fld := ⟨(R.pktClsMirror m), 0, 13⟩
def F.pktClsMirrorKind (m : Nat) : Fld := ⟨(R.pktClsMirror m), 13, 1⟩
def F.pktClsMirrorEn (m : Nat) : Fld := ⟨(R.pktClsMirror m), 31, 1⟩
def F.pktClsErrHdrfail : Fld := ⟨R.pktClsErr, 0, 8⟩
def F.pktClsErrRwfail : Fld := ⟨R.pktClsErr, 8, 8⟩
def F.pktClsErrMirdrop : Fld := ⟨R.pktClsErr, 16, 8⟩
def F.pktClsErrFaulty : Fld := ⟨R.pktClsErr, 24, 8⟩
def F.pktEmtKeyKey (w : Nat) : Fld := ⟨(R.pktEmtKey w), 0, 32⟩
def F.pktEmtResQueue : Fld := ⟨R.pktEmtRes, 0, 13⟩
def F.pktEmtResEmcls : Fld := ⟨R.pktEmtRes, 13, 8⟩
def F.pktEmtResSrc : Fld := ⟨R.pktEmtRes, 21, 7⟩
def F.pktEmtResLrn : Fld := ⟨R.pktEmtRes, 28, 1⟩
def F.pktEmtResStatic : Fld := ⟨R.pktEmtRes, 29, 1⟩
def F.pktEmtResHb : Fld := ⟨R.pktEmtRes, 30, 1⟩
def F.pktEmtAgeAge : Fld := ⟨R.pktEmtAge, 0, 16⟩
def F.pktEmtAgePart : Fld := ⟨R.pktEmtAge, 16, 3⟩
def F.pktEmtIdxIndex : Fld := ⟨R.pktEmtIdx, 0, 21⟩
def F.pktEmtIdxStash : Fld := ⟨R.pktEmtIdx, 24, 1⟩
def F.pktEmtCmdOp : Fld := ⟨R.pktEmtCmd, 0, 4⟩
def F.pktEmtCmdEven : Fld := ⟨R.pktEmtCmd, 4, 1⟩
def F.pktEmtCmdGo : Fld := ⟨R.pktEmtCmd, 31, 1⟩
def F.pktEmtStatBusy : Fld := ⟨R.pktEmtStat, 0, 1⟩
def F.pktEmtStatStatus : Fld := ⟨R.pktEmtStat, 4, 4⟩
def F.pktEmtStatMoves : Fld := ⟨R.pktEmtStat, 8, 5⟩
def F.pktEmtSeed0Seed : Fld := ⟨R.pktEmtSeed0, 0, 32⟩
def F.pktEmtSeed1Seed : Fld := ⟨R.pktEmtSeed1, 0, 32⟩
def F.pktEmtOccEnt : Fld := ⟨R.pktEmtOcc, 0, 22⟩
def F.pktEmtStashUsed : Fld := ⟨R.pktEmtStash, 0, 7⟩
def F.pktEmtStashThr : Fld := ⟨R.pktEmtStash, 8, 7⟩
def F.pktEmtPartBase (k : Nat) : Fld := ⟨(R.pktEmtPart k), 0, 18⟩
def F.pktEmtPartSize (k : Nat) : Fld := ⟨(R.pktEmtPart k), 18, 5⟩
def F.pktEmtPartEn (k : Nat) : Fld := ⟨(R.pktEmtPart k), 31, 1⟩
def F.pktEmtAgecfgAgemax : Fld := ⟨R.pktEmtAgecfg, 0, 15⟩
def F.pktEmtAgecfgAgeen : Fld := ⟨R.pktEmtAgecfg, 15, 1⟩
def F.pktEmtAgecfgEpochms : Fld := ⟨R.pktEmtAgecfg, 16, 16⟩
def F.pktEmtEpochEpoch : Fld := ⟨R.pktEmtEpoch, 0, 16⟩
def F.pktEmtEpochAged : Fld := ⟨R.pktEmtEpoch, 16, 16⟩
def F.pktLrnCfgHold : Fld := ⟨R.pktLrnCfg, 0, 10⟩
def F.pktLrnCfgLrncls : Fld := ⟨R.pktLrnCfg, 16, 8⟩
def F.pktLrnCntFlap : Fld := ⟨R.pktLrnCnt, 0, 8⟩
def F.pktLrnCntQfull : Fld := ⟨R.pktLrnCnt, 8, 8⟩
def F.pktLrnCntStaticmv : Fld := ⟨R.pktLrnCnt, 16, 8⟩
def F.pktLrnCntDup : Fld := ⟨R.pktLrnCnt, 24, 8⟩
def F.pktLrnPqQueue (p : Nat) : Fld := ⟨(R.pktLrnPq p), 0, 13⟩
def F.pktLrnPqEn (p : Nat) : Fld := ⟨(R.pktLrnPq p), 31, 1⟩
def F.bufBmErrDbl : Fld := ⟨R.bufBmErr, 0, 16⟩
def F.bufBmErrNown : Fld := ⟨R.bufBmErr, 16, 16⟩
def F.bufBmErrlogBuf : Fld := ⟨R.bufBmErrlog, 0, 25⟩
def F.bufBmErrlogAgent : Fld := ⟨R.bufBmErrlog, 25, 6⟩
def F.bufBmErrlogKind : Fld := ⟨R.bufBmErrlog, 31, 1⟩
def F.bufBmEccCorr : Fld := ⟨R.bufBmEcc, 0, 16⟩
def F.bufBmEccUncorr : Fld := ⟨R.bufBmEcc, 16, 16⟩
def F.bufBmReclRecl : Fld := ⟨R.bufBmRecl, 0, 32⟩
def F.bufSmpCfgHshift : Fld := ⟨R.bufSmpCfg, 0, 4⟩
def F.bufSmpSelIdx : Fld := ⟨R.bufSmpSel, 0, 13⟩
def F.bufSmpSelGrp : Fld := ⟨R.bufSmpSel, 13, 1⟩
def F.bufSmpSelClr : Fld := ⟨R.bufSmpSel, 14, 1⟩
def F.bufSmpSelBusy : Fld := ⟨R.bufSmpSel, 30, 1⟩
def F.bufSmpSelGo : Fld := ⟨R.bufSmpSel, 31, 1⟩
def F.bufSmpRecData (w : Nat) : Fld := ⟨(R.bufSmpRec w), 0, 32⟩
def F.bufSmpHistData (b : Nat) : Fld := ⟨(R.bufSmpHist b), 0, 32⟩
def F.bufQmCmdQ : Fld := ⟨R.bufQmCmd, 0, 13⟩
def F.bufQmCmdOp : Fld := ⟨R.bufQmCmd, 16, 2⟩
def F.bufQmCmdBusy : Fld := ⟨R.bufQmCmd, 30, 1⟩
def F.bufQmCmdGo : Fld := ⟨R.bufQmCmd, 31, 1⟩
def F.bufQmLogQ : Fld := ⟨R.bufQmLog, 0, 13⟩
def F.bufQmLogReason : Fld := ⟨R.bufQmLog, 13, 2⟩
def F.bufQmFlushedFlushed : Fld := ⟨R.bufQmFlushed, 0, 32⟩
def F.bufPoolCfgSize (p : Nat) : Fld := ⟨(R.bufPoolCfg p), 0, 25⟩
def F.bufPoolCfgEn (p : Nat) : Fld := ⟨(R.bufPoolCfg p), 30, 1⟩
def F.bufPoolCfgKind (p : Nat) : Fld := ⟨(R.bufPoolCfg p), 31, 1⟩
def F.bufPoolFreeShfree (p : Nat) : Fld := ⟨(R.bufPoolFree p), 0, 25⟩
def F.bufPoolLowLowthr (p : Nat) : Fld := ⟨(R.bufPoolLow p), 0, 25⟩
def F.bufPclsMinMin (i : Nat) : Fld := ⟨(R.bufPclsMin i), 0, 25⟩
def F.bufPclsMaxMax (i : Nat) : Fld := ⟨(R.bufPclsMax i), 0, 25⟩
def F.bufPclsUsedUsed (i : Nat) : Fld := ⟨(R.bufPclsUsed i), 0, 25⟩
def F.bufPclsFailFail (i : Nat) : Fld := ⟨(R.bufPclsFail i), 0, 32⟩
def F.bufSrcClsClass (i : Nat) : Fld := ⟨(R.bufSrcCls i), 0, 4⟩
def F.bufQMapSched (q : Nat) : Fld := ⟨(R.bufQMap q), 0, 8⟩
def F.bufQMapHpool (q : Nat) : Fld := ⟨(R.bufQMap q), 8, 6⟩
def F.bufQMapSpool (q : Nat) : Fld := ⟨(R.bufQMap q), 14, 6⟩
def F.bufQMapSpen (q : Nat) : Fld := ⟨(R.bufQMap q), 20, 1⟩
def F.bufQMapTc (q : Nat) : Fld := ⟨(R.bufQMap q), 21, 3⟩
def F.bufQMapShg (q : Nat) : Fld := ⟨(R.bufQMap q), 24, 8⟩
def F.bufQFlowFlow (q : Nat) : Fld := ⟨(R.bufQFlow q), 0, 20⟩
def F.bufQParWeight (q : Nat) : Fld := ⟨(R.bufQPar q), 0, 16⟩
def F.bufQParK (q : Nat) : Fld := ⟨(R.bufQPar q), 16, 5⟩
def F.bufQParQg (q : Nat) : Fld := ⟨(R.bufQPar q), 21, 8⟩
def F.bufQParQgen (q : Nat) : Fld := ⟨(R.bufQPar q), 29, 1⟩
def F.bufQParEn (q : Nat) : Fld := ⟨(R.bufQPar q), 31, 1⟩
def F.bufQLimLimit (q : Nat) : Fld := ⟨(R.bufQLim q), 0, 24⟩
def F.bufQLimAgethr (q : Nat) : Fld := ⟨(R.bufQLim q), 24, 8⟩
def F.bufQShpRate (q : Nat) : Fld := ⟨(R.bufQShp q), 0, 22⟩
def F.bufQShpShen (q : Nat) : Fld := ⟨(R.bufQShp q), 31, 1⟩
def F.bufShgShpRate (g : Nat) : Fld := ⟨(R.bufShgShp g), 0, 22⟩
def F.bufShgShpShen (g : Nat) : Fld := ⟨(R.bufShgShp g), 31, 1⟩
def F.bufQBurstBurst (q : Nat) : Fld := ⟨(R.bufQBurst q), 0, 24⟩
def F.bufShgBurstBurst (g : Nat) : Fld := ⟨(R.bufShgBurst g), 0, 24⟩
def F.bufQDepthCount (q : Nat) : Fld := ⟨(R.bufQDepth q), 0, 32⟩
def F.bufQDropCount (q : Nat) : Fld := ⟨(R.bufQDrop q), 0, 32⟩
def F.bufSchVV (s : Nat) : Fld := ⟨(R.bufSchV s), 0, 32⟩
def F.bufSchVqVq (s : Nat) : Fld := ⟨(R.bufSchVq s), 0, 16⟩
def F.bufSmpGkK (g : Nat) : Fld := ⟨(R.bufSmpGk g), 0, 5⟩
def F.hsMacBondLanes (p : Nat) : Fld := ⟨(R.hsMacBond p), 0, 4⟩
def F.hsMacBondLrate (p : Nat) : Fld := ⟨(R.hsMacBond p), 4, 3⟩
def F.hsMacBondClass (p : Nat) : Fld := ⟨(R.hsMacBond p), 8, 1⟩
def F.hsMacBondLink (p : Nat) : Fld := ⟨(R.hsMacBond p), 16, 1⟩
def F.hsMacCfgMinlen (p : Nat) : Fld := ⟨(R.hsMacCfg p), 0, 7⟩
def F.hsMacCfgTxuntag (p : Nat) : Fld := ⟨(R.hsMacCfg p), 7, 1⟩
def F.hsMacCfgMaxlen (p : Nat) : Fld := ⟨(R.hsMacCfg p), 16, 14⟩
def F.hsMacFcMode (p : Nat) : Fld := ⟨(R.hsMacFc p), 0, 2⟩
def F.hsMacFcGen (p : Nat) : Fld := ⟨(R.hsMacFc p), 2, 1⟩
def F.hsMacFcRxpfcen (p : Nat) : Fld := ⟨(R.hsMacFc p), 8, 8⟩
def F.hsMacFcTxpfcmask (p : Nat) : Fld := ⟨(R.hsMacFc p), 16, 8⟩
def F.hsMacFcthrXoff (p : Nat) : Fld := ⟨(R.hsMacFcthr p), 0, 13⟩
def F.hsMacFcthrXon (p : Nat) : Fld := ⟨(R.hsMacFcthr p), 16, 12⟩
def F.hsMacPqPquanta (p : Nat) : Fld := ⟨(R.hsMacPq p), 0, 16⟩
def F.hsMacPsaloPsa (p : Nat) : Fld := ⟨(R.hsMacPsalo p), 0, 32⟩
def F.hsMacPsahiPsa (p : Nat) : Fld := ⟨(R.hsMacPsahi p), 0, 16⟩
def F.hsMacFcstatTxpaused (p : Nat) : Fld := ⟨(R.hsMacFcstat p), 0, 1⟩
def F.hsMacFcstatXoffact (p : Nat) : Fld := ⟨(R.hsMacFcstat p), 1, 1⟩
def F.hsMacFcstatPfcstop (p : Nat) : Fld := ⟨(R.hsMacFcstat p), 8, 8⟩
def F.hsMacGctlGateen (p : Nat) : Fld := ⟨(R.hsMacGctl p), 0, 1⟩
def F.hsMacGctlCancel (p : Nat) : Fld := ⟨(R.hsMacGctl p), 1, 1⟩
def F.hsMacGctlAdmlen (p : Nat) : Fld := ⟨(R.hsMacGctl p), 16, 11⟩
def F.hsMacGctlPend (p : Nat) : Fld := ⟨(R.hsMacGctl p), 30, 1⟩
def F.hsMacGctlGo (p : Nat) : Fld := ⟨(R.hsMacGctl p), 31, 1⟩
def F.hsMacGbaseValue (p : Nat) : Fld := ⟨(R.hsMacGbase p), 0, 32⟩
def F.hsMacGcycleValue (p : Nat) : Fld := ⟨(R.hsMacGcycle p), 0, 32⟩
def F.hsMacGleadValue (p : Nat) : Fld := ⟨(R.hsMacGlead p), 0, 32⟩
def F.hsMacGchgValue (p : Nat) : Fld := ⟨(R.hsMacGchg p), 0, 32⟩
def F.hsMacGstatGates (p : Nat) : Fld := ⟨(R.hsMacGstat p), 0, 8⟩
def F.hsMacGstatCuridx (p : Nat) : Fld := ⟨(R.hsMacGstat p), 8, 10⟩
def F.hsMacGclGGates (p i : Nat) : Fld := ⟨(R.hsMacGclG p i), 0, 8⟩
def F.hsMacGclTInterval (p i : Nat) : Fld := ⟨(R.hsMacGclT p i), 0, 32⟩
def F.hsMacLpiEn (p : Nat) : Fld := ⟨(R.hsMacLpi p), 0, 1⟩
def F.hsMacLpiIdledly (p : Nat) : Fld := ⟨(R.hsMacLpi p), 4, 12⟩
def F.hsMacLpiTw (p : Nat) : Fld := ⟨(R.hsMacLpi p), 16, 16⟩
def F.hsMacLpistatTxlpi (p : Nat) : Fld := ⟨(R.hsMacLpistat p), 0, 1⟩
def F.hsMacLpistatRxlpi (p : Nat) : Fld := ⟨(R.hsMacLpistat p), 1, 1⟩
def F.hsMacLpistatTxlpicnt (p : Nat) : Fld := ⟨(R.hsMacLpistat p), 16, 8⟩
def F.hsMacLpistatRxlpicnt (p : Nat) : Fld := ⟨(R.hsMacLpistat p), 24, 8⟩
def F.hsMacParkPark (p : Nat) : Fld := ⟨(R.hsMacPark p), 0, 1⟩
def F.hsMacParkPstate (p : Nat) : Fld := ⟨(R.hsMacPark p), 4, 2⟩
def F.hsMacTxtsnsValue (p : Nat) : Fld := ⟨(R.hsMacTxtsns p), 0, 32⟩
def F.hsMacTxtssubSub (p : Nat) : Fld := ⟨(R.hsMacTxtssub p), 0, 16⟩
def F.hsMacTxtssubMt (p : Nat) : Fld := ⟨(R.hsMacTxtssub p), 16, 4⟩
def F.hsMacTxtssubValid (p : Nat) : Fld := ⟨(R.hsMacTxtssub p), 31, 1⟩
def F.hsMacTxtsseqSeq (p : Nat) : Fld := ⟨(R.hsMacTxtsseq p), 0, 16⟩
def F.hsMacTxtsseqHeld (p : Nat) : Fld := ⟨(R.hsMacTxtsseq p), 16, 5⟩
def F.hsMacTxtsctlPop (p : Nat) : Fld := ⟨(R.hsMacTxtsctl p), 0, 1⟩
def F.hsMacTxtsctlTsovf (p : Nat) : Fld := ⟨(R.hsMacTxtsctl p), 8, 8⟩
def F.hsMacRxfrmCount (p : Nat) : Fld := ⟨(R.hsMacRxfrm p), 0, 32⟩
def F.hsMacRxbyloCount (p : Nat) : Fld := ⟨(R.hsMacRxbylo p), 0, 32⟩
def F.hsMacRxbyhiCount (p : Nat) : Fld := ⟨(R.hsMacRxbyhi p), 0, 32⟩
def F.hsMacTxfrmCount (p : Nat) : Fld := ⟨(R.hsMacTxfrm p), 0, 32⟩
def F.hsMacTxbyloCount (p : Nat) : Fld := ⟨(R.hsMacTxbylo p), 0, 32⟩
def F.hsMacTxbyhiCount (p : Nat) : Fld := ⟨(R.hsMacTxbyhi p), 0, 32⟩
def F.hsMacFcserrCount (p : Nat) : Fld := ⟨(R.hsMacFcserr p), 0, 32⟩
def F.hsMacRxerrCount (p : Nat) : Fld := ⟨(R.hsMacRxerr p), 0, 32⟩
def F.hsMacRuntCount (p : Nat) : Fld := ⟨(R.hsMacRunt p), 0, 32⟩
def F.hsMacGiantCount (p : Nat) : Fld := ⟨(R.hsMacGiant p), 0, 32⟩
def F.hsMacRxovfCount (p : Nat) : Fld := ⟨(R.hsMacRxovf p), 0, 32⟩
def F.hsMacCtrlunkCount (p : Nat) : Fld := ⟨(R.hsMacCtrlunk p), 0, 32⟩
def F.hsMacPauserxCount (p : Nat) : Fld := ⟨(R.hsMacPauserx p), 0, 32⟩
def F.hsMacPausetxCount (p : Nat) : Fld := ⟨(R.hsMacPausetx p), 0, 32⟩
def F.hsMacGatedropCount (p : Nat) : Fld := ⟨(R.hsMacGatedrop p), 0, 32⟩
def F.hsMacTxdropCount (p : Nat) : Fld := ⟨(R.hsMacTxdrop p), 0, 32⟩
def F.hsMacDhdropCount (p : Nat) : Fld := ⟨(R.hsMacDhdrop p), 0, 32⟩
def F.hsLnCfgAnen (p : Nat) : Fld := ⟨(R.hsLnCfg p), 0, 1⟩
def F.hsLnCfgTrnen (p : Nat) : Fld := ⟨(R.hsLnCfg p), 1, 1⟩
def F.hsLnCfgLrxen (p : Nat) : Fld := ⟨(R.hsLnCfg p), 2, 1⟩
def F.hsLnCfgLegok (p : Nat) : Fld := ⟨(R.hsLnCfg p), 3, 1⟩
def F.hsLnCfgPre (p : Nat) : Fld := ⟨(R.hsLnCfg p), 4, 2⟩
def F.hsLnCfgRxpre (p : Nat) : Fld := ⟨(R.hsLnCfg p), 6, 1⟩
def F.hsLnCfgFecallow (p : Nat) : Fld := ⟨(R.hsLnCfg p), 8, 4⟩
def F.hsLnCfgRetry (p : Nat) : Fld := ⟨(R.hsLnCfg p), 16, 8⟩
def F.hsLnTmrTrainto (p : Nat) : Fld := ⟨(R.hsLnTmr p), 0, 8⟩
def F.hsLnTmrLockto (p : Nat) : Fld := ⟨(R.hsLnTmr p), 8, 8⟩
def F.hsLnTmrCapto (p : Nat) : Fld := ⟨(R.hsLnTmr p), 16, 8⟩
def F.hsLnStatStage (p : Nat) : Fld := ⟨(R.hsLnStat p), 0, 3⟩
def F.hsLnStatLrxact (p : Nat) : Fld := ⟨(R.hsLnStat p), 3, 1⟩
def F.hsLnStatLegacy (p : Nat) : Fld := ⟨(R.hsLnStat p), 4, 1⟩
def F.hsLnStatTxprec (p : Nat) : Fld := ⟨(R.hsLnStat p), 5, 1⟩
def F.hsLnStatRxprec (p : Nat) : Fld := ⟨(R.hsLnStat p), 6, 1⟩
def F.hsLnStatFecres (p : Nat) : Fld := ⟨(R.hsLnStat p), 8, 2⟩
def F.hsLnStatLostcnt (p : Nat) : Fld := ⟨(R.hsLnStat p), 16, 8⟩
def F.hsLnStatKfail (p : Nat) : Fld := ⟨(R.hsLnStat p), 24, 8⟩
def F.hsLnLoopMode (p : Nat) : Fld := ⟨(R.hsLnLoop p), 0, 2⟩
def F.hsLnLoopProto (p : Nat) : Fld := ⟨(R.hsLnLoop p), 16, 8⟩
def F.hsLnCaprxloMsg (p : Nat) : Fld := ⟨(R.hsLnCaprxlo p), 0, 32⟩
def F.hsLnCaprxhiMsg (p : Nat) : Fld := ⟨(R.hsLnCaprxhi p), 0, 32⟩
def F.hsLnEyeEyeh (p : Nat) : Fld := ⟨(R.hsLnEye p), 0, 8⟩
def F.hsLnEyeEyew (p : Nat) : Fld := ⟨(R.hsLnEye p), 8, 8⟩
def F.hsLnEyeSnr (p : Nat) : Fld := ⟨(R.hsLnEye p), 16, 12⟩
def F.hsLnEyethrHmin (p : Nat) : Fld := ⟨(R.hsLnEyethr p), 0, 8⟩
def F.hsLnEyethrLrxthr (p : Nat) : Fld := ⟨(R.hsLnEyethr p), 8, 8⟩
def F.hsLnEyethrSdthr (p : Nat) : Fld := ⟨(R.hsLnEyethr p), 16, 16⟩
def F.hsLnTxeqCm2 (p : Nat) : Fld := ⟨(R.hsLnTxeq p), 0, 8⟩
def F.hsLnTxeqCm1 (p : Nat) : Fld := ⟨(R.hsLnTxeq p), 8, 8⟩
def F.hsLnTxeqC1 (p : Nat) : Fld := ⟨(R.hsLnTxeq p), 16, 8⟩
def F.hsLnTxeqC0 (p : Nat) : Fld := ⟨(R.hsLnTxeq p), 24, 8⟩
def F.hsLnFecsymCount (p : Nat) : Fld := ⟨(R.hsLnFecsym p), 0, 32⟩
def F.hsLnFeccwCount (p : Nat) : Fld := ⟨(R.hsLnFeccw p), 0, 32⟩
def F.hsLnFecucCount (p : Nat) : Fld := ⟨(R.hsLnFecuc p), 0, 32⟩
def F.hsLnPrbsPat (p : Nat) : Fld := ⟨(R.hsLnPrbs p), 0, 3⟩
def F.hsLnPrbsGen (p : Nat) : Fld := ⟨(R.hsLnPrbs p), 3, 1⟩
def F.hsLnPrbsChk (p : Nat) : Fld := ⟨(R.hsLnPrbs p), 4, 1⟩
def F.hsLnPrbsLock (p : Nat) : Fld := ⟨(R.hsLnPrbs p), 5, 1⟩
def F.hsLnPrbsErr (p : Nat) : Fld := ⟨(R.hsLnPrbs p), 16, 16⟩
def F.hsLngSum0Lanes (h : Nat) : Fld := ⟨(R.hsLngSum0 h), 0, 32⟩
def F.hsLngSum1Lanes (h : Nat) : Fld := ⟨(R.hsLngSum1 h), 0, 16⟩
def F.pciEpStatSpeed : Fld := ⟨R.pciEpStat, 0, 3⟩
def F.pciEpStatWidth : Fld := ⟨R.pciEpStat, 4, 4⟩
def F.pciEpStatDlup : Fld := ⟨R.pciEpStat, 8, 1⟩
def F.pciEpStatLatecnt : Fld := ⟨R.pciEpStat, 24, 8⟩
def F.pciEpCfgCtowarn : Fld := ⟨R.pciEpCfg, 0, 8⟩
def F.pciEpRlogRing : Fld := ⟨R.pciEpRlog, 0, 11⟩
def F.pciEpRlogDir : Fld := ⟨R.pciEpRlog, 11, 1⟩
def F.pciRxgBaseloBase (r : Nat) : Fld := ⟨(R.pciRxgBaselo r), 6, 26⟩
def F.pciTxgBaseloBase (r : Nat) : Fld := ⟨(R.pciTxgBaselo r), 6, 26⟩
def F.pciRxgBasehiBase (r : Nat) : Fld := ⟨(R.pciRxgBasehi r), 0, 32⟩
def F.pciTxgBasehiBase (r : Nat) : Fld := ⟨(R.pciTxgBasehi r), 0, 32⟩
def F.pciRxgCfgSize (r : Nat) : Fld := ⟨(R.pciRxgCfg r), 0, 5⟩
def F.pciRxgCfgEn (r : Nat) : Fld := ⟨(R.pciRxgCfg r), 5, 1⟩
def F.pciRxgCfgFlush (r : Nat) : Fld := ⟨(R.pciRxgCfg r), 6, 1⟩
def F.pciRxgCfgIrqen (r : Nat) : Fld := ⟨(R.pciRxgCfg r), 7, 1⟩
def F.pciRxgCfgVec (r : Nat) : Fld := ⟨(R.pciRxgCfg r), 8, 9⟩
def F.pciRxgCfgPool (r : Nat) : Fld := ⟨(R.pciRxgCfg r), 17, 6⟩
def F.pciRxgCfgRto (r : Nat) : Fld := ⟨(R.pciRxgCfg r), 24, 8⟩
def F.pciTxgCfgSize (r : Nat) : Fld := ⟨(R.pciTxgCfg r), 0, 5⟩
def F.pciTxgCfgEn (r : Nat) : Fld := ⟨(R.pciTxgCfg r), 5, 1⟩
def F.pciTxgCfgFlush (r : Nat) : Fld := ⟨(R.pciTxgCfg r), 6, 1⟩
def F.pciTxgCfgIrqen (r : Nat) : Fld := ⟨(R.pciTxgCfg r), 7, 1⟩
def F.pciTxgCfgVec (r : Nat) : Fld := ⟨(R.pciTxgCfg r), 8, 9⟩
def F.pciTxgCfgRto (r : Nat) : Fld := ⟨(R.pciTxgCfg r), 24, 8⟩
def F.pciRxgLevelLevel (r : Nat) : Fld := ⟨(R.pciRxgLevel r), 0, 17⟩
def F.pciRxgLevelBufsz (r : Nat) : Fld := ⟨(R.pciRxgLevel r), 24, 4⟩
def F.pciTxgLevelLevel (r : Nat) : Fld := ⟨(R.pciTxgLevel r), 0, 17⟩
def F.pciRxgHeadHead (r : Nat) : Fld := ⟨(R.pciRxgHead r), 0, 17⟩
def F.pciTxgHeadHead (r : Nat) : Fld := ⟨(R.pciTxgHead r), 0, 17⟩
def F.pciRxgTailTail (r : Nat) : Fld := ⟨(R.pciRxgTail r), 0, 17⟩
def F.pciTxgTailTail (r : Nat) : Fld := ⟨(R.pciTxgTail r), 0, 17⟩
def F.pciRxgStatFill (r : Nat) : Fld := ⟨(R.pciRxgStat r), 0, 17⟩
def F.pciRxgStatAbove (r : Nat) : Fld := ⟨(R.pciRxgStat r), 17, 1⟩
def F.pciRxgStatFlbusy (r : Nat) : Fld := ⟨(R.pciRxgStat r), 18, 1⟩
def F.pciRxgStatRstc (r : Nat) : Fld := ⟨(R.pciRxgStat r), 20, 2⟩
def F.pciTxgStatFill (r : Nat) : Fld := ⟨(R.pciTxgStat r), 0, 17⟩
def F.pciTxgStatAbove (r : Nat) : Fld := ⟨(R.pciTxgStat r), 17, 1⟩
def F.pciTxgStatFlbusy (r : Nat) : Fld := ⟨(R.pciTxgStat r), 18, 1⟩
def F.pciTxgStatRstc (r : Nat) : Fld := ⟨(R.pciTxgStat r), 20, 2⟩
def F.pciRxgDropTodrop (r : Nat) : Fld := ⟨(R.pciRxgDrop r), 0, 16⟩
def F.pciRxgDropFldrop (r : Nat) : Fld := ⟨(R.pciRxgDrop r), 16, 16⟩
def F.pciTxgDropTodrop (r : Nat) : Fld := ⟨(R.pciTxgDrop r), 0, 16⟩
def F.pciTxgDropFldrop (r : Nat) : Fld := ⟨(R.pciTxgDrop r), 16, 16⟩
def F.hrtTimNsNs : Fld := ⟨R.hrtTimNs, 0, 32⟩
def F.hrtTimSubSub : Fld := ⟨R.hrtTimSub, 0, 16⟩
def F.hrtTimSubWraps : Fld := ⟨R.hrtTimSub, 16, 16⟩
def F.hrtTimIncInc : Fld := ⟨R.hrtTimInc, 0, 32⟩
def F.hrtTimStepnsStepns : Fld := ⟨R.hrtTimStepns, 0, 32⟩
def F.hrtTimStepctlStepsub : Fld := ⟨R.hrtTimStepctl, 0, 16⟩
def F.hrtTimStepctlBusy : Fld := ⟨R.hrtTimStepctl, 30, 1⟩
def F.hrtTimStepctlGo : Fld := ⟨R.hrtTimStepctl, 31, 1⟩
def F.hrtTimStatRun : Fld := ⟨R.hrtTimStat, 0, 1⟩
def F.hrtTimStatInloss : Fld := ⟨R.hrtTimStat, 1, 1⟩
def F.hrtTimStatPpsshort : Fld := ⟨R.hrtTimStat, 8, 8⟩
def F.hrtTimStatTodskip : Fld := ⟨R.hrtTimStat, 16, 8⟩
def F.hrtTimStatStepcnt : Fld := ⟨R.hrtTimStat, 24, 8⟩
def F.hrtTimPpscfgOuten : Fld := ⟨R.hrtTimPpscfg, 0, 1⟩
def F.hrtTimPpscfgInen : Fld := ⟨R.hrtTimPpscfg, 1, 1⟩
def F.hrtTimPpscfgWidth : Fld := ⟨R.hrtTimPpscfg, 8, 8⟩
def F.hrtTimPpsnextValue : Fld := ⟨R.hrtTimPpsnext, 0, 32⟩
def F.hrtTimPpsperValue : Fld := ⟨R.hrtTimPpsper, 0, 32⟩
def F.hrtTimPpsinnsNs : Fld := ⟨R.hrtTimPpsinns, 0, 32⟩
def F.hrtTimPpsinsubSub : Fld := ⟨R.hrtTimPpsinsub, 0, 16⟩
def F.hrtTimPpsinsubIncnt : Fld := ⟨R.hrtTimPpsinsub, 16, 16⟩
def F.hrtTimSecbasehiValue : Fld := ⟨R.hrtTimSecbasehi, 0, 16⟩
def F.hrtTimSecbaseloValue : Fld := ⟨R.hrtTimSecbaselo, 0, 32⟩
def F.hrtTimNsbaseValue : Fld := ⟨R.hrtTimNsbase, 0, 32⟩
def F.hrtCfgStatActslot : Fld := ⟨R.hrtCfgStat, 0, 1⟩
def F.hrtCfgStatVala : Fld := ⟨R.hrtCfgStat, 1, 1⟩
def F.hrtCfgStatValb : Fld := ⟨R.hrtCfgStat, 2, 1⟩
def F.hrtCfgStatDisputed : Fld := ⟨R.hrtCfgStat, 3, 1⟩
def F.hrtCfgStatMixed : Fld := ⟨R.hrtCfgStat, 4, 1⟩
def F.hrtCfgStatBootpend : Fld := ⟨R.hrtCfgStat, 5, 1⟩
def F.hrtCfgStatNoimg : Fld := ⟨R.hrtCfgStat, 6, 1⟩
def F.hrtCfgStatBusy : Fld := ⟨R.hrtCfgStat, 7, 1⟩
def F.hrtCfgStatCord : Fld := ⟨R.hrtCfgStat, 8, 4⟩
def F.hrtCfgStatStep : Fld := ⟨R.hrtCfgStat, 12, 3⟩
def F.hrtCfgStatEngpend : Fld := ⟨R.hrtCfgStat, 15, 1⟩
def F.hrtCfgStatResult : Fld := ⟨R.hrtCfgStat, 16, 8⟩
def F.hrtCfgSeqaSeq : Fld := ⟨R.hrtCfgSeqa, 0, 32⟩
def F.hrtCfgSeqbSeq : Fld := ⟨R.hrtCfgSeqb, 0, 32⟩
def F.hrtCfgCmdOp : Fld := ⟨R.hrtCfgCmd, 0, 2⟩
def F.hrtCfgCmdCord : Fld := ⟨R.hrtCfgCmd, 4, 4⟩
def F.hrtCfgCmdSlot : Fld := ⟨R.hrtCfgCmd, 8, 1⟩
def F.hrtCfgCmdForce : Fld := ⟨R.hrtCfgCmd, 9, 1⟩
def F.hrtCfgCmdGo : Fld := ⟨R.hrtCfgCmd, 31, 1⟩
def F.hrtCfgDrainDrainto : Fld := ⟨R.hrtCfgDrain, 0, 8⟩
def F.hrtCfgDrainDraindrop : Fld := ⟨R.hrtCfgDrain, 16, 16⟩
def F.hrtCfgCtllvlExpert : Fld := ⟨R.hrtCfgCtllvl, 0, 10⟩
def F.hrtCfgFailmaskCords : Fld := ⟨R.hrtCfgFailmask, 0, 13⟩
def F.hrtCfgCseqSseq (c : Nat) : Fld := ⟨(R.hrtCfgCseq c), 0, 32⟩
def F.hrtPwrStateCur : Fld := ⟨R.hrtPwrState, 0, 2⟩
def F.hrtPwrStateTgt : Fld := ⟨R.hrtPwrState, 2, 2⟩
def F.hrtPwrStatePend : Fld := ⟨R.hrtPwrState, 4, 2⟩
def F.hrtPwrStateBusy : Fld := ⟨R.hrtPwrState, 6, 1⟩
def F.hrtPwrStateLastkind : Fld := ⟨R.hrtPwrState, 7, 1⟩
def F.hrtPwrStateLastcode : Fld := ⟨R.hrtPwrState, 8, 8⟩
def F.hrtPwrReqState : Fld := ⟨R.hrtPwrReq, 0, 2⟩
def F.hrtPwrReqGo : Fld := ⟨R.hrtPwrReq, 31, 1⟩
def F.hrtPwrCfgDozewl : Fld := ⟨R.hrtPwrCfg, 0, 1⟩
def F.hrtPwrCfgAutotin : Fld := ⟨R.hrtPwrCfg, 1, 1⟩
def F.hrtPwrCfgAutoacc : Fld := ⟨R.hrtPwrCfg, 2, 1⟩
def F.hrtPwrRetainBanks : Fld := ⟨R.hrtPwrRetain, 0, 16⟩
def F.hrtPwrEmbwinPage : Fld := ⟨R.hrtPwrEmbwin, 0, 5⟩
def F.hrtPwrEmbwinBank : Fld := ⟨R.hrtPwrEmbwin, 8, 4⟩
def F.hrtPwrCordSt (c : Nat) : Fld := ⟨(R.hrtPwrCord c), 0, 3⟩
def F.hrtPwrCordPol (c : Nat) : Fld := ⟨(R.hrtPwrCord c), 4, 2⟩
def F.hrtPwrCordWoke (c : Nat) : Fld := ⟨(R.hrtPwrCord c), 6, 1⟩
def F.hrtPwrCordWaketo (c : Nat) : Fld := ⟨(R.hrtPwrCord c), 8, 8⟩
def F.hrtPwrCordFailcnt (c : Nat) : Fld := ⟨(R.hrtPwrCord c), 16, 8⟩
def F.hrtPwrCordCmd (c : Nat) : Fld := ⟨(R.hrtPwrCord c), 24, 2⟩
def F.hrtPwrRefcntRef (k : Nat) : Fld := ⟨(R.hrtPwrRefcnt k), 0, 16⟩
def F.hrtPwrRefcntAbt (k : Nat) : Fld := ⟨(R.hrtPwrRefcnt k), 16, 16⟩
def F.hrtSnsTempTemp (i : Nat) : Fld := ⟨(R.hrtSnsTemp i), 0, 12⟩
def F.hrtSnsTempMax (i : Nat) : Fld := ⟨(R.hrtSnsTemp i), 16, 12⟩
def F.hrtSnsTthrWarn : Fld := ⟨R.hrtSnsTthr, 0, 8⟩
def F.hrtSnsTthrHyst : Fld := ⟨R.hrtSnsTthr, 8, 4⟩
def F.hrtSnsTthrTrip : Fld := ⟨R.hrtSnsTthr, 16, 8⟩
def F.hrtSnsStatTripped : Fld := ⟨R.hrtSnsStat, 0, 1⟩
def F.hrtSnsStatClkok : Fld := ⟨R.hrtSnsStat, 4, 4⟩
def F.hrtSnsStatClkstk : Fld := ⟨R.hrtSnsStat, 8, 4⟩
def F.hrtSnsStatRailbad : Fld := ⟨R.hrtSnsStat, 16, 16⟩
def F.hrtSnsRailMv (i : Nat) : Fld := ⟨(R.hrtSnsRail i), 0, 16⟩
def F.hrtSnsRailNom (i : Nat) : Fld := ⟨(R.hrtSnsRail i), 16, 16⟩
def F.hrtSnsRlimLo (i : Nat) : Fld := ⟨(R.hrtSnsRlim i), 0, 8⟩
def F.hrtSnsRlimHi (i : Nat) : Fld := ⟨(R.hrtSnsRlim i), 8, 8⟩
def F.hrtHstStatFwrun : Fld := ⟨R.hrtHstStat, 0, 1⟩
def F.hrtHstStatRecovery : Fld := ⟨R.hrtHstStat, 1, 1⟩
def F.hrtHstStatFwslot : Fld := ⟨R.hrtHstStat, 2, 1⟩
def F.hrtHstStatFwdisp : Fld := ⟨R.hrtHstStat, 3, 1⟩
def F.hrtHstStatUpdact : Fld := ⟨R.hrtHstStat, 4, 1⟩
def F.hrtHstStatUpdmbx : Fld := ⟨R.hrtHstStat, 5, 1⟩
def F.hrtHstStatRstreason : Fld := ⟨R.hrtHstStat, 8, 4⟩
def F.hrtHstStatUpdres : Fld := ⟨R.hrtHstStat, 12, 3⟩
def F.hrtHstFwverValue : Fld := ⟨R.hrtHstFwver, 0, 32⟩
def F.hrtHstFwseqValue : Fld := ⟨R.hrtHstFwseq, 0, 32⟩
def F.hrtMbxCtlBusy : Fld := ⟨R.hrtMbxCtl, 0, 1⟩
def F.hrtMbxCtlStatus : Fld := ⟨R.hrtMbxCtl, 8, 8⟩
def F.hrtMbxCtlGo : Fld := ⟨R.hrtMbxCtl, 31, 1⟩
def F.hrtMbxReqData (i : Nat) : Fld := ⟨(R.hrtMbxReq i), 0, 32⟩
def F.hrtMbxRspData (i : Nat) : Fld := ⟨(R.hrtMbxRsp i), 0, 32⟩
def F.hrtEvtSrcCtlStat (n : Nat) : Fld := ⟨(R.hrtEvtSrcCtl n), 0, 1⟩
def F.hrtEvtSrcCtlEn (n : Nat) : Fld := ⟨(R.hrtEvtSrcCtl n), 1, 1⟩
def F.hrtEvtSrcCtlLog (n : Nat) : Fld := ⟨(R.hrtEvtSrcCtl n), 2, 1⟩
def F.hrtEvtSrcCtlCount (n : Nat) : Fld := ⟨(R.hrtEvtSrcCtl n), 16, 16⟩
def F.hrtEvtSrcFirstnsValue (n : Nat) : Fld := ⟨(R.hrtEvtSrcFirstns n), 0, 32⟩
def F.hrtEvtSrcFirstwValue (n : Nat) : Fld := ⟨(R.hrtEvtSrcFirstw n), 0, 16⟩
def F.hrtEvtGstatStat (g : Nat) : Fld := ⟨(R.hrtEvtGstat g), 0, 16⟩
def F.hrtEvtGstatPend (g : Nat) : Fld := ⟨(R.hrtEvtGstat g), 16, 1⟩
def F.hrtEvtGcfgVec (g : Nat) : Fld := ⟨(R.hrtEvtGcfg g), 0, 9⟩
def F.hrtEvtGcfgMsien (g : Nat) : Fld := ⟨(R.hrtEvtGcfg g), 12, 1⟩
def F.hrtEvtGcfgPinen (g : Nat) : Fld := ⟨(R.hrtEvtGcfg g), 13, 1⟩
def F.hrtEvtTopPend : Fld := ⟨R.hrtEvtTop, 0, 16⟩
def F.hrtSmbStatAddr : Fld := ⟨R.hrtSmbStat, 0, 7⟩
def F.hrtSmbStatPecerr : Fld := ⟨R.hrtSmbStat, 8, 8⟩
def F.hrtSmbStatOvr : Fld := ⟨R.hrtSmbStat, 16, 8⟩
def F.hsFiCtlEn (p : Nat) : Fld := ⟨(R.hsFiCtl p), 0, 1⟩
def F.hsFiCtlDir (p : Nat) : Fld := ⟨(R.hsFiCtl p), 1, 1⟩
def F.hsFiCtlAct (p : Nat) : Fld := ⟨(R.hsFiCtl p), 2, 2⟩
def F.hsFiCtlSel (p : Nat) : Fld := ⟨(R.hsFiCtl p), 4, 2⟩
def F.hsFiCtlNoidle (p : Nat) : Fld := ⟨(R.hsFiCtl p), 6, 1⟩
def F.hsFiCtlK (p : Nat) : Fld := ⟨(R.hsFiCtl p), 8, 4⟩
def F.hsFiCtlPat (p : Nat) : Fld := ⟨(R.hsFiCtl p), 16, 8⟩
def F.hsFiCtlCbyte (p : Nat) : Fld := ⟨(R.hsFiCtl p), 24, 8⟩
def F.hsFiParN (p : Nat) : Fld := ⟨(R.hsFiPar p), 0, 16⟩
def F.hsFiParBlen (p : Nat) : Fld := ⟨(R.hsFiPar p), 16, 8⟩
def F.hsFiRateRate (p : Nat) : Fld := ⟨(R.hsFiRate p), 0, 24⟩
def F.hsFiSeedSeed (p : Nat) : Fld := ⟨(R.hsFiSeed p), 0, 32⟩
def F.hsFiLimitLimit (p : Nat) : Fld := ⟨(R.hsFiLimit p), 0, 32⟩
def F.hsFiStatArmed (p : Nat) : Fld := ⟨(R.hsFiStat p), 0, 1⟩
def F.hsFiStatHeld (p : Nat) : Fld := ⟨(R.hsFiStat p), 1, 1⟩
def F.hsFiStatSkip (p : Nat) : Fld := ⟨(R.hsFiStat p), 16, 16⟩
def F.hsFiCntCnt (p : Nat) : Fld := ⟨(R.hsFiCnt p), 0, 32⟩
def F.lfFiCtlEn (w s : Nat) : Fld := ⟨(R.lfFiCtl w s), 0, 1⟩
def F.lfFiCtlDir (w s : Nat) : Fld := ⟨(R.lfFiCtl w s), 1, 1⟩
def F.lfFiCtlAct (w s : Nat) : Fld := ⟨(R.lfFiCtl w s), 2, 2⟩
def F.lfFiCtlSel (w s : Nat) : Fld := ⟨(R.lfFiCtl w s), 4, 2⟩
def F.lfFiCtlNoidle (w s : Nat) : Fld := ⟨(R.lfFiCtl w s), 6, 1⟩
def F.lfFiCtlK (w s : Nat) : Fld := ⟨(R.lfFiCtl w s), 8, 4⟩
def F.lfFiCtlPat (w s : Nat) : Fld := ⟨(R.lfFiCtl w s), 16, 8⟩
def F.lfFiCtlCbyte (w s : Nat) : Fld := ⟨(R.lfFiCtl w s), 24, 8⟩
def F.lfFiParN (w s : Nat) : Fld := ⟨(R.lfFiPar w s), 0, 16⟩
def F.lfFiParBlen (w s : Nat) : Fld := ⟨(R.lfFiPar w s), 16, 8⟩
def F.lfFiRateRate (w s : Nat) : Fld := ⟨(R.lfFiRate w s), 0, 24⟩
def F.lfFiSeedSeed (w s : Nat) : Fld := ⟨(R.lfFiSeed w s), 0, 32⟩
def F.lfFiLimitLimit (w s : Nat) : Fld := ⟨(R.lfFiLimit w s), 0, 32⟩
def F.lfFiStatArmed (w s : Nat) : Fld := ⟨(R.lfFiStat w s), 0, 1⟩
def F.lfFiStatHeld (w s : Nat) : Fld := ⟨(R.lfFiStat w s), 1, 1⟩
def F.lfFiStatSkip (w s : Nat) : Fld := ⟨(R.lfFiStat w s), 16, 16⟩
def F.lfFiCntCnt (w s : Nat) : Fld := ⟨(R.lfFiCnt w s), 0, 32⟩
def F.pktFiCtlEn (k : Nat) : Fld := ⟨(R.pktFiCtl k), 0, 1⟩
def F.pktFiCtlDir (k : Nat) : Fld := ⟨(R.pktFiCtl k), 1, 1⟩
def F.pktFiCtlAct (k : Nat) : Fld := ⟨(R.pktFiCtl k), 2, 2⟩
def F.pktFiCtlSel (k : Nat) : Fld := ⟨(R.pktFiCtl k), 4, 2⟩
def F.pktFiCtlNoidle (k : Nat) : Fld := ⟨(R.pktFiCtl k), 6, 1⟩
def F.pktFiCtlK (k : Nat) : Fld := ⟨(R.pktFiCtl k), 8, 4⟩
def F.pktFiCtlPat (k : Nat) : Fld := ⟨(R.pktFiCtl k), 16, 8⟩
def F.pktFiCtlCbyte (k : Nat) : Fld := ⟨(R.pktFiCtl k), 24, 8⟩
def F.pktFiParN (k : Nat) : Fld := ⟨(R.pktFiPar k), 0, 16⟩
def F.pktFiParBlen (k : Nat) : Fld := ⟨(R.pktFiPar k), 16, 8⟩
def F.pktFiRateRate (k : Nat) : Fld := ⟨(R.pktFiRate k), 0, 24⟩
def F.pktFiSeedSeed (k : Nat) : Fld := ⟨(R.pktFiSeed k), 0, 32⟩
def F.pktFiLimitLimit (k : Nat) : Fld := ⟨(R.pktFiLimit k), 0, 32⟩
def F.pktFiStatArmed (k : Nat) : Fld := ⟨(R.pktFiStat k), 0, 1⟩
def F.pktFiStatHeld (k : Nat) : Fld := ⟨(R.pktFiStat k), 1, 1⟩
def F.pktFiStatSkip (k : Nat) : Fld := ⟨(R.pktFiStat k), 16, 16⟩
def F.pktFiCntCnt (k : Nat) : Fld := ⟨(R.pktFiCnt k), 0, 32⟩
def F.hrtFiGlobalKill : Fld := ⟨R.hrtFiGlobal, 0, 1⟩
def F.hrtFiGlobalLock : Fld := ⟨R.hrtFiGlobal, 1, 1⟩
def F.hrtFiGlobalArmcnt : Fld := ⟨R.hrtFiGlobal, 16, 8⟩
def F.hrtFiGlobalLastinj : Fld := ⟨R.hrtFiGlobal, 24, 8⟩
def F.hrtGlbIdStep : Fld := ⟨R.hrtGlbId, 0, 8⟩
def F.hrtGlbIdPkg : Fld := ⟨R.hrtGlbId, 8, 8⟩
def F.hrtGlbIdPart : Fld := ⟨R.hrtGlbId, 16, 16⟩
def F.hrtGlbSerloSer : Fld := ⟨R.hrtGlbSerlo, 0, 32⟩
def F.hrtGlbSerhiSer : Fld := ⟨R.hrtGlbSerhi, 0, 32⟩
def F.hrtGlbKhashHash (k w : Nat) : Fld := ⟨(R.hrtGlbKhash k w), 0, 32⟩
def F.hrtGlbKrevRev : Fld := ⟨R.hrtGlbKrev, 0, 4⟩
def F.hrtGlbKrevBlow : Fld := ⟨R.hrtGlbKrev, 8, 4⟩
def F.hrtGlbAerrCode : Fld := ⟨R.hrtGlbAerr, 0, 8⟩
def F.hrtGlbAerrCord : Fld := ⟨R.hrtGlbAerr, 8, 4⟩
def F.hrtGlbAerrWr : Fld := ⟨R.hrtGlbAerr, 12, 1⟩
def F.hrtGlbAerrStk : Fld := ⟨R.hrtGlbAerr, 13, 1⟩
def F.hrtGlbAerrCount : Fld := ⟨R.hrtGlbAerr, 16, 16⟩
def F.hrtGlbAerradrAddr : Fld := ⟨R.hrtGlbAerradr, 0, 32⟩
def F.hrtTimWlRxsfnSfn (w : Nat) : Fld := ⟨(R.hrtTimWlRxsfn w), 0, 32⟩
def F.hrtTimWlRxnsNs (w : Nat) : Fld := ⟨(R.hrtTimWlRxns w), 0, 32⟩
def F.hrtTimWlRxsubSub (w : Nat) : Fld := ⟨(R.hrtTimWlRxsub w), 0, 16⟩
def F.hrtTimWlTxsfnSfn (w : Nat) : Fld := ⟨(R.hrtTimWlTxsfn w), 0, 32⟩
def F.hrtTimWlTxnsNs (w : Nat) : Fld := ⟨(R.hrtTimWlTxns w), 0, 32⟩
def F.hrtTimWlTxsubSub (w : Nat) : Fld := ⟨(R.hrtTimWlTxsub w), 0, 16⟩
def F.hrtTimWlBseqBseq (w : Nat) : Fld := ⟨(R.hrtTimWlBseq w), 0, 8⟩
def F.hrtTimWlBseqBv (w : Nat) : Fld := ⟨(R.hrtTimWlBseq w), 31, 1⟩
def F.hrtTimWlBnsNs (w : Nat) : Fld := ⟨(R.hrtTimWlBns w), 0, 32⟩
def F.hrtTimWlBsubSub (w : Nat) : Fld := ⟨(R.hrtTimWlBsub w), 0, 16⟩
def F.hrtTimWlTodrsfnRsfn (w : Nat) : Fld := ⟨(R.hrtTimWlTodrsfn w), 0, 32⟩
def F.hrtTimWlTodsechiSec (w : Nat) : Fld := ⟨(R.hrtTimWlTodsechi w), 0, 16⟩
def F.hrtTimWlTodsecloSec (w : Nat) : Fld := ⟨(R.hrtTimWlTodseclo w), 0, 32⟩
def F.hrtTimWlTodnsNs (w : Nat) : Fld := ⟨(R.hrtTimWlTodns w), 0, 32⟩
def F.hrtTimWlTodfracFrac (w : Nat) : Fld := ⟨(R.hrtTimWlTodfrac w), 0, 16⟩
def F.hrtTimWlTodfracTodcnt (w : Nat) : Fld := ⟨(R.hrtTimWlTodfrac w), 16, 8⟩
def F.hrtTimWlTodfracLocv (w : Nat) : Fld := ⟨(R.hrtTimWlTodfrac w), 31, 1⟩
def F.hrtTimWlLocnsNs (w : Nat) : Fld := ⟨(R.hrtTimWlLocns w), 0, 32⟩
def F.hrtTimWlLocsubSub (w : Nat) : Fld := ⟨(R.hrtTimWlLocsub w), 0, 16⟩

end Sys2Proof.Machine
end

