-- ==== Sys2Proof/Machine/RegTable.lean ====
section
/-!
DEFINITION. The register table of R453: where each register stands, its reset value, its function group and,
field by field, its type (R7) and its stated range (R9); and the address decode of R29.
-/

namespace Sys2Proof.Machine

/-- The field types of R7. -/
inductive FieldType where
  | rw | ro | rc | w1c | wo | rwq
  deriving DecidableEq, Repr

/-- The stated range of a field (R9). -/
inductive FieldRange where
  | any
  | nat (lo hi : Nat)
  | int (lo hi : Int)
  | odd (lo hi : Nat)
  deriving DecidableEq, Repr

/-- The function groups of R382. -/
inductive Group where
  | line | shared | crypto | sparing | packet | queue | mac | lanes | time | power
  deriving DecidableEq, Repr

/-- One field of a register. -/
structure FieldRow where
  lsb : Nat
  width : Nat
  ty : FieldType
  range : FieldRange
  deriving DecidableEq, Repr

/-- The registers of R453, each instanced register once. -/
inductive RegName where
  | hrtClkStat | hrtClkDisc | hrtClkSteer | cvAdcCfg | cvAdcDeskew | cvAdcLvl | cvAdcStat | cvSelStat | leRxcCdcfg 
  | leRxcCdstat | leRxcCfg | leRxcDecode | leRxsEqcfg | leRxsStat | leRxsPol | leRxcTrstat | leRxcLsrcfg 
  | leRxcCfostat | leRxsLlrcfg | leRxsQual | leRxsQthr | leRxcStat | leTxsProf | leTxsShape | leTxmBin | leTxcMaskctl 
  | leTxcCfg | leTxpTap | cvDacDeskew | leTxcStat | cvTrdCfg | cvTrdCmd | cvTrdArg | cvTrdRsp | cvTrdStat | lfAlnCfg 
  | lfAlnThr | lfAlnStat | lfScsAln | lfScsHdr | lfScsSfn | lfFecCfg | lfScsFeccb | lfScsFecub | lfScsFecit 
  | lfGrpStat | lfGrpMemb | lfCellCfg | lfCellIdle | lfCellErr | lfCellLost | lfCellPktdrop | lfCellDlpdrop | lfPmCtl 
  | lfPmStat | lfPmEs | lfPmSes | lfPmUas | lfPmSps | lfScsPmes | lfScsPmses | lfScsPmuas | lfScsPmsps | lfScsPmstat 
  | lfCtlErr | lfActCfg | lfActCfg2 | lfActStat | lfActCtl | lfActId | lfActEqd | lfActRtd | lfStsQg | lfPrfCode 
  | lfPrfReq | lfPrfStat | lfPrfEsfn | lfGntBursts | lfGntErr | lfGntMiss | lfCryCfg | lfCryKeyw | lfCrySalt 
  | lfCryKcmd | lfCryKstat | lfCryKsw | lfCryKswstat | lfCrytStat | lfCrytGctrlo | lfCrytGctrhi | lfCrytCtl 
  | lfCryrCtl | lfCryrStat | lfCryrTagfail | lfCryrErr | hrtSprCfg | hrtSprCfg2 | hrtSprCmd | hrtSprStat | hrtSprEng 
  | hrtSprWl | hrtSprWllost | hrtSprSnap | pktSprCfg | pktSprMap | pktSlcPkts | pktSlcOvf | pktPrsSrc | pktPrsProfSel 
  | pktPrsProfCfg | pktPrsProfSpr | pktPrsAct | pktPrsRcnt | pktPrsTcommit | pktPrsTmplCfg | pktPrsTmplOfs 
  | pktPrsTmplDkey | pktPrsTmplSkey | pktClsKeyw | pktClsMaskw | pktClsActw | pktClsDefact | pktClsCmd | pktClsStat 
  | pktClsCntplo | pktClsCntphi | pktClsCntblo | pktClsCntbhi | pktClsMirror | pktClsErr | pktEmtKey | pktEmtRes 
  | pktEmtAge | pktEmtIdx | pktEmtCmd | pktEmtStat | pktEmtSeed0 | pktEmtSeed1 | pktEmtOcc | pktEmtStash | pktEmtPart 
  | pktEmtAgecfg | pktEmtEpoch | pktLrnCfg | pktLrnCnt | pktLrnPq | bufBmErr | bufBmErrlog | bufBmEcc | bufBmRecl 
  | bufSmpCfg | bufSmpSel | bufSmpRec | bufSmpHist | bufQmCmd | bufQmLog | bufQmFlushed | bufPoolCfg | bufPoolFree 
  | bufPoolLow | bufPclsMin | bufPclsMax | bufPclsUsed | bufPclsFail | bufSrcCls | bufQMap | bufQFlow | bufQPar 
  | bufQLim | bufQShp | bufShgShp | bufQBurst | bufShgBurst | bufQDepth | bufQDrop | bufSchV | bufSchVq | bufSmpGk 
  | hsMacBond | hsMacCfg | hsMacFc | hsMacFcthr | hsMacPq | hsMacPsalo | hsMacPsahi | hsMacFcstat | hsMacGctl 
  | hsMacGbase | hsMacGcycle | hsMacGlead | hsMacGchg | hsMacGstat | hsMacGclG | hsMacGclT | hsMacLpi | hsMacLpistat 
  | hsMacPark | hsMacTxtsns | hsMacTxtssub | hsMacTxtsseq | hsMacTxtsctl | hsMacRxfrm | hsMacRxbylo | hsMacRxbyhi 
  | hsMacTxfrm | hsMacTxbylo | hsMacTxbyhi | hsMacFcserr | hsMacRxerr | hsMacRunt | hsMacGiant | hsMacRxovf 
  | hsMacCtrlunk | hsMacPauserx | hsMacPausetx | hsMacGatedrop | hsMacTxdrop | hsMacDhdrop | hsLnCfg | hsLnTmr 
  | hsLnStat | hsLnLoop | hsLnCaprxlo | hsLnCaprxhi | hsLnEye | hsLnEyethr | hsLnTxeq | hsLnFecsym | hsLnFeccw 
  | hsLnFecuc | hsLnPrbs | hsLngSum0 | hsLngSum1 | pciEpStat | pciEpCfg | pciEpRlog | pciRxgBaselo | pciTxgBaselo 
  | pciRxgBasehi | pciTxgBasehi | pciRxgCfg | pciTxgCfg | pciRxgLevel | pciTxgLevel | pciRxgHead | pciTxgHead 
  | pciRxgTail | pciTxgTail | pciRxgStat | pciTxgStat | pciRxgDrop | pciTxgDrop | hrtTimNs | hrtTimSub | hrtTimInc 
  | hrtTimStepns | hrtTimStepctl | hrtTimStat | hrtTimPpscfg | hrtTimPpsnext | hrtTimPpsper | hrtTimPpsinns 
  | hrtTimPpsinsub | hrtTimSecbasehi | hrtTimSecbaselo | hrtTimNsbase | hrtCfgStat | hrtCfgSeqa | hrtCfgSeqb 
  | hrtCfgCmd | hrtCfgDrain | hrtCfgCtllvl | hrtCfgFailmask | hrtCfgCseq | hrtPwrState | hrtPwrReq | hrtPwrCfg 
  | hrtPwrRetain | hrtPwrEmbwin | hrtPwrCord | hrtPwrRefcnt | hrtSnsTemp | hrtSnsTthr | hrtSnsStat | hrtSnsRail 
  | hrtSnsRlim | hrtHstStat | hrtHstFwver | hrtHstFwseq | hrtMbxCtl | hrtMbxReq | hrtMbxRsp | hrtEvtSrcCtl 
  | hrtEvtSrcFirstns | hrtEvtSrcFirstw | hrtEvtGstat | hrtEvtGcfg | hrtEvtTop | hrtSmbStat | hsFiCtl | hsFiPar 
  | hsFiRate | hsFiSeed | hsFiLimit | hsFiStat | hsFiCnt | lfFiCtl | lfFiPar | lfFiRate | lfFiSeed | lfFiLimit 
  | lfFiStat | lfFiCnt | pktFiCtl | pktFiPar | pktFiRate | pktFiSeed | pktFiLimit | pktFiStat | pktFiCnt 
  | hrtFiGlobal | hrtGlbId | hrtGlbSerlo | hrtGlbSerhi | hrtGlbKhash | hrtGlbKrev | hrtGlbAerr | hrtGlbAerradr 
  | hrtTimWlRxsfn | hrtTimWlRxns | hrtTimWlRxsub | hrtTimWlTxsfn | hrtTimWlTxns | hrtTimWlTxsub | hrtTimWlBseq 
  | hrtTimWlBns | hrtTimWlBsub | hrtTimWlTodrsfn | hrtTimWlTodsechi | hrtTimWlTodseclo | hrtTimWlTodns 
  | hrtTimWlTodfrac | hrtTimWlLocns | hrtTimWlLocsub 
  deriving DecidableEq, Repr

/-- One row of the map: cords `cord` to `cord + cords - 1`, blocks `blk` to `blk + blks - 1`, offset
`off` + `st1` * i + `st2` * j. -/
structure RegRow where
  name : RegName
  cord : Nat
  cords : Nat
  blk : Nat
  blks : Nat
  off : Nat
  n1 : Nat
  st1 : Nat
  n2 : Nat
  st2 : Nat
  reset : Nat
  group : Option Group
  fields : List FieldRow
  deriving DecidableEq, Repr

def regRows0 : List RegRow := [
    ⟨.hrtClkStat, 0, 1, 1, 1, 0, 1, 0, 1, 0, 0x0, (some .time),
      [⟨0, 1, .ro, .any⟩, ⟨1, 1, .ro, .any⟩, ⟨2, 2, .ro, .any⟩, ⟨4, 1, .ro, .any⟩, ⟨5, 1, .ro, .any⟩, ⟨6, 1, .ro, .any⟩, ⟨8, 1, .w1c, .any⟩, ⟨9, 1, .w1c, .any⟩, ⟨10, 1, .w1c, .any⟩]⟩,
    ⟨.hrtClkDisc, 0, 1, 1, 1, 4, 1, 0, 1, 0, 0x400, (some .time),
      [⟨0, 1, .rw, .any⟩, ⟨1, 1, .rw, .any⟩, ⟨8, 4, .rw, (.nat 0 10)⟩]⟩,
    ⟨.hrtClkSteer, 0, 1, 1, 1, 8, 1, 0, 1, 0, 0x0, (some .time),
      [⟨0, 24, .ro, .any⟩]⟩,
    ⟨.cvAdcCfg, 4, 2, 0, 1, 0, 1, 0, 1, 0, 0x101E, (some .line),
      [⟨0, 8, .rw, (.nat 10 50)⟩, ⟨8, 8, .rw, (.nat 1 255)⟩]⟩,
    ⟨.cvAdcDeskew, 4, 2, 0, 1, 0x10, 4, 4, 1, 0, 0x0, (some .line),
      [⟨0, 9, .rw, .any⟩]⟩,
    ⟨.cvAdcLvl, 4, 2, 0, 1, 0x20, 1, 0, 1, 0, 0x0, (some .line),
      [⟨0, 8, .ro, .any⟩, ⟨8, 8, .ro, .any⟩, ⟨16, 8, .ro, .any⟩, ⟨24, 8, .ro, .any⟩]⟩,
    ⟨.cvAdcStat, 4, 2, 0, 1, 0x24, 1, 0, 1, 0, 0x0, (some .line),
      [⟨0, 1, .ro, .any⟩, ⟨1, 1, .ro, .any⟩, ⟨8, 1, .w1c, .any⟩, ⟨9, 1, .w1c, .any⟩, ⟨16, 16, .rc, .any⟩]⟩,
    ⟨.cvSelStat, 4, 2, 1, 1, 0, 1, 0, 1, 0, 0x3F, (some .line),
      [⟨0, 2, .ro, .any⟩, ⟨2, 2, .ro, .any⟩, ⟨4, 2, .ro, .any⟩, ⟨8, 1, .ro, .any⟩]⟩,
    ⟨.leRxcCdcfg, 1, 3, 0, 1, 0x10, 1, 0, 1, 0, 0x40000, (some .line),
      [⟨0, 18, .rw, (.int (-80000) 80000)⟩, ⟨18, 1, .rw, .any⟩, ⟨24, 8, .rw, (.nat 0 160)⟩]⟩,
    ⟨.leRxcCdstat, 1, 3, 0, 1, 0x14, 1, 0, 1, 0, 0x0, (some .line),
      [⟨0, 18, .ro, .any⟩, ⟨20, 1, .ro, .any⟩, ⟨21, 2, .ro, .any⟩]⟩,
    ⟨.leRxcCfg, 1, 3, 0, 1, 0, 1, 0, 1, 0, 0x36408, (some .line),
      [⟨0, 5, .rwq, (.nat 0 20)⟩, ⟨8, 8, .rw, (.nat 1 255)⟩, ⟨16, 4, .rw, (.nat 0 7)⟩]⟩,
    ⟨.leRxcDecode, 1, 3, 0, 1, 0x44, 1, 0, 1, 0, 0x0, (some .line),
      [⟨0, 32, .ro, .any⟩]⟩,
    ⟨.leRxsEqcfg, 1, 3, 0x20, 32, 0, 1, 0, 1, 0, 0xA0A7, (some .line),
      [⟨0, 4, .rw, (.odd 3 15)⟩, ⟨4, 5, .rw, (.nat 4 16)⟩, ⟨12, 5, .rw, (.nat 1 20)⟩]⟩,
    ⟨.leRxsStat, 1, 3, 0x20, 32, 4, 1, 0, 1, 0, 0x0, (some .line),
      [⟨0, 1, .ro, .any⟩, ⟨1, 1, .ro, .any⟩, ⟨8, 1, .w1c, .any⟩, ⟨9, 1, .w1c, .any⟩, ⟨16, 16, .rc, .any⟩]⟩,
    ⟨.leRxsPol, 1, 3, 0x20, 32, 0x14, 1, 0, 1, 0, 0x0, (some .line),
      [⟨0, 16, .ro, .any⟩, ⟨16, 16, .ro, .any⟩]⟩,
    ⟨.leRxcTrstat, 1, 3, 0, 1, 0x20, 1, 0, 1, 0, 0x0, (some .line),
      [⟨0, 1, .ro, .any⟩, ⟨1, 1, .w1c, .any⟩, ⟨8, 8, .ro, .any⟩, ⟨16, 16, .ro, .any⟩]⟩,
    ⟨.leRxcLsrcfg, 1, 3, 0, 1, 0x34, 1, 0, 1, 0, 0xA0641403, (some .line),
      [⟨0, 1, .rw, .any⟩, ⟨1, 3, .rw, (.nat 0 4)⟩, ⟨8, 8, .rw, (.nat 5 200)⟩, ⟨16, 10, .rw, (.nat 10 1000)⟩, ⟨26, 6, .rw, (.nat 1 40)⟩]⟩,
    ⟨.leRxcCfostat, 1, 3, 0, 1, 0x30, 1, 0, 1, 0, 0x0, (some .line),
      [⟨0, 16, .ro, .any⟩, ⟨16, 16, .ro, .any⟩]⟩,
    ⟨.leRxsLlrcfg, 1, 3, 0x20, 32, 0x10, 1, 0, 1, 0, 0x810, (some .line),
      [⟨0, 8, .rw, (.nat 1 255)⟩, ⟨8, 8, .rw, (.nat 1 255)⟩, ⟨16, 8, .ro, .any⟩]⟩,
    ⟨.leRxsQual, 1, 3, 0x20, 32, 8, 1, 0, 1, 0, 0x0, (some .line),
      [⟨0, 1, .ro, .any⟩, ⟨1, 1, .ro, .any⟩, ⟨4, 12, .ro, .any⟩, ⟨16, 16, .ro, .any⟩]⟩,
    ⟨.leRxsQthr, 1, 3, 0x20, 32, 0xC, 1, 0, 1, 0, 0x1900280, (some .line),
      [⟨0, 12, .rw, (.nat 0 2560)⟩, ⟨16, 10, .rw, (.nat 0 600)⟩]⟩,
    ⟨.leRxcStat, 1, 3, 0, 1, 0x40, 1, 0, 1, 0, 0x0, (some .line),
      [⟨0, 3, .ro, .any⟩, ⟨3, 1, .ro, .any⟩, ⟨4, 1, .ro, .any⟩, ⟨5, 1, .ro, .any⟩, ⟨6, 1, .w1c, .any⟩, ⟨8, 8, .rc, .any⟩]⟩,
    ⟨.leTxsProf, 1, 3, 0x60, 32, 0, 1, 0, 1, 0, 0x0, (some .line),
      [⟨0, 8, .ro, .any⟩, ⟨8, 8, .ro, .any⟩, ⟨16, 1, .ro, .any⟩]⟩,
    ⟨.leTxsShape, 1, 3, 0x60, 32, 4, 1, 0, 1, 0, 0xA, (some .line),
      [⟨0, 5, .rw, (.nat 1 20)⟩, ⟨8, 8, .rw, (.int (-120) 30)⟩]⟩,
    ⟨.leTxmBin, 1, 3, 0x41, 1, 0, 512, 4, 1, 0, 0xFF0000, (some .line),
      [⟨0, 8, .rw, .any⟩, ⟨8, 8, .rw, .any⟩, ⟨16, 8, .ro, .any⟩]⟩,
    ⟨.leTxcMaskctl, 1, 3, 0x40, 1, 8, 1, 0, 1, 0, 0x1, (some .line),
      [⟨0, 1, .rw, .any⟩, ⟨1, 1, .rw, .any⟩, ⟨2, 1, .wo, .any⟩, ⟨16, 9, .ro, .any⟩]⟩,
    ⟨.leTxcCfg, 1, 3, 0x40, 1, 0, 1, 0, 1, 0, 0x102C08, (some .line),
      [⟨0, 5, .rwq, (.nat 0 20)⟩, ⟨8, 8, .rw, (.nat 24 80)⟩, ⟨16, 8, .rw, (.nat 1 255)⟩]⟩,
    ⟨.leTxpTap, 1, 3, 0x42, 1, 0, 4, 256, 17, 4, 0x400, (some .line),
      [⟨0, 12, .rw, .any⟩]⟩,
    ⟨.cvDacDeskew, 4, 2, 2, 1, 0, 4, 4, 1, 0, 0x0, (some .line),
      [⟨0, 9, .rw, .any⟩]⟩,
    ⟨.leTxcStat, 1, 3, 0x40, 1, 4, 1, 0, 1, 0, 0x0, (some .line),
      [⟨0, 2, .ro, .any⟩, ⟨2, 1, .ro, .any⟩, ⟨3, 1, .ro, .any⟩, ⟨8, 1, .w1c, .any⟩, ⟨9, 1, .w1c, .any⟩, ⟨16, 8, .rc, .any⟩, ⟨24, 8, .rc, .any⟩]⟩]

def regRows1 : List RegRow := [
    ⟨.cvTrdCfg, 4, 2, 3, 1, 0, 1, 0, 1, 0, 0x3010064, (some .line),
      [⟨0, 10, .rw, (.nat 1 1000)⟩, ⟨16, 8, .rw, .any⟩, ⟨24, 4, .rw, (.nat 1 15)⟩]⟩,
    ⟨.cvTrdCmd, 4, 2, 3, 1, 4, 1, 0, 1, 0, 0x0, (some .line),
      [⟨0, 4, .rw, .any⟩, ⟨31, 1, .wo, .any⟩]⟩,
    ⟨.cvTrdArg, 4, 2, 3, 1, 8, 1, 0, 1, 0, 0x0, (some .line),
      [⟨0, 32, .rw, .any⟩]⟩,
    ⟨.cvTrdRsp, 4, 2, 3, 1, 0xC, 1, 0, 1, 0, 0x0, (some .line),
      [⟨0, 32, .ro, .any⟩]⟩,
    ⟨.cvTrdStat, 4, 2, 3, 1, 0x10, 1, 0, 1, 0, 0x0, (some .line),
      [⟨0, 1, .ro, .any⟩, ⟨1, 3, .ro, .any⟩, ⟨4, 1, .ro, .any⟩, ⟨8, 8, .rc, .any⟩, ⟨16, 8, .rc, .any⟩, ⟨24, 8, .rc, .any⟩]⟩,
    ⟨.lfAlnCfg, 6, 2, 0, 1, 0x400, 1, 0, 1, 0, 0x53, (some .line),
      [⟨0, 4, .rw, (.nat 1 15)⟩, ⟨4, 4, .rw, (.nat 1 15)⟩]⟩,
    ⟨.lfAlnThr, 6, 2, 0, 1, 0x404, 1, 0, 1, 0, 0x20, (some .line),
      [⟨0, 9, .rw, (.nat 0 128)⟩]⟩,
    ⟨.lfAlnStat, 6, 2, 0, 1, 0x408, 1, 0, 1, 0, 0x0, (some .line),
      [⟨0, 1, .ro, .any⟩, ⟨1, 1, .ro, .any⟩, ⟨8, 5, .ro, .any⟩]⟩,
    ⟨.lfScsAln, 6, 2, 0x20, 32, 0, 1, 0, 1, 0, 0x3, (some .line),
      [⟨0, 2, .ro, .any⟩, ⟨2, 3, .ro, .any⟩, ⟨5, 1, .ro, .any⟩, ⟨8, 1, .w1c, .any⟩, ⟨16, 8, .rc, .any⟩, ⟨24, 8, .rc, .any⟩]⟩,
    ⟨.lfScsHdr, 6, 2, 0x20, 32, 4, 1, 0, 1, 0, 0x0, (some .line),
      [⟨0, 8, .ro, .any⟩, ⟨8, 1, .ro, .any⟩, ⟨16, 8, .rc, .any⟩, ⟨24, 8, .rc, .any⟩]⟩,
    ⟨.lfScsSfn, 6, 2, 0x20, 32, 8, 1, 0, 1, 0, 0x0, (some .line),
      [⟨0, 32, .ro, .any⟩]⟩,
    ⟨.lfFecCfg, 6, 2, 1, 1, 0, 1, 0, 1, 0, 0x400010C, (some .line),
      [⟨0, 5, .rw, (.nat 4 16)⟩, ⟨8, 2, .rw, .any⟩, ⟨16, 16, .rw, (.nat 1 65535)⟩]⟩,
    ⟨.lfScsFeccb, 6, 2, 0x20, 32, 0xC, 1, 0, 1, 0, 0x0, (some .line),
      [⟨0, 32, .ro, .any⟩]⟩,
    ⟨.lfScsFecub, 6, 2, 0x20, 32, 0x10, 1, 0, 1, 0, 0x0, (some .line),
      [⟨0, 32, .rc, .any⟩]⟩,
    ⟨.lfScsFecit, 6, 2, 0x20, 32, 0x14, 1, 0, 1, 0, 0x0, (some .line),
      [⟨0, 9, .ro, .any⟩, ⟨16, 16, .rc, .any⟩]⟩,
    ⟨.lfGrpStat, 6, 2, 0x40, 32, 0, 1, 0, 1, 0, 0x0, (some .line),
      [⟨0, 6, .ro, .any⟩, ⟨8, 2, .ro, .any⟩, ⟨12, 20, .ro, .any⟩]⟩,
    ⟨.lfGrpMemb, 6, 2, 0x40, 32, 4, 1, 0, 1, 0, 0x0, (some .line),
      [⟨0, 32, .ro, .any⟩]⟩,
    ⟨.lfCellCfg, 6, 2, 2, 1, 0, 1, 0, 1, 0, 0x8, (some .line),
      [⟨0, 8, .rw, (.nat 1 255)⟩]⟩,
    ⟨.lfCellIdle, 6, 2, 2, 1, 0x10, 1, 0, 1, 0, 0x0, (some .line),
      [⟨0, 32, .rc, .any⟩]⟩,
    ⟨.lfCellErr, 6, 2, 2, 1, 0x14, 1, 0, 1, 0, 0x0, (some .line),
      [⟨0, 16, .rc, .any⟩, ⟨16, 16, .rc, .any⟩]⟩,
    ⟨.lfCellLost, 6, 2, 2, 1, 0x18, 1, 0, 1, 0, 0x0, (some .line),
      [⟨0, 32, .rc, .any⟩]⟩,
    ⟨.lfCellPktdrop, 6, 2, 2, 1, 0x1C, 1, 0, 1, 0, 0x0, (some .line),
      [⟨0, 32, .rc, .any⟩]⟩,
    ⟨.lfCellDlpdrop, 6, 2, 2, 1, 0x20, 1, 0, 1, 0, 0x0, (some .line),
      [⟨0, 32, .rc, .any⟩]⟩,
    ⟨.lfPmCtl, 6, 2, 3, 1, 0, 1, 0, 1, 0, 0x0, (some .line),
      [⟨0, 1, .wo, .any⟩]⟩,
    ⟨.lfPmStat, 6, 2, 3, 1, 4, 1, 0, 1, 0, 0x0, (some .line),
      [⟨0, 1, .ro, .any⟩, ⟨16, 16, .ro, .any⟩]⟩,
    ⟨.lfPmEs, 6, 2, 3, 1, 0x10, 1, 0, 1, 0, 0x0, (some .line),
      [⟨0, 32, .ro, .any⟩]⟩,
    ⟨.lfPmSes, 6, 2, 3, 1, 0x14, 1, 0, 1, 0, 0x0, (some .line),
      [⟨0, 32, .ro, .any⟩]⟩,
    ⟨.lfPmUas, 6, 2, 3, 1, 0x18, 1, 0, 1, 0, 0x0, (some .line),
      [⟨0, 32, .ro, .any⟩]⟩,
    ⟨.lfPmSps, 6, 2, 3, 1, 0x1C, 1, 0, 1, 0, 0x0, (some .line),
      [⟨0, 32, .ro, .any⟩]⟩,
    ⟨.lfScsPmes, 6, 2, 0x20, 32, 0x20, 1, 0, 1, 0, 0x0, (some .line),
      [⟨0, 32, .ro, .any⟩]⟩]

def regRows2 : List RegRow := [
    ⟨.lfScsPmses, 6, 2, 0x20, 32, 0x24, 1, 0, 1, 0, 0x0, (some .line),
      [⟨0, 32, .ro, .any⟩]⟩,
    ⟨.lfScsPmuas, 6, 2, 0x20, 32, 0x28, 1, 0, 1, 0, 0x0, (some .line),
      [⟨0, 32, .ro, .any⟩]⟩,
    ⟨.lfScsPmsps, 6, 2, 0x20, 32, 0x2C, 1, 0, 1, 0, 0x0, (some .line),
      [⟨0, 32, .ro, .any⟩]⟩,
    ⟨.lfScsPmstat, 6, 2, 0x20, 32, 0x30, 1, 0, 1, 0, 0x0, (some .line),
      [⟨0, 1, .ro, .any⟩]⟩,
    ⟨.lfCtlErr, 6, 2, 6, 1, 0, 1, 0, 1, 0, 0x0, (some .shared),
      [⟨0, 8, .rc, .any⟩, ⟨8, 8, .rc, .any⟩, ⟨16, 8, .rc, .any⟩, ⟨24, 8, .rc, .any⟩]⟩,
    ⟨.lfActCfg, 6, 2, 4, 1, 0, 1, 0, 1, 0, 0x320A1400, (some .shared),
      [⟨0, 1, .rw, .any⟩, ⟨8, 8, .rw, (.nat 1 255)⟩, ⟨16, 8, .rw, (.nat 1 255)⟩, ⟨24, 8, .rw, (.nat 1 255)⟩]⟩,
    ⟨.lfActCfg2, 6, 2, 4, 1, 4, 1, 0, 1, 0, 0x7D003E8, (some .shared),
      [⟨0, 16, .rw, (.nat 100 10000)⟩, ⟨16, 16, .rw, (.nat 100 10000)⟩]⟩,
    ⟨.lfActStat, 6, 2, 4, 1, 8, 1, 0, 1, 0, 0x0, (some .shared),
      [⟨0, 3, .ro, .any⟩, ⟨3, 3, .ro, .any⟩, ⟨6, 1, .ro, .any⟩, ⟨8, 1, .ro, .any⟩, ⟨9, 1, .ro, .any⟩, ⟨16, 16, .ro, .any⟩]⟩,
    ⟨.lfActCtl, 6, 2, 4, 1, 0xC, 1, 0, 1, 0, 0x0, (some .shared),
      [⟨0, 1, .wo, .any⟩, ⟨1, 1, .wo, .any⟩]⟩,
    ⟨.lfActId, 6, 2, 4, 1, 0x10, 1, 0, 1, 0, 0x0, (some .shared),
      [⟨0, 12, .ro, .any⟩]⟩,
    ⟨.lfActEqd, 6, 2, 4, 1, 0x14, 1, 0, 1, 0, 0x0, (some .shared),
      [⟨0, 24, .ro, .any⟩]⟩,
    ⟨.lfActRtd, 6, 2, 4, 1, 0x18, 1, 0, 1, 0, 0x0, (some .shared),
      [⟨0, 24, .ro, .any⟩]⟩,
    ⟨.lfStsQg, 6, 2, 7, 1, 0, 16, 4, 1, 0, 0x0, (some .shared),
      [⟨0, 8, .rw, .any⟩, ⟨31, 1, .rw, .any⟩]⟩,
    ⟨.lfPrfCode, 6, 2, 6, 1, 0x100, 32, 4, 1, 0, 0x0, (some .shared),
      [⟨0, 8, .rw, .any⟩, ⟨8, 1, .rw, .any⟩]⟩,
    ⟨.lfPrfReq, 6, 2, 6, 1, 0x10, 1, 0, 1, 0, 0x1000, (some .shared),
      [⟨0, 1, .rw, .any⟩, ⟨1, 1, .rw, .any⟩, ⟨4, 12, .rw, (.nat 4 1024)⟩, ⟨31, 1, .wo, .any⟩]⟩,
    ⟨.lfPrfStat, 6, 2, 6, 1, 0x14, 1, 0, 1, 0, 0x0, (some .shared),
      [⟨0, 1, .ro, .any⟩, ⟨1, 3, .ro, .any⟩, ⟨8, 8, .ro, .any⟩, ⟨31, 1, .ro, .any⟩]⟩,
    ⟨.lfPrfEsfn, 6, 2, 6, 1, 0x18, 1, 0, 1, 0, 0x0, (some .shared),
      [⟨0, 32, .ro, .any⟩]⟩,
    ⟨.lfGntBursts, 6, 2, 5, 1, 0, 1, 0, 1, 0, 0x0, (some .shared),
      [⟨0, 32, .rc, .any⟩]⟩,
    ⟨.lfGntErr, 6, 2, 5, 1, 4, 1, 0, 1, 0, 0x0, (some .shared),
      [⟨0, 8, .rc, .any⟩, ⟨8, 8, .rc, .any⟩, ⟨16, 8, .rc, .any⟩, ⟨24, 8, .rc, .any⟩]⟩,
    ⟨.lfGntMiss, 6, 2, 5, 1, 8, 1, 0, 1, 0, 0x0, (some .shared),
      [⟨0, 16, .rc, .any⟩, ⟨16, 16, .rc, .any⟩]⟩,
    ⟨.lfCryCfg, 6, 2, 8, 1, 0, 1, 0, 1, 0, 0x8000, (some .crypto),
      [⟨0, 16, .rw, (.nat 1 65535)⟩, ⟨16, 1, .rw, .any⟩]⟩,
    ⟨.lfCryKeyw, 6, 2, 8, 1, 0x10, 8, 4, 1, 0, 0x0, (some .crypto),
      [⟨0, 32, .wo, .any⟩]⟩,
    ⟨.lfCrySalt, 6, 2, 8, 1, 0x30, 1, 0, 1, 0, 0x0, (some .crypto),
      [⟨0, 32, .wo, .any⟩]⟩,
    ⟨.lfCryKcmd, 6, 2, 8, 1, 0x34, 1, 0, 1, 0, 0x0, (some .crypto),
      [⟨0, 5, .rw, .any⟩, ⟨8, 1, .rw, .any⟩, ⟨12, 1, .rw, .any⟩, ⟨16, 2, .rw, (.nat 0 1)⟩, ⟨31, 1, .wo, .any⟩]⟩,
    ⟨.lfCryKstat, 6, 2, 8, 1, 0x38, 1, 0, 1, 0, 0x0, (some .crypto),
      [⟨0, 1, .ro, .any⟩]⟩,
    ⟨.lfCryKsw, 6, 2, 8, 1, 0x40, 1, 0, 1, 0, 0x1000000, (some .crypto),
      [⟨0, 5, .rw, .any⟩, ⟨8, 1, .rw, .any⟩, ⟨12, 1, .rw, .any⟩, ⟨16, 12, .rw, (.nat 4 1024)⟩, ⟨31, 1, .wo, .any⟩]⟩,
    ⟨.lfCryKswstat, 6, 2, 8, 1, 0x44, 1, 0, 1, 0, 0x0, (some .crypto),
      [⟨0, 1, .ro, .any⟩, ⟨1, 3, .ro, .any⟩, ⟨8, 8, .ro, .any⟩]⟩,
    ⟨.lfCrytStat, 6, 2, 0x60, 32, 0, 1, 0, 1, 0, 0x30, (some .crypto),
      [⟨0, 1, .ro, .any⟩, ⟨1, 1, .ro, .any⟩, ⟨2, 1, .ro, .any⟩, ⟨3, 1, .ro, .any⟩, ⟨4, 2, .ro, .any⟩, ⟨8, 1, .w1c, .any⟩, ⟨16, 16, .rc, .any⟩]⟩,
    ⟨.lfCrytGctrlo, 6, 2, 0x60, 32, 4, 1, 0, 1, 0, 0x0, (some .crypto),
      [⟨0, 32, .ro, .any⟩]⟩,
    ⟨.lfCrytGctrhi, 6, 2, 0x60, 32, 8, 1, 0, 1, 0, 0x0, (some .crypto),
      [⟨0, 16, .ro, .any⟩]⟩]

def regRows3 : List RegRow := [
    ⟨.lfCrytCtl, 6, 2, 0x60, 32, 0xC, 1, 0, 1, 0, 0x0, (some .crypto),
      [⟨0, 1, .wo, .any⟩]⟩,
    ⟨.lfCryrCtl, 6, 2, 0x80, 32, 0xC, 1, 0, 1, 0, 0x0, (some .crypto),
      [⟨0, 1, .wo, .any⟩]⟩,
    ⟨.lfCryrStat, 6, 2, 0x80, 32, 0, 1, 0, 1, 0, 0x0, (some .crypto),
      [⟨0, 1, .ro, .any⟩, ⟨1, 1, .ro, .any⟩, ⟨2, 1, .ro, .any⟩, ⟨3, 1, .ro, .any⟩, ⟨4, 1, .ro, .any⟩, ⟨16, 16, .rc, .any⟩]⟩,
    ⟨.lfCryrTagfail, 6, 2, 0x80, 32, 4, 1, 0, 1, 0, 0x0, (some .crypto),
      [⟨0, 32, .rc, .any⟩]⟩,
    ⟨.lfCryrErr, 6, 2, 0x80, 32, 8, 1, 0, 1, 0, 0x0, (some .crypto),
      [⟨0, 8, .rc, .any⟩, ⟨8, 8, .rc, .any⟩, ⟨16, 8, .rc, .any⟩, ⟨24, 8, .rc, .any⟩]⟩,
    ⟨.hrtSprCfg, 0, 1, 2, 1, 0, 1, 0, 1, 0, 0x1000A01, (some .sparing),
      [⟨0, 1, .rw, .any⟩, ⟨1, 1, .rw, .any⟩, ⟨2, 1, .rw, .any⟩, ⟨8, 12, .rw, (.nat 1 3600)⟩, ⟨20, 6, .rw, (.nat 1 56)⟩]⟩,
    ⟨.hrtSprCfg2, 0, 1, 2, 1, 4, 1, 0, 1, 0, 0x180310, (some .sparing),
      [⟨0, 8, .rw, (.nat 1 255)⟩, ⟨8, 4, .rw, (.nat 1 15)⟩, ⟨16, 8, .rw, (.nat 0 168)⟩]⟩,
    ⟨.hrtSprCmd, 0, 1, 2, 1, 8, 1, 0, 1, 0, 0x0, (some .sparing),
      [⟨0, 3, .rw, (.nat 1 5)⟩, ⟨4, 1, .rw, .any⟩, ⟨8, 2, .rw, (.nat 0 2)⟩, ⟨31, 1, .wo, .any⟩]⟩,
    ⟨.hrtSprStat, 0, 1, 2, 1, 0xC, 1, 0, 1, 0, 0xF, (some .sparing),
      [⟨0, 2, .ro, .any⟩, ⟨2, 2, .ro, .any⟩, ⟨4, 3, .ro, .any⟩, ⟨8, 1, .ro, .any⟩, ⟨9, 1, .w1c, .any⟩, ⟨16, 16, .ro, .any⟩]⟩,
    ⟨.hrtSprEng, 0, 1, 2, 1, 0x10, 3, 4, 1, 0, 0x0, (some .sparing),
      [⟨0, 3, .ro, .any⟩, ⟨4, 4, .ro, .any⟩, ⟨8, 4, .ro, .any⟩, ⟨16, 8, .rc, .any⟩, ⟨24, 8, .rc, .any⟩]⟩,
    ⟨.hrtSprWl, 0, 1, 2, 1, 0x20, 2, 8, 1, 0, 0x0, (some .sparing),
      [⟨0, 24, .ro, .any⟩, ⟨24, 8, .rc, .any⟩]⟩,
    ⟨.hrtSprWllost, 0, 1, 2, 1, 0x24, 2, 8, 1, 0, 0x0, (some .sparing),
      [⟨0, 32, .rc, .any⟩]⟩,
    ⟨.hrtSprSnap, 0, 1, 2, 1, 0x40, 3, 4, 1, 0, 0x0, (some .sparing),
      [⟨0, 16, .ro, .any⟩, ⟨16, 1, .ro, .any⟩, ⟨17, 1, .ro, .any⟩, ⟨18, 1, .ro, .any⟩, ⟨24, 8, .rc, .any⟩]⟩,
    ⟨.pktSprCfg, 8, 1, 0, 1, 0, 1, 0, 1, 0, 0xFFFFFFFF, (some .packet),
      [⟨0, 32, .ro, .any⟩]⟩,
    ⟨.pktSprMap, 8, 1, 0, 1, 0x100, 256, 4, 1, 0, 0x0, (some .packet),
      [⟨0, 5, .ro, .any⟩]⟩,
    ⟨.pktSlcPkts, 8, 1, 1, 24, 0, 1, 0, 1, 0, 0x0, (some .packet),
      [⟨0, 32, .rc, .any⟩]⟩,
    ⟨.pktSlcOvf, 8, 1, 1, 24, 4, 1, 0, 1, 0, 0x0, (some .packet),
      [⟨0, 32, .rc, .any⟩]⟩,
    ⟨.pktPrsSrc, 8, 1, 0x20, 1, 0, 161, 4, 1, 0, 0x0, (some .packet),
      [⟨0, 4, .rw, .any⟩, ⟨16, 13, .rw, .any⟩]⟩,
    ⟨.pktPrsProfSel, 8, 1, 0x20, 1, 0x1000, 16, 64, 8, 4, 0x0, (some .packet),
      [⟨0, 16, .rw, .any⟩, ⟨16, 4, .rw, .any⟩, ⟨31, 1, .rw, .any⟩]⟩,
    ⟨.pktPrsProfCfg, 8, 1, 0x20, 1, 0x1020, 16, 64, 1, 0, 0x0, (some .packet),
      [⟨0, 4, .rw, .any⟩]⟩,
    ⟨.pktPrsProfSpr, 8, 1, 0x20, 1, 0x1024, 16, 64, 2, 4, 0x0, (some .packet),
      [⟨0, 6, .rw, .any⟩, ⟨8, 6, .rw, .any⟩, ⟨16, 6, .rw, .any⟩, ⟨24, 6, .rw, .any⟩]⟩,
    ⟨.pktPrsAct, 8, 1, 0x20, 1, 0x404, 1, 0, 1, 0, 0x0, (some .packet),
      [⟨0, 2, .rw, (.nat 0 2)⟩, ⟨2, 2, .rw, (.nat 0 2)⟩, ⟨4, 11, .rw, .any⟩, ⟨16, 11, .rw, .any⟩]⟩,
    ⟨.pktPrsRcnt, 8, 1, 0x20, 1, 0x414, 7, 4, 1, 0, 0x0, (some .packet),
      [⟨0, 32, .rc, .any⟩]⟩,
    ⟨.pktPrsTcommit, 8, 1, 0x20, 1, 0x400, 1, 0, 1, 0, 0x0, (some .packet),
      [⟨0, 16, .rw, .any⟩, ⟨30, 1, .ro, .any⟩, ⟨31, 1, .wo, .any⟩]⟩,
    ⟨.pktPrsTmplCfg, 8, 1, 0x20, 1, 0x2000, 16, 256, 1, 0, 0x0, (some .packet),
      [⟨0, 2, .rw, (.nat 0 2)⟩, ⟨2, 6, .rw, (.nat 0 60)⟩, ⟨8, 1, .rw, .any⟩, ⟨12, 3, .rw, .any⟩]⟩,
    ⟨.pktPrsTmplOfs, 8, 1, 0x20, 1, 0x2010, 16, 256, 12, 4, 0x0, (some .packet),
      [⟨0, 6, .rw, .any⟩, ⟨8, 6, .rw, .any⟩, ⟨16, 6, .rw, .any⟩, ⟨24, 6, .rw, .any⟩, ⟨7, 1, .rw, .any⟩, ⟨15, 1, .rw, .any⟩, ⟨23, 1, .rw, .any⟩, ⟨31, 1, .rw, .any⟩]⟩,
    ⟨.pktPrsTmplDkey, 8, 1, 0x20, 1, 0x2040, 16, 256, 4, 4, 0x0, (some .packet),
      [⟨0, 6, .rw, (.nat 0 47)⟩, ⟨8, 6, .rw, (.nat 0 47)⟩, ⟨16, 6, .rw, (.nat 0 47)⟩, ⟨24, 6, .rw, (.nat 0 47)⟩]⟩,
    ⟨.pktPrsTmplSkey, 8, 1, 0x20, 1, 0x2050, 16, 256, 4, 4, 0x0, (some .packet),
      [⟨0, 6, .rw, (.nat 0 47)⟩, ⟨8, 6, .rw, (.nat 0 47)⟩, ⟨16, 6, .rw, (.nat 0 47)⟩, ⟨24, 6, .rw, (.nat 0 47)⟩]⟩,
    ⟨.pktClsKeyw, 8, 1, 0x30, 1, 0, 15, 4, 1, 0, 0x0, (some .packet),
      [⟨0, 32, .rw, .any⟩]⟩,
    ⟨.pktClsMaskw, 8, 1, 0x30, 1, 0x40, 15, 4, 1, 0, 0x0, (some .packet),
      [⟨0, 32, .rw, .any⟩]⟩]

def regRows4 : List RegRow := [
    ⟨.pktClsActw, 8, 1, 0x30, 1, 0x80, 4, 4, 1, 0, 0x0, (some .packet),
      [⟨0, 32, .rw, .any⟩]⟩,
    ⟨.pktClsDefact, 8, 1, 0x30, 1, 0xC0, 4, 4, 1, 0, 0x0, (some .packet),
      [⟨0, 32, .rw, .any⟩]⟩,
    ⟨.pktClsCmd, 8, 1, 0x30, 1, 0x90, 1, 0, 1, 0, 0x0, (some .packet),
      [⟨0, 15, .rw, (.nat 0 24575)⟩, ⟨16, 3, .rw, .any⟩, ⟨31, 1, .wo, .any⟩]⟩,
    ⟨.pktClsStat, 8, 1, 0x30, 1, 0x94, 1, 0, 1, 0, 0x0, (some .packet),
      [⟨0, 1, .ro, .any⟩, ⟨4, 2, .ro, .any⟩, ⟨16, 15, .ro, .any⟩]⟩,
    ⟨.pktClsCntplo, 8, 1, 0x30, 1, 0xA0, 1, 0, 1, 0, 0x0, (some .packet),
      [⟨0, 32, .ro, .any⟩]⟩,
    ⟨.pktClsCntphi, 8, 1, 0x30, 1, 0xA4, 1, 0, 1, 0, 0x0, (some .packet),
      [⟨0, 32, .ro, .any⟩]⟩,
    ⟨.pktClsCntblo, 8, 1, 0x30, 1, 0xA8, 1, 0, 1, 0, 0x0, (some .packet),
      [⟨0, 32, .ro, .any⟩]⟩,
    ⟨.pktClsCntbhi, 8, 1, 0x30, 1, 0xAC, 1, 0, 1, 0, 0x0, (some .packet),
      [⟨0, 32, .ro, .any⟩]⟩,
    ⟨.pktClsMirror, 8, 1, 0x30, 1, 0x100, 16, 4, 1, 0, 0x0, (some .packet),
      [⟨0, 13, .rw, .any⟩, ⟨13, 1, .rw, .any⟩, ⟨31, 1, .rw, .any⟩]⟩,
    ⟨.pktClsErr, 8, 1, 0x30, 1, 0x140, 1, 0, 1, 0, 0x0, (some .packet),
      [⟨0, 8, .rc, .any⟩, ⟨8, 8, .rc, .any⟩, ⟨16, 8, .rc, .any⟩, ⟨24, 8, .rc, .any⟩]⟩,
    ⟨.pktEmtKey, 8, 1, 0x40, 1, 0, 4, 4, 1, 0, 0x0, (some .packet),
      [⟨0, 32, .rw, .any⟩]⟩,
    ⟨.pktEmtRes, 8, 1, 0x40, 1, 0x10, 1, 0, 1, 0, 0xFE00000, (some .packet),
      [⟨0, 13, .rw, .any⟩, ⟨13, 8, .rw, .any⟩, ⟨21, 7, .rw, .any⟩, ⟨28, 1, .rw, .any⟩, ⟨29, 1, .rw, .any⟩, ⟨30, 1, .ro, .any⟩]⟩,
    ⟨.pktEmtAge, 8, 1, 0x40, 1, 0x14, 1, 0, 1, 0, 0x0, (some .packet),
      [⟨0, 16, .rw, .any⟩, ⟨16, 3, .rw, .any⟩]⟩,
    ⟨.pktEmtIdx, 8, 1, 0x40, 1, 0x18, 1, 0, 1, 0, 0x0, (some .packet),
      [⟨0, 21, .rw, .any⟩, ⟨24, 1, .rw, .any⟩]⟩,
    ⟨.pktEmtCmd, 8, 1, 0x40, 1, 0x1C, 1, 0, 1, 0, 0x0, (some .packet),
      [⟨0, 4, .rw, .any⟩, ⟨4, 1, .rw, .any⟩, ⟨31, 1, .wo, .any⟩]⟩,
    ⟨.pktEmtStat, 8, 1, 0x40, 1, 0x20, 1, 0, 1, 0, 0x0, (some .packet),
      [⟨0, 1, .ro, .any⟩, ⟨4, 4, .ro, .any⟩, ⟨8, 5, .ro, .any⟩]⟩,
    ⟨.pktEmtSeed0, 8, 1, 0x40, 1, 0x30, 1, 0, 1, 0, 0xFFFFFFFF, (some .packet),
      [⟨0, 32, .rwq, .any⟩]⟩,
    ⟨.pktEmtSeed1, 8, 1, 0x40, 1, 0x34, 1, 0, 1, 0, 0xFFFFFFFF, (some .packet),
      [⟨0, 32, .rwq, .any⟩]⟩,
    ⟨.pktEmtOcc, 8, 1, 0x40, 1, 0x40, 1, 0, 1, 0, 0x0, (some .packet),
      [⟨0, 22, .ro, .any⟩]⟩,
    ⟨.pktEmtStash, 8, 1, 0x40, 1, 0x44, 1, 0, 1, 0, 0x3000, (some .packet),
      [⟨0, 7, .ro, .any⟩, ⟨8, 7, .rw, (.nat 1 64)⟩]⟩,
    ⟨.pktEmtPart, 8, 1, 0x40, 1, 0x80, 8, 4, 1, 0, 0x0, (some .packet),
      [⟨0, 18, .ro, .any⟩, ⟨18, 5, .ro, .any⟩, ⟨31, 1, .ro, .any⟩]⟩,
    ⟨.pktEmtAgecfg, 8, 1, 0x40, 1, 0x48, 1, 0, 1, 0, 0x12C0064, (some .packet),
      [⟨0, 15, .rw, (.nat 1 32767)⟩, ⟨15, 1, .rw, .any⟩, ⟨16, 16, .rw, .any⟩]⟩,
    ⟨.pktEmtEpoch, 8, 1, 0x40, 1, 0x4C, 1, 0, 1, 0, 0x0, (some .packet),
      [⟨0, 16, .ro, .any⟩, ⟨16, 16, .rc, .any⟩]⟩,
    ⟨.pktLrnCfg, 8, 1, 0x50, 1, 0, 1, 0, 1, 0, 0xA, (some .packet),
      [⟨0, 10, .rw, (.nat 1 1000)⟩, ⟨16, 8, .rw, .any⟩]⟩,
    ⟨.pktLrnCnt, 8, 1, 0x50, 1, 0x10, 1, 0, 1, 0, 0x0, (some .packet),
      [⟨0, 8, .rc, .any⟩, ⟨8, 8, .rc, .any⟩, ⟨16, 8, .rc, .any⟩, ⟨24, 8, .rc, .any⟩]⟩,
    ⟨.pktLrnPq, 8, 1, 0x50, 1, 0x100, 96, 4, 1, 0, 0x0, (some .packet),
      [⟨0, 13, .rw, .any⟩, ⟨31, 1, .rw, .any⟩]⟩,
    ⟨.bufBmErr, 9, 1, 0, 1, 0, 1, 0, 1, 0, 0x0, (some .queue),
      [⟨0, 16, .rc, .any⟩, ⟨16, 16, .rc, .any⟩]⟩,
    ⟨.bufBmErrlog, 9, 1, 0, 1, 4, 1, 0, 1, 0, 0x0, (some .queue),
      [⟨0, 25, .ro, .any⟩, ⟨25, 6, .ro, .any⟩, ⟨31, 1, .ro, .any⟩]⟩,
    ⟨.bufBmEcc, 9, 1, 0, 1, 8, 1, 0, 1, 0, 0x0, (some .queue),
      [⟨0, 16, .rc, .any⟩, ⟨16, 16, .rc, .any⟩]⟩,
    ⟨.bufBmRecl, 9, 1, 0, 1, 0xC, 1, 0, 1, 0, 0x0, (some .queue),
      [⟨0, 32, .rc, .any⟩]⟩]

def regRows5 : List RegRow := [
    ⟨.bufSmpCfg, 9, 1, 0, 1, 0x10, 1, 0, 1, 0, 0x3, (some .queue),
      [⟨0, 4, .rw, (.nat 0 12)⟩]⟩,
    ⟨.bufSmpSel, 9, 1, 0, 1, 0x14, 1, 0, 1, 0, 0x0, (some .queue),
      [⟨0, 13, .rw, .any⟩, ⟨13, 1, .rw, .any⟩, ⟨14, 1, .rw, .any⟩, ⟨30, 1, .ro, .any⟩, ⟨31, 1, .wo, .any⟩]⟩,
    ⟨.bufSmpRec, 9, 1, 0, 1, 0x20, 8, 4, 1, 0, 0x0, (some .queue),
      [⟨0, 32, .ro, .any⟩]⟩,
    ⟨.bufSmpHist, 9, 1, 0, 1, 0x40, 16, 4, 1, 0, 0x0, (some .queue),
      [⟨0, 32, .ro, .any⟩]⟩,
    ⟨.bufQmCmd, 9, 1, 0, 1, 0x80, 1, 0, 1, 0, 0x0, (some .queue),
      [⟨0, 13, .rw, .any⟩, ⟨16, 2, .rw, (.nat 1 1)⟩, ⟨30, 1, .ro, .any⟩, ⟨31, 1, .wo, .any⟩]⟩,
    ⟨.bufQmLog, 9, 1, 0, 1, 0x84, 1, 0, 1, 0, 0x0, (some .queue),
      [⟨0, 13, .ro, .any⟩, ⟨13, 2, .ro, .any⟩]⟩,
    ⟨.bufQmFlushed, 9, 1, 0, 1, 0x88, 1, 0, 1, 0, 0x0, (some .queue),
      [⟨0, 32, .rc, .any⟩]⟩,
    ⟨.bufPoolCfg, 9, 1, 1, 1, 0, 64, 16, 1, 0, 0x0, (some .queue),
      [⟨0, 25, .ro, .any⟩, ⟨30, 1, .ro, .any⟩, ⟨31, 1, .ro, .any⟩]⟩,
    ⟨.bufPoolFree, 9, 1, 1, 1, 4, 64, 16, 1, 0, 0x0, (some .queue),
      [⟨0, 25, .ro, .any⟩]⟩,
    ⟨.bufPoolLow, 9, 1, 1, 1, 8, 64, 16, 1, 0, 0x0, (some .queue),
      [⟨0, 25, .rw, .any⟩]⟩,
    ⟨.bufPclsMin, 9, 1, 2, 1, 0, 1024, 16, 1, 0, 0x0, (some .queue),
      [⟨0, 25, .ro, .any⟩]⟩,
    ⟨.bufPclsMax, 9, 1, 2, 1, 4, 1024, 16, 1, 0, 0x0, (some .queue),
      [⟨0, 25, .rw, .any⟩]⟩,
    ⟨.bufPclsUsed, 9, 1, 2, 1, 8, 1024, 16, 1, 0, 0x0, (some .queue),
      [⟨0, 25, .ro, .any⟩]⟩,
    ⟨.bufPclsFail, 9, 1, 2, 1, 0xC, 1024, 16, 1, 0, 0x0, (some .queue),
      [⟨0, 32, .rc, .any⟩]⟩,
    ⟨.bufSrcCls, 9, 1, 3, 1, 0, 161, 4, 1, 0, 0x0, (some .queue),
      [⟨0, 4, .ro, .any⟩]⟩,
    ⟨.bufQMap, 9, 1, 0x10, 1, 0, 8192, 4, 1, 0, 0xFF000000, (some .queue),
      [⟨0, 8, .ro, .any⟩, ⟨8, 6, .ro, .any⟩, ⟨14, 6, .ro, .any⟩, ⟨20, 1, .ro, .any⟩, ⟨21, 3, .ro, .any⟩, ⟨24, 8, .ro, .any⟩]⟩,
    ⟨.bufQFlow, 9, 1, 0x11, 1, 0, 8192, 4, 1, 0, 0x0, (some .queue),
      [⟨0, 20, .ro, .any⟩]⟩,
    ⟨.bufQPar, 9, 1, 0x12, 1, 0, 8192, 4, 1, 0, 0xA0001, (some .queue),
      [⟨0, 16, .rw, (.nat 1 65535)⟩, ⟨16, 5, .rw, (.nat 0 20)⟩, ⟨21, 8, .rw, .any⟩, ⟨29, 1, .rw, .any⟩, ⟨31, 1, .rw, .any⟩]⟩,
    ⟨.bufQLim, 9, 1, 0x13, 1, 0, 8192, 4, 1, 0, 0x400, (some .queue),
      [⟨0, 24, .rw, (.nat 1 16777215)⟩, ⟨24, 8, .rw, .any⟩]⟩,
    ⟨.bufQShp, 9, 1, 0x14, 1, 0, 8192, 4, 1, 0, 0x0, (some .queue),
      [⟨0, 22, .rw, .any⟩, ⟨31, 1, .rw, .any⟩]⟩,
    ⟨.bufShgShp, 9, 1, 0x18, 1, 0, 255, 8, 1, 0, 0x0, (some .queue),
      [⟨0, 22, .rw, .any⟩, ⟨31, 1, .rw, .any⟩]⟩,
    ⟨.bufQBurst, 9, 1, 0x15, 1, 0, 8192, 4, 1, 0, 0x3000, (some .queue),
      [⟨0, 24, .rw, (.nat 64 16777215)⟩]⟩,
    ⟨.bufShgBurst, 9, 1, 0x18, 1, 4, 255, 8, 1, 0, 0x3000, (some .queue),
      [⟨0, 24, .rw, (.nat 64 16777215)⟩]⟩,
    ⟨.bufQDepth, 9, 1, 0x16, 1, 0, 8192, 4, 1, 0, 0x0, (some .queue),
      [⟨0, 32, .ro, .any⟩]⟩,
    ⟨.bufQDrop, 9, 1, 0x17, 1, 0, 8192, 4, 1, 0, 0x0, (some .queue),
      [⟨0, 32, .rc, .any⟩]⟩,
    ⟨.bufSchV, 9, 1, 0x19, 1, 0, 160, 8, 1, 0, 0x0, (some .queue),
      [⟨0, 32, .ro, .any⟩]⟩,
    ⟨.bufSchVq, 9, 1, 0x19, 1, 4, 160, 8, 1, 0, 0x0, (some .queue),
      [⟨0, 16, .ro, .any⟩]⟩,
    ⟨.bufSmpGk, 9, 1, 0x1A, 1, 0, 256, 4, 1, 0, 0xA, (some .queue),
      [⟨0, 5, .rw, (.nat 0 20)⟩]⟩,
    ⟨.hsMacBond, 10, 2, 0x40, 48, 0, 1, 0, 1, 0, 0x0, (some .mac),
      [⟨0, 4, .ro, .any⟩, ⟨4, 3, .ro, .any⟩, ⟨8, 1, .ro, .any⟩, ⟨16, 1, .ro, .any⟩]⟩,
    ⟨.hsMacCfg, 10, 2, 0x40, 48, 4, 1, 0, 1, 0, 0x5F20040, (some .mac),
      [⟨0, 7, .rw, (.nat 48 64)⟩, ⟨7, 1, .rw, .any⟩, ⟨16, 14, .rw, (.nat 1518 12288)⟩]⟩]

def regRows6 : List RegRow := [
    ⟨.hsMacFc, 10, 2, 0x40, 48, 8, 1, 0, 1, 0, 0xFFFF00, (some .mac),
      [⟨0, 2, .rw, (.nat 0 2)⟩, ⟨2, 1, .rw, .any⟩, ⟨8, 8, .rw, .any⟩, ⟨16, 8, .rw, .any⟩]⟩,
    ⟨.hsMacFcthr, 10, 2, 0x40, 48, 0xC, 1, 0, 1, 0, 0x1000180, (some .mac),
      [⟨0, 13, .rw, (.nat 1 4096)⟩, ⟨16, 12, .rw, .any⟩]⟩,
    ⟨.hsMacPq, 10, 2, 0x40, 48, 0x10, 1, 0, 1, 0, 0xFFFF, (some .mac),
      [⟨0, 16, .rw, (.nat 2 65535)⟩]⟩,
    ⟨.hsMacPsalo, 10, 2, 0x40, 48, 0x14, 1, 0, 1, 0, 0x0, (some .mac),
      [⟨0, 32, .rw, .any⟩]⟩,
    ⟨.hsMacPsahi, 10, 2, 0x40, 48, 0x18, 1, 0, 1, 0, 0x0, (some .mac),
      [⟨0, 16, .rw, .any⟩]⟩,
    ⟨.hsMacFcstat, 10, 2, 0x40, 48, 0x1C, 1, 0, 1, 0, 0x0, (some .mac),
      [⟨0, 1, .ro, .any⟩, ⟨1, 1, .ro, .any⟩, ⟨8, 8, .ro, .any⟩]⟩,
    ⟨.hsMacGctl, 10, 2, 0x40, 48, 0x100, 1, 0, 1, 0, 0x10000, (some .mac),
      [⟨0, 1, .rw, .any⟩, ⟨1, 1, .wo, .any⟩, ⟨16, 11, .rw, (.nat 1 1024)⟩, ⟨30, 1, .ro, .any⟩, ⟨31, 1, .wo, .any⟩]⟩,
    ⟨.hsMacGbase, 10, 2, 0x40, 48, 0x104, 1, 0, 1, 0, 0x0, (some .mac),
      [⟨0, 32, .rw, .any⟩]⟩,
    ⟨.hsMacGcycle, 10, 2, 0x40, 48, 0x108, 1, 0, 1, 0, 0xF4240, (some .mac),
      [⟨0, 32, .rw, (.nat 1000 1000000000)⟩]⟩,
    ⟨.hsMacGlead, 10, 2, 0x40, 48, 0x10C, 1, 0, 1, 0, 0x3E8, (some .mac),
      [⟨0, 32, .rw, (.nat 100 1000000)⟩]⟩,
    ⟨.hsMacGchg, 10, 2, 0x40, 48, 0x110, 1, 0, 1, 0, 0x0, (some .mac),
      [⟨0, 32, .ro, .any⟩]⟩,
    ⟨.hsMacGstat, 10, 2, 0x40, 48, 0x114, 1, 0, 1, 0, 0xFF, (some .mac),
      [⟨0, 8, .ro, .any⟩, ⟨8, 10, .ro, .any⟩]⟩,
    ⟨.hsMacGclG, 10, 2, 0x40, 48, 0x8000, 1024, 8, 1, 0, 0xFF, (some .mac),
      [⟨0, 8, .rw, .any⟩]⟩,
    ⟨.hsMacGclT, 10, 2, 0x40, 48, 0x8004, 1024, 8, 1, 0, 0xF4240, (some .mac),
      [⟨0, 32, .rw, (.nat 1 1000000000)⟩]⟩,
    ⟨.hsMacLpi, 10, 2, 0x40, 48, 0x200, 1, 0, 1, 0, 0x1F400A0, (some .mac),
      [⟨0, 1, .rw, .any⟩, ⟨4, 12, .rw, (.nat 1 4095)⟩, ⟨16, 16, .rw, (.nat 1 65535)⟩]⟩,
    ⟨.hsMacLpistat, 10, 2, 0x40, 48, 0x204, 1, 0, 1, 0, 0x0, (some .mac),
      [⟨0, 1, .ro, .any⟩, ⟨1, 1, .ro, .any⟩, ⟨16, 8, .rc, .any⟩, ⟨24, 8, .rc, .any⟩]⟩,
    ⟨.hsMacPark, 10, 2, 0x40, 48, 0x300, 1, 0, 1, 0, 0x0, (some .mac),
      [⟨0, 1, .rw, .any⟩, ⟨4, 2, .ro, .any⟩]⟩,
    ⟨.hsMacTxtsns, 10, 2, 0x40, 48, 0x410, 1, 0, 1, 0, 0x0, (some .mac),
      [⟨0, 32, .ro, .any⟩]⟩,
    ⟨.hsMacTxtssub, 10, 2, 0x40, 48, 0x414, 1, 0, 1, 0, 0x0, (some .mac),
      [⟨0, 16, .ro, .any⟩, ⟨16, 4, .ro, .any⟩, ⟨31, 1, .ro, .any⟩]⟩,
    ⟨.hsMacTxtsseq, 10, 2, 0x40, 48, 0x418, 1, 0, 1, 0, 0x0, (some .mac),
      [⟨0, 16, .ro, .any⟩, ⟨16, 5, .ro, .any⟩]⟩,
    ⟨.hsMacTxtsctl, 10, 2, 0x40, 48, 0x41C, 1, 0, 1, 0, 0x0, (some .mac),
      [⟨0, 1, .wo, .any⟩, ⟨8, 8, .rc, .any⟩]⟩,
    ⟨.hsMacRxfrm, 10, 2, 0x40, 48, 0x800, 1, 0, 1, 0, 0x0, (some .mac),
      [⟨0, 32, .rc, .any⟩]⟩,
    ⟨.hsMacRxbylo, 10, 2, 0x40, 48, 0x804, 1, 0, 1, 0, 0x0, (some .mac),
      [⟨0, 32, .rc, .any⟩]⟩,
    ⟨.hsMacRxbyhi, 10, 2, 0x40, 48, 0x808, 1, 0, 1, 0, 0x0, (some .mac),
      [⟨0, 32, .ro, .any⟩]⟩,
    ⟨.hsMacTxfrm, 10, 2, 0x40, 48, 0x80C, 1, 0, 1, 0, 0x0, (some .mac),
      [⟨0, 32, .rc, .any⟩]⟩,
    ⟨.hsMacTxbylo, 10, 2, 0x40, 48, 0x810, 1, 0, 1, 0, 0x0, (some .mac),
      [⟨0, 32, .rc, .any⟩]⟩,
    ⟨.hsMacTxbyhi, 10, 2, 0x40, 48, 0x814, 1, 0, 1, 0, 0x0, (some .mac),
      [⟨0, 32, .ro, .any⟩]⟩,
    ⟨.hsMacFcserr, 10, 2, 0x40, 48, 0x818, 1, 0, 1, 0, 0x0, (some .mac),
      [⟨0, 32, .rc, .any⟩]⟩,
    ⟨.hsMacRxerr, 10, 2, 0x40, 48, 0x81C, 1, 0, 1, 0, 0x0, (some .mac),
      [⟨0, 32, .rc, .any⟩]⟩,
    ⟨.hsMacRunt, 10, 2, 0x40, 48, 0x820, 1, 0, 1, 0, 0x0, (some .mac),
      [⟨0, 32, .rc, .any⟩]⟩]

def regRows7 : List RegRow := [
    ⟨.hsMacGiant, 10, 2, 0x40, 48, 0x824, 1, 0, 1, 0, 0x0, (some .mac),
      [⟨0, 32, .rc, .any⟩]⟩,
    ⟨.hsMacRxovf, 10, 2, 0x40, 48, 0x828, 1, 0, 1, 0, 0x0, (some .mac),
      [⟨0, 32, .rc, .any⟩]⟩,
    ⟨.hsMacCtrlunk, 10, 2, 0x40, 48, 0x82C, 1, 0, 1, 0, 0x0, (some .mac),
      [⟨0, 32, .rc, .any⟩]⟩,
    ⟨.hsMacPauserx, 10, 2, 0x40, 48, 0x830, 1, 0, 1, 0, 0x0, (some .mac),
      [⟨0, 32, .rc, .any⟩]⟩,
    ⟨.hsMacPausetx, 10, 2, 0x40, 48, 0x834, 1, 0, 1, 0, 0x0, (some .mac),
      [⟨0, 32, .rc, .any⟩]⟩,
    ⟨.hsMacGatedrop, 10, 2, 0x40, 48, 0x838, 1, 0, 1, 0, 0x0, (some .mac),
      [⟨0, 32, .rc, .any⟩]⟩,
    ⟨.hsMacTxdrop, 10, 2, 0x40, 48, 0x83C, 1, 0, 1, 0, 0x0, (some .mac),
      [⟨0, 32, .rc, .any⟩]⟩,
    ⟨.hsMacDhdrop, 10, 2, 0x40, 48, 0x840, 1, 0, 1, 0, 0x0, (some .mac),
      [⟨0, 32, .rc, .any⟩]⟩,
    ⟨.hsLnCfg, 10, 2, 0, 48, 0, 1, 0, 1, 0, 0xA000E, (some .lanes),
      [⟨0, 1, .rw, .any⟩, ⟨1, 1, .rw, .any⟩, ⟨2, 1, .rw, .any⟩, ⟨3, 1, .rw, .any⟩, ⟨4, 2, .rw, (.nat 0 2)⟩, ⟨6, 1, .rw, .any⟩, ⟨8, 4, .ro, .any⟩, ⟨16, 8, .rw, (.nat 1 255)⟩]⟩,
    ⟨.hsLnTmr, 10, 2, 0, 48, 4, 1, 0, 1, 0, 0xA0A0A, (some .lanes),
      [⟨0, 8, .rw, (.nat 2 255)⟩, ⟨8, 8, .rw, (.nat 1 255)⟩, ⟨16, 8, .rw, (.nat 1 255)⟩]⟩,
    ⟨.hsLnStat, 10, 2, 0, 48, 8, 1, 0, 1, 0, 0x0, (some .lanes),
      [⟨0, 3, .ro, .any⟩, ⟨3, 1, .ro, .any⟩, ⟨4, 1, .ro, .any⟩, ⟨5, 1, .ro, .any⟩, ⟨6, 1, .ro, .any⟩, ⟨8, 2, .ro, .any⟩, ⟨16, 8, .rc, .any⟩, ⟨24, 8, .rc, .any⟩]⟩,
    ⟨.hsLnLoop, 10, 2, 0, 48, 0xC, 1, 0, 1, 0, 0x0, (some .lanes),
      [⟨0, 2, .rw, (.nat 0 3)⟩, ⟨16, 8, .rc, .any⟩]⟩,
    ⟨.hsLnCaprxlo, 10, 2, 0, 48, 0x18, 1, 0, 1, 0, 0x0, (some .lanes),
      [⟨0, 32, .ro, .any⟩]⟩,
    ⟨.hsLnCaprxhi, 10, 2, 0, 48, 0x1C, 1, 0, 1, 0, 0x0, (some .lanes),
      [⟨0, 32, .ro, .any⟩]⟩,
    ⟨.hsLnEye, 10, 2, 0, 48, 0x20, 1, 0, 1, 0, 0x0, (some .lanes),
      [⟨0, 8, .ro, .any⟩, ⟨8, 8, .ro, .any⟩, ⟨16, 12, .ro, .any⟩]⟩,
    ⟨.hsLnEyethr, 10, 2, 0, 48, 0x24, 1, 0, 1, 0, 0x4003020, (some .lanes),
      [⟨0, 8, .rw, (.nat 1 255)⟩, ⟨8, 8, .rw, (.nat 1 255)⟩, ⟨16, 16, .rw, (.nat 1 65535)⟩]⟩,
    ⟨.hsLnTxeq, 10, 2, 0, 48, 0x28, 1, 0, 1, 0, 0x30F6FA00, (some .lanes),
      [⟨0, 8, .ro, .any⟩, ⟨8, 8, .ro, .any⟩, ⟨16, 8, .ro, .any⟩, ⟨24, 8, .ro, .any⟩]⟩,
    ⟨.hsLnFecsym, 10, 2, 0, 48, 0x2C, 1, 0, 1, 0, 0x0, (some .lanes),
      [⟨0, 32, .rc, .any⟩]⟩,
    ⟨.hsLnFeccw, 10, 2, 0, 48, 0x30, 1, 0, 1, 0, 0x0, (some .lanes),
      [⟨0, 32, .rc, .any⟩]⟩,
    ⟨.hsLnFecuc, 10, 2, 0, 48, 0x34, 1, 0, 1, 0, 0x0, (some .lanes),
      [⟨0, 32, .rc, .any⟩]⟩,
    ⟨.hsLnPrbs, 10, 2, 0, 48, 0x38, 1, 0, 1, 0, 0x0, (some .lanes),
      [⟨0, 3, .rw, (.nat 0 4)⟩, ⟨3, 1, .rw, .any⟩, ⟨4, 1, .rw, .any⟩, ⟨5, 1, .ro, .any⟩, ⟨16, 16, .rc, .any⟩]⟩,
    ⟨.hsLngSum0, 10, 2, 0x30, 1, 0, 1, 0, 1, 0, 0x0, (some .lanes),
      [⟨0, 32, .w1c, .any⟩]⟩,
    ⟨.hsLngSum1, 10, 2, 0x30, 1, 4, 1, 0, 1, 0, 0x0, (some .lanes),
      [⟨0, 16, .w1c, .any⟩]⟩,
    ⟨.pciEpStat, 12, 1, 0, 1, 0, 1, 0, 1, 0, 0x0, none,
      [⟨0, 3, .ro, .any⟩, ⟨4, 4, .ro, .any⟩, ⟨8, 1, .ro, .any⟩, ⟨24, 8, .rc, .any⟩]⟩,
    ⟨.pciEpCfg, 12, 1, 0, 1, 4, 1, 0, 1, 0, 0x9, none,
      [⟨0, 8, .rw, (.nat 1 60)⟩]⟩,
    ⟨.pciEpRlog, 12, 1, 0, 1, 8, 1, 0, 1, 0, 0x0, none,
      [⟨0, 11, .ro, .any⟩, ⟨11, 1, .ro, .any⟩]⟩,
    ⟨.pciRxgBaselo, 12, 1, 0x10, 1, 0, 2048, 32, 1, 0, 0x0, none,
      [⟨6, 26, .rwq, .any⟩]⟩,
    ⟨.pciTxgBaselo, 12, 1, 0x20, 1, 0, 2048, 32, 1, 0, 0x0, none,
      [⟨6, 26, .rwq, .any⟩]⟩,
    ⟨.pciRxgBasehi, 12, 1, 0x10, 1, 4, 2048, 32, 1, 0, 0x0, none,
      [⟨0, 32, .rwq, .any⟩]⟩,
    ⟨.pciTxgBasehi, 12, 1, 0x20, 1, 4, 2048, 32, 1, 0, 0x0, none,
      [⟨0, 32, .rwq, .any⟩]⟩]

def regRows8 : List RegRow := [
    ⟨.pciRxgCfg, 12, 1, 0x10, 1, 8, 2048, 32, 1, 0, 0xA000006, none,
      [⟨0, 5, .rwq, (.nat 6 16)⟩, ⟨5, 1, .rw, .any⟩, ⟨6, 1, .wo, .any⟩, ⟨7, 1, .rw, .any⟩, ⟨8, 9, .rw, .any⟩, ⟨17, 6, .ro, .any⟩, ⟨24, 8, .rw, (.nat 1 255)⟩]⟩,
    ⟨.pciTxgCfg, 12, 1, 0x20, 1, 8, 2048, 32, 1, 0, 0xA000006, none,
      [⟨0, 5, .rwq, (.nat 6 16)⟩, ⟨5, 1, .rw, .any⟩, ⟨6, 1, .wo, .any⟩, ⟨7, 1, .rw, .any⟩, ⟨8, 9, .rw, .any⟩, ⟨24, 8, .rw, (.nat 1 255)⟩]⟩,
    ⟨.pciRxgLevel, 12, 1, 0x10, 1, 0xC, 2048, 32, 1, 0, 0x3000001, none,
      [⟨0, 17, .rw, (.nat 1 65536)⟩, ⟨24, 4, .rwq, (.nat 0 6)⟩]⟩,
    ⟨.pciTxgLevel, 12, 1, 0x20, 1, 0xC, 2048, 32, 1, 0, 0x1, none,
      [⟨0, 17, .rw, (.nat 1 65536)⟩]⟩,
    ⟨.pciRxgHead, 12, 1, 0x10, 1, 0x10, 2048, 32, 1, 0, 0x0, none,
      [⟨0, 17, .ro, .any⟩]⟩,
    ⟨.pciTxgHead, 12, 1, 0x20, 1, 0x10, 2048, 32, 1, 0, 0x0, none,
      [⟨0, 17, .ro, .any⟩]⟩,
    ⟨.pciRxgTail, 12, 1, 0x10, 1, 0x14, 2048, 32, 1, 0, 0x0, none,
      [⟨0, 17, .rw, .any⟩]⟩,
    ⟨.pciTxgTail, 12, 1, 0x20, 1, 0x14, 2048, 32, 1, 0, 0x0, none,
      [⟨0, 17, .rw, .any⟩]⟩,
    ⟨.pciRxgStat, 12, 1, 0x10, 1, 0x18, 2048, 32, 1, 0, 0x0, none,
      [⟨0, 17, .ro, .any⟩, ⟨17, 1, .ro, .any⟩, ⟨18, 1, .ro, .any⟩, ⟨20, 2, .ro, .any⟩]⟩,
    ⟨.pciTxgStat, 12, 1, 0x20, 1, 0x18, 2048, 32, 1, 0, 0x0, none,
      [⟨0, 17, .ro, .any⟩, ⟨17, 1, .ro, .any⟩, ⟨18, 1, .ro, .any⟩, ⟨20, 2, .ro, .any⟩]⟩,
    ⟨.pciRxgDrop, 12, 1, 0x10, 1, 0x1C, 2048, 32, 1, 0, 0x0, none,
      [⟨0, 16, .rc, .any⟩, ⟨16, 16, .rc, .any⟩]⟩,
    ⟨.pciTxgDrop, 12, 1, 0x20, 1, 0x1C, 2048, 32, 1, 0, 0x0, none,
      [⟨0, 16, .rc, .any⟩, ⟨16, 16, .rc, .any⟩]⟩,
    ⟨.hrtTimNs, 0, 1, 3, 1, 0, 1, 0, 1, 0, 0x0, (some .time),
      [⟨0, 32, .ro, .any⟩]⟩,
    ⟨.hrtTimSub, 0, 1, 3, 1, 4, 1, 0, 1, 0, 0x0, (some .time),
      [⟨0, 16, .ro, .any⟩, ⟨16, 16, .ro, .any⟩]⟩,
    ⟨.hrtTimInc, 0, 1, 3, 1, 8, 1, 0, 1, 0, 0x199999A, (some .time),
      [⟨0, 32, .rw, (.nat 25165824 28521267)⟩]⟩,
    ⟨.hrtTimStepns, 0, 1, 3, 1, 0xC, 1, 0, 1, 0, 0x0, (some .time),
      [⟨0, 32, .rw, (.int (-1000000000) 1000000000)⟩]⟩,
    ⟨.hrtTimStepctl, 0, 1, 3, 1, 0x10, 1, 0, 1, 0, 0x0, (some .time),
      [⟨0, 16, .rw, .any⟩, ⟨30, 1, .ro, .any⟩, ⟨31, 1, .wo, .any⟩]⟩,
    ⟨.hrtTimStat, 0, 1, 3, 1, 0x14, 1, 0, 1, 0, 0x0, (some .time),
      [⟨0, 1, .ro, .any⟩, ⟨1, 1, .ro, .any⟩, ⟨8, 8, .rc, .any⟩, ⟨16, 8, .rc, .any⟩, ⟨24, 8, .rc, .any⟩]⟩,
    ⟨.hrtTimPpscfg, 0, 1, 3, 1, 0x20, 1, 0, 1, 0, 0x6400, (some .time),
      [⟨0, 1, .rw, .any⟩, ⟨1, 1, .rw, .any⟩, ⟨8, 8, .rw, (.nat 1 255)⟩]⟩,
    ⟨.hrtTimPpsnext, 0, 1, 3, 1, 0x24, 1, 0, 1, 0, 0x0, (some .time),
      [⟨0, 32, .rw, .any⟩]⟩,
    ⟨.hrtTimPpsper, 0, 1, 3, 1, 0x28, 1, 0, 1, 0, 0x3B9ACA00, (some .time),
      [⟨0, 32, .rw, (.nat 2000000 1000000000)⟩]⟩,
    ⟨.hrtTimPpsinns, 0, 1, 3, 1, 0x2C, 1, 0, 1, 0, 0x0, (some .time),
      [⟨0, 32, .ro, .any⟩]⟩,
    ⟨.hrtTimPpsinsub, 0, 1, 3, 1, 0x30, 1, 0, 1, 0, 0x0, (some .time),
      [⟨0, 16, .ro, .any⟩, ⟨16, 16, .rc, .any⟩]⟩,
    ⟨.hrtTimSecbasehi, 0, 1, 3, 1, 0x40, 1, 0, 1, 0, 0x0, (some .time),
      [⟨0, 16, .rw, .any⟩]⟩,
    ⟨.hrtTimSecbaselo, 0, 1, 3, 1, 0x44, 1, 0, 1, 0, 0x0, (some .time),
      [⟨0, 32, .rw, .any⟩]⟩,
    ⟨.hrtTimNsbase, 0, 1, 3, 1, 0x48, 1, 0, 1, 0, 0x0, (some .time),
      [⟨0, 32, .rw, .any⟩]⟩,
    ⟨.hrtCfgStat, 0, 1, 4, 1, 0, 1, 0, 1, 0, 0xF20, none,
      [⟨0, 1, .ro, .any⟩, ⟨1, 1, .ro, .any⟩, ⟨2, 1, .ro, .any⟩, ⟨3, 1, .ro, .any⟩, ⟨4, 1, .ro, .any⟩, ⟨5, 1, .ro, .any⟩, ⟨6, 1, .ro, .any⟩, ⟨7, 1, .ro, .any⟩, ⟨8, 4, .ro, .any⟩, ⟨12, 3, .ro, .any⟩, ⟨15, 1, .ro, .any⟩, ⟨16, 8, .ro, .any⟩]⟩,
    ⟨.hrtCfgSeqa, 0, 1, 4, 1, 4, 1, 0, 1, 0, 0x0, none,
      [⟨0, 32, .ro, .any⟩]⟩,
    ⟨.hrtCfgSeqb, 0, 1, 4, 1, 8, 1, 0, 1, 0, 0x0, none,
      [⟨0, 32, .ro, .any⟩]⟩,
    ⟨.hrtCfgCmd, 0, 1, 4, 1, 0xC, 1, 0, 1, 0, 0x0, none,
      [⟨0, 2, .rw, (.nat 1 3)⟩, ⟨4, 4, .rw, (.nat 0 12)⟩, ⟨8, 1, .rw, .any⟩, ⟨9, 1, .rw, .any⟩, ⟨31, 1, .wo, .any⟩]⟩]

def regRows9 : List RegRow := [
    ⟨.hrtCfgDrain, 0, 1, 4, 1, 0x10, 1, 0, 1, 0, 0xA, none,
      [⟨0, 8, .rw, (.nat 1 255)⟩, ⟨16, 16, .rc, .any⟩]⟩,
    ⟨.hrtCfgCtllvl, 0, 1, 4, 1, 0x14, 1, 0, 1, 0, 0x0, none,
      [⟨0, 10, .ro, .any⟩]⟩,
    ⟨.hrtCfgFailmask, 0, 1, 4, 1, 0x18, 1, 0, 1, 0, 0x0, none,
      [⟨0, 13, .w1c, .any⟩]⟩,
    ⟨.hrtCfgCseq, 0, 1, 4, 1, 0x40, 13, 4, 1, 0, 0x0, none,
      [⟨0, 32, .ro, .any⟩]⟩,
    ⟨.hrtPwrState, 0, 1, 5, 1, 0, 1, 0, 1, 0, 0x30, (some .power),
      [⟨0, 2, .ro, .any⟩, ⟨2, 2, .ro, .any⟩, ⟨4, 2, .ro, .any⟩, ⟨6, 1, .ro, .any⟩, ⟨7, 1, .ro, .any⟩, ⟨8, 8, .ro, .any⟩]⟩,
    ⟨.hrtPwrReq, 0, 1, 5, 1, 4, 1, 0, 1, 0, 0x0, (some .power),
      [⟨0, 2, .rw, (.nat 0 2)⟩, ⟨31, 1, .wo, .any⟩]⟩,
    ⟨.hrtPwrCfg, 0, 1, 5, 1, 8, 1, 0, 1, 0, 0x0, (some .power),
      [⟨0, 1, .rw, .any⟩, ⟨1, 1, .rw, .any⟩, ⟨2, 1, .rw, .any⟩]⟩,
    ⟨.hrtPwrRetain, 0, 1, 5, 1, 0xC, 1, 0, 1, 0, 0xF, (some .power),
      [⟨0, 16, .rw, .any⟩]⟩,
    ⟨.hrtPwrEmbwin, 0, 1, 5, 1, 0x10, 1, 0, 1, 0, 0x0, (some .power),
      [⟨0, 5, .rw, .any⟩, ⟨8, 4, .rw, .any⟩]⟩,
    ⟨.hrtPwrCord, 0, 1, 5, 1, 0x104, 12, 4, 1, 0, 0x1400, (some .power),
      [⟨0, 3, .ro, .any⟩, ⟨4, 2, .ro, .any⟩, ⟨6, 1, .ro, .any⟩, ⟨8, 8, .rw, (.nat 1 100)⟩, ⟨16, 8, .rc, .any⟩, ⟨24, 2, .wo, .any⟩]⟩,
    ⟨.hrtPwrRefcnt, 0, 1, 5, 1, 0x200, 64, 4, 1, 0, 0x0, (some .power),
      [⟨0, 16, .rc, .any⟩, ⟨16, 16, .rc, .any⟩]⟩,
    ⟨.hrtSnsTemp, 0, 1, 6, 1, 0, 24, 4, 1, 0, 0x0, none,
      [⟨0, 12, .ro, .any⟩, ⟨16, 12, .rc, .any⟩]⟩,
    ⟨.hrtSnsTthr, 0, 1, 6, 1, 0x80, 1, 0, 1, 0, 0x730564, none,
      [⟨0, 8, .rw, (.nat 85 110)⟩, ⟨8, 4, .rw, (.nat 1 15)⟩, ⟨16, 8, .rw, (.nat 105 125)⟩]⟩,
    ⟨.hrtSnsStat, 0, 1, 6, 1, 0x84, 1, 0, 1, 0, 0x0, none,
      [⟨0, 1, .ro, .any⟩, ⟨4, 4, .ro, .any⟩, ⟨8, 4, .w1c, .any⟩, ⟨16, 16, .ro, .any⟩]⟩,
    ⟨.hrtSnsRail, 0, 1, 6, 1, 0x100, 16, 4, 1, 0, 0x0, none,
      [⟨0, 16, .ro, .any⟩, ⟨16, 16, .ro, .any⟩]⟩,
    ⟨.hrtSnsRlim, 0, 1, 6, 1, 0x140, 16, 4, 1, 0, 0x3232, none,
      [⟨0, 8, .rw, (.nat 10 200)⟩, ⟨8, 8, .rw, (.nat 10 200)⟩]⟩,
    ⟨.hrtHstStat, 0, 1, 7, 1, 0, 1, 0, 1, 0, 0x0, none,
      [⟨0, 1, .ro, .any⟩, ⟨1, 1, .ro, .any⟩, ⟨2, 1, .ro, .any⟩, ⟨3, 1, .ro, .any⟩, ⟨4, 1, .ro, .any⟩, ⟨5, 1, .ro, .any⟩, ⟨8, 4, .ro, .any⟩, ⟨12, 3, .ro, .any⟩]⟩,
    ⟨.hrtHstFwver, 0, 1, 7, 1, 4, 1, 0, 1, 0, 0x0, none,
      [⟨0, 32, .ro, .any⟩]⟩,
    ⟨.hrtHstFwseq, 0, 1, 7, 1, 0xC, 1, 0, 1, 0, 0x0, none,
      [⟨0, 32, .ro, .any⟩]⟩,
    ⟨.hrtMbxCtl, 0, 1, 7, 1, 8, 1, 0, 1, 0, 0x0, none,
      [⟨0, 1, .ro, .any⟩, ⟨8, 8, .ro, .any⟩, ⟨31, 1, .wo, .any⟩]⟩,
    ⟨.hrtMbxReq, 0, 1, 7, 1, 0x100, 64, 4, 1, 0, 0x0, none,
      [⟨0, 32, .wo, .any⟩]⟩,
    ⟨.hrtMbxRsp, 0, 1, 7, 1, 0x200, 64, 4, 1, 0, 0x0, none,
      [⟨0, 32, .ro, .any⟩]⟩,
    ⟨.hrtEvtSrcCtl, 0, 1, 8, 1, 0, 256, 16, 1, 0, 0x4, none,
      [⟨0, 1, .w1c, .any⟩, ⟨1, 1, .rw, .any⟩, ⟨2, 1, .rw, .any⟩, ⟨16, 16, .rc, .any⟩]⟩,
    ⟨.hrtEvtSrcFirstns, 0, 1, 8, 1, 4, 256, 16, 1, 0, 0x0, none,
      [⟨0, 32, .ro, .any⟩]⟩,
    ⟨.hrtEvtSrcFirstw, 0, 1, 8, 1, 8, 256, 16, 1, 0, 0x0, none,
      [⟨0, 16, .ro, .any⟩]⟩,
    ⟨.hrtEvtGstat, 0, 1, 8, 1, 0x1000, 16, 4, 1, 0, 0x0, none,
      [⟨0, 16, .ro, .any⟩, ⟨16, 1, .ro, .any⟩]⟩,
    ⟨.hrtEvtGcfg, 0, 1, 8, 1, 0x1040, 16, 4, 1, 0, 0x0, none,
      [⟨0, 9, .rw, .any⟩, ⟨12, 1, .rw, .any⟩, ⟨13, 1, .rw, .any⟩]⟩,
    ⟨.hrtEvtTop, 0, 1, 8, 1, 0x1080, 1, 0, 1, 0, 0x0, none,
      [⟨0, 16, .ro, .any⟩]⟩,
    ⟨.hrtSmbStat, 0, 1, 0xA, 1, 0, 1, 0, 1, 0, 0x0, none,
      [⟨0, 7, .ro, .any⟩, ⟨8, 8, .rc, .any⟩, ⟨16, 8, .rc, .any⟩]⟩,
    ⟨.hsFiCtl, 10, 2, 0x80, 48, 0, 1, 0, 1, 0, 0x10100, (some .mac),
      [⟨0, 1, .rw, .any⟩, ⟨1, 1, .rw, .any⟩, ⟨2, 2, .rw, (.nat 0 2)⟩, ⟨4, 2, .rw, (.nat 0 2)⟩, ⟨6, 1, .rw, .any⟩, ⟨8, 4, .rw, (.nat 1 15)⟩, ⟨16, 8, .rw, (.nat 1 255)⟩, ⟨24, 8, .rw, .any⟩]⟩]

def regRows10 : List RegRow := [
    ⟨.hsFiPar, 10, 2, 0x80, 48, 4, 1, 0, 1, 0, 0x10001, (some .mac),
      [⟨0, 16, .rw, (.nat 1 65535)⟩, ⟨16, 8, .rw, (.nat 1 255)⟩]⟩,
    ⟨.hsFiRate, 10, 2, 0x80, 48, 8, 1, 0, 1, 0, 0x0, (some .mac),
      [⟨0, 24, .rw, .any⟩]⟩,
    ⟨.hsFiSeed, 10, 2, 0x80, 48, 0xC, 1, 0, 1, 0, 0x0, (some .mac),
      [⟨0, 32, .rw, .any⟩]⟩,
    ⟨.hsFiLimit, 10, 2, 0x80, 48, 0x10, 1, 0, 1, 0, 0x0, (some .mac),
      [⟨0, 32, .rw, .any⟩]⟩,
    ⟨.hsFiStat, 10, 2, 0x80, 48, 0x14, 1, 0, 1, 0, 0x0, (some .mac),
      [⟨0, 1, .ro, .any⟩, ⟨1, 1, .ro, .any⟩, ⟨16, 16, .rc, .any⟩]⟩,
    ⟨.hsFiCnt, 10, 2, 0x80, 48, 0x18, 1, 0, 1, 0, 0x0, (some .mac),
      [⟨0, 32, .rc, .any⟩]⟩,
    ⟨.lfFiCtl, 6, 2, 0xA0, 32, 0, 1, 0, 1, 0, 0x10100, (some .line),
      [⟨0, 1, .rw, .any⟩, ⟨1, 1, .rw, .any⟩, ⟨2, 2, .rw, (.nat 0 2)⟩, ⟨4, 2, .rw, (.nat 0 2)⟩, ⟨6, 1, .rw, .any⟩, ⟨8, 4, .rw, (.nat 1 15)⟩, ⟨16, 8, .rw, (.nat 1 255)⟩, ⟨24, 8, .rw, .any⟩]⟩,
    ⟨.lfFiPar, 6, 2, 0xA0, 32, 4, 1, 0, 1, 0, 0x10001, (some .line),
      [⟨0, 16, .rw, (.nat 1 65535)⟩, ⟨16, 8, .rw, (.nat 1 255)⟩]⟩,
    ⟨.lfFiRate, 6, 2, 0xA0, 32, 8, 1, 0, 1, 0, 0x0, (some .line),
      [⟨0, 24, .rw, .any⟩]⟩,
    ⟨.lfFiSeed, 6, 2, 0xA0, 32, 0xC, 1, 0, 1, 0, 0x0, (some .line),
      [⟨0, 32, .rw, .any⟩]⟩,
    ⟨.lfFiLimit, 6, 2, 0xA0, 32, 0x10, 1, 0, 1, 0, 0x0, (some .line),
      [⟨0, 32, .rw, .any⟩]⟩,
    ⟨.lfFiStat, 6, 2, 0xA0, 32, 0x14, 1, 0, 1, 0, 0x0, (some .line),
      [⟨0, 1, .ro, .any⟩, ⟨1, 1, .ro, .any⟩, ⟨16, 16, .rc, .any⟩]⟩,
    ⟨.lfFiCnt, 6, 2, 0xA0, 32, 0x18, 1, 0, 1, 0, 0x0, (some .line),
      [⟨0, 32, .rc, .any⟩]⟩,
    ⟨.pktFiCtl, 8, 1, 0x60, 4, 0, 1, 0, 1, 0, 0x10100, (some .packet),
      [⟨0, 1, .rw, .any⟩, ⟨1, 1, .rw, .any⟩, ⟨2, 2, .rw, (.nat 0 2)⟩, ⟨4, 2, .rw, (.nat 0 2)⟩, ⟨6, 1, .rw, .any⟩, ⟨8, 4, .rw, (.nat 1 15)⟩, ⟨16, 8, .rw, (.nat 1 255)⟩, ⟨24, 8, .rw, .any⟩]⟩,
    ⟨.pktFiPar, 8, 1, 0x60, 4, 4, 1, 0, 1, 0, 0x10001, (some .packet),
      [⟨0, 16, .rw, (.nat 1 65535)⟩, ⟨16, 8, .rw, (.nat 1 255)⟩]⟩,
    ⟨.pktFiRate, 8, 1, 0x60, 4, 8, 1, 0, 1, 0, 0x0, (some .packet),
      [⟨0, 24, .rw, .any⟩]⟩,
    ⟨.pktFiSeed, 8, 1, 0x60, 4, 0xC, 1, 0, 1, 0, 0x0, (some .packet),
      [⟨0, 32, .rw, .any⟩]⟩,
    ⟨.pktFiLimit, 8, 1, 0x60, 4, 0x10, 1, 0, 1, 0, 0x0, (some .packet),
      [⟨0, 32, .rw, .any⟩]⟩,
    ⟨.pktFiStat, 8, 1, 0x60, 4, 0x14, 1, 0, 1, 0, 0x0, (some .packet),
      [⟨0, 1, .ro, .any⟩, ⟨1, 1, .ro, .any⟩, ⟨16, 16, .rc, .any⟩]⟩,
    ⟨.pktFiCnt, 8, 1, 0x60, 4, 0x18, 1, 0, 1, 0, 0x0, (some .packet),
      [⟨0, 32, .rc, .any⟩]⟩,
    ⟨.hrtFiGlobal, 0, 1, 0xB, 1, 0, 1, 0, 1, 0, 0x0, none,
      [⟨0, 1, .wo, .any⟩, ⟨1, 1, .rw, .any⟩, ⟨16, 8, .ro, .any⟩, ⟨24, 8, .ro, .any⟩]⟩,
    ⟨.hrtGlbId, 0, 1, 0, 1, 0, 1, 0, 1, 0, 0x962400B1, none,
      [⟨0, 8, .ro, .any⟩, ⟨8, 8, .ro, .any⟩, ⟨16, 16, .ro, .any⟩]⟩,
    ⟨.hrtGlbSerlo, 0, 1, 0, 1, 4, 1, 0, 1, 0, 0x0, none,
      [⟨0, 32, .ro, .any⟩]⟩,
    ⟨.hrtGlbSerhi, 0, 1, 0, 1, 8, 1, 0, 1, 0, 0x0, none,
      [⟨0, 32, .ro, .any⟩]⟩,
    ⟨.hrtGlbKhash, 0, 1, 0, 1, 0x100, 4, 64, 12, 4, 0x0, none,
      [⟨0, 32, .ro, .any⟩]⟩,
    ⟨.hrtGlbKrev, 0, 1, 0, 1, 0x200, 1, 0, 1, 0, 0x0, none,
      [⟨0, 4, .ro, .any⟩, ⟨8, 4, .wo, .any⟩]⟩,
    ⟨.hrtGlbAerr, 0, 1, 0, 1, 0x10, 1, 0, 1, 0, 0x0, none,
      [⟨0, 8, .ro, .any⟩, ⟨8, 4, .ro, .any⟩, ⟨12, 1, .ro, .any⟩, ⟨13, 1, .w1c, .any⟩, ⟨16, 16, .rc, .any⟩]⟩,
    ⟨.hrtGlbAerradr, 0, 1, 0, 1, 0x14, 1, 0, 1, 0, 0x0, none,
      [⟨0, 32, .ro, .any⟩]⟩,
    ⟨.hrtTimWlRxsfn, 0, 1, 3, 1, 0x100, 2, 64, 1, 0, 0x0, (some .time),
      [⟨0, 32, .ro, .any⟩]⟩,
    ⟨.hrtTimWlRxns, 0, 1, 3, 1, 0x104, 2, 64, 1, 0, 0x0, (some .time),
      [⟨0, 32, .ro, .any⟩]⟩]

def regRows11 : List RegRow := [
    ⟨.hrtTimWlRxsub, 0, 1, 3, 1, 0x108, 2, 64, 1, 0, 0x0, (some .time),
      [⟨0, 16, .ro, .any⟩]⟩,
    ⟨.hrtTimWlTxsfn, 0, 1, 3, 1, 0x10C, 2, 64, 1, 0, 0x0, (some .time),
      [⟨0, 32, .ro, .any⟩]⟩,
    ⟨.hrtTimWlTxns, 0, 1, 3, 1, 0x110, 2, 64, 1, 0, 0x0, (some .time),
      [⟨0, 32, .ro, .any⟩]⟩,
    ⟨.hrtTimWlTxsub, 0, 1, 3, 1, 0x114, 2, 64, 1, 0, 0x0, (some .time),
      [⟨0, 16, .ro, .any⟩]⟩,
    ⟨.hrtTimWlBseq, 0, 1, 3, 1, 0x118, 2, 64, 1, 0, 0x0, (some .time),
      [⟨0, 8, .ro, .any⟩, ⟨31, 1, .ro, .any⟩]⟩,
    ⟨.hrtTimWlBns, 0, 1, 3, 1, 0x11C, 2, 64, 1, 0, 0x0, (some .time),
      [⟨0, 32, .ro, .any⟩]⟩,
    ⟨.hrtTimWlBsub, 0, 1, 3, 1, 0x120, 2, 64, 1, 0, 0x0, (some .time),
      [⟨0, 16, .ro, .any⟩]⟩,
    ⟨.hrtTimWlTodrsfn, 0, 1, 3, 1, 0x124, 2, 64, 1, 0, 0x0, (some .time),
      [⟨0, 32, .ro, .any⟩]⟩,
    ⟨.hrtTimWlTodsechi, 0, 1, 3, 1, 0x128, 2, 64, 1, 0, 0x0, (some .time),
      [⟨0, 16, .ro, .any⟩]⟩,
    ⟨.hrtTimWlTodseclo, 0, 1, 3, 1, 0x12C, 2, 64, 1, 0, 0x0, (some .time),
      [⟨0, 32, .ro, .any⟩]⟩,
    ⟨.hrtTimWlTodns, 0, 1, 3, 1, 0x130, 2, 64, 1, 0, 0x0, (some .time),
      [⟨0, 32, .ro, .any⟩]⟩,
    ⟨.hrtTimWlTodfrac, 0, 1, 3, 1, 0x134, 2, 64, 1, 0, 0x0, (some .time),
      [⟨0, 16, .ro, .any⟩, ⟨16, 8, .rc, .any⟩, ⟨31, 1, .ro, .any⟩]⟩,
    ⟨.hrtTimWlLocns, 0, 1, 3, 1, 0x138, 2, 64, 1, 0, 0x0, (some .time),
      [⟨0, 32, .ro, .any⟩]⟩,
    ⟨.hrtTimWlLocsub, 0, 1, 3, 1, 0x13C, 2, 64, 1, 0, 0x0, (some .time),
      [⟨0, 16, .ro, .any⟩]⟩]

/-- The complete map (R453). -/
def regTable : List RegRow :=
  regRows0 ++ regRows1 ++ regRows2 ++ regRows3 ++ regRows4 ++ regRows5 ++ regRows6 ++ regRows7 ++ regRows8 ++ regRows9 ++ regRows10 ++ regRows11

/-- The two array indices of an offset in a row, or none where the row has no such register (R28, R453). -/
def RegRow.indices (r : RegRow) (off : Nat) : Option (Nat × Nat) :=
  if off < r.off then none
  else
    let d := off - r.off
    let i := if r.st1 = 0 then 0 else d / r.st1
    let e := if r.st1 = 0 then d else d % r.st1
    let j := if r.st2 = 0 then 0 else e / r.st2
    let f := if r.st2 = 0 then e else e % r.st2
    if i < r.n1 ∧ j < r.n2 ∧ f = 0 then some (i, j) else none

/-- What a BAR0 address names: its row, the cord instance, the block instance and the array indices. -/
structure RegAt where
  row : RegRow
  ci : Nat
  bi : Nat
  i : Nat
  j : Nat
  deriving DecidableEq, Repr

/-- The row of an address split in cord, block and offset. -/
def findRow : List RegRow → Nat → Nat → Nat → Option RegAt
  | [], _, _, _ => none
  | r :: t, c, b, o =>
    if r.cord ≤ c ∧ c < r.cord + r.cords ∧ r.blk ≤ b ∧ b < r.blk + r.blks then
      match r.indices o with
      | some (i, j) => some ⟨r, c - r.cord, b - r.blk, i, j⟩
      | none => findRow t c b o
    else findRow t c b o

/-- The address decode of R29: the register at an address, or none. -/
def decodeAddr (a : Nat) : Option RegAt :=
  if a < 2 ^ 28 then findRow regTable (a / 2 ^ 24) (a / 2 ^ 16 % 256) (a % 2 ^ 16) else none

/-- The reset value of the register at an address: that of its header, but for the taps of the pre-emphasis
filter, where tap 8 resets to 1,024 (R83), and the fused values, which stand in the fuses. -/
def regReset (a : Nat) : Word :=
  match decodeAddr a with
  | none => 0
  | some r => if r.row.name = .leTxpTap then (if r.j = 8 then 0x400 else 0) else BitVec.ofNat 32 r.row.reset

end Sys2Proof.Machine
end

