-- ==== Sys2Proof/Machine/State.lean ====
section
/-!
DEFINITION. The state of the device: everything the spec gives it, as plain data. A register stands in `Dev.regs` at its
BAR0 address; what a chapter describes beside its registers stands in the structures below.
-/

namespace Sys2Proof.Machine

/-- A time stamp: nanoseconds and their fraction in 1/65,536 ns (R353). -/
structure Stamp where
  ns : Nat := 0
  sub : Nat := 0
  deriving DecidableEq, Repr

/-- What the device sends or answers. -/
inductive Output where
  /-- A host BAR0 read completes with a value (R6). -/
  | readDone (addr : Nat) (value : Word)
  /-- A host read completes as an unsupported request (R6, R29, R34). -/
  | readUnsupported (addr : Nat)
  /-- A host write ends, applied or dropped, with its access-error code, 0 for none (R456). -/
  | writeDone (addr : Nat) (code : Nat)
  /-- An MSI-X message (R340, R427). -/
  | msix (vec : Nat) (addrHi addrLo data : Word)
  /-- A Turuid command frame of a wavelength's port (R90). -/
  | turuid (w : Nat) (frame : Nat)
  /-- A cell of a continuous transmit group with its group cell index (R119). -/
  | lineCell (w g n : Nat) (bytes : List Byte)
  /-- A burst on a subcarrier: its header and its cells (R156). -/
  | burst (w sc : Nat) (hdr : BitVec 176) (cells : List (List Byte))
  /-- The level of PPS_OUT changes (R358). -/
  | ppsOut (b : Bool)
  /-- A frame leaves a port's pins (R283). -/
  | portFrame (p : Nat) (bytes : List Byte)
  /-- The answer to the requests of a training frame, one code for each: 0 updated, 1 at minimum, 2 at maximum, 3 not
  supported (R310). -/
  | training (l : Nat) (answers : List Nat)
  /-- The training frames a lane sends from here on: the step of the card's taps they ask for, and whether the device's receiver is
  ready (R308, R310). -/
  | trainFrame (l : Nat) (request : Option (Tap × Bool)) (ready : Bool)
  /-- The pattern a lane sends in place of transmit data from the next symbol on, as PAT codes it; 0 ends it (R323). -/
  | prbs (l pat : Nat)
  /-- The pages of a lane's autonegotiation: its port's rate code and lanes, which name the one technology, and the FEC codes (R309). -/
  | autoneg (l rate lanes fec : Nat)
  /-- The kindling frame a lane sends from here on (R312). -/
  | kindling (l : Nat) (frame : BitVec 128)
  /-- A posted memory write of the device (R341). -/
  | dmaWrite (addr : Nat) (bytes : List Byte)
  /-- A configuration request answered (R34, R327). -/
  | configDone (value : Word)
  /-- A read through BAR2 completes with a value (R328). -/
  | bar2Read (ofs : Nat) (value : Word)
  /-- Bytes returned over SMBus and their PEC (R417). -/
  | smb (bytes : List Byte) (pec : Byte)
  /-- An SMBus command code that the target does not acknowledge (R417). -/
  | smbNak (code : Byte)
  /-- The instruction the TAP has loaded, and what the data register it selects captures where the spec gives that: IDCODE, or the one
  bit of BYPASS (R439). -/
  | tap (i : TapInstr) (captured : Option Word)
  deriving DecidableEq, Repr

/-- One entry of the ash log before it has its number (R424). -/
structure AshItem where
  ns : Nat
  wraps : Nat
  kind : Nat
  evt : Nat
  code : Nat
  data : List Byte
  /-- The registers whose words are its data at the end of the clock in which it was made (R448). -/
  from_ : List Nat := []
  deriving DecidableEq, Repr

/-- One vector of the MSI-X table (R328). -/
structure MsixVec where
  addrLo : Word := 0
  addrHi : Word := 0
  data : Word := 0
  masked : Bool := true
  deriving DecidableEq, Repr

/-- What the framer gives an engine with a subcarrier's alignment (R112): the position of an alignment word, the quarter
turns of each polarisation, and their exchange. -/
structure AlnGive where
  phase : Nat
  turnX : Nat
  turnY : Nat
  swap : Bool
  deriving DecidableEq, Repr

/-- Fields whose write waits for its point, by field: the values in use before each write and the ticks of the writes, oldest first
(R66, R445). -/
abbrev Held := Tbl (List (Nat × Nat))

/-- What the engine holds beside its registers (R41 to R61). Masks have one bit for each subcarrier. -/
structure Engine where
  /-- The dispersion scan of this acquisition has restarted once (R42). -/
  cdRetried : Bool := false
  /-- What the acquisition in progress scans (R41): the limit of the mode at its start, the first and last dispersion, and
  whether that is less than the full range. -/
  scanLim : Nat := 80000
  scanLo : Int := -80000
  scanHi : Int := 80000
  scanWin : Bool := false
  /-- It holds an acquired state that the next start of an acquisition verifies (R63, R376). -/
  verify : Bool := false
  /-- The checks of the verify form that have passed: dispersion, carrier offset (R63). -/
  cdOk : Bool := false
  cfoOk : Bool := false
  /-- Fields whose write waits for the next line frame, superframe or acquisition, with the value in use until then (R66, R445). -/
  oldLine : Held := []
  oldSf : Held := []
  oldAcq : Held := []
  /-- Subcarriers whose taps were reinitialised and whose equaliser has not locked since (R49). -/
  eqZero : Nat := 0
  /-- The mask mute holds the output at null; a written UNMUTE waits for the next line frame, with its tick (R84, R445). -/
  muteOut : Bool := false
  unmute : Option Nat := none
  /-- The last 16 samples that entered the FIR of a DAC channel, newest first (R85). -/
  firPast : Tbl (List Int) := []
  /-- The frame position, rotation and exchange of the aligned subcarriers (R112, R200). -/
  align : Tbl (Option AlnGive) := []
  /-- The centre of the search window when it is the snapshot's dispersion and not PRESET (R63). -/
  cdCentre : Option Int := none
  /-- The dispersion that drift is measured from (R43). -/
  cdRef : Int := 0
  /-- Timing lock has been reached since connection (R50). -/
  tlFirst : Bool := false
  /-- Subcarriers whose phase lock has been reached (R68). -/
  phFirst : Nat := 0
  /-- The decode set waiting for a superframe boundary (R46). -/
  pendDecode : Option Nat := none
  /-- A fine-tune command of the laser loop is outstanding, with its step (R54). -/
  laserOut : Option Int := none
  /-- A measuring window has begun after the last acknowledgement (R54). -/
  winOpen : Bool := false
  /-- Quiet windows in a row, at most 8 (R55). -/
  quiet : Nat := 0
  /-- Subcarriers whose last latch met the low-quality condition (R61). -/
  qualLow : Nat := 0
  /-- Subcarriers whose SOP rate was above the limit at the last superframe end (R68). -/
  sopHigh : Nat := 0
  /-- DAC channels whose last window showed more than CLIPTHR clips (R85). -/
  dacClip : Nat := 0
  /-- Subcarriers whose LLRs were saturated beyond SATTHR in the last line frame (R58). -/
  satHigh : Nat := 0
  deriving DecidableEq, Repr

/-- The source of a Turuid command (R93). -/
inductive TrdSource where
  | laser (engine : Nat) (step : Int)
  | host
  | device
  | laserRd (engine : Nat)
  | heartbeat
  deriving DecidableEq, Repr

/-- What a converter set holds beside its registers: open clip windows, and its Turuid port (R90 to R96). -/
structure Conv where
  /-- ADC channels whose last window showed more than CLIPTHR clips (R40). -/
  clipOpen : Nat := 0
  /-- The laser loop's command waiting, with its engine (R95). -/
  waitLaser : Option (Nat × Int) := none
  /-- The host's command waiting: type and argument (R96). -/
  waitHost : Option (Nat × Nat) := none
  /-- The device's own BIAS_AUTO arguments waiting (R89). -/
  waitDev : List Nat := []
  /-- A LASER_RD for an engine that starts without a snapshot (R204). -/
  waitRd : Option Nat := none
  /-- A heartbeat NOP waiting (R95). -/
  waitHb : Bool := false
  /-- The command in flight: its source and its frame (R92). -/
  flight : Option (TrdSource × Nat) := none
  /-- The sequence number of the next command (R90); 0 after the cord's power-up is the model's choice (log 70). -/
  seq : Nat := 0
  /-- Timeouts and bad replies in a row (R95). -/
  fails : Nat := 0
  /-- The settle time of the last step the laser has taken, in ns (R94). -/
  settle : Nat := 0
  deriving DecidableEq, Repr

/-- A candidate of the alignment search (R111). -/
structure AlnCand where
  pos : Nat
  run : Nat
  beacon : Bool
  deriving DecidableEq, Repr

/-- One classified PM second waiting for its commit (R131). -/
structure PmItem where
  cls : Option Nat
  sps : Bool
  ua : Bool
  deriving DecidableEq, Repr

/-- The run and the ten seconds of a PM classification (R131). -/
structure PmRun where
  run : Nat := 0
  uav : Bool := false
  queue : List PmItem := []
  deriving DecidableEq, Repr

/-- A receive profile change watched under R166: its superframe, both codes, the host's own proposal or not, and the
profiles of the good headers seen at or after it. -/
structure RollWatch where
  esfn : Nat
  old : Nat
  new : Nat
  own : Bool
  seen : List Nat := []
  deriving DecidableEq, Repr

/-- A packet with its metadata: source index of R226, SRCN and tags of R229, bytes after tag removal, its receive
stamp, and what parsing and lookup added (R334). -/
structure Pkt where
  src : Nat
  srcn : Nat := 0
  tagn : Nat := 0
  otpid : Bool := false
  itpid : Bool := false
  otag : Nat := 0
  itag : Nat := 0
  bytes : List Byte := []
  ts : Stamp := {}
  tsport : Bool := false
  mal : Bool := false
  nest : Bool := false
  emhit : Bool := false
  emcls : Nat := 0
  /-- Its spread hash, taken on arrival (R222). -/
  hash : Nat := 0
  deriving DecidableEq, Repr

/-- A unit at an injection point: its packet or bytes, and what goes with it (R431). -/
structure FiUnit where
  pkt : Pkt
  a : Nat := 0
  b : Nat := 0
  flag : Bool := false
  /-- Buffers held by a packet at its point, and the agent that holds them (R433). -/
  bufs : List Nat := []
  agent : Nat := 0
  deriving DecidableEq, Repr

/-- What the framer holds for one subcarrier beside its registers. -/
structure Subc where
  /-- Open candidates of the search, oldest first (R111). -/
  cands : List AlnCand := []
  /-- The position of the last alignment word while aligned. -/
  phase : Nat := 0
  /-- Errored tests in a row. -/
  errRun : Nat := 0
  /-- A good header has given the numbering. -/
  hdrOk : Bool := false
  /-- Superframe and frame number predicted for the next header (R108). -/
  sfn : Nat := 0
  fnum : Nat := 0
  bptr : Nat := 0
  cptr : Nat := 0
  gcidx : Nat := 0
  /-- The frame of the last header: its pointers, its payload line bits and those of the frame before it, its number 8 × SFN + FNUM
  and the position of its alignment word (R109, R113, R124). -/
  curB : Nat := 0
  curC : Nat := 0
  curG : Nat := 0
  curBits : Nat := 0
  prevBits : Nat := 0
  frameNo : Nat := 0
  hdrPhase : Nat := 0
  /-- The frame in progress is one whose FEC blocks a revert compares (R127, R212). -/
  cmp : Bool := false
  /-- The last gap test was good (R126, R205). -/
  gapGood : Bool := false
  /-- ENC of the frame in progress conforms to its stream; its KEX; the last frame conformed (R193). -/
  encOk : Bool := true
  kex : Bool := false
  conf : Bool := false
  /-- Transmit: payload line bits sent since the framer's release (R108, R113); cells behind the injector that wait for a boundary, with
  their group and index (R433). -/
  txBits : Nat := 0
  txOut : List FiUnit := []
  /-- The good headers that agree with one another but not with the prediction: next numbers, how many. -/
  agree : Option (Nat × Nat × Nat) := none
  /-- Good headers in a row since alignment, at most 3 (R142). -/
  goodRun : Nat := 0
  /-- The change that the first three good headers at or after its ESFN settle (R166). -/
  roll : Option RollWatch := none
  /-- The code that R166 gives the demapper at the next superframe boundary. -/
  back : Option Nat := none
  /-- RDI of the last good header since alignment. -/
  rdi : Bool := false
  /-- Corrected bits, iterations and blocks of the PM second in progress (R118). -/
  cb : Nat := 0
  iters : Nat := 0
  blocks : Nat := 0
  /-- The condition of FEC_SD at the last second boundary. -/
  sd : Bool := false
  /-- Errored and counted frames of the PM second, a sparing frame in it, decoded at some time in it (R129). -/
  errFrames : Nat := 0
  cntFrames : Nat := 0
  sps : Bool := false
  seen : Bool := false
  /-- The frame in progress: errored already, touched by a sparing gap. -/
  frameErr : Bool := false
  frameSp : Bool := false
  pm : PmRun := {}
  deriving DecidableEq, Repr

/-- An open packet of reassembly (R122). -/
structure OpenPkt where
  flow : Nat
  group : Nat
  bytes : List Byte
  deriving DecidableEq, Repr

/-- A cell before it has its number (R120). -/
structure TxCell where
  flow : Nat
  type : Nat
  len : Nat
  data : List Byte
  /-- The packet's buffers, on its last cell: agents 24 and 25 free them once the cell has left (R251). -/
  bufs : List Nat := []
  deriving DecidableEq, Repr

/-- A sealed group on its way out: the key material it was sealed under, its counter, the cells still to be sent, and
the headers sent so far (R176 to R178). -/
structure TxGroup where
  key : List Byte
  salt : Nat
  slot : Nat
  gctr : Nat
  urg : Bool
  cells : List TxCell
  sent : Nat := 0
  hdrs : List Byte := []
  deriving DecidableEq, Repr

/-- A transmit key slot (R184, R187). -/
structure TxSlot where
  key : List Byte := []
  salt : Nat := 0
  loaded : Bool := false
  ctr : Nat := 0
  warned : Bool := false
  deriving DecidableEq, Repr

/-- A receive key slot and its replay window: verified counters within 64 of the highest (R187, R191). -/
structure RxSlot where
  key : List Byte := []
  salt : Nat := 0
  loaded : Bool := false
  top : Option Nat := none
  seen : List Nat := []
  deriving DecidableEq, Repr

/-- A crypto stream pair of one group: the transmit slots and what a halt waits for; the receive slots and
accumulators (R185, R191). -/
structure Crypto where
  tx0 : TxSlot := {}
  tx1 : TxSlot := {}
  /-- The slot a halted stream resumes with at the next superframe boundary, and whether its key is new. -/
  resume : Option (Nat × Bool) := none
  rx0 : RxSlot := {}
  rx1 : RxSlot := {}
  acc : List (List Byte) := []
  accLost : Bool := false
  accBad : Bool := false
  urg : List (List Byte) := []
  urgLost : Bool := false
  urgBad : Bool := false
  deriving DecidableEq, Repr

/-- A received cell that waits for its turn in its group (R124): its place n and the line frame it begins in, its subcarrier, the
conformity and KEX of that frame (R193), the mismatches of dual computation if it is a TAG (R183), and what the subcarrier's injector
made of it, each unit with its uncorrectable mark; or the mark of a sparing gap (R191). -/
structure RxCell where
  n : Nat
  frame : Nat
  sc : Nat
  encOk : Bool := true
  kex : Bool := false
  mism : Nat := 0
  units : List (Bool × List Byte) := []
  cut : Bool := false
  deriving DecidableEq, Repr

/-- What the framer holds for one receive and one transmit group of a wavelength. -/
structure Grp where
  /-- Receive: the image's ENC, and whether the group has delivered since the framer's release (R125). -/
  encRx : Bool := false
  delivered : Bool := false
  /-- Receive: the cells that wait for those before them, in the order of n; line frame and n of the next cell, none while delivery
  waits for the next n that is a multiple of G (R124, R125). -/
  held : List RxCell := []
  next : Option (Nat × Nat) := none
  /-- Transmit: members and ENC of the image, next group cell index (R123). -/
  txMask : Nat := 0
  encTx : Bool := false
  txN : Nat := 0
  /-- Transmit: cells of selected packets not sent yet (R119), sealed groups in order, urgent pairs (R181, R182). -/
  txCells : List TxCell := []
  groups : List TxGroup := []
  urgent : List TxGroup := []
  deriving DecidableEq, Repr

/-- A grant of the table, or a discovery window (R144, R152). -/
structure Grant where
  tsfn : Nat
  sc : Nat
  start : Nat
  len : Nat
  rng : Bool
  srq : Bool
  disc : Bool := false
  deriving DecidableEq, Repr

/-- A burst in progress: its grant, its start in symbols counted from superframe 0 (R153), and the tick of its start. -/
structure BurstOn where
  grant : Grant
  at_ : Nat
  tick : Nat := 0
  deriving DecidableEq, Repr

/-- A pending profile change of one subcarrier: direction 0 receive, 1 transmit (R162, R163). -/
structure ProfPend where
  dir : Nat
  sc : Nat
  code : Nat
  esfn : Nat
  own : Bool
  deriving DecidableEq, Repr

/-- The host's own profile proposal (R164): direction 0 receive, 1 transmit. -/
structure Proposal where
  dir : Nat
  cancel : Bool
  codes : List (Nat × Nat)
  esfn : Nat
  mseq : Nat
  acked : Bool
  deriving DecidableEq, Repr

/-- An upstream or peer control message waiting for a cell (R137); a RANGE_ACK waits for a grant of its ESFN or later (R147). -/
structure CtrlOut where
  mtype : Nat
  mseq : Nat
  body : List Byte
  esfn : Option Nat := none
  deriving DecidableEq, Repr

/-- An accepted change that is answered again in every superframe until its ESFN (R164): what it answers, this ACK's own number,
the direction that changes. -/
structure AckOut where
  mtype : Nat
  amseq : Nat
  esfn : Nat
  dir : Nat
  mseq : Nat
  deriving DecidableEq, Repr

/-- A pending key switch: direction 0 receive, 1 transmit (R188). -/
structure KeyPend where
  dir : Nat
  gid : Nat
  kidx : Nat
  esfn : Nat
  deriving DecidableEq, Repr

/-- The host's own key-switch proposal (R189). -/
structure KeyProposal where
  dir : Nat
  gid : Nat
  kidx : Nat
  esfn : Nat
  mseq : Nat
  acked : Bool
  deriving DecidableEq, Repr

/-- The engine that TXENG takes at the first transmit line frame boundary, or in leaf mode the first burst, from a tick on (R205,
R206); in leaf mode also at a boundary where it takes over in a revert overlap (R214). -/
structure TxNext where
  eng : Nat
  tick : Nat
  atFrame : Bool := false
  deriving DecidableEq, Repr

/-- What one wavelength holds beside the registers of its framer. -/
structure Wave where
  /-- The tick at which the transmit line frame in progress began, and the ticks of a ramp in progress, from and to (R88). -/
  lineAt : Nat := 0
  ramp : Option (Nat × Nat) := none
  /-- The engine that TXENG takes next (R205, R206, R214). -/
  txNext : Option TxNext := none
  /-- BIAS_AUTO for leaf mode waits for the converter cord (R89). -/
  biasDue : Bool := false
  /-- The image's mode and timing-master role (R2, R171). -/
  leaf : Bool := false
  master : Bool := false
  /-- A sparing gap is in progress (R87, R126). -/
  gap : Bool := false
  /-- The transmit output is cut by a gap whose new engine has not begun to send (R205, R207). -/
  txCut : Bool := false
  /-- The decode set the wavelength asks for (R46, R143). -/
  decode : Nat := 0
  /-- Number of the superframe and line frame being sent. -/
  txSfn : Nat := 0
  txFnum : Nat := 0
  /-- A write of PM CLEAR waits for the second boundary; the wavelength's PM run (R131). -/
  pmClear : Bool := false
  pm : PmRun := {}
  /-- Open packets and discard marks of reassembly (R122). -/
  open_ : List OpenPkt := []
  marks : List Nat := []
  /-- Discovery parameters of the last DISCOVER, windows to skip, an ANNOUNCE unanswered (R144). -/
  peqd : Nat := 0
  rspread : Nat := 0
  alen : Nat := 0
  bkmax : Nat := 0
  skip : Nat := 0
  announced : Bool := false
  /-- A beacon has been aligned since the LF cord's release (R396). -/
  beaconSeen : Bool := false
  /-- RANGE messages applied, newest first: ESFN, EQD; the EQD of target superframes before all of them (R147). -/
  eqds : List (Nat × Nat) := []
  eqd0 : Nat := 0
  /-- The grant table, the grants received for a target superframe, bursts in progress, next BSEQ (R152, R156). -/
  grants : List Grant := []
  gntSeen : List (Nat × Nat) := []
  /-- The tick at which the beacon was ALIGNED again (R148). -/
  dsBack : Option Nat := none
  burstsOn : List BurstOn := []
  bseq : Nat := 0
  /-- Control messages waiting, oldest first, and the next MSEQ (R137, R159). -/
  ctrlQ : List CtrlOut := []
  mseq : Nat := 0
  /-- The profiles in use and the pending changes, as the framer's copy has them, or the engine while the framer is off (R79, R163,
R447, R451); `lost` where both have been off since, and the snapshot is their only source (R452). -/
  lost : Bool := false
  rxCode : Tbl Nat := []
  txCode : Tbl Nat := []
  pend : List ProfPend := []
  /-- A transmit change has taken effect in a gap: the first subcarrier that TX_PROFILE is to name once the new engine sends (R79). -/
  txProf : Option Nat := none
  /-- The host's profile proposal, its key switch or a pending one was abandoned by the withdrawal in progress: its RESULT stands (R452). -/
  prfGone : Bool := false
  kswGone : Bool := false
  /-- Upstream profile changes that have applied, newest first: ESFN, subcarrier, the code before (R157, R163). -/
  txWas : List (Nat × Nat × Nat) := []
  /-- The host's proposal, and the peer's changes answered in every superframe until ESFN (R164). -/
  proposal : Option Proposal := none
  acks : List AckOut := []
  /-- REASON of the last RELEASE (R139). -/
  relReason : Nat := 0
  /-- Pending key switches and the host's key proposal (R188, R189). -/
  keyPend : List KeyPend := []
  keyProposal : Option KeyProposal := none
  deriving DecidableEq, Repr
/-- An allocated buffer: its owner, pool and requester class (R251, R254). -/
structure BufRec where
  owner : Nat
  pool : Fin 64
  cls : Fin 16
  deriving DecidableEq, Repr

/-- A stored packet: its buffers and the tick of its enqueue. -/
structure QPkt where
  pkt : Pkt
  bufs : List Nat := []
  enq : Nat := 0
  deriving DecidableEq, Repr

/-- A queue: its packets, finish tag, TQ and OLD, and its shaper's level while the shaper is in force (R263, R265). -/
structure Queue where
  pkts : List QPkt := []
  f : Nat := 0
  tq : Nat := 0
  old : Bool := false
  shOn : Bool := false
  lvl : Int := 0
  deriving DecidableEq, Repr

/-- A shaper group's level while in force (R265). -/
structure Shaper where
  shOn : Bool := false
  lvl : Int := 0
  deriving DecidableEq, Repr

/-- The newest record of a sampler, with the superframes of WA and WB at its latch (R269, R270). -/
structure SampRec where
  at_ : Nat := 0
  ts : Nat := 0
  seq : Nat := 0
  k : Nat := 0
  depth : Nat := 0
  age : Nat := 0
  maxd : Nat := 0
  pkts : Nat := 0
  drops : Nat := 0
  deqb : Nat := 0
  sfnA : Nat := 0
  sfnB : Nat := 0
  valid : Bool := false
  deriving DecidableEq, Repr

/-- A sampler: its newest record, the interval in progress, K and group in force, its histogram (R269 to R273). -/
structure Sampler where
  last : SampRec := {}
  maxd : Nat := 0
  drops : Nat := 0
  deqb : Nat := 0
  k : Nat := 10
  qg : Option Nat := none
  ageHigh : Bool := false
  hist : Tbl Nat := []
  deriving DecidableEq, Repr

/-- What cord BUF holds beside its registers. Samplers stand at their queue code, or at 8192 plus the group. -/
structure BufSt where
  poolFirst : Tbl Nat := []
  owners : Tbl (Option BufRec) := []
  low : List Nat := []
  queues : Tbl Queue := []
  groups : Tbl Shaper := []
  samplers : Tbl Sampler := []
  deriving DecidableEq, Repr

/-- A classifier rule with its counters (R232, R235, R236). -/
structure Rule where
  key : Nat := 0
  mask : Nat := 0
  act : Nat := 0
  valid : Bool := false
  faulty : Bool := false
  cntP : Nat := 0
  cntB : Nat := 0
  deriving DecidableEq, Repr

/-- An entry of the exact-match table: partition, key, result without HB, stamp, HB (R237). -/
structure Entry where
  part : Nat
  key : Nat
  res : Nat
  stamp : Nat
  hb : Bool := false
  deriving DecidableEq, Repr

/-- Work of the table engine that waits behind `before` learn requests (R239): a software command with its OP, EVEN, the slot its index named
and the slots in which it reads an uncorrectable error; or the deletions of an ager pass, each with the stamp it read. -/
structure EmtJob where
  before : Nat
  op : Nat := 0
  even : Bool := false
  at_ : Nat := 0
  bad : List Nat := []
  ager : Option (List (Nat × Nat × Nat)) := none
  deriving DecidableEq, Repr

/-- A learn request (R244). -/
structure LrnReq where
  key : Nat
  part : Nat
  port : Nat
  deriving DecidableEq, Repr

/-- Where a packet goes: a queue code or an RXG ring (R234). -/
inductive Dest where
  | queue (q : Nat)
  | ring (r : Nat)
  deriving DecidableEq, Repr

/-- A packet with its destination, held by the slice that decided it. -/
structure Decided where
  dest : Dest
  pkt : Pkt
  slice : Nat
  deriving DecidableEq, Repr

/-- The reload or slice change of PKT in progress (R379, R380, R395): pairs still to do, the pair in hand with its map
entries, the entries moved and the slice each returns to, the slices in use at the end, the new seed, for a reload or not. -/
structure PktRun where
  pairs : List Nat := []
  cur : Option Nat := none
  held : List Nat := []
  moved : List (Nat × Nat) := []
  newMap : Tbl Nat := []
  seed : Nat := 0
  shrink : Bool := false
  reload : Bool := false
  deriving DecidableEq, Repr

/-- What cord PKT holds beside its registers. Links: 0 and 1 DLP of WA and WB, 2 DHA, 3 DHB, 4 PCI. -/
structure PktSt where
  links : Tbl (List Pkt) := []
  stores : Tbl (List Pkt) := []
  decided : List Decided := []
  /-- The active templates, by the address of the shadow register (R227). -/
  tmpl : Tbl Word := []
  rules : Tbl Rule := []
  /-- Table slots by index; stash entry i stands at 2^21 + i. -/
  slots : Tbl (Option Entry) := []
  lrnQ : List LrnReq := []
  /-- The head request has found the hold list full and waits for room (R245). -/
  lrnWait : Bool := false
  /-- Software commands and ager deletions that wait behind the learn requests before them, in arrival order (R239). -/
  emtQ : List EmtJob := []
  /-- The hold list: slots with the tick at which each hold ends (R245). -/
  hold : List (Nat × Nat) := []
  /-- The slots in which the command under way reads an uncorrectable error (R246). -/
  badSlots : List Nat := []
  ager : Bool := false
  agerAgain : Bool := false
  run : Option PktRun := none
  deriving DecidableEq, Repr

/-- A recorded TIME_OF_DAY with the local stamp of its superframe (R355). -/
structure TodRec where
  rsfn : Nat := 0
  sec : Nat := 0
  ns : Nat := 0
  frac : Nat := 0
  loc : Option Stamp := none
  deriving DecidableEq, Repr

/-- The newest stamps of a wavelength and its last 16 receive stamps, newest first (R354, R355). -/
structure WlTime where
  rx : Nat × Stamp := (0, {})
  tx : Nat × Stamp := (0, {})
  burst : Option (Nat × Stamp) := none
  kept : List (Nat × Stamp) := []
  tod : TodRec := {}
  deriving DecidableEq, Repr

/-- The time counter (R348 to R352): NS, the 24 fraction bits, WRAPS; `ticks` counts ticks since reset and is the
model's own measure of elapsed time. -/
structure TimeSt where
  ns : Nat := 0
  sub : Nat := 0
  wraps : Nat := 0
  ticks : Nat := 0
  /-- A step waits for the next tick (R351): whole nanoseconds, fraction in 1/65,536 ns. -/
  step : Option (Int × Nat) := none
  wa : WlTime := {}
  wb : WlTime := {}
  /-- The last PPS_IN capture and its tick, and the level of PPS_OUT (R357, R358). -/
  pps : Stamp := {}
  ppsAt : Option Nat := none
  ppsOut : Bool := false
  /-- SECBASE and NSBASE in force; the writes of SECBASEHI and SECBASELO that wait for NSBASE (R356). -/
  secBase : Nat := 0
  nsBase : Nat := 0
  /-- The steering that disciplining moves to, and the frozen control word while REFCLK is lost, both in units of 0.0625 ppb
  from REFCLK × 32 (R22 to R25). -/
  steerTo : Int := 0
  frozen : Option Int := none
  deriving DecidableEq, Repr

/-- An armed injector: units numbered, generator, selections, held unit with its direction, the followers since and the place of the last
of them (R432, R433). -/
structure Inj where
  u : Nat := 0
  gen : Nat := 0
  sel : Nat := 0
  held : Option FiUnit := none
  dir : Nat := 0
  after : Nat := 0
  place : Nat := 0
  deriving DecidableEq, Repr

/-- A gate control list: masks and intervals, cycle, start in counter nanoseconds (R289, R293). -/
structure GateList where
  entries : List (Nat × Nat) := [(0xFF, 1000000)]
  cycle : Nat := 1000000
  start : Nat := 0
  deriving DecidableEq, Repr

/-- An entry of a transmit timestamp queue (R299). -/
structure TxTs where
  stamp : Stamp
  mtype : Nat
  seq : Nat
  deriving DecidableEq, Repr

/-- MINLEN and MAXLEN as they were up to a write at a tick (R300). -/
structure Limits where
  tick : Nat
  minlen : Nat
  maxlen : Nat
  deriving DecidableEq, Repr

/-- What a MAC port holds beside its registers: byte counts of 64 bits, pause timers in quanta, gate lists, timestamps,
the frame taken from its scheduler (R283, R286, R290, R299). Its receive store's frames wait in PktSt.links. -/
structure Mac where
  rxBytes : Nat := 0
  txBytes : Nat := 0
  pause : Nat := 0
  pfc : Tbl Nat := []
  oper : GateList := {}
  pend : Option GateList := none
  txts : List TxTs := []
  cur : Option QPkt := none
  /-- MAXLEN at the start of that frame, the generated control frames that wait for the next frame boundary, and earlier limits of
  received frames, oldest first (R288, R300). -/
  curMax : Nat := 0
  gen : List (List Byte) := []
  limits : List Limits := []
  /-- The tick before which no frame starts after low-power idle (R295). -/
  wakeAt : Nat := 0
  deriving DecidableEq, Repr

/-- What a lane holds beside its registers (R308 to R323). -/
structure Lane where
  /-- CFG as taken at the last entry to stage 1 (R325). -/
  cfg : Word := 0
  /-- The message and CSEQ received last, how many in a row, an acknowledgement of our own CSEQ seen, any good frame. -/
  msg : Option (Nat × Nat) := none
  run : Nat := 0
  acked : Bool := false
  good : Bool := false
  /-- Our own CSEQ and whether LRXREQ is set in our message. -/
  cseq : Nat := 0
  lrxReq : Bool := false
  /-- The extended pass has run in this kindling. -/
  lrxDone : Bool := false
  /-- FECSYM at the last second boundary and corrections of the second in progress; its condition (R322). -/
  secSym : Nat := 0
  sd : Bool := false
  eyeLow : Bool := false
  /-- The eye heights measured in this stage 3, newest first, the last four (R311). -/
  eyes : List Nat := []
  prbsErr : Bool := false
  /-- The lane entered stage 5 as a legacy lane and its PCS has not locked yet (R316). -/
  legacyWait : Bool := false
  /-- Termination has been sensed in this stage 1, the codes autonegotiation offered, FECRES of this kindling stands. -/
  detected : Bool := false
  offer : Option Nat := none
  resolved : Bool := false
  /-- The message of three good frames in a row (R314). -/
  agreed : Option Nat := none
  /-- The largest eye of this stage 2, and the device has declared its receiver ready (R310). -/
  best : Option Nat := none
  ready : Bool := false
  /-- The termination has gone in loopback mode 3, where nothing is retransmitted (R325). -/
  gone : Bool := false
  deriving DecidableEq, Repr


/-- A TXG descriptor as fetched (R335, R338): SOF, EOF, the data it names, and its STATUS once it is complete but waits for
those before it in the ring. -/
structure TxDesc where
  sof : Bool
  eof : Bool
  data : List Byte
  status : Option Nat := none
  deriving DecidableEq, Repr

/-- What a ring holds beside its registers: RXG packets pending in order; TXG descriptors fetched from HEAD on and not
completed (R336, R338). RXG rings stand at their number, TXG rings at 2,048 plus theirs. -/
structure Ring where
  pending : List QPkt := []
  fetched : List TxDesc := []
  /-- The frame whose descriptors are being read cannot pass: they complete with STATUS 2 up to its EOF (R339). -/
  bad : Bool := false
  deriving DecidableEq, Repr

/-- The endpoint's configuration space and the rings (R327, R328, R473). -/
structure Pcie where
  bars : Tbl Word := []
  memEnable : Bool := false
  busMaster : Bool := false
  msixEnable : Bool := false
  msixFuncMask : Bool := false
  /-- What is written to the registers of its capabilities (R327), by number. -/
  caps : Tbl Word := []
  perst : Bool := false
  rings : Tbl Ring := []
  deriving DecidableEq, Repr

/-- A record of a section (R364). -/
inductive Rec where
  | regset (pairs : List (Nat × Nat))
  | ctllevel (expert : Nat)
  | engmap (wa wb spare : Nat)
  | cordpol (pols : List (Nat × Nat))
  | retain (banks : Nat)
  | wlmode (mode master : Nat)
  | group (dir gid enc mask : Nat)
  | spread (seed : Nat) (map : List Nat)
  | empart (k size base : Nat)
  | pool (p kind first size : Nat)
  | pcls (p c min max : Nat)
  | qmap (first count sched hpool spool flags shg : Nat)
  | qflow (q flow : Nat)
  | srccls (cls : List Nat)
  | port (p lanes lrate flags fec : Nat)
  | ringpool (first count pool : Nat)
  deriving DecidableEq, Repr

/-- A section in force (R363). -/
structure Sec where
  sseq : Nat := 0
  scrc : Nat := 0
  recs : List Rec := []
  deriving DecidableEq, Repr

/-- A command of HRT_CFG_CMD that reloads cords (R372 to R378): the cord in hand, the cords after it, the section in
force before, whether it runs from that section again (R375); for a serving engine its wavelength, the cold engine and the
part of R377 that runs: 0 an ordinary reload, 1 the first move, 2 the reload, 3 the second move. -/
structure Reload where
  cord : Nat
  rest : List Nat
  activate : Bool
  force : Bool
  old : Sec
  retry : Bool := false
  wl : Option Nat := none
  cold : Nat := 3
  part : Nat := 0
  /-- The RESULT the command ends with, where a cord gave one before its end. -/
  res : Nat := 0
  deriving DecidableEq, Repr

/-- The image in force and the MRAM: slots, ash log and firmware (R367, R408, R424). -/
structure ImgSt where
  mram : Tbl Byte := []
  secs : Tbl Sec := []
  /-- The sections of the active slot, which a wake applies (R388). -/
  slot : Tbl Sec := []
  /-- KSLOT and SEQ of the active slot. -/
  kslot : Nat := 0
  seq : Nat := 0
  /-- The engine map of the last device reset (R361). -/
  engmap : Nat × Nat × Nat := (0, 1, 2)
  reload : Option Reload := none
  deriving DecidableEq, Repr

/-- A snapshot (R200): its header fields, the engine registers and the engine state of its body, and the number of its
free bytes. -/
structure Snap where
  seq : Nat
  sfn : Nat
  wl : Nat
  eng : Nat
  acqd : Bool
  leaf : Bool
  num : Nat
  regs : List (Nat × Word)
  state : Engine
  /-- The pending profile changes it carries (R200). -/
  pend : List ProfPend := []
  deriving DecidableEq, Repr

/-- The ember banks (R200, R397): the snapshot areas at 2 × bank + area, the area written next, the bytes of bank 3 and
of banks 4 to 15 at bank × 2^21 + offset, and the superframe number last served. -/
structure EmberSt where
  snaps : Tbl (Option Snap) := []
  next : Tbl Nat := []
  seqs : Tbl Nat := []
  bytes : Tbl Byte := []
  /-- The banks that are powered: all, or in BANKED those of RETAIN at its entry (R394). -/
  kept : Nat := 0xFFFF
  deriving DecidableEq, Repr

/-- What moves a wavelength to an engine (R205, R209, R212, R217, R377). -/
inductive MoveKind where
  | takeover | restore | revert | switch | reloadOut | reloadBack
  deriving DecidableEq, Repr

/-- A takeover, restore or hitless move in progress: the incoming and the outgoing engine; 0 the incoming cord wakes, 1
its snapshot loads, 2 it has loaded; the delivered frames without a difference are the command's. -/
structure Move where
  kind : MoveKind
  wl : Nat
  inc : Nat
  out : Nat
  step : Nat := 0
  /-- The role of the incoming engine before the move, and its seasoning by SWITCH. -/
  role : Nat := 0
  manual : Bool := false
  deriving DecidableEq, Repr

/-- What the controller holds for an engine beside HRT_SPR_ENG (R210, R211, R217, R421). -/
structure SprEng where
  loading : Bool := false
  /-- Made seasoned by SWITCH. -/
  bySwitch : Bool := false
  /-- The wavelength it served before, 2 for none. -/
  home : Nat := 2
  /-- Its role and wavelength before a thermal trip. -/
  trip : Option (Nat × Nat) := none
  /-- It waits for CLEAR after a failed wake, and then goes to repair. -/
  broken : Bool := false
  /-- It waits for a valid snapshot before its revert starts (R204). -/
  due : Bool := false
  /-- It has stopped serving since its last superframe end (R202). -/
  served : Bool := false
  /-- A pass of its self-test in seasoning is running (R211, R217). -/
  pass : Bool := false
  deriving DecidableEq, Repr

/-- The sparing controller. -/
structure SprSt where
  engs : Tbl SprEng := []
  move : Option Move := none
  /-- A SWITCH or a takeover by the spare that waits for the move in progress to end (R203). -/
  next : Option Move := none
  /-- Wavelengths without an engine, wavelengths whose gap has passed its limit. -/
  bare : List Nat := []
  late : List Nat := []
  deriving DecidableEq, Repr

/-- Why a cord wakes or drains. -/
inductive Why where
  | boot | access | command | trans | reload | sparing | tinder
  deriving DecidableEq, Repr

/-- What the power controller holds for a cord beside HRT_PWR_CORD: why it wakes or drains; whether it was on when FULL
was last left; whether a thermal trip put it in state 4. -/
structure CordSt where
  why : Why := .boot
  wasOn : Bool := false
  tripped : Bool := false
  /-- An OFF or ON command (false, true) that waits for the wake or the drain in progress (R405). -/
  cmd : Option Bool := none
  deriving DecidableEq, Repr

/-- A power transition (R398, R401): its target, what is still to switch with on or off, what has been switched, whether it
goes back after an abort. Numbers 1 to 11 are cords; 20 is the ports' parking, 21 the slices of PKT. -/
structure Trans where
  target : Nat
  todo : List (Nat × Bool)
  done : List (Nat × Bool) := []
  back : Bool := false
  /-- The code of an abort that waits for the next cord boundary. -/
  abort : Option Nat := none
  /-- At an exit from BANKED: the banks have been checked (R406). -/
  checked : Bool := false
  deriving DecidableEq, Repr

/-- The power controller and the sensors' comparators (R398, R420 to R423). -/
structure PwrSt where
  cords : Tbl CordSt := []
  trans : Option Trans := none
  /-- Ports that DOZE has parked (R395); ports a tinder wake has called while their cord was off (R400). -/
  parked : List Nat := []
  tinder : List Nat := []
  /-- The periods in a row that a port's tinder detector has counted (R297). -/
  tinderRun : Tbl Nat := []
  /-- Sensors whose last reading, and whose last two, reached TRIP; TEMP_WARN has been raised. -/
  hot : List Nat := []
  hot2 : List Nat := []
  warned : Bool := false
  /-- The root has locked since reset; clock monitors at fault; rails low, rails bad. -/
  rootSeen : Bool := false
  clkBad : List Nat := []
  railLow : List Nat := []
  railBad : List Nat := []
  deriving DecidableEq, Repr

/-- A BAR0 access that has not completed: address, size in bytes, value written, tick of arrival (R30, R331); for a write that
stops a ring, what the host's memory takes of the frame in progress (R342). -/
structure Access where
  addr : Nat
  size : Nat
  write : Option Word
  at_ : Nat
  written : List (BitVec 64) := []
  deriving DecidableEq, Repr

/-- A complete mailbox request (R411, R412). -/
structure MbxReq where
  smb : Bool
  opcode : Nat
  len : Nat
  args : List Byte
  /-- CTLLVL.EXPERT when the request became complete: the level that governs its writes (R383). -/
  level : Nat
  deriving DecidableEq, Repr

/-- The update session (R418). -/
structure UpdSession where
  smb : Bool
  firmware : Bool
  slot : Nat
  len : Nat
  header : List Byte
  deriving DecidableEq, Repr

/-- The ash log's queue (R425): entries, those lost since the last marker, those lost before it; the newest ESEQ given. -/
structure AshSt where
  queue : List AshItem := []
  lost : Nat := 0
  lostAll : Nat := 0
  newest : Option Nat := none
  deriving DecidableEq, Repr

/-- Hearth (R409 to R418): the requests in order, the session, the last SMBus response not yet read. -/
structure HearthSt where
  reqs : List MbxReq := []
  session : Option UpdSession := none
  smbRsp : List Byte := []
  smbDone : Bool := false
  deriving DecidableEq, Repr

/-- The fused values (R454, R422): serial number, the four key hashes, the slots revoked at manufacture, the nominal rail
levels in mV. -/
structure Fuses where
  serial : Nat := 0
  khash : List (List Byte) := []
  krev : Nat := 0
  rails : List Nat := []
  deriving DecidableEq, Repr

/-- The device: everything but the queue of commands, the fuses and what has been sent. Registers stand by BAR0 address;
an address not listed reads as its reset value (R12, R453). -/
structure Dev where
  regs : Tbl Word := []
  /-- The counter that numbers free values. -/
  free : Nat := 0
  /-- What the command in hand sends, newest first. -/
  out : List Output := []
  inReset : Bool := true
  powered : Bool := true
  /-- Key slots revoked since manufacture (R455). -/
  blown : Nat := 0
  /-- The address of the newest access error, until a read of HRT_GLB_AERR shows it (R457). -/
  aerrAdr : Nat := 0
  straps : Nat := 0
  time : TimeSt := {}
  ash : AshSt := {}
  hearth : HearthSt := {}
  img : ImgSt := {}
  ember : EmberSt := {}
  spr : SprSt := {}
  pwr : PwrSt := {}
  waiting : List Access := []
  pcie : Pcie := {}
  msixTable : Tbl MsixVec := []
  /-- Vectors with a message held (R427). -/
  msixHeld : List Nat := []
  engines : Tbl Engine := []
  convs : Tbl Conv := []
  waves : Tbl Wave := []
  scs : Tbl Subc := []
  grps : Tbl Grp := []
  crys : Tbl Crypto := []
  pkt : PktSt := {}
  buf : BufSt := {}
  macs : Tbl Mac := []
  lanes : Tbl Lane := []
  inj_ : Tbl Inj := []
  /-- The instruction of the TAP; IDCODE in Test-Logic-Reset (R439, IEEE 1149.1). -/
  tap : TapInstr := .idcode
  /-- Cords that have left service with buffers to reclaim (R253). -/
  reclaim : List Nat := []
  deriving DecidableEq, Repr

/-- Why the machine stops. -/
inductive Fault where
  /-- A low pulse of RESET_N of more than 1.5 µs and less than 2.5 µs, which the board must not drive and whose effect
  the spec does not give (R471). Raised by DEVICE_RESET alone; safe. -/
  | resetPulseForbidden
  deriving DecidableEq, Repr

/-- What the model does not give a meaning. -/
inductive Refusal where
  /-- A command without a meaning yet, by its mnemonic. Raised by the dispatch alone; safe. -/
  | notModelled (mnemonic : String)
  deriving DecidableEq, Repr

/-- The state: the commands that wait, first in first out; the fuses; what has been sent, newest first; the device. -/
structure State where
  pending : List Instr := []
  fuses : Fuses := {}
  outputs : List Output := []
  dev : Dev := {}
  deriving DecidableEq, Repr

/-- The fuses of the model's device: serial number 0, key hashes of zero bytes, nothing revoked (DESIGN CHOICE, log 2);
the nominal levels of R468. -/
def Fuses.reset : Fuses :=
  { khash := List.replicate 4 (List.replicate 48 0)
    rails := [750, 750, 750, 750, 800, 850, 900, 1200, 900, 1200, 1100, 400, 1800, 800, 1800, 900] }

/-- The device right after reset: every register at its reset value, cords 1 to 12 off, RESET_N still low (R458, R472). -/
def State.reset : State := { fuses := Fuses.reset }

end Sys2Proof.Machine
end

