-- ==== Sys2Proof/Machine/Ops.lean ====
section
/-!
DEFINITION. The named operations over registers and fields, the loops over instances, and the running of a
command: `State.run` gives a meaning the device state and puts back what it answers, so that no command touches
the queue, the fuses or what has already been sent.
-/

namespace Sys2Proof.Machine

/-! ### Registers and fields -/

/-- The value of the register at a BAR0 address. -/
def Dev.reg (d : Dev) (a : Nat) : Word := Tbl.get (regReset a) d.regs a

/-- The register at a BAR0 address set to a value. -/
def Dev.setReg (d : Dev) (a : Nat) (v : Word) : Dev := { d with regs := Tbl.set (regReset a) d.regs a v }

/-- The bits of a field within a register value. -/
def Fld.of (f : Fld) (v : Word) : Nat := v.toNat / 2 ^ f.lsb % 2 ^ f.width

/-- A register value with a field replaced (the value taken modulo the field's width). -/
def Fld.put (f : Fld) (v : Word) (x : Nat) : Word :=
  let m : Word := (BitVec.ofNat 32 (2 ^ f.width - 1)) <<< f.lsb
  (v &&& ~~~m) ||| ((BitVec.ofNat 32 x <<< f.lsb) &&& m)

/-- A field of the device. -/
def Dev.get (d : Dev) (f : Fld) : Nat := f.of (d.reg f.addr)

/-- A field read as two's complement. -/
def Dev.getInt (d : Dev) (f : Fld) : Int := signedOf f.width (d.get f)

/-- A one-bit field as a truth value. -/
def Dev.flag (d : Dev) (f : Fld) : Bool := d.get f != 0

/-- A field of the device set. -/
def Dev.set (d : Dev) (f : Fld) (x : Nat) : Dev := d.setReg f.addr (f.put (d.reg f.addr) x)

/-- A field set to the two's complement of an integer. -/
def Dev.setInt (d : Dev) (f : Fld) (i : Int) : Dev := d.set f (unsignedOf f.width i)

/-- A one-bit field set from a truth value. -/
def Dev.setFlag (d : Dev) (f : Fld) (b : Bool) : Dev := d.set f (if b then 1 else 0)

/-- A count that saturates (R4). -/
def Dev.count (d : Dev) (f : Fld) (n : Nat) : Dev := d.set f (satAdd f.width (d.get f) n)

/-- Every register of the addresses from `lo` up to and without `hi` back at its reset value (R12, R458). -/
def Dev.dropRegs (d : Dev) (lo hi : Nat) : Dev := { d with regs := Tbl.dropRange d.regs lo hi }

/-! ### Control of the text -/

/-- A change made only when a condition holds. -/
def Dev.when (d : Dev) (c : Bool) (f : Dev → Dev) : Dev := if c then f d else d

/-- A change made for each number of a list, in order. -/
def Dev.each {α : Type} (d : Dev) (l : List α) (f : Dev → α → Dev) : Dev := l.foldl f d

/-- The set bits of a mask below `n`, rising. -/
def maskBits (n m : Nat) : List Nat := (List.range n).filter (m.testBit ·)

/-- A mask with bit `k` set. -/
def setBit (m k : Nat) : Nat := m ||| 2 ^ k

/-- A mask with bit `k` clear. -/
def clrBit (m k : Nat) : Nat := if m.testBit k then m - 2 ^ k else m

/-- What the command in hand has sent, set. -/
def Dev.setOut (d : Dev) (l : List Output) : Dev := { d with out := l }

/-- What the device sends. -/
def Dev.emit (d : Dev) (o : Output) : Dev := { d with out := o :: d.out }

/-! ### Running a command -/

/-- The big-endian bytes of a number, `n` of them (R5). -/
def beBytes (n x : Nat) : List Byte := (List.range n).map fun i => BitVec.ofNat 8 (x / 2 ^ (8 * (n - 1 - i)))

/-- The first `n` bytes of a list, filled with zero bytes. -/
def fitBytes (n : Nat) (l : List Byte) : List Byte := (l ++ List.replicate n 0).take n

/-- The words of a detail as an entry's data, three at most (R424). -/
def detailBytes (det : List Word) : List Byte := (det.take 3).flatMap fun w => beBytes 4 w.toNat

/-- An entry of KIND 1 joins those of its clock in ascending event number (R449). -/
def ashInsert (x : AshItem) : List AshItem → List AshItem
  | [] => [x]
  | y :: t => if x.kind = 1 ∧ y.kind = 1 ∧ y.evt < x.evt then y :: ashInsert x t else x :: y :: t

/-- The entries that a clock has added after the first `n` of the log's queue: in their order, with their details as the registers
stand at its end (R448, R449). -/
def Dev.closeLog (d : Dev) (n : Nat) : Dev :=
  let fill (i : AshItem) : AshItem := if i.from_.isEmpty then i else { i with data := fitBytes 12 (detailBytes (i.from_.map d.reg)), from_ := [] }
  { d with ash := { d.ash with queue := d.ash.queue.take n ++ ((d.ash.queue.drop n).map fill).foldr ashInsert [] } }

/-- The state after a command whose effect on the device is `f`: the queue and the fuses stand, what the command sends comes before what
was sent earlier, and its entries of the ash log are closed. -/
def State.run (s : State) (f : Fuses → Dev → Dev) : Host.Outcome State Fault Refusal :=
  let d := (f s.fuses (s.dev.setOut [])).closeLog s.dev.ash.queue.length
  .next { s with dev := d.setOut [], outputs := d.out ++ s.outputs }

/-! ### Substates keyed by instance -/

def Dev.eng (d : Dev) (e : Nat) : Engine := Tbl.get {} d.engines e
def Dev.setEng (d : Dev) (e : Nat) (f : Engine → Engine) : Dev := { d with engines := Tbl.modify {} d.engines e f }
def Dev.conv (d : Dev) (w : Nat) : Conv := Tbl.get {} d.convs w
def Dev.setConv (d : Dev) (w : Nat) (f : Conv → Conv) : Dev := { d with convs := Tbl.modify {} d.convs w f }
def Dev.wave (d : Dev) (w : Nat) : Wave := Tbl.get {} d.waves w
def Dev.setWave (d : Dev) (w : Nat) (f : Wave → Wave) : Dev := { d with waves := Tbl.modify {} d.waves w f }
def Dev.sc (d : Dev) (w k : Nat) : Subc := Tbl.get {} d.scs (32 * w + k)
def Dev.setSc (d : Dev) (w k : Nat) (f : Subc → Subc) : Dev := { d with scs := Tbl.modify {} d.scs (32 * w + k) f }
def Dev.grp (d : Dev) (w g : Nat) : Grp := Tbl.get {} d.grps (32 * w + g)
def Dev.setGrp (d : Dev) (w g : Nat) (f : Grp → Grp) : Dev := { d with grps := Tbl.modify {} d.grps (32 * w + g) f }
def Dev.cry (d : Dev) (w g : Nat) : Crypto := Tbl.get {} d.crys (32 * w + g)
def Dev.setCry (d : Dev) (w g : Nat) (f : Crypto → Crypto) : Dev := { d with crys := Tbl.modify {} d.crys (32 * w + g) f }
def Dev.spr1 (d : Dev) (e : Nat) : SprEng := Tbl.get {} d.spr.engs e
def Dev.setSpr1 (d : Dev) (e : Nat) (f : SprEng → SprEng) : Dev :=
  { d with spr := { d.spr with engs := Tbl.modify {} d.spr.engs e f } }
def Dev.setPcie (d : Dev) (f : Pcie → Pcie) : Dev := { d with pcie := f d.pcie }
def Dev.setPwr (d : Dev) (f : PwrSt → PwrSt) : Dev := { d with pwr := f d.pwr }
def Dev.setImg (d : Dev) (f : ImgSt → ImgSt) : Dev := { d with img := f d.img }
def Dev.setSpr (d : Dev) (f : SprSt → SprSt) : Dev := { d with spr := f d.spr }
def Dev.setEmber (d : Dev) (f : EmberSt → EmberSt) : Dev := { d with ember := f d.ember }
def Dev.setHearth (d : Dev) (f : HearthSt → HearthSt) : Dev := { d with hearth := f d.hearth }

/-! ### Cords (R13, R14, R33, R387) -/

/-- ST of a cord; HRT always reads 3. -/
def Dev.cordSt (d : Dev) (c : Nat) : Nat := if c = 0 then 3 else d.get (F.hrtPwrCordSt c)

/-- The cord is powered and answers: on, released or not, or draining. -/
def Dev.cordOn (d : Dev) (c : Nat) : Bool := d.cordSt c == 2 || d.cordSt c == 3 || d.cordSt c == 6

/-- The cord is released to traffic. -/
def Dev.released (d : Dev) (c : Nat) : Bool := d.cordSt c == 3

/-- An engine number of a selector, none at 3. -/
def engOf (n : Nat) : Option Nat := if n = 3 then none else some n

/-- The serving engine of a wavelength: the one TXENG names, or is to name once a new engine has its first transmit line frame or
burst (R205, R206). -/
def Dev.serving (d : Dev) (w : Nat) : Option Nat :=
  match (d.wave w).txNext with
  | some x => some x.eng
  | none => engOf (d.get (F.cvSelStatTxeng w))

/-- The number of the serving engine of a wavelength; 3 for none. -/
def Dev.txEng (d : Dev) (w : Nat) : Nat := (d.serving w).getD 3

/-- The converter cord of the wavelength an engine is given to (R14). -/
def Dev.engineNeeds (d : Dev) (e : Nat) : List Nat :=
  if d.get F.hrtSprStatWaeng = e then [4] else if d.get F.hrtSprStatWbeng = e then [5] else []

/-- The cords a cord's traffic needs (R14). -/
def Dev.needs (d : Dev) (c : Nat) : List Nat :=
  if 1 ≤ c ∧ c ≤ 3 then d.engineNeeds (c - 1)
  else if c = 6 then (if d.txEng 0 = 3 then [4, 8, 9, 13] else [4, 8, 9, 1 + d.txEng 0])
  else if c = 7 then (if d.txEng 1 = 3 then [5, 8, 9, 13] else [5, 8, 9, 1 + d.txEng 1])
  else if c = 8 then [9] else if c = 10 ∨ c = 11 ∨ c = 12 then [8, 9] else []

/-- The cord carries traffic: it and every cord it needs are released (R14); number 13 stands for an engine that is missing. -/
def Dev.trafficOk (d : Dev) (c : Nat) : Bool := d.released c && (d.needs c).all fun n => n != 13 && d.released n

/-- The transmit set of a terminal: the subcarriers of the image's upstream groups. -/
def Dev.txSet (d : Dev) (w : Nat) : Nat := (List.range 32).foldl (fun m g => m ||| (d.grp w g).txMask) 0

/-- The subcarriers that carry line frames: the transmit set, and in point-to-point mode all 32 (R170). -/
def Dev.sendScs (d : Dev) (w : Nat) : Nat := if (d.wave w).leaf then d.txSet w else 2 ^ 32 - 1

/-- The transmit group of a subcarrier. -/
def Dev.txGroupOf (d : Dev) (w sc : Nat) : Option Nat := (List.range 32).find? fun g => (d.grp w g).txMask.testBit sc

/-- The receive profile of a subcarrier by the framer's copy. -/
def Wave.rxProfile (v : Wave) (sc : Nat) : Nat := Tbl.get 0 v.rxCode sc

/-- Samples reach the framer of a wavelength and leave it: its converter cord and the engine that serves it carry traffic (R14). -/
def Dev.lineOk (d : Dev) (w : Nat) : Bool := d.released (6 + w) && d.released (4 + w) && d.txEng w != 3 && d.trafficOk (1 + d.txEng w)

end Sys2Proof.Machine
end

