-- ==== Sys2Proof/Machine/Flags.lean ====
section
/-!
DEFINITION. The device's flags: event sources, groups and their MSI-X messages (R426, R427), the sticky bits,
and the ash log's queue of entries (R424, R425).
-/

namespace Sys2Proof.Machine

/-! ### MSI-X -/

/-- A message on a vector can leave: link up, bus mastering on, MSI-X on, neither the function nor the vector masked. -/
def Dev.msixReady (d : Dev) (v : Nat) : Bool :=
  d.flag F.pciEpStatDlup && d.pcie.busMaster && d.pcie.msixEnable && !d.pcie.msixFuncMask
    && !(Tbl.get {} d.msixTable v).masked

/-- The message of vector `v` leaves. -/
def Dev.msixEmit (d : Dev) (v : Nat) : Dev :=
  let m := Tbl.get {} d.msixTable v
  d.emit (.msix v m.addrHi m.addrLo m.data)

/-- A message on vector `v` is sent, or held under the pending rules of PCIe (R427). -/
def Dev.msixSend (d : Dev) (v : Nat) : Dev :=
  if d.msixReady v then d.msixEmit v
  else if d.msixHeld.contains v then d else { d with msixHeld := d.msixHeld ++ [v] }

/-! ### The ash log's queue -/

/-- Entries of the queue that are not loss markers. -/
def ashLoad (q : List AshItem) : Nat := (q.filter fun i => !(i.kind == 2 && i.code == 6)).length

/-- An entry offered to the queue (R425): discarded and counted when 256 wait; after a loss the marker goes first. -/
def Dev.ashAdd (d : Dev) (kind evt code : Nat) (data : List Byte) (from_ : List Nat := []) : Dev :=
  let it : AshItem := ⟨d.time.ns, d.time.wraps, kind, evt, code % 2 ^ 16, fitBytes 12 data, from_⟩
  if 256 ≤ ashLoad d.ash.queue then { d with ash := { d.ash with lost := d.ash.lost + 1 } }
  else if d.ash.lost = 0 then { d with ash := { d.ash with queue := d.ash.queue ++ [it] } }
  else
    let mk : AshItem := ⟨d.time.ns, d.time.wraps, 2, 0, 6, fitBytes 12 (beBytes 4 d.ash.lost), []⟩
    { d with ash := { d.ash with queue := d.ash.queue ++ [mk, it], lost := 0, lostAll := d.ash.lostAll + d.ash.lost } }

/-! ### Events -/

/-- Sources that are never raised (R459). -/
def neverRaised (n : Nat) : Bool := (0x1A ≤ n && n ≤ 0x1F) || (0xEA ≤ n && n ≤ 0xEF) || 0x100 ≤ n

/-- Group `g` is pending (R427). -/
def Dev.groupPending (d : Dev) (g : Nat) : Bool :=
  (List.range 16).any fun k => d.flag (F.hrtEvtSrcCtlStat (16 * g + k)) && d.flag (F.hrtEvtSrcCtlEn (16 * g + k))

/-- The group's message when it has become pending (R427). -/
def Dev.groupEdge (d : Dev) (g : Nat) (was : Bool) : Dev :=
  d.when (!was && d.groupPending g && d.flag (F.hrtEvtGcfgMsien g)) fun d => d.msixSend (d.get (F.hrtEvtGcfgVec g))

/-- COUNT, STAT and the stamps of a raise (R426). -/
def Dev.evtMark (d : Dev) (n : Nat) : Dev :=
  let first := !d.flag (F.hrtEvtSrcCtlStat n)
  ((d.when first fun d => (d.set (F.hrtEvtSrcFirstnsValue n) d.time.ns).set (F.hrtEvtSrcFirstwValue n) d.time.wraps).count
    (F.hrtEvtSrcCtlCount n) 1).set (F.hrtEvtSrcCtlStat n) 1

/-- An event raised, with the words of its detail, or the registers that hold it (R424, R426, R427). -/
def Dev.raiseWords (d : Dev) (n : Nat) (det : List Word) (from_ : List Nat := []) : Dev :=
  if neverRaised n then d
  else
    let first := !d.flag (F.hrtEvtSrcCtlStat n)
    let was := d.groupPending (n / 16)
    let cnt := d.get (F.hrtEvtSrcCtlCount n)
    let d1 := d.evtMark n
    let d2 := d1.when (first && d.flag (F.hrtEvtSrcCtlLog n)) fun d =>
      d.ashAdd 1 n cnt (detailBytes det) from_
    d2.groupEdge (n / 16) was

/-- An event raised whose detail stands in the registers at `addrs`: as they are at the end of the clock (R448). -/
def Dev.raise (d : Dev) (n : Nat) (addrs : List Nat) : Dev := d.raiseWords n (addrs.map d.reg) addrs

/-- A condition's entry: the event when the condition holds and did not hold before (R69). -/
def Dev.raiseOn (d : Dev) (was now : Bool) (n : Nat) (addrs : List Nat) : Dev :=
  d.when (now && !was) fun d => d.raise n addrs

end Sys2Proof.Machine
end

