-- ==== Sys2Proof/Machine/Buffers.lean ====
section
/-!
DEFINITION. Buffers, queues and samplers: 09_buffers_scheduling. The schedulers, which ask the framers and the MACs,
stand in Sched.
-/

namespace Sys2Proof.Machine

/-! ### Buffers (R248 to R254) -/

def Dev.setBuf (d : Dev) (f : BufSt → BufSt) : Dev := { d with buf := f d.buf }
def Dev.queue (d : Dev) (q : Nat) : Queue := Tbl.get {} d.buf.queues q
def Dev.setQueue (d : Dev) (q : Nat) (f : Queue → Queue) : Dev := d.setBuf fun b => { b with queues := Tbl.modify {} b.queues q f }
def Dev.sampler (d : Dev) (k : Nat) : Sampler := Tbl.get {} d.buf.samplers k
def Dev.setSampler (d : Dev) (k : Nat) (f : Sampler → Sampler) : Dev :=
  d.setBuf fun b => { b with samplers := Tbl.modify {} b.samplers k f }
def Dev.owner (d : Dev) (b : Nat) : Option BufRec := Tbl.get none d.buf.owners b
def Dev.setOwner (d : Dev) (b : Nat) (r : Option BufRec) : Dev := d.setBuf fun s => { s with owners := Tbl.set none s.owners b r }

/-- The first free buffer of a pool from place `i` on; among `n` allocated buffers it is found in `n` steps. -/
def nextFree (t : Tbl (Option BufRec)) (first size : Nat) : Nat → Nat → Nat
  | 0, i => first + i % size
  | n + 1, i => if (Tbl.get none t (first + i % size)).isNone then first + i % size else nextFree t first size n (i + 1)

/-- One buffer of a pool taken for an agent: which of the free ones is open (R254). -/
def Dev.takeBuf (d : Dev) (p c agent : Nat) : Dev × Nat :=
  let size := d.get (F.bufPoolCfgSize p)
  let i := nextFree d.buf.owners (Tbl.get 0 d.buf.poolFirst p) size d.buf.owners.length (Config.pickBuffer p d.free % size)
  (({ d with free := d.free + 1 }).setOwner i (some ⟨agent, Fin.ofNat 64 p, Fin.ofNat 16 c⟩), i)

/-- BUF_POOL_LOW: once below LOWTHR, again only after SHFREE has come back (R256). -/
def Dev.poolLow (d : Dev) (p : Nat) : Dev :=
  let now := decide (d.get (F.bufPoolFreeShfree p) < d.get (F.bufPoolLowLowthr p))
  let was := d.buf.low.contains p
  let d1 := d.setBuf fun b => { b with low := if now then (if was then b.low else p :: b.low) else b.low.filter (· != p) }
  d1.when (now && !was) fun d => d.raise 0xE3 [R.bufPoolFree p]

/-- A request for `n` buffers of pool `p` by class `c`, granted whole or refused whole (R254). -/
def Dev.allocBufs (d : Dev) (p c n agent : Nat) : Option (Dev × List Nat) :=
  let i := 16 * p + c
  let used := d.get (F.bufPclsUsedUsed i)
  let need := n - min n (d.get (F.bufPclsMinMin i) - used)
  if d.get (F.bufPclsMaxMax i) < used + n then none
  else if d.get (F.bufPoolFreeShfree p) < need then none
  else
    let d1 := (d.set (F.bufPclsUsedUsed i) (used + n)).set (F.bufPoolFreeShfree p) (d.get (F.bufPoolFreeShfree p) - need)
    let r := (List.range n).foldl (fun (a : Dev × List Nat) _ => let t := a.1.takeBuf p c agent; (t.1, a.2 ++ [t.2])) (d1, [])
    some (r.1.poolLow p, r.2)

/-- A free of an allocated buffer goes back to its class (R254). -/
def Dev.giveBack (d : Dev) (b : Nat) (r : BufRec) : Dev :=
  let i := 16 * r.pool.val + r.cls.val
  let used := d.get (F.bufPclsUsedUsed i)
  let d1 := (d.setOwner b none).set (F.bufPclsUsedUsed i) (used - 1)
  (d1.when (decide (d.get (F.bufPclsMinMin i) < used)) fun d =>
    d.set (F.bufPoolFreeShfree r.pool) (d.get (F.bufPoolFreeShfree r.pool) + 1)).poolLow r.pool

/-- A rejected operation (R252): logged, counted, its event; `kind` 0 double free, 1 non-owner. -/
def Dev.bufReject (d : Dev) (b agent kind : Nat) : Dev :=
  let d1 := ((d.set F.bufBmErrlogBuf b).set F.bufBmErrlogAgent agent).set F.bufBmErrlogKind kind
  if kind = 0 then (d1.count F.bufBmErrDbl 1).raise 0xE0 [R.bufBmErrlog, R.bufBmErr]
  else (d1.count F.bufBmErrNown 1).raise 0xE1 [R.bufBmErrlog, R.bufBmErr]

/-- A free by an agent (R252). -/
def Dev.freeBuf (d : Dev) (b agent : Nat) : Dev :=
  if !d.cordOn 9 then d
  else match d.owner b with
  | none => d.bufReject b agent 0
  | some r => if agent = 63 ∨ r.owner = agent then d.giveBack b r else d.bufReject b agent 1

/-- A transfer to another agent (R252). -/
def Dev.moveBuf (d : Dev) (b agent dst : Nat) : Dev :=
  if !d.cordOn 9 then d
  else match d.owner b with
  | none => d.bufReject b agent 1
  | some r => if r.owner = agent then d.setOwner b (some { r with owner := dst }) else d.bufReject b agent 1

def Dev.freeBufs (d : Dev) (bs : List Nat) (agent : Nat) : Dev := d.each bs fun d b => d.freeBuf b agent
def Dev.moveBufs (d : Dev) (bs : List Nat) (agent dst : Nat) : Dev := d.each bs fun d b => d.moveBuf b agent dst

/-- The agents of a cord (R251). -/
def cordAgents (c : Nat) : List Nat :=
  if c = 8 then List.range 24 else if c = 6 then [24] else if c = 7 then [25] else if c = 10 then [26]
  else if c = 11 then [27] else if c = 12 then [28] else if c = 9 then [32] else []

/-- BUFFER_FREE (R252), by agents 0 to 32 and 63: the reserved ones among them own nothing, so theirs are rejected. -/
def execBufferFree (b : BitVec 25) (agent : Nat) (s : State) : Host.Outcome State Fault Refusal := s.run fun _ d =>
  d.when (d.cordOn 9 && (decide (agent ≤ 32) || agent == 63) && decide (b.toNat < 0x1040000)) fun d =>
    d.freeBuf b.toNat agent

/-- BUFFER_RECLAIM (R253): every buffer owned by the agents of a cord that has left service. -/
def execBufferReclaim (c : Fin 13) (s : State) : Host.Outcome State Fault Refusal := s.run fun _ d =>
  if !d.cordOn 9 || !d.reclaim.contains c.val then d
  else
    let mine := d.buf.owners.filter fun x => match x.2 with
      | some r => (cordAgents c).contains r.owner
      | none => false
    let d1 := d.each (mine.map (·.1)) fun d b => d.freeBuf b 63
    ({ d1 with reclaim := d1.reclaim.filter (· != c.val) }).count F.bufBmReclRecl mine.length |>.raise 0xE4 [R.bufBmRecl]

/-! ### Queues (R258, R259, R261) -/

/-- DEPTH of a group: the sum over its members (R270). -/
def Dev.groupDepth (d : Dev) (g : Nat) : Nat :=
  (d.buf.samplers.filter fun x => decide (x.1 < 8192) && x.2.qg == some g).foldl (fun n x => n + d.get (F.bufQDepthCount x.1)) 0

/-- A change of a queue's depth enters its sampler's interval and its group's (R269, R270, R274). -/
def Dev.noteDepth (d : Dev) (q drops deqb : Nat) : Dev :=
  let put (x : Sampler) (dep : Nat) : Sampler :=
    { x with maxd := max x.maxd dep, drops := min (x.drops + drops) (2 ^ 32 - 1), deqb := min (x.deqb + deqb) (2 ^ 32 - 1) }
  let d1 := d.setSampler q fun x => put x (d.get (F.bufQDepthCount q))
  match (d1.sampler q).qg with
  | some g => d1.setSampler (8192 + g) fun x => put x (d1.groupDepth g)
  | none => d1

/-- A packet discarded at admission (R259). -/
def Dev.qDrop (d : Dev) (q reason : Nat) : Dev :=
  ((((d.count (F.bufQDropCount q) 1).set F.bufQmLogQ q).set F.bufQmLogReason reason).raise 0xE6 [R.bufQmLog, R.bufQDrop q]).noteDepth
    q 1 0

/-- The cost of a packet in virtual time (R263). -/
def Dev.cost (d : Dev) (q len : Nat) : Nat := len * 65536 / max 1 (d.get (F.bufQParWeight q))

/-- A finish tag set at V plus the cost of the head (R263). -/
def Dev.tagHead (d : Dev) (q len : Nat) : Dev :=
  let s := d.get (F.bufQMapSched q)
  let f := (d.get (F.bufSchVV s) + d.cost q len) % 2 ^ 32
  d.setQueue q fun x => { x with f := f, tq := d.get (F.bufSchVqVq s), old := false }

/-- The pool and the number of buffers of a packet for a queue (R248, R250). -/
def Dev.poolFor (d : Dev) (q len : Nat) : Nat × Nat :=
  if len ≤ 256 && d.flag (F.bufQMapSpen q) then (d.get (F.bufQMapSpool q), 1)
  else (d.get (F.bufQMapHpool q), (len + 2047) / 2048)

/-- Admission, allocation and queueing of a packet from a slice; answers whether it was queued (R254, R256, R259). -/
def Dev.enqueue (d : Dev) (q : Nat) (p : Pkt) (slice : Nat) : Dev × Bool :=
  let len := p.bytes.length
  if !d.flag (F.bufQParEn q) then (d.qDrop q 1, false)
  else if d.get (F.bufQLimLimit q) * 64 < d.get (F.bufQDepthCount q) + len then (d.qDrop q 2, false)
  else
    let pn := d.poolFor q len
    let c := d.get (F.bufSrcClsClass p.src)
    match d.allocBufs pn.1 c pn.2 slice with
    | none => (((d.count (F.bufPclsFailFail (16 * pn.1 + c)) 1).raise 0xE2 [R.bufPclsFail (16 * pn.1 + c)]).qDrop q 3, false)
    | some (d1, bs) =>
      let d2 := d1.moveBufs bs slice 32
      let d3 := d2.when (d.queue q).pkts.isEmpty fun d => d.tagHead q len
      let d4 := (d3.setQueue q fun x => { x with pkts := x.pkts ++ [⟨p, bs, d3.time.ticks⟩] }).set
        (F.bufQDepthCount q) (d.get (F.bufQDepthCount q) + len)
      (d4.noteDepth q 0 0, true)

/-- The write of BUF_QM_CMD with GO (R261): an error code, 0 for none. -/
def Dev.qmCheck (d : Dev) (v : Word) : Nat :=
  if F.bufQmCmdGo.of v = 0 then 0 else if d.flag F.bufQmCmdBusy then 0xA else 0

/-- A FLUSH discards what is queued now and frees its buffers (R261). -/
def Dev.qmGo (d : Dev) (v : Word) : Dev :=
  d.when (F.bufQmCmdGo.of v != 0) fun d =>
    let q := F.bufQmCmdQ.of v
    let ps := (d.queue q).pkts
    let d1 := (d.each ps fun d x => d.freeBufs x.bufs 32).setQueue q fun x => { x with pkts := [] }
    (((d1.set (F.bufQDepthCount q) 0).noteDepth q 0 0).count F.bufQmFlushedFlushed ps.length).set F.bufQmCmdBusy 1

/-- Q_FLUSH_DONE (R261). -/
def execQFlushDone (s : State) : Host.Outcome State Fault Refusal := s.run fun _ d =>
  d.when (d.flag F.bufQmCmdBusy) fun d => (d.set F.bufQmCmdBusy 0).raise 0xE8 [R.bufQmFlushed]

/-! ### Shapers and tags (R264 to R266) -/

/-- SWEEPER_VISIT (R264). -/
def execSweeperVisit (q : Fin 8192) (s : State) : Host.Outcome State Fault Refusal := s.run fun _ d =>
  let vq := d.get (F.bufSchVqVq (d.get (F.bufQMapSched q)))
  d.when (d.cordOn 9 && decide (2 ≤ unsignedOf 16 ((vq : Int) - ((d.queue q).tq : Nat)))) fun d => d.setQueue q fun x => { x with old := true }

/-- A refill of one bucket: the new state and level of the shaper (R265, R266). -/
def refill (on en : Bool) (lvl : Int) (rate burst : Nat) : Bool × Int :=
  if !en then (false, 0)
  else if !on then (true, (burst * 8 : Nat))
  else (true, min (lvl + (rate : Nat)) ((burst * 8 : Nat) : Int))

/-- SHAPER_REFILL (R265, R266): every queue and every group whose shaper is or comes into force. -/
def execShaperRefill (s : State) : Host.Outcome State Fault Refusal := s.run fun _ d => d.when (d.cordOn 9) fun d =>
  let d1 := d.each (List.range 8192) fun d q =>
    let x := d.queue q
    let en := d.flag (F.bufQShpShen q)
    if en || x.shOn then
      let r := refill x.shOn en x.lvl (d.get (F.bufQShpRate q)) (d.get (F.bufQBurstBurst q))
      d.setQueue q fun x => { x with shOn := r.1, lvl := r.2 }
    else d
  d1.each (List.range 255) fun d g =>
    let x := Tbl.get {} d.buf.groups g
    let en := d.flag (F.bufShgShpShen g)
    if en || x.shOn then
      let r := refill x.shOn en x.lvl (d.get (F.bufShgShpRate g)) (d.get (F.bufShgBurstBurst g))
      d.setBuf fun b => { b with groups := Tbl.set {} b.groups g ⟨r.1, r.2⟩ }
    else d

/-! ### Samplers (R269 to R273) -/

/-- Ticks of 1.6 ns as whole microseconds. -/
def ticksToUs (t : Nat) : Nat := t * 16 / 10000

/-- The head-of-line age of a queue in microseconds. -/
def Dev.headAge (d : Dev) (q : Nat) : Nat :=
  match (d.queue q).pkts with
  | x :: _ => min (ticksToUs (d.time.ticks - x.enq)) (2 ^ 32 - 1)
  | [] => 0

/-- The members of a group in force. -/
def Dev.groupMembers (d : Dev) (g : Nat) : List Nat :=
  (d.buf.samplers.filter fun x => decide (x.1 < 8192) && x.2.qg == some g).map (·.1)

/-- The local superframe of a wavelength (R270). -/
def Dev.localSfn (d : Dev) (w : Nat) : Nat :=
  d.get (F.lfScsSfnSfn w (if d.flag (F.lfAlnStatBcnv w) then d.get (F.lfAlnStatBcnsc w) else 0))

/-- The record a latch makes. -/
def Dev.record (d : Dev) (k : Nat) : SampRec :=
  let x := d.sampler k
  let grp := decide (8192 ≤ k)
  let ms := if grp then d.groupMembers (k - 8192) else [k]
  let dep := if grp then d.groupDepth (k - 8192) else d.get (F.bufQDepthCount k)
  { at_ := d.time.ticks, ts := d.time.ns, seq := if x.last.valid then (x.last.seq + 1) % 65536 else 0, k := x.k
    depth := min dep (2 ^ 32 - 1), age := (ms.map d.headAge).foldl max 0, maxd := min (max x.maxd dep) (2 ^ 32 - 1)
    pkts := min ((ms.map fun q => (d.queue q).pkts.length).sum) (2 ^ 24 - 1), drops := x.drops, deqb := x.deqb
    sfnA := d.localSfn 0, sfnB := d.localSfn 1, valid := true }

/-- The depth of a queue's group as a change of its members leaves it enters the group's interval (R260, R270). -/
def Dev.groupDepthSeen (d : Dev) (q : Nat) : Dev :=
  match (d.sampler q).qg with
  | some g => d.setSampler (8192 + g) fun x => { x with maxd := max x.maxd (d.groupDepth g) }
  | none => d

/-- SAMPLER_LATCH (R269, R270, R273, R260): queue code, or 8192 plus the group. -/
def execSamplerLatch (k : Fin 8448) (s : State) : Host.Outcome State Fault Refusal := s.run fun _ d =>
  if !d.released 9 then d
  else
    let r := d.record k
    let grp := decide (8192 ≤ k.val)
    let x := d.sampler k
    let thr := d.get (F.bufQLimAgethr k)
    let high := !grp && thr != 0 && decide (thr * 100 ≤ r.age)
    let d1 := d.setSampler k fun x => { x with
      last := r, maxd := r.depth, drops := 0, deqb := 0, ageHigh := high
      k := if grp then d.get (F.bufSmpGkK (k - 8192)) else d.get (F.bufQParK k)
      qg := if !grp && d.flag (F.bufQParQgen k) then some (d.get (F.bufQParQg k)) else none }
    let d2 := if grp then d1 else d1.groupDepthSeen k
    d2.when (high && !x.ageHigh) fun d => d.raise 0xE7 [R.bufQLim k]

/-- The bin of a sojourn (R271): the bin width is 2^HSHIFT × 0.1 µs, the sojourn in ticks. -/
def histBin (hshift ticks : Nat) : Nat :=
  let u := 2 ^ hshift * 1000
  let t := ticks * 16
  if t < u then 0 else (((List.range 15).find? fun i => decide (t < u * 2 ^ i)).getD 15)

/-- The sojourn of a released packet counted; the first saturation of a bin raises SMP_HIST_SAT (R271). -/
def Dev.sojourn (d : Dev) (q enq : Nat) : Dev :=
  let b := histBin (d.get F.bufSmpCfgHshift) (d.time.ticks - enq)
  let n := Tbl.get 0 (d.sampler q).hist b
  let d1 := d.setSampler q fun x => { x with hist := Tbl.set 0 x.hist b (min (n + 1) (2 ^ 32 - 1)) }
  d1.when (n + 1 == 2 ^ 32 - 1) fun d => d.raise 0xE9 [R.bufSmpHist b]

/-- The write of BUF_SMP_SEL with GO (R272): an error code, 0 for none. -/
def Dev.smpCheck (d : Dev) (v : Word) : Nat :=
  if F.bufSmpSelGrp.of v = 1 && (F.bufSmpSelClr.of v = 1 || decide (256 ≤ F.bufSmpSelIdx.of v)) then 9
  else if F.bufSmpSelGo.of v = 1 && d.flag F.bufSmpSelBusy then 0xA else 0

/-- The eight words of a record (R269). -/
def SampRec.words (r : SampRec) (grp : Bool) : List Nat :=
  let b (c : Bool) : Nat := if c then 1 else 0
  [r.seq + r.k * 2 ^ 16 + b grp * 2 ^ 30 + b r.valid * 2 ^ 31, r.ts, r.depth, r.age, r.maxd, r.pkts, r.drops, r.deqb]

/-- A copy of the newest record, and of the histogram of a queue, which CLR clears (R272). The copy is complete at once:
BUSY is never seen. -/
def Dev.smpGo (d : Dev) (v : Word) : Dev :=
  d.when (F.bufSmpSelGo.of v != 0) fun d =>
    let grp := F.bufSmpSelGrp.of v == 1
    let k := F.bufSmpSelIdx.of v + (if grp then 8192 else 0)
    let x := d.sampler k
    let d1 := d.each ((if x.last.valid then x.last.words grp else SampRec.words {} grp).zipIdx) fun d wi => d.set (F.bufSmpRecData wi.2) wi.1
    if grp then d1
    else
      (d1.each (List.range 16) fun d b => d.set (F.bufSmpHistData b) (Tbl.get 0 x.hist b)).when (F.bufSmpSelClr.of v == 1) fun d =>
        d.setSampler k fun x => { x with hist := [] }

end Sys2Proof.Machine
end

