-- ==== Sys2Proof/Machine/Bits.lean ====
section
/-!
DEFINITION. Bits, bytes and the check codes of the spec: R91, R105, R107, R109, R114, R116, R238 and the shared
byte-order helpers of R5.
-/

namespace Sys2Proof.Machine

/-- The low `n` bits of a number, most significant first. -/
def bitsOf (n x : Nat) : List Bool := (List.range n).map fun i => x.testBit (n - 1 - i)

/-- The number a list of bits spells, most significant first. -/
def ofBits (l : List Bool) : Nat := l.foldl (fun a b => 2 * a + (if b then 1 else 0)) 0

/-- The number bytes spell, most significant first (R5). -/
def beNat (l : List Byte) : Nat := l.foldl (fun a b => 256 * a + b.toNat) 0

/-- `n` bytes of a list from offset `o`, zero beyond its end. -/
def bytesAt (l : List Byte) (o n : Nat) : List Byte := (List.range n).map fun i => l.getD (o + i) 0

/-- The big-endian number of `n` bytes at offset `o`. -/
def beAt (l : List Byte) (o n : Nat) : Nat := beNat (bytesAt l o n)

/-- The bits of bytes, most significant bit of each byte first. -/
def bitsOfBytes (l : List Byte) : List Bool := l.flatMap fun b => bitsOf 8 b.toNat

/-- One step of a CRC register of width `w` that takes the most significant bit first. -/
def crcStep (w poly : Nat) (c : Nat) (b : Bool) : Nat :=
  let s := c * 2 % 2 ^ w
  if c.testBit (w - 1) != b then s ^^^ poly else s

/-- A CRC without reflection or final inversion. -/
def crcMsb (w poly init : Nat) (bits : List Bool) : Nat := bits.foldl (crcStep w poly) init

/-- The CRC-8 of R91. -/
def crc8 (init : Nat) (bits : List Bool) : Nat := crcMsb 8 0x07 init bits

/-- The CRC-16 of R107. -/
def crc16 (bits : List Bool) : Nat := crcMsb 16 0x1021 0xFFFF bits

/-- Eight steps of a reflected CRC register over one byte. -/
def crcRefByte (poly c : Nat) (b : Byte) : Nat :=
  (List.range 8).foldl (fun c _ => if c.testBit 0 then c / 2 ^^^ poly else c / 2) (c ^^^ b.toNat)

/-- CRC-32C with a seed (R238). -/
def crc32c (seed : Nat) (l : List Byte) : Nat := (2 ^ 32 - 1) ^^^ l.foldl (crcRefByte 0x82F63B78) seed

/-- CRC-32 with a seed (R238). -/
def crc32 (seed : Nat) (l : List Byte) : Nat := (2 ^ 32 - 1) ^^^ l.foldl (crcRefByte 0xEDB88320) seed

/-- One step of the 11-bit generator of R105. -/
def awStep (s : Nat) : Nat :=
  s % 1024 * 2 + (s / 1024 + s / 2 % 2) % 2

/-- `n` bits of the generator of R105 from a seed. -/
def awBits : Nat → Nat → List Bool
  | 0, _ => []
  | n + 1, s => (s / 1024 == 1) :: awBits n (awStep s)

/-- The scrambler of R109 over the payload line bits of a frame of subcarrier `k`. -/
def scramble (s : Nat) : List Bool → List Bool
  | [] => []
  | d :: t =>
    let z := s / 1073741824
    (d != (z == 1)) :: scramble (s % 1073741824 * 2 + (z + s / 4 % 2) % 2) t

/-- The scrambler's start for subcarrier `k`. -/
def scrambleSeed (k : Nat) : Nat := 1431655744 + k

/-- The payload line bits of a line frame under a profile code: 15,718 groups of 16 × H bits (R73, R74). -/
def frameBits (code : Nat) : Nat := 15718 * (32 + 2 * (code - 1))

/-- Index bits of position `p` in a group under a profile code (R74). -/
def indexBits (code p : Nat) : Nat :=
  let k := code - 1
  let rev := p % 2 * 4 + p / 2 % 2 * 2 + p / 4 % 2
  k / 8 + (if rev < k % 8 then 1 else 0)

/-- The amplitude pair of an index (R76). -/
def amplitude (i : Nat) : Nat × Nat :=
  [(1, 1), (3, 1), (1, 3), (3, 3), (5, 1), (5, 3), (1, 5), (3, 5),
   (7, 1), (7, 3), (1, 7), (3, 7), (5, 5), (7, 5), (5, 7), (7, 7)].getD i (1, 1)

/-- The unnormalised symbol of sign bits and index bits (R75, R76). -/
def symbolOf (bits : List Bool) : Int × Int :=
  let a := amplitude (ofBits (bits.drop 2))
  (if bits.getD 0 false then -(a.1 : Int) else a.1, if bits.getD 1 false then -(a.2 : Int) else a.2)

/-- The symbols of one group of 8 positions, X then Y at each (R74, R75). -/
def mapGroup (code : Nat) (bits : List Bool) : List ((Int × Int) × (Int × Int)) :=
  ((List.range 8).foldl (fun (acc : List ((Int × Int) × (Int × Int)) × List Bool) p =>
    let n := 2 + indexBits code p
    (acc.1 ++ [(symbolOf (acc.2.take n), symbolOf ((acc.2.drop n).take n))], acc.2.drop (2 * n))) ([], bits)).1

/-- The shift of information block (i, j) of the parity-check matrix (R116). -/
def ldpcShift (i j : Nat) : Nat := (i + 1) * (17 * j + 5) % 512

/-- The information contribution to check `r` of block row `i`. -/
def ldpcLambda (u : List Bool) (i r : Nat) : Bool :=
  (List.range 28).foldl (fun a j => a != u.getD (512 * j + (r + ldpcShift i j) % 512) false) false

/-- The LDPC codeword of 14,336 information bits (R116). -/
def ldpcEncode (u : List Bool) : List Bool :=
  let row (i : Nat) : List Bool := (List.range 512).map (ldpcLambda u i)
  let add (a b : List Bool) : List Bool := List.zipWith (· != ·) a b
  let p0 := row 0
  let p1 := add (row 1) p0
  let p2 := add (row 2) p1
  let p3 := add (row 3) p2
  u ++ p0 ++ p1 ++ p2 ++ p3

/-- Multiplication in GF(2^14) with α a root of x^14 + x^10 + x^6 + x + 1 (R114). -/
def gfMul (a b : Nat) : Nat :=
  (List.range 14).foldl (fun acc i =>
    let x := acc * 2
    let y := if x.testBit 14 then x ^^^ 0x4443 else x
    if b.testBit (13 - i) then y ^^^ a else y) 0

/-- α to the power `n`. -/
def gfPow : Nat → Nat
  | 0 => 1
  | n + 1 => gfMul 2 (gfPow n)

/-- Multiplication of two binary polynomials held as numbers. -/
def polyMul (n a b : Nat) : Nat := (List.range n).foldl (fun acc i => if b.testBit i then acc ^^^ (a * 2 ^ i) else acc) 0

/-- The conjugates of α^e: e, 2e, 4e, ... 14 of them. -/
def gfConjugates (e : Nat) : List Nat := (List.range 14).map fun i => gfPow (e * 2 ^ i % 16383)

/-- The minimal polynomial of α^e, coefficients of x^0 first; every class of R114 has 14 members. -/
def minPoly (e : Nat) : List Nat :=
  (gfConjugates e).foldl (fun p r => List.zipWith (· ^^^ ·) (0 :: p) ((p.map (gfMul r)) ++ [0])) [1]

/-- The generator of the outer code: the product of the minimal polynomials of α, α^3, ..., α^19 (R114). -/
def bchGenerator : Nat :=
  (List.range 10).foldl (fun g i => polyMul 15 g (ofBits ((minPoly (2 * i + 1)).reverse.map (· == 1)))) 1

/-- The remainder of the information bits times x^140 by the generator (R114). -/
def bchParity (g : Nat) (info : List Bool) : Nat :=
  info.foldl (fun c b => let s := c * 2 % 2 ^ 140; if c.testBit 139 != b then s ^^^ (g % 2 ^ 140) else s) 0

/-- The BCH codeword of 14,196 information bits. -/
def bchEncode (info : List Bool) : List Bool := info ++ bitsOf 140 (bchParity bchGenerator info)

end Sys2Proof.Machine
end

