-- ==== Sys2Proof/Machine/Gcm.lean ====
section
/-!
DEFINITION. AES-256 in Galois counter mode (R178): the block cipher of FIPS 197 and the mode of NIST SP 800-38D, on bytes as numbers.
-/

namespace Sys2Proof.Machine

/-! ### AES-256 (FIPS 197) -/

/-- The substitution box, 32 entries in each number, the first in its most significant byte. -/
def sboxRows : List Nat :=
  [0x637c777bf26b6fc53001672bfed7ab76ca82c97dfa5947f0add4a2af9ca472c0,
   0xb7fd9326363ff7cc34a5e5f171d8311504c723c31896059a071280e2eb27b275,
   0x09832c1a1b6e5aa0523bd6b329e32f8453d100ed20fcb15b6acbbe394a4c58cf,
   0xd0efaafb434d338545f9027f503c9fa851a3408f929d38f5bcb6da2110fff3d2,
   0xcd0c13ec5f974417c4a77e3d645d197360814fdc222a908846eeb814de5e0bdb,
   0xe0323a0a4906245cc2d3ac629195e479e7c8376d8dd54ea96c56f4ea657aae08,
   0xba78252e1ca6b4c6e8dd741f4bbd8b8a703eb5664803f60e613557b986c11d9e,
   0xe1f8981169d98e949b1e87e9ce5528df8ca1890dbfe6426841992d0fb054bb16]

/-- A byte substituted. -/
def subByte (b : Nat) : Nat := sboxRows.getD (b / 32) 0 / 256 ^ (31 - b % 32) % 256

/-- A byte times x in the field of AES. -/
def xtime (b : Nat) : Nat := if b < 128 then 2 * b else (2 * b) ^^^ 0x11B

/-- The bytes of a 32-bit word substituted. -/
def subWord (w : Nat) : Nat :=
  subByte (w / 2 ^ 24 % 256) * 2 ^ 24 + subByte (w / 2 ^ 16 % 256) * 2 ^ 16 + subByte (w / 2 ^ 8 % 256) * 2 ^ 8 + subByte (w % 256)

/-- The next word of the key schedule of 8-word keys, from the words so far, newest first. -/
def keyWord (ws : List Nat) (i : Nat) : List Nat :=
  let t := ws.headD 0
  let g := if i % 8 = 0 then subWord (t % 2 ^ 24 * 256 + t / 2 ^ 24) ^^^ (2 ^ (i / 8 - 1) * 2 ^ 24) else if i % 8 = 4 then subWord t else t
  (ws.getD 7 0 ^^^ g) :: ws

/-- The 60 words of the key schedule. -/
def keySchedule (key : List Byte) : List Nat :=
  ((List.range 52).foldl (fun ws i => keyWord ws (8 + i)) ((List.range 8).map fun i => beAt key (4 * i) 4).reverse).reverse

/-- The 16 bytes of a round key. -/
def roundKey (ws : List Nat) (r : Nat) : List Nat := (List.range 16).map fun i => ws.getD (4 * r + i / 4) 0 / 256 ^ (3 - i % 4) % 256

/-- The rows of the state shifted: the state stands column after column. -/
def shiftRows (s : List Nat) : List Nat := (List.range 16).map fun i => s.getD ((i + 4 * (i % 4)) % 16) 0

/-- One column mixed. -/
def mixColumn (a b c d : Nat) : List Nat :=
  let e := a ^^^ b ^^^ c ^^^ d
  [a ^^^ e ^^^ xtime (a ^^^ b), b ^^^ e ^^^ xtime (b ^^^ c), c ^^^ e ^^^ xtime (c ^^^ d), d ^^^ e ^^^ xtime (d ^^^ a)]

/-- The four columns mixed. -/
def mixColumns : List Nat → List Nat
  | a :: b :: c :: d :: t => mixColumn a b c d ++ mixColumns t
  | l => l

/-- The bytes of two states added. -/
def addBytes (a b : List Nat) : List Nat := List.zipWith (· ^^^ ·) a b

/-- One block enciphered under a key schedule. -/
def aesBlock (ws : List Nat) (block : List Nat) : List Nat :=
  let s := (List.range 13).foldl (fun s r => addBytes (mixColumns (shiftRows (s.map subByte))) (roundKey ws (r + 1))) (addBytes block (roundKey ws 0))
  addBytes (shiftRows (s.map subByte)) (roundKey ws 14)

/-! ### Galois counter mode (SP 800-38D) -/

/-- The product of two blocks as numbers, bit 127 the first. -/
def ghashMul (x y : Nat) : Nat :=
  ((List.range 128).foldl (fun (zv : Nat × Nat) i =>
    (if x.testBit (127 - i) then zv.1 ^^^ zv.2 else zv.1, if zv.2 % 2 = 1 then (zv.2 / 2) ^^^ (0xE1 * 2 ^ 120) else zv.2 / 2)) (0, y)).1

/-- The blocks of a byte string as numbers, the last filled with zeros. -/
def blocksOf (l : List Byte) : List Nat := (List.range ((l.length + 15) / 16)).map fun i => beAt l (16 * i) 16

/-- GHASH of additional data and ciphertext under the hash key. -/
def ghash (h : Nat) (aad cipher : List Byte) : Nat :=
  (blocksOf aad ++ blocksOf cipher ++ [8 * aad.length * 2 ^ 64 + 8 * cipher.length]).foldl (fun y b => ghashMul (y ^^^ b) h) 0

/-- A block as bytes, and as a number. -/
def blockBytes (n : Nat) : List Nat := (List.range 16).map fun i => n / 256 ^ (15 - i) % 256
def blockNat (l : List Nat) : Nat := l.foldl (fun a b => 256 * a + b) 0

/-- The counter block `i` of an initialisation vector of 96 bits: J0 is block 1 (R178). -/
def counterBlock (iv : List Byte) (i : Nat) : List Nat := blockBytes (beAt iv 0 12 * 2 ^ 32 + i)

/-- The text added to the key stream from counter block 2 on. -/
def gctr (ws : List Nat) (iv text : List Byte) : List Byte :=
  let stream := (List.range ((text.length + 15) / 16)).flatMap fun i => aesBlock ws (counterBlock iv (2 + i))
  List.zipWith (fun b k => b ^^^ BitVec.ofNat 8 k) text stream

/-- The tag over additional data and ciphertext. -/
def gcmTag (ws : List Nat) (iv aad cipher : List Byte) : List Byte :=
  let h := blockNat (aesBlock ws (List.replicate 16 0))
  (addBytes (blockBytes (ghash h aad cipher)) (aesBlock ws (counterBlock iv 1))).map (BitVec.ofNat 8)

/-- AES-256-GCM encryption (R178): key, initialisation vector, additional data, plaintext; the ciphertext and the 16-byte tag. -/
def gcmSeal (key iv aad plain : List Byte) : List Byte × List Byte :=
  let ws := keySchedule key
  let c := gctr ws iv plain
  (c, gcmTag ws iv aad c)

/-- AES-256-GCM decryption (R178): the plaintext, and the tag computed over the ciphertext. -/
def gcmOpen (key iv aad cipher : List Byte) : List Byte × List Byte :=
  let ws := keySchedule key
  (gctr ws iv cipher, gcmTag ws iv aad cipher)

end Sys2Proof.Machine
end

