-- ==== Sys2Proof/Machine/Inject.lean ====
section
/-!
DEFINITION. The injectors' action on a unit: R431 to R436 of 17_fault_injection. What the units go on to is the
caller's; the commands stand in FaultInj.
-/

namespace Sys2Proof.Machine

/-- The address of an injector's CTL register by its number (R431). -/
def fiBase (i : Nat) : Nat :=
  if i < 96 then R.hsFiCtl i else if i < 160 then R.lfFiCtl ((i - 96) / 32) ((i - 96) % 32) else R.pktFiCtl (i - 160)

/-- A field of an injector by number, register offset, bit and width. -/
def fiF (i off lsb width : Nat) : Fld := ⟨fiBase i + off, lsb, width⟩

/-- The 24 generator steps of random mode (R432). -/
def fiGen (s : Nat) : Nat :=
  (List.range 24).foldl (fun s _ =>
    let b := (s / 2147483648 + s / 2097152 % 2 + s / 2 % 2 + s % 2) % 2
    s % 2147483648 * 2 + b) s

def Dev.inj (d : Dev) (i : Nat) : Inj := Tbl.get {} d.inj_ i
def Dev.setInj (d : Dev) (i : Nat) (f : Inj → Inj) : Dev := { d with inj_ := Tbl.modify {} d.inj_ i f }

/-- A test event of an injector (R440). -/
def Dev.fiEvent (d : Dev) (i n : Nat) : Dev := (d.set F.hrtFiGlobalLastinj i).raise n [R.hrtFiGlobal]

/-- An injector disarmed: EN and ARMED clear, ARMCNT less one. -/
def Dev.fiOff (d : Dev) (i : Nat) : Dev :=
  d.when (d.flag (fiF i 0x14 0 1)) fun d =>
    ((d.set (fiF i 0 0 1) 0).set (fiF i 0x14 0 1) 0).set F.hrtFiGlobalArmcnt (d.get F.hrtFiGlobalArmcnt - 1)

/-- Unit `u` is selected under the generator value `g` (R432). -/
def Dev.fiSelects (d : Dev) (i u g : Nat) : Bool :=
  let n := max 1 (d.get (fiF i 4 0 16))
  let m := d.get (fiF i 0 4 2)
  if m = 0 then (u + 1) % n == 0 else if m = 1 then decide (g % 16777216 < d.get (fiF i 8 0 24)) else decide (u % n < d.get (fiF i 4 16 8))

/-- Corrupt (R433): the byte, or the last, XORed with PAT. -/
def Dev.fiCorrupt (d : Dev) (i : Nat) (x : FiUnit) : FiUnit :=
  let b := x.pkt.bytes
  let k := min (d.get (fiF i 0 24 8)) (b.length - 1)
  { x with pkt := { x.pkt with bytes := b.modify k (· ^^^ BitVec.ofNat 8 (d.get (fiF i 0 16 8))) } }

/-- A held unit as it goes on after a follower: a received cell is then at the follower's place (R124, R434). -/
def FiUnit.behind (h : FiUnit) (i dir place : Nat) : FiUnit := if 96 ≤ i ∧ i < 160 ∧ dir = 0 then { h with b := place } else h

/-- A unit that passes on; a held one of its direction follows it once K units have gone by (R433). -/
def Dev.fiFollow (d : Dev) (i dir : Nat) (x : FiUnit) : Dev × List FiUnit :=
  match (d.inj i).held with
  | none => (d, [x])
  | some h =>
    if (d.inj i).dir ≠ dir then (d, [x])
    else if d.get (fiF i 0 8 4) ≤ (d.inj i).after + 1 then
      ((d.setInj i fun j => { j with held := none, after := 0 }).set (fiF i 0x14 1 1) 0, [x, h.behind i dir x.b])
    else (d.setInj i fun j => { j with after := j.after + 1, place := x.b }, [x])

/-- What an injector makes of a unit in direction `dir`: the units that go on, in order (R432, R433). -/
def Dev.fiPass (d : Dev) (i dir : Nat) (idle : Bool) (x : FiUnit) : Dev × List FiUnit :=
  if d.flag (fiF i 0 6 1) && idle then (d, [x])
  else if !d.flag (fiF i 0x14 0 1) || d.get (fiF i 0 1 1) ≠ dir then d.fiFollow i dir x
  else
    let j := d.inj i
    let g := fiGen j.gen
    let d1 := d.setInj i fun j => { j with u := j.u + 1, gen := g }
    if !d.fiSelects i j.u g then d1.fiFollow i dir x
    else
      let act := d.get (fiF i 0 2 2)
      let d2 := (d1.setInj i fun j => { j with sel := j.sel + 1 }).when (j.sel == 0) fun d => d.fiEvent i 0xFC
      let r : Dev × List FiUnit :=
        if act = 0 then ((d2.freeBufs x.bufs x.agent).count (fiF i 0x18 0 32) 1, [])
        else if act = 1 then ((d2.count (fiF i 0x18 0 32) 1).fiFollow i dir (d.fiCorrupt i x))
        else if j.held.isSome then ((d2.count (fiF i 0x14 16 16) 1).fiFollow i dir x)
        else (((d2.count (fiF i 0x18 0 32) 1).setInj i fun j => { j with held := some x, dir := dir, after := 0 }).set (fiF i 0x14 1 1) 1, [])
      let lim := d.get (fiF i 0x10 0 32)
      (r.1.when (lim != 0 && decide (lim ≤ j.sel + 1)) fun d => (d.fiOff i).fiEvent i 0xFD, r.2)

/-- A unit through an injector and on to its next stage. -/
def Dev.through (d : Dev) (i dir : Nat) (idle : Bool) (x : FiUnit) (next : Dev → FiUnit → Dev) : Dev :=
  let r := d.fiPass i dir idle x
  r.1.each r.2 next

end Sys2Proof.Machine
end

