-- ==== Sys2Proof/Machine/Table.lean ====
section
/-!
DEFINITION. The exact-match table, ageing and learning: R237 to R246 of 08_packet_classification. A command of the
table engine is carried out in one step with its write, or with BUSY 1 after the learn requests that arrived before it.
-/

namespace Sys2Proof.Machine

def Dev.setPkt (d : Dev) (f : PktSt → PktSt) : Dev := { d with pkt := f d.pkt }

/-! ### Slots (R237, R238) -/

/-- The place of stash entry `i` among the slots. -/
def stashAt (i : Nat) : Nat := 2 ^ 21 + i

def Dev.slot (d : Dev) (i : Nat) : Option Entry := Tbl.get none d.pkt.slots i

/-- ENT and USED as the slots give them; STASH_HIGH when USED reaches THR (R246). -/
def Dev.occupancy (d : Dev) : Dev :=
  let used := (d.pkt.slots.filter fun x => decide (2 ^ 21 ≤ x.1)).length
  let was := d.get F.pktEmtStashUsed
  let thr := d.get F.pktEmtStashThr
  ((d.set F.pktEmtOccEnt d.pkt.slots.length).set F.pktEmtStashUsed used).when (decide (was < thr) && decide (thr ≤ used)) fun d =>
    d.raise 0xD7 [R.pktEmtStash]

def Dev.setSlot (d : Dev) (i : Nat) (e : Option Entry) : Dev :=
  (d.setPkt fun p => { p with slots := Tbl.set none p.slots i e }).occupancy

/-- A slot is emptied or rewritten: a hold on it ends (R245). -/
def Dev.unhold (d : Dev) (i : Nat) : Dev := d.setPkt fun p => { p with hold := p.hold.filter (·.1 != i) }

/-- The bytes the hashes run over: partition, key bytes (R238). -/
def hashInput (part key : Nat) : List Byte := BitVec.ofNat 8 part :: beBytes 16 key

/-- The bucket of a key in a subtable, as slot index of its slot 0 (R238). -/
def Dev.bucketOf (d : Dev) (sub part key : Nat) : Nat :=
  let h := if sub = 0 then crc32c (d.get F.pktEmtSeed0Seed) (hashInput part key) else crc32 (d.get F.pktEmtSeed1Seed) (hashInput part key)
  sub * 2 ^ 20 + 4 * (d.get (F.pktEmtPartBase part) + h % 2 ^ d.get (F.pktEmtPartSize part))

/-- A slot holds the key. -/
def Dev.holds (d : Dev) (part key i : Nat) : Bool :=
  match d.slot i with
  | some e => e.part == part && e.key == key
  | none => false

/-- The slots a key may stand in: both buckets, then the stash. -/
def Dev.placesOf (d : Dev) (part key : Nat) : List Nat :=
  ((List.range 4).map (d.bucketOf 0 part key + ·)) ++ ((List.range 4).map (d.bucketOf 1 part key + ·)) ++ (List.range 64).map stashAt

/-- The slot where a key is found; of two copies the lower index (R239). -/
def Dev.findKey (d : Dev) (part key : Nat) : Option Nat :=
  if d.flag (F.pktEmtPartEn part) then (d.placesOf part key).find? (d.holds part key) else none

/-- The lowest free slot of a bucket. -/
def Dev.freeIn (d : Dev) (b : Nat) : Option Nat := ((List.range 4).map (b + ·)).find? fun i => (d.slot i).isNone

/-- The lowest free stash entry. -/
def Dev.freeStash (d : Dev) : Option Nat := ((List.range 64).map stashAt).find? fun i => (d.slot i).isNone

/-- The path of R240: the victims' slots in order and the free slot that ends it, none after 16 moves. -/
def Dev.cuckooPath (d : Dev) : Nat → Nat → Nat → List Nat → List Nat × Option Nat
  | 0, _, _, acc => (acc.reverse, none)
  | f + 1, moves, b, acc =>
    let v := b + moves % 4
    match d.slot v with
    | none => (acc.reverse, some v)
    | some e =>
      let nb := d.bucketOf (if b < 2 ^ 20 then 1 else 0) e.part e.key
      match d.freeIn nb with
      | some i => ((v :: acc).reverse, some i)
      | none => d.cuckooPath f (moves + 1) nb (v :: acc)

/-- The path without the moves between two visits to one slot: carried out whole they would put an entry into a bucket that is
not its own, and R240 keeps every entry findable. -/
def cutPath : List Nat → List Nat
  | [] => []
  | v :: t => let r := cutPath t; if r.contains v then r.dropWhile (· != v) else v :: r

/-- The moves carried out from the last: each victim goes to the slot after it (R240). -/
def Dev.moveChain (d : Dev) : List Nat → Nat → Dev
  | [], _ => d
  | v :: t, dst =>
    let d1 := d.moveChain t dst
    let place := t.headD dst
    let e := d1.slot v
    (((d1.setSlot place e).setSlot v none)).setPkt fun p => { p with hold := p.hold.map fun h => if h.1 = v then (place, h.2) else h }

/-- INSERT (R240): the device, STATUS, MOVES and the slot taken. -/
def Dev.tableInsert (d : Dev) (e : Entry) : Dev × Nat × Nat × Option Nat :=
  let b0 := d.bucketOf 0 e.part e.key
  let b1 := d.bucketOf 1 e.part e.key
  if (d.findKey e.part e.key).isSome then (d, 4, 0, none)
  else match d.freeIn b0, d.freeIn b1 with
  | some i, _ => (d.setSlot i (some e), 0, 0, some i)
  | none, some i => (d.setSlot i (some e), 0, 0, some i)
  | none, none =>
    match d.cuckooPath 16 0 b0 [] with
    | (path, some i) =>
      let at_ := path.headD b0
      ((d.moveChain (cutPath path) i).setSlot at_ (some e), 1, path.length, some at_)
    | (path, none) =>
      match d.freeStash with
      | some i =>
        let at_ := path.headD b0
        ((d.moveChain (cutPath path) i).setSlot at_ (some e), 2, path.length, some at_)
      | none => (d, 5, 0, none)

/-- After every deletion a stash entry with a free slot in one of its buckets goes there (R240). -/
def Dev.replaceStash (d : Dev) : Dev :=
  d.each ((List.range 64).map stashAt) fun d i =>
    match d.slot i with
    | none => d
    | some e =>
      match d.freeIn (d.bucketOf 0 e.part e.key), d.freeIn (d.bucketOf 1 e.part e.key) with
      | some j, _ => d.moveChain [i] j
      | none, some j => d.moveChain [i] j
      | none, none => d

/-- A deletion (R240, R245). -/
def Dev.deleteSlot (d : Dev) (i : Nat) : Dev := ((d.setSlot i none).unhold i).replaceStash

/-! ### Commands (R241) -/

/-- The key of the KEY registers, bytes 0 to 15 big-endian. -/
def Dev.emtKey (d : Dev) : Nat := (List.range 4).foldl (fun n w => n * 2 ^ 32 + d.get (F.pktEmtKeyKey w)) 0

/-- RES without HB. -/
def Dev.emtRes (d : Dev) : Nat := (d.reg R.pktEmtRes).toNat % 2 ^ 30

/-- An entry in the output registers, zero for none. -/
def Dev.emtShow (d : Dev) (e : Option Entry) : Dev :=
  let x := e.getD ⟨0, 0, 0, 0, false⟩
  (((d.each (List.range 4) fun d w => d.set (F.pktEmtKeyKey w) (x.key / 2 ^ (32 * (3 - w)))).setReg R.pktEmtRes
    (BitVec.ofNat 32 (x.res + (if x.hb then 2 ^ 30 else 0)))).set F.pktEmtAgeAge x.stamp).set F.pktEmtAgePart x.part

/-- The index registers set to a slot. -/
def Dev.emtIdx (d : Dev) (i : Nat) : Dev :=
  if i < 2 ^ 21 then (d.set F.pktEmtIdxIndex i).set F.pktEmtIdxStash 0
  else (d.set F.pktEmtIdxIndex (i - 2 ^ 21)).set F.pktEmtIdxStash 1

/-- The slot the index registers name. -/
def Dev.emtSlot (d : Dev) : Nat :=
  if d.flag F.pktEmtIdxStash then stashAt (d.get F.pktEmtIdxIndex % 64) else d.get F.pktEmtIdxIndex

/-- The ager runs after each advance of EPOCH (R242). -/
def Dev.epochAdvance (d : Dev) : Dev :=
  (d.set F.pktEmtEpochEpoch (d.get F.pktEmtEpochEpoch + 1)).when (d.flag F.pktEmtAgecfgAgeen) fun d =>
    d.setPkt fun p => if p.ager then { p with agerAgain := true } else { p with ager := true }

/-- An uncorrectable error read in a slot: its entry, if it holds one, is gone (R246). -/
def Dev.slotEcc (d : Dev) (i : Nat) : Dev :=
  ((d.when (d.slot i).isSome fun d => d.deleteSlot i).emtIdx i).raise 0xDD [R.pktEmtIdx]

/-- A table command carried out on the slot `at_` that its index named (R241): its STATUS and MOVES. -/
def Dev.tableCommand (d : Dev) (op at_ : Nat) : Dev × Nat × Nat :=
  let part := d.get F.pktEmtAgePart
  let key := d.emtKey
  let bad := !d.flag (F.pktEmtPartEn part)
  if op = 1 then
    if bad then (d, 8, 0)
    else
      let r := d.tableInsert ⟨part, key, d.emtRes, d.get F.pktEmtEpochEpoch, false⟩
      match r.2.2.2 with
      | some i => (r.1.emtIdx i, r.2.1, r.2.2.1)
      | none => (r.1.when (r.2.1 == 5) fun d => d.raise 0xD6 [R.pktEmtOcc, R.pktEmtStash], r.2.1, 0)
  else if op = 2 then
    if bad then (d, 8, 0) else match d.findKey part key with
      | some i => (d.deleteSlot i, 0, 0)
      | none => (d, 3, 0)
  else if op = 3 then
    if bad then (d, 8, 0) else match d.findKey part key with
      | some i =>
        let e := (d.slot i).getD ⟨part, key, 0, 0, false⟩
        (((d.setReg R.pktEmtRes (BitVec.ofNat 32 (e.res + (if e.hb then 2 ^ 30 else 0)))).set F.pktEmtAgeAge e.stamp).emtIdx i, 0, 0)
      | none => (d, 3, 0)
  else if op = 4 then
    match d.slot at_ with
    | some e => (d.emtShow (some e), 0, 0)
    | none => (d.emtShow none, 9, 0)
  else if op = 5 then
    if bad then (d, 8, 0)
    else
      let i := at_
      if !((d.placesOf part key).contains i) then (d, 7, 0)
      else match d.findKey part key with
        | some j => if j = i then ((d.setSlot i (some ⟨part, key, d.emtRes, d.get F.pktEmtAgeAge, false⟩)).unhold i, 0, 0) else (d, 4, 0)
        | none => ((d.setSlot i (some ⟨part, key, d.emtRes, d.get F.pktEmtAgeAge, false⟩)).unhold i, 0, 0)
  else if op = 6 then
    if bad then (d, 8, 0) else match d.findKey part key with
      | some i =>
        if ((d.slot i).map (·.stamp)).getD 0 = d.get F.pktEmtAgeAge then (d.deleteSlot i, 0, 0) else (d, 6, 0)
      | none => (d, 3, 0)
  else
    let d1 := d.epochAdvance
    (d1.set F.pktEmtAgeAge (d1.get F.pktEmtEpochEpoch), 0, 0)

/-- The write of PKT_EMT_CMD (R241): an error code, 0 for none. -/
def emtCheck (v : Word) : Nat :=
  let op := F.pktEmtCmdOp.of v
  if op = 0 ∨ 8 ≤ op then 9 else 0

/-- A command carried out by the table engine on the slot its index named, after the errors it reads, and its completion (R241, R246). -/
def Dev.emtRun (d : Dev) (op at_ : Nat) (even : Bool) (bad : List Nat) : Dev :=
  let r := (d.each bad fun d i => d.slotEcc i).tableCommand op at_
  let d1 := (r.1.set F.pktEmtStatStatus r.2.1).when (op == 1) fun d => d.set F.pktEmtStatMoves r.2.2
  d1.when even fun d => d.raise 0xD8 [R.pktEmtStat]

/-- The deletions of an ager pass, one CAD after another with the stamp read, and the end of the pass (R242). -/
def Dev.agerRun (d : Dev) (dead : List (Nat × Nat × Nat)) : Dev :=
  let r := dead.foldl (fun (a : Dev × Nat) x => match a.1.findKey x.1 x.2.1 with
    | some i => if (a.1.slot i).map (·.stamp) = some x.2.2 then (a.1.deleteSlot i, a.2 + 1) else a
    | none => a) (d, 0)
  let d1 := (r.1.setPkt fun p => { p with ager := p.agerAgain && d.flag F.pktEmtAgecfgAgeen, agerAgain := false }).count F.pktEmtEpochAged r.2
  d1.raise 0xDC [R.pktEmtEpoch]

/-- Work of the table engine carried out (R239). -/
def Dev.emtDo (d : Dev) (j : EmtJob) : Dev :=
  match j.ager with
  | some l => d.agerRun l
  | none => (d.set F.pktEmtStatBusy 0).emtRun j.op j.at_ j.even j.bad

/-- Work that arrives: carried out at once, or after the learn requests that arrived before it (R239). -/
def Dev.emtOffer (d : Dev) (j : EmtJob) : Dev :=
  if d.pkt.lrnQ.isEmpty then d.emtDo j
  else (d.setPkt fun p => { p with emtQ := p.emtQ ++ [{ j with before := p.lrnQ.length }] }).when j.ager.isNone fun d => d.set F.pktEmtStatBusy 1

/-- An accepted GO (R239, R241): a command behind learn requests waits for them with BUSY 1. -/
def Dev.emtGo (d : Dev) (v : Word) : Dev :=
  d.when (F.pktEmtCmdGo.of v != 0) fun d =>
    (d.setPkt fun p => { p with badSlots := [] }).emtOffer
      { before := 0, op := F.pktEmtCmdOp.of v, even := F.pktEmtCmdEven.of v == 1, at_ := d.emtSlot, bad := d.pkt.badSlots }

/-- A learn request is done: the work that waited for it as the last of those before it is carried out, in its order (R239). -/
def Dev.emtNext (d : Dev) : Dev :=
  let q := d.pkt.emtQ.map fun j => { j with before := j.before - 1 }
  (d.setPkt fun p => { p with emtQ := q.filter fun j => j.before != 0 }).each (q.filter fun j => j.before == 0) fun d j => d.emtDo j

/-! ### Ageing (R242) -/

/-- EPOCH_ADVANCE (R242): every EPOCHMS ms. -/
def execEpochAdvance (s : State) : Host.Outcome State Fault Refusal := s.run fun _ d =>
  d.when (d.cordOn 8 && d.get F.pktEmtAgecfgEpochms != 0) fun d => d.epochAdvance

/-- An entry is STATIC. -/
def Entry.static (e : Entry) : Bool := e.res.testBit 29

/-- The SRC of an entry. -/
def Entry.port (e : Entry) : Nat := e.res / 2 ^ 21 % 128

/-- AGER_PASS_END (R239, R242, R246): the scan of the pass is done, and its deletions go to the table engine; `bad` are slots in which it
read an uncorrectable error. -/
def execAgerPassEnd (bad : List Nat) (s : State) : Host.Outcome State Fault Refusal := s.run fun _ d0 =>
  if !d0.pkt.ager || d0.pkt.emtQ.any (·.ager.isSome) then d0
  else
    let d := d0.each bad fun d i => d.slotEcc i
    let old (e : Entry) : Bool := !e.static && decide (d.get F.pktEmtAgecfgAgemax ≤ unsignedOf 16 ((d.get F.pktEmtEpochEpoch : Int) - (e.stamp : Nat)))
    let dead := d.pkt.slots.filterMap fun x => match x.2 with
      | some e => if old e then some (e.part, e.key, e.stamp) else none
      | none => none
    d.emtOffer { before := 0, ager := some dead }

/-! ### Learning (R244, R245) -/

/-- A learn request offered to the queue (R244). -/
def Dev.postLearn (d : Dev) (r : LrnReq) : Dev :=
  if 4096 ≤ d.pkt.lrnQ.length then (d.count F.pktLrnCntQfull 1).raise 0xDA [R.pktLrnCnt]
  else d.setPkt fun p => { p with lrnQ := p.lrnQ ++ [r] }

/-- A slot enters the hold list with its HB set, for HOLD × 0.1 ms (R245). -/
def Dev.enterHold (d : Dev) (i : Nat) : Dev :=
  let d1 := d.setSlot i ((d.slot i).map fun e => { e with hb := true })
  d1.setPkt fun p => { p with hold := p.hold.filter (·.1 != i) ++ [(i, d.time.ticks + 62500 * d.get F.pktLrnCfgHold)] }

/-- The result word of an entry that learning made or moved: LRN 1, STATIC 0 (R245, PKT_EMT_RES). -/
def learnRes (queue cls port : Nat) : Nat := queue + cls * 2 ^ 13 + port * 2 ^ 21 + 2 ^ 28

/-- The head request of the learn queue, which waits while the hold list is full (R245). The model's choice (log 70): one whose partition
the image does not define leaves the queue with no count and no event. -/
def Dev.learnHead (d : Dev) : Dev :=
  match d.pkt.lrnQ with
  | [] => d
  | r :: t =>
    let full := decide (65536 ≤ d.pkt.hold.length)
    let taken := d.setPkt fun p => { p with lrnQ := t }
    let q := d.get (F.pktLrnPqQueue r.port)
    match d.findKey r.part r.key with
    | none =>
      if !d.flag (F.pktEmtPartEn r.part) then taken
      else if full then d
      else
        let x := taken.tableInsert ⟨r.part, r.key, learnRes q (d.get F.pktLrnCfgLrncls) r.port, d.get F.pktEmtEpochEpoch, false⟩
        match x.2.2.2 with
        | some i => x.1.enterHold i
        | none => x.1.raise 0xD6 [R.pktEmtOcc, R.pktEmtStash]
    | some i =>
      match d.slot i with
      | none => taken
      | some e =>
        if e.port = r.port then taken.count F.pktLrnCntDup 1
        else if e.static then (taken.count F.pktLrnCntStaticmv 1).raise 0xDB [R.pktLrnCnt]
        else if e.hb then (taken.count F.pktLrnCntFlap 1).raise 0xD9 [R.pktLrnCnt]
        else if full then d
        else
          (taken.setSlot i (some { e with res := learnRes q (e.res / 2 ^ 13 % 256) r.port, stamp := d.get F.pktEmtEpochEpoch })).enterHold i

/-- The table engine takes the head request, then the work that waited for it; a head that finds the hold list full waits
on with the requests behind it (R239, R245). -/
def Dev.takeLearn (d : Dev) : Dev :=
  let d1 := d.learnHead
  if d1.pkt.lrnQ.length < d.pkt.lrnQ.length then d1.emtNext.setPkt fun p => { p with lrnWait := false }
  else d1.setPkt fun p => { p with lrnWait := !p.lrnQ.isEmpty }

/-- LEARN_REQUEST (R239, R245, R246): the head request; `bad` are slots in which the request reads an uncorrectable error. -/
def execLearnRequest (bad : List Nat) (s : State) : Host.Outcome State Fault Refusal := s.run fun _ d0 =>
  (d0.when (!d0.pkt.lrnQ.isEmpty) fun d => d.each bad fun d i => d.slotEcc i).takeLearn

/-- The hold that ends first; HOLD may have changed since an older one entered. -/
def nextHold : List (Nat × Nat) → Option (Nat × Nat)
  | [] => none
  | x :: t => match nextHold t with
    | some y => if y.2 < x.2 then some y else some x
    | none => some x

/-- HOLD_EXPIRE (R245): the hold that ends first is over, and a head request that waits for room in the hold list goes on. -/
def execHoldExpire (s : State) : Host.Outcome State Fault Refusal := s.run fun _ d =>
  match nextHold d.pkt.hold with
  | none => d
  | some x =>
    let d1 := (d.setSlot x.1 ((d.slot x.1).map fun e => { e with hb := false })).setPkt fun p => { p with hold := p.hold.erase x }
    d1.when d1.pkt.lrnWait Dev.takeLearn

end Sys2Proof.Machine
end

