-- ==== Sys2Proof/Machine/Packet.lean ====
section
/-!
DEFINITION. Spreading, parsing, classification: R221 to R236 of 08_packet_classification.
-/

namespace Sys2Proof.Machine

/-! ### Links and spreading (R11, R221 to R224) -/

/-- A unit waits at a link end: 0 and 1 DLP, 2 DHA, 3 DHB, 4 PCI. -/
def Dev.linkPush (d : Dev) (k : Nat) (p : Pkt) : Dev :=
  d.setPkt fun x => { x with links := Tbl.modify [] x.links k (· ++ [p]) }

/-- A unit that its link end does not accept is discarded whole, and counted by the cord that sends while that one is on (R11). -/
def Dev.linkDrop (d : Dev) (k : Nat) (p : Pkt) : Dev :=
  if k < 2 then d.when (d.cordOn (6 + k)) fun d => (d.count (F.lfCellDlpdropDlpdrop k) 1).raise (0x6C + k) [R.lfCellDlpdrop k]
  else if k < 4 then d.when (d.cordOn (8 + k)) fun d => (d.count (F.hsMacDhdropCount p.src) 1).raise 0xCF [R.hsMacDhdrop p.src]
  else d.when (d.cordOn 12) fun d => d.count (F.pciTxgDropTodrop p.srcn) 1

/-- A unit at the PKT end of a link: it waits there, or is discarded while PKT carries no traffic (R11, R14). -/
def Dev.linkIn (d : Dev) (k : Nat) (p : Pkt) : Dev := if d.trafficOk 8 then d.linkPush k p else d.linkDrop k p

/-- A tag's TPID at byte 12. The model's choice (log 70): a packet of 14 or 15 bytes, which has no whole tag, loses none. -/
def tagAt (b : List Byte) : Option Bool :=
  if b.length < 16 then none
  else if beAt b 12 2 = 0x8100 then some false else if beAt b 12 2 = 0x88A8 then some true else none

/-- Up to two 802.1Q tags moved from byte 12 into the metadata (R221, R281). -/
def stripTags (p : Pkt) : Pkt :=
  match tagAt p.bytes with
  | none => p
  | some t0 =>
    let o := beAt p.bytes 14 2
    let b1 := p.bytes.take 12 ++ p.bytes.drop 16
    match tagAt b1 with
    | none => { p with bytes := b1, tagn := 1, otpid := t0, otag := o }
    | some t1 => { p with bytes := b1.take 12 ++ b1.drop 16, tagn := 2, otpid := t0, otag := o, itpid := t1, itag := beAt b1 14 2 }

/-- A tag's four bytes. -/
def tagBytes (tpid : Bool) (tag : Nat) : List Byte := beBytes 2 (if tpid then 0x88A8 else 0x8100) ++ beBytes 2 tag

/-- The tags of the metadata written back at byte 12, outer first (R221, R283). -/
def withTags (p : Pkt) : List Byte :=
  p.bytes.take 12 ++ (if 1 ≤ p.tagn then tagBytes p.otpid p.otag else []) ++ (if 2 ≤ p.tagn then tagBytes p.itpid p.itag else [])
    ++ p.bytes.drop 12

/-- SRCT of a source (R229). -/
def srctOf (src : Nat) : Nat := if src < 96 then 0 else if src < 128 then 1 else if src < 160 then 2 else 3

/-- Byte `i` of a packet, 0 past its end. -/
def Pkt.byte (p : Pkt) (i : Nat) : Nat := (p.bytes.getD i 0).toNat

/-- Four byte offsets of six bits in a register word. -/
def fourOffsets (v : Word) : List Nat := (List.range 4).map fun j => v.toNat / 2 ^ (8 * j) % 64

/-- The spread hash of a packet (R222). -/
def Dev.spreadHash (d : Dev) (p : Pkt) : Nat :=
  let prof := d.get (F.pktPrsSrcProf p.src)
  let ofs := fourOffsets (d.reg (R.pktPrsProfSpr prof 0)) ++ fourOffsets (d.reg (R.pktPrsProfSpr prof 1))
  let input := beBytes 1 (srctOf p.src) ++ beBytes 3 p.srcn ++ ofs.map fun o => BitVec.ofNat 8 (p.byte o)
  crc32c (d.get F.pktSprCfgSeed) input

/-- The map entry of a packet (R222). -/
def Dev.spreadEntry (d : Dev) (p : Pkt) : Nat := d.spreadHash p % 256

/-- PACKET_ARRIVAL (R14, R222 to R225): the unit that waits first at a link end; one whose map entry is held waits on, and one that waits
when PKT carries no traffic is discarded. -/
def execPacketArrival (k : Fin 5) (s : State) : Host.Outcome State Fault Refusal := s.run fun _ d =>
  match Tbl.get [] d.pkt.links k with
  | [] => d
  | raw :: rest => if !d.trafficOk 8 then d.when (d.cordOn 8) fun d => (d.setPkt fun x => { x with links := Tbl.set [] x.links k rest }).linkDrop k raw else
    let p1 : Pkt := if raw.tsport then raw else { stripTags raw with ts := ⟨d.time.ns, d.time.sub / 256⟩ }
    let p0 : Pkt := { p1 with hash := d.spreadHash p1 }
    let i := p0.hash % 256
    let waits := match d.pkt.run with
      | some r => r.held.contains i || (r.cur.isNone && r.pairs.isEmpty)
      | none => false
    if waits then d
    else
      let n := d.get (F.pktSprMapSlice i)
      let d1 := d.setPkt fun x => { x with links := Tbl.set [] x.links k rest }
      if 256 ≤ (Tbl.get [] d.pkt.stores n).length then (d1.count (F.pktSlcOvfCount n) 1).raise 0xD2 [R.pktSlcOvf n]
      else (d1.setPkt fun x => { x with stores := Tbl.modify [] x.stores n (· ++ [p0]) }).count (F.pktSlcPktsCount n) 1

/-! ### Parsing (R226 to R231) -/

/-- The active value of a template register (R227). -/
def Dev.tmpl (d : Dev) (a : Nat) : Word := Tbl.get (regReset a) d.pkt.tmpl a

/-- The template of a packet under its profile (R226). -/
def Dev.templateOf (d : Dev) (prof : Nat) (p : Pkt) : Nat :=
  let et := beAt p.bytes 12 2
  let hit := if p.bytes.length < 14 then none
    else (List.range 8).find? fun e => d.flag (F.pktPrsProfSelV prof e) && d.get (F.pktPrsProfSelEtype prof e) == et
  match hit with
  | some e => d.get (F.pktPrsProfSelTmpl prof e)
  | none => d.get (F.pktPrsProfCfgDeft prof)

/-- Extraction entry `j` of a template: its offset while valid (R228). -/
def Dev.extract (d : Dev) (t j : Nat) : Option Nat :=
  let v := (d.tmpl (R.pktPrsTmplOfs t (j / 4))).toNat / 2 ^ (8 * (j % 4))
  if v.testBit 7 then some (v % 64) else none

/-- Key byte `j` (R228). -/
def Dev.keyByte (d : Dev) (t : Nat) (p : Pkt) (j : Nat) : Nat :=
  match d.extract t j with
  | some o => p.byte o
  | none => 0

/-- A 128-bit key made of 16 key bytes named by four index registers (R228). -/
def Dev.indexed (d : Dev) (t : Nat) (p : Pkt) (regs : Nat → Nat) : Nat :=
  (List.range 16).foldl (fun n j =>
    let v := (d.tmpl (regs (j / 4))).toNat / 2 ^ (8 * (j % 4)) % 64
    n * 256 + (if v < 48 then d.keyByte t p v else 0)) 0

/-- The check that fails first, 0 for none (R230). -/
def Dev.parseCheck (d : Dev) (t : Nat) (p : Pkt) : Nat :=
  let len := p.bytes.length
  let cfg := d.tmpl (R.pktPrsTmplCfg t)
  let kind := (F.pktPrsTmplCfgKind t).of cfg
  let l4 := (F.pktPrsTmplCfgL4len t).of cfg
  let top := (List.range 48).foldl (fun m j => match d.extract t j with
    | some o => max m (o + 1)
    | none => m) 0
  let ver := p.byte 14 / 16
  let ihl := p.byte 14 % 16
  let tl := p.byte 16 * 256 + p.byte 17
  let pl := p.byte 18 * 256 + p.byte 19
  let he := if kind = 1 then 14 + 4 * ihl + l4 else 54 + l4
  let et := beAt p.bytes 12 2
  if et = 0x8100 ∨ et = 0x88A8 then 1
  else if len < top then 2
  else if kind = 0 ∨ kind = 3 then 0
  else if kind = 1 ∧ (ver ≠ 4 ∨ ihl < 5) ∨ kind = 2 ∧ ver ≠ 6 then 3
  else if kind = 1 ∧ (tl < 4 * ihl ∨ len < tl + 14) ∨ kind = 2 ∧ len < pl + 54 then 4
  else if kind = 2 ∧ [0, 43, 44, 50, 51, 60, 135].contains (p.byte 20) ∧ 0 < l4 then 5
  else if 64 < he then 6
  else if len < he then 7
  else 0

/-- A check of the nesting class (R230). -/
def nesting (r : Nat) : Bool := r == 1 || r == 5 || r == 6

/-- The 480-bit key (R229). -/
def Dev.classKey (d : Dev) (t prof : Nat) (p : Pkt) : Nat :=
  let b (c : Bool) : Nat := if c then 1 else 0
  let bytes := (List.range 48).foldl (fun n j => n * 256 + d.keyByte t p j) 0
  let m := srctOf p.src * 2 ^ 94 + p.srcn % 2 ^ 20 * 2 ^ 74 + p.tagn * 2 ^ 72 + b p.otpid * 2 ^ 71 + b p.itpid * 2 ^ 70
    + p.otag * 2 ^ 54 + p.itag * 2 ^ 38 + t * 2 ^ 34 + prof * 2 ^ 30 + b p.mal * 2 ^ 29 + b p.nest * 2 ^ 28 + b p.emhit * 2 ^ 27
    + p.emcls * 2 ^ 19 + p.bytes.length % 2 ^ 14 * 2 ^ 5
  bytes * 2 ^ 96 + m

/-! ### Rules (R232, R235, R236) -/

def Dev.rule (d : Dev) (r : Nat) : Rule := Tbl.get {} d.pkt.rules r
def Dev.setRule (d : Dev) (r : Nat) (f : Rule → Rule) : Dev := d.setPkt fun p => { p with rules := Tbl.modify {} p.rules r f }

/-- What the first-match search reaches (R232, R236): a rule, and whether it is faulty. -/
def Dev.firstMatch (d : Dev) (key : Nat) : Option (Nat × Bool) :=
  (d.pkt.rules.find? fun x => x.2.faulty || (x.2.valid && (key &&& x.2.mask) == (x.2.key &&& x.2.mask))).map fun x => (x.1, x.2.faulty)

/-- The write of PKT_CLS_CMD (R235): an error code, 0 for none. -/
def clsCheck (v : Word) : Nat :=
  let op := F.pktClsCmdOp.of v
  if op = 0 ∨ 5 ≤ op ∨ 24576 ≤ F.pktClsCmdIdx.of v then 9 else 0

/-- Words of a staged item, word 0 least significant. -/
def Dev.staged (d : Dev) (n : Nat) (f : Nat → Fld) : Nat := (List.range n).foldl (fun a w => a + d.get (f w) * 2 ^ (32 * w)) 0
def Dev.setStaged (d : Dev) (n : Nat) (f : Nat → Fld) (x : Nat) : Dev := d.each (List.range n) fun d w => d.set (f w) (x / 2 ^ (32 * w))

/-- A rule in staging and the CNT registers. -/
def Dev.clsShow (d : Dev) (r : Rule) : Dev :=
  let d1 := ((d.setStaged 15 F.pktClsKeywBits (r.key &&& r.mask)).setStaged 15 F.pktClsMaskwBits r.mask).setStaged 4 F.pktClsActwBits r.act
  (((d1.set F.pktClsCntploCount r.cntP).set F.pktClsCntphiCount (r.cntP / 2 ^ 32)).set F.pktClsCntbloCount r.cntB).set
    F.pktClsCntbhiCount (r.cntB / 2 ^ 32)

/-- An accepted GO (R235); the command is complete in its step. -/
def Dev.clsGo (d : Dev) (v : Word) : Dev :=
  d.when (F.pktClsCmdGo.of v != 0) fun d =>
    let op := F.pktClsCmdOp.of v
    let i := F.pktClsCmdIdx.of v
    let r := d.rule i
    if op = 1 then
      (d.setRule i fun _ => ⟨d.staged 15 F.pktClsKeywBits, d.staged 15 F.pktClsMaskwBits, d.staged 4 F.pktClsActwBits, true, false, 0, 0⟩).set
        F.pktClsStatStatus 0
    else if op = 3 then (d.setRule i fun x => { x with valid := false }).set F.pktClsStatStatus 0
    else
      let st := if r.faulty then 2 else if r.valid then 0 else 1
      let d1 := (d.clsShow (if st = 0 then r else {})).set F.pktClsStatStatus st
      d1.when (op == 4) fun d => d.setRule i fun x => { x with cntP := 0, cntB := 0 }

/-- An uncorrectable error in a rule (R236). -/
def Dev.ruleEcc (d : Dev) (r : Nat) : Dev :=
  d.when (decide (r < 24576) && !(d.rule r).faulty) fun d =>
    ((d.setRule r fun x => { x with faulty := true }).set F.pktClsStatEccidx r).raise 0xDE [R.pktClsStat]

/-! ### Actions (R233, R234) -/

/-- A field of an action word. -/
def actF (a msb lsb : Nat) : Nat := a / 2 ^ lsb % 2 ^ (msb - lsb + 1)

/-- HDR of an action: the packet, and whether the action failed (R234 step 1). -/
def headerAction (a : Nat) (p : Pkt) : Pkt × Bool :=
  let h := actF a 121 120
  let tag := actF a 47 32
  let tp := a.testBit 31
  if h = 1 then
    if p.tagn = 0 then ({ p with tagn := 1, otpid := tp, otag := tag }, false)
    else if p.tagn = 1 then ({ p with tagn := 2, itpid := p.otpid, itag := p.otag, otpid := tp, otag := tag }, false)
    else (p, true)
  else if h = 2 then
    if p.tagn = 0 then (p, true)
    else if p.tagn = 1 then ({ p with tagn := 0, otpid := false, otag := 0 }, false)
    else ({ p with tagn := 1, otpid := p.itpid, otag := p.itag, itpid := false, itag := 0 }, false)
  else if h = 3 then
    if p.tagn = 0 then (p, true) else ({ p with otag := p.otag / 4096 * 4096 + tag % 4096 }, false)
  else (p, false)

/-- One 16-bit word of an IPv4 header changed in its checksum (RFC 1624 form). -/
def sumStep (c old new : Nat) : Nat :=
  let x := (65535 - c) + (65535 - old) + new
  let y := x % 65536 + x / 65536
  65535 - (y % 65536 + y / 65536)

/-- Bytes written at an offset. -/
def putBytes (b : List Byte) (o : Nat) (v : List Byte) : List Byte := b.take o ++ v ++ b.drop (o + v.length)

/-- RWEN of an action (R234 step 2): `ipOk` says checks 3 and 4 were made and passed on a KIND 1 packet. -/
def rewriteAction (a : Nat) (ipOk : Bool) (p : Pkt) : Pkt × Bool :=
  if !a.testBit 122 then (p, false)
  else
    let o := actF a 91 86
    let n := 2 ^ actF a 85 84
    let v := beBytes n (actF a 79 48)
    if p.bytes.length < o + n then (p, true)
    else
      let b1 := putBytes p.bytes o v
      let ihl := p.byte 14 % 16
      if ipOk && decide (14 ≤ o) && decide (o + n ≤ 14 + 4 * ihl) && (decide (o + n ≤ 24) || decide (26 ≤ o)) then
        let ws := (List.range (2 * ihl)).filter fun w => decide (o < 14 + 2 * w + 2) && decide (14 + 2 * w < o + n)
        let c := ws.foldl (fun c w => sumStep c (beAt p.bytes (14 + 2 * w) 2) (beAt b1 (14 + 2 * w) 2)) (beAt p.bytes 24 2)
        ({ p with bytes := putBytes b1 24 (beBytes 2 c) }, false)
      else ({ p with bytes := b1 }, false)

/-- The packet as it leaves PKT for a destination: towards the line its tags go back (R221). -/
def leaveForm (dst : Dest) (p : Pkt) : Pkt :=
  match dst with
  | .queue q => if q < 4096 then p else { p with bytes := withTags p, tagn := 0 }
  | .ring _ => p

/-- A decided packet waits for its queue or ring. -/
def Dev.decide_ (d : Dev) (dst : Dest) (p : Pkt) (n : Nat) : Dev :=
  d.setPkt fun x => { x with decided := x.decided ++ [⟨dst, leaveForm dst p, n⟩] }

/-- A packet joins the pending list of a receive ring (R336, R337): discarded at once where the ring is not in service, and counted while
its registers stand, which they do not with the cord off or PERST low (R473). -/
def Dev.ringPush (d : Dev) (r : Nat) (p : Pkt) (slice : Nat) : Dev × Bool :=
  if !d.cordOn 12 || d.pcie.perst then (d, false)
  else if !d.flag (F.pciRxgCfgEn r) || !d.released 12 then (d.count (F.pciRxgDropTodrop r) 1, false)
  else
    let pool := d.get (F.pciRxgCfgPool r)
    let len := p.bytes.length
    let n := if d.flag (F.bufPoolCfgKind pool) then 1 else (len + 2047) / 2048
    let c := d.get (F.bufSrcClsClass p.src)
    match d.allocBufs pool c n slice with
    | none => ((d.count (F.bufPclsFailFail (16 * pool + c)) 1).raise 0xE2 [R.bufPclsFail (16 * pool + c)], false)
    | some (d1, bs) =>
      ((d1.moveBufs bs slice 28).setPcie fun x => { x with rings := Tbl.modify {} x.rings r fun g => { g with pending := g.pending ++ [⟨p, bs, d.time.ticks⟩] } }, true)

/-- A mirror copy (R234 step 4). -/
def Dev.mirror (d : Dev) (m : Nat) (p : Pkt) (n : Nat) : Dev :=
  if !d.flag (F.pktClsMirrorEn m) then d
  else
    let dst := d.get (F.pktClsMirrorDest m)
    let r := if d.flag (F.pktClsMirrorKind m) then d.ringPush (dst % 2048) p n
      else d.enqueue dst (leaveForm (.queue dst) p) n
    if r.2 then r.1 else (r.1.count F.pktClsErrMirdrop 1).raise 0xD5 [R.pktClsErr]

/-- The actions of a word on a packet (R234): `rule` counts when it is the word's own. -/
def Dev.applyAction (d : Dev) (a : Nat) (rule : Option Nat) (ipOk : Bool) (emq : Option Nat) (p : Pkt) (n : Nat) : Dev :=
  let h := headerAction a p
  let pushBad := h.2 && actF a 121 120 == 1
  let d1 := d.when h.2 fun d => (d.count F.pktClsErrHdrfail 1).raise 0xD3 [R.pktClsErr]
  let w := rewriteAction a ipOk h.1
  let d2 := d1.when w.2 fun d => (d.count F.pktClsErrRwfail 1).raise 0xD4 [R.pktClsErr]
  let q := w.1
  let d3 := match rule with
    | some r => d2.when (a.testBit 124) fun d => d.setRule r fun x =>
        { x with cntP := min (x.cntP + 1) (2 ^ 64 - 1), cntB := min (x.cntB + q.bytes.length) (2 ^ 64 - 1) }
    | none => d2
  let d4 := d3.when (a.testBit 123) fun d => d.mirror (actF a 95 92) q n
  if a.testBit 127 || pushBad then d4
  else if a.testBit 126 then d4.decide_ (.ring (actF a 119 109)) q n
  else
    let dst := if a.testBit 125 then actF a 108 96 else emq.getD (d.get (F.pktPrsSrcDefq p.src))
    d4.decide_ (.queue dst) q n

/-- The search, the classifier and the actions of a packet whose key is formed. -/
def Dev.classify (d : Dev) (t prof : Nat) (ipOk : Bool) (emq : Option Nat) (p : Pkt) (n : Nat) : Dev :=
  match d.firstMatch (d.classKey t prof p) with
  | some (_, true) => d.count F.pktClsErrFaulty 1
  | some (r, false) => d.applyAction (d.rule r).act (some r) ipOk emq p n
  | none => d.applyAction (d.staged 4 F.pktClsDefactBits) none ipOk emq p n

/-- The lookups of a packet (R238, R244): the device, the entry hit by the lookup key. -/
def Dev.lookups (d : Dev) (t : Nat) (p : Pkt) : Dev × Option Entry :=
  let cfg := d.tmpl (R.pktPrsTmplCfg t)
  let part := (F.pktPrsTmplCfgEmpart t).of cfg
  let touch (d : Dev) (i : Nat) : Dev := match d.slot i with
    | some e => if e.static then d else d.setSlot i (some { e with stamp := d.get F.pktEmtEpochEpoch })
    | none => d
  let hit := d.findKey part (d.indexed t p (R.pktPrsTmplDkey t))
  let d1 := match hit with
    | some i => touch d i
    | none => d
  let ent := hit.bind d.slot
  let learns := decide (p.src < 96) && d.flag (F.pktLrnPqEn p.src) && (F.pktPrsTmplCfgLrnen t).of cfg == 1 && !p.mal && !p.nest
  if !learns then (d1, ent)
  else
    let sk := d.indexed t p (R.pktPrsTmplSkey t)
    match d1.findKey part sk with
    | some i =>
      let e := d1.slot i
      let d2 := touch d1 i
      if (e.map Entry.port) = some p.src then (d2, ent) else (d2.postLearn ⟨sk, part, p.src⟩, ent)
    | none => (d1.postLearn ⟨sk, part, p.src⟩, ent)

/-- SLICE_PROCESS (R226 to R236): the packet that waits first in slice `n`; rules and table slots in which an
uncorrectable error is read come as operands. -/
def execSliceProcess (n : Fin 24) (badRules : List Nat) (badSlots : List Nat) (s : State) : Host.Outcome State Fault Refusal :=
  s.run fun _ d =>
    match (if d.trafficOk 8 then Tbl.get [] d.pkt.stores n else []) with
    | [] => d
    | p0 :: rest =>
      let d0 := d.setPkt fun x => { x with stores := Tbl.set [] x.stores n rest }
      let d1 := (d0.each badRules fun d r => d.ruleEcc r).each badSlots fun d i => d.slotEcc i
      let prof := d.get (F.pktPrsSrcProf p0.src)
      let t := d1.templateOf prof p0
      let r := d1.parseCheck t p0
      let nest := nesting r
      let act := if nest then d1.get F.pktPrsActNestact else d1.get F.pktPrsActMalact
      let d2 := d1.when (r != 0) fun d => (d.count (F.pktPrsRcntCount r) 1).raise (if nest then 0xD1 else 0xD0) [R.pktPrsRcnt r]
      if r ≠ 0 ∧ act = 0 then d2
      else if r ≠ 0 ∧ act = 2 then
        d2.decide_ (.ring (if nest then d1.get F.pktPrsActNestring else d1.get F.pktPrsActMalring)) { p0 with mal := !nest, nest := nest } n
      else
        let p1 := { p0 with mal := r != 0 && !nest, nest := r != 0 && nest }
        let l := d2.lookups t p1
        let p2 := { p1 with emhit := l.2.isSome, emcls := ((l.2.map fun e => e.res / 2 ^ 13 % 256)).getD 0 }
        let ipOk := (F.pktPrsTmplCfgKind t).of (d1.tmpl (R.pktPrsTmplCfg t)) == 1 && (r == 0 || decide (5 ≤ r))
        l.1.classify t prof ipOk (l.2.map fun e => e.res % 2 ^ 13) p2 n

/-- The packet bound for a queue, or else for a ring, that leaves PKT next: no packet of its source and spread hash was decided before
it (R223). -/
def Dev.nextDecided (d : Dev) (toQueue : Bool) : Option Decided :=
  if !d.trafficOk 8 then none
  else ((d.pkt.decided.zipIdx.find? fun x =>
    (match x.1.dest with
      | .queue _ => toQueue
      | .ring _ => !toQueue) &&
    !(d.pkt.decided.take x.2).any fun y => y.pkt.src == x.1.pkt.src && y.pkt.hash == x.1.pkt.hash).map (·.1))

/-- QUEUE_ENQUEUE (R223, R259): the first decided packet bound for a queue that its order lets go. -/
def execQueueEnqueue (s : State) : Host.Outcome State Fault Refusal := s.run fun _ d =>
  match d.nextDecided true with
  | some ⟨.queue q, p, n⟩ =>
    (((d.setPkt fun x => { x with decided := x.decided.erase ⟨.queue q, p, n⟩ })).enqueue q p n).1
  | _ => d

/-- RXG_PACKET (R223, R336, R337): the first decided packet bound for a ring that its order lets go. -/
def execRxgPacket (s : State) : Host.Outcome State Fault Refusal := s.run fun _ d =>
  match d.nextDecided false with
  | some ⟨.ring r, p, n⟩ =>
    (((d.setPkt fun x => { x with decided := x.decided.erase ⟨.ring r, p, n⟩ })).ringPush r p n).1
  | _ => d

/-! ### Templates (R227) -/

/-- The registers of a template, by address. -/
def tmplRegs (t : Nat) : List Nat :=
  R.pktPrsTmplCfg t :: ((List.range 12).map (R.pktPrsTmplOfs t) ++ (List.range 4).map (R.pktPrsTmplDkey t) ++ (List.range 4).map (R.pktPrsTmplSkey t))

/-- A commit of the templates of a mask, complete in its step (R227). -/
def Dev.tmplGo (d : Dev) (v : Word) : Dev :=
  d.when (F.pktPrsTcommitGo.of v != 0) fun d =>
    (d.each (maskBits 16 (F.pktPrsTcommitTmask.of v)) fun d t =>
      d.each (tmplRegs t) fun d a => d.setPkt fun x => { x with tmpl := Tbl.set (regReset a) x.tmpl a (d.reg a) }).raise 0xDF [R.pktPrsTcommit]

end Sys2Proof.Machine
end

