-- ==== Sys2Proof/Machine/Mac.lean ====
section
/-!
DEFINITION. MAC ports: 10_mac_ports. Parking stands with the lanes it starts; the commands of the scheduler in Sched.
-/

namespace Sys2Proof.Machine

def Dev.mac (d : Dev) (p : Nat) : Mac := Tbl.get {} d.macs p
def Dev.setMac (d : Dev) (p : Nat) (f : Mac → Mac) : Dev := { d with macs := Tbl.modify {} d.macs p f }

/-- The HS cord of a port or lane. -/
def hsCord (p : Nat) : Nat := 10 + p / 48

/-- A port has its link up. -/
def Dev.linkUp (d : Dev) (p : Nat) : Bool := d.flag (F.hsMacBondLink p)

/-- The MAC rate of a port in Gb/s (R277). -/
def Dev.portRate (d : Dev) (p : Nat) : Nat :=
  d.get (F.hsMacBondLanes p) * ([0, 10, 25, 25, 50, 100].getD (d.get (F.hsMacBondLrate p)) 0)

/-! ### Links towards PKT -/

/-- A frame at DHA or DHB: through the link's injector, then waiting for PKT, or discarded under R11 (R280). -/
def Dev.dhSend (d : Dev) (p : Nat) (x : Pkt) : Dev :=
  if d.trafficOk 8 then d.through (162 + p / 48) 0 false { pkt := x, a := p } fun d u => d.linkIn (2 + p / 48) u.pkt
  else d.linkDrop (2 + p / 48) { x with src := p }

/-! ### Pause (R285 to R287) -/

/-- TXPAUSED and PFCSTOP as the timers give them. -/
def Dev.pauseStat (d : Dev) (p : Nat) : Dev :=
  let m := d.mac p
  (d.setFlag (F.hsMacFcstatTxpaused p) (m.pause != 0)).set (F.hsMacFcstatPfcstop p)
    ((List.range 8).foldl (fun n c => if Tbl.get 0 m.pfc c = 0 then n else setBit n c) 0)

/-- A loaded timer; MAC_PAUSED when one leaves 0. -/
def Dev.loadPause (d : Dev) (p : Nat) (c : Option Nat) (n : Nat) : Dev :=
  let m := d.mac p
  let was := match c with
    | none => m.pause
    | some c => Tbl.get 0 m.pfc c
  let d1 := (d.setMac p fun m => match c with
    | none => { m with pause := n }
    | some c => { m with pfc := Tbl.set 0 m.pfc c n }).pauseStat p
  d1.when (was == 0 && n != 0) fun d => d.raise 0xC4 [R.hsMacFcstat p]

/-- A frame with EtherType 0x8808 (R285, R286). -/
def Dev.pauseRx (d : Dev) (p : Nat) (f : List Byte) : Dev :=
  let mode := d.get (F.hsMacFcMode p)
  let ok := beAt f 0 6 == 0x0180C2000001 && f.length == 64
  let op := beAt f 14 2
  if ok && op == 1 && mode == 1 then (d.count (F.hsMacPauserxCount p) 1).loadPause p none (beAt f 16 2)
  else if ok && op == 0x0101 && mode == 2 then
    let en := beAt f 16 2 &&& d.get (F.hsMacFcRxpfcen p)
    (d.count (F.hsMacPauserxCount p) 1).each (maskBits 8 en) fun d c => d.loadPause p (some c) (beAt f (18 + 2 * c) 2)
  else (d.count (F.hsMacCtrlunkCount p) 1).raise 0xCD [R.hsMacCtrlunk p]

/-- PAUSE_TIMER_EXPIRE (R286): the port timer, or that of a class. -/
def execPauseTimerExpire (p : Fin 96) (c : Option (Fin 8)) (s : State) : Host.Outcome State Fault Refusal := s.run fun _ d =>
  (d.setMac p fun m => match c with
    | none => { m with pause := 0 }
    | some c => { m with pfc := Tbl.set 0 m.pfc c 0 }).pauseStat p

/-! ### Receive (R279 to R282, R300) -/

/-- The 256-byte units of the receive store that so many bytes take (R279). -/
def storeUnits (bytes : Nat) : Nat := (bytes + 255) / 256

/-- The units of the receive store a port owns (R279). -/
def Dev.storeSize (d : Dev) (p : Nat) : Nat := 512 * d.get (F.hsMacBondLanes p)

/-- The units that hold the frames of a port which wait for DHA or DHB, each with its tags and FCS (R279). -/
def Dev.storeHeld (d : Dev) (p : Nat) : Nat :=
  (((Tbl.get [] d.pkt.links (2 + p / 48)).filter fun x => x.src == p).map fun x => storeUnits (x.bytes.length + 4 * x.tagn + 4)).sum

/-- The fill of a port's store while `arriving` bytes of a frame have arrived: the first 64 stand in the staging store (R279, R288). -/
def Dev.storeFill (d : Dev) (p arriving : Nat) : Nat :=
  min (d.storeSize p) (d.storeHeld p + (if arriving < 64 then 0 else storeUnits (min arriving (d.get (F.hsMacCfgMaxlen p)))))

/-- The ticks that so many bytes take at a port's rate. -/
def Dev.byteTicks (d : Dev) (p n : Nat) : Nat := (5 * n + d.portRate p - 1) / d.portRate p

/-- MINLEN and MAXLEN for a frame of `len` bytes that ends now: those in force when its first byte arrived (R300). -/
def Dev.rxLimits (d : Dev) (p len : Nat) : Nat × Nat :=
  match (d.mac p).limits.find? fun x => decide (d.time.ticks ≤ x.tick + d.byteTicks p len) with
  | some x => (x.minlen, x.maxlen)
  | none => (d.get (F.hsMacCfgMinlen p), d.get (F.hsMacCfgMaxlen p))

/-- A write that changes MINLEN or MAXLEN: frames that have begun keep the old ones (R300). -/
def Dev.noteLimits (d : Dev) (p : Nat) (old : Word) : Dev :=
  let l : Limits := ⟨d.time.ticks, (F.hsMacCfgMinlen p).of old, (F.hsMacCfgMaxlen p).of old⟩
  d.when (l.minlen != d.get (F.hsMacCfgMinlen p) || l.maxlen != d.get (F.hsMacCfgMaxlen p)) fun d =>
    d.setMac p fun m => { m with limits := m.limits ++ [l] }

/-- The FCS of a frame body, as its four bytes on the wire. -/
def fcsOf (b : List Byte) : List Byte := (beBytes 4 (crc32 (2 ^ 32 - 1) b)).reverse

/-- A 64-bit byte count. -/
def Dev.countBytes (d : Dev) (p : Nat) (rx : Bool) (n : Nat) : Dev :=
  let d1 := d.setMac p fun m => if rx then { m with rxBytes := min (m.rxBytes + n) (2 ^ 64 - 1) } else { m with txBytes := min (m.txBytes + n) (2 ^ 64 - 1) }
  if rx then d1.set (F.hsMacRxbyloCount p) (d1.mac p).rxBytes else d1.set (F.hsMacTxbyloCount p) (d1.mac p).txBytes

/-- The checks at a frame's end (R280), with its FCS, `pcs` for a PCS error. A unit is refused it where the port's store has fewer free
than its bytes up to MAXLEN take; one that passes keeps its units until DHA or DHB takes it. -/
def Dev.macRx (d : Dev) (p : Nat) (f : List Byte) (pcs : Bool) : Dev :=
  let len := f.length
  let body := f.take (len - 4)
  let lim := d.rxLimits p len
  if len < lim.1 then (d.count (F.hsMacRuntCount p) 1).raise 0xC1 [R.hsMacRunt p]
  else if d.storeSize p < d.storeHeld p + storeUnits (min len lim.2) then (d.count (F.hsMacRxovfCount p) 1).raise 0xC3 [R.hsMacRxovf p]
  else if lim.2 < len then (d.count (F.hsMacGiantCount p) 1).raise 0xC2 [R.hsMacGiant p]
  else if pcs then (d.count (F.hsMacRxerrCount p) 1).raise 0xC0 [R.hsMacFcserr p, R.hsMacRxerr p]
  else if f.drop (len - 4) ≠ fcsOf body then (d.count (F.hsMacFcserrCount p) 1).raise 0xC0 [R.hsMacFcserr p, R.hsMacRxerr p]
  else if beAt f 12 2 = 0x8808 then d.pauseRx p f
  else
    let x := stripTags { src := p, srcn := p, bytes := body, ts := ⟨d.time.ns, d.time.sub / 256⟩, tsport := true }
    ((d.count (F.hsMacRxfrmCount p) 1).countBytes p true len).dhSend p x

/-- A frame at a port: through the port's injector, then the checks. -/
def Dev.portRx (d : Dev) (p : Nat) (f : List Byte) (pcs : Bool) : Dev :=
  d.when (d.linkUp p && d.released (hsCord p)) fun d =>
    d.through p 0 false { pkt := { src := p, bytes := f }, flag := pcs } fun d u => d.macRx p u.pkt.bytes u.flag

/-- Every lane of a port is looped at the far end: what the card sends goes back to it unchanged, while its termination is there
(R319, R325). -/
def Dev.farLoop (d : Dev) (p : Nat) : Bool :=
  d.get (F.hsMacBondLanes p) != 0 && (List.range (d.get (F.hsMacBondLanes p))).all fun i =>
    d.get (F.hsLnLoopMode (p + i)) == 3 && d.get (F.hsLnStatStage (p + i)) == 5 && !(Tbl.get {} d.lanes (p + i)).gone

/-- MAC_FRAME_RX (R280, R319). -/
def execMacFrameRx (p : Fin 96) (f : List Byte) (pcs : Bool) (s : State) : Host.Outcome State Fault Refusal :=
  s.run fun _ d => if d.farLoop p then d.emit (.portFrame p f) else d.portRx p f pcs

/-- PAUSE_FRAME_RX (R285, R286): a received frame of EtherType 0x8808. -/
def execPauseFrameRx (p : Fin 96) (f : List Byte) (s : State) : Host.Outcome State Fault Refusal :=
  s.run fun _ d => d.when (beAt f 12 2 == 0x8808) fun d => if d.farLoop p then d.emit (.portFrame p f) else d.portRx p f false

/-! ### Transmit (R283, R284, R299) -/

/-- A frame as built for transmission (R283). -/
def Dev.txFrame (d : Dev) (p : Nat) (x : Pkt) : List Byte :=
  let b := if d.flag (F.hsMacCfgTxuntag p) then x.bytes else withTags x
  let c := if b.length < 60 then fitBytes 60 b else b
  c ++ fcsOf c

/-- The bit times of a frame of L bytes (R284). -/
def txBits (len : Nat) : Nat := (len + 8) * 8

/-- Where the PTP header of a frame stands after its tags, if it is a PTP event frame (R299). -/
def ptpAt (x : Pkt) : Option Nat :=
  let b := x.bytes
  let at_ (o : Nat) : Option Nat := if o + 32 ≤ b.length ∧ beAt b o 1 % 16 ≤ 3 then some o else none
  if beAt b 12 2 = 0x88F7 then at_ 14
  else if beAt b 12 2 = 0x0800 ∧ beAt b 14 1 = 0x45 ∧ beAt b 23 1 = 17 ∧ beAt b 36 2 = 319 then at_ 42
  else if beAt b 12 2 = 0x86DD ∧ beAt b 14 1 / 16 = 6 ∧ beAt b 20 1 = 17 ∧ beAt b 56 2 = 319 then at_ 62
  else none

/-- The TXTS registers show the oldest entry. -/
def Dev.txtsShow (d : Dev) (p : Nat) : Dev :=
  let q := (d.mac p).txts
  let x := q.headD ⟨{}, 0, 0⟩
  (((((d.set (F.hsMacTxtsnsValue p) x.stamp.ns).set (F.hsMacTxtssubSub p) x.stamp.sub).set (F.hsMacTxtssubMt p) x.mtype).setFlag
    (F.hsMacTxtssubValid p) (!q.isEmpty)).set (F.hsMacTxtsseqSeq p) x.seq).set (F.hsMacTxtsseqHeld p) q.length

/-- A transmit timestamp pushed (R299). -/
def Dev.pushTs (d : Dev) (p : Nat) (x : Pkt) : Dev :=
  match ptpAt x with
  | none => d
  | some o =>
    if 16 ≤ (d.mac p).txts.length then (d.count (F.hsMacTxtsctlTsovf p) 1).raise 0xCA [R.hsMacTxtsctl p]
    else (d.setMac p fun m => { m with txts := m.txts ++ [⟨⟨d.time.ns, d.time.sub / 256⟩, beAt x.bytes o 1 % 16, beAt x.bytes (o + 30) 2⟩] }).txtsShow p

/-- A write of POP removes the oldest entry (R299). -/
def Dev.txtsPop (d : Dev) (p : Nat) : Dev := (d.setMac p fun m => { m with txts := m.txts.drop 1 }).txtsShow p

/-- A frame at a port's pins: in a near-end loop the port receives it itself (R319). -/
def Dev.portOut (d : Dev) (p : Nat) (f : List Byte) : Dev :=
  if d.get (F.hsLnLoopMode p) = 1 ∨ d.get (F.hsLnLoopMode p) = 2 then d.portRx p f false else d.emit (.portFrame p f)

/-- Bytes leave at a port's pins, through the port's transmit injector. -/
def Dev.portTx (d : Dev) (p : Nat) (f : List Byte) : Dev :=
  d.through p 1 false { pkt := { src := p, bytes := f } } fun d u => d.portOut p u.pkt.bytes

/-- At a frame boundary the generated control frames that wait are sent (R288), once the transmitter has woken (R295). -/
def Dev.sendGen (d : Dev) (p : Nat) : Dev :=
  let m := d.mac p
  d.when (m.cur.isNone && decide (m.wakeAt ≤ d.time.ticks)) fun d =>
    (d.setMac p fun m => { m with gen := [] }).each m.gen fun d f => d.portTx p f

/-- MAC_FRAME_TX (R283, R288, R298 to R300): the frame taken from the scheduler is built and sent whole, and its buffers freed. -/
def execMacFrameTx (p : Fin 96) (s : State) : Host.Outcome State Fault Refusal := s.run fun _ d =>
  match (d.mac p).cur with
  | none => d
  | some x =>
    let f := d.txFrame p x.pkt
    let d1 := (d.setMac p fun m => { m with cur := none }).freeBufs x.bufs (26 + p / 48)
    (if (d.mac p).curMax < f.length then d1.count (F.hsMacTxdropCount p) 1
     else (((d1.pushTs p x.pkt).count (F.hsMacTxfrmCount p) 1).countBytes p false f.length).portTx p f).sendGen p

/-- A generated control frame (R288): time `t` in the form of MODE. -/
def Dev.pauseFrame (d : Dev) (p t : Nat) : List Byte :=
  let sa := beBytes 2 (d.get (F.hsMacPsahiPsa p)) ++ beBytes 4 (d.get (F.hsMacPsaloPsa p))
  let hd := beBytes 6 0x0180C2000001 ++ sa ++ beBytes 2 0x8808
  let m := d.get (F.hsMacFcTxpfcmask p)
  let b := if d.get (F.hsMacFcMode p) = 1 then hd ++ beBytes 2 1 ++ beBytes 2 t
    else hd ++ beBytes 2 0x0101 ++ beBytes 2 m ++ (List.range 8).flatMap fun c => beBytes 2 (if m.testBit c then t else 0)
  let c := fitBytes 60 b
  c ++ fcsOf c

/-- The transmitter leaves low-power idle: no frame of a queue starts for TW × 10 ns (R295). -/
def Dev.leaveLpi (d : Dev) (p : Nat) : Dev :=
  d.when (d.flag (F.hsMacLpistatTxlpi p)) fun d => (d.set (F.hsMacLpistatTxlpi p) 0).setMac p fun m =>
    { m with wakeAt := d.time.ticks + (d.get (F.hsMacLpiTw p) * 100 + 15) / 16 }

/-- One generated frame counted; it ends low-power idle, and goes at the next frame boundary, TW × 10 ns after that end at the earliest
(R288, R295). -/
def Dev.sendPause (d : Dev) (p t : Nat) : Dev :=
  (((d.leaveLpi p).setMac p fun m => { m with gen := m.gen ++ [d.pauseFrame p t] }).sendGen p).count (F.hsMacPausetxCount p) 1

/-- Flow control is generated at a port. -/
def Dev.generates (d : Dev) (p : Nat) : Bool := d.flag (F.hsMacFcGen p) && d.get (F.hsMacFcMode p) != 0 && d.linkUp p

/-- PAUSE_XOFF (R288): `arriving` bytes of a frame in reception have arrived. -/
def execPauseXoff (p : Fin 96) (arriving : Nat) (s : State) : Host.Outcome State Fault Refusal := s.run fun _ d =>
  d.when (d.generates p && !d.flag (F.hsMacFcstatXoffact p) && decide (d.get (F.hsMacFcthrXoff p) ≤ d.storeFill p arriving)) fun d =>
    ((d.set (F.hsMacFcstatXoffact p) 1).sendPause p (d.get (F.hsMacPqPquanta p))).raise 0xC5 [R.hsMacPausetx p]

/-- PAUSE_REPEAT (R288): every PQUANTA / 2 quanta while the fill stays at or above XON. -/
def execPauseRepeat (p : Fin 96) (s : State) : Host.Outcome State Fault Refusal := s.run fun _ d =>
  d.when (d.generates p && d.flag (F.hsMacFcstatXoffact p)) fun d => d.sendPause p (d.get (F.hsMacPqPquanta p))

/-- PAUSE_XON (R288): the fill falls below XON; `arriving` bytes of a frame in reception have arrived. -/
def execPauseXon (p : Fin 96) (arriving : Nat) (s : State) : Host.Outcome State Fault Refusal := s.run fun _ d =>
  d.when (d.generates p && d.flag (F.hsMacFcstatXoffact p) && decide (d.storeFill p arriving < d.get (F.hsMacFcthrXon p))) fun d =>
    (d.set (F.hsMacFcstatXoffact p) 0).sendPause p 0

/-! ### Gates (R289 to R293) -/

/-- A list's entries filled or cut to its cycle (R289). -/
def segments : List (Nat × Nat) → Nat → List (Nat × Nat)
  | [], _ => []
  | [(g, _)], room => [(g, room)]
  | (g, t) :: r, room => if room ≤ t then [(g, room)] else (g, t) :: segments r (room - t)

/-- The place within the cycle at a counter value. -/
def GateList.pos (l : GateList) (now : Nat) : Nat :=
  (signedOf 32 (unsignedOf 32 ((now : Int) - (l.start : Nat))) % (max 1 l.cycle : Nat)).toNat

/-- The index and mask of the entry in force at a place of the cycle. -/
def entryAt : List (Nat × Nat) → Nat → Nat → Nat × Nat
  | [], i, _ => (i, 0xFF)
  | [(g, _)], i, _ => (i, g)
  | (g, t) :: r, i, pos => if pos < t then (i, g) else entryAt r (i + 1) (pos - t)

/-- Nanoseconds until a gate is closed, among segments, up to a limit. -/
def closeIn (c : Nat) : List (Nat × Nat) → Nat → Nat → Option Nat
  | [], _, _ => none
  | (g, t) :: r, acc, lim =>
    if lim ≤ acc then none else if !g.testBit c then some acc else closeIn c r (acc + t) lim

/-- The segments of one cycle from a place on. -/
def rotate (l : GateList) (pos : Nat) : List (Nat × Nat) :=
  let s := segments l.entries l.cycle
  let r := s.foldl (fun (a : Nat × List (Nat × Nat) × List (Nat × Nat)) x =>
    if a.1 + x.2 ≤ pos then (a.1 + x.2, a.2.1, a.2.2 ++ [x])
    else if a.1 < pos then (a.1 + x.2, a.2.1 ++ [(x.1, a.1 + x.2 - pos)], a.2.2 ++ [(x.1, pos - a.1)])
    else (a.1 + x.2, a.2.1 ++ [x], a.2.2)) (0, [], [])
  r.2.1 ++ r.2.2

/-- Nanoseconds for which the gate of a class stays open from now on, none where it does not close (R291). -/
def Dev.gateOpenFor (d : Dev) (p c : Nat) : Option Nat :=
  if !d.flag (F.hsMacGctlGateen p) then none
  else
    let m := d.mac p
    let here := rotate m.oper (m.oper.pos d.time.ns)
    match m.pend with
    | none => closeIn c here 0 m.oper.cycle
    | some n =>
      let tc := unsignedOf 32 ((n.start : Int) - (d.time.ns : Nat))
      match closeIn c here 0 (min tc m.oper.cycle) with
      | some x => some x
      | none => (closeIn c (segments n.entries n.cycle) 0 n.cycle).map (tc + ·)

/-- GSTAT as the counter gives it (R289). -/
def Dev.gateRefresh (d : Dev) (p : Nat) : Dev :=
  let m := d.mac p
  let e := entryAt m.oper.entries 0 (m.oper.pos d.time.ns)
  (d.set (F.hsMacGstatGates p) (if d.flag (F.hsMacGctlGateen p) then e.2 else 0xFF)).set (F.hsMacGstatCuridx p) e.1

/-- GATE_ENTRY_CHANGE (R289): the list is at the entry its place in the cycle gives; whole cycles passed move its start. -/
def execGateEntryChange (p : Fin 96) (s : State) : Host.Outcome State Fault Refusal := s.run fun _ d =>
  d.when (d.released (hsCord p)) fun d =>
    (d.setMac p fun m =>
      let e := signedOf 32 (unsignedOf 32 ((d.time.ns : Int) - (m.oper.start : Nat)))
      let k := e / (max 1 m.oper.cycle : Nat)
      { m with oper := { m.oper with start := unsignedOf 32 ((m.oper.start : Int) + k * (m.oper.cycle : Nat)) } }).gateRefresh p

/-- The administrative list of a port. -/
def Dev.admList (d : Dev) (p : Nat) : List (Nat × Nat) :=
  (List.range (d.get (F.hsMacGctlAdmlen p))).map fun i => (d.get (F.hsMacGclGGates p i), d.get (F.hsMacGclTInterval p i))

/-- The change time, and whether the base was past (R293). -/
def changeTime (base now lead cycle : Nat) : Nat × Bool :=
  let earliest := (now + lead) % 2 ^ 32
  if unsignedOf 32 ((base : Int) - (earliest : Nat)) < 2147483648 then (base, false)
  else
    let behind := unsignedOf 32 ((earliest : Int) - (base : Nat))
    ((base + (behind + cycle - 1) / cycle * cycle) % 2 ^ 32, true)

/-- The write of GCTL (R293): an error code, 0 for none. -/
def Dev.gclCheck (d : Dev) (p : Nat) (v : Word) : Nat :=
  if (F.hsMacGctlGo p).of v = 0 then 0
  else
    let n := (F.hsMacGctlAdmlen p).of v
    let cyc := d.get (F.hsMacGcycleValue p)
    let bad := decide (n < 1) || decide (1024 < n) || decide (cyc < 1000) || decide (1000000000 < cyc) ||
      (List.range n).any fun i => let t := d.get (F.hsMacGclTInterval p i); decide (t < 1) || decide (1000000000 < t)
    if d.flag (F.hsMacGctlPend p) then 0xA else if bad then 9 else 0

/-- An accepted GO, CANCEL, and the state of the gates after the write (R290, R293). -/
def Dev.gclGo (d : Dev) (p : Nat) (v : Word) : Dev :=
  let d0 := d.when ((F.hsMacGctlCancel p).of v == 1) fun d => (d.setMac p fun m => { m with pend := none }).set (F.hsMacGctlPend p) 0
  let d1 := d0.when ((F.hsMacGctlGo p).of v == 1) fun d =>
    let cyc := d.get (F.hsMacGcycleValue p)
    let t := changeTime (d.get (F.hsMacGbaseValue p)) d.time.ns (d.get (F.hsMacGleadValue p)) cyc
    (((d.setMac p fun m => { m with pend := some ⟨d.admList p, cyc, t.1⟩ }).set (F.hsMacGctlPend p) 1).set (F.hsMacGchgValue p) t.1).when t.2
      fun d => d.raise 0xC8 [R.hsMacGchg p]
  d1.gateRefresh p

/-- The longest run for which a gate stays open, none where it never closes (R292). -/
def longestRun (l : GateList) (c : Nat) : Option Nat :=
  let s := segments l.entries l.cycle
  if s.all fun x => x.1.testBit c then none
  else some (((s ++ s).foldl (fun (a : Nat × Nat) x => if x.1.testBit c then (a.1 + x.2, max a.2 (a.1 + x.2)) else (0, a.2)) (0, 0)).2)

/-- A frame of a class that can never fit its gate (R292). -/
def Dev.neverFits (d : Dev) (p c len : Nat) : Bool :=
  d.flag (F.hsMacGctlGateen p) && match longestRun (d.mac p).oper c with
    | some r => decide (0 < r) && decide (r * d.portRate p < txBits len)
    | none => false

/-! ### Links (R278) and low-power idle (R295) -/

/-- The link goes down (R278): a frame in transmission is abandoned, one in reception discarded. -/
def Dev.macDown (d : Dev) (p : Nat) (rxFrame : Bool) : Dev :=
  d.when (d.linkUp p) fun d =>
    let d1 := (d.set (F.hsMacBondLink p) 0).when rxFrame fun d => d.count (F.hsMacRxerrCount p) 1
    let d2 := match (d1.mac p).cur with
      | some x => ((d1.setMac p fun m => { m with cur := none }).freeBufs x.bufs (26 + p / 48)).count (F.hsMacTxdropCount p) 1
      | none => d1
    (d2.setMac p fun m => { m with gen := [] }).raise 0xCB [R.hsMacBond p]

/-- The link goes down by what the device does: whether the card is sending a frame then is the card's, a free value (log 49). -/
def Dev.macLost (d : Dev) (p : Nat) : Dev :=
  d.when (d.linkUp p) fun d => { d with free := d.free + 1 }.macDown p ((Config.freeWord d.free).getLsbD 0)

/-- MAC_LINK_DOWN (R278): `rxFrame` says a frame was in reception. -/
def execMacLinkDown (p : Fin 96) (rxFrame : Bool) (s : State) : Host.Outcome State Fault Refusal := s.run fun _ d => d.macDown p rxFrame

/-- RECEIVER_LPI (R324): the far transmitter enters or leaves quiet signalling. -/
def execReceiverLpi (p : Fin 96) (quiet : Bool) (s : State) : Host.Outcome State Fault Refusal := s.run fun _ d =>
  if quiet then d.when (d.linkUp p && !d.flag (F.hsMacLpistatRxlpi p)) fun d =>
    (d.set (F.hsMacLpistatRxlpi p) 1).count (F.hsMacLpistatRxlpicnt p) 1
  else d.set (F.hsMacLpistatRxlpi p) 0

end Sys2Proof.Machine
end

