-- ==== Sys2Proof/Machine/Alignment.lean ====
section
/-!
DEFINITION. The sequences of R105 as symbols, and the alignment word test of R110 on the signs of received symbols.
-/

namespace Sys2Proof.Machine

/-- A symbol of both polarisations before its scaling, with four times the mean energy it is scaled by (R77). -/
structure Sym where
  x : Int × Int
  y : Int × Int
  e4 : Nat := 8
  deriving DecidableEq, Repr

/-- A bit of 0 is +1 (R105). -/
def signOf (b : Bool) : Int := if b then -1 else 1

/-- QPSK symbols from generator bits, four bits a symbol (R105). -/
def seqSyms : List Bool → List Sym
  | a :: b :: c :: d :: t => ⟨(signOf a, signOf b), (signOf c, signOf d), 8⟩ :: seqSyms t
  | _ => []

/-- The normal and the beacon alignment word (R105). -/
def alignmentWord (beacon : Bool) : List Sym := seqSyms (awBits 512 (if beacon then 0x02D3 else 0x05A5))

/-- A polarisation symbol turned by `k` quarter turns. -/
def turn : Nat → Int × Int → Int × Int
  | 0, p => p
  | k + 1, p => turn k (-p.2, p.1)

/-- What an alignment word test reports (R110): the polarisation symbols that differ from the best variant, that variant, the
quarter turns of the received symbols that give the X and the Y of the word, and whether the polarisations are exchanged. -/
structure AwMatch where
  diffs : Nat
  beacon : Bool
  turnX : Nat
  turnY : Nat
  swap : Bool
  deriving DecidableEq, Repr

/-- The fewest polarisation symbols that differ under a rotation, and that rotation; of equal ones the first (log 75). -/
def bestTurn (got word : List (Int × Int)) : Nat × Nat :=
  (List.range 4).foldl (fun best k =>
    let n := ((got.zip word).filter fun p => turn k p.1 != p.2).length
    if n < best.1 then (n, k) else best) (word.length + 1, 0)

/-- The best match of one variant, with the polarisations exchanged or not. -/
def matchWith (got : List Sym) (beacon swap : Bool) : AwMatch :=
  let word := alignmentWord beacon
  let x := bestTurn (if swap then got.map (·.y) else got.map (·.x)) (word.map (·.x))
  let y := bestTurn (if swap then got.map (·.x) else got.map (·.y)) (word.map (·.y))
  ⟨x.1 + y.1, beacon, x.2, y.2, swap⟩

/-- The alignment word test on 128 symbols: the best of both variants, both exchanges and the rotations; of equal ones the normal
word and no exchange (log 75). -/
def alignmentMatch (got : List Sym) : AwMatch :=
  [matchWith got false true, matchWith got true false, matchWith got true true].foldl
    (fun best m => if m.diffs < best.diffs then m else best) (matchWith got false false)

/-- The test on the signs of I and Q of X, then of Y, symbol after symbol, 1 for a negative sign. -/
def alignmentTest (signs : BitVec 512) : AwMatch := alignmentMatch (seqSyms (bitsOf 512 signs.toNat))

end Sys2Proof.Machine
end

