-- ==== Sys2Proof/Machine/Fec.lean ====
section
/-!
DEFINITION. The FEC decoder of 04_line_frame_fec: the inner layered offset min-sum decoder (R116, R117), the outer BCH decoder
(R114, R115), and the counts of a decoded block (R118).
-/

namespace Sys2Proof.Machine

/-- What decoding one copy of a FEC block gave (R115, R117, R118): the bits LDPC changed, the iterations run, the syndrome still
non-zero at ITER, the block uncorrectable, the bits BCH corrected, and the information bits. -/
structure FecCopy where
  changed : Nat
  iters : Nat
  hitMax : Bool
  uncorr : Bool
  fixed : Nat
  output : List Bool
  deriving DecidableEq, Repr

/-! ### The inner code (R116, R117) -/

/-- Rows become columns: `n` lists from lists of `n` values. -/
def transpose (n : Nat) (ls : List (List Int)) : List (List Int) := ls.foldr (List.zipWith List.cons) (List.replicate n [])

/-- A list turned so that place `r` holds what stood at `r + s`. -/
def turnList (s : Nat) (l : List Int) : List Int := l.drop s ++ l.take s

/-- A block of 512 bits, bit `r` of the number for position `r`, turned so that place `r` holds what stood at `r + s`. -/
def turnBits (s x : Nat) : Nat := x / 2 ^ s + x % 2 ^ s * 2 ^ (512 - s)

/-- The bits of a block column as a number, position `r` at bit `r`. -/
def columnBits (l : List Bool) : Nat := l.foldr (fun b a => 2 * a + (if b then 1 else 0)) 0

/-- The block columns of block row `i` with their shifts: information, its own parity, the parity before it (R116). -/
def ldpcRow (i : Nat) : List (Nat × Nat) :=
  ((List.range 28).map fun j => (j, ldpcShift i j)) ++ [(28 + i, 0)] ++ (if i = 0 then [] else [(27 + i, 0)])

/-- The checks of block row `i` over a word of 32 block columns, check `r` at bit `r`. -/
def ldpcSyndrome (word : List Nat) (i : Nat) : Nat := (ldpcRow i).foldl (fun a c => a ^^^ turnBits c.2 (word.getD c.1 0)) 0

/-- Every check of the word holds. -/
def ldpcChecks (word : List Nat) : Bool := (List.range 4).all fun i => ldpcSyndrome word i == 0

/-- The messages of one check to its bits: the product of the other signs, the least of the other magnitudes less the offset. -/
def checkMsgs (ofs : Nat) (q : List Int) : List Int :=
  q.zipIdx.map fun x =>
    let rest := q.eraseIdx x.2
    let least : Int := (((rest.map Int.natAbs).min?).getD 0 - ofs : Nat)
    if (rest.filter (· < 0)).length % 2 = 1 then -least else least

/-- The decoder's values: those of the 32 block columns, and the last messages of each block row to its columns. -/
structure Beliefs where
  cols : List (List Int)
  msgs : List (List (List Int))
  deriving DecidableEq, Repr

/-- One layer, block row `i`: its checks take the columns without their own last messages and give new ones. -/
def Beliefs.layer (ofs : Nat) (b : Beliefs) (i : Nat) : Beliefs :=
  let row := ldpcRow i
  let q := List.zipWith (fun c m => List.zipWith (· - ·) (turnList c.2 (b.cols.getD c.1 [])) m) row (b.msgs.getD i [])
  let new := transpose row.length ((transpose 512 q).map (checkMsgs ofs))
  let sums := List.zipWith (fun a c => List.zipWith (· + ·) a c) q new
  { cols := (row.zip sums).foldl (fun cs x => cs.set x.1.1 (turnList ((512 - x.1.2) % 512) x.2)) b.cols
    msgs := b.msgs.set i new }

/-- The start: the LLRs in block columns, and no messages. -/
def Beliefs.start (llrs : List Int) : Beliefs :=
  { cols := (List.range 32).map fun j => (llrs.drop (512 * j)).take 512
    msgs := (List.range 4).map fun i => List.replicate (ldpcRow i).length (List.replicate 512 0) }

/-- The hard decision of position `n`: a positive value is 0 (R109); where the value is 0 the spec gives none, and it is open. -/
def hardBit (num n : Nat) (v : Int) : Bool := if v = 0 then (Config.freeByte num n).getLsbD 0 else decide (v < 0)

/-- The hard decisions of the 32 block columns. -/
def Beliefs.hard (num : Nat) (b : Beliefs) : List (List Bool) :=
  b.cols.zipIdx.map fun c => c.1.zipIdx.map fun x => hardBit num (512 * c.2 + x.2) x.1

/-- At most `left` iterations more after `done`, stopping once every check holds (R117): the iterations run, the decisions, and
whether every check holds. The checks are first made on the LLRs as received (log 76). -/
def ldpcRun (num ofs : Nat) : Nat → Nat → Beliefs → Nat × List (List Bool) × Bool
  | left, done, b =>
    let h := b.hard num
    if ldpcChecks (h.map columnBits) then (done, h, true)
    else match left with
      | 0 => (done, h, false)
      | n + 1 => ldpcRun num ofs n (done + 1) ((List.range 4).foldl (Beliefs.layer ofs) b)

/-! ### The outer code (R114, R115) -/

/-- The inverse of a non-zero element: its power 2^14 − 2. -/
def gfInv (a : Nat) : Nat :=
  ((List.range 13).foldl (fun (x : Nat × Nat) _ => let s := gfMul x.2 x.2; (gfMul x.1 s, s)) (1, a)).1

/-- A polynomial, coefficient of x^0 first, at a point. -/
def gfEval (p : List Nat) (x : Nat) : Nat := p.foldr (fun c a => gfMul a x ^^^ c) 0

/-- The sum of two polynomials. -/
def gfAdd : List Nat → List Nat → List Nat
  | [], q => q
  | p, [] => p
  | a :: p, b :: q => (a ^^^ b) :: gfAdd p q

/-- The remainder of a received word of 14,336 bits by the generator, coefficient of x^k at bit k. -/
def bchRemainder (word : List Bool) : Nat := bchParity bchGenerator (word.take 14196) ^^^ ofBits (word.drop 14196)

/-- The syndromes at α to α^20, from the remainder. -/
def bchSyndromes (rem : Nat) : List Nat :=
  let p := (List.range 140).map fun k => if rem.testBit k then 1 else 0
  (List.range 20).map fun i => gfEval p (gfPow (i + 1))

/-- The state of the search for the error locator: locator, the one before its last change of length, length, gap, discrepancy. -/
structure Locator where
  c : List Nat := [1]
  b : List Nat := [1]
  len : Nat := 0
  gap : Nat := 1
  disc : Nat := 1
  deriving DecidableEq, Repr

/-- One syndrome taken into the locator (Berlekamp and Massey). -/
def Locator.next (syn : List Nat) (x : Locator) (n : Nat) : Locator :=
  let d := (List.range (x.len + 1)).foldl (fun a i => a ^^^ gfMul (x.c.getD i 0) (syn.getD (n - i) 0)) 0
  if d = 0 then { x with gap := x.gap + 1 }
  else
    let k := gfMul d (gfInv x.disc)
    let c := gfAdd x.c (List.replicate x.gap 0 ++ x.b.map (gfMul k))
    if 2 * x.len ≤ n then ⟨c, x.c, n + 1 - x.len, 1, d⟩ else { x with c := c, gap := x.gap + 1 }

/-- The exponents of the error positions among the 14,336 positions sent: where the locator is zero at α^−k. -/
def locatorRoots (c : List Nat) : List Nat :=
  let step := gfInv 2
  ((List.range 14336).foldl (fun (a : List Nat × Nat) k => (if gfEval c a.2 = 0 then k :: a.1 else a.1, gfMul a.2 step)) ([], 1)).1

/-- The BCH decoder (R115): the bits corrected and the information bits, or none where no codeword lies within 10 bits. -/
def bchDecode (word : List Bool) : Option (Nat × List Bool) :=
  let rem := bchRemainder word
  if rem = 0 then some (0, word.take 14196)
  else
    let x := (List.range 20).foldl (Locator.next (bchSyndromes rem)) {}
    let ps := locatorRoots x.c
    let fixed := word.zipIdx.map fun b => b.1 != ps.contains (14335 - b.2)
    if x.len ≤ 10 ∧ ps.length = x.len ∧ bchRemainder fixed = 0 then some (x.len, fixed.take 14196) else none

/-! ### A block -/

/-- A FEC block decoded from the 16,384 LLRs of its line bits after the scrambler is undone (R113, R115, R117, R118). A bit whose
LLR is 0 has no sign and is not counted as changed (log 76). -/
def fecDecode (num iter ofs : Nat) (llrs : List Int) : FecCopy :=
  let r := ldpcRun num ofs iter 0 (Beliefs.start llrs)
  let bits := r.2.1.flatten
  let changed := ((llrs.zip bits).filter fun x => x.1 != 0 && decide (x.1 < 0) != x.2).length
  match bchDecode (bits.take 14336) with
  | some (n, info) => ⟨changed, r.1, !r.2.2, false, n, info⟩
  | none => ⟨changed, r.1, !r.2.2, true, 0, bits.take 14196⟩

/-- `n` line bits of the scrambler of subcarrier `sc` from line bit `at_` of a frame on (R109). -/
def scramblerBits (sc at_ n : Nat) : List Bool := (scramble (scrambleSeed sc) (List.replicate (at_ + n) false)).drop at_

/-- The scrambler under a block of 16,384 line bits that begins `at_` bits into a frame, before it where negative; `prev` is the
number of line bits of the frame before. -/
def blockScrambler (sc prev : Nat) (at_ : Int) : List Bool :=
  if at_ < 0 then scramblerBits sc (prev - at_.natAbs) at_.natAbs ++ scramblerBits sc 0 (16384 - at_.natAbs)
  else scramblerBits sc at_.toNat 16384

/-- The scrambler undone: the sign of each LLR inverted where its bit is 1 (R109). -/
def descramble (z : List Bool) (llrs : List Int) : List Int := List.zipWith (fun b x => if b then -x else x) z llrs

/-- A list of LLRs cut or filled with zeros to `n`. -/
def fitLlrs (n : Nat) (l : List Int) : List Int := l.take n ++ List.replicate (n - l.length) 0

end Sys2Proof.Machine
end

