-- ==== Sys2Proof/Machine/LineRx.lean ====
section
/-!
DEFINITION. Coherent receive processing: 02_line_receive. The commands are the moments of the receive chain; the
values an engine measures come as operands, and the model checks them against the registers' limits.
-/

namespace Sys2Proof.Machine

/-! ### Who serves whom -/

/-- The engines that receive a wavelength's samples (R15). -/
def Dev.receivers (d : Dev) (w : Nat) : List Nat :=
  (engOf (d.get (F.cvSelStatRxeng w))).toList ++ (engOf (d.get (F.cvSelStatRxeng2 w))).toList

/-- An engine is named by a selector of a wavelength. -/
def Dev.names (d : Dev) (w e : Nat) : Bool := (d.receivers w).contains e || d.serving w == some e

/-- The engines of a wavelength, serving or in its overlap. -/
def Dev.enginesOf (d : Dev) (w : Nat) : List Nat := [0, 1, 2].filter fun e => d.names w e

/-- The wavelength an engine is connected to (R15). -/
def Dev.engWl (d : Dev) (e : Nat) : Option Nat := if d.names 0 e then some 0 else if d.names 1 e then some 1 else none

/-- The engine receives a wavelength whose converter set is in service and not in loss of signal; else it holds its state, locks
included (R39, R376). -/
def Dev.hears (d : Dev) (e : Nat) : Bool :=
  match d.engWl e with
  | some w => (d.receivers w).contains e && d.released (4 + w) && !d.flag (F.cvAdcStatLos w)
  | none => false

/-- A receive event of condition `c` on the wavelength the engine serves; in a revert overlap only the serving
engine raises it, and in a sparing gap none does (R68, R207). -/
def Dev.rxEvent (d : Dev) (e c : Nat) (addrs : List Nat) : Dev :=
  match d.engWl e with
  | some w => d.when (!(d.wave w).gap && (!d.flag (F.cvSelStatOverlap w) || d.serving w == some e)) fun d => d.raise (0x20 + 2 * c + w) addrs
  | none => d

/-- A receive event of the converter inputs; in a sparing gap no receive event is raised (R68, R207). -/
def Dev.inputEvent (d : Dev) (w c : Nat) (addrs : List Nat) : Dev := d.when (!(d.wave w).gap) fun d => d.raise (0x20 + 2 * c + w) addrs

/-! ### When a parameter write takes effect (R59, R66, R81 to R85) -/

/-- The key of a field among those whose write waits. -/
def Fld.key (f : Fld) : Nat := f.addr * 32 + f.lsb

/-- The value of a field that the engine uses: what was there before a write that still waits, else what is written. -/
def Dev.inUse (d : Dev) (e : Nat) (f : Fld) : Nat :=
  let g := d.eng e
  match Tbl.get [] g.oldLine f.key ++ Tbl.get [] g.oldSf f.key ++ Tbl.get [] g.oldAcq f.key with
  | [] => d.get f
  | x :: _ => x.1

/-- A field in use read as two's complement. -/
def Dev.inUseInt (d : Dev) (e : Nat) (f : Fld) : Int := signedOf f.width (d.inUse e f)

/-- A field whose value a write changes keeps the value before it until its point comes. -/
def Held.add (t : Held) (f : Fld) (old v : Word) (tick : Nat) : Held :=
  if f.of old = f.of v then t else Tbl.set [] t f.key (Tbl.get [] t f.key ++ [(f.of old, tick)])

/-- At a boundary whose first symbol comes at tick `b`, the writes of at least 64 line clocks before it, 32 ticks, are in use (R445);
`p` says which fields count this boundary. -/
def Held.release (t : Held) (b : Nat) (p : Nat → Bool) : Held :=
  (t.map fun x => (x.1, if p x.1 then x.2.dropWhile fun y => decide (y.2 + 32 ≤ b) else x.2)).filter fun x => !x.2.isEmpty

/-- The key of a receive-side field of an engine, which counts receive boundaries; the others count transmit boundaries (R445). -/
def rxKey (k : Nat) : Bool := decide (k / 32 % 2 ^ 24 < 0x400000)

/-! ### Disciplining (R22 to R25, R51) -/

/-- Timing lock of the engine that serves a wavelength. -/
def Dev.servingLock (d : Dev) (w : Nat) : Bool :=
  match d.serving w with
  | some e => d.flag (F.leRxcTrstatLock e)
  | none => false

/-- The steering of the root in units of 0.0625 ppb (R23). -/
def Dev.steering (d : Dev) : Int := d.getInt F.hrtClkSteerSteer

/-- The steering shown, at most ±800,000 units (±50 ppm); DISCLIM at that limit. -/
def Dev.showSteer (d : Dev) (v : Int) : Dev :=
  let x := max (-800000) (min 800000 v)
  (d.setInt F.hrtClkSteerSteer x).setFlag F.hrtClkStatDisclim (x.natAbs == 800000)

/-- The measured offset of the wavelength SRC names gives the steering to move to: OFFSET counts 0.01 ppm, 160 units, against
the root as it is steered now (R23, R51). -/
def Dev.aim (d : Dev) : Dev :=
  match d.serving (d.get F.hrtClkDiscSrc) with
  | some e => { d with time := { d.time with steerTo := max (-800000) (min 800000 (d.steering + 160 * d.getInt (F.leRxcTrstatOffset e))) } }
  | none => d

/-- DISCACT and DISCHOLD as EN and the serving engine's timing lock give them; DISCLOST once DISCHOLD is 1. Disciplining that
begins takes its aim from the offset measured last. -/
def Dev.discipline (d : Dev) : Dev :=
  let en := d.flag F.hrtClkDiscEn
  let lock := d.servingLock (d.get F.hrtClkDiscSrc)
  let act := en && lock && d.time.frozen.isNone
  let was := d.flag F.hrtClkStatDiscact
  let d1 := (d.setFlag F.hrtClkStatDiscact act).setFlag F.hrtClkStatDischold (en && !lock)
  (d1.when (act && !was) fun d => d.aim).when (en && !lock) fun d => d.set F.hrtClkStatDisclost 1

/-- Where the steering moves: to the aim while disciplining acts, to zero while EN is 0, nowhere while it is held (R23 to R25). -/
def Dev.steerGoal (d : Dev) : Int :=
  if !d.flag F.hrtClkDiscEn then 0 else if d.flag F.hrtClkStatDiscact then d.time.steerTo else d.steering

/-- A value moved towards another by at most `k`. -/
def towards (v goal : Int) (k : Nat) : Int := if v ≤ goal then min goal (v + k) else max goal (v - k)

/-- The ticks between two counts of ticks move the steering at the slew limit of 0.5 ppm/s, one unit in 78,125 ticks; a frozen
control word stands (R22, R23, R25). -/
def Dev.steer (d : Dev) (was now : Nat) : Dev :=
  d.when (d.time.frozen.isNone && was / 78125 != now / 78125) fun d => d.showSteer (towards d.steering d.steerGoal (now / 78125 - was / 78125))

/-- A new measurement of the engine that disciplining follows is its aim (R51). -/
def Dev.steerBy (d : Dev) (e : Nat) : Dev :=
  d.when (d.flag F.hrtClkStatDiscact && d.serving (d.get F.hrtClkDiscSrc) == some e) fun d => d.aim

/-! ### Acquisition -/

/-- The decode set in effect. -/
def Dev.decode (d : Dev) (e : Nat) : Nat := d.get (F.leRxcDecodeMask e)

/-- Phase lock lost on the subcarriers of a mask: each decoded one that had it delivers zero LLRs from here on and
raises CR_UNLOCK after its first lock (R57, R68). -/
def Dev.dropPhase (d : Dev) (e m : Nat) : Dev :=
  d.each (maskBits 32 m) fun d s =>
    if d.flag (F.leRxsStatPhlock e s) then
      (d.set (F.leRxsStatPhlock e s) 0).when ((d.decode e).testBit s && (d.eng e).phFirst.testBit s) fun d =>
        d.rxEvent e 9 [R.leRxsStat e s]
    else d

/-- Locks cleared without an event: a disconnected engine has none. -/
def Dev.clearLocks (d : Dev) (e : Nat) : Dev :=
  ((d.each (List.range 32) fun d s =>
    (d.set (F.leRxsStatPhlock e s) 0).set (F.leRxsStatEqlock e s) 0).set (F.leRxcTrstatLock e) 0).discipline

/-- The largest dispersion of the mode of the wavelength an engine is connected to (R41). -/
def Dev.modeRange (d : Dev) (e : Nat) : Nat :=
  match d.engWl e with
  | some w => if (d.wave w).leaf then 4000 else 80000
  | none => 80000

/-- The part of the search window within the range of the mode; none where WIN is 0 or the window lies wholly outside it (R41). -/
def scanWindow (lim : Nat) (centre : Int) (win : Nat) : Option (Int × Int) :=
  let lo := centre - 500 * (win : Int)
  let hi := centre + 500 * (win : Int)
  if win = 0 ∨ hi < -(lim : Int) ∨ (lim : Int) < lo then none else some (max (-(lim : Int)) lo, min (lim : Int) hi)

/-- The start of an acquisition (R62): step 1, or verify form (7); counted in ACQCNT. Phase lock is lost with it; timing and
equaliser lock are lost by their own conditions only (R47, R50, log 21). PRESET, WIN and the mode are taken for the scan (R41, R66,
R68). The model's choice (log 70): a centre taken from a failed verify or a
snapshot without an acquired state stands for every start until a scan succeeds. -/
def Dev.startAcq (d : Dev) (e step : Nat) : Dev :=
  let d0 := d.dropPhase e (2 ^ 32 - 1)
  let lim := d.modeRange e
  let win := scanWindow lim ((d.eng e).cdCentre.getD (d.getInt (F.leRxcCdcfgPreset e))) (d.get (F.leRxcCdcfgWin e))
  let range := win.getD (-(lim : Int), (lim : Int))
  (((d0.set (F.leRxcStatAcq e) step).count (F.leRxcStatAcqcnt e) 1).when (step == 1) fun d =>
    d.set (F.leRxcCdstatValid e) 0).setEng e fun g =>
      { g with cdRetried := false, scanLim := lim, scanLo := range.1, scanHi := range.2, scanWin := win.isSome, oldAcq := []
               verify := false, cdOk := false, cfoOk := false }

/-- The step an acquisition starts with: verify form where an acquired state is held for it (R63). -/
def Dev.firstStep (d : Dev) (e : Nat) : Nat := if (d.eng e).verify then 7 else 1

/-- A failed verify (R63): on at step 1, the window centred on the snapshot's dispersion. -/
def Dev.verifyFail (d : Dev) (e : Nat) : Dev :=
  let est := d.getInt (F.leRxcCdstatEst e)
  (d.setEng e fun g => { g with cdCentre := some est }).startAcq e 1

/-- A restart of frequency acquisition (R484): back to step 2, phase lock lost, the other locks kept. -/
def Dev.restartFreq (d : Dev) (e : Nat) : Dev := (d.dropPhase e (2 ^ 32 - 1)).set (F.leRxcStatAcq e) 2

/-- Every decoded subcarrier shows a lock. -/
def Dev.allDecoded (d : Dev) (e : Nat) (f : Nat → Nat → Fld) : Bool :=
  d.decode e != 0 && (maskBits 32 (d.decode e)).all fun s => d.flag (f e s)

/-- The step reached once locks that already hold are complete at once (R484); the verify form ends when both of its checks
have passed and all locks hold (R63). -/
def Dev.advance (d : Dev) (e : Nat) : Dev :=
  let tl := d.flag (F.leRxcTrstatLock e)
  let eq := d.allDecoded e F.leRxsStatEqlock
  let ph := d.allDecoded e F.leRxsStatPhlock
  let a := d.get (F.leRxcStatAcq e)
  let n := if a = 7 then (if (d.eng e).cdOk && (d.eng e).cfoOk && tl && eq && ph then 6 else 7)
    else if a < 3 then a
    else if !tl then max a 3
    else if !eq then max a 4
    else if !ph then max a 5
    else 6
  d.set (F.leRxcStatAcq e) n

/-! ### Soft bits (R39, R49, R57, R58, R78) -/

/-- An engine's LLRs of a subcarrier of wavelength `w` are not zero: it is decoded and has its alignment from the framer (R112), phase
lock holds, its equaliser has locked since its taps were last reinitialised, and the set is not in loss of signal. -/
def Dev.llrFlows (d : Dev) (w e s : Nat) : Bool :=
  (d.decode e).testBit s && (Tbl.get none (d.eng e).align s).isSome && d.flag (F.leRxsStatPhlock e s) && !(d.eng e).eqZero.testBit s && !d.flag (F.cvAdcStatLos w)

/-- An LLR as delivered: times SCALE/16, the rounding of a fraction open, saturated at ±31 (R58). -/
def llrOut (scale : Nat) (x : Int) : Int :=
  let p := x * scale
  let q := p.fdiv 16 + (if p.fmod 16 = 0 then 0 else if Config.roundsUp p then 1 else 0)
  max (-31) (min 31 q)

/-- What an engine delivers to the framer for an LLR of the demapper. -/
def Dev.llr (d : Dev) (w e s : Nat) (x : Int) : Int :=
  if d.llrFlows w e s then llrOut (d.inUse e (F.leRxsLlrcfgScale e s)) x else 0

/-- Of the LLRs of the six label bits of a polarisation symbol at position `p`, two signs and then the index bits with the most
significant first, those that carry line bits (R75, R78). -/
def demapSymbol (code p : Nat) (label : List Int) : List Int :=
  label.take 2 ++ (label.drop (6 - indexBits code p)).take (indexBits code p)

/-- The LLRs of a run of payload symbols from a group's start on, X and Y of each position in turn (R75, R78). -/
def demap (code : Nat) (labels : List (List Int)) : List Int :=
  (labels.zipIdx).flatMap fun x => demapSymbol code (x.2 / 2 % 8) x.1

/-! ### Connection (R46, R60) -/

/-- The engine takes the kind of receive of a decode set: WIDE for more than 8; QUAL invalid until its first latch. -/
def Dev.takeKind (d : Dev) (e m : Nat) : Dev :=
  (d.each (List.range 32) fun d s => d.set (F.leRxsQualValid e s) 0).setFlag (F.leRxcStatWide e)
    (decide (8 < (maskBits 32 m).length))

/-- An engine is connected: it takes the wavelength's decode set at once, with no receive-mode event. The memory of RX_QUAL_LOW
stands through a connection and a change of kind (the model's choice, log 70). -/
def Dev.connectDecode (d : Dev) (e m : Nat) : Dev :=
  ((d.set (F.leRxcDecodeMask e) m).takeKind e m).setEng e fun g => { g with pendDecode := none, phFirst := 0, tlFirst := false }

/-- A laser step of a wavelength that has not been sent is taken back (R54): none is sent in loss of signal or in a sparing gap, nor
for an engine that leaves. -/
def Dev.recallStep (d : Dev) (w : Nat) : Dev :=
  match (d.conv w).waitLaser with
  | some (e, st) =>
    ((d.setConv w fun c => { c with waitLaser := none }).setInt (F.leRxcCfostatLaser e) (d.getInt (F.leRxcCfostatLaser e) - st)).setEng e fun g =>
      { g with laserOut := none, winOpen := false }
  | none => d

/-- An engine is disconnected: its decode set is empty at once, and it is idle; its laser step that has not been sent is taken back. -/
def Dev.disconnect (d : Dev) (e : Nat) : Dev :=
  let d0 := d.each [0, 1] fun d w => d.when ((d.conv w).waitLaser.any fun x => x.1 == e) fun d => d.recallStep w
  ((((d0.clearLocks e).set (F.leRxcDecodeMask e) 0).takeKind e 0).set (F.leRxcStatAcq e) 0).setEng e fun g => { g with pendDecode := none }

/-! ### The commands -/

/-- The ADC inputs of a converter set are used: its cord is on, and the device is not in reset (R467). -/
def Dev.adcOn (d : Dev) (w : Nat) : Bool := d.cordOn (4 + w) && !d.inReset

/-- The set is in loss of signal by four levels: each below −LOSLVL dBFS, in units of 0.25 dB (R39). -/
def Dev.losLevels (d : Dev) (w : Nat) (lvl : Word) : Bool :=
  (List.range 4).all fun c => decide (4 * d.get (F.cvAdcCfgLoslvl w) < lvl.toNat / 2 ^ (8 * c) % 256)

/-- RX_LOS (R39, R69, R376): a withdrawn set shows its levels and declares nothing. -/
def execRxLos (w : Fin 2) (lvl : Word) (s : State) : Host.Outcome State Fault Refusal := s.run fun _ d =>
  d.when (d.adcOn w) fun d =>
    let d1 := d.setReg (R.cvAdcLvl w) lvl
    d1.when (d1.released (4 + w) && d1.losLevels w lvl && !d1.flag (F.cvAdcStatLos w)) fun d =>
      (((d.recallStep w).set (F.cvAdcStatLos w) 1).set (F.cvAdcStatLosstk w) 1).inputEvent w 0 [R.cvAdcStat w]

/-- LOS_CLEAR (R39, R62, R376): the receiving engines start an acquisition. -/
def execLosClear (w : Fin 2) (lvl : Word) (s : State) : Host.Outcome State Fault Refusal := s.run fun _ d =>
  d.when (d.adcOn w) fun d =>
    let d1 := d.setReg (R.cvAdcLvl w) lvl
    d1.when (d1.released (4 + w) && !d1.losLevels w lvl && d1.flag (F.cvAdcStatLos w)) fun d =>
      (d.set (F.cvAdcStatLos w) 0).each (d.receivers w) fun d e => d.startAcq e (d.firstStep e)

/-- ADC_CLIP (R40, R69): the clips of channel `ch` in 2^20 consecutive samples. Every declared window is counted; the event is
raised when the set's first one opens. -/
def execAdcClip (w : Fin 2) (ch : Fin 4) (clips : Nat) (s : State) : Host.Outcome State Fault Refusal := s.run fun _ d =>
  let now := decide (d.get (F.cvAdcCfgClipthr w) < clips)
  let m := (d.conv w).clipOpen
  let m' := if now then setBit m ch else clrBit m ch
  d.when (d.adcOn w) fun d =>
    let d1 := (d.setConv w fun c => { c with clipOpen := m' }).setFlag (F.cvAdcStatClip w) (m' != 0)
    d1.when now fun d => ((d.set (F.cvAdcStatClipstk w) 1).count (F.cvAdcStatClipcnt w) 1).when (m == 0) fun d =>
      d.inputEvent w 1 [R.cvAdcStat w, R.cvAdcLvl w]

/-- ACQUISITION_START (R62). -/
def execAcquisitionStart (e : Fin 3) (s : State) : Host.Outcome State Fault Refusal := s.run fun _ d =>
  d.when (d.hears e) fun d => d.startAcq e 1

/-- CD_SCAN_DONE (R41, R42, R63): the scan's estimate within what it scans, in steps of 10 ps/nm from its first dispersion, or
none of sufficient confidence; in verify form the check of the snapshot's dispersion. -/
def execCdScanDone (e : Fin 3) (est : Option Int) (s : State) : Host.Outcome State Fault Refusal := s.run fun _ d =>
  if !d.hears e then d
  else if d.get (F.leRxcStatAcq e) = 1 then
    match est with
    | some x =>
      let g := d.eng e
      let v := g.scanLo + 10 * ((x - g.scanLo) / 10)
      if x < g.scanLo ∨ g.scanHi < x then d
      else
        ((((d.setInt (F.leRxcCdstatEst e) v).set (F.leRxcCdstatValid e) 1).set (F.leRxcCdstatSrc e) (if g.scanWin then 3 else 1)).set
          (F.leRxcStatAcq e) 2).setEng e fun g => { g with cdRef := v, cdRetried := false, cdCentre := none }
    | none =>
      if (d.eng e).cdRetried then (d.rxEvent e 2 [R.leRxcCdstat e]).startAcq e 1
      else d.setEng e fun g => { g with cdRetried := true, scanLo := -(g.scanLim : Int), scanHi := g.scanLim, scanWin := false }
  else if d.get (F.leRxcStatAcq e) = 7 then
    match est with
    | some v =>
      if (v - d.getInt (F.leRxcCdstatEst e)).natAbs ≤ 500 then (d.setEng e fun g => { g with cdOk := true }).advance e else d.verifyFail e
    | none => d.verifyFail e
  else d

/-- CFO_ACQ_DONE (R52, R63): an offset in MHz. -/
def execCfoAcqDone (e : Fin 3) (cfo : Int) (s : State) : Host.Outcome State Fault Refusal := s.run fun _ d =>
  if !d.hears e then d
  else if d.get (F.leRxcStatAcq e) = 2 then
    if cfo.natAbs ≤ 3600 then ((d.setInt (F.leRxcCfostatCfo e) cfo).set (F.leRxcStatAcq e) 3).advance e else d
  else if d.get (F.leRxcStatAcq e) = 7 then
    if (cfo - d.getInt (F.leRxcCfostatCfo e)).natAbs ≤ 200 then
      ((d.setInt (F.leRxcCfostatCfo e) cfo).setEng e fun g => { g with cfoOk := true }).advance e
    else d.verifyFail e
  else d

/-- CFO_ACQ_FAIL (R52, R63, R484). -/
def execCfoAcqFail (e : Fin 3) (s : State) : Host.Outcome State Fault Refusal := s.run fun _ d =>
  if !d.hears e then d
  else if d.get (F.leRxcStatAcq e) = 2 then (d.rxEvent e 7 [R.leRxcCfostat e]).restartFreq e
  else if d.get (F.leRxcStatAcq e) = 7 then d.verifyFail e
  else d

/-- NCO_RANGE (R53, R484): the residual offset in MHz. -/
def execNcoRange (e : Fin 3) (residual : Int) (s : State) : Host.Outcome State Fault Refusal := s.run fun _ d =>
  d.when (d.hears e && decide (3 ≤ d.get (F.leRxcStatAcq e)) && decide (d.get (F.leRxcStatAcq e) ≤ 6)
    && decide (4000 < residual.natAbs)) fun d => (d.rxEvent e 11 [R.leRxcCfostat e]).restartFreq e

/-- TIMING_LOCK (R50, R51, R24): the measured offset in 0.01 ppm and the RMS timing error in 1/256 symbol. -/
def execTimingLock (e : Fin 3) (offset : Int) (tejit : Nat) (s : State) : Host.Outcome State Fault Refusal :=
  s.run fun _ d =>
    d.when (d.hears e && decide (offset.natAbs ≤ 20000) && decide (tejit < 16)
      && (decide (3 ≤ d.get (F.leRxcStatAcq e)))) fun d =>
      ((((((d.setInt (F.leRxcTrstatOffset e) offset).set (F.leRxcTrstatTejit e) tejit).set (F.leRxcTrstatLock e) 1).setEng e
        fun g => { g with tlFirst := true }).discipline).steerBy e).advance e

/-- TR_UNLOCK (R50, R24, R57): lost on an error above 1/4 symbol or an offset beyond ±200 ppm; carrier lock goes with
it, and a new acquisition starts. In loss of signal and with its set withdrawn the engine holds its locks (R39, R376). -/
def execTrUnlock (e : Fin 3) (offset : Int) (tejit : Nat) (s : State) : Host.Outcome State Fault Refusal :=
  s.run fun _ d =>
    if d.hears e && d.flag (F.leRxcTrstatLock e) && (decide (64 < tejit) || decide (20000 < offset.natAbs)) then
      let d1 := ((d.setInt (F.leRxcTrstatOffset e) offset).set (F.leRxcTrstatTejit e) (min tejit 255)).set
        (F.leRxcTrstatLock e) 0
      let d2 := (d1.when (d1.eng e).tlFirst fun d => d.set (F.leRxcTrstatUnlkstk e) 1).rxEvent e 6 [R.leRxcTrstat e]
      let d3 := (d2.dropPhase e (2 ^ 32 - 1)).discipline
      d3.startAcq e 1
    else d

/-- EQ_CONVERGED (R47, R49): the equalisers of a mask of decoded subcarriers converge. -/
def execEqConverged (e : Fin 3) (mask : Word) (s : State) : Host.Outcome State Fault Refusal := s.run fun _ d =>
  d.when (d.hears e && decide (4 ≤ d.get (F.leRxcStatAcq e))) fun d =>
    (d.each (maskBits 32 (mask.toNat &&& d.decode e)) fun d k =>
      (d.set (F.leRxsStatEqlock e k) 1).setEng e fun g => { g with eqZero := clrBit g.eqZero k }).advance e

/-- PHASE_LOCK (R56). -/
def execPhaseLock (e : Fin 3) (sc : Fin 32) (s : State) : Host.Outcome State Fault Refusal := s.run fun _ d =>
  d.when (d.hears e && (d.decode e).testBit sc && decide (5 ≤ d.get (F.leRxcStatAcq e))) fun d =>
    ((d.set (F.leRxsStatPhlock e sc) 1).setEng e fun g => { g with phFirst := setBit g.phFirst sc }).advance e

/-- CR_UNLOCK (R57, R376). -/
def execCrUnlock (e : Fin 3) (sc : Fin 32) (s : State) : Host.Outcome State Fault Refusal := s.run fun _ d =>
  d.when (d.hears e) fun d => d.dropPhase e (2 ^ sc.val)

/-- CR_SLIP (R56): a quadrant disagreement at a pilot, once the framer has confirmed alignment and the engine knows its pilots (R112). -/
def execCrSlip (e : Fin 3) (sc : Fin 32) (s : State) : Host.Outcome State Fault Refusal := s.run fun _ d =>
  d.when (d.hears e && d.flag (F.leRxsStatPhlock e sc) && (Tbl.get none (d.eng e).align sc).isSome) fun d =>
    ((d.set (F.leRxsStatSlipstk e sc) 1).count (F.leRxsStatSlipcnt e sc) 1).rxEvent e 8 [R.leRxsStat e sc]

/-- EQ_SINGULAR (R48): the taps of that subcarrier go back to the identity. -/
def execEqSingular (e : Fin 3) (sc : Fin 32) (s : State) : Host.Outcome State Fault Refusal := s.run fun _ d =>
  d.when ((d.decode e).testBit sc) fun d =>
    ((d.set (F.leRxsStatSingstk e sc) 1).set (F.leRxsStatEqlock e sc) 0).rxEvent e 4 [R.leRxsStat e sc]

/-- CD_DRIFT (R43, R39): the tracked estimate, while there is signal. -/
def execCdDrift (e : Fin 3) (est : Int) (s : State) : Host.Outcome State Fault Refusal := s.run fun _ d =>
  if d.flag (F.leRxcCdcfgTrken e) && d.flag (F.leRxcCdstatValid e) && d.hears e then
    let d1 := d.setInt (F.leRxcCdstatEst e) est
    d1.when (decide (500 < (est - (d.eng e).cdRef).natAbs)) fun d =>
      (d.rxEvent e 3 [R.leRxcCdstat e]).setEng e fun g => { g with cdRef := est }
  else d

/-- ACQ_TIMEOUT (R62). -/
def execAcqTimeout (e : Fin 3) (s : State) : Host.Outcome State Fault Refusal := s.run fun _ d =>
  let a := d.get (F.leRxcStatAcq e)
  d.when (d.hears e && a != 0 && a != 6) fun d => (d.rxEvent e 15 [R.leRxcStat e]).startAcq e 1

/-- A waiting change of the decode set takes effect at a superframe boundary (R46, R60). -/
def Dev.applyDecode (d : Dev) (e : Nat) : Dev :=
  match (d.eng e).pendDecode with
  | none => d
  | some m =>
    let was := d.flag (F.leRxcStatWide e)
    let now := decide (8 < (maskBits 32 m).length)
    let old := d.decode e
    let d1 := (d.set (F.leRxcDecodeMask e) m).setEng e fun g => { g with pendDecode := none }
    let d2 := d1.each (maskBits 32 (old ^^^ (old &&& m))) fun d s =>
      ((d.set (F.leRxsQualValid e s) 0).set (F.leRxsStatEqlock e s) 0).set (F.leRxsStatPhlock e s) 0
    d2.when (was != now) fun d => (d.takeKind e m).rxEvent e 14 [R.leRxcStat e]


/-- QUAL_LATCH (R60, R61): power in 0.1 dB for narrow receive; SNR in 1/64 dB and EVM in 0.01 % for wide receive. The model's
choice (log 70): the memory of a low latch stands through a change of kind and a reconnection, so the first low latch of
the new measure raises no event where the last of the old one was low. -/
def execQualLatch (e : Fin 3) (sc : Fin 32) (level : Int) (evm : Nat) (s : State) : Host.Outcome State Fault Refusal :=
  s.run fun _ d =>
    if (d.decode e).testBit sc then
      let wide := d.flag (F.leRxcStatWide e)
      let lvl : Int := if wide then max 0 (min level 2560) else max (-600) (min level 0)
      let low := if wide then decide (lvl < (d.get (F.leRxsQthrSnrmin e sc) : Nat))
        else decide (lvl < -((d.get (F.leRxsQthrPwrmin e sc) : Nat) : Int))
      let was := (d.eng e).qualLow.testBit sc
      let d1 := (((d.setFlag (F.leRxsQualKind e sc) wide).setInt (F.leRxsQualLevel e sc) lvl).set (F.leRxsQualEvm e sc)
        (if wide then min evm 10000 else 0)).set (F.leRxsQualValid e sc) 1
      let d2 := d1.setEng e fun g => { g with qualLow := if low then setBit g.qualLow sc else clrBit g.qualLow sc }
      d2.when (low && !was) fun d => d.rxEvent e 12 [R.leRxsQual e sc]
    else d

/-- EQ_SOP_RATE (R68): the rotation rate in 0.1 Mrad/s and the DGD in ps at a superframe end. The model's choice (log 70): "any
decoded subcarrier above 50" is one condition for each subcarrier, so a second subcarrier that passes the limit raises again. -/
def execEqSopRate (e : Fin 3) (sc : Fin 32) (rate dgd : Nat) (s : State) : Host.Outcome State Fault Refusal :=
  s.run fun _ d =>
    if (d.decode e).testBit sc then
      let high := decide (50 < rate)
      let was := (d.eng e).sopHigh.testBit sc
      let d1 := ((d.set (F.leRxsPolSoprate e sc) (min rate 65535)).set (F.leRxsPolDgd e sc) (min dgd 65535)).setEng e
        fun g => { g with sopHigh := if high then setBit g.sopHigh sc else clrBit g.sopHigh sc }
      d1.when (high && !was) fun d => d.rxEvent e 5 [R.leRxsPol e sc]
    else d

/-- The LLRs an engine delivers of a subcarrier from the label LLRs of its payload symbols, under the profile in effect (R57 to
R59, R78). -/
def Dev.softBits (d : Dev) (w e s : Nat) (labels : List (List Int)) : List Int :=
  (demap (d.get (F.leRxsLlrcfgProfile e s)) labels).map (d.llr w e s)

/-- LLR_SAT (R58, R59, R78, R443, R445): a line frame of a subcarrier ends and the next begins, with the six label LLRs of each
polarisation symbol of the first; an LLR delivered at ±31 counts as saturated. -/
def execLlrSat (e : Fin 3) (sc : Fin 32) (labels : List (List Int)) (s : State) : Host.Outcome State Fault Refusal :=
  s.run fun _ d =>
    match d.engWl e with
    | none => d
    | some w =>
      if (d.decode e).testBit sc then
        let llrs := d.softBits w e sc labels
        let sat := (llrs.filter fun x => x.natAbs == 31).length
        let high := decide (d.inUse e (F.leRxsLlrcfgSatthr e sc) * llrs.length < sat * 256)
        let was := (d.eng e).satHigh.testBit sc
        let d1 := d.setEng e fun g => { g with satHigh := if high then setBit g.satHigh sc else clrBit g.satHigh sc }
        (d1.when (high && !was) fun d => d.rxEvent e 13 [R.leRxsLlrcfg e sc]).setEng e fun g =>
          { g with oldLine := g.oldLine.release d.time.ticks fun k => k / 32 == R.leRxsLlrcfg e sc }
      else d

/-- Host writes to RXC and RXS parameters are refused while the engine loads a snapshot or stands in a revert
overlap (R67). -/
def Dev.rxWritesRefused (d : Dev) (e : Nat) : Bool :=
  (d.spr1 e).loading || match d.engWl e with
    | some w => d.flag (F.cvSelStatOverlap w)
    | none => false

end Sys2Proof.Machine
end

