-- ==== Sys2Proof/Machine/LineTx.lean ====
section
/-!
DEFINITION. Coherent transmit and front-end control: 03_line_transmit, and the laser loop of R54 that drives the
Turuid port.
-/

namespace Sys2Proof.Machine

/-! ### Null (R87) -/

/-- Ticks that cover `n` symbols: one tick is 12.5 symbols (R18). -/
def symTicks (n : Nat) : Nat := (2 * n + 24) / 25

/-- Symbols since a burst's start, at least (R18). -/
def Dev.burstAge (d : Dev) (b : BurstOn) : Nat := (d.time.ticks - b.tick) * 25 / 2

/-- A burst is past the 32 symbols of null of its guard (R155), where its window of the transmit gate opens (R167). -/
def Dev.burstOpen (d : Dev) (b : BurstOn) : Bool := decide (32 ≤ d.burstAge b)

/-- The output of a wavelength with an engine is at null: mask mute, sparing gap, traffic not released, or in leaf
mode no burst in progress past its null. -/
def Dev.atNull (d : Dev) (w e : Nat) : Bool :=
  (d.eng e).muteOut || (d.wave w).txCut || !d.released (4 + w) || !d.released (6 + w) || ((d.wave w).leaf && !(d.wave w).burstsOn.any d.burstOpen)

/-- A burst is in its ramp-up, or in the ramp-down after its last symbol (R88, R155). -/
def Dev.burstRamps (d : Dev) (b : BurstOn) : Bool :=
  let n := d.burstAge b
  (decide (32 ≤ n) && decide (n < 64)) || decide (1000 * b.grant.len ≤ n)

/-- The output ramps now: within a burst's or a line frame's ramp, or in the last 32 symbols of the line frame before the mask
mute holds it at null (R88). -/
def Dev.ramping (d : Dev) (w e : Nat) : Bool :=
  (match (d.wave w).ramp with
    | some r => decide (r.1 ≤ d.time.ticks) && decide (d.time.ticks < r.2)
    | none => false)
  || (!d.atNull w e && (d.wave w).leaf && (d.wave w).burstsOn.any d.burstRamps)
  || (!d.atNull w e && d.flag (F.leTxcStatMuted e) && decide ((d.wave w).lineAt + 10240 ≤ d.time.ticks + symTicks 32))

/-- The transmit state of an engine that serves `w`: ramping, null, or transmitting. -/
def Dev.txStateIn (d : Dev) (w e : Nat) : Nat := if d.ramping w e then 2 else if d.atNull w e then 0 else 1

/-- The transmit state of an engine: that of the wavelength it serves, null while it is given one, or not connected. -/
def Dev.txStateOf (d : Dev) (e : Nat) : Nat :=
  if d.serving 0 == some e then d.txStateIn 0 e
  else if d.serving 1 == some e then d.txStateIn 1 e
  else if d.get F.hrtSprStatWaeng == e || d.get F.hrtSprStatWbeng == e then 0
  else 3

/-- Null of a point-to-point wavelength that has ended starts a ramp-up of 32 symbols, and null cuts a ramp short (R88). -/
def Dev.rampNext (d : Dev) (w : Nat) : Dev :=
  match d.serving w with
  | none => d.setWave w fun v => { v with ramp := none }
  | some e =>
    if (d.wave w).leaf then d
    else if d.atNull w e then d.setWave w fun v => { v with ramp := none }
    else d.when (d.get (F.leTxcStatState e) == 0 || d.get (F.leTxcStatState e) == 3) fun d =>
      d.setWave w fun v => { v with ramp := some (d.time.ticks, d.time.ticks + symTicks 32) }

/-- STATE of every powered engine as R87 and R88 give it. -/
def Dev.txRefresh (d : Dev) : Dev :=
  ((d.rampNext 0).rampNext 1).each [0, 1, 2] fun d e => d.when (d.cordOn (1 + e)) fun d => d.set (F.leTxcStatState e) (d.txStateOf e)

/-- A transmit line frame boundary of an engine at tick `b`: writes in time for it are in use, and the mask mute begins or ends (R82,
R84, R85, R445). -/
def Dev.engLine (d : Dev) (e b : Nat) : Dev :=
  let g := d.eng e
  let un := g.unmute.any fun t => decide (t + 32 ≤ b)
  let on := d.flag (F.leTxcStatMuted e) && !un
  ((d.when un fun d => d.set (F.leTxcStatMuted e) 0).setEng e fun g =>
    { g with oldLine := g.oldLine.release b fun k => !rxKey k, muteOut := on, unmute := if un then none else g.unmute }).txRefresh

/-- A transmit superframe boundary of an engine at tick `b` (R81, R83, R445). -/
def Dev.engSend (d : Dev) (e b : Nat) : Dev := d.setEng e fun g => { g with oldSf := g.oldSf.release b fun k => !rxKey k }

/-- A receive superframe boundary of an engine at tick `b`: writes in time for it are in use, and the taps of a subcarrier whose TAPS
or ROLLOFF changes there go back to their start, with zero LLRs until its equaliser locks (R49, R445). A subcarrier that is not
decoded has no line frames of its own; its fields take this boundary. -/
def Dev.engSuperframe (d : Dev) (e b : Nat) : Dev :=
  let was := (d.eng e).oldSf
  let now := was.release b rxKey
  let new (f : Fld) : Bool := Tbl.get [] was f.key != Tbl.get [] now f.key
  let ks := (List.range 32).filter fun s => new (F.leRxsEqcfgTaps e s) || new (F.leRxsEqcfgRolloff e s)
  (d.each ks fun d s => d.set (F.leRxsStatEqlock e s) 0).setEng e fun g => { g with
    oldSf := now, eqZero := ks.foldl setBit g.eqZero
    oldLine := g.oldLine.release b fun k => rxKey k && !(d.decode e).testBit (k / 2 ^ 21 % 32) }

/-- A transmit event of condition `c`, raised by the serving engine only, and not in a sparing gap (R100, R207). -/
def Dev.txEvent (d : Dev) (e c : Nat) (addrs : List Nat) : Dev :=
  if d.serving 0 == some e then d.when (!(d.wave 0).gap) fun d => d.raise (0x40 + 2 * c) addrs
  else if d.serving 1 == some e then d.when (!(d.wave 1).gap) fun d => d.raise (0x41 + 2 * c) addrs
  else d

/-- The engine serves a wavelength. -/
def Dev.serves (d : Dev) (e : Nat) : Bool := d.serving 0 == some e || d.serving 1 == some e

/-! ### Mask, mute and clips -/

/-- The lowest violating bin (R84). -/
def Dev.violBin (d : Dev) (e : Nat) : Option Nat :=
  (List.range 512).find? fun b => decide (d.get (F.leTxmBinMeas e b) < d.get (F.leTxmBinLimit e b))

/-- MASK_CHECK (R83, R84, R99): the bin powers of a superframe before the mask's attenuation, 0.25 dB below full scale per unit,
255 where none is given; MEAS is the power after ATT. The output is held at null from the next line frame boundary. The
model's choice (log 70): MASKSTK and VIOLBIN of an engine that does not serve stand, as its MASKCNT does. -/
def execMaskCheck (e : Fin 3) (power : List Byte) (s : State) : Host.Outcome State Fault Refusal := s.run fun _ d =>
  if d.flag (F.leTxcMaskctlMonen e) then
    let d1 := d.each (List.range 512) fun d b =>
      d.set (F.leTxmBinMeas e b) (min 255 ((power.getD b 255).toNat + d.inUse e (F.leTxmBinAtt e b)))
    match d1.violBin e with
    | none => d1
    | some b =>
      if d1.serves e then
        let d2 := (((d1.set (F.leTxcStatMaskstk e) 1).count (F.leTxcStatMaskcnt e) 1).set
          (F.leTxcMaskctlViolbin e) b).txEvent e 0 [R.leTxcMaskctl e, R.leTxmBin e b]
        d2.when (d2.flag (F.leTxcMaskctlMuteen e) && !d2.flag (F.leTxcStatMuted e)) fun d =>
          ((d.set (F.leTxcStatMuted e) 1).setEng e fun g => { g with unmute := none }).txEvent e 3 [R.leTxcStat e]
      else d1
  else d

/-- A write of UNMUTE ends the mask mute at the next line frame boundary (R84, R445). -/
def Dev.unmute (d : Dev) (e : Nat) : Dev :=
  d.when (d.flag (F.leTxcStatMuted e)) fun d => d.setEng e fun g => { g with unmute := some (g.unmute.getD d.time.ticks) }

/-- The sums of a FIR over samples, from the samples before them, newest first (R85). -/
def firSums (taps : List Int) : List Int → List Int → List Int
  | _, [] => []
  | past, x :: t => (List.zipWith (· * ·) taps (x :: past)).sum :: firSums taps ((x :: past).take taps.length) t

/-- A FIR sum as a DAC code: 2^20 units of it are one code, the rounding of a fraction is open, and the output saturates (R85). -/
def dacCode (y : Int) : Int :=
  max (-128) (min 127 (y.fdiv 1048576 + (if y.fmod 1048576 = 0 then 0 else if Config.roundsUp y then 1 else 0)))

/-- The 17 coefficients in use of a DAC channel (R85). -/
def Dev.taps (d : Dev) (e ch : Nat) : List Int := (List.range 17).map fun t => d.inUseInt e (F.leTxpTapCoef e ch t)

/-- What a DAC channel puts out for the samples of the scaled composite, in 1/1,024 of a code (R85); the FIR goes on from the samples
before them. -/
def Dev.dacCodes (d : Dev) (e ch : Nat) (xs : List Int) : List Int :=
  (firSums (d.taps e ch) (Tbl.get [] (d.eng e).firPast ch) xs).map dacCode

/-- TX_DAC_CLIP (R85, R69): the scaled composite of a DAC channel over 2^20 samples, before its FIR, which keeps the last 16 of them
for the next. Every declared window is counted; the event is raised when the engine's first one opens. -/
def execTxDacClip (e : Fin 3) (ch : Fin 4) (xs : List Int) (s : State) : Host.Outcome State Fault Refusal :=
  s.run fun _ d =>
    let clips := ((d.dacCodes e ch xs).filter fun y => y == -128 || y == 127).length
    let now := decide (d.get (F.leTxcCfgClipthr e) < clips)
    let was := (d.eng e).dacClip
    let m := if now then setBit was ch else clrBit was ch
    let past := (xs.reverse ++ Tbl.get [] (d.eng e).firPast ch).take 16
    let d1 := (d.setEng e fun g => { g with dacClip := m, firPast := Tbl.set [] g.firPast ch past }).setFlag (F.leTxcStatClip e) (m != 0)
    d1.when now fun d => ((d.set (F.leTxcStatClipstk e) 1).count (F.leTxcStatClipcnt e) 1).when (was == 0) fun d => d.txEvent e 2 [R.leTxcStat e]

/-! ### Turuid port -/

/-- A Turuid frame with its CRC (R90, R91). -/
def trdFrame (type seq arg : Nat) : Nat :=
  let body := type % 16 * 2 ^ 36 + seq % 16 * 2 ^ 32 + arg % 2 ^ 32
  body * 256 + crc8 0xFF (bitsOf 40 body)

/-- The checks of a write of GO (R96): an error code, 0 for none. -/
def Dev.trdCheck (d : Dev) (w : Nat) (v : Word) : Nat :=
  if (F.cvTrdCmdGo w).of v = 0 then 0
  else
    let t := (F.cvTrdCmdType w).of v
    let loop := match d.serving w with
      | some e => d.flag (F.leRxcLsrcfgEn e)
      | none => false
    if t = 15 then 9 else if d.flag (F.cvTrdStatBusy w) || (t == 1 && loop) then 0xA else 0

/-- An accepted GO (R96): the argument is copied, and the host's command waits for the port. -/
def Dev.trdGo (d : Dev) (w : Nat) (v : Word) : Dev :=
  d.when ((F.cvTrdCmdGo w).of v != 0) fun d =>
    (d.setConv w fun c => { c with waitHost := some ((F.cvTrdCmdType w).of v, d.get (F.cvTrdArgArg w)) }).set
      (F.cvTrdStatBusy w) 1

/-- The command sent next: laser loop, the device's own (R89, R204), host, heartbeat (R95). -/
def Conv.next (c : Conv) : Option (TrdSource × Nat × Nat × Conv) :=
  match c.waitLaser, c.waitRd, c.waitDev, c.waitHost with
  | some (e, st), _, _, _ => some (.laser e st, 1, unsignedOf 32 st, { c with waitLaser := none })
  | none, some e, _, _ => some (.laserRd e, 2, 0, { c with waitRd := none })
  | none, none, a :: t, _ => some (.device, 4, a, { c with waitDev := t })
  | none, none, [], some (ty, a) => some (.host, ty, a, { c with waitHost := none })
  | none, none, [], none => if c.waitHb then some (.heartbeat, 0, 0, { c with waitHb := false }) else none

/-- TURUID_COMMAND_START (R90, R92, R95). A laser step still waits here only outside loss of signal and a sparing gap (R54). -/
def execTuruidCommandStart (w : Fin 2) (s : State) : Host.Outcome State Fault Refusal := s.run fun _ d =>
  if (d.conv w).flight.isSome || !d.cordOn (4 + w) then d
  else match (d.conv w).next with
    | none => d
    | some (src, ty, arg, c) =>
      let f := trdFrame ty c.seq arg
      (d.setConv w fun _ => { c with flight := some (src, f), seq := (c.seq + 1) % 16 }).emit (.turuid w f)

/-- A laser command not applied (R54): cum as before it, LASERFAIL, the laser-loop event, a fresh window. -/
def Dev.laserFailed (d : Dev) (e : Nat) (step : Int) : Dev :=
  (((d.setInt (F.leRxcCfostatLaser e) (d.getInt (F.leRxcCfostatLaser e) - step)).set (F.leRxcStatLaserfail e) 1).setEng e
    fun g => { g with laserOut := none, winOpen := false }).rxEvent e 10 [R.leRxcStat e, R.leRxcCfostat e]

/-- A failure of the port is one more in a row. -/
def Dev.trdFail (d : Dev) (w : Nat) : Dev := d.setConv w fun c => { c with fails := c.fails + 1, flight := none }

/-- A run of DOWNCNT failures takes the link down (R95). -/
def Dev.trdDown (d : Dev) (w : Nat) : Dev :=
  d.when (decide (d.get (F.cvTrdCfgDowncnt w) ≤ (d.conv w).fails) && d.flag (F.cvTrdStatLinkup w)) fun d =>
    (d.set (F.cvTrdStatLinkup w) 0).raise (0x4E + w) [R.cvTrdStat w]

/-- The outcome of a command of the host shows in STAT: `res` is its RESULT. -/
def Dev.trdResult (d : Dev) (w : Nat) (src : TrdSource) (res : Nat) : Dev :=
  d.when (src == .host) fun d => (d.set (F.cvTrdStatBusy w) 0).set (F.cvTrdStatResult w) res

/-- A laser fine-tune that fails: the loop's own counts as not applied; one of the host that times out sets LASERFAIL and raises the
laser-loop event as well (R54, R101). -/
def Dev.trdReportFail (d : Dev) (w : Nat) (src : TrdSource) (cmd : Nat) (timeout : Bool) : Dev :=
  match src with
  | .laser e st => d.laserFailed e st
  | .host => match d.serving w with
    | some e => d.when (timeout && cmd / 2 ^ 44 == 1) fun d => (d.set (F.leRxcStatLaserfail e) 1).rxEvent e 10 [R.leRxcStat e, R.leRxcCfostat e]
    | none => d
  | .device => d
  | .laserRd _ => d
  | .heartbeat => d

/-- The step of an acknowledged LASER_FT opens no window before its settle time has passed (R54, R94), in no engine of the wavelength. -/
def Dev.settling (d : Dev) (w : Nat) (step : Int) : Dev :=
  (d.setConv w fun c => { c with settle := 50000 + 50 * step.natAbs }).each (d.enginesOf w) fun d e =>
    d.setEng e fun g => { g with laserOut := none, winOpen := false }

/-- An acknowledged command of the host: a LASER_FT moves the laser of the wavelength. The model's choice (log 70): LASER, the
loop's total, stands. -/
def Dev.hostAcked (d : Dev) (w cmd : Nat) : Dev := d.when (cmd / 2 ^ 44 == 1) fun d => d.settling w (signedOf 32 (cmd / 256))

/-- TURUID_REPLY (R92 to R95): a 48-bit reply frame. -/
def execTuruidReply (w : Fin 2) (frame : BitVec 48) (s : State) : Host.Outcome State Fault Refusal := s.run fun _ d =>
  match (d.conv w).flight with
  | none => d
  | some (src, cmd) =>
    let f := frame.toNat
    let ty := f / 2 ^ 44
    let arg := f / 256 % 2 ^ 32
    let good := decide (crc8 0xFF (bitsOf 40 (f / 256)) = f % 256) && decide (f / 2 ^ 40 % 16 = cmd / 2 ^ 40 % 16)
      && decide (ty ≤ 1)
    if good then
      let d1 := (((d.setConv w fun c => { c with flight := none, fails := 0 }).set (F.cvTrdStatLinkup w) 1).trdResult w src (1 + ty)).when
        (src == .host) fun d => d.set (F.cvTrdRspArg w) arg
      let d2 := if ty = 1 then (d1.count (F.cvTrdStatNakcnt w) 1).raise (0x4C + w) [R.cvTrdStat w] else d1
      match src with
      | .laser e st => if ty = 0 then d2.settling w st else d2.laserFailed e st
      | .host => d2.when (ty == 0) fun d => d.hostAcked w cmd
      | .device => d2
      | .laserRd e => d2.when (ty == 0) fun d => d.setInt (F.leRxcCfostatLaser e) (signedOf 32 arg)
      | .heartbeat => d2
    else
      ((((d.trdFail w).trdResult w src 4).count (F.cvTrdStatBadcnt w) 1).raise (0x4A + w) [R.cvTrdStat w]).trdDown w |>.trdReportFail w src cmd false

/-- TURUID_TIMEOUT (R92, R95). -/
def execTuruidTimeout (w : Fin 2) (s : State) : Host.Outcome State Fault Refusal := s.run fun _ d =>
  match (d.conv w).flight with
  | none => d
  | some (src, cmd) =>
    ((((d.trdFail w).trdResult w src 3).count (F.cvTrdStatTocnt w) 1).raise (0x48 + w) [R.cvTrdStat w]).trdDown w |>.trdReportFail w src cmd true

/-- TURUID_HEARTBEAT (R95): no command has completed for HBPER ms. -/
def execTuruidHeartbeat (w : Fin 2) (s : State) : Host.Outcome State Fault Refusal := s.run fun _ d =>
  d.when (d.get (F.cvTrdCfgHbper w) != 0 && d.cordOn (4 + w)) fun d => d.setConv w fun c => { c with waitHb := true }

/-! ### The laser loop (R54, R55) -/

/-- The step of a decision, before the limit: the offset by the gain, truncated, and clamped to MAXSTEP. -/
def laserStep (off : Int) (gain maxstep : Nat) : Int :=
  max (-(maxstep : Int)) (min (maxstep : Int) (off.tdiv (2 ^ gain : Nat)))

/-- A measured window of the laser loop (R54, R55): its average as CFO, and SETTLED once 8 in a row lie within DEADBAND. -/
def Dev.laserWindow (d : Dev) (e : Nat) (off : Int) : Dev :=
  let d1 := d.setInt (F.leRxcCfostatCfo e) off
  if off.natAbs ≤ d.get (F.leRxcLsrcfgDeadband e) then
    let q := min 8 ((d.eng e).quiet + 1)
    (d1.setEng e fun g => { g with quiet := q }).when (q == 8) fun d => d.set (F.leRxcStatSettled e) 1
  else (d1.setEng e fun g => { g with quiet := 0 }).set (F.leRxcStatSettled e) 0

/-- LASER_LOOP_DECISION (R54, R55, R94): a superframe boundary; `off` is the average residual offset of the superframe just ended,
`since` the ns since the last command's acknowledgement. A window opens at a boundary after the settle time of that step, whichever
engine commanded it; the other engine of a revert overlap measures only. -/
def execLaserLoopDecision (e : Fin 3) (off : Int) (since : Nat) (s : State) : Host.Outcome State Fault Refusal := s.run fun _ d =>
  match d.engWl e with
  | none => d
  | some w =>
    if !d.flag (F.leRxcLsrcfgEn e) || (d.wave w).gap || !d.hears e
        || !(decide (3 ≤ d.get (F.leRxcStatAcq e)) && decide (d.get (F.leRxcStatAcq e) ≤ 6)) then d
    else if (d.enginesOf w).any fun k => (d.eng k).laserOut.isSome then d
    else if !(d.eng e).winOpen then d.when (decide ((d.conv w).settle ≤ since)) fun d => d.setEng e fun g => { g with winOpen := true }
    else if d.serving w != some e.val then d.when (d.flag (F.cvSelStatOverlap w)) fun d => d.laserWindow e off
    else
      let d2 := d.laserWindow e off
      if decide (off.natAbs ≤ d.get (F.leRxcLsrcfgDeadband e)) then d2.set (F.leRxcStatLaserlim e) 0
      else
        let st := laserStep off (d.get (F.leRxcLsrcfgGain e)) (d.get (F.leRxcLsrcfgMaxstep e))
        let cum := d.getInt (F.leRxcCfostatLaser e)
        if 100 * d.get (F.leRxcLsrcfgLimit e) < (cum + st).natAbs then
          let was := d.flag (F.leRxcStatLaserlim e)
          (d2.set (F.leRxcStatLaserlim e) 1).when (!was) fun d => d.rxEvent e 10 [R.leRxcStat e, R.leRxcCfostat e]
        else
          (((d2.set (F.leRxcStatLaserlim e) 0).setInt (F.leRxcCfostatLaser e) (cum + st)).setEng e fun g =>
            { g with laserOut := some st, winOpen := false }).setConv w fun c => { c with waitLaser := some (e.val, st) }

end Sys2Proof.Machine
end

