-- ==== Sys2Proof/Machine/Framer.lean ====
section
/-!
DEFINITION. Line frames, FEC and performance monitoring: 04_line_frame_fec. Operations on one subcarrier, one group
and the PM seconds; the commands that also drive activation or decryption stand with those chapters.
-/

namespace Sys2Proof.Machine

/-- A framer event of condition `c` (R132). -/
def Dev.lfEvent (d : Dev) (w c : Nat) (addrs : List Nat) : Dev := d.raise (0x50 + 2 * c + w) addrs

/-! ### Alignment (R110, R111, R125) -/

/-- The receive groups of a wavelength that hold a subcarrier. -/
def Dev.groupsOf (d : Dev) (w sc : Nat) : List Nat := (List.range 32).filter fun g => (d.get (F.lfGrpMembMask w g)).testBit sc

/-- The receive group a subcarrier's cells come in: the beacon's is 31, whatever groups the image defines (R123, R135). -/
def Dev.rxGroup (d : Dev) (w sc : Nat) : Option Nat :=
  if (d.wave w).leaf && (d.get (F.lfGrpMembMask w 31)).testBit sc then some 31 else (d.groupsOf w sc).head?

/-- `n` missing cells of a group: counted in LOST once the group has delivered (R125). -/
def Dev.missingCells (d : Dev) (w g n : Nat) : Dev := d.when ((d.grp w g).delivered && n != 0) fun d => d.count (F.lfCellLostLost w) n

/-- Cells of a group are lost to the sealed groups being collected: both accumulators are marked (R191). -/
def Dev.cryCut (d : Dev) (w g : Nat) : Dev := d.setCry w g fun c => { c with accLost := true, urgLost := true }

/-- The cells of a group that wait for their turn are missing, and delivery begins anew (R124, R125). -/
def Dev.dropHeld (d : Dev) (w g : Nat) : Dev :=
  let h := (d.grp w g).held.filter fun c => !c.cut
  ((d.missingCells w g h.length).when (!h.isEmpty) fun d => d.cryCut w g).setGrp w g fun x => { x with held := [], next := none }

/-- A group whose member is not aligned waits (R125); an unused group reads 0. -/
def Dev.groupWait (d : Dev) (w g : Nat) : Dev :=
  if d.get (F.lfGrpMembMask w g) = 0 then d.set (F.lfGrpStatState w g) 0 else (d.dropHeld w g).set (F.lfGrpStatState w g) 1

/-- A subcarrier of the decode set is aligned (STATE 2). -/
def Dev.aligned (d : Dev) (w sc : Nat) : Bool := d.get (F.lfScsAlnState w sc) == 2

/-- A terminal decodes the beacon as group 31 of size 1, whatever its image says (R135). -/
def Dev.beaconGroup (d : Dev) (w k : Nat) : Dev :=
  if !(d.wave w).leaf || d.get (F.lfGrpMembMask w 31) == 2 ^ k then d
  else (((d.set (F.lfGrpMembMask w 31) (2 ^ k)).set (F.lfGrpStatSize w 31) 1).groupWait w 31).setGrp w 31 fun x => { x with encRx := false }

/-- ALN_STAT of a wavelength: all decoded aligned, and the beacon's subcarrier. -/
def Dev.alnStat (d : Dev) (w : Nat) : Dev :=
  let dec := (List.range 32).filter fun k => d.get (F.lfScsAlnState w k) != 3
  let all := !dec.isEmpty && dec.all (d.aligned w ·)
  let d1 := d.setFlag (F.lfAlnStatAllaln w) all
  match dec.find? fun k => d.aligned w k && d.flag (F.lfScsAlnVar w k) with
  | some k => (((d1.set (F.lfAlnStatBcnv w) 1).set (F.lfAlnStatBcnsc w) k).setWave w fun v => { v with beaconSeen := true }).beaconGroup w k
  | none => d1.set (F.lfAlnStatBcnv w) 0

/-- The framer gives the engines of a wavelength a subcarrier's alignment, or takes it back (R112). -/
def Dev.giveAlign (d : Dev) (w sc : Nat) (a : Option AlnGive) : Dev :=
  d.each (d.enginesOf w) fun d e => d.setEng e fun g => { g with align := Tbl.set none g.align sc a }

/-- A subcarrier goes to SEARCH with no candidate open; its groups wait, and the engines return to blind phase recovery (R112). RDI
of its last good header stands (R133). -/
def Dev.toSearch (d : Dev) (w sc : Nat) : Dev :=
  let d1 := (((d.set (F.lfScsAlnState w sc) 0).set (F.lfScsAlnNcand w sc) 0).setSc w sc fun x =>
    { x with cands := [], errRun := 0, hdrOk := false, goodRun := 0, agree := none, cmp := false }).giveAlign w sc none
  (d1.each (d1.groupsOf w sc) fun d g => d.groupWait w g).alnStat w

/-- The framer follows the decode set of its wavelength: a subcarrier that joins searches, one that leaves reads 3. -/
def Dev.framerDecode (d : Dev) (w m : Nat) : Dev :=
  (d.each (List.range 32) fun d k =>
    let st := d.get (F.lfScsAlnState w k)
    if m.testBit k && st == 3 then (d.toSearch w k).setSc w k fun x => { x with seen := true }
    else if !m.testBit k && st != 3 then (d.toSearch w k).set (F.lfScsAlnState w k) 3
    else d).alnStat w

/-- DECODE_SET_CHANGE (R46, R60, R110): the engine takes the waiting set, and the framer of the wavelength it serves
follows. -/
def execDecodeSetChange (e : Fin 3) (s : State) : Host.Outcome State Fault Refusal := s.run fun _ d =>
  match (d.eng e).pendDecode, d.engWl e with
  | some m, some w => (d.applyDecode e).when (d.serving w == some e.val) fun d => d.framerDecode w m
  | some _, none => d.applyDecode e
  | none, _ => d

/-- What the framer gives with a good test at a position (R112). -/
def AwMatch.give (m : AwMatch) (pos : Nat) : AlnGive := ⟨pos, m.turnX, m.turnY, m.swap⟩

/-- A candidate reaches N: aligned at its phase, every other candidate closes; the engines take the frame phase, the rotation and
the exchange found (R112). -/
def Dev.toAligned (d : Dev) (w sc pos : Nat) (m : AwMatch) : Dev :=
  (((((d.set (F.lfScsAlnState w sc) 2).set (F.lfScsAlnNcand w sc) 0).setFlag (F.lfScsAlnVar w sc) m.beacon).setSc w sc fun x =>
    { x with cands := [], phase := pos, errRun := 0, hdrOk := false, goodRun := 0, agree := none,
             frameErr := false, frameSp := false, cmp := false }).giveAlign w sc (some (m.give pos))).alnStat w

/-- A good test at a position without a candidate (R111): opens one, aligns at N = 1, or is counted in CANDFULL. -/
def Dev.openCand (d : Dev) (w sc pos : Nat) (m : AwMatch) (rest : List AlnCand) : Dev :=
  if d.get (F.lfAlnCfgN w) ≤ 1 then d.toAligned w sc pos m
  else if 4 ≤ rest.length then
    ((d.setSc w sc fun x => { x with cands := rest }).set (F.lfScsAlnNcand w sc) rest.length).count (F.lfScsAlnCandfull w sc) 1
  else
    (d.setSc w sc fun x => { x with cands := rest ++ [⟨pos, 1, m.beacon⟩] }).set (F.lfScsAlnNcand w sc) (rest.length + 1)

/-- The position is a predicted one of a candidate or of an aligned subcarrier. -/
def predicted (phase pos : Nat) : Bool := decide (phase < pos) && decide ((pos - phase) % 128000 = 0)

/-- A test in SEARCH (R111). -/
def Dev.searchTest (d : Dev) (w sc pos : Nat) (good : Bool) (m : AwMatch) : Dev :=
  let cs := (d.sc w sc).cands
  match cs.find? fun c => predicted c.pos pos with
  | none => if good then d.openCand w sc pos m cs else d
  | some c =>
    let rest := cs.filter fun x => x != c
    if good && m.beacon == c.beacon then
      if d.get (F.lfAlnCfgN w) ≤ c.run + 1 then d.toAligned w sc pos m
      else d.setSc w sc fun x => { x with cands := x.cands.map fun y => if y = c then ⟨pos, c.run + 1, c.beacon⟩ else y }
    else if good then d.openCand w sc pos m rest
    else (d.setSc w sc fun x => { x with cands := rest }).set (F.lfScsAlnNcand w sc) rest.length

/-- The end of the frame in progress (R129): a sparing frame, or counted. -/
def Subc.closeFrame (x : Subc) (err : Bool) : Subc :=
  let y := if x.frameSp then { x with sps := true } else
    { x with cntFrames := x.cntFrames + 1, errFrames := x.errFrames + (if x.frameErr then 1 else 0) }
  { y with frameErr := err, frameSp := false }

/-- Alignment is lost (R111, R125, R132). -/
def Dev.alnLoss (d : Dev) (w sc : Nat) : Dev :=
  (((d.toSearch w sc).set (F.lfScsAlnLossstk w sc) 1).count (F.lfScsAlnLosscnt w sc) 1).lfEvent w 0 [R.lfScsAln w sc]

/-- The incoming engine of a revert of this wavelength has reached ACQ = 6 in the overlap, so a frame that begins now is one whose
blocks are compared (R127, R212). -/
def Dev.comparing (d : Dev) (w : Nat) : Bool :=
  match d.spr.move with
  | some m => m.wl == w && m.step == 2 && d.flag (F.cvSelStatOverlap w) && d.get (F.leRxcStatAcq m.inc) == 6
  | none => false

/-- A test at a predicted position while aligned; answers whether alignment is lost. -/
def Dev.alignedTest (d : Dev) (w sc pos : Nat) (good beacon : Bool) : Dev × Bool :=
  let own := d.flag (F.lfScsAlnVar w sc)
  let err := !good || beacon != own
  let run := if err then (d.sc w sc).errRun + 1 else 0
  let cmp := d.comparing w
  let d1 := d.setSc w sc fun x => { (x.closeFrame err) with phase := pos, errRun := run, cmp := cmp }
  let d2 := d1.when (good && beacon != own) fun d => d.lfEvent w 1 [R.lfScsAln w sc, R.lfAlnStat w]
  if err && decide (d.get (F.lfAlnCfgM w) ≤ run) then (d2.alnLoss w sc, true) else (d2, false)

/-! ### Headers (R106 to R108) -/

/-- The fields of a frame header (R106). -/
structure Header where
  hver : Nat
  mode : Nat
  enc : Bool
  kidx : Nat
  kex : Bool
  rdi : Bool
  fnum : Nat
  sfn : Nat
  prof : Nat
  gid : Nat
  midx : Nat
  gsize : Nat
  bptr : Nat
  cptr : Nat
  gcidx : Nat
  deriving DecidableEq, Repr

/-- The header of 256 bits, bit 255 first. -/
def parseHeader (h : Nat) : Header :=
  let f (msb lsb : Nat) : Nat := h / 2 ^ lsb % 2 ^ (msb - lsb + 1)
  ⟨f 255 252, f 251 250, h.testBit 249, f 248 248, h.testBit 247, h.testBit 246, f 245 243, f 239 208, f 207 200,
   f 199 192, f 191 184, f 183 176, f 175 160, f 159 144, f 143 128⟩

/-- The check of HCRC over bits 255 to 16 (R107). -/
def headerCrcOk (h : Nat) : Bool := decide (crc16 (bitsOf 240 (h / 2 ^ 16)) = h % 2 ^ 16)

/-- The header of 256 bits that carries the fields, with its HCRC (R106, R107). -/
def buildHeader (x : Header) : Nat :=
  let b (c : Bool) : Nat := if c then 1 else 0
  let body := x.hver * 2 ^ 236 + x.mode * 2 ^ 234 + b x.enc * 2 ^ 233 + x.kidx * 2 ^ 232 + b x.kex * 2 ^ 231
    + b x.rdi * 2 ^ 230 + x.fnum * 2 ^ 227 + x.sfn * 2 ^ 192 + x.prof * 2 ^ 184 + x.gid * 2 ^ 176 + x.midx * 2 ^ 168
    + x.gsize * 2 ^ 160 + x.bptr * 2 ^ 144 + x.cptr * 2 ^ 128 + x.gcidx * 2 ^ 112
  body * 2 ^ 16 + crc16 (bitsOf 240 body)

/-- The numbers of the frame after (SFN, FNUM). -/
def nextFrame (sfn fnum : Nat) : Nat × Nat := if fnum = 7 then ((sfn + 1) % 2 ^ 32, 0) else (sfn, fnum + 1)

/-- The pointers of the next frame, from those of this one, its line bits and the group size (R108). -/
def nextPointers (bptr cptr gcidx bits gsize : Nat) : Nat × Nat × Nat :=
  let nb := if bptr < bits then (bits - bptr + 16383) / 16384 else 0
  let c := unsignedOf 11 ((cptr : Int) - (nb * 14196 : Nat))
  let cells := (nb * 14196 + c - cptr) / 2048
  (unsignedOf 14 ((bptr : Int) - (bits : Nat)), c, (gcidx + gsize * cells) % 2 ^ 16)

/-- The predictions of a subcarrier move on one frame of `bits` line bits in a group of size `g`: the frame they name, whose alignment
word lies at `phase`, becomes the one in progress (R108). -/
def Subc.nextFrame (x : Subc) (bits g phase : Nat) : Subc :=
  let n := Sys2Proof.Machine.nextFrame x.sfn x.fnum
  let p := nextPointers x.bptr x.cptr x.gcidx bits g
  { x with
    sfn := n.1, fnum := n.2, bptr := p.1, cptr := p.2.1, gcidx := p.2.2
    curB := x.bptr, curC := x.cptr, curG := x.gcidx, curBits := bits, prevBits := x.curBits
    frameNo := 8 * x.sfn + x.fnum, hdrPhase := phase }

/-- `k` frames without a header pass. -/
def Subc.skipFrames (bits g : Nat) : Nat → Subc → Subc
  | 0, x => x
  | k + 1, x => Subc.skipFrames bits g k (x.nextFrame bits g (x.hdrPhase + 128000))

/-- Line bits of a subcarrier's frame in progress under the demapper's profile, and the size of its group (R108). -/
def Dev.frameShape (d : Dev) (w sc : Nat) : Nat × Nat :=
  (frameBits (match d.serving w with
    | some e => d.get (F.leRxsLlrcfgProfile e sc)
    | none => (d.wave w).rxProfile sc), ((d.rxGroup w sc).map fun g => d.get (F.lfGrpStatSize w g)).getD 1)

/-- The predictions pass the frames whose headers were not read, up to that of the alignment word last tested: through a sparing gap the
numbering runs on with the frame phase (R108, R126). -/
def Dev.catchHeaders (d : Dev) (w sc : Nat) : Dev :=
  let x := d.sc w sc
  let k := (x.phase - x.hdrPhase) / 128000 - 1
  d.when (x.hdrOk && k != 0) fun d =>
    let s := d.frameShape w sc
    let y := x.skipFrames s.1 s.2 k
    (d.setSc w sc fun _ => y).set (F.lfScsSfnSfn w sc) (y.frameNo / 8)

/-- The predictions move on one frame under the profile in use; the frame they leave is the one in progress, and its SFN the one in
use. -/
def Dev.predictNext (d : Dev) (w sc : Nat) : Dev :=
  let s := d.frameShape w sc
  let y := d.sc w sc
  (d.when y.hdrOk fun d => d.set (F.lfScsSfnSfn w sc) y.sfn).setSc w sc fun x => x.nextFrame s.1 s.2 x.phase

/-- A good header against the prediction (R108): answers the device and whether the header is a mismatch. -/
def Dev.goodHeader (d : Dev) (w sc : Nat) (h : Header) : Dev × Bool :=
  let x := d.sc w sc
  let prof := match d.serving w with
    | some e => d.get (F.leRxsLlrcfgProfile e sc)
    | none => h.prof
  let numBad := x.hdrOk && !(decide (h.sfn = x.sfn) && decide (h.fnum = x.fnum))
  let mis := numBad || h.prof != prof
  let cnt := match x.agree with
    | some (a, b, n) => if a = h.sfn ∧ b = h.fnum then n + 1 else 1
    | none => 1
  let adopt := !numBad || decide (3 ≤ cnt)
  let nx := nextFrame h.sfn h.fnum
  let y := { x with
    hdrOk := true
    sfn := if adopt then h.sfn else x.sfn
    fnum := if adopt then h.fnum else x.fnum
    agree := if adopt then none else some (nx.1, nx.2, cnt)
    bptr := h.bptr, cptr := h.cptr, gcidx := h.gcidx
    goodRun := min 3 (x.goodRun + 1) }
  let d1 := (((d.setSc w sc fun _ => y).set (F.lfScsHdrProf w sc) h.prof).setFlag (F.lfScsHdrRdi w sc) h.rdi).set
    (F.lfScsSfnSfn w sc) y.sfn
  let d2 := d1.when mis fun d => (d.count (F.lfScsHdrMiscnt w sc) 1).lfEvent w 3 [R.lfScsHdr w sc]
  (d2, mis)

/-- RDI of a good header in point-to-point mode: one condition of the wavelength (R133). -/
def Dev.rdiRx (d : Dev) (w sc : Nat) (rdi : Bool) : Dev :=
  let any (d : Dev) : Bool := (List.range 32).any fun k => (d.sc w k).rdi
  let was := any d
  let d1 := d.setSc w sc fun x => { x with rdi := rdi }
  d1.when (!(d.wave w).leaf && !was && any d1) fun d => d.lfEvent w 10 [R.lfScsHdr w sc]

/-- A header that fails its check, or whose version is not 1. -/
def Dev.badHeader (d : Dev) (w sc : Nat) (crcBad : Bool) : Dev :=
  let d1 := d.setSc w sc fun x => { x with agree := none, goodRun := 0 }
  if crcBad then (d1.count (F.lfScsHdrCrccnt w sc) 1).lfEvent w 2 [R.lfScsHdr w sc]
  else (d1.count (F.lfScsHdrMiscnt w sc) 1).lfEvent w 3 [R.lfScsHdr w sc]

/-! ### FEC blocks (R115, R117, R118, R127) -/

/-- Two copies of a block differ (R127). -/
def fecDiffer (a b : FecCopy) : Bool := (a.uncorr != b.uncorr) || (!a.uncorr && !b.uncorr && a.output != b.output)

/-- Where block `j` of those whose last bit lies in the frame in progress begins, in line bits from the start of the frame: before
it where negative (R106, R113). -/
def Subc.blockAt (x : Subc) (j : Nat) : Int := (x.curB : Int) + 16384 * j - (if x.curB = 0 then 0 else 16384)

/-- What decoding a FEC block from the LLRs of an engine's demapper gives (R58, R109, R113, R115, R117). -/
def Dev.fecRead (d : Dev) (w sc e j : Nat) (llrs : List Int) : FecCopy :=
  let x := d.sc w sc
  fecDecode d.free (d.get (F.lfFecCfgIter w)) (d.get (F.lfFecCfgOfs w))
    (descramble (blockScrambler sc x.prevBits (x.blockAt j)) ((fitLlrs 16384 llrs).map (d.llr w e sc)))

/-- A delivered block is counted, and an uncorrectable one reported (R115, R118, R129, R132). -/
def Dev.fecBlock (d : Dev) (w sc : Nat) (c : FecCopy) : Dev :=
  let bad := c.uncorr
  let d1 := d.setSc w sc fun x => { x with
    cb := x.cb + c.changed + c.fixed, iters := x.iters + c.iters, blocks := x.blocks + 1
    frameErr := x.frameErr || bad }
  let d2 := d1.when c.hitMax fun d => d.count (F.lfScsFecitMaxhit w sc) 1
  d2.when bad fun d => (d.count (F.lfScsFecubUb w sc) 1).lfEvent w 4 [R.lfScsFecub w sc]

/-! ### Performance monitoring (R128 to R131) -/

/-- The class of a second: none where unclassified, 0 clean, 1 errored, 2 severely errored (R129). The model's choice (log 70): a
second with neither a counted nor an errored frame is clean. -/
def pmClass (seen : Bool) (err cnt : Nat) : Option Nat :=
  if !seen then none else if err = 0 then some 0 else if 3 * cnt ≤ 10 * err then some 2 else some 1

/-- The last `n` classified seconds of a queue take a mark. -/
def markLast (ua : Bool) : Nat → List PmItem → List PmItem
  | _, [] => []
  | 0, l => l
  | n + 1, x :: t => { x with ua := if x.cls.isSome then ua else x.ua } :: markLast ua (if x.cls.isSome then n else n + 1) t

/-- The run of R131 at a boundary, with the second queued for its commit: the new run, and whether unavailable time
has begun or ended. -/
def PmRun.second (p : PmRun) (cls : Option Nat) (sps : Bool) : PmRun × Bool × Bool :=
  let q := { cls := cls, sps := sps, ua := p.uav : PmItem } :: p.queue
  match cls with
  | none => ({ p with queue := q }, false, false)
  | some c =>
    let hit := if p.uav then decide (c < 2) else c == 2
    let r := if hit then p.run + 1 else 0
    if r = 10 then ({ run := 0, uav := !p.uav, queue := markLast (!p.uav) 10 q }, !p.uav, p.uav)
    else ({ p with run := r, queue := q }, false, false)

/-- The addresses of ES, SES, UAS and SPS of one classification. -/
structure PmRegs where
  es : Fld
  ses : Fld
  uas : Fld
  sps : Fld

/-- One second committed to the counters (R131). The model's choice (log 70): an unclassified second inside unavailable time adds
nothing to UAS. -/
def Dev.commitItem (d : Dev) (r : PmRegs) (i : PmItem) : Dev :=
  let d1 := match i.cls with
    | none => d
    | some c => if i.ua then d.count r.uas 1
      else (d.when (decide (1 ≤ c)) fun d => d.count r.es 1).when (c == 2) fun d => d.count r.ses 1
  d1.when i.sps fun d => d.count r.sps 1

def pmScRegs (w sc : Nat) : PmRegs :=
  ⟨F.lfScsPmesCount w sc, F.lfScsPmsesCount w sc, F.lfScsPmuasCount w sc, F.lfScsPmspsCount w sc⟩
def pmWlRegs (w : Nat) : PmRegs := ⟨F.lfPmEsCount w, F.lfPmSesCount w, F.lfPmUasCount w, F.lfPmSpsCount w⟩

/-- The PM counters zeroed (R131, PM_CTL). -/
def Dev.pmZero (d : Dev) (w : Nat) : Dev :=
  let z (d : Dev) (r : PmRegs) : Dev := (((d.set r.es 0).set r.ses 0).set r.uas 0).set r.sps 0
  z (d.each (List.range 32) fun d k => z d (pmScRegs w k)) (pmWlRegs w)

/-- The second of one subcarrier ends: CB, AVGIT, FEC_SD, its class; `extra` nominal frames passed unaligned, `spared` where a
sparing frame ended without a test. -/
def Dev.pmSubcarrier (d : Dev) (w k extra : Nat) (spared : Bool) : Dev × Option Nat × Bool :=
  let x := d.sc w k
  let cb := min x.cb (2 ^ 32 - 1)
  let avg := if x.blocks = 0 then 0 else min 256 (16 * x.iters / x.blocks)
  let sd := decide (d.get (F.lfFecCfgSdthr w) * 2 ^ 20 < cb)
  let d1 := (d.set (F.lfScsFeccbCb w k) cb).set (F.lfScsFecitAvgit w k) avg
  let d2 := d1.when (sd && !x.sd) fun d => d.lfEvent w 5 [R.lfScsFeccb w k]
  let seen := x.seen || d.get (F.lfScsAlnState w k) != 3
  let cls := pmClass seen (x.errFrames + extra) (x.cntFrames + extra)
  let sps := seen && (x.sps || spared)
  let r := x.pm.second cls sps
  let d3 := d2.setSc w k fun y => { y with
    cb := 0, iters := 0, blocks := 0, sd := sd, errFrames := 0, cntFrames := 0
    sps := false, seen := d.get (F.lfScsAlnState w k) != 3, pm := r.1 }
  (d3.setFlag (F.lfScsPmstatUav w k) r.1.uav, cls, sps)

/-- PM_SECOND (R118, R128 to R131): `extra` gives the nominal frame periods of this second in which a subcarrier was
not aligned, `spared` the subcarriers of which a frame touched by a sparing gap ended in this second with no test made. -/
def execPmSecond (w : Fin 2) (extra : List (Fin 32 × Nat)) (spared : Word) (s : State) : Host.Outcome State Fault Refusal := s.run fun _ d =>
  if !d.released (6 + w) then d
  else
    let ex (k : Nat) : Nat := ((extra.find? fun p => p.1.val == k).map (·.2)).getD 0
    let d0 := d.when (d.wave w).pmClear fun d => (d.pmZero w).setWave w fun v => { v with pmClear := false }
    let r := (List.range 32).foldl (fun (a : Dev × Option Nat × Bool) k =>
      let q := a.1.pmSubcarrier w k (ex k) (spared.toNat.testBit k)
      let c := match a.2.1, q.2.1 with
        | none, c => c
        | some a, none => some a
        | some a, some b => some (max a b)
      (q.1, c, a.2.2 || q.2.2)) (d0, none, false)
    let p := (r.1.wave w).pm.second r.2.1 r.2.2
    let d1 := (r.1.setWave w fun v => { v with pm := p.1 }).setFlag (F.lfPmStatUav w) p.1.uav
    (d1.when p.2.1 fun d => d.lfEvent w 12 [R.lfPmStat w]).when p.2.2 fun d => d.lfEvent w 13 [R.lfPmStat w]

/-- The oldest second of a run, where it ended 10 s ago. -/
def PmRun.due (p : PmRun) : Option (PmItem × PmRun) :=
  if 11 ≤ p.queue.length then
    match p.queue.getLast? with
    | some i => some (i, { p with queue := p.queue.dropLast })
    | none => none
  else none

/-- PM_COMMIT (R131, R132). -/
def execPmCommit (w : Fin 2) (s : State) : Host.Outcome State Fault Refusal := s.run fun _ d =>
  match (d.wave w).pm.due with
  | none => d
  | some (i, p) =>
    let d1 := d.each (List.range 32) fun d k =>
      match (d.sc w k).pm.due with
      | none => d
      | some (j, q) => (d.commitItem (pmScRegs w k) j).setSc w k fun x => { x with pm := q }
    let d2 := (d1.setWave w fun v => { v with pm := p }).commitItem (pmWlRegs w) i
    let d3 := d2.set (F.lfPmStatSecnum w) ((d2.get (F.lfPmStatSecnum w) + 1) % 65536)
    (d3.when (i.cls == some 2 && !i.ua) fun d => d.lfEvent w 11 [R.lfPmSes w]).when i.sps fun d => d.lfEvent w 15 [R.lfPmSps w]

/-! ### Cells and reassembly (R119 to R125) -/

/-- The fields of a cell header (R120). -/
structure CellHdr where
  flow : Nat
  type : Nat
  seq : Nat
  len : Nat
  deriving DecidableEq, Repr

/-- The header of a cell. -/
def cellHdr (c : List Byte) : CellHdr :=
  let h := beAt c 0 8
  ⟨h / 2 ^ 44, h / 2 ^ 40 % 16, h / 2 ^ 32 % 256, h / 2 ^ 24 % 256⟩

/-- The HEC of a cell checks (R120). -/
def cellHecOk (c : List Byte) : Bool := let h := beAt c 0 8; decide (crc8 0xFF (bitsOf 56 (h / 256)) = h % 256)

/-- A cell of 256 bytes (R120). -/
def buildCell (flow type seq len : Nat) (payload : List Byte) : List Byte :=
  let h := flow % 2 ^ 20 * 2 ^ 36 + type % 16 * 2 ^ 32 + seq % 256 * 2 ^ 24 + len % 256 * 2 ^ 16
  beBytes 8 (h * 256 + crc8 0xFF (bitsOf 56 h)) ++ fitBytes 248 payload

/-- LEN is in its range for the type (R121). -/
def cellLenOk (h : CellHdr) : Bool :=
  match h.type with
  | 0 => h.len == 0
  | 1 | 4 | 5 | 6 => decide (1 ≤ h.len) && decide (h.len ≤ 248)
  | 2 | 3 => h.len == 248
  | 7 => h.len == 24
  | _ => false

/-- A packet of a flow is discarded in reassembly: counted, its event, the mark as asked (R122). -/
def Dev.dropOpen (d : Dev) (w flow : Nat) (mark : Bool) : Dev :=
  if (d.wave w).open_.any (fun o => o.flow == flow) then
    ((d.setWave w fun v => { v with
      open_ := v.open_.filter fun o => o.flow != flow
      marks := if mark && !v.marks.contains flow then v.marks ++ [flow] else v.marks }).count
        (F.lfCellPktdropPktdrop w) 1).lfEvent w 8 [R.lfCellPktdrop w]
  else d

/-- A format or order fault (R122). -/
def Dev.fmtFault (d : Dev) (w : Nat) : Dev := (d.count (F.lfCellErrFmt w) 1).lfEvent w 7 [R.lfCellErr w]

/-- A discard mark set or cleared. -/
def Dev.setMark (d : Dev) (w flow : Nat) (on : Bool) : Dev := d.setWave w fun v =>
  { v with marks := if on then (if v.marks.contains flow then v.marks else v.marks ++ [flow]) else v.marks.filter (· != flow) }

/-- A whole packet reaches DLP: it waits for PKT, through the link's injector, or is discarded while PKT carries no traffic
(R11, R14, R122, R431). -/
def Dev.toDlp (d : Dev) (w g flow : Nat) (bytes : List Byte) : Dev :=
  let p : Pkt := { src := 96 + 32 * w + g, srcn := flow, bytes := bytes }
  if d.trafficOk 8 then d.through (160 + w) 0 false { pkt := p } fun d u => d.linkIn w u.pkt else d.linkDrop w p

/-- A clear DATA cell in reassembly (R122). -/
def Dev.reassemble (d : Dev) (w g : Nat) (h : CellHdr) (payload : List Byte) : Dev :=
  let part := payload.take h.len
  if h.type = 1 ∨ h.type = 2 then
    let d1 := if (d.wave w).open_.any (fun o => o.flow == h.flow) then (d.fmtFault w).dropOpen w h.flow false else d
    let d2 := d1.setMark w h.flow false
    if 4096 ≤ (d2.wave w).open_.length then
      ((d2.count (F.lfCellPktdropPktdrop w) 1).lfEvent w 8 [R.lfCellPktdrop w]).when (h.type == 2) fun d => d.setMark w h.flow true
    else if h.type = 1 then d2.toDlp w g h.flow part
    else d2.setWave w fun v => { v with open_ := v.open_ ++ [⟨h.flow, g, part⟩] }
  else
    match (d.wave w).open_.find? fun o => o.flow == h.flow with
    | none => if (d.wave w).marks.contains h.flow then d.when (h.type == 4) fun d => d.setMark w h.flow false else d.fmtFault w
    | some o =>
      let all := o.bytes ++ part
      if 12288 < all.length then d.dropOpen w h.flow true
      else if h.type = 4 then
        (d.setWave w fun v => { v with open_ := v.open_.filter fun x => x.flow != h.flow }).toDlp w o.group h.flow all
      else d.setWave w fun v => { v with open_ := v.open_.map fun x => if x.flow = h.flow then { x with bytes := all } else x }

/-- REASSEMBLY_TIMEOUT (R122): an open packet or a discard mark of a flow waited REASMTO line frames. -/
def execReassemblyTimeout (w : Fin 2) (flow : BitVec 20) (s : State) : Host.Outcome State Fault Refusal := s.run fun _ d =>
  if (d.wave w).open_.any (fun o => o.flow == flow.toNat) then d.dropOpen w flow.toNat false else d.setMark w flow.toNat false

/-- The delay of a member's alignment word against that of another for one SFN and FNUM, in symbols: SFN and FNUM count modulo
2^35 line frames (R124). -/
def wordDelay (a b : Subc) : Int :=
  Int.bmod (((a.hdrPhase : Int) - (b.hdrPhase : Int)) - 128000 * ((a.frameNo : Int) - (b.frameNo : Int))) (128000 * 2 ^ 35)

/-- The largest member skew of a group: the delay after the earliest member (R124). -/
def Dev.groupSkew (d : Dev) (w m : Nat) : Nat :=
  let ks := maskBits 32 m
  let ds := ks.map fun k => wordDelay (d.sc w k) (d.sc w (ks.headD 0))
  (ds.foldl max 0 - ds.foldl min 0).toNat

/-- GROUP_RESUME (R124, R125): the skews of a group's members are known once each has a good header since its alignment. -/
def execGroupResume (w : Fin 2) (g : Fin 32) (s : State) : Host.Outcome State Fault Refusal := s.run fun _ d =>
  let m := d.get (F.lfGrpMembMask w g)
  let sk := d.groupSkew w m
  if m = 0 ∨ !(maskBits 32 m).all (fun k => d.aligned w k && (d.sc w k).hdrOk) || (d.wave w).gap then d
  else if d.get (F.lfGrpStatState w g) = 2 ∧ sk ≤ 256000 then d.set (F.lfGrpStatSkew w g) sk
  else
    let d1 := d.set (F.lfGrpStatSkew w g) (min sk 1048575)
    if 256000 < sk then
      ((d1.dropHeld w g).set (F.lfGrpStatState w g) 3).when (d.get (F.lfGrpStatState w g) != 3) fun d => d.lfEvent w 9 [R.lfGrpStat w g]
    else
      let d2 := d1.each ((d1.wave w).open_.filter fun o => o.group == g.val) fun d o => d.dropOpen w o.flow false
      (d2.dropHeld w g).set (F.lfGrpStatState w g) 2

end Sys2Proof.Machine
end

