-- ==== Sys2Proof/Machine/Shared.lean ====
section
/-!
DEFINITION. Shared-fibre and point-to-point operation: 05_shared_fibre. Control messages, terminal activation,
grants, profile changes; bursts stand with the cells they carry.
-/

namespace Sys2Proof.Machine

/-- A shared-fibre event of condition `c` (R172). -/
def Dev.sfEvent (d : Dev) (w c : Nat) (addrs : List Nat) : Dev := d.raise (0x70 + 2 * c + w) addrs

/-! ### Superframe numbers -/

/-- The beacon's superframe number (R151). -/
def Dev.beaconSfn (d : Dev) (w : Nat) : Nat := d.get (F.lfScsSfnSfn w (d.get (F.lfAlnStatBcnsc w)))

/-- The superframe number of a direction, 0 receive and 1 transmit (R162). -/
def Dev.dirSfn (d : Dev) (w dir : Nat) : Nat :=
  if (d.wave w).leaf then d.beaconSfn w
  else if dir = 0 then d.get (F.lfScsSfnSfn w 0) else (d.wave w).txSfn

/-- `a − b` modulo 2^32. -/
def sfnSub (a b : Nat) : Nat := unsignedOf 32 ((a : Int) - (b : Nat))

/-- `a` is at or after `b` by serial-number order. -/
def sfnGe (a b : Nat) : Bool := decide (sfnSub a b < 2 ^ 31)

/-! ### Activation (R142, R143) -/

/-- The decode set of an activation state (R143), with the beacon that DSLOSS waits for (R148); in DOZE the search of R396 begins with the last beacon's subcarrier. -/
def Dev.actDecode (d : Dev) (w st : Nat) : Nat :=
  let bcn := if d.flag (F.lfAlnStatBcnv w) || d.flag (F.lfActStatDsloss w) then 2 ^ d.get (F.lfAlnStatBcnsc w) else 0
  if st = 0 then (if d.get F.hrtPwrStateCur ≠ 1 then 2 ^ 32 - 1 else if (d.wave w).beaconSeen then 2 ^ d.get (F.lfAlnStatBcnsc w) else 0xFF)
  else if st ≤ 3 then bcn
  else (List.range 31).foldl (fun m g => m ||| d.get (F.lfGrpMembMask w g)) bcn

/-- The wavelength asks for a decode set: its engines, both in a revert overlap, take it at the next superframe boundary. -/
def Dev.askDecode (d : Dev) (w m : Nat) : Dev :=
  let d1 := d.setWave w fun v => { v with decode := m }
  d1.each (d1.enginesOf w) fun d e => d.setEng e fun g => { g with pendDecode := some m }

/-- The activation state changes (R142): ACT_STATE, and the decode set of the new state. An ANNOUNCE stands unanswered in DISCOVERY
and through a silence that returns there, in no other state (R144). Windows still to skip stay to be skipped where DISCOVERY is left
by DISCTO, ACTEN 0 or a loss of the beacon: DESIGN CHOICE, unsafe (log 70). -/
def Dev.setAct (d : Dev) (w st : Nat) : Dev :=
  if d.get (F.lfActStatState w) = st then d
  else (((d.set (F.lfActStatState w) st).setWave w fun v => { v with announced := v.announced && (st == 2 || st == 5) }).askDecode w
    (d.actDecode w st)).sfEvent w 0 [R.lfActStat w]

/-- The TID is dropped with what was granted and waiting under it. -/
def Dev.dropTid (d : Dev) (w : Nat) : Dev :=
  (d.set (F.lfActIdTid w) 0).setWave w fun v =>
    { v with grants := [], ctrlQ := [], eqds := [], eqd0 := 0, announced := false, skip := 0 }

/-- Bursts in progress are cut to null; each is counted in MISS where R148 says so. -/
def Dev.cutBursts (d : Dev) (w : Nat) (counted : Bool) : Dev :=
  let n := (d.wave w).burstsOn.length
  ((d.when counted fun d => d.count (F.lfGntMissMiss w) n).setWave w fun v => { v with burstsOn := [] }).txRefresh

/-- The terminal falls silent (R149): RET holds the state it was in. -/
def Dev.enterSilence (d : Dev) (w : Nat) : Dev :=
  let st := d.get (F.lfActStatState w)
  (if st = 5 then d else (d.set (F.lfActStatRet w) st).setAct w 5).cutBursts w false

/-- SILENCED ends once both causes are clear (R142). -/
def Dev.leaveSilence (d : Dev) (w : Nat) : Dev :=
  d.when (d.get (F.lfActStatState w) == 5 && !d.flag (F.lfActStatSilhe w) && !d.flag (F.lfActStatSilsp w)) fun d =>
    d.setAct w (d.get (F.lfActStatRet w))

/-- The beacon leaves ALIGNED (R142, R148). -/
def Dev.beaconLost (d : Dev) (w : Nat) : Dev :=
  let st := d.get (F.lfActStatState w)
  if !(d.wave w).leaf then d
  else if st = 1 ∨ st = 2 then d.setAct w 0
  else if 3 ≤ st ∧ !d.flag (F.lfActStatDsloss w) then
    ((d.set (F.lfActStatDsloss w) 1).cutBursts w true).sfEvent w 1 [R.lfActStat w]
  else d

/-- The beacon is ALIGNED again (R148). -/
def Dev.beaconBack (d : Dev) (w : Nat) : Dev :=
  d.when ((d.wave w).leaf && d.flag (F.lfActStatDsloss w)) fun d =>
    (d.set (F.lfActStatDsloss w) 0).setWave w fun v => { v with dsBack := some d.time.ticks }

/-- Three good headers on the aligned beacon take UNLOCKED to LISTENING (R142). -/
def Dev.beaconLocked (d : Dev) (w sc : Nat) : Dev :=
  d.when ((d.wave w).leaf && d.get (F.lfActStatState w) == 0 && d.flag (F.lfAlnStatBcnv w)
    && d.get (F.lfAlnStatBcnsc w) == sc && decide (3 ≤ (d.sc w sc).goodRun)) fun d => d.setAct w 1

/-- A timer of activation expires: ACT_TIMEOUT (R148). -/
def Dev.actTimeout (d : Dev) (w : Nat) : Dev := d.sfEvent w 4 [R.lfActStat w]

/-- The engine that takes a wavelength over in its gap delivers soft bits (R126). -/
def Dev.gapSoft (d : Dev) (w : Nat) : Bool :=
  match d.spr.move with
  | some m => m.wl == w && m.step == 2 && d.get (F.leRxcStatAcq m.inc) == 6
  | none => false

/-- A gap test (R126) at a predicted position: whether the frame that begins is good. The frame it ends, and the one it begins, are
sparing frames; the frame phase and the numbering run on (R108). The model's choice (log 75): an engine that has no alignment of the
subcarrier takes it from a good gap test. -/
def Dev.gapTest (d : Dev) (w sc pos : Nat) (good : Bool) (m : AwMatch) : Dev :=
  let ok := good && m.beacon == d.flag (F.lfScsAlnVar w sc)
  let d1 := (d.setSc w sc fun x => { (x.closeFrame false) with gapGood := ok, frameSp := true, phase := pos }).catchHeaders w sc
  d1.when ok fun d => d.each ((d.enginesOf w).filter fun e => (Tbl.get none (d.eng e).align sc).isNone) fun d e =>
    d.setEng e fun g => { g with align := Tbl.set none g.align sc (some (m.give pos)) }

/-- ALIGNMENT_TEST (R110, R111, R126, R148): the signs of I and Q of X, then of Y, of the 128 alignment word positions of a window. -/
def execAlignmentTest (w : Fin 2) (sc : Fin 32) (pos : Nat) (signs : BitVec 512) (s : State) :
    Host.Outcome State Fault Refusal := s.run fun _ d =>
  let m := alignmentTest signs
  let good := decide (m.diffs ≤ d.get (F.lfAlnThrAwtol w))
  let st := d.get (F.lfScsAlnState w sc)
  if !d.released (6 + w) then d
  else if (d.wave w).gap then d.when (st == 2 && predicted (d.sc w sc).phase pos && d.gapSoft w) fun d => d.gapTest w sc pos good m
  else
    if st = 0 then
      let d1 := d.searchTest w sc pos good m
      d1.when (d1.aligned w sc && d1.flag (F.lfScsAlnVar w sc)) fun d => d.beaconBack w
    else if st = 2 then
      if predicted (d.sc w sc).phase pos then
        let bcn := d.flag (F.lfAlnStatBcnv w) && d.get (F.lfAlnStatBcnsc w) == sc.val
        let r := d.alignedTest w sc pos good m.beacon
        r.1.when (r.2 && bcn) fun d => d.beaconLost w
      else d
    else d

/-! ### Control messages out -/

/-- A new control message joins the queue with its own number (R137, R159). -/
def Dev.sendCtrl (d : Dev) (w mtype : Nat) (body : List Byte) : Dev := d.setWave w fun v =>
  { v with ctrlQ := v.ctrlQ ++ [⟨mtype, v.mseq, body, none⟩], mseq := (v.mseq + 1) % 65536 }

/-- The payload of a control message: type, number, body and MCRC (R137). -/
def ctrlBytes (m : CtrlOut) : List Byte :=
  let b := [BitVec.ofNat 8 m.mtype, 0] ++ beBytes 2 m.mseq ++ m.body
  b ++ beBytes 2 (crc16 (bitsOfBytes b))

/-- The body of an ACK (R139). -/
def ackBody (mtype mseq result esfn : Nat) : List Byte := beBytes 1 mtype ++ beBytes 2 mseq ++ beBytes 1 result ++ beBytes 4 esfn

/-- An ACK (R139). -/
def Dev.sendAck (d : Dev) (w mtype mseq result esfn : Nat) : Dev := d.sendCtrl w 0x44 (ackBody mtype mseq result esfn)

/-- An accepting ACK between peers, to be repeated in every superframe until ESFN, by the numbers of the direction that changes. -/
def Dev.ackUntil (d : Dev) (w mtype mseq esfn dir : Nat) : Dev :=
  (d.setWave w fun v => { v with acks := (v.acks.filter fun a => a.amseq != mseq) ++ [⟨mtype, mseq, esfn, dir, v.mseq⟩] }).sendAck w mtype mseq 0 esfn

/-- A message with an impossible field (R141). -/
def Dev.ctlFld (d : Dev) (w : Nat) : Dev := (d.count (F.lfCtlErrFld w) 1).sfEvent w 10 [R.lfCtlErr w]

/-- A refusal made or received for a profile change (R141, R172). -/
def Dev.profRefused (d : Dev) (w : Nat) : Dev :=
  (d.count (F.lfCtlErrRef w) 1).sfEvent w 11 [R.lfPrfStat w, R.lfCtlErr w]

/-- The terminal acts on a message in the states given; in point-to-point mode the type is one it does not act on and
is counted (R138). The checks of FLD stand before that of the state, so they count in a state not listed too: DESIGN CHOICE,
unsafe (log 70). -/
def Dev.leafMessage (d : Dev) (w : Nat) (states : List Nat) (bad : Bool) (f : Dev → Dev) : Dev :=
  if bad || !(d.wave w).leaf then d.ctlFld w
  else if states.contains (d.get (F.lfActStatState w)) then f d else d

/-- DISCOVER (R142, R144); in DOZE ACTEN acts as 0 (R395). -/
def Dev.discover (d : Dev) (w peqd rspread alen bkmax : Nat) : Dev :=
  d.leafMessage w [1, 2] (alen < 6 || 32 < alen) fun d =>
    let take (d : Dev) : Dev := d.setWave w fun v =>
      { v with peqd := peqd, rspread := rspread, alen := alen, bkmax := bkmax }
    if d.get (F.lfActStatState w) = 2 then take d
    else
      let settled := match d.serving w with
        | some e => d.flag (F.leRxcStatSettled e)
        | none => false
      if d.flag (F.lfActCfgActen w) && d.get F.hrtPwrStateCur != 1 && settled then (take d).setAct w 2 else take d

def execDiscover (w : Fin 2) (peqd : BitVec 24) (rspread : BitVec 16) (alen bkmax : Byte) (s : State) :
    Host.Outcome State Fault Refusal := s.run fun _ d => d.discover w peqd.toNat rspread.toNat alen.toNat bkmax.toNat

/-- ASSIGN_ID (R145): only the terminal's own serial acts. -/
def Dev.assignId (fz : Fuses) (d : Dev) (w serial tid : Nat) : Dev :=
  d.leafMessage w [2] (tid == 0 || 0xFFF ≤ tid) fun d =>
    if serial = fz.serial then
      (((d.set (F.lfActIdTid w) tid).setWave w fun v => { v with announced := false, skip := 0, grants := [] }).setAct w 3).sfEvent
        w 2 [R.lfActId w]
    else d

def execAssignId (w : Fin 2) (serial : BitVec 64) (tid : BitVec 16) (s : State) : Host.Outcome State Fault Refusal :=
  s.run fun fz d => d.assignId fz w serial.toNat tid.toNat

/-- RANGE (R147): the RANGE_ACK joins the messages that wait (R159). -/
def Dev.range (d : Dev) (w eqd rtd esfn : Nat) : Dev :=
  d.leafMessage w [3, 4, 5] false fun d =>
    (((d.set (F.lfActEqdEqd w) eqd).set (F.lfActRtdRtd w) rtd).setWave w fun v =>
      { v with eqds := (esfn, eqd) :: v.eqds, mseq := (v.mseq + 1) % 65536
               ctrlQ := v.ctrlQ ++ [⟨0x42, v.mseq, beBytes 3 eqd ++ beBytes 4 esfn, some esfn⟩] }).sfEvent w 3 [R.lfActEqd w, R.lfActRtd w]

def execRange (w : Fin 2) (eqd rtd : BitVec 24) (esfn : Word) (s : State) : Host.Outcome State Fault Refusal :=
  s.run fun _ d => d.range w eqd.toNat rtd.toNat esfn.toNat

/-- The EQD in force for a target superframe: that of the newest RANGE whose ESFN it reaches (R147, R153). -/
def Wave.eqdFor (v : Wave) (t : Nat) : Nat := ((v.eqds.find? fun p => sfnGe t p.1).map (·.2)).getD v.eqd0

/-- Superframe `n` lies at least 2^16 superframes after another: no grant of an earlier one is left. -/
def longPast (n m : Nat) : Bool := sfnGe n m && decide (2 ^ 16 ≤ sfnSub n m)

/-- RANGEs and profile changes so far back that they hold for every grant are in force without their ESFN, so that the serial order
of superframe numbers never comes round to them (R147, R157). -/
def Wave.settle (v : Wave) (n : Nat) : Wave :=
  { v with
    eqd0 := match v.eqds.find? fun p => longPast n p.1 with
      | some p => p.2
      | none => v.eqd0
    eqds := v.eqds.takeWhile fun p => !longPast n p.1
    txWas := v.txWas.filter fun p => !longPast n p.1 }

/-- SILENCE (R149). -/
def Dev.silence (d : Dev) (w tid dur : Nat) : Dev :=
  d.leafMessage w [2, 3, 4, 5] false fun d =>
    if tid ≠ 0xFFF ∧ (tid ≠ d.get (F.lfActIdTid w) ∨ tid = 0) then d
    else if dur = 0 then ((d.set (F.lfActStatSilhe w) 0).set (F.lfActStatSilrem w) 0).leaveSilence w
    else
      let was := d.flag (F.lfActStatSilhe w)
      (((d.set (F.lfActStatSilhe w) 1).set (F.lfActStatSilrem w) dur).when (!was) fun d =>
        d.sfEvent w 5 [R.lfActStat w]).enterSilence w

def execSilence (w : Fin 2) (tid : BitVec 12) (dur : BitVec 16) (s : State) : Host.Outcome State Fault Refusal :=
  s.run fun _ d => d.silence w tid.toNat dur.toNat

/-- SILENCE_EXPIRY (R149). -/
def execSilenceExpiry (w : Fin 2) (s : State) : Host.Outcome State Fault Refusal := s.run fun _ d =>
  ((d.set (F.lfActStatSilhe w) 0).set (F.lfActStatSilrem w) 0).leaveSilence w

/-- The TID dropped on RELEASE or DEACT (R150): LISTENING, or RET set to it in SILENCED. In
UNLOCKED, LISTENING and DISCOVERY, where there is no TID, DEACT changes nothing: DESIGN CHOICE, unsafe (log 70). -/
def Dev.deactivate (d : Dev) (w : Nat) : Dev :=
  let st := d.get (F.lfActStatState w)
  if st = 5 then (d.dropTid w).set (F.lfActStatRet w) 1
  else if st = 3 ∨ st = 4 then ((d.dropTid w).cutBursts w false).setAct w 1
  else d

/-- RELEASE (R149, R150). -/
def Dev.release (d : Dev) (w reason : Nat) : Dev :=
  d.leafMessage w [3, 4, 5] false fun d =>
    ((d.setWave w fun v => { v with relReason := reason }).deactivate w).sfEvent w 7 [R.lfActStat w]

def execRelease (w : Fin 2) (reason : Byte) (s : State) : Host.Outcome State Fault Refusal := s.run fun _ d => d.release w reason.toNat

/-- What a write to LFx_ACT_CTL does: RESUME and DEACT (R149, R150). -/
def Dev.actCtl (d : Dev) (w : Nat) (v : Word) : Dev :=
  let d1 := d.when ((F.lfActCtlResume w).of v != 0) fun d => (d.set (F.lfActStatSilsp w) 0).leaveSilence w
  d1.when ((F.lfActCtlDeact w).of v != 0) fun d => d.deactivate w

/-- ACTEN written 0 ends DISCOVERY (R142). -/
def Dev.actenWritten (d : Dev) (w : Nat) : Dev :=
  d.when (!d.flag (F.lfActCfgActen w) && d.get (F.lfActStatState w) == 2) fun d => d.setAct w 1

/-- DISCTO_EXPIRY (R142). -/
def execDisctoExpiry (w : Fin 2) (s : State) : Host.Outcome State Fault Refusal := s.run fun _ d =>
  d.when (d.get (F.lfActStatState w) == 2) fun d => (d.setAct w 1).actTimeout w

/-- IDTO_EXPIRY (R144): the terminal skips a number of windows drawn from 0 to BKMAX. -/
def execIdtoExpiry (w : Fin 2) (s : State) : Host.Outcome State Fault Refusal := s.run fun _ d =>
  d.when (d.wave w).announced fun d =>
    let k := (Config.freeWord d.free).toNat % ((d.wave w).bkmax + 1)
    ({ d with free := d.free + 1 }.setWave w fun v => { v with announced := false, skip := k }).actTimeout w

/-- RNGTO_EXPIRY (R142): no RANGE since entry. -/
def execRngtoExpiry (w : Fin 2) (s : State) : Host.Outcome State Fault Refusal := s.run fun _ d =>
  d.when (d.get (F.lfActStatState w) == 3 && (d.wave w).eqds.isEmpty) fun d => ((d.dropTid w).setAct w 2).actTimeout w

/-- LOSTTO_EXPIRY (R142). -/
def execLosttoExpiry (w : Fin 2) (s : State) : Host.Outcome State Fault Refusal := s.run fun _ d =>
  d.when (d.get (F.lfActStatState w) == 4) fun d => ((d.dropTid w).setAct w 1).actTimeout w

/-- BLOSSTO_EXPIRY (R148). -/
def execBlosstoExpiry (w : Fin 2) (s : State) : Host.Outcome State Fault Refusal := s.run fun _ d =>
  d.when (d.flag (F.lfActStatDsloss w)) fun d =>
    (((d.dropTid w).set (F.lfActStatDsloss w) 0).setAct w 0).actTimeout w

/-- TX_POLICE (R167, R173): drive outside every window of the gate, in leaf mode. -/
def execTxPolice (w : Fin 2) (s : State) : Host.Outcome State Fault Refusal := s.run fun _ d =>
  d.when ((d.wave w).leaf && !(d.wave w).burstsOn.any d.burstOpen) fun d =>
    ((d.set (F.lfActStatSilsp w) 1).enterSilence w).sfEvent w 6 [R.lfActStat w]

/-! ### Grants (R151, R152) -/

/-- A grant ignored and counted in a field of GNT_ERR; a silenced terminal raises no event for it (R173). -/
def Dev.gntBad (d : Dev) (w : Nat) (f : Fld) : Dev :=
  (d.count f 1).when (d.get (F.lfActStatState w) != 5) fun d => d.sfEvent w 8 [R.lfGntErr w]

/-- The grants for the terminal of a target superframe so far (R152). -/
def Wave.grantsSeen (v : Wave) (tsfn : Nat) : Nat := ((v.gntSeen.find? fun p => p.1 == tsfn).map (·.2)).getD 0

/-- One more grant for the terminal of a target superframe; maps name one of the next two superframes. -/
def Wave.seeGrant (v : Wave) (tsfn : Nat) : Wave :=
  { v with gntSeen := ((tsfn, v.grantsSeen tsfn + 1) :: v.gntSeen.filter fun p => p.1 != tsfn).take 4 }

/-- The map also holds a grant with equal slots on every other member of the subcarrier's group (R152, R158). -/
def Dev.wholeSet (d : Dev) (w : Nat) (g : GrantIn) (all : List GrantIn) : Bool :=
  match d.txGroupOf w g.sc with
  | none => true
  | some q => (maskBits 32 (d.grp w q).txMask).all fun k =>
      all.any fun o => o.tid == g.tid && o.sc == k && o.start == g.start && o.len == g.len && !o.rng

/-- One grant of an accepted map (R144, R152). Every grant for the terminal counts towards the 64 of its superframe, a discovery
window does not. -/
def Dev.oneGrant (d0 : Dev) (w tsfn : Nat) (all : List GrantIn) (g : GrantIn) : Dev :=
  let tid := d0.get (F.lfActIdTid w)
  let st := d0.get (F.lfActStatState w)
  let bcast := g.tid == 0xFFF
  let d := d0.when (!bcast && g.tid == tid && tid != 0) fun d => d.setWave w fun v => v.seeGrant tsfn
  if !bcast && (g.tid != tid || tid == 0) then d
  else if bcast && !g.rng then d.gntBad w (F.lfGntErrRange w)
  else if bcast && st != 2 then d
  else if g.len < 2 || 1024 < g.start + g.len then d.gntBad w (F.lfGntErrRange w)
  else if !(d.txSet w).testBit g.sc then d.gntBad w (F.lfGntErrSet w)
  else if !g.rng && (match d.txGroupOf w g.sc with
      | some q => decide (1 < (maskBits 32 (d.grp w q).txMask).length)
      | none => false) && !d.wholeSet w g all then d.gntBad w (F.lfGntErrSet w)
  else if !bcast && decide (64 < (d.wave w).grantsSeen tsfn) then
    (d.count (F.lfGntMissOvf w) 1).sfEvent w 9 [R.lfGntMiss w]
  else if (d.wave w).grants.any (fun x => x.tsfn == tsfn && x.sc == g.sc && decide (x.start < g.start + g.len)
      && decide (g.start < x.start + x.len)) then d.gntBad w (F.lfGntErrOvl w)
  else if st < 2 || 4 < st || d.flag (F.lfActStatDsloss w) then d
  else d.setWave w fun v => { v with grants := v.grants ++ [⟨tsfn, g.sc, g.start, g.len, g.rng, g.srq, bcast⟩] }

/-- GRANT_MAP (R151, R152); a silenced terminal counts what it passes over. -/
def Dev.grantMap (d : Dev) (w tsfn : Nat) (gs : List GrantIn) : Dev :=
  d.leafMessage w [2, 3, 4, 5] (gs.isEmpty || 39 < gs.length) fun d =>
    let lead := sfnSub tsfn (d.beaconSfn w)
    let tid := d.get (F.lfActIdTid w)
    if lead = 1 ∨ lead = 2 then d.each gs fun d g => d.oneGrant w tsfn gs g
    else d.each (gs.filter fun g => tid != 0 && g.tid == tid) fun d _ => d.gntBad w (F.lfGntErrLate w)

def execGrantMap (w : Fin 2) (tsfn : Word) (gs : List GrantIn) (s : State) : Host.Outcome State Fault Refusal :=
  s.run fun _ d => d.grantMap w tsfn.toNat gs

/-! ### Profile changes (R162 to R166) -/

/-- The profile in use on a subcarrier by the framer's copy. -/
def Wave.code (v : Wave) (dir sc : Nat) : Nat := if dir = 0 then v.rxProfile sc else Tbl.get 0 v.txCode sc

/-- The upstream profile in force for a grant's target superframe (R157, R163): that of a change it reaches, applied or not yet. -/
def Wave.codeFor (v : Wave) (sc t : Nat) : Nat :=
  match v.pend.find? fun p => p.dir == 1 && p.sc == sc && sfnGe t p.esfn with
  | some p => p.code
  | none => match (v.txWas.filter fun p => p.2.1 == sc && !sfnGe t p.1).getLast? with
    | some p => p.2.2
    | none => v.code 1 sc

/-- The masks of the groups of a direction. -/
def Dev.groupMasks (d : Dev) (w dir : Nat) : List Nat :=
  (List.range 32).map fun g => if dir = 0 then d.get (F.lfGrpMembMask w g) else (d.grp w g).txMask

/-- The RESULT of a PROFILE_CHANGE (R140, R162): the lowest code that applies. `dir` is this device's direction. -/
def Dev.profResult (d : Dev) (w dir mask esfn : Nat) (codes : List Nat) : Nat :=
  let lead := sfnSub esfn (d.dirSfn w dir)
  if lead < 4 || 1024 < lead then 1
  else if (List.range 32).any fun k => decide (0x1F < codes.getD k 0) || (!mask.testBit k && codes.getD k 0 != 0) then 2
  else if (d.groupMasks w dir).any fun g => g &&& mask != 0 && g &&& mask != g then 3
  else if (d.wave w).leaf && dir == 1 && mask &&& d.txSet w != mask then 4
  else match (d.wave w).proposal with
    | some p => if !(d.wave w).leaf && (d.wave w).master && p.dir == dir && p.codes.any (fun c => mask.testBit c.1) then 5 else 0
    | none => 0

/-- NEXT and NEXTV of a transmit subcarrier on the engines of a wavelength, both in a revert overlap, follow the framer's copy
(R451). -/
def Dev.showNext (d : Dev) (w sc : Nat) (next : Option Nat) : Dev :=
  d.each (d.enginesOf w) fun d e => match next with
    | some c => (d.set (F.leTxsProfNext e sc) c).set (F.leTxsProfNextv e sc) 1
    | none => d.set (F.leTxsProfNextv e sc) 0

/-- An accepted change of one subcarrier replaces any pending for it, and a receive change is watched (R162, R166). -/
def Dev.pendChange (d : Dev) (w dir sc code esfn : Nat) (own : Bool) : Dev :=
  let old := (d.wave w).code dir sc
  let d1 := d.setWave w fun v =>
    { v with pend := (v.pend.filter fun p => !(p.dir == dir && p.sc == sc)) ++ [⟨dir, sc, code, esfn, own⟩] }
  if dir = 1 then d1.showNext w sc (some code)
  else d1.setSc w sc fun x => { x with roll := some ⟨esfn, old, code, own, []⟩ }

/-- Pending changes of the subcarriers of a mask cancelled (R162). -/
def Dev.cancelChanges (d : Dev) (w dir mask : Nat) : Dev :=
  let d1 := d.setWave w fun v => { v with pend := v.pend.filter fun p => !(p.dir == dir && mask.testBit p.sc) }
  d1.when (dir == 1) fun d => d.each (maskBits 32 mask) fun d k => d.showNext w k none

/-- The changes an acknowledged proposal has pending are withdrawn with it (R165, R447). -/
def Dev.withdrawOwn (d : Dev) (w : Nat) (p : Proposal) : Dev :=
  let mine (q : ProfPend) : Bool := q.own && q.dir == p.dir && q.esfn == p.esfn && p.codes.any (fun c => c.1 == q.sc)
  let d1 := d.setWave w fun v => { v with pend := v.pend.filter fun q => !mine q }
  d1.when (p.dir == 1) fun d => d.each p.codes fun d c =>
    d.when (!(d.wave w).pend.any fun q => q.dir == 1 && q.sc == c.1) fun d => d.showNext w c.1 none

/-- The host's proposal is abandoned (R164, R165). -/
def Dev.abandon (d : Dev) (w : Nat) : Dev :=
  let d0 := match (d.wave w).proposal with
    | some p => if p.acked then d.withdrawOwn w p else d
    | none => d
  (((d0.setWave w fun v => { v with proposal := none }).set (F.lfPrfStatBusy w) 0).set (F.lfPrfStatResult w) 3).sfEvent
    w 15 [R.lfPrfStat w]

/-- PROFILE_CHANGE received (R138, R162 to R165): addressed to `tid`; the codes as (subcarrier, code) bytes. -/
def Dev.profileChange (d : Dev) (w tid mseq esfn mdir op mask : Nat) (codes : List Nat) : Dev :=
  let leaf := (d.wave w).leaf
  let st := d.get (F.lfActStatState w)
  if 1 < mdir || 1 < op then d.ctlFld w
  else if leaf && (st == 0 || !(tid == 0xFFF || (tid == d.get (F.lfActIdTid w) && tid != 0))) then d
  else
    let dir := mdir
    let res := d.profResult w dir mask esfn codes
    let answer := !leaf || tid != 0xFFF
    let d1 := match (d.wave w).proposal with
      | some p => if !leaf && !(d.wave w).master && p.dir == dir && p.codes.any (fun c => mask.testBit c.1) then d.abandon w else d
      | none => d
    if res ≠ 0 then (d1.profRefused w).when answer fun d => d.sendAck w 4 mseq res esfn
    else
      let d2 := if op = 1 then d1.cancelChanges w dir mask
        else d1.each (maskBits 32 mask) fun d k => d.pendChange w dir k (codes.getD k 0) esfn false
      if leaf then d2.when answer fun d => d.sendAck w 4 mseq 0 esfn else d2.ackUntil w 4 mseq esfn dir

def execProfileChange (w : Fin 2) (tid : BitVec 12) (mseq : BitVec 16) (esfn : Word) (mdir op : Byte) (mask : Word)
    (codes : List Byte) (s : State) : Host.Outcome State Fault Refusal := s.run fun _ d =>
  d.profileChange w tid.toNat mseq.toNat esfn.toNat mdir.toNat op.toNat mask.toNat (codes.map (·.toNat))

/-- A change of one subcarrier takes effect (R59, R79): the framer's copy, and every engine of the wavelength. -/
def Dev.applyChange (d : Dev) (w : Nat) (p : ProfPend) : Dev :=
  if p.dir = 0 then
    (d.setWave w fun v => { v with rxCode := Tbl.set 0 v.rxCode p.sc p.code }).each (d.enginesOf w) fun d e =>
      d.set (F.leRxsLlrcfgProfile e p.sc) p.code
  else
    (d.setWave w fun v => { v with
      txCode := Tbl.set 0 v.txCode p.sc p.code, txWas := (p.esfn, p.sc, v.code 1 p.sc) :: v.txWas }).each (d.enginesOf w) fun d e =>
        (d.set (F.leTxsProfCur e p.sc) p.code).set (F.leTxsProfNextv e p.sc) 0

/-- TX_PROFILE for a change of a subcarrier's CUR: at once, or in a sparing gap and without an engine once the new engine sends (R79). -/
def Dev.profEvent (d : Dev) (w sc : Nat) : Dev :=
  match d.serving w, (d.wave w).txCut with
  | some e, false => d.txEvent e 1 [R.leTxsProf e sc]
  | _, _ => d.setWave w fun v => { v with txProf := some (v.txProf.getD sc) }

/-- The changes of a direction whose ESFN is reached at superframe `sfn`, applied, in a sparing gap and without an engine too; TX_PROFILE
where CUR changed (R79, R447, R450, R451). -/
def Dev.applyPend (d : Dev) (w dir sfn : Nat) : Dev :=
  let due := (d.wave w).pend.filter fun p => p.dir == dir && sfnGe sfn p.esfn
  let d1 := (d.setWave w fun v => { v with pend := v.pend.filter fun p => !due.contains p }).each due fun d p => d.applyChange w p
  match due.find? fun p => dir == 1 && (d.wave w).code 1 p.sc != p.code with
  | some p => d1.profEvent w p.sc
  | none => d1

/-- The codes that the headers of R166 have given the demapper take effect at a receive superframe boundary. -/
def Dev.applyBack (d : Dev) (w : Nat) : Dev :=
  d.each (List.range 32) fun d k => match (d.sc w k).back with
    | some c => (d.applyChange w ⟨0, k, c, 0, false⟩).setSc w k fun x => { x with back := none }
    | none => d

/-- TX_PROFILE_APPLY (R59, R79, R166, R447): the boundary of superframe `sfn` in a direction, 0 receive and 1 transmit. -/
def execTxProfileApply (w : Fin 2) (dir : Fin 2) (sfn : Word) (s : State) : Host.Outcome State Fault Refusal :=
  s.run fun _ d => (d.when (dir.val == 0) fun d => d.applyBack w).applyPend w dir sfn.toNat

/-- The checks of PRF_REQ.GO (R164): an error code, 0 for none. -/
def Dev.prfCheck (d : Dev) (w : Nat) (v : Word) : Nat :=
  if (F.lfPrfReqGo w).of v = 0 then 0
  else if d.flag (F.lfPrfStatBusy w) || (d.wave w).leaf || !(List.range 32).any (fun k => d.flag (F.lfPrfCodeInc w k)) then 0xA
  else 0

/-- An accepted GO sends PROFILE_CHANGE (R164). -/
def Dev.prfGo (d : Dev) (w : Nat) (v : Word) : Dev :=
  if (F.lfPrfReqGo w).of v = 0 then d
  else
    let mdir := (F.lfPrfReqDir w).of v
    let dir := 1 - mdir
    let op := (F.lfPrfReqOp w).of v
    let esfn := (d.dirSfn w dir + (F.lfPrfReqLead w).of v) % 2 ^ 32
    let codes := ((List.range 32).filter fun k => d.flag (F.lfPrfCodeInc w k)).map fun k => (k, d.get (F.lfPrfCodeCode w k))
    let mask := codes.foldl (fun m c => setBit m c.1) 0
    let seq := (d.wave w).mseq
    let body := beBytes 4 esfn ++ beBytes 1 mdir ++ beBytes 1 op ++ beBytes 4 mask
      ++ (List.range 32).flatMap fun k => beBytes 1 (((codes.find? fun c => c.1 == k).map (·.2)).getD 0)
    let d1 := (((d.sendCtrl w 4 body).set (F.lfPrfStatBusy w) 1).set (F.lfPrfEsfnEsfn w) esfn).setWave w fun x =>
      { x with proposal := some ⟨dir, op == 1, codes, esfn, seq, false⟩ }
    d1.when (dir == 0 && op == 0) fun d => d.each codes fun d c =>
      let old := (d.wave w).code 0 c.1
      d.setSc w c.1 fun x => { x with roll := some ⟨esfn, old, c.2, true, []⟩ }

/-- An ACK for the host's profile proposal, or for one abandoned earlier (R164, R165). -/
def Dev.ackProfile (d : Dev) (w amseq result : Nat) : Dev :=
  let d1 := d.set (F.lfPrfStatRcode w) result
  match (d.wave w).proposal with
  | some p =>
    if p.mseq = amseq then
      if result = 0 then
        if p.acked then d1
        else
          let d2 := d1.setWave w fun v => { v with proposal := some { p with acked := true } }
          if p.cancel then d2.cancelChanges w p.dir (p.codes.foldl (fun m c => setBit m c.1) 0)
          else d2.each p.codes fun d c => d.pendChange w p.dir c.1 c.2 p.esfn true
      else (((d1.setWave w fun v => { v with proposal := none }).set (F.lfPrfStatBusy w) 0).set (F.lfPrfStatResult w) 2).profRefused w
    else if result = 0 then d1 else d1.profRefused w
  | none => if result = 0 then d1 else d1.profRefused w

/-- ACK_RESEND (R164): once in every superframe until ESFN, by the numbers of the direction that changes, for each change accepted; a
repeat keeps its number (R137). -/
def execAckResend (w : Fin 2) (s : State) : Host.Outcome State Fault Refusal := s.run fun _ d =>
  let live := (d.wave w).acks.filter fun a => !sfnGe (d.dirSfn w a.dir) a.esfn
  d.setWave w fun v => { v with
    acks := live, ctrlQ := v.ctrlQ ++ live.map fun a => ⟨0x44, a.mseq, ackBody a.mtype a.amseq 0 a.esfn, none⟩ }

/-- PRF_PROPOSAL_EXPIRE (R164): at ESFN. -/
def execPrfProposalExpire (w : Fin 2) (s : State) : Host.Outcome State Fault Refusal := s.run fun _ d =>
  match (d.wave w).proposal with
  | none => d
  | some p =>
    if p.acked then
      ((((d.applyPend w p.dir p.esfn).setWave w fun v => { v with proposal := none }).set (F.lfPrfStatBusy w) 0).set
        (F.lfPrfStatResult w) 1)
    else d.abandon w

/-- The watch of R166 at a good header: the first three at or after ESFN; the demapper takes their code from the next superframe
boundary on. -/
def Dev.rollback (d : Dev) (w sc sfn prof : Nat) : Dev :=
  match (d.sc w sc).roll with
  | none => d
  | some r =>
    if !sfnGe sfn r.esfn then d
    else
      let seen := r.seen ++ [prof]
      if seen.length < 3 then d.setSc w sc fun x => { x with roll := some { r with seen := seen } }
      else
        let d1 := d.setSc w sc fun x => { x with roll := none }
        let cur := (d.wave w).code 0 sc
        if seen.all (· == prof) && (prof == r.old || prof == r.new) && prof != cur then
          let d2 := d1.setSc w sc fun x => { x with back := some prof }
          let d3 := if r.own && d.get (F.lfPrfEsfnEsfn w) == r.esfn then d2.set (F.lfPrfStatResult w) 4 else d2
          d3.sfEvent w 12 [R.lfPrfStat w]
        else d1

/-! ### A new engine begins to send (R79, R205, R206, R214) -/

/-- The transmit changes whose superframe has passed are in effect once the new engine sends; TX_PROFILE is then raised once (R79,
R447, R451). -/
def Dev.catchUp (d : Dev) (w e : Nat) : Dev :=
  let d1 := d.when (d.cordOn (6 + w)) fun d => d.applyPend w 1 (d.dirSfn w 1)
  match (d1.wave w).txProf with
  | some k => (d1.setWave w fun v => { v with txProf := none }).raise (0x42 + w) [R.leTxsProf e k]
  | none => d1

/-- The first transmit line frame boundary, or in leaf mode the first burst, that a new engine is in time for: TXENG names it, and
its output ends the null (R205, R206, R214). -/
def Dev.txMove (d : Dev) (w : Nat) (frame : Bool) : Dev :=
  match (d.wave w).txNext with
  | some x =>
    if d.time.ticks < x.tick || ((d.wave w).leaf && frame != x.atFrame) then d
    else
      (((d.catchUp w x.eng).when (d.cordOn (4 + w)) fun d => d.set (F.cvSelStatTxeng w) x.eng).setWave w fun v =>
        { v with txNext := none, txCut := false }).txRefresh
  | none => d

end Sys2Proof.Machine
end

