-- ==== Sys2Proof/Machine/Timing.lean ====
section
/-!
DEFINITION. The time counter, stamps, time of day and PPS: 13_time. A tick of the counter is what the step does on an
empty queue; a time stamp is the counter as it stands.
-/

namespace Sys2Proof.Machine

def Dev.setTime (d : Dev) (f : TimeSt → TimeSt) : Dev := { d with time := f d.time }
def Dev.wl (d : Dev) (w : Nat) : WlTime := if w = 0 then d.time.wa else d.time.wb
def Dev.setWl (d : Dev) (w : Nat) (f : WlTime → WlTime) : Dev :=
  d.setTime fun t => if w = 0 then { t with wa := f t.wa } else { t with wb := f t.wb }

/-- The counter as a stamp. -/
def TimeSt.stamp (t : TimeSt) : Stamp := ⟨t.ns, t.sub / 256⟩
def Dev.now (d : Dev) : Stamp := d.time.stamp

/-- The counter as one number of 1/2^24 ns. -/
def TimeSt.value (t : TimeSt) : Nat := t.ns * 2 ^ 24 + t.sub

/-- The counter moved by an amount of 1/2^24 ns, with the passages of NS through 2^32 (R348, R351). -/
def TimeSt.moved (t : TimeSt) (by_ : Int) : TimeSt × Int :=
  let v := (t.value : Int) + by_
  let k := v.fdiv (2 ^ 56 : Nat)
  let u := unsignedOf 56 v
  ({ t with ns := u / 2 ^ 24, sub := u % 2 ^ 24, wraps := unsignedOf 16 ((t.wraps : Int) + k) }, k)

/-- A move of the counter with its TIME_WRAP events: one for each increment of WRAPS (R351). -/
def Dev.moveTime (d : Dev) (by_ : Int) : Dev :=
  let r := d.time.moved by_
  (d.setTime fun _ => r.1).each (List.range r.2.toNat) fun d _ => d.raiseWords 0xF8 [BitVec.ofNat 32 (r.1.sub / 256 + r.1.wraps * 2 ^ 16)]

/-- The step that waits is applied after the tick's INC (R351). -/
def Dev.applyStep (d : Dev) : Dev :=
  match d.time.step with
  | none => d
  | some (ns, sub) =>
    let d1 := (d.setTime fun t => { t with step := none }).moveTime (ns * (2 ^ 24 : Nat) + (sub * 256 : Nat))
    ((d1.set F.hrtTimStepctlBusy 0).count F.hrtTimStatStepcnt 1).raise 0xF9 [R.hrtTimStat]

/-! ### What passes with the ticks (R18, R22 to R25, R88, R103, R108, R126) -/

/-- A line frame is 128,000 symbols, 10,240 ticks at 12.5 symbols a tick (R18, R103). -/
def lineTicks : Nat := 10240

/-- A framer in service counts line frames sent, with or without an engine (R106, R126), and the payload line bits of each
subcarrier that sends line frames (R108, R113, R170). -/
def Dev.countFrames (d : Dev) (w k : Nat) : Dev :=
  let v := d.wave w
  let n := 8 * v.txSfn + v.txFnum + k
  (d.setWave w fun v => { v with txSfn := n / 8 % 2 ^ 32, txFnum := n % 8 }).each (maskBits 32 (d.sendScs w)) fun d sc =>
    d.setSc w sc fun x => { x with txBits := x.txBits + k * frameBits (v.code 1 sc) }

/-- `k` transmit line frames of a wavelength end and the next begins at tick `b`: a line frame boundary of its engines, and a superframe
boundary where FNUM has come round to 0, the last of them at that many frames before. Without a framer every line frame counts as a
superframe (the model's choice, log 78). -/
def Dev.sendFrames (d : Dev) (w k b : Nat) : Dev :=
  let n := (d.wave w).txFnum + k
  let on := d.cordOn (6 + w)
  let d1 := d.setWave w fun v => { v with lineAt := b }
  ((d1.when on fun d => d.countFrames w k).each (d1.enginesOf w) fun d e =>
    (d.engLine e b).when (!on || k == 0 || decide (8 ≤ n)) fun d => d.engSend e (if on && k != 0 then b - n % 8 * lineTicks else b)).txMove w true

/-- A boundary of every kind at tick `b`, for an engine without a wavelength (the model's choice, log 78). -/
def Dev.engFree (d : Dev) (e b : Nat) : Dev :=
  (((d.engLine e b).engSend e b).engSuperframe e b).setEng e fun g => { g with oldLine := g.oldLine.release b fun _ => true }

/-- A ramp that has ended, those of bursts, and one that begins under the mask mute show in STATE (R88). -/
def Dev.rampsNow (d : Dev) : Dev :=
  let ramped (w : Nat) : Bool := match (d.wave w).ramp with
    | some r => decide (r.1 ≤ d.time.ticks)
    | none => false
  let muted := [0, 1, 2].any fun e => d.flag (F.leTxcStatMuted e) && !(d.eng e).muteOut
  let burst := [0, 1].any fun w => !(d.wave w).burstsOn.isEmpty
  d.when (ramped 0 || ramped 1 || muted || burst) fun d => (d.each [0, 1] fun d w => d.setWave w fun v =>
    { v with ramp := v.ramp.filter fun r => decide (d.time.ticks < r.2) }).txRefresh

/-- Generated control frames whose port has woken from low-power idle start (R295). -/
def Dev.sendGens (d : Dev) : Dev := d.each ((d.macs.filter fun x => !x.2.gen.isEmpty).map (·.1)) fun d p => d.sendGen p

/-- What passes from one count of ticks to another: the steering, the line frames of both wavelengths, the line frame boundaries
of the engines that are in none (the model's choice, log 78), the ramps, and the control frames that wait for a port to wake. -/
def Dev.elapse (d : Dev) (was now : Nat) : Dev :=
  let d1 := [0, 1].foldl (fun d w =>
    let k := (now - (d.wave w).lineAt) / lineTicks
    d.when (k != 0) fun d => d.sendFrames w k ((d.wave w).lineAt + k * lineTicks)) (d.steer was now)
  let d2 := d1.when (was / lineTicks != now / lineTicks) fun d =>
    d.each ([0, 1, 2].filter fun e => (d1.engWl e).isNone) fun d e => d.engFree e (now / lineTicks * lineTicks)
  d2.rampsNow.sendGens

/-- The ticks pass. -/
def Dev.passTicks (d : Dev) (n : Nat) : Dev :=
  let was := d.time.ticks
  (d.setTime fun t => { t with ticks := was + n }).elapse was (was + n)

/-- One tick of the 625 MHz clock (R348 to R351). -/
def Dev.tick (d : Dev) : Dev :=
  let d0 := d.passTicks 1
  if d.flag F.hrtTimStatRun then (d0.moveTime (d.get F.hrtTimIncInc : Nat)).applyStep else d0

/-- `n` ticks after a first one. -/
def Dev.ticksOn (d : Dev) (n : Nat) : Dev :=
  (d.passTicks n).when (d.flag F.hrtTimStatRun) fun d => d.moveTime ((n * d.get F.hrtTimIncInc : Nat) : Int)

/-- TIME_WRAP (R351): the ticks up to the one at which NS passes 2^32. -/
def execTimeWrap (s : State) : Host.Outcome State Fault Refusal := s.run fun _ d =>
  if !d.flag F.hrtTimStatRun then d
  else
    let d1 := d.tick
    let inc := max 1 (d1.get F.hrtTimIncInc)
    d1.ticksOn ((2 ^ 56 - d1.time.value + inc - 1) / inc)

/-- The ticks up to the next transmit line frame boundary of a wavelength pass, none where it is now. -/
def Dev.toBoundary (d : Dev) (w : Nat) : Dev :=
  let r := (d.time.ticks - (d.wave w).lineAt) % lineTicks
  if r = 0 then d else d.tick.ticksOn (lineTicks - r - 1)

/-! ### Registers of the counter (R351, R352, R356, R358) -/

/-- The write of STEPCTL (R351): an error code, 0 for none. -/
def Dev.stepCheck (d : Dev) (v : Word) : Nat :=
  if F.hrtTimStepctlGo.of v = 1 && d.flag F.hrtTimStepctlBusy then 0xA else 0

/-- An accepted GO: the step waits for the next tick. -/
def Dev.stepGo (d : Dev) (v : Word) : Dev :=
  d.when (F.hrtTimStepctlGo.of v == 1) fun d =>
    (d.setTime fun t => { t with step := some (d.getInt F.hrtTimStepnsStepns, F.hrtTimStepctlStepsub.of v) }).set F.hrtTimStepctlBusy 1

/-- A write of NSBASE puts the pair in force (R356). -/
def Dev.nsBaseGo (d : Dev) : Dev := d.setTime fun t =>
  { t with secBase := d.get F.hrtTimSecbasehiValue * 2 ^ 32 + d.get F.hrtTimSecbaseloValue, nsBase := d.get F.hrtTimNsbaseValue }

/-- TIM_NS_READ (R352): the read latches SUB and WRAPS of the same tick. -/
def Dev.latchNs (d : Dev) : Dev := (d.set F.hrtTimSubSub (d.time.sub / 256)).set F.hrtTimSubWraps d.time.wraps

/-- The value of the registers that show the counter or a stamp as it stands. -/
def Dev.timeView (d : Dev) (a : Nat) : Option Nat :=
  if a = R.hrtTimNs then some d.time.ns
  else if a = R.hrtTimPpsinns then some d.time.pps.ns
  else ([0, 1].findSome? fun w =>
    let x := d.wl w
    if a = R.hrtTimWlRxsfn w then some x.rx.1
    else if a = R.hrtTimWlTxsfn w then some x.tx.1
    else if a = R.hrtTimWlBseq w then some (match x.burst with
      | some b => b.1 + 2 ^ 31
      | none => 0)
    else if a = R.hrtTimWlTodrsfn w then some x.tod.rsfn
    else none)

/-- A read of the first register of a group latches the rest of it (R352). -/
def Dev.latchGroup (d : Dev) (a : Nat) : Dev :=
  if a = R.hrtTimNs then d.latchNs
  else if a = R.hrtTimPpsinns then d.set F.hrtTimPpsinsubSub d.time.pps.sub
  else d.each [0, 1] fun d w =>
    let x := d.wl w
    if a = R.hrtTimWlRxsfn w then (d.set (F.hrtTimWlRxnsNs w) x.rx.2.ns).set (F.hrtTimWlRxsubSub w) x.rx.2.sub
    else if a = R.hrtTimWlTxsfn w then (d.set (F.hrtTimWlTxnsNs w) x.tx.2.ns).set (F.hrtTimWlTxsubSub w) x.tx.2.sub
    else if a = R.hrtTimWlBseq w then
      let b := (x.burst.map (·.2)).getD {}
      (d.set (F.hrtTimWlBnsNs w) b.ns).set (F.hrtTimWlBsubSub w) b.sub
    else if a = R.hrtTimWlTodrsfn w then
      let l := x.tod.loc.getD {}
      (((((((d.set (F.hrtTimWlTodsechiSec w) (x.tod.sec / 2 ^ 32)).set (F.hrtTimWlTodsecloSec w) x.tod.sec).set
        (F.hrtTimWlTodnsNs w) x.tod.ns).set (F.hrtTimWlTodfracFrac w) x.tod.frac).setFlag (F.hrtTimWlTodfracLocv w) x.tod.loc.isSome).set
          (F.hrtTimWlLocnsNs w) l.ns).set (F.hrtTimWlLocsubSub w) l.sub)
    else d

/-! ### Stamps and time of day (R353 to R356) -/

/-- What a superframe or burst start stamps. -/
def Dev.stampStart (d : Dev) (w kind n : Nat) : Dev :=
  let t := d.now
  if kind = 0 then d.setWl w fun x => { x with rx := (n, t), kept := ((n, t) :: x.kept).take 16 }
  else if kind = 1 then d.setWl w fun x => { x with tx := (n, t) }
  else d.setWl w fun x => { x with burst := some (n % 256, t) }

/-- The head end's silence counts down one superframe; the last is left for its expiry (R149). -/
def Dev.silenceTick (d : Dev) (w : Nat) : Dev :=
  d.when (decide (1 < d.get (F.lfActStatSilrem w))) fun d => d.set (F.lfActStatSilrem w) (d.get (F.lfActStatSilrem w) - 1)

/-- A transmit superframe begins: a line frame boundary, unless the framer's count has just reached it. The number comes with the
command (the model's choice, log 78). -/
def Dev.superframeSent (d : Dev) (w n : Nat) : Dev :=
  let v := d.wave w
  let d1 := if v.txSfn = n ∧ v.txFnum = 0 then d else d.sendFrames w (if n = (v.txSfn + 1) % 2 ^ 32 then 8 - v.txFnum else 0) d.time.ticks
  d1.setWave w fun v => { v with txSfn := n, txFnum := 0, lineAt := d.time.ticks }

/-- SUPERFRAME_STAMP (R354): kind 0 a receive superframe, 1 a transmit superframe, 2 a burst (its BSEQ). Superframe
stamps are not latched in a sparing gap, nor while the subcarrier that defines them is not ALIGNED. -/
def execSuperframeStamp (w : Fin 2) (kind : Fin 3) (n : Word) (s : State) : Host.Outcome State Fault Refusal :=
  s.run fun _ d =>
    let gap := (d.wave w).gap || (d.serving w).isNone
    let sc := if (d.wave w).leaf then d.get (F.lfAlnStatBcnsc w)
      else ((List.range 32).find? fun k => d.get (F.lfScsAlnState w k) == 2).getD 0
    if kind.val = 0 then
      let ok := !gap && d.get (F.lfScsAlnState w sc) == 2 && (!(d.wave w).leaf || d.flag (F.lfAlnStatBcnv w))
      ((d.silenceTick w).setWave w fun v => v.settle n.toNat).when ok fun d => d.stampStart w 0 n.toNat
    else if kind.val = 1 then
      (d.superframeSent w n.toNat).when (!gap) fun d => d.stampStart w 1 n.toNat
    else d.stampStart w 2 n.toNat

/-- A TIME_OF_DAY recorded; the detail of TOD_RX is the record, of which an entry of the ash log takes the first 12 bytes (R169, R355, R424). -/
def Dev.timeOfDay (d : Dev) (w rsfn sec ns frac : Nat) : Dev :=
  let loc := ((d.wl w).kept.find? fun x => x.1 == rsfn).map (·.2)
  ((d.setWl w fun x => { x with tod := ⟨rsfn, sec, ns, frac, loc⟩ }).count (F.hrtTimWlTodfracTodcnt w) 1).raiseWords
    (0x8A + w) [BitVec.ofNat 32 rsfn, BitVec.ofNat 32 (sec / 2 ^ 32), BitVec.ofNat 32 sec]

/-- A TIME_OF_DAY under the checks of its mode (R138, R139, R169). -/
def Dev.timeOfDayRx (d : Dev) (w rsfn sec ns frac : Nat) : Dev :=
  if 999999999 < ns || (!(d.wave w).leaf && (d.wave w).master) then d.ctlFld w
  else if (d.wave w).leaf && d.get (F.lfActStatState w) == 0 then d
  else d.timeOfDay w rsfn sec ns frac

/-- TIME_OF_DAY (R138, R355): received under the addressing of its mode. -/
def execTimeOfDay (w : Fin 2) (rsfn : Word) (sec : BitVec 48) (ns : Word) (frac : BitVec 16) (s : State) :
    Host.Outcome State Fault Refusal := s.run fun _ d => d.timeOfDayRx w rsfn.toNat sec.toNat ns.toNat frac.toNat

/-- TOD_SEND (R169, R356): the timing master's message for the newest transmit superframe, when its number is a
multiple of 8,192. -/
def execTodSend (w : Fin 2) (s : State) : Host.Outcome State Fault Refusal := s.run fun _ d =>
  let t := (d.wl w).tx
  if (d.wave w).leaf || !(d.wave w).master || t.1 % 8192 ≠ 0 || !d.released (6 + w) then d
  else
    let e := unsignedOf 32 ((t.2.ns : Int) - (d.time.nsBase : Nat))
    if 4000000000 ≤ e then (d.count F.hrtTimStatTodskip 1).raise 0xFB [R.hrtTimStat]
    else d.sendCtrl w 0x06 (beBytes 4 t.1 ++ beBytes 6 ((d.time.secBase + e / 1000000000) % 2 ^ 48) ++ beBytes 4 (e % 1000000000) ++ beBytes 2 t.2.sub)

/-! ### PPS (R357, R358) -/

/-- PPS_IN (R357): a rising edge that stayed high for `high` ns, at the counter as it stands. -/
def execPpsIn (high : Nat) (s : State) : Host.Outcome State Fault Refusal := s.run fun _ d =>
  if !d.flag F.hrtTimPpscfgInen || decide (high < 100) then d
  else
    let short := match d.time.ppsAt with
      | some t => decide ((d.time.ticks - t) * 16 < 5000000000)
      | none => false
    if short then d.count F.hrtTimStatPpsshort 1
    else
      (((d.setTime fun t => { t with pps := t.stamp, ppsAt := some t.ticks }).count F.hrtTimPpsinsubIncnt 1).set F.hrtTimStatInloss 0).raiseWords
        0xFA [BitVec.ofNat 32 d.time.ns]

/-- PPS_IN_LOSS (R357). -/
def execPpsInLoss (s : State) : Host.Outcome State Fault Refusal := s.run fun _ d =>
  d.when (d.flag F.hrtTimPpscfgInen && !d.flag F.hrtTimStatInloss) fun d => (d.set F.hrtTimStatInloss 1).raise 0xFB [R.hrtTimStat]

/-- PPSNEXT advanced by whole periods until it lies ahead of NS (R358). -/
def ppsAhead (next per ns : Nat) : Nat :=
  let behind := unsignedOf 32 ((ns : Int) - (next : Nat))
  (next + (behind / max 1 per + 1) * per) % 2 ^ 32

/-- PPS_OUT_RISE (R358): NS has reached PPSNEXT. -/
def execPpsOutRise (s : State) : Host.Outcome State Fault Refusal := s.run fun _ d =>
  let next := d.get F.hrtTimPpsnextValue
  d.when (d.flag F.hrtTimPpscfgOuten && decide (unsignedOf 32 ((d.time.ns : Int) - (next : Nat)) < 2 ^ 31)) fun d =>
    ((d.set F.hrtTimPpsnextValue (ppsAhead next (d.get F.hrtTimPpsperValue) d.time.ns)).setTime fun t => { t with ppsOut := true }).emit (.ppsOut true)

/-- PPS_OUT_FALL (R358). -/
def execPpsOutFall (s : State) : Host.Outcome State Fault Refusal := s.run fun _ d =>
  d.when d.time.ppsOut fun d => (d.setTime fun t => { t with ppsOut := false }).emit (.ppsOut false)

/-- A write of OUTEN = 0 drives PPS_OUT low (R358). -/
def Dev.ppsOff (d : Dev) : Dev :=
  d.when (d.time.ppsOut && !d.flag F.hrtTimPpscfgOuten) fun d => (d.setTime fun t => { t with ppsOut := false }).emit (.ppsOut false)

end Sys2Proof.Machine
end

