-- ==== Sys2Proof/Machine/Crypto.lean ====
section
/-!
DEFINITION. Line encryption: 06_line_encryption; and the commands that move cells: received headers and cells, tags,
transmitted cells, urgent pairs and bursts (04, 05).
-/

namespace Sys2Proof.Machine

/-- An encryption event of condition `c` (R195). -/
def Dev.cryEvent (d : Dev) (w c : Nat) (addrs : List Nat) : Dev := d.raise (0x90 + 2 * c + w) addrs

def Crypto.tx (c : Crypto) (k : Nat) : TxSlot := if k = 0 then c.tx0 else c.tx1
def Crypto.setTx (c : Crypto) (k : Nat) (f : TxSlot → TxSlot) : Crypto :=
  if k = 0 then { c with tx0 := f c.tx0 } else { c with tx1 := f c.tx1 }
def Crypto.rx (c : Crypto) (k : Nat) : RxSlot := if k = 0 then c.rx0 else c.rx1
def Crypto.setRx (c : Crypto) (k : Nat) (f : RxSlot → RxSlot) : Crypto :=
  if k = 0 then { c with rx0 := f c.rx0 } else { c with rx1 := f c.rx1 }

/-- GCTR and the loaded bits of a stream pair follow the slots. -/
def Dev.cryShow (d : Dev) (w g : Nat) : Dev :=
  let c := d.cry w g
  let n := (c.tx (d.get (F.lfCrytStatSlot w g))).ctr
  ((((((d.setFlag (F.lfCrytStatLd0 w g) c.tx0.loaded).setFlag (F.lfCrytStatLd1 w g) c.tx1.loaded).setFlag
    (F.lfCryrStatLd0 w g) c.rx0.loaded).setFlag (F.lfCryrStatLd1 w g) c.rx1.loaded).set (F.lfCrytGctrloGctr w g) (n % 2 ^ 32)).set
    (F.lfCrytGctrhiGctr w g) (n / 2 ^ 32))

/-- The transmit slot in use of a group. -/
def Dev.slotInUse (d : Dev) (w g : Nat) : TxSlot := (d.cry w g).tx (d.get (F.lfCrytStatSlot w g))

/-- A slot has no counter value left (R184): the counter stands past 2^48 − 1. -/
def TxSlot.spent (s : TxSlot) : Bool := decide (2 ^ 48 ≤ s.ctr)

/-- The transmit stream of a group is encrypted and sealing. -/
def Dev.sealing (d : Dev) (w g : Nat) : Bool := (d.grp w g).encTx && d.get (F.lfCrytStatHalt w g) == 0 && !(d.slotInUse w g).spent

/-- The receive stream of a group is encrypted: never the beacon's (R175). -/
def Dev.encRx (d : Dev) (w g : Nat) : Bool := (d.grp w g).encRx && !((d.wave w).leaf && g == 31)

/-! ### GCM inputs (R177 to R179) -/

/-- The number of the stream this end transmits, or receives, in a group (R179): bit 5 for the head end's or the timing
master's. -/
def Dev.streamNo (d : Dev) (w g : Nat) (transmit : Bool) : Nat :=
  let v := d.wave w
  let high := if v.leaf then !transmit else if transmit then v.master else !v.master
  (if high then 32 else 0) + g

/-- The initialisation vector: salt, stream number, counter (R178). -/
def gcmIv (salt stream gctr : Nat) : List Byte := beBytes 4 salt ++ beBytes 2 stream ++ beBytes 6 gctr

/-- Bytes 0 to 7 of a TAG cell's payload (R177). -/
def tagPrefix (gctr slot : Nat) (urg : Bool) (dcnt : Nat) : List Byte :=
  beBytes 6 gctr ++ beBytes 1 (slot + (if urg then 2 else 0)) ++ beBytes 1 dcnt

/-! ### Transmit streams (R176 to R186) -/

/-- A packet cut into cells (R121); its buffers go with its last cell (R251). -/
def packetCells (flow : Nat) (bytes : List Byte) (bufs : List Nat) : List TxCell :=
  let n := (bytes.length + 247) / 248
  if n ≤ 1 then [⟨flow, 1, bytes.length, bytes, bufs⟩]
  else (List.range n).map fun i =>
    let part := (bytes.drop (248 * i)).take 248
    ⟨flow, if i = 0 then 2 else if i + 1 = n then 4 else 3, part.length, part, if i + 1 = n then bufs else []⟩

/-- The cell of a control message (R136, R137). -/
def ctrlCell (flow type : Nat) (m : CtrlOut) : TxCell := let b := ctrlBytes m; ⟨flow, type, b.length, b, []⟩

def idleCell : TxCell := ⟨0, 0, 0, [], []⟩

/-- The member subcarrier on which cell `n` of a group lies (R124). -/
def memberOf (mask n : Nat) : Nat := let l := maskBits 32 mask; l.getD (n % max 1 l.length) 0

/-- The group that carries the control channel in point-to-point mode: the one of SC00 (R135). -/
def Dev.carriesCtrl (d : Dev) (w g : Nat) : Bool := !(d.wave w).leaf && (d.grp w g).txMask.testBit 0

/-- The next sealable cell of a continuous stream, to be its cell `n`: control on SC00 (R135), data, idle (R119). In a sparing gap only
idle cells are built (R207). -/
def Dev.takeCell (d : Dev) (w g n : Nat) (urgCtl : Bool) : Dev × TxCell :=
  if (d.wave w).gap then (d, idleCell)
  else match d.carriesCtrl w g && !urgCtl && memberOf (d.grp w g).txMask n == 0, (d.wave w).ctrlQ, (d.grp w g).txCells with
    | true, m :: t, _ => (d.setWave w fun v => { v with ctrlQ := t }, ctrlCell 0xFFFFF 5 m)
    | _, _, c :: t => (d.setGrp w g fun x => { x with txCells := t }, c)
    | _, _, [] => (d, idleCell)

/-- `k` cells taken in order, to be the cells from `n` on. -/
def Dev.takeCells (w g : Nat) (urgCtl : Bool) : Nat → Nat → Dev → Dev × List TxCell
  | 0, _, d => (d, [])
  | k + 1, n, d =>
    let a := d.takeCell w g n urgCtl
    let b := Dev.takeCells w g urgCtl k (n + 1) a.1
    (b.1, a.2 :: b.2)

/-- Cells have left, or are lost: the packets that end with them free their buffers (R251). -/
def Dev.freeCells (d : Dev) (w : Nat) (l : List TxCell) : Dev := d.freeBufs (l.flatMap fun c => c.bufs) (24 + w)

/-- The next counter value of the slot in use is consumed (R184): WARN and exhaustion (R185, R186). No value comes again: after 2^48 − 1
the counter stands at 2^48, and GCTR shows its low 48 bits. -/
def Dev.consume (d : Dev) (w g : Nat) : Dev × TxSlot × Nat :=
  let k := d.get (F.lfCrytStatSlot w g)
  let sl := (d.cry w g).tx k
  let n := sl.ctr
  let warn := decide (d.get (F.lfCryCfgWarn w) * 2 ^ 32 ≤ n + 1) && !sl.warned
  let d1 := (d.setCry w g fun c => c.setTx k fun x => { x with ctr := n + 1, warned := x.warned || warn }).cryShow w g
  let d2 := d1.when warn fun d => (d.set (F.lfCrytStatWarnstk w g) 1).cryEvent w 2 [R.lfCrytStat w g, R.lfCrytGctrlo w g, R.lfCrytGctrhi w g]
  let d3 := d2.when (n == 2 ^ 48 - 1) fun d => (d.set (F.lfCrytStatHalt w g) 1).cryEvent w 3 [R.lfCrytStat w g]
  (d3, sl, n)

/-- The mismatches of dual computation in one group (R183): answers whether the group stands. -/
def Dev.mismatch (d : Dev) (w g : Nat) (m : Nat) : Dev × Bool :=
  let d1 := d.when (decide (1 ≤ m)) fun d => (d.count (F.lfCrytStatRecomp w g) 1).cryEvent w 4 [R.lfCrytStat w g]
  (d1, decide (m < 2))

/-- Cells sealed as one group, with its mismatches: consumed, then held for sending, or lost with the stream halted (R183). -/
def Dev.sealCells (d : Dev) (w g : Nat) (urg : Bool) (cells : List TxCell) (m : Nat) : Dev × Option TxGroup :=
  let k := d.get (F.lfCrytStatSlot w g)
  let a := d.consume w g
  let b := a.1.mismatch w g m
  if b.2 then (b.1, some ⟨a.2.1.key, a.2.1.salt, k, a.2.2, urg, cells, 0, []⟩)
  else (((b.1.set (F.lfCrytStatHalt w g) 2).cryEvent w 5 [R.lfCrytStat w g, R.lfCryrStat w g]).freeCells w cells, none)

/-- The cells of a stream that are sealed and not sent yet, tags included. -/
def Grp.ahead (x : Grp) : Nat := ((x.urgent ++ x.groups).map fun q => q.cells.length + 1 - q.sent).sum

/-- SEAL_GROUP on a continuous stream (R178, R180, R183): 31 cells. -/
def Dev.sealNext (d : Dev) (w g m : Nat) : Dev :=
  if !d.sealing w g then d
  else
    let x := d.grp w g
    let a := Dev.takeCells w g (d.flag (F.lfCryCfgUrgctl w)) 31 (x.txN + x.ahead) d
    match a.1.sealCells w g false a.2 m with
    | (d1, some q) => d1.setGrp w g fun x => { x with groups := x.groups ++ [q] }
    | (d1, none) => d1

def execSealGroup (w : Fin 2) (g : Fin 32) (mismatches : Nat) (s : State) : Host.Outcome State Fault Refusal :=
  s.run fun _ d => d.when (!(d.wave w).leaf) fun d => d.sealNext w g mismatches

/-- URGENT_PAIR (R182): a waiting control message sealed alone with the stream's next counter. -/
def execUrgentPair (w : Fin 2) (g : Fin 32) (mismatches : Nat) (s : State) : Host.Outcome State Fault Refusal :=
  s.run fun _ d =>
    if !d.sealing w g || !d.carriesCtrl w g || !d.flag (F.lfCryCfgUrgctl w) || (d.wave w).gap then d
    else match (d.wave w).ctrlQ with
      | [] => d
      | m :: t =>
        let d0 := d.setWave w fun v => { v with ctrlQ := t }
        match d0.sealCells w g true [ctrlCell 0xFFFFF 6 m] mismatches with
        | (d1, some q) => d1.setGrp w g fun x => { x with urgent := x.urgent ++ [q] }
        | (d1, none) => d1

/-- The plaintext of a group: its cells' payloads in order (R178). -/
def TxGroup.plain (q : TxGroup) : List Byte := q.cells.flatMap fun c => fitBytes 248 c.data

/-- The next cell of a sealed group under SEQ `n`, with the group after it: a cell with its ciphertext in place, or the
TAG over the headers as sent (R177, R178). -/
def TxGroup.emit (q : TxGroup) (stream n : Nat) : List Byte × Option TxGroup :=
  let iv := gcmIv q.salt stream q.gctr
  match q.cells[q.sent]? with
  | some c =>
    let cell := buildCell c.flow c.type n c.len (((gcmSeal q.key iv [] q.plain).1.drop (248 * q.sent)).take 248)
    (cell, some { q with sent := q.sent + 1, hdrs := q.hdrs ++ cell.take 8 })
  | none =>
    let pre := tagPrefix q.gctr q.slot q.urg q.cells.length
    (buildCell 0 7 n 24 (pre ++ (gcmSeal q.key iv (q.hdrs ++ pre) q.plain).2), none)

/-- A sealed group whose first cell goes out now is sealed under the slot in use: one sealed ahead of a key switch, or of a load, is
sealed anew under the key it now takes, with that slot's next counter (R185, R188). -/
def Dev.refresh (d : Dev) (w g : Nat) (q : TxGroup) : Dev × Option TxGroup :=
  let s := d.slotInUse w g
  if q.sent ≠ 0 ∨ (q.slot = d.get (F.lfCrytStatSlot w g) ∧ q.key = s.key ∧ q.salt = s.salt) then (d, some q)
  else d.sealCells w g q.urg q.cells 0

/-! ### Subcarrier injectors (R431, R433) -/

/-- A cell at a subcarrier's injection point, with its group and index. -/
def cellUnit (g n : Nat) (uncorr : Bool) (c : List Byte) : FiUnit := { pkt := { src := g, bytes := c }, a := g, b := n, flag := uncorr }

/-- A cell through a subcarrier's injector in a direction. -/
def Dev.cellInject (d : Dev) (w sc dir : Nat) (u : FiUnit) (next : Dev → FiUnit → Dev) : Dev :=
  d.through (96 + 32 * w + sc) dir ((cellHdr u.pkt.bytes).type == 0) u next

/-- The cells of one subcarrier's burst after its injector: a boundary whose cell is dropped carries the next, and idle cells fill the
last ones; what finds no room goes in the next burst (R433; the model's choice, log 66). -/
def Dev.burstInject (d : Dev) (w sc : Nat) (cells : List (List Byte)) : Dev × List (List Byte) :=
  let r := cells.foldl (fun (a : Dev × List FiUnit) c =>
    let r := a.1.fiPass (96 + 32 * w + sc) 1 ((cellHdr c).type == 0) (cellUnit 0 0 false c)
    (r.1, a.2 ++ r.2)) (d, (d.sc w sc).txOut)
  let k := cells.length
  (r.1.setSc w sc fun x => { x with txOut := r.2.drop k },
   (r.2.take k).map (fun u => u.pkt.bytes) ++ (List.range (k - r.2.length)).map fun i => buildCell 0 0 (r.2.length + i) 0 [])

/-- What an engine sends reaches the line: the serving engine is not at null (R84, R87, R207). -/
def Dev.onLine (d : Dev) (w : Nat) : Bool :=
  match d.serving w with
  | some e => !d.atNull w e
  | none => false

/-- A sparing gap passes no cells of a direction (R207, R435): received ones from its start to its end, sent ones until the new engine
sends. -/
def Dev.cellsCut (d : Dev) (w dir : Nat) : Bool := (d.wave w).gap || (dir == 1 && (d.wave w).txCut)

/-- Cell `n` of a group leaves the framer: through its subcarrier's injector to wait for its boundary, or lost in a sparing gap. -/
def Dev.sendCell (d : Dev) (w g n : Nat) (c : List Byte) : Dev :=
  let d1 := d.setGrp w g fun x => { x with txN := n + 1 }
  let sc := memberOf (d.grp w g).txMask n
  d1.when (!d1.cellsCut w 1) fun d => d.cellInject w sc 1 (cellUnit g n false c) fun d u =>
    d.setSc w sc fun x => { x with txOut := x.txOut ++ [u] }

/-- A cell boundary of a subcarrier: the cell that waits for it goes to the line, or nowhere where the output is at null (R84, R87). -/
def Dev.cellOut (d : Dev) (w sc : Nat) : Dev :=
  match (d.sc w sc).txOut with
  | [] => d
  | u :: t => (d.setSc w sc fun x => { x with txOut := t }).when (d.onLine w) fun d => d.emit (.lineCell w u.a u.b u.pkt.bytes)

/-- The next cell of a sealed stream: of an urgent pair, of the group in hand or a new one, an unsealed idle cell where the stream is
halted (R182, R185). -/
def Dev.sealedCell (d : Dev) (w g n : Nat) : Dev :=
  let sn := d.streamNo w g true
  let d0 := if (d.grp w g).urgent.isEmpty && (d.grp w g).groups.isEmpty then d.sealNext w g 0 else d
  let idle (d : Dev) : Dev := d.sendCell w g n (buildCell 0 0 n 0 [])
  if d0.get (F.lfCrytStatHalt w g) ≠ 0 then idle d0
  else match (d0.grp w g).urgent, (d0.grp w g).groups with
    | q :: t, _ => match d0.refresh w g q with
      | (d1, some q) => let r := q.emit sn n; (d1.setGrp w g fun x => { x with urgent := r.2.toList ++ t }).sendCell w g n r.1
      | (d1, none) => idle d1
    | [], q :: t => match d0.refresh w g q with
      | (d1, some q) =>
        let r := q.emit sn n
        ((d1.setGrp w g fun x => { x with groups := r.2.toList ++ t }).sendCell w g n r.1).freeCells w q.cells[q.sent]?.toList
      | (d1, none) => idle d1
    | [], [] => idle d0

/-- The next cell of a continuous stream is built and leaves the framer; a packet's buffers are freed with its last cell (R119, R251). -/
def Dev.nextCell (d : Dev) (w g : Nat) : Dev :=
  let n := (d.grp w g).txN
  if (d.grp w g).encTx then d.sealedCell w g n
  else
    let a := d.takeCell w g n false
    (a.1.sendCell w g n (buildCell a.2.flow a.2.type n a.2.len a.2.data)).freeCells w [a.2]

/-- A cell boundary of a group: a cell that already waits for it, or the next one built; where the injector takes that, the one after it
(R433), as long as the model's bound lasts (log 66). -/
def Dev.cellBoundary (w g : Nat) : Nat → Dev → Dev
  | 0, d => d
  | k + 1, d =>
    let sc := memberOf (d.grp w g).txMask (d.grp w g).txN
    if !(d.sc w sc).txOut.isEmpty then d.cellOut w sc
    else
      let d1 := d.nextCell w g
      if d1.cellsCut w 1 then d1 else if (d1.sc w sc).txOut.isEmpty then Dev.cellBoundary w g k d1 else d1.cellOut w sc

/-- CELL_TX (R119, R182, R185, R207, R251, R433): one cell boundary of a continuous stream; in a sparing gap a cell is built and not sent. -/
def execCellTx (w : Fin 2) (g : Fin 32) (s : State) : Host.Outcome State Fault Refusal := s.run fun _ d =>
  if (d.wave w).leaf || (d.grp w g).txMask == 0 || !d.released (6 + w) || (!(d.wave w).gap && !d.lineOk w) then d
  else Dev.cellBoundary w g 256 d

/-- The places of the first FEC block and of the first cell that begin in a line frame, after `bits` payload line bits of a subcarrier
since the stream's start, and the number of cells begun before it (R106, R108, R113). -/
def txPointers (bits : Nat) : Nat × Nat × Nat :=
  let nb := (bits + 16383) / 16384
  (nb * 16384 - bits, unsignedOf 11 (-((nb * 14196 : Nat) : Int)), (nb * 14196 + 2047) / 2048)

/-- The header a transmitted line frame of a subcarrier carries (R106, R108, R190). A subcarrier's stream begins with a FEC block, a cell
and the member's first group cell at the framer's release, and a subcarrier in no group says group 0 of size 1 (the model's choice, log
77). -/
def Dev.txHeader (d : Dev) (w sc : Nat) : Header :=
  let v := d.wave w
  let p := txPointers (d.sc w sc).txBits
  let g := (d.txGroupOf w sc).getD 0
  let m := if (d.txGroupOf w sc).isSome then (d.grp w g).txMask else 2 ^ sc
  let enc := (d.txGroupOf w sc).isSome && (d.grp w g).encTx
  let halt := d.get (F.lfCrytStatHalt w g)
  let rdi := (maskBits 32 v.decode).any fun k => !d.aligned w k
  ⟨1, 0, enc, if enc then (if halt = 3 then 0 else d.get (F.lfCrytStatSlot w g)) else 0, enc && halt != 0, rdi, v.txFnum, v.txSfn,
   v.code 1 sc, g, (maskBits 32 (m % 2 ^ sc)).length, (maskBits 32 m).length, p.1, p.2.1,
   ((maskBits 32 (m % 2 ^ sc)).length + (maskBits 32 m).length * p.2.2) % 2 ^ 16⟩

/-! ### Received headers and modes (R108, R193) -/

/-- The conformity of a frame's ENC and KEX with the stream of its subcarrier's group: CRY_MODE at the first frame of the subcarrier
that does not conform after one that does (log 80). -/
def Dev.headerMode (d : Dev) (w sc : Nat) (enc kex : Bool) : Dev :=
  let gs := (d.rxGroup w sc).toList
  let ok := gs.all fun g => enc == d.encRx w g
  (d.setSc w sc fun x => { x with encOk := ok, kex := kex, conf := ok && !kex }).when ((d.sc w sc).conf && !(ok && !kex)) fun d =>
    d.each gs fun d g => d.cryEvent w 7 [R.lfCryrStat w g]

/-- The header bits read from the LLRs of both polarisation copies as the serving engine delivers them: the copies are added, a sum of
zero or more is 0; none where every sum is zero (R57, R107). -/
def Dev.headerRead (d : Dev) (w sc : Nat) (llrs : List (Int × Int)) : Option Nat :=
  match d.serving w with
  | none => none
  | some e =>
    let sums := (List.range 256).map fun i => let p := llrs.getD i (0, 0); d.llr w e sc p.1 + d.llr w e sc p.2
    if sums.all (· == 0) then none else some (ofBits (sums.map fun x => decide (x < 0)))

/-- A header that is good (R108, R133, R142, R166, R193). -/
def Dev.takeHeader (d : Dev) (w sc : Nat) (h : Header) : Dev :=
  let d1 := (d.goodHeader w sc h).1
  let d2 := ((d1.rdiRx w sc h.rdi).rollback w sc h.sfn h.prof).headerMode w sc h.enc h.kex
  (d2.beaconLocked w sc).predictNext w sc

/-- FRAME_HEADER_RX (R107, R108): the LLRs of the two polarisation copies of the 256 header bits, the first sent first. The model's
choice (log 80): ENC and KEX of a frame whose header is not good are those of the subcarrier's last good header. -/
def execFrameHeaderRx (w : Fin 2) (sc : Fin 32) (llrs : List (Int × Int)) (s : State) :
    Host.Outcome State Fault Refusal := s.run fun _ d =>
  if !d.aligned w sc || (d.wave w).gap then d
  else
    let d := d.catchHeaders w sc
    match d.headerRead w sc llrs with
    | none => d.predictNext w sc
    | some b =>
      if !headerCrcOk b then (d.badHeader w sc true).predictNext w sc
      else if (parseHeader b).hver ≠ 1 then (d.badHeader w sc false).predictNext w sc
      else d.takeHeader w sc (parseHeader b)

/-! ### Keys (R187, R188) -/

/-- The checks of KCMD.GO (R187): an error code, 0 for none. -/
def Dev.kcmdCheck (d : Dev) (w : Nat) (v : Word) : Nat :=
  if (F.lfCryKcmdGo w).of v = 0 then 0
  else
    let g := (F.lfCryKcmdGid w).of v
    let rx := (F.lfCryKcmdDir w).of v != 0
    let k := (F.lfCryKcmdSlot w).of v
    let used := if rx then d.encRx w g && d.get (F.lfGrpMembMask w g) != 0 else (d.grp w g).encTx && (d.grp w g).txMask != 0
    if 1 < (F.lfCryKcmdOp w).of v then 9
    else if d.flag (F.lfCryKstatBusy w) || !used then 0xA
    else if !rx && k == d.get (F.lfCrytStatSlot w g) && d.get (F.lfCrytStatHalt w g) == 0 then 0xA else 0

/-- A key loaded from the staging registers (R184, R185, R187). -/
def Dev.keyLoad (d : Dev) (w g : Nat) (rx : Bool) (k : Nat) : Dev :=
  let key := (List.range 8).flatMap fun i => beBytes 4 (d.get (F.lfCryKeywKeyw w i))
  let salt := d.get (F.lfCrySaltSalt w)
  let halt := d.get (F.lfCrytStatHalt w g)
  let d1 := if rx then d.setCry w g fun c => c.setRx k fun _ => ⟨key, salt, true, none, []⟩
    else d.setCry w g fun c =>
      let c1 := c.setTx k fun _ => ⟨key, salt, true, 0, false⟩
      if halt = 1 then { c1 with resume := some (k, true) }
      else if halt = 3 ∧ k = d.get (F.lfCrytStatSlot w g) then { c1 with resume := some (k, true) }
      else if halt = 2 ∧ c.resume.map (·.1) = some k then { c1 with resume := some (k, true) }
      else c1
  ((d1.each (List.range 8) fun d i => d.set (F.lfCryKeywKeyw w i) 0).set (F.lfCrySaltSalt w) 0).cryShow w g

/-- A slot erased (R185, R187). -/
def Dev.keyErase (d : Dev) (w g : Nat) (rx : Bool) (k : Nat) : Dev :=
  if rx then (d.setCry w g fun c => c.setRx k fun _ => {}).cryShow w g
  else
    let d1 := (d.setCry w g fun c =>
      { c.setTx k (fun _ => {}) with resume := if c.resume.map (·.1) = some k then none else c.resume }).cryShow w g
    d1.when (k == d.get (F.lfCrytStatSlot w g)) fun d => d.set (F.lfCrytStatHalt w g) 3

/-- What GO in KCMD does. -/
def Dev.kcmdGo (d : Dev) (w : Nat) (v : Word) : Dev :=
  if (F.lfCryKcmdGo w).of v = 0 then d
  else
    let g := (F.lfCryKcmdGid w).of v
    let rx := (F.lfCryKcmdDir w).of v != 0
    let k := (F.lfCryKcmdSlot w).of v
    if (F.lfCryKcmdOp w).of v = 0 then d.keyLoad w g rx k else d.keyErase w g rx k

/-- CLRFLT (R183, R185): a halted transmit stream resumes at the next boundary, or is halted for want of a key or of a counter value; a
receive stream delivers again, with the cells collected since its fault. -/
def Dev.clrFltTx (d : Dev) (w g : Nat) : Dev :=
  d.when (d.get (F.lfCrytStatHalt w g) == 2) fun d =>
    let k := d.get (F.lfCrytStatSlot w g)
    if !(d.slotInUse w g).loaded then d.set (F.lfCrytStatHalt w g) 3
    else if (d.slotInUse w g).spent then d.set (F.lfCrytStatHalt w g) 1
    else d.setCry w g fun c => { c with resume := some (k, (c.tx k).ctr == 0) }

def Dev.clrFltRx (d : Dev) (w g : Nat) : Dev := d.set (F.lfCryrStatFault w g) 0

/-- HALT_RESUME (R185): the superframe boundary after a halt's cause is removed. -/
def execHaltResume (w : Fin 2) (g : Fin 32) (s : State) : Host.Outcome State Fault Refusal := s.run fun _ d =>
  match (d.cry w g).resume with
  | none => d
  | some (k, fresh) =>
    if d.get (F.lfCrytStatHalt w g) = 0 then d.setCry w g fun c => { c with resume := none }
    else
      let d1 := (((d.setCry w g fun c => { c with resume := none }).set (F.lfCrytStatHalt w g) 0).set (F.lfCrytStatSlot w g) k).cryShow w g
      d1.when fresh fun d => d.cryEvent w 6 [R.lfCrytStat w g]

/-- The RESULT of a KEY_SWITCH (R140, R165, R168, R188). `dir` is this device's direction of the stream that switches,
0 receive and 1 transmit. -/
def Dev.keyResult (d : Dev) (w dir gid kidx esfn : Nat) : Nat :=
  let lead := sfnSub esfn (d.dirSfn w dir)
  if lead < 4 || 1024 < lead then 1
  else if !(if dir = 0 then d.encRx w gid && d.get (F.lfGrpMembMask w gid) != 0 else (d.grp w gid).encTx && (d.grp w gid).txMask != 0) then 4
  else if (match (d.wave w).keyProposal with
    | some p => !(d.wave w).leaf && (d.wave w).master && p.dir == dir && p.gid == gid
    | none => false) then 5
  else if !(if dir = 0 then ((d.cry w gid).rx kidx).loaded else ((d.cry w gid).tx kidx).loaded) then 6
  else 0

/-- The host's key proposal is abandoned (R189), and with it the switch it has pending once acknowledged (R165, R447). -/
def Dev.keyAbandon (d : Dev) (w : Nat) : Dev :=
  let mine (q : KeyPend) : Bool := match (d.wave w).keyProposal with
    | some p => p.acked && p.dir == 1 && q.gid == p.gid && q.esfn == p.esfn
    | none => false
  ((d.setWave w fun v => { v with keyProposal := none, keyPend := v.keyPend.filter fun q => !mine q }).set (F.lfCryKswstatBusy w) 0).set (F.lfCryKswstatResult w) 3

/-- A switch of this end's own transmit stream waits for its superframe, beside those accepted before it (R447). -/
def Dev.pendKey (d : Dev) (w gid kidx esfn : Nat) : Dev := d.setWave w fun v =>
  { v with keyPend := if v.keyPend.contains ⟨1, gid, kidx, esfn⟩ then v.keyPend else v.keyPend ++ [⟨1, gid, kidx, esfn⟩] }

/-- KEY_SWITCH received (R138, R168, R188). A GID above 31, which no group can have, is a field out of range and counts in FLD,
where R139 states no range: DESIGN CHOICE, unsafe (log 70). -/
def Dev.keySwitch (d : Dev) (w tid mseq gid mdir kidx esfn : Nat) : Dev :=
  let leaf := (d.wave w).leaf
  let st := d.get (F.lfActStatState w)
  if 31 < gid || 1 < mdir || 1 < kidx then d.ctlFld w
  else if leaf && (st < 3 || tid != d.get (F.lfActIdTid w) || tid == 0) then d
  else
    let res := d.keyResult w mdir gid kidx esfn
    let d1 := match (d.wave w).keyProposal with
      | some p => if !leaf && !(d.wave w).master && p.dir == mdir && p.gid == gid then d.keyAbandon w else d
      | none => d
    if res ≠ 0 then (d1.count (F.lfCtlErrRef w) 1).sendAck w 5 mseq res esfn
    else
      let d2 := if mdir = 1 then d1.pendKey w gid kidx esfn else d1
      if leaf then d2.sendAck w 5 mseq 0 esfn else d2.ackUntil w 5 mseq esfn mdir

def execKeySwitch (w : Fin 2) (tid : BitVec 12) (mseq : BitVec 16) (gid mdir kidx : Byte) (esfn : Word) (s : State) :
    Host.Outcome State Fault Refusal := s.run fun _ d =>
  d.keySwitch w tid.toNat mseq.toNat gid.toNat mdir.toNat kidx.toNat esfn.toNat

/-- The checks of KSW.GO (R189). -/
def Dev.kswCheck (d : Dev) (w : Nat) (v : Word) : Nat :=
  if (F.lfCryKswGo w).of v = 0 then 0 else if d.flag (F.lfCryKswstatBusy w) || (d.wave w).leaf then 0xA else 0

/-- An accepted GO sends KEY_SWITCH (R189). -/
def Dev.kswGo (d : Dev) (w : Nat) (v : Word) : Dev :=
  if (F.lfCryKswGo w).of v = 0 then d
  else
    let mdir := (F.lfCryKswDir w).of v
    let dir := 1 - mdir
    let gid := (F.lfCryKswGid w).of v
    let kidx := (F.lfCryKswKidx w).of v
    let esfn := (d.dirSfn w dir + (F.lfCryKswLead w).of v) % 2 ^ 32
    let seq := (d.wave w).mseq
    ((d.sendCtrl w 5 (beBytes 1 gid ++ beBytes 1 mdir ++ beBytes 1 kidx ++ beBytes 4 esfn)).set (F.lfCryKswstatBusy w) 1).setWave w
      fun x => { x with keyProposal := some ⟨dir, gid, kidx, esfn, seq, false⟩ }

/-- An ACK for the host's key proposal (R189, R196). -/
def Dev.ackKey (d : Dev) (w amseq result : Nat) : Dev :=
  let d1 := (d.set (F.lfCryKswstatRcode w) result).when (result != 0) fun d => d.count (F.lfCtlErrRef w) 1
  match (d.wave w).keyProposal with
  | some p =>
    if p.mseq ≠ amseq then d1
    else if result = 0 then
      let d2 := d1.setWave w fun v => { v with keyProposal := some { p with acked := true } }
      if p.dir = 1 && !p.acked then d2.pendKey w p.gid p.kidx p.esfn else d2
    else ((d1.setWave w fun v => { v with keyProposal := none }).set (F.lfCryKswstatBusy w) 0).set (F.lfCryKswstatResult w) 2
  | none => d1

/-- ACK received (R138, R140, R141, R164, R189). -/
def Dev.ack (d : Dev) (w amtype amseq result : Nat) : Dev :=
  if 6 < result then d.ctlFld w
  else if (d.wave w).leaf then d
  else if amtype = 4 then d.ackProfile w amseq result
  else if amtype = 5 then d.ackKey w amseq result
  else d

def execAck (w : Fin 2) (amtype : Byte) (amseq : BitVec 16) (result : Byte) (_esfn : Word) (s : State) :
    Host.Outcome State Fault Refusal := s.run fun _ d => d.ack w amtype.toNat amseq.toNat result.toNat

/-- One pending switch takes effect: the stream uses the other slot with its own counter (R188); a slot without a key or without a
counter value halts it, and a halted stream resumes on it (R184, R185). -/
def Dev.applyKey (d : Dev) (w : Nat) (p : KeyPend) : Dev :=
  let d1 := (d.set (F.lfCrytStatSlot w p.gid) p.kidx).cryShow w p.gid
  let slot := (d.cry w p.gid).tx p.kidx
  let halt := d.get (F.lfCrytStatHalt w p.gid)
  let waits := (d.cry w p.gid).resume.isSome || halt == 3
  let stop (n : Nat) : Dev := (d1.set (F.lfCrytStatHalt w p.gid) n).setCry w p.gid fun c => { c with resume := none }
  let d2 := if !slot.loaded then stop 3
    else if slot.spent then (stop 1).cryEvent w 3 [R.lfCrytStat w p.gid]
    else d1.when (halt != 0 && waits) fun d => d.setCry w p.gid fun c => { c with resume := some (p.kidx, false) }
  d2.cryEvent w 6 [R.lfCrytStat w p.gid]

/-- KEY_SWITCH_APPLY (R188, R189, R447): the boundary of superframe `sfn` in a direction, 0 receive and 1 transmit. This end's own
streams switch at transmit boundaries; a proposal of that direction not answered is abandoned. -/
def execKeySwitchApply (w : Fin 2) (dir : Fin 2) (sfn : Word) (s : State) : Host.Outcome State Fault Refusal := s.run fun _ d =>
  let n := sfn.toNat
  let due := (d.wave w).keyPend.filter fun p => p.dir == dir.val && sfnGe n p.esfn
  let d1 := (d.setWave w fun v => { v with keyPend := v.keyPend.filter fun p => !due.contains p }).each due fun d p => d.applyKey w p
  match (d1.wave w).keyProposal with
  | some p =>
    if p.dir ≠ dir.val || !sfnGe n p.esfn then d1
    else if p.acked then
      ((d1.setWave w fun v => { v with keyProposal := none }).set (F.lfCryKswstatBusy w) 0).set (F.lfCryKswstatResult w) 1
    else d1.keyAbandon w
  | none => d1

/-! ### Received control messages (R137, R139, R141) -/

/-- One grant of a GRANT_MAP body. -/
def parseGrant (x : Nat) : GrantIn :=
  ⟨x / 2 ^ 36 % 2 ^ 12, x / 2 ^ 31 % 32, x / 2 ^ 21 % 1024, x / 2 ^ 11 % 1024, x.testBit 10, x.testBit 9⟩

/-- The payload bytes in use of a CTRL cell addressed to `tid`, as a message (R137 to R141). Two DESIGN CHOICES, unsafe
(log 70): a message addressed otherwise than the table of R138 says is judged by its type (DISCOVER, ASSIGN_ID, TIME_OF_DAY and
GRANT_MAP to the terminal's own TID act, RANGE and RELEASE to 0xFFF are ignored), and the upstream types 0x41 to 0x44 received in
leaf mode are ignored without a count. -/
def Dev.ctrlMessage (fz : Fuses) (d : Dev) (w tid : Nat) (p : List Byte) : Dev :=
  let n := p.length
  if n < 6 then d.ctlFld w
  else if crc16 (bitsOfBytes (p.take (n - 2))) ≠ beAt p (n - 2) 2 then (d.count (F.lfCtlErrMcrc w) 1).sfEvent w 10 [R.lfCtlErr w]
  else
    let ty := beAt p 0 1
    let mseq := beAt p 2 2
    let b (o k : Nat) : Nat := beAt p (4 + o) k
    let need (len : Nat) (f : Dev → Dev) : Dev := if n = len then f d else d.ctlFld w
    let notHere (d : Dev) : Dev := if (d.wave w).leaf then d else d.ctlFld w
    if ty = 1 then need 13 fun d => d.discover w (b 0 3) (b 3 2) (b 5 1) (b 6 1)
    else if ty = 2 then need 16 fun d => if tid = 0xFFF && (d.wave w).leaf then d else d.range w (b 0 3) (b 3 3) (b 6 4)
    else if ty = 3 then need 16 fun d => d.assignId fz w (b 0 8) (b 8 2)
    else if ty = 4 then need 48 fun d => d.profileChange w tid mseq (b 0 4) (b 4 1) (b 5 1) (b 6 4) ((List.range 32).map fun k => b (10 + k) 1)
    else if ty = 5 then need 13 fun d => d.keySwitch w tid mseq (b 0 1) (b 1 1) (b 2 1) (b 3 4)
    else if ty = 6 then need 22 fun d => d.timeOfDayRx w (b 0 4) (b 4 6) (b 10 4) (b 14 2)
    else if ty = 7 then need 8 fun d => d.silence w tid (b 0 2)
    else if ty = 8 then need 7 fun d => if tid = 0xFFF && (d.wave w).leaf then d else d.release w (b 0 1)
    else if ty = 9 then
      let ngr := b 4 1
      if ngr = 0 || 39 < ngr || n != 11 + 6 * ngr || (List.range ngr).any (fun i => b (5 + 6 * i) 6 % 512 != 0) then d.ctlFld w
      else d.grantMap w (b 0 4) ((List.range ngr).map fun i => parseGrant (b (5 + 6 * i) 6))
    else if ty = 0x44 then need 14 fun d => d.ack w (b 0 1) (b 1 2) (b 3 1)
    else if ty = 0x41 then need 16 notHere
    else if ty = 0x42 then need 13 notHere
    else if ty = 0x43 then
      (if 16 < b 4 1 || n != 11 + 8 * b 4 1 || (List.range (b 4 1)).any (fun i => b (6 + 8 * i) 1 != 0) then d.ctlFld w else notHere d)
    else (d.count (F.lfCtlErrUnk w) 1).sfEvent w 10 [R.lfCtlErr w]

/-- A CTRL cell of a receive group: only the control channel's group carries messages, and only those for this
terminal or for all are taken (R135, R136). -/
def Dev.ctrlRx (fz : Fuses) (d : Dev) (w g : Nat) (h : CellHdr) (payload : List Byte) : Dev :=
  let part := payload.take h.len
  if (d.wave w).leaf then
    let tid := h.flow - 0xFF000
    if g ≠ 31 || h.flow < 0xFF000 || !(tid = 0xFFF || (tid = d.get (F.lfActIdTid w) && tid ≠ 0)) then d
    else d.ctrlMessage fz w tid part
  else if !(d.get (F.lfGrpMembMask w g)).testBit 0 || h.flow ≠ 0xFFFFF then d
  else d.ctrlMessage fz w 0xFFF part

/-! ### Received cells (R122, R124, R191 to R193) -/

/-- A clear cell, or a verified one: idle counted, control to its message, data to reassembly. -/
def Dev.deliverCell (fz : Fuses) (d : Dev) (w g : Nat) (h : CellHdr) (payload : List Byte) : Dev :=
  if h.type = 0 then d.count (F.lfCellIdleIdle w) 1
  else if h.type = 5 ∨ h.type = 6 then d.ctrlRx fz w g h payload
  else d.reassemble w g h payload

/-- A cell that will not reach its group's tag (R191). -/
def Dev.accLose (d : Dev) (w g : Nat) (urg : Bool) : Dev :=
  d.setCry w g fun c => if urg then { c with urgLost := true } else { c with accLost := true }

/-- The packets open on the flows of discarded data cells are discarded (R192). -/
def Dev.dropCells (d : Dev) (w : Nat) (cells : List (List Byte)) : Dev :=
  d.each cells fun d c => let h := cellHdr c; d.when (decide (1 ≤ h.type) && decide (h.type ≤ 4)) fun d => d.dropOpen w h.flow true

/-- The replay check (R191). -/
def RxSlot.replayed (r : RxSlot) (n : Nat) : Bool :=
  match r.top with
  | none => false
  | some t => decide (n + 64 ≤ t) || r.seen.contains n

/-- A verified counter marked in the window. -/
def RxSlot.mark (r : RxSlot) (n : Nat) : RxSlot :=
  let t := match r.top with
    | none => n
    | some t => max t n
  { r with top := some t, seen := (n :: r.seen).filter fun x => decide (t < x + 64) }

/-- A discarded group: its count and event (R191, R192). -/
def Dev.groupBad (d : Dev) (w : Nat) (f : Fld) (ev : Nat) (a : Nat) (cells : List (List Byte)) : Dev :=
  ((d.count f 1).cryEvent w ev [a]).dropCells w cells

/-- A TAG closes an accumulator (R183, R191, R192). -/
def Dev.tagRx (fz : Fuses) (d : Dev) (w g : Nat) (cell : List Byte) (mism : Nat) : Dev :=
  let p := cell.drop 8
  let flags := beAt p 6 1
  let urg := flags.testBit 1
  let k := flags % 2
  let gctr := beAt p 0 6
  let c := d.cry w g
  let cells := if urg then c.urg else c.acc
  let lost := if urg then c.urgLost else c.accLost
  let bad := if urg then c.urgBad else c.accBad
  let d0 := d.setCry w g fun c =>
    if urg then { c with urg := [], urgLost := false, urgBad := false } else { c with acc := [], accLost := false, accBad := false }
  let err := R.lfCryrErr w g
  if d.flag (F.lfCryrStatFault w g) then d0.dropCells w cells
  else if bad then d0
  else if lost then d0.groupBad w (F.lfCryrErrIncomp w g) 1 err cells
  else if beAt p 7 1 ≠ cells.length || (urg && beAt p 7 1 != 1) then d0.groupBad w (F.lfCryrErrFmt w g) 1 err cells
  else if !(c.rx k).loaded then d0.groupBad w (F.lfCryrErrKeymiss w g) 1 err cells
  else if (c.rx k).replayed gctr then d0.groupBad w (F.lfCryrErrReplay w g) 1 err cells
  else
    let m := d0.mismatch w g mism
    if !m.2 then ((m.1.set (F.lfCryrStatFault w g) 1).cryEvent w 5 [R.lfCrytStat w g, R.lfCryrStat w g]).dropCells w cells
    else
      let aad := cells.flatMap (·.take 8) ++ p.take 8
      let r := gcmOpen (c.rx k).key (gcmIv (c.rx k).salt (d.streamNo w g false) gctr) aad (cells.flatMap (·.drop 8))
      if r.2 ≠ bytesAt p 8 16 then m.1.groupBad w (F.lfCryrTagfailTagfail w g) 0 (R.lfCryrTagfail w g) cells
      else
        let d1 := (m.1.setCry w g fun c => c.setRx k fun s => s.mark gctr).set (F.lfCryrStatLastslot w g) k
        d1.each (cells.zipIdx) fun d ci => d.deliverCell fz w g (cellHdr ci.1) (bytesAt r.1 (248 * ci.2) 248)

/-- A cell of a sealed stream collected (R191, R192): the 32nd without a TAG makes its group malformed, or incomplete where a cell was
lost before; a faulted stream counts neither (R196). What follows up to the TAG is discarded with the group. An urgent pair
is one cell and its TAG (R182), so a cell lost before its first is none of its own. -/
def Dev.collect (d : Dev) (w g : Nat) (urg : Bool) (cell : List Byte) : Dev :=
  let c := d.cry w g
  let cells := if urg then c.urg else c.acc
  if (if urg then c.urgBad else c.accBad) then d.dropCells w [cell]
  else if cells.length < 31 then
    d.setCry w g fun c => if urg then { c with urg := c.urg ++ [cell], urgLost := c.urgLost && !c.urg.isEmpty } else { c with acc := c.acc ++ [cell] }
  else
    let d1 := d.setCry w g fun c => if urg then { c with urg := [], urgBad := true } else { c with acc := [], accBad := true }
    let lost := if urg then c.urgLost else c.accLost
    if d.flag (F.lfCryrStatFault w g) then d1.dropCells w (cells ++ [cell])
    else d1.groupBad w (if lost then F.lfCryrErrIncomp w g else F.lfCryrErrFmt w g) 1 (R.lfCryrErr w g) (cells ++ [cell])

/-- Cell `k` of those that begin in the frame in progress of a subcarrier, counted from CPTR, has this group cell index (R106, R124). -/
def Dev.cellIndex (d : Dev) (w g sc k : Nat) : Nat := ((d.sc w sc).curG + max 1 (d.get (F.lfGrpStatSize w g)) * k) % 2 ^ 16

/-- The place of a subcarrier among the members of a receive group (R123). -/
def Dev.memberIndex (d : Dev) (w g sc : Nat) : Nat := (maskBits 32 (d.get (F.lfGrpMembMask w g) % 2 ^ sc)).length

/-- A cell delivered at the place of a slot (R122, R124, R191, R193). The model's choices (log 70): of several faults of one cell the
first in this order counts: uncorrectable block, HEC, SEQ, type or LEN; and the TYPE bits of a cell lost in an uncorrectable block or by
its HEC say, damaged as they may be, which accumulator it is lost to. -/
def Dev.cellRx (fz : Fuses) (d : Dev) (w g : Nat) (x : RxCell) (uncorr : Bool) (cell : List Byte) : Dev :=
  let h := cellHdr cell
  let enc := d.encRx w g
  if !x.encOk || (x.kex && h.type != 0) then d.count (F.lfCryrStatModecnt w g) 1
  else if uncorr then ((d.count (F.lfCellLostLost w) 1).dropOpen w h.flow true).accLose w g (h.type == 6)
  else if !cellHecOk cell then
    (((d.count (F.lfCellErrHec w) 1).lfEvent w 6 [R.lfCellErr w]).dropOpen w h.flow true).accLose w g (h.type == 6)
  else if h.seq ≠ x.n % 256 then d.fmtFault w
  else if h.type = 7 && !enc then d.fmtFault w
  else if !cellLenOk h then ((d.fmtFault w).dropOpen w h.flow true).accLose w g (h.type == 6)
  else if !enc || x.kex then d.deliverCell fz w g h (cell.drop 8)
  else if h.type = 7 then d.tagRx fz w g cell x.mism
  else d.collect w g (h.type == 6) cell

/-- A slot in its turn: its units are received at its place; after a gap's mark the groups being collected are incomplete (R191). -/
def Dev.takeTurn (fz : Fuses) (d : Dev) (w g : Nat) (x : RxCell) : Dev :=
  if x.cut then d.cryCut w g
  else (d.setGrp w g fun y => { y with delivered := true, next := some (x.frame, (x.n + 1) % 2 ^ 16) }).each x.units fun d u =>
    d.cellRx fz w g x u.1 u.2

/-! ### Deskew (R124, R125) -/

/-- `a` is before `b` in the serial order of numbers modulo `m`. -/
def serialLt (m a b : Nat) : Bool := a != b && decide ((b + m - a % m) % m < m / 2)

/-- A place in a group, line frame and n, before another. -/
def placeLt (a b : Nat × Nat) : Bool := if a.1 = b.1 then serialLt (2 ^ 16) a.2 b.2 else serialLt (2 ^ 35) a.1 b.1

def RxCell.place (x : RxCell) : Nat × Nat := (x.frame, x.n)

/-- A slot joins those that wait, in the order of n. -/
def holdSlot (x : RxCell) : List RxCell → List RxCell
  | [] => [x]
  | y :: t => if placeLt x.place y.place then x :: y :: t else y :: holdSlot x t

/-- Every member of a group has a cell that waits: none can come that goes before the first of them. -/
def Dev.allHeld (d : Dev) (w g : Nat) : Bool :=
  (maskBits 32 (d.get (F.lfGrpMembMask w g))).all fun k => (d.grp w g).held.any fun x => x.sc == k && !x.cut

/-- Delivery starts with the first n that is a multiple of G once every member has a cell that waits: the start of the latest of their
first cells' rounds (R125). The cells before it are missing. -/
def Dev.startGroup (d : Dev) (w g : Nat) : Dev :=
  if (d.grp w g).next.isSome || !d.allHeld w g then d
  else
    let firsts := (maskBits 32 (d.get (F.lfGrpMembMask w g))).filterMap fun k => (d.grp w g).held.find? fun x => x.sc == k && !x.cut
    let at_ (x : RxCell) : Nat × Nat := (x.frame, (x.n + 2 ^ 16 - d.memberIndex w g x.sc) % 2 ^ 16)
    match firsts with
    | [] => d
    | x :: t =>
      let p := t.foldl (fun p y => if placeLt p (at_ y) then at_ y else p) (at_ x)
      let early := (d.grp w g).held.filter fun y => placeLt y.place p && !y.cut
      ((d.missingCells w g early.length).when (!early.isEmpty) fun d => d.cryCut w g).setGrp w g fun y =>
        { y with next := some p, held := y.held.filter fun z => !placeLt z.place p }

/-- The first slot that waits may be delivered: it is the next in order, or none can come before it, or a gap has begun after it. -/
def Dev.slotReady (d : Dev) (w g : Nat) (x : RxCell) : Bool :=
  (d.grp w g).next.map (·.2) == some x.n || d.allHeld w g || (d.grp w g).held.any (·.cut)

/-- Slots delivered in the order of n, at most `k`. -/
def Dev.deskew (fz : Fuses) (w g : Nat) : Nat → Dev → Dev
  | 0, d => d
  | k + 1, d => match (d.grp w g).held with
    | [] => d
    | x :: t =>
      if (d.grp w g).next.isNone || !d.slotReady w g x then d
      else Dev.deskew fz w g k ((d.setGrp w g fun y => { y with held := t }).takeTurn fz w g x)

/-- A slot arrives in a group that delivers: it waits for its turn, and what its coming lets go is delivered; one whose turn has passed is
missing (R124). -/
def Dev.slotArrive (fz : Fuses) (d : Dev) (w g : Nat) (x : RxCell) : Dev :=
  if (d.grp w g).next.any fun p => placeLt x.place p then (d.missingCells w g 1).cryCut w g
  else
    let d1 := (d.setGrp w g fun y => { y with held := holdSlot x y.held }).startGroup w g
    Dev.deskew fz w g (d1.grp w g).held.length d1

/-- A cell behind the FEC decoder: through its subcarrier's injector, then in its turn received at the place it has there (R124, R431,
R434, R435); the cords its traffic needs are released (R14). In a sparing gap, and in a group that does not deliver, it is missing
(R125, R126). -/
def Dev.cellArrive (fz : Fuses) (d : Dev) (w sc k : Nat) (uncorr : Bool) (cell : List Byte) (mism : Nat) : Dev :=
  match d.rxGroup w sc with
  | none => d
  | some g =>
    let miss (d : Dev) : Dev := (d.missingCells w g 1).cryCut w g
    let n := d.cellIndex w g sc k
    if (d.wave w).gap then miss (Dev.deskew fz w g (d.grp w g).held.length d)
    else d.when (d.lineOk w) fun d =>
      let r := d.fiPass (96 + 32 * w + sc) 0 ((cellHdr cell).type == 0) (cellUnit g n uncorr cell)
      if r.1.get (F.lfGrpStatState w g) ≠ 2 then miss r.1
      else r.1.slotArrive fz w g
        { n := n, frame := (d.sc w sc).frameNo, sc := sc, encOk := (d.sc w sc).encOk, kex := (d.sc w sc).kex, mism := mism
          units := r.2.map fun u => (u.flag, u.pkt.bytes) }

/-- CELL_RX (R122, R124): cell `k` of those that begin in the frame in progress of a subcarrier, and whether it lies in an
uncorrectable block. -/
def execCellRx (w : Fin 2) (sc : Fin 32) (k : Nat) (uncorr : Bool) (cell : List Byte) (s : State) :
    Host.Outcome State Fault Refusal := s.run fun fz d => d.cellArrive fz w sc k uncorr (fitBytes 256 cell) 0

/-- TAG_RX (R183, R191): a received TAG cell, with the mismatches of the dual computation over its group. -/
def execTagRx (w : Fin 2) (sc : Fin 32) (k : Nat) (cell : List Byte) (mismatches : Nat) (s : State) :
    Host.Outcome State Fault Refusal := s.run fun fz d =>
  let c := fitBytes 256 cell
  d.when ((cellHdr c).type == 7) fun d => d.cellArrive fz w sc k false c mismatches

/-! ### Bursts (R144, R153 to R160, R175, R180) -/

/-- FEC blocks and cells of a burst of `len` slots under a profile code (R157). -/
def burstShape (len code : Nat) : Nat × Nat :=
  let p := (len - 1) * 1000
  let nblk := (p - p / 64) / 8 * (32 + 2 * (code - 1)) / 16384
  (nblk, nblk * 14196 / 2048)

/-- The burst header of 176 bits (R156). -/
def burstHeader (tid bseq prof : Nat) (srf rng : Bool) (nblk : Nat) : Nat :=
  let b (c : Bool) : Nat := if c then 1 else 0
  let body := tid * 2 ^ 148 + bseq * 2 ^ 140 + prof * 2 ^ 132 + b srf * 2 ^ 131 + b rng * 2 ^ 130 + nblk * 2 ^ 120
  body * 2 ^ 16 + crc16 (bitsOf 160 body)

/-- The STATUS message body (R139, R161). -/
def Dev.statusBody (d : Dev) (w : Nat) : List Byte :=
  let es := (List.range 16).filter fun i => d.flag (F.lfStsQgEn w i)
  let rec1 (i : Nat) : SampRec := (d.sampler (8192 + d.get (F.lfStsQgQg w i))).last
  let ssfn := es.foldl (fun m i => let r := rec1 i; if decide (m.1 ≤ r.at_) then (r.at_, if w = 0 then r.sfnA else r.sfnB) else m) (0, 0)
  beBytes 4 ssfn.2 ++ beBytes 1 es.length ++ es.flatMap fun i =>
    beBytes 1 (d.get (F.lfStsQgQg w i)) ++ [0] ++ beBytes 2 (min (rec1 i).age 65535) ++ beBytes 4 (min (rec1 i).depth (2 ^ 32 - 1))

/-- Waiting control messages taken while there is room, oldest first; a RANGE_ACK goes in a grant of its ESFN or later (R147, R159). -/
def takeCtrl (tsfn : Nat) : Nat → List CtrlOut → List CtrlOut × List CtrlOut
  | 0, q => ([], q)
  | _, [] => ([], [])
  | n + 1, m :: t =>
    if m.esfn.all (sfnGe tsfn) then let r := takeCtrl tsfn n t; (m :: r.1, r.2)
    else let r := takeCtrl tsfn (n + 1) t; (r.1, m :: r.2)

/-- Data cells taken while whole packets fit (R159). -/
def takeWhole : Nat → Nat → List TxCell → List TxCell × List TxCell
  | 0, _, q => ([], q)
  | _, _, [] => ([], [])
  | f + 1, room, c :: t =>
    let rest := if c.type = 1 then [] else (t.takeWhile fun x => x.type == 3) ++ (t.dropWhile fun x => x.type == 3).take 1
    let pkt := c :: rest
    if room < pkt.length then ([], c :: t)
    else let r := takeWhole f (room - pkt.length) (t.drop rest.length); (pkt ++ r.1, r.2)

/-- The sealable cells of a burst stream of `n` cells in all (R180). -/
def sealableOf (n : Nat) : Nat := n - (n + 31) / 32

/-- The groups of a sealed burst: chunks of 31 cells. -/
def chunks31 : Nat → List TxCell → List (List TxCell)
  | 0, _ => []
  | _, [] => []
  | f + 1, l => l.take 31 :: chunks31 f (l.drop 31)

/-- Sealed groups sent whole, numbered on. -/
def emitAll : Nat → TxGroup → Nat → Nat → List (List Byte)
  | 0, _, _, _ => []
  | f + 1, q, sn, n =>
    let r := q.emit sn n
    r.1 :: match r.2 with
      | some q2 => emitAll f q2 sn (n + 1)
      | none => []

/-- The cells of a burst or burst set of `total` cells, from its clear cells, sealed where its stream is on; `mism` gives the
mismatches of its groups in order. A group discarded under R183 leaves idle cells, and a stream that halts seals nothing more. -/
def Dev.burstCells (d : Dev) (w g total : Nat) (sealed : Bool) (cells : List TxCell) (mism : List Nat) : Dev × List (List Byte) :=
  if !sealed then (d, (List.range total).map fun n => let c := cells.getD n idleCell; buildCell c.flow c.type n c.len c.data)
  else
    let fill := (cells ++ List.replicate total idleCell).take (sealableOf total)
    let r := (chunks31 total fill).zipIdx.foldl (fun (a : Dev × List (List Byte)) ch =>
      if !a.1.sealing w g then a
      else match a.1.sealCells w g false ch.1 (mism.getD ch.2 0) with
        | (d1, some q) => (d1, a.2 ++ emitAll 40 q (d1.streamNo w g true) a.2.length)
        | (d1, none) => (d1, a.2)) (d, [])
    (r.1, r.2 ++ (List.range (total - r.2.length)).map fun i => buildCell 0 0 (r.2.length + i) 0 [])

/-- The cells that a sealed burst can still take: its groups up to one that faults, and those its slot has counter values for (R184,
R185). -/
def Dev.sealRoom (d : Dev) (w g : Nat) (mism : List Nat) : Nat :=
  31 * min (2 ^ 48 - (d.slotInUse w g).ctr) ((mism.findIdx? fun m => decide (2 ≤ m)).elim (2 ^ 48) (· + 1))

/-- The start of a burst in symbols counted from superframe 0 (R144, R153). -/
def Dev.burstAt (d : Dev) (w : Nat) (g : Grant) (r : Nat) : Nat :=
  g.tsfn * 1024000 + 1000 * g.start + (if g.disc then (d.wave w).peqd + 64 * r else (d.wave w).eqdFor g.tsfn)

/-- A burst not sent, counted in MISS (R160). -/
def Dev.missBurst (d : Dev) (w : Nat) (gs : List Grant) : Dev :=
  (d.count (F.lfGntMissMiss w) gs.length).setWave w fun v => { v with grants := v.grants.filter fun x => !gs.contains x }

/-- The bursts of a set leave together, one of `len` slots on each member; cell n lies in member n mod G (R158). Under the mask mute they
are built and not sent (R84, R87); the model's choice (log 77): BSEQ advances and BURSTS counts for them as for those sent. -/
def Dev.sendSet (d : Dev) (w : Nat) (gs : List Grant) (len tid prof nblk : Nat) (srf rng : Bool) (cells : List (List Byte)) (r : Nat) : Dev :=
  let k := gs.length
  let muted := match d.serving w with
    | some e => (d.eng e).muteOut
    | none => true
  let d1 := d.each gs.zipIdx fun d gi =>
    let seq := (d.wave w).bseq
    let mine := (cells.zipIdx.filter fun c => c.2 % k == gi.2).map (·.1)
    let j := d.burstInject w gi.1.sc mine
    (j.1.setWave w fun v => { v with
      bseq := (seq + 1) % 256, grants := v.grants.filter fun x => x != gi.1
      burstsOn := v.burstsOn ++ [⟨{ gi.1 with len := len }, d.burstAt w gi.1 r, d.time.ticks⟩] }).when (!muted) fun d => d.emit
        (.burst w gi.1.sc (BitVec.ofNat 176 (burstHeader tid seq prof (srf && gi.2 == 0) rng nblk)) j.2)
  d1.txRefresh

/-- The start of one grant's burst after that of another, in symbols; superframe numbers in serial order. -/
def Dev.burstAfter (d : Dev) (w : Nat) (x y : Grant) : Int :=
  (((d.burstAt w x 0 : Nat) : Int) - 1024000 * (x.tsfn : Nat)) - (((d.burstAt w y 0 : Nat) : Int) - 1024000 * (y.tsfn : Nat))
    + 1024000 * signedOf 32 (sfnSub x.tsfn y.tsfn)

/-- Another grant of the same subcarrier, of an earlier target superframe, holds a burst that intersects this one's in time (R160). -/
def Dev.collides (d : Dev) (w : Nat) (g : Grant) : Bool :=
  ((d.wave w).grants ++ (d.wave w).burstsOn.map (·.grant)).any fun o =>
    o.sc == g.sc && !o.disc && !g.disc && o.tsfn != g.tsfn && sfnGe g.tsfn o.tsfn
      && decide (d.burstAfter w g o < 1000 * (o.len : Nat)) && decide (-(1000 * (g.len : Nat) : Int) < d.burstAfter w g o)

/-- A grant leaves the table. -/
def Dev.dropGrants (d : Dev) (w : Nat) (gs : List Grant) : Dev :=
  d.setWave w fun v => { v with grants := v.grants.filter fun x => !gs.contains x }

/-- A discovery window answered with an ANNOUNCE after a random delay (R144). -/
def Dev.announce (fz : Fuses) (d : Dev) (w gid : Nat) (g : Grant) : Dev :=
  let v := d.wave w
  let r := (Config.freeWord d.free).toNat % (min v.rspread ((g.len - v.alen) * 1000 / 64) + 1)
  let sh := burstShape v.alen 0
  let m : CtrlOut := ⟨0x41, v.mseq, beBytes 8 fz.serial ++ beBytes 2 r, none⟩
  let c := { d with free := d.free + 1 }.burstCells w gid sh.2 false [ctrlCell 0xFF000 5 m] []
  ((c.1.setWave w fun v => { v with announced := true, mseq := (v.mseq + 1) % 65536 }).sendSet w [g] v.alen 0 0 sh.1 false g.rng c.2 r)

/-- The burst set of a grant, in the order of its members (R158): the grant alone with RNG = 1 and in a discovery window. -/
def Dev.burstSet (d : Dev) (w gid : Nat) (g : Grant) : List Grant :=
  let set := if g.rng || g.disc then [g]
    else (d.wave w).grants.filter fun x =>
      x.tsfn == g.tsfn && x.start == g.start && x.len == g.len && !x.rng && (d.grp w gid).txMask.testBit x.sc
  (List.range 32).flatMap fun k => set.filter fun x => x.sc == k

/-- The profile of a granted burst (R157, R163). -/
def Dev.burstProf (d : Dev) (w : Nat) (g : Grant) : Nat :=
  if d.get (F.lfActStatState w) = 4 then (d.wave w).codeFor g.sc g.tsfn else 0

/-- The cells that a burst set can be filled with (R157, R180, R185); none in a sparing gap (R207). -/
def Dev.burstRoom (d : Dev) (w gid : Nat) (g : Grant) (gs : List Grant) (mism : List Nat) : Nat :=
  let total := (burstShape g.len (d.burstProf w g)).2 * gs.length
  if (d.wave w).gap then 0
  else if !(d.get (F.lfActStatState w) = 4 && (d.grp w gid).encTx) then total
  else if d.sealing w gid then min (sealableOf total) (d.sealRoom w gid mism) else 0

/-- The STATUS message of a burst set with room for one, and the waiting messages that go in it with those that stay (R158, R159). -/
def Dev.burstCtrl (d : Dev) (w : Nat) (g : Grant) (gs : List Grant) (room : Nat) : List CtrlOut × List CtrlOut × List CtrlOut :=
  let v := d.wave w
  let srf := gs.any (fun x => x.srq && x.sc == (gs.map (·.sc)).headD 0) && 0 < room
  let sm : List CtrlOut := if srf then [⟨0x43, v.mseq, d.statusBody w, none⟩] else []
  (sm, takeCtrl g.tsfn (room - sm.length) v.ctrlQ)

/-- A granted burst, or burst set, filled and sent (R157 to R159, R180, R185); in a sparing gap it is built of idle cells (R207). -/
def Dev.grantedBurst (d : Dev) (w gid : Nat) (g : Grant) (gs : List Grant) (mism : List Nat) : Dev :=
  let st := d.get (F.lfActStatState w)
  let tid := d.get (F.lfActIdTid w)
  let prof := d.burstProf w g
  let sh := burstShape g.len prof
  let total := sh.2 * gs.length
  let on := st = 4 && (d.grp w gid).encTx
  let room := d.burstRoom w gid g gs mism
  let (sm, q) := d.burstCtrl w g gs room
  let ctl := (sm ++ q.1).map (ctrlCell (0xFF000 + tid) 5)
  let data := if st = 4 && !g.rng then takeWhole (room + 1) (room - ctl.length) (d.grp w gid).txCells else ([], (d.grp w gid).txCells)
  let d1 := (d.setWave w fun v => { v with ctrlQ := q.2, mseq := (v.mseq + sm.length) % 65536 }).setGrp w gid fun x => { x with txCells := data.2 }
  let d1 := d1.freeCells w data.1
  let c := d1.burstCells w gid total on (ctl ++ data.1) mism
  (c.1.sendSet w gs g.len tid prof sh.1 (!sm.isEmpty) g.rng c.2 0).when (st == 3 && q.1.any fun m => m.mtype == 0x42) fun d => d.setAct w 4

/-- The terminal answers a discovery window: in DISCOVERY, no ANNOUNCE unanswered, room for one, none to skip (R144). -/
def Dev.answers (d : Dev) (w : Nat) (g : Grant) : Bool :=
  let v := d.wave w
  d.get (F.lfActStatState w) == 2 && !v.announced && decide (v.alen ≤ g.len) && v.skip == 0

/-- The target superframe of a burst that starts now began no later than the beacon's return (R148, R153). -/
def Dev.beforeReturn (d : Dev) (w : Nat) (g : Grant) : Bool :=
  (d.wave w).dsBack.any fun t => decide (d.time.ticks ≤ t + symTicks (d.burstAt w g 0 - g.tsfn * 1024000))

/-- BURST_START (R144, R147, R153 to R160): the grant of subcarrier `sc` for superframe `tsfn` at slot `start`, with
the others of its set; `mism` gives the mismatches of dual computation in its groups (R183). Where one member's burst collides
the whole set is dropped and each member counted: DESIGN CHOICE, unsafe (log 70). -/
def execBurstStart (w : Fin 2) (sc : Fin 32) (tsfn : Word) (start : BitVec 10) (mism : List Nat) (s : State) :
    Host.Outcome State Fault Refusal := s.run fun fz d0 =>
  match (d0.wave w).grants.find? fun g => g.sc == sc.val && g.tsfn == tsfn.toNat && g.start == start.toNat with
  | none => d0
  | some g =>
    let d := d0.txMove w false
    let v := d.wave w
    let st := d.get (F.lfActStatState w)
    let gid := (d.txGroupOf w sc).getD 0
    let gs := d.burstSet w gid g
    if g.disc && !d.answers w g then
      (d.dropGrants w [g]).when (st == 2 && !v.announced && decide (v.alen ≤ g.len)) fun d => d.setWave w fun v => { v with skip := v.skip - 1 }
    else if st = 5 || d.flag (F.lfActStatDsloss w) || d.beforeReturn w g || d.flag (F.lfActStatSilsp w) || d.flag (F.lfActStatSilhe w)
        || v.txCut || !d.lineOk w then d.missBurst w gs
    else if gs.any (d.collides w) then
      (((d.count (F.lfGntErrOvl w) gs.length).dropGrants w gs).each gs fun d _ => d.sfEvent w 14 [R.lfGntErr w])
    else if g.disc then d.announce fz w gid g
    else d.grantedBurst w gid g gs mism

/-- BURST_END (R155): the ramp-down ends, and the grant is gone. -/
def execBurstEnd (w : Fin 2) (sc : Fin 32) (tsfn : Word) (start : BitVec 10) (s : State) :
    Host.Outcome State Fault Refusal := s.run fun _ d =>
  let mine (b : BurstOn) : Bool := b.grant.sc == sc.val && b.grant.tsfn == tsfn.toNat && b.grant.start == start.toNat
  d.when ((d.wave w).burstsOn.any mine) fun d =>
    ((d.setWave w fun v => { v with burstsOn := v.burstsOn.filter fun b => !mine b }).count (F.lfGntBurstsBursts w) 1).txRefresh

end Sys2Proof.Machine
end

