-- ==== Sys2Proof/Machine/Lanes.lean ====
section
/-!
DEFINITION. Lanes and kindling: 11_host_lanes; parking and waking of ports (R296, R297) and a port's link (R278), which
follow its lanes.
-/

namespace Sys2Proof.Machine

def Dev.lane (d : Dev) (l : Nat) : Lane := Tbl.get {} d.lanes l
def Dev.setLane (d : Dev) (l : Nat) (f : Lane → Lane) : Dev := { d with lanes := Tbl.modify {} d.lanes l f }
def Dev.stage (d : Dev) (l : Nat) : Nat := d.get (F.hsLnStatStage l)
def Dev.setStage (d : Dev) (l n : Nat) : Dev := d.set (F.hsLnStatStage l) n

/-- The port that bonds a lane (R277). -/
def Dev.portOf (d : Dev) (l : Nat) : Option Nat :=
  ((List.range 8).map (l - ·)).find? fun p => decide (l < p + d.get (F.hsMacBondLanes p))

/-- The lanes of a port. -/
def Dev.lanesOf (d : Dev) (p : Nat) : List Nat := (List.range (d.get (F.hsMacBondLanes p))).map (p + ·)

/-- The first lane of the port of a lane. -/
def Dev.firstLane (d : Dev) (l : Nat) : Nat := (d.portOf l).getD l

/-- The lane rate of a lane, as BOND.LRATE of its port codes it. -/
def Dev.laneRate (d : Dev) (l : Nat) : Nat := d.get (F.hsMacBondLrate (d.firstLane l))

/-- The lane signals PAM4 (R303). -/
def Dev.pam4 (d : Dev) (l : Nat) : Bool := decide (3 ≤ d.laneRate l)

/-- The lane is powered, bonded and not parked. -/
def Dev.laneOn (d : Dev) (l : Nat) : Bool :=
  d.released (hsCord l) && match d.portOf l with
    | some p => !d.flag (F.hsMacParkPark p)
    | none => false

/-- An event of a lane, named in its die's summary register (R326). -/
def Dev.laneEvent (d : Dev) (l n : Nat) (addrs : List Nat) : Dev :=
  let h := l / 48
  let i := l % 48
  let f := if i < 32 then F.hsLngSum0Lanes h else F.hsLngSum1Lanes h
  (d.set f (setBit (d.get f) (i % 32))).raise n addrs

/-- The port's link follows a lane that is not active (R278, R308). -/
def Dev.laneLinkDown (d : Dev) (l : Nat) : Dev :=
  match d.portOf l with
  | some p => d.macLost p
  | none => d

/-! ### Messages (R312, R313) -/

/-- A field of the configuration taken at the last entry to stage 1 (R325). -/
def Dev.lcfg (d : Dev) (l : Nat) (f : Nat → Fld) : Nat := (f l).of (d.lane l).cfg

/-- The device's capability message (R313). -/
def Dev.capMsg (d : Dev) (l : Nat) : Nat :=
  let lrxen := d.lcfg l F.hsLnCfgLrxen
  2 ^ 60 + l * 2 ^ 48 + d.get (F.hsMacBondLanes (d.firstLane l)) * 2 ^ 32 + 2 ^ (d.laneRate l - 1) % 32 * 2 ^ 27
    + d.get (F.hsLnCfgFecallow l) * 2 ^ 23 + lrxen * 2 ^ 22 + (if (d.lane l).lrxReq then 2 ^ 21 else 0)
    + d.lcfg l F.hsLnCfgRxpre * 2 ^ 20

/-- A kindling frame of a message, its CSEQ, and ACKSEQ where one is valid (R312). -/
def kindlingFrame (msg cseq : Nat) (ack : Option Nat) : BitVec 128 :=
  let body := 0x4B494E44 * 2 ^ 80 + msg % 2 ^ 64 * 2 ^ 16 + cseq % 128 * 2 ^ 8 + match ack with
    | some a => 128 + a % 128
    | none => 0
  BitVec.ofNat 128 (body * 2 ^ 16 + crc16 (bitsOf 112 body))

/-- The kindling frame a lane sends as it stands. -/
def Dev.kindlingOf (d : Dev) (l : Nat) : BitVec 128 := kindlingFrame (d.capMsg l) (d.lane l).cseq ((d.lane l).msg.map (·.2))

/-- The kindling frames a lane sends from here on. -/
def Dev.sendKindling (d : Dev) (l : Nat) : Dev := d.emit (.kindling l (d.kindlingOf l))

/-! ### Stages (R308) -/

/-- Stage 5 is entered. -/
def Dev.enterActive (d : Dev) (l : Nat) : Dev :=
  ((d.setStage l 5).setLane l fun x => { x with secSym := 0, sd := false, eyeLow := false }).laneEvent l 0xB7 [R.hsLnStat l]

/-- A lane at stage 1 in a near-end loop goes to the stage of its loop; one in mode 3 starts as without a loop (R319). -/
def Dev.loopStage (d : Dev) (l : Nat) : Dev :=
  if d.get (F.hsLnLoopMode l) = 1 then d.setStage l 3 else if d.get (F.hsLnLoopMode l) = 2 then d.enterActive l else d

/-- Entry to stage 1, and from there to the stage of a near-end loop (R319, R325). -/
def Dev.laneStart (d : Dev) (l : Nat) : Dev :=
  if !d.laneOn l then d.setStage l 0
  else
    let d1 := ((((d.set (F.hsLnStatLrxact l) 0).set (F.hsLnStatLegacy l) 0).set (F.hsLnStatTxprec l) 0).set (F.hsLnStatRxprec l) 0).setLane
      l fun x => { x with cfg := d.reg (R.hsLnCfg l), msg := none, run := 0, acked := false, good := false, lrxDone := false
                          lrxReq := false, cseq := if x.lrxReq then (x.cseq + 1) % 128 else x.cseq
                          detected := false, offer := none, resolved := false, legacyWait := false, eyeLow := false, eyes := []
                          agreed := none, gone := false }
    (d1.setStage l 1).loopStage l

/-- Stage 3 is entered: kindling frames are sent. -/
def Dev.enterLock (d : Dev) (l : Nat) : Dev := ((d.setStage l 3).setLane l fun x => { x with eyes := [] }).sendKindling l

/-- The initialize taps (R310). -/
def Dev.initTaps (d : Dev) (l : Nat) : Dev :=
  (((d.set (F.hsLnTxeqCm2 l) 0).setInt (F.hsLnTxeqCm1 l) (-6)).setInt (F.hsLnTxeqC1 l) (-10)).set (F.hsLnTxeqC0 l) 48

/-- Stage 2, in which training frames are sent, or with TRNEN = 0 stage 3 with the initialize taps (R308). -/
def Dev.enterTrain (d : Dev) (l : Nat) : Dev :=
  if d.lcfg l F.hsLnCfgTrnen = 1 then
    ((d.setStage l 2).setLane l fun x => { x with best := none, ready := false }).emit (.trainFrame l none false)
  else (d.initTaps l).enterLock l

/-- A failure (R317). -/
def Dev.laneFail (d : Dev) (l n : Nat) (addrs : List Nat) : Dev :=
  let d1 := (((d.count (F.hsLnStatKfail l) 1).setStage l 6).setLane l fun x => { x with legacyWait := false, resolved := false }).laneEvent l n addrs
  d1.laneLinkDown l

/-- A loss of stage 5, or of the card: back to stage 1 with no retry wait (R317). -/
def Dev.laneBack (d : Dev) (l : Nat) : Dev := (d.laneStart l).laneLinkDown l

/-- The lane runs the stages: not in loopback, not under PRBS generation (R308). Mode 3 loops a lane of stage 5 alone. -/
def Dev.runs (d : Dev) (l : Nat) : Bool :=
  (d.get (F.hsLnLoopMode l) == 0 || (d.get (F.hsLnLoopMode l) == 3 && d.stage l != 5)) && !d.flag (F.hsLnPrbsGen l)

/-- The pages of Clause 73: the technology of the port's type alone, and the codes of FECALLOW (R309). -/
def Dev.advertise (d : Dev) (l : Nat) : Dev :=
  d.emit (.autoneg l (d.laneRate l) (d.get (F.hsMacBondLanes (d.firstLane l))) (d.get (F.hsLnCfgFecallow l)))

/-- LN_DETECT (R308, R309): termination at three polls; with ANEN pages are sent, and the stage ends once autonegotiation is
complete. -/
def execLnDetect (l : Fin 96) (s : State) : Host.Outcome State Fault Refusal := s.run fun _ d =>
  if d.stage l ≠ 1 || !d.runs l then d
  else if d.lcfg l F.hsLnCfgAnen = 1 then (d.setLane l fun x => { x with detected := true }).advertise l
  else (d.enterTrain l).laneEvent l 0xB0 [R.hsLnStat l]

/-- AUTONEG_DONE (R306, R309): `own` says the port's own technology was resolved; `offer` the codes offered. -/
def execAutonegDone (l : Fin 96) (own : Bool) (offer : BitVec 4) (s : State) : Host.Outcome State Fault Refusal := s.run fun _ d =>
  if d.stage l ≠ 1 || !d.runs l || d.lcfg l F.hsLnCfgAnen ≠ 1 || !(d.lane l).detected then d
  else if own then ((d.setLane l fun x => { x with offer := some offer.toNat }).enterTrain l).laneEvent l 0xB0 [R.hsLnStat l]
  else d.laneFail l 0xB1 [R.hsLnStat l]

/-! ### Training (R310) -/

def tapFld (l : Nat) : Tap → Fld
  | .cm2 => F.hsLnTxeqCm2 l
  | .cm1 => F.hsLnTxeqCm1 l
  | .c0 => F.hsLnTxeqC0 l
  | .c1 => F.hsLnTxeqC1 l

/-- The lowest value of a tap; the highest is 0. -/
def tapMin (pam4 lrx : Bool) : Tap → Int
  | .cm2 => if lrx then -12 else if pam4 then -8 else 0
  | .cm1 => if lrx then -24 else -16
  | .c1 => if lrx then -32 else -24
  | .c0 => if lrx then 16 else 24

/-- c(0) as the other taps leave it. -/
def Dev.c0Of (d : Dev) (l : Nat) : Int :=
  64 - ((d.getInt (F.hsLnTxeqCm2 l)).natAbs + (d.getInt (F.hsLnTxeqCm1 l)).natAbs + (d.getInt (F.hsLnTxeqC1 l)).natAbs : Nat)

/-- A step request and its answer: 0 updated, 1 at minimum, 2 at maximum, 3 not supported. A tap that an extended pass has left below
its range steps back up (R310). -/
def Dev.tapStep (d : Dev) (l : Nat) (t : Tap) (up : Bool) : Dev × Nat :=
  let lrx := d.flag (F.hsLnStatLrxact l)
  let limit := if up then 2 else 1
  if t = .c0 then (d, limit)
  else if t = .cm2 && !d.pam4 l then (d, 3)
  else
    let v := d.getInt (tapFld l t) + (if up then 1 else -1)
    let d1 := d.setInt (tapFld l t) v
    let out := if up then decide (0 < v) else v < tapMin (d.pam4 l) lrx t || decide (d1.c0Of l < tapMin (d.pam4 l) lrx .c0)
    if out then (d, limit)
    else (d1.setInt (F.hsLnTxeqC0 l) (d1.c0Of l), 0)

/-- The requests of a frame contradict one another. -/
def contradicts (q : TrainReq) : Bool :=
  (q.preset && q.initTaps) || ((q.preset || q.initTaps) && !q.steps.isEmpty) || q.steps.any fun s => q.steps.contains (s.1, !s.2)

/-- TRAINING_REQUEST (R310). -/
def execTrainingRequest (l : Fin 96) (q : TrainReq) (s : State) : Host.Outcome State Fault Refusal := s.run fun _ d =>
  if d.stage l ≠ 2 || !d.runs l then d
  else if contradicts q then (d.count (F.hsLnLoopProto l) 1).laneEvent l 0xBB [R.hsLnLoop l]
  else if q.preset then
    ((((d.set (F.hsLnTxeqCm2 l) 0).set (F.hsLnTxeqCm1 l) 0).set (F.hsLnTxeqC1 l) 0).set (F.hsLnTxeqC0 l) 64).emit (.training l [0])
  else if q.initTaps then (d.initTaps l).emit (.training l [0])
  else
    let r := q.steps.foldl (fun (a : Dev × List Nat) s => let t := a.1.tapStep l s.1 s.2; (t.1, a.2 ++ [t.2])) (d, [])
    r.1.emit (.training l r.2)

/-- An eye measured in training (R310): while it improves the device asks the card for another step of its taps, which one is free;
then it declares its receiver ready. -/
def Dev.trainEye (d : Dev) (l height : Nat) : Dev :=
  let x := d.lane l
  if x.ready then d
  else if x.best.all (decide <| · < height) then
    let r := Config.freeWord d.free
    let tap : Tap := if r.getLsbD 1 then (if r.getLsbD 0 then .cm2 else .cm1) else if r.getLsbD 0 then .c0 else .c1
    ({ d with free := d.free + 1 }.setLane l fun x => { x with best := some height }).emit (.trainFrame l (some (tap, r.getLsbD 2)) false)
  else (d.setLane l fun x => { x with ready := true }).emit (.trainFrame l none true)

/-- TRAINING_DONE (R310): the card's receiver is ready, and the device's has been declared so. -/
def execTrainingDone (l : Fin 96) (s : State) : Host.Outcome State Fault Refusal := s.run fun _ d =>
  d.when (d.stage l == 2 && d.runs l && (d.lane l).ready) fun d => d.enterLock l

/-- LN_TRAIN_TO (R317). -/
def execLnTrainTo (l : Fin 96) (s : State) : Host.Outcome State Fault Refusal := s.run fun _ d =>
  d.when (d.stage l == 2 && d.runs l) fun d => d.laneFail l 0xB2 [R.hsLnStat l]

/-! ### Lock (R311) -/

/-- Symbol lock: four measurements in a row with an open eye, each within 4 units of the one before it (R311; log 84). -/
def eyesConverged : List Nat → Bool
  | [a, b, c, e] => let near (x y : Nat) : Bool := decide (x ≤ y + 4) && decide (y ≤ x + 4)
      decide (0 < a) && decide (0 < b) && decide (0 < c) && decide (0 < e) && near a b && near b c && near c e
  | _ => false

/-- SYMBOL_LOCK (R308, R311, R318, R319): the receiver holds bit lock; once symbol lock is shown the lane is in stage 4, or in stage 5
on its own signal or in its extended pass. -/
def execSymbolLock (l : Fin 96) (s : State) : Host.Outcome State Fault Refusal := s.run fun _ d =>
  if d.stage l ≠ 3 || d.flag (F.hsLnPrbsGen l) || !eyesConverged (d.lane l).eyes then d
  else if d.get (F.hsLnLoopMode l) = 1 || d.flag (F.hsLnStatLrxact l) then d.enterActive l
  else
    let req := d.lcfg l F.hsLnCfgLrxen == 1 && decide (d.get (F.hsLnEyeEyeh l) < d.get (F.hsLnEyethrLrxthr l))
    let d1 := (d.setStage l 4).setLane l fun x => { x with
      lrxReq := req, cseq := if x.lrxReq = req then x.cseq else (x.cseq + 1) % 128 }
    d1.sendKindling l

/-- LN_LOCK_TO (R316, R317): in stage 3, or for a legacy lane whose port's PCS has not locked. -/
def execLnLockTo (l : Fin 96) (s : State) : Host.Outcome State Fault Refusal := s.run fun _ d =>
  d.when (d.runs l && (d.stage l == 3 || (d.stage l == 5 && (d.lane l).legacyWait))) fun d => d.laneFail l 0xB3 [R.hsLnStat l]

/-! ### Capability exchange (R306, R312 to R318) -/

/-- The strongest code of a mask (R306). -/
def strongest (m : Nat) : Option Nat := [3, 2, 1, 0].find? (m.testBit ·)

/-- FEC resolved on a lane: the device, and whether the lane stands; other lanes of the port that have resolved another code in the
kindling they are in fail (R306). -/
def Dev.resolveFec (d : Dev) (l offer : Nat) : Dev × Bool :=
  match strongest (d.get (F.hsLnCfgFecallow l) &&& offer) with
  | none => (d, false)
  | some c =>
    let p := d.firstLane l
    let d1 := (d.set (F.hsLnStatFecres l) c).setLane l fun x => { x with resolved := true }
    if l = p then
      (d1.each ((d1.lanesOf p).filter fun k => k != p && (d1.lane k).resolved && d1.runs k && d1.get (F.hsLnStatFecres k) != c) fun d k =>
        d.laneFail k 0xB5 [R.hsLnCaprxlo k, R.hsLnCaprxhi k], true)
    else (d1, !((d1.lane p).resolved && d1.runs p && d1.get (F.hsLnStatFecres p) != c))

/-- A received message fails a check of R315. -/
def Dev.capBad (d : Dev) (l msg : Nat) : Bool :=
  msg / 2 ^ 56 % 16 != 1 || msg / 2 ^ 32 % 256 != d.get (F.hsMacBondLanes (d.firstLane l))
    || !(msg / 2 ^ 27 % 32).testBit (d.laneRate l - 1) || (strongest (d.get (F.hsLnCfgFecallow l) &&& msg / 2 ^ 23 % 16)).isNone

/-- The 32 further frames of a completed exchange, which carry ACKV (R314). -/
def Dev.lastKindling (d : Dev) (l : Nat) : Dev := d.each (List.range 32) fun d _ => d.sendKindling l

/-- The exchange is complete (R314, R315, R318). -/
def Dev.capDone (d : Dev) (l msg : Nat) : Dev :=
  let mis (d : Dev) : Dev := d.laneFail l 0xB5 [R.hsLnCaprxlo l, R.hsLnCaprxhi l]
  if d.capBad l msg then mis d
  else
    let r := d.resolveFec l (msg / 2 ^ 23 % 16)
    if !r.2 then mis r.1
    else
      let pre := d.lcfg l F.hsLnCfgPre
      let d1 := ((r.1.lastKindling l).setFlag (F.hsLnStatTxprec l) (d.pam4 l && (pre == 2 || (pre == 0 && msg.testBit 20)))).setFlag (F.hsLnStatRxprec l)
        (d.pam4 l && d.lcfg l F.hsLnCfgRxpre == 1)
      if d.lcfg l F.hsLnCfgLrxen = 1 && msg.testBit 22 && ((d.lane l).lrxReq || msg.testBit 21) && !(d.lane l).lrxDone then
        (((d1.set (F.hsLnStatLrxact l) 1).setLane l fun x => { x with lrxDone := true }).enterTrain l).laneEvent l 0xBA [R.hsLnStat l]
      else d1.enterActive l

/-- KINDLING_FRAME_RX (R312, R314): a received frame of 128 bits. Three good frames in a row that carry the same message, and a good frame
that acknowledges the device's own, complete the exchange in either order. -/
def execKindlingFrameRx (l : Fin 96) (frame : BitVec 128) (s : State) : Host.Outcome State Fault Refusal := s.run fun _ d =>
  let f := frame.toNat
  let msg := f / 2 ^ 32 % 2 ^ 64
  let cseq := f / 2 ^ 24 % 128
  let good := f / 2 ^ 96 == 0x4B494E44 && crc16 (bitsOf 112 (f / 2 ^ 16)) == f % 2 ^ 16 && msg / 2 ^ 60 == 1
  if d.stage l ≠ 4 || !d.runs l then d
  else if !good then d.setLane l fun x => { x with run := 0 }
  else
    let was := (d.lane l).msg
    let ack := f.testBit 23 && f / 2 ^ 16 % 128 == (d.lane l).cseq
    let d1 := ((d.set (F.hsLnCaprxloMsg l) msg).set (F.hsLnCaprxhiMsg l) (msg / 2 ^ 32)).setLane l fun x => { x with
      good := true, msg := some (msg, cseq), run := if x.msg = some (msg, cseq) then min 3 (x.run + 1) else 1, acked := x.acked || ack }
    let d2 := d1.when (was.map (·.2) != some cseq) fun d => d.sendKindling l
    let d3 := d2.when (decide (3 ≤ (d2.lane l).run)) fun d => d.setLane l fun x => { x with agreed := some msg }
    match (d3.lane l).agreed with
    | some m => d3.when (d3.lane l).acked fun d => d.capDone l m
    | none => d3

/-- LN_CAP_TO (R316, R317): legacy entry, or failure. -/
def execLnCapTo (l : Fin 96) (s : State) : Host.Outcome State Fault Refusal := s.run fun _ d =>
  if d.stage l ≠ 4 || !d.runs l then d
  else if (d.lane l).good || d.lcfg l F.hsLnCfgLegok ≠ 1 then d.laneFail l 0xB4 [R.hsLnStat l]
  else
    let r := d.resolveFec l (((d.lane l).offer).getD 15)
    if !r.2 then r.1.laneFail l 0xB5 [R.hsLnCaprxlo l, R.hsLnCaprxhi l]
    else
      let d1 := ((((r.1.set (F.hsLnStatLegacy l) 1).setFlag (F.hsLnStatTxprec l) (d.pam4 l && d.lcfg l F.hsLnCfgPre == 2)).set
        (F.hsLnStatRxprec l) 0).set (F.hsLnCaprxloMsg l) 0).set (F.hsLnCaprxhiMsg l) 0
      ((d1.setStage l 5).laneEvent l 0xB6 [R.hsLnStat l]).enterActive l |>.setLane l fun x => { x with legacyWait := true }

/-- RETRY_EXPIRE (R317). -/
def execRetryExpire (l : Fin 96) (s : State) : Host.Outcome State Fault Refusal := s.run fun _ d =>
  d.when (d.stage l == 6) fun d => d.laneStart l

/-! ### Loss (R317, R324, R325) -/

/-- LN_REMOVED (R317, R325, R326): the termination is gone at three polls. -/
def Dev.removed (d : Dev) (l : Nat) : Dev :=
  let st := d.stage l
  let m := d.get (F.hsLnLoopMode l)
  if st < 2 ∨ 5 < st then d
  else if m = 3 ∧ st = 5 then (d.setLane l fun x => { x with gone := true }).laneEvent l 0xB9 [R.hsLnStat l]
  else
    let d1 := (d.laneStart l).laneEvent l 0xB9 [R.hsLnStat l]
    (d1.when (st == 5 && m == 0) fun d => (d.count (F.hsLnStatLostcnt l) 1).laneEvent l 0xB8 [R.hsLnStat l]).laneLinkDown l

/-- LN_REMOVED (R317). -/
def execLnRemoved (l : Fin 96) (s : State) : Host.Outcome State Fault Refusal := s.run fun _ d => d.removed l

/-- Lock lost in stage 5 (R317, R324): no loss while the far transmitter is quiet. -/
def Dev.lockLost (d : Dev) (l : Nat) : Dev :=
  let quiet := match d.portOf l with
    | some p => d.flag (F.hsMacLpistatRxlpi p)
    | none => false
  d.when (d.stage l == 5 && !quiet) fun d =>
    (((d.count (F.hsLnStatLostcnt l) 1).laneStart l).laneEvent l 0xB8 [R.hsLnStat l]).laneLinkDown l

/-- LN_LOCK_LOST (R317). -/
def execLnLockLost (l : Fin 96) (s : State) : Host.Outcome State Fault Refusal := s.run fun _ d => d.lockLost l

/-! ### Loopback and PRBS (R319, R320, R323) -/

/-- The write of LOOP (R320): an error code, 0 for none. -/
def Dev.loopCheck (d : Dev) (l : Nat) (v : Word) : Nat := if (F.hsLnLoopMode l).of v = 3 && d.stage l != 5 then 0xA else 0

/-- A write of MODE (R319, R320): kindling in progress is aborted, and the link is down. -/
def Dev.loopGo (d : Dev) (l : Nat) : Dev :=
  if !d.laneOn l then d
  else if d.get (F.hsLnLoopMode l) = 3 then (d.setLane l fun x => { x with gone := false }).laneLinkDown l
  else d.laneBack l

/-- The write of PRBS (R323): an error code, 0 for none. -/
def Dev.prbsCheck (d : Dev) (l : Nat) (v : Word) : Nat :=
  let pat := (F.hsLnPrbsPat l).of v
  let on := (F.hsLnPrbsGen l).of v == 1 || (F.hsLnPrbsChk l).of v == 1
  if 5 ≤ pat || ((pat == 3 || pat == 4) && !d.pam4 l) then 9
  else if on && !(decide (3 ≤ d.stage l) && decide (d.stage l ≤ 5)) && d.get (F.hsLnLoopMode l) == 0 then 0xA else 0

/-- After a write of PRBS whose register read `old` before: the pattern in place of transmit data, the link down while either bit is 1;
clearing both goes back to stage 1. -/
def Dev.prbsGo (d : Dev) (l : Nat) (old : Word) : Dev :=
  let on (v : Word) : Bool := (F.hsLnPrbsGen l).of v == 1 || (F.hsLnPrbsChk l).of v == 1
  let now := d.reg (R.hsLnPrbs l)
  let sent (v : Word) : Nat := if (F.hsLnPrbsGen l).of v = 1 then (F.hsLnPrbsPat l).of v else 0
  let fresh := (F.hsLnPrbsChk l).of now == 0 || (F.hsLnPrbsChk l).of old == 0
  let d0 := d.when (sent now != sent old) fun d => d.emit (.prbs l (sent now))
  let d1 := d0.when fresh fun d => (d.set (F.hsLnPrbsLock l) 0).setLane l fun x => { x with prbsErr := false }
  if on now then d1.laneLinkDown l
  else if on old then d1.laneBack l
  else d1

/-- PRBS_CHECKER_LOCK (R323). -/
def execPrbsCheckerLock (l : Fin 96) (s : State) : Host.Outcome State Fault Refusal := s.run fun _ d =>
  d.when (d.flag (F.hsLnPrbsChk l) && !d.flag (F.hsLnPrbsLock l)) fun d => (d.set (F.hsLnPrbsLock l) 1).setLane l fun x => { x with prbsErr := false }

/-- LN_PRBS_ERR (R323): errors counted after lock; the first raises the event. -/
def execLnPrbsErr (l : Fin 96) (errors : Nat) (s : State) : Host.Outcome State Fault Refusal := s.run fun _ d =>
  d.when (d.flag (F.hsLnPrbsChk l) && d.flag (F.hsLnPrbsLock l) && errors != 0) fun d =>
    ((d.count (F.hsLnPrbsErr l) errors).when (!(d.lane l).prbsErr) fun d => d.laneEvent l 0xBF [R.hsLnPrbs l]).setLane l fun x =>
      { x with prbsErr := true }

/-! ### Statistics (R321, R322) -/

/-- EYE_MEASURE (R310, R321). -/
def execEyeMeasure (l : Fin 96) (height width snr : Nat) (s : State) : Host.Outcome State Fault Refusal := s.run fun _ d =>
  if d.stage l = 2 then d.when (d.runs l) fun d => d.trainEye l (min height 255)
  else if d.stage l < 3 ∨ 5 < d.stage l then d
  else
    let low := d.stage l == 5 && decide (min height 255 < d.get (F.hsLnEyethrHmin l))
    let d1 := (((d.set (F.hsLnEyeEyeh l) (min height 255)).set (F.hsLnEyeEyew l) (min width 255)).set (F.hsLnEyeSnr l) (min snr 640)).setLane
      l fun x => { x with eyeLow := low, eyes := if d.stage l = 3 then (min height 255 :: x.eyes).take 4 else x.eyes }
    d1.when (low && !(d.lane l).eyeLow) fun d => d.laneEvent l 0xBC [R.hsLnEye l]

/-- LN_FEC_UNCORR (R322): counted on the port's first lane. -/
def execLnFecUncorr (l : Fin 96) (s : State) : Host.Outcome State Fault Refusal := s.run fun _ d =>
  d.when (d.stage l == 5) fun d =>
    let p := d.firstLane l
    (d.count (F.hsLnFecucCount p) 1).laneEvent p 0xBD [R.hsLnFecuc p]

/-- LANE_FEC_SECOND (R322): the corrections of the second just ended on this lane, and the codewords corrected on its
port. -/
def execLaneFecSecond (l : Fin 96) (corrections codewords : Nat) (s : State) : Host.Outcome State Fault Refusal := s.run fun _ d =>
  if d.stage l ≠ 5 then d
  else
    let high := decide (d.get (F.hsLnEyethrSdthr l) * 64 < corrections)
    let d1 := (d.count (F.hsLnFecsymCount l) corrections).when (d.firstLane l == l.val) fun d => d.count (F.hsLnFeccwCount l) codewords
    (d1.setLane l fun x => { x with secSym := corrections, sd := high }).when (high && !(d.lane l).sd) fun d =>
      d.laneEvent l 0xBE [R.hsLnFecsym l]

/-! ### Links, parking and waking (R278, R296, R297, R319) -/

/-- MAC_LINK_UP (R278, R319): every lane active and aligned. -/
def execMacLinkUp (p : Fin 96) (s : State) : Host.Outcome State Fault Refusal := s.run fun _ d =>
  let ls := d.lanesOf p
  let m := d.get (F.hsLnLoopMode (ls.headD 0))
  d.when (!ls.isEmpty && !d.linkUp p && m != 3 && ls.all fun l =>
      d.stage l == 5 && d.get (F.hsLnLoopMode l) == m && !d.flag (F.hsLnPrbsGen l) && !d.flag (F.hsLnPrbsChk l)) fun d =>
    (((d.set (F.hsMacBondLink p) 1).set (F.hsMacParkPstate p) 0).each ls fun d l => d.setLane l fun x => { x with legacyWait := false }).raise
      0xCC [R.hsMacBond p]

/-- Entry to parking (R296): the port's lanes, PCS and MAC lose power. -/
def Dev.park (d : Dev) (p : Nat) : Dev :=
  let d1 := (d.macLost p).each (d.lanesOf p) fun d l => d.setStage l 0
  let d2 := ((d1.setMac p fun m => { m with pause := 0, pfc := [], wakeAt := 0 }).pauseStat p).set (F.hsMacFcstatXoffact p) 0
  (((d2.set (F.hsMacLpistatTxlpi p) 0).set (F.hsMacLpistatRxlpi p) 0).set (F.hsMacParkPark p) 1).set (F.hsMacParkPstate p) 1
    |>.raise 0xCE [R.hsMacPark p]

/-- A parked port wakes (R297), and its tinder detector stands still. -/
def Dev.unpark (d : Dev) (p : Nat) : Dev :=
  ((((d.set (F.hsMacParkPark p) 0).set (F.hsMacParkPstate p) 2).setPwr fun x => { x with tinderRun := Tbl.set 0 x.tinderRun p 0 }).each (d.lanesOf p) fun d l => d.laneStart l).raise 0xC9 [R.hsMacPark p]

/-- The write of PARK (R296): an error code, 0 for none. -/
def Dev.parkCheck (d : Dev) (p : Nat) (v : Word) : Nat :=
  if (F.hsMacParkPark p).of v = 1 && d.get (F.hsMacBondClass p) == 0 then 9 else 0

/-- An accepted write of PARK (R296, R297). -/
def Dev.parkGo (d : Dev) (p : Nat) (v : Word) : Dev :=
  let now := d.get (F.hsMacParkPstate p) == 1
  if (F.hsMacParkPark p).of v = 1 then (if now then d else d.park p)
  else d.when now fun d => d.unpark p

end Sys2Proof.Machine
end

