-- ==== Sys2Proof/Machine/Sched.lean ====
section
/-!
DEFINITION. The schedulers and what they serve: R262 to R268 of 09_buffers_scheduling, with the gate drops of R292 and the
change of a gate list.
-/

namespace Sys2Proof.Machine

/-- The shaper of a group. -/
def Dev.shGroup (d : Dev) (g : Nat) : Shaper := Tbl.get {} d.buf.groups g

/-- The shapers in force let a queue send; SHEN itself takes effect at the next refill (R260, R262). -/
def Dev.shapersOk (d : Dev) (q : Nat) : Bool :=
  let g := d.get (F.bufQMapShg q)
  (!(d.queue q).shOn || decide (0 ≤ (d.queue q).lvl)) && (g == 255 || !(d.shGroup g).shOn || decide (0 ≤ (d.shGroup g).lvl))

/-- The charge of a selected packet (R265). -/
def Dev.shaperCharge (d : Dev) (q len : Nat) : Dev :=
  let g := d.get (F.bufQMapShg q)
  let d1 := d.when (d.queue q).shOn fun d => d.setQueue q fun x => { x with lvl := x.lvl - (len * 8 : Nat) }
  d1.when (g != 255 && (d.shGroup g).shOn) fun d => d.setBuf fun b =>
    { b with groups := Tbl.modify {} b.groups g fun x => { x with lvl := x.lvl - (len * 8 : Nat) } }

/-- The signed distance of a queue from its scheduler's virtual time (R263). -/
def Dev.distance (d : Dev) (k q : Nat) : Int :=
  let x := d.queue q
  if x.old || decide (2 ≤ unsignedOf 16 ((d.get (F.bufSchVqVq k) : Int) - (x.tq : Nat))) then -2147483648
  else signedOf 32 (unsignedOf 32 ((x.f : Int) - (d.get (F.bufSchVV k) : Nat)))

/-- Virtual time after a selection at a distance (R263). -/
def Dev.advanceV (d : Dev) (k q : Nat) (dist : Int) : Dev :=
  if 0 < dist then
    let v := d.get (F.bufSchVV k)
    (d.when (decide ((2 ^ 30 : Nat) ≤ ((v % 2 ^ 30 : Nat) : Int) + dist)) fun d =>
      d.set (F.bufSchVqVq k) ((d.get (F.bufSchVqVq k) + 1) % 65536)).set (F.bufSchVV k) (d.queue q).f
  else d

/-- The head leaves a queue: depth, interval, and the tag of the next head (R263, R269). -/
def Dev.popHead (d : Dev) (q len : Nat) : Dev :=
  let d1 := (d.setQueue q fun x => { x with pkts := x.pkts.drop 1 }).set (F.bufQDepthCount q) (d.get (F.bufQDepthCount q) - len)
  let d2 := match (d1.queue q).pkts with
    | y :: _ => d1.tagHead q y.pkt.bytes.length
    | [] => d1
  d2.noteDepth q 0 len

/-- The queues of a scheduler that hold a packet, rising. -/
def Dev.queuesOf (d : Dev) (k : Nat) : List Nat :=
  (d.buf.queues.filter fun x => !x.2.pkts.isEmpty && d.get (F.bufQMapSched x.1) == k).map (·.1)

/-! ### Towards the host (R268, R291, R292) -/

/-- The length of the frame a packet becomes at a port. -/
def Dev.frameLen (d : Dev) (p : Nat) (x : Pkt) : Nat := (d.txFrame p x).length

/-- A port would take the head of a queue, apart from low-power idle and the wake time after it (R268, R291, R295). -/
def Dev.portMay (d : Dev) (p q : Nat) (x : Pkt) : Bool :=
  let c := d.get (F.bufQMapTc q)
  let m := d.mac p
  let open_ := match d.gateOpenFor p c with
    | none => true
    | some ns => decide (txBits (d.frameLen p x) ≤ ns * d.portRate p)
  d.trafficOk (hsCord p) && d.linkUp p && m.cur.isNone && m.gen.isEmpty && m.pause == 0 && Tbl.get 0 m.pfc c == 0 && open_

/-- A port takes the head of a queue: a frame starts as it is taken (R283), so no wake time is left against its gate. -/
def Dev.portTakes (d : Dev) (p q : Nat) (x : Pkt) : Bool :=
  !d.flag (F.hsMacLpistatTxlpi p) && decide ((d.mac p).wakeAt ≤ d.time.ticks) && d.portMay p q x

/-- A queue of a port is eligible apart from low-power idle and the wake time (R295). -/
def Dev.portBusy (d : Dev) (p : Nat) : Bool := (d.queuesOf p).any fun q => match (d.queue q).pkts with
  | x :: _ => d.shapersOk q && d.portMay p q x.pkt
  | [] => false

/-- LPI_ENTER (R294, R295): IDLEDLY has passed, no queue of the port is eligible apart from the wake time, and no control frame is due. -/
def execLpiEnter (p : Fin 96) (s : State) : Host.Outcome State Fault Refusal := s.run fun _ d =>
  d.when (d.flag (F.hsMacLpiEn p) && d.linkUp p && !d.flag (F.hsMacLpistatTxlpi p) && (d.mac p).cur.isNone && (d.mac p).gen.isEmpty
      && !d.portBusy p) fun d =>
    (d.set (F.hsMacLpistatTxlpi p) 1).count (F.hsMacLpistatTxlpicnt p) 1

/-- LPI_EXIT (R295): a queue has become eligible; a control frame that is due ends low-power idle itself. -/
def execLpiExit (p : Fin 96) (s : State) : Host.Outcome State Fault Refusal := s.run fun _ d =>
  d.when (d.portBusy p) fun d => d.leaveLpi p

/-- Heads of a queue that can never fit their gate are taken and discarded (R292). -/
def Dev.gateDropQueue (p q : Nat) : Nat → Dev → Dev
  | 0, d => d
  | n + 1, d => match (d.queue q).pkts with
    | [] => d
    | x :: _ =>
      if d.neverFits p (d.get (F.bufQMapTc q)) (d.frameLen p x.pkt) then
        gateDropQueue p q n ((((d.popHead q x.pkt.bytes.length).freeBufs x.bufs 32).count (F.hsMacGatedropCount p) 1).raise 0xC6 [R.hsMacGatedrop p])
      else d

/-- The gate drops of a port. -/
def Dev.gateDrops (d : Dev) (p : Nat) : Dev :=
  d.when (d.trafficOk (hsCord p) && d.linkUp p && d.flag (F.hsMacGctlGateen p)) fun d =>
    d.each (d.queuesOf p) fun d q => Dev.gateDropQueue p q (d.queue q).pkts.length d

/-- MAC_GCL_SWITCH (R292, R293): at the change time the pending list takes over. -/
def execMacGclSwitch (p : Fin 96) (s : State) : Host.Outcome State Fault Refusal := s.run fun _ d =>
  match (d.mac p).pend with
  | none => d
  | some n =>
    if !d.released (hsCord p) || decide (2 ^ 31 ≤ unsignedOf 32 ((d.time.ns : Int) - (n.start : Nat))) then d
    else ((((d.setMac p fun m => { m with oper := n, pend := none }).set (F.hsMacGctlPend p) 0).gateRefresh p).raise 0xC7
      [R.hsMacGstat p]).gateDrops p

/-! ### Towards the line (R267) -/

/-- The cells a packet needs. -/
def cellsOf (len : Nat) : Nat := max 1 ((len + 247) / 248)

/-- The grant whose burst a leaf's framer builds for a group: the first to start of those on its members. The model's choice (log 85): a
burst is built from the moment the one before it has started until its own start. -/
def Dev.building (d : Dev) (w g : Nat) : Option Grant :=
  ((d.wave w).grants.filter fun x => !x.disc && (d.grp w g).txMask.testBit x.sc).foldl (fun b x =>
    match b with
    | none => some x
    | some y => if d.burstAfter w x y < 0 then some x else some y) none

/-- The cells that remain in the burst being built for a group, behind its control messages and the data cells it has; none while its
grant has RNG = 1 (R159, R267). -/
def Dev.burstBudget (d : Dev) (w g : Nat) : Nat :=
  match d.building w g with
  | none => 0
  | some x =>
    let gs := d.burstSet w g x
    let room := d.burstRoom w g x gs []
    let c := d.burstCtrl w x gs room
    if x.rng then 0 else room - c.1.length - c.2.1.length - (d.grp w g).txCells.length

/-- A transmit framer asks for a packet that needs `cells` of a group; in leaf mode within the burst it builds. The model's choice (log
85): in point-to-point mode its cell builder always has room. -/
def Dev.framerAsks (d : Dev) (w g cells : Nat) : Bool :=
  d.trafficOk (6 + w) && (d.grp w g).txMask != 0 && !((d.grp w g).encTx && d.get (F.lfCrytStatHalt w g) != 0) && !(d.wave w).gap
    && (d.serving w).isSome && (!(d.wave w).leaf || (d.get (F.lfActStatState w) == 4 && decide (cells ≤ d.burstBudget w g)))

/-! ### Selection -/

/-- A queue is eligible (R262). -/
def Dev.eligible (d : Dev) (k q : Nat) : Bool :=
  match (d.queue q).pkts with
  | [] => false
  | x :: _ =>
    let out := if k < 96 then d.portTakes k q x.pkt
      else d.framerAsks ((k - 96) / 32) (k % 32) (cellsOf x.pkt.bytes.length)
    d.shapersOk q && out

/-- The eligible queue of smallest distance, the lowest code of equals. -/
def Dev.pickQueue (d : Dev) (k : Nat) : Option (Nat × Int) :=
  ((d.queuesOf k).filter fun q => d.eligible k q).foldl (fun b q =>
    match b with
    | none => some (q, d.distance k q)
    | some (_, x) => if d.distance k q < x then some (q, d.distance k q) else b) none

/-- A packet leaves PKT on a link: to a port's MAC, or as the cells of a line group; an end that carries no traffic takes nothing, and
the packet goes with its buffers (R11, R14). -/
def Dev.linkAway (d : Dev) (k : Nat) (u : FiUnit) : Dev :=
  if !d.trafficOk (if k < 2 then 6 + k else hsCord u.a) then d.freeBufs u.bufs u.agent
  else if k < 2 then d.setGrp k u.a fun g => { g with txCells := g.txCells ++ packetCells u.b u.pkt.bytes u.bufs }
  else d.setMac u.a fun m => { m with cur := some { pkt := u.pkt, bufs := u.bufs, enq := u.b }, curMax := d.get (F.hsMacCfgMaxlen u.a) }

/-- The selected packet passes to its sending agent (R251), through the link's injector (R431). -/
def Dev.handOver (d : Dev) (k q : Nat) (x : QPkt) : Dev :=
  let l := if k < 96 then 2 + k / 48 else (k - 96) / 32
  let u : FiUnit := { pkt := x.pkt, a := if k < 96 then k else k % 32, b := if k < 96 then x.enq else d.get (F.bufQFlowFlow q),
                      bufs := x.bufs, agent := 24 + l }
  (d.moveBufs x.bufs 32 (24 + l)).through (160 + l) 1 false u fun d u => d.linkAway l u

/-- SCHEDULER_SELECT (R257, R262, R263, R265, R267, R268, R271): `corrected` is the number of errors corrected in the packet's data, and
`ecc` says that they show an uncorrectable one. -/
def execSchedulerSelect (k : Fin 160) (corrected : Nat) (ecc : Bool) (s : State) : Host.Outcome State Fault Refusal := s.run fun _ d0 =>
  let d := d0.when (decide (k.val < 96)) fun d => d.gateDrops k
  if !d.released 9 then d
  else match d.pickQueue k with
    | none => d
    | some (q, dist) => match (d.queue q).pkts with
      | [] => d
      | x :: _ =>
        let len := x.pkt.bytes.length
        let d1 := ((((d.advanceV k q dist).shaperCharge q len).popHead q len).sojourn q x.enq).count F.bufBmEccCorr corrected
        if ecc then ((d1.freeBufs x.bufs 32).count F.bufBmEccUncorr 1).raise 0xE5 [R.bufBmEcc]
        else d1.handOver k q x

end Sys2Proof.Machine
end

