-- ==== Sys2Proof/Machine/FaultInj.lean ====
section
/-!
DEFINITION. The commands of the injectors and of the test access port: R431 to R440 of 17_fault_injection. An arming or
disarming write comes through the host's access path, which calls the checks and effects of this file.
-/

namespace Sys2Proof.Machine

/-- Where a unit goes behind an injector (R431, R438): the checks of a port or its pins; reassembly or the line, where a cell of a burst
waits for the next one on its subcarrier; PKT, or away from it. `a` and `b` are the group and index of a cell, the port, or the group and
flow of a packet. A stage whose cord carries no traffic takes nothing (R11, R14). -/
def Dev.fiNext (fz : Fuses) (d : Dev) (i dir : Nat) (u : FiUnit) : Dev :=
  if i < 96 then
    d.when (d.released (hsCord i)) fun d =>
      if dir = 0 then d.macRx i u.pkt.bytes u.flag else d.portOut i u.pkt.bytes
  else if i < 160 then
    let w := (i - 96) / 32
    let sc := (i - 96) % 32
    if dir = 0 then d.when (d.lineOk w) fun d =>
      if d.get (F.lfGrpStatState w u.a) ≠ 2 then (d.missingCells w u.a 1).cryCut w u.a
      else d.cellRx fz w u.a { n := u.b, frame := (d.sc w sc).frameNo, sc := sc, encOk := (d.sc w sc).encOk, kex := (d.sc w sc).kex } u.flag u.pkt.bytes
    else if (d.wave w).leaf then d.setSc w sc fun x => { x with txOut := x.txOut ++ [u] }
    else d.when (d.onLine w) fun d => d.emit (.lineCell w u.a u.b u.pkt.bytes)
  else if dir = 0 then d.linkIn (i - 160) u.pkt else d.linkAway (i - 160) u

/-- A held unit goes on at once, in the direction it was held in, behind its last follower (R433, R434, R436). -/
def Dev.fiRelease (fz : Fuses) (d : Dev) (i : Nat) : Dev :=
  let j := d.inj i
  match j.held with
  | none => d
  | some u => ((d.setInj i fun j => { j with held := none, after := 0 }).set (fiF i 0x14 1 1) 0).fiNext fz i j.dir
      (if j.after = 0 then u else u.behind i j.dir j.place)

/-- The check of a write to CTL (R433, R437): out of range, LOCK, or another field changed while EN is 1. -/
def Dev.fiCtlCheck (d : Dev) (i : Nat) (v : Word) : Nat :=
  let f (lsb w : Nat) : Nat := (fiF i 0 lsb w).of v
  let cell := decide (96 ≤ i) && decide (i < 160)
  let en := f 0 1 == 1
  if f 2 2 = 3 ∨ f 4 2 = 3 ∨ (f 2 2 = 2 ∧ f 1 1 = 1 ∧ (i < 96 ∨ 162 ≤ i)) then 9
  else if en && ((f 4 2 == 2 && decide (d.get (fiF i 4 0 16) < d.get (fiF i 4 16 8))) || (f 4 2 == 1 && d.get (fiF i 0xC 0 32) == 0)
    || (f 2 2 == 1 && f 16 8 == 0) || (f 6 1 == 1 && !cell)) then 9
  else if en && d.flag F.hrtFiGlobalLock then 10
  else if d.flag (fiF i 0 0 1) && (d.reg (fiBase i)).toNat / 2 != v.toNat / 2 then 10 else 0

/-- The check of a write to another register of an injector (R437). -/
def Dev.fiParCheck (d : Dev) (i : Nat) : Nat := if d.flag (fiF i 0 0 1) then 10 else 0

/-- An injector armed (R432): numbering and generator start anew. -/
def Dev.fiArm (d : Dev) (i : Nat) : Dev :=
  ((d.setInj i fun j => { j with u := 0, gen := d.get (fiF i 0xC 0 32), sel := 0 }).set (fiF i 0x14 0 1) 1).set F.hrtFiGlobalArmcnt
    (d.get F.hrtFiGlobalArmcnt + 1)

/-- An injector disarmed by the host: EN clear, a held unit released at once (R436). -/
def Dev.fiDisarm (fz : Fuses) (d : Dev) (i : Nat) : Dev := ((d.set (fiF i 0 0 1) 0).fiOff i).fiRelease fz i

/-- The effect of a write to CTL whose earlier value was `old`: EN = 0 disarms and releases, also after LIMIT has disarmed (R436). -/
def Dev.fiCtlGo (fz : Fuses) (d : Dev) (i : Nat) (old : Word) : Dev :=
  if !d.flag (fiF i 0 0 1) then d.fiDisarm fz i else if (fiF i 0 0 1).of old = 1 then d else d.fiArm i

/-- KILL (R436). -/
def Dev.fiKill (fz : Fuses) (d : Dev) : Dev := d.each (List.range 164) fun d i => d.fiDisarm fz i

/-- An injector of a cord that loses its state (R436): disarmed, its registers at reset, its held unit discarded with its buffers. -/
def Dev.fiLost (d : Dev) (i : Nat) : Dev :=
  let d1 := (d.fiOff i).dropRegs (fiBase i) (fiBase i + 0x1C)
  let d2 := match (d.inj i).held with
    | some u => d1.freeBufs u.bufs u.agent
    | none => d1
  { d2 with inj_ := Tbl.set {} d2.inj_ i {} }

/-- FI_UNIT (R432, R433, R435): a unit at the point of an injector that is armed or holds one, with what the stage behind it needs; a
sparing gap passes no cells. -/
def execFiUnit (i : Fin 164) (dir : Fin 2) (a b : Nat) (bytes : List Byte) (s : State) : Host.Outcome State Fault Refusal :=
  s.run fun fz d =>
    let cell := decide (96 ≤ i.val) && decide (i.val < 160)
    d.when ((d.flag (fiF i 0x14 0 1) || (d.inj i).held.isSome) && !(cell && d.cellsCut ((i.val - 96) / 32) dir)) fun d => d.through i dir (cell && (cellHdr bytes).type == 0) { pkt := { src := if i.val < 96 then i.val else a, bytes := bytes }, a := a, b := b } fun d u => d.fiNext fz i dir u

/-- FI_HOLD_TO (R433): a unit held for 1 ms is released. -/
def execFiHoldTo (i : Fin 164) (s : State) : Host.Outcome State Fault Refusal := s.run fun fz d =>
  d.when (d.inj i).held.isSome fun d => (d.fiRelease fz i).fiEvent i 0xFE

/-- TAP_ACTIVE (R440): the TAP leaves Test-Logic-Reset, where IEEE 1149.1 has loaded IDCODE (PRESUMED, log 87). -/
def execTapActive (s : State) : Host.Outcome State Fault Refusal := s.run fun _ d =>
  { d with tap := .idcode }.raise 0xFF [R.hrtFiGlobal]

/-- IDCODE: version 1, part 0x9624, manufacturer 0x0D7, and the 1 that IEEE 1149.1 puts in bit 0 (R439). -/
def tapIdcode : Word := 0x196241AF

/-- What the data register that an instruction selects captures: IDCODE, the 0 of BYPASS; the boundary register captures the balls. -/
def tapCaptured : TapInstr → Option Word
  | .idcode => some tapIdcode
  | .bypass | .other => some 0
  | _ => none

/-- TAP_INSTRUCTION (R439): an instruction other than the first three is loaded only while RESET_N is low with the supplies
valid; BYPASS is loaded in its place, and for a code that is not implemented. -/
def execTapInstruction (i : TapInstr) (s : State) : Host.Outcome State Fault Refusal := s.run fun _ d =>
  let free := i == .bypass || i == .idcode || i == .samplePreload
  let j := if i == .other then .bypass else if free || (d.inReset && d.powered) then i else .bypass
  { d with tap := j }.emit (.tap j (tapCaptured j))

end Sys2Proof.Machine
end

