-- ==== Sys2Proof/Machine/Pcie.lean ====
section
/-!
DEFINITION. The endpoint and the DMA rings: 12_host_interface and PCIE_PERST_N (R473). A ring's registers are written
through the host's access path, which calls the checks and effects of this file.
-/

namespace Sys2Proof.Machine

/-! ### A ring's registers (R333, R340) -/

/-- The field of an RXG or a TXG ring. -/
def ringF (tx : Bool) (rx tg : Nat → Fld) (r : Nat) : Fld := if tx then tg r else rx r

def ringEn (tx : Bool) (r : Nat) : Fld := ringF tx F.pciRxgCfgEn F.pciTxgCfgEn r
def ringHead (tx : Bool) (r : Nat) : Fld := ringF tx F.pciRxgHeadHead F.pciTxgHeadHead r
def ringTail (tx : Bool) (r : Nat) : Fld := ringF tx F.pciRxgTailTail F.pciTxgTailTail r
def ringFlbusy (tx : Bool) (r : Nat) : Fld := ringF tx F.pciRxgStatFlbusy F.pciTxgStatFlbusy r
def ringTodrop (tx : Bool) (r : Nat) : Fld := ringF tx F.pciRxgDropTodrop F.pciTxgDropTodrop r
def ringFldrop (tx : Bool) (r : Nat) : Fld := ringF tx F.pciRxgDropFldrop F.pciTxgDropFldrop r
def ringDropReg (tx : Bool) (r : Nat) : Nat := if tx then R.pciTxgDrop r else R.pciRxgDrop r

/-- The ring's entry among the rings' substates. -/
def ringKey (tx : Bool) (r : Nat) : Nat := if tx then 2048 + r else r
def Dev.ring (d : Dev) (tx : Bool) (r : Nat) : Ring := Tbl.get {} d.pcie.rings (ringKey tx r)
def Dev.setRing (d : Dev) (tx : Bool) (r : Nat) (f : Ring → Ring) : Dev :=
  d.setPcie fun x => { x with rings := Tbl.modify {} x.rings (ringKey tx r) f }

/-- 2^SIZE. -/
def Dev.ringSlots (d : Dev) (tx : Bool) (r : Nat) : Nat := 2 ^ d.get (ringF tx F.pciRxgCfgSize F.pciTxgCfgSize r)

/-- Descriptors the device holds: avail of an RXG ring, pend of a TXG ring (R333). -/
def Dev.ringHeld (d : Dev) (tx : Bool) (r : Nat) : Nat := unsignedOf 17 ((d.get (ringTail tx r) : Int) - (d.get (ringHead tx r) : Nat))

/-- FILL and ABOVE after a change; a rise of ABOVE sends the ring's message where `msg` allows one (R340). -/
def Dev.ringRefresh (d : Dev) (tx : Bool) (r : Nat) (msg : Bool) : Dev :=
  let fill := ringF tx F.pciRxgStatFill F.pciTxgStatFill r
  let above := ringF tx F.pciRxgStatAbove F.pciTxgStatAbove r
  if !d.flag (ringEn tx r) then (d.set fill 0).set above 0
  else
    let n := d.ringSlots tx r - d.ringHeld tx r
    let now := decide (d.get (ringF tx F.pciRxgLevelLevel F.pciTxgLevelLevel r) ≤ n)
    ((d.set fill n).setFlag above now).when (now && !d.flag above && msg && d.flag (ringF tx F.pciRxgCfgIrqen F.pciTxgCfgIrqen r)) fun x =>
      x.msixSend (d.get (ringF tx F.pciRxgCfgVec F.pciTxgCfgVec r))

/-- HEAD moved past completed descriptors. -/
def Dev.ringPass (d : Dev) (tx : Bool) (r n : Nat) : Dev :=
  (d.set (ringHead tx r) ((d.get (ringHead tx r) + n) % 131072)).ringRefresh tx r true

/-- An event of a ring, named in RLOG (R346). -/
def Dev.ringEvent (d : Dev) (tx : Bool) (r n : Nat) (addrs : List Nat) : Dev :=
  ((d.set F.pciEpRlogRing r).setFlag F.pciEpRlogDir tx).raise n addrs

/-- The host address of the descriptor of a count. -/
def Dev.descAddr (d : Dev) (tx : Bool) (r c : Nat) : Nat :=
  d.get (ringF tx F.pciRxgBasehiBase F.pciTxgBasehiBase r) * 2 ^ 32 + d.get (ringF tx F.pciRxgBaseloBase F.pciTxgBaseloBase r) * 64
    + 32 * (c % d.ringSlots tx r)

/-- Little-endian bytes of a number (R5). -/
def leBytes (n x : Nat) : List Byte := (List.range n).map fun i => BitVec.ofNat 8 (x / 2 ^ (8 * i))

/-! ### Receive rings (R334, R336, R337) -/

/-- BUFSZ in bytes. -/
def Dev.bufSz (d : Dev) (r : Nat) : Nat := 256 * 2 ^ d.get (F.pciRxgLevelBufsz r)

/-- Descriptors the packet at the head of the list needs. -/
def Dev.descsOf (d : Dev) (r : Nat) (x : QPkt) : Nat := max 1 ((x.pkt.bytes.length + d.bufSz r - 1) / d.bufSz r)

/-- Dwords 2 to 6 of the SOF descriptor with the packet's metadata (R334). -/
def rxMeta (p : Pkt) : List Nat :=
  let b (c : Bool) (n : Nat) : Nat := if c then 2 ^ n else 0
  [srctOf p.src * 2 ^ 18 + p.tagn * 2 ^ 20 + b p.otpid 22 + b p.itpid 23 + b p.mal 24 + b p.nest 25 + b p.emhit 26 + b p.tsport 27,
   p.otag + p.itag * 2 ^ 16, p.ts.ns, p.ts.sub + p.emcls * 2 ^ 16, p.srcn % 2 ^ 20]

/-- A completed RXG descriptor (R334). -/
def rxDesc (p : Pkt) (addr len : Nat) (sof eof : Bool) (status : Nat) : List Byte :=
  let m := if sof then rxMeta p else [0, 0, 0, 0, 0]
  let dw2 := len + (if sof then 2 ^ 16 else 0) + (if eof then 2 ^ 17 else 0) + m.headD 0
  leBytes 8 addr ++ leBytes 4 dw2 ++ (m.drop 1).flatMap (leBytes 4) ++ leBytes 4 (2 ^ 31 + status * 2 ^ 28)

/-- Data and then descriptors of the first `n` buffers of a frame, at the host's buffer addresses (R336, R341). -/
def Dev.writeDescs (d : Dev) (r : Nat) (p : Pkt) (addrs : List (BitVec 64)) (n status : Nat) : Dev :=
  let sz := d.bufSz r
  let h := d.get (F.pciRxgHeadHead r)
  let part (i : Nat) : List Byte := (p.bytes.drop (sz * i)).take sz
  let addr (i : Nat) : Nat := (addrs.getD i 0).toNat
  let d1 := d.each (List.range n) fun d i => d.emit (.dmaWrite (addr i / 64 * 64) (part i))
  d1.each (List.range n) fun d i => d.emit (.dmaWrite (d.descAddr false r (h + i)) (rxDesc p (addr i) (part i).length (i == 0) (i + 1 == n) status))

/-- Rings move data: the link is up, and not in L1 as in BANKED (R345). -/
def Dev.dmaOk (d : Dev) : Bool := d.flag F.pciEpStatDlup && d.released 12 && d.get F.hrtPwrStateCur != 2

/-- The write of TAIL (R333): an error code, 0 for none. -/
def Dev.ringTailCheck (d : Dev) (tx : Bool) (r : Nat) (v : Word) : Nat :=
  let step := unsignedOf 17 (((ringTail tx r).of v : Int) - (d.get (ringTail tx r) : Nat))
  if d.flag (ringEn tx r) && decide (d.ringSlots tx r - d.ringHeld tx r < step) then 9 else 0

/-- A TAIL write of the host in the clock of a completion applies before it; FILL and ABOVE are taken after both (R344). -/
def Dev.tailFirst (d : Dev) (tx : Bool) (r : Nat) (tail : Option (BitVec 17)) : Dev :=
  match tail with
  | none => d
  | some v => d.when (d.cordOn 12 && !d.pcie.perst && d.ringTailCheck tx r (v.setWidth 32) == 0) fun d =>
      (d.set (ringTail tx r) v.toNat).emit (.writeDone (if tx then R.pciTxgTail r else R.pciRxgTail r) 0)

/-- RXG_FRAME_WRITE (R14, R336, R340, R341): the head of the list, with the buffer addresses read from its descriptors. -/
def execRxgFrameWrite (r : Fin 2048) (addrs : List (BitVec 64)) (tail : Option (BitVec 17)) (s : State) : Host.Outcome State Fault Refusal :=
  s.run fun _ d0 =>
    let d := d0.tailFirst false r tail
    let still (d : Dev) : Dev := d.when tail.isSome fun d => d.ringRefresh false r true
    match (d.ring false r).pending with
    | [] => still d
    | x :: rest =>
      let n := d.descsOf r x
      if !d.dmaOk || !d.trafficOk 12 || !d.flag (F.pciRxgCfgEn r) || d.flag (F.pciRxgStatFlbusy r) || d.ringHeld false r < n then still d
      else
        (((d.writeDescs r x.pkt addrs n 0).setRing false r fun g => { g with pending := rest }).freeBufs x.bufs 28).ringPass false r n

/-- RXG_TIMEOUT (R337, R344). -/
def execRxgTimeout (r : Fin 2048) (s : State) : Host.Outcome State Fault Refusal := s.run fun _ d =>
  match (d.ring false r).pending with
  | [] => d
  | x :: rest =>
    d.when (d.flag (F.pciRxgCfgEn r) && decide (d.ringHeld false r < d.descsOf r x)) fun d =>
      (((d.setRing false r fun g => { g with pending := rest }).freeBufs x.bufs 28).count (F.pciRxgDropTodrop r) 1).ringEvent false r 0xF5
        [R.pciRxgDrop r]

/-! ### Transmit rings (R335, R338, R339) -/

/-- Fetched descriptors: those up to the last complete frame, and those of the open frame. -/
def splitOpen (l : List TxDesc) : List TxDesc × List TxDesc :=
  let n := (l.zipIdx.foldl (fun n x => if x.1.eof && x.1.status.isNone then x.2 + 1 else n) 0)
  (l.take n, l.drop n)

/-- Descriptors of a list without a STATUS take one. -/
def giveStatus (st : Nat) (l : List TxDesc) : List TxDesc := l.map fun t => if t.status.isNone then { t with status := some st } else t

/-- Frames among descriptors without a STATUS: complete ones, and an open one. -/
def framesIn (l : List TxDesc) : Nat :=
  let o := splitOpen l
  (o.1.filter fun t => t.eof && t.status.isNone).length + (if o.2.any fun t => t.status.isNone then 1 else 0)

/-- Dword 7 of a completed TXG descriptor written. -/
def Dev.txDone (d : Dev) (r c st : Nat) : Dev := d.emit (.dmaWrite (d.descAddr true r c + 28) (leBytes 4 (2 ^ 31 + st * 2 ^ 28)))

/-- Completed descriptors at the head of a ring are written in ring order, and HEAD passes them (R338). -/
def Dev.txSettle (d : Dev) (r : Nat) : Dev :=
  let l := (d.ring true r).fetched
  let done := l.takeWhile fun t => t.status.isSome
  let h := d.get (F.pciTxgHeadHead r)
  if done.isEmpty then d
  else ((d.each done.zipIdx fun d t => d.txDone r (h + t.2) (t.1.status.getD 0)).setRing true r fun g =>
    { g with fetched := l.drop done.length }).ringPass true r done.length

/-- A frame completed with STATUS 2 or 3 is counted and raised (R339, R346). -/
def Dev.txBad (d : Dev) (r st : Nat) : Dev :=
  (d.count (F.pciTxgDropTodrop r) 1).ringEvent true r (if st = 3 then 0xF5 else 0xF4) [R.pciTxgDrop r]

/-- Bytes held in the transmit store. -/
def Dev.txStore (d : Dev) : Nat :=
  d.pcie.rings.foldl (fun n x => n + (x.2.fetched.map fun t => if t.status.isSome then 0 else t.data.length).sum) 0

/-- A descriptor whose own fields are faulty (R339). -/
def descFaulty (ws : List Word) : Bool :=
  let w (i : Nat) : Nat := (ws.getD i 0).toNat
  w 2 % 65536 == 0 || w 2 / 2 ^ 18 != 0 || w 3 != 0 || w 4 != 0 || w 5 != 0 || w 6 != 0 || w 7 % 2 ^ 28 != 0

/-- A descriptor of a transmit ring read (R338, R339): the ring's own memory with it, and how many frames end in error there. A frame
with a faulty descriptor, or above 12,288 bytes, can no longer pass: its descriptors complete with STATUS 2 up to its EOF, counted and
raised once (log 50). -/
def Ring.take (g : Ring) (sof eof faulty : Bool) (data : List Byte) : Ring × Nat :=
  let o := splitOpen g.fetched
  let isOpen := o.2.any fun t => t.status.isNone
  let cut := isOpen && (sof || faulty)
  let l := if cut then o.1 ++ giveStatus 2 o.2 else g.fetched
  let fail := l ++ [⟨sof, eof, [], some 2⟩]
  if g.bad && !sof then ({ g with fetched := fail, bad := !eof }, 0)
  else if faulty then ({ g with fetched := fail, bad := !eof && (isOpen || sof) }, if isOpen && sof then 2 else 1)
  else if !isOpen && !sof then ({ g with fetched := fail, bad := false }, 1)
  else
    let cur := (if cut then [] else o.2) ++ [⟨sof, eof, data, none⟩]
    let total := (cur.map fun t => if t.status.isSome then 0 else t.data.length).sum
    let lost := if cut then 1 else 0
    let before := if cut then l else o.1
    if decide (12288 < total) || (eof && decide (total < 14)) then ({ g with fetched := before ++ giveStatus 2 cur, bad := !eof }, lost + 1)
    else ({ g with fetched := before ++ cur, bad := false }, lost)

/-- TXG_FETCH (R338, R339): the next descriptor's eight dwords and the data it names. -/
def execTxgFetch (r : Fin 2048) (words : List Word) (data : List Byte) (s : State) : Host.Outcome State Fault Refusal := s.run fun _ d =>
  let g := d.ring true r
  let len := (words.getD 2 0).toNat % 65536
  let sof := (words.getD 2 0).toNat.testBit 16
  let room := (g.bad && !sof) || decide (d.txStore + len ≤ 2 ^ 21)
  if !d.dmaOk || !d.flag (F.pciTxgCfgEn r) || d.flag (F.pciTxgStatFlbusy r) || d.ringHeld true r ≤ g.fetched.length || !room then d
  else
    let x := g.take sof ((words.getD 2 0).toNat.testBit 17) (descFaulty words) (fitBytes len data)
    ((d.setRing true r fun _ => x.1).each (List.range x.2) fun d _ => d.txBad r 2).txSettle r

/-- TXG_FRAME_SUBMIT (R338, R339): the first complete frame enters PKT, or is discarded under R11. -/
def execTxgFrameSubmit (r : Fin 2048) (tail : Option (BitVec 17)) (s : State) : Host.Outcome State Fault Refusal := s.run fun _ d0 =>
  let d := d0.tailFirst true r tail
  let still (d : Dev) : Dev := d.when tail.isSome fun d => d.ringRefresh true r true
  let l := (d.ring true r).fetched
  match l.zipIdx.find? fun x => x.1.eof && x.1.status.isNone with
  | none => still d
  | some (_, i) =>
    let frame := l.take (i + 1)
    let bytes := (frame.filter fun t => t.status.isNone).flatMap (·.data)
    let ok := d.trafficOk 8
    let d1 := d.setRing true r fun g => { g with fetched := giveStatus (if ok then 0 else 4) frame ++ l.drop (i + 1) }
    if !d.dmaOk then still d
    else if ok then (d1.linkPush 4 { src := 160, srcn := r, bytes := bytes }).txSettle r
    else (d1.count (F.pciTxgDropTodrop r) 1).txSettle r

/-- TXG_TIMEOUT (R339): EOF is not among the descriptors posted; those of the frame that wait for room in the store complete with it. -/
def execTxgTimeout (r : Fin 2048) (s : State) : Host.Outcome State Fault Refusal := s.run fun _ d =>
  let l := (d.ring true r).fetched
  let o := splitOpen l
  let unread : List TxDesc := List.replicate (d.ringHeld true r - l.length) ⟨false, false, [], some 3⟩
  d.when (o.2.any fun t => t.status.isNone) fun d =>
    ((d.setRing true r fun g => { g with fetched := o.1 ++ giveStatus 3 o.2 ++ unread }).txBad r 3).txSettle r

/-! ### Flush, disable and reset (R342 to R344) -/

/-- Descriptors posted and not yet read as the host's memory holds them: `ws` their dwords 2 and 3. Those that still belong to a frame
which has failed already are no frame of their own. -/
def Ring.posted (g : Ring) (ws : List (BitVec 64)) : List TxDesc :=
  let l : List TxDesc := ws.map fun v => ⟨v.getLsbD 16, v.getLsbD 17, [], none⟩
  if g.bad then (l.dropWhile fun t => !t.eof && !t.sof).drop (if ((l.dropWhile fun t => !t.eof && !t.sof).headD ⟨true, false, [], none⟩).sof then 0 else 1)
  else l

/-- Every waiting frame of a ring goes, with its buffers, counted in FLDROP; `ws` shows the transmit descriptors not yet read. -/
def Dev.ringEmpty (d : Dev) (tx : Bool) (r : Nat) (ws : List (BitVec 64)) : Dev :=
  let g := d.ring tx r
  let n := if tx then framesIn (g.fetched ++ g.posted (ws.take (d.ringHeld true r - g.fetched.length))) else g.pending.length
  ((d.each g.pending fun d x => d.freeBufs x.bufs 28).setRing tx r fun _ => {}).count (ringFldrop tx r) n

/-- A flush (R342): on RXG the descriptors whose data stands at `written` complete with STATUS 1; on TXG every posted one, of which
`written` shows those not yet read. -/
def Dev.ringFlush (d : Dev) (tx : Bool) (r : Nat) (written : List (BitVec 64)) : Dev :=
  let d1 := d.set (ringFlbusy tx r) 1
  if tx then
    let n := d.ringHeld true r
    let h := d.get (ringHead true r)
    ((d1.each (List.range n) fun d i => d.txDone r (h + i) 1).ringEmpty true r written).ringPass true r n
  else match (d.ring false r).pending with
    | [] => d1.ringRefresh false r true
    | x :: _ =>
      let n := if d.descsOf r x ≤ d.ringHeld false r then min written.length (d.descsOf r x) else 0
      ((d1.writeDescs r x.pkt written n 1).ringEmpty false r []).ringPass false r n

/-- The write of a ring's CFG (R333, R342): an error code, 0 for none. -/
def Dev.ringCfgCheck (d : Dev) (tx : Bool) (r : Nat) (v : Word) : Nat :=
  let size := (ringF tx F.pciRxgCfgSize F.pciTxgCfgSize r).of v
  if 2 ^ size < d.get (ringF tx F.pciRxgLevelLevel F.pciTxgLevelLevel r) then 9
  else if v.getLsbD 6 && d.flag (ringFlbusy tx r) then 0xA else 0

/-- After a write of CFG over `old`: enabling takes HEAD to TAIL, disabling and FLUSH empty the ring, a rise of IRQEN while
ABOVE is 1 sends the message (R333, R340, R342). -/
def Dev.ringCfgGo (d : Dev) (tx : Bool) (r : Nat) (old v : Word) (written : List (BitVec 64)) : Dev :=
  let was := (ringEn tx r).of old == 1
  let now := d.flag (ringEn tx r)
  let irq := ringF tx F.pciRxgCfgIrqen F.pciTxgCfgIrqen r
  let above := ringF tx F.pciRxgStatAbove F.pciTxgStatAbove r
  let d1 := if now && !was then (d.set (ringHead tx r) (d.get (ringTail tx r))).ringRefresh tx r true
    else d.when (irq.of old == 0 && d.flag irq && d.flag above) fun d => d.msixSend (d.get (ringF tx F.pciRxgCfgVec F.pciTxgCfgVec r))
  d1.when (v.getLsbD 6 || (was && !now)) fun d => d.ringFlush tx r written

/-- The write of LEVEL (R340): an error code, 0 for none. -/
def Dev.ringLevelCheck (d : Dev) (tx : Bool) (r : Nat) (v : Word) : Nat :=
  let n := (ringF tx F.pciRxgLevelLevel F.pciTxgLevelLevel r).of v
  if n < 1 || d.ringSlots tx r < n then 9 else 0

/-- PCI_FLUSH_DONE (R342). -/
def execPciFlushDone (tx : Bool) (r : Fin 2048) (s : State) : Host.Outcome State Fault Refusal := s.run fun _ d =>
  d.when (d.flag (ringFlbusy tx r)) fun d => (d.set (ringFlbusy tx r) 0).ringEvent tx r 0xF6 [ringDropReg tx r]

/-- A ring reset with its cause (R343); it ends a flush in progress (R344). -/
def Dev.ringReset (d : Dev) (tx : Bool) (r cause : Nat) : Dev :=
  let d1 := ((((d.ringEmpty tx r []).set (ringEn tx r) 0).set (ringHead tx r) 0).set (ringTail tx r) 0).set (ringFlbusy tx r) 0
  (d1.set (ringF tx F.pciRxgStatRstc F.pciTxgStatRstc r) cause).ringRefresh tx r false

def ringStatReg (tx : Bool) (r : Nat) : Nat := if tx then R.pciTxgStat r else R.pciRxgStat r

/-- PCI_RING_PTR (R343): the two copies of a pointer differ. -/
def execPciRingPtr (tx : Bool) (r : Fin 2048) (s : State) : Host.Outcome State Fault Refusal := s.run fun _ d =>
  d.when (d.cordOn 12 && !d.pcie.perst) fun d => (d.ringReset tx r 1).ringEvent tx r 0xF2 [ringStatReg tx r]

/-- The number of a capability's register among those that are written. -/
def cfgKey : CfgReg → Nat
  | .devCtl => 0
  | .linkCtl => 1
  | .devCtl2 => 2
  | .l1Ctl => 3
  | .aerStatus => 4
  | .aerMask => 5
  | .devCap | .linkCap | .devCap2 | .l1Cap | .intPin => 6

/-- A capability's register in the layout of PCIe 5.0 (log 69). The supported: 512 bytes of payload, width 8 at 32 GT/s, ASPM L1 with L1.1 and
L1.2 and no L0s, completion timeout ranges B, C and D and disable, 10-bit tags, no INTx (R327); 512 bytes of read request at reset. -/
def Dev.cfgReg (d : Dev) (r : CfgReg) : Word :=
  match r with
  | .devCap => 0x00008022
  | .linkCap => 0x00000885
  | .devCap2 => 0x0003001E
  | .l1Cap => 0x0000001C
  | .intPin => 0
  | .devCtl => Tbl.get 0x2000 d.pcie.caps (cfgKey r)
  | .linkCtl | .devCtl2 | .l1Ctl | .aerStatus | .aerMask => Tbl.get 0 d.pcie.caps (cfgKey r)

/-- A write to a capability's register: relaxed ordering and no-snoop stay 0, a status bit written 1 clears (R327). -/
def Dev.cfgRegWrite (d : Dev) (r : CfgReg) (v : Word) : Dev :=
  let put (z w : Word) : Dev := d.setPcie fun x => { x with caps := Tbl.set z x.caps (cfgKey r) w }
  match r with
  | .devCtl => put 0x2000 (v &&& 0x71EF#32)
  | .linkCtl => put 0 (v &&& 0x2#32)
  | .devCtl2 => put 0 (v &&& 0x101F#32)
  | .l1Ctl => put 0 (v &&& 0xC#32)
  | .aerStatus => put 0 (d.cfgReg .aerStatus &&& ~~~v)
  | .aerMask => put 0 v
  | .devCap | .linkCap | .devCap2 | .l1Cap | .intPin => d

/-- A read that ends badly stands in AER: a poisoned answer, or the device's own completion timeout (R327, log 69). -/
def Dev.aerNote (d : Dev) (why : DmaEnd) : Dev :=
  let bit (n : Nat) : Dev := d.setPcie fun x => { x with caps := Tbl.set 0 x.caps (cfgKey .aerStatus) (d.cfgReg .aerStatus ||| BitVec.ofNat 32 (2 ^ n)) }
  match why with
  | .errorCompletion => d
  | .poisoned => bit 12
  | .timeout => bit 14

/-- PCI_DMA_ERR (R327, R343, R344): a read of the ring ends badly, during a flush too, which ends with it; with the completion timeout
disabled none ends by that. -/
def execPciDmaErr (tx : Bool) (r : Fin 2048) (why : DmaEnd) (s : State) : Host.Outcome State Fault Refusal := s.run fun _ d =>
  d.when ((d.flag (ringEn tx r) || d.flag (ringFlbusy tx r)) && !(why == .timeout && (d.cfgReg .devCtl2).getLsbD 4)) fun d =>
    ((d.aerNote why).ringReset tx r 2).ringEvent tx r 0xF3 [ringStatReg tx r]

/-- The rings in service. -/
def Dev.enabledRings (d : Dev) : List (Bool × Nat) :=
  ((List.range 2048).filter fun r => d.flag (F.pciRxgCfgEn r)).map (fun r => (false, r))
    ++ ((List.range 2048).filter fun r => d.flag (F.pciTxgCfgEn r)).map fun r => (true, r)

/-! ### The link (R343, R346, R473) -/

/-- PCIE_LINK_UP (R346): speed code 1 to 5 and width. -/
def execPcieLinkUp (speed width : Nat) (s : State) : Host.Outcome State Fault Refusal := s.run fun _ d =>
  if !d.cordOn 12 || d.pcie.perst || speed < 1 || 5 < speed || !([1, 2, 4, 8].contains width) then d
  else
    let d1 := ((d.set F.pciEpStatSpeed speed).set F.pciEpStatWidth width).set F.pciEpStatDlup 1
    d1.when (decide (speed < 5) || decide (width < 8)) fun d => d.raise 0xF1 [R.pciEpStat]

/-- The link leaves DL_Up: every ring in service is reset, and the event is raised once. -/
def Dev.linkLost (d : Dev) : Dev :=
  d.when (d.flag F.pciEpStatDlup) fun d =>
    let d1 := ((d.set F.pciEpStatSpeed 0).set F.pciEpStatWidth 0).set F.pciEpStatDlup 0
    (d1.each d1.enabledRings fun d r => d.ringReset r.1 r.2 3).raise 0xF0 [R.pciEpStat]

/-- PCI_LINK_DOWN (R343, R346). -/
def execPciLinkDown (s : State) : Host.Outcome State Fault Refusal := s.run fun _ d => d.linkLost

/-- The ring registers at their reset values but for the pools the image gave them, and a cause in those that were in
service (R32, R473). -/
def Dev.ringRegsReset (d : Dev) (cause : Nat) : Dev :=
  let pools := (List.range 2048).map fun r => d.get (F.pciRxgCfgPool r)
  let rs := d.enabledRings
  let stat := ((List.range 2048).filter fun r => d.get (F.pciRxgStatRstc r) == cause).map (fun r => (false, r))
    ++ ((List.range 2048).filter fun r => d.get (F.pciTxgStatRstc r) == cause).map fun r => (true, r)
  let d0 := d.each rs fun d r => d.ringEmpty r.1 r.2 []
  let d1 := (d0.dropRegs (R.pciRxgBaselo 0) (R.pciTxgBaselo 2048)).setPcie fun x => { x with rings := [] }
  (d1.each pools.zipIdx fun d p => d.when (p.1 != 0) fun d => d.set (F.pciRxgCfgPool p.2) p.1).each stat fun d r =>
    d.set (ringF r.1 F.pciRxgStatRstc F.pciTxgStatRstc r.2) cause

/-- PCIE_PERST (R473). -/
def execPciePerst (low : Bool) (s : State) : Host.Outcome State Fault Refusal := s.run fun _ d =>
  if low then
    ((d.linkLost.ringRegsReset 3).setPcie fun x => { x with
      perst := true, bars := [], caps := [], memEnable := false, busMaster := false, msixEnable := false, msixFuncMask := false })
  else d.setPcie fun x => { x with perst := false }

/-! ### Configuration space and the MSI-X table (R327, R328) -/

/-- The value a BAR reads as. -/
def Dev.barValue (d : Dev) (i : Nat) : Word :=
  let v := Tbl.get 0 d.pcie.bars i
  if i = 0 then (v &&& 0xF0000000#32) ||| 4#32
  else if i = 2 then (v &&& 0xFFFF0000#32) ||| 4#32
  else if i = 1 ∨ i = 3 then v else 0

/-- CONFIGURATION_REQUEST (R34, R327, R328): answered while the endpoint is powered and out of its reset. -/
def execConfigurationRequest (q : CfgReq) (s : State) : Host.Outcome State Fault Refusal := s.run fun _ d =>
  if !d.cordOn 12 || d.pcie.perst then d
  else match q with
    | .readId => d.emit (.configDone 0x96241FD7)
    | .readClass => d.emit (.configDone 0x028000B1)
    | .readBar i => d.emit (.configDone (d.barValue i))
    | .writeBar i v => (d.setPcie fun x => { x with bars := Tbl.set 0 x.bars i v }).emit (.configDone 0)
    | .command m b => (d.setPcie fun x => { x with memEnable := m, busMaster := b }).emit (.configDone 0)
    | .msix e f => (d.setPcie fun x => { x with msixEnable := e, msixFuncMask := f }).emit (.configDone 0)
    | .readReg r => d.emit (.configDone (d.cfgReg r))
    | .writeReg r v => (d.cfgRegWrite r v).emit (.configDone 0)

/-- What BAR2 holds at an offset: the MSI-X table, the PBA, and zero elsewhere (R328, log 69). -/
def Dev.bar2 (d : Dev) (o : Nat) : Word :=
  let m := Tbl.get {} d.msixTable (o / 16)
  if o < 0x2000 then
    (if o / 4 % 4 = 0 then m.addrLo else if o / 4 % 4 = 1 then m.addrHi else if o / 4 % 4 = 2 then m.data else BitVec.ofNat 32 m.masked.toNat)
  else if o < 0x2040 then
    BitVec.ofNat 32 ((List.range 32).foldl (fun n i => if d.msixHeld.contains (8 * (o - 0x2000) + i) then setBit n i else n) 0)
  else 0

/-- MSIX_TABLE_WRITE (R328): an access of 4 bytes through BAR2; a write outside the table is dropped. -/
def execMsixTableWrite (ofs : BitVec 16) (v : Option Word) (s : State) : Host.Outcome State Fault Refusal := s.run fun _ d =>
  let o := ofs.toNat / 4 * 4
  if !d.cordOn 12 then d
  else match v with
    | none => d.emit (.bar2Read o (d.bar2 o))
    | some v =>
      if 0x2000 ≤ o then d
      else { d with msixTable := Tbl.modify {} d.msixTable (o / 16) fun m =>
        if o / 4 % 4 = 0 then { m with addrLo := v } else if o / 4 % 4 = 1 then { m with addrHi := v }
        else if o / 4 % 4 = 2 then { m with data := v } else { m with masked := v.getLsbD 0 } }

/-- MSIX_HELD_SEND (R427): a held message leaves once it can. -/
def execMsixHeldSend (v : Fin 512) (s : State) : Host.Outcome State Fault Refusal := s.run fun _ d =>
  d.when (d.msixHeld.contains v.val && d.msixReady v) fun d =>
    ({ d with msixHeld := d.msixHeld.filter (· != v.val) }).msixEmit v

end Sys2Proof.Machine
end

