-- ==== Sys2Proof/Machine/RegWrite.lean ====
section
/-!
DEFINITION. Reading and writing registers: the field types of R7, the checks of R8, R9 and R456 in their order, what each
register shows beside its stored value, and what a write does beside storing. The commands of the system cord (sparing,
power, configuration, mailbox) stand in HostCmds.
-/

namespace Sys2Proof.Machine

/-! ### Field types and ranges (R7 to R9) -/

/-- A value lies in a stated range. -/
def FieldRange.ok (r : FieldRange) (w n : Nat) : Bool :=
  match r with
  | .any => true
  | .nat lo hi => decide (lo ≤ n) && decide (n ≤ hi)
  | .int lo hi => decide (lo ≤ signedOf w n) && decide (signedOf w n ≤ hi)
  | .odd lo hi => decide (lo ≤ n) && decide (n ≤ hi) && n % 2 == 1

/-- The host may write a field of this type. -/
def FieldType.writable (t : FieldType) : Bool :=
  match t with
  | .rw | .rwq | .wo => true
  | .ro | .rc | .w1c => false

/-- A field keeps what is written and shows it. -/
def FieldType.kept (t : FieldType) : Bool :=
  match t with
  | .rw | .rwq => true
  | .ro | .rc | .w1c | .wo => false

def FieldRow.fld (f : FieldRow) (a : Nat) : Fld := ⟨a, f.lsb, f.width⟩

/-- All fields of a register as a mask; the other bits are reserved. -/
def RegRow.mask (r : RegRow) : Word := r.fields.foldl (fun m f => (f.fld 0).put m (2 ^ f.width - 1)) 0

/-- A register value with only the fields of a kind, the rest zero. -/
def RegRow.only (r : RegRow) (p : FieldType → Bool) (v : Word) : Word :=
  r.fields.foldl (fun a f => if p f.ty then (f.fld 0).put a ((f.fld 0).of v) else a) 0

/-- What a register holds after a write of `v` over `old` (R7). A WO field of 32 bits is a value the device keeps; a smaller one
is a command bit, which acts and holds nothing. -/
def RegRow.merge (r : RegRow) (old v : Word) : Word :=
  r.fields.foldl (fun a f =>
    let g := f.fld 0
    match f.ty with
    | .rw | .rwq => g.put a (g.of v)
    | .wo => if f.width = 32 then v else a
    | .w1c => a &&& ~~~((g.put 0 (2 ^ f.width - 1)) &&& v)
    | .ro | .rc => a) old

/-- What a read of a register leaves in it: its RC fields at their reset value (R7). -/
def RegRow.afterRead (r : RegRow) (a : Nat) (v : Word) : Word :=
  r.fields.foldl (fun x f => match f.ty with
    | .rc => (f.fld 0).put x ((f.fld 0).of (regReset a))
    | .rw | .rwq | .wo | .w1c | .ro => x) v

/-! ### Control levels (R382) -/

/-- The bit of a function group in CTLLEVEL (R364). -/
def Group.bit : Group → Nat
  | .line => 0
  | .shared => 1
  | .crypto => 2
  | .sparing => 3
  | .lanes => 4
  | .mac => 5
  | .packet => 6
  | .queue => 7
  | .time => 8
  | .power => 9

/-- A group is at expert level under a level mask; a register of no group is written by the host at both levels. -/
def expertIn (m : Nat) (g : Option Group) : Bool :=
  match g with
  | none => true
  | some g => m.testBit g.bit

/-- A group is at expert level. -/
def Dev.expert (d : Dev) (g : Option Group) : Bool := expertIn (d.get F.hrtCfgCtllvlExpert) g

/-! ### Instances -/

/-- The port or lane of a register of HSA or HSB. -/
def RegAt.port (r : RegAt) : Nat := 48 * r.ci + r.bi

/-- The injector of an injector register. -/
def RegAt.injector (r : RegAt) : Nat :=
  match r.row.name with
  | .hsFiCtl | .hsFiPar | .hsFiRate | .hsFiSeed | .hsFiLimit | .hsFiStat | .hsFiCnt => r.port
  | .lfFiCtl | .lfFiPar | .lfFiRate | .lfFiSeed | .lfFiLimit | .lfFiStat | .lfFiCnt => 96 + 32 * r.ci + r.bi
  | _ => 160 + r.bi

/-- The cord of an address. -/
def cordOf (a : Nat) : Nat := a / 2 ^ 24

/-! ### The checks of a write -/

/-- A selector of CVA or CVB names the engine. -/
def Dev.selected (d : Dev) (e : Nat) : Bool := [0, 1].any fun w => (d.receivers w).contains e || d.get (F.cvSelStatTxeng w) == e

/-- The RWQ fields of a register may change: an engine that no selector names, a table without entry or learning, a ring
out of service (R7). -/
def Dev.quiesced (d : Dev) (r : RegAt) : Bool :=
  match r.row.name with
  | .leRxcCfg | .leTxcCfg => !d.selected r.ci
  | .pktEmtSeed0 | .pktEmtSeed1 => d.pkt.slots.isEmpty && !(List.range 96).any fun p => d.flag (F.pktLrnPqEn p)
  | .pciRxgBaselo | .pciRxgBasehi | .pciRxgCfg | .pciRxgLevel => !d.flag (ringEn false r.i) && !d.flag (ringFlbusy false r.i)
  | .pciTxgBaselo | .pciTxgBasehi | .pciTxgCfg | .pciTxgLevel => !d.flag (ringEn true r.i) && !d.flag (ringFlbusy true r.i)
  | _ => true

/-- Codes 7, 8 and 9 as far as the register table gives them; `quiet` where RWQ fields count as quiesced (R365). -/
def Dev.tableCode (d : Dev) (a : Nat) (r : RegAt) (v : Word) (quiet : Bool) : Nat :=
  let changed := r.row.fields.any fun f => f.ty == .rwq && (f.fld 0).of v != (f.fld 0).of (d.reg a)
  if changed && !quiet && !d.quiesced r then 7
  else if v &&& ~~~r.row.mask ≠ 0 then 8
  else if r.row.fields.any fun f => f.ty.writable && !f.range.ok f.width ((f.fld 0).of v) then 9 else 0

/-- The reserved bits and ranges of a word of an action (R233). -/
def actionCode (w : Nat) (v : Word) : Nat :=
  if (w = 0 ∧ v.toNat % 2 ^ 31 ≠ 0) ∨ (w = 2 ∧ v.toNat / 2 ^ 16 % 16 ≠ 0) then 8
  else if w = 2 ∧ v.toNat / 2 ^ 20 % 4 = 3 then 9 else 0

/-- The check of a host write to a key slot's fuses (R455). -/
def Dev.krevCheck (d : Dev) (v : Word) : Nat :=
  let b := F.hrtGlbKrevBlow.of v
  let active := !d.flag F.hrtCfgStatBootpend && !d.flag F.hrtCfgStatNoimg
  if b.testBit 0 || (active && b.testBit d.img.kslot) then 10 else 0

/-- The check of a lane's CFG (R303, R304). -/
def Dev.lnCfgCheck (d : Dev) (l : Nat) (v : Word) : Nat :=
  let rate := d.laneRate l
  let nrz := !d.pam4 l
  let an := (F.hsLnCfgAnen l).of v == 1 && (rate == 3 || (rate == 4 && d.get (F.hsMacBondLanes (d.firstLane l)) == 8))
  if an || (F.hsLnCfgPre l).of v == 3 || (nrz && (F.hsLnCfgPre l).of v == 2) || (nrz && (F.hsLnCfgRxpre l).of v == 1) then 9 else 0

/-- Codes 8, 9 and 10 that the chapter of a register gives. -/
def Dev.chapterCode (d : Dev) (r : RegAt) (v : Word) : Nat :=
  let ge (c : Bool) (n : Nat) : Nat := if c then n else 0
  match r.row.name with
  | .hrtClkDisc =>
    ge ((F.hrtClkDiscEn.of v == 1 && !(d.wave (F.hrtClkDiscSrc.of v)).leaf)
      || (d.flag F.hrtClkDiscEn && F.hrtClkDiscSrc.of v != d.get F.hrtClkDiscSrc)) 9
  | .leRxcCdcfg | .leRxcCfg | .leRxcLsrcfg | .leRxsEqcfg | .leRxsLlrcfg | .leRxsQthr | .leTxsShape | .leTxmBin | .leTxcMaskctl
  | .leTxcCfg | .leTxpTap => ge (d.rxWritesRefused r.ci) 10
  | .cvTrdCmd => d.trdCheck r.ci v
  | .lfPrfCode => ge (decide (0x1F < (F.lfPrfCodeCode 0 0).of v)) 9
  | .lfPrfReq => d.prfCheck r.ci v
  | .lfCryKcmd => d.kcmdCheck r.ci v
  | .lfCryKsw => d.kswCheck r.ci v
  | .pktPrsTcommit => ge (F.pktPrsTcommitGo.of v == 1 && d.flag F.pktPrsTcommitBusy) 10
  | .pktClsKeyw | .pktClsMaskw => ge (d.flag F.pktClsStatBusy) 10
  | .pktClsActw => let x := actionCode r.i v; if x = 0 then ge (d.flag F.pktClsStatBusy) 10 else x
  | .pktClsDefact => actionCode r.i v
  | .pktClsMirror => ge (v.getLsbD 13 && decide (2048 ≤ v.toNat % 8192)) 9
  | .pktClsCmd => let x := clsCheck v; if x = 0 then ge (F.pktClsCmdGo.of v == 1 && d.flag F.pktClsStatBusy) 10 else x
  | .pktEmtKey | .pktEmtAge => ge (d.flag F.pktEmtStatBusy) 10
  | .pktEmtRes =>
    let p := v.toNat / 2 ^ 21 % 128
    if 96 ≤ p ∧ p < 127 then 9 else ge (d.flag F.pktEmtStatBusy) 10
  | .pktEmtIdx => if v.getLsbD 24 && decide (64 ≤ v.toNat % 2 ^ 21) then 9 else ge (d.flag F.pktEmtStatBusy) 10
  | .pktEmtCmd => let x := emtCheck v; if x = 0 then ge (F.pktEmtCmdGo.of v == 1 && d.flag F.pktEmtStatBusy) 10 else x
  | .bufSmpSel => d.smpCheck v
  | .bufQmCmd => d.qmCheck v
  | .bufPclsMax =>
    let n := (F.bufPclsMaxMax 0).of v
    ge (decide (n < d.get (F.bufPclsMinMin r.i)) || decide (d.get (F.bufPoolCfgSize (r.i / 16)) < n)) 9
  | .bufPoolLow =>
    let mins := ((List.range 16).map fun c => d.get (F.bufPclsMinMin (16 * r.i + c))).sum
    ge (decide (d.get (F.bufPoolCfgSize r.i) - mins < (F.bufPoolLowLowthr 0).of v)) 9
  | .bufQShp | .bufShgShp => ge (v.getLsbD 31 && v.toNat % 2 ^ 22 == 0) 9
  | .hsMacFc => ge ((F.hsMacFcGen 0).of v == 1 && (F.hsMacFcMode 0).of v == 0) 9
  | .hsMacFcthr =>
    let k := max 1 (d.get (F.hsMacBondLanes r.port))
    ge (decide ((F.hsMacFcthrXoff 0).of v ≤ (F.hsMacFcthrXon 0).of v) || decide (k * 512 < (F.hsMacFcthrXoff 0).of v)) 9
  | .hsMacGctl => d.gclCheck r.port v
  | .hsMacGclG | .hsMacGclT => ge (d.flag (F.hsMacGctlPend r.port)) 10
  | .hsMacLpi =>
    ge ((F.hsMacLpiEn 0).of v == 1 && !(d.get (F.hsMacBondClass r.port) == 0 && [1, 2, 4].contains (d.get (F.hsMacBondLrate r.port)))) 9
  | .hsMacPark => d.parkCheck r.port v
  | .hsLnCfg => d.lnCfgCheck r.port v
  | .hsLnLoop => d.loopCheck r.port v
  | .hsLnPrbs => d.prbsCheck r.port v
  | .pciRxgCfg => d.ringCfgCheck false r.i v
  | .pciTxgCfg => d.ringCfgCheck true r.i v
  | .pciRxgTail => d.ringTailCheck false r.i v
  | .pciTxgTail => d.ringTailCheck true r.i v
  | .pciRxgLevel => d.ringLevelCheck false r.i v
  | .pciTxgLevel => d.ringLevelCheck true r.i v
  | .hrtTimStepctl => d.stepCheck v
  | .hrtSnsTthr => ge (decide (F.hrtSnsTthrTrip.of v < F.hrtSnsTthrWarn.of v + 5)) 9
  | .hrtMbxReq => ge (d.flag F.hrtMbxCtlBusy) 10
  | .hrtGlbKrev => d.krevCheck v
  | .hsFiCtl | .lfFiCtl | .pktFiCtl => d.fiCtlCheck r.injector v
  | .hsFiPar | .hsFiRate | .hsFiSeed | .hsFiLimit | .hsFiStat | .hsFiCnt | .lfFiPar | .lfFiRate | .lfFiSeed | .lfFiLimit | .lfFiStat
  | .lfFiCnt | .pktFiPar | .pktFiRate | .pktFiSeed | .pktFiLimit | .pktFiStat | .pktFiCnt => d.fiParCheck r.injector
  | _ => 0

/-- The traffic enables of R33: a queue's EN, a ring's EN, the terminal's ACTEN. -/
def RegName.enable : RegName → Option (Nat × Nat)
  | .bufQPar => some (31, 1)
  | .pciRxgCfg | .pciTxgCfg => some (5, 1)
  | .lfActCfg => some (0, 1)
  | _ => none

/-- A write that a withdrawn or unreleased cord refuses (R33, R374). -/
def Dev.withheld (d : Dev) (a : Nat) (r : RegAt) (v : Word) : Bool :=
  let c := cordOf a
  d.cordSt c == 6 || (!d.released c && match r.row.name.enable with
    | some (b, _) => v.getLsbD b
    | none => false)

/-- The code a write meets, 0 for none (R456): `host` for a host access, which R382 governs. -/
def Dev.writeCode (d : Dev) (a : Nat) (r : RegAt) (v : Word) (host : Bool) : Nat :=
  if host && !d.expert r.row.group then 6
  else
    let t := d.tableCode a r v false
    if t ≠ 0 then t
    else
      let c := d.chapterCode r v
      if c ≠ 0 then c else if d.withheld a r v then 10 else 0

/-! ### What a write does beside storing -/

/-- A write of an event source's control (R426, R427): the message when its group has become pending. -/
def Dev.evtGo (d : Dev) (n : Nat) (was : Bool) : Dev := d.groupEdge (n / 16) was

/-- A write that sets MSIEN while the group is pending sends the message once (R427). -/
def Dev.gcfgGo (d : Dev) (g : Nat) (old : Word) : Dev :=
  d.when ((F.hrtEvtGcfgMsien g).of old == 0 && d.flag (F.hrtEvtGcfgMsien g) && d.groupPending g) fun d => d.msixSend (d.get (F.hrtEvtGcfgVec g))

/-- What a write to a register of an engine holds back (R66): the value in use stays until the next line frame for SCALE, SATTHR,
GAIN and the FIR's taps, the next superframe for TAPS, ROLLOFF, ATT and TRBW, the next acquisition for PRESET. The model's choice
(log 70): a write that leaves TAPS and ROLLOFF at the same values does not reinitialise the taps (R49). -/
def Dev.holdBack (d : Dev) (r : RegAt) (old v : Word) : Dev :=
  let e := r.ci
  let keep (t : Held) (l : List Fld) : Held := l.foldl (fun t f => t.add f old v d.time.ticks) t
  let line (l : List Fld) (d : Dev) : Dev := d.setEng e fun g => { g with oldLine := keep g.oldLine l }
  let sf (l : List Fld) (d : Dev) : Dev := d.setEng e fun g => { g with oldSf := keep g.oldSf l }
  match r.row.name with
  | .leRxsLlrcfg => line [F.leRxsLlrcfgScale e r.bi, F.leRxsLlrcfgSatthr e r.bi] d
  | .leTxsShape => sf [F.leTxsShapeRolloff e r.bi] (line [F.leTxsShapeGain e r.bi] d)
  | .leTxpTap => line [F.leTxpTapCoef e r.i r.j] d
  | .leTxmBin => sf [F.leTxmBinAtt e r.i] d
  | .leRxsEqcfg => sf [F.leRxsEqcfgTaps e r.bi, F.leRxsEqcfgRolloff e r.bi] d
  | .leRxcCfg => sf [F.leRxcCfgTrbw e] d
  | .leRxcCdcfg => d.setEng e fun g => { g with oldAcq := keep g.oldAcq [F.leRxcCdcfgPreset e] }
  | _ => d

/-- The effects of an accepted write of `v` over `old`, by register; `written` is what the host's memory answered to a
flushed ring's frame in progress. -/
def Dev.writeGo (fz : Fuses) (d : Dev) (r : RegAt) (old v : Word) (written : List (BitVec 64)) : Dev :=
  match r.row.name with
  | .hrtClkDisc => d.discipline
  | .leRxsEqcfg | .leRxsLlrcfg | .leTxsShape | .leTxpTap | .leTxmBin | .leRxcCfg | .leRxcCdcfg => d.holdBack r old v
  | .leTxcMaskctl => d.when ((F.leTxcMaskctlUnmute r.ci).of v == 1) fun d => d.unmute r.ci
  | .cvTrdCmd => d.trdGo r.ci v
  | .lfPmCtl => d.when ((F.lfPmCtlClear r.ci).of v == 1) fun d => d.setWave r.ci fun x => { x with pmClear := true }
  | .lfActCfg => d.actenWritten r.ci
  | .lfActCtl => d.actCtl r.ci v
  | .lfPrfReq => d.prfGo r.ci v
  | .lfCryKcmd => d.kcmdGo r.ci v
  | .lfCryKsw => d.kswGo r.ci v
  | .lfCrytCtl => d.when ((F.lfCrytCtlClrflt r.ci r.bi).of v == 1) fun d => d.clrFltTx r.ci r.bi
  | .lfCryrCtl => d.when ((F.lfCryrCtlClrflt r.ci r.bi).of v == 1) fun d => d.clrFltRx r.ci r.bi
  | .pktPrsTcommit => d.tmplGo v
  | .pktClsCmd => d.clsGo v
  | .pktEmtCmd => d.emtGo v
  | .bufSmpSel => d.smpGo v
  | .bufQmCmd => d.qmGo v
  | .hsMacCfg => d.noteLimits r.port old
  | .hsMacGctl => d.gclGo r.port v
  | .hsMacPark => d.parkGo r.port v
  | .hsMacTxtsctl => d.when ((F.hsMacTxtsctlPop r.port).of v == 1) fun d => d.txtsPop r.port
  | .hsLnLoop => d.loopGo r.port
  | .hsLnPrbs => d.prbsGo r.port old
  | .pciRxgCfg => d.ringCfgGo false r.i old v written
  | .pciTxgCfg => d.ringCfgGo true r.i old v written
  | .pciRxgTail => d.ringRefresh false r.i true
  | .pciRxgLevel => d.ringRefresh false r.i false
  | .pciTxgTail => d.ringRefresh true r.i true
  | .pciTxgLevel => d.ringRefresh true r.i false
  | .hrtTimStepctl => d.stepGo v
  | .hrtTimNsbase => d.nsBaseGo
  | .hrtTimPpscfg => d.ppsOff
  | .hrtEvtGcfg => d.gcfgGo r.i old
  | .hrtGlbKrev => { d with blown := d.blown ||| F.hrtGlbKrevBlow.of v }
  | .hsFiCtl | .lfFiCtl | .pktFiCtl => d.fiCtlGo fz r.injector old
  | .hrtFiGlobal => d.when (F.hrtFiGlobalKill.of v == 1) fun d => d.fiKill fz
  | _ => d

/-- An accepted write stored and acted on. The registers of sources never raised take nothing (R459), nor do those of the rings while PERST
is low (R473). -/
def Dev.applyWrite (fz : Fuses) (d : Dev) (a : Nat) (r : RegAt) (v : Word) (written : List (BitVec 64)) : Dev :=
  let old := d.reg a
  if d.pcie.perst && decide (R.pciRxgBaselo 0 ≤ a) && decide (a < R.pciTxgBaselo 2048) then d
  else if r.row.name = .hrtEvtSrcCtl then
    (if neverRaised r.i then d
     else
      let was := d.groupPending (r.i / 16)
      (d.setReg a (r.row.merge old v)).evtGo r.i was)
  else (d.setReg a (r.row.merge old v)).writeGo fz r old v written

/-! ### What a read shows and does -/

/-- The value of a register before its WO fields are hidden: fused values, the counter, the event tree, else what is stored. -/
def Dev.rawValue (fz : Fuses) (d : Dev) (a : Nat) (r : RegAt) : Word :=
  match r.row.name with
  | .hrtGlbSerlo => BitVec.ofNat 32 fz.serial
  | .hrtGlbSerhi => BitVec.ofNat 32 (fz.serial / 2 ^ 32)
  | .hrtGlbKhash => BitVec.ofNat 32 (beAt (fz.khash.getD r.i []) (4 * r.j) 4)
  | .hrtGlbKrev => BitVec.ofNat 32 ((fz.krev ||| d.blown) % 16)
  | .hrtEvtSrcCtl | .hrtEvtSrcFirstns | .hrtEvtSrcFirstw => if neverRaised r.i then 0 else d.reg a
  | .hrtEvtGstat =>
    let st := (List.range 16).foldl (fun m k => if d.flag (F.hrtEvtSrcCtlStat (16 * r.i + k)) then setBit m k else m) 0
    BitVec.ofNat 32 (if d.groupPending r.i then setBit st 16 else st)
  | .hrtEvtTop => BitVec.ofNat 32 ((List.range 16).foldl (fun m g => if d.groupPending g then setBit m g else m) 0)
  | _ => match d.timeView a with
    | some n => BitVec.ofNat 32 n
    | none => d.reg a

/-- What a read returns (R7): WO fields as zero. -/
def Dev.readValue (fz : Fuses) (d : Dev) (a : Nat) (r : RegAt) : Word :=
  r.row.only (· != .wo) (d.rawValue fz a r)

/-- The byte count of a port read by its low half, which clears; its high half is latched. -/
def Dev.latchBytes (d : Dev) (p : Nat) (rx : Bool) : Dev :=
  let hi (n : Nat) : Nat := n / 2 ^ 32
  if rx then
    ((d.set (F.hsMacRxbyhiCount p) (hi (d.mac p).rxBytes)).set (F.hsMacRxbyloCount p) 0).setMac p fun m => { m with rxBytes := hi m.rxBytes * 2 ^ 32 }
  else
    ((d.set (F.hsMacTxbyhiCount p) (hi (d.mac p).txBytes)).set (F.hsMacTxbyloCount p) 0).setMac p fun m => { m with txBytes := hi m.txBytes * 2 ^ 32 }

/-- What a read does: RC fields clear, MAX of a sensor starts at the reading, the rest of a group is latched (R7, R352, R420,
R457). -/
def Dev.readEffect (d : Dev) (a : Nat) (r : RegAt) : Dev :=
  let d1 := d.setReg a (r.row.afterRead a (d.reg a))
  match r.row.name with
  | .hrtTimNs | .hrtTimPpsinns | .hrtTimWlRxsfn | .hrtTimWlTxsfn | .hrtTimWlBseq | .hrtTimWlTodrsfn => d1.latchGroup a
  | .hsMacRxbylo => d1.latchBytes r.port true
  | .hsMacTxbylo => d1.latchBytes r.port false
  | .hrtSnsTemp => d1.set (F.hrtSnsTempMax r.i) (d1.get (F.hrtSnsTempTemp r.i))
  | .hrtGlbAerr => d1.set F.hrtGlbAerradrAddr d.aerrAdr
  | _ => d1

/-! ### Access errors (R428, R456, R457) -/

/-- An access error recorded, and REG_REJECT raised. -/
def Dev.accessError (d : Dev) (code a : Nat) (wr : Bool) : Dev :=
  let d1 := ((((d.set F.hrtGlbAerrCode code).set F.hrtGlbAerrCord (cordOf a % 16)).setFlag F.hrtGlbAerrWr wr).set F.hrtGlbAerrStk 1).count
    F.hrtGlbAerrCount 1
  { d1 with aerrAdr := a }.raiseWords 0x01 [d1.reg R.hrtGlbAerr, BitVec.ofNat 32 a]

end Sys2Proof.Machine
end

