-- ==== Sys2Proof/Machine/Signature.lean ====
section
/-!
DEFINITION. SHA-384 (FIPS 180-4) and the verification of ECDSA P-384 (FIPS 186), the standards that R366 and R408 name.
-/

namespace Sys2Proof.Machine

/-- A function of a number that is evaluated before the function is applied. -/
def evalNat {α : Type} (n : Nat) (f : Nat → α) : α :=
  match n with
  | 0 => f 0
  | k + 1 => f (k + 1)

theorem evalNat_eq {α : Type} (n : Nat) (f : Nat → α) : evalNat n f = f n := by cases n <;> rfl

/-! ### SHA-384 -/

/-- The first primes in order: below 410 there are 80 of them, and a number below 410 that no number up to 20 divides is one. -/
def shaPrimes : List Nat := (List.range' 2 408).filter fun n => (List.range' 2 19).all fun q => n % q != 0 || q == n

/-- The integer part of the `k`-th root of `n`: the `b` bits below the part of it found so far, from the top. -/
def rootBits (k n : Nat) : Nat → Nat → Nat
  | 0, r => r
  | b + 1, r => evalNat (if (r + 2 ^ b) ^ k ≤ n then r + 2 ^ b else r) (rootBits k n b)

/-- The first 64 bits of the fraction of the `k`-th root of a prime below 410, the form in which FIPS 180-4 gives its constants. -/
def rootFrac (k q : Nat) : Nat := rootBits k (q * 2 ^ (64 * k)) 69 0 % 2 ^ 64

/-- The round constants come from the cube roots of the first 80 primes. -/
def shaK : List Nat := shaPrimes.map (rootFrac 3)

/-- The initial hash value of SHA-384 comes from the square roots of the ninth to the sixteenth prime. -/
def shaInit : List Nat := ((shaPrimes.drop 8).take 8).map (rootFrac 2)

/-- A 64-bit word rotated to the right. -/
def rotr (n x : Nat) : Nat := x / 2 ^ n + x % 2 ^ n * 2 ^ (64 - n)

/-- The next word of the message schedule from the 16 before it, packed with the oldest in the top bits. -/
def shaSchedule (w : Nat) : Nat :=
  let at_ (i : Nat) : Nat := w / 2 ^ (64 * (15 - i)) % 2 ^ 64
  let s0 := rotr 1 (at_ 1) ^^^ rotr 8 (at_ 1) ^^^ (at_ 1 / 2 ^ 7)
  let s1 := rotr 19 (at_ 14) ^^^ rotr 61 (at_ 14) ^^^ (at_ 14 / 2 ^ 6)
  (at_ 0 + s0 + at_ 9 + s1) % 2 ^ 64

/-- The rounds of one block: their constants, the 16 words of the schedule in use, the eight working words. -/
def shaRounds : List Nat → Nat → Nat → Nat → Nat → Nat → Nat → Nat → Nat → Nat → List Nat
  | [], _, a, b, c, d, e, f, g, h => [a, b, c, d, e, f, g, h]
  | k :: ks, w, a, b, c, d, e, f, g, h =>
    let ch := (e &&& f) ^^^ ((2 ^ 64 - 1 - e) &&& g)
    let maj := (a &&& b) ^^^ (a &&& c) ^^^ (b &&& c)
    evalNat (h + (rotr 14 e ^^^ rotr 18 e ^^^ rotr 41 e) + ch + k + w / 2 ^ 960) fun t =>
    evalNat ((t + (rotr 28 a ^^^ rotr 34 a ^^^ rotr 39 a) + maj) % 2 ^ 64) fun a' =>
    evalNat ((d + t) % 2 ^ 64) fun e' =>
    evalNat (w % 2 ^ 960 * 2 ^ 64 + shaSchedule w) fun w' => shaRounds ks w' a' a b c e' e f g

/-- One block of 1,024 bits taken into the hash value. -/
def shaBlock (hv : List Nat) (w : Nat) : List Nat :=
  let v (i : Nat) := hv.getD i 0
  List.zipWith (fun x y => (x + y) % 2 ^ 64) hv (shaRounds shaK w (v 0) (v 1) (v 2) (v 3) (v 4) (v 5) (v 6) (v 7))

/-- The blocks of a padded message of `n` blocks, taken in order. -/
def shaBlocks (p : Nat) : Nat → List Nat → List Nat
  | 0, hv => hv
  | n + 1, hv => shaBlocks p n (shaBlock hv (p / 2 ^ (1024 * n) % 2 ^ 1024))

/-- Bytes as a number, the first the most significant, evaluated byte by byte. -/
def shaNat : Nat → List Byte → Nat
  | acc, [] => acc
  | acc, b :: t => evalNat (256 * acc + b.toNat) fun a => shaNat a t

/-- The eight words of the digest of `bytes` bytes that spell the number `m`: a bit 1, zeros and the 128-bit length pad
the message to whole blocks. -/
def shaWords (bytes m : Nat) : List Nat :=
  let blocks := (bytes + 17 + 127) / 128
  shaBlocks ((2 * m + 1) * 2 ^ (1024 * blocks - 8 * bytes - 1) + 8 * bytes) blocks shaInit

/-- SHA-384 of a byte string (R366, R368, R408): the first six words of the hash value. -/
def sha384 (l : List Byte) : List Byte :=
  ((shaWords l.length (shaNat 0 l)).take 6).flatMap fun w => (List.range 8).map fun i => BitVec.ofNat 8 (w / 256 ^ (7 - i))

/-! ### The curve P-384 -/

/-- The field's prime, the order of the base point, the coefficient b, the base point; the coefficient a is −3. -/
def p384 : Nat := 2 ^ 384 - 2 ^ 128 - 2 ^ 96 + 2 ^ 32 - 1
def n384 : Nat := 0xffffffffffffffffffffffffffffffffffffffffffffffffc7634d81f4372ddf581a0db248b0a77aecec196accc52973
def b384 : Nat := 0xb3312fa7e23ee7e4988e056be3f82d19181d9c6efe8141120314088f5013875ac656398d8a2ed19d2a85c8edd3ec2aef
def gx384 : Nat := 0xaa87ca22be8b05378eb1c71ef320ad746e1d3b628ba79b9859f741e082542a385502f25dbf55296c3a545e3872760ab7
def gy384 : Nat := 0x3617de4a96262c6f5d9e98bf9292dc29f8f41dbd289a147ce9da3113b5f0b8c00a60b1ce1d7e819d7a431d7c90ea0e5f

/-- A power modulo `m`, over the low `k` bits of the exponent from the top. -/
def powMod (x e m : Nat) : Nat → Nat → Nat
  | 0, acc => acc
  | k + 1, acc => evalNat (acc * acc % m) fun a => if e.testBit k then evalNat (a * x % m) fun b => powMod x e m k b else powMod x e m k a

/-- The inverse modulo a prime of 384 bits (Fermat). -/
def invMod (x m : Nat) : Nat := powMod (x % m) (m - 2) m 384 1

/-- A point in Jacobian coordinates (X : Y : Z), x = X/Z², y = Y/Z³; Z = 0 is the point at infinity. -/
abbrev JPoint := Nat × Nat × Nat

/-- A difference in the field. -/
def fieldSub (a b : Nat) : Nat := (a + (p384 - b)) % p384

/-- A point doubled. -/
def JPoint.double : JPoint → JPoint
  | (x, y, z) =>
    evalNat (z * z % p384) fun zz =>
    evalNat (y * y % p384) fun yy =>
    evalNat (x * yy % p384) fun xyy =>
    evalNat (3 * fieldSub x zz * (x + zz) % p384) fun m =>
    evalNat (fieldSub (m * m % p384) (8 * xyy % p384)) fun x' =>
    evalNat (fieldSub (m * fieldSub (4 * xyy % p384) x' % p384) (8 * yy * yy % p384)) fun y' =>
    evalNat (2 * y * z % p384) fun z' => (x', y', z')

/-- The sum of a point and a finite point in affine coordinates. -/
def JPoint.addAffine (q : JPoint) (x2 y2 : Nat) : JPoint :=
  match q with
  | (x1, y1, z1) =>
    if z1 = 0 then (x2, y2, 1)
    else
      evalNat (z1 * z1 % p384) fun zz =>
      evalNat (fieldSub (x2 * zz % p384) x1) fun h =>
      evalNat (fieldSub (y2 * zz % p384 * z1 % p384) y1) fun r =>
      if h = 0 then (if r = 0 then JPoint.double (x1, y1, z1) else (1, 1, 0))
      else
        evalNat (h * h % p384) fun hh =>
        evalNat (h * hh % p384) fun hhh =>
        evalNat (x1 * hh % p384) fun v =>
        evalNat (fieldSub (fieldSub (r * r % p384) hhh) (2 * v % p384)) fun x' =>
        evalNat (fieldSub (r * fieldSub v x' % p384) (y1 * hhh % p384)) fun y' =>
        evalNat (z1 * h % p384) fun z' => (x', y', z')

/-- `u1`·G + `u2`·Q over the low `k` bits from the top, the point so far given. -/
def mulAdd (u1 u2 qx qy : Nat) : Nat → JPoint → JPoint
  | 0, p => p
  | k + 1, p =>
    let d := p.double
    let a := if u1.testBit k then d.addAffine gx384 gy384 else d
    match if u2.testBit k then a.addAffine qx qy else a with
    | (x, y, z) => mulAdd u1 u2 qx qy k (x, y, z)

/-- The x coordinate of a finite point. -/
def JPoint.affineX : JPoint → Nat
  | (x, _, z) => evalNat (invMod z p384) fun i => x * (i * i % p384) % p384

/-- The signature (r, s) over the digest `e` verifies under the public key (x, y). -/
def p384Verify (x y r s e : Nat) : Bool :=
  decide (x < p384) && decide (y < p384) && (y * y % p384 == (x * x * x + 3 * (p384 - x) + b384) % p384)
    && decide (0 < r) && decide (r < n384) && decide (0 < s) && decide (s < n384)
    && evalNat (invMod s n384) fun w => evalNat (e * w % n384) fun u1 => evalNat (r * w % n384) fun u2 =>
      match mulAdd u1 u2 x y 384 (1, 1, 0) with
      | (a, b, c) => c != 0 && (JPoint.affineX (a, b, c) % n384 == r)

/-- ECDSA P-384 (R366): the 97 bytes of an uncompressed public key, the 96 of r and s, the 48 of the SHA-384 digest. -/
def ecdsaVerify (pub sig digest : List Byte) : Bool :=
  (pub.getD 0 0 == 4) && p384Verify (beAt pub 1 48) (beAt pub 49 48) (beAt sig 0 48) (beAt sig 48 48) (beAt digest 0 48)

end Sys2Proof.Machine
end

