-- ==== Sys2Proof/Machine/Image.lean ====
section
/-!
DEFINITION. The configuration image: its parsing and verification (R362 to R368), the application of a section's records
(R361, R364, R365, R371, R381), and the firmware header of R408. The commands that use them stand in Reconfig and Hearth.
-/

namespace Sys2Proof.Machine

/-! ### The MRAM -/

/-- The first byte of a configuration slot, 0 for A (R367). -/
def slotBase (s : Nat) : Nat := if s = 0 then 0 else 0x1800000

/-- The first byte of a firmware slot, 0 for FWA (R408). -/
def fwBase (s : Nat) : Nat := if s = 0 then 0x3800000 else 0x3C00000

/-- `n` bytes of the MRAM. -/
def Dev.mramAt (d : Dev) (o n : Nat) : List Byte := (List.range n).map fun i => Tbl.get 0 d.img.mram (o + i)

/-- Bytes stored in the MRAM from an offset on. -/
def Dev.mramPut (d : Dev) (o : Nat) (l : List Byte) : Dev :=
  d.setImg fun m => { m with mram := (l.foldl (fun (a : Tbl Byte × Nat) b => (Tbl.set 0 a.1 a.2 b, a.2 + 1)) (m.mram, o)).1 }

/-! ### Sequence numbers (R368) -/

/-- `new` is newer than `old`. -/
def newer (new old : Nat) : Bool := let d := sfnSub new old; decide (1 ≤ d) && decide (d < 2 ^ 31)

/-- Two numbers that are not ordered. -/
def unordered (a b : Nat) : Bool := let d := sfnSub a b; d == 0 || d == 2 ^ 31

/-! ### Headers and signatures (R362, R366, R408) -/

/-- CRC-32C of stored bytes. -/
def crcOf (l : List Byte) : Nat := crc32c (2 ^ 32 - 1) l

/-- All bytes from `o` on, `n` of them, are zero. -/
def zeroAt (l : List Byte) (o n : Nat) : Bool := (bytesAt l o n).all (· == 0)

/-- The fields two header forms share, with their limits of IMGLEN. -/
def headOk (h : List Byte) (magic lo hi : Nat) : Bool :=
  beAt h 0 4 == magic && beAt h 4 2 == 1 && beAt h 6 2 == 256 && beAt h 8 4 == 0x962400B1 && decide (lo ≤ beAt h 16 4)
    && decide (beAt h 16 4 ≤ hi) && beAt h 16 4 % 4 == 0 && beAt h 252 4 == crcOf (h.take 252)

/-- A configuration header is correct (R362). -/
def cfgHeadOk (h : List Byte) : Bool :=
  headOk h 0x514C5243 1128 25165824 && beAt h 20 4 == 256 && beAt h 24 4 == 13 && beAt h 28 4 == beAt h 16 4 - 200

/-- A firmware header is correct (R408). -/
def fwHeadOk (h : List Byte) : Bool :=
  headOk h 0x514C4657 1024 4194304 && beAt h 20 4 == beAt h 16 4 - 200 && zeroAt h 28 224

/-- The SHA-384 of the signed message of a slot (R366). -/
def Dev.digest (d : Dev) (base len : Nat) : List Byte := sha384 (d.mramAt base (len - 200))

/-- A key slot is revoked (R455). -/
def Dev.revoked (d : Dev) (fz : Fuses) (k : Nat) : Bool := (fz.krev ||| d.blown).testBit k

/-- The signature block of a slot verifies (R366); firmware uses key slot 0 alone (R408). -/
def Dev.sigOk (fz : Fuses) (d : Dev) (base len : Nat) (firmware : Bool) : Bool :=
  let b := d.mramAt (base + (len - 200)) 200
  let k := beAt b 2 1
  let pub := bytesAt b 4 97
  beAt b 0 2 == 1 && (if firmware then k == 0 else decide (k ≤ 3)) && zeroAt b 3 1 && zeroAt b 101 3 && beAt pub 0 1 == 4
    && sha384 pub == fz.khash.getD k [] && !d.revoked fz k && ecdsaVerify pub (bytesAt b 104 96) (d.digest base len)

/-! ### Records (R364) -/

/-- Two masks of the list share no bit. -/
def disjoint : List Nat → Bool
  | [] => true
  | m :: t => t.all (fun x => x &&& m == 0) && disjoint t

/-- A PORT record's port lies in the cord and is a multiple of its lane count, its fields in their ranges (R277, R364; log 54). -/
def portOk (c p lanes lrate flags fec : Nat) : Bool :=
  decide (48 * (c - 10) ≤ p) && decide (p < 48 * (c - 10) + 48) && [0, 1, 2, 4, 8].contains lanes && p % max 1 lanes == 0 && decide (lrate ≤ 5) && decide (flags < 4)
    && decide (fec < 16)

/-- The record of type `rt` whose bytes are `b`, in a section of cord `c`. -/
def parseRec (c rt : Nat) (b : List Byte) : Option Rec :=
  let f := beAt b
  let n := b.length
  let z := zeroAt b
  if rt = 1 then
    let k := f 4 4
    let ps := (List.range k).map fun i => (f (8 + 8 * i) 4, f (12 + 8 * i) 4)
    if 1 ≤ k ∧ k ≤ 8190 ∧ n = 8 + 8 * k ∧ ps.all (fun p => p.1 / 2 ^ 24 == c) then some (.regset ps) else none
  else if rt = 0x100 then (if c = 0 ∧ n = 8 ∧ f 4 2 < 1024 ∧ z 6 2 then some (.ctllevel (f 4 2)) else none)
  else if rt = 0x101 then
    let l := [f 4 1, f 5 1, f 6 1]
    if c = 0 ∧ n = 8 ∧ z 7 1 ∧ l.all (· ≤ 2) ∧ l.eraseDups.length = 3 then some (.engmap (f 4 1) (f 5 1) (f 6 1)) else none
  else if rt = 0x102 then
    let l := (List.range 12).map fun i => (f (4 + 4 * i) 1, f (5 + 4 * i) 1, f (6 + 4 * i) 2)
    if c = 0 ∧ n = 52 ∧ l.all (fun x => decide (x.1 ≤ 2) && x.2.1 == 0 && decide (1 ≤ x.2.2) && decide (x.2.2 ≤ 100)) ∧ f 48 1 = 0 then
      some (.cordpol (l.map fun x => (x.1, x.2.2)))
    else none
  else if rt = 0x103 then (if c = 0 ∧ n = 8 ∧ z 6 2 then some (.retain (f 4 2)) else none)
  else if rt = 0x300 then
    (if (c = 6 ∨ c = 7) ∧ n = 8 ∧ z 6 2 ∧ f 4 1 ≤ 1 ∧ f 5 1 ≤ 1 ∧ f 4 1 + f 5 1 ≤ 1 then some (.wlmode (f 4 1) (f 5 1)) else none)
  else if rt = 0x301 then
    (if (c = 6 ∨ c = 7) ∧ n = 12 ∧ z 7 1 ∧ f 4 1 ≤ 1 ∧ f 5 1 ≤ 31 ∧ f 6 1 ≤ 1 then some (.group (f 4 1) (f 5 1) (f 6 1) (f 8 4)) else none)
  else if rt = 0x400 then
    let l := (List.range 256).map fun i => f (8 + i) 1
    if c = 8 ∧ n = 264 ∧ l.all (· ≤ 23) then some (.spread (f 4 4) l) else none
  else if rt = 0x401 then
    (if c = 8 ∧ n = 12 ∧ z 6 2 ∧ f 4 1 ≤ 7 ∧ f 5 1 ≤ 18 ∧ f 8 4 < 2 ^ 18 then some (.empart (f 4 1) (f 5 1) (f 8 4)) else none)
  else if rt = 0x500 then
    (if c = 9 ∧ n = 16 ∧ z 6 2 ∧ f 4 1 ≤ 63 ∧ f 5 1 ≤ 1 ∧ f 8 4 < 0x1040000 ∧ f 12 4 < 2 ^ 25 then
      some (.pool (f 4 1) (f 5 1) (f 8 4) (f 12 4)) else none)
  else if rt = 0x501 then
    (if c = 9 ∧ n = 16 ∧ z 6 2 ∧ f 4 1 ≤ 63 ∧ f 5 1 ≤ 15 ∧ f 8 4 < 2 ^ 25 ∧ f 12 4 < 2 ^ 25 then
      some (.pcls (f 4 1) (f 5 1) (f 8 4) (f 12 4)) else none)
  else if rt = 0x502 then
    (if c = 9 ∧ n = 16 ∧ z 13 3 ∧ f 4 2 + f 6 2 ≤ 8192 ∧ f 8 1 ≤ 159 ∧ f 9 1 ≤ 63 ∧ f 10 1 ≤ 63 ∧ f 11 1 < 16 then
      some (.qmap (f 4 2) (f 6 2) (f 8 1) (f 9 1) (f 10 1) (f 11 1) (f 12 1)) else none)
  else if rt = 0x503 then (if c = 9 ∧ n = 12 ∧ z 6 2 ∧ f 4 2 < 8192 ∧ f 8 4 < 2 ^ 20 then some (.qflow (f 4 2) (f 8 4)) else none)
  else if rt = 0x504 then
    let l := (List.range 161).map fun i => f (4 + i) 1
    if c = 9 ∧ n = 168 ∧ z 165 3 ∧ l.all (· ≤ 15) then some (.srccls l) else none
  else if rt = 0x600 then
    (if (c = 10 ∨ c = 11) ∧ n = 12 ∧ z 9 3 ∧ portOk c (f 4 1) (f 5 1) (f 6 1) (f 7 1) (f 8 1) then
      some (.port (f 4 1) (f 5 1) (f 6 1) (f 7 1) (f 8 1)) else none)
  else if rt = 0x700 then
    (if c = 12 ∧ n = 12 ∧ z 9 3 ∧ f 4 2 + f 6 2 ≤ 2048 ∧ f 8 1 ≤ 63 then some (.ringpool (f 4 2) (f 6 2) (f 8 1)) else none)
  else none

/-- The records of a section's bytes; each takes at least 8 bytes. -/
def parseRecs (c : Nat) : Nat → List Byte → Option (List Rec)
  | _, [] => some []
  | 0, _ :: _ => none
  | n + 1, b =>
    let len := beAt b 2 2
    if len < 8 ∨ 65532 < len ∨ len % 4 ≠ 0 ∨ b.length < len then none
    else match parseRec c (beAt b 0 2) (b.take len), parseRecs c n (b.drop len) with
      | some r, some t => some (r :: t)
      | _, _ => none

def Rec.isCtl : Rec → Bool | .ctllevel _ => true | _ => false
def Rec.isMap : Rec → Bool | .engmap _ _ _ => true | _ => false
def Rec.isPol : Rec → Bool | .cordpol _ => true | _ => false
def Rec.mask (dir : Nat) : Rec → Option Nat | .group x _ _ m => if x = dir then some m else none | _ => none

def Rec.isLeaf : Rec → Bool | .wlmode m _ => m == 1 | _ => false
def Rec.isBeacon : Rec → Bool | .group _ g _ _ => g == 31 | _ => false

/-- What R363, R364 and R123 ask of the records of one section together; in leaf mode the groups of an image are 0 to 30 (R135; that
verification refuses group 31 there is the model's reading, log 81). -/
def recsOk (c : Nat) (rs : List Rec) : Bool :=
  (c != 0 || ((rs.filter Rec.isCtl).length == 1 && (rs.filter Rec.isMap).length == 1 && (rs.filter Rec.isPol).length == 1))
    && disjoint (rs.filterMap (Rec.mask 0)) && disjoint (rs.filterMap (Rec.mask 1)) && !(rs.any Rec.isLeaf && rs.any Rec.isBeacon)

/-! ### Sections and slots (R363, R367) -/

/-- The section of table entry `e`, whose section may begin at `pos` at the earliest. -/
def Dev.parseSec (d : Dev) (base sigofs c pos : Nat) (e : List Byte) : Option (Sec × Nat) :=
  let ofs := beAt e 0 4
  let len := beAt e 4 4
  if !zeroAt e 20 12 || ofs % 4 != 0 || len % 4 != 0 || (if len = 0 then ofs != 0 else decide (ofs < pos) || decide (sigofs < ofs + len)) then none
  else
    let gapOk := len == 0 || (d.mramAt (base + pos) (ofs - pos)).all (· == 0)
    let b := d.mramAt (base + ofs) len
    if !gapOk || crcOf b != beAt e 8 4 then none
    else match parseRecs c (len / 8) b with
      | some rs => if rs.length = beAt e 16 4 ∧ recsOk c rs then some (⟨beAt e 12 4, beAt e 8 4, rs⟩, if len = 0 then pos else ofs + len) else none
      | none => none

/-- The sections from cord `c` on, and where the last one ends. -/
def Dev.parseSecs (d : Dev) (base sigofs : Nat) : Nat → Nat → Nat → Option (List Sec × Nat)
  | 0, _, pos => some ([], pos)
  | n + 1, c, pos => match d.parseSec base sigofs c pos (d.mramAt (base + 256 + 32 * c) 32) with
    | none => none
    | some (s, p) => match d.parseSecs base sigofs n (c + 1) p with
      | none => none
      | some (t, q) => some (s :: t, q)

/-- A valid slot as verification leaves it. -/
structure Image where
  seq : Nat
  kslot : Nat
  digest : List Byte
  secs : List Sec
  deriving DecidableEq, Repr

/-- A slot verified (R367). -/
def Dev.verifySlot (fz : Fuses) (d : Dev) (slot : Nat) : Option Image :=
  let base := slotBase slot
  let h := d.mramAt base 256
  if !cfgHeadOk h then none
  else
    let len := beAt h 16 4
    match d.parseSecs base (len - 200) 13 0 672 with
    | none => none
    | some (ss, fin) =>
      if (d.mramAt (base + fin) (len - 200 - fin)).all (· == 0) && d.sigOk fz base len false then
        some ⟨beAt h 12 4, beAt (d.mramAt (base + (len - 200)) 4) 2 1, d.digest base len, ss⟩
      else none

/-- A firmware slot verified (R408): SEQ, FWVER and digest. -/
def Dev.verifyFw (fz : Fuses) (d : Dev) (slot : Nat) : Option (Nat × Nat × List Byte) :=
  let base := fwBase slot
  let h := d.mramAt base 256
  if !fwHeadOk h then none
  else
    let len := beAt h 16 4
    if d.sigOk fz base len true then some (beAt h 12 4, beAt h 24 4, d.digest base len) else none

/-- Selection between two slots (R368): the slot, and whether the choice is disputed. -/
def selectSlot (a b : Option (Nat × List Byte)) : Option (Nat × Bool) :=
  match a, b with
  | none, none => none
  | some _, none => some (0, false)
  | none, some _ => some (1, false)
  | some (sa, da), some (sb, db) => if newer sb sa then some (1, false) else some (0, unordered sb sa && da != db)

/-! ### Application (R361, R365, R371) -/

/-- The section in force for a cord. -/
def Dev.sec (d : Dev) (c : Nat) : Sec := Tbl.get {} d.img.secs c

/-- One REGSET entry: none where it fails (R365). -/
def Dev.regset (fz : Fuses) (d : Dev) (p : Nat × Nat) : Option Dev :=
  match decodeAddr p.1 with
  | none => none
  | some r =>
    let v : Word := BitVec.ofNat 32 p.2
    if !r.row.fields.any (·.ty.kept) || r.row.only (fun t => t == .ro || t == .wo) v != 0 || d.tableCode p.1 r v true != 0
        || d.chapterCode r v != 0 then none
    else some (d.applyWrite fz p.1 r v [])

/-- The entries of a REGSET record in order. -/
def Dev.regsets (fz : Fuses) : List (Nat × Nat) → Dev → Dev × Bool
  | [], d => (d, true)
  | p :: t, d => match d.regset fz p with
    | some e => Dev.regsets fz t e
    | none => (d, false)

/-- A record gives another port a lane count that takes in this port's number (R277). -/
def Rec.covers (p : Nat) : Rec → Bool
  | .port q k _ _ _ => decide (q < p) && decide (p < q + k)
  | _ => false

/-- A PORT record: the port's BOND, and FECALLOW of its lanes (R277, R306); a number inside another port's lanes is unused. -/
def Dev.applyPort (d : Dev) (p k lrate flags fec : Nat) : Dev :=
  let lanes := if (d.sec (hsCord p)).recs.any (Rec.covers p) then 0 else k
  let d1 := (((d.set (F.hsMacBondLanes p) lanes).set (F.hsMacBondLrate p) lrate).set (F.hsMacBondClass p) (flags % 2)).set (F.hsMacParkPark p)
    (if flags = 3 then 1 else 0)
  d1.each (List.range lanes) fun d i => d.set (F.hsLnCfgFecallow (p + i)) fec

/-- A QMAP record over its queues (R250, R258). -/
def Dev.applyQmap (d : Dev) (first count sched hp sp flags shg : Nat) : Dev :=
  d.each (List.range count) fun d i =>
    let q := first + i
    (((((d.set (F.bufQMapSched q) sched).set (F.bufQMapHpool q) hp).set (F.bufQMapSpool q) sp).set (F.bufQMapSpen q) (flags % 2)).set (F.bufQMapTc q)
      (flags / 2)).set (F.bufQMapShg q) shg

/-- A GROUP record: the group's members and encryption, a receive group waiting for alignment (R123, R125, R175). -/
def Dev.applyGroup (d : Dev) (w dir gid enc mask : Nat) : Dev :=
  if dir = 0 then
    ((((d.setGrp w gid fun g => { g with encRx := enc == 1 }).set (F.lfGrpMembMask w gid) mask).set (F.lfGrpStatSize w gid) (maskBits 32 mask).length).set
      (F.lfCryrStatEnc w gid) enc).set (F.lfGrpStatState w gid) (if mask = 0 then 0 else 1)
  else ((d.setGrp w gid fun g => { g with txMask := mask, encTx := enc == 1 }).set (F.lfCrytStatEnc w gid) enc).set (F.lfCrytStatHalt w gid)
    (if enc = 1 then 3 else 0)

/-- SHFREE of a pool with nothing allocated: SIZE less its minima (R249). -/
def Dev.shareOf (d : Dev) (p : Nat) : Nat :=
  d.get (F.bufPoolCfgSize p) - ((List.range 16).map fun c => d.get (F.bufPclsMinMin (16 * p + c))).sum

/-- One record applied to a cord at its wake, false where it fails; SPREAD, EMPART and the structure of BUF only then. -/
def Dev.applyRec (fz : Fuses) (d : Dev) (c : Nat) (r : Rec) : Dev × Bool :=
  match r with
  | .regset ps => d.regsets fz ps
  | .ctllevel e => (d.set F.hrtCfgCtllvlExpert e, true)
  | .engmap a b s => (d.setFlag F.hrtCfgStatEngpend ((a, b, s) != d.img.engmap), true)
  | .cordpol l => ((d.each (List.range 12) fun d i =>
      let x := l.getD i (0, 20)
      (d.set (F.hrtPwrCordPol (i + 1)) x.1).set (F.hrtPwrCordWaketo (i + 1)) x.2), true)
  | .retain b => (d.set F.hrtPwrRetainBanks b, true)
  | .wlmode m t => ((d.setWave (c - 6) fun v => { v with leaf := m == 1, master := t == 1 }).set (F.lfPrfStatMaster (c - 6)) t, true)
  | .group dir gid enc mask => (d.applyGroup (c - 6) dir gid enc mask, true)
  | .spread seed map => ((d.set F.pktSprCfgSeed seed).each (List.range 256) fun d i => d.set (F.pktSprMapSlice i) (map.getD i 0), true)
  | .empart k size base => (((d.set (F.pktEmtPartBase k) base).set (F.pktEmtPartSize k) size).set (F.pktEmtPartEn k) 1, true)
  | .pool p kind first size => let d1 := ((d.set (F.bufPoolCfgKind p) kind).set (F.bufPoolCfgSize p) size).set (F.bufPoolCfgEn p) 1
    (({ d1 with buf := { d1.buf with poolFirst := Tbl.set 0 d1.buf.poolFirst p first } }).set (F.bufPoolFreeShfree p) (d1.shareOf p), true)
  | .pcls p k mn mx => let d1 := (d.set (F.bufPclsMinMin (16 * p + k)) mn).set (F.bufPclsMaxMax (16 * p + k)) mx
    (d1.set (F.bufPoolFreeShfree p) (d1.shareOf p), true)
  | .qmap f n s h sp fl g => (d.applyQmap f n s h sp fl g, true)
  | .qflow q f => (d.set (F.bufQFlowFlow q) f, true)
  | .srccls l => (d.each (List.range 161) fun d i => d.set (F.bufSrcClsClass i) (l.getD i 0), true)
  | .port p k lr fl fec => (d.applyPort p k lr fl fec, true)
  | .ringpool f n p => (d.each (List.range n) fun d i => d.set (F.pciRxgCfgPool (f + i)) p, true)

/-- One record of an in-service reload of HRT, PKT or BUF (R380, R381, R458): what takes effect without a wake. -/
def Dev.applyLive (fz : Fuses) (d : Dev) (c : Nat) (r : Rec) : Dev × Bool :=
  if c = 8 then (d, true)
  else if c = 9 then
    match r with
    | .pcls p k _ mx => (d.set (F.bufPclsMaxMax (16 * p + k)) mx, true)
    | .regset ps => d.regsets fz ps
    | _ => (d, true)
  else d.applyRec fz c r

/-- Records in section order; the first that fails ends the application. -/
def applyAll (f : Dev → Rec → Dev × Bool) : List Rec → Dev → Dev × Bool
  | [], d => (d, true)
  | r :: t, d => let x := f d r; if x.2 then applyAll f t x.1 else x

/-- The section of a cord applied at its wake (R371, R388). -/
def Dev.applySec (fz : Fuses) (d : Dev) (c : Nat) : Dev × Bool := applyAll (fun d r => d.applyRec fz c r) (d.sec c).recs d

/-- The section of HRT, PKT or BUF applied in service; HRT's RETAIN starts at its reset value (R363, R458). -/
def Dev.applySecLive (fz : Fuses) (d : Dev) (c : Nat) : Dev × Bool :=
  applyAll (fun d r => d.applyLive fz c r) (d.sec c).recs (if c = 0 then d.set F.hrtPwrRetainBanks 0xF else d)

end Sys2Proof.Machine
end

