-- ==== Sys2Proof/Machine/Cords.lean ====
section
/-!
DEFINITION. Cords as 15_power and 14_configuration_image have them: what a cord loses with its power, its withdrawal from
traffic, its wake, and its release with the section applied. Which cord switches when stands in Sparing and Reconfig.
-/

namespace Sys2Proof.Machine

def Dev.cordInfo (d : Dev) (c : Nat) : CordSt := Tbl.get {} d.pwr.cords c
def Dev.setCordInfo (d : Dev) (c : Nat) (f : CordSt → CordSt) : Dev := d.setPwr fun p => { p with cords := Tbl.modify {} p.cords c f }

/-- ST of a cord 1 to 12 set. -/
def Dev.setSt (d : Dev) (c n : Nat) : Dev := d.set (F.hrtPwrCordSt c) n

/-! ### Engines and wavelengths (R17, R197) -/

/-- The field of HRT_SPR_STAT that names the engine of a wavelength. -/
def sprEngF (w : Nat) : Fld := if w = 0 then F.hrtSprStatWaeng else F.hrtSprStatWbeng

/-- The engine the sparing controller has given a wavelength. -/
def Dev.assigned (d : Dev) (w : Nat) : Option Nat := engOf (d.get (sprEngF w))

/-- The wavelength an engine is given to. -/
def Dev.wlOf (d : Dev) (e : Nat) : Option Nat := if d.assigned 0 = some e then some 0 else if d.assigned 1 = some e then some 1 else none

/-- The selectors of a wavelength name one engine, or none (3), for both directions. -/
def Dev.select (d : Dev) (w e : Nat) : Dev :=
  (((d.set (F.cvSelStatRxeng w) e).set (F.cvSelStatTxeng w) e).set (F.cvSelStatRxeng2 w) 3).set (F.cvSelStatOverlap w) 0

/-- An engine takes the samples of its wavelength (R46, R62): it acquires, in verify form where it holds an acquired state for that
(R63); without a signal it waits for it. The model's choice (log 70): while a change of the decode set waits, it takes the
set the wavelength asks for. -/
def Dev.connect (d : Dev) (w e : Nat) : Dev :=
  let d1 := d.connectDecode e (d.wave w).decode
  (if d1.flag (F.cvAdcStatLos w) then d1.set (F.leRxcStatAcq e) 0 else d1.startAcq e (d1.firstStep e)).txRefresh

/-! ### Traffic enables (R33) and withdrawal (R374, R452) -/

/-- The traffic enables of a cord read 0. -/
def Dev.enablesOff (d : Dev) (c : Nat) : Dev :=
  if c = 6 ∨ c = 7 then d.set (F.lfActCfgActen (c - 6)) 0
  else if c = 9 then d.each ((List.range 8192).filter fun q => d.flag (F.bufQParEn q)) fun d q => d.set (F.bufQParEn q) 0
  else if c = 12 then d.each d.enabledRings fun d r => (d.set (ringEn r.1 r.2) 0).ringRefresh r.1 r.2 false
  else d

/-- What of the pending changes a framer gives up with its service (R452): proposals without an accepting ACK, and every key
switch. -/
def Dev.lfAbandon (d : Dev) (w : Nat) : Dev :=
  let v := d.wave w
  let prf := v.proposal.any fun p => !p.acked
  let ksw := v.keyProposal.isSome || !v.keyPend.isEmpty
  (((d.when prf fun d => d.abandon w).when ksw fun d => d.keyAbandon w)).setWave w fun v =>
    { v with keyPend := [], prfGone := v.prfGone || prf, kswGone := v.kswGone || ksw }

/-- A cord leaves traffic: bursts are cut and counted in MISS, rings flushed. -/
def Dev.withdraw (d : Dev) (c : Nat) : Dev :=
  if c = 4 ∨ c = 5 then d.cutBursts (c - 4) true
  else if c = 6 ∨ c = 7 then (((d.lfAbandon (c - 6)).cutBursts (c - 6) true).enablesOff c).actenWritten (c - 6)
  else if c = 12 then (d.each d.enabledRings fun d r => d.ringFlush r.1 r.2 []).enablesOff c
  else d.enablesOff c

/-! ### Loss of power (R12, R194, R325, R388, R436, R458) -/

/-- Every register of a cord at its reset value. -/
def Dev.dropCord (d : Dev) (c : Nat) : Dev := d.dropRegs (c * 2 ^ 24) ((c + 1) * 2 ^ 24)

/-- The laser commands of an engine leave a converter set. -/
def Conv.forget (c : Conv) (e : Nat) : Conv :=
  { c with
    waitLaser := c.waitLaser.filter fun x => x.1 != e
    waitRd := c.waitRd.filter (· != e)
    flight := c.flight.map fun x => match x.1 with
      | .laser f _ => if f = e then (.device, x.2) else x
      | .laserRd f => if f = e then (.device, x.2) else x
      | .host | .device | .heartbeat => x }

/-- An engine serves its wavelength and is in service: it writes snapshots (R200). -/
def Dev.writesSnaps (d : Dev) (e : Nat) : Bool :=
  d.get (F.hrtSprEngRole e) == 1 && !(d.spr1 e).loading && d.cordOn (1 + e) && d.serves e

/-- An engine that serves stops serving within a superframe: it owes the snapshot of its end (R202). -/
def Dev.stopsServing (d : Dev) (e : Nat) : Dev := d.when (d.writesSnaps e) fun d => d.setSpr1 e fun x => { x with served := true }

/-- No engine and no framer holds a wavelength's profiles and changes any more: the snapshot is what is left of them (R452). -/
def Dev.loseCodes (d : Dev) (w : Nat) : Dev := d.setWave w fun v => { v with lost := true, rxCode := [], txCode := [], pend := [] }

/-- An engine keeps nothing; with the framer of its wavelength off, nor does the wavelength. -/
def Dev.wipeEngine (d : Dev) (e : Nat) : Dev :=
  let d1 := d.each [0, 1] fun d w => d.when (d.assigned w == some e && !d.cordOn (6 + w)) fun d => d.loseCodes w
  ((((d1.stopsServing e).dropCord (1 + e)).setConv 0 (·.forget e)).setConv 1 (·.forget e)).setEng e fun _ => {}

/-- A laser step that no acknowledgement will reach counts as not applied, with LASERFAIL and the laser-loop event (R54). -/
def Dev.dropStep (d : Dev) (e : Nat) : Dev :=
  match (d.eng e).laserOut with
  | some st => d.laserFailed e st
  | none => d

/-- A converter set keeps nothing; an engine it fed holds its acquired state, which it verifies after release (R376). -/
def Dev.wipeConv (d : Dev) (w : Nat) : Dev :=
  ((d.each (d.receivers w) fun d e => (d.dropStep e).setEng e fun g => { g with verify := g.verify || d.flag (F.leRxcCdstatValid e) }).dropCord
    (4 + w)).setConv w fun _ => {}

/-- The units that wait at a link's end are lost with the cord that holds them. -/
def Dev.dropLink (d : Dev) (k : Nat) : Dev := d.setPkt fun x => { x with links := Tbl.set [] x.links k [] }

/-- A framer keeps nothing but the gap of its wavelength; accepted profile changes stay with a powered engine, and the results of what
its withdrawal abandoned stand (R452). -/
def Dev.wipeFramer (d0 : Dev) (w : Nat) : Dev :=
  let d := d0.lfAbandon w
  let held := (d.assigned w).any fun e => d.cordOn (1 + e)
  let old := d.wave w
  let d1 := ((((((d.each (List.range 32) fun d k => d.fiLost (96 + 32 * w + k)).dropCord (6 + w)).dropLink w).setWave w fun v =>
    { gap := v.gap, txCut := v.txCut, txNext := v.txNext, leaf := v.leaf, master := v.master, lost := v.lost, rxCode := v.rxCode
      txCode := v.txCode, pend := v.pend, txProf := v.txProf }).when (!held) fun d => d.loseCodes w).when old.prfGone fun d =>
        d.set (F.lfPrfStatResult w) 3).when old.kswGone fun d => d.set (F.lfCryKswstatResult w) 3
  { d1 with
    scs := Tbl.dropRange d1.scs (32 * w) (32 * w + 32)
    grps := Tbl.dropRange d1.grps (32 * w) (32 * w + 32)
    crys := Tbl.dropRange d1.crys (32 * w) (32 * w + 32) }

/-- PKT loses everything; what waits at the ends of its links is discarded by the cords that hold it (R11). -/
def Dev.wipePkt (d : Dev) : Dev :=
  let d1 := d.each (List.range 5) fun d k => d.each (Tbl.get [] d.pkt.links k) fun d p => d.linkDrop k p
  { ((d1.each (List.range 4) fun d k => d.fiLost (160 + k)).dropCord 8) with pkt := {} }

/-- The ports of an HS cord lose their links, then everything they hold. -/
def Dev.wipeHs (d : Dev) (c : Nat) : Dev :=
  let lo := 48 * (c - 10)
  let d1 := (d.each (List.range 48) fun d i => (d.macDown (lo + i) false).fiLost (lo + i)).dropCord c |>.dropLink (c - 8)
  { d1 with macs := Tbl.dropRange d1.macs lo (lo + 48), lanes := Tbl.dropRange d1.lanes lo (lo + 48) }

/-- PCI keeps its link, its configuration space and the MSI-X table (R345). -/
def Dev.wipePci (d : Dev) : Dev :=
  let sp := d.get F.pciEpStatSpeed
  let wd := d.get F.pciEpStatWidth
  let up := d.get F.pciEpStatDlup
  ((((d.dropCord 12).set F.pciEpStatSpeed sp).set F.pciEpStatWidth wd).set F.pciEpStatDlup up).setPcie fun x => { x with rings := [] }

/-- A cord loses its registers and its state; buffers of its agents wait for their reclaim (R253). -/
def Dev.wipe (d : Dev) (c : Nat) : Dev :=
  let d1 := if c = 1 ∨ c = 2 ∨ c = 3 then d.wipeEngine (c - 1)
    else if c = 4 ∨ c = 5 then d.wipeConv (c - 4)
    else if c = 6 ∨ c = 7 then d.wipeFramer (c - 6)
    else if c = 8 then d.wipePkt
    else if c = 9 then { (d.dropCord 9) with buf := {}, reclaim := [] }
    else if c = 10 ∨ c = 11 then d.wipeHs c
    else d.wipePci
  let owns := !(cordAgents c).isEmpty && c != 9 && !d1.reclaim.contains c
  (if owns then { d1 with reclaim := d1.reclaim ++ [c] } else d1).discipline.txRefresh

/-! ### Power -/

/-- A cord's power-up starts (R389). -/
def Dev.cordWake (d : Dev) (c : Nat) (why : Why) : Dev := (d.setSt c 1).setCordInfo c fun x => { x with why := why, tripped := false }

/-- A cord is powered off (R388). -/
def Dev.cordOff (d : Dev) (c : Nat) : Dev := ((d.wipe c).setSt c 0).set (F.hrtPwrCordWoke c) 0

/-- A cord becomes FAILED (R389, R390): counted and reported but at a thermal trip (R406). -/
def Dev.cordFail (d : Dev) (c : Nat) (counted : Bool) : Dev :=
  let d1 := (((d.wipe c).setSt c 4).set (F.hrtPwrCordWoke c) 0).setCordInfo c fun x => { x with cmd := none }
  d1.when counted fun d => (d.count (F.hrtPwrCordFailcnt c) 1).raise 0x16 [R.hrtPwrCord c]

/-- A cord's drain starts (R374, R393, R398). -/
def Dev.startDrain (d : Dev) (c : Nat) (why : Why) : Dev :=
  (((d.withdraw c).setSt c 6).setCordInfo c fun x => { x with why := why }).txRefresh

/-! ### Release (R33, R371, R388) -/

/-- The section of the active slot becomes the one in force for a cord. -/
def Dev.takeSlot (d : Dev) (c : Nat) : Dev := d.setImg fun m => { m with secs := Tbl.set {} m.secs c (Tbl.get {} m.slot c) }

/-- CSEQ of a cord as the section in force has it. -/
def Dev.showSeq (d : Dev) (c : Nat) : Dev := d.set (F.hrtCfgCseqSseq c) (d.sec c).sseq

/-- BIAS_AUTO mode 1 for arms 0 to 3, which a wavelength's entry into leaf mode asks for, goes to the Turuid port once its cord is on
(R89). -/
def Dev.biasAuto (d : Dev) (w : Nat) : Dev :=
  d.when ((d.wave w).biasDue && d.cordOn (4 + w)) fun d =>
    (d.setConv w fun c => { c with waitDev := c.waitDev ++ (List.range 4).map fun arm => arm * 2 ^ 24 + 1 }).setWave w fun v => { v with biasDue := false }

/-- A converter set in service: the selectors name the engine of the wavelength, which acquires (R17, R376). -/
def Dev.convUp (d0 : Dev) (w : Nat) : Dev :=
  let d := d0.biasAuto w
  match d.assigned w with
  | none => (d.select w 3).txRefresh
  | some e => (d.select w e).when (d.cordOn (1 + e) && !(d.spr1 e).loading && d.get (F.hrtSprEngRole e) == 1) fun d =>
    d.connect w e

/-- The profiles in use as an engine's registers show them. -/
def Dev.codesFrom (d : Dev) (w e : Nat) : Dev :=
  let put (f : Nat → Fld) : Tbl Nat := (List.range 32).foldl (fun t k => Tbl.set 0 t k (d.get (f k))) []
  d.setWave w fun v => { v with rxCode := put (F.leRxsLlrcfgProfile e), txCode := put (F.leTxsProfCur e) }

/-- The profiles in use as the engine of a wavelength holds them (R452). -/
def Dev.engineCodes (d : Dev) (w : Nat) : Dev :=
  match d.assigned w with
  | none => d
  | some e => d.when (d.cordOn (1 + e)) fun d => d.codesFrom w e

/-- EQD and RTD of a wavelength from ember bank 3 on leaving BANKED (R397). -/
def Dev.banked (d : Dev) (w : Nat) : Dev :=
  let b := (List.range 44).map fun i => Tbl.get 0 d.ember.bytes (3 * 2 ^ 21 + i)
  d.when (d.get F.hrtPwrStateCur == 2 && d.ember.kept.testBit 3 && crcOf (b.take 40) == beAt b 40 4) fun d =>
    (d.setReg (R.lfActEqd w) (BitVec.ofNat 32 (beAt b (12 + 16 * w) 4))).setReg (R.lfActRtd w) (BitVec.ofNat 32 (beAt b (16 + 16 * w) 4))

/-- A framer in service (R25, R46, R89, R142, R376): `was` is the mode before a reload. -/
def Dev.framerUp (d : Dev) (w : Nat) (was : Option Bool) : Dev :=
  let leaf := (d.wave w).leaf
  let m := if leaf then d.actDecode w 0 else 2 ^ 32 - 1
  let d1 := ((d.engineCodes w).banked w).when (!leaf && d.flag F.hrtClkDiscEn && d.get F.hrtClkDiscSrc == w) fun d => (d.set F.hrtClkDiscEn 0).discipline
  let now := match d1.serving w with
    | some e => d1.decode e
    | none => 0
  let d2 := ((d1.setWave w fun v => { v with lineAt := d.time.ticks, txSfn := 0, txFnum := 0 }).askDecode w m).framerDecode w now
  let d3 := (d2.when (leaf && was != some true) fun d => d.setWave w fun v => { v with biasDue := true }).biasAuto w
  (match was, d3.serving w with
   | some b, some e => d3.when (b != leaf) fun d => d.startAcq e 1
   | _, _ => d3).txRefresh

/-- The ports of an HS cord in service (R277, R290, R296, R325): the default gate list starts; parked ones stay parked unless a tinder wake
has called them. -/
def Dev.portsUp (d : Dev) (c : Nat) : Dev :=
  let lo := 48 * (c - 10)
  let d0 := d.each ((List.range 48).map (lo + ·)) fun d p => d.setMac p fun m => { m with oper := { start := d.time.ns }, pend := none }
  let d1 := d0.each ((List.range 48).map (lo + ·)) fun d p =>
    if d.get (F.hsMacBondLanes p) = 0 then d
    else if d.flag (F.hsMacParkPark p) then
      (if d.pwr.tinder.contains p then d.unpark p
       else if d.get (F.hsMacParkPstate p) = 1 then d
       else (d.set (F.hsMacParkPstate p) 1).raise 0xCE [R.hsMacPark p])
    else d.each (d.lanesOf p) fun d l => d.laneStart l
  d1.setPwr fun x => { x with tinder := x.tinder.filter fun p => p / 48 + 10 != c }

/-- A cord is released to traffic. -/
def Dev.cordUp (d : Dev) (c : Nat) (was : Option Bool) : Dev :=
  let d1 := (d.setSt c 3).showSeq c
  if c = 4 ∨ c = 5 then d1.convUp (c - 4)
  else if c = 6 ∨ c = 7 then d1.framerUp (c - 6) was
  else if c = 10 ∨ c = 11 then d1.portsUp c
  else d1

/-- The section in force applied to a cord that reports ready, and the cord released; false where the application fails. -/
def Dev.cordReady (fz : Fuses) (d : Dev) (c : Nat) : Dev × Bool :=
  let was := if (d.cordInfo c).why = .reload ∧ (c = 6 ∨ c = 7) then some (d.wave (c - 6)).leaf else none
  let d1 := if c = 1 ∨ c = 2 ∨ c = 3 then d.wipeEngine (c - 1)
    else if c = 6 ∨ c = 7 then d.setWave (c - 6) fun v => { v with leaf := false, master := false }
    else if c = 9 ∧ (d.cordInfo 9).why ≠ .reload then { (d.dropCord 9) with buf := {}, reclaim := [] }
    else d
  let x := d1.applySec fz c
  if x.2 then (x.1.cordUp c was, true) else (x.1, false)

/-- A failed application outside a reload (R371): powered, not released. -/
def Dev.applyFailed (d : Dev) (c : Nat) : Dev :=
  (((d.enablesOff c).setSt c 2).set F.hrtCfgFailmaskCords (setBit (d.get F.hrtCfgFailmaskCords) c)).raise 0x0D
    [R.hrtCfgStat, R.hrtCfgFailmask]

end Sys2Proof.Machine
end

