-- ==== Sys2Proof/Machine/Snapshot.lean ====
section
/-!
DEFINITION. Snapshots (R65, R98, R200 to R204, R451): writing one, choosing the newest, loading it into an engine, and what an
engine starts with where there is none.
-/

namespace Sys2Proof.Machine

/-! ### What a snapshot carries (R65, R98, R200) -/

/-- Bits of a register a snapshot carries: its RW and RWQ fields, and of the read-only ones the acquired state, the profiles
and the mask mute; alignment, and values whose write waits, stand in the engine's state beside it. -/
def RegRow.carried (r : RegRow) : Word :=
  let rw := r.fields.foldl (fun m f => if f.ty.kept then (f.fld 0).put m (2 ^ f.width - 1) else m) 0
  match r.name with
  | .leRxcCdstat | .leRxcCfostat | .leTxsProf => r.mask
  | .leRxcTrstat => rw ||| 0xFFFF0000
  | .leRxsLlrcfg => rw ||| 0x00FF0000
  | .leTxcStat => rw ||| 8
  | _ => rw

/-- The carried bits of a BAR0 address of an engine. -/
def carriedAt (a : Nat) : Word :=
  match decodeAddr a with
  | some r => r.row.carried
  | none => 0

/-- The listed registers of a cord with their offsets. -/
def Dev.listed (d : Dev) (c : Nat) : List (Nat × Word) :=
  (d.regs.filter fun x => decide (c * 2 ^ 24 ≤ x.1) && decide (x.1 < (c + 1) * 2 ^ 24)).map fun x => (x.1 - c * 2 ^ 24, x.2)

/-- The field of a key. -/
def keyFld (k : Nat) : Option Fld :=
  match decodeAddr (k / 32) with
  | some r => (r.row.fields.find? fun f => f.lsb == k % 32).map fun f => f.fld (k / 32)
  | none => none

/-- Fields whose write still waits read as the engine uses them (R66). -/
def Dev.asUsed (d : Dev) (e : Nat) : Dev :=
  let g := d.eng e
  d.each ((g.oldLine ++ g.oldSf ++ g.oldAcq).filterMap fun x => keyFld x.1) fun d f => d.set f (d.inUse e f)

/-- The carried part of an engine's registers. -/
def Dev.carry (d0 : Dev) (e : Nat) : List (Nat × Word) :=
  let d := d0.asUsed e
  ((d.listed (1 + e)).map fun x => (x.1, x.2 &&& carriedAt ((1 + e) * 2 ^ 24 + x.1))).filter fun x => carriedAt ((1 + e) * 2 ^ 24 + x.1) != 0

/-- A register with its carried bits replaced. -/
def Dev.putCarried (d : Dev) (a : Nat) (v : Word) : Dev := d.setReg a ((d.reg a &&& ~~~carriedAt a) ||| (v &&& carriedAt a))

/-! ### The banks (R200, R201) -/

def Dev.snap (d : Dev) (k : Nat) : Option Snap := Tbl.get none d.ember.snaps k

/-- `a` is newer than `b`: by SFN in serial order, then by SNAPSEQ (R201). -/
def Snap.newer (a b : Snap) : Bool :=
  if a.sfn = b.sfn then decide (b.seq < a.seq) else sfnGe a.sfn b.sfn

/-- The newest valid snapshot of a wavelength; between equals the lower bank. -/
def Dev.newest (d : Dev) (w : Nat) : Option Snap :=
  ((List.range 6).filterMap fun k => (d.snap k).filter fun s => s.wl == w).foldl (fun best s => match best with
    | none => some s
    | some b => if s.newer b then some s else best) none

/-- HRT_SPR_SNAP of a bank: its newest valid snapshot. -/
def Dev.snapShow (d : Dev) (e : Nat) : Dev :=
  let best := match d.snap (2 * e), d.snap (2 * e + 1) with
    | some a, some b => some (if b.newer a then b else a)
    | some a, none => some a
    | none, x => x
  match best with
  | some s => (((d.set (F.hrtSprSnapSeq e) s.seq).set (F.hrtSprSnapValid e) 1).setFlag (F.hrtSprSnapAcqd e) s.acqd).set (F.hrtSprSnapWl e) s.wl
  | none => (((d.set (F.hrtSprSnapSeq e) 0).set (F.hrtSprSnapValid e) 0).set (F.hrtSprSnapAcqd e) 0).set (F.hrtSprSnapWl e) 0

/-- An engine writes a snapshot of the wavelength it serves at a superframe's end (R200). -/
def Dev.writeSnap (d : Dev) (e w : Nat) : Dev :=
  let seq := (Tbl.get 0 d.ember.seqs e + 1) % 2 ^ 32
  let area := Tbl.get 0 d.ember.next e
  let sfn := if d.cordOn (6 + w) then d.dirSfn w 0 else match d.newest w with
    | some s => (s.sfn + 1) % 2 ^ 32
    | none => 0
  let s : Snap := ⟨seq, sfn, w, e, d.get (F.leRxcStatAcq e) == 6, (d.wave w).leaf, d.free, d.carry e, d.eng e, (d.wave w).pend⟩
  ({ d with free := d.free + 1 }.setEmber fun m => { m with
    snaps := Tbl.set none m.snaps (2 * e + area) (some s), next := Tbl.set 0 m.next e (1 - area), seqs := Tbl.set 0 m.seqs e seq }).snapShow e

/-- The bytes of a snapshot as a host reads them: the body is internal to the device (R200). -/
def Snap.bytes (s : Snap) : List Byte :=
  let len := 32 + (Config.freeWord s.num).toNat % 65505
  let head := beBytes 4 s.seq ++ beBytes 4 s.sfn
    ++ [BitVec.ofNat 8 s.wl, BitVec.ofNat 8 s.eng, BitVec.ofNat 8 ((if s.acqd then 1 else 0) + (if s.leaf then 2 else 0)), 0] ++ beBytes 4 len
  let b := head ++ (List.range (len - 20)).map fun i => Config.freeByte s.num i
  b ++ beBytes 4 (crcOf b)

/-! ### Loading (R63, R201, R202, R451) -/

/-- Profiles and pending changes of an engine as the wavelength's copy has them, those whose superframe has passed in effect: `sfn` is
the number of each direction (R451). -/
def Dev.takeCopy (d0 : Dev) (w e : Nat) (sfn : Nat → Nat) : Dev :=
  let d := (d0.applyPend w 0 (sfn 0)).applyPend w 1 (sfn 1)
  let v := d.wave w
  (d.setWave w fun v => { v with lost := false }).each (List.range 32) fun d k =>
    let d1 := (d.set (F.leRxsLlrcfgProfile e k) (v.code 0 k)).set (F.leTxsProfCur e k) (v.code 1 k)
    match v.pend.find? fun p => p.dir == 1 && p.sc == k with
    | some p => (d1.set (F.leTxsProfNext e k) p.code).set (F.leTxsProfNextv e k) 1
    | none => d1.set (F.leTxsProfNextv e k) 0

/-- The copy that the framer keeps, for an engine that starts. -/
def Dev.takeFramerCopy (d : Dev) (w e : Nat) : Dev := d.takeCopy w e (d.dirSfn w)

/-- A snapshot's contents in the engine that loads it; one without an acquired state gives the centre of the search (R202). Profiles and
pending changes come from the framer's copy, which is never older than a snapshot, and without one from the snapshot (R451, R452). -/
def Dev.loadSnap (d : Dev) (w e : Nat) (s : Snap) : Dev :=
  let base := (1 + e) * 2 ^ 24
  let d1 := d.each (d.listed (1 + e)) fun d x => d.putCarried (base + x.1) (regReset (base + x.1))
  let d2 := d1.each s.regs fun d x => d.putCarried (base + x.1) x.2
  let est := d2.getInt (F.leRxcCdstatEst e)
  let d3 := (d2.setEng e fun _ =>
    { cdRef := s.state.cdRef, cdCentre := if s.acqd then none else some est, verify := s.acqd, muteOut := s.state.muteOut
      align := if s.acqd then s.state.align else [], eqZero := s.state.eqZero }).set
    (if s.acqd then F.leRxcCdstatSrc e else F.leRxcCdstatValid e) (if s.acqd then 2 else 0)
  if d3.cordOn (6 + w) && !(d3.wave w).lost then d3.takeFramerCopy w e
  else ((d3.setWave w fun v => { v with pend := s.pend }).codesFrom w e).takeCopy w e fun _ => s.sfn

/-- An engine that starts without a snapshot (R204): a full acquisition, profiles from the headers and the framer, the laser's
total by LASER_RD. -/
def Dev.startBare (d : Dev) (w e : Nat) : Dev :=
  let d0 := (d.setEng e fun g => { g with verify := false, cdCentre := none, align := [] }).set (F.leRxcCdstatValid e) 0
  let d1 := d0.when (d0.cordOn (6 + w)) fun d => (d.takeFramerCopy w e).each (List.range 32) fun d k =>
    d.set (F.leRxsLlrcfgProfile e k) (d.get (F.lfScsHdrProf w k))
  d1.setConv w fun c => { c with waitRd := some e }

/-! ### The end of a superframe -/

/-- A snapshot that is not written (R202). -/
def Dev.skipSnap (d : Dev) (e : Nat) : Dev := (d.count (F.hrtSprSnapSkip e) 1).raise 0xAB [R.hrtSprSnap e]

/-- SNAPSHOT_WRITE (R200, R202, R203): the superframe of an engine ends; `done` is false where its write does not complete within
its bound. An engine that served in it and serves no more writes none; one that served nothing neither writes nor counts. -/
def execSnapshotWrite (e : Fin 3) (done : Bool) (s : State) : Host.Outcome State Fault Refusal := s.run fun _ d =>
  let d1 := d.engSuperframe e d.time.ticks
  let d2 := d1.setSpr1 e fun x => { x with served := false }
  match d1.engWl e, d1.writesSnaps e with
  | some w, true => if done then d2.writeSnap e w else d2.skipSnap e
  | _, _ => d2.when (d1.spr1 e).served fun d => d.skipSnap e

end Sys2Proof.Machine
end

