-- ==== Sys2Proof/Machine/Sparing.lean ====
section
/-!
DEFINITION. The sparing controller: 07_engine_sparing. Faults, takeovers, restores, repair, seasoning and the hitless moves; the
commands that also end a reload or a transition stand in Reconfig.
-/

namespace Sys2Proof.Machine

/-! ### Roles and STATE (R217, HRT_SPR_STAT) -/

def Dev.role (d : Dev) (e : Nat) : Nat := d.get (F.hrtSprEngRole e)

/-- A role; seasoning that ends leaves no seconds remaining. -/
def Dev.setRole (d : Dev) (e n : Nat) : Dev :=
  (d.set (F.hrtSprEngRole e) n).when (d.role e == 3 && n != 3) fun d => d.set F.hrtSprStatSeasrem 0

/-- STATE: a takeover, a hitless move, a wavelength without an engine, repair, seasoning, the spare's self-test. -/
def Dev.sprState (d : Dev) : Nat :=
  let any (n : Nat) : Bool := [0, 1, 2].any fun e => d.role e == n
  match d.spr.move with
  | some m => if m.kind = .takeover then 1 else if m.kind = .restore then 5 else 4
  | none => if !d.spr.bare.isEmpty then 5 else if any 2 then 2 else if any 3 then 3 else if any 5 then 6 else 0

def Dev.sprShow (d : Dev) : Dev := d.set F.hrtSprStatState d.sprState

/-- The engine takes part in the move in progress. -/
def Dev.inMove (d : Dev) (e : Nat) : Bool :=
  match d.spr.move with
  | some m => m.inc == e || m.out == e
  | none => false

/-- A cold engine that can serve: cold or in its periodic test, free, its cord neither FAILED nor Held (R205). -/
def Dev.coldEngine (d : Dev) : Option Nat :=
  [2, 1, 0].find? fun e => (d.role e == 0 || d.role e == 5) && (d.wlOf e).isNone && !d.inMove e && d.cordSt (1 + e) != 4 && d.cordSt (1 + e) != 5

/-- The spare, when it is available for a takeover (R205) and no takeover or SWITCH waits for it. -/
def Dev.spare (d : Dev) : Option Nat := if d.flag F.hrtSprCfgSplock || d.spr.next.isSome then none else d.coldEngine

/-- A wavelength given to an engine, or to none. -/
def Dev.give (d : Dev) (w : Nat) (e : Option Nat) : Dev := d.set (sprEngF w) (e.getD 3)

/-- The selectors of a wavelength follow where its converter set is powered. -/
def Dev.selectOn (d : Dev) (w e : Nat) : Dev := (d.when (d.cordOn (4 + w)) fun d => d.select w e).discipline.txRefresh

/-- The receive selector of a wavelength moves alone; the transmit selector follows with the engine's first line frame or burst. -/
def Dev.selectRx (d : Dev) (w e : Nat) : Dev :=
  (d.when (d.cordOn (4 + w)) fun d => ((d.set (F.cvSelStatRxeng w) e).set (F.cvSelStatRxeng2 w) 3).set (F.cvSelStatOverlap w) 0).discipline.txRefresh

/-! ### Gaps (R126, R129, R205 to R209) -/

/-- A gap falls within the sealed groups being collected of a receive group: their accumulators are marked, after the cells that still wait
for their turn (R124, R191). -/
def Dev.gapMark (d : Dev) (w g : Nat) : Dev :=
  match (d.grp w g).held.getLast? with
  | some c => d.setGrp w g fun x => { x with held := x.held ++ [{ c with units := [], cut := true }] }
  | none => d.setCry w g fun c => { c with accLost := c.accLost || !c.acc.isEmpty, urgLost := c.urgLost || !c.urg.isEmpty }

/-- A gap begins: output cut, delivery stopped, no laser step sent (R54, R207), the frames in progress are sparing frames. Cells collected
for a tag are lost to it (R191). -/
def Dev.gapStart (d : Dev) (w lost : Nat) : Dev :=
  let d1 := (d.recallStep w).setWave w fun v => { v with gap := true, txCut := true, txNext := none }
  let d2 := d1.each (List.range 32) fun d k => d.when (d.get (F.lfScsAlnState w k) != 3) fun d =>
    d.setSc w k fun x => { x with frameSp := true, gapGood := false }
  let d3 := d2.each (List.range 32) fun d g => d.gapMark w g
  ((d3.count (F.hrtSprWllostTxlost w) lost).setSpr fun x => { x with late := x.late.filter (· != w) }).txRefresh

/-- A wavelength is left with no engine (R209): it holds null, delivers nothing, and its frames are sparing frames. -/
def Dev.noEngine (d : Dev) (w : Nat) : Dev :=
  let d0 := if (d.wave w).gap then d.setWave w fun v => { v with txCut := true, txNext := none } else d.gapStart w 0
  let d1 := ((d0.give w none).selectOn w 3).setSpr fun x => { x with bare := if x.bare.contains w then x.bare else x.bare ++ [w] }
  d1.sprShow.raise 0xA4 [R.hrtSprStat]

/-- SPR_GAP_LIMIT (R208). -/
def execSprGapLimit (w : Fin 2) (s : State) : Host.Outcome State Fault Refusal := s.run fun _ d =>
  d.when ((d.wave w).gap && !d.spr.late.contains w.val) fun d =>
    (d.setSpr fun x => { x with late := x.late ++ [w.val] }).raise 0xA3 [R.hrtSprWl w]

/-! ### Faults, repair and seasoning (R198, R210, R211) -/

/-- A fault is counted in the last 24 hours and since the last read. -/
def Dev.countFault (d : Dev) (e : Nat) : Dev := (d.count (F.hrtSprEngFlt24 e) 1).count (F.hrtSprEngFltcnt e) 1

/-- A fault with its cause (R198). -/
def Dev.markFault (d : Dev) (e cause : Nat) : Dev := ((d.set (F.hrtSprEngCause e) cause).countFault e).raise 0xA0 [R.hrtSprEng e]

/-- An engine is no longer due to take its wavelength back: a REVERT_NOW that waits for it is over (R217). -/
def Dev.dropDue (d : Dev) (e : Nat) : Dev :=
  d.when (d.spr1 e).due fun d => (d.setSpr1 e fun x => { x with due := false }).set F.hrtSprStatBusy 0

/-- An engine is retired: its cord is off and Held (R210, R387). -/
def Dev.retire (d : Dev) (e : Nat) : Dev := (((d.dropDue e).cordOff (1 + e)).setSt (1 + e) 5).setRole e 4

/-- A faulted engine goes to repair, its cord powered, or is retired when FLT24 has reached FLTMAX. -/
def Dev.toRepair (d : Dev) (e : Nat) : Dev :=
  let d1 := (d.dropDue e).setSpr1 e fun x => { x with loading := false, bySwitch := false }
  if d1.get F.hrtSprCfg2Fltmax ≤ d1.get (F.hrtSprEngFlt24 e) then ((d1.retire e).raise 0xA6 [R.hrtSprEng e]).sprShow
  else ((d1.when (d1.cordOn (1 + e)) fun d => d.disconnect e).setRole e 2).sprShow

/-- Seasoning starts at WTR, with a pass of the self-test (R211). -/
def Dev.season (d : Dev) (e : Nat) : Dev :=
  (((d.setRole e 3).set F.hrtSprStatSeasrem (d.get F.hrtSprCfgWtr)).setSpr1 e fun x => { x with bySwitch := false, pass := true }).sprShow

/-- REPAIR_SELF_TEST_DONE (R210): the self-test after the memory repair. -/
def execRepairSelfTestDone (e : Fin 3) (clean : Bool) (s : State) : Host.Outcome State Fault Refusal := s.run fun _ d =>
  d.when (d.role e == 2 && d.cordOn (1 + e)) fun d =>
    if clean then (d.season e).raise 0xA5 [R.hrtSprEng e] else ((d.retire e).sprShow).raise 0xA6 [R.hrtSprEng e]

/-- SEASON_PASS_DONE (R211): a pass with `left` seconds of seasoning remaining after it; `again` where the next pass begins at once
(the model's choice, log 79). -/
def execSeasonPassDone (e : Fin 3) (clean : Bool) (left : Nat) (again : Bool) (s : State) : Host.Outcome State Fault Refusal := s.run fun _ d =>
  d.when (d.role e == 3 && d.cordOn (1 + e)) fun d =>
    if clean then (d.set F.hrtSprStatSeasrem (min left (d.get F.hrtSprCfgWtr))).setSpr1 e fun x => { x with pass := again }
    else ((d.countFault e).toRepair e).raise 0xA7 [R.hrtSprEng e]

/-- SEASONING_DONE (R211): WTR has passed with every pass clean. -/
def execSeasoningDone (e : Fin 3) (s : State) : Host.Outcome State Fault Refusal := s.run fun _ d =>
  d.when (d.role e == 3 && d.cordOn (1 + e)) fun d => (d.setRole e 6).sprShow

/-- FLT24_EXPIRY (R210): a fault is 24 hours old. -/
def execFlt24Expiry (e : Fin 3) (s : State) : Host.Outcome State Fault Refusal := s.run fun _ d =>
  d.set (F.hrtSprEngFlt24 e) (d.get (F.hrtSprEngFlt24 e) - 1)

/-! ### Takeovers and restores (R205, R209) -/

/-- The incoming engine's cord is ready: its snapshot loads next. -/
def Dev.beginLoad (d : Dev) (m : Move) : Dev :=
  (((d.setRole m.inc 1).setSpr1 m.inc fun x => { x with loading := true }).setSpr fun x => { x with move := some { m with step := 1 } }).sprShow

/-- A move starts: a powered incoming engine loads at once, another is woken first. -/
def Dev.moveStart (d : Dev) (m : Move) : Dev :=
  let m1 := { m with role := d.role m.inc }
  let d1 := d.setSpr fun x => { x with move := some m1 }
  if d1.released (1 + m.inc) then d1.beginLoad m1
  else (d1.when (d1.cordSt (1 + m.inc) != 1) fun d => d.cordWake (1 + m.inc) .sparing).sprShow

/-- A SWITCH or a takeover that starts where no other move runs, or else waits for that to end (R203). -/
def Dev.moveOrWait (d : Dev) (m : Move) : Dev :=
  if d.spr.move.isSome then d.setSpr fun x => { x with next := some m }
  else (d.moveStart m).raise (if m.kind = .takeover then 0xA1 else 0xA8) [R.hrtSprStat]

/-- The move in progress has ended, and a manual command that it carried out (BUSY); the one that waits starts with the spare,
where that is still available. -/
def Dev.moveEnd (d : Dev) : Dev :=
  let free (d : Dev) (m : Move) : Dev := d.when m.manual fun d => d.set F.hrtSprStatBusy 0
  let d1 := (match d.spr.move with
    | some m => free d m
    | none => d).setSpr fun x => { x with move := none }
  match d1.spr.next with
  | none => d1.sprShow
  | some m =>
    let d2 := d1.setSpr fun x => { x with next := none }
    match d2.spare with
    | some i => d2.moveOrWait { m with inc := i }
    | none => if m.kind = .takeover then (free d2 m).noEngine m.wl else (free d2 m).sprShow

/-- A good line frame on every subcarrier of the decode set that the framer holds aligned through the gap (R126, R205; log 79). -/
def Dev.gapFrameGood (d : Dev) (w : Nat) : Bool :=
  (List.range 32).all fun k => !d.aligned w k || (d.sc w k).gapGood

/-- TAKEOVER_GAP_END (R205, R209, R219, R384): the first good line frame after a gap of `gap` line clocks, with the framer in service. -/
def execTakeoverGapEnd (w : Fin 2) (gap : Nat) (s : State) : Host.Outcome State Fault Refusal := s.run fun _ d =>
  match d.spr.move with
  | some m =>
    d.when (m.wl == w && m.step == 2 && (m.kind == .restore || (m.kind == .takeover && (d.wave w).gap))
      && (d.get (F.leRxcStatAcq m.inc) == 6) && d.released (6 + w) && d.gapFrameGood w) fun d =>
      let d1 := ((d.setWave w fun v => { v with gap := false }).set (F.hrtSprWlGap w) (min gap (2 ^ 24 - 1))).when (m.kind == .takeover) fun d =>
        d.count (F.hrtSprWlTkcnt w) 1
      (d1.raise 0xA2 [R.hrtSprWl w]).moveEnd
  | none => d

/-- The takeover of a wavelength by the spare, or none where no spare is available (R205, R209); no engine serves it in
the gap until the spare does. -/
def Dev.takeover (d : Dev) (w e : Nat) (manual : Bool) : Dev :=
  match d.spare with
  | some i => (d.give w none).moveOrWait { kind := .takeover, wl := w, inc := i, out := e, manual := manual }
  | none => d.noEngine w

/-- A fault of the engine that serves a wavelength outside a move. -/
def Dev.servingFault (d : Dev) (w e cause lost : Nat) (manual : Bool) : Dev :=
  ((((d.markFault e cause).gapStart w lost).stopsServing e).toRepair e).takeover w e manual

/-- Cells already passed to a faulted engine: how many the spec does not say where no command names them, and it is open (R207). -/
def Dev.pipeCells (d : Dev) : Nat := (Config.freeWord d.free).toNat

/-- An engine that has seasoned and waits; that of the wavelength first. -/
def Dev.seasoned (d : Dev) (w : Nat) : Option Nat :=
  let free := [0, 1, 2].filter fun e => d.role e == 6 && (d.wlOf e).isNone && d.cordSt (1 + e) != 4
  match free.find? fun e => (d.spr1 e).home == w with
  | some e => some e
  | none => free.head?

/-- RESTORE (R209): of two wavelengths without an engine the one PRI names comes first. -/
def execRestore (w : Fin 2) (s : State) : Host.Outcome State Fault Refusal := s.run fun _ d =>
  match d.seasoned w with
  | some e => d.when (d.spr.bare.contains w.val && d.spr.move.isNone && (d.spr.bare.length < 2 || d.get F.hrtSprCfgPri == w.val)) fun d =>
      (d.moveStart { kind := .restore, wl := w, inc := e, out := 3 }).raise 0xAE [R.hrtSprStat]
  | none => d

/-- The incoming engine of a takeover or a restore has its parameters and serves (R205): the receive selector moves to it at once,
the transmit selector with the first line frame or burst at least 384 line clocks later. -/
def Dev.takeWave (d : Dev) (m : Move) : Dev :=
  let d1 := match d.newest m.wl with
    | some s => d.loadSnap m.wl m.inc s
    | none => (d.startBare m.wl m.inc).set F.hrtSprStatNosnap 1
  let d2 := (((d1.dropDue m.inc).setSpr1 m.inc fun x =>
    { x with loading := false, bySwitch := false, home := if m.kind == .restore then m.wl else x.home }).setSpr fun x =>
      { x with bare := x.bare.filter (· != m.wl), move := some { m with step := 2 } }).give m.wl (some m.inc)
  let d3 := ((d2.setWave m.wl fun v => { v with txNext := some ⟨m.inc, d.time.ticks + 192, false⟩ }).selectRx m.wl m.inc).when
    (d2.cordOn (4 + m.wl)) fun d => d.connect m.wl m.inc
  d3.discipline.txRefresh.sprShow

/-! ### Hitless moves (R212 to R214, R217) -/

/-- The overlap begins: samples to both engines. A reloaded engine's REGSET values come before the snapshot's (R377). -/
def Dev.overlap (fz : Fuses) (d : Dev) (m : Move) : Dev :=
  match d.newest m.wl with
  | none => d.set F.hrtSprStatNosnap 1
  | some s =>
    let d1 := (d.loadSnap m.wl m.inc s).setSpr1 m.inc fun x => { x with loading := false }
    let d2 := if m.kind = .reloadBack then (d1.applySec fz (1 + m.inc)).1 else d1
    let d3 := d2.setSpr fun x => { x with move := some { m with step := 2 } }
    d3.when (d3.cordOn (4 + m.wl)) fun d => ((d.set (F.cvSelStatRxeng2 m.wl) m.inc).set (F.cvSelStatOverlap m.wl) 1).connect m.wl m.inc

/-- The selectors go back to the outgoing engine. -/
def Dev.overlapOff (d : Dev) (m : Move) : Dev :=
  (d.when (d.cordOn (4 + m.wl)) fun d => (d.set (F.cvSelStatRxeng2 m.wl) 3).set (F.cvSelStatOverlap m.wl) 0).when (d.cordOn (1 + m.inc)) fun d =>
    d.disconnect m.inc

/-- A move is abandoned (R213, R214): `faulted` where the incoming engine has faulted or failed and its state is already set. -/
def Dev.abandonMove (d : Dev) (m : Move) (faulted : Bool) : Dev :=
  let d1 := (d.overlapOff m).setSpr1 m.inc fun x => { x with loading := false, due := false }
  let d2 := if faulted then d1
    else if m.role = 3 ∨ m.role = 6 then d1.season m.inc
    else (d1.cordOff (1 + m.inc)).setRole m.inc 0
  (d2.raise 0xAA [R.hrtSprEng m.out, R.hrtSprEng m.inc]).moveEnd

/-- Delivery and transmission move to the incoming engine (R212), the outgoing
one goes off: to wait after SWITCH, to its reload, else cold. -/
def Dev.completeMove (d : Dev) (m : Move) : Dev :=
  let d1 := ((d.stopsServing m.out).give m.wl (some m.inc)).selectOn m.wl m.inc
  let d2 := d1.when (d1.cordOn (1 + m.out)) fun d => d.disconnect m.out
  let d3 := match m.kind with
    | .switch | .reloadOut => (d2.cordOff (1 + m.out)).setRole m.out 6
    | .revert | .reloadBack | .takeover | .restore => (d2.cordOff (1 + m.out)).setRole m.out 0
  let d4 := d3.setSpr1 m.out fun x => { x with bySwitch := m.kind == .switch }
  let d5 := d4.setSpr1 m.inc fun x => { x with bySwitch := false, due := false }
  (d5.txRefresh.raise 0xA9 [R.cvSelStat m.wl]).moveEnd

/-- The engine that can take a wavelength back: its own, seasoned, and due by AUTOREV or by command (R211, R212). -/
def Dev.revertDue (d : Dev) (w : Nat) : Option Nat :=
  [0, 1, 2].find? fun e => d.role e == 6 && (d.spr1 e).home == w && (d.wlOf e).isNone && d.cordSt (1 + e) != 4
    && ((d.spr1 e).due || (d.flag F.hrtSprCfgAutorev && !(d.spr1 e).bySwitch))

/-- Nothing holds a revert of a wavelength back (R215): no other move, no reload of a cord of it, no transition. -/
def Dev.revertFree (d : Dev) (w : Nat) : Bool :=
  d.spr.move.isNone && d.pwr.trans.isNone && match d.img.reload with
    | some r => r.cord != 4 + w && r.cord != 6 + w && !(1 ≤ r.cord && r.cord ≤ 3 && ((d.wlOf (r.cord - 1)) == some w || r.wl == some w))
    | none => true

/-- REVERT_START (R204, R212, R215): a revert that is due waits for its snapshot and for what holds it back. -/
def Dev.revertStart (d : Dev) (w : Nat) : Dev :=
  match d.revertDue w, d.assigned w with
  | some e, some o =>
    if !d.revertFree w || (d.wave w).gap then d
    else if (d.newest w).isNone then (d.set F.hrtSprStatNosnap 1).setSpr1 e fun x => { x with due := true }
    else (d.moveStart { kind := .revert, wl := w, inc := e, out := o, manual := (d.spr1 e).due }).raise 0xA8 [R.hrtSprStat]
  | _, _ => d

def execRevertStart (w : Fin 2) (s : State) : Host.Outcome State Fault Refusal := s.run fun _ d => d.revertStart w

/-! ### A fault by the place of its engine (R205, R209, R214) -/

/-- The outgoing engine of a move has faulted (R214, R219): in the overlap the incoming engine takes the wavelength at once, its
transmit output at the next transmit frame boundary; before it the move goes on as a takeover by a cold engine or as a restore by
a seasoned one. -/
def Dev.outgoingFault (d : Dev) (m : Move) (cause lost : Nat) : Dev :=
  let d1 := ((d.markFault m.out cause).gapStart m.wl lost).stopsServing m.out
  if m.step = 2 then
    let d2 := d1.raise 0xAA [R.hrtSprEng m.out, R.hrtSprEng m.inc]
    let d3 := (((d2.toRepair m.out).give m.wl (some m.inc)).setWave m.wl fun v =>
      { v with txNext := some ⟨m.inc, d.time.ticks, true⟩ }).selectRx m.wl m.inc
    ((d3.setSpr fun x => { x with move := some { m with kind := .takeover } }).sprShow).txRefresh
  else if m.role = 0 ∨ m.role = 5 then
    (((d1.toRepair m.out).give m.wl none).setSpr fun x => { x with move := some { m with kind := .takeover } }).sprShow.raise 0xA1 [R.hrtSprStat]
  else
    (((d1.toRepair m.out).noEngine m.wl).setSpr fun x => { x with move := some { m with kind := .restore, out := 3 } }).sprShow.raise 0xAE [R.hrtSprStat]

/-- The incoming engine of a takeover or restore is lost: the wavelength has no engine (R209). -/
def Dev.takeoverLost (d : Dev) (m : Move) : Dev :=
  ((d.setSpr1 m.inc fun x => { x with loading := false }).noEngine m.wl).moveEnd

/-- The incoming engine of a move is lost to it, its own state already set. -/
def Dev.incomingGone (d : Dev) (m : Move) (lost : Nat) : Dev :=
  if m.kind != .takeover && m.kind != .restore then d.abandonMove m true
  else (d.when (m.step == 2) fun d => d.gapStart m.wl lost).takeoverLost m

/-- A checker's fault of a powered engine (R198). -/
def Dev.engineFault (d : Dev) (e cause lost : Nat) : Dev :=
  let plain (d : Dev) : Dev := match d.wlOf e with
    | some w => if d.role e = 1 then d.servingFault w e cause lost false else (d.markFault e cause).toRepair e
    | none => (d.markFault e cause).toRepair e
  if !d.cordOn (1 + e) || d.role e == 4 then d
  else match d.spr.move with
    | none => plain d
    | some m =>
      let hitless := m.kind != .takeover && m.kind != .restore
      if m.inc = e then (((d.markFault e cause).stopsServing e).toRepair e).incomingGone m lost
      else if m.out = e ∧ hitless then d.outgoingFault m cause lost
      else plain d

/-! ### The spare's self-test (R216) -/

/-- SPARE_SELF_TEST. -/
def execSpareSelfTest (s : State) : Host.Outcome State Fault Refusal := s.run fun _ d =>
  match [2, 1, 0].find? fun e => d.role e == 0 && (d.wlOf e).isNone && !d.inMove e && decide (d.cordSt (1 + e) ≤ 3) with
  | some e => d.when (d.get F.hrtSprCfg2Sptest != 0 && !([0, 1, 2].any fun k => d.role k == 5)) fun d =>
      ((d.setRole e 5).when (d.cordSt (1 + e) == 0) fun d => d.cordWake (1 + e) .sparing).sprShow
  | none => d

/-- SPARE_TEST_DONE. -/
def execSpareTestDone (clean : Bool) (s : State) : Host.Outcome State Fault Refusal := s.run fun _ d =>
  match [0, 1, 2].find? fun e => d.role e == 5 && d.cordOn (1 + e) && !d.inMove e with
  | some e =>
    if clean then ((d.cordOff (1 + e)).setRole e 0).sprShow
    else (((d.markFault e 7).retire e).sprShow).raise 0xAC [R.hrtSprEng e]
  | none => d

/-- COLD_ENGINE_IDLE_OFF (R391): 1 ms after the last access to a cold engine. -/
def execColdEngineIdleOff (e : Fin 3) (s : State) : Host.Outcome State Fault Refusal := s.run fun _ d =>
  d.when (d.role e == 0 && d.cordOn (1 + e) && d.cordSt (1 + e) != 6 && !d.inMove e) fun d => d.cordOff (1 + e)

/-! ### Manual commands (R217) -/

/-- The check of a write of HRT_SPR_CMD beside its ranges: 0xA where the command is refused. -/
def Dev.sprCheck (d : Dev) (v : Word) : Nat :=
  let op := F.hrtSprCmdOp.of v
  let w := F.hrtSprCmdWl.of v
  let e := F.hrtSprCmdEng.of v
  let mine := [0, 1, 2].filter fun k => (d.spr1 k).home == w && (d.wlOf k).isNone && (d.role k == 3 || d.role k == 6)
  if F.hrtSprCmdGo.of v = 0 then 0
  else if d.flag F.hrtSprStatBusy then 10
  else if op = 1 ∨ op = 2 then (if d.spare.isNone || (d.assigned w).isNone then 10 else 0)
  else if op = 3 then
    (match mine.head? with
     | some k => if d.role k = 3 && (d.spr1 k).pass then 10 else 0
     | none => 10)
  else if op = 4 then (if (d.wlOf e).isSome then 10 else 0)
  else if d.role e = 4 then 0 else 10

/-- An accepted manual command. -/
def Dev.sprGo (d : Dev) (v : Word) : Dev :=
  let op := F.hrtSprCmdOp.of v
  let w := F.hrtSprCmdWl.of v
  let e := F.hrtSprCmdEng.of v
  let d1 := ({ d with free := d.free + 1 }).raise 0xAD [R.hrtSprCmd]
  match op, d.assigned w with
  | 1, some o => match d1.spare with
    | some i => (d1.set F.hrtSprStatBusy 1).moveOrWait { kind := .switch, wl := w, inc := i, out := o, manual := true }
    | none => d1
  | 2, some o => (d1.set F.hrtSprStatBusy 1).servingFault w o 6 d.pipeCells true
  | 3, _ =>
    match [0, 1, 2].find? fun k => (d.spr1 k).home == w && (d.wlOf k).isNone && (d.role k == 3 || d.role k == 6) with
    | some k => (((d1.setRole k 6).setSpr1 k fun x => { x with due := true }).set F.hrtSprStatBusy
        (if d.spr.bare.contains w then 0 else 1)).sprShow.revertStart w
    | none => d1
  | 4, _ => match d1.spr.move with
    | some m => if m.inc = e then ((d1.retire e).incomingGone m 0).sprShow else (d1.retire e).sprShow
    | none => (d1.retire e).sprShow
  | 5, _ => ((((d1.set (F.hrtSprEngFlt24 e) 0).setRole e 2).cordWake (1 + e) .sparing)).sprShow
  | _, _ => d1

/-- A write of HRT_SPR_CMD with GO refused (R217). -/
def Dev.sprRefuse (d : Dev) : Dev := d.raise 0xAF [R.hrtSprCmd]

end Sys2Proof.Machine
end

