-- ==== Sys2Proof/Machine/Power.lean ====
section
/-!
DEFINITION. Power states: 15_power. Requests, refusals and aborts, transitions cord by cord, the slices and ports that take the
place of a cord's switching, the record of BANKED, and the search of DOZE.
-/

namespace Sys2Proof.Machine

/-! ### Hearth's records (R425) -/

/-- A KIND 2 entry whose arguments the spec leaves open. -/
def Dev.ashNote (d : Dev) (code : Nat) : Dev :=
  { d with free := d.free + 1 }.ashAdd 2 0 code ((List.range 12).map fun i => Config.freeByte d.free i)

/-! ### Slices of PKT (R225, R379, R380, R395) -/

/-- The slices in use: 24, or 6 in DOZE. -/
def Dev.sliceCount (d : Dev) : Nat := if d.get F.hrtPwrStateCur = 1 then 6 else 24

/-- The spread map of PKT's section in force. -/
def Dev.sectionMap (d : Dev) : Nat × List Nat :=
  ((d.sec 8).recs.findSome? fun r => match r with
    | .spread seed m => some (seed, m)
    | _ => none).getD (2 ^ 32 - 1, List.replicate 256 0)

/-- The map entries that name a pair of slices. -/
def Dev.entriesOf (d : Dev) (p : Nat) : List Nat := (List.range 256).filter fun i => d.get (F.pktSprMapSlice i) / 2 == p

/-- No unit stands in a slice. -/
def Dev.sliceEmpty (d : Dev) (n : Nat) : Bool := (Tbl.get [] d.pkt.stores n).isEmpty && !d.pkt.decided.any fun x => x.slice == n

/-- The run goes on with the next pair that has entries; true once it is over. A new seed waits for every slice to be empty. -/
def Dev.nextPair (r : PktRun) : List Nat → Dev → Dev × Bool
  | [], d =>
    if r.seed = d.get F.pktSprCfgSeed then (d.setPkt fun x => { x with run := none }, true)
    else (d.setPkt fun x => { x with run := some { r with pairs := [], cur := none, held := [], moved := [] } }, false)
  | p :: t, d =>
    let es := d.entriesOf p
    if es.isEmpty then Dev.nextPair r t d
    else (d.setPkt fun x => { x with run := some { r with pairs := t, cur := some p, held := es, moved := [] } }, false)

/-- The pair in hand is empty: its entries move round-robin, in entry order, to the other slices in use. -/
def Dev.movePair (d : Dev) (r : PktRun) (p : Nat) : Dev × Bool :=
  let dst := if r.shrink then List.range 6 else (List.range d.sliceCount).filter fun n => n / 2 != p
  let d1 := d.each r.held.zipIdx fun d x => d.set (F.pktSprMapSlice x.1) (dst.getD (x.2 % dst.length) 0)
  if r.shrink then Dev.nextPair r r.pairs d1
  else (d1.setPkt fun x => { x with run := some { r with held := [], moved := r.held.map fun i => (i, Tbl.get 0 r.newMap i) } }, false)

/-- A moved entry goes back to the slice the new map names. -/
def Dev.returnEntry (d : Dev) (r : PktRun) (i s : Nat) : Dev × Bool :=
  let m := r.moved.filter fun x => x.1 != i
  let d1 := d.set (F.pktSprMapSlice i) s
  if m.isEmpty then Dev.nextPair r r.pairs d1 else (d1.setPkt fun x => { x with run := some { r with moved := m } }, false)

/-- A run over all pairs towards a map and a seed. -/
def Dev.startRun (d : Dev) (reload : Bool) : Dev × Bool :=
  let x := d.sectionMap
  let m := if d.sliceCount = 6 && reload then x.2.zipIdx.map fun y => y.2 % 6 else x.2
  Dev.nextPair { newMap := m.zipIdx.map fun y => (y.2, y.1), seed := if reload then x.1 else d.get F.pktSprCfgSeed, reload := reload } (List.range 12) d

/-- Slices 6 to 23 given up: the pairs in reverse. -/
def Dev.startShrink (d : Dev) : Dev × Bool :=
  Dev.nextPair { seed := d.get F.pktSprCfgSeed, shrink := true } ((List.range 9).map (11 - ·)) d

/-! ### Refusals and aborts (R401) -/

/-- T keeps a cord of the DOZE wavelength on, the engine that is taking it over among them (R394, R405). -/
def Dev.dozeKeeps (d : Dev) (c : Nat) : Bool :=
  let w := d.get F.hrtPwrCfgDozewl
  c == 4 + w || c == 6 + w || decide (8 ≤ c) || d.assigned w == some (c - 1) || d.spr.move.any fun m =>
    (m.kind == .takeover || m.kind == .restore) && m.wl == w && m.inc + 1 == c

/-- T turns a cord 1 to 11 off. -/
def Dev.turnsOff (d : Dev) (t c : Nat) : Bool := t == 2 || (t == 1 && !d.dozeKeeps c)

/-- T turns a cord 1 to 11 on: in FULL by policy, an engine's by its role. -/
def Dev.turnsOn (d : Dev) (t c : Nat) : Bool :=
  if t = 0 then
    (if c ≤ 3 then [1, 2, 3].contains (d.role (c - 1))
     else d.get (F.hrtPwrCordPol c) == 0 || (d.get (F.hrtPwrCordPol c) == 1 && (d.cordInfo c).wasOn))
  else t == 1 && d.dozeKeeps c

/-- The engine takes a wavelength over, restores one, or is in a hitless move: not the faulted engine of a takeover (R401, R450). -/
def Dev.moves (d : Dev) (e : Nat) : Bool := d.spr.move.any fun m =>
  m.inc == e || (m.out == e && m.kind != .takeover && m.kind != .restore)

/-- The engine is in a takeover, revert overlap, restore or repair self-test, its cord powered. -/
def Dev.engineBusy (d : Dev) (e : Nat) : Bool :=
  decide (1 ≤ d.cordSt (1 + e)) && decide (d.cordSt (1 + e) ≤ 3) && (d.moves e || (d.role e == 2 && d.spr.move.isNone))

/-- The wavelength of DOZE is in activation state 2 to 5. -/
def Dev.dozeActive (d : Dev) : Bool :=
  let st := d.get (F.lfActStatState (d.get F.hrtPwrCfgDozewl))
  (d.wave (d.get F.hrtPwrCfgDozewl)).leaf && decide (2 ≤ st) && decide (st ≤ 5)

/-- The first refuser of a request, in the order of R401. -/
def Dev.refuser (d : Dev) (t : Nat) : Option Nat :=
  let w := d.get F.hrtPwrCfgDozewl
  let wakes := (List.range 12).any fun c => decide (1 ≤ c) && d.turnsOn t c && d.cordSt c == 0
  match [0, 1, 2].find? fun e => d.turnsOff t (1 + e) && d.engineBusy e with
  | some e => some (1 + e)
  | none =>
    if t = 1 ∧ !(d.wave w).leaf then some 0x20
    else if t = 1 ∧ d.dozeActive then some 0x21
    else if t = 1 ∧ d.spr.bare.contains w then some 0x22
    else if d.flag F.hrtCfgStatNoimg || d.flag F.hrtCfgStatDisputed || d.flag F.hrtCfgStatMixed then some 0x23
    else if wakes && !d.flag F.hrtClkStatRefok then some 0x25 else none

/-- A refusal recorded. -/
def Dev.pwrRefuse (d : Dev) (k : Nat) : Dev :=
  (((d.count (F.hrtPwrRefcntRef k) 1).set F.hrtPwrStateLastkind 0).set F.hrtPwrStateLastcode k).raise 0x11 [R.hrtPwrState, R.hrtPwrRefcnt k]

/-- An abort recorded. -/
def Dev.pwrAbort (d : Dev) (k : Nat) : Dev :=
  (((d.count (F.hrtPwrRefcntAbt k) 1).set F.hrtPwrStateLastkind 1).set F.hrtPwrStateLastcode k).raise 0x12 [R.hrtPwrState, R.hrtPwrRefcnt k]

def Dev.setTrans (d : Dev) (f : Trans → Trans) : Dev := d.setPwr fun p => { p with trans := p.trans.map f }

/-- A condition of R401 arises in a transition: the lowest code waits for the next cord boundary. -/
def Dev.wantAbort (d : Dev) (k : Nat) : Dev := d.setTrans fun t =>
  if t.back then t else { t with abort := some (match t.abort with
    | some j => min j k
    | none => k) }

/-! ### The items of a transition (R394, R395, R398) -/

/-- DOZE takes the ports: service ports with LPI enabled go idle, every other one is parked. -/
def Dev.dozePorts (d : Dev) : Dev :=
  d.each (List.range 96) fun d p =>
    if !d.released (hsCord p) || d.get (F.hsMacBondLanes p) = 0 || d.get (F.hsMacParkPstate p) = 1 then d
    else if d.get (F.hsMacBondClass p) = 0 && d.flag (F.hsMacLpiEn p) then
      d.when (d.linkUp p && !d.flag (F.hsMacLpistatTxlpi p) && (d.mac p).cur.isNone) fun d =>
        (d.set (F.hsMacLpistatTxlpi p) 1).count (F.hsMacLpistatTxlpicnt p) 1
    else (d.park p).setPwr fun x => { x with parked := x.parked ++ [p] }

/-- The ports DOZE parked are woken. -/
def Dev.wakePorts (d : Dev) : Dev :=
  (d.each d.pwr.parked fun d p => d.when (d.get (F.hsMacParkPstate p) == 1 && d.released (hsCord p)) fun d => d.unpark p).setPwr fun x =>
    { x with parked := [] }

/-- The item at the head is being switched. -/
def Dev.inProgress (d : Dev) (c : Nat) : Bool := if c = 21 then d.pkt.run.isSome else c != 20 && (d.cordSt c == 1 || d.cordSt c == 6)

def Dev.noteDone (d : Dev) (c : Nat) (on : Bool) : Dev := d.setTrans fun t => { t with done := t.done ++ [(c, on)] }

/-- One item: true once it is handled, false while it goes on. Cords in state 4 or 5 are passed over. -/
def Dev.switchItem (d : Dev) (c : Nat) (on : Bool) : Dev × Bool :=
  if c = 20 then (if on then (d.wakePorts, true) else (d.dozePorts.noteDone c on, true))
  else if d.inProgress c then (d, false)
  else if c = 21 then
    let full := (List.range 256).all fun i => d.get (F.pktSprMapSlice i) == d.sectionMap.2.getD i 0
    let small := (List.range 256).all fun i => decide (d.get (F.pktSprMapSlice i) < 6)
    if !d.released 8 || (if on then full else small) then (d, true) else (if on then d.noteDone c on |>.startRun false else (d.noteDone c on).startShrink)
  else
    let st := d.cordSt c
    if 4 ≤ st then (d, true)
    else if on then (if st = 0 then ((d.noteDone c on).cordWake c .trans, false) else (d, true))
    else if st = 0 then (d, true)
    else (((d.noteDone c on).startDrain c .trans).when (decide (c ≤ 3) && d.role (c - 1) == 5) fun d => (d.setRole (c - 1) 0).sprShow, false)

/-- Items in order without a test for aborts: the way back, and true at its end. -/
def Dev.goBack : List (Nat × Bool) → Dev → Dev × Bool
  | [], d => (d.setTrans fun t => { t with todo := [] }, true)
  | x :: t, d =>
    let y := d.switchItem x.1 x.2
    if y.2 then Dev.goBack t y.1 else (y.1.setTrans fun r => { r with todo := x :: t }, false)

/-- The first condition of T, in the order of the table of R401, that holds now. -/
def Dev.abortNow (d : Dev) (t : Trans) (next : Option (Nat × Bool)) : Option Nat :=
  if t.target = 1 ∧ d.dozeActive then some 0x21
  else if t.target = 1 ∧ d.spr.bare.contains (d.get F.hrtPwrCfgDozewl) then some 0x22
  else match next with
    | some (c, true) => if c ≤ 11 ∧ d.cordSt c = 0 ∧ !d.flag F.hrtClkStatRefok then some 0x25 else none
    | _ => none

/-- What aborts the transition at a cord boundary: a code that waits or a condition that holds now, the first in the order of
the table (R401), whose rows stand in rising order of code. -/
def Dev.abortCode (d : Dev) (t : Trans) (next : Option (Nat × Bool)) : Option Nat :=
  match t.abort, d.abortNow t next with
  | some k, some n => some (min k n)
  | some k, none => some k
  | none, n => n

/-- An abort: what was switched goes back in reverse order, CUR stays. -/
def Dev.abortTrans (d : Dev) (k : Nat) : Dev × Bool :=
  let l := match d.pwr.trans with
    | some t => t.done.reverse.map fun x => (x.1, !x.2)
    | none => []
  Dev.goBack l (((d.pwrAbort k).set F.hrtPwrStateTgt (d.get F.hrtPwrStateCur)).setTrans fun t => { t with back := true, done := [], abort := none })

/-- Items in order; true when the transition is over. -/
def Dev.goOn : List (Nat × Bool) → Dev → Dev × Bool
  | [], d => match d.pwr.trans with
    | some t => match d.abortCode t none with
      | some k => d.abortTrans k
      | none => (d.setTrans fun t => { t with todo := [] }, true)
    | none => (d, false)
  | x :: l, d => match d.pwr.trans with
    | some t =>
      match (if d.inProgress x.1 then none else d.abortCode t (some x)) with
      | some k => d.abortTrans k
      | none =>
        let y := d.switchItem x.1 x.2
        if y.2 then Dev.goOn l y.1 else (y.1.setTrans fun r => { r with todo := x :: l }, false)
    | none => (d, false)

/-! ### BANKED (R394, R397) -/

/-- The record of bank 3. -/
def Dev.bankRecord (d : Dev) : List Byte :=
  let wl (w : Nat) : List Byte :=
    beBytes 1 (if (d.wave w).leaf then 1 else 0) ++ beBytes 1 (d.get (F.lfActStatState w)) ++ beBytes 2 (d.get (F.lfActIdTid w))
      ++ beBytes 4 (d.reg (R.lfActEqd w)).toNat ++ beBytes 4 (d.reg (R.lfActRtd w)).toNat ++ beBytes 4 (d.dirSfn w 0)
  let b := beBytes 4 d.time.ns ++ beBytes 2 d.time.wraps ++ [0, 0] ++ wl 0 ++ wl 1
  b ++ beBytes 4 (crcOf b)

/-- Entry to BANKED: the record is written, and every ring flushed and disabled, before any cord goes off. -/
def Dev.bankEntry (d : Dev) : Dev :=
  let d1 := d.setEmber fun m => { m with bytes := (d.bankRecord.zipIdx).foldl (fun t x => Tbl.set 0 t (3 * 2 ^ 21 + x.2) x.1) m.bytes }
  (d1.each d1.enabledRings fun d r => d.ringFlush r.1 r.2 []).enablesOff 12

/-- Banks of a mask lose their contents; the snapshot registers follow. -/
def Dev.loseBanks (d : Dev) (lost : Nat → Bool) : Dev :=
  let d1 := d.setEmber fun m => { m with
    snaps := m.snaps.filter fun x => !lost (x.1 / 2)
    bytes := m.bytes.filter fun x => !lost (x.1 / 2 ^ 21) }
  d1.each [0, 1, 2] fun d e => d.snapShow e

/-- BANK_LOST at exit from BANKED (R406): a retained bank with an uncorrectable error, or bank 3 with a bad CRC. -/
def Dev.bankExit (d : Dev) (bad : Nat) : Dev :=
  let keep := d.ember.kept
  let d1 := d.loseBanks fun b => bad.testBit b && keep.testBit b
  let b := (List.range 44).map fun i => Tbl.get 0 d1.ember.bytes (3 * 2 ^ 21 + i)
  d1.when (bad &&& keep != 0 || (keep.testBit 3 && crcOf (b.take 40) != beAt b 40 4)) fun d => d.raise 0x19 [R.hrtPwrRetain]

/-! ### Start and end of a transition -/

/-- The items that lead from CUR to T in the order of R398. -/
def Dev.transItems (d : Dev) (t : Nat) : List (Nat × Bool) :=
  let off := (((List.range 11).map (11 - ·)).filter fun c => d.turnsOff t c).map fun c => (c, false)
  let on (lo hi : Nat) : List (Nat × Bool) := (((List.range (hi - lo)).map (lo + ·)).filter fun c => d.turnsOn t c).map fun c => (c, true)
  if t = 2 then off
  else if t = 1 then (if d.get F.hrtPwrStateCur = 0 then [(20, false), (21, false)] else []) ++ off ++ on 1 9 ++ [(21, false)] ++ on 9 12 ++ [(20, false)]
  else on 1 9 ++ [(21, true)] ++ on 9 12 ++ [(20, true)]

/-- A transition starts. -/
def Dev.transSetup (d : Dev) (t : Nat) : Dev :=
  let d1 := d.when (d.get F.hrtPwrStateCur == 0) fun d => d.each ((List.range 11).map (1 + ·)) fun d c =>
    d.setCordInfo c fun x => { x with wasOn := decide (1 ≤ d.cordSt c) && decide (d.cordSt c ≤ 3) }
  let l := d1.transItems t
  let d2 := d1.when (t == 2) fun d => d.bankEntry
  (((d2.set F.hrtPwrStateTgt t).set F.hrtPwrStateBusy 1)).setPwr fun p => { p with trans := some { target := t, todo := l } }

/-- The decode set of the DOZE wavelength where CUR changes while it stands in UNLOCKED (R143, R396). -/
def Dev.dozeDecode (d : Dev) (old : Nat) : Dev :=
  let w := d.get F.hrtPwrCfgDozewl
  d.when ((old == 1 || d.get F.hrtPwrStateCur == 1) && d.cordOn (6 + w) && (d.wave w).leaf && d.get (F.lfActStatState w) == 0) fun d =>
    d.askDecode w (d.actDecode w 0)

/-- A transition is over: T reached, or the former state after an abort. -/
def Dev.transFinish (d : Dev) : Dev :=
  match d.pwr.trans with
  | none => d
  | some t =>
    let old := d.get F.hrtPwrStateCur
    let d1 := (d.setPwr fun p => { p with trans := none }).set F.hrtPwrStateBusy 0
    if t.back then d1
    else
      let d1 := d1.when (old == 2 && t.target != 2 && !t.checked) fun d => d.bankExit 0
      let d2 := (d1.set F.hrtPwrStateCur t.target).set F.hrtPwrStateTgt t.target
      let keep := if t.target = 2 then d.get F.hrtPwrRetainBanks else 0xFFFF
      let d3 := (d2.loseBanks fun b => !keep.testBit b).setEmber fun m => { m with kept := keep }
      (d3.dozeDecode old).raise 0x10 [R.hrtPwrState]

/-- The transition goes on from its present item; true when it is over. -/
def Dev.transStep (d : Dev) : Dev × Bool :=
  match d.pwr.trans with
  | none => (d, false)
  | some t => if t.back then Dev.goBack t.todo d else Dev.goOn t.todo d

/-- One request checked and started, as far as it goes. -/
def Dev.startRequest (d : Dev) (t : Nat) : Dev :=
  match d.refuser t with
  | some k => d.pwrRefuse k
  | none => let x := (d.transSetup t).transStep; if x.2 then x.1.transFinish else x.1

/-- The pending request runs once nothing else does (R399). -/
def Dev.runPending (d : Dev) : Dev :=
  let t := d.get F.hrtPwrStatePend
  if t = 3 || d.pwr.trans.isSome || d.img.reload.isSome then d
  else let d1 := d.set F.hrtPwrStatePend 3; if t = d1.get F.hrtPwrStateTgt then d1 else d1.startRequest t

/-- The transition goes on; at its end the pending request runs. -/
def Dev.powerGo (d : Dev) : Dev := let x := d.transStep; if x.2 then x.1.transFinish.runPending else x.1

/-- A state request from the host, a mailbox or a trigger (R399, R425). -/
def Dev.powerRequest (d0 : Dev) (t : Nat) : Dev :=
  let d := d0.ashNote 5
  if t = d.get F.hrtPwrStateTgt then d
  else if d.pwr.trans.isNone && d.img.reload.isNone then (d.startRequest t).runPending
  else if d.get F.hrtPwrStatePend = 3 then d.set F.hrtPwrStatePend t
  else (((d.set F.hrtPwrStatePend t).count (F.hrtPwrRefcntRef 0x2F) 1).set F.hrtPwrStateLastcode 0x2F).raise 0x13 [R.hrtPwrRefcnt 0x2F]

/-- An automatic trigger requests FULL (R391, R400). -/
def Dev.autoFull (d : Dev) : Dev := (d.raise 0x14 [R.hrtPwrCfg]).powerRequest 0

/-- DOZE_SEARCH_STEP (R396): a decode set has been held for 64 superframes. -/
def execDozeSearchStep (s : State) : Host.Outcome State Fault Refusal := s.run fun _ d =>
  let w := d.get F.hrtPwrCfgDozewl
  d.when (d.get F.hrtPwrStateCur == 1 && d.cordOn (6 + w) && (d.wave w).leaf && d.get (F.lfActStatState w) == 0 && !d.flag (F.lfAlnStatBcnv w))
    fun d =>
      let m := (d.wave w).decode
      d.askDecode w (if m = 0xFF then 0xFF00 else if m = 0xFF00 then 0xFF0000 else if m = 0xFF0000 then 0xFF000000 else 0xFF)

end Sys2Proof.Machine
end

