-- ==== Sys2Proof/Machine/Reconfig.lean ====
section
/-!
DEFINITION. In-service reconfiguration: the reloads of R372 to R381 and R485, boot selection (R368 to R371), and what the moments
of a cord (ready, timed out, drained) and of an engine (loaded, moved, faulted) do for the reload, the transition and the
move they belong to.
-/

namespace Sys2Proof.Machine

def Dev.setReload (d : Dev) (r : Option Reload) : Dev := d.setImg fun m => { m with reload := r }

/-- CORD and STEP of HRT_CFG_STAT. -/
def Dev.cfgStep (d : Dev) (c n : Nat) : Dev := (d.set F.hrtCfgStatCord c).set F.hrtCfgStatStep n

/-- An entry of the ash log at a place of its circle, where its CRC is good (R424). -/
def Dev.ashAt (d : Dev) (k : Nat) : Option (List Byte) :=
  let b := d.mramAt (0x3000000 + 32 * k) 32
  if crcOf (b.take 28) = beAt b 28 4 then some b else none

/-- The newest entry with a good CRC, by the order of ESEQ (R424); a place with no byte listed holds none. -/
def Dev.ashScan (d : Dev) : Option Nat :=
  let ks := ((d.img.mram.filter fun x => x.1 / 2 ^ 23 == 6).map fun x => (x.1 - 0x3000000) / 32).eraseDups
  ks.foldl (fun a k => match d.ashAt k, a with
    | some b, some m => if newer (beAt b 0 4) m then some (beAt b 0 4) else some m
    | some b, none => some (beAt b 0 4)
    | none, a => a) none

/-- Firmware starts (R410, R424, R425): it continues the ash log after its newest entry. -/
def Dev.fwStart (d : Dev) (reason : Nat) : Dev :=
  let d1 := { d with ash := { d.ash with newest := d.ashScan } }
  (((d1.set F.hrtHstStatFwrun 1).set F.hrtHstStatRstreason reason).ashNote 1).raise 0x00 [R.hrtHstStat]

/-- The policies of CORDPOL at a release of HRT (R388). -/
def Dev.applyPolicies (d : Dev) : Dev :=
  d.when (d.get F.hrtPwrStateCur == 0) fun d => d.each ((List.range 8).map (4 + ·)) fun d c =>
    d.when (d.cordSt c == 0 && d.turnsOn 0 c) fun d => d.cordWake c .boot

/-! ### The end of a reload command -/

/-- The command ends: with every cord done MIXED clears; where it stops, MIXED stays (R372, R375). -/
def Dev.reloadEnd (d : Dev) (res : Nat) (whole : Bool) : Dev :=
  let d1 := (((d.cfgStep 15 0).set F.hrtCfgStatBusy 0).set F.hrtCfgStatResult res).setReload none
  (d1.when whole fun d => d.set F.hrtCfgStatMixed 0).runPending

/-- A cord's reload has failed (R375). -/
def Dev.reloadFailEvent (d : Dev) (res : Nat) : Dev := (d.set F.hrtCfgStatResult res).raise 0x0D [R.hrtCfgStat, R.hrtCfgFailmask]

/-! ### The start of a cord's reload (R372, R374, R376 to R381) -/

/-- A reload that takes effect at once: a cord that is off or Held. -/
def Dev.reloadOff (d : Dev) (c : Nat) : Dev := ((d.takeSlot c).showSeq c).raise 0x0C [R.hrtCfgCseq c]

/-- The live reload of HRT or BUF, from the new section or else from the old one: the result, 0 where the new one applied. BUF is FAILED
where neither does (R375). -/
def Dev.reloadLive (fz : Fuses) (d : Dev) (c : Nat) : Dev × Nat :=
  let old := d.sec c
  let fin (d : Dev) : Dev :=
    let d1 := (d.showSeq c).when (c == 0) fun d => (d.fwStart 3).applyPolicies
    d1.raise 0x0C [R.hrtCfgCseq c]
  let x := (d.takeSlot c).applySecLive fz c
  if x.2 then (fin x.1, 0)
  else
    let y := ((x.1.reloadFailEvent 0x10).setImg fun m => { m with secs := Tbl.set {} m.secs c old }).applySecLive fz c
    if y.2 then (fin y.1, 0x10)
    else ((y.1.when (c == 9) fun d => d.cordFail 9 true).reloadFailEvent 0x11, 0x11)

/-- The engine of a cord serves a wavelength in service. -/
def Dev.servesNow (d : Dev) (c : Nat) : Option Nat :=
  if 1 ≤ c ∧ c ≤ 3 ∧ d.role (c - 1) = 1 ∧ d.cordOn c then d.wlOf (c - 1) else none

/-- A reload whose cord is drained, woken, moved or rotated; true where it stops at once with RESULT 0x13. -/
def Dev.reloadBegin (d : Dev) (r : Reload) : Dev × Bool :=
  let c := r.cord
  let st := d.cordSt c
  match d.servesNow c with
  | some w =>
    (match (if d.spr.move.isSome then none else d.spare) with
     | some e =>
       let d1 := (d.setReload (some { r with wl := some w, cold := e, part := 1 })).cfgStep c 4
       ((d1.moveStart { kind := .reloadOut, wl := w, inc := e, out := c - 1 }).raise 0xA8 [R.hrtSprStat], false)
     | none =>
       if r.force then
         let d1 := (d.setReload (some { r with wl := some w, part := 4 })).cfgStep c 2
         (((((d1.cutBursts w true).wipe c).selectOn w 3).takeSlot c).cordWake c .reload, false)
       else (d, true))
  | none =>
    let d1 := d.setReload (some r)
    if st = 4 ∨ st = 1 then (((d1.takeSlot c).cordWake c .reload).cfgStep c 2, false)
    else if st = 6 then ((d1.setCordInfo c fun x => { x with why := .reload }).cfgStep c 1, false)
    else ((d1.startDrain c .reload).cfgStep c 1, false)

/-- The cords of a command one after another, from the first that is left (R372); it ends when none is left. -/
def Dev.reloadNext (fz : Fuses) (r : Reload) : List Nat → Dev → Dev
  | [], d => d.reloadEnd r.res true
  | c :: t, d =>
    let r1 : Reload := { cord := c, rest := t, activate := r.activate, force := r.force, old := d.sec c, res := r.res }
    let d1 := ((d.setReload (some r1)).cfgStep c 0).when r.activate fun d => d.set F.hrtCfgStatMixed 1
    let d2 := d1.raise 0x0B [R.hrtCfgStat]
    let st := d2.cordSt c
    if c ≠ 0 ∧ (st = 0 ∨ st = 5) then Dev.reloadNext fz r t (d2.reloadOff c)
    else if c = 0 ∨ (c = 9 ∧ st = 3) then
      let x := d2.reloadLive fz c
      if x.2 = 0 then Dev.reloadNext fz r t x.1 else x.1.reloadEnd x.2 false
    else if c = 8 ∧ st = 3 then
      let x := ((d2.each (List.range 4) fun d k => d.fiLost (160 + k)).takeSlot 8 |>.cfgStep 8 1).startRun true
      if x.2 then Dev.reloadNext fz r t ((x.1.showSeq 8).raise 0x0C [R.hrtCfgCseq 8]) else x.1
    else
      let x := d2.reloadBegin r1
      if x.2 then x.1.reloadEnd 0x13 false else x.1

/-- An accepted ACTIVATE or RELOAD over the cords that differ. -/
def Dev.reloadStart (fz : Fuses) (d : Dev) (cords : List Nat) (activate force : Bool) : Dev :=
  let d1 := (d.set F.hrtCfgStatBusy 1).set F.hrtCfgStatResult 0
  Dev.reloadNext fz { cord := 15, rest := [], activate := activate, force := force, old := {} } cords d1

/-- The cord in hand is done; the command goes on, or stops where it was reloaded from its old section (R375). -/
def Dev.reloadDone (fz : Fuses) (d : Dev) (r : Reload) (res : Nat) : Dev :=
  let d1 := (d.showSeq r.cord).raise 0x0C [R.hrtCfgCseq r.cord]
  if r.retry then d1.reloadEnd res false else Dev.reloadNext fz { r with res := if res = 0 then r.res else res } r.rest d1

/-! ### Progress of a reload -/

/-- The reloaded engine takes its wavelength back (R377), or stays out where the cold engine no longer serves it. -/
def Dev.moveBack (fz : Fuses) (d : Dev) (r : Reload) (w : Nat) : Dev :=
  if d.assigned w = some r.cold ∧ d.spr.move.isNone then
    let d1 := (d.setReload (some { r with part := 3 })).cfgStep r.cord 5
    (d1.moveStart { kind := .reloadBack, wl := w, inc := r.cord - 1, out := r.cold }).raise 0xA8 [R.hrtSprStat]
  else d.reloadDone fz r 0x12

/-- A wavelength that a FORCE reload took down is restored (R378). -/
def Dev.restoreDown (d : Dev) (r : Reload) (w : Nat) : Dev :=
  d.when (d.spr.move.isNone) fun d => (d.moveStart { kind := .restore, wl := w, inc := r.cord - 1, out := 3 }).raise 0xAE [R.hrtSprStat]

/-- The cord of a reload has reported ready: `ok` whether its records applied, `seq0` its CSEQ before (R374, R375, R377, R485). -/
def Dev.reloadReady (fz : Fuses) (d : Dev) (r : Reload) (ok : Bool) (seq0 : Nat) : Dev :=
  let c := r.cord
  if ok then
    match r.wl, r.part with
    | some w, 2 => (d.set (F.hrtCfgCseqSseq c) seq0).moveBack fz r w
    | some w, 4 => (d.restoreDown r w).reloadDone fz r (if r.retry then 0x10 else 0)
    | _, _ => (if 1 ≤ c ∧ c ≤ 3 then d.when (d.role (c - 1) == 3) fun d => d.season (c - 1) else d).reloadDone fz r (if r.retry then 0x10 else 0)
  else if !r.retry then
    let d1 := ((d.reloadFailEvent 0x10).setImg fun m => { m with secs := Tbl.set {} m.secs c r.old, reload := some { r with retry := true, res := 0x10 } })
    let d2 := match r.wl, r.part with
      | some w, 4 => (((d1.gapStart w 0).give w none).selectOn w 3).setSpr fun x => { x with bare := if x.bare.contains w then x.bare else x.bare ++ [w] }
      | _, _ => d1
    ((d2.wipe c).cordWake c .reload).sprShow
  else
    let d1 := (d.cordFail c true).reloadFailEvent 0x11
    let d2 := d1.when (decide (1 ≤ c) && decide (c ≤ 3)) fun d => d.setSpr1 (c - 1) fun x => { x with broken := true }
    (match r.wl, r.part with
     | some w, 4 => d2.noEngine w
     | _, _ => d2).reloadEnd 0x11 false

/-- After a change of the moves: a reload whose move has ended goes on with its next part (R377, R378, R384). -/
def Dev.reloadAfter (fz : Fuses) (d : Dev) : Dev :=
  match d.img.reload with
  | none => d
  | some r =>
    match r.wl with
    | none => d
    | some w =>
      let kind := d.spr.move.map (·.kind)
      if r.part = 1 ∧ kind ≠ some .reloadOut then
        if kind = none ∧ d.assigned w = some r.cold then
          (((d.setReload (some { r with part := 2 })).takeSlot r.cord).cordWake r.cord .reload).cfgStep r.cord 2
        else d.reloadEnd 0x13 false
      else if r.part = 3 ∧ kind ≠ some .reloadBack then
        if kind = none ∧ d.assigned w = some (r.cord - 1) then d.reloadDone fz r (if r.retry then 0x10 else 0)
        else d.reloadDone fz r 0x12
      else d

/-! ### Cords: ready, timed out, drained (R389, R374, R398) -/

/-- An engine's cord is ready outside the move in progress: the service or the seasoning it belongs to goes on (R201, R388). -/
def Dev.serveReady (d : Dev) (e : Nat) : Dev :=
  match d.wlOf e with
  | some w =>
    if d.role e ≠ 1 then d
    else if (d.newest w).isSome then d.setSpr1 e fun x => { x with loading := true }
    else (d.when (d.cordOn (6 + w)) fun d => d.takeFramerCopy w e).when (d.cordOn (4 + w)) fun d => (d.select w e).connect w e
  | none => d.when (d.role e == 3) fun d => d.season e

/-- An engine's cord is ready: the move, the service or the seasoning it belongs to goes on. -/
def Dev.engineReady (d : Dev) (e : Nat) : Dev :=
  match d.spr.move with
  | some m => if m.inc ≠ e then d.serveReady e else if m.step = 0 then d.beginLoad m else d
  | none => d.serveReady e

/-- The incoming engine of a move never comes (R209, R214). -/
def Dev.incomingLost (d : Dev) (e : Nat) : Dev :=
  match d.spr.move with
  | some m =>
    if m.inc = e ∧ m.step = 0 then
      (if m.kind = .takeover ∨ m.kind = .restore then d.takeoverLost m else d.abandonMove m true)
    else d
  | none => d

/-- CORD_READY (R33, R371, R388, R389, R391): a waking cord reports ready; `bad` are banks with an uncorrectable error. -/
def Dev.ready (fz : Fuses) (d : Dev) (c bad : Nat) : Dev :=
  if c = 0 || d.cordSt c != 1 || !d.flag F.hrtClkStatRootlock then d
  else
    let why := (d.cordInfo c).why
    let first := d.get F.hrtPwrStateCur == 2 && d.pwr.trans.any fun t => t.target != 2 && !t.back && !t.checked
    let d0 := d.when first fun d => (d.bankExit bad).setTrans fun t => { t with checked := true }
    let seq0 := d0.get (F.hrtCfgCseqSseq c)
    let x := (d0.when (why != .reload) fun d => d.takeSlot c).cordReady fz c
    match why, x.1.img.reload with
    | .reload, some r => x.1.reloadReady fz r x.2 seq0 |>.reloadAfter fz
    | _, _ =>
      let d1 := if x.2 then x.1 else x.1.applyFailed c
      let d2 := d1.when (why == .access) fun d => d.set (F.hrtPwrCordWoke c) 1
      let d3 := d2.when (why == .access || why == .command) fun d => d.raise 0x15 [R.hrtPwrCord c]
      let d4 := if c ≤ 3 then (if x.2 then d3.engineReady (c - 1) else d3.incomingLost (c - 1)) else d3
      (d4.reloadAfter fz).powerGo

/-- WAKE_TIMEOUT (R389, R209, R214, R401): the cord becomes FAILED. A reload ends with it, without CFG_RELOAD_FAIL (R371); its RESULT of
0x11 is the model's choice (log 56). -/
def Dev.wakeTimeout (fz : Fuses) (d : Dev) (c : Nat) : Dev :=
  if c = 0 || d.cordSt c != 1 then d
  else
    let e := c - 1
    let why := (d.cordInfo c).why
    let d1 := d.cordFail c true
    let d2 := if c ≤ 3 then
        let d2 := (d1.setSpr1 e fun x => { x with broken := true }).incomingLost e
        match d2.wlOf e with
        | some w => (d2.setRole e 2).noEngine w
        | none => (d2.when (d2.role e == 5) fun d => d.setRole e 0).sprShow
      else d1
    match why, d2.img.reload with
    | .reload, some _ => d2.reloadEnd 0x11 false
    | _, _ => ((d2.when d2.pwr.trans.isSome fun d => d.wantAbort c).reloadAfter fz).powerGo

/-- A drain has ended (R374, R393, R398). -/
def Dev.drained (d : Dev) (c : Nat) : Dev :=
  if c = 0 || d.cordSt c != 6 then d
  else match (d.cordInfo c).why with
    | .reload => (((d.wipe c).takeSlot c).cordWake c .reload).cfgStep c 2
    | _ => (d.cordOff c).powerGo

/-- A run over the slices is over: it belongs to a reload or to a transition. -/
def Dev.runOver (fz : Fuses) (d : Dev) (reload : Bool) : Dev :=
  match reload, d.img.reload with
  | true, some r => d.reloadDone fz r 0
  | _, _ => d.powerGo

/-! ### Engines -/

/-- A takeover that has begun aborts a transition that is still to power its engine off; another goes on (R401, R405). -/
def Dev.takeoverAborts (d : Dev) : Dev :=
  match d.spr.move, d.pwr.trans with
  | some m, some t => if m.kind = .takeover ∧ t.todo.contains (1 + m.inc, false) then d.wantAbort (1 + m.inc) else d
  | _, _ => d

/-- What follows a fault. -/
def Dev.afterFault (fz : Fuses) (d : Dev) : Dev := (d.reloadAfter fz).takeoverAborts.powerGo

/-- A hitless move of the wavelength is abandoned. -/
def Dev.abandonIf (fz : Fuses) (d : Dev) (w : Nat) (p : Dev → Move → Bool) : Dev :=
  match d.spr.move with
  | some m => d.when (m.wl == w && m.step == 2 && m.kind != .takeover && m.kind != .restore && p d m) fun d =>
      ((d.abandonMove m false).reloadAfter fz).powerGo
  | none => d

/-! ### Boot (R34, R361, R367 to R371) -/

/-- VALA, VALB and the sequence numbers of both slots. -/
def Dev.showSlots (d : Dev) (a b : Option Image) : Dev :=
  (((d.setFlag F.hrtCfgStatVala a.isSome).setFlag F.hrtCfgStatValb b.isSome).set F.hrtCfgSeqaSeq ((a.map (·.seq)).getD 0)).set
    F.hrtCfgSeqbSeq ((b.map (·.seq)).getD 0)

/-- An image becomes that of the active slot. -/
def Dev.takeImage (d : Dev) (slot : Nat) (i : Image) : Dev :=
  (d.set F.hrtCfgStatActslot slot).setImg fun m => { m with
    slot := (i.secs.zipIdx).foldl (fun t x => Tbl.set {} t x.2 x.1) [], kslot := i.kslot, seq := i.seq }

/-- The engine map of the image in force (R17, R361): who serves what from now on. -/
def Dev.takeEngmap (d : Dev) : Dev :=
  match (Tbl.get ({} : Sec) d.img.slot 0).recs.findSome? (fun r => match r with
    | .engmap a b s => some (a, b, s)
    | _ => none) with
  | none => d
  | some m =>
    let d1 := ((d.setImg fun x => { x with engmap := m }).give 0 (some m.1)).give 1 (some m.2.1)
    ((((d1.setRole m.1 1).setRole m.2.1 1).setRole m.2.2 0).setSpr1 m.1 fun x => { x with home := 0 }).setSpr1 m.2.1 fun x => { x with home := 1 }

/-- The sections of the active slot applied as at boot (R34, R369, R371): HRT and PCI at once, the serving engines and the cords
of policy 0 woken in the order of their number. -/
def Dev.bootApply (fz : Fuses) (d : Dev) : Dev :=
  let h := (d.takeEngmap.setImg fun m => { m with secs := m.slot }).applySecLive fz 0
  let d1 := if h.2 then h.1.showSeq 0 else (h.1.set F.hrtCfgFailmaskCords (setBit (h.1.get F.hrtCfgFailmaskCords) 0)).raise 0x0D
    [R.hrtCfgStat, R.hrtCfgFailmask]
  let d2 := d1.each ((List.range 11).map (1 + ·)) fun d c =>
    d.when (d.cordSt c == 0 && (if c ≤ 3 then d.role (c - 1) == 1 else d.get (F.hrtPwrCordPol c) == 0)) fun d => d.cordWake c .boot
  let p := d2.cordReady fz 12
  if p.2 then p.1 else p.1.applyFailed 12

/-- A slot that fails verification at boot or before activation is reported. -/
def Dev.slotBad (d : Dev) (i : Option Image) : Dev := d.when i.isNone fun d => d.raise 0x09 [R.hrtCfgStat]

end Sys2Proof.Machine
end

