-- ==== Sys2Proof/Machine/HostCmds.lean ====
section
/-!
DEFINITION. The path of a BAR0 access (R6, R29 to R31, R34, R387, R391, R456): its order, its wait for a waking cord, its
completion or error; the ember window; and the commands of the system cord that a write carries: sparing, power, cords,
configuration and the mailbox's GO.
-/

namespace Sys2Proof.Machine

/-! ### The ember window (R200, R397, HRT_PWR_EMBWIN) -/

/-- The offset within the ember window of an address. -/
def emberOfs (a : Nat) : Option Nat := if a / 2 ^ 16 = 0x10 then some (a % 2 ^ 16) else none

/-- A byte of an ember bank; the snapshot areas of banks 0 to 2 stand at the start of their first two pages. -/
def Dev.bankByte (d : Dev) (bank o : Nat) : Byte :=
  if bank ≤ 2 then
    (if o / 2 ^ 16 < 2 then match Tbl.get none d.ember.snaps (2 * bank + o / 2 ^ 16) with
      | some s => s.bytes.getD (o % 2 ^ 16) 0
      | none => 0
     else 0)
  else Tbl.get 0 d.ember.bytes (bank * 2 ^ 21 + o)

/-- The place in the bank that an offset of the window names. -/
def Dev.bankOfs (d : Dev) (o : Nat) : Nat := d.get F.hrtPwrEmbwinPage * 2 ^ 16 + o

/-- A read through the window: four bytes, the lowest in bits 7:0. -/
def Dev.emberRead (d : Dev) (o : Nat) : Word :=
  let b (i : Nat) : Nat := (d.bankByte (d.get F.hrtPwrEmbwinBank) (d.bankOfs o + i)).toNat * 2 ^ (8 * i)
  BitVec.ofNat 32 (b 0 + b 1 + b 2 + b 3)

/-- An accepted write through the window; a bank without power keeps nothing (R394). -/
def Dev.emberWrite (d : Dev) (o : Nat) (v : Word) : Dev :=
  let bank := d.get F.hrtPwrEmbwinBank
  d.when (d.ember.kept.testBit bank) fun d => d.setEmber fun m => { m with
    bytes := (List.range 4).foldl (fun t i => Tbl.set 0 t (bank * 2 ^ 21 + d.bankOfs o + i) (BitVec.ofNat 8 (v.toNat / 2 ^ (8 * i)))) m.bytes }

/-! ### Cord commands (R390, R393, R405, R421) -/

/-- A cord command is refused. -/
def Dev.cordCmdCheck (d : Dev) (c : Nat) (v : Word) : Nat :=
  let cmd := (F.hrtPwrCordCmd c).of v
  let st := d.cordSt c
  let no := d.pwr.trans.isSome || c == 12 || (decide (c ≤ 3) && cmd != 3) || (cmd == 1 && (st == 4 || st == 5))
    || (cmd == 2 && (st == 0 || st == 4 || st == 5)) || (cmd == 3 && (st != 4 || d.flag F.hrtSnsStatTripped))
  if cmd = 0 then 0 else if no then 10 else 0

/-- After CLEAR an engine returns to its role before the trip (R421), or goes to repair (R393). -/
def Dev.clearEngine (d : Dev) (e : Nat) : Dev :=
  let trip := (d.spr1 e).trip
  let d1 := d.setSpr1 e fun x => { x with trip := none, broken := false, loading := false }
  (match trip with
   | some (role, w) =>
     if role = 0 then d1.setRole e 0
     else if role = 4 then (d1.setSt (1 + e) 5).setRole e 4
     else if role = 1 then
       (((d1.give w (some e)).setSpr fun x => { x with bare := x.bare.filter (· != w) }).setRole e 1).cordWake (1 + e) .sparing
     else if role = 3 ∨ role = 6 then (d1.season e).cordWake (1 + e) .sparing
     else (d1.setRole e role).cordWake (1 + e) .sparing
   | none => (d1.setRole e 2).cordWake (1 + e) .sparing).sprShow

/-- CLEAR (R390). -/
def Dev.cordCleared (d : Dev) (c : Nat) : Dev :=
  let d1 := ((d.setSt c 0).setCordInfo c fun x => { x with tripped := false, cmd := none }).raise 0x18 [R.hrtPwrCord c]
  d1.when (decide (1 ≤ c) && decide (c ≤ 3)) fun d => d.clearEngine (c - 1)

/-- An accepted cord command: ON and OFF wait for a wake or a drain in progress. -/
def Dev.cordCmdGo (d : Dev) (c : Nat) (v : Word) : Dev :=
  let cmd := (F.hrtPwrCordCmd c).of v
  let st := d.cordSt c
  let wait (x : Option Bool) : Dev := d.setCordInfo c fun i => { i with cmd := x }
  if cmd = 1 then
    (if st = 0 then d.cordWake c .command else if st = 6 && (d.cordInfo c).why != .reload then wait (some true) else wait none)
  else if cmd = 2 then
    (if st = 1 || (st = 6 && (d.cordInfo c).why == .reload) then wait (some false) else if st = 6 then wait none else d.startDrain c .command)
  else if cmd = 3 then d.cordCleared c else d

/-- An OFF command that waited for a wake, or an ON command that waited for a drain. -/
def Dev.cordCmdDue (d : Dev) (c : Nat) : Dev :=
  match (d.cordInfo c).cmd with
  | some on =>
    let st := d.cordSt c
    let d1 := d.setCordInfo c fun i => { i with cmd := none }
    if on && st == 0 then d1.cordWake c .command else if !on && (st == 2 || st == 3) then d1.startDrain c .command else d
  | none => d

/-! ### Configuration commands (R370, R372, R373, R419) -/

/-- The inactive slot. -/
def Dev.inactive (d : Dev) : Nat := 1 - d.get F.hrtCfgStatActslot

/-- VALA or VALB with SEQA or SEQB of a slot. -/
def Dev.showSlot (d : Dev) (k : Nat) (i : Option Image) : Dev :=
  if k = 0 then (d.setFlag F.hrtCfgStatVala i.isSome).set F.hrtCfgSeqaSeq ((i.map (·.seq)).getD 0)
  else (d.setFlag F.hrtCfgStatValb i.isSome).set F.hrtCfgSeqbSeq ((i.map (·.seq)).getD 0)

/-- The cords whose sections differ from those in force (R372). -/
def Dev.diffCords (d : Dev) (i : Image) : List Nat := (List.range 13).filter fun c =>
  let n := i.secs.getD c {}
  n.sseq != (d.sec c).sseq || n.scrc != (d.sec c).scrc

/-- The records of a BUF section that cannot change in service (R361). -/
def bufShape (s : Sec) : List Rec := s.recs.filterMap fun r => match r with
  | .regset _ => none
  | .pcls p k mn _ => some (.pcls p k mn 0)
  | r => some r

/-- The EMPART records of a section. -/
def emparts (s : Sec) : List Rec := s.recs.filter fun r => match r with
  | .empart _ _ _ => true
  | _ => false

/-- What refuses ACTIVATE of an image; `kept` for the activation that RESOLVE makes, which need not be newer. -/
def Dev.activateCode (d : Dev) (i : Option Image) (force kept : Bool) : Nat :=
  match i with
  | none => 2
  | some i =>
    let live := !d.flag F.hrtCfgStatNoimg
    let n (c : Nat) : Sec := i.secs.getD c {}
    if live && !kept && !newer i.seq d.img.seq then 3
    else if d.flag F.hrtCfgStatDisputed then 4
    else if live && bufShape (n 9) != bufShape (d.sec 9) then 5
    else if live && emparts (n 8) != emparts (d.sec 8) then 6
    else if live && (List.range 13).any fun c => (n c).sseq == (d.sec c).sseq && (n c).scrc != (d.sec c).scrc then 7
    else if !force && d.spare.isNone && (d.diffCords i).any fun c => (d.servesNow c).isSome then 8
    else if d.pwr.trans.isSome || d.get F.hrtPwrStatePend != 3 then 9 else 0

/-- The first condition of R373 that holds for a command, 0 for none; `i` is the inactive slot as verified for ACTIVATE. -/
def Dev.cfgCode (d : Dev) (v : Word) (i : Option Image) : Nat :=
  let op := F.hrtCfgCmdOp.of v
  let force := F.hrtCfgCmdForce.of v == 1
  if d.flag F.hrtCfgStatBootpend then 0xD
  else if d.flag F.hrtCfgStatBusy then 1
  else if op = 1 then d.activateCode i force false
  else if op = 2 then
    (if !force && d.spare.isNone && (d.servesNow (F.hrtCfgCmdCord.of v)).isSome then 8
     else if d.pwr.trans.isSome || d.get F.hrtPwrStatePend != 3 then 9 else if d.flag F.hrtCfgStatNoimg then 0xA else 0)
  else if !d.flag F.hrtCfgStatDisputed || !d.flag (if F.hrtCfgCmdSlot.of v = 0 then F.hrtCfgStatVala else F.hrtCfgStatValb) then 0xB else 0

/-- The inactive slot verified before an activation (R367). -/
def Dev.checkInactive (fz : Fuses) (d : Dev) : Dev × Option Image :=
  let i := d.verifySlot fz d.inactive
  ((d.showSlot d.inactive i).slotBad i, i)

/-- A configuration command refused (R373). -/
def Dev.cfgRefuse (d : Dev) (code : Nat) : Dev := (d.set F.hrtCfgStatResult code).raise 0x0E [R.hrtCfgStat]

/-- An image put in force: as at boot where no slot was active (R369), else by reloads (R372). -/
def Dev.activateGo (fz : Fuses) (d : Dev) (i : Image) (force : Bool) : Dev :=
  let cords := d.diffCords i
  let d1 := d.takeImage d.inactive i
  if d.flag F.hrtCfgStatNoimg then ((d1.set F.hrtCfgStatNoimg 0).set F.hrtCfgStatResult 0).bootApply fz
  else d1.reloadStart fz cords true force

/-- RESOLVE (R370): the other slot's header erased, the dispute ended; a kept B is then activated. -/
def Dev.resolveGo (fz : Fuses) (d : Dev) (keep : Nat) (force : Bool) : Dev :=
  let other := 1 - keep
  let d1 := (d.mramPut (slotBase other) (List.replicate 256 0)).showSlot other none
  let d2 := (d1.set F.hrtCfgStatDisputed 0).set F.hrtCfgStatResult 0
  if keep = d2.get F.hrtCfgStatActslot then d2
  else
    let x := d2.checkInactive fz
    let code := x.1.activateCode x.2 force true
    match x.2 with
    | some i => if code = 0 then x.1.activateGo fz i force else x.1.cfgRefuse code
    | none => x.1.cfgRefuse code

/-- A command of HRT_CFG_CMD with GO, checked: the device after the check, the code of R373, and the inactive image. -/
def Dev.cfgTry (fz : Fuses) (d0 : Dev) (v : Word) : Dev × Nat × Option Image :=
  let d := d0.ashNote 3
  let x := if F.hrtCfgCmdOp.of v = 1 && !d.flag F.hrtCfgStatBootpend && !d.flag F.hrtCfgStatBusy then d.checkInactive fz else (d, none)
  let code := x.1.cfgCode v x.2
  (if code = 0 then x.1 else x.1.cfgRefuse code, code, x.2)

/-- An accepted command of HRT_CFG_CMD. -/
def Dev.cfgGo (fz : Fuses) (d : Dev) (v : Word) (i : Option Image) : Dev :=
  let op := F.hrtCfgCmdOp.of v
  let force := F.hrtCfgCmdForce.of v == 1
  match op, i with
  | 1, some i => d.activateGo fz i force
  | 2, _ => d.reloadStart fz [F.hrtCfgCmdCord.of v] false force
  | 3, _ => d.resolveGo fz (F.hrtCfgCmdSlot.of v) force
  | _, _ => d

/-! ### The mailbox's GO (R411, R412) -/

/-- The number in `n` bytes of a request from byte `o` on, the lowest first. -/
def leAt (l : List Byte) (o n : Nat) : Nat := (List.range n).foldl (fun s i => s + (l.getD (o + i) 0).toNat * 2 ^ (8 * i)) 0

/-- The PCIe mailbox's request is complete: it waits its turn, and HRT_MBX_REQ is zero again. -/
def Dev.mbxTake (d : Dev) : Dev :=
  let b := (List.range 64).flatMap fun i => leBytes 4 (d.reg (R.hrtMbxReq i)).toNat
  let q : MbxReq := ⟨false, leAt b 0 2, leAt b 2 2, (b.drop 4).take (leAt b 2 2), d.get F.hrtCfgCtllvlExpert⟩
  ((d.each (List.range 64) fun d i => d.setReg (R.hrtMbxReq i) 0).set F.hrtMbxCtlBusy 1).setHearth fun h => { h with reqs := h.reqs ++ [q] }

/-! ### A write that met no code of the register table -/

/-- The write stored and acted on, or refused by a command of the system cord: the device after it, and 0 or 10. -/
def Dev.sysWrite (fz : Fuses) (d : Dev) (a : Nat) (r : RegAt) (v : Word) (written : List (BitVec 64)) : Dev × Nat :=
  let put (d : Dev) : Dev := d.applyWrite fz a r v written
  let go := v.getLsbD 31
  match r.row.name with
  | .hrtSprCmd => if d.sprCheck v ≠ 0 then (d.sprRefuse, 10) else ((put d).when go fun d => (d.sprGo v).afterFault fz, 0)
  | .hrtCfgCmd =>
    if !go then (put d, 0)
    else let x := d.cfgTry fz v; if x.2.1 ≠ 0 then (x.1, 10) else ((put x.1).cfgGo fz v x.2.2, 0)
  | .hrtPwrReq => ((put d).when go fun d => d.powerRequest (F.hrtPwrReqState.of v), 0)
  | .hrtPwrCord => if d.cordCmdCheck (r.i + 1) v ≠ 0 then (d, 10) else ((put d).cordCmdGo (r.i + 1) v, 0)
  | .hrtMbxCtl => if go && d.flag F.hrtMbxCtlBusy then (d, 10) else ((put d).when go fun d => d.mbxTake, 0)
  | _ => (put d, 0)

/-- A register write with all its checks: the device after it and its code (R7 to R9, R382, R415). -/
def Dev.regWrite (fz : Fuses) (d : Dev) (a : Nat) (r : RegAt) (v : Word) (host : Bool) (written : List (BitVec 64)) : Dev × Nat :=
  let c := d.writeCode a r v host
  if c ≠ 0 then (d, c) else d.sysWrite fz a r v written

/-! ### The access path -/

/-- The code an access meets before its register: alignment, assignment, boot, the cord's state (R456). -/
def Dev.pathCode (d : Dev) (a size : Nat) : Nat :=
  let c := cordOf a
  if size ≠ 4 ∨ a % 4 ≠ 0 then 1
  else if (emberOfs a).isNone && (decodeAddr a).isNone then 2
  else if (d.flag F.hrtCfgStatBootpend || d.flag F.hrtCfgStatNoimg) && c != 0 && c != 12 then 3
  else if c ≠ 0 && d.cordSt c == 4 then 4 else if c ≠ 0 && d.cordSt c == 5 then 5 else 0

/-- A cord off that an access reaches is woken (R30, R391); in DOZE and BANKED that may request FULL. -/
def Dev.accessWake (d : Dev) (c : Nat) : Dev :=
  (d.cordWake c .access).when (d.flag F.hrtPwrCfgAutoacc && d.get F.hrtPwrStateCur != 0) fun d => d.autoFull

/-- The wake that an access starts. -/
def Dev.wakeFor (d : Dev) (x : Access) : Dev :=
  d.when (d.pathCode x.addr x.size == 0 && cordOf x.addr != 0 && d.cordSt (cordOf x.addr) == 0) fun d => d.accessWake (cordOf x.addr)

/-- An access waits: its cord is off or waking, or drains for a state transition (R387). -/
def Dev.mustWait (d : Dev) (x : Access) : Bool :=
  let c := cordOf x.addr
  d.pathCode x.addr x.size == 0 && c != 0 && (decide (d.cordSt c ≤ 1) || (d.cordSt c == 6 && (d.cordInfo c).why == .trans))

/-- An access that met a FAILED or Held cord (R387, R406). -/
def Dev.accessFailed (d : Dev) (code c : Nat) : Dev := d.when (code == 4 || code == 5) fun d => d.raise 0x17 [R.hrtPwrCord c]

/-- A read that completes (R6, R7, R387, R456). -/
def Dev.readAccess (fz : Fuses) (d : Dev) (a size : Nat) : Dev :=
  let code := d.pathCode a size
  let c := cordOf a
  if code = 0 then
    match emberOfs a, decodeAddr a with
    | some o, _ => d.emit (.readDone a (d.emberRead o))
    | none, some r => (d.readEffect a r).emit (.readDone a (d.readValue fz a r))
    | none, none => d
  else
    let d1 := (d.accessError code a false).accessFailed code c
    if code = 4 then d1.emit (.readDone a (BitVec.ofNat 32 (0xFA110000 + c)))
    else if code = 5 then d1.emit (.readDone a 0) else d1.emit (.readUnsupported a)

/-- A write that completes. -/
def Dev.writeAccess (fz : Fuses) (d : Dev) (a size : Nat) (v : Word) (written : List (BitVec 64)) : Dev :=
  let code := d.pathCode a size
  let x : Dev × Nat :=
    if code ≠ 0 then (d, code)
    else match emberOfs a, decodeAddr a with
      | some o, _ => if d.get F.hrtPwrEmbwinBank ≤ 3 then (d, 10) else (d.emberWrite o v, 0)
      | none, some r => d.regWrite fz a r v true written
      | none, none => (d, 0)
  let d1 := if x.2 = 0 then x.1 else (x.1.accessError x.2 a true).accessFailed x.2 (cordOf a)
  d1.emit (.writeDone a x.2)

/-- A read later than CTOWARN is counted (R331). -/
def Dev.lateness (d : Dev) (x : Access) : Dev :=
  d.when (x.write.isNone && decide (d.get F.pciEpCfgCtowarn * 10000000 < (d.time.ticks - x.at_) * 16)) fun d =>
    (d.count F.pciEpStatLatecnt 1).raise 0xF7 [R.pciEpStat]

/-- An access at the head of the order completes. -/
def Dev.complete (fz : Fuses) (d : Dev) (x : Access) : Dev :=
  match x.write with
  | none => (d.readAccess fz x.addr x.size).lateness x
  | some v => d.writeAccess fz x.addr x.size v x.written

/-- Accesses complete in their order of arrival, up to the first that must wait (R30). -/
def Dev.serveList (fz : Fuses) : List Access → Dev → Dev
  | [], d => { d with waiting := [] }
  | x :: t, d =>
    let d1 := d.wakeFor x
    if d1.mustWait x then { d1 with waiting := x :: t } else Dev.serveList fz t (d1.complete fz x)

/-- What waits goes on: cords off that an access waits for are woken, then the order is served. -/
def Dev.serve (fz : Fuses) (d : Dev) : Dev :=
  let d1 := d.each d.waiting fun d x => d.wakeFor x
  Dev.serveList fz d1.waiting d1

/-- An access arrives over the PCIe link, which is trained from step 4 of R34 on and not while PCIE_PERST_N is low (R473). -/
def Dev.arrive (fz : Fuses) (d : Dev) (a size : Nat) (write : Option Word) (written : List (BitVec 64)) : Dev :=
  if d.cordSt 12 = 0 ∨ !d.flag F.pciEpStatDlup then d
  else
    let x : Access := { addr := a, size := size, write := write, at_ := d.time.ticks, written := written }
    { d with waiting := d.waiting ++ [x] }.serve fz

/-- A command that may change a cord's power: what waits on it goes on. -/
def State.runServe (s : State) (f : Fuses → Dev → Dev) : Host.Outcome State Fault Refusal := s.run fun fz d => (f fz d).serve fz

/-- A host write. -/
def State.hostWrite (s : State) (a : Nat) (v : Word) : Host.Outcome State Fault Refusal := s.run fun fz d => d.arrive fz a 4 (some v) []

/-- A host read. -/
def State.hostRead (s : State) (a : Nat) : Host.Outcome State Fault Refusal := s.run fun fz d => d.arrive fz a 4 none []

/-- The value of a register as a write that keeps it would give it: its RW and RWQ fields. -/
def Dev.keepValue (d : Dev) (a : Nat) : Word :=
  match decodeAddr a with
  | some r => r.row.only FieldType.kept (d.reg a)
  | none => 0

/-- A host write that changes one field of a register and leaves the rest as they stand. -/
def State.hostField (s : State) (f : Fld) (x : Nat) (written : List (BitVec 64)) : Host.Outcome State Fault Refusal :=
  s.run fun fz d => d.arrive fz f.addr 4 (some (f.put (d.keepValue f.addr) x)) written

/-! ### The rows of the access path -/

/-- REGISTER_WRITE (R6 to R9, R456). -/
def execRegisterWrite (a : BitVec 28) (size : Nat) (v : Word) (s : State) : Host.Outcome State Fault Refusal :=
  s.run fun fz d => d.arrive fz a.toNat size (some v) []

/-- AERR_READ (R457). -/
def execAerrRead (s : State) : Host.Outcome State Fault Refusal := s.hostRead R.hrtGlbAerr

/-- TIM_NS_READ (R352). -/
def execTimNsRead (s : State) : Host.Outcome State Fault Refusal := s.hostRead R.hrtTimNs

/-- The address of a group's first register. -/
def firstAddr : FirstReg → Nat
  | .ppsIn => R.hrtTimPpsinns
  | .rxSfn w => R.hrtTimWlRxsfn w
  | .txSfn w => R.hrtTimWlTxsfn w
  | .bseq w => R.hrtTimWlBseq w
  | .todRsfn w => R.hrtTimWlTodrsfn w
  | .rxBytes p => R.hsMacRxbylo p
  | .txBytes p => R.hsMacTxbylo p

/-- GROUP_FIRST_READ (R352). -/
def execGroupFirstRead (r : FirstReg) (s : State) : Host.Outcome State Fault Refusal := s.hostRead (firstAddr r)

/-- RC_FIELD_READ (R7): a read of any register. -/
def execRcFieldRead (a : BitVec 28) (size : Nat) (s : State) : Host.Outcome State Fault Refusal :=
  s.run fun fz d => d.arrive fz a.toNat size none []

/-- ACCESS_WAKE (R30, R391): an access to a cord that is off. -/
def execAccessWake (a : BitVec 28) (write : Option Word) (s : State) : Host.Outcome State Fault Refusal :=
  s.run fun fz d => d.arrive fz a.toNat 4 write []

/-! ### Writes with a row of their own -/

/-- UNMUTE (R84). -/
def execUnmute (e : Fin 3) (s : State) : Host.Outcome State Fault Refusal := s.hostField (F.leTxcMaskctlUnmute e) 1 []

/-- TRD_GO (R96): a write of CMD with GO. -/
def execTrdGo (w : Fin 2) (v : Word) (s : State) : Host.Outcome State Fault Refusal := s.hostWrite (R.cvTrdCmd w) ((F.cvTrdCmdGo w).put v 1)

/-- PM_CLEAR (R131). -/
def execPmClear (w : Fin 2) (s : State) : Host.Outcome State Fault Refusal := s.hostField (F.lfPmCtlClear w) 1 []

/-- PRF_REQ_GO (R164). -/
def execPrfReqGo (w : Fin 2) (v : Word) (s : State) : Host.Outcome State Fault Refusal := s.hostWrite (R.lfPrfReq w) ((F.lfPrfReqGo w).put v 1)

/-- KSW_GO (R189). -/
def execKswGo (w : Fin 2) (v : Word) (s : State) : Host.Outcome State Fault Refusal := s.hostWrite (R.lfCryKsw w) ((F.lfCryKswGo w).put v 1)

/-- RESUME (R149). -/
def execResume (w : Fin 2) (s : State) : Host.Outcome State Fault Refusal := s.hostField (F.lfActCtlResume w) 1 []

/-- DEACT (R150). -/
def execDeact (w : Fin 2) (s : State) : Host.Outcome State Fault Refusal := s.hostField (F.lfActCtlDeact w) 1 []

/-- A write of CRY_KCMD with one operation and GO. -/
def kcmdWord (w : Nat) (v : Word) (op : Nat) : Word := (F.lfCryKcmdGo w).put ((F.lfCryKcmdOp w).put v op) 1

/-- KEY_LOAD (R187). -/
def execKeyLoad (w : Fin 2) (v : Word) (s : State) : Host.Outcome State Fault Refusal := s.hostWrite (R.lfCryKcmd w) (kcmdWord w v 0)

/-- KEY_ERASE (R187). -/
def execKeyErase (w : Fin 2) (v : Word) (s : State) : Host.Outcome State Fault Refusal := s.hostWrite (R.lfCryKcmd w) (kcmdWord w v 1)

/-- CRY_CLRFLT (R185). -/
def execCryClrflt (w : Fin 2) (g : Fin 32) (rx : Bool) (s : State) : Host.Outcome State Fault Refusal :=
  s.hostField (if rx then F.lfCryrCtlClrflt w g else F.lfCrytCtlClrflt w g) 1 []

/-- A manual sparing command. -/
def sprWord (v : Word) (op : Nat) : Word := F.hrtSprCmdGo.put (F.hrtSprCmdOp.put v op) 1

/-- SWITCH (R217). -/
def execSwitch (v : Word) (s : State) : Host.Outcome State Fault Refusal := s.hostWrite R.hrtSprCmd (sprWord v 1)

/-- FORCE (R217). -/
def execForce (v : Word) (s : State) : Host.Outcome State Fault Refusal := s.hostWrite R.hrtSprCmd (sprWord v 2)

/-- REVERT_NOW (R217). -/
def execRevertNow (v : Word) (s : State) : Host.Outcome State Fault Refusal := s.hostWrite R.hrtSprCmd (sprWord v 3)

/-- RETIRE (R217). -/
def execRetire (v : Word) (s : State) : Host.Outcome State Fault Refusal := s.hostWrite R.hrtSprCmd (sprWord v 4)

/-- UNRETIRE (R217). -/
def execUnretire (v : Word) (s : State) : Host.Outcome State Fault Refusal := s.hostWrite R.hrtSprCmd (sprWord v 5)

/-- GCL_COMMIT (R293). -/
def execGclCommit (p : Fin 96) (v : Word) (s : State) : Host.Outcome State Fault Refusal :=
  s.hostWrite (R.hsMacGctl p) ((F.hsMacGctlGo p).put v 1)

/-- GCL_CANCEL (R293). -/
def execGclCancel (p : Fin 96) (s : State) : Host.Outcome State Fault Refusal := s.hostField (F.hsMacGctlCancel p) 1 []

/-- MAC_PARK (R296). -/
def execMacPark (p : Fin 96) (s : State) : Host.Outcome State Fault Refusal := s.hostField (F.hsMacParkPark p) 1 []

/-- PORT_UNPARK (R297). -/
def execPortUnpark (p : Fin 96) (s : State) : Host.Outcome State Fault Refusal := s.hostField (F.hsMacParkPark p) 0 []

/-- TXTS_POP (R299). -/
def execTxtsPop (p : Fin 96) (s : State) : Host.Outcome State Fault Refusal := s.hostField (F.hsMacTxtsctlPop p) 1 []

/-- LOOP_MODE (R320). -/
def execLoopMode (l : Fin 96) (mode : Fin 4) (s : State) : Host.Outcome State Fault Refusal := s.hostField (F.hsLnLoopMode l) mode []

/-- PRBS_CONTROL (R323). -/
def execPrbsControl (l : Fin 96) (v : Word) (s : State) : Host.Outcome State Fault Refusal := s.hostWrite (R.hsLnPrbs l) v

/-- RING_TAIL_WRITE (R333). -/
def execRingTailWrite (tx : Bool) (r : Fin 2048) (v : Word) (s : State) : Host.Outcome State Fault Refusal := s.hostWrite (ringTail tx r).addr v

/-- RING_ENABLE (R333). -/
def execRingEnable (tx : Bool) (r : Fin 2048) (s : State) : Host.Outcome State Fault Refusal := s.hostField (ringEn tx r) 1 []

/-- RING_DISABLE (R342): a write of EN = 0. -/
def execRingDisable (tx : Bool) (r : Fin 2048) (written : List (BitVec 64)) (s : State) : Host.Outcome State Fault Refusal :=
  s.hostField (ringEn tx r) 0 written

/-- RING_FLUSH (R342). -/
def execRingFlush (tx : Bool) (r : Fin 2048) (written : List (BitVec 64)) (s : State) : Host.Outcome State Fault Refusal :=
  s.hostField (ringF tx F.pciRxgCfgFlush F.pciTxgCfgFlush r) 1 written

/-- RING_IRQ_ENABLE (R340). -/
def execRingIrqEnable (tx : Bool) (r : Fin 2048) (s : State) : Host.Outcome State Fault Refusal :=
  s.hostField (ringF tx F.pciRxgCfgIrqen F.pciTxgCfgIrqen r) 1 []

/-- TIME_STEP (R351). -/
def execTimeStep (v : Word) (s : State) : Host.Outcome State Fault Refusal := s.hostWrite R.hrtTimStepctl (F.hrtTimStepctlGo.put v 1)

/-- A configuration command. -/
def cfgWord (v : Word) (op : Nat) : Word := F.hrtCfgCmdGo.put (F.hrtCfgCmdOp.put v op) 1

/-- ACTIVATE (R372, R373). -/
def execActivate (v : Word) (s : State) : Host.Outcome State Fault Refusal := s.hostWrite R.hrtCfgCmd (cfgWord v 1)

/-- RELOAD (R373, R374). -/
def execReload (v : Word) (s : State) : Host.Outcome State Fault Refusal := s.hostWrite R.hrtCfgCmd (cfgWord v 2)

/-- RESOLVE (R370, R373). -/
def execResolve (v : Word) (s : State) : Host.Outcome State Fault Refusal := s.hostWrite R.hrtCfgCmd (cfgWord v 3)

/-- POWER_REQUEST (R399). -/
def execPowerRequest (v : Word) (s : State) : Host.Outcome State Fault Refusal := s.hostWrite R.hrtPwrReq (F.hrtPwrReqGo.put v 1)

/-- CORD_ON (R393). -/
def execCordOn (c : Fin 13) (s : State) : Host.Outcome State Fault Refusal := s.hostField (F.hrtPwrCordCmd c) 1 []

/-- CORD_OFF (R393). -/
def execCordOff (c : Fin 13) (s : State) : Host.Outcome State Fault Refusal := s.hostField (F.hrtPwrCordCmd c) 2 []

/-- CORD_CLEAR (R390, R393). -/
def execCordClear (c : Fin 13) (s : State) : Host.Outcome State Fault Refusal := s.hostField (F.hrtPwrCordCmd c) 3 []

/-- EVENT_STAT_CLEAR (R426): a write of 1 to STAT; `raised` says that the command before it has raised the event in the same clock, and
STAT stays 1. -/
def execEventStatClear (n : Fin 256) (raised : Bool) (s : State) : Host.Outcome State Fault Refusal :=
  s.hostField (F.hrtEvtSrcCtlStat n) (if raised then 0 else 1) []

/-- EVENT_MSIEN_ENABLE (R427). -/
def execEventMsienEnable (g : Fin 16) (s : State) : Host.Outcome State Fault Refusal := s.hostField (F.hrtEvtGcfgMsien g) 1 []

/-- FI_ARM (R437): a write of EN = 1 to an injector's CTL. -/
def execFiArm (i : Fin 164) (s : State) : Host.Outcome State Fault Refusal := s.hostField (fiF i 0 0 1) 1 []

/-- FI_DISARM (R436). -/
def execFiDisarm (i : Fin 164) (s : State) : Host.Outcome State Fault Refusal := s.hostField (fiF i 0 0 1) 0 []

/-- FI_KILL (R436). -/
def execFiKill (s : State) : Host.Outcome State Fault Refusal := s.hostField F.hrtFiGlobalKill 1 []

/-- KEY_REVOKE (R455). -/
def execKeyRevoke (mask : BitVec 4) (s : State) : Host.Outcome State Fault Refusal := s.hostField F.hrtGlbKrevBlow mask.toNat []

/-! ### Table, classifier, sampler and queue commands -/

/-- TEMPLATE_COMMIT (R227). -/
def execTemplateCommit (s : State) : Host.Outcome State Fault Refusal := s.hostField F.pktPrsTcommitGo 1 []

/-- A classifier command. -/
def clsWord (v : Word) (op : Nat) : Word := F.pktClsCmdGo.put (F.pktClsCmdOp.put v op) 1

/-- CLS_WRITE (R235). -/
def execClsWrite (v : Word) (s : State) : Host.Outcome State Fault Refusal := s.hostWrite R.pktClsCmd (clsWord v 1)

/-- The host's command of a rule read; `bad` says that the read finds an uncorrectable error in the rule, which is marked before it
answers (R236). -/
def State.clsReads (s : State) (v : Word) (bad : Bool) : Host.Outcome State Fault Refusal := s.run fun fz d =>
  let d1 := d.arrive fz R.pktClsCmd 4 (some v) []
  d1.when (bad && d1.out.contains (.writeDone R.pktClsCmd 0)) fun d =>
    (d.ruleEcc (F.pktClsCmdIdx.of v)).clsGo v

/-- CLS_READ (R235, R236). -/
def execClsRead (v : Word) (bad : Bool) (s : State) : Host.Outcome State Fault Refusal := s.clsReads (clsWord v 2) bad

/-- CLS_INVALIDATE (R235). -/
def execClsInvalidate (v : Word) (s : State) : Host.Outcome State Fault Refusal := s.hostWrite R.pktClsCmd (clsWord v 3)

/-- CLS_READCLR (R235, R236). -/
def execClsReadclr (v : Word) (bad : Bool) (s : State) : Host.Outcome State Fault Refusal := s.clsReads (clsWord v 4) bad

/-- An exact-match table command. -/
def emtWord (v : Word) (op : Nat) : Word := F.pktEmtCmdGo.put (F.pktEmtCmdOp.put v op) 1

/-- The host's command of the table; `bad` are slots in which it reads an uncorrectable error (R246). -/
def State.emtWrite (s : State) (v : Word) (bad : List Nat) : Host.Outcome State Fault Refusal := s.run fun fz d =>
  ((d.setPkt fun p => { p with badSlots := bad }).arrive fz R.pktEmtCmd 4 (some v) []).setPkt fun p => { p with badSlots := [] }

/-- INSERT (R240). -/
def execInsert (v : Word) (bad : List Nat) (s : State) : Host.Outcome State Fault Refusal := s.emtWrite (emtWord v 1) bad

/-- DELETE (R241). -/
def execDelete (v : Word) (bad : List Nat) (s : State) : Host.Outcome State Fault Refusal := s.emtWrite (emtWord v 2) bad

/-- LOOKUP (R241). -/
def execLookup (v : Word) (bad : List Nat) (s : State) : Host.Outcome State Fault Refusal := s.emtWrite (emtWord v 3) bad

/-- READIDX (R241). -/
def execReadidx (v : Word) (bad : List Nat) (s : State) : Host.Outcome State Fault Refusal := s.emtWrite (emtWord v 4) bad

/-- WRITEIDX (R241). -/
def execWriteidx (v : Word) (bad : List Nat) (s : State) : Host.Outcome State Fault Refusal := s.emtWrite (emtWord v 5) bad

/-- CAD (R241). -/
def execCad (v : Word) (bad : List Nat) (s : State) : Host.Outcome State Fault Refusal := s.emtWrite (emtWord v 6) bad

/-- AGE_STEP (R242). -/
def execAgeStep (v : Word) (s : State) : Host.Outcome State Fault Refusal := s.hostWrite R.pktEmtCmd (emtWord v 7)

/-- SAMPLER_READ (R272). -/
def execSamplerRead (v : Word) (s : State) : Host.Outcome State Fault Refusal := s.hostWrite R.bufSmpSel (F.bufSmpSelGo.put v 1)

/-- QM_FLUSH (R261). -/
def execQmFlush (v : Word) (s : State) : Host.Outcome State Fault Refusal := s.hostWrite R.bufQmCmd (F.bufQmCmdGo.put (F.bufQmCmdOp.put v 1) 1)

/-! ### The tinder wake (R297, R400) -/

/-- The section of the port's cord makes it a standby port. -/
def Dev.standby (d : Dev) (p : Nat) : Bool := (Tbl.get ({} : Sec) d.img.slot (hsCord p)).recs.any fun r => match r with
  | .port q k _ fl _ => q == p && k != 0 && fl % 2 == 1 && !(Tbl.get ({} : Sec) d.img.slot (hsCord p)).recs.any (Rec.covers p)
  | _ => false

/-- A period of 128 bits counts: at most 8 of them differ from 64 ones followed by 64 zeros, at some phase (R297). -/
def tinderCounts (x : BitVec 128) : Bool :=
  (List.range 128).any fun k =>
    decide (((List.range 128).filter fun i => x.getLsbD i != decide (64 ≤ (i + k) % 128)).length ≤ 8)

/-- The detector's count of periods in a row after one more; it stops at 640, the wake. -/
def tinderStep (n : Nat) (x : BitVec 128) : Nat := if 640 ≤ n then n else if tinderCounts x then n + 1 else 0

/-- The detector of a port runs while it is parked, in every power state (R296). -/
def Dev.tinderOn (d : Dev) (p : Nat) : Bool :=
  if d.cordOn (hsCord p) then d.get (F.hsMacParkPstate p) == 1 else d.cordSt (hsCord p) ≤ 1 && d.standby p

/-- A port's detector has counted 640 periods in a row (R297, R400). -/
def Dev.tinderWake (d : Dev) (p : Nat) : Dev :=
  let c := hsCord p
  if d.cordOn c then (d.unpark p).when (d.flag F.hrtPwrCfgAutotin && d.get F.hrtPwrStateCur != 0) fun d => d.autoFull
  else
    let d1 := d.setPwr fun x => { x with tinder := if x.tinder.contains p then x.tinder else x.tinder ++ [p] }
    if d.flag F.hrtPwrCfgAutotin && d.get F.hrtPwrStateCur != 0 then d1.autoFull
    else d1.when (d.cordSt c == 0) fun d => d.cordWake c .tinder

/-- MAC_TINDER_WAKE: the raw signal of a parked port's first lane, by periods of 128 bits; the detector counts on across commands. -/
def execMacTinderWake (p : Fin 96) (periods : List (BitVec 128)) (s : State) : Host.Outcome State Fault Refusal := s.runServe fun _ d =>
  if !d.tinderOn p then d
  else
    let n := periods.foldl tinderStep (Tbl.get 0 d.pwr.tinderRun p)
    let d1 := d.setPwr fun x => { x with tinderRun := Tbl.set 0 x.tinderRun p (if 640 ≤ n then 0 else n) }
    d1.when (decide (640 ≤ n)) fun d => d.tinderWake p

end Sys2Proof.Machine
end

