-- ==== Sys2Proof/Machine/Moments.lean ====
section
/-!
DEFINITION. The moments of cords, engines, slices and boot that move a reload, a transition or a move on: ready and timed out,
drained, faulted, loaded, moved, boot selection. Accesses that waited for a cord go on in the same step.
-/

namespace Sys2Proof.Machine

/-- CORD_READY (R33, R371, R388, R389, R391): a waking cord reports ready; `badBanks` are ember banks with an uncorrectable error. -/
def execCordReady (c : Fin 13) (badBanks : BitVec 16) (s : State) : Host.Outcome State Fault Refusal := s.runServe fun fz d =>
  ((d.ready fz c badBanks.toNat).serve fz).cordCmdDue c

/-- WAKE_TIMEOUT (R389): WAKETO has passed. -/
def execWakeTimeout (c : Fin 13) (s : State) : Host.Outcome State Fault Refusal := s.runServe fun fz d => d.wakeTimeout fz c

/-- DRAIN_COMPLETE (R374): the last unit has left the cord. -/
def execDrainComplete (c : Fin 13) (s : State) : Host.Outcome State Fault Refusal := s.runServe fun _ d => (d.drained c).cordCmdDue c

/-- DRAIN_TIMEOUT (R374): units still held are discarded and counted. -/
def execDrainTimeout (c : Fin 13) (units : Nat) (s : State) : Host.Outcome State Fault Refusal := s.runServe fun _ d =>
  d.when (c.val != 0 && d.cordSt c == 6) fun d => (d.count F.hrtCfgDrainDraindrop units).drained c |>.cordCmdDue c

/-- PKT_SLICE_PAIR_EMPTY (R379, R380): the pair in hand, or before a new seed every slice, holds no unit. -/
def execPktSlicePairEmpty (s : State) : Host.Outcome State Fault Refusal := s.runServe fun fz d =>
  match d.pkt.run with
  | none => d
  | some r =>
    match r.cur with
    | some p =>
      if r.held.isEmpty || !d.sliceEmpty (2 * p) || !d.sliceEmpty (2 * p + 1) then d
      else let x := d.movePair r p; if x.2 then x.1.runOver fz r.reload else x.1
    | none =>
      if !(List.range 24).all fun n => d.sliceEmpty n then d
      else ((d.set F.pktSprCfgSeed r.seed).setPkt fun x => { x with run := none }).runOver fz r.reload

/-- SPREAD_ENTRY_RETURN (R225, R379): a moved entry's packets have left PKT. -/
def execSpreadEntryReturn (i : Fin 256) (s : State) : Host.Outcome State Fault Refusal := s.runServe fun fz d =>
  match d.pkt.run with
  | none => d
  | some r =>
    match r.moved.find? fun x => x.1 == i.val with
    | none => d
    | some m =>
      let n := d.get (F.pktSprMapSlice i)
      if (Tbl.get [] d.pkt.stores n).any (fun p => p.hash % 256 == i.val) || d.pkt.decided.any (fun x => x.pkt.hash % 256 == i.val) then d
      else let x := d.returnEntry r i m.2; if x.2 then x.1.runOver fz r.reload else x.1

/-- ENGINE_FAULT (R198, R205, R209, R214): a checker's cause 1 to 5, and another engine's fault in the same clock; of two serving
engines the one of the wavelength PRI names comes first. -/
def execEngineFault (e : Fin 3) (cause : Fin 8) (other : Option (Fin 3 × Fin 8)) (lost : Nat) (s : State) :
    Host.Outcome State Fault Refusal := s.runServe fun fz d =>
  let ok (k : Nat) : Bool := decide (1 ≤ k) && decide (k ≤ 5)
  match other with
  | none => d.when (ok cause) fun d => (d.engineFault e cause lost).afterFault fz
  | some (f, k) =>
    d.when (ok cause && ok k && e != f) fun d =>
      let pri := d.assigned (d.get F.hrtSprCfgPri)
      let d1 := if pri = some f.val then (d.engineFault f k lost).engineFault e cause lost else (d.engineFault e cause lost).engineFault f k lost
      d1.afterFault fz

/-- CORRECTABLE_ECC_ERROR (R198): corrected in place and counted; more than CETHR in one second is a fault of cause 4. -/
def execCorrectableEccError (e : Fin 3) (inSecond : Nat) (s : State) : Host.Outcome State Fault Refusal := s.runServe fun fz d =>
  d.when (d.cordOn (1 + e)) fun d =>
    (d.count (F.hrtSprEngCecnt e) 1).when (d.get F.hrtSprCfg2Cethr < inSecond) fun d =>
      ({ d with free := d.free + 1 }.engineFault e 4 d.pipeCells).afterFault fz

/-- A serving engine that was woken has its newest snapshot and serves (R201, R388). -/
def Dev.serveLoaded (d : Dev) (e : Nat) : Dev :=
  match d.wlOf e with
  | none => d.setSpr1 e fun x => { x with loading := false }
  | some w =>
    let d1 := match d.newest w with
      | some s => d.loadSnap w e s
      | none => d
    let d2 := (d1.setSpr1 e fun x => { x with loading := false }).when (d1.cordOn (4 + w)) fun d => (d.select w e).connect w e
    (d2.catchUp w e).discipline.txRefresh

/-- SNAPSHOT_LOADED (R63, R200 to R205, R212): the load of an engine ends. -/
def execSnapshotLoaded (e : Fin 3) (s : State) : Host.Outcome State Fault Refusal := s.runServe fun fz d =>
  if !(d.spr1 e).loading || !d.cordOn (1 + e) then d
  else match d.spr.move with
    | some m =>
      if m.inc ≠ e.val then d.serveLoaded e
      else if m.step ≠ 1 then d
      else if m.kind = .takeover ∨ m.kind = .restore then d.takeWave m
      else d.overlap fz m
    | none => d.serveLoaded e

/-- REVERT_MOVE (R16, R212, R377): `clean` received line frames in a row without a difference. Delivery and transmission move together at
the next transmit line frame boundary, up to which the ticks pass; in leaf mode nothing moves at one within a window of the transmit gate
(the model's choice, log 79). -/
def execRevertMove (w : Fin 2) (clean : Nat) (s : State) : Host.Outcome State Fault Refusal := s.runServe fun fz d =>
  match d.spr.move with
  | some m =>
    d.when (m.wl == w.val && m.step == 2 && m.kind != .takeover && m.kind != .restore && d.flag (F.cvSelStatOverlap w)
      && d.get (F.leRxcStatAcq m.inc) == 6 && decide (d.get F.hrtSprCfgRevq ≤ clean)) fun d =>
      let d1 := d.toBoundary w
      if (d1.wave w).leaf && (d1.wave w).burstsOn.any d1.burstOpen then d else ((d1.completeMove m).reloadAfter fz).powerGo
  | none => d

/-- REVERT_TIMEOUT (R213): 64 line frames of overlap have passed. -/
def execRevertTimeout (w : Fin 2) (s : State) : Host.Outcome State Fault Refusal := s.runServe fun fz d => d.abandonIf fz w fun _ _ => true

/-- FEC_BLOCK_DECODE (R113, R115, R117, R118, R127, R213): block `j` of those whose last bit lies in the frame in progress of an
aligned subcarrier, from the demapper's LLRs of its line bits, and in an overlap from those of the incoming engine. The outgoing
engine's copy is delivered, and a difference in a compared frame abandons the move. -/
def execFecBlockDecode (w : Fin 2) (sc : Fin 32) (j : Nat) (a : List Int) (b : Option (List Int)) (s : State) :
    Host.Outcome State Fault Refusal := s.runServe fun fz d =>
  match d.serving w with
  | none => d
  | some e =>
    if !d.aligned w sc || (d.wave w).gap || !d.lineOk w then d
    else
      let x := d.fecRead w sc e j a
      let d1 := { d with free := d.free + 1 }.fecBlock w sc x
      match b with
      | some l => { d1 with free := d1.free + 1 }.abandonIf fz w fun _ m => (d.sc w sc).cmp && fecDiffer x (d1.fecRead w sc m.inc j l)
      | none => d1

/-- BOOT_SELECTION (R367 to R371). -/
def execBootSelection (s : State) : Host.Outcome State Fault Refusal := s.runServe fun fz d =>
  if d.inReset || !d.flag F.hrtCfgStatBootpend || !d.flag F.hrtHstStatFwrun || d.flag F.hrtHstStatRecovery || d.get F.hrtClkStatHrtsrc != 2 then d
  else
    let a := d.verifySlot fz 0
    let b := d.verifySlot fz 1
    let d1 := (((d.showSlots a b).slotBad a).slotBad b).set F.hrtCfgStatBootpend 0
    match selectSlot (a.map fun i => (i.seq, i.digest)) (b.map fun i => (i.seq, i.digest)) with
    | none => (d1.set F.hrtCfgStatNoimg 1).raise 0x0F [R.hrtCfgStat]
    | some (k, disputed) =>
      match (if k = 0 then a else b) with
      | none => d1
      | some i =>
        let d2 := (d1.takeImage k i).when disputed fun d => (d.set F.hrtCfgStatDisputed 1).raise 0x0A [R.hrtCfgStat]
        (d2.raise 0x08 [R.hrtCfgStat, R.hrtCfgSeqa, R.hrtCfgSeqb]).bootApply fz

end Sys2Proof.Machine
end

