-- ==== Sys2Proof/Machine/Hearth.lean ====
section
/-!
DEFINITION. Hearth: the commands of both mailboxes (R411 to R416), the SMBus target (R417), the update path (R418, R419), the
ash log (R424, R425) and restarts of the firmware (R409, R410). A mailbox command is the request at the head of the order in
which requests became complete (R412); its row runs it.
-/

namespace Sys2Proof.Machine

/-! ### Responses (R411, R413, R417) -/

/-- The command at the head ends with its status and response data; words of the response registers beyond it stand. -/
def Dev.mbxEnd (d : Dev) (q : MbxReq) (status : Nat) (data : List Byte) : Dev :=
  let b := leBytes 4 (status + data.length * 2 ^ 16) ++ data
  let d1 := d.setHearth fun h => { h with reqs := h.reqs.drop 1 }
  if q.smb then d1.setHearth fun h => { h with smbRsp := b, smbDone := true }
  else
    let d2 := d1.each (List.range ((b.length + 3) / 4)) fun d i => d.setReg (R.hrtMbxRsp i) (BitVec.ofNat 32 (leAt b (4 * i) 4))
    ((d2.set F.hrtMbxCtlBusy 0).set F.hrtMbxCtlStatus status).raise 0x02 [R.hrtMbxRsp 0]

/-- Hearth serves commands: the firmware, or in recovery the ROM. -/
def Dev.fwServes (d : Dev) : Bool := d.flag F.hrtHstStatFwrun || d.flag F.hrtHstStatRecovery

/-- The opcodes of INFO and of the update commands, which recovery serves (R409, R419). -/
def recoveryOp (op : Nat) : Bool := op == 0 || (decide (0x10 ≤ op) && decide (op ≤ 0x14))

/-- The group a subject block serves (R414); block 0x0E serves the injectors, whatever their group. -/
def blockGroup (b : Nat) : Option Group :=
  match b with
  | 1 => some .power
  | 2 | 3 | 4 => some .line
  | 5 => some .shared
  | 6 => some .crypto
  | 7 => some .sparing
  | 8 => some .lanes
  | 9 => some .mac
  | 0xA => some .packet
  | 0xB => some .queue
  | 0xD => some .time
  | _ => none

/-- The block of an opcode 0xS00 to 0xS02, where commands are defined for it. -/
def opBlock (op k : Nat) : Option Nat :=
  let b := op / 256
  if op % 256 = k && ((blockGroup b).isSome || b == 0xE) then some b else none

/-- The response data of a command that has written nothing: WRN answers the writes completed with every status (R414). -/
def MbxReq.noData (q : MbxReq) : List Byte := if (opBlock q.opcode 2).isSome then leBytes 4 0 else []

/-- The head command when its opcode is one of a row's: over-long and in recovery unserved ones end at once (R411, R413). -/
def State.mailbox (s : State) (mine : Nat → Bool) (f : Fuses → Dev → MbxReq → Dev) : Host.Outcome State Fault Refusal :=
  s.runServe fun fz d =>
    match d.hearth.reqs with
    | [] => d
    | q :: _ =>
      if !mine q.opcode || !d.fwServes then d
      else if 248 < q.len then d.mbxEnd q 0x02 q.noData
      else if d.flag F.hrtHstStatRecovery && !recoveryOp q.opcode then d.mbxEnd q 0x0C q.noData
      else f fz d q

/-! ### Reaching a register (R412 to R416) -/

/-- The cord of an address for a mailbox command: 0 it answers, 1 the command waits for it, 2 it is down. -/
def Dev.mbxCord (d : Dev) (a : Nat) : Nat :=
  let c := cordOf a
  let st := d.cordSt c
  if c = 0 then 0
  else if (d.flag F.hrtCfgStatBootpend || d.flag F.hrtCfgStatNoimg) && c != 12 then 2
  else if st = 4 ∨ st = 5 then 2
  else if st ≤ 1 || (st = 6 && (d.cordInfo c).why == .trans) then 1 else 0

/-- A command once its cord answers: it waits for a wake, and ends with 0x06 where the cord is down (R412). -/
def Dev.mbxReach (d : Dev) (q : MbxReq) (a : Nat) (data : List Byte) (f : Dev → Dev) : Dev :=
  let k := d.mbxCord a
  if k = 0 then f d
  else if k = 1 then d.when (d.cordSt (cordOf a) == 0) fun d => d.accessWake (cordOf a)
  else (d.accessFailed (d.cordSt (cordOf a)) (cordOf a)).mbxEnd q 0x06 data

/-- A register of fault injection and test access. -/
def RegName.isFi (n : RegName) : Bool :=
  match n with
  | .hsFiCtl | .hsFiPar | .hsFiRate | .hsFiSeed | .hsFiLimit | .hsFiStat | .hsFiCnt
  | .lfFiCtl | .lfFiPar | .lfFiRate | .lfFiSeed | .lfFiLimit | .lfFiStat | .lfFiCnt
  | .pktFiCtl | .pktFiPar | .pktFiRate | .pktFiSeed | .pktFiLimit | .pktFiStat | .pktFiCnt => true
  | _ => false

/-- The target of a write is one of the opcode's: 0, else its status; block 0 for WR0. The level is that of the request (R383). -/
def mbxTarget (level blk a : Nat) : Nat :=
  if a % 4 ≠ 0 then 3
  else if (emberOfs a).isSome then (if blk = 0 then 0 else 3)
  else match decodeAddr a with
    | none => 3
    | some r =>
      if blk = 0 then (if r.row.group.isSome || cordOf a == 12 then 3 else 0)
      else match r.row.group with
        | none => 3
        | some g => if blockGroup blk = some g || (blk = 0xE && r.row.name.isFi) then (if expertIn level (some g) then 4 else 0) else 3

/-- A register that holds key material and nothing else, a WO field of all its bits (R174). -/
def keyAt (a : Nat) : Bool :=
  match decodeAddr a with
  | some r => r.row.group == some .crypto && r.row.fields.any fun f => f.ty == .wo && f.width == 32
  | none => false

/-- A register with a WO field of group CRYPTO, whose value the ash log does not record (R416). -/
def hiddenAt (a : Nat) : Bool :=
  match decodeAddr a with
  | some r => r.row.group == some .crypto && r.row.fields.any fun f => f.ty == .wo
  | none => false

/-- A successful mailbox write is recorded, a WO field of group CRYPTO by its address alone (R416). -/
def Dev.mbxNote (d : Dev) (a : Nat) (v : Word) : Dev :=
  d.ashAdd 2 0 4 (beBytes 4 a ++ if hiddenAt a then [] else beBytes 4 v.toNat)

/-- One write of Hearth's (R415): the device after it and the access-error code it would have met. -/
def Dev.mbxPut (fz : Fuses) (d : Dev) (a : Nat) (v : Word) : Dev × Nat :=
  let x : Dev × Nat := match emberOfs a, decodeAddr a with
    | some o, _ => if d.get F.hrtPwrEmbwinBank ≤ 3 then (d, 10) else (d.emberWrite o v, 0)
    | none, some r => d.regWrite fz a r v false []
    | none, none => (d, 2)
  if x.2 = 0 then (x.1.mbxNote a v, 0) else x

/-- What a register reads as for Hearth. -/
def Dev.mbxGet (fz : Fuses) (d : Dev) (a : Nat) : Word :=
  match emberOfs a, decodeAddr a with
  | some o, _ => d.emberRead o
  | none, some r => d.readValue fz a r
  | none, none => 0

/-- What that read does. -/
def Dev.mbxGetEffect (d : Dev) (a : Nat) : Dev :=
  match emberOfs a, decodeAddr a with
  | none, some r => d.readEffect a r
  | _, _ => d

/-! ### INFO, RD and the writes (R414, R415) -/

/-- INFO. -/
def execInfo (s : State) : Host.Outcome State Fault Refusal := s.mailbox (· == 0) fun _ d q =>
  if q.len ≠ 0 then d.mbxEnd q 0x02 []
  else d.mbxEnd q 0 ([R.hrtGlbId, R.hrtHstFwver, R.hrtHstFwseq, R.hrtHstStat].flatMap fun a => leBytes 4 (d.reg a).toNat)

/-- Consecutive registers read in address order. -/
def Dev.mbxReads (fz : Fuses) (a : Nat) : Nat → Dev → Dev × List Byte
  | 0, d => (d, [])
  | n + 1, d =>
    let v := leBytes 4 (d.mbxGet fz a).toNat
    let x := Dev.mbxReads fz (a + 4) n (d.mbxGetEffect a)
    (x.1, v ++ x.2)

/-- RD. -/
def execRd (s : State) : Host.Outcome State Fault Refusal := s.mailbox (· == 1) fun fz d q =>
  let a := leAt q.args 0 4
  let n := leAt q.args 4 1
  let ok := (List.range n).all fun i => decide (a % 4 = 0) && ((emberOfs (a + 4 * i)).isSome || (decodeAddr (a + 4 * i)).isSome)
  if q.len ≠ 8 || q.args.length ≠ 8 then d.mbxEnd q 0x02 []
  else if n < 1 || 62 < n || leAt q.args 5 3 ≠ 0 || !ok then d.mbxEnd q 0x03 []
  else d.mbxReach q a [] fun d => let x := Dev.mbxReads fz a n d; x.1.mbxEnd q 0 x.2

/-- The status and data of one write's code (R413). -/
def Dev.mbxWrote (x : Dev × Nat) (q : MbxReq) (data : List Byte) : Dev :=
  if x.2 = 0 then x.1.mbxEnd q 0 data else x.1.mbxEnd q 0x05 (leBytes 4 x.2)

/-- A write of one value by block `blk`. -/
def Dev.mbxWr (fz : Fuses) (d : Dev) (q : MbxReq) (blk : Nat) : Dev :=
  let a := leAt q.args 0 4
  if q.len ≠ 8 || q.args.length ≠ 8 then d.mbxEnd q 0x02 []
  else
    let t := mbxTarget q.level blk a
    if t ≠ 0 then d.mbxEnd q t []
    else d.mbxReach q a [] fun d => Dev.mbxWrote (d.mbxPut fz a (BitVec.ofNat 32 (leAt q.args 4 4))) q []

/-- WR0: a register of no function group. -/
def execWr0 (s : State) : Host.Outcome State Fault Refusal := s.mailbox (· == 2) fun fz d q => d.mbxWr fz q 0

/-- WR. -/
def execWr (s : State) : Host.Outcome State Fault Refusal := s.mailbox (fun op => (opBlock op 0).isSome) fun fz d q => d.mbxWr fz q (q.opcode / 256)

/-- The word WRM writes. -/
def Dev.mbxMasked (fz : Fuses) (d : Dev) (q : MbxReq) (a : Nat) : Word :=
  let mask := BitVec.ofNat 32 (leAt q.args 4 4)
  (d.mbxGet fz a &&& ~~~mask) ||| (BitVec.ofNat 32 (leAt q.args 8 4) &&& mask)

/-- WRM: bits of a mask; the value written is answered, but not a word of key material (R174; log 82). -/
def execWrm (s : State) : Host.Outcome State Fault Refusal := s.mailbox (fun op => (opBlock op 1).isSome) fun fz d q =>
  let a := leAt q.args 0 4
  if q.len ≠ 12 || q.args.length ≠ 12 then d.mbxEnd q 0x02 []
  else
    let t := mbxTarget q.level (q.opcode / 256) a
    if t ≠ 0 then d.mbxEnd q t []
    else d.mbxReach q a [] fun d =>
      let new := d.mbxMasked fz q a
      Dev.mbxWrote (d.mbxPut fz a new) q (leBytes 4 (if keyAt a then 0 else new.toNat))

/-- Writes of consecutive registers up to the first failure: how many are done, the status and the code. -/
def Dev.mbxWrites (fz : Fuses) (level blk a : Nat) : List Nat → Dev → Nat → Dev × Nat × Nat × Nat
  | [], d, n => (d, n, 0, 0)
  | v :: l, d, n =>
    let t := mbxTarget level blk a
    let k := d.mbxCord a
    if t ≠ 0 then (d, n, t, 0)
    else if k ≠ 0 then (d, n, 6, 0)
    else
      let x := d.mbxPut fz a (BitVec.ofNat 32 v)
      if x.2 ≠ 0 then (x.1, n, 5, x.2) else Dev.mbxWrites fz level blk (a + 4) l x.1 (n + 1)

/-- The values of a WRN. -/
def MbxReq.values (q : MbxReq) : List Nat := (List.range (leAt q.args 4 1)).map fun i => leAt q.args (8 + 4 * i) 4

/-- WRN: consecutive registers. -/
def execWrn (s : State) : Host.Outcome State Fault Refusal := s.mailbox (fun op => (opBlock op 2).isSome) fun fz d q =>
  let blk := q.opcode / 256
  let a := leAt q.args 0 4
  let n := leAt q.args 4 1
  let none_ := q.noData
  if q.len < 8 || q.args.length ≠ q.len then d.mbxEnd q 0x02 none_
  else if n < 1 || 60 < n || leAt q.args 5 3 ≠ 0 then d.mbxEnd q 0x03 none_
  else if q.len ≠ 8 + 4 * n then d.mbxEnd q 0x02 none_
  else
    let t := mbxTarget q.level blk a
    if t ≠ 0 then d.mbxEnd q t none_
    else d.mbxReach q a none_ fun d =>
      let x := Dev.mbxWrites fz q.level blk a q.values d 0
      x.1.mbxEnd q x.2.2.1 (leBytes 4 x.2.1 ++ if x.2.2.1 = 5 then leBytes 4 x.2.2.2 else [])

/-- The opcodes of R414. -/
def knownOp (op : Nat) : Bool :=
  [0, 1, 2, 0x10, 0x11, 0x12, 0x13, 0x14, 0x20, 0x30, 0x31, 0x32].contains op || (opBlock op 0).isSome || (opBlock op 1).isSome
    || (opBlock op 2).isSome

/-- MBX_UNKNOWN_OPCODE: every other opcode ends with 0x01. -/
def execMbxUnknownOpcode (s : State) : Host.Outcome State Fault Refusal := s.runServe fun _ d =>
  match d.hearth.reqs with
  | [] => d
  | q :: _ => d.when (!knownOp q.opcode && d.fwServes) fun d => d.mbxEnd q (if 248 < q.len then 0x02 else 0x01) []

/-- CFG (R373, R414): a value for HRT_CFG_CMD with GO implied. -/
def execCfg (s : State) : Host.Outcome State Fault Refusal := s.mailbox (· == 0x20) fun fz d q =>
  if q.len ≠ 4 || q.args.length ≠ 4 then d.mbxEnd q 0x02 []
  else match decodeAddr R.hrtCfgCmd with
    | some r =>
      let x := d.regWrite fz R.hrtCfgCmd r (F.hrtCfgCmdGo.put (BitVec.ofNat 32 (leAt q.args 0 4)) 1) false []
      Dev.mbxWrote x q (leBytes 4 (x.1.reg R.hrtCfgStat).toNat)
    | none => d

/-! ### Firmware (R408 to R410) -/

/-- A firmware slot starts to run. -/
def Dev.runFirmware (d : Dev) (slot : Nat) (f : Nat × Nat × List Byte) (reason : Nat) : Dev :=
  ((((d.set F.hrtHstStatRecovery 0).set F.hrtHstStatFwslot slot).set F.hrtHstFwseqValue f.1).set F.hrtHstFwverValue f.2.1).fwStart reason

/-- Firmware selection (R409), and its start; without a valid slot the recovery state. -/
def Dev.fwSelect (fz : Fuses) (d : Dev) (reason : Nat) : Dev :=
  let a := d.verifyFw fz 0
  let b := d.verifyFw fz 1
  match selectSlot (a.map fun f => (f.1, f.2.2)) (b.map fun f => (f.1, f.2.2)) with
  | none => (d.set F.hrtHstStatFwrun 0).set F.hrtHstStatRecovery 1
  | some (k, disputed) =>
    match (if k = 0 then a else b) with
    | some f => (d.setFlag F.hrtHstStatFwdisp disputed).runFirmware k f reason
    | none => d

/-! ### The update path (R418, R419) -/

/-- The first MRAM byte of the slot a session writes. -/
def UpdSession.base (u : UpdSession) : Nat := if u.firmware then fwBase u.slot else slotBase u.slot

/-- A session ends with its result. -/
def Dev.updOver (d : Dev) (res : Nat) : Dev :=
  ((((d.setHearth fun h => { h with session := none }).set F.hrtHstStatUpdact 0).set F.hrtHstStatUpdres res).raise 0x07 [R.hrtHstStat]).ashNote 2

/-- The session when it is the command's own. -/
def Dev.ownSession (d : Dev) (q : MbxReq) : Option UpdSession :=
  match d.hearth.session with
  | some u => if u.smb = q.smb then some u else none
  | none => none

/-- A configuration command, a mixed or disputed configuration or a transition keeps the update path closed. -/
def Dev.updDenied (d : Dev) : Bool :=
  d.flag F.hrtCfgStatDisputed || d.flag F.hrtCfgStatMixed || d.flag F.hrtCfgStatBusy || d.pwr.trans.isSome

/-- UPD_BEGIN: the slot chosen loses its header at once. -/
def execUpdBegin (s : State) : Host.Outcome State Fault Refusal := s.mailbox (· == 0x10) fun _ d q =>
  let target := leAt q.args 0 1
  let len := leAt q.args 4 4
  let range := if target = 0 then decide (1128 ≤ len) && decide (len ≤ 25165824) else decide (1024 ≤ len) && decide (len ≤ 4194304)
  if q.len ≠ 8 || q.args.length ≠ 8 then d.mbxEnd q 0x02 []
  else if 1 < target || leAt q.args 1 3 ≠ 0 || !range || len % 4 ≠ 0 then d.mbxEnd q 0x03 []
  else if d.updDenied then d.mbxEnd q 0x07 []
  else if d.hearth.session.isSome then d.mbxEnd q 0x0B []
  else
    let slot := if target = 0 then d.inactive else 1 - d.get F.hrtHstStatFwslot
    let u : UpdSession := ⟨q.smb, target == 1, slot, len, List.replicate 256 0⟩
    let d1 := d.mramPut u.base (List.replicate 256 0)
    let d2 := if target = 1 then d1 else if slot = 0 then d1.set F.hrtCfgSeqaSeq 0 else d1.set F.hrtCfgSeqbSeq 0
    (((d2.setHearth fun h => { h with session := some u }).set F.hrtHstStatUpdact 1).setFlag F.hrtHstStatUpdmbx q.smb).mbxEnd q 0 [BitVec.ofNat 8 slot]

/-- UPD_DATA: bytes of the header are held, the others written. -/
def execUpdData (s : State) : Host.Outcome State Fault Refusal := s.mailbox (· == 0x11) fun _ d q =>
  let o := leAt q.args 0 4
  let b := q.args.drop 4
  if q.len < 8 || 244 < q.len || q.len % 4 ≠ 0 || q.args.length ≠ q.len then d.mbxEnd q 0x02 []
  else match d.ownSession q with
    | none => d.mbxEnd q 0x08 []
    | some u =>
      if o % 4 ≠ 0 || u.len < o + b.length then d.mbxEnd q 0x03 []
      else
        let head := (List.range 256).map fun i => if o ≤ i && i < o + b.length then b.getD (i - o) 0 else u.header.getD i 0
        let k := min b.length (256 - o)
        ((d.mramPut (u.base + o + k) (b.drop k)).setHearth fun h => { h with session := some { u with header := head } }).mbxEnd q 0 []

/-- FWDISP as the two firmware slots now stand: not ordered, and different. -/
def Dev.fwDisputed (fz : Fuses) (d : Dev) : Dev :=
  match selectSlot ((d.verifyFw fz 0).map fun f => (f.1, f.2.2)) ((d.verifyFw fz 1).map fun f => (f.1, f.2.2)) with
  | some (_, disputed) => d.setFlag F.hrtHstStatFwdisp disputed
  | none => d.set F.hrtHstStatFwdisp 0

/-- The slot of a session is checked: VALA, VALB and SEQ of a configuration slot follow, or the firmware state (R418). -/
def Dev.updCheck (fz : Fuses) (d : Dev) (u : UpdSession) : Dev × Bool :=
  if u.firmware then (d.fwDisputed fz, (d.verifyFw fz u.slot).isSome)
  else let i := d.verifySlot fz u.slot; (d.showSlot u.slot i, i.isSome)

/-- UPD_END: the header is written last, then the slot is checked. -/
def execUpdEnd (s : State) : Host.Outcome State Fault Refusal := s.mailbox (· == 0x12) fun fz d q =>
  if q.len ≠ 0 then d.mbxEnd q 0x02 []
  else match d.ownSession q with
    | none => d.mbxEnd q 0x08 []
    | some u =>
      let x := (d.mramPut u.base u.header).updCheck fz u
      (x.1.updOver (if x.2 then 1 else 2)).mbxEnd q (if x.2 then 0 else 0x09) []

/-- UPD_ABORT. -/
def execUpdAbort (s : State) : Host.Outcome State Fault Refusal := s.mailbox (· == 0x13) fun _ d q =>
  if q.len ≠ 0 then d.mbxEnd q 0x02 []
  else if (d.ownSession q).isNone then d.mbxEnd q 0x08 [] else (d.updOver 3).mbxEnd q 0 []

/-- UPD_SESSION_TIMEOUT: 10 s without a command. -/
def execUpdSessionTimeout (s : State) : Host.Outcome State Fault Refusal := s.run fun _ d =>
  d.when d.hearth.session.isSome fun d => d.updOver 4

/-- FW_ACTIVATE (R419): the other slot, or in recovery the slot R368 selects, runs once Hearth has responded. -/
def execFwActivate (s : State) : Host.Outcome State Fault Refusal := s.mailbox (· == 0x14) fun fz d q =>
  let a := d.verifyFw fz 0
  let b := d.verifyFw fz 1
  let rec_ := d.flag F.hrtHstStatRecovery
  let k := if rec_ then ((selectSlot (a.map fun f => (f.1, f.2.2)) (b.map fun f => (f.1, f.2.2))).map (·.1)).getD 0 else 1 - d.get F.hrtHstStatFwslot
  if q.len ≠ 0 then d.mbxEnd q 0x02 []
  else if d.flag F.hrtCfgStatBusy || d.pwr.trans.isSome then d.mbxEnd q 0x07 []
  else match (if k = 0 then a else b) with
    | none => d.mbxEnd q 0x09 []
    | some f =>
      if !rec_ && !newer f.1 (d.get F.hrtHstFwseqValue) then d.mbxEnd q 0x0A []
      else (d.mbxEnd q 0 []).runFirmware k f 2

/-- A write command of the mailbox cut off after `k` writes: those are made, and the device with how many (R410). -/
def Dev.mbxCut (fz : Fuses) (d : Dev) (q : MbxReq) (k : Nat) : Dev × Nat :=
  let blk := q.opcode / 256
  let a := leAt q.args 0 4
  let vs : List Nat := if q.args.length ≠ q.len then []
    else if (q.opcode = 2 || (opBlock q.opcode 0).isSome) && q.len = 8 then [leAt q.args 4 4]
    else if (opBlock q.opcode 1).isSome && q.len = 12 then [(d.mbxMasked fz q a).toNat]
    else if (opBlock q.opcode 2).isSome && leAt q.args 5 3 = 0 && q.len = 8 + 4 * leAt q.args 4 1 && q.len ≤ 248 then q.values
    else []
  let x := Dev.mbxWrites fz q.level (if q.opcode = 2 then 0 else blk) a (vs.take k) d 0
  (x.1, x.2.1)

/-- WATCHDOG_RESTART (R410, R429): the command in progress, of whose writes `done` were made, ends with 0x0D; an UPD_END loses its
session, its slot as verification found it. -/
def execWatchdogRestart (done : Nat) (s : State) : Host.Outcome State Fault Refusal := s.runServe fun fz d =>
  if d.inReset || !d.flag F.hrtHstStatFwrun then d
  else
    let d1 := match d.hearth.reqs with
      | [] => d
      | q :: _ =>
        let d0 := match d.ownSession q with
          | some u => d.when (q.opcode == 0x12 && q.len == 0) fun d => (d.mramPut u.base u.header).updOver 3
          | none => d
        let x := d0.mbxCut fz q done
        x.1.mbxEnd q 0x0D (if (opBlock q.opcode 2).isSome then leBytes 4 x.2 else [])
    d1.fwSelect fz 1

/-! ### The ash log (R424, R425) -/

/-- ESEQ of the next entry. -/
def Dev.ashNext (d : Dev) : Nat := match d.ash.newest with
  | some n => (n + 1) % 2 ^ 32
  | none => 0

/-- The stored bytes of an entry. -/
def AshItem.bytes (i : AshItem) (eseq : Nat) : List Byte :=
  let b := beBytes 4 eseq ++ beBytes 4 i.ns ++ beBytes 2 i.wraps ++ beBytes 1 i.kind ++ beBytes 1 i.evt ++ beBytes 2 i.code ++ [0, 0] ++ fitBytes 12 i.data
  b ++ beBytes 4 (crcOf b)

/-- ASH_LOG_ENTRY: Hearth writes the entry at the head of its queue. -/
def execAshLogEntry (s : State) : Host.Outcome State Fault Refusal := s.run fun _ d =>
  match d.ash.queue with
  | [] => d
  | i :: t =>
    if !d.flag F.hrtHstStatFwrun then d
    else
      let e := d.ashNext
      { d.mramPut (0x3000000 + 32 * (e % 262144)) (i.bytes e) with ash := { d.ash with queue := t, newest := some e } }

/-- The entry ESEQ `e`, while the log holds it. -/
def Dev.ashHeld (d : Dev) (e : Nat) : Option (List Byte) :=
  match d.ashAt (e % 262144) with
  | some b => if beAt b 0 4 = e then some b else none
  | none => none

/-- The oldest entry held, with the newest. -/
def Dev.ashOldest (d : Dev) (newest : Nat) : Nat :=
  ((List.range 262144).findSome? fun k => let e := (newest + 2 ^ 32 - 262143 + k) % 2 ^ 32; if (d.ashHeld e).isSome then some e else none).getD newest

/-- Up to `n` entries from `e` to the newest, skipping those with a bad CRC. -/
def Dev.ashFrom (d : Dev) (e n newest : Nat) : List Byte :=
  let count := if newer e newest then 0 else min 262144 (sfnSub newest e + 1)
  (((List.range count).filterMap fun k => d.ashHeld ((e + k) % 2 ^ 32)).take n).flatten

/-- LOG_READ. -/
def execLogRead (s : State) : Host.Outcome State Fault Refusal := s.mailbox (· == 0x30) fun _ d q =>
  let e := leAt q.args 0 4
  let n := leAt q.args 4 1
  if q.len ≠ 8 || q.args.length ≠ 8 then d.mbxEnd q 0x02 []
  else if n < 1 || 7 < n || leAt q.args 5 3 ≠ 0 then d.mbxEnd q 0x03 []
  else match d.ash.newest with
    | none => d.mbxEnd q 0 []
    | some m => let o := d.ashOldest m; d.mbxEnd q 0 (d.ashFrom (if newer o e then o else e) n m)

/-- LOG_NOTE: an entry of KIND 3; the number of one that finds no room is open. -/
def execLogNote (s : State) : Host.Outcome State Fault Refusal := s.mailbox (· == 0x31) fun _ d q =>
  if q.len ≠ 16 || q.args.length ≠ 16 then d.mbxEnd q 0x02 []
  else
    let full := decide (256 ≤ ashLoad d.ash.queue)
    let d1 := d.ashAdd 3 0 (leAt q.args 0 2) (q.args.drop 4)
    let e := if full then (Config.freeWord d.free).toNat else (d1.ashNext + d1.ash.queue.length - 1) % 2 ^ 32
    { d1 with free := d1.free + 1 }.mbxEnd q 0 (leBytes 4 e)

/-- LOG_INFO: the numbers of an empty log are open. -/
def execLogInfo (s : State) : Host.Outcome State Fault Refusal := s.mailbox (· == 0x32) fun _ d q =>
  if q.len ≠ 0 then d.mbxEnd q 0x02 []
  else
    let lost := leBytes 4 (d.ash.lostAll + d.ash.lost)
    match d.ash.newest with
    | some m => d.mbxEnd q 0 (leBytes 4 (d.ashOldest m) ++ leBytes 4 m ++ lost)
    | none => { d with free := d.free + 1 }.mbxEnd q 0 ((List.range 8).map (Config.freeByte d.free) ++ lost)

/-! ### The SMBus target (R417) -/

/-- An SMBus command waits or runs. -/
def Dev.smbBusy (d : Dev) : Bool := d.hearth.reqs.any (·.smb)

/-- The PEC of a transaction's bytes: a CRC-8 by x^8 + x^2 + x + 1 (SMBus 3.1; PRESUMED, log 63). -/
def smbPec (bytes : List Byte) : Byte :=
  bytes.foldl (fun c b => (List.range 8).foldl (fun (c : Byte) _ => if c.msb then (c <<< 1) ^^^ 7 else c <<< 1) (c ^^^ b)) 0

/-- The address byte of the target (R417). -/
def Dev.smbAddr (d : Dev) (read : Bool) : Byte := BitVec.ofNat 8 (2 * (0x58 + d.straps) + if read then 1 else 0)

/-- The target returns bytes, after their count where it is a block. -/
def Dev.smbReturn (d : Dev) (code : Byte) (block : Bool) (b : List Byte) : Dev :=
  d.emit (.smb b (smbPec ([d.smbAddr false, code, d.smbAddr true] ++ (if block then [BitVec.ofNat 8 b.length] else []) ++ b)))

/-- A transaction under the target's code for it (R417): another code is not acknowledged, and one whose PEC fails is discarded and counted. -/
def Dev.smbTake (d : Dev) (code own : Byte) (pecOk : Bool) (f : Dev → Dev) : Dev :=
  if d.inReset then d
  else if code ≠ own then d.emit (.smbNak code)
  else if !pecOk then d.count F.hrtSmbStatPecerr 1
  else f d

/-- SMB_BLOCK_WRITE: a request, or a transaction discarded and counted. -/
def execSmbBlockWrite (code : Byte) (bytes : List Byte) (pec : Byte) (s : State) : Host.Outcome State Fault Refusal := s.run fun _ d =>
  d.smbTake code 1 (pec == smbPec ([d.smbAddr false, code, BitVec.ofNat 8 bytes.length] ++ bytes)) fun d =>
  if d.smbBusy then d.count F.hrtSmbStatOvr 1
  else if bytes.length < 4 || 252 < bytes.length then d
  else d.setHearth fun h => { h with reqs := h.reqs ++ [⟨true, leAt bytes 0 2, leAt bytes 2 2, bytes.drop 4, d.get F.hrtCfgCtllvlExpert⟩] }

/-- SMB_BLOCK_READ: the last response, or during BUSY a header with STATUS 0xFF; before any response its header is open. -/
def execSmbBlockRead (code : Byte) (pecOk : Bool) (s : State) : Host.Outcome State Fault Refusal := s.run fun _ d =>
  d.smbTake code 2 pecOk fun d =>
  if d.smbBusy then d.smbReturn code true (leBytes 4 0xFF)
  else if d.hearth.smbRsp.isEmpty then { d with free := d.free + 1 }.smbReturn code true ((List.range 4).map (Config.freeByte d.free))
  else (d.setHearth fun h => { h with smbDone := false }).smbReturn code true d.hearth.smbRsp

/-- SMB_READ_BYTE: BUSY, DONE, EVT, RECOVERY. -/
def execSmbReadByte (code : Byte) (pecOk : Bool) (s : State) : Host.Outcome State Fault Refusal := s.run fun _ d =>
  let bit (b : Bool) (n : Nat) : Nat := if b then n else 0
  d.smbTake code 3 pecOk fun d => d.smbReturn code false [BitVec.ofNat 8 (bit d.smbBusy 1 + bit d.hearth.smbDone 2
    + bit ((List.range 16).any fun g => d.groupPending g) 4 + bit (d.flag F.hrtHstStatRecovery) 8)]

end Sys2Proof.Machine
end

