-- ==== Sys2Proof/Machine/System.lean ====
section
/-!
DEFINITION. The device as a whole: reset, bring-up and loss of power (R34, R470 to R472), its clocks (R21, R22, R423), its
sensors, the thermal trip and the rail monitors (R420 to R422).
-/

namespace Sys2Proof.Machine

/-! ### Clocks (R21, R22, R423) -/

/-- Bit m of CLKOK or CLKSTK. -/
def clkF (f : Fld) (m : Nat) : Fld := ⟨f.addr, f.lsb + m, 1⟩

/-- A clock monitor enters its fault. -/
def Dev.clkFault (d : Dev) (m : Nat) : Dev :=
  if d.pwr.clkBad.contains m then d
  else (((d.setPwr fun p => { p with clkBad := p.clkBad ++ [m] }).set (clkF F.hrtSnsStatClkok m) 0).set (clkF F.hrtSnsStatClkstk m) 1).raise 0x06
    [R.hrtSnsStat]

/-- A clock monitor finds its clock good. -/
def Dev.clkGood (d : Dev) (m : Nat) : Dev :=
  (d.setPwr fun p => { p with clkBad := p.clkBad.filter (· != m) }).set (clkF F.hrtSnsStatClkok m) 1

/-- The best clock available to Hearth. -/
def Dev.hearthClock (d : Dev) : Dev :=
  d.set F.hrtClkStatHrtsrc (if d.flag F.hrtClkStatRootlock then 2 else if d.flag F.hrtClkStatRefok then 1 else 0)

/-- REFCLK_VALID (R21, R22): the steering starts back from the frozen control word. -/
def execRefclkValid (s : State) : Host.Outcome State Fault Refusal := s.run fun _ d =>
  d.when (!d.inReset && !d.flag F.hrtClkStatRefok) fun d =>
    let d1 := ((d.set F.hrtClkStatRefok 1).clkGood 0).hearthClock
    let d2 := match d1.time.frozen with
      | some v => d1.showSteer v
      | none => d1
    (d2.setTime fun t => { t with frozen := none }).discipline

/-- REFCLK_LOST (R22): the root freezes its control word. -/
def execRefclkLost (s : State) : Host.Outcome State Fault Refusal := s.run fun _ d =>
  d.when (d.flag F.hrtClkStatRefok) fun d =>
    (((((d.set F.hrtClkStatRefok 0).set F.hrtClkStatReflost 1).clkFault 0).hearthClock).setTime fun t => { t with frozen := some d.steering }).discipline

/-- ROOT_LOCK (R21, R34, R349): PCI is powered with its default structure, and the time counter starts. -/
def execRootLock (s : State) : Host.Outcome State Fault Refusal := s.run fun _ d =>
  d.when (!d.inReset && !d.flag F.hrtClkStatRootlock && (d.pwr.rootSeen || d.flag F.hrtClkStatRefok)) fun d =>
    let d1 := (((d.set F.hrtClkStatRootlock 1).clkGood 1).hearthClock).setPwr fun p => { p with rootSeen := true }
    (d1.set F.hrtTimStatRun 1).when (d1.cordSt 12 == 0) fun d => d.setSt 12 2

/-- ROOT_UNLOCK (R21, R423). -/
def execRootUnlock (s : State) : Host.Outcome State Fault Refusal := s.run fun _ d =>
  d.when (d.flag F.hrtClkStatRootlock) fun d =>
    (((d.set F.hrtClkStatRootlock 0).set F.hrtClkStatRootunlock 1).clkFault 1).hearthClock

/-- CLOCK_MONITOR (R423): the end of a measurement by monitor 2 or 3, in ppm from 100 MHz. -/
def execClockMonitor (m : Fin 4) (ppm : Int) (s : State) : Host.Outcome State Fault Refusal := s.run fun _ d =>
  if d.inReset || decide (m.val < 2) || (m == 3 && !d.flag F.hrtClkStatRefok) then d
  else if (if m = 2 then 300 else 100000) < ppm.natAbs then d.clkFault m else d.clkGood m

/-! ### Reset and power (R34, R409, R454, R470 to R472) -/

/-- What a reset leaves: the MRAM, blown fuses, the straps, the PERST pin, and `banks` of the ember memory. -/
def Dev.cleared (d : Dev) (banks : Nat → Bool) : Dev :=
  { free := d.free, out := d.out, powered := d.powered, blown := d.blown, straps := d.straps, tap := d.tap
    img := { mram := d.img.mram }
    ember := { bytes := d.ember.bytes.filter fun x => banks (x.1 / 2 ^ 21) }
    pcie := { perst := d.pcie.perst } }

/-- DEVICE_RESET (R471, R472): RESET_N low for `ns`. -/
def execDeviceReset (ns : Nat) (s : State) : Host.Outcome State Fault Refusal :=
  if 1500 < ns ∧ ns < 2500 then .fault .resetPulseForbidden
  else s.run fun _ d => d.when (d.powered && decide (2500 ≤ ns)) fun d => d.cleared fun b => decide (4 ≤ b)

/-- POWER_LOSS (R470): every rail collapses. -/
def execPowerLoss (s : State) : Host.Outcome State Fault Refusal := s.run fun _ d => { d.cleared fun _ => false with powered := false, tap := .idcode }

/-- DEVICE_BRINGUP (R34, R409, R417): RESET_N rises with the supplies valid; `straps` is SMB_ADDR1, SMB_ADDR0. -/
def execDeviceBringup (straps : Fin 4) (s : State) : Host.Outcome State Fault Refusal := s.run fun fz d =>
  d.when d.inReset fun d =>
    let d1 := { d with inReset := false, powered := true, straps := straps }.set F.hrtSmbStatAddr (0x58 + straps)
    (d1.each (List.range 16) fun d i => d.set (F.hrtSnsRailNom i) (fz.rails.getD i 0)).fwSelect fz 0

/-! ### Sensors and the thermal trip (R420, R421) -/

/-- Every reading lies below WARN − HYST. -/
def Dev.allCool (d : Dev) : Bool := (List.range 24).all fun i =>
  decide (d.getInt (F.hrtSnsTempTemp i) < ((d.get F.hrtSnsTthrWarn : Int) - (d.get F.hrtSnsTthrHyst : Nat)) * 4)

/-- SENSOR_READ (R420, R421): a reading in units of 0.25 °C. -/
def execSensorRead (i : Fin 24) (t : Int) (s : State) : Host.Outcome State Fault Refusal := s.run fun _ d =>
  if d.inReset then d
  else
    let hot := decide (((d.get F.hrtSnsTthrTrip * 4 : Nat) : Int) ≤ t)
    let warn := decide (((d.get F.hrtSnsTthrWarn * 4 : Nat) : Int) ≤ t)
    let d1 := (d.setInt (F.hrtSnsTempMax i) (max t (d.getInt (F.hrtSnsTempMax i)))).setInt (F.hrtSnsTempTemp i) t
    let d2 := d1.setPwr fun p => { p with
      hot2 := if hot && p.hot.contains i.val then (if p.hot2.contains i.val then p.hot2 else p.hot2 ++ [i.val]) else p.hot2.filter (· != i.val)
      hot := if hot then (if p.hot.contains i.val then p.hot else p.hot ++ [i.val]) else p.hot.filter (· != i.val) }
    let d3 := d2.when (warn && !d.pwr.warned) fun d => (d.setPwr fun p => { p with warned := true }).raise 0x03 [R.hrtSnsTemp i]
    d3.when d3.allCool fun d => d.setPwr fun p => { p with warned := false }

/-- The roles that engines keep through a trip until CLEAR: a takeover's or restore's engine serves, a move's incoming one has
the role it held before; the gap of the one is over, and a takeover that waited leaves its wavelength without an engine (R209). -/
def Dev.tripRoles (d : Dev) : Dev :=
  let d1 : Dev := match d.spr.move with
    | some m =>
      if m.kind = .takeover ∨ m.kind = .restore then
        (((d.give m.wl (some m.inc)).setRole m.inc 1).setSpr fun x => { x with bare := x.bare.filter (· != m.wl) }).setWave m.wl fun v =>
          { v with gap := false, txCut := false, txNext := none }
      else d.setRole m.inc m.role
    | none => d
  let d1 : Dev := match d.spr.next with
    | some m => if m.kind = .takeover then d1.setSpr fun x => { x with bare := if x.bare.contains m.wl then x.bare else x.bare ++ [m.wl] } else d1
    | none => d1
  let d2 := d1.each [0, 1, 2] fun d e => d.setSpr1 e fun x =>
    { x with loading := false, trip := if x.trip.isSome || d.cordSt (1 + e) == 4 then x.trip else some (d.role e, (d.wlOf e).getD 2) }
  ((d2.setSpr fun x => { x with move := none, next := none }).set F.hrtSprStatBusy 0).sprShow

/-- The lowest-numbered cord a transition is switching. -/
def Dev.switching (d : Dev) (t : Trans) : Nat :=
  match (List.range 12).find? fun c => 1 ≤ c && (d.cordSt c == 1 || d.cordSt c == 6) && (d.cordInfo c).why == .trans with
  | some c => c
  | none => match t.todo.head? with
    | some (c, _) => if c ≤ 11 then c else if c = 21 then 8 else 10
    | none => 1

/-- A trip aborts a transition at once. -/
def Dev.tripTrans (d : Dev) : Dev :=
  match d.pwr.trans with
  | some t => (((d.pwrAbort (d.switching t)).setPwr fun p => { p with trans := none }).set F.hrtPwrStateBusy 0).set F.hrtPwrStateTgt (d.get F.hrtPwrStateCur)
  | none => d

/-- A trip ends a reload of one of its cords (R375). -/
def Dev.tripReload (d : Dev) : Dev :=
  match d.img.reload with
  | some r => if 1 ≤ r.cord ∧ r.cord ≤ 11 then (d.reloadFailEvent 0x11).reloadEnd 0x11 false else d
  | none => d

/-- THERM_TRIP (R421): cords 1 to 11 lose their power at once. -/
def execThermTrip (s : State) : Host.Outcome State Fault Refusal := s.runServe fun _ d =>
  d.when (!d.pwr.hot2.isEmpty && !d.flag F.hrtSnsStatTripped) fun d =>
    let d1 := d.tripRoles.tripTrans
    let d2 := d1.each ((List.range 11).map (11 - ·)) fun d c => (d.cordFail c false).setCordInfo c fun x => { x with tripped := true }
    let d3 := (d2.set F.hrtSnsStatTripped 1).setPwr fun p => { p with parked := [] }
    (d3.raise 0x04 [R.hrtSnsStat]).tripReload.runPending

/-- TRIP_CLEAR (R421): every reading has stayed below WARN − HYST for 1 s. -/
def execTripClear (s : State) : Host.Outcome State Fault Refusal := s.run fun _ d =>
  d.when (d.flag F.hrtSnsStatTripped && d.allCool) fun d => d.set F.hrtSnsStatTripped 0

/-! ### Rail monitors (R422, R469) -/

/-- A cord wakes in the transition that runs. -/
def Dev.transWakes (d : Dev) : Bool := d.pwr.trans.isSome && (List.range 12).any fun c => 1 ≤ c && d.cordSt c == 1 && (d.cordInfo c).why == .trans

/-- RAIL_SAMPLE (R422): the average of eight samples in mV. -/
def execRailSample (i : Fin 16) (mv : List Nat) (s : State) : Host.Outcome State Fault Refusal := s.run fun _ d =>
  if d.inReset || mv.length ≠ 8 then d
  else
    let nom := 8 * d.get (F.hrtSnsRailNom i)
    let low := decide (mv.sum * 1000 < nom * (1000 - d.get (F.hrtSnsRlimLo i)))
    let high := decide (nom * (1000 + d.get (F.hrtSnsRlimHi i)) < mv.sum * 1000)
    let wasLow := d.pwr.railLow.contains i.val
    let wasHigh := d.pwr.railBad.contains i.val && !wasLow
    let with_ (l : List Nat) (b : Bool) : List Nat := if b then (if l.contains i.val then l else l ++ [i.val]) else l.filter (· != i.val)
    let bad := d.get F.hrtSnsStatRailbad
    let d1 := (d.set (F.hrtSnsRailMv i) (mv.sum / 8)).set F.hrtSnsStatRailbad (if low || high then setBit bad i else clrBit bad i)
    let d2 := d1.setPwr fun p => { p with railLow := with_ p.railLow low, railBad := with_ p.railBad (low || high) }
    let d3 := d2.when ((low && !wasLow) || (high && !wasHigh)) fun d => d.raise 0x05 [R.hrtSnsStat, R.hrtSnsRail i]
    d3.when (low && d3.transWakes) fun d => d.wantAbort 0x24

end Sys2Proof.Machine
end

