-- ==== Sys2Proof/Machine/Dispatch.lean ====
section
/-!
DEFINITION. The dispatch: one arm for each command, each a direct call of the command's meaning.
-/

namespace Sys2Proof.Machine

def exec (i : Instr) (s : State) : Host.Outcome State Fault Refusal :=
  match i with
  | .deviceReset ns => Sys2Proof.Machine.execDeviceReset ns s
  | .deviceBringup straps => Sys2Proof.Machine.execDeviceBringup straps s
  | .powerLoss => Sys2Proof.Machine.execPowerLoss s
  | .refclkValid => Sys2Proof.Machine.execRefclkValid s
  | .refclkLost => Sys2Proof.Machine.execRefclkLost s
  | .rootLock => Sys2Proof.Machine.execRootLock s
  | .rootUnlock => Sys2Proof.Machine.execRootUnlock s
  | .registerWrite a size v => Sys2Proof.Machine.execRegisterWrite a size v s
  | .aerrRead => Sys2Proof.Machine.execAerrRead s
  | .timNsRead => Sys2Proof.Machine.execTimNsRead s
  | .groupFirstRead r => Sys2Proof.Machine.execGroupFirstRead r s
  | .rcFieldRead a size => Sys2Proof.Machine.execRcFieldRead a size s
  | .accessWake a write => Sys2Proof.Machine.execAccessWake a write s
  | .cordReady c badBanks => Sys2Proof.Machine.execCordReady c badBanks s
  | .wakeTimeout c => Sys2Proof.Machine.execWakeTimeout c s
  | .coldEngineIdleOff e => Sys2Proof.Machine.execColdEngineIdleOff e s
  | .rxLos w lvl => Sys2Proof.Machine.execRxLos w lvl s
  | .losClear w lvl => Sys2Proof.Machine.execLosClear w lvl s
  | .adcClip w ch clips => Sys2Proof.Machine.execAdcClip w ch clips s
  | .acquisitionStart e => Sys2Proof.Machine.execAcquisitionStart e s
  | .cdScanDone e est => Sys2Proof.Machine.execCdScanDone e est s
  | .cfoAcqDone e cfo => Sys2Proof.Machine.execCfoAcqDone e cfo s
  | .cfoAcqFail e => Sys2Proof.Machine.execCfoAcqFail e s
  | .ncoRange e residual => Sys2Proof.Machine.execNcoRange e residual s
  | .timingLock e offset tejit => Sys2Proof.Machine.execTimingLock e offset tejit s
  | .trUnlock e offset tejit => Sys2Proof.Machine.execTrUnlock e offset tejit s
  | .eqConverged e mask => Sys2Proof.Machine.execEqConverged e mask s
  | .phaseLock e sc => Sys2Proof.Machine.execPhaseLock e sc s
  | .crUnlock e sc => Sys2Proof.Machine.execCrUnlock e sc s
  | .crSlip e sc => Sys2Proof.Machine.execCrSlip e sc s
  | .eqSingular e sc => Sys2Proof.Machine.execEqSingular e sc s
  | .cdDrift e est => Sys2Proof.Machine.execCdDrift e est s
  | .acqTimeout e => Sys2Proof.Machine.execAcqTimeout e s
  | .laserLoopDecision e off since => Sys2Proof.Machine.execLaserLoopDecision e off since s
  | .decodeSetChange e => Sys2Proof.Machine.execDecodeSetChange e s
  | .qualLatch e sc level evm => Sys2Proof.Machine.execQualLatch e sc level evm s
  | .eqSopRate e sc rate dgd => Sys2Proof.Machine.execEqSopRate e sc rate dgd s
  | .llrSat e sc labels => Sys2Proof.Machine.execLlrSat e sc labels s
  | .txProfileApply w dir sfn => Sys2Proof.Machine.execTxProfileApply w dir sfn s
  | .maskCheck e power => Sys2Proof.Machine.execMaskCheck e power s
  | .unmute e => Sys2Proof.Machine.execUnmute e s
  | .txDacClip e ch xs => Sys2Proof.Machine.execTxDacClip e ch xs s
  | .trdGo w v => Sys2Proof.Machine.execTrdGo w v s
  | .turuidCommandStart w => Sys2Proof.Machine.execTuruidCommandStart w s
  | .turuidReply w frame => Sys2Proof.Machine.execTuruidReply w frame s
  | .turuidTimeout w => Sys2Proof.Machine.execTuruidTimeout w s
  | .turuidHeartbeat w => Sys2Proof.Machine.execTuruidHeartbeat w s
  | .alignmentTest w sc pos signs => Sys2Proof.Machine.execAlignmentTest w sc pos signs s
  | .frameHeaderRx w sc llrs => Sys2Proof.Machine.execFrameHeaderRx w sc llrs s
  | .fecBlockDecode w sc j a b => Sys2Proof.Machine.execFecBlockDecode w sc j a b s
  | .pmSecond w extra spared => Sys2Proof.Machine.execPmSecond w extra spared s
  | .pmCommit w => Sys2Proof.Machine.execPmCommit w s
  | .pmClear w => Sys2Proof.Machine.execPmClear w s
  | .cellRx w sc k uncorr cell => Sys2Proof.Machine.execCellRx w sc k uncorr cell s
  | .reassemblyTimeout w flow => Sys2Proof.Machine.execReassemblyTimeout w flow s
  | .groupResume w g => Sys2Proof.Machine.execGroupResume w g s
  | .cellTx w g => Sys2Proof.Machine.execCellTx w g s
  | .discover w peqd rspread alen bkmax => Sys2Proof.Machine.execDiscover w peqd rspread alen bkmax s
  | .assignId w serial tid => Sys2Proof.Machine.execAssignId w serial tid s
  | .range w eqd rtd esfn => Sys2Proof.Machine.execRange w eqd rtd esfn s
  | .grantMap w tsfn gs => Sys2Proof.Machine.execGrantMap w tsfn gs s
  | .profileChange w tid mseq esfn mdir op mask codes => Sys2Proof.Machine.execProfileChange w tid mseq esfn mdir op mask codes s
  | .keySwitch w tid mseq gid mdir kidx esfn => Sys2Proof.Machine.execKeySwitch w tid mseq gid mdir kidx esfn s
  | .timeOfDay w rsfn sec ns frac => Sys2Proof.Machine.execTimeOfDay w rsfn sec ns frac s
  | .silence w tid dur => Sys2Proof.Machine.execSilence w tid dur s
  | .silenceExpiry w => Sys2Proof.Machine.execSilenceExpiry w s
  | .release w reason => Sys2Proof.Machine.execRelease w reason s
  | .ack w amtype amseq result _esfn => Sys2Proof.Machine.execAck w amtype amseq result _esfn s
  | .ackResend w => Sys2Proof.Machine.execAckResend w s
  | .prfReqGo w v => Sys2Proof.Machine.execPrfReqGo w v s
  | .prfProposalExpire w => Sys2Proof.Machine.execPrfProposalExpire w s
  | .kswGo w v => Sys2Proof.Machine.execKswGo w v s
  | .todSend w => Sys2Proof.Machine.execTodSend w s
  | .disctoExpiry w => Sys2Proof.Machine.execDisctoExpiry w s
  | .idtoExpiry w => Sys2Proof.Machine.execIdtoExpiry w s
  | .rngtoExpiry w => Sys2Proof.Machine.execRngtoExpiry w s
  | .losttoExpiry w => Sys2Proof.Machine.execLosttoExpiry w s
  | .blosstoExpiry w => Sys2Proof.Machine.execBlosstoExpiry w s
  | .burstStart w sc tsfn start mism => Sys2Proof.Machine.execBurstStart w sc tsfn start mism s
  | .burstEnd w sc tsfn start => Sys2Proof.Machine.execBurstEnd w sc tsfn start s
  | .txPolice w => Sys2Proof.Machine.execTxPolice w s
  | .resume w => Sys2Proof.Machine.execResume w s
  | .deact w => Sys2Proof.Machine.execDeact w s
  | .sealGroup w g mismatches => Sys2Proof.Machine.execSealGroup w g mismatches s
  | .urgentPair w g mismatches => Sys2Proof.Machine.execUrgentPair w g mismatches s
  | .tagRx w sc k cell mismatches => Sys2Proof.Machine.execTagRx w sc k cell mismatches s
  | .keySwitchApply w dir sfn => Sys2Proof.Machine.execKeySwitchApply w dir sfn s
  | .haltResume w g => Sys2Proof.Machine.execHaltResume w g s
  | .keyLoad w v => Sys2Proof.Machine.execKeyLoad w v s
  | .keyErase w v => Sys2Proof.Machine.execKeyErase w v s
  | .cryClrflt w g rx => Sys2Proof.Machine.execCryClrflt w g rx s
  | .engineFault e cause other lost => Sys2Proof.Machine.execEngineFault e cause other lost s
  | .takeoverGapEnd w gap => Sys2Proof.Machine.execTakeoverGapEnd w gap s
  | .sprGapLimit w => Sys2Proof.Machine.execSprGapLimit w s
  | .snapshotWrite e done => Sys2Proof.Machine.execSnapshotWrite e done s
  | .repairSelfTestDone e clean => Sys2Proof.Machine.execRepairSelfTestDone e clean s
  | .seasonPassDone e clean left again => Sys2Proof.Machine.execSeasonPassDone e clean left again s
  | .seasoningDone e => Sys2Proof.Machine.execSeasoningDone e s
  | .revertStart w => Sys2Proof.Machine.execRevertStart w s
  | .revertMove w clean => Sys2Proof.Machine.execRevertMove w clean s
  | .revertTimeout w => Sys2Proof.Machine.execRevertTimeout w s
  | .restore w => Sys2Proof.Machine.execRestore w s
  | .spareSelfTest => Sys2Proof.Machine.execSpareSelfTest s
  | .spareTestDone clean => Sys2Proof.Machine.execSpareTestDone clean s
  | .switch v => Sys2Proof.Machine.execSwitch v s
  | .force v => Sys2Proof.Machine.execForce v s
  | .revertNow v => Sys2Proof.Machine.execRevertNow v s
  | .retire v => Sys2Proof.Machine.execRetire v s
  | .unretire v => Sys2Proof.Machine.execUnretire v s
  | .packetArrival k => Sys2Proof.Machine.execPacketArrival k s
  | .sliceProcess n badRules badSlots => Sys2Proof.Machine.execSliceProcess n badRules badSlots s
  | .templateCommit => Sys2Proof.Machine.execTemplateCommit s
  | .clsWrite v => Sys2Proof.Machine.execClsWrite v s
  | .clsRead v bad => Sys2Proof.Machine.execClsRead v bad s
  | .clsInvalidate v => Sys2Proof.Machine.execClsInvalidate v s
  | .clsReadclr v bad => Sys2Proof.Machine.execClsReadclr v bad s
  | .insert v bad => Sys2Proof.Machine.execInsert v bad s
  | .delete v bad => Sys2Proof.Machine.execDelete v bad s
  | .lookup v bad => Sys2Proof.Machine.execLookup v bad s
  | .readidx v bad => Sys2Proof.Machine.execReadidx v bad s
  | .writeidx v bad => Sys2Proof.Machine.execWriteidx v bad s
  | .cad v bad => Sys2Proof.Machine.execCad v bad s
  | .ageStep v => Sys2Proof.Machine.execAgeStep v s
  | .epochAdvance => Sys2Proof.Machine.execEpochAdvance s
  | .agerPassEnd bad => Sys2Proof.Machine.execAgerPassEnd bad s
  | .learnRequest bad => Sys2Proof.Machine.execLearnRequest bad s
  | .holdExpire => Sys2Proof.Machine.execHoldExpire s
  | .queueEnqueue => Sys2Proof.Machine.execQueueEnqueue s
  | .bufferFree b agent => Sys2Proof.Machine.execBufferFree b agent s
  | .bufferReclaim c => Sys2Proof.Machine.execBufferReclaim c s
  | .schedulerSelect k corrected ecc => Sys2Proof.Machine.execSchedulerSelect k corrected ecc s
  | .sweeperVisit q => Sys2Proof.Machine.execSweeperVisit q s
  | .shaperRefill => Sys2Proof.Machine.execShaperRefill s
  | .samplerLatch k => Sys2Proof.Machine.execSamplerLatch k s
  | .samplerRead v => Sys2Proof.Machine.execSamplerRead v s
  | .qmFlush v => Sys2Proof.Machine.execQmFlush v s
  | .qFlushDone => Sys2Proof.Machine.execQFlushDone s
  | .macFrameRx p f pcs => Sys2Proof.Machine.execMacFrameRx p f pcs s
  | .pauseFrameRx p f => Sys2Proof.Machine.execPauseFrameRx p f s
  | .pauseTimerExpire p c => Sys2Proof.Machine.execPauseTimerExpire p c s
  | .macFrameTx p => Sys2Proof.Machine.execMacFrameTx p s
  | .pauseXoff p arriving => Sys2Proof.Machine.execPauseXoff p arriving s
  | .pauseRepeat p => Sys2Proof.Machine.execPauseRepeat p s
  | .pauseXon p arriving => Sys2Proof.Machine.execPauseXon p arriving s
  | .gclCommit p v => Sys2Proof.Machine.execGclCommit p v s
  | .macGclSwitch p => Sys2Proof.Machine.execMacGclSwitch p s
  | .gclCancel p => Sys2Proof.Machine.execGclCancel p s
  | .gateEntryChange p => Sys2Proof.Machine.execGateEntryChange p s
  | .macLinkUp p => Sys2Proof.Machine.execMacLinkUp p s
  | .macLinkDown p rxFrame => Sys2Proof.Machine.execMacLinkDown p rxFrame s
  | .lpiEnter p => Sys2Proof.Machine.execLpiEnter p s
  | .lpiExit p => Sys2Proof.Machine.execLpiExit p s
  | .macPark p => Sys2Proof.Machine.execMacPark p s
  | .portUnpark p => Sys2Proof.Machine.execPortUnpark p s
  | .macTinderWake p periods => Sys2Proof.Machine.execMacTinderWake p periods s
  | .txtsPop p => Sys2Proof.Machine.execTxtsPop p s
  | .lnDetect l => Sys2Proof.Machine.execLnDetect l s
  | .autonegDone l own offer => Sys2Proof.Machine.execAutonegDone l own offer s
  | .trainingRequest l q => Sys2Proof.Machine.execTrainingRequest l q s
  | .trainingDone l => Sys2Proof.Machine.execTrainingDone l s
  | .lnTrainTo l => Sys2Proof.Machine.execLnTrainTo l s
  | .symbolLock l => Sys2Proof.Machine.execSymbolLock l s
  | .lnLockTo l => Sys2Proof.Machine.execLnLockTo l s
  | .kindlingFrameRx l frame => Sys2Proof.Machine.execKindlingFrameRx l frame s
  | .lnCapTo l => Sys2Proof.Machine.execLnCapTo l s
  | .retryExpire l => Sys2Proof.Machine.execRetryExpire l s
  | .lnRemoved l => Sys2Proof.Machine.execLnRemoved l s
  | .lnLockLost l => Sys2Proof.Machine.execLnLockLost l s
  | .eyeMeasure l height width snr => Sys2Proof.Machine.execEyeMeasure l height width snr s
  | .lnFecUncorr l => Sys2Proof.Machine.execLnFecUncorr l s
  | .laneFecSecond l corrections codewords => Sys2Proof.Machine.execLaneFecSecond l corrections codewords s
  | .loopMode l mode => Sys2Proof.Machine.execLoopMode l mode s
  | .prbsControl l v => Sys2Proof.Machine.execPrbsControl l v s
  | .lnPrbsErr l errors => Sys2Proof.Machine.execLnPrbsErr l errors s
  | .pcieLinkUp speed width => Sys2Proof.Machine.execPcieLinkUp speed width s
  | .pciLinkDown => Sys2Proof.Machine.execPciLinkDown s
  | .pciePerst low => Sys2Proof.Machine.execPciePerst low s
  | .ringTailWrite tx r v => Sys2Proof.Machine.execRingTailWrite tx r v s
  | .ringEnable tx r => Sys2Proof.Machine.execRingEnable tx r s
  | .ringDisable tx r written => Sys2Proof.Machine.execRingDisable tx r written s
  | .ringFlush tx r written => Sys2Proof.Machine.execRingFlush tx r written s
  | .pciFlushDone tx r => Sys2Proof.Machine.execPciFlushDone tx r s
  | .ringIrqEnable tx r => Sys2Proof.Machine.execRingIrqEnable tx r s
  | .rxgPacket => Sys2Proof.Machine.execRxgPacket s
  | .rxgFrameWrite r addrs tail => Sys2Proof.Machine.execRxgFrameWrite r addrs tail s
  | .rxgTimeout r => Sys2Proof.Machine.execRxgTimeout r s
  | .txgFetch r words data => Sys2Proof.Machine.execTxgFetch r words data s
  | .txgFrameSubmit r tail => Sys2Proof.Machine.execTxgFrameSubmit r tail s
  | .txgTimeout r => Sys2Proof.Machine.execTxgTimeout r s
  | .pciRingPtr tx r => Sys2Proof.Machine.execPciRingPtr tx r s
  | .pciDmaErr tx r why => Sys2Proof.Machine.execPciDmaErr tx r why s
  | .timeWrap => Sys2Proof.Machine.execTimeWrap s
  | .timeStep v => Sys2Proof.Machine.execTimeStep v s
  | .superframeStamp w kind n => Sys2Proof.Machine.execSuperframeStamp w kind n s
  | .ppsIn high => Sys2Proof.Machine.execPpsIn high s
  | .ppsInLoss => Sys2Proof.Machine.execPpsInLoss s
  | .ppsOutRise => Sys2Proof.Machine.execPpsOutRise s
  | .ppsOutFall => Sys2Proof.Machine.execPpsOutFall s
  | .bootSelection => Sys2Proof.Machine.execBootSelection s
  | .activate v => Sys2Proof.Machine.execActivate v s
  | .reload v => Sys2Proof.Machine.execReload v s
  | .resolve v => Sys2Proof.Machine.execResolve v s
  | .drainComplete c => Sys2Proof.Machine.execDrainComplete c s
  | .drainTimeout c units => Sys2Proof.Machine.execDrainTimeout c units s
  | .pktSlicePairEmpty => Sys2Proof.Machine.execPktSlicePairEmpty s
  | .spreadEntryReturn idx => Sys2Proof.Machine.execSpreadEntryReturn idx s
  | .powerRequest v => Sys2Proof.Machine.execPowerRequest v s
  | .cordOn c => Sys2Proof.Machine.execCordOn c s
  | .cordOff c => Sys2Proof.Machine.execCordOff c s
  | .cordClear c => Sys2Proof.Machine.execCordClear c s
  | .dozeSearchStep => Sys2Proof.Machine.execDozeSearchStep s
  | .info => Sys2Proof.Machine.execInfo s
  | .rd => Sys2Proof.Machine.execRd s
  | .wr0 => Sys2Proof.Machine.execWr0 s
  | .wr => Sys2Proof.Machine.execWr s
  | .wrm => Sys2Proof.Machine.execWrm s
  | .wrn => Sys2Proof.Machine.execWrn s
  | .mbxUnknownOpcode => Sys2Proof.Machine.execMbxUnknownOpcode s
  | .updBegin => Sys2Proof.Machine.execUpdBegin s
  | .updData => Sys2Proof.Machine.execUpdData s
  | .updEnd => Sys2Proof.Machine.execUpdEnd s
  | .updAbort => Sys2Proof.Machine.execUpdAbort s
  | .updSessionTimeout => Sys2Proof.Machine.execUpdSessionTimeout s
  | .fwActivate => Sys2Proof.Machine.execFwActivate s
  | .cfg => Sys2Proof.Machine.execCfg s
  | .logRead => Sys2Proof.Machine.execLogRead s
  | .logNote => Sys2Proof.Machine.execLogNote s
  | .logInfo => Sys2Proof.Machine.execLogInfo s
  | .smbBlockRead code pecOk => Sys2Proof.Machine.execSmbBlockRead code pecOk s
  | .smbReadByte code pecOk => Sys2Proof.Machine.execSmbReadByte code pecOk s
  | .watchdogRestart done => Sys2Proof.Machine.execWatchdogRestart done s
  | .sensorRead idx t => Sys2Proof.Machine.execSensorRead idx t s
  | .thermTrip => Sys2Proof.Machine.execThermTrip s
  | .tripClear => Sys2Proof.Machine.execTripClear s
  | .railSample idx mv => Sys2Proof.Machine.execRailSample idx mv s
  | .clockMonitor m ppm => Sys2Proof.Machine.execClockMonitor m ppm s
  | .eventStatClear n raised => Sys2Proof.Machine.execEventStatClear n raised s
  | .eventMsienEnable g => Sys2Proof.Machine.execEventMsienEnable g s
  | .msixHeldSend v => Sys2Proof.Machine.execMsixHeldSend v s
  | .ashLogEntry => Sys2Proof.Machine.execAshLogEntry s
  | .fiArm idx => Sys2Proof.Machine.execFiArm idx s
  | .fiDisarm idx => Sys2Proof.Machine.execFiDisarm idx s
  | .fiKill => Sys2Proof.Machine.execFiKill s
  | .fiUnit idx dir a b bytes => Sys2Proof.Machine.execFiUnit idx dir a b bytes s
  | .fiHoldTo idx => Sys2Proof.Machine.execFiHoldTo idx s
  | .tapActive => Sys2Proof.Machine.execTapActive s
  | .tapInstruction idx => Sys2Proof.Machine.execTapInstruction idx s
  | .keyRevoke mask => Sys2Proof.Machine.execKeyRevoke mask s
  | .snapshotLoaded e => Sys2Proof.Machine.execSnapshotLoaded e s
  | .flt24Expiry e => Sys2Proof.Machine.execFlt24Expiry e s
  | .correctableEccError e inSecond => Sys2Proof.Machine.execCorrectableEccError e inSecond s
  | .prbsCheckerLock l => Sys2Proof.Machine.execPrbsCheckerLock l s
  | .receiverLpi p quiet => Sys2Proof.Machine.execReceiverLpi p quiet s
  | .smbBlockWrite code bytes pec => Sys2Proof.Machine.execSmbBlockWrite code bytes pec s
  | .configurationRequest q => Sys2Proof.Machine.execConfigurationRequest q s
  | .msixTableWrite ofs v => Sys2Proof.Machine.execMsixTableWrite ofs v s

end Sys2Proof.Machine
end

