-- ==== Sys2Proof/Machine/LaneCode.lean ====
section
/-!
DEFINITION. The levels on a host lane: R304, R305, R312, R319 and R323 of 11_host_lanes. What a port's PCS makes of its frames is IEEE
802.3's, and so is its FEC but for the type of R304; these functions take the bits they give a lane, from the first of stage 5 on, and say
which levels stand for them. Transcoding, code and markers of R304 and the patterns of R323 are those of IEEE 802.3 as generally known
(PRESUMED, log 86).
-/

namespace Sys2Proof.Machine

/-- The Gray level of a pair of bits, first bit most significant. -/
def grayLevel : Bool → Bool → Nat
  | false, false => 0
  | false, true => 1
  | true, true => 2
  | true, false => 3

/-- The pair of bits of a Gray level. -/
def grayBits : Nat → List Bool
  | 0 => [false, false]
  | 1 => [false, true]
  | 2 => [true, true]
  | _ => [true, false]

/-- Pairs of bits as Gray levels; a bit without a partner waits. -/
def grayLevels : List Bool → List Nat
  | a :: b :: t => grayLevel a b :: grayLevels t
  | _ => []

/-- The precoder from the level sent last: P(n) = (G(n) − P(n − 1)) mod 4. -/
def precode : Nat → List Nat → List Nat
  | _, [] => []
  | p, g :: t => (g + 4 - p % 4) % 4 :: precode ((g + 4 - p % 4) % 4) t

/-- Recovery of the Gray levels: G(n) = (P(n) + P(n − 1)) mod 4. -/
def recoverGray : Nat → List Nat → List Nat
  | _, [] => []
  | p, q :: t => (q + p) % 4 :: recoverGray q t

/-- The levels a lane sends for the bits of its PCS from its entry to stage 5 on: 0 and 1 on an NRZ lane, 0 to 3 on a PAM4 lane,
precoded from P = 0 where that is in effect; none outside stage 5, where what it sends is no data. -/
def Dev.laneSends (d : Dev) (l : Nat) (bits : List Bool) : List Nat :=
  if d.get (F.hsLnStatStage l) ≠ 5 then []
  else if !d.pam4 l then bits.map fun b => if b then 1 else 0
  else if d.flag (F.hsLnStatTxprec l) then precode 0 (grayLevels bits) else grayLevels bits

/-- The bits a lane receives for the levels it has decided from its entry to stage 5 on. -/
def Dev.laneReceives (d : Dev) (l : Nat) (levels : List Nat) : List Bool :=
  if d.get (F.hsLnStatStage l) ≠ 5 then []
  else if !d.pam4 l then levels.map (· != 0)
  else (if d.flag (F.hsLnStatRxprec l) then recoverGray 0 levels else levels).flatMap grayBits

/-! ### The Quodel 25G PAM4 type (R304) -/

/-- Four 66-bit blocks, bit 0 of each the first on the line, as 257 bits: a flag and the four payloads where all hold data; else the flag,
which of them hold data, and the payloads without four bits of the first control block's type. The first five bits are scrambled with
those from the eighth on. -/
def transcode (bs : List (BitVec 66)) : List Bool :=
  let ctl (b : BitVec 66) : Bool := b.getLsbD 0
  let pay := bs.flatMap fun b => (List.range 64).map fun i => b.getLsbD (2 + i)
  let x := match bs.findIdx? ctl with
    | none => true :: pay
    | some c => false :: bs.map (fun b => !ctl b) ++ pay.take (64 * c + 4) ++ pay.drop (64 * c + 8)
  (List.range 5).map (fun i => x.getD i false != x.getD (8 + i) false) ++ x.drop 5

/-- A product in GF(1024), by x^10 + x^3 + 1, over the ten bits of the second factor. -/
def rsMul (a b : Nat) : Nat :=
  (List.range 10).foldr (fun i r =>
    let r2 := 2 * r
    let s := if r2.testBit 10 then r2 ^^^ 0x409 else r2
    if b.testBit i then s ^^^ a else s) 0

/-- The generator of RS(544,514), highest power first: the product of x + α^j for j below 30. -/
def rsGenerator : List Nat :=
  ((List.range 30).foldl (fun (r : List Nat × Nat) _ =>
    (List.zipWith (· ^^^ ·) (r.1 ++ [0]) (0 :: r.1.map (rsMul r.2)), rsMul r.2 2)) ([1], 1)).1

/-- The 30 parity symbols of a message of 514 symbols. -/
def rsParity (msg : List Nat) : List Nat :=
  let g := rsGenerator.drop 1
  msg.foldl (fun p m =>
    let f := m ^^^ p.headD 0
    List.zipWith (· ^^^ ·) (p.drop 1 ++ [0]) (g.map (rsMul f))) (List.replicate 30 0)

/-- Bits as symbols of ten, the first bit least significant. -/
def rsSymbols (bits : List Bool) : List Nat :=
  (List.range (bits.length / 10)).map fun i =>
    ((bits.drop (10 * i)).take 10).foldr (fun b n => 2 * n + (if b then 1 else 0)) 0

/-- A codeword of 5,440 bits from 5,140. -/
def rsCodeword (bits : List Bool) : List Bool :=
  bits ++ (rsParity (rsSymbols bits)).flatMap fun s => (List.range 10).map (s.testBit ·)

/-- The alignment markers: four of 64 bits and a last bit. -/
def fecMarkers : List Bool :=
  ([(0x90, 0x76, 0x47), (0xF0, 0xC4, 0xE6), (0xC5, 0x65, 0x9B), (0xA2, 0x79, 0x3D)].flatMap fun (m : Nat × Nat × Nat) =>
    [m.1, m.2.1, m.2.2, 0x33, 255 - m.1, 255 - m.2.1, 255 - m.2.2, 0xCC].flatMap fun b => (List.range 8).map (Nat.testBit b ·)) ++ [true]

/-- Blocks in fours, a last incomplete four left out. -/
def inFours {α : Type} : List α → List (List α)
  | a :: b :: c :: e :: t => [a, b, c, e] :: inFours t
  | _ => []

/-- The bits of codeword `k` since stage 5 of a lane of the type of R304, from the 66-bit blocks that fill it: every 1,024th begins with the
markers and takes 76 blocks, every other one takes 80. -/
def quodelCodeword (k : Nat) (blocks : List (BitVec 66)) : List Bool :=
  rsCodeword ((if k % 1024 = 0 then fecMarkers else []) ++ (inFours blocks).flatMap transcode)

/-! ### Loops and patterns (R319, R323) -/

/-- The bits of a pattern of a shift register of `n` stages with the given taps, from a state. -/
def prbsBits (taps : List Nat) (n : Nat) : Nat → Nat → List Bool
  | 0, _ => []
  | k + 1, x =>
    let b := taps.foldl (fun r t => r != x.testBit (t - 1)) false
    b :: prbsBits taps n k ((2 * x + (if b then 1 else 0)) % 2 ^ n)

/-- The levels of the pattern PAT names, `k` of them: bits on an NRZ lane and for the binary patterns, Gray pairs for the others. -/
def prbsLevels (pat k : Nat) : List Nat :=
  let outer (b : Bool) : Nat := if b then 1 else 0
  if pat = 1 then (prbsBits [7, 6] 7 k 1).map outer
  else if pat = 2 then (prbsBits [31, 28] 31 k 1).map outer
  else if pat = 3 then grayLevels (prbsBits [13, 12, 2, 1] 13 (2 * k) 1)
  else if pat = 4 then grayLevels (prbsBits [31, 28] 31 (2 * k) 1)
  else []

/-- What a lane sends to the card from its entry to stage 5 on, for the bits of its PCS and the levels it receives: idle in a near-end loop,
in mode 3 what it receives while the termination is there, a pattern in place of data. A binary pattern takes the outer levels of a PAM4
lane. -/
def Dev.laneOut (d : Dev) (l : Nat) (bits : List Bool) (received : List Nat) : List Nat :=
  let m := d.get (F.hsLnLoopMode l)
  if m = 1 ∨ m = 2 then []
  else if m = 3 ∧ d.stage l = 5 then (if (d.lane l).gone then [] else received)
  else if d.flag (F.hsLnPrbsGen l) then
    let pat := d.get (F.hsLnPrbsPat l)
    let x := prbsLevels pat (if d.pam4 l then bits.length / 2 else bits.length)
    if d.pam4 l && pat ≤ 2 then x.map (3 * ·) else x
  else d.laneSends l bits

/-- The levels of a kindling frame: its most significant bit first, the outer levels on a PAM4 lane (R312). -/
def Dev.kindlingLevels (d : Dev) (l : Nat) (frame : BitVec 128) : List Nat :=
  (bitsOf 128 frame.toNat).map fun b => if b then (if d.pam4 l then 3 else 1) else 0

end Sys2Proof.Machine
end

