-- ==== Sys2Proof/Machine/Pins.lean ====
section
/-!
DEFINITION. The levels of the output pins that follow from the state (R404, R427): no pin is stored twice.
-/

namespace Sys2Proof.Machine

/-- INT_N is driven low (R427): a pending group with PINEN = 1; it floats high otherwise. -/
def Dev.intLow (d : Dev) : Bool := (List.range 16).any fun g => d.flag (F.hrtEvtGcfgPinen g) && d.groupPending g

/-- A cause of null other than leaf mode outside a burst (R87, R404). -/
def Dev.nullCause (d : Dev) (w e : Nat) : Bool :=
  d.flag (F.leTxcStatMuted e) || (d.wave w).txCut || !d.released (4 + w) || !d.released (6 + w)
    || ((d.wave w).leaf && (d.flag (F.lfActStatSilhe w) || d.flag (F.lfActStatSilsp w)))

/-- CVA_ACT (`w` = 0) or CVB_ACT (`w` = 1) is high (R404): the converter cord in state 3 and its engine not at null. -/
def Dev.cvAct (d : Dev) (w : Nat) : Bool :=
  !d.inReset && d.released (4 + w) && match d.serving w with
    | some e => !d.nullCause w e
    | none => false

end Sys2Proof.Machine
end

