-- ==== Sys2Proof/Safety.lean ====
section
/-!
DEFINITION. The terms of the claims: what a run is safe from, what an event's raise shows, and what stands.
-/

namespace Sys2Proof.Machine

/-- A step that ends in a next state: no fault, no refusal. -/
def runsOn (s : State) : Bool :=
  match step s with
  | .next _ => true
  | .fault _ => false
  | .refused _ => false

/-- The factory fuses are `f`, and nothing a command sends has stayed behind in the device. -/
def State.Settled (f : Fuses) (s : State) : Prop := s.fuses = f ∧ s.dev.out = []

/-- Event `n` is raised between two states of the device: its STAT is set, its COUNT one higher, saturating (R4, R426). -/
def Dev.Raised (n : Nat) (d e : Dev) : Prop :=
  e.get (F.hrtEvtSrcCtlStat n) = 1 ∧ e.get (F.hrtEvtSrcCtlCount n) = satAdd 16 (d.get (F.hrtEvtSrcCtlCount n)) 1

/-- The address of a register of an event source: CTL and the two stamps of sources 0 to 255 (R426). -/
def isEvt (a : Nat) : Bool := decide (0x80000 ≤ a) && decide (a < 0x81000)

/-- The registers of an event source (R426). -/
def evtRegs (n : Nat) : List Nat := [R.hrtEvtSrcCtl n, R.hrtEvtSrcFirstns n, R.hrtEvtSrcFirstw n]

/-- The registers that may differ between two states of the device: those listed, and those of the events listed. -/
def Dev.Only (l evs : List Nat) (d e : Dev) : Prop :=
  ∀ a, a ∉ l → (∀ n ∈ evs, a ∉ evtRegs n) → e.reg a = d.reg a

/-- The address lies in the window of a cord (R27). -/
def inCord (c a : Nat) : Bool := decide (a / 0x1000000 = c)

/-- Every register at an address that `p` does not pick reads as before. -/
def Dev.RegsKept (p : Nat → Bool) (d e : Dev) : Prop := ∀ a, p a = false → e.reg a = d.reg a

/-- The engine raises the receive events of wavelength `w`: connected to it, outside a sparing gap and a revert overlap. -/
def Dev.Speaks (d : Dev) (e w : Nat) : Prop :=
  d.engWl e = some w ∧ (d.wave w).gap = false ∧ d.get (F.cvSelStatOverlap w) = 0

/-- An acquisition has just started from step 1: no dispersion estimate and no phase lock stands (R57, R62). -/
def Dev.AcqStarted (d : Dev) (e : Nat) : Prop :=
  d.get (F.leRxcStatAcq e) = 1 ∧ d.get (F.leRxcCdstatValid e) = 0 ∧ ∀ k < 32, d.get (F.leRxsStatPhlock e k) = 0

/-- A host write of `v` to `a` is taken at once: the link is up, nothing waits before it, its cord answers, and no check
refuses it (R30, R387, R456). -/
def Dev.Takes (d : Dev) (a : Nat) (v : Word) : Prop :=
  d.waiting = [] ∧ d.cordSt 12 ≠ 0 ∧ d.get F.pciEpStatDlup = 1 ∧ d.pathCode a 4 = 0
    ∧ (d.cordSt (cordOf a) = 2 ∨ d.cordSt (cordOf a) = 3) ∧ ∃ r, decodeAddr a = some r ∧ d.writeCode a r v true = 0

/-- A host read of `a` is answered at once: the link is up, nothing waits before it, and its cord answers (R30, R387, R456). -/
def Dev.Answers (d : Dev) (a : Nat) : Prop :=
  d.waiting = [] ∧ d.cordSt 12 ≠ 0 ∧ d.get F.pciEpStatDlup = 1 ∧ d.pathCode a 4 = 0
    ∧ (d.cordSt (cordOf a) = 2 ∨ d.cordSt (cordOf a) = 3)

/-- NS, the 24 fraction bits and WRAPS lie within their widths (R348). -/
def TimeSt.InRange (t : TimeSt) : Prop := t.ns < 2 ^ 32 ∧ t.sub < 2 ^ 24 ∧ t.wraps < 2 ^ 16

/-- No engine waits for its first transmit line frame or burst (R205, R206). -/
def Dev.TxSettled (d : Dev) : Prop := ∀ w < 2, (d.wave w).txNext = none

/-- Nothing but the counter waits for a tick: no engine for its transmission, no generated frame for its port, and no register of an engine
for a superframe (R205, R206, R295, R445). -/
def Dev.TickQuiet (d : Dev) : Prop :=
  d.TxSettled ∧ (∀ x ∈ d.macs, x.2.gen = []) ∧ ∀ e < 3, (d.eng e).oldSf = []

/-- The registers that the passing of ticks may change beside those of the counter: the steering, and the output states of the
engines (R23, R84, R87). -/
def tickRegs : List Nat := [R.hrtClkSteer, R.hrtClkStat, R.leTxcStat 0, R.leTxcStat 1, R.leTxcStat 2]

/-- The value a host writes to set one field of a register and keep the others. -/
def Dev.withField (d : Dev) (f : Fld) (x : Nat) : Word := f.put (d.keepValue f.addr) x

/-- A mailbox request stands at the head of the order, Hearth serves it, and no access waits (R409, R411, R412). -/
def Dev.Asked (d : Dev) (q : MbxReq) : Prop :=
  d.hearth.reqs.head? = some q ∧ d.get F.hrtHstStatFwrun = 1 ∧ d.get F.hrtHstStatRecovery = 0 ∧ q.len ≤ 248 ∧ d.waiting = []

/-- The bytes of a response (R411). -/
def mbxBytes (status : Nat) (data : List Byte) : List Byte := leBytes 4 (status + data.length * 2 ^ 16) ++ data

/-- The request at the head has ended with a status and data: over SMBus in its response block, over PCIe in HRT_MBX_RSP with
MBX_DONE (R411, R417). -/
def Dev.Answered (q : MbxReq) (status : Nat) (data : List Byte) (d e : Dev) : Prop :=
  e.hearth.reqs = d.hearth.reqs.drop 1
    ∧ (q.smb = true → e.hearth.smbRsp = mbxBytes status data ∧ e.hearth.smbDone = true)
    ∧ (q.smb = false → e.get F.hrtMbxCtlBusy = 0 ∧ e.get F.hrtMbxCtlStatus = status ∧ d.Raised 0x02 e
        ∧ ∀ i < (data.length + 7) / 4, e.reg (R.hrtMbxRsp i) = BitVec.ofNat 32 (leAt (mbxBytes status data) (4 * i) 4))

/-- The control and response registers of the PCIe mailbox. -/
def isMbx (a : Nat) : Bool := a == R.hrtMbxCtl || decide (R.hrtMbxRsp 0 ≤ a) && decide (a ≤ R.hrtMbxRsp 63)

/-- An injector lets every unit pass as it is: not armed, and holding none (R432, R433). -/
def Dev.InjIdle (d : Dev) (i : Nat) : Prop := d.get (fiF i 0x14 0 1) = 0 ∧ (d.inj i).held = none

/-- Cell `k` of the frame in progress of a subcarrier is the next in order of its group `g`, which delivers and holds none, under a header
that conforms; the line is in service and the subcarrier's injector idle (R14, R124, R193). -/
def Dev.NextCell (d : Dev) (w g : Nat) (sc : Nat) (k : Nat) : Prop :=
  d.rxGroup w sc = some g ∧ d.get (F.lfGrpStatState w g) = 2 ∧ d.lineOk w = true ∧ (d.wave w).gap = false ∧ (d.grp w g).held = []
    ∧ (d.sc w sc).encOk = true ∧ (d.sc w sc).kex = false ∧ d.InjIdle (96 + 32 * w + sc)
    ∧ ∃ f, (d.grp w g).next = some (f, d.cellIndex w g sc k) ∧ placeLt ((d.sc w sc).frameNo, d.cellIndex w g sc k) (f, d.cellIndex w g sc k) = false

/-- A manual sparing command has been refused: SPR_CMD_REFUSED, and the error of the write (R217, R456). -/
def Dev.SprRefused (e d : Dev) : Prop :=
  d.Raised 0xAF e ∧ e.get F.hrtGlbAerrCode = 10 ∧ e.get F.hrtGlbAerrStk = 1 ∧ e.spr = d.spr ∧ d.Only [R.hrtGlbAerr] [0xAF, 0x01] e

/-- The packet `p` waits first in slice `n` while PKT carries traffic, and passes parsing under template `t0` of its profile (R226, R230). -/
def Dev.SliceHead (d : Dev) (n : Nat) (p : Pkt) (rest : List Pkt) (prof t0 : Nat) : Prop :=
  d.trafficOk 8 = true ∧ Tbl.get [] d.pkt.stores n = p :: rest ∧ prof = d.get (F.pktPrsSrcProf p.src) ∧ t0 = d.templateOf prof p
    ∧ d.parseCheck t0 p = 0

/-- The lookup key of a packet under a template, in the template's partition, and what it finds (R228, R238). -/
def Dev.destHit (d : Dev) (t0 : Nat) (p : Pkt) : Option Nat :=
  d.findKey ((F.pktPrsTmplCfgEmpart t0).of (d.tmpl (R.pktPrsTmplCfg t0))) (d.indexed t0 p (R.pktPrsTmplDkey t0))

/-- Rule `k` with action `act` decides a well-formed packet of no port that hits no exact-match entry (R232). -/
def Dev.RuleDecides (d : Dev) (n : Nat) (p : Pkt) (rest : List Pkt) (k act : Nat) : Prop :=
  ∃ prof t0, d.SliceHead n p rest prof t0 ∧ 96 ≤ p.src ∧ d.destHit t0 p = none ∧ p.mal = false ∧ p.nest = false ∧ p.emhit = false
    ∧ p.emcls = 0 ∧ d.firstMatch (d.classKey t0 prof p) = some (k, false) ∧ (d.rule k).act = act

/-- The ageing pass finds the entry old enough to delete (R242). -/
def Dev.oldEntry (d : Dev) (e : Entry) : Bool :=
  !e.static && decide (d.get F.pktEmtAgecfgAgemax ≤ unsignedOf 16 ((d.get F.pktEmtEpochEpoch : Int) - (e.stamp : Nat)))

/-- A port takes a frame of `len` bytes that ends now, judged by the limits `lo` and `hi` in force when it began (R278, R280, R300). -/
def Dev.Receives (d : Dev) (p lo hi len : Nat) : Prop :=
  d.linkUp p = true ∧ d.released (hsCord p) = true ∧ d.InjIdle p ∧ d.farLoop p = false ∧ d.rxLimits p len = (lo, hi)

/-- The port's receive store has the free units that `n` bytes take (R279). -/
def Dev.fits (d : Dev) (p n : Nat) : Bool := decide (d.storeHeld p + storeUnits n ≤ d.storeSize p)

/-- A generated control frame goes at once: no frame is in transmission, none waits, and the transmitter is awake; what leaves the port
is not looped at its near end (R288, R295, R319). -/
def Dev.AtBoundary (d : Dev) (p : Nat) : Prop :=
  (d.mac p).cur = none ∧ (d.mac p).gen = [] ∧ d.get (F.hsMacLpistatTxlpi p) = 0 ∧ (d.mac p).wakeAt ≤ d.time.ticks ∧ d.InjIdle p
    ∧ d.get (F.hsLnLoopMode p) ≠ 1 ∧ d.get (F.hsLnLoopMode p) ≠ 2

/-- No access waits, no reload runs and no power transition runs. -/
def Dev.Calm (d : Dev) : Prop := d.waiting = [] ∧ d.img.reload = none ∧ d.pwr.trans = none

/-- Everything but the registers, what is sent, the ash log's queue and the MSI-X messages held is as before. -/
structure Dev.QuietSame (d e : Dev) : Prop where
  free : e.free = d.free
  inReset : e.inReset = d.inReset
  powered : e.powered = d.powered
  blown : e.blown = d.blown
  aerrAdr : e.aerrAdr = d.aerrAdr
  straps : e.straps = d.straps
  time : e.time = d.time
  hearth : e.hearth = d.hearth
  img : e.img = d.img
  ember : e.ember = d.ember
  spr : e.spr = d.spr
  pwr : e.pwr = d.pwr
  waiting : e.waiting = d.waiting
  pcie : e.pcie = d.pcie
  msixTable : e.msixTable = d.msixTable
  engines : e.engines = d.engines
  convs : e.convs = d.convs
  waves : e.waves = d.waves
  scs : e.scs = d.scs
  grps : e.grps = d.grps
  crys : e.crys = d.crys
  pkt : e.pkt = d.pkt
  buf : e.buf = d.buf
  macs : e.macs = d.macs
  lanes : e.lanes = d.lanes
  inj_ : e.inj_ = d.inj_
  reclaim : e.reclaim = d.reclaim
  tap : e.tap = d.tap

end Sys2Proof.Machine
end

