-- ==== Sys2Proof/Certificates/Slice0/Obligations.lean ====
section
/-!
DEFINITION. The statements about the model, for the provers. Every command of the table has a clause here whose
conclusion is that `exec` answers a next state, and what that state holds.
-/

open Sys2Proof Sys2Proof.Machine

/-! ### Coherent receive (02_line_receive) -/

/-- Loss of signal, its end and the clip windows of a converter set in service (R39, R40, R376, R467): the level register,
LOS and its sticky bit, CLIP, CLIPSTK and CLIPCNT, the events, and a new acquisition of each receiving engine at the
end of a loss; a withdrawn set declares nothing, one without power or in reset shows nothing, and a loss takes back a
laser step not yet sent (R54). The laser loop at a superframe boundary (R54, R55, R94): a window opens after the
settle time of the last step, nothing below the dead band but the count of quiet windows, one limited step above it,
and none past the limit. The clauses rest on the model's choices of log 21, 22, 23, 68, 70. -/
def Obligations.SignalAndLaserAreWatched : Prop :=
  (∀ (w : Fin 2) (lvl : Word) (s : State), s.dev.adcOn w = true → s.dev.released (4 + w) = true → s.dev.losLevels w lvl = true →
    s.dev.get (F.cvAdcStatLos w) = 0 → (s.dev.conv w).waitLaser = none →
    ∃ t, exec (.rxLos w lvl) s = .next t ∧ t.dev.reg (R.cvAdcLvl w) = lvl ∧ t.dev.get (F.cvAdcStatLos w) = 1
      ∧ t.dev.get (F.cvAdcStatLosstk w) = 1 ∧ ((s.dev.wave w).gap = false → s.dev.Raised (0x20 + w) t.dev)
      ∧ s.dev.Only [R.cvAdcLvl w, R.cvAdcStat w] [0x20 + w] t.dev)
  ∧ (∀ (w : Fin 2) (lvl : Word) (e : Fin 3) (dx : Int) (s : State), s.dev.adcOn w = true → s.dev.released (4 + w) = true →
    s.dev.losLevels w lvl = true → s.dev.get (F.cvAdcStatLos w) = 0 → (s.dev.conv w).waitLaser = some (e.val, dx) →
    ∃ t, exec (.rxLos w lvl) s = .next t ∧ t.dev.get (F.cvAdcStatLos w) = 1 ∧ (t.dev.conv w).waitLaser = none
      ∧ (t.dev.eng e).laserOut = none
      ∧ t.dev.get (F.leRxcCfostatLaser e) = unsignedOf 16 (s.dev.getInt (F.leRxcCfostatLaser e) - dx)
      ∧ s.dev.Only [R.cvAdcLvl w, R.cvAdcStat w, R.leRxcCfostat e] [0x20 + w] t.dev)
  ∧ (∀ (w : Fin 2) (lvl : Word) (s : State), s.dev.adcOn w = true → s.dev.released (4 + w) = false →
    (∃ t, exec (.rxLos w lvl) s = .next t ∧ t.dev.reg (R.cvAdcLvl w) = lvl ∧ s.dev.Only [R.cvAdcLvl w] [] t.dev)
      ∧ ∃ t, exec (.losClear w lvl) s = .next t ∧ t.dev.reg (R.cvAdcLvl w) = lvl ∧ s.dev.Only [R.cvAdcLvl w] [] t.dev)
  ∧ (∀ (w : Fin 2) (lvl : Word) (ch : Fin 4) (clips : Nat) (s : State), s.dev.adcOn w = false →
    (∃ t, exec (.rxLos w lvl) s = .next t ∧ s.dev.Only [] [] t.dev) ∧ (∃ t, exec (.losClear w lvl) s = .next t ∧ s.dev.Only [] [] t.dev)
      ∧ ∃ t, exec (.adcClip w ch clips) s = .next t ∧ s.dev.Only [] [] t.dev)
  ∧ (∀ (w : Fin 2) (lvl : Word) (s : State), s.dev.adcOn w = true → s.dev.released (4 + w) = true → s.dev.losLevels w lvl = false →
    s.dev.get (F.cvAdcStatLos w) = 1 →
    ∃ t, exec (.losClear w lvl) s = .next t ∧ t.dev.reg (R.cvAdcLvl w) = lvl ∧ t.dev.get (F.cvAdcStatLos w) = 0
      ∧ (∀ e ∈ s.dev.receivers w, (s.dev.eng e).verify = false → t.dev.AcqStarted e)
      ∧ (∀ e ∈ s.dev.receivers w, t.dev.get (F.leRxcTrstatLock e) = s.dev.get (F.leRxcTrstatLock e))
      ∧ s.dev.RegsKept (fun a => a == R.cvAdcLvl w || a == R.cvAdcStat w || (evtRegs 0x32 ++ evtRegs 0x33).contains a
          || (s.dev.receivers w).any fun e => inCord (1 + e) a) t.dev)
  ∧ (∀ (w : Fin 2) (ch : Fin 4) (clips : Nat) (s : State), s.dev.adcOn w = true → s.dev.get (F.cvAdcCfgClipthr w) < clips →
    ∃ t, exec (.adcClip w ch clips) s = .next t ∧ t.dev.get (F.cvAdcStatClip w) = 1 ∧ t.dev.get (F.cvAdcStatClipstk w) = 1
      ∧ t.dev.get (F.cvAdcStatClipcnt w) = satAdd 16 (s.dev.get (F.cvAdcStatClipcnt w)) 1
      ∧ ((s.dev.conv w).clipOpen = 0 → (s.dev.wave w).gap = false → s.dev.Raised (0x22 + w) t.dev)
      ∧ (t.dev.conv w).clipOpen = setBit (s.dev.conv w).clipOpen ch ∧ s.dev.Only [R.cvAdcStat w] [0x22 + w] t.dev)
  ∧ (∀ (w : Fin 2) (ch : Fin 4) (clips : Nat) (s : State), s.dev.adcOn w = true → clips ≤ s.dev.get (F.cvAdcCfgClipthr w) →
    ∃ t, exec (.adcClip w ch clips) s = .next t ∧ t.dev.get (F.cvAdcStatClipcnt w) = s.dev.get (F.cvAdcStatClipcnt w)
      ∧ (t.dev.conv w).clipOpen = clrBit (s.dev.conv w).clipOpen ch ∧ s.dev.Only [R.cvAdcStat w] [] t.dev)
  ∧ (∀ (e : Fin 3) (w : Fin 2) (off : Int) (since : Nat) (s : State), s.dev.Speaks e w → s.dev.serving w = some e.val →
    s.dev.hears e = true → s.dev.get (F.leRxcLsrcfgEn e) = 1 → 3 ≤ s.dev.get (F.leRxcStatAcq e) →
    s.dev.get (F.leRxcStatAcq e) ≤ 6 → (s.dev.eng e).laserOut = none → (s.dev.eng e).winOpen = false →
    ∃ t, exec (.laserLoopDecision e off since) s = .next t ∧ s.dev.Only [] [] t.dev
      ∧ (t.dev.eng e).winOpen = decide ((s.dev.conv w).settle ≤ since))
  ∧ (∀ (e : Fin 3) (w : Fin 2) (off : Int) (since : Nat) (s : State), s.dev.Speaks e w → s.dev.serving w = some e.val →
    s.dev.hears e = true → s.dev.get (F.leRxcLsrcfgEn e) = 1 → 3 ≤ s.dev.get (F.leRxcStatAcq e) →
    s.dev.get (F.leRxcStatAcq e) ≤ 6 → (s.dev.eng e).laserOut = none → (s.dev.eng e).winOpen = true →
    off.natAbs ≤ s.dev.get (F.leRxcLsrcfgDeadband e) →
    ∃ t, exec (.laserLoopDecision e off since) s = .next t ∧ t.dev.get (F.leRxcStatLaserlim e) = 0
      ∧ (7 ≤ (s.dev.eng e).quiet → t.dev.get (F.leRxcStatSettled e) = 1)
      ∧ (t.dev.conv w).waitLaser = (s.dev.conv w).waitLaser ∧ s.dev.Only [R.leRxcStat e, R.leRxcCfostat e] [] t.dev)
  ∧ (∀ (e : Fin 3) (w : Fin 2) (off : Int) (since : Nat) (s : State), s.dev.Speaks e w → s.dev.serving w = some e.val →
    s.dev.hears e = true → s.dev.get (F.leRxcLsrcfgEn e) = 1 → 3 ≤ s.dev.get (F.leRxcStatAcq e) →
    s.dev.get (F.leRxcStatAcq e) ≤ 6 → (s.dev.eng e).laserOut = none → (s.dev.eng e).winOpen = true →
    s.dev.get (F.leRxcLsrcfgDeadband e) < off.natAbs →
    ∃ t, exec (.laserLoopDecision e off since) s = .next t ∧ t.dev.get (F.leRxcStatSettled e) = 0
      ∧ (let st := laserStep off (s.dev.get (F.leRxcLsrcfgGain e)) (s.dev.get (F.leRxcLsrcfgMaxstep e))
         let cum := s.dev.getInt (F.leRxcCfostatLaser e) + st
         if 100 * s.dev.get (F.leRxcLsrcfgLimit e) < cum.natAbs then
           t.dev.get (F.leRxcStatLaserlim e) = 1 ∧ (t.dev.conv w).waitLaser = (s.dev.conv w).waitLaser
             ∧ (s.dev.get (F.leRxcStatLaserlim e) = 0 → s.dev.Raised (0x34 + w) t.dev)
         else
           t.dev.get (F.leRxcStatLaserlim e) = 0 ∧ t.dev.getInt (F.leRxcCfostatLaser e) = cum
             ∧ (t.dev.conv w).waitLaser = some (e.val, st) ∧ (t.dev.eng e).laserOut = some st)
      ∧ s.dev.Only [R.leRxcStat e, R.leRxcCfostat e] [0x34 + w] t.dev)

/-- The steps of an acquisition (R41, R42, R52, R53, R62, R484): what starts one, what each measurement moves on, and what
sends it back. The clauses rest on the model's choices of log 4, 21, 68, 70, 74. -/
def Obligations.AcquisitionMovesStepByStep : Prop :=
  (∀ (e : Fin 3) (s : State), s.dev.hears e = true →
    ∃ t, exec (.acquisitionStart e) s = .next t ∧ t.dev.AcqStarted e
      ∧ t.dev.get (F.leRxcStatAcqcnt e) = satAdd 8 (s.dev.get (F.leRxcStatAcqcnt e)) 1
      ∧ t.dev.get (F.leRxcTrstatLock e) = s.dev.get (F.leRxcTrstatLock e)
      ∧ (∀ k < 32, t.dev.get (F.leRxsStatEqlock e k) = s.dev.get (F.leRxsStatEqlock e k))
      ∧ s.dev.RegsKept (fun a => (evtRegs 0x32 ++ evtRegs 0x33).contains a || inCord (1 + e) a) t.dev)
  ∧ (∀ (e : Fin 3) (v : Int) (s : State), s.dev.hears e = true → s.dev.get (F.leRxcStatAcq e) = 1 →
    (s.dev.eng e).scanLo ≤ v → v ≤ (s.dev.eng e).scanHi →
    ∃ t, exec (.cdScanDone e (some v)) s = .next t ∧ t.dev.get (F.leRxcStatAcq e) = 2
      ∧ t.dev.get (F.leRxcCdstatEst e) = unsignedOf 18 ((s.dev.eng e).scanLo + 10 * ((v - (s.dev.eng e).scanLo) / 10))
      ∧ t.dev.get (F.leRxcCdstatValid e) = 1
      ∧ t.dev.get (F.leRxcCdstatSrc e) = (if (s.dev.eng e).scanWin then 3 else 1)
      ∧ s.dev.Only [R.leRxcCdstat e, R.leRxcStat e] [] t.dev)
  ∧ (∀ (e : Fin 3) (w : Nat) (s : State), s.dev.hears e = true → s.dev.Speaks e w → s.dev.get (F.leRxcStatAcq e) = 1 →
    (s.dev.eng e).cdRetried = true →
    ∃ t, exec (.cdScanDone e none) s = .next t ∧ t.dev.AcqStarted e ∧ s.dev.Raised (0x24 + w) t.dev)
  ∧ (∀ (e : Fin 3) (cfo : Int) (s : State), s.dev.hears e = true → s.dev.get (F.leRxcStatAcq e) = 2 → cfo.natAbs ≤ 3600 →
    ∃ t, exec (.cfoAcqDone e cfo) s = .next t ∧ t.dev.get (F.leRxcCfostatCfo e) = unsignedOf 16 cfo
      ∧ (s.dev.get (F.leRxcTrstatLock e) = 0 → t.dev.get (F.leRxcStatAcq e) = 3) ∧ 3 ≤ t.dev.get (F.leRxcStatAcq e)
      ∧ s.dev.Only [R.leRxcCfostat e, R.leRxcStat e] [] t.dev)
  ∧ (∀ (e : Fin 3) (w : Nat) (s : State), s.dev.hears e = true → s.dev.Speaks e w → s.dev.get (F.leRxcStatAcq e) = 2 →
    ∃ t, exec (.cfoAcqFail e) s = .next t ∧ t.dev.get (F.leRxcStatAcq e) = 2 ∧ s.dev.Raised (0x2E + w) t.dev
      ∧ (∀ k < 32, t.dev.get (F.leRxsStatPhlock e k) = 0))
  ∧ (∀ (e : Fin 3) (w : Nat) (residual : Int) (s : State), s.dev.hears e = true → s.dev.Speaks e w →
    3 ≤ s.dev.get (F.leRxcStatAcq e) → s.dev.get (F.leRxcStatAcq e) ≤ 6 → 4000 < residual.natAbs →
    ∃ t, exec (.ncoRange e residual) s = .next t ∧ t.dev.get (F.leRxcStatAcq e) = 2 ∧ s.dev.Raised (0x36 + w) t.dev
      ∧ (∀ k < 32, t.dev.get (F.leRxsStatPhlock e k) = 0)
      ∧ t.dev.get (F.leRxcTrstatLock e) = s.dev.get (F.leRxcTrstatLock e))
  ∧ (∀ (e : Fin 3) (w : Nat) (s : State), s.dev.hears e = true → s.dev.Speaks e w → s.dev.get (F.leRxcStatAcq e) ≠ 0 →
    s.dev.get (F.leRxcStatAcq e) ≠ 6 →
    ∃ t, exec (.acqTimeout e) s = .next t ∧ t.dev.AcqStarted e ∧ s.dev.Raised (0x3E + w) t.dev
      ∧ t.dev.get (F.leRxcStatAcqcnt e) = satAdd 8 (s.dev.get (F.leRxcStatAcqcnt e)) 1)

/-- The locks of the receive chain as they are gained (R24, R47, R50, R56, R62): each shows in its bit, and the
acquisition is at step 6 once timing, equaliser and phase hold on every decoded subcarrier. The locks of the receive
chain as they are lost, and the dispersion that drifts (R43, R48, R50, R56, R57, R68). The clauses rest on the model's
choices of log 21, 68, 70. -/
def Obligations.LocksAreGainedAndLost : Prop :=
  (∀ (e : Fin 3) (offset : Int) (tejit : Nat) (s : State), s.dev.hears e = true → offset.natAbs ≤ 20000 → tejit < 16 →
    3 ≤ s.dev.get (F.leRxcStatAcq e) → s.dev.get (F.leRxcStatAcq e) ≤ 6 →
    ∃ t, exec (.timingLock e offset tejit) s = .next t ∧ t.dev.get (F.leRxcTrstatLock e) = 1
      ∧ t.dev.get (F.leRxcTrstatOffset e) = unsignedOf 16 offset ∧ t.dev.get (F.leRxcTrstatTejit e) = tejit
      ∧ 4 ≤ t.dev.get (F.leRxcStatAcq e) ∧ s.dev.Only [R.leRxcTrstat e, R.leRxcStat e, R.hrtClkStat] [] t.dev)
  ∧ (∀ (e : Fin 3) (mask : Word) (s : State), s.dev.hears e = true → 4 ≤ s.dev.get (F.leRxcStatAcq e) →
    ∃ t, exec (.eqConverged e mask) s = .next t
      ∧ (∀ k < 32, t.dev.get (F.leRxsStatEqlock e k)
          = if mask.getLsbD k && (s.dev.decode e).testBit k then 1 else s.dev.get (F.leRxsStatEqlock e k))
      ∧ s.dev.RegsKept (fun a => a == R.leRxcStat e || (List.range 32).any fun k => a == R.leRxsStat e k) t.dev)
  ∧ (∀ (e : Fin 3) (sc : Fin 32) (s : State), s.dev.hears e = true → (s.dev.decode e).testBit sc = true →
    5 ≤ s.dev.get (F.leRxcStatAcq e) →
    ∃ t, exec (.phaseLock e sc) s = .next t ∧ t.dev.get (F.leRxsStatPhlock e sc) = 1
      ∧ (s.dev.get (F.leRxcTrstatLock e) = 1
          → (∀ k < 32, (s.dev.decode e).testBit k = true → s.dev.get (F.leRxsStatEqlock e k) = 1
              ∧ (k ≠ sc.val → s.dev.get (F.leRxsStatPhlock e k) = 1))
          → t.dev.get (F.leRxcStatAcq e) = 6)
      ∧ s.dev.Only [R.leRxsStat e sc, R.leRxcStat e] [] t.dev)
  ∧ (∀ (e : Fin 3) (w : Nat) (offset : Int) (tejit : Nat) (s : State), s.dev.Speaks e w → s.dev.hears e = true →
    s.dev.get (F.leRxcTrstatLock e) = 1 → 64 < tejit ∨ 20000 < offset.natAbs →
    ∃ t, exec (.trUnlock e offset tejit) s = .next t ∧ t.dev.AcqStarted e ∧ s.dev.Raised (0x2C + w) t.dev
      ∧ t.dev.get (F.leRxcTrstatLock e) = 0 ∧ t.dev.get (F.leRxcTrstatOffset e) = unsignedOf 16 offset ∧ t.dev.get (F.leRxcTrstatTejit e) = min tejit 255)
  ∧ (∀ (e : Fin 3) (sc : Fin 32) (offset : Int) (tejit : Nat) (s : State), s.dev.hears e = false →
    (∃ t, exec (.trUnlock e offset tejit) s = .next t ∧ s.dev.Only [] [] t.dev) ∧ ∃ t, exec (.crUnlock e sc) s = .next t ∧ s.dev.Only [] [] t.dev)
  ∧ (∀ (e : Fin 3) (sc : Fin 32) (w : Nat) (s : State), s.dev.Speaks e w → s.dev.hears e = true → s.dev.get (F.leRxsStatPhlock e sc) = 1 →
    (s.dev.decode e).testBit sc = true → (s.dev.eng e).phFirst.testBit sc = true →
    ∃ t, exec (.crUnlock e sc) s = .next t ∧ t.dev.get (F.leRxsStatPhlock e sc) = 0 ∧ s.dev.Raised (0x32 + w) t.dev
      ∧ s.dev.Only [R.leRxsStat e sc] [0x32 + w] t.dev)
  ∧ (∀ (e : Fin 3) (sc : Fin 32) (w : Nat) (s : State), s.dev.Speaks e w → s.dev.hears e = true → s.dev.get (F.leRxsStatPhlock e sc) = 1 →
    (Tbl.get none (s.dev.eng e).align sc).isSome = true →
    ∃ t, exec (.crSlip e sc) s = .next t ∧ t.dev.get (F.leRxsStatSlipstk e sc) = 1
      ∧ t.dev.get (F.leRxsStatSlipcnt e sc) = satAdd 16 (s.dev.get (F.leRxsStatSlipcnt e sc)) 1
      ∧ s.dev.Raised (0x30 + w) t.dev ∧ s.dev.Only [R.leRxsStat e sc] [0x30 + w] t.dev)
  ∧ (∀ (e : Fin 3) (sc : Fin 32) (w : Nat) (s : State), s.dev.Speaks e w → (s.dev.decode e).testBit sc = true →
    ∃ t, exec (.eqSingular e sc) s = .next t ∧ t.dev.get (F.leRxsStatSingstk e sc) = 1
      ∧ t.dev.get (F.leRxsStatEqlock e sc) = 0 ∧ s.dev.Raised (0x28 + w) t.dev
      ∧ s.dev.Only [R.leRxsStat e sc] [0x28 + w] t.dev)
  ∧ (∀ (e : Fin 3) (est : Int) (s : State), s.dev.hears e = false →
    ∃ t, exec (.cdDrift e est) s = .next t ∧ s.dev.Only [] [] t.dev)
  ∧ (∀ (e : Fin 3) (w : Nat) (est : Int) (s : State), s.dev.Speaks e w → s.dev.hears e = true → s.dev.get (F.leRxcCdcfgTrken e) = 1 →
    s.dev.get (F.leRxcCdstatValid e) = 1 → 500 < (est - (s.dev.eng e).cdRef).natAbs →
    ∃ t, exec (.cdDrift e est) s = .next t ∧ t.dev.get (F.leRxcCdstatEst e) = unsignedOf 18 est
      ∧ (t.dev.eng e).cdRef = est ∧ s.dev.Raised (0x26 + w) t.dev ∧ s.dev.Only [R.leRxcCdstat e] [0x26 + w] t.dev)

/-- The qualities a superframe or a line frame shows of a decoded subcarrier (R58, R60, R61, R68), the LLRs delivered
within ±31 and zero where no lock holds (R57, R58), and a decode set that takes effect at a boundary (R46, R60). The
clauses rest on the model's choices of log 8, 68, 70. -/
def Obligations.SubcarrierQualityIsLatched : Prop :=
  (∀ (e : Fin 3) (sc : Fin 32) (level : Int) (evm : Nat) (s : State), (s.dev.decode e).testBit sc = true →
    s.dev.get (F.leRxcStatWide e) = 1 →
    ∃ t, exec (.qualLatch e sc level evm) s = .next t ∧ t.dev.get (F.leRxsQualKind e sc) = 1
      ∧ t.dev.get (F.leRxsQualLevel e sc) = unsignedOf 12 (max 0 (min level 2560))
      ∧ t.dev.get (F.leRxsQualEvm e sc) = min evm 10000 ∧ t.dev.get (F.leRxsQualValid e sc) = 1
      ∧ (∀ w, s.dev.Speaks e w → max 0 (min level 2560) < (s.dev.get (F.leRxsQthrSnrmin e sc) : Int) →
          (s.dev.eng e).qualLow.testBit sc = false → s.dev.Raised (0x38 + w) t.dev)
      ∧ s.dev.Only [R.leRxsQual e sc] [0x38, 0x39] t.dev)
  ∧ (∀ (e : Fin 3) (sc : Fin 32) (level : Int) (evm : Nat) (s : State), (s.dev.decode e).testBit sc = true →
    s.dev.get (F.leRxcStatWide e) = 0 →
    ∃ t, exec (.qualLatch e sc level evm) s = .next t ∧ t.dev.get (F.leRxsQualKind e sc) = 0
      ∧ t.dev.get (F.leRxsQualLevel e sc) = unsignedOf 12 (max (-600) (min level 0))
      ∧ t.dev.get (F.leRxsQualEvm e sc) = 0 ∧ t.dev.get (F.leRxsQualValid e sc) = 1
      ∧ (∀ w, s.dev.Speaks e w → max (-600) (min level 0) < -(s.dev.get (F.leRxsQthrPwrmin e sc) : Int) →
          (s.dev.eng e).qualLow.testBit sc = false → s.dev.Raised (0x38 + w) t.dev)
      ∧ s.dev.Only [R.leRxsQual e sc] [0x38, 0x39] t.dev)
  ∧ (∀ (e : Fin 3) (sc : Fin 32) (rate dgd : Nat) (s : State), (s.dev.decode e).testBit sc = true →
    ∃ t, exec (.eqSopRate e sc rate dgd) s = .next t ∧ t.dev.get (F.leRxsPolSoprate e sc) = min rate 65535
      ∧ t.dev.get (F.leRxsPolDgd e sc) = min dgd 65535
      ∧ (∀ w, s.dev.Speaks e w → 50 < rate → (s.dev.eng e).sopHigh.testBit sc = false → s.dev.Raised (0x2A + w) t.dev)
      ∧ s.dev.Only [R.leRxsPol e sc] [0x2A, 0x2B] t.dev)
  ∧ (∀ (e : Fin 3) (sc : Fin 32) (labels : List (List Int)) (w : Nat) (s : State), s.dev.Speaks e w →
    (s.dev.decode e).testBit sc = true →
    (let llrs := s.dev.softBits w e sc labels
     s.dev.inUse e (F.leRxsLlrcfgSatthr e sc) * llrs.length < (llrs.filter fun x => x.natAbs == 31).length * 256) →
    (s.dev.eng e).satHigh.testBit sc = false →
    ∃ t, exec (.llrSat e sc labels) s = .next t ∧ s.dev.Raised (0x3A + w) t.dev
      ∧ (t.dev.eng e).satHigh.testBit sc = true ∧ s.dev.Only [] [0x3A + w] t.dev)
  ∧ (∀ (d : Dev) (w e sc : Nat) (labels : List (List Int)), ∀ x ∈ d.softBits w e sc labels,
    x.natAbs ≤ 31 ∧ (d.llrFlows w e sc = false → x = 0))
  ∧ (∀ (e : Fin 3) (m : Nat) (s : State), (s.dev.eng e).pendDecode = some m → s.dev.engWl e = none → m < 2 ^ 32 →
    ∃ t, exec (.decodeSetChange e) s = .next t ∧ t.dev.decode e = m ∧ (t.dev.eng e).pendDecode = none
      ∧ s.dev.RegsKept (fun a => inCord (1 + e) a) t.dev)
  ∧ (∀ (e : Fin 3) (m : Nat) (w : Fin 2) (s : State), (s.dev.eng e).pendDecode = some m → s.dev.Speaks e w →
    s.dev.serving w = some e.val → m < 2 ^ 32 → s.dev.flag (F.leRxcStatWide e) ≠ decide (8 < (maskBits 32 m).length) →
    ∃ t, exec (.decodeSetChange e) s = .next t ∧ t.dev.decode e = m ∧ (t.dev.eng e).pendDecode = none
      ∧ t.dev.flag (F.leRxcStatWide e) = decide (8 < (maskBits 32 m).length) ∧ s.dev.Raised (0x3C + w) t.dev
      ∧ (∀ k < 32, (t.dev.get (F.lfScsAlnState w k) = 3) = (m.testBit k = false)))

/-! ### Coherent transmit and the Turuid port (03_line_transmit) -/

/-- The mask check of a superframe behind the mask's attenuation, the mute it brings, its end asked for, and the clip
window of a DAC channel behind its FIR, which goes on from the samples before the window (R83 to R85, R99, R100). The
clauses rest on the model's choices of log 8, 22, 68, 70. -/
def Obligations.MaskAndClipsAreWatched : Prop :=
  (∀ (e : Fin 3) (w : Fin 2) (power : List Byte) (b : Nat) (s : State), s.dev.serving w = some e.val →
    (∀ v : Fin 2, s.dev.serving v = some e.val → v = w) → (s.dev.wave w).gap = false → s.dev.get (F.leTxcMaskctlMonen e) = 1 →
    let meas (c : Nat) : Nat := min 255 ((power.getD c 255).toNat + s.dev.inUse e (F.leTxmBinAtt e c))
    b < 512 → meas b < s.dev.get (F.leTxmBinLimit e b) → (∀ c < b, s.dev.get (F.leTxmBinLimit e c) ≤ meas c) →
    ∃ t, exec (.maskCheck e power) s = .next t
      ∧ (∀ c < 512, t.dev.get (F.leTxmBinMeas e c) = meas c)
      ∧ t.dev.get (F.leTxcMaskctlViolbin e) = b ∧ t.dev.get (F.leTxcStatMaskstk e) = 1
      ∧ t.dev.get (F.leTxcStatMaskcnt e) = satAdd 8 (s.dev.get (F.leTxcStatMaskcnt e)) 1 ∧ s.dev.Raised (0x40 + w) t.dev
      ∧ (s.dev.get (F.leTxcMaskctlMuteen e) = 1 → s.dev.get (F.leTxcStatMuted e) = 0 →
          t.dev.get (F.leTxcStatMuted e) = 1 ∧ s.dev.Raised (0x46 + w) t.dev)
      ∧ s.dev.RegsKept (fun a => a == R.leTxcMaskctl e || a == R.leTxcStat e || (evtRegs (0x40 + w) ++ evtRegs (0x46 + w)).contains a
          || (List.range 512).any fun c => a == R.leTxmBin e c) t.dev)
  ∧ (∀ (e : Fin 3) (power : List Byte) (s : State), s.dev.get (F.leTxcMaskctlMonen e) = 1 →
    let meas (c : Nat) : Nat := min 255 ((power.getD c 255).toNat + s.dev.inUse e (F.leTxmBinAtt e c))
    (∀ c < 512, s.dev.get (F.leTxmBinLimit e c) ≤ meas c) →
    ∃ t, exec (.maskCheck e power) s = .next t
      ∧ (∀ c < 512, t.dev.get (F.leTxmBinMeas e c) = meas c)
      ∧ s.dev.RegsKept (fun a => (List.range 512).any fun c => a == R.leTxmBin e c) t.dev)
  ∧ (∀ (e : Fin 3) (ch : Fin 4) (xs : List Int) (w : Fin 2) (s : State), s.dev.serving w = some e.val →
    (∀ v : Fin 2, s.dev.serving v = some e.val → v = w) → (s.dev.wave w).gap = false →
    s.dev.get (F.leTxcCfgClipthr e) < ((s.dev.dacCodes e ch xs).filter fun y => y == -128 || y == 127).length →
    ∃ t, exec (.txDacClip e ch xs) s = .next t ∧ t.dev.get (F.leTxcStatClip e) = 1 ∧ t.dev.get (F.leTxcStatClipstk e) = 1
      ∧ t.dev.get (F.leTxcStatClipcnt e) = satAdd 8 (s.dev.get (F.leTxcStatClipcnt e)) 1
      ∧ (∀ c, Tbl.get [] (t.dev.eng e).firPast c = if c = ch.val then (xs.reverse ++ Tbl.get [] (s.dev.eng e).firPast ch).take 16
          else Tbl.get [] (s.dev.eng e).firPast c)
      ∧ ((s.dev.eng e).dacClip = 0 → s.dev.Raised (0x44 + w) t.dev) ∧ s.dev.Only [R.leTxcStat e] [0x44 + w] t.dev)
  ∧ (∀ (e : Fin 3) (s : State), s.dev.Takes (R.leTxcMaskctl e) (s.dev.withField (F.leTxcMaskctlUnmute e) 1) →
    ∃ t, exec (.unmute e) s = .next t ∧ t.outputs = .writeDone (R.leTxcMaskctl e) 0 :: s.outputs
      ∧ t.dev.get (F.leTxcStatMuted e) = s.dev.get (F.leTxcStatMuted e)
      ∧ (s.dev.get (F.leTxcStatMuted e) = 1 → (t.dev.eng e).unmute = some ((s.dev.eng e).unmute.getD s.dev.time.ticks))
      ∧ s.dev.Only [R.leTxcMaskctl e] [] t.dev)

/-- The Turuid port (R90 to R95): what waits is sent in order with its number and its CRC, a reply ends the command and
answers its host, failures bring the link down, and a laser fine-tune of the host that times out raises the laser-loop
event as well (R101). The clauses rest on the model's choices of log 25, 70. -/
def Obligations.TuruidCommandsRun : Prop :=
  (∀ (w : Fin 2) (src : TrdSource) (ty arg : Nat) (c : Conv) (s : State), (s.dev.conv w).flight = none →
    s.dev.cordOn (4 + w) = true → (s.dev.conv w).next = some (src, ty, arg, c) →
    ∃ t, exec (.turuidCommandStart w) s = .next t ∧ (t.dev.conv w).flight = some (src, trdFrame ty c.seq arg)
      ∧ (t.dev.conv w).seq = (c.seq + 1) % 16 ∧ t.outputs = .turuid w (trdFrame ty c.seq arg) :: s.outputs
      ∧ s.dev.Only [] [] t.dev)
  ∧ (∀ (w : Fin 2) (frame : BitVec 48) (cmd : Nat) (s : State), (s.dev.conv w).flight = some (.host, cmd) →
    crc8 0xFF (bitsOf 40 (frame.toNat / 256)) = frame.toNat % 256 → frame.toNat / 2 ^ 40 % 16 = cmd / 2 ^ 40 % 16 →
    frame.toNat / 2 ^ 44 ≤ 1 →
    ∃ t, exec (.turuidReply w frame) s = .next t ∧ (t.dev.conv w).flight = none ∧ (t.dev.conv w).fails = 0
      ∧ t.dev.get (F.cvTrdStatLinkup w) = 1 ∧ t.dev.get (F.cvTrdStatBusy w) = 0
      ∧ t.dev.get (F.cvTrdStatResult w) = 1 + frame.toNat / 2 ^ 44
      ∧ t.dev.get (F.cvTrdRspArg w) = frame.toNat / 256 % 2 ^ 32
      ∧ (frame.toNat / 2 ^ 44 = 1 → t.dev.get (F.cvTrdStatNakcnt w) = satAdd 8 (s.dev.get (F.cvTrdStatNakcnt w)) 1
          ∧ s.dev.Raised (0x4C + w) t.dev)
      ∧ s.dev.Only [R.cvTrdStat w, R.cvTrdRsp w] [0x4C + w] t.dev)
  ∧ (∀ (w : Fin 2) (frame : BitVec 48) (cmd : Nat) (s : State), (s.dev.conv w).flight = some (.host, cmd) →
    crc8 0xFF (bitsOf 40 (frame.toNat / 256)) ≠ frame.toNat % 256 →
    ∃ t, exec (.turuidReply w frame) s = .next t ∧ (t.dev.conv w).flight = none
      ∧ (t.dev.conv w).fails = (s.dev.conv w).fails + 1 ∧ t.dev.get (F.cvTrdStatBusy w) = 0
      ∧ t.dev.get (F.cvTrdStatResult w) = 4
      ∧ t.dev.get (F.cvTrdStatBadcnt w) = satAdd 8 (s.dev.get (F.cvTrdStatBadcnt w)) 1 ∧ s.dev.Raised (0x4A + w) t.dev
      ∧ s.dev.Only [R.cvTrdStat w] [0x4A + w, 0x4E + w] t.dev)
  ∧ (∀ (w : Fin 2) (cmd e : Nat) (s : State), (s.dev.conv w).flight = some (.host, cmd) → cmd / 2 ^ 44 = 1 →
    s.dev.serving w = some e → s.dev.Speaks e w → e < 3 →
    ∃ t, exec (.turuidTimeout w) s = .next t ∧ t.dev.get (F.leRxcStatLaserfail e) = 1 ∧ s.dev.Raised (0x34 + w) t.dev
      ∧ s.dev.Raised (0x48 + w) t.dev ∧ s.dev.Only [R.cvTrdStat w, R.leRxcStat e] [0x34 + w, 0x48 + w, 0x4E + w] t.dev)
  ∧ (∀ (w : Fin 2) (cmd : Nat) (s : State), (s.dev.conv w).flight = some (.host, cmd) → cmd / 2 ^ 44 ≠ 1 →
    ∃ t, exec (.turuidTimeout w) s = .next t ∧ (t.dev.conv w).flight = none
      ∧ (t.dev.conv w).fails = (s.dev.conv w).fails + 1 ∧ t.dev.get (F.cvTrdStatBusy w) = 0
      ∧ t.dev.get (F.cvTrdStatResult w) = 3
      ∧ t.dev.get (F.cvTrdStatTocnt w) = satAdd 8 (s.dev.get (F.cvTrdStatTocnt w)) 1 ∧ s.dev.Raised (0x48 + w) t.dev
      ∧ (s.dev.get (F.cvTrdCfgDowncnt w) ≤ (s.dev.conv w).fails + 1 → t.dev.get (F.cvTrdStatLinkup w) = 0)
      ∧ (s.dev.get (F.cvTrdCfgDowncnt w) ≤ (s.dev.conv w).fails + 1 → s.dev.get (F.cvTrdStatLinkup w) = 1 →
          s.dev.Raised (0x4E + w) t.dev)
      ∧ s.dev.Only [R.cvTrdStat w] [0x48 + w, 0x4E + w] t.dev)
  ∧ (∀ (w : Fin 2) (v : Word) (s : State), s.dev.Takes (R.cvTrdCmd w) ((F.cvTrdCmdGo w).put v 1) →
    ∃ t, exec (.trdGo w v) s = .next t ∧ t.outputs = .writeDone (R.cvTrdCmd w) 0 :: s.outputs
      ∧ t.dev.get (F.cvTrdStatBusy w) = 1
      ∧ (t.dev.conv w).waitHost = some ((F.cvTrdCmdType w).of v, s.dev.get (F.cvTrdArgArg w))
      ∧ s.dev.Only [R.cvTrdCmd w, R.cvTrdStat w] [] t.dev)
  ∧ (∀ (w : Fin 2) (s : State), s.dev.get (F.cvTrdCfgHbper w) ≠ 0 → s.dev.cordOn (4 + w) = true →
    ∃ t, exec (.turuidHeartbeat w) s = .next t ∧ (t.dev.conv w).waitHb = true ∧ s.dev.Only [] [] t.dev)

/-- R96 whole: what refuses a write of GO = 1, what an accepted one does, and the end of BUSY with RESULT at each way a
command of the host completes. The checks that come before those of the chapter are met by none (R456). -/
def Obligations.TheHostsTuruidCommandRuns : Prop :=
  (∀ (w : Fin 2) (v : Word) (r : RegAt) (s : State), s.dev.Answers (R.cvTrdCmd w) → decodeAddr (R.cvTrdCmd w) = some r →
    s.dev.expert (some .line) = true → s.dev.tableCode (R.cvTrdCmd w) r ((F.cvTrdCmdGo w).put v 1) false = 0 →
    (F.cvTrdCmdType w).of v ≠ 15 →
    s.dev.get (F.cvTrdStatBusy w) = 1
      ∨ ((F.cvTrdCmdType w).of v = 1 ∧ ∃ e, s.dev.serving w = some e ∧ s.dev.get (F.leRxcLsrcfgEn e) = 1) →
    ∃ t, exec (.trdGo w v) s = .next t ∧ t.outputs.head? = some (.writeDone (R.cvTrdCmd w) 10) ∧ t.dev.convs = s.dev.convs
      ∧ t.dev.get F.hrtGlbAerrCode = 10 ∧ s.dev.Only [R.hrtGlbAerr] [0x01] t.dev)
  ∧ (∀ (w : Fin 2) (v : Word) (r : RegAt) (s : State), s.dev.Answers (R.cvTrdCmd w) → decodeAddr (R.cvTrdCmd w) = some r →
    s.dev.expert (some .line) = true → s.dev.tableCode (R.cvTrdCmd w) r ((F.cvTrdCmdGo w).put v 1) false = 0 →
    (F.cvTrdCmdType w).of v = 15 →
    ∃ t, exec (.trdGo w v) s = .next t ∧ t.outputs.head? = some (.writeDone (R.cvTrdCmd w) 9) ∧ t.dev.convs = s.dev.convs
      ∧ t.dev.get F.hrtGlbAerrCode = 9 ∧ s.dev.Only [R.hrtGlbAerr] [0x01] t.dev)
  ∧ (∀ (w : Fin 2) (v : Word) (r : RegAt) (s : State), s.dev.Answers (R.cvTrdCmd w) → decodeAddr (R.cvTrdCmd w) = some r →
    s.dev.expert (some .line) = true → s.dev.tableCode (R.cvTrdCmd w) r ((F.cvTrdCmdGo w).put v 1) false = 0 →
    s.dev.cordSt (4 + w) = 3 → (F.cvTrdCmdType w).of v ≠ 15 → s.dev.get (F.cvTrdStatBusy w) = 0 →
    ((F.cvTrdCmdType w).of v = 1 → ∀ e, s.dev.serving w = some e → s.dev.get (F.leRxcLsrcfgEn e) = 0) →
    ∃ t, exec (.trdGo w v) s = .next t ∧ t.outputs = .writeDone (R.cvTrdCmd w) 0 :: s.outputs ∧ t.dev.get (F.cvTrdStatBusy w) = 1
      ∧ (t.dev.conv w).waitHost = some ((F.cvTrdCmdType w).of v, s.dev.get (F.cvTrdArgArg w)))
  ∧ (∀ (w : Fin 2) (frame : BitVec 48) (cmd : Nat) (s : State), (s.dev.conv w).flight = some (.host, cmd) →
    ∃ t, exec (.turuidReply w frame) s = .next t ∧ (t.dev.conv w).flight = none ∧ t.dev.get (F.cvTrdStatBusy w) = 0
      ∧ t.dev.get (F.cvTrdStatResult w) = (if crc8 0xFF (bitsOf 40 (frame.toNat / 256)) = frame.toNat % 256
          ∧ frame.toNat / 2 ^ 40 % 16 = cmd / 2 ^ 40 % 16 ∧ frame.toNat / 2 ^ 44 ≤ 1 then 1 + frame.toNat / 2 ^ 44 else 4))
  ∧ (∀ (w : Fin 2) (cmd : Nat) (s : State), (s.dev.conv w).flight = some (.host, cmd) →
    ∃ t, exec (.turuidTimeout w) s = .next t ∧ (t.dev.conv w).flight = none ∧ t.dev.get (F.cvTrdStatBusy w) = 0
      ∧ t.dev.get (F.cvTrdStatResult w) = 3)
/-! ### Line frames, FEC and performance monitoring (04_line_frame_fec) -/

/-- Alignment and headers (R106 to R108, R110, R111, R126, R132): ALIGNMENT_TEST and FRAME_HEADER_RX complete in every
state; a candidate opens, a run of N aligns, a good test keeps the alignment, a run of M errors loses it, a gap test
changes none of it while the numbering runs on, there is none before the new engine delivers, and a header is read
from its LLRs, checked, shown and followed. The clauses rest on the model's choices of log 27, 75. -/
def Obligations.AlignmentAndHeadersFollow : Prop :=
  (∀ (w : Fin 2) (sc : Fin 32) (pos : Nat) (signs : BitVec 512) (s : State),
    ∃ t, exec (.alignmentTest w sc pos signs) s = .next t ∧ t.fuses = s.fuses ∧ t.pending = s.pending
      ∧ (s.dev.released (6 + w) = false → s.dev.Only [] [] t.dev))
  ∧ (∀ (w : Fin 2) (sc : Fin 32) (llrs : List (Int × Int)) (s : State),
    ∃ t, exec (.frameHeaderRx w sc llrs) s = .next t ∧ t.fuses = s.fuses ∧ t.pending = s.pending
      ∧ (s.dev.aligned w sc = false ∨ (s.dev.wave w).gap = true → s.dev.Only [] [] t.dev))
  ∧ (∀ (w : Fin 2) (sc : Fin 32) (pos : Nat) (signs : BitVec 512) (s : State), (s.dev.wave w).gap = false →
    s.dev.released (6 + w) = true → s.dev.get (F.lfScsAlnState w sc) = 0 →
    (alignmentTest signs).diffs ≤ s.dev.get (F.lfAlnThrAwtol w) →
    ((s.dev.sc w sc).cands.find? fun c => predicted c.pos pos) = none → 1 < s.dev.get (F.lfAlnCfgN w) →
    (s.dev.sc w sc).cands.length < 4 →
    ∃ t, exec (.alignmentTest w sc pos signs) s = .next t
      ∧ (t.dev.sc w sc).cands = (s.dev.sc w sc).cands ++ [⟨pos, 1, (alignmentTest signs).beacon⟩]
      ∧ t.dev.get (F.lfScsAlnNcand w sc) = (s.dev.sc w sc).cands.length + 1 ∧ t.dev.get (F.lfScsAlnState w sc) = 0
      ∧ s.dev.Only [R.lfScsAln w sc] [] t.dev)
  ∧ (∀ (w : Fin 2) (sc : Fin 32) (pos : Nat) (signs : BitVec 512) (c : AlnCand) (s : State), (s.dev.wave w).gap = false →
    s.dev.released (6 + w) = true → s.dev.get (F.lfScsAlnState w sc) = 0 →
    (alignmentTest signs).diffs ≤ s.dev.get (F.lfAlnThrAwtol w) → (alignmentTest signs).beacon = c.beacon →
    ((s.dev.sc w sc).cands.find? fun c => predicted c.pos pos) = some c → s.dev.get (F.lfAlnCfgN w) ≤ c.run + 1 →
    ∃ t, exec (.alignmentTest w sc pos signs) s = .next t ∧ t.dev.get (F.lfScsAlnState w sc) = 2
      ∧ t.dev.get (F.lfScsAlnNcand w sc) = 0 ∧ t.dev.flag (F.lfScsAlnVar w sc) = c.beacon
      ∧ (t.dev.sc w sc).cands = [] ∧ (t.dev.sc w sc).phase = pos
      ∧ (∀ e ∈ s.dev.enginesOf w, Tbl.get none (t.dev.eng e).align sc = some ((alignmentTest signs).give pos))
      ∧ s.dev.Only [R.lfScsAln w sc, R.lfAlnStat w, R.lfActStat w, R.lfGrpMemb w 31, R.lfGrpStat w 31, R.lfCellLost w] [] t.dev)
  ∧ (∀ (w : Fin 2) (sc : Fin 32) (pos : Nat) (signs : BitVec 512) (s : State), (s.dev.wave w).gap = false →
    s.dev.released (6 + w) = true → s.dev.get (F.lfScsAlnState w sc) = 2 →
    (alignmentTest signs).diffs ≤ s.dev.get (F.lfAlnThrAwtol w) → (alignmentTest signs).beacon = s.dev.flag (F.lfScsAlnVar w sc) →
    predicted (s.dev.sc w sc).phase pos = true →
    ∃ t, exec (.alignmentTest w sc pos signs) s = .next t ∧ (t.dev.sc w sc).errRun = 0 ∧ (t.dev.sc w sc).phase = pos
      ∧ s.dev.Only [] [] t.dev)
  ∧ (∀ (w : Fin 2) (sc : Fin 32) (pos : Nat) (signs : BitVec 512) (s : State), (s.dev.wave w).gap = false →
    s.dev.released (6 + w) = true → s.dev.get (F.lfScsAlnState w sc) = 2 →
    s.dev.get (F.lfAlnThrAwtol w) < (alignmentTest signs).diffs →
    predicted (s.dev.sc w sc).phase pos = true → s.dev.get (F.lfAlnCfgM w) ≤ (s.dev.sc w sc).errRun + 1 →
    ∃ t, exec (.alignmentTest w sc pos signs) s = .next t ∧ t.dev.get (F.lfScsAlnState w sc) = 0
      ∧ t.dev.get (F.lfScsAlnLossstk w sc) = 1
      ∧ t.dev.get (F.lfScsAlnLosscnt w sc) = satAdd 8 (s.dev.get (F.lfScsAlnLosscnt w sc)) 1
      ∧ s.dev.Raised (0x50 + w) t.dev)
  ∧ (∀ (w : Fin 2) (sc : Fin 32) (pos : Nat) (signs : BitVec 512) (s : State), (s.dev.wave w).gap = true →
    s.dev.released (6 + w) = true → s.dev.get (F.lfScsAlnState w sc) = 2 → predicted (s.dev.sc w sc).phase pos = true →
    s.dev.gapSoft w = true →
    ∃ t, exec (.alignmentTest w sc pos signs) s = .next t ∧ (t.dev.sc w sc).frameSp = true
      ∧ (t.dev.sc w sc).gapGood = (decide ((alignmentTest signs).diffs ≤ s.dev.get (F.lfAlnThrAwtol w))
          && (alignmentTest signs).beacon == s.dev.flag (F.lfScsAlnVar w sc))
      ∧ ((s.dev.sc w sc).hdrOk = true → pos = (s.dev.sc w sc).hdrPhase + 256000 → (s.dev.sc w sc).fnum < 8 →
          ((t.dev.sc w sc).sfn, (t.dev.sc w sc).fnum) = nextFrame (s.dev.sc w sc).sfn (s.dev.sc w sc).fnum
            ∧ t.dev.get (F.lfScsSfnSfn w sc) = (s.dev.sc w sc).sfn % 2 ^ 32)
      ∧ s.dev.Only [R.lfScsSfn w sc] [] t.dev)
  ∧ (∀ (w : Fin 2) (sc : Fin 32) (pos : Nat) (signs : BitVec 512) (s : State), (s.dev.wave w).gap = true → s.dev.gapSoft w = false →
    ∃ t, exec (.alignmentTest w sc pos signs) s = .next t ∧ (t.dev.sc w sc).gapGood = (s.dev.sc w sc).gapGood ∧ s.dev.Only [] [] t.dev)
  ∧ (∀ (w : Fin 2) (sc : Fin 32) (llrs : List (Int × Int)) (b : Nat) (s : State), s.dev.aligned w sc = true →
    (s.dev.wave w).gap = false → s.dev.headerRead w sc llrs = some b → headerCrcOk b = false →
    ∃ t, exec (.frameHeaderRx w sc llrs) s = .next t ∧ (t.dev.sc w sc).goodRun = 0
      ∧ t.dev.get (F.lfScsHdrCrccnt w sc) = satAdd 8 (s.dev.get (F.lfScsHdrCrccnt w sc)) 1
      ∧ s.dev.Raised (0x54 + w) t.dev ∧ s.dev.Only [R.lfScsHdr w sc, R.lfScsSfn w sc] [0x54 + w] t.dev)
  ∧ (∀ (w : Fin 2) (sc : Fin 32) (llrs : List (Int × Int)) (b : Nat) (s : State), s.dev.aligned w sc = true →
    (s.dev.wave w).gap = false → s.dev.headerRead w sc llrs = some b → headerCrcOk b = true → (parseHeader b).hver = 1 →
    (s.dev.sc w sc).hdrOk = false →
    ∃ t, exec (.frameHeaderRx w sc llrs) s = .next t
      ∧ t.dev.get (F.lfScsHdrProf w sc) = (parseHeader b).prof
      ∧ t.dev.flag (F.lfScsHdrRdi w sc) = (parseHeader b).rdi
      ∧ t.dev.get (F.lfScsSfnSfn w sc) = (parseHeader b).sfn
      ∧ ((t.dev.sc w sc).sfn, (t.dev.sc w sc).fnum) = nextFrame (parseHeader b).sfn (parseHeader b).fnum)
  ∧ (∀ (w : Fin 2) (sc : Fin 32) (llrs : List (Int × Int)) (s : State), s.dev.aligned w sc = true →
    (s.dev.wave w).gap = false → s.dev.headerRead w sc llrs = none →
    ((s.dev.sc w sc).phase - (s.dev.sc w sc).hdrPhase) / 128000 ≤ 1 →
    ∃ t, exec (.frameHeaderRx w sc llrs) s = .next t
      ∧ ((t.dev.sc w sc).sfn, (t.dev.sc w sc).fnum) = nextFrame (s.dev.sc w sc).sfn (s.dev.sc w sc).fnum
      ∧ ((s.dev.sc w sc).hdrOk = true → t.dev.get (F.lfScsSfnSfn w sc) = (s.dev.sc w sc).sfn % 2 ^ 32)
      ∧ s.dev.Only [R.lfScsSfn w sc] [] t.dev)
  ∧ (∀ (d : Dev) (w sc e : Nat) (llrs : List (Int × Int)), d.serving w = some e → d.llrFlows w e sc = false →
    d.headerRead w sc llrs = none)

/-- FEC blocks and the seconds of performance monitoring (R109, R115, R117, R118, R127 to R132): a block is decoded from
the LLRs and counted, the incoming engine's copy changing nothing outside a compared frame. The clauses rest on the
model's choices of log 8, 28, 31, 70, 76. -/
def Obligations.FecAndSecondsAreCounted : Prop :=
  (∀ (w : Fin 2) (sc : Fin 32) (j e : Nat) (a : List Int) (b : Option (List Int)) (s : State), s.dev.aligned w sc = true →
    (s.dev.wave w).gap = false → s.dev.lineOk w = true → s.dev.serving w = some e → s.dev.waiting = [] →
    b = none ∨ (s.dev.sc w sc).cmp = false →
    let x := s.dev.fecRead w sc e j a
    ∃ t, exec (.fecBlockDecode w sc j a b) s = .next t
      ∧ t.dev.get (F.lfScsFecubUb w sc) = (if x.uncorr then satAdd 32 (s.dev.get (F.lfScsFecubUb w sc)) 1
          else s.dev.get (F.lfScsFecubUb w sc))
      ∧ (t.dev.sc w sc).frameErr = ((s.dev.sc w sc).frameErr || x.uncorr) ∧ (x.uncorr = true → s.dev.Raised (0x58 + w) t.dev)
      ∧ (t.dev.sc w sc).cb = (s.dev.sc w sc).cb + x.changed + x.fixed
      ∧ (t.dev.sc w sc).blocks = (s.dev.sc w sc).blocks + 1
      ∧ s.dev.Only [R.lfScsFecub w sc, R.lfScsFecit w sc] (if x.uncorr then [0x58 + w.val] else []) t.dev)
  ∧ (∀ (w : Fin 2) (extra : List (Fin 32 × Nat)) (spared : Word) (s : State), s.dev.released (6 + w) = true →
    ∃ t, exec (.pmSecond w extra spared) s = .next t
      ∧ (∀ k < 32, t.dev.get (F.lfScsFeccbCb w k) = min (s.dev.sc w k).cb (2 ^ 32 - 1)
          ∧ (t.dev.sc w k).cb = 0 ∧ (t.dev.sc w k).blocks = 0 ∧ (t.dev.sc w k).errFrames = 0)
      ∧ ((s.dev.wave w).pmClear = true → t.dev.get (F.lfPmEsCount w) = 0 ∧ t.dev.get (F.lfPmSesCount w) = 0
          ∧ t.dev.get (F.lfPmUasCount w) = 0 ∧ t.dev.get (F.lfPmSpsCount w) = 0)
      ∧ (t.dev.wave w).pmClear = false)
  ∧ (∀ (w : Fin 2) (i : PmItem) (p : PmRun) (s : State), (s.dev.wave w).pm.due = some (i, p) → i.cls = some 2 →
    i.ua = false →
    ∃ t, exec (.pmCommit w) s = .next t
      ∧ t.dev.get (F.lfPmEsCount w) = satAdd 32 (s.dev.get (F.lfPmEsCount w)) 1
      ∧ t.dev.get (F.lfPmSesCount w) = satAdd 32 (s.dev.get (F.lfPmSesCount w)) 1
      ∧ t.dev.get (F.lfPmUasCount w) = s.dev.get (F.lfPmUasCount w)
      ∧ t.dev.get (F.lfPmStatSecnum w) = (s.dev.get (F.lfPmStatSecnum w) + 1) % 65536
      ∧ (t.dev.wave w).pm = p ∧ s.dev.Raised (0x66 + w) t.dev)
  ∧ (∀ (w : Fin 2) (i : PmItem) (p : PmRun) (c : Nat) (s : State), (s.dev.wave w).pm.due = some (i, p) → i.cls = some c →
    i.ua = true →
    ∃ t, exec (.pmCommit w) s = .next t
      ∧ t.dev.get (F.lfPmUasCount w) = satAdd 32 (s.dev.get (F.lfPmUasCount w)) 1
      ∧ t.dev.get (F.lfPmEsCount w) = s.dev.get (F.lfPmEsCount w)
      ∧ t.dev.get (F.lfPmSesCount w) = s.dev.get (F.lfPmSesCount w))
  ∧ (∀ (w : Fin 2) (s : State), s.dev.Takes (R.lfPmCtl w) (s.dev.withField (F.lfPmCtlClear w) 1) →
    ∃ t, exec (.pmClear w) s = .next t ∧ t.outputs = .writeDone (R.lfPmCtl w) 0 :: s.outputs
      ∧ (t.dev.wave w).pmClear = true ∧ s.dev.Only [R.lfPmCtl w] [] t.dev)

/-- Cells and groups (R119 to R125, R207): what a received cell is counted as in its turn, that one which comes early
waits for its turn (R124), what a sent one carries, what a sparing gap sends, when a group resumes, fails its deskew
or stands, and a packet that waits too long. The clauses rest on the model's choices of log 29, 30, 70, 78. -/
def Obligations.CellsAndGroupsFlow : Prop :=
  (∀ (w : Fin 2) (g : Nat) (sc : Fin 32) (k : Nat) (cell : List Byte) (s : State), s.dev.NextCell w g sc k →
    s.dev.encRx w g = false → cell.length = 256 → cellHecOk cell = true →
    (cellHdr cell).type = 0 → (cellHdr cell).len = 0 → (cellHdr cell).seq = s.dev.cellIndex w g sc k % 256 →
    ∃ t, exec (.cellRx w sc k false cell) s = .next t
      ∧ t.dev.get (F.lfCellIdleIdle w) = satAdd 32 (s.dev.get (F.lfCellIdleIdle w)) 1
      ∧ (t.dev.grp w g).delivered = true ∧ (t.dev.grp w g).held = []
      ∧ (t.dev.grp w g).next = some ((s.dev.sc w sc).frameNo, (s.dev.cellIndex w g sc k + 1) % 2 ^ 16)
      ∧ s.dev.Only [R.lfCellIdle w] [] t.dev)
  ∧ (∀ (w : Fin 2) (g : Nat) (sc : Fin 32) (k : Nat) (cell : List Byte) (s : State), s.dev.NextCell w g sc k →
    cell.length = 256 → cellHecOk cell = false →
    ∃ t, exec (.cellRx w sc k false cell) s = .next t
      ∧ t.dev.get (F.lfCellErrHec w) = satAdd 16 (s.dev.get (F.lfCellErrHec w)) 1 ∧ s.dev.Raised (0x5C + w) t.dev
      ∧ s.dev.Only [R.lfCellErr w, R.lfCellPktdrop w] [0x5C + w, 0x60 + w] t.dev)
  ∧ (∀ (w : Fin 2) (g : Nat) (sc : Fin 32) (k : Nat) (cell : List Byte) (s : State), s.dev.NextCell w g sc k →
    cell.length = 256 → cellHecOk cell = true → (cellHdr cell).seq ≠ s.dev.cellIndex w g sc k % 256 →
    ∃ t, exec (.cellRx w sc k false cell) s = .next t
      ∧ t.dev.get (F.lfCellErrFmt w) = satAdd 16 (s.dev.get (F.lfCellErrFmt w)) 1 ∧ s.dev.Raised (0x5E + w) t.dev
      ∧ t.dev.crys = s.dev.crys ∧ s.dev.Only [R.lfCellErr w] [0x5E + w] t.dev)
  ∧ (∀ (w : Fin 2) (g : Nat) (sc : Fin 32) (k : Nat) (part : List Byte) (o : OpenPkt) (flow : Nat) (s : State),
    s.dev.NextCell w g sc k → s.dev.encRx w g = false → part.length = 248 → flow < 2 ^ 20 →
    ((s.dev.wave w).open_.find? fun x => x.flow == flow) = some o → o.bytes.length + 248 ≤ 12288 →
    ∃ t, exec (.cellRx w sc k false (buildCell flow 3 (s.dev.cellIndex w g sc k) 248 part)) s = .next t
      ∧ (t.dev.wave w).open_ = (s.dev.wave w).open_.map (fun x => if x.flow = flow then { x with bytes := o.bytes ++ part } else x)
      ∧ s.dev.Only [] [] t.dev)
  ∧ (∀ (w : Fin 2) (g : Nat) (sc other : Fin 32) (k : Nat) (uncorr : Bool) (cell : List Byte) (p : Nat × Nat) (s : State),
    s.dev.rxGroup w sc = some g → s.dev.get (F.lfGrpStatState w g) = 2 → s.dev.lineOk w = true → (s.dev.wave w).gap = false →
    s.dev.InjIdle (96 + 32 * w + sc) → cell.length = 256 → (s.dev.grp w g).held = [] → (s.dev.grp w g).next = some p →
    placeLt ((s.dev.sc w sc).frameNo, s.dev.cellIndex w g sc k) p = false → p.2 ≠ s.dev.cellIndex w g sc k →
    other ≠ sc → (s.dev.get (F.lfGrpMembMask w g)).testBit other = true →
    ∃ t, exec (.cellRx w sc k uncorr cell) s = .next t
      ∧ (t.dev.grp w g).held.map (fun x => (x.n, x.sc, x.units)) = [(s.dev.cellIndex w g sc k, sc.val, [(uncorr, cell)])]
      ∧ (t.dev.grp w g).next = some p ∧ s.dev.Only [] [] t.dev)
  ∧ (∀ (w : Fin 2) (flow : BitVec 20) (s : State), ((s.dev.wave w).open_.any fun o => o.flow == flow.toNat) = true →
    ∃ t, exec (.reassemblyTimeout w flow) s = .next t
      ∧ (t.dev.wave w).open_ = (s.dev.wave w).open_.filter (fun o => o.flow != flow.toNat)
      ∧ t.dev.get (F.lfCellPktdropPktdrop w) = satAdd 32 (s.dev.get (F.lfCellPktdropPktdrop w)) 1
      ∧ s.dev.Raised (0x60 + w) t.dev ∧ s.dev.Only [R.lfCellPktdrop w] [0x60 + w] t.dev)
  ∧ (∀ (w : Fin 2) (g : Fin 32) (s : State),
    let m := s.dev.get (F.lfGrpMembMask w g)
    m ≠ 0 → s.dev.get (F.lfGrpStatState w g) ≠ 2 → (∀ k ∈ maskBits 32 m, s.dev.aligned w k = true ∧ (s.dev.sc w k).hdrOk = true) →
    (s.dev.wave w).gap = false → s.dev.groupSkew w m ≤ 256000 →
    ∃ t, exec (.groupResume w g) s = .next t ∧ t.dev.get (F.lfGrpStatState w g) = 2
      ∧ t.dev.get (F.lfGrpStatSkew w g) = s.dev.groupSkew w m ∧ (t.dev.grp w g).held = [] ∧ (t.dev.grp w g).next = none
      ∧ s.dev.Only [R.lfGrpStat w g, R.lfCellPktdrop w, R.lfCellLost w] [0x60 + w] t.dev)
  ∧ (∀ (w : Fin 2) (g : Fin 32) (s : State),
    let m := s.dev.get (F.lfGrpMembMask w g)
    m ≠ 0 → s.dev.get (F.lfGrpStatState w g) = 2 → (∀ k ∈ maskBits 32 m, s.dev.aligned w k = true ∧ (s.dev.sc w k).hdrOk = true) →
    (s.dev.wave w).gap = false → s.dev.groupSkew w m ≤ 256000 →
    ∃ t, exec (.groupResume w g) s = .next t ∧ t.dev.get (F.lfGrpStatState w g) = 2
      ∧ t.dev.get (F.lfGrpStatSkew w g) = s.dev.groupSkew w m ∧ s.dev.Only [R.lfGrpStat w g] [] t.dev)
  ∧ (∀ (w : Fin 2) (g : Fin 32) (s : State),
    let m := s.dev.get (F.lfGrpMembMask w g)
    m ≠ 0 → s.dev.get (F.lfGrpStatState w g) ≠ 3 → (∀ k ∈ maskBits 32 m, s.dev.aligned w k = true ∧ (s.dev.sc w k).hdrOk = true) →
    (s.dev.wave w).gap = false → 256000 < s.dev.groupSkew w m →
    ∃ t, exec (.groupResume w g) s = .next t ∧ t.dev.get (F.lfGrpStatState w g) = 3
      ∧ s.dev.Raised (0x62 + w) t.dev ∧ s.dev.Only [R.lfGrpStat w g, R.lfCellLost w] [0x62 + w] t.dev)
  ∧ (∀ (w : Fin 2) (g : Fin 32) (c : TxCell) (rest : List TxCell) (s : State), (s.dev.wave w).leaf = false →
    (s.dev.grp w g).txMask ≠ 0 → (s.dev.wave w).gap = false → s.dev.lineOk w = true → s.dev.onLine w = true →
    (s.dev.grp w g).encTx = false →
    s.dev.carriesCtrl w g = false → (s.dev.grp w g).txCells = c :: rest → c.bufs = [] →
    (s.dev.sc w (memberOf (s.dev.grp w g).txMask (s.dev.grp w g).txN)).txOut = [] →
    s.dev.InjIdle (96 + 32 * w + memberOf (s.dev.grp w g).txMask (s.dev.grp w g).txN) →
    ∃ t, exec (.cellTx w g) s = .next t
      ∧ t.outputs = .lineCell w g (s.dev.grp w g).txN (buildCell c.flow c.type (s.dev.grp w g).txN c.len c.data) :: s.outputs
      ∧ (t.dev.grp w g).txN = (s.dev.grp w g).txN + 1 ∧ (t.dev.grp w g).txCells = rest ∧ s.dev.Only [] [] t.dev)
  ∧ (∀ (w : Fin 2) (g : Fin 32) (s : State), (s.dev.wave w).leaf = false → (s.dev.grp w g).txMask ≠ 0 →
    (s.dev.wave w).gap = true → (s.dev.wave w).txCut = true → s.dev.released (6 + w) = true → (s.dev.grp w g).encTx = false →
    (s.dev.sc w (memberOf (s.dev.grp w g).txMask (s.dev.grp w g).txN)).txOut = [] →
    ∃ t, exec (.cellTx w g) s = .next t ∧ t.outputs = s.outputs ∧ (t.dev.grp w g).txN = (s.dev.grp w g).txN + 1
      ∧ (t.dev.grp w g).txCells = (s.dev.grp w g).txCells ∧ s.dev.Only [] [] t.dev)
/-! ### Shared-fibre and point-to-point operation (05_shared_fibre) -/

/-- A terminal comes up and is released (R142, R144, R147 to R150): DISCOVER, RANGE, SILENCE with its expiry, and RELEASE.
The clauses rest on the model's choices of log 5, 32. -/
def Obligations.TerminalIsBroughtUp : Prop :=
  (∀ (w : Fin 2) (peqd : BitVec 24) (rspread : BitVec 16) (alen bkmax : Byte) (e : Nat) (s : State),
    (s.dev.wave w).leaf = true → s.dev.get (F.lfActStatState w) = 1 → s.dev.get (F.lfActCfgActen w) = 1 →
    s.dev.get F.hrtPwrStateCur ≠ 1 → s.dev.serving w = some e → s.dev.get (F.leRxcStatSettled e) = 1 →
    6 ≤ alen.toNat → alen.toNat ≤ 32 →
    ∃ t, exec (.discover w peqd rspread alen bkmax) s = .next t ∧ t.dev.get (F.lfActStatState w) = 2
      ∧ (t.dev.wave w).peqd = peqd.toNat ∧ (t.dev.wave w).rspread = rspread.toNat ∧ (t.dev.wave w).alen = alen.toNat
      ∧ (t.dev.wave w).bkmax = bkmax.toNat ∧ s.dev.Raised (0x70 + w) t.dev ∧ s.dev.Only [R.lfActStat w] [0x70 + w] t.dev)
  ∧ (∀ (w : Fin 2) (eqd rtd : BitVec 24) (esfn : Word) (s : State), (s.dev.wave w).leaf = true →
    3 ≤ s.dev.get (F.lfActStatState w) → s.dev.get (F.lfActStatState w) ≤ 5 →
    ∃ t, exec (.range w eqd rtd esfn) s = .next t ∧ t.dev.get (F.lfActEqdEqd w) = eqd.toNat
      ∧ t.dev.get (F.lfActRtdRtd w) = rtd.toNat
      ∧ (t.dev.wave w).ctrlQ = (s.dev.wave w).ctrlQ
          ++ [⟨0x42, (s.dev.wave w).mseq, beBytes 3 eqd.toNat ++ beBytes 4 esfn.toNat, some esfn.toNat⟩]
      ∧ (t.dev.wave w).eqdFor esfn.toNat = eqd.toNat ∧ s.dev.Raised (0x76 + w) t.dev
      ∧ s.dev.Only [R.lfActEqd w, R.lfActRtd w] [0x76 + w] t.dev)
  ∧ (∀ (w : Fin 2) (tid : BitVec 12) (dur : BitVec 16) (s : State), (s.dev.wave w).leaf = true →
    2 ≤ s.dev.get (F.lfActStatState w) → s.dev.get (F.lfActStatState w) ≤ 4 → tid.toNat = 0xFFF → dur.toNat ≠ 0 →
    ∃ t, exec (.silence w tid dur) s = .next t ∧ t.dev.get (F.lfActStatState w) = 5
      ∧ t.dev.get (F.lfActStatRet w) = s.dev.get (F.lfActStatState w) ∧ t.dev.get (F.lfActStatSilhe w) = 1
      ∧ t.dev.get (F.lfActStatSilrem w) = dur.toNat ∧ (t.dev.wave w).burstsOn = []
      ∧ (s.dev.get (F.lfActStatSilhe w) = 0 → s.dev.Raised (0x7A + w) t.dev))
  ∧ (∀ (w : Fin 2) (s : State), s.dev.get (F.lfActStatState w) = 5 → s.dev.get (F.lfActStatSilsp w) = 0 →
    s.dev.get (F.lfActStatRet w) ≠ 5 →
    ∃ t, exec (.silenceExpiry w) s = .next t ∧ t.dev.get (F.lfActStatState w) = s.dev.get (F.lfActStatRet w)
      ∧ t.dev.get (F.lfActStatSilhe w) = 0 ∧ t.dev.get (F.lfActStatSilrem w) = 0 ∧ s.dev.Raised (0x70 + w) t.dev
      ∧ s.dev.Only [R.lfActStat w] [0x70 + w] t.dev)
  ∧ (∀ (w : Fin 2) (reason : Byte) (s : State), (s.dev.wave w).leaf = true →
    (s.dev.get (F.lfActStatState w) = 3 ∨ s.dev.get (F.lfActStatState w) = 4) →
    ∃ t, exec (.release w reason) s = .next t ∧ t.dev.get (F.lfActStatState w) = 1 ∧ t.dev.get (F.lfActIdTid w) = 0
      ∧ (t.dev.wave w).grants = [] ∧ (t.dev.wave w).burstsOn = [] ∧ (t.dev.wave w).relReason = reason.toNat
      ∧ s.dev.Raised (0x7E + w) t.dev ∧ s.dev.Raised (0x70 + w) t.dev)

/-- R145 whole: an ASSIGN_ID with the terminal's serial number takes effect on delivery in DISCOVERY, and one with another
serial number, or delivered in another state, changes nothing. A TID of 0 or 0xFFF and one of more than 12 bits fail
the check of R141 before. -/
def Obligations.AssignIdTakesEffectOnDelivery : Prop :=
  (∀ (w : Fin 2) (serial : BitVec 64) (tid : BitVec 16) (s : State), (s.dev.wave w).leaf = true →
    s.dev.get (F.lfActStatState w) = 2 → serial.toNat = s.fuses.serial → tid.toNat ≠ 0 → tid.toNat < 0xFFF →
    ∃ t, exec (.assignId w serial tid) s = .next t ∧ t.dev.get (F.lfActStatState w) = 3
      ∧ t.dev.get (F.lfActIdTid w) = tid.toNat ∧ s.dev.Raised (0x70 + w) t.dev ∧ s.dev.Raised (0x74 + w) t.dev
      ∧ s.dev.Only [R.lfActStat w, R.lfActId w] [0x70 + w, 0x74 + w] t.dev)
  ∧ (∀ (w : Fin 2) (serial : BitVec 64) (tid : BitVec 16) (s : State), (s.dev.wave w).leaf = true →
    serial.toNat ≠ s.fuses.serial → tid.toNat ≠ 0 → tid.toNat < 0xFFF →
    ∃ t, exec (.assignId w serial tid) s = .next t ∧ t.dev = { s.dev with out := [] } ∧ t.outputs = s.outputs)
  ∧ (∀ (w : Fin 2) (serial : BitVec 64) (tid : BitVec 16) (s : State), (s.dev.wave w).leaf = true →
    s.dev.get (F.lfActStatState w) ≠ 2 → serial.toNat = s.fuses.serial → tid.toNat ≠ 0 → tid.toNat < 0xFFF →
    ∃ t, exec (.assignId w serial tid) s = .next t ∧ t.dev = { s.dev with out := [] } ∧ t.outputs = s.outputs)

/-- The timers of activation (R142, R144, R148), the transmit police (R167), and the host's RESUME and DEACT (R149, R150).
The clauses rest on the model's choices of log 5. -/
def Obligations.ActivationTimersAndHostAct : Prop :=
  (∀ (w : Fin 2) (s : State), s.dev.get (F.lfActStatState w) = 2 →
    ∃ t, exec (.disctoExpiry w) s = .next t ∧ t.dev.get (F.lfActStatState w) = 1 ∧ s.dev.Raised (0x78 + w) t.dev
      ∧ s.dev.Raised (0x70 + w) t.dev ∧ s.dev.Only [R.lfActStat w] [0x70 + w, 0x78 + w] t.dev)
  ∧ (∀ (w : Fin 2) (s : State), (s.dev.wave w).announced = true →
    ∃ t, exec (.idtoExpiry w) s = .next t ∧ (t.dev.wave w).announced = false ∧ (t.dev.wave w).skip ≤ (s.dev.wave w).bkmax
      ∧ s.dev.Raised (0x78 + w) t.dev ∧ s.dev.Only [] [0x78 + w] t.dev)
  ∧ (∀ (w : Fin 2) (s : State), (s.dev.wave w).eqds ≠ [] →
    ∃ t, exec (.rngtoExpiry w) s = .next t ∧ t.dev.get (F.lfActStatState w) = s.dev.get (F.lfActStatState w)
      ∧ s.dev.Only [] [] t.dev)
  ∧ (∀ (w : Fin 2) (s : State), s.dev.get (F.lfActStatState w) = 3 → (s.dev.wave w).eqds = [] →
    ∃ t, exec (.rngtoExpiry w) s = .next t ∧ t.dev.get (F.lfActStatState w) = 2 ∧ t.dev.get (F.lfActIdTid w) = 0
      ∧ s.dev.Raised (0x78 + w) t.dev ∧ s.dev.Only [R.lfActStat w, R.lfActId w] [0x70 + w, 0x78 + w] t.dev)
  ∧ (∀ (w : Fin 2) (s : State), s.dev.get (F.lfActStatState w) = 4 →
    ∃ t, exec (.losttoExpiry w) s = .next t ∧ t.dev.get (F.lfActStatState w) = 1 ∧ t.dev.get (F.lfActIdTid w) = 0
      ∧ s.dev.Raised (0x78 + w) t.dev ∧ s.dev.Only [R.lfActStat w, R.lfActId w] [0x70 + w, 0x78 + w] t.dev)
  ∧ (∀ (w : Fin 2) (s : State), s.dev.get (F.lfActStatDsloss w) = 1 →
    ∃ t, exec (.blosstoExpiry w) s = .next t ∧ t.dev.get (F.lfActStatState w) = 0 ∧ t.dev.get (F.lfActStatDsloss w) = 0
      ∧ t.dev.get (F.lfActIdTid w) = 0 ∧ s.dev.Raised (0x78 + w) t.dev
      ∧ s.dev.Only [R.lfActStat w, R.lfActId w] [0x70 + w, 0x78 + w] t.dev)
  ∧ (∀ (w : Fin 2) (s : State), (s.dev.wave w).leaf = true → (s.dev.wave w).burstsOn.any s.dev.burstOpen = false →
    ∃ t, exec (.txPolice w) s = .next t ∧ t.dev.get (F.lfActStatState w) = 5 ∧ t.dev.get (F.lfActStatSilsp w) = 1
      ∧ (s.dev.get (F.lfActStatState w) ≠ 5 → t.dev.get (F.lfActStatRet w) = s.dev.get (F.lfActStatState w))
      ∧ s.dev.Raised (0x7C + w) t.dev)
  ∧ (∀ (w : Fin 2) (s : State), s.dev.Takes (R.lfActCtl w) (s.dev.withField (F.lfActCtlResume w) 1) →
    s.dev.get (F.lfActStatState w) = 5 → s.dev.get (F.lfActStatSilhe w) = 0 → s.dev.get (F.lfActStatRet w) ≠ 5 →
    ∃ t, exec (.resume w) s = .next t ∧ t.outputs.head? = some (.writeDone (R.lfActCtl w) 0)
      ∧ t.dev.get (F.lfActStatSilsp w) = 0 ∧ t.dev.get (F.lfActStatState w) = s.dev.get (F.lfActStatRet w))
  ∧ (∀ (w : Fin 2) (s : State), s.dev.Takes (R.lfActCtl w) (s.dev.withField (F.lfActCtlDeact w) 1) →
    (s.dev.get (F.lfActStatState w) = 3 ∨ s.dev.get (F.lfActStatState w) = 4) →
    ∃ t, exec (.deact w) s = .next t ∧ t.outputs.head? = some (.writeDone (R.lfActCtl w) 0)
      ∧ t.dev.get (F.lfActStatState w) = 1 ∧ t.dev.get (F.lfActIdTid w) = 0 ∧ (t.dev.wave w).grants = [])

/-- Grants and bursts (R151 to R160): good grants join the table, those of a late map are counted, a burst starts at its
grant with its header and ends it. The clauses rest on the model's choices of log 24, 72. -/
def Obligations.GrantsBecomeBursts : Prop :=
  (∀ (w : Fin 2) (tsfn : Word) (g : GrantIn) (s : State), (s.dev.wave w).leaf = true →
    2 ≤ s.dev.get (F.lfActStatState w) → s.dev.get (F.lfActStatState w) ≤ 4 → s.dev.get (F.lfActStatDsloss w) = 0 →
    g.tid = s.dev.get (F.lfActIdTid w) → g.tid ≠ 0 → g.tid ≠ 0xFFF →
    (sfnSub tsfn.toNat (s.dev.beaconSfn w) = 1 ∨ sfnSub tsfn.toNat (s.dev.beaconSfn w) = 2) → 2 ≤ g.len →
    g.start + g.len ≤ 1024 → (s.dev.txSet w).testBit g.sc = true → g.rng = true → (s.dev.wave w).grants = [] →
    (s.dev.wave w).grantsSeen tsfn.toNat < 64 →
    ∃ t, exec (.grantMap w tsfn [g]) s = .next t
      ∧ (t.dev.wave w).grants = [⟨tsfn.toNat, g.sc, g.start, g.len, true, g.srq, false⟩]
      ∧ (t.dev.wave w).grantsSeen tsfn.toNat = (s.dev.wave w).grantsSeen tsfn.toNat + 1 ∧ s.dev.Only [] [] t.dev)
  ∧ (∀ (w : Fin 2) (tsfn : Word) (gs : List GrantIn) (s : State), (s.dev.wave w).leaf = true →
    2 ≤ s.dev.get (F.lfActStatState w) → s.dev.get (F.lfActStatState w) ≤ 4 → s.dev.get (F.lfActStatDsloss w) = 0 →
    gs ≠ [] → gs.length ≤ 39 → s.dev.get (F.lfActIdTid w) ≠ 0 → s.dev.get (F.lfActIdTid w) ≠ 0xFFF →
    (∀ g ∈ gs, g.tid = s.dev.get (F.lfActIdTid w) ∧ 2 ≤ g.len ∧ g.start + g.len ≤ 1024 ∧ (s.dev.txSet w).testBit g.sc = true
      ∧ g.rng = true) → gs.Pairwise (fun a b => a.sc ≠ b.sc) →
    (sfnSub tsfn.toNat (s.dev.beaconSfn w) = 1 ∨ sfnSub tsfn.toNat (s.dev.beaconSfn w) = 2) → (s.dev.wave w).grants = [] →
    (s.dev.wave w).grantsSeen tsfn.toNat + gs.length ≤ 64 →
    ∃ t, exec (.grantMap w tsfn gs) s = .next t
      ∧ (t.dev.wave w).grants = gs.map (fun g => ⟨tsfn.toNat, g.sc, g.start, g.len, true, g.srq, false⟩)
      ∧ (t.dev.wave w).grantsSeen tsfn.toNat = (s.dev.wave w).grantsSeen tsfn.toNat + gs.length ∧ s.dev.Only [] [] t.dev)
  ∧ (∀ (w : Fin 2) (tsfn : Word) (gs : List GrantIn) (s : State), (s.dev.wave w).leaf = true →
    2 ≤ s.dev.get (F.lfActStatState w) → s.dev.get (F.lfActStatState w) ≤ 4 → gs.length ≤ 39 → s.dev.get (F.lfActIdTid w) ≠ 0 →
    (∃ g ∈ gs, g.tid = s.dev.get (F.lfActIdTid w)) →
    sfnSub tsfn.toNat (s.dev.beaconSfn w) ≠ 1 → sfnSub tsfn.toNat (s.dev.beaconSfn w) ≠ 2 →
    ∃ t, exec (.grantMap w tsfn gs) s = .next t
      ∧ t.dev.get (F.lfGntErrLate w) = satAdd 8 (s.dev.get (F.lfGntErrLate w))
          (gs.filter fun g => g.tid == s.dev.get (F.lfActIdTid w)).length
      ∧ (t.dev.wave w).grants = (s.dev.wave w).grants ∧ s.dev.Only [R.lfGntErr w] [0x80 + w] t.dev)
  ∧ (∀ (w : Fin 2) (tsfn : Word) (g : GrantIn) (s : State), (s.dev.wave w).leaf = true →
    2 ≤ s.dev.get (F.lfActStatState w) → s.dev.get (F.lfActStatState w) ≤ 4 → g.tid = s.dev.get (F.lfActIdTid w) → g.tid ≠ 0 →
    sfnSub tsfn.toNat (s.dev.beaconSfn w) ≠ 1 → sfnSub tsfn.toNat (s.dev.beaconSfn w) ≠ 2 →
    ∃ t, exec (.grantMap w tsfn [g]) s = .next t
      ∧ t.dev.get (F.lfGntErrLate w) = satAdd 8 (s.dev.get (F.lfGntErrLate w)) 1
      ∧ (t.dev.wave w).grants = (s.dev.wave w).grants ∧ s.dev.Raised (0x80 + w) t.dev
      ∧ s.dev.Only [R.lfGntErr w] [0x80 + w] t.dev)
  ∧ (∀ (w : Fin 2) (tsfn : Word) (g : GrantIn) (s : State), (s.dev.wave w).leaf = true →
    s.dev.get (F.lfActStatState w) = 5 → g.tid = s.dev.get (F.lfActIdTid w) → g.tid ≠ 0 →
    sfnSub tsfn.toNat (s.dev.beaconSfn w) ≠ 1 → sfnSub tsfn.toNat (s.dev.beaconSfn w) ≠ 2 →
    ∃ t, exec (.grantMap w tsfn [g]) s = .next t
      ∧ t.dev.get (F.lfGntErrLate w) = satAdd 8 (s.dev.get (F.lfGntErrLate w)) 1
      ∧ (t.dev.wave w).grants = (s.dev.wave w).grants ∧ s.dev.Only [R.lfGntErr w] [] t.dev)
  ∧ (∀ (w : Fin 2) (sc : Fin 32) (tsfn : Word) (start : BitVec 10) (mism : List Nat) (g : Grant) (e : Nat) (s : State),
    (s.dev.wave w).grants = [g] → g.sc = sc.val → g.tsfn = tsfn.toNat → g.start = start.toNat → g.rng = true →
    g.disc = false → g.srq = false → s.dev.get (F.lfActStatState w) = 3 → s.dev.get (F.lfActStatDsloss w) = 0 →
    s.dev.get (F.lfActStatSilsp w) = 0 → s.dev.get (F.lfActStatSilhe w) = 0 → (s.dev.wave w).dsBack = none →
    (s.dev.wave w).gap = false → (s.dev.wave w).txCut = false → (s.dev.wave w).txNext = none → s.dev.lineOk w = true →
    s.dev.serving w = some e → (s.dev.eng e).muteOut = false →
    (s.dev.wave w).burstsOn = [] → s.dev.InjIdle (96 + 32 * w + sc) →
    ∃ t cells, exec (.burstStart w sc tsfn start mism) s = .next t
      ∧ t.outputs = .burst w sc (BitVec.ofNat 176 (burstHeader (s.dev.get (F.lfActIdTid w)) (s.dev.wave w).bseq 0 false true
          (burstShape g.len 0).1)) cells :: s.outputs
      ∧ cells.length = (burstShape g.len 0).2
      ∧ (t.dev.wave w).burstsOn = [⟨g, s.dev.burstAt w g 0, s.dev.time.ticks⟩] ∧ (t.dev.wave w).grants = []
      ∧ (t.dev.wave w).bseq = ((s.dev.wave w).bseq + 1) % 256)
  ∧ (∀ (w : Fin 2) (sc : Fin 32) (tsfn : Word) (start : BitVec 10) (b : BurstOn) (s : State),
    (s.dev.wave w).burstsOn = [b] → b.grant.sc = sc.val → b.grant.tsfn = tsfn.toNat → b.grant.start = start.toNat →
    ∃ t, exec (.burstEnd w sc tsfn start) s = .next t ∧ (t.dev.wave w).burstsOn = []
      ∧ t.dev.get (F.lfGntBurstsBursts w) = satAdd 32 (s.dev.get (F.lfGntBurstsBursts w)) 1
      ∧ s.dev.Only [R.lfGntBursts w, R.leTxcStat 0, R.leTxcStat 1, R.leTxcStat 2] [] t.dev)

/-- Profile changes and their answers (R139, R162 to R165): accepted and answered, refused with a code, applied at their
superframe, proposed by the host, and settled by ACK or expiry. The clauses rest on the model's choices of log 26, 32. -/
def Obligations.ProfileChangesAreAgreed : Prop :=
  (∀ (w : Fin 2) (tid : BitVec 12) (mseq : BitVec 16) (esfn : Word) (mdir : Byte) (mask : Word) (codes : List Byte)
    (s : State), (s.dev.wave w).leaf = false → (s.dev.wave w).proposal = none → mdir.toNat ≤ 1 →
    s.dev.profResult w mdir.toNat mask.toNat esfn.toNat (codes.map (·.toNat)) = 0 →
    ∃ t, exec (.profileChange w tid mseq esfn mdir 0 mask codes) s = .next t
      ∧ (∀ k < 32, mask.getLsbD k = true →
          ⟨mdir.toNat, k, (codes.map (·.toNat)).getD k 0, esfn.toNat, false⟩ ∈ (t.dev.wave w).pend)
      ∧ (t.dev.wave w).ctrlQ = (s.dev.wave w).ctrlQ
          ++ [⟨0x44, (s.dev.wave w).mseq, beBytes 1 4 ++ beBytes 2 mseq.toNat ++ beBytes 1 0 ++ beBytes 4 esfn.toNat, none⟩])
  ∧ (∀ (w : Fin 2) (tid : BitVec 12) (mseq : BitVec 16) (esfn : Word) (mdir op : Byte) (mask : Word) (codes : List Byte)
    (s : State), (s.dev.wave w).leaf = false → (s.dev.wave w).proposal = none → mdir.toNat ≤ 1 → op.toNat ≤ 1 →
    s.dev.profResult w mdir.toNat mask.toNat esfn.toNat (codes.map (·.toNat)) ≠ 0 →
    ∃ t, exec (.profileChange w tid mseq esfn mdir op mask codes) s = .next t
      ∧ t.dev.get (F.lfCtlErrRef w) = satAdd 8 (s.dev.get (F.lfCtlErrRef w)) 1 ∧ s.dev.Raised (0x86 + w) t.dev
      ∧ (t.dev.wave w).pend = (s.dev.wave w).pend
      ∧ (t.dev.wave w).ctrlQ.length = (s.dev.wave w).ctrlQ.length + 1 ∧ s.dev.Only [R.lfCtlErr w] [0x86 + w] t.dev)
  ∧ (∀ (w : Fin 2) (dir : Fin 2) (sfn : Word) (p : ProfPend) (e : Nat) (s : State), (s.dev.wave w).pend = [p] →
    p.dir = dir.val → sfnGe sfn.toNat p.esfn = true → p.sc < 32 → p.code < 256 → (s.dev.wave w).txCut = false →
    s.dev.serving w = some e → s.dev.receivers w = [e] →
    ∃ t, exec (.txProfileApply w dir sfn) s = .next t ∧ (t.dev.wave w).pend = [] ∧ (t.dev.wave w).code dir p.sc = p.code
      ∧ t.dev.get (if dir = 0 then F.leRxsLlrcfgProfile e p.sc else F.leTxsProfCur e p.sc) = p.code
      ∧ (dir = 1 → t.dev.get (F.leTxsProfNextv e p.sc) = 0))
  ∧ (∀ (w : Fin 2) (amseq : BitVec 16) (result : Byte) (esfn : Word) (p : Proposal) (s : State), (s.dev.wave w).leaf = false →
    (s.dev.wave w).proposal = some p → p.mseq = amseq.toNat → result.toNat ≠ 0 → result.toNat ≤ 6 →
    ∃ t, exec (.ack w 4 amseq result esfn) s = .next t ∧ (t.dev.wave w).proposal = none
      ∧ t.dev.get (F.lfPrfStatBusy w) = 0 ∧ t.dev.get (F.lfPrfStatResult w) = 2
      ∧ t.dev.get (F.lfPrfStatRcode w) = result.toNat ∧ s.dev.Raised (0x86 + w) t.dev
      ∧ s.dev.Only [R.lfPrfStat w, R.lfCtlErr w] [0x86 + w] t.dev)
  ∧ (∀ (w : Fin 2) (s : State),
    ∃ t, exec (.ackResend w) s = .next t
      ∧ (t.dev.wave w).acks = (s.dev.wave w).acks.filter (fun a => !sfnGe (s.dev.dirSfn w a.dir) a.esfn)
      ∧ (t.dev.wave w).ctrlQ = (s.dev.wave w).ctrlQ
          ++ (t.dev.wave w).acks.map (fun a => ⟨0x44, a.mseq, ackBody a.mtype a.amseq 0 a.esfn, none⟩)
      ∧ s.dev.Only [] [] t.dev)
  ∧ (∀ (w : Fin 2) (v : Word) (s : State), s.dev.Takes (R.lfPrfReq w) ((F.lfPrfReqGo w).put v 1) →
    ∃ t, exec (.prfReqGo w v) s = .next t ∧ t.outputs = .writeDone (R.lfPrfReq w) 0 :: s.outputs
      ∧ t.dev.get (F.lfPrfStatBusy w) = 1 ∧ (t.dev.wave w).ctrlQ.length = (s.dev.wave w).ctrlQ.length + 1
      ∧ ((t.dev.wave w).proposal.map (·.mseq)) = some (s.dev.wave w).mseq
      ∧ s.dev.Only [R.lfPrfReq w, R.lfPrfStat w, R.lfPrfEsfn w] [] t.dev)
  ∧ (∀ (w : Fin 2) (p : Proposal) (s : State), (s.dev.wave w).proposal = some p → p.acked = false →
    ∃ t, exec (.prfProposalExpire w) s = .next t ∧ (t.dev.wave w).proposal = none ∧ t.dev.get (F.lfPrfStatBusy w) = 0
      ∧ t.dev.get (F.lfPrfStatResult w) = 3 ∧ s.dev.Raised (0x8E + w) t.dev
      ∧ s.dev.Only [R.lfPrfStat w] [0x8E + w] t.dev)

/-! ### Line encryption and time of day on the line (06_line_encryption, 05_shared_fibre) -/

/-- Key switches and keys (R139, R140, R165, R168, R185, R187 to R189): agreed, proposed, applied; loaded from the staging
registers, which then read zero, and erased. The clauses rest on the model's choices of log 39. -/
def Obligations.KeysAreLoadedAndSwitched : Prop :=
  (∀ (w : Fin 2) (tid : BitVec 12) (mseq : BitVec 16) (gid kidx : Byte) (esfn : Word) (s : State),
    (s.dev.wave w).leaf = false → (s.dev.wave w).keyProposal = none → gid.toNat ≤ 31 → kidx.toNat ≤ 1 →
    s.dev.keyResult w 1 gid.toNat kidx.toNat esfn.toNat = 0 →
    ∃ t, exec (.keySwitch w tid mseq gid 1 kidx esfn) s = .next t
      ∧ ⟨1, gid.toNat, kidx.toNat, esfn.toNat⟩ ∈ (t.dev.wave w).keyPend
      ∧ (t.dev.wave w).ctrlQ = (s.dev.wave w).ctrlQ
          ++ [⟨0x44, (s.dev.wave w).mseq, beBytes 1 5 ++ beBytes 2 mseq.toNat ++ beBytes 1 0 ++ beBytes 4 esfn.toNat, none⟩]
      ∧ s.dev.Only [] [] t.dev)
  ∧ (∀ (w : Fin 2) (amseq : BitVec 16) (esfn : Word) (p : KeyProposal) (s : State), (s.dev.wave w).leaf = false →
    (s.dev.wave w).keyProposal = some p → p.mseq = amseq.toNat → p.dir = 1 → p.acked = false →
    ∃ t, exec (.ack w 5 amseq 0 esfn) s = .next t ∧ ⟨1, p.gid, p.kidx, p.esfn⟩ ∈ (t.dev.wave w).keyPend
      ∧ t.dev.get (F.lfCryKswstatRcode w) = 0 ∧ s.dev.Only [R.lfCryKswstat w] [] t.dev)
  ∧ (∀ (w : Fin 2) (v : Word) (s : State), s.dev.Takes (R.lfCryKsw w) ((F.lfCryKswGo w).put v 1) →
    ∃ t, exec (.kswGo w v) s = .next t ∧ t.outputs = .writeDone (R.lfCryKsw w) 0 :: s.outputs
      ∧ t.dev.get (F.lfCryKswstatBusy w) = 1 ∧ (t.dev.wave w).ctrlQ.length = (s.dev.wave w).ctrlQ.length + 1
      ∧ ((t.dev.wave w).keyProposal.map (·.mseq)) = some (s.dev.wave w).mseq
      ∧ s.dev.Only [R.lfCryKsw w, R.lfCryKswstat w] [] t.dev)
  ∧ (∀ (w : Fin 2) (sfn : Word) (p : KeyPend) (s : State), (s.dev.wave w).keyPend = [p] → p.dir = 1 →
    sfnGe sfn.toNat p.esfn = true → (s.dev.wave w).keyProposal = none → p.gid < 32 → p.kidx < 2 →
    ((s.dev.cry w p.gid).tx p.kidx).loaded = true → ((s.dev.cry w p.gid).tx p.kidx).spent = false →
    ∃ t, exec (.keySwitchApply w 1 sfn) s = .next t ∧ (t.dev.wave w).keyPend = []
      ∧ t.dev.get (F.lfCrytStatSlot w p.gid) = p.kidx ∧ s.dev.Raised (0x9C + w) t.dev
      ∧ s.dev.Only [R.lfCrytStat w p.gid, R.lfCryrStat w p.gid, R.lfCrytGctrlo w p.gid, R.lfCrytGctrhi w p.gid] [0x9C + w] t.dev)
  ∧ (∀ (w : Fin 2) (v : Word) (s : State), s.dev.Takes (R.lfCryKcmd w) (kcmdWord w v 0) →
    (F.lfCryKcmdDir w).of v = 1 → (F.lfCryKcmdSlot w).of v = 0 →
    ∃ t, exec (.keyLoad w v) s = .next t ∧ t.outputs = .writeDone (R.lfCryKcmd w) 0 :: s.outputs
      ∧ t.dev.get (F.lfCryrStatLd0 w ((F.lfCryKcmdGid w).of v)) = 1
      ∧ (t.dev.cry w ((F.lfCryKcmdGid w).of v)).rx0.key
          = (List.range 8).flatMap (fun i => beBytes 4 (s.dev.get (F.lfCryKeywKeyw w i)))
      ∧ (∀ i < 8, t.dev.get (F.lfCryKeywKeyw w i) = 0) ∧ t.dev.get (F.lfCrySaltSalt w) = 0)
  ∧ (∀ (w : Fin 2) (v : Word) (s : State), s.dev.Takes (R.lfCryKcmd w) (kcmdWord w v 1) →
    (F.lfCryKcmdDir w).of v = 1 → (F.lfCryKcmdSlot w).of v = 1 →
    ∃ t, exec (.keyErase w v) s = .next t ∧ t.outputs = .writeDone (R.lfCryKcmd w) 0 :: s.outputs
      ∧ t.dev.get (F.lfCryrStatLd1 w ((F.lfCryKcmdGid w).of v)) = 0
      ∧ (t.dev.cry w ((F.lfCryKcmdGid w).of v)).rx1 = {})

/-- Sealing, tags and faults of the streams (R180 to R186, R191, R192): one counter value a group, a halt at the second
mismatch, a tag without its key, and the ways out of a halt and of a fault. Each of the five commands completes in
every state, and changes nothing where there is nothing for it to do. The clauses rest on the model's choices of log
7, 34, 80. -/
def Obligations.StreamsSealAndRecover : Prop :=
  (∀ (i : Instr) (s : State),
    (match i with
      | .sealGroup .. | .urgentPair .. | .tagRx .. | .haltResume .. | .cryClrflt .. => True
      | _ => False) →
    ∃ t, exec i s = .next t ∧ t.fuses = s.fuses ∧ t.pending = s.pending)
  ∧ (∀ (w : Fin 2) (g : Fin 32) (mismatches : Nat) (s : State),
    ((s.dev.wave w).leaf = true ∨ s.dev.sealing w g = false) →
    exec (.sealGroup w g mismatches) s = .next { s with dev := s.dev.setOut [] })
  ∧ (∀ (w : Fin 2) (g : Fin 32) (mismatches : Nat) (s : State),
    (s.dev.sealing w g = false ∨ s.dev.carriesCtrl w g = false ∨ s.dev.get (F.lfCryCfgUrgctl w) = 0
      ∨ (s.dev.wave w).gap = true ∨ (s.dev.wave w).ctrlQ = []) →
    exec (.urgentPair w g mismatches) s = .next { s with dev := s.dev.setOut [] })
  ∧ (∀ (w : Fin 2) (sc : Fin 32) (k : Nat) (cell : List Byte) (mismatches : Nat) (s : State), cell.length = 256 →
    ((cellHdr cell).type ≠ 7 ∨ s.dev.rxGroup w sc = none ∨ ((s.dev.wave w).gap = false ∧ s.dev.lineOk w = false)) →
    exec (.tagRx w sc k cell mismatches) s = .next { s with dev := s.dev.setOut [] })
  ∧ (∀ (w : Fin 2) (g : Fin 32) (s : State), (s.dev.cry w g).resume = none →
    exec (.haltResume w g) s = .next { s with dev := s.dev.setOut [] })
  ∧ (∀ (w : Fin 2) (g : Fin 32) (s : State), (s.dev.wave w).leaf = false → s.dev.sealing w g = true →
    s.dev.carriesCtrl w g = false → (s.dev.grp w g).txCells = [] →
    ((s.dev.cry w g).tx (s.dev.get (F.lfCrytStatSlot w g))).ctr < 2 ^ 48 - 1 →
    ∃ t q, exec (.sealGroup w g 0) s = .next t ∧ (t.dev.grp w g).groups = (s.dev.grp w g).groups ++ [q]
      ∧ q.gctr = ((s.dev.cry w g).tx (s.dev.get (F.lfCrytStatSlot w g))).ctr ∧ q.cells.length = 31
      ∧ ((t.dev.cry w g).tx (s.dev.get (F.lfCrytStatSlot w g))).ctr = q.gctr + 1
      ∧ t.dev.get (F.lfCrytGctrloGctr w g) = (q.gctr + 1) % 2 ^ 32)
  ∧ (∀ (w : Fin 2) (g : Fin 32) (mismatches : Nat) (s : State), (s.dev.wave w).leaf = false → s.dev.sealing w g = true →
    s.dev.carriesCtrl w g = false → (s.dev.grp w g).txCells = [] → 2 ≤ mismatches →
    ∃ t, exec (.sealGroup w g mismatches) s = .next t ∧ t.dev.get (F.lfCrytStatHalt w g) = 2
      ∧ (t.dev.grp w g).groups = (s.dev.grp w g).groups
      ∧ t.dev.get (F.lfCrytStatRecomp w g) = satAdd 16 (s.dev.get (F.lfCrytStatRecomp w g)) 1
      ∧ s.dev.Raised (0x98 + w) t.dev ∧ s.dev.Raised (0x9A + w) t.dev)
  ∧ (∀ (w : Fin 2) (g : Fin 32) (m : CtrlOut) (rest : List CtrlOut) (s : State), s.dev.sealing w g = true →
    s.dev.carriesCtrl w g = true → s.dev.get (F.lfCryCfgUrgctl w) = 1 → (s.dev.wave w).gap = false →
    (s.dev.wave w).ctrlQ = m :: rest →
    ∃ t q, exec (.urgentPair w g 0) s = .next t ∧ (t.dev.wave w).ctrlQ = rest
      ∧ (t.dev.grp w g).urgent = (s.dev.grp w g).urgent ++ [q] ∧ q.urg = true ∧ q.cells = [ctrlCell 0xFFFFF 6 m]
      ∧ q.gctr = ((s.dev.cry w g).tx (s.dev.get (F.lfCrytStatSlot w g))).ctr)
  ∧ (∀ (w : Fin 2) (g : Nat) (sc : Fin 32) (k : Nat) (cell : List Byte) (mismatches : Nat) (s : State),
    s.dev.NextCell w g sc k → s.dev.encRx w g = true → cell.length = 256 → cellHecOk cell = true →
    (cellHdr cell).type = 7 → (cellHdr cell).len = 24 → (cellHdr cell).seq = s.dev.cellIndex w g sc k % 256 →
    (beAt (cell.drop 8) 6 1).testBit 1 = false →
    s.dev.get (F.lfCryrStatFault w g) = 0 → (s.dev.cry w g).accBad = false → (s.dev.cry w g).accLost = false →
    beAt (cell.drop 8) 7 1 = (s.dev.cry w g).acc.length → ((s.dev.cry w g).rx (beAt (cell.drop 8) 6 1 % 2)).loaded = false →
    ∃ t, exec (.tagRx w sc k cell mismatches) s = .next t ∧ (t.dev.cry w g).acc = []
      ∧ t.dev.get (F.lfCryrErrKeymiss w g) = satAdd 8 (s.dev.get (F.lfCryrErrKeymiss w g)) 1
      ∧ s.dev.Raised (0x92 + w) t.dev)
  ∧ (∀ (w : Fin 2) (g : Fin 32) (k : Nat) (s : State), (s.dev.cry w g).resume = some (k, true) → k < 2 →
    s.dev.get (F.lfCrytStatHalt w g) ≠ 0 →
    ∃ t, exec (.haltResume w g) s = .next t ∧ t.dev.get (F.lfCrytStatHalt w g) = 0
      ∧ t.dev.get (F.lfCrytStatSlot w g) = k ∧ (t.dev.cry w g).resume = none ∧ s.dev.Raised (0x9C + w) t.dev)
  ∧ (∀ (w : Fin 2) (g : Fin 32) (s : State), s.dev.Takes (R.lfCryrCtl w g) (s.dev.withField (F.lfCryrCtlClrflt w g) 1) →
    ∃ t, exec (.cryClrflt w g true) s = .next t ∧ t.outputs = .writeDone (R.lfCryrCtl w g) 0 :: s.outputs
      ∧ t.dev.get (F.lfCryrStatFault w g) = 0 ∧ (t.dev.cry w g).acc = (s.dev.cry w g).acc
      ∧ s.dev.Only [R.lfCryrCtl w g, R.lfCryrStat w g] [] t.dev)
  ∧ (∀ (w : Fin 2) (g : Fin 32) (s : State), s.dev.Takes (R.lfCrytCtl w g) (s.dev.withField (F.lfCrytCtlClrflt w g) 1) →
    s.dev.get (F.lfCrytStatHalt w g) = 2 → (s.dev.slotInUse w g).loaded = true → (s.dev.slotInUse w g).spent = false →
    ∃ t, exec (.cryClrflt w g false) s = .next t ∧ t.outputs = .writeDone (R.lfCrytCtl w g) 0 :: s.outputs
      ∧ ((t.dev.cry w g).resume.map (·.1)) = some (s.dev.get (F.lfCrytStatSlot w g)))


/-! ### Engine sparing (07_engine_sparing) -/

/-- A takeover (R198, R205, R207 to R209): the fault is recorded, the wavelength is in its gap, and the spare, where one
is available, comes in; its snapshot loads, it serves, and the first good line frame ends the gap, not before the
framer is in service (R384). The clauses rest on the model's choices of log 24, 35, 37, 79. -/
def Obligations.TheSpareTakesOver : Prop :=
  (∀ (e : Fin 3) (cause : Fin 8) (lost w i : Nat) (s : State), s.dev.Calm → s.dev.spr.move = none →
    s.dev.cordOn (1 + e) = true → s.dev.role e = 1 → s.dev.wlOf e = some w → s.dev.spare = some i →
    1 ≤ cause.val → cause.val ≤ 5 → s.dev.get (F.hrtSprEngFlt24 e) + 1 < s.dev.get F.hrtSprCfg2Fltmax →
    ∃ t, exec (.engineFault e cause none lost) s = .next t ∧ t.dev.role e = 2 ∧ t.dev.get (F.hrtSprEngCause e) = cause
      ∧ t.dev.get (F.hrtSprEngFlt24 e) = s.dev.get (F.hrtSprEngFlt24 e) + 1
      ∧ t.dev.get (F.hrtSprEngFltcnt e) = satAdd 8 (s.dev.get (F.hrtSprEngFltcnt e)) 1
      ∧ t.dev.get (F.hrtSprWllostTxlost w) = satAdd 32 (s.dev.get (F.hrtSprWllostTxlost w)) lost
      ∧ s.dev.Raised 0xA0 t.dev ∧ s.dev.Raised 0xA1 t.dev ∧ (t.dev.wave w).gap = true ∧ (t.dev.wave w).txCut = true
      ∧ t.dev.assigned w = none
      ∧ (t.dev.spr.move.map fun m => (m.kind, m.wl, m.inc, m.out)) = some (.takeover, w, i, e.val))
  ∧ (∀ (e : Fin 3) (cause : Fin 8) (lost w : Nat) (s : State), s.dev.Calm → s.dev.spr.move = none →
    s.dev.cordOn (1 + e) = true → s.dev.role e = 1 → s.dev.wlOf e = some w → s.dev.spare = none →
    1 ≤ cause.val → cause.val ≤ 5 → s.dev.get (F.hrtSprEngFlt24 e) + 1 < s.dev.get F.hrtSprCfg2Fltmax →
    ∃ t, exec (.engineFault e cause none lost) s = .next t ∧ t.dev.role e = 2 ∧ s.dev.Raised 0xA0 t.dev ∧ s.dev.Raised 0xA4 t.dev
      ∧ (t.dev.wave w).gap = true ∧ t.dev.assigned w = none ∧ w ∈ t.dev.spr.bare ∧ t.dev.spr.move = none
      ∧ t.dev.get F.hrtSprStatState = 5)
  ∧ (∀ (e : Fin 3) (m : Move) (s : State), s.dev.Calm → s.dev.spr.move = some m → m.inc = e.val → m.step = 1 → m.wl < 2 →
    m.kind = .takeover ∨ m.kind = .restore → (s.dev.spr1 e).loading = true → s.dev.cordOn (1 + e) = true →
    ∃ t, exec (.snapshotLoaded e) s = .next t ∧ t.dev.assigned m.wl = some e.val ∧ t.dev.spr.move = some { m with step := 2 }
      ∧ (t.dev.spr1 e).loading = false ∧ m.wl ∉ t.dev.spr.bare ∧ t.dev.serving m.wl = some e.val
      ∧ (t.dev.wave m.wl).txNext = some ⟨e, s.dev.time.ticks + 192, false⟩
      ∧ (s.dev.cordOn (4 + m.wl) = true → t.dev.get (F.cvSelStatRxeng m.wl) = e))
  ∧ (∀ (w : Fin 2) (gap : Nat) (m : Move) (s : State), s.dev.spr.move = some m → m.wl = w.val → m.step = 2 → m.kind = .takeover →
    (s.dev.wave w).gap = true → s.dev.get (F.leRxcStatAcq m.inc) = 6 → s.dev.released (6 + w) = true → s.dev.gapFrameGood w = true → s.dev.spr.next = none →
    ∃ t, exec (.takeoverGapEnd w gap) s = .next t ∧ (t.dev.wave w).gap = false ∧ t.dev.spr.move = none
      ∧ t.dev.get (F.hrtSprWlGap w) = min gap (2 ^ 24 - 1)
      ∧ t.dev.get (F.hrtSprWlTkcnt w) = satAdd 8 (s.dev.get (F.hrtSprWlTkcnt w)) 1
      ∧ t.dev.get F.hrtSprStatBusy = (if m.manual then 0 else s.dev.get F.hrtSprStatBusy) ∧ s.dev.Raised 0xA2 t.dev ∧ s.dev.Only [R.hrtSprWl w, R.hrtSprStat] [0xA2] t.dev)
  ∧ (∀ (w : Fin 2) (gap : Nat) (s : State), s.dev.released (6 + w) = false →
    ∃ t, exec (.takeoverGapEnd w gap) s = .next t ∧ t.dev.waves = s.dev.waves ∧ t.dev.spr = s.dev.spr ∧ s.dev.Only [] [] t.dev)
  ∧ (∀ (w : Fin 2) (s : State), (s.dev.wave w).gap = true → w.val ∉ s.dev.spr.late →
    ∃ t, exec (.sprGapLimit w) s = .next t ∧ t.dev.spr.late = s.dev.spr.late ++ [w.val] ∧ s.dev.Raised 0xA3 t.dev
      ∧ s.dev.Only [] [0xA3] t.dev)

/-- Restores and hitless moves (R209, R212, R213): what starts them, the overlap, the move of both directions, and the end
of one whose 64 line frames have passed. The clauses rest on the model's choices of log 35, 38, 79. -/
def Obligations.RestoresAndRevertsRun : Prop :=
  (∀ (w : Fin 2) (e : Nat) (s : State), s.dev.seasoned w = some e → w.val ∈ s.dev.spr.bare → s.dev.spr.move = none →
    s.dev.spr.bare.length < 2 ∨ s.dev.get F.hrtSprCfgPri = w →
    ∃ t, exec (.restore w) s = .next t ∧ s.dev.Raised 0xAE t.dev
      ∧ (t.dev.spr.move.map fun m => (m.kind, m.wl, m.inc, m.out)) = some (.restore, w.val, e, 3)
      ∧ t.dev.get F.hrtSprStatState = 5)
  ∧ (∀ (w : Fin 2) (e o : Nat) (s : State), s.dev.revertDue w = some e → s.dev.assigned w = some o → s.dev.revertFree w = true →
    (s.dev.wave w).gap = false → (s.dev.newest w).isSome = true →
    ∃ t, exec (.revertStart w) s = .next t ∧ s.dev.Raised 0xA8 t.dev
      ∧ (t.dev.spr.move.map fun m => (m.kind, m.wl, m.inc, m.out)) = some (.revert, w.val, e, o)
      ∧ t.dev.get F.hrtSprStatState = 4)
  ∧ (∀ (w : Fin 2) (e o : Nat) (s : State), s.dev.revertDue w = some e → s.dev.assigned w = some o → s.dev.revertFree w = true →
    (s.dev.wave w).gap = false → s.dev.newest w = none →
    ∃ t, exec (.revertStart w) s = .next t ∧ t.dev.get F.hrtSprStatNosnap = 1 ∧ t.dev.spr.move = none
      ∧ s.dev.Only [R.hrtSprStat] [] t.dev)
  ∧ (∀ (e : Fin 3) (m : Move) (n : Snap) (s : State), s.dev.Calm → s.dev.spr.move = some m → m.inc = e.val → m.step = 1 → m.wl < 2 →
    m.kind = .revert → (s.dev.spr1 e).loading = true → s.dev.cordOn (1 + e) = true → s.dev.cordOn (4 + m.wl) = true →
    s.dev.newest m.wl = some n →
    ∃ t, exec (.snapshotLoaded e) s = .next t ∧ t.dev.get (F.cvSelStatRxeng2 m.wl) = e ∧ t.dev.get (F.cvSelStatOverlap m.wl) = 1
      ∧ t.dev.spr.move = some { m with step := 2 } ∧ t.dev.assigned m.wl = s.dev.assigned m.wl)
  ∧ (∀ (w : Fin 2) (clean : Nat) (m : Move) (s : State), s.dev.Calm → s.dev.spr.move = some m → m.wl = w.val → m.step = 2 →
    m.kind ≠ .takeover → m.kind ≠ .restore → m.inc < 3 → m.out < 3 → m.inc ≠ m.out → s.dev.cordOn (4 + w) = true →
    s.dev.get (F.cvSelStatOverlap w) = 1 → s.dev.get (F.leRxcStatAcq m.inc) = 6 → s.dev.get F.hrtSprCfgRevq ≤ clean →
    s.dev.spr.next = none → (s.dev.wave w).leaf = false ∨ (s.dev.wave w).burstsOn = [] →
    ∃ t, exec (.revertMove w clean) s = .next t ∧ t.dev.assigned w = some m.inc ∧ t.dev.spr.move = none ∧ s.dev.Raised 0xA9 t.dev
      ∧ t.dev.get (F.cvSelStatRxeng w) = m.inc ∧ t.dev.get (F.cvSelStatTxeng w) = m.inc ∧ t.dev.get (F.cvSelStatRxeng2 w) = 3
      ∧ t.dev.get (F.cvSelStatOverlap w) = 0 ∧ t.dev.cordSt (1 + m.out) = 0
      ∧ t.dev.role m.out = (if m.kind = .switch ∨ m.kind = .reloadOut then 6 else 0))
  ∧ (∀ (w : Fin 2) (m : Move) (s : State), s.dev.Calm → s.dev.spr.move = some m → m.wl = w.val → m.step = 2 →
    m.kind ≠ .takeover → m.kind ≠ .restore → m.inc < 3 → s.dev.cordOn (4 + w) = true → s.dev.spr.next = none →
    ∃ t, exec (.revertTimeout w) s = .next t ∧ t.dev.spr.move = none ∧ s.dev.Raised 0xAA t.dev
      ∧ t.dev.assigned w = s.dev.assigned w ∧ t.dev.get (F.cvSelStatRxeng2 w) = 3 ∧ t.dev.get (F.cvSelStatOverlap w) = 0
      ∧ t.dev.role m.inc = (if m.role = 3 ∨ m.role = 6 then 3 else 0))

/-- Repair, seasoning, the spare's test, and the counts of an engine (R198, R202, R210, R211, R216, R391). The clauses
rest on the model's choices of log 37, 79. -/
def Obligations.RepairAndSeasoningRun : Prop :=
  (∀ (e : Fin 3) (s : State), s.dev.role e = 2 → s.dev.cordOn (1 + e) = true →
    ∃ t, exec (.repairSelfTestDone e true) s = .next t ∧ t.dev.role e = 3
      ∧ t.dev.get F.hrtSprStatSeasrem = s.dev.get F.hrtSprCfgWtr ∧ s.dev.Raised 0xA5 t.dev
      ∧ s.dev.Only [R.hrtSprEng e, R.hrtSprStat] [0xA5] t.dev)
  ∧ (∀ (e : Fin 3) (s : State), s.dev.role e = 2 → s.dev.cordOn (1 + e) = true →
    ∃ t, exec (.repairSelfTestDone e false) s = .next t ∧ t.dev.role e = 4 ∧ t.dev.cordSt (1 + e) = 5 ∧ s.dev.Raised 0xA6 t.dev)
  ∧ (∀ (e : Fin 3) (left : Nat) (again : Bool) (s : State), s.dev.role e = 3 → s.dev.cordOn (1 + e) = true →
    ∃ t, exec (.seasonPassDone e true left again) s = .next t ∧ (t.dev.spr1 e).pass = again ∧ t.dev.get F.hrtSprStatSeasrem = min left (s.dev.get F.hrtSprCfgWtr)
      ∧ s.dev.Only [R.hrtSprStat] [] t.dev)
  ∧ (∀ (e : Fin 3) (left : Nat) (again : Bool) (s : State), s.dev.role e = 3 → s.dev.cordOn (1 + e) = true →
    s.dev.get (F.hrtSprEngFlt24 e) + 1 < s.dev.get F.hrtSprCfg2Fltmax →
    ∃ t, exec (.seasonPassDone e false left again) s = .next t ∧ t.dev.role e = 2 ∧ s.dev.Raised 0xA7 t.dev
      ∧ t.dev.get (F.hrtSprEngFlt24 e) = s.dev.get (F.hrtSprEngFlt24 e) + 1 ∧ t.dev.get F.hrtSprStatSeasrem = 0)
  ∧ (∀ (e : Fin 3) (s : State), s.dev.role e = 3 → s.dev.cordOn (1 + e) = true →
    ∃ t, exec (.seasoningDone e) s = .next t ∧ t.dev.role e = 6 ∧ t.dev.get F.hrtSprStatSeasrem = 0
      ∧ s.dev.Only [R.hrtSprEng e, R.hrtSprStat] [] t.dev)
  ∧ (∀ (e : Fin 3) (s : State), ∃ t, exec (.flt24Expiry e) s = .next t
      ∧ t.dev.get (F.hrtSprEngFlt24 e) = s.dev.get (F.hrtSprEngFlt24 e) - 1 ∧ s.dev.Only [R.hrtSprEng e] [] t.dev)
  ∧ (∀ (e : Fin 3) (inSecond : Nat) (s : State), s.dev.waiting = [] → s.dev.cordOn (1 + e) = true →
    inSecond ≤ s.dev.get F.hrtSprCfg2Cethr →
    ∃ t, exec (.correctableEccError e inSecond) s = .next t
      ∧ t.dev.get (F.hrtSprEngCecnt e) = satAdd 8 (s.dev.get (F.hrtSprEngCecnt e)) 1 ∧ s.dev.Only [R.hrtSprEng e] [] t.dev)
  ∧ (∀ (e : Fin 3) (w : Nat) (s : State), s.dev.engWl e = some w → s.dev.writesSnaps e = true →
    Tbl.get 0 s.dev.ember.next e ≤ 1 →
    ∃ t, exec (.snapshotWrite e true) s = .next t
      ∧ ((t.dev.snap (2 * e + Tbl.get 0 s.dev.ember.next e)).map fun n => (n.seq, n.wl, n.eng, n.acqd))
          = some ((Tbl.get 0 s.dev.ember.seqs e + 1) % 2 ^ 32, w, e.val, s.dev.get (F.leRxcStatAcq e) == 6)
      ∧ Tbl.get 0 t.dev.ember.next e = 1 - Tbl.get 0 s.dev.ember.next e ∧ t.dev.get (F.hrtSprSnapValid e) = 1)
  ∧ (∀ (e : Fin 3) (w : Nat) (s : State), s.dev.engWl e = some w → s.dev.writesSnaps e = true →
    ∃ t, exec (.snapshotWrite e false) s = .next t
      ∧ t.dev.get (F.hrtSprSnapSkip e) = satAdd 8 (s.dev.get (F.hrtSprSnapSkip e)) 1 ∧ s.dev.Raised 0xAB t.dev
      ∧ t.dev.ember = s.dev.ember)
  ∧ (∀ (e : Fin 3) (done : Bool) (s : State), s.dev.writesSnaps e = false →
    ∃ t, exec (.snapshotWrite e done) s = .next t ∧ t.dev.ember = s.dev.ember ∧ (t.dev.spr1 e).served = false
      ∧ t.dev.get (F.hrtSprSnapSkip e)
          = (if (s.dev.spr1 e).served then satAdd 8 (s.dev.get (F.hrtSprSnapSkip e)) 1 else s.dev.get (F.hrtSprSnapSkip e))
      ∧ ((s.dev.spr1 e).served = true → s.dev.Raised 0xAB t.dev))
  ∧ (∀ (e : Fin 3) (s : State), s.dev.role e = 0 → s.dev.wlOf e = none → s.dev.inMove e = false → s.dev.cordSt (1 + e) ≤ 3 →
    (∀ k < 3, k ≠ e.val → s.dev.role k ≠ 0 ∧ s.dev.role k ≠ 5) → s.dev.get F.hrtSprCfg2Sptest ≠ 0 →
    ∃ t, exec .spareSelfTest s = .next t ∧ t.dev.role e = 5 ∧ (s.dev.cordSt (1 + e) = 0 → t.dev.cordSt (1 + e) = 1))
  ∧ (∀ (e : Fin 3) (s : State), s.dev.role e = 5 → s.dev.cordOn (1 + e) = true → s.dev.inMove e = false →
    (∀ k < 3, k ≠ e.val → s.dev.role k ≠ 5) →
    ∃ t, exec (.spareTestDone true) s = .next t ∧ t.dev.role e = 0 ∧ t.dev.cordSt (1 + e) = 0)
  ∧ (∀ (e : Fin 3) (s : State), s.dev.role e = 5 → s.dev.cordOn (1 + e) = true → s.dev.inMove e = false →
    (∀ k < 3, k ≠ e.val → s.dev.role k ≠ 5) →
    ∃ t, exec (.spareTestDone false) s = .next t ∧ t.dev.role e = 4 ∧ t.dev.cordSt (1 + e) = 5
      ∧ t.dev.get (F.hrtSprEngCause e) = 7 ∧ s.dev.Raised 0xA0 t.dev ∧ s.dev.Raised 0xAC t.dev)
  ∧ (∀ (e : Fin 3) (s : State), s.dev.role e = 0 → s.dev.cordOn (1 + e) = true → s.dev.inMove e = false →
    ∃ t, exec (.coldEngineIdleOff e) s = .next t ∧ t.dev.cordSt (1 + e) = 0 ∧ t.dev.role e = 0)

/-- The manual commands of sparing (R217): each accepted one raises SPR_MANUAL and does its work, and each that is refused
answers code 10 and raises SPR_CMD_REFUSED: any of them while BUSY is 1, SWITCH and FORCE without an available spare
or without an engine to replace, REVERT_NOW without a seasoning or seasoned engine or during its self-test pass,
RETIRE of a serving engine, UNRETIRE of one not retired. The clauses rest on the model's choices of log 36, 79. -/
def Obligations.ManualSparingCommandsRun : Prop :=
  (∀ (v : Word) (i o : Nat) (s : State), s.dev.Takes R.hrtSprCmd (sprWord v 1) → s.dev.get F.hrtSprStatBusy = 0 →
    s.dev.spr.move = none → s.dev.spare = some i → s.dev.assigned (F.hrtSprCmdWl.of v) = some o →
    ∃ t, exec (.switch v) s = .next t ∧ t.outputs.head? = some (.writeDone R.hrtSprCmd 0) ∧ s.dev.Raised 0xAD t.dev
      ∧ s.dev.Raised 0xA8 t.dev ∧ t.dev.get F.hrtSprStatBusy = 1
      ∧ (t.dev.spr.move.map fun m => (m.kind, m.wl, m.inc, m.out)) = some (.switch, F.hrtSprCmdWl.of v, i, o))
  ∧ (∀ (v : Word) (i o : Nat) (s : State), s.dev.Takes R.hrtSprCmd (sprWord v 2) → s.dev.get F.hrtSprStatBusy = 0 →
    s.dev.spr.move = none → s.dev.spare = some i → s.dev.assigned (F.hrtSprCmdWl.of v) = some o → o < 3 → s.dev.role o = 1 →
    s.dev.get (F.hrtSprEngFlt24 o) + 1 < s.dev.get F.hrtSprCfg2Fltmax →
    ∃ t, exec (.force v) s = .next t ∧ t.outputs.head? = some (.writeDone R.hrtSprCmd 0) ∧ s.dev.Raised 0xAD t.dev
      ∧ s.dev.Raised 0xA0 t.dev ∧ t.dev.get (F.hrtSprEngCause o) = 6 ∧ t.dev.role o = 2 ∧ t.dev.get F.hrtSprStatBusy = 1
      ∧ (t.dev.wave (F.hrtSprCmdWl.of v)).gap = true
      ∧ (t.dev.spr.move.map fun m => (m.kind, m.wl, m.inc, m.out)) = some (.takeover, F.hrtSprCmdWl.of v, i, o))
  ∧ (∀ (v : Word) (k : Fin 3) (s : State), s.dev.Takes R.hrtSprCmd (sprWord v 3) → s.dev.get F.hrtSprStatBusy = 0 →
    (s.dev.spr1 k).home = F.hrtSprCmdWl.of v → s.dev.wlOf k = none → s.dev.role k = 6 →
    (∀ j < 3, j ≠ k.val → (s.dev.spr1 j).home ≠ F.hrtSprCmdWl.of v) →
    ∃ t, exec (.revertNow v) s = .next t ∧ t.outputs.head? = some (.writeDone R.hrtSprCmd 0) ∧ s.dev.Raised 0xAD t.dev
      ∧ (t.dev.spr1 k).due = true
      ∧ t.dev.get F.hrtSprStatBusy = if s.dev.spr.bare.contains (F.hrtSprCmdWl.of v) then 0 else 1)
  ∧ (∀ (v : Word) (s : State), s.dev.Takes R.hrtSprCmd (sprWord v 4) → s.dev.get F.hrtSprStatBusy = 0 →
    F.hrtSprCmdEng.of v < 3 → s.dev.wlOf (F.hrtSprCmdEng.of v) = none → s.dev.inMove (F.hrtSprCmdEng.of v) = false →
    ∃ t, exec (.retire v) s = .next t ∧ t.outputs.head? = some (.writeDone R.hrtSprCmd 0) ∧ s.dev.Raised 0xAD t.dev
      ∧ t.dev.role (F.hrtSprCmdEng.of v) = 4 ∧ t.dev.cordSt (1 + F.hrtSprCmdEng.of v) = 5)
  ∧ (∀ (v : Word) (s : State), s.dev.Takes R.hrtSprCmd (sprWord v 5) → s.dev.get F.hrtSprStatBusy = 0 →
    F.hrtSprCmdEng.of v < 3 → s.dev.role (F.hrtSprCmdEng.of v) = 4 →
    ∃ t, exec (.unretire v) s = .next t ∧ t.outputs.head? = some (.writeDone R.hrtSprCmd 0) ∧ s.dev.Raised 0xAD t.dev
      ∧ t.dev.role (F.hrtSprCmdEng.of v) = 2 ∧ t.dev.get (F.hrtSprEngFlt24 (F.hrtSprCmdEng.of v)) = 0
      ∧ t.dev.cordSt (1 + F.hrtSprCmdEng.of v) = 1)
  ∧ (∀ (v : Word) (s : State), s.dev.Takes R.hrtSprCmd (sprWord v 1) →
    s.dev.get F.hrtSprStatBusy = 1 ∨ s.dev.spare = none ∨ s.dev.assigned (F.hrtSprCmdWl.of v) = none →
    ∃ t, exec (.switch v) s = .next t ∧ t.outputs.head? = some (.writeDone R.hrtSprCmd 10) ∧ t.dev.SprRefused s.dev)
  ∧ (∀ (v : Word) (s : State), s.dev.Takes R.hrtSprCmd (sprWord v 2) →
    s.dev.get F.hrtSprStatBusy = 1 ∨ s.dev.spare = none ∨ s.dev.assigned (F.hrtSprCmdWl.of v) = none →
    ∃ t, exec (.force v) s = .next t ∧ t.outputs.head? = some (.writeDone R.hrtSprCmd 10) ∧ t.dev.SprRefused s.dev)
  ∧ (∀ (v : Word) (s : State), s.dev.Takes R.hrtSprCmd (sprWord v 3) →
    s.dev.get F.hrtSprStatBusy = 1 ∨ (∀ k < 3, (s.dev.spr1 k).home = F.hrtSprCmdWl.of v → s.dev.wlOf k = none → s.dev.role k ≠ 6 ∧
      (s.dev.role k = 3 → (s.dev.spr1 k).pass = true)) →
    ∃ t, exec (.revertNow v) s = .next t ∧ t.outputs.head? = some (.writeDone R.hrtSprCmd 10) ∧ t.dev.SprRefused s.dev)
  ∧ (∀ (v : Word) (s : State), s.dev.Takes R.hrtSprCmd (sprWord v 4) →
    s.dev.get F.hrtSprStatBusy = 1 ∨ s.dev.wlOf (F.hrtSprCmdEng.of v) ≠ none →
    ∃ t, exec (.retire v) s = .next t ∧ t.outputs.head? = some (.writeDone R.hrtSprCmd 10) ∧ t.dev.SprRefused s.dev)
  ∧ (∀ (v : Word) (s : State), s.dev.Takes R.hrtSprCmd (sprWord v 5) →
    s.dev.get F.hrtSprStatBusy = 1 ∨ s.dev.role (F.hrtSprCmdEng.of v) ≠ 4 →
    ∃ t, exec (.unretire v) s = .next t ∧ t.outputs.head? = some (.writeDone R.hrtSprCmd 10) ∧ t.dev.SprRefused s.dev)

/-! ### Packet classification (08_packet_classification) -/

/-- R224 whole: a packet offered to a store that holds fewer than 256 packets joins it, and one offered to a full store is
discarded whole, counted in the OVF of its slice and raises PKT_SPREAD_OVF. -/
def Obligations.AFullStoreTurnsPacketsAway : Prop :=
  (∀ (k : Fin 5) (raw q p : Pkt) (rest : List Pkt) (n : Nat) (s : State), Tbl.get [] s.dev.pkt.links k = raw :: rest →
    s.dev.pkt.run = none → s.dev.trafficOk 8 = true →
    q = (if raw.tsport then raw else { stripTags raw with ts := ⟨s.dev.time.ns, s.dev.time.sub / 256⟩ }) →
    p = { q with hash := s.dev.spreadHash q } →
    n = s.dev.get (F.pktSprMapSlice (s.dev.spreadEntry p)) → (Tbl.get [] s.dev.pkt.stores n).length < 256 →
    ∃ t, exec (.packetArrival k) s = .next t ∧ Tbl.get [] t.dev.pkt.links k = rest
      ∧ Tbl.get [] t.dev.pkt.stores n = Tbl.get [] s.dev.pkt.stores n ++ [p]
      ∧ (∀ m, m ≠ n → Tbl.get [] t.dev.pkt.stores m = Tbl.get [] s.dev.pkt.stores m)
      ∧ t.dev.get (F.pktSlcPktsCount n) = satAdd 32 (s.dev.get (F.pktSlcPktsCount n)) 1 ∧ s.dev.Only [R.pktSlcPkts n] [] t.dev)
  ∧ (∀ (k : Fin 5) (raw q p : Pkt) (rest : List Pkt) (n : Nat) (s : State), Tbl.get [] s.dev.pkt.links k = raw :: rest →
    s.dev.pkt.run = none → s.dev.trafficOk 8 = true →
    q = (if raw.tsport then raw else { stripTags raw with ts := ⟨s.dev.time.ns, s.dev.time.sub / 256⟩ }) →
    p = { q with hash := s.dev.spreadHash q } →
    n = s.dev.get (F.pktSprMapSlice (s.dev.spreadEntry p)) → 256 ≤ (Tbl.get [] s.dev.pkt.stores n).length →
    ∃ t, exec (.packetArrival k) s = .next t ∧ Tbl.get [] t.dev.pkt.links k = rest ∧ t.dev.pkt.stores = s.dev.pkt.stores
      ∧ t.dev.pkt.decided = s.dev.pkt.decided
      ∧ t.dev.get (F.pktSlcOvfCount n) = satAdd 32 (s.dev.get (F.pktSlcOvfCount n)) 1 ∧ s.dev.Raised 0xD2 t.dev
      ∧ s.dev.Only [R.pktSlcOvf n] [0xD2] t.dev)

/-- The packet that waits first in a slice (R226, R230 to R234, R236, R238, R244): sent off by a failed parse; decided by
the default action, by an exact-match entry, whose stamp is refreshed, or by a rule that counts, sends to a ring,
pushes a tag and sets the queue, fails to push, rewrites, fails to rewrite or mirrors; discarded at a faulty rule; and
a packet of a port whose unknown source makes a learn request. The clauses rest on the model's choices of log 40. -/
def Obligations.PacketsAreDecided : Prop :=
  (∀ (n : Fin 24) (p : Pkt) (rest : List Pkt) (r : Nat) (s : State), s.dev.trafficOk 8 = true →
    Tbl.get [] s.dev.pkt.stores n = p :: rest →
    s.dev.parseCheck (s.dev.templateOf (s.dev.get (F.pktPrsSrcProf p.src)) p) p = r → r = 2 ∨ r = 3 ∨ r = 4 ∨ r = 7 →
    s.dev.get F.pktPrsActMalact = 0 →
    ∃ t, exec (.sliceProcess n [] []) s = .next t ∧ Tbl.get [] t.dev.pkt.stores n = rest ∧ t.dev.pkt.decided = s.dev.pkt.decided
      ∧ t.dev.get (F.pktPrsRcntCount r) = satAdd 32 (s.dev.get (F.pktPrsRcntCount r)) 1 ∧ s.dev.Raised 0xD0 t.dev
      ∧ s.dev.Only [R.pktPrsRcnt r] [0xD0] t.dev)
  ∧ (∀ (n : Fin 24) (p : Pkt) (rest : List Pkt) (r : Nat) (s : State), s.dev.trafficOk 8 = true →
    Tbl.get [] s.dev.pkt.stores n = p :: rest →
    s.dev.parseCheck (s.dev.templateOf (s.dev.get (F.pktPrsSrcProf p.src)) p) p = r → r = 1 ∨ r = 5 ∨ r = 6 →
    s.dev.get F.pktPrsActNestact = 2 →
    ∃ t, exec (.sliceProcess n [] []) s = .next t ∧ Tbl.get [] t.dev.pkt.stores n = rest
      ∧ t.dev.pkt.decided = s.dev.pkt.decided ++ [⟨.ring (s.dev.get F.pktPrsActNestring), { p with mal := false, nest := true }, n⟩]
      ∧ t.dev.get (F.pktPrsRcntCount r) = satAdd 32 (s.dev.get (F.pktPrsRcntCount r)) 1 ∧ s.dev.Raised 0xD1 t.dev
      ∧ s.dev.Only [R.pktPrsRcnt r] [0xD1] t.dev)
  ∧ (∀ (n : Fin 24) (p q : Pkt) (rest : List Pkt) (t0 prof : Nat) (s : State), s.dev.trafficOk 8 = true →
    Tbl.get [] s.dev.pkt.stores n = p :: rest →
    prof = s.dev.get (F.pktPrsSrcProf p.src) → t0 = s.dev.templateOf prof p → s.dev.parseCheck t0 p = 0 → 96 ≤ p.src →
    s.dev.findKey ((F.pktPrsTmplCfgEmpart t0).of (s.dev.tmpl (R.pktPrsTmplCfg t0))) (s.dev.indexed t0 p (R.pktPrsTmplDkey t0)) = none →
    q = { p with mal := false, nest := false, emhit := false, emcls := 0 } → s.dev.firstMatch (s.dev.classKey t0 prof q) = none →
    s.dev.staged 4 F.pktClsDefactBits = 0 →
    ∃ t, exec (.sliceProcess n [] []) s = .next t ∧ Tbl.get [] t.dev.pkt.stores n = rest
      ∧ t.dev.pkt.decided = s.dev.pkt.decided ++ [⟨.queue (s.dev.get (F.pktPrsSrcDefq p.src)),
          leaveForm (.queue (s.dev.get (F.pktPrsSrcDefq p.src))) q, n⟩]
      ∧ s.dev.Only [] [] t.dev)
  ∧ (∀ (n : Fin 24) (p q : Pkt) (rest : List Pkt) (t0 prof k : Nat) (s : State), s.dev.trafficOk 8 = true →
    Tbl.get [] s.dev.pkt.stores n = p :: rest →
    prof = s.dev.get (F.pktPrsSrcProf p.src) → t0 = s.dev.templateOf prof p → s.dev.parseCheck t0 p = 0 → 96 ≤ p.src →
    s.dev.findKey ((F.pktPrsTmplCfgEmpart t0).of (s.dev.tmpl (R.pktPrsTmplCfg t0))) (s.dev.indexed t0 p (R.pktPrsTmplDkey t0)) = none →
    q = { p with mal := false, nest := false, emhit := false, emcls := 0 } →
    s.dev.firstMatch (s.dev.classKey t0 prof q) = some (k, false) → (s.dev.rule k).act = 2 ^ 127 + 2 ^ 124 →
    ∃ t, exec (.sliceProcess n [] []) s = .next t ∧ Tbl.get [] t.dev.pkt.stores n = rest ∧ t.dev.pkt.decided = s.dev.pkt.decided
      ∧ (t.dev.rule k).cntP = min ((s.dev.rule k).cntP + 1) (2 ^ 64 - 1)
      ∧ (t.dev.rule k).cntB = min ((s.dev.rule k).cntB + p.bytes.length) (2 ^ 64 - 1) ∧ s.dev.Only [] [] t.dev)
  ∧ (∀ (n : Fin 24) (p q : Pkt) (rest : List Pkt) (t0 prof k : Nat) (s : State), s.dev.trafficOk 8 = true →
    Tbl.get [] s.dev.pkt.stores n = p :: rest →
    prof = s.dev.get (F.pktPrsSrcProf p.src) → t0 = s.dev.templateOf prof p → s.dev.parseCheck t0 p = 0 → 96 ≤ p.src →
    s.dev.findKey ((F.pktPrsTmplCfgEmpart t0).of (s.dev.tmpl (R.pktPrsTmplCfg t0))) (s.dev.indexed t0 p (R.pktPrsTmplDkey t0)) = none →
    q = { p with mal := false, nest := false, emhit := false, emcls := 0 } →
    s.dev.firstMatch (s.dev.classKey t0 prof q) = some (k, true) →
    ∃ t, exec (.sliceProcess n [] []) s = .next t ∧ t.dev.pkt.decided = s.dev.pkt.decided
      ∧ t.dev.get F.pktClsErrFaulty = satAdd 8 (s.dev.get F.pktClsErrFaulty) 1 ∧ s.dev.Only [R.pktClsErr] [] t.dev)
  ∧ (∀ (n : Fin 24) (p : Pkt) (rest : List Pkt) (t0 prof sk part : Nat) (s : State), s.dev.SliceHead n p rest prof t0 → p.src < 96 →
    p.mal = false → p.nest = false → p.emhit = false → p.emcls = 0 → s.dev.get (F.pktLrnPqEn p.src) = 1 →
    (F.pktPrsTmplCfgLrnen t0).of (s.dev.tmpl (R.pktPrsTmplCfg t0)) = 1 →
    part = (F.pktPrsTmplCfgEmpart t0).of (s.dev.tmpl (R.pktPrsTmplCfg t0)) → sk = s.dev.indexed t0 p (R.pktPrsTmplSkey t0) →
    s.dev.destHit t0 p = none → s.dev.findKey part sk = none → s.dev.firstMatch (s.dev.classKey t0 prof p) = none →
    s.dev.staged 4 F.pktClsDefactBits = 0 → s.dev.pkt.lrnQ.length < 4096 →
    ∃ t, exec (.sliceProcess n [] []) s = .next t ∧ Tbl.get [] t.dev.pkt.stores n = rest
      ∧ t.dev.pkt.lrnQ = s.dev.pkt.lrnQ ++ [⟨sk, part, p.src⟩] ∧ t.dev.pkt.slots = s.dev.pkt.slots
      ∧ t.dev.pkt.decided = s.dev.pkt.decided ++ [⟨.queue (s.dev.get (F.pktPrsSrcDefq p.src)),
          leaveForm (.queue (s.dev.get (F.pktPrsSrcDefq p.src))) p, n⟩]
      ∧ s.dev.Only [] [] t.dev)
  ∧ (∀ (n : Fin 24) (p q : Pkt) (rest : List Pkt) (t0 prof i : Nat) (e : Entry) (s : State), s.dev.SliceHead n p rest prof t0 → 96 ≤ p.src →
    s.dev.destHit t0 p = some i → s.dev.slot i = some e → e.static = false →
    q = { p with mal := false, nest := false, emhit := true, emcls := e.res / 2 ^ 13 % 256 } →
    s.dev.firstMatch (s.dev.classKey t0 prof q) = none → s.dev.staged 4 F.pktClsDefactBits = 0 →
    ∃ t, exec (.sliceProcess n [] []) s = .next t ∧ Tbl.get [] t.dev.pkt.stores n = rest
      ∧ t.dev.slot i = some { e with stamp := s.dev.get F.pktEmtEpochEpoch } ∧ (∀ j, j ≠ i → t.dev.slot j = s.dev.slot j)
      ∧ t.dev.pkt.decided = s.dev.pkt.decided ++ [⟨.queue (e.res % 2 ^ 13), leaveForm (.queue (e.res % 2 ^ 13)) q, n⟩]
      ∧ s.dev.Only [R.pktEmtOcc, R.pktEmtStash] [0xD7] t.dev)
  ∧ (∀ (n : Fin 24) (p : Pkt) (rest : List Pkt) (k r : Nat) (s : State), r < 2 ^ 11 →
    s.dev.RuleDecides n p rest k (2 ^ 126 + r * 2 ^ 109) →
    ∃ t, exec (.sliceProcess n [] []) s = .next t ∧ Tbl.get [] t.dev.pkt.stores n = rest
      ∧ t.dev.pkt.decided = s.dev.pkt.decided ++ [⟨.ring r, p, n⟩] ∧ s.dev.Only [] [] t.dev)
  ∧ (∀ (n : Fin 24) (p : Pkt) (rest : List Pkt) (k q tag : Nat) (s : State), q < 2 ^ 13 → tag < 2 ^ 16 → p.tagn = 0 →
    s.dev.RuleDecides n p rest k (2 ^ 125 + 2 ^ 120 + q * 2 ^ 96 + tag * 2 ^ 32) →
    ∃ t, exec (.sliceProcess n [] []) s = .next t ∧ Tbl.get [] t.dev.pkt.stores n = rest
      ∧ t.dev.pkt.decided = s.dev.pkt.decided ++ [⟨.queue q, leaveForm (.queue q) { p with tagn := 1, otpid := false, otag := tag }, n⟩]
      ∧ s.dev.Only [] [] t.dev)
  ∧ (∀ (n : Fin 24) (p : Pkt) (rest : List Pkt) (k q : Nat) (s : State), q < 2 ^ 13 → p.tagn = 2 →
    s.dev.RuleDecides n p rest k (2 ^ 125 + 2 ^ 120 + q * 2 ^ 96) →
    ∃ t, exec (.sliceProcess n [] []) s = .next t ∧ Tbl.get [] t.dev.pkt.stores n = rest
      ∧ t.dev.pkt.decided = s.dev.pkt.decided ∧ t.dev.get F.pktClsErrHdrfail = satAdd 8 (s.dev.get F.pktClsErrHdrfail) 1
      ∧ s.dev.Raised 0xD3 t.dev ∧ s.dev.Only [R.pktClsErr] [0xD3] t.dev)
  ∧ (∀ (n : Fin 24) (p : Pkt) (rest : List Pkt) (k q o z x : Nat) (s : State), q < 2 ^ 13 → o < 64 → z < 3 → x < 2 ^ 32 → o + 2 ^ z ≤ p.bytes.length → o + 2 ^ z ≤ 14 →
    s.dev.RuleDecides n p rest k (2 ^ 125 + 2 ^ 122 + q * 2 ^ 96 + o * 2 ^ 86 + z * 2 ^ 84 + x * 2 ^ 48) →
    ∃ t, exec (.sliceProcess n [] []) s = .next t ∧ Tbl.get [] t.dev.pkt.stores n = rest
      ∧ t.dev.pkt.decided = s.dev.pkt.decided ++ [⟨.queue q, leaveForm (.queue q)
          { p with bytes := p.bytes.take o ++ beBytes (2 ^ z) x ++ p.bytes.drop (o + 2 ^ z) }, n⟩] ∧ s.dev.Only [] [] t.dev)
  ∧ (∀ (n : Fin 24) (p : Pkt) (rest : List Pkt) (k q o z x : Nat) (s : State), q < 2 ^ 13 → o < 64 → z < 3 → x < 2 ^ 32 → p.bytes.length < o + 2 ^ z →
    s.dev.RuleDecides n p rest k (2 ^ 125 + 2 ^ 122 + q * 2 ^ 96 + o * 2 ^ 86 + z * 2 ^ 84 + x * 2 ^ 48) →
    ∃ t, exec (.sliceProcess n [] []) s = .next t ∧ Tbl.get [] t.dev.pkt.stores n = rest
      ∧ t.dev.pkt.decided = s.dev.pkt.decided ++ [⟨.queue q, leaveForm (.queue q) p, n⟩]
      ∧ t.dev.get F.pktClsErrRwfail = satAdd 8 (s.dev.get F.pktClsErrRwfail) 1 ∧ s.dev.Raised 0xD4 t.dev
      ∧ s.dev.Only [R.pktClsErr] [0xD4] t.dev)
  ∧ (∀ (n : Fin 24) (p : Pkt) (rest : List Pkt) (k m r : Nat) (s : State), m < 16 → r < 2 ^ 11 → s.dev.get (F.pktClsMirrorEn m) = 1 →
    s.dev.get (F.pktClsMirrorKind m) = 1 → s.dev.get (F.pktClsMirrorDest m) = r → s.dev.cordOn 12 = true → s.dev.pcie.perst = false →
    s.dev.get (F.pciRxgCfgEn r) = 0 →
    s.dev.RuleDecides n p rest k (2 ^ 123 + m * 2 ^ 92) →
    ∃ t, exec (.sliceProcess n [] []) s = .next t ∧ Tbl.get [] t.dev.pkt.stores n = rest
      ∧ t.dev.pkt.decided = s.dev.pkt.decided ++ [⟨.queue (s.dev.get (F.pktPrsSrcDefq p.src)),
          leaveForm (.queue (s.dev.get (F.pktPrsSrcDefq p.src))) p, n⟩]
      ∧ t.dev.get (F.pciRxgDropTodrop r) = satAdd 16 (s.dev.get (F.pciRxgDropTodrop r)) 1
      ∧ t.dev.get F.pktClsErrMirdrop = satAdd 8 (s.dev.get F.pktClsErrMirdrop) 1 ∧ s.dev.Raised 0xD5 t.dev
      ∧ s.dev.Only [R.pciRxgDrop r, R.pktClsErr] [0xD5] t.dev)
  ∧ (∀ (n : Fin 24) (p : Pkt) (rest : List Pkt) (k m r pool c : Nat) (s : State), m < 16 → r < 2 ^ 11 → s.dev.get (F.pktClsMirrorEn m) = 1 →
    s.dev.get (F.pktClsMirrorKind m) = 1 → s.dev.get (F.pktClsMirrorDest m) = r → s.dev.released 12 = true → s.dev.pcie.perst = false →
    s.dev.get (F.pciRxgCfgEn r) = 1 → pool = s.dev.get (F.pciRxgCfgPool r) → c = s.dev.get (F.bufSrcClsClass p.src) →
    s.dev.get (F.bufPoolCfgKind pool) = 1 → (s.dev.allocBufs pool c 1 n).isSome = true →
    s.dev.RuleDecides n p rest k (2 ^ 123 + m * 2 ^ 92) →
    ∃ t, exec (.sliceProcess n [] []) s = .next t ∧ Tbl.get [] t.dev.pkt.stores n = rest
      ∧ t.dev.pkt.decided = s.dev.pkt.decided ++ [⟨.queue (s.dev.get (F.pktPrsSrcDefq p.src)),
          leaveForm (.queue (s.dev.get (F.pktPrsSrcDefq p.src))) p, n⟩]
      ∧ (∃ b, (t.dev.ring false r).pending = (s.dev.ring false r).pending ++ [⟨p, [b], s.dev.time.ticks⟩])
      ∧ s.dev.Only [R.bufPclsUsed (16 * pool + c), R.bufPoolFree pool] [0xE3] t.dev)

/-- Templates and the classifier's commands (R227, R235): a commit makes the shadow active, WRITE installs the staged
rule, READ and READCLR show one, or find one bad, INVALIDATE takes one out, and each command ends with its STATUS. The
commands of the exact-match table (R240, R241): each with its result in STATUS and the entry it leaves or shows;
behind learn requests a command waits with BUSY 1 (R239), and a slot read bad is emptied first (R246). The clauses
rest on the model's choices of log 39, 83. -/
def Obligations.ClassifierAndTableCommandsRun : Prop :=
  (∀ (s : State), s.dev.Takes R.pktPrsTcommit (s.dev.withField F.pktPrsTcommitGo 1) →
    ∃ t, exec .templateCommit s = .next t ∧ t.outputs.head? = some (.writeDone R.pktPrsTcommit 0) ∧ s.dev.Raised 0xDF t.dev
      ∧ (∀ k < 16, (s.dev.get F.pktPrsTcommitTmask).testBit k = true → ∀ a ∈ tmplRegs k, t.dev.tmpl a = s.dev.reg a)
      ∧ s.dev.Only [R.pktPrsTcommit] [0xDF] t.dev)
  ∧ (∀ (v : Word) (s : State), s.dev.Takes R.pktClsCmd (clsWord v 1) →
    ∃ t, exec (.clsWrite v) s = .next t ∧ t.outputs = .writeDone R.pktClsCmd 0 :: s.outputs
      ∧ t.dev.rule (F.pktClsCmdIdx.of v) = ⟨s.dev.staged 15 F.pktClsKeywBits, s.dev.staged 15 F.pktClsMaskwBits,
          s.dev.staged 4 F.pktClsActwBits, true, false, 0, 0⟩
      ∧ t.dev.get F.pktClsStatStatus = 0 ∧ s.dev.Only [R.pktClsCmd, R.pktClsStat] [] t.dev)
  ∧ (∀ (v : Word) (r : Rule) (s : State), s.dev.Takes R.pktClsCmd (clsWord v 2) → s.dev.rule (F.pktClsCmdIdx.of v) = r →
    r.valid = true → r.faulty = false → r.act < 2 ^ 128 →
    ∃ t, exec (.clsRead v false) s = .next t ∧ t.outputs = .writeDone R.pktClsCmd 0 :: s.outputs ∧ t.dev.get F.pktClsStatStatus = 0
      ∧ t.dev.staged 4 F.pktClsActwBits = r.act ∧ t.dev.get F.pktClsCntploCount = r.cntP % 2 ^ 32
      ∧ t.dev.get F.pktClsCntbhiCount = r.cntB / 2 ^ 32 % 2 ^ 32 ∧ t.dev.pkt = s.dev.pkt
      ∧ s.dev.RegsKept (fun a => decide (R.pktClsKeyw 0 ≤ a) && decide (a ≤ R.pktClsCntbhi)) t.dev)
  ∧ (∀ (v : Word) (r : Rule) (s : State), s.dev.Takes R.pktClsCmd (clsWord v 2) → s.dev.rule (F.pktClsCmdIdx.of v) = r →
    r.valid = false ∨ r.faulty = true →
    ∃ t, exec (.clsRead v false) s = .next t ∧ t.dev.get F.pktClsStatStatus = (if r.faulty then 2 else 1)
      ∧ t.dev.staged 4 F.pktClsActwBits = 0 ∧ t.dev.get F.pktClsCntploCount = 0 ∧ t.dev.pkt = s.dev.pkt)
  ∧ (∀ (v : Word) (s : State), s.dev.Takes R.pktClsCmd (clsWord v 2) → (s.dev.rule (F.pktClsCmdIdx.of v)).faulty = false →
    ∃ t, exec (.clsRead v true) s = .next t ∧ t.dev.get F.pktClsStatStatus = 2 ∧ t.dev.get F.pktClsStatEccidx = F.pktClsCmdIdx.of v
      ∧ t.dev.rule (F.pktClsCmdIdx.of v) = { s.dev.rule (F.pktClsCmdIdx.of v) with faulty := true }
      ∧ t.dev.staged 4 F.pktClsActwBits = 0 ∧ s.dev.Raised 0xDE t.dev)
  ∧ (∀ (v : Word) (s : State), s.dev.Takes R.pktClsCmd (clsWord v 3) →
    ∃ t, exec (.clsInvalidate v) s = .next t ∧ t.outputs = .writeDone R.pktClsCmd 0 :: s.outputs
      ∧ t.dev.rule (F.pktClsCmdIdx.of v) = { s.dev.rule (F.pktClsCmdIdx.of v) with valid := false }
      ∧ t.dev.get F.pktClsStatStatus = 0 ∧ s.dev.Only [R.pktClsCmd, R.pktClsStat] [] t.dev)
  ∧ (∀ (v : Word) (r : Rule) (s : State), s.dev.Takes R.pktClsCmd (clsWord v 4) → s.dev.rule (F.pktClsCmdIdx.of v) = r →
    r.valid = true → r.faulty = false →
    ∃ t, exec (.clsReadclr v false) s = .next t ∧ t.outputs = .writeDone R.pktClsCmd 0 :: s.outputs ∧ t.dev.get F.pktClsStatStatus = 0
      ∧ t.dev.get F.pktClsCntploCount = r.cntP % 2 ^ 32 ∧ t.dev.get F.pktClsCntbloCount = r.cntB % 2 ^ 32
      ∧ t.dev.rule (F.pktClsCmdIdx.of v) = { r with cntP := 0, cntB := 0 })
  ∧ (∀ (v : Word) (part i : Nat) (s : State), s.dev.Takes R.pktEmtCmd (emtWord v 1) → s.dev.pkt.lrnQ = [] →
    part = s.dev.get F.pktEmtAgePart →
    s.dev.get (F.pktEmtPartEn part) = 1 → s.dev.findKey part s.dev.emtKey = none →
    s.dev.freeIn (s.dev.bucketOf 0 part s.dev.emtKey) = some i →
    ∃ t, exec (.insert v []) s = .next t ∧ t.outputs.head? = some (.writeDone R.pktEmtCmd 0) ∧ t.dev.get F.pktEmtStatStatus = 0
      ∧ t.dev.get F.pktEmtStatMoves = 0
      ∧ t.dev.slot i = some ⟨part, s.dev.emtKey, s.dev.emtRes, s.dev.get F.pktEmtEpochEpoch, false⟩
      ∧ (∀ j, j ≠ i → t.dev.slot j = s.dev.slot j)
      ∧ s.dev.Only [R.pktEmtCmd, R.pktEmtStat, R.pktEmtIdx, R.pktEmtOcc, R.pktEmtStash] [0xD7, 0xD8] t.dev)
  ∧ (∀ (v : Word) (part i : Nat) (s : State), s.dev.Takes R.pktEmtCmd (emtWord v 1) → s.dev.pkt.lrnQ = [] →
    part = s.dev.get F.pktEmtAgePart →
    s.dev.get (F.pktEmtPartEn part) = 1 → s.dev.findKey part s.dev.emtKey = some i →
    ∃ t, exec (.insert v []) s = .next t ∧ t.dev.get F.pktEmtStatStatus = 4 ∧ t.dev.pkt = { s.dev.pkt with badSlots := [] }
      ∧ s.dev.Only [R.pktEmtCmd, R.pktEmtStat] [0xD8] t.dev)
  ∧ (∀ (v : Word) (part i : Nat) (s : State), s.dev.Takes R.pktEmtCmd (emtWord v 2) → s.dev.pkt.lrnQ = [] →
    part = s.dev.get F.pktEmtAgePart →
    s.dev.findKey part s.dev.emtKey = some i → (∀ j < 64, s.dev.slot (stashAt j) = none) →
    ∃ t, exec (.delete v []) s = .next t ∧ t.outputs.head? = some (.writeDone R.pktEmtCmd 0) ∧ t.dev.get F.pktEmtStatStatus = 0
      ∧ t.dev.slot i = none ∧ (∀ j, j ≠ i → t.dev.slot j = s.dev.slot j) ∧ (∀ x ∈ t.dev.pkt.hold, x.1 ≠ i))
  ∧ (∀ (v : Word) (part : Nat) (s : State), s.dev.Takes R.pktEmtCmd (emtWord v 2) → s.dev.pkt.lrnQ = [] →
    part = s.dev.get F.pktEmtAgePart →
    s.dev.get (F.pktEmtPartEn part) = 1 → s.dev.findKey part s.dev.emtKey = none →
    ∃ t, exec (.delete v []) s = .next t ∧ t.dev.get F.pktEmtStatStatus = 3 ∧ t.dev.pkt = { s.dev.pkt with badSlots := [] })
  ∧ (∀ (v : Word) (part i : Nat) (e : Entry) (s : State), s.dev.Takes R.pktEmtCmd (emtWord v 3) → s.dev.pkt.lrnQ = [] →
    part = s.dev.get F.pktEmtAgePart →
    s.dev.findKey part s.dev.emtKey = some i → s.dev.slot i = some e → e.res < 2 ^ 30 →
    ∃ t, exec (.lookup v []) s = .next t ∧ t.outputs.head? = some (.writeDone R.pktEmtCmd 0) ∧ t.dev.get F.pktEmtStatStatus = 0
      ∧ t.dev.emtRes = e.res ∧ t.dev.get F.pktEmtResHb = (if e.hb then 1 else 0) ∧ t.dev.get F.pktEmtAgeAge = e.stamp % 2 ^ 16
      ∧ t.dev.pkt = { s.dev.pkt with badSlots := [] })
  ∧ (∀ (v : Word) (e : Entry) (s : State), s.dev.Takes R.pktEmtCmd (emtWord v 4) → s.dev.pkt.lrnQ = [] → s.dev.slot s.dev.emtSlot = some e →
    e.key < 2 ^ 128 →
    ∃ t, exec (.readidx v []) s = .next t ∧ t.outputs.head? = some (.writeDone R.pktEmtCmd 0) ∧ t.dev.get F.pktEmtStatStatus = 0
      ∧ t.dev.emtKey = e.key ∧ t.dev.get F.pktEmtAgePart = e.part % 8 ∧ t.dev.pkt = { s.dev.pkt with badSlots := [] })
  ∧ (∀ (v : Word) (part : Nat) (s : State), s.dev.Takes R.pktEmtCmd (emtWord v 5) → s.dev.pkt.lrnQ = [] →
    part = s.dev.get F.pktEmtAgePart →
    s.dev.get (F.pktEmtPartEn part) = 1 → s.dev.emtSlot ∈ s.dev.placesOf part s.dev.emtKey →
    s.dev.findKey part s.dev.emtKey = none →
    ∃ t, exec (.writeidx v []) s = .next t ∧ t.outputs.head? = some (.writeDone R.pktEmtCmd 0) ∧ t.dev.get F.pktEmtStatStatus = 0
      ∧ t.dev.slot s.dev.emtSlot = some ⟨part, s.dev.emtKey, s.dev.emtRes, s.dev.get F.pktEmtAgeAge, false⟩
      ∧ (∀ j, j ≠ s.dev.emtSlot → t.dev.slot j = s.dev.slot j))
  ∧ (∀ (v : Word) (part i : Nat) (e : Entry) (s : State), s.dev.Takes R.pktEmtCmd (emtWord v 6) → s.dev.pkt.lrnQ = [] →
    part = s.dev.get F.pktEmtAgePart →
    s.dev.findKey part s.dev.emtKey = some i → s.dev.slot i = some e → (∀ j < 64, s.dev.slot (stashAt j) = none) →
    ∃ t, exec (.cad v []) s = .next t ∧ t.outputs.head? = some (.writeDone R.pktEmtCmd 0)
      ∧ t.dev.get F.pktEmtStatStatus = (if e.stamp = s.dev.get F.pktEmtAgeAge then 0 else 6)
      ∧ t.dev.slot i = (if e.stamp = s.dev.get F.pktEmtAgeAge then none else some e))
  ∧ (∀ (v : Word) (s : State), s.dev.Takes R.pktEmtCmd (emtWord v 7) → s.dev.pkt.lrnQ = [] →
    ∃ t, exec (.ageStep v) s = .next t ∧ t.outputs.head? = some (.writeDone R.pktEmtCmd 0) ∧ t.dev.get F.pktEmtStatStatus = 0
      ∧ t.dev.get F.pktEmtEpochEpoch = (s.dev.get F.pktEmtEpochEpoch + 1) % 2 ^ 16
      ∧ t.dev.get F.pktEmtAgeAge = (s.dev.get F.pktEmtEpochEpoch + 1) % 2 ^ 16
      ∧ (s.dev.get F.pktEmtAgecfgAgeen = 1 → t.dev.pkt.ager = true))
  ∧ (∀ (v : Word) (bad : List Nat) (op : Nat) (i : Instr) (s : State),
    (op, i) ∈ [(1, Instr.insert v bad), (2, .delete v bad), (3, .lookup v bad), (4, .readidx v bad), (5, .writeidx v bad), (6, .cad v bad)] →
    s.dev.Takes R.pktEmtCmd (emtWord v op) → s.dev.pkt.lrnQ ≠ [] →
    ∃ t, exec i s = .next t ∧ t.outputs = .writeDone R.pktEmtCmd 0 :: s.outputs ∧ t.dev.get F.pktEmtStatBusy = 1
      ∧ t.dev.pkt = { s.dev.pkt with badSlots := [], emtQ := s.dev.pkt.emtQ ++
          [⟨s.dev.pkt.lrnQ.length, op, F.pktEmtCmdEven.of v == 1, s.dev.emtSlot, bad, none⟩] }
      ∧ s.dev.Only [R.pktEmtCmd, R.pktEmtStat] [] t.dev)
  ∧ (∀ (v : Word) (s : State), s.dev.Takes R.pktEmtCmd (emtWord v 7) → s.dev.pkt.lrnQ ≠ [] →
    ∃ t, exec (.ageStep v) s = .next t ∧ t.outputs = .writeDone R.pktEmtCmd 0 :: s.outputs ∧ t.dev.get F.pktEmtStatBusy = 1
      ∧ t.dev.pkt = { s.dev.pkt with badSlots := [], emtQ := s.dev.pkt.emtQ ++
          [⟨s.dev.pkt.lrnQ.length, 7, F.pktEmtCmdEven.of v == 1, s.dev.emtSlot, s.dev.pkt.badSlots, none⟩] }
      ∧ s.dev.Only [R.pktEmtCmd, R.pktEmtStat] [] t.dev)
  ∧ (∀ (v : Word) (i : Nat) (e : Entry) (s : State), s.dev.Takes R.pktEmtCmd (emtWord v 4) → s.dev.pkt.lrnQ = [] → s.dev.emtSlot = i →
    s.dev.slot i = some e → (∀ j < 64, s.dev.slot (stashAt j) = none) →
    ∃ t, exec (.readidx v [i]) s = .next t ∧ t.outputs.head? = some (.writeDone R.pktEmtCmd 0) ∧ s.dev.Raised 0xDD t.dev
      ∧ t.dev.slot i = none ∧ t.dev.get F.pktEmtStatStatus = 9 ∧ (∀ x ∈ t.dev.pkt.hold, x.1 ≠ i))

/-- Ageing and learning (R239, R242, R244, R245): the epoch, the end of a pass over a table without or with old entries, a
pass whose deletions wait behind learn requests, a learned key with its hold, a duplicate, a flap, a hold that ends,
the earliest first, a slot that a request reads bad (R246), and a head that waits for room in the hold list until a
hold ends. The clauses rest on the model's choices of log 41, 83. -/
def Obligations.EntriesAgeAndAreLearned : Prop :=
  (∀ (s : State), s.dev.cordOn 8 = true → s.dev.get F.pktEmtAgecfgEpochms ≠ 0 →
    ∃ t, exec .epochAdvance s = .next t ∧ t.dev.get F.pktEmtEpochEpoch = (s.dev.get F.pktEmtEpochEpoch + 1) % 2 ^ 16
      ∧ (s.dev.get F.pktEmtAgecfgAgeen = 1 → t.dev.pkt.ager = true) ∧ s.dev.Only [R.pktEmtEpoch] [] t.dev)
  ∧ (∀ (s : State), s.dev.pkt.ager = true → s.dev.pkt.agerAgain = false → s.dev.pkt.lrnQ = [] → s.dev.pkt.emtQ = [] →
    (∀ x ∈ s.dev.pkt.slots, ∀ e, x.2 = some e → e.static = true
      ∨ unsignedOf 16 ((s.dev.get F.pktEmtEpochEpoch : Int) - (e.stamp : Nat)) < s.dev.get F.pktEmtAgecfgAgemax) →
    ∃ t, exec (.agerPassEnd []) s = .next t ∧ t.dev.pkt.slots = s.dev.pkt.slots ∧ t.dev.pkt.ager = false
      ∧ t.dev.get F.pktEmtEpochAged = s.dev.get F.pktEmtEpochAged ∧ s.dev.Raised 0xDC t.dev
      ∧ s.dev.Only [R.pktEmtEpoch] [0xDC] t.dev)
  ∧ (∀ (i : Nat) (e : Entry) (s : State), s.dev.pkt.ager = true → s.dev.pkt.lrnQ = [] → s.dev.pkt.emtQ = [] →
    s.dev.pkt.slots = [(i, some e)] → e.static = false → s.dev.findKey e.part e.key = some i → i < 2 ^ 21 →
    s.dev.get F.pktEmtAgecfgAgemax ≤ unsignedOf 16 ((s.dev.get F.pktEmtEpochEpoch : Int) - (e.stamp : Nat)) →
    ∃ t, exec (.agerPassEnd []) s = .next t ∧ t.dev.pkt.slots = [] ∧ t.dev.get F.pktEmtOccEnt = 0
      ∧ t.dev.get F.pktEmtEpochAged = satAdd 16 (s.dev.get F.pktEmtEpochAged) 1 ∧ s.dev.Raised 0xDC t.dev)
  ∧ (∀ (r : LrnReq) (rest : List LrnReq) (i : Nat) (s : State), s.dev.pkt.emtQ = [] → s.dev.pkt.lrnQ = r :: rest → s.dev.findKey r.part r.key = none →
    s.dev.get (F.pktEmtPartEn r.part) = 1 → s.dev.pkt.hold.length < 65536 →
    s.dev.freeIn (s.dev.bucketOf 0 r.part r.key) = some i →
    ∃ t, exec (.learnRequest []) s = .next t ∧ t.dev.pkt.lrnQ = rest
      ∧ t.dev.slot i = some ⟨r.part, r.key, learnRes (s.dev.get (F.pktLrnPqQueue r.port)) (s.dev.get F.pktLrnCfgLrncls) r.port,
          s.dev.get F.pktEmtEpochEpoch, true⟩
      ∧ (i, s.dev.time.ticks + 62500 * s.dev.get F.pktLrnCfgHold) ∈ t.dev.pkt.hold ∧ (∀ j, j ≠ i → t.dev.slot j = s.dev.slot j)
      ∧ s.dev.Only [R.pktEmtOcc, R.pktEmtStash] [0xD7] t.dev)
  ∧ (∀ (r : LrnReq) (rest : List LrnReq) (i : Nat) (e : Entry) (s : State), s.dev.pkt.emtQ = [] → s.dev.pkt.lrnQ = r :: rest →
    s.dev.findKey r.part r.key = some i → s.dev.slot i = some e → e.port = r.port →
    ∃ t, exec (.learnRequest []) s = .next t ∧ t.dev.pkt.lrnQ = rest ∧ t.dev.pkt.slots = s.dev.pkt.slots
      ∧ t.dev.get F.pktLrnCntDup = satAdd 8 (s.dev.get F.pktLrnCntDup) 1 ∧ s.dev.Only [R.pktLrnCnt] [] t.dev)
  ∧ (∀ (r : LrnReq) (rest : List LrnReq) (i : Nat) (e : Entry) (s : State), s.dev.pkt.emtQ = [] → s.dev.pkt.lrnQ = r :: rest →
    s.dev.findKey r.part r.key = some i → s.dev.slot i = some e → e.port ≠ r.port → e.static = false → e.hb = true →
    ∃ t, exec (.learnRequest []) s = .next t ∧ t.dev.pkt.lrnQ = rest ∧ t.dev.pkt.slots = s.dev.pkt.slots
      ∧ t.dev.get F.pktLrnCntFlap = satAdd 8 (s.dev.get F.pktLrnCntFlap) 1 ∧ s.dev.Raised 0xD9 t.dev
      ∧ s.dev.Only [R.pktLrnCnt] [0xD9] t.dev)
  ∧ (∀ (r : LrnReq) (rest : List LrnReq) (i : Nat) (j : EmtJob) (e : Entry) (s : State), s.dev.pkt.lrnQ = r :: rest →
    s.dev.pkt.emtQ = [j] → j.ager = none → s.dev.findKey r.part r.key = some i → s.dev.slot i = some e → e.port = r.port →
    ∃ t, exec (.learnRequest []) s = .next t ∧ t.dev.pkt.lrnQ = rest
      ∧ t.dev.pkt.emtQ = (if j.before ≤ 1 then [] else [{ j with before := j.before - 1 }])
      ∧ t.dev.get F.pktEmtStatBusy = (if j.before ≤ 1 then 0 else s.dev.get F.pktEmtStatBusy)
      ∧ (1 < j.before → t.dev.pkt.slots = s.dev.pkt.slots ∧ s.dev.Only [R.pktLrnCnt] [] t.dev))
  ∧ (∀ (i u : Nat) (e : Entry) (s : State), s.dev.pkt.lrnWait = false → (i, u) ∈ s.dev.pkt.hold →
    (∀ x ∈ s.dev.pkt.hold, x = (i, u) ∨ u < x.2) → s.dev.slot i = some e →
    ∃ t, exec .holdExpire s = .next t ∧ t.dev.pkt.hold = s.dev.pkt.hold.erase (i, u) ∧ t.dev.slot i = some { e with hb := false }
      ∧ (∀ j, j ≠ i → t.dev.slot j = s.dev.slot j) ∧ s.dev.Only [R.pktEmtOcc, R.pktEmtStash] [0xD7] t.dev)
  ∧ (∀ (r : LrnReq) (rest : List LrnReq) (i : Nat) (e : Entry) (s : State), s.dev.pkt.emtQ = [] → s.dev.pkt.lrnQ = r :: rest →
    s.dev.slot i = some e → (∀ j < 64, s.dev.slot (stashAt j) = none) → s.dev.get (F.pktEmtPartEn r.part) = 0 →
    s.dev.findKey r.part r.key = none →
    ∃ t, exec (.learnRequest [i]) s = .next t ∧ t.dev.pkt.lrnQ = rest ∧ t.dev.slot i = none ∧ (∀ j, j ≠ i → t.dev.slot j = s.dev.slot j)
      ∧ s.dev.Raised 0xDD t.dev)
  ∧ (∀ (r : LrnReq) (rest : List LrnReq) (s : State), s.dev.pkt.lrnQ = r :: rest → s.dev.findKey r.part r.key = none →
    s.dev.get (F.pktEmtPartEn r.part) = 1 → 65536 ≤ s.dev.pkt.hold.length →
    ∃ t, exec (.learnRequest []) s = .next t ∧ t.dev.pkt = { s.dev.pkt with lrnWait := true } ∧ s.dev.Only [] [] t.dev)
  ∧ (∀ (r : LrnReq) (rest : List LrnReq) (i u j : Nat) (e : Entry) (s : State), s.dev.pkt.lrnWait = true → s.dev.pkt.emtQ = [] →
    s.dev.pkt.lrnQ = r :: rest → (i, u) ∈ s.dev.pkt.hold → (∀ x ∈ s.dev.pkt.hold, x = (i, u) ∨ u < x.2) → s.dev.slot i = some e →
    s.dev.pkt.hold.length ≤ 65536 → s.dev.findKey r.part r.key = none → s.dev.get (F.pktEmtPartEn r.part) = 1 →
    s.dev.freeIn (s.dev.bucketOf 0 r.part r.key) = some j →
    ∃ t, exec .holdExpire s = .next t ∧ t.dev.pkt.lrnQ = rest ∧ t.dev.pkt.lrnWait = false ∧ t.dev.slot i = some { e with hb := false }
      ∧ t.dev.slot j = some ⟨r.part, r.key, learnRes (s.dev.get (F.pktLrnPqQueue r.port)) (s.dev.get F.pktLrnCfgLrncls) r.port,
          s.dev.get F.pktEmtEpochEpoch, true⟩
      ∧ (j, s.dev.time.ticks + 62500 * s.dev.get F.pktLrnCfgHold) ∈ t.dev.pkt.hold
      ∧ (∀ k, k ≠ i → k ≠ j → t.dev.slot k = s.dev.slot k) ∧ s.dev.Only [R.pktEmtOcc, R.pktEmtStash] [0xD7] t.dev)
  ∧ (∀ (s : State), s.dev.pkt.ager = true → s.dev.pkt.lrnQ = [] → s.dev.pkt.emtQ = [] → Tbl.rising s.dev.pkt.slots = true →
    (∀ x ∈ s.dev.pkt.slots, x.1 < 2 ^ 21 ∧ ∃ e, x.2 = some e ∧ s.dev.findKey e.part e.key = some x.1) →
    ∃ t, exec (.agerPassEnd []) s = .next t ∧ t.dev.pkt.slots = s.dev.pkt.slots.filter (fun x => !x.2.any s.dev.oldEntry)
      ∧ t.dev.get F.pktEmtEpochAged = satAdd 16 (s.dev.get F.pktEmtEpochAged) (s.dev.pkt.slots.filter fun x => x.2.any s.dev.oldEntry).length
      ∧ t.dev.pkt.ager = (s.dev.pkt.agerAgain && s.dev.get F.pktEmtAgecfgAgeen != 0) ∧ s.dev.Raised 0xDC t.dev
      ∧ s.dev.Only [R.pktEmtEpoch, R.pktEmtOcc, R.pktEmtStash] [0xDC] t.dev)
  ∧ (∀ (s : State), s.dev.pkt.ager = true → s.dev.pkt.lrnQ ≠ [] → s.dev.pkt.emtQ = [] →
    ∃ t, exec (.agerPassEnd []) s = .next t
      ∧ t.dev.pkt = { s.dev.pkt with emtQ := [⟨s.dev.pkt.lrnQ.length, 0, false, 0, [],
          some (s.dev.pkt.slots.filterMap fun x => x.2.bind fun e => if s.dev.oldEntry e then some (e.part, e.key, e.stamp) else none)⟩] }
      ∧ s.dev.Only [] [] t.dev)

/-! ### Buffers, queues, schedulers, samplers (09_buffers_scheduling) -/

/-- Admission to a queue (R254, R259): an admitted packet is queued with its buffers and its length in DEPTH, and each of
the three reasons to turn one away is logged and counted. The clauses rest on the model's choices of log 9. -/
def Obligations.QueuesAdmitOrDrop : Prop :=
  (∀ (q n i b m : Nat) (p : Pkt) (rest : List Decided) (s : State), s.dev.trafficOk 8 = true →
    s.dev.pkt.decided = ⟨.queue q, p, n⟩ :: rest → q < 8192 →
    s.dev.get (F.bufQParEn q) = 1 →
    s.dev.get (F.bufQDepthCount q) + p.bytes.length ≤ s.dev.get (F.bufQLimLimit q) * 64 → s.dev.poolFor q p.bytes.length = (b, m) →
    i = 16 * b + s.dev.get (F.bufSrcClsClass p.src) → s.dev.get (F.bufPclsUsedUsed i) + m ≤ s.dev.get (F.bufPclsMaxMax i) →
    m - min m (s.dev.get (F.bufPclsMinMin i) - s.dev.get (F.bufPclsUsedUsed i)) ≤ s.dev.get (F.bufPoolFreeShfree b) →
    ∃ t bs, exec .queueEnqueue s = .next t ∧ bs.length = m ∧ t.dev.pkt.decided = rest
      ∧ (t.dev.queue q).pkts = (s.dev.queue q).pkts ++ [⟨p, bs, s.dev.time.ticks⟩]
      ∧ t.dev.get (F.bufQDepthCount q) = (s.dev.get (F.bufQDepthCount q) + p.bytes.length) % 2 ^ 32
      ∧ t.dev.get (F.bufPclsUsedUsed i) = s.dev.get (F.bufPclsUsedUsed i) + m
      ∧ (∀ r, r ≠ q → t.dev.queue r = s.dev.queue r) ∧ s.dev.RegsKept (fun a => inCord 9 a || isEvt a) t.dev)
  ∧ (∀ (q n : Nat) (p : Pkt) (rest : List Decided) (s : State), s.dev.trafficOk 8 = true →
    s.dev.pkt.decided = ⟨.queue q, p, n⟩ :: rest → q < 8192 →
    s.dev.get (F.bufQParEn q) = 0 →
    ∃ t, exec .queueEnqueue s = .next t ∧ t.dev.pkt.decided = rest ∧ t.dev.buf.queues = s.dev.buf.queues
      ∧ t.dev.get (F.bufQDropCount q) = satAdd 32 (s.dev.get (F.bufQDropCount q)) 1 ∧ t.dev.get F.bufQmLogQ = q
      ∧ t.dev.get F.bufQmLogReason = 1 ∧ s.dev.Raised 0xE6 t.dev ∧ s.dev.Only [R.bufQDrop q, R.bufQmLog] [0xE6] t.dev)
  ∧ (∀ (q n : Nat) (p : Pkt) (rest : List Decided) (s : State), s.dev.trafficOk 8 = true →
    s.dev.pkt.decided = ⟨.queue q, p, n⟩ :: rest → q < 8192 →
    s.dev.get (F.bufQParEn q) = 1 →
    s.dev.get (F.bufQLimLimit q) * 64 < s.dev.get (F.bufQDepthCount q) + p.bytes.length →
    ∃ t, exec .queueEnqueue s = .next t ∧ t.dev.pkt.decided = rest ∧ t.dev.buf.queues = s.dev.buf.queues
      ∧ t.dev.get (F.bufQDropCount q) = satAdd 32 (s.dev.get (F.bufQDropCount q)) 1 ∧ t.dev.get F.bufQmLogQ = q
      ∧ t.dev.get F.bufQmLogReason = 2 ∧ s.dev.Raised 0xE6 t.dev ∧ s.dev.Only [R.bufQDrop q, R.bufQmLog] [0xE6] t.dev)
  ∧ (∀ (q n i : Nat) (p : Pkt) (rest : List Decided) (s : State), s.dev.trafficOk 8 = true →
    s.dev.pkt.decided = ⟨.queue q, p, n⟩ :: rest → q < 8192 →
    s.dev.get (F.bufQParEn q) = 1 →
    s.dev.get (F.bufQDepthCount q) + p.bytes.length ≤ s.dev.get (F.bufQLimLimit q) * 64 →
    i = 16 * (s.dev.poolFor q p.bytes.length).1 + s.dev.get (F.bufSrcClsClass p.src) →
    s.dev.get (F.bufPclsMaxMax i) < s.dev.get (F.bufPclsUsedUsed i) + (s.dev.poolFor q p.bytes.length).2 →
    ∃ t, exec .queueEnqueue s = .next t ∧ t.dev.buf.queues = s.dev.buf.queues ∧ t.dev.buf.owners = s.dev.buf.owners
      ∧ t.dev.get (F.bufPclsFailFail i) = satAdd 32 (s.dev.get (F.bufPclsFailFail i)) 1
      ∧ t.dev.get F.bufQmLogReason = 3 ∧ s.dev.Raised 0xE2 t.dev ∧ s.dev.Raised 0xE6 t.dev
      ∧ s.dev.Only [R.bufQDrop q, R.bufQmLog, R.bufPclsFail i] [0xE2, 0xE6] t.dev)
  ∧ (∀ (q n i b m : Nat) (p : Pkt) (rest : List Decided) (s : State), s.dev.trafficOk 8 = true →
    s.dev.pkt.decided = ⟨.queue q, p, n⟩ :: rest → q < 8192 →
    s.dev.get (F.bufQParEn q) = 1 →
    s.dev.get (F.bufQDepthCount q) + p.bytes.length ≤ s.dev.get (F.bufQLimLimit q) * 64 → s.dev.poolFor q p.bytes.length = (b, m) →
    i = 16 * b + s.dev.get (F.bufSrcClsClass p.src) → s.dev.get (F.bufPclsUsedUsed i) + m ≤ s.dev.get (F.bufPclsMaxMax i) →
    s.dev.get (F.bufPoolFreeShfree b) < m - min m (s.dev.get (F.bufPclsMinMin i) - s.dev.get (F.bufPclsUsedUsed i)) →
    ∃ t, exec .queueEnqueue s = .next t ∧ t.dev.pkt.decided = rest ∧ t.dev.buf.queues = s.dev.buf.queues
      ∧ t.dev.buf.owners = s.dev.buf.owners
      ∧ t.dev.get (F.bufPclsFailFail i) = satAdd 32 (s.dev.get (F.bufPclsFailFail i)) 1
      ∧ t.dev.get F.bufQmLogReason = 3 ∧ s.dev.Raised 0xE2 t.dev ∧ s.dev.Raised 0xE6 t.dev
      ∧ s.dev.Only [R.bufQDrop q, R.bufQmLog, R.bufPclsFail i] [0xE2, 0xE6] t.dev)

/-- Buffers come back (R252 to R254): a free by the owner, a double free, a free by another agent, and the reclaim of what
a cord that has left service owned. Samplers (R269 to R273): a latch makes the record, starts the next interval and
raises the age event at its entry; a copy shows the newest record and the histogram. The clauses rest on the model's
choices of log 39, 44, 45. -/
def Obligations.BuffersAndSamplersAnswer : Prop :=
  (∀ (b : BitVec 25) (agent : Nat) (r : BufRec) (s : State), s.dev.cordOn 9 = true → b.toNat < 0x1040000 → agent ≤ 32 →
    s.dev.owner b.toNat = some r → r.owner = agent →
    ∃ t, exec (.bufferFree b agent) s = .next t ∧ t.dev.owner b.toNat = none
      ∧ (∀ j, j ≠ b.toNat → t.dev.owner j = s.dev.owner j)
      ∧ t.dev.get (F.bufPclsUsedUsed (16 * r.pool.val + r.cls.val)) = s.dev.get (F.bufPclsUsedUsed (16 * r.pool.val + r.cls.val)) - 1
      ∧ t.dev.get (F.bufPoolFreeShfree r.pool) = (s.dev.get (F.bufPoolFreeShfree r.pool)
          + (if s.dev.get (F.bufPclsMinMin (16 * r.pool.val + r.cls.val)) < s.dev.get (F.bufPclsUsedUsed (16 * r.pool.val + r.cls.val)) then 1 else 0))
          % 2 ^ 25
      ∧ s.dev.Only [R.bufPclsUsed (16 * r.pool.val + r.cls.val), R.bufPoolFree r.pool] [0xE3] t.dev)
  ∧ (∀ (b : BitVec 25) (agent : Nat) (s : State), s.dev.cordOn 9 = true → b.toNat < 0x1040000 → agent ≤ 32 ∨ agent = 63 →
    s.dev.owner b.toNat = none →
    ∃ t, exec (.bufferFree b agent) s = .next t ∧ t.dev.buf = s.dev.buf ∧ t.dev.get F.bufBmErrlogBuf = b.toNat
      ∧ t.dev.get F.bufBmErrlogAgent = agent ∧ t.dev.get F.bufBmErrlogKind = 0
      ∧ t.dev.get F.bufBmErrDbl = satAdd 16 (s.dev.get F.bufBmErrDbl) 1 ∧ s.dev.Raised 0xE0 t.dev
      ∧ s.dev.Only [R.bufBmErrlog, R.bufBmErr] [0xE0] t.dev)
  ∧ (∀ (b : BitVec 25) (agent : Nat) (r : BufRec) (s : State), s.dev.cordOn 9 = true → b.toNat < 0x1040000 → agent ≤ 32 →
    s.dev.owner b.toNat = some r → r.owner ≠ agent →
    ∃ t, exec (.bufferFree b agent) s = .next t ∧ t.dev.buf = s.dev.buf ∧ t.dev.get F.bufBmErrlogBuf = b.toNat
      ∧ t.dev.get F.bufBmErrlogAgent = agent ∧ t.dev.get F.bufBmErrlogKind = 1
      ∧ t.dev.get F.bufBmErrNown = satAdd 16 (s.dev.get F.bufBmErrNown) 1 ∧ s.dev.Raised 0xE1 t.dev
      ∧ s.dev.Only [R.bufBmErrlog, R.bufBmErr] [0xE1] t.dev)
  ∧ (∀ (c : Fin 13) (s : State), s.dev.cordOn 9 = true → c.val ∈ s.dev.reclaim →
    ∃ t, exec (.bufferReclaim c) s = .next t ∧ c.val ∉ t.dev.reclaim ∧ s.dev.Raised 0xE4 t.dev
      ∧ (∀ b r, t.dev.owner b = some r → r.owner ∉ cordAgents c)
      ∧ (∀ b, (∀ x ∈ s.dev.buf.owners, x.1 = b → ∀ r, x.2 = some r → r.owner ∉ cordAgents c) → t.dev.owner b = s.dev.owner b))
  ∧ (∀ (k : Fin 8448) (s : State), s.dev.released 9 = true →
    ∃ t, exec (.samplerLatch k) s = .next t ∧ (t.dev.sampler k).last = s.dev.record k ∧ (t.dev.sampler k).drops = 0
      ∧ (t.dev.sampler k).deqb = 0 ∧ (t.dev.sampler k).maxd = (s.dev.record k).depth
      ∧ (∀ j, j ≠ k.val → t.dev.sampler j = s.dev.sampler j ∨ k.val < 8192 ∧ s.dev.get (F.bufQParQgen k) = 1
          ∧ j = 8192 + s.dev.get (F.bufQParQg k)
          ∧ t.dev.sampler j = { s.dev.sampler j with maxd := max (s.dev.sampler j).maxd (t.dev.groupDepth (s.dev.get (F.bufQParQg k))) })
      ∧ s.dev.Only [] [0xE7] t.dev)
  ∧ (∀ (k : Fin 8448) (s : State), s.dev.released 9 = true → k.val < 8192 → s.dev.get (F.bufQLimAgethr k) ≠ 0 →
    s.dev.get (F.bufQLimAgethr k) * 100 ≤ s.dev.headAge k → (s.dev.sampler k).ageHigh = false →
    ∃ t, exec (.samplerLatch k) s = .next t ∧ s.dev.Raised 0xE7 t.dev ∧ (t.dev.sampler k).ageHigh = true)
  ∧ (∀ (v : Word) (s : State), s.dev.Takes R.bufSmpSel (F.bufSmpSelGo.put v 1) → F.bufSmpSelGrp.of v = 0 →
    (s.dev.sampler (F.bufSmpSelIdx.of v)).last.valid = true →
    ∃ t, exec (.samplerRead v) s = .next t ∧ t.outputs = .writeDone R.bufSmpSel 0 :: s.outputs
      ∧ (∀ i < 8, t.dev.get (F.bufSmpRecData i)
          = ((s.dev.sampler (F.bufSmpSelIdx.of v)).last.words false).getD i 0 % 2 ^ 32)
      ∧ (∀ b < 16, t.dev.get (F.bufSmpHistData b) = Tbl.get 0 (s.dev.sampler (F.bufSmpSelIdx.of v)).hist b % 2 ^ 32)
      ∧ (t.dev.sampler (F.bufSmpSelIdx.of v)).hist
          = (if F.bufSmpSelClr.of v = 1 then [] else (s.dev.sampler (F.bufSmpSelIdx.of v)).hist))

/-- A scheduler's selection (R262, R265, R268, R257): the head of the selected queue leaves it, towards its port or as
cells of its group, and one whose data have an uncorrectable error is freed and counted. Tags that grow old, shapers
that refill, and the FLUSH of a queue (R261, R264 to R266). The clauses rest on the model's choices of log 42, 43, 83,
85. -/
def Obligations.SchedulersServeAndShape : Prop :=
  (∀ (k : Fin 160) (n q : Nat) (dist : Int) (x : QPkt) (rest : List QPkt) (s : State), k.val < 96 →
    s.dev.get (F.hsMacGctlGateen k) = 0 → s.dev.released 9 = true → s.dev.pickQueue k = some (q, dist) → q < 8192 →
    (s.dev.queue q).pkts = x :: rest → s.dev.InjIdle (162 + k / 48) →
    ∃ t, exec (.schedulerSelect k n false) s = .next t ∧ (t.dev.queue q).pkts = rest
      ∧ (t.dev.mac k).cur = some ⟨x.pkt, x.bufs, x.enq⟩ ∧ (t.dev.mac k).curMax = s.dev.get (F.hsMacCfgMaxlen k)
      ∧ t.dev.get (F.bufQDepthCount q) = s.dev.get (F.bufQDepthCount q) - x.pkt.bytes.length
      ∧ t.dev.get F.bufBmEccCorr = satAdd 16 (s.dev.get F.bufBmEccCorr) n
      ∧ (∀ r, r ≠ q → t.dev.queue r = s.dev.queue r) ∧ s.dev.RegsKept (fun a => inCord 9 a || isEvt a) t.dev)
  ∧ (∀ (k : Fin 160) (n q : Nat) (dist : Int) (x : QPkt) (rest : List QPkt) (s : State), 96 ≤ k.val →
    s.dev.released 9 = true → s.dev.pickQueue k = some (q, dist) → q < 8192 →
    (s.dev.queue q).pkts = x :: rest → s.dev.InjIdle (160 + (k - 96) / 32) →
    ∃ t, exec (.schedulerSelect k n false) s = .next t ∧ (t.dev.queue q).pkts = rest
      ∧ (t.dev.grp ((k - 96) / 32) (k % 32)).txCells = (s.dev.grp ((k - 96) / 32) (k % 32)).txCells
          ++ packetCells (s.dev.get (F.bufQFlowFlow q)) x.pkt.bytes x.bufs
      ∧ t.dev.get (F.bufQDepthCount q) = s.dev.get (F.bufQDepthCount q) - x.pkt.bytes.length)
  ∧ (∀ (k : Fin 160) (n q : Nat) (dist : Int) (x : QPkt) (rest : List QPkt) (s : State), 96 ≤ k.val →
    s.dev.released 9 = true → s.dev.pickQueue k = some (q, dist) → q < 8192 → (s.dev.queue q).pkts = x :: rest →
    ∃ t, exec (.schedulerSelect k n true) s = .next t ∧ (t.dev.queue q).pkts = rest
      ∧ t.dev.get F.bufBmEccUncorr = satAdd 16 (s.dev.get F.bufBmEccUncorr) 1 ∧ s.dev.Raised 0xE5 t.dev
      ∧ t.dev.grps = s.dev.grps ∧ t.dev.macs = s.dev.macs)
  ∧ (∀ (k : Fin 160) (n : Nat) (ecc : Bool) (s : State), 96 ≤ k.val → s.dev.pickQueue k = none →
    ∃ t, exec (.schedulerSelect k n ecc) s = .next t ∧ t.dev.buf = s.dev.buf ∧ s.dev.Only [] [] t.dev)
  ∧ (∀ (q : Fin 8192) (s : State), ∃ t, exec (.sweeperVisit q) s = .next t
      ∧ (t.dev.queue q).old = ((s.dev.queue q).old || s.dev.cordOn 9 && decide (2 ≤ unsignedOf 16
          ((s.dev.get (F.bufSchVqVq (s.dev.get (F.bufQMapSched q))) : Int) - ((s.dev.queue q).tq : Nat))))
      ∧ (t.dev.queue q).pkts = (s.dev.queue q).pkts ∧ (∀ r, r ≠ q.val → t.dev.queue r = s.dev.queue r) ∧ s.dev.Only [] [] t.dev)
  ∧ (∀ (s : State), s.dev.cordOn 9 = false →
    ∃ t, exec .shaperRefill s = .next t ∧ t.dev.buf = s.dev.buf ∧ s.dev.Only [] [] t.dev)
  ∧ (∀ (s : State), s.dev.cordOn 9 = true → ∃ t, exec .shaperRefill s = .next t ∧ s.dev.Only [] [] t.dev
      ∧ (∀ q < 8192, (t.dev.queue q).pkts = (s.dev.queue q).pkts
          ∧ (s.dev.get (F.bufQShpShen q) = 1 → (t.dev.queue q).shOn = true
            ∧ (t.dev.queue q).lvl = if (s.dev.queue q).shOn = true then
                min ((s.dev.queue q).lvl + (s.dev.get (F.bufQShpRate q) : Nat)) ((s.dev.get (F.bufQBurstBurst q) * 8 : Nat) : Int)
              else ((s.dev.get (F.bufQBurstBurst q) * 8 : Nat) : Int))
          ∧ (s.dev.get (F.bufQShpShen q) = 0 → (t.dev.queue q).shOn = false))
      ∧ (∀ g < 255, s.dev.get (F.bufShgShpShen g) = 1 → (Tbl.get {} t.dev.buf.groups g).shOn = true))
  ∧ (∀ (v : Word) (q : Nat) (s : State), s.dev.Takes R.bufQmCmd (F.bufQmCmdGo.put (F.bufQmCmdOp.put v 1) 1) → F.bufQmCmdQ.of v = q →
    ∃ t, exec (.qmFlush v) s = .next t ∧ t.outputs.head? = some (.writeDone R.bufQmCmd 0) ∧ (t.dev.queue q).pkts = []
      ∧ t.dev.get (F.bufQDepthCount q) = 0 ∧ t.dev.get F.bufQmCmdBusy = 1
      ∧ t.dev.get F.bufQmFlushedFlushed = satAdd 32 (s.dev.get F.bufQmFlushedFlushed) (s.dev.queue q).pkts.length
      ∧ (∀ r, r ≠ q → t.dev.queue r = s.dev.queue r) ∧ s.dev.RegsKept (fun a => inCord 9 a || isEvt a) t.dev)
  ∧ (∀ (s : State), s.dev.get F.bufQmCmdBusy = 1 →
    ∃ t, exec .qFlushDone s = .next t ∧ t.dev.get F.bufQmCmdBusy = 0 ∧ s.dev.Raised 0xE8 t.dev ∧ s.dev.Only [R.bufQmCmd] [0xE8] t.dev)


/-! ### MAC ports (10_mac_ports) -/

/-- A received frame (R278 to R282, R300, R11): a good one goes on towards PKT with its tags in the metadata, and each
check that fails, a PCS error among them, counts it in its own register; a port whose lanes are looped at the far end
sends back what it gets (R319). -/
def Obligations.FramesAreCheckedAndPassedOn : Prop :=
  (∀ (p : Fin 96) (f : List Byte) (lo hi : Nat) (s : State), s.dev.Receives p lo hi f.length →
    s.dev.trafficOk 8 = true → s.dev.InjIdle (162 + p / 48) → lo ≤ f.length → f.length ≤ hi →
    s.dev.fits p f.length = true → f.drop (f.length - 4) = fcsOf (f.take (f.length - 4)) → beAt f 12 2 ≠ 0x8808 →
    ∃ t, exec (.macFrameRx p f false) s = .next t
      ∧ Tbl.get [] t.dev.pkt.links (2 + p / 48) = Tbl.get [] s.dev.pkt.links (2 + p / 48)
          ++ [stripTags { src := p, srcn := p, bytes := f.take (f.length - 4),
                          ts := ⟨s.dev.time.ns, s.dev.time.sub / 256⟩, tsport := true }]
      ∧ t.dev.get (F.hsMacRxfrmCount p) = satAdd 32 (s.dev.get (F.hsMacRxfrmCount p)) 1
      ∧ (t.dev.mac p).rxBytes = min ((s.dev.mac p).rxBytes + f.length) (2 ^ 64 - 1)
      ∧ s.dev.Only [R.hsMacRxfrm p, R.hsMacRxbylo p] [] t.dev)
  ∧ (∀ (p : Fin 96) (f : List Byte) (lo hi : Nat) (s : State), s.dev.Receives p lo hi f.length →
    s.dev.trafficOk 8 = false → lo ≤ f.length → f.length ≤ hi →
    s.dev.fits p f.length = true → f.drop (f.length - 4) = fcsOf (f.take (f.length - 4)) → beAt f 12 2 ≠ 0x8808 →
    ∃ t, exec (.macFrameRx p f false) s = .next t ∧ t.dev.pkt = s.dev.pkt
      ∧ t.dev.get (F.hsMacDhdropCount p) = satAdd 32 (s.dev.get (F.hsMacDhdropCount p)) 1 ∧ s.dev.Raised 0xCF t.dev)
  ∧ (∀ (p : Fin 96) (f : List Byte) (lo hi : Nat) (pcs : Bool) (s : State), s.dev.Receives p lo hi f.length →
    f.length < lo →
    ∃ t, exec (.macFrameRx p f pcs) s = .next t ∧ t.dev.get (F.hsMacRuntCount p) = satAdd 32 (s.dev.get (F.hsMacRuntCount p)) 1
      ∧ s.dev.Raised 0xC1 t.dev ∧ t.dev.pkt = s.dev.pkt ∧ s.dev.Only [R.hsMacRunt p] [0xC1] t.dev)
  ∧ (∀ (p : Fin 96) (f : List Byte) (lo hi : Nat) (pcs : Bool) (s : State), s.dev.Receives p lo hi f.length →
    lo ≤ f.length → s.dev.fits p (min f.length hi) = false →
    ∃ t, exec (.macFrameRx p f pcs) s = .next t ∧ t.dev.get (F.hsMacRxovfCount p) = satAdd 32 (s.dev.get (F.hsMacRxovfCount p)) 1
      ∧ s.dev.Raised 0xC3 t.dev ∧ t.dev.pkt = s.dev.pkt ∧ s.dev.Only [R.hsMacRxovf p] [0xC3] t.dev)
  ∧ (∀ (p : Fin 96) (f : List Byte) (lo hi : Nat) (pcs : Bool) (s : State), s.dev.Receives p lo hi f.length →
    lo ≤ f.length → hi < f.length → s.dev.fits p hi = true →
    ∃ t, exec (.macFrameRx p f pcs) s = .next t ∧ t.dev.get (F.hsMacGiantCount p) = satAdd 32 (s.dev.get (F.hsMacGiantCount p)) 1
      ∧ s.dev.Raised 0xC2 t.dev ∧ t.dev.pkt = s.dev.pkt ∧ s.dev.Only [R.hsMacGiant p] [0xC2] t.dev)
  ∧ (∀ (p : Fin 96) (f : List Byte) (lo hi : Nat) (s : State), s.dev.Receives p lo hi f.length →
    lo ≤ f.length → f.length ≤ hi → s.dev.fits p f.length = true →
    f.drop (f.length - 4) ≠ fcsOf (f.take (f.length - 4)) →
    ∃ t, exec (.macFrameRx p f false) s = .next t
      ∧ t.dev.get (F.hsMacFcserrCount p) = satAdd 32 (s.dev.get (F.hsMacFcserrCount p)) 1
      ∧ s.dev.Raised 0xC0 t.dev ∧ t.dev.pkt = s.dev.pkt ∧ s.dev.Only [R.hsMacFcserr p] [0xC0] t.dev)
  ∧ (∀ (p : Fin 96) (f : List Byte) (lo hi : Nat) (s : State), s.dev.Receives p lo hi f.length →
    lo ≤ f.length → f.length ≤ hi → s.dev.fits p f.length = true →
    ∃ t, exec (.macFrameRx p f true) s = .next t
      ∧ t.dev.get (F.hsMacRxerrCount p) = satAdd 32 (s.dev.get (F.hsMacRxerrCount p)) 1
      ∧ s.dev.Raised 0xC0 t.dev ∧ t.dev.pkt = s.dev.pkt ∧ s.dev.Only [R.hsMacRxerr p] [0xC0] t.dev)
  ∧ (∀ (p : Fin 96) (f : List Byte) (pcs : Bool) (s : State), s.dev.farLoop p = true →
    ∃ t, exec (.macFrameRx p f pcs) s = .next t ∧ t.outputs = .portFrame p f :: s.outputs ∧ t.dev.pkt = s.dev.pkt ∧ s.dev.Only [] [] t.dev)

/-- Pause (R285 to R288): what a received pause frame loads, a timer that runs out, and the frames a port generates: at a
frame boundary at once, behind a frame in transmission or the wake from low-power idle held until then (R295), and in
a near-end loop received by the port itself (R319). The clauses rest on the model's choices of log 5, 46, 84. -/
def Obligations.PauseFramesWork : Prop :=
  (∀ (p : Fin 96) (f : List Byte) (lo hi : Nat) (s : State), s.dev.Receives p lo hi f.length →
    lo ≤ f.length → f.length ≤ hi → s.dev.fits p f.length = true → f.length = 64 →
    f.drop (f.length - 4) = fcsOf (f.take (f.length - 4)) → beAt f 12 2 = 0x8808 → beAt f 0 6 = 0x0180C2000001 → beAt f 14 2 = 1 →
    s.dev.get (F.hsMacFcMode p) = 1 →
    ∃ t, exec (.pauseFrameRx p f) s = .next t ∧ (t.dev.mac p).pause = beAt f 16 2
      ∧ t.dev.get (F.hsMacPauserxCount p) = satAdd 32 (s.dev.get (F.hsMacPauserxCount p)) 1
      ∧ t.dev.get (F.hsMacFcstatTxpaused p) = (if beAt f 16 2 = 0 then 0 else 1)
      ∧ ((s.dev.mac p).pause = 0 → beAt f 16 2 ≠ 0 → s.dev.Raised 0xC4 t.dev)
      ∧ s.dev.Only [R.hsMacPauserx p, R.hsMacFcstat p] [0xC4] t.dev)
  ∧ (∀ (p : Fin 96) (f : List Byte) (lo hi : Nat) (s : State), s.dev.Receives p lo hi f.length →
    lo ≤ f.length → f.length ≤ hi → s.dev.fits p f.length = true → f.length = 64 →
    f.drop (f.length - 4) = fcsOf (f.take (f.length - 4)) → beAt f 12 2 = 0x8808 → beAt f 0 6 = 0x0180C2000001 →
    beAt f 14 2 = 0x0101 → s.dev.get (F.hsMacFcMode p) = 2 →
    ∃ t, exec (.pauseFrameRx p f) s = .next t
      ∧ (∀ c < 8, Tbl.get 0 (t.dev.mac p).pfc c
          = if (beAt f 16 2).testBit c && (s.dev.get (F.hsMacFcRxpfcen p)).testBit c then beAt f (18 + 2 * c) 2
            else Tbl.get 0 (s.dev.mac p).pfc c)
      ∧ t.dev.get (F.hsMacPauserxCount p) = satAdd 32 (s.dev.get (F.hsMacPauserxCount p)) 1
      ∧ s.dev.Only [R.hsMacPauserx p, R.hsMacFcstat p] [0xC4] t.dev)
  ∧ (∀ (p : Fin 96) (f : List Byte) (lo hi : Nat) (s : State), s.dev.Receives p lo hi f.length →
    lo ≤ f.length → f.length ≤ hi → s.dev.fits p f.length = true →
    f.drop (f.length - 4) = fcsOf (f.take (f.length - 4)) → beAt f 12 2 = 0x8808 → s.dev.get (F.hsMacFcMode p) = 0 →
    ∃ t, exec (.pauseFrameRx p f) s = .next t ∧ t.dev.macs = s.dev.macs
      ∧ t.dev.get (F.hsMacCtrlunkCount p) = satAdd 32 (s.dev.get (F.hsMacCtrlunkCount p)) 1 ∧ s.dev.Raised 0xCD t.dev
      ∧ s.dev.Only [R.hsMacCtrlunk p] [0xCD] t.dev)
  ∧ (∀ (p : Fin 96) (s : State), ∃ t, exec (.pauseTimerExpire p none) s = .next t ∧ (t.dev.mac p).pause = 0
      ∧ (t.dev.mac p).pfc = (s.dev.mac p).pfc ∧ t.dev.get (F.hsMacFcstatTxpaused p) = 0 ∧ s.dev.Only [R.hsMacFcstat p] [] t.dev)
  ∧ (∀ (p : Fin 96) (c : Fin 8) (s : State), ∃ t, exec (.pauseTimerExpire p (some c)) s = .next t ∧ Tbl.get 0 (t.dev.mac p).pfc c = 0
      ∧ (t.dev.mac p).pause = (s.dev.mac p).pause ∧ (t.dev.get (F.hsMacFcstatPfcstop p)).testBit c = false
      ∧ s.dev.Only [R.hsMacFcstat p] [] t.dev)
  ∧ (∀ (p : Fin 96) (arriving : Nat) (s : State), s.dev.generates p = true → s.dev.get (F.hsMacFcstatXoffact p) = 0 →
    s.dev.get (F.hsMacFcthrXoff p) ≤ s.dev.storeFill p arriving → s.dev.AtBoundary p →
    ∃ t, exec (.pauseXoff p arriving) s = .next t ∧ .portFrame p (s.dev.pauseFrame p (s.dev.get (F.hsMacPqPquanta p))) ∈ t.outputs
      ∧ t.dev.get (F.hsMacFcstatXoffact p) = 1
      ∧ t.dev.get (F.hsMacPausetxCount p) = satAdd 32 (s.dev.get (F.hsMacPausetxCount p)) 1 ∧ s.dev.Raised 0xC5 t.dev
      ∧ s.dev.Only [R.hsMacFcstat p, R.hsMacPausetx p] [0xC5] t.dev)
  ∧ (∀ (p : Fin 96) (s : State), s.dev.generates p = true → s.dev.get (F.hsMacFcstatXoffact p) = 1 → s.dev.AtBoundary p →
    ∃ t, exec (.pauseRepeat p) s = .next t
      ∧ t.outputs = .portFrame p (s.dev.pauseFrame p (s.dev.get (F.hsMacPqPquanta p))) :: s.outputs
      ∧ t.dev.get (F.hsMacPausetxCount p) = satAdd 32 (s.dev.get (F.hsMacPausetxCount p)) 1
      ∧ s.dev.Only [R.hsMacPausetx p] [] t.dev)
  ∧ (∀ (p : Fin 96) (s : State), s.dev.generates p = true → s.dev.get (F.hsMacFcstatXoffact p) = 1 →
    s.dev.get (F.hsMacLpistatTxlpi p) = 0 → (s.dev.mac p).cur ≠ none ∨ s.dev.time.ticks < (s.dev.mac p).wakeAt →
    ∃ t, exec (.pauseRepeat p) s = .next t ∧ t.outputs = s.outputs
      ∧ (t.dev.mac p).gen = (s.dev.mac p).gen ++ [s.dev.pauseFrame p (s.dev.get (F.hsMacPqPquanta p))]
      ∧ t.dev.get (F.hsMacPausetxCount p) = satAdd 32 (s.dev.get (F.hsMacPausetxCount p)) 1
      ∧ s.dev.Only [R.hsMacPausetx p] [] t.dev)
  ∧ (∀ (p : Fin 96) (s : State), s.dev.generates p = true → s.dev.get (F.hsMacFcstatXoffact p) = 1 →
    s.dev.get (F.hsMacLpistatTxlpi p) = 1 → s.dev.get (F.hsMacLpiTw p) ≠ 0 →
    ∃ t, exec (.pauseRepeat p) s = .next t ∧ t.outputs = s.outputs ∧ t.dev.get (F.hsMacLpistatTxlpi p) = 0
      ∧ (t.dev.mac p).gen = (s.dev.mac p).gen ++ [s.dev.pauseFrame p (s.dev.get (F.hsMacPqPquanta p))]
      ∧ (t.dev.mac p).wakeAt = s.dev.time.ticks + (s.dev.get (F.hsMacLpiTw p) * 100 + 15) / 16
      ∧ s.dev.Only [R.hsMacPausetx p, R.hsMacLpistat p] [] t.dev)
  ∧ (∀ (p : Fin 96) (lo hi : Nat) (s : State), s.dev.generates p = true → s.dev.get (F.hsMacFcstatXoffact p) = 1 →
    s.dev.get (F.hsLnLoopMode p) = 1 → s.dev.Receives p lo hi 64 → s.dev.fits p 64 = true → s.dev.get (F.hsMacFcMode p) = 1 →
    lo ≤ 64 → 64 ≤ hi → (s.dev.mac p).cur = none → (s.dev.mac p).gen = [] → s.dev.get (F.hsMacLpistatTxlpi p) = 0 →
    (s.dev.mac p).wakeAt ≤ s.dev.time.ticks →
    ∃ t, exec (.pauseRepeat p) s = .next t ∧ t.outputs = s.outputs ∧ (t.dev.mac p).pause = s.dev.get (F.hsMacPqPquanta p)
      ∧ t.dev.get (F.hsMacPauserxCount p) = satAdd 32 (s.dev.get (F.hsMacPauserxCount p)) 1
      ∧ t.dev.get (F.hsMacPausetxCount p) = satAdd 32 (s.dev.get (F.hsMacPausetxCount p)) 1)
  ∧ (∀ (p : Fin 96) (arriving : Nat) (s : State), s.dev.generates p = true → s.dev.get (F.hsMacFcstatXoffact p) = 1 →
    s.dev.storeFill p arriving < s.dev.get (F.hsMacFcthrXon p) → s.dev.AtBoundary p →
    ∃ t, exec (.pauseXon p arriving) s = .next t ∧ t.outputs = .portFrame p (s.dev.pauseFrame p 0) :: s.outputs
      ∧ t.dev.get (F.hsMacFcstatXoffact p) = 0
      ∧ t.dev.get (F.hsMacPausetxCount p) = satAdd 32 (s.dev.get (F.hsMacPausetxCount p)) 1
      ∧ s.dev.Only [R.hsMacFcstat p, R.hsMacPausetx p] [] t.dev)

/-- A transmitted frame and its timestamp (R283, R288, R298 to R300): sent whole and counted, or dropped for its length
against the MAXLEN of its start, a generated frame that waits behind it; a PTP event frame leaves its stamp in the
queue, which a POP shortens. Gate lists (R289 to R293): a commit makes a pending list with its change time, CANCEL
takes it back, at the change time it becomes the list in force, and GSTAT follows the list. The clauses rest on the
model's choices of log 5, 84. -/
def Obligations.FramesAreSentAndGated : Prop :=
  (∀ (p : Fin 96) (x : QPkt) (s : State), (s.dev.mac p).cur = some x → s.dev.InjIdle p → s.dev.get (F.hsLnLoopMode p) ≠ 1 → s.dev.get (F.hsLnLoopMode p) ≠ 2 →
    (s.dev.mac p).gen = [] → (s.dev.txFrame p x.pkt).length ≤ (s.dev.mac p).curMax →
    ∃ t, exec (.macFrameTx p) s = .next t ∧ t.outputs.head? = some (.portFrame p (s.dev.txFrame p x.pkt)) ∧ (t.dev.mac p).cur = none
      ∧ t.dev.get (F.hsMacTxfrmCount p) = satAdd 32 (s.dev.get (F.hsMacTxfrmCount p)) 1
      ∧ (t.dev.mac p).txBytes = min ((s.dev.mac p).txBytes + (s.dev.txFrame p x.pkt).length) (2 ^ 64 - 1)
      ∧ (∀ o, ptpAt x.pkt = some o → (s.dev.mac p).txts.length < 16 →
          (t.dev.mac p).txts = (s.dev.mac p).txts ++ [⟨⟨s.dev.time.ns, s.dev.time.sub / 256⟩,
            beAt x.pkt.bytes o 1 % 16, beAt x.pkt.bytes (o + 30) 2⟩] ∧ t.dev.get (F.hsMacTxtssubValid p) = 1)
      ∧ (∀ o, ptpAt x.pkt = some o → 16 ≤ (s.dev.mac p).txts.length →
          t.dev.get (F.hsMacTxtsctlTsovf p) = satAdd 8 (s.dev.get (F.hsMacTxtsctlTsovf p)) 1 ∧ s.dev.Raised 0xCA t.dev))
  ∧ (∀ (p : Fin 96) (x : QPkt) (s : State), (s.dev.mac p).cur = some x →
    (s.dev.mac p).curMax < (s.dev.txFrame p x.pkt).length →
    ∃ t, exec (.macFrameTx p) s = .next t ∧ (t.dev.mac p).cur = none
      ∧ t.dev.get (F.hsMacTxdropCount p) = satAdd 32 (s.dev.get (F.hsMacTxdropCount p)) 1
      ∧ t.dev.get (F.hsMacTxfrmCount p) = s.dev.get (F.hsMacTxfrmCount p))
  ∧ (∀ (p : Fin 96) (x : QPkt) (g : List Byte) (s : State), (s.dev.mac p).cur = some x → s.dev.InjIdle p →
    s.dev.get (F.hsLnLoopMode p) ≠ 1 → s.dev.get (F.hsLnLoopMode p) ≠ 2 → (s.dev.mac p).gen = [g] → (s.dev.mac p).wakeAt ≤ s.dev.time.ticks →
    (s.dev.txFrame p x.pkt).length ≤ (s.dev.mac p).curMax →
    ∃ t, exec (.macFrameTx p) s = .next t ∧ t.outputs.head? = some (.portFrame p g)
      ∧ .portFrame p (s.dev.txFrame p x.pkt) ∈ t.outputs ∧ (t.dev.mac p).cur = none ∧ (t.dev.mac p).gen = [])
  ∧ (∀ (p : Fin 96) (s : State), s.dev.Takes (R.hsMacTxtsctl p) (s.dev.withField (F.hsMacTxtsctlPop p) 1) →
    (s.dev.mac p).txts.length ≤ 16 →
    ∃ t, exec (.txtsPop p) s = .next t ∧ t.outputs = .writeDone (R.hsMacTxtsctl p) 0 :: s.outputs
      ∧ (t.dev.mac p).txts = (s.dev.mac p).txts.drop 1
      ∧ t.dev.get (F.hsMacTxtsseqHeld p) = (s.dev.mac p).txts.length - 1
      ∧ s.dev.Only [R.hsMacTxtsctl p, R.hsMacTxtsns p, R.hsMacTxtssub p, R.hsMacTxtsseq p] [] t.dev)
  ∧ (∀ (p : Fin 96) (v : Word) (c : Nat × Bool) (s : State), s.dev.Takes (R.hsMacGctl p) ((F.hsMacGctlGo p).put v 1) →
    c = changeTime (s.dev.get (F.hsMacGbaseValue p)) s.dev.time.ns (s.dev.get (F.hsMacGleadValue p))
      (s.dev.get (F.hsMacGcycleValue p)) →
    ∃ t, exec (.gclCommit p v) s = .next t ∧ t.outputs.head? = some (.writeDone (R.hsMacGctl p) 0)
      ∧ t.dev.get (F.hsMacGctlPend p) = 1 ∧ t.dev.get (F.hsMacGchgValue p) = c.1
      ∧ ((t.dev.mac p).pend.map fun l => (l.entries.length, l.cycle, l.start))
          = some ((F.hsMacGctlAdmlen p).of v, s.dev.get (F.hsMacGcycleValue p), c.1)
      ∧ (c.2 = true → s.dev.Raised 0xC8 t.dev) ∧ (t.dev.mac p).oper = (s.dev.mac p).oper
      ∧ s.dev.Only [R.hsMacGctl p, R.hsMacGchg p, R.hsMacGstat p] [0xC8] t.dev)
  ∧ (∀ (p : Fin 96) (s : State), s.dev.Takes (R.hsMacGctl p) (s.dev.withField (F.hsMacGctlCancel p) 1) →
    ∃ t, exec (.gclCancel p) s = .next t ∧ t.outputs = .writeDone (R.hsMacGctl p) 0 :: s.outputs ∧ (t.dev.mac p).pend = none
      ∧ t.dev.get (F.hsMacGctlPend p) = 0 ∧ (t.dev.mac p).oper = (s.dev.mac p).oper
      ∧ s.dev.Only [R.hsMacGctl p, R.hsMacGstat p] [] t.dev)
  ∧ (∀ (p : Fin 96) (l : GateList) (s : State), (s.dev.mac p).pend = some l → s.dev.released (hsCord p) = true →
    unsignedOf 32 ((s.dev.time.ns : Int) - (l.start : Nat)) < 2 ^ 31 → s.dev.get (F.hsMacGctlGateen p) = 0 →
    ∃ t, exec (.macGclSwitch p) s = .next t ∧ (t.dev.mac p).oper = l ∧ (t.dev.mac p).pend = none ∧ t.dev.get (F.hsMacGctlPend p) = 0
      ∧ s.dev.Raised 0xC7 t.dev ∧ s.dev.Only [R.hsMacGctl p, R.hsMacGstat p] [0xC7] t.dev)
  ∧ (∀ (p : Fin 96) (s : State), s.dev.released (hsCord p) = true →
    ∃ t, exec (.gateEntryChange p) s = .next t ∧ (t.dev.mac p).oper.entries = (s.dev.mac p).oper.entries
      ∧ t.dev.get (F.hsMacGstatGates p) = (if s.dev.get (F.hsMacGctlGateen p) = 1 then
          (entryAt (t.dev.mac p).oper.entries 0 ((t.dev.mac p).oper.pos s.dev.time.ns)).2 % 256 else 255)
      ∧ t.dev.get (F.hsMacGstatCuridx p)
          = (entryAt (t.dev.mac p).oper.entries 0 ((t.dev.mac p).oper.pos s.dev.time.ns)).1 % 1024
      ∧ s.dev.Only [R.hsMacGstat p] [] t.dev)

/-- Links, low-power idle and parking (R278, R294 to R297, R324): what each changes of its port. The clauses rest on the
model's choices of log 43, 46, 49, 60. -/
def Obligations.PortsIdleParkAndWake : Prop :=
  (∀ (p : Fin 96) (s : State), s.dev.get (F.hsMacBondLanes p) ≠ 0 → s.dev.linkUp p = false →
    (∀ l ∈ s.dev.lanesOf p, s.dev.stage l = 5 ∧ s.dev.get (F.hsLnLoopMode l) = 0 ∧ s.dev.get (F.hsLnPrbsGen l) = 0
      ∧ s.dev.get (F.hsLnPrbsChk l) = 0) →
    ∃ t, exec (.macLinkUp p) s = .next t ∧ t.dev.linkUp p = true ∧ t.dev.get (F.hsMacParkPstate p) = 0 ∧ s.dev.Raised 0xCC t.dev
      ∧ s.dev.Only [R.hsMacBond p, R.hsMacPark p] [0xCC] t.dev)
  ∧ (∀ (p : Fin 96) (rxFrame : Bool) (s : State), s.dev.linkUp p = true → (s.dev.mac p).cur = none →
    ∃ t, exec (.macLinkDown p rxFrame) s = .next t ∧ t.dev.linkUp p = false ∧ s.dev.Raised 0xCB t.dev
      ∧ t.dev.get (F.hsMacRxerrCount p)
          = (if rxFrame then satAdd 32 (s.dev.get (F.hsMacRxerrCount p)) 1 else s.dev.get (F.hsMacRxerrCount p))
      ∧ s.dev.Only [R.hsMacBond p, R.hsMacRxerr p] [0xCB] t.dev)
  ∧ (∀ (p : Fin 96) (rxFrame : Bool) (x : QPkt) (s : State), s.dev.linkUp p = true → (s.dev.mac p).cur = some x →
    ∃ t, exec (.macLinkDown p rxFrame) s = .next t ∧ t.dev.linkUp p = false ∧ (t.dev.mac p).cur = none
      ∧ t.dev.get (F.hsMacTxdropCount p) = satAdd 32 (s.dev.get (F.hsMacTxdropCount p)) 1 ∧ s.dev.Raised 0xCB t.dev)
  ∧ (∀ (p : Fin 96) (s : State), s.dev.get (F.hsMacLpiEn p) = 1 → s.dev.linkUp p = true → s.dev.get (F.hsMacLpistatTxlpi p) = 0 →
    (s.dev.mac p).cur = none → (s.dev.mac p).gen = [] → (∀ q ∈ s.dev.queuesOf p, ∀ x ∈ (s.dev.queue q).pkts.head?,
      (s.dev.shapersOk q && s.dev.portMay p q x.pkt) = false) →
    ∃ t, exec (.lpiEnter p) s = .next t ∧ t.dev.get (F.hsMacLpistatTxlpi p) = 1
      ∧ t.dev.get (F.hsMacLpistatTxlpicnt p) = satAdd 8 (s.dev.get (F.hsMacLpistatTxlpicnt p)) 1
      ∧ s.dev.Only [R.hsMacLpistat p] [] t.dev)
  ∧ (∀ (p : Fin 96) (s : State), s.dev.portBusy p = true → ∃ t, exec (.lpiExit p) s = .next t ∧ t.dev.get (F.hsMacLpistatTxlpi p) = 0
      ∧ (t.dev.mac p).wakeAt = (if s.dev.get (F.hsMacLpistatTxlpi p) = 1 then
          s.dev.time.ticks + (s.dev.get (F.hsMacLpiTw p) * 100 + 15) / 16 else (s.dev.mac p).wakeAt)
      ∧ t.dev.get (F.hsMacLpistatTxlpicnt p) = s.dev.get (F.hsMacLpistatTxlpicnt p) ∧ s.dev.Only [R.hsMacLpistat p] [] t.dev)
  ∧ (∀ (p : Fin 96) (s : State), s.dev.linkUp p = true → s.dev.get (F.hsMacLpistatRxlpi p) = 0 →
    ∃ t, exec (.receiverLpi p true) s = .next t ∧ t.dev.get (F.hsMacLpistatRxlpi p) = 1
      ∧ t.dev.get (F.hsMacLpistatRxlpicnt p) = satAdd 8 (s.dev.get (F.hsMacLpistatRxlpicnt p)) 1
      ∧ s.dev.Only [R.hsMacLpistat p] [] t.dev)
  ∧ (∀ (p : Fin 96) (s : State), ∃ t, exec (.receiverLpi p false) s = .next t ∧ t.dev.get (F.hsMacLpistatRxlpi p) = 0
      ∧ s.dev.Only [R.hsMacLpistat p] [] t.dev)
  ∧ (∀ (p : Fin 96) (s : State), s.dev.portBusy p = false →
    ∃ t, exec (.lpiExit p) s = .next t ∧ t.dev.macs = s.dev.macs ∧ s.dev.Only [] [] t.dev)
  ∧ (∀ (p : Fin 96) (s : State), s.dev.Takes (R.hsMacPark p) (s.dev.withField (F.hsMacParkPark p) 1) →
    s.dev.get (F.hsMacParkPstate p) ≠ 1 →
    ∃ t, exec (.macPark p) s = .next t ∧ t.outputs.head? = some (.writeDone (R.hsMacPark p) 0)
      ∧ t.dev.get (F.hsMacParkPark p) = 1 ∧ t.dev.get (F.hsMacParkPstate p) = 1 ∧ t.dev.linkUp p = false
      ∧ (∀ l ∈ s.dev.lanesOf p, t.dev.stage l = 0) ∧ (t.dev.mac p).pause = 0 ∧ (t.dev.mac p).pfc = []
      ∧ (t.dev.get (F.hsMacRxerrCount p) = s.dev.get (F.hsMacRxerrCount p)
          ∨ s.dev.linkUp p = true ∧ t.dev.get (F.hsMacRxerrCount p) = satAdd 32 (s.dev.get (F.hsMacRxerrCount p)) 1)
      ∧ t.dev.get (F.hsMacLpistatTxlpi p) = 0 ∧ s.dev.Raised 0xCE t.dev)
  ∧ (∀ (p : Fin 96) (s : State), s.dev.Takes (R.hsMacPark p) (s.dev.withField (F.hsMacParkPark p) 0) →
    s.dev.get (F.hsMacParkPstate p) = 1 →
    ∃ t, exec (.portUnpark p) s = .next t ∧ t.outputs.head? = some (.writeDone (R.hsMacPark p) 0)
      ∧ t.dev.get (F.hsMacParkPark p) = 0 ∧ t.dev.get (F.hsMacParkPstate p) = 2 ∧ s.dev.Raised 0xC9 t.dev)
  ∧ (∀ (p : Fin 96) (periods : List (BitVec 128)) (s : State), s.dev.waiting = [] →
    periods.all tinderCounts = true → 640 ≤ Tbl.get 0 s.dev.pwr.tinderRun p + periods.length → s.dev.cordOn (hsCord p) = true →
    s.dev.get (F.hsMacParkPstate p) = 1 → s.dev.get F.hrtPwrCfgAutotin = 0 →
    ∃ t, exec (.macTinderWake p periods) s = .next t ∧ t.dev.get (F.hsMacParkPark p) = 0 ∧ t.dev.get (F.hsMacParkPstate p) = 2
      ∧ s.dev.Raised 0xC9 t.dev)
  ∧ (∀ (p : Fin 96) (periods : List (BitVec 128)) (s : State), s.dev.waiting = [] →
    periods.all tinderCounts = true → 640 ≤ Tbl.get 0 s.dev.pwr.tinderRun p + periods.length → s.dev.cordSt (hsCord p) = 0 →
    s.dev.standby p = true → s.dev.get F.hrtPwrCfgAutotin = 0 →
    ∃ t, exec (.macTinderWake p periods) s = .next t ∧ t.dev.cordSt (hsCord p) = 1 ∧ p.val ∈ t.dev.pwr.tinder)
  ∧ (∀ (p : Fin 96) (x : BitVec 128) (s : State), s.dev.waiting = [] → s.dev.tinderOn p = true → tinderCounts x = false →
    Tbl.get 0 s.dev.pwr.tinderRun p < 640 →
    ∃ t, exec (.macTinderWake p [x]) s = .next t ∧ Tbl.get 0 t.dev.pwr.tinderRun p = 0 ∧ s.dev.Only [] [] t.dev)
  ∧ (∀ (p : Fin 96) (x : BitVec 128) (s : State), s.dev.waiting = [] → s.dev.tinderOn p = true → tinderCounts x = true →
    Tbl.get 0 s.dev.pwr.tinderRun p < 639 →
    ∃ t, exec (.macTinderWake p [x]) s = .next t ∧ Tbl.get 0 t.dev.pwr.tinderRun p = Tbl.get 0 s.dev.pwr.tinderRun p + 1
      ∧ s.dev.Only [] [] t.dev)

/-! ### Host lanes (11_host_lanes) -/

/-- Kindling from detection to symbol lock (R308 to R311, R317): each moment moves the stage on, in training each better
eye asks the card for another step and the first that is no better ends it, and each timeout and failed negotiation
sends the lane to stage 6 with its event. The clauses rest on the model's choices of log 5, 47, 84. -/
def Obligations.KindlingGoesStageByStage : Prop :=
  (∀ (l : Fin 96) (s : State), s.dev.stage l = 1 → s.dev.runs l = true → s.dev.lcfg l F.hsLnCfgAnen = 0 →
    s.dev.lcfg l F.hsLnCfgTrnen = 1 →
    ∃ t, exec (.lnDetect l) s = .next t ∧ t.dev.stage l = 2 ∧ s.dev.Raised 0xB0 t.dev
      ∧ .trainFrame l none false ∈ t.outputs ∧ s.dev.Only [R.hsLnStat l, R.hsLngSum0 (l / 48), R.hsLngSum1 (l / 48)] [0xB0] t.dev)
  ∧ (∀ (l : Fin 96) (s : State), s.dev.stage l = 1 → s.dev.runs l = true → s.dev.lcfg l F.hsLnCfgAnen = 0 →
    s.dev.lcfg l F.hsLnCfgTrnen = 0 →
    ∃ t, exec (.lnDetect l) s = .next t ∧ t.dev.stage l = 3 ∧ s.dev.Raised 0xB0 t.dev ∧ t.dev.getInt (F.hsLnTxeqCm2 l) = 0
      ∧ t.dev.getInt (F.hsLnTxeqCm1 l) = -6 ∧ t.dev.getInt (F.hsLnTxeqC1 l) = -10 ∧ t.dev.getInt (F.hsLnTxeqC0 l) = 48
      ∧ .kindling l (s.dev.kindlingOf l) ∈ t.outputs)
  ∧ (∀ (l : Fin 96) (s : State), s.dev.stage l = 1 → s.dev.runs l = true → s.dev.lcfg l F.hsLnCfgAnen = 1 →
    ∃ t, exec (.lnDetect l) s = .next t ∧ (t.dev.lane l).detected = true
      ∧ t.outputs = .autoneg l (s.dev.laneRate l) (s.dev.get (F.hsMacBondLanes (s.dev.firstLane l))) (s.dev.get (F.hsLnCfgFecallow l)) :: s.outputs
      ∧ s.dev.Only [] [] t.dev)
  ∧ (∀ (l : Fin 96) (offer : BitVec 4) (s : State), s.dev.stage l = 1 → s.dev.runs l = true → s.dev.lcfg l F.hsLnCfgAnen = 1 →
    (s.dev.lane l).detected = true → s.dev.lcfg l F.hsLnCfgTrnen = 1 →
    ∃ t, exec (.autonegDone l true offer) s = .next t ∧ t.dev.stage l = 2 ∧ (t.dev.lane l).offer = some offer.toNat
      ∧ s.dev.Raised 0xB0 t.dev ∧ s.dev.Only [R.hsLnStat l, R.hsLngSum0 (l / 48), R.hsLngSum1 (l / 48)] [0xB0] t.dev)
  ∧ (∀ (l : Fin 96) (offer : BitVec 4) (s : State), s.dev.stage l = 1 → s.dev.runs l = true → s.dev.lcfg l F.hsLnCfgAnen = 1 →
    (s.dev.lane l).detected = true →
    ∃ t, exec (.autonegDone l false offer) s = .next t ∧ t.dev.stage l = 6 ∧ s.dev.Raised 0xB1 t.dev
      ∧ t.dev.get (F.hsLnStatKfail l) = satAdd 8 (s.dev.get (F.hsLnStatKfail l)) 1)
  ∧ (∀ (l : Fin 96) (height width snr : Nat) (s : State), s.dev.stage l = 2 → s.dev.runs l = true → (s.dev.lane l).ready = false →
    (∀ b, (s.dev.lane l).best = some b → b < min height 255) →
    ∃ t ask, exec (.eyeMeasure l height width snr) s = .next t ∧ (t.dev.lane l).best = some (min height 255)
      ∧ t.outputs = .trainFrame l (some ask) false :: s.outputs ∧ (t.dev.lane l).ready = false ∧ s.dev.Only [] [] t.dev)
  ∧ (∀ (l : Fin 96) (height width snr b : Nat) (s : State), s.dev.stage l = 2 → s.dev.runs l = true → (s.dev.lane l).ready = false →
    (s.dev.lane l).best = some b → min height 255 ≤ b →
    ∃ t, exec (.eyeMeasure l height width snr) s = .next t ∧ t.outputs = .trainFrame l none true :: s.outputs
      ∧ (t.dev.lane l).ready = true ∧ s.dev.Only [] [] t.dev)
  ∧ (∀ (l : Fin 96) (s : State), s.dev.stage l = 2 → s.dev.runs l = true → (s.dev.lane l).ready = true →
    ∃ t, exec (.trainingDone l) s = .next t ∧ t.dev.stage l = 3
      ∧ t.outputs = .kindling l (s.dev.kindlingOf l) :: s.outputs
      ∧ s.dev.Only [R.hsLnStat l] [] t.dev)
  ∧ (∀ (l : Fin 96) (s : State), s.dev.stage l = 2 → s.dev.runs l = true →
    ∃ t, exec (.lnTrainTo l) s = .next t ∧ t.dev.stage l = 6 ∧ s.dev.Raised 0xB2 t.dev
      ∧ t.dev.get (F.hsLnStatKfail l) = satAdd 8 (s.dev.get (F.hsLnStatKfail l)) 1)
  ∧ (∀ (l : Fin 96) (s : State), s.dev.stage l = 3 → s.dev.runs l = true → s.dev.get (F.hsLnStatLrxact l) = 0 →
    eyesConverged (s.dev.lane l).eyes = true →
    ∃ t, exec (.symbolLock l) s = .next t ∧ t.dev.stage l = 4 ∧ t.outputs = .kindling l (t.dev.kindlingOf l) :: s.outputs
      ∧ (t.dev.lane l).lrxReq = (s.dev.lcfg l F.hsLnCfgLrxen == 1
          && decide (s.dev.get (F.hsLnEyeEyeh l) < s.dev.get (F.hsLnEyethrLrxthr l)))
      ∧ s.dev.Only [R.hsLnStat l] [] t.dev)
  ∧ (∀ (l : Fin 96) (s : State), s.dev.stage l = 3 → s.dev.get (F.hsLnPrbsGen l) = 0 →
    s.dev.get (F.hsLnLoopMode l) = 1 ∨ s.dev.get (F.hsLnStatLrxact l) = 1 → eyesConverged (s.dev.lane l).eyes = true →
    ∃ t, exec (.symbolLock l) s = .next t ∧ t.dev.stage l = 5 ∧ s.dev.Raised 0xB7 t.dev
      ∧ s.dev.Only [R.hsLnStat l, R.hsLngSum0 (l / 48), R.hsLngSum1 (l / 48)] [0xB7] t.dev)
  ∧ (∀ (l : Fin 96) (s : State), eyesConverged (s.dev.lane l).eyes = false →
    ∃ t, exec (.symbolLock l) s = .next t ∧ t.dev.lanes = s.dev.lanes ∧ t.outputs = s.outputs ∧ s.dev.Only [] [] t.dev)
  ∧ (∀ (l : Fin 96) (s : State), s.dev.stage l = 3 → s.dev.runs l = true →
    ∃ t, exec (.lnLockTo l) s = .next t ∧ t.dev.stage l = 6 ∧ s.dev.Raised 0xB3 t.dev
      ∧ t.dev.get (F.hsLnStatKfail l) = satAdd 8 (s.dev.get (F.hsLnStatKfail l)) 1)
  ∧ (∀ (l : Fin 96) (s : State), s.dev.stage l = 6 →
    ∃ t, exec (.retryExpire l) s = .next t
      ∧ t.dev.stage l = (if s.dev.laneOn l then (if s.dev.get (F.hsLnLoopMode l) = 1 then 3 else if s.dev.get (F.hsLnLoopMode l) = 2 then 5
          else 1) else 0)
      ∧ (s.dev.laneOn l = true → (t.dev.lane l).cfg = s.dev.reg (R.hsLnCfg l))
      ∧ s.dev.Only [R.hsLnStat l, R.hsLngSum0 (l / 48), R.hsLngSum1 (l / 48)] [0xB7] t.dev)

/-- The requests of a training frame (R310): the preset and the initial taps, a step of c(−1) down or up, c(0), an
unsupported tap, and requests that contradict one another. The clauses rest on the model's choices of log 47. -/
def Obligations.TrainingMovesTheTaps : Prop :=
  (∀ (l : Fin 96) (q : TrainReq) (s : State), s.dev.stage l = 2 → s.dev.runs l = true → contradicts q = true →
    ∃ t, exec (.trainingRequest l q) s = .next t ∧ s.dev.Raised 0xBB t.dev
      ∧ t.dev.get (F.hsLnLoopProto l) = satAdd 8 (s.dev.get (F.hsLnLoopProto l)) 1 ∧ t.dev.reg (R.hsLnTxeq l) = s.dev.reg (R.hsLnTxeq l)
      ∧ s.dev.Only [R.hsLnLoop l, R.hsLngSum0 (l / 48), R.hsLngSum1 (l / 48)] [0xBB] t.dev)
  ∧ (∀ (l : Fin 96) (s : State), s.dev.stage l = 2 → s.dev.runs l = true →
    ∃ t, exec (.trainingRequest l ⟨true, false, []⟩) s = .next t ∧ t.outputs = .training l [0] :: s.outputs
      ∧ t.dev.get (F.hsLnTxeqCm2 l) = 0 ∧ t.dev.get (F.hsLnTxeqCm1 l) = 0 ∧ t.dev.get (F.hsLnTxeqC1 l) = 0
      ∧ t.dev.get (F.hsLnTxeqC0 l) = 64 ∧ s.dev.Only [R.hsLnTxeq l] [] t.dev)
  ∧ (∀ (l : Fin 96) (s : State), s.dev.stage l = 2 → s.dev.runs l = true →
    ∃ t, exec (.trainingRequest l ⟨false, true, []⟩) s = .next t ∧ t.outputs = .training l [0] :: s.outputs
      ∧ t.dev.getInt (F.hsLnTxeqCm2 l) = 0 ∧ t.dev.getInt (F.hsLnTxeqCm1 l) = -6 ∧ t.dev.getInt (F.hsLnTxeqC1 l) = -10
      ∧ t.dev.getInt (F.hsLnTxeqC0 l) = 48 ∧ s.dev.Only [R.hsLnTxeq l] [] t.dev)
  ∧ (∀ (l : Fin 96) (v c0 : Int) (s : State), s.dev.stage l = 2 → s.dev.runs l = true → s.dev.get (F.hsLnStatLrxact l) = 0 →
    v = s.dev.getInt (F.hsLnTxeqCm1 l) - 1 →
    c0 = 64 - ((s.dev.getInt (F.hsLnTxeqCm2 l)).natAbs + v.natAbs + (s.dev.getInt (F.hsLnTxeqC1 l)).natAbs : Nat) →
    -16 ≤ v → v ≤ 0 → 24 ≤ c0 →
    ∃ t, exec (.trainingRequest l ⟨false, false, [(.cm1, false)]⟩) s = .next t ∧ t.outputs = .training l [0] :: s.outputs
      ∧ t.dev.getInt (F.hsLnTxeqCm1 l) = v ∧ t.dev.getInt (F.hsLnTxeqC0 l) = c0
      ∧ t.dev.getInt (F.hsLnTxeqC1 l) = s.dev.getInt (F.hsLnTxeqC1 l) ∧ s.dev.Only [R.hsLnTxeq l] [] t.dev)
  ∧ (∀ (l : Fin 96) (s : State), s.dev.stage l = 2 → s.dev.runs l = true → s.dev.get (F.hsLnStatLrxact l) = 0 →
    s.dev.getInt (F.hsLnTxeqCm1 l) = -16 →
    ∃ t, exec (.trainingRequest l ⟨false, false, [(.cm1, false)]⟩) s = .next t ∧ t.outputs = .training l [1] :: s.outputs
      ∧ s.dev.Only [] [] t.dev)
  ∧ (∀ (l : Fin 96) (v c0 : Int) (s : State), s.dev.stage l = 2 → s.dev.runs l = true → v = s.dev.getInt (F.hsLnTxeqCm1 l) + 1 →
    c0 = 64 - ((s.dev.getInt (F.hsLnTxeqCm2 l)).natAbs + v.natAbs + (s.dev.getInt (F.hsLnTxeqC1 l)).natAbs : Nat) →
    v ≤ 0 → -128 ≤ c0 →
    ∃ t, exec (.trainingRequest l ⟨false, false, [(.cm1, true)]⟩) s = .next t ∧ t.outputs = .training l [0] :: s.outputs
      ∧ t.dev.getInt (F.hsLnTxeqCm1 l) = v ∧ t.dev.getInt (F.hsLnTxeqC0 l) = c0
      ∧ t.dev.getInt (F.hsLnTxeqC1 l) = s.dev.getInt (F.hsLnTxeqC1 l) ∧ s.dev.Only [R.hsLnTxeq l] [] t.dev)
  ∧ (∀ (l : Fin 96) (up : Bool) (s : State), s.dev.stage l = 2 → s.dev.runs l = true →
    ∃ t, exec (.trainingRequest l ⟨false, false, [(.c0, up)]⟩) s = .next t
      ∧ t.outputs = .training l [if up then 2 else 1] :: s.outputs ∧ s.dev.Only [] [] t.dev)
  ∧ (∀ (l : Fin 96) (up : Bool) (s : State), s.dev.stage l = 2 → s.dev.runs l = true → s.dev.pam4 l = false →
    ∃ t, exec (.trainingRequest l ⟨false, false, [(.cm2, up)]⟩) s = .next t ∧ t.outputs = .training l [3] :: s.outputs
      ∧ s.dev.Only [] [] t.dev)

/-- The capability exchange of a lane that is a port alone (R306, R312 to R317): a bad frame breaks the run, a good one is
shown and counted, the third that agrees ends the exchange in stage 5 or in a mismatch, as does the acknowledgement
where it comes after them, and the timeout ends it in stage 6 or as a legacy lane. The clauses rest on the model's
choices of log 5, 48. -/
def Obligations.CapabilitiesAreExchanged : Prop :=
  (∀ (l : Fin 96) (frame : BitVec 128) (s : State), s.dev.stage l = 4 → s.dev.runs l = true →
    frame.toNat / 2 ^ 96 ≠ 0x4B494E44 ∨ crc16 (bitsOf 112 (frame.toNat / 2 ^ 16)) ≠ frame.toNat % 2 ^ 16 →
    ∃ t, exec (.kindlingFrameRx l frame) s = .next t ∧ (t.dev.lane l).run = 0 ∧ t.outputs = s.outputs ∧ s.dev.Only [] [] t.dev)
  ∧ (∀ (l : Fin 96) (frame : BitVec 128) (msg : Nat) (s : State), s.dev.stage l = 4 → s.dev.runs l = true →
    frame.toNat / 2 ^ 96 = 0x4B494E44 → crc16 (bitsOf 112 (frame.toNat / 2 ^ 16)) = frame.toNat % 2 ^ 16 →
    msg = frame.toNat / 2 ^ 32 % 2 ^ 64 → msg / 2 ^ 60 = 1 → (s.dev.lane l).run ≤ 1 → (s.dev.lane l).agreed = none →
    ∃ t, exec (.kindlingFrameRx l frame) s = .next t ∧ t.dev.stage l = 4 ∧ t.dev.get (F.hsLnCaprxloMsg l) = msg % 2 ^ 32
      ∧ t.dev.get (F.hsLnCaprxhiMsg l) = msg / 2 ^ 32 ∧ (t.dev.lane l).good = true
      ∧ (t.dev.lane l).msg = some (msg, frame.toNat / 2 ^ 24 % 128)
      ∧ (t.dev.lane l).run = (if (s.dev.lane l).msg = some (msg, frame.toNat / 2 ^ 24 % 128) then (s.dev.lane l).run + 1 else 1)
      ∧ s.dev.Only [R.hsLnCaprxlo l, R.hsLnCaprxhi l] [] t.dev)
  ∧ (∀ (l : Fin 96) (frame : BitVec 128) (msg c : Nat) (s : State), s.dev.stage l = 4 → s.dev.runs l = true →
    frame.toNat / 2 ^ 96 = 0x4B494E44 → crc16 (bitsOf 112 (frame.toNat / 2 ^ 16)) = frame.toNat % 2 ^ 16 →
    msg = frame.toNat / 2 ^ 32 % 2 ^ 64 → msg / 2 ^ 60 = 1 → 2 ≤ (s.dev.lane l).run → (s.dev.lane l).acked = true →
    (s.dev.lane l).msg = some (msg, frame.toNat / 2 ^ 24 % 128) → s.dev.portOf l = some l.val → s.dev.get (F.hsMacBondLanes l) = 1 →
    s.dev.capBad l msg = false → s.dev.lcfg l F.hsLnCfgLrxen = 0 →
    strongest (s.dev.get (F.hsLnCfgFecallow l) &&& msg / 2 ^ 23 % 16) = some c →
    ∃ t, exec (.kindlingFrameRx l frame) s = .next t ∧ t.dev.stage l = 5 ∧ t.dev.get (F.hsLnStatFecres l) = c ∧ s.dev.Raised 0xB7 t.dev)
  ∧ (∀ (l : Fin 96) (frame : BitVec 128) (msg : Nat) (s : State), s.dev.stage l = 4 → s.dev.runs l = true →
    frame.toNat / 2 ^ 96 = 0x4B494E44 → crc16 (bitsOf 112 (frame.toNat / 2 ^ 16)) = frame.toNat % 2 ^ 16 →
    msg = frame.toNat / 2 ^ 32 % 2 ^ 64 → msg / 2 ^ 60 = 1 → 2 ≤ (s.dev.lane l).run → (s.dev.lane l).acked = true →
    (s.dev.lane l).msg = some (msg, frame.toNat / 2 ^ 24 % 128) → s.dev.capBad l msg = true →
    ∃ t, exec (.kindlingFrameRx l frame) s = .next t ∧ t.dev.stage l = 6 ∧ s.dev.Raised 0xB5 t.dev
      ∧ t.dev.get (F.hsLnStatKfail l) = satAdd 8 (s.dev.get (F.hsLnStatKfail l)) 1)
  ∧ (∀ (l : Fin 96) (frame : BitVec 128) (msg m c : Nat) (s : State), s.dev.stage l = 4 → s.dev.runs l = true →
    frame.toNat / 2 ^ 96 = 0x4B494E44 → crc16 (bitsOf 112 (frame.toNat / 2 ^ 16)) = frame.toNat % 2 ^ 16 →
    msg = frame.toNat / 2 ^ 32 % 2 ^ 64 → msg / 2 ^ 60 = 1 → (s.dev.lane l).agreed = some m →
    (s.dev.lane l).msg ≠ some (msg, frame.toNat / 2 ^ 24 % 128) →
    frame.toNat.testBit 23 = true → frame.toNat / 2 ^ 16 % 128 = (s.dev.lane l).cseq →
    s.dev.portOf l = some l.val → s.dev.get (F.hsMacBondLanes l) = 1 →
    s.dev.capBad l m = false → s.dev.lcfg l F.hsLnCfgLrxen = 0 →
    strongest (s.dev.get (F.hsLnCfgFecallow l) &&& m / 2 ^ 23 % 16) = some c →
    ∃ t, exec (.kindlingFrameRx l frame) s = .next t ∧ t.dev.stage l = 5 ∧ t.dev.get (F.hsLnStatFecres l) = c ∧ s.dev.Raised 0xB7 t.dev)
  ∧ (∀ (l : Fin 96) (s : State), s.dev.stage l = 4 → s.dev.runs l = true →
    (s.dev.lane l).good = true ∨ s.dev.lcfg l F.hsLnCfgLegok = 0 →
    ∃ t, exec (.lnCapTo l) s = .next t ∧ t.dev.stage l = 6 ∧ s.dev.Raised 0xB4 t.dev
      ∧ t.dev.get (F.hsLnStatKfail l) = satAdd 8 (s.dev.get (F.hsLnStatKfail l)) 1)
  ∧ (∀ (l : Fin 96) (c : Nat) (s : State), s.dev.stage l = 4 → s.dev.runs l = true → (s.dev.lane l).good = false →
    s.dev.lcfg l F.hsLnCfgLegok = 1 → s.dev.portOf l = some l.val → s.dev.get (F.hsMacBondLanes l) = 1 →
    strongest (s.dev.get (F.hsLnCfgFecallow l) &&& (s.dev.lane l).offer.getD 15) = some c →
    ∃ t, exec (.lnCapTo l) s = .next t ∧ t.dev.stage l = 5 ∧ t.dev.get (F.hsLnStatLegacy l) = 1 ∧ t.dev.get (F.hsLnStatFecres l) = c
      ∧ (t.dev.lane l).legacyWait = true ∧ s.dev.Raised 0xB6 t.dev ∧ s.dev.Raised 0xB7 t.dev)

/-- Losses, loopback and PRBS of a lane (R317, R319, R320, R323, R324). What a lane measures (R321, R322, R326): the eye
and the FEC counts, with the event of each condition at its entry and the lane's bit in its die's summary. What a lane
sends is what one of the same precoding receives (R305). The clauses rest on the model's choices of log 47, 49, 84,
86. -/
def Obligations.LanesAreTestedAndMeasured : Prop :=
  (∀ (l : Fin 96) (s : State), s.dev.stage l = 5 → s.dev.get (F.hsLnLoopMode l) = 0 → s.dev.laneOn l = true →
    ∃ t, exec (.lnRemoved l) s = .next t ∧ t.dev.stage l = 1 ∧ s.dev.Raised 0xB9 t.dev ∧ s.dev.Raised 0xB8 t.dev
      ∧ t.dev.get (F.hsLnStatLostcnt l) = satAdd 8 (s.dev.get (F.hsLnStatLostcnt l)) 1
      ∧ (∀ p, s.dev.portOf l = some p → t.dev.linkUp p = false ∧ (s.dev.cordOn (hsCord p) = true → (t.dev.get (F.hsMacRxerrCount p)
          = s.dev.get (F.hsMacRxerrCount p) ∨ s.dev.linkUp p = true
          ∧ t.dev.get (F.hsMacRxerrCount p) = satAdd 32 (s.dev.get (F.hsMacRxerrCount p)) 1))))
  ∧ (∀ (l : Fin 96) (s : State), s.dev.stage l = 3 → s.dev.get (F.hsLnLoopMode l) = 0 → s.dev.laneOn l = true →
    ∃ t, exec (.lnRemoved l) s = .next t ∧ t.dev.stage l = 1 ∧ s.dev.Raised 0xB9 t.dev
      ∧ t.dev.get (F.hsLnStatLostcnt l) = s.dev.get (F.hsLnStatLostcnt l))
  ∧ (∀ (l : Fin 96) (s : State), s.dev.stage l = 5 → s.dev.get (F.hsLnLoopMode l) = 0 → s.dev.laneOn l = true →
    (∀ p, s.dev.portOf l = some p → s.dev.get (F.hsMacLpistatRxlpi p) = 0) →
    ∃ t, exec (.lnLockLost l) s = .next t ∧ t.dev.stage l = 1 ∧ s.dev.Raised 0xB8 t.dev
      ∧ t.dev.get (F.hsLnStatLostcnt l) = satAdd 8 (s.dev.get (F.hsLnStatLostcnt l)) 1
      ∧ (∀ p, s.dev.portOf l = some p → t.dev.linkUp p = false ∧ (s.dev.cordOn (hsCord p) = true → (t.dev.get (F.hsMacRxerrCount p)
          = s.dev.get (F.hsMacRxerrCount p) ∨ s.dev.linkUp p = true
          ∧ t.dev.get (F.hsMacRxerrCount p) = satAdd 32 (s.dev.get (F.hsMacRxerrCount p)) 1))))
  ∧ (∀ (l : Fin 96) (mode : Fin 4) (s : State), s.dev.Takes (R.hsLnLoop l) (s.dev.withField (F.hsLnLoopMode l) mode) →
    s.dev.laneOn l = true →
    ∃ t, exec (.loopMode l mode) s = .next t ∧ t.outputs.head? = some (.writeDone (R.hsLnLoop l) 0)
      ∧ t.dev.get (F.hsLnLoopMode l) = mode
      ∧ t.dev.stage l = (if mode.val = 0 then 1 else if mode.val = 1 then 3 else 5)
      ∧ (∀ p, s.dev.portOf l = some p → t.dev.linkUp p = false ∧ (s.dev.cordOn (hsCord p) = true → (t.dev.get (F.hsMacRxerrCount p)
          = s.dev.get (F.hsMacRxerrCount p) ∨ s.dev.linkUp p = true
          ∧ t.dev.get (F.hsMacRxerrCount p) = satAdd 32 (s.dev.get (F.hsMacRxerrCount p)) 1))))
  ∧ (∀ (l : Fin 96) (v : Word) (s : State), s.dev.Takes (R.hsLnPrbs l) v →
    (F.hsLnPrbsGen l).of v = 1 ∨ (F.hsLnPrbsChk l).of v = 1 →
    ∃ t, exec (.prbsControl l v) s = .next t ∧ t.outputs.head? = some (.writeDone (R.hsLnPrbs l) 0)
      ∧ (s.dev.get (F.hsLnPrbsGen l) = 0 → (F.hsLnPrbsGen l).of v = 1 → (F.hsLnPrbsPat l).of v ≠ 0 →
          .prbs l ((F.hsLnPrbsPat l).of v) ∈ t.outputs)
      ∧ t.dev.get (F.hsLnPrbsPat l) = (F.hsLnPrbsPat l).of v ∧ t.dev.get (F.hsLnPrbsGen l) = (F.hsLnPrbsGen l).of v
      ∧ t.dev.get (F.hsLnPrbsChk l) = (F.hsLnPrbsChk l).of v ∧ t.dev.stage l = s.dev.stage l
      ∧ (∀ p, s.dev.portOf l = some p → t.dev.linkUp p = false ∧ (s.dev.cordOn (hsCord p) = true → (t.dev.get (F.hsMacRxerrCount p)
          = s.dev.get (F.hsMacRxerrCount p) ∨ s.dev.linkUp p = true
          ∧ t.dev.get (F.hsMacRxerrCount p) = satAdd 32 (s.dev.get (F.hsMacRxerrCount p)) 1))))
  ∧ (∀ (l : Fin 96) (v : Word) (s : State), s.dev.Takes (R.hsLnPrbs l) v → (F.hsLnPrbsGen l).of v = 0 → (F.hsLnPrbsChk l).of v = 0 →
    s.dev.get (F.hsLnPrbsGen l) = 1 ∨ s.dev.get (F.hsLnPrbsChk l) = 1 → s.dev.get (F.hsLnLoopMode l) = 0 → s.dev.laneOn l = true →
    ∃ t, exec (.prbsControl l v) s = .next t ∧ t.outputs.head? = some (.writeDone (R.hsLnPrbs l) 0)
      ∧ t.dev.get (F.hsLnPrbsLock l) = 0 ∧ t.dev.stage l = 1)
  ∧ (∀ (l : Fin 96) (s : State), s.dev.get (F.hsLnPrbsChk l) = 1 →
    ∃ t, exec (.prbsCheckerLock l) s = .next t ∧ t.dev.get (F.hsLnPrbsLock l) = 1 ∧ s.dev.Only [R.hsLnPrbs l] [] t.dev)
  ∧ (∀ (l : Fin 96) (errors : Nat) (s : State), s.dev.get (F.hsLnPrbsChk l) = 1 → s.dev.get (F.hsLnPrbsLock l) = 1 → errors ≠ 0 →
    ∃ t, exec (.lnPrbsErr l errors) s = .next t ∧ t.dev.get (F.hsLnPrbsErr l) = satAdd 16 (s.dev.get (F.hsLnPrbsErr l)) errors
      ∧ ((s.dev.lane l).prbsErr = false → s.dev.Raised 0xBF t.dev)
      ∧ s.dev.Only [R.hsLnPrbs l, R.hsLngSum0 (l / 48), R.hsLngSum1 (l / 48)] [0xBF] t.dev)
  ∧ (∀ (l : Fin 96) (height width snr : Nat) (s : State), 3 ≤ s.dev.stage l → s.dev.stage l ≤ 5 →
    ∃ t, exec (.eyeMeasure l height width snr) s = .next t ∧ t.dev.get (F.hsLnEyeEyeh l) = min height 255
      ∧ t.dev.get (F.hsLnEyeEyew l) = min width 255 ∧ t.dev.get (F.hsLnEyeSnr l) = min snr 640
      ∧ (s.dev.stage l = 3 → (t.dev.lane l).eyes = (min height 255 :: (s.dev.lane l).eyes).take 4)
      ∧ (s.dev.stage l = 5 → min height 255 < s.dev.get (F.hsLnEyethrHmin l) → (s.dev.lane l).eyeLow = false →
          s.dev.Raised 0xBC t.dev)
      ∧ s.dev.Only [R.hsLnEye l, R.hsLngSum0 (l / 48), R.hsLngSum1 (l / 48)] [0xBC] t.dev)
  ∧ (∀ (l : Fin 96) (p : Nat) (s : State), s.dev.stage l = 5 → s.dev.firstLane l = p →
    ∃ t, exec (.lnFecUncorr l) s = .next t ∧ t.dev.get (F.hsLnFecucCount p) = satAdd 32 (s.dev.get (F.hsLnFecucCount p)) 1
      ∧ s.dev.Raised 0xBD t.dev
      ∧ (p % 48 < 32 → (t.dev.get (F.hsLngSum0Lanes (p / 48))).testBit (p % 48) = true)
      ∧ s.dev.Only [R.hsLnFecuc p, R.hsLngSum0 (p / 48), R.hsLngSum1 (p / 48)] [0xBD] t.dev)
  ∧ (∀ (l : Fin 96) (corrections codewords : Nat) (s : State), s.dev.stage l = 5 →
    ∃ t, exec (.laneFecSecond l corrections codewords) s = .next t
      ∧ t.dev.get (F.hsLnFecsymCount l) = satAdd 32 (s.dev.get (F.hsLnFecsymCount l)) corrections
      ∧ t.dev.get (F.hsLnFeccwCount l)
          = (if s.dev.firstLane l = l.val then satAdd 32 (s.dev.get (F.hsLnFeccwCount l)) codewords else s.dev.get (F.hsLnFeccwCount l))
      ∧ (s.dev.get (F.hsLnEyethrSdthr l) * 64 < corrections → (s.dev.lane l).sd = false → s.dev.Raised 0xBE t.dev)
      ∧ s.dev.Only [R.hsLnFecsym l, R.hsLnFeccw l, R.hsLngSum0 (l / 48), R.hsLngSum1 (l / 48)] [0xBE] t.dev)
  ∧ (∀ (l : Fin 96) (bits : List Bool) (s : State), s.dev.stage l = 5 → bits.length % 2 = 0 →
    s.dev.get (F.hsLnStatTxprec l) = s.dev.get (F.hsLnStatRxprec l) →
    s.dev.laneReceives l (s.dev.laneSends l bits) = bits
      ∧ (s.dev.pam4 l = true → s.dev.get (F.hsLnStatTxprec l) = 1 →
          s.dev.laneSends l bits = precode 0 (grayLevels bits)))

/-! ### The endpoint and the DMA rings (12_host_interface) -/

/-- The link and the endpoint (R327, R328, R343, R346, R427, R473): training ends, the link goes down and resets every
ring in service, PERST, configuration requests, the MSI-X table and its pending bits, written and read, and a held
message that leaves. The layouts of a vector, of the pending bits and of the capabilities are the model's (log 69);
the clauses rest also on log 13 and 52. -/
def Obligations.LinkAndEndpointFollow : Prop :=
  (∀ (speed width : Nat) (s : State), s.dev.cordOn 12 = true → s.dev.pcie.perst = false → 1 ≤ speed → speed ≤ 5 →
    width = 1 ∨ width = 2 ∨ width = 4 ∨ width = 8 →
    ∃ t, exec (.pcieLinkUp speed width) s = .next t ∧ t.dev.get F.pciEpStatDlup = 1 ∧ t.dev.get F.pciEpStatSpeed = speed
      ∧ t.dev.get F.pciEpStatWidth = width ∧ (speed < 5 ∨ width < 8 → s.dev.Raised 0xF1 t.dev)
      ∧ s.dev.Only [R.pciEpStat] (if speed < 5 ∨ width < 8 then [0xF1] else []) t.dev)
  ∧ (∀ (s : State), s.dev.get F.pciEpStatDlup = 1 →
    ∃ t, exec .pciLinkDown s = .next t ∧ t.dev.get F.pciEpStatDlup = 0 ∧ t.dev.get F.pciEpStatSpeed = 0
      ∧ t.dev.get F.pciEpStatWidth = 0 ∧ s.dev.Raised 0xF0 t.dev
      ∧ (∀ (tx : Bool) (r : Nat), r < 2048 → s.dev.get (ringEn tx r) = 1 →
          t.dev.get (ringEn tx r) = 0 ∧ t.dev.get (ringHead tx r) = 0 ∧ t.dev.get (ringTail tx r) = 0
            ∧ t.dev.get (ringF tx F.pciRxgStatRstc F.pciTxgStatRstc r) = 3 ∧ t.dev.ring tx r = {})
      ∧ s.dev.RegsKept (fun a => inCord 12 a || inCord 9 a || isEvt a) t.dev)
  ∧ (∀ (s : State), ∃ t, exec (.pciePerst true) s = .next t ∧ t.dev.pcie.perst = true ∧ t.dev.pcie.memEnable = false
      ∧ t.dev.pcie.busMaster = false ∧ t.dev.pcie.msixEnable = false ∧ t.dev.pcie.rings = [] ∧ t.dev.pcie.caps = [] ∧ t.dev.get F.pciEpStatDlup = 0
      ∧ (s.dev.get F.pciEpStatDlup = 1 → s.dev.Raised 0xF0 t.dev) ∧ t.dev.msixTable = s.dev.msixTable
      ∧ (∀ (tx : Bool) (r : Nat), r < 2048 → t.dev.get (ringEn tx r) = 0 ∧ t.dev.get (ringTail tx r) = 0)
      ∧ (∀ r < 2048, t.dev.get (F.pciRxgCfgPool r) = s.dev.get (F.pciRxgCfgPool r)))
  ∧ (∀ (s : State), ∃ t, exec (.pciePerst false) s = .next t ∧ t.dev.pcie = { s.dev.pcie with perst := false }
      ∧ s.dev.Only [] [] t.dev)
  ∧ (∀ (i : Fin 6) (s : State), s.dev.cordOn 12 = true → s.dev.pcie.perst = false →
    (∃ t, exec (.configurationRequest .readId) s = .next t ∧ t.outputs = .configDone 0x96241FD7#32 :: s.outputs)
    ∧ (∃ t, exec (.configurationRequest .readClass) s = .next t ∧ t.outputs = .configDone 0x028000B1#32 :: s.outputs)
    ∧ (∃ t, exec (.configurationRequest (.readBar i)) s = .next t ∧ t.outputs = .configDone (s.dev.barValue i) :: s.outputs
        ∧ (4 ≤ i.val → s.dev.barValue i = 0)))
  ∧ (∀ (i : Fin 6) (v : Word) (s : State), s.dev.cordOn 12 = true → s.dev.pcie.perst = false →
    ∃ t, exec (.configurationRequest (.writeBar i v)) s = .next t
      ∧ t.dev.barValue i = (if i.val = 0 then (v &&& 0xF0000000#32) ||| 4#32 else if i.val = 2 then (v &&& 0xFFFF0000#32) ||| 4#32
          else if i.val = 1 ∨ i.val = 3 then v else 0) ∧ s.dev.Only [] [] t.dev)
  ∧ (∀ (a b : Bool) (s : State), s.dev.cordOn 12 = true → s.dev.pcie.perst = false →
    (∃ t, exec (.configurationRequest (.command a b)) s = .next t ∧ t.dev.pcie = { s.dev.pcie with memEnable := a, busMaster := b })
    ∧ (∃ t, exec (.configurationRequest (.msix a b)) s = .next t
        ∧ t.dev.pcie = { s.dev.pcie with msixEnable := a, msixFuncMask := b }))
  ∧ (∀ (ofs : BitVec 16) (v : Word) (m : MsixVec) (s : State), ofs.toNat < 0x2000 → ofs.toNat % 4 = 0 → s.dev.cordOn 12 = true →
    m = Tbl.get {} s.dev.msixTable (ofs.toNat / 16) →
    ∃ t, exec (.msixTableWrite ofs (some v)) s = .next t
      ∧ Tbl.get {} t.dev.msixTable (ofs.toNat / 16) = (if ofs.toNat % 16 = 0 then { m with addrLo := v }
          else if ofs.toNat % 16 = 4 then { m with addrHi := v } else if ofs.toNat % 16 = 8 then { m with data := v }
          else { m with masked := v.getLsbD 0 })
      ∧ (∀ k, k ≠ ofs.toNat / 16 → Tbl.get {} t.dev.msixTable k = Tbl.get {} s.dev.msixTable k) ∧ s.dev.Only [] [] t.dev)
  ∧ (∀ (ofs : BitVec 16) (v : Word) (s : State), 0x2000 ≤ ofs.toNat →
    ∃ t, exec (.msixTableWrite ofs (some v)) s = .next t ∧ t.dev.msixTable = s.dev.msixTable ∧ s.dev.Only [] [] t.dev)
  ∧ (∀ (ofs : BitVec 16) (x : Word) (m : MsixVec) (s : State), ofs.toNat % 4 = 0 → s.dev.cordOn 12 = true →
    m = Tbl.get {} s.dev.msixTable (ofs.toNat / 16) →
    (ofs.toNat < 0x2000 ∧ x = [m.addrLo, m.addrHi, m.data, if m.masked then 1 else 0].getD (ofs.toNat / 4 % 4) 0
      ∨ 0x2000 ≤ ofs.toNat ∧ ofs.toNat < 0x2040 ∧ (∀ i < 32, x.getLsbD i = s.dev.msixHeld.contains (8 * (ofs.toNat - 0x2000) + i))
      ∨ 0x2040 ≤ ofs.toNat ∧ x = 0) →
    ∃ t, exec (.msixTableWrite ofs none) s = .next t ∧ t.outputs = .bar2Read ofs.toNat x :: s.outputs ∧ s.dev.Only [] [] t.dev)
  ∧ (∀ (q : CfgReg) (s : State), s.dev.cordOn 12 = true → s.dev.pcie.perst = false →
    ∃ t, exec (.configurationRequest (.readReg q)) s = .next t ∧ t.outputs = .configDone (s.dev.cfgReg q) :: s.outputs
      ∧ t.dev.pcie = s.dev.pcie)
  ∧ (∀ (v : Word) (s : State), s.dev.cordOn 12 = true → s.dev.pcie.perst = false →
    ∃ t, exec (.configurationRequest (.writeReg .devCtl v)) s = .next t ∧ t.dev.cfgReg .devCtl = v &&& 0x71EF#32
      ∧ (∀ q, q ≠ .devCtl → t.dev.cfgReg q = s.dev.cfgReg q) ∧ s.dev.Only [] [] t.dev)
  ∧ (∀ (v : Fin 512) (m : MsixVec) (s : State), v.val ∈ s.dev.msixHeld → s.dev.msixReady v = true →
    m = Tbl.get {} s.dev.msixTable v →
    ∃ t, exec (.msixHeldSend v) s = .next t ∧ t.outputs = .msix v m.addrHi m.addrLo m.data :: s.outputs
      ∧ v.val ∉ t.dev.msixHeld ∧ (∀ u ∈ s.dev.msixHeld, u ≠ v.val → u ∈ t.dev.msixHeld) ∧ s.dev.Only [] [] t.dev)

/-- The registers of a ring (R333, R340, R342): TAIL moves FILL, enabling takes HEAD to TAIL, disabling and FLUSH empty
the ring, a rise of IRQEN while ABOVE is 1 sends the message once. Ring resets and the end of a flush (R342, R343): a
reset takes EN, HEAD and TAIL to 0, discards and counts the ring's frames, shows its cause and raises its event; a
flush ends with PCI_FLUSH_DONE. The clauses rest on the model's choices of log 45, 50, 51. -/
def Obligations.RingsAreDrivenAndReset : Prop :=
  (∀ (tx : Bool) (r : Fin 2048) (v : Word) (s : State), s.dev.Takes (ringTail tx r).addr v → s.dev.get (ringEn tx r) = 1 →
    s.dev.get (ringF tx F.pciRxgCfgSize F.pciTxgCfgSize r) ≤ 16 →
    ∃ t, exec (.ringTailWrite tx r v) s = .next t ∧ t.outputs.head? = some (.writeDone (ringTail tx r).addr 0)
      ∧ t.dev.get (ringTail tx r) = (ringTail tx r).of v ∧ t.dev.get (ringHead tx r) = s.dev.get (ringHead tx r)
      ∧ t.dev.get (ringF tx F.pciRxgStatFill F.pciTxgStatFill r) = s.dev.ringSlots tx r - t.dev.ringHeld tx r
      ∧ s.dev.Only [(ringTail tx r).addr, ringStatReg tx r] [] t.dev)
  ∧ (∀ (tx : Bool) (r : Fin 2048) (v : Word) (s : State), s.dev.Takes (ringTail tx r).addr v → s.dev.get (ringEn tx r) = 0 →
    ∃ t, exec (.ringTailWrite tx r v) s = .next t ∧ t.dev.get (ringTail tx r) = (ringTail tx r).of v
      ∧ t.dev.get (ringF tx F.pciRxgStatFill F.pciTxgStatFill r) = 0
      ∧ t.dev.get (ringF tx F.pciRxgStatAbove F.pciTxgStatAbove r) = 0)
  ∧ (∀ (tx : Bool) (r : Fin 2048) (s : State), s.dev.Takes (ringEn tx r).addr (s.dev.withField (ringEn tx r) 1) →
    s.dev.get (ringEn tx r) = 0 → s.dev.get (ringF tx F.pciRxgCfgSize F.pciTxgCfgSize r) ≤ 16 →
    ∃ t, exec (.ringEnable tx r) s = .next t ∧ t.outputs.head? = some (.writeDone (ringEn tx r).addr 0)
      ∧ t.dev.get (ringEn tx r) = 1 ∧ t.dev.get (ringHead tx r) = s.dev.get (ringTail tx r)
      ∧ t.dev.get (ringTail tx r) = s.dev.get (ringTail tx r)
      ∧ t.dev.get (ringF tx F.pciRxgStatFill F.pciTxgStatFill r) = s.dev.ringSlots tx r
      ∧ s.dev.Only [(ringEn tx r).addr, (ringHead tx r).addr, ringStatReg tx r] [] t.dev)
  ∧ (∀ (tx : Bool) (r : Fin 2048) (written : List (BitVec 64)) (s : State),
    s.dev.Takes (ringEn tx r).addr (s.dev.withField (ringEn tx r) 0) → s.dev.get (ringEn tx r) = 1 →
    ∃ t, exec (.ringDisable tx r written) s = .next t ∧ t.outputs.head? = some (.writeDone (ringEn tx r).addr 0)
      ∧ t.dev.get (ringEn tx r) = 0 ∧ t.dev.get (ringFlbusy tx r) = 1 ∧ (t.dev.ring tx r).pending = []
      ∧ (tx = true → t.dev.ring tx r = {} ∧ t.dev.get (ringHead tx r) = s.dev.get (ringTail tx r))
      ∧ t.dev.get (ringF tx F.pciRxgStatFill F.pciTxgStatFill r) = 0
      ∧ s.dev.RegsKept (fun a => inCord 12 a || inCord 9 a || isEvt a) t.dev)
  ∧ (∀ (tx : Bool) (r : Fin 2048) (written : List (BitVec 64)) (g : Ring) (s : State), s.dev.ring tx r = g →
    s.dev.Takes (ringEn tx r).addr (s.dev.withField (ringF tx F.pciRxgCfgFlush F.pciTxgCfgFlush r) 1) →
    ∃ t, exec (.ringFlush tx r written) s = .next t ∧ t.outputs.head? = some (.writeDone (ringEn tx r).addr 0)
      ∧ t.dev.get (ringEn tx r) = s.dev.get (ringEn tx r) ∧ t.dev.get (ringFlbusy tx r) = 1 ∧ (t.dev.ring tx r).pending = []
      ∧ t.dev.get (ringFldrop tx r) = satAdd 16 (s.dev.get (ringFldrop tx r))
          (if tx then framesIn (g.fetched ++ g.posted (written.take (s.dev.ringHeld true r - g.fetched.length))) else g.pending.length)
      ∧ (tx = true → t.dev.ring tx r = {} ∧ t.dev.get (ringHead tx r) = s.dev.get (ringTail tx r))
      ∧ s.dev.RegsKept (fun a => inCord 12 a || inCord 9 a || isEvt a) t.dev)
  ∧ (∀ (tx : Bool) (r : Fin 2048) (v : Nat) (m : MsixVec) (s : State),
    s.dev.Takes (ringEn tx r).addr (s.dev.withField (ringF tx F.pciRxgCfgIrqen F.pciTxgCfgIrqen r) 1) →
    s.dev.get (ringF tx F.pciRxgCfgIrqen F.pciTxgCfgIrqen r) = 0 →
    s.dev.get (ringF tx F.pciRxgStatAbove F.pciTxgStatAbove r) = 1 →
    v = s.dev.get (ringF tx F.pciRxgCfgVec F.pciTxgCfgVec r) → s.dev.msixReady v = true → m = Tbl.get {} s.dev.msixTable v →
    ∃ t, exec (.ringIrqEnable tx r) s = .next t
      ∧ t.outputs = .writeDone (ringEn tx r).addr 0 :: .msix v m.addrHi m.addrLo m.data :: s.outputs
      ∧ t.dev.get (ringF tx F.pciRxgCfgIrqen F.pciTxgCfgIrqen r) = 1 ∧ s.dev.Only [(ringEn tx r).addr] [] t.dev)
  ∧ (∀ (tx : Bool) (r : Fin 2048) (c e : Nat) (i : Instr) (s : State),
    (i = .pciRingPtr tx r ∧ s.dev.cordOn 12 = true ∧ s.dev.pcie.perst = false ∧ c = 1 ∧ e = 0xF2)
      ∨ ((i = .pciDmaErr tx r .errorCompletion ∨ i = .pciDmaErr tx r .poisoned
            ∨ i = .pciDmaErr tx r .timeout ∧ (s.dev.cfgReg .devCtl2).getLsbD 4 = false)
          ∧ (s.dev.get (ringEn tx r) = 1 ∨ s.dev.get (ringFlbusy tx r) = 1) ∧ c = 2 ∧ e = 0xF3) →
    ∃ t, exec i s = .next t ∧ t.dev.ring tx r = {} ∧ t.dev.get (ringEn tx r) = 0 ∧ t.dev.get (ringHead tx r) = 0
      ∧ t.dev.get (ringTail tx r) = 0 ∧ t.dev.get (ringFlbusy tx r) = 0
      ∧ t.dev.get (ringF tx F.pciRxgStatRstc F.pciTxgStatRstc r) = c
      ∧ t.dev.get (ringF tx F.pciRxgStatFill F.pciTxgStatFill r) = 0
      ∧ t.dev.get (ringFldrop tx r) = satAdd 16 (s.dev.get (ringFldrop tx r))
          (if tx then framesIn (s.dev.ring tx r).fetched else (s.dev.ring tx r).pending.length)
      ∧ s.dev.Raised e t.dev ∧ t.dev.get F.pciEpRlogRing = r ∧ t.dev.get F.pciEpRlogDir = (if tx then 1 else 0)
      ∧ s.dev.RegsKept (fun a => inCord 12 a || inCord 9 a || isEvt a) t.dev)
  ∧ (∀ (tx : Bool) (r : Fin 2048) (s : State), s.dev.get (ringFlbusy tx r) = 1 →
    ∃ t, exec (.pciFlushDone tx r) s = .next t ∧ t.dev.get (ringFlbusy tx r) = 0 ∧ s.dev.Raised 0xF6 t.dev
      ∧ t.dev.get F.pciEpRlogRing = r ∧ t.dev.get F.pciEpRlogDir = (if tx then 1 else 0)
      ∧ s.dev.Only [ringStatReg tx r, R.pciEpRlog] [0xF6] t.dev)

/-- A receive ring (R334, R336, R337, R344, R473): a packet joins the pending list of an enabled ring, is discarded and
counted at one that is disabled or not in service, discarded alone where the registers do not stand, and is written
into the host's buffers when its whole set of descriptors is there, with a write of TAIL in the same clock applied
first, or discarded when RTO runs out. The clauses rest on the model's choices of log 5, 50. -/
def Obligations.ReceiveRingsDeliver : Prop :=
  (∀ (r n : Nat) (p : Pkt) (rest : List Decided) (x : Dev × List Nat) (s : State),
    s.dev.trafficOk 8 = true → s.dev.pkt.decided = ⟨.ring r, p, n⟩ :: rest → s.dev.released 12 = true → s.dev.pcie.perst = false →
    s.dev.get (F.pciRxgCfgEn r) = 1 →
    s.dev.allocBufs (s.dev.get (F.pciRxgCfgPool r)) (s.dev.get (F.bufSrcClsClass p.src))
      (if s.dev.get (F.bufPoolCfgKind (s.dev.get (F.pciRxgCfgPool r))) = 0 then (p.bytes.length + 2047) / 2048 else 1) n = some x →
    ∃ t, exec .rxgPacket s = .next t ∧ t.dev.pkt.decided = rest
      ∧ (t.dev.ring false r).pending = (s.dev.ring false r).pending ++ [⟨p, x.2, s.dev.time.ticks⟩]
      ∧ (∀ (tx : Bool) (q : Nat), q < 2048 → r < 2048 → (tx = true ∨ q ≠ r) → t.dev.ring tx q = s.dev.ring tx q)
      ∧ s.dev.RegsKept (fun a => inCord 9 a || isEvt a) t.dev)
  ∧ (∀ (r n : Nat) (p : Pkt) (rest : List Decided) (s : State),
    s.dev.trafficOk 8 = true → s.dev.pkt.decided = ⟨.ring r, p, n⟩ :: rest → s.dev.cordOn 12 = true → s.dev.pcie.perst = false →
    s.dev.get (F.pciRxgCfgEn r) = 0 ∨ s.dev.released 12 = false →
    ∃ t, exec .rxgPacket s = .next t ∧ t.dev.pkt.decided = rest ∧ t.dev.pcie = s.dev.pcie
      ∧ t.dev.get (F.pciRxgDropTodrop r) = satAdd 16 (s.dev.get (F.pciRxgDropTodrop r)) 1 ∧ s.dev.Only [R.pciRxgDrop r] [] t.dev)
  ∧ (∀ (r n : Nat) (p : Pkt) (rest : List Decided) (s : State),
    s.dev.trafficOk 8 = true → s.dev.pkt.decided = ⟨.ring r, p, n⟩ :: rest → s.dev.cordOn 12 = false ∨ s.dev.pcie.perst = true →
    ∃ t, exec .rxgPacket s = .next t ∧ t.dev.pkt.decided = rest ∧ t.dev.pcie = s.dev.pcie ∧ s.dev.Only [] [] t.dev)
  ∧ (∀ (r : Fin 2048) (x : QPkt) (rest : List QPkt) (addrs : List (BitVec 64)) (h : Nat) (s : State),
    (s.dev.ring false r).pending = x :: rest → s.dev.dmaOk = true → s.dev.trafficOk 12 = true →
    s.dev.get (F.pciRxgCfgEn r) = 1 → s.dev.get (F.pciRxgStatFlbusy r) = 0 → s.dev.descsOf r x ≤ s.dev.ringHeld false r →
    h = s.dev.get (F.pciRxgHeadHead r) →
    ∃ t, exec (.rxgFrameWrite r addrs none) s = .next t ∧ (t.dev.ring false r).pending = rest
      ∧ t.dev.get (F.pciRxgHeadHead r) = (h + s.dev.descsOf r x) % 131072
      ∧ (∀ i < s.dev.descsOf r x,
          .dmaWrite ((addrs.getD i 0).toNat / 64 * 64) ((x.pkt.bytes.drop (s.dev.bufSz r * i)).take (s.dev.bufSz r)) ∈ t.outputs
          ∧ .dmaWrite (s.dev.descAddr false r (h + i)) (rxDesc x.pkt (addrs.getD i 0).toNat
              ((x.pkt.bytes.drop (s.dev.bufSz r * i)).take (s.dev.bufSz r)).length (i == 0) (i + 1 == s.dev.descsOf r x) 0) ∈ t.outputs)
      ∧ t.dev.get (F.pciRxgDropTodrop r) = s.dev.get (F.pciRxgDropTodrop r)
      ∧ s.dev.RegsKept (fun a => inCord 12 a || inCord 9 a || isEvt a) t.dev)
  ∧ (∀ (r : Fin 2048) (x : QPkt) (rest : List QPkt) (addrs : List (BitVec 64)) (v : BitVec 17) (h : Nat) (s : State),
    (s.dev.ring false r).pending = x :: rest → s.dev.dmaOk = true → s.dev.trafficOk 12 = true → s.dev.pcie.perst = false →
    s.dev.get (F.pciRxgCfgEn r) = 1 → s.dev.get (F.pciRxgStatFlbusy r) = 0 → s.dev.ringTailCheck false r (v.setWidth 32) = 0 →
    h = s.dev.get (F.pciRxgHeadHead r) → s.dev.descsOf r x ≤ unsignedOf 17 ((v.toNat : Int) - (h : Nat)) →
    ∃ t, exec (.rxgFrameWrite r addrs (some v)) s = .next t ∧ (t.dev.ring false r).pending = rest
      ∧ .writeDone (R.pciRxgTail r) 0 ∈ t.outputs ∧ t.dev.get (F.pciRxgTailTail r) = v.toNat
      ∧ t.dev.get (F.pciRxgHeadHead r) = (h + s.dev.descsOf r x) % 131072
      ∧ s.dev.RegsKept (fun a => inCord 12 a || inCord 9 a || isEvt a) t.dev)
  ∧ (∀ (r : Fin 2048) (x : QPkt) (rest : List QPkt) (s : State),
    (s.dev.ring false r).pending = x :: rest → s.dev.get (F.pciRxgCfgEn r) = 1 → s.dev.ringHeld false r < s.dev.descsOf r x →
    ∃ t, exec (.rxgTimeout r) s = .next t ∧ (t.dev.ring false r).pending = rest ∧ s.dev.Raised 0xF5 t.dev
      ∧ t.dev.get (F.pciRxgDropTodrop r) = satAdd 16 (s.dev.get (F.pciRxgDropTodrop r)) 1
      ∧ t.dev.get F.pciEpRlogRing = r ∧ t.dev.get F.pciEpRlogDir = 0
      ∧ s.dev.RegsKept (fun a => [R.pciRxgDrop r, R.pciEpRlog].contains a || inCord 9 a || isEvt a) t.dev)

/-- A transmit ring (R335, R338, R339): descriptors are fetched up to a frame's EOF, a faulty one completes with STATUS 2,
and so do those behind it up to its frame's EOF; a complete frame enters PKT and its descriptors complete in ring
order, an open one times out with STATUS 3, with the descriptors posted and not yet read. The clauses rest on the
model's choices of log 5, 50. -/
def Obligations.TransmitRingsSend : Prop :=
  (∀ (r : Fin 2048) (words : List Word) (data : List Byte) (l : List TxDesc) (len : Nat) (eof : Bool) (s : State),
    (s.dev.ring true r).fetched = l → (s.dev.ring true r).bad = false → (∀ x ∈ l, x.status = none ∧ x.eof = false) →
    s.dev.dmaOk = true → s.dev.get (F.pciTxgCfgEn r) = 1 → s.dev.get (F.pciTxgStatFlbusy r) = 0 →
    l.length < s.dev.ringHeld true r → len = (words.getD 2 0).toNat % 65536 → s.dev.txStore + len ≤ 2 ^ 21 →
    descFaulty words = false → (words.getD 2 0).toNat.testBit 16 = l.isEmpty → (words.getD 2 0).toNat.testBit 17 = eof →
    (eof = true → 14 ≤ (l.map (·.data.length)).sum + len) → (l.map (·.data.length)).sum + len ≤ 12288 →
    ∃ t, exec (.txgFetch r words data) s = .next t
      ∧ (t.dev.ring true r).fetched = l ++ [⟨l.isEmpty, eof, fitBytes len data, none⟩] ∧ t.outputs = s.outputs
      ∧ s.dev.Only [] [] t.dev)
  ∧ (∀ (r : Fin 2048) (words : List Word) (data : List Byte) (h : Nat) (s : State),
    (s.dev.ring true r).fetched = [] → (s.dev.ring true r).bad = false → s.dev.dmaOk = true →
    s.dev.get (F.pciTxgCfgEn r) = 1 → s.dev.get (F.pciTxgStatFlbusy r) = 0 → 0 < s.dev.ringHeld true r →
    s.dev.txStore + (words.getD 2 0).toNat % 65536 ≤ 2 ^ 21 → descFaulty words = true ∨ (words.getD 2 0).toNat.testBit 16 = false →
    h = s.dev.get (F.pciTxgHeadHead r) →
    ∃ t, exec (.txgFetch r words data) s = .next t ∧ (t.dev.ring true r).fetched = []
      ∧ (t.dev.ring true r).bad = (descFaulty words && (words.getD 2 0).toNat.testBit 16 && !(words.getD 2 0).toNat.testBit 17)
      ∧ t.dev.get (F.pciTxgHeadHead r) = (h + 1) % 131072
      ∧ .dmaWrite (s.dev.descAddr true r h + 28) (leBytes 4 (2 ^ 31 + 2 * 2 ^ 28)) ∈ t.outputs
      ∧ t.dev.get (F.pciTxgDropTodrop r) = satAdd 16 (s.dev.get (F.pciTxgDropTodrop r)) 1 ∧ s.dev.Raised 0xF4 t.dev
      ∧ t.dev.get F.pciEpRlogRing = r ∧ t.dev.get F.pciEpRlogDir = 1
      ∧ s.dev.Only [R.pciTxgHead r, R.pciTxgStat r, R.pciTxgDrop r, R.pciEpRlog] [0xF4] t.dev)
  ∧ (∀ (r : Fin 2048) (words : List Word) (data : List Byte) (h : Nat) (s : State),
    (s.dev.ring true r).fetched = [] → (s.dev.ring true r).bad = true → s.dev.dmaOk = true →
    s.dev.get (F.pciTxgCfgEn r) = 1 → s.dev.get (F.pciTxgStatFlbusy r) = 0 → 0 < s.dev.ringHeld true r →
    (words.getD 2 0).toNat.testBit 16 = false → h = s.dev.get (F.pciTxgHeadHead r) →
    ∃ t, exec (.txgFetch r words data) s = .next t ∧ (t.dev.ring true r).fetched = []
      ∧ (t.dev.ring true r).bad = !(words.getD 2 0).toNat.testBit 17 ∧ t.dev.get (F.pciTxgHeadHead r) = (h + 1) % 131072
      ∧ .dmaWrite (s.dev.descAddr true r h + 28) (leBytes 4 (2 ^ 31 + 2 * 2 ^ 28)) ∈ t.outputs
      ∧ s.dev.Only [R.pciTxgHead r, R.pciTxgStat r] [] t.dev)
  ∧ (∀ (r : Fin 2048) (f rest : List TxDesc) (e : TxDesc) (h : Nat) (s : State),
    (s.dev.ring true r).fetched = f ++ e :: rest → (∀ x ∈ f, x.status = none ∧ x.eof = false) → e.status = none → e.eof = true →
    (∀ x ∈ rest, x.status = none) → s.dev.dmaOk = true → s.dev.trafficOk 8 = true →
    h = s.dev.get (F.pciTxgHeadHead r) →
    ∃ t, exec (.txgFrameSubmit r none) s = .next t ∧ (t.dev.ring true r).fetched = rest
      ∧ Tbl.get [] t.dev.pkt.links 4 = Tbl.get [] s.dev.pkt.links 4
          ++ [({ src := 160, srcn := r, bytes := (f ++ [e]).flatMap (·.data) } : Pkt)]
      ∧ t.dev.get (F.pciTxgHeadHead r) = (h + f.length + 1) % 131072
      ∧ (∀ i ≤ f.length, .dmaWrite (s.dev.descAddr true r (h + i) + 28) (leBytes 4 (2 ^ 31)) ∈ t.outputs)
      ∧ s.dev.Only [R.pciTxgHead r, R.pciTxgStat r] [] t.dev)
  ∧ (∀ (r : Fin 2048) (f rest : List TxDesc) (e : TxDesc) (h : Nat) (s : State),
    (s.dev.ring true r).fetched = f ++ e :: rest → (∀ x ∈ f, x.status = none ∧ x.eof = false) → e.status = none → e.eof = true →
    (∀ x ∈ rest, x.status = none) → s.dev.dmaOk = true → s.dev.trafficOk 8 = false →
    h = s.dev.get (F.pciTxgHeadHead r) →
    ∃ t, exec (.txgFrameSubmit r none) s = .next t ∧ (t.dev.ring true r).fetched = rest ∧ t.dev.pkt = s.dev.pkt
      ∧ (∀ i ≤ f.length, .dmaWrite (s.dev.descAddr true r (h + i) + 28) (leBytes 4 (2 ^ 31 + 4 * 2 ^ 28)) ∈ t.outputs)
      ∧ t.dev.get (F.pciTxgDropTodrop r) = satAdd 16 (s.dev.get (F.pciTxgDropTodrop r)) 1
      ∧ s.dev.Only [R.pciTxgHead r, R.pciTxgStat r, R.pciTxgDrop r] [] t.dev)
  ∧ (∀ (r : Fin 2048) (l : List TxDesc) (h : Nat) (s : State),
    (s.dev.ring true r).fetched = l → l ≠ [] → (∀ x ∈ l, x.status = none ∧ x.eof = false) → l.length ≤ s.dev.ringHeld true r →
    h = s.dev.get (F.pciTxgHeadHead r) →
    ∃ t, exec (.txgTimeout r) s = .next t ∧ (t.dev.ring true r).fetched = [] ∧ s.dev.Raised 0xF5 t.dev
      ∧ t.dev.get (F.pciTxgHeadHead r) = (h + s.dev.ringHeld true r) % 131072
      ∧ (∀ i < s.dev.ringHeld true r, .dmaWrite (s.dev.descAddr true r (h + i) + 28) (leBytes 4 (2 ^ 31 + 3 * 2 ^ 28)) ∈ t.outputs)
      ∧ t.dev.get (F.pciTxgDropTodrop r) = satAdd 16 (s.dev.get (F.pciTxgDropTodrop r)) 1
      ∧ t.dev.get F.pciEpRlogRing = r ∧ t.dev.get F.pciEpRlogDir = 1)


/-! ### Time (13_time) -/

/-- The counter (R348, R349, R351, R352): a tick adds INC and counts a passage of NS through 2^32, a step waits for the
next tick and is added after its INC, and a read of HRT_TIM_NS latches SUB and WRAPS. A write of INC counts from the
next tick, its reset value and its range in nanoseconds (R350). A tick is a step on an empty queue: the model's
choice, log 1. The ticks also move the root's steering (R22, R23, R25) and count the line frames sent (R103, R126):
when they do is the model's choice, logs 72 and 78. The tick at which a port has woken sends its generated frame
(R295). -/
def Obligations.TheCounterTicksAndSteps : Prop :=
  (∀ (s : State), s.pending = [] → s.dev.get F.hrtTimStatRun = 1 → s.dev.time.step = none → s.dev.time.InRange →
    ∃ t, step s = .next t ∧ t.dev.time.value = (s.dev.time.value + s.dev.get F.hrtTimIncInc) % 2 ^ 56
      ∧ t.dev.time.ticks = s.dev.time.ticks + 1
      ∧ (s.dev.time.value + s.dev.get F.hrtTimIncInc < 2 ^ 56 → t.dev.time.wraps = s.dev.time.wraps
          ∧ (s.dev.TickQuiet → s.dev.Only tickRegs [] t.dev))
      ∧ (2 ^ 56 ≤ s.dev.time.value + s.dev.get F.hrtTimIncInc →
          t.dev.time.wraps = (s.dev.time.wraps + 1) % 2 ^ 16 ∧ s.dev.Raised 0xF8 t.dev
            ∧ (s.dev.TickQuiet → s.dev.Only tickRegs [0xF8] t.dev)))
  ∧ (∀ (s : State), s.pending = [] → s.dev.get F.hrtTimStatRun = 0 →
    ∃ t, step s = .next t ∧ t.dev.time = { s.dev.time with ticks := s.dev.time.ticks + 1 }
      ∧ (s.dev.TickQuiet → t.outputs = s.outputs ∧ s.dev.Only tickRegs [] t.dev))
  ∧ (∀ (p : Fin 96) (f : List Byte) (s : State), s.pending = [] → s.dev.macs = [(p.val, { gen := [f], wakeAt := s.dev.time.ticks + 1 })] →
    s.dev.InjIdle p → s.dev.get (F.hsLnLoopMode p) ≠ 1 → s.dev.get (F.hsLnLoopMode p) ≠ 2 →
    ∃ t, step s = .next t ∧ .portFrame p f ∈ t.outputs ∧ (t.dev.mac p).gen = [])
  ∧ (∀ (s : State), s.pending = [] →
    ∃ t, step s = .next t
      ∧ t.dev.steering = (if s.dev.time.frozen = none ∧ s.dev.time.ticks / 78125 ≠ (s.dev.time.ticks + 1) / 78125 then
          max (-800000) (min 800000 (towards s.dev.steering s.dev.steerGoal 1)) else s.dev.steering))
  ∧ (∀ (w : Fin 2) (s : State), s.pending = [] → s.dev.cordOn (6 + w) = true →
    (s.dev.wave w).lineAt + lineTicks ≤ s.dev.time.ticks + 1 → s.dev.time.ticks + 1 < (s.dev.wave w).lineAt + 2 * lineTicks →
    ∃ t, step s = .next t ∧ (t.dev.wave w).lineAt = (s.dev.wave w).lineAt + lineTicks ∧ (t.dev.wave w).txFnum < 8
      ∧ 8 * (t.dev.wave w).txSfn + (t.dev.wave w).txFnum = (8 * (s.dev.wave w).txSfn + (s.dev.wave w).txFnum + 1) % 2 ^ 35)
  ∧ (∀ (v : Word) (s : State), s.dev.Takes R.hrtTimStepctl (F.hrtTimStepctlGo.put v 1) →
    ∃ t, exec (.timeStep v) s = .next t ∧ t.outputs = .writeDone R.hrtTimStepctl 0 :: s.outputs
      ∧ t.dev.get F.hrtTimStepctlBusy = 1 ∧ t.dev.time.value = s.dev.time.value
      ∧ t.dev.time.step = some (s.dev.getInt F.hrtTimStepnsStepns, F.hrtTimStepctlStepsub.of v)
      ∧ s.dev.Only [R.hrtTimStepctl] [] t.dev)
  ∧ (∀ (ns : Int) (sub : Nat) (s : State), s.pending = [] → s.dev.get F.hrtTimStatRun = 1 → s.dev.time.step = some (ns, sub) →
    s.dev.time.InRange →
    ∃ t, step s = .next t
      ∧ t.dev.time.value = unsignedOf 56 (s.dev.time.value + s.dev.get F.hrtTimIncInc + ns * 2 ^ 24 + sub * 256)
      ∧ t.dev.time.step = none ∧ t.dev.get F.hrtTimStepctlBusy = 0
      ∧ t.dev.get F.hrtTimStatStepcnt = satAdd 8 (s.dev.get F.hrtTimStatStepcnt) 1 ∧ s.dev.Raised 0xF9 t.dev
      ∧ (s.dev.TickQuiet → s.dev.Only (R.hrtTimStepctl :: R.hrtTimStat :: tickRegs) [0xF8, 0xF9] t.dev))
  ∧ (∀ (s : State), s.dev.get F.hrtTimStatRun = 1 → s.dev.get F.hrtTimIncInc ≠ 0 → s.dev.time.step = none → s.dev.time.InRange →
    s.dev.time.value + s.dev.get F.hrtTimIncInc < 2 ^ 56 →
    ∃ t, exec .timeWrap s = .next t ∧ t.dev.time.value < s.dev.get F.hrtTimIncInc
      ∧ (∃ n, s.dev.time.value + n * s.dev.get F.hrtTimIncInc = 2 ^ 56 + t.dev.time.value ∧ t.dev.time.ticks = s.dev.time.ticks + n)
      ∧ t.dev.time.wraps = (s.dev.time.wraps + 1) % 2 ^ 16 ∧ s.dev.Raised 0xF8 t.dev
      ∧ (s.dev.TickQuiet → s.dev.Only tickRegs [0xF8] t.dev))
  ∧ (∀ (s : State), s.dev.Answers R.hrtTimNs → s.dev.time.InRange →
    ∃ t, exec .timNsRead s = .next t ∧ t.outputs = .readDone R.hrtTimNs (BitVec.ofNat 32 s.dev.time.ns) :: s.outputs
      ∧ t.dev.get F.hrtTimSubSub = s.dev.time.sub / 256 ∧ t.dev.get F.hrtTimSubWraps = s.dev.time.wraps
      ∧ t.dev.time = s.dev.time ∧ s.dev.Only [R.hrtTimSub] [] t.dev)
  ∧ (∀ (v : Word) (s : State), s.dev.Takes R.hrtTimInc v → s.pending = [] → s.dev.get F.hrtTimStatRun = 1 →
    s.dev.time.step = none → s.dev.time.InRange →
    ∃ t u, exec (.registerWrite 0x30008 4 v) s = .next t ∧ t.dev.time = s.dev.time ∧ t.dev.get F.hrtTimIncInc = v.toNat
      ∧ step t = .next u ∧ u.dev.time.value = (s.dev.time.value + v.toNat) % 2 ^ 56)
  ∧ State.reset.dev.get F.hrtTimIncInc = 0x0199999A
  ∧ (3200000047 * 2 ^ 24 < 2 * 0x0199999A * 10 ^ 9 ∧ 2 * 0x0199999A * 10 ^ 9 < 3200000049 * 2 ^ 24)
  ∧ (1485 * (16 * 2 ^ 24) < (0x0199999A * 10 - 16 * 2 ^ 24) * 10 ^ 11 ∧ (0x0199999A * 10 - 16 * 2 ^ 24) * 10 ^ 11 < 1495 * (16 * 2 ^ 24))
  ∧ (∀ (v : Word) (r : RegAt) (d : Dev), decodeAddr R.hrtTimInc = some r → d.expert (some .time) = true →
      d.writeCode R.hrtTimInc r v true = if 0x01800000 ≤ v.toNat ∧ v.toNat ≤ 0x01B33333 then 0 else 9)
  ∧ (2 * 0x01800000 = 3 * 2 ^ 24 ∧ 10 * 0x01B33333 ≤ 17 * 2 ^ 24 ∧ 17 * 2 ^ 24 < 10 * (0x01B33333 + 1))

/-- Groups of registers (R352): the read of the first latches the rest. PPS (R357, R358): captures, the glitch filter,
edges too close together, loss, and the rise and fall of the output. The clauses rest on the model's choices of log 5,
53. -/
def Obligations.CapturesAreLatchedAndRead : Prop :=
  (∀ (s : State), s.dev.Answers R.hrtTimPpsinns →
    ∃ t, exec (.groupFirstRead .ppsIn) s = .next t
      ∧ t.outputs = .readDone R.hrtTimPpsinns (BitVec.ofNat 32 s.dev.time.pps.ns) :: s.outputs
      ∧ t.dev.get F.hrtTimPpsinsubSub = s.dev.time.pps.sub % 2 ^ 16
      ∧ t.dev.get F.hrtTimPpsinsubIncnt = s.dev.get F.hrtTimPpsinsubIncnt ∧ s.dev.Only [R.hrtTimPpsinsub] [] t.dev)
  ∧ (∀ (w : Fin 2) (s : State), s.dev.Answers (R.hrtTimWlRxsfn w) →
    ∃ t, exec (.groupFirstRead (.rxSfn w)) s = .next t
      ∧ t.outputs = .readDone (R.hrtTimWlRxsfn w) (BitVec.ofNat 32 (s.dev.wl w).rx.1) :: s.outputs
      ∧ t.dev.get (F.hrtTimWlRxnsNs w) = (s.dev.wl w).rx.2.ns % 2 ^ 32 ∧ t.dev.get (F.hrtTimWlRxsubSub w) = (s.dev.wl w).rx.2.sub % 2 ^ 16
      ∧ s.dev.Only [R.hrtTimWlRxns w, R.hrtTimWlRxsub w] [] t.dev)
  ∧ (∀ (w : Fin 2) (s : State), s.dev.Answers (R.hrtTimWlTxsfn w) →
    ∃ t, exec (.groupFirstRead (.txSfn w)) s = .next t
      ∧ t.outputs = .readDone (R.hrtTimWlTxsfn w) (BitVec.ofNat 32 (s.dev.wl w).tx.1) :: s.outputs
      ∧ t.dev.get (F.hrtTimWlTxnsNs w) = (s.dev.wl w).tx.2.ns % 2 ^ 32 ∧ t.dev.get (F.hrtTimWlTxsubSub w) = (s.dev.wl w).tx.2.sub % 2 ^ 16
      ∧ s.dev.Only [R.hrtTimWlTxns w, R.hrtTimWlTxsub w] [] t.dev)
  ∧ (∀ (w : Fin 2) (b : Nat × Stamp) (s : State), s.dev.Answers (R.hrtTimWlBseq w) → (s.dev.wl w).burst = some b → b.1 < 256 →
    ∃ t, exec (.groupFirstRead (.bseq w)) s = .next t
      ∧ t.outputs = .readDone (R.hrtTimWlBseq w) (BitVec.ofNat 32 (2 ^ 31 + b.1)) :: s.outputs
      ∧ t.dev.get (F.hrtTimWlBnsNs w) = b.2.ns % 2 ^ 32 ∧ t.dev.get (F.hrtTimWlBsubSub w) = b.2.sub % 2 ^ 16
      ∧ s.dev.Only [R.hrtTimWlBns w, R.hrtTimWlBsub w] [] t.dev)
  ∧ (∀ (w : Fin 2) (m : TodRec) (s : State), s.dev.Answers (R.hrtTimWlTodrsfn w) → (s.dev.wl w).tod = m →
    ∃ t, exec (.groupFirstRead (.todRsfn w)) s = .next t
      ∧ t.outputs = .readDone (R.hrtTimWlTodrsfn w) (BitVec.ofNat 32 m.rsfn) :: s.outputs
      ∧ t.dev.get (F.hrtTimWlTodsecloSec w) = m.sec % 2 ^ 32 ∧ t.dev.get (F.hrtTimWlTodsechiSec w) = m.sec / 2 ^ 32 % 2 ^ 16
      ∧ t.dev.get (F.hrtTimWlTodnsNs w) = m.ns % 2 ^ 32 ∧ t.dev.get (F.hrtTimWlTodfracFrac w) = m.frac % 2 ^ 16
      ∧ t.dev.get (F.hrtTimWlTodfracLocv w) = (if m.loc = none then 0 else 1)
      ∧ (m.loc = none → t.dev.get (F.hrtTimWlLocnsNs w) = 0 ∧ t.dev.get (F.hrtTimWlLocsubSub w) = 0)
      ∧ (∀ l, m.loc = some l → t.dev.get (F.hrtTimWlLocnsNs w) = l.ns % 2 ^ 32 ∧ t.dev.get (F.hrtTimWlLocsubSub w) = l.sub % 2 ^ 16)
      ∧ t.dev.get (F.hrtTimWlTodfracTodcnt w) = s.dev.get (F.hrtTimWlTodfracTodcnt w))
  ∧ (∀ (p : Fin 96) (s : State), s.dev.Answers (R.hsMacRxbylo p) →
    ∃ t, exec (.groupFirstRead (.rxBytes p)) s = .next t
      ∧ t.outputs = .readDone (R.hsMacRxbylo p) (s.dev.reg (R.hsMacRxbylo p)) :: s.outputs
      ∧ t.dev.get (F.hsMacRxbyloCount p) = 0 ∧ t.dev.get (F.hsMacRxbyhiCount p) = (s.dev.mac p).rxBytes / 2 ^ 32 % 2 ^ 32
      ∧ s.dev.Only [R.hsMacRxbylo p, R.hsMacRxbyhi p] [] t.dev)
  ∧ (∀ (p : Fin 96) (s : State), s.dev.Answers (R.hsMacTxbylo p) →
    ∃ t, exec (.groupFirstRead (.txBytes p)) s = .next t
      ∧ t.outputs = .readDone (R.hsMacTxbylo p) (s.dev.reg (R.hsMacTxbylo p)) :: s.outputs
      ∧ t.dev.get (F.hsMacTxbyloCount p) = 0 ∧ t.dev.get (F.hsMacTxbyhiCount p) = (s.dev.mac p).txBytes / 2 ^ 32 % 2 ^ 32
      ∧ s.dev.Only [R.hsMacTxbylo p, R.hsMacTxbyhi p] [] t.dev)
  ∧ (∀ (high : Nat) (s : State), s.dev.get F.hrtTimPpscfgInen = 1 → 100 ≤ high → s.dev.time.ppsAt = none →
    ∃ t, exec (.ppsIn high) s = .next t ∧ t.dev.time.pps = s.dev.now ∧ t.dev.time.ppsAt = some s.dev.time.ticks
      ∧ t.dev.get F.hrtTimPpsinsubIncnt = satAdd 16 (s.dev.get F.hrtTimPpsinsubIncnt) 1 ∧ t.dev.get F.hrtTimStatInloss = 0
      ∧ s.dev.Raised 0xFA t.dev ∧ s.dev.Only [R.hrtTimPpsinsub, R.hrtTimStat] [0xFA] t.dev)
  ∧ (∀ (high k : Nat) (s : State), s.dev.get F.hrtTimPpscfgInen = 1 → 100 ≤ high → s.dev.time.ppsAt = some k →
    (s.dev.time.ticks - k) * 16 < 5000000000 →
    ∃ t, exec (.ppsIn high) s = .next t ∧ t.dev.time = s.dev.time
      ∧ t.dev.get F.hrtTimStatPpsshort = satAdd 8 (s.dev.get F.hrtTimStatPpsshort) 1 ∧ s.dev.Only [R.hrtTimStat] [] t.dev)
  ∧ (∀ (high : Nat) (s : State), s.dev.get F.hrtTimPpscfgInen = 0 ∨ high < 100 →
    ∃ t, exec (.ppsIn high) s = .next t ∧ t.dev.time = s.dev.time ∧ s.dev.Only [] [] t.dev)
  ∧ (∀ (s : State), s.dev.get F.hrtTimPpscfgInen = 1 → s.dev.get F.hrtTimStatInloss = 0 →
    ∃ t, exec .ppsInLoss s = .next t ∧ t.dev.get F.hrtTimStatInloss = 1 ∧ s.dev.Raised 0xFB t.dev
      ∧ s.dev.Only [R.hrtTimStat] [0xFB] t.dev)
  ∧ (∀ (next per b : Nat) (s : State), s.dev.get F.hrtTimPpscfgOuten = 1 → next = s.dev.get F.hrtTimPpsnextValue →
    per = s.dev.get F.hrtTimPpsperValue → per ≠ 0 → b = unsignedOf 32 ((s.dev.time.ns : Int) - (next : Nat)) → b < 2 ^ 31 →
    ∃ t k, exec .ppsOutRise s = .next t ∧ t.outputs = .ppsOut true :: s.outputs ∧ t.dev.time.ppsOut = true
      ∧ b < k * per ∧ (k - 1) * per ≤ b ∧ t.dev.get F.hrtTimPpsnextValue = (next + k * per) % 2 ^ 32
      ∧ s.dev.Only [R.hrtTimPpsnext] [] t.dev)
  ∧ (∀ (s : State), s.dev.time.ppsOut = true →
    ∃ t, exec .ppsOutFall s = .next t ∧ t.outputs = .ppsOut false :: s.outputs ∧ t.dev.time.ppsOut = false
      ∧ s.dev.Only [] [] t.dev)

/-- Superframe and burst stamps, none in a sparing gap (R354), and time of day as it is received and sent (R138, R169,
R355, R356). That the number of a superframe comes with its command, and sets the framer's count, is the model's
choice (log 78); the clauses rest also on log 53. -/
def Obligations.StampsAndTimeOfDayAreKept : Prop :=
  (∀ (w : Fin 2) (n : Word) (s : State), (s.dev.wave w).gap = false → s.dev.serving w ≠ none → (s.dev.wave w).leaf = true →
    s.dev.get (F.lfAlnStatBcnv w) = 1 → s.dev.get (F.lfScsAlnState w (s.dev.get (F.lfAlnStatBcnsc w))) = 2 →
    ∃ t, exec (.superframeStamp w 0 n) s = .next t ∧ (t.dev.wl w).rx = (n.toNat, s.dev.now)
      ∧ (t.dev.wl w).kept = ((n.toNat, s.dev.now) :: (s.dev.wl w).kept).take 16 ∧ (t.dev.wl w).tx = (s.dev.wl w).tx
      ∧ s.dev.Only [R.lfActStat w] [] t.dev)
  ∧ (∀ (w : Fin 2) (n : Word) (s : State), (s.dev.wave w).gap = true →
    (∃ t, exec (.superframeStamp w 0 n) s = .next t ∧ t.dev.time = s.dev.time)
    ∧ (∃ t, exec (.superframeStamp w 1 n) s = .next t ∧ t.dev.time = s.dev.time ∧ (t.dev.wave w).txSfn = n.toNat))
  ∧ (∀ (w : Fin 2) (n : Word) (s : State), (s.dev.wave w).gap = false → s.dev.serving w ≠ none →
    ∃ t, exec (.superframeStamp w 1 n) s = .next t ∧ (t.dev.wl w).tx = (n.toNat, s.dev.now) ∧ (t.dev.wl w).rx = (s.dev.wl w).rx
      ∧ (t.dev.wave w).txSfn = n.toNat ∧ (t.dev.wave w).txFnum = 0
      ∧ (s.dev.TxSettled → s.dev.Only [R.leTxcStat 0, R.leTxcStat 1, R.leTxcStat 2] [] t.dev))
  ∧ (∀ (w : Fin 2) (n : Word) (s : State),
    ∃ t, exec (.superframeStamp w 2 n) s = .next t ∧ (t.dev.wl w).burst = some (n.toNat % 256, s.dev.now)
      ∧ (t.dev.wl w).rx = (s.dev.wl w).rx ∧ (t.dev.wl w).tx = (s.dev.wl w).tx ∧ s.dev.Only [] [] t.dev)
  ∧ (∀ (w : Fin 2) (rsfn : Word) (sec : BitVec 48) (ns : Word) (frac : BitVec 16) (s : State), (s.dev.wave w).leaf = true →
    s.dev.get (F.lfActStatState w) ≠ 0 → ns.toNat ≤ 999999999 →
    ∃ t m, exec (.timeOfDay w rsfn sec ns frac) s = .next t ∧ (t.dev.wl w).tod = m
      ∧ (m.rsfn, m.sec, m.ns, m.frac) = (rsfn.toNat, sec.toNat, ns.toNat, frac.toNat)
      ∧ (∀ x ∈ (s.dev.wl w).kept, x.1 = rsfn.toNat → ∃ y ∈ (s.dev.wl w).kept, y.1 = rsfn.toNat ∧ m.loc = some y.2)
      ∧ ((∀ x ∈ (s.dev.wl w).kept, x.1 ≠ rsfn.toNat) → m.loc = none)
      ∧ t.dev.get (F.hrtTimWlTodfracTodcnt w) = satAdd 8 (s.dev.get (F.hrtTimWlTodfracTodcnt w)) 1
      ∧ s.dev.Raised (0x8A + w) t.dev ∧ s.dev.Only [R.hrtTimWlTodfrac w] [0x8A + w] t.dev)
  ∧ (∀ (w : Fin 2) (rsfn : Word) (sec : BitVec 48) (ns : Word) (frac : BitVec 16) (s : State), 999999999 < ns.toNat →
    ∃ t, exec (.timeOfDay w rsfn sec ns frac) s = .next t ∧ t.dev.time = s.dev.time
      ∧ t.dev.get (F.lfCtlErrFld w) = satAdd (F.lfCtlErrFld w).width (s.dev.get (F.lfCtlErrFld w)) 1
      ∧ s.dev.Only [R.lfCtlErr w] [0x84 + w] t.dev)
  ∧ (∀ (w : Fin 2) (e : Nat) (s : State), (s.dev.wave w).leaf = false → (s.dev.wave w).master = true →
    (s.dev.wl w).tx.1 % 8192 = 0 → s.dev.released (6 + w) = true →
    e = unsignedOf 32 (((s.dev.wl w).tx.2.ns : Int) - (s.dev.time.nsBase : Nat)) → e < 4000000000 →
    ∃ t, exec (.todSend w) s = .next t ∧ (t.dev.wave w).ctrlQ = (s.dev.wave w).ctrlQ ++ [⟨0x06, (s.dev.wave w).mseq,
        beBytes 4 (s.dev.wl w).tx.1 ++ beBytes 6 ((s.dev.time.secBase + e / 1000000000) % 2 ^ 48) ++ beBytes 4 (e % 1000000000)
          ++ beBytes 2 (s.dev.wl w).tx.2.sub, none⟩] ∧ s.dev.Only [] [] t.dev)
  ∧ (∀ (w : Fin 2) (s : State), (s.dev.wave w).leaf = false → (s.dev.wave w).master = true →
    (s.dev.wl w).tx.1 % 8192 = 0 → s.dev.released (6 + w) = true →
    4000000000 ≤ unsignedOf 32 (((s.dev.wl w).tx.2.ns : Int) - (s.dev.time.nsBase : Nat)) →
    ∃ t, exec (.todSend w) s = .next t ∧ t.dev.waves = s.dev.waves
      ∧ t.dev.get F.hrtTimStatTodskip = satAdd 8 (s.dev.get F.hrtTimStatTodskip) 1 ∧ s.dev.Raised 0xFB t.dev
      ∧ s.dev.Only [R.hrtTimStat] [0xFB] t.dev)


/-! ### The configuration image (14_configuration_image) -/

/-- Boot selection (R367 to R371): with no valid slot NOIMG shows and CFG_NO_IMAGE is raised; a single valid slot becomes
the active one, its sections are in force, PCI is released and the cords of policy 0 wake. Which registers a REGSET
record then writes is not said here. ACTIVATE and RESOLVE (R367, R370 to R373): a slot that does not verify is refused
with RESULT 2, an accepted image takes its place in each cord that differs and is off at once, and RESOLVE erases the
header of the slot it does not keep. The clauses rest on the model's choices of log 7, 54, 55, 81. -/
def Obligations.ImagesAreSelectedAndActivated : Prop :=
  (∀ (s : State), s.dev.waiting = [] → s.dev.inReset = false → s.dev.get F.hrtCfgStatBootpend = 1 → s.dev.get F.hrtHstStatFwrun = 1 →
    s.dev.get F.hrtHstStatRecovery = 0 → s.dev.get F.hrtClkStatHrtsrc = 2 → s.dev.verifySlot s.fuses 0 = none →
    s.dev.verifySlot s.fuses 1 = none →
    ∃ t, exec .bootSelection s = .next t ∧ t.dev.get F.hrtCfgStatBootpend = 0 ∧ t.dev.get F.hrtCfgStatNoimg = 1
      ∧ t.dev.get F.hrtCfgStatVala = 0 ∧ t.dev.get F.hrtCfgStatValb = 0 ∧ s.dev.Raised 0x0F t.dev
      ∧ t.dev.get (F.hrtEvtSrcCtlCount 0x09) = satAdd 16 (s.dev.get (F.hrtEvtSrcCtlCount 0x09)) 2
      ∧ s.dev.Only [R.hrtCfgStat, R.hrtCfgSeqa, R.hrtCfgSeqb] [0x09, 0x0F] t.dev)
  ∧ (∀ (a : Image) (s : State), s.dev.waiting = [] → s.dev.inReset = false → s.dev.get F.hrtCfgStatBootpend = 1 →
    s.dev.get F.hrtHstStatFwrun = 1 → s.dev.get F.hrtHstStatRecovery = 0 → s.dev.get F.hrtClkStatHrtsrc = 2 →
    s.dev.verifySlot s.fuses 0 = some a → s.dev.verifySlot s.fuses 1 = none →
    (∀ c p, Rec.regset p ∉ (a.secs.getD c {}).recs) → (∀ p, Rec.cordpol p ∉ (a.secs.getD 12 {}).recs) →
    ∃ t, exec .bootSelection s = .next t ∧ t.dev.get F.hrtCfgStatBootpend = 0 ∧ t.dev.get F.hrtCfgStatActslot = 0
      ∧ t.dev.get F.hrtCfgStatVala = 1 ∧ t.dev.get F.hrtCfgStatValb = 0 ∧ t.dev.get F.hrtCfgSeqaSeq = a.seq % 2 ^ 32
      ∧ s.dev.Raised 0x08 t.dev ∧ t.dev.img.kslot = a.kslot ∧ t.dev.cordSt 12 = 3
      ∧ (∀ c, t.dev.sec c = a.secs.getD c {})
      ∧ (∀ c, 4 ≤ c → c ≤ 11 → s.dev.cordSt c = 0 → t.dev.cordSt c = if t.dev.get (F.hrtPwrCordPol c) = 0 then 1 else 0))
  ∧ (∀ (v : Word) (s : State), s.dev.Takes R.hrtCfgCmd (cfgWord v 1) → s.dev.get F.hrtCfgStatBootpend = 0 →
    s.dev.get F.hrtCfgStatBusy = 0 → s.dev.verifySlot s.fuses s.dev.inactive = none →
    ∃ t, exec (.activate v) s = .next t ∧ t.outputs.head? = some (.writeDone R.hrtCfgCmd 10) ∧ t.dev.get F.hrtCfgStatResult = 2
      ∧ s.dev.Raised 0x0E t.dev ∧ s.dev.Raised 0x09 t.dev ∧ t.dev.get F.hrtGlbAerrCode = 10 ∧ t.dev.get F.hrtCfgStatBusy = 0
      ∧ t.dev.img = s.dev.img)
  ∧ (∀ (v : Word) (i : Image) (s : State), s.dev.Takes R.hrtCfgCmd (cfgWord v 1) → s.dev.get F.hrtCfgStatBootpend = 0 →
    s.dev.get F.hrtCfgStatBusy = 0 → s.dev.get F.hrtCfgStatNoimg = 0 → s.dev.verifySlot s.fuses s.dev.inactive = some i →
    s.dev.activateCode (some i) (F.hrtCfgCmdForce.of v == 1) false = 0 →
    (∀ c ∈ s.dev.diffCords i, c ≠ 0 ∧ (s.dev.cordSt c = 0 ∨ s.dev.cordSt c = 5)) →
    ∃ t, exec (.activate v) s = .next t ∧ t.outputs.head? = some (.writeDone R.hrtCfgCmd 0) ∧ t.dev.get F.hrtCfgStatResult = 0
      ∧ t.dev.get F.hrtCfgStatBusy = 0 ∧ t.dev.get F.hrtCfgStatMixed = 0 ∧ t.dev.get F.hrtCfgStatActslot = s.dev.inactive % 2
      ∧ (∀ c ∈ s.dev.diffCords i, t.dev.sec c = i.secs.getD c {}
          ∧ t.dev.get (F.hrtCfgCseqSseq c) = (i.secs.getD c {}).sseq % 2 ^ 32)
      ∧ t.dev.img.seq = i.seq ∧ t.dev.img.reload = none)
  ∧ (∀ (v : Word) (keep : Nat) (s : State), s.dev.Takes R.hrtCfgCmd (cfgWord v 3) → s.dev.get F.hrtCfgStatBootpend = 0 →
    s.dev.get F.hrtCfgStatBusy = 0 → s.dev.get F.hrtCfgStatDisputed = 1 → keep = F.hrtCfgCmdSlot.of v →
    s.dev.get (if keep = 0 then F.hrtCfgStatVala else F.hrtCfgStatValb) = 1 → keep = s.dev.get F.hrtCfgStatActslot →
    ∃ t, exec (.resolve v) s = .next t ∧ t.outputs.head? = some (.writeDone R.hrtCfgCmd 0) ∧ t.dev.get F.hrtCfgStatDisputed = 0
      ∧ t.dev.get F.hrtCfgStatResult = 0 ∧ t.dev.get (if keep = 0 then F.hrtCfgStatValb else F.hrtCfgStatVala) = 0
      ∧ (∀ k < 256, Tbl.get 0 t.dev.img.mram (slotBase (1 - keep) + k) = 0)
      ∧ (∀ k, k < slotBase (1 - keep) ∨ slotBase (1 - keep) + 256 ≤ k → Tbl.get 0 t.dev.img.mram k = Tbl.get 0 s.dev.img.mram k))
  ∧ (∀ (v : Word) (s : State), s.dev.Takes R.hrtCfgCmd (cfgWord v 3) → s.dev.get F.hrtCfgStatBootpend = 0 →
    s.dev.get F.hrtCfgStatBusy = 0 → s.dev.get F.hrtCfgStatDisputed = 0 →
    ∃ t, exec (.resolve v) s = .next t ∧ t.outputs.head? = some (.writeDone R.hrtCfgCmd 10) ∧ t.dev.get F.hrtCfgStatResult = 0xB
      ∧ s.dev.Raised 0x0E t.dev ∧ t.dev.img = s.dev.img)

/-- RELOAD and what moves a reload on (R225, R372 to R374, R379, R380): a cord off or Held is reloaded at once, another
one is drained, loses its contents and wakes again; slices of PKT give up their map entries pair by pair and take them
back. The clauses rest on the model's choices of log 56. -/
def Obligations.CordsAreReloaded : Prop :=
  (∀ (v : Word) (c : Nat) (s : State), s.dev.Takes R.hrtCfgCmd (cfgWord v 2) → s.dev.get F.hrtCfgStatBootpend = 0 →
    s.dev.get F.hrtCfgStatBusy = 0 → s.dev.get F.hrtCfgStatNoimg = 0 → s.dev.pwr.trans = none → s.dev.get F.hrtPwrStatePend = 3 →
    c = F.hrtCfgCmdCord.of v → c ≠ 0 → s.dev.cordSt c = 0 ∨ s.dev.cordSt c = 5 →
    ∃ t, exec (.reload v) s = .next t ∧ t.outputs.head? = some (.writeDone R.hrtCfgCmd 0)
      ∧ t.dev.sec c = Tbl.get {} s.dev.img.slot c ∧ t.dev.get (F.hrtCfgCseqSseq c) = (Tbl.get ({} : Sec) s.dev.img.slot c).sseq % 2 ^ 32
      ∧ s.dev.Raised 0x0B t.dev ∧ s.dev.Raised 0x0C t.dev ∧ t.dev.get F.hrtCfgStatBusy = 0 ∧ t.dev.get F.hrtCfgStatResult = 0
      ∧ s.dev.Only [R.hrtCfgCmd, R.hrtCfgStat, R.hrtCfgCseq c] [0x0B, 0x0C] t.dev)
  ∧ (∀ (v : Word) (c : Nat) (s : State), s.dev.Takes R.hrtCfgCmd (cfgWord v 2) → s.dev.get F.hrtCfgStatBootpend = 0 →
    s.dev.get F.hrtCfgStatBusy = 0 → s.dev.get F.hrtCfgStatNoimg = 0 → s.dev.pwr.trans = none → s.dev.get F.hrtPwrStatePend = 3 →
    c = F.hrtCfgCmdCord.of v → 4 ≤ c → c ≠ 8 → c ≠ 9 → s.dev.cordSt c = 3 →
    ∃ t, exec (.reload v) s = .next t ∧ t.outputs.head? = some (.writeDone R.hrtCfgCmd 0) ∧ t.dev.cordSt c = 6
      ∧ (t.dev.cordInfo c).why = .reload ∧ (t.dev.img.reload.map (·.cord)) = some c ∧ t.dev.get F.hrtCfgStatBusy = 1
      ∧ t.dev.get F.hrtCfgStatCord = c ∧ t.dev.get F.hrtCfgStatStep = 1 ∧ s.dev.Raised 0x0B t.dev)
  ∧ (∀ (v : Word) (s : State), s.dev.Takes R.hrtCfgCmd (cfgWord v 2) → s.dev.get F.hrtCfgStatBootpend = 0 →
    s.dev.get F.hrtCfgStatBusy = 1 →
    ∃ t, exec (.reload v) s = .next t ∧ t.outputs.head? = some (.writeDone R.hrtCfgCmd 10) ∧ t.dev.get F.hrtCfgStatResult = 1
      ∧ s.dev.Raised 0x0E t.dev ∧ t.dev.img = s.dev.img ∧ s.dev.Only [R.hrtCfgStat, R.hrtGlbAerr] [0x0E, 0x01] t.dev)
  ∧ (∀ (c : Fin 13) (s : State), s.dev.Calm → 1 ≤ c.val → s.dev.cordSt c = 6 → (s.dev.cordInfo c).why ≠ .reload →
    (s.dev.cordInfo c).cmd = none →
    ∃ t, exec (.drainComplete c) s = .next t ∧ t.dev.cordSt c = 0 ∧ t.dev.get (F.hrtPwrCordWoke c) = 0
      ∧ (8 ≤ c.val → c.val ≤ 11 → ∀ a, inCord c a = true → t.dev.reg a = regReset a))
  ∧ (∀ (c : Fin 13) (s : State), s.dev.waiting = [] → 1 ≤ c.val → s.dev.cordSt c = 6 → (s.dev.cordInfo c).why = .reload →
    (s.dev.cordInfo c).cmd = none →
    ∃ t, exec (.drainComplete c) s = .next t ∧ t.dev.cordSt c = 1 ∧ t.dev.sec c = Tbl.get {} s.dev.img.slot c
      ∧ t.dev.get F.hrtCfgStatStep = 2)
  ∧ (∀ (c : Fin 13) (units : Nat) (s : State), s.dev.Calm → 1 ≤ c.val → s.dev.cordSt c = 6 → (s.dev.cordInfo c).why ≠ .reload →
    (s.dev.cordInfo c).cmd = none →
    ∃ t, exec (.drainTimeout c units) s = .next t ∧ t.dev.cordSt c = 0
      ∧ t.dev.get F.hrtCfgDrainDraindrop = satAdd 16 (s.dev.get F.hrtCfgDrainDraindrop) units)
  ∧ (∀ (r : PktRun) (p : Nat) (s : State), s.dev.Calm → s.dev.pkt.run = some r → r.cur = some p → p < 12 → r.held ≠ [] →
    (∀ i ∈ r.held, i < 256) → s.dev.sliceEmpty (2 * p) = true → s.dev.sliceEmpty (2 * p + 1) = true →
    ∃ t, exec .pktSlicePairEmpty s = .next t
      ∧ (r.shrink = true → ∀ i ∈ r.held, t.dev.get (F.pktSprMapSlice i) < 6)
      ∧ (r.shrink = false → s.dev.get F.hrtPwrStateCur ≠ 1 →
          (∀ i ∈ r.held, t.dev.get (F.pktSprMapSlice i) < 24 ∧ t.dev.get (F.pktSprMapSlice i) / 2 ≠ p)
            ∧ t.dev.pkt.run = some { r with held := [], moved := r.held.map fun i => (i, Tbl.get 0 r.newMap i) })
      ∧ (∀ i, i < 256 → i ∉ r.held → t.dev.get (F.pktSprMapSlice i) = s.dev.get (F.pktSprMapSlice i)))
  ∧ (∀ (i : Fin 256) (n : Nat) (r : PktRun) (rest : List (Nat × Nat)) (s : State), s.dev.Calm → s.dev.pkt.run = some r →
    r.moved = (i.val, n) :: rest → (∀ x ∈ rest, x.1 ≠ i.val) → n < 24 →
    (∀ p ∈ Tbl.get [] s.dev.pkt.stores (s.dev.get (F.pktSprMapSlice i)), p.hash % 256 ≠ i.val) →
    (∀ x ∈ s.dev.pkt.decided, x.pkt.hash % 256 ≠ i.val) →
    ∃ t, exec (.spreadEntryReturn i) s = .next t ∧ t.dev.get (F.pktSprMapSlice i) = n
      ∧ (rest ≠ [] → t.dev.pkt.run = some { r with moved := rest }))

/-! ### Power states and cords (15_power) -/

/-- State requests (R394, R395, R397 to R401): one for the state in force changes nothing, a refused one is counted under
its code, an accepted one starts its transition with the first cord in order, in FULL or out of BANKED into DOZE a
wake, into BANKED a drain behind the record of bank 3 and the rings, and out of FULL into DOZE the ports and the
slices of PKT; one during a transition waits, and a newer one takes its place. The clauses rest on the model's choices
of log 58. -/
def Obligations.StateRequestsAreServed : Prop :=
  (∀ (v : Word) (s : State), s.dev.Takes R.hrtPwrReq (F.hrtPwrReqGo.put v 1) →
    F.hrtPwrReqState.of v = s.dev.get F.hrtPwrStateTgt →
    ∃ t, exec (.powerRequest v) s = .next t ∧ t.outputs = .writeDone R.hrtPwrReq 0 :: s.outputs ∧ t.dev.pwr = s.dev.pwr
      ∧ s.dev.Only [R.hrtPwrReq] [] t.dev)
  ∧ (∀ (v : Word) (k : Nat) (s : State), s.dev.Takes R.hrtPwrReq (F.hrtPwrReqGo.put v 1) →
    F.hrtPwrReqState.of v ≠ s.dev.get F.hrtPwrStateTgt → s.dev.pwr.trans = none → s.dev.img.reload = none →
    s.dev.get F.hrtPwrStatePend = 3 → s.dev.refuser (F.hrtPwrReqState.of v) = some k →
    ∃ t, exec (.powerRequest v) s = .next t ∧ t.outputs.head? = some (.writeDone R.hrtPwrReq 0)
      ∧ t.dev.get (F.hrtPwrRefcntRef k) = satAdd 16 (s.dev.get (F.hrtPwrRefcntRef k)) 1 ∧ t.dev.get F.hrtPwrStateLastkind = 0
      ∧ t.dev.get F.hrtPwrStateLastcode = k ∧ t.dev.get F.hrtPwrStateCur = s.dev.get F.hrtPwrStateCur
      ∧ t.dev.get F.hrtPwrStateTgt = s.dev.get F.hrtPwrStateTgt ∧ t.dev.pwr = s.dev.pwr ∧ s.dev.Raised 0x11 t.dev
      ∧ s.dev.Only [R.hrtPwrReq, R.hrtPwrState, R.hrtPwrRefcnt k] [0x11] t.dev)
  ∧ (∀ (v : Word) (c : Nat) (s : State), s.dev.Takes R.hrtPwrReq (F.hrtPwrReqGo.put v 1) → F.hrtPwrReqState.of v = 0 →
    s.dev.get F.hrtPwrStateTgt ≠ 0 → s.dev.get F.hrtPwrStateCur ≠ 0 → s.dev.pwr.trans = none → s.dev.img.reload = none →
    s.dev.get F.hrtPwrStatePend = 3 → s.dev.refuser 0 = none → 1 ≤ c → c ≤ 8 → s.dev.turnsOn 0 c = true → s.dev.cordSt c = 0 →
    (∀ j, 1 ≤ j → j < c → s.dev.turnsOn 0 j = false) →
    ∃ t, exec (.powerRequest v) s = .next t ∧ t.dev.get F.hrtPwrStateTgt = 0 ∧ t.dev.get F.hrtPwrStateBusy = 1
      ∧ t.dev.get F.hrtPwrStateCur = s.dev.get F.hrtPwrStateCur ∧ t.dev.cordSt c = 1 ∧ (t.dev.cordInfo c).why = .trans
      ∧ (t.dev.pwr.trans.map fun x => (x.target, x.done, x.back)) = some (0, [(c, true)], false)
      ∧ s.dev.Only [R.hrtPwrReq, R.hrtPwrState, R.hrtPwrCord c] [] t.dev)
  ∧ (∀ (v : Word) (c : Nat) (s : State), s.dev.Takes R.hrtPwrReq (F.hrtPwrReqGo.put v 1) → F.hrtPwrReqState.of v = 1 →
    s.dev.get F.hrtPwrStateTgt ≠ 1 → s.dev.get F.hrtPwrStateCur = 2 → s.dev.pwr.trans = none → s.dev.img.reload = none →
    s.dev.get F.hrtPwrStatePend = 3 → s.dev.refuser 1 = none → 1 ≤ c → c ≤ 8 → s.dev.turnsOn 1 c = true →
    (∀ j, 1 ≤ j → j ≤ 11 → s.dev.cordSt j = 0) → (∀ j, 1 ≤ j → j < c → s.dev.turnsOn 1 j = false) →
    ∃ t, exec (.powerRequest v) s = .next t ∧ t.dev.get F.hrtPwrStateTgt = 1 ∧ t.dev.get F.hrtPwrStateBusy = 1
      ∧ t.dev.get F.hrtPwrStateCur = 2 ∧ t.dev.cordSt c = 1 ∧ (t.dev.cordInfo c).why = .trans
      ∧ (t.dev.pwr.trans.map fun x => (x.target, x.done, x.back)) = some (1, [(c, true)], false)
      ∧ s.dev.Only [R.hrtPwrReq, R.hrtPwrState, R.hrtPwrCord c] [] t.dev)
  ∧ (∀ (v : Word) (c : Nat) (s : State), s.dev.Takes R.hrtPwrReq (F.hrtPwrReqGo.put v 1) → F.hrtPwrReqState.of v = 2 →
    s.dev.get F.hrtPwrStateTgt ≠ 2 → s.dev.pwr.trans = none → s.dev.img.reload = none →
    s.dev.get F.hrtPwrStatePend = 3 → s.dev.refuser 2 = none → 1 ≤ c → c ≤ 11 → s.dev.cordSt c = 2 ∨ s.dev.cordSt c = 3 →
    (∀ j, c < j → j ≤ 11 → s.dev.cordSt j = 0) →
    ∃ t, exec (.powerRequest v) s = .next t ∧ t.dev.get F.hrtPwrStateTgt = 2 ∧ t.dev.get F.hrtPwrStateBusy = 1
      ∧ t.dev.get F.hrtPwrStateCur = s.dev.get F.hrtPwrStateCur ∧ t.dev.cordSt c = 6 ∧ (t.dev.cordInfo c).why = .trans
      ∧ (t.dev.pwr.trans.map fun x => (x.target, x.done, x.back)) = some (2, [(c, false)], false)
      ∧ (∀ i < 44, Tbl.get 0 t.dev.ember.bytes (3 * 2 ^ 21 + i) = s.dev.bankRecord.getD i 0)
      ∧ (∀ (tx : Bool) (r : Nat), r < 2048 → t.dev.get (ringEn tx r) = 0))
  ∧ (∀ (v : Word) (s : State), s.dev.Takes R.hrtPwrReq (F.hrtPwrReqGo.put v 1) → F.hrtPwrReqState.of v = 1 →
    s.dev.get F.hrtPwrStateTgt ≠ 1 → s.dev.get F.hrtPwrStateCur = 0 → s.dev.pwr.trans = none → s.dev.img.reload = none →
    s.dev.get F.hrtPwrStatePend = 3 → s.dev.refuser 1 = none → s.dev.released 8 = true → s.dev.pkt.run = none →
    (∃ i < 256, 6 ≤ s.dev.get (F.pktSprMapSlice i)) → (∀ i < 256, s.dev.get (F.pktSprMapSlice i) < 24) →
    ∃ t r p, exec (.powerRequest v) s = .next t ∧ t.dev.get F.hrtPwrStateTgt = 1 ∧ t.dev.get F.hrtPwrStateBusy = 1
      ∧ t.dev.get F.hrtPwrStateCur = 0 ∧ t.dev.pkt.run = some r ∧ r.shrink = true ∧ r.cur = some p ∧ 3 ≤ p ∧ r.held = s.dev.entriesOf p
      ∧ r.held ≠ [] ∧ (∀ q, p < q → s.dev.entriesOf q = [])
      ∧ (t.dev.pwr.trans.map fun x => (x.target, x.done, x.back)) = some (1, [(20, false), (21, false)], false)
      ∧ (∀ q < 96, s.dev.released (hsCord q) = true → s.dev.get (F.hsMacBondLanes q) ≠ 0 → s.dev.get (F.hsMacBondClass q) ≠ 0 →
          s.dev.get (F.hsMacParkPstate q) ≠ 1 → t.dev.get (F.hsMacParkPstate q) = 1 ∧ q ∈ t.dev.pwr.parked))
  ∧ (∀ (v : Word) (s : State), s.dev.Takes R.hrtPwrReq (F.hrtPwrReqGo.put v 1) →
    F.hrtPwrReqState.of v ≠ s.dev.get F.hrtPwrStateTgt → s.dev.pwr.trans ≠ none → s.dev.get F.hrtPwrStatePend = 3 →
    ∃ t, exec (.powerRequest v) s = .next t ∧ t.dev.get F.hrtPwrStatePend = F.hrtPwrReqState.of v ∧ t.dev.pwr = s.dev.pwr
      ∧ s.dev.Only [R.hrtPwrReq, R.hrtPwrState] [] t.dev)
  ∧ (∀ (v : Word) (s : State), s.dev.Takes R.hrtPwrReq (F.hrtPwrReqGo.put v 1) →
    F.hrtPwrReqState.of v ≠ s.dev.get F.hrtPwrStateTgt → s.dev.pwr.trans ≠ none → s.dev.get F.hrtPwrStatePend ≠ 3 →
    ∃ t, exec (.powerRequest v) s = .next t ∧ t.dev.get F.hrtPwrStatePend = F.hrtPwrReqState.of v
      ∧ t.dev.get (F.hrtPwrRefcntRef 0x2F) = satAdd 16 (s.dev.get (F.hrtPwrRefcntRef 0x2F)) 1
      ∧ t.dev.get F.hrtPwrStateLastcode = 0x2F ∧ s.dev.Raised 0x13 t.dev
      ∧ s.dev.Only [R.hrtPwrReq, R.hrtPwrState, R.hrtPwrRefcnt 0x2F] [0x13] t.dev)

/-- The host's cord commands (R390, R393): ON wakes a cord that is off, OFF drains one that is on, CLEAR takes a FAILED
one to off, or an engine's to its wake for repair; each is refused during a transition and for a cord or a state in
which it is not allowed. The clauses rest on the model's choices of log 57. -/
def Obligations.CordCommandsRun : Prop :=
  (∀ (c : Fin 13) (s : State), s.dev.Takes (R.hrtPwrCord c) (s.dev.withField (F.hrtPwrCordCmd c) 1) → 4 ≤ c.val → c.val ≤ 11 →
    s.dev.pwr.trans = none → s.dev.cordSt c = 0 →
    ∃ t, exec (.cordOn c) s = .next t ∧ t.outputs = .writeDone (R.hrtPwrCord c) 0 :: s.outputs ∧ t.dev.cordSt c = 1
      ∧ (t.dev.cordInfo c).why = .command ∧ s.dev.Only [R.hrtPwrCord c] [] t.dev)
  ∧ (∀ (c : Fin 13) (s : State), s.dev.Takes (R.hrtPwrCord c) (s.dev.withField (F.hrtPwrCordCmd c) 2) → 4 ≤ c.val → c.val ≤ 11 →
    s.dev.pwr.trans = none → s.dev.cordSt c = 2 ∨ s.dev.cordSt c = 3 →
    ∃ t, exec (.cordOff c) s = .next t ∧ t.outputs.head? = some (.writeDone (R.hrtPwrCord c) 0) ∧ t.dev.cordSt c = 6
      ∧ (t.dev.cordInfo c).why = .command)
  ∧ (∀ (c : Fin 13) (s : State), s.dev.Takes (R.hrtPwrCord c) (s.dev.withField (F.hrtPwrCordCmd c) 1) → 1 ≤ c.val →
    s.dev.pwr.trans ≠ none ∨ c.val ≤ 3 ∨ c.val = 12 ∨ s.dev.cordSt c = 4 ∨ s.dev.cordSt c = 5 →
    ∃ t, exec (.cordOn c) s = .next t ∧ t.outputs.head? = some (.writeDone (R.hrtPwrCord c) 10) ∧ t.dev.get F.hrtGlbAerrCode = 10
      ∧ t.dev.pwr = s.dev.pwr ∧ s.dev.Only [R.hrtGlbAerr] [0x01] t.dev)
  ∧ (∀ (c : Fin 13) (s : State), s.dev.Takes (R.hrtPwrCord c) (s.dev.withField (F.hrtPwrCordCmd c) 2) → 1 ≤ c.val →
    s.dev.pwr.trans ≠ none ∨ c.val ≤ 3 ∨ c.val = 12 ∨ s.dev.cordSt c = 0 ∨ s.dev.cordSt c = 4 ∨ s.dev.cordSt c = 5 →
    ∃ t, exec (.cordOff c) s = .next t ∧ t.outputs.head? = some (.writeDone (R.hrtPwrCord c) 10) ∧ t.dev.get F.hrtGlbAerrCode = 10
      ∧ t.dev.pwr = s.dev.pwr ∧ s.dev.Only [R.hrtGlbAerr] [0x01] t.dev)
  ∧ (∀ (c : Fin 13) (s : State), s.dev.Takes (R.hrtPwrCord c) (s.dev.withField (F.hrtPwrCordCmd c) 3) → 1 ≤ c.val →
    s.dev.pwr.trans ≠ none ∨ c.val = 12 ∨ s.dev.cordSt c ≠ 4 ∨ s.dev.get F.hrtSnsStatTripped = 1 →
    ∃ t, exec (.cordClear c) s = .next t ∧ t.outputs.head? = some (.writeDone (R.hrtPwrCord c) 10) ∧ t.dev.get F.hrtGlbAerrCode = 10
      ∧ t.dev.pwr = s.dev.pwr ∧ s.dev.Only [R.hrtGlbAerr] [0x01] t.dev)
  ∧ (∀ (c : Fin 13) (s : State), s.dev.Takes (R.hrtPwrCord c) (s.dev.withField (F.hrtPwrCordCmd c) 3) → 4 ≤ c.val → c.val ≤ 11 →
    s.dev.pwr.trans = none → s.dev.cordSt c = 4 → s.dev.get F.hrtSnsStatTripped = 0 →
    ∃ t, exec (.cordClear c) s = .next t ∧ t.outputs.head? = some (.writeDone (R.hrtPwrCord c) 0) ∧ t.dev.cordSt c = 0
      ∧ s.dev.Raised 0x18 t.dev ∧ s.dev.Only [R.hrtPwrCord c] [0x18] t.dev)
  ∧ (∀ (c : Fin 13) (s : State), s.dev.Takes (R.hrtPwrCord c) (s.dev.withField (F.hrtPwrCordCmd c) 3) → 1 ≤ c.val → c.val ≤ 3 →
    s.dev.pwr.trans = none → s.dev.cordSt c = 4 → s.dev.get F.hrtSnsStatTripped = 0 → (s.dev.spr1 (c.val - 1)).trip = none →
    ∃ t, exec (.cordClear c) s = .next t ∧ t.outputs.head? = some (.writeDone (R.hrtPwrCord c) 0) ∧ t.dev.cordSt c = 1
      ∧ t.dev.role (c.val - 1) = 2 ∧ s.dev.Raised 0x18 t.dev)

/-- A cord wakes (R30, R33, R371, R387 to R391): an access to a cord that is off starts its wake and waits, a ready cord
takes its section and is released, stays unreleased where its application fails, and becomes FAILED when WAKETO runs
out. In DOZE the search takes the next quarter of the subcarriers (R396). The clauses rest on the model's choices of
log 5, 33. -/
def Obligations.CordsWakeAndSearchGoesOn : Prop :=
  (∀ (a : BitVec 28) (w : Option Word) (c : Nat) (s : State), c = cordOf a.toNat → s.dev.waiting = [] → s.dev.cordSt 12 ≠ 0 →
    s.dev.get F.pciEpStatDlup = 1 → s.dev.pathCode a.toNat 4 = 0 → s.dev.cordSt c = 0 →
    s.dev.get F.hrtPwrCfgAutoacc = 0 ∨ s.dev.get F.hrtPwrStateCur = 0 →
    ∃ t, exec (.accessWake a w) s = .next t ∧ t.dev.cordSt c = 1 ∧ (t.dev.cordInfo c).why = .access
      ∧ t.dev.waiting = [{ addr := a.toNat, size := 4, write := w, at_ := s.dev.time.ticks }] ∧ t.outputs = s.outputs
      ∧ s.dev.Only [R.hrtPwrCord c] [] t.dev)
  ∧ (∀ (c : Fin 13) (s : State), s.dev.Calm → c.val = 8 ∨ c.val = 9 → s.dev.cordSt c = 1 → s.dev.get F.hrtClkStatRootlock = 1 →
    (s.dev.cordInfo c).why = .access → (s.dev.cordInfo c).cmd = none → (Tbl.get ({} : Sec) s.dev.img.slot c).recs = [] →
    ∃ t, exec (.cordReady c 0) s = .next t ∧ t.dev.cordSt c = 3 ∧ t.dev.sec c = Tbl.get {} s.dev.img.slot c
      ∧ t.dev.get (F.hrtCfgCseqSseq c) = (Tbl.get ({} : Sec) s.dev.img.slot c).sseq % 2 ^ 32 ∧ t.dev.get (F.hrtPwrCordWoke c) = 1
      ∧ s.dev.Raised 0x15 t.dev ∧ (c.val = 8 → s.dev.Only [R.hrtPwrCord c, R.hrtCfgCseq c] [0x15] t.dev)
      ∧ s.dev.RegsKept (fun a => [R.hrtPwrCord c, R.hrtCfgCseq c].contains a || inCord 9 a || isEvt a) t.dev)
  ∧ (∀ (c : Fin 13) (x : Nat × Nat) (rest : List Rec) (s : State), s.dev.Calm → c.val = 8 → s.dev.cordSt c = 1 →
    s.dev.get F.hrtClkStatRootlock = 1 → (s.dev.cordInfo c).why = .command → (s.dev.cordInfo c).cmd = none →
    (Tbl.get ({} : Sec) s.dev.img.slot c).recs = .regset [x] :: rest → decodeAddr x.1 = none →
    ∃ t, exec (.cordReady c 0) s = .next t ∧ t.dev.cordSt c = 2 ∧ (t.dev.get F.hrtCfgFailmaskCords).testBit 8 = true
      ∧ s.dev.Raised 0x0D t.dev ∧ s.dev.Only [R.hrtPwrCord c, R.hrtCfgFailmask] [0x0D, 0x15] t.dev)
  ∧ (∀ (c : Fin 13) (s : State), s.dev.Calm → 4 ≤ c.val → c.val ≤ 11 → s.dev.cordSt c = 1 → (s.dev.cordInfo c).why ≠ .reload →
    ∃ t, exec (.wakeTimeout c) s = .next t ∧ t.dev.cordSt c = 4
      ∧ t.dev.get (F.hrtPwrCordFailcnt c) = satAdd 8 (s.dev.get (F.hrtPwrCordFailcnt c)) 1 ∧ s.dev.Raised 0x16 t.dev)
  ∧ (∀ (w e m : Nat) (s : State), w = s.dev.get F.hrtPwrCfgDozewl → s.dev.get F.hrtPwrStateCur = 1 → s.dev.cordOn (6 + w) = true →
    (s.dev.wave w).leaf = true → s.dev.get (F.lfActStatState w) = 0 → s.dev.get (F.lfAlnStatBcnv w) = 0 →
    (s.dev.wave w).decode = m → s.dev.serving w = some e → e < 3 →
    ∃ t, exec .dozeSearchStep s = .next t ∧ s.dev.Only [] [] t.dev
      ∧ (t.dev.eng e).pendDecode = some (t.dev.wave w).decode
      ∧ (t.dev.wave w).decode = (if m = 0xFF then 0xFF00 else if m = 0xFF00 then 0xFF0000 else if m = 0xFF0000 then 0xFF000000
          else 0xFF))

/-! ### Hearth (16_hearth) -/

/-- Mailbox commands on registers (R411 to R416): INFO, RD, the writes at basic level, their refusal at expert level, an
opcode that is not defined, and CFG. The clauses rest on the model's choices of log 15, 19, 20, 82. -/
def Obligations.MailboxCommandsAreServed : Prop :=
  (∀ (q : MbxReq) (s : State), s.dev.Asked q → q.opcode = 0 → q.len = 0 →
    ∃ t, exec .info s = .next t ∧ s.dev.Answered q 0 (leBytes 4 (s.dev.reg R.hrtGlbId).toNat ++ leBytes 4 (s.dev.reg R.hrtHstFwver).toNat
        ++ leBytes 4 (s.dev.reg R.hrtHstFwseq).toNat ++ leBytes 4 (s.dev.reg R.hrtHstStat).toNat) t.dev
      ∧ s.dev.RegsKept (fun a => isMbx a || isEvt a) t.dev)
  ∧ (∀ (q : MbxReq) (a : Nat) (r : RegAt) (s : State), s.dev.Asked q → q.opcode = 1 → q.len = 8 →
    q.args = leBytes 4 a ++ leBytes 4 1 → a % 4 = 0 → a < 2 ^ 32 → emberOfs a = none → decodeAddr a = some r →
    (∀ f ∈ r.row.fields, f.ty ≠ .rc) → s.dev.mbxCord a = 0 →
    ∃ t, exec .rd s = .next t ∧ s.dev.Answered q 0 (leBytes 4 (s.dev.readValue s.fuses a r).toNat) t.dev)
  ∧ (∀ (q : MbxReq) (v : Nat) (s : State), s.dev.Asked q → q.opcode = 2 → q.len = 8 →
    q.args = leBytes 4 R.hrtCfgDrain ++ leBytes 4 v → 1 ≤ v → v ≤ 255 →
    ∃ t, exec .wr0 s = .next t ∧ t.dev.get F.hrtCfgDrainDrainto = v ∧ s.dev.Answered q 0 [] t.dev
      ∧ t.dev.get F.hrtCfgDrainDraindrop = s.dev.get F.hrtCfgDrainDraindrop
      ∧ s.dev.RegsKept (fun a => a == R.hrtCfgDrain || isMbx a || isEvt a) t.dev)
  ∧ (∀ (q : MbxReq) (v : Nat) (s : State), s.dev.Asked q → q.opcode = 0x100 → q.len = 8 →
    q.args = leBytes 4 R.hrtPwrCfg ++ leBytes 4 v → v < 8 → s.dev.reg R.hrtPwrCfg < 8#32 →
    expertIn q.level (some .power) = false →
    ∃ t, exec .wr s = .next t ∧ t.dev.reg R.hrtPwrCfg = BitVec.ofNat 32 v ∧ s.dev.Answered q 0 [] t.dev
      ∧ s.dev.RegsKept (fun a => a == R.hrtPwrCfg || isMbx a || isEvt a) t.dev)
  ∧ (∀ (q : MbxReq) (v : Nat) (s : State), s.dev.Asked q → q.opcode = 0x100 → q.len = 8 →
    q.args = leBytes 4 R.hrtPwrCfg ++ leBytes 4 v → expertIn q.level (some .power) = true →
    ∃ t, exec .wr s = .next t ∧ s.dev.Answered q 4 [] t.dev ∧ s.dev.RegsKept (fun a => isMbx a || isEvt a) t.dev)
  ∧ (∀ (q : MbxReq) (m v : Nat) (s : State), s.dev.Asked q → q.opcode = 0x101 → q.len = 12 →
    q.args = leBytes 4 R.hrtPwrCfg ++ leBytes 4 m ++ leBytes 4 v → expertIn q.level (some .power) = true →
    ∃ t, exec .wrm s = .next t ∧ s.dev.Answered q 4 [] t.dev ∧ s.dev.RegsKept (fun a => isMbx a || isEvt a) t.dev)
  ∧ (∀ (q : MbxReq) (v : Nat) (s : State), s.dev.Asked q → q.opcode = 0x102 → q.len = 12 →
    q.args = leBytes 4 R.hrtPwrCfg ++ leBytes 4 1 ++ leBytes 4 v → expertIn q.level (some .power) = true →
    ∃ t, exec .wrn s = .next t ∧ s.dev.Answered q 4 (leBytes 4 0) t.dev ∧ s.dev.RegsKept (fun a => isMbx a || isEvt a) t.dev)
  ∧ (∀ (q : MbxReq) (m v : Nat) (x : Word) (s : State), s.dev.Asked q → q.opcode = 0x101 → q.len = 12 →
    q.args = leBytes 4 R.hrtPwrCfg ++ leBytes 4 m ++ leBytes 4 v → m < 8 → s.dev.reg R.hrtPwrCfg < 8#32 →
    expertIn q.level (some .power) = false →
    x = (s.dev.reg R.hrtPwrCfg &&& ~~~(BitVec.ofNat 32 m)) ||| (BitVec.ofNat 32 v &&& BitVec.ofNat 32 m) →
    ∃ t, exec .wrm s = .next t ∧ t.dev.reg R.hrtPwrCfg = x ∧ s.dev.Answered q 0 (leBytes 4 x.toNat) t.dev
      ∧ s.dev.RegsKept (fun a => a == R.hrtPwrCfg || isMbx a || isEvt a) t.dev)
  ∧ (∀ (q : MbxReq) (v b : Nat) (s : State), s.dev.Asked q → q.opcode = 0x102 → q.len = 16 →
    q.args = leBytes 4 R.hrtPwrCfg ++ leBytes 4 2 ++ leBytes 4 v ++ leBytes 4 b → v < 8 → b < 65536 →
    s.dev.reg R.hrtPwrCfg < 8#32 → expertIn q.level (some .power) = false →
    ∃ t, exec .wrn s = .next t ∧ t.dev.reg R.hrtPwrCfg = BitVec.ofNat 32 v ∧ t.dev.get F.hrtPwrRetainBanks = b
      ∧ s.dev.Answered q 0 (leBytes 4 2) t.dev
      ∧ s.dev.RegsKept (fun a => a == R.hrtPwrCfg || a == R.hrtPwrRetain || isMbx a || isEvt a) t.dev)
  ∧ (∀ (q : MbxReq) (s : State), s.dev.Asked q → knownOp q.opcode = false →
    ∃ t, exec .mbxUnknownOpcode s = .next t ∧ s.dev.Answered q 1 [] t.dev ∧ s.dev.RegsKept (fun a => isMbx a || isEvt a) t.dev)
  ∧ (∀ (q : MbxReq) (v : Word) (c : Nat) (r : RegAt) (s : State), s.dev.Asked q → q.opcode = 0x20 → q.len = 4 →
    q.args = leBytes 4 v.toNat → decodeAddr R.hrtCfgCmd = some r →
    s.dev.writeCode R.hrtCfgCmd r (F.hrtCfgCmdGo.put v 1) false = 0 → F.hrtCfgCmdOp.of v = 2 → c = F.hrtCfgCmdCord.of v → c ≠ 0 →
    s.dev.cordSt c = 0 ∨ s.dev.cordSt c = 5 → s.dev.get F.hrtCfgStatBootpend = 0 → s.dev.get F.hrtCfgStatBusy = 0 →
    s.dev.get F.hrtCfgStatNoimg = 0 → s.dev.pwr.trans = none → s.dev.get F.hrtPwrStatePend = 3 →
    ∃ t, exec .cfg s = .next t ∧ t.dev.sec c = Tbl.get {} s.dev.img.slot c ∧ s.dev.Raised 0x0C t.dev
      ∧ s.dev.Answered q 0 (leBytes 4 (t.dev.reg R.hrtCfgStat).toNat) t.dev)

/-- The update path and the firmware (R408 to R410, R418, R419): a session from its begin, which erases the header,
through its data to its end or abort or time-out; FW_ACTIVATE; and a restart by the watchdog, which ends the command
in progress with 0x0D, the writes it made before the restart standing. The clauses rest on the model's choices of log
3, 7, 20, 62. -/
def Obligations.UpdatesAndRestartsRun : Prop :=
  (∀ (q : MbxReq) (len : Nat) (s : State), s.dev.Asked q → q.opcode = 0x10 → q.len = 8 →
    q.args = leBytes 4 0 ++ leBytes 4 len → 1128 ≤ len → len ≤ 25165824 → len % 4 = 0 → s.dev.updDenied = false →
    s.dev.hearth.session = none →
    ∃ t, exec .updBegin s = .next t ∧ t.dev.hearth.session = some ⟨q.smb, false, s.dev.inactive, len, List.replicate 256 0⟩
      ∧ (∀ k < 256, Tbl.get 0 t.dev.img.mram (slotBase s.dev.inactive + k) = 0) ∧ t.dev.get F.hrtHstStatUpdact = 1
      ∧ t.dev.get F.hrtHstStatUpdmbx = (if q.smb then 1 else 0) ∧ s.dev.Answered q 0 [BitVec.ofNat 8 s.dev.inactive] t.dev)
  ∧ (∀ (q : MbxReq) (s : State), s.dev.Asked q → q.opcode = 0x10 → q.len = 8 →
    q.args = leBytes 4 0 ++ leBytes 4 1128 → s.dev.updDenied = true →
    ∃ t, exec .updBegin s = .next t ∧ t.dev.img = s.dev.img ∧ t.dev.hearth.session = s.dev.hearth.session
      ∧ s.dev.Answered q 7 [] t.dev)
  ∧ (∀ (q : MbxReq) (u : UpdSession) (o : Nat) (b : List Byte) (s : State), s.dev.Asked q → q.opcode = 0x11 →
    q.args = leBytes 4 o ++ b → q.len = q.args.length → 4 ≤ b.length → b.length ≤ 240 → b.length % 4 = 0 →
    s.dev.hearth.session = some u → u.smb = q.smb → o % 4 = 0 → o + b.length ≤ u.len → u.len < 2 ^ 32 →
    ∃ t, exec .updData s = .next t ∧ s.dev.Answered q 0 [] t.dev
      ∧ (∀ k < b.length, 256 ≤ o + k → Tbl.get 0 t.dev.img.mram (u.base + o + k) = b.getD k 0)
      ∧ (∀ k < b.length, o + k < 256 → ((t.dev.hearth.session.map (·.header)).getD []).getD (o + k) 0 = b.getD k 0)
      ∧ (∀ k < 256, Tbl.get 0 t.dev.img.mram (u.base + k) = Tbl.get 0 s.dev.img.mram (u.base + k)))
  ∧ (∀ (q : MbxReq) (u : UpdSession) (ok : Bool) (s : State), s.dev.Asked q → q.opcode = 0x12 → q.len = 0 →
    s.dev.hearth.session = some u → u.smb = q.smb → u.header.length = 256 →
    ok = (if u.firmware then ((s.dev.mramPut u.base u.header).verifyFw s.fuses u.slot).isSome
      else ((s.dev.mramPut u.base u.header).verifySlot s.fuses u.slot).isSome) →
    ∃ t, exec .updEnd s = .next t ∧ t.dev.hearth.session = none ∧ t.dev.get F.hrtHstStatUpdact = 0
      ∧ (∀ k < 256, Tbl.get 0 t.dev.img.mram (u.base + k) = u.header.getD k 0)
      ∧ t.dev.get F.hrtHstStatUpdres = (if ok then 1 else 2) ∧ s.dev.Raised 0x07 t.dev
      ∧ s.dev.Answered q (if ok then 0 else 9) [] t.dev)
  ∧ (∀ (q : MbxReq) (u : UpdSession) (s : State), s.dev.Asked q → q.opcode = 0x13 → q.len = 0 → s.dev.hearth.session = some u →
    u.smb = q.smb →
    ∃ t, exec .updAbort s = .next t ∧ t.dev.hearth.session = none ∧ t.dev.get F.hrtHstStatUpdres = 3 ∧ s.dev.Raised 0x07 t.dev
      ∧ t.dev.img = s.dev.img ∧ s.dev.Answered q 0 [] t.dev)
  ∧ (∀ (q : MbxReq) (s : State), s.dev.Asked q → q.opcode = 0x13 → q.len = 0 → s.dev.hearth.session = none →
    ∃ t, exec .updAbort s = .next t ∧ s.dev.Answered q 8 [] t.dev)
  ∧ (∀ (s : State), s.dev.hearth.session ≠ none →
    ∃ t, exec .updSessionTimeout s = .next t ∧ t.dev.hearth.session = none ∧ t.dev.get F.hrtHstStatUpdact = 0
      ∧ t.dev.get F.hrtHstStatUpdres = 4 ∧ s.dev.Raised 0x07 t.dev ∧ s.dev.Only [R.hrtHstStat] [0x07] t.dev)
  ∧ (∀ (q : MbxReq) (k : Nat) (f : Nat × Nat × List Byte) (s : State), s.dev.Asked q → q.opcode = 0x14 → q.len = 0 →
    s.dev.get F.hrtCfgStatBusy = 0 → s.dev.pwr.trans = none → k = 1 - s.dev.get F.hrtHstStatFwslot →
    s.dev.verifyFw s.fuses k = some f → newer f.1 (s.dev.get F.hrtHstFwseqValue) = true →
    ∃ t, exec .fwActivate s = .next t ∧ t.dev.get F.hrtHstStatFwslot = k ∧ t.dev.get F.hrtHstFwseqValue = f.1 % 2 ^ 32
      ∧ t.dev.get F.hrtHstFwverValue = f.2.1 % 2 ^ 32 ∧ t.dev.get F.hrtHstStatRstreason = 2 ∧ t.dev.get F.hrtHstStatFwrun = 1
      ∧ s.dev.Raised 0x00 t.dev ∧ s.dev.Answered q 0 [] t.dev)
  ∧ (∀ (q : MbxReq) (f : Nat × Nat × List Byte) (s : State), s.dev.Asked q → s.dev.inReset = false → s.dev.hearth.session = none →
    s.dev.verifyFw s.fuses 0 = some f → s.dev.verifyFw s.fuses 1 = none →
    ∃ t, exec (.watchdogRestart 0) s = .next t ∧ t.dev.get F.hrtHstStatFwslot = 0 ∧ t.dev.get F.hrtHstStatRstreason = 1
      ∧ t.dev.get F.hrtHstStatFwrun = 1 ∧ t.dev.get F.hrtHstStatRecovery = 0 ∧ s.dev.Raised 0x00 t.dev
      ∧ s.dev.Answered q 0x0D q.noData t.dev)
  ∧ (∀ (q : MbxReq) (v b : Nat) (f : Nat × Nat × List Byte) (s : State), s.dev.Asked q → q.opcode = 0x102 → q.len = 16 →
    q.args = leBytes 4 R.hrtPwrCfg ++ leBytes 4 2 ++ leBytes 4 v ++ leBytes 4 b → v < 8 → s.dev.reg R.hrtPwrCfg < 8#32 →
    expertIn q.level (some .power) = false → s.dev.inReset = false → s.dev.hearth.session = none →
    s.dev.verifyFw s.fuses 0 = some f → s.dev.verifyFw s.fuses 1 = none →
    ∃ t, exec (.watchdogRestart 1) s = .next t ∧ t.dev.reg R.hrtPwrCfg = BitVec.ofNat 32 v
      ∧ t.dev.reg R.hrtPwrRetain = s.dev.reg R.hrtPwrRetain ∧ t.dev.get F.hrtHstStatRstreason = 1
      ∧ s.dev.Answered q 0x0D (leBytes 4 1) t.dev)

/-- The ash log and the SMBus target (R417, R424, R425): an entry is written in its place with the next number, notes join
the queue, entries are read back, and transactions are taken, answered, not acknowledged, or discarded and counted.
That the first entry of an empty log has ESEQ 0 (log 61) and the polynomial and order of the PEC (log 63) are the
model's choices. -/
def Obligations.LogAndSmbusServe : Prop :=
  (∀ (i : AshItem) (rest : List AshItem) (e : Nat) (s : State), s.dev.ash.queue = i :: rest → s.dev.get F.hrtHstStatFwrun = 1 →
    e = s.dev.ashNext →
    ∃ t, exec .ashLogEntry s = .next t ∧ t.dev.ash.queue = rest ∧ t.dev.ash.newest = some e
      ∧ t.dev.mramAt (0x3000000 + 32 * (e % 262144)) 32 = i.bytes e
      ∧ (∀ a, a / 32 ≠ (0x3000000 + 32 * (e % 262144)) / 32 → Tbl.get 0 t.dev.img.mram a = Tbl.get 0 s.dev.img.mram a)
      ∧ s.dev.Only [] [] t.dev)
  ∧ (∀ (q : MbxReq) (s : State), s.dev.Asked q → q.opcode = 0x31 → q.len = 16 → q.args.length = 16 → s.dev.ash.lost = 0 →
    ashLoad s.dev.ash.queue < 256 →
    ∃ t more, exec .logNote s = .next t ∧ t.dev.ash.queue = s.dev.ash.queue ++ ⟨s.dev.time.ns, s.dev.time.wraps, 3, 0,
        leAt q.args 0 2 % 2 ^ 16, fitBytes 12 (q.args.drop 4), []⟩ :: more
      ∧ s.dev.Answered q 0 (leBytes 4 ((s.dev.ashNext + s.dev.ash.queue.length) % 2 ^ 32)) t.dev)
  ∧ (∀ (q : MbxReq) (m : Nat) (b : List Byte) (s : State), s.dev.Asked q → q.opcode = 0x30 → q.len = 8 →
    q.args = leBytes 4 m ++ leBytes 4 1 → s.dev.ash.newest = some m → m < 2 ^ 32 → s.dev.ashHeld m = some b →
    ∃ t, exec .logRead s = .next t ∧ s.dev.Answered q 0 b t.dev ∧ t.dev.img = s.dev.img)
  ∧ (∀ (q : MbxReq) (m : Nat) (s : State), s.dev.Asked q → q.opcode = 0x32 → q.len = 0 → s.dev.ash.newest = some m →
    ∃ t, exec .logInfo s = .next t ∧ t.dev.img = s.dev.img ∧ s.dev.Answered q 0
      (leBytes 4 (s.dev.ashOldest m) ++ leBytes 4 m ++ leBytes 4 (s.dev.ash.lostAll + s.dev.ash.lost)) t.dev)
  ∧ (∀ (bytes : List Byte) (pec : Byte) (s : State), s.dev.inReset = false → s.dev.smbBusy = false → 4 ≤ bytes.length → bytes.length ≤ 252 →
    pec = smbPec ([s.dev.smbAddr false, 1, BitVec.ofNat 8 bytes.length] ++ bytes) →
    ∃ t, exec (.smbBlockWrite 1 bytes pec) s = .next t ∧ t.dev.hearth.reqs = s.dev.hearth.reqs
        ++ [⟨true, leAt bytes 0 2, leAt bytes 2 2, bytes.drop 4, s.dev.get F.hrtCfgCtllvlExpert⟩]
      ∧ s.dev.Only [] [] t.dev)
  ∧ (∀ (bytes : List Byte) (pec : Byte) (s : State), s.dev.inReset = false →
    pec ≠ smbPec ([s.dev.smbAddr false, 1, BitVec.ofNat 8 bytes.length] ++ bytes) →
    ∃ t, exec (.smbBlockWrite 1 bytes pec) s = .next t ∧ t.dev.hearth = s.dev.hearth
      ∧ t.dev.get F.hrtSmbStatPecerr = satAdd 8 (s.dev.get F.hrtSmbStatPecerr) 1 ∧ s.dev.Only [R.hrtSmbStat] [] t.dev)
  ∧ (∀ (bytes : List Byte) (pec : Byte) (s : State), s.dev.inReset = false → s.dev.smbBusy = true →
    pec = smbPec ([s.dev.smbAddr false, 1, BitVec.ofNat 8 bytes.length] ++ bytes) →
    ∃ t, exec (.smbBlockWrite 1 bytes pec) s = .next t ∧ t.dev.hearth = s.dev.hearth
      ∧ t.dev.get F.hrtSmbStatOvr = satAdd 8 (s.dev.get F.hrtSmbStatOvr) 1 ∧ s.dev.Only [R.hrtSmbStat] [] t.dev)
  ∧ (∀ (code pec : Byte) (bytes : List Byte) (s : State), s.dev.inReset = false → code ≠ 1 →
    ∃ t, exec (.smbBlockWrite code bytes pec) s = .next t ∧ t.outputs = .smbNak code :: s.outputs ∧ t.dev.hearth = s.dev.hearth
      ∧ s.dev.Only [] [] t.dev)
  ∧ (∀ (s : State), s.dev.inReset = false → s.dev.smbBusy = true →
    ∃ t, exec (.smbBlockRead 2 true) s = .next t ∧ t.dev.hearth = s.dev.hearth ∧ t.outputs = .smb (leBytes 4 0xFF)
        (smbPec ([s.dev.smbAddr false, 2, s.dev.smbAddr true, 4] ++ leBytes 4 0xFF)) :: s.outputs)
  ∧ (∀ (b : List Byte) (s : State), s.dev.inReset = false → s.dev.smbBusy = false → b = s.dev.hearth.smbRsp → b ≠ [] →
    ∃ t, exec (.smbBlockRead 2 true) s = .next t ∧ t.dev.hearth.smbDone = false ∧ s.dev.Only [] [] t.dev ∧ t.outputs = .smb b
        (smbPec ([s.dev.smbAddr false, 2, s.dev.smbAddr true, BitVec.ofNat 8 b.length] ++ b)) :: s.outputs)
  ∧ (∀ (code : Byte) (ok : Bool) (s : State), s.dev.inReset = false → code ≠ 2 →
    ∃ t, exec (.smbBlockRead code ok) s = .next t ∧ t.outputs = .smbNak code :: s.outputs ∧ t.dev.hearth = s.dev.hearth)
  ∧ (∀ (s : State), s.dev.inReset = false →
    ∃ t b, exec (.smbReadByte 3 true) s = .next t
      ∧ t.outputs = .smb [b] (smbPec [s.dev.smbAddr false, 3, s.dev.smbAddr true, b]) :: s.outputs ∧ b < 16#8
      ∧ b.getLsbD 0 = s.dev.smbBusy ∧ b.getLsbD 1 = s.dev.hearth.smbDone
      ∧ b.getLsbD 2 = ((List.range 16).any fun g => s.dev.groupPending g)
      ∧ b.getLsbD 3 = s.dev.flag F.hrtHstStatRecovery ∧ s.dev.Only [] [] t.dev)
  ∧ (∀ (s : State), s.dev.inReset = false →
    ∃ t, exec (.smbReadByte 3 false) s = .next t ∧ t.outputs = s.outputs ∧ t.dev.hearth = s.dev.hearth
      ∧ t.dev.get F.hrtSmbStatPecerr = satAdd 8 (s.dev.get F.hrtSmbStatPecerr) 1 ∧ s.dev.Only [R.hrtSmbStat] [] t.dev)

/-- Sensors, the thermal trip, rails and clocks (R420 to R423). Events, key slots and the test access port (R426, R427,
R439, R440, R455). The clauses rest on the model's choices of log 64, 65, 87. -/
def Obligations.SensorsEventsAndKeysAct : Prop :=
  (∀ (i : Fin 24) (x : Int) (s : State), s.dev.inReset = false → -2048 ≤ x → x < 2048 →
    ∃ t, exec (.sensorRead i x) s = .next t ∧ t.dev.getInt (F.hrtSnsTempTemp i) = x
      ∧ t.dev.getInt (F.hrtSnsTempMax i) = max x (s.dev.getInt (F.hrtSnsTempMax i))
      ∧ (i.val ∈ t.dev.pwr.hot ↔ ((s.dev.get F.hrtSnsTthrTrip * 4 : Nat) : Int) ≤ x)
      ∧ (((s.dev.get F.hrtSnsTthrWarn * 4 : Nat) : Int) ≤ x → s.dev.pwr.warned = false → s.dev.Raised 0x03 t.dev)
      ∧ (s.dev.pwr.warned = true → s.dev.Only [R.hrtSnsTemp i] [] t.dev))
  ∧ (∀ (s : State), s.dev.waiting = [] → s.dev.pwr.hot2 ≠ [] → s.dev.get F.hrtSnsStatTripped = 0 → s.dev.get F.hrtPwrStatePend = 3 →
    ∃ t, exec .thermTrip s = .next t ∧ t.dev.get F.hrtSnsStatTripped = 1 ∧ s.dev.Raised 0x04 t.dev ∧ t.dev.pwr.trans = none
      ∧ (∀ c, 1 ≤ c → c ≤ 11 → t.dev.cordSt c = 4) ∧ t.dev.cordSt 12 = s.dev.cordSt 12)
  ∧ (∀ (s : State), s.dev.get F.hrtSnsStatTripped = 1 → s.dev.allCool = true →
    ∃ t, exec .tripClear s = .next t ∧ t.dev.get F.hrtSnsStatTripped = 0 ∧ s.dev.Only [R.hrtSnsStat] [] t.dev)
  ∧ (∀ (i : Fin 16) (mv : List Nat) (s : State), s.dev.inReset = false → mv.length = 8 → s.dev.transWakes = false →
    mv.sum * 1000 < 8 * s.dev.get (F.hrtSnsRailNom i) * (1000 - s.dev.get (F.hrtSnsRlimLo i)) → i.val ∉ s.dev.pwr.railLow →
    ∃ t, exec (.railSample i mv) s = .next t ∧ t.dev.get (F.hrtSnsRailMv i) = mv.sum / 8 % 2 ^ 16
      ∧ (t.dev.get F.hrtSnsStatRailbad).testBit i = true ∧ i.val ∈ t.dev.pwr.railLow ∧ s.dev.Raised 0x05 t.dev
      ∧ s.dev.Only [R.hrtSnsRail i, R.hrtSnsStat] [0x05] t.dev)
  ∧ (∀ (i : Fin 16) (mv : List Nat) (s : State), s.dev.inReset = false → mv.length = 8 →
    8 * s.dev.get (F.hrtSnsRailNom i) * (1000 - s.dev.get (F.hrtSnsRlimLo i)) ≤ mv.sum * 1000 →
    mv.sum * 1000 ≤ 8 * s.dev.get (F.hrtSnsRailNom i) * (1000 + s.dev.get (F.hrtSnsRlimHi i)) →
    ∃ t, exec (.railSample i mv) s = .next t ∧ t.dev.get (F.hrtSnsRailMv i) = mv.sum / 8 % 2 ^ 16
      ∧ (t.dev.get F.hrtSnsStatRailbad).testBit i = false ∧ s.dev.Only [R.hrtSnsRail i, R.hrtSnsStat] [] t.dev)
  ∧ (∀ (m : Fin 4) (ppm : Int) (s : State), s.dev.inReset = false → (m.val = 2 ∧ 300 < ppm.natAbs)
      ∨ (m.val = 3 ∧ 100000 < ppm.natAbs ∧ s.dev.get F.hrtClkStatRefok = 1) → m.val ∉ s.dev.pwr.clkBad →
    ∃ t, exec (.clockMonitor m ppm) s = .next t ∧ t.dev.get (clkF F.hrtSnsStatClkok m) = 0
      ∧ t.dev.get (clkF F.hrtSnsStatClkstk m) = 1 ∧ m.val ∈ t.dev.pwr.clkBad ∧ s.dev.Raised 0x06 t.dev
      ∧ s.dev.Only [R.hrtSnsStat] [0x06] t.dev)
  ∧ (∀ (ppm : Int) (s : State), s.dev.inReset = false → ppm.natAbs ≤ 300 →
    ∃ t, exec (.clockMonitor 2 ppm) s = .next t ∧ t.dev.get (clkF F.hrtSnsStatClkok 2) = 1 ∧ 2 ∉ t.dev.pwr.clkBad
      ∧ s.dev.Only [R.hrtSnsStat] [] t.dev)
  ∧ (∀ (n : Fin 256) (s : State), s.dev.Takes (R.hrtEvtSrcCtl n) (s.dev.withField (F.hrtEvtSrcCtlStat n) 1) → neverRaised n = false →
    ∃ t, exec (.eventStatClear n false) s = .next t ∧ t.outputs.head? = some (.writeDone (R.hrtEvtSrcCtl n) 0)
      ∧ t.dev.get (F.hrtEvtSrcCtlStat n) = 0 ∧ t.dev.get (F.hrtEvtSrcCtlEn n) = s.dev.get (F.hrtEvtSrcCtlEn n)
      ∧ t.dev.get (F.hrtEvtSrcCtlCount n) = s.dev.get (F.hrtEvtSrcCtlCount n) ∧ s.dev.Only [R.hrtEvtSrcCtl n] [] t.dev)
  ∧ (∀ (n : Fin 256) (s : State), s.dev.Takes (R.hrtEvtSrcCtl n) (s.dev.withField (F.hrtEvtSrcCtlStat n) 0) → neverRaised n = false →
    s.dev.get (F.hrtEvtSrcCtlStat n) = 1 →
    ∃ t, exec (.eventStatClear n true) s = .next t ∧ t.outputs.head? = some (.writeDone (R.hrtEvtSrcCtl n) 0)
      ∧ t.dev.get (F.hrtEvtSrcCtlStat n) = 1 ∧ s.dev.Only [] [] t.dev)
  ∧ (∀ (g : Fin 16) (v : Nat) (m : MsixVec) (s : State),
    s.dev.Takes (R.hrtEvtGcfg g) (s.dev.withField (F.hrtEvtGcfgMsien g) 1) → s.dev.get (F.hrtEvtGcfgMsien g) = 0 →
    s.dev.groupPending g = true → v = s.dev.get (F.hrtEvtGcfgVec g) → s.dev.msixReady v = true → m = Tbl.get {} s.dev.msixTable v →
    ∃ t, exec (.eventMsienEnable g) s = .next t
      ∧ t.outputs = .writeDone (R.hrtEvtGcfg g) 0 :: .msix v m.addrHi m.addrLo m.data :: s.outputs
      ∧ t.dev.get (F.hrtEvtGcfgMsien g) = 1 ∧ s.dev.Only [R.hrtEvtGcfg g] [] t.dev)
  ∧ (∀ (mask : BitVec 4) (s : State), s.dev.Takes R.hrtGlbKrev (s.dev.withField F.hrtGlbKrevBlow mask.toNat) →
    ∃ t, exec (.keyRevoke mask) s = .next t ∧ t.outputs = .writeDone R.hrtGlbKrev 0 :: s.outputs
      ∧ (∀ k < 4, mask.getLsbD k = true → t.dev.revoked t.fuses k = true)
      ∧ (∀ k, s.dev.revoked s.fuses k = true → t.dev.revoked t.fuses k = true) ∧ s.dev.Only [R.hrtGlbKrev] [] t.dev)
  ∧ (∀ (s : State), ∃ t, exec .tapActive s = .next t ∧ s.dev.Raised 0xFF t.dev ∧ s.dev.Only [] [0xFF] t.dev)
  ∧ (∀ (i : TapInstr) (s : State), i = .bypass ∨ i = .idcode ∨ i = .samplePreload ∨ (i ≠ .other ∧ s.dev.inReset = true ∧ s.dev.powered = true) →
    ∃ t, exec (.tapInstruction i) s = .next t ∧ t.dev.tap = i ∧ t.outputs.head? = some (.tap i (tapCaptured i)) ∧ s.dev.Only [] [] t.dev)
  ∧ (∀ (s : State), ∃ t, exec (.tapInstruction .idcode) s = .next t ∧ t.outputs = .tap .idcode (some 0x196241AF#32) :: s.outputs)
  ∧ (∀ (i : TapInstr) (s : State), i ≠ .idcode → i ≠ .samplePreload → i = .other ∨ s.dev.inReset = false →
    ∃ t, exec (.tapInstruction i) s = .next t ∧ t.dev.tap = .bypass ∧ t.outputs = .tap .bypass (some 0) :: s.outputs)

/-! ### Fault injection (17_fault_injection) -/

/-- Injectors (R431 to R437, R440): arming starts numbering and generator anew, a selected unit is dropped, corrupted or
held, one in the other direction passes as it is, disarming and KILL release what is held, and 1 ms releases a held
unit. The clauses rest on the model's choices of log 66, 67, 84. -/
def Obligations.InjectorsArmActAndStop : Prop :=
  (∀ (i : Fin 164) (s : State), s.dev.Takes (fiBase i) (s.dev.withField (fiF i 0 0 1) 1) → s.dev.get (fiF i 0 0 1) = 0 →
    ∃ t, exec (.fiArm i) s = .next t ∧ t.outputs = .writeDone (fiBase i) 0 :: s.outputs ∧ t.dev.get (fiF i 0 0 1) = 1
      ∧ t.dev.get (fiF i 0x14 0 1) = 1 ∧ t.dev.get F.hrtFiGlobalArmcnt = (s.dev.get F.hrtFiGlobalArmcnt + 1) % 256
      ∧ (t.dev.inj i).u = 0 ∧ (t.dev.inj i).gen = s.dev.get (fiF i 0xC 0 32) ∧ (t.dev.inj i).sel = 0
      ∧ (t.dev.inj i).held = (s.dev.inj i).held ∧ s.dev.Only [fiBase i, fiBase i + 0x14, R.hrtFiGlobal] [] t.dev)
  ∧ (∀ (i : Fin 164) (s : State), s.dev.Takes (fiBase i) (s.dev.withField (fiF i 0 0 1) 0) → s.dev.get (fiF i 0 0 1) = 1 →
    s.dev.get (fiF i 0x14 0 1) = 1 → (s.dev.inj i).held = none →
    ∃ t, exec (.fiDisarm i) s = .next t ∧ t.outputs = .writeDone (fiBase i) 0 :: s.outputs ∧ t.dev.get (fiF i 0 0 1) = 0
      ∧ t.dev.get (fiF i 0x14 0 1) = 0 ∧ t.dev.get F.hrtFiGlobalArmcnt = s.dev.get F.hrtFiGlobalArmcnt - 1
      ∧ s.dev.Only [fiBase i, fiBase i + 0x14, R.hrtFiGlobal] [] t.dev)
  ∧ (∀ (i : Fin 164) (u : FiUnit) (s : State), s.dev.Takes (fiBase i) (s.dev.withField (fiF i 0 0 1) 0) → 160 ≤ i.val →
    s.dev.trafficOk 8 = true →
    (s.dev.inj i).dir = 0 → (s.dev.inj i).held = some u →
    ∃ t, exec (.fiDisarm i) s = .next t ∧ (t.dev.inj i).held = none ∧ t.dev.get (fiF i 0x14 1 1) = 0
      ∧ Tbl.get [] t.dev.pkt.links (i.val - 160) = Tbl.get [] s.dev.pkt.links (i.val - 160) ++ [u.pkt])
  ∧ (∀ (s : State), s.dev.Takes R.hrtFiGlobal (s.dev.withField F.hrtFiGlobalKill 1) → (∀ i < 164, (s.dev.inj i).held = none) →
    ∃ t, exec .fiKill s = .next t ∧ t.outputs = .writeDone R.hrtFiGlobal 0 :: s.outputs
      ∧ ∀ i < 164, t.dev.get (fiF i 0 0 1) = 0 ∧ t.dev.get (fiF i 0x14 0 1) = 0)
  ∧ (∀ (i : Fin 164) (u : FiUnit) (s : State), s.dev.Takes R.hrtFiGlobal (s.dev.withField F.hrtFiGlobalKill 1) → 160 ≤ i.val →
    s.dev.trafficOk 8 = true → (s.dev.inj i).held = some u → (s.dev.inj i).dir = 0 → (∀ j < 164, j ≠ i.val → (s.dev.inj j).held = none) →
    ∃ t, exec .fiKill s = .next t ∧ (t.dev.inj i).held = none ∧ t.dev.get (fiF i 0x14 1 1) = 0 ∧ t.dev.get (fiF i 0 0 1) = 0
      ∧ t.dev.get (fiF i 0x14 0 1) = 0
      ∧ Tbl.get [] t.dev.pkt.links (i.val - 160) = Tbl.get [] s.dev.pkt.links (i.val - 160) ++ [u.pkt])
  ∧ (∀ (i : Fin 164) (a b : Nat) (bytes : List Byte) (s : State), i.val < 96 → s.dev.released (hsCord i) = true →
    s.dev.get (F.hsLnLoopMode i) ≠ 1 → s.dev.get (F.hsLnLoopMode i) ≠ 2 → s.dev.get (fiF i 0x14 0 1) = 1 → s.dev.get (fiF i 0 1 1) = 0 →
    (s.dev.inj i).held = none ∨ (s.dev.inj i).dir = 0 →
    ∃ t, exec (.fiUnit i 1 a b bytes) s = .next t ∧ t.outputs = .portFrame i bytes :: s.outputs ∧ t.dev.inj i = s.dev.inj i
      ∧ s.dev.Only [] [] t.dev)
  ∧ (∀ (i : Fin 164) (a b act : Nat) (bytes : List Byte) (s : State), i.val < 96 →
    s.dev.released (hsCord i) = true → s.dev.get (F.hsLnLoopMode i) ≠ 1 → s.dev.get (F.hsLnLoopMode i) ≠ 2 → s.dev.get (fiF i 0x14 0 1) = 1 →
    s.dev.get (fiF i 0 1 1) = 1 → s.dev.get (fiF i 0 4 2) = 0 → s.dev.get (fiF i 4 0 16) = 1 → s.dev.get (fiF i 0x10 0 32) = 0 →
    (s.dev.inj i).sel ≠ 0 → (s.dev.inj i).held = none → act = s.dev.get (fiF i 0 2 2) → act ≤ 1 →
    ∃ t, exec (.fiUnit i 1 a b bytes) s = .next t ∧ (t.dev.inj i).u = (s.dev.inj i).u + 1 ∧ (t.dev.inj i).sel = (s.dev.inj i).sel + 1
      ∧ (act = 0 → t.outputs = s.outputs)
      ∧ (act = 1 → t.outputs = .portFrame i (bytes.modify (min (s.dev.get (fiF i 0 24 8)) (bytes.length - 1))
          (· ^^^ BitVec.ofNat 8 (s.dev.get (fiF i 0 16 8)))) :: s.outputs)
      ∧ t.dev.get (fiF i 0x18 0 32) = satAdd 32 (s.dev.get (fiF i 0x18 0 32)) 1 ∧ s.dev.Only [fiBase i + 0x18] [] t.dev)
  ∧ (∀ (i : Fin 164) (a b : Nat) (bytes : List Byte) (s : State), i.val < 96 → s.dev.get (fiF i 0x14 0 1) = 1 →
    s.dev.get (fiF i 0 1 1) = 0 → s.dev.get (fiF i 0 4 2) = 0 → s.dev.get (fiF i 4 0 16) = 1 → s.dev.get (fiF i 0x10 0 32) = 0 →
    (s.dev.inj i).sel = 0 → (s.dev.inj i).held = none → s.dev.get (fiF i 0 2 2) = 2 → s.dev.get (fiF i 0 6 1) = 0 →
    ∃ t, exec (.fiUnit i 0 a b bytes) s = .next t ∧ (t.dev.inj i).held.map (·.pkt.bytes) = some bytes
      ∧ (t.dev.inj i).dir = 0 ∧ t.dev.get (fiF i 0x14 1 1) = 1 ∧ s.dev.Raised 0xFC t.dev ∧ t.dev.get F.hrtFiGlobalLastinj = i
      ∧ t.dev.get (fiF i 0x18 0 32) = satAdd 32 (s.dev.get (fiF i 0x18 0 32)) 1
      ∧ s.dev.Only [fiBase i + 0x14, fiBase i + 0x18, R.hrtFiGlobal] [0xFC] t.dev)
  ∧ (∀ (i : Fin 164) (u : FiUnit) (s : State), 160 ≤ i.val → s.dev.trafficOk 8 = true →
    (s.dev.inj i).dir = 0 → (s.dev.inj i).held = some u →
    ∃ t, exec (.fiHoldTo i) s = .next t ∧ (t.dev.inj i).held = none ∧ t.dev.get (fiF i 0x14 1 1) = 0
      ∧ Tbl.get [] t.dev.pkt.links (i.val - 160) = Tbl.get [] s.dev.pkt.links (i.val - 160) ++ [u.pkt]
      ∧ s.dev.Raised 0xFE t.dev ∧ t.dev.get F.hrtFiGlobalLastinj = i
      ∧ s.dev.Only [fiBase i + 0x14, R.hrtFiGlobal] [0xFE] t.dev)

/-! ### The device as a whole (01_architecture, 20_pins_electrical) -/

/-- Reset, power and clocks (R21, R22, R34, R349, R409, R417, R423, R470 to R472): a reset zeroes what it says and leaves
the MRAM, a short pulse does nothing, the bring-up selects a firmware slot or stays in recovery, and the clock
monitors move Hearth's source. The clauses rest on the model's choices of log 3, 7, 64, 71. -/
def Obligations.DeviceStartsAndStops : Prop :=
  (∀ (ns : Nat) (s : State), 2500 ≤ ns → s.dev.powered = true →
    ∃ t, exec (.deviceReset ns) s = .next t ∧ t.dev.inReset = true ∧ t.dev.regs = [] ∧ t.dev.waiting = [] ∧ t.dev.time = {}
      ∧ t.dev.img.mram = s.dev.img.mram ∧ t.dev.blown = s.dev.blown ∧ (∀ c, 1 ≤ c → c ≤ 12 → t.dev.cordSt c = 0)
      ∧ (∀ b o, b ≤ 3 → o < 2 ^ 21 → t.dev.bankByte b o = 0)
      ∧ (∀ b o, 4 ≤ b → o < 2 ^ 21 → t.dev.bankByte b o = s.dev.bankByte b o))
  ∧ (∀ (ns : Nat) (s : State), ns ≤ 1500 →
    ∃ t, exec (.deviceReset ns) s = .next t ∧ t.dev = { s.dev with out := [] } ∧ t.outputs = s.outputs)
  ∧ (∀ (s : State), ∃ t, exec .powerLoss s = .next t ∧ t.dev.powered = false ∧ t.dev.inReset = true ∧ t.dev.regs = []
      ∧ t.dev.time = {} ∧ t.dev.ember.bytes = [] ∧ t.dev.img.mram = s.dev.img.mram ∧ t.dev.blown = s.dev.blown)
  ∧ (∀ (straps : Fin 4) (f : Nat × Nat × List Byte) (s : State), s.dev.inReset = true → s.dev.verifyFw s.fuses 0 = some f →
    s.dev.verifyFw s.fuses 1 = none →
    ∃ t, exec (.deviceBringup straps) s = .next t ∧ t.dev.inReset = false ∧ t.dev.powered = true
      ∧ t.dev.get F.hrtSmbStatAddr = 0x58 + straps ∧ t.dev.get F.hrtHstStatFwrun = 1 ∧ t.dev.get F.hrtHstStatRecovery = 0
      ∧ t.dev.get F.hrtHstStatFwslot = 0 ∧ t.dev.get F.hrtHstStatRstreason = 0 ∧ s.dev.Raised 0x00 t.dev
      ∧ (∀ i < 16, t.dev.get (F.hrtSnsRailNom i) = s.fuses.rails.getD i 0 % 2 ^ 16))
  ∧ (∀ (straps : Fin 4) (s : State), s.dev.inReset = true → s.dev.verifyFw s.fuses 0 = none → s.dev.verifyFw s.fuses 1 = none →
    ∃ t, exec (.deviceBringup straps) s = .next t ∧ t.dev.inReset = false ∧ t.dev.get F.hrtHstStatFwrun = 0
      ∧ t.dev.get F.hrtHstStatRecovery = 1 ∧ t.dev.get F.hrtSmbStatAddr = 0x58 + straps)
  ∧ (∀ (s : State), s.dev.inReset = false → s.dev.get F.hrtClkStatRefok = 0 →
    ∃ t, exec .refclkValid s = .next t ∧ t.dev.get F.hrtClkStatRefok = 1 ∧ t.dev.get (clkF F.hrtSnsStatClkok 0) = 1
      ∧ t.dev.get F.hrtClkStatHrtsrc = (if s.dev.get F.hrtClkStatRootlock = 1 then 2 else 1) ∧ t.dev.time.frozen = none
      ∧ t.dev.steering = (match s.dev.time.frozen with
          | some v => max (-800000) (min 800000 v)
          | none => s.dev.steering)
      ∧ s.dev.Only [R.hrtClkStat, R.hrtSnsStat, R.hrtClkSteer] [] t.dev)
  ∧ (∀ (s : State), s.dev.get F.hrtClkStatRefok = 1 → 0 ∉ s.dev.pwr.clkBad →
    ∃ t, exec .refclkLost s = .next t ∧ t.dev.get F.hrtClkStatRefok = 0 ∧ t.dev.get F.hrtClkStatReflost = 1
      ∧ t.dev.get (clkF F.hrtSnsStatClkok 0) = 0 ∧ t.dev.get (clkF F.hrtSnsStatClkstk 0) = 1 ∧ s.dev.Raised 0x06 t.dev
      ∧ t.dev.get F.hrtClkStatHrtsrc = (if s.dev.get F.hrtClkStatRootlock = 1 then 2 else 0)
      ∧ t.dev.get F.hrtPwrStateCur = s.dev.get F.hrtPwrStateCur ∧ t.dev.time.frozen = some s.dev.steering
      ∧ t.dev.steering = s.dev.steering ∧ s.dev.Only [R.hrtClkStat, R.hrtSnsStat] [0x06] t.dev)
  ∧ (∀ (s : State), s.dev.inReset = false → s.dev.get F.hrtClkStatRootlock = 0 → s.dev.get F.hrtClkStatRefok = 1 →
    ∃ t, exec .rootLock s = .next t ∧ t.dev.get F.hrtClkStatRootlock = 1 ∧ t.dev.get F.hrtClkStatHrtsrc = 2
      ∧ t.dev.get F.hrtTimStatRun = 1 ∧ t.dev.time = s.dev.time
      ∧ t.dev.cordSt 12 = (if s.dev.cordSt 12 = 0 then 2 else s.dev.cordSt 12)
      ∧ s.dev.Only [R.hrtClkStat, R.hrtSnsStat, R.hrtTimStat, R.hrtPwrCord 12] [] t.dev)
  ∧ (∀ (s : State), s.dev.get F.hrtClkStatRootlock = 1 → 1 ∉ s.dev.pwr.clkBad →
    ∃ t, exec .rootUnlock s = .next t ∧ t.dev.get F.hrtClkStatRootlock = 0 ∧ t.dev.get F.hrtClkStatRootunlock = 1
      ∧ t.dev.get F.hrtClkStatHrtsrc = (if s.dev.get F.hrtClkStatRefok = 1 then 1 else 0) ∧ s.dev.Raised 0x06 t.dev
      ∧ t.dev.get F.hrtTimStatRun = s.dev.get F.hrtTimStatRun ∧ s.dev.Only [R.hrtClkStat, R.hrtSnsStat] [0x06] t.dev)

/-- BAR0 accesses (R6 to R9, R29, R30, R34, R387, R397, R456, R457): a write of a plain register is stored, one that meets
a check is dropped whole with its code, an access that no register answers ends with its code, the record of an error
is latched by its reading, a read clears RC fields, and an access to a waking cord waits. The clauses rest on the
model's choices of log 13, 15, 16, 18. -/
def Obligations.HostAccessesComplete : Prop :=
  (∀ (a : BitVec 28) (v : Word) (r : RegAt) (s : State), s.dev.Takes a.toNat v → emberOfs a.toNat = none →
    decodeAddr a.toNat = some r →
    r.row.name ∈ [.hrtCfgDrain, .hrtPwrCfg, .hrtPwrRetain, .hrtPwrEmbwin, .hrtSnsTthr, .hrtSnsRlim, .hrtTimInc, .hrtTimStepns,
      .hrtTimPpsnext, .hrtTimPpsper, .hrtTimSecbasehi, .hrtTimSecbaselo, .pciEpCfg, .bufQPar, .bufQLim, .bufQShp, .bufPoolLow,
      .bufPclsMax, .pktClsMirror, .hsMacFc, .hsMacFcthr, .hsLnCfg, .cvTrdArg, .cvTrdCfg, .leRxcCdcfg, .leRxcCfg] →
    ∃ t, exec (.registerWrite a 4 v) s = .next t ∧ t.dev.reg a.toNat = r.row.merge (s.dev.reg a.toNat) v
      ∧ t.outputs = .writeDone a.toNat 0 :: s.outputs ∧ s.dev.Only [a.toNat] [] t.dev)
  ∧ (∀ (a : BitVec 28) (v : Word) (r : RegAt) (k : Nat) (s : State), s.dev.Answers a.toNat → emberOfs a.toNat = none →
    decodeAddr a.toNat = some r → s.dev.writeCode a.toNat r v true = k → k ∈ [6, 7, 8, 9, 10] →
    ∃ t, exec (.registerWrite a 4 v) s = .next t ∧ t.outputs.head? = some (.writeDone a.toNat k)
      ∧ t.dev.get F.hrtGlbAerrCode = k ∧ t.dev.get F.hrtGlbAerrCord = cordOf a.toNat % 16 ∧ t.dev.get F.hrtGlbAerrWr = 1
      ∧ t.dev.get F.hrtGlbAerrStk = 1 ∧ t.dev.get F.hrtGlbAerrCount = satAdd 16 (s.dev.get F.hrtGlbAerrCount) 1
      ∧ t.dev.aerrAdr = a.toNat ∧ s.dev.Raised 0x01 t.dev ∧ s.dev.Only [R.hrtGlbAerr] [0x01] t.dev)
  ∧ (∀ (a : BitVec 28) (size : Nat) (v : Word) (k : Nat) (s : State), s.dev.waiting = [] → s.dev.cordSt 12 ≠ 0 →
    s.dev.get F.pciEpStatDlup = 1 → s.dev.pathCode a.toNat size = k → k ≠ 0 →
    ∃ t, exec (.registerWrite a size v) s = .next t ∧ t.outputs.head? = some (.writeDone a.toNat k)
      ∧ t.dev.get F.hrtGlbAerrCode = k ∧ t.dev.get F.hrtGlbAerrCord = cordOf a.toNat % 16 ∧ t.dev.get F.hrtGlbAerrWr = 1
      ∧ t.dev.get F.hrtGlbAerrStk = 1 ∧ t.dev.aerrAdr = a.toNat ∧ s.dev.Raised 0x01 t.dev
      ∧ (k = 4 ∨ k = 5 → s.dev.Raised 0x17 t.dev)
      ∧ s.dev.Only [R.hrtGlbAerr] (if k = 4 ∨ k = 5 then [0x01, 0x17] else [0x01]) t.dev)
  ∧ (∀ (a : BitVec 28) (size k : Nat) (s : State), s.dev.waiting = [] → s.dev.cordSt 12 ≠ 0 → s.dev.get F.pciEpStatDlup = 1 →
    s.dev.pathCode a.toNat size = k → k ≠ 0 →
    ∃ t, exec (.rcFieldRead a size) s = .next t ∧ t.dev.get F.hrtGlbAerrCode = k ∧ t.dev.get F.hrtGlbAerrWr = 0
      ∧ t.dev.aerrAdr = a.toNat ∧ t.outputs.head? = some (if k = 4 then .readDone a.toNat (BitVec.ofNat 32 (0xFA110000 + cordOf a.toNat))
          else if k = 5 then .readDone a.toNat 0 else .readUnsupported a.toNat)
      ∧ s.dev.Only [R.hrtGlbAerr] (if k = 4 ∨ k = 5 then [0x01, 0x17] else [0x01]) t.dev)
  ∧ (∀ (s : State), s.dev.Answers R.hrtGlbAerr →
    ∃ t x, exec .aerrRead s = .next t ∧ t.outputs = .readDone R.hrtGlbAerr x :: s.outputs
      ∧ F.hrtGlbAerrCode.of x = s.dev.get F.hrtGlbAerrCode ∧ F.hrtGlbAerrCord.of x = s.dev.get F.hrtGlbAerrCord
      ∧ F.hrtGlbAerrWr.of x = s.dev.get F.hrtGlbAerrWr ∧ F.hrtGlbAerrStk.of x = s.dev.get F.hrtGlbAerrStk
      ∧ F.hrtGlbAerrCount.of x = s.dev.get F.hrtGlbAerrCount ∧ t.dev.get F.hrtGlbAerrCount = 0
      ∧ t.dev.get F.hrtGlbAerrCode = s.dev.get F.hrtGlbAerrCode ∧ t.dev.get F.hrtGlbAerradrAddr = s.dev.aerrAdr % 2 ^ 32
      ∧ s.dev.Only [R.hrtGlbAerr, R.hrtGlbAerradr] [] t.dev)
  ∧ (∀ (a : BitVec 28) (s : State), a.toNat = R.hrtCfgDrain → s.dev.Answers R.hrtCfgDrain →
    ∃ t x, exec (.rcFieldRead a 4) s = .next t ∧ t.outputs = .readDone R.hrtCfgDrain x :: s.outputs
      ∧ F.hrtCfgDrainDraindrop.of x = s.dev.get F.hrtCfgDrainDraindrop ∧ F.hrtCfgDrainDrainto.of x = s.dev.get F.hrtCfgDrainDrainto
      ∧ t.dev.get F.hrtCfgDrainDraindrop = 0 ∧ t.dev.get F.hrtCfgDrainDrainto = s.dev.get F.hrtCfgDrainDrainto
      ∧ s.dev.Only [R.hrtCfgDrain] [] t.dev)
  ∧ (∀ (a : BitVec 28) (size : Nat) (s : State), size ≠ 4 ∨ a.toNat % 4 ≠ 0 → s.dev.pathCode a.toNat size = 1)
  ∧ (∀ (a : BitVec 28) (o : Nat) (v : Word) (s : State), emberOfs a.toNat = some o → s.dev.Answers a.toNat →
    4 ≤ s.dev.get F.hrtPwrEmbwinBank → s.dev.ember.kept.testBit (s.dev.get F.hrtPwrEmbwinBank) = true →
    ∃ t, exec (.registerWrite a 4 v) s = .next t ∧ t.outputs = .writeDone a.toNat 0 :: s.outputs
      ∧ (∀ k < 4, t.dev.bankByte (s.dev.get F.hrtPwrEmbwinBank) (s.dev.bankOfs o + k) = BitVec.ofNat 8 (v.toNat / 2 ^ (8 * k)))
      ∧ s.dev.Only [] [] t.dev)
  ∧ (∀ (a : BitVec 28) (v : Word) (s : State), s.dev.waiting = [] → s.dev.cordSt 12 ≠ 0 → s.dev.get F.pciEpStatDlup = 1 →
    s.dev.pathCode a.toNat 4 = 0 → s.dev.cordSt (cordOf a.toNat) = 1 →
    ∃ t, exec (.registerWrite a 4 v) s = .next t
      ∧ t.dev.waiting = [{ addr := a.toNat, size := 4, write := some v, at_ := s.dev.time.ticks }] ∧ t.outputs = s.outputs
      ∧ s.dev.Only [] [] t.dev)

/-! ### Every command -/

/-- One step runs the command at the front of the queue on the state with the queue's rest. The clauses rest on the
model's choices of log 6. -/
def Obligations.TheFrontCommandRuns : Prop :=
  ∀ (c : Instr) (rest : List Instr) (s : State), s.pending = c :: rest → step s = exec c { s with pending := rest }

/-- The state after reset: no command waits, nothing has been sent, every register holds its reset value, some of them as
the register tables give them, and the invariants of this file hold. Where the spec gives a byte of the MRAM or of an
ember bank no reset value, its zero is the model's choice. The clauses rest on the model's choices of log 2, 3, 10. -/
def Obligations.ResetLeavesResetValues : Prop :=
  State.reset.pending = [] ∧ State.reset.outputs = [] ∧ State.reset.dev.inReset = true ∧ State.reset.dev.waiting = []
    ∧ (∀ a, State.reset.dev.reg a = regReset a)
    ∧ State.reset.dev.get F.pciEpCfgCtowarn = 9 ∧ State.reset.dev.get F.hrtTimIncInc = 0x0199999A
    ∧ State.reset.dev.get F.hrtCfgDrainDrainto = 10 ∧ State.reset.dev.get F.hrtSnsTthrWarn = 100
    ∧ State.reset.dev.get F.hrtSnsTthrTrip = 115 ∧ State.reset.dev.get F.hrtHstStatFwrun = 0
    ∧ (∀ c, 1 ≤ c → c ≤ 12 → State.reset.dev.cordSt c = 0)
    ∧ State.reset.dev.time.InRange ∧ State.reset.Settled State.reset.fuses
    ∧ Tbl.wf regReset State.reset.dev.regs = true ∧ Tbl.wf (fun _ => 0) State.reset.dev.img.mram = true
    ∧ Tbl.wf (fun _ => 0) State.reset.dev.ember.bytes = true

/-- Every command runs in every state, but for a reset pulse of the forbidden length (R471). The clauses rest on the
model's choices of log 4, 11. -/
def Obligations.OnlyTheForbiddenPulseStops : Prop :=
  ∀ (c : Instr) (s : State), (∃ t, exec c s = .next t ∧ t.pending = s.pending)
    ∨ ∃ ns, c = .deviceReset ns ∧ 1500 < ns ∧ ns < 2500 ∧ exec c s = .fault .resetPulseForbidden

/-- Every step takes the queue's head away, keeps the factory fuses (R454), leaves nothing unsent in the device, and takes
back nothing that was sent. The clauses rest on the model's choices of log 2, 12. -/
def Obligations.FusesQueueAndOutputsAreKept : Prop :=
  ∀ (f : Fuses) (s t : State), s.Settled f → step s = .next t →
    t.Settled f ∧ t.pending = s.pending.tail ∧ ∃ l, t.outputs = l ++ s.outputs

/-- Every step keeps NS, the fraction and WRAPS of the counter in their widths (R348) and the registers, the MRAM and the
ember banks in their canonical form. The clauses rest on the model's choices of log 3. -/
def Obligations.CounterAndMemoriesStayInForm : Prop :=
  ∀ (s t : State), s.dev.time.InRange → Tbl.wf regReset s.dev.regs = true → Tbl.wf (fun _ => 0) s.dev.img.mram = true →
    Tbl.wf (fun _ => 0) s.dev.ember.bytes = true → step s = .next t →
    t.dev.time.InRange ∧ Tbl.wf regReset t.dev.regs = true ∧ Tbl.wf (fun _ => 0) t.dev.img.mram = true
      ∧ Tbl.wf (fun _ => 0) t.dev.ember.bytes = true
end

