-- ==== Sys2Proof/Laws/Table.lean ====
section
/-!
SUPPORT. The laws of the sparse table: what is read after a write, and that every operation keeps the canonical form.
-/

namespace Sys2Proof

theorem Tbl.get_erase_self {α : Type} (d : α) (t : Tbl α) (k : Nat) : (t.erase k).get d k = d := by
  induction t with
  | nil => rfl
  | cons p t ih =>
    obtain ⟨j, v⟩ := p
    by_cases h : j = k
    · simpa [Tbl.erase, h] using ih
    · simpa [Tbl.erase, Tbl.get, h] using ih

theorem Tbl.get_erase_ne {α : Type} (d : α) (t : Tbl α) {j k : Nat} (h : j ≠ k) : (t.erase k).get d j = t.get d j := by
  induction t with
  | nil => rfl
  | cons p t ih =>
    obtain ⟨i, v⟩ := p
    by_cases hk : i = k
    · subst hk; simpa [Tbl.erase, Tbl.get, Ne.symm h] using ih
    · by_cases hj : i = j
      · subst hj; simp [Tbl.erase, Tbl.get, hk]
      · simpa [Tbl.erase, Tbl.get, hk, hj] using ih

theorem Tbl.get_insert_ne {α : Type} (d : α) (t : Tbl α) {j k : Nat} (v : α) (h : j ≠ k) :
    (t.insert k v).get d j = t.get d j := by
  induction t with
  | nil => simp [Tbl.insert, Tbl.get, Ne.symm h]
  | cons p t ih =>
    obtain ⟨i, w⟩ := p
    by_cases hi : k < i
    · simp [Tbl.insert, Tbl.get, hi, Ne.symm h]
    · by_cases hj : i = j
      · subst hj; simp [Tbl.insert, Tbl.get, hi]
      · simpa [Tbl.insert, Tbl.get, hi, hj] using ih

/-- Key `k` is listed nowhere. -/
def Tbl.without {α : Type} (t : Tbl α) (k : Nat) : Prop := ∀ p ∈ t, p.1 ≠ k

theorem Tbl.without_erase {α : Type} (t : Tbl α) (k : Nat) : (t.erase k).without k := by
  induction t with
  | nil => intro p hp; cases hp
  | cons p t ih =>
    obtain ⟨j, v⟩ := p
    by_cases h : j = k
    · simpa [Tbl.erase, h] using ih
    · intro q hq
      simp only [Tbl.erase, h, if_false, List.mem_cons] at hq
      rcases hq with rfl | hq
      · exact h
      · exact ih q hq

theorem Tbl.get_insert_self {α : Type} (d : α) (t : Tbl α) (k : Nat) (v : α) (h : t.without k) :
    (t.insert k v).get d k = v := by
  induction t with
  | nil => simp [Tbl.insert, Tbl.get]
  | cons p t ih =>
    obtain ⟨i, w⟩ := p
    have hi : i ≠ k := h (i, w) (by simp)
    have ht : Tbl.without t k := fun q hq => h q (by simp [hq])
    by_cases hk : k < i
    · simp [Tbl.insert, Tbl.get, hk]
    · simpa [Tbl.insert, Tbl.get, hk, hi] using ih ht

/-- A read after a write of the same key. -/
@[simp] theorem Tbl.get_set_self {α : Type} [DecidableEq α] (d : α) (t : Tbl α) (k : Nat) (v : α) :
    (t.set d k v).get d k = v := by
  by_cases h : v = d
  · subst h; simp [Tbl.set, Tbl.get_erase_self]
  · simp [Tbl.set, h, Tbl.get_insert_self _ _ _ _ (Tbl.without_erase t k)]

/-- A read after a write of another key. -/
theorem Tbl.get_set_ne {α : Type} [DecidableEq α] (d e : α) (t : Tbl α) {j k : Nat} (v : α) (h : j ≠ k) :
    (t.set d k v).get e j = t.get e j := by
  by_cases hv : v = d
  · simp [Tbl.set, hv, Tbl.get_erase_ne _ _ h]
  · simp [Tbl.set, hv, Tbl.get_insert_ne _ _ _ h, Tbl.get_erase_ne _ _ h]

@[simp] theorem Tbl.get_modify_self {α : Type} [DecidableEq α] (d : α) (t : Tbl α) (k : Nat) (f : α → α) :
    (t.modify d k f).get d k = f (t.get d k) := by simp [Tbl.modify]

theorem Tbl.get_modify_ne {α : Type} [DecidableEq α] (d e : α) (t : Tbl α) {j k : Nat} (f : α → α) (h : j ≠ k) :
    (t.modify d k f).get e j = t.get e j := by simp [Tbl.modify, Tbl.get_set_ne _ _ _ _ h]

/-! ### The canonical form -/

/-- Every key of the table is larger than `k`. -/
def Tbl.above {α : Type} (t : Tbl α) (k : Nat) : Prop := ∀ p ∈ t, k < p.1

theorem Tbl.rising_cons {α : Type} (j : Nat) (v : α) (t : Tbl α) :
    Tbl.rising ((j, v) :: t) = true ↔ t.above j ∧ Tbl.rising t = true := by
  induction t generalizing j v with
  | nil => simp [Tbl.rising, Tbl.above]
  | cons p t ih =>
    obtain ⟨k, w⟩ := p
    simp only [Tbl.rising, Bool.and_eq_true, decide_eq_true_eq]
    constructor
    · rintro ⟨h, hr⟩
      have := (ih k w).1 hr
      refine ⟨fun q hq => ?_, hr⟩
      rcases List.mem_cons.1 hq with rfl | hq
      · exact h
      · exact Nat.lt_trans h (this.1 q hq)
    · rintro ⟨h, hr⟩
      exact ⟨h (k, w) (by simp), hr⟩

theorem Tbl.mem_erase {α : Type} {t : Tbl α} {k : Nat} {p : Nat × α} (h : p ∈ t.erase k) : p ∈ t := by
  induction t with
  | nil => cases h
  | cons q t ih =>
    obtain ⟨j, v⟩ := q
    by_cases hj : j = k
    · exact List.mem_cons_of_mem _ (ih (by simpa [Tbl.erase, hj] using h))
    · simp only [Tbl.erase, hj, if_false, List.mem_cons] at h
      rcases h with rfl | h
      · simp
      · exact List.mem_cons_of_mem _ (ih h)

theorem Tbl.mem_insert {α : Type} {t : Tbl α} {k : Nat} {v : α} {p : Nat × α} (h : p ∈ t.insert k v) : p = (k, v) ∨ p ∈ t := by
  induction t with
  | nil => simpa [Tbl.insert] using h
  | cons q t ih =>
    obtain ⟨j, w⟩ := q
    by_cases hj : k < j
    · simpa [Tbl.insert, hj] using h
    · simp only [Tbl.insert, hj, if_false, List.mem_cons] at h
      rcases h with rfl | h
      · simp
      · rcases ih h with h | h
        · exact .inl h
        · exact .inr (List.mem_cons_of_mem _ h)

theorem Tbl.rising_erase {α : Type} {t : Tbl α} (k : Nat) (h : Tbl.rising t = true) : Tbl.rising (t.erase k) = true := by
  induction t with
  | nil => rfl
  | cons p t ih =>
    obtain ⟨j, v⟩ := p
    have h' := (Tbl.rising_cons j v t).1 h
    by_cases hj : j = k
    · simpa [Tbl.erase, hj] using ih h'.2
    · simp only [Tbl.erase, hj, if_false]
      exact (Tbl.rising_cons j v _).2 ⟨fun q hq => h'.1 q (Tbl.mem_erase hq), ih h'.2⟩

theorem Tbl.rising_insert {α : Type} {t : Tbl α} {k : Nat} (v : α) (hk : t.without k) (h : Tbl.rising t = true) :
    Tbl.rising (t.insert k v) = true := by
  induction t with
  | nil => rfl
  | cons p t ih =>
    obtain ⟨j, w⟩ := p
    have h' := (Tbl.rising_cons j w t).1 h
    have hj : j ≠ k := hk (j, w) (by simp)
    by_cases hl : k < j
    · simp only [Tbl.insert, hl, if_true]
      refine (Tbl.rising_cons k v _).2 ⟨fun q hq => ?_, h⟩
      rcases List.mem_cons.1 hq with rfl | hq
      · exact hl
      · exact Nat.lt_trans hl (h'.1 q hq)
    · simp only [Tbl.insert, hl, if_false]
      refine (Tbl.rising_cons j w _).2 ⟨fun q hq => ?_, ih (fun q hq => hk q (List.mem_cons_of_mem _ hq)) h'.2⟩
      rcases Tbl.mem_insert hq with rfl | hq
      · exact Nat.lt_of_le_of_ne (Nat.le_of_not_lt hl) hj
      · exact h'.1 q hq

/-- A write keeps the canonical form. -/
theorem Tbl.wf_set {α : Type} [DecidableEq α] (d : Nat → α) {t : Tbl α} (k : Nat) (v : α) (h : Tbl.wf d t = true) :
    Tbl.wf d (t.set (d k) k v) = true := by
  simp only [Tbl.wf, Bool.and_eq_true, List.all_eq_true, Bool.not_eq_true', beq_eq_false_iff_ne] at h ⊢
  by_cases hv : v = d k
  · simp only [Tbl.set, hv, if_true]
    exact ⟨Tbl.rising_erase k h.1, fun p hp => h.2 p (Tbl.mem_erase hp)⟩
  · simp only [Tbl.set, hv, if_false]
    refine ⟨Tbl.rising_insert v (Tbl.without_erase t k) (Tbl.rising_erase k h.1), fun p hp => ?_⟩
    rcases Tbl.mem_insert hp with rfl | hp
    · exact hv
    · exact h.2 p (Tbl.mem_erase hp)

theorem Tbl.wf_modify {α : Type} [DecidableEq α] (d : α) {t : Tbl α} (k : Nat) (f : α → α) (h : Tbl.wf (fun _ => d) t = true) :
    Tbl.wf (fun _ => d) (t.modify d k f) = true := Tbl.wf_set (fun _ => d) k _ h

theorem Tbl.above_filter {α : Type} {t : Tbl α} {k : Nat} (q : Nat × α → Bool) (h : t.above k) : Tbl.above (t.filter q) k :=
  fun p hp => h p ((List.mem_filter.1 hp).1)

theorem Tbl.rising_filter {α : Type} {t : Tbl α} (q : Nat × α → Bool) (h : Tbl.rising t = true) : Tbl.rising (t.filter q) = true := by
  induction t with
  | nil => rfl
  | cons p t ih =>
    obtain ⟨j, v⟩ := p
    have h' := (Tbl.rising_cons j v t).1 h
    by_cases hq : q (j, v) = true
    · rw [List.filter_cons_of_pos hq]
      exact (Tbl.rising_cons j v _).2 ⟨Tbl.above_filter q h'.1, ih h'.2⟩
    · rw [List.filter_cons_of_neg hq]
      exact ih h'.2

/-- Dropping a range of keys keeps the canonical form. -/
theorem Tbl.wf_dropRange {α : Type} [DecidableEq α] (d : Nat → α) {t : Tbl α} (lo hi : Nat) (h : Tbl.wf d t = true) :
    Tbl.wf d (t.dropRange lo hi) = true := by
  simp only [Tbl.wf, Bool.and_eq_true, List.all_eq_true] at h ⊢
  exact ⟨Tbl.rising_filter _ h.1, fun p hp => h.2 p ((List.mem_filter.1 hp).1)⟩

end Sys2Proof
end

