-- ==== Sys2Proof/Laws/State.lean ====
section
/-!
SUPPORT. What each update of the device leaves as it is, field by field, and what a register reads as after it.
-/

namespace Sys2Proof.Machine

/-! ### Field by field -/

@[simp] theorem Dev.setReg_keeps (d : Dev) (a : Nat) (v : Word) :
    (d.setReg a v).free = d.free ∧ (d.setReg a v).out = d.out ∧ (d.setReg a v).inReset = d.inReset ∧ (d.setReg a v).powered = d.powered ∧
    (d.setReg a v).blown = d.blown ∧ (d.setReg a v).aerrAdr = d.aerrAdr ∧ (d.setReg a v).straps = d.straps ∧ (d.setReg a v).time = d.time ∧
    (d.setReg a v).ash = d.ash ∧ (d.setReg a v).hearth = d.hearth ∧ (d.setReg a v).img = d.img ∧ (d.setReg a v).ember = d.ember ∧
    (d.setReg a v).spr = d.spr ∧ (d.setReg a v).pwr = d.pwr ∧ (d.setReg a v).waiting = d.waiting ∧ (d.setReg a v).pcie = d.pcie ∧
    (d.setReg a v).msixTable = d.msixTable ∧ (d.setReg a v).msixHeld = d.msixHeld ∧ (d.setReg a v).engines = d.engines ∧
    (d.setReg a v).convs = d.convs ∧ (d.setReg a v).waves = d.waves ∧ (d.setReg a v).scs = d.scs ∧ (d.setReg a v).grps = d.grps ∧
    (d.setReg a v).crys = d.crys ∧ (d.setReg a v).pkt = d.pkt ∧ (d.setReg a v).buf = d.buf ∧ (d.setReg a v).macs = d.macs ∧
    (d.setReg a v).lanes = d.lanes ∧ (d.setReg a v).inj_ = d.inj_ ∧ (d.setReg a v).reclaim = d.reclaim ∧ (d.setReg a v).tap = d.tap :=
  ⟨rfl, rfl, rfl, rfl, rfl, rfl, rfl, rfl, rfl, rfl, rfl, rfl, rfl, rfl, rfl, rfl, rfl, rfl, rfl, rfl, rfl, rfl, rfl, rfl, rfl, rfl, rfl, rfl, rfl, rfl, rfl⟩

@[simp] theorem Dev.set_keeps (d : Dev) (f : Fld) (x : Nat) :
    (d.set f x).free = d.free ∧ (d.set f x).out = d.out ∧ (d.set f x).inReset = d.inReset ∧ (d.set f x).powered = d.powered ∧
    (d.set f x).blown = d.blown ∧ (d.set f x).aerrAdr = d.aerrAdr ∧ (d.set f x).straps = d.straps ∧ (d.set f x).time = d.time ∧
    (d.set f x).ash = d.ash ∧ (d.set f x).hearth = d.hearth ∧ (d.set f x).img = d.img ∧ (d.set f x).ember = d.ember ∧ (d.set f x).spr = d.spr ∧
    (d.set f x).pwr = d.pwr ∧ (d.set f x).waiting = d.waiting ∧ (d.set f x).pcie = d.pcie ∧ (d.set f x).msixTable = d.msixTable ∧
    (d.set f x).msixHeld = d.msixHeld ∧ (d.set f x).engines = d.engines ∧ (d.set f x).convs = d.convs ∧ (d.set f x).waves = d.waves ∧
    (d.set f x).scs = d.scs ∧ (d.set f x).grps = d.grps ∧ (d.set f x).crys = d.crys ∧ (d.set f x).pkt = d.pkt ∧ (d.set f x).buf = d.buf ∧
    (d.set f x).macs = d.macs ∧ (d.set f x).lanes = d.lanes ∧ (d.set f x).inj_ = d.inj_ ∧ (d.set f x).reclaim = d.reclaim ∧ (d.set f x).tap = d.tap :=
  ⟨rfl, rfl, rfl, rfl, rfl, rfl, rfl, rfl, rfl, rfl, rfl, rfl, rfl, rfl, rfl, rfl, rfl, rfl, rfl, rfl, rfl, rfl, rfl, rfl, rfl, rfl, rfl, rfl, rfl, rfl, rfl⟩

@[simp] theorem Dev.setInt_keeps (d : Dev) (f : Fld) (i : Int) :
    (d.setInt f i).free = d.free ∧ (d.setInt f i).out = d.out ∧ (d.setInt f i).inReset = d.inReset ∧ (d.setInt f i).powered = d.powered ∧
    (d.setInt f i).blown = d.blown ∧ (d.setInt f i).aerrAdr = d.aerrAdr ∧ (d.setInt f i).straps = d.straps ∧ (d.setInt f i).time = d.time ∧
    (d.setInt f i).ash = d.ash ∧ (d.setInt f i).hearth = d.hearth ∧ (d.setInt f i).img = d.img ∧ (d.setInt f i).ember = d.ember ∧
    (d.setInt f i).spr = d.spr ∧ (d.setInt f i).pwr = d.pwr ∧ (d.setInt f i).waiting = d.waiting ∧ (d.setInt f i).pcie = d.pcie ∧
    (d.setInt f i).msixTable = d.msixTable ∧ (d.setInt f i).msixHeld = d.msixHeld ∧ (d.setInt f i).engines = d.engines ∧
    (d.setInt f i).convs = d.convs ∧ (d.setInt f i).waves = d.waves ∧ (d.setInt f i).scs = d.scs ∧ (d.setInt f i).grps = d.grps ∧
    (d.setInt f i).crys = d.crys ∧ (d.setInt f i).pkt = d.pkt ∧ (d.setInt f i).buf = d.buf ∧ (d.setInt f i).macs = d.macs ∧
    (d.setInt f i).lanes = d.lanes ∧ (d.setInt f i).inj_ = d.inj_ ∧ (d.setInt f i).reclaim = d.reclaim ∧ (d.setInt f i).tap = d.tap :=
  ⟨rfl, rfl, rfl, rfl, rfl, rfl, rfl, rfl, rfl, rfl, rfl, rfl, rfl, rfl, rfl, rfl, rfl, rfl, rfl, rfl, rfl, rfl, rfl, rfl, rfl, rfl, rfl, rfl, rfl, rfl, rfl⟩

@[simp] theorem Dev.setFlag_keeps (d : Dev) (f : Fld) (b : Bool) :
    (d.setFlag f b).free = d.free ∧ (d.setFlag f b).out = d.out ∧ (d.setFlag f b).inReset = d.inReset ∧ (d.setFlag f b).powered = d.powered ∧
    (d.setFlag f b).blown = d.blown ∧ (d.setFlag f b).aerrAdr = d.aerrAdr ∧ (d.setFlag f b).straps = d.straps ∧ (d.setFlag f b).time = d.time ∧
    (d.setFlag f b).ash = d.ash ∧ (d.setFlag f b).hearth = d.hearth ∧ (d.setFlag f b).img = d.img ∧ (d.setFlag f b).ember = d.ember ∧
    (d.setFlag f b).spr = d.spr ∧ (d.setFlag f b).pwr = d.pwr ∧ (d.setFlag f b).waiting = d.waiting ∧ (d.setFlag f b).pcie = d.pcie ∧
    (d.setFlag f b).msixTable = d.msixTable ∧ (d.setFlag f b).msixHeld = d.msixHeld ∧ (d.setFlag f b).engines = d.engines ∧
    (d.setFlag f b).convs = d.convs ∧ (d.setFlag f b).waves = d.waves ∧ (d.setFlag f b).scs = d.scs ∧ (d.setFlag f b).grps = d.grps ∧
    (d.setFlag f b).crys = d.crys ∧ (d.setFlag f b).pkt = d.pkt ∧ (d.setFlag f b).buf = d.buf ∧ (d.setFlag f b).macs = d.macs ∧
    (d.setFlag f b).lanes = d.lanes ∧ (d.setFlag f b).inj_ = d.inj_ ∧ (d.setFlag f b).reclaim = d.reclaim ∧ (d.setFlag f b).tap = d.tap :=
  ⟨rfl, rfl, rfl, rfl, rfl, rfl, rfl, rfl, rfl, rfl, rfl, rfl, rfl, rfl, rfl, rfl, rfl, rfl, rfl, rfl, rfl, rfl, rfl, rfl, rfl, rfl, rfl, rfl, rfl, rfl, rfl⟩

@[simp] theorem Dev.count_keeps (d : Dev) (f : Fld) (n : Nat) :
    (d.count f n).free = d.free ∧ (d.count f n).out = d.out ∧ (d.count f n).inReset = d.inReset ∧ (d.count f n).powered = d.powered ∧
    (d.count f n).blown = d.blown ∧ (d.count f n).aerrAdr = d.aerrAdr ∧ (d.count f n).straps = d.straps ∧ (d.count f n).time = d.time ∧
    (d.count f n).ash = d.ash ∧ (d.count f n).hearth = d.hearth ∧ (d.count f n).img = d.img ∧ (d.count f n).ember = d.ember ∧
    (d.count f n).spr = d.spr ∧ (d.count f n).pwr = d.pwr ∧ (d.count f n).waiting = d.waiting ∧ (d.count f n).pcie = d.pcie ∧
    (d.count f n).msixTable = d.msixTable ∧ (d.count f n).msixHeld = d.msixHeld ∧ (d.count f n).engines = d.engines ∧ (d.count f n).convs = d.convs ∧
    (d.count f n).waves = d.waves ∧ (d.count f n).scs = d.scs ∧ (d.count f n).grps = d.grps ∧ (d.count f n).crys = d.crys ∧
    (d.count f n).pkt = d.pkt ∧ (d.count f n).buf = d.buf ∧ (d.count f n).macs = d.macs ∧ (d.count f n).lanes = d.lanes ∧
    (d.count f n).inj_ = d.inj_ ∧ (d.count f n).reclaim = d.reclaim ∧ (d.count f n).tap = d.tap :=
  ⟨rfl, rfl, rfl, rfl, rfl, rfl, rfl, rfl, rfl, rfl, rfl, rfl, rfl, rfl, rfl, rfl, rfl, rfl, rfl, rfl, rfl, rfl, rfl, rfl, rfl, rfl, rfl, rfl, rfl, rfl, rfl⟩

@[simp] theorem Dev.dropRegs_keeps (d : Dev) (lo hi : Nat) :
    (d.dropRegs lo hi).free = d.free ∧ (d.dropRegs lo hi).out = d.out ∧ (d.dropRegs lo hi).inReset = d.inReset ∧
    (d.dropRegs lo hi).powered = d.powered ∧ (d.dropRegs lo hi).blown = d.blown ∧ (d.dropRegs lo hi).aerrAdr = d.aerrAdr ∧
    (d.dropRegs lo hi).straps = d.straps ∧ (d.dropRegs lo hi).time = d.time ∧ (d.dropRegs lo hi).ash = d.ash ∧ (d.dropRegs lo hi).hearth = d.hearth ∧
    (d.dropRegs lo hi).img = d.img ∧ (d.dropRegs lo hi).ember = d.ember ∧ (d.dropRegs lo hi).spr = d.spr ∧ (d.dropRegs lo hi).pwr = d.pwr ∧
    (d.dropRegs lo hi).waiting = d.waiting ∧ (d.dropRegs lo hi).pcie = d.pcie ∧ (d.dropRegs lo hi).msixTable = d.msixTable ∧
    (d.dropRegs lo hi).msixHeld = d.msixHeld ∧ (d.dropRegs lo hi).engines = d.engines ∧ (d.dropRegs lo hi).convs = d.convs ∧
    (d.dropRegs lo hi).waves = d.waves ∧ (d.dropRegs lo hi).scs = d.scs ∧ (d.dropRegs lo hi).grps = d.grps ∧ (d.dropRegs lo hi).crys = d.crys ∧
    (d.dropRegs lo hi).pkt = d.pkt ∧ (d.dropRegs lo hi).buf = d.buf ∧ (d.dropRegs lo hi).macs = d.macs ∧ (d.dropRegs lo hi).lanes = d.lanes ∧
    (d.dropRegs lo hi).inj_ = d.inj_ ∧ (d.dropRegs lo hi).reclaim = d.reclaim ∧ (d.dropRegs lo hi).tap = d.tap :=
  ⟨rfl, rfl, rfl, rfl, rfl, rfl, rfl, rfl, rfl, rfl, rfl, rfl, rfl, rfl, rfl, rfl, rfl, rfl, rfl, rfl, rfl, rfl, rfl, rfl, rfl, rfl, rfl, rfl, rfl, rfl, rfl⟩

@[simp] theorem Dev.emit_keeps (d : Dev) (o : Output) :
    (d.emit o).regs = d.regs ∧ (d.emit o).free = d.free ∧ (d.emit o).inReset = d.inReset ∧ (d.emit o).powered = d.powered ∧
    (d.emit o).blown = d.blown ∧ (d.emit o).aerrAdr = d.aerrAdr ∧ (d.emit o).straps = d.straps ∧ (d.emit o).time = d.time ∧ (d.emit o).ash = d.ash ∧
    (d.emit o).hearth = d.hearth ∧ (d.emit o).img = d.img ∧ (d.emit o).ember = d.ember ∧ (d.emit o).spr = d.spr ∧ (d.emit o).pwr = d.pwr ∧
    (d.emit o).waiting = d.waiting ∧ (d.emit o).pcie = d.pcie ∧ (d.emit o).msixTable = d.msixTable ∧ (d.emit o).msixHeld = d.msixHeld ∧
    (d.emit o).engines = d.engines ∧ (d.emit o).convs = d.convs ∧ (d.emit o).waves = d.waves ∧ (d.emit o).scs = d.scs ∧ (d.emit o).grps = d.grps ∧
    (d.emit o).crys = d.crys ∧ (d.emit o).pkt = d.pkt ∧ (d.emit o).buf = d.buf ∧ (d.emit o).macs = d.macs ∧ (d.emit o).lanes = d.lanes ∧
    (d.emit o).inj_ = d.inj_ ∧ (d.emit o).reclaim = d.reclaim ∧ (d.emit o).tap = d.tap :=
  ⟨rfl, rfl, rfl, rfl, rfl, rfl, rfl, rfl, rfl, rfl, rfl, rfl, rfl, rfl, rfl, rfl, rfl, rfl, rfl, rfl, rfl, rfl, rfl, rfl, rfl, rfl, rfl, rfl, rfl, rfl, rfl⟩

@[simp] theorem Dev.setOut_keeps (d : Dev) (l : List Output) :
    (d.setOut l).regs = d.regs ∧ (d.setOut l).free = d.free ∧ (d.setOut l).inReset = d.inReset ∧ (d.setOut l).powered = d.powered ∧
    (d.setOut l).blown = d.blown ∧ (d.setOut l).aerrAdr = d.aerrAdr ∧ (d.setOut l).straps = d.straps ∧ (d.setOut l).time = d.time ∧
    (d.setOut l).ash = d.ash ∧ (d.setOut l).hearth = d.hearth ∧ (d.setOut l).img = d.img ∧ (d.setOut l).ember = d.ember ∧ (d.setOut l).spr = d.spr ∧
    (d.setOut l).pwr = d.pwr ∧ (d.setOut l).waiting = d.waiting ∧ (d.setOut l).pcie = d.pcie ∧ (d.setOut l).msixTable = d.msixTable ∧
    (d.setOut l).msixHeld = d.msixHeld ∧ (d.setOut l).engines = d.engines ∧ (d.setOut l).convs = d.convs ∧ (d.setOut l).waves = d.waves ∧
    (d.setOut l).scs = d.scs ∧ (d.setOut l).grps = d.grps ∧ (d.setOut l).crys = d.crys ∧ (d.setOut l).pkt = d.pkt ∧ (d.setOut l).buf = d.buf ∧
    (d.setOut l).macs = d.macs ∧ (d.setOut l).lanes = d.lanes ∧ (d.setOut l).inj_ = d.inj_ ∧ (d.setOut l).reclaim = d.reclaim ∧
    (d.setOut l).tap = d.tap :=
  ⟨rfl, rfl, rfl, rfl, rfl, rfl, rfl, rfl, rfl, rfl, rfl, rfl, rfl, rfl, rfl, rfl, rfl, rfl, rfl, rfl, rfl, rfl, rfl, rfl, rfl, rfl, rfl, rfl, rfl, rfl, rfl⟩

@[simp] theorem Dev.setEng_keeps (d : Dev) (e : Nat) (f : Engine → Engine) :
    (d.setEng e f).regs = d.regs ∧ (d.setEng e f).free = d.free ∧ (d.setEng e f).out = d.out ∧ (d.setEng e f).inReset = d.inReset ∧
    (d.setEng e f).powered = d.powered ∧ (d.setEng e f).blown = d.blown ∧ (d.setEng e f).aerrAdr = d.aerrAdr ∧ (d.setEng e f).straps = d.straps ∧
    (d.setEng e f).time = d.time ∧ (d.setEng e f).ash = d.ash ∧ (d.setEng e f).hearth = d.hearth ∧ (d.setEng e f).img = d.img ∧
    (d.setEng e f).ember = d.ember ∧ (d.setEng e f).spr = d.spr ∧ (d.setEng e f).pwr = d.pwr ∧ (d.setEng e f).waiting = d.waiting ∧
    (d.setEng e f).pcie = d.pcie ∧ (d.setEng e f).msixTable = d.msixTable ∧ (d.setEng e f).msixHeld = d.msixHeld ∧ (d.setEng e f).convs = d.convs ∧
    (d.setEng e f).waves = d.waves ∧ (d.setEng e f).scs = d.scs ∧ (d.setEng e f).grps = d.grps ∧ (d.setEng e f).crys = d.crys ∧
    (d.setEng e f).pkt = d.pkt ∧ (d.setEng e f).buf = d.buf ∧ (d.setEng e f).macs = d.macs ∧ (d.setEng e f).lanes = d.lanes ∧
    (d.setEng e f).inj_ = d.inj_ ∧ (d.setEng e f).reclaim = d.reclaim ∧ (d.setEng e f).tap = d.tap :=
  ⟨rfl, rfl, rfl, rfl, rfl, rfl, rfl, rfl, rfl, rfl, rfl, rfl, rfl, rfl, rfl, rfl, rfl, rfl, rfl, rfl, rfl, rfl, rfl, rfl, rfl, rfl, rfl, rfl, rfl, rfl, rfl⟩

@[simp] theorem Dev.setConv_keeps (d : Dev) (w : Nat) (f : Conv → Conv) :
    (d.setConv w f).regs = d.regs ∧ (d.setConv w f).free = d.free ∧ (d.setConv w f).out = d.out ∧ (d.setConv w f).inReset = d.inReset ∧
    (d.setConv w f).powered = d.powered ∧ (d.setConv w f).blown = d.blown ∧ (d.setConv w f).aerrAdr = d.aerrAdr ∧ (d.setConv w f).straps = d.straps ∧
    (d.setConv w f).time = d.time ∧ (d.setConv w f).ash = d.ash ∧ (d.setConv w f).hearth = d.hearth ∧ (d.setConv w f).img = d.img ∧
    (d.setConv w f).ember = d.ember ∧ (d.setConv w f).spr = d.spr ∧ (d.setConv w f).pwr = d.pwr ∧ (d.setConv w f).waiting = d.waiting ∧
    (d.setConv w f).pcie = d.pcie ∧ (d.setConv w f).msixTable = d.msixTable ∧ (d.setConv w f).msixHeld = d.msixHeld ∧
    (d.setConv w f).engines = d.engines ∧ (d.setConv w f).waves = d.waves ∧ (d.setConv w f).scs = d.scs ∧ (d.setConv w f).grps = d.grps ∧
    (d.setConv w f).crys = d.crys ∧ (d.setConv w f).pkt = d.pkt ∧ (d.setConv w f).buf = d.buf ∧ (d.setConv w f).macs = d.macs ∧
    (d.setConv w f).lanes = d.lanes ∧ (d.setConv w f).inj_ = d.inj_ ∧ (d.setConv w f).reclaim = d.reclaim ∧ (d.setConv w f).tap = d.tap :=
  ⟨rfl, rfl, rfl, rfl, rfl, rfl, rfl, rfl, rfl, rfl, rfl, rfl, rfl, rfl, rfl, rfl, rfl, rfl, rfl, rfl, rfl, rfl, rfl, rfl, rfl, rfl, rfl, rfl, rfl, rfl, rfl⟩

@[simp] theorem Dev.setWave_keeps (d : Dev) (w : Nat) (f : Wave → Wave) :
    (d.setWave w f).regs = d.regs ∧ (d.setWave w f).free = d.free ∧ (d.setWave w f).out = d.out ∧ (d.setWave w f).inReset = d.inReset ∧
    (d.setWave w f).powered = d.powered ∧ (d.setWave w f).blown = d.blown ∧ (d.setWave w f).aerrAdr = d.aerrAdr ∧ (d.setWave w f).straps = d.straps ∧
    (d.setWave w f).time = d.time ∧ (d.setWave w f).ash = d.ash ∧ (d.setWave w f).hearth = d.hearth ∧ (d.setWave w f).img = d.img ∧
    (d.setWave w f).ember = d.ember ∧ (d.setWave w f).spr = d.spr ∧ (d.setWave w f).pwr = d.pwr ∧ (d.setWave w f).waiting = d.waiting ∧
    (d.setWave w f).pcie = d.pcie ∧ (d.setWave w f).msixTable = d.msixTable ∧ (d.setWave w f).msixHeld = d.msixHeld ∧
    (d.setWave w f).engines = d.engines ∧ (d.setWave w f).convs = d.convs ∧ (d.setWave w f).scs = d.scs ∧ (d.setWave w f).grps = d.grps ∧
    (d.setWave w f).crys = d.crys ∧ (d.setWave w f).pkt = d.pkt ∧ (d.setWave w f).buf = d.buf ∧ (d.setWave w f).macs = d.macs ∧
    (d.setWave w f).lanes = d.lanes ∧ (d.setWave w f).inj_ = d.inj_ ∧ (d.setWave w f).reclaim = d.reclaim ∧ (d.setWave w f).tap = d.tap :=
  ⟨rfl, rfl, rfl, rfl, rfl, rfl, rfl, rfl, rfl, rfl, rfl, rfl, rfl, rfl, rfl, rfl, rfl, rfl, rfl, rfl, rfl, rfl, rfl, rfl, rfl, rfl, rfl, rfl, rfl, rfl, rfl⟩

@[simp] theorem Dev.setSc_keeps (d : Dev) (w k : Nat) (f : Subc → Subc) :
    (d.setSc w k f).regs = d.regs ∧ (d.setSc w k f).free = d.free ∧ (d.setSc w k f).out = d.out ∧ (d.setSc w k f).inReset = d.inReset ∧
    (d.setSc w k f).powered = d.powered ∧ (d.setSc w k f).blown = d.blown ∧ (d.setSc w k f).aerrAdr = d.aerrAdr ∧ (d.setSc w k f).straps = d.straps ∧
    (d.setSc w k f).time = d.time ∧ (d.setSc w k f).ash = d.ash ∧ (d.setSc w k f).hearth = d.hearth ∧ (d.setSc w k f).img = d.img ∧
    (d.setSc w k f).ember = d.ember ∧ (d.setSc w k f).spr = d.spr ∧ (d.setSc w k f).pwr = d.pwr ∧ (d.setSc w k f).waiting = d.waiting ∧
    (d.setSc w k f).pcie = d.pcie ∧ (d.setSc w k f).msixTable = d.msixTable ∧ (d.setSc w k f).msixHeld = d.msixHeld ∧
    (d.setSc w k f).engines = d.engines ∧ (d.setSc w k f).convs = d.convs ∧ (d.setSc w k f).waves = d.waves ∧ (d.setSc w k f).grps = d.grps ∧
    (d.setSc w k f).crys = d.crys ∧ (d.setSc w k f).pkt = d.pkt ∧ (d.setSc w k f).buf = d.buf ∧ (d.setSc w k f).macs = d.macs ∧
    (d.setSc w k f).lanes = d.lanes ∧ (d.setSc w k f).inj_ = d.inj_ ∧ (d.setSc w k f).reclaim = d.reclaim ∧ (d.setSc w k f).tap = d.tap :=
  ⟨rfl, rfl, rfl, rfl, rfl, rfl, rfl, rfl, rfl, rfl, rfl, rfl, rfl, rfl, rfl, rfl, rfl, rfl, rfl, rfl, rfl, rfl, rfl, rfl, rfl, rfl, rfl, rfl, rfl, rfl, rfl⟩

@[simp] theorem Dev.setGrp_keeps (d : Dev) (w g : Nat) (f : Grp → Grp) :
    (d.setGrp w g f).regs = d.regs ∧ (d.setGrp w g f).free = d.free ∧ (d.setGrp w g f).out = d.out ∧ (d.setGrp w g f).inReset = d.inReset ∧
    (d.setGrp w g f).powered = d.powered ∧ (d.setGrp w g f).blown = d.blown ∧ (d.setGrp w g f).aerrAdr = d.aerrAdr ∧
    (d.setGrp w g f).straps = d.straps ∧ (d.setGrp w g f).time = d.time ∧ (d.setGrp w g f).ash = d.ash ∧ (d.setGrp w g f).hearth = d.hearth ∧
    (d.setGrp w g f).img = d.img ∧ (d.setGrp w g f).ember = d.ember ∧ (d.setGrp w g f).spr = d.spr ∧ (d.setGrp w g f).pwr = d.pwr ∧
    (d.setGrp w g f).waiting = d.waiting ∧ (d.setGrp w g f).pcie = d.pcie ∧ (d.setGrp w g f).msixTable = d.msixTable ∧
    (d.setGrp w g f).msixHeld = d.msixHeld ∧ (d.setGrp w g f).engines = d.engines ∧ (d.setGrp w g f).convs = d.convs ∧
    (d.setGrp w g f).waves = d.waves ∧ (d.setGrp w g f).scs = d.scs ∧ (d.setGrp w g f).crys = d.crys ∧ (d.setGrp w g f).pkt = d.pkt ∧
    (d.setGrp w g f).buf = d.buf ∧ (d.setGrp w g f).macs = d.macs ∧ (d.setGrp w g f).lanes = d.lanes ∧ (d.setGrp w g f).inj_ = d.inj_ ∧
    (d.setGrp w g f).reclaim = d.reclaim ∧ (d.setGrp w g f).tap = d.tap :=
  ⟨rfl, rfl, rfl, rfl, rfl, rfl, rfl, rfl, rfl, rfl, rfl, rfl, rfl, rfl, rfl, rfl, rfl, rfl, rfl, rfl, rfl, rfl, rfl, rfl, rfl, rfl, rfl, rfl, rfl, rfl, rfl⟩

@[simp] theorem Dev.setCry_keeps (d : Dev) (w g : Nat) (f : Crypto → Crypto) :
    (d.setCry w g f).regs = d.regs ∧ (d.setCry w g f).free = d.free ∧ (d.setCry w g f).out = d.out ∧ (d.setCry w g f).inReset = d.inReset ∧
    (d.setCry w g f).powered = d.powered ∧ (d.setCry w g f).blown = d.blown ∧ (d.setCry w g f).aerrAdr = d.aerrAdr ∧
    (d.setCry w g f).straps = d.straps ∧ (d.setCry w g f).time = d.time ∧ (d.setCry w g f).ash = d.ash ∧ (d.setCry w g f).hearth = d.hearth ∧
    (d.setCry w g f).img = d.img ∧ (d.setCry w g f).ember = d.ember ∧ (d.setCry w g f).spr = d.spr ∧ (d.setCry w g f).pwr = d.pwr ∧
    (d.setCry w g f).waiting = d.waiting ∧ (d.setCry w g f).pcie = d.pcie ∧ (d.setCry w g f).msixTable = d.msixTable ∧
    (d.setCry w g f).msixHeld = d.msixHeld ∧ (d.setCry w g f).engines = d.engines ∧ (d.setCry w g f).convs = d.convs ∧
    (d.setCry w g f).waves = d.waves ∧ (d.setCry w g f).scs = d.scs ∧ (d.setCry w g f).grps = d.grps ∧ (d.setCry w g f).pkt = d.pkt ∧
    (d.setCry w g f).buf = d.buf ∧ (d.setCry w g f).macs = d.macs ∧ (d.setCry w g f).lanes = d.lanes ∧ (d.setCry w g f).inj_ = d.inj_ ∧
    (d.setCry w g f).reclaim = d.reclaim ∧ (d.setCry w g f).tap = d.tap :=
  ⟨rfl, rfl, rfl, rfl, rfl, rfl, rfl, rfl, rfl, rfl, rfl, rfl, rfl, rfl, rfl, rfl, rfl, rfl, rfl, rfl, rfl, rfl, rfl, rfl, rfl, rfl, rfl, rfl, rfl, rfl, rfl⟩

@[simp] theorem Dev.setSpr1_keeps (d : Dev) (e : Nat) (f : SprEng → SprEng) :
    (d.setSpr1 e f).regs = d.regs ∧ (d.setSpr1 e f).free = d.free ∧ (d.setSpr1 e f).out = d.out ∧ (d.setSpr1 e f).inReset = d.inReset ∧
    (d.setSpr1 e f).powered = d.powered ∧ (d.setSpr1 e f).blown = d.blown ∧ (d.setSpr1 e f).aerrAdr = d.aerrAdr ∧ (d.setSpr1 e f).straps = d.straps ∧
    (d.setSpr1 e f).time = d.time ∧ (d.setSpr1 e f).ash = d.ash ∧ (d.setSpr1 e f).hearth = d.hearth ∧ (d.setSpr1 e f).img = d.img ∧
    (d.setSpr1 e f).ember = d.ember ∧ (d.setSpr1 e f).pwr = d.pwr ∧ (d.setSpr1 e f).waiting = d.waiting ∧ (d.setSpr1 e f).pcie = d.pcie ∧
    (d.setSpr1 e f).msixTable = d.msixTable ∧ (d.setSpr1 e f).msixHeld = d.msixHeld ∧ (d.setSpr1 e f).engines = d.engines ∧
    (d.setSpr1 e f).convs = d.convs ∧ (d.setSpr1 e f).waves = d.waves ∧ (d.setSpr1 e f).scs = d.scs ∧ (d.setSpr1 e f).grps = d.grps ∧
    (d.setSpr1 e f).crys = d.crys ∧ (d.setSpr1 e f).pkt = d.pkt ∧ (d.setSpr1 e f).buf = d.buf ∧ (d.setSpr1 e f).macs = d.macs ∧
    (d.setSpr1 e f).lanes = d.lanes ∧ (d.setSpr1 e f).inj_ = d.inj_ ∧ (d.setSpr1 e f).reclaim = d.reclaim ∧ (d.setSpr1 e f).tap = d.tap :=
  ⟨rfl, rfl, rfl, rfl, rfl, rfl, rfl, rfl, rfl, rfl, rfl, rfl, rfl, rfl, rfl, rfl, rfl, rfl, rfl, rfl, rfl, rfl, rfl, rfl, rfl, rfl, rfl, rfl, rfl, rfl, rfl⟩

@[simp] theorem Dev.setSpr_keeps (d : Dev) (f : SprSt → SprSt) :
    (d.setSpr f).regs = d.regs ∧ (d.setSpr f).free = d.free ∧ (d.setSpr f).out = d.out ∧ (d.setSpr f).inReset = d.inReset ∧
    (d.setSpr f).powered = d.powered ∧ (d.setSpr f).blown = d.blown ∧ (d.setSpr f).aerrAdr = d.aerrAdr ∧ (d.setSpr f).straps = d.straps ∧
    (d.setSpr f).time = d.time ∧ (d.setSpr f).ash = d.ash ∧ (d.setSpr f).hearth = d.hearth ∧ (d.setSpr f).img = d.img ∧
    (d.setSpr f).ember = d.ember ∧ (d.setSpr f).pwr = d.pwr ∧ (d.setSpr f).waiting = d.waiting ∧ (d.setSpr f).pcie = d.pcie ∧
    (d.setSpr f).msixTable = d.msixTable ∧ (d.setSpr f).msixHeld = d.msixHeld ∧ (d.setSpr f).engines = d.engines ∧ (d.setSpr f).convs = d.convs ∧
    (d.setSpr f).waves = d.waves ∧ (d.setSpr f).scs = d.scs ∧ (d.setSpr f).grps = d.grps ∧ (d.setSpr f).crys = d.crys ∧ (d.setSpr f).pkt = d.pkt ∧
    (d.setSpr f).buf = d.buf ∧ (d.setSpr f).macs = d.macs ∧ (d.setSpr f).lanes = d.lanes ∧ (d.setSpr f).inj_ = d.inj_ ∧
    (d.setSpr f).reclaim = d.reclaim ∧ (d.setSpr f).tap = d.tap :=
  ⟨rfl, rfl, rfl, rfl, rfl, rfl, rfl, rfl, rfl, rfl, rfl, rfl, rfl, rfl, rfl, rfl, rfl, rfl, rfl, rfl, rfl, rfl, rfl, rfl, rfl, rfl, rfl, rfl, rfl, rfl, rfl⟩

@[simp] theorem Dev.setPcie_keeps (d : Dev) (f : Pcie → Pcie) :
    (d.setPcie f).regs = d.regs ∧ (d.setPcie f).free = d.free ∧ (d.setPcie f).out = d.out ∧ (d.setPcie f).inReset = d.inReset ∧
    (d.setPcie f).powered = d.powered ∧ (d.setPcie f).blown = d.blown ∧ (d.setPcie f).aerrAdr = d.aerrAdr ∧ (d.setPcie f).straps = d.straps ∧
    (d.setPcie f).time = d.time ∧ (d.setPcie f).ash = d.ash ∧ (d.setPcie f).hearth = d.hearth ∧ (d.setPcie f).img = d.img ∧
    (d.setPcie f).ember = d.ember ∧ (d.setPcie f).spr = d.spr ∧ (d.setPcie f).pwr = d.pwr ∧ (d.setPcie f).waiting = d.waiting ∧
    (d.setPcie f).msixTable = d.msixTable ∧ (d.setPcie f).msixHeld = d.msixHeld ∧ (d.setPcie f).engines = d.engines ∧ (d.setPcie f).convs = d.convs ∧
    (d.setPcie f).waves = d.waves ∧ (d.setPcie f).scs = d.scs ∧ (d.setPcie f).grps = d.grps ∧ (d.setPcie f).crys = d.crys ∧
    (d.setPcie f).pkt = d.pkt ∧ (d.setPcie f).buf = d.buf ∧ (d.setPcie f).macs = d.macs ∧ (d.setPcie f).lanes = d.lanes ∧
    (d.setPcie f).inj_ = d.inj_ ∧ (d.setPcie f).reclaim = d.reclaim ∧ (d.setPcie f).tap = d.tap :=
  ⟨rfl, rfl, rfl, rfl, rfl, rfl, rfl, rfl, rfl, rfl, rfl, rfl, rfl, rfl, rfl, rfl, rfl, rfl, rfl, rfl, rfl, rfl, rfl, rfl, rfl, rfl, rfl, rfl, rfl, rfl, rfl⟩

@[simp] theorem Dev.setPwr_keeps (d : Dev) (f : PwrSt → PwrSt) :
    (d.setPwr f).regs = d.regs ∧ (d.setPwr f).free = d.free ∧ (d.setPwr f).out = d.out ∧ (d.setPwr f).inReset = d.inReset ∧
    (d.setPwr f).powered = d.powered ∧ (d.setPwr f).blown = d.blown ∧ (d.setPwr f).aerrAdr = d.aerrAdr ∧ (d.setPwr f).straps = d.straps ∧
    (d.setPwr f).time = d.time ∧ (d.setPwr f).ash = d.ash ∧ (d.setPwr f).hearth = d.hearth ∧ (d.setPwr f).img = d.img ∧
    (d.setPwr f).ember = d.ember ∧ (d.setPwr f).spr = d.spr ∧ (d.setPwr f).waiting = d.waiting ∧ (d.setPwr f).pcie = d.pcie ∧
    (d.setPwr f).msixTable = d.msixTable ∧ (d.setPwr f).msixHeld = d.msixHeld ∧ (d.setPwr f).engines = d.engines ∧ (d.setPwr f).convs = d.convs ∧
    (d.setPwr f).waves = d.waves ∧ (d.setPwr f).scs = d.scs ∧ (d.setPwr f).grps = d.grps ∧ (d.setPwr f).crys = d.crys ∧ (d.setPwr f).pkt = d.pkt ∧
    (d.setPwr f).buf = d.buf ∧ (d.setPwr f).macs = d.macs ∧ (d.setPwr f).lanes = d.lanes ∧ (d.setPwr f).inj_ = d.inj_ ∧
    (d.setPwr f).reclaim = d.reclaim ∧ (d.setPwr f).tap = d.tap :=
  ⟨rfl, rfl, rfl, rfl, rfl, rfl, rfl, rfl, rfl, rfl, rfl, rfl, rfl, rfl, rfl, rfl, rfl, rfl, rfl, rfl, rfl, rfl, rfl, rfl, rfl, rfl, rfl, rfl, rfl, rfl, rfl⟩

@[simp] theorem Dev.setImg_keeps (d : Dev) (f : ImgSt → ImgSt) :
    (d.setImg f).regs = d.regs ∧ (d.setImg f).free = d.free ∧ (d.setImg f).out = d.out ∧ (d.setImg f).inReset = d.inReset ∧
    (d.setImg f).powered = d.powered ∧ (d.setImg f).blown = d.blown ∧ (d.setImg f).aerrAdr = d.aerrAdr ∧ (d.setImg f).straps = d.straps ∧
    (d.setImg f).time = d.time ∧ (d.setImg f).ash = d.ash ∧ (d.setImg f).hearth = d.hearth ∧ (d.setImg f).ember = d.ember ∧
    (d.setImg f).spr = d.spr ∧ (d.setImg f).pwr = d.pwr ∧ (d.setImg f).waiting = d.waiting ∧ (d.setImg f).pcie = d.pcie ∧
    (d.setImg f).msixTable = d.msixTable ∧ (d.setImg f).msixHeld = d.msixHeld ∧ (d.setImg f).engines = d.engines ∧ (d.setImg f).convs = d.convs ∧
    (d.setImg f).waves = d.waves ∧ (d.setImg f).scs = d.scs ∧ (d.setImg f).grps = d.grps ∧ (d.setImg f).crys = d.crys ∧ (d.setImg f).pkt = d.pkt ∧
    (d.setImg f).buf = d.buf ∧ (d.setImg f).macs = d.macs ∧ (d.setImg f).lanes = d.lanes ∧ (d.setImg f).inj_ = d.inj_ ∧
    (d.setImg f).reclaim = d.reclaim ∧ (d.setImg f).tap = d.tap :=
  ⟨rfl, rfl, rfl, rfl, rfl, rfl, rfl, rfl, rfl, rfl, rfl, rfl, rfl, rfl, rfl, rfl, rfl, rfl, rfl, rfl, rfl, rfl, rfl, rfl, rfl, rfl, rfl, rfl, rfl, rfl, rfl⟩

@[simp] theorem Dev.setEmber_keeps (d : Dev) (f : EmberSt → EmberSt) :
    (d.setEmber f).regs = d.regs ∧ (d.setEmber f).free = d.free ∧ (d.setEmber f).out = d.out ∧ (d.setEmber f).inReset = d.inReset ∧
    (d.setEmber f).powered = d.powered ∧ (d.setEmber f).blown = d.blown ∧ (d.setEmber f).aerrAdr = d.aerrAdr ∧ (d.setEmber f).straps = d.straps ∧
    (d.setEmber f).time = d.time ∧ (d.setEmber f).ash = d.ash ∧ (d.setEmber f).hearth = d.hearth ∧ (d.setEmber f).img = d.img ∧
    (d.setEmber f).spr = d.spr ∧ (d.setEmber f).pwr = d.pwr ∧ (d.setEmber f).waiting = d.waiting ∧ (d.setEmber f).pcie = d.pcie ∧
    (d.setEmber f).msixTable = d.msixTable ∧ (d.setEmber f).msixHeld = d.msixHeld ∧ (d.setEmber f).engines = d.engines ∧
    (d.setEmber f).convs = d.convs ∧ (d.setEmber f).waves = d.waves ∧ (d.setEmber f).scs = d.scs ∧ (d.setEmber f).grps = d.grps ∧
    (d.setEmber f).crys = d.crys ∧ (d.setEmber f).pkt = d.pkt ∧ (d.setEmber f).buf = d.buf ∧ (d.setEmber f).macs = d.macs ∧
    (d.setEmber f).lanes = d.lanes ∧ (d.setEmber f).inj_ = d.inj_ ∧ (d.setEmber f).reclaim = d.reclaim ∧ (d.setEmber f).tap = d.tap :=
  ⟨rfl, rfl, rfl, rfl, rfl, rfl, rfl, rfl, rfl, rfl, rfl, rfl, rfl, rfl, rfl, rfl, rfl, rfl, rfl, rfl, rfl, rfl, rfl, rfl, rfl, rfl, rfl, rfl, rfl, rfl, rfl⟩

@[simp] theorem Dev.setHearth_keeps (d : Dev) (f : HearthSt → HearthSt) :
    (d.setHearth f).regs = d.regs ∧ (d.setHearth f).free = d.free ∧ (d.setHearth f).out = d.out ∧ (d.setHearth f).inReset = d.inReset ∧
    (d.setHearth f).powered = d.powered ∧ (d.setHearth f).blown = d.blown ∧ (d.setHearth f).aerrAdr = d.aerrAdr ∧ (d.setHearth f).straps = d.straps ∧
    (d.setHearth f).time = d.time ∧ (d.setHearth f).ash = d.ash ∧ (d.setHearth f).img = d.img ∧ (d.setHearth f).ember = d.ember ∧
    (d.setHearth f).spr = d.spr ∧ (d.setHearth f).pwr = d.pwr ∧ (d.setHearth f).waiting = d.waiting ∧ (d.setHearth f).pcie = d.pcie ∧
    (d.setHearth f).msixTable = d.msixTable ∧ (d.setHearth f).msixHeld = d.msixHeld ∧ (d.setHearth f).engines = d.engines ∧
    (d.setHearth f).convs = d.convs ∧ (d.setHearth f).waves = d.waves ∧ (d.setHearth f).scs = d.scs ∧ (d.setHearth f).grps = d.grps ∧
    (d.setHearth f).crys = d.crys ∧ (d.setHearth f).pkt = d.pkt ∧ (d.setHearth f).buf = d.buf ∧ (d.setHearth f).macs = d.macs ∧
    (d.setHearth f).lanes = d.lanes ∧ (d.setHearth f).inj_ = d.inj_ ∧ (d.setHearth f).reclaim = d.reclaim ∧ (d.setHearth f).tap = d.tap :=
  ⟨rfl, rfl, rfl, rfl, rfl, rfl, rfl, rfl, rfl, rfl, rfl, rfl, rfl, rfl, rfl, rfl, rfl, rfl, rfl, rfl, rfl, rfl, rfl, rfl, rfl, rfl, rfl, rfl, rfl, rfl, rfl⟩

@[simp] theorem Dev.setPkt_keeps (d : Dev) (f : PktSt → PktSt) :
    (d.setPkt f).regs = d.regs ∧ (d.setPkt f).free = d.free ∧ (d.setPkt f).out = d.out ∧ (d.setPkt f).inReset = d.inReset ∧
    (d.setPkt f).powered = d.powered ∧ (d.setPkt f).blown = d.blown ∧ (d.setPkt f).aerrAdr = d.aerrAdr ∧ (d.setPkt f).straps = d.straps ∧
    (d.setPkt f).time = d.time ∧ (d.setPkt f).ash = d.ash ∧ (d.setPkt f).hearth = d.hearth ∧ (d.setPkt f).img = d.img ∧
    (d.setPkt f).ember = d.ember ∧ (d.setPkt f).spr = d.spr ∧ (d.setPkt f).pwr = d.pwr ∧ (d.setPkt f).waiting = d.waiting ∧
    (d.setPkt f).pcie = d.pcie ∧ (d.setPkt f).msixTable = d.msixTable ∧ (d.setPkt f).msixHeld = d.msixHeld ∧ (d.setPkt f).engines = d.engines ∧
    (d.setPkt f).convs = d.convs ∧ (d.setPkt f).waves = d.waves ∧ (d.setPkt f).scs = d.scs ∧ (d.setPkt f).grps = d.grps ∧
    (d.setPkt f).crys = d.crys ∧ (d.setPkt f).buf = d.buf ∧ (d.setPkt f).macs = d.macs ∧ (d.setPkt f).lanes = d.lanes ∧ (d.setPkt f).inj_ = d.inj_ ∧
    (d.setPkt f).reclaim = d.reclaim ∧ (d.setPkt f).tap = d.tap :=
  ⟨rfl, rfl, rfl, rfl, rfl, rfl, rfl, rfl, rfl, rfl, rfl, rfl, rfl, rfl, rfl, rfl, rfl, rfl, rfl, rfl, rfl, rfl, rfl, rfl, rfl, rfl, rfl, rfl, rfl, rfl, rfl⟩

@[simp] theorem Dev.setBuf_keeps (d : Dev) (f : BufSt → BufSt) :
    (d.setBuf f).regs = d.regs ∧ (d.setBuf f).free = d.free ∧ (d.setBuf f).out = d.out ∧ (d.setBuf f).inReset = d.inReset ∧
    (d.setBuf f).powered = d.powered ∧ (d.setBuf f).blown = d.blown ∧ (d.setBuf f).aerrAdr = d.aerrAdr ∧ (d.setBuf f).straps = d.straps ∧
    (d.setBuf f).time = d.time ∧ (d.setBuf f).ash = d.ash ∧ (d.setBuf f).hearth = d.hearth ∧ (d.setBuf f).img = d.img ∧
    (d.setBuf f).ember = d.ember ∧ (d.setBuf f).spr = d.spr ∧ (d.setBuf f).pwr = d.pwr ∧ (d.setBuf f).waiting = d.waiting ∧
    (d.setBuf f).pcie = d.pcie ∧ (d.setBuf f).msixTable = d.msixTable ∧ (d.setBuf f).msixHeld = d.msixHeld ∧ (d.setBuf f).engines = d.engines ∧
    (d.setBuf f).convs = d.convs ∧ (d.setBuf f).waves = d.waves ∧ (d.setBuf f).scs = d.scs ∧ (d.setBuf f).grps = d.grps ∧
    (d.setBuf f).crys = d.crys ∧ (d.setBuf f).pkt = d.pkt ∧ (d.setBuf f).macs = d.macs ∧ (d.setBuf f).lanes = d.lanes ∧ (d.setBuf f).inj_ = d.inj_ ∧
    (d.setBuf f).reclaim = d.reclaim ∧ (d.setBuf f).tap = d.tap :=
  ⟨rfl, rfl, rfl, rfl, rfl, rfl, rfl, rfl, rfl, rfl, rfl, rfl, rfl, rfl, rfl, rfl, rfl, rfl, rfl, rfl, rfl, rfl, rfl, rfl, rfl, rfl, rfl, rfl, rfl, rfl, rfl⟩

@[simp] theorem Dev.setMac_keeps (d : Dev) (p : Nat) (f : Mac → Mac) :
    (d.setMac p f).regs = d.regs ∧ (d.setMac p f).free = d.free ∧ (d.setMac p f).out = d.out ∧ (d.setMac p f).inReset = d.inReset ∧
    (d.setMac p f).powered = d.powered ∧ (d.setMac p f).blown = d.blown ∧ (d.setMac p f).aerrAdr = d.aerrAdr ∧ (d.setMac p f).straps = d.straps ∧
    (d.setMac p f).time = d.time ∧ (d.setMac p f).ash = d.ash ∧ (d.setMac p f).hearth = d.hearth ∧ (d.setMac p f).img = d.img ∧
    (d.setMac p f).ember = d.ember ∧ (d.setMac p f).spr = d.spr ∧ (d.setMac p f).pwr = d.pwr ∧ (d.setMac p f).waiting = d.waiting ∧
    (d.setMac p f).pcie = d.pcie ∧ (d.setMac p f).msixTable = d.msixTable ∧ (d.setMac p f).msixHeld = d.msixHeld ∧
    (d.setMac p f).engines = d.engines ∧ (d.setMac p f).convs = d.convs ∧ (d.setMac p f).waves = d.waves ∧ (d.setMac p f).scs = d.scs ∧
    (d.setMac p f).grps = d.grps ∧ (d.setMac p f).crys = d.crys ∧ (d.setMac p f).pkt = d.pkt ∧ (d.setMac p f).buf = d.buf ∧
    (d.setMac p f).lanes = d.lanes ∧ (d.setMac p f).inj_ = d.inj_ ∧ (d.setMac p f).reclaim = d.reclaim ∧ (d.setMac p f).tap = d.tap :=
  ⟨rfl, rfl, rfl, rfl, rfl, rfl, rfl, rfl, rfl, rfl, rfl, rfl, rfl, rfl, rfl, rfl, rfl, rfl, rfl, rfl, rfl, rfl, rfl, rfl, rfl, rfl, rfl, rfl, rfl, rfl, rfl⟩

@[simp] theorem Dev.setLane_keeps (d : Dev) (l : Nat) (f : Lane → Lane) :
    (d.setLane l f).regs = d.regs ∧ (d.setLane l f).free = d.free ∧ (d.setLane l f).out = d.out ∧ (d.setLane l f).inReset = d.inReset ∧
    (d.setLane l f).powered = d.powered ∧ (d.setLane l f).blown = d.blown ∧ (d.setLane l f).aerrAdr = d.aerrAdr ∧ (d.setLane l f).straps = d.straps ∧
    (d.setLane l f).time = d.time ∧ (d.setLane l f).ash = d.ash ∧ (d.setLane l f).hearth = d.hearth ∧ (d.setLane l f).img = d.img ∧
    (d.setLane l f).ember = d.ember ∧ (d.setLane l f).spr = d.spr ∧ (d.setLane l f).pwr = d.pwr ∧ (d.setLane l f).waiting = d.waiting ∧
    (d.setLane l f).pcie = d.pcie ∧ (d.setLane l f).msixTable = d.msixTable ∧ (d.setLane l f).msixHeld = d.msixHeld ∧
    (d.setLane l f).engines = d.engines ∧ (d.setLane l f).convs = d.convs ∧ (d.setLane l f).waves = d.waves ∧ (d.setLane l f).scs = d.scs ∧
    (d.setLane l f).grps = d.grps ∧ (d.setLane l f).crys = d.crys ∧ (d.setLane l f).pkt = d.pkt ∧ (d.setLane l f).buf = d.buf ∧
    (d.setLane l f).macs = d.macs ∧ (d.setLane l f).inj_ = d.inj_ ∧ (d.setLane l f).reclaim = d.reclaim ∧ (d.setLane l f).tap = d.tap :=
  ⟨rfl, rfl, rfl, rfl, rfl, rfl, rfl, rfl, rfl, rfl, rfl, rfl, rfl, rfl, rfl, rfl, rfl, rfl, rfl, rfl, rfl, rfl, rfl, rfl, rfl, rfl, rfl, rfl, rfl, rfl, rfl⟩

@[simp] theorem Dev.setInj_keeps (d : Dev) (i : Nat) (f : Inj → Inj) :
    (d.setInj i f).regs = d.regs ∧ (d.setInj i f).free = d.free ∧ (d.setInj i f).out = d.out ∧ (d.setInj i f).inReset = d.inReset ∧
    (d.setInj i f).powered = d.powered ∧ (d.setInj i f).blown = d.blown ∧ (d.setInj i f).aerrAdr = d.aerrAdr ∧ (d.setInj i f).straps = d.straps ∧
    (d.setInj i f).time = d.time ∧ (d.setInj i f).ash = d.ash ∧ (d.setInj i f).hearth = d.hearth ∧ (d.setInj i f).img = d.img ∧
    (d.setInj i f).ember = d.ember ∧ (d.setInj i f).spr = d.spr ∧ (d.setInj i f).pwr = d.pwr ∧ (d.setInj i f).waiting = d.waiting ∧
    (d.setInj i f).pcie = d.pcie ∧ (d.setInj i f).msixTable = d.msixTable ∧ (d.setInj i f).msixHeld = d.msixHeld ∧
    (d.setInj i f).engines = d.engines ∧ (d.setInj i f).convs = d.convs ∧ (d.setInj i f).waves = d.waves ∧ (d.setInj i f).scs = d.scs ∧
    (d.setInj i f).grps = d.grps ∧ (d.setInj i f).crys = d.crys ∧ (d.setInj i f).pkt = d.pkt ∧ (d.setInj i f).buf = d.buf ∧
    (d.setInj i f).macs = d.macs ∧ (d.setInj i f).lanes = d.lanes ∧ (d.setInj i f).reclaim = d.reclaim ∧ (d.setInj i f).tap = d.tap :=
  ⟨rfl, rfl, rfl, rfl, rfl, rfl, rfl, rfl, rfl, rfl, rfl, rfl, rfl, rfl, rfl, rfl, rfl, rfl, rfl, rfl, rfl, rfl, rfl, rfl, rfl, rfl, rfl, rfl, rfl, rfl, rfl⟩

@[simp] theorem Dev.setTime_keeps (d : Dev) (f : TimeSt → TimeSt) :
    (d.setTime f).regs = d.regs ∧ (d.setTime f).free = d.free ∧ (d.setTime f).out = d.out ∧ (d.setTime f).inReset = d.inReset ∧
    (d.setTime f).powered = d.powered ∧ (d.setTime f).blown = d.blown ∧ (d.setTime f).aerrAdr = d.aerrAdr ∧ (d.setTime f).straps = d.straps ∧
    (d.setTime f).ash = d.ash ∧ (d.setTime f).hearth = d.hearth ∧ (d.setTime f).img = d.img ∧ (d.setTime f).ember = d.ember ∧
    (d.setTime f).spr = d.spr ∧ (d.setTime f).pwr = d.pwr ∧ (d.setTime f).waiting = d.waiting ∧ (d.setTime f).pcie = d.pcie ∧
    (d.setTime f).msixTable = d.msixTable ∧ (d.setTime f).msixHeld = d.msixHeld ∧ (d.setTime f).engines = d.engines ∧ (d.setTime f).convs = d.convs ∧
    (d.setTime f).waves = d.waves ∧ (d.setTime f).scs = d.scs ∧ (d.setTime f).grps = d.grps ∧ (d.setTime f).crys = d.crys ∧
    (d.setTime f).pkt = d.pkt ∧ (d.setTime f).buf = d.buf ∧ (d.setTime f).macs = d.macs ∧ (d.setTime f).lanes = d.lanes ∧
    (d.setTime f).inj_ = d.inj_ ∧ (d.setTime f).reclaim = d.reclaim ∧ (d.setTime f).tap = d.tap :=
  ⟨rfl, rfl, rfl, rfl, rfl, rfl, rfl, rfl, rfl, rfl, rfl, rfl, rfl, rfl, rfl, rfl, rfl, rfl, rfl, rfl, rfl, rfl, rfl, rfl, rfl, rfl, rfl, rfl, rfl, rfl, rfl⟩

/-! ### Registers -/

@[simp] theorem Dev.reg_emit (d : Dev) (o : Output) (a : Nat) : (d.emit o).reg a = d.reg a := rfl
@[simp] theorem Dev.reg_setOut (d : Dev) (l : List Output) (a : Nat) : (d.setOut l).reg a = d.reg a := rfl
@[simp] theorem Dev.reg_setEng (d : Dev) (e : Nat) (f : Engine → Engine) (a : Nat) : (d.setEng e f).reg a = d.reg a := rfl
@[simp] theorem Dev.reg_setConv (d : Dev) (w : Nat) (f : Conv → Conv) (a : Nat) : (d.setConv w f).reg a = d.reg a := rfl
@[simp] theorem Dev.reg_setWave (d : Dev) (w : Nat) (f : Wave → Wave) (a : Nat) : (d.setWave w f).reg a = d.reg a := rfl
@[simp] theorem Dev.reg_setSc (d : Dev) (w k : Nat) (f : Subc → Subc) (a : Nat) : (d.setSc w k f).reg a = d.reg a := rfl
@[simp] theorem Dev.reg_setGrp (d : Dev) (w g : Nat) (f : Grp → Grp) (a : Nat) : (d.setGrp w g f).reg a = d.reg a := rfl
@[simp] theorem Dev.reg_setCry (d : Dev) (w g : Nat) (f : Crypto → Crypto) (a : Nat) : (d.setCry w g f).reg a = d.reg a := rfl
@[simp] theorem Dev.reg_setSpr1 (d : Dev) (e : Nat) (f : SprEng → SprEng) (a : Nat) : (d.setSpr1 e f).reg a = d.reg a := rfl
@[simp] theorem Dev.reg_setSpr (d : Dev) (f : SprSt → SprSt) (a : Nat) : (d.setSpr f).reg a = d.reg a := rfl
@[simp] theorem Dev.reg_setPcie (d : Dev) (f : Pcie → Pcie) (a : Nat) : (d.setPcie f).reg a = d.reg a := rfl
@[simp] theorem Dev.reg_setPwr (d : Dev) (f : PwrSt → PwrSt) (a : Nat) : (d.setPwr f).reg a = d.reg a := rfl
@[simp] theorem Dev.reg_setImg (d : Dev) (f : ImgSt → ImgSt) (a : Nat) : (d.setImg f).reg a = d.reg a := rfl
@[simp] theorem Dev.reg_setEmber (d : Dev) (f : EmberSt → EmberSt) (a : Nat) : (d.setEmber f).reg a = d.reg a := rfl
@[simp] theorem Dev.reg_setHearth (d : Dev) (f : HearthSt → HearthSt) (a : Nat) : (d.setHearth f).reg a = d.reg a := rfl
@[simp] theorem Dev.reg_setPkt (d : Dev) (f : PktSt → PktSt) (a : Nat) : (d.setPkt f).reg a = d.reg a := rfl
@[simp] theorem Dev.reg_setBuf (d : Dev) (f : BufSt → BufSt) (a : Nat) : (d.setBuf f).reg a = d.reg a := rfl
@[simp] theorem Dev.reg_setMac (d : Dev) (p : Nat) (f : Mac → Mac) (a : Nat) : (d.setMac p f).reg a = d.reg a := rfl
@[simp] theorem Dev.reg_setLane (d : Dev) (l : Nat) (f : Lane → Lane) (a : Nat) : (d.setLane l f).reg a = d.reg a := rfl
@[simp] theorem Dev.reg_setInj (d : Dev) (i : Nat) (f : Inj → Inj) (a : Nat) : (d.setInj i f).reg a = d.reg a := rfl
@[simp] theorem Dev.reg_setTime (d : Dev) (f : TimeSt → TimeSt) (a : Nat) : (d.setTime f).reg a = d.reg a := rfl

@[simp] theorem Dev.get_emit (d : Dev) (o : Output) (fl : Fld) : (d.emit o).get fl = d.get fl := rfl
@[simp] theorem Dev.get_setOut (d : Dev) (l : List Output) (fl : Fld) : (d.setOut l).get fl = d.get fl := rfl
@[simp] theorem Dev.get_setEng (d : Dev) (e : Nat) (f : Engine → Engine) (fl : Fld) : (d.setEng e f).get fl = d.get fl := rfl
@[simp] theorem Dev.get_setConv (d : Dev) (w : Nat) (f : Conv → Conv) (fl : Fld) : (d.setConv w f).get fl = d.get fl := rfl
@[simp] theorem Dev.get_setWave (d : Dev) (w : Nat) (f : Wave → Wave) (fl : Fld) : (d.setWave w f).get fl = d.get fl := rfl
@[simp] theorem Dev.get_setSc (d : Dev) (w k : Nat) (f : Subc → Subc) (fl : Fld) : (d.setSc w k f).get fl = d.get fl := rfl
@[simp] theorem Dev.get_setGrp (d : Dev) (w g : Nat) (f : Grp → Grp) (fl : Fld) : (d.setGrp w g f).get fl = d.get fl := rfl
@[simp] theorem Dev.get_setCry (d : Dev) (w g : Nat) (f : Crypto → Crypto) (fl : Fld) : (d.setCry w g f).get fl = d.get fl := rfl
@[simp] theorem Dev.get_setSpr1 (d : Dev) (e : Nat) (f : SprEng → SprEng) (fl : Fld) : (d.setSpr1 e f).get fl = d.get fl := rfl
@[simp] theorem Dev.get_setSpr (d : Dev) (f : SprSt → SprSt) (fl : Fld) : (d.setSpr f).get fl = d.get fl := rfl
@[simp] theorem Dev.get_setPcie (d : Dev) (f : Pcie → Pcie) (fl : Fld) : (d.setPcie f).get fl = d.get fl := rfl
@[simp] theorem Dev.get_setPwr (d : Dev) (f : PwrSt → PwrSt) (fl : Fld) : (d.setPwr f).get fl = d.get fl := rfl
@[simp] theorem Dev.get_setImg (d : Dev) (f : ImgSt → ImgSt) (fl : Fld) : (d.setImg f).get fl = d.get fl := rfl
@[simp] theorem Dev.get_setEmber (d : Dev) (f : EmberSt → EmberSt) (fl : Fld) : (d.setEmber f).get fl = d.get fl := rfl
@[simp] theorem Dev.get_setHearth (d : Dev) (f : HearthSt → HearthSt) (fl : Fld) : (d.setHearth f).get fl = d.get fl := rfl
@[simp] theorem Dev.get_setPkt (d : Dev) (f : PktSt → PktSt) (fl : Fld) : (d.setPkt f).get fl = d.get fl := rfl
@[simp] theorem Dev.get_setBuf (d : Dev) (f : BufSt → BufSt) (fl : Fld) : (d.setBuf f).get fl = d.get fl := rfl
@[simp] theorem Dev.get_setMac (d : Dev) (p : Nat) (f : Mac → Mac) (fl : Fld) : (d.setMac p f).get fl = d.get fl := rfl
@[simp] theorem Dev.get_setLane (d : Dev) (l : Nat) (f : Lane → Lane) (fl : Fld) : (d.setLane l f).get fl = d.get fl := rfl
@[simp] theorem Dev.get_setInj (d : Dev) (i : Nat) (f : Inj → Inj) (fl : Fld) : (d.setInj i f).get fl = d.get fl := rfl
@[simp] theorem Dev.get_setTime (d : Dev) (f : TimeSt → TimeSt) (fl : Fld) : (d.setTime f).get fl = d.get fl := rfl

@[simp] theorem Dev.setOut_out (d : Dev) (l : List Output) : (d.setOut l).out = l := rfl

@[simp] theorem Dev.reg_setReg_self (d : Dev) (a : Nat) (v : Word) : (d.setReg a v).reg a = v := Tbl.get_set_self _ _ _ _

theorem Dev.reg_setReg_ne (d : Dev) {a b : Nat} (v : Word) (h : b ≠ a) : (d.setReg a v).reg b = d.reg b := Tbl.get_set_ne _ _ _ _ h

theorem Dev.reg_set_ne (d : Dev) {f : Fld} (x : Nat) {b : Nat} (h : b ≠ f.addr) : (d.set f x).reg b = d.reg b := Dev.reg_setReg_ne d _ h

theorem Dev.reg_setInt_ne (d : Dev) {f : Fld} (i : Int) {b : Nat} (h : b ≠ f.addr) : (d.setInt f i).reg b = d.reg b := Dev.reg_set_ne d _ h

theorem Dev.reg_setFlag_ne (d : Dev) {f : Fld} (c : Bool) {b : Nat} (h : b ≠ f.addr) : (d.setFlag f c).reg b = d.reg b := Dev.reg_set_ne d _ h

theorem Dev.reg_count_ne (d : Dev) {f : Fld} (n : Nat) {b : Nat} (h : b ≠ f.addr) : (d.count f n).reg b = d.reg b := Dev.reg_set_ne d _ h

@[simp] theorem Dev.reg_set_self (d : Dev) (f : Fld) (x : Nat) : (d.set f x).reg f.addr = f.put (d.reg f.addr) x := Dev.reg_setReg_self _ _ _

/-! ### Fields -/

/-- Bit `i` of a replaced field's register. -/
theorem Fld.getLsbD_put (f : Fld) (v : Word) (x i : Nat) (hi : i < 32) :
    (f.put v x).getLsbD i = if f.lsb ≤ i ∧ i < f.lsb + f.width then x.testBit (i - f.lsb) else v.getLsbD i := by
  have hm : (2 ^ f.width - 1).testBit (i - f.lsb) = decide (i - f.lsb < f.width) := Nat.testBit_two_pow_sub_one _ _
  simp only [Fld.put, BitVec.getLsbD_or, BitVec.getLsbD_and, BitVec.getLsbD_not, BitVec.getLsbD_shiftLeft, BitVec.getLsbD_ofNat, hi, hm,
    decide_true, Bool.true_and]
  have hs : i - f.lsb < 32 := by omega
  by_cases h1 : i < f.lsb
  · simp [h1, Nat.not_le.2 h1]
  · by_cases h2 : i - f.lsb < f.width
    · have : f.lsb ≤ i ∧ i < f.lsb + f.width := by omega
      simp [h1, h2, hs, this]
    · have : ¬(f.lsb ≤ i ∧ i < f.lsb + f.width) := by omega
      simp [h1, h2, hs, this]

theorem Fld.testBit_of (f : Fld) (v : Word) (i : Nat) : (f.of v).testBit i = (decide (i < f.width) && v.getLsbD (f.lsb + i)) := by
  simp [Fld.of, Nat.testBit_mod_two_pow, Nat.testBit_div_two_pow, BitVec.getLsbD, Nat.add_comm]

/-- What a field reads as after it has been put. -/
theorem Fld.of_put (f : Fld) (v : Word) (x : Nat) (h : f.lsb + f.width ≤ 32) : f.of (f.put v x) = x % 2 ^ f.width := by
  apply Nat.eq_of_testBit_eq
  intro i
  rw [Fld.testBit_of, Nat.testBit_mod_two_pow]
  by_cases hi : i < f.width
  · rw [Fld.getLsbD_put f v x _ (by omega)]
    have : f.lsb ≤ f.lsb + i ∧ f.lsb + i < f.lsb + f.width := by omega
    simp [hi]
  · simp [hi]

/-- Another field of the same register stands. -/
theorem Fld.of_put_apart (f g : Fld) (v : Word) (x : Nat) (hg : g.lsb + g.width ≤ 32)
    (h : g.lsb + g.width ≤ f.lsb ∨ f.lsb + f.width ≤ g.lsb) : g.of (f.put v x) = g.of v := by
  apply Nat.eq_of_testBit_eq
  intro i
  rw [Fld.testBit_of, Fld.testBit_of]
  by_cases hi : i < g.width
  · rw [Fld.getLsbD_put f v x _ (by omega)]
    have : ¬(f.lsb ≤ g.lsb + i ∧ g.lsb + i < f.lsb + f.width) := by omega
    simp [this]
  · simp [hi]

/-- The place of a field within the register: it fits 32 bits. -/
def Fld.fits (f : Fld) : Prop := f.lsb + f.width ≤ 32

/-- Two fields share no bit. -/
def Fld.apart (f g : Fld) : Prop := f.addr ≠ g.addr ∨ f.lsb + f.width ≤ g.lsb ∨ g.lsb + g.width ≤ f.lsb

/-- A field just set. -/
theorem Dev.get_set_self (d : Dev) (f : Fld) (x : Nat) (h : f.fits) : (d.set f x).get f = x % 2 ^ f.width := by
  simp only [Dev.get, Dev.reg_set_self]
  exact Fld.of_put f _ x h

/-- A field of another register. -/
theorem Dev.get_set_ne (d : Dev) {f g : Fld} (x : Nat) (h : g.addr ≠ f.addr) : (d.set f x).get g = d.get g := by
  simp only [Dev.get, Dev.reg_set_ne d x h]

/-- A field that shares no bit with the one set. -/
theorem Dev.get_set_apart (d : Dev) (f g : Fld) (x : Nat) (hg : g.fits) (h : f.apart g) : (d.set f x).get g = d.get g := by
  by_cases ha : g.addr = f.addr
  · simp only [Dev.get, ha, Dev.reg_set_self]
    rcases h with h | h | h
    · exact absurd ha.symm h
    · exact Fld.of_put_apart f g _ x hg (.inr h)
    · exact Fld.of_put_apart f g _ x hg (.inl h)
  · exact Dev.get_set_ne d x ha

theorem Dev.get_setInt_self (d : Dev) (f : Fld) (i : Int) (h : f.fits) : (d.setInt f i).get f = unsignedOf f.width i % 2 ^ f.width :=
  Dev.get_set_self d f _ h

theorem Dev.get_setInt_apart (d : Dev) (f g : Fld) (i : Int) (hg : g.fits) (h : f.apart g) :
    (d.setInt f i).get g = d.get g := Dev.get_set_apart d f g _ hg h

theorem Dev.get_setFlag_self (d : Dev) (f : Fld) (b : Bool) (h : f.fits) : (d.setFlag f b).get f = (if b then 1 else 0) % 2 ^ f.width :=
  Dev.get_set_self d f _ h

theorem Dev.get_setFlag_apart (d : Dev) (f g : Fld) (b : Bool) (hg : g.fits) (h : f.apart g) :
    (d.setFlag f b).get g = d.get g := Dev.get_set_apart d f g _ hg h

theorem Dev.get_count_apart (d : Dev) (f g : Fld) (n : Nat) (hg : g.fits) (h : f.apart g) :
    (d.count f n).get g = d.get g := Dev.get_set_apart d f g _ hg h

/-- A count saturates at the largest value of its field (R4). -/
theorem Dev.get_count_self (d : Dev) (f : Fld) (n : Nat) (h : f.fits) : (d.count f n).get f = satAdd f.width (d.get f) n := by
  rw [Dev.count, Dev.get_set_self d f _ h, Nat.mod_eq_of_lt]
  have : 0 < 2 ^ f.width := Nat.two_pow_pos _
  simp only [satAdd]
  omega

/-! ### Control of the text -/

@[simp] theorem Dev.when_true (d : Dev) (f : Dev → Dev) : d.when true f = f d := rfl
@[simp] theorem Dev.when_false (d : Dev) (f : Dev → Dev) : d.when false f = d := rfl
@[simp] theorem Dev.each_nil {α : Type} (d : Dev) (f : Dev → α → Dev) : d.each [] f = d := rfl
@[simp] theorem Dev.each_cons {α : Type} (d : Dev) (x : α) (l : List α) (f : Dev → α → Dev) : d.each (x :: l) f = (f d x).each l f := rfl

/-- What holds before a conditional change and is kept by it holds after it. -/
theorem Dev.when_keeps {P : Dev → Prop} (d : Dev) (c : Bool) (f : Dev → Dev) (h : P d) (hf : P d → P (f d)) : P (d.when c f) := by
  cases c <;> simp [Dev.when, h, hf]

/-- What every round of a loop keeps holds after it. -/
theorem Dev.each_keeps {α : Type} {P : Dev → Prop} (l : List α) (f : Dev → α → Dev) (hf : ∀ d x, x ∈ l → P d → P (f d x)) (d : Dev) (h : P d) :
    P (d.each l f) := by
  induction l generalizing d with
  | nil => exact h
  | cons x t ih => exact ih (fun e y hy => hf e y (List.mem_cons_of_mem _ hy)) (f d x) (hf d x (by simp) h)

/-! ### Running a command -/

/-- The close of a clock's log entries touches the log's queue alone; where none was added it changes nothing. -/
theorem Dev.closeLog_same (d : Dev) (n : Nat) (h : d.ash.queue.length ≤ n) : d.closeLog n = d := by
  simp [Dev.closeLog, List.take_of_length_le h, List.drop_eq_nil_of_le h]

@[simp] theorem Dev.closeLog_reg (d : Dev) (n a : Nat) : (d.closeLog n).reg a = d.reg a := rfl
@[simp] theorem Dev.closeLog_get (d : Dev) (n : Nat) (f : Fld) : (d.closeLog n).get f = d.get f := rfl
@[simp] theorem Dev.closeLog_out (d : Dev) (n : Nat) : (d.closeLog n).out = d.out := rfl

/-- A command run on the device ends in a next state that keeps the queue and the fuses and only adds to what was sent. -/
theorem State.run_eq (s : State) (f : Fuses → Dev → Dev) :
    s.run f = .next { s with
      dev := ((f s.fuses (s.dev.setOut [])).closeLog s.dev.ash.queue.length).setOut []
      outputs := (f s.fuses (s.dev.setOut [])).out ++ s.outputs } := rfl

/-- A command that leaves the log's queue alone. -/
theorem State.run_quiet (s : State) (f : Fuses → Dev → Dev) (h : (f s.fuses (s.dev.setOut [])).ash = s.dev.ash) :
    s.run f = .next { s with dev := (f s.fuses (s.dev.setOut [])).setOut [], outputs := (f s.fuses (s.dev.setOut [])).out ++ s.outputs } := by
  rw [State.run_eq, Dev.closeLog_same _ _ (Nat.le_of_eq (congrArg (fun a => a.queue.length) h))]

theorem step_nil {s : State} (h : s.pending = []) : step s = s.run fun _ d => d.tick := by
  unfold step; rw [h]

end Sys2Proof.Machine
end

