-- ==== Sys2Proof/Laws/Flags.lean ====
section
/-!
SUPPORT. All that raising an event can do (R426): it marks its own source's registers, adds to the ash log's queue and
sends or holds one message; everything else stands.
-/

namespace Sys2Proof.Machine

@[simp] theorem Dev.msixEmit_keeps (d : Dev) (v : Nat) : (d.msixEmit v).regs = d.regs ∧ (d.msixEmit v).msixHeld = d.msixHeld := ⟨rfl, rfl⟩

theorem Dev.QuietSame.refl (d : Dev) : d.QuietSame d := by constructor <;> rfl

theorem Dev.QuietSame.trans {d e f : Dev} (h : d.QuietSame e) (k : e.QuietSame f) : d.QuietSame f := by
  cases h; cases k; constructor <;> simp_all

theorem Dev.ashAdd_quiet (d : Dev) (kind evt code : Nat) (data : List Byte) (from_ : List Nat) :
    d.QuietSame (d.ashAdd kind evt code data from_) := by
  unfold Dev.ashAdd
  dsimp only
  split
  · constructor <;> rfl
  · split <;> constructor <;> rfl

theorem Dev.ashAdd_regs (d : Dev) (kind evt code : Nat) (data : List Byte) (from_ : List Nat) :
    (d.ashAdd kind evt code data from_).regs = d.regs := by
  unfold Dev.ashAdd
  dsimp only
  split
  · rfl
  · split <;> rfl

theorem Dev.msixSend_quiet (d : Dev) (v : Nat) : d.QuietSame (d.msixSend v) := by
  unfold Dev.msixSend
  split
  · constructor <;> rfl
  · split <;> constructor <;> rfl

theorem Dev.msixSend_regs (d : Dev) (v : Nat) : (d.msixSend v).regs = d.regs := by
  unfold Dev.msixSend
  split
  · rfl
  · split <;> rfl

theorem Dev.groupEdge_quiet (d : Dev) (g : Nat) (was : Bool) : d.QuietSame (d.groupEdge g was) := by
  unfold Dev.groupEdge
  cases (!was && d.groupPending g && d.flag (F.hrtEvtGcfgMsien g))
  · exact Dev.QuietSame.refl d
  · exact Dev.msixSend_quiet d _

theorem Dev.groupEdge_regs (d : Dev) (g : Nat) (was : Bool) : (d.groupEdge g was).regs = d.regs := by
  unfold Dev.groupEdge
  cases (!was && d.groupPending g && d.flag (F.hrtEvtGcfgMsien g))
  · rfl
  · exact Dev.msixSend_regs d _

theorem Dev.evtMark_quiet (d : Dev) (n : Nat) : d.QuietSame (d.evtMark n) := by
  unfold Dev.evtMark
  dsimp only
  cases (!d.flag (F.hrtEvtSrcCtlStat n)) <;> constructor <;> simp [Dev.when]

/-- The change after the mark touches no register. -/
theorem Dev.afterMark_regs (d : Dev) (c : Bool) (g : Nat) (was : Bool) (n cnt : Nat) (b : List Byte) (fr : List Nat) :
    ((d.when c fun d => d.ashAdd 1 n cnt b fr).groupEdge g was).regs = d.regs := by
  rw [Dev.groupEdge_regs]
  cases c
  · rfl
  · exact Dev.ashAdd_regs d _ _ _ _ _

/-- A raise leaves every register as its mark does. -/
theorem Dev.raise_regs (d : Dev) (n : Nat) (l : List Nat) (h : neverRaised n = false) : (d.raise n l).regs = (d.evtMark n).regs := by
  unfold Dev.raise Dev.raiseWords
  simp only [h, Bool.false_eq_true, if_false]
  exact Dev.afterMark_regs _ _ _ _ _ _ _ _

theorem Dev.raise_never (d : Dev) (n : Nat) (l : List Nat) (h : neverRaised n = true) : d.raise n l = d := by
  simp [Dev.raise, Dev.raiseWords, h]

theorem Dev.raise_quiet (d : Dev) (n : Nat) (l : List Nat) : d.QuietSame (d.raise n l) := by
  by_cases h : neverRaised n = true
  · rw [Dev.raise_never d n l h]; exact Dev.QuietSame.refl d
  · unfold Dev.raise Dev.raiseWords
    simp only [h]
    refine (Dev.evtMark_quiet d n).trans (Dev.QuietSame.trans ?_ (Dev.groupEdge_quiet _ _ _))
    generalize (!d.flag (F.hrtEvtSrcCtlStat n) && d.flag (F.hrtEvtSrcCtlLog n)) = c
    cases c
    · exact Dev.QuietSame.refl _
    · exact Dev.ashAdd_quiet _ _ _ _ _ _

@[simp] theorem Dev.raise_keeps (d : Dev) (n : Nat) (l : List Nat) :
    (d.raise n l).free = d.free ∧ (d.raise n l).inReset = d.inReset ∧ (d.raise n l).powered = d.powered ∧ (d.raise n l).blown = d.blown ∧
    (d.raise n l).aerrAdr = d.aerrAdr ∧ (d.raise n l).straps = d.straps ∧ (d.raise n l).time = d.time ∧ (d.raise n l).hearth = d.hearth ∧
    (d.raise n l).img = d.img ∧ (d.raise n l).ember = d.ember ∧ (d.raise n l).spr = d.spr ∧ (d.raise n l).pwr = d.pwr ∧
    (d.raise n l).waiting = d.waiting ∧ (d.raise n l).pcie = d.pcie ∧ (d.raise n l).msixTable = d.msixTable ∧ (d.raise n l).engines = d.engines ∧
    (d.raise n l).convs = d.convs ∧ (d.raise n l).waves = d.waves ∧ (d.raise n l).scs = d.scs ∧ (d.raise n l).grps = d.grps ∧
    (d.raise n l).crys = d.crys ∧ (d.raise n l).pkt = d.pkt ∧ (d.raise n l).buf = d.buf ∧ (d.raise n l).macs = d.macs ∧
    (d.raise n l).lanes = d.lanes ∧ (d.raise n l).inj_ = d.inj_ ∧ (d.raise n l).reclaim = d.reclaim ∧ (d.raise n l).tap = d.tap :=
  ⟨(d.raise_quiet n l).free, (d.raise_quiet n l).inReset, (d.raise_quiet n l).powered, (d.raise_quiet n l).blown, (d.raise_quiet n l).aerrAdr, (d.raise_quiet n l).straps, (d.raise_quiet n l).time, (d.raise_quiet n l).hearth, (d.raise_quiet n l).img, (d.raise_quiet n l).ember, (d.raise_quiet n l).spr, (d.raise_quiet n l).pwr, (d.raise_quiet n l).waiting, (d.raise_quiet n l).pcie, (d.raise_quiet n l).msixTable, (d.raise_quiet n l).engines, (d.raise_quiet n l).convs, (d.raise_quiet n l).waves, (d.raise_quiet n l).scs, (d.raise_quiet n l).grps, (d.raise_quiet n l).crys, (d.raise_quiet n l).pkt, (d.raise_quiet n l).buf, (d.raise_quiet n l).macs, (d.raise_quiet n l).lanes, (d.raise_quiet n l).inj_, (d.raise_quiet n l).reclaim, (d.raise_quiet n l).tap⟩

theorem Dev.reg_congr {d e : Dev} (h : e.regs = d.regs) (a : Nat) : e.reg a = d.reg a := by simp [Dev.reg, h]

theorem Dev.reg_evtMark_ne (d : Dev) (n : Nat) {a : Nat} (h : a ∉ evtRegs n) : (d.evtMark n).reg a = d.reg a := by
  have h1 : a ≠ R.hrtEvtSrcCtl n := fun k => h (by simp [evtRegs, k])
  have h2 : a ≠ R.hrtEvtSrcFirstns n := fun k => h (by simp [evtRegs, k])
  have h3 : a ≠ R.hrtEvtSrcFirstw n := fun k => h (by simp [evtRegs, k])
  unfold Dev.evtMark
  dsimp only
  rw [Dev.reg_set_ne _ _ (by exact h1), Dev.reg_count_ne _ _ (by exact h1)]
  cases (!d.flag (F.hrtEvtSrcCtlStat n))
  · rfl
  · simp only [Dev.when_true]
    rw [Dev.reg_set_ne _ _ (by exact h3), Dev.reg_set_ne _ _ (by exact h2)]

/-- A register that is not one of the source's own stands through a raise. -/
theorem Dev.reg_raise_ne (d : Dev) (n : Nat) (l : List Nat) {a : Nat} (h : a ∉ evtRegs n) : (d.raise n l).reg a = d.reg a := by
  by_cases hn : neverRaised n = true
  · rw [Dev.raise_never d n l hn]
  · rw [Dev.reg_congr (Dev.raise_regs d n l (by simpa using hn)), Dev.reg_evtMark_ne d n h]

/-- Every register outside the block of event sources stands through a raise. -/
theorem Dev.reg_raise (d : Dev) (n : Nat) (l : List Nat) {a : Nat} (h : a < 0x80000 ∨ 0x81000 ≤ a) : (d.raise n l).reg a = d.reg a := by
  by_cases hn : neverRaised n = true
  · rw [Dev.raise_never d n l hn]
  · have : n < 256 := by
      simp only [neverRaised, Bool.or_eq_true, Bool.and_eq_true, decide_eq_true_eq, not_or] at hn
      omega
    refine Dev.reg_raise_ne d n l ?_
    simp only [evtRegs, List.mem_cons, List.not_mem_nil, or_false, R.hrtEvtSrcCtl, R.hrtEvtSrcFirstns, R.hrtEvtSrcFirstw]
    omega

theorem Dev.get_raise (d : Dev) (n : Nat) (l : List Nat) {f : Fld} (h : f.addr < 0x80000 ∨ 0x81000 ≤ f.addr) :
    (d.raise n l).get f = d.get f := by simp only [Dev.get, Dev.reg_raise d n l h]

/-- A raise marks its source: STAT is set and COUNT goes up by one, saturating (R4, R426). -/
theorem Dev.raise_marks (d : Dev) (n : Nat) (l : List Nat) (h : neverRaised n = false) :
    (d.raise n l).get (F.hrtEvtSrcCtlStat n) = 1
      ∧ (d.raise n l).get (F.hrtEvtSrcCtlCount n) = satAdd 16 (d.get (F.hrtEvtSrcCtlCount n)) 1 := by
  have hr : ∀ f : Fld, (d.raise n l).get f = (d.evtMark n).get f := fun f => by
    simp only [Dev.get, Dev.reg_congr (Dev.raise_regs d n l h)]
  rw [hr, hr]
  have hc : ∀ e : Dev, e = (d.when (!d.flag (F.hrtEvtSrcCtlStat n)) fun d =>
      (d.set (F.hrtEvtSrcFirstnsValue n) d.time.ns).set (F.hrtEvtSrcFirstwValue n) d.time.wraps) →
      e.get (F.hrtEvtSrcCtlCount n) = d.get (F.hrtEvtSrcCtlCount n) := by
    rintro e rfl
    cases (!d.flag (F.hrtEvtSrcCtlStat n))
    · rfl
    · simp only [Dev.when_true]
      rw [Dev.get_set_ne _ _ (by simp [F.hrtEvtSrcCtlCount, F.hrtEvtSrcFirstwValue, R.hrtEvtSrcCtl, R.hrtEvtSrcFirstw]),
        Dev.get_set_ne _ _ (by simp [F.hrtEvtSrcCtlCount, F.hrtEvtSrcFirstnsValue, R.hrtEvtSrcCtl, R.hrtEvtSrcFirstns])]
  refine ⟨?_, ?_⟩
  · unfold Dev.evtMark
    dsimp only
    rw [Dev.get_set_self _ _ _ (by simp [Fld.fits, F.hrtEvtSrcCtlStat])]
    rfl
  · unfold Dev.evtMark
    dsimp only
    rw [Dev.get_set_apart _ _ _ _ (by simp [Fld.fits, F.hrtEvtSrcCtlCount]) (by simp [Fld.apart, F.hrtEvtSrcCtlCount, F.hrtEvtSrcCtlStat]),
      Dev.get_count_self _ _ _ (by simp [Fld.fits, F.hrtEvtSrcCtlCount]), hc _ rfl]
    rfl

end Sys2Proof.Machine
end

