-- ==== Sys2Proof/Laws/Memory.lean ====
section
/-!
SUPPORT. The MRAM and the ember banks: a byte written is read back, every other byte is as before, and the canonical form is kept.
-/

namespace Sys2Proof.Machine

/-- The bytes of a run stored one after the other. -/
theorem Tbl.foldl_put_snd (l : List Byte) : ∀ (t : Tbl Byte) (o : Nat),
    (l.foldl (fun (a : Tbl Byte × Nat) b => (Tbl.set 0 a.1 a.2 b, a.2 + 1)) (t, o)).2 = o + l.length := by
  induction l with
  | nil => intro t o; rfl
  | cons b l ih => intro t o; rw [List.foldl_cons, ih]; simp only [List.length_cons]; omega

theorem Tbl.get_foldl_put_out (l : List Byte) : ∀ (t : Tbl Byte) (o k : Nat), k < o ∨ o + l.length ≤ k →
    Tbl.get 0 (l.foldl (fun (a : Tbl Byte × Nat) b => (Tbl.set 0 a.1 a.2 b, a.2 + 1)) (t, o)).1 k = Tbl.get 0 t k := by
  induction l with
  | nil => intro t o k _; rfl
  | cons b l ih =>
    intro t o k h
    simp only [List.length_cons] at h
    rw [List.foldl_cons, ih _ _ _ (by omega), Tbl.get_set_ne _ _ _ _ (by omega)]

theorem Tbl.get_foldl_put_in (l : List Byte) : ∀ (t : Tbl Byte) (o i : Nat), i < l.length →
    Tbl.get 0 (l.foldl (fun (a : Tbl Byte × Nat) b => (Tbl.set 0 a.1 a.2 b, a.2 + 1)) (t, o)).1 (o + i) = l.getD i 0 := by
  induction l with
  | nil => intro t o i h; simp at h
  | cons b l ih =>
    intro t o i h
    rw [List.foldl_cons]
    cases i with
    | zero => rw [Tbl.get_foldl_put_out _ _ _ _ (by omega)]; exact Tbl.get_set_self _ _ _ _
    | succ i =>
      rw [show o + (i + 1) = o + 1 + i by omega, ih _ _ _ (by simpa using h)]
      rfl

theorem Tbl.wf_foldl_put (l : List Byte) : ∀ (t : Tbl Byte) (o : Nat), Tbl.wf (fun _ => 0) t = true →
    Tbl.wf (fun _ => 0) (l.foldl (fun (a : Tbl Byte × Nat) b => (Tbl.set 0 a.1 a.2 b, a.2 + 1)) (t, o)).1 = true := by
  induction l with
  | nil => intro t o h; exact h
  | cons b l ih => intro t o h; rw [List.foldl_cons]; exact ih _ _ (Tbl.wf_set (fun _ => 0) o b h)

theorem Dev.mramPut_in (d : Dev) (o : Nat) (l : List Byte) {i : Nat} (h : i < l.length) :
    Tbl.get 0 (d.mramPut o l).img.mram (o + i) = l.getD i 0 := Tbl.get_foldl_put_in l d.img.mram o i h

theorem Dev.mramPut_out (d : Dev) (o : Nat) (l : List Byte) {k : Nat} (h : k < o ∨ o + l.length ≤ k) :
    Tbl.get 0 (d.mramPut o l).img.mram k = Tbl.get 0 d.img.mram k := Tbl.get_foldl_put_out l d.img.mram o k h

theorem Dev.mramPut_wf (d : Dev) (o : Nat) (l : List Byte) (h : Tbl.wf (fun _ => 0) d.img.mram = true) :
    Tbl.wf (fun _ => 0) (d.mramPut o l).img.mram = true := Tbl.wf_foldl_put l d.img.mram o h

@[simp] theorem Dev.mramPut_regs (d : Dev) (o : Nat) (l : List Byte) : (d.mramPut o l).regs = d.regs := rfl

theorem Tbl.wf_foldl_set {α : Type} (l : List α) (key : α → Nat) (val : α → Byte) : ∀ t : Tbl Byte, Tbl.wf (fun _ => 0) t = true →
    Tbl.wf (fun _ => 0) (l.foldl (fun t x => Tbl.set 0 t (key x) (val x)) t) = true := by
  induction l with
  | nil => intro t h; exact h
  | cons x l ih => intro t h; rw [List.foldl_cons]; exact ih _ (Tbl.wf_set (fun _ => 0) (key x) (val x) h)

theorem Dev.emberWrite_wf (d : Dev) (o : Nat) (v : Word) (h : Tbl.wf (fun _ => 0) d.ember.bytes = true) :
    Tbl.wf (fun _ => 0) (d.emberWrite o v).ember.bytes = true := by
  unfold Dev.emberWrite
  dsimp only
  cases d.ember.kept.testBit (d.get F.hrtPwrEmbwinBank)
  · exact h
  · exact Tbl.wf_foldl_set (List.range 4) (fun i => d.get F.hrtPwrEmbwinBank * 2 ^ 21 + d.bankOfs o + i)
      (fun i => BitVec.ofNat 8 (v.toNat / 2 ^ (8 * i))) _ h

end Sys2Proof.Machine
end

