-- ==== Sys2Proof/Laws/Ops.lean ====
section
/-!
SUPPORT. Flags after an update, and the relations of the statements: what may differ between two devices, and a raised event.
-/

namespace Sys2Proof.Machine

theorem Dev.flag_set_self (d : Dev) (f : Fld) (x : Nat) (h : f.fits) : (d.set f x).flag f = (x % 2 ^ f.width != 0) := by
  simp only [Dev.flag, Dev.get_set_self d f x h]

theorem Dev.flag_set_apart (d : Dev) (f g : Fld) (x : Nat) (hg : g.fits) (h : f.apart g) : (d.set f x).flag g = d.flag g := by
  simp only [Dev.flag, Dev.get_set_apart d f g x hg h]

theorem Dev.get_setReg_ne (d : Dev) (a : Nat) (v : Word) (g : Fld) (h : g.addr ≠ a) : (d.setReg a v).get g = d.get g := by
  simp only [Dev.get, Dev.reg_setReg_ne d v h]

theorem Dev.flag_setReg_ne (d : Dev) (a : Nat) (v : Word) (g : Fld) (h : g.addr ≠ a) : (d.setReg a v).flag g = d.flag g := by
  simp only [Dev.flag, Dev.get_setReg_ne d a v g h]

theorem Dev.flag_raise (d : Dev) (n : Nat) (l : List Nat) {f : Fld} (h : f.addr < 0x80000 ∨ 0x81000 ≤ f.addr) :
    (d.raise n l).flag f = d.flag f := by
  simp only [Dev.flag, Dev.get_raise d n l h]

theorem Dev.raised_raise (d : Dev) (n : Nat) (l : List Nat) (h : neverRaised n = false) : d.Raised n (d.raise n l) :=
  Dev.raise_marks d n l h

theorem Dev.Only.of_regs {d e : Dev} (h : e.regs = d.regs) (l evs : List Nat) : d.Only l evs e := by
  intro a _ _
  exact Dev.reg_congr h a

theorem Dev.Only.refl (l evs : List Nat) (d : Dev) : d.Only l evs d := Dev.Only.of_regs rfl l evs

theorem Dev.Only.mono {l l' evs evs' : List Nat} {d e : Dev} (hl : ∀ a ∈ l, a ∈ l') (he : ∀ n ∈ evs, n ∈ evs') (h : d.Only l evs e) :
    d.Only l' evs' e := by
  intro a ha hn
  exact h a (fun x => ha (hl a x)) fun n hx => hn n (he n hx)

theorem Dev.Only.trans {l evs : List Nat} {d e f : Dev} (h : d.Only l evs e) (k : e.Only l evs f) : d.Only l evs f := by
  intro a ha hn
  rw [k a ha hn, h a ha hn]

theorem Dev.Only.setReg {l evs : List Nat} {d e : Dev} (h : d.Only l evs e) {a : Nat} (v : Word) (ha : a ∈ l) : d.Only l evs (e.setReg a v) := by
  intro b hb hn
  have hne : b ≠ a := by
    intro x
    exact hb (x.symm ▸ ha)
  rw [Dev.reg_setReg_ne e v hne, h b hb hn]

theorem Dev.Only.set {l evs : List Nat} {d e : Dev} (h : d.Only l evs e) (f : Fld) (x : Nat) (ha : f.addr ∈ l) : d.Only l evs (e.set f x) :=
  h.setReg _ ha

theorem Dev.Only.raise {l evs : List Nat} {d e : Dev} (h : d.Only l evs e) (n : Nat) (addrs : List Nat) (hn : n ∈ evs) :
    d.Only l evs (e.raise n addrs) := by
  intro b hb he
  rw [Dev.reg_raise_ne e n addrs (he n hn), h b hb he]

end Sys2Proof.Machine
end

