-- ==== Sys2Proof/Laws/Sched.lean ====
section
/-!
SUPPORT. What a selected queue is (R262): one of the scheduler's, and eligible.
-/

namespace Sys2Proof.Machine

theorem Dev.pickQueue_some {d : Dev} {k q : Nat} {x : Int} (h : d.pickQueue k = some (q, x)) :
    q ∈ d.queuesOf k ∧ d.eligible k q = true := by
  have key : ∀ (l : List Nat) (b : Option (Nat × Int)), (∀ q x, b = some (q, x) → q ∈ d.queuesOf k ∧ d.eligible k q = true) →
      (∀ q ∈ l, q ∈ d.queuesOf k ∧ d.eligible k q = true) → ∀ q x,
      l.foldl (fun b q => match b with
        | none => some (q, d.distance k q)
        | some (_, x) => if d.distance k q < x then some (q, d.distance k q) else b) b = some (q, x) →
      q ∈ d.queuesOf k ∧ d.eligible k q = true := by
    intro l
    induction l with
    | nil => intro b hb _ q x h; exact hb q x h
    | cons a l ih =>
      intro b hb hl q x h
      refine ih _ (fun q x hq => ?_) (fun q hq => hl q (List.mem_cons_of_mem _ hq)) q x h
      have ha := hl a (List.mem_cons_self ..)
      cases b with
      | none => simp only [Option.some.injEq, Prod.mk.injEq] at hq; exact hq.1 ▸ ha
      | some y =>
        simp only at hq
        split at hq
        · simp only [Option.some.injEq, Prod.mk.injEq] at hq; exact hq.1 ▸ ha
        · exact hb q x hq
  exact key _ none (by simp) (fun q hq => List.mem_filter.1 hq) q x h

/-- A line group whose queue is selected is released to traffic (R267). -/
theorem Dev.pickQueue_released {d : Dev} {k q : Nat} {x : Int} (h : d.pickQueue k = some (q, x)) (hk : 96 ≤ k) :
    d.trafficOk (6 + (k - 96) / 32) = true := by
  have h := (Dev.pickQueue_some h).2
  simp only [Dev.eligible] at h
  split at h
  · simp at h
  · rw [if_neg (by omega)] at h
    simp only [Bool.and_eq_true, Dev.framerAsks] at h
    exact h.2.1.1.1.1.1

/-- A port whose queue is selected is released to traffic (R268). -/
theorem Dev.pickQueue_port {d : Dev} {k q : Nat} {x : Int} (h : d.pickQueue k = some (q, x)) (hk : k < 96) :
    d.trafficOk (hsCord k) = true := by
  have h := (Dev.pickQueue_some h).2
  simp only [Dev.eligible] at h
  split at h
  · simp at h
  · rw [if_pos hk] at h
    simp only [Bool.and_eq_true, Dev.portTakes, Dev.portMay] at h
    exact h.2.2.1.1.1.1.1.1

end Sys2Proof.Machine
end

