-- ==== Sys2Proof/Machine/Balls.lean ====
section
/-!
DEFINITION. The balls of the package and their levels: R461 to R467 of 20_pins_electrical. A ball is a row by its index and a column.
-/

namespace Sys2Proof.Machine

/-- The signals; the Bool of a pair is true for its P ball, `w` is 0 for set A and 1 for set B. -/
inductive Signal where
  | laneTx (l : Nat) (p : Bool)
  | laneRx (l : Nat) (p : Bool)
  | adc (w c : Nat) (p : Bool)
  | dac (w c : Nat) (p : Bool)
  | tuClk (w : Nat)
  | tuFrm (w : Nat)
  | tuDout (w : Nat)
  | tuDin (w : Nat)
  | cvAct (w : Nat)
  | pcieTx (k : Nat) (p : Bool)
  | pcieRx (k : Nat) (p : Bool)
  | refclk (p : Bool)
  | pcieRefclk (p : Bool)
  | resetN | pciePerstN | intN | testEn | ppsIn | ppsOut | smbScl | smbSda | tck | tms | tdi | tdo | trstN
  | smbAddr (i : Nat)
  | vsense (pkt : Bool)
  | vssense (pkt : Bool)
  deriving DecidableEq, Repr

/-- What stands on a ball: a signal, a supply by its rail, or VSS (R462). -/
inductive Ball where
  | signal (s : Signal)
  | supply (rail : Nat)
  | vss
  deriving DecidableEq, Repr

/-- The letters of the row names (R461). -/
def rowLetters : List Char := ['A', 'B', 'C', 'D', 'E', 'F', 'G', 'H', 'J', 'K', 'L', 'M', 'N', 'P', 'T', 'U', 'V', 'W', 'Y']

/-- The name of a row by its index, 1 to 72 (R461). -/
def rowName (i : Nat) : List Char :=
  let second := rowLetters.getD ((i - 1) % 19) 'A'
  if i ≤ 19 then [second] else [rowLetters.getD ((i - 20) / 19) 'A', second]

/-- A lane's ball: transmit or receive, P or N (R463). -/
def laneBall (l : Nat) (tx p : Bool) : Nat × Nat :=
  let n := l % 48
  let even := decide (n % 2 = 0)
  (3 * (n / 2) + (if tx then 1 else 3),
   if l < 48 then (if even then (if p then 2 else 3) else (if p then 6 else 7))
   else if even then (if p then 71 else 70) else (if p then 67 else 66))

/-- The balls of a converter set and its Turuid port (R464). -/
def convBalls (w : Nat) : List ((Nat × Nat) × Signal) :=
  let o := 26 + 12 * w
  ((List.range 4).flatMap fun c => [((2, o + 3 * c), .adc w c true), ((2, o + 1 + 3 * c), .adc w c false),
    ((5, o + 3 * c), .dac w c true), ((5, o + 1 + 3 * c), .dac w c false)])
  ++ [((7, o), .tuClk w), ((7, o + 1), .tuFrm w), ((7, o + 2), .tuDout w), ((7, o + 3), .tuDin w), ((7, o + 5), .cvAct w)]

/-- The balls of a PCIe lane: rows CK and CP, or CM and CT (R465). -/
def pcieBalls (k : Nat) : List ((Nat × Nat) × Signal) :=
  let c := 25 + 2 * (k % 4)
  let tx := if k < 4 then 67 else 69
  let rx := if k < 4 then 71 else 72
  [((tx, c), .pcieTx k true), ((tx, c + 1), .pcieTx k false), ((rx, c), .pcieRx k true), ((rx, c + 1), .pcieRx k false)]

/-- The control and clock balls, in rows CK (67), CM (69), CP (71) and CT (72) (R465). -/
def controlBalls : List ((Nat × Nat) × Signal) :=
  [((67, 41), .refclk true), ((67, 42), .refclk false), ((69, 41), .pcieRefclk true), ((69, 42), .pcieRefclk false), ((67, 45), .resetN),
   ((67, 46), .pciePerstN), ((67, 47), .intN), ((67, 48), .testEn), ((69, 45), .ppsIn), ((69, 46), .ppsOut), ((69, 47), .smbScl),
   ((69, 48), .smbSda)]
  ++ [((71, 45), .smbAddr 0), ((71, 46), .smbAddr 1), ((71, 47), .vsense false), ((71, 48), .vssense false), ((72, 41), .tck), ((72, 42), .tms),
   ((72, 43), .tdi), ((72, 44), .tdo), ((72, 45), .trstN), ((72, 47), .vsense true), ((72, 48), .vssense true)]

/-- The signal balls (R463 to R465). -/
def signalBalls : List ((Nat × Nat) × Signal) :=
  ((List.range 96).flatMap fun l => [(laneBall l true true, .laneTx l true), (laneBall l true false, .laneTx l false),
    (laneBall l false true, .laneRx l true), (laneBall l false false, .laneRx l false)])
  ++ convBalls 0 ++ convBalls 1 ++ (List.range 8).flatMap pcieBalls ++ controlBalls

/-- The rectangles of the supplies: rail, first and last row, first and last column (R466). -/
def supplyAreas : List (Nat × (Nat × Nat) × Nat × Nat) :=
  [(0, (8, 24), 17, 56), (1, (30, 45), 17, 56), (2, (8, 22), 9, 16), (3, (8, 22), 57, 64), (4, (25, 26), 17, 32), (5, (46, 48), 17, 48),
   (6, (1, 4), 9, 24), (7, (1, 4), 49, 64)]
  ++ [(8, (23, 29), 9, 16), (8, (23, 29), 57, 64), (9, (30, 32), 9, 16), (9, (30, 32), 57, 64), (10, (49, 54), 33, 40),
   (11, (49, 55), 17, 32), (12, (46, 47), 49, 56), (13, (25, 26), 33, 40), (14, (25, 26), 49, 56), (15, (25, 26), 41, 48)]

/-- The rail of a ball: within a rectangle, where row and column add up to an even number (R466). -/
def supplyAt (r c : Nat) : Option Nat :=
  if (r + c) % 2 ≠ 0 then none
  else (supplyAreas.find? fun x => decide (x.2.1.1 ≤ r) && decide (r ≤ x.2.1.2) && decide (x.2.2.1 ≤ c) && decide (c ≤ x.2.2.2)).map (·.1)

/-- What stands on a ball. -/
def ballAt (r c : Nat) : Ball :=
  match signalBalls.find? fun x => x.1 == (r, c) with
  | some x => .signal x.2
  | none => match supplyAt r c with
    | some i => .supply i
    | none => .vss

/-- What a ball does (R467): an output that floats or is driven; an input without or with its termination, or not read. -/
inductive BallState where
  | floats | driven | unterminated | terminated | highImpedance | ignored | low | high | released | active
  deriving DecidableEq, Repr

/-- What the boundary register does at a signal ball (R439): it drives the outputs of the lanes, of PCIe, of Turuid, SMBus, PPS, INT_N and the
ACT balls, only observes the clocks, and does not cover the converters' balls, nor those the table does not name. -/
inductive Coverage where
  | drive | observe | uncovered
  deriving DecidableEq, Repr

def Signal.coverage : Signal → Coverage
  | .laneTx _ _ | .pcieTx _ _ | .tuClk _ | .tuFrm _ | .tuDout _ | .cvAct _ | .ppsOut | .intN | .smbScl | .smbSda => .drive
  | .laneRx _ _ | .pcieRx _ _ | .tuDin _ | .ppsIn | .smbAddr _ | .refclk _ | .pcieRefclk _ => .observe
  | _ => .uncovered

/-- The behaviour of a signal ball in a state of the device (R404, R427, R467) under an instruction of the TAP that leaves the balls to the
device. -/
def Dev.ballFree (d : Dev) (s : Signal) : BallState :=
  let on (c : Nat) : Bool := !d.inReset && d.cordOn c
  match s with
  | .laneTx l _ => if on (hsCord l) then .driven else .floats
  | .laneRx l _ => if on (hsCord l) then .terminated else .unterminated
  | .adc w _ _ => if on (4 + w) then .terminated else .highImpedance
  | .dac w _ _ | .tuClk w | .tuFrm w | .tuDout w => if on (4 + w) then .driven else .floats
  | .tuDin w => if on (4 + w) then .active else .ignored
  | .cvAct w => if d.cvAct w then .high else .low
  | .pcieTx _ _ => if d.inReset then .floats else .driven
  | .pcieRx _ _ => if d.inReset then .unterminated else .terminated
  | .ppsOut => if !d.inReset && d.time.ppsOut then .high else .low
  | .intN => if !d.inReset && d.intLow then .low else .released
  | .smbScl | .smbSda => if d.inReset then .released else .active
  | .refclk _ | .pcieRefclk _ | .resetN | .pciePerstN | .testEn | .ppsIn | .tck | .tms | .tdi | .tdo | .trstN | .smbAddr _ | .vsense _ | .vssense _ =>
    .active

/-- The behaviour of a signal ball (R439, R467): EXTEST, its two AC forms and CLAMP drive the covered outputs from the boundary register, and
HIGHZ lets them float, as IEEE 1149.1 has it (PRESUMED, log 87). -/
def Dev.ballState (d : Dev) (s : Signal) : BallState :=
  match d.tap, s.coverage with
  | .extest, .drive | .extestPulse, .drive | .extestTrain, .drive | .clamp, .drive => .driven
  | .highz, .drive => .floats
  | _, _ => d.ballFree s

end Sys2Proof.Machine
end

