-- ==== Sys2Proof/Machine/Symbols.lean ====
section
/-!
DEFINITION. The symbols on the line: what the cells, headers and bursts of the outputs are as symbols (R73 to R78, R103 to R106,
R109, R113 to R116, R155 to R157). The commands carry cells and headers; these functions say which symbols stand for them.
-/

namespace Sys2Proof.Machine

/-- Four times the mean energy E of a profile (R73). -/
def energy4 (code : Nat) : Nat :=
  let r := (code - 1) % 8
  if code = 0 then 8 else match (code - 1) / 8 with
    | 0 => 8 + 2 * r
    | 1 => 24 + 2 * r
    | 2 => 40 + 5 * r
    | _ => 80 + 11 * r

/-- Line bits of a group of 8 symbols, 16 × H (R74). -/
def groupBits (code : Nat) : Nat := 32 + 2 * (code - 1)

/-- The pilots of a line frame, or of a burst's payload region (R105, R157). -/
def pilotSyms (n : Nat) : List Sym := seqSyms (awBits (4 * n) 0x07FF)

/-- Header symbols: two bits each, the same on both polarisations (R106, R156). -/
def headerSyms : List Bool → List Sym
  | a :: b :: t => ⟨(signOf a, signOf b), (signOf a, signOf b), 8⟩ :: headerSyms t
  | _ => []

/-- Line bits as payload symbols, a group at a time (R74 to R77). -/
def payloadSyms (code : Nat) : Nat → List Bool → List Sym
  | 0, _ => []
  | n + 1, bits => (mapGroup code (bits.take (groupBits code))).map (fun p => ⟨p.1, p.2, energy4 code⟩) ++
      payloadSyms code n (bits.drop (groupBits code))

/-- A FEC block of 14,196 information bits: BCH, then LDPC (R113). -/
def fecBlockBits (info : List Bool) : List Bool := ldpcEncode (bchEncode info)

/-- `n` FEC blocks over a stream of information bits, zero beyond its end (R113, R157). -/
def fecBits : Nat → List Bool → List Bool
  | 0, _ => []
  | n + 1, info => fecBlockBits ((info.take 14196) ++ List.replicate (14196 - info.length) false) ++ fecBits n (info.drop 14196)

/-- The bits of cells, byte 0 of each first and the most significant bit of a byte first (R5, R120). -/
def cellBits (cells : List (List Byte)) : List Bool := cells.flatMap bitsOfBytes

/-- The symbol at a position of a line frame (R103). -/
def frameSymbol (word header pilots payload : List Sym) (p : Nat) : Option Sym :=
  let i := p - p / 64
  if p % 64 = 63 then pilots[p / 64]? else if i < 128 then word[i]? else if i < 256 then header[i - 128]? else payload[i - 256]?

/-- A line frame of subcarrier `sc`: its 256 header bits, and the line bits of its payload before the scrambler (R103 to R109). -/
def lineFrame (sc code : Nat) (beacon : Bool) (header : Nat) (bits : List Bool) : List (Option Sym) :=
  (List.range 128000).map (frameSymbol (alignmentWord beacon) (headerSyms (bitsOf 256 header)) (pilotSyms 2000)
    (payloadSyms code 15718 (scramble (scrambleSeed sc) bits)))

/-- A cell of the outputs, where it is one of a subcarrier's stream (R119, R123). -/
def Dev.cellOn (d : Dev) (w sc : Nat) : Output → Option (List Byte)
  | .lineCell x g n bytes =>
    if x = w ∧ d.txGroupOf w sc = some g ∧ memberOf (d.grp w g).txMask n = sc then some bytes else none
  | _ => none

/-- The payload line bits of the line frame in progress: the subcarrier's FEC blocks follow one another over the cells of its stream
and across line frames (R113). -/
def Dev.frameLineBits (d : Dev) (w sc : Nat) (cells : List (List Byte)) : List Bool :=
  let at_ := (d.sc w sc).txBits
  let n := frameBits ((d.wave w).code 1 sc)
  ((fecBits ((at_ + n + 16383) / 16384) (cellBits cells)).drop at_).take n

/-- The cells of a subcarrier in no transmit group, from its stream's start to the line frame in progress: idle, numbered on (R119, R120,
R170; the model's choice, log 77). -/
def Dev.looseCells (d : Dev) (w sc : Nat) : List (List Byte) :=
  let n := (d.sc w sc).txBits + frameBits ((d.wave w).code 1 sc)
  (List.range ((n + 16383) / 16384 * 14196 / 2048 + 1)).map fun i => buildCell 0 0 i 0 []

/-- The line frame a wavelength sends on a subcarrier, `cells` being those of its stream from the start on, oldest first: in leaf mode
nothing on one outside the transmit set, in point-to-point mode on all 32 (R82, R106, R113, R170). -/
def Dev.lineFrame (d : Dev) (w sc : Nat) (cells : List (List Byte)) : List (Option Sym) :=
  if (d.sendScs w).testBit sc then
    let h := d.txHeader w sc
    Sys2Proof.Machine.lineFrame sc h.prof false (buildHeader h)
      (d.frameLineBits w sc (if (d.txGroupOf w sc).isSome then cells else d.looseCells w sc))
  else List.replicate 128000 none

/-- The line bits of a burst's payload region: its FEC blocks, zero bits after them (R157). -/
def burstBits (sc total nblk : Nat) (cells : List (List Byte)) : List Bool :=
  scramble (scrambleSeed sc) ((fecBits nblk (cellBits cells) ++ List.replicate total false).take total)

/-- The payload region of a burst of `len` slots: pilots, payload symbols in order, filler symbols (R157). -/
def burstPayload (sc code len nblk : Nat) (cells : List (List Byte)) : List (Option Sym) :=
  let p := (len - 1) * 1000
  let groups := (p - p / 64) / 8
  let pay := payloadSyms code groups (burstBits sc (groups * groupBits code) nblk cells)
  (List.range p).map fun q =>
    if q % 64 = 63 then (pilotSyms (p / 64))[q / 64]?
    else some ((pay[q - q / 64]?).getD ⟨(1, 1), (1, 1), 8⟩)

/-- A burst of `len` slots: null for 32 symbols, the ramp-up, preamble, sync word, header, payload region, and the repetition
under the ramp-down; none where the output is at null (R155, R156). -/
def burstSymbols (sc code len nblk : Nat) (header : BitVec 176) (cells : List (List Byte)) : List (Option Sym) :=
  let pre := (seqSyms (awBits 2880 0x0199)).map some
  let body := pre ++ (seqSyms (awBits 512 0x0666)).map some ++ (headerSyms (bitsOf 176 header.toNat)).map some ++
    burstPayload sc code len nblk cells
  List.replicate 32 none ++ pre.drop 688 ++ body ++ body.drop (body.length - 32)

/-- The symbols of a burst among the outputs: subcarrier, length, profile and blocks stand in the grant and the header. -/
def Output.symbols (len : Nat) : Output → List (Option Sym)
  | .burst _ sc hdr cells =>
    burstSymbols sc (hdr.toNat / 2 ^ 148 % 256) len (hdr.toNat / 2 ^ 136 % 1024) hdr cells
  | _ => []

end Sys2Proof.Machine
end

