-- ==== Sys2Proof/Machine/Samples.lean ====
section
/-!
DEFINITION. The waveform of the transmit chain's stages 3 to 6: R70, R80 to R83, R85, R86 and R88 of 03_line_transmit. What a DAC
channel puts out is a function of the symbols and the settings in use, over the real numbers; no register shows a sample. Log 73 names what
the chapter leaves open here.
-/

namespace Sys2Proof.Machine

open Real

/-- The centre of subcarrier `k` from the carrier, in cycles per symbol of 1/7.8125 GHz (R44, R80). -/
noncomputable def subCentre (spacing k : Nat) : ℝ := ((k : ℝ) - 31 / 2) * (1 + (spacing : ℝ) / 256)

/-- The weight of the pulse over its span of 48 symbols. An unweighted cut is only 27 dB down where R81 asks for 35 dB; with this one
the shaped spectrum is more than 40 dB down there at every roll-off from 0.01 to 0.20 (log 73). -/
noncomputable def spanWeight (t : ℝ) : ℝ := if 24 < |t| then 0 else 13 / 20 + 7 / 20 * cos (π * t / 24)

/-- The root-raised-cosine pulse of roll-off `b` at `t` symbols. -/
noncomputable def rrcPulse (b t : ℝ) : ℝ :=
  if t = 0 then 1 - b + 4 * b / π
  else if |t| = 1 / (4 * b) then b / √2 * ((1 + 2 / π) * sin (π / (4 * b)) + (1 - 2 / π) * cos (π / (4 * b)))
  else (sin (π * t * (1 - b)) + 4 * b * t * cos (π * t * (1 + b))) / (π * t * (1 - (4 * b * t) ^ 2))

/-- The shaping filter of roll-off `b` at `t` symbols (R81). -/
noncomputable def shapingPulse (b t : ℝ) : ℝ := spanWeight t * rrcPulse b t

/-- An amplitude of `x` steps of `1/n` dB. -/
noncomputable def ofDb (n : ℝ) (x : ℝ) : ℝ := (10 : ℝ) ^ (x / (20 * n))

/-- The raised-cosine rise over the 32 symbols from 0 on (R88). -/
noncomputable def rampUp (t : ℝ) : ℝ := if t < 0 then 0 else if t < 32 then (1 - cos (π * t / 32)) / 2 else 1

/-- The envelope of a burst of `n` symbols: 32 at null, the ramp-up, the burst, and the ramp-down in its last 32 (R88, R155). -/
noncomputable def burstEnvelope (n : Nat) (t : ℝ) : ℝ := rampUp (t - 32) * rampUp (n - t)

/-- The envelope of a line frame, after null or before it (R88). -/
noncomputable def frameEnvelope (afterNull beforeNull : Bool) (t : ℝ) : ℝ :=
  (if afterNull then rampUp t else 1) * (if beforeNull then rampUp (128000 - t) else 1)

/-- A coordinate pair divided by the root of the mean energy it is scaled by (R77). -/
noncomputable def unitEnergy (e4 : Nat) (p : Int × Int) : ℂ := ⟨(p.1 : ℝ) / √((e4 : ℝ) / 4), (p.2 : ℝ) / √((e4 : ℝ) / 4)⟩

/-- One polarisation of symbols, shaped, at `t` symbols from the first (R77, R81). -/
noncomputable def shaped (b : ℝ) (y : Bool) (syms : List (Option Sym)) (t : ℝ) : ℂ :=
  (syms.zipIdx.map fun x => match x.1 with
    | some s => (shapingPulse b (t - x.2) : ℂ) * unitEnergy s.e4 (if y then s.y else s.x)
    | none => 0).sum

/-- A subcarrier in the composite: its gain, envelope and centre (R80 to R82, R88). -/
noncomputable def Dev.subWave (d : Dev) (e k : Nat) (y : Bool) (env : ℝ → ℝ) (syms : List (Option Sym)) (t : ℝ) : ℂ :=
  (ofDb 10 (d.inUseInt e (F.leTxsShapeGain e k)) * env t : ℝ) * shaped ((d.inUse e (F.leTxsShapeRolloff e k) : ℝ) / 100) y syms t *
    Complex.exp (2 * π * subCentre (d.get (F.leTxcCfgSpacing e)) k * t * Complex.I)

/-- The composite of 32 subcarriers, each with its envelope and symbols (R80). -/
noncomputable def Dev.composite (d : Dev) (e : Nat) (y : Bool) (subs : Nat → (ℝ → ℝ) × List (Option Sym)) (t : ℝ) : ℂ :=
  ((List.range 32).map fun k => d.subWave e k y (subs k).1 (subs k).2 t).sum

/-- The response of stage 4, in samples: bin `b` of 625 MHz attenuated by ATT steps of 0.25 dB (R83). -/
noncomputable def Dev.maskResponse (d : Dev) (e : Nat) (n : ℝ) : ℂ :=
  ((List.range 512).map fun b => (ofDb 4 (-(d.inUse e (F.leTxmBinAtt e b) : ℝ)) / 512 * sinc (π * n / 512) : ℝ) *
    Complex.exp (2 * π * ((b : ℝ) - 511 / 2) * n / 512 * Complex.I)).sum

/-- Symbols a sample: 7.8125 GHz over 320 GSa/s. -/
noncomputable def symsPerSample : ℝ := 25 / 1024

/-- The composite behind the mask at `n` samples (R83). -/
noncomputable def Dev.masked (d : Dev) (e : Nat) (y : Bool) (subs : Nat → (ℝ → ℝ) × List (Option Sym)) (n : ℝ) : ℂ :=
  ∑' m : ℤ, d.composite e y subs (m * symsPerSample) * d.maskResponse e (n - m)

/-- The scaled composite on DAC channel `c` in codes: I and Q of X, then of Y; all 32 subcarriers at GAIN 0 have an RMS of 4 there
(R85). -/
noncomputable def Dev.scaled (d : Dev) (e c : Nat) (subs : Nat → (ℝ → ℝ) × List (Option Sym)) (n : ℝ) : ℝ :=
  let z := d.masked e (decide (2 ≤ c)) subs n
  128 * ofDb 4 (-(d.get (F.leTxcCfgOutlvl e) : ℝ)) / 4 * (if c % 2 = 0 then z.re else z.im)

/-- What a DAC channel of a wavelength puts out at sample `n` before its rounding to a code: the FIR over samples delayed by the deskew,
saturated (R85, R86). -/
noncomputable def Dev.dacLevel (d : Dev) (w e c : Nat) (subs : Nat → (ℝ → ℝ) × List (Option Sym)) (n : ℤ) : ℝ :=
  let y := ((d.taps e c).zipIdx.map fun t =>
    (t.1 : ℝ) / 1024 * d.scaled e c subs (n - t.2 - (d.get (F.cvDacDeskewDeskew w c) : ℝ) / 64)).sum
  max (-128) (min 127 y)

end Sys2Proof.Machine
end

