-- ==== Sys2Proof/WellFormed.lean ====
section
/-!
DEFINITION. What a well-formed command is: the bounds the spec puts on an operand that the operand's type does not
carry. A meaning answers for every operand; these checks say which of them the surroundings can send.
-/

namespace Sys2Proof

/-- A grant's fields fit the six bytes of a grant in GRANT_MAP (R139): 12 bits of TID, 5 of SC, 10 of START and of LEN. -/
def GrantIn.wf (g : GrantIn) : Bool := decide (g.tid < 4096) && decide (g.sc < 32) && decide (g.start < 1024) && decide (g.len < 1024)

/-- The bounds of a command's operands. -/
def Instr.wf : Instr → Bool
  | .deviceReset ns => !(decide (1500 < ns) && decide (ns < 2500))
  | .registerWrite _ size _ => decide (1 ≤ size)
  | .rcFieldRead _ size => decide (1 ≤ size)
  | .adcClip _ _ clips => decide (clips ≤ 2 ^ 20)
  | .llrSat _ _ labels => labels.all (·.length == 6)
  | .maskCheck _ power => power.length == 512
  | .txDacClip _ _ xs => xs.length == 2 ^ 20
  | .frameHeaderRx _ _ llrs => llrs.length == 256
  | .fecBlockDecode _ _ _ a b => a.length == 16384 && (match b with
      | some l => l.length == 16384
      | none => true)
  | .cellRx _ _ k _ cell => decide (k < 1024) && cell.length == 256
  | .tagRx _ _ k cell _ => decide (k < 1024) && cell.length == 256
  | .grantMap _ _ gs => gs.all GrantIn.wf
  | .profileChange _ _ _ _ _ _ _ codes => codes.length == 32
  | .engineFault _ cause other _ =>
    let ok (c : Fin 8) : Bool := decide (1 ≤ c.val) && decide (c.val ≤ 5)
    ok cause && (match other with
      | some p => ok p.2
      | none => true)
  | .sliceProcess _ rules slots => rules.all (decide <| · < 24576) && slots.all (decide <| · < 2 ^ 21)
  | .insert _ slots | .delete _ slots | .lookup _ slots | .readidx _ slots | .writeidx _ slots | .cad _ slots
  | .agerPassEnd slots | .learnRequest slots => slots.all (decide <| · < 2 ^ 21)
  | .bufferFree _ agent => decide (agent < 64)
  | .pcieLinkUp speed width => decide (1 ≤ speed) && decide (speed ≤ 5) && [1, 2, 4, 8].contains width
  | .txgFetch _ words _ => words.length == 8
  | .sensorRead _ t => decide (-2048 ≤ t) && decide (t < 2048)
  | .railSample _ mv => mv.length == 8
  | .clockMonitor m _ => decide (2 ≤ m.val)
  | .smbBlockWrite _ bytes _ => decide (4 ≤ bytes.length) && decide (bytes.length ≤ 252)
  | .deviceBringup .. | .powerLoss .. | .refclkValid .. | .refclkLost .. | .rootLock .. | .rootUnlock .. => true
  | .aerrRead .. | .timNsRead .. | .groupFirstRead .. | .accessWake .. | .cordReady .. | .wakeTimeout .. => true
  | .coldEngineIdleOff .. | .rxLos .. | .losClear .. | .acquisitionStart .. | .cdScanDone .. | .cfoAcqDone .. => true
  | .cfoAcqFail .. | .ncoRange .. | .timingLock .. | .trUnlock .. | .eqConverged .. | .phaseLock .. => true
  | .crUnlock .. | .crSlip .. | .eqSingular .. | .cdDrift .. | .acqTimeout .. | .laserLoopDecision .. => true
  | .decodeSetChange .. | .qualLatch .. | .eqSopRate .. | .txProfileApply .. | .unmute .. | .groupResume .. => true
  | .trdGo .. | .turuidCommandStart .. | .turuidReply .. | .turuidTimeout .. | .turuidHeartbeat .. | .alignmentTest .. => true
  | .pmSecond .. | .pmCommit .. | .pmClear .. | .reassemblyTimeout .. => true
  | .cellTx .. | .discover .. | .assignId .. | .range .. | .keySwitch .. | .timeOfDay .. => true
  | .silence .. | .silenceExpiry .. | .release .. | .ack .. | .ackResend .. | .prfReqGo .. => true
  | .prfProposalExpire .. | .kswGo .. | .todSend .. | .disctoExpiry .. | .idtoExpiry .. | .rngtoExpiry .. => true
  | .losttoExpiry .. | .blosstoExpiry .. | .burstStart .. | .burstEnd .. | .txPolice .. | .resume .. => true
  | .deact .. | .sealGroup .. | .urgentPair .. | .keySwitchApply .. | .haltResume .. | .keyLoad .. => true
  | .keyErase .. | .cryClrflt .. | .takeoverGapEnd .. | .sprGapLimit .. | .snapshotWrite .. | .repairSelfTestDone .. => true
  | .seasonPassDone .. | .seasoningDone .. | .revertStart .. | .revertMove .. | .revertTimeout .. | .restore .. => true
  | .spareSelfTest .. | .spareTestDone .. | .switch .. | .force .. | .revertNow .. | .retire .. => true
  | .unretire .. | .packetArrival .. | .templateCommit .. | .clsWrite .. | .clsRead .. | .clsInvalidate .. => true
  | .clsReadclr .. | .ageStep .. | .epochAdvance .. | .holdExpire .. => true
  | .queueEnqueue .. | .bufferReclaim .. | .schedulerSelect .. | .sweeperVisit .. | .shaperRefill .. | .samplerLatch .. => true
  | .samplerRead .. | .qmFlush .. | .qFlushDone .. | .macFrameRx .. | .pauseFrameRx .. | .pauseTimerExpire .. => true
  | .macFrameTx .. | .pauseXoff .. | .pauseRepeat .. | .pauseXon .. | .gclCommit .. | .macGclSwitch .. => true
  | .gclCancel .. | .gateEntryChange .. | .macLinkUp .. | .macLinkDown .. | .lpiEnter .. | .lpiExit .. => true
  | .macPark .. | .portUnpark .. | .macTinderWake .. | .txtsPop .. | .lnDetect .. | .autonegDone .. => true
  | .trainingRequest .. | .trainingDone .. | .lnTrainTo .. | .symbolLock .. | .lnLockTo .. | .kindlingFrameRx .. => true
  | .lnCapTo .. | .retryExpire .. | .lnRemoved .. | .lnLockLost .. | .eyeMeasure .. | .lnFecUncorr .. => true
  | .laneFecSecond .. | .loopMode .. | .prbsControl .. | .lnPrbsErr .. | .pciLinkDown .. | .pciePerst .. => true
  | .ringTailWrite .. | .ringEnable .. | .ringDisable .. | .ringFlush .. | .pciFlushDone .. | .ringIrqEnable .. => true
  | .rxgPacket .. | .rxgFrameWrite .. | .rxgTimeout .. | .txgFrameSubmit .. | .txgTimeout .. | .pciRingPtr .. => true
  | .pciDmaErr .. | .timeWrap .. | .timeStep .. | .superframeStamp .. | .ppsIn .. | .ppsInLoss .. => true
  | .ppsOutRise .. | .ppsOutFall .. | .bootSelection .. | .activate .. | .reload .. | .resolve .. => true
  | .drainComplete .. | .drainTimeout .. | .pktSlicePairEmpty .. | .spreadEntryReturn .. | .powerRequest .. | .cordOn .. => true
  | .cordOff .. | .cordClear .. | .dozeSearchStep .. | .info .. | .rd .. | .wr0 .. => true
  | .wr .. | .wrm .. | .wrn .. | .mbxUnknownOpcode .. | .updBegin .. | .updData .. => true
  | .updEnd .. | .updAbort .. | .updSessionTimeout .. | .fwActivate .. | .cfg .. | .logRead .. => true
  | .logNote .. | .logInfo .. | .smbBlockRead .. | .smbReadByte .. | .watchdogRestart .. | .thermTrip .. => true
  | .tripClear .. | .eventStatClear .. | .eventMsienEnable .. | .msixHeldSend .. | .ashLogEntry .. | .fiArm .. => true
  | .fiDisarm .. | .fiKill .. | .fiUnit .. | .fiHoldTo .. | .tapActive .. | .tapInstruction .. => true
  | .keyRevoke .. | .snapshotLoaded .. | .flt24Expiry .. | .correctableEccError .. | .prbsCheckerLock .. | .receiverLpi .. => true
  | .configurationRequest .. | .msixTableWrite .. => true

end Sys2Proof
end

