-- ==== Sys2Proof/Tests/Slice0.lean ====
section
/-!
SUPPORT. Tests of the model on small states: for each statement a witness of the hypotheses of each of its clauses
(witness_<statement>), ill-formed commands, and worked
examples of the spec.
-/

namespace Sys2Proof.Tests

open Sys2Proof.Machine

set_option Elab.async false
set_option linter.unusedVariables false

/-- The device after reset with fields set. -/
def withFields (l : List (Fld × Nat)) : Dev := l.foldl (fun d p => d.set p.1 p.2) State.reset.dev

/-- Registers of a device out of reset: the link up (EP_STAT), every cord released (PWR_CORD), every group at basic level
(CTLLVL), the firmware running (HST_STAT), the root locked and the reference good (CLK_STAT), boot selection done. -/
def liveRegs : Tbl Word :=
  [(65536, 3), (262144, 0xF00), (262164, 0x3FF), (327940, 0x1403), (327944, 0x1403), (327948, 0x1403), (327952, 0x1403),
    (327956, 0x1403), (327960, 0x1403), (327964, 0x1403), (327968, 0x1403), (327972, 0x1403), (327976, 0x1403),
    (327980, 0x1403), (327984, 0x1403), (458752, 1), (201326592, 0x100)]

/-- A device with `liveRegs`, and fields set. -/
def live (l : List (Fld × Nat)) : Dev :=
  l.foldl (fun d p => d.set p.1 p.2) { State.reset.dev with regs := liveRegs, inReset := false }

/-- `liveRegs` are the fields its docstring names, set after reset. -/
theorem test_liveRegs : (withFields ((List.range 12).map (fun c => (F.hrtPwrCordSt (c + 1), 3))
      ++ [(F.pciEpStatDlup, 1), (F.hrtCfgCtllvlExpert, 0xFFFF), (F.hrtCfgStatBootpend, 0), (F.hrtHstStatFwrun, 1),
        (F.hrtHstStatRecovery, 0), (F.hrtClkStatRootlock, 1), (F.hrtClkStatRefok, 1)])).regs = liveRegs := by decide +kernel

/-- The state with a device. -/
def st (d : Dev) : State := { State.reset with dev := d }

/-- `Dev.Answers` as a test. -/
def answersB (d : Dev) (a : Nat) : Bool :=
  d.waiting.isEmpty && d.cordSt 12 != 0 && d.get F.pciEpStatDlup == 1 && d.pathCode a 4 == 0 && (d.cordSt (cordOf a) == 2 || d.cordSt (cordOf a) == 3)

/-- `Dev.Takes` as a test. -/
def takesB (d : Dev) (a : Nat) (v : Word) : Bool :=
  answersB d a && match decodeAddr a with | some r => d.writeCode a r v true == 0 | none => false

theorem answers_of {d : Dev} {a : Nat} (h : answersB d a = true) : d.Answers a := by
  simpa [answersB, Dev.Answers, and_assoc] using h

theorem takes_of {d : Dev} {a : Nat} {v : Word} (h : takesB d a v = true) : d.Takes a v := by
  simp only [takesB, Bool.and_eq_true] at h
  obtain ⟨h1, h2⟩ := h
  obtain ⟨a1, a2, a3, a4, a5⟩ := answers_of h1
  refine ⟨a1, a2, a3, a4, a5, ?_⟩
  split at h2
  · exact ⟨_, by assumption, by simpa using h2⟩
  · cases h2

theorem of_lt {p : Nat → Prop} {a b : Nat} (h : ∀ j < b, a ≤ j → p j) : ∀ j, a ≤ j → j < b → p j :=
  fun j h1 h2 => h j h2 h1

theorem of_le {p : Nat → Prop} {a b : Nat} (h : ∀ j < b + 1, a ≤ j → p j) : ∀ j, a ≤ j → j ≤ b → p j :=
  fun j h1 h2 => h j (Nat.lt_succ_of_le h2) h1


theorem getD_replicate {α : Type} (a : α) : ∀ n c, (List.replicate n a).getD c a = a
  | 0, _ => rfl
  | _ + 1, 0 => rfl
  | n + 1, c + 1 => getD_replicate a n c

theorem limits_under {d : Dev} {e : Nat} {n : Nat → Nat} :
    ∀ c < 512, d.get (F.leTxmBinLimit e c) ≤ min 255 (((List.replicate 512 (255 : Byte)).getD c 255).toNat + n c) := by
  intro c _
  rw [getD_replicate]
  have h : d.get (F.leTxmBinLimit e c) < 256 := Nat.mod_lt _ (Nat.two_pow_pos 8)
  exact Nat.le_min.2 ⟨by omega, Nat.le_trans (by omega : _ ≤ 255) (Nat.le_add_right 255 _)⟩

/-- `Dev.NextCell` as a test. -/
def nextCellB (d : Dev) (w g sc k : Nat) : Bool :=
  decide (d.rxGroup w sc = some g ∧ d.get (F.lfGrpStatState w g) = 2 ∧ d.lineOk w = true ∧ (d.wave w).gap = false ∧ (d.grp w g).held = []
    ∧ (d.sc w sc).encOk = true ∧ (d.sc w sc).kex = false ∧ d.get (fiF (96 + 32 * w + sc) 0x14 0 1) = 0 ∧ (d.inj (96 + 32 * w + sc)).held = none)
  && match (d.grp w g).next with
    | some (f, i) => decide (i = d.cellIndex w g sc k ∧ placeLt ((d.sc w sc).frameNo, i) (f, i) = false)
    | none => false

theorem nextCell_of {d : Dev} {w g sc k : Nat} (h : nextCellB d w g sc k = true) : d.NextCell w g sc k := by
  simp only [nextCellB, Bool.and_eq_true, decide_eq_true_eq] at h
  obtain ⟨⟨h1, h2, h3, h4, h5, h6, h7, h8, h9⟩, hn⟩ := h
  split at hn
  · next f i hf =>
    obtain ⟨rfl, hp⟩ := of_decide_eq_true hn
    exact ⟨h1, h2, h3, h4, h5, h6, h7, ⟨h8, h9⟩, f, hf, hp⟩
  · cases hn

/-- `Dev.RuleDecides` as a test. -/
def ruleDecidesB (d : Dev) (n : Nat) (p : Pkt) (rest : List Pkt) (k act : Nat) : Bool :=
  let prof := d.get (F.pktPrsSrcProf p.src)
  let t0 := d.templateOf prof p
  decide (d.trafficOk 8 = true ∧ Tbl.get [] d.pkt.stores n = p :: rest ∧ d.parseCheck t0 p = 0 ∧ 96 ≤ p.src ∧ d.destHit t0 p = none
    ∧ p.mal = false ∧ p.nest = false ∧ p.emhit = false ∧ p.emcls = 0 ∧ d.firstMatch (d.classKey t0 prof p) = some (k, false)
    ∧ (d.rule k).act = act)

theorem ruleDecides_of {d : Dev} {n : Nat} {p : Pkt} {rest : List Pkt} {k act : Nat} (h : ruleDecidesB d n p rest k act = true) :
    d.RuleDecides n p rest k act := by
  obtain ⟨h1, h2, h3, h4⟩ := of_decide_eq_true h
  exact ⟨_, _, ⟨h1, h2, rfl, rfl, h3⟩, h4⟩


/-- The signs of the 128 symbols of an alignment word. -/
def wordSigns (beacon : Bool) : BitVec 512 := BitVec.ofNat 512 (ofBits (awBits 512 (if beacon then 0x02D3 else 0x05A5)))

/-- The LLRs of the two copies of a header. -/
def hdrLlrs (b : Nat) : List (Int × Int) := (bitsOf 256 b).map fun z => if z then (-5, 3) else (5, -3)

/-- Engine 2, its subcarriers 0 and 31 aligned. -/
def hearing : Tbl Engine := [(2, { align := [(0, some ⟨5, 0, 0, false⟩), (31, some ⟨5, 0, 0, false⟩)] })]

/-- MRAM contents from runs of bytes. -/
def mramOf (l : List (Nat × List Nat)) : Tbl Byte :=
  (l.flatMap fun x => x.2.zipIdx.map fun b => (x.1 + b.2, BitVec.ofNat 8 b.1)).filter fun x => x.2 != 0

/-- A configuration image of 1,128 bytes in slot A, built by the layout of R362 to R366: SEQ 5, one section with the three
records HRT needs, SSEQ 7 for cord PKT; signed with a key whose hash `keyFuses` holds. -/
def imageMram : Tbl Byte := mramOf
  [(0, [81, 76, 82, 67, 0, 1, 1, 0, 150, 36, 0, 177, 0, 0, 0, 5, 0, 0, 4, 104, 0, 0, 1]), (27, [13, 0, 0, 3, 160]),
    (252, [62, 169, 233, 12, 0, 0, 2, 160, 0, 0, 0, 68, 165, 90, 128, 223, 0, 0, 0, 1, 0, 0, 0, 3]), (527, [7]), (672,
    [1, 0, 0, 8]), (680, [1, 1, 0, 8, 0, 1, 2, 0, 1, 2, 0, 52, 0, 0, 0, 50, 0, 0, 0, 50, 0, 0, 0, 50, 0, 0, 0, 50, 0,
    0, 0, 50, 0, 0, 0, 50, 0, 0, 0, 50, 0, 0, 0, 50, 0, 0, 0, 50, 0, 0, 0, 50, 0, 0, 0, 50, 0, 0, 0, 50]), (929, [1, 0,
    0, 4, 188, 53, 171, 135, 79, 86, 88, 225, 129, 159, 143, 68, 198, 149, 186, 9, 247, 22, 224, 125, 128, 19, 214,
    130, 48, 211, 57, 8, 23, 34, 5, 155, 135, 83, 41, 82, 78, 205, 218, 247, 250, 66, 80, 67, 142, 22, 204, 92, 85,
    146, 157, 213, 208, 100, 83, 188, 87, 133, 22, 71, 101, 41, 166, 53, 210, 23, 122, 39, 21, 200, 139, 161, 218, 210,
    124, 14, 104, 225, 230, 196, 194, 87, 147, 35, 242, 86, 67, 201, 76, 158, 23, 192, 71, 208, 189, 189, 0, 0, 0, 35,
    120, 53, 175, 17, 165, 221, 129, 164, 123, 31, 254, 5, 226, 98, 203, 97, 241, 41, 179, 76, 169, 214, 96, 118, 32,
    99, 74, 67, 124, 225, 68, 200, 52, 157, 131, 110, 36, 235, 144, 171, 150, 244, 44, 6, 32, 177, 28, 253, 165, 6, 49,
    202, 208, 123, 172, 17, 134, 91, 249, 48, 40, 253, 168, 177, 121, 45, 210, 85, 39, 12, 85, 43, 72, 42, 21, 234,
    227, 20, 164, 182, 44, 122, 209, 146, 194, 148, 114, 173, 100, 11, 43, 94, 203, 106, 6])]

/-- Fuses of an unprogrammed device but for the key hash of slot 0. -/
def keyFuses : Fuses := { State.reset.fuses with khash := [[
  168, 17, 58, 149, 173, 189, 95, 3, 248, 207, 217, 183, 253, 38, 11, 249, 65, 129, 165, 151, 81, 196, 7, 10, 52, 79,
    201, 254, 181, 1, 54, 189, 29, 198, 112, 108, 99, 187, 74, 176, 155, 114, 200, 122, 61, 175, 147, 160],
    List.replicate 48 0, List.replicate 48 0, List.replicate 48 0] }

/-- The sections of that image. -/
def imageSecs : List Sec :=
  ⟨1, 2774171871, [.ctllevel 0, .engmap 0 1 2, .cordpol (List.replicate 12 (0, 50))]⟩ :: List.replicate 7 ({} : Sec) ++ [{ sseq
    := 7 }]
    ++ List.replicate 4 ({} : Sec)

/-- A firmware image of 1,024 bytes in slot FWA, built by the layout of R408: SEQ 9, FWVER 0x10203, signed with that key. -/
def firmMram : Tbl Byte := mramOf
  [(58720256, [81, 76, 70, 87, 0, 1, 1, 0, 150, 36, 0, 177, 0, 0, 0, 9, 0, 0, 4, 0, 0, 0, 3, 56, 0, 1, 2, 3]),
    (58720508, [74, 44, 165, 156]), (58721081, [1, 0, 0, 4, 188, 53, 171, 135, 79, 86, 88, 225, 129, 159, 143, 68, 198,
    149, 186, 9, 247, 22, 224, 125, 128, 19, 214, 130, 48, 211, 57, 8, 23, 34, 5, 155, 135, 83, 41, 82, 78, 205, 218,
    247, 250, 66, 80, 67, 142, 22, 204, 92, 85, 146, 157, 213, 208, 100, 83, 188, 87, 133, 22, 71, 101, 41, 166, 53,
    210, 23, 122, 39, 21, 200, 139, 161, 218, 210, 124, 14, 104, 225, 230, 196, 194, 87, 147, 35, 242, 86, 67, 201, 76,
    158, 23, 192, 71, 208, 189, 189, 0, 0, 0, 105, 155, 27, 200, 218, 27, 222, 247, 186, 130, 72, 78, 164, 35, 29, 125,
    189, 16, 156, 25, 230, 39, 210, 168, 76, 55, 194, 104, 204, 25, 242, 146, 20, 230, 244, 238, 152, 173, 168, 239,
    255, 223, 183, 169, 131, 191, 91, 50, 76, 186, 23, 200, 210, 7, 105, 25, 115, 238, 179, 252, 53, 58, 41, 119, 143,
    50, 187, 60, 250, 64, 85, 135, 183, 231, 48, 175, 126, 157, 45, 92, 252, 33, 51, 194, 115, 99, 229, 245, 59, 182,
    191, 155, 35, 83, 81, 190])]

/-- A device whose MRAM holds that configuration image. -/
def imageDev : Dev := { State.reset.dev with img := { mram := imageMram } }

/-- A device whose MRAM holds that firmware image. -/
def firmDev : Dev := { State.reset.dev with img := { mram := firmMram } }

/-- What slot A of `imageDev` is as verified. -/
def image : Image := ⟨5, 0, imageDev.digest 0 1128, imageSecs⟩

/-- What slot FWA of `firmDev` is as verified. -/
def firmware : Nat × Nat × List Byte := (9, 0x10203, firmDev.digest 0x3800000 1024)

/-- Bytes of a table whose keys rise from `o` on, read in one pass. -/
def walk : Tbl Byte → Nat → Nat → List Byte
  | _, _, 0 => []
  | [], o, n + 1 => 0 :: walk [] (o + 1) n
  | (k, v) :: t, o, n + 1 => if k = o then v :: walk t (o + 1) n else 0 :: walk ((k, v) :: t) (o + 1) n

theorem get_small {t : Tbl Byte} {o : Nat} (h : ∀ x ∈ t, o < x.1) : Tbl.get 0 t o = 0 := by
  induction t with
  | nil => rfl
  | cons x t ih =>
    have := h x (by simp)
    rw [Tbl.get, if_neg (by omega)]
    exact ih fun y hy => h y (by simp [hy])

theorem rising_tail {x : Nat × Byte} {t : Tbl Byte} (h : Tbl.rising (x :: t) = true) : (∀ y ∈ t, x.1 < y.1) ∧ Tbl.rising t = true := by
  induction t generalizing x with
  | nil => simp [Tbl.rising]
  | cons y t ih =>
    simp only [Tbl.rising, Bool.and_eq_true, decide_eq_true_eq] at h
    refine ⟨fun z hz => ?_, h.2⟩
    rcases List.mem_cons.1 hz with rfl | hz
    · exact h.1
    · have := (ih h.2).1 z hz
      omega

theorem walk_eq (n : Nat) : ∀ (t : Tbl Byte) (o : Nat), (∀ x ∈ t, o ≤ x.1) → Tbl.rising t = true →
    (List.range n).map (fun i => Tbl.get 0 t (o + i)) = walk t o n := by
  induction n with
  | zero => intro t o _ _; cases t <;> rfl
  | succ n ih =>
    intro t o ho hr
    rw [List.range_succ_eq_map, List.map_cons, List.map_map]
    have hs : ∀ t' : Tbl Byte, ((fun i => Tbl.get 0 t' (o + i)) ∘ Nat.succ) = fun i => Tbl.get 0 t' (o + 1 + i) := by
      intro t'; funext i; simp only [Function.comp, Nat.succ_eq_add_one]; congr 1; omega
    rw [hs]
    cases t with
    | nil => rw [ih [] (o + 1) (by simp) rfl]; rfl
    | cons x t =>
      obtain ⟨hlt, hrt⟩ := rising_tail hr
      have hx := ho x (by simp)
      obtain ⟨k, v⟩ := x
      simp only [Nat.add_zero, walk] at *
      by_cases hk : k = o
      · subst hk
        rw [if_pos rfl, ← ih t (k + 1) (fun y hy => hlt y hy) hrt]
        congr 1
        · simp [Tbl.get]
        · refine List.map_congr_left fun i _ => ?_
          rw [Tbl.get, if_neg (by omega)]
      · rw [if_neg hk, ← ih _ (o + 1) ?_ hr, get_small ?_]
        · intro y hy
          rcases List.mem_cons.1 hy with rfl | hy
          · show o < k; omega
          · have := hlt y hy; show o < y.1; omega
        · intro y hy
          rcases List.mem_cons.1 hy with rfl | hy
          · show o + 1 ≤ k; omega
          · have := hlt y hy; omega

theorem get_filter (t : Tbl Byte) {o k : Nat} (h : o ≤ k) : Tbl.get 0 (t.filter fun x => decide (o ≤ x.1)) k = Tbl.get 0 t k := by
  induction t with
  | nil => rfl
  | cons x t ih =>
    obtain ⟨j, v⟩ := x
    by_cases hj : o ≤ j
    · simp only [List.filter_cons, hj, decide_true, if_true, Tbl.get, ih]
    · rw [List.filter_cons_of_neg (by simpa using hj), ih, Tbl.get, if_neg (by omega)]

theorem mramAt_walk (d : Dev) (o n : Nat) (h : Tbl.rising (d.img.mram.filter fun x => decide (o ≤ x.1)) = true) :
    d.mramAt o n = walk (d.img.mram.filter fun x => decide (o ≤ x.1)) o n := by
  rw [← walk_eq n _ o (fun x hx => by simpa using (List.mem_filter.1 hx).2) h]
  exact List.map_congr_left fun i _ => (get_filter _ (Nat.le_add_right o i)).symm

/-- The image's signature verifies. -/
theorem imageSigned : imageDev.sigOk keyFuses 0 1128 false = true := by
  simp only [Dev.sigOk, Dev.digest]
  rw [mramAt_walk _ _ 200 (by decide +kernel), mramAt_walk _ _ (1128 - 200) (by decide +kernel)]
  decide +kernel

/-- The firmware's signature verifies. -/
theorem firmSigned : firmDev.sigOk keyFuses 0x3800000 1024 true = true := by
  simp only [Dev.sigOk, Dev.digest]
  rw [mramAt_walk _ _ 200 (by decide +kernel), mramAt_walk _ _ (1024 - 200) (by decide +kernel)]
  decide +kernel

theorem mramAt_congr {d e : Dev} (h : d.img.mram = e.img.mram) (o n : Nat) : d.mramAt o n = e.mramAt o n := by
  simp only [Dev.mramAt, h]

theorem sigOk_congr {d e : Dev} (h : d.img.mram = e.img.mram) (hb : d.blown = e.blown) (fz : Fuses) (b n : Nat) (f : Bool) :
    d.sigOk fz b n f = e.sigOk fz b n f := by
  simp only [Dev.sigOk, Dev.digest, Dev.revoked, mramAt_congr h, hb]

theorem parseSecs_congr {d e : Dev} (h : d.img.mram = e.img.mram) (b sig n : Nat) :
    ∀ c p, d.parseSecs b sig n c p = e.parseSecs b sig n c p := by
  induction n with
  | zero => intro c p; rfl
  | succ n ih => intro c p; simp only [Dev.parseSecs, Dev.parseSec, mramAt_congr h, ih]

theorem verifySlot_congr {d e : Dev} (h : d.img.mram = e.img.mram) (hb : d.blown = e.blown) (fz : Fuses) (k : Nat) :
    d.verifySlot fz k = e.verifySlot fz k := by
  simp only [Dev.verifySlot, Dev.digest, mramAt_congr h, parseSecs_congr h, sigOk_congr h hb]

theorem verifyFw_congr {d e : Dev} (h : d.img.mram = e.img.mram) (hb : d.blown = e.blown) (fz : Fuses) (k : Nat) :
    d.verifyFw fz k = e.verifyFw fz k := by
  simp only [Dev.verifyFw, Dev.digest, mramAt_congr h, sigOk_congr h hb]

/-- The parts of a slot's verification that need no signature. -/
theorem verifySlot_of {d : Dev} {fz : Fuses} {k len fin seq ks : Nat} {ss : List Sec} (h1 : cfgHeadOk (d.mramAt (slotBase k) 256) = true)
    (h2 : beAt (d.mramAt (slotBase k) 256) 16 4 = len) (h3 : d.parseSecs (slotBase k) (len - 200) 13 0 672 = some (ss, fin))
    (h4 : (d.mramAt (slotBase k + fin) (len - 200 - fin)).all (· == 0) = true) (h5 : beAt (d.mramAt (slotBase k) 256) 12 4 = seq)
    (h6 : beAt (d.mramAt (slotBase k + (len - 200)) 4) 2 1 = ks) (sig : d.sigOk fz (slotBase k) len false = true) :
    d.verifySlot fz k = some ⟨seq, ks, d.digest (slotBase k) len, ss⟩ := by
  simp only [Dev.verifySlot, h1, h2, h3, h4, h5, h6, sig]
  rfl

theorem verifyFw_of {d : Dev} {fz : Fuses} {k len seq ver : Nat} (h1 : fwHeadOk (d.mramAt (fwBase k) 256) = true)
    (h2 : beAt (d.mramAt (fwBase k) 256) 16 4 = len) (h5 : beAt (d.mramAt (fwBase k) 256) 12 4 = seq)
    (h6 : beAt (d.mramAt (fwBase k) 256) 24 4 = ver) (sig : d.sigOk fz (fwBase k) len true = true) :
    d.verifyFw fz k = some (seq, ver, d.digest (fwBase k) len) := by
  simp only [Dev.verifyFw, h1, h2, h5, h6, sig]
  rfl

/-- The fold of the CRC with its register evaluated at every byte, for the kernel. -/
def crcFold (poly : Nat) : Nat → List Byte → Nat
  | c, [] => c
  | 0, b :: l => crcFold poly (crcRefByte poly 0 b) l
  | c + 1, b :: l => crcFold poly (crcRefByte poly (c + 1) b) l

theorem crcFold_eq (poly : Nat) (l : List Byte) : ∀ c, l.foldl (crcRefByte poly) c = crcFold poly c l := by
  induction l with
  | nil => intro c; cases c <;> rfl
  | cons b l ih => intro c; cases c <;> exact ih _

theorem crcOf_of {l : List Byte} {n : Nat} (h : (2 ^ 32 - 1) ^^^ crcFold 0x82F63B78 (2 ^ 32 - 1) l = n) : crcOf l = n := by
  rw [← h, crcOf, crc32c, crcFold_eq]

theorem headOk_of {h : List Byte} {magic lo hi : Nat} (hc : beAt h 252 4 = (2 ^ 32 - 1) ^^^ crcFold 0x82F63B78 (2 ^ 32 - 1) (h.take 252))
    (hf : (beAt h 0 4 == magic && beAt h 4 2 == 1 && beAt h 6 2 == 256 && beAt h 8 4 == 0x962400B1 && decide (lo ≤ beAt h 16 4)
      && decide (beAt h 16 4 ≤ hi) && beAt h 16 4 % 4 == 0) = true) : headOk h magic lo hi = true := by
  rw [headOk, hf, crcOf_of rfl, hc]
  simp

theorem cfgHeadOk_image : cfgHeadOk (imageDev.mramAt (slotBase 0) 256) = true := by
  rw [mramAt_walk _ _ 256 (by decide +kernel), cfgHeadOk, headOk_of (by decide +kernel) (by decide +kernel)]
  decide +kernel

theorem fwHeadOk_firm : fwHeadOk (firmDev.mramAt (fwBase 0) 256) = true := by
  rw [mramAt_walk _ _ 256 (by decide +kernel), fwHeadOk, headOk_of (by decide +kernel) (by decide +kernel)]
  decide +kernel

theorem verifySlot_image {d : Dev} (h : d.img.mram = imageMram) (hb : d.blown = 0) :
    d.verifySlot keyFuses 0 = some image := by
  rw [verifySlot_congr (e := imageDev) h hb]
  exact verifySlot_of (len := 1128) (fin := 740) cfgHeadOk_image (by decide +kernel) (by decide +kernel) (by decide +kernel)
    (by decide +kernel) (by decide +kernel) imageSigned

theorem verifySlot_image_at {d : Dev} {k : Nat} (h : d.img.mram = imageMram) (hb : d.blown = 0) (hk : k = 0) :
    d.verifySlot keyFuses k = some image := by
  rw [hk]
  exact verifySlot_image h hb

theorem verifyFw_firm {d : Dev} (h : d.img.mram = firmMram) (hb : d.blown = 0) :
    d.verifyFw keyFuses 0 = some firmware := by
  rw [verifyFw_congr (e := firmDev) h hb]
  exact verifyFw_of (len := 1024) fwHeadOk_firm (by decide +kernel) (by decide +kernel) (by decide +kernel) firmSigned

theorem no_regset : ∀ c p, Rec.regset p ∉ ((image.secs.getD c {}).recs) := by
  intro c p
  have h : ∀ s ∈ ({} : Sec) :: imageSecs, ∀ r ∈ s.recs, (match r with | .regset _ => false | _ => true) = true := by decide +kernel
  intro hp
  have hm : image.secs.getD c {} ∈ ({} : Sec) :: imageSecs := by
    rw [List.getD_eq_getElem?_getD]
    cases hc : image.secs[c]? with
    | none => simp
    | some x => simp [image] at hc ⊢; exact .inr (List.mem_of_getElem? hc)
  simpa using h _ hm _ hp

theorem no_cordpol : ∀ p, Rec.cordpol p ∉ ((image.secs.getD 12 {}).recs) := by
  intro p
  rw [show (image.secs.getD 12 {}).recs = [] by decide +kernel]
  exact List.not_mem_nil

/-- A device whose ring 2047 has a decided packet and a pool with room. -/
def rxDev : Dev :=
  { live [(F.pciRxgCfgEn 2047, 1), (F.pciRxgCfgPool 2047, 63), (F.bufPclsMaxMax 1008, 2), (F.bufPoolFreeShfree 63, 1),
      (F.bufPoolCfgSize 63, 5)] with
    pkt := { decided := [⟨.ring 2047, { src := 160, bytes := [1] }, 23⟩] } }

theorem witness_SignalAndLaserAreWatched :
    (∃ (w : Fin 2) (lvl : Word) (s : State), s.dev.adcOn w = true ∧ s.dev.released (4 + w) = true ∧ s.dev.losLevels w lvl =
      true ∧ s.dev.get (F.cvAdcStatLos w) = 0 ∧ (s.dev.conv w).waitLaser = none)
    ∧ (∃ (w : Fin 2) (lvl : Word) (e : Fin 3) (dx : Int) (s : State), s.dev.adcOn w = true ∧ s.dev.released (4 + w) = true ∧
      s.dev.losLevels w lvl = true ∧ s.dev.get (F.cvAdcStatLos w) = 0 ∧ (s.dev.conv w).waitLaser = some (e.val, dx))
    ∧ (∃ (w : Fin 2) (lvl : Word) (s : State), s.dev.adcOn w = true ∧ s.dev.released (4 + w) = false)
    ∧ (∃ (w : Fin 2) (lvl : Word) (ch : Fin 4) (clips : Nat) (s : State), s.dev.adcOn w = false)
    ∧ (∃ (w : Fin 2) (lvl : Word) (s : State), s.dev.adcOn w = true ∧ s.dev.released (4 + w) = true ∧ s.dev.losLevels w lvl =
      false ∧ s.dev.get (F.cvAdcStatLos w) = 1)
    ∧ (∃ (w : Fin 2) (ch : Fin 4) (clips : Nat) (s : State), s.dev.adcOn w = true ∧ s.dev.get (F.cvAdcCfgClipthr w) < clips)
    ∧ (∃ (w : Fin 2) (ch : Fin 4) (clips : Nat) (s : State), s.dev.adcOn w = true ∧ clips ≤ s.dev.get (F.cvAdcCfgClipthr w))
    ∧ (∃ (e : Fin 3) (w : Fin 2) (off : Int) (since : Nat) (s : State), s.dev.Speaks e w ∧ s.dev.serving w = some e.val ∧
      s.dev.hears e = true ∧ s.dev.get (F.leRxcLsrcfgEn e) = 1 ∧ 3 ≤ s.dev.get (F.leRxcStatAcq e) ∧ s.dev.get (F.leRxcStatAcq
      e) ≤ 6 ∧ (s.dev.eng e).laserOut = none ∧ (s.dev.eng e).winOpen = false)
    ∧ (∃ (e : Fin 3) (w : Fin 2) (off : Int) (since : Nat) (s : State), s.dev.Speaks e w ∧ s.dev.serving w = some e.val ∧
      s.dev.hears e = true ∧ s.dev.get (F.leRxcLsrcfgEn e) = 1 ∧ 3 ≤ s.dev.get (F.leRxcStatAcq e) ∧ s.dev.get (F.leRxcStatAcq
      e) ≤ 6 ∧ (s.dev.eng e).laserOut = none ∧ (s.dev.eng e).winOpen = true ∧ off.natAbs ≤ s.dev.get (F.leRxcLsrcfgDeadband
      e))
    ∧ (∃ (e : Fin 3) (w : Fin 2) (off : Int) (since : Nat) (s : State), s.dev.Speaks e w ∧ s.dev.serving w = some e.val ∧
      s.dev.hears e = true ∧ s.dev.get (F.leRxcLsrcfgEn e) = 1 ∧ 3 ≤ s.dev.get (F.leRxcStatAcq e) ∧ s.dev.get (F.leRxcStatAcq
      e) ≤ 6 ∧ (s.dev.eng e).laserOut = none ∧ (s.dev.eng e).winOpen = true ∧ s.dev.get (F.leRxcLsrcfgDeadband e) <
      off.natAbs) :=
  ⟨⟨1, 0xFFFFFFFF, st (live [(F.cvAdcCfgLoslvl 1, 63)]), by decide +kernel⟩,
   ⟨1, 0xFFFFFFFF, 2, -7, st
     { live [(F.cvAdcCfgLoslvl 1, 63), (F.cvSelStatRxeng 1, 2), (F.cvSelStatTxeng 1, 2), (F.leRxcCfostatLaser 2, 65530)] with convs := [(1, { waitLaser := some (2, -7) })], engines := [(2, { laserOut := some (-7) })] },
     by decide +kernel⟩,
   ⟨1, 0xFFFFFFFF, st (live [(F.cvAdcCfgLoslvl 1, 63), (F.hrtPwrCordSt 5, 2)]), by decide +kernel⟩,
   ⟨1, 0xFFFFFFFF, 3, 5, st (live [(F.hrtPwrCordSt 5, 1)]), by decide +kernel⟩,
   ⟨1, 0xFFFFFFFC, st (live [(F.cvAdcCfgLoslvl 1, 63), (F.cvAdcStatLos 1, 1), (F.cvSelStatRxeng 1, 2), (F.cvSelStatTxeng 1,
     2), (F.leRxcTrstatLock 2, 1)]), by decide +kernel⟩,
   ⟨1, 3, 5, st (live [(F.cvAdcCfgClipthr 1, 4), (F.cvAdcStatClipcnt 1, 65535)]), by decide +kernel⟩,
   ⟨1, 3, 4, st { live [(F.cvAdcCfgClipthr 1, 4)] with convs := [(1, { clipOpen := 9 })] }, by decide +kernel⟩,
   ⟨2, 1, -6, 50001, st
     { live [(F.cvSelStatRxeng 1, 2), (F.cvSelStatTxeng 1, 2), (F.leRxcLsrcfgEn 2, 1), (F.leRxcStatAcq 2, 3)] with convs := [(1, { settle := 50001 })] },
     by unfold Dev.Speaks; decide +kernel⟩,
   ⟨2, 1, -6, 0, st
     { live [(F.cvSelStatRxeng 1, 2), (F.cvSelStatTxeng 1, 2), (F.leRxcLsrcfgEn 2, 1), (F.leRxcStatAcq 2, 6), (F.leRxcLsrcfgDeadband 2, 6)] with engines := [(2, { winOpen := true, quiet := 7 })] },
     by unfold Dev.Speaks; decide +kernel⟩,
   ⟨2, 1, -200, 0, st
     { live [(F.cvSelStatRxeng 1, 2), (F.cvSelStatTxeng 1, 2), (F.leRxcLsrcfgEn 2, 1), (F.leRxcStatAcq 2, 3), (F.leRxcLsrcfgDeadband 2, 6), (F.leRxcLsrcfgMaxstep 2, 50), (F.leRxcLsrcfgLimit 2, 10)] with engines := [(2, { winOpen := true })] },
     by unfold Dev.Speaks; decide +kernel⟩⟩

theorem witness_AcquisitionMovesStepByStep :
    (∃ (e : Fin 3) (s : State), s.dev.hears e = true)
    ∧ (∃ (e : Fin 3) (v : Int) (s : State), s.dev.hears e = true ∧ s.dev.get (F.leRxcStatAcq e) = 1 ∧ (s.dev.eng e).scanLo ≤
      v ∧ v ≤ (s.dev.eng e).scanHi)
    ∧ (∃ (e : Fin 3) (w : Nat) (s : State), s.dev.hears e = true ∧ s.dev.Speaks e w ∧ s.dev.get (F.leRxcStatAcq e) = 1 ∧
      (s.dev.eng e).cdRetried = true)
    ∧ (∃ (e : Fin 3) (cfo : Int) (s : State), s.dev.hears e = true ∧ s.dev.get (F.leRxcStatAcq e) = 2 ∧ cfo.natAbs ≤ 3600)
    ∧ (∃ (e : Fin 3) (w : Nat) (s : State), s.dev.hears e = true ∧ s.dev.Speaks e w ∧ s.dev.get (F.leRxcStatAcq e) = 2)
    ∧ (∃ (e : Fin 3) (w : Nat) (residual : Int) (s : State), s.dev.hears e = true ∧ s.dev.Speaks e w ∧ 3 ≤ s.dev.get
      (F.leRxcStatAcq e) ∧ s.dev.get (F.leRxcStatAcq e) ≤ 6 ∧ 4000 < residual.natAbs)
    ∧ (∃ (e : Fin 3) (w : Nat) (s : State), s.dev.hears e = true ∧ s.dev.Speaks e w ∧ s.dev.get (F.leRxcStatAcq e) ≠ 0 ∧
      s.dev.get (F.leRxcStatAcq e) ≠ 6) :=
  ⟨⟨2, st (live [(F.cvSelStatRxeng 1, 2), (F.cvSelStatTxeng 1, 2)]), by decide +kernel⟩,
   ⟨2, -79981, st
     { live [(F.cvSelStatRxeng 1, 2), (F.cvSelStatTxeng 1, 2), (F.leRxcStatAcq 2, 1)] with engines := [(2, { scanLo := -79990, scanHi := -70000, scanWin := true })] },
     by decide +kernel⟩,
   ⟨2, 1, st
     { live [(F.cvSelStatRxeng 1, 2), (F.cvSelStatTxeng 1, 2), (F.leRxcStatAcq 2, 1)] with engines := [(2, { cdRetried := true })] },
     by unfold Dev.Speaks; decide +kernel⟩,
   ⟨2, -3600, st (live [(F.cvSelStatRxeng 1, 2), (F.cvSelStatTxeng 1, 2), (F.leRxcStatAcq 2, 2)]), by decide +kernel⟩,
   ⟨2, 1, st (live [(F.cvSelStatRxeng 1, 2), (F.cvSelStatTxeng 1, 2), (F.leRxcStatAcq 2, 2), (F.leRxsStatPhlock 2 31, 1)]),
     by unfold Dev.Speaks; decide +kernel⟩,
   ⟨2, 1, 4001, st (live [(F.cvSelStatRxeng 1, 2), (F.cvSelStatTxeng 1, 2), (F.leRxcStatAcq 2, 6), (F.leRxsStatPhlock 2 31,
     1), (F.leRxcTrstatLock 2, 1)]), by unfold Dev.Speaks; decide +kernel⟩,
   ⟨2, 1, st (live [(F.cvSelStatRxeng 1, 2), (F.cvSelStatTxeng 1, 2), (F.leRxcStatAcq 2, 7)]),
     by unfold Dev.Speaks; decide +kernel⟩⟩

theorem witness_LocksAreGainedAndLost :
    (∃ (e : Fin 3) (offset : Int) (tejit : Nat) (s : State), s.dev.hears e = true ∧ offset.natAbs ≤ 20000 ∧ tejit < 16 ∧ 3 ≤
      s.dev.get (F.leRxcStatAcq e) ∧ s.dev.get (F.leRxcStatAcq e) ≤ 6)
    ∧ (∃ (e : Fin 3) (mask : Word) (s : State), s.dev.hears e = true ∧ 4 ≤ s.dev.get (F.leRxcStatAcq e))
    ∧ (∃ (e : Fin 3) (sc : Fin 32) (s : State), s.dev.hears e = true ∧ (s.dev.decode e).testBit sc = true ∧ 5 ≤ s.dev.get
      (F.leRxcStatAcq e))
    ∧ (∃ (e : Fin 3) (w : Nat) (offset : Int) (tejit : Nat) (s : State), s.dev.Speaks e w ∧ s.dev.hears e = true ∧ s.dev.get
      (F.leRxcTrstatLock e) = 1 ∧ (64 < tejit ∨ 20000 < offset.natAbs))
    ∧ (∃ (e : Fin 3) (sc : Fin 32) (offset : Int) (tejit : Nat) (s : State), s.dev.hears e = false)
    ∧ (∃ (e : Fin 3) (sc : Fin 32) (w : Nat) (s : State), s.dev.Speaks e w ∧ s.dev.hears e = true ∧ s.dev.get
      (F.leRxsStatPhlock e sc) = 1 ∧ (s.dev.decode e).testBit sc = true ∧ (s.dev.eng e).phFirst.testBit sc = true)
    ∧ (∃ (e : Fin 3) (sc : Fin 32) (w : Nat) (s : State), s.dev.Speaks e w ∧ s.dev.hears e = true ∧ s.dev.get
      (F.leRxsStatPhlock e sc) = 1 ∧ (Tbl.get none (s.dev.eng e).align sc).isSome = true)
    ∧ (∃ (e : Fin 3) (sc : Fin 32) (w : Nat) (s : State), s.dev.Speaks e w ∧ (s.dev.decode e).testBit sc = true)
    ∧ (∃ (e : Fin 3) (est : Int) (s : State), s.dev.hears e = false)
    ∧ (∃ (e : Fin 3) (w : Nat) (est : Int) (s : State), s.dev.Speaks e w ∧ s.dev.hears e = true ∧ s.dev.get
      (F.leRxcCdcfgTrken e) = 1 ∧ s.dev.get (F.leRxcCdstatValid e) = 1 ∧ 500 < (est - (s.dev.eng e).cdRef).natAbs) :=
  ⟨⟨2, -20000, 15, st (live [(F.cvSelStatRxeng 1, 2), (F.cvSelStatTxeng 1, 2), (F.leRxcStatAcq 2, 3)]), by decide +kernel⟩,
   ⟨2, 0x80000001, st (live [(F.cvSelStatRxeng 1, 2), (F.cvSelStatTxeng 1, 2), (F.leRxcStatAcq 2, 4), (F.leRxcDecodeMask 2,
     0x80000002)]), by decide +kernel⟩,
   ⟨2, 31, st (live [(F.cvSelStatRxeng 1, 2), (F.cvSelStatTxeng 1, 2), (F.leRxcStatAcq 2, 5), (F.leRxcDecodeMask 2,
     0x80000001), (F.leRxcTrstatLock 2, 1), (F.leRxsStatEqlock 2 31, 1), (F.leRxsStatEqlock 2 0, 1), (F.leRxsStatPhlock 2 0,
     1)]), by decide +kernel⟩,
   ⟨2, 1, 0, 65, st (live [(F.cvSelStatRxeng 1, 2), (F.cvSelStatTxeng 1, 2), (F.leRxcStatAcq 2, 6), (F.leRxcTrstatLock 2,
     1)]), by unfold Dev.Speaks; decide +kernel⟩,
   ⟨2, 31, 0, 65, st (live [(F.cvSelStatRxeng 1, 2), (F.cvSelStatTxeng 1, 2), (F.leRxcStatAcq 2, 6), (F.leRxcTrstatLock 2,
     1), (F.hrtPwrCordSt 5, 5)]), by decide +kernel⟩,
   ⟨2, 31, 1, st
     { live [(F.cvSelStatRxeng 1, 2), (F.cvSelStatTxeng 1, 2), (F.leRxcDecodeMask 2, 0x80000000), (F.leRxsStatPhlock 2 31, 1)] with engines := [(2, { phFirst := 0x80000000 })] },
     by unfold Dev.Speaks; decide +kernel⟩,
   ⟨2, 31, 1, st
     { live [(F.cvSelStatRxeng 1, 2), (F.cvSelStatTxeng 1, 2), (F.leRxsStatPhlock 2 31, 1), (F.leRxsStatSlipcnt 2 31, 65535)] with engines := [(2, { align := [(31, some ⟨0, 0, 0, false⟩)] })] },
     by unfold Dev.Speaks; decide +kernel⟩,
   ⟨2, 31, 1, st (live [(F.cvSelStatRxeng 1, 2), (F.cvSelStatTxeng 1, 2), (F.leRxcDecodeMask 2, 0x80000000),
     (F.leRxsStatEqlock 2 31, 1)]), by unfold Dev.Speaks; decide +kernel⟩,
   ⟨2, -501, st (live [(F.cvSelStatRxeng 1, 2), (F.cvSelStatTxeng 1, 2), (F.leRxcCdcfgTrken 2, 1), (F.leRxcCdstatValid 2, 1),
     (F.hrtPwrCordSt 5, 5)]), by decide +kernel⟩,
   ⟨2, 1, -501, st (live [(F.cvSelStatRxeng 1, 2), (F.cvSelStatTxeng 1, 2), (F.leRxcCdcfgTrken 2, 1), (F.leRxcCdstatValid 2,
     1)]), by unfold Dev.Speaks; decide +kernel⟩⟩

theorem witness_SubcarrierQualityIsLatched :
    (∃ (e : Fin 3) (sc : Fin 32) (level : Int) (evm : Nat) (s : State), (s.dev.decode e).testBit sc = true ∧ s.dev.get
      (F.leRxcStatWide e) = 1)
    ∧ (∃ (e : Fin 3) (sc : Fin 32) (level : Int) (evm : Nat) (s : State), (s.dev.decode e).testBit sc = true ∧ s.dev.get
      (F.leRxcStatWide e) = 0)
    ∧ (∃ (e : Fin 3) (sc : Fin 32) (rate : Nat) (dgd : Nat) (s : State), (s.dev.decode e).testBit sc = true)
    ∧ (∃ (e : Fin 3) (sc : Fin 32) (labels : List (List Int)) (w : Nat) (s : State), s.dev.Speaks e w ∧ (s.dev.decode
      e).testBit sc = true ∧ (let llrs := s.dev.softBits w e sc labels; s.dev.inUse e (F.leRxsLlrcfgSatthr e sc) *
      llrs.length < (llrs.filter fun x => x.natAbs == 31).length * 256) ∧ (s.dev.eng e).satHigh.testBit sc = false)
    ∧ (∃ (e : Fin 3) (m : Nat) (s : State), (s.dev.eng e).pendDecode = some m ∧ s.dev.engWl e = none ∧ m < 2 ^ 32)
    ∧ (∃ (e : Fin 3) (m : Nat) (w : Fin 2) (s : State), (s.dev.eng e).pendDecode = some m ∧ s.dev.Speaks e w ∧ s.dev.serving
      w = some e.val ∧ m < 2 ^ 32 ∧ s.dev.flag (F.leRxcStatWide e) ≠ decide (8 < (maskBits 32 m).length)) :=
  ⟨⟨2, 31, -3, 10001, st (live [(F.cvSelStatRxeng 1, 2), (F.cvSelStatTxeng 1, 2), (F.leRxcDecodeMask 2, 0x80000000),
    (F.leRxcStatWide 2, 1), (F.leRxsQthrSnrmin 2 31, 1)]), by decide +kernel⟩,
   ⟨2, 31, -601, 10001, st (live [(F.cvSelStatRxeng 1, 2), (F.cvSelStatTxeng 1, 2), (F.leRxcDecodeMask 2, 0x80000000),
     (F.leRxcStatWide 2, 0), (F.leRxsQthrPwrmin 2 31, 599)]), by decide +kernel⟩,
   ⟨2, 31, 51, 65536, st (live [(F.cvSelStatRxeng 1, 2), (F.cvSelStatTxeng 1, 2), (F.leRxcDecodeMask 2, 0x80000000)]),
     by decide +kernel⟩,
   ⟨2, 31, [[500, 1, 1, 1, 1, 1]], 1, st
     { live [(F.cvSelStatRxeng 1, 2), (F.cvSelStatTxeng 1, 2), (F.leRxcDecodeMask 2, 0x80000000), (F.leRxsLlrcfgSatthr 2 31, 0), (F.leRxsStatPhlock 2 31, 1)] with engines := [(2, { align := [(31, some ⟨0, 0, 0, false⟩)] })] },
     by unfold Dev.Speaks; decide +kernel⟩,
   ⟨2, 4294967295, st
     { live [(F.cvSelStatRxeng 0, 3), (F.cvSelStatTxeng 0, 3)] with engines := [(2, { pendDecode := some 4294967295 })] },
     by decide +kernel⟩,
   ⟨2, 0x1FF, 1, st
     { live [(F.cvSelStatRxeng 1, 2), (F.cvSelStatTxeng 1, 2)] with engines := [(2, { pendDecode := some 0x1FF })] },
     by unfold Dev.Speaks; decide +kernel⟩⟩

theorem witness_MaskAndClipsAreWatched :
    (∃ (e : Fin 3) (w : Fin 2) (power : List Byte) (b : Nat) (s : State), s.dev.serving w = some e.val ∧ (∀ v : Fin 2,
      s.dev.serving v = some e.val → v = w) ∧ (s.dev.wave w).gap = false ∧ s.dev.get (F.leTxcMaskctlMonen e) = 1 ∧ b < 512 ∧
      (let meas (c : Nat) : Nat := min 255 ((power.getD c 255).toNat + s.dev.inUse e (F.leTxmBinAtt e c)); meas b < s.dev.get
      (F.leTxmBinLimit e b)) ∧ (let meas (c : Nat) : Nat := min 255 ((power.getD c 255).toNat + s.dev.inUse e (F.leTxmBinAtt
      e c)); (∀ c < b, s.dev.get (F.leTxmBinLimit e c) ≤ meas c)))
    ∧ (∃ (e : Fin 3) (power : List Byte) (s : State), (let meas (c : Nat) : Nat := min 255 ((power.getD c 255).toNat +
      s.dev.inUse e (F.leTxmBinAtt e c)); (∀ c < 512, s.dev.get (F.leTxmBinLimit e c) ≤ meas c)) ∧ s.dev.get
      (F.leTxcMaskctlMonen e) = 1)
    ∧ (∃ (e : Fin 3) (ch : Fin 4) (xs : List Int) (w : Fin 2) (s : State), s.dev.serving w = some e.val ∧ (∀ v : Fin 2,
      s.dev.serving v = some e.val → v = w) ∧ (s.dev.wave w).gap = false ∧ s.dev.get (F.leTxcCfgClipthr e) < ((s.dev.dacCodes
      e ch xs).filter fun y => y == -128 || y == 127).length)
    ∧ (∃ (e : Fin 3) (s : State), s.dev.Takes (R.leTxcMaskctl e) (s.dev.withField (F.leTxcMaskctlUnmute e) 1)) :=
  ⟨⟨2, 1, [3], 0, st (live [(F.cvSelStatRxeng 1, 2), (F.cvSelStatTxeng 1, 2), (F.leTxcMaskctlMonen 2, 1),
    (F.leTxcMaskctlMuteen 2, 1), (F.leTxmBinLimit 2 0, 4)]), by decide +kernel⟩,
   ⟨2, List.replicate 512 255, st (live [(F.cvSelStatRxeng 1, 2), (F.cvSelStatTxeng 1, 2), (F.leTxcMaskctlMonen 2, 1),
     (F.leTxmBinLimit 2 511, 255), (F.leTxmBinAtt 2 511, 1)]), by intro _; exact limits_under, by decide +kernel⟩,
   ⟨2, 3, [-204800, 204800, 0, 0, 0, 0, 0, 0, 0, 0], 1, st (live [(F.cvSelStatRxeng 1, 2), (F.cvSelStatTxeng 1, 2),
     (F.leTxcCfgClipthr 2, 1)]), by decide +kernel⟩,
   ⟨2, st (live [(F.cvSelStatRxeng 1, 2), (F.cvSelStatTxeng 1, 2), (F.leTxcStatMuted 2, 1)]), takes_of (by decide +kernel)⟩⟩

theorem witness_TuruidCommandsRun :
    (∃ (w : Fin 2) (src : TrdSource) (ty : Nat) (arg : Nat) (c : Conv) (s : State), (s.dev.conv w).flight = none ∧
      s.dev.cordOn (4 + w) = true ∧ (s.dev.conv w).next = some (src, ty, arg, c))
    ∧ (∃ (w : Fin 2) (frame : BitVec 48) (cmd : Nat) (s : State), (s.dev.conv w).flight = some (.host, cmd) ∧ crc8 0xFF
      (bitsOf 40 (frame.toNat / 256)) = frame.toNat % 256 ∧ frame.toNat / 2 ^ 40 % 16 = cmd / 2 ^ 40 % 16 ∧ frame.toNat / 2 ^
      44 ≤ 1)
    ∧ (∃ (w : Fin 2) (frame : BitVec 48) (cmd : Nat) (s : State), (s.dev.conv w).flight = some (.host, cmd) ∧ crc8 0xFF
      (bitsOf 40 (frame.toNat / 256)) ≠ frame.toNat % 256)
    ∧ (∃ (w : Fin 2) (cmd : Nat) (e : Nat) (s : State), (s.dev.conv w).flight = some (.host, cmd) ∧ cmd / 2 ^ 44 = 1 ∧
      s.dev.serving w = some e ∧ s.dev.Speaks e w ∧ e < 3)
    ∧ (∃ (w : Fin 2) (cmd : Nat) (s : State), (s.dev.conv w).flight = some (.host, cmd) ∧ cmd / 2 ^ 44 ≠ 1)
    ∧ (∃ (w : Fin 2) (v : Word) (s : State), s.dev.Takes (R.cvTrdCmd w) ((F.cvTrdCmdGo w).put v 1))
    ∧ (∃ (w : Fin 2) (s : State), s.dev.get (F.cvTrdCfgHbper w) ≠ 0 ∧ s.dev.cordOn (4 + w) = true) :=
  ⟨⟨1, .host, 14, 0xFFFFFFFF, { seq := 15 }, st
    { live [] with convs := [(1, { waitHost := some (14, 0xFFFFFFFF), seq := 15 })] }, by decide +kernel⟩,
   ⟨1, BitVec.ofNat 48 (trdFrame 1 15 7), trdFrame 14 15 9, st
     { live [(F.cvTrdStatBusy 1, 1)] with convs := [(1, { flight := some (.host, trdFrame 14 15 9), fails := 2 })] },
     by decide +kernel⟩,
   ⟨1, 0, trdFrame 14 15 9, st
     { live [(F.cvTrdStatBusy 1, 1)] with convs := [(1, { flight := some (.host, trdFrame 14 15 9), fails := 2 })] },
     by decide +kernel⟩,
   ⟨1, 2 ^ 44, 2, st
     { live [(F.cvSelStatRxeng 1, 2), (F.cvSelStatTxeng 1, 2), (F.cvTrdStatBusy 1, 1), (F.cvTrdStatLinkup 1, 1), (F.cvTrdCfgDowncnt 1, 3)] with convs := [(1, { flight := some (.host, 2 ^ 44), fails := 2 })] },
     by unfold Dev.Speaks; decide +kernel⟩,
   ⟨1, 5, st
     { live [(F.cvTrdStatBusy 1, 1), (F.cvTrdStatLinkup 1, 1), (F.cvTrdCfgDowncnt 1, 3)] with convs := [(1, { flight := some (.host, 5), fails := 2 })] },
     by decide +kernel⟩,
   ⟨1, (F.cvTrdCmdType 1).put 0 14, st (live [(F.cvTrdArgArg 1, 0xFFFFFFFF)]), takes_of (by decide +kernel)⟩,
   ⟨1, st (live [(F.cvTrdCfgHbper 1, 1)]), by decide +kernel⟩⟩

theorem witness_TheHostsTuruidCommandRuns :
    (∃ (w : Fin 2) (v : Word) (r : RegAt) (s : State), s.dev.Answers (R.cvTrdCmd w) ∧ decodeAddr (R.cvTrdCmd w) = some r ∧
      s.dev.expert (some .line) = true ∧ s.dev.tableCode (R.cvTrdCmd w) r ((F.cvTrdCmdGo w).put v 1) false = 0 ∧
      (F.cvTrdCmdType w).of v ≠ 15 ∧ (s.dev.get (F.cvTrdStatBusy w) = 1 ∨ ((F.cvTrdCmdType w).of v = 1 ∧ ∃ e, s.dev.serving w
      = some e ∧ s.dev.get (F.leRxcLsrcfgEn e) = 1)))
    ∧ (∃ (w : Fin 2) (v : Word) (r : RegAt) (s : State), s.dev.Answers (R.cvTrdCmd w) ∧ decodeAddr (R.cvTrdCmd w) = some r ∧
      s.dev.expert (some .line) = true ∧ s.dev.tableCode (R.cvTrdCmd w) r ((F.cvTrdCmdGo w).put v 1) false = 0 ∧
      (F.cvTrdCmdType w).of v = 15)
    ∧ (∃ (w : Fin 2) (v : Word) (r : RegAt) (s : State), s.dev.Answers (R.cvTrdCmd w) ∧ decodeAddr (R.cvTrdCmd w) = some r ∧
      s.dev.expert (some .line) = true ∧ s.dev.tableCode (R.cvTrdCmd w) r ((F.cvTrdCmdGo w).put v 1) false = 0 ∧ s.dev.cordSt
      (4 + w) = 3 ∧ (F.cvTrdCmdType w).of v ≠ 15 ∧ s.dev.get (F.cvTrdStatBusy w) = 0 ∧ ((F.cvTrdCmdType w).of v = 1 → ∀ e,
      s.dev.serving w = some e → s.dev.get (F.leRxcLsrcfgEn e) = 0))
    ∧ (∃ (w : Fin 2) (frame : BitVec 48) (cmd : Nat) (s : State), (s.dev.conv w).flight = some (.host, cmd))
    ∧ (∃ (w : Fin 2) (cmd : Nat) (s : State), (s.dev.conv w).flight = some (.host, cmd)) :=
  ⟨⟨1, 0x0, (decodeAddr (R.cvTrdCmd 1)).get rfl, st (live [(F.cvTrdStatBusy 1, 1)]), answers_of (by decide +kernel),
    by decide +kernel⟩,
   ⟨1, (F.cvTrdCmdType 1).put 0 15, (decodeAddr (R.cvTrdCmd 1)).get rfl, st (live []), answers_of (by decide +kernel),
     by decide +kernel⟩,
   ⟨1, (F.cvTrdCmdType 1).put 0 14, (decodeAddr (R.cvTrdCmd 1)).get rfl, st (live []), answers_of (by decide +kernel),
     by decide +kernel⟩,
   ⟨1, BitVec.ofNat 48 (trdFrame 2 15 7), trdFrame 14 15 9, st
     { live [(F.cvTrdStatBusy 1, 1)] with convs := [(1, { flight := some (.host, trdFrame 14 15 9) })] }, by decide +kernel⟩,
   ⟨1, 5, st { live [(F.cvTrdStatBusy 1, 1)] with convs := [(1, { flight := some (.host, 5) })] }, by decide +kernel⟩⟩

theorem witness_AlignmentAndHeadersFollow :
    (∃ (w : Fin 2) (sc : Fin 32) (pos : Nat) (signs : BitVec 512) (s : State), (s.dev.wave w).gap = false ∧ s.dev.released (6
      + w) = true ∧ s.dev.get (F.lfScsAlnState w sc) = 0 ∧ (alignmentTest signs).diffs ≤ s.dev.get (F.lfAlnThrAwtol w) ∧
      ((s.dev.sc w sc).cands.find? fun c => predicted c.pos pos) = none ∧ 1 < s.dev.get (F.lfAlnCfgN w) ∧ (s.dev.sc w
      sc).cands.length < 4)
    ∧ (∃ (w : Fin 2) (sc : Fin 32) (pos : Nat) (signs : BitVec 512) (c : AlnCand) (s : State), (s.dev.wave w).gap = false ∧
      s.dev.released (6 + w) = true ∧ s.dev.get (F.lfScsAlnState w sc) = 0 ∧ (alignmentTest signs).diffs ≤ s.dev.get
      (F.lfAlnThrAwtol w) ∧ (alignmentTest signs).beacon = c.beacon ∧ ((s.dev.sc w sc).cands.find? fun c => predicted c.pos
      pos) = some c ∧ s.dev.get (F.lfAlnCfgN w) ≤ c.run + 1)
    ∧ (∃ (w : Fin 2) (sc : Fin 32) (pos : Nat) (signs : BitVec 512) (s : State), (s.dev.wave w).gap = false ∧ s.dev.released
      (6 + w) = true ∧ s.dev.get (F.lfScsAlnState w sc) = 2 ∧ (alignmentTest signs).diffs ≤ s.dev.get (F.lfAlnThrAwtol w) ∧
      (alignmentTest signs).beacon = s.dev.flag (F.lfScsAlnVar w sc) ∧ predicted (s.dev.sc w sc).phase pos = true)
    ∧ (∃ (w : Fin 2) (sc : Fin 32) (pos : Nat) (signs : BitVec 512) (s : State), (s.dev.wave w).gap = false ∧ s.dev.released
      (6 + w) = true ∧ s.dev.get (F.lfScsAlnState w sc) = 2 ∧ s.dev.get (F.lfAlnThrAwtol w) < (alignmentTest signs).diffs ∧
      predicted (s.dev.sc w sc).phase pos = true ∧ s.dev.get (F.lfAlnCfgM w) ≤ (s.dev.sc w sc).errRun + 1)
    ∧ (∃ (w : Fin 2) (sc : Fin 32) (pos : Nat) (signs : BitVec 512) (s : State), (s.dev.wave w).gap = true ∧ s.dev.released
      (6 + w) = true ∧ s.dev.get (F.lfScsAlnState w sc) = 2 ∧ predicted (s.dev.sc w sc).phase pos = true ∧ s.dev.gapSoft w =
      true)
    ∧ (∃ (w : Fin 2) (sc : Fin 32) (pos : Nat) (signs : BitVec 512) (s : State), (s.dev.wave w).gap = true ∧ s.dev.gapSoft w
      = false)
    ∧ (∃ (w : Fin 2) (sc : Fin 32) (llrs : List (Int × Int)) (b : Nat) (s : State), s.dev.aligned w sc = true ∧ (s.dev.wave
      w).gap = false ∧ s.dev.headerRead w sc llrs = some b ∧ headerCrcOk b = false)
    ∧ (∃ (w : Fin 2) (sc : Fin 32) (llrs : List (Int × Int)) (b : Nat) (s : State), s.dev.aligned w sc = true ∧ (s.dev.wave
      w).gap = false ∧ s.dev.headerRead w sc llrs = some b ∧ headerCrcOk b = true ∧ (parseHeader b).hver = 1 ∧ (s.dev.sc w
      sc).hdrOk = false)
    ∧ (∃ (w : Fin 2) (sc : Fin 32) (llrs : List (Int × Int)) (s : State), s.dev.aligned w sc = true ∧ (s.dev.wave w).gap =
      false ∧ s.dev.headerRead w sc llrs = none ∧ ((s.dev.sc w sc).phase - (s.dev.sc w sc).hdrPhase) / 128000 ≤ 1)
    ∧ (∃ (d : Dev) (w : Nat) (sc : Nat) (e : Nat) (llrs : List (Int × Int)), d.serving w = some e ∧ d.llrFlows w e sc =
      false) :=
  ⟨⟨1, 31, 128001, wordSigns true ^^^ 0x41100411, st
    { live [(F.lfScsAlnState 1 31, 0), (F.lfAlnThrAwtol 1, 6), (F.lfAlnCfgN 1, 2)] with scs := [(63, { cands := [⟨5, 1, false⟩, ⟨6, 1, false⟩, ⟨7, 1, false⟩] })] },
    by decide +kernel⟩,
   ⟨1, 31, 128005, wordSigns true ^^^ 0x41100411, ⟨5, 1, true⟩, st
     { live [(F.cvSelStatRxeng 1, 2), (F.cvSelStatTxeng 1, 2), (F.lfScsAlnState 1 31, 0), (F.lfAlnThrAwtol 1, 6), (F.lfAlnCfgN 1, 2), (F.lfScsAlnNcand 1 31, 1)] with scs := [(63, { cands := [⟨5, 1, true⟩] })] },
     by decide +kernel⟩,
   ⟨1, 31, 128005, wordSigns true ^^^ 0x41100411, st
     { live [(F.cvSelStatRxeng 1, 2), (F.cvSelStatTxeng 1, 2), (F.lfScsAlnState 1 31, 2), (F.lfScsAlnVar 1 31, 1), (F.lfAlnThrAwtol 1, 6)] with scs := [(63, { phase := 5, errRun := 1 })] },
     by decide +kernel⟩,
   ⟨1, 31, 128005, wordSigns false ^^^ 0x141100411, st
     { live [(F.lfScsAlnState 1 31, 2), (F.lfAlnThrAwtol 1, 6), (F.lfAlnCfgM 1, 2), (F.lfScsAlnLosscnt 1 31, 255)] with scs := [(63, { phase := 5, errRun := 1 })] },
     by decide +kernel⟩,
   ⟨1, 31, 256005, wordSigns false ^^^ 0x141100411, st
     { live [(F.lfScsAlnState 1 31, 2), (F.lfAlnThrAwtol 1, 6), (F.leRxcStatAcq 2, 6)] with scs := [(63, { phase := 128005, hdrPhase := 5, hdrOk := true, sfn := 4294967295, fnum := 7 })], spr := { move := some ⟨.takeover, 1, 2, 1, 2, 0, false⟩ }, waves := [(1, { gap := true })] },
     by decide +kernel⟩,
   ⟨1, 31, 128005, wordSigns false, st
     { live [(F.lfScsAlnState 1 31, 2), (F.lfAlnThrAwtol 1, 6), (F.leRxcStatAcq 2, 5)] with scs := [(63, { phase := 5 })], spr := { move := some ⟨.takeover, 1, 2, 1, 2, 0, false⟩ }, waves := [(1, { gap := true })] },
     by decide +kernel⟩,
   ⟨1, 31, hdrLlrs 1, 1, st
     { live [(F.cvSelStatRxeng 1, 2), (F.cvSelStatTxeng 1, 2), (F.leRxcDecodeMask 2, 0x80000001), (F.leRxsStatPhlock 2 31, 1), (F.leRxsStatPhlock 2 0, 1), (F.lfScsAlnState 1 31, 2)] with scs := [(63, { goodRun := 2 })], engines := hearing },
     by decide +kernel⟩,
   ⟨1, 31, hdrLlrs (buildHeader ⟨1, 0, false, 0, false, true, 7, 4294967295, 31, 3, 0, 1, 0, 0, 0⟩), buildHeader ⟨1, 0,
     false, 0, false, true, 7, 4294967295, 31, 3, 0, 1, 0, 0, 0⟩, st
     { live [(F.cvSelStatRxeng 1, 2), (F.cvSelStatTxeng 1, 2), (F.leRxcDecodeMask 2, 0x80000001), (F.leRxsStatPhlock 2 31, 1), (F.leRxsStatPhlock 2 0, 1), (F.lfScsAlnState 1 31, 2)] with engines := hearing },
     by decide +kernel⟩,
   ⟨1, 31, hdrLlrs 5, st
     { live [(F.cvSelStatRxeng 1, 2), (F.cvSelStatTxeng 1, 2), (F.lfScsAlnState 1 31, 2)] with scs := [(63, { hdrOk := true, sfn := 4294967295, fnum := 7 })] },
     by decide +kernel⟩,
   ⟨live [(F.cvSelStatRxeng 1, 2), (F.cvSelStatTxeng 1, 2), (F.leRxcDecodeMask 2, 0x80000001), (F.leRxsStatPhlock 2 31, 1),
     (F.leRxsStatPhlock 2 0, 1)], 1, 31, 2, hdrLlrs 5, by decide +kernel⟩⟩

theorem witness_FecAndSecondsAreCounted :
    (∃ (w : Fin 2) (sc : Fin 32) (j : Nat) (e : Nat) (a : List Int) (b : Option (List Int)) (s : State), s.dev.aligned w sc =
      true ∧ (s.dev.wave w).gap = false ∧ s.dev.lineOk w = true ∧ s.dev.serving w = some e ∧ s.dev.waiting = [] ∧ (b = none ∨
      (s.dev.sc w sc).cmp = false))
    ∧ (∃ (w : Fin 2) (extra : List (Fin 32 × Nat)) (spared : Word) (s : State), s.dev.released (6 + w) = true)
    ∧ (∃ (w : Fin 2) (i : PmItem) (p : PmRun) (s : State), (s.dev.wave w).pm.due = some (i, p) ∧ i.cls = some 2 ∧ i.ua =
      false)
    ∧ (∃ (w : Fin 2) (i : PmItem) (p : PmRun) (c : Nat) (s : State), (s.dev.wave w).pm.due = some (i, p) ∧ i.cls = some c ∧
      i.ua = true)
    ∧ (∃ (w : Fin 2) (s : State), s.dev.Takes (R.lfPmCtl w) (s.dev.withField (F.lfPmCtlClear w) 1)) :=
  ⟨⟨1, 31, 3, 2, [-31, 31, 0], some [], st
    { live [(F.cvSelStatRxeng 1, 2), (F.cvSelStatTxeng 1, 2), (F.leRxcDecodeMask 2, 0x80000001), (F.leRxsStatPhlock 2 31, 1), (F.leRxsStatPhlock 2 0, 1), (F.lfScsAlnState 1 31, 2), (F.leRxsLlrcfgScale 2 31, 16)] with engines := hearing },
    by decide +kernel⟩,
   ⟨1, [(31, 0)], 0x80000000, st
     { live [(F.lfPmEsCount 1, 5)] with waves := [(1, { pmClear := true })], scs := [(63, { cb := 2 ^ 32, blocks := 1 })] },
     by decide +kernel⟩,
   ⟨1, ⟨some 2, false, false⟩, { queue := List.replicate 10 (PmItem.mk none false false) }, st
     { live [(F.lfPmStatSecnum 1, 65535)] with waves := [(1, { pm := { queue := List.replicate 10 (PmItem.mk none false false) ++ [PmItem.mk (some 2) false false] } })] },
     by decide +kernel⟩,
   ⟨1, ⟨some 0, false, true⟩, { queue := List.replicate 10 (PmItem.mk none false false) }, 0, st
     { live [] with waves := [(1, { pm := { queue := List.replicate 10 (PmItem.mk none false false) ++ [PmItem.mk (some 0) false true] } })] },
     by decide +kernel⟩,
   ⟨1, st (live []), takes_of (by decide +kernel)⟩⟩

theorem witness_CellsAndGroupsFlow :
    (∃ (w : Fin 2) (g : Nat) (sc : Fin 32) (k : Nat) (cell : List Byte) (s : State), s.dev.NextCell w g sc k ∧ s.dev.encRx w
      g = false ∧ cell.length = 256 ∧ cellHecOk cell = true ∧ (cellHdr cell).type = 0 ∧ (cellHdr cell).len = 0 ∧ (cellHdr
      cell).seq = s.dev.cellIndex w g sc k % 256)
    ∧ (∃ (w : Fin 2) (g : Nat) (sc : Fin 32) (k : Nat) (cell : List Byte) (s : State), s.dev.NextCell w g sc k ∧ cell.length
      = 256 ∧ cellHecOk cell = false)
    ∧ (∃ (w : Fin 2) (g : Nat) (sc : Fin 32) (k : Nat) (cell : List Byte) (s : State), s.dev.NextCell w g sc k ∧ cell.length
      = 256 ∧ cellHecOk cell = true ∧ (cellHdr cell).seq ≠ s.dev.cellIndex w g sc k % 256)
    ∧ (∃ (w : Fin 2) (g : Nat) (sc : Fin 32) (k : Nat) (part : List Byte) (o : OpenPkt) (flow : Nat) (s : State),
      s.dev.NextCell w g sc k ∧ ((s.dev.wave w).open_.find? fun x => x.flow == flow) = some o ∧ o.bytes.length + 248 ≤ 12288
      ∧ s.dev.encRx w g = false ∧ part.length = 248 ∧ flow < 2 ^ 20)
    ∧ (∃ (w : Fin 2) (g : Nat) (sc : Fin 32) (other : Fin 32) (k : Nat) (uncorr : Bool) (cell : List Byte) (p : Nat × Nat) (s
      : State), s.dev.rxGroup w sc = some g ∧ s.dev.get (F.lfGrpStatState w g) = 2 ∧ s.dev.lineOk w = true ∧ (s.dev.wave
      w).gap = false ∧ s.dev.InjIdle (96 + 32 * w + sc) ∧ cell.length = 256 ∧ (s.dev.grp w g).held = [] ∧ (s.dev.grp w
      g).next = some p ∧ placeLt ((s.dev.sc w sc).frameNo, s.dev.cellIndex w g sc k) p = false ∧ p.2 ≠ s.dev.cellIndex w g sc
      k ∧ other ≠ sc ∧ (s.dev.get (F.lfGrpMembMask w g)).testBit other = true)
    ∧ (∃ (w : Fin 2) (flow : BitVec 20) (s : State), ((s.dev.wave w).open_.any fun o => o.flow == flow.toNat) = true)
    ∧ (∃ (w : Fin 2) (g : Fin 32) (s : State), (let m := s.dev.get (F.lfGrpMembMask w g); m ≠ 0) ∧ s.dev.get
      (F.lfGrpStatState w g) ≠ 2 ∧ (let m := s.dev.get (F.lfGrpMembMask w g); (∀ k ∈ maskBits 32 m, s.dev.aligned w k = true
      ∧ (s.dev.sc w k).hdrOk = true)) ∧ (s.dev.wave w).gap = false ∧ (let m := s.dev.get (F.lfGrpMembMask w g);
      s.dev.groupSkew w m ≤ 256000))
    ∧ (∃ (w : Fin 2) (g : Fin 32) (s : State), (let m := s.dev.get (F.lfGrpMembMask w g); m ≠ 0) ∧ s.dev.get
      (F.lfGrpStatState w g) = 2 ∧ (let m := s.dev.get (F.lfGrpMembMask w g); (∀ k ∈ maskBits 32 m, s.dev.aligned w k = true
      ∧ (s.dev.sc w k).hdrOk = true)) ∧ (s.dev.wave w).gap = false ∧ (let m := s.dev.get (F.lfGrpMembMask w g);
      s.dev.groupSkew w m ≤ 256000))
    ∧ (∃ (w : Fin 2) (g : Fin 32) (s : State), (let m := s.dev.get (F.lfGrpMembMask w g); m ≠ 0) ∧ s.dev.get
      (F.lfGrpStatState w g) ≠ 3 ∧ (let m := s.dev.get (F.lfGrpMembMask w g); (∀ k ∈ maskBits 32 m, s.dev.aligned w k = true
      ∧ (s.dev.sc w k).hdrOk = true)) ∧ (s.dev.wave w).gap = false ∧ (let m := s.dev.get (F.lfGrpMembMask w g); 256000 <
      s.dev.groupSkew w m))
    ∧ (∃ (w : Fin 2) (g : Fin 32) (c : TxCell) (rest : List TxCell) (s : State), (s.dev.wave w).leaf = false ∧ (s.dev.grp w
      g).txMask ≠ 0 ∧ (s.dev.wave w).gap = false ∧ s.dev.lineOk w = true ∧ s.dev.onLine w = true ∧ (s.dev.grp w g).encTx =
      false ∧ s.dev.carriesCtrl w g = false ∧ (s.dev.grp w g).txCells = c :: rest ∧ c.bufs = [] ∧ (s.dev.sc w (memberOf
      (s.dev.grp w g).txMask (s.dev.grp w g).txN)).txOut = [] ∧ s.dev.InjIdle (96 + 32 * w + memberOf (s.dev.grp w g).txMask
      (s.dev.grp w g).txN))
    ∧ (∃ (w : Fin 2) (g : Fin 32) (s : State), (s.dev.wave w).leaf = false ∧ (s.dev.grp w g).txMask ≠ 0 ∧ (s.dev.wave w).gap
      = true ∧ (s.dev.wave w).txCut = true ∧ s.dev.released (6 + w) = true ∧ (s.dev.grp w g).encTx = false ∧ (s.dev.sc w
      (memberOf (s.dev.grp w g).txMask (s.dev.grp w g).txN)).txOut = []) :=
  ⟨⟨1, 31, 31, 120, buildCell 0 0 256 0 [], st
    { live [(F.cvSelStatRxeng 1, 2), (F.cvSelStatTxeng 1, 2), (F.lfGrpMembMask 1 31, 0x80000001), (F.lfGrpStatState 1 31, 2), (F.lfGrpStatSize 1 31, 2)] with grps := [(63, { next := some (0, 256) })], scs := [(63, { curG := 16 })] },
    nextCell_of (by decide +kernel), by decide +kernel⟩,
   ⟨1, 31, 31, 120, List.replicate 256 1, st
     { live [(F.cvSelStatRxeng 1, 2), (F.cvSelStatTxeng 1, 2), (F.lfGrpMembMask 1 31, 0x80000001), (F.lfGrpStatState 1 31, 2), (F.lfGrpStatSize 1 31, 2)] with grps := [(63, { next := some (0, 256) })], scs := [(63, { curG := 16 })] },
     nextCell_of (by decide +kernel), by decide +kernel⟩,
   ⟨1, 31, 31, 120, buildCell 0 0 257 0 [], st
     { live [(F.cvSelStatRxeng 1, 2), (F.cvSelStatTxeng 1, 2), (F.lfGrpMembMask 1 31, 0x80000001), (F.lfGrpStatState 1 31, 2), (F.lfGrpStatSize 1 31, 2)] with grps := [(63, { next := some (0, 256) })], scs := [(63, { curG := 16 })] },
     nextCell_of (by decide +kernel), by decide +kernel⟩,
   ⟨1, 31, 31, 120, List.replicate 248 7, ⟨1048575, 31, List.replicate 12040 1⟩, 1048575, st
     { live [(F.cvSelStatRxeng 1, 2), (F.cvSelStatTxeng 1, 2), (F.lfGrpMembMask 1 31, 0x80000001), (F.lfGrpStatState 1 31, 2), (F.lfGrpStatSize 1 31, 2)] with grps := [(63, { next := some (0, 256) })], scs := [(63, { curG := 16 })], waves := [(1, { open_ := [⟨1048575, 31, List.replicate 12040 1⟩] })] },
     nextCell_of (by decide +kernel), rfl, Nat.le_of_eq (congrArg (· + 248) (List.length_replicate (n := 12040) (a := (1 :
     Byte)))), by decide +kernel⟩,
   ⟨1, 31, 31, 0, 120, true, List.replicate 256 1, (0, 255), st
     { live [(F.cvSelStatRxeng 1, 2), (F.cvSelStatTxeng 1, 2), (F.lfGrpMembMask 1 31, 0x80000001), (F.lfGrpStatState 1 31, 2), (F.lfGrpStatSize 1 31, 2)] with grps := [(63, { next := some (0, 255) })], scs := [(63, { curG := 16 })] },
     by unfold Dev.InjIdle; decide +kernel⟩,
   ⟨1, 0xFFFFF, st { live [] with waves := [(1, { open_ := [⟨1048575, 31, []⟩] })] }, by decide +kernel⟩,
   ⟨1, 31, st
     { live [(F.lfGrpMembMask 1 31, 0x80000001), (F.lfScsAlnState 1 31, 2), (F.lfScsAlnState 1 0, 2)] with scs := [(32, { hdrOk := true }), (63, { hdrOk := true, hdrPhase := 384000, frameNo := 1 })] },
     by decide +kernel⟩,
   ⟨1, 31, st
     { live [(F.lfGrpMembMask 1 31, 0x80000001), (F.lfScsAlnState 1 31, 2), (F.lfScsAlnState 1 0, 2), (F.lfGrpStatState 1 31, 2)] with scs := [(32, { hdrOk := true }), (63, { hdrOk := true, hdrPhase := 384000, frameNo := 1 })] },
     by decide +kernel⟩,
   ⟨1, 31, st
     { live [(F.lfGrpMembMask 1 31, 0x80000001), (F.lfScsAlnState 1 31, 2), (F.lfScsAlnState 1 0, 2), (F.lfGrpStatState 1 31, 2)] with scs := [(32, { hdrOk := true }), (63, { hdrOk := true, hdrPhase := 384001, frameNo := 1 })] },
     by decide +kernel⟩,
   ⟨1, 31, ⟨5, 3, 248, [1], []⟩, [], st
     { live [(F.cvSelStatRxeng 1, 2), (F.cvSelStatTxeng 1, 2)] with grps := [(63, { txMask := 0x80000000, txN := 65535, txCells := [⟨5, 3, 248, [1], []⟩] })] },
     by unfold Dev.InjIdle; decide +kernel⟩,
   ⟨1, 31, st
     { live [(F.cvSelStatRxeng 1, 2), (F.cvSelStatTxeng 1, 2)] with waves := [(1, { gap := true, txCut := true })], grps := [(63, { txMask := 0x80000000, txN := 65535 })] },
     by decide +kernel⟩⟩

theorem witness_TerminalIsBroughtUp :
    (∃ (w : Fin 2) (peqd : BitVec 24) (rspread : BitVec 16) (alen : Byte) (bkmax : Byte) (e : Nat) (s : State), (s.dev.wave
      w).leaf = true ∧ s.dev.get (F.lfActStatState w) = 1 ∧ s.dev.get (F.lfActCfgActen w) = 1 ∧ s.dev.get F.hrtPwrStateCur ≠
      1 ∧ s.dev.serving w = some e ∧ s.dev.get (F.leRxcStatSettled e) = 1 ∧ 6 ≤ alen.toNat ∧ alen.toNat ≤ 32)
    ∧ (∃ (w : Fin 2) (eqd : BitVec 24) (rtd : BitVec 24) (esfn : Word) (s : State), (s.dev.wave w).leaf = true ∧ 3 ≤
      s.dev.get (F.lfActStatState w) ∧ s.dev.get (F.lfActStatState w) ≤ 5)
    ∧ (∃ (w : Fin 2) (tid : BitVec 12) (dur : BitVec 16) (s : State), (s.dev.wave w).leaf = true ∧ 2 ≤ s.dev.get
      (F.lfActStatState w) ∧ s.dev.get (F.lfActStatState w) ≤ 4 ∧ tid.toNat = 0xFFF ∧ dur.toNat ≠ 0)
    ∧ (∃ (w : Fin 2) (s : State), s.dev.get (F.lfActStatState w) = 5 ∧ s.dev.get (F.lfActStatSilsp w) = 0 ∧ s.dev.get
      (F.lfActStatRet w) ≠ 5)
    ∧ (∃ (w : Fin 2) (reason : Byte) (s : State), (s.dev.wave w).leaf = true ∧ ((s.dev.get (F.lfActStatState w) = 3 ∨
      s.dev.get (F.lfActStatState w) = 4))) :=
  ⟨⟨1, 5, 6, 6, 7, 2, st
    { live [(F.cvSelStatRxeng 1, 2), (F.cvSelStatTxeng 1, 2), (F.lfActStatState 1, 1), (F.lfActCfgActen 1, 1), (F.leRxcStatSettled 2, 1)] with waves := [(1, { leaf := true })] },
    by decide +kernel⟩,
   ⟨1, 0xFFFFFF, 0xFFFFFE, 9, st
     { live [(F.cvSelStatRxeng 1, 2), (F.cvSelStatTxeng 1, 2), (F.lfActStatState 1, 5)] with waves := [(1, { leaf := true })] },
     by decide +kernel⟩,
   ⟨1, 0xFFF, 0xFFFF, st
     { live [(F.cvSelStatRxeng 1, 2), (F.cvSelStatTxeng 1, 2), (F.lfActStatState 1, 4)] with waves := [(1, { leaf := true })] },
     by decide +kernel⟩,
   ⟨1, st
     { live [(F.cvSelStatRxeng 1, 2), (F.cvSelStatTxeng 1, 2), (F.lfActStatState 1, 5), (F.lfActStatSilhe 1, 1), (F.lfActStatSilrem 1, 3), (F.lfActStatRet 1, 4)] with waves := [(1, { leaf := true })] },
     by decide +kernel⟩,
   ⟨1, 0xFF, st
     { live [(F.cvSelStatRxeng 1, 2), (F.cvSelStatTxeng 1, 2), (F.lfActStatState 1, 4), (F.lfActIdTid 1, 9)] with waves := [(1, { leaf := true, grants := [⟨0, 0, 0, 2, true, false, false⟩] })] },
     by decide +kernel⟩⟩

theorem witness_AssignIdTakesEffectOnDelivery :
    (∃ (w : Fin 2) (serial : BitVec 64) (tid : BitVec 16) (s : State), (s.dev.wave w).leaf = true ∧ s.dev.get
      (F.lfActStatState w) = 2 ∧ serial.toNat = s.fuses.serial ∧ tid.toNat ≠ 0 ∧ tid.toNat < 0xFFF)
    ∧ (∃ (w : Fin 2) (serial : BitVec 64) (tid : BitVec 16) (s : State), (s.dev.wave w).leaf = true ∧ serial.toNat ≠
      s.fuses.serial ∧ tid.toNat ≠ 0 ∧ tid.toNat < 0xFFF)
    ∧ (∃ (w : Fin 2) (serial : BitVec 64) (tid : BitVec 16) (s : State), (s.dev.wave w).leaf = true ∧ s.dev.get
      (F.lfActStatState w) ≠ 2 ∧ serial.toNat = s.fuses.serial ∧ tid.toNat ≠ 0 ∧ tid.toNat < 0xFFF) :=
  ⟨⟨1, 0, 4094, st
    { live [(F.cvSelStatRxeng 1, 2), (F.cvSelStatTxeng 1, 2), (F.lfActStatState 1, 2)] with waves := [(1, { leaf := true, announced := true })] },
    by decide +kernel⟩,
   ⟨1, 1, 1, st { live [(F.lfActStatState 1, 2)] with waves := [(1, { leaf := true })] }, by decide +kernel⟩,
   ⟨1, 0, 0xFFE, st { live [(F.lfActStatState 1, 3)] with waves := [(1, { leaf := true })] }, by decide +kernel⟩⟩

theorem witness_ActivationTimersAndHostAct :
    (∃ (w : Fin 2) (s : State), s.dev.get (F.lfActStatState w) = 2)
    ∧ (∃ (w : Fin 2) (s : State), (s.dev.wave w).announced = true)
    ∧ (∃ (w : Fin 2) (s : State), (s.dev.wave w).eqds ≠ [])
    ∧ (∃ (w : Fin 2) (s : State), s.dev.get (F.lfActStatState w) = 3 ∧ (s.dev.wave w).eqds = [])
    ∧ (∃ (w : Fin 2) (s : State), s.dev.get (F.lfActStatState w) = 4)
    ∧ (∃ (w : Fin 2) (s : State), s.dev.get (F.lfActStatDsloss w) = 1)
    ∧ (∃ (w : Fin 2) (s : State), (s.dev.wave w).leaf = true ∧ (s.dev.wave w).burstsOn.any s.dev.burstOpen = false)
    ∧ (∃ (w : Fin 2) (s : State), s.dev.Takes (R.lfActCtl w) (s.dev.withField (F.lfActCtlResume w) 1) ∧ s.dev.get
      (F.lfActStatState w) = 5 ∧ s.dev.get (F.lfActStatSilhe w) = 0 ∧ s.dev.get (F.lfActStatRet w) ≠ 5)
    ∧ (∃ (w : Fin 2) (s : State), s.dev.Takes (R.lfActCtl w) (s.dev.withField (F.lfActCtlDeact w) 1) ∧ ((s.dev.get
      (F.lfActStatState w) = 3 ∨ s.dev.get (F.lfActStatState w) = 4))) :=
  ⟨⟨1, st
    { live [(F.cvSelStatRxeng 1, 2), (F.cvSelStatTxeng 1, 2), (F.lfActStatState 1, 2)] with waves := [(1, { leaf := true })] },
    by decide +kernel⟩,
   ⟨1, st
     { live [(F.cvSelStatRxeng 1, 2), (F.cvSelStatTxeng 1, 2), (F.lfActStatState 1, 2)] with waves := [(1, { leaf := true, announced := true, bkmax := 255 })] },
     by decide +kernel⟩,
   ⟨1, st
     { live [(F.cvSelStatRxeng 1, 2), (F.cvSelStatTxeng 1, 2), (F.lfActStatState 1, 3), (F.lfActIdTid 1, 9)] with waves := [(1, { leaf := true, eqds := [(5, 7)] })] },
     by decide +kernel⟩,
   ⟨1, st
     { live [(F.cvSelStatRxeng 1, 2), (F.cvSelStatTxeng 1, 2), (F.lfActStatState 1, 3), (F.lfActIdTid 1, 9)] with waves := [(1, { leaf := true })] },
     by decide +kernel⟩,
   ⟨1, st
     { live [(F.cvSelStatRxeng 1, 2), (F.cvSelStatTxeng 1, 2), (F.lfActStatState 1, 4), (F.lfActIdTid 1, 9)] with waves := [(1, { leaf := true })] },
     by decide +kernel⟩,
   ⟨1, st
     { live [(F.cvSelStatRxeng 1, 2), (F.cvSelStatTxeng 1, 2), (F.lfActStatState 1, 4), (F.lfActIdTid 1, 9), (F.lfActStatDsloss 1, 1)] with waves := [(1, { leaf := true })] },
     by decide +kernel⟩,
   ⟨1, st
     { live [(F.cvSelStatRxeng 1, 2), (F.cvSelStatTxeng 1, 2), (F.lfActStatState 1, 4)] with waves := [(1, { leaf := true })] },
     by decide +kernel⟩,
   ⟨1, st
     { live [(F.cvSelStatRxeng 1, 2), (F.cvSelStatTxeng 1, 2), (F.lfActStatState 1, 5), (F.lfActStatSilsp 1, 1), (F.lfActStatRet 1, 4)] with waves := [(1, { leaf := true })] },
     takes_of (by decide +kernel), by decide +kernel⟩,
   ⟨1, st
     { live [(F.cvSelStatRxeng 1, 2), (F.cvSelStatTxeng 1, 2), (F.lfActStatState 1, 4), (F.lfActIdTid 1, 9)] with waves := [(1, { leaf := true })] },
     takes_of (by decide +kernel), by decide +kernel⟩⟩

theorem witness_GrantsBecomeBursts :
    (∃ (w : Fin 2) (tsfn : Word) (g : GrantIn) (s : State), (s.dev.wave w).leaf = true ∧ 2 ≤ s.dev.get (F.lfActStatState w) ∧
      s.dev.get (F.lfActStatState w) ≤ 4 ∧ s.dev.get (F.lfActStatDsloss w) = 0 ∧ g.tid = s.dev.get (F.lfActIdTid w) ∧ g.tid ≠
      0 ∧ g.tid ≠ 0xFFF ∧ ((sfnSub tsfn.toNat (s.dev.beaconSfn w) = 1 ∨ sfnSub tsfn.toNat (s.dev.beaconSfn w) = 2)) ∧ 2 ≤
      g.len ∧ g.start + g.len ≤ 1024 ∧ (s.dev.txSet w).testBit g.sc = true ∧ g.rng = true ∧ (s.dev.wave w).grants = [] ∧
      (s.dev.wave w).grantsSeen tsfn.toNat < 64)
    ∧ (∃ (w : Fin 2) (tsfn : Word) (gs : List GrantIn) (s : State), (s.dev.wave w).leaf = true ∧ 2 ≤ s.dev.get
      (F.lfActStatState w) ∧ s.dev.get (F.lfActStatState w) ≤ 4 ∧ s.dev.get (F.lfActStatDsloss w) = 0 ∧ gs ≠ [] ∧ gs.length ≤
      39 ∧ s.dev.get (F.lfActIdTid w) ≠ 0 ∧ s.dev.get (F.lfActIdTid w) ≠ 0xFFF ∧ (∀ g ∈ gs, g.tid = s.dev.get (F.lfActIdTid
      w) ∧ 2 ≤ g.len ∧ g.start + g.len ≤ 1024 ∧ (s.dev.txSet w).testBit g.sc = true ∧ g.rng = true) ∧ gs.Pairwise (fun a b =>
      a.sc ≠ b.sc) ∧ ((sfnSub tsfn.toNat (s.dev.beaconSfn w) = 1 ∨ sfnSub tsfn.toNat (s.dev.beaconSfn w) = 2)) ∧ (s.dev.wave
      w).grants = [] ∧ (s.dev.wave w).grantsSeen tsfn.toNat + gs.length ≤ 64)
    ∧ (∃ (w : Fin 2) (tsfn : Word) (gs : List GrantIn) (s : State), (s.dev.wave w).leaf = true ∧ 2 ≤ s.dev.get
      (F.lfActStatState w) ∧ s.dev.get (F.lfActStatState w) ≤ 4 ∧ gs.length ≤ 39 ∧ s.dev.get (F.lfActIdTid w) ≠ 0 ∧ (∃ g ∈
      gs, g.tid = s.dev.get (F.lfActIdTid w)) ∧ sfnSub tsfn.toNat (s.dev.beaconSfn w) ≠ 1 ∧ sfnSub tsfn.toNat
      (s.dev.beaconSfn w) ≠ 2)
    ∧ (∃ (w : Fin 2) (tsfn : Word) (g : GrantIn) (s : State), (s.dev.wave w).leaf = true ∧ 2 ≤ s.dev.get (F.lfActStatState w)
      ∧ s.dev.get (F.lfActStatState w) ≤ 4 ∧ g.tid = s.dev.get (F.lfActIdTid w) ∧ g.tid ≠ 0 ∧ sfnSub tsfn.toNat
      (s.dev.beaconSfn w) ≠ 1 ∧ sfnSub tsfn.toNat (s.dev.beaconSfn w) ≠ 2)
    ∧ (∃ (w : Fin 2) (tsfn : Word) (g : GrantIn) (s : State), (s.dev.wave w).leaf = true ∧ s.dev.get (F.lfActStatState w) = 5
      ∧ g.tid = s.dev.get (F.lfActIdTid w) ∧ g.tid ≠ 0 ∧ sfnSub tsfn.toNat (s.dev.beaconSfn w) ≠ 1 ∧ sfnSub tsfn.toNat
      (s.dev.beaconSfn w) ≠ 2)
    ∧ (∃ (w : Fin 2) (sc : Fin 32) (tsfn : Word) (start : BitVec 10) (mism : List Nat) (g : Grant) (e : Nat) (s : State),
      (s.dev.wave w).grants = [g] ∧ g.sc = sc.val ∧ g.tsfn = tsfn.toNat ∧ g.start = start.toNat ∧ g.rng = true ∧ g.disc =
      false ∧ g.srq = false ∧ s.dev.get (F.lfActStatState w) = 3 ∧ s.dev.get (F.lfActStatDsloss w) = 0 ∧ s.dev.get
      (F.lfActStatSilsp w) = 0 ∧ s.dev.get (F.lfActStatSilhe w) = 0 ∧ (s.dev.wave w).dsBack = none ∧ (s.dev.wave w).gap =
      false ∧ (s.dev.wave w).txCut = false ∧ (s.dev.wave w).txNext = none ∧ s.dev.lineOk w = true ∧ s.dev.serving w = some e
      ∧ (s.dev.eng e).muteOut = false ∧ (s.dev.wave w).burstsOn = [] ∧ s.dev.InjIdle (96 + 32 * w + sc))
    ∧ (∃ (w : Fin 2) (sc : Fin 32) (tsfn : Word) (start : BitVec 10) (b : BurstOn) (s : State), (s.dev.wave w).burstsOn = [b]
      ∧ b.grant.sc = sc.val ∧ b.grant.tsfn = tsfn.toNat ∧ b.grant.start = start.toNat) :=
  ⟨⟨1, 1, ⟨4094, 31, 1022, 2, true, false⟩, st
    { live [(F.cvSelStatRxeng 1, 2), (F.cvSelStatTxeng 1, 2), (F.lfActStatState 1, 4), (F.lfActIdTid 1, 4094), (F.lfScsSfnSfn 1 0, 4294967295)] with waves := [(1, { leaf := true })], grps := [(63, { txMask := 0x80000001 })] },
    by decide +kernel⟩,
   ⟨1, 0, [⟨4094, 31, 1022, 2, true, false⟩, ⟨4094, 0, 1022, 2, true, true⟩], st
     { live [(F.cvSelStatRxeng 1, 2), (F.cvSelStatTxeng 1, 2), (F.lfActStatState 1, 4), (F.lfActIdTid 1, 4094), (F.lfScsSfnSfn 1 0, 4294967295)] with waves := [(1, { leaf := true })], grps := [(63, { txMask := 0x80000001 })] },
     by decide +kernel⟩,
   ⟨1, 2, [⟨4094, 31, 1022, 2, true, false⟩, ⟨4093, 0, 1022, 2, true, true⟩], st
     { live [(F.cvSelStatRxeng 1, 2), (F.cvSelStatTxeng 1, 2), (F.lfActStatState 1, 4), (F.lfActIdTid 1, 4094), (F.lfScsSfnSfn 1 0, 4294967295)] with waves := [(1, { leaf := true })], grps := [(63, { txMask := 0x80000001 })] },
     by decide +kernel⟩,
   ⟨1, 2, ⟨4094, 31, 1022, 2, true, false⟩, st
     { live [(F.cvSelStatRxeng 1, 2), (F.cvSelStatTxeng 1, 2), (F.lfActStatState 1, 4), (F.lfActIdTid 1, 4094), (F.lfScsSfnSfn 1 0, 4294967295)] with waves := [(1, { leaf := true })], grps := [(63, { txMask := 0x80000001 })] },
     by decide +kernel⟩,
   ⟨1, 2, ⟨4094, 31, 1022, 2, true, false⟩, st
     { live [(F.cvSelStatRxeng 1, 2), (F.cvSelStatTxeng 1, 2), (F.lfActStatState 1, 5), (F.lfActIdTid 1, 4094), (F.lfScsSfnSfn 1 0, 4294967295)] with waves := [(1, { leaf := true })], grps := [(63, { txMask := 0x80000001 })] },
     by decide +kernel⟩,
   ⟨1, 31, 1, 1022, [], ⟨1, 31, 1022, 2, true, false, false⟩, 2, st
     { live [(F.cvSelStatRxeng 1, 2), (F.cvSelStatTxeng 1, 2), (F.lfActStatState 1, 3), (F.lfActIdTid 1, 4094)] with waves := [(1, { leaf := true, bseq := 255, grants := [⟨1, 31, 1022, 2, true, false, false⟩] })], grps := [(63, { txMask := 0x80000000 })] },
     by unfold Dev.InjIdle; decide +kernel⟩,
   ⟨1, 31, 1, 1022, ⟨⟨1, 31, 1022, 2, true, false, false⟩, 0, 0⟩, st
     { live [(F.cvSelStatRxeng 1, 2), (F.cvSelStatTxeng 1, 2), (F.lfActStatState 1, 3)] with waves := [(1, { leaf := true, burstsOn := [⟨⟨1, 31, 1022, 2, true, false, false⟩, 0, 0⟩] })] },
     by decide +kernel⟩⟩

theorem witness_ProfileChangesAreAgreed :
    (∃ (w : Fin 2) (tid : BitVec 12) (mseq : BitVec 16) (esfn : Word) (mdir : Byte) (mask : Word) (codes : List Byte) (s :
      State), (s.dev.wave w).leaf = false ∧ (s.dev.wave w).proposal = none ∧ mdir.toNat ≤ 1 ∧ s.dev.profResult w mdir.toNat
      mask.toNat esfn.toNat (codes.map (·.toNat)) = 0)
    ∧ (∃ (w : Fin 2) (tid : BitVec 12) (mseq : BitVec 16) (esfn : Word) (mdir : Byte) (op : Byte) (mask : Word) (codes : List
      Byte) (s : State), (s.dev.wave w).leaf = false ∧ (s.dev.wave w).proposal = none ∧ mdir.toNat ≤ 1 ∧ op.toNat ≤ 1 ∧
      s.dev.profResult w mdir.toNat mask.toNat esfn.toNat (codes.map (·.toNat)) ≠ 0)
    ∧ (∃ (w : Fin 2) (dir : Fin 2) (sfn : Word) (p : ProfPend) (e : Nat) (s : State), (s.dev.wave w).pend = [p] ∧ p.dir =
      dir.val ∧ sfnGe sfn.toNat p.esfn = true ∧ p.sc < 32 ∧ p.code < 256 ∧ (s.dev.wave w).txCut = false ∧ s.dev.serving w =
      some e ∧ s.dev.receivers w = [e])
    ∧ (∃ (w : Fin 2) (amseq : BitVec 16) (result : Byte) (esfn : Word) (p : Proposal) (s : State), (s.dev.wave w).leaf =
      false ∧ (s.dev.wave w).proposal = some p ∧ p.mseq = amseq.toNat ∧ result.toNat ≠ 0 ∧ result.toNat ≤ 6)
    ∧ (∃ (w : Fin 2) (v : Word) (s : State), s.dev.Takes (R.lfPrfReq w) ((F.lfPrfReqGo w).put v 1))
    ∧ (∃ (w : Fin 2) (p : Proposal) (s : State), (s.dev.wave w).proposal = some p ∧ p.acked = false) :=
  ⟨⟨1, 0, 0xFFFF, 3, 1, 0x80000000, List.replicate 31 0 ++ [0x1F], st
    { live [(F.cvSelStatRxeng 1, 2), (F.cvSelStatTxeng 1, 2)] with waves := [(1, { txSfn := 4294967295 })] },
    by decide +kernel⟩,
   ⟨1, 0, 0xFFFF, 2, 1, 1, 0x80000000, List.replicate 31 0 ++ [0x1F], st
     { live [(F.cvSelStatRxeng 1, 2), (F.cvSelStatTxeng 1, 2)] with waves := [(1, { txSfn := 4294967295 })] },
     by decide +kernel⟩,
   ⟨1, 1, 0, ⟨1, 31, 31, 4294967295, true⟩, 2, st
     { live [(F.cvSelStatRxeng 1, 2), (F.cvSelStatTxeng 1, 2)] with waves := [(1, { pend := [⟨1, 31, 31, 4294967295, true⟩] })] },
     by decide +kernel⟩,
   ⟨1, 0xFFFF, 6, 0, ⟨1, false, [(31, 31)], 9, 0xFFFF, false⟩, st
     { live [(F.cvSelStatRxeng 1, 2), (F.cvSelStatTxeng 1, 2), (F.lfPrfStatBusy 1, 1)] with waves := [(1, { proposal := some ⟨1, false, [(31, 31)], 9, 0xFFFF, false⟩ })] },
     by decide +kernel⟩,
   ⟨1, (F.lfPrfReqLead 1).put 0 4, st
     { live [(F.cvSelStatRxeng 1, 2), (F.cvSelStatTxeng 1, 2), (F.lfPrfCodeInc 1 31, 1)] with waves := [(1, { txSfn := 9, mseq := 65535 })] },
     takes_of (by decide +kernel)⟩,
   ⟨1, ⟨1, false, [(31, 31)], 9, 0xFFFF, false⟩, st
     { live [(F.cvSelStatRxeng 1, 2), (F.cvSelStatTxeng 1, 2), (F.lfPrfStatBusy 1, 1)] with waves := [(1, { proposal := some ⟨1, false, [(31, 31)], 9, 0xFFFF, false⟩ })] },
     by decide +kernel⟩⟩

theorem witness_KeysAreLoadedAndSwitched :
    (∃ (w : Fin 2) (tid : BitVec 12) (mseq : BitVec 16) (gid : Byte) (kidx : Byte) (esfn : Word) (s : State), (s.dev.wave
      w).leaf = false ∧ (s.dev.wave w).keyProposal = none ∧ gid.toNat ≤ 31 ∧ kidx.toNat ≤ 1 ∧ s.dev.keyResult w 1 gid.toNat
      kidx.toNat esfn.toNat = 0)
    ∧ (∃ (w : Fin 2) (amseq : BitVec 16) (esfn : Word) (p : KeyProposal) (s : State), (s.dev.wave w).leaf = false ∧
      (s.dev.wave w).keyProposal = some p ∧ p.mseq = amseq.toNat ∧ p.dir = 1 ∧ p.acked = false)
    ∧ (∃ (w : Fin 2) (v : Word) (s : State), s.dev.Takes (R.lfCryKsw w) ((F.lfCryKswGo w).put v 1))
    ∧ (∃ (w : Fin 2) (sfn : Word) (p : KeyPend) (s : State), (s.dev.wave w).keyPend = [p] ∧ p.dir = 1 ∧ sfnGe sfn.toNat
      p.esfn = true ∧ (s.dev.wave w).keyProposal = none ∧ p.gid < 32 ∧ p.kidx < 2 ∧ ((s.dev.cry w p.gid).tx p.kidx).loaded =
      true ∧ ((s.dev.cry w p.gid).tx p.kidx).spent = false)
    ∧ (∃ (w : Fin 2) (v : Word) (s : State), s.dev.Takes (R.lfCryKcmd w) (kcmdWord w v 0) ∧ (F.lfCryKcmdDir w).of v = 1 ∧
      (F.lfCryKcmdSlot w).of v = 0)
    ∧ (∃ (w : Fin 2) (v : Word) (s : State), s.dev.Takes (R.lfCryKcmd w) (kcmdWord w v 1) ∧ (F.lfCryKcmdDir w).of v = 1 ∧
      (F.lfCryKcmdSlot w).of v = 1) :=
  ⟨⟨1, 0, 0xFFFF, 31, 1, 3, st
    { live [(F.cvSelStatRxeng 1, 2), (F.cvSelStatTxeng 1, 2)] with waves := [(1, { txSfn := 4294967295 })], grps := [(63, { encTx := true, txMask := 0x80000000 })], crys := [(63, { tx1 := { loaded := true } })] },
    by decide +kernel⟩,
   ⟨1, 0xFFFF, 0, ⟨1, 31, 1, 9, 0xFFFF, false⟩, st
     { live [(F.cvSelStatRxeng 1, 2), (F.cvSelStatTxeng 1, 2)] with waves := [(1, { keyProposal := some ⟨1, 31, 1, 9, 0xFFFF, false⟩ })] },
     by decide +kernel⟩,
   ⟨1, (F.lfCryKswLead 1).put 0 4, st
     { live [(F.cvSelStatRxeng 1, 2), (F.cvSelStatTxeng 1, 2)] with waves := [(1, { mseq := 65535 })] }, takes_of
     (by decide +kernel)⟩,
   ⟨1, 0, ⟨1, 31, 1, 4294967295⟩, st
     { live [(F.cvSelStatRxeng 1, 2), (F.cvSelStatTxeng 1, 2)] with waves := [(1, { keyPend := [⟨1, 31, 1, 4294967295⟩] })], crys := [(63, { tx1 := { loaded := true } })] },
     by decide +kernel⟩,
   ⟨1, (F.lfCryKcmdGid 1).put ((F.lfCryKcmdDir 1).put 0 1) 31, st
     { live [(F.cvSelStatRxeng 1, 2), (F.cvSelStatTxeng 1, 2), (F.lfGrpMembMask 1 31, 1), (F.lfCryKeywKeyw 1 7, 0xDEADBEEF), (F.lfCrySaltSalt 1, 5)] with grps := [(63, { encRx := true })] },
     takes_of (by decide +kernel), by decide +kernel⟩,
   ⟨1, (F.lfCryKcmdSlot 1).put ((F.lfCryKcmdGid 1).put ((F.lfCryKcmdDir 1).put 0 1) 31) 1, st
     { live [(F.cvSelStatRxeng 1, 2), (F.cvSelStatTxeng 1, 2), (F.lfGrpMembMask 1 31, 1), (F.lfCryrStatLd1 1 31, 1)] with grps := [(63, { encRx := true })], crys := [(63, { rx1 := { loaded := true } })] },
     takes_of (by decide +kernel), by decide +kernel⟩⟩

theorem witness_StreamsSealAndRecover :
    (∃ (i : Instr) (s : State),
      (match i with | .sealGroup .. | .urgentPair .. | .tagRx .. | .haltResume .. | .cryClrflt .. => True | _ => False))
    ∧ (∃ (w : Fin 2) (g : Fin 32) (mismatches : Nat) (s : State), (((s.dev.wave w).leaf = true ∨ s.dev.sealing w g = false)))
    ∧ (∃ (w : Fin 2) (g : Fin 32) (mismatches : Nat) (s : State), ((s.dev.sealing w g = false ∨ s.dev.carriesCtrl w g = false
      ∨ s.dev.get (F.lfCryCfgUrgctl w) = 0 ∨ (s.dev.wave w).gap = true ∨ (s.dev.wave w).ctrlQ = [])))
    ∧ (∃ (w : Fin 2) (sc : Fin 32) (k : Nat) (cell : List Byte) (mismatches : Nat) (s : State), cell.length = 256 ∧
      (((cellHdr cell).type ≠ 7 ∨ s.dev.rxGroup w sc = none ∨ ((s.dev.wave w).gap = false ∧ s.dev.lineOk w = false))))
    ∧ (∃ (w : Fin 2) (g : Fin 32) (s : State), (s.dev.cry w g).resume = none)
    ∧ (∃ (w : Fin 2) (g : Fin 32) (s : State), (s.dev.wave w).leaf = false ∧ s.dev.sealing w g = true ∧ s.dev.carriesCtrl w g
      = false ∧ (s.dev.grp w g).txCells = [] ∧ ((s.dev.cry w g).tx (s.dev.get (F.lfCrytStatSlot w g))).ctr < 2 ^ 48 - 1)
    ∧ (∃ (w : Fin 2) (g : Fin 32) (mismatches : Nat) (s : State), (s.dev.wave w).leaf = false ∧ s.dev.sealing w g = true ∧
      s.dev.carriesCtrl w g = false ∧ (s.dev.grp w g).txCells = [] ∧ 2 ≤ mismatches)
    ∧ (∃ (w : Fin 2) (g : Fin 32) (m : CtrlOut) (rest : List CtrlOut) (s : State), s.dev.sealing w g = true ∧
      s.dev.carriesCtrl w g = true ∧ s.dev.get (F.lfCryCfgUrgctl w) = 1 ∧ (s.dev.wave w).gap = false ∧ (s.dev.wave w).ctrlQ =
      m :: rest)
    ∧ (∃ (w : Fin 2) (g : Nat) (sc : Fin 32) (k : Nat) (cell : List Byte) (mismatches : Nat) (s : State), s.dev.NextCell w g
      sc k ∧ s.dev.encRx w g = true ∧ cell.length = 256 ∧ cellHecOk cell = true ∧ (cellHdr cell).type = 7 ∧ (cellHdr
      cell).len = 24 ∧ (cellHdr cell).seq = s.dev.cellIndex w g sc k % 256 ∧ (beAt (cell.drop 8) 6 1).testBit 1 = false ∧
      s.dev.get (F.lfCryrStatFault w g) = 0 ∧ (s.dev.cry w g).accBad = false ∧ (s.dev.cry w g).accLost = false ∧ beAt
      (cell.drop 8) 7 1 = (s.dev.cry w g).acc.length ∧ ((s.dev.cry w g).rx (beAt (cell.drop 8) 6 1 % 2)).loaded = false)
    ∧ (∃ (w : Fin 2) (g : Fin 32) (k : Nat) (s : State), (s.dev.cry w g).resume = some (k, true) ∧ k < 2 ∧ s.dev.get
      (F.lfCrytStatHalt w g) ≠ 0)
    ∧ (∃ (w : Fin 2) (g : Fin 32) (s : State), s.dev.Takes (R.lfCryrCtl w g) (s.dev.withField (F.lfCryrCtlClrflt w g) 1))
    ∧ (∃ (w : Fin 2) (g : Fin 32) (s : State), s.dev.Takes (R.lfCrytCtl w g) (s.dev.withField (F.lfCrytCtlClrflt w g) 1) ∧
      s.dev.get (F.lfCrytStatHalt w g) = 2 ∧ (s.dev.slotInUse w g).loaded = true ∧ (s.dev.slotInUse w g).spent = false) :=
  ⟨⟨.sealGroup 1 31 9, State.reset, trivial⟩,
   ⟨1, 31, 2, st { live [(F.cvSelStatRxeng 1, 2), (F.cvSelStatTxeng 1, 2)] with waves := [(1, { leaf := true })] },
     by decide +kernel⟩,
   ⟨1, 31, 2, st (live [(F.cvSelStatRxeng 1, 2), (F.cvSelStatTxeng 1, 2), (F.lfCryCfgUrgctl 1, 1)]), by decide +kernel⟩,
   ⟨1, 31, 1, List.replicate 256 0, 0, st (live [(F.cvSelStatRxeng 1, 2), (F.cvSelStatTxeng 1, 2)]), by decide +kernel⟩,
   ⟨1, 31, st (live [(F.cvSelStatRxeng 1, 2), (F.cvSelStatTxeng 1, 2)]), by decide +kernel⟩,
   ⟨1, 31, st
     { live [(F.cvSelStatRxeng 1, 2), (F.cvSelStatTxeng 1, 2), (F.lfCrytStatHalt 1 31, 0)] with grps := [(63, { encTx := true, txMask := 0x80000000 })], crys := [(63, { tx0 := { loaded := true, ctr := 281474976710654 } })] },
     by decide +kernel⟩,
   ⟨1, 31, 2, st
     { live [(F.cvSelStatRxeng 1, 2), (F.cvSelStatTxeng 1, 2), (F.lfCrytStatHalt 1 31, 0)] with grps := [(63, { encTx := true, txMask := 0x80000000 })], crys := [(63, { tx0 := { loaded := true, ctr := 281474976710654 } })] },
     by decide +kernel⟩,
   ⟨1, 0, ⟨4, 0, [], none⟩, [], st
     { live [(F.cvSelStatRxeng 1, 2), (F.cvSelStatTxeng 1, 2), (F.lfCrytStatHalt 1 0, 0), (F.lfCryCfgUrgctl 1, 1)] with waves := [(1, { ctrlQ := [⟨4, 0, [], none⟩] })], grps := [(32, { encTx := true, txMask := 1 })], crys := [(32, { tx0 := { loaded := true, ctr := 5 } })] },
     by decide +kernel⟩,
   ⟨1, 31, 31, 120, buildCell 0 7 256 24 (beBytes 6 5 ++ [1, 0]), 0, st
     { live [(F.cvSelStatRxeng 1, 2), (F.cvSelStatTxeng 1, 2), (F.lfGrpMembMask 1 31, 0x80000001), (F.lfGrpStatState 1 31, 2), (F.lfGrpStatSize 1 31, 2)] with grps := [(63, { encRx := true, next := some (0, 256) })], scs := [(63, { curG := 16 })] },
     nextCell_of (by decide +kernel), by decide +kernel⟩,
   ⟨1, 31, 1, st
     { live [(F.cvSelStatRxeng 1, 2), (F.cvSelStatTxeng 1, 2), (F.lfCrytStatHalt 1 31, 2)] with crys := [(63, { resume := some (1, true), tx1 := { loaded := true } })] },
     by decide +kernel⟩,
   ⟨1, 31, st (live [(F.cvSelStatRxeng 1, 2), (F.cvSelStatTxeng 1, 2), (F.lfCryrStatFault 1 31, 1)]), takes_of
     (by decide +kernel)⟩,
   ⟨1, 31, st
     { live [(F.cvSelStatRxeng 1, 2), (F.cvSelStatTxeng 1, 2), (F.lfCrytStatHalt 1 31, 2)] with crys := [(63, { tx0 := { loaded := true } })] },
     takes_of (by decide +kernel), by decide +kernel⟩⟩

theorem witness_TheSpareTakesOver :
    (∃ (e : Fin 3) (cause : Fin 8) (lost : Nat) (w : Nat) (i : Nat) (s : State), s.dev.Calm ∧ s.dev.spr.move = none ∧
      s.dev.cordOn (1 + e) = true ∧ s.dev.role e = 1 ∧ s.dev.wlOf e = some w ∧ s.dev.spare = some i ∧ 1 ≤ cause.val ∧
      cause.val ≤ 5 ∧ s.dev.get (F.hrtSprEngFlt24 e) + 1 < s.dev.get F.hrtSprCfg2Fltmax)
    ∧ (∃ (e : Fin 3) (cause : Fin 8) (lost : Nat) (w : Nat) (s : State), s.dev.Calm ∧ s.dev.spr.move = none ∧ s.dev.cordOn (1
      + e) = true ∧ s.dev.role e = 1 ∧ s.dev.wlOf e = some w ∧ s.dev.spare = none ∧ 1 ≤ cause.val ∧ cause.val ≤ 5 ∧ s.dev.get
      (F.hrtSprEngFlt24 e) + 1 < s.dev.get F.hrtSprCfg2Fltmax)
    ∧ (∃ (e : Fin 3) (m : Move) (s : State), s.dev.Calm ∧ s.dev.spr.move = some m ∧ m.inc = e.val ∧ m.step = 1 ∧ m.wl < 2 ∧
      (m.kind = .takeover ∨ m.kind = .restore) ∧ (s.dev.spr1 e).loading = true ∧ s.dev.cordOn (1 + e) = true)
    ∧ (∃ (w : Fin 2) (gap : Nat) (m : Move) (s : State), s.dev.spr.move = some m ∧ m.wl = w.val ∧ m.step = 2 ∧ m.kind =
      .takeover ∧ (s.dev.wave w).gap = true ∧ s.dev.get (F.leRxcStatAcq m.inc) = 6 ∧ s.dev.released (6 + w) = true ∧
      s.dev.gapFrameGood w = true ∧ s.dev.spr.next = none)
    ∧ (∃ (w : Fin 2) (gap : Nat) (s : State), s.dev.released (6 + w) = false)
    ∧ (∃ (w : Fin 2) (s : State), (s.dev.wave w).gap = true ∧ w.val ∉ s.dev.spr.late) :=
  ⟨⟨1, 5, 3, 1, 2, st (live [(F.hrtSprStatWaeng, 0), (F.hrtSprStatWbeng, 1), (F.hrtSprEngRole 0, 1), (F.hrtSprEngRole 1, 1),
    (F.hrtSprEngRole 2, 0), (F.cvSelStatRxeng 0, 0), (F.cvSelStatTxeng 0, 0), (F.cvSelStatRxeng 1, 1), (F.cvSelStatTxeng 1,
    1)]), by unfold Dev.Calm; decide +kernel⟩,
   ⟨1, 5, 3, 1, st (live [(F.hrtSprStatWaeng, 0), (F.hrtSprStatWbeng, 1), (F.hrtSprEngRole 0, 1), (F.hrtSprEngRole 1, 1),
     (F.hrtSprEngRole 2, 0), (F.cvSelStatRxeng 0, 0), (F.cvSelStatTxeng 0, 0), (F.cvSelStatRxeng 1, 1), (F.cvSelStatTxeng 1,
     1), (F.hrtSprEngRole 2, 4)]), by unfold Dev.Calm; decide +kernel⟩,
   ⟨2, ⟨.takeover, 1, 2, 1, 1, 0, false⟩, st
     { live [(F.hrtSprStatWaeng, 0), (F.hrtSprStatWbeng, 1), (F.hrtSprEngRole 0, 1), (F.hrtSprEngRole 1, 1), (F.hrtSprEngRole 2, 0), (F.cvSelStatRxeng 0, 0), (F.cvSelStatTxeng 0, 0), (F.cvSelStatRxeng 1, 1), (F.cvSelStatTxeng 1, 1), (F.hrtSprStatWbeng, 3), (F.hrtSprEngRole 1, 2)] with spr := { move := some ⟨.takeover, 1, 2, 1, 1, 0, false⟩, engs := [(2, { loading := true })] }, waves := [(1, { gap := true, txCut := true })] },
     by unfold Dev.Calm; decide +kernel⟩,
   ⟨1, 16777216, ⟨.takeover, 1, 2, 1, 2, 0, false⟩, st
     { live [(F.hrtSprStatWaeng, 0), (F.hrtSprStatWbeng, 1), (F.hrtSprEngRole 0, 1), (F.hrtSprEngRole 1, 1), (F.hrtSprEngRole 2, 0), (F.cvSelStatRxeng 0, 0), (F.cvSelStatTxeng 0, 0), (F.cvSelStatRxeng 1, 1), (F.cvSelStatTxeng 1, 1), (F.hrtSprStatBusy, 1), (F.hrtSprStatWbeng, 2), (F.hrtSprEngRole 1, 2), (F.leRxcStatAcq 2, 6), (F.lfScsAlnState 1 31, 2), (F.cvSelStatRxeng 1, 2), (F.cvSelStatTxeng 1, 2)] with spr := { move := some ⟨.takeover, 1, 2, 1, 2, 0, false⟩ }, scs := [(63, { gapGood := true })], waves := [(1, { gap := true })] },
     by decide +kernel⟩,
   ⟨1, 5, st
     { live [(F.hrtSprStatWaeng, 0), (F.hrtSprStatWbeng, 1), (F.hrtSprEngRole 0, 1), (F.hrtSprEngRole 1, 1), (F.hrtSprEngRole 2, 0), (F.cvSelStatRxeng 0, 0), (F.cvSelStatTxeng 0, 0), (F.cvSelStatRxeng 1, 1), (F.cvSelStatTxeng 1, 1), (F.hrtPwrCordSt 7, 2), (F.leRxcStatAcq 2, 6)] with spr := { move := some ⟨.takeover, 1, 2, 1, 2, 0, false⟩ }, waves := [(1, { gap := true })] },
     by decide +kernel⟩,
   ⟨1, st
     { live [(F.hrtSprStatWaeng, 0), (F.hrtSprStatWbeng, 1), (F.hrtSprEngRole 0, 1), (F.hrtSprEngRole 1, 1), (F.hrtSprEngRole 2, 0), (F.cvSelStatRxeng 0, 0), (F.cvSelStatTxeng 0, 0), (F.cvSelStatRxeng 1, 1), (F.cvSelStatTxeng 1, 1)] with waves := [(1, { gap := true })] },
     by decide +kernel⟩⟩

theorem witness_RestoresAndRevertsRun :
    (∃ (w : Fin 2) (e : Nat) (s : State), s.dev.seasoned w = some e ∧ w.val ∈ s.dev.spr.bare ∧ s.dev.spr.move = none ∧
      (s.dev.spr.bare.length < 2 ∨ s.dev.get F.hrtSprCfgPri = w))
    ∧ (∃ (w : Fin 2) (e : Nat) (o : Nat) (s : State), s.dev.revertDue w = some e ∧ s.dev.assigned w = some o ∧
      s.dev.revertFree w = true ∧ (s.dev.wave w).gap = false ∧ (s.dev.newest w).isSome = true)
    ∧ (∃ (w : Fin 2) (e : Nat) (o : Nat) (s : State), s.dev.revertDue w = some e ∧ s.dev.assigned w = some o ∧
      s.dev.revertFree w = true ∧ (s.dev.wave w).gap = false ∧ s.dev.newest w = none)
    ∧ (∃ (e : Fin 3) (m : Move) (n : Snap) (s : State), s.dev.Calm ∧ s.dev.spr.move = some m ∧ m.inc = e.val ∧ m.step = 1 ∧
      m.wl < 2 ∧ m.kind = .revert ∧ (s.dev.spr1 e).loading = true ∧ s.dev.cordOn (1 + e) = true ∧ s.dev.cordOn (4 + m.wl) =
      true ∧ s.dev.newest m.wl = some n)
    ∧ (∃ (w : Fin 2) (clean : Nat) (m : Move) (s : State), s.dev.Calm ∧ s.dev.spr.move = some m ∧ m.wl = w.val ∧ m.step = 2 ∧
      m.kind ≠ .takeover ∧ m.kind ≠ .restore ∧ m.inc < 3 ∧ m.out < 3 ∧ m.inc ≠ m.out ∧ s.dev.cordOn (4 + w) = true ∧
      s.dev.get (F.cvSelStatOverlap w) = 1 ∧ s.dev.get (F.leRxcStatAcq m.inc) = 6 ∧ s.dev.get F.hrtSprCfgRevq ≤ clean ∧
      s.dev.spr.next = none ∧ ((s.dev.wave w).leaf = false ∨ (s.dev.wave w).burstsOn = []))
    ∧ (∃ (w : Fin 2) (m : Move) (s : State), s.dev.Calm ∧ s.dev.spr.move = some m ∧ m.wl = w.val ∧ m.step = 2 ∧ m.kind ≠
      .takeover ∧ m.kind ≠ .restore ∧ m.inc < 3 ∧ s.dev.cordOn (4 + w) = true ∧ s.dev.spr.next = none) :=
  ⟨⟨1, 2, st
    { live [(F.hrtSprStatWaeng, 0), (F.hrtSprStatWbeng, 1), (F.hrtSprEngRole 0, 1), (F.hrtSprEngRole 1, 1), (F.hrtSprEngRole 2, 0), (F.cvSelStatRxeng 0, 0), (F.cvSelStatTxeng 0, 0), (F.cvSelStatRxeng 1, 1), (F.cvSelStatTxeng 1, 1), (F.hrtSprStatWaeng, 3), (F.hrtSprStatWbeng, 3), (F.hrtSprEngRole 2, 6), (F.hrtSprCfgPri, 1)] with spr := { bare := [0, 1] } },
    by decide +kernel⟩,
   ⟨1, 1, 2, st
     { live [(F.hrtSprStatWaeng, 0), (F.hrtSprStatWbeng, 1), (F.hrtSprEngRole 0, 1), (F.hrtSprEngRole 1, 1), (F.hrtSprEngRole 2, 0), (F.cvSelStatRxeng 0, 0), (F.cvSelStatTxeng 0, 0), (F.cvSelStatRxeng 1, 1), (F.cvSelStatTxeng 1, 1), (F.hrtSprStatWbeng, 2), (F.hrtSprEngRole 1, 6), (F.hrtSprEngRole 2, 1)] with spr := { engs := [(1, { home := 1, due := true })] }, ember := { snaps := [(2, some ⟨1, 0, 1, 1, true, false, 0, [], {}, []⟩)] } },
     by decide +kernel⟩,
   ⟨1, 1, 2, st
     { live [(F.hrtSprStatWaeng, 0), (F.hrtSprStatWbeng, 1), (F.hrtSprEngRole 0, 1), (F.hrtSprEngRole 1, 1), (F.hrtSprEngRole 2, 0), (F.cvSelStatRxeng 0, 0), (F.cvSelStatTxeng 0, 0), (F.cvSelStatRxeng 1, 1), (F.cvSelStatTxeng 1, 1), (F.hrtSprStatWbeng, 2), (F.hrtSprEngRole 1, 6), (F.hrtSprEngRole 2, 1)] with spr := { engs := [(1, { home := 1, due := true })] } },
     by decide +kernel⟩,
   ⟨1, ⟨.revert, 1, 1, 2, 1, 6, false⟩, ⟨1, 0, 1, 1, true, false, 0, [], {}, []⟩, st
     { live [(F.hrtSprStatWaeng, 0), (F.hrtSprStatWbeng, 1), (F.hrtSprEngRole 0, 1), (F.hrtSprEngRole 1, 1), (F.hrtSprEngRole 2, 0), (F.cvSelStatRxeng 0, 0), (F.cvSelStatTxeng 0, 0), (F.cvSelStatRxeng 1, 1), (F.cvSelStatTxeng 1, 1), (F.hrtSprStatWbeng, 2), (F.hrtSprEngRole 1, 6), (F.hrtSprEngRole 2, 1)] with spr := { move := some ⟨.revert, 1, 1, 2, 1, 6, false⟩, engs := [(1, { loading := true })] }, ember := { snaps := [(2, some ⟨1, 0, 1, 1, true, false, 0, [], {}, []⟩)] } },
     by unfold Dev.Calm; decide +kernel⟩,
   ⟨1, 64, ⟨.revert, 1, 1, 2, 2, 6, false⟩, st
     { live [(F.hrtSprStatWaeng, 0), (F.hrtSprStatWbeng, 1), (F.hrtSprEngRole 0, 1), (F.hrtSprEngRole 1, 1), (F.hrtSprEngRole 2, 0), (F.cvSelStatRxeng 0, 0), (F.cvSelStatTxeng 0, 0), (F.cvSelStatRxeng 1, 1), (F.cvSelStatTxeng 1, 1), (F.hrtSprStatWbeng, 2), (F.hrtSprEngRole 1, 6), (F.hrtSprEngRole 2, 1), (F.cvSelStatRxeng 1, 2), (F.cvSelStatTxeng 1, 2), (F.cvSelStatRxeng2 1, 1), (F.cvSelStatOverlap 1, 1), (F.leRxcStatAcq 1, 6), (F.hrtSprCfgRevq, 64)] with spr := { move := some ⟨.revert, 1, 1, 2, 2, 6, false⟩ } },
     by unfold Dev.Calm; decide +kernel⟩,
   ⟨1, ⟨.revert, 1, 1, 2, 2, 6, false⟩, st
     { live [(F.hrtSprStatWaeng, 0), (F.hrtSprStatWbeng, 1), (F.hrtSprEngRole 0, 1), (F.hrtSprEngRole 1, 1), (F.hrtSprEngRole 2, 0), (F.cvSelStatRxeng 0, 0), (F.cvSelStatTxeng 0, 0), (F.cvSelStatRxeng 1, 1), (F.cvSelStatTxeng 1, 1), (F.hrtSprStatWbeng, 2), (F.hrtSprEngRole 1, 6), (F.hrtSprEngRole 2, 1), (F.cvSelStatRxeng 1, 2), (F.cvSelStatTxeng 1, 2), (F.cvSelStatRxeng2 1, 1), (F.cvSelStatOverlap 1, 1)] with spr := { move := some ⟨.revert, 1, 1, 2, 2, 6, false⟩ } },
     by unfold Dev.Calm; decide +kernel⟩⟩

theorem witness_RepairAndSeasoningRun :
    (∃ (e : Fin 3) (s : State), s.dev.role e = 2 ∧ s.dev.cordOn (1 + e) = true)
    ∧ (∃ (e : Fin 3) (s : State), s.dev.role e = 2 ∧ s.dev.cordOn (1 + e) = true)
    ∧ (∃ (e : Fin 3) (left : Nat) (again : Bool) (s : State), s.dev.role e = 3 ∧ s.dev.cordOn (1 + e) = true)
    ∧ (∃ (e : Fin 3) (left : Nat) (again : Bool) (s : State), s.dev.role e = 3 ∧ s.dev.cordOn (1 + e) = true ∧ s.dev.get
      (F.hrtSprEngFlt24 e) + 1 < s.dev.get F.hrtSprCfg2Fltmax)
    ∧ (∃ (e : Fin 3) (s : State), s.dev.role e = 3 ∧ s.dev.cordOn (1 + e) = true)
    ∧ (∃ (e : Fin 3) (inSecond : Nat) (s : State), s.dev.waiting = [] ∧ s.dev.cordOn (1 + e) = true ∧ inSecond ≤ s.dev.get
      F.hrtSprCfg2Cethr)
    ∧ (∃ (e : Fin 3) (w : Nat) (s : State), s.dev.engWl e = some w ∧ s.dev.writesSnaps e = true ∧ Tbl.get 0 s.dev.ember.next
      e ≤ 1)
    ∧ (∃ (e : Fin 3) (w : Nat) (s : State), s.dev.engWl e = some w ∧ s.dev.writesSnaps e = true)
    ∧ (∃ (e : Fin 3) (done : Bool) (s : State), s.dev.writesSnaps e = false)
    ∧ (∃ (e : Fin 3) (s : State), s.dev.role e = 0 ∧ s.dev.wlOf e = none ∧ s.dev.inMove e = false ∧ s.dev.cordSt (1 + e) ≤ 3
      ∧ (∀ k < 3, k ≠ e.val → s.dev.role k ≠ 0 ∧ s.dev.role k ≠ 5) ∧ s.dev.get F.hrtSprCfg2Sptest ≠ 0)
    ∧ (∃ (e : Fin 3) (s : State), s.dev.role e = 5 ∧ s.dev.cordOn (1 + e) = true ∧ s.dev.inMove e = false ∧ (∀ k < 3, k ≠
      e.val → s.dev.role k ≠ 5))
    ∧ (∃ (e : Fin 3) (s : State), s.dev.role e = 5 ∧ s.dev.cordOn (1 + e) = true ∧ s.dev.inMove e = false ∧ (∀ k < 3, k ≠
      e.val → s.dev.role k ≠ 5))
    ∧ (∃ (e : Fin 3) (s : State), s.dev.role e = 0 ∧ s.dev.cordOn (1 + e) = true ∧ s.dev.inMove e = false) :=
  ⟨⟨2, st (live [(F.hrtSprStatWaeng, 0), (F.hrtSprStatWbeng, 1), (F.hrtSprEngRole 0, 1), (F.hrtSprEngRole 1, 1),
    (F.hrtSprEngRole 2, 0), (F.cvSelStatRxeng 0, 0), (F.cvSelStatTxeng 0, 0), (F.cvSelStatRxeng 1, 1), (F.cvSelStatTxeng 1,
    1), (F.hrtSprEngRole 2, 2)]), by decide +kernel⟩,
   ⟨2, st (live [(F.hrtSprStatWaeng, 0), (F.hrtSprStatWbeng, 1), (F.hrtSprEngRole 0, 1), (F.hrtSprEngRole 1, 1),
     (F.hrtSprEngRole 2, 0), (F.cvSelStatRxeng 0, 0), (F.cvSelStatTxeng 0, 0), (F.cvSelStatRxeng 1, 1), (F.cvSelStatTxeng 1,
     1), (F.hrtSprEngRole 2, 2)]), by decide +kernel⟩,
   ⟨2, 70000, true, st (live [(F.hrtSprStatWaeng, 0), (F.hrtSprStatWbeng, 1), (F.hrtSprEngRole 0, 1), (F.hrtSprEngRole 1, 1),
     (F.hrtSprEngRole 2, 0), (F.cvSelStatRxeng 0, 0), (F.cvSelStatTxeng 0, 0), (F.cvSelStatRxeng 1, 1), (F.cvSelStatTxeng 1,
     1), (F.hrtSprEngRole 2, 3)]), by decide +kernel⟩,
   ⟨2, 5, false, st (live [(F.hrtSprStatWaeng, 0), (F.hrtSprStatWbeng, 1), (F.hrtSprEngRole 0, 1), (F.hrtSprEngRole 1, 1),
     (F.hrtSprEngRole 2, 0), (F.cvSelStatRxeng 0, 0), (F.cvSelStatTxeng 0, 0), (F.cvSelStatRxeng 1, 1), (F.cvSelStatTxeng 1,
     1), (F.hrtSprEngRole 2, 3), (F.hrtSprStatSeasrem, 5)]), by decide +kernel⟩,
   ⟨2, st (live [(F.hrtSprStatWaeng, 0), (F.hrtSprStatWbeng, 1), (F.hrtSprEngRole 0, 1), (F.hrtSprEngRole 1, 1),
     (F.hrtSprEngRole 2, 0), (F.cvSelStatRxeng 0, 0), (F.cvSelStatTxeng 0, 0), (F.cvSelStatRxeng 1, 1), (F.cvSelStatTxeng 1,
     1), (F.hrtSprEngRole 2, 3), (F.hrtSprStatSeasrem, 5)]), by decide +kernel⟩,
   ⟨2, 0, st (live [(F.hrtSprStatWaeng, 0), (F.hrtSprStatWbeng, 1), (F.hrtSprEngRole 0, 1), (F.hrtSprEngRole 1, 1),
     (F.hrtSprEngRole 2, 0), (F.cvSelStatRxeng 0, 0), (F.cvSelStatTxeng 0, 0), (F.cvSelStatRxeng 1, 1), (F.cvSelStatTxeng 1,
     1), (F.hrtSprEngCecnt 2, 255)]), by decide +kernel⟩,
   ⟨1, 1, st (live [(F.hrtSprStatWaeng, 0), (F.hrtSprStatWbeng, 1), (F.hrtSprEngRole 0, 1), (F.hrtSprEngRole 1, 1),
     (F.hrtSprEngRole 2, 0), (F.cvSelStatRxeng 0, 0), (F.cvSelStatTxeng 0, 0), (F.cvSelStatRxeng 1, 1), (F.cvSelStatTxeng 1,
     1), (F.leRxcStatAcq 1, 6)]), by decide +kernel⟩,
   ⟨1, 1, st (live [(F.hrtSprStatWaeng, 0), (F.hrtSprStatWbeng, 1), (F.hrtSprEngRole 0, 1), (F.hrtSprEngRole 1, 1),
     (F.hrtSprEngRole 2, 0), (F.cvSelStatRxeng 0, 0), (F.cvSelStatTxeng 0, 0), (F.cvSelStatRxeng 1, 1), (F.cvSelStatTxeng 1,
     1), (F.leRxcStatAcq 1, 6)]), by decide +kernel⟩,
   ⟨2, true, st
     { live [(F.hrtSprStatWaeng, 0), (F.hrtSprStatWbeng, 1), (F.hrtSprEngRole 0, 1), (F.hrtSprEngRole 1, 1), (F.hrtSprEngRole 2, 0), (F.cvSelStatRxeng 0, 0), (F.cvSelStatTxeng 0, 0), (F.cvSelStatRxeng 1, 1), (F.cvSelStatTxeng 1, 1), (F.hrtSprSnapSkip 2, 255)] with spr := { engs := [(2, { served := true })] } },
     by decide +kernel⟩,
   ⟨2, st (live [(F.hrtSprStatWaeng, 0), (F.hrtSprStatWbeng, 1), (F.hrtSprEngRole 0, 1), (F.hrtSprEngRole 1, 1),
     (F.hrtSprEngRole 2, 0), (F.cvSelStatRxeng 0, 0), (F.cvSelStatTxeng 0, 0), (F.cvSelStatRxeng 1, 1), (F.cvSelStatTxeng 1,
     1), (F.hrtPwrCordSt 3, 0)]), by decide +kernel⟩,
   ⟨2, st (live [(F.hrtSprStatWaeng, 0), (F.hrtSprStatWbeng, 1), (F.hrtSprEngRole 0, 1), (F.hrtSprEngRole 1, 1),
     (F.hrtSprEngRole 2, 0), (F.cvSelStatRxeng 0, 0), (F.cvSelStatTxeng 0, 0), (F.cvSelStatRxeng 1, 1), (F.cvSelStatTxeng 1,
     1), (F.hrtSprEngRole 2, 5)]), by decide +kernel⟩,
   ⟨2, st (live [(F.hrtSprStatWaeng, 0), (F.hrtSprStatWbeng, 1), (F.hrtSprEngRole 0, 1), (F.hrtSprEngRole 1, 1),
     (F.hrtSprEngRole 2, 0), (F.cvSelStatRxeng 0, 0), (F.cvSelStatTxeng 0, 0), (F.cvSelStatRxeng 1, 1), (F.cvSelStatTxeng 1,
     1), (F.hrtSprEngRole 2, 5)]), by decide +kernel⟩,
   ⟨2, st (live [(F.hrtSprStatWaeng, 0), (F.hrtSprStatWbeng, 1), (F.hrtSprEngRole 0, 1), (F.hrtSprEngRole 1, 1),
     (F.hrtSprEngRole 2, 0), (F.cvSelStatRxeng 0, 0), (F.cvSelStatTxeng 0, 0), (F.cvSelStatRxeng 1, 1), (F.cvSelStatTxeng 1,
     1)]), by decide +kernel⟩⟩

theorem witness_ManualSparingCommandsRun :
    (∃ (v : Word) (i : Nat) (o : Nat) (s : State), s.dev.Takes R.hrtSprCmd (sprWord v 1) ∧ s.dev.get F.hrtSprStatBusy = 0 ∧
      s.dev.spr.move = none ∧ s.dev.spare = some i ∧ s.dev.assigned (F.hrtSprCmdWl.of v) = some o)
    ∧ (∃ (v : Word) (i : Nat) (o : Nat) (s : State), s.dev.Takes R.hrtSprCmd (sprWord v 2) ∧ s.dev.get F.hrtSprStatBusy = 0 ∧
      s.dev.spr.move = none ∧ s.dev.spare = some i ∧ s.dev.assigned (F.hrtSprCmdWl.of v) = some o ∧ o < 3 ∧ s.dev.role o = 1
      ∧ s.dev.get (F.hrtSprEngFlt24 o) + 1 < s.dev.get F.hrtSprCfg2Fltmax)
    ∧ (∃ (v : Word) (k : Fin 3) (s : State), s.dev.Takes R.hrtSprCmd (sprWord v 3) ∧ s.dev.get F.hrtSprStatBusy = 0 ∧
      (s.dev.spr1 k).home = F.hrtSprCmdWl.of v ∧ s.dev.wlOf k = none ∧ s.dev.role k = 6 ∧ (∀ j < 3, j ≠ k.val → (s.dev.spr1
      j).home ≠ F.hrtSprCmdWl.of v))
    ∧ (∃ (v : Word) (s : State), s.dev.Takes R.hrtSprCmd (sprWord v 4) ∧ s.dev.get F.hrtSprStatBusy = 0 ∧ F.hrtSprCmdEng.of v
      < 3 ∧ s.dev.wlOf (F.hrtSprCmdEng.of v) = none ∧ s.dev.inMove (F.hrtSprCmdEng.of v) = false)
    ∧ (∃ (v : Word) (s : State), s.dev.Takes R.hrtSprCmd (sprWord v 5) ∧ s.dev.get F.hrtSprStatBusy = 0 ∧ F.hrtSprCmdEng.of v
      < 3 ∧ s.dev.role (F.hrtSprCmdEng.of v) = 4)
    ∧ (∃ (v : Word) (s : State), s.dev.Takes R.hrtSprCmd (sprWord v 1) ∧ (s.dev.get F.hrtSprStatBusy = 1 ∨ s.dev.spare = none
      ∨ s.dev.assigned (F.hrtSprCmdWl.of v) = none))
    ∧ (∃ (v : Word) (s : State), s.dev.Takes R.hrtSprCmd (sprWord v 2) ∧ (s.dev.get F.hrtSprStatBusy = 1 ∨ s.dev.spare = none
      ∨ s.dev.assigned (F.hrtSprCmdWl.of v) = none))
    ∧ (∃ (v : Word) (s : State), s.dev.Takes R.hrtSprCmd (sprWord v 3) ∧ (s.dev.get F.hrtSprStatBusy = 1 ∨ (∀ k < 3,
      (s.dev.spr1 k).home = F.hrtSprCmdWl.of v → s.dev.wlOf k = none → s.dev.role k ≠ 6 ∧ (s.dev.role k = 3 → (s.dev.spr1
      k).pass = true))))
    ∧ (∃ (v : Word) (s : State), s.dev.Takes R.hrtSprCmd (sprWord v 4) ∧ (s.dev.get F.hrtSprStatBusy = 1 ∨ s.dev.wlOf
      (F.hrtSprCmdEng.of v) ≠ none))
    ∧ (∃ (v : Word) (s : State), s.dev.Takes R.hrtSprCmd (sprWord v 5) ∧ (s.dev.get F.hrtSprStatBusy = 1 ∨ s.dev.role
      (F.hrtSprCmdEng.of v) ≠ 4)) :=
  ⟨⟨F.hrtSprCmdWl.put 0 1, 2, 1, st (live [(F.hrtSprStatWaeng, 0), (F.hrtSprStatWbeng, 1), (F.hrtSprEngRole 0, 1),
    (F.hrtSprEngRole 1, 1), (F.hrtSprEngRole 2, 0), (F.cvSelStatRxeng 0, 0), (F.cvSelStatTxeng 0, 0), (F.cvSelStatRxeng 1,
    1), (F.cvSelStatTxeng 1, 1)]), takes_of (by decide +kernel), by decide +kernel⟩,
   ⟨F.hrtSprCmdWl.put 0 1, 2, 1, st (live [(F.hrtSprStatWaeng, 0), (F.hrtSprStatWbeng, 1), (F.hrtSprEngRole 0, 1),
     (F.hrtSprEngRole 1, 1), (F.hrtSprEngRole 2, 0), (F.cvSelStatRxeng 0, 0), (F.cvSelStatTxeng 0, 0), (F.cvSelStatRxeng 1,
     1), (F.cvSelStatTxeng 1, 1)]), takes_of (by decide +kernel), by decide +kernel⟩,
   ⟨F.hrtSprCmdWl.put 0 1, 2, st
     { live [(F.hrtSprStatWaeng, 0), (F.hrtSprStatWbeng, 1), (F.hrtSprEngRole 0, 1), (F.hrtSprEngRole 1, 1), (F.hrtSprEngRole 2, 0), (F.cvSelStatRxeng 0, 0), (F.cvSelStatTxeng 0, 0), (F.cvSelStatRxeng 1, 1), (F.cvSelStatTxeng 1, 1), (F.hrtSprEngRole 2, 6)] with spr := { engs := [(2, { home := 1 })] } },
     takes_of (by decide +kernel), by decide +kernel⟩,
   ⟨F.hrtSprCmdEng.put 0 2, st (live [(F.hrtSprStatWaeng, 0), (F.hrtSprStatWbeng, 1), (F.hrtSprEngRole 0, 1),
     (F.hrtSprEngRole 1, 1), (F.hrtSprEngRole 2, 0), (F.cvSelStatRxeng 0, 0), (F.cvSelStatTxeng 0, 0), (F.cvSelStatRxeng 1,
     1), (F.cvSelStatTxeng 1, 1)]), takes_of (by decide +kernel), by decide +kernel⟩,
   ⟨F.hrtSprCmdEng.put 0 2, st (live [(F.hrtSprStatWaeng, 0), (F.hrtSprStatWbeng, 1), (F.hrtSprEngRole 0, 1),
     (F.hrtSprEngRole 1, 1), (F.hrtSprEngRole 2, 0), (F.cvSelStatRxeng 0, 0), (F.cvSelStatTxeng 0, 0), (F.cvSelStatRxeng 1,
     1), (F.cvSelStatTxeng 1, 1), (F.hrtSprEngRole 2, 4), (F.hrtPwrCordSt 3, 5)]), takes_of (by decide +kernel),
     by decide +kernel⟩,
   ⟨F.hrtSprCmdWl.put 0 1, st (live [(F.hrtSprStatWaeng, 0), (F.hrtSprStatWbeng, 1), (F.hrtSprEngRole 0, 1), (F.hrtSprEngRole
     1, 1), (F.hrtSprEngRole 2, 0), (F.cvSelStatRxeng 0, 0), (F.cvSelStatTxeng 0, 0), (F.cvSelStatRxeng 1, 1),
     (F.cvSelStatTxeng 1, 1), (F.hrtSprStatWbeng, 3)]), takes_of (by decide +kernel), by decide +kernel⟩,
   ⟨F.hrtSprCmdWl.put 0 1, st (live [(F.hrtSprStatWaeng, 0), (F.hrtSprStatWbeng, 1), (F.hrtSprEngRole 0, 1), (F.hrtSprEngRole
     1, 1), (F.hrtSprEngRole 2, 0), (F.cvSelStatRxeng 0, 0), (F.cvSelStatTxeng 0, 0), (F.cvSelStatRxeng 1, 1),
     (F.cvSelStatTxeng 1, 1), (F.hrtSprEngRole 2, 4)]), takes_of (by decide +kernel), by decide +kernel⟩,
   ⟨F.hrtSprCmdWl.put 0 1, st
     { live [(F.hrtSprStatWaeng, 0), (F.hrtSprStatWbeng, 1), (F.hrtSprEngRole 0, 1), (F.hrtSprEngRole 1, 1), (F.hrtSprEngRole 2, 0), (F.cvSelStatRxeng 0, 0), (F.cvSelStatTxeng 0, 0), (F.cvSelStatRxeng 1, 1), (F.cvSelStatTxeng 1, 1), (F.hrtSprEngRole 2, 3)] with spr := { engs := [(2, { home := 1, pass := true })] } },
     takes_of (by decide +kernel), by decide +kernel⟩,
   ⟨F.hrtSprCmdEng.put 0 1, st (live [(F.hrtSprStatWaeng, 0), (F.hrtSprStatWbeng, 1), (F.hrtSprEngRole 0, 1),
     (F.hrtSprEngRole 1, 1), (F.hrtSprEngRole 2, 0), (F.cvSelStatRxeng 0, 0), (F.cvSelStatTxeng 0, 0), (F.cvSelStatRxeng 1,
     1), (F.cvSelStatTxeng 1, 1)]), takes_of (by decide +kernel), by decide +kernel⟩,
   ⟨F.hrtSprCmdEng.put 0 2, st (live [(F.hrtSprStatWaeng, 0), (F.hrtSprStatWbeng, 1), (F.hrtSprEngRole 0, 1),
     (F.hrtSprEngRole 1, 1), (F.hrtSprEngRole 2, 0), (F.cvSelStatRxeng 0, 0), (F.cvSelStatTxeng 0, 0), (F.cvSelStatRxeng 1,
     1), (F.cvSelStatTxeng 1, 1)]), takes_of (by decide +kernel), by decide +kernel⟩⟩

theorem witness_AFullStoreTurnsPacketsAway :
    (∃ (k : Fin 5) (raw : Pkt) (q : Pkt) (p : Pkt) (rest : List Pkt) (n : Nat) (s : State), Tbl.get [] s.dev.pkt.links k =
      raw :: rest ∧ s.dev.pkt.run = none ∧ s.dev.trafficOk 8 = true ∧ q = (if raw.tsport then raw else
      { stripTags raw with ts := ⟨s.dev.time.ns, s.dev.time.sub / 256⟩ }) ∧ p = { q with hash := s.dev.spreadHash q } ∧ n =
      s.dev.get (F.pktSprMapSlice (s.dev.spreadEntry p)) ∧ (Tbl.get [] s.dev.pkt.stores n).length < 256)
    ∧ (∃ (k : Fin 5) (raw : Pkt) (q : Pkt) (p : Pkt) (rest : List Pkt) (n : Nat) (s : State), Tbl.get [] s.dev.pkt.links k =
      raw :: rest ∧ s.dev.pkt.run = none ∧ s.dev.trafficOk 8 = true ∧ q = (if raw.tsport then raw else
      { stripTags raw with ts := ⟨s.dev.time.ns, s.dev.time.sub / 256⟩ }) ∧ p = { q with hash := s.dev.spreadHash q } ∧ n =
      s.dev.get (F.pktSprMapSlice (s.dev.spreadEntry p)) ∧ 256 ≤ (Tbl.get [] s.dev.pkt.stores n).length) :=
  ⟨⟨4, { src := 160, srcn := 9, tsport := true }, { src := 160, srcn := 9, tsport := true },
    { src := 160, srcn := 9, tsport := true, hash := (live []).spreadHash { src := 160, srcn := 9, tsport := true } }, [], 0,
    st
    { live [(F.pktSlcPktsCount 0, 4294967295)] with pkt := { links := [(4, [{ src := 160, srcn := 9, tsport := true }])], stores := [(0, List.replicate 255 ({ src := 0 } : Pkt))] } },
    by decide +kernel⟩,
   ⟨4, { src := 160, srcn := 9, tsport := true }, { src := 160, srcn := 9, tsport := true },
     { src := 160, srcn := 9, tsport := true, hash := (live []).spreadHash { src := 160, srcn := 9, tsport := true } }, [],
     0, st
     { live [] with pkt := { links := [(4, [{ src := 160, srcn := 9, tsport := true }])], stores := [(0, List.replicate 256 ({ src := 0 } : Pkt))] } },
     by decide +kernel⟩⟩

theorem witness_PacketsAreDecided :
    (∃ (n : Fin 24) (p : Pkt) (rest : List Pkt) (r : Nat) (s : State), s.dev.trafficOk 8 = true ∧ Tbl.get [] s.dev.pkt.stores
      n = p :: rest ∧ s.dev.parseCheck (s.dev.templateOf (s.dev.get (F.pktPrsSrcProf p.src)) p) p = r ∧ (r = 2 ∨ r = 3 ∨ r =
      4 ∨ r = 7) ∧ s.dev.get F.pktPrsActMalact = 0)
    ∧ (∃ (n : Fin 24) (p : Pkt) (rest : List Pkt) (r : Nat) (s : State), s.dev.trafficOk 8 = true ∧ Tbl.get []
      s.dev.pkt.stores n = p :: rest ∧ s.dev.parseCheck (s.dev.templateOf (s.dev.get (F.pktPrsSrcProf p.src)) p) p = r ∧ (r =
      1 ∨ r = 5 ∨ r = 6) ∧ s.dev.get F.pktPrsActNestact = 2)
    ∧ (∃ (n : Fin 24) (p : Pkt) (q : Pkt) (rest : List Pkt) (t0 : Nat) (prof : Nat) (s : State), s.dev.trafficOk 8 = true ∧
      Tbl.get [] s.dev.pkt.stores n = p :: rest ∧ prof = s.dev.get (F.pktPrsSrcProf p.src) ∧ t0 = s.dev.templateOf prof p ∧
      s.dev.parseCheck t0 p = 0 ∧ 96 ≤ p.src ∧ s.dev.findKey ((F.pktPrsTmplCfgEmpart t0).of (s.dev.tmpl (R.pktPrsTmplCfg
      t0))) (s.dev.indexed t0 p (R.pktPrsTmplDkey t0)) = none ∧ q =
      { p with mal := false, nest := false, emhit := false, emcls := 0 } ∧ s.dev.firstMatch (s.dev.classKey t0 prof q) = none
      ∧ s.dev.staged 4 F.pktClsDefactBits = 0)
    ∧ (∃ (n : Fin 24) (p : Pkt) (q : Pkt) (rest : List Pkt) (t0 : Nat) (prof : Nat) (k : Nat) (s : State), s.dev.trafficOk 8
      = true ∧ Tbl.get [] s.dev.pkt.stores n = p :: rest ∧ prof = s.dev.get (F.pktPrsSrcProf p.src) ∧ t0 = s.dev.templateOf
      prof p ∧ s.dev.parseCheck t0 p = 0 ∧ 96 ≤ p.src ∧ s.dev.findKey ((F.pktPrsTmplCfgEmpart t0).of (s.dev.tmpl
      (R.pktPrsTmplCfg t0))) (s.dev.indexed t0 p (R.pktPrsTmplDkey t0)) = none ∧ q =
      { p with mal := false, nest := false, emhit := false, emcls := 0 } ∧ s.dev.firstMatch (s.dev.classKey t0 prof q) = some
      (k, false) ∧ (s.dev.rule k).act = 2 ^ 127 + 2 ^ 124)
    ∧ (∃ (n : Fin 24) (p : Pkt) (q : Pkt) (rest : List Pkt) (t0 : Nat) (prof : Nat) (k : Nat) (s : State), s.dev.trafficOk 8
      = true ∧ Tbl.get [] s.dev.pkt.stores n = p :: rest ∧ prof = s.dev.get (F.pktPrsSrcProf p.src) ∧ t0 = s.dev.templateOf
      prof p ∧ s.dev.parseCheck t0 p = 0 ∧ 96 ≤ p.src ∧ s.dev.findKey ((F.pktPrsTmplCfgEmpart t0).of (s.dev.tmpl
      (R.pktPrsTmplCfg t0))) (s.dev.indexed t0 p (R.pktPrsTmplDkey t0)) = none ∧ q =
      { p with mal := false, nest := false, emhit := false, emcls := 0 } ∧ s.dev.firstMatch (s.dev.classKey t0 prof q) = some
      (k, true))
    ∧ (∃ (n : Fin 24) (p : Pkt) (rest : List Pkt) (t0 : Nat) (prof : Nat) (sk : Nat) (part : Nat) (s : State),
      s.dev.SliceHead n p rest prof t0 ∧ p.src < 96 ∧ p.mal = false ∧ p.nest = false ∧ p.emhit = false ∧ p.emcls = 0 ∧
      s.dev.get (F.pktLrnPqEn p.src) = 1 ∧ (F.pktPrsTmplCfgLrnen t0).of (s.dev.tmpl (R.pktPrsTmplCfg t0)) = 1 ∧ part =
      (F.pktPrsTmplCfgEmpart t0).of (s.dev.tmpl (R.pktPrsTmplCfg t0)) ∧ sk = s.dev.indexed t0 p (R.pktPrsTmplSkey t0) ∧
      s.dev.destHit t0 p = none ∧ s.dev.findKey part sk = none ∧ s.dev.firstMatch (s.dev.classKey t0 prof p) = none ∧
      s.dev.staged 4 F.pktClsDefactBits = 0 ∧ s.dev.pkt.lrnQ.length < 4096)
    ∧ (∃ (n : Fin 24) (p : Pkt) (q : Pkt) (rest : List Pkt) (t0 : Nat) (prof : Nat) (i : Nat) (e : Entry) (s : State),
      s.dev.SliceHead n p rest prof t0 ∧ 96 ≤ p.src ∧ s.dev.destHit t0 p = some i ∧ s.dev.slot i = some e ∧ e.static = false
      ∧ q = { p with mal := false, nest := false, emhit := true, emcls := e.res / 2 ^ 13 % 256 } ∧ s.dev.firstMatch
      (s.dev.classKey t0 prof q) = none ∧ s.dev.staged 4 F.pktClsDefactBits = 0)
    ∧ (∃ (n : Fin 24) (p : Pkt) (rest : List Pkt) (k : Nat) (r : Nat) (s : State), s.dev.RuleDecides n p rest k (2 ^ 126 + r
      * 2 ^ 109) ∧ r < 2 ^ 11)
    ∧ (∃ (n : Fin 24) (p : Pkt) (rest : List Pkt) (k : Nat) (q : Nat) (tag : Nat) (s : State), s.dev.RuleDecides n p rest k
      (2 ^ 125 + 2 ^ 120 + q * 2 ^ 96 + tag * 2 ^ 32) ∧ q < 2 ^ 13 ∧ tag < 2 ^ 16 ∧ p.tagn = 0)
    ∧ (∃ (n : Fin 24) (p : Pkt) (rest : List Pkt) (k : Nat) (q : Nat) (s : State), s.dev.RuleDecides n p rest k (2 ^ 125 + 2
      ^ 120 + q * 2 ^ 96) ∧ q < 2 ^ 13 ∧ p.tagn = 2)
    ∧ (∃ (n : Fin 24) (p : Pkt) (rest : List Pkt) (k : Nat) (q : Nat) (o : Nat) (z : Nat) (x : Nat) (s : State),
      s.dev.RuleDecides n p rest k (2 ^ 125 + 2 ^ 122 + q * 2 ^ 96 + o * 2 ^ 86 + z * 2 ^ 84 + x * 2 ^ 48) ∧ q < 2 ^ 13 ∧ o <
      64 ∧ z < 3 ∧ x < 2 ^ 32 ∧ o + 2 ^ z ≤ p.bytes.length ∧ o + 2 ^ z ≤ 14)
    ∧ (∃ (n : Fin 24) (p : Pkt) (rest : List Pkt) (k : Nat) (q : Nat) (o : Nat) (z : Nat) (x : Nat) (s : State),
      s.dev.RuleDecides n p rest k (2 ^ 125 + 2 ^ 122 + q * 2 ^ 96 + o * 2 ^ 86 + z * 2 ^ 84 + x * 2 ^ 48) ∧ q < 2 ^ 13 ∧ o <
      64 ∧ z < 3 ∧ x < 2 ^ 32 ∧ p.bytes.length < o + 2 ^ z)
    ∧ (∃ (n : Fin 24) (p : Pkt) (rest : List Pkt) (k : Nat) (m : Nat) (r : Nat) (s : State), s.dev.RuleDecides n p rest k (2
      ^ 123 + m * 2 ^ 92) ∧ m < 16 ∧ r < 2 ^ 11 ∧ s.dev.get (F.pktClsMirrorEn m) = 1 ∧ s.dev.get (F.pktClsMirrorKind m) = 1 ∧
      s.dev.get (F.pktClsMirrorDest m) = r ∧ s.dev.cordOn 12 = true ∧ s.dev.pcie.perst = false ∧ s.dev.get (F.pciRxgCfgEn r)
      = 0)
    ∧ (∃ (n : Fin 24) (p : Pkt) (rest : List Pkt) (k : Nat) (m : Nat) (r : Nat) (pool : Nat) (c : Nat) (s : State),
      s.dev.RuleDecides n p rest k (2 ^ 123 + m * 2 ^ 92) ∧ m < 16 ∧ r < 2 ^ 11 ∧ s.dev.get (F.pktClsMirrorEn m) = 1 ∧
      s.dev.get (F.pktClsMirrorKind m) = 1 ∧ s.dev.get (F.pktClsMirrorDest m) = r ∧ s.dev.released 12 = true ∧
      s.dev.pcie.perst = false ∧ s.dev.get (F.pciRxgCfgEn r) = 1 ∧ pool = s.dev.get (F.pciRxgCfgPool r) ∧ c = s.dev.get
      (F.bufSrcClsClass p.src) ∧ s.dev.get (F.bufPoolCfgKind pool) = 1 ∧ (s.dev.allocBufs pool c 1 n).isSome = true) :=
  ⟨⟨23, { src := 160, bytes := List.replicate 63 0 }, [], 2, st
    { live [] with pkt := { stores := [(23, [{ src := 160, bytes := List.replicate 63 0 }])], tmpl := [(R.pktPrsTmplOfs 0 0, 0xBF)] } },
    by decide +kernel⟩,
   ⟨23, { src := 160, bytes := List.replicate 12 0 ++ [0x81, 0] }, [], 1, st
     { live [(F.pktPrsActNestact, 2), (F.pktPrsActNestring, 2047)] with pkt := { stores := [(23, [{ src := 160, bytes := List.replicate 12 0 ++ [0x81, 0] }])] } },
     by decide +kernel⟩,
   ⟨23, { src := 160, bytes := [] }, { src := 160, bytes := [] }, [], 0, 0, st
     { live [(F.pktPrsSrcDefq 160, 8191)] with pkt := { stores := [(23, [{ src := 160 }])] } }, by decide +kernel⟩,
   ⟨23, { src := 160, bytes := [1] }, { src := 160, bytes := [1] }, [], 0, 0, 24575, st
     { live [(F.pktPrsSrcDefq 160, 8191)] with pkt := { stores := [(23, [{ src := 160, bytes := [1] }])], rules := [(24575, { valid := true, act := 2 ^ 127 + 2 ^ 124, cntP := 2 ^ 64 - 1 })] } },
     by decide +kernel⟩,
   ⟨23, { src := 160, bytes := [1] }, { src := 160, bytes := [1] }, [], 0, 0, 24575, st
     { live [(F.pktClsErrFaulty, 255)] with pkt := { stores := [(23, [{ src := 160, bytes := [1] }])], rules := [(24575, { faulty := true })] } },
     by decide +kernel⟩,
   ⟨23, { src := 95, bytes := [1] }, [], 0, 0, (2 ^ 128 - 1) / 255, 7, st
     { live [(F.pktPrsSrcDefq 95, 8191), (F.pktLrnPqEn 95, 1)] with pkt := { stores := [(23, [{ src := 95, bytes := [1] }])], tmpl := [(R.pktPrsTmplCfg 0, (F.pktPrsTmplCfgEmpart 0).put ((F.pktPrsTmplCfgLrnen 0).put 0 1) 7), (R.pktPrsTmplOfs 0 0, 0x80)] } },
     by unfold Dev.SliceHead; decide +kernel⟩,
   ⟨23, { src := 160, bytes := [1] }, { src := 160, bytes := [1], emhit := true, emcls := 255 }, [], 0, 0, 2097215, ⟨0, 0,
     255 * 2 ^ 13 + 8191, 9, false⟩, st
     { live [(F.pktEmtEpochEpoch, 65535), (F.pktEmtPartEn 0, 1)] with pkt := { stores := [(23, [{ src := 160, bytes := [1] }])], slots := [(2097215, some ⟨0, 0, 255 * 2 ^ 13 + 8191, 9, false⟩)] } },
     by unfold Dev.SliceHead; decide +kernel⟩,
   ⟨23, { src := 160, bytes := [1] }, [], 24575, 2047, st
     { live [] with pkt := { stores := [(23, [{ src := 160, bytes := [1] }])], rules := [(24575, { valid := true, act := 2 ^ 126 + 2047 * 2 ^ 109 })] } },
     ruleDecides_of (by decide +kernel), by decide +kernel⟩,
   ⟨23, { src := 160, bytes := [1] }, [], 24575, 8191, 65535, st
     { live [] with pkt := { stores := [(23, [{ src := 160, bytes := [1] }])], rules := [(24575, { valid := true, act := 2 ^ 125 + 2 ^ 120 + 8191 * 2 ^ 96 + 65535 * 2 ^ 32 })] } },
     ruleDecides_of (by decide +kernel), by decide +kernel⟩,
   ⟨23, { src := 160, bytes := [1], tagn := 2 }, [], 24575, 8191, st
     { live [] with pkt := { stores := [(23, [{ src := 160, bytes := [1], tagn := 2 }])], rules := [(24575, { valid := true, act := 2 ^ 125 + 2 ^ 120 + 8191 * 2 ^ 96 })] } },
     ruleDecides_of (by decide +kernel), by decide +kernel⟩,
   ⟨23, { src := 160, bytes := List.replicate 14 7 }, [], 24575, 8191, 10, 2, 0xDEADBEEF, st
     { live [] with pkt := { stores := [(23, [{ src := 160, bytes := List.replicate 14 7 }])], rules := [(24575, { valid := true, act := 2 ^ 125 + 2 ^ 122 + 8191 * 2 ^ 96 + 10 * 2 ^ 86 + 2 * 2 ^ 84 + 0xDEADBEEF * 2 ^ 48 })] } },
     ruleDecides_of (by decide +kernel), by decide +kernel⟩,
   ⟨23, { src := 160, bytes := [1] }, [], 24575, 8191, 63, 2, 1, st
     { live [] with pkt := { stores := [(23, [{ src := 160, bytes := [1] }])], rules := [(24575, { valid := true, act := 2 ^ 125 + 2 ^ 122 + 8191 * 2 ^ 96 + 63 * 2 ^ 86 + 2 * 2 ^ 84 + 1 * 2 ^ 48 })] } },
     ruleDecides_of (by decide +kernel), by decide +kernel⟩,
   ⟨23, { src := 160, bytes := [1] }, [], 24575, 15, 2047, st
     { live [(F.pktPrsSrcDefq 160, 8191), (F.pktClsMirrorEn 15, 1), (F.pktClsMirrorKind 15, 1), (F.pktClsMirrorDest 15, 2047)] with pkt := { stores := [(23, [{ src := 160, bytes := [1] }])], rules := [(24575, { valid := true, act := 2 ^ 123 + 15 * 2 ^ 92 })] } },
     ruleDecides_of (by decide +kernel), by decide +kernel⟩,
   ⟨23, { src := 160, bytes := [1] }, [], 24575, 15, 2047, 63, 0, st
     { live [(F.pktPrsSrcDefq 160, 8191), (F.pktClsMirrorEn 15, 1), (F.pktClsMirrorKind 15, 1), (F.pktClsMirrorDest 15, 2047), (F.pciRxgCfgEn 2047, 1), (F.pciRxgCfgPool 2047, 63), (F.bufPclsMaxMax 1008, 2), (F.bufPoolFreeShfree 63, 1), (F.bufPoolCfgSize 63, 5), (F.bufPoolCfgKind 63, 1)] with pkt := { stores := [(23, [{ src := 160, bytes := [1] }])], rules := [(24575, { valid := true, act := 2 ^ 123 + 15 * 2 ^ 92 })] } },
     ruleDecides_of (by decide +kernel), by decide +kernel⟩⟩

theorem witness_ClassifierAndTableCommandsRun :
    (∃ (s : State), s.dev.Takes R.pktPrsTcommit (s.dev.withField F.pktPrsTcommitGo 1))
    ∧ (∃ (v : Word) (s : State), s.dev.Takes R.pktClsCmd (clsWord v 1))
    ∧ (∃ (v : Word) (r : Rule) (s : State), s.dev.Takes R.pktClsCmd (clsWord v 2) ∧ s.dev.rule (F.pktClsCmdIdx.of v) = r ∧
      r.valid = true ∧ r.faulty = false ∧ r.act < 2 ^ 128)
    ∧ (∃ (v : Word) (r : Rule) (s : State), s.dev.Takes R.pktClsCmd (clsWord v 2) ∧ s.dev.rule (F.pktClsCmdIdx.of v) = r ∧
      (r.valid = false ∨ r.faulty = true))
    ∧ (∃ (v : Word) (s : State), s.dev.Takes R.pktClsCmd (clsWord v 2) ∧ (s.dev.rule (F.pktClsCmdIdx.of v)).faulty = false)
    ∧ (∃ (v : Word) (s : State), s.dev.Takes R.pktClsCmd (clsWord v 3))
    ∧ (∃ (v : Word) (r : Rule) (s : State), s.dev.Takes R.pktClsCmd (clsWord v 4) ∧ s.dev.rule (F.pktClsCmdIdx.of v) = r ∧
      r.valid = true ∧ r.faulty = false)
    ∧ (∃ (v : Word) (part : Nat) (i : Nat) (s : State), s.dev.Takes R.pktEmtCmd (emtWord v 1) ∧ s.dev.pkt.lrnQ = [] ∧ part =
      s.dev.get F.pktEmtAgePart ∧ s.dev.get (F.pktEmtPartEn part) = 1 ∧ s.dev.findKey part s.dev.emtKey = none ∧ s.dev.freeIn
      (s.dev.bucketOf 0 part s.dev.emtKey) = some i)
    ∧ (∃ (v : Word) (part : Nat) (i : Nat) (s : State), s.dev.Takes R.pktEmtCmd (emtWord v 1) ∧ s.dev.pkt.lrnQ = [] ∧ part =
      s.dev.get F.pktEmtAgePart ∧ s.dev.get (F.pktEmtPartEn part) = 1 ∧ s.dev.findKey part s.dev.emtKey = some i)
    ∧ (∃ (v : Word) (part : Nat) (i : Nat) (s : State), s.dev.Takes R.pktEmtCmd (emtWord v 2) ∧ s.dev.pkt.lrnQ = [] ∧ part =
      s.dev.get F.pktEmtAgePart ∧ s.dev.findKey part s.dev.emtKey = some i ∧ (∀ j < 64, s.dev.slot (stashAt j) = none))
    ∧ (∃ (v : Word) (part : Nat) (s : State), s.dev.Takes R.pktEmtCmd (emtWord v 2) ∧ s.dev.pkt.lrnQ = [] ∧ part = s.dev.get
      F.pktEmtAgePart ∧ s.dev.get (F.pktEmtPartEn part) = 1 ∧ s.dev.findKey part s.dev.emtKey = none)
    ∧ (∃ (v : Word) (part : Nat) (i : Nat) (e : Entry) (s : State), s.dev.Takes R.pktEmtCmd (emtWord v 3) ∧ s.dev.pkt.lrnQ =
      [] ∧ part = s.dev.get F.pktEmtAgePart ∧ s.dev.findKey part s.dev.emtKey = some i ∧ s.dev.slot i = some e ∧ e.res < 2 ^
      30)
    ∧ (∃ (v : Word) (e : Entry) (s : State), s.dev.Takes R.pktEmtCmd (emtWord v 4) ∧ s.dev.pkt.lrnQ = [] ∧ s.dev.slot
      s.dev.emtSlot = some e ∧ e.key < 2 ^ 128)
    ∧ (∃ (v : Word) (part : Nat) (s : State), s.dev.Takes R.pktEmtCmd (emtWord v 5) ∧ s.dev.pkt.lrnQ = [] ∧ part = s.dev.get
      F.pktEmtAgePart ∧ s.dev.get (F.pktEmtPartEn part) = 1 ∧ s.dev.emtSlot ∈ s.dev.placesOf part s.dev.emtKey ∧
      s.dev.findKey part s.dev.emtKey = none)
    ∧ (∃ (v : Word) (part : Nat) (i : Nat) (e : Entry) (s : State), s.dev.Takes R.pktEmtCmd (emtWord v 6) ∧ s.dev.pkt.lrnQ =
      [] ∧ part = s.dev.get F.pktEmtAgePart ∧ s.dev.findKey part s.dev.emtKey = some i ∧ s.dev.slot i = some e ∧ (∀ j < 64,
      s.dev.slot (stashAt j) = none))
    ∧ (∃ (v : Word) (s : State), s.dev.Takes R.pktEmtCmd (emtWord v 7) ∧ s.dev.pkt.lrnQ = [])
    ∧ (∃ (v : Word) (bad : List Nat) (op : Nat) (i : Instr) (s : State), s.dev.Takes R.pktEmtCmd (emtWord v op) ∧ (op, i) ∈
      [(1, Instr.insert v bad), (2, .delete v bad), (3, .lookup v bad), (4, .readidx v bad), (5, .writeidx v bad), (6, .cad v
      bad)] ∧ s.dev.pkt.lrnQ ≠ [])
    ∧ (∃ (v : Word) (s : State), s.dev.Takes R.pktEmtCmd (emtWord v 7) ∧ s.dev.pkt.lrnQ ≠ [])
    ∧ (∃ (v : Word) (i : Nat) (e : Entry) (s : State), s.dev.Takes R.pktEmtCmd (emtWord v 4) ∧ s.dev.pkt.lrnQ = [] ∧
      s.dev.emtSlot = i ∧ s.dev.slot i = some e ∧ (∀ j < 64, s.dev.slot (stashAt j) = none)) :=
  ⟨⟨st (live [(F.pktPrsTcommitTmask, 0x8000), (F.pktPrsTmplCfgL4len 15, 9)]), takes_of (by decide +kernel)⟩,
   ⟨F.pktClsCmdIdx.put 0 24575, st (live [(F.pktClsActwBits 3, 5)]), takes_of (by decide +kernel)⟩,
   ⟨F.pktClsCmdIdx.put 0 24575, { valid := true, act := 2 ^ 128 - 1, cntP := 2 ^ 32 + 5, cntB := 2 ^ 33 }, st
     { live [] with pkt := { rules := [(24575, { valid := true, act := 2 ^ 128 - 1, cntP := 2 ^ 32 + 5, cntB := 2 ^ 33 })] } },
     takes_of (by decide +kernel), by decide +kernel⟩,
   ⟨F.pktClsCmdIdx.put 0 24575, { valid := true, faulty := true, act := 7 }, st
     { live [] with pkt := { rules := [(24575, { valid := true, faulty := true, act := 7 })] } }, takes_of
     (by decide +kernel), by decide +kernel⟩,
   ⟨F.pktClsCmdIdx.put 0 24575, st { live [] with pkt := { rules := [(24575, { valid := true, act := 7 })] } }, takes_of
     (by decide +kernel), by decide +kernel⟩,
   ⟨F.pktClsCmdIdx.put 0 24575, st { live [] with pkt := { rules := [(24575, { valid := true, act := 7 })] } }, takes_of
     (by decide +kernel)⟩,
   ⟨F.pktClsCmdIdx.put 0 24575, { valid := true, act := 7, cntP := 2 ^ 32 + 5, cntB := 2 ^ 33 + 1 }, st
     { live [] with pkt := { rules := [(24575, { valid := true, act := 7, cntP := 2 ^ 32 + 5, cntB := 2 ^ 33 + 1 })] } },
     takes_of (by decide +kernel), by decide +kernel⟩,
   ⟨0, 7, 1, st
     { live [(F.pktEmtAgePart, 7), (F.pktEmtPartEn 7, 1), (F.pktEmtKeyKey 3, 9)] with pkt := { slots := [(0, some ⟨7, 5, 0, 0, false⟩)] } },
     takes_of (by decide +kernel), by decide +kernel⟩,
   ⟨0, 7, 2097215, st
     { live [(F.pktEmtAgePart, 7), (F.pktEmtPartEn 7, 1), (F.pktEmtKeyKey 3, 9)] with pkt := { slots := [(2097215, some ⟨7, 9, 0, 0, false⟩)] } },
     takes_of (by decide +kernel), by decide +kernel⟩,
   ⟨0, 7, 3, st
     { live [(F.pktEmtAgePart, 7), (F.pktEmtPartEn 7, 1), (F.pktEmtKeyKey 3, 9)] with pkt := { slots := [(3, some ⟨7, 9, 0, 0, false⟩)], hold := [(3, 62500)] } },
     takes_of (by decide +kernel), by decide +kernel⟩,
   ⟨0, 7, st
     { live [(F.pktEmtAgePart, 7), (F.pktEmtPartEn 7, 1), (F.pktEmtKeyKey 3, 9)] with pkt := { slots := [(3, some ⟨7, 8, 0, 0, false⟩)] } },
     takes_of (by decide +kernel), by decide +kernel⟩,
   ⟨0, 7, 2097215, ⟨7, 9, 2 ^ 30 - 1, 65535, true⟩, st
     { live [(F.pktEmtAgePart, 7), (F.pktEmtPartEn 7, 1), (F.pktEmtKeyKey 3, 9)] with pkt := { slots := [(2097215, some ⟨7, 9, 2 ^ 30 - 1, 65535, true⟩)] } },
     takes_of (by decide +kernel), by decide +kernel⟩,
   ⟨0, ⟨7, 2 ^ 128 - 1, 5, 65535, true⟩, st
     { live [(F.pktEmtIdxStash, 1), (F.pktEmtIdxIndex, 63)] with pkt := { slots := [(2097215, some ⟨7, 2 ^ 128 - 1, 5, 65535, true⟩)] } },
     takes_of (by decide +kernel), by decide +kernel⟩,
   ⟨0, 7, st (live [(F.pktEmtAgePart, 7), (F.pktEmtPartEn 7, 1), (F.pktEmtKeyKey 3, 9), (F.pktEmtIdxStash, 1),
     (F.pktEmtIdxIndex, 63), (F.pktEmtAgeAge, 65535)]), takes_of (by decide +kernel), by decide +kernel⟩,
   ⟨0, 7, 3, ⟨7, 9, 0, 65535, false⟩, st
     { live [(F.pktEmtAgePart, 7), (F.pktEmtPartEn 7, 1), (F.pktEmtKeyKey 3, 9), (F.pktEmtAgeAge, 65534)] with pkt := { slots := [(3, some ⟨7, 9, 0, 65535, false⟩)] } },
     takes_of (by decide +kernel), by decide +kernel⟩,
   ⟨0, st (live [(F.pktEmtEpochEpoch, 65535), (F.pktEmtAgecfgAgeen, 1)]), takes_of (by decide +kernel), by decide +kernel⟩,
   ⟨0, [3], 4, .readidx 0 [3], st { live [] with pkt := { lrnQ := [⟨9, 7, 95⟩] } }, takes_of (by decide +kernel),
     by decide +kernel⟩,
   ⟨0, st { live [] with pkt := { lrnQ := [⟨9, 7, 95⟩] } }, takes_of (by decide +kernel), by decide +kernel⟩,
   ⟨0, 3, ⟨7, 9, 0, 5, true⟩, st
     { live [(F.pktEmtIdxIndex, 3)] with pkt := { slots := [(3, some ⟨7, 9, 0, 5, true⟩)], hold := [(3, 62500)] } }, takes_of
     (by decide +kernel), by decide +kernel⟩⟩

theorem witness_EntriesAgeAndAreLearned :
    (∃ (s : State), s.dev.cordOn 8 = true ∧ s.dev.get F.pktEmtAgecfgEpochms ≠ 0)
    ∧ (∃ (s : State), s.dev.pkt.lrnQ = [] ∧ s.dev.pkt.ager = true ∧ s.dev.pkt.agerAgain = false ∧ s.dev.pkt.emtQ = [] ∧ ((∀ x
      ∈ s.dev.pkt.slots, ∀ e, x.2 = some e → e.static = true ∨ unsignedOf 16 ((s.dev.get F.pktEmtEpochEpoch : Int) - (e.stamp
      : Nat)) < s.dev.get F.pktEmtAgecfgAgemax)))
    ∧ (∃ (i : Nat) (e : Entry) (s : State), s.dev.pkt.ager = true ∧ s.dev.pkt.lrnQ = [] ∧ s.dev.pkt.emtQ = [] ∧
      s.dev.pkt.slots = [(i, some e)] ∧ e.static = false ∧ s.dev.findKey e.part e.key = some i ∧ i < 2 ^ 21 ∧ s.dev.get
      F.pktEmtAgecfgAgemax ≤ unsignedOf 16 ((s.dev.get F.pktEmtEpochEpoch : Int) - (e.stamp : Nat)))
    ∧ (∃ (r : LrnReq) (rest : List LrnReq) (i : Nat) (s : State), s.dev.pkt.emtQ = [] ∧ s.dev.pkt.lrnQ = r :: rest ∧
      s.dev.findKey r.part r.key = none ∧ s.dev.get (F.pktEmtPartEn r.part) = 1 ∧ s.dev.pkt.hold.length < 65536 ∧
      s.dev.freeIn (s.dev.bucketOf 0 r.part r.key) = some i)
    ∧ (∃ (r : LrnReq) (rest : List LrnReq) (i : Nat) (e : Entry) (s : State), s.dev.pkt.emtQ = [] ∧ s.dev.pkt.lrnQ = r ::
      rest ∧ s.dev.findKey r.part r.key = some i ∧ s.dev.slot i = some e ∧ e.port = r.port)
    ∧ (∃ (r : LrnReq) (rest : List LrnReq) (i : Nat) (e : Entry) (s : State), s.dev.pkt.emtQ = [] ∧ s.dev.pkt.lrnQ = r ::
      rest ∧ s.dev.findKey r.part r.key = some i ∧ s.dev.slot i = some e ∧ e.port ≠ r.port ∧ e.static = false ∧ e.hb = true)
    ∧ (∃ (r : LrnReq) (rest : List LrnReq) (i : Nat) (j : EmtJob) (e : Entry) (s : State), s.dev.pkt.lrnQ = r :: rest ∧
      s.dev.pkt.emtQ = [j] ∧ j.ager = none ∧ s.dev.findKey r.part r.key = some i ∧ s.dev.slot i = some e ∧ e.port = r.port)
    ∧ (∃ (i : Nat) (u : Nat) (e : Entry) (s : State), s.dev.pkt.lrnWait = false ∧ (i, u) ∈ s.dev.pkt.hold ∧ ((∀ x ∈
      s.dev.pkt.hold, x = (i, u) ∨ u < x.2)) ∧ s.dev.slot i = some e)
    ∧ (∃ (r : LrnReq) (rest : List LrnReq) (i : Nat) (e : Entry) (s : State), s.dev.pkt.emtQ = [] ∧ s.dev.pkt.lrnQ = r ::
      rest ∧ s.dev.slot i = some e ∧ (∀ j < 64, s.dev.slot (stashAt j) = none) ∧ s.dev.get (F.pktEmtPartEn r.part) = 0 ∧
      s.dev.findKey r.part r.key = none)
    ∧ (∃ (r : LrnReq) (rest : List LrnReq) (s : State), 65536 ≤ s.dev.pkt.hold.length ∧ s.dev.pkt.lrnQ = r :: rest ∧
      s.dev.findKey r.part r.key = none ∧ s.dev.get (F.pktEmtPartEn r.part) = 1)
    ∧ (∃ (r : LrnReq) (rest : List LrnReq) (i : Nat) (u : Nat) (j : Nat) (e : Entry) (s : State), s.dev.pkt.lrnWait = true ∧
      s.dev.pkt.emtQ = [] ∧ s.dev.pkt.lrnQ = r :: rest ∧ (i, u) ∈ s.dev.pkt.hold ∧ ((∀ x ∈ s.dev.pkt.hold, x = (i, u) ∨ u <
      x.2)) ∧ s.dev.slot i = some e ∧ s.dev.pkt.hold.length ≤ 65536 ∧ s.dev.findKey r.part r.key = none ∧ s.dev.get
      (F.pktEmtPartEn r.part) = 1 ∧ s.dev.freeIn (s.dev.bucketOf 0 r.part r.key) = some j)
    ∧ (∃ (s : State), s.dev.pkt.ager = true ∧ s.dev.pkt.lrnQ = [] ∧ s.dev.pkt.emtQ = [] ∧ Tbl.rising s.dev.pkt.slots = true ∧
      (∀ x ∈ s.dev.pkt.slots, x.1 < 2 ^ 21 ∧ ∃ e, x.2 = some e ∧ s.dev.findKey e.part e.key = some x.1))
    ∧ (∃ (s : State), s.dev.pkt.ager = true ∧ s.dev.pkt.lrnQ ≠ [] ∧ s.dev.pkt.emtQ = []) :=
  ⟨⟨st (live [(F.pktEmtEpochEpoch, 65535), (F.pktEmtAgecfgAgeen, 1), (F.pktEmtAgecfgEpochms, 1)]), by decide +kernel⟩,
   ⟨st
     { live [(F.pktEmtAgecfgAgemax, 5), (F.pktEmtEpochEpoch, 3)] with pkt := { ager := true, slots := [(3, some ⟨7, 9, 0, 65535, false⟩), (4, some ⟨7, 9, 2 ^ 29 + 2 ^ 28, 5, false⟩)] } },
     by simp [st, live, Dev.set, Dev.setReg], by decide +kernel⟩,
   ⟨3, ⟨7, 9, 0, 65534, false⟩, st
     { live [(F.pktEmtAgecfgAgemax, 5), (F.pktEmtEpochEpoch, 3), (F.pktEmtPartEn 7, 1)] with pkt := { ager := true, slots := [(3, some ⟨7, 9, 0, 65534, false⟩)] } },
     by decide +kernel⟩,
   ⟨⟨9, 7, 95⟩, [], 1, st
     { live [(F.pktEmtPartEn 7, 1), (F.pktLrnPqQueue 95, 8191)] with pkt := { lrnQ := [⟨9, 7, 95⟩], slots := [(0, some ⟨7, 5, 0, 0, false⟩)] } },
     by decide +kernel⟩,
   ⟨⟨9, 7, 95⟩, [], 2097215, ⟨7, 9, 95 * 2 ^ 21, 0, true⟩, st
     { live [(F.pktEmtPartEn 7, 1)] with pkt := { lrnQ := [⟨9, 7, 95⟩], slots := [(2097215, some ⟨7, 9, 95 * 2 ^ 21, 0, true⟩)] } },
     by decide +kernel⟩,
   ⟨⟨9, 7, 95⟩, [], 2097215, ⟨7, 9, 94 * 2 ^ 21, 0, true⟩, st
     { live [(F.pktEmtPartEn 7, 1)] with pkt := { lrnQ := [⟨9, 7, 95⟩], slots := [(2097215, some ⟨7, 9, 94 * 2 ^ 21, 0, true⟩)] } },
     by decide +kernel⟩,
   ⟨⟨9, 7, 95⟩, [], 2097215, ⟨1, 7, false, 0, [], none⟩, ⟨7, 9, 95 * 2 ^ 21, 0, true⟩, st
     { live [(F.pktEmtPartEn 7, 1), (F.pktEmtStatBusy, 1)] with pkt := { emtQ := [⟨1, 7, false, 0, [], none⟩], lrnQ := [⟨9, 7, 95⟩], slots := [(2097215, some ⟨7, 9, 95 * 2 ^ 21, 0, true⟩)] } },
     by decide +kernel⟩,
   ⟨2097215, 62500, ⟨7, 9, 0, 0, true⟩, st
     { live [] with pkt := { hold := [(3, 125000), (2097215, 62500)], slots := [(2097215, some ⟨7, 9, 0, 0, true⟩)] } },
     by decide +kernel⟩,
   ⟨⟨9, 7, 95⟩, [], 3, ⟨6, 9, 0, 5, true⟩, st
     { live [(F.pktEmtPartEn 6, 1)] with pkt := { lrnQ := [⟨9, 7, 95⟩], slots := [(3, some ⟨6, 9, 0, 5, true⟩)] } },
     by decide +kernel⟩,
   ⟨⟨9, 7, 95⟩, [], st
     { live [(F.pktEmtPartEn 7, 1)] with pkt := { lrnQ := [⟨9, 7, 95⟩], hold := List.replicate 65536 (3, 62500) } },
     Nat.le_of_eq List.length_replicate.symm, by decide +kernel⟩,
   ⟨⟨9, 7, 95⟩, [], 2097215, 62500, 1, ⟨6, 9, 0, 0, true⟩, st
     { live [(F.pktEmtPartEn 7, 1), (F.pktLrnPqQueue 95, 8191)] with pkt := { lrnWait := true, lrnQ := [⟨9, 7, 95⟩], hold := [(3, 125000), (2097215, 62500)], slots := [(0, some ⟨7, 5, 0, 0, false⟩), (2097215, some ⟨6, 9, 0, 0, true⟩)] } },
     by decide +kernel⟩,
   ⟨st
     { live [(F.pktEmtAgecfgAgemax, 5), (F.pktEmtEpochEpoch, 3), (F.pktEmtPartEn 7, 1)] with pkt := { ager := true, slots := [(3, some ⟨7, 9, 0, 65534, false⟩)] } },
     by decide +kernel⟩,
   ⟨st
     { live [(F.pktEmtAgecfgAgemax, 5), (F.pktEmtEpochEpoch, 3), (F.pktEmtPartEn 7, 1)] with pkt := { ager := true, lrnQ := [⟨9, 7, 95⟩], slots := [(3, some ⟨7, 9, 0, 65534, false⟩)] } },
     by decide +kernel⟩⟩

theorem witness_QueuesAdmitOrDrop :
    (∃ (q : Nat) (n : Nat) (i : Nat) (b : Nat) (m : Nat) (p : Pkt) (rest : List Decided) (s : State), s.dev.trafficOk 8 =
      true ∧ s.dev.pkt.decided = ⟨.queue q, p, n⟩ :: rest ∧ q < 8192 ∧ s.dev.get (F.bufQParEn q) = 1 ∧ s.dev.get
      (F.bufQDepthCount q) + p.bytes.length ≤ s.dev.get (F.bufQLimLimit q) * 64 ∧ s.dev.poolFor q p.bytes.length = (b, m) ∧ i
      = 16 * b + s.dev.get (F.bufSrcClsClass p.src) ∧ s.dev.get (F.bufPclsUsedUsed i) + m ≤ s.dev.get (F.bufPclsMaxMax i) ∧ m
      - min m (s.dev.get (F.bufPclsMinMin i) - s.dev.get (F.bufPclsUsedUsed i)) ≤ s.dev.get (F.bufPoolFreeShfree b))
    ∧ (∃ (q : Nat) (n : Nat) (p : Pkt) (rest : List Decided) (s : State), s.dev.trafficOk 8 = true ∧ s.dev.pkt.decided =
      ⟨.queue q, p, n⟩ :: rest ∧ q < 8192 ∧ s.dev.get (F.bufQParEn q) = 0)
    ∧ (∃ (q : Nat) (n : Nat) (p : Pkt) (rest : List Decided) (s : State), s.dev.trafficOk 8 = true ∧ s.dev.pkt.decided =
      ⟨.queue q, p, n⟩ :: rest ∧ q < 8192 ∧ s.dev.get (F.bufQParEn q) = 1 ∧ s.dev.get (F.bufQLimLimit q) * 64 < s.dev.get
      (F.bufQDepthCount q) + p.bytes.length)
    ∧ (∃ (q : Nat) (n : Nat) (i : Nat) (p : Pkt) (rest : List Decided) (s : State), s.dev.trafficOk 8 = true ∧
      s.dev.pkt.decided = ⟨.queue q, p, n⟩ :: rest ∧ q < 8192 ∧ s.dev.get (F.bufQParEn q) = 1 ∧ s.dev.get (F.bufQDepthCount
      q) + p.bytes.length ≤ s.dev.get (F.bufQLimLimit q) * 64 ∧ i = 16 * (s.dev.poolFor q p.bytes.length).1 + s.dev.get
      (F.bufSrcClsClass p.src) ∧ s.dev.get (F.bufPclsMaxMax i) < s.dev.get (F.bufPclsUsedUsed i) + (s.dev.poolFor q
      p.bytes.length).2)
    ∧ (∃ (q : Nat) (n : Nat) (i : Nat) (b : Nat) (m : Nat) (p : Pkt) (rest : List Decided) (s : State), s.dev.trafficOk 8 =
      true ∧ s.dev.pkt.decided = ⟨.queue q, p, n⟩ :: rest ∧ q < 8192 ∧ s.dev.get (F.bufQParEn q) = 1 ∧ s.dev.get
      (F.bufQDepthCount q) + p.bytes.length ≤ s.dev.get (F.bufQLimLimit q) * 64 ∧ s.dev.poolFor q p.bytes.length = (b, m) ∧ i
      = 16 * b + s.dev.get (F.bufSrcClsClass p.src) ∧ s.dev.get (F.bufPclsUsedUsed i) + m ≤ s.dev.get (F.bufPclsMaxMax i) ∧
      s.dev.get (F.bufPoolFreeShfree b) < m - min m (s.dev.get (F.bufPclsMinMin i) - s.dev.get (F.bufPclsUsedUsed i))) :=
  ⟨⟨8191, 23, 1023, 63, 2, { src := 160, bytes := List.replicate 2049 7 }, [], st
    { live [(F.bufQParEn 8191, 1), (F.bufQLimLimit 8191, 33), (F.bufQMapHpool 8191, 63), (F.bufSrcClsClass 160, 15), (F.bufPclsMaxMax 1023, 2), (F.bufPoolFreeShfree 63, 1), (F.bufPclsMinMin 1023, 1), (F.bufPoolCfgSize 63, 5)] with pkt := { decided := [⟨.queue 8191, { src := 160, bytes := List.replicate 2049 7 }, 23⟩] } },
    by decide +kernel⟩,
   ⟨8191, 23, { src := 160 }, [], st
     { live [(F.bufQDropCount 8191, 4294967295)] with pkt := { decided := [⟨.queue 8191, { src := 160 }, 23⟩] } },
     by decide +kernel⟩,
   ⟨8191, 23, { src := 160, bytes := [1] }, [], st
     { live [(F.bufQParEn 8191, 1), (F.bufQLimLimit 8191, 1), (F.bufQDepthCount 8191, 64)] with pkt := { decided := [⟨.queue 8191, { src := 160, bytes := [1] }, 23⟩] } },
     by decide +kernel⟩,
   ⟨8191, 23, 1023, { src := 160, bytes := [1] }, [], st
     { live [(F.bufQParEn 8191, 1), (F.bufQLimLimit 8191, 1), (F.bufQDepthCount 8191, 63), (F.bufQMapHpool 8191, 63), (F.bufSrcClsClass 160, 15), (F.bufPclsMaxMax 1023, 2), (F.bufPclsUsedUsed 1023, 2)] with pkt := { decided := [⟨.queue 8191, { src := 160, bytes := [1] }, 23⟩] } },
     by decide +kernel⟩,
   ⟨8191, 23, 1023, 63, 2, { src := 160, bytes := List.replicate 2049 7 }, [], st
     { live [(F.bufQParEn 8191, 1), (F.bufQLimLimit 8191, 33), (F.bufQMapHpool 8191, 63), (F.bufSrcClsClass 160, 15), (F.bufPclsMaxMax 1023, 2), (F.bufPoolFreeShfree 63, 0), (F.bufPclsMinMin 1023, 1), (F.bufPoolCfgSize 63, 5)] with pkt := { decided := [⟨.queue 8191, { src := 160, bytes := List.replicate 2049 7 }, 23⟩] } },
     by decide +kernel⟩⟩

theorem witness_BuffersAndSamplersAnswer :
    (∃ (b : BitVec 25) (agent : Nat) (r : BufRec) (s : State), s.dev.cordOn 9 = true ∧ b.toNat < 0x1040000 ∧ agent ≤ 32 ∧
      s.dev.owner b.toNat = some r ∧ r.owner = agent)
    ∧ (∃ (b : BitVec 25) (agent : Nat) (s : State), s.dev.cordOn 9 = true ∧ b.toNat < 0x1040000 ∧ (agent ≤ 32 ∨ agent = 63) ∧
      s.dev.owner b.toNat = none)
    ∧ (∃ (b : BitVec 25) (agent : Nat) (r : BufRec) (s : State), s.dev.cordOn 9 = true ∧ b.toNat < 0x1040000 ∧ agent ≤ 32 ∧
      s.dev.owner b.toNat = some r ∧ r.owner ≠ agent)
    ∧ (∃ (c : Fin 13) (s : State), s.dev.cordOn 9 = true ∧ c.val ∈ s.dev.reclaim)
    ∧ (∃ (k : Fin 8448) (s : State), s.dev.released 9 = true)
    ∧ (∃ (k : Fin 8448) (s : State), s.dev.released 9 = true ∧ k.val < 8192 ∧ s.dev.get (F.bufQLimAgethr k) ≠ 0 ∧ s.dev.get
      (F.bufQLimAgethr k) * 100 ≤ s.dev.headAge k ∧ (s.dev.sampler k).ageHigh = false)
    ∧ (∃ (v : Word) (s : State), s.dev.Takes R.bufSmpSel (F.bufSmpSelGo.put v 1) ∧ F.bufSmpSelGrp.of v = 0 ∧ (s.dev.sampler
      (F.bufSmpSelIdx.of v)).last.valid = true) :=
  ⟨⟨0x103FFFF, 32, ⟨32, 63, 15⟩, st
    { live [(F.bufPclsUsedUsed 1023, 2), (F.bufPclsMinMin 1023, 1)] with buf := { owners := [(0x103FFFF, some ⟨32, 63, 15⟩)] } },
    by decide +kernel⟩,
   ⟨0x103FFFF, 63, st (live [(F.bufBmErrDbl, 65535)]), by decide +kernel⟩,
   ⟨0x103FFFF, 28, ⟨32, 63, 15⟩, st
     { live [(F.bufPclsUsedUsed 1023, 2)] with buf := { owners := [(0x103FFFF, some ⟨32, 63, 15⟩)] } }, by decide +kernel⟩,
   ⟨12, st
     { live [(F.bufPclsUsedUsed 1023, 2)] with reclaim := [11, 12], buf := { owners := [(0, some ⟨28, 63, 15⟩), (1, some ⟨32, 63, 15⟩)] } },
     by decide +kernel⟩,
   ⟨8447, st (live []), by decide +kernel⟩,
   ⟨8191, st
     { live [(F.bufQLimAgethr 8191, 1)] with time := { ticks := 1000000 }, buf := { queues := [(8191, { pkts := [⟨{ src := 0 }, [], 0⟩] })] } },
     by decide +kernel⟩,
   ⟨F.bufSmpSelIdx.put 0 8191, st
     { live [] with buf := { samplers := [(8191, { last := { valid := true, ts := 5 }, hist := [(15, 2 ^ 32 + 1)] })] } },
     takes_of (by decide +kernel), by decide +kernel⟩⟩

theorem witness_SchedulersServeAndShape :
    (∃ (k : Fin 160) (n : Nat) (q : Nat) (dist : Int) (x : QPkt) (rest : List QPkt) (s : State), k.val < 96 ∧ s.dev.get
      (F.hsMacGctlGateen k) = 0 ∧ s.dev.released 9 = true ∧ s.dev.pickQueue k = some (q, dist) ∧ q < 8192 ∧ (s.dev.queue
      q).pkts = x :: rest ∧ s.dev.InjIdle (162 + k / 48))
    ∧ (∃ (k : Fin 160) (n : Nat) (q : Nat) (dist : Int) (x : QPkt) (rest : List QPkt) (s : State), 96 ≤ k.val ∧
      s.dev.released 9 = true ∧ s.dev.pickQueue k = some (q, dist) ∧ q < 8192 ∧ (s.dev.queue q).pkts = x :: rest ∧
      s.dev.InjIdle (160 + (k - 96) / 32))
    ∧ (∃ (k : Fin 160) (n : Nat) (q : Nat) (dist : Int) (x : QPkt) (rest : List QPkt) (s : State), 96 ≤ k.val ∧
      s.dev.released 9 = true ∧ s.dev.pickQueue k = some (q, dist) ∧ q < 8192 ∧ (s.dev.queue q).pkts = x :: rest)
    ∧ (∃ (k : Fin 160) (n : Nat) (ecc : Bool) (s : State), 96 ≤ k.val ∧ s.dev.pickQueue k = none)
    ∧ (∃ (s : State), s.dev.cordOn 9 = false)
    ∧ (∃ (s : State), s.dev.cordOn 9 = true)
    ∧ (∃ (v : Word) (q : Nat) (s : State), s.dev.Takes R.bufQmCmd (F.bufQmCmdGo.put (F.bufQmCmdOp.put v 1) 1) ∧
      F.bufQmCmdQ.of v = q)
    ∧ (∃ (s : State), s.dev.get F.bufQmCmdBusy = 1) :=
  ⟨⟨95, 65536, 8191, 0, ⟨{ src := 0, bytes := [1] }, [], 0⟩, [], st
    { live [(F.bufQMapSched 8191, 95), (F.hsMacBondLink 95, 1), (F.bufQDepthCount 8191, 1)] with buf := { queues := [(8191, { pkts := [⟨{ src := 0, bytes := [1] }, [], 0⟩] })] } },
    by unfold Dev.InjIdle; decide +kernel⟩,
   ⟨159, 65536, 8191, 0, ⟨{ src := 0, bytes := [1] }, [], 0⟩, [], st
     { live [(F.cvSelStatRxeng 1, 2), (F.cvSelStatTxeng 1, 2), (F.bufQMapSched 8191, 159), (F.bufQDepthCount 8191, 1)] with grps := [(63, { txMask := 1 })], buf := { queues := [(8191, { pkts := [⟨{ src := 0, bytes := [1] }, [], 0⟩] })] } },
     by unfold Dev.InjIdle; decide +kernel⟩,
   ⟨159, 65536, 8191, 0, ⟨{ src := 0, bytes := [1] }, [], 0⟩, [], st
     { live [(F.cvSelStatRxeng 1, 2), (F.cvSelStatTxeng 1, 2), (F.bufQMapSched 8191, 159), (F.bufQDepthCount 8191, 1)] with grps := [(63, { txMask := 1 })], buf := { queues := [(8191, { pkts := [⟨{ src := 0, bytes := [1] }, [], 0⟩] })] } },
     by decide +kernel⟩,
   ⟨159, 65536, true, st (live []), by decide +kernel⟩,
   ⟨st
     { live [(F.bufQShpShen 8191, 1), (F.hrtPwrCordSt 9, 0)] with buf := { queues := [(8191, { shOn := true, lvl := -5 })] } },
     by decide +kernel⟩,
   ⟨st
     { live [(F.bufQShpShen 8191, 1), (F.bufQShpRate 8191, 9), (F.bufShgShpShen 254, 1)] with buf := { queues := [(8191, { shOn := true, lvl := -5 })] } },
     by decide +kernel⟩,
   ⟨F.bufQmCmdQ.put 0 8191, 8191, st
     { live [(F.bufQDepthCount 8191, 1)] with buf := { queues := [(8191, { pkts := [⟨{ src := 0, bytes := [1] }, [], 0⟩] })] } },
     takes_of (by decide +kernel), by decide +kernel⟩,
   ⟨st (live [(F.bufQmCmdBusy, 1)]), by decide +kernel⟩⟩

theorem witness_FramesAreCheckedAndPassedOn :
    (∃ (p : Fin 96) (f : List Byte) (lo : Nat) (hi : Nat) (s : State), s.dev.Receives p lo hi f.length ∧ s.dev.trafficOk 8 =
      true ∧ s.dev.InjIdle (162 + p / 48) ∧ lo ≤ f.length ∧ f.length ≤ hi ∧ s.dev.fits p f.length = true ∧ f.drop (f.length -
      4) = fcsOf (f.take (f.length - 4)) ∧ beAt f 12 2 ≠ 0x8808)
    ∧ (∃ (p : Fin 96) (f : List Byte) (lo : Nat) (hi : Nat) (s : State), s.dev.Receives p lo hi f.length ∧ s.dev.trafficOk 8
      = false ∧ lo ≤ f.length ∧ f.length ≤ hi ∧ s.dev.fits p f.length = true ∧ f.drop (f.length - 4) = fcsOf (f.take
      (f.length - 4)) ∧ beAt f 12 2 ≠ 0x8808)
    ∧ (∃ (p : Fin 96) (f : List Byte) (lo : Nat) (hi : Nat) (pcs : Bool) (s : State), s.dev.Receives p lo hi f.length ∧
      f.length < lo)
    ∧ (∃ (p : Fin 96) (f : List Byte) (lo : Nat) (hi : Nat) (pcs : Bool) (s : State), s.dev.Receives p lo hi f.length ∧ lo ≤
      f.length ∧ s.dev.fits p (min f.length hi) = false)
    ∧ (∃ (p : Fin 96) (f : List Byte) (lo : Nat) (hi : Nat) (pcs : Bool) (s : State), s.dev.Receives p lo hi f.length ∧ lo ≤
      f.length ∧ hi < f.length ∧ s.dev.fits p hi = true)
    ∧ (∃ (p : Fin 96) (f : List Byte) (lo : Nat) (hi : Nat) (s : State), s.dev.Receives p lo hi f.length ∧ lo ≤ f.length ∧
      f.length ≤ hi ∧ s.dev.fits p f.length = true ∧ f.drop (f.length - 4) ≠ fcsOf (f.take (f.length - 4)))
    ∧ (∃ (p : Fin 96) (f : List Byte) (lo : Nat) (hi : Nat) (s : State), s.dev.Receives p lo hi f.length ∧ lo ≤ f.length ∧
      f.length ≤ hi ∧ s.dev.fits p f.length = true)
    ∧ (∃ (p : Fin 96) (f : List Byte) (pcs : Bool) (s : State), s.dev.farLoop p = true) :=
  ⟨⟨95, List.replicate 60 7 ++ fcsOf (List.replicate 60 7), 64, 1522, st
    { live [(F.hsMacBondLink 95, 1), (F.hsMacBondLanes 95, 1), (F.hsMacBondLrate 95, 1), (F.hsMacRxfrmCount 95, 4294967295)] with macs := [(95, { rxBytes := 2 ^ 64 - 2 })] },
    by unfold Dev.Receives Dev.InjIdle; decide +kernel⟩,
   ⟨95, List.replicate 60 7 ++ fcsOf (List.replicate 60 7), 64, 1522, st (live [(F.hsMacBondLink 95, 1), (F.hsMacBondLanes
     95, 1), (F.hsMacBondLrate 95, 1), (F.hrtPwrCordSt 8, 2)]), by unfold Dev.Receives Dev.InjIdle; decide +kernel⟩,
   ⟨95, List.replicate 63 7, 64, 65, true, st
     { live [(F.hsMacBondLink 95, 1), (F.hsMacBondLanes 95, 1), (F.hsMacBondLrate 95, 1), (F.hsMacCfgMinlen 95, 32), (F.hsMacRuntCount 95, 4294967295)] with macs := [(95, { limits := [⟨0, 64, 65⟩] })] },
     by unfold Dev.Receives Dev.InjIdle; decide +kernel⟩,
   ⟨95, List.replicate 1519 7, 64, 1522, true, st
     { live [(F.hsMacBondLink 95, 1), (F.hsMacBondLanes 95, 1), (F.hsMacBondLrate 95, 1)] with pkt := { links := [(3, List.replicate 86 ({ src := 95, bytes := List.replicate 1500 0 } : Pkt))] } },
     by unfold Dev.Receives Dev.InjIdle; decide +kernel⟩,
   ⟨95, List.replicate 1523 7, 64, 1522, true, st (live [(F.hsMacBondLink 95, 1), (F.hsMacBondLanes 95, 1), (F.hsMacBondLrate
     95, 1)]), by unfold Dev.Receives Dev.InjIdle; decide +kernel⟩,
   ⟨95, List.replicate 64 7, 64, 1522, st (live [(F.hsMacBondLink 95, 1), (F.hsMacBondLanes 95, 1), (F.hsMacBondLrate 95,
     1)]), by unfold Dev.Receives Dev.InjIdle; decide +kernel⟩,
   ⟨95, List.replicate 64 7, 64, 1522, st (live [(F.hsMacBondLink 95, 1), (F.hsMacBondLanes 95, 1), (F.hsMacBondLrate 95, 1),
     (F.hsMacRxerrCount 95, 4294967295)]), by unfold Dev.Receives Dev.InjIdle; decide +kernel⟩,
   ⟨95, List.replicate 64 7, true, st (live [(F.hsMacBondLanes 95, 1), (F.hsLnLoopMode 95, 3), (F.hsLnStatStage 95, 5)]),
     by decide +kernel⟩⟩

theorem witness_PauseFramesWork :
    (∃ (p : Fin 96) (f : List Byte) (lo : Nat) (hi : Nat) (s : State), s.dev.Receives p lo hi f.length ∧ lo ≤ f.length ∧
      f.length ≤ hi ∧ s.dev.fits p f.length = true ∧ f.length = 64 ∧ f.drop (f.length - 4) = fcsOf (f.take (f.length - 4)) ∧
      beAt f 12 2 = 0x8808 ∧ beAt f 0 6 = 0x0180C2000001 ∧ beAt f 14 2 = 1 ∧ s.dev.get (F.hsMacFcMode p) = 1)
    ∧ (∃ (p : Fin 96) (f : List Byte) (lo : Nat) (hi : Nat) (s : State), s.dev.Receives p lo hi f.length ∧ lo ≤ f.length ∧
      f.length ≤ hi ∧ s.dev.fits p f.length = true ∧ f.length = 64 ∧ f.drop (f.length - 4) = fcsOf (f.take (f.length - 4)) ∧
      beAt f 12 2 = 0x8808 ∧ beAt f 0 6 = 0x0180C2000001 ∧ beAt f 14 2 = 0x0101 ∧ s.dev.get (F.hsMacFcMode p) = 2)
    ∧ (∃ (p : Fin 96) (f : List Byte) (lo : Nat) (hi : Nat) (s : State), s.dev.Receives p lo hi f.length ∧ lo ≤ f.length ∧
      f.length ≤ hi ∧ s.dev.fits p f.length = true ∧ f.drop (f.length - 4) = fcsOf (f.take (f.length - 4)) ∧ beAt f 12 2 =
      0x8808 ∧ s.dev.get (F.hsMacFcMode p) = 0)
    ∧ (∃ (p : Fin 96) (arriving : Nat) (s : State), s.dev.generates p = true ∧ s.dev.get (F.hsMacFcstatXoffact p) = 0 ∧
      s.dev.get (F.hsMacFcthrXoff p) ≤ s.dev.storeFill p arriving ∧ s.dev.AtBoundary p)
    ∧ (∃ (p : Fin 96) (s : State), s.dev.generates p = true ∧ s.dev.get (F.hsMacFcstatXoffact p) = 1 ∧ s.dev.AtBoundary p)
    ∧ (∃ (p : Fin 96) (s : State), s.dev.generates p = true ∧ s.dev.get (F.hsMacFcstatXoffact p) = 1 ∧ s.dev.get
      (F.hsMacLpistatTxlpi p) = 0 ∧ ((s.dev.mac p).cur ≠ none ∨ s.dev.time.ticks < (s.dev.mac p).wakeAt))
    ∧ (∃ (p : Fin 96) (s : State), s.dev.generates p = true ∧ s.dev.get (F.hsMacFcstatXoffact p) = 1 ∧ s.dev.get
      (F.hsMacLpistatTxlpi p) = 1 ∧ s.dev.get (F.hsMacLpiTw p) ≠ 0)
    ∧ (∃ (p : Fin 96) (lo : Nat) (hi : Nat) (s : State), s.dev.generates p = true ∧ s.dev.get (F.hsMacFcstatXoffact p) = 1 ∧
      s.dev.get (F.hsLnLoopMode p) = 1 ∧ s.dev.Receives p lo hi 64 ∧ s.dev.fits p 64 = true ∧ s.dev.get (F.hsMacFcMode p) = 1
      ∧ lo ≤ 64 ∧ 64 ≤ hi ∧ (s.dev.mac p).cur = none ∧ (s.dev.mac p).gen = [] ∧ s.dev.get (F.hsMacLpistatTxlpi p) = 0 ∧
      (s.dev.mac p).wakeAt ≤ s.dev.time.ticks)
    ∧ (∃ (p : Fin 96) (arriving : Nat) (s : State), s.dev.generates p = true ∧ s.dev.get (F.hsMacFcstatXoffact p) = 1 ∧
      s.dev.storeFill p arriving < s.dev.get (F.hsMacFcthrXon p) ∧ s.dev.AtBoundary p) :=
  ⟨⟨95, [1, 0x80, 0xC2, 0, 0, 1, 0, 0, 0, 0, 0, 0, 0x88, 8, 0, 1, 0xFF, 0xFF] ++ List.replicate 42 0 ++ fcsOf ([1, 0x80, 0xC2,
    0, 0, 1, 0, 0, 0, 0, 0, 0, 0x88, 8, 0, 1, 0xFF, 0xFF] ++ List.replicate 42 0), 64, 1522, st (live [(F.hsMacBondLink 95,
    1), (F.hsMacBondLanes 95, 1), (F.hsMacBondLrate 95, 1), (F.hsMacFcMode 95, 1)]),
    by unfold Dev.Receives Dev.InjIdle; decide +kernel⟩,
   ⟨95, [1, 0x80, 0xC2, 0, 0, 1, 0, 0, 0, 0, 0, 0, 0x88, 8, 1, 1, 0, 0x81, 0, 9] ++ List.replicate 40 1 ++ fcsOf ([1, 0x80,
     0xC2, 0, 0, 1, 0, 0, 0, 0, 0, 0, 0x88, 8, 1, 1, 0, 0x81, 0, 9] ++ List.replicate 40 1), 64, 1522, st
     { live [(F.hsMacBondLink 95, 1), (F.hsMacBondLanes 95, 1), (F.hsMacBondLrate 95, 1), (F.hsMacFcMode 95, 2), (F.hsMacFcRxpfcen 95, 0x80)] with macs := [(95, { pfc := [(0, 5)] })] },
     by unfold Dev.Receives Dev.InjIdle; decide +kernel⟩,
   ⟨95, [1, 0x80, 0xC2, 0, 0, 1, 0, 0, 0, 0, 0, 0, 0x88, 8, 0, 1, 0xFF, 0xFF] ++ List.replicate 42 0 ++ fcsOf ([1, 0x80,
     0xC2, 0, 0, 1, 0, 0, 0, 0, 0, 0, 0x88, 8, 0, 1, 0xFF, 0xFF] ++ List.replicate 42 0), 64, 1522, st (live
     [(F.hsMacBondLink 95, 1), (F.hsMacBondLanes 95, 1), (F.hsMacBondLrate 95, 1), (F.hsMacFcMode 95, 0)]),
     by unfold Dev.Receives Dev.InjIdle; decide +kernel⟩,
   ⟨95, 2048, st (live [(F.hsMacBondLink 95, 1), (F.hsMacBondLanes 95, 1), (F.hsMacBondLrate 95, 1), (F.hsMacFcMode 95, 1),
     (F.hsMacFcGen 95, 1), (F.hsMacFcthrXoff 95, 6)]), by unfold Dev.AtBoundary Dev.InjIdle; decide +kernel⟩,
   ⟨95, st (live [(F.hsMacBondLink 95, 1), (F.hsMacBondLanes 95, 1), (F.hsMacBondLrate 95, 1), (F.hsMacFcMode 95, 1),
     (F.hsMacFcGen 95, 1), (F.hsMacFcstatXoffact 95, 1)]), by unfold Dev.AtBoundary Dev.InjIdle; decide +kernel⟩,
   ⟨95, st
     { live [(F.hsMacBondLink 95, 1), (F.hsMacBondLanes 95, 1), (F.hsMacBondLrate 95, 1), (F.hsMacFcMode 95, 1), (F.hsMacFcGen 95, 1), (F.hsMacFcstatXoffact 95, 1)] with macs := [(95, { cur := some ⟨{ src := 0, bytes := List.replicate 12 0 ++ [0x88, 0xF7, 0] ++ List.replicate 45 3 }, [5], 0⟩ })] },
     by decide +kernel⟩,
   ⟨95, st (live [(F.hsMacBondLink 95, 1), (F.hsMacBondLanes 95, 1), (F.hsMacBondLrate 95, 1), (F.hsMacFcMode 95, 1),
     (F.hsMacFcGen 95, 1), (F.hsMacFcstatXoffact 95, 1), (F.hsMacLpistatTxlpi 95, 1), (F.hsMacLpiTw 95, 1)]),
     by decide +kernel⟩,
   ⟨95, 64, 1522, st (live [(F.hsMacBondLink 95, 1), (F.hsMacBondLanes 95, 1), (F.hsMacBondLrate 95, 1), (F.hsMacFcMode 95,
     1), (F.hsMacFcGen 95, 1), (F.hsMacFcstatXoffact 95, 1), (F.hsLnLoopMode 95, 1)]),
     by unfold Dev.Receives Dev.InjIdle; decide +kernel⟩,
   ⟨95, 2047, st (live [(F.hsMacBondLink 95, 1), (F.hsMacBondLanes 95, 1), (F.hsMacBondLrate 95, 1), (F.hsMacFcMode 95, 1),
     (F.hsMacFcGen 95, 1), (F.hsMacFcstatXoffact 95, 1), (F.hsMacFcthrXon 95, 7)]),
     by unfold Dev.AtBoundary Dev.InjIdle; decide +kernel⟩⟩

theorem witness_FramesAreSentAndGated :
    (∃ (p : Fin 96) (x : QPkt) (s : State), (s.dev.mac p).cur = some x ∧ s.dev.InjIdle p ∧ s.dev.get (F.hsLnLoopMode p) ≠ 1 ∧
      s.dev.get (F.hsLnLoopMode p) ≠ 2 ∧ (s.dev.mac p).gen = [] ∧ (s.dev.txFrame p x.pkt).length ≤ (s.dev.mac p).curMax)
    ∧ (∃ (p : Fin 96) (x : QPkt) (s : State), (s.dev.mac p).cur = some x ∧ (s.dev.mac p).curMax < (s.dev.txFrame p
      x.pkt).length)
    ∧ (∃ (p : Fin 96) (x : QPkt) (g : List Byte) (s : State), (s.dev.mac p).cur = some x ∧ s.dev.InjIdle p ∧ s.dev.get
      (F.hsLnLoopMode p) ≠ 1 ∧ s.dev.get (F.hsLnLoopMode p) ≠ 2 ∧ (s.dev.mac p).gen = [g] ∧ (s.dev.mac p).wakeAt ≤
      s.dev.time.ticks ∧ (s.dev.txFrame p x.pkt).length ≤ (s.dev.mac p).curMax)
    ∧ (∃ (p : Fin 96) (s : State), s.dev.Takes (R.hsMacTxtsctl p) (s.dev.withField (F.hsMacTxtsctlPop p) 1) ∧ (s.dev.mac
      p).txts.length ≤ 16)
    ∧ (∃ (p : Fin 96) (v : Word) (c : Nat × Bool) (s : State), s.dev.Takes (R.hsMacGctl p) ((F.hsMacGctlGo p).put v 1) ∧ c =
      changeTime (s.dev.get (F.hsMacGbaseValue p)) s.dev.time.ns (s.dev.get (F.hsMacGleadValue p)) (s.dev.get
      (F.hsMacGcycleValue p)))
    ∧ (∃ (p : Fin 96) (s : State), s.dev.Takes (R.hsMacGctl p) (s.dev.withField (F.hsMacGctlCancel p) 1))
    ∧ (∃ (p : Fin 96) (l : GateList) (s : State), (s.dev.mac p).pend = some l ∧ s.dev.released (hsCord p) = true ∧ unsignedOf
      32 ((s.dev.time.ns : Int) - (l.start : Nat)) < 2 ^ 31 ∧ s.dev.get (F.hsMacGctlGateen p) = 0)
    ∧ (∃ (p : Fin 96) (s : State), s.dev.released (hsCord p) = true) :=
  ⟨⟨95, ⟨{ src := 0, bytes := List.replicate 12 0 ++ [0x88, 0xF7, 0] ++ List.replicate 45 3 }, [5], 0⟩, st
    { live [] with macs := [(95, { txBytes := 2 ^ 64 - 2, cur := some ⟨{ src := 0, bytes := List.replicate 12 0 ++ [0x88, 0xF7, 0] ++ List.replicate 45 3 }, [5], 0⟩, curMax := 64 })] },
    by unfold Dev.InjIdle; decide +kernel⟩,
   ⟨95, ⟨{ src := 0, bytes := List.replicate 1515 0 }, [5], 0⟩, st
     { live [(F.hsMacCfgMaxlen 95, 9000)] with macs := [(95, { cur := some ⟨{ src := 0, bytes := List.replicate 1515 0 }, [5], 0⟩, curMax := 1518 })] },
     by decide +kernel⟩,
   ⟨95, ⟨{ src := 0, bytes := List.replicate 60 0 }, [5], 0⟩, [9], st
     { live [] with macs := [(95, { cur := some ⟨{ src := 0, bytes := List.replicate 60 0 }, [5], 0⟩, curMax := 64, gen := [[9]] })] },
     by unfold Dev.InjIdle; decide +kernel⟩,
   ⟨95, st { live [] with macs := [(95, { txts := List.replicate 16 (TxTs.mk {} 0 0) })] }, takes_of (by decide +kernel),
     by decide +kernel⟩,
   ⟨95, (F.hsMacGctlAdmlen 95).put 0 1, (999999, true), st (live [(F.hsMacGbaseValue 95, 4294967295), (F.hsMacGleadValue 95,
     20000), (F.hsMacGcycleValue 95, 1000000), (F.hsMacGclTInterval 95 0, 1000000)]), takes_of (by decide +kernel),
     by decide +kernel⟩,
   ⟨95, st { live [(F.hsMacGctlPend 95, 1)] with macs := [(95, { pend := some {} })] }, takes_of (by decide +kernel)⟩,
   ⟨95, { start := 4294967295 }, st
     { live [(F.hsMacGctlPend 95, 1)] with macs := [(95, { pend := some { start := 4294967295 } })] }, by decide +kernel⟩,
   ⟨95, st
     { live [(F.hsMacGctlGateen 95, 1)] with time := { ns := 999999 }, macs := [(95, { oper := { entries := [(1, 500000), (2, 500000)] } })] },
     by decide +kernel⟩⟩

theorem witness_PortsIdleParkAndWake :
    (∃ (p : Fin 96) (s : State), s.dev.get (F.hsMacBondLanes p) ≠ 0 ∧ s.dev.linkUp p = false ∧ (∀ l ∈ s.dev.lanesOf p,
      s.dev.stage l = 5 ∧ s.dev.get (F.hsLnLoopMode l) = 0 ∧ s.dev.get (F.hsLnPrbsGen l) = 0 ∧ s.dev.get (F.hsLnPrbsChk l) =
      0))
    ∧ (∃ (p : Fin 96) (rxFrame : Bool) (s : State), s.dev.linkUp p = true ∧ (s.dev.mac p).cur = none)
    ∧ (∃ (p : Fin 96) (rxFrame : Bool) (x : QPkt) (s : State), s.dev.linkUp p = true ∧ (s.dev.mac p).cur = some x)
    ∧ (∃ (p : Fin 96) (s : State), s.dev.get (F.hsMacLpiEn p) = 1 ∧ s.dev.linkUp p = true ∧ s.dev.get (F.hsMacLpistatTxlpi p)
      = 0 ∧ (s.dev.mac p).cur = none ∧ (s.dev.mac p).gen = [] ∧ (∀ q ∈ s.dev.queuesOf p, ∀ x ∈ (s.dev.queue q).pkts.head?,
      (s.dev.shapersOk q && s.dev.portMay p q x.pkt) = false))
    ∧ (∃ (p : Fin 96) (s : State), s.dev.portBusy p = true)
    ∧ (∃ (p : Fin 96) (s : State), s.dev.linkUp p = true ∧ s.dev.get (F.hsMacLpistatRxlpi p) = 0)
    ∧ (∃ (p : Fin 96) (s : State), s.dev.portBusy p = false)
    ∧ (∃ (p : Fin 96) (s : State), s.dev.Takes (R.hsMacPark p) (s.dev.withField (F.hsMacParkPark p) 1) ∧ s.dev.get
      (F.hsMacParkPstate p) ≠ 1)
    ∧ (∃ (p : Fin 96) (s : State), s.dev.Takes (R.hsMacPark p) (s.dev.withField (F.hsMacParkPark p) 0) ∧ s.dev.get
      (F.hsMacParkPstate p) = 1)
    ∧ (∃ (p : Fin 96) (periods : List (BitVec 128)) (s : State), s.dev.waiting = [] ∧ periods.all tinderCounts = true ∧ 640 ≤
      Tbl.get 0 s.dev.pwr.tinderRun p + periods.length ∧ s.dev.cordOn (hsCord p) = true ∧ s.dev.get (F.hsMacParkPstate p) = 1
      ∧ s.dev.get F.hrtPwrCfgAutotin = 0)
    ∧ (∃ (p : Fin 96) (periods : List (BitVec 128)) (s : State), s.dev.waiting = [] ∧ periods.all tinderCounts = true ∧ 640 ≤
      Tbl.get 0 s.dev.pwr.tinderRun p + periods.length ∧ s.dev.cordSt (hsCord p) = 0 ∧ s.dev.standby p = true ∧ s.dev.get
      F.hrtPwrCfgAutotin = 0)
    ∧ (∃ (p : Fin 96) (x : BitVec 128) (s : State), s.dev.waiting = [] ∧ s.dev.tinderOn p = true ∧ tinderCounts x = false ∧
      Tbl.get 0 s.dev.pwr.tinderRun p < 640)
    ∧ (∃ (p : Fin 96) (x : BitVec 128) (s : State), s.dev.waiting = [] ∧ s.dev.tinderOn p = true ∧ tinderCounts x = true ∧
      Tbl.get 0 s.dev.pwr.tinderRun p < 639) :=
  ⟨⟨95, st (live [(F.hsMacBondLanes 95, 1), (F.hsLnStatStage 95, 5), (F.hsMacParkPstate 95, 2)]), by decide +kernel⟩,
   ⟨95, true, st (live [(F.hsMacBondLink 95, 1), (F.hsMacRxerrCount 95, 4294967295)]), by decide +kernel⟩,
   ⟨95, true, ⟨{ src := 0 }, [5], 0⟩, st
     { live [(F.hsMacBondLink 95, 1)] with macs := [(95, { cur := some ⟨{ src := 0 }, [5], 0⟩ })] }, by decide +kernel⟩,
   ⟨95, st
     { live [(F.hsMacBondLink 95, 1), (F.hsMacLpiEn 95, 1), (F.hsMacLpistatTxlpicnt 95, 255), (F.bufQMapSched 8191, 95)] with macs := [(95, { pause := 9 })], buf := { queues := [(8191, { pkts := [⟨{ src := 0, bytes := [1] }, [], 0⟩] })] } },
     by decide +kernel⟩,
   ⟨95, st
     { live [(F.hsMacBondLink 95, 1), (F.hsMacLpistatTxlpi 95, 1), (F.bufQMapSched 8191, 95)] with buf := { queues := [(8191, { pkts := [⟨{ src := 0, bytes := [1] }, [], 0⟩] })] } },
     by decide +kernel⟩,
   ⟨95, st (live [(F.hsMacBondLink 95, 1)]), by decide +kernel⟩,
   ⟨95, st (live [(F.hsMacLpistatTxlpi 95, 1)]), by decide +kernel⟩,
   ⟨95, st
     { live [(F.hsMacBondClass 95, 1), (F.hsMacBondLanes 95, 1), (F.hsLnStatStage 95, 5), (F.hsMacBondLink 95, 1)] with macs := [(95, { pause := 5, pfc := [(7, 5)] })] },
     takes_of (by decide +kernel), by decide +kernel⟩,
   ⟨95, st (live [(F.hsMacBondLanes 95, 1), (F.hsMacParkPark 95, 1), (F.hsMacParkPstate 95, 1)]), takes_of
     (by decide +kernel), by decide +kernel⟩,
   ⟨95, [0xFFFFFFFFFFFFFFFF00, 0xFFFFFFFFFFFFFF0000000000000000], st
     { live [(F.hsMacBondLanes 95, 1), (F.hsMacParkPark 95, 1), (F.hsMacParkPstate 95, 1), (F.hrtPwrCfgAutotin, 0)] with pwr := { tinderRun := [(95, 638)] } },
     by decide +kernel⟩,
   ⟨95, [0xFFFFFFFFFFFFFFFF00], st
     { live [(F.hrtPwrCordSt 11, 0), (F.hrtPwrCfgAutotin, 0)] with pwr := { tinderRun := [(95, 639)] }, img := { slot := [(11, { recs := [.port 95 1 1 1 15] })] } },
     by decide +kernel⟩,
   ⟨95, 0xFFFFFFFFFFFFF0001F00, st { live [(F.hsMacParkPstate 95, 1)] with pwr := { tinderRun := [(95, 639)] } },
     by decide +kernel⟩,
   ⟨95, 0xFFFFFFFFFFFFFFFF00, st { live [(F.hsMacParkPstate 95, 1)] with pwr := { tinderRun := [(95, 638)] } },
     by decide +kernel⟩⟩

theorem witness_KindlingGoesStageByStage :
    (∃ (l : Fin 96) (s : State), s.dev.stage l = 1 ∧ s.dev.runs l = true ∧ s.dev.lcfg l F.hsLnCfgAnen = 0 ∧ s.dev.lcfg l
      F.hsLnCfgTrnen = 1)
    ∧ (∃ (l : Fin 96) (s : State), s.dev.stage l = 1 ∧ s.dev.runs l = true ∧ s.dev.lcfg l F.hsLnCfgAnen = 0 ∧ s.dev.lcfg l
      F.hsLnCfgTrnen = 0)
    ∧ (∃ (l : Fin 96) (s : State), s.dev.stage l = 1 ∧ s.dev.runs l = true ∧ s.dev.lcfg l F.hsLnCfgAnen = 1)
    ∧ (∃ (l : Fin 96) (offer : BitVec 4) (s : State), s.dev.stage l = 1 ∧ s.dev.runs l = true ∧ s.dev.lcfg l F.hsLnCfgAnen =
      1 ∧ (s.dev.lane l).detected = true ∧ s.dev.lcfg l F.hsLnCfgTrnen = 1)
    ∧ (∃ (l : Fin 96) (offer : BitVec 4) (s : State), s.dev.stage l = 1 ∧ s.dev.runs l = true ∧ s.dev.lcfg l F.hsLnCfgAnen =
      1 ∧ (s.dev.lane l).detected = true)
    ∧ (∃ (l : Fin 96) (height : Nat) (width : Nat) (snr : Nat) (s : State), s.dev.stage l = 2 ∧ s.dev.runs l = true ∧
      (s.dev.lane l).ready = false ∧ (∀ b, (s.dev.lane l).best = some b → b < min height 255))
    ∧ (∃ (l : Fin 96) (height : Nat) (width : Nat) (snr : Nat) (b : Nat) (s : State), s.dev.stage l = 2 ∧ s.dev.runs l = true
      ∧ (s.dev.lane l).ready = false ∧ (s.dev.lane l).best = some b ∧ min height 255 ≤ b)
    ∧ (∃ (l : Fin 96) (s : State), s.dev.stage l = 2 ∧ s.dev.runs l = true ∧ (s.dev.lane l).ready = true)
    ∧ (∃ (l : Fin 96) (s : State), s.dev.stage l = 2 ∧ s.dev.runs l = true)
    ∧ (∃ (l : Fin 96) (s : State), s.dev.stage l = 3 ∧ s.dev.runs l = true ∧ s.dev.get (F.hsLnStatLrxact l) = 0 ∧
      eyesConverged (s.dev.lane l).eyes = true)
    ∧ (∃ (l : Fin 96) (s : State), s.dev.stage l = 3 ∧ s.dev.get (F.hsLnPrbsGen l) = 0 ∧ (s.dev.get (F.hsLnLoopMode l) = 1 ∨
      s.dev.get (F.hsLnStatLrxact l) = 1) ∧ eyesConverged (s.dev.lane l).eyes = true)
    ∧ (∃ (l : Fin 96) (s : State), eyesConverged (s.dev.lane l).eyes = false)
    ∧ (∃ (l : Fin 96) (s : State), s.dev.stage l = 3 ∧ s.dev.runs l = true)
    ∧ (∃ (l : Fin 96) (s : State), s.dev.stage l = 6) :=
  ⟨⟨95, st
    { live [(F.hsMacBondLanes 95, 1), (F.hsMacBondLrate 95, 1), (F.hsMacBondClass 95, 1), (F.hsLnStatStage 95, 1)] with lanes := [(95, { cfg := (F.hsLnCfgTrnen 95).put 0 1 })] },
    by decide +kernel⟩,
   ⟨95, st
     { live [(F.hsMacBondLanes 95, 1), (F.hsMacBondLrate 95, 1), (F.hsMacBondClass 95, 1), (F.hsLnStatStage 95, 1)] with lanes := [(95, { cfg := 0 })] },
     by decide +kernel⟩,
   ⟨95, st
     { live [(F.hsMacBondLanes 95, 1), (F.hsMacBondLrate 95, 1), (F.hsMacBondClass 95, 1), (F.hsLnStatStage 95, 1)] with lanes := [(95, { cfg := (F.hsLnCfgAnen 95).put 0 1 })] },
     by decide +kernel⟩,
   ⟨95, 15, st
     { live [(F.hsMacBondLanes 95, 1), (F.hsMacBondLrate 95, 1), (F.hsMacBondClass 95, 1), (F.hsLnStatStage 95, 1)] with lanes := [(95, { detected := true, cfg := (F.hsLnCfgTrnen 95).put ((F.hsLnCfgAnen 95).put 0 1) 1 })] },
     by decide +kernel⟩,
   ⟨95, 15, st
     { live [(F.hsMacBondLanes 95, 1), (F.hsMacBondLrate 95, 1), (F.hsMacBondClass 95, 1), (F.hsLnStatStage 95, 1), (F.hsLnStatKfail 95, 255)] with lanes := [(95, { detected := true, cfg := (F.hsLnCfgTrnen 95).put ((F.hsLnCfgAnen 95).put 0 1) 1 })] },
     by decide +kernel⟩,
   ⟨95, 300, 9, 9, st
     { live [(F.hsMacBondLanes 95, 1), (F.hsMacBondLrate 95, 1), (F.hsMacBondClass 95, 1), (F.hsLnStatStage 95, 2)] with lanes := [(95, { best := some 254 })] },
     by decide +kernel⟩,
   ⟨95, 9, 9, 9, 9, st
     { live [(F.hsMacBondLanes 95, 1), (F.hsMacBondLrate 95, 1), (F.hsMacBondClass 95, 1), (F.hsLnStatStage 95, 2)] with lanes := [(95, { best := some 9 })] },
     by decide +kernel⟩,
   ⟨95, st
     { live [(F.hsMacBondLanes 95, 1), (F.hsMacBondLrate 95, 1), (F.hsMacBondClass 95, 1), (F.hsLnStatStage 95, 2)] with lanes := [(95, { ready := true })] },
     by decide +kernel⟩,
   ⟨95, st (live [(F.hsMacBondLanes 95, 1), (F.hsMacBondLrate 95, 1), (F.hsMacBondClass 95, 1), (F.hsLnStatStage 95, 2)]),
     by decide +kernel⟩,
   ⟨95, st
     { live [(F.hsMacBondLanes 95, 1), (F.hsMacBondLrate 95, 1), (F.hsMacBondClass 95, 1), (F.hsLnStatStage 95, 3), (F.hsLnEyethrLrxthr 95, 9), (F.hsLnEyeEyeh 95, 8)] with lanes := [(95, { cfg := (F.hsLnCfgLrxen 95).put 0 1, eyes := [8, 12, 16, 12] })] },
     by decide +kernel⟩,
   ⟨95, st
     { live [(F.hsMacBondLanes 95, 1), (F.hsMacBondLrate 95, 1), (F.hsMacBondClass 95, 1), (F.hsLnStatStage 95, 3), (F.hsLnLoopMode 95, 1)] with lanes := [(95, { eyes := [8, 12, 16, 12] })] },
     by decide +kernel⟩,
   ⟨95, st
     { live [(F.hsMacBondLanes 95, 1), (F.hsMacBondLrate 95, 1), (F.hsMacBondClass 95, 1), (F.hsLnStatStage 95, 3)] with lanes := [(95, { eyes := [8, 13, 12, 12] })] },
     by decide +kernel⟩,
   ⟨95, st (live [(F.hsMacBondLanes 95, 1), (F.hsMacBondLrate 95, 1), (F.hsMacBondClass 95, 1), (F.hsLnStatStage 95, 3)]),
     by decide +kernel⟩,
   ⟨95, st (live [(F.hsMacBondLanes 95, 1), (F.hsMacBondLrate 95, 1), (F.hsMacBondClass 95, 1), (F.hsLnStatStage 95, 6)]),
     by decide +kernel⟩⟩

theorem witness_TrainingMovesTheTaps :
    (∃ (l : Fin 96) (q : TrainReq) (s : State), s.dev.stage l = 2 ∧ s.dev.runs l = true ∧ contradicts q = true)
    ∧ (∃ (l : Fin 96) (s : State), s.dev.stage l = 2 ∧ s.dev.runs l = true)
    ∧ (∃ (l : Fin 96) (s : State), s.dev.stage l = 2 ∧ s.dev.runs l = true)
    ∧ (∃ (l : Fin 96) (v : Int) (c0 : Int) (s : State), s.dev.stage l = 2 ∧ s.dev.runs l = true ∧ s.dev.get (F.hsLnStatLrxact
      l) = 0 ∧ v = s.dev.getInt (F.hsLnTxeqCm1 l) - 1 ∧ c0 = 64 - ((s.dev.getInt (F.hsLnTxeqCm2 l)).natAbs + v.natAbs +
      (s.dev.getInt (F.hsLnTxeqC1 l)).natAbs : Nat) ∧ -16 ≤ v ∧ v ≤ 0 ∧ 24 ≤ c0)
    ∧ (∃ (l : Fin 96) (s : State), s.dev.stage l = 2 ∧ s.dev.runs l = true ∧ s.dev.get (F.hsLnStatLrxact l) = 0 ∧
      s.dev.getInt (F.hsLnTxeqCm1 l) = -16)
    ∧ (∃ (l : Fin 96) (v : Int) (c0 : Int) (s : State), s.dev.stage l = 2 ∧ s.dev.runs l = true ∧ v = s.dev.getInt
      (F.hsLnTxeqCm1 l) + 1 ∧ c0 = 64 - ((s.dev.getInt (F.hsLnTxeqCm2 l)).natAbs + v.natAbs + (s.dev.getInt (F.hsLnTxeqC1
      l)).natAbs : Nat) ∧ v ≤ 0 ∧ -128 ≤ c0)
    ∧ (∃ (l : Fin 96) (up : Bool) (s : State), s.dev.stage l = 2 ∧ s.dev.runs l = true)
    ∧ (∃ (l : Fin 96) (up : Bool) (s : State), s.dev.stage l = 2 ∧ s.dev.runs l = true ∧ s.dev.pam4 l = false) :=
  ⟨⟨95, ⟨true, false, [(.c1, true)]⟩, st (live [(F.hsMacBondLanes 95, 1), (F.hsMacBondLrate 95, 1), (F.hsMacBondClass 95, 1),
    (F.hsLnStatStage 95, 2), (F.hsLnLoopProto 95, 255)]), by decide +kernel⟩,
   ⟨95, st (live [(F.hsMacBondLanes 95, 1), (F.hsMacBondLrate 95, 1), (F.hsMacBondClass 95, 1), (F.hsLnStatStage 95, 2)]),
     by decide +kernel⟩,
   ⟨95, st (live [(F.hsMacBondLanes 95, 1), (F.hsMacBondLrate 95, 1), (F.hsMacBondClass 95, 1), (F.hsLnStatStage 95, 2)]),
     by decide +kernel⟩,
   ⟨95, -16, 48, st (live [(F.hsMacBondLanes 95, 1), (F.hsMacBondLrate 95, 1), (F.hsMacBondClass 95, 1), (F.hsLnStatStage 95,
     2), (F.hsLnTxeqCm1 95, 241), (F.hsLnTxeqCm2 95, 0), (F.hsLnTxeqC1 95, 0)]), by decide +kernel⟩,
   ⟨95, st (live [(F.hsMacBondLanes 95, 1), (F.hsMacBondLrate 95, 1), (F.hsMacBondClass 95, 1), (F.hsLnStatStage 95, 2),
     (F.hsLnTxeqCm1 95, 240)]), by decide +kernel⟩,
   ⟨95, -21, 43, st (live [(F.hsMacBondLanes 95, 1), (F.hsMacBondLrate 95, 1), (F.hsMacBondClass 95, 1), (F.hsLnStatStage 95,
     2), (F.hsLnTxeqCm1 95, 234), (F.hsLnTxeqCm2 95, 0), (F.hsLnTxeqC1 95, 0)]), by decide +kernel⟩,
   ⟨95, true, st (live [(F.hsMacBondLanes 95, 1), (F.hsMacBondLrate 95, 1), (F.hsMacBondClass 95, 1), (F.hsLnStatStage 95,
     2)]), by decide +kernel⟩,
   ⟨95, true, st (live [(F.hsMacBondLanes 95, 1), (F.hsMacBondLrate 95, 1), (F.hsMacBondClass 95, 1), (F.hsLnStatStage 95,
     2)]), by decide +kernel⟩⟩

theorem witness_CapabilitiesAreExchanged :
    (∃ (l : Fin 96) (frame : BitVec 128) (s : State), s.dev.stage l = 4 ∧ s.dev.runs l = true ∧ (frame.toNat / 2 ^ 96 ≠
      0x4B494E44 ∨ crc16 (bitsOf 112 (frame.toNat / 2 ^ 16)) ≠ frame.toNat % 2 ^ 16))
    ∧ (∃ (l : Fin 96) (frame : BitVec 128) (msg : Nat) (s : State), s.dev.stage l = 4 ∧ s.dev.runs l = true ∧ frame.toNat / 2
      ^ 96 = 0x4B494E44 ∧ crc16 (bitsOf 112 (frame.toNat / 2 ^ 16)) = frame.toNat % 2 ^ 16 ∧ msg = frame.toNat / 2 ^ 32 % 2 ^
      64 ∧ msg / 2 ^ 60 = 1 ∧ (s.dev.lane l).run ≤ 1 ∧ (s.dev.lane l).agreed = none)
    ∧ (∃ (l : Fin 96) (frame : BitVec 128) (msg : Nat) (c : Nat) (s : State), s.dev.stage l = 4 ∧ s.dev.runs l = true ∧
      frame.toNat / 2 ^ 96 = 0x4B494E44 ∧ crc16 (bitsOf 112 (frame.toNat / 2 ^ 16)) = frame.toNat % 2 ^ 16 ∧ msg =
      frame.toNat / 2 ^ 32 % 2 ^ 64 ∧ msg / 2 ^ 60 = 1 ∧ 2 ≤ (s.dev.lane l).run ∧ (s.dev.lane l).acked = true ∧ (s.dev.lane
      l).msg = some (msg, frame.toNat / 2 ^ 24 % 128) ∧ s.dev.portOf l = some l.val ∧ s.dev.get (F.hsMacBondLanes l) = 1 ∧
      s.dev.capBad l msg = false ∧ s.dev.lcfg l F.hsLnCfgLrxen = 0 ∧ strongest (s.dev.get (F.hsLnCfgFecallow l) &&& msg / 2 ^
      23 % 16) = some c)
    ∧ (∃ (l : Fin 96) (frame : BitVec 128) (msg : Nat) (s : State), s.dev.stage l = 4 ∧ s.dev.runs l = true ∧ frame.toNat / 2
      ^ 96 = 0x4B494E44 ∧ crc16 (bitsOf 112 (frame.toNat / 2 ^ 16)) = frame.toNat % 2 ^ 16 ∧ msg = frame.toNat / 2 ^ 32 % 2 ^
      64 ∧ msg / 2 ^ 60 = 1 ∧ 2 ≤ (s.dev.lane l).run ∧ (s.dev.lane l).acked = true ∧ (s.dev.lane l).msg = some (msg,
      frame.toNat / 2 ^ 24 % 128) ∧ s.dev.capBad l msg = true)
    ∧ (∃ (l : Fin 96) (frame : BitVec 128) (msg : Nat) (m : Nat) (c : Nat) (s : State), s.dev.stage l = 4 ∧ s.dev.runs l =
      true ∧ frame.toNat / 2 ^ 96 = 0x4B494E44 ∧ crc16 (bitsOf 112 (frame.toNat / 2 ^ 16)) = frame.toNat % 2 ^ 16 ∧ msg =
      frame.toNat / 2 ^ 32 % 2 ^ 64 ∧ msg / 2 ^ 60 = 1 ∧ (s.dev.lane l).agreed = some m ∧ (s.dev.lane l).msg ≠ some (msg,
      frame.toNat / 2 ^ 24 % 128) ∧ frame.toNat.testBit 23 = true ∧ frame.toNat / 2 ^ 16 % 128 = (s.dev.lane l).cseq ∧
      s.dev.portOf l = some l.val ∧ s.dev.get (F.hsMacBondLanes l) = 1 ∧ s.dev.capBad l m = false ∧ s.dev.lcfg l
      F.hsLnCfgLrxen = 0 ∧ strongest (s.dev.get (F.hsLnCfgFecallow l) &&& m / 2 ^ 23 % 16) = some c)
    ∧ (∃ (l : Fin 96) (s : State), s.dev.stage l = 4 ∧ s.dev.runs l = true ∧ ((s.dev.lane l).good = true ∨ s.dev.lcfg l
      F.hsLnCfgLegok = 0))
    ∧ (∃ (l : Fin 96) (c : Nat) (s : State), s.dev.stage l = 4 ∧ s.dev.runs l = true ∧ (s.dev.lane l).good = false ∧
      s.dev.lcfg l F.hsLnCfgLegok = 1 ∧ s.dev.portOf l = some l.val ∧ s.dev.get (F.hsMacBondLanes l) = 1 ∧ strongest
      (s.dev.get (F.hsLnCfgFecallow l) &&& (s.dev.lane l).offer.getD 15) = some c) :=
  ⟨⟨95, 0x4b494e4411000001ff8000007f809483, st
    { live [(F.hsMacBondLanes 95, 1), (F.hsMacBondLrate 95, 1), (F.hsMacBondClass 95, 1), (F.hsLnStatStage 95, 4)] with lanes := [(95, { run := 2 })] },
    by decide +kernel⟩,
   ⟨95, 0x4b494e4411000001ff8000007f809482, 1224979107226320896, st
     { live [(F.hsMacBondLanes 95, 1), (F.hsMacBondLrate 95, 1), (F.hsMacBondClass 95, 1), (F.hsLnStatStage 95, 4)] with lanes := [(95, { run := 1, acked := true, msg := some (1224979107226320896, 127) })] },
     by decide +kernel⟩,
   ⟨95, 0x4b494e4411000001ff8000007f809482, 1224979107226320896, 3, st
     { live [(F.hsMacBondLanes 95, 1), (F.hsMacBondLrate 95, 1), (F.hsMacBondClass 95, 1), (F.hsLnStatStage 95, 4), (F.hsLnCfgFecallow 95, 15)] with lanes := [(95, { run := 2, acked := true, msg := some (1224979107226320896, 127) })] },
     by decide +kernel⟩,
   ⟨95, 0x4b494e4410000001ff8000007f80fbc7, 1152921513188392960, st
     { live [(F.hsMacBondLanes 95, 1), (F.hsMacBondLrate 95, 1), (F.hsMacBondClass 95, 1), (F.hsLnStatStage 95, 4), (F.hsLnCfgFecallow 95, 15)] with lanes := [(95, { run := 2, acked := true, msg := some (1152921513188392960, 127) })] },
     by decide +kernel⟩,
   ⟨95, 0x4b494e4411000001ff8000007f809482, 1224979107226320896, 1224979107226320896, 3, st
     { live [(F.hsMacBondLanes 95, 1), (F.hsMacBondLrate 95, 1), (F.hsMacBondClass 95, 1), (F.hsLnStatStage 95, 4), (F.hsLnCfgFecallow 95, 15)] with lanes := [(95, { run := 2, agreed := some 1224979107226320896 })] },
     by decide +kernel⟩,
   ⟨95, st (live [(F.hsMacBondLanes 95, 1), (F.hsMacBondLrate 95, 1), (F.hsMacBondClass 95, 1), (F.hsLnStatStage 95, 4)]),
     by decide +kernel⟩,
   ⟨95, 2, st
     { live [(F.hsMacBondLanes 95, 1), (F.hsMacBondLrate 95, 1), (F.hsMacBondClass 95, 1), (F.hsLnStatStage 95, 4), (F.hsLnCfgFecallow 95, 15)] with lanes := [(95, { offer := some 7, cfg := (F.hsLnCfgLegok 95).put 0 1 })] },
     by decide +kernel⟩⟩

theorem witness_LanesAreTestedAndMeasured :
    (∃ (l : Fin 96) (s : State), s.dev.stage l = 5 ∧ s.dev.get (F.hsLnLoopMode l) = 0 ∧ s.dev.laneOn l = true)
    ∧ (∃ (l : Fin 96) (s : State), s.dev.stage l = 3 ∧ s.dev.get (F.hsLnLoopMode l) = 0 ∧ s.dev.laneOn l = true)
    ∧ (∃ (l : Fin 96) (s : State), s.dev.stage l = 5 ∧ s.dev.get (F.hsLnLoopMode l) = 0 ∧ s.dev.laneOn l = true ∧ (∀ p,
      s.dev.portOf l = some p → s.dev.get (F.hsMacLpistatRxlpi p) = 0))
    ∧ (∃ (l : Fin 96) (mode : Fin 4) (s : State), s.dev.Takes (R.hsLnLoop l) (s.dev.withField (F.hsLnLoopMode l) mode) ∧
      s.dev.laneOn l = true)
    ∧ (∃ (l : Fin 96) (v : Word) (s : State), s.dev.Takes (R.hsLnPrbs l) v ∧ ((F.hsLnPrbsGen l).of v = 1 ∨ (F.hsLnPrbsChk
      l).of v = 1))
    ∧ (∃ (l : Fin 96) (v : Word) (s : State), s.dev.Takes (R.hsLnPrbs l) v ∧ (F.hsLnPrbsGen l).of v = 0 ∧ (F.hsLnPrbsChk
      l).of v = 0 ∧ (s.dev.get (F.hsLnPrbsGen l) = 1 ∨ s.dev.get (F.hsLnPrbsChk l) = 1) ∧ s.dev.get (F.hsLnLoopMode l) = 0 ∧
      s.dev.laneOn l = true)
    ∧ (∃ (l : Fin 96) (s : State), s.dev.get (F.hsLnPrbsChk l) = 1)
    ∧ (∃ (l : Fin 96) (errors : Nat) (s : State), s.dev.get (F.hsLnPrbsChk l) = 1 ∧ s.dev.get (F.hsLnPrbsLock l) = 1 ∧ errors
      ≠ 0)
    ∧ (∃ (l : Fin 96) (height : Nat) (width : Nat) (snr : Nat) (s : State), 3 ≤ s.dev.stage l ∧ s.dev.stage l ≤ 5)
    ∧ (∃ (l : Fin 96) (p : Nat) (s : State), s.dev.stage l = 5 ∧ s.dev.firstLane l = p)
    ∧ (∃ (l : Fin 96) (corrections : Nat) (codewords : Nat) (s : State), s.dev.stage l = 5)
    ∧ (∃ (l : Fin 96) (bits : List Bool) (s : State), s.dev.stage l = 5 ∧ bits.length % 2 = 0 ∧ s.dev.get (F.hsLnStatTxprec
      l) = s.dev.get (F.hsLnStatRxprec l)) :=
  ⟨⟨95, st (live [(F.hsMacBondLanes 95, 1), (F.hsMacBondLrate 95, 1), (F.hsMacBondClass 95, 1), (F.hsLnStatStage 95, 5),
    (F.hsMacBondLink 95, 1), (F.hsLnStatLostcnt 95, 255)]), by decide +kernel⟩,
   ⟨95, st (live [(F.hsMacBondLanes 95, 1), (F.hsMacBondLrate 95, 1), (F.hsMacBondClass 95, 1), (F.hsLnStatStage 95, 3)]),
     by decide +kernel⟩,
   ⟨95, st (live [(F.hsMacBondLanes 95, 1), (F.hsMacBondLrate 95, 1), (F.hsMacBondClass 95, 1), (F.hsLnStatStage 95, 5),
     (F.hsMacBondLink 95, 1), (F.hsLnStatLostcnt 95, 255)]), by decide +kernel⟩,
   ⟨95, 1, st (live [(F.hsMacBondLanes 95, 1), (F.hsMacBondLrate 95, 1), (F.hsMacBondClass 95, 1), (F.hsLnStatStage 95, 5),
     (F.hsMacBondLink 95, 1)]), takes_of (by decide +kernel), by decide +kernel⟩,
   ⟨95, (F.hsLnPrbsGen 95).put 0 1, st (live [(F.hsMacBondLanes 95, 1), (F.hsMacBondLrate 95, 1), (F.hsMacBondClass 95, 1),
     (F.hsLnStatStage 95, 5), (F.hsMacBondLink 95, 1)]), takes_of (by decide +kernel), by decide +kernel⟩,
   ⟨95, 0, st (live [(F.hsMacBondLanes 95, 1), (F.hsMacBondLrate 95, 1), (F.hsMacBondClass 95, 1), (F.hsLnStatStage 95, 5),
     (F.hsLnPrbsChk 95, 1), (F.hsLnPrbsLock 95, 1)]), takes_of (by decide +kernel), by decide +kernel⟩,
   ⟨95, st (live [(F.hsMacBondLanes 95, 1), (F.hsMacBondLrate 95, 1), (F.hsMacBondClass 95, 1), (F.hsLnPrbsChk 95, 1)]),
     by decide +kernel⟩,
   ⟨95, 65536, st (live [(F.hsMacBondLanes 95, 1), (F.hsMacBondLrate 95, 1), (F.hsMacBondClass 95, 1), (F.hsLnPrbsChk 95, 1),
     (F.hsLnPrbsLock 95, 1)]), by decide +kernel⟩,
   ⟨95, 256, 256, 641, st
     { live [(F.hsMacBondLanes 95, 1), (F.hsMacBondLrate 95, 1), (F.hsMacBondClass 95, 1), (F.hsLnStatStage 95, 3)] with lanes := [(95, { eyes := [8, 13, 12, 12] })] },
     by decide +kernel⟩,
   ⟨95, 95, st (live [(F.hsMacBondLanes 95, 1), (F.hsMacBondLrate 95, 1), (F.hsMacBondClass 95, 1), (F.hsLnStatStage 95,
     5)]), by decide +kernel⟩,
   ⟨95, 65, 9, st (live [(F.hsMacBondLanes 95, 1), (F.hsMacBondLrate 95, 1), (F.hsMacBondClass 95, 1), (F.hsLnStatStage 95,
     5), (F.hsLnEyethrSdthr 95, 1)]), by decide +kernel⟩,
   ⟨95, [true, false, false, true, true, true], st (live [(F.hsMacBondLanes 95, 1), (F.hsMacBondLrate 95, 1),
     (F.hsMacBondClass 95, 1), (F.hsLnStatStage 95, 5), (F.hsMacBondLrate 95, 4), (F.hsLnStatTxprec 95, 1), (F.hsLnStatRxprec
     95, 1)]), by decide +kernel⟩⟩

theorem witness_LinkAndEndpointFollow :
    (∃ (speed : Nat) (width : Nat) (s : State), s.dev.cordOn 12 = true ∧ s.dev.pcie.perst = false ∧ 1 ≤ speed ∧ speed ≤ 5 ∧
      (width = 1 ∨ width = 2 ∨ width = 4 ∨ width = 8))
    ∧ (∃ (s : State), s.dev.get F.pciEpStatDlup = 1)
    ∧ (∃ (i : Fin 6) (s : State), s.dev.cordOn 12 = true ∧ s.dev.pcie.perst = false)
    ∧ (∃ (i : Fin 6) (v : Word) (s : State), s.dev.cordOn 12 = true ∧ s.dev.pcie.perst = false)
    ∧ (∃ (a : Bool) (b : Bool) (s : State), s.dev.cordOn 12 = true ∧ s.dev.pcie.perst = false)
    ∧ (∃ (ofs : BitVec 16) (v : Word) (m : MsixVec) (s : State), ofs.toNat < 0x2000 ∧ ofs.toNat % 4 = 0 ∧ s.dev.cordOn 12 =
      true ∧ m = Tbl.get {} s.dev.msixTable (ofs.toNat / 16))
    ∧ (∃ (ofs : BitVec 16) (v : Word) (s : State), 0x2000 ≤ ofs.toNat)
    ∧ (∃ (ofs : BitVec 16) (x : Word) (m : MsixVec) (s : State), ofs.toNat % 4 = 0 ∧ s.dev.cordOn 12 = true ∧ m = Tbl.get {}
      s.dev.msixTable (ofs.toNat / 16) ∧ ((ofs.toNat < 0x2000 ∧ x = [m.addrLo, m.addrHi, m.data, if m.masked then 1 else
      0].getD (ofs.toNat / 4 % 4) 0 ∨ 0x2000 ≤ ofs.toNat ∧ ofs.toNat < 0x2040 ∧ (∀ i < 32, x.getLsbD i =
      s.dev.msixHeld.contains (8 * (ofs.toNat - 0x2000) + i)) ∨ 0x2040 ≤ ofs.toNat ∧ x = 0)))
    ∧ (∃ (q : CfgReg) (s : State), s.dev.cordOn 12 = true ∧ s.dev.pcie.perst = false)
    ∧ (∃ (v : Word) (s : State), s.dev.cordOn 12 = true ∧ s.dev.pcie.perst = false)
    ∧ (∃ (v : Fin 512) (m : MsixVec) (s : State), v.val ∈ s.dev.msixHeld ∧ s.dev.msixReady v = true ∧ m = Tbl.get {}
      s.dev.msixTable v) :=
  ⟨⟨5, 4, st (live [(F.pciEpStatDlup, 0)]), by decide +kernel⟩,
   ⟨st
     { live [(F.pciRxgCfgEn 2047, 1), (F.pciRxgTailTail 2047, 9), (F.pciTxgCfgEn 0, 1), (F.pciTxgHeadHead 0, 9)] with pcie := { rings := [(2047, { pending := [⟨{ src := 0 }, [], 0⟩] })] } },
     by decide +kernel⟩,
   ⟨5, st { live [] with pcie := { bars := [(0, 0xFFFFFFFF), (1, 7)] } }, by decide +kernel⟩,
   ⟨2, 0xFFFFFFFF, st { live [] with pcie := { bars := [(0, 0xFFFFFFFF), (1, 7)] } }, by decide +kernel⟩,
   ⟨true, false, st (live []), by decide +kernel⟩,
   ⟨0x1FFC, 0xFFFFFFFE, {}, st (live []), by decide +kernel⟩,
   ⟨0x2000, 0xFFFFFFFE, st (live []), by decide +kernel⟩,
   ⟨0x1FFC, 1, {}, st (live []), by decide +kernel⟩,
   ⟨.devCap, st (live []), by decide +kernel⟩,
   ⟨0xFFFFFFFF, st (live []), by decide +kernel⟩,
   ⟨511, { addrLo := 4, masked := false }, st
     { live [] with msixHeld := [0, 511], pcie := { msixEnable := true, busMaster := true }, msixTable := [(511, { addrLo := 4, masked := false })] },
     by decide +kernel⟩⟩

theorem witness_RingsAreDrivenAndReset :
    (∃ (tx : Bool) (r : Fin 2048) (v : Word) (s : State), s.dev.Takes (ringTail tx r).addr v ∧ s.dev.get (ringEn tx r) = 1 ∧
      s.dev.get (ringF tx F.pciRxgCfgSize F.pciTxgCfgSize r) ≤ 16)
    ∧ (∃ (tx : Bool) (r : Fin 2048) (v : Word) (s : State), s.dev.Takes (ringTail tx r).addr v ∧ s.dev.get (ringEn tx r) = 0)
    ∧ (∃ (tx : Bool) (r : Fin 2048) (s : State), s.dev.Takes (ringEn tx r).addr (s.dev.withField (ringEn tx r) 1) ∧ s.dev.get
      (ringEn tx r) = 0 ∧ s.dev.get (ringF tx F.pciRxgCfgSize F.pciTxgCfgSize r) ≤ 16)
    ∧ (∃ (tx : Bool) (r : Fin 2048) (written : List (BitVec 64)) (s : State), s.dev.Takes (ringEn tx r).addr (s.dev.withField
      (ringEn tx r) 0) ∧ s.dev.get (ringEn tx r) = 1)
    ∧ (∃ (tx : Bool) (r : Fin 2048) (written : List (BitVec 64)) (g : Ring) (s : State), s.dev.Takes (ringEn tx r).addr
      (s.dev.withField (ringF tx F.pciRxgCfgFlush F.pciTxgCfgFlush r) 1) ∧ s.dev.ring tx r = g)
    ∧ (∃ (tx : Bool) (r : Fin 2048) (v : Nat) (m : MsixVec) (s : State), s.dev.Takes (ringEn tx r).addr (s.dev.withField
      (ringF tx F.pciRxgCfgIrqen F.pciTxgCfgIrqen r) 1) ∧ s.dev.get (ringF tx F.pciRxgCfgIrqen F.pciTxgCfgIrqen r) = 0 ∧
      s.dev.get (ringF tx F.pciRxgStatAbove F.pciTxgStatAbove r) = 1 ∧ v = s.dev.get (ringF tx F.pciRxgCfgVec F.pciTxgCfgVec
      r) ∧ s.dev.msixReady v = true ∧ m = Tbl.get {} s.dev.msixTable v)
    ∧ (∃ (tx : Bool) (r : Fin 2048) (c : Nat) (e : Nat) (i : Instr) (s : State), ((i = .pciRingPtr tx r ∧ s.dev.cordOn 12 =
      true ∧ s.dev.pcie.perst = false ∧ c = 1 ∧ e = 0xF2) ∨ ((i = .pciDmaErr tx r .errorCompletion ∨ i = .pciDmaErr tx r
      .poisoned ∨ i = .pciDmaErr tx r .timeout ∧ (s.dev.cfgReg .devCtl2).getLsbD 4 = false) ∧ (s.dev.get (ringEn tx r) = 1 ∨
      s.dev.get (ringFlbusy tx r) = 1) ∧ c = 2 ∧ e = 0xF3)))
    ∧ (∃ (tx : Bool) (r : Fin 2048) (s : State), s.dev.get (ringFlbusy tx r) = 1) :=
  ⟨⟨true, 2047, 65535, st (live [(F.pciTxgCfgEn 2047, 1), (F.pciTxgCfgSize 2047, 16), (F.pciTxgHeadHead 2047, 131071)]),
    takes_of (by decide +kernel), by decide +kernel⟩,
   ⟨false, 2047, 65535, st (live []), takes_of (by decide +kernel), by decide +kernel⟩,
   ⟨false, 2047, st (live [(F.pciRxgTailTail 2047, 7), (F.pciRxgHeadHead 2047, 3)]), takes_of (by decide +kernel),
     by decide +kernel⟩,
   ⟨true, 2047, [], st
     { live [(F.pciTxgCfgEn 2047, 1), (F.pciTxgTailTail 2047, 7), (F.pciTxgHeadHead 2047, 3)] with pcie := { rings := [(4095, { fetched := [⟨true, false, [1], none⟩] })] } },
     takes_of (by decide +kernel), by decide +kernel⟩,
   ⟨false, 2047, [], { pending := [⟨{ src := 0 }, [], 0⟩] }, st
     { live [(F.pciRxgCfgEn 2047, 1), (F.pciRxgTailTail 2047, 7), (F.pciRxgHeadHead 2047, 3)] with pcie := { rings := [(2047, { pending := [⟨{ src := 0 }, [], 0⟩] })] } },
     takes_of (by decide +kernel), by decide +kernel⟩,
   ⟨true, 2047, 511, { addrLo := 4, masked := false }, st
     { live [(F.pciTxgCfgVec 2047, 511), (F.pciTxgStatAbove 2047, 1)] with pcie := { msixEnable := true, busMaster := true }, msixTable := [(511, { addrLo := 4, masked := false })] },
     takes_of (by decide +kernel), by decide +kernel⟩,
   ⟨true, 2047, 2, 0xF3, .pciDmaErr true 2047 .poisoned, st (live [(F.pciTxgCfgEn 2047, 1), (F.pciTxgTailTail 2047, 7)]),
     Or.inr ⟨Or.inr (Or.inl rfl), Or.inl (by decide +kernel), rfl, rfl⟩⟩,
   ⟨true, 2047, st (live [(F.pciTxgStatFlbusy 2047, 1)]), by decide +kernel⟩⟩

theorem witness_ReceiveRingsDeliver :
    (∃ (r : Nat) (n : Nat) (p : Pkt) (rest : List Decided) (x : Dev × List Nat) (s : State), s.dev.allocBufs (s.dev.get
      (F.pciRxgCfgPool r)) (s.dev.get (F.bufSrcClsClass p.src)) (if s.dev.get (F.bufPoolCfgKind (s.dev.get (F.pciRxgCfgPool
      r))) = 0 then (p.bytes.length + 2047) / 2048 else 1) n = some x ∧ s.dev.trafficOk 8 = true ∧ s.dev.pkt.decided = ⟨.ring
      r, p, n⟩ :: rest ∧ s.dev.released 12 = true ∧ s.dev.pcie.perst = false ∧ s.dev.get (F.pciRxgCfgEn r) = 1)
    ∧ (∃ (r : Nat) (n : Nat) (p : Pkt) (rest : List Decided) (s : State), s.dev.trafficOk 8 = true ∧ s.dev.pkt.decided =
      ⟨.ring r, p, n⟩ :: rest ∧ s.dev.cordOn 12 = true ∧ s.dev.pcie.perst = false ∧ (s.dev.get (F.pciRxgCfgEn r) = 0 ∨
      s.dev.released 12 = false))
    ∧ (∃ (r : Nat) (n : Nat) (p : Pkt) (rest : List Decided) (s : State), s.dev.trafficOk 8 = true ∧ s.dev.pkt.decided =
      ⟨.ring r, p, n⟩ :: rest ∧ (s.dev.cordOn 12 = false ∨ s.dev.pcie.perst = true))
    ∧ (∃ (r : Fin 2048) (x : QPkt) (rest : List QPkt) (addrs : List (BitVec 64)) (h : Nat) (s : State), (s.dev.ring false
      r).pending = x :: rest ∧ s.dev.dmaOk = true ∧ s.dev.trafficOk 12 = true ∧ s.dev.get (F.pciRxgCfgEn r) = 1 ∧ s.dev.get
      (F.pciRxgStatFlbusy r) = 0 ∧ s.dev.descsOf r x ≤ s.dev.ringHeld false r ∧ h = s.dev.get (F.pciRxgHeadHead r))
    ∧ (∃ (r : Fin 2048) (x : QPkt) (rest : List QPkt) (addrs : List (BitVec 64)) (v : BitVec 17) (h : Nat) (s : State),
      (s.dev.ring false r).pending = x :: rest ∧ s.dev.dmaOk = true ∧ s.dev.trafficOk 12 = true ∧ s.dev.pcie.perst = false ∧
      s.dev.get (F.pciRxgCfgEn r) = 1 ∧ s.dev.get (F.pciRxgStatFlbusy r) = 0 ∧ s.dev.ringTailCheck false r (v.setWidth 32) =
      0 ∧ h = s.dev.get (F.pciRxgHeadHead r) ∧ s.dev.descsOf r x ≤ unsignedOf 17 ((v.toNat : Int) - (h : Nat)))
    ∧ (∃ (r : Fin 2048) (x : QPkt) (rest : List QPkt) (s : State), (s.dev.ring false r).pending = x :: rest ∧ s.dev.get
      (F.pciRxgCfgEn r) = 1 ∧ s.dev.ringHeld false r < s.dev.descsOf r x) :=
  ⟨(Option.isSome_iff_exists.mp (show (rxDev.allocBufs (rxDev.get (F.pciRxgCfgPool 2047)) (rxDev.get (F.bufSrcClsClass 160))
    (if rxDev.get (F.bufPoolCfgKind (rxDev.get (F.pciRxgCfgPool 2047))) = 0 then (1 + 2047) / 2048 else 1) 23).isSome = true
    from by decide +kernel)).elim fun x hx => ⟨2047, 23, { src := 160, bytes := [1] }, [], x, st rxDev, hx,
    by decide +kernel⟩,
   ⟨2047, 23, { src := 160, bytes := [1] }, [], st
     { live [] with pkt := { decided := [⟨.ring 2047, { src := 160, bytes := [1] }, 23⟩] } }, by decide +kernel⟩,
   ⟨2047, 23, { src := 160, bytes := [1] }, [], st
     { live [] with pkt := { decided := [⟨.ring 2047, { src := 160, bytes := [1] }, 23⟩] }, pcie := { perst := true } },
     by decide +kernel⟩,
   ⟨2047, ⟨{ src := 160, bytes := List.replicate 300 5 }, [], 0⟩, [], [0x12345678], 131071, st
     { live [(F.pciRxgCfgEn 2047, 1), (F.pciRxgHeadHead 2047, 131071), (F.pciRxgTailTail 2047, 1)] with pcie := { rings := [(2047, { pending := [⟨{ src := 160, bytes := List.replicate 300 5 }, [], 0⟩] })] } },
     by decide +kernel⟩,
   ⟨2047, ⟨{ src := 160, bytes := List.replicate 300 5 }, [], 0⟩, [], [0x12345678], 2, 131071, st
     { live [(F.pciRxgCfgEn 2047, 1), (F.pciRxgHeadHead 2047, 131071), (F.pciRxgTailTail 2047, 131071)] with pcie := { rings := [(2047, { pending := [⟨{ src := 160, bytes := List.replicate 300 5 }, [], 0⟩] })] } },
     by decide +kernel⟩,
   ⟨2047, ⟨{ src := 160, bytes := List.replicate 300 5 }, [], 0⟩, [], st
     { live [(F.pciRxgCfgEn 2047, 1)] with pcie := { rings := [(2047, { pending := [⟨{ src := 160, bytes := List.replicate 300 5 }, [], 0⟩] })] } },
     by decide +kernel⟩⟩

theorem witness_TransmitRingsSend :
    (∃ (r : Fin 2048) (words : List Word) (data : List Byte) (l : List TxDesc) (len : Nat) (eof : Bool) (s : State),
      (s.dev.ring true r).fetched = l ∧ (s.dev.ring true r).bad = false ∧ (∀ x ∈ l, x.status = none ∧ x.eof = false) ∧
      s.dev.dmaOk = true ∧ s.dev.get (F.pciTxgCfgEn r) = 1 ∧ s.dev.get (F.pciTxgStatFlbusy r) = 0 ∧ l.length < s.dev.ringHeld
      true r ∧ len = (words.getD 2 0).toNat % 65536 ∧ s.dev.txStore + len ≤ 2 ^ 21 ∧ descFaulty words = false ∧ (words.getD 2
      0).toNat.testBit 16 = l.isEmpty ∧ (words.getD 2 0).toNat.testBit 17 = eof ∧ (eof = true → 14 ≤ (l.map
      (·.data.length)).sum + len) ∧ (l.map (·.data.length)).sum + len ≤ 12288)
    ∧ (∃ (r : Fin 2048) (words : List Word) (data : List Byte) (h : Nat) (s : State), (s.dev.ring true r).fetched = [] ∧
      (s.dev.ring true r).bad = false ∧ s.dev.dmaOk = true ∧ s.dev.get (F.pciTxgCfgEn r) = 1 ∧ s.dev.get (F.pciTxgStatFlbusy
      r) = 0 ∧ 0 < s.dev.ringHeld true r ∧ s.dev.txStore + (words.getD 2 0).toNat % 65536 ≤ 2 ^ 21 ∧ (descFaulty words = true
      ∨ (words.getD 2 0).toNat.testBit 16 = false) ∧ h = s.dev.get (F.pciTxgHeadHead r))
    ∧ (∃ (r : Fin 2048) (words : List Word) (data : List Byte) (h : Nat) (s : State), (s.dev.ring true r).fetched = [] ∧
      (s.dev.ring true r).bad = true ∧ s.dev.dmaOk = true ∧ s.dev.get (F.pciTxgCfgEn r) = 1 ∧ s.dev.get (F.pciTxgStatFlbusy
      r) = 0 ∧ 0 < s.dev.ringHeld true r ∧ (words.getD 2 0).toNat.testBit 16 = false ∧ h = s.dev.get (F.pciTxgHeadHead r))
    ∧ (∃ (r : Fin 2048) (f : List TxDesc) (rest : List TxDesc) (e : TxDesc) (h : Nat) (s : State), (s.dev.ring true
      r).fetched = f ++ e :: rest ∧ (∀ x ∈ f, x.status = none ∧ x.eof = false) ∧ e.status = none ∧ e.eof = true ∧ (∀ x ∈
      rest, x.status = none) ∧ s.dev.dmaOk = true ∧ s.dev.trafficOk 8 = true ∧ h = s.dev.get (F.pciTxgHeadHead r))
    ∧ (∃ (r : Fin 2048) (f : List TxDesc) (rest : List TxDesc) (e : TxDesc) (h : Nat) (s : State), (s.dev.ring true
      r).fetched = f ++ e :: rest ∧ (∀ x ∈ f, x.status = none ∧ x.eof = false) ∧ e.status = none ∧ e.eof = true ∧ (∀ x ∈
      rest, x.status = none) ∧ s.dev.dmaOk = true ∧ s.dev.trafficOk 8 = false ∧ h = s.dev.get (F.pciTxgHeadHead r))
    ∧ (∃ (r : Fin 2048) (l : List TxDesc) (h : Nat) (s : State), (s.dev.ring true r).fetched = l ∧ l ≠ [] ∧ (∀ x ∈ l,
      x.status = none ∧ x.eof = false) ∧ l.length ≤ s.dev.ringHeld true r ∧ h = s.dev.get (F.pciTxgHeadHead r)) :=
  ⟨⟨2047, [0x40, 0, 0x20005, 0, 0, 0, 0, 0], [1, 2, 3, 4, 5], [⟨true, false, List.replicate 9 1, none⟩], 5, true, st
    { live [(F.pciTxgCfgEn 2047, 1), (F.pciTxgTailTail 2047, 2)] with pcie := { rings := [(4095, { fetched := [⟨true, false, List.replicate 9 1, none⟩] })] } },
    by decide +kernel⟩,
   ⟨2047, [0x40, 0, 0x20005, 0, 0, 0, 0, 0], [1, 2, 3, 4, 5], 131071, st (live [(F.pciTxgCfgEn 2047, 1), (F.pciTxgHeadHead
     2047, 131071), (F.pciTxgTailTail 2047, 2)]), by decide +kernel⟩,
   ⟨2047, [0x40, 0, 0x20005, 0, 0, 0, 0, 0], [1, 2, 3, 4, 5], 131071, st
     { live [(F.pciTxgCfgEn 2047, 1), (F.pciTxgHeadHead 2047, 131071), (F.pciTxgTailTail 2047, 2)] with pcie := { rings := [(4095, { bad := true })] } },
     by decide +kernel⟩,
   ⟨2047, [⟨true, false, List.replicate 9 1, none⟩], [], ⟨false, true, [1, 2, 3, 4, 5], none⟩, 131071, st
     { live [(F.pciTxgCfgEn 2047, 1), (F.pciTxgHeadHead 2047, 131071), (F.pciTxgTailTail 2047, 2)] with pcie := { rings := [(4095, { fetched := [⟨true, false, List.replicate 9 1, none⟩, ⟨false, true, [1, 2, 3, 4, 5], none⟩] })] } },
     by decide +kernel⟩,
   ⟨2047, [⟨true, false, List.replicate 9 1, none⟩], [], ⟨false, true, [1, 2, 3, 4, 5], none⟩, 131071, st
     { live [(F.hrtPwrCordSt 8, 2), (F.pciTxgCfgEn 2047, 1), (F.pciTxgHeadHead 2047, 131071), (F.pciTxgTailTail 2047, 2)] with pcie := { rings := [(4095, { fetched := [⟨true, false, List.replicate 9 1, none⟩, ⟨false, true, [1, 2, 3, 4, 5], none⟩] })] } },
     by decide +kernel⟩,
   ⟨2047, [⟨true, false, List.replicate 9 1, none⟩], 131071, st
     { live [(F.pciTxgCfgEn 2047, 1), (F.pciTxgHeadHead 2047, 131071), (F.pciTxgTailTail 2047, 0)] with pcie := { rings := [(4095, { fetched := [⟨true, false, List.replicate 9 1, none⟩] })] } },
     by decide +kernel⟩⟩

theorem witness_TheCounterTicksAndSteps :
    (∃ (s : State), s.pending = [] ∧ s.dev.get F.hrtTimStatRun = 1 ∧ s.dev.time.step = none ∧ s.dev.time.InRange)
    ∧ (∃ (s : State), s.pending = [] ∧ s.dev.get F.hrtTimStatRun = 0)
    ∧ (∃ (p : Fin 96) (f : List Byte) (s : State), s.pending = [] ∧ s.dev.macs = [(p.val,
      { gen := [f], wakeAt := s.dev.time.ticks + 1 })] ∧ s.dev.InjIdle p ∧ s.dev.get (F.hsLnLoopMode p) ≠ 1 ∧ s.dev.get
      (F.hsLnLoopMode p) ≠ 2)
    ∧ (∃ (s : State), s.pending = [])
    ∧ (∃ (w : Fin 2) (s : State), s.pending = [] ∧ s.dev.cordOn (6 + w) = true ∧ (s.dev.wave w).lineAt + lineTicks ≤
      s.dev.time.ticks + 1 ∧ s.dev.time.ticks + 1 < (s.dev.wave w).lineAt + 2 * lineTicks)
    ∧ (∃ (v : Word) (s : State), s.dev.Takes R.hrtTimStepctl (F.hrtTimStepctlGo.put v 1))
    ∧ (∃ (ns : Int) (sub : Nat) (s : State), s.pending = [] ∧ s.dev.get F.hrtTimStatRun = 1 ∧ s.dev.time.step = some (ns,
      sub) ∧ s.dev.time.InRange)
    ∧ (∃ (s : State), s.dev.get F.hrtTimStatRun = 1 ∧ s.dev.get F.hrtTimIncInc ≠ 0 ∧ s.dev.time.step = none ∧
      s.dev.time.InRange ∧ s.dev.time.value + s.dev.get F.hrtTimIncInc < 2 ^ 56)
    ∧ (∃ (s : State), s.dev.Answers R.hrtTimNs ∧ s.dev.time.InRange)
    ∧ (∃ (v : Word) (s : State), s.dev.Takes R.hrtTimInc v ∧ s.pending = [] ∧ s.dev.get F.hrtTimStatRun = 1 ∧ s.dev.time.step
      = none ∧ s.dev.time.InRange)
    ∧ (∃ (v : Word) (r : RegAt) (d : Dev), decodeAddr R.hrtTimInc = some r ∧ d.expert (some .time) = true) :=
  ⟨⟨st { live [(F.hrtTimStatRun, 1)] with time := { ns := 4294967295, sub := 16777215, wraps := 65535 } },
    by unfold TimeSt.InRange; decide +kernel⟩,
   ⟨st (live []), by decide +kernel⟩,
   ⟨95, [1, 2], st { live [] with macs := [(95, { gen := [[1, 2]], wakeAt := 1 })] }, by unfold Dev.InjIdle; decide +kernel⟩,
   ⟨st { live [(F.hrtClkSteerSteer, 5)] with time := { ticks := 78124 } }, by decide +kernel⟩,
   ⟨1, st
     { live [(F.cvSelStatRxeng 1, 2), (F.cvSelStatTxeng 1, 2)] with time := { ticks := lineTicks - 1 }, waves := [(1, { txSfn := 4294967295, txFnum := 7 })] },
     by decide +kernel⟩,
   ⟨0x12, st (live [(F.hrtTimStepnsStepns, 4294967295), (F.hrtTimStatRun, 1)]), takes_of (by decide +kernel)⟩,
   ⟨-1, 65535, st { live [(F.hrtTimStatRun, 1), (F.hrtTimStepctlBusy, 1)] with time := { step := some (-1, 65535) } },
     by unfold TimeSt.InRange; decide +kernel⟩,
   ⟨st { live [(F.hrtTimStatRun, 1)] with time := { ns := 4294967290 } }, by unfold TimeSt.InRange; decide +kernel⟩,
   ⟨st { live [] with time := { ns := 4294967290, sub := 16777215, wraps := 65535 } }, answers_of (by decide +kernel),
     by unfold TimeSt.InRange; decide +kernel⟩,
   ⟨0x01800000, st (live [(F.hrtTimStatRun, 1)]), takes_of (by decide +kernel), by unfold TimeSt.InRange; decide +kernel⟩,
   ⟨0x01800000, ((decodeAddr R.hrtTimInc).get (by decide +kernel)), live [], (Option.some_get _).symm, by decide +kernel⟩⟩

theorem witness_CapturesAreLatchedAndRead :
    (∃ (s : State), s.dev.Answers R.hrtTimPpsinns)
    ∧ (∃ (w : Fin 2) (s : State), s.dev.Answers (R.hrtTimWlRxsfn w))
    ∧ (∃ (w : Fin 2) (s : State), s.dev.Answers (R.hrtTimWlTxsfn w))
    ∧ (∃ (w : Fin 2) (b : Nat × Stamp) (s : State), s.dev.Answers (R.hrtTimWlBseq w) ∧ (s.dev.wl w).burst = some b ∧ b.1 <
      256)
    ∧ (∃ (w : Fin 2) (m : TodRec) (s : State), s.dev.Answers (R.hrtTimWlTodrsfn w) ∧ (s.dev.wl w).tod = m)
    ∧ (∃ (p : Fin 96) (s : State), s.dev.Answers (R.hsMacRxbylo p))
    ∧ (∃ (p : Fin 96) (s : State), s.dev.Answers (R.hsMacTxbylo p))
    ∧ (∃ (high : Nat) (s : State), s.dev.get F.hrtTimPpscfgInen = 1 ∧ 100 ≤ high ∧ s.dev.time.ppsAt = none)
    ∧ (∃ (high : Nat) (k : Nat) (s : State), s.dev.get F.hrtTimPpscfgInen = 1 ∧ 100 ≤ high ∧ s.dev.time.ppsAt = some k ∧
      (s.dev.time.ticks - k) * 16 < 5000000000)
    ∧ (∃ (high : Nat) (s : State), (s.dev.get F.hrtTimPpscfgInen = 0 ∨ high < 100))
    ∧ (∃ (s : State), s.dev.get F.hrtTimPpscfgInen = 1 ∧ s.dev.get F.hrtTimStatInloss = 0)
    ∧ (∃ (next : Nat) (per : Nat) (b : Nat) (s : State), s.dev.get F.hrtTimPpscfgOuten = 1 ∧ next = s.dev.get
      F.hrtTimPpsnextValue ∧ per = s.dev.get F.hrtTimPpsperValue ∧ per ≠ 0 ∧ b = unsignedOf 32 ((s.dev.time.ns : Int) - (next
      : Nat)) ∧ b < 2 ^ 31)
    ∧ (∃ (s : State), s.dev.time.ppsOut = true) :=
  ⟨⟨st { live [] with time := { pps := ⟨4294967290, 65535⟩ } }, answers_of (by decide +kernel)⟩,
   ⟨1, st { live [] with time := { wb := { rx := (4294967295, ⟨4294967290, 65535⟩) } } }, answers_of (by decide +kernel)⟩,
   ⟨1, st { live [] with time := { wb := { tx := (4294967295, ⟨4294967290, 65535⟩) } } }, answers_of (by decide +kernel)⟩,
   ⟨1, (255, ⟨4294967290, 65535⟩), st { live [] with time := { wb := { burst := some (255, ⟨4294967290, 65535⟩) } } },
     answers_of (by decide +kernel), by decide +kernel⟩,
   ⟨1, { rsfn := 5, sec := 2 ^ 48 - 1, ns := 6, frac := 65535, loc := some ⟨4294967290, 65535⟩ }, st
     { live [] with time := { wb := { tod := { rsfn := 5, sec := 2 ^ 48 - 1, ns := 6, frac := 65535, loc := some ⟨4294967290, 65535⟩ } } } },
     answers_of (by decide +kernel), by decide +kernel⟩,
   ⟨95, st { live [(F.hsMacRxbyloCount 95, 9)] with macs := [(95, { rxBytes := 2 ^ 64 - 1 })] }, answers_of
     (by decide +kernel)⟩,
   ⟨95, st { live [(F.hsMacTxbyloCount 95, 9)] with macs := [(95, { txBytes := 2 ^ 64 - 1 })] }, answers_of
     (by decide +kernel)⟩,
   ⟨100, st (live [(F.hrtTimPpscfgInen, 1), (F.hrtTimStatInloss, 1)]), by decide +kernel⟩,
   ⟨100, 0, st { live [(F.hrtTimPpscfgInen, 1)] with time := { ppsAt := some 0, ticks := 312499999 } }, by decide +kernel⟩,
   ⟨99, st (live [(F.hrtTimPpscfgInen, 1)]), by decide +kernel⟩,
   ⟨st (live [(F.hrtTimPpscfgInen, 1)]), by decide +kernel⟩,
   ⟨4294967290, 10, 15, st
     { live [(F.hrtTimPpscfgOuten, 1), (F.hrtTimPpsnextValue, 4294967290), (F.hrtTimPpsperValue, 10)] with time := { ns := 9 } },
     by decide +kernel⟩,
   ⟨st { live [] with time := { ppsOut := true } }, by decide +kernel⟩⟩

theorem witness_StampsAndTimeOfDayAreKept :
    (∃ (w : Fin 2) (n : Word) (s : State), (s.dev.wave w).gap = false ∧ s.dev.serving w ≠ none ∧ (s.dev.wave w).leaf = true ∧
      s.dev.get (F.lfAlnStatBcnv w) = 1 ∧ s.dev.get (F.lfScsAlnState w (s.dev.get (F.lfAlnStatBcnsc w))) = 2)
    ∧ (∃ (w : Fin 2) (n : Word) (s : State), (s.dev.wave w).gap = true)
    ∧ (∃ (w : Fin 2) (n : Word) (s : State), (s.dev.wave w).gap = false ∧ s.dev.serving w ≠ none)
    ∧ (∃ (w : Fin 2) (rsfn : Word) (sec : BitVec 48) (ns : Word) (frac : BitVec 16) (s : State), (s.dev.wave w).leaf = true ∧
      s.dev.get (F.lfActStatState w) ≠ 0 ∧ ns.toNat ≤ 999999999)
    ∧ (∃ (w : Fin 2) (rsfn : Word) (sec : BitVec 48) (ns : Word) (frac : BitVec 16) (s : State), 999999999 < ns.toNat)
    ∧ (∃ (w : Fin 2) (e : Nat) (s : State), (s.dev.wave w).leaf = false ∧ (s.dev.wave w).master = true ∧ (s.dev.wl w).tx.1 %
      8192 = 0 ∧ s.dev.released (6 + w) = true ∧ e = unsignedOf 32 (((s.dev.wl w).tx.2.ns : Int) - (s.dev.time.nsBase : Nat))
      ∧ e < 4000000000)
    ∧ (∃ (w : Fin 2) (s : State), (s.dev.wave w).leaf = false ∧ (s.dev.wave w).master = true ∧ (s.dev.wl w).tx.1 % 8192 = 0 ∧
      s.dev.released (6 + w) = true ∧ 4000000000 ≤ unsignedOf 32 (((s.dev.wl w).tx.2.ns : Int) - (s.dev.time.nsBase : Nat))) :=
  ⟨⟨1, 0xFFFFFFFF, st
    { live [(F.cvSelStatRxeng 1, 2), (F.cvSelStatTxeng 1, 2), (F.lfAlnStatBcnv 1, 1), (F.lfAlnStatBcnsc 1, 31), (F.lfScsAlnState 1 31, 2)] with waves := [(1, { leaf := true })] },
    by decide +kernel⟩,
   ⟨1, 0xFFFFFFFF, st { live [(F.cvSelStatRxeng 1, 2), (F.cvSelStatTxeng 1, 2)] with waves := [(1, { gap := true })] },
     by decide +kernel⟩,
   ⟨1, 0xFFFFFFFF, st (live [(F.cvSelStatRxeng 1, 2), (F.cvSelStatTxeng 1, 2)]), by decide +kernel⟩,
   ⟨1, 9, 5, 999999999, 7, st
     { live [(F.cvSelStatRxeng 1, 2), (F.cvSelStatTxeng 1, 2), (F.lfActStatState 1, 1)] with waves := [(1, { leaf := true })], time := { wb := { kept := [(8, {}), (9, ⟨5, 6⟩)] } } },
     by decide +kernel⟩,
   ⟨1, 9, 5, 1000000000, 7, st
     { live [(F.cvSelStatRxeng 1, 2), (F.cvSelStatTxeng 1, 2), (F.lfActStatState 1, 1)] with waves := [(1, { leaf := true })] },
     by decide +kernel⟩,
   ⟨1, 3999999999, st
     { live [(F.cvSelStatRxeng 1, 2), (F.cvSelStatTxeng 1, 2)] with waves := [(1, { master := true })], time := { nsBase := 1000000000, wb := { tx := (8192, ⟨705032703, 7⟩) } } },
     by decide +kernel⟩,
   ⟨1, st
     { live [(F.cvSelStatRxeng 1, 2), (F.cvSelStatTxeng 1, 2)] with waves := [(1, { master := true })], time := { nsBase := 1, wb := { tx := (8192, ⟨0, 7⟩) } } },
     by decide +kernel⟩⟩

theorem witness_ImagesAreSelectedAndActivated :
    (∃ (s : State), s.dev.waiting = [] ∧ s.dev.inReset = false ∧ s.dev.get F.hrtCfgStatBootpend = 1 ∧ s.dev.get
      F.hrtHstStatFwrun = 1 ∧ s.dev.get F.hrtHstStatRecovery = 0 ∧ s.dev.get F.hrtClkStatHrtsrc = 2 ∧ s.dev.verifySlot
      s.fuses 0 = none ∧ s.dev.verifySlot s.fuses 1 = none)
    ∧ (∃ (a : Image) (s : State), s.dev.verifySlot s.fuses 0 = some a ∧ (∀ c p, Rec.regset p ∉ (a.secs.getD c {}).recs) ∧ (∀
      p, Rec.cordpol p ∉ (a.secs.getD 12 {}).recs) ∧ s.dev.waiting = [] ∧ s.dev.inReset = false ∧ s.dev.get
      F.hrtCfgStatBootpend = 1 ∧ s.dev.get F.hrtHstStatFwrun = 1 ∧ s.dev.get F.hrtHstStatRecovery = 0 ∧ s.dev.get
      F.hrtClkStatHrtsrc = 2 ∧ s.dev.verifySlot s.fuses 1 = none)
    ∧ (∃ (v : Word) (s : State), s.dev.Takes R.hrtCfgCmd (cfgWord v 1) ∧ s.dev.get F.hrtCfgStatBootpend = 0 ∧ s.dev.get
      F.hrtCfgStatBusy = 0 ∧ s.dev.verifySlot s.fuses s.dev.inactive = none)
    ∧ (∃ (v : Word) (i : Image) (s : State), s.dev.Takes R.hrtCfgCmd (cfgWord v 1) ∧ s.dev.verifySlot s.fuses s.dev.inactive
      = some i ∧ s.dev.get F.hrtCfgStatBootpend = 0 ∧ s.dev.get F.hrtCfgStatBusy = 0 ∧ s.dev.get F.hrtCfgStatNoimg = 0 ∧
      s.dev.activateCode (some i) (F.hrtCfgCmdForce.of v == 1) false = 0 ∧ ((∀ c ∈ s.dev.diffCords i, c ≠ 0 ∧ (s.dev.cordSt c
      = 0 ∨ s.dev.cordSt c = 5))))
    ∧ (∃ (v : Word) (keep : Nat) (s : State), s.dev.Takes R.hrtCfgCmd (cfgWord v 3) ∧ s.dev.get F.hrtCfgStatBootpend = 0 ∧
      s.dev.get F.hrtCfgStatBusy = 0 ∧ s.dev.get F.hrtCfgStatDisputed = 1 ∧ keep = F.hrtCfgCmdSlot.of v ∧ s.dev.get (if keep
      = 0 then F.hrtCfgStatVala else F.hrtCfgStatValb) = 1 ∧ keep = s.dev.get F.hrtCfgStatActslot)
    ∧ (∃ (v : Word) (s : State), s.dev.Takes R.hrtCfgCmd (cfgWord v 3) ∧ s.dev.get F.hrtCfgStatBootpend = 0 ∧ s.dev.get
      F.hrtCfgStatBusy = 0 ∧ s.dev.get F.hrtCfgStatDisputed = 0) :=
  ⟨⟨st (live [(F.hrtCfgStatBootpend, 1), (F.hrtClkStatHrtsrc, 2)]), by decide +kernel⟩,
   ⟨image,
     { st { live [(F.hrtCfgStatBootpend, 1), (F.hrtClkStatHrtsrc, 2)] with img := { mram := imageMram } } with fuses := keyFuses },
     verifySlot_image rfl (by decide +kernel), no_regset, no_cordpol, by decide +kernel⟩,
   ⟨0, st (live []), takes_of (by decide +kernel), by decide +kernel⟩,
   ⟨0, image,
     { st { live [(F.hrtCfgStatActslot, 1), (F.hrtPwrCordSt 8, 0)] with img := { mram := imageMram, secs := [(0, imageSecs.getD 0 {})] } } with fuses := keyFuses },
     takes_of (by decide +kernel), verifySlot_image_at rfl (by decide +kernel) (by decide +kernel), by decide +kernel⟩,
   ⟨F.hrtCfgCmdSlot.put 0 1, 1,
     { st { live [(F.hrtCfgStatActslot, 1), (F.hrtCfgStatDisputed, 1), (F.hrtCfgStatVala, 1), (F.hrtCfgStatValb, 1)] with img := { mram := imageMram } } with fuses := keyFuses },
     takes_of (by decide +kernel), by decide +kernel⟩,
   ⟨0, st (live []), takes_of (by decide +kernel), by decide +kernel⟩⟩

theorem witness_CordsAreReloaded :
    (∃ (v : Word) (c : Nat) (s : State), s.dev.Takes R.hrtCfgCmd (cfgWord v 2) ∧ s.dev.get F.hrtCfgStatBootpend = 0 ∧
      s.dev.get F.hrtCfgStatBusy = 0 ∧ s.dev.get F.hrtCfgStatNoimg = 0 ∧ s.dev.pwr.trans = none ∧ s.dev.get F.hrtPwrStatePend
      = 3 ∧ c = F.hrtCfgCmdCord.of v ∧ c ≠ 0 ∧ (s.dev.cordSt c = 0 ∨ s.dev.cordSt c = 5))
    ∧ (∃ (v : Word) (c : Nat) (s : State), s.dev.Takes R.hrtCfgCmd (cfgWord v 2) ∧ s.dev.get F.hrtCfgStatBootpend = 0 ∧
      s.dev.get F.hrtCfgStatBusy = 0 ∧ s.dev.get F.hrtCfgStatNoimg = 0 ∧ s.dev.pwr.trans = none ∧ s.dev.get F.hrtPwrStatePend
      = 3 ∧ c = F.hrtCfgCmdCord.of v ∧ 4 ≤ c ∧ c ≠ 8 ∧ c ≠ 9 ∧ s.dev.cordSt c = 3)
    ∧ (∃ (v : Word) (s : State), s.dev.Takes R.hrtCfgCmd (cfgWord v 2) ∧ s.dev.get F.hrtCfgStatBootpend = 0 ∧ s.dev.get
      F.hrtCfgStatBusy = 1)
    ∧ (∃ (c : Fin 13) (s : State), s.dev.Calm ∧ 1 ≤ c.val ∧ s.dev.cordSt c = 6 ∧ (s.dev.cordInfo c).why ≠ .reload ∧
      (s.dev.cordInfo c).cmd = none)
    ∧ (∃ (c : Fin 13) (s : State), s.dev.waiting = [] ∧ 1 ≤ c.val ∧ s.dev.cordSt c = 6 ∧ (s.dev.cordInfo c).why = .reload ∧
      (s.dev.cordInfo c).cmd = none)
    ∧ (∃ (c : Fin 13) (units : Nat) (s : State), s.dev.Calm ∧ 1 ≤ c.val ∧ s.dev.cordSt c = 6 ∧ (s.dev.cordInfo c).why ≠
      .reload ∧ (s.dev.cordInfo c).cmd = none)
    ∧ (∃ (r : PktRun) (p : Nat) (s : State), s.dev.Calm ∧ s.dev.pkt.run = some r ∧ r.cur = some p ∧ p < 12 ∧ r.held ≠ [] ∧ (∀
      i ∈ r.held, i < 256) ∧ s.dev.sliceEmpty (2 * p) = true ∧ s.dev.sliceEmpty (2 * p + 1) = true)
    ∧ (∃ (i : Fin 256) (n : Nat) (r : PktRun) (rest : List (Nat × Nat)) (s : State), s.dev.Calm ∧ s.dev.pkt.run = some r ∧
      r.moved = (i.val, n) :: rest ∧ (∀ x ∈ rest, x.1 ≠ i.val) ∧ n < 24 ∧ (∀ p ∈ Tbl.get [] s.dev.pkt.stores (s.dev.get
      (F.pktSprMapSlice i)), p.hash % 256 ≠ i.val) ∧ (∀ x ∈ s.dev.pkt.decided, x.pkt.hash % 256 ≠ i.val)) :=
  ⟨⟨F.hrtCfgCmdCord.put 0 11, 11, st
    { live [(F.hrtPwrCordSt 11, 0)] with img := { slot := [(11, { sseq := 7, recs := [.port 95 1 1 1 15] })] } }, takes_of
    (by decide +kernel), by decide +kernel⟩,
   ⟨F.hrtCfgCmdCord.put 0 11, 11, st { live [] with img := { slot := [(11, { sseq := 7 })] } }, takes_of (by decide +kernel),
     by decide +kernel⟩,
   ⟨0, st (live [(F.hrtCfgStatBusy, 1)]), takes_of (by decide +kernel), by decide +kernel⟩,
   ⟨11, st
     { live [(F.hrtPwrCordSt 11, 6), (F.hrtPwrCordWoke 11, 1), (F.hsMacBondLanes 95, 1)] with pwr := { cords := [(11, { why := .command })] } },
     by unfold Dev.Calm; decide +kernel⟩,
   ⟨11, st
     { live [(F.hrtPwrCordSt 11, 6), (F.hrtPwrCordWoke 11, 1), (F.hsMacBondLanes 95, 1)] with pwr := { cords := [(11, { why := .reload })] }, img := { slot := [(11, { sseq := 7 })], reload := some ⟨11, [], false, false, {}, false, none, 3, 0, 0⟩ } },
     by decide +kernel⟩,
   ⟨11, 65536, st
     { live [(F.hrtPwrCordSt 11, 6), (F.hrtPwrCordWoke 11, 1), (F.hsMacBondLanes 95, 1)] with pwr := { cords := [(11, { why := .command })] } },
     by unfold Dev.Calm; decide +kernel⟩,
   ⟨{ cur := some 11, held := [255, 3], pairs := [5], newMap := [(255, 7)] }, 11, st
     { live [(F.pktSprMapSlice 255, 22), (F.pktSprMapSlice 3, 23)] with pkt := { run := some { cur := some 11, held := [255, 3], pairs := [5], newMap := [(255, 7)] } } },
     by unfold Dev.Calm; decide +kernel⟩,
   ⟨255, 23, { moved := [(255, 23), (3, 1)] }, [(3, 1)], st
     { live [(F.pktSprMapSlice 255, 2)] with pkt := { run := some { moved := [(255, 23), (3, 1)] } } },
     by unfold Dev.Calm; decide +kernel⟩⟩

theorem witness_StateRequestsAreServed :
    (∃ (v : Word) (s : State), s.dev.Takes R.hrtPwrReq (F.hrtPwrReqGo.put v 1) ∧ F.hrtPwrReqState.of v = s.dev.get
      F.hrtPwrStateTgt)
    ∧ (∃ (v : Word) (k : Nat) (s : State), s.dev.Takes R.hrtPwrReq (F.hrtPwrReqGo.put v 1) ∧ F.hrtPwrReqState.of v ≠
      s.dev.get F.hrtPwrStateTgt ∧ s.dev.pwr.trans = none ∧ s.dev.img.reload = none ∧ s.dev.get F.hrtPwrStatePend = 3 ∧
      s.dev.refuser (F.hrtPwrReqState.of v) = some k)
    ∧ (∃ (v : Word) (c : Nat) (s : State), s.dev.Takes R.hrtPwrReq (F.hrtPwrReqGo.put v 1) ∧ (∀ j, 1 ≤ j → j < c →
      s.dev.turnsOn 0 j = false) ∧ F.hrtPwrReqState.of v = 0 ∧ s.dev.get F.hrtPwrStateTgt ≠ 0 ∧ s.dev.get F.hrtPwrStateCur ≠
      0 ∧ s.dev.pwr.trans = none ∧ s.dev.img.reload = none ∧ s.dev.get F.hrtPwrStatePend = 3 ∧ s.dev.refuser 0 = none ∧ 1 ≤ c
      ∧ c ≤ 8 ∧ s.dev.turnsOn 0 c = true ∧ s.dev.cordSt c = 0)
    ∧ (∃ (v : Word) (c : Nat) (s : State), s.dev.Takes R.hrtPwrReq (F.hrtPwrReqGo.put v 1) ∧ (∀ j, 1 ≤ j → j ≤ 11 →
      s.dev.cordSt j = 0) ∧ (∀ j, 1 ≤ j → j < c → s.dev.turnsOn 1 j = false) ∧ F.hrtPwrReqState.of v = 1 ∧ s.dev.get
      F.hrtPwrStateTgt ≠ 1 ∧ s.dev.get F.hrtPwrStateCur = 2 ∧ s.dev.pwr.trans = none ∧ s.dev.img.reload = none ∧ s.dev.get
      F.hrtPwrStatePend = 3 ∧ s.dev.refuser 1 = none ∧ 1 ≤ c ∧ c ≤ 8 ∧ s.dev.turnsOn 1 c = true)
    ∧ (∃ (v : Word) (c : Nat) (s : State), s.dev.Takes R.hrtPwrReq (F.hrtPwrReqGo.put v 1) ∧ (∀ j, c < j → j ≤ 11 →
      s.dev.cordSt j = 0) ∧ F.hrtPwrReqState.of v = 2 ∧ s.dev.get F.hrtPwrStateTgt ≠ 2 ∧ s.dev.pwr.trans = none ∧
      s.dev.img.reload = none ∧ s.dev.get F.hrtPwrStatePend = 3 ∧ s.dev.refuser 2 = none ∧ 1 ≤ c ∧ c ≤ 11 ∧ (s.dev.cordSt c =
      2 ∨ s.dev.cordSt c = 3))
    ∧ (∃ (v : Word) (s : State), s.dev.Takes R.hrtPwrReq (F.hrtPwrReqGo.put v 1) ∧ F.hrtPwrReqState.of v = 1 ∧ s.dev.get
      F.hrtPwrStateTgt ≠ 1 ∧ s.dev.get F.hrtPwrStateCur = 0 ∧ s.dev.pwr.trans = none ∧ s.dev.img.reload = none ∧ s.dev.get
      F.hrtPwrStatePend = 3 ∧ s.dev.refuser 1 = none ∧ s.dev.released 8 = true ∧ s.dev.pkt.run = none ∧ (∃ i < 256, 6 ≤
      s.dev.get (F.pktSprMapSlice i)) ∧ (∀ i < 256, s.dev.get (F.pktSprMapSlice i) < 24))
    ∧ (∃ (v : Word) (s : State), s.dev.Takes R.hrtPwrReq (F.hrtPwrReqGo.put v 1) ∧ F.hrtPwrReqState.of v ≠ s.dev.get
      F.hrtPwrStateTgt ∧ s.dev.pwr.trans ≠ none ∧ s.dev.get F.hrtPwrStatePend = 3)
    ∧ (∃ (v : Word) (s : State), s.dev.Takes R.hrtPwrReq (F.hrtPwrReqGo.put v 1) ∧ F.hrtPwrReqState.of v ≠ s.dev.get
      F.hrtPwrStateTgt ∧ s.dev.pwr.trans ≠ none ∧ s.dev.get F.hrtPwrStatePend ≠ 3) :=
  ⟨⟨F.hrtPwrReqState.put 0 2, st (live [(F.hrtPwrStateTgt, 2)]), takes_of (by decide +kernel), by decide +kernel⟩,
   ⟨F.hrtPwrReqState.put 0 1, 0x20, st (live [(F.hrtPwrStatePend, 3), (F.hrtPwrRefcntRef 0x20, 0xFFFF)]), takes_of
     (by decide +kernel), by decide +kernel⟩,
   ⟨0, 8, st (live [(F.hrtPwrStateTgt, 1), (F.hrtPwrStateCur, 1), (F.hrtPwrStatePend, 3), (F.hrtPwrCordSt 8, 0),
     (F.hrtPwrCordPol 8, 0), (F.hrtPwrCordPol 4, 2), (F.hrtPwrCordPol 5, 2), (F.hrtPwrCordPol 6, 2), (F.hrtPwrCordPol 7,
     2)]), takes_of (by decide +kernel), of_lt (by decide +kernel), by decide +kernel⟩,
   ⟨F.hrtPwrReqState.put 0 1, 1, st
     { live [(F.hrtSprStatWaeng, 0), (F.hrtSprStatWbeng, 1), (F.hrtSprEngRole 0, 1), (F.hrtSprEngRole 1, 1), (F.hrtSprEngRole 2, 0), (F.cvSelStatRxeng 0, 0), (F.cvSelStatTxeng 0, 0), (F.cvSelStatRxeng 1, 1), (F.cvSelStatTxeng 1, 1), (F.hrtPwrStateTgt, 2), (F.hrtPwrStateCur, 2), (F.hrtPwrStatePend, 3), (F.hrtPwrCordSt 1, 0), (F.hrtPwrCordSt 2, 0), (F.hrtPwrCordSt 3, 0), (F.hrtPwrCordSt 4, 0), (F.hrtPwrCordSt 5, 0), (F.hrtPwrCordSt 6, 0), (F.hrtPwrCordSt 7, 0), (F.hrtPwrCordSt 8, 0), (F.hrtPwrCordSt 9, 0), (F.hrtPwrCordSt 10, 0), (F.hrtPwrCordSt 11, 0)] with waves := [(0, { leaf := true })] },
     takes_of (by decide +kernel), of_le (by decide +kernel), of_lt (by decide +kernel), by decide +kernel⟩,
   ⟨F.hrtPwrReqState.put 0 2, 11, st (live [(F.hrtPwrStatePend, 3)]), takes_of (by decide +kernel), of_le
     (by decide +kernel), by decide +kernel⟩,
   ⟨F.hrtPwrReqState.put 0 1, st
     { live [(F.hrtSprStatWaeng, 0), (F.hrtSprStatWbeng, 1), (F.hrtSprEngRole 0, 1), (F.hrtSprEngRole 1, 1), (F.hrtSprEngRole 2, 0), (F.cvSelStatRxeng 0, 0), (F.cvSelStatTxeng 0, 0), (F.cvSelStatRxeng 1, 1), (F.cvSelStatTxeng 1, 1), (F.hrtPwrStatePend, 3), (F.pktSprMapSlice 255, 22), (F.pktSprMapSlice 3, 23), (F.hsMacBondLanes 95, 1), (F.hsMacBondClass 95, 1)] with waves := [(0, { leaf := true })] },
     takes_of (by decide +kernel), by decide +kernel⟩,
   ⟨0, st
     { live [(F.hrtPwrStateTgt, 1), (F.hrtPwrStatePend, 3)] with pwr := { trans := some { target := 1, todo := [(4, false)] } } },
     takes_of (by decide +kernel), by decide +kernel⟩,
   ⟨0, st
     { live [(F.hrtPwrStateTgt, 1), (F.hrtPwrStatePend, 2)] with pwr := { trans := some { target := 1, todo := [(4, false)] } } },
     takes_of (by decide +kernel), by decide +kernel⟩⟩

theorem witness_CordCommandsRun :
    (∃ (c : Fin 13) (s : State), s.dev.Takes (R.hrtPwrCord c) (s.dev.withField (F.hrtPwrCordCmd c) 1) ∧ 4 ≤ c.val ∧ c.val ≤
      11 ∧ s.dev.pwr.trans = none ∧ s.dev.cordSt c = 0)
    ∧ (∃ (c : Fin 13) (s : State), s.dev.Takes (R.hrtPwrCord c) (s.dev.withField (F.hrtPwrCordCmd c) 2) ∧ 4 ≤ c.val ∧ c.val ≤
      11 ∧ s.dev.pwr.trans = none ∧ (s.dev.cordSt c = 2 ∨ s.dev.cordSt c = 3))
    ∧ (∃ (c : Fin 13) (s : State), s.dev.Takes (R.hrtPwrCord c) (s.dev.withField (F.hrtPwrCordCmd c) 1) ∧ 1 ≤ c.val ∧
      (s.dev.pwr.trans ≠ none ∨ c.val ≤ 3 ∨ c.val = 12 ∨ s.dev.cordSt c = 4 ∨ s.dev.cordSt c = 5))
    ∧ (∃ (c : Fin 13) (s : State), s.dev.Takes (R.hrtPwrCord c) (s.dev.withField (F.hrtPwrCordCmd c) 2) ∧ 1 ≤ c.val ∧
      (s.dev.pwr.trans ≠ none ∨ c.val ≤ 3 ∨ c.val = 12 ∨ s.dev.cordSt c = 0 ∨ s.dev.cordSt c = 4 ∨ s.dev.cordSt c = 5))
    ∧ (∃ (c : Fin 13) (s : State), s.dev.Takes (R.hrtPwrCord c) (s.dev.withField (F.hrtPwrCordCmd c) 3) ∧ 1 ≤ c.val ∧
      (s.dev.pwr.trans ≠ none ∨ c.val = 12 ∨ s.dev.cordSt c ≠ 4 ∨ s.dev.get F.hrtSnsStatTripped = 1))
    ∧ (∃ (c : Fin 13) (s : State), s.dev.Takes (R.hrtPwrCord c) (s.dev.withField (F.hrtPwrCordCmd c) 3) ∧ 4 ≤ c.val ∧ c.val ≤
      11 ∧ s.dev.pwr.trans = none ∧ s.dev.cordSt c = 4 ∧ s.dev.get F.hrtSnsStatTripped = 0)
    ∧ (∃ (c : Fin 13) (s : State), s.dev.Takes (R.hrtPwrCord c) (s.dev.withField (F.hrtPwrCordCmd c) 3) ∧ 1 ≤ c.val ∧ c.val ≤
      3 ∧ s.dev.pwr.trans = none ∧ s.dev.cordSt c = 4 ∧ s.dev.get F.hrtSnsStatTripped = 0 ∧ (s.dev.spr1 (c.val - 1)).trip =
      none) :=
  ⟨⟨11, st (live [(F.hrtPwrCordSt 11, 0)]), takes_of (by decide +kernel), by decide +kernel⟩,
   ⟨4, st (live []), takes_of (by decide +kernel), by decide +kernel⟩,
   ⟨12, st (live []), takes_of (by decide +kernel), by decide +kernel⟩,
   ⟨11, st (live [(F.hrtPwrCordSt 11, 4)]), takes_of (by decide +kernel), by decide +kernel⟩,
   ⟨1, st (live []), takes_of (by decide +kernel), by decide +kernel⟩,
   ⟨11, st (live [(F.hrtPwrCordSt 11, 4)]), takes_of (by decide +kernel), by decide +kernel⟩,
   ⟨1, st (live [(F.hrtPwrCordSt 1, 4)]), takes_of (by decide +kernel), by decide +kernel⟩⟩

theorem witness_CordsWakeAndSearchGoesOn :
    (∃ (a : BitVec 28) (w : Option Word) (c : Nat) (s : State), c = cordOf a.toNat ∧ s.dev.waiting = [] ∧ s.dev.cordSt 12 ≠ 0
      ∧ s.dev.get F.pciEpStatDlup = 1 ∧ s.dev.pathCode a.toNat 4 = 0 ∧ s.dev.cordSt c = 0 ∧ (s.dev.get F.hrtPwrCfgAutoacc = 0
      ∨ s.dev.get F.hrtPwrStateCur = 0))
    ∧ (∃ (c : Fin 13) (s : State), s.dev.Calm ∧ (c.val = 8 ∨ c.val = 9) ∧ s.dev.cordSt c = 1 ∧ s.dev.get F.hrtClkStatRootlock
      = 1 ∧ (s.dev.cordInfo c).why = .access ∧ (s.dev.cordInfo c).cmd = none ∧ (Tbl.get ({} : Sec) s.dev.img.slot c).recs =
      [])
    ∧ (∃ (c : Fin 13) (x : Nat × Nat) (rest : List Rec) (s : State), s.dev.Calm ∧ c.val = 8 ∧ s.dev.cordSt c = 1 ∧ s.dev.get
      F.hrtClkStatRootlock = 1 ∧ (s.dev.cordInfo c).why = .command ∧ (s.dev.cordInfo c).cmd = none ∧ (Tbl.get ({} : Sec)
      s.dev.img.slot c).recs = .regset [x] :: rest ∧ decodeAddr x.1 = none)
    ∧ (∃ (c : Fin 13) (s : State), s.dev.Calm ∧ 4 ≤ c.val ∧ c.val ≤ 11 ∧ s.dev.cordSt c = 1 ∧ (s.dev.cordInfo c).why ≠
      .reload)
    ∧ (∃ (w : Nat) (e : Nat) (m : Nat) (s : State), w = s.dev.get F.hrtPwrCfgDozewl ∧ s.dev.get F.hrtPwrStateCur = 1 ∧
      s.dev.cordOn (6 + w) = true ∧ (s.dev.wave w).leaf = true ∧ s.dev.get (F.lfActStatState w) = 0 ∧ s.dev.get
      (F.lfAlnStatBcnv w) = 0 ∧ (s.dev.wave w).decode = m ∧ s.dev.serving w = some e ∧ e < 3) :=
  ⟨⟨BitVec.ofNat 28 (R.hsMacFc 95), none, 11, st (live [(F.hrtPwrCordSt 11, 0)]), by decide +kernel⟩,
   ⟨9, st
     { live [(F.hrtPwrCordSt 9, 1)] with pwr := { cords := [(9, { why := .access })] }, img := { slot := [(9, { sseq := 2 ^ 32 + 5 })] } },
     by unfold Dev.Calm; decide +kernel⟩,
   ⟨8, (0xFFFFFFFC, 1), [], st
     { live [(F.hrtPwrCordSt 8, 1)] with pwr := { cords := [(8, { why := .command })] }, img := { slot := [(8, { recs := [.regset [(0xFFFFFFFC, 1)] ] })] } },
     by unfold Dev.Calm; decide +kernel⟩,
   ⟨11, st (live [(F.hrtPwrCordSt 11, 1), (F.hrtPwrCordFailcnt 11, 255)]), by unfold Dev.Calm; decide +kernel⟩,
   ⟨1, 2, 0xFF000000, st
     { live [(F.hrtPwrCfgDozewl, 1), (F.hrtPwrStateCur, 1), (F.cvSelStatRxeng 1, 2), (F.cvSelStatTxeng 1, 2)] with waves := [(1, { leaf := true, decode := 0xFF000000 })] },
     by decide +kernel⟩⟩

theorem witness_MailboxCommandsAreServed :
    (∃ (q : MbxReq) (s : State), s.dev.Asked q ∧ q.opcode = 0 ∧ q.len = 0)
    ∧ (∃ (q : MbxReq) (a : Nat) (r : RegAt) (s : State), decodeAddr a = some r ∧ s.dev.Asked q ∧ q.opcode = 1 ∧ q.len = 8 ∧
      q.args = leBytes 4 a ++ leBytes 4 1 ∧ a % 4 = 0 ∧ a < 2 ^ 32 ∧ emberOfs a = none ∧ (∀ f ∈ r.row.fields, f.ty ≠ .rc) ∧
      s.dev.mbxCord a = 0)
    ∧ (∃ (q : MbxReq) (v : Nat) (s : State), s.dev.Asked q ∧ q.opcode = 2 ∧ q.len = 8 ∧ q.args = leBytes 4 R.hrtCfgDrain ++
      leBytes 4 v ∧ 1 ≤ v ∧ v ≤ 255)
    ∧ (∃ (q : MbxReq) (v : Nat) (s : State), s.dev.Asked q ∧ q.opcode = 0x100 ∧ q.len = 8 ∧ q.args = leBytes 4 R.hrtPwrCfg ++
      leBytes 4 v ∧ v < 8 ∧ s.dev.reg R.hrtPwrCfg < 8#32 ∧ expertIn q.level (some .power) = false)
    ∧ (∃ (q : MbxReq) (v : Nat) (s : State), s.dev.Asked q ∧ q.opcode = 0x100 ∧ q.len = 8 ∧ q.args = leBytes 4 R.hrtPwrCfg ++
      leBytes 4 v ∧ expertIn q.level (some .power) = true)
    ∧ (∃ (q : MbxReq) (m : Nat) (v : Nat) (s : State), s.dev.Asked q ∧ q.opcode = 0x101 ∧ q.len = 12 ∧ q.args = leBytes 4
      R.hrtPwrCfg ++ leBytes 4 m ++ leBytes 4 v ∧ expertIn q.level (some .power) = true)
    ∧ (∃ (q : MbxReq) (v : Nat) (s : State), s.dev.Asked q ∧ q.opcode = 0x102 ∧ q.len = 12 ∧ q.args = leBytes 4 R.hrtPwrCfg
      ++ leBytes 4 1 ++ leBytes 4 v ∧ expertIn q.level (some .power) = true)
    ∧ (∃ (q : MbxReq) (m : Nat) (v : Nat) (x : Word) (s : State), s.dev.Asked q ∧ q.opcode = 0x101 ∧ q.len = 12 ∧ q.args =
      leBytes 4 R.hrtPwrCfg ++ leBytes 4 m ++ leBytes 4 v ∧ m < 8 ∧ s.dev.reg R.hrtPwrCfg < 8#32 ∧ expertIn q.level (some
      .power) = false ∧ x = (s.dev.reg R.hrtPwrCfg &&& ~~~(BitVec.ofNat 32 m)) ||| (BitVec.ofNat 32 v &&& BitVec.ofNat 32 m))
    ∧ (∃ (q : MbxReq) (v : Nat) (b : Nat) (s : State), s.dev.Asked q ∧ q.opcode = 0x102 ∧ q.len = 16 ∧ q.args = leBytes 4
      R.hrtPwrCfg ++ leBytes 4 2 ++ leBytes 4 v ++ leBytes 4 b ∧ v < 8 ∧ b < 65536 ∧ s.dev.reg R.hrtPwrCfg < 8#32 ∧ expertIn
      q.level (some .power) = false)
    ∧ (∃ (q : MbxReq) (s : State), s.dev.Asked q ∧ knownOp q.opcode = false)
    ∧ (∃ (q : MbxReq) (v : Word) (c : Nat) (r : RegAt) (s : State), decodeAddr R.hrtCfgCmd = some r ∧ s.dev.Asked q ∧
      q.opcode = 0x20 ∧ q.len = 4 ∧ q.args = leBytes 4 v.toNat ∧ s.dev.writeCode R.hrtCfgCmd r (F.hrtCfgCmdGo.put v 1) false
      = 0 ∧ F.hrtCfgCmdOp.of v = 2 ∧ c = F.hrtCfgCmdCord.of v ∧ c ≠ 0 ∧ (s.dev.cordSt c = 0 ∨ s.dev.cordSt c = 5) ∧ s.dev.get
      F.hrtCfgStatBootpend = 0 ∧ s.dev.get F.hrtCfgStatBusy = 0 ∧ s.dev.get F.hrtCfgStatNoimg = 0 ∧ s.dev.pwr.trans = none ∧
      s.dev.get F.hrtPwrStatePend = 3) :=
  ⟨⟨⟨true, 0, 0, [], 65535⟩, st
    { live [(F.hrtHstFwverValue, 0x10203)] with hearth := { reqs := [⟨true, 0, 0, [], 65535⟩, ⟨false, 1, 8, [], 65535⟩] } },
    by unfold Dev.Asked; decide +kernel⟩,
   ⟨⟨false, 1, 8, leBytes 4 R.hrtPwrCfg ++ leBytes 4 1, 65535⟩, R.hrtPwrCfg, (decodeAddr R.hrtPwrCfg).get
     (by decide +kernel), st
     { live [(F.hrtMbxCtlBusy, 1)] with hearth := { reqs := [⟨false, 1, 8, leBytes 4 R.hrtPwrCfg ++ leBytes 4 1, 65535⟩] } },
     (Option.some_get _).symm, by unfold Dev.Asked; decide +kernel⟩,
   ⟨⟨false, 2, 8, leBytes 4 R.hrtCfgDrain ++ leBytes 4 255, 65535⟩, 255, st
     { live [] with hearth := { reqs := [⟨false, 2, 8, leBytes 4 R.hrtCfgDrain ++ leBytes 4 255, 65535⟩] } },
     by unfold Dev.Asked; decide +kernel⟩,
   ⟨⟨false, 0x100, 8, leBytes 4 R.hrtPwrCfg ++ leBytes 4 7, 0⟩, 7, st
     { live [(F.hrtCfgCtllvlExpert, 0)] with hearth := { reqs := [⟨false, 0x100, 8, leBytes 4 R.hrtPwrCfg ++ leBytes 4 7, 0⟩] } },
     by unfold Dev.Asked; decide +kernel⟩,
   ⟨⟨false, 0x100, 8, leBytes 4 R.hrtPwrCfg ++ leBytes 4 7, 65535⟩, 7, st
     { live [] with hearth := { reqs := [⟨false, 0x100, 8, leBytes 4 R.hrtPwrCfg ++ leBytes 4 7, 65535⟩] } },
     by unfold Dev.Asked; decide +kernel⟩,
   ⟨⟨false, 0x101, 12, leBytes 4 R.hrtPwrCfg ++ leBytes 4 3 ++ leBytes 4 5, 65535⟩, 3, 5, st
     { live [] with hearth := { reqs := [⟨false, 0x101, 12, leBytes 4 R.hrtPwrCfg ++ leBytes 4 3 ++ leBytes 4 5, 65535⟩] } },
     by unfold Dev.Asked; decide +kernel⟩,
   ⟨⟨true, 0x102, 12, leBytes 4 R.hrtPwrCfg ++ leBytes 4 1 ++ leBytes 4 7, 65535⟩, 7, st
     { live [] with hearth := { reqs := [⟨true, 0x102, 12, leBytes 4 R.hrtPwrCfg ++ leBytes 4 1 ++ leBytes 4 7, 65535⟩] } },
     by unfold Dev.Asked; decide +kernel⟩,
   ⟨⟨true, 0x101, 12, leBytes 4 R.hrtPwrCfg ++ leBytes 4 3 ++ leBytes 4 5, 0⟩, 3, 5, 5, st
     { live [(F.hrtCfgCtllvlExpert, 0), (F.hrtPwrCfgAutoacc, 1), (F.hrtPwrCfgAutotin, 1), (F.hrtPwrCfgDozewl, 1)] with hearth := { reqs := [⟨true, 0x101, 12, leBytes 4 R.hrtPwrCfg ++ leBytes 4 3 ++ leBytes 4 5, 0⟩] } },
     by unfold Dev.Asked; decide +kernel⟩,
   ⟨⟨true, 0x102, 16, leBytes 4 R.hrtPwrCfg ++ leBytes 4 2 ++ leBytes 4 7 ++ leBytes 4 65535, 0⟩, 7, 65535, st
     { live [(F.hrtCfgCtllvlExpert, 0)] with hearth := { reqs := [⟨true, 0x102, 16, leBytes 4 R.hrtPwrCfg ++ leBytes 4 2 ++ leBytes 4 7 ++ leBytes 4 65535, 0⟩] } },
     by unfold Dev.Asked; decide +kernel⟩,
   ⟨⟨true, 0xFFFF, 0, [], 65535⟩, st { live [] with hearth := { reqs := [⟨true, 0xFFFF, 0, [], 65535⟩] } },
     by unfold Dev.Asked; decide +kernel⟩,
   ⟨⟨true, 0x20, 4, leBytes 4 (F.hrtCfgCmdCord.put (F.hrtCfgCmdOp.put 0 2) 11).toNat, 0⟩, F.hrtCfgCmdCord.put
     (F.hrtCfgCmdOp.put 0 2) 11, 11, (decodeAddr R.hrtCfgCmd).get (by decide +kernel), st
     { live [(F.hrtPwrCordSt 11, 0), (F.hrtPwrStatePend, 3), (F.hrtCfgCtllvlExpert, 0)] with hearth := { reqs := [⟨true, 0x20, 4, leBytes 4 (F.hrtCfgCmdCord.put (F.hrtCfgCmdOp.put 0 2) 11).toNat, 0⟩] }, img := { slot := [(11, { sseq := 7 })] } },
     (Option.some_get _).symm, by unfold Dev.Asked; decide +kernel⟩⟩

theorem witness_UpdatesAndRestartsRun :
    (∃ (q : MbxReq) (len : Nat) (s : State), s.dev.Asked q ∧ q.opcode = 0x10 ∧ q.len = 8 ∧ q.args = leBytes 4 0 ++ leBytes 4
      len ∧ 1128 ≤ len ∧ len ≤ 25165824 ∧ len % 4 = 0 ∧ s.dev.updDenied = false ∧ s.dev.hearth.session = none)
    ∧ (∃ (q : MbxReq) (s : State), s.dev.Asked q ∧ q.opcode = 0x10 ∧ q.len = 8 ∧ q.args = leBytes 4 0 ++ leBytes 4 1128 ∧
      s.dev.updDenied = true)
    ∧ (∃ (q : MbxReq) (u : UpdSession) (o : Nat) (b : List Byte) (s : State), s.dev.Asked q ∧ q.opcode = 0x11 ∧ q.args =
      leBytes 4 o ++ b ∧ q.len = q.args.length ∧ 4 ≤ b.length ∧ b.length ≤ 240 ∧ b.length % 4 = 0 ∧ s.dev.hearth.session =
      some u ∧ u.smb = q.smb ∧ o % 4 = 0 ∧ o + b.length ≤ u.len ∧ u.len < 2 ^ 32)
    ∧ (∃ (q : MbxReq) (u : UpdSession) (ok : Bool) (s : State), s.dev.Asked q ∧ q.opcode = 0x12 ∧ q.len = 0 ∧
      s.dev.hearth.session = some u ∧ u.smb = q.smb ∧ u.header.length = 256 ∧ ok = (if u.firmware then ((s.dev.mramPut u.base
      u.header).verifyFw s.fuses u.slot).isSome else ((s.dev.mramPut u.base u.header).verifySlot s.fuses u.slot).isSome))
    ∧ (∃ (q : MbxReq) (u : UpdSession) (s : State), s.dev.Asked q ∧ q.opcode = 0x13 ∧ q.len = 0 ∧ s.dev.hearth.session = some
      u ∧ u.smb = q.smb)
    ∧ (∃ (q : MbxReq) (s : State), s.dev.Asked q ∧ q.opcode = 0x13 ∧ q.len = 0 ∧ s.dev.hearth.session = none)
    ∧ (∃ (s : State), s.dev.hearth.session ≠ none)
    ∧ (∃ (q : MbxReq) (k : Nat) (f : Nat × Nat × List Byte) (s : State), s.dev.verifyFw s.fuses k = some f ∧ s.dev.Asked q ∧
      q.opcode = 0x14 ∧ q.len = 0 ∧ s.dev.get F.hrtCfgStatBusy = 0 ∧ s.dev.pwr.trans = none ∧ k = 1 - s.dev.get
      F.hrtHstStatFwslot ∧ newer f.1 (s.dev.get F.hrtHstFwseqValue) = true)
    ∧ (∃ (q : MbxReq) (f : Nat × Nat × List Byte) (s : State), s.dev.verifyFw s.fuses 0 = some f ∧ s.dev.Asked q ∧
      s.dev.inReset = false ∧ s.dev.hearth.session = none ∧ s.dev.verifyFw s.fuses 1 = none)
    ∧ (∃ (q : MbxReq) (v : Nat) (b : Nat) (f : Nat × Nat × List Byte) (s : State), s.dev.verifyFw s.fuses 0 = some f ∧
      s.dev.Asked q ∧ q.opcode = 0x102 ∧ q.len = 16 ∧ q.args = leBytes 4 R.hrtPwrCfg ++ leBytes 4 2 ++ leBytes 4 v ++ leBytes
      4 b ∧ v < 8 ∧ s.dev.reg R.hrtPwrCfg < 8#32 ∧ expertIn q.level (some .power) = false ∧ s.dev.inReset = false ∧
      s.dev.hearth.session = none ∧ s.dev.verifyFw s.fuses 1 = none) :=
  ⟨⟨⟨true, 0x10, 8, leBytes 4 0 ++ leBytes 4 1128, 65535⟩, 1128, st
    { live [] with hearth := { reqs := [⟨true, 0x10, 8, leBytes 4 0 ++ leBytes 4 1128, 65535⟩] } },
    by unfold Dev.Asked; decide +kernel⟩,
   ⟨⟨true, 0x10, 8, leBytes 4 0 ++ leBytes 4 1128, 65535⟩, st
     { live [(F.hrtCfgStatBusy, 1)] with hearth := { reqs := [⟨true, 0x10, 8, leBytes 4 0 ++ leBytes 4 1128, 65535⟩] } },
     by unfold Dev.Asked; decide +kernel⟩,
   ⟨⟨true, 0x11, 8, leBytes 4 252 ++ [1, 2, 3, 4], 65535⟩, ⟨true, false, 1, 1128, List.replicate 256 0⟩, 252, [1, 2, 3, 4],
     st
     { live [] with hearth := { reqs := [⟨true, 0x11, 8, leBytes 4 252 ++ [1, 2, 3, 4], 65535⟩], session := some ⟨true, false, 1, 1128, List.replicate 256 0⟩ } },
     by unfold Dev.Asked; decide +kernel⟩,
   ⟨⟨true, 0x12, 0, [], 65535⟩, ⟨true, false, 1, 1128, List.replicate 256 0⟩, false, st
     { live [] with hearth := { reqs := [⟨true, 0x12, 0, [], 65535⟩], session := some ⟨true, false, 1, 1128, List.replicate 256 0⟩ } },
     by unfold Dev.Asked; decide +kernel⟩,
   ⟨⟨true, 0x13, 0, [], 65535⟩, ⟨true, true, 1, 1128, []⟩, st
     { live [] with hearth := { reqs := [⟨true, 0x13, 0, [], 65535⟩], session := some ⟨true, true, 1, 1128, []⟩ } },
     by unfold Dev.Asked; decide +kernel⟩,
   ⟨⟨true, 0x13, 0, [], 65535⟩, st { live [] with hearth := { reqs := [⟨true, 0x13, 0, [], 65535⟩] } },
     by unfold Dev.Asked; decide +kernel⟩,
   ⟨st { live [(F.hrtHstStatUpdact, 1)] with hearth := { session := some ⟨true, true, 1, 1128, []⟩ } }, by decide +kernel⟩,
   ⟨⟨true, 0x14, 0, [], 65535⟩, 0, firmware,
     { st { live [(F.hrtHstStatFwslot, 1)] with hearth := { reqs := [⟨true, 0x14, 0, [], 65535⟩] }, img := { mram := firmMram } } with fuses := keyFuses },
     verifyFw_firm rfl (by decide +kernel), by unfold Dev.Asked; decide +kernel⟩,
   ⟨⟨true, 0x14, 0, [], 65535⟩, firmware,
     { st { live [] with hearth := { reqs := [⟨true, 0x14, 0, [], 65535⟩] }, img := { mram := firmMram } } with fuses := keyFuses },
     verifyFw_firm rfl (by decide +kernel), by unfold Dev.Asked; decide +kernel⟩,
   ⟨⟨true, 0x102, 16, leBytes 4 R.hrtPwrCfg ++ leBytes 4 2 ++ leBytes 4 7 ++ leBytes 4 65535, 0⟩, 7, 65535, firmware,
     { st { live [(F.hrtCfgCtllvlExpert, 0)] with hearth := { reqs := [⟨true, 0x102, 16, leBytes 4 R.hrtPwrCfg ++ leBytes 4 2 ++ leBytes 4 7 ++ leBytes 4 65535, 0⟩] }, img := { mram := firmMram } } with fuses := keyFuses },
     verifyFw_firm rfl (by decide +kernel), by unfold Dev.Asked; decide +kernel⟩⟩

theorem witness_LogAndSmbusServe :
    (∃ (i : AshItem) (rest : List AshItem) (e : Nat) (s : State), s.dev.ash.queue = i :: rest ∧ s.dev.get F.hrtHstStatFwrun =
      1 ∧ e = s.dev.ashNext)
    ∧ (∃ (q : MbxReq) (s : State), s.dev.Asked q ∧ q.opcode = 0x31 ∧ q.len = 16 ∧ q.args.length = 16 ∧ s.dev.ash.lost = 0 ∧
      ashLoad s.dev.ash.queue < 256)
    ∧ (∃ (q : MbxReq) (m : Nat) (b : List Byte) (s : State), s.dev.Asked q ∧ q.opcode = 0x30 ∧ q.len = 8 ∧ q.args = leBytes 4
      m ++ leBytes 4 1 ∧ s.dev.ash.newest = some m ∧ m < 2 ^ 32 ∧ s.dev.ashHeld m = some b)
    ∧ (∃ (q : MbxReq) (m : Nat) (s : State), s.dev.Asked q ∧ q.opcode = 0x32 ∧ q.len = 0 ∧ s.dev.ash.newest = some m)
    ∧ (∃ (bytes : List Byte) (pec : Byte) (s : State), s.dev.inReset = false ∧ s.dev.smbBusy = false ∧ 4 ≤ bytes.length ∧
      bytes.length ≤ 252 ∧ pec = smbPec ([s.dev.smbAddr false, 1, BitVec.ofNat 8 bytes.length] ++ bytes))
    ∧ (∃ (bytes : List Byte) (pec : Byte) (s : State), s.dev.inReset = false ∧ pec ≠ smbPec ([s.dev.smbAddr false, 1,
      BitVec.ofNat 8 bytes.length] ++ bytes))
    ∧ (∃ (bytes : List Byte) (pec : Byte) (s : State), s.dev.inReset = false ∧ s.dev.smbBusy = true ∧ pec = smbPec
      ([s.dev.smbAddr false, 1, BitVec.ofNat 8 bytes.length] ++ bytes))
    ∧ (∃ (code : Byte) (pec : Byte) (bytes : List Byte) (s : State), s.dev.inReset = false ∧ code ≠ 1)
    ∧ (∃ (s : State), s.dev.inReset = false ∧ s.dev.smbBusy = true)
    ∧ (∃ (b : List Byte) (s : State), s.dev.inReset = false ∧ s.dev.smbBusy = false ∧ b = s.dev.hearth.smbRsp ∧ b ≠ [])
    ∧ (∃ (code : Byte) (ok : Bool) (s : State), s.dev.inReset = false ∧ code ≠ 2)
    ∧ (∃ (s : State), s.dev.inReset = false)
    ∧ (∃ (s : State), s.dev.inReset = false) :=
  ⟨⟨⟨5, 0, 1, 0xFF, 0, List.replicate 12 1, []⟩, [⟨6, 0, 1, 0xFF, 0, List.replicate 12 1, []⟩], 262144, st
    { live [] with ash := { queue := [⟨5, 0, 1, 0xFF, 0, List.replicate 12 1, []⟩, ⟨6, 0, 1, 0xFF, 0, List.replicate 12 1, []⟩], newest := some 262143 } },
    by decide +kernel⟩,
   ⟨⟨true, 0x31, 16, List.replicate 16 7, 65535⟩, st
     { live [] with hearth := { reqs := [⟨true, 0x31, 16, List.replicate 16 7, 65535⟩] } },
     by unfold Dev.Asked; decide +kernel⟩,
   ⟨⟨true, 0x30, 8, leBytes 4 5 ++ leBytes 4 1, 65535⟩, 5, AshItem.bytes ⟨5, 0, 1, 0xFF, 0, List.replicate 12 1, []⟩ 5, st
     { (live []).mramPut (0x3000000 + 32 * 5) (AshItem.bytes ⟨5, 0, 1, 0xFF, 0, List.replicate 12 1, []⟩ 5) with hearth := { reqs := [⟨true, 0x30, 8, leBytes 4 5 ++ leBytes 4 1, 65535⟩] }, ash := { newest := some 5 } },
     by unfold Dev.Asked; decide +kernel⟩,
   ⟨⟨true, 0x32, 0, [], 65535⟩, 5, st
     { live [] with hearth := { reqs := [⟨true, 0x32, 0, [], 65535⟩] }, ash := { newest := some 5 } },
     by unfold Dev.Asked; decide +kernel⟩,
   ⟨List.replicate 36 1, smbPec ([(live []).smbAddr false, 1, BitVec.ofNat 8 36] ++ List.replicate 36 1), st (live []),
     by decide +kernel⟩,
   ⟨[], smbPec [(live []).smbAddr false, 1, 0] + 1, st (live [(F.hrtSmbStatPecerr, 255)]), by decide +kernel⟩,
   ⟨[0, 0, 0, 0], smbPec ([(live []).smbAddr false, 1, 4] ++ [0, 0, 0, 0]), st
     { live [(F.hrtSmbStatOvr, 255)] with hearth := { reqs := [⟨true, 0, 0, [], 65535⟩] } }, by decide +kernel⟩,
   ⟨2, 0, [1], st (live []), by decide +kernel⟩,
   ⟨st { live [] with hearth := { reqs := [⟨false, 0, 0, [], 65535⟩, ⟨true, 0, 0, [], 65535⟩] } }, by decide +kernel⟩,
   ⟨[0, 0, 0, 0], st { live [] with hearth := { smbRsp := [0, 0, 0, 0], smbDone := true } }, by decide +kernel⟩,
   ⟨1, true, st (live []), by decide +kernel⟩,
   ⟨st { live [] with hearth := { smbRsp := [0, 0, 0, 0], smbDone := true } }, by decide +kernel⟩,
   ⟨st (live [(F.hrtSmbStatPecerr, 255)]), by decide +kernel⟩⟩

theorem witness_SensorsEventsAndKeysAct :
    (∃ (i : Fin 24) (x : Int) (s : State), s.dev.inReset = false ∧ -2048 ≤ x ∧ x < 2048)
    ∧ (∃ (s : State), s.dev.waiting = [] ∧ s.dev.pwr.hot2 ≠ [] ∧ s.dev.get F.hrtSnsStatTripped = 0 ∧ s.dev.get
      F.hrtPwrStatePend = 3)
    ∧ (∃ (s : State), s.dev.get F.hrtSnsStatTripped = 1 ∧ s.dev.allCool = true)
    ∧ (∃ (i : Fin 16) (mv : List Nat) (s : State), s.dev.inReset = false ∧ mv.length = 8 ∧ s.dev.transWakes = false ∧ mv.sum
      * 1000 < 8 * s.dev.get (F.hrtSnsRailNom i) * (1000 - s.dev.get (F.hrtSnsRlimLo i)) ∧ i.val ∉ s.dev.pwr.railLow)
    ∧ (∃ (i : Fin 16) (mv : List Nat) (s : State), s.dev.inReset = false ∧ mv.length = 8 ∧ 8 * s.dev.get (F.hrtSnsRailNom i)
      * (1000 - s.dev.get (F.hrtSnsRlimLo i)) ≤ mv.sum * 1000 ∧ mv.sum * 1000 ≤ 8 * s.dev.get (F.hrtSnsRailNom i) * (1000 +
      s.dev.get (F.hrtSnsRlimHi i)))
    ∧ (∃ (m : Fin 4) (ppm : Int) (s : State), s.dev.inReset = false ∧ ((m.val = 2 ∧ 300 < ppm.natAbs) ∨ (m.val = 3 ∧ 100000 <
      ppm.natAbs ∧ s.dev.get F.hrtClkStatRefok = 1)) ∧ m.val ∉ s.dev.pwr.clkBad)
    ∧ (∃ (ppm : Int) (s : State), s.dev.inReset = false ∧ ppm.natAbs ≤ 300)
    ∧ (∃ (n : Fin 256) (s : State), s.dev.Takes (R.hrtEvtSrcCtl n) (s.dev.withField (F.hrtEvtSrcCtlStat n) 1) ∧ neverRaised n
      = false)
    ∧ (∃ (n : Fin 256) (s : State), s.dev.Takes (R.hrtEvtSrcCtl n) (s.dev.withField (F.hrtEvtSrcCtlStat n) 0) ∧ neverRaised n
      = false ∧ s.dev.get (F.hrtEvtSrcCtlStat n) = 1)
    ∧ (∃ (g : Fin 16) (v : Nat) (m : MsixVec) (s : State), s.dev.Takes (R.hrtEvtGcfg g) (s.dev.withField (F.hrtEvtGcfgMsien
      g) 1) ∧ s.dev.get (F.hrtEvtGcfgMsien g) = 0 ∧ s.dev.groupPending g = true ∧ v = s.dev.get (F.hrtEvtGcfgVec g) ∧
      s.dev.msixReady v = true ∧ m = Tbl.get {} s.dev.msixTable v)
    ∧ (∃ (mask : BitVec 4) (s : State), s.dev.Takes R.hrtGlbKrev (s.dev.withField F.hrtGlbKrevBlow mask.toNat))
    ∧ (∃ (i : TapInstr) (s : State), (i = .bypass ∨ i = .idcode ∨ i = .samplePreload ∨ (i ≠ .other ∧ s.dev.inReset = true ∧
      s.dev.powered = true)))
    ∧ (∃ (i : TapInstr) (s : State), i ≠ .idcode ∧ i ≠ .samplePreload ∧ (i = .other ∨ s.dev.inReset = false)) :=
  ⟨⟨23, -2048, st (live []), by decide +kernel⟩,
   ⟨st { live [(F.hrtPwrStatePend, 3)] with pwr := { hot2 := [23] } }, by decide +kernel⟩,
   ⟨st (live [(F.hrtSnsStatTripped, 1)]), by decide +kernel⟩,
   ⟨15, List.replicate 8 0, st (live [(F.hrtSnsRailNom 15, 1000)]), by decide +kernel⟩,
   ⟨15, List.replicate 8 1000, st (live [(F.hrtSnsRailNom 15, 1000)]), by decide +kernel⟩,
   ⟨3, 100001, st (live []), by decide +kernel⟩,
   ⟨-300, st { live [] with pwr := { clkBad := [2] } }, by decide +kernel⟩,
   ⟨255, st (live [(F.hrtEvtSrcCtlStat 255, 1), (F.hrtEvtSrcCtlEn 255, 1)]), takes_of (by decide +kernel), by decide +kernel⟩,
   ⟨255, st (live [(F.hrtEvtSrcCtlStat 255, 1), (F.hrtEvtSrcCtlEn 255, 1)]), takes_of (by decide +kernel), by decide +kernel⟩,
   ⟨15, 7, { masked := false }, st
     { live [(F.hrtEvtGcfgVec 15, 7), (F.hrtEvtSrcCtlStat 255, 1), (F.hrtEvtSrcCtlEn 255, 1)] with pcie := { busMaster := true, msixEnable := true, msixFuncMask := false }, msixTable := [(7, { masked := false })] },
     takes_of (by decide +kernel), by decide +kernel⟩,
   ⟨0xE, st (live []), takes_of (by decide +kernel)⟩,
   ⟨.idcode, st (live []), by decide +kernel⟩,
   ⟨.other, st (live []), by decide +kernel⟩⟩

theorem witness_InjectorsArmActAndStop :
    (∃ (i : Fin 164) (s : State), s.dev.Takes (fiBase i) (s.dev.withField (fiF i 0 0 1) 1) ∧ s.dev.get (fiF i 0 0 1) = 0)
    ∧ (∃ (i : Fin 164) (s : State), s.dev.Takes (fiBase i) (s.dev.withField (fiF i 0 0 1) 0) ∧ s.dev.get (fiF i 0 0 1) = 1 ∧
      s.dev.get (fiF i 0x14 0 1) = 1 ∧ (s.dev.inj i).held = none)
    ∧ (∃ (i : Fin 164) (u : FiUnit) (s : State), s.dev.Takes (fiBase i) (s.dev.withField (fiF i 0 0 1) 0) ∧ 160 ≤ i.val ∧
      s.dev.trafficOk 8 = true ∧ (s.dev.inj i).dir = 0 ∧ (s.dev.inj i).held = some u)
    ∧ (∃ (s : State), s.dev.Takes R.hrtFiGlobal (s.dev.withField F.hrtFiGlobalKill 1) ∧ (∀ i < 164, (s.dev.inj i).held =
      none))
    ∧ (∃ (i : Fin 164) (u : FiUnit) (s : State), s.dev.Takes R.hrtFiGlobal (s.dev.withField F.hrtFiGlobalKill 1) ∧ 160 ≤
      i.val ∧ s.dev.trafficOk 8 = true ∧ (s.dev.inj i).held = some u ∧ (s.dev.inj i).dir = 0 ∧ (∀ j < 164, j ≠ i.val →
      (s.dev.inj j).held = none))
    ∧ (∃ (i : Fin 164) (a : Nat) (b : Nat) (bytes : List Byte) (s : State), i.val < 96 ∧ s.dev.released (hsCord i) = true ∧
      s.dev.get (F.hsLnLoopMode i) ≠ 1 ∧ s.dev.get (F.hsLnLoopMode i) ≠ 2 ∧ s.dev.get (fiF i 0x14 0 1) = 1 ∧ s.dev.get (fiF i
      0 1 1) = 0 ∧ ((s.dev.inj i).held = none ∨ (s.dev.inj i).dir = 0))
    ∧ (∃ (i : Fin 164) (a : Nat) (b : Nat) (act : Nat) (bytes : List Byte) (s : State), i.val < 96 ∧ s.dev.released (hsCord
      i) = true ∧ s.dev.get (F.hsLnLoopMode i) ≠ 1 ∧ s.dev.get (F.hsLnLoopMode i) ≠ 2 ∧ s.dev.get (fiF i 0x14 0 1) = 1 ∧
      s.dev.get (fiF i 0 1 1) = 1 ∧ s.dev.get (fiF i 0 4 2) = 0 ∧ s.dev.get (fiF i 4 0 16) = 1 ∧ s.dev.get (fiF i 0x10 0 32)
      = 0 ∧ (s.dev.inj i).sel ≠ 0 ∧ (s.dev.inj i).held = none ∧ act = s.dev.get (fiF i 0 2 2) ∧ act ≤ 1)
    ∧ (∃ (i : Fin 164) (a : Nat) (b : Nat) (bytes : List Byte) (s : State), i.val < 96 ∧ s.dev.get (fiF i 0x14 0 1) = 1 ∧
      s.dev.get (fiF i 0 1 1) = 0 ∧ s.dev.get (fiF i 0 4 2) = 0 ∧ s.dev.get (fiF i 4 0 16) = 1 ∧ s.dev.get (fiF i 0x10 0 32)
      = 0 ∧ (s.dev.inj i).sel = 0 ∧ (s.dev.inj i).held = none ∧ s.dev.get (fiF i 0 2 2) = 2 ∧ s.dev.get (fiF i 0 6 1) = 0)
    ∧ (∃ (i : Fin 164) (u : FiUnit) (s : State), 160 ≤ i.val ∧ s.dev.trafficOk 8 = true ∧ (s.dev.inj i).dir = 0 ∧ (s.dev.inj
      i).held = some u) :=
  ⟨⟨163, st (live [(F.hrtFiGlobalArmcnt, 255)]), takes_of (by decide +kernel), by decide +kernel⟩,
   ⟨0, st (live [(fiF 0 0 0 1, 1), (fiF 0 0x14 0 1, 1), (F.hrtFiGlobalArmcnt, 1)]), takes_of (by decide +kernel),
     by decide +kernel⟩,
   ⟨163, { pkt := { src := 0, bytes := [1, 2] } }, st
     { live [(fiF 163 0 0 1, 1), (fiF 163 0x14 0 1, 1), (fiF 163 0x14 1 1, 1), (F.hrtFiGlobalArmcnt, 1)] with inj_ := [(163, { held := some { pkt := { src := 0, bytes := [1, 2] } } })] },
     takes_of (by decide +kernel), by decide +kernel⟩,
   ⟨st (live [(fiF 0 0 0 1, 1), (fiF 0 0x14 0 1, 1), (F.hrtFiGlobalArmcnt, 1)]), takes_of (by decide +kernel),
     by decide +kernel⟩,
   ⟨163, { pkt := { src := 0, bytes := [1, 2] } }, st
     { live [(fiF 163 0 0 1, 1), (fiF 163 0x14 0 1, 1), (fiF 163 0x14 1 1, 1), (F.hrtFiGlobalArmcnt, 1)] with inj_ := [(163, { held := some { pkt := { src := 0, bytes := [1, 2] } } })] },
     takes_of (by decide +kernel), by decide +kernel⟩,
   ⟨95, 0, 0, [1, 2], st (live [(fiF 95 0x14 0 1, 1)]), by decide +kernel⟩,
   ⟨95, 0, 0, 1, [1, 2], st
     { live [(fiF 95 0x14 0 1, 1), (fiF 95 0 1 1, 1), (fiF 95 0 2 2, 1), (fiF 95 4 0 16, 1), (fiF 95 0 16 8, 0xFF), (fiF 95 0 24 8, 7)] with inj_ := [(95, { sel := 1 })] },
     by decide +kernel⟩,
   ⟨0, 0, 0, [1, 2], st (live [(fiF 0 0x14 0 1, 1), (fiF 0 0 2 2, 2), (fiF 0 4 0 16, 1)]), by decide +kernel⟩,
   ⟨160, { pkt := { src := 0, bytes := [1, 2] } }, st
     { live [(fiF 160 0 0 1, 1), (fiF 160 0x14 1 1, 1)] with inj_ := [(160, { held := some { pkt := { src := 0, bytes := [1, 2] } } })] },
     by decide +kernel⟩⟩

theorem witness_DeviceStartsAndStops :
    (∃ (ns : Nat) (s : State), 2500 ≤ ns ∧ s.dev.powered = true)
    ∧ (∃ (ns : Nat) (s : State), ns ≤ 1500)
    ∧ (∃ (straps : Fin 4) (f : Nat × Nat × List Byte) (s : State), s.dev.verifyFw s.fuses 0 = some f ∧ s.dev.inReset = true ∧
      s.dev.verifyFw s.fuses 1 = none)
    ∧ (∃ (straps : Fin 4) (s : State), s.dev.inReset = true ∧ s.dev.verifyFw s.fuses 0 = none ∧ s.dev.verifyFw s.fuses 1 =
      none)
    ∧ (∃ (s : State), s.dev.inReset = false ∧ s.dev.get F.hrtClkStatRefok = 0)
    ∧ (∃ (s : State), s.dev.get F.hrtClkStatRefok = 1 ∧ 0 ∉ s.dev.pwr.clkBad)
    ∧ (∃ (s : State), s.dev.inReset = false ∧ s.dev.get F.hrtClkStatRootlock = 0 ∧ s.dev.get F.hrtClkStatRefok = 1)
    ∧ (∃ (s : State), s.dev.get F.hrtClkStatRootlock = 1 ∧ 1 ∉ s.dev.pwr.clkBad) :=
  ⟨⟨2500, st { live [(F.hrtPwrCfgDozewl, 1)] with ember := { bytes := [(5, 1)] } }, by decide +kernel⟩,
   ⟨1500, st (live []), by decide +kernel⟩,
   ⟨3, firmware, { st { withFields [] with img := { mram := firmMram } } with fuses := keyFuses }, verifyFw_firm rfl
     (by decide +kernel), by decide +kernel⟩,
   ⟨3, State.reset, by decide +kernel⟩,
   ⟨st (live [(F.hrtClkStatRefok, 0)]), by decide +kernel⟩,
   ⟨st (live []), by decide +kernel⟩,
   ⟨st (live [(F.hrtClkStatRootlock, 0), (F.hrtPwrCordSt 12, 0)]), by decide +kernel⟩,
   ⟨st (live []), by decide +kernel⟩⟩

theorem witness_HostAccessesComplete :
    (∃ (a : BitVec 28) (v : Word) (r : RegAt) (s : State), s.dev.Takes a.toNat v ∧ decodeAddr a.toNat = some r ∧ emberOfs
      a.toNat = none ∧ r.row.name ∈ [.hrtCfgDrain, .hrtPwrCfg, .hrtPwrRetain, .hrtPwrEmbwin, .hrtSnsTthr, .hrtSnsRlim,
      .hrtTimInc, .hrtTimStepns, .hrtTimPpsnext, .hrtTimPpsper, .hrtTimSecbasehi, .hrtTimSecbaselo, .pciEpCfg, .bufQPar,
      .bufQLim, .bufQShp, .bufPoolLow, .bufPclsMax, .pktClsMirror, .hsMacFc, .hsMacFcthr, .hsLnCfg, .cvTrdArg, .cvTrdCfg,
      .leRxcCdcfg, .leRxcCfg])
    ∧ (∃ (a : BitVec 28) (v : Word) (r : RegAt) (k : Nat) (s : State), s.dev.Answers a.toNat ∧ decodeAddr a.toNat = some r ∧
      emberOfs a.toNat = none ∧ s.dev.writeCode a.toNat r v true = k ∧ k ∈ [6, 7, 8, 9, 10])
    ∧ (∃ (a : BitVec 28) (size : Nat) (v : Word) (k : Nat) (s : State), s.dev.waiting = [] ∧ s.dev.cordSt 12 ≠ 0 ∧ s.dev.get
      F.pciEpStatDlup = 1 ∧ s.dev.pathCode a.toNat size = k ∧ k ≠ 0)
    ∧ (∃ (a : BitVec 28) (size : Nat) (k : Nat) (s : State), s.dev.waiting = [] ∧ s.dev.cordSt 12 ≠ 0 ∧ s.dev.get
      F.pciEpStatDlup = 1 ∧ s.dev.pathCode a.toNat size = k ∧ k ≠ 0)
    ∧ (∃ (s : State), s.dev.Answers R.hrtGlbAerr)
    ∧ (∃ (a : BitVec 28) (s : State), s.dev.Answers R.hrtCfgDrain ∧ a.toNat = R.hrtCfgDrain)
    ∧ (∃ (a : BitVec 28) (size : Nat) (s : State), (size ≠ 4 ∨ a.toNat % 4 ≠ 0))
    ∧ (∃ (a : BitVec 28) (o : Nat) (v : Word) (s : State), s.dev.Answers a.toNat ∧ emberOfs a.toNat = some o ∧ 4 ≤ s.dev.get
      F.hrtPwrEmbwinBank ∧ s.dev.ember.kept.testBit (s.dev.get F.hrtPwrEmbwinBank) = true)
    ∧ (∃ (a : BitVec 28) (v : Word) (s : State), s.dev.waiting = [] ∧ s.dev.cordSt 12 ≠ 0 ∧ s.dev.get F.pciEpStatDlup = 1 ∧
      s.dev.pathCode a.toNat 4 = 0 ∧ s.dev.cordSt (cordOf a.toNat) = 1) :=
  ⟨⟨BitVec.ofNat 28 R.hrtPwrCfg, 7, (decodeAddr R.hrtPwrCfg).get (by decide +kernel), st (live []), takes_of
    (by decide +kernel), (Option.some_get _).symm, by decide +kernel⟩,
   ⟨BitVec.ofNat 28 R.hrtPwrCfg, 8, (decodeAddr R.hrtPwrCfg).get (by decide +kernel), 8, st (live [(F.hrtGlbAerrCount,
     65535)]), answers_of (by decide +kernel), (Option.some_get _).symm, by decide +kernel⟩,
   ⟨BitVec.ofNat 28 R.hrtPwrCfg + 1, 4, 8, 1, st (live []), by decide +kernel⟩,
   ⟨BitVec.ofNat 28 (R.hsMacFc 95), 4, 4, st (live [(F.hrtPwrCordSt 11, 4)]), by decide +kernel⟩,
   ⟨st { live [(F.hrtGlbAerrCount, 5), (F.hrtGlbAerrCode, 10)] with aerrAdr := 2 ^ 28 - 1 }, answers_of (by decide +kernel)⟩,
   ⟨BitVec.ofNat 28 R.hrtCfgDrain, st (live [(F.hrtCfgDrainDraindrop, 5)]), answers_of (by decide +kernel),
     by decide +kernel⟩,
   ⟨1, 4, State.reset, by decide +kernel⟩,
   ⟨0x00100000, 0, 0x04030201, st { live [(F.hrtPwrEmbwinBank, 15)] with ember := { kept := 0x8000 } }, answers_of
     (by decide +kernel), by decide +kernel⟩,
   ⟨BitVec.ofNat 28 (R.hsMacFc 95), 7, st (live [(F.hrtPwrCordSt 11, 1)]), by decide +kernel⟩⟩

/-! ### Witnesses of the statements about every command -/

theorem witness_TheFrontCommandRuns : ∃ (c : Instr) (rest : List Instr) (s : State), s.pending = c :: rest :=
  ⟨.refclkLost, [.rootLock], { State.reset with pending := [.refclkLost, .rootLock] }, rfl⟩

theorem witness_FusesQueueAndOutputsAreKept : ∃ (f : Fuses) (s t : State), s.Settled f ∧ step s = .next t :=
  ⟨Fuses.reset, { State.reset with pending := [.powerLoss] }, _, ⟨rfl, rfl⟩, rfl⟩

theorem witness_CounterAndMemoriesStayInForm : ∃ s t : State, s.dev.time.InRange ∧ Tbl.wf regReset s.dev.regs = true
    ∧ Tbl.wf (fun _ => 0) s.dev.img.mram = true ∧ Tbl.wf (fun _ => 0) s.dev.ember.bytes = true ∧ step s = .next t :=
  ⟨{ st (live []) with pending := [.powerLoss] }, _, by unfold TimeSt.InRange; decide +kernel, by decide +kernel, by decide +kernel,
    by decide +kernel, rfl⟩

theorem witness_ResetLeavesResetValues : ∃ c : Nat, 1 ≤ c ∧ c ≤ 12 := ⟨12, by decide, by decide⟩

theorem witness_TheCounterTicksAndSteps_range : ∃ (r : RegAt) (d : Dev), decodeAddr R.hrtTimInc = some r ∧ d.expert (some .time) = true :=
  ⟨(decodeAddr R.hrtTimInc).get (by decide +kernel), live [], (Option.some_get _).symm, by decide +kernel⟩

/-! ### Operands the surroundings cannot send: one ill-formed command for each check of `Instr.wf` -/

theorem test_wf_pulse : (Instr.deviceReset 2000).wf = false ∧ (Instr.deviceReset 2500).wf = true := by decide
theorem test_wf_write : (Instr.registerWrite 0 0 0).wf = false ∧ (Instr.rcFieldRead 0 0).wf = false := by decide
theorem test_wf_clip : (Instr.adcClip 0 0 (2 ^ 20 + 1)).wf = false ∧ (Instr.llrSat 0 0 [[1]]).wf = false
    ∧ (Instr.txDacClip 0 0 [1]).wf = false := by decide
theorem test_wf_mask : (Instr.maskCheck 0 []).wf = false := by decide
theorem test_wf_header : (Instr.frameHeaderRx 0 0 []).wf = false ∧ (Instr.fecBlockDecode 0 0 0 [] none).wf = false := by decide
theorem test_wf_copy (a : List Int) : (Instr.fecBlockDecode 0 0 0 a (some [])).wf = false := by simp [Instr.wf]
theorem test_wf_cell : (Instr.cellRx 0 0 0 false []).wf = false ∧ (Instr.cellRx 0 0 1024 false (List.replicate 256 0)).wf = false := by decide +kernel
theorem test_wf_tag : (Instr.tagRx 0 0 1024 (List.replicate 256 0) 0).wf = false := by decide +kernel
theorem test_wf_codes : (Instr.profileChange 0 0 0 0 0 0 0 []).wf = false := by decide
theorem test_wf_grant : (Instr.grantMap 0 0 [⟨4096, 0, 0, 0, false, false⟩]).wf = false := by decide
theorem test_wf_fault : (Instr.engineFault 0 6 none 0).wf = false ∧ (Instr.engineFault 0 1 (some (1, 0)) 0).wf = false := by decide
theorem test_wf_slots : (Instr.sliceProcess 0 [24576] []).wf = false ∧ (Instr.sliceProcess 0 [] [2 ^ 21]).wf = false := by decide
theorem test_wf_bad_slots : (Instr.insert 0 [2 ^ 21]).wf = false ∧ (Instr.agerPassEnd [2 ^ 21]).wf = false ∧ (Instr.learnRequest [2 ^ 21 - 1]).wf = true := by
  decide
theorem test_wf_agent : (Instr.bufferFree 0 64).wf = false := by decide
theorem test_wf_link : (Instr.pcieLinkUp 0 1).wf = false ∧ (Instr.pcieLinkUp 5 3).wf = false ∧ (Instr.pcieLinkUp 5 8).wf = true := by decide
theorem test_wf_desc : (Instr.txgFetch 0 [] []).wf = false := by decide
theorem test_wf_sensor : (Instr.sensorRead 0 2048).wf = false ∧ (Instr.sensorRead 0 (-2048)).wf = true := by decide
theorem test_wf_rail : (Instr.railSample 0 []).wf = false ∧ (Instr.clockMonitor 1 0).wf = false := by decide
theorem test_wf_smb : (Instr.smbBlockWrite 1 [1, 2, 3] 0).wf = false := by decide

/-! ### Worked examples of the spec -/

/-- The address 0x0B47_0200 is cord 0xB, instance 55 of the MAC block (example of 01_architecture). -/
theorem test_decode_example : (decodeAddr 0x0B470200).map (fun r => r.port) = some 55 ∧ cordOf 0x0B470200 = 11 := by decide +kernel

/-- BUF_Q_PAR of queue 0x1064 stands at 0x0912_4190 (example of 19_register_map). -/
theorem test_array_example : R.bufQPar 0x1064 = 0x09124190 := by decide

/-- A host write to it at basic level is refused with code 6 and names the address (the same example). -/
theorem test_refusal_example : (match exec (.registerWrite 0x09124190 4 0) (st (live [(F.hrtCfgCtllvlExpert, 0)])) with
    | .next t => (t.dev.get F.hrtGlbAerrCode, t.dev.get F.hrtGlbAerrCord, t.dev.get F.hrtGlbAerrWr, t.dev.aerrAdr)
    | _ => default) = (6, 9, 1, 0x09124190) := by decide +kernel

/-- SEQ 3 is newer than 0xFFFF_FFFE (14_configuration_image, after R368), and equal numbers are not ordered. -/
theorem test_newer_example : newer 3 0xFFFFFFFE = true ∧ newer 0xFFFFFFFE 3 = false ∧ unordered 7 7 = true := by decide

/-- The base time in the past (example of 10_mac_ports): the change time is 1,003,750,000 ns and the list is late. -/
theorem test_gate_example : changeTime 1000000000 1003600500 1000 250000 = (1003750000, true) := by decide

/-- Blocks that end inside a frame at profile 0x1F (example of 04_line_frame_fec): 1,446,056 line bits, 4,264 over. -/
theorem test_frame_example : frameBits 0x1F = 1446056 ∧ frameBits 0x1F % 16384 = 4264 := by decide +kernel

/-- The symbol of line bits 1, 0, 1, 0, 1 at position 0 of profile 0x17 is (−5, +3) (example of 03_line_transmit). -/
theorem test_symbol_example : (symbolOf [true, false, true, false, true]) = (-5, 3) := by decide +kernel

/-- The mean energy of a group of each profile is E of the table of R73 (R74, R76), in quarters and summed over the 8 positions. -/
theorem test_profile_energy : (List.range 32).all (fun c => ((List.range 8).map fun p =>
    4 * ((List.range (2 ^ indexBits c p)).map fun i => (amplitude i).1 ^ 2 + (amplitude i).2 ^ 2).sum / 2 ^ indexBits c p).sum
      == 8 * energy4 c) = true := by decide +kernel

/-- A burst at profile 0x00 needs 6 slots for one FEC block, and then holds 6 cells (R157). -/
theorem test_burst_shape : burstShape 6 0 = (1, 6) ∧ (burstShape 5 0).1 = 0 := by decide +kernel

/-- The alignment word with one polarisation turned and the other polarisation in its place is found without a difference (R110). -/
theorem test_alignment_word : alignmentMatch ((alignmentWord true).map fun s => ⟨turn 1 s.y, turn 3 s.x, 8⟩) = ⟨0, true, 1, 3, true⟩ := by
  decide +kernel

/-- The cipher example of FIPS 197, appendix C.3 (R178): the block 00 11 … FF under the key 00 01 … 1F. -/
theorem test_aes : aesBlock (keySchedule ((List.range 32).map (BitVec.ofNat 8))) ((List.range 16).map (17 * ·))
    = [0x8e, 0xa2, 0xb7, 0xca, 0x51, 0x67, 0x45, 0xbf, 0xea, 0xfc, 0x49, 0x90, 0x4b, 0x49, 0x60, 0x89] := by decide +kernel

/-- SHA-384 of the message abc, the example of FIPS 180 (R366). -/
theorem test_sha : (shaWords 3 0x616263).take 6
    = [0xcb00753f45a35e8b, 0xb5a03d699ac65007, 0x272c32ab0eded163, 0x1a8b605a43ff5bed, 0x8086072ba1e7cc23, 0x58baeca134c825a7] := by
  decide +kernel

/-- The levels of PAM4 and their precoding from P = 0 (R305): bits 10 11 01 00 are the levels 3, 2, 1, 0. -/
theorem test_lane_levels : grayLevels [true, false, true, true, false, true, false, false] = [3, 2, 1, 0]
    ∧ precode 0 [3, 2, 1, 0] = [3, 3, 2, 2] ∧ recoverGray 0 [3, 3, 2, 2] = [3, 2, 1, 0] := by decide

/-- Balls of 20_pins_electrical: the transmit pair of lane 0 starts at A2, that of lane 55 at K67; 481 balls carry signals (R461, R463, R466). -/
theorem test_balls : laneBall 0 true true = (1, 2) ∧ rowName 1 = ['A'] ∧ laneBall 55 true true = (10, 67) ∧ rowName 10 = ['K']
    ∧ signalBalls.length = 481 ∧ ballAt 1 2 = .signal (.laneTx 0 true) := by decide +kernel

/-- Positions of R103: the last header symbol and the first payload symbol. -/
theorem test_frame_positions : (frameSymbol [] (List.replicate 128 ⟨(1, 1), (1, 1), 8⟩) [] [] 259).isSome = true
    ∧ frameSymbol [] [] [] [⟨(3, 1), (1, 1), 8⟩] 260 = some ⟨(3, 1), (1, 1), 8⟩ := by decide +kernel

/-- Commands without a row of bits: no word spells a command. -/
theorem test_no_words : decodeTableWord 32 0 = none ∧ State.reset.withFetchWord 32 0 = State.reset := by decide +kernel

/-! ### Single steps -/

/-- A reset pulse of the forbidden length stops the machine; a shorter one does nothing to the registers (R471). -/
theorem test_reset_pulse : step { State.reset with pending := [.deviceReset 2000] } = .fault .resetPulseForbidden := rfl

/-- An empty queue is one tick: at the reset value of INC the counter stands at 1 ns and 0x99999A fraction bits (R348, R350). -/
theorem test_tick : (match step (st (live [(F.hrtTimStatRun, 1)])) with
    | .next t => (t.dev.time.ns, t.dev.time.sub)
    | _ => default) = (1, 0x99999A) := by decide +kernel

/-- Nothing ticks before ROOTLOCK (R349). -/
theorem test_no_tick : (match step State.reset with
    | .next t => (t.dev.time.ns, t.dev.time.sub)
    | _ => (1, 1)) = (0, 0) := by decide +kernel

/-- A refused command raises REG_REJECT once (R428). -/
theorem test_reject_event : (match exec (.registerWrite 0x09124190 4 0) (st (live [(F.hrtCfgCtllvlExpert, 0)])) with
    | .next t => (t.dev.get (F.hrtEvtSrcCtlStat 1), t.dev.get (F.hrtEvtSrcCtlCount 1))
    | _ => default) = (1, 1) := by decide +kernel

end Sys2Proof.Tests
end

section
/-!
PROOFS. What a host write that is answered at once does: it runs alone through the access path, is refused with the
code it meets, or is stored and acted on.
-/

namespace Sys2Proof.Machine

/-- The accesses that wait, set. -/
def Dev.setWaiting (d : Dev) (l : List Access) : Dev := { d with waiting := l }

/-- What shows of a command after it: registers, converter sets and outputs are those its meaning leaves. -/
theorem State.run_shows (s : State) (f : Fuses → Dev → Dev) :
    ∃ t, s.run f = .next t ∧ t.dev.regs = (f s.fuses (s.dev.setOut [])).regs ∧ t.dev.convs = (f s.fuses (s.dev.setOut [])).convs
      ∧ t.outputs = (f s.fuses (s.dev.setOut [])).out ++ s.outputs :=
  ⟨_, State.run_eq s f, rfl, rfl, rfl⟩

theorem Dev.get_congr {d e : Dev} (h : e.regs = d.regs) (f : Fld) : e.get f = d.get f := by simp [Dev.get, Dev.reg_congr h]

theorem Dev.conv_congr {d e : Dev} (h : e.convs = d.convs) (w : Nat) : e.conv w = d.conv w := by simp [Dev.conv, h]

@[simp] theorem Dev.conv_setConv_self (d : Dev) (w : Nat) (f : Conv → Conv) : (d.setConv w f).conv w = f (d.conv w) :=
  Tbl.get_modify_self _ _ _ _

@[simp] theorem Dev.conv_set (d : Dev) (f : Fld) (x w : Nat) : (d.set f x).conv w = d.conv w := rfl

theorem Dev.Only.congr {l evs : List Nat} {d e t : Dev} (h : d.Only l evs e) (ht : t.regs = e.regs) : d.Only l evs t :=
  h.trans (Dev.Only.of_regs ht l evs)

/-! ### The access path -/

theorem Dev.wakeFor_powered {d : Dev} {x : Access} (h : d.cordSt (cordOf x.addr) = 2 ∨ d.cordSt (cordOf x.addr) = 3) : d.wakeFor x = d := by
  have h0 : (d.cordSt (cordOf x.addr) == 0) = false := by rcases h with h | h <;> simp [h]
  simp [Dev.wakeFor, h0]

theorem Dev.mustWait_powered {d : Dev} {x : Access} (h : d.cordSt (cordOf x.addr) = 2 ∨ d.cordSt (cordOf x.addr) = 3) :
    d.mustWait x = false := by
  rcases h with h | h <;> simp [Dev.mustWait, h]

theorem Dev.Answers.pathCode {d : Dev} {a : Nat} (h : d.Answers a) : d.pathCode a 4 = 0 := by
  obtain ⟨-, -, -, hpath, -⟩ := h
  exact hpath

/-- Where an access is answered at once, a write of a whole register is the access path's only work. -/
theorem Dev.arrive_write_of_answers {d : Dev} {a : Nat} (h : d.Answers a) (fz : Fuses) (v : Word) (written : List (BitVec 64)) :
    ∃ l, d.arrive fz a 4 (some v) written = ((d.setWaiting l).writeAccess fz a 4 v written).setWaiting [] := by
  obtain ⟨hwait, hlink, hup, -, hst⟩ := h
  let x : Access := { addr := a, size := 4, write := some v, at_ := d.time.ticks, written := written }
  refine ⟨[x], ?_⟩
  have hst' : (d.setWaiting [x]).cordSt (cordOf x.addr) = 2 ∨ (d.setWaiting [x]).cordSt (cordOf x.addr) = 3 := hst
  calc d.arrive fz a 4 (some v) written
      = (d.setWaiting [x]).serve fz := by simp [Dev.arrive, hlink, Dev.flag, hup, hwait, Dev.setWaiting, x]
    _ = Dev.serveList fz [x] (d.setWaiting [x]) := by
        have hw : (d.setWaiting [x]).waiting = [x] := rfl
        simp only [Dev.serve, hw, Dev.each_cons, Dev.each_nil, Dev.wakeFor_powered hst']
    _ = ((d.setWaiting [x]).writeAccess fz a 4 v written).setWaiting [] := by
        simp only [Dev.serveList, Dev.wakeFor_powered hst', Dev.mustWait_powered hst']
        rfl

/-- What shows after such a write. -/
theorem State.hostWrite_of_answers {s : State} {a : Nat} (h : s.dev.Answers a) (v : Word) :
    ∃ l t, s.hostWrite a v = .next t
      ∧ t.dev.regs = (((s.dev.setOut []).setWaiting l).writeAccess s.fuses a 4 v []).regs
      ∧ t.dev.convs = (((s.dev.setOut []).setWaiting l).writeAccess s.fuses a 4 v []).convs
      ∧ t.outputs = (((s.dev.setOut []).setWaiting l).writeAccess s.fuses a 4 v []).out ++ s.outputs := by
  have h' : (s.dev.setOut []).Answers a := h
  obtain ⟨l, hl⟩ := Dev.arrive_write_of_answers h' s.fuses v []
  obtain ⟨t, ht, hregs, hconvs, hout⟩ := State.run_shows s fun fz d => d.arrive fz a 4 (some v) []
  rw [hl] at hregs hconvs hout
  exact ⟨l, t, ht, hregs, hconvs, hout⟩

/-- A write that meets a code of its register, of those a cord's state does not give, is recorded and dropped. -/
theorem Dev.writeAccess_refused {d : Dev} {a : Nat} {r : RegAt} {v : Word} {c : Nat} (hp : d.pathCode a 4 = 0) (he : emberOfs a = none)
    (hr : decodeAddr a = some r) (hc : d.writeCode a r v true = c) (h0 : c ≠ 0) (h4 : c ≠ 4) (h5 : c ≠ 5) (fz : Fuses)
    (written : List (BitVec 64)) : d.writeAccess fz a 4 v written = (d.accessError c a true).emit (.writeDone a c) := by
  have hcord : (c == 4 || c == 5) = false := by simp [h4, h5]
  simp [Dev.writeAccess, hp, he, hr, Dev.regWrite, hc, h0, Dev.accessFailed, hcord]

/-! ### Access errors -/

theorem Dev.raiseWords_regs (d : Dev) {n : Nat} (det : List Word) (l : List Nat) (h : neverRaised n = false) :
    (d.raiseWords n det l).regs = (d.evtMark n).regs := by
  unfold Dev.raiseWords
  simp only [h, Bool.false_eq_true, if_false]
  exact Dev.afterMark_regs _ _ _ _ _ _ _ _

theorem Dev.raiseWords_quiet (d : Dev) {n : Nat} (det : List Word) (l : List Nat) (h : neverRaised n = false) :
    d.QuietSame (d.raiseWords n det l) := by
  unfold Dev.raiseWords
  simp only [h, Bool.false_eq_true, if_false]
  refine (Dev.evtMark_quiet d n).trans (Dev.QuietSame.trans ?_ (Dev.groupEdge_quiet _ _ _))
  exact Dev.when_keeps (P := (d.evtMark n).QuietSame) _ _ _ (Dev.QuietSame.refl _) fun _ => Dev.ashAdd_quiet _ _ _ _ _ _

theorem Dev.Only.raiseWords {l evs : List Nat} {d e : Dev} (h : d.Only l evs e) {n : Nat} (det : List Word) (addrs : List Nat)
    (hv : neverRaised n = false) (hn : n ∈ evs) : d.Only l evs (e.raiseWords n det addrs) := by
  intro b hb he
  rw [Dev.reg_congr (Dev.raiseWords_regs e det addrs hv), Dev.reg_evtMark_ne e n (he n hn), h b hb he]

/-- AERR as an access error leaves it (R457). -/
def Dev.markAerr (d : Dev) (code a : Nat) (wr : Bool) : Dev :=
  ((((d.set F.hrtGlbAerrCode code).set F.hrtGlbAerrCord (cordOf a % 16)).setFlag F.hrtGlbAerrWr wr).set F.hrtGlbAerrStk 1).count
    F.hrtGlbAerrCount 1

/-- The address of the latest access error, set. -/
def Dev.setAerrAdr (d : Dev) (a : Nat) : Dev := { d with aerrAdr := a }

@[simp] theorem Dev.setAerrAdr_keeps (d : Dev) (a : Nat) : (d.setAerrAdr a).regs = d.regs ∧ (d.setAerrAdr a).convs = d.convs := ⟨rfl, rfl⟩

@[simp] theorem Dev.get_setAerrAdr (d : Dev) (a : Nat) (f : Fld) : (d.setAerrAdr a).get f = d.get f := rfl

theorem Dev.accessError_eq (d : Dev) (c a : Nat) (wr : Bool) :
    d.accessError c a wr
      = ((d.markAerr c a wr).setAerrAdr a).raiseWords 0x01 [(d.markAerr c a wr).reg R.hrtGlbAerr, BitVec.ofNat 32 a] := rfl

theorem neverRaised_rejection : neverRaised 0x01 = false := by decide

theorem Dev.markAerr_only (d : Dev) (c a : Nat) (wr : Bool) (evs : List Nat) : d.Only [R.hrtGlbAerr] evs (d.markAerr c a wr) := by
  have hset : ∀ {e : Dev} (f : Fld) (x : Nat), f.addr = R.hrtGlbAerr → d.Only [R.hrtGlbAerr] evs e →
      d.Only [R.hrtGlbAerr] evs (e.set f x) := fun f x hf h => h.set f x (by simp [hf])
  exact hset _ _ rfl (hset _ _ rfl (hset _ _ rfl (hset _ _ rfl (hset _ _ rfl (Dev.Only.refl _ _ d)))))

theorem Dev.markAerr_code (d : Dev) {c : Nat} (hc : c < 2 ^ 8) (a : Nat) (wr : Bool) : (d.markAerr c a wr).get F.hrtGlbAerrCode = c := by
  have hfits : F.hrtGlbAerrCode.fits := by simp [Fld.fits, F.hrtGlbAerrCode]
  unfold Dev.markAerr
  rw [Dev.get_count_apart _ _ _ _ hfits (by simp [Fld.apart, F.hrtGlbAerrCode, F.hrtGlbAerrCount]),
    Dev.get_set_apart _ _ _ _ hfits (by simp [Fld.apart, F.hrtGlbAerrCode, F.hrtGlbAerrStk]),
    Dev.get_setFlag_apart _ _ _ _ hfits (by simp [Fld.apart, F.hrtGlbAerrCode, F.hrtGlbAerrWr]),
    Dev.get_set_apart _ _ _ _ hfits (by simp [Fld.apart, F.hrtGlbAerrCode, F.hrtGlbAerrCord]), Dev.get_set_self _ _ _ hfits]
  exact Nat.mod_eq_of_lt hc

/-- An access error changes its own register and REG_REJECT alone (R428, R457). -/
theorem Dev.accessError_only (d : Dev) (c a : Nat) (wr : Bool) : d.Only [R.hrtGlbAerr] [0x01] (d.accessError c a wr) := by
  rw [Dev.accessError_eq]
  have hmark : d.Only [R.hrtGlbAerr] [0x01] ((d.markAerr c a wr).setAerrAdr a) :=
    (d.markAerr_only c a wr [0x01]).congr (Dev.setAerrAdr_keeps _ a).1
  exact hmark.raiseWords _ _ neverRaised_rejection (by simp)

theorem Dev.accessError_convs (d : Dev) (c a : Nat) (wr : Bool) : (d.accessError c a wr).convs = d.convs := by
  rw [Dev.accessError_eq, (Dev.raiseWords_quiet _ _ _ neverRaised_rejection).convs]
  simp [Dev.markAerr]

/-- AERR shows the code of the access error recorded last (R457). -/
theorem Dev.accessError_code (d : Dev) {c : Nat} (hc : c < 2 ^ 8) (a : Nat) (wr : Bool) : (d.accessError c a wr).get F.hrtGlbAerrCode = c := by
  rw [Dev.accessError_eq, Dev.get_congr (Dev.raiseWords_regs _ _ _ neverRaised_rejection)]
  have hapart : F.hrtGlbAerrCode.addr ∉ evtRegs 0x01 := by decide
  have hmark : ∀ e : Dev, (e.evtMark 0x01).get F.hrtGlbAerrCode = e.get F.hrtGlbAerrCode := fun e =>
    congrArg F.hrtGlbAerrCode.of (Dev.reg_evtMark_ne e 0x01 hapart)
  rw [hmark, Dev.get_setAerrAdr, Dev.markAerr_code d hc]

end Sys2Proof.Machine
end

section
/-!
PROOFS. The host's command on the Turuid port (R92, R96): the write of GO, refused or accepted, and each way the command ends.
-/

namespace Sys2Proof.Machine

/-! ### The write of GO -/

/-- The decoder's answer for CVx_TRD_CMD. -/
theorem decodeAddr_cvTrdCmd {w : Fin 2} {r : RegAt} (h : decodeAddr (R.cvTrdCmd w) = some r) :
    r.row.name = .cvTrdCmd ∧ r.ci = w ∧ r.row.group = some .line := by
  have hmap : (decodeAddr (R.cvTrdCmd w)).map (fun r => (r.row.name, r.ci, r.row.group)) = some (.cvTrdCmd, w.val, some .line) := by
    clear h; revert w; decide +kernel
  rw [h] at hmap
  simpa using hmap

theorem cordOf_cvTrdCmd (w : Fin 2) : cordOf (R.cvTrdCmd w) = 4 + w := by
  simp only [cordOf, R.cvTrdCmd]
  omega

theorem emberOfs_cvTrdCmd (w : Fin 2) : emberOfs (R.cvTrdCmd w) = none := by
  revert w; decide

/-- The register table's checks of CMD see the registers alone: no field of it is of type RWQ. -/
theorem Dev.tableCode_cvTrdCmd_congr {d e : Dev} {r : RegAt} (hn : r.row.name = .cvTrdCmd) (h : e.regs = d.regs) (a : Nat) (v : Word)
    (quiet : Bool) : e.tableCode a r v quiet = d.tableCode a r v quiet := by
  simp [Dev.tableCode, Dev.quiesced, hn, Dev.reg_congr h]

theorem cvTrdCmd_go_put (w : Nat) (v : Word) : (F.cvTrdCmdGo w).of ((F.cvTrdCmdGo w).put v 1) = 1 :=
  Fld.of_put _ v 1 (by simp [F.cvTrdCmdGo])

theorem cvTrdCmd_type_put (w : Nat) (v : Word) : (F.cvTrdCmdType w).of ((F.cvTrdCmdGo w).put v 1) = (F.cvTrdCmdType w).of v :=
  Fld.of_put_apart _ _ v 1 (by simp [F.cvTrdCmdType]) (by simp [F.cvTrdCmdType, F.cvTrdCmdGo])

/-- The chapter's check of a write of GO (R96): the range of TYPE, then BUSY and the laser loop of the serving engine. -/
theorem Dev.trdCheck_go (d : Dev) (w : Nat) (v : Word) : d.trdCheck w ((F.cvTrdCmdGo w).put v 1)
    = if (F.cvTrdCmdType w).of v = 15 then 9
      else if d.flag (F.cvTrdStatBusy w)
        || ((F.cvTrdCmdType w).of v == 1 && (d.serving w).any fun e => d.flag (F.leRxcLsrcfgEn e)) then 10
      else 0 := by
  cases hs : d.serving w <;> simp [Dev.trdCheck, cvTrdCmd_go_put, cvTrdCmd_type_put, hs]

/-- A busy port, and a LASER_FT while the serving engine's laser loop is on, refuse GO (R96). -/
theorem Dev.trdCheck_refused {d : Dev} {w : Nat} {v : Word} (ht : (F.cvTrdCmdType w).of v ≠ 15)
    (h : d.get (F.cvTrdStatBusy w) = 1
      ∨ ((F.cvTrdCmdType w).of v = 1 ∧ ∃ e, d.serving w = some e ∧ d.get (F.leRxcLsrcfgEn e) = 1)) :
    d.trdCheck w ((F.cvTrdCmdGo w).put v 1) = 10 := by
  rw [Dev.trdCheck_go, if_neg ht]
  rcases h with hbusy | ⟨h1, e, he, hen⟩
  · simp [Dev.flag, hbusy]
  · simp [Dev.flag, h1, he, hen]

/-- Nothing of R96 refuses GO on an idle port, but for a LASER_FT with the loop on. -/
theorem Dev.trdCheck_accepted {d : Dev} {w : Nat} {v : Word} (ht : (F.cvTrdCmdType w).of v ≠ 15) (hb : d.get (F.cvTrdStatBusy w) = 0)
    (hl : (F.cvTrdCmdType w).of v = 1 → ∀ e, d.serving w = some e → d.get (F.leRxcLsrcfgEn e) = 0) :
    d.trdCheck w ((F.cvTrdCmdGo w).put v 1) = 0 := by
  rw [Dev.trdCheck_go, if_neg ht]
  by_cases h1 : (F.cvTrdCmdType w).of v = 1
  · cases hs : d.serving w with
    | none => simp [Dev.flag, hb]
    | some e => simp [Dev.flag, hb, hl h1 e hs]
  · simp [Dev.flag, hb, h1]

/-- The code a host write of CMD meets once the register table's checks have passed. -/
theorem Dev.writeCode_cvTrdCmd {d : Dev} {w : Fin 2} {r : RegAt} {v : Word} (hr : decodeAddr (R.cvTrdCmd w) = some r)
    (hx : d.expert (some .line) = true) (ht : d.tableCode (R.cvTrdCmd w) r v false = 0) :
    d.writeCode (R.cvTrdCmd w) r v true
      = if d.trdCheck w v ≠ 0 then d.trdCheck w v else if d.withheld (R.cvTrdCmd w) r v then 10 else 0 := by
  obtain ⟨hn, hi, hg⟩ := decodeAddr_cvTrdCmd hr
  have hc : d.chapterCode r v = d.trdCheck w v := by simp [Dev.chapterCode, hn, hi]
  simp [Dev.writeCode, hg, hx, ht, hc]

/-- What waits and what was sent bear on no check of CMD. -/
theorem Dev.writeCode_cvTrdCmd_unmoved (d : Dev) {w : Fin 2} {r : RegAt} (hr : decodeAddr (R.cvTrdCmd w) = some r) (l : List Access) (v : Word) :
    ((d.setOut []).setWaiting l).writeCode (R.cvTrdCmd w) r v true = d.writeCode (R.cvTrdCmd w) r v true := by
  obtain ⟨hn, -, -⟩ := decodeAddr_cvTrdCmd hr
  unfold Dev.writeCode
  rw [Dev.tableCode_cvTrdCmd_congr hn (show ((d.setOut []).setWaiting l).regs = d.regs from rfl)]
  simp only [Dev.chapterCode, hn]
  rfl

/-- A write of GO that the chapter refuses ends with its code, shown in AERR, and moves nothing of the port. -/
theorem execTrdGo_refused {w : Fin 2} {v : Word} {r : RegAt} {s : State} {c : Nat} (ha : s.dev.Answers (R.cvTrdCmd w))
    (hr : decodeAddr (R.cvTrdCmd w) = some r) (hx : s.dev.expert (some .line) = true)
    (ht : s.dev.tableCode (R.cvTrdCmd w) r ((F.cvTrdCmdGo w).put v 1) false = 0)
    (hc : s.dev.trdCheck w ((F.cvTrdCmdGo w).put v 1) = c) (h5 : 5 < c) (h8 : c < 2 ^ 8) :
    ∃ t, exec (.trdGo w v) s = .next t ∧ t.outputs.head? = some (.writeDone (R.cvTrdCmd w) c) ∧ t.dev.convs = s.dev.convs
      ∧ t.dev.get F.hrtGlbAerrCode = c ∧ s.dev.Only [R.hrtGlbAerr] [0x01] t.dev := by
  obtain ⟨l, t, hnext, hregs, hconvs, hout⟩ := State.hostWrite_of_answers ha ((F.cvTrdCmdGo w).put v 1)
  have hcode : ((s.dev.setOut []).setWaiting l).writeCode (R.cvTrdCmd w) r ((F.cvTrdCmdGo w).put v 1) true = c := by
    rw [Dev.writeCode_cvTrdCmd_unmoved _ hr, Dev.writeCode_cvTrdCmd hr hx ht, hc, if_pos (by omega)]
  have hp : ((s.dev.setOut []).setWaiting l).pathCode (R.cvTrdCmd w) 4 = 0 := ha.pathCode
  rw [Dev.writeAccess_refused hp (emberOfs_cvTrdCmd w) hr hcode (by omega) (by omega) (by omega)] at hregs hconvs hout
  refine ⟨t, hnext, by rw [hout]; rfl, hconvs.trans (Dev.accessError_convs _ _ _ _), ?_, ?_⟩
  · exact (Dev.get_congr hregs _).trans (Dev.accessError_code _ h8 _ _)
  · exact Dev.Only.congr (Dev.accessError_only ((s.dev.setOut []).setWaiting l) _ _ _) hregs

/-- The device as an accepted write of GO leaves it: the register stored, the command waiting, BUSY set. -/
theorem Dev.writeAccess_cvTrdCmd {d : Dev} {w : Fin 2} {r : RegAt} {v : Word} (hp : d.pathCode (R.cvTrdCmd w) 4 = 0)
    (hr : decodeAddr (R.cvTrdCmd w) = some r) (hc : d.writeCode (R.cvTrdCmd w) r v true = 0) (fz : Fuses) (written : List (BitVec 64)) :
    d.writeAccess fz (R.cvTrdCmd w) 4 v written
      = ((d.setReg (R.cvTrdCmd w) (r.row.merge (d.reg (R.cvTrdCmd w)) v)).trdGo w v).emit (.writeDone (R.cvTrdCmd w) 0) := by
  obtain ⟨hn, hi, -⟩ := decodeAddr_cvTrdCmd hr
  have hring : ¬ R.pciRxgBaselo 0 ≤ R.cvTrdCmd w := by simp only [R.pciRxgBaselo, R.cvTrdCmd]; omega
  simp [Dev.writeAccess, hp, emberOfs_cvTrdCmd, hr, Dev.regWrite, hc, Dev.sysWrite, Dev.applyWrite, Dev.writeGo, hn, hi, hring]

/-- An accepted GO sets BUSY, and the host's command waits with the argument copied (R96). -/
theorem Dev.trdGo_go {d : Dev} {w : Nat} (v : Word) : (d.trdGo w ((F.cvTrdCmdGo w).put v 1)).get (F.cvTrdStatBusy w) = 1
    ∧ ((d.trdGo w ((F.cvTrdCmdGo w).put v 1)).conv w).waitHost = some ((F.cvTrdCmdType w).of v, d.get (F.cvTrdArgArg w))
    ∧ (d.trdGo w ((F.cvTrdCmdGo w).put v 1)).out = d.out := by
  have hgo : d.trdGo w ((F.cvTrdCmdGo w).put v 1)
      = (d.setConv w fun c => { c with waitHost := some ((F.cvTrdCmdType w).of v, d.get (F.cvTrdArgArg w)) }).set (F.cvTrdStatBusy w) 1 := by
    simp [Dev.trdGo, cvTrdCmd_go_put, cvTrdCmd_type_put]
  rw [hgo]
  exact ⟨Dev.get_set_self _ _ _ (by simp [Fld.fits, F.cvTrdStatBusy]), by simp, rfl⟩

/-- A released cord withholds no write of CMD, which is no traffic enable. -/
theorem Dev.withheld_cvTrdCmd {d : Dev} {w : Fin 2} {r : RegAt} (h : d.cordSt (4 + w) = 3) (v : Word) :
    d.withheld (R.cvTrdCmd w) r v = false := by
  simp [Dev.withheld, cordOf_cvTrdCmd, Dev.released, h]

/-- A write of GO that no check refuses. -/
theorem execTrdGo_accepted {w : Fin 2} {v : Word} {r : RegAt} {s : State} (ha : s.dev.Answers (R.cvTrdCmd w))
    (hr : decodeAddr (R.cvTrdCmd w) = some r) (hx : s.dev.expert (some .line) = true)
    (ht : s.dev.tableCode (R.cvTrdCmd w) r ((F.cvTrdCmdGo w).put v 1) false = 0) (hst : s.dev.cordSt (4 + w) = 3)
    (hc : s.dev.trdCheck w ((F.cvTrdCmdGo w).put v 1) = 0) :
    ∃ t, exec (.trdGo w v) s = .next t ∧ t.outputs = .writeDone (R.cvTrdCmd w) 0 :: s.outputs ∧ t.dev.get (F.cvTrdStatBusy w) = 1
      ∧ (t.dev.conv w).waitHost = some ((F.cvTrdCmdType w).of v, s.dev.get (F.cvTrdArgArg w)) := by
  obtain ⟨l, t, hnext, hregs, hconvs, hout⟩ := State.hostWrite_of_answers ha ((F.cvTrdCmdGo w).put v 1)
  have hcode : ((s.dev.setOut []).setWaiting l).writeCode (R.cvTrdCmd w) r ((F.cvTrdCmdGo w).put v 1) true = 0 := by
    simp [Dev.writeCode_cvTrdCmd_unmoved _ hr, Dev.writeCode_cvTrdCmd hr hx ht, hc, Dev.withheld_cvTrdCmd hst]
  have hp : ((s.dev.setOut []).setWaiting l).pathCode (R.cvTrdCmd w) 4 = 0 := ha.pathCode
  rw [Dev.writeAccess_cvTrdCmd hp hr hcode] at hregs hconvs hout
  obtain ⟨hbusy, hwait, hsame⟩ := Dev.trdGo_go (w := w) (d := ((s.dev.setOut []).setWaiting l).setReg (R.cvTrdCmd w)
    (r.row.merge (((s.dev.setOut []).setWaiting l).reg (R.cvTrdCmd w)) ((F.cvTrdCmdGo w).put v 1))) v
  refine ⟨t, hnext, ?_, ?_, ?_⟩
  · rw [hout]
    exact congrArg (fun o => (Output.writeDone (R.cvTrdCmd w) 0 :: o) ++ s.outputs) hsame
  · exact (Dev.get_congr hregs _).trans hbusy
  · rw [Dev.conv_congr hconvs]
    refine hwait.trans ?_
    rw [Dev.get_setReg_ne _ _ _ _ (by simp [F.cvTrdArgArg, R.cvTrdArg, R.cvTrdCmd])]
    rfl

/-! ### The end of the command -/

/-- The command of the host on a port has ended: nothing is in flight, BUSY is clear, and RESULT shows the outcome. -/
structure Dev.HostEnded (d : Dev) (w res : Nat) : Prop where
  flight : (d.conv w).flight = none
  busy : d.get (F.cvTrdStatBusy w) = 0
  result : d.get (F.cvTrdStatResult w) = res

section
variable {d e : Dev} {w res : Nat}

/-- A change that keeps what is in flight, BUSY and RESULT keeps the end. -/
theorem Dev.HostEnded.of_kept (h : d.HostEnded w res) (hf : (e.conv w).flight = (d.conv w).flight)
    (hb : e.get (F.cvTrdStatBusy w) = d.get (F.cvTrdStatBusy w)) (hr : e.get (F.cvTrdStatResult w) = d.get (F.cvTrdStatResult w)) :
    e.HostEnded w res :=
  ⟨hf.trans h.flight, hb.trans h.busy, hr.trans h.result⟩

theorem Dev.HostEnded.congr (h : d.HostEnded w res) (hregs : e.regs = d.regs) (hconvs : e.convs = d.convs) : e.HostEnded w res :=
  h.of_kept (by rw [Dev.conv_congr hconvs]) (Dev.get_congr hregs _) (Dev.get_congr hregs _)

/-- RESULT and BUSY are written once nothing is in flight. -/
theorem Dev.HostEnded.of_trdResult (h : (d.conv w).flight = none) (hres : res < 2 ^ 3) : (d.trdResult w .host res).HostEnded w res where
  flight := h
  busy := by
    change ((d.set _ 0).set _ res).get _ = 0
    rw [Dev.get_set_apart _ _ _ _ (by simp [Fld.fits, F.cvTrdStatBusy]) (by simp [Fld.apart, F.cvTrdStatBusy, F.cvTrdStatResult])]
    exact Dev.get_set_self _ _ _ (by simp [Fld.fits, F.cvTrdStatBusy])
  result := (Dev.get_set_self _ _ _ (by simp [Fld.fits, F.cvTrdStatResult])).trans (Nat.mod_eq_of_lt hres)

theorem Dev.HostEnded.set (h : d.HostEnded w res) (f : Fld) (x : Nat) (hb : f.apart (F.cvTrdStatBusy w))
    (hr : f.apart (F.cvTrdStatResult w)) : (d.set f x).HostEnded w res :=
  h.of_kept rfl (Dev.get_set_apart _ _ _ _ (by simp [Fld.fits, F.cvTrdStatBusy]) hb)
    (Dev.get_set_apart _ _ _ _ (by simp [Fld.fits, F.cvTrdStatResult]) hr)

/-- No event's registers are those of the port. -/
theorem Dev.HostEnded.raise (h : d.HostEnded w res) (n : Nat) (l : List Nat) : (d.raise n l).HostEnded w res := by
  refine h.of_kept (by rw [Dev.conv_congr (Dev.raise_quiet d n l).convs]) (Dev.get_raise d n l ?_) (Dev.get_raise d n l ?_)
  · simp only [F.cvTrdStatBusy, R.cvTrdStat]; omega
  · simp only [F.cvTrdStatResult, R.cvTrdStat]; omega

theorem Dev.HostEnded.rxEvent (h : d.HostEnded w res) (g c : Nat) (l : List Nat) : (d.rxEvent g c l).HostEnded w res := by
  unfold Dev.rxEvent
  cases d.engWl g with
  | none => exact h
  | some v => exact Dev.when_keeps (P := (·.HostEnded w res)) _ _ _ h fun h => h.raise _ _

/-- A run of failures that takes the link down leaves the end as it is (R95). -/
theorem Dev.HostEnded.trdDown (h : d.HostEnded w res) : (d.trdDown w).HostEnded w res :=
  Dev.when_keeps (P := (·.HostEnded w res)) _ _ _ h fun h =>
    (h.set (F.cvTrdStatLinkup w) 0 (by simp [Fld.apart, F.cvTrdStatBusy, F.cvTrdStatLinkup])
      (by simp [Fld.apart, F.cvTrdStatResult, F.cvTrdStatLinkup])).raise _ _

/-- The report of a failed laser fine-tune leaves the end as it is (R101). -/
theorem Dev.HostEnded.trdReportFail (h : d.HostEnded w res) (cmd : Nat) (timeout : Bool) :
    (d.trdReportFail w .host cmd timeout).HostEnded w res := by
  unfold Dev.trdReportFail
  dsimp only
  cases d.serving w with
  | none => exact h
  | some g =>
    have hne : R.leRxcStat g ≠ R.cvTrdStat w := by simp only [R.leRxcStat, R.cvTrdStat]; omega
    exact Dev.when_keeps (P := (·.HostEnded w res)) _ _ _ h fun h =>
      (h.set (F.leRxcStatLaserfail g) 1 (.inl hne) (.inl hne)).rxEvent _ _ _

/-- The settle time that an acknowledged LASER_FT starts leaves the end as it is (R94). -/
theorem Dev.HostEnded.hostAcked (h : d.HostEnded w res) (cmd : Nat) : (d.hostAcked w cmd).HostEnded w res :=
  Dev.when_keeps (P := (·.HostEnded w res)) _ _ _ h fun h =>
    Dev.each_keeps (P := (·.HostEnded w res)) _ (fun d g => d.setEng g fun x => { x with laserOut := none, winOpen := false })
      (fun _ _ _ h => h.congr rfl rfl) _ (h.of_kept (by simp) rfl rfl)

end

/-- A bad reply or a timeout ends the command: `f` is the count of its kind, `n` its event. -/
theorem Dev.hostEnded_of_failure (d : Dev) {w res : Nat} (hres : res < 2 ^ 3) (f : Fld) (n : Nat) (l : List Nat)
    (hb : f.apart (F.cvTrdStatBusy w)) (hr : f.apart (F.cvTrdStatResult w)) (cmd : Nat) (timeout : Bool) :
    (((((d.trdFail w).trdResult w .host res).count f 1).raise n l).trdDown w |>.trdReportFail w .host cmd timeout).HostEnded w res := by
  have hfail : ((d.trdFail w).conv w).flight = none := by simp [Dev.trdFail]
  exact ((((Dev.HostEnded.of_trdResult hfail hres).set f _ hb hr).raise n l).trdDown).trdReportFail cmd timeout

/-- A good reply of the host's command, before a NAK is counted: LINKUP, RESULT and the reply's argument are written. -/
theorem Dev.hostEnded_of_goodReply (d : Dev) {w ty : Nat} (arg : Nat) (hty : ty ≤ 1) :
    ((((d.setConv w fun c => { c with flight := none, fails := 0 }).set (F.cvTrdStatLinkup w) 1).trdResult w .host (1 + ty)).set
      (F.cvTrdRspArg w) arg).HostEnded w (1 + ty) := by
  have hflight : (((d.setConv w fun c => { c with flight := none, fails := 0 }).set (F.cvTrdStatLinkup w) 1).conv w).flight = none := by
    simp
  have hne : R.cvTrdRsp w ≠ R.cvTrdStat w := by simp [R.cvTrdRsp, R.cvTrdStat]
  exact (Dev.HostEnded.of_trdResult hflight (by omega)).set _ _ (.inl hne) (.inl hne)

/-- A command that leaves the host's ended leaves a state that shows it. -/
theorem State.run_hostEnded {s : State} {f : Fuses → Dev → Dev} {w res : Nat} (h : (f s.fuses (s.dev.setOut [])).HostEnded w res) :
    ∃ t, s.run f = .next t ∧ t.dev.HostEnded w res := by
  obtain ⟨t, hnext, hregs, hconvs, -⟩ := State.run_shows s f
  exact ⟨t, hnext, h.congr hregs hconvs⟩

/-- A reply ends the command: RESULT is 1 for ACK and 2 for NAK of a good one, and 4 for a bad one (R92). -/
theorem execTuruidReply_ends {w : Fin 2} {cmd : Nat} {s : State} (h : (s.dev.conv w).flight = some (.host, cmd)) (frame : BitVec 48) :
    ∃ t, exec (.turuidReply w frame) s = .next t ∧ t.dev.HostEnded w
      (if crc8 0xFF (bitsOf 40 (frame.toNat / 256)) = frame.toNat % 256 ∧ frame.toNat / 2 ^ 40 % 16 = cmd / 2 ^ 40 % 16
        ∧ frame.toNat / 2 ^ 44 ≤ 1 then 1 + frame.toNat / 2 ^ 44 else 4) := by
  have hflight : ((s.dev.setOut []).conv w).flight = some (.host, cmd) := h
  change ∃ t, execTuruidReply w frame s = .next t ∧ _
  refine State.run_hostEnded ?_
  simp only [hflight, Bool.and_eq_true, decide_eq_true_eq, and_assoc]
  by_cases hgood : crc8 0xFF (bitsOf 40 (frame.toNat / 256)) = frame.toNat % 256 ∧ frame.toNat / 2 ^ 40 % 16 = cmd / 2 ^ 40 % 16
    ∧ frame.toNat / 2 ^ 44 ≤ 1
  · rw [if_pos hgood, if_pos hgood]
    obtain ⟨-, -, hty⟩ := hgood
    have hend := (s.dev.setOut []).hostEnded_of_goodReply (w := w) (frame.toNat / 256 % 2 ^ 32) hty
    generalize frame.toNat / 2 ^ 44 = ty at hty hend ⊢
    simp only [beq_self_eq_true, Dev.when_true]
    obtain rfl | rfl : ty = 0 ∨ ty = 1 := by omega
    · exact hend.hostAcked cmd
    · simp only [if_true, Nat.reduceBEq, Dev.when_false]
      exact (hend.set _ _ (by simp [Fld.apart, F.cvTrdStatNakcnt, F.cvTrdStatBusy])
        (by simp [Fld.apart, F.cvTrdStatNakcnt, F.cvTrdStatResult])).raise _ _
  · rw [if_neg hgood, if_neg hgood]
    exact Dev.hostEnded_of_failure _ (by decide) _ _ _ (by simp [Fld.apart, F.cvTrdStatBadcnt, F.cvTrdStatBusy])
      (by simp [Fld.apart, F.cvTrdStatBadcnt, F.cvTrdStatResult]) cmd false

/-- A timeout ends the command with RESULT 3 (R92). -/
theorem execTuruidTimeout_ends {w : Fin 2} {cmd : Nat} {s : State} (h : (s.dev.conv w).flight = some (.host, cmd)) :
    ∃ t, exec (.turuidTimeout w) s = .next t ∧ t.dev.HostEnded w 3 := by
  have hflight : ((s.dev.setOut []).conv w).flight = some (.host, cmd) := h
  change ∃ t, execTuruidTimeout w s = .next t ∧ _
  refine State.run_hostEnded ?_
  simp only [hflight]
  exact Dev.hostEnded_of_failure _ (by decide) _ _ _ (by simp [Fld.apart, F.cvTrdStatTocnt, F.cvTrdStatBusy])
    (by simp [Fld.apart, F.cvTrdStatTocnt, F.cvTrdStatResult]) cmd true

/-- Settles O7: GO is refused by the chapter's check alone or taken as R96 says, and a reply or a timeout ends the command. -/
theorem theHostsTuruidCommandRuns : Obligations.TheHostsTuruidCommandRuns := by
  refine ⟨?_, ?_, ?_, ?_, ?_⟩
  · intro w v r s ha hr hx ht hty hbusy
    exact execTrdGo_refused ha hr hx ht (Dev.trdCheck_refused hty hbusy) (by decide) (by decide)
  · intro w v r s ha hr hx ht hty
    exact execTrdGo_refused ha hr hx ht ((s.dev.trdCheck_go w v).trans (if_pos hty)) (by decide) (by decide)
  · intro w v r s ha hr hx ht hst hty hb hl
    exact execTrdGo_accepted ha hr hx ht hst (Dev.trdCheck_accepted hty hb hl)
  · intro w frame cmd s h
    obtain ⟨t, hnext, hend⟩ := execTuruidReply_ends h frame
    exact ⟨t, hnext, hend.flight, hend.busy, hend.result⟩
  · intro w cmd s h
    obtain ⟨t, hnext, hend⟩ := execTuruidTimeout_ends h
    exact ⟨t, hnext, hend.flight, hend.busy, hend.result⟩

end Sys2Proof.Machine
end

section
/-!
PROOFS. What a change of the activation state does (R142), and ASSIGN_ID on it (R145): taken with the terminal's serial
number in DISCOVERY, ignored with another or in another state.
-/

namespace Sys2Proof.Machine

/-! ### Events among other changes -/

/-- No shared-fibre event is among the sources never raised (R172, R459). -/
theorem neverRaised_sharedFibre {n : Nat} (hlo : 0x70 ≤ n) (hhi : n < 0x90) : neverRaised n = false := by
  simp only [neverRaised, Bool.or_eq_false_iff, Bool.and_eq_false_iff, decide_eq_false_iff_not]
  omega

/-- Whether an event shows as raised depends on CTL of its source alone, so changes elsewhere before and after the raise do not hide it. -/
theorem Dev.Raised.of_ctl {n : Nat} {d d' e e' : Dev} (h : d.Raised n e) (hd : d'.reg (R.hrtEvtSrcCtl n) = d.reg (R.hrtEvtSrcCtl n))
    (he : e'.reg (R.hrtEvtSrcCtl n) = e.reg (R.hrtEvtSrcCtl n)) : d'.Raised n e' := by
  obtain ⟨hstat, hcount⟩ := h
  refine ⟨(congrArg (F.hrtEvtSrcCtlStat n).of he).trans hstat, ?_⟩
  calc e'.get (F.hrtEvtSrcCtlCount n) = e.get (F.hrtEvtSrcCtlCount n) := congrArg (F.hrtEvtSrcCtlCount n).of he
    _ = satAdd 16 (d.get (F.hrtEvtSrcCtlCount n)) 1 := hcount
    _ = satAdd 16 (d'.get (F.hrtEvtSrcCtlCount n)) 1 := congrArg (fun v => satAdd 16 ((F.hrtEvtSrcCtlCount n).of v) 1) hd.symm

/-- CTL of a source is none of another source's registers. -/
theorem evtCtl_notMem_evtRegs {m n : Nat} (h : m ≠ n) : R.hrtEvtSrcCtl n ∉ evtRegs m := by
  simp only [evtRegs, R.hrtEvtSrcCtl, R.hrtEvtSrcFirstns, R.hrtEvtSrcFirstw, List.mem_cons, List.not_mem_nil, or_false]
  omega

/-- A register beyond the block of event sources is none of a source's. -/
theorem notMem_evtRegs_of_outside {a n : Nat} (ha : 0x81000 ≤ a) (hn : n < 0x100) : a ∉ evtRegs n := by
  simp only [evtRegs, R.hrtEvtSrcCtl, R.hrtEvtSrcFirstns, R.hrtEvtSrcFirstw, List.mem_cons, List.not_mem_nil, or_false]
  omega

/-- The raise of one event leaves that of another shown. -/
theorem Dev.Raised.raise_ne {m n : Nat} {d e : Dev} (h : d.Raised n e) (hne : m ≠ n) (l : List Nat) : d.Raised n (e.raise m l) :=
  h.of_ctl rfl (Dev.reg_raise_ne e m l (evtCtl_notMem_evtRegs hne))

/-! ### The activation state -/

@[simp] theorem Dev.askDecode_regs (d : Dev) (w m : Nat) : (d.askDecode w m).regs = d.regs :=
  Dev.each_keeps (P := fun e => e.regs = d.regs) _ (fun e g => e.setEng g fun x => { x with pendDecode := some m })
    (fun _ _ _ h => h) _ rfl

/-- A change of the activation state shows the new one, raises ACT_STATE, and changes no other register (R142, R172). -/
theorem Dev.setAct_enters {d : Dev} {w st : Nat} (hw : w < 2) (hst : st < 8) (h : d.get (F.lfActStatState w) ≠ st) :
    (d.setAct w st).get (F.lfActStatState w) = st ∧ d.Raised (0x70 + w) (d.setAct w st)
      ∧ d.Only [R.lfActStat w] [0x70 + w] (d.setAct w st) := by
  obtain ⟨e, heq, hregs⟩ : ∃ e : Dev, d.setAct w st = e.raise (0x70 + w) [R.lfActStat w]
      ∧ e.regs = (d.set (F.lfActStatState w) st).regs := ⟨_, if_neg h, Dev.askDecode_regs _ _ _⟩
  have hctl : d.reg (R.hrtEvtSrcCtl (0x70 + w)) = e.reg (R.hrtEvtSrcCtl (0x70 + w)) := by
    rw [Dev.reg_congr hregs, Dev.reg_set_ne]
    simp only [R.hrtEvtSrcCtl, F.lfActStatState, R.lfActStat]
    omega
  rw [heq]
  refine ⟨?_, ?_, ?_⟩
  · rw [Dev.get_raise _ _ _ (.inr (by simp only [F.lfActStatState, R.lfActStat]; omega)), Dev.get_congr hregs,
      Dev.get_set_self _ _ _ (by simp [Fld.fits, F.lfActStatState])]
    exact Nat.mod_eq_of_lt hst
  · exact (Dev.raised_raise e _ _ (neverRaised_sharedFibre (by omega) (by omega))).of_ctl hctl rfl
  · have hset : d.Only [R.lfActStat w] [0x70 + w] (d.set (F.lfActStatState w) st) :=
      (Dev.Only.refl _ _ d).set _ _ (by simp [F.lfActStatState])
    exact (hset.congr hregs).raise _ _ (by simp)

/-- A message in leaf mode that the check of its fields passes acts in the states it is for, and in no other (R138). -/
theorem Dev.leafMessage_of_leaf {d : Dev} {w : Nat} (hleaf : (d.wave w).leaf = true) (states : List Nat) (f : Dev → Dev) :
    d.leafMessage w states false f = if states.contains (d.get (F.lfActStatState w)) then f d else d := by
  simp [Dev.leafMessage, hleaf]

/-- A command whose effect leaves the device as it is sends nothing. -/
theorem State.run_unchanged {s : State} {f : Fuses → Dev → Dev} (h : f s.fuses (s.dev.setOut []) = s.dev.setOut []) :
    ∃ t, s.run f = .next t ∧ t.dev = { s.dev with out := [] } ∧ t.outputs = s.outputs := by
  refine ⟨_, State.run_quiet s f (by rw [h]; rfl), ?_, ?_⟩ <;> simp only [h] <;> rfl

/-! ### ASSIGN_ID -/

/-- The terminal holds a TID, and what was announced, skipped or granted before is void. -/
def Dev.takeTid (d : Dev) (w tid : Nat) : Dev :=
  (d.set (F.lfActIdTid w) tid).setWave w fun v => { v with announced := false, skip := 0, grants := [] }

theorem Dev.reg_takeTid_ne (d : Dev) {w a : Nat} (tid : Nat) (h : a ≠ R.lfActId w) : (d.takeTid w tid).reg a = d.reg a :=
  Dev.reg_set_ne d tid h

theorem Dev.takeTid_tid (d : Dev) (w : Nat) {tid : Nat} (h : tid < 2 ^ 12) : (d.takeTid w tid).get (F.lfActIdTid w) = tid :=
  (Dev.get_set_self d _ tid (by simp [Fld.fits, F.lfActIdTid])).trans (Nat.mod_eq_of_lt h)

/-- In leaf mode, with a TID of 1 to 0xFFE, which the check of R141 passes, ASSIGN_ID acts in DISCOVERY on the terminal's own
serial number and nowhere else (R145). -/
theorem Dev.assignId_checked {d : Dev} {w tid : Nat} (hleaf : (d.wave w).leaf = true) (h0 : tid ≠ 0) (hlt : tid < 0xFFF) (fz : Fuses)
    (serial : Nat) : d.assignId fz w serial tid
      = if d.get (F.lfActStatState w) = 2 ∧ serial = fz.serial then ((d.takeTid w tid).setAct w 3).raise (0x74 + w) [R.lfActId w]
        else d := by
  have hgood : (tid == 0 || decide (0xFFF ≤ tid)) = false := by simp [h0, hlt]
  rw [Dev.assignId, hgood, Dev.leafMessage_of_leaf hleaf]
  by_cases hst : d.get (F.lfActStatState w) = 2
  · simp only [hst, true_and]
    rfl
  · simp [hst]

/-- A TID taken in DISCOVERY takes the terminal to RANGING, with both events raised and no other register touched (R145). -/
theorem Dev.takeTid_entersRanging {d : Dev} {w tid : Nat} (hw : w < 2) (hst : d.get (F.lfActStatState w) = 2) (htid : tid < 2 ^ 12)
    {t : Dev} (ht : t.regs = (((d.takeTid w tid).setAct w 3).raise (0x74 + w) [R.lfActId w]).regs) :
    t.get (F.lfActStatState w) = 3 ∧ t.get (F.lfActIdTid w) = tid ∧ d.Raised (0x70 + w) t ∧ d.Raised (0x74 + w) t
      ∧ d.Only [R.lfActStat w, R.lfActId w] [0x70 + w, 0x74 + w] t := by
  have hstate : (d.takeTid w tid).get (F.lfActStatState w) = 2 := by
    rw [Dev.get, Dev.reg_takeTid_ne d tid (by simp only [F.lfActStatState, R.lfActStat, R.lfActId]; omega)]
    exact hst
  obtain ⟨hranging, hact, honly⟩ := Dev.setAct_enters (d := d.takeTid w tid) (st := 3) hw (by decide) (by omega)
  have hctl : ∀ n < 0x100, d.reg (R.hrtEvtSrcCtl n) = (d.takeTid w tid).reg (R.hrtEvtSrcCtl n) := fun n hn =>
    (Dev.reg_takeTid_ne d tid (by simp only [R.hrtEvtSrcCtl, R.lfActId]; omega)).symm
  have hactCtl : ((d.takeTid w tid).setAct w 3).reg (R.hrtEvtSrcCtl (0x74 + w)) = (d.takeTid w tid).reg (R.hrtEvtSrcCtl (0x74 + w)) :=
    honly _ (by simp only [List.mem_singleton, R.hrtEvtSrcCtl, R.lfActStat]; omega)
      (List.forall_mem_singleton.2 (evtCtl_notMem_evtRegs (by omega)))
  have hactTid : ((d.takeTid w tid).setAct w 3).get (F.lfActIdTid w) = (d.takeTid w tid).get (F.lfActIdTid w) :=
    congrArg (F.lfActIdTid w).of (honly _ (by simp only [List.mem_singleton, F.lfActIdTid, R.lfActId, R.lfActStat]; omega)
      (List.forall_mem_singleton.2 (notMem_evtRegs_of_outside (by simp only [F.lfActIdTid, R.lfActId]; omega) (by omega))))
  refine ⟨?_, ?_, ?_, ?_, ?_⟩
  · rw [Dev.get_congr ht, Dev.get_raise _ _ _ (.inr (by simp only [F.lfActStatState, R.lfActStat]; omega)), hranging]
  · rw [Dev.get_congr ht, Dev.get_raise _ _ _ (.inr (by simp only [F.lfActIdTid, R.lfActId]; omega)), hactTid,
      Dev.takeTid_tid d w htid]
  · exact (hact.raise_ne (by omega) _).of_ctl (hctl _ (by omega)) (Dev.reg_congr ht _)
  · exact (Dev.raised_raise _ _ _ (neverRaised_sharedFibre (by omega) (by omega))).of_ctl
      ((hctl _ (by omega)).trans hactCtl.symm) (Dev.reg_congr ht _)
  · have htake : d.Only [R.lfActStat w, R.lfActId w] [0x70 + w, 0x74 + w] (d.takeTid w tid) := fun a ha _ =>
      Dev.reg_takeTid_ne d tid fun h => ha (by simp [h])
    have hmove := htake.trans (honly.mono (l' := [R.lfActStat w, R.lfActId w]) (evs' := [0x70 + w, 0x74 + w]) (by simp) (by simp))
    exact (hmove.raise (0x74 + w) [R.lfActId w] (by simp)).congr ht

/-- An ASSIGN_ID with another serial number, or delivered outside DISCOVERY, changes nothing (R145). -/
theorem execAssignId_ignored {w : Fin 2} {serial : BitVec 64} {tid : BitVec 16} {s : State} (hleaf : (s.dev.wave w).leaf = true)
    (h0 : tid.toNat ≠ 0) (hlt : tid.toNat < 0xFFF) (h : ¬(s.dev.get (F.lfActStatState w) = 2 ∧ serial.toNat = s.fuses.serial)) :
    ∃ t, exec (.assignId w serial tid) s = .next t ∧ t.dev = { s.dev with out := [] } ∧ t.outputs = s.outputs :=
  State.run_unchanged (f := fun fz d => d.assignId fz w serial.toNat tid.toNat)
    ((Dev.assignId_checked (d := s.dev.setOut []) hleaf h0 hlt s.fuses serial.toNat).trans (if_neg h))

/-- Settles O12: an ASSIGN_ID takes effect in DISCOVERY with the terminal's own serial number, and is ignored otherwise. -/
theorem assignIdTakesEffectOnDelivery : Obligations.AssignIdTakesEffectOnDelivery := by
  refine ⟨?_, ?_, ?_⟩
  · intro w serial tid s hleaf hst hser h0 hlt
    obtain ⟨t, hnext, hregs, -, -⟩ := State.run_shows s fun fz d => d.assignId fz w serial.toNat tid.toNat
    have hleaf' : ((s.dev.setOut []).wave w).leaf = true := hleaf
    have hst' : (s.dev.setOut []).get (F.lfActStatState w) = 2 := hst
    rw [Dev.assignId_checked hleaf' h0 hlt, if_pos ⟨hst', hser⟩] at hregs
    exact ⟨t, hnext, Dev.takeTid_entersRanging w.isLt hst' (by omega) hregs⟩
  · intro w serial tid s hleaf hser h0 hlt
    exact execAssignId_ignored hleaf h0 hlt fun h => hser h.2
  · intro w serial tid s hleaf hst _ h0 hlt
    exact execAssignId_ignored hleaf h0 hlt fun h => hst h.1

end Sys2Proof.Machine
end

section
/-!
PROOFS. A packet offered to the input store of its slice (R224): it joins a store that has room, and a full store turns it
away with a count and an event.
-/

namespace Sys2Proof.Machine

/-! ### The offer -/

/-- The link end without the unit that waited first. -/
def Dev.linkPop (d : Dev) (k : Nat) (rest : List Pkt) : Dev := d.setPkt fun x => { x with links := Tbl.set [] x.links k rest }

/-- A packet joins the input store of a slice and is counted in its PKTS. -/
def Dev.storeJoin (d : Dev) (n : Nat) (p : Pkt) : Dev :=
  (d.setPkt fun x => { x with stores := Tbl.modify [] x.stores n (· ++ [p]) }).count (F.pktSlcPktsCount n) 1

/-- A full input store turns a packet away. -/
def Dev.storeDrop (d : Dev) (n : Nat) : Dev := (d.count (F.pktSlcOvfCount n) 1).raise 0xD2 [R.pktSlcOvf n]

/-- A packet offered to the input store of a slice (R224). -/
def Dev.storeOffer (d : Dev) (n : Nat) (p : Pkt) : Dev :=
  if 256 ≤ (Tbl.get [] d.pkt.stores n).length then d.storeDrop n else d.storeJoin n p

/-- Registers and packet state after a command are those its meaning leaves. -/
theorem State.run_shows_pkt {s : State} {f : Fuses → Dev → Dev} {e : Dev} (h : f s.fuses (s.dev.setOut []) = e) :
    ∃ t, s.run f = .next t ∧ t.dev.regs = e.regs ∧ t.dev.pkt = e.pkt := by
  subst h
  exact ⟨_, State.run_eq s f, rfl, rfl⟩

/-- While PKT carries traffic and no map entry is held, the unit that waits first leaves its link end and is offered to the
slice of its map entry (R222, R224). -/
theorem execPacketArrival_offers {k : Fin 5} {raw q p : Pkt} {rest : List Pkt} {n : Nat} {s : State}
    (hlink : Tbl.get [] s.dev.pkt.links k = raw :: rest) (hrun : s.dev.pkt.run = none) (htraffic : s.dev.trafficOk 8 = true)
    (hq : q = if raw.tsport then raw else { stripTags raw with ts := ⟨s.dev.time.ns, s.dev.time.sub / 256⟩ })
    (hp : p = { q with hash := s.dev.spreadHash q }) (hn : n = s.dev.get (F.pktSprMapSlice (s.dev.spreadEntry p))) :
    ∃ t, exec (.packetArrival k) s = .next t ∧ t.dev.regs = (((s.dev.setOut []).linkPop k rest).storeOffer n p).regs
      ∧ t.dev.pkt = (((s.dev.setOut []).linkPop k rest).storeOffer n p).pkt := by
  subst hq hp hn
  have hlink' : Tbl.get [] (s.dev.setOut []).pkt.links k = raw :: rest := hlink
  have hrun' : (s.dev.setOut []).pkt.run = none := hrun
  have htraffic' : (s.dev.setOut []).trafficOk 8 = true := htraffic
  change ∃ t, execPacketArrival k s = .next t ∧ _
  refine State.run_shows_pkt ?_
  simp only [hlink', hrun', htraffic', Bool.not_true, Bool.false_eq_true, if_false]
  rfl

theorem Dev.linkPop_links (d : Dev) (k : Nat) (rest : List Pkt) : Tbl.get [] (d.linkPop k rest).pkt.links k = rest :=
  Tbl.get_set_self [] d.pkt.links k rest

theorem Dev.storeOffer_room {d : Dev} {n : Nat} (h : (Tbl.get [] d.pkt.stores n).length < 256) (p : Pkt) :
    d.storeOffer n p = d.storeJoin n p := if_neg (Nat.not_le.2 h)

theorem Dev.storeOffer_full {d : Dev} {n : Nat} (h : 256 ≤ (Tbl.get [] d.pkt.stores n).length) (p : Pkt) :
    d.storeOffer n p = d.storeDrop n := if_pos h

/-! ### What joining changes -/

theorem Dev.storeJoin_links (d : Dev) (n : Nat) (p : Pkt) : (d.storeJoin n p).pkt.links = d.pkt.links := rfl

theorem Dev.storeJoin_stores_self (d : Dev) (n : Nat) (p : Pkt) :
    Tbl.get [] (d.storeJoin n p).pkt.stores n = Tbl.get [] d.pkt.stores n ++ [p] := Tbl.get_modify_self [] d.pkt.stores n (· ++ [p])

theorem Dev.storeJoin_stores_ne (d : Dev) {m n : Nat} (p : Pkt) (h : m ≠ n) :
    Tbl.get [] (d.storeJoin n p).pkt.stores m = Tbl.get [] d.pkt.stores m := Tbl.get_modify_ne [] [] d.pkt.stores (· ++ [p]) h

theorem Dev.storeJoin_count (d : Dev) (n : Nat) (p : Pkt) :
    (d.storeJoin n p).get (F.pktSlcPktsCount n) = satAdd 32 (d.get (F.pktSlcPktsCount n)) 1 :=
  Dev.get_count_self _ _ _ (by simp [Fld.fits, F.pktSlcPktsCount])

theorem Dev.storeJoin_only (d : Dev) (n : Nat) (p : Pkt) : d.Only [R.pktSlcPkts n] [] (d.storeJoin n p) :=
  (Dev.Only.of_regs rfl _ _ : d.Only _ _ (d.setPkt _)).set _ _ (by simp [F.pktSlcPktsCount])

/-! ### What turning away changes -/

theorem Dev.storeDrop_pkt (d : Dev) (n : Nat) : (d.storeDrop n).pkt = d.pkt := (Dev.raise_quiet _ _ _).pkt

theorem Dev.storeDrop_count (d : Dev) (n : Nat) :
    (d.storeDrop n).get (F.pktSlcOvfCount n) = satAdd 32 (d.get (F.pktSlcOvfCount n)) 1 := by
  have hout : 0x81000 ≤ (F.pktSlcOvfCount n).addr := by simp only [F.pktSlcOvfCount, R.pktSlcOvf]; omega
  rw [Dev.storeDrop, Dev.get_raise _ _ _ (.inr hout), Dev.get_count_self _ _ _ (by simp [Fld.fits, F.pktSlcOvfCount])]
  rfl

/-- The count of OVF comes before the raise and leaves CTL of the event's source alone. -/
theorem Dev.storeDrop_raised (d : Dev) (n : Nat) : d.Raised 0xD2 (d.storeDrop n) := by
  have hne : R.hrtEvtSrcCtl 0xD2 ≠ (F.pktSlcOvfCount n).addr := by
    simp only [R.hrtEvtSrcCtl, F.pktSlcOvfCount, R.pktSlcOvf]
    omega
  exact (Dev.raised_raise _ _ _ (by decide)).of_ctl (Dev.reg_count_ne d 1 hne).symm rfl

theorem Dev.storeDrop_only (d : Dev) (n : Nat) : d.Only [R.pktSlcOvf n] [0xD2] (d.storeDrop n) :=
  ((Dev.Only.refl _ _ d).set _ _ (by simp [F.pktSlcOvfCount])).raise _ _ (by simp)

/-- Settles O22: the first unit at a link end is offered to its slice's store, which takes it while it has room and turns it
away when it is full. -/
theorem aFullStoreTurnsPacketsAway : Obligations.AFullStoreTurnsPacketsAway := by
  refine ⟨?_, ?_⟩
  · intro k raw q p rest n s hlink hrun htraffic hq hp hn hroom
    obtain ⟨t, hnext, hregs, hpkt⟩ := execPacketArrival_offers hlink hrun htraffic hq hp hn
    rw [Dev.storeOffer_room (d := (s.dev.setOut []).linkPop k rest) hroom] at hregs hpkt
    refine ⟨t, hnext, ?_, ?_, ?_, ?_, ?_⟩
    · rw [hpkt, Dev.storeJoin_links, Dev.linkPop_links]
    · rw [hpkt]
      exact Dev.storeJoin_stores_self _ n p
    · intro m hm
      rw [hpkt]
      exact Dev.storeJoin_stores_ne _ p hm
    · exact (Dev.get_congr hregs _).trans (Dev.storeJoin_count _ n p)
    · exact (Dev.storeJoin_only ((s.dev.setOut []).linkPop k rest) n p).congr hregs
  · intro k raw q p rest n s hlink hrun htraffic hq hp hn hfull
    obtain ⟨t, hnext, hregs, hpkt⟩ := execPacketArrival_offers hlink hrun htraffic hq hp hn
    rw [Dev.storeOffer_full (d := (s.dev.setOut []).linkPop k rest) hfull] at hregs hpkt
    rw [Dev.storeDrop_pkt] at hpkt
    refine ⟨t, hnext, ?_, ?_, ?_, ?_, ?_, ?_⟩
    · rw [hpkt, Dev.linkPop_links]
    · rw [hpkt]
      rfl
    · rw [hpkt]
      rfl
    · exact (Dev.get_congr hregs _).trans (Dev.storeDrop_count _ n)
    · exact (Dev.storeDrop_raised ((s.dev.setOut []).linkPop k rest) n).of_ctl rfl (Dev.reg_congr hregs _)
    · exact (Dev.storeDrop_only ((s.dev.setOut []).linkPop k rest) n).congr hregs

end Sys2Proof.Machine
end

section
/-!
PROOFS. The step as a whole: every command runs the device through `State.run`, but for the forbidden reset pulse; and the
state after reset.
-/

namespace Sys2Proof.Machine

set_option Elab.async false

/-- An outcome is a next state that differs from the state in its device, from which nothing is left to send, and in what has been
sent, to which it only adds (R30, log 6). -/
def State.Runs (s : State) (o : Host.Outcome State Fault Refusal) : Prop :=
  ∃ (d : Dev) (l : List Output), o = .next { s with dev := d.setOut [], outputs := l ++ s.outputs }

theorem State.runs_run (s : State) (f : Fuses → Dev → Dev) : s.Runs (s.run f) := ⟨_, _, rfl⟩

/-- What a run leaves: the fuses and the queue as they are, nothing unsent, and all that was sent before. -/
theorem State.Runs.keeps {s : State} {o : Host.Outcome State Fault Refusal} (h : s.Runs o) :
    ∃ t, o = .next t ∧ t.fuses = s.fuses ∧ t.pending = s.pending ∧ t.dev.out = [] ∧ ∃ l, t.outputs = l ++ s.outputs := by
  obtain ⟨d, l, rfl⟩ := h
  exact ⟨_, rfl, rfl, rfl, rfl, l, rfl⟩

/-- A reset pulse faults in the forbidden range and runs outside it (R471). -/
theorem execDeviceReset_runs (ns : Nat) (s : State) :
    s.Runs (execDeviceReset ns s) ∨ (1500 < ns ∧ ns < 2500 ∧ execDeviceReset ns s = .fault .resetPulseForbidden) := by
  unfold execDeviceReset
  by_cases h : 1500 < ns ∧ ns < 2500
  · exact .inr ⟨h.1, h.2, if_pos h⟩
  · rw [if_neg h]
    exact .inl (s.runs_run _)

/-- Every command is a run, but for a reset pulse of the forbidden length. -/
theorem exec_runs (c : Instr) (s : State) :
    s.Runs (exec c s) ∨ ∃ ns, c = .deviceReset ns ∧ 1500 < ns ∧ ns < 2500 ∧ exec c s = .fault .resetPulseForbidden := by
  unfold exec
  cases c with
  | deviceReset ns => exact (execDeviceReset_runs ns s).imp id fun h => ⟨ns, rfl, h⟩
  | _ => exact .inl ⟨_, _, rfl⟩

/-- Settles O56, by the definition of a step. -/
theorem theFrontCommandRuns : Obligations.TheFrontCommandRuns := by
  intro c rest s h
  unfold step
  rw [h]

/-- Settles O58: a run ends in a next state, and the forbidden pulse alone is no run. -/
theorem onlyTheForbiddenPulseStops : Obligations.OnlyTheForbiddenPulseStops := by
  intro c s
  refine (exec_runs c s).imp (fun h => ?_) id
  obtain ⟨t, hnext, -, hpending, -, -⟩ := h.keeps
  exact ⟨t, hnext, hpending⟩

/-- What a step that ends in a next state runs on: the queue without its head. -/
theorem runs_of_step {s t : State} (h : step s = .next t) : ({ s with pending := s.pending.tail } : State).Runs (.next t) := by
  unfold step at h
  cases hq : s.pending with
  | nil =>
    rw [hq] at h
    obtain ⟨p, fz, o, d⟩ := s
    subst hq
    exact ⟨_, _, h.symm⟩
  | cons c rest =>
    simp only [hq] at h
    rcases exec_runs c { s with pending := rest } with hrun | ⟨ns, -, -, -, hfault⟩
    · exact h ▸ hrun
    · cases h.symm.trans hfault

/-- Settles O59: a step is a run on the queue's rest. -/
theorem fusesQueueAndOutputsAreKept : Obligations.FusesQueueAndOutputsAreKept := by
  rintro f s t ⟨hfuses, -⟩ hstep
  obtain ⟨u, hu, hf, hp, hout, hl⟩ := (runs_of_step hstep).keeps
  cases hu
  exact ⟨⟨hf.trans hfuses, hout⟩, hp, hl⟩

theorem State.reset_cordSt {c : Nat} (h0 : 1 ≤ c) (h12 : c ≤ 12) : State.reset.dev.cordSt c = 0 := by
  interval_cases c <;> decide +kernel

/-- Settles O57: no register is listed after reset, so each reads as its table's reset value. -/
theorem resetLeavesResetValues : Obligations.ResetLeavesResetValues := by
  refine ⟨rfl, rfl, rfl, rfl, fun a => rfl, ?_, ?_, ?_, ?_, ?_, ?_, fun c => State.reset_cordSt, ?_, ⟨rfl, rfl⟩, rfl, rfl, rfl⟩
  · decide +kernel
  · decide +kernel
  · decide +kernel
  · decide +kernel
  · decide +kernel
  · decide +kernel
  · exact ⟨by decide, by decide, by decide⟩

end Sys2Proof.Machine
end

section
/-!
PROOFS. The ground of the refutations: the state a command leaves, computed, and devices with named fields set.
-/

namespace Sys2Proof.Machine

set_option Elab.async false

/-- The state a command leaves; where it does not run, the state before it. -/
def State.after (s : State) (c : Instr) : State :=
  match exec c s with
  | .next t => t
  | .fault _ => s
  | .refused _ => s

theorem State.after_of_exec {c : Instr} {s t : State} (h : exec c s = .next t) : s.after c = t := by
  simp [State.after, h]

/-- The device out of reset with its cords released and the fields of `l` set. -/
def Dev.inService (l : List (Fld × Nat)) : Dev :=
  let cords : List (Fld × Nat) := (List.range 12).map fun c => (F.hrtPwrCordSt (c + 1), 3)
  (cords ++ l).foldl (fun d p => d.set p.1 p.2) { State.reset.dev with inReset := false }

end Sys2Proof.Machine
end

section
/-!
PROOFS. Two statements of 02_line_receive that do not hold of every state: an engine that RXENG2 names outside a revert
overlap holds the laser loop back, and the verify form of an acquisition is not complete with its locks alone.
-/

namespace Sys2Proof.Machine

/-- Wavelength 0 with engine 0 serving, its laser loop on and its acquisition complete; RXENG2 names engine 1, OVERLAP is 0, and a
laser step of engine 1 is on its way. -/
def secondLoopState : State :=
  { State.reset with
    dev := { Dev.inService [(F.cvSelStatTxeng 0, 0), (F.cvSelStatRxeng 0, 0), (F.cvSelStatRxeng2 0, 1), (F.cvSelStatRxeng 1, 3),
        (F.cvSelStatRxeng2 1, 3), (F.cvSelStatTxeng 1, 3), (F.leRxcLsrcfgEn 0, 1), (F.leRxcStatAcq 0, 6)] with
      engines := [(1, { laserOut := some 0 })] } }

/-- No window opens there, whatever the time since the last acknowledgement. -/
theorem secondLoopState_winOpen : (((secondLoopState.after (.laserLoopDecision 0 0 0)).dev).eng 0).winOpen = false := by
  decide +kernel

/-- Refutes O1: with RXENG2 naming another engine whose laser step is on its way, no window opens though the settle time has passed. -/
theorem not_signalAndLaserAreWatched : ¬ Obligations.SignalAndLaserAreWatched := by
  rintro ⟨-, -, -, -, -, -, -, h, -⟩
  obtain ⟨t, ht, -, hwin⟩ := h 0 0 0 0 secondLoopState (by unfold Dev.Speaks; decide +kernel) (by decide +kernel) (by decide +kernel)
    (by decide +kernel) (by decide +kernel) (by decide +kernel) (by decide +kernel) (by decide +kernel)
  have hclosed := secondLoopState_winOpen
  rw [State.after_of_exec ht] at hclosed
  have hsettled : (secondLoopState.dev.conv 0).settle ≤ 0 := by decide +kernel
  exact absurd (hclosed.symm.trans hwin) (by simpa using hsettled)

/-- Engine 0 in the verify form of its acquisition (step 7), neither of its checks passed, with timing lock, and equaliser lock on its one
decoded subcarrier. -/
def verifyFormState : State :=
  { State.reset with
    dev := .inService [(F.cvSelStatTxeng 0, 0), (F.cvSelStatRxeng 0, 0), (F.cvSelStatRxeng2 0, 3), (F.leRxcStatAcq 0, 7),
      (F.leRxcDecodeMask 0, 1), (F.leRxcTrstatLock 0, 1), (F.leRxsStatEqlock 0 0, 1)] }

/-- Phase lock on the last subcarrier leaves the verify form standing. -/
theorem verifyFormState_acq : (verifyFormState.after (.phaseLock 0 0)).dev.get (F.leRxcStatAcq 0) = 7 := by
  decide +kernel

/-- Refutes O3: in the verify form the acquisition does not reach step 6 with its last lock while its checks have not passed. -/
theorem not_locksAreGainedAndLost : ¬ Obligations.LocksAreGainedAndLost := by
  rintro ⟨-, -, h, -⟩
  obtain ⟨t, ht, -, hacq, -⟩ := h 0 0 verifyFormState (by decide +kernel) (by decide +kernel) (by decide +kernel)
  have hstep := verifyFormState_acq
  rw [State.after_of_exec ht] at hstep
  exact absurd ((hacq (by decide +kernel) (by decide +kernel)).symm.trans hstep) (by decide)

end Sys2Proof.Machine
end

section
/-!
PROOFS. Grants and bursts (05_shared_fibre): the clause that gives all a burst sends does not hold of every state.
-/

namespace Sys2Proof.Machine

set_option Elab.async false

/-- Wavelength 0 in leaf mode and in state 3, engine 0 sending, with one grant of six slots, an answer to RANGE waiting to be sent, and the
event of its change of state enabled towards the host. -/
def rangedState : State :=
  { State.reset with
    dev := { Dev.inService [(F.cvSelStatTxeng 0, 0), (F.cvSelStatRxeng 0, 0), (F.cvSelStatRxeng2 0, 3), (F.lfActStatState 0, 3),
        (F.lfActIdTid 0, 1), (F.hrtEvtSrcCtlEn 0x70, 1), (F.hrtEvtGcfgMsien 7, 1), (F.pciEpStatDlup, 1)] with
      pcie := { State.reset.dev.pcie with busMaster := true, msixEnable := true, msixFuncMask := false }
      msixTable := [(0, { masked := false })]
      waves := [(0, { leaf := true, grants := [⟨1, 0, 0, 6, true, false, false⟩], ctrlQ := [⟨0x42, 0, [], none⟩] })] } }

/-- The message of its event leaves last, behind the burst. -/
theorem rangedState_outputs : (rangedState.after (.burstStart 0 0 1 0 [])).outputs.head? = some (.msix 0 0 0 0) := by
  decide +kernel

/-- Refutes O14: the burst that carries the answer to RANGE takes the terminal to state 4, and the message of that event follows the burst. -/
theorem not_grantsBecomeBursts : ¬ Obligations.GrantsBecomeBursts := by
  rintro ⟨-, -, -, -, -, h, -⟩
  obtain ⟨t, cells, ht, hout, -⟩ := h 0 0 1 0 [] ⟨1, 0, 0, 6, true, false, false⟩ 0 rangedState (by decide +kernel) (by decide)
    (by decide) (by decide) (by decide) (by decide) (by decide) (by decide +kernel) (by decide +kernel) (by decide +kernel)
    (by decide +kernel) (by decide +kernel) (by decide +kernel) (by decide +kernel) (by decide +kernel) (by decide +kernel)
    (by decide +kernel) (by decide +kernel) (by decide +kernel) (by unfold Dev.InjIdle; decide +kernel)
  have hlast := rangedState_outputs
  rw [State.after_of_exec ht, hout] at hlast
  exact absurd (Option.some.inj hlast) (by rintro ⟨⟩)

end Sys2Proof.Machine
end

section
/-!
PROOFS. Engine sparing (07_engine_sparing): two statements that do not hold of every state. A cold engine whose cord drains is not
powered off by its idle time, and a retirement beside a reload whose move has ended may wake the retired engine's cord.
-/

namespace Sys2Proof.Machine

set_option Elab.async false

/-- Engine 0 is cold and its cord drains. -/
def coldDrainState : State := { State.reset with dev := .inService [(F.hrtPwrCordSt 1, 6)] }

/-- The idle time of a cold engine leaves a drain in progress standing. -/
theorem coldDrainState_cordSt : (coldDrainState.after (.coldEngineIdleOff 0)).dev.cordSt 1 = 6 := by
  decide +kernel

/-- Refutes O20: a cold engine whose cord drains stays in its drain. -/
theorem not_repairAndSeasoningRun : ¬ Obligations.RepairAndSeasoningRun := by
  rintro ⟨-, -, -, -, -, -, -, -, -, -, -, -, -, h⟩
  obtain ⟨t, ht, hoff, -⟩ := h 0 coldDrainState (by decide +kernel) (by decide +kernel) (by decide +kernel)
  have hdrains := coldDrainState_cordSt
  rw [State.after_of_exec ht] at hdrains
  exact absurd (hoff.symm.trans hdrains) (by decide)

/-- The write that retires engine 0. -/
def retireFirst : Word := F.hrtSprCmdEng.put 0 0

/-- Engine 0 serves nothing, and a reload of its cord waits for its hitless move, which has ended with engine 1 in its place at
wavelength 0. -/
def movedOutState : State :=
  { State.reset with
    dev := { Dev.inService [(F.hrtSprStatWaeng, 1), (F.hrtSprStatWbeng, 3), (F.hrtCfgCtllvlExpert, 8), (F.pciEpStatDlup, 1)] with
      img := { State.reset.dev.img with
        reload := some { cord := 1, rest := [], activate := false, force := false, old := {}, wl := some 0, cold := 1, part := 1 } } } }

/-- The retirement wakes the cord of engine 0 for its reload. -/
theorem movedOutState_cordSt : (movedOutState.after (.retire retireFirst)).dev.cordSt 1 = 1 := by
  decide +kernel

/-- Refutes O21: the retired engine's cord is woken by the reload that waited for its move. -/
theorem not_manualSparingCommandsRun : ¬ Obligations.ManualSparingCommandsRun := by
  rintro ⟨-, -, -, h, -⟩
  obtain ⟨t, ht, -, -, -, hheld⟩ := h retireFirst movedOutState
    ⟨by decide +kernel, by decide +kernel, by decide +kernel, by decide +kernel, by decide +kernel, _, rfl, by decide +kernel⟩
    (by decide +kernel) (by decide +kernel) (by decide +kernel) (by decide +kernel)
  have hwakes := movedOutState_cordSt
  rw [State.after_of_exec ht] at hwakes
  exact absurd (hheld.symm.trans hwakes) (by decide)

end Sys2Proof.Machine
end

section
/-!
PROOFS. Two statements that do not hold of every state: a pause frame looped back at the near end raises an event whose message leaves, and a
ring's registers take no write while PERST stands.
-/

namespace Sys2Proof.Machine

set_option Elab.async false

/-- Port 0 generates pause frames and is looped at its near end; the event of a loaded pause timer sends its message. -/
def loopedPauseState : State :=
  { State.reset with
    dev := { Dev.inService [(F.hsMacFcGen 0, 1), (F.hsMacFcMode 0, 1), (F.hsMacBondLink 0, 1), (F.hsMacBondLanes 0, 1),
        (F.hsMacFcstatXoffact 0, 1), (F.hsLnLoopMode 0, 1), (F.hsMacPqPquanta 0, 5), (F.hsMacCfgMinlen 0, 64), (F.hsMacCfgMaxlen 0, 1518),
        (F.hrtEvtSrcCtlEn 0xC4, 1), (F.hrtEvtGcfgMsien 12, 1), (F.pciEpStatDlup, 1)] with
      pcie := { State.reset.dev.pcie with busMaster := true, msixEnable := true, msixFuncMask := false }
      msixTable := [(0, { masked := false })] } }

/-- The message of the timer's event leaves with the pause frame that comes back. -/
theorem loopedPauseState_outputs : (loopedPauseState.after (.pauseRepeat 0)).outputs = [.msix 0 0 0 0] := by
  decide +kernel

/-- Refutes O30: a generated pause frame looped at the near end loads the timer, and the event of that sends a message. -/
theorem not_pauseFramesWork : ¬ Obligations.PauseFramesWork := by
  rintro ⟨-, -, -, -, -, -, -, -, -, h, -⟩
  obtain ⟨t, ht, hsilent, -⟩ := h 0 64 1518 loopedPauseState (by decide +kernel) (by decide +kernel) (by decide +kernel)
    (by unfold Dev.Receives Dev.InjIdle; decide +kernel) (by decide +kernel) (by decide +kernel) (by decide +kernel) (by decide +kernel)
    (by decide +kernel) (by decide +kernel) (by decide +kernel) (by decide +kernel)
  have hmessage := loopedPauseState_outputs
  rw [State.after_of_exec ht, hsilent] at hmessage
  exact absurd hmessage (by decide)

/-- A write of 1 to a receive ring's TAIL. -/
def firstTail : Word := (ringTail false 0).put 0 1

/-- Receive ring 0 is enabled while PERST stands. -/
def perstState : State :=
  { State.reset with
    dev := { Dev.inService [(ringEn false 0, 1), (F.pciEpStatDlup, 1)] with pcie := { State.reset.dev.pcie with perst := true } } }

/-- The write of TAIL is dropped. -/
theorem perstState_ringTail : (perstState.after (.ringTailWrite false 0 firstTail)).dev.get (ringTail false 0) = 0 := by
  decide +kernel

/-- Refutes O38: while PERST stands a ring's TAIL takes no write. -/
theorem not_ringsAreDrivenAndReset : ¬ Obligations.RingsAreDrivenAndReset := by
  rintro ⟨h, -⟩
  obtain ⟨t, ht, -, htail, -⟩ := h false 0 firstTail perstState
    ⟨by decide +kernel, by decide +kernel, by decide +kernel, by decide +kernel, by decide +kernel, _,
      (Option.some_get (by decide +kernel : (decodeAddr (ringTail false 0).addr).isSome = true)).symm, by decide +kernel⟩
    (by decide +kernel) (by decide +kernel)
  have hdropped := perstState_ringTail
  rw [State.after_of_exec ht] at hdropped
  exact absurd (htail.symm.trans hdropped) (by decide +kernel)

end Sys2Proof.Machine
end

section
/-!
PROOFS. How a command's effect on the device shows in the state it ends in, and the rules by which the proofs below read a device after its
updates.
-/

namespace Sys2Proof.Machine

set_option Elab.async false

/-! ### From a command to its effect -/

/-- What a command leaves of the device it has made: all but what was to be sent and the log, whose entries are closed. -/
structure Dev.EndsAs (e t : Dev) : Prop where
  regs : t.regs = e.regs
  held : t.msixHeld = e.msixHeld
  same : e.QuietSame t

/-- A command that is a run ends in a state whose device is that of its effect. -/
theorem State.run_ends {s : State} {o : Host.Outcome State Fault Refusal} {f : Fuses → Dev → Dev} {P : State → Prop} (hs : s.dev.out = [])
    (ho : o = s.run f)
    (h : ∀ t : State, (f s.fuses s.dev).EndsAs t.dev → t.outputs = (f s.fuses s.dev).out ++ s.outputs → t.fuses = s.fuses → P t) :
    ∃ t, o = .next t ∧ P t := by
  have hd : s.dev.setOut [] = s.dev := by rw [Dev.setOut, ← hs]
  refine ⟨_, ho.trans (State.run_eq s f), h _ ?_ ?_ rfl⟩
  · rw [hd]
    exact ⟨rfl, rfl, by constructor <;> rfl⟩
  · rw [hd]

/-- A statement that does not read what is unsent need be proved of devices with nothing unsent alone. -/
theorem State.of_sent {Q : State → Prop} (h : ∀ s : State, s.dev.out = [] → Q s)
    (hQ : ∀ s : State, Q { s with dev := s.dev.setOut [] } → Q s) (s : State) : Q s := hQ s (h _ rfl)

@[simp] theorem Dev.emit_out (d : Dev) (o : Output) : (d.emit o).out = o :: d.out := rfl

/-- A field set to a value it holds. -/
theorem Dev.get_set_lt (d : Dev) (f : Fld) {x : Nat} (h : f.fits) (hx : x < 2 ^ f.width) : (d.set f x).get f = x := by
  rw [Dev.get_set_self d f x h, Nat.mod_eq_of_lt hx]

section
variable {e t : Dev} (h : e.EndsAs t)
include h

theorem Dev.EndsAs.reg (a : Nat) : t.reg a = e.reg a := Dev.reg_congr h.regs a
theorem Dev.EndsAs.get (f : Fld) : t.get f = e.get f := Dev.get_congr h.regs f
theorem Dev.EndsAs.getInt (f : Fld) : t.getInt f = e.getInt f := by simp only [Dev.getInt, h.get]
theorem Dev.EndsAs.flag (f : Fld) : t.flag f = e.flag f := by simp only [Dev.flag, h.get]
theorem Dev.EndsAs.only {d : Dev} {l evs : List Nat} : d.Only l evs t ↔ d.Only l evs e := by simp only [Dev.Only, h.reg]
theorem Dev.EndsAs.raised {d : Dev} {n : Nat} : d.Raised n t ↔ d.Raised n e := by simp only [Dev.Raised, h.get]
theorem Dev.EndsAs.regsKept {d : Dev} {p : Nat → Bool} : d.RegsKept p t ↔ d.RegsKept p e := by simp only [Dev.RegsKept, h.reg]
theorem Dev.EndsAs.cordSt (c : Nat) : t.cordSt c = e.cordSt c := by simp only [Dev.cordSt, h.get]
theorem Dev.EndsAs.eng (k : Nat) : t.eng k = e.eng k := by simp only [Dev.eng, h.same.engines]
theorem Dev.EndsAs.conv (w : Nat) : t.conv w = e.conv w := by simp only [Dev.conv, h.same.convs]
theorem Dev.EndsAs.wave (w : Nat) : t.wave w = e.wave w := by simp only [Dev.wave, h.same.waves]
theorem Dev.EndsAs.sc (w k : Nat) : t.sc w k = e.sc w k := by simp only [Dev.sc, h.same.scs]
theorem Dev.EndsAs.grp (w g : Nat) : t.grp w g = e.grp w g := by simp only [Dev.grp, h.same.grps]
theorem Dev.EndsAs.cry (w g : Nat) : t.cry w g = e.cry w g := by simp only [Dev.cry, h.same.crys]
theorem Dev.EndsAs.lane (l : Nat) : t.lane l = e.lane l := by simp only [Dev.lane, h.same.lanes]
theorem Dev.EndsAs.mac (p : Nat) : t.mac p = e.mac p := by simp only [Dev.mac, h.same.macs]
theorem Dev.EndsAs.inj (i : Nat) : t.inj i = e.inj i := by simp only [Dev.inj, h.same.inj_]
theorem Dev.EndsAs.spr1 (k : Nat) : t.spr1 k = e.spr1 k := by simp only [Dev.spr1, h.same.spr]

end

/-! ### What may have changed -/

theorem Dev.Only.emit {l evs : List Nat} {d e : Dev} (h : d.Only l evs e) (o : Output) : d.Only l evs (e.emit o) := h

theorem Dev.Only.setInt {l evs : List Nat} {d e : Dev} (h : d.Only l evs e) (f : Fld) (x : Int) (ha : f.addr ∈ l) :
    d.Only l evs (e.setInt f x) := h.set f _ ha

theorem Dev.Only.setFlag {l evs : List Nat} {d e : Dev} (h : d.Only l evs e) (f : Fld) (b : Bool) (ha : f.addr ∈ l) :
    d.Only l evs (e.setFlag f b) := h.set f _ ha

theorem Dev.Only.count {l evs : List Nat} {d e : Dev} (h : d.Only l evs e) (f : Fld) (n : Nat) (ha : f.addr ∈ l) :
    d.Only l evs (e.count f n) := h.set f _ ha

theorem Dev.Only.when {l evs : List Nat} {d e : Dev} (h : d.Only l evs e) (c : Bool) (f : Dev → Dev) (hf : c = true → d.Only l evs (f e)) :
    d.Only l evs (e.when c f) := by
  cases c
  · exact h
  · exact hf rfl

theorem Dev.Only.each {α : Type} {l evs : List Nat} {d e : Dev} (h : d.Only l evs e) (xs : List α) (f : Dev → α → Dev)
    (hf : ∀ (e : Dev) (x : α), x ∈ xs → e.Only l evs (f e x)) : d.Only l evs (e.each xs f) :=
  Dev.each_keeps (P := d.Only l evs) xs f (fun e x hx he => he.trans (hf e x hx)) e h

/-- A register outside those listed and the event sources stands. -/
theorem Dev.Only.reg_eq {l evs : List Nat} {d e : Dev} (h : d.Only l evs e) {a : Nat} (ha : a ∉ l) (hout : 0x81000 ≤ a)
    (hevs : ∀ n ∈ evs, n < 0x100) : e.reg a = d.reg a :=
  h a ha fun n hn => notMem_evtRegs_of_outside hout (hevs n hn)

/-- An event raised behind changes that leave its source alone is raised over all of them. -/
theorem Dev.Only.raised_raise {l evs : List Nat} {d e : Dev} (h : d.Only l evs e) {n : Nat} (addrs : List Nat) (hn : n ∉ evs)
    (hl : R.hrtEvtSrcCtl n ∉ l) (hv : neverRaised n = false) : d.Raised n (e.raise n addrs) :=
  (Dev.raised_raise e n addrs hv).of_ctl
    (h _ hl fun _ hm => evtCtl_notMem_evtRegs fun heq => hn (heq ▸ hm)).symm rfl

/-- Changes that leave the source of an event alone keep it raised. -/
theorem Dev.Raised.only {l evs : List Nat} {d e f : Dev} {n : Nat} (h : d.Raised n e) (ho : e.Only l evs f) (hn : n ∉ evs)
    (hl : R.hrtEvtSrcCtl n ∉ l) : d.Raised n f :=
  h.of_ctl rfl (ho _ hl fun _ hm => evtCtl_notMem_evtRegs fun heq => hn (heq ▸ hm))

/-! ### Registers and events alone -/

/-- Between two devices only listed registers and events, the log, the messages and what is sent may differ. -/
structure Dev.Marks (l evs : List Nat) (d e : Dev) : Prop where
  only : d.Only l evs e
  same : d.QuietSame e

section
variable {l evs : List Nat} {d e f : Dev}

theorem Dev.Marks.refl (l evs : List Nat) (d : Dev) : d.Marks l evs d := ⟨Dev.Only.refl l evs d, Dev.QuietSame.refl d⟩

theorem Dev.Marks.trans (h : d.Marks l evs e) (k : e.Marks l evs f) : d.Marks l evs f := ⟨h.only.trans k.only, h.same.trans k.same⟩

theorem Dev.Marks.mono {l' evs' : List Nat} (h : d.Marks l evs e) (hl : ∀ a ∈ l, a ∈ l') (he : ∀ n ∈ evs, n ∈ evs') : d.Marks l' evs' e :=
  ⟨h.only.mono hl he, h.same⟩

theorem Dev.set_quiet (d : Dev) (f : Fld) (x : Nat) : d.QuietSame (d.set f x) := by constructor <;> rfl

theorem Dev.emit_quiet (d : Dev) (o : Output) : d.QuietSame (d.emit o) := by constructor <;> rfl

theorem Dev.Marks.set (h : d.Marks l evs e) (f : Fld) (x : Nat) (ha : f.addr ∈ l) : d.Marks l evs (e.set f x) :=
  ⟨h.only.set f x ha, h.same.trans (Dev.set_quiet e f x)⟩

theorem Dev.Marks.setInt (h : d.Marks l evs e) (f : Fld) (x : Int) (ha : f.addr ∈ l) : d.Marks l evs (e.setInt f x) := h.set f _ ha

theorem Dev.Marks.setFlag (h : d.Marks l evs e) (f : Fld) (b : Bool) (ha : f.addr ∈ l) : d.Marks l evs (e.setFlag f b) := h.set f _ ha

theorem Dev.Marks.count (h : d.Marks l evs e) (f : Fld) (n : Nat) (ha : f.addr ∈ l) : d.Marks l evs (e.count f n) := h.set f _ ha

theorem Dev.Marks.emit (h : d.Marks l evs e) (o : Output) : d.Marks l evs (e.emit o) := ⟨h.only, h.same.trans (Dev.emit_quiet e o)⟩

theorem Dev.Marks.raise (h : d.Marks l evs e) (n : Nat) (addrs : List Nat) (hn : n ∈ evs) : d.Marks l evs (e.raise n addrs) :=
  ⟨h.only.raise n addrs hn, h.same.trans (Dev.raise_quiet e n addrs)⟩

theorem Dev.Marks.when (h : d.Marks l evs e) (c : Bool) (f : Dev → Dev) (hf : c = true → d.Marks l evs (f e)) : d.Marks l evs (e.when c f) := by
  cases c
  · exact h
  · exact hf rfl

theorem Dev.Marks.each {α : Type} (h : d.Marks l evs e) (xs : List α) (f : Dev → α → Dev)
    (hf : ∀ (e : Dev) (x : α), x ∈ xs → e.Marks l evs (f e x)) : d.Marks l evs (e.each xs f) :=
  Dev.each_keeps (P := d.Marks l evs) xs f (fun e x hx he => he.trans (hf e x hx)) e h

/-- A field outside the registers listed and the event sources stands. -/
theorem Dev.Only.get_eq (h : d.Only l evs e) {f : Fld} (ha : f.addr ∉ l) (hout : 0x81000 ≤ f.addr) (hevs : ∀ n ∈ evs, n < 0x100) :
    e.get f = d.get f := by
  simp only [Dev.get, h.reg_eq ha hout hevs]

end

/-! ### What has been sent stays sent -/

theorem Dev.msixSend_out (d : Dev) (v : Nat) : d.out <:+ (d.msixSend v).out := by
  unfold Dev.msixSend
  split
  · exact List.suffix_cons _ _
  · split <;> exact List.suffix_refl _

theorem Dev.groupEdge_out (d : Dev) (g : Nat) (was : Bool) : d.out <:+ (d.groupEdge g was).out := by
  unfold Dev.groupEdge
  cases (!was && d.groupPending g && d.flag (F.hrtEvtGcfgMsien g))
  · exact List.suffix_refl _
  · exact Dev.msixSend_out d _

theorem Dev.ashAdd_out (d : Dev) (kind evt code : Nat) (data : List Byte) (from_ : List Nat) :
    (d.ashAdd kind evt code data from_).out = d.out := by
  unfold Dev.ashAdd
  dsimp only
  split
  · rfl
  · split <;> rfl

theorem Dev.evtMark_out (d : Dev) (n : Nat) : (d.evtMark n).out = d.out := by
  unfold Dev.evtMark
  dsimp only
  cases (!d.flag (F.hrtEvtSrcCtlStat n)) <;> simp [Dev.when]

theorem Dev.raise_out (d : Dev) (n : Nat) (l : List Nat) : d.out <:+ (d.raise n l).out := by
  by_cases h : neverRaised n = true
  · rw [Dev.raise_never d n l h]
  · unfold Dev.raise Dev.raiseWords
    simp only [h, Bool.false_eq_true, if_false]
    have hmark : ((d.evtMark n).when (!d.flag (F.hrtEvtSrcCtlStat n) && d.flag (F.hrtEvtSrcCtlLog n)) fun e =>
        e.ashAdd 1 n (d.get (F.hrtEvtSrcCtlCount n)) (detailBytes (l.map d.reg)) l).out = d.out := by
      cases (!d.flag (F.hrtEvtSrcCtlStat n) && d.flag (F.hrtEvtSrcCtlLog n))
      · exact Dev.evtMark_out d n
      · rw [Dev.when_true, Dev.ashAdd_out, Dev.evtMark_out]
    exact hmark ▸ Dev.groupEdge_out _ _ _

/-! ### Instances -/

@[simp] theorem Dev.eng_setEng_self (d : Dev) (e : Nat) (f : Engine → Engine) : (d.setEng e f).eng e = f (d.eng e) := Tbl.get_modify_self _ _ _ _
@[simp] theorem Dev.wave_setWave_self (d : Dev) (w : Nat) (f : Wave → Wave) : (d.setWave w f).wave w = f (d.wave w) := Tbl.get_modify_self _ _ _ _
@[simp] theorem Dev.sc_setSc_self (d : Dev) (w k : Nat) (f : Subc → Subc) : (d.setSc w k f).sc w k = f (d.sc w k) := Tbl.get_modify_self _ _ _ _
@[simp] theorem Dev.grp_setGrp_self (d : Dev) (w g : Nat) (f : Grp → Grp) : (d.setGrp w g f).grp w g = f (d.grp w g) := Tbl.get_modify_self _ _ _ _
@[simp] theorem Dev.cry_setCry_self (d : Dev) (w g : Nat) (f : Crypto → Crypto) : (d.setCry w g f).cry w g = f (d.cry w g) :=
  Tbl.get_modify_self _ _ _ _
@[simp] theorem Dev.lane_setLane_self (d : Dev) (l : Nat) (f : Lane → Lane) : (d.setLane l f).lane l = f (d.lane l) := Tbl.get_modify_self _ _ _ _
@[simp] theorem Dev.mac_setMac_self (d : Dev) (p : Nat) (f : Mac → Mac) : (d.setMac p f).mac p = f (d.mac p) := Tbl.get_modify_self _ _ _ _
@[simp] theorem Dev.inj_setInj_self (d : Dev) (i : Nat) (f : Inj → Inj) : (d.setInj i f).inj i = f (d.inj i) := Tbl.get_modify_self _ _ _ _

end Sys2Proof.Machine
end

section
/-!
PROOFS. The training of a lane (R310, R326): what a request leaves in the taps, and what it is answered.
-/

namespace Sys2Proof.Machine

set_option Elab.async false

/-! ### Signed fields -/

/-- A number within the range of `w` bits reads back as it was written. -/
theorem signedOf_unsignedOf {w : Nat} {i : Int} (hw : 0 < w) (hlo : -(2 ^ (w - 1) : Nat) ≤ i) (hhi : i < (2 ^ (w - 1) : Nat)) :
    signedOf w (unsignedOf w i) = i := by
  obtain ⟨v, rfl⟩ : ∃ v, w = v + 1 := ⟨w - 1, by omega⟩
  simp only [Nat.add_sub_cancel] at hlo hhi
  have hpow : (2 ^ (v + 1) : Nat) = 2 * 2 ^ v := by rw [Nat.pow_succ, Nat.mul_comm]
  simp only [signedOf, unsignedOf, Nat.add_sub_cancel, hpow]
  have hpos : 0 < 2 ^ v := Nat.two_pow_pos v
  generalize 2 ^ v = m at hlo hhi hpos
  have hmodlt : i % ((2 * m : Nat) : Int) < (2 * m : Nat) := Int.emod_lt_of_pos i (by omega)
  have hlt : (i % ((2 * m : Nat) : Int)).toNat < 2 * m := by omega
  rw [Nat.mod_eq_of_lt hlt]
  by_cases hi : 0 ≤ i
  · have hmod : i % ((2 * m : Nat) : Int) = i := Int.emod_eq_of_lt hi (by omega)
    rw [hmod]
    split <;> omega
  · have hmod : i % ((2 * m : Nat) : Int) = i + (2 * m : Nat) := by
      rw [← Int.add_emod_right, Int.emod_eq_of_lt (by omega) (by omega)]
    rw [hmod]
    split <;> omega

theorem signedOf_mod (w n : Nat) : signedOf w (n % 2 ^ w) = signedOf w n := by
  simp [signedOf]

/-- A signed field set to a number it holds. -/
theorem Dev.getInt_setInt_self (d : Dev) (f : Fld) {i : Int} (h : f.fits) (hw : 0 < f.width) (hlo : -(2 ^ (f.width - 1) : Nat) ≤ i)
    (hhi : i < (2 ^ (f.width - 1) : Nat)) : (d.setInt f i).getInt f = i := by
  rw [Dev.getInt, Dev.get_setInt_self d f i h, signedOf_mod, signedOf_unsignedOf hw hlo hhi]

theorem Dev.getInt_setInt_apart (d : Dev) (f g : Fld) (i : Int) (hg : g.fits) (h : f.apart g) : (d.setInt f i).getInt g = d.getInt g := by
  simp only [Dev.getInt, Dev.get_setInt_apart d f g i hg h]

theorem Dev.getInt_set_apart (d : Dev) (f g : Fld) (x : Nat) (hg : g.fits) (h : f.apart g) : (d.set f x).getInt g = d.getInt g := by
  simp only [Dev.getInt, Dev.get_set_apart d f g x hg h]

theorem Dev.getInt_set_self (d : Dev) (f : Fld) (x : Nat) (h : f.fits) : (d.set f x).getInt f = signedOf f.width x := by
  rw [Dev.getInt, Dev.get_set_self d f x h, signedOf_mod]

@[simp] theorem Dev.getInt_emit (d : Dev) (o : Output) (f : Fld) : (d.emit o).getInt f = d.getInt f := rfl

theorem signedOf_ge {w : Nat} (n : Nat) (hw : 0 < w) : -(2 ^ (w - 1) : Nat) ≤ signedOf w n := by
  have hpow : 2 ^ w = 2 * 2 ^ (w - 1) := by rw [← Nat.pow_succ', Nat.succ_eq_add_one, Nat.sub_add_cancel hw]
  unfold signedOf
  split <;> omega

/-! ### An event of a lane -/

theorem Dev.laneEvent_marks (d : Dev) (l n : Nat) (addrs : List Nat) :
    d.Marks [R.hsLngSum0 (l / 48), R.hsLngSum1 (l / 48)] [n] (d.laneEvent l n addrs) := by
  unfold Dev.laneEvent
  refine ((Dev.Marks.refl _ _ d).set _ _ ?_).raise _ _ (by simp)
  split
  · simp [F.hsLngSum0Lanes]
  · simp [F.hsLngSum1Lanes]

theorem Dev.laneEvent_raised (d : Dev) (l : Nat) {n : Nat} (addrs : List Nat) (hn : neverRaised n = false) : d.Raised n (d.laneEvent l n addrs) := by
  unfold Dev.laneEvent
  refine (((Dev.Only.refl [R.hsLngSum0 (l / 48), R.hsLngSum1 (l / 48)] [] d).set _ _ ?_).raised_raise _ (by simp) ?_ hn)
  · split
    · simp [F.hsLngSum0Lanes]
    · simp [F.hsLngSum1Lanes]
  · have hlt : n < 0x100 := by
      simp only [neverRaised, Bool.or_eq_false_iff, decide_eq_false_iff_not] at hn
      omega
    simp only [R.hrtEvtSrcCtl, R.hsLngSum0, R.hsLngSum1, List.mem_cons, List.not_mem_nil, or_false, not_or]
    omega

/-! ### Requests -/

/-- The taps of the preset (R310). -/
def Dev.presetTaps (d : Dev) (l : Nat) : Dev :=
  (((d.set (F.hsLnTxeqCm2 l) 0).set (F.hsLnTxeqCm1 l) 0).set (F.hsLnTxeqC1 l) 0).set (F.hsLnTxeqC0 l) 64

@[simp] theorem Dev.presetTaps_out (d : Dev) (l : Nat) : (d.presetTaps l).out = d.out := rfl
@[simp] theorem Dev.initTaps_out (d : Dev) (l : Nat) : (d.initTaps l).out = d.out := rfl

theorem Dev.presetTaps_taps (d : Dev) (l : Nat) :
    (d.presetTaps l).get (F.hsLnTxeqCm2 l) = 0 ∧ (d.presetTaps l).get (F.hsLnTxeqCm1 l) = 0 ∧ (d.presetTaps l).get (F.hsLnTxeqC1 l) = 0
      ∧ (d.presetTaps l).get (F.hsLnTxeqC0 l) = 64 ∧ d.Only [R.hsLnTxeq l] [] (d.presetTaps l) := by
  unfold Dev.presetTaps
  refine ⟨?_, ?_, ?_, ?_, ((((Dev.Only.refl _ _ _).set _ _ (by simp [F.hsLnTxeqCm2])).set _ _ (by simp [F.hsLnTxeqCm1])).set
    _ _ (by simp [F.hsLnTxeqC1])).set _ _ (by simp [F.hsLnTxeqC0])⟩
  all_goals simp -implicitDefEqProofs
    (disch := (simp only [Fld.fits, Fld.apart, F.hsLnTxeqCm2, F.hsLnTxeqCm1, F.hsLnTxeqC1, F.hsLnTxeqC0]; omega))
    only [Dev.get_set_apart, Dev.get_set_lt]

/-- A request taken in stage 2 by a lane that runs the stages. -/
def Dev.trainAnswer (d : Dev) (l : Nat) (q : TrainReq) : Dev :=
  let r := q.steps.foldl (fun (a : Dev × List Nat) s => let t := a.1.tapStep l s.1 s.2; (t.1, a.2 ++ [t.2])) (d, [])
  if contradicts q then (d.count (F.hsLnLoopProto l) 1).laneEvent l 0xBB [R.hsLnLoop l]
  else if q.preset then
    (d.presetTaps l).emit (.training l [0])
  else if q.initTaps then (d.initTaps l).emit (.training l [0]) else r.1.emit (.training l r.2)

theorem execTrainingRequest_ends {l : Fin 96} {q : TrainReq} {P : State → Prop} {s : State} (hs : s.dev.out = []) (hst : s.dev.stage l = 2)
    (hr : s.dev.runs l = true)
    (h : ∀ t : State, (s.dev.trainAnswer l q).EndsAs t.dev → t.outputs = (s.dev.trainAnswer l q).out ++ s.outputs → P t) :
    ∃ t, exec (.trainingRequest l q) s = .next t ∧ P t := by
  simp only [exec, execTrainingRequest]
  refine State.run_ends hs rfl fun t ht hout _ => ?_
  have hgo : (decide (s.dev.stage l ≠ 2) || !s.dev.runs l) = false := by simp [hst, hr]
  simp only [hgo, Bool.false_eq_true, if_false] at ht hout
  exact h t ht hout

theorem Dev.initTaps_only (d : Dev) (l : Nat) : d.Only [R.hsLnTxeq l] [] (d.initTaps l) :=
  ((((Dev.Only.refl _ _ _).set _ _ (by simp [F.hsLnTxeqCm2])).setInt _ _ (by simp [F.hsLnTxeqCm1])).setInt _ _ (by simp [F.hsLnTxeqC1])).set
    _ _ (by simp [F.hsLnTxeqC0])

theorem Dev.initTaps_taps (d : Dev) (l : Nat) :
    (d.initTaps l).getInt (F.hsLnTxeqCm2 l) = 0 ∧ (d.initTaps l).getInt (F.hsLnTxeqCm1 l) = -6 ∧ (d.initTaps l).getInt (F.hsLnTxeqC1 l) = -10
      ∧ (d.initTaps l).getInt (F.hsLnTxeqC0 l) = 48 := by
  unfold Dev.initTaps
  refine ⟨?_, ?_, ?_, ?_⟩
  all_goals simp -implicitDefEqProofs
    (disch := (simp only [Fld.fits, Fld.apart, F.hsLnTxeqCm2, F.hsLnTxeqCm1, F.hsLnTxeqC1, F.hsLnTxeqC0]; omega))
    only [Dev.getInt_set_apart, Dev.getInt_setInt_apart, Dev.getInt_setInt_self, Dev.getInt_set_self]
  · rfl
  · rfl


/-- A step of c(−1) that leaves every tap in its range moves c(0) with it. -/
theorem Dev.tapStep_cm1 {d : Dev} {l : Nat} {up : Bool} {v c0 : Int} (hv : v = d.getInt (F.hsLnTxeqCm1 l) + (if up then 1 else -1))
    (hc : c0 = 64 - ((d.getInt (F.hsLnTxeqCm2 l)).natAbs + v.natAbs + (d.getInt (F.hsLnTxeqC1 l)).natAbs : Nat)) (hlo : -128 ≤ v)
    (h0 : v ≤ 0) (hin : up = false → tapMin (d.pam4 l) (d.flag (F.hsLnStatLrxact l)) .cm1 ≤ v ∧ tapMin (d.pam4 l) (d.flag (F.hsLnStatLrxact l)) .c0 ≤ c0) :
    d.tapStep l .cm1 up = ((d.setInt (F.hsLnTxeqCm1 l) v).setInt (F.hsLnTxeqC0 l) c0, 0) := by
  have hc0 : (d.setInt (F.hsLnTxeqCm1 l) v).c0Of l = c0 := by
    rw [hc, Dev.c0Of]
    simp -implicitDefEqProofs
      (disch := (simp only [Fld.fits, Fld.apart, F.hsLnTxeqCm2, F.hsLnTxeqCm1, F.hsLnTxeqC1, F.hsLnTxeqC0]; omega))
      only [Dev.getInt_setInt_apart, Dev.getInt_setInt_self]
  unfold Dev.tapStep
  simp only [reduceCtorEq, if_false, tapFld, ← hv, hc0, decide_false, Bool.false_and, Bool.false_eq_true]
  cases up
  · obtain ⟨hmin, hmin0⟩ := hin rfl
    simp [not_lt.2 hmin, not_lt.2 hmin0]
  · simp [not_lt.2 h0]

theorem Dev.taps_after_step (d : Dev) (l : Nat) {v c0 : Int} (hlo : -128 ≤ v) (h0 : v ≤ 0) (hc : -128 ≤ c0) (hc0 : c0 ≤ 64) :
    let e := (d.setInt (F.hsLnTxeqCm1 l) v).setInt (F.hsLnTxeqC0 l) c0
    e.getInt (F.hsLnTxeqCm1 l) = v ∧ e.getInt (F.hsLnTxeqC0 l) = c0 ∧ e.getInt (F.hsLnTxeqC1 l) = d.getInt (F.hsLnTxeqC1 l)
      ∧ d.Only [R.hsLnTxeq l] [] e := by
  refine ⟨?_, ?_, ?_, ?_⟩
  · simp -implicitDefEqProofs (disch := (simp only [Fld.fits, Fld.apart, F.hsLnTxeqCm1, F.hsLnTxeqC0]; omega))
      only [Dev.getInt_setInt_apart, Dev.getInt_setInt_self]
  · simp -implicitDefEqProofs (disch := (simp only [Fld.fits, Fld.apart, F.hsLnTxeqCm1, F.hsLnTxeqC0]; omega)) only [Dev.getInt_setInt_self]
  · simp -implicitDefEqProofs (disch := (simp only [Fld.fits, Fld.apart, F.hsLnTxeqCm1, F.hsLnTxeqC1, F.hsLnTxeqC0]; omega))
      only [Dev.getInt_setInt_apart]
  · exact ((Dev.Only.refl _ _ d).setInt _ _ (by simp [F.hsLnTxeqCm1])).setInt _ _ (by simp [F.hsLnTxeqC0])

/-- A single step is answered by the code of its tap. -/
theorem Dev.trainAnswer_step (d : Dev) (l : Nat) (t : Tap) (up : Bool) :
    d.trainAnswer l ⟨false, false, [(t, up)]⟩ = (d.tapStep l t up).1.emit (.training l [(d.tapStep l t up).2]) := by
  have hone : contradicts ⟨false, false, [(t, up)]⟩ = false := by simp [contradicts]
  simp -implicitDefEqProofs [Dev.trainAnswer, hone]

theorem Dev.trainAnswer_preset (d : Dev) (l : Nat) : d.trainAnswer l ⟨true, false, []⟩ = (d.presetTaps l).emit (.training l [0]) := by
  simp -implicitDefEqProofs [Dev.trainAnswer, contradicts, Dev.presetTaps]

theorem Dev.trainAnswer_initTaps (d : Dev) (l : Nat) : d.trainAnswer l ⟨false, true, []⟩ = (d.initTaps l).emit (.training l [0]) := by
  simp -implicitDefEqProofs [Dev.trainAnswer, contradicts]

/-- The single step of a tap that is not free to move leaves the taps alone. -/
theorem execTrainingRequest_refused {l : Fin 96} {t : Tap} {up : Bool} {n : Nat} {s : State} (hs : s.dev.out = []) (hst : s.dev.stage l = 2)
    (hr : s.dev.runs l = true) (hstep : s.dev.tapStep l t up = (s.dev, n)) :
    ∃ u, exec (.trainingRequest l ⟨false, false, [(t, up)]⟩) s = .next u ∧ u.outputs = .training l [n] :: s.outputs ∧ s.dev.Only [] [] u.dev := by
  refine execTrainingRequest_ends hs hst hr fun u hu hout => ?_
  rw [Dev.trainAnswer_step, hstep] at hu hout
  exact ⟨by simpa -implicitDefEqProofs [hs] using hout, hu.only.2 (Dev.Only.refl _ _ _)⟩

/-- The single step of c(−1) within the range of the taps. -/
theorem execTrainingRequest_cm1 {l : Fin 96} {up : Bool} {v c0 : Int} {s : State} (hs : s.dev.out = []) (hst : s.dev.stage l = 2)
    (hr : s.dev.runs l = true) (hv : v = s.dev.getInt (F.hsLnTxeqCm1 l) + (if up then 1 else -1))
    (hc : c0 = 64 - ((s.dev.getInt (F.hsLnTxeqCm2 l)).natAbs + v.natAbs + (s.dev.getInt (F.hsLnTxeqC1 l)).natAbs : Nat)) (hlo : -128 ≤ v)
    (h0 : v ≤ 0) (hc0 : -128 ≤ c0)
    (hin : up = false → tapMin (s.dev.pam4 l) (s.dev.flag (F.hsLnStatLrxact l)) .cm1 ≤ v
      ∧ tapMin (s.dev.pam4 l) (s.dev.flag (F.hsLnStatLrxact l)) .c0 ≤ c0) :
    ∃ t, exec (.trainingRequest l ⟨false, false, [(.cm1, up)]⟩) s = .next t ∧ t.outputs = .training l [0] :: s.outputs
      ∧ t.dev.getInt (F.hsLnTxeqCm1 l) = v ∧ t.dev.getInt (F.hsLnTxeqC0 l) = c0
      ∧ t.dev.getInt (F.hsLnTxeqC1 l) = s.dev.getInt (F.hsLnTxeqC1 l) ∧ s.dev.Only [R.hsLnTxeq l] [] t.dev := by
  refine execTrainingRequest_ends hs hst hr fun t ht hout => ?_
  rw [Dev.trainAnswer_step, Dev.tapStep_cm1 hv hc hlo h0 hin] at ht hout
  obtain ⟨hcm1, hco, hc1, honly⟩ := s.dev.taps_after_step l hlo h0 hc0 (by omega)
  refine ⟨by simpa -implicitDefEqProofs [hs] using hout, ?_, ?_, ?_, ht.only.2 (honly.emit _)⟩
  · rw [ht.getInt, Dev.getInt_emit, hcm1]
  · rw [ht.getInt, Dev.getInt_emit, hco]
  · rw [ht.getInt, Dev.getInt_emit, hc1]

/-- Settles O34: each request is answered by what its taps allow. -/
theorem trainingMovesTheTaps : Obligations.TrainingMovesTheTaps := by
  refine ⟨?_, ?_, ?_, ?_, ?_, ?_, ?_, ?_⟩
  · intro l q
    refine State.of_sent ?_ fun _ h => h
    intro s hs hst hr hq
    refine execTrainingRequest_ends hs hst hr fun t ht _ => ?_
    rw [Dev.trainAnswer, if_pos hq] at ht
    have hcount : s.dev.Only [R.hsLnLoop l] [] (s.dev.count (F.hsLnLoopProto l) 1) := (Dev.Only.refl _ _ _).count _ _ (by simp [F.hsLnLoopProto])
    have hevent := (s.dev.count (F.hsLnLoopProto l) 1).laneEvent_marks l 0xBB [R.hsLnLoop l]
    have honly := (hcount.mono (l' := [R.hsLnLoop l, R.hsLngSum0 (l / 48), R.hsLngSum1 (l / 48)]) (evs' := [0xBB]) (by simp) (by simp)).trans
      (hevent.only.mono (by simp) (by simp))
    refine ⟨ht.raised.2 ?_, ?_, ?_, ht.only.2 honly⟩
    · refine (Dev.laneEvent_raised _ l _ (by decide)).of_ctl (Eq.symm ?_) rfl
      exact hcount _ (by simp only [List.mem_singleton, R.hrtEvtSrcCtl, R.hsLnLoop, hsBase]; omega) (by simp)
    · rw [ht.get, hevent.only.get_eq, Dev.get_count_self]
      · rfl
      · simp only [Fld.fits, F.hsLnLoopProto]; omega
      · simp only [F.hsLnLoopProto, R.hsLnLoop, R.hsLngSum0, R.hsLngSum1, hsBase, List.mem_cons, List.not_mem_nil, or_false, not_or]; omega
      · simp only [F.hsLnLoopProto, R.hsLnLoop, hsBase]; omega
      · simp
    · rw [ht.reg]
      refine honly.reg_eq ?_ ?_ (by simp)
      · simp only [R.hsLnTxeq, R.hsLnLoop, R.hsLngSum0, R.hsLngSum1, hsBase, List.mem_cons, List.not_mem_nil, or_false, not_or]; omega
      · simp only [R.hsLnTxeq, hsBase]; omega
  · intro l
    refine State.of_sent ?_ fun _ h => h
    intro s hs hst hr
    refine execTrainingRequest_ends hs hst hr fun t ht hout => ?_
    rw [Dev.trainAnswer_preset] at ht hout
    obtain ⟨hcm2, hcm1, hc1, hc0, honly⟩ := s.dev.presetTaps_taps l
    simp -implicitDefEqProofs only [ht.get, Dev.get_emit]
    exact ⟨by rw [hout, Dev.emit_out, Dev.presetTaps_out, hs]; rfl, hcm2, hcm1, hc1, hc0, ht.only.2 (honly.emit _)⟩
  · intro l
    refine State.of_sent ?_ fun _ h => h
    intro s hs hst hr
    refine execTrainingRequest_ends hs hst hr fun t ht hout => ?_
    rw [Dev.trainAnswer_initTaps] at ht hout
    obtain ⟨hcm2, hcm1, hc1, hc0⟩ := s.dev.initTaps_taps l
    simp -implicitDefEqProofs only [ht.getInt, Dev.getInt_emit]
    exact ⟨by rw [hout, Dev.emit_out, Dev.initTaps_out, hs]; rfl, hcm2, hcm1, hc1, hc0, ht.only.2 ((Dev.initTaps_only _ _).emit _)⟩
  · intro l v c0
    refine State.of_sent ?_ fun _ h => h
    intro s hs hst hr hlrx hv hc hlo h0 hc0
    exact execTrainingRequest_cm1 hs hst hr hv hc (by omega) h0 (by omega) fun _ => by simp -implicitDefEqProofs [tapMin, Dev.flag, hlrx, hlo, hc0]
  · intro l
    refine State.of_sent ?_ fun _ h => h
    intro s hs hst hr hlrx hv
    refine execTrainingRequest_refused hs hst hr ?_
    simp -implicitDefEqProofs [Dev.tapStep, tapFld, hv, tapMin, Dev.flag, hlrx]
  · intro l v c0
    refine State.of_sent ?_ fun _ h => h
    intro s hs hst hr hv hc h0 hc0
    have hge : -128 ≤ s.dev.getInt (F.hsLnTxeqCm1 l) := signedOf_ge (w := 8) _ (by decide)
    exact execTrainingRequest_cm1 hs hst hr hv hc (by omega) h0 (by omega) fun h => absurd h (by decide)
  · intro l up
    refine State.of_sent ?_ fun _ h => h
    intro s hs hst hr
    exact execTrainingRequest_refused hs hst hr (by simp -implicitDefEqProofs [Dev.tapStep])
  · intro l up
    refine State.of_sent ?_ fun _ h => h
    intro s hs hst hr hnrz
    exact execTrainingRequest_refused hs hst hr (by simp -implicitDefEqProofs [Dev.tapStep, hnrz])

end Sys2Proof.Machine
end

section
/-!
PROOFS. Buffers given back (R252, R254): the registers and events they may touch, and what they leave alone.
-/

namespace Sys2Proof.Machine

set_option Elab.async false

/-- The registers that the return of a buffer may touch. -/
def bufRegs : List Nat := [R.bufBmErr, R.bufBmErrlog] ++ (List.range 64).map R.bufPoolFree ++ (List.range 1024).map R.bufPclsUsed

theorem mem_bufRegs {a : Nat} :
    a ∈ bufRegs ↔ a = R.bufBmErr ∨ a = R.bufBmErrlog ∨ (∃ p < 64, R.bufPoolFree p = a) ∨ ∃ i < 1024, R.bufPclsUsed i = a := by
  simp [bufRegs]

theorem bufRegs_range {a : Nat} (h : a ∈ bufRegs) : 0x9000000 ≤ a ∧ a < 0x9100000 := by
  rcases mem_bufRegs.1 h with rfl | rfl | ⟨p, hp, rfl⟩ | ⟨i, hi, rfl⟩
  · decide
  · decide
  · simp only [R.bufPoolFree]; omega
  · simp only [R.bufPclsUsed]; omega

/-- Two devices differ in registers, the log, messages, what is sent, and the state of the buffers alone. -/
def Dev.BufSame (d e : Dev) : Prop := ∃ b, (d.setBuf fun _ => b).QuietSame e

theorem Dev.BufSame.refl (d : Dev) : d.BufSame d := ⟨d.buf, Dev.QuietSame.refl d⟩

theorem Dev.BufSame.quiet {d e f : Dev} (h : d.BufSame e) (k : e.QuietSame f) : d.BufSame f := by
  obtain ⟨b, hb⟩ := h
  exact ⟨b, hb.trans k⟩

theorem Dev.BufSame.setBuf {d e : Dev} (h : d.BufSame e) (g : BufSt → BufSt) : d.BufSame (e.setBuf g) := by
  obtain ⟨b, hb⟩ := h
  refine ⟨g e.buf, ?_⟩
  cases hb
  constructor
  case buf => rfl
  all_goals simp_all

theorem Dev.BufSame.trans {d e f : Dev} (h : d.BufSame e) (k : e.BufSame f) : d.BufSame f := by
  obtain ⟨b, hb⟩ := k
  exact (h.setBuf fun _ => b).quiet hb

/-- What only the return of buffers changes between two devices. -/
structure Dev.Frees (d e : Dev) : Prop where
  only : d.Only bufRegs [0xE0, 0xE1, 0xE3] e
  same : d.BufSame e

namespace Dev.Frees
variable {d e f : Dev}

theorem refl (d : Dev) : d.Frees d := ⟨Dev.Only.refl _ _ d, Dev.BufSame.refl d⟩

theorem trans (h : d.Frees e) (k : e.Frees f) : d.Frees f := ⟨h.only.trans k.only, h.same.trans k.same⟩

theorem set (h : d.Frees e) (g : Fld) (x : Nat) (hg : g.addr ∈ bufRegs) : d.Frees (e.set g x) :=
  ⟨h.only.set g x hg, h.same.quiet (Dev.set_quiet e g x)⟩

theorem setBuf (h : d.Frees e) (g : BufSt → BufSt) : d.Frees (e.setBuf g) := ⟨h.only, h.same.setBuf g⟩

theorem raise (h : d.Frees e) (n : Nat) (l : List Nat) (hn : n ∈ [0xE0, 0xE1, 0xE3]) : d.Frees (e.raise n l) :=
  ⟨h.only.raise n l hn, h.same.quiet (Dev.raise_quiet e n l)⟩

theorem when (h : d.Frees e) (c : Bool) (g : Dev → Dev) (hg : d.Frees (g e)) : d.Frees (e.when c g) := by
  cases c
  · exact h
  · exact hg

theorem each {α : Type} (h : d.Frees e) (xs : List α) (g : Dev → α → Dev) (hg : ∀ (e : Dev) (x : α), e.Frees (g e x)) : d.Frees (e.each xs g) :=
  Dev.each_keeps (P := d.Frees) xs g (fun e x _ he => he.trans (hg e x)) e h

end Dev.Frees

theorem bufPoolFree_mem (p : Fin 64) : R.bufPoolFree p ∈ bufRegs := mem_bufRegs.2 (.inr (.inr (.inl ⟨p, p.isLt, rfl⟩)))

theorem bufPclsUsed_mem {i : Nat} (h : i < 1024) : R.bufPclsUsed i ∈ bufRegs := mem_bufRegs.2 (.inr (.inr (.inr ⟨i, h, rfl⟩)))

theorem Dev.poolLow_frees (d : Dev) (p : Nat) : d.Frees (d.poolLow p) := by
  unfold Dev.poolLow
  exact ((Dev.Frees.refl d).setBuf _).when _ _ (((Dev.Frees.refl d).setBuf _).raise _ _ (by simp))

theorem Dev.giveBack_frees (d : Dev) (b : Nat) (r : BufRec) : d.Frees (d.giveBack b r) := by
  obtain ⟨o, p, c⟩ := r
  have hused : d.Frees ((d.setOwner b none).set (F.bufPclsUsedUsed (16 * p.val + c.val)) (d.get (F.bufPclsUsedUsed (16 * p.val + c.val)) - 1)) :=
    ((Dev.Frees.refl d).setBuf _).set _ _ (bufPclsUsed_mem (by omega))
  exact (hused.when _ _ (hused.set _ _ (bufPoolFree_mem p))).trans (Dev.poolLow_frees _ _)

theorem Dev.bufReject_frees (d : Dev) (b agent kind : Nat) : d.Frees (d.bufReject b agent kind) := by
  have hlog : R.bufBmErrlog ∈ bufRegs := mem_bufRegs.2 (.inr (.inl rfl))
  have herr : R.bufBmErr ∈ bufRegs := mem_bufRegs.2 (.inl rfl)
  unfold Dev.bufReject
  have h := (((Dev.Frees.refl d).set F.bufBmErrlogBuf b hlog).set F.bufBmErrlogAgent agent hlog).set F.bufBmErrlogKind kind hlog
  split
  · exact (h.set F.bufBmErrDbl _ herr).raise _ _ (by simp)
  · exact (h.set F.bufBmErrNown _ herr).raise _ _ (by simp)

theorem Dev.freeBuf_frees (d : Dev) (b agent : Nat) : d.Frees (d.freeBuf b agent) := by
  unfold Dev.freeBuf
  split
  · exact Dev.Frees.refl d
  · cases d.owner b with
    | none => exact d.bufReject_frees _ _ _
    | some r =>
      by_cases hr : agent = 63 ∨ r.owner = agent
      · simp only [if_pos hr]; exact d.giveBack_frees b r
      · simp only [if_neg hr]; exact d.bufReject_frees _ _ _

theorem Dev.freeBufs_frees (d : Dev) (bs : List Nat) (agent : Nat) : d.Frees (d.freeBufs bs agent) :=
  (Dev.Frees.refl d).each bs _ fun e b => e.freeBuf_frees b agent

end Sys2Proof.Machine
end

section
/-!
PROOFS. The stages of a lane (R308 to R311, R317): what each moment of kindling leaves.
-/

namespace Sys2Proof.Machine

set_option Elab.async false

/-! ### A port's link that goes down (R278) -/

theorem Dev.portOf_le {d : Dev} {l p : Nat} (h : d.portOf l = some p) : p ≤ l := by
  have hmem := List.mem_of_find?_eq_some h
  simp only [List.mem_map, List.mem_range] at hmem
  obtain ⟨i, -, rfl⟩ := hmem
  omega

/-- The registers and events of a port whose link goes down. -/
def linkRegs (p : Nat) : List Nat := [R.hsMacBond p, R.hsMacRxerr p, R.hsMacTxdrop p] ++ bufRegs

def linkEvents : List Nat := [0xCB, 0xE0, 0xE1, 0xE3]

theorem Dev.macDown_only (d : Dev) (p : Nat) (rxFrame : Bool) : d.Only (linkRegs p) linkEvents (d.macDown p rxFrame) := by
  unfold Dev.macDown
  refine (Dev.Only.refl _ _ d).when _ _ fun _ => ?_
  have hdown : d.Only (linkRegs p) linkEvents (d.set (F.hsMacBondLink p) 0) :=
    (Dev.Only.refl _ _ d).set _ _ (by simp [linkRegs, F.hsMacBondLink])
  have hrx := hdown.when rxFrame (fun d => d.count (F.hsMacRxerrCount p) 1) fun _ => hdown.count _ _ (by simp [linkRegs, F.hsMacRxerrCount])
  dsimp only
  generalize (d.set (F.hsMacBondLink p) 0).when rxFrame (fun d => d.count (F.hsMacRxerrCount p) 1) = d1 at hrx
  refine Dev.Only.raise ?_ _ _ (by simp [linkEvents])
  cases (d1.mac p).cur with
  | none => exact hrx
  | some x =>
    have hcur : d.Only (linkRegs p) linkEvents (d1.setMac p fun m => { m with cur := none }) :=
      hrx.congr (Dev.setMac_keeps d1 p _).1
    have hfree := (Dev.freeBufs_frees (d1.setMac p fun m => { m with cur := none }) x.bufs (26 + p / 48)).only.mono (l' := linkRegs p)
      (evs' := linkEvents) (fun a ha => List.mem_append_right _ ha) (by simp [linkEvents])
    exact ((hcur.trans hfree).count (F.hsMacTxdropCount p) 1 (by simp [linkRegs, F.hsMacTxdropCount])).congr (Dev.setMac_keeps _ p _).1

theorem Dev.Frees.lanes {d e : Dev} (h : d.Frees e) : e.lanes = d.lanes := by
  obtain ⟨b, hb⟩ := h.same
  exact hb.lanes

theorem Dev.macDown_lanes (d : Dev) (p : Nat) (rxFrame : Bool) : (d.macDown p rxFrame).lanes = d.lanes := by
  unfold Dev.macDown
  cases d.linkUp p
  · rfl
  · have hrx : ((d.set (F.hsMacBondLink p) 0).when rxFrame (fun d => d.count (F.hsMacRxerrCount p) 1)).lanes = d.lanes := by
      cases rxFrame <;> simp -implicitDefEqProofs
    simp -implicitDefEqProofs only [Dev.when_true]
    generalize (d.set (F.hsMacBondLink p) 0).when rxFrame (fun d => d.count (F.hsMacRxerrCount p) 1) = d1 at hrx
    cases (d1.mac p).cur with
    | none => simp -implicitDefEqProofs [hrx]
    | some x => simp -implicitDefEqProofs [(Dev.freeBufs_frees _ x.bufs (26 + p / 48)).lanes, hrx]

/-- What a link that a lane takes down may touch: nothing of the lane. -/
theorem Dev.laneLinkDown_keeps (d : Dev) (l : Nat) :
    (d.laneLinkDown l).lanes = d.lanes ∧ ∃ p ≤ l, d.Only (linkRegs p) linkEvents (d.laneLinkDown l) := by
  unfold Dev.laneLinkDown
  cases h : d.portOf l with
  | none => exact ⟨rfl, l, Nat.le_refl l, Dev.Only.refl _ _ d⟩
  | some p =>
    simp only [Dev.macLost]
    cases d.linkUp p
    · exact ⟨rfl, p, Dev.portOf_le h, Dev.Only.refl _ _ d⟩
    · refine ⟨?_, p, Dev.portOf_le h, ?_⟩
      · rw [Dev.when_true, Dev.macDown_lanes]
      · exact Dev.macDown_only { d with free := d.free + 1 } p _

theorem linkRegs_range {a p : Nat} (h : a ∈ linkRegs p) : 0x9000000 ≤ a ∧ (0xA000000 ≤ a → hsBase 0x40 p ≤ a ∧ a < hsBase 0x40 p + 0x10000) := by
  simp only [linkRegs, List.mem_append, List.mem_cons, List.not_mem_nil, or_false] at h
  rcases h with (rfl | rfl | rfl) | h
  · simp only [R.hsMacBond, hsBase]; omega
  · simp only [R.hsMacRxerr, hsBase]; omega
  · simp only [R.hsMacTxdrop, hsBase]; omega
  · have hb := bufRegs_range h
    omega

/-- A register of a lane's block is none of a port's link. -/
theorem laneReg_notMem_linkRegs {l p a : Nat} (h : hsBase 0 l ≤ a) (h' : a < hsBase 0 l + 0x10000) : a ∉ linkRegs p := by
  intro hm
  obtain ⟨-, hb⟩ := linkRegs_range hm
  simp only [hsBase] at h h' hb
  omega

/-- A field of a lane's block stands when the lane takes its port's link down. -/
theorem Dev.get_laneLinkDown (d : Dev) (l : Nat) {f : Fld} (h : hsBase 0 l ≤ f.addr) (h' : f.addr < hsBase 0 l + 0x10000) :
    (d.laneLinkDown l).get f = d.get f := by
  obtain ⟨-, p, -, honly⟩ := d.laneLinkDown_keeps l
  refine honly.get_eq (laneReg_notMem_linkRegs h h') ?_ (by simp [linkEvents])
  simp only [hsBase] at h
  omega

theorem Dev.Raised.laneLinkDown {d e : Dev} {n : Nat} (h : d.Raised n e) (l : Nat) (hn : n ∉ linkEvents) (hlt : n < 0x100) :
    d.Raised n (e.laneLinkDown l) := by
  obtain ⟨-, p, -, honly⟩ := e.laneLinkDown_keeps l
  refine h.only honly hn fun hm => ?_
  have := (linkRegs_range hm).1
  simp only [R.hrtEvtSrcCtl] at this
  omega

/-! ### Fields of a lane through its events -/

theorem Dev.get_laneEvent (d : Dev) (l n : Nat) (addrs : List Nat) {f : Fld} {k : Nat} (h : hsBase 0 k ≤ f.addr) (h' : f.addr < hsBase 0 k + 0x10000)
    (hn : n < 0x100) : (d.laneEvent l n addrs).get f = d.get f := by
  refine (d.laneEvent_marks l n addrs).only.get_eq ?_ ?_ (by simpa using hn)
  · simp only [hsBase] at h h'
    simp only [R.hsLngSum0, R.hsLngSum1, List.mem_cons, List.not_mem_nil, or_false, not_or]
    omega
  · simp only [hsBase] at h
    omega

theorem Dev.laneEvent_lanes (d : Dev) (l n : Nat) (addrs : List Nat) : (d.laneEvent l n addrs).lanes = d.lanes := (d.laneEvent_marks l n addrs).same.lanes

theorem Dev.laneFail_shows (d : Dev) (l : Nat) {n : Nat} (addrs : List Nat) (hv : neverRaised n = false) (hn : n ∉ linkEvents) :
    (d.laneFail l n addrs).stage l = 6 ∧ d.Raised n (d.laneFail l n addrs)
      ∧ (d.laneFail l n addrs).get (F.hsLnStatKfail l) = satAdd 8 (d.get (F.hsLnStatKfail l)) 1 := by
  have hlt : n < 0x100 := by
    simp only [neverRaised, Bool.or_eq_false_iff, decide_eq_false_iff_not] at hv
    omega
  have hstat : hsBase 0 l ≤ R.hsLnStat l ∧ R.hsLnStat l < hsBase 0 l + 0x10000 := by simp only [R.hsLnStat]; omega
  unfold Dev.laneFail
  refine ⟨?_, ?_, ?_⟩
  · rw [Dev.stage, Dev.get_laneLinkDown _ _ hstat.1 hstat.2, Dev.get_laneEvent _ _ _ _ hstat.1 hstat.2 hlt, Dev.get_setLane, Dev.setStage,
      Dev.get_set_lt _ _ (by simp [Fld.fits, F.hsLnStatStage]) (by simp [F.hsLnStatStage])]
  · refine Dev.Raised.laneLinkDown ?_ l hn hlt
    refine (Dev.laneEvent_raised _ l addrs hv).of_ctl (Eq.symm ?_) rfl
    rw [Dev.reg_setLane, Dev.setStage, Dev.reg_set_ne, Dev.reg_count_ne]
    · simp only [F.hsLnStatKfail, R.hsLnStat, R.hrtEvtSrcCtl, hsBase]; omega
    · simp only [F.hsLnStatStage, R.hsLnStat, R.hrtEvtSrcCtl, hsBase]; omega
  · rw [Dev.get_laneLinkDown _ _ hstat.1 hstat.2, Dev.get_laneEvent _ _ _ _ hstat.1 hstat.2 hlt, Dev.get_setLane, Dev.setStage,
      Dev.get_set_apart _ _ _ _ (by simp [Fld.fits, F.hsLnStatKfail]) (by simp [Fld.apart, F.hsLnStatKfail, F.hsLnStatStage]),
      Dev.get_count_self _ _ _ (by simp [Fld.fits, F.hsLnStatKfail])]
    rfl

/-! ### Entries to the stages -/

/-- What a stage entered with its event leaves. -/
theorem Dev.laneEvent_stage (d : Dev) (l n : Nat) (addrs : List Nat) (hn : n < 0x100) (k : Nat) : (d.laneEvent l n addrs).stage k = d.stage k :=
  Dev.get_laneEvent d l n addrs (k := k) (by simp only [F.hsLnStatStage, R.hsLnStat]; omega) (by simp only [F.hsLnStatStage, R.hsLnStat]; omega) hn

@[simp] theorem Dev.stage_setLane (d : Dev) (l k : Nat) (f : Lane → Lane) : (d.setLane l f).stage k = d.stage k := rfl
@[simp] theorem Dev.lane_setStage (d : Dev) (l n k : Nat) : (d.setStage l n).lane k = d.lane k := rfl
@[simp] theorem Dev.stage_emit (d : Dev) (o : Output) (k : Nat) : (d.emit o).stage k = d.stage k := rfl

theorem Dev.stage_setStage (d : Dev) (l : Nat) {n : Nat} (h : n < 8) : (d.setStage l n).stage l = n :=
  Dev.get_set_lt d _ (by simp [Fld.fits, F.hsLnStatStage]) h

theorem Dev.setStage_only (d : Dev) (l n : Nat) : d.Only [R.hsLnStat l] [] (d.setStage l n) :=
  (Dev.Only.refl _ _ d).set _ _ (by simp [F.hsLnStatStage])

theorem Dev.stage_initTaps (d : Dev) (l k : Nat) : (d.initTaps l).stage k = d.stage k :=
  (d.initTaps_only l).get_eq (by simp only [F.hsLnStatStage, R.hsLnStat, R.hsLnTxeq, hsBase, List.mem_singleton]; omega)
    (by simp only [F.hsLnStatStage, R.hsLnStat, hsBase]; omega) (by simp)

/-- The registers of a lane that enters a stage with an event. -/
def stageRegs (l : Nat) : List Nat := [R.hsLnStat l, R.hsLngSum0 (l / 48), R.hsLngSum1 (l / 48)]

/-- An event of a lane behind changes of its status alone. -/
theorem Dev.Only.laneEvent {d e : Dev} {l : Nat} (h : d.Only [R.hsLnStat l] [] e) {n : Nat} (addrs : List Nat) (hv : neverRaised n = false) :
    d.Raised n (e.laneEvent l n addrs) ∧ d.Only (stageRegs l) [n] (e.laneEvent l n addrs) := by
  refine ⟨(Dev.laneEvent_raised e l addrs hv).of_ctl (Eq.symm ?_) rfl, ?_⟩
  · have hlt : n < 0x100 := by
      simp only [neverRaised, Bool.or_eq_false_iff, decide_eq_false_iff_not] at hv
      omega
    exact h _ (by simp only [List.mem_singleton, R.hrtEvtSrcCtl, R.hsLnStat, hsBase]; omega) (by simp)
  · exact (h.mono (by simp [stageRegs]) (by simp)).trans ((e.laneEvent_marks l n addrs).only.mono (by simp [stageRegs]) (by simp))

theorem Dev.enterActive_shows (d : Dev) (l : Nat) :
    (d.enterActive l).stage l = 5 ∧ d.Raised 0xB7 (d.enterActive l) ∧ d.Only (stageRegs l) [0xB7] (d.enterActive l) := by
  unfold Dev.enterActive
  have honly : d.Only [R.hsLnStat l] [] ((d.setStage l 5).setLane l fun x => { x with secSym := 0, sd := false, eyeLow := false }) :=
    (d.setStage_only l 5).congr (Dev.setLane_keeps _ l _).1
  obtain ⟨hraised, hlimits⟩ := honly.laneEvent [R.hsLnStat l] (by decide : neverRaised 0xB7 = false)
  refine ⟨?_, hraised, hlimits⟩
  rw [Dev.laneEvent_stage _ _ _ _ (by decide), Dev.stage_setLane, Dev.stage_setStage _ _ (by decide)]

/-- Stage 2 (R308). -/
theorem Dev.enterTrain_trains {d : Dev} {l : Nat} (h : d.lcfg l F.hsLnCfgTrnen = 1) :
    d.enterTrain l = ((d.setStage l 2).setLane l fun x => { x with best := none, ready := false }).emit (.trainFrame l none false) := if_pos h

/-- With TRNEN = 0 stage 3 follows at once (R308). -/
theorem Dev.enterTrain_locks {d : Dev} {l : Nat} (h : d.lcfg l F.hsLnCfgTrnen = 0) : d.enterTrain l = (d.initTaps l).enterLock l :=
  if_neg (by simp [h])

theorem Dev.lcfg_congr {d e : Dev} {l : Nat} (h : e.lane l = d.lane l) (f : Nat → Fld) : e.lcfg l f = d.lcfg l f := by
  simp only [Dev.lcfg, h]

/-- What the kindling frames of a lane say stands while its configuration, its message and the registers it reads do. -/
theorem Dev.kindlingOf_congr {d e : Dev} {l : Nat} (hcfg : (e.lane l).cfg = (d.lane l).cfg) (hreq : (e.lane l).lrxReq = (d.lane l).lrxReq)
    (hseq : (e.lane l).cseq = (d.lane l).cseq) (hmsg : (e.lane l).msg = (d.lane l).msg)
    (hbond : ∀ p, e.reg (R.hsMacBond p) = d.reg (R.hsMacBond p)) (hfec : e.reg (R.hsLnCfg l) = d.reg (R.hsLnCfg l)) :
    e.kindlingOf l = d.kindlingOf l := by
  have hlanes : ∀ p, e.get (F.hsMacBondLanes p) = d.get (F.hsMacBondLanes p) := fun p => congrArg (F.hsMacBondLanes p).of (hbond p)
  have hrate : ∀ p, e.get (F.hsMacBondLrate p) = d.get (F.hsMacBondLrate p) := fun p => congrArg (F.hsMacBondLrate p).of (hbond p)
  have hallow : e.get (F.hsLnCfgFecallow l) = d.get (F.hsLnCfgFecallow l) := congrArg (F.hsLnCfgFecallow l).of hfec
  have hport : e.portOf l = d.portOf l := by simp only [Dev.portOf, hlanes]
  have hcap : e.capMsg l = d.capMsg l := by
    simp only [Dev.capMsg, Dev.lcfg, hcfg, hreq, hlanes, hallow, Dev.laneRate, Dev.firstLane, hport, hrate]
  simp only [Dev.kindlingOf, hcap, hseq, hmsg]

theorem Dev.enterLock_shows (d : Dev) (l : Nat) :
    (d.enterLock l).stage l = 3 ∧ (d.enterLock l).out = .kindling l (d.kindlingOf l) :: d.out ∧ d.Only [R.hsLnStat l] [] (d.enterLock l) := by
  unfold Dev.enterLock Dev.sendKindling
  have hreg : ∀ a, a ≠ R.hsLnStat l → ((d.setStage l 3).setLane l fun x => { x with eyes := [] }).reg a = d.reg a := fun a ha =>
    (Dev.reg_setLane _ l _ a).trans (Dev.reg_set_ne d 3 ha)
  have hlane : ((d.setStage l 3).setLane l fun x => { x with eyes := [] }).lane l = { d.lane l with eyes := [] } :=
    Dev.lane_setLane_self (d.setStage l 3) l _
  have hk : ((d.setStage l 3).setLane l fun x => { x with eyes := [] }).kindlingOf l = d.kindlingOf l := by
    refine Dev.kindlingOf_congr (by rw [hlane]) (by rw [hlane]) (by rw [hlane]) (by rw [hlane]) (fun p => hreg _ ?_) (hreg _ ?_)
    · simp only [R.hsMacBond, R.hsLnStat, hsBase]; omega
    · simp only [R.hsLnCfg, R.hsLnStat]; omega
  refine ⟨?_, ?_, ?_⟩
  · rw [Dev.stage_emit, Dev.stage_setLane, Dev.stage_setStage _ _ (by decide)]
  · rw [Dev.emit_out, hk]
    rfl
  · exact ((d.setStage_only l 3).congr (Dev.setLane_keeps _ l _).1).emit _

/-- The status of a lane that enters stage 1. -/
def Dev.clearStat (d : Dev) (l : Nat) : Dev :=
  (((d.set (F.hsLnStatLrxact l) 0).set (F.hsLnStatLegacy l) 0).set (F.hsLnStatTxprec l) 0).set (F.hsLnStatRxprec l) 0

theorem Dev.clearStat_only (d : Dev) (l : Nat) : d.Only [R.hsLnStat l] [] (d.clearStat l) :=
  ((((Dev.Only.refl _ _ d).set _ _ (by simp [F.hsLnStatLrxact])).set _ _ (by simp [F.hsLnStatLegacy])).set _ _ (by simp [F.hsLnStatTxprec])).set
    _ _ (by simp [F.hsLnStatRxprec])

/-- A lane at stage 1 goes on to the stage of its loop (R319). -/
theorem Dev.loopStage_shows (d : Dev) (l : Nat) (hst : d.stage l = 1) :
    (d.loopStage l).stage l = (if d.get (F.hsLnLoopMode l) = 1 then 3 else if d.get (F.hsLnLoopMode l) = 2 then 5 else 1)
      ∧ ((d.loopStage l).lane l).cfg = (d.lane l).cfg ∧ d.Only (stageRegs l) [0xB7] (d.loopStage l) := by
  unfold Dev.loopStage
  by_cases h1 : d.get (F.hsLnLoopMode l) = 1
  · rw [if_pos h1, if_pos h1]
    exact ⟨Dev.stage_setStage _ _ (by decide), rfl, (d.setStage_only l 3).mono (by simp [stageRegs]) (by simp)⟩
  · rw [if_neg h1, if_neg h1]
    by_cases h2 : d.get (F.hsLnLoopMode l) = 2
    · rw [if_pos h2, if_pos h2]
      obtain ⟨hstage, -, honly⟩ := d.enterActive_shows l
      refine ⟨hstage, ?_, honly⟩
      have hlanes : (d.enterActive l).lane l
          = ((d.setStage l 5).setLane l fun x => { x with secSym := 0, sd := false, eyeLow := false }).lane l := by
        simp only [Dev.lane, Dev.enterActive, Dev.laneEvent_lanes]
      rw [hlanes, Dev.lane_setLane_self]
      rfl
    · rw [if_neg h2, if_neg h2]
      exact ⟨hst, rfl, Dev.Only.refl _ _ d⟩

/-- Where a lane that starts anew goes (R319, R325). -/
theorem Dev.laneStart_shows (d : Dev) (l : Nat) :
    (d.laneStart l).stage l = (if d.laneOn l then (if d.get (F.hsLnLoopMode l) = 1 then 3 else if d.get (F.hsLnLoopMode l) = 2 then 5 else 1) else 0)
      ∧ (d.laneOn l = true → ((d.laneStart l).lane l).cfg = d.reg (R.hsLnCfg l))
      ∧ d.Only (stageRegs l) [0xB7] (d.laneStart l) := by
  unfold Dev.laneStart
  cases hon : d.laneOn l
  · simp only [Bool.not_false, if_true]
    exact ⟨Dev.stage_setStage _ _ (by decide), fun h => absurd h (by decide), (d.setStage_only l 0).mono (by simp [stageRegs]) (by simp)⟩
  · simp only [Bool.not_true, Bool.false_eq_true, if_false, if_true]
    have hclear := d.clearStat_only l
    unfold Dev.clearStat at hclear
    generalize (((d.set (F.hsLnStatLrxact l) 0).set (F.hsLnStatLegacy l) 0).set (F.hsLnStatTxprec l) 0).set (F.hsLnStatRxprec l) 0 = e at hclear
    generalize hf : (fun x : Lane => ({ x with
      cfg := d.reg (R.hsLnCfg l), msg := none, run := 0, acked := false, good := false, lrxDone := false, lrxReq := false
      cseq := if x.lrxReq then (x.cseq + 1) % 128 else x.cseq, detected := false, offer := none, resolved := false, legacyWait := false
      eyeLow := false, eyes := [], agreed := none, gone := false } : Lane)) = f
    have hcfg : ((e.setLane l f).lane l).cfg = d.reg (R.hsLnCfg l) := by rw [Dev.lane_setLane_self, ← hf]
    have hstart : d.Only [R.hsLnStat l] [] ((e.setLane l f).setStage l 1) :=
      (hclear.congr (Dev.setLane_keeps e l f).1).trans (Dev.setStage_only _ l 1)
    have hmode : ((e.setLane l f).setStage l 1).get (F.hsLnLoopMode l) = d.get (F.hsLnLoopMode l) :=
      hstart.get_eq (by simp only [F.hsLnLoopMode, R.hsLnLoop, R.hsLnStat, List.mem_singleton]; omega)
        (by simp only [F.hsLnLoopMode, R.hsLnLoop, hsBase]; omega) (by simp)
    obtain ⟨hstage, hkept, honly⟩ := ((e.setLane l f).setStage l 1).loopStage_shows l (Dev.stage_setStage _ _ (by decide))
    exact ⟨by rw [hstage, hmode], fun _ => by rw [hkept, Dev.lane_setStage, hcfg], (hstart.mono (by simp [stageRegs]) (by simp)).trans honly⟩

theorem Dev.laneEvent_out (d : Dev) (l n : Nat) (addrs : List Nat) : d.out <:+ (d.laneEvent l n addrs).out := by
  unfold Dev.laneEvent
  dsimp only
  generalize (if l % 48 < 32 then F.hsLngSum0Lanes (l / 48) else F.hsLngSum1Lanes (l / 48)) = f
  exact Dev.raise_out (d.set f (setBit (d.get f) (l % 48 % 32))) n addrs

theorem Dev.enterTrain_shows {d : Dev} {l : Nat} (h : d.lcfg l F.hsLnCfgTrnen = 1) :
    (d.enterTrain l).stage l = 2 ∧ (d.enterTrain l).out = .trainFrame l none false :: d.out ∧ d.Only [R.hsLnStat l] [] (d.enterTrain l)
      ∧ ((d.enterTrain l).lane l).offer = (d.lane l).offer := by
  rw [Dev.enterTrain_trains h]
  refine ⟨?_, rfl, ((d.setStage_only l 2).congr (Dev.setLane_keeps _ l _).1).emit _, ?_⟩
  · rw [Dev.stage_emit, Dev.stage_setLane, Dev.stage_setStage _ _ (by decide)]
  · have hlane : (((d.setStage l 2).setLane l fun x => { x with best := none, ready := false }).emit (.trainFrame l none false)).lane l
        = ((d.setStage l 2).setLane l fun x => { x with best := none, ready := false }).lane l := rfl
    rw [hlane, Dev.lane_setLane_self, Dev.lane_setStage]

/-- A lane that runs the stages in stage 1 without autonegotiation (R308). -/
theorem execLnDetect_trains {l : Fin 96} {P : State → Prop} {s : State} (hs : s.dev.out = []) (hst : s.dev.stage l = 1) (hr : s.dev.runs l = true)
    (han : s.dev.lcfg l F.hsLnCfgAnen = 0)
    (h : ∀ t : State, ((s.dev.enterTrain l).laneEvent l 0xB0 [R.hsLnStat l]).EndsAs t.dev →
      t.outputs = ((s.dev.enterTrain l).laneEvent l 0xB0 [R.hsLnStat l]).out ++ s.outputs → P t) :
    ∃ t, exec (.lnDetect l) s = .next t ∧ P t := by
  simp only [exec, execLnDetect]
  refine State.run_ends hs rfl fun t ht hout _ => ?_
  have hgo : (decide (s.dev.stage l ≠ 1) || !s.dev.runs l) = false := by simp [hst, hr]
  simp only [hgo, Bool.false_eq_true, if_false, han, Nat.zero_ne_one] at ht hout
  exact h t ht hout

/-- The end of an autonegotiation (R309). -/
theorem execAutonegDone_ends {l : Fin 96} {own : Bool} {offer : BitVec 4} {P : State → Prop} {s : State} {e : Dev} (hs : s.dev.out = [])
    (hst : s.dev.stage l = 1) (hr : s.dev.runs l = true) (han : s.dev.lcfg l F.hsLnCfgAnen = 1) (hdet : (s.dev.lane l).detected = true)
    (he : e = if own then ((s.dev.setLane l fun x => { x with offer := some offer.toNat }).enterTrain l).laneEvent l 0xB0 [R.hsLnStat l]
      else s.dev.laneFail l 0xB1 [R.hsLnStat l])
    (h : ∀ t : State, e.EndsAs t.dev → P t) : ∃ t, exec (.autonegDone l own offer) s = .next t ∧ P t := by
  simp only [exec, execAutonegDone]
  refine State.run_ends hs rfl fun t ht _ _ => ?_
  have hgo : (decide (s.dev.stage l ≠ 1) || !s.dev.runs l || decide (s.dev.lcfg l F.hsLnCfgAnen ≠ 1) || !(s.dev.lane l).detected) = false := by
    simp [hst, hr, han, hdet]
  simp only [hgo, Bool.false_eq_true, if_false] at ht
  exact h t (he ▸ ht)

/-- An eye measured in training (R310). -/
theorem execEyeMeasure_trains {l : Fin 96} {height width snr : Nat} {P : State → Prop} {s : State} (hs : s.dev.out = []) (hst : s.dev.stage l = 2)
    (hr : s.dev.runs l = true)
    (h : ∀ t : State, (s.dev.trainEye l (min height 255)).EndsAs t.dev → t.outputs = (s.dev.trainEye l (min height 255)).out ++ s.outputs → P t) :
    ∃ t, exec (.eyeMeasure l height width snr) s = .next t ∧ P t := by
  simp only [exec, execEyeMeasure]
  refine State.run_ends hs rfl fun t ht hout _ => ?_
  simp only [hst, if_true, hr, Dev.when_true] at ht hout
  exact h t ht hout

/-- A lane that fails in a stage it runs leaves for stage 6 (R317). -/
theorem Dev.EndsAs.laneFail {d t : Dev} {l n : Nat} {addrs : List Nat} (ht : (d.laneFail l n addrs).EndsAs t) (hv : neverRaised n = false)
    (hn : n ∉ linkEvents) : t.stage l = 6 ∧ d.Raised n t ∧ t.get (F.hsLnStatKfail l) = satAdd 8 (d.get (F.hsLnStatKfail l)) 1 := by
  obtain ⟨hst, hraised, hk⟩ := d.laneFail_shows l addrs hv hn
  exact ⟨(ht.get _).trans hst, ht.raised.2 hraised, (ht.get _).trans hk⟩

/-- Symbol lock on converged eyes (R311). -/
theorem execSymbolLock_ends {l : Fin 96} {P : State → Prop} {s : State} {e : Dev} (hs : s.dev.out = []) (hst : s.dev.stage l = 3)
    (hgen : s.dev.flag (F.hsLnPrbsGen l) = false) (heyes : eyesConverged (s.dev.lane l).eyes = true)
    (he : (if s.dev.get (F.hsLnLoopMode l) = 1 || s.dev.flag (F.hsLnStatLrxact l) then s.dev.enterActive l
      else ((s.dev.setStage l 4).setLane l fun x => { x with
        lrxReq := s.dev.lcfg l F.hsLnCfgLrxen == 1 && decide (s.dev.get (F.hsLnEyeEyeh l) < s.dev.get (F.hsLnEyethrLrxthr l))
        cseq := if x.lrxReq = (s.dev.lcfg l F.hsLnCfgLrxen == 1 && decide (s.dev.get (F.hsLnEyeEyeh l) < s.dev.get (F.hsLnEyethrLrxthr l)))
          then x.cseq else (x.cseq + 1) % 128 }).sendKindling l) = e)
    (h : ∀ t : State, e.EndsAs t.dev → t.outputs = e.out ++ s.outputs → P t) : ∃ t, exec (.symbolLock l) s = .next t ∧ P t := by
  simp only [exec, execSymbolLock]
  refine State.run_ends hs rfl fun t ht hout _ => ?_
  have hgo : (decide (s.dev.stage l ≠ 3) || s.dev.flag (F.hsLnPrbsGen l) || !eyesConverged (s.dev.lane l).eyes) = false := by
    simp [hst, hgen, heyes]
  simp only [hgo, Bool.false_eq_true, if_false, he] at ht hout
  exact h t ht hout

theorem Dev.runs_gen {d : Dev} {l : Nat} (h : d.runs l = true) : d.flag (F.hsLnPrbsGen l) = false := by
  simp only [Dev.runs, Bool.and_eq_true, Bool.not_eq_true'] at h
  exact h.2

theorem Dev.runs_mode {d : Dev} {l : Nat} (h : d.runs l = true) : d.get (F.hsLnLoopMode l) ≠ 1 := by
  intro h1
  simp [Dev.runs, h1] at h

@[simp] theorem Dev.lane_emit (d : Dev) (o : Output) (l : Nat) : (d.emit o).lane l = d.lane l := rfl
theorem Dev.lane_advertise (d : Dev) (l k : Nat) : (d.advertise l).lane k = d.lane k := rfl
theorem Dev.kindlingOf_emit (d : Dev) (o : Output) (l : Nat) : (d.emit o).kindlingOf l = d.kindlingOf l := rfl

theorem Dev.EndsAs.kindlingOf {e t : Dev} (h : e.EndsAs t) (l : Nat) : t.kindlingOf l = e.kindlingOf l :=
  Dev.kindlingOf_congr (by rw [h.lane]) (by rw [h.lane]) (by rw [h.lane]) (by rw [h.lane]) (fun _ => h.reg _) (h.reg _)

theorem Dev.initTaps_kindlingOf (d : Dev) (l : Nat) : (d.initTaps l).kindlingOf l = d.kindlingOf l := by
  have hreg : ∀ a, a ≠ R.hsLnTxeq l → (d.initTaps l).reg a = d.reg a := fun a ha => d.initTaps_only l a (by simpa using ha) (by simp)
  refine Dev.kindlingOf_congr rfl rfl rfl rfl (fun p => hreg _ ?_) (hreg _ ?_)
  · simp only [R.hsMacBond, R.hsLnTxeq, hsBase]; omega
  · simp only [R.hsLnCfg, R.hsLnTxeq]; omega

/-- A better eye asks the card for another step (R310). -/
theorem Dev.trainEye_asks {d : Dev} {l height : Nat} (h : (d.lane l).ready = false) (hall : (d.lane l).best.all (decide <| · < height) = true) :
    ∃ ask, d.trainEye l height
      = ({ d with free := d.free + 1 }.setLane l fun x => { x with best := some height }).emit (.trainFrame l (some ask) false) := by
  unfold Dev.trainEye
  simp only [h, Bool.false_eq_true, if_false, hall, if_true]
  exact ⟨_, rfl⟩

/-- The first eye that is no better ends the requests (R310). -/
theorem Dev.trainEye_ready {d : Dev} {l height b : Nat} (h : (d.lane l).ready = false) (hb : (d.lane l).best = some b) (hle : height ≤ b) :
    d.trainEye l height = (d.setLane l fun x => { x with ready := true }).emit (.trainFrame l none true) := by
  unfold Dev.trainEye
  simp [h, hb, Nat.not_lt.2 hle]

/-- A state and a value, found in either order. -/
theorem State.exists_comm {α : Type} {p : State → Prop} {q : State → α → Prop} (h : ∃ a, ∃ t, p t ∧ q t a) : ∃ t a, p t ∧ q t a := by
  obtain ⟨a, t, h⟩ := h
  exact ⟨t, a, h⟩

/-! ### The statements -/

/-- Settles O33: each moment of kindling moves its lane to the stage that follows. -/
theorem kindlingGoesStageByStage : Obligations.KindlingGoesStageByStage := by
  refine ⟨?_, ?_, ?_, ?_, ?_, ?_, ?_, ?_, ?_, ?_, ?_, ?_, ?_, ?_⟩
  · intro l
    refine State.of_sent ?_ fun _ h => h
    intro s hs hst hr han htr
    refine execLnDetect_trains hs hst hr han fun t ht hout => ?_
    obtain ⟨hstage, hsent, honly, -⟩ := Dev.enterTrain_shows htr
    obtain ⟨hraised, hlimits⟩ := honly.laneEvent [R.hsLnStat l] (by decide : neverRaised 0xB0 = false)
    refine ⟨?_, ht.raised.2 hraised, ?_, ht.only.2 hlimits⟩
    · rw [Dev.stage, ht.get]
      exact (Dev.laneEvent_stage _ _ _ _ (by decide) _).trans hstage
    · rw [hout]
      exact List.mem_append_left _ ((Dev.laneEvent_out _ _ _ _).mem (by simp [hsent]))
  · intro l
    refine State.of_sent ?_ fun _ h => h
    intro s hs hst hr han htr
    refine execLnDetect_trains hs hst hr han fun t ht hout => ?_
    rw [Dev.enterTrain_locks htr] at ht hout
    obtain ⟨hstage, hsent, honly⟩ := (s.dev.initTaps l).enterLock_shows l
    obtain ⟨hraised, hlimits⟩ := honly.laneEvent [R.hsLnStat l] (by decide : neverRaised 0xB0 = false)
    have htap : ∀ f : Fld, f.addr = R.hsLnTxeq l → t.dev.getInt f = (s.dev.initTaps l).getInt f := fun f hf => by
      rw [ht.getInt, Dev.getInt, hlimits.get_eq, ← Dev.getInt]
      · rw [hf]; simp only [stageRegs, R.hsLnTxeq, R.hsLnStat, R.hsLngSum0, R.hsLngSum1, hsBase, List.mem_cons, List.not_mem_nil, or_false]; omega
      · rw [hf]; simp only [R.hsLnTxeq, hsBase]; omega
      · simp
    obtain ⟨hcm2, hcm1, hc1, hc0⟩ := s.dev.initTaps_taps l
    refine ⟨?_, ht.raised.2 ?_, (htap _ rfl).trans hcm2, (htap _ rfl).trans hcm1, (htap _ rfl).trans hc1, (htap _ rfl).trans hc0, ?_⟩
    · rw [Dev.stage, ht.get]
      exact (Dev.laneEvent_stage _ _ _ _ (by decide) _).trans hstage
    · exact hraised.of_ctl ((s.dev.initTaps_only l) _ (by simp only [List.mem_singleton, R.hrtEvtSrcCtl, R.hsLnTxeq, hsBase]; omega) (by simp)).symm rfl
    · rw [hout]
      refine List.mem_append_left _ ((Dev.laneEvent_out _ _ _ _).mem ?_)
      rw [hsent, Dev.initTaps_kindlingOf]
      exact List.mem_cons_self
  · intro l
    refine State.of_sent ?_ fun _ h => h
    intro s hs hst hr han
    simp only [exec, execLnDetect]
    refine State.run_ends hs rfl fun t ht hout _ => ?_
    have hgo : (decide (s.dev.stage l ≠ 1) || !s.dev.runs l) = false := by simp [hst, hr]
    simp only [hgo, Bool.false_eq_true, if_false, han, if_true] at ht hout
    refine ⟨?_, ?_, ht.only.2 ((Dev.Only.of_regs (Dev.setLane_keeps s.dev l _).1 _ _).emit _)⟩
    · rw [ht.lane, Dev.lane_advertise, Dev.lane_setLane_self]
    · rw [hout, Dev.advertise, Dev.emit_out]
      simp -implicitDefEqProofs [hs, Dev.laneRate, Dev.firstLane, Dev.portOf]
  · intro l offer
    refine State.of_sent ?_ fun _ h => h
    intro s hs hst hr han hdet htr
    refine execAutonegDone_ends hs hst hr han hdet (if_pos rfl).symm fun t ht => ?_
    have hcfg : (s.dev.setLane l fun x => { x with offer := some offer.toNat }).lcfg l F.hsLnCfgTrnen = 1 := by
      rw [Dev.lcfg, Dev.lane_setLane_self]
      exact htr
    obtain ⟨hstage, -, honly, hoffer⟩ := Dev.enterTrain_shows hcfg
    obtain ⟨hraised, hlimits⟩ := honly.laneEvent [R.hsLnStat l] (by decide : neverRaised 0xB0 = false)
    refine ⟨?_, ?_, ht.raised.2 (hraised.of_ctl rfl rfl), ht.only.2 ((Dev.Only.of_regs (Dev.setLane_keeps s.dev l _).1 _ _).trans hlimits)⟩
    · rw [Dev.stage, ht.get]
      exact (Dev.laneEvent_stage _ _ _ _ (by decide) _).trans hstage
    · rw [ht.lane, Dev.lane, Dev.laneEvent_lanes, ← Dev.lane, hoffer, Dev.lane_setLane_self]
  · intro l offer
    refine State.of_sent ?_ fun _ h => h
    intro s hs hst hr han hdet
    exact execAutonegDone_ends hs hst hr han hdet (if_neg (by decide)).symm fun t ht => ht.laneFail (by decide) (by decide)
  · intro l height width snr
    refine State.of_sent ?_ fun _ h => h
    intro s hs hst hr hready hbest
    have hall : (s.dev.lane l).best.all (decide <| · < min height 255) = true := by
      cases hb : (s.dev.lane l).best with
      | none => rfl
      | some b => simpa using hbest b hb
    obtain ⟨ask, hask⟩ := Dev.trainEye_asks hready hall
    refine State.exists_comm ⟨ask, execEyeMeasure_trains hs hst hr fun t ht hout => ?_⟩
    rw [hask] at ht hout
    refine ⟨?_, by rw [hout, Dev.emit_out]; simp [hs], ?_, ht.only.2 ((Dev.Only.of_regs rfl _ _).emit _)⟩
    · rw [ht.lane, Dev.lane_emit, Dev.lane_setLane_self]
    · rw [ht.lane, Dev.lane_emit, Dev.lane_setLane_self]
      exact hready
  · intro l height width snr b
    refine State.of_sent ?_ fun _ h => h
    intro s hs hst hr hready hbest hle
    refine execEyeMeasure_trains hs hst hr fun t ht hout => ?_
    rw [Dev.trainEye_ready hready (b := b) hbest hle] at ht hout
    refine ⟨by rw [hout, Dev.emit_out]; simp [hs], ?_, ht.only.2 ((Dev.Only.of_regs (Dev.setLane_keeps s.dev l _).1 _ _).emit _)⟩
    rw [ht.lane, Dev.lane_emit, Dev.lane_setLane_self]
  · intro l
    refine State.of_sent ?_ fun _ h => h
    intro s hs hst hr hready
    simp only [exec, execTrainingDone]
    refine State.run_ends hs rfl fun t ht hout _ => ?_
    simp only [hst, hr, hready, BEq.rfl, Bool.and_self, Dev.when_true] at ht hout
    obtain ⟨hstage, hsent, honly⟩ := s.dev.enterLock_shows l
    exact ⟨(ht.get _).trans hstage, by rw [hout, hsent, hs]; rfl, ht.only.2 honly⟩
  · intro l
    refine State.of_sent ?_ fun _ h => h
    intro s hs hst hr
    simp only [exec, execLnTrainTo]
    refine State.run_ends hs rfl fun t ht _ _ => ?_
    simp only [hst, hr, BEq.rfl, Bool.and_self, Dev.when_true] at ht
    exact ht.laneFail (by decide) (by decide)
  · intro l
    refine State.of_sent ?_ fun _ h => h
    intro s hs hst hr hlrx heyes
    refine execSymbolLock_ends hs hst (Dev.runs_gen hr) heyes (if_neg (by simp [Dev.runs_mode hr, Dev.flag, hlrx])) fun t ht hout => ?_
    refine ⟨?_, ?_, ?_, ht.only.2 (((s.dev.setStage_only l 4).congr (Dev.setLane_keeps _ l _).1).emit _)⟩
    · rw [Dev.stage, ht.get]
      exact Dev.stage_setStage _ _ (by decide)
    · rw [hout, Dev.sendKindling, Dev.emit_out, ht.kindlingOf, Dev.sendKindling, Dev.kindlingOf_emit]
      simp -implicitDefEqProofs [hs, Dev.setStage]
    · rw [ht.lane, Dev.sendKindling, Dev.lane_emit, Dev.lane_setLane_self]
  · intro l
    refine State.of_sent ?_ fun _ h => h
    intro s hs hst hgen hloop heyes
    have hflag : (decide (s.dev.get (F.hsLnLoopMode l) = 1) || s.dev.flag (F.hsLnStatLrxact l)) = true := by
      rcases hloop with h | h <;> simp [Dev.flag, h]
    refine execSymbolLock_ends hs hst (by simp [Dev.flag, hgen]) heyes (if_pos hflag) fun t ht _ => ?_
    obtain ⟨hstage, hraised, honly⟩ := s.dev.enterActive_shows l
    exact ⟨(ht.get _).trans hstage, ht.raised.2 hraised, ht.only.2 honly⟩
  · intro l
    refine State.of_sent ?_ fun _ h => h
    intro s hs heyes
    simp only [exec, execSymbolLock]
    refine State.run_ends hs rfl fun t ht hout _ => ?_
    simp only [heyes, Bool.not_false, Bool.or_true, if_true] at ht hout
    exact ⟨ht.same.lanes, by rw [hout, hs]; rfl, ht.only.2 (Dev.Only.refl _ _ _)⟩
  · intro l
    refine State.of_sent ?_ fun _ h => h
    intro s hs hst hr
    simp only [exec, execLnLockTo]
    refine State.run_ends hs rfl fun t ht _ _ => ?_
    simp only [hst, hr, BEq.rfl, Bool.true_or, Bool.and_self, Dev.when_true] at ht
    exact ht.laneFail (by decide) (by decide)
  · intro l
    refine State.of_sent ?_ fun _ h => h
    intro s hs hst
    simp only [exec, execRetryExpire]
    refine State.run_ends hs rfl fun t ht _ _ => ?_
    simp only [hst, BEq.rfl, Dev.when_true] at ht
    obtain ⟨hstage, hcfg, honly⟩ := s.dev.laneStart_shows l
    exact ⟨(ht.get _).trans hstage, fun h => by rw [ht.lane, hcfg h], ht.only.2 honly⟩

end Sys2Proof.Machine
end

section
/-!
PROOFS. Which instances each update of the device leaves as they are: every one but its own.
-/

namespace Sys2Proof.Machine

set_option Elab.async false

@[simp] theorem Dev.setReg_insts (d : Dev) (a : Nat) (v : Word) :
    (∀ j, (d.setReg a v).eng j = d.eng j) ∧ (∀ j, (d.setReg a v).conv j = d.conv j) ∧ (∀ j, (d.setReg a v).wave j = d.wave j) ∧
    (∀ i j, (d.setReg a v).sc i j = d.sc i j) ∧ (∀ i j, (d.setReg a v).grp i j = d.grp i j) ∧ (∀ i j, (d.setReg a v).cry i j = d.cry i j) ∧
    (∀ j, (d.setReg a v).spr1 j = d.spr1 j) ∧ (∀ j, (d.setReg a v).lane j = d.lane j) ∧ (∀ j, (d.setReg a v).mac j = d.mac j) ∧
    (∀ j, (d.setReg a v).inj j = d.inj j) :=
  ⟨fun _ => rfl, fun _ => rfl, fun _ => rfl, fun _ _ => rfl, fun _ _ => rfl, fun _ _ => rfl, fun _ => rfl, fun _ => rfl, fun _ => rfl, fun _ => rfl⟩

@[simp] theorem Dev.set_insts (d : Dev) (f : Fld) (x : Nat) :
    (∀ j, (d.set f x).eng j = d.eng j) ∧ (∀ j, (d.set f x).conv j = d.conv j) ∧ (∀ j, (d.set f x).wave j = d.wave j) ∧
    (∀ i j, (d.set f x).sc i j = d.sc i j) ∧ (∀ i j, (d.set f x).grp i j = d.grp i j) ∧ (∀ i j, (d.set f x).cry i j = d.cry i j) ∧
    (∀ j, (d.set f x).spr1 j = d.spr1 j) ∧ (∀ j, (d.set f x).lane j = d.lane j) ∧ (∀ j, (d.set f x).mac j = d.mac j) ∧
    (∀ j, (d.set f x).inj j = d.inj j) :=
  ⟨fun _ => rfl, fun _ => rfl, fun _ => rfl, fun _ _ => rfl, fun _ _ => rfl, fun _ _ => rfl, fun _ => rfl, fun _ => rfl, fun _ => rfl, fun _ => rfl⟩

@[simp] theorem Dev.setInt_insts (d : Dev) (f : Fld) (x : Int) :
    (∀ j, (d.setInt f x).eng j = d.eng j) ∧ (∀ j, (d.setInt f x).conv j = d.conv j) ∧ (∀ j, (d.setInt f x).wave j = d.wave j) ∧
    (∀ i j, (d.setInt f x).sc i j = d.sc i j) ∧ (∀ i j, (d.setInt f x).grp i j = d.grp i j) ∧ (∀ i j, (d.setInt f x).cry i j = d.cry i j) ∧
    (∀ j, (d.setInt f x).spr1 j = d.spr1 j) ∧ (∀ j, (d.setInt f x).lane j = d.lane j) ∧ (∀ j, (d.setInt f x).mac j = d.mac j) ∧
    (∀ j, (d.setInt f x).inj j = d.inj j) :=
  ⟨fun _ => rfl, fun _ => rfl, fun _ => rfl, fun _ _ => rfl, fun _ _ => rfl, fun _ _ => rfl, fun _ => rfl, fun _ => rfl, fun _ => rfl, fun _ => rfl⟩

@[simp] theorem Dev.setFlag_insts (d : Dev) (f : Fld) (b : Bool) :
    (∀ j, (d.setFlag f b).eng j = d.eng j) ∧ (∀ j, (d.setFlag f b).conv j = d.conv j) ∧ (∀ j, (d.setFlag f b).wave j = d.wave j) ∧
    (∀ i j, (d.setFlag f b).sc i j = d.sc i j) ∧ (∀ i j, (d.setFlag f b).grp i j = d.grp i j) ∧ (∀ i j, (d.setFlag f b).cry i j = d.cry i j) ∧
    (∀ j, (d.setFlag f b).spr1 j = d.spr1 j) ∧ (∀ j, (d.setFlag f b).lane j = d.lane j) ∧ (∀ j, (d.setFlag f b).mac j = d.mac j) ∧
    (∀ j, (d.setFlag f b).inj j = d.inj j) :=
  ⟨fun _ => rfl, fun _ => rfl, fun _ => rfl, fun _ _ => rfl, fun _ _ => rfl, fun _ _ => rfl, fun _ => rfl, fun _ => rfl, fun _ => rfl, fun _ => rfl⟩

@[simp] theorem Dev.count_insts (d : Dev) (f : Fld) (n : Nat) :
    (∀ j, (d.count f n).eng j = d.eng j) ∧ (∀ j, (d.count f n).conv j = d.conv j) ∧ (∀ j, (d.count f n).wave j = d.wave j) ∧
    (∀ i j, (d.count f n).sc i j = d.sc i j) ∧ (∀ i j, (d.count f n).grp i j = d.grp i j) ∧ (∀ i j, (d.count f n).cry i j = d.cry i j) ∧
    (∀ j, (d.count f n).spr1 j = d.spr1 j) ∧ (∀ j, (d.count f n).lane j = d.lane j) ∧ (∀ j, (d.count f n).mac j = d.mac j) ∧
    (∀ j, (d.count f n).inj j = d.inj j) :=
  ⟨fun _ => rfl, fun _ => rfl, fun _ => rfl, fun _ _ => rfl, fun _ _ => rfl, fun _ _ => rfl, fun _ => rfl, fun _ => rfl, fun _ => rfl, fun _ => rfl⟩

@[simp] theorem Dev.emit_insts (d : Dev) (o : Output) :
    (∀ j, (d.emit o).eng j = d.eng j) ∧ (∀ j, (d.emit o).conv j = d.conv j) ∧ (∀ j, (d.emit o).wave j = d.wave j) ∧
    (∀ i j, (d.emit o).sc i j = d.sc i j) ∧ (∀ i j, (d.emit o).grp i j = d.grp i j) ∧ (∀ i j, (d.emit o).cry i j = d.cry i j) ∧
    (∀ j, (d.emit o).spr1 j = d.spr1 j) ∧ (∀ j, (d.emit o).lane j = d.lane j) ∧ (∀ j, (d.emit o).mac j = d.mac j) ∧
    (∀ j, (d.emit o).inj j = d.inj j) :=
  ⟨fun _ => rfl, fun _ => rfl, fun _ => rfl, fun _ _ => rfl, fun _ _ => rfl, fun _ _ => rfl, fun _ => rfl, fun _ => rfl, fun _ => rfl, fun _ => rfl⟩

@[simp] theorem Dev.setOut_insts (d : Dev) (l : List Output) :
    (∀ j, (d.setOut l).eng j = d.eng j) ∧ (∀ j, (d.setOut l).conv j = d.conv j) ∧ (∀ j, (d.setOut l).wave j = d.wave j) ∧
    (∀ i j, (d.setOut l).sc i j = d.sc i j) ∧ (∀ i j, (d.setOut l).grp i j = d.grp i j) ∧ (∀ i j, (d.setOut l).cry i j = d.cry i j) ∧
    (∀ j, (d.setOut l).spr1 j = d.spr1 j) ∧ (∀ j, (d.setOut l).lane j = d.lane j) ∧ (∀ j, (d.setOut l).mac j = d.mac j) ∧
    (∀ j, (d.setOut l).inj j = d.inj j) :=
  ⟨fun _ => rfl, fun _ => rfl, fun _ => rfl, fun _ _ => rfl, fun _ _ => rfl, fun _ _ => rfl, fun _ => rfl, fun _ => rfl, fun _ => rfl, fun _ => rfl⟩

@[simp] theorem Dev.setEng_insts (d : Dev) (e : Nat) (f : Engine → Engine) :
    (∀ j, (d.setEng e f).conv j = d.conv j) ∧ (∀ j, (d.setEng e f).wave j = d.wave j) ∧ (∀ i j, (d.setEng e f).sc i j = d.sc i j) ∧
    (∀ i j, (d.setEng e f).grp i j = d.grp i j) ∧ (∀ i j, (d.setEng e f).cry i j = d.cry i j) ∧ (∀ j, (d.setEng e f).spr1 j = d.spr1 j) ∧
    (∀ j, (d.setEng e f).lane j = d.lane j) ∧ (∀ j, (d.setEng e f).mac j = d.mac j) ∧ (∀ j, (d.setEng e f).inj j = d.inj j) :=
  ⟨fun _ => rfl, fun _ => rfl, fun _ _ => rfl, fun _ _ => rfl, fun _ _ => rfl, fun _ => rfl, fun _ => rfl, fun _ => rfl, fun _ => rfl⟩

@[simp] theorem Dev.setConv_insts (d : Dev) (w : Nat) (f : Conv → Conv) :
    (∀ j, (d.setConv w f).eng j = d.eng j) ∧ (∀ j, (d.setConv w f).wave j = d.wave j) ∧ (∀ i j, (d.setConv w f).sc i j = d.sc i j) ∧
    (∀ i j, (d.setConv w f).grp i j = d.grp i j) ∧ (∀ i j, (d.setConv w f).cry i j = d.cry i j) ∧ (∀ j, (d.setConv w f).spr1 j = d.spr1 j) ∧
    (∀ j, (d.setConv w f).lane j = d.lane j) ∧ (∀ j, (d.setConv w f).mac j = d.mac j) ∧ (∀ j, (d.setConv w f).inj j = d.inj j) :=
  ⟨fun _ => rfl, fun _ => rfl, fun _ _ => rfl, fun _ _ => rfl, fun _ _ => rfl, fun _ => rfl, fun _ => rfl, fun _ => rfl, fun _ => rfl⟩

@[simp] theorem Dev.setWave_insts (d : Dev) (w : Nat) (f : Wave → Wave) :
    (∀ j, (d.setWave w f).eng j = d.eng j) ∧ (∀ j, (d.setWave w f).conv j = d.conv j) ∧ (∀ i j, (d.setWave w f).sc i j = d.sc i j) ∧
    (∀ i j, (d.setWave w f).grp i j = d.grp i j) ∧ (∀ i j, (d.setWave w f).cry i j = d.cry i j) ∧ (∀ j, (d.setWave w f).spr1 j = d.spr1 j) ∧
    (∀ j, (d.setWave w f).lane j = d.lane j) ∧ (∀ j, (d.setWave w f).mac j = d.mac j) ∧ (∀ j, (d.setWave w f).inj j = d.inj j) :=
  ⟨fun _ => rfl, fun _ => rfl, fun _ _ => rfl, fun _ _ => rfl, fun _ _ => rfl, fun _ => rfl, fun _ => rfl, fun _ => rfl, fun _ => rfl⟩

@[simp] theorem Dev.setSc_insts (d : Dev) (w k : Nat) (f : Subc → Subc) :
    (∀ j, (d.setSc w k f).eng j = d.eng j) ∧ (∀ j, (d.setSc w k f).conv j = d.conv j) ∧ (∀ j, (d.setSc w k f).wave j = d.wave j) ∧
    (∀ i j, (d.setSc w k f).grp i j = d.grp i j) ∧ (∀ i j, (d.setSc w k f).cry i j = d.cry i j) ∧ (∀ j, (d.setSc w k f).spr1 j = d.spr1 j) ∧
    (∀ j, (d.setSc w k f).lane j = d.lane j) ∧ (∀ j, (d.setSc w k f).mac j = d.mac j) ∧ (∀ j, (d.setSc w k f).inj j = d.inj j) :=
  ⟨fun _ => rfl, fun _ => rfl, fun _ => rfl, fun _ _ => rfl, fun _ _ => rfl, fun _ => rfl, fun _ => rfl, fun _ => rfl, fun _ => rfl⟩

@[simp] theorem Dev.setGrp_insts (d : Dev) (w g : Nat) (f : Grp → Grp) :
    (∀ j, (d.setGrp w g f).eng j = d.eng j) ∧ (∀ j, (d.setGrp w g f).conv j = d.conv j) ∧ (∀ j, (d.setGrp w g f).wave j = d.wave j) ∧
    (∀ i j, (d.setGrp w g f).sc i j = d.sc i j) ∧ (∀ i j, (d.setGrp w g f).cry i j = d.cry i j) ∧ (∀ j, (d.setGrp w g f).spr1 j = d.spr1 j) ∧
    (∀ j, (d.setGrp w g f).lane j = d.lane j) ∧ (∀ j, (d.setGrp w g f).mac j = d.mac j) ∧ (∀ j, (d.setGrp w g f).inj j = d.inj j) :=
  ⟨fun _ => rfl, fun _ => rfl, fun _ => rfl, fun _ _ => rfl, fun _ _ => rfl, fun _ => rfl, fun _ => rfl, fun _ => rfl, fun _ => rfl⟩

@[simp] theorem Dev.setCry_insts (d : Dev) (w g : Nat) (f : Crypto → Crypto) :
    (∀ j, (d.setCry w g f).eng j = d.eng j) ∧ (∀ j, (d.setCry w g f).conv j = d.conv j) ∧ (∀ j, (d.setCry w g f).wave j = d.wave j) ∧
    (∀ i j, (d.setCry w g f).sc i j = d.sc i j) ∧ (∀ i j, (d.setCry w g f).grp i j = d.grp i j) ∧ (∀ j, (d.setCry w g f).spr1 j = d.spr1 j) ∧
    (∀ j, (d.setCry w g f).lane j = d.lane j) ∧ (∀ j, (d.setCry w g f).mac j = d.mac j) ∧ (∀ j, (d.setCry w g f).inj j = d.inj j) :=
  ⟨fun _ => rfl, fun _ => rfl, fun _ => rfl, fun _ _ => rfl, fun _ _ => rfl, fun _ => rfl, fun _ => rfl, fun _ => rfl, fun _ => rfl⟩

@[simp] theorem Dev.setSpr1_insts (d : Dev) (e : Nat) (f : SprEng → SprEng) :
    (∀ j, (d.setSpr1 e f).eng j = d.eng j) ∧ (∀ j, (d.setSpr1 e f).conv j = d.conv j) ∧ (∀ j, (d.setSpr1 e f).wave j = d.wave j) ∧
    (∀ i j, (d.setSpr1 e f).sc i j = d.sc i j) ∧ (∀ i j, (d.setSpr1 e f).grp i j = d.grp i j) ∧ (∀ i j, (d.setSpr1 e f).cry i j = d.cry i j) ∧
    (∀ j, (d.setSpr1 e f).lane j = d.lane j) ∧ (∀ j, (d.setSpr1 e f).mac j = d.mac j) ∧ (∀ j, (d.setSpr1 e f).inj j = d.inj j) :=
  ⟨fun _ => rfl, fun _ => rfl, fun _ => rfl, fun _ _ => rfl, fun _ _ => rfl, fun _ _ => rfl, fun _ => rfl, fun _ => rfl, fun _ => rfl⟩

@[simp] theorem Dev.setSpr_insts (d : Dev) (f : SprSt → SprSt) :
    (∀ j, (d.setSpr f).eng j = d.eng j) ∧ (∀ j, (d.setSpr f).conv j = d.conv j) ∧ (∀ j, (d.setSpr f).wave j = d.wave j) ∧
    (∀ i j, (d.setSpr f).sc i j = d.sc i j) ∧ (∀ i j, (d.setSpr f).grp i j = d.grp i j) ∧ (∀ i j, (d.setSpr f).cry i j = d.cry i j) ∧
    (∀ j, (d.setSpr f).lane j = d.lane j) ∧ (∀ j, (d.setSpr f).mac j = d.mac j) ∧ (∀ j, (d.setSpr f).inj j = d.inj j) :=
  ⟨fun _ => rfl, fun _ => rfl, fun _ => rfl, fun _ _ => rfl, fun _ _ => rfl, fun _ _ => rfl, fun _ => rfl, fun _ => rfl, fun _ => rfl⟩

@[simp] theorem Dev.setPcie_insts (d : Dev) (f : Pcie → Pcie) :
    (∀ j, (d.setPcie f).eng j = d.eng j) ∧ (∀ j, (d.setPcie f).conv j = d.conv j) ∧ (∀ j, (d.setPcie f).wave j = d.wave j) ∧
    (∀ i j, (d.setPcie f).sc i j = d.sc i j) ∧ (∀ i j, (d.setPcie f).grp i j = d.grp i j) ∧ (∀ i j, (d.setPcie f).cry i j = d.cry i j) ∧
    (∀ j, (d.setPcie f).spr1 j = d.spr1 j) ∧ (∀ j, (d.setPcie f).lane j = d.lane j) ∧ (∀ j, (d.setPcie f).mac j = d.mac j) ∧
    (∀ j, (d.setPcie f).inj j = d.inj j) :=
  ⟨fun _ => rfl, fun _ => rfl, fun _ => rfl, fun _ _ => rfl, fun _ _ => rfl, fun _ _ => rfl, fun _ => rfl, fun _ => rfl, fun _ => rfl, fun _ => rfl⟩

@[simp] theorem Dev.setPwr_insts (d : Dev) (f : PwrSt → PwrSt) :
    (∀ j, (d.setPwr f).eng j = d.eng j) ∧ (∀ j, (d.setPwr f).conv j = d.conv j) ∧ (∀ j, (d.setPwr f).wave j = d.wave j) ∧
    (∀ i j, (d.setPwr f).sc i j = d.sc i j) ∧ (∀ i j, (d.setPwr f).grp i j = d.grp i j) ∧ (∀ i j, (d.setPwr f).cry i j = d.cry i j) ∧
    (∀ j, (d.setPwr f).spr1 j = d.spr1 j) ∧ (∀ j, (d.setPwr f).lane j = d.lane j) ∧ (∀ j, (d.setPwr f).mac j = d.mac j) ∧
    (∀ j, (d.setPwr f).inj j = d.inj j) :=
  ⟨fun _ => rfl, fun _ => rfl, fun _ => rfl, fun _ _ => rfl, fun _ _ => rfl, fun _ _ => rfl, fun _ => rfl, fun _ => rfl, fun _ => rfl, fun _ => rfl⟩

@[simp] theorem Dev.setImg_insts (d : Dev) (f : ImgSt → ImgSt) :
    (∀ j, (d.setImg f).eng j = d.eng j) ∧ (∀ j, (d.setImg f).conv j = d.conv j) ∧ (∀ j, (d.setImg f).wave j = d.wave j) ∧
    (∀ i j, (d.setImg f).sc i j = d.sc i j) ∧ (∀ i j, (d.setImg f).grp i j = d.grp i j) ∧ (∀ i j, (d.setImg f).cry i j = d.cry i j) ∧
    (∀ j, (d.setImg f).spr1 j = d.spr1 j) ∧ (∀ j, (d.setImg f).lane j = d.lane j) ∧ (∀ j, (d.setImg f).mac j = d.mac j) ∧
    (∀ j, (d.setImg f).inj j = d.inj j) :=
  ⟨fun _ => rfl, fun _ => rfl, fun _ => rfl, fun _ _ => rfl, fun _ _ => rfl, fun _ _ => rfl, fun _ => rfl, fun _ => rfl, fun _ => rfl, fun _ => rfl⟩

@[simp] theorem Dev.setEmber_insts (d : Dev) (f : EmberSt → EmberSt) :
    (∀ j, (d.setEmber f).eng j = d.eng j) ∧ (∀ j, (d.setEmber f).conv j = d.conv j) ∧ (∀ j, (d.setEmber f).wave j = d.wave j) ∧
    (∀ i j, (d.setEmber f).sc i j = d.sc i j) ∧ (∀ i j, (d.setEmber f).grp i j = d.grp i j) ∧ (∀ i j, (d.setEmber f).cry i j = d.cry i j) ∧
    (∀ j, (d.setEmber f).spr1 j = d.spr1 j) ∧ (∀ j, (d.setEmber f).lane j = d.lane j) ∧ (∀ j, (d.setEmber f).mac j = d.mac j) ∧
    (∀ j, (d.setEmber f).inj j = d.inj j) :=
  ⟨fun _ => rfl, fun _ => rfl, fun _ => rfl, fun _ _ => rfl, fun _ _ => rfl, fun _ _ => rfl, fun _ => rfl, fun _ => rfl, fun _ => rfl, fun _ => rfl⟩

@[simp] theorem Dev.setHearth_insts (d : Dev) (f : HearthSt → HearthSt) :
    (∀ j, (d.setHearth f).eng j = d.eng j) ∧ (∀ j, (d.setHearth f).conv j = d.conv j) ∧ (∀ j, (d.setHearth f).wave j = d.wave j) ∧
    (∀ i j, (d.setHearth f).sc i j = d.sc i j) ∧ (∀ i j, (d.setHearth f).grp i j = d.grp i j) ∧ (∀ i j, (d.setHearth f).cry i j = d.cry i j) ∧
    (∀ j, (d.setHearth f).spr1 j = d.spr1 j) ∧ (∀ j, (d.setHearth f).lane j = d.lane j) ∧ (∀ j, (d.setHearth f).mac j = d.mac j) ∧
    (∀ j, (d.setHearth f).inj j = d.inj j) :=
  ⟨fun _ => rfl, fun _ => rfl, fun _ => rfl, fun _ _ => rfl, fun _ _ => rfl, fun _ _ => rfl, fun _ => rfl, fun _ => rfl, fun _ => rfl, fun _ => rfl⟩

@[simp] theorem Dev.setPkt_insts (d : Dev) (f : PktSt → PktSt) :
    (∀ j, (d.setPkt f).eng j = d.eng j) ∧ (∀ j, (d.setPkt f).conv j = d.conv j) ∧ (∀ j, (d.setPkt f).wave j = d.wave j) ∧
    (∀ i j, (d.setPkt f).sc i j = d.sc i j) ∧ (∀ i j, (d.setPkt f).grp i j = d.grp i j) ∧ (∀ i j, (d.setPkt f).cry i j = d.cry i j) ∧
    (∀ j, (d.setPkt f).spr1 j = d.spr1 j) ∧ (∀ j, (d.setPkt f).lane j = d.lane j) ∧ (∀ j, (d.setPkt f).mac j = d.mac j) ∧
    (∀ j, (d.setPkt f).inj j = d.inj j) :=
  ⟨fun _ => rfl, fun _ => rfl, fun _ => rfl, fun _ _ => rfl, fun _ _ => rfl, fun _ _ => rfl, fun _ => rfl, fun _ => rfl, fun _ => rfl, fun _ => rfl⟩

@[simp] theorem Dev.setBuf_insts (d : Dev) (f : BufSt → BufSt) :
    (∀ j, (d.setBuf f).eng j = d.eng j) ∧ (∀ j, (d.setBuf f).conv j = d.conv j) ∧ (∀ j, (d.setBuf f).wave j = d.wave j) ∧
    (∀ i j, (d.setBuf f).sc i j = d.sc i j) ∧ (∀ i j, (d.setBuf f).grp i j = d.grp i j) ∧ (∀ i j, (d.setBuf f).cry i j = d.cry i j) ∧
    (∀ j, (d.setBuf f).spr1 j = d.spr1 j) ∧ (∀ j, (d.setBuf f).lane j = d.lane j) ∧ (∀ j, (d.setBuf f).mac j = d.mac j) ∧
    (∀ j, (d.setBuf f).inj j = d.inj j) :=
  ⟨fun _ => rfl, fun _ => rfl, fun _ => rfl, fun _ _ => rfl, fun _ _ => rfl, fun _ _ => rfl, fun _ => rfl, fun _ => rfl, fun _ => rfl, fun _ => rfl⟩

@[simp] theorem Dev.setMac_insts (d : Dev) (p : Nat) (f : Mac → Mac) :
    (∀ j, (d.setMac p f).eng j = d.eng j) ∧ (∀ j, (d.setMac p f).conv j = d.conv j) ∧ (∀ j, (d.setMac p f).wave j = d.wave j) ∧
    (∀ i j, (d.setMac p f).sc i j = d.sc i j) ∧ (∀ i j, (d.setMac p f).grp i j = d.grp i j) ∧ (∀ i j, (d.setMac p f).cry i j = d.cry i j) ∧
    (∀ j, (d.setMac p f).spr1 j = d.spr1 j) ∧ (∀ j, (d.setMac p f).lane j = d.lane j) ∧ (∀ j, (d.setMac p f).inj j = d.inj j) :=
  ⟨fun _ => rfl, fun _ => rfl, fun _ => rfl, fun _ _ => rfl, fun _ _ => rfl, fun _ _ => rfl, fun _ => rfl, fun _ => rfl, fun _ => rfl⟩

@[simp] theorem Dev.setLane_insts (d : Dev) (l : Nat) (f : Lane → Lane) :
    (∀ j, (d.setLane l f).eng j = d.eng j) ∧ (∀ j, (d.setLane l f).conv j = d.conv j) ∧ (∀ j, (d.setLane l f).wave j = d.wave j) ∧
    (∀ i j, (d.setLane l f).sc i j = d.sc i j) ∧ (∀ i j, (d.setLane l f).grp i j = d.grp i j) ∧ (∀ i j, (d.setLane l f).cry i j = d.cry i j) ∧
    (∀ j, (d.setLane l f).spr1 j = d.spr1 j) ∧ (∀ j, (d.setLane l f).mac j = d.mac j) ∧ (∀ j, (d.setLane l f).inj j = d.inj j) :=
  ⟨fun _ => rfl, fun _ => rfl, fun _ => rfl, fun _ _ => rfl, fun _ _ => rfl, fun _ _ => rfl, fun _ => rfl, fun _ => rfl, fun _ => rfl⟩

@[simp] theorem Dev.setInj_insts (d : Dev) (i : Nat) (f : Inj → Inj) :
    (∀ j, (d.setInj i f).eng j = d.eng j) ∧ (∀ j, (d.setInj i f).conv j = d.conv j) ∧ (∀ j, (d.setInj i f).wave j = d.wave j) ∧
    (∀ i j, (d.setInj i f).sc i j = d.sc i j) ∧ (∀ i j, (d.setInj i f).grp i j = d.grp i j) ∧ (∀ i j, (d.setInj i f).cry i j = d.cry i j) ∧
    (∀ j, (d.setInj i f).spr1 j = d.spr1 j) ∧ (∀ j, (d.setInj i f).lane j = d.lane j) ∧ (∀ j, (d.setInj i f).mac j = d.mac j) :=
  ⟨fun _ => rfl, fun _ => rfl, fun _ => rfl, fun _ _ => rfl, fun _ _ => rfl, fun _ _ => rfl, fun _ => rfl, fun _ => rfl, fun _ => rfl⟩

@[simp] theorem Dev.setTime_insts (d : Dev) (f : TimeSt → TimeSt) :
    (∀ j, (d.setTime f).eng j = d.eng j) ∧ (∀ j, (d.setTime f).conv j = d.conv j) ∧ (∀ j, (d.setTime f).wave j = d.wave j) ∧
    (∀ i j, (d.setTime f).sc i j = d.sc i j) ∧ (∀ i j, (d.setTime f).grp i j = d.grp i j) ∧ (∀ i j, (d.setTime f).cry i j = d.cry i j) ∧
    (∀ j, (d.setTime f).spr1 j = d.spr1 j) ∧ (∀ j, (d.setTime f).lane j = d.lane j) ∧ (∀ j, (d.setTime f).mac j = d.mac j) ∧
    (∀ j, (d.setTime f).inj j = d.inj j) :=
  ⟨fun _ => rfl, fun _ => rfl, fun _ => rfl, fun _ _ => rfl, fun _ _ => rfl, fun _ _ => rfl, fun _ => rfl, fun _ => rfl, fun _ => rfl, fun _ => rfl⟩


end Sys2Proof.Machine
end

section
/-!
PROOFS. The capability exchange of a lane (R312 to R317).
-/

namespace Sys2Proof.Machine

set_option Elab.async false

/-! ### What the exchange reads -/

/-- Two devices agree in the registers by which a lane knows its port and its FEC codes. -/
structure Dev.LaneView (l : Nat) (d e : Dev) : Prop where
  bond : ∀ p, e.reg (R.hsMacBond p) = d.reg (R.hsMacBond p)
  cfg : e.reg (R.hsLnCfg l) = d.reg (R.hsLnCfg l)

section
variable {l : Nat} {d e : Dev} (h : d.LaneView l e)
include h

theorem Dev.LaneView.lanes (p : Nat) : e.get (F.hsMacBondLanes p) = d.get (F.hsMacBondLanes p) := congrArg (F.hsMacBondLanes p).of (h.bond p)
theorem Dev.LaneView.lrate (p : Nat) : e.get (F.hsMacBondLrate p) = d.get (F.hsMacBondLrate p) := congrArg (F.hsMacBondLrate p).of (h.bond p)
theorem Dev.LaneView.fecallow : e.get (F.hsLnCfgFecallow l) = d.get (F.hsLnCfgFecallow l) := congrArg (F.hsLnCfgFecallow l).of h.cfg
theorem Dev.LaneView.portOf (k : Nat) : e.portOf k = d.portOf k := by simp only [Dev.portOf, h.lanes]
theorem Dev.LaneView.firstLane (k : Nat) : e.firstLane k = d.firstLane k := by simp only [Dev.firstLane, h.portOf]
theorem Dev.LaneView.laneRate (k : Nat) : e.laneRate k = d.laneRate k := by simp only [Dev.laneRate, h.firstLane, h.lrate]
theorem Dev.LaneView.capBad (msg : Nat) : e.capBad l msg = d.capBad l msg := by
  simp only [Dev.capBad, h.lanes, h.firstLane, h.laneRate, h.fecallow]

end

/-- Changes within a lane's block, but for its CFG, leave the view as it is. -/
theorem Dev.Only.laneView {d e : Dev} {l : Nat} {regs evs : List Nat} (h : d.Only regs evs e) (hr : ∀ a ∈ regs, hsBase 0 l < a ∧ a < hsBase 0 l + 0x10000)
    (hevs : ∀ n ∈ evs, n < 0x100) : d.LaneView l e where
  bond p := by
    refine h.reg_eq (fun hm => ?_) (by simp only [R.hsMacBond, hsBase]; omega) hevs
    have := hr _ hm
    simp only [R.hsMacBond, hsBase] at this
    omega
  cfg := by
    refine h.reg_eq (fun hm => ?_) (by simp only [R.hsLnCfg, hsBase]; omega) hevs
    have := hr _ hm
    simp only [R.hsLnCfg] at this
    omega

/-! ### The end of an exchange -/

theorem strongest_le {m c : Nat} (h : strongest m = some c) : c ≤ 3 := by
  have hmem := List.mem_of_find?_eq_some h
  simp only [List.mem_cons, List.not_mem_nil, or_false] at hmem
  omega

/-- A lane that is a port alone resolves its FEC by itself (R306). -/
theorem Dev.resolveFec_alone {d : Dev} {l offer c : Nat} (hport : d.portOf l = some l) (hone : d.get (F.hsMacBondLanes l) = 1)
    (hc : strongest (d.get (F.hsLnCfgFecallow l) &&& offer) = some c) :
    d.resolveFec l offer = ((d.set (F.hsLnStatFecres l) c).setLane l fun x => { x with resolved := true }, true) := by
  have hfirst : d.firstLane l = l := by simp [Dev.firstLane, hport]
  have hlanes : ((d.set (F.hsLnStatFecres l) c).setLane l fun x => { x with resolved := true }).lanesOf l = [l] := by
    rw [Dev.lanesOf, Dev.get_setLane, Dev.get_set_ne _ _ (by simp only [F.hsMacBondLanes, F.hsLnStatFecres, R.hsMacBond, R.hsLnStat, hsBase]; omega), hone]
    rfl
  unfold Dev.resolveFec
  simp only [hc, hfirst, if_true, hlanes]
  simp

theorem Dev.lastKindling_regs (d : Dev) (l : Nat) : (d.lastKindling l).regs = d.regs := by
  unfold Dev.lastKindling
  generalize List.range 32 = xs
  induction xs generalizing d with
  | nil => rfl
  | cons x xs ih => rw [Dev.each_cons, ih, Dev.sendKindling, (Dev.emit_keeps _ _).1]

/-- Entry to stage 5 leaves the resolved FEC as it is. -/
theorem Dev.enterActive_fecres (d : Dev) (l : Nat) : (d.enterActive l).get (F.hsLnStatFecres l) = d.get (F.hsLnStatFecres l) := by
  unfold Dev.enterActive
  rw [Dev.get_laneEvent _ _ _ _ (k := l) (by simp only [F.hsLnStatFecres, R.hsLnStat]; omega) (by simp only [F.hsLnStatFecres, R.hsLnStat]; omega)
    (by decide), Dev.get_setLane, Dev.setStage,
    Dev.get_set_apart _ _ _ _ (by simp [Fld.fits, F.hsLnStatFecres]) (by simp [Fld.apart, F.hsLnStatFecres, F.hsLnStatStage])]

/-- A lane that is a port alone completes an exchange that agrees (R314, R318). -/
theorem Dev.capDone_active {d : Dev} {l msg c : Nat} (hport : d.portOf l = some l) (hone : d.get (F.hsMacBondLanes l) = 1)
    (hgood : d.capBad l msg = false) (hlrx : d.lcfg l F.hsLnCfgLrxen = 0)
    (hc : strongest (d.get (F.hsLnCfgFecallow l) &&& msg / 2 ^ 23 % 16) = some c) :
    (d.capDone l msg).stage l = 5 ∧ (d.capDone l msg).get (F.hsLnStatFecres l) = c ∧ d.Raised 0xB7 (d.capDone l msg) := by
  unfold Dev.capDone
  simp only [hgood, Bool.false_eq_true, if_false, Dev.resolveFec_alone hport hone hc, Bool.not_true, hlrx, Nat.zero_ne_one, decide_false, Bool.false_and]
  generalize (d.pam4 l && (d.lcfg l F.hsLnCfgPre == 2 || (d.lcfg l F.hsLnCfgPre == 0 && msg.testBit 20))) = b1
  generalize (d.pam4 l && d.lcfg l F.hsLnCfgRxpre == 1) = b2
  have hres : d.Only [R.hsLnStat l] [] (((d.set (F.hsLnStatFecres l) c).setLane l fun x => { x with resolved := true }).lastKindling l) :=
    (((Dev.Only.refl _ _ d).set _ _ (by simp [F.hsLnStatFecres])).congr (Dev.setLane_keeps _ l _).1).congr (Dev.lastKindling_regs _ l)
  have hfec : (((d.set (F.hsLnStatFecres l) c).setLane l fun x => { x with resolved := true }).lastKindling l).get (F.hsLnStatFecres l) = c := by
    rw [Dev.get_congr (Dev.lastKindling_regs _ l), Dev.get_setLane, Dev.get_set_lt _ _ (by simp [Fld.fits, F.hsLnStatFecres])]
    have := strongest_le hc
    simp only [F.hsLnStatFecres]
    omega
  generalize ((d.set (F.hsLnStatFecres l) c).setLane l fun x => { x with resolved := true }).lastKindling l = e at hres hfec
  have hprec : d.Only [R.hsLnStat l] [] ((e.setFlag (F.hsLnStatTxprec l) b1).setFlag (F.hsLnStatRxprec l) b2) :=
    (hres.setFlag _ _ (by simp [F.hsLnStatTxprec])).setFlag _ _ (by simp [F.hsLnStatRxprec])
  have hkept : ((e.setFlag (F.hsLnStatTxprec l) b1).setFlag (F.hsLnStatRxprec l) b2).get (F.hsLnStatFecres l) = c := by
    rw [Dev.get_setFlag_apart _ _ _ _ (by simp [Fld.fits, F.hsLnStatFecres]) (by simp [Fld.apart, F.hsLnStatFecres, F.hsLnStatRxprec]),
      Dev.get_setFlag_apart _ _ _ _ (by simp [Fld.fits, F.hsLnStatFecres]) (by simp [Fld.apart, F.hsLnStatFecres, F.hsLnStatTxprec]), hfec]
  generalize (e.setFlag (F.hsLnStatTxprec l) b1).setFlag (F.hsLnStatRxprec l) b2 = g at hprec hkept
  obtain ⟨hstage, hraised, -⟩ := g.enterActive_shows l
  refine ⟨hstage, (g.enterActive_fecres l).trans hkept, hraised.of_ctl ?_ rfl⟩
  exact (hprec _ (by simp only [List.mem_singleton, R.hrtEvtSrcCtl, R.hsLnStat, hsBase]; omega) (by simp)).symm

theorem Dev.capDone_mismatch {d : Dev} {l msg : Nat} (h : d.capBad l msg = true) :
    d.capDone l msg = d.laneFail l 0xB5 [R.hsLnCaprxlo l, R.hsLnCaprxhi l] := by
  simp [Dev.capDone, h]


/-! ### A frame received -/

/-- A good frame noted: shown, counted, answered where its number is new (R312, R314). -/
def Dev.kindlingNoted (d : Dev) (l msg cseq : Nat) (ack : Bool) : Dev :=
  (((d.set (F.hsLnCaprxloMsg l) msg).set (F.hsLnCaprxhiMsg l) (msg / 2 ^ 32)).setLane l fun x => { x with
    good := true, msg := some (msg, cseq), run := if x.msg = some (msg, cseq) then min 3 (x.run + 1) else 1, acked := x.acked || ack }).when
    ((d.lane l).msg.map (·.2) != some cseq) fun d => d.sendKindling l

theorem Dev.kindlingNoted_only (d : Dev) (l msg cseq : Nat) (ack : Bool) :
    d.Only [R.hsLnCaprxlo l, R.hsLnCaprxhi l] [] (d.kindlingNoted l msg cseq ack) := by
  unfold Dev.kindlingNoted
  have h : d.Only [R.hsLnCaprxlo l, R.hsLnCaprxhi l] [] ((d.set (F.hsLnCaprxloMsg l) msg).set (F.hsLnCaprxhiMsg l) (msg / 2 ^ 32)) :=
    ((Dev.Only.refl _ _ d).set _ _ (by simp [F.hsLnCaprxloMsg])).set _ _ (by simp [F.hsLnCaprxhiMsg])
  exact (h.congr (Dev.setLane_keeps _ l _).1).when _ _ fun _ => (h.congr (Dev.setLane_keeps _ l _).1).emit _

theorem Dev.kindlingNoted_lane (d : Dev) (l msg cseq : Nat) (ack : Bool) : (d.kindlingNoted l msg cseq ack).lane l = { d.lane l with
    good := true, msg := some (msg, cseq), run := if (d.lane l).msg = some (msg, cseq) then min 3 ((d.lane l).run + 1) else 1
    acked := (d.lane l).acked || ack } := by
  unfold Dev.kindlingNoted
  cases (d.lane l).msg.map (·.2) != some cseq <;> simp -implicitDefEqProofs [Dev.sendKindling]

theorem Dev.kindlingNoted_shows (d : Dev) (l : Nat) {msg cseq : Nat} (ack : Bool) (h : msg < 2 ^ 64) :
    (d.kindlingNoted l msg cseq ack).get (F.hsLnCaprxloMsg l) = msg % 2 ^ 32
      ∧ (d.kindlingNoted l msg cseq ack).get (F.hsLnCaprxhiMsg l) = msg / 2 ^ 32 := by
  have hregs : (d.kindlingNoted l msg cseq ack).regs = ((d.set (F.hsLnCaprxloMsg l) msg).set (F.hsLnCaprxhiMsg l) (msg / 2 ^ 32)).regs := by
    unfold Dev.kindlingNoted
    cases (d.lane l).msg.map (·.2) != some cseq <;> simp -implicitDefEqProofs [Dev.sendKindling]
  rw [Dev.get_congr hregs, Dev.get_congr hregs]
  constructor
  · rw [Dev.get_set_ne _ _ (by simp only [F.hsLnCaprxloMsg, F.hsLnCaprxhiMsg, R.hsLnCaprxlo, R.hsLnCaprxhi]; omega),
      Dev.get_set_self _ _ _ (by simp [Fld.fits, F.hsLnCaprxloMsg])]
    rfl
  · rw [Dev.get_set_lt _ _ (by simp [Fld.fits, F.hsLnCaprxhiMsg])]
    simp only [F.hsLnCaprxhiMsg]
    omega

/-- The message that three frames in a row agree upon. -/
def Dev.kindlingAgreed (d : Dev) (l msg : Nat) : Dev :=
  d.when (decide (3 ≤ (d.lane l).run)) fun d => d.setLane l fun x => { x with agreed := some msg }

/-- What a good frame does (R314). -/
def Dev.kindlingGood (d : Dev) (l msg cseq : Nat) (ack : Bool) : Dev :=
  let e := (d.kindlingNoted l msg cseq ack).kindlingAgreed l msg
  match (e.lane l).agreed with
  | some m => e.when (e.lane l).acked fun d => d.capDone l m
  | none => e

theorem execKindlingFrameRx_good {l : Fin 96} {frame : BitVec 128} {s : State} (hmagic : frame.toNat / 2 ^ 96 = 0x4B494E44) (hcrc : crc16 (bitsOf 112 (frame.toNat / 2 ^ 16)) = frame.toNat % 2 ^ 16)
    (hver : frame.toNat / 2 ^ 32 % 2 ^ 64 / 2 ^ 60 = 1) :
    exec (.kindlingFrameRx l frame) s = s.run fun _ d => if d.stage l ≠ 4 || !d.runs l then d else
      d.kindlingGood l (frame.toNat / 2 ^ 32 % 2 ^ 64) (frame.toNat / 2 ^ 24 % 128)
      (frame.toNat.testBit 23 && frame.toNat / 2 ^ 16 % 128 == (d.lane l).cseq) := by
  simp only [exec, execKindlingFrameRx]
  congr 1
  funext fz d
  rw [hmagic, hcrc, hver]
  simp only [beq_self_eq_true, Bool.and_self, Bool.not_true, Bool.false_eq_true, if_false]
  rfl

theorem Dev.kindlingNoted_stage (d : Dev) (l msg cseq : Nat) (ack : Bool) : (d.kindlingNoted l msg cseq ack).stage l = d.stage l :=
  (d.kindlingNoted_only l msg cseq ack).get_eq
    (by simp only [F.hsLnStatStage, R.hsLnStat, R.hsLnCaprxlo, R.hsLnCaprxhi, List.mem_cons, List.not_mem_nil, or_false]; omega)
    (by simp only [F.hsLnStatStage, R.hsLnStat, hsBase]; omega) (by simp)

theorem Dev.kindlingNoted_view (d : Dev) (l msg cseq : Nat) (ack : Bool) : d.LaneView l (d.kindlingNoted l msg cseq ack) := by
  refine (d.kindlingNoted_only l msg cseq ack).laneView (fun a ha => ?_) (by simp)
  simp only [List.mem_cons, List.not_mem_nil, or_false] at ha
  rcases ha with rfl | rfl <;> simp only [R.hsLnCaprxlo, R.hsLnCaprxhi] <;> omega

/-- Before the third of a run nothing follows upon a good frame, where no message is agreed. -/
theorem Dev.kindlingGood_noted {d : Dev} {l msg cseq : Nat} {ack : Bool} (hrun : (d.lane l).run ≤ 1) (hagreed : (d.lane l).agreed = none) :
    d.kindlingGood l msg cseq ack = d.kindlingNoted l msg cseq ack := by
  have hlow : decide (3 ≤ ((d.kindlingNoted l msg cseq ack).lane l).run) = false := by
    rw [d.kindlingNoted_lane]
    simp only [decide_eq_false_iff_not]
    split <;> omega
  have hnone : ((d.kindlingNoted l msg cseq ack).lane l).agreed = none := by rw [d.kindlingNoted_lane]; exact hagreed
  unfold Dev.kindlingGood Dev.kindlingAgreed
  simp only [hlow, Dev.when_false, hnone]

/-- The third frame of a run completes an exchange whose own message is acknowledged (R314). -/
theorem Dev.kindlingGood_third {d : Dev} {l msg cseq : Nat} {ack : Bool} (hrun : 2 ≤ (d.lane l).run) (hmsg : (d.lane l).msg = some (msg, cseq))
    (hacked : (d.lane l).acked = true) :
    d.kindlingGood l msg cseq ack = ((d.kindlingNoted l msg cseq ack).setLane l fun x => { x with agreed := some msg }).capDone l msg := by
  have hfull : decide (3 ≤ ((d.kindlingNoted l msg cseq ack).lane l).run) = true := by
    rw [d.kindlingNoted_lane]
    simp only [hmsg, decide_eq_true_eq, if_true]
    omega
  have hack : ((d.kindlingNoted l msg cseq ack).lane l).acked = true := by rw [d.kindlingNoted_lane]; simp [hacked]
  unfold Dev.kindlingGood Dev.kindlingAgreed
  simp -implicitDefEqProofs only [hfull, Dev.when_true, Dev.lane_setLane_self, hack]

/-- The acknowledgement completes an exchange whose message is agreed already (R314). -/
theorem Dev.kindlingGood_acked {d : Dev} {l msg cseq m : Nat} (hagreed : (d.lane l).agreed = some m) (hmsg : (d.lane l).msg ≠ some (msg, cseq)) :
    d.kindlingGood l msg cseq true = (d.kindlingNoted l msg cseq true).capDone l m := by
  have hlow : decide (3 ≤ ((d.kindlingNoted l msg cseq true).lane l).run) = false := by
    rw [d.kindlingNoted_lane]
    simp [hmsg]
  have hsome : ((d.kindlingNoted l msg cseq true).lane l).agreed = some m := by rw [d.kindlingNoted_lane]; exact hagreed
  have hack : ((d.kindlingNoted l msg cseq true).lane l).acked = true := by rw [d.kindlingNoted_lane]; simp
  unfold Dev.kindlingGood Dev.kindlingAgreed
  simp -implicitDefEqProofs only [hlow, Dev.when_false, hsome, hack, Dev.when_true]

/-- An exchange that a frame completes in agreement. -/
theorem Dev.capDone_noted {d e : Dev} {l m c : Nat} (hview : d.LaneView l e) (honly : d.Only [R.hsLnCaprxlo l, R.hsLnCaprxhi l] [] e)
    (hcfg : (e.lane l).cfg = (d.lane l).cfg) (hport : d.portOf l = some l) (hone : d.get (F.hsMacBondLanes l) = 1) (hgood : d.capBad l m = false)
    (hlrx : d.lcfg l F.hsLnCfgLrxen = 0) (hc : strongest (d.get (F.hsLnCfgFecallow l) &&& m / 2 ^ 23 % 16) = some c) :
    (e.capDone l m).stage l = 5 ∧ (e.capDone l m).get (F.hsLnStatFecres l) = c ∧ d.Raised 0xB7 (e.capDone l m) := by
  obtain ⟨hstage, hfec, hraised⟩ := Dev.capDone_active (d := e) (l := l) (msg := m) (c := c) ((hview.portOf l).trans hport)
    ((hview.lanes l).trans hone) ((hview.capBad m).trans hgood) (by simpa only [Dev.lcfg, hcfg] using hlrx) (by rw [hview.fecallow]; exact hc)
  refine ⟨hstage, hfec, hraised.of_ctl (Eq.symm (honly _ ?_ (by simp))) rfl⟩
  simp only [R.hrtEvtSrcCtl, R.hsLnCaprxlo, R.hsLnCaprxhi, hsBase, List.mem_cons, List.not_mem_nil, or_false]
  omega

/-- An exchange that a frame completes in a mismatch (R315). -/
theorem Dev.capDone_noted_mismatch {d e : Dev} {l m : Nat} (hview : d.LaneView l e) (honly : d.Only [R.hsLnCaprxlo l, R.hsLnCaprxhi l] [] e)
    (hbad : d.capBad l m = true) :
    (e.capDone l m).stage l = 6 ∧ d.Raised 0xB5 (e.capDone l m)
      ∧ (e.capDone l m).get (F.hsLnStatKfail l) = satAdd 8 (d.get (F.hsLnStatKfail l)) 1 := by
  rw [Dev.capDone_mismatch ((hview.capBad m).trans hbad)]
  obtain ⟨hstage, hraised, hkfail⟩ := e.laneFail_shows l [R.hsLnCaprxlo l, R.hsLnCaprxhi l] (by decide : neverRaised 0xB5 = false) (by decide)
  refine ⟨hstage, hraised.of_ctl (Eq.symm (honly _ ?_ (by simp))) rfl, hkfail.trans ?_⟩
  · simp only [R.hrtEvtSrcCtl, R.hsLnCaprxlo, R.hsLnCaprxhi, hsBase, List.mem_cons, List.not_mem_nil, or_false]
    omega
  · rw [honly.get_eq (by simp only [F.hsLnStatKfail, R.hsLnStat, R.hsLnCaprxlo, R.hsLnCaprxhi, List.mem_cons, List.not_mem_nil, or_false]; omega)
      (by simp only [F.hsLnStatKfail, R.hsLnStat, hsBase]; omega) (by simp)]

/-- The device of a lane that enters stage 5 as a legacy lane, before its events (R316). -/
def Dev.legacyEntry (d : Dev) (l : Nat) (txprec : Bool) : Dev :=
  (((((d.set (F.hsLnStatLegacy l) 1).setFlag (F.hsLnStatTxprec l) txprec).set (F.hsLnStatRxprec l) 0).set (F.hsLnCaprxloMsg l) 0).set
    (F.hsLnCaprxhiMsg l) 0).setStage l 5

theorem Dev.legacyEntry_only (d : Dev) (l : Nat) (b : Bool) :
    d.Only [R.hsLnStat l, R.hsLnCaprxlo l, R.hsLnCaprxhi l] [] (d.legacyEntry l b) := by
  unfold Dev.legacyEntry Dev.setStage
  exact ((((((Dev.Only.refl _ _ d).set _ _ (by simp [F.hsLnStatLegacy])).setFlag _ _ (by simp [F.hsLnStatTxprec])).set _ _
    (by simp [F.hsLnStatRxprec])).set _ _ (by simp [F.hsLnCaprxloMsg])).set _ _ (by simp [F.hsLnCaprxhiMsg])).set _ _ (by simp [F.hsLnStatStage])

theorem Dev.legacyEntry_shows (d : Dev) (l : Nat) (b : Bool) : (d.legacyEntry l b).get (F.hsLnStatLegacy l) = 1
    ∧ (d.legacyEntry l b).get (F.hsLnStatFecres l) = d.get (F.hsLnStatFecres l) := by
  unfold Dev.legacyEntry Dev.setStage Dev.setFlag
  simp -implicitDefEqProofs (disch := (simp only [Fld.fits, Fld.apart, F.hsLnStatLegacy, F.hsLnStatTxprec, F.hsLnStatRxprec, F.hsLnCaprxloMsg,
    F.hsLnCaprxhiMsg, F.hsLnStatStage, F.hsLnStatFecres, R.hsLnStat, R.hsLnCaprxlo, R.hsLnCaprxhi]; omega)) only [Dev.get_set_apart]
  exact ⟨Dev.get_set_lt _ _ (by simp [Fld.fits, F.hsLnStatLegacy]) (by simp [F.hsLnStatLegacy]), trivial⟩

/-- What entry as a legacy lane shows, behind the resolved FEC. -/
theorem Dev.legacyEntry_active {d e : Dev} {l : Nat} (h : d.Only [R.hsLnStat l] [] e) (b : Bool) :
    (((e.legacyEntry l b).laneEvent l 0xB6 [R.hsLnStat l]).enterActive l).stage l = 5
      ∧ (((e.legacyEntry l b).laneEvent l 0xB6 [R.hsLnStat l]).enterActive l).get (F.hsLnStatLegacy l) = 1
      ∧ (((e.legacyEntry l b).laneEvent l 0xB6 [R.hsLnStat l]).enterActive l).get (F.hsLnStatFecres l) = e.get (F.hsLnStatFecres l)
      ∧ d.Raised 0xB6 (((e.legacyEntry l b).laneEvent l 0xB6 [R.hsLnStat l]).enterActive l)
      ∧ d.Raised 0xB7 (((e.legacyEntry l b).laneEvent l 0xB6 [R.hsLnStat l]).enterActive l) := by
  have hentry : d.Only [R.hsLnStat l, R.hsLnCaprxlo l, R.hsLnCaprxhi l] [] (e.legacyEntry l b) :=
    (h.mono (by simp) (by simp)).trans (e.legacyEntry_only l b)
  obtain ⟨hlegacy, hfec⟩ := e.legacyEntry_shows l b
  generalize e.legacyEntry l b = g at hentry hlegacy hfec ⊢
  have hctl : ∀ n, R.hrtEvtSrcCtl n ∉ [R.hsLnStat l, R.hsLnCaprxlo l, R.hsLnCaprxhi l] := by
    intro n
    simp only [R.hrtEvtSrcCtl, R.hsLnStat, R.hsLnCaprxlo, R.hsLnCaprxhi, hsBase, List.mem_cons, List.not_mem_nil, or_false]
    omega
  have hB6 : d.Raised 0xB6 (g.laneEvent l 0xB6 [R.hsLnStat l]) :=
    (Dev.laneEvent_raised g l [R.hsLnStat l] (by decide)).of_ctl (hentry _ (hctl _) (by simp)).symm rfl
  have hmarks := (g.laneEvent_marks l 0xB6 [R.hsLnStat l]).only
  have hstat : ∀ f : Fld, f.addr = R.hsLnStat l → (g.laneEvent l 0xB6 [R.hsLnStat l]).get f = g.get f := fun f hf =>
    Dev.get_laneEvent _ _ _ _ (k := l) (by rw [hf]; simp only [R.hsLnStat]; omega) (by rw [hf]; simp only [R.hsLnStat]; omega) (by decide)
  have hcount : d.reg (R.hrtEvtSrcCtl 0xB7) = (g.laneEvent l 0xB6 [R.hsLnStat l]).reg (R.hrtEvtSrcCtl 0xB7) := by
    refine ((hmarks _ ?_ ?_).trans (hentry _ (hctl _) (by simp))).symm
    · simp only [R.hsLngSum0, R.hsLngSum1, R.hrtEvtSrcCtl, List.mem_cons, List.not_mem_nil, or_false]
      omega
    · simp only [List.mem_singleton, forall_eq]
      exact evtCtl_notMem_evtRegs (by decide)
  have hl := hstat (F.hsLnStatLegacy l) rfl
  have hf := hstat (F.hsLnStatFecres l) rfl
  generalize g.laneEvent l 0xB6 [R.hsLnStat l] = k at hB6 hl hf hcount ⊢
  obtain ⟨hstage, hB7, honly⟩ := k.enterActive_shows l
  refine ⟨hstage, ?_, (k.enterActive_fecres l).trans (hf.trans hfec), hB6.only honly (by decide) ?_, hB7.of_ctl hcount rfl⟩
  · refine Eq.trans ?_ (hl.trans hlegacy)
    unfold Dev.enterActive
    rw [Dev.get_laneEvent _ _ _ _ (k := l) (by simp only [F.hsLnStatLegacy, R.hsLnStat]; omega) (by simp only [F.hsLnStatLegacy, R.hsLnStat]; omega)
      (by decide), Dev.get_setLane, Dev.setStage,
      Dev.get_set_apart _ _ _ _ (by simp [Fld.fits, F.hsLnStatLegacy]) (by simp [Fld.apart, F.hsLnStatLegacy, F.hsLnStatStage])]
  · simp only [stageRegs, R.hrtEvtSrcCtl, R.hsLnStat, R.hsLngSum0, R.hsLngSum1, hsBase, List.mem_cons, List.not_mem_nil, or_false]
    omega

/-- Settles O35: a good frame is noted, and what follows upon it turns on the run, the acknowledgement and the message's checks. -/
theorem capabilitiesAreExchanged : Obligations.CapabilitiesAreExchanged := by
  unfold Obligations.CapabilitiesAreExchanged
  refine ⟨?_, ?_, ?_, ?_, ?_, ?_, ?_⟩
  · intro l frame
    refine State.of_sent ?_ fun _ h => h
    intro s hs hstage hruns hbad
    simp only [exec, execKindlingFrameRx]
    refine State.run_ends hs rfl fun t ht hout _ => ?_
    have hgood : (frame.toNat / 2 ^ 96 == 0x4B494E44 && crc16 (bitsOf 112 (frame.toNat / 2 ^ 16)) == frame.toNat % 2 ^ 16) = false := by
      simp only [Bool.and_eq_false_iff, beq_eq_false_iff_ne]
      exact hbad
    simp only [hgood, hstage, hruns, ne_eq, not_true_eq_false, Bool.not_true, Bool.or_self, Bool.false_and, Bool.not_false, decide_false,
      Bool.false_eq_true, if_false, if_true] at ht hout
    refine ⟨?_, ?_, ?_⟩
    · rw [ht.lane, Dev.lane_setLane_self]
    · rw [hout, (Dev.setLane_keeps _ _ _).2.2.1, hs, List.nil_append]
    · exact ht.only.2 ((Dev.Only.refl _ _ _).congr (Dev.setLane_keeps _ _ _).1)
  · intro l frame msg
    refine State.of_sent ?_ fun _ h => h
    intro s hs hstage hruns hmagic hcrc hmsg hver hrun hagreed
    subst hmsg
    refine State.run_ends hs (execKindlingFrameRx_good hmagic hcrc hver) fun t ht hout _ => ?_
    simp only [hstage, hruns, ne_eq, not_true_eq_false, decide_false, Bool.not_true, Bool.or_self, Bool.false_eq_true, if_false,
      Dev.kindlingGood_noted hrun hagreed] at ht
    have hlo := s.dev.kindlingNoted_shows l (msg := frame.toNat / 2 ^ 32 % 2 ^ 64) (cseq := frame.toNat / 2 ^ 24 % 128)
      (frame.toNat.testBit 23 && frame.toNat / 2 ^ 16 % 128 == (s.dev.lane l).cseq) (Nat.mod_lt _ (by decide))
    refine ⟨?_, ?_, ?_, ?_, ?_, ?_, ?_⟩
    · rw [Dev.stage, ht.get]
      exact (Dev.kindlingNoted_stage _ _ _ _ _).trans hstage
    · rw [ht.get]; exact hlo.1
    · rw [ht.get]; exact hlo.2
    · rw [ht.lane, Dev.kindlingNoted_lane]
    · rw [ht.lane, Dev.kindlingNoted_lane]
    · rw [ht.lane, Dev.kindlingNoted_lane]
      split
      · exact Nat.min_eq_right (by omega)
      · rfl
    · exact ht.only.2 (Dev.kindlingNoted_only _ _ _ _ _)
  · intro l frame msg c
    refine State.of_sent ?_ fun _ h => h
    intro s hs hstage hruns hmagic hcrc hmsg hver hrun hacked hlast hport hone hgood hlrx hc
    subst hmsg
    refine State.run_ends hs (execKindlingFrameRx_good hmagic hcrc hver) fun t ht hout _ => ?_
    simp only [hstage, hruns, ne_eq, not_true_eq_false, decide_false, Bool.not_true, Bool.or_self, Bool.false_eq_true, if_false,
      Dev.kindlingGood_third hrun hlast hacked] at ht
    rw [Dev.stage, ht.get, ht.get, ht.raised]
    refine Dev.capDone_noted ?_ ?_ ?_ hport hone hgood hlrx hc
    · obtain ⟨hbond, hcfg⟩ := s.dev.kindlingNoted_view l (frame.toNat / 2 ^ 32 % 2 ^ 64) (frame.toNat / 2 ^ 24 % 128)
        (frame.toNat.testBit 23 && frame.toNat / 2 ^ 16 % 128 == (s.dev.lane l).cseq)
      exact ⟨hbond, hcfg⟩
    · exact (Dev.kindlingNoted_only _ _ _ _ _).congr (Dev.setLane_keeps _ _ _).1
    · rw [Dev.lane_setLane_self, Dev.kindlingNoted_lane]
  · intro l frame msg
    refine State.of_sent ?_ fun _ h => h
    intro s hs hstage hruns hmagic hcrc hmsg hver hrun hacked hlast hbad
    subst hmsg
    refine State.run_ends hs (execKindlingFrameRx_good hmagic hcrc hver) fun t ht hout _ => ?_
    simp only [hstage, hruns, ne_eq, not_true_eq_false, decide_false, Bool.not_true, Bool.or_self, Bool.false_eq_true, if_false,
      Dev.kindlingGood_third hrun hlast hacked] at ht
    rw [Dev.stage, ht.get, ht.get, ht.raised]
    refine Dev.capDone_noted_mismatch ?_ ?_ hbad
    · obtain ⟨hbond, hcfg⟩ := s.dev.kindlingNoted_view l (frame.toNat / 2 ^ 32 % 2 ^ 64) (frame.toNat / 2 ^ 24 % 128)
        (frame.toNat.testBit 23 && frame.toNat / 2 ^ 16 % 128 == (s.dev.lane l).cseq)
      exact ⟨hbond, hcfg⟩
    · exact (Dev.kindlingNoted_only _ _ _ _ _).congr (Dev.setLane_keeps _ _ _).1
  · intro l frame msg m c
    refine State.of_sent ?_ fun _ h => h
    intro s hs hstage hruns hmagic hcrc hmsg hver hagreed hnew hack hseq hport hone hgood hlrx hc
    subst hmsg
    refine State.run_ends hs (execKindlingFrameRx_good hmagic hcrc hver) fun t ht hout _ => ?_
    simp only [hstage, hruns, ne_eq, not_true_eq_false, decide_false, Bool.not_true, Bool.or_self, Bool.false_eq_true, if_false, hack, hseq,
      beq_self_eq_true, Bool.and_self, Dev.kindlingGood_acked hagreed hnew] at ht
    rw [Dev.stage, ht.get, ht.get, ht.raised]
    exact Dev.capDone_noted (Dev.kindlingNoted_view _ _ _ _ _) (Dev.kindlingNoted_only _ _ _ _ _) (by rw [Dev.kindlingNoted_lane]) hport hone hgood
      hlrx hc
  · intro l
    refine State.of_sent ?_ fun _ h => h
    intro s hs hstage hruns hlost
    simp only [exec, execLnCapTo]
    refine State.run_ends hs rfl fun t ht hout _ => ?_
    have hfail : ((s.dev.lane l).good || decide (s.dev.lcfg l F.hsLnCfgLegok ≠ 1)) = true := by
      rcases hlost with h | h <;> simp [h]
    simp only [hfail, hstage, hruns, ne_eq, not_true_eq_false, decide_false, Bool.not_true, Bool.or_self, Bool.false_eq_true, if_false,
      if_true] at ht
    rw [Dev.stage, ht.get, ht.get, ht.raised]
    exact s.dev.laneFail_shows l [R.hsLnStat l] (by decide) (by decide)
  · intro l c
    refine State.of_sent ?_ fun _ h => h
    intro s hs hstage hruns hgood hlegok hport hone hc
    simp only [exec, execLnCapTo]
    refine State.run_ends hs rfl fun t ht hout _ => ?_
    have hres : s.dev.Only [R.hsLnStat l] [] ((s.dev.set (F.hsLnStatFecres l) c).setLane l fun x => { x with resolved := true }) :=
      ((Dev.Only.refl _ _ s.dev).set _ _ (by simp [F.hsLnStatFecres])).congr (Dev.setLane_keeps _ _ _).1
    have hfec : ((s.dev.set (F.hsLnStatFecres l) c).setLane l fun x => { x with resolved := true }).get (F.hsLnStatFecres l) = c := by
      rw [Dev.get_setLane, Dev.get_set_lt _ _ (by simp [Fld.fits, F.hsLnStatFecres])]
      have := strongest_le hc
      simp only [F.hsLnStatFecres]
      omega
    simp only [hgood, hlegok, hstage, hruns, ne_eq, not_true_eq_false, decide_false, Bool.not_true, Bool.or_self, Bool.false_eq_true, if_false,
      Dev.resolveFec_alone hport hone hc] at ht
    generalize (s.dev.set (F.hsLnStatFecres l) c).setLane l (fun x => { x with resolved := true }) = e at ht hres hfec
    generalize (s.dev.pam4 l && s.dev.lcfg l F.hsLnCfgPre == 2) = b at ht
    obtain ⟨h5, hlegacy, hcode, hB6, hB7⟩ := Dev.legacyEntry_active hres b
    rw [Dev.stage, ht.get, ht.get, ht.get, ht.raised, ht.raised, ht.lane, Dev.lane_setLane_self]
    exact ⟨h5, hlegacy, hcode.trans hfec, rfl, hB6, hB7⟩

end Sys2Proof.Machine
end

section
/-!
PROOFS. Host writes and reads that are taken at once: what the access path leaves of them, and what a register holds after one.
-/

namespace Sys2Proof.Machine

set_option Elab.async false

/-! ### What waits bears on nothing else -/

@[simp] theorem Dev.reg_setWaiting (d : Dev) (l : List Access) (a : Nat) : (d.setWaiting l).reg a = d.reg a := rfl
@[simp] theorem Dev.get_setWaiting (d : Dev) (l : List Access) (f : Fld) : (d.setWaiting l).get f = d.get f := rfl

/-- All but what waits stands. -/
theorem Dev.setWaiting_keeps (d : Dev) (l : List Access) :
    (d.setWaiting l).regs = d.regs ∧ (d.setWaiting l).out = d.out ∧ (d.setWaiting l).pcie = d.pcie ∧ (d.setWaiting l).time = d.time :=
  ⟨rfl, rfl, rfl, rfl⟩

theorem Dev.pathCode_setWaiting (d : Dev) (l : List Access) (a size : Nat) : (d.setWaiting l).pathCode a size = d.pathCode a size := rfl

theorem Dev.writeCode_setWaiting (d : Dev) (l : List Access) (a : Nat) (r : RegAt) (v : Word) (h : Bool) :
    (d.setWaiting l).writeCode a r v h = d.writeCode a r v h := rfl

/-! ### The access path -/

theorem Dev.Takes.answers {d : Dev} {a : Nat} {v : Word} (h : d.Takes a v) : d.Answers a := by
  obtain ⟨hwait, hlink, hup, hpath, hst, -⟩ := h
  exact ⟨hwait, hlink, hup, hpath, hst⟩

theorem Dev.Takes.code {d : Dev} {a : Nat} {v : Word} (h : d.Takes a v) {r : RegAt} (hr : decodeAddr a = some r) : d.writeCode a r v true = 0 := by
  obtain ⟨-, -, -, -, -, r', hr', hcode⟩ := h
  rwa [Option.some.inj (hr.symm.trans hr')]

/-- A write that no check refuses is all that the access path does. -/
theorem Dev.writeAccess_takes {d : Dev} {a : Nat} {v : Word} {r : RegAt} {fz : Fuses} {written : List (BitVec 64)} {g : Dev}
    (hp : d.pathCode a 4 = 0) (he : emberOfs a = none) (hr : decodeAddr a = some r) (hc : d.writeCode a r v true = 0)
    (hg : d.sysWrite fz a r v written = (g, 0)) : d.writeAccess fz a 4 v written = g.emit (.writeDone a 0) := by
  simp [Dev.writeAccess, hp, he, hr, Dev.regWrite, hc, hg]

/-- A host write that is taken at once ends as its effect on the device does, with the answer. -/
theorem State.write_takes {s : State} {a : Nat} {u : Dev → Word} {v : Word} {written : List (BitVec 64)} {o : Host.Outcome State Fault Refusal}
    {P : State → Prop} {r : RegAt} {g : Dev → Dev} (hs : s.dev.out = []) (ho : o = s.run fun fz d => d.arrive fz a 4 (some (u d)) written)
    (hu : u s.dev = v) (ht : s.dev.Takes a v)
    (he : emberOfs a = none) (hr : decodeAddr a = some r)
    (hg : ∀ l, (s.dev.setWaiting l).sysWrite s.fuses a r v written = (g (s.dev.setWaiting l), 0))
    (h : ∀ l t, (((g (s.dev.setWaiting l)).emit (.writeDone a 0)).setWaiting []).EndsAs t.dev →
      t.outputs = .writeDone a 0 :: (g (s.dev.setWaiting l)).out ++ s.outputs → P t) : ∃ t, o = .next t ∧ P t := by
  obtain ⟨l, hl⟩ := Dev.arrive_write_of_answers ht.answers s.fuses v written
  rw [Dev.writeAccess_takes ((Dev.pathCode_setWaiting _ _ _ _).trans ht.answers.pathCode) he hr
    ((Dev.writeCode_setWaiting _ _ _ _ _ _).trans (ht.code hr)) (hg l)] at hl
  refine State.run_ends hs ho fun t hends hout _ => h l t ?_ ?_
  · rwa [hu, hl] at hends
  · rw [hout, hu, hl]
    rfl

/-- A register that no command acts upon by the system cord's own checks. -/
def RegName.plainWrite : RegName → Bool
  | .hrtSprCmd | .hrtCfgCmd | .hrtPwrReq | .hrtPwrCord | .hrtMbxCtl | .hrtEvtSrcCtl => false
  | _ => true

/-- A register outside the rings, or one of them while PERST is high, takes its write. -/
def Dev.ringsUp (d : Dev) (a : Nat) : Prop := (d.pcie.perst && decide (R.pciRxgBaselo 0 ≤ a) && decide (a < R.pciTxgBaselo 2048)) = false

theorem Dev.ringsUp_of_lt {d : Dev} {a : Nat} (h : a < R.pciRxgBaselo 0) : d.ringsUp a := by
  have h' : decide (R.pciRxgBaselo 0 ≤ a) = false := decide_eq_false (by omega)
  simp [Dev.ringsUp, h']

/-- The write of such a register: stored, and acted upon. -/
theorem Dev.sysWrite_plain {d : Dev} {a : Nat} {r : RegAt} (hn : r.row.name.plainWrite = true) (hup : d.ringsUp a) (fz : Fuses) (v : Word)
    (written : List (BitVec 64)) :
    d.sysWrite fz a r v written = ((d.setReg a (r.row.merge (d.reg a) v)).writeGo fz r (d.reg a) v written, 0) := by
  have hput : d.applyWrite fz a r v written = (d.setReg a (r.row.merge (d.reg a) v)).writeGo fz r (d.reg a) v written := by
    unfold Dev.applyWrite
    have hctl : r.row.name ≠ .hrtEvtSrcCtl := fun h => by simp [h, RegName.plainWrite] at hn
    unfold Dev.ringsUp at hup
    simp only [hup, Bool.false_eq_true, if_false, hctl]
  unfold Dev.sysWrite
  dsimp only
  split
  case h_6 => rw [hput]
  all_goals (rename_i h; simp [h, RegName.plainWrite] at hn)

/-- A host write of a register that only stores it and acts. -/
theorem State.plainWrite_takes {s : State} {a : Nat} {u : Dev → Word} {v : Word} {written : List (BitVec 64)}
    {o : Host.Outcome State Fault Refusal} {P : State → Prop} {r : RegAt} {g : Dev → Dev} (hs : s.dev.out = [])
    (ho : o = s.run fun fz d => d.arrive fz a 4 (some (u d)) written) (hu : u s.dev = v) (ht : s.dev.Takes a v) (he : emberOfs a = none)
    (hr : decodeAddr a = some r) (hn : r.row.name.plainWrite = true) (hup : s.dev.ringsUp a)
    (hg : ∀ d : Dev, (d.setReg a (r.row.merge (d.reg a) v)).writeGo s.fuses r (d.reg a) v written = g d)
    (h : ∀ l t, (((g (s.dev.setWaiting l)).emit (.writeDone a 0)).setWaiting []).EndsAs t.dev →
      t.outputs = .writeDone a 0 :: (g (s.dev.setWaiting l)).out ++ s.outputs → P t) : ∃ t, o = .next t ∧ P t :=
  State.write_takes (g := g) hs ho hu ht he hr (fun l => by rw [Dev.sysWrite_plain hn (show (s.dev.setWaiting l).ringsUp a from hup), hg]) h

/-! ### What a register holds after a write (R7) -/

/-- One field of a write (R7). -/
def FieldRow.mergeStep (v a : Word) (f : FieldRow) : Word :=
  let g := f.fld 0
  match f.ty with
  | .rw | .rwq => g.put a (g.of v)
  | .wo => if f.width = 32 then v else a
  | .w1c => a &&& ~~~((g.put 0 (2 ^ f.width - 1)) &&& v)
  | .ro | .rc => a

theorem RegRow.merge_eq (r : RegRow) (old v : Word) : r.merge old v = r.fields.foldl (FieldRow.mergeStep v) old := rfl

/-- The bits of one field lie apart from those of the other. -/
def FieldRow.clear (f g : FieldRow) : Prop := f.lsb + f.width ≤ g.lsb ∨ g.lsb + g.width ≤ f.lsb

/-- The fields of a row lie within 32 bits, apart from one another, and none is a whole word that a write hands over. -/
def FieldRow.sound (l : List FieldRow) : Prop := (∀ f ∈ l, f.lsb + f.width ≤ 32 ∧ (f.ty = .wo → f.width ≠ 32)) ∧ l.Pairwise FieldRow.clear

/-- The step of one field leaves the bits of the others. -/
theorem FieldRow.of_mergeStep_clear {f : FieldRow} {g : Fld} (v a : Word) (hg : g.lsb + g.width ≤ 32) (hwo : f.ty = .wo → f.width ≠ 32)
    (h : f.lsb + f.width ≤ g.lsb ∨ g.lsb + g.width ≤ f.lsb) : g.of (f.mergeStep v a) = g.of a := by
  unfold FieldRow.mergeStep
  cases hty : f.ty
  case ro => rfl
  case rc => rfl
  case rw => exact Fld.of_put_apart _ _ _ _ hg h.symm
  case rwq => exact Fld.of_put_apart _ _ _ _ hg h.symm
  case wo => exact congrArg _ (if_neg (hwo hty))
  case w1c =>
    refine Nat.eq_of_testBit_eq fun i => ?_
    simp only [Fld.testBit_of, BitVec.getLsbD_and, BitVec.getLsbD_not]
    by_cases hi : i < g.width
    · rw [Fld.getLsbD_put _ _ _ _ (by omega)]
      have hout : ¬ (f.lsb ≤ g.lsb + i ∧ g.lsb + i < f.lsb + f.width) := by omega
      simp [FieldRow.fld, hi, show g.lsb + i < 32 by omega]
      omega
    · simp [hi]

/-- A step on a field sees its bits alone. -/
theorem FieldRow.of_mergeStep_congr {f : FieldRow} (v : Word) {a b : Word} (hf : f.lsb + f.width ≤ 32) (h : (f.fld 0).of a = (f.fld 0).of b) :
    (f.fld 0).of (f.mergeStep v a) = (f.fld 0).of (f.mergeStep v b) := by
  unfold FieldRow.mergeStep
  cases hty : f.ty
  case ro => exact h
  case rc => exact h
  case rw => exact (Fld.of_put _ _ _ hf).trans (Fld.of_put _ _ _ hf).symm
  case rwq => exact (Fld.of_put _ _ _ hf).trans (Fld.of_put _ _ _ hf).symm
  case wo =>
    dsimp only
    split
    · rfl
    · exact h
  case w1c =>
    refine Nat.eq_of_testBit_eq fun i => ?_
    have hbit := congrArg (fun n => n.testBit i) h
    simp only [Fld.testBit_of] at hbit
    simp only [Fld.testBit_of, BitVec.getLsbD_and, BitVec.getLsbD_not]
    rw [← Bool.and_assoc, ← Bool.and_assoc, hbit, Bool.and_assoc, Bool.and_assoc]

/-- A fold over the fields of a row whose step on a field moves and sees the bits of that field alone. -/
structure FieldRow.Local (step : Word → FieldRow → Word) (l : List FieldRow) : Prop where
  clear : ∀ f ∈ l, ∀ (g : Fld) (a : Word), g.lsb + g.width ≤ 32 → (f.lsb + f.width ≤ g.lsb ∨ g.lsb + g.width ≤ f.lsb) → g.of (step a f) = g.of a
  congr : ∀ f ∈ l, ∀ a b : Word, (f.fld 0).of a = (f.fld 0).of b → (f.fld 0).of (step a f) = (f.fld 0).of (step b f)

theorem FieldRow.Local.tail {step : Word → FieldRow → Word} {x : FieldRow} {l : List FieldRow} (h : FieldRow.Local step (x :: l)) :
    FieldRow.Local step l := ⟨fun f hf => h.clear f (List.mem_cons_of_mem _ hf), fun f hf => h.congr f (List.mem_cons_of_mem _ hf)⟩

theorem FieldRow.of_foldl_clear {step : Word → FieldRow → Word} {l : List FieldRow} (hstep : FieldRow.Local step l) {g : Fld}
    (hg : g.lsb + g.width ≤ 32) (hl : ∀ f ∈ l, f.lsb + f.width ≤ g.lsb ∨ g.lsb + g.width ≤ f.lsb) (a : Word) : g.of (l.foldl step a) = g.of a := by
  induction l generalizing a with
  | nil => rfl
  | cons f l ih =>
    rw [List.foldl_cons, ih hstep.tail fun x hx => hl x (List.mem_cons_of_mem _ hx),
      hstep.clear f List.mem_cons_self g a hg (hl f List.mem_cons_self)]

/-- What the bits of a field are after such a fold: its own step on those before. -/
theorem FieldRow.of_foldl {step : Word → FieldRow → Word} {l : List FieldRow} (hstep : FieldRow.Local step l) (hl : FieldRow.sound l)
    {f : FieldRow} (hf : f ∈ l) (a : Word) : (f.fld 0).of (l.foldl step a) = (f.fld 0).of (step a f) := by
  induction l generalizing a with
  | nil => cases hf
  | cons x l ih =>
    obtain ⟨hall, hpair⟩ := hl
    obtain ⟨hx, hrest⟩ := List.pairwise_cons.1 hpair
    obtain ⟨hfit, -⟩ := hall f hf
    rw [List.foldl_cons]
    rcases List.mem_cons.1 hf with rfl | hmem
    · exact FieldRow.of_foldl_clear hstep.tail hfit (fun y hy => (hx y hy).symm) _
    · rw [ih hstep.tail ⟨fun y hy => hall y (List.mem_cons_of_mem _ hy), hrest⟩ hmem]
      exact hstep.congr f hf _ _ (hstep.clear x List.mem_cons_self (f.fld 0) a hfit (hx f hmem))

/-- What the bits of a field are after a write. -/
theorem FieldRow.of_merge {l : List FieldRow} (hl : FieldRow.sound l) {f : FieldRow} (hf : f ∈ l) (v a : Word) :
    (f.fld 0).of (l.foldl (FieldRow.mergeStep v) a) = (f.fld 0).of (f.mergeStep v a) :=
  FieldRow.of_foldl (step := FieldRow.mergeStep v) ⟨fun x hx _ b hg hc => FieldRow.of_mergeStep_clear v b hg (hl.1 x hx).2 hc,
    fun x hx _ _ h => FieldRow.of_mergeStep_congr v (hl.1 x hx).1 h⟩ hl hf a

/-- An RW field holds what is written. -/
theorem RegRow.of_merge_rw {r : RegRow} {l : List FieldRow} (hl : r.fields = l) (hsound : FieldRow.sound l) {f : FieldRow} (hf : f ∈ l)
    (hty : f.ty = .rw ∨ f.ty = .rwq) {g : Fld} (hlsb : g.lsb = f.lsb) (hwidth : g.width = f.width) (old v : Word) :
    g.of (r.merge old v) = g.of v := by
  have hg : g.of = (f.fld 0).of := by
    funext w
    simp only [Fld.of, FieldRow.fld, hlsb, hwidth]
  rw [RegRow.merge_eq, hl, hg, FieldRow.of_merge hsound hf]
  have hput : (f.fld 0).of ((f.fld 0).put old ((f.fld 0).of v)) = (f.fld 0).of v := by
    rw [Fld.of_put _ _ _ (hsound.1 f hf).1]
    exact Nat.mod_eq_of_lt (Nat.mod_lt _ (Nat.two_pow_pos _))
  unfold FieldRow.mergeStep
  rcases hty with h | h <;> rw [h] <;> exact hput

/-- An RO or RC field holds what it held. -/
theorem RegRow.of_merge_ro {r : RegRow} {l : List FieldRow} (hl : r.fields = l) (hsound : FieldRow.sound l) {f : FieldRow} (hf : f ∈ l)
    (hty : f.ty = .ro ∨ f.ty = .rc) {g : Fld} (hlsb : g.lsb = f.lsb) (hwidth : g.width = f.width) (old v : Word) :
    g.of (r.merge old v) = g.of old := by
  have hg : g.of = (f.fld 0).of := by
    funext w
    simp only [Fld.of, FieldRow.fld, hlsb, hwidth]
  rw [RegRow.merge_eq, hl, hg, FieldRow.of_merge hsound hf]
  unfold FieldRow.mergeStep
  rcases hty with h | h <;> rw [h]

/-- A WO field of less than 32 bits holds what it held. -/
theorem RegRow.of_merge_wo {r : RegRow} {l : List FieldRow} (hl : r.fields = l) (hsound : FieldRow.sound l) {f : FieldRow} (hf : f ∈ l)
    (hty : f.ty = .wo) {g : Fld} (hlsb : g.lsb = f.lsb) (hwidth : g.width = f.width) (old v : Word) : g.of (r.merge old v) = g.of old := by
  have hg : g.of = (f.fld 0).of := by
    funext w
    simp only [Fld.of, FieldRow.fld, hlsb, hwidth]
  rw [RegRow.merge_eq, hl, hg, FieldRow.of_merge hsound hf]
  unfold FieldRow.mergeStep
  rw [hty]
  exact congrArg _ (if_neg ((hsound.1 f hf).2 hty))

/-- The bits of a field in the value that keeps the fields of some types, the others zero. -/
theorem RegRow.of_only {r : RegRow} {l : List FieldRow} (hl : r.fields = l) (hsound : FieldRow.sound l) {f : FieldRow} (hf : f ∈ l) {g : Fld}
    (hlsb : g.lsb = f.lsb) (hwidth : g.width = f.width) (p : FieldType → Bool) (v : Word) :
    g.of (r.only p v) = if p f.ty then g.of v else 0 := by
  have hg : g.of = (f.fld 0).of := by
    funext w
    simp only [Fld.of, FieldRow.fld, hlsb, hwidth]
  have hlocal : FieldRow.Local (fun a f => if p f.ty then (f.fld 0).put a ((f.fld 0).of v) else a) l := by
    refine ⟨fun x _ g a hg hc => ?_, fun x hx a b h => ?_⟩
    · split
      · exact Fld.of_put_apart _ _ _ _ hg hc.symm
      · rfl
    · split
      · exact (Fld.of_put _ _ _ (hsound.1 x hx).1).trans (Fld.of_put _ _ _ (hsound.1 x hx).1).symm
      · exact h
  rw [RegRow.only, hl, hg, FieldRow.of_foldl hlocal hsound hf]
  split
  · rw [Fld.of_put _ _ _ (hsound.1 f hf).1]
    exact Nat.mod_eq_of_lt (Nat.mod_lt _ (Nat.two_pow_pos _))
  · simp [Fld.of]

/-- A field is within its width. -/
theorem Dev.get_lt (d : Dev) (f : Fld) : d.get f < 2 ^ f.width := Nat.mod_lt _ (Nat.two_pow_pos _)

/-- A register set holds its field so. -/
theorem Dev.get_setReg_self (d : Dev) (f : Fld) (v : Word) {a : Nat} (h : f.addr = a) : (d.setReg a v).get f = f.of v := by
  subst h
  rw [Dev.get, Dev.reg_setReg_self]

/-- A write that meets no code meets none of its chapter, and no withdrawn cord. -/
theorem Dev.chapterCode_of_writeCode {d : Dev} {a : Nat} {r : RegAt} {v : Word} (h : d.writeCode a r v true = 0) : d.chapterCode r v = 0 := by
  unfold Dev.writeCode at h
  dsimp only at h
  split at h
  · cases h
  · split at h
    · exact absurd h ‹_›
    · split at h
      · exact absurd h ‹_›
      · exact not_not.1 ‹_›

/-! ### What has been sent stays sent -/

/-- All that one device has sent stands among what the other has. -/
def Dev.SentKept (d e : Dev) : Prop := d.out <:+ e.out

namespace Dev.SentKept
variable {d e f : Dev}

theorem refl (d : Dev) : d.SentKept d := List.suffix_refl _
theorem trans (h : d.SentKept e) (k : e.SentKept f) : d.SentKept f := List.IsSuffix.trans h k
theorem congr (h : d.SentKept e) (k : f.out = e.out) : d.SentKept f := by rwa [SentKept, k]
theorem set (h : d.SentKept e) (g : Fld) (x : Nat) : d.SentKept (e.set g x) := h
theorem setFlag (h : d.SentKept e) (g : Fld) (b : Bool) : d.SentKept (e.setFlag g b) := h
theorem setInt (h : d.SentKept e) (g : Fld) (x : Int) : d.SentKept (e.setInt g x) := h
theorem count (h : d.SentKept e) (g : Fld) (n : Nat) : d.SentKept (e.count g n) := h
theorem setBuf (h : d.SentKept e) (g : BufSt → BufSt) : d.SentKept (e.setBuf g) := h
theorem setMac (h : d.SentKept e) (p : Nat) (g : Mac → Mac) : d.SentKept (e.setMac p g) := h
theorem setLane (h : d.SentKept e) (l : Nat) (g : Lane → Lane) : d.SentKept (e.setLane l g) := h
theorem emit (h : d.SentKept e) (o : Output) : d.SentKept (e.emit o) := h.trans (List.suffix_cons _ _)
theorem raise (h : d.SentKept e) (n : Nat) (l : List Nat) : d.SentKept (e.raise n l) := h.trans (Dev.raise_out e n l)

theorem when (h : d.SentKept e) (c : Bool) (g : Dev → Dev) (hg : d.SentKept (g e)) : d.SentKept (e.when c g) := by
  cases c
  · exact h
  · exact hg

theorem each {α : Type} (h : d.SentKept e) (xs : List α) (g : Dev → α → Dev) (hg : ∀ (e : Dev) (x : α), e.SentKept (g e x)) :
    d.SentKept (e.each xs g) := Dev.each_keeps (P := d.SentKept) xs g (fun e x _ he => he.trans (hg e x)) e h

theorem mem (h : d.SentKept e) {o : Output} (ho : o ∈ d.out) : o ∈ e.out := h.subset ho

end Dev.SentKept

theorem Dev.poolLow_sent (d : Dev) (p : Nat) : d.SentKept (d.poolLow p) := by
  unfold Dev.poolLow
  exact ((SentKept.refl d).setBuf _).when _ _ (((SentKept.refl d).setBuf _).raise _ _)

theorem Dev.giveBack_sent (d : Dev) (b : Nat) (r : BufRec) : d.SentKept (d.giveBack b r) := by
  unfold Dev.giveBack
  have hused : d.SentKept ((d.setOwner b none).set (F.bufPclsUsedUsed (16 * r.pool.val + r.cls.val))
    (d.get (F.bufPclsUsedUsed (16 * r.pool.val + r.cls.val)) - 1)) := ((SentKept.refl d).setBuf _).set _ _
  exact (hused.when _ _ (hused.set _ _)).trans (Dev.poolLow_sent _ _)

theorem Dev.bufReject_sent (d : Dev) (b agent kind : Nat) : d.SentKept (d.bufReject b agent kind) := by
  unfold Dev.bufReject
  have h := (((SentKept.refl d).set F.bufBmErrlogBuf b).set F.bufBmErrlogAgent agent).set F.bufBmErrlogKind kind
  split
  · exact (h.count F.bufBmErrDbl 1).raise _ _
  · exact (h.count F.bufBmErrNown 1).raise _ _

theorem Dev.freeBuf_sent (d : Dev) (b agent : Nat) : d.SentKept (d.freeBuf b agent) := by
  unfold Dev.freeBuf
  split
  · exact SentKept.refl d
  · cases d.owner b with
    | none => exact d.bufReject_sent _ _ _
    | some r =>
      by_cases hr : agent = 63 ∨ r.owner = agent
      · simp only [if_pos hr]; exact d.giveBack_sent b r
      · simp only [if_neg hr]; exact d.bufReject_sent _ _ _

theorem Dev.freeBufs_sent (d : Dev) (bs : List Nat) (agent : Nat) : d.SentKept (d.freeBufs bs agent) :=
  (SentKept.refl d).each bs _ fun e b => e.freeBuf_sent b agent

end Sys2Proof.Machine
end

section
/-!
PROOFS. Losses, loopback, PRBS and the measurements of a lane (R305, R317 to R324).
-/

namespace Sys2Proof.Machine

set_option Elab.async false

/-! ### Events of a lane -/

/-- An event of a lane behind changes that leave its source alone is raised over all of them. -/
theorem Dev.Only.raised_laneEvent {regs evs : List Nat} {d e : Dev} (h : d.Only regs evs e) {n : Nat} (l : Nat) (addrs : List Nat)
    (hv : neverRaised n = false) (hn : n ∉ evs) (hregs : R.hrtEvtSrcCtl n ∉ regs) : d.Raised n (e.laneEvent l n addrs) :=
  (Dev.laneEvent_raised e l addrs hv).of_ctl (h _ hregs fun _ hm => evtCtl_notMem_evtRegs fun heq => hn (heq ▸ hm)).symm rfl

theorem evtCtl_notMem_sums (n h : Nat) (hn : n < 0x100) : R.hrtEvtSrcCtl n ∉ [R.hsLngSum0 h, R.hsLngSum1 h] := by
  simp only [R.hrtEvtSrcCtl, R.hsLngSum0, R.hsLngSum1, List.mem_cons, List.not_mem_nil, or_false]
  omega

theorem evtCtl_notMem_stageRegs (n l : Nat) (hn : n < 0x100) : R.hrtEvtSrcCtl n ∉ stageRegs l := by
  simp only [stageRegs, R.hrtEvtSrcCtl, R.hsLnStat, R.hsLngSum0, R.hsLngSum1, hsBase, List.mem_cons, List.not_mem_nil, or_false]
  omega

/-- Another event of a lane keeps an event raised. -/
theorem Dev.Raised.laneEvent {d e : Dev} {n : Nat} (h : d.Raised n e) (l : Nat) {m : Nat} (addrs : List Nat) (hne : n ≠ m) (hn : n < 0x100) :
    d.Raised n (e.laneEvent l m addrs) :=
  h.only (e.laneEvent_marks l m addrs).only (by simpa using hne) (evtCtl_notMem_sums n _ hn)

/-! ### The link of a lane's port -/

/-- The port that bonds the lane is down, and counts at most the frame in reception (R278). -/
def Dev.LinkFell (d : Dev) (l : Nat) (e : Dev) : Prop := ∀ p, d.portOf l = some p → e.linkUp p = false
  ∧ (e.get (F.hsMacRxerrCount p) = d.get (F.hsMacRxerrCount p)
    ∨ d.linkUp p = true ∧ e.get (F.hsMacRxerrCount p) = satAdd 32 (d.get (F.hsMacRxerrCount p)) 1)

/-- Two devices agree in the links of the ports and their counts of bad frames. -/
structure Dev.PortView (d e : Dev) : Prop where
  bond : ∀ p, e.reg (R.hsMacBond p) = d.reg (R.hsMacBond p)
  rxerr : ∀ p, e.reg (R.hsMacRxerr p) = d.reg (R.hsMacRxerr p)

theorem Dev.PortView.portOf {d e : Dev} (h : d.PortView e) (l : Nat) : e.portOf l = d.portOf l := by
  have hlanes : ∀ p, e.get (F.hsMacBondLanes p) = d.get (F.hsMacBondLanes p) := fun p => congrArg (F.hsMacBondLanes p).of (h.bond p)
  simp only [Dev.portOf, hlanes]

theorem Dev.PortView.linkUp {d e : Dev} (h : d.PortView e) (p : Nat) : e.linkUp p = d.linkUp p := by
  have hlink : e.get (F.hsMacBondLink p) = d.get (F.hsMacBondLink p) := congrArg (F.hsMacBondLink p).of (h.bond p)
  simp only [Dev.linkUp, Dev.flag, hlink]

theorem Dev.PortView.count {d e : Dev} (h : d.PortView e) (p : Nat) : e.get (F.hsMacRxerrCount p) = d.get (F.hsMacRxerrCount p) :=
  congrArg (F.hsMacRxerrCount p).of (h.rxerr p)

/-- Changes of the lanes' own registers leave the ports as they are. -/
theorem Dev.Only.portView {d e : Dev} {regs evs : List Nat} (h : d.Only regs evs e)
    (hr : ∀ a ∈ regs, a < 0xA400000 ∨ 0xB000000 ≤ a ∧ a < 0xB400000) (hevs : ∀ n ∈ evs, n < 0x100) : d.PortView e where
  bond p := by
    refine h.reg_eq (fun hm => ?_) (by simp only [R.hsMacBond, hsBase]; omega) hevs
    have := hr _ hm
    simp only [R.hsMacBond, hsBase] at this
    omega
  rxerr p := by
    refine h.reg_eq (fun hm => ?_) (by simp only [R.hsMacRxerr, hsBase]; omega) hevs
    have := hr _ hm
    simp only [R.hsMacRxerr, hsBase] at this
    omega

/-- A register that a port's frees and counts of dropped frames leave alone. -/
theorem Dev.get_macDown_tail (d : Dev) (p : Nat) {f : Fld} (ha : f.addr = R.hsMacBond p ∨ f.addr = R.hsMacRxerr p) (bs : List Nat) (agent : Nat)
    (g h : Mac → Mac) (l : List Nat) :
    (((((d.setMac p g).freeBufs bs agent).count (F.hsMacTxdropCount p) 1).setMac p h).raise 0xCB l).get f = d.get f := by
  have hlow : 0x81000 ≤ f.addr := by rcases ha with ha | ha <;> rw [ha] <;> simp only [R.hsMacBond, R.hsMacRxerr, hsBase] <;> omega
  rw [Dev.get_raise _ _ _ (.inr hlow), Dev.get_setMac, Dev.count, Dev.get_set_ne]
  · refine ((Dev.freeBufs_frees _ bs agent).only.get_eq (fun hm => ?_) hlow (by simp)).trans (Dev.get_setMac _ _ _ _)
    have := bufRegs_range hm
    rcases ha with ha | ha <;> rw [ha] at this <;> simp only [R.hsMacBond, R.hsMacRxerr, hsBase] at this <;> omega
  · rcases ha with ha | ha <;> rw [ha] <;> simp only [F.hsMacTxdropCount, R.hsMacTxdrop, R.hsMacBond, R.hsMacRxerr] <;> omega

/-- A port whose link is taken down (R278). -/
theorem Dev.macDown_link (d : Dev) (p : Nat) (b : Bool) : (d.macDown p b).linkUp p = false
    ∧ ((d.macDown p b).get (F.hsMacRxerrCount p) = d.get (F.hsMacRxerrCount p)
      ∨ d.linkUp p = true ∧ (d.macDown p b).get (F.hsMacRxerrCount p) = satAdd 32 (d.get (F.hsMacRxerrCount p)) 1) := by
  unfold Dev.macDown
  cases hup : d.linkUp p
  · exact ⟨hup, .inl rfl⟩
  · simp only [Dev.when_true]
    have hdown : ((d.set (F.hsMacBondLink p) 0).when b fun d => d.count (F.hsMacRxerrCount p) 1).get (F.hsMacBondLink p) = 0 := by
      have h0 : (d.set (F.hsMacBondLink p) 0).get (F.hsMacBondLink p) = 0 := Dev.get_set_lt _ _ (by simp [Fld.fits, F.hsMacBondLink]) (by simp [F.hsMacBondLink])
      cases b
      · exact h0
      · rw [Dev.when_true, Dev.count, Dev.get_set_ne _ _ (by simp only [F.hsMacBondLink, F.hsMacRxerrCount, R.hsMacBond, R.hsMacRxerr]; omega)]
        exact h0
    have hrx : ((d.set (F.hsMacBondLink p) 0).when b fun d => d.count (F.hsMacRxerrCount p) 1).get (F.hsMacRxerrCount p)
        = if b then satAdd 32 (d.get (F.hsMacRxerrCount p)) 1 else d.get (F.hsMacRxerrCount p) := by
      have h0 : (d.set (F.hsMacBondLink p) 0).get (F.hsMacRxerrCount p) = d.get (F.hsMacRxerrCount p) :=
        Dev.get_set_ne _ _ (by simp only [F.hsMacBondLink, F.hsMacRxerrCount, R.hsMacBond, R.hsMacRxerr]; omega)
      cases b
      · exact h0
      · rw [Dev.when_true, Dev.get_count_self _ _ _ (by simp [Fld.fits, F.hsMacRxerrCount]), h0]
        rfl
    generalize (d.set (F.hsMacBondLink p) 0).when b (fun d => d.count (F.hsMacRxerrCount p) 1) = e at hdown hrx
    have hends : ∀ t : Dev, (∀ f : Fld, f.addr = R.hsMacBond p ∨ f.addr = R.hsMacRxerr p → t.get f = e.get f) → t.linkUp p = false
        ∧ (t.get (F.hsMacRxerrCount p) = d.get (F.hsMacRxerrCount p)
          ∨ True ∧ t.get (F.hsMacRxerrCount p) = satAdd 32 (d.get (F.hsMacRxerrCount p)) 1) := by
      intro t hkeep
      refine ⟨?_, ?_⟩
      · rw [Dev.linkUp, Dev.flag, hkeep _ (.inl rfl), hdown]
        rfl
      · rw [hkeep _ (.inr rfl), hrx]
        cases b
        · exact .inl rfl
        · exact .inr ⟨trivial, rfl⟩
    cases (e.mac p).cur with
    | none =>
      refine hends _ fun f hf => ?_
      have hlow : 0x81000 ≤ f.addr := by rcases hf with ha | ha <;> rw [ha] <;> simp only [R.hsMacBond, R.hsMacRxerr, hsBase] <;> omega
      exact (Dev.get_raise _ _ _ (.inr hlow)).trans (Dev.get_setMac _ _ _ _)
    | some x => exact hends _ fun f hf => e.get_macDown_tail p hf _ _ _ _ _

theorem Dev.macDown_sent (d : Dev) (p : Nat) (b : Bool) : d.SentKept (d.macDown p b) := by
  unfold Dev.macDown
  refine (SentKept.refl d).when _ _ (SentKept.raise ?_ _ _)
  have hdown : d.SentKept (d.set (F.hsMacBondLink p) 0) := (SentKept.refl d).set _ _
  have hrx := hdown.when b (fun d => d.count (F.hsMacRxerrCount p) 1) (hdown.count _ _)
  generalize (d.set (F.hsMacBondLink p) 0).when b (fun d => d.count (F.hsMacRxerrCount p) 1) = e at hrx
  refine SentKept.setMac ?_ p _
  cases (e.mac p).cur with
  | none => exact hrx
  | some x => exact ((hrx.setMac p _).trans (Dev.freeBufs_sent _ _ _)).count _ _

/-- A lane that takes its port's link down (R278, R308). -/
theorem Dev.PortView.laneLinkDown {d e : Dev} (h : d.PortView e) (l : Nat) : d.LinkFell l (e.laneLinkDown l) := by
  intro p hp
  rw [Dev.laneLinkDown, h.portOf, hp]
  simp only [Dev.macLost, ← h.linkUp, ← h.count]
  cases hup : e.linkUp p
  · exact ⟨hup, .inl rfl⟩
  · have hfree : ({ e with free := e.free + 1 } : Dev).linkUp p = true := hup
    obtain ⟨hlink, hcount⟩ := ({ e with free := e.free + 1 } : Dev).macDown_link p ((Config.freeWord e.free).getLsbD 0)
    rw [hfree] at hcount
    exact ⟨hlink, hcount⟩

theorem Dev.laneLinkDown_sent (d : Dev) (l : Nat) : d.SentKept (d.laneLinkDown l) := by
  unfold Dev.laneLinkDown
  cases d.portOf l with
  | none => exact SentKept.refl d
  | some p => exact (SentKept.refl d).when _ _ (Dev.macDown_sent { d with free := d.free + 1 } p _)

/-! ### Counts through an entry to stage 1 -/

/-- A field of STAT that a lane's start does not set stands. -/
theorem Dev.laneStart_kept (d : Dev) (l : Nat) {f : Fld} (ha : f.addr = R.hsLnStat l) (hfit : f.fits)
    (hapart : ∀ g ∈ [F.hsLnStatLrxact l, F.hsLnStatLegacy l, F.hsLnStatTxprec l, F.hsLnStatRxprec l, F.hsLnStatStage l], g.apart f) :
    (d.laneStart l).get f = d.get f := by
  have hstage : ∀ (e : Dev) (n : Nat), (e.setStage l n).get f = e.get f := fun e n => Dev.get_set_apart _ _ _ _ hfit (hapart _ (by simp))
  unfold Dev.laneStart
  cases d.laneOn l
  · exact hstage d 0
  · simp only [Bool.not_true, Bool.false_eq_true, if_false]
    have hclear : (d.clearStat l).get f = d.get f := by
      unfold Dev.clearStat
      rw [Dev.get_set_apart _ _ _ _ hfit (hapart _ (by simp)), Dev.get_set_apart _ _ _ _ hfit (hapart _ (by simp)),
        Dev.get_set_apart _ _ _ _ hfit (hapart _ (by simp)), Dev.get_set_apart _ _ _ _ hfit (hapart _ (by simp))]
    unfold Dev.clearStat at hclear
    generalize (((d.set (F.hsLnStatLrxact l) 0).set (F.hsLnStatLegacy l) 0).set (F.hsLnStatTxprec l) 0).set (F.hsLnStatRxprec l) 0 = e at hclear ⊢
    unfold Dev.loopStage
    split
    · rw [hstage, hstage, Dev.get_setLane, hclear]
    · split
      · unfold Dev.enterActive
        rw [Dev.get_laneEvent _ _ _ _ (k := l) (by rw [ha]; simp only [R.hsLnStat]; omega) (by rw [ha]; simp only [R.hsLnStat]; omega) (by decide),
          Dev.get_setLane, hstage, hstage, Dev.get_setLane, hclear]
      · rw [hstage, Dev.get_setLane, hclear]

theorem Dev.laneStart_lostcnt (d : Dev) (l : Nat) : (d.laneStart l).get (F.hsLnStatLostcnt l) = d.get (F.hsLnStatLostcnt l) := by
  refine d.laneStart_kept l rfl (by simp [Fld.fits, F.hsLnStatLostcnt]) fun g hg => ?_
  simp only [List.mem_cons, List.not_mem_nil, or_false] at hg
  rcases hg with rfl | rfl | rfl | rfl | rfl <;>
    simp [Fld.apart, F.hsLnStatLostcnt, F.hsLnStatLrxact, F.hsLnStatLegacy, F.hsLnStatTxprec, F.hsLnStatRxprec, F.hsLnStatStage]

/-- The registers of a lane's status and of its die's summary are none of the ports'. -/
theorem stageRegs_range {l a : Nat} (hl : l < 96) (h : a ∈ stageRegs l) :
    0xA000000 ≤ a ∧ (a < 0xA400000 ∨ 0xB000000 ≤ a ∧ a < 0xB400000) := by
  simp only [stageRegs, List.mem_cons, List.not_mem_nil, or_false] at h
  rcases h with rfl | rfl | rfl <;> simp only [R.hsLnStat, R.hsLngSum0, R.hsLngSum1, hsBase] <;> omega

theorem stageRegs_low {l a : Nat} (hl : l < 96) (h : a ∈ stageRegs l) : a < 0xA400000 ∨ 0xB000000 ≤ a ∧ a < 0xB400000 := (stageRegs_range hl h).2

theorem laneEvent_statKept (d : Dev) (l n : Nat) (addrs : List Nat) (hn : n < 0x100) {f : Fld} (ha : f.addr = R.hsLnStat l) :
    (d.laneEvent l n addrs).get f = d.get f :=
  Dev.get_laneEvent _ _ _ _ (k := l) (by rw [ha]; simp only [R.hsLnStat]; omega) (by rw [ha]; simp only [R.hsLnStat]; omega) hn

theorem laneLinkDown_statKept (d : Dev) (l : Nat) {f : Fld} (ha : f.addr = R.hsLnStat l) : (d.laneLinkDown l).get f = d.get f :=
  Dev.get_laneLinkDown _ _ (by rw [ha]; simp only [R.hsLnStat]; omega) (by rw [ha]; simp only [R.hsLnStat]; omega)

/-! ### LOOP and PRBS -/

/-- The fields of HSx_LN_LOOP. -/
def loopFields : List FieldRow := [⟨0, 2, .rw, .nat 0 3⟩, ⟨16, 8, .rc, .any⟩]

theorem loopFields_sound : FieldRow.sound loopFields := by simp [FieldRow.sound, FieldRow.clear, loopFields]

theorem decodeAddr_hsLnLoop (l : Fin 96) :
    ∃ r, decodeAddr (R.hsLnLoop l) = some r ∧ r.row.name = .hsLnLoop ∧ r.port = l ∧ r.row.fields = loopFields := by
  have h : (decodeAddr (R.hsLnLoop l)).map (fun r => (r.row.name, r.port, r.row.fields)) = some (.hsLnLoop, l.val, loopFields) := by
    revert l; decide +kernel
  simpa [Option.map_eq_some_iff] using h

/-- The fields of HSx_LN_PRBS. -/
def prbsFields : List FieldRow :=
  [⟨0, 3, .rw, .nat 0 4⟩, ⟨3, 1, .rw, .any⟩, ⟨4, 1, .rw, .any⟩, ⟨5, 1, .ro, .any⟩, ⟨16, 16, .rc, .any⟩]

theorem prbsFields_sound : FieldRow.sound prbsFields := by simp [FieldRow.sound, FieldRow.clear, prbsFields]

theorem decodeAddr_hsLnPrbs (l : Fin 96) :
    ∃ r, decodeAddr (R.hsLnPrbs l) = some r ∧ r.row.name = .hsLnPrbs ∧ r.port = l ∧ r.row.fields = prbsFields := by
  have h : (decodeAddr (R.hsLnPrbs l)).map (fun r => (r.row.name, r.port, r.row.fields)) = some (.hsLnPrbs, l.val, prbsFields) := by
    revert l; decide +kernel
  simpa [Option.map_eq_some_iff] using h

theorem emberOfs_hs {b : Nat} {l : Fin 96} (k : Nat) (hb : b < 0x50) (hk : k < 0x10000) : emberOfs (hsBase b l + k) = none := by
  unfold emberOfs hsBase
  exact if_neg (by omega)

/-- A write to a register of a lane that is taken at once ends as its effect does. -/
theorem State.laneWrite_takes {s : State} {a : Nat} {u : Dev → Word} {v : Word} {o : Host.Outcome State Fault Refusal} {P : State → Prop} {r : RegAt}
    {g : Dev → Dev} (hs : s.dev.out = []) (ho : o = s.run fun fz d => d.arrive fz a 4 (some (u d)) []) (hu : u s.dev = v) (ht : s.dev.Takes a v)
    (he : emberOfs a = none) (hr : decodeAddr a = some r) (hn : r.row.name.plainWrite = true) (hlow : a < R.pciRxgBaselo 0)
    (hg : ∀ d : Dev, (d.setReg a (r.row.merge (d.reg a) v)).writeGo s.fuses r (d.reg a) v [] = g d)
    (h : ∀ (d : Dev) t, d.regs = s.dev.regs → d.out = [] → d.lanes = s.dev.lanes → ((g d).emit (.writeDone a 0)).regs = t.dev.regs →
      t.outputs = .writeDone a 0 :: (g d).out ++ s.outputs → P t) : ∃ t, o = .next t ∧ P t := by
  refine State.write_takes (g := g) hs ho hu ht he hr (fun l => ?_) fun l t hends hout => ?_
  · rw [Dev.sysWrite_plain hn (Dev.ringsUp_of_lt hlow), hg]
  · exact h (s.dev.setWaiting l) t rfl hs rfl hends.regs.symm hout

theorem Dev.PortView.congr {d e f : Dev} (h : d.PortView e) (k : f.regs = e.regs) : d.PortView f :=
  ⟨fun p => (Dev.reg_congr k _).trans (h.bond p), fun p => (Dev.reg_congr k _).trans (h.rxerr p)⟩

theorem Dev.PortView.trans {d e f : Dev} (h : d.PortView e) (k : e.PortView f) : d.PortView f :=
  ⟨fun p => (k.bond p).trans (h.bond p), fun p => (k.rxerr p).trans (h.rxerr p)⟩

/-- A lane is on where its cord and its port say so. -/
theorem Dev.PortView.laneOn {d e : Dev} {l : Nat} (h : d.PortView e) (hcord : e.cordSt (hsCord l) = d.cordSt (hsCord l))
    (hpark : ∀ p, e.get (F.hsMacParkPark p) = d.get (F.hsMacParkPark p)) : e.laneOn l = d.laneOn l := by
  simp only [Dev.laneOn, Dev.released, hcord, h.portOf, Dev.flag, hpark]

theorem R.hrtPwrCord_lt {c : Nat} (h : c < 0x100) : R.hrtPwrCord c < 0x80000 := by
  simp only [R.hrtPwrCord]
  omega

theorem notMem_evtRegs_of_low {a n : Nat} (ha : a < 0x80000) : a ∉ evtRegs n := by
  simp only [evtRegs, R.hrtEvtSrcCtl, R.hrtEvtSrcFirstns, R.hrtEvtSrcFirstw, List.mem_cons, List.not_mem_nil, or_false]
  omega

/-- The state of a cord stands where none of its registers changes. -/
theorem Dev.Only.cordSt_eq {d e : Dev} {regs evs : List Nat} (h : d.Only regs evs e) {c : Nat} (hc : c < 0x100) (hr : R.hrtPwrCord c ∉ regs) :
    e.cordSt c = d.cordSt c := by
  have hreg : e.reg (R.hrtPwrCord c) = d.reg (R.hrtPwrCord c) :=
    h _ hr fun _ _ => notMem_evtRegs_of_low (by simp only [R.hrtPwrCord]; omega)
  have hget : e.get (F.hrtPwrCordSt c) = d.get (F.hrtPwrCordSt c) := congrArg (F.hrtPwrCordSt c).of hreg
  simp only [Dev.cordSt, hget]

/-- A lane stays on through changes of the lanes' own registers. -/
theorem Dev.Only.laneOn {d e : Dev} {regs evs : List Nat} (h : d.Only regs evs e) {l : Nat} (hl : l < 96)
    (hr : ∀ a ∈ regs, 0xA000000 ≤ a ∧ (a < 0xA400000 ∨ 0xB000000 ≤ a ∧ a < 0xB400000)) (hevs : ∀ n ∈ evs, n < 0x100) :
    e.laneOn l = d.laneOn l := by
  refine (h.portView (fun a ha => (hr a ha).2) hevs).laneOn (h.cordSt_eq (by simp only [hsCord]; omega) fun hm => ?_)
    fun p => h.get_eq (fun hm => ?_) ?_ hevs
  · have hlow := R.hrtPwrCord_lt (c := hsCord l) (by simp only [hsCord]; omega)
    have := (hr _ hm).1
    omega
  · have := (hr _ hm).2
    simp only [F.hsMacParkPark, R.hsMacPark, hsBase] at this
    omega
  · simp only [F.hsMacParkPark, R.hsMacPark, hsBase]; omega

/-- The lane of a written LOOP (R319, R320). -/
theorem Dev.loopGo_shows {d e : Dev} {l : Nat} (hl : l < 96) (honly : d.Only [R.hsLnLoop l] [] e) (hon : d.laneOn l = true)
    (hmode : e.get (F.hsLnLoopMode l) = 3 → d.stage l = 5) (hlt : e.get (F.hsLnLoopMode l) < 4) :
    (e.loopGo l).get (F.hsLnLoopMode l) = e.get (F.hsLnLoopMode l)
      ∧ (e.loopGo l).stage l = (if e.get (F.hsLnLoopMode l) = 0 then 1 else if e.get (F.hsLnLoopMode l) = 1 then 3 else 5)
      ∧ d.LinkFell l (e.loopGo l) := by
  have hview : d.PortView e := honly.portView (by simp only [List.mem_singleton, forall_eq, R.hsLnLoop, hsBase]; omega) (by simp)
  have hloop : hsBase 0 l ≤ (F.hsLnLoopMode l).addr ∧ (F.hsLnLoopMode l).addr < hsBase 0 l + 0x10000 := by
    simp only [F.hsLnLoopMode, R.hsLnLoop]; omega
  have hon' : e.laneOn l = true :=
    (honly.laneOn hl (by simp only [List.mem_singleton, forall_eq, R.hsLnLoop, hsBase]; omega) (by simp)).trans hon
  unfold Dev.loopGo
  simp only [hon', Bool.not_true, Bool.false_eq_true, if_false]
  by_cases h3 : e.get (F.hsLnLoopMode l) = 3
  · rw [if_pos h3]
    refine ⟨?_, ?_, (hview.congr (Dev.setLane_keeps _ _ _).1).laneLinkDown l⟩
    · rw [Dev.get_laneLinkDown _ _ hloop.1 hloop.2, Dev.get_setLane]
    · rw [Dev.stage, laneLinkDown_statKept _ _ rfl, Dev.get_setLane, h3]
      refine Eq.trans (honly.get_eq ?_ ?_ (by simp)) (hmode h3)
      · simp only [F.hsLnStatStage, R.hsLnStat, R.hsLnLoop, List.mem_singleton]; omega
      · simp only [F.hsLnStatStage, R.hsLnStat, hsBase]; omega
  · rw [if_neg h3, Dev.laneBack]
    obtain ⟨hstage, -, hstart⟩ := e.laneStart_shows l
    have hview' := hstart.portView (fun a ha => stageRegs_low hl ha) (by simp)
    refine ⟨?_, ?_, (hview.trans hview').laneLinkDown l⟩
    · rw [Dev.get_laneLinkDown _ _ hloop.1 hloop.2]
      refine hstart.get_eq ?_ ?_ (by simp)
      · simp only [F.hsLnLoopMode, R.hsLnLoop, stageRegs, R.hsLnStat, R.hsLngSum0, R.hsLngSum1, hsBase, List.mem_cons, List.not_mem_nil, or_false]
        omega
      · simp only [F.hsLnLoopMode, R.hsLnLoop, hsBase]; omega
    · rw [Dev.stage, laneLinkDown_statKept _ _ rfl, ← Dev.stage, hstage, if_pos hon']
      rcases (by omega : e.get (F.hsLnLoopMode l) = 0 ∨ e.get (F.hsLnLoopMode l) = 1 ∨ e.get (F.hsLnLoopMode l) = 2) with h | h | h <;> simp [h]

/-- What a write of PRBS stores, and its effect sees (R323). -/
structure Dev.PrbsWritten (d : Dev) (l : Nat) (v : Word) (e : Dev) : Prop where
  only : d.Only [R.hsLnPrbs l] [] e
  pat : e.get (F.hsLnPrbsPat l) = (F.hsLnPrbsPat l).of v
  gen : e.get (F.hsLnPrbsGen l) = (F.hsLnPrbsGen l).of v
  chk : e.get (F.hsLnPrbsChk l) = (F.hsLnPrbsChk l).of v

theorem Dev.prbsWritten {d : Dev} {l : Nat} {row : RegRow} (hrow : row.fields = prbsFields) (v : Word) :
    d.PrbsWritten l v (d.setReg (R.hsLnPrbs l) (row.merge (d.reg (R.hsLnPrbs l)) v)) where
  only := (Dev.Only.refl _ _ d).setReg _ (by simp)
  pat := (Dev.get_setReg_self d _ _ rfl).trans
    (RegRow.of_merge_rw hrow prbsFields_sound (f := ⟨0, 3, .rw, .nat 0 4⟩) (by simp [prbsFields]) (.inl rfl) rfl rfl _ _)
  gen := (Dev.get_setReg_self d _ _ rfl).trans
    (RegRow.of_merge_rw hrow prbsFields_sound (f := ⟨3, 1, .rw, .any⟩) (by simp [prbsFields]) (.inl rfl) rfl rfl _ _)
  chk := (Dev.get_setReg_self d _ _ rfl).trans
    (RegRow.of_merge_rw hrow prbsFields_sound (f := ⟨4, 1, .rw, .any⟩) (by simp [prbsFields]) (.inl rfl) rfl rfl _ _)

/-- The pattern of a lane as its transmitter takes it up, and the checker at its start. -/
def Dev.prbsStart (d : Dev) (l : Nat) (send fresh : Bool) (pat : Nat) : Dev :=
  (d.when send fun d => d.emit (.prbs l pat)).when fresh fun d => (d.set (F.hsLnPrbsLock l) 0).setLane l fun x => { x with prbsErr := false }

theorem Dev.prbsStart_only (d : Dev) (l : Nat) (send fresh : Bool) (pat : Nat) : d.Only [R.hsLnPrbs l] [] (d.prbsStart l send fresh pat) := by
  unfold Dev.prbsStart
  have hsend := (Dev.Only.refl [R.hsLnPrbs l] [] d).when send (fun d => d.emit (.prbs l pat)) fun _ => (Dev.Only.refl _ _ d).emit _
  exact hsend.when fresh _ fun _ => (hsend.set _ _ (by simp [F.hsLnPrbsLock])).congr (Dev.setLane_keeps _ _ _).1

theorem Dev.prbsStart_kept (d : Dev) (l : Nat) (send fresh : Bool) (pat : Nat) {f : Fld} (hf : f.fits) (ha : (F.hsLnPrbsLock l).apart f) :
    (d.prbsStart l send fresh pat).get f = d.get f := by
  unfold Dev.prbsStart
  cases send <;> cases fresh <;> simp -implicitDefEqProofs [Dev.get_set_apart _ _ _ _ hf ha]

theorem Dev.prbsStart_lock (d : Dev) (l : Nat) (send : Bool) (pat : Nat) : (d.prbsStart l send true pat).get (F.hsLnPrbsLock l) = 0 := by
  unfold Dev.prbsStart
  rw [Dev.when_true, Dev.get_setLane, Dev.get_set_lt _ _ (by simp [Fld.fits, F.hsLnPrbsLock]) (by simp [F.hsLnPrbsLock])]

theorem Dev.prbsStart_sends (d : Dev) (l : Nat) (fresh : Bool) (pat : Nat) : .prbs l pat ∈ (d.prbsStart l true fresh pat).out := by
  unfold Dev.prbsStart
  cases fresh <;> simp -implicitDefEqProofs

/-- The pattern that a value of PRBS has its lane send, 0 for none. -/
def prbsSent (l : Nat) (v : Word) : Nat := if (F.hsLnPrbsGen l).of v = 1 then (F.hsLnPrbsPat l).of v else 0

/-- After a write that has either bit set, the link is down (R323). -/
theorem Dev.prbsGo_on {d : Dev} {l : Nat} {old : Word} (hon : d.get (F.hsLnPrbsGen l) = 1 ∨ d.get (F.hsLnPrbsChk l) = 1) :
    ∃ fresh, d.prbsGo l old = (d.prbsStart l (prbsSent l (d.reg (R.hsLnPrbs l)) != prbsSent l old) fresh
      (prbsSent l (d.reg (R.hsLnPrbs l)))).laneLinkDown l := by
  refine ⟨(F.hsLnPrbsChk l).of (d.reg (R.hsLnPrbs l)) == 0 || (F.hsLnPrbsChk l).of old == 0, ?_⟩
  have hnow : ((F.hsLnPrbsGen l).of (d.reg (R.hsLnPrbs l)) == 1 || (F.hsLnPrbsChk l).of (d.reg (R.hsLnPrbs l)) == 1) = true := by
    rcases hon with h | h <;> simp only [Dev.get, F.hsLnPrbsGen, F.hsLnPrbsChk] at h ⊢ <;> simp [h]
  unfold Dev.prbsGo Dev.prbsStart prbsSent
  simp only [hnow, if_true]

/-- After a write that clears both bits the lane is back at its start (R323). -/
theorem Dev.prbsGo_off {d : Dev} {l : Nat} {old : Word} (hgen : d.get (F.hsLnPrbsGen l) = 0) (hchk : d.get (F.hsLnPrbsChk l) = 0)
    (hold : (F.hsLnPrbsGen l).of old = 1 ∨ (F.hsLnPrbsChk l).of old = 1) :
    ∃ send, d.prbsGo l old = (d.prbsStart l send true 0).laneBack l := by
  refine ⟨0 != prbsSent l old, ?_⟩
  have hgen' : (F.hsLnPrbsGen l).of (d.reg (R.hsLnPrbs l)) = 0 := hgen
  have hchk' : (F.hsLnPrbsChk l).of (d.reg (R.hsLnPrbs l)) = 0 := hchk
  have hwas : ((F.hsLnPrbsGen l).of old == 1 || (F.hsLnPrbsChk l).of old == 1) = true := by rcases hold with h | h <;> simp [h]
  unfold Dev.prbsGo Dev.prbsStart prbsSent
  simp only [hgen', hchk', hwas, Nat.zero_ne_one, Nat.reduceBEq, Bool.or_self, Bool.false_eq_true, if_false, if_true, Bool.true_or]

/-! ### Precoding (R305) -/

theorem recoverGray_precode : ∀ (p : Nat) (gs : List Nat), p < 4 → (∀ g ∈ gs, g < 4) → recoverGray p (precode p gs) = gs
  | _, [], _, _ => rfl
  | p, g :: gs, hp, h => by
    have hg := h g List.mem_cons_self
    have hback : ((g + 4 - p % 4) % 4 + p) % 4 = g := by omega
    simp only [precode, recoverGray, hback,
      recoverGray_precode _ gs (Nat.mod_lt _ (by decide)) fun x hx => h x (List.mem_cons_of_mem _ hx)]

theorem grayLevels_lt : ∀ bits : List Bool, ∀ g ∈ grayLevels bits, g < 4
  | a :: b :: t, g, hg => by
    rcases List.mem_cons.1 hg with rfl | hg
    · cases a <;> cases b <;> decide
    · exact grayLevels_lt t g hg
  | [_], _, hg => by cases hg
  | [], _, hg => by cases hg

theorem grayBits_grayLevels : ∀ bits : List Bool, bits.length % 2 = 0 → (grayLevels bits).flatMap grayBits = bits
  | [], _ => rfl
  | [_], h => by simp at h
  | a :: b :: t, h => by
    have ht : t.length % 2 = 0 := by simpa [Nat.add_assoc, Nat.add_mod_right] using h
    rw [grayLevels, List.flatMap_cons, grayBits_grayLevels t ht]
    cases a <;> cases b <;> rfl

theorem Dev.laneReceives_laneSends {d : Dev} {l : Nat} {bits : List Bool} (h5 : d.stage l = 5) (heven : bits.length % 2 = 0)
    (hsame : d.get (F.hsLnStatTxprec l) = d.get (F.hsLnStatRxprec l)) : d.laneReceives l (d.laneSends l bits) = bits := by
  have h5' : d.get (F.hsLnStatStage l) = 5 := h5
  unfold Dev.laneReceives Dev.laneSends
  simp only [h5', ne_eq, not_true_eq_false, if_false, Dev.flag, hsame]
  cases d.pam4 l
  · simp only [Bool.not_false, if_true, List.map_map]
    refine (List.map_congr_left fun b _ => ?_).trans (List.map_id bits)
    cases b <;> rfl
  · simp only [Bool.not_true, Bool.false_eq_true, if_false]
    cases d.get (F.hsLnStatRxprec l) != 0
    · exact grayBits_grayLevels bits heven
    · simp only [if_true]
      rw [recoverGray_precode 0 _ (by decide) (grayLevels_lt bits), grayBits_grayLevels bits heven]

/-- A lane of stage 5 that loses its signal: back to stage 1, LOSTCNT counts, the link falls (R317). -/
theorem Dev.laneLost_shows {d e : Dev} {l : Nat} (hl : l < 96) (h : d.Only (stageRegs l) [0xB7, 0xB9] e)
    (hcnt : e.get (F.hsLnStatLostcnt l) = d.get (F.hsLnStatLostcnt l)) :
    (((e.count (F.hsLnStatLostcnt l) 1).laneEvent l 0xB8 [R.hsLnStat l]).laneLinkDown l).stage l = e.stage l
      ∧ d.Raised 0xB8 (((e.count (F.hsLnStatLostcnt l) 1).laneEvent l 0xB8 [R.hsLnStat l]).laneLinkDown l)
      ∧ (((e.count (F.hsLnStatLostcnt l) 1).laneEvent l 0xB8 [R.hsLnStat l]).laneLinkDown l).get (F.hsLnStatLostcnt l)
        = satAdd 8 (d.get (F.hsLnStatLostcnt l)) 1
      ∧ d.LinkFell l (((e.count (F.hsLnStatLostcnt l) 1).laneEvent l 0xB8 [R.hsLnStat l]).laneLinkDown l) := by
  have hcount : d.Only (stageRegs l) [0xB7, 0xB9] (e.count (F.hsLnStatLostcnt l) 1) := h.count _ _ (by simp [stageRegs, F.hsLnStatLostcnt])
  have hraised := hcount.raised_laneEvent (n := 0xB8) l [R.hsLnStat l] (by decide) (by decide) (evtCtl_notMem_stageRegs _ _ (by decide))
  have hall : d.Only (stageRegs l) [0xB7, 0xB8, 0xB9] ((e.count (F.hsLnStatLostcnt l) 1).laneEvent l 0xB8 [R.hsLnStat l]) :=
    (hcount.mono (fun _ h => h) (by simp)).trans
      ((Dev.laneEvent_marks _ l 0xB8 [R.hsLnStat l]).only.mono (by simp [stageRegs]) (by simp))
  refine ⟨?_, hraised.laneLinkDown l (by decide) (by decide), ?_, (hall.portView (fun a ha => stageRegs_low hl ha) (by simp)).laneLinkDown l⟩
  · rw [Dev.stage, laneLinkDown_statKept _ _ rfl, laneEvent_statKept _ _ _ _ (by decide) rfl, Dev.get_count_apart]
    · rfl
    · simp [Fld.fits, F.hsLnStatStage]
    · simp [Fld.apart, F.hsLnStatStage, F.hsLnStatLostcnt]
  · rw [laneLinkDown_statKept _ _ rfl, laneEvent_statKept _ _ _ _ (by decide) rfl, Dev.get_count_self _ _ _ (by simp [Fld.fits, F.hsLnStatLostcnt]), hcnt]
    rfl

/-- The eye as a measurement shows it (R321). -/
theorem Dev.eyeShown (d : Dev) (l height width snr : Nat) :
    (((d.set (F.hsLnEyeEyeh l) height).set (F.hsLnEyeEyew l) width).set (F.hsLnEyeSnr l) snr).lane l = d.lane l
      ∧ (((d.set (F.hsLnEyeEyeh l) height).set (F.hsLnEyeEyew l) width).set (F.hsLnEyeSnr l) snr).get (F.hsLnEyeEyeh l) = height % 256
      ∧ (((d.set (F.hsLnEyeEyeh l) height).set (F.hsLnEyeEyew l) width).set (F.hsLnEyeSnr l) snr).get (F.hsLnEyeEyew l) = width % 256
      ∧ (((d.set (F.hsLnEyeEyeh l) height).set (F.hsLnEyeEyew l) width).set (F.hsLnEyeSnr l) snr).get (F.hsLnEyeSnr l) = snr % 4096
      ∧ d.Only [R.hsLnEye l] [] (((d.set (F.hsLnEyeEyeh l) height).set (F.hsLnEyeEyew l) width).set (F.hsLnEyeSnr l) snr) := by
  refine ⟨by simp, ?_, ?_, ?_, ?_⟩
  · rw [Dev.get_set_apart _ _ _ _ (by simp [Fld.fits, F.hsLnEyeEyeh]) (by simp [Fld.apart, F.hsLnEyeEyeh, F.hsLnEyeSnr]),
      Dev.get_set_apart _ _ _ _ (by simp [Fld.fits, F.hsLnEyeEyeh]) (by simp [Fld.apart, F.hsLnEyeEyeh, F.hsLnEyeEyew]),
      Dev.get_set_self _ _ _ (by simp [Fld.fits, F.hsLnEyeEyeh])]
    rfl
  · rw [Dev.get_set_apart _ _ _ _ (by simp [Fld.fits, F.hsLnEyeEyew]) (by simp [Fld.apart, F.hsLnEyeEyew, F.hsLnEyeSnr]),
      Dev.get_set_self _ _ _ (by simp [Fld.fits, F.hsLnEyeEyew])]
    rfl
  · rw [Dev.get_set_self _ _ _ (by simp [Fld.fits, F.hsLnEyeSnr])]
    rfl
  · exact (((Dev.Only.refl _ _ d).set _ _ (by simp [F.hsLnEyeEyeh])).set _ _ (by simp [F.hsLnEyeEyew])).set _ _ (by simp [F.hsLnEyeSnr])

/-- An event of one of the first 32 lanes of a die shows in its summary (R326). -/
theorem Dev.laneEvent_summary (d : Dev) {l : Nat} (n : Nat) (addrs : List Nat) (h : l % 48 < 32) :
    ((d.laneEvent l n addrs).get (F.hsLngSum0Lanes (l / 48))).testBit (l % 48) = true := by
  unfold Dev.laneEvent
  simp only [h, if_true]
  rw [Dev.get_raise _ _ _ (.inr (by simp only [F.hsLngSum0Lanes, R.hsLngSum0]; omega)),
    Dev.get_set_self _ _ _ (by simp [Fld.fits, F.hsLngSum0Lanes]), Nat.testBit_mod_two_pow, Nat.mod_eq_of_lt h, setBit, Nat.testBit_or,
    Nat.testBit_two_pow_self, Bool.or_true, Bool.and_true, decide_eq_true_eq]
  exact h

/-- The counts of a second's corrections (R322). -/
theorem Dev.fecCounted (d : Dev) (l m n : Nat) :
    ((d.count (F.hsLnFecsymCount l) m).when (d.firstLane l == l) fun d => d.count (F.hsLnFeccwCount l) n).get (F.hsLnFecsymCount l)
        = satAdd 32 (d.get (F.hsLnFecsymCount l)) m
      ∧ ((d.count (F.hsLnFecsymCount l) m).when (d.firstLane l == l) fun d => d.count (F.hsLnFeccwCount l) n).get (F.hsLnFeccwCount l)
        = (if d.firstLane l = l then satAdd 32 (d.get (F.hsLnFeccwCount l)) n else d.get (F.hsLnFeccwCount l))
      ∧ d.Only [R.hsLnFecsym l, R.hsLnFeccw l] []
        ((d.count (F.hsLnFecsymCount l) m).when (d.firstLane l == l) fun d => d.count (F.hsLnFeccwCount l) n) := by
  have hne : R.hsLnFecsym l ≠ R.hsLnFeccw l := by simp only [R.hsLnFecsym, R.hsLnFeccw]; omega
  have hsym : (d.count (F.hsLnFecsymCount l) m).get (F.hsLnFecsymCount l) = satAdd 32 (d.get (F.hsLnFecsymCount l)) m :=
    Dev.get_count_self _ _ _ (by simp [Fld.fits, F.hsLnFecsymCount])
  have hcw : (d.count (F.hsLnFecsymCount l) m).get (F.hsLnFeccwCount l) = d.get (F.hsLnFeccwCount l) := Dev.get_set_ne _ _ hne.symm
  have honly : d.Only [R.hsLnFecsym l, R.hsLnFeccw l] [] (d.count (F.hsLnFecsymCount l) m) :=
    (Dev.Only.refl _ _ d).count _ _ (by simp [F.hsLnFecsymCount])
  by_cases h : d.firstLane l = l
  · rw [if_pos h, h, beq_self_eq_true, Dev.when_true]
    refine ⟨(Dev.get_set_ne _ _ hne).trans hsym, ?_, honly.count _ _ (by simp [F.hsLnFeccwCount])⟩
    rw [Dev.get_count_self _ _ _ (by simp [Fld.fits, F.hsLnFeccwCount]), hcw]
    rfl
  · have hb : (d.firstLane l == l) = false := by simpa using h
    rw [if_neg h, hb, Dev.when_false]
    exact ⟨hsym, hcw, honly⟩

/-- Settles O36: what each loss, test and measurement changes of its lane. -/
theorem lanesAreTestedAndMeasured : Obligations.LanesAreTestedAndMeasured := by
  unfold Obligations.LanesAreTestedAndMeasured
  refine ⟨?_, ?_, ?_, ?_, ?_, ?_, ?_, ?_, ?_, ?_, ?_, ?_⟩
  · intro l
    refine State.of_sent ?_ fun _ h => h
    intro s hs h5 hmode hon
    simp only [exec, execLnRemoved]
    refine State.run_ends hs rfl fun t ht _ _ => ?_
    unfold Dev.removed at ht
    simp only [h5, hmode, Nat.reduceLT, or_self, if_false, OfNat.zero_ne_ofNat, false_and, beq_self_eq_true, Bool.and_self, Dev.when_true] at ht
    obtain ⟨hstage, -, hstart⟩ := s.dev.laneStart_shows l
    have hB9 := hstart.raised_laneEvent (n := 0xB9) l [R.hsLnStat l] (by decide) (by decide) (evtCtl_notMem_stageRegs _ _ (by decide))
    have honly : s.dev.Only (stageRegs l) [0xB7, 0xB9] ((s.dev.laneStart l).laneEvent l 0xB9 [R.hsLnStat l]) :=
      (hstart.mono (fun _ h => h) (by simp)).trans ((Dev.laneEvent_marks _ l 0xB9 [R.hsLnStat l]).only.mono (by simp [stageRegs]) (by simp))
    have hcnt := (laneEvent_statKept (s.dev.laneStart l) l 0xB9 [R.hsLnStat l] (by decide) rfl).trans (s.dev.laneStart_lostcnt l)
    have hst : ((s.dev.laneStart l).laneEvent l 0xB9 [R.hsLnStat l]).stage l = 1 := by
      rw [Dev.laneEvent_stage _ _ _ _ (by decide), hstage, hon, hmode]
      rfl
    generalize (s.dev.laneStart l).laneEvent l 0xB9 [R.hsLnStat l] = e at ht hB9 honly hcnt hst
    obtain ⟨hstage', hB8, hlost, hfell⟩ := Dev.laneLost_shows l.isLt honly hcnt
    refine ⟨?_, ht.raised.2 ?_, ht.raised.2 hB8, (ht.get _).trans hlost, fun p hp => ?_⟩
    · rw [Dev.stage, ht.get]
      exact hstage'.trans hst
    · have hcount : e.Only [R.hsLnStat l] [] (e.count (F.hsLnStatLostcnt l) 1) := (Dev.Only.refl _ _ e).count _ _ (by simp [F.hsLnStatLostcnt])
      refine Dev.Raised.laneLinkDown (Dev.Raised.laneEvent (hB9.only hcount (by simp) ?_) l _ (by decide) (by decide)) l (by decide) (by decide)
      exact fun hm => evtCtl_notMem_stageRegs 0xB9 l (by decide) (by simp [stageRegs, List.mem_singleton.1 hm])
    · obtain ⟨hup, hcount⟩ := hfell p hp
      refine ⟨?_, fun _ => ?_⟩
      · rw [Dev.linkUp, ht.flag]; exact hup
      · rw [ht.get]; exact hcount
  · intro l
    refine State.of_sent ?_ fun _ h => h
    intro s hs h3 hmode hon
    simp only [exec, execLnRemoved]
    refine State.run_ends hs rfl fun t ht _ _ => ?_
    unfold Dev.removed at ht
    simp only [h3, hmode, Nat.reduceLT, or_self, if_false, OfNat.zero_ne_ofNat, false_and, Nat.reduceBEq, Bool.false_and, Dev.when_false] at ht
    obtain ⟨hstage, -, hstart⟩ := s.dev.laneStart_shows l
    have hB9 := hstart.raised_laneEvent (n := 0xB9) l [R.hsLnStat l] (by decide) (by decide) (evtCtl_notMem_stageRegs _ _ (by decide))
    refine ⟨?_, ht.raised.2 (hB9.laneLinkDown l (by decide) (by decide)), ?_⟩
    · rw [Dev.stage, ht.get, laneLinkDown_statKept _ _ rfl, laneEvent_statKept _ _ _ _ (by decide) rfl, ← Dev.stage, hstage, hon, hmode]
      rfl
    · rw [ht.get, laneLinkDown_statKept _ _ rfl, laneEvent_statKept _ _ _ _ (by decide) rfl, s.dev.laneStart_lostcnt]
  · intro l
    refine State.of_sent ?_ fun _ h => h
    intro s hs h5 hmode hon hquiet
    simp only [exec, execLnLockLost]
    refine State.run_ends hs rfl fun t ht _ _ => ?_
    have hloss : s.dev.lockLost l = (((s.dev.count (F.hsLnStatLostcnt l) 1).laneStart l).laneEvent l 0xB8 [R.hsLnStat l]).laneLinkDown l := by
      unfold Dev.lockLost
      cases hp : s.dev.portOf l with
      | none => simp [h5]
      | some p => simp [h5, Dev.flag, hquiet p hp]
    rw [hloss] at ht
    have hcount : s.dev.Only (stageRegs l) [0xB7] (s.dev.count (F.hsLnStatLostcnt l) 1) :=
      (Dev.Only.refl _ _ s.dev).count _ _ (by simp [stageRegs, F.hsLnStatLostcnt])
    have hcnt : (s.dev.count (F.hsLnStatLostcnt l) 1).get (F.hsLnStatLostcnt l) = satAdd 8 (s.dev.get (F.hsLnStatLostcnt l)) 1 :=
      Dev.get_count_self _ _ _ (by simp [Fld.fits, F.hsLnStatLostcnt])
    have hmode' : (s.dev.count (F.hsLnStatLostcnt l) 1).get (F.hsLnLoopMode l) = 0 := by
      rw [Dev.count, Dev.get_set_ne _ _ (by simp only [F.hsLnLoopMode, F.hsLnStatLostcnt, R.hsLnLoop, R.hsLnStat]; omega), hmode]
    have hon' : (s.dev.count (F.hsLnStatLostcnt l) 1).laneOn l = true :=
      (hcount.laneOn l.isLt (fun a ha => stageRegs_range l.isLt ha) (by simp)).trans hon
    generalize s.dev.count (F.hsLnStatLostcnt l) 1 = e at ht hcount hcnt hmode' hon'
    obtain ⟨hstage, -, hstart⟩ := e.laneStart_shows l
    have hall := hcount.trans hstart
    have hB8 := hall.raised_laneEvent (n := 0xB8) l [R.hsLnStat l] (by decide) (by decide) (evtCtl_notMem_stageRegs _ _ (by decide))
    have hevent : s.dev.Only (stageRegs l) [0xB7, 0xB8] ((e.laneStart l).laneEvent l 0xB8 [R.hsLnStat l]) :=
      (hall.mono (fun _ h => h) (by simp)).trans ((Dev.laneEvent_marks _ l 0xB8 [R.hsLnStat l]).only.mono (by simp [stageRegs]) (by simp))
    refine ⟨?_, ht.raised.2 (hB8.laneLinkDown l (by decide) (by decide)), ?_, fun p hp => ?_⟩
    · rw [Dev.stage, ht.get, laneLinkDown_statKept _ _ rfl, laneEvent_statKept _ _ _ _ (by decide) rfl, ← Dev.stage, hstage, hon', hmode']
      rfl
    · rw [ht.get, laneLinkDown_statKept _ _ rfl, laneEvent_statKept _ _ _ _ (by decide) rfl, e.laneStart_lostcnt, hcnt]
    · obtain ⟨hup, hfell⟩ := (hevent.portView (fun a ha => stageRegs_low l.isLt ha) (by simp)).laneLinkDown l p hp
      refine ⟨?_, fun _ => ?_⟩
      · rw [Dev.linkUp, ht.flag]; exact hup
      · rw [ht.get]; exact hfell
  · intro l mode
    refine State.of_sent ?_ fun _ h => h
    intro s hs htakes hon
    obtain ⟨r, hr, hn, hport, hfields⟩ := decodeAddr_hsLnLoop l
    refine State.laneWrite_takes (a := R.hsLnLoop l) (u := fun d => d.withField (F.hsLnLoopMode l) mode) (g := fun d => (d.setReg (R.hsLnLoop l) (r.row.merge (d.reg (R.hsLnLoop l))
      (s.dev.withField (F.hsLnLoopMode l) mode))).loopGo l) hs rfl rfl htakes (emberOfs_hs _ (by decide) (by decide)) hr (by simp [hn, RegName.plainWrite])
      (by simp only [R.hsLnLoop, R.pciRxgBaselo, hsBase]; omega) (fun d => by simp only [Dev.writeGo, hn, hport]) fun d t hregs _ _ ht hout => ?_
    have hwritten : (d.setReg (R.hsLnLoop l) (r.row.merge (d.reg (R.hsLnLoop l)) (s.dev.withField (F.hsLnLoopMode l) mode))).get (F.hsLnLoopMode l)
        = mode := by
      refine (Dev.get_setReg_self d (F.hsLnLoopMode l) _ rfl).trans ?_
      rw [RegRow.of_merge_rw hfields loopFields_sound (f := ⟨0, 2, .rw, .nat 0 3⟩) (by simp [loopFields]) (.inl rfl)
        rfl rfl, Dev.withField, Fld.of_put _ _ _ (by simp [F.hsLnLoopMode])]
      exact Nat.mod_eq_of_lt mode.isLt
    have honly : s.dev.Only [R.hsLnLoop l] [] (d.setReg (R.hsLnLoop l) (r.row.merge (d.reg (R.hsLnLoop l)) (s.dev.withField (F.hsLnLoopMode l) mode))) :=
      ((Dev.Only.refl _ _ s.dev).congr hregs).setReg _ (by simp)
    have hcheck : mode.val = 3 → s.dev.stage l = 5 := by
      intro h3
      have hcode := Dev.chapterCode_of_writeCode (htakes.code hr)
      simp only [Dev.chapterCode, hn, hport, Dev.loopCheck, Dev.withField, Fld.of_put _ _ _ (by simp [F.hsLnLoopMode] : (F.hsLnLoopMode l).lsb
        + (F.hsLnLoopMode l).width ≤ 32), h3] at hcode
      simpa [F.hsLnLoopMode] using hcode
    generalize d.setReg (R.hsLnLoop l) (r.row.merge (d.reg (R.hsLnLoop l)) (s.dev.withField (F.hsLnLoopMode l) mode)) = e at *
    obtain ⟨hmode, hstage, hfell⟩ := Dev.loopGo_shows l.isLt honly hon (fun h => hcheck (hwritten ▸ h)) (hwritten ▸ mode.isLt)
    have hget : ∀ f, t.dev.get f = (e.loopGo l).get f := fun f => Dev.get_congr ht.symm f
    refine ⟨by rw [hout]; rfl, ?_, ?_, fun p hp => ?_⟩
    · rw [hget, hmode, hwritten]
    · rw [Dev.stage, hget, ← Dev.stage, hstage, hwritten]
    · obtain ⟨hup, hcount⟩ := hfell p hp
      refine ⟨?_, fun _ => ?_⟩
      · rw [Dev.linkUp, Dev.flag, hget]; exact hup
      · rw [hget]; exact hcount
  · intro l v
    refine State.of_sent ?_ fun _ h => h
    intro s hs htakes hon
    obtain ⟨r, hr, hn, hport, hfields⟩ := decodeAddr_hsLnPrbs l
    refine State.laneWrite_takes (a := R.hsLnPrbs l) (u := fun _ => v) (g := fun d => (d.setReg (R.hsLnPrbs l) (r.row.merge (d.reg (R.hsLnPrbs l))
      v)).prbsGo l (d.reg (R.hsLnPrbs l))) hs rfl rfl htakes (emberOfs_hs _ (by decide) (by decide)) hr (by simp [hn, RegName.plainWrite])
      (by simp only [R.hsLnPrbs, R.pciRxgBaselo, hsBase]; omega) (fun d => by simp only [Dev.writeGo, hn, hport]) fun d t hregs hout0 _ ht hout => ?_
    have hwritten := d.prbsWritten (l := l) hfields v
    have hold : d.reg (R.hsLnPrbs l) = s.dev.reg (R.hsLnPrbs l) := Dev.reg_congr hregs _
    have houts : (d.setReg (R.hsLnPrbs l) (r.row.merge (d.reg (R.hsLnPrbs l)) v)).out = [] := hout0
    generalize d.setReg (R.hsLnPrbs l) (r.row.merge (d.reg (R.hsLnPrbs l)) v) = e at *
    obtain ⟨honly, hpat, hgen, hchk⟩ := hwritten
    obtain ⟨fresh, hgo⟩ := Dev.prbsGo_on (d := e) (l := l) (old := d.reg (R.hsLnPrbs l)) (by rw [hgen, hchk]; exact hon)
    rw [hgo] at ht hout
    have hget : ∀ f, t.dev.get f = ((e.prbsStart l (prbsSent l (e.reg (R.hsLnPrbs l)) != prbsSent l (d.reg (R.hsLnPrbs l))) fresh
        (prbsSent l (e.reg (R.hsLnPrbs l)))).laneLinkDown l).get f := fun f => Dev.get_congr ht.symm f
    have hall := ((Dev.Only.refl [R.hsLnPrbs l] [] s.dev).congr hregs).trans (honly.trans (e.prbsStart_only l (prbsSent l (e.reg (R.hsLnPrbs l))
      != prbsSent l (d.reg (R.hsLnPrbs l))) fresh (prbsSent l (e.reg (R.hsLnPrbs l)))))
    have hfield : ∀ f : Fld, f.addr = R.hsLnPrbs l → f.fits → (F.hsLnPrbsLock l).apart f → t.dev.get f = e.get f := by
      intro f ha hf hapart
      rw [hget, Dev.get_laneLinkDown _ _ (by rw [ha]; simp only [R.hsLnPrbs]; omega) (by rw [ha]; simp only [R.hsLnPrbs]; omega),
        Dev.prbsStart_kept _ _ _ _ _ hf hapart]
    refine ⟨by rw [hout]; rfl, fun h0 h1 hp => ?_, ?_, ?_, ?_, ?_, fun p hp => ?_⟩
    · have hsent : prbsSent l (e.reg (R.hsLnPrbs l)) = (F.hsLnPrbsPat l).of v := by
        have hgen' : (F.hsLnPrbsGen l).of (e.reg (R.hsLnPrbs l)) = 1 := hgen.trans h1
        have hpat' : (F.hsLnPrbsPat l).of (e.reg (R.hsLnPrbs l)) = (F.hsLnPrbsPat l).of v := hpat
        simp only [prbsSent, hgen', if_true, hpat']
      have hnone : prbsSent l (d.reg (R.hsLnPrbs l)) = 0 := by
        have h0' : (F.hsLnPrbsGen l).of (d.reg (R.hsLnPrbs l)) = 0 := by rw [hold]; exact h0
        simp [prbsSent, h0']
      have hsend : (prbsSent l (e.reg (R.hsLnPrbs l)) != prbsSent l (d.reg (R.hsLnPrbs l))) = true := by
        rw [hsent, hnone]
        simpa using hp
      rw [hout, hsend, hsent]
      refine List.mem_append_left _ (List.mem_cons_of_mem _ ((Dev.laneLinkDown_sent _ _).mem ?_))
      exact e.prbsStart_sends l fresh _
    · rw [hfield _ rfl (by simp [Fld.fits, F.hsLnPrbsPat]) (by simp [Fld.apart, F.hsLnPrbsPat, F.hsLnPrbsLock]), hpat]
    · rw [hfield _ rfl (by simp [Fld.fits, F.hsLnPrbsGen]) (by simp [Fld.apart, F.hsLnPrbsGen, F.hsLnPrbsLock]), hgen]
    · rw [hfield _ rfl (by simp [Fld.fits, F.hsLnPrbsChk]) (by simp [Fld.apart, F.hsLnPrbsChk, F.hsLnPrbsLock]), hchk]
    · rw [Dev.stage, hget, laneLinkDown_statKept _ _ rfl]
      refine hall.get_eq ?_ ?_ (by simp)
      · simp only [F.hsLnStatStage, R.hsLnStat, R.hsLnPrbs, List.mem_singleton]; omega
      · simp only [F.hsLnStatStage, R.hsLnStat, hsBase]; omega
    · obtain ⟨hup, hcount⟩ := (hall.portView (by simp only [List.mem_singleton, forall_eq, R.hsLnPrbs, hsBase]; omega) (by simp)).laneLinkDown l p hp
      refine ⟨?_, fun _ => ?_⟩
      · rw [Dev.linkUp, Dev.flag, hget]; exact hup
      · rw [hget]; exact hcount
  · intro l v
    refine State.of_sent ?_ fun _ h => h
    intro s hs htakes hgen0 hchk0 hwas hmode hon
    obtain ⟨r, hr, hn, hport, hfields⟩ := decodeAddr_hsLnPrbs l
    refine State.laneWrite_takes (a := R.hsLnPrbs l) (u := fun _ => v) (g := fun d => (d.setReg (R.hsLnPrbs l) (r.row.merge (d.reg (R.hsLnPrbs l))
      v)).prbsGo l (d.reg (R.hsLnPrbs l))) hs rfl rfl htakes (emberOfs_hs _ (by decide) (by decide)) hr (by simp [hn, RegName.plainWrite])
      (by simp only [R.hsLnPrbs, R.pciRxgBaselo, hsBase]; omega) (fun d => by simp only [Dev.writeGo, hn, hport]) fun d t hregs hout0 _ ht hout => ?_
    have hwritten := d.prbsWritten (l := l) hfields v
    have hold : d.reg (R.hsLnPrbs l) = s.dev.reg (R.hsLnPrbs l) := Dev.reg_congr hregs _
    generalize d.setReg (R.hsLnPrbs l) (r.row.merge (d.reg (R.hsLnPrbs l)) v) = e at *
    obtain ⟨honly, hpat, hgen, hchk⟩ := hwritten
    obtain ⟨send, hgo⟩ := Dev.prbsGo_off (d := e) (l := l) (old := d.reg (R.hsLnPrbs l)) (hgen.trans hgen0) (hchk.trans hchk0)
      (by rw [hold]; exact hwas)
    rw [hgo] at ht hout
    have hall := ((Dev.Only.refl [R.hsLnPrbs l] [] s.dev).congr hregs).trans (honly.trans (e.prbsStart_only l send true 0))
    have hlock := e.prbsStart_lock l send 0
    generalize e.prbsStart l send true 0 = k at hall hlock ht hout
    have hon' : k.laneOn l = true :=
      (hall.laneOn l.isLt (by simp only [List.mem_singleton, forall_eq, R.hsLnPrbs, hsBase]; omega) (by simp)).trans hon
    have hmode' : k.get (F.hsLnLoopMode l) = 0 := by
      refine (hall.get_eq ?_ ?_ (by simp)).trans hmode
      · simp only [F.hsLnLoopMode, R.hsLnLoop, R.hsLnPrbs, List.mem_singleton]; omega
      · simp only [F.hsLnLoopMode, R.hsLnLoop, hsBase]; omega
    obtain ⟨hstage, -, hstart⟩ := k.laneStart_shows l
    have hget : ∀ f, t.dev.get f = (k.laneBack l).get f := fun f => Dev.get_congr ht.symm f
    refine ⟨by rw [hout]; rfl, ?_, ?_⟩
    · rw [hget, Dev.laneBack, Dev.get_laneLinkDown _ _ (by simp only [F.hsLnPrbsLock, R.hsLnPrbs]; omega)
        (by simp only [F.hsLnPrbsLock, R.hsLnPrbs]; omega)]
      refine (hstart.get_eq ?_ ?_ (by simp)).trans hlock
      · simp only [F.hsLnPrbsLock, R.hsLnPrbs, stageRegs, R.hsLnStat, R.hsLngSum0, R.hsLngSum1, hsBase, List.mem_cons, List.not_mem_nil, or_false]
        omega
      · simp only [F.hsLnPrbsLock, R.hsLnPrbs, hsBase]; omega
    · rw [Dev.stage, hget, Dev.laneBack, laneLinkDown_statKept _ _ rfl, ← Dev.stage, hstage, hon', hmode']
      rfl
  · intro l
    refine State.of_sent ?_ fun _ h => h
    intro s hs hchk
    simp only [exec, execPrbsCheckerLock]
    refine State.run_ends hs rfl fun t ht _ _ => ?_
    cases hlock : s.dev.flag (F.hsLnPrbsLock l)
    · have hon : s.dev.flag (F.hsLnPrbsChk l) = true := by simp [Dev.flag, hchk]
      simp only [hon, hlock, Bool.not_false, Bool.and_self, Dev.when_true] at ht
      refine ⟨?_, ht.only.2 (((Dev.Only.refl _ _ s.dev).set _ _ (by simp [F.hsLnPrbsLock])).congr (Dev.setLane_keeps _ _ _).1)⟩
      rw [ht.get, Dev.get_setLane, Dev.get_set_lt _ _ (by simp [Fld.fits, F.hsLnPrbsLock]) (by simp [F.hsLnPrbsLock])]
    · have hone : s.dev.get (F.hsLnPrbsLock l) = 1 := by
        have hlt : s.dev.get (F.hsLnPrbsLock l) < 2 ^ 1 := Nat.mod_lt _ (Nat.two_pow_pos 1)
        simp only [Dev.flag, bne_iff_ne, ne_eq] at hlock
        omega
      simp only [hlock, Bool.not_true, Bool.and_false, Dev.when_false] at ht
      exact ⟨(ht.get _).trans hone, ht.only.2 (Dev.Only.refl _ _ _)⟩
  · intro l errors
    refine State.of_sent ?_ fun _ h => h
    intro s hs hchk hlock herr
    simp only [exec, execLnPrbsErr]
    refine State.run_ends hs rfl fun t ht _ _ => ?_
    have hgo : (s.dev.flag (F.hsLnPrbsChk l) && s.dev.flag (F.hsLnPrbsLock l) && errors != 0) = true := by simp [Dev.flag, hchk, hlock, herr]
    simp only [hgo, Dev.when_true] at ht
    have hcount : s.dev.Only [R.hsLnPrbs l, R.hsLngSum0 (l / 48), R.hsLngSum1 (l / 48)] [] (s.dev.count (F.hsLnPrbsErr l) errors) :=
      (Dev.Only.refl _ _ s.dev).count _ _ (by simp [F.hsLnPrbsErr])
    have herrs : (s.dev.count (F.hsLnPrbsErr l) errors).get (F.hsLnPrbsErr l) = satAdd 16 (s.dev.get (F.hsLnPrbsErr l)) errors :=
      Dev.get_count_self _ _ _ (by simp [Fld.fits, F.hsLnPrbsErr])
    generalize s.dev.count (F.hsLnPrbsErr l) errors = e at ht hcount herrs
    have hraised := hcount.raised_laneEvent (n := 0xBF) l [R.hsLnPrbs l] (by decide) (by decide) (by
      simp only [R.hrtEvtSrcCtl, R.hsLnPrbs, R.hsLngSum0, R.hsLngSum1, hsBase, List.mem_cons, List.not_mem_nil, or_false]; omega)
    refine ⟨?_, fun hfirst => ?_, ht.only.2 (Dev.Only.congr ?_ (Dev.setLane_keeps _ _ _).1)⟩
    · rw [ht.get, Dev.get_setLane]
      cases (s.dev.lane l).prbsErr
      · rw [Bool.not_false, Dev.when_true, Dev.get_laneEvent _ _ _ _ (k := l) (by simp only [F.hsLnPrbsErr, R.hsLnPrbs]; omega)
          (by simp only [F.hsLnPrbsErr, R.hsLnPrbs]; omega) (by decide), herrs]
      · rw [Bool.not_true, Dev.when_false, herrs]
    · rw [ht.raised, hfirst, Bool.not_false, Dev.when_true]
      exact hraised
    · exact (hcount.mono (fun _ h => h) (by simp)).when _ _ fun _ =>
        (hcount.mono (fun _ h => h) (by simp)).trans ((e.laneEvent_marks l 0xBF _).only.mono (by simp) (by simp))
  · intro l height width snr
    refine State.of_sent ?_ fun _ h => h
    intro s hs h3 h5
    simp only [exec, execEyeMeasure]
    refine State.run_ends hs rfl fun t ht _ _ => ?_
    rw [if_neg (by omega), if_neg (by omega)] at ht
    have heye := s.dev.eyeShown l (min height 255) (min width 255) (min snr 640)
    generalize hlow : (s.dev.stage l == 5 && decide (min height 255 < s.dev.get (F.hsLnEyethrHmin l))) = low at ht
    generalize ((s.dev.set (F.hsLnEyeEyeh l) (min height 255)).set (F.hsLnEyeEyew l) (min width 255)).set (F.hsLnEyeSnr l) (min snr 640) = e
      at ht heye
    obtain ⟨hlane, hheight, hwidth, hsnr, hset⟩ := heye
    have hset' : s.dev.Only [R.hsLnEye l, R.hsLngSum0 (l / 48), R.hsLngSum1 (l / 48)] [] (e.setLane l fun x => { x with
        eyeLow := low, eyes := if s.dev.stage l = 3 then (min height 255 :: x.eyes).take 4 else x.eyes }) :=
      (hset.mono (by simp) (by simp)).congr (Dev.setLane_keeps _ _ _).1
    have heyes : ((e.setLane l fun x => { x with
        eyeLow := low, eyes := if s.dev.stage l = 3 then (min height 255 :: x.eyes).take 4 else x.eyes }).lane l).eyes
        = if s.dev.stage l = 3 then (min height 255 :: (s.dev.lane l).eyes).take 4 else (s.dev.lane l).eyes := by
      rw [Dev.lane_setLane_self, hlane]
    have hget : ∀ f, (e.setLane l fun x => { x with
        eyeLow := low, eyes := if s.dev.stage l = 3 then (min height 255 :: x.eyes).take 4 else x.eyes }).get f = e.get f := Dev.get_setLane e l _
    generalize (e.setLane l fun x => { x with
        eyeLow := low, eyes := if s.dev.stage l = 3 then (min height 255 :: x.eyes).take 4 else x.eyes }) = k at ht hset' heyes hget
    have hraised := hset'.raised_laneEvent (n := 0xBC) l [R.hsLnEye l] (by decide) (by decide) (by
      simp only [R.hrtEvtSrcCtl, R.hsLnEye, R.hsLngSum0, R.hsLngSum1, hsBase, List.mem_cons, List.not_mem_nil, or_false]; omega)
    have hkept : ∀ f : Fld, f.addr = R.hsLnEye l → t.dev.get f = e.get f := by
      intro f hf
      rw [ht.get, ← hget]
      cases low && !(s.dev.lane l).eyeLow
      · rw [Dev.when_false]
      · rw [Dev.when_true, Dev.get_laneEvent _ _ _ _ (k := l) (by rw [hf]; simp only [R.hsLnEye]; omega)
          (by rw [hf]; simp only [R.hsLnEye]; omega) (by decide)]
    refine ⟨(hkept _ rfl).trans (hheight.trans (Nat.mod_eq_of_lt (by omega))), (hkept _ rfl).trans (hwidth.trans (Nat.mod_eq_of_lt (by omega))),
      (hkept _ rfl).trans (hsnr.trans (Nat.mod_eq_of_lt (by omega))), fun hst => ?_, fun hst hmin hold => ?_, ht.only.2 ?_⟩
    · rw [ht.lane]
      rw [if_pos hst] at heyes
      cases low && !(s.dev.lane l).eyeLow
      · exact heyes
      · rw [Dev.when_true, Dev.lane, Dev.laneEvent_lanes]
        exact heyes
    · have hnow : low = true := by rw [← hlow]; simp [hst, hmin]
      rw [ht.raised, hnow, hold, Bool.not_false, Bool.and_self, Dev.when_true]
      exact hraised
    · exact (hset'.mono (fun _ h => h) (by simp)).when _ _ fun _ =>
        (hset'.mono (fun _ h => h) (by simp)).trans ((k.laneEvent_marks l 0xBC _).only.mono (by simp) (by simp))
  · intro l p
    refine State.of_sent ?_ fun _ h => h
    intro s hs h5 hp
    simp only [exec, execLnFecUncorr]
    refine State.run_ends hs rfl fun t ht _ _ => ?_
    simp only [h5, beq_self_eq_true, Dev.when_true, hp] at ht
    have hcount : s.dev.Only [R.hsLnFecuc p, R.hsLngSum0 (p / 48), R.hsLngSum1 (p / 48)] [] (s.dev.count (F.hsLnFecucCount p) 1) :=
      (Dev.Only.refl _ _ s.dev).count _ _ (by simp [F.hsLnFecucCount])
    have hcnt : (s.dev.count (F.hsLnFecucCount p) 1).get (F.hsLnFecucCount p) = satAdd 32 (s.dev.get (F.hsLnFecucCount p)) 1 :=
      Dev.get_count_self _ _ _ (by simp [Fld.fits, F.hsLnFecucCount])
    generalize s.dev.count (F.hsLnFecucCount p) 1 = e at ht hcount hcnt
    refine ⟨?_, ht.raised.2 (hcount.raised_laneEvent (n := 0xBD) p [R.hsLnFecuc p] (by decide) (by decide) ?_), fun hlt => ?_, ht.only.2 ?_⟩
    · rw [ht.get, Dev.get_laneEvent _ _ _ _ (k := p) (by simp only [F.hsLnFecucCount, R.hsLnFecuc]; omega)
        (by simp only [F.hsLnFecucCount, R.hsLnFecuc]; omega) (by decide), hcnt]
    · simp only [R.hrtEvtSrcCtl, R.hsLnFecuc, R.hsLngSum0, R.hsLngSum1, hsBase, List.mem_cons, List.not_mem_nil, or_false]; omega
    · rw [ht.get]
      exact e.laneEvent_summary 0xBD _ hlt
    · exact (hcount.mono (fun _ h => h) (by simp)).trans ((e.laneEvent_marks p 0xBD _).only.mono (by simp) (by simp))
  · intro l corrections codewords
    refine State.of_sent ?_ fun _ h => h
    intro s hs h5
    simp only [exec, execLaneFecSecond]
    refine State.run_ends hs rfl fun t ht _ _ => ?_
    simp only [h5, ne_eq, not_true_eq_false, if_false] at ht
    obtain ⟨hsym, hcw, hset⟩ := s.dev.fecCounted l corrections codewords
    generalize (s.dev.count (F.hsLnFecsymCount l) corrections).when (s.dev.firstLane l == l.val) (fun d => d.count (F.hsLnFeccwCount l) codewords) = e
      at ht hsym hcw hset
    have hset' : s.dev.Only [R.hsLnFecsym l, R.hsLnFeccw l, R.hsLngSum0 (l / 48), R.hsLngSum1 (l / 48)] [] (e.setLane l fun x => { x with
        secSym := corrections, sd := decide (s.dev.get (F.hsLnEyethrSdthr l) * 64 < corrections) }) :=
      (hset.mono (by simp) (by simp)).congr (Dev.setLane_keeps _ _ _).1
    have hget : ∀ f, (e.setLane l fun x => { x with
        secSym := corrections, sd := decide (s.dev.get (F.hsLnEyethrSdthr l) * 64 < corrections) }).get f = e.get f := Dev.get_setLane e l _
    generalize (e.setLane l fun x => { x with
        secSym := corrections, sd := decide (s.dev.get (F.hsLnEyethrSdthr l) * 64 < corrections) }) = k at ht hset' hget
    have hkept : ∀ f : Fld, f.addr = R.hsLnFecsym l ∨ f.addr = R.hsLnFeccw l → t.dev.get f = e.get f := by
      intro f hf
      rw [ht.get, ← hget]
      cases decide (s.dev.get (F.hsLnEyethrSdthr l) * 64 < corrections) && !(s.dev.lane l).sd
      · rw [Dev.when_false]
      · rw [Dev.when_true, Dev.get_laneEvent _ _ _ _ (k := l) (by rcases hf with h | h <;> rw [h] <;> simp only [R.hsLnFecsym, R.hsLnFeccw] <;> omega)
          (by rcases hf with h | h <;> rw [h] <;> simp only [R.hsLnFecsym, R.hsLnFeccw] <;> omega) (by decide)]
    refine ⟨(hkept _ (.inl rfl)).trans hsym, (hkept _ (.inr rfl)).trans hcw, fun hhigh hold => ?_, ht.only.2 ?_⟩
    · rw [ht.raised, decide_eq_true hhigh, hold, Bool.not_false, Bool.and_self, Dev.when_true]
      refine hset'.raised_laneEvent (n := 0xBE) l [R.hsLnFecsym l] (by decide) (by decide) ?_
      simp only [R.hrtEvtSrcCtl, R.hsLnFecsym, R.hsLnFeccw, R.hsLngSum0, R.hsLngSum1, hsBase, List.mem_cons, List.not_mem_nil, or_false]
      omega
    · exact (hset'.mono (fun _ h => h) (by simp)).when _ _ fun _ =>
        (hset'.mono (fun _ h => h) (by simp)).trans ((k.laneEvent_marks l 0xBE _).only.mono (by simp) (by simp))
  · intro l bits s h5 heven hsame
    refine ⟨Dev.laneReceives_laneSends h5 heven hsame, fun hpam hpre => ?_⟩
    have h5' : s.dev.get (F.hsLnStatStage l) = 5 := h5
    simp [Dev.laneSends, h5', hpam, Dev.flag, hpre]

end Sys2Proof.Machine
end

section
/-!
PROOFS. The activation of a terminal (R142 to R150): its state, its silence and its timers.
-/

namespace Sys2Proof.Machine

set_option Elab.async false

/-! ### What of a wavelength stands -/

theorem Dev.wave_setWave_ne (d : Dev) {w k : Nat} (f : Wave → Wave) (h : k ≠ w) : (d.setWave w f).wave k = d.wave k := Tbl.get_modify_ne _ _ _ _ h

/-- What a change of a wavelength leaves of every wavelength. -/
theorem Dev.setWave_view {α : Type} {p : Wave → α} (d : Dev) (w k : Nat) (f : Wave → Wave) (h : ∀ v, p (f v) = p v) :
    p ((d.setWave w f).wave k) = p (d.wave k) := by
  by_cases hk : k = w
  · rw [hk, Dev.wave_setWave_self, h]
  · rw [Dev.wave_setWave_ne _ _ hk]

/-! ### The transmit states of the engines (R87, R88) -/

section
variable {α : Type} {p : Wave → α} (hp : ∀ v r, p { v with ramp := r } = p v)
include hp

theorem Dev.rampNext_view (d : Dev) (w k : Nat) : p ((d.rampNext w).wave k) = p (d.wave k) := by
  unfold Dev.rampNext
  cases d.serving w with
  | none => exact Dev.setWave_view _ _ _ _ fun v => hp v _
  | some e =>
    dsimp only
    split
    · rfl
    · split
      · exact Dev.setWave_view _ _ _ _ fun v => hp v _
      · cases d.get (F.leTxcStatState e) == 0 || d.get (F.leTxcStatState e) == 3
        · rfl
        · exact Dev.setWave_view _ _ _ _ fun v => hp v _

/-- A refresh changes no more of a wavelength than its ramp. -/
theorem Dev.txRefresh_view (d : Dev) (k : Nat) : p (d.txRefresh.wave k) = p (d.wave k) := by
  refine (Dev.each_keeps (P := fun e => p (e.wave k) = p (((d.rampNext 0).rampNext 1).wave k)) _ _ (fun e x _ he => ?_) _ rfl).trans
    ((Dev.rampNext_view hp _ _ _).trans (Dev.rampNext_view hp _ _ _))
  cases e.cordOn (1 + x)
  · exact he
  · rw [Dev.when_true, ← he]
    simp

end

theorem Dev.rampNext_regs (d : Dev) (w : Nat) : (d.rampNext w).regs = d.regs := by
  unfold Dev.rampNext
  cases d.serving w with
  | none => exact (Dev.setWave_keeps _ _ _).1
  | some e =>
    dsimp only
    split
    · rfl
    · split
      · exact (Dev.setWave_keeps _ _ _).1
      · cases d.get (F.leTxcStatState e) == 0 || d.get (F.leTxcStatState e) == 3
        · rfl
        · exact (Dev.setWave_keeps _ _ _).1

/-- The output states of the engines. -/
def txRegs : List Nat := [R.leTxcStat 0, R.leTxcStat 1, R.leTxcStat 2]

theorem Dev.txRefresh_only (d : Dev) : d.Only txRegs [] d.txRefresh := by
  refine Dev.Only.each ((Dev.Only.refl _ _ d).congr ((Dev.rampNext_regs _ _).trans (Dev.rampNext_regs _ _))) _ _ fun e x hx => ?_
  refine (Dev.Only.refl _ _ e).when _ _ fun _ => (Dev.Only.refl _ _ e).set _ _ ?_
  simp only [List.mem_cons, List.not_mem_nil, or_false] at hx
  rcases hx with rfl | rfl | rfl <;> simp [txRegs, F.leTxcStatState]

theorem txRegs_range {a : Nat} (h : a ∈ txRegs) : 0x1400000 ≤ a ∧ a < 0x4000000 := by
  simp only [txRegs, R.leTxcStat, List.mem_cons, List.not_mem_nil, or_false] at h
  omega

/-- A register of a framer stands through changes of the engines' output states. -/
theorem Dev.Only.txRegs_get {d e : Dev} (h : d.Only txRegs [] e) {f : Fld} (hf : 0x4000000 ≤ f.addr) : e.get f = d.get f :=
  h.get_eq (fun hm => by have := txRegs_range hm; omega) (by omega) (by simp)

theorem Dev.Raised.txRegs {d e f : Dev} {n : Nat} (h : d.Raised n e) (ho : e.Only txRegs [] f) (hn : n < 0x100) : d.Raised n f :=
  h.only ho (by simp) fun hm => by
    have := txRegs_range hm
    simp only [R.hrtEvtSrcCtl] at this
    omega

/-! ### The activation state (R142) -/

/-- A field of ACT_STAT apart from STATE, and every field of another register of the framer, stands through a change of state. -/
theorem Dev.setAct_get (d : Dev) (w st : Nat) {f : Fld} (hf : 0x81000 ≤ f.addr) (hfit : f.fits) (h : (F.lfActStatState w).apart f) :
    (d.setAct w st).get f = d.get f := by
  unfold Dev.setAct
  split
  · rfl
  · unfold Dev.sfEvent
    rw [Dev.get_raise _ _ _ (.inr hf), Dev.get_congr (Dev.askDecode_regs _ _ _), Dev.get_setWave, Dev.get_set_apart _ _ _ _ hfit h]

/-- A change to a state, or the state it is in already. -/
theorem Dev.setAct_state (d : Dev) {w st : Nat} (hw : w < 2) (hst : st < 8) :
    (d.setAct w st).get (F.lfActStatState w) = st ∧ d.Only [R.lfActStat w] [0x70 + w] (d.setAct w st) := by
  by_cases h : d.get (F.lfActStatState w) = st
  · have hsame : d.setAct w st = d := if_pos h
    rw [hsame]
    exact ⟨h, Dev.Only.refl _ _ d⟩
  · obtain ⟨hstate, -, honly⟩ := Dev.setAct_enters hw hst h
    exact ⟨hstate, honly⟩

theorem Dev.askDecode_view {α : Type} {p : Wave → α} (hp : ∀ v m, p { v with decode := m } = p v) (d : Dev) (w m k : Nat) :
    p ((d.askDecode w m).wave k) = p (d.wave k) :=
  (Dev.each_keeps (P := fun e => p (e.wave k) = p ((d.setWave w fun v => { v with decode := m }).wave k)) _ _
    (fun e x _ he => by rw [← he]; simp) _ rfl).trans (Dev.setWave_view _ _ _ _ fun v => hp v m)

/-- A change of state changes no more of a wavelength than its decode set and its ANNOUNCE. -/
theorem Dev.setAct_view {α : Type} {p : Wave → α} (hm : ∀ v m, p { v with decode := m } = p v) (ha : ∀ v b, p { v with announced := b } = p v)
    (d : Dev) (w st k : Nat) : p ((d.setAct w st).wave k) = p (d.wave k) := by
  unfold Dev.setAct
  split
  · rfl
  · unfold Dev.sfEvent
    rw [Dev.wave, (Dev.raise_quiet _ _ _).waves, ← Dev.wave, Dev.askDecode_view hm]
    refine (Dev.setWave_view _ _ _ _ fun v => ha v _).trans ?_
    simp

/-! ### What was granted -/

theorem Dev.dropTid_only (d : Dev) (w : Nat) : d.Only [R.lfActId w] [] (d.dropTid w) :=
  ((Dev.Only.refl _ _ d).set _ _ (by simp [F.lfActIdTid])).congr (Dev.setWave_keeps _ _ _).1

theorem Dev.dropTid_shows (d : Dev) (w : Nat) : (d.dropTid w).get (F.lfActIdTid w) = 0
    ∧ (d.dropTid w).wave w = { d.wave w with grants := [], ctrlQ := [], eqds := [], eqd0 := 0, announced := false, skip := 0 } := by
  unfold Dev.dropTid
  refine ⟨?_, ?_⟩
  · rw [Dev.get_setWave, Dev.get_set_lt _ _ (by simp [Fld.fits, F.lfActIdTid]) (by simp [F.lfActIdTid])]
  · simp

theorem Dev.cutBursts_uncounted (d : Dev) (w : Nat) : d.Only txRegs [] (d.cutBursts w false)
    ∧ ((d.cutBursts w false).wave w).burstsOn = [] ∧ ((d.cutBursts w false).wave w).grants = (d.wave w).grants
    ∧ ((d.cutBursts w false).wave w).relReason = (d.wave w).relReason := by
  unfold Dev.cutBursts
  simp only [Dev.when_false]
  refine ⟨((Dev.Only.refl _ _ d).congr (Dev.setWave_keeps _ _ _).1).trans (Dev.txRefresh_only _), ?_, ?_, ?_⟩
  · rw [Dev.txRefresh_view (p := Wave.burstsOn) fun _ _ => rfl]
    simp
  · rw [Dev.txRefresh_view (p := Wave.grants) fun _ _ => rfl]
    simp
  · rw [Dev.txRefresh_view (p := Wave.relReason) fun _ _ => rfl]
    simp

/-! ### Events of the shared fibre -/

/-- The event of a condition, behind changes that do not touch its source. -/
theorem Dev.Only.sfEvent {d e : Dev} {regs evs : List Nat} (h : d.Only regs evs e) {w c : Nat} (hw : w < 2) (hc : c < 16) (hn : 0x70 + 2 * c + w ∉ evs)
    (hr : ∀ a ∈ regs, 0x81000 ≤ a) (l : List Nat) :
    d.Raised (0x70 + 2 * c + w) (e.sfEvent w c l) ∧ d.Only regs ((0x70 + 2 * c + w) :: evs) (e.sfEvent w c l) := by
  unfold Dev.sfEvent
  refine ⟨h.raised_raise l hn (fun hm => ?_) (neverRaised_sharedFibre (by omega) (by omega)), ?_⟩
  · have := hr _ hm
    simp only [R.hrtEvtSrcCtl] at this
    omega
  · exact (h.mono (fun _ h => h) (fun _ h => List.mem_cons_of_mem _ h)).raise _ _ List.mem_cons_self

theorem Dev.get_sfEvent (d : Dev) (w c : Nat) (l : List Nat) {f : Fld} (hf : 0x81000 ≤ f.addr) : (d.sfEvent w c l).get f = d.get f :=
  Dev.get_raise _ _ _ (.inr hf)

theorem Dev.wave_sfEvent (d : Dev) (w c : Nat) (l : List Nat) (k : Nat) : (d.sfEvent w c l).wave k = d.wave k := by
  simp only [Dev.sfEvent, Dev.wave, (Dev.raise_quiet _ _ _).waves]

/-- The registers of an activation. -/
theorem actRegs_range {w a : Nat} (h : a ∈ [R.lfActStat w, R.lfActId w]) : 0x6000000 ≤ a := by
  simp only [R.lfActStat, R.lfActId, List.mem_cons, List.not_mem_nil, or_false] at h
  omega

/-! ### Silence (R149) -/

/-- A terminal that falls silent: where it was stands in RET, and its bursts are cut. -/
theorem Dev.enterSilence_shows {d : Dev} {w : Nat} (hw : w < 2) :
    (d.enterSilence w).get (F.lfActStatState w) = 5
      ∧ (d.get (F.lfActStatState w) ≠ 5 → (d.enterSilence w).get (F.lfActStatRet w) = d.get (F.lfActStatState w))
      ∧ (∀ f : Fld, f.addr = R.lfActStat w → f.fits → (F.lfActStatState w).apart f → (F.lfActStatRet w).apart f → (d.enterSilence w).get f = d.get f)
      ∧ ((d.enterSilence w).wave w).burstsOn = [] ∧ d.Only (R.lfActStat w :: txRegs) [0x70 + w] (d.enterSilence w) := by
  unfold Dev.enterSilence
  dsimp only
  have hstat : ∀ f : Fld, f.addr = R.lfActStat w → 0x4000000 ≤ f.addr ∧ 0x81000 ≤ f.addr := fun f hf => by
    rw [hf]; simp only [R.lfActStat]; omega
  by_cases h : d.get (F.lfActStatState w) = 5
  · rw [if_pos h]
    obtain ⟨hcut, hbursts, -⟩ := d.cutBursts_uncounted w
    refine ⟨?_, fun hne => absurd h hne, fun f hf _ _ _ => hcut.txRegs_get (hstat f hf).1, hbursts, hcut.mono (fun _ h => List.mem_cons_of_mem _ h) (by simp)⟩
    exact (hcut.txRegs_get (hstat _ rfl).1).trans h
  · rw [if_neg h]
    have hst := d.get_lt (F.lfActStatState w)
    have hret : d.Only [R.lfActStat w] [0x70 + w] (d.set (F.lfActStatRet w) (d.get (F.lfActStatState w))) :=
      (Dev.Only.refl _ _ d).set _ _ (by simp [F.lfActStatRet])
    have hkept : ∀ f : Fld, f.addr = R.lfActStat w → f.fits → (F.lfActStatRet w).apart f →
        (d.set (F.lfActStatRet w) (d.get (F.lfActStatState w))).get f = d.get f := fun f _ hfit hap => Dev.get_set_apart _ _ _ _ hfit hap
    have hself : (d.set (F.lfActStatRet w) (d.get (F.lfActStatState w))).get (F.lfActStatRet w) = d.get (F.lfActStatState w) :=
      Dev.get_set_lt _ _ (by simp [Fld.fits, F.lfActStatRet]) hst
    generalize d.set (F.lfActStatRet w) (d.get (F.lfActStatState w)) = e at hret hkept hself
    obtain ⟨hstate, honly⟩ := e.setAct_state hw (by decide : 5 < 8)
    have hget := fun (f : Fld) (hf : f.addr = R.lfActStat w) (hfit : f.fits) (hap : (F.lfActStatState w).apart f) =>
      e.setAct_get w 5 (hstat f hf).2 hfit hap
    generalize e.setAct w 5 = k at hstate honly hget
    obtain ⟨hcut, hbursts, -⟩ := k.cutBursts_uncounted w
    refine ⟨(hcut.txRegs_get (hstat _ rfl).1).trans hstate, fun _ => ?_, fun f hf hfit hs hr => ?_, hbursts, ?_⟩
    · rw [hcut.txRegs_get (hstat _ rfl).1, hget _ rfl (by simp [Fld.fits, F.lfActStatRet]) (by simp [Fld.apart, F.lfActStatRet, F.lfActStatState]), hself]
    · rw [hcut.txRegs_get (hstat f hf).1, hget f hf hfit hs, hkept f hf hfit hr]
    · exact ((hret.trans honly).mono (by simp) (fun _ h => h)).trans (hcut.mono (fun _ h => List.mem_cons_of_mem _ h) (by simp))

/-- A silence with no cause left ends in the state of RET (R142). -/
theorem Dev.leaveSilence_ends {d : Dev} {w : Nat} (hw : w < 2) (hst : d.get (F.lfActStatState w) = 5) (hhe : d.get (F.lfActStatSilhe w) = 0)
    (hsp : d.get (F.lfActStatSilsp w) = 0) (hret : d.get (F.lfActStatRet w) ≠ 5) :
    (d.leaveSilence w).get (F.lfActStatState w) = d.get (F.lfActStatRet w) ∧ d.Raised (0x70 + w) (d.leaveSilence w)
      ∧ d.Only [R.lfActStat w] [0x70 + w] (d.leaveSilence w)
      ∧ ∀ f : Fld, f.addr = R.lfActStat w → f.fits → (F.lfActStatState w).apart f → (d.leaveSilence w).get f = d.get f := by
  have hgo : d.leaveSilence w = d.setAct w (d.get (F.lfActStatRet w)) := by simp [Dev.leaveSilence, hst, Dev.flag, hhe, hsp]
  rw [hgo]
  obtain ⟨hstate, hraised, honly⟩ := Dev.setAct_enters (d := d) (st := d.get (F.lfActStatRet w)) hw (d.get_lt (F.lfActStatRet w))
    (by rw [hst]; exact hret.symm)
  exact ⟨hstate, hraised, honly, fun f hf hfit hap => d.setAct_get w _ (by rw [hf]; simp only [R.lfActStat]; omega) hfit hap⟩

/-- DEACT and RELEASE of a terminal with a TID (R150). -/
theorem Dev.deactivate_shows {d : Dev} {w : Nat} (hw : w < 2) (hst : d.get (F.lfActStatState w) = 3 ∨ d.get (F.lfActStatState w) = 4) :
    (d.deactivate w).get (F.lfActStatState w) = 1 ∧ (d.deactivate w).get (F.lfActIdTid w) = 0 ∧ ((d.deactivate w).wave w).grants = []
      ∧ ((d.deactivate w).wave w).burstsOn = [] ∧ ((d.deactivate w).wave w).relReason = (d.wave w).relReason
      ∧ d.Raised (0x70 + w) (d.deactivate w) ∧ d.Only (R.lfActStat w :: R.lfActId w :: txRegs) [0x70 + w] (d.deactivate w) := by
  have hgo : d.deactivate w = ((d.dropTid w).cutBursts w false).setAct w 1 := by
    unfold Dev.deactivate
    rw [if_neg (by omega), if_pos hst]
  rw [hgo]
  have hdrop := d.dropTid_only w
  obtain ⟨htid, hwave⟩ := d.dropTid_shows w
  have hstate0 : (d.dropTid w).get (F.lfActStatState w) = d.get (F.lfActStatState w) :=
    hdrop.get_eq (by simp [F.lfActStatState, R.lfActStat, R.lfActId]) (by simp only [F.lfActStatState, R.lfActStat]; omega) (by simp)
  generalize d.dropTid w = e at hdrop htid hwave hstate0
  obtain ⟨hcut, hbursts, hgrants, hreason⟩ := e.cutBursts_uncounted w
  have hstate1 : (e.cutBursts w false).get (F.lfActStatState w) ≠ 1 := by
    rw [hcut.txRegs_get (by simp only [F.lfActStatState, R.lfActStat]; omega), hstate0]
    omega
  have htid1 : (e.cutBursts w false).get (F.lfActIdTid w) = 0 := (hcut.txRegs_get (by simp only [F.lfActIdTid, R.lfActId]; omega)).trans htid
  have hall : d.Only (R.lfActId w :: txRegs) [] (e.cutBursts w false) :=
    (hdrop.mono (by simp) (by simp)).trans (hcut.mono (fun _ h => List.mem_cons_of_mem _ h) (by simp))
  rw [hwave] at hgrants hreason
  generalize e.cutBursts w false = k at hbursts hgrants hreason hstate1 htid1 hall
  obtain ⟨hstate, hraised, honly⟩ := Dev.setAct_enters hw (by decide : 1 < 8) hstate1
  refine ⟨hstate, ?_, ?_, ?_, ?_, ?_, (hall.mono (fun _ h => List.mem_cons_of_mem _ h) (by simp)).trans (honly.mono (by simp) (fun _ h => h))⟩
  · rw [k.setAct_get w 1 (by simp only [F.lfActIdTid, R.lfActId]; omega) (by simp [Fld.fits, F.lfActIdTid])
      (by simp [Fld.apart, F.lfActIdTid, F.lfActStatState, R.lfActId, R.lfActStat]), htid1]
  · rw [Dev.setAct_view (p := Wave.grants) (fun _ _ => rfl) (fun _ _ => rfl), hgrants]
  · rw [Dev.setAct_view (p := Wave.burstsOn) (fun _ _ => rfl) (fun _ _ => rfl), hbursts]
  · rw [Dev.setAct_view (p := Wave.relReason) (fun _ _ => rfl) (fun _ _ => rfl), hreason]
  · refine hraised.of_ctl (hall _ (fun hm => ?_) (by simp)).symm rfl
    rcases List.mem_cons.1 hm with h | h
    · simp only [R.hrtEvtSrcCtl, R.lfActId] at h; omega
    · have := txRegs_range h
      simp only [R.hrtEvtSrcCtl] at this
      omega

/-! ### The host's RESUME and DEACT (R149, R150) -/

/-- The fields of LFx_ACT_CTL. -/
def actCtlFields : List FieldRow := [⟨0, 1, .wo, .any⟩, ⟨1, 1, .wo, .any⟩]

theorem actCtlFields_sound : FieldRow.sound actCtlFields := by simp [FieldRow.sound, FieldRow.clear, actCtlFields]

theorem decodeAddr_lfActCtl (w : Fin 2) :
    ∃ r, decodeAddr (R.lfActCtl w) = some r ∧ r.row.name = .lfActCtl ∧ r.ci = w ∧ r.row.fields = actCtlFields := by
  have h : (decodeAddr (R.lfActCtl w)).map (fun r => (r.row.name, r.ci, r.row.fields)) = some (.lfActCtl, w.val, actCtlFields) := by
    revert w; decide +kernel
  simpa [Option.map_eq_some_iff] using h

/-- The bit of ACT_CTL that a host sets is the only one it writes. -/
theorem Dev.withField_actCtl (d : Dev) (w : Fin 2) : (F.lfActCtlResume w).of (d.withField (F.lfActCtlResume w) 1) = 1
    ∧ (F.lfActCtlDeact w).of (d.withField (F.lfActCtlResume w) 1) = 0 ∧ (F.lfActCtlResume w).of (d.withField (F.lfActCtlDeact w) 1) = 0
    ∧ (F.lfActCtlDeact w).of (d.withField (F.lfActCtlDeact w) 1) = 1 := by
  obtain ⟨r, hr, -, -, hfields⟩ := decodeAddr_lfActCtl w
  have hkeep : d.keepValue (R.lfActCtl w) = r.row.only FieldType.kept (d.reg (R.lfActCtl w)) := by
    unfold Dev.keepValue
    rw [hr]
  have hresume : (F.lfActCtlResume w).of (d.keepValue (R.lfActCtl w)) = 0 := by
    rw [hkeep, RegRow.of_only hfields actCtlFields_sound (f := ⟨0, 1, .wo, .any⟩) (by simp [actCtlFields]) rfl rfl]
    rfl
  have hdeact : (F.lfActCtlDeact w).of (d.keepValue (R.lfActCtl w)) = 0 := by
    rw [hkeep, RegRow.of_only hfields actCtlFields_sound (f := ⟨1, 1, .wo, .any⟩) (by simp [actCtlFields]) rfl rfl]
    rfl
  refine ⟨?_, ?_, ?_, ?_⟩
  · rw [Dev.withField, Fld.of_put _ _ _ (by simp [F.lfActCtlResume])]
    rfl
  · rw [Dev.withField, Fld.of_put_apart _ _ _ _ (by simp [F.lfActCtlDeact]) (by simp [F.lfActCtlDeact, F.lfActCtlResume])]
    exact hdeact
  · rw [Dev.withField, Fld.of_put_apart _ _ _ _ (by simp [F.lfActCtlResume]) (by simp [F.lfActCtlDeact, F.lfActCtlResume])]
    exact hresume
  · rw [Dev.withField, Fld.of_put _ _ _ (by simp [F.lfActCtlDeact])]
    rfl

theorem emberOfs_lf {w : Fin 2} {k : Nat} (hk : k < 0x1000000) : emberOfs (0x6000000 + k + 0x1000000 * w) = none := by
  unfold emberOfs
  exact if_neg (by omega)

/-- A taken write of ACT_CTL acts on the terminal. -/
theorem State.actCtl_takes {s : State} {w : Fin 2} {f : Fld} {o : Host.Outcome State Fault Refusal} {P : State → Prop} (hs : s.dev.out = [])
    (ho : o = s.run fun fz d => d.arrive fz (R.lfActCtl w) 4 (some (d.withField f 1)) [])
    (ht : s.dev.Takes (R.lfActCtl w) (s.dev.withField f 1))
    (h : ∀ (e : Dev) (t : State), s.dev.Only [R.lfActCtl w] [] e → e.waves = s.dev.waves →
      (((e.actCtl w (s.dev.withField f 1)).emit (.writeDone (R.lfActCtl w) 0)).setWaiting []).EndsAs t.dev →
      t.outputs.head? = some (.writeDone (R.lfActCtl w) 0) → P t) : ∃ t, o = .next t ∧ P t := by
  obtain ⟨r, hr, hn, hci, -⟩ := decodeAddr_lfActCtl w
  refine State.plainWrite_takes (u := fun d => d.withField f 1)
    (g := fun d => (d.setReg (R.lfActCtl w) (r.row.merge (d.reg (R.lfActCtl w)) (s.dev.withField f 1))).actCtl w (s.dev.withField f 1))
    hs ho rfl ht (emberOfs_lf (k := 0x4000C) (by decide)) hr (by simp [hn, RegName.plainWrite])
    (Dev.ringsUp_of_lt (by simp only [R.lfActCtl, R.pciRxgBaselo]; omega)) (fun d => by simp only [Dev.writeGo, hn, hci]) fun l t hends hout => ?_
  refine h _ t ?_ ?_ hends (by rw [hout]; rfl)
  · exact ((Dev.Only.refl _ _ s.dev).congr (Dev.setWaiting_keeps s.dev l).1).setReg _ (by simp)
  · exact (Dev.setReg_keeps _ _ _).2.2.2.2.2.2.2.2.2.2.2.2.2.2.2.2.2.2.2.2.1

/-- A timer of activation that ends in a change of state. -/
theorem Dev.timeout_shows {d e : Dev} {w st : Nat} (hw : w < 2) (hst : st < 8) {regs : List Nat} (h : d.Only regs [] e)
    (hr : ∀ a ∈ regs, 0x81000 ≤ a) :
    ((e.setAct w st).actTimeout w).get (F.lfActStatState w) = st ∧ d.Raised (0x78 + w) ((e.setAct w st).actTimeout w)
      ∧ d.Only (R.lfActStat w :: regs) [0x70 + w, 0x78 + w] ((e.setAct w st).actTimeout w) := by
  obtain ⟨hstate, honly⟩ := e.setAct_state hw hst
  have hall : d.Only (R.lfActStat w :: regs) [0x70 + w] (e.setAct w st) :=
    (h.mono (fun _ h => List.mem_cons_of_mem _ h) (by simp)).trans (honly.mono (by simp) (fun _ h => h))
  obtain ⟨hraised, hlimits⟩ := hall.sfEvent (c := 4) hw (by decide) (by simp) (fun a ha => by
    rcases List.mem_cons.1 ha with rfl | ha
    · simp only [R.lfActStat]; omega
    · exact hr a ha) [R.lfActStat w]
  exact ⟨(Dev.get_sfEvent _ _ _ _ (by simp only [F.lfActStatState, R.lfActStat]; omega)).trans hstate, hraised,
    hlimits.mono (fun _ h => h) (by simp)⟩

/-- The same where the TID is dropped before. -/
theorem Dev.timeout_drops {d e : Dev} {w st : Nat} (hw : w < 2) (hst : st < 8) (h : d.Only [R.lfActStat w, R.lfActId w] [] e)
    (htid : e.get (F.lfActIdTid w) = 0) :
    ((e.setAct w st).actTimeout w).get (F.lfActStatState w) = st ∧ ((e.setAct w st).actTimeout w).get (F.lfActIdTid w) = 0
      ∧ d.Raised (0x78 + w) ((e.setAct w st).actTimeout w)
      ∧ d.Only [R.lfActStat w, R.lfActId w] [0x70 + w, 0x78 + w] ((e.setAct w st).actTimeout w) := by
  obtain ⟨hstate, hraised, honly⟩ := Dev.timeout_shows hw hst h fun a ha => by have := actRegs_range ha; omega
  refine ⟨hstate, ?_, hraised, honly.mono (by simp) (fun _ h => h)⟩
  unfold Dev.actTimeout
  rw [Dev.get_sfEvent _ _ _ _ (by simp only [F.lfActIdTid, R.lfActId]; omega), e.setAct_get w st (by simp only [F.lfActIdTid, R.lfActId]; omega)
    (by simp [Fld.fits, F.lfActIdTid]) (by simp [Fld.apart, F.lfActIdTid, F.lfActStatState, R.lfActId, R.lfActStat]), htid]

/-- Settles O13: each timer, the police and each command of the host moves the terminal to its state. -/
theorem activationTimersAndHostAct : Obligations.ActivationTimersAndHostAct := by
  unfold Obligations.ActivationTimersAndHostAct
  refine ⟨?_, ?_, ?_, ?_, ?_, ?_, ?_, ?_, ?_⟩
  · intro w
    refine State.of_sent ?_ fun _ h => h
    intro s hs h2
    simp only [exec, execDisctoExpiry]
    refine State.run_ends hs rfl fun t ht _ _ => ?_
    simp only [h2, beq_self_eq_true, Dev.when_true] at ht
    obtain ⟨hstate, hraised, honly⟩ := Dev.timeout_shows (st := 1) w.isLt (by decide) (Dev.Only.refl [] [] s.dev) (by simp)
    have hact : s.dev.Raised (0x70 + w) ((s.dev.setAct w 1).actTimeout w) :=
      (Dev.setAct_enters w.isLt (by decide : 1 < 8) (by omega)).2.1.raise_ne (by omega) _
    exact ⟨(ht.get _).trans hstate, ht.raised.2 hraised, ht.raised.2 hact, ht.only.2 honly⟩
  · intro w
    refine State.of_sent ?_ fun _ h => h
    intro s hs hann
    simp only [exec, execIdtoExpiry]
    refine State.run_ends hs rfl fun t ht _ _ => ?_
    simp only [hann, Dev.when_true, Dev.actTimeout] at ht
    generalize (Config.freeWord s.dev.free).toNat = n at ht
    have hset : s.dev.Only [] [] ({ s.dev with free := s.dev.free + 1 }.setWave w fun v => { v with announced := false, skip := n % ((s.dev.wave w).bkmax + 1) }) :=
      (Dev.Only.refl _ _ s.dev).congr (Dev.setWave_keeps _ _ _).1
    have hwave : ({ s.dev with free := s.dev.free + 1 }.setWave w fun v => { v with announced := false, skip := n % ((s.dev.wave w).bkmax + 1) }).wave w
        = { s.dev.wave w with announced := false, skip := n % ((s.dev.wave w).bkmax + 1) } := Dev.wave_setWave_self _ _ _
    generalize { s.dev with free := s.dev.free + 1 }.setWave w (fun v => { v with announced := false, skip := n % ((s.dev.wave w).bkmax + 1) }) = e
      at ht hset hwave
    obtain ⟨hraised, honly⟩ := hset.sfEvent (c := 4) w.isLt (by decide) (by simp) (by simp) [R.lfActStat w]
    refine ⟨?_, ?_, ht.raised.2 hraised, ht.only.2 honly⟩
    · rw [ht.wave, Dev.wave_sfEvent, hwave]
    · rw [ht.wave, Dev.wave_sfEvent, hwave]
      exact Nat.le_of_lt_succ (Nat.mod_lt _ (Nat.succ_pos _))
  · intro w
    refine State.of_sent ?_ fun _ h => h
    intro s hs hne
    simp only [exec, execRngtoExpiry]
    refine State.run_ends hs rfl fun t ht _ _ => ?_
    have hgo : (s.dev.get (F.lfActStatState w) == 3 && (s.dev.wave w).eqds.isEmpty) = false := by simp [hne]
    simp only [hgo, Dev.when_false] at ht
    exact ⟨ht.get _, ht.only.2 (Dev.Only.refl _ _ _)⟩
  · intro w
    refine State.of_sent ?_ fun _ h => h
    intro s hs h3 hnone
    simp only [exec, execRngtoExpiry]
    refine State.run_ends hs rfl fun t ht _ _ => ?_
    simp only [h3, hnone, beq_self_eq_true, List.isEmpty_nil, Bool.and_self, Dev.when_true] at ht
    obtain ⟨hstate, htid, hraised, honly⟩ := Dev.timeout_drops (st := 2) w.isLt (by decide) ((s.dev.dropTid_only w).mono (by simp) (by simp))
      (s.dev.dropTid_shows w).1
    exact ⟨(ht.get _).trans hstate, (ht.get _).trans htid, ht.raised.2 hraised, ht.only.2 honly⟩
  · intro w
    refine State.of_sent ?_ fun _ h => h
    intro s hs h4
    simp only [exec, execLosttoExpiry]
    refine State.run_ends hs rfl fun t ht _ _ => ?_
    simp only [h4, beq_self_eq_true, Dev.when_true] at ht
    obtain ⟨hstate, htid, hraised, honly⟩ := Dev.timeout_drops (st := 1) w.isLt (by decide) ((s.dev.dropTid_only w).mono (by simp) (by simp))
      (s.dev.dropTid_shows w).1
    exact ⟨(ht.get _).trans hstate, (ht.get _).trans htid, ht.raised.2 hraised, ht.only.2 honly⟩
  · intro w
    refine State.of_sent ?_ fun _ h => h
    intro s hs hloss
    simp only [exec, execBlosstoExpiry]
    refine State.run_ends hs rfl fun t ht _ _ => ?_
    have hgo : s.dev.flag (F.lfActStatDsloss w) = true := by simp [Dev.flag, hloss]
    simp only [hgo, Dev.when_true] at ht
    have hdrop : s.dev.Only [R.lfActStat w, R.lfActId w] [] ((s.dev.dropTid w).set (F.lfActStatDsloss w) 0) :=
      ((s.dev.dropTid_only w).mono (by simp) (by simp)).set _ _ (by simp [F.lfActStatDsloss])
    have htid : ((s.dev.dropTid w).set (F.lfActStatDsloss w) 0).get (F.lfActIdTid w) = 0 :=
      (Dev.get_set_ne _ _ (by simp [F.lfActIdTid, F.lfActStatDsloss, R.lfActId, R.lfActStat])).trans (s.dev.dropTid_shows w).1
    have hoff : ((s.dev.dropTid w).set (F.lfActStatDsloss w) 0).get (F.lfActStatDsloss w) = 0 :=
      Dev.get_set_lt _ _ (by simp [Fld.fits, F.lfActStatDsloss]) (by simp [F.lfActStatDsloss])
    generalize (s.dev.dropTid w).set (F.lfActStatDsloss w) 0 = e at ht hdrop htid hoff
    obtain ⟨hstate, htid', hraised, honly⟩ := Dev.timeout_drops (st := 0) w.isLt (by decide) hdrop htid
    refine ⟨(ht.get _).trans hstate, ?_, (ht.get _).trans htid', ht.raised.2 hraised, ht.only.2 honly⟩
    rw [ht.get, Dev.actTimeout, Dev.get_sfEvent _ _ _ _ (by simp only [F.lfActStatDsloss, R.lfActStat]; omega),
      e.setAct_get w 0 (by simp only [F.lfActStatDsloss, R.lfActStat]; omega) (by simp [Fld.fits, F.lfActStatDsloss])
      (by simp [Fld.apart, F.lfActStatDsloss, F.lfActStatState]), hoff]
  · intro w
    refine State.of_sent ?_ fun _ h => h
    intro s hs hleaf hopen
    simp only [exec, execTxPolice]
    refine State.run_ends hs rfl fun t ht _ _ => ?_
    simp only [hleaf, hopen, Bool.not_false, Bool.and_self, Dev.when_true] at ht
    have hset : s.dev.Only [R.lfActStat w] [] (s.dev.set (F.lfActStatSilsp w) 1) := (Dev.Only.refl _ _ s.dev).set _ _ (by simp [F.lfActStatSilsp])
    have hsp : (s.dev.set (F.lfActStatSilsp w) 1).get (F.lfActStatSilsp w) = 1 :=
      Dev.get_set_lt _ _ (by simp [Fld.fits, F.lfActStatSilsp]) (by simp [F.lfActStatSilsp])
    have hst : (s.dev.set (F.lfActStatSilsp w) 1).get (F.lfActStatState w) = s.dev.get (F.lfActStatState w) :=
      Dev.get_set_apart _ _ _ _ (by simp [Fld.fits, F.lfActStatState]) (by simp [Fld.apart, F.lfActStatState, F.lfActStatSilsp])
    generalize s.dev.set (F.lfActStatSilsp w) 1 = e at ht hset hsp hst
    obtain ⟨hstate, hret, hkept, -, honly⟩ := e.enterSilence_shows w.isLt
    have hall : s.dev.Only (R.lfActStat w :: txRegs) [0x70 + w] (e.enterSilence w) := (hset.mono (by simp) (by simp)).trans honly
    obtain ⟨hraised, -⟩ := hall.sfEvent (c := 6) w.isLt (by decide) (by simp) (fun a ha => by
      rcases List.mem_cons.1 ha with rfl | ha
      · simp only [R.lfActStat]; omega
      · have := txRegs_range ha; omega) [R.lfActStat w]
    have hget : ∀ f : Fld, f.addr = R.lfActStat w → t.dev.get f = (e.enterSilence w).get f := fun f hf =>
      (ht.get f).trans (Dev.get_sfEvent _ _ _ _ (by rw [hf]; simp only [R.lfActStat]; omega))
    refine ⟨(hget _ rfl).trans hstate, ?_, fun hne => ?_, ht.raised.2 hraised⟩
    · rw [hget _ rfl, hkept _ rfl (by simp [Fld.fits, F.lfActStatSilsp]) (by simp [Fld.apart, F.lfActStatSilsp, F.lfActStatState])
        (by simp [Fld.apart, F.lfActStatSilsp, F.lfActStatRet]), hsp]
    · rw [hget _ rfl, hret (by rw [hst]; exact hne), hst]
  · intro w
    refine State.of_sent ?_ fun _ h => h
    intro s hs htakes h5 hhe hret
    refine State.actCtl_takes hs rfl htakes fun e t honly hwaves ht hout => ?_
    obtain ⟨hresume, hdeact, -, -⟩ := s.dev.withField_actCtl w
    simp only [Dev.actCtl, hresume, hdeact, bne_self_eq_false, Dev.when_false, Nat.reduceBNe, Dev.when_true] at ht
    have hkept : ∀ f : Fld, f.addr = R.lfActStat w → f.fits → (F.lfActStatSilsp w).apart f →
        (e.set (F.lfActStatSilsp w) 0).get f = s.dev.get f := fun f hf hfit hap =>
      (Dev.get_set_apart _ _ _ _ hfit hap).trans (honly.get_eq (by rw [hf]; simp [R.lfActStat, R.lfActCtl])
        (by rw [hf]; simp only [R.lfActStat]; omega) (by simp))
    have hsp : (e.set (F.lfActStatSilsp w) 0).get (F.lfActStatSilsp w) = 0 :=
      Dev.get_set_lt _ _ (by simp [Fld.fits, F.lfActStatSilsp]) (by simp [F.lfActStatSilsp])
    have hstate := hkept (F.lfActStatState w) rfl (by simp [Fld.fits, F.lfActStatState]) (by simp [Fld.apart, F.lfActStatState, F.lfActStatSilsp])
    have hhe' := hkept (F.lfActStatSilhe w) rfl (by simp [Fld.fits, F.lfActStatSilhe]) (by simp [Fld.apart, F.lfActStatSilhe, F.lfActStatSilsp])
    have hret' := hkept (F.lfActStatRet w) rfl (by simp [Fld.fits, F.lfActStatRet]) (by simp [Fld.apart, F.lfActStatRet, F.lfActStatSilsp])
    generalize e.set (F.lfActStatSilsp w) 0 = k at ht hsp hstate hhe' hret'
    obtain ⟨hends, -, -, hrest⟩ := Dev.leaveSilence_ends w.isLt (hstate.trans h5) (hhe'.trans hhe) hsp (by rw [hret']; exact hret)
    refine ⟨hout, ?_, ?_⟩
    · rw [ht.get, Dev.get_setWaiting, Dev.get_emit, hrest _ rfl (by simp [Fld.fits, F.lfActStatSilsp]) (by simp [Fld.apart, F.lfActStatSilsp, F.lfActStatState]), hsp]
    · rw [ht.get, Dev.get_setWaiting, Dev.get_emit, hends, hret']
  · intro w
    refine State.of_sent ?_ fun _ h => h
    intro s hs htakes hst
    refine State.actCtl_takes hs rfl htakes fun e t honly hwaves ht hout => ?_
    obtain ⟨-, -, hresume, hdeact⟩ := s.dev.withField_actCtl w
    simp only [Dev.actCtl, hresume, hdeact, bne_self_eq_false, Dev.when_false, Nat.reduceBNe, Dev.when_true] at ht
    have hstate : e.get (F.lfActStatState w) = s.dev.get (F.lfActStatState w) :=
      honly.get_eq (by simp [F.lfActStatState, R.lfActStat, R.lfActCtl]) (by simp only [F.lfActStatState, R.lfActStat]; omega) (by simp)
    obtain ⟨hone, htid, hgrants, -⟩ := Dev.deactivate_shows (d := e) w.isLt (by rw [hstate]; exact hst)
    refine ⟨hout, ?_, ?_, ?_⟩
    · rw [ht.get, Dev.get_setWaiting, Dev.get_emit, hone]
    · rw [ht.get, Dev.get_setWaiting, Dev.get_emit, htid]
    · rw [ht.wave]
      exact hgrants

/-- Settles O11: DISCOVER, RANGE, SILENCE, its expiry and RELEASE, each in the states it is for. -/
theorem terminalIsBroughtUp : Obligations.TerminalIsBroughtUp := by
  unfold Obligations.TerminalIsBroughtUp
  refine ⟨?_, ?_, ?_, ?_, ?_⟩
  · intro w peqd rspread alen bkmax e
    refine State.of_sent ?_ fun _ h => h
    intro s hs hleaf h1 hacten hpwr hserving hsettled hlo hhi
    simp only [exec, execDiscover]
    refine State.run_ends hs rfl fun t ht _ _ => ?_
    have hgo : s.dev.discover w peqd.toNat rspread.toNat alen.toNat bkmax.toNat = (s.dev.setWave w fun v =>
        { v with peqd := peqd.toNat, rspread := rspread.toNat, alen := alen.toNat, bkmax := bkmax.toNat }).setAct w 2 := by
      have hok : (decide (alen.toNat < 6) || decide (32 < alen.toNat)) = false := by simp; omega
      have hpwr' : (s.dev.get F.hrtPwrStateCur != 1) = true := by simp [hpwr]
      unfold Dev.discover
      rw [hok, Dev.leafMessage_of_leaf hleaf]
      simp [h1, Dev.flag, hacten, hpwr', hserving, hsettled]
    rw [hgo] at ht
    have hset : s.dev.Only [R.lfActStat w] [0x70 + w] (s.dev.setWave w fun v =>
        { v with peqd := peqd.toNat, rspread := rspread.toNat, alen := alen.toNat, bkmax := bkmax.toNat }) :=
      (Dev.Only.refl _ _ s.dev).congr (Dev.setWave_keeps _ _ _).1
    have hst : (s.dev.setWave w fun v => { v with peqd := peqd.toNat, rspread := rspread.toNat, alen := alen.toNat, bkmax := bkmax.toNat }).get
        (F.lfActStatState w) ≠ 2 := by rw [Dev.get_setWave, h1]; decide
    have hctl : (s.dev.setWave w fun v => { v with peqd := peqd.toNat, rspread := rspread.toNat, alen := alen.toNat, bkmax := bkmax.toNat }).reg
        (R.hrtEvtSrcCtl (0x70 + w)) = s.dev.reg (R.hrtEvtSrcCtl (0x70 + w)) := Dev.reg_setWave _ _ _ _
    have hwave := s.dev.wave_setWave_self w fun v =>
      { v with peqd := peqd.toNat, rspread := rspread.toNat, alen := alen.toNat, bkmax := bkmax.toNat }
    generalize (s.dev.setWave w fun v => { v with peqd := peqd.toNat, rspread := rspread.toNat, alen := alen.toNat, bkmax := bkmax.toNat }) = k
      at ht hset hst hctl hwave
    obtain ⟨hstate, hraised, honly⟩ := Dev.setAct_enters w.isLt (by decide : 2 < 8) hst
    refine ⟨(ht.get _).trans hstate, ?_, ?_, ?_, ?_, ht.raised.2 (hraised.of_ctl hctl.symm rfl), ht.only.2 (hset.trans honly)⟩
    · rw [ht.wave, Dev.setAct_view (p := Wave.peqd) (fun _ _ => rfl) (fun _ _ => rfl), hwave]
    · rw [ht.wave, Dev.setAct_view (p := Wave.rspread) (fun _ _ => rfl) (fun _ _ => rfl), hwave]
    · rw [ht.wave, Dev.setAct_view (p := Wave.alen) (fun _ _ => rfl) (fun _ _ => rfl), hwave]
    · rw [ht.wave, Dev.setAct_view (p := Wave.bkmax) (fun _ _ => rfl) (fun _ _ => rfl), hwave]
  · intro w eqd rtd esfn
    refine State.of_sent ?_ fun _ h => h
    intro s hs hleaf hlo hhi
    simp only [exec, execRange]
    refine State.run_ends hs rfl fun t ht _ _ => ?_
    have hstates : [3, 4, 5].contains (s.dev.get (F.lfActStatState w)) = true := by
      simp only [List.contains_eq_mem, List.mem_cons, List.not_mem_nil, or_false, decide_eq_true_eq]
      omega
    simp only [Dev.range, Dev.leafMessage_of_leaf hleaf, hstates, if_true] at ht
    have hset : s.dev.Only [R.lfActEqd w, R.lfActRtd w] [] ((s.dev.set (F.lfActEqdEqd w) eqd.toNat).set (F.lfActRtdRtd w) rtd.toNat) :=
      ((Dev.Only.refl _ _ s.dev).set _ _ (by simp [F.lfActEqdEqd])).set _ _ (by simp [F.lfActRtdRtd])
    have hrtd : ((s.dev.set (F.lfActEqdEqd w) eqd.toNat).set (F.lfActRtdRtd w) rtd.toNat).get (F.lfActRtdRtd w) = rtd.toNat :=
      Dev.get_set_lt _ _ (by simp [Fld.fits, F.lfActRtdRtd]) rtd.isLt
    have heqd : ((s.dev.set (F.lfActEqdEqd w) eqd.toNat).set (F.lfActRtdRtd w) rtd.toNat).get (F.lfActEqdEqd w) = eqd.toNat :=
      (Dev.get_set_ne _ _ (by simp [F.lfActEqdEqd, F.lfActRtdRtd, R.lfActEqd, R.lfActRtd])).trans
        (Dev.get_set_lt _ _ (by simp [Fld.fits, F.lfActEqdEqd]) eqd.isLt)
    have hwave0 : ((s.dev.set (F.lfActEqdEqd w) eqd.toNat).set (F.lfActRtdRtd w) rtd.toNat).wave w = s.dev.wave w := by simp
    generalize (s.dev.set (F.lfActEqdEqd w) eqd.toNat).set (F.lfActRtdRtd w) rtd.toNat = e at ht hset hrtd heqd hwave0
    obtain ⟨hraised, honly⟩ := Dev.Only.sfEvent (c := 3) (hset.congr (Dev.setWave_keeps e w fun v =>
      { v with eqds := (esfn.toNat, eqd.toNat) :: v.eqds, mseq := (v.mseq + 1) % 65536
               ctrlQ := v.ctrlQ ++ [⟨0x42, v.mseq, beBytes 3 eqd.toNat ++ beBytes 4 esfn.toNat, some esfn.toNat⟩] }).1) w.isLt (by decide) (by simp)
      (fun a ha => by simp only [R.lfActEqd, R.lfActRtd, List.mem_cons, List.not_mem_nil, or_false] at ha; omega) [R.lfActEqd w, R.lfActRtd w]
    refine ⟨?_, ?_, ?_, ?_, ht.raised.2 hraised, ht.only.2 honly⟩
    · rw [ht.get, Dev.get_sfEvent _ _ _ _ (by simp only [F.lfActEqdEqd, R.lfActEqd]; omega), Dev.get_setWave, heqd]
    · rw [ht.get, Dev.get_sfEvent _ _ _ _ (by simp only [F.lfActRtdRtd, R.lfActRtd]; omega), Dev.get_setWave, hrtd]
    · rw [ht.wave, Dev.wave_sfEvent, Dev.wave_setWave_self, hwave0]
    · rw [ht.wave, Dev.wave_sfEvent, Dev.wave_setWave_self, hwave0]
      have hnow : sfnGe esfn.toNat esfn.toNat = true := by simp [sfnGe, sfnSub, unsignedOf]
      simp [Wave.eqdFor, hnow]
  · intro w tid dur
    refine State.of_sent ?_ fun _ h => h
    intro s hs hleaf hlo hhi htid hdur
    simp only [exec, execSilence]
    refine State.run_ends hs rfl fun t ht _ _ => ?_
    have hstates : [2, 3, 4, 5].contains (s.dev.get (F.lfActStatState w)) = true := by
      simp only [List.contains_eq_mem, List.mem_cons, List.not_mem_nil, or_false, decide_eq_true_eq]
      omega
    have hall : ¬(tid.toNat ≠ 0xFFF ∧ (tid.toNat ≠ s.dev.get (F.lfActIdTid w) ∨ tid.toNat = 0)) := by simp [htid]
    simp only [Dev.silence, Dev.leafMessage_of_leaf hleaf, hstates, if_true, if_neg hall, if_neg hdur] at ht
    have hset : s.dev.Only (R.lfActStat w :: txRegs) [] ((s.dev.set (F.lfActStatSilhe w) 1).set (F.lfActStatSilrem w) dur.toNat) :=
      ((Dev.Only.refl _ _ s.dev).set _ _ (by simp [F.lfActStatSilhe])).set _ _ (by simp [F.lfActStatSilrem])
    have hrem : ((s.dev.set (F.lfActStatSilhe w) 1).set (F.lfActStatSilrem w) dur.toNat).get (F.lfActStatSilrem w) = dur.toNat :=
      Dev.get_set_lt _ _ (by simp [Fld.fits, F.lfActStatSilrem]) dur.isLt
    have hhe : ((s.dev.set (F.lfActStatSilhe w) 1).set (F.lfActStatSilrem w) dur.toNat).get (F.lfActStatSilhe w) = 1 :=
      (Dev.get_set_apart _ _ _ _ (by simp [Fld.fits, F.lfActStatSilhe]) (by simp [Fld.apart, F.lfActStatSilhe, F.lfActStatSilrem])).trans
        (Dev.get_set_lt _ _ (by simp [Fld.fits, F.lfActStatSilhe]) (by simp [F.lfActStatSilhe]))
    have hst : ((s.dev.set (F.lfActStatSilhe w) 1).set (F.lfActStatSilrem w) dur.toNat).get (F.lfActStatState w) = s.dev.get (F.lfActStatState w) :=
      (Dev.get_set_apart _ _ _ _ (by simp [Fld.fits, F.lfActStatState]) (by simp [Fld.apart, F.lfActStatState, F.lfActStatSilrem])).trans
        (Dev.get_set_apart _ _ _ _ (by simp [Fld.fits, F.lfActStatState]) (by simp [Fld.apart, F.lfActStatState, F.lfActStatSilhe]))
    generalize (s.dev.set (F.lfActStatSilhe w) 1).set (F.lfActStatSilrem w) dur.toNat = e at ht hset hrem hhe hst
    obtain ⟨hraised, honly⟩ := hset.sfEvent (c := 5) w.isLt (by decide) (by simp) (fun a ha => by
      rcases List.mem_cons.1 ha with rfl | ha
      · simp only [R.lfActStat]; omega
      · have := txRegs_range ha; omega) [R.lfActStat w]
    have hsame : ∀ f : Fld, f.addr = R.lfActStat w → (e.when (!s.dev.flag (F.lfActStatSilhe w)) fun d => d.sfEvent w 5 [R.lfActStat w]).get f = e.get f := by
      intro f hf
      cases s.dev.flag (F.lfActStatSilhe w)
      · exact Dev.get_sfEvent _ _ _ _ (by rw [hf]; simp only [R.lfActStat]; omega)
      · rfl
    have hfirst : s.dev.get (F.lfActStatSilhe w) = 0 →
        s.dev.Raised (0x7A + w) (e.when (!s.dev.flag (F.lfActStatSilhe w)) fun d => d.sfEvent w 5 [R.lfActStat w]) := by
      intro h0
      have hnot : s.dev.flag (F.lfActStatSilhe w) = false := by simp [Dev.flag, h0]
      rw [hnot]
      exact hraised
    generalize (e.when (!s.dev.flag (F.lfActStatSilhe w)) fun d => d.sfEvent w 5 [R.lfActStat w]) = k at ht hsame hfirst
    obtain ⟨hstate, hret, hkept, hbursts, hlimits⟩ := k.enterSilence_shows w.isLt
    refine ⟨(ht.get _).trans hstate, ?_, ?_, ?_, ?_, fun h0 => ht.raised.2 ((hfirst h0).only hlimits (by simp) fun hm => ?_)⟩
    · rw [ht.get, hret (by rw [hsame _ rfl, hst]; omega), hsame _ rfl, hst]
    · rw [ht.get, hkept _ rfl (by simp [Fld.fits, F.lfActStatSilhe]) (by simp [Fld.apart, F.lfActStatSilhe, F.lfActStatState])
        (by simp [Fld.apart, F.lfActStatSilhe, F.lfActStatRet]), hsame _ rfl, hhe]
    · rw [ht.get, hkept _ rfl (by simp [Fld.fits, F.lfActStatSilrem]) (by simp [Fld.apart, F.lfActStatSilrem, F.lfActStatState])
        (by simp [Fld.apart, F.lfActStatSilrem, F.lfActStatRet]), hsame _ rfl, hrem]
    · rw [ht.wave, hbursts]
    · rcases List.mem_cons.1 hm with h | h
      · simp only [R.hrtEvtSrcCtl, R.lfActStat] at h; omega
      · have := txRegs_range h
        simp only [R.hrtEvtSrcCtl] at this
        omega
  · intro w
    refine State.of_sent ?_ fun _ h => h
    intro s hs h5 hsp hret
    simp only [exec, execSilenceExpiry]
    refine State.run_ends hs rfl fun t ht _ _ => ?_
    have hset : s.dev.Only [R.lfActStat w] [0x70 + w] ((s.dev.set (F.lfActStatSilhe w) 0).set (F.lfActStatSilrem w) 0) :=
      ((Dev.Only.refl _ _ s.dev).set _ _ (by simp [F.lfActStatSilhe])).set _ _ (by simp [F.lfActStatSilrem])
    have hctl : ((s.dev.set (F.lfActStatSilhe w) 0).set (F.lfActStatSilrem w) 0).reg (R.hrtEvtSrcCtl (0x70 + w)) = s.dev.reg (R.hrtEvtSrcCtl (0x70 + w)) := by
      rw [Dev.reg_set_ne, Dev.reg_set_ne] <;> simp only [R.hrtEvtSrcCtl, F.lfActStatSilhe, F.lfActStatSilrem, R.lfActStat] <;> omega
    have hrem : ((s.dev.set (F.lfActStatSilhe w) 0).set (F.lfActStatSilrem w) 0).get (F.lfActStatSilrem w) = 0 :=
      Dev.get_set_lt _ _ (by simp [Fld.fits, F.lfActStatSilrem]) (by simp [F.lfActStatSilrem])
    have hhe : ((s.dev.set (F.lfActStatSilhe w) 0).set (F.lfActStatSilrem w) 0).get (F.lfActStatSilhe w) = 0 :=
      (Dev.get_set_apart _ _ _ _ (by simp [Fld.fits, F.lfActStatSilhe]) (by simp [Fld.apart, F.lfActStatSilhe, F.lfActStatSilrem])).trans
        (Dev.get_set_lt _ _ (by simp [Fld.fits, F.lfActStatSilhe]) (by simp [F.lfActStatSilhe]))
    have hkept : ∀ f : Fld, f.fits → (F.lfActStatSilhe w).apart f → (F.lfActStatSilrem w).apart f →
        ((s.dev.set (F.lfActStatSilhe w) 0).set (F.lfActStatSilrem w) 0).get f = s.dev.get f := fun f hfit h h' =>
      (Dev.get_set_apart _ _ _ _ hfit h').trans (Dev.get_set_apart _ _ _ _ hfit h)
    have hst' := hkept (F.lfActStatState w) (by simp [Fld.fits, F.lfActStatState]) (by simp [Fld.apart, F.lfActStatState, F.lfActStatSilhe])
      (by simp [Fld.apart, F.lfActStatState, F.lfActStatSilrem])
    have hsp' := hkept (F.lfActStatSilsp w) (by simp [Fld.fits, F.lfActStatSilsp]) (by simp [Fld.apart, F.lfActStatSilsp, F.lfActStatSilhe])
      (by simp [Fld.apart, F.lfActStatSilsp, F.lfActStatSilrem])
    have hret' := hkept (F.lfActStatRet w) (by simp [Fld.fits, F.lfActStatRet]) (by simp [Fld.apart, F.lfActStatRet, F.lfActStatSilhe])
      (by simp [Fld.apart, F.lfActStatRet, F.lfActStatSilrem])
    generalize (s.dev.set (F.lfActStatSilhe w) 0).set (F.lfActStatSilrem w) 0 = e at ht hset hctl hrem hhe hst' hsp' hret'
    obtain ⟨hends, hraised, honly, hrest⟩ := Dev.leaveSilence_ends w.isLt (hst'.trans h5) hhe (hsp'.trans hsp) (by rw [hret']; exact hret)
    refine ⟨?_, ?_, ?_, ht.raised.2 (hraised.of_ctl hctl.symm rfl), ht.only.2 (hset.trans honly)⟩
    · rw [ht.get, hends, hret']
    · rw [ht.get, hrest _ rfl (by simp [Fld.fits, F.lfActStatSilhe]) (by simp [Fld.apart, F.lfActStatSilhe, F.lfActStatState]), hhe]
    · rw [ht.get, hrest _ rfl (by simp [Fld.fits, F.lfActStatSilrem]) (by simp [Fld.apart, F.lfActStatSilrem, F.lfActStatState]), hrem]
  · intro w reason
    refine State.of_sent ?_ fun _ h => h
    intro s hs hleaf hst
    simp only [exec, execRelease]
    refine State.run_ends hs rfl fun t ht _ _ => ?_
    have hstates : [3, 4, 5].contains (s.dev.get (F.lfActStatState w)) = true := by
      simp only [List.contains_eq_mem, List.mem_cons, List.not_mem_nil, or_false, decide_eq_true_eq]
      omega
    simp only [Dev.release, Dev.leafMessage_of_leaf hleaf, hstates, if_true] at ht
    have hset : s.dev.Only (R.lfActStat w :: R.lfActId w :: txRegs) [0x70 + w] (s.dev.setWave w fun v => { v with relReason := reason.toNat }) :=
      (Dev.Only.refl _ _ s.dev).congr (Dev.setWave_keeps _ _ _).1
    have hst' : (s.dev.setWave w fun v => { v with relReason := reason.toNat }).get (F.lfActStatState w) = s.dev.get (F.lfActStatState w) :=
      Dev.get_setWave _ _ _ _
    have hreason0 : ((s.dev.setWave w fun v => { v with relReason := reason.toNat }).wave w).relReason = reason.toNat := by
      rw [Dev.wave_setWave_self]
    have hctl : (s.dev.setWave w fun v => { v with relReason := reason.toNat }).reg (R.hrtEvtSrcCtl (0x70 + w)) = s.dev.reg (R.hrtEvtSrcCtl (0x70 + w)) :=
      Dev.reg_setWave _ _ _ _
    generalize (s.dev.setWave w fun v => { v with relReason := reason.toNat }) = e at ht hset hst' hreason0 hctl
    obtain ⟨hone, htid, hgrants, hbursts, hreason, hact, honly⟩ := Dev.deactivate_shows (d := e) w.isLt (by rw [hst']; exact hst)
    obtain ⟨hraised, -⟩ := (hset.trans honly).sfEvent (c := 7) w.isLt (by decide) (by simp) (fun a ha => by
      rcases List.mem_cons.1 ha with rfl | ha
      · simp only [R.lfActStat]; omega
      · rcases List.mem_cons.1 ha with rfl | ha
        · simp only [R.lfActId]; omega
        · have := txRegs_range ha; omega) [R.lfActStat w]
    refine ⟨?_, ?_, ?_, ?_, ?_, ht.raised.2 hraised, ht.raised.2 ?_⟩
    · rw [ht.get, Dev.get_sfEvent _ _ _ _ (by simp only [F.lfActStatState, R.lfActStat]; omega), hone]
    · rw [ht.get, Dev.get_sfEvent _ _ _ _ (by simp only [F.lfActIdTid, R.lfActId]; omega), htid]
    · rw [ht.wave, Dev.wave_sfEvent, hgrants]
    · rw [ht.wave, Dev.wave_sfEvent, hbursts]
    · rw [ht.wave, Dev.wave_sfEvent, hreason, hreason0]
    · exact (hact.of_ctl hctl.symm rfl).raise_ne (by omega) _

end Sys2Proof.Machine
end

section
/-!
PROOFS. Stamps and time of day (R138, R169, R354 to R356).
-/

namespace Sys2Proof.Machine

set_option Elab.async false

/-! ### What leaves the counter alone -/

@[simp] theorem Dev.each_time {α : Type} (xs : List α) (f : Dev → α → Dev) (d : Dev) (h : ∀ (e : Dev) (x : α), (f e x).time = e.time) :
    (d.each xs f).time = d.time := Dev.each_keeps (P := fun e => e.time = d.time) xs f (fun e x _ he => (h e x).trans he) d rfl

@[simp] theorem Dev.when_time (d : Dev) (c : Bool) (f : Dev → Dev) (h : (f d).time = d.time) : (d.when c f).time = d.time := by
  cases c
  · rfl
  · exact h

theorem Dev.when_time_of {d e : Dev} (h : e.time = d.time) (c : Bool) (f : Dev → Dev) (hf : (f e).time = e.time) : (e.when c f).time = d.time :=
  (Dev.when_time e c f hf).trans h

theorem Dev.rampNext_time (d : Dev) (w : Nat) : (d.rampNext w).time = d.time := by
  unfold Dev.rampNext
  cases d.serving w with
  | none => simp
  | some e =>
    dsimp only
    split
    · rfl
    · split
      · simp
      · exact Dev.when_time _ _ _ (by simp)

theorem Dev.txRefresh_time (d : Dev) : d.txRefresh.time = d.time := by
  unfold Dev.txRefresh
  rw [Dev.each_time _ _ _ fun e x => Dev.when_time _ _ _ (by simp), Dev.rampNext_time, Dev.rampNext_time]

theorem Dev.engLine_time (d : Dev) (e b : Nat) : (d.engLine e b).time = d.time := by
  unfold Dev.engLine
  rw [Dev.txRefresh_time]
  simp

theorem Dev.raise_time (d : Dev) (n : Nat) (l : List Nat) : (d.raise n l).time = d.time := (Dev.raise_quiet d n l).time

theorem Dev.txEvent_time (d : Dev) (e c : Nat) (l : List Nat) : (d.txEvent e c l).time = d.time := by
  unfold Dev.txEvent
  split
  · exact Dev.when_time _ _ _ (Dev.raise_time _ _ _)
  · split
    · exact Dev.when_time _ _ _ (Dev.raise_time _ _ _)
    · rfl

theorem Dev.applyChange_time (d : Dev) (w : Nat) (p : ProfPend) : (d.applyChange w p).time = d.time := by
  unfold Dev.applyChange
  split
  · rw [Dev.each_time _ _ _ fun e x => by simp]
    simp
  · rw [Dev.each_time _ _ _ fun e x => by simp]
    simp

theorem Dev.profEvent_time (d : Dev) (w sc : Nat) : (d.profEvent w sc).time = d.time := by
  unfold Dev.profEvent
  split
  · exact Dev.txEvent_time _ _ _ _
  · simp

theorem Dev.applyPend_time (d : Dev) (w dir sfn : Nat) : (d.applyPend w dir sfn).time = d.time := by
  unfold Dev.applyPend
  dsimp only
  split
  · rw [Dev.profEvent_time, Dev.each_time _ _ _ fun e x => Dev.applyChange_time _ _ _]
    simp
  · rw [Dev.each_time _ _ _ fun e x => Dev.applyChange_time _ _ _]
    simp

theorem Dev.catchUp_time (d : Dev) (w e : Nat) : (d.catchUp w e).time = d.time := by
  unfold Dev.catchUp
  dsimp only
  have hdue : (d.when (d.cordOn (6 + w)) fun d => d.applyPend w 1 (d.dirSfn w 1)).time = d.time :=
    Dev.when_time _ _ _ (Dev.applyPend_time _ _ _ _)
  split
  · rw [Dev.raise_time]
    simpa using hdue
  · exact hdue

theorem Dev.txMove_time (d : Dev) (w : Nat) (frame : Bool) : (d.txMove w frame).time = d.time := by
  unfold Dev.txMove
  split
  · split
    · rfl
    · rw [Dev.txRefresh_time]
      simp [Dev.catchUp_time]
  · rfl

theorem Dev.countFrames_time (d : Dev) (w k : Nat) : (d.countFrames w k).time = d.time := by
  unfold Dev.countFrames
  rw [Dev.each_time _ _ _ fun e x => by simp]
  simp

theorem Dev.sendFrames_time (d : Dev) (w k b : Nat) : (d.sendFrames w k b).time = d.time := by
  unfold Dev.sendFrames
  rw [Dev.txMove_time, Dev.each_time _ _ _ fun e x => Dev.when_time_of (Dev.engLine_time _ _ _) _ _ (by simp [Dev.engSend])]
  simp [Dev.countFrames_time]

/-! ### The time records of a wavelength -/

@[simp] theorem Dev.wl_setWl_self (d : Dev) (w : Nat) (f : WlTime → WlTime) : (d.setWl w f).wl w = f (d.wl w) := by
  by_cases h : w = 0
  · simp [Dev.wl, Dev.setWl, Dev.setTime, h]
  · simp [Dev.wl, Dev.setWl, Dev.setTime, h]

@[simp] theorem Dev.setWl_regs (d : Dev) (w : Nat) (f : WlTime → WlTime) : (d.setWl w f).regs = d.regs := rfl
@[simp] theorem Dev.setWl_out (d : Dev) (w : Nat) (f : WlTime → WlTime) : (d.setWl w f).out = d.out := rfl
@[simp] theorem Dev.setWl_waves (d : Dev) (w : Nat) (f : WlTime → WlTime) : (d.setWl w f).waves = d.waves := rfl
@[simp] theorem Dev.get_setWl (d : Dev) (w : Nat) (f : WlTime → WlTime) (fl : Fld) : (d.setWl w f).get fl = d.get fl := rfl
@[simp] theorem Dev.wave_setWl (d : Dev) (w k : Nat) (f : WlTime → WlTime) : (d.setWl w f).wave k = d.wave k := rfl

theorem Dev.wl_congr {d e : Dev} (h : e.time = d.time) (w : Nat) : e.wl w = d.wl w := by simp only [Dev.wl, h]

theorem Dev.now_congr {d e : Dev} (h : e.time = d.time) : e.now = d.now := by simp only [Dev.now, h]

theorem Dev.EndsAs.wl {e t : Dev} (h : e.EndsAs t) (w : Nat) : t.wl w = e.wl w := Dev.wl_congr h.same.time w

/-! ### Superframe boundaries -/

theorem Dev.silenceTick_only (d : Dev) (w : Nat) : d.Only [R.lfActStat w] [] (d.silenceTick w) :=
  (Dev.Only.refl _ _ d).when _ _ fun _ => (Dev.Only.refl _ _ d).set _ _ (by simp [F.lfActStatSilrem])

@[simp] theorem Dev.silenceTick_time (d : Dev) (w : Nat) : (d.silenceTick w).time = d.time := Dev.when_time _ _ _ (by simp)

/-- A line frame boundary changes the transmit state of its engine alone. -/
theorem Dev.engLine_only (d : Dev) {e : Nat} (he : e < 3) (b : Nat) : d.Only txRegs [] (d.engLine e b) := by
  have hmem : (F.leTxcStatMuted e).addr ∈ txRegs := by
    have : e = 0 ∨ e = 1 ∨ e = 2 := by omega
    rcases this with rfl | rfl | rfl <;> simp [txRegs, F.leTxcStatMuted]
  unfold Dev.engLine
  have hmute : d.Only txRegs [] (d.when ((d.eng e).unmute.any fun t => decide (t + 32 ≤ b)) fun d => d.set (F.leTxcStatMuted e) 0) :=
    (Dev.Only.refl _ _ d).when _ _ fun _ => (Dev.Only.refl _ _ d).set _ _ hmem
  exact (hmute.congr (Dev.setEng_keeps _ _ _).1).trans (Dev.txRefresh_only _)

theorem Dev.engLine_view {α : Type} {p : Wave → α} (hp : ∀ v r, p { v with ramp := r } = p v) (d : Dev) (e b k : Nat) :
    p ((d.engLine e b).wave k) = p (d.wave k) := by
  unfold Dev.engLine
  dsimp only
  rw [Dev.txRefresh_view hp]
  cases (d.eng e).unmute.any fun t => decide (t + 32 ≤ b) <;> simp [Dev.when]

theorem Dev.countFrames_keeps (d : Dev) (w k : Nat) : (d.countFrames w k).regs = d.regs ∧ ∀ j, ((d.countFrames w k).wave j).txNext = (d.wave j).txNext := by
  unfold Dev.countFrames
  refine Dev.each_keeps (P := fun e => e.regs = d.regs ∧ ∀ j, (e.wave j).txNext = (d.wave j).txNext) _ _ (fun e x _ he => ?_) _ ?_
  · simpa using he
  · exact ⟨(Dev.setWave_keeps _ _ _).1, fun j => Dev.setWave_view (p := Wave.txNext) _ _ _ _ fun _ => rfl⟩

/-- Line frames sent while no engine waits to send change the transmit states of the engines alone. -/
theorem Dev.sendFrames_only {d : Dev} {w : Nat} (h : (d.wave w).txNext = none) (k b : Nat) : d.Only txRegs [] (d.sendFrames w k b) := by
  unfold Dev.sendFrames
  dsimp only
  have hview := Dev.setWave_view (p := Wave.txNext) d w w (fun v => { v with lineAt := b }) fun _ => rfl
  have hregs := (Dev.setWave_keeps d w fun v => { v with lineAt := b }).1
  generalize d.setWave w (fun v => { v with lineAt := b }) = e at hview hregs
  have hcount : (e.when (d.cordOn (6 + w)) fun d => d.countFrames w k).regs = d.regs
      ∧ ((e.when (d.cordOn (6 + w)) fun d => d.countFrames w k).wave w).txNext = none := by
    cases d.cordOn (6 + w)
    · exact ⟨hregs, hview.trans h⟩
    · obtain ⟨hr, hn⟩ := e.countFrames_keeps w k
      exact ⟨hr.trans hregs, (hn w).trans (hview.trans h)⟩
  generalize (e.when (d.cordOn (6 + w)) fun d => d.countFrames w k) = g at hcount
  obtain ⟨hr, hn⟩ := hcount
  have hloop := Dev.each_keeps (P := fun x => d.Only txRegs [] x ∧ (x.wave w).txNext = none) (e.enginesOf w)
    (fun x y => (x.engLine y b).when (!d.cordOn (6 + w) || k == 0 || decide (8 ≤ (d.wave w).txFnum + k)) fun d' =>
      d'.engSend y (if d.cordOn (6 + w) && k != 0 then b - ((d.wave w).txFnum + k) % 8 * lineTicks else b)) (fun x y hy hx => ?_) g
    ⟨(Dev.Only.refl _ _ d).congr hr, hn⟩
  · unfold Dev.txMove
    rw [hloop.2]
    exact hloop.1
  · obtain ⟨ho, hnone⟩ := hx
    have hy3 : y < 3 := by
      have := (List.mem_filter.1 hy).1
      simp only [List.mem_cons, List.not_mem_nil, or_false] at this
      omega
    have hl := Dev.engLine_view (p := Wave.txNext) (fun _ _ => rfl) x y b w
    refine ⟨(ho.trans (x.engLine_only hy3 b)).when _ _ fun _ => (ho.trans (x.engLine_only hy3 b)).congr (by simp [Dev.engSend]), ?_⟩
    rw [hnone] at hl
    refine Dev.when_keeps (P := fun z => (z.wave w).txNext = none) _ _ _ hl fun hz => ?_
    simpa [Dev.engSend] using hz

@[simp] theorem Dev.superframeSent_time (d : Dev) (w n : Nat) : (d.superframeSent w n).time = d.time := by
  unfold Dev.superframeSent
  dsimp only
  split <;> simp [Dev.sendFrames_time]

theorem Dev.superframeSent_counts (d : Dev) (w n : Nat) : ((d.superframeSent w n).wave w).txSfn = n ∧ ((d.superframeSent w n).wave w).txFnum = 0 := by
  unfold Dev.superframeSent
  simp

theorem Dev.superframeSent_only {d : Dev} {w : Nat} (h : (d.wave w).txNext = none) (n : Nat) : d.Only txRegs [] (d.superframeSent w n) := by
  unfold Dev.superframeSent
  dsimp only
  split
  · exact (Dev.Only.refl _ _ d).congr (Dev.setWave_keeps _ _ _).1
  · exact (Dev.sendFrames_only h _ _).congr (Dev.setWave_keeps _ _ _).1

/-! ### Time of day (R169, R355) -/

/-- The stamp kept with the number of a superframe is one of those kept. -/
theorem kept_find {l : List (Nat × Stamp)} {n : Nat} :
    (∀ x ∈ l, x.1 = n → ∃ y ∈ l, y.1 = n ∧ ((l.find? fun x => x.1 == n).map (·.2)) = some y.2)
      ∧ ((∀ x ∈ l, x.1 ≠ n) → ((l.find? fun x => x.1 == n).map (·.2)) = none) := by
  refine ⟨fun x hx hn => ?_, fun h => ?_⟩
  · obtain ⟨y, hy⟩ := Option.isSome_iff_exists.1 (List.find?_isSome (p := fun x : Nat × Stamp => x.1 == n) |>.2 ⟨x, hx, by simpa using hn⟩)
    exact ⟨y, List.mem_of_find?_eq_some hy, by simpa using List.find?_some hy, by rw [hy]; rfl⟩
  · have hnone : (l.find? fun x => x.1 == n) = none := List.find?_eq_none.2 fun x hx => by simpa using h x hx
    rw [hnone]
    rfl

theorem Dev.get_raiseWords (d : Dev) {n : Nat} (det : List Word) (l : List Nat) (h : neverRaised n = false) {f : Fld} (hf : f.addr ∉ evtRegs n) :
    (d.raiseWords n det l).get f = d.get f := by
  simp only [Dev.get, Dev.reg_congr (Dev.raiseWords_regs d det l h), Dev.reg_evtMark_ne d n hf]

/-- An event raised with words of its own shows as every other. -/
theorem Dev.Only.raised_raiseWords {l evs : List Nat} {d e : Dev} (h : d.Only l evs e) {n : Nat} (det : List Word) (addrs : List Nat) (hn : n ∉ evs)
    (hl : R.hrtEvtSrcCtl n ∉ l) (hv : neverRaised n = false) : d.Raised n (e.raiseWords n det addrs) :=
  (h.raised_raise [] hn hl hv).of_ctl rfl (Dev.reg_congr ((Dev.raiseWords_regs e det addrs hv).trans (Dev.raise_regs e n [] hv).symm) _)

theorem neverRaised_tod (w : Fin 2) : neverRaised (0x8A + w) = false := by revert w; decide

/-- A message with an impossible field leaves the counter alone. -/
theorem Dev.ctlFld_time (d : Dev) (w : Nat) : (d.ctlFld w).time = d.time := by simp [Dev.ctlFld, Dev.sfEvent]

/-- Settles O43: the counter through the boundaries of a superframe and the stamps they leave. -/
theorem stampsAndTimeOfDayAreKept : Obligations.StampsAndTimeOfDayAreKept := by
  refine ⟨?_, ?_, ?_, ?_, ?_, ?_, ?_, ?_⟩
  · intro w n
    refine State.of_sent ?_ fun _ h => h
    intro s hs hgap hserv hleaf hbcnv hst
    simp only [exec, execSuperframeStamp]
    refine State.run_ends hs rfl fun t ht hout hfz => ?_
    have hok : (!((s.dev.wave w).gap || (s.dev.serving w).isNone) && s.dev.get (F.lfScsAlnState w (s.dev.get (F.lfAlnStatBcnsc w))) == 2
        && (!(s.dev.wave w).leaf || s.dev.flag (F.lfAlnStatBcnv w))) = true := by
      simp [hgap, Option.isSome_iff_ne_none.2 hserv, hleaf, hst, Dev.flag, hbcnv]
    simp only [Fin.val_zero, if_true, if_pos hleaf, hok, Dev.when_true] at ht
    have honly := (s.dev.silenceTick_only w).congr (Dev.setWave_keeps (s.dev.silenceTick w) w fun v => v.settle n.toNat).1
    have htime : ((s.dev.silenceTick w).setWave w fun v => v.settle n.toNat).time = s.dev.time := by simp
    generalize ((s.dev.silenceTick w).setWave w fun v => v.settle n.toNat) = e at ht honly htime
    simp only [Dev.stampStart, if_true] at ht
    refine ⟨?_, ?_, ?_, ?_⟩
    · rw [ht.wl, Dev.wl_setWl_self, Dev.now_congr htime]
    · rw [ht.wl, Dev.wl_setWl_self, Dev.now_congr htime, Dev.wl_congr htime]
    · rw [ht.wl, Dev.wl_setWl_self, Dev.wl_congr htime]
    · exact ht.only.2 (honly.congr (Dev.setWl_regs _ _ _))
  · intro w n
    refine State.of_sent ?_ fun _ h => h
    intro s hs hgap
    simp only [exec, execSuperframeStamp]
    refine ⟨?_, ?_⟩
    · refine State.run_ends hs rfl fun t ht hout hfz => ?_
      simp only [Fin.val_zero, if_true, hgap, Bool.true_or, Bool.not_true, Bool.false_and, Dev.when_false] at ht
      rw [ht.same.time]
      simp
    · refine State.run_ends hs rfl fun t ht hout hfz => ?_
      simp only [Fin.val_one, Nat.one_ne_zero, if_false, if_true, hgap, Bool.true_or, Bool.not_true, Dev.when_false] at ht
      refine ⟨?_, ?_⟩
      · rw [ht.same.time, Dev.superframeSent_time]
      · rw [ht.wave, (Dev.superframeSent_counts _ _ _).1]
  · intro w n
    refine State.of_sent ?_ fun _ h => h
    intro s hs hgap hserv
    simp only [exec, execSuperframeStamp]
    refine State.run_ends hs rfl fun t ht hout hfz => ?_
    have hok : (!((s.dev.wave w).gap || (s.dev.serving w).isNone)) = true := by simp [hgap, Option.isSome_iff_ne_none.2 hserv]
    simp only [Fin.val_one, Nat.one_ne_zero, if_false, if_true, hok, Dev.when_true] at ht
    have htime := s.dev.superframeSent_time w n.toNat
    have hcount := s.dev.superframeSent_counts w n.toNat
    have honly : s.dev.TxSettled → _ := fun h => Dev.superframeSent_only (h w w.isLt) n.toNat
    generalize s.dev.superframeSent w n.toNat = e at ht htime hcount honly
    simp only [Dev.stampStart, Nat.one_ne_zero, if_false, if_true] at ht
    refine ⟨?_, ?_, ?_, ?_, fun h => ?_⟩
    · rw [ht.wl, Dev.wl_setWl_self, Dev.now_congr htime]
    · rw [ht.wl, Dev.wl_setWl_self, Dev.wl_congr htime]
    · rw [ht.wave, Dev.wave_setWl, hcount.1]
    · rw [ht.wave, Dev.wave_setWl, hcount.2]
    · exact ht.only.2 ((honly h).congr (Dev.setWl_regs _ _ _))
  · intro w n
    refine State.of_sent ?_ fun _ h => h
    intro s hs
    simp only [exec, execSuperframeStamp]
    refine State.run_ends hs rfl fun t ht hout hfz => ?_
    simp only [Fin.val_two, OfNat.ofNat_ne_zero, OfNat.ofNat_ne_one, if_false, Dev.stampStart] at ht
    refine ⟨?_, ?_, ?_, ?_⟩
    · rw [ht.wl, Dev.wl_setWl_self]
    · rw [ht.wl, Dev.wl_setWl_self]
    · rw [ht.wl, Dev.wl_setWl_self]
    · exact ht.only.2 ((Dev.Only.refl _ _ _).congr (Dev.setWl_regs _ _ _))
  · intro w rsfn sec ns frac
    refine State.of_sent ?_ fun _ h => h
    intro s hs hleaf hst hns
    simp only [exec, execTimeOfDay]
    refine exists_comm.1 ⟨⟨rsfn.toNat, sec.toNat, ns.toNat, frac.toNat, ((s.dev.wl w).kept.find? fun x => x.1 == rsfn.toNat).map (·.2)⟩, ?_⟩
    refine State.run_ends hs rfl fun t ht hout hfz => ?_
    have hrx : s.dev.timeOfDayRx w rsfn.toNat sec.toNat ns.toNat frac.toNat = s.dev.timeOfDay w rsfn.toNat sec.toNat ns.toNat frac.toNat := by
      unfold Dev.timeOfDayRx
      rw [if_neg (by simp [hleaf]; omega), if_neg (by simp [hst])]
    rw [hrx, Dev.timeOfDay] at ht
    have hnever := neverRaised_tod w
    generalize hf : (fun x : WlTime =>
      { x with tod := ⟨rsfn.toNat, sec.toNat, ns.toNat, frac.toNat, ((s.dev.wl w).kept.find? fun x : Nat × Stamp => x.1 == rsfn.toNat).map fun x : Nat × Stamp => x.2⟩ }) = f at ht
    have hmark : s.dev.Only [R.hrtTimWlTodfrac w] [] ((s.dev.setWl w f).count (F.hrtTimWlTodfracTodcnt w) 1) :=
      ((Dev.Only.refl _ _ s.dev).congr (Dev.setWl_regs _ _ f)).count _ _ (by simp [F.hrtTimWlTodfracTodcnt])
    have hmem : R.hrtEvtSrcCtl (0x8A + w) ∉ [R.hrtTimWlTodfrac w] := by
      simp only [R.hrtEvtSrcCtl, R.hrtTimWlTodfrac, List.mem_singleton]
      omega
    have hcnt := Dev.get_count_self (s.dev.setWl w f) (F.hrtTimWlTodfracTodcnt w) 1 (by simp [Fld.fits, F.hrtTimWlTodfracTodcnt])
    have htime : (((s.dev.setWl w f).count (F.hrtTimWlTodfracTodcnt w) 1).wl w) = f (s.dev.wl w) :=
      (Dev.wl_congr (by simp) w).trans (Dev.wl_setWl_self _ _ _)
    generalize (s.dev.setWl w f).count (F.hrtTimWlTodfracTodcnt w) 1 = e at ht hmark hcnt htime
    refine ⟨?_, rfl, kept_find.1, kept_find.2, ?_, ?_, ?_⟩
    · rw [ht.wl, Dev.wl_congr (Dev.raiseWords_quiet _ _ _ hnever).time, htime, ← hf]
    · rw [ht.get, Dev.get_raiseWords _ _ _ hnever (by simp [F.hrtTimWlTodfracTodcnt, evtRegs, R.hrtTimWlTodfrac, R.hrtEvtSrcCtl, R.hrtEvtSrcFirstns, R.hrtEvtSrcFirstw]; omega), hcnt]
      rfl
    · exact ht.raised.2 (hmark.raised_raiseWords _ _ (by simp) hmem hnever)
    · exact ht.only.2 ((hmark.mono (fun _ h => h) (by simp)).raiseWords _ _ hnever (by simp))
  · intro w rsfn sec ns frac
    refine State.of_sent ?_ fun _ h => h
    intro s hs hns
    simp only [exec, execTimeOfDay]
    refine State.run_ends hs rfl fun t ht hout hfz => ?_
    have hrx : s.dev.timeOfDayRx w rsfn.toNat sec.toNat ns.toNat frac.toNat = s.dev.ctlFld w := by
      unfold Dev.timeOfDayRx
      rw [if_pos (by simp; omega)]
    rw [hrx] at ht
    have honly := ((Dev.Only.refl [R.lfCtlErr w] [] s.dev).count (F.lfCtlErrFld w) 1 (by simp [F.lfCtlErrFld])).sfEvent (c := 10) w.isLt
      (by decide) (by simp) (fun a ha => by simp only [List.mem_singleton, R.lfCtlErr] at ha; omega) [R.lfCtlErr w]
    refine ⟨?_, ?_, ?_⟩
    · rw [ht.same.time, Dev.ctlFld_time]
    · rw [ht.get, Dev.ctlFld, Dev.get_sfEvent _ _ _ _ (by simp only [F.lfCtlErrFld, R.lfCtlErr]; omega),
        Dev.get_count_self _ _ _ (by simp [Fld.fits, F.lfCtlErrFld])]
    · exact ht.only.2 honly.2
  · intro w e
    refine State.of_sent ?_ fun _ h => h
    intro s hs hleaf hmaster hsfn hrel he hlt
    simp only [exec, execTodSend]
    refine State.run_ends hs rfl fun t ht hout hfz => ?_
    rw [if_neg (by simp [hleaf, hmaster, hsfn, hrel]), ← he, if_neg (by omega)] at ht
    refine ⟨?_, ?_⟩
    · rw [ht.wave, Dev.sendCtrl, Dev.wave_setWave_self]
    · exact ht.only.2 ((Dev.Only.refl _ _ _).congr (Dev.setWave_keeps _ _ _).1)
  · intro w
    refine State.of_sent ?_ fun _ h => h
    intro s hs hleaf hmaster hsfn hrel hle
    simp only [exec, execTodSend]
    refine State.run_ends hs rfl fun t ht hout hfz => ?_
    rw [if_neg (by simp [hleaf, hmaster, hsfn, hrel]), if_pos hle] at ht
    have honly := (Dev.Only.refl [R.hrtTimStat] [] s.dev).count F.hrtTimStatTodskip 1 (by simp [F.hrtTimStatTodskip])
    refine ⟨?_, ?_, ?_, ?_⟩
    · rw [ht.same.waves, (Dev.raise_quiet _ _ _).waves]
      simp
    · rw [ht.get, Dev.get_raise _ _ _ (.inl (by simp [F.hrtTimStatTodskip, R.hrtTimStat])), Dev.get_count_self _ _ _ (by simp [Fld.fits, F.hrtTimStatTodskip])]
      rfl
    · exact ht.raised.2 (honly.raised_raise _ (by simp) (by simp [R.hrtEvtSrcCtl, R.hrtTimStat]) (by decide))
    · exact ht.only.2 ((honly.mono (fun _ h => h) (by simp)).raise _ _ (by simp))

end Sys2Proof.Machine
end

section
/-!
PROOFS. Reads that are answered at once, the groups they latch (R352), and PPS (R357, R358).
-/

namespace Sys2Proof.Machine

set_option Elab.async false

/-! ### Reads that are answered at once -/

theorem Dev.latchGroup_time (d : Dev) (a : Nat) : (d.latchGroup a).time = d.time := by
  unfold Dev.latchGroup
  split
  · simp [Dev.latchNs]
  · split
    · simp
    · refine Dev.each_time _ _ _ fun e w => ?_
      repeat' split
      all_goals simp

theorem Dev.latchBytes_time (d : Dev) (p : Nat) (rx : Bool) : (d.latchBytes p rx).time = d.time := by
  unfold Dev.latchBytes
  cases rx <;> simp

/-- A read moves no tick. -/
theorem Dev.readEffect_time (d : Dev) (a : Nat) (r : RegAt) : (d.readEffect a r).time = d.time := by
  unfold Dev.readEffect
  split
  all_goals simp [Dev.latchGroup_time, Dev.latchBytes_time]

/-- Where an access is answered at once, a read of a whole register is the access path's only work. -/
theorem Dev.arrive_read_of_answers {d : Dev} {a : Nat} (h : d.Answers a) {r : RegAt} (he : emberOfs a = none) (hr : decodeAddr a = some r)
    (fz : Fuses) (written : List (BitVec 64)) :
    ∃ l, d.arrive fz a 4 none written
      = (((d.setWaiting l).readEffect a r).emit (.readDone a ((d.setWaiting l).readValue fz a r))).setWaiting [] := by
  obtain ⟨hwait, hlink, hup, hpath, hst⟩ := h
  let x : Access := { addr := a, size := 4, write := none, at_ := d.time.ticks, written := written }
  refine ⟨[x], ?_⟩
  have hst' : (d.setWaiting [x]).cordSt (cordOf x.addr) = 2 ∨ (d.setWaiting [x]).cordSt (cordOf x.addr) = 3 := hst
  have hread : (d.setWaiting [x]).readAccess fz a 4
      = ((d.setWaiting [x]).readEffect a r).emit (.readDone a ((d.setWaiting [x]).readValue fz a r)) := by
    unfold Dev.readAccess
    dsimp only
    rw [if_pos ((Dev.pathCode_setWaiting _ _ _ _).trans hpath), he, hr]
  have hticks : (((d.setWaiting [x]).readEffect a r).emit (.readDone a ((d.setWaiting [x]).readValue fz a r))).time.ticks = x.at_ :=
    congrArg TimeSt.ticks (Dev.readEffect_time _ _ _)
  have hlate : ∀ e : Dev, e.time.ticks = x.at_ → e.lateness x = e := fun e he' => by
    unfold Dev.lateness
    rw [show decide (e.get F.pciEpCfgCtowarn * 10000000 < (e.time.ticks - x.at_) * 16) = false by simp [he'], Bool.and_false, Dev.when_false]
  calc d.arrive fz a 4 none written
      = (d.setWaiting [x]).serve fz := by simp [Dev.arrive, hlink, Dev.flag, hup, hwait, Dev.setWaiting, x]
    _ = Dev.serveList fz [x] (d.setWaiting [x]) := by
        have hw : (d.setWaiting [x]).waiting = [x] := rfl
        simp only [Dev.serve, hw, Dev.each_cons, Dev.each_nil, Dev.wakeFor_powered hst']
    _ = (((d.setWaiting [x]).readAccess fz a 4).lateness x).setWaiting [] := by
        simp only [Dev.serveList, Dev.wakeFor_powered hst', Dev.mustWait_powered hst']
        rfl
    _ = _ := by rw [hread, hlate _ hticks]

/-- A host read that is answered at once ends as its effect does, with the value. -/
theorem State.read_answers {s : State} {a : Nat} {written : List (BitVec 64)} {o : Host.Outcome State Fault Refusal} {P : State → Prop} {r : RegAt}
    (hs : s.dev.out = []) (ho : o = s.run fun fz d => d.arrive fz a 4 none written) (ha : s.dev.Answers a) (he : emberOfs a = none)
    (hr : decodeAddr a = some r) {g : Dev → Dev} (hg : ∀ d : Dev, d.readEffect a r = g d)
    (h : ∀ l t, (((g (s.dev.setWaiting l)).emit (.readDone a ((s.dev.setWaiting l).readValue s.fuses a r))).setWaiting []).EndsAs t.dev →
      t.outputs = .readDone a ((s.dev.setWaiting l).readValue s.fuses a r) :: (g (s.dev.setWaiting l)).out ++ s.outputs → P t) :
    ∃ t, o = .next t ∧ P t := by
  obtain ⟨l, hl⟩ := Dev.arrive_read_of_answers ha he hr s.fuses written
  rw [hg] at hl
  refine State.run_ends hs ho fun t hends hout _ => h l t ?_ ?_
  · rwa [hl] at hends
  · rw [hout, hl]
    rfl

/-- A register of one field of 32 bits is read whole. -/
theorem RegRow.only_whole {r : RegRow} {ty : FieldType} {rg : FieldRange} (h : r.fields = [⟨0, 32, ty, rg⟩]) (hty : ty ≠ .wo) (v : Word) :
    r.only (· != .wo) v = v := by
  have hp : (ty != FieldType.wo) = true := by simpa using hty
  simp only [RegRow.only, h, List.foldl_cons, List.foldl_nil, hp, if_true]
  refine BitVec.eq_of_getLsbD_eq fun i hi => ?_
  rw [Fld.getLsbD_put _ _ _ _ hi, if_pos (by simp [FieldRow.fld]; omega), Fld.testBit_of]
  simp [FieldRow.fld, hi]

/-- A register without an RC field stands through its reading. -/
theorem RegRow.afterRead_of_kept {r : RegRow} (h : ∀ f ∈ r.fields, f.ty ≠ .rc) (a : Nat) (v : Word) : r.afterRead a v = v := by
  unfold RegRow.afterRead
  refine List.foldlRecOn r.fields _ (motive := fun x => x = v) rfl fun x hx f hf => ?_
  split
  · exact absurd ‹_› (h f hf)
  all_goals exact hx

theorem Dev.setReg_same (d : Dev) (a b : Nat) : (d.setReg a (d.reg a)).reg b = d.reg b := by
  by_cases h : b = a
  · rw [h, Dev.reg_setReg_self]
  · exact Dev.reg_setReg_ne _ _ h

/-! ### Groups of registers (R352) -/

theorem Dev.latchGroup_out (d : Dev) (a : Nat) : (d.latchGroup a).out = d.out := by
  unfold Dev.latchGroup
  split
  · simp [Dev.latchNs]
  · split
    · simp
    · refine Dev.each_keeps (P := fun e => e.out = d.out) _ _ (fun e w _ he => ?_) _ rfl
      rw [← he]
      repeat' split
      all_goals simp

/-- A register of the counter is read: it shows the counter, and the rest of its group is latched. -/
theorem State.group_read {s : State} {a : Nat} {n : Dev → Nat} {P : State → Prop} {r : RegAt} (hs : s.dev.out = [])
    (ha : s.dev.Answers a) (he : emberOfs a = none) (hr : decodeAddr a = some r) (hro : ∀ f ∈ r.row.fields, f.ty = .ro)
    (heff : ∀ d : Dev, d.readEffect a r = (d.setReg a (r.row.afterRead a (d.reg a))).latchGroup a)
    (hraw : ∀ (fz : Fuses) (d : Dev), d.rawValue fz a r = BitVec.ofNat 32 (n d)) (hn : ∀ d e : Dev, e.time = d.time → n e = n d)
    (h : ∀ (e : Dev) t, s.dev.Only [] [] e → e.time = s.dev.time → (e.latchGroup a).regs = t.dev.regs → t.dev.time = s.dev.time →
      t.outputs = .readDone a (r.row.only (· != .wo) (BitVec.ofNat 32 (n s.dev))) :: s.outputs → P t) : ∃ t, s.hostRead a = .next t ∧ P t := by
  have hkept : ∀ f ∈ r.row.fields, f.ty ≠ .rc := fun f hf => by simp [hro f hf]
  refine State.read_answers hs rfl ha he hr heff fun l t ht hout => ?_
  have honly : s.dev.Only [] [] ((s.dev.setWaiting l).setReg a (r.row.afterRead a ((s.dev.setWaiting l).reg a))) := by
    rw [RegRow.afterRead_of_kept hkept]
    exact fun b _ _ => Dev.setReg_same (s.dev.setWaiting l) a b
  have htime : ((s.dev.setWaiting l).setReg a (r.row.afterRead a ((s.dev.setWaiting l).reg a))).time = s.dev.time := rfl
  have hout0 : ((s.dev.setWaiting l).setReg a (r.row.afterRead a ((s.dev.setWaiting l).reg a))).out = [] := hs
  generalize (s.dev.setWaiting l).setReg a (r.row.afterRead a ((s.dev.setWaiting l).reg a)) = e at ht hout honly htime hout0
  refine h e t honly htime ht.regs.symm ?_ ?_
  · rw [ht.same.time]
    exact (Dev.latchGroup_time e a).trans htime
  · rw [hout, Dev.latchGroup_out, hout0, Dev.readValue, hraw, hn s.dev (s.dev.setWaiting l) rfl]
    rfl

/-- The rest of the group of each first register. -/
theorem Dev.latchGroup_pps (d : Dev) : d.latchGroup R.hrtTimPpsinns = d.set F.hrtTimPpsinsubSub d.time.pps.sub := by
  simp [Dev.latchGroup, R.hrtTimPpsinns, R.hrtTimNs]

theorem Dev.latchGroup_rxSfn (d : Dev) (w : Fin 2) : d.latchGroup (R.hrtTimWlRxsfn w)
    = (d.set (F.hrtTimWlRxnsNs w) (d.wl w).rx.2.ns).set (F.hrtTimWlRxsubSub w) (d.wl w).rx.2.sub := by
  fin_cases w <;>
    simp [Dev.latchGroup, R.hrtTimPpsinns, R.hrtTimNs, R.hrtTimWlRxsfn, R.hrtTimWlTxsfn, R.hrtTimWlBseq, R.hrtTimWlTodrsfn]

theorem Dev.latchGroup_txSfn (d : Dev) (w : Fin 2) : d.latchGroup (R.hrtTimWlTxsfn w)
    = (d.set (F.hrtTimWlTxnsNs w) (d.wl w).tx.2.ns).set (F.hrtTimWlTxsubSub w) (d.wl w).tx.2.sub := by
  fin_cases w <;>
    simp [Dev.latchGroup, R.hrtTimPpsinns, R.hrtTimNs, R.hrtTimWlRxsfn, R.hrtTimWlTxsfn, R.hrtTimWlBseq, R.hrtTimWlTodrsfn]

/-- The stamp of the newest burst, zero where there was none. -/
def WlTime.burstAt (x : WlTime) : Stamp := (x.burst.map fun b => b.2).getD {}

theorem Dev.latchGroup_bseq (d : Dev) (w : Fin 2) : d.latchGroup (R.hrtTimWlBseq w)
    = (d.set (F.hrtTimWlBnsNs w) (d.wl w).burstAt.ns).set (F.hrtTimWlBsubSub w) (d.wl w).burstAt.sub := by
  unfold WlTime.burstAt
  fin_cases w <;>
    simp [Dev.latchGroup, R.hrtTimPpsinns, R.hrtTimNs, R.hrtTimWlRxsfn, R.hrtTimWlTxsfn, R.hrtTimWlBseq, R.hrtTimWlTodrsfn]

theorem Dev.latchGroup_tod (d : Dev) (w : Fin 2) : d.latchGroup (R.hrtTimWlTodrsfn w)
    = ((((((d.set (F.hrtTimWlTodsechiSec w) ((d.wl w).tod.sec / 2 ^ 32)).set (F.hrtTimWlTodsecloSec w) (d.wl w).tod.sec).set
        (F.hrtTimWlTodnsNs w) (d.wl w).tod.ns).set (F.hrtTimWlTodfracFrac w) (d.wl w).tod.frac).setFlag (F.hrtTimWlTodfracLocv w)
          (d.wl w).tod.loc.isSome).set (F.hrtTimWlLocnsNs w) ((d.wl w).tod.loc.getD {}).ns).set (F.hrtTimWlLocsubSub w) ((d.wl w).tod.loc.getD {}).sub := by
  fin_cases w <;>
    simp [Dev.latchGroup, R.hrtTimPpsinns, R.hrtTimNs, R.hrtTimWlRxsfn, R.hrtTimWlTxsfn, R.hrtTimWlBseq, R.hrtTimWlTodrsfn]

/-! ### The registers that begin a group -/

/-- One field of 32 bits that the device writes alone. -/
def roWord : List FieldRow := [⟨0, 32, .ro, .any⟩]

theorem decodeAddr_ppsInNs : ∃ r, decodeAddr R.hrtTimPpsinns = some r ∧ r.row.name = .hrtTimPpsinns ∧ r.row.fields = roWord := by
  have h : (decodeAddr R.hrtTimPpsinns).map (fun r => (r.row.name, r.row.fields)) = some (.hrtTimPpsinns, roWord) := by decide +kernel
  simpa [Option.map_eq_some_iff] using h

theorem decodeAddr_wlRxsfn (w : Fin 2) : ∃ r, decodeAddr (R.hrtTimWlRxsfn w) = some r ∧ r.row.name = .hrtTimWlRxsfn ∧ r.row.fields = roWord := by
  have h : (decodeAddr (R.hrtTimWlRxsfn w)).map (fun r => (r.row.name, r.row.fields)) = some (.hrtTimWlRxsfn, roWord) := by revert w; decide +kernel
  simpa [Option.map_eq_some_iff] using h

theorem decodeAddr_wlTxsfn (w : Fin 2) : ∃ r, decodeAddr (R.hrtTimWlTxsfn w) = some r ∧ r.row.name = .hrtTimWlTxsfn ∧ r.row.fields = roWord := by
  have h : (decodeAddr (R.hrtTimWlTxsfn w)).map (fun r => (r.row.name, r.row.fields)) = some (.hrtTimWlTxsfn, roWord) := by revert w; decide +kernel
  simpa [Option.map_eq_some_iff] using h

theorem decodeAddr_wlTodrsfn (w : Fin 2) :
    ∃ r, decodeAddr (R.hrtTimWlTodrsfn w) = some r ∧ r.row.name = .hrtTimWlTodrsfn ∧ r.row.fields = roWord := by
  have h : (decodeAddr (R.hrtTimWlTodrsfn w)).map (fun r => (r.row.name, r.row.fields)) = some (.hrtTimWlTodrsfn, roWord) := by
    revert w; decide +kernel
  simpa [Option.map_eq_some_iff] using h

theorem decodeAddr_wlBseq (w : Fin 2) : ∃ r, decodeAddr (R.hrtTimWlBseq w) = some r ∧ r.row.name = .hrtTimWlBseq
    ∧ r.row.fields = [⟨0, 8, .ro, .any⟩, ⟨31, 1, .ro, .any⟩] := by
  have h : (decodeAddr (R.hrtTimWlBseq w)).map (fun r => (r.row.name, r.row.fields))
      = some (.hrtTimWlBseq, [⟨0, 8, .ro, .any⟩, ⟨31, 1, .ro, .any⟩]) := by revert w; decide +kernel
  simpa [Option.map_eq_some_iff] using h

/-- The sequence of a burst shows with the bit that says there was one. -/
theorem RegRow.only_bseq {r : RegRow} (h : r.fields = [⟨0, 8, .ro, .any⟩, ⟨31, 1, .ro, .any⟩]) {n : Nat} (hn : n < 256) :
    r.only (· != .wo) (BitVec.ofNat 32 (n + 2 ^ 31)) = BitVec.ofNat 32 (2 ^ 31 + n) := by
  have hall : ∀ n : Fin 256, [(⟨0, 8, .ro, .any⟩ : FieldRow), ⟨31, 1, .ro, .any⟩].foldl
      (fun a f => if (f.ty != .wo) = true then (f.fld 0).put a ((f.fld 0).of (BitVec.ofNat 32 (n.val + 2 ^ 31))) else a) 0
        = BitVec.ofNat 32 (2 ^ 31 + n.val) := by decide +kernel
  rw [RegRow.only, h]
  exact hall ⟨n, hn⟩

/-! ### Byte counts of a port -/

theorem decodeAddr_rxBytes (p : Fin 96) : ∃ r, decodeAddr (R.hsMacRxbylo p) = some r ∧ r.row.name = .hsMacRxbylo ∧ r.port = p
    ∧ r.row.fields = [⟨0, 32, .rc, .any⟩] := by
  have h : (decodeAddr (R.hsMacRxbylo p)).map (fun r => (r.row.name, r.port, r.row.fields)) = some (.hsMacRxbylo, p.val, [⟨0, 32, .rc, .any⟩]) := by
    revert p; decide +kernel
  simpa [Option.map_eq_some_iff] using h

theorem decodeAddr_txBytes (p : Fin 96) : ∃ r, decodeAddr (R.hsMacTxbylo p) = some r ∧ r.row.name = .hsMacTxbylo ∧ r.port = p
    ∧ r.row.fields = [⟨0, 32, .rc, .any⟩] := by
  have h : (decodeAddr (R.hsMacTxbylo p)).map (fun r => (r.row.name, r.port, r.row.fields)) = some (.hsMacTxbylo, p.val, [⟨0, 32, .rc, .any⟩]) := by
    revert p; decide +kernel
  simpa [Option.map_eq_some_iff] using h

/-- The counter does not show at a port's registers. -/
theorem Dev.timeView_none (d : Dev) {a : Nat} (h : 0x40000 ≤ a) : d.timeView a = none := by
  unfold Dev.timeView
  rw [if_neg (by simp only [R.hrtTimNs]; omega), if_neg (by simp only [R.hrtTimPpsinns]; omega), List.findSome?_eq_none_iff]
  intro w hw
  simp only [List.mem_cons, List.not_mem_nil, or_false] at hw
  dsimp only
  rw [if_neg (by simp only [R.hrtTimWlRxsfn]; omega), if_neg (by simp only [R.hrtTimWlTxsfn]; omega), if_neg (by simp only [R.hrtTimWlBseq]; omega),
    if_neg (by simp only [R.hrtTimWlTodrsfn]; omega)]

theorem Dev.timeView_pps (d : Dev) : d.timeView R.hrtTimPpsinns = some d.time.pps.ns := by simp [Dev.timeView, R.hrtTimNs, R.hrtTimPpsinns]

theorem Dev.timeView_rxSfn (d : Dev) (w : Fin 2) : d.timeView (R.hrtTimWlRxsfn w) = some (d.wl w).rx.1 := by
  fin_cases w <;> simp [Dev.timeView, R.hrtTimPpsinns, R.hrtTimNs, R.hrtTimWlRxsfn, R.hrtTimWlTxsfn, R.hrtTimWlBseq, R.hrtTimWlTodrsfn]

theorem Dev.timeView_txSfn (d : Dev) (w : Fin 2) : d.timeView (R.hrtTimWlTxsfn w) = some (d.wl w).tx.1 := by
  fin_cases w <;> simp [Dev.timeView, R.hrtTimPpsinns, R.hrtTimNs, R.hrtTimWlRxsfn, R.hrtTimWlTxsfn, R.hrtTimWlBseq, R.hrtTimWlTodrsfn]

theorem Dev.timeView_tod (d : Dev) (w : Fin 2) : d.timeView (R.hrtTimWlTodrsfn w) = some (d.wl w).tod.rsfn := by
  fin_cases w <;> simp [Dev.timeView, R.hrtTimPpsinns, R.hrtTimNs, R.hrtTimWlRxsfn, R.hrtTimWlTxsfn, R.hrtTimWlBseq, R.hrtTimWlTodrsfn]

/-- What the register of a burst's sequence shows. -/
def WlTime.bseq (x : WlTime) : Nat :=
  match x.burst with
  | some b => b.1 + 2 ^ 31
  | none => 0

theorem Dev.timeView_bseq (d : Dev) (w : Fin 2) : d.timeView (R.hrtTimWlBseq w) = some (d.wl w).bseq := by
  unfold WlTime.bseq
  fin_cases w <;> simp [Dev.timeView, R.hrtTimPpsinns, R.hrtTimNs, R.hrtTimWlRxsfn, R.hrtTimWlTxsfn, R.hrtTimWlBseq, R.hrtTimWlTodrsfn] <;> rfl

/-- Two registers latched with the first of their group. -/
theorem Dev.set_two (d : Dev) (f g : Fld) (x y : Nat) (hf : f.fits) (hg : g.fits) (h : f.addr ≠ g.addr) :
    ((d.set f x).set g y).get f = x % 2 ^ f.width ∧ ((d.set f x).set g y).get g = y % 2 ^ g.width
      ∧ d.Only [f.addr, g.addr] [] ((d.set f x).set g y) := by
  refine ⟨?_, Dev.get_set_self _ _ _ hg, ?_⟩
  · rw [Dev.get_set_ne _ _ h, Dev.get_set_self _ _ _ hf]
  · exact ((Dev.Only.refl _ _ d).set _ _ (by simp)).set _ _ (by simp)

/-- The fields of a message of time of day, latched one after the other. -/
theorem Dev.latchGroup_tod_shows (d : Dev) (w : Fin 2) (m : TodRec) (h : (d.wl w).tod = m) (e : Dev) (he : e = d.latchGroup (R.hrtTimWlTodrsfn w)) :
    e.get (F.hrtTimWlTodsecloSec w) = m.sec % 2 ^ 32 ∧ e.get (F.hrtTimWlTodsechiSec w) = m.sec / 2 ^ 32 % 2 ^ 16
      ∧ e.get (F.hrtTimWlTodnsNs w) = m.ns % 2 ^ 32 ∧ e.get (F.hrtTimWlTodfracFrac w) = m.frac % 2 ^ 16
      ∧ e.get (F.hrtTimWlTodfracLocv w) = (if m.loc = none then 0 else 1)
      ∧ e.get (F.hrtTimWlLocnsNs w) = (m.loc.getD {}).ns % 2 ^ 32 ∧ e.get (F.hrtTimWlLocsubSub w) = (m.loc.getD {}).sub % 2 ^ 16
      ∧ e.get (F.hrtTimWlTodfracTodcnt w) = d.get (F.hrtTimWlTodfracTodcnt w) := by
  rw [Dev.latchGroup_tod, h] at he
  subst he
  have hlocsub : ∀ (c : Dev) (x : Nat) (f : Fld), f.addr ≠ R.hrtTimWlLocsub w → (c.set (F.hrtTimWlLocsubSub w) x).get f = c.get f :=
    fun c x f hf => Dev.get_set_ne _ _ hf
  have hlocns : ∀ (c : Dev) (x : Nat) (f : Fld), f.addr ≠ R.hrtTimWlLocns w → (c.set (F.hrtTimWlLocnsNs w) x).get f = c.get f :=
    fun c x f hf => Dev.get_set_ne _ _ hf
  have hlocv : ∀ (c : Dev) (x : Bool) (f : Fld), f.fits → (F.hrtTimWlTodfracLocv w).apart f → (c.setFlag (F.hrtTimWlTodfracLocv w) x).get f = c.get f :=
    fun c x f hf ha => Dev.get_setFlag_apart _ _ _ _ hf ha
  have hfrac : ∀ (c : Dev) (x : Nat) (f : Fld), f.fits → (F.hrtTimWlTodfracFrac w).apart f → (c.set (F.hrtTimWlTodfracFrac w) x).get f = c.get f :=
    fun c x f hf ha => Dev.get_set_apart _ _ _ _ hf ha
  have hns : ∀ (c : Dev) (x : Nat) (f : Fld), f.addr ≠ R.hrtTimWlTodns w → (c.set (F.hrtTimWlTodnsNs w) x).get f = c.get f :=
    fun c x f hf => Dev.get_set_ne _ _ hf
  have hlo : ∀ (c : Dev) (x : Nat) (f : Fld), f.addr ≠ R.hrtTimWlTodseclo w → (c.set (F.hrtTimWlTodsecloSec w) x).get f = c.get f :=
    fun c x f hf => Dev.get_set_ne _ _ hf
  have hhi : ∀ (c : Dev) (x : Nat) (f : Fld), f.addr ≠ R.hrtTimWlTodsechi w → (c.set (F.hrtTimWlTodsechiSec w) x).get f = c.get f :=
    fun c x f hf => Dev.get_set_ne _ _ hf
  refine ⟨?_, ?_, ?_, ?_, ?_, ?_, ?_, ?_⟩
  · rw [hlocsub, hlocns, hlocv, hfrac, hns, Dev.get_set_self]
    all_goals simp [Fld.fits, Fld.apart, F.hrtTimWlTodsecloSec, F.hrtTimWlTodfracLocv, F.hrtTimWlTodfracFrac, R.hrtTimWlTodseclo, R.hrtTimWlLocsub,
      R.hrtTimWlLocns, R.hrtTimWlTodfrac, R.hrtTimWlTodns]
  · rw [hlocsub, hlocns, hlocv, hfrac, hns, hlo, Dev.get_set_self]
    all_goals simp [Fld.fits, Fld.apart, F.hrtTimWlTodsechiSec, F.hrtTimWlTodfracLocv, F.hrtTimWlTodfracFrac, R.hrtTimWlTodseclo, R.hrtTimWlLocsub,
      R.hrtTimWlLocns, R.hrtTimWlTodfrac, R.hrtTimWlTodns, R.hrtTimWlTodsechi]
  · rw [hlocsub, hlocns, hlocv, hfrac, Dev.get_set_self]
    all_goals simp [Fld.fits, Fld.apart, F.hrtTimWlTodnsNs, F.hrtTimWlTodfracLocv, F.hrtTimWlTodfracFrac, R.hrtTimWlLocsub, R.hrtTimWlLocns,
      R.hrtTimWlTodfrac, R.hrtTimWlTodns]
  · rw [hlocsub, hlocns, hlocv, Dev.get_set_self]
    all_goals simp [Fld.fits, Fld.apart, F.hrtTimWlTodfracLocv, F.hrtTimWlTodfracFrac, R.hrtTimWlLocsub, R.hrtTimWlLocns, R.hrtTimWlTodfrac]
  · rw [hlocsub, hlocns, Dev.get_setFlag_self]
    · cases m.loc <;> simp [F.hrtTimWlTodfracLocv]
    all_goals simp [Fld.fits, F.hrtTimWlTodfracLocv, R.hrtTimWlLocsub, R.hrtTimWlLocns, R.hrtTimWlTodfrac]
  · rw [hlocsub, Dev.get_set_self]
    all_goals simp [Fld.fits, F.hrtTimWlLocnsNs, R.hrtTimWlLocsub, R.hrtTimWlLocns]
  · exact Dev.get_set_self _ _ _ (by simp [Fld.fits, F.hrtTimWlLocsubSub])
  · rw [hlocsub, hlocns, hlocv, hfrac, hns, hlo, hhi]
    all_goals simp [Fld.fits, Fld.apart, F.hrtTimWlTodfracTodcnt, F.hrtTimWlTodfracLocv, F.hrtTimWlTodfracFrac, R.hrtTimWlTodseclo, R.hrtTimWlLocsub,
      R.hrtTimWlLocns, R.hrtTimWlTodfrac, R.hrtTimWlTodns, R.hrtTimWlTodsechi]

/-- A read of the byte count of a port clears its low half and latches its high half (R300). -/
theorem Dev.latchBytes_shows (d : Dev) (p : Nat) :
    ((d.latchBytes p true).get (F.hsMacRxbyloCount p) = 0 ∧ (d.latchBytes p true).get (F.hsMacRxbyhiCount p) = (d.mac p).rxBytes / 2 ^ 32 % 2 ^ 32
      ∧ d.Only [R.hsMacRxbylo p, R.hsMacRxbyhi p] [] (d.latchBytes p true) ∧ (d.latchBytes p true).out = d.out)
    ∧ (d.latchBytes p false).get (F.hsMacTxbyloCount p) = 0 ∧ (d.latchBytes p false).get (F.hsMacTxbyhiCount p) = (d.mac p).txBytes / 2 ^ 32 % 2 ^ 32
      ∧ d.Only [R.hsMacTxbylo p, R.hsMacTxbyhi p] [] (d.latchBytes p false) ∧ (d.latchBytes p false).out = d.out := by
  have hrx := d.set_two (F.hsMacRxbyhiCount p) (F.hsMacRxbyloCount p) ((d.mac p).rxBytes / 2 ^ 32) 0 (by simp [Fld.fits, F.hsMacRxbyhiCount])
    (by simp [Fld.fits, F.hsMacRxbyloCount]) (by simp [F.hsMacRxbyhiCount, F.hsMacRxbyloCount, R.hsMacRxbyhi, R.hsMacRxbylo, hsBase])
  have htx := d.set_two (F.hsMacTxbyhiCount p) (F.hsMacTxbyloCount p) ((d.mac p).txBytes / 2 ^ 32) 0 (by simp [Fld.fits, F.hsMacTxbyhiCount])
    (by simp [Fld.fits, F.hsMacTxbyloCount]) (by simp [F.hsMacTxbyhiCount, F.hsMacTxbyloCount, R.hsMacTxbyhi, R.hsMacTxbylo, hsBase])
  unfold Dev.latchBytes
  simp -implicitDefEqProofs only [if_true, Bool.false_eq_true, if_false, Dev.get_setMac]
  refine ⟨⟨hrx.2.1, hrx.1, (hrx.2.2.mono (fun a ha => ?_) fun _ h => h).congr (Dev.setMac_keeps _ _ _).1, ?_⟩, htx.2.1, htx.1,
    (htx.2.2.mono (fun a ha => ?_) fun _ h => h).congr (Dev.setMac_keeps _ _ _).1, ?_⟩
  · simpa [F.hsMacRxbyhiCount, F.hsMacRxbyloCount, or_comm] using ha
  · simp
  · simpa [F.hsMacTxbyhiCount, F.hsMacTxbyloCount, or_comm] using ha
  · simp

/-- Where no register may have changed, every field stands. -/
theorem Dev.Only.get_nil {d e : Dev} (h : d.Only [] [] e) (f : Fld) : e.get f = d.get f := by
  simp only [Dev.get, h f.addr (by simp) (by simp)]

theorem emberOfs_time {a : Nat} (h : a < 0x40000) : emberOfs a = none := by
  unfold emberOfs
  exact if_neg (by omega)

/-- A read of the byte count of a port. -/
theorem State.bytes_read {s : State} {a : Nat} {P : State → Prop} {r : RegAt} {rx : Bool} (hs : s.dev.out = []) (ha : s.dev.Answers a)
    (he : emberOfs a = none) (hr : decodeAddr a = some r) (hf : r.row.fields = [⟨0, 32, .rc, .any⟩])
    (heff : ∀ d : Dev, d.readEffect a r = (d.setReg a (r.row.afterRead a (d.reg a))).latchBytes r.port rx)
    (hraw : ∀ (fz : Fuses) (d : Dev), d.rawValue fz a r = d.reg a)
    (h : ∀ (e : Dev) t, s.dev.Only [a] [] e → e.out = [] → e.macs = s.dev.macs → (e.latchBytes r.port rx).regs = t.dev.regs →
      t.outputs = .readDone a (s.dev.reg a) :: (e.latchBytes r.port rx).out ++ s.outputs → P t) : ∃ t, s.hostRead a = .next t ∧ P t := by
  refine State.read_answers hs rfl ha he hr heff fun l t ht hout => ?_
  have honly : s.dev.Only [a] [] ((s.dev.setWaiting l).setReg a (r.row.afterRead a ((s.dev.setWaiting l).reg a))) :=
    ((Dev.Only.refl _ _ s.dev).congr (Dev.setWaiting_keeps s.dev l).1).setReg _ (by simp)
  have hout0 : ((s.dev.setWaiting l).setReg a (r.row.afterRead a ((s.dev.setWaiting l).reg a))).out = [] := hs
  have hmacs : ((s.dev.setWaiting l).setReg a (r.row.afterRead a ((s.dev.setWaiting l).reg a))).macs = s.dev.macs := rfl
  generalize (s.dev.setWaiting l).setReg a (r.row.afterRead a ((s.dev.setWaiting l).reg a)) = e at ht hout honly hout0 hmacs
  refine h e t honly hout0 hmacs ht.regs.symm ?_
  rw [hout, Dev.readValue, hraw, RegRow.only_whole hf (by decide)]
  rfl

/-- Settles O42: each read through the access path to the group it latches, and PPS through its commands. -/
theorem capturesAreLatchedAndRead : Obligations.CapturesAreLatchedAndRead := by
  refine ⟨?_, ?_, ?_, ?_, ?_, ?_, ?_, ?_, ?_, ?_, ?_, ?_, ?_⟩
  · refine State.of_sent ?_ fun _ h => h
    intro s hs hans
    obtain ⟨r, hr, hname, hfields⟩ := decodeAddr_ppsInNs
    refine State.group_read (a := R.hrtTimPpsinns) (n := fun d => d.time.pps.ns) hs hans (emberOfs_time (by decide)) hr (by simp [hfields, roWord])
      (fun d => by simp only [Dev.readEffect, hname]) (fun fz d => by simp only [Dev.rawValue, hname, Dev.timeView_pps]) (fun d e h => by rw [h])
      fun e t honly htime hregs _ hout => ?_
    rw [Dev.latchGroup_pps, htime] at hregs
    have hget := fun f => Dev.get_congr hregs.symm f
    refine ⟨?_, ?_, ?_, ?_⟩
    · rw [hout, RegRow.only_whole hfields (by decide)]
    · rw [hget, Dev.get_set_self _ _ _ (by simp [Fld.fits, F.hrtTimPpsinsubSub])]
      rfl
    · rw [hget, Dev.get_set_apart _ _ _ _ (by simp [Fld.fits, F.hrtTimPpsinsubIncnt]) (by simp [Fld.apart, F.hrtTimPpsinsubSub, F.hrtTimPpsinsubIncnt])]
      exact honly.get_nil _
    · exact ((honly.mono (by simp) fun _ h => h).set _ _ (by simp [F.hrtTimPpsinsubSub])).congr hregs.symm
  · intro w
    refine State.of_sent ?_ fun _ h => h
    intro s hs hans
    obtain ⟨r, hr, hname, hfields⟩ := decodeAddr_wlRxsfn w
    refine State.group_read (a := (R.hrtTimWlRxsfn w)) (n := fun d => (d.wl w).rx.1) hs hans (emberOfs_time (by simp only [R.hrtTimWlRxsfn]; omega)) hr (by simp [hfields, roWord])
      (fun d => by simp only [Dev.readEffect, hname]) (fun fz d => by simp only [Dev.rawValue, hname, Dev.timeView_rxSfn])
      (fun d e h => by rw [Dev.wl_congr h]) fun e t honly htime hregs _ hout => ?_
    rw [Dev.latchGroup_rxSfn, Dev.wl_congr htime] at hregs
    obtain ⟨hns, hsub, hset⟩ := e.set_two (F.hrtTimWlRxnsNs w) (F.hrtTimWlRxsubSub w) (s.dev.wl w).rx.2.ns (s.dev.wl w).rx.2.sub
      (by simp [Fld.fits, F.hrtTimWlRxnsNs]) (by simp [Fld.fits, F.hrtTimWlRxsubSub])
      (by simp [F.hrtTimWlRxnsNs, F.hrtTimWlRxsubSub, R.hrtTimWlRxns, R.hrtTimWlRxsub])
    refine ⟨?_, (Dev.get_congr hregs.symm _).trans hns, (Dev.get_congr hregs.symm _).trans hsub, ?_⟩
    · rw [hout, RegRow.only_whole hfields (by decide)]
    · exact ((honly.mono (by simp) fun _ h => h).trans hset).congr hregs.symm
  · intro w
    refine State.of_sent ?_ fun _ h => h
    intro s hs hans
    obtain ⟨r, hr, hname, hfields⟩ := decodeAddr_wlTxsfn w
    refine State.group_read (a := (R.hrtTimWlTxsfn w)) (n := fun d => (d.wl w).tx.1) hs hans (emberOfs_time (by simp only [R.hrtTimWlTxsfn]; omega)) hr (by simp [hfields, roWord])
      (fun d => by simp only [Dev.readEffect, hname]) (fun fz d => by simp only [Dev.rawValue, hname, Dev.timeView_txSfn])
      (fun d e h => by rw [Dev.wl_congr h]) fun e t honly htime hregs _ hout => ?_
    rw [Dev.latchGroup_txSfn, Dev.wl_congr htime] at hregs
    obtain ⟨hns, hsub, hset⟩ := e.set_two (F.hrtTimWlTxnsNs w) (F.hrtTimWlTxsubSub w) (s.dev.wl w).tx.2.ns (s.dev.wl w).tx.2.sub
      (by simp [Fld.fits, F.hrtTimWlTxnsNs]) (by simp [Fld.fits, F.hrtTimWlTxsubSub])
      (by simp [F.hrtTimWlTxnsNs, F.hrtTimWlTxsubSub, R.hrtTimWlTxns, R.hrtTimWlTxsub])
    refine ⟨?_, (Dev.get_congr hregs.symm _).trans hns, (Dev.get_congr hregs.symm _).trans hsub, ?_⟩
    · rw [hout, RegRow.only_whole hfields (by decide)]
    · exact ((honly.mono (by simp) fun _ h => h).trans hset).congr hregs.symm
  · intro w b
    refine State.of_sent ?_ fun _ h => h
    intro s hs hans hb hlt
    obtain ⟨r, hr, hname, hfields⟩ := decodeAddr_wlBseq w
    refine State.group_read (a := (R.hrtTimWlBseq w)) (n := fun d => (d.wl w).bseq) hs hans (emberOfs_time (by simp only [R.hrtTimWlBseq]; omega)) hr (by simp [hfields])
      (fun d => by simp only [Dev.readEffect, hname]) (fun fz d => by simp only [Dev.rawValue, hname, Dev.timeView_bseq])
      (fun d e h => by rw [Dev.wl_congr h]) fun e t honly htime hregs _ hout => ?_
    have hat : (s.dev.wl w).burstAt = b.2 := by simp [WlTime.burstAt, hb]
    have hseq : (s.dev.wl w).bseq = b.1 + 2 ^ 31 := by simp [WlTime.bseq, hb]
    rw [Dev.latchGroup_bseq, Dev.wl_congr htime, hat] at hregs
    obtain ⟨hns, hsub, hset⟩ := e.set_two (F.hrtTimWlBnsNs w) (F.hrtTimWlBsubSub w) b.2.ns b.2.sub
      (by simp [Fld.fits, F.hrtTimWlBnsNs]) (by simp [Fld.fits, F.hrtTimWlBsubSub])
      (by simp [F.hrtTimWlBnsNs, F.hrtTimWlBsubSub, R.hrtTimWlBns, R.hrtTimWlBsub])
    refine ⟨?_, (Dev.get_congr hregs.symm _).trans hns, (Dev.get_congr hregs.symm _).trans hsub, ?_⟩
    · rw [hout, hseq, RegRow.only_bseq hfields hlt]
    · exact ((honly.mono (by simp) fun _ h => h).trans hset).congr hregs.symm
  · intro w m
    refine State.of_sent ?_ fun _ h => h
    intro s hs hans hm
    obtain ⟨r, hr, hname, hfields⟩ := decodeAddr_wlTodrsfn w
    refine State.group_read (a := (R.hrtTimWlTodrsfn w)) (n := fun d => (d.wl w).tod.rsfn) hs hans (emberOfs_time (by simp only [R.hrtTimWlTodrsfn]; omega)) hr
      (by simp [hfields, roWord]) (fun d => by simp only [Dev.readEffect, hname]) (fun fz d => by simp only [Dev.rawValue, hname, Dev.timeView_tod])
      (fun d e h => by rw [Dev.wl_congr h]) fun e t honly htime hregs _ hout => ?_
    obtain ⟨hlo, hhi, hns, hfrac, hlocv, hlns, hlsub, hcnt⟩ := e.latchGroup_tod_shows w m (by rw [Dev.wl_congr htime, hm]) _ rfl
    have hget := fun f => Dev.get_congr hregs.symm f
    refine ⟨?_, (hget _).trans hlo, (hget _).trans hhi, (hget _).trans hns, (hget _).trans hfrac, (hget _).trans hlocv, fun h => ?_, fun l h => ?_, ?_⟩
    · rw [hout, RegRow.only_whole hfields (by decide), hm]
    · exact ⟨(hget _).trans (by rw [hlns, h]; rfl), (hget _).trans (by rw [hlsub, h]; rfl)⟩
    · exact ⟨(hget _).trans (by rw [hlns, h]; rfl), (hget _).trans (by rw [hlsub, h]; rfl)⟩
    · exact ((hget _).trans hcnt).trans (honly.get_nil _)
  · intro p
    refine State.of_sent ?_ fun _ h => h
    intro s hs hans
    obtain ⟨r, hr, hname, hport, hfields⟩ := decodeAddr_rxBytes p
    refine State.bytes_read (a := R.hsMacRxbylo p) (rx := true) hs hans (emberOfs_hs _ (by decide) (by decide)) hr hfields (fun d => by simp only [Dev.readEffect, hname])
      (fun fz d => by simp only [Dev.rawValue, hname, Dev.timeView_none d (a := R.hsMacRxbylo p) (by simp only [R.hsMacRxbylo, hsBase]; omega)])
      fun e t honly hout0 hmacs hregs hout => ?_
    rw [hport] at hregs hout
    obtain ⟨⟨hlo, hhi, hset, hsent⟩, -⟩ := e.latchBytes_shows p
    refine ⟨?_, (Dev.get_congr hregs.symm _).trans hlo, ?_, ?_⟩
    · rw [hout, hsent, hout0]
      rfl
    · rw [Dev.get_congr hregs.symm, hhi, Dev.mac, hmacs, Dev.mac]
    · exact ((honly.mono (by simp) fun _ h => h).trans hset).congr hregs.symm
  · intro p
    refine State.of_sent ?_ fun _ h => h
    intro s hs hans
    obtain ⟨r, hr, hname, hport, hfields⟩ := decodeAddr_txBytes p
    refine State.bytes_read (a := R.hsMacTxbylo p) (rx := false) hs hans (emberOfs_hs _ (by decide) (by decide)) hr hfields (fun d => by simp only [Dev.readEffect, hname])
      (fun fz d => by simp only [Dev.rawValue, hname, Dev.timeView_none d (a := R.hsMacTxbylo p) (by simp only [R.hsMacTxbylo, hsBase]; omega)])
      fun e t honly hout0 hmacs hregs hout => ?_
    rw [hport] at hregs hout
    obtain ⟨-, hlo, hhi, hset, hsent⟩ := e.latchBytes_shows p
    refine ⟨?_, (Dev.get_congr hregs.symm _).trans hlo, ?_, ?_⟩
    · rw [hout, hsent, hout0]
      rfl
    · rw [Dev.get_congr hregs.symm, hhi, Dev.mac, hmacs, Dev.mac]
    · exact ((honly.mono (by simp) fun _ h => h).trans hset).congr hregs.symm
  · intro high
    refine State.of_sent ?_ fun _ h => h
    intro s hs hen hhigh hat
    simp only [exec, execPpsIn]
    refine State.run_ends hs rfl fun t ht hout hfz => ?_
    rw [if_neg (by simp [Dev.flag, hen]; omega)] at ht
    simp only [hat, Bool.false_eq_true, if_false] at ht
    have hnever : neverRaised 0xFA = false := by decide
    have honly : s.dev.Only [R.hrtTimPpsinsub, R.hrtTimStat] [] (((s.dev.setTime fun t => { t with pps := t.stamp, ppsAt := some t.ticks }).count
        F.hrtTimPpsinsubIncnt 1).set F.hrtTimStatInloss 0) :=
      (((Dev.Only.refl _ _ s.dev).congr (Dev.setTime_keeps _ _).1).count _ _ (by simp [F.hrtTimPpsinsubIncnt])).set _ _ (by simp [F.hrtTimStatInloss])
    have htime : (((s.dev.setTime fun t => { t with pps := t.stamp, ppsAt := some t.ticks }).count F.hrtTimPpsinsubIncnt 1).set
        F.hrtTimStatInloss 0).time = { s.dev.time with pps := s.dev.time.stamp, ppsAt := some s.dev.time.ticks } := rfl
    have hcnt : (((s.dev.setTime fun t => { t with pps := t.stamp, ppsAt := some t.ticks }).count F.hrtTimPpsinsubIncnt 1).set
        F.hrtTimStatInloss 0).get F.hrtTimPpsinsubIncnt = satAdd 16 (s.dev.get F.hrtTimPpsinsubIncnt) 1 := by
      rw [Dev.get_set_ne _ _ (by simp [F.hrtTimPpsinsubIncnt, F.hrtTimStatInloss, R.hrtTimPpsinsub, R.hrtTimStat]),
        Dev.get_count_self _ _ _ (by simp [Fld.fits, F.hrtTimPpsinsubIncnt])]
      rfl
    have hloss : (((s.dev.setTime fun t => { t with pps := t.stamp, ppsAt := some t.ticks }).count F.hrtTimPpsinsubIncnt 1).set
        F.hrtTimStatInloss 0).get F.hrtTimStatInloss = 0 :=
      Dev.get_set_lt _ _ (by simp [Fld.fits, F.hrtTimStatInloss]) (by simp [F.hrtTimStatInloss])
    generalize ((s.dev.setTime fun t => { t with pps := t.stamp, ppsAt := some t.ticks }).count F.hrtTimPpsinsubIncnt 1).set
      F.hrtTimStatInloss 0 = e at ht honly htime hcnt hloss
    have hq := (Dev.raiseWords_quiet e [BitVec.ofNat 32 s.dev.time.ns] [] hnever).time
    refine ⟨?_, ?_, ?_, ?_, ?_, ?_⟩
    · rw [ht.same.time, hq, htime]
      rfl
    · rw [ht.same.time, hq, htime]
    · rw [ht.get, Dev.get_raiseWords _ _ _ hnever (by decide), hcnt]
    · rw [ht.get, Dev.get_raiseWords _ _ _ hnever (by decide), hloss]
    · exact ht.raised.2 (honly.raised_raiseWords _ _ (by simp) (by decide) hnever)
    · exact ht.only.2 ((honly.mono (fun _ h => h) (by simp)).raiseWords _ _ hnever (by simp))
  · intro high k
    refine State.of_sent ?_ fun _ h => h
    intro s hs hen hhigh hat hshort
    simp only [exec, execPpsIn]
    refine State.run_ends hs rfl fun t ht hout hfz => ?_
    rw [if_neg (by simp [Dev.flag, hen]; omega)] at ht
    simp only [hat, hshort, decide_true, if_true] at ht
    refine ⟨?_, ?_, ?_⟩
    · rw [ht.same.time]
      simp
    · rw [ht.get, Dev.get_count_self _ _ _ (by simp [Fld.fits, F.hrtTimStatPpsshort])]
      rfl
    · exact ht.only.2 ((Dev.Only.refl _ _ _).count _ _ (by simp [F.hrtTimStatPpsshort]))
  · intro high
    refine State.of_sent ?_ fun _ h => h
    intro s hs hoff
    simp only [exec, execPpsIn]
    refine State.run_ends hs rfl fun t ht hout hfz => ?_
    rw [if_pos (by rcases hoff with h | h <;> simp [Dev.flag, h])] at ht
    exact ⟨ht.same.time, ht.only.2 (Dev.Only.refl _ _ _)⟩
  · refine State.of_sent ?_ fun _ h => h
    intro s hs hen hloss
    simp only [exec, execPpsInLoss]
    refine State.run_ends hs rfl fun t ht hout hfz => ?_
    rw [show (s.dev.flag F.hrtTimPpscfgInen && !s.dev.flag F.hrtTimStatInloss) = true by simp [Dev.flag, hen, hloss], Dev.when_true] at ht
    have honly : s.dev.Only [R.hrtTimStat] [] (s.dev.set F.hrtTimStatInloss 1) := (Dev.Only.refl _ _ _).set _ _ (by simp [F.hrtTimStatInloss])
    refine ⟨?_, ?_, ?_⟩
    · rw [ht.get, Dev.get_raise _ _ _ (.inl (by simp [F.hrtTimStatInloss, R.hrtTimStat])),
        Dev.get_set_lt _ _ (by simp [Fld.fits, F.hrtTimStatInloss]) (by simp [F.hrtTimStatInloss])]
    · exact ht.raised.2 (honly.raised_raise _ (by simp) (by simp [R.hrtEvtSrcCtl, R.hrtTimStat]) (by decide))
    · exact ht.only.2 ((honly.mono (fun _ h => h) (by simp)).raise _ _ (by simp))
  · intro next per b
    refine State.of_sent ?_ fun _ h => h
    intro s hs hen hnext hper hne hb hlt
    refine exists_comm.1 ⟨b / max 1 per + 1, ?_⟩
    simp only [exec, execPpsOutRise]
    refine State.run_ends hs rfl fun t ht hout hfz => ?_
    rw [show (s.dev.flag F.hrtTimPpscfgOuten
      && decide (unsignedOf 32 ((s.dev.time.ns : Int) - (s.dev.get F.hrtTimPpsnextValue : Nat)) < 2 ^ 31)) = true by
        rw [← hnext, ← hb]; simp only [Dev.flag, hen, hlt, decide_true, Bool.and_true]; rfl, Dev.when_true] at ht hout
    have hmax : max 1 per = per := by omega
    refine ⟨?_, ?_, ?_, ?_, ?_, ?_⟩
    · rw [hout]
      simp [hs]
    · rw [ht.same.time]
      rfl
    · rw [hmax]
      have := Nat.div_add_mod b per
      have := Nat.mod_lt b (Nat.pos_of_ne_zero hne)
      rw [Nat.add_mul, Nat.mul_comm (b / per)]
      omega
    · rw [hmax, Nat.add_sub_cancel]
      exact Nat.div_mul_le_self b per
    · rw [ht.get, Dev.get_emit, Dev.get_setTime, Dev.get_set_self _ _ _ (by simp [Fld.fits, F.hrtTimPpsnextValue]), ← hper, ← hnext, ppsAhead, ← hb]
      exact Nat.mod_mod _ _
    · exact ht.only.2 ((((Dev.Only.refl _ _ _).set _ _ (by simp [F.hrtTimPpsnextValue])).congr (Dev.setTime_keeps _ _).1).emit _)
  · refine State.of_sent ?_ fun _ h => h
    intro s hs hout1
    simp only [exec, execPpsOutFall]
    refine State.run_ends hs rfl fun t ht hout hfz => ?_
    rw [hout1, Dev.when_true] at ht hout
    refine ⟨?_, ?_, ?_⟩
    · rw [hout]
      simp [hs]
    · rw [ht.same.time]
      rfl
    · exact ht.only.2 (((Dev.Only.refl _ _ _).congr (Dev.setTime_keeps _ _).1).emit _)

end Sys2Proof.Machine
end

section
/-!
PROOFS. The counter (R348 to R351), and all that passes with the ticks.
-/

namespace Sys2Proof.Machine

set_option Elab.async false

/-! ### Between two ticks: the lines (R18, R103, R205) -/

/-- The registers that the line frames leave: those of the clocks, the sources of the counter's events, and of the ports' lanes and
injectors those that a frame on its way out reads. -/
def lineKept (a : Nat) : Prop :=
  a < 0x80000 ∨ a = R.hrtEvtSrcCtl 0xF8 ∨ a = R.hrtEvtSrcCtl 0xF9 ∨ 0xA000000 ≤ a ∧ (a % 0x10000 = 0xC ∨ a % 0x10000 = 0x14)

/-- What passing line frames leave. -/
structure Dev.LineTick (d e : Dev) : Prop where
  time : e.time = d.time
  regs : ∀ a, lineKept a → e.reg a = d.reg a
  macs : e.macs = d.macs
  inj : e.inj_ = d.inj_
  sent : d.out <:+ e.out

namespace Dev.LineTick
variable {d e f : Dev}

theorem refl (d : Dev) : d.LineTick d := ⟨rfl, fun _ _ => rfl, rfl, rfl, List.suffix_refl _⟩

theorem trans (h : d.LineTick e) (k : e.LineTick f) : d.LineTick f :=
  ⟨k.time.trans h.time, fun a ha => (k.regs a ha).trans (h.regs a ha), k.macs.trans h.macs, k.inj.trans h.inj, h.sent.trans k.sent⟩

theorem set (h : d.LineTick e) (g : Fld) (x : Nat) (hg : ¬ lineKept g.addr) : d.LineTick (e.set g x) :=
  ⟨h.time, fun a ha => (Dev.reg_set_ne e x fun hne => hg (hne ▸ ha)).trans (h.regs a ha), h.macs, h.inj, h.sent⟩

theorem setWave (h : d.LineTick e) (w : Nat) (g : Wave → Wave) : d.LineTick (e.setWave w g) := ⟨h.time, h.regs, h.macs, h.inj, h.sent⟩
theorem setSc (h : d.LineTick e) (w k : Nat) (g : Subc → Subc) : d.LineTick (e.setSc w k g) := ⟨h.time, h.regs, h.macs, h.inj, h.sent⟩
theorem setEng (h : d.LineTick e) (k : Nat) (g : Engine → Engine) : d.LineTick (e.setEng k g) := ⟨h.time, h.regs, h.macs, h.inj, h.sent⟩

theorem raise (h : d.LineTick e) (n : Nat) (l : List Nat) (hn : n < 0xF8) : d.LineTick (e.raise n l) := by
  refine ⟨(e.raise_time n l).trans h.time, fun a ha => (Dev.reg_raise_ne e n l ?_).trans (h.regs a ha), (e.raise_quiet n l).macs.trans h.macs,
    (e.raise_quiet n l).inj_.trans h.inj, h.sent.trans (e.raise_out n l)⟩
  simp only [lineKept, R.hrtEvtSrcCtl] at ha
  simp only [evtRegs, R.hrtEvtSrcCtl, R.hrtEvtSrcFirstns, R.hrtEvtSrcFirstw, List.mem_cons, List.not_mem_nil, or_false]
  omega

theorem when (h : d.LineTick e) (c : Bool) (g : Dev → Dev) (hg : ∀ x : Dev, x.LineTick (g x)) : d.LineTick (e.when c g) := by
  cases c
  · exact h
  · exact h.trans (hg e)

theorem each {α : Type} (h : d.LineTick e) (xs : List α) (g : Dev → α → Dev) (hg : ∀ (x : Dev) (y : α), y ∈ xs → x.LineTick (g x y)) :
    d.LineTick (e.each xs g) := Dev.each_keeps (P := d.LineTick) xs g (fun x y hy hx => hx.trans (hg x y hy)) e h

end Dev.LineTick

theorem Dev.rampNext_lineTick (d : Dev) (w : Nat) : d.LineTick (d.rampNext w) := by
  unfold Dev.rampNext
  have hr := LineTick.refl d
  cases d.serving w with
  | none => exact hr.setWave _ _
  | some e =>
    dsimp only
    split
    · exact hr
    · split
      · exact hr.setWave _ _
      · exact hr.when _ _ fun x => (LineTick.refl x).setWave _ _

theorem not_lineKept_of_between {a : Nat} (h1 : 0x1000000 ≤ a) (h2 : a < 0xA000000) : ¬ lineKept a := by
  simp only [lineKept, R.hrtEvtSrcCtl]
  omega

theorem mem_three {e : Nat} (h : e ∈ [0, 1, 2]) : e < 3 := by
  simp only [List.mem_cons, List.not_mem_nil, or_false] at h
  omega

theorem Dev.mem_enginesOf {d : Dev} {w e : Nat} (h : e ∈ d.enginesOf w) : e < 3 := mem_three (List.mem_filter.1 h).1

theorem Dev.txRefresh_lineTick (d : Dev) : d.LineTick d.txRefresh := by
  refine ((d.rampNext_lineTick 0).trans (Dev.rampNext_lineTick _ 1)).each _ _ fun x e he => ?_
  refine (LineTick.refl x).when _ _ fun y => (LineTick.refl y).set _ _ (not_lineKept_of_between ?_ ?_)
  all_goals
    have := mem_three he
    simp only [F.leTxcStatState, R.leTxcStat]
    omega

theorem Dev.engLine_lineTick (d : Dev) {e : Nat} (he : e < 3) (b : Nat) : d.LineTick (d.engLine e b) := by
  unfold Dev.engLine
  refine LineTick.trans (LineTick.setEng (LineTick.when (LineTick.refl d) _ _ fun y => (LineTick.refl y).set _ _
    (not_lineKept_of_between ?_ ?_)) _ _) (Dev.txRefresh_lineTick _)
  all_goals
    simp only [F.leTxcStatMuted, R.leTxcStat]
    omega

theorem Dev.engSuperframe_lineTick (d : Dev) {e : Nat} (he : e < 3) (b : Nat) : d.LineTick (d.engSuperframe e b) := by
  unfold Dev.engSuperframe
  refine LineTick.setEng (LineTick.each (LineTick.refl d) _ _ fun x s hs => (LineTick.refl x).set _ _ (not_lineKept_of_between ?_ ?_)) _ _
  all_goals
    have := List.mem_range.1 (List.mem_filter.1 hs).1
    simp only [F.leRxsStatEqlock, R.leRxsStat]
    omega

theorem Dev.applyChange_lineTick (d : Dev) (w : Nat) (p : ProfPend) : d.LineTick (d.applyChange w p) := by
  have hprof : ∀ e < 3, ¬ lineKept (R.leTxsProf e p.sc) := fun e he => by
    simp only [lineKept, R.hrtEvtSrcCtl, R.leTxsProf]
    omega
  have hllr : ∀ e < 3, ¬ lineKept (R.leRxsLlrcfg e p.sc) := fun e he => by
    simp only [lineKept, R.hrtEvtSrcCtl, R.leRxsLlrcfg]
    omega
  unfold Dev.applyChange
  split
  · exact ((LineTick.refl d).setWave _ _).each _ _ fun x e he => (LineTick.refl x).set _ _ (hllr e (Dev.mem_enginesOf he))
  · exact ((LineTick.refl d).setWave _ _).each _ _ fun x e he =>
      ((LineTick.refl x).set _ _ (hprof e (Dev.mem_enginesOf he))).set _ _ (hprof e (Dev.mem_enginesOf he))

theorem Dev.txEvent_lineTick (d : Dev) (e c : Nat) (l : List Nat) (hc : c < 16) : d.LineTick (d.txEvent e c l) := by
  unfold Dev.txEvent
  split
  · exact (LineTick.refl d).when _ _ fun x => (LineTick.refl x).raise _ _ (by omega)
  · split
    · exact (LineTick.refl d).when _ _ fun x => (LineTick.refl x).raise _ _ (by omega)
    · exact LineTick.refl d

theorem Dev.profEvent_lineTick (d : Dev) (w sc : Nat) : d.LineTick (d.profEvent w sc) := by
  unfold Dev.profEvent
  split
  · exact d.txEvent_lineTick _ _ _ (by decide)
  · exact (LineTick.refl d).setWave _ _

theorem Dev.applyPend_lineTick (d : Dev) (w dir sfn : Nat) : d.LineTick (d.applyPend w dir sfn) := by
  unfold Dev.applyPend
  dsimp only
  have hdue := ((LineTick.refl d).setWave w fun v => { v with pend := v.pend.filter fun p =>
    !((d.wave w).pend.filter fun p => p.dir == dir && sfnGe sfn p.esfn).contains p }).each
      ((d.wave w).pend.filter fun p => p.dir == dir && sfnGe sfn p.esfn) (fun d p => d.applyChange w p) fun x p _ => x.applyChange_lineTick w p
  split
  · exact hdue.trans (Dev.profEvent_lineTick _ _ _)
  · exact hdue

theorem Dev.catchUp_lineTick (d : Dev) {w : Nat} (hw : w < 2) (e : Nat) : d.LineTick (d.catchUp w e) := by
  unfold Dev.catchUp
  dsimp only
  have hdue : d.LineTick (d.when (d.cordOn (6 + w)) fun d => d.applyPend w 1 (d.dirSfn w 1)) :=
    (LineTick.refl d).when _ _ fun x => x.applyPend_lineTick _ _ _
  split
  · exact (hdue.setWave _ _).raise _ _ (by omega)
  · exact hdue

theorem Dev.txMove_lineTick (d : Dev) {w : Nat} (hw : w < 2) (frame : Bool) : d.LineTick (d.txMove w frame) := by
  unfold Dev.txMove
  split
  · split
    · exact LineTick.refl d
    · refine LineTick.trans (LineTick.setWave (LineTick.when (d.catchUp_lineTick hw _) _ _ fun x => (LineTick.refl x).set _ _
        (not_lineKept_of_between ?_ ?_)) _ _) (Dev.txRefresh_lineTick _)
      all_goals
        simp only [F.cvSelStatTxeng, R.cvSelStat]
        omega
  · exact LineTick.refl d

theorem Dev.countFrames_lineTick (d : Dev) (w k : Nat) : d.LineTick (d.countFrames w k) := by
  unfold Dev.countFrames
  exact ((LineTick.refl d).setWave _ _).each _ _ fun x s _ => (LineTick.refl x).setSc _ _ _

theorem Dev.sendFrames_lineTick (d : Dev) {w : Nat} (hw : w < 2) (k b : Nat) : d.LineTick (d.sendFrames w k b) := by
  unfold Dev.sendFrames
  refine LineTick.trans (LineTick.each (LineTick.when ((LineTick.refl d).setWave _ _) _ _ fun x => x.countFrames_lineTick _ _) _ _ fun x e he => ?_)
    (Dev.txMove_lineTick _ hw _)
  exact (x.engLine_lineTick (Dev.mem_enginesOf he) _).when _ _ fun y => (LineTick.refl y).setEng _ _

theorem Dev.engFree_lineTick (d : Dev) {e : Nat} (he : e < 3) (b : Nat) : d.LineTick (d.engFree e b) := by
  unfold Dev.engFree
  exact LineTick.setEng (LineTick.trans ((d.engLine_lineTick he b).trans ((LineTick.refl _).setEng _ _)) (Dev.engSuperframe_lineTick _ he b)) _ _

theorem Dev.rampsNow_lineTick (d : Dev) : d.LineTick d.rampsNow := by
  unfold Dev.rampsNow
  exact (LineTick.refl d).when _ _ fun x => ((LineTick.refl x).each _ _ fun y w _ => (LineTick.refl y).setWave _ _).trans (Dev.txRefresh_lineTick _)

/-! ### Between two ticks: control frames that wait for a port (R288, R295) -/

/-- The registers of the clocks and the sources of the counter's events. -/
def clockKept (a : Nat) : Prop := a < 0x80000 ∨ a = R.hrtEvtSrcCtl 0xF8 ∨ a = R.hrtEvtSrcCtl 0xF9

theorem not_clockKept_of_ge {a : Nat} (h : 0x81000 ≤ a) : ¬ clockKept a := by
  simp only [clockKept, R.hrtEvtSrcCtl]
  omega

theorem not_clockKept_evtRegs {n : Nat} (hn : n < 0xF8 ∨ 0xF9 < n) {a : Nat} (ha : a ∈ evtRegs n) : ¬ clockKept a := by
  simp only [evtRegs, R.hrtEvtSrcCtl, R.hrtEvtSrcFirstns, R.hrtEvtSrcFirstw, List.mem_cons, List.not_mem_nil, or_false] at ha
  simp only [clockKept, R.hrtEvtSrcCtl]
  omega

/-- Addresses that stand apart from what an injector writes: its registers, the global one, those of the buffers it frees. -/
structure InjApart (K : Nat → Prop) (i : Nat) : Prop where
  evts : ∀ n ∈ [0xFC, 0xFD, 0xE0, 0xE1, 0xE3], ∀ a ∈ evtRegs n, ¬ K a
  bufs : ∀ a ∈ bufRegs, ¬ K a
  fi : ∀ off ≤ 0x18, ¬ K (fiBase i + off)
  glob : ¬ K R.hrtFiGlobal

/-- Addresses that stand apart from what a received frame writes: the port's injectors, its counters and its pause. -/
structure PortApart (K : Nat → Prop) (p : Nat) : Prop where
  inj : InjApart K p
  link : InjApart K (162 + p / 48)
  evts : ∀ n ∈ [0xC0, 0xC1, 0xC2, 0xC3, 0xC4, 0xCD, 0xCF], ∀ a ∈ evtRegs n, ¬ K a
  mac : ∀ off ∈ [0x1C, 0x800, 0x804, 0x818, 0x81C, 0x820, 0x824, 0x828, 0x82C, 0x830], ¬ K (hsBase 0x40 p + off)
  dh : ∀ q, ¬ K (R.hsMacDhdrop q)
  txg : ∀ q, ¬ K (R.pciTxgDrop q)

/-- What frames that leave a port, and those a port in a loop receives, leave: among others the registers of `K`. -/
structure Dev.GenTick (K : Nat → Prop) (d e : Dev) : Prop where
  time : e.time = d.time
  regs : ∀ a, K a → e.reg a = d.reg a
  waves : e.waves = d.waves
  sent : d.out <:+ e.out
  cur : ∀ q, (e.mac q).cur = (d.mac q).cur

theorem Dev.mac_setMac_ne {p q : Nat} (h : q ≠ p) (d : Dev) (g : Mac → Mac) : (d.setMac p g).mac q = d.mac q :=
  Tbl.get_modify_ne _ _ _ _ h

namespace Dev.GenTick
variable {K : Nat → Prop} {d e f : Dev}

theorem refl (d : Dev) : d.GenTick K d := ⟨rfl, fun _ _ => rfl, rfl, List.suffix_refl _, fun _ => rfl⟩

theorem trans (h : d.GenTick K e) (k : e.GenTick K f) : d.GenTick K f :=
  ⟨k.time.trans h.time, fun a ha => (k.regs a ha).trans (h.regs a ha), k.waves.trans h.waves, h.sent.trans k.sent, fun q => (k.cur q).trans (h.cur q)⟩

theorem set (h : d.GenTick K e) (g : Fld) (x : Nat) (hg : ¬ K g.addr) : d.GenTick K (e.set g x) :=
  ⟨h.time, fun a ha => (Dev.reg_set_ne e x fun hne => hg (hne ▸ ha)).trans (h.regs a ha), h.waves, h.sent, h.cur⟩

theorem count (h : d.GenTick K e) (g : Fld) (n : Nat) (hg : ¬ K g.addr) : d.GenTick K (e.count g n) := h.set g _ hg
theorem setFlag (h : d.GenTick K e) (g : Fld) (b : Bool) (hg : ¬ K g.addr) : d.GenTick K (e.setFlag g b) := h.set g _ hg
theorem setInj (h : d.GenTick K e) (i : Nat) (g : Inj → Inj) : d.GenTick K (e.setInj i g) := ⟨h.time, h.regs, h.waves, h.sent, h.cur⟩
theorem setPkt (h : d.GenTick K e) (g : PktSt → PktSt) : d.GenTick K (e.setPkt g) := ⟨h.time, h.regs, h.waves, h.sent, h.cur⟩
theorem emit (h : d.GenTick K e) (o : Output) : d.GenTick K (e.emit o) := ⟨h.time, h.regs, h.waves, h.sent.trans (List.suffix_cons _ _), h.cur⟩

theorem setMac (h : d.GenTick K e) (p : Nat) (g : Mac → Mac) (hg : ∀ m, (g m).cur = m.cur) : d.GenTick K (e.setMac p g) := by
  refine ⟨h.time, h.regs, h.waves, h.sent, fun q => ?_⟩
  by_cases hq : q = p
  · rw [hq, Dev.mac_setMac_self, hg, h.cur]
  · rw [Dev.mac_setMac_ne hq]
    exact h.cur q

theorem raise (h : d.GenTick K e) (n : Nat) (l : List Nat) (hn : ∀ a ∈ evtRegs n, ¬ K a) : d.GenTick K (e.raise n l) :=
  ⟨(e.raise_time n l).trans h.time, fun a ha => (Dev.reg_raise_ne e n l fun hm => hn a hm ha).trans (h.regs a ha), (e.raise_quiet n l).waves.trans h.waves,
    h.sent.trans (e.raise_out n l), fun q => by rw [Dev.mac, (e.raise_quiet n l).macs]; exact h.cur q⟩

theorem when (h : d.GenTick K e) (c : Bool) (g : Dev → Dev) (hg : ∀ x : Dev, x.GenTick K (g x)) : d.GenTick K (e.when c g) := by
  cases c
  · exact h
  · exact h.trans (hg e)

theorem each {α : Type} (h : d.GenTick K e) (xs : List α) (g : Dev → α → Dev) (hg : ∀ (x : Dev) (y : α), y ∈ xs → x.GenTick K (g x y)) :
    d.GenTick K (e.each xs g) := Dev.each_keeps (P := d.GenTick K) xs g (fun x y hy hx => hx.trans (hg x y hy)) e h

theorem frees (h : d.GenTick K e) {i : Nat} (hK : InjApart K i) (bs : List Nat) (agent : Nat) : d.GenTick K (e.freeBufs bs agent) := by
  obtain ⟨honly, b, hsame⟩ := e.freeBufs_frees bs agent
  refine h.trans ⟨hsame.time, fun a ha => ?_, hsame.waves, e.freeBufs_sent bs agent, fun q => by rw [Dev.mac, hsame.macs]; rfl⟩
  exact honly a (fun hm => hK.bufs a hm ha) fun n hn hm => hK.evts n (List.mem_cons_of_mem _ (List.mem_cons_of_mem _ hn)) a hm ha

end Dev.GenTick

theorem fiBase_ge (i : Nat) : 0x6A00000 ≤ fiBase i := by
  unfold fiBase
  split
  · simp only [R.hsFiCtl, hsBase]; omega
  · split
    · simp only [R.lfFiCtl]; omega
    · simp only [R.pktFiCtl]; omega

theorem fiF_ge (i off lsb width : Nat) : 0x6A00000 ≤ (fiF i off lsb width).addr := (fiBase_ge i).trans (Nat.le_add_right _ _)

theorem hsBase_ge (b p : Nat) : 0xA000000 ≤ hsBase b p := by
  simp only [hsBase]
  omega

section
variable {K : Nat → Prop} {i : Nat} (hK : InjApart K i)
include hK

theorem Dev.fiEvent_genTick (d : Dev) {n : Nat} (hn : n ∈ [0xFC, 0xFD]) : d.GenTick K (d.fiEvent i n) :=
  ((GenTick.refl d).set _ _ hK.glob).raise _ _ (hK.evts n (by simp only [List.mem_cons, List.not_mem_nil, or_false] at hn ⊢; omega))

theorem Dev.fiOff_genTick (d : Dev) : d.GenTick K (d.fiOff i) :=
  (GenTick.refl d).when _ _ fun x => (((GenTick.refl x).set _ _ (hK.fi 0 (by decide))).set _ _ (hK.fi 0x14 (by decide))).set _ _ hK.glob

theorem Dev.fiFollow_genTick (d : Dev) (dir : Nat) (x : FiUnit) : d.GenTick K (d.fiFollow i dir x).1 := by
  unfold Dev.fiFollow
  split
  · exact GenTick.refl d
  · split
    · exact GenTick.refl d
    · split
      · exact ((GenTick.refl d).setInj _ _).set _ _ (hK.fi 0x14 (by decide))
      · exact (GenTick.refl d).setInj _ _

theorem Dev.fiPass_genTick (d : Dev) (dir : Nat) (idle : Bool) (x : FiUnit) : d.GenTick K (d.fiPass i dir idle x).1 := by
  unfold Dev.fiPass
  split
  · exact GenTick.refl d
  · split
    · exact d.fiFollow_genTick hK _ _
    · dsimp only
      have h1 : d.GenTick K (d.setInj i fun j => { j with u := j.u + 1, gen := fiGen (d.inj i).gen }) := (GenTick.refl d).setInj _ _
      split
      · exact h1.trans (Dev.fiFollow_genTick hK _ _ _)
      · have h2 := (h1.setInj i fun j => { j with sel := j.sel + 1 }).when ((d.inj i).sel == 0) (fun d => d.fiEvent i 0xFC)
          fun y => y.fiEvent_genTick hK (by simp)
        refine GenTick.when ?_ _ _ fun y => (y.fiOff_genTick hK).trans (Dev.fiEvent_genTick hK _ (by simp))
        split
        · exact (h2.frees hK _ _).count _ _ (hK.fi 0x18 (by decide))
        · split
          · exact (h2.count _ _ (hK.fi 0x18 (by decide))).trans (Dev.fiFollow_genTick hK _ _ _)
          · split
            · exact (h2.count _ _ (hK.fi 0x14 (by decide))).trans (Dev.fiFollow_genTick hK _ _ _)
            · exact ((h2.count _ _ (hK.fi 0x18 (by decide))).setInj _ _).set _ _ (hK.fi 0x14 (by decide))

theorem Dev.through_genTick (d : Dev) (dir : Nat) (idle : Bool) (x : FiUnit) (next : Dev → FiUnit → Dev) (hn : ∀ (e : Dev) u, e.GenTick K (next e u)) :
    d.GenTick K (d.through i dir idle x next) := (d.fiPass_genTick hK dir idle x).each _ _ fun e u _ => hn e u

end

section
variable {K : Nat → Prop} {p : Nat} (hK : PortApart K p)
include hK

theorem Dev.linkDrop_genTick (d : Dev) (x : Pkt) : d.GenTick K (d.linkDrop (2 + p / 48) x) := by
  unfold Dev.linkDrop
  rw [if_neg (by omega)]
  split
  · exact (GenTick.refl d).when _ _ fun y => ((GenTick.refl y).count _ _ (hK.dh _)).raise _ _ (hK.evts _ (by simp))
  · exact (GenTick.refl d).when _ _ fun y => (GenTick.refl y).count _ _ (hK.txg _)

theorem Dev.dhSend_genTick (d : Dev) (x : Pkt) : d.GenTick K (d.dhSend p x) := by
  unfold Dev.dhSend
  split
  · refine d.through_genTick hK.link _ _ _ _ fun e u => ?_
    unfold Dev.linkIn
    split
    · exact (GenTick.refl e).setPkt _
    · exact e.linkDrop_genTick hK _
  · exact d.linkDrop_genTick hK _

theorem Dev.loadPause_genTick (d : Dev) (c : Option Nat) (n : Nat) : d.GenTick K (d.loadPause p c n) := by
  have hstat : ¬ K (R.hsMacFcstat p) := hK.mac 0x1C (by simp)
  unfold Dev.loadPause Dev.pauseStat
  dsimp only
  refine GenTick.when ?_ _ _ fun y => (GenTick.refl y).raise _ _ (hK.evts _ (by simp))
  refine (((GenTick.refl d).setMac _ _ fun m => ?_).setFlag _ _ hstat).set _ _ hstat
  cases c <;> rfl

theorem Dev.pauseRx_genTick (d : Dev) (f : List Byte) : d.GenTick K (d.pauseRx p f) := by
  have hrx : ¬ K (R.hsMacPauserx p) := hK.mac 0x830 (by simp)
  unfold Dev.pauseRx
  dsimp only
  split
  · exact ((GenTick.refl d).count _ _ hrx).trans (Dev.loadPause_genTick hK _ _ _)
  · split
    · exact ((GenTick.refl d).count _ _ hrx).each _ _ fun x c _ => x.loadPause_genTick hK _ _
    · exact ((GenTick.refl d).count _ _ (hK.mac 0x82C (by simp))).raise _ _ (hK.evts _ (by simp))

theorem Dev.macRx_genTick (d : Dev) (f : List Byte) (pcs : Bool) : d.GenTick K (d.macRx p f pcs) := by
  have hraise : ∀ (g : Fld) (n : Nat) (l : List Nat), ¬ K g.addr → n ∈ [0xC0, 0xC1, 0xC2, 0xC3] → d.GenTick K ((d.count g 1).raise n l) := fun g n l hg hn =>
    ((GenTick.refl d).count g 1 hg).raise _ _ (hK.evts _ (by simp only [List.mem_cons, List.not_mem_nil, or_false] at hn ⊢; omega))
  unfold Dev.macRx
  dsimp only
  split
  · exact hraise _ _ _ (hK.mac 0x820 (by simp)) (by simp)
  · split
    · exact hraise _ _ _ (hK.mac 0x828 (by simp)) (by simp)
    · split
      · exact hraise _ _ _ (hK.mac 0x824 (by simp)) (by simp)
      · split
        · exact hraise _ _ _ (hK.mac 0x81C (by simp)) (by simp)
        · split
          · exact hraise _ _ _ (hK.mac 0x818 (by simp)) (by simp)
          · split
            · exact d.pauseRx_genTick hK _
            · refine GenTick.trans ?_ (Dev.dhSend_genTick hK _ _)
              unfold Dev.countBytes
              exact (((GenTick.refl d).count _ _ (hK.mac 0x800 (by simp))).setMac _ _ (by intro m; rfl)).set _ _ (hK.mac 0x804 (by simp))

theorem Dev.portTx_genTick (d : Dev) (f : List Byte) : d.GenTick K (d.portTx p f) := by
  unfold Dev.portTx
  refine d.through_genTick hK.inj _ _ _ _ fun e u => ?_
  unfold Dev.portOut
  split
  · exact (GenTick.refl e).when _ _ fun x => x.through_genTick hK.inj _ _ _ _ fun y v => y.macRx_genTick hK _ _
  · exact (GenTick.refl e).emit _

theorem Dev.sendGen_genTick (d : Dev) : d.GenTick K (d.sendGen p) := by
  unfold Dev.sendGen
  exact (GenTick.refl d).when _ _ fun x => ((GenTick.refl x).setMac _ _ (by intro m; rfl)).each _ _ fun y f _ => y.portTx_genTick hK _

end

theorem injApart_clockKept (i : Nat) : InjApart clockKept i := by
  refine ⟨fun n hn a ha => not_clockKept_evtRegs ?_ ha, fun a ha => not_clockKept_of_ge ?_, fun off _ => not_clockKept_of_ge ?_, not_clockKept_of_ge (by decide)⟩
  · simp only [List.mem_cons, List.not_mem_nil, or_false] at hn
    omega
  · have := bufRegs_range ha
    omega
  · have := fiBase_ge i
    omega

theorem portApart_clockKept (p : Nat) : PortApart clockKept p := by
  refine ⟨injApart_clockKept _, injApart_clockKept _, fun n hn a ha => not_clockKept_evtRegs ?_ ha, fun off _ => not_clockKept_of_ge ?_,
    fun q => not_clockKept_of_ge ?_, fun q => not_clockKept_of_ge ?_⟩
  · simp only [List.mem_cons, List.not_mem_nil, or_false] at hn
    omega
  · have := hsBase_ge 0x40 p
    omega
  · have := hsBase_ge 0x40 q
    simp only [R.hsMacDhdrop]
    omega
  · simp only [R.pciTxgDrop]
    omega

theorem Dev.sendGens_genTick (d : Dev) : d.GenTick clockKept d.sendGens :=
  (GenTick.refl d).each _ _ fun x p _ => x.sendGen_genTick (portApart_clockKept p)

/-! ### Between two ticks: where a wavelength's line frames stand (R103, R126) -/

/-- The tick of the newest line frame and the framer's count of superframes and line frames. -/
def Wave.lineView (v : Wave) : Nat × Nat × Nat := (v.lineAt, v.txSfn, v.txFnum)

/-- The line frames of every wavelength stand where they stood. -/
def Dev.LineSame (d e : Dev) : Prop := ∀ k, (e.wave k).lineView = (d.wave k).lineView

namespace Dev.LineSame
variable {d e f : Dev}

theorem refl (d : Dev) : d.LineSame d := fun _ => rfl
theorem trans (h : d.LineSame e) (k : e.LineSame f) : d.LineSame f := fun j => (k j).trans (h j)
theorem congr (h : d.LineSame e) (hw : f.waves = e.waves) : d.LineSame f := fun k => (congrArg Wave.lineView (by simp only [Dev.wave, hw])).trans (h k)
theorem setWave (h : d.LineSame e) (w : Nat) (g : Wave → Wave) (hg : ∀ v, (g v).lineView = v.lineView) : d.LineSame (e.setWave w g) :=
  fun k => (Dev.setWave_view e w k g hg).trans (h k)

theorem set (h : d.LineSame e) (g : Fld) (x : Nat) : d.LineSame (e.set g x) := h
theorem setSc (h : d.LineSame e) (w k : Nat) (g : Subc → Subc) : d.LineSame (e.setSc w k g) := h
theorem setEng (h : d.LineSame e) (k : Nat) (g : Engine → Engine) : d.LineSame (e.setEng k g) := h

theorem when (h : d.LineSame e) (c : Bool) (g : Dev → Dev) (hg : ∀ x : Dev, x.LineSame (g x)) : d.LineSame (e.when c g) := by
  cases c
  · exact h
  · exact h.trans (hg e)

theorem each {α : Type} (h : d.LineSame e) (xs : List α) (g : Dev → α → Dev) (hg : ∀ (x : Dev) (y : α), y ∈ xs → x.LineSame (g x y)) :
    d.LineSame (e.each xs g) := Dev.each_keeps (P := d.LineSame) xs g (fun x y hy hx => hx.trans (hg x y hy)) e h

theorem raise (h : d.LineSame e) (n : Nat) (l : List Nat) : d.LineSame (e.raise n l) := h.congr (e.raise_quiet n l).waves

end Dev.LineSame

theorem Dev.txRefresh_lineSame (d : Dev) : d.LineSame d.txRefresh := fun k => Dev.txRefresh_view (p := Wave.lineView) (fun _ _ => rfl) d k

theorem Dev.engLine_lineSame (d : Dev) (e b : Nat) : d.LineSame (d.engLine e b) := fun k => Dev.engLine_view (p := Wave.lineView) (fun _ _ => rfl) d e b k

theorem Dev.engSuperframe_lineSame (d : Dev) (e b : Nat) : d.LineSame (d.engSuperframe e b) := by
  unfold Dev.engSuperframe
  exact ((LineSame.refl d).each _ _ fun x s _ => (LineSame.refl x).set _ _).setEng _ _

theorem Dev.applyChange_lineSame (d : Dev) (w : Nat) (p : ProfPend) : d.LineSame (d.applyChange w p) := by
  unfold Dev.applyChange
  split
  · exact ((LineSame.refl d).setWave _ _ (by intro _; rfl)).each _ _ fun x e _ => (LineSame.refl x).set _ _
  · exact ((LineSame.refl d).setWave _ _ (by intro _; rfl)).each _ _ fun x e _ => ((LineSame.refl x).set _ _).set _ _

theorem Dev.txEvent_lineSame (d : Dev) (e c : Nat) (l : List Nat) : d.LineSame (d.txEvent e c l) := by
  unfold Dev.txEvent
  split
  · exact (LineSame.refl d).when _ _ fun x => (LineSame.refl x).raise _ _
  · split
    · exact (LineSame.refl d).when _ _ fun x => (LineSame.refl x).raise _ _
    · exact LineSame.refl d

theorem Dev.applyPend_lineSame (d : Dev) (w dir sfn : Nat) : d.LineSame (d.applyPend w dir sfn) := by
  unfold Dev.applyPend
  dsimp only
  have hdue := ((LineSame.refl d).setWave w (fun v => { v with pend := v.pend.filter fun p =>
    !((d.wave w).pend.filter fun p => p.dir == dir && sfnGe sfn p.esfn).contains p }) (by intro _; rfl)).each
      ((d.wave w).pend.filter fun p => p.dir == dir && sfnGe sfn p.esfn) (fun d p => d.applyChange w p) fun x p _ => x.applyChange_lineSame w p
  split
  · refine hdue.trans ?_
    unfold Dev.profEvent
    split
    · exact Dev.txEvent_lineSame _ _ _ _
    · exact (LineSame.refl _).setWave _ _ (by intro _; rfl)
  · exact hdue

theorem Dev.txMove_lineSame (d : Dev) (w : Nat) (frame : Bool) : d.LineSame (d.txMove w frame) := by
  unfold Dev.txMove
  split
  · next x _ =>
    split
    · exact LineSame.refl d
    · have hcatch : d.LineSame (d.catchUp w x.eng) := by
        unfold Dev.catchUp
        dsimp only
        have hdue : d.LineSame (d.when (d.cordOn (6 + w)) fun d => d.applyPend w 1 (d.dirSfn w 1)) :=
          (LineSame.refl d).when _ _ fun x => x.applyPend_lineSame _ _ _
        split
        · exact (hdue.setWave _ _ (by intro _; rfl)).raise _ _
        · exact hdue
      exact LineSame.trans (LineSame.setWave (hcatch.when _ _ fun y => (LineSame.refl y).set _ _) _ _ (by intro _; rfl)) (Dev.txRefresh_lineSame _)
  · exact LineSame.refl d

theorem Dev.countFrames_lineView (d : Dev) (w k : Nat) : (∀ j ≠ w, ((d.countFrames w k).wave j).lineView = (d.wave j).lineView)
    ∧ ((d.countFrames w k).wave w).lineView
      = ((d.wave w).lineAt, (8 * (d.wave w).txSfn + (d.wave w).txFnum + k) / 8 % 2 ^ 32, (8 * (d.wave w).txSfn + (d.wave w).txFnum + k) % 8) := by
  unfold Dev.countFrames
  have hloop : LineSame (d.setWave w fun v => { v with
      txSfn := (8 * (d.wave w).txSfn + (d.wave w).txFnum + k) / 8 % 2 ^ 32, txFnum := (8 * (d.wave w).txSfn + (d.wave w).txFnum + k) % 8 }) _ :=
    (LineSame.refl _).each (maskBits 32 (d.sendScs w)) (fun d' sc => d'.setSc w sc fun x => { x with txBits := x.txBits + k * frameBits ((d.wave w).code 1 sc) })
      fun x s _ => (LineSame.refl x).setSc _ _ _
  refine ⟨fun j hj => (hloop j).trans (congrArg Wave.lineView (Dev.wave_setWave_ne _ _ hj)), (hloop w).trans ?_⟩
  rw [Dev.wave_setWave_self]
  rfl

/-- Line frames sent change the count of their own wavelength alone. -/
theorem Dev.sendFrames_lineView (d : Dev) (w k b : Nat) : (∀ j ≠ w, ((d.sendFrames w k b).wave j).lineView = (d.wave j).lineView)
    ∧ (d.cordOn (6 + w) = true → ((d.sendFrames w k b).wave w).lineView
      = (b, (8 * (d.wave w).txSfn + (d.wave w).txFnum + k) / 8 % 2 ^ 32, (8 * (d.wave w).txSfn + (d.wave w).txFnum + k) % 8)) := by
  unfold Dev.sendFrames
  have hself := Dev.wave_setWave_self d w fun v => { v with lineAt := b }
  have hother : ∀ j ≠ w, (d.setWave w fun v => { v with lineAt := b }).wave j = d.wave j := fun j hj => Dev.wave_setWave_ne _ _ hj
  generalize d.setWave w (fun v => { v with lineAt := b }) = e at hself hother
  obtain ⟨hcne, hcself⟩ := e.countFrames_lineView w k
  have hloop : ∀ g : Dev, g.LineSame ((g.each (e.enginesOf w) fun d' y => (d'.engLine y b).when
      (!d.cordOn (6 + w) || k == 0 || decide (8 ≤ (d.wave w).txFnum + k)) fun d' =>
        d'.engSend y (if d.cordOn (6 + w) && k != 0 then b - ((d.wave w).txFnum + k) % 8 * lineTicks else b)).txMove w true) := fun g =>
    ((LineSame.refl g).each _ _ fun x y _ => (x.engLine_lineSame y b).when _ _ fun z => (LineSame.refl z).setEng _ _).trans
      (Dev.txMove_lineSame _ _ _)
  refine ⟨fun j hj => (hloop _ j).trans ?_, fun hon => (hloop _ w).trans ?_⟩
  · cases d.cordOn (6 + w)
    · exact congrArg Wave.lineView (hother j hj)
    · exact (hcne j hj).trans (congrArg Wave.lineView (hother j hj))
  · rw [hon, Dev.when_true, hcself, hself]

theorem Dev.engFree_lineSame (d : Dev) (e b : Nat) : d.LineSame (d.engFree e b) := by
  unfold Dev.engFree
  exact LineSame.setEng (LineSame.trans ((d.engLine_lineSame e b).setEng _ _) (Dev.engSuperframe_lineSame _ _ _)) _ _

theorem Dev.rampsNow_lineSame (d : Dev) : d.LineSame d.rampsNow := by
  unfold Dev.rampsNow
  exact (LineSame.refl d).when _ _ fun x => ((LineSame.refl x).each _ _ fun y w _ => (LineSame.refl y).setWave _ _ (by intro _; rfl)).trans
    (Dev.txRefresh_lineSame _)

/-! ### Between two ticks where nothing waits -/

/-- Nothing but the steering and the transmit states of the engines has moved. -/
structure Dev.QuietTick (d e : Dev) : Prop where
  only : d.Only tickRegs [] e
  out : e.out = d.out
  next : ∀ w, (e.wave w).txNext = (d.wave w).txNext
  macs : e.macs = d.macs
  sf : ∀ k, (d.eng k).oldSf = [] → (e.eng k).oldSf = []

namespace Dev.QuietTick
variable {d e f : Dev}

theorem refl (d : Dev) : d.QuietTick d := ⟨Dev.Only.refl _ _ d, rfl, fun _ => rfl, rfl, fun _ h => h⟩

theorem trans (h : d.QuietTick e) (k : e.QuietTick f) : d.QuietTick f :=
  ⟨h.only.trans k.only, k.out.trans h.out, fun w => (k.next w).trans (h.next w), k.macs.trans h.macs, fun j hj => k.sf j (h.sf j hj)⟩

theorem set (h : d.QuietTick e) (g : Fld) (x : Nat) (hg : g.addr ∈ tickRegs) : d.QuietTick (e.set g x) :=
  ⟨h.only.set g x hg, h.out, h.next, h.macs, h.sf⟩

theorem setWave (h : d.QuietTick e) (w : Nat) (g : Wave → Wave) (hg : ∀ v, (g v).txNext = v.txNext) : d.QuietTick (e.setWave w g) :=
  ⟨h.only, h.out, fun k => (Dev.setWave_view (p := Wave.txNext) e w k g hg).trans (h.next k), h.macs, h.sf⟩

theorem setSc (h : d.QuietTick e) (w k : Nat) (g : Subc → Subc) : d.QuietTick (e.setSc w k g) := ⟨h.only, h.out, h.next, h.macs, h.sf⟩

theorem setEng (h : d.QuietTick e) (k : Nat) (g : Engine → Engine) (hg : ∀ x : Engine, x.oldSf = [] → (g x).oldSf = []) : d.QuietTick (e.setEng k g) := by
  refine ⟨h.only, h.out, h.next, h.macs, fun j hj => ?_⟩
  by_cases hjk : j = k
  · subst hjk
    rw [Dev.eng_setEng_self]
    exact hg _ (h.sf j hj)
  · rw [Dev.eng, Dev.setEng, Tbl.get_modify_ne _ _ _ _ hjk]
    exact h.sf j hj

theorem when (h : d.QuietTick e) (c : Bool) (g : Dev → Dev) (hg : ∀ x : Dev, x.QuietTick (g x)) : d.QuietTick (e.when c g) := by
  cases c
  · exact h
  · exact h.trans (hg e)

theorem each {α : Type} (h : d.QuietTick e) (xs : List α) (g : Dev → α → Dev) (hg : ∀ (x : Dev) (y : α), y ∈ xs → x.QuietTick (g x y)) :
    d.QuietTick (e.each xs g) := Dev.each_keeps (P := d.QuietTick) xs g (fun x y hy hx => hx.trans (hg x y hy)) e h

end Dev.QuietTick

theorem leTxcStat_mem {e : Nat} (h : e < 3) : R.leTxcStat e ∈ tickRegs := by
  have : e = 0 ∨ e = 1 ∨ e = 2 := by omega
  rcases this with rfl | rfl | rfl <;> simp [tickRegs]

theorem Dev.rampNext_quiet (d : Dev) (w : Nat) : d.QuietTick (d.rampNext w) := by
  unfold Dev.rampNext
  have hr := QuietTick.refl d
  cases d.serving w with
  | none => exact hr.setWave _ _ (by intro _; rfl)
  | some e =>
    dsimp only
    split
    · exact hr
    · split
      · exact hr.setWave _ _ (by intro _; rfl)
      · exact hr.when _ _ fun x => (QuietTick.refl x).setWave _ _ (by intro _; rfl)

theorem Dev.txRefresh_quiet (d : Dev) : d.QuietTick d.txRefresh :=
  ((d.rampNext_quiet 0).trans (Dev.rampNext_quiet _ 1)).each _ _ fun x _ he =>
    (QuietTick.refl x).when _ _ fun y => (QuietTick.refl y).set _ _ (leTxcStat_mem (mem_three he))

theorem Dev.engLine_quiet (d : Dev) {e : Nat} (he : e < 3) (b : Nat) : d.QuietTick (d.engLine e b) := by
  unfold Dev.engLine
  exact QuietTick.trans (QuietTick.setEng (QuietTick.when (QuietTick.refl d) _ _ fun y => (QuietTick.refl y).set _ _ (leTxcStat_mem he)) _ _
    (by intro _ h; exact h)) (Dev.txRefresh_quiet _)

theorem Held.release_nil (b : Nat) (p : Nat → Bool) : Held.release [] b p = [] := rfl

theorem Dev.engSend_quiet (d : Dev) (e b : Nat) : d.QuietTick (d.engSend e b) :=
  (QuietTick.refl d).setEng _ _ fun x h => by rw [h, Held.release_nil]

theorem Dev.engSuperframe_quiet {d : Dev} {e : Nat} (h : (d.eng e).oldSf = []) (b : Nat) : d.QuietTick (d.engSuperframe e b) := by
  unfold Dev.engSuperframe
  dsimp only
  rw [h, Held.release_nil]
  simp only [bne_self_eq_false, Bool.or_self, List.filter_false, Dev.each_nil]
  exact (QuietTick.refl d).setEng _ _ (by intro _ _; rfl)

theorem Dev.sendFrames_quiet {d : Dev} {w : Nat} (h : (d.wave w).txNext = none) (k b : Nat) : d.QuietTick (d.sendFrames w k b) := by
  have hcount : ∀ x : Dev, x.QuietTick (x.countFrames w k) := fun x => by
    unfold Dev.countFrames
    exact ((QuietTick.refl x).setWave _ _ (by intro _; rfl)).each _ _ fun y s _ => (QuietTick.refl y).setSc _ _ _
  have hmove : ∀ x : Dev, d.QuietTick x → x.txMove w true = x := fun x hx => by
    unfold Dev.txMove
    rw [hx.next w, h]
  unfold Dev.sendFrames
  dsimp only
  have hall := (((QuietTick.refl d).setWave w (fun v => { v with lineAt := b }) (by intro _; rfl)).when (d.cordOn (6 + w))
    (fun d => d.countFrames w k) hcount).each ((d.setWave w fun v => { v with lineAt := b }).enginesOf w) (fun x e => (x.engLine e b).when
      (!d.cordOn (6 + w) || k == 0 || decide (8 ≤ (d.wave w).txFnum + k)) fun d' =>
        d'.engSend e (if d.cordOn (6 + w) && k != 0 then b - ((d.wave w).txFnum + k) % 8 * lineTicks else b))
      fun x e he => (x.engLine_quiet (Dev.mem_enginesOf he) b).when _ _ fun y => y.engSend_quiet _ _
  rw [hmove _ hall]
  exact hall

theorem Dev.engFree_quiet {d : Dev} {e : Nat} (he : e < 3) (h : (d.eng e).oldSf = []) (b : Nat) : d.QuietTick (d.engFree e b) := by
  unfold Dev.engFree
  have hsend := (d.engLine_quiet he b).trans (Dev.engSend_quiet _ e b)
  exact QuietTick.setEng (hsend.trans (Dev.engSuperframe_quiet (hsend.sf e h) b)) _ _ (by intro _ h; exact h)

theorem Dev.rampsNow_quiet (d : Dev) : d.QuietTick d.rampsNow := by
  unfold Dev.rampsNow
  exact (QuietTick.refl d).when _ _ fun x => ((QuietTick.refl x).each _ _ fun y w _ => (QuietTick.refl y).setWave _ _ (by intro _; rfl)).trans
    (Dev.txRefresh_quiet _)

/-- Without a frame that waits, no port sends. -/
theorem Dev.sendGens_none {d : Dev} (h : ∀ x ∈ d.macs, x.2.gen = []) : d.sendGens = d := by
  have hnone : (d.macs.filter fun x => !x.2.gen.isEmpty) = [] := List.filter_eq_nil_iff.2 fun x hx => by simp [h x hx]
  unfold Dev.sendGens
  rw [hnone]
  rfl

/-! ### The steering (R22, R23) -/

theorem Dev.steer_keeps (d : Dev) (was now : Nat) : (d.steer was now).time = d.time ∧ (d.steer was now).waves = d.waves
    ∧ (d.steer was now).macs = d.macs ∧ (d.steer was now).inj_ = d.inj_ ∧ (d.steer was now).out = d.out ∧ (d.steer was now).engines = d.engines := by
  unfold Dev.steer Dev.showSteer
  cases d.time.frozen.isNone && was / 78125 != now / 78125
  · exact ⟨rfl, rfl, rfl, rfl, rfl, rfl⟩
  · exact ⟨rfl, rfl, rfl, rfl, rfl, rfl⟩

theorem Dev.steer_only (d : Dev) (was now : Nat) : d.Only [R.hrtClkSteer, R.hrtClkStat] [] (d.steer was now) :=
  (Dev.Only.refl _ _ d).when _ _ fun _ => ((Dev.Only.refl _ _ d).setInt _ _ (by simp [F.hrtClkSteerSteer])).setFlag _ _ (by simp [F.hrtClkStatDisclim])

/-- The steering moves towards its goal, one unit for each limit of the slew that passes, within 50 ppm. -/
theorem Dev.steer_steering (d : Dev) (was now : Nat) : (d.steer was now).steering
    = if d.time.frozen = none ∧ was / 78125 ≠ now / 78125 then
        max (-800000) (min 800000 (towards d.steering d.steerGoal (now / 78125 - was / 78125))) else d.steering := by
  have hcond : (d.time.frozen.isNone && was / 78125 != now / 78125) = true ↔ d.time.frozen = none ∧ was / 78125 ≠ now / 78125 := by simp
  unfold Dev.steer
  by_cases h : d.time.frozen = none ∧ was / 78125 ≠ now / 78125
  · rw [if_pos h, hcond.2 h, Dev.when_true, Dev.showSteer]
    have hfit : F.hrtClkSteerSteer.fits := by simp [Fld.fits, F.hrtClkSteerSteer]
    generalize towards d.steering d.steerGoal (now / 78125 - was / 78125) = x
    dsimp only [Dev.steering]
    have hapart : ∀ (e : Dev) (b : Bool), (e.setFlag F.hrtClkStatDisclim b).getInt F.hrtClkSteerSteer = e.getInt F.hrtClkSteerSteer := fun e b => by
      simp only [Dev.getInt, Dev.get_setFlag_apart e F.hrtClkStatDisclim _ b hfit (.inl (by decide))]
    rw [hapart, Dev.getInt_setInt_self _ _ hfit (by decide)]
    · simp only [F.hrtClkSteerSteer]; omega
    · simp only [F.hrtClkSteerSteer]; omega
  · rw [if_neg h, Bool.eq_false_iff.2 fun hc => h (hcond.1 hc), Dev.when_false]

/-! ### What passes with the ticks -/

theorem Dev.cordOn_lineTick {d e : Dev} (h : d.LineTick e) {c : Nat} (hc : c < 0x100) : e.cordOn c = d.cordOn c := by
  simp only [Dev.cordOn, Dev.cordSt, Dev.get, h.regs _ (.inl (R.hrtPwrCord_lt hc)), F.hrtPwrCordSt]

/-- The line frames of one wavelength that pass up to a count of ticks. -/
def Dev.passLine (d : Dev) (now w : Nat) : Dev :=
  d.when ((now - (d.wave w).lineAt) / lineTicks != 0) fun e =>
    e.sendFrames w ((now - (d.wave w).lineAt) / lineTicks) ((e.wave w).lineAt + (now - (d.wave w).lineAt) / lineTicks * lineTicks)

/-- The boundaries of the engines that are in no wavelength. -/
def Dev.passFree (d : Dev) (was now : Nat) : Dev :=
  d.when (was / lineTicks != now / lineTicks) fun e =>
    e.each ([0, 1, 2].filter fun k => (d.engWl k).isNone) fun e k => e.engFree k (now / lineTicks * lineTicks)

theorem Dev.passLine_lineTick (d : Dev) (now : Nat) {w : Nat} (hw : w < 2) : d.LineTick (d.passLine now w) :=
  (LineTick.refl d).when _ _ fun x => x.sendFrames_lineTick hw _ _

theorem Dev.passFree_lineTick (d : Dev) (was now : Nat) : d.LineTick (d.passFree was now) :=
  (LineTick.refl d).when _ _ fun x => (LineTick.refl x).each _ _ fun y _ hk => y.engFree_lineTick (mem_three (List.mem_filter.1 hk).1) _

theorem Dev.passLine_quiet {d : Dev} (h : d.TxSettled) (now : Nat) {w : Nat} (hw : w < 2) : d.QuietTick (d.passLine now w) := by
  unfold Dev.passLine
  cases (now - (d.wave w).lineAt) / lineTicks != 0
  · exact QuietTick.refl d
  · exact Dev.sendFrames_quiet (h w hw) _ _

theorem Dev.passFree_quiet {d : Dev} (h : ∀ e < 3, (d.eng e).oldSf = []) (was now : Nat) : d.QuietTick (d.passFree was now) := by
  unfold Dev.passFree
  cases was / lineTicks != now / lineTicks
  · exact QuietTick.refl d
  · refine Dev.each_keeps (P := d.QuietTick) _ _ (fun x k hk hx => ?_) d (QuietTick.refl d)
    have hk3 := mem_three (List.mem_filter.1 hk).1
    exact hx.trans (Dev.engFree_quiet hk3 (hx.sf k (h k hk3)) _)

/-- The lines up to a count of ticks. -/
def Dev.passLines (d : Dev) (was now : Nat) : Dev := (((d.passLine now 0).passLine now 1).passFree was now).rampsNow

theorem Dev.elapse_lines (d : Dev) (was now : Nat) : d.elapse was now = ((d.steer was now).passLines was now).sendGens := by
  simp only [Dev.elapse, Dev.passLines, Dev.passLine, Dev.passFree, List.foldl_cons, List.foldl_nil]

theorem Dev.passLines_lineTick (d : Dev) (was now : Nat) : d.LineTick (d.passLines was now) :=
  (((d.passLine_lineTick now (by decide)).trans (Dev.passLine_lineTick _ now (by decide))).trans (Dev.passFree_lineTick _ was now)).trans
    (Dev.rampsNow_lineTick _)

theorem Dev.passLines_quiet {d : Dev} (h : d.TxSettled) (hsf : ∀ e < 3, (d.eng e).oldSf = []) (was now : Nat) : d.QuietTick (d.passLines was now) := by
  have h0 := d.passLine_quiet h now (by decide : 0 < 2)
  have h1 := h0.trans (Dev.passLine_quiet (d := d.passLine now 0) (fun w hw => (h0.next w).trans (h w hw)) now (by decide : 1 < 2))
  exact (h1.trans (Dev.passFree_quiet (fun e he => h1.sf e (hsf e he)) was now)).trans (Dev.rampsNow_quiet _)

theorem Dev.passLine_lineView_ne (d : Dev) (now w : Nat) {j : Nat} (hj : j ≠ w) : ((d.passLine now w).wave j).lineView = (d.wave j).lineView := by
  unfold Dev.passLine
  cases (now - (d.wave w).lineAt) / lineTicks != 0
  · rfl
  · exact (d.sendFrames_lineView w _ _).1 j hj

/-- One line frame passes where its end lies in the tick. -/
theorem Dev.passLine_lineView (d : Dev) {now w : Nat} (hon : d.cordOn (6 + w) = true) (hlo : (d.wave w).lineAt + lineTicks ≤ now)
    (hhi : now < (d.wave w).lineAt + 2 * lineTicks) : ((d.passLine now w).wave w).lineView
      = ((d.wave w).lineAt + lineTicks, (8 * (d.wave w).txSfn + (d.wave w).txFnum + 1) / 8 % 2 ^ 32, (8 * (d.wave w).txSfn + (d.wave w).txFnum + 1) % 8) := by
  have hone : (now - (d.wave w).lineAt) / lineTicks = 1 := by
    simp only [lineTicks] at hlo hhi ⊢
    omega
  have hpass : d.passLine now w = d.sendFrames w 1 ((d.wave w).lineAt + 1 * lineTicks) := by simp only [Dev.passLine, hone, bne, Dev.when]; rfl
  rw [hpass, (d.sendFrames_lineView w 1 _).2 hon, Nat.one_mul]

theorem Dev.passLines_lineView (d : Dev) (was : Nat) {now w : Nat} (hw : w < 2) (hon : d.cordOn (6 + w) = true) (hlo : (d.wave w).lineAt + lineTicks ≤ now)
    (hhi : now < (d.wave w).lineAt + 2 * lineTicks) : ((d.passLines was now).wave w).lineView
      = ((d.wave w).lineAt + lineTicks, (8 * (d.wave w).txSfn + (d.wave w).txFnum + 1) / 8 % 2 ^ 32, (8 * (d.wave w).txSfn + (d.wave w).txFnum + 1) % 8) := by
  have hfree : ∀ x : Dev, x.LineSame (x.passFree was now).rampsNow := fun x =>
    ((LineSame.refl x).when _ _ fun y => (LineSame.refl y).each _ _ fun z _ _ => z.engFree_lineSame _ _).trans (Dev.rampsNow_lineSame _)
  refine (hfree _ w).trans ?_
  have h01 : w = 0 ∨ w = 1 := by omega
  rcases h01 with rfl | rfl
  · exact (Dev.passLine_lineView_ne _ now 1 (by decide)).trans (d.passLine_lineView hon hlo hhi)
  · have hne := d.passLine_lineView_ne now 0 (j := 1) (by decide)
    have hat : ((d.passLine now 0).wave 1).lineAt = (d.wave 1).lineAt := congrArg (·.1) hne
    have hsfn : ((d.passLine now 0).wave 1).txSfn = (d.wave 1).txSfn := congrArg (·.2.1) hne
    have hnum : ((d.passLine now 0).wave 1).txFnum = (d.wave 1).txFnum := congrArg (·.2.2) hne
    have := (d.passLine now 0).passLine_lineView (now := now) (w := 1) ((Dev.cordOn_lineTick (d.passLine_lineTick now (by decide)) (by decide)).trans hon)
      (by rw [hat]; exact hlo) (by rw [hat]; exact hhi)
    rw [this, hat, hsfn, hnum]

/-! ### The counter (R348) -/

theorem unsignedOf_natCast (w n : Nat) : unsignedOf w (n : Int) = n % 2 ^ w := by
  unfold unsignedOf
  rw [← Int.natCast_emod, Int.toNat_natCast]

theorem unsignedOf_lt (w : Nat) (i : Int) : unsignedOf w i < 2 ^ w := by
  have hpos : (0 : Int) < (2 ^ w : Nat) := by exact_mod_cast Nat.two_pow_pos w
  have h0 := Int.emod_nonneg i (ne_of_gt hpos)
  have h1 := Int.emod_lt_of_pos i hpos
  unfold unsignedOf
  omega

theorem unsignedOf_add_unsignedOf (w : Nat) (i j : Int) : unsignedOf w ((unsignedOf w i : Int) + j) = unsignedOf w (i + j) := by
  have hpos : (0 : Int) < (2 ^ w : Nat) := by exact_mod_cast Nat.two_pow_pos w
  have h0 := Int.emod_nonneg i (ne_of_gt hpos)
  unfold unsignedOf
  rw [Int.toNat_of_nonneg h0, Int.emod_add_emod]

/-- The counter after a move, as one number. -/
theorem TimeSt.moved_value (t : TimeSt) (x : Int) : (t.moved x).1.value = unsignedOf 56 (t.value + x) := by
  simp only [TimeSt.moved, TimeSt.value]
  exact Nat.div_add_mod' _ _

theorem TimeSt.moved_keeps (t : TimeSt) (x : Int) : (t.moved x).1.step = t.step ∧ (t.moved x).1.ticks = t.ticks := ⟨rfl, rfl⟩

theorem TimeSt.moved_inRange (t : TimeSt) (x : Int) : (t.moved x).1.InRange := by
  have h := unsignedOf_lt 56 (t.value + x)
  refine ⟨?_, Nat.mod_lt _ (by decide), unsignedOf_lt 16 _⟩
  simp only [TimeSt.moved]
  exact Nat.div_lt_of_lt_mul h

/-- A move that does not pass the counter's end. -/
theorem TimeSt.moved_within {t : TimeSt} (ht : t.InRange) {n : Nat} (h : t.value + n < 2 ^ 56) :
    (t.moved n).2 = 0 ∧ (t.moved n).1.wraps = t.wraps ∧ (t.moved n).1.value = t.value + n := by
  have hk : (t.moved n).2 = 0 := by
    simp only [TimeSt.moved]
    rw [← Int.natCast_add, Int.fdiv_eq_ediv_of_nonneg _ (by omega)]
    exact Int.ediv_eq_zero_of_lt (by omega) (by exact_mod_cast h)
  refine ⟨hk, ?_, ?_⟩
  · change unsignedOf 16 ((t.wraps : Int) + (t.moved n).2) = t.wraps
    rw [hk, Int.add_zero, unsignedOf_natCast, Nat.mod_eq_of_lt ht.2.2]
  · rw [TimeSt.moved_value, ← Int.natCast_add, unsignedOf_natCast, Nat.mod_eq_of_lt h]

/-- A move that passes the counter's end once. -/
theorem TimeSt.moved_past {t : TimeSt} {n : Nat} (h : 2 ^ 56 ≤ t.value + n) (h2 : t.value + n < 2 ^ 57) :
    (t.moved n).2 = 1 ∧ (t.moved n).1.wraps = (t.wraps + 1) % 2 ^ 16 ∧ (t.moved n).1.value = t.value + n - 2 ^ 56 := by
  have hk : (t.moved n).2 = 1 := by
    simp only [TimeSt.moved]
    rw [← Int.natCast_add, Int.fdiv_eq_ediv_of_nonneg _ (by omega)]
    exact_mod_cast (by omega : (t.value + n) / 2 ^ 56 = 1)
  refine ⟨hk, ?_, ?_⟩
  · change unsignedOf 16 ((t.wraps : Int) + (t.moved n).2) = _
    rw [hk]
    exact unsignedOf_natCast 16 (t.wraps + 1)
  · rw [TimeSt.moved_value, ← Int.natCast_add, unsignedOf_natCast]
    omega

theorem neverRaised_timeWrap : neverRaised 0xF8 = false := by decide

/-- A move of the counter is all its own, but for the events of its passages. -/
theorem Dev.moveTime_marks (d : Dev) (x : Int) : (d.setTime fun _ => (d.time.moved x).1).Marks [] [0xF8] (d.moveTime x) :=
  (Marks.refl _ _ _).each _ _ fun e _ _ =>
    ⟨(Only.refl _ _ e).raiseWords _ _ neverRaised_timeWrap (by simp), Dev.raiseWords_quiet e _ _ neverRaised_timeWrap⟩

theorem Dev.moveTime_time (d : Dev) (x : Int) : (d.moveTime x).time = (d.time.moved x).1 := (d.moveTime_marks x).same.time

theorem Dev.moveTime_only (d : Dev) (x : Int) : d.Only [] [0xF8] (d.moveTime x) :=
  ((Only.refl _ _ d).congr (Dev.setTime_keeps d fun _ => (d.time.moved x).1).1).trans (d.moveTime_marks x).only

theorem Dev.raiseWords_out (d : Dev) {n : Nat} (det : List Word) (l : List Nat) (h : neverRaised n = false) : d.out <:+ (d.raiseWords n det l).out := by
  unfold Dev.raiseWords
  simp only [h, Bool.false_eq_true, if_false]
  refine List.IsSuffix.trans ?_ (Dev.groupEdge_out _ _ _)
  cases (!d.flag (F.hrtEvtSrcCtlStat n) && d.flag (F.hrtEvtSrcCtlLog n))
  · exact (d.evtMark_out n).symm ▸ List.suffix_refl _
  · rw [Dev.when_true, Dev.ashAdd_out, Dev.evtMark_out]

theorem Dev.moveTime_sent (d : Dev) (x : Int) : d.out <:+ (d.moveTime x).out :=
  Dev.each_keeps (P := fun e => d.out <:+ e.out) _ _ (fun e _ _ h => h.trans (e.raiseWords_out _ _ neverRaised_timeWrap)) _ (List.suffix_refl _)

/-- A move without a passage raises nothing. -/
theorem Dev.moveTime_none {d : Dev} {x : Int} (h : (d.time.moved x).2 = 0) : d.moveTime x = d.setTime fun _ => (d.time.moved x).1 := by
  unfold Dev.moveTime
  simp only [h, Int.toNat_zero, List.range_zero, Dev.each_nil]

/-- A move with one passage raises TIME_WRAP once (R351). -/
theorem Dev.moveTime_one {d : Dev} {x : Int} (h : (d.time.moved x).2 = 1) : d.Raised 0xF8 (d.moveTime x) := by
  unfold Dev.moveTime
  simp only [h, Int.toNat_one, List.range_one, Dev.each_cons, Dev.each_nil]
  exact ((Only.refl [] [] d).congr (Dev.setTime_keeps d fun _ => (d.time.moved x).1).1).raised_raiseWords _ _ (by simp) (by simp) neverRaised_timeWrap

/-! ### A tick (R348 to R351) -/

/-- The ticks as they pass leave the counter, its registers and its events alone. -/
structure Dev.Ticked (n : Nat) (d e : Dev) : Prop where
  time : e.time = { d.time with ticks := d.time.ticks + n }
  regs : ∀ a, clockKept a → a ≠ R.hrtClkSteer → a ≠ R.hrtClkStat → e.reg a = d.reg a
  sent : d.out <:+ e.out
  only : d.TickQuiet → d.Only tickRegs [] e
  out : d.TickQuiet → e.out = d.out
  quiet : d.TickQuiet → e.TickQuiet

theorem clockKept_lineKept {a : Nat} (h : clockKept a) : lineKept a := by
  rcases h with h | h | h
  · exact .inl h
  · exact .inr (.inl h)
  · exact .inr (.inr (.inl h))

theorem Dev.passTicks_ticked (d : Dev) (n : Nat) : d.Ticked n (d.passTicks n) := by
  unfold Dev.passTicks
  dsimp only
  rw [Dev.elapse_lines]
  obtain ⟨htime, hwaves, hmacs, hinj, hout, heng⟩ := (d.setTime fun t => { t with ticks := d.time.ticks + n }).steer_keeps d.time.ticks (d.time.ticks + n)
  have hsteer := (d.setTime fun t => { t with ticks := d.time.ticks + n }).steer_only d.time.ticks (d.time.ticks + n)
  generalize (d.setTime fun t => { t with ticks := d.time.ticks + n }).steer d.time.ticks (d.time.ticks + n) = e at *
  have hline := e.passLines_lineTick d.time.ticks (d.time.ticks + n)
  have hgen := (e.passLines d.time.ticks (d.time.ticks + n)).sendGens_genTick
  have hq : d.TickQuiet → e.TickQuiet := fun ⟨hnext, hgens, hsf⟩ =>
    ⟨fun w hw => by rw [Dev.wave, hwaves]; exact hnext w hw, by rw [hmacs]; exact hgens, fun k hk => by rw [Dev.eng, heng]; exact hsf k hk⟩
  have hquiet : d.TickQuiet → e.QuietTick (e.passLines d.time.ticks (d.time.ticks + n))
      ∧ (e.passLines d.time.ticks (d.time.ticks + n)).sendGens = e.passLines d.time.ticks (d.time.ticks + n) := fun h => by
    have he := hq h
    have hl := Dev.passLines_quiet he.1 he.2.2 d.time.ticks (d.time.ticks + n)
    exact ⟨hl, Dev.sendGens_none (by rw [hl.macs]; exact he.2.1)⟩
  refine ⟨?_, fun a ha h1 h2 => ?_, ?_, fun h => ?_, fun h => ?_, fun h => ?_⟩
  · rw [hgen.time, hline.time, htime]
    rfl
  · rw [hgen.regs a ha, hline.regs a (clockKept_lineKept ha)]
    exact hsteer a (by simp [h1, h2]) (by simp)
  · refine List.IsSuffix.trans ?_ (hline.sent.trans hgen.sent)
    rw [hout]
    exact List.suffix_refl _
  · obtain ⟨hl, hnone⟩ := hquiet h
    rw [hnone]
    refine Dev.Only.trans (e := e) (hsteer.mono (fun a ha => ?_) fun _ h => h) hl.only
    simp only [List.mem_cons, List.not_mem_nil, or_false] at ha
    rcases ha with rfl | rfl <;> simp [tickRegs]
  · obtain ⟨hl, hnone⟩ := hquiet h
    rw [hnone, hl.out, hout]
    rfl
  · obtain ⟨hl, hnone⟩ := hquiet h
    obtain ⟨hnext, hgens, hsf⟩ := hq h
    rw [hnone]
    exact ⟨fun w hw => (hl.next w).trans (hnext w hw), by rw [hl.macs]; exact hgens, fun k hk => hl.sf k (hsf k hk)⟩

theorem Dev.Ticked.get {n : Nat} {d e : Dev} (h : d.Ticked n e) {f : Fld} (hf : f.addr < 0x80000) (h1 : f.addr ≠ R.hrtClkSteer)
    (h2 : f.addr ≠ R.hrtClkStat) : e.get f = d.get f := by simp only [Dev.get, h.regs _ (.inl hf) h1 h2]

/-- The source of an event of the counter stands between two ticks. -/
theorem Dev.Ticked.raised {k n : Nat} {d e f : Dev} (h : d.Ticked k e) (hn : n = 0xF8 ∨ n = 0xF9) (hr : e.Raised n f) : d.Raised n f := by
  refine hr.of_ctl (h.regs _ (.inr ?_) ?_ ?_).symm rfl
  · exact hn.imp (congrArg _) (congrArg _)
  · rcases hn with rfl | rfl <;> decide
  · rcases hn with rfl | rfl <;> decide

theorem Dev.tick_off {d : Dev} (h : d.get F.hrtTimStatRun = 0) : d.tick = d.passTicks 1 := by simp [Dev.tick, Dev.flag, h]

theorem Dev.tick_on {d : Dev} (h : d.get F.hrtTimStatRun = 1) :
    d.tick = ((d.passTicks 1).moveTime (d.get F.hrtTimIncInc : Nat)).applyStep := by simp [Dev.tick, Dev.flag, h]

theorem Dev.applyStep_none {d : Dev} (h : d.time.step = none) : d.applyStep = d := by
  unfold Dev.applyStep
  rw [h]

/-- A tick that has no step to apply. -/
theorem Dev.tick_plain {d : Dev} (hrun : d.get F.hrtTimStatRun = 1) (hstep : d.time.step = none) :
    d.tick = (d.passTicks 1).moveTime (d.get F.hrtTimIncInc : Nat) := by
  rw [Dev.tick_on hrun, Dev.applyStep_none]
  rw [Dev.moveTime_time, ((TimeSt.moved_keeps _ _).1), (d.passTicks_ticked 1).time]
  exact hstep

theorem TimeSt.value_ticks (t : TimeSt) (n : Nat) : ({ t with ticks := n } : TimeSt).value = t.value := rfl

/-- Quiet ticks leave quiet a device whose counter moves. -/
theorem Dev.TickQuiet.setTime {d : Dev} (h : d.TickQuiet) (f : TimeSt → TimeSt) : (d.setTime f).TickQuiet := h

theorem steerRegs_apart {a : Nat} (h : a < 0x10000 ∨ 0x10009 ≤ a) : a ≠ R.hrtClkSteer ∧ a ≠ R.hrtClkStat := by
  simp only [R.hrtClkSteer, R.hrtClkStat]
  omega

theorem timeReg_get {n : Nat} {d e : Dev} (h : d.Ticked n e) {f : Fld} (hlo : 0x10009 ≤ f.addr) (hhi : f.addr < 0x80000) : e.get f = d.get f :=
  h.get hhi (steerRegs_apart (.inr hlo)).1 (steerRegs_apart (.inr hlo)).2

/-- The step that waits is taken after INC (R351). -/
theorem Dev.applyStep_some {d : Dev} {ns : Int} {sub : Nat} (h : d.time.step = some (ns, sub)) :
    d.applyStep.time = (({ d.time with step := none } : TimeSt).moved (ns * (2 ^ 24 : Nat) + (sub * 256 : Nat))).1
      ∧ d.applyStep.get F.hrtTimStepctlBusy = 0 ∧ d.applyStep.get F.hrtTimStatStepcnt = satAdd 8 (d.get F.hrtTimStatStepcnt) 1
      ∧ d.Raised 0xF9 d.applyStep ∧ d.Only [R.hrtTimStepctl, R.hrtTimStat] [0xF8, 0xF9] d.applyStep := by
  unfold Dev.applyStep
  rw [h]
  dsimp only
  have honly := ((Only.refl [] [0xF8] d).congr (Dev.setTime_keeps d fun t => { t with step := none }).1).trans
    ((d.setTime fun t => { t with step := none }).moveTime_only (ns * (2 ^ 24 : Nat) + (sub * 256 : Nat)))
  have htime := (d.setTime fun t => { t with step := none }).moveTime_time (ns * (2 ^ 24 : Nat) + (sub * 256 : Nat))
  have hnone : (d.setTime fun t => { t with step := none }).time = { d.time with step := none } := rfl
  rw [hnone] at htime
  generalize (d.setTime fun t => { t with step := none }).moveTime (ns * (2 ^ 24 : Nat) + (sub * 256 : Nat)) = e at honly htime
  have hall : d.Only [R.hrtTimStepctl, R.hrtTimStat] [0xF8] ((e.set F.hrtTimStepctlBusy 0).count F.hrtTimStatStepcnt 1) :=
    ((honly.mono (by simp) fun _ h => h).set _ _ (by simp [F.hrtTimStepctlBusy])).count _ _ (by simp [F.hrtTimStatStepcnt])
  have hcnt : e.get F.hrtTimStatStepcnt = d.get F.hrtTimStatStepcnt := by
    simp only [Dev.get, honly _ (by simp : (F.hrtTimStatStepcnt).addr ∉ []) (by decide)]
  refine ⟨?_, ?_, ?_, ?_, ?_⟩
  · rw [Dev.raise_time, ← htime]
    simp
  · rw [Dev.get_raise _ _ _ (.inl (by decide)), Dev.get_count_apart _ _ _ _ (by simp [Fld.fits, F.hrtTimStepctlBusy])
        (by simp [Fld.apart, F.hrtTimStatStepcnt, F.hrtTimStepctlBusy, R.hrtTimStat, R.hrtTimStepctl]),
      Dev.get_set_lt _ _ (by simp [Fld.fits, F.hrtTimStepctlBusy]) (by simp [F.hrtTimStepctlBusy])]
  · rw [Dev.get_raise _ _ _ (.inl (by decide)), Dev.get_count_self _ _ _ (by simp [Fld.fits, F.hrtTimStatStepcnt]), Dev.get_set_ne _ _ (by decide), hcnt]
    rfl
  · exact hall.raised_raise _ (by simp) (by decide) (by decide)
  · exact (hall.mono (fun _ h => h) (by simp)).raise _ _ (by simp)

/-! ### What a write or a read of the counter's registers does -/

theorem Dev.latchGroup_ns (d : Dev) : d.latchGroup R.hrtTimNs = d.latchNs := by simp [Dev.latchGroup]

theorem Dev.timeView_ns (d : Dev) : d.timeView R.hrtTimNs = some d.time.ns := by simp [Dev.timeView]

theorem decodeAddr_timNs : ∃ r, decodeAddr R.hrtTimNs = some r ∧ r.row.name = .hrtTimNs ∧ r.row.fields = roWord := by
  have h : (decodeAddr R.hrtTimNs).map (fun r => (r.row.name, r.row.fields)) = some (.hrtTimNs, roWord) := by decide +kernel
  simpa [Option.map_eq_some_iff] using h

/-- The field of HRT_TIM_INC (R350). -/
def incFields : List FieldRow := [⟨0, 32, .rw, .nat 25165824 28521267⟩]

theorem decodeAddr_timInc : ∃ r, decodeAddr R.hrtTimInc = some r ∧ r.row.name = .hrtTimInc ∧ r.row.fields = incFields ∧ r.row.group = some .time := by
  have h : (decodeAddr R.hrtTimInc).map (fun r => (r.row.name, r.row.fields, r.row.group)) = some (.hrtTimInc, incFields, some .time) := by decide +kernel
  simpa [Option.map_eq_some_iff] using h

/-- The fields of HRT_TIM_STEPCTL (R351). -/
def stepFields : List FieldRow := [⟨0, 16, .rw, .any⟩, ⟨30, 1, .ro, .any⟩, ⟨31, 1, .wo, .any⟩]

theorem decodeAddr_stepctl : ∃ r, decodeAddr R.hrtTimStepctl = some r ∧ r.row.name = .hrtTimStepctl ∧ r.row.fields = stepFields := by
  have h : (decodeAddr R.hrtTimStepctl).map (fun r => (r.row.name, r.row.fields)) = some (.hrtTimStepctl, stepFields) := by decide +kernel
  simpa [Option.map_eq_some_iff] using h

/-- The code of a write of INC is that of its range (R350). -/
theorem Dev.writeCode_inc {d : Dev} {r : RegAt} (hr : decodeAddr R.hrtTimInc = some r) (hx : d.expert (some .time) = true) (v : Word) :
    d.writeCode R.hrtTimInc r v true = if 0x01800000 ≤ v.toNat ∧ v.toNat ≤ 0x01B33333 then 0 else 9 := by
  obtain ⟨r', hr', hname, hfields, hgroup⟩ := decodeAddr_timInc
  obtain rfl := Option.some.inj (hr'.symm.trans hr)
  have hof : (⟨0, 0, 32⟩ : Fld).of v = v.toNat := by simp [Fld.of, Nat.mod_eq_of_lt v.isLt]
  have hmask : v &&& ~~~r'.row.mask = 0 := by
    have : r'.row.mask = BitVec.allOnes 32 := by
      simp only [RegRow.mask, hfields, incFields, List.foldl_cons, List.foldl_nil]
      decide
    rw [this]
    simp
  have htable : d.tableCode R.hrtTimInc r' v false = if 0x01800000 ≤ v.toNat ∧ v.toNat ≤ 0x01B33333 then 0 else 9 := by
    unfold Dev.tableCode
    rw [hmask]
    simp only [hfields, incFields, List.any_cons, List.any_nil, FieldRow.fld, hof, FieldType.writable, FieldRange.ok, Bool.or_false, Bool.true_and]
    by_cases h : 0x01800000 ≤ v.toNat ∧ v.toNat ≤ 0x01B33333
    · obtain ⟨h1, h2⟩ := h
      simp [h1, h2]
    · have hbad : (decide (25165824 ≤ v.toNat) && decide (v.toNat ≤ 28521267)) = false := by
        rw [← Bool.decide_and]
        exact decide_eq_false h
      rw [if_neg h, hbad]
      simp
  have hchapter : d.chapterCode r' v = 0 := by simp only [Dev.chapterCode, hname]
  have hwithheld : d.withheld R.hrtTimInc r' v = false := by
    have hcord : cordOf R.hrtTimInc = 0 := by decide
    have hst : d.cordSt 0 = 3 := rfl
    simp [Dev.withheld, hcord, hst, Dev.released]
  simp [Dev.writeCode, hgroup, hx, htable, hchapter, hwithheld]

/-- A unit passes an idle injector as it is. -/
theorem Dev.fiPass_idle {d : Dev} {i : Nat} (h : d.InjIdle i) (dir : Nat) (x : FiUnit) : d.fiPass i dir false x = (d, [x]) := by
  obtain ⟨harmed, hheld⟩ := h
  simp [Dev.fiPass, Dev.flag, harmed, Dev.fiFollow, hheld]

/-- A frame leaves a port whose lane is in no near-end loop, with its injector idle. -/
theorem Dev.portTx_idle {d : Dev} {p : Nat} (h : d.InjIdle p) (h1 : d.get (F.hsLnLoopMode p) ≠ 1) (h2 : d.get (F.hsLnLoopMode p) ≠ 2) (f : List Byte) :
    d.portTx p f = d.emit (.portFrame p f) := by
  simp [Dev.portTx, Dev.through, Dev.fiPass_idle h, Dev.portOut, h1, h2]

/-- The control frame that waits for its port to wake is sent (R295). -/
theorem Dev.sendGens_one {d : Dev} {p : Nat} {f : List Byte} {n : Nat} (hm : d.macs = [(p, { gen := [f], wakeAt := n })]) (hn : n ≤ d.time.ticks)
    (h : d.InjIdle p) (h1 : d.get (F.hsLnLoopMode p) ≠ 1) (h2 : d.get (F.hsLnLoopMode p) ≠ 2) :
    d.sendGens = (d.setMac p fun m => { m with gen := [] }).emit (.portFrame p f) := by
  have hmac : d.mac p = { gen := [f], wakeAt := n } := by simp [Dev.mac, hm, Tbl.get]
  have hlist : ((d.macs.filter fun x => !x.2.gen.isEmpty).map (·.1)) = [p] := by simp [hm]
  have hidle : (d.setMac p fun m => { m with gen := [] }).InjIdle p := h
  unfold Dev.sendGens
  rw [hlist, Dev.each_cons, Dev.each_nil]
  unfold Dev.sendGen
  simp only [hmac, Option.isNone_none, hn, decide_true, Bool.and_self, Dev.when_true, Dev.each_cons, Dev.each_nil]
  exact Dev.portTx_idle hidle (by rwa [Dev.get_setMac]) (by rwa [Dev.get_setMac]) f

theorem Dev.moveTime_keeps (d : Dev) (x : Int) : (d.moveTime x).waves = d.waves ∧ (d.moveTime x).macs = d.macs ∧ (d.moveTime x).engines = d.engines := by
  obtain ⟨-, hsame⟩ := d.moveTime_marks x
  exact ⟨hsame.waves.trans (by simp), hsame.macs.trans (by simp), hsame.engines.trans (by simp)⟩

theorem Dev.applyStep_keeps (d : Dev) : d.applyStep.waves = d.waves ∧ d.applyStep.macs = d.macs ∧ d.out <:+ d.applyStep.out
    ∧ d.Only [R.hrtTimStepctl, R.hrtTimStat] [0xF8, 0xF9] d.applyStep := by
  cases hst : d.time.step with
  | none =>
    rw [Dev.applyStep_none hst]
    exact ⟨rfl, rfl, List.suffix_refl _, Only.refl _ _ d⟩
  | some p =>
    refine ⟨?_, ?_, ?_, (Dev.applyStep_some hst).2.2.2.2⟩
    all_goals
      unfold Dev.applyStep
      rw [hst]
      dsimp only
      obtain ⟨hwaves, hmacs, -⟩ := (d.setTime fun t => { t with step := none }).moveTime_keeps (p.1 * (2 ^ 24 : Nat) + (p.2 * 256 : Nat))
      have hsent := (d.setTime fun t => { t with step := none }).moveTime_sent (p.1 * (2 ^ 24 : Nat) + (p.2 * 256 : Nat))
      have hout0 : (d.setTime fun t => { t with step := none }).out = d.out := by simp
      rw [hout0] at hsent
      generalize (d.setTime fun t => { t with step := none }).moveTime (p.1 * (2 ^ 24 : Nat) + (p.2 * 256 : Nat)) = g at hwaves hmacs hsent
    · rw [(Dev.raise_quiet _ _ _).waves]
      simpa using hwaves
    · rw [(Dev.raise_quiet _ _ _).macs]
      simpa using hmacs
    · refine hsent.trans ?_
      have hraise := Dev.raise_out ((g.set F.hrtTimStepctlBusy 0).count F.hrtTimStatStepcnt 1) 0xF9 [R.hrtTimStat]
      have hout : ((g.set F.hrtTimStepctlBusy 0).count F.hrtTimStatStepcnt 1).out = g.out := by simp
      rwa [hout] at hraise

/-- What a tick does beside the passing of ticks is to the counter alone. -/
theorem Dev.tick_marks (d : Dev) : d.tick.waves = (d.passTicks 1).waves ∧ d.tick.macs = (d.passTicks 1).macs ∧ (d.passTicks 1).out <:+ d.tick.out
    ∧ (d.passTicks 1).Only [R.hrtTimStepctl, R.hrtTimStat] [0xF8, 0xF9] d.tick := by
  have hdef : d.tick = if d.flag F.hrtTimStatRun then ((d.passTicks 1).moveTime (d.get F.hrtTimIncInc : Nat)).applyStep else d.passTicks 1 := rfl
  rw [hdef]
  generalize d.passTicks 1 = e
  split
  · obtain ⟨hw, hm, -⟩ := e.moveTime_keeps (d.get F.hrtTimIncInc : Nat)
    have hs := e.moveTime_sent (d.get F.hrtTimIncInc : Nat)
    have ho := (e.moveTime_only (d.get F.hrtTimIncInc : Nat)).mono (l' := [R.hrtTimStepctl, R.hrtTimStat]) (evs' := [0xF8, 0xF9]) (by simp) (by simp)
    obtain ⟨hw', hm', hs', ho'⟩ := (e.moveTime (d.get F.hrtTimIncInc : Nat)).applyStep_keeps
    exact ⟨hw'.trans hw, hm'.trans hm, hs.trans hs', ho.trans ho'⟩
  · exact ⟨rfl, rfl, List.suffix_refl _, Only.refl _ _ e⟩

/-- A wrap of the counter takes a whole number of ticks to the first value past its end (R351). -/
theorem wrapTicks {v inc : Nat} (hinc : 0 < inc) (hv : v < 2 ^ 56) :
    2 ^ 56 ≤ v + (2 ^ 56 - v + inc - 1) / inc * inc ∧ v + (2 ^ 56 - v + inc - 1) / inc * inc < 2 ^ 56 + inc := by
  have h1 := Nat.div_add_mod' (2 ^ 56 - v + inc - 1) inc
  have h2 := Nat.mod_lt (2 ^ 56 - v + inc - 1) hinc
  omega

/-- A tick that passes no end of the counter. -/
theorem Dev.tick_within {d : Dev} (hrun : d.get F.hrtTimStatRun = 1) (hstep : d.time.step = none) (hr : d.time.InRange)
    (h : d.time.value + d.get F.hrtTimIncInc < 2 ^ 56) : d.tick.time.wraps = d.time.wraps ∧ d.tick.time.value = d.time.value + d.get F.hrtTimIncInc
      ∧ (∀ a, clockKept a → a ≠ R.hrtClkSteer → a ≠ R.hrtClkStat → d.tick.reg a = d.reg a)
      ∧ (d.TickQuiet → d.Only tickRegs [] d.tick ∧ d.tick.TickQuiet) := by
  have hpass := d.passTicks_ticked 1
  have hrange : (d.passTicks 1).time.InRange := by rw [hpass.time]; exact hr
  have hvalue : (d.passTicks 1).time.value = d.time.value := by rw [hpass.time, TimeSt.value_ticks]
  obtain ⟨hk, hwraps, hval⟩ := TimeSt.moved_within hrange (n := d.get F.hrtTimIncInc) (by rw [hvalue]; exact h)
  rw [Dev.tick_plain hrun hstep, Dev.moveTime_none hk]
  refine ⟨?_, ?_, fun a ha h1 h2 => ?_, fun hq => ⟨?_, ?_⟩⟩
  · exact hwraps.trans (by rw [hpass.time])
  · exact hval.trans (by rw [hvalue])
  · rw [Dev.reg_setTime]
    exact hpass.regs a ha h1 h2
  · exact (hpass.only hq).congr (Dev.setTime_keeps _ _).1
  · exact (hpass.quiet hq).setTime _

/-- The device once the steering has moved for the ticks that pass, before anything else does. -/
structure Dev.Steered (n : Nat) (d e : Dev) : Prop where
  passes : d.passTicks n = (e.passLines d.time.ticks (d.time.ticks + n)).sendGens
  ticks : e.time.ticks = d.time.ticks + n
  waves : e.waves = d.waves
  macs : e.macs = d.macs
  inj : e.inj_ = d.inj_
  only : d.Only [R.hrtClkSteer, R.hrtClkStat] [] e
  steering : e.steering = if d.time.frozen = none ∧ d.time.ticks / 78125 ≠ (d.time.ticks + n) / 78125 then
    max (-800000) (min 800000 (towards d.steering d.steerGoal ((d.time.ticks + n) / 78125 - d.time.ticks / 78125))) else d.steering

theorem Dev.steered (d : Dev) (n : Nat) : ∃ e, d.Steered n e := by
  obtain ⟨htime, hwaves, hmacs, hinj, -, -⟩ := (d.setTime fun t => { t with ticks := d.time.ticks + n }).steer_keeps d.time.ticks (d.time.ticks + n)
  exact ⟨_, Dev.elapse_lines _ _ _, congrArg TimeSt.ticks htime, hwaves.trans (by simp), hmacs.trans (by simp), hinj.trans (by simp),
    Dev.steer_only _ d.time.ticks (d.time.ticks + n), Dev.steer_steering _ d.time.ticks (d.time.ticks + n)⟩

theorem TimeSt.value_step (t : TimeSt) (x : Option (Int × Nat)) : ({ t with step := x } : TimeSt).value = t.value := rfl

theorem Dev.setReg_waiting_keeps (d : Dev) (l : List Access) (a : Nat) (v : Word) :
    ((d.setWaiting l).setReg a v).time = d.time ∧ ((d.setWaiting l).setReg a v).out = d.out := ⟨rfl, rfl⟩

/-- A tick adds INC to the counter (R348). -/
theorem State.tick_value : ∀ s : State, s.dev.get F.hrtTimStatRun = 1 → s.dev.time.step = none → s.dev.time.InRange →
    ∃ t, (s.run fun _ d => d.tick) = .next t ∧ t.dev.time.value = (s.dev.time.value + s.dev.get F.hrtTimIncInc) % 2 ^ 56 := by
  refine State.of_sent ?_ fun _ h => h
  intro s hs hrun hstep hr
  refine State.run_ends hs rfl fun t ht hout hfz => ?_
  rw [ht.same.time, Dev.tick_plain hrun hstep, Dev.moveTime_time, TimeSt.moved_value, ← Int.natCast_add, unsignedOf_natCast,
    (s.dev.passTicks_ticked 1).time, TimeSt.value_ticks]

/-- Settles O41: the ticks as they pass leave the counter alone, so that a tick moves it by INC and then by the step that waits. -/
theorem theCounterTicksAndSteps : Obligations.TheCounterTicksAndSteps := by
  have hinc : ∀ d : Dev, d.get F.hrtTimIncInc < 2 ^ 32 := fun d => d.get_lt F.hrtTimIncInc
  refine ⟨?_, ?_, ?_, ?_, ?_, ?_, ?_, ?_, ?_, ?_, by decide +kernel, by decide, by decide, ?_, by decide⟩
  · intro s hp
    rw [step_nil hp]
    revert s
    refine State.of_sent ?_ fun _ h => h
    intro s hs _ hrun hstep hr
    refine State.run_ends hs rfl fun t ht hout hfz => ?_
    have hpass := s.dev.passTicks_ticked 1
    have hrange : (s.dev.passTicks 1).time.InRange := by rw [hpass.time]; exact hr
    have hvalue : (s.dev.passTicks 1).time.value = s.dev.time.value := by rw [hpass.time, TimeSt.value_ticks]
    have htick : s.dev.tick.time = ((s.dev.passTicks 1).time.moved (s.dev.get F.hrtTimIncInc : Nat)).1 := by
      rw [Dev.tick_plain hrun hstep, Dev.moveTime_time]
    refine ⟨?_, ?_, fun h => ?_, fun h => ?_⟩
    · rw [ht.same.time, htick, TimeSt.moved_value, ← Int.natCast_add, unsignedOf_natCast, hvalue]
    · rw [ht.same.time, htick, (TimeSt.moved_keeps _ _).2, hpass.time]
    · obtain ⟨hwraps, -, -, hq⟩ := Dev.tick_within hrun hstep hr h
      exact ⟨by rw [ht.same.time, hwraps], fun hquiet => ht.only.2 (hq hquiet).1⟩
    · have hv : s.dev.time.value < 2 ^ 56 := by
        obtain ⟨h1, h2, -⟩ := hr
        simp only [TimeSt.value]
        omega
      obtain ⟨hk, hwraps, -⟩ := TimeSt.moved_past (t := (s.dev.passTicks 1).time) (n := s.dev.get F.hrtTimIncInc) (by rw [hvalue]; exact h)
        (by rw [hvalue]; have := hinc s.dev; omega)
      refine ⟨?_, ?_, fun hquiet => ?_⟩
      · rw [ht.same.time, htick, hwraps, hpass.time]
      · refine ht.raised.2 (hpass.raised (.inl rfl) ?_)
        rw [Dev.tick_plain hrun hstep]
        exact Dev.moveTime_one hk
      · refine ht.only.2 (((hpass.only hquiet).mono (fun _ h => h) (by simp)).trans ?_)
        rw [Dev.tick_plain hrun hstep]
        exact (Dev.moveTime_only _ _).mono (by simp) fun _ h => h
  · intro s hp
    rw [step_nil hp]
    revert s
    refine State.of_sent ?_ fun _ h => h
    intro s hs _ hrun
    refine State.run_ends hs rfl fun t ht hout hfz => ?_
    rw [Dev.tick_off hrun] at ht hout
    have hpass := s.dev.passTicks_ticked 1
    refine ⟨ht.same.time.trans hpass.time, fun hq => ⟨?_, ht.only.2 (hpass.only hq)⟩⟩
    rw [hout, hpass.out hq, hs]
    rfl
  · intro p f s hp
    rw [step_nil hp]
    revert s
    refine State.of_sent ?_ fun _ h => h
    intro s hs _ hmacs hidle h1 h2
    refine State.run_ends hs rfl fun t ht hout hfz => ?_
    obtain ⟨-, htmacs, htsent, -⟩ := s.dev.tick_marks
    obtain ⟨e, he⟩ := s.dev.steered 1
    rw [he.passes] at htmacs htsent
    have hline := e.passLines_lineTick s.dev.time.ticks (s.dev.time.ticks + 1)
    generalize e.passLines s.dev.time.ticks (s.dev.time.ticks + 1) = g at *
    have hreg : ∀ a, 0xA000000 ≤ a → a % 0x10000 = 0xC ∨ a % 0x10000 = 0x14 → g.reg a = s.dev.reg a := fun a ha hm => by
      rw [hline.regs a (.inr (.inr (.inr ⟨ha, hm⟩)))]
      exact he.only a (by simp only [R.hrtClkSteer, R.hrtClkStat, List.mem_cons, List.not_mem_nil, or_false]; omega) (by simp)
    have hmode : g.get (F.hsLnLoopMode p) = s.dev.get (F.hsLnLoopMode p) := by
      simp only [Dev.get, F.hsLnLoopMode]
      rw [hreg (R.hsLnLoop p) (by simp only [R.hsLnLoop, hsBase]; omega) (.inl (by simp only [R.hsLnLoop, hsBase]; omega))]
    have harmed : g.get (fiF p 0x14 0 1) = s.dev.get (fiF p 0x14 0 1) := by
      simp only [Dev.get, fiF, fiBase, if_pos p.isLt]
      rw [hreg (R.hsFiCtl p + 0x14) (by simp only [R.hsFiCtl, hsBase]; omega) (.inr (by simp only [R.hsFiCtl, hsBase]; omega))]
    have hgidle : g.InjIdle p := by
      refine ⟨harmed.trans hidle.1, ?_⟩
      rw [Dev.inj, hline.inj, he.inj]
      exact hidle.2
    have hsend := Dev.sendGens_one (d := g) (p := p) (f := f) (n := s.dev.time.ticks + 1) (by rw [hline.macs, he.macs]; exact hmacs)
      (by rw [hline.time, he.ticks]) hgidle (by rw [hmode]; exact h1) (by rw [hmode]; exact h2)
    rw [hsend] at htmacs htsent
    refine ⟨?_, ?_⟩
    · rw [hout]
      exact List.mem_append_left _ (htsent.subset List.mem_cons_self)
    · rw [ht.mac, Dev.mac, htmacs]
      have : ((g.setMac p fun m => { m with gen := [] }).emit (.portFrame p f)).mac p = { g.mac p with gen := [] } := by simp
      exact congrArg Mac.gen this
  · intro s hp
    rw [step_nil hp]
    revert s
    refine State.of_sent ?_ fun _ h => h
    intro s hs _
    refine State.run_ends hs rfl fun t ht hout hfz => ?_
    obtain ⟨-, -, -, hmarks⟩ := s.dev.tick_marks
    obtain ⟨e, he⟩ := s.dev.steered 1
    rw [he.passes] at hmarks
    have hkept : clockKept R.hrtClkSteer := .inl (by decide)
    have hreg : s.dev.tick.reg R.hrtClkSteer = e.reg R.hrtClkSteer := by
      rw [hmarks _ (by decide) (by decide), (Dev.sendGens_genTick _).regs _ hkept, (e.passLines_lineTick _ _).regs _ (clockKept_lineKept hkept)]
    have hst : t.dev.steering = e.steering := by
      rw [Dev.steering, ht.getInt]
      simp only [Dev.steering, Dev.getInt, Dev.get, F.hrtClkSteerSteer, hreg]
    rw [hst, he.steering]
    have hdiff : (s.dev.time.ticks + 1) / 78125 - s.dev.time.ticks / 78125 = 1 ∨ s.dev.time.ticks / 78125 = (s.dev.time.ticks + 1) / 78125 := by omega
    rcases hdiff with h | h
    · rw [h]
    · rw [if_neg fun hc => hc.2 h, if_neg fun hc => hc.2 h]
  · intro w s hp
    rw [step_nil hp]
    revert s
    refine State.of_sent ?_ fun _ h => h
    intro s hs _ hon hlo hhi
    refine State.run_ends hs rfl fun t ht hout hfz => ?_
    obtain ⟨hwaves, -, -, -⟩ := s.dev.tick_marks
    obtain ⟨e, he⟩ := s.dev.steered 1
    rw [he.passes, (Dev.sendGens_genTick _).waves] at hwaves
    have hwave : e.wave w = s.dev.wave w := by simp only [Dev.wave, he.waves]
    have heon : e.cordOn (6 + w) = true := by
      have hreg : e.reg (R.hrtPwrCord (6 + w)) = s.dev.reg (R.hrtPwrCord (6 + w)) :=
        he.only _ (by simp only [R.hrtPwrCord, R.hrtClkSteer, R.hrtClkStat, List.mem_cons, List.not_mem_nil, or_false]; omega) (by simp)
      simp only [Dev.cordOn, Dev.cordSt, Dev.get, F.hrtPwrCordSt] at hon ⊢
      rw [hreg]
      exact hon
    have hview := e.passLines_lineView s.dev.time.ticks w.isLt heon (now := s.dev.time.ticks + 1) (by rw [hwave]; exact hlo) (by rw [hwave]; exact hhi)
    have htw : t.dev.wave w = (e.passLines s.dev.time.ticks (s.dev.time.ticks + 1)).wave w := by rw [ht.wave, Dev.wave, hwaves, Dev.wave]
    rw [hwave, ← htw, Wave.lineView, Prod.mk.injEq, Prod.mk.injEq] at hview
    obtain ⟨hat, hsfn, hnum⟩ := hview
    refine ⟨hat, ?_, ?_⟩
    · rw [hnum]; omega
    · rw [hnum, hsfn]; omega
  · intro v
    refine State.of_sent ?_ fun _ h => h
    intro s hs htakes
    obtain ⟨r, hr, hname, hfields⟩ := decodeAddr_stepctl
    simp only [exec, execTimeStep]
    have hgo : F.hrtTimStepctlGo.of (F.hrtTimStepctlGo.put v 1) = 1 := Fld.of_put _ _ _ (by decide)
    refine State.plainWrite_takes (u := fun _ => F.hrtTimStepctlGo.put v 1) (g := fun d => (d.setReg R.hrtTimStepctl (r.row.merge (d.reg R.hrtTimStepctl)
      (F.hrtTimStepctlGo.put v 1))).stepGo (F.hrtTimStepctlGo.put v 1)) hs rfl rfl htakes (emberOfs_time (by decide)) hr (by rw [hname]; rfl)
      (Dev.ringsUp_of_lt (by decide)) (fun d => by simp only [Dev.writeGo, hname]) fun l t ht hout => ?_
    have hstepGo : ∀ d : Dev, d.stepGo (F.hrtTimStepctlGo.put v 1)
        = (d.setTime fun t => { t with step := some (d.getInt F.hrtTimStepnsStepns, F.hrtTimStepctlStepsub.of (F.hrtTimStepctlGo.put v 1)) }).set
            F.hrtTimStepctlBusy 1 := fun d => by simp [Dev.stepGo, hgo]
    have hsub : F.hrtTimStepctlStepsub.of (F.hrtTimStepctlGo.put v 1) = F.hrtTimStepctlStepsub.of v :=
      Fld.of_put_apart _ _ _ _ (by decide) (by decide)
    rw [hstepGo, hsub] at ht hout
    have honly : s.dev.Only [R.hrtTimStepctl] [] ((s.dev.setWaiting l).setReg R.hrtTimStepctl (r.row.merge ((s.dev.setWaiting l).reg R.hrtTimStepctl)
        (F.hrtTimStepctlGo.put v 1))) := ((Dev.Only.refl _ _ s.dev).congr (Dev.setWaiting_keeps s.dev l).1).setReg _ (by simp)
    have htime : ((s.dev.setWaiting l).setReg R.hrtTimStepctl (r.row.merge ((s.dev.setWaiting l).reg R.hrtTimStepctl)
        (F.hrtTimStepctlGo.put v 1))).time = s.dev.time := (Dev.setReg_waiting_keeps _ _ _ _).1
    have hout0 : ((s.dev.setWaiting l).setReg R.hrtTimStepctl (r.row.merge ((s.dev.setWaiting l).reg R.hrtTimStepctl)
        (F.hrtTimStepctlGo.put v 1))).out = [] := (Dev.setReg_waiting_keeps _ _ _ _).2.trans hs
    generalize (s.dev.setWaiting l).setReg R.hrtTimStepctl (r.row.merge ((s.dev.setWaiting l).reg R.hrtTimStepctl)
      (F.hrtTimStepctlGo.put v 1)) = e at *
    have hns : e.getInt F.hrtTimStepnsStepns = s.dev.getInt F.hrtTimStepnsStepns := by
      simp only [Dev.getInt, Dev.get, honly _ (by decide : F.hrtTimStepnsStepns.addr ∉ [R.hrtTimStepctl]) (by simp)]
    have htt : t.dev.time = { s.dev.time with step := some (s.dev.getInt F.hrtTimStepnsStepns, F.hrtTimStepctlStepsub.of v) } := by
      rw [ht.same.time, ← htime, ← hns]
      rfl
    refine ⟨?_, ?_, ?_, ?_, ?_⟩
    · rw [hout]
      simp [hout0]
    · rw [ht.get, Dev.get_setWaiting, Dev.get_emit, Dev.get_set_lt _ _ (by simp [Fld.fits, F.hrtTimStepctlBusy]) (by decide)]
    · rw [htt]
      rfl
    · rw [htt]
    · refine ht.only.2 ((((honly.congr (Dev.setTime_keeps e fun t => { t with step := some (e.getInt F.hrtTimStepnsStepns,
        F.hrtTimStepctlStepsub.of v) }).1).set F.hrtTimStepctlBusy 1 (by simp [F.hrtTimStepctlBusy])).emit _).congr (Dev.setWaiting_keeps _ _).1)
  · intro ns sub s hp
    rw [step_nil hp]
    revert s
    refine State.of_sent ?_ fun _ h => h
    intro s hs _ hrun hstep hr
    refine State.run_ends hs rfl fun t ht hout hfz => ?_
    have hpass := s.dev.passTicks_ticked 1
    have hvalue : (s.dev.passTicks 1).time.value = s.dev.time.value := by rw [hpass.time, TimeSt.value_ticks]
    have hmtime := (s.dev.passTicks 1).moveTime_time (s.dev.get F.hrtTimIncInc : Nat)
    have hmonly := (s.dev.passTicks 1).moveTime_only (s.dev.get F.hrtTimIncInc : Nat)
    rw [Dev.tick_on hrun] at ht
    have hmstep : ((s.dev.passTicks 1).moveTime (s.dev.get F.hrtTimIncInc : Nat)).time.step = some (ns, sub) := by
      rw [hmtime, (TimeSt.moved_keeps _ _).1, hpass.time]
      exact hstep
    generalize (s.dev.passTicks 1).moveTime (s.dev.get F.hrtTimIncInc : Nat) = e at *
    obtain ⟨htime, hbusy, hcnt, hraised, honly⟩ := Dev.applyStep_some hmstep
    refine ⟨?_, ?_, ht.get _ ▸ hbusy, ?_, ?_, fun hq => ?_⟩
    · rw [ht.same.time, htime, TimeSt.moved_value]
      have hv : ({ e.time with step := none } : TimeSt).value = unsignedOf 56 (s.dev.time.value + s.dev.get F.hrtTimIncInc) := by
        rw [TimeSt.value_step, ← hvalue, ← TimeSt.moved_value, ← hmtime]
      rw [hv, unsignedOf_add_unsignedOf]
      exact congrArg (unsignedOf 56) (by push_cast; ring)
    · rw [ht.same.time, htime, (TimeSt.moved_keeps _ _).1]
    · rw [ht.get, hcnt, ← timeReg_get hpass (f := F.hrtTimStatStepcnt) (by decide) (by decide)]
      simp only [Dev.get, hmonly _ (by simp : F.hrtTimStatStepcnt.addr ∉ []) (by decide)]
    · exact ht.raised.2 (hpass.raised (.inr rfl) (hraised.of_ctl (hmonly _ (by simp) (by decide)).symm rfl))
    · refine ht.only.2 ((((hpass.only hq).mono (fun a ha => ?_) (by simp)).trans (hmonly.mono (by simp) (by simp))).trans
        (honly.mono (fun a ha => ?_) fun _ h => h))
      · exact List.mem_cons_of_mem _ (List.mem_cons_of_mem _ ha)
      · simp only [List.mem_cons, List.not_mem_nil, or_false] at ha
        rcases ha with rfl | rfl <;> simp
  · refine State.of_sent ?_ fun _ h => h
    intro s hs hrun hne hstep hr hlt
    simp only [exec, execTimeWrap]
    refine State.run_ends hs rfl fun t ht hout hfz => ?_
    have hrunf : (!s.dev.flag F.hrtTimStatRun) = false := by simp [Dev.flag, hrun]
    rw [hrunf] at ht
    simp only [Bool.false_eq_true, if_false] at ht
    obtain ⟨hwraps, hval, hregs, hq⟩ := Dev.tick_within hrun hstep hr hlt
    have hticks : s.dev.tick.time.ticks = s.dev.time.ticks + 1 := by
      rw [Dev.tick_plain hrun hstep, Dev.moveTime_time, (TimeSt.moved_keeps _ _).2, (s.dev.passTicks_ticked 1).time]
    have hget : ∀ f : Fld, 0x10009 ≤ f.addr → f.addr < 0x80000 → s.dev.tick.get f = s.dev.get f := fun f hlo hhi => by
      simp only [Dev.get, hregs _ (.inl hhi) (steerRegs_apart (.inr hlo)).1 (steerRegs_apart (.inr hlo)).2]
    have hevt : ∀ f : Dev, s.dev.tick.Raised 0xF8 f → s.dev.Raised 0xF8 f := fun f h =>
      h.of_ctl (hregs _ (.inr (.inl rfl)) (by decide) (by decide)).symm rfl
    rw [hget F.hrtTimIncInc (by decide) (by decide), hval] at ht
    have hrun1 : s.dev.tick.get F.hrtTimStatRun = 1 := (hget _ (by decide) (by decide)).trans hrun
    have hinc1 := hget F.hrtTimIncInc (by decide) (by decide)
    have hmax : max 1 (s.dev.get F.hrtTimIncInc) = s.dev.get F.hrtTimIncInc := by omega
    rw [hmax] at ht
    generalize s.dev.tick = e at *
    obtain ⟨hge, hle⟩ := wrapTicks (Nat.pos_of_ne_zero hne) hlt
    generalize hn : (2 ^ 56 - (s.dev.time.value + s.dev.get F.hrtTimIncInc) + s.dev.get F.hrtTimIncInc - 1) / s.dev.get F.hrtTimIncInc = n at *
    have hpass := e.passTicks_ticked n
    have hon : e.ticksOn n = (e.passTicks n).moveTime ((n * s.dev.get F.hrtTimIncInc : Nat) : Int) := by
      have hrun2 : e.flag F.hrtTimStatRun = true := by simp [Dev.flag, hrun1]
      rw [Dev.ticksOn, hrun2, Dev.when_true, timeReg_get hpass (f := F.hrtTimIncInc) (by decide) (by decide), hinc1]
    rw [hon] at ht
    have hpv : (e.passTicks n).time.value = s.dev.time.value + s.dev.get F.hrtTimIncInc := by rw [hpass.time, TimeSt.value_ticks, hval]
    obtain ⟨hk, hw, hv⟩ := TimeSt.moved_past (t := (e.passTicks n).time) (n := n * s.dev.get F.hrtTimIncInc) (by rw [hpv]; exact hge)
      (by rw [hpv]; have := hinc s.dev; omega)
    have htv : t.dev.time.value = s.dev.time.value + s.dev.get F.hrtTimIncInc + n * s.dev.get F.hrtTimIncInc - 2 ^ 56 := by
      rw [ht.same.time, Dev.moveTime_time, hv, hpv]
    refine ⟨by omega, ⟨n + 1, ?_, ?_⟩, ?_, ?_, fun hquiet => ?_⟩
    · rw [htv, Nat.add_mul]
      omega
    · rw [ht.same.time, Dev.moveTime_time, (TimeSt.moved_keeps _ _).2, hpass.time]
      change e.time.ticks + n = _
      omega
    · rw [ht.same.time, Dev.moveTime_time, hw, hpass.time]
      change (e.time.wraps + 1) % _ = _
      rw [hwraps]
    · exact ht.raised.2 (hevt _ (hpass.raised (.inl rfl) (Dev.moveTime_one hk)))
    · obtain ⟨ho, hqe⟩ := hq hquiet
      exact ht.only.2 (((ho.trans (hpass.only hqe)).mono (fun _ h => h) (by simp)).trans ((Dev.moveTime_only _ _).mono (by simp) fun _ h => h))
  · refine State.of_sent ?_ fun _ h => h
    intro s hs hans hr
    obtain ⟨r, hdec, hname, hfields⟩ := decodeAddr_timNs
    simp only [exec, execTimNsRead]
    refine State.group_read (a := R.hrtTimNs) (n := fun d => d.time.ns) hs hans (emberOfs_time (by decide)) hdec (by simp [hfields, roWord])
      (fun d => by simp only [Dev.readEffect, hname]) (fun fz d => by simp only [Dev.rawValue, hname, Dev.timeView_ns]) (fun d e h => by rw [h])
      fun e t honly htime hregs httime hout => ?_
    rw [Dev.latchGroup_ns] at hregs
    obtain ⟨h1, h2, h3⟩ := hr
    have hget := fun f => Dev.get_congr hregs.symm f
    unfold Dev.latchNs at hregs hget
    rw [htime] at hregs hget
    refine ⟨?_, ?_, ?_, httime, ?_⟩
    · rw [hout, RegRow.only_whole hfields (by decide)]
    · rw [hget, Dev.get_set_apart _ _ _ _ (by simp [Fld.fits, F.hrtTimSubSub]) (by simp [Fld.apart, F.hrtTimSubSub, F.hrtTimSubWraps]),
        Dev.get_set_lt _ _ (by simp [Fld.fits, F.hrtTimSubSub]) (by simp only [F.hrtTimSubSub]; omega)]
    · rw [hget, Dev.get_set_lt _ _ (by simp [Fld.fits, F.hrtTimSubWraps]) (by simp only [F.hrtTimSubWraps]; omega)]
    · exact (((honly.mono (by simp) fun _ h => h).set _ _ (by simp [F.hrtTimSubSub])).set _ _ (by simp [F.hrtTimSubWraps])).congr hregs.symm
  · intro v
    refine State.of_sent ?_ fun _ h => h
    intro s hs htakes hp hrun1 hstep hr
    obtain ⟨r, hdec, hname, hfields, -⟩ := decodeAddr_timInc
    have hex : ∃ t, exec (.registerWrite 0x30008 4 v) s = .next t ∧ t.dev.time = s.dev.time ∧ t.dev.get F.hrtTimIncInc = v.toNat
        ∧ t.dev.get F.hrtTimStatRun = 1 := by
      simp only [exec, execRegisterWrite]
      refine State.plainWrite_takes (a := R.hrtTimInc) (u := fun _ => v) (g := fun d => d.setReg R.hrtTimInc (r.row.merge (d.reg R.hrtTimInc) v)) hs rfl
        rfl htakes (emberOfs_time (by decide)) hdec (by rw [hname]; rfl) (Dev.ringsUp_of_lt (by decide)) (fun d => by simp only [Dev.writeGo, hname])
        fun l t ht hout => ?_
      have htime := (s.dev.setReg_waiting_keeps l R.hrtTimInc (r.row.merge ((s.dev.setWaiting l).reg R.hrtTimInc) v)).1
      have hinc := Dev.get_setReg_self (a := R.hrtTimInc) (s.dev.setWaiting l) F.hrtTimIncInc (r.row.merge ((s.dev.setWaiting l).reg R.hrtTimInc) v) rfl
      have hrun := Dev.get_setReg_ne (s.dev.setWaiting l) R.hrtTimInc (r.row.merge ((s.dev.setWaiting l).reg R.hrtTimInc) v) F.hrtTimStatRun (by decide)
      generalize (s.dev.setWaiting l).setReg R.hrtTimInc (r.row.merge ((s.dev.setWaiting l).reg R.hrtTimInc) v) = e at *
      refine ⟨ht.same.time.trans htime, ?_, ?_⟩
      · rw [ht.get, Dev.get_setWaiting, Dev.get_emit, hinc,
          RegRow.of_merge_rw hfields (by simp [FieldRow.sound, incFields]) (f := ⟨0, 32, .rw, .nat 25165824 28521267⟩) (by simp [incFields]) (.inl rfl) rfl rfl]
        simp [Fld.of, F.hrtTimIncInc, Nat.mod_eq_of_lt v.isLt]
      · rw [ht.get, Dev.get_setWaiting, Dev.get_emit, hrun, Dev.get_setWaiting, hrun1]
    obtain ⟨t, hexec, htime, htinc, htrun⟩ := hex
    have hpend : t.pending = [] := by
      rcases exec_runs (.registerWrite 0x30008 4 v) s with h | ⟨ns, h, -⟩
      · obtain ⟨t', ht', -, hpend, -⟩ := h.keeps
        rw [hexec] at ht'
        cases ht'
        exact hpend.trans hp
      · cases h
    have hstep2 : ∃ u, step t = .next u ∧ u.dev.time.value = (s.dev.time.value + v.toNat) % 2 ^ 56 := by
      rw [step_nil hpend]
      rw [← htime] at hstep hr ⊢
      rw [← htinc]
      exact State.tick_value t htrun hstep hr
    obtain ⟨u, hu, huv⟩ := hstep2
    exact ⟨t, u, hexec, htime, htinc, hu, huv⟩
  · intro v r d hr hx
    exact Dev.writeCode_inc hr hx v

end Sys2Proof.Machine
end

section
/-!
PROOFS. Received frames (R278 to R282, R300).
-/

namespace Sys2Proof.Machine

set_option Elab.async false

/-! ### Received frames (R278 to R282, R300) -/

/-- An occurrence counted and its event raised. -/
theorem Dev.count_raise_shows (d : Dev) (f : Fld) (l : List Nat) {n : Nat} (hfit : f.fits) (hf : 0x81000 ≤ f.addr) (hn : neverRaised n = false) :
    ((d.count f 1).raise n l).get f = satAdd f.width (d.get f) 1 ∧ d.Raised n ((d.count f 1).raise n l)
      ∧ ((d.count f 1).raise n l).pkt = d.pkt ∧ d.Only [f.addr] [n] ((d.count f 1).raise n l) := by
  have honly : d.Only [f.addr] [] (d.count f 1) := (Dev.Only.refl _ _ d).count f 1 (by simp)
  have hn' : n < 0x100 := by
    simp only [neverRaised, Bool.or_eq_false_iff, decide_eq_false_iff_not] at hn
    omega
  refine ⟨?_, honly.raised_raise _ (by simp) ?_ hn, ?_, (honly.mono (fun _ h => h) (by simp)).raise _ _ (by simp)⟩
  · rw [Dev.get_raise _ _ _ (.inr hf), Dev.get_count_self _ _ _ hfit]
  · simp only [List.mem_singleton, R.hrtEvtSrcCtl]
    omega
  · rw [(Dev.raise_quiet _ _ _).pkt]
    simp

theorem Dev.trafficOk_eight (d : Dev) : d.trafficOk 8 = (d.released 8 && d.released 9) := by simp [Dev.trafficOk, Dev.needs]

/-- PKT carries traffic on through changes of other registers. -/
theorem Dev.Only.trafficOk_eight {d e : Dev} {regs evs : List Nat} (h : d.Only regs evs e) (hr : ∀ a ∈ regs, 0x80000 ≤ a) :
    e.trafficOk 8 = d.trafficOk 8 := by
  have hcord : ∀ c < 0x100, e.cordSt c = d.cordSt c := fun c hc => h.cordSt_eq hc fun hm => by
    have := R.hrtPwrCord_lt hc
    have := hr _ hm
    omega
  simp only [Dev.trafficOk_eight, Dev.released, hcord 8 (by decide), hcord 9 (by decide)]

/-- A frame at a port that receives it goes to the port's checks. -/
theorem Dev.portRx_receives {d : Dev} {p lo hi : Nat} {f : List Byte} (h : d.Receives p lo hi f.length) (pcs : Bool) :
    d.portRx p f pcs = d.macRx p f pcs := by
  obtain ⟨hlink, hrel, hidle, -⟩ := h
  simp [Dev.portRx, hlink, hrel, Dev.through, Dev.fiPass_idle hidle]

/-- Every check of a received frame is against the limits in force when it began. -/
theorem Dev.Receives.limits {d : Dev} {p lo hi len : Nat} (h : d.Receives p lo hi len) : d.rxLimits p len = (lo, hi) := h.2.2.2.2

theorem Dev.fits_iff (d : Dev) (p n : Nat) : d.fits p n = true ↔ ¬ d.storeSize p < d.storeHeld p + storeUnits n := by
  simp [Dev.fits]

/-- A frame that passes every check (R280). -/
theorem Dev.macRx_good {d : Dev} {p lo hi : Nat} {f : List Byte} (h : d.Receives p lo hi f.length) (hlo : lo ≤ f.length) (hhi : f.length ≤ hi)
    (hfit : d.fits p f.length = true) (hfcs : f.drop (f.length - 4) = fcsOf (f.take (f.length - 4))) (hty : beAt f 12 2 ≠ 0x8808) :
    d.macRx p f false = ((d.count (F.hsMacRxfrmCount p) 1).countBytes p true f.length).dhSend p
      (stripTags { src := p, srcn := p, bytes := f.take (f.length - 4), ts := ⟨d.time.ns, d.time.sub / 256⟩, tsport := true }) := by
  unfold Dev.macRx
  simp only [h.limits]
  rw [if_neg (by omega), if_neg (by rw [Nat.min_eq_left hhi]; exact (d.fits_iff _ _).1 hfit), if_neg (by omega), if_neg (by simp),
    if_neg (not_not.2 hfcs), if_neg hty]

theorem Dev.countGood_shows (d : Dev) (p n : Nat) :
    ((d.count (F.hsMacRxfrmCount p) 1).countBytes p true n).get (F.hsMacRxfrmCount p) = satAdd 32 (d.get (F.hsMacRxfrmCount p)) 1
      ∧ (((d.count (F.hsMacRxfrmCount p) 1).countBytes p true n).mac p).rxBytes = min ((d.mac p).rxBytes + n) (2 ^ 64 - 1)
      ∧ ((d.count (F.hsMacRxfrmCount p) 1).countBytes p true n).pkt = d.pkt
      ∧ ((d.count (F.hsMacRxfrmCount p) 1).countBytes p true n).inj_ = d.inj_
      ∧ d.Only [R.hsMacRxfrm p, R.hsMacRxbylo p] [] ((d.count (F.hsMacRxfrmCount p) 1).countBytes p true n) := by
  unfold Dev.countBytes
  simp -implicitDefEqProofs only [if_true]
  refine ⟨?_, ?_, ?_, ?_, ?_⟩
  · rw [Dev.get_set_ne _ _ (by simp [F.hsMacRxfrmCount, F.hsMacRxbyloCount, R.hsMacRxfrm, R.hsMacRxbylo]), Dev.get_setMac,
      Dev.get_count_self _ _ _ (by simp [Fld.fits, F.hsMacRxfrmCount])]
    rfl
  · simp
  · simp
  · simp
  · exact (((Dev.Only.refl _ _ d).count _ _ (by simp [F.hsMacRxfrmCount])).congr (Dev.setMac_keeps _ _ _).1).set _ _ (by simp [F.hsMacRxbyloCount])

theorem hsMac_ge (p k : Nat) : 0x81000 ≤ hsBase 0x40 p + k := by
  have := hsBase_ge 0x40 p
  omega

/-- The stripped packet has come from its port. -/
theorem stripTags_src (x : Pkt) : (stripTags x).src = x.src := by
  unfold stripTags
  split
  · rfl
  · dsimp only
    split <;> rfl

/-- The injectors of the links towards PKT stand apart from the ports' counts. -/
theorem Dev.Only.injIdle_dh {d e : Dev} {regs : List Nat} (h : d.Only regs [] e) {p : Nat} (hp : p < 96) (hr : ∀ a ∈ regs, 0xA000000 ≤ a)
    (hinj : e.inj_ = d.inj_) (hidle : d.InjIdle (162 + p / 48)) : e.InjIdle (162 + p / 48) := by
  obtain ⟨harmed, hheld⟩ := hidle
  have haddr : (fiF (162 + p / 48) 0x14 0 1).addr < 0xA000000 ∧ 0x81000 ≤ (fiF (162 + p / 48) 0x14 0 1).addr := by
    unfold fiF fiBase
    rw [if_neg (by omega), if_neg (by omega)]
    simp only [R.pktFiCtl]
    omega
  refine ⟨?_, ?_⟩
  · rw [h.get_eq (fun hm => by have := hr _ hm; omega) haddr.2 (by simp)]
    exact harmed
  · rw [Dev.inj, hinj]
    exact hheld

/-- Settles O29: a frame that the port receives goes through its checks in their order. -/
theorem framesAreCheckedAndPassedOn : Obligations.FramesAreCheckedAndPassedOn := by
  refine ⟨?_, ?_, ?_, ?_, ?_, ?_, ?_, ?_⟩
  · intro p f lo hi
    refine State.of_sent ?_ fun _ h => h
    intro s hs hrx htraffic hidle hlo hhi hfit hfcs hty
    simp only [exec, execMacFrameRx]
    refine State.run_ends hs rfl fun t ht hout hfz => ?_
    rw [if_neg (by simp [hrx.2.2.2.1]), Dev.portRx_receives hrx, Dev.macRx_good hrx hlo hhi hfit hfcs hty] at ht
    obtain ⟨hcnt, hbytes, hpkt, hinj, honly⟩ := s.dev.countGood_shows p f.length
    generalize (s.dev.count (F.hsMacRxfrmCount p) 1).countBytes p true f.length = e at *
    have hregs : ∀ a ∈ [R.hsMacRxfrm p, R.hsMacRxbylo p], 0xA000000 ≤ a := fun a ha => by
      have := hsBase_ge 0x40 p
      simp only [R.hsMacRxfrm, R.hsMacRxbylo, List.mem_cons, List.not_mem_nil, or_false] at ha
      omega
    have hok : e.trafficOk 8 = true := (honly.trafficOk_eight fun a ha => (by decide : 0x80000 ≤ 0xA000000).trans (hregs a ha)).trans htraffic
    have heidle := honly.injIdle_dh p.isLt hregs hinj hidle
    have hsend : ∀ x, e.dhSend p x = e.linkPush (2 + p / 48) x := fun x => by
      simp [Dev.dhSend, hok, Dev.through, Dev.fiPass_idle heidle, Dev.linkIn]
    rw [hsend, Dev.linkPush] at ht
    refine ⟨?_, ?_, ?_, ?_⟩
    · rw [ht.same.pkt, ← hpkt]
      simp [Dev.setPkt]
    · rw [ht.get, Dev.get_setPkt, hcnt]
    · rw [ht.mac]
      simpa [Dev.mac] using hbytes
    · exact ht.only.2 (honly.congr (Dev.setPkt_keeps _ _).1)
  · intro p f lo hi
    refine State.of_sent ?_ fun _ h => h
    intro s hs hrx htraffic hlo hhi hfit hfcs hty
    simp only [exec, execMacFrameRx]
    refine State.run_ends hs rfl fun t ht hout hfz => ?_
    rw [if_neg (by simp [hrx.2.2.2.1]), Dev.portRx_receives hrx, Dev.macRx_good hrx hlo hhi hfit hfcs hty] at ht
    obtain ⟨-, -, hpkt, -, honly⟩ := s.dev.countGood_shows p f.length
    generalize (s.dev.count (F.hsMacRxfrmCount p) 1).countBytes p true f.length = e at *
    have hregs : ∀ a ∈ [R.hsMacRxfrm p, R.hsMacRxbylo p], 0xA000000 ≤ a := fun a ha => by
      have := hsBase_ge 0x40 p
      simp only [R.hsMacRxfrm, R.hsMacRxbylo, List.mem_cons, List.not_mem_nil, or_false] at ha
      omega
    have hok : e.trafficOk 8 = false := (honly.trafficOk_eight fun a ha => (by decide : 0x80000 ≤ 0xA000000).trans (hregs a ha)).trans htraffic
    have hon : e.cordOn (8 + (2 + p / 48)) = true := by
      have hcord : e.cordSt (hsCord p) = s.dev.cordSt (hsCord p) := honly.cordSt_eq (by simp only [hsCord]; omega) fun hm => by
        have := R.hrtPwrCord_lt (c := hsCord p) (by simp only [hsCord]; omega)
        have := hregs _ hm
        omega
      have hrel := hrx.2.1
      rw [show 8 + (2 + p / 48) = hsCord p by simp only [hsCord]; omega]
      simp only [Dev.released, beq_iff_eq] at hrel
      simp [Dev.cordOn, hcord, hrel]
    have hdrop : ∀ x, e.dhSend p x = (e.count (F.hsMacDhdropCount p) 1).raise 0xCF [R.hsMacDhdrop p] := fun x => by
      simp only [Dev.dhSend, hok, Bool.false_eq_true, if_false, Dev.linkDrop]
      rw [if_neg (by omega), if_pos (by omega), hon, Dev.when_true]
    rw [hdrop] at ht
    obtain ⟨hdcnt, hraised, hdpkt, -⟩ := e.count_raise_shows (F.hsMacDhdropCount p) [R.hsMacDhdrop p] (n := 0xCF) (by simp [Fld.fits, F.hsMacDhdropCount])
      (hsMac_ge p 0x840) (by decide)
    refine ⟨?_, ?_, ?_⟩
    · rw [ht.same.pkt, hdpkt, hpkt]
    · rw [ht.get, hdcnt, honly.get_eq (by simp [F.hsMacDhdropCount, R.hsMacDhdrop, R.hsMacRxfrm, R.hsMacRxbylo]) (hsMac_ge p 0x840) (by simp)]
      rfl
    · refine ht.raised.2 (hraised.of_ctl ?_ rfl)
      exact (honly _ (fun hm => by have := hregs _ hm; simp only [R.hrtEvtSrcCtl] at this; omega) (by simp)).symm
  · intro p f lo hi pcs
    refine State.of_sent ?_ fun _ h => h
    intro s hs hrx hlt
    simp only [exec, execMacFrameRx]
    refine State.run_ends hs rfl fun t ht hout hfz => ?_
    rw [if_neg (by simp [hrx.2.2.2.1]), Dev.portRx_receives hrx, Dev.macRx] at ht
    simp only [hrx.limits] at ht
    rw [if_pos hlt] at ht
    obtain ⟨hcnt, hraised, hpkt, honly⟩ := s.dev.count_raise_shows (F.hsMacRuntCount p) [R.hsMacRunt p] (n := 0xC1) (by simp [Fld.fits, F.hsMacRuntCount])
      (hsMac_ge p 0x820) (by decide)
    exact ⟨(ht.get _).trans hcnt, ht.raised.2 hraised, ht.same.pkt.trans hpkt, ht.only.2 honly⟩
  · intro p f lo hi pcs
    refine State.of_sent ?_ fun _ h => h
    intro s hs hrx hlo hfit
    simp only [exec, execMacFrameRx]
    refine State.run_ends hs rfl fun t ht hout hfz => ?_
    rw [if_neg (by simp [hrx.2.2.2.1]), Dev.portRx_receives hrx, Dev.macRx] at ht
    simp only [hrx.limits] at ht
    rw [if_neg (by omega), if_pos (not_not.1 ((s.dev.fits_iff _ _).not.1 (by simp [hfit])))] at ht
    obtain ⟨hcnt, hraised, hpkt, honly⟩ := s.dev.count_raise_shows (F.hsMacRxovfCount p) [R.hsMacRxovf p] (n := 0xC3) (by simp [Fld.fits, F.hsMacRxovfCount])
      (hsMac_ge p 0x828) (by decide)
    exact ⟨(ht.get _).trans hcnt, ht.raised.2 hraised, ht.same.pkt.trans hpkt, ht.only.2 honly⟩
  · intro p f lo hi pcs
    refine State.of_sent ?_ fun _ h => h
    intro s hs hrx hlo hhi hfit
    simp only [exec, execMacFrameRx]
    refine State.run_ends hs rfl fun t ht hout hfz => ?_
    rw [if_neg (by simp [hrx.2.2.2.1]), Dev.portRx_receives hrx, Dev.macRx] at ht
    simp only [hrx.limits] at ht
    rw [if_neg (by omega), if_neg (by rw [Nat.min_eq_right hhi.le]; exact (s.dev.fits_iff _ _).1 hfit), if_pos hhi] at ht
    obtain ⟨hcnt, hraised, hpkt, honly⟩ := s.dev.count_raise_shows (F.hsMacGiantCount p) [R.hsMacGiant p] (n := 0xC2) (by simp [Fld.fits, F.hsMacGiantCount])
      (hsMac_ge p 0x824) (by decide)
    exact ⟨(ht.get _).trans hcnt, ht.raised.2 hraised, ht.same.pkt.trans hpkt, ht.only.2 honly⟩
  · intro p f lo hi
    refine State.of_sent ?_ fun _ h => h
    intro s hs hrx hlo hhi hfit hfcs
    simp only [exec, execMacFrameRx]
    refine State.run_ends hs rfl fun t ht hout hfz => ?_
    rw [if_neg (by simp [hrx.2.2.2.1]), Dev.portRx_receives hrx, Dev.macRx] at ht
    simp only [hrx.limits] at ht
    rw [if_neg (by omega), if_neg (by rw [Nat.min_eq_left hhi]; exact (s.dev.fits_iff _ _).1 hfit), if_neg (by omega), if_neg (by simp), if_pos hfcs] at ht
    obtain ⟨hcnt, hraised, hpkt, honly⟩ := s.dev.count_raise_shows (F.hsMacFcserrCount p) [R.hsMacFcserr p, R.hsMacRxerr p] (n := 0xC0)
      (by simp [Fld.fits, F.hsMacFcserrCount]) (hsMac_ge p 0x818) (by decide)
    exact ⟨(ht.get _).trans hcnt, ht.raised.2 hraised, ht.same.pkt.trans hpkt, ht.only.2 honly⟩
  · intro p f lo hi
    refine State.of_sent ?_ fun _ h => h
    intro s hs hrx hlo hhi hfit
    simp only [exec, execMacFrameRx]
    refine State.run_ends hs rfl fun t ht hout hfz => ?_
    rw [if_neg (by simp [hrx.2.2.2.1]), Dev.portRx_receives hrx, Dev.macRx] at ht
    simp only [hrx.limits] at ht
    rw [if_neg (by omega), if_neg (by rw [Nat.min_eq_left hhi]; exact (s.dev.fits_iff _ _).1 hfit), if_neg (by omega), if_pos trivial] at ht
    obtain ⟨hcnt, hraised, hpkt, honly⟩ := s.dev.count_raise_shows (F.hsMacRxerrCount p) [R.hsMacFcserr p, R.hsMacRxerr p] (n := 0xC0)
      (by simp [Fld.fits, F.hsMacRxerrCount]) (hsMac_ge p 0x81C) (by decide)
    exact ⟨(ht.get _).trans hcnt, ht.raised.2 hraised, ht.same.pkt.trans hpkt, ht.only.2 honly⟩
  · intro p f pcs
    refine State.of_sent ?_ fun _ h => h
    intro s hs hfar
    simp only [exec, execMacFrameRx]
    refine State.run_ends hs rfl fun t ht hout hfz => ?_
    rw [if_pos hfar] at ht hout
    refine ⟨?_, ht.same.pkt.trans rfl, ht.only.2 ((Dev.Only.refl _ _ _).emit _)⟩
    rw [hout]
    simp [hs]

end Sys2Proof.Machine
end

section
/-!
PROOFS. Transmitted frames, stamps and gate lists (R283, R289 to R293, R299).
-/

namespace Sys2Proof.Machine

set_option Elab.async false

/-! ### Registers stored, and nothing else -/

/-- Of the device only the registers of `l` change: no event is raised and nothing is sent. -/
structure Dev.Stores (l : List Nat) (d e : Dev) : Prop where
  only : d.Only l [] e
  same : d.QuietSame e
  out : e.out = d.out

namespace Dev.Stores
variable {l : List Nat} {d e f : Dev}

theorem refl (l : List Nat) (d : Dev) : d.Stores l d := ⟨Dev.Only.refl l [] d, Dev.QuietSame.refl d, rfl⟩
theorem trans (h : d.Stores l e) (k : e.Stores l f) : d.Stores l f := ⟨h.only.trans k.only, h.same.trans k.same, k.out.trans h.out⟩

theorem mono {m : List Nat} (h : d.Stores l e) (hl : ∀ a ∈ l, a ∈ m) : d.Stores m e := ⟨Dev.Only.mono hl (fun _ h => h) h.only, h.same, h.out⟩

theorem set (h : d.Stores l e) (g : Fld) (x : Nat) (hg : g.addr ∈ l) : d.Stores l (e.set g x) :=
  ⟨h.only.set g x hg, h.same.trans (Dev.set_quiet e g x), h.out⟩

theorem setFlag (h : d.Stores l e) (g : Fld) (b : Bool) (hg : g.addr ∈ l) : d.Stores l (e.setFlag g b) := h.set g _ hg
theorem setInt (h : d.Stores l e) (g : Fld) (x : Int) (hg : g.addr ∈ l) : d.Stores l (e.setInt g x) := h.set g _ hg
theorem count (h : d.Stores l e) (g : Fld) (n : Nat) (hg : g.addr ∈ l) : d.Stores l (e.count g n) := h.set g _ hg

theorem when (h : d.Stores l e) (c : Bool) (g : Dev → Dev) (hg : d.Stores l (g e)) : d.Stores l (e.when c g) := by
  cases c
  · exact h
  · exact hg

end Dev.Stores

@[simp] theorem Dev.mac_emit (d : Dev) (o : Output) (p : Nat) : (d.emit o).mac p = d.mac p := rfl
@[simp] theorem Dev.emit_time (d : Dev) (o : Output) : (d.emit o).time = d.time := rfl
theorem Dev.setMac_sent (d : Dev) (p : Nat) (f : Mac → Mac) : (d.setMac p f).out = d.out := rfl
@[simp] theorem Dev.mac_setWaiting (d : Dev) (l : List Access) (p : Nat) : (d.setWaiting l).mac p = d.mac p := rfl
theorem Dev.setReg_sent (d : Dev) (a : Nat) (v : Word) : (d.setReg a v).out = d.out := rfl
theorem Dev.setWaiting_sent (d : Dev) (l : List Access) : (d.setWaiting l).out = d.out := rfl
@[simp] theorem Dev.mac_set (d : Dev) (f : Fld) (x p : Nat) : (d.set f x).mac p = d.mac p := rfl
@[simp] theorem Dev.mac_count (d : Dev) (f : Fld) (n p : Nat) : (d.count f n).mac p = d.mac p := rfl
@[simp] theorem Dev.mac_setReg (d : Dev) (a : Nat) (v : Word) (p : Nat) : (d.setReg a v).mac p = d.mac p := rfl

theorem Dev.GenTick.get {K : Nat → Prop} {d e : Dev} (h : d.GenTick K e) {f : Fld} (hf : K f.addr) : e.get f = d.get f := by
  simp only [Dev.get, h.regs _ hf]

/-! ### Transmit timestamps (R299) -/

/-- The registers that show a port's transmit timestamps. -/
def tsRegs (p : Nat) : List Nat := [R.hsMacTxtsctl p, R.hsMacTxtsns p, R.hsMacTxtssub p, R.hsMacTxtsseq p]

theorem tsRegs_range {p a : Nat} (h : a ∈ tsRegs p) : hsBase 0x40 p + 0x410 ≤ a ∧ a ≤ hsBase 0x40 p + 0x41C := by
  simp only [tsRegs, R.hsMacTxtsctl, R.hsMacTxtsns, R.hsMacTxtssub, R.hsMacTxtsseq, List.mem_cons, List.not_mem_nil, or_false] at h
  omega

/-- The registers as they show the oldest stamp. -/
theorem Dev.txtsShow_shows (d : Dev) (p : Nat) (hlen : (d.mac p).txts.length ≤ 16) :
    d.Stores [R.hsMacTxtsns p, R.hsMacTxtssub p, R.hsMacTxtsseq p] (d.txtsShow p)
      ∧ (d.txtsShow p).get (F.hsMacTxtsseqHeld p) = (d.mac p).txts.length
      ∧ ((d.mac p).txts ≠ [] → (d.txtsShow p).get (F.hsMacTxtssubValid p) = 1) := by
  have hvalid : (d.mac p).txts ≠ [] → (!(d.mac p).txts.isEmpty) = true := fun h => by simpa using h
  unfold Dev.txtsShow
  dsimp only
  generalize (d.mac p).txts = q at hlen hvalid ⊢
  refine ⟨?_, ?_, fun hne => ?_⟩
  · exact ((((((Stores.refl _ d).set _ _ (by simp [F.hsMacTxtsnsValue])).set _ _ (by simp [F.hsMacTxtssubSub])).set _ _
      (by simp [F.hsMacTxtssubMt])).setFlag _ _ (by simp [F.hsMacTxtssubValid])).set _ _ (by simp [F.hsMacTxtsseqSeq])).set _ _
      (by simp [F.hsMacTxtsseqHeld])
  · exact Dev.get_set_lt _ _ (by simp [Fld.fits, F.hsMacTxtsseqHeld]) (hlen.trans_lt (by simp [F.hsMacTxtsseqHeld]))
  · have hns : (F.hsMacTxtssubValid p).addr ≠ R.hsMacTxtsseq p := by simp [F.hsMacTxtssubValid, R.hsMacTxtssub, R.hsMacTxtsseq]
    rw [Dev.get_set_ne _ _ hns, Dev.get_set_ne _ _ hns, hvalid hne]
    exact Dev.get_set_lt _ _ (by simp [Fld.fits, F.hsMacTxtssubValid]) (by simp [F.hsMacTxtssubValid])

/-- A stamp pushed: it joins the queue, or is counted as lost. -/
structure Dev.Stamps (p : Nat) (x : Pkt) (d e : Dev) : Prop where
  only : d.Only (tsRegs p) [0xCA] e
  time : e.time = d.time
  inj : e.inj_ = d.inj_
  mac : e.mac p = { d.mac p with txts := (e.mac p).txts }
  room : ∀ o, ptpAt x = some o → (d.mac p).txts.length < 16 →
    (e.mac p).txts = (d.mac p).txts ++ [⟨⟨d.time.ns, d.time.sub / 256⟩, beAt x.bytes o 1 % 16, beAt x.bytes (o + 30) 2⟩]
      ∧ e.get (F.hsMacTxtssubValid p) = 1
  full : ∀ o, ptpAt x = some o → 16 ≤ (d.mac p).txts.length →
    e.get (F.hsMacTxtsctlTsovf p) = satAdd 8 (d.get (F.hsMacTxtsctlTsovf p)) 1 ∧ d.Raised 0xCA e

theorem Dev.pushTs_stamps (d : Dev) (p : Nat) (x : Pkt) : d.Stamps p x (d.pushTs p x) := by
  unfold Dev.pushTs
  split
  case h_1 hnone =>
    exact ⟨Dev.Only.refl _ _ d, rfl, rfl, rfl, fun o ho => by simp [hnone] at ho, fun o ho => by simp [hnone] at ho⟩
  case h_2 o hsome =>
    split
    case isTrue hfull =>
      have hm := ((Marks.refl [R.hsMacTxtsctl p] [0xCA] d).count (F.hsMacTxtsctlTsovf p) 1 (by simp [F.hsMacTxtsctlTsovf])).raise 0xCA [R.hsMacTxtsctl p] (by simp)
      obtain ⟨hcnt, hraised, -, -⟩ := d.count_raise_shows (F.hsMacTxtsctlTsovf p) [R.hsMacTxtsctl p] (n := 0xCA)
        (by simp [Fld.fits, F.hsMacTxtsctlTsovf]) (hsMac_ge p 0x41C) (by decide)
      generalize (d.count (F.hsMacTxtsctlTsovf p) 1).raise 0xCA [R.hsMacTxtsctl p] = e at *
      refine ⟨Dev.Only.mono (by simp [tsRegs]) (fun _ h => h) hm.only, hm.same.time, hm.same.inj_, ?_, fun _ _ h => absurd h (by omega), fun _ _ _ => ⟨hcnt, hraised⟩⟩
      rw [Dev.mac, hm.same.macs, Dev.mac]
    case isFalse hroom =>
      have hpush := d.mac_setMac_self p fun m =>
        { m with txts := m.txts ++ [⟨⟨d.time.ns, d.time.sub / 256⟩, beAt x.bytes o 1 % 16, beAt x.bytes (o + 30) 2⟩] }
      have hkeeps := d.setMac_keeps p fun m =>
        { m with txts := m.txts ++ [⟨⟨d.time.ns, d.time.sub / 256⟩, beAt x.bytes o 1 % 16, beAt x.bytes (o + 30) 2⟩] }
      generalize (d.setMac p fun m =>
        { m with txts := m.txts ++ [⟨⟨d.time.ns, d.time.sub / 256⟩, beAt x.bytes o 1 % 16, beAt x.bytes (o + 30) 2⟩] }) = e at *
      obtain ⟨hmarks, -, hvalid⟩ := e.txtsShow_shows p (by rw [hpush]; simp only [List.length_append, List.length_singleton]; omega)
      have hmac : (e.txtsShow p).mac p = e.mac p := by rw [Dev.mac, hmarks.same.macs, Dev.mac]
      rw [hpush] at hvalid hmac
      refine ⟨?_, hmarks.same.time.trans ?_, hmarks.same.inj_.trans ?_, by rw [hmac], fun o' ho' _ => ⟨?_, hvalid (by simp)⟩, fun _ _ h => absurd h (by omega)⟩
      · exact Dev.Only.mono (by simp [tsRegs]) (by simp) (((Dev.Only.refl _ _ d).congr hkeeps.1).trans hmarks.only)
      · exact hkeeps.2.2.2.2.2.2.2.2.1
      · obtain ⟨-, -, -, -, -, -, -, -, -, -, -, -, -, -, -, -, -, -, -, -, -, -, -, -, -, -, -, -, hinj, -⟩ := hkeeps
        exact hinj
      · obtain rfl : o = o' := Option.some.inj (hsome.symm.trans ho')
        rw [hmac]

/-! ### A frame sent (R283, R288, R298) -/

/-- The registers that a frame's end writes: those of the buffers it frees, of the stamps, and the counts of its port. -/
def sentRegs (p : Nat) : List Nat := bufRegs ++ tsRegs p ++ [R.hsMacTxfrm p, R.hsMacTxbylo p]

/-- A frame taken from its queue and counted: what its port shows as it leaves. -/
structure Dev.Counted (p : Nat) (x : Pkt) (n : Nat) (d e : Dev) : Prop where
  only : d.Only (sentRegs p) [0xCA, 0xE0, 0xE1, 0xE3] e
  time : e.time = d.time
  inj : e.inj_ = d.inj_
  mac : e.mac p = { d.mac p with cur := none, txts := (e.mac p).txts, txBytes := min ((d.mac p).txBytes + n) (2 ^ 64 - 1) }
  frames : e.get (F.hsMacTxfrmCount p) = satAdd 32 (d.get (F.hsMacTxfrmCount p)) 1
  room : ∀ o, ptpAt x = some o → (d.mac p).txts.length < 16 →
    (e.mac p).txts = (d.mac p).txts ++ [⟨⟨d.time.ns, d.time.sub / 256⟩, beAt x.bytes o 1 % 16, beAt x.bytes (o + 30) 2⟩]
      ∧ e.get (F.hsMacTxtssubValid p) = 1
  full : ∀ o, ptpAt x = some o → 16 ≤ (d.mac p).txts.length →
    e.get (F.hsMacTxtsctlTsovf p) = satAdd 8 (d.get (F.hsMacTxtsctlTsovf p)) 1 ∧ d.Raised 0xCA e

/-- The frame in transmission leaves its port, and its buffers are freed. -/
theorem Dev.takeCur_shows (d : Dev) (p : Nat) (bs : List Nat) (agent : Nat) :
    d.Only bufRegs [0xE0, 0xE1, 0xE3] ((d.setMac p fun m => { m with cur := none }).freeBufs bs agent)
      ∧ ((d.setMac p fun m => { m with cur := none }).freeBufs bs agent).time = d.time
      ∧ ((d.setMac p fun m => { m with cur := none }).freeBufs bs agent).inj_ = d.inj_
      ∧ ((d.setMac p fun m => { m with cur := none }).freeBufs bs agent).mac p = { d.mac p with cur := none } := by
  have hself := d.mac_setMac_self p fun m => { m with cur := none }
  have hregs := (d.setMac_keeps p fun m => { m with cur := none }).1
  have htime : (d.setMac p fun m => { m with cur := none }).time = d.time := by simp
  have hinj : (d.setMac p fun m => { m with cur := none }).inj_ = d.inj_ := by simp
  generalize (d.setMac p fun m => { m with cur := none }) = e at *
  obtain ⟨honly, b, hsame⟩ := e.freeBufs_frees bs agent
  refine ⟨((Dev.Only.refl _ _ d).congr hregs).trans honly, hsame.time.trans htime, hsame.inj_.trans hinj, ?_⟩
  rw [Dev.mac, hsame.macs, ← hself]
  rfl

/-- A transmitted frame's bytes counted. -/
theorem Dev.countSent_shows (d : Dev) (p n : Nat) :
    ((d.count (F.hsMacTxfrmCount p) 1).countBytes p false n).get (F.hsMacTxfrmCount p) = satAdd 32 (d.get (F.hsMacTxfrmCount p)) 1
      ∧ ((d.count (F.hsMacTxfrmCount p) 1).countBytes p false n).mac p = { d.mac p with txBytes := min ((d.mac p).txBytes + n) (2 ^ 64 - 1) }
      ∧ ((d.count (F.hsMacTxfrmCount p) 1).countBytes p false n).time = d.time
      ∧ ((d.count (F.hsMacTxfrmCount p) 1).countBytes p false n).inj_ = d.inj_
      ∧ d.Only [R.hsMacTxfrm p, R.hsMacTxbylo p] [] ((d.count (F.hsMacTxfrmCount p) 1).countBytes p false n) := by
  unfold Dev.countBytes
  simp -implicitDefEqProofs only [Bool.false_eq_true, if_false]
  refine ⟨?_, ?_, ?_, ?_, ?_⟩
  · rw [Dev.get_set_ne _ _ (by simp [F.hsMacTxfrmCount, F.hsMacTxbyloCount, R.hsMacTxfrm, R.hsMacTxbylo]), Dev.get_setMac,
      Dev.get_count_self _ _ _ (by simp [Fld.fits, F.hsMacTxfrmCount])]
    rfl
  · simp
  · simp
  · simp
  · exact (((Dev.Only.refl _ _ d).count _ _ (by simp [F.hsMacTxfrmCount])).congr (Dev.setMac_keeps _ _ _).1).set _ _ (by simp [F.hsMacTxbyloCount])

theorem tsRegs_notMem_bufRegs {p a : Nat} (h : a ∈ tsRegs p) : a ∉ bufRegs := fun hm => by
  have := tsRegs_range h
  have := hsBase_ge 0x40 p
  have := bufRegs_range hm
  omega

theorem Dev.counted (d : Dev) (p : Nat) (x : Pkt) (bs : List Nat) (agent n : Nat) :
    d.Counted p x n (((((d.setMac p fun m => { m with cur := none }).freeBufs bs agent).pushTs p x).count (F.hsMacTxfrmCount p) 1).countBytes p false n) := by
  obtain ⟨hfree, htime, hinj, hmac⟩ := d.takeCur_shows p bs agent
  generalize (d.setMac p fun m => { m with cur := none }).freeBufs bs agent = a at *
  have hpush := a.pushTs_stamps p x
  generalize a.pushTs p x = b at *
  obtain ⟨hframes, hbmac, hbtime, hbinj, hcount⟩ := b.countSent_shows p n
  generalize (b.count (F.hsMacTxfrmCount p) 1).countBytes p false n = e at *
  have hbase := hsBase_ge 0x40 p
  have htxts : (e.mac p).txts = (b.mac p).txts := by rw [hbmac]
  have hts : ∀ f : Fld, f.addr ∈ tsRegs p → e.get f = b.get f := fun f hf => by
    have := tsRegs_range hf
    refine hcount.get_eq (fun hm => ?_) (by omega) (by simp)
    simp only [R.hsMacTxfrm, R.hsMacTxbylo, List.mem_cons, List.not_mem_nil, or_false] at hm
    omega
  have hab : d.Only (bufRegs ++ tsRegs p) [0xCA, 0xE0, 0xE1, 0xE3] b :=
    (Dev.Only.mono (by simp +contextual) (by simp) hfree).trans (Dev.Only.mono (by simp +contextual) (by simp) hpush.only)
  refine ⟨?_, hbtime.trans (hpush.time.trans htime), hbinj.trans (hpush.inj.trans hinj), ?_, ?_, fun o ho hlen => ?_, fun o ho hlen => ?_⟩
  · exact (Dev.Only.mono (fun _ h => List.mem_append_left _ h) (fun _ h => h) hab).trans (Dev.Only.mono (by simp) (by simp) hcount)
  · rw [hbmac, hpush.mac, hmac]
  · rw [hframes, hab.get_eq (fun hm => ?_) (by simp only [F.hsMacTxfrmCount, R.hsMacTxfrm]; omega) (by simp)]
    rcases List.mem_append.1 hm with hm | hm
    · have := bufRegs_range hm
      simp only [F.hsMacTxfrmCount, R.hsMacTxfrm] at this
      omega
    · have := tsRegs_range hm
      simp only [F.hsMacTxfrmCount, R.hsMacTxfrm] at this
      omega
  · obtain ⟨h1, h2⟩ := hpush.room o ho (by rwa [hmac])
    rw [htxts, h1, hmac, htime, hts _ (by simp [tsRegs, F.hsMacTxtssubValid]), h2]
    exact ⟨rfl, rfl⟩
  · obtain ⟨h1, h2⟩ := hpush.full o ho (by rwa [hmac])
    have hmem : (F.hsMacTxtsctlTsovf p).addr ∈ tsRegs p := by simp [tsRegs, F.hsMacTxtsctlTsovf]
    rw [hts _ hmem, h1, hfree.get_eq (tsRegs_notMem_bufRegs hmem) (by have := tsRegs_range hmem; omega) (by simp)]
    refine ⟨rfl, ?_⟩
    have hctl : ∀ (l evs : List Nat) (u v : Dev), u.Only l evs v → (∀ m ∈ l, 0x81000 ≤ m) → 0xCA ∉ evs → v.reg (R.hrtEvtSrcCtl 0xCA) = u.reg (R.hrtEvtSrcCtl 0xCA) :=
      fun l evs u v h hl hn => h _ (fun hm => by have := hl _ hm; simp only [R.hrtEvtSrcCtl] at this; omega)
        fun m hm => evtCtl_notMem_evtRegs fun hmn => hn (hmn ▸ hm)
    refine h2.of_ctl (hctl _ _ _ _ hfree (fun m hm => ?_) (by simp)).symm (hctl _ _ _ _ hcount (fun m hm => ?_) (by simp))
    · have := bufRegs_range hm
      omega
    · simp only [R.hsMacTxfrm, R.hsMacTxbylo, List.mem_cons, List.not_mem_nil, or_false] at hm
      omega

/-- The transmit counts of a port. -/
def txCount (p a : Nat) : Prop := a = R.hsMacTxfrm p ∨ a = R.hsMacTxdrop p

theorem portApart_txCount {p : Nat} (hp : p < 96) : PortApart (txCount p) p := by
  have hbase := hsBase_ge 0x40 p
  have hevt : ∀ n < 0x100, ∀ a ∈ evtRegs n, ¬ txCount p a := fun n hn a ha h => by
    refine notMem_evtRegs_of_outside ?_ hn ha
    simp only [txCount, R.hsMacTxfrm, R.hsMacTxdrop] at h
    omega
  have hbuf : ∀ a ∈ bufRegs, ¬ txCount p a := fun a ha h => by
    have := bufRegs_range ha
    simp only [txCount, R.hsMacTxfrm, R.hsMacTxdrop] at h
    omega
  have hglob : ¬ txCount p R.hrtFiGlobal := fun h => by
    simp only [txCount, R.hsMacTxfrm, R.hsMacTxdrop, R.hrtFiGlobal] at h
    omega
  refine ⟨⟨fun n hn => hevt n ?_, hbuf, fun off hoff h => ?_, hglob⟩, ⟨fun n hn => hevt n ?_, hbuf, fun off hoff h => ?_, hglob⟩, fun n hn => hevt n ?_,
    fun off hoff h => ?_, fun q h => ?_, fun q h => ?_⟩
  · simp only [List.mem_cons, List.not_mem_nil, or_false] at hn
    omega
  · unfold fiBase at h
    rw [if_pos hp] at h
    simp only [txCount, R.hsFiCtl, R.hsMacTxfrm, R.hsMacTxdrop, hsBase] at h
    omega
  · simp only [List.mem_cons, List.not_mem_nil, or_false] at hn
    omega
  · unfold fiBase at h
    rw [if_neg (by omega), if_neg (by omega)] at h
    simp only [txCount, R.pktFiCtl, R.hsMacTxfrm, R.hsMacTxdrop] at h
    omega
  · simp only [List.mem_cons, List.not_mem_nil, or_false] at hn
    omega
  · simp only [List.mem_cons, List.not_mem_nil, or_false] at hoff
    simp only [txCount, R.hsMacTxfrm, R.hsMacTxdrop] at h
    omega
  · simp only [txCount, R.hsMacDhdrop, R.hsMacTxfrm, R.hsMacTxdrop, hsBase] at h
    omega
  · simp only [txCount, R.pciTxgDrop, R.hsMacTxfrm, R.hsMacTxdrop, hsBase] at h
    omega

/-! ### The end of a frame, and the frames that wait behind it -/

theorem Dev.Only.injIdle {d e : Dev} {regs evs : List Nat} (h : d.Only regs evs e) {i : Nat} (hr : (fiF i 0x14 0 1).addr ∉ regs) (hevs : ∀ n ∈ evs, n < 0x100)
    (hinj : e.inj_ = d.inj_) (hidle : d.InjIdle i) : e.InjIdle i := by
  obtain ⟨harmed, hheld⟩ := hidle
  refine ⟨?_, by rw [Dev.inj, hinj]; exact hheld⟩
  rw [h.get_eq hr ((by decide : 0x81000 ≤ 0x6A00000).trans (fiF_ge _ _ _ _)) hevs]
  exact harmed

/-- No generated frame waits. -/
theorem Dev.sendGen_none {d : Dev} {p : Nat} (h : (d.mac p).gen = []) :
    (d.sendGen p).regs = d.regs ∧ (d.sendGen p).out = d.out ∧ (d.sendGen p).mac p = d.mac p := by
  unfold Dev.sendGen
  dsimp only
  rw [h]
  cases (d.mac p).cur.isNone && decide ((d.mac p).wakeAt ≤ d.time.ticks)
  · exact ⟨rfl, rfl, rfl⟩
  · refine ⟨rfl, rfl, (Dev.mac_setMac_self _ _ _).trans ?_⟩
    rw [← h]

/-- The one generated frame that waits is sent. -/
theorem Dev.sendGen_one {d : Dev} {p : Nat} {g : List Byte} (h : (d.mac p).gen = [g]) (hcur : (d.mac p).cur = none) (hwake : (d.mac p).wakeAt ≤ d.time.ticks)
    (hidle : d.InjIdle p) (h1 : d.get (F.hsLnLoopMode p) ≠ 1) (h2 : d.get (F.hsLnLoopMode p) ≠ 2) :
    d.sendGen p = (d.setMac p fun m => { m with gen := [] }).emit (.portFrame p g) := by
  have hidle' : (d.setMac p fun m => { m with gen := [] }).InjIdle p := hidle
  unfold Dev.sendGen
  simp only [h, hcur, Option.isNone_none, hwake, decide_true, Bool.and_self, Dev.when_true, Dev.each_cons, Dev.each_nil]
  exact Dev.portTx_idle hidle' (by rwa [Dev.get_setMac]) (by rwa [Dev.get_setMac]) g

theorem sentRegs_port {p b k : Nat} (hp : p < 96) (hb : b < 0x30 ∨ 0x80 ≤ b ∧ b < 0xB0) (hk : k < 0x10000) : hsBase b p + k ∉ sentRegs p := fun hm => by
  have hp4 : hsBase 0x40 p = 0xA000000 + 0x1000000 * (p / 48) + 0x10000 * (0x40 + p % 48) := rfl
  have hpb : hsBase b p = 0xA000000 + 0x1000000 * (p / 48) + 0x10000 * (b + p % 48) := rfl
  simp only [sentRegs, List.mem_append, List.mem_cons, List.not_mem_nil, or_false, or_assoc, R.hsMacTxfrm, R.hsMacTxbylo] at hm
  rcases hm with hm | hm | hm
  · have := bufRegs_range hm
    omega
  · have := tsRegs_range hm
    omega
  · omega

/-! ### Gate lists (R289 to R293) -/

/-- The entry of a gate list that GSTAT shows at a counter value. -/
def GateList.entry (l : GateList) (ns : Nat) : Nat × Nat := entryAt l.entries 0 (l.pos ns)

theorem Dev.gateRefresh_stores (d : Dev) (p : Nat) : d.Stores [R.hsMacGstat p] (d.gateRefresh p) :=
  ((Stores.refl _ d).set _ _ (by simp [F.hsMacGstatGates])).set _ _ (by simp [F.hsMacGstatCuridx])

theorem Dev.gateRefresh_shows (d : Dev) (p : Nat) :
    (d.gateRefresh p).get (F.hsMacGstatGates p) = (if d.get (F.hsMacGctlGateen p) = 1 then ((d.mac p).oper.entry d.time.ns).2 % 256 else 255)
      ∧ (d.gateRefresh p).get (F.hsMacGstatCuridx p) = ((d.mac p).oper.entry d.time.ns).1 % 1024 := by
  have hlt : d.get (F.hsMacGctlGateen p) < 2 := d.get_lt _
  have hflag : d.flag (F.hsMacGctlGateen p) = decide (d.get (F.hsMacGctlGateen p) = 1) := by
    simp only [Dev.flag]
    rcases Nat.lt_succ_iff_lt_or_eq.1 hlt with h | h
    · simp [Nat.lt_one_iff.1 h]
    · simp [h]
  unfold Dev.gateRefresh
  dsimp only
  refine ⟨?_, Dev.get_set_self _ _ _ (by simp [Fld.fits, F.hsMacGstatCuridx])⟩
  rw [Dev.get_set_apart _ _ _ _ (by simp [Fld.fits, F.hsMacGstatGates]) (by simp [Fld.apart, F.hsMacGstatGates, F.hsMacGstatCuridx]),
    Dev.get_set_self _ _ _ (by simp [Fld.fits, F.hsMacGstatGates]), hflag]
  by_cases h : d.get (F.hsMacGctlGateen p) = 1
  · rw [decide_eq_true h, if_pos h]
    rfl
  · rw [decide_eq_false h, if_neg h]
    rfl

/-- The fields of HSx_MAC_GCTL. -/
def gctlFields : List FieldRow := [⟨0, 1, .rw, .any⟩, ⟨1, 1, .wo, .any⟩, ⟨16, 11, .rw, (.nat 1 1024)⟩, ⟨30, 1, .ro, .any⟩, ⟨31, 1, .wo, .any⟩]

theorem gctlFields_sound : FieldRow.sound gctlFields := by simp [FieldRow.sound, FieldRow.clear, gctlFields]

theorem decodeAddr_hsMacGctl (p : Fin 96) :
    ∃ r, decodeAddr (R.hsMacGctl p) = some r ∧ r.row.name = .hsMacGctl ∧ r.port = p ∧ r.row.fields = gctlFields := by
  have h : (decodeAddr (R.hsMacGctl p)).map (fun r => (r.row.name, r.port, r.row.fields)) = some (.hsMacGctl, p.val, gctlFields) := by
    revert p; decide +kernel
  simpa [Option.map_eq_some_iff] using h

/-- The fields of HSx_MAC_TXTSCTL. -/
def txtsctlFields : List FieldRow := [⟨0, 1, .wo, .any⟩, ⟨8, 8, .rc, .any⟩]

theorem decodeAddr_hsMacTxtsctl (p : Fin 96) :
    ∃ r, decodeAddr (R.hsMacTxtsctl p) = some r ∧ r.row.name = .hsMacTxtsctl ∧ r.port = p ∧ r.row.fields = txtsctlFields := by
  have h : (decodeAddr (R.hsMacTxtsctl p)).map (fun r => (r.row.name, r.port, r.row.fields)) = some (.hsMacTxtsctl, p.val, txtsctlFields) := by
    revert p; decide +kernel
  simpa [Option.map_eq_some_iff] using h

/-- A write of CANCEL takes the pending list back. -/
def Dev.gclCancel (d : Dev) (p : Nat) (c : Bool) : Dev := d.when c fun d => (d.setMac p fun m => { m with pend := none }).set (F.hsMacGctlPend p) 0

theorem Dev.gclCancel_keeps (d : Dev) (p : Nat) (c : Bool) :
    d.Only [R.hsMacGctl p] [] (d.gclCancel p c) ∧ (d.gclCancel p c).get (F.hsMacGctlAdmlen p) = d.get (F.hsMacGctlAdmlen p)
      ∧ (d.gclCancel p c).time = d.time ∧ ((d.gclCancel p c).mac p).oper = (d.mac p).oper ∧ (d.gclCancel p c).out = d.out := by
  unfold Dev.gclCancel
  cases c
  · exact ⟨Dev.Only.refl _ _ d, rfl, rfl, rfl, rfl⟩
  · refine ⟨?_, ?_, by simp, ?_, by simp⟩
    · exact ((Dev.Only.refl _ _ d).congr (Dev.setMac_keeps _ _ _).1).set _ _ (by simp [F.hsMacGctlPend])
    · rw [Dev.when_true, Dev.get_set_apart _ _ _ _ (by simp [Fld.fits, F.hsMacGctlAdmlen]) (by simp [Fld.apart, F.hsMacGctlAdmlen, F.hsMacGctlPend]), Dev.get_setMac]
    · simp

theorem changeTime_lt {base now lead cycle : Nat} (h : base < 2 ^ 32) : (changeTime base now lead cycle).1 < 2 ^ 32 := by
  unfold changeTime
  dsimp only
  split
  · exact h
  · exact Nat.mod_lt _ (by decide)

/-- A list committed: it waits with its change time, and GSTAT follows. -/
theorem Dev.gclGo_commits (d : Dev) (p : Nat) (v : Word) (hgo : (F.hsMacGctlGo p).of v = 1) (c : Nat × Bool)
    (hc : c = changeTime (d.get (F.hsMacGbaseValue p)) d.time.ns (d.get (F.hsMacGleadValue p)) (d.get (F.hsMacGcycleValue p))) :
    (d.gclGo p v).get (F.hsMacGctlPend p) = 1 ∧ (d.gclGo p v).get (F.hsMacGchgValue p) = c.1
      ∧ (((d.gclGo p v).mac p).pend.map fun l => (l.entries.length, l.cycle, l.start))
          = some (d.get (F.hsMacGctlAdmlen p), d.get (F.hsMacGcycleValue p), c.1)
      ∧ (c.2 = true → d.Raised 0xC8 (d.gclGo p v)) ∧ ((d.gclGo p v).mac p).oper = (d.mac p).oper
      ∧ d.Only [R.hsMacGctl p, R.hsMacGchg p, R.hsMacGstat p] [0xC8] (d.gclGo p v) := by
  have hdef : d.gclGo p v = (let e := d.gclCancel p ((F.hsMacGctlCancel p).of v == 1)
      (e.when ((F.hsMacGctlGo p).of v == 1) fun d =>
        let cyc := d.get (F.hsMacGcycleValue p)
        let t := changeTime (d.get (F.hsMacGbaseValue p)) d.time.ns (d.get (F.hsMacGleadValue p)) cyc
        (((d.setMac p fun m => { m with pend := some ⟨d.admList p, cyc, t.1⟩ }).set (F.hsMacGctlPend p) 1).set (F.hsMacGchgValue p) t.1).when t.2
          fun d => d.raise 0xC8 [R.hsMacGchg p]).gateRefresh p) := rfl
  obtain ⟨hcancel, hlen, htime, hoper, -⟩ := d.gclCancel_keeps p ((F.hsMacGctlCancel p).of v == 1)
  rw [hdef]
  dsimp only
  generalize d.gclCancel p ((F.hsMacGctlCancel p).of v == 1) = e at *
  have hkeep : ∀ f : Fld, f.addr ≠ R.hsMacGctl p → 0x81000 ≤ f.addr → e.get f = d.get f := fun f hf hge =>
    hcancel.get_eq (by simpa using hf) hge (by simp)
  have hbase := hsBase_ge 0x40 p
  rw [hgo, beq_self_eq_true, Dev.when_true, hkeep (F.hsMacGcycleValue p) (by simp [F.hsMacGcycleValue, R.hsMacGcycle, R.hsMacGctl]) (hsMac_ge _ _),
    hkeep (F.hsMacGbaseValue p) (by simp [F.hsMacGbaseValue, R.hsMacGbase, R.hsMacGctl]) (hsMac_ge _ _),
    hkeep (F.hsMacGleadValue p) (by simp [F.hsMacGleadValue, R.hsMacGlead, R.hsMacGctl]) (hsMac_ge _ _), htime, ← hc]
  have hlt : c.1 < 2 ^ 32 := hc ▸ changeTime_lt (d.get_lt _)
  have hpend := e.mac_setMac_self p fun m => { m with pend := some ⟨e.admList p, d.get (F.hsMacGcycleValue p), c.1⟩ }
  have hregs := (e.setMac_keeps p fun m => { m with pend := some ⟨e.admList p, d.get (F.hsMacGcycleValue p), c.1⟩ }).1
  generalize (e.setMac p fun m => { m with pend := some ⟨e.admList p, d.get (F.hsMacGcycleValue p), c.1⟩ }) = x at *
  have hstore : x.Stores [R.hsMacGctl p, R.hsMacGchg p, R.hsMacGstat p] ((x.set (F.hsMacGctlPend p) 1).set (F.hsMacGchgValue p) c.1) :=
    ((Stores.refl _ x).set _ _ (by simp [F.hsMacGctlPend])).set _ _ (by simp [F.hsMacGchgValue])
  have hchg : ((x.set (F.hsMacGctlPend p) 1).set (F.hsMacGchgValue p) c.1).get (F.hsMacGchgValue p) = c.1 :=
    Dev.get_set_lt _ _ (by simp [Fld.fits, F.hsMacGchgValue]) hlt
  have hone : ((x.set (F.hsMacGctlPend p) 1).set (F.hsMacGchgValue p) c.1).get (F.hsMacGctlPend p) = 1 := by
    rw [Dev.get_set_ne _ _ (by simp [F.hsMacGctlPend, F.hsMacGchgValue, R.hsMacGctl, R.hsMacGchg])]
    exact Dev.get_set_lt _ _ (by simp [Fld.fits, F.hsMacGctlPend]) (by simp [F.hsMacGctlPend])
  generalize (x.set (F.hsMacGctlPend p) 1).set (F.hsMacGchgValue p) c.1 = y at *
  have hdy : d.Only [R.hsMacGctl p, R.hsMacGchg p, R.hsMacGstat p] [] y :=
    ((Dev.Only.mono (by simp) (by simp) hcancel).congr hregs).trans hstore.only
  have hraise : y.Marks [] [0xC8] (y.when c.2 fun d => d.raise 0xC8 [R.hsMacGchg p]) :=
    (Marks.refl _ _ y).when _ _ fun _ => (Marks.refl _ _ y).raise _ _ (by simp)
  have hraised : c.2 = true → d.Raised 0xC8 (y.when c.2 fun d => d.raise 0xC8 [R.hsMacGchg p]) := fun h => by
    rw [h]
    exact hdy.raised_raise _ (by simp) (by simp only [List.mem_cons, List.not_mem_nil, or_false, R.hsMacGctl, R.hsMacGchg, R.hsMacGstat, R.hrtEvtSrcCtl]; omega)
      (by decide)
  generalize (y.when c.2 fun d => d.raise 0xC8 [R.hsMacGchg p]) = z at *
  have hz := z.gateRefresh_stores p
  have hget : ∀ f : Fld, f.addr ≠ R.hsMacGstat p → 0x81000 ≤ f.addr → (z.gateRefresh p).get f = y.get f := fun f hf hge =>
    (hz.only.get_eq (by simpa using hf) hge (by simp)).trans (hraise.only.get_eq (by simp) hge (by simp))
  have hmac : (z.gateRefresh p).mac p = x.mac p := by rw [Dev.mac, hz.same.macs, hraise.same.macs, hstore.same.macs, Dev.mac]
  refine ⟨?_, ?_, ?_, fun h => ?_, ?_, ?_⟩
  · rw [hget _ (by simp [F.hsMacGctlPend, R.hsMacGctl, R.hsMacGstat]) (hsMac_ge _ _), hone]
  · rw [hget _ (by simp [F.hsMacGchgValue, R.hsMacGchg, R.hsMacGstat]) (hsMac_ge _ _), hchg]
  · rw [hmac, hpend]
    simp [Dev.admList, hlen]
  · refine (hraised h).only hz.only (by simp) ?_
    simp only [List.mem_singleton, R.hsMacGstat, R.hrtEvtSrcCtl]
    omega
  · rw [hmac, hpend]
    exact hoper
  · exact ((Dev.Only.mono (fun _ h => h) (by simp) hdy).trans (Dev.Only.mono (by simp) (fun _ h => h) hraise.only)).trans (Dev.Only.mono (by simp) (by simp) hz.only)

/-- A pending list taken over at its change time, the gates off. -/
theorem Dev.gclSwitch_shows (d : Dev) (p : Nat) (l : GateList) (hoff : d.get (F.hsMacGctlGateen p) = 0) :
    let e := (((d.setMac p fun m => { m with oper := l, pend := none }).set (F.hsMacGctlPend p) 0).gateRefresh p).raise 0xC7 [R.hsMacGstat p]
    e.gateDrops p = e ∧ (e.mac p).oper = l ∧ (e.mac p).pend = none ∧ e.get (F.hsMacGctlPend p) = 0 ∧ d.Raised 0xC7 e
      ∧ d.Only [R.hsMacGctl p, R.hsMacGstat p] [0xC7] e := by
  have hmac := d.mac_setMac_self p fun m => { m with oper := l, pend := none }
  have hregs := (d.setMac_keeps p fun m => { m with oper := l, pend := none }).1
  generalize (d.setMac p fun m => { m with oper := l, pend := none }) = x at *
  have hbase := hsBase_ge 0x40 p
  have hpend : (x.set (F.hsMacGctlPend p) 0).get (F.hsMacGctlPend p) = 0 :=
    Dev.get_set_lt _ _ (by simp [Fld.fits, F.hsMacGctlPend]) (by simp [F.hsMacGctlPend])
  have hoffx : (x.set (F.hsMacGctlPend p) 0).get (F.hsMacGctlGateen p) = 0 := by
    rw [Dev.get_set_apart _ _ _ _ (by simp [Fld.fits, F.hsMacGctlGateen]) (by simp [Fld.apart, F.hsMacGctlGateen, F.hsMacGctlPend]), Dev.get_congr hregs, hoff]
  have hset : x.Stores [R.hsMacGctl p, R.hsMacGstat p] (x.set (F.hsMacGctlPend p) 0) := (Stores.refl _ x).set _ _ (by simp [F.hsMacGctlPend])
  generalize x.set (F.hsMacGctlPend p) 0 = y at *
  have hz := y.gateRefresh_stores p
  generalize y.gateRefresh p = z at *
  have hdz : d.Only [R.hsMacGctl p, R.hsMacGstat p] [] z :=
    (((Dev.Only.refl _ _ d).congr hregs).trans hset.only).trans (Dev.Only.mono (by simp) (by simp) hz.only)
  have hraised := hdz.raised_raise (n := 0xC7) [R.hsMacGstat p] (by simp)
    (by simp only [List.mem_cons, List.not_mem_nil, or_false, R.hsMacGctl, R.hsMacGstat, R.hrtEvtSrcCtl]; omega) (by decide)
  have hr : z.Marks [] [0xC7] (z.raise 0xC7 [R.hsMacGstat p]) := (Marks.refl _ _ z).raise _ _ (by simp)
  dsimp only
  generalize z.raise 0xC7 [R.hsMacGstat p] = e at *
  have hget : ∀ f : Fld, f.addr ≠ R.hsMacGstat p → 0x81000 ≤ f.addr → e.get f = y.get f := fun f hf hge =>
    (hr.only.get_eq (by simp) hge (by simp)).trans (hz.only.get_eq (by simpa using hf) hge (by simp))
  have hemac : e.mac p = x.mac p := by rw [Dev.mac, hr.same.macs, hz.same.macs, hset.same.macs, Dev.mac]
  rw [hmac] at hemac
  refine ⟨?_, by rw [hemac], by rw [hemac], ?_, hraised, ?_⟩
  · have hflag : e.flag (F.hsMacGctlGateen p) = false := by
      simp [Dev.flag, hget (F.hsMacGctlGateen p) (by simp [F.hsMacGctlGateen, R.hsMacGctl, R.hsMacGstat]) (hsMac_ge _ _), hoffx]
    simp [Dev.gateDrops, hflag]
  · rw [hget _ (by simp [F.hsMacGctlPend, R.hsMacGctl, R.hsMacGstat]) (hsMac_ge _ _), hpend]
  · exact (Dev.Only.mono (fun _ h => h) (by simp) hdz).trans (Dev.Only.mono (by simp) (fun _ h => h) hr.only)

/-- The list in force at another place of its cycle: GSTAT follows it. -/
theorem Dev.movedStart_shows {d : Dev} {p : Nat} {f : Mac → Mac} (hf : ∀ m, (f m).oper.entries = m.oper.entries) :
    let e := (d.setMac p f).gateRefresh p
    (e.mac p).oper.entries = (d.mac p).oper.entries
      ∧ e.get (F.hsMacGstatGates p) = (if d.get (F.hsMacGctlGateen p) = 1 then ((e.mac p).oper.entry d.time.ns).2 % 256 else 255)
      ∧ e.get (F.hsMacGstatCuridx p) = ((e.mac p).oper.entry d.time.ns).1 % 1024 ∧ d.Only [R.hsMacGstat p] [] e := by
  have hself := d.mac_setMac_self p f
  have hregs := (d.setMac_keeps p f).1
  have htime : (d.setMac p f).time = d.time := by simp
  dsimp only
  generalize d.setMac p f = a at *
  have hst := a.gateRefresh_stores p
  obtain ⟨hgates, hidx⟩ := a.gateRefresh_shows p
  rw [Dev.get_congr hregs, htime] at hgates
  rw [htime] at hidx
  have hmac : (a.gateRefresh p).mac p = a.mac p := by rw [Dev.mac, hst.same.macs, Dev.mac]
  rw [hmac]
  exact ⟨by rw [hself, hf], hgates, hidx, ((Dev.Only.refl _ _ d).congr hregs).trans hst.only⟩

theorem Dev.withField_setOut (d : Dev) (l : List Output) (f : Fld) (x : Nat) : (d.setOut l).withField f x = d.withField f x := rfl
theorem Dev.takes_setOut (d : Dev) (l : List Output) (a : Nat) (v : Word) : (d.setOut l).Takes a v = d.Takes a v := rfl

/-- A host's POP takes the oldest stamp away (R299). -/
theorem State.txtsPop_pops (p : Fin 96) : ∀ s : State, s.dev.Takes (R.hsMacTxtsctl p) (s.dev.withField (F.hsMacTxtsctlPop p) 1) →
    (s.dev.mac p).txts.length ≤ 16 →
    ∃ t, exec (.txtsPop p) s = .next t ∧ t.outputs = .writeDone (R.hsMacTxtsctl p) 0 :: s.outputs
      ∧ (t.dev.mac p).txts = (s.dev.mac p).txts.drop 1
      ∧ t.dev.get (F.hsMacTxtsseqHeld p) = (s.dev.mac p).txts.length - 1
      ∧ s.dev.Only [R.hsMacTxtsctl p, R.hsMacTxtsns p, R.hsMacTxtssub p, R.hsMacTxtsseq p] [] t.dev := by
  refine State.of_sent ?_ fun s h => by simp -implicitDefEqProofs only [Dev.withField_setOut, Dev.takes_setOut] at h; exact h
  intro s hs htakes hlen
  obtain ⟨r, hr, hn, hport, hfields⟩ := decodeAddr_hsMacTxtsctl p
  have hpop : (F.hsMacTxtsctlPop p).of (s.dev.withField (F.hsMacTxtsctlPop p) 1) = 1 := by
    rw [Dev.withField, Fld.of_put _ _ _ (by simp [F.hsMacTxtsctlPop])]
    rfl
  simp only [exec, execTxtsPop, State.hostField]
  refine State.plainWrite_takes (a := R.hsMacTxtsctl p) (u := fun d => d.withField (F.hsMacTxtsctlPop p) 1)
    (g := fun d => (d.setReg (R.hsMacTxtsctl p) (r.row.merge (d.reg (R.hsMacTxtsctl p)) (s.dev.withField (F.hsMacTxtsctlPop p) 1))).txtsPop p)
    hs rfl rfl htakes (emberOfs_hs _ (by decide) (by decide)) hr (by simp [hn, RegName.plainWrite]) (Dev.ringsUp_of_lt ?_)
    (fun d => ?_) fun l t ht hout => ?_
  · have : p.val < 96 := p.isLt
    simp only [R.hsMacTxtsctl, R.pciRxgBaselo, hsBase]
    omega
  · simp [Dev.writeGo, hn, hport, hpop]
  have hbase := hsBase_ge 0x40 p
  generalize r.row.merge _ _ = v at ht hout
  have hstart : s.dev.Only [R.hsMacTxtsctl p] [] ((s.dev.setWaiting l).setReg (R.hsMacTxtsctl p) v) :=
    ((Dev.Only.refl _ _ s.dev).congr (Dev.setWaiting_keeps s.dev l).1).setReg _ (by simp)
  have hmac : ((s.dev.setWaiting l).setReg (R.hsMacTxtsctl p) v).mac p = s.dev.mac p := (Dev.mac_setReg _ _ _ _).trans (Dev.mac_setWaiting _ _ _)
  have hsent : ((s.dev.setWaiting l).setReg (R.hsMacTxtsctl p) v).out = [] := (Dev.setReg_sent _ _ _).trans ((Dev.setWaiting_sent _ _).trans hs)
  generalize (s.dev.setWaiting l).setReg (R.hsMacTxtsctl p) v = e at *
  unfold Dev.txtsPop at ht hout
  have hself := e.mac_setMac_self p fun m => { m with txts := m.txts.drop 1 }
  have hkeeps := e.setMac_keeps p fun m => { m with txts := m.txts.drop 1 }
  generalize (e.setMac p fun m => { m with txts := m.txts.drop 1 }) = a at *
  obtain ⟨hregs, -, haout, -⟩ := hkeeps
  rw [hmac] at hself
  obtain ⟨hst, hheld, -⟩ := a.txtsShow_shows p (by rw [hself]; simp only [List.length_drop]; omega)
  generalize a.txtsShow p = b at *
  refine ⟨?_, ?_, ?_, ?_⟩
  · rw [hout, hst.out, haout, hsent]
    rfl
  · rw [ht.mac]
    have hb : ((b.emit (.writeDone (R.hsMacTxtsctl p) 0)).setWaiting []).mac p = a.mac p := by
      rw [Dev.mac_setWaiting, Dev.mac_emit, Dev.mac, hst.same.macs, ← Dev.mac]
    rw [hb, hself]
  · rw [ht.get, Dev.get_setWaiting, Dev.get_emit, hheld, hself]
    exact List.length_drop
  · refine ht.only.2 ((Dev.Only.emit ?_ _).congr (Dev.setWaiting_keeps _ _).1)
    exact ((Dev.Only.mono (by simp) (by simp) hstart).congr hregs).trans (Dev.Only.mono (by simp) (by simp) hst.only)

/-- Settles O31: frames are sent whole or dropped, stamps are kept, and gate lists change at their time. -/
theorem framesAreSentAndGated : Obligations.FramesAreSentAndGated := by
  refine ⟨?_, ?_, ?_, ?_, ?_, ?_, ?_, ?_⟩
  · intro p x
    refine State.of_sent ?_ fun _ h => h
    intro s hs hcur hidle h1 h2 hgen hlen
    simp only [exec, execMacFrameTx]
    refine State.run_ends hs rfl fun t ht hout hfz => ?_
    simp only [hcur] at ht hout
    rw [if_neg (by omega)] at ht hout
    have hc := s.dev.counted p x.pkt x.bufs (26 + p / 48) (s.dev.txFrame p x.pkt).length
    generalize (((((s.dev.setMac p fun m => { m with cur := none }).freeBufs x.bufs (26 + p / 48)).pushTs p x.pkt).count (F.hsMacTxfrmCount p) 1).countBytes p
      false (s.dev.txFrame p x.pkt).length) = e at *
    have hmode : e.get (F.hsLnLoopMode p) = s.dev.get (F.hsLnLoopMode p) :=
      hc.only.get_eq (sentRegs_port p.isLt (b := 0) (by decide) (by decide)) ((by decide : 0x81000 ≤ 0xA000000).trans ((hsBase_ge 0 p).trans (Nat.le_add_right _ _))) (by simp)
    have hinj : e.InjIdle p := hc.only.injIdle (by
      simp only [fiF, fiBase, p.isLt, if_true, R.hsFiCtl]
      exact sentRegs_port p.isLt (by decide) (by decide)) (by simp) hc.inj hidle
    rw [Dev.portTx_idle hinj (by rwa [hmode]) (by rwa [hmode])] at ht hout
    have hnone := Dev.sendGen_none (d := e.emit (.portFrame p (s.dev.txFrame p x.pkt))) (p := p) (by
      rw [Dev.mac_emit, hc.mac]
      exact hgen)
    obtain ⟨hregs, hsent, hmac⟩ := hnone
    rw [hsent] at hout
    have htmac : t.dev.mac p = e.mac p := by rw [ht.mac, hmac, Dev.mac_emit]
    have hget : ∀ f : Fld, t.dev.get f = e.get f := fun f => by rw [ht.get, Dev.get_congr hregs, Dev.get_emit]
    refine ⟨by rw [hout]; rfl, by rw [htmac, hc.mac], by rw [hget, hc.frames], by rw [htmac, hc.mac], fun o ho hroom => ?_, fun o ho hfull => ?_⟩
    · rw [htmac, hget]
      exact hc.room o ho hroom
    · obtain ⟨hovf, hraised⟩ := hc.full o ho hfull
      rw [hget]
      exact ⟨hovf, hraised.of_ctl rfl (Dev.reg_congr (ht.regs.trans hregs) _)⟩
  · intro p x
    refine State.of_sent ?_ fun _ h => h
    intro s hs hcur hlen
    simp only [exec, execMacFrameTx]
    refine State.run_ends hs rfl fun t ht hout hfz => ?_
    simp only [hcur] at ht
    rw [if_pos hlen] at ht
    obtain ⟨hfree, -, -, hmac⟩ := s.dev.takeCur_shows p x.bufs (26 + p / 48)
    generalize (s.dev.setMac p fun m => { m with cur := none }).freeBufs x.bufs (26 + p / 48) = e at *
    have hgen := (e.count (F.hsMacTxdropCount p) 1).sendGen_genTick (portApart_txCount p.isLt)
    have hbase := hsBase_ge 0x40 p
    have hkeep : ∀ f : Fld, 0xA000000 ≤ f.addr → e.get f = s.dev.get f := fun f hf =>
      hfree.get_eq (fun hm => by have := bufRegs_range hm; omega) (by omega) (by simp)
    refine ⟨?_, ?_, ?_⟩
    · rw [ht.mac, hgen.cur, Dev.mac_count, hmac]
    · rw [ht.get, hgen.get (.inr rfl), Dev.get_count_self _ _ _ (by simp [Fld.fits, F.hsMacTxdropCount]),
        hkeep _ (hbase.trans (Nat.le_add_right _ _))]
      rfl
    · rw [ht.get, hgen.get (.inl rfl), Dev.count, Dev.get_set_ne _ _ (by simp [F.hsMacTxfrmCount, F.hsMacTxdropCount, R.hsMacTxfrm, R.hsMacTxdrop]),
        hkeep _ (hbase.trans (Nat.le_add_right _ _))]
  · intro p x g
    refine State.of_sent ?_ fun _ h => h
    intro s hs hcur hidle h1 h2 hgen hwake hlen
    simp only [exec, execMacFrameTx]
    refine State.run_ends hs rfl fun t ht hout hfz => ?_
    simp only [hcur] at ht hout
    rw [if_neg (by omega)] at ht hout
    have hc := s.dev.counted p x.pkt x.bufs (26 + p / 48) (s.dev.txFrame p x.pkt).length
    generalize (((((s.dev.setMac p fun m => { m with cur := none }).freeBufs x.bufs (26 + p / 48)).pushTs p x.pkt).count (F.hsMacTxfrmCount p) 1).countBytes p
      false (s.dev.txFrame p x.pkt).length) = e at *
    have hmode : e.get (F.hsLnLoopMode p) = s.dev.get (F.hsLnLoopMode p) :=
      hc.only.get_eq (sentRegs_port p.isLt (b := 0) (by decide) (by decide)) ((by decide : 0x81000 ≤ 0xA000000).trans ((hsBase_ge 0 p).trans (Nat.le_add_right _ _))) (by simp)
    have hinj : e.InjIdle p := hc.only.injIdle (by
      simp only [fiF, fiBase, p.isLt, if_true, R.hsFiCtl]
      exact sentRegs_port p.isLt (by decide) (by decide)) (by simp) hc.inj hidle
    rw [Dev.portTx_idle hinj (by rwa [hmode]) (by rwa [hmode])] at ht hout
    have hmac : (e.emit (.portFrame p (s.dev.txFrame p x.pkt))).mac p = e.mac p := Dev.mac_emit _ _ _
    have hone := Dev.sendGen_one (d := e.emit (.portFrame p (s.dev.txFrame p x.pkt))) (p := p) (g := g) (by rw [hmac, hc.mac]; exact hgen) (by rw [hmac, hc.mac])
      (by rw [hmac, hc.mac, Dev.emit_time, hc.time]; exact hwake) hinj (by rw [Dev.get_emit, hmode]; exact h1) (by rw [Dev.get_emit, hmode]; exact h2)
    rw [hone] at ht hout
    have htmac := ht.mac p
    rw [Dev.mac_emit, Dev.mac_setMac_self, hmac, hc.mac] at htmac
    rw [Dev.emit_out, Dev.setMac_sent, Dev.emit_out] at hout
    rw [hout]
    refine ⟨List.head?_cons, ?_, congrArg Mac.cur htmac, congrArg Mac.gen htmac⟩
    simp -implicitDefEqProofs
  · exact State.txtsPop_pops
  · intro p v c
    refine State.of_sent ?_ fun _ h => h
    intro s hs htakes hc
    obtain ⟨r, hr, hn, hport, hfields⟩ := decodeAddr_hsMacGctl p
    have hgo : (F.hsMacGctlGo p).of ((F.hsMacGctlGo p).put v 1) = 1 := Fld.of_put _ _ _ (by simp [F.hsMacGctlGo])
    simp only [exec, execGclCommit, State.hostWrite]
    refine State.plainWrite_takes (u := fun _ => (F.hsMacGctlGo p).put v 1)
      (g := fun d => (d.setReg (R.hsMacGctl p) (r.row.merge (d.reg (R.hsMacGctl p)) ((F.hsMacGctlGo p).put v 1))).gclGo p ((F.hsMacGctlGo p).put v 1))
      hs rfl rfl htakes (emberOfs_hs _ (by decide) (by decide)) hr (by simp [hn, RegName.plainWrite]) (Dev.ringsUp_of_lt ?_)
      (fun d => ?_) fun l t ht hout => ?_
    · have : p.val < 96 := p.isLt
      simp only [R.hsMacGctl, R.pciRxgBaselo, hsBase]
      omega
    · simp [Dev.writeGo, hn, hport]
    have hlen : (F.hsMacGctlAdmlen p).of (r.row.merge ((s.dev.setWaiting l).reg (R.hsMacGctl p)) ((F.hsMacGctlGo p).put v 1)) = (F.hsMacGctlAdmlen p).of v := by
      rw [RegRow.of_merge_rw hfields gctlFields_sound (f := ⟨16, 11, .rw, (.nat 1 1024)⟩) (by simp [gctlFields]) (.inl rfl) rfl rfl]
      exact Fld.of_put_apart _ _ _ _ (by simp [F.hsMacGctlAdmlen]) (by simp [F.hsMacGctlAdmlen, F.hsMacGctlGo])
    generalize r.row.merge ((s.dev.setWaiting l).reg (R.hsMacGctl p)) ((F.hsMacGctlGo p).put v 1) = w at *
    have hstart : s.dev.Only [R.hsMacGctl p] [] ((s.dev.setWaiting l).setReg (R.hsMacGctl p) w) :=
      ((Dev.Only.refl _ _ s.dev).congr (Dev.setWaiting_keeps s.dev l).1).setReg _ (by simp)
    have hadm : ((s.dev.setWaiting l).setReg (R.hsMacGctl p) w).get (F.hsMacGctlAdmlen p) = (F.hsMacGctlAdmlen p).of w := Dev.get_setReg_self _ _ _ rfl
    have hmac : ((s.dev.setWaiting l).setReg (R.hsMacGctl p) w).mac p = s.dev.mac p := rfl
    have htime : ((s.dev.setWaiting l).setReg (R.hsMacGctl p) w).time = s.dev.time := rfl
    generalize (s.dev.setWaiting l).setReg (R.hsMacGctl p) w = e at *
    have hkeep : ∀ f : Fld, f.addr ≠ R.hsMacGctl p → 0x81000 ≤ f.addr → e.get f = s.dev.get f := fun f hf hge =>
      hstart.get_eq (by simpa using hf) hge (by simp)
    have hcycle := hkeep (F.hsMacGcycleValue p) (by simp [F.hsMacGcycleValue, R.hsMacGcycle, R.hsMacGctl]) (hsMac_ge _ _)
    obtain ⟨hpend, hchg, hlist, hraised, hoper, honly⟩ := e.gclGo_commits p _ hgo c (by
      rw [hcycle, hkeep (F.hsMacGbaseValue p) (by simp [F.hsMacGbaseValue, R.hsMacGbase, R.hsMacGctl]) (hsMac_ge _ _),
        hkeep (F.hsMacGleadValue p) (by simp [F.hsMacGleadValue, R.hsMacGlead, R.hsMacGctl]) (hsMac_ge _ _), htime, hc])
    rw [hadm, hlen, hcycle] at hlist
    rw [hmac] at hoper
    generalize e.gclGo p ((F.hsMacGctlGo p).put v 1) = b at *
    have hbmac : t.dev.mac p = b.mac p := (ht.mac p).trans ((Dev.mac_setWaiting _ _ _).trans (Dev.mac_emit _ _ _))
    refine ⟨by rw [hout]; rfl, (ht.get _).trans hpend, (ht.get _).trans hchg, by rw [hbmac, hlist], fun h => ?_, by rw [hbmac, hoper], ?_⟩
    · refine ht.raised.2 ((hraised h).of_ctl (hstart _ ?_ (by simp)).symm rfl)
      simp only [List.mem_singleton, R.hsMacGctl, R.hrtEvtSrcCtl]
      have := hsBase_ge 0x40 p
      omega
    · exact ht.only.2 (((Dev.Only.mono (by simp) (by simp) hstart).trans honly).congr rfl)
  · intro p
    refine State.of_sent ?_ fun _ h => h
    intro s hs htakes
    obtain ⟨r, hr, hn, hport, hfields⟩ := decodeAddr_hsMacGctl p
    have hkeepv : (F.hsMacGctlGo p).of (s.dev.keepValue (R.hsMacGctl p)) = 0 := by
      unfold Dev.keepValue
      rw [hr]
      exact (RegRow.of_only hfields gctlFields_sound (f := ⟨31, 1, .wo, .any⟩) (by simp [gctlFields]) rfl rfl _ _).trans (if_neg (by simp [FieldType.kept]))
    have hgo : (F.hsMacGctlGo p).of (s.dev.withField (F.hsMacGctlCancel p) 1) = 0 := by
      rw [Dev.withField, Fld.of_put_apart _ _ _ _ (by simp [F.hsMacGctlGo]) (by simp [F.hsMacGctlGo, F.hsMacGctlCancel])]
      exact hkeepv
    have hcancel : (F.hsMacGctlCancel p).of (s.dev.withField (F.hsMacGctlCancel p) 1) = 1 := Fld.of_put _ _ _ (by simp [F.hsMacGctlCancel])
    simp only [exec, execGclCancel, State.hostField]
    refine State.plainWrite_takes (a := R.hsMacGctl p) (u := fun d => d.withField (F.hsMacGctlCancel p) 1)
      (g := fun d => ((d.setReg (R.hsMacGctl p) (r.row.merge (d.reg (R.hsMacGctl p)) (s.dev.withField (F.hsMacGctlCancel p) 1))).gclCancel p true).gateRefresh p)
      hs rfl rfl htakes (emberOfs_hs _ (by decide) (by decide)) hr (by simp [hn, RegName.plainWrite]) (Dev.ringsUp_of_lt ?_)
      (fun d => ?_) fun l t ht hout => ?_
    · have : p.val < 96 := p.isLt
      simp only [R.hsMacGctl, R.pciRxgBaselo, hsBase]
      omega
    · simp [Dev.writeGo, hn, hport, Dev.gclGo, hgo, hcancel, Dev.gclCancel]
    generalize r.row.merge _ _ = w at ht hout
    have hstart : s.dev.Only [R.hsMacGctl p] [] ((s.dev.setWaiting l).setReg (R.hsMacGctl p) w) :=
      ((Dev.Only.refl _ _ s.dev).congr (Dev.setWaiting_keeps s.dev l).1).setReg _ (by simp)
    have hmac : ((s.dev.setWaiting l).setReg (R.hsMacGctl p) w).mac p = s.dev.mac p := rfl
    have hsent : ((s.dev.setWaiting l).setReg (R.hsMacGctl p) w).out = [] := hs
    generalize (s.dev.setWaiting l).setReg (R.hsMacGctl p) w = e at *
    obtain ⟨honly, -, -, hoper, hcout⟩ := e.gclCancel_keeps p true
    have hnone : ((e.gclCancel p true).mac p).pend = none := by simp [Dev.gclCancel]
    have hzero : (e.gclCancel p true).get (F.hsMacGctlPend p) = 0 :=
      Dev.get_set_lt _ _ (by simp [Fld.fits, F.hsMacGctlPend]) (by simp [F.hsMacGctlPend])
    generalize e.gclCancel p true = a at *
    have hst := a.gateRefresh_stores p
    have hrmac : (a.gateRefresh p).mac p = a.mac p := by rw [Dev.mac, hst.same.macs, Dev.mac]
    generalize a.gateRefresh p = b at *
    have hbmac : t.dev.mac p = b.mac p := (ht.mac p).trans ((Dev.mac_setWaiting _ _ _).trans (Dev.mac_emit _ _ _))
    refine ⟨?_, by rw [hbmac, hrmac, hnone], ?_, by rw [hbmac, hrmac, hoper, hmac], ?_⟩
    · rw [hout, hst.out, hcout, hsent]
      rfl
    · refine (ht.get _).trans (Eq.trans ?_ hzero)
      exact hst.only.get_eq (by simp [F.hsMacGctlPend, R.hsMacGctl, R.hsMacGstat]) (hsMac_ge _ _) (by simp)
    · refine ht.only.2 (Dev.Only.congr (e := b) ?_ rfl)
      exact ((Dev.Only.mono (by simp) (by simp) hstart).trans (Dev.Only.mono (by simp) (by simp) honly)).trans (Dev.Only.mono (by simp) (by simp) hst.only)
  · intro p l
    refine State.of_sent ?_ fun _ h => h
    intro s hs hpend hrel hpast hoff
    simp only [exec, execMacGclSwitch]
    refine State.run_ends hs rfl fun t ht hout hfz => ?_
    obtain ⟨hdrops, hoper, hnone, hzero, hraised, honly⟩ := s.dev.gclSwitch_shows p l hoff
    simp only [hpend] at ht
    rw [if_neg (by simp [hrel]; omega), hdrops] at ht
    exact ⟨by rw [ht.mac, hoper], by rw [ht.mac, hnone], (ht.get _).trans hzero, ht.raised.2 hraised, ht.only.2 honly⟩
  · intro p
    refine State.of_sent ?_ fun _ h => h
    intro s hs hrel
    simp only [exec, execGateEntryChange]
    refine State.run_ends hs rfl fun t ht hout hfz => ?_
    rw [hrel, Dev.when_true] at ht
    obtain ⟨hmac, hgates, hidx, honly⟩ := Dev.movedStart_shows (d := s.dev) (p := p) (f := fun m =>
      { m with oper := { m.oper with start := unsignedOf 32 ((m.oper.start : Int)
        + signedOf 32 (unsignedOf 32 ((s.dev.time.ns : Int) - (m.oper.start : Nat))) / (max 1 m.oper.cycle : Nat) * (m.oper.cycle : Nat)) } })
      (by intro m; rfl)
    rw [ht.mac, ht.get, ht.get]
    exact ⟨hmac, hgates, hidx, ht.only.2 honly⟩

end Sys2Proof.Machine
end

section
/-!
PROOFS. Links, low-power idle, parking and the tinder detector (R278, R294 to R297, R324).
-/

namespace Sys2Proof.Machine

set_option Elab.async false

/-! ### Accesses that wait -/

/-- The accesses that wait are as before. -/
def Dev.WaitKept (d e : Dev) : Prop := e.waiting = d.waiting

namespace Dev.WaitKept
variable {d e f : Dev}

theorem refl (d : Dev) : d.WaitKept d := rfl
theorem trans (h : d.WaitKept e) (k : e.WaitKept f) : d.WaitKept f := Eq.trans k h
theorem set (h : d.WaitKept e) (g : Fld) (x : Nat) : d.WaitKept (e.set g x) := h
theorem setFlag (h : d.WaitKept e) (g : Fld) (b : Bool) : d.WaitKept (e.setFlag g b) := h
theorem count (h : d.WaitKept e) (g : Fld) (n : Nat) : d.WaitKept (e.count g n) := h
theorem emit (h : d.WaitKept e) (o : Output) : d.WaitKept (e.emit o) := h
theorem setLane (h : d.WaitKept e) (l : Nat) (g : Lane → Lane) : d.WaitKept (e.setLane l g) := h
theorem setMac (h : d.WaitKept e) (p : Nat) (g : Mac → Mac) : d.WaitKept (e.setMac p g) := h
theorem setPwr (h : d.WaitKept e) (g : PwrSt → PwrSt) : d.WaitKept (e.setPwr g) := h
theorem raise (h : d.WaitKept e) (n : Nat) (l : List Nat) : d.WaitKept (e.raise n l) := h.trans (e.raise_quiet n l).waiting

theorem when (h : d.WaitKept e) (c : Bool) (g : Dev → Dev) (hg : ∀ x : Dev, x.WaitKept (g x)) : d.WaitKept (e.when c g) := by
  cases c
  · exact h
  · exact h.trans (hg e)

theorem each {α : Type} (h : d.WaitKept e) (xs : List α) (g : Dev → α → Dev) (hg : ∀ (x : Dev) (y : α), x.WaitKept (g x y)) :
    d.WaitKept (e.each xs g) := Dev.each_keeps (P := d.WaitKept) xs g (fun x y _ hx => hx.trans (hg x y)) e h

end Dev.WaitKept

/-- Where no access waits, nothing is served. -/
theorem Dev.serve_idle {d : Dev} (h : d.waiting = []) (fz : Fuses) : d.serve fz = d := by
  unfold Dev.serve
  rw [h, Dev.each_nil]
  dsimp only
  rw [h, Dev.serveList, ← h]

/-- A command on cords ends as its effect does where no access waits. -/
theorem State.runServe_ends {s : State} {f : Fuses → Dev → Dev} {P : State → Prop} (hs : s.dev.out = []) (hw : (f s.fuses s.dev).waiting = [])
    (h : ∀ t : State, (f s.fuses s.dev).EndsAs t.dev → t.outputs = (f s.fuses s.dev).out ++ s.outputs → t.fuses = s.fuses → P t) :
    ∃ t, s.runServe f = .next t ∧ P t := by
  refine State.run_ends hs (f := fun fz d => (f fz d).serve fz) rfl fun t ht hout hfz => h t ?_ ?_ hfz
  · rwa [Dev.serve_idle hw] at ht
  · rwa [Dev.serve_idle hw] at hout

/-! ### Links (R278) -/

/-- The first registers that a port's link changes as it goes down. -/
theorem Dev.linkFalls_shows (d : Dev) (p : Nat) (b : Bool) :
    let e := (d.set (F.hsMacBondLink p) 0).when b fun d => d.count (F.hsMacRxerrCount p) 1
    d.Stores [R.hsMacBond p, R.hsMacRxerr p] e ∧ e.get (F.hsMacBondLink p) = 0
      ∧ e.get (F.hsMacRxerrCount p) = (if b then satAdd 32 (d.get (F.hsMacRxerrCount p)) 1 else d.get (F.hsMacRxerrCount p)) := by
  have hzero : (d.set (F.hsMacBondLink p) 0).get (F.hsMacBondLink p) = 0 := Dev.get_set_lt _ _ (by simp [Fld.fits, F.hsMacBondLink]) (by simp [F.hsMacBondLink])
  have hrx : (d.set (F.hsMacBondLink p) 0).get (F.hsMacRxerrCount p) = d.get (F.hsMacRxerrCount p) :=
    Dev.get_set_ne _ _ (by simp [F.hsMacBondLink, F.hsMacRxerrCount, R.hsMacBond, R.hsMacRxerr])
  have hst : d.Stores [R.hsMacBond p, R.hsMacRxerr p] (d.set (F.hsMacBondLink p) 0) := (Stores.refl _ d).set _ _ (by simp [F.hsMacBondLink])
  dsimp only
  generalize d.set (F.hsMacBondLink p) 0 = e at *
  cases b
  · exact ⟨hst, hzero, hrx⟩
  · refine ⟨hst.count _ _ (by simp [F.hsMacRxerrCount]), ?_, ?_⟩
    · rw [Dev.when_true, Dev.count, Dev.get_set_ne _ _ (by simp [F.hsMacBondLink, F.hsMacRxerrCount, R.hsMacBond, R.hsMacRxerr]), hzero]
    · rw [Dev.when_true, Dev.get_count_self _ _ _ (by simp [Fld.fits, F.hsMacRxerrCount]), hrx]
      rfl

/-- The link of a port with no frame in transmission goes down (R278). -/
theorem Dev.macDown_idle {d : Dev} {p : Nat} (hup : d.linkUp p = true) (hcur : (d.mac p).cur = none) (b : Bool) :
    (d.macDown p b).linkUp p = false ∧ d.Raised 0xCB (d.macDown p b)
      ∧ (d.macDown p b).get (F.hsMacRxerrCount p) = (if b then satAdd 32 (d.get (F.hsMacRxerrCount p)) 1 else d.get (F.hsMacRxerrCount p))
      ∧ d.Only [R.hsMacBond p, R.hsMacRxerr p] [0xCB] (d.macDown p b) := by
  unfold Dev.macDown
  rw [hup, Dev.when_true]
  obtain ⟨hst, hlink, hrx⟩ := d.linkFalls_shows p b
  dsimp only at *
  generalize (d.set (F.hsMacBondLink p) 0).when b (fun d => d.count (F.hsMacRxerrCount p) 1) = e at *
  have hcur' : (e.mac p).cur = none := by rw [Dev.mac, hst.same.macs]; exact hcur
  rw [hcur']
  dsimp only
  have hregs := (e.setMac_keeps p fun m => { m with gen := [] }).1
  generalize (e.setMac p fun m => { m with gen := [] }) = x at *
  have hx : d.Only [R.hsMacBond p, R.hsMacRxerr p] [] x := hst.only.congr hregs
  have hget : ∀ f : Fld, 0x81000 ≤ f.addr → (x.raise 0xCB [R.hsMacBond p]).get f = e.get f := fun f hf =>
    (Dev.get_raise _ _ _ (.inr hf)).trans (Dev.get_congr hregs f)
  refine ⟨?_, hx.raised_raise _ (by simp) ?_ (by decide), (hget _ (hsMac_ge _ _)).trans hrx, (Dev.Only.mono (fun _ h => h) (by simp) hx).raise _ _ (by simp)⟩
  · rw [Dev.linkUp, Dev.flag, hget _ (hsMac_ge p 0), hlink]
    rfl
  · have := hsBase_ge 0x40 p
    simp only [List.mem_cons, List.not_mem_nil, or_false, R.hsMacBond, R.hsMacRxerr, R.hrtEvtSrcCtl]
    omega

/-- The link of a port goes down under a frame in transmission, which is dropped and counted (R278). -/
theorem Dev.macDown_drops {d : Dev} {p : Nat} {x : QPkt} (hup : d.linkUp p = true) (hcur : (d.mac p).cur = some x) (b : Bool) :
    (d.macDown p b).linkUp p = false ∧ ((d.macDown p b).mac p).cur = none
      ∧ (d.macDown p b).get (F.hsMacTxdropCount p) = satAdd 32 (d.get (F.hsMacTxdropCount p)) 1 ∧ d.Raised 0xCB (d.macDown p b) := by
  unfold Dev.macDown
  rw [hup, Dev.when_true]
  obtain ⟨hst, hlink, -⟩ := d.linkFalls_shows p b
  dsimp only at *
  generalize (d.set (F.hsMacBondLink p) 0).when b (fun d => d.count (F.hsMacRxerrCount p) 1) = e at *
  have hcur' : (e.mac p).cur = some x := by rw [Dev.mac, hst.same.macs]; exact hcur
  rw [hcur']
  dsimp only
  obtain ⟨hfree, -, -, hmac⟩ := e.takeCur_shows p x.bufs (26 + p / 48)
  generalize (e.setMac p fun m => { m with cur := none }).freeBufs x.bufs (26 + p / 48) = a at *
  have hbase := hsBase_ge 0x40 p
  have hbuf : ∀ k, hsBase 0x40 p + k ∉ bufRegs := fun k hm => by have := bufRegs_range hm; omega
  have hdrop : (a.count (F.hsMacTxdropCount p) 1).get (F.hsMacTxdropCount p) = satAdd 32 (d.get (F.hsMacTxdropCount p)) 1 := by
    rw [Dev.get_count_self _ _ _ (by simp [Fld.fits, F.hsMacTxdropCount]), hfree.get_eq (hbuf 0x83C) (hsMac_ge _ _) (by simp),
      hst.only.get_eq (by simp [F.hsMacTxdropCount, R.hsMacTxdrop, R.hsMacBond, R.hsMacRxerr]) (hsMac_ge _ _) (by simp)]
    rfl
  have hdown : (a.count (F.hsMacTxdropCount p) 1).get (F.hsMacBondLink p) = 0 := by
    rw [Dev.count, Dev.get_set_ne _ _ (by simp [F.hsMacBondLink, F.hsMacTxdropCount, R.hsMacBond, R.hsMacTxdrop]), hfree.get_eq (hbuf 0) (hsMac_ge p 0) (by simp), hlink]
  have hnone : ((a.count (F.hsMacTxdropCount p) 1).mac p).cur = none := by rw [Dev.mac_count, hmac]
  have honly : d.Only (linkRegs p) [0xE0, 0xE1, 0xE3] (a.count (F.hsMacTxdropCount p) 1) :=
    ((Dev.Only.mono (l' := linkRegs p) (by simp [linkRegs]) (by simp) hst.only).trans (Dev.Only.mono (fun _ h => List.mem_append_right _ h) (by simp) hfree)).count _ _
      (by simp [linkRegs, F.hsMacTxdropCount])
  generalize a.count (F.hsMacTxdropCount p) 1 = c at *
  have hself := c.mac_setMac_self p fun m => { m with gen := [] }
  have hregs := (c.setMac_keeps p fun m => { m with gen := [] }).1
  generalize (c.setMac p fun m => { m with gen := [] }) = y at *
  have hget : ∀ f : Fld, 0x81000 ≤ f.addr → (y.raise 0xCB [R.hsMacBond p]).get f = c.get f := fun f hf =>
    (Dev.get_raise _ _ _ (.inr hf)).trans (Dev.get_congr hregs f)
  refine ⟨?_, ?_, (hget _ (hsMac_ge _ _)).trans hdrop, (honly.congr hregs).raised_raise _ (by simp) (fun hm => ?_) (by decide)⟩
  · rw [Dev.linkUp, Dev.flag, hget _ (hsMac_ge p 0), hdown]
    rfl
  · rw [Dev.mac, (y.raise_quiet _ _).macs, ← Dev.mac, hself]
    exact hnone
  · have := (linkRegs_range hm).1
    simp only [R.hrtEvtSrcCtl] at this
    omega

/-- A link that the device takes down (R278). -/
theorem Dev.macLost_shows (d : Dev) (p : Nat) :
    (d.macLost p).linkUp p = false ∧ d.Only (linkRegs p) linkEvents (d.macLost p)
      ∧ ((d.macLost p).get (F.hsMacRxerrCount p) = d.get (F.hsMacRxerrCount p)
        ∨ d.linkUp p = true ∧ (d.macLost p).get (F.hsMacRxerrCount p) = satAdd 32 (d.get (F.hsMacRxerrCount p)) 1) := by
  unfold Dev.macLost
  cases hup : d.linkUp p
  · exact ⟨hup, Dev.Only.refl _ _ d, .inl rfl⟩
  · obtain ⟨hdown, hrx⟩ := Dev.macDown_link { d with free := d.free + 1 } p ((Config.freeWord d.free).getLsbD 0)
    refine ⟨hdown, Dev.macDown_only { d with free := d.free + 1 } p _, ?_⟩
    rcases hrx with h | ⟨-, h⟩
    · exact .inl h
    · exact .inr ⟨rfl, h⟩

/-- The transmitter leaves low-power idle (R295). -/
theorem Dev.leaveLpi_shows (d : Dev) (p : Nat) :
    (d.leaveLpi p).get (F.hsMacLpistatTxlpi p) = 0
      ∧ ((d.leaveLpi p).mac p).wakeAt = (if d.get (F.hsMacLpistatTxlpi p) = 1 then d.time.ticks + (d.get (F.hsMacLpiTw p) * 100 + 15) / 16 else (d.mac p).wakeAt)
      ∧ (d.leaveLpi p).get (F.hsMacLpistatTxlpicnt p) = d.get (F.hsMacLpistatTxlpicnt p) ∧ d.Only [R.hsMacLpistat p] [] (d.leaveLpi p) := by
  have hlt : d.get (F.hsMacLpistatTxlpi p) < 2 := d.get_lt _
  unfold Dev.leaveLpi Dev.flag
  by_cases h : d.get (F.hsMacLpistatTxlpi p) = 0
  · rw [h]
    exact ⟨h, rfl, rfl, Dev.Only.refl _ _ d⟩
  · rw [bne_iff_ne.2 h, Dev.when_true, if_pos (by omega)]
    refine ⟨?_, ?_, ?_, ((Dev.Only.refl _ _ d).set _ _ (by simp [F.hsMacLpistatTxlpi])).congr (Dev.setMac_keeps _ _ _).1⟩
    · rw [Dev.get_setMac]
      exact Dev.get_set_lt _ _ (by simp [Fld.fits, F.hsMacLpistatTxlpi]) (by simp [F.hsMacLpistatTxlpi])
    · rw [Dev.mac_setMac_self]
    · rw [Dev.get_setMac, Dev.get_set_apart _ _ _ _ (by simp [Fld.fits, F.hsMacLpistatTxlpicnt]) (by simp [Fld.apart, F.hsMacLpistatTxlpi, F.hsMacLpistatTxlpicnt])]

/-! ### Parking (R296) -/

theorem Dev.stage_setStage_zero {d : Dev} {l : Nat} (k : Nat) (h : d.stage l = 0) : (d.setStage k 0).stage l = 0 := by
  by_cases hk : R.hsLnStat l = R.hsLnStat k
  · have hf : F.hsLnStatStage l = F.hsLnStatStage k := by simp only [F.hsLnStatStage, hk]
    rw [Dev.stage, hf]
    exact Dev.stage_setStage d k (by decide)
  · rw [Dev.stage, Dev.setStage, Dev.get_set_ne _ _ hk]
    exact h

/-- The lanes of a list put to stage 0. -/
theorem Dev.stagesOff_shows (d : Dev) (ls : List Nat) :
    d.Only (ls.map R.hsLnStat) [] (d.each ls fun d l => d.setStage l 0) ∧ ∀ l ∈ ls, (d.each ls fun d l => d.setStage l 0).stage l = 0 := by
  refine ⟨(Dev.Only.refl _ _ d).each _ _ fun e l hl => ?_, ?_⟩
  · exact Dev.Only.mono (by simpa using ⟨l, hl, rfl⟩) (by simp) (e.setStage_only l 0)
  · induction ls generalizing d with
    | nil => simp
    | cons k ks ih =>
      intro l hl
      rw [Dev.each_cons]
      rcases List.mem_cons.1 hl with rfl | hl
      · exact Dev.each_keeps (P := fun x : Dev => x.stage l = 0) ks _ (fun x y _ hx => Dev.stage_setStage_zero y hx) _ (Dev.stage_setStage d l (by decide))
      · exact ih _ _ hl

/-- The registers and events of a port that parks. -/
def parkRegs (p : Nat) (ls : List Nat) : List Nat := [R.hsMacFcstat p, R.hsMacLpistat p, R.hsMacPark p] ++ linkRegs p ++ ls.map R.hsLnStat

/-- A port that parks (R296). -/
theorem Dev.park_shows (d : Dev) (p : Nat) :
    (d.park p).get (F.hsMacParkPark p) = 1 ∧ (d.park p).get (F.hsMacParkPstate p) = 1 ∧ (d.park p).linkUp p = false
      ∧ (∀ l ∈ d.lanesOf p, (d.park p).stage l = 0) ∧ ((d.park p).mac p).pause = 0 ∧ ((d.park p).mac p).pfc = []
      ∧ ((d.park p).get (F.hsMacRxerrCount p) = d.get (F.hsMacRxerrCount p)
          ∨ d.linkUp p = true ∧ (d.park p).get (F.hsMacRxerrCount p) = satAdd 32 (d.get (F.hsMacRxerrCount p)) 1)
      ∧ (d.park p).get (F.hsMacLpistatTxlpi p) = 0 ∧ d.Raised 0xCE (d.park p) := by
  obtain ⟨hdown, hlost, hrx⟩ := d.macLost_shows p
  unfold Dev.park
  dsimp only
  generalize d.macLost p = a at *
  obtain ⟨hoff, hstage⟩ := a.stagesOff_shows (d.lanesOf p)
  generalize (a.each (d.lanesOf p) fun d l => d.setStage l 0) = b at *
  have hself := b.mac_setMac_self p fun m => { m with pause := 0, pfc := [], wakeAt := 0 }
  have hregs := (b.setMac_keeps p fun m => { m with pause := 0, pfc := [], wakeAt := 0 }).1
  generalize (b.setMac p fun m => { m with pause := 0, pfc := [], wakeAt := 0 }) = c at *
  have hst : c.Stores [R.hsMacFcstat p, R.hsMacLpistat p, R.hsMacPark p] ((((((c.pauseStat p).set (F.hsMacFcstatXoffact p) 0).set (F.hsMacLpistatTxlpi p) 0).set
      (F.hsMacLpistatRxlpi p) 0).set (F.hsMacParkPark p) 1).set (F.hsMacParkPstate p) 1) := by
    unfold Dev.pauseStat
    exact (((((((Stores.refl _ c).setFlag _ _ (by simp [F.hsMacFcstatTxpaused])).set _ _ (by simp [F.hsMacFcstatPfcstop])).set _ _
      (by simp [F.hsMacFcstatXoffact])).set _ _ (by simp [F.hsMacLpistatTxlpi])).set _ _ (by simp [F.hsMacLpistatRxlpi])).set _ _ (by simp [F.hsMacParkPark])).set
      _ _ (by simp [F.hsMacParkPstate])
  generalize (c.pauseStat p).set (F.hsMacFcstatXoffact p) 0 = u at *
  have hpstate : ((((u.set (F.hsMacLpistatTxlpi p) 0).set (F.hsMacLpistatRxlpi p) 0).set (F.hsMacParkPark p) 1).set (F.hsMacParkPstate p) 1).get
      (F.hsMacParkPstate p) = 1 := Dev.get_set_lt _ _ (by simp [Fld.fits, F.hsMacParkPstate]) (by simp [F.hsMacParkPstate])
  have hpark : ((((u.set (F.hsMacLpistatTxlpi p) 0).set (F.hsMacLpistatRxlpi p) 0).set (F.hsMacParkPark p) 1).set (F.hsMacParkPstate p) 1).get
      (F.hsMacParkPark p) = 1 := by
    rw [Dev.get_set_apart _ _ _ _ (by simp [Fld.fits, F.hsMacParkPark]) (by simp [Fld.apart, F.hsMacParkPark, F.hsMacParkPstate])]
    exact Dev.get_set_lt _ _ (by simp [Fld.fits, F.hsMacParkPark]) (by simp [F.hsMacParkPark])
  have htx : ((((u.set (F.hsMacLpistatTxlpi p) 0).set (F.hsMacLpistatRxlpi p) 0).set (F.hsMacParkPark p) 1).set (F.hsMacParkPstate p) 1).get
      (F.hsMacLpistatTxlpi p) = 0 := by
    rw [Dev.get_set_ne _ _ (by simp [F.hsMacLpistatTxlpi, F.hsMacParkPstate, R.hsMacLpistat, R.hsMacPark]),
      Dev.get_set_ne _ _ (by simp [F.hsMacLpistatTxlpi, F.hsMacParkPark, R.hsMacLpistat, R.hsMacPark]),
      Dev.get_set_apart _ _ _ _ (by simp [Fld.fits, F.hsMacLpistatTxlpi]) (by simp [Fld.apart, F.hsMacLpistatTxlpi, F.hsMacLpistatRxlpi])]
    exact Dev.get_set_lt _ _ (by simp [Fld.fits, F.hsMacLpistatTxlpi]) (by simp [F.hsMacLpistatTxlpi])
  generalize (((u.set (F.hsMacLpistatTxlpi p) 0).set (F.hsMacLpistatRxlpi p) 0).set (F.hsMacParkPark p) 1).set (F.hsMacParkPstate p) 1 = v at *
  have hbase := hsBase_ge 0x40 p
  have hlanes : ∀ k < 0x10000, hsBase 0x40 p + k ∉ (d.lanesOf p).map R.hsLnStat := fun k hk hm => by
    obtain ⟨l, -, hl⟩ := List.mem_map.1 hm
    simp only [R.hsLnStat, hsBase] at hl
    omega
  have hkeep : ∀ k < 0x10000, k ≠ 0x1C → k ≠ 0x204 → k ≠ 0x300 → ∀ f : Fld, f.addr = hsBase 0x40 p + k → v.get f = a.get f := fun k hk h1 h2 h3 f hf => by
    rw [hst.only.get_eq ?_ (by rw [hf]; omega) (by simp), Dev.get_congr hregs, hoff.get_eq (hf ▸ hlanes k hk) (by rw [hf]; omega) (by simp)]
    simp only [hf, R.hsMacFcstat, R.hsMacLpistat, R.hsMacPark, List.mem_cons, List.not_mem_nil, or_false]
    omega
  have hvmac : v.mac p = c.mac p := by rw [Dev.mac, hst.same.macs, Dev.mac]
  have honly : d.Only (parkRegs p (d.lanesOf p)) linkEvents v := by
    have h1 : d.Only (parkRegs p (d.lanesOf p)) linkEvents a :=
      Dev.Only.mono (fun _ h => List.mem_append_left _ (List.mem_append_right _ h)) (fun _ h => h) hlost
    have h2 : a.Only (parkRegs p (d.lanesOf p)) linkEvents b := Dev.Only.mono (fun _ h => List.mem_append_right _ h) (by simp) hoff
    exact ((h1.trans h2).congr hregs).trans (Dev.Only.mono (fun _ h => List.mem_append_left _ (List.mem_append_left _ h)) (by simp) hst.only)
  have hraised : d.Raised 0xCE (v.raise 0xCE [R.hsMacPark p]) := by
    refine honly.raised_raise _ (by simp [linkEvents]) (fun hm => ?_) (by decide)
    simp only [parkRegs, List.mem_append, List.mem_cons, List.not_mem_nil, or_false, R.hsMacFcstat, R.hsMacLpistat, R.hsMacPark] at hm
    rcases hm with (hm | hm) | hm
    · simp only [R.hrtEvtSrcCtl] at hm
      omega
    · have := (linkRegs_range hm).1
      simp only [R.hrtEvtSrcCtl] at this
      omega
    · obtain ⟨l, -, hl⟩ := List.mem_map.1 hm
      simp only [R.hsLnStat, R.hrtEvtSrcCtl, hsBase] at hl
      omega
  have hget : ∀ f : Fld, 0x81000 ≤ f.addr → (v.raise 0xCE [R.hsMacPark p]).get f = v.get f := fun f hf => Dev.get_raise _ _ _ (.inr hf)
  have hmac : (v.raise 0xCE [R.hsMacPark p]).mac p = c.mac p := by rw [Dev.mac, (v.raise_quiet _ _).macs, ← Dev.mac, hvmac]
  refine ⟨(hget _ (hsMac_ge _ _)).trans hpark, (hget _ (hsMac_ge _ _)).trans hpstate, ?_, fun l hl => ?_, by rw [hmac, hself], by rw [hmac, hself], ?_,
    (hget _ (hsMac_ge _ _)).trans htx, hraised⟩
  · rw [Dev.linkUp, Dev.flag, hget _ (hsMac_ge p 0), hkeep 0 (by decide) (by decide) (by decide) (by decide) _ rfl]
    exact hdown
  · have hge := hsBase_ge 0 l
    rw [Dev.stage, hget _ (by simp only [F.hsLnStatStage, R.hsLnStat]; omega), hst.only.get_eq ?_ (by simp only [F.hsLnStatStage, R.hsLnStat]; omega) (by simp),
      Dev.get_congr hregs]
    · exact hstage l hl
    · simp only [F.hsLnStatStage, R.hsLnStat, R.hsMacFcstat, R.hsMacLpistat, R.hsMacPark, List.mem_cons, List.not_mem_nil, or_false, hsBase]
      omega
  · rw [hget _ (hsMac_ge _ _), hkeep 0x81C (by decide) (by decide) (by decide) (by decide) _ rfl]
    exact hrx

/-- A parked port that wakes (R297). -/
theorem Dev.unpark_shows (d : Dev) (p : Nat) :
    (d.unpark p).get (F.hsMacParkPark p) = 0 ∧ (d.unpark p).get (F.hsMacParkPstate p) = 2 ∧ d.Raised 0xC9 (d.unpark p) := by
  unfold Dev.unpark
  have hbase := hsBase_ge 0x40 p
  have hpstate : ((d.set (F.hsMacParkPark p) 0).set (F.hsMacParkPstate p) 2).get (F.hsMacParkPstate p) = 2 :=
    Dev.get_set_lt _ _ (by simp [Fld.fits, F.hsMacParkPstate]) (by simp [F.hsMacParkPstate])
  have hpark : ((d.set (F.hsMacParkPark p) 0).set (F.hsMacParkPstate p) 2).get (F.hsMacParkPark p) = 0 := by
    rw [Dev.get_set_apart _ _ _ _ (by simp [Fld.fits, F.hsMacParkPark]) (by simp [Fld.apart, F.hsMacParkPark, F.hsMacParkPstate])]
    exact Dev.get_set_lt _ _ (by simp [Fld.fits, F.hsMacParkPark]) (by simp [F.hsMacParkPark])
  have hset : d.Only [R.hsMacPark p] [] ((d.set (F.hsMacParkPark p) 0).set (F.hsMacParkPstate p) 2) :=
    ((Dev.Only.refl _ _ d).set _ _ (by simp [F.hsMacParkPark])).set _ _ (by simp [F.hsMacParkPstate])
  generalize (d.set (F.hsMacParkPark p) 0).set (F.hsMacParkPstate p) 2 = a at *
  have hregs := (a.setPwr_keeps fun x => { x with tinderRun := Tbl.set 0 x.tinderRun p 0 }).1
  generalize (a.setPwr fun x => { x with tinderRun := Tbl.set 0 x.tinderRun p 0 }) = b at *
  have heach : b.Only ((d.lanesOf p).flatMap stageRegs) [0xB7] (b.each (d.lanesOf p) fun d l => d.laneStart l) :=
    (Dev.Only.refl _ _ b).each _ _ fun x l hl => Dev.Only.mono (fun a ha => List.mem_flatMap.2 ⟨l, hl, ha⟩) (fun _ h => h) (x.laneStart_shows l).2.2
  generalize (b.each (d.lanesOf p) fun d l => d.laneStart l) = c at *
  have hstage : ∀ a ∈ (d.lanesOf p).flatMap stageRegs, 0xA000000 ≤ a ∧ a ≠ R.hsMacPark p := fun a ha => by
    obtain ⟨l, -, hl⟩ := List.mem_flatMap.1 ha
    simp only [stageRegs, R.hsLnStat, R.hsLngSum0, R.hsLngSum1, hsBase, List.mem_cons, List.not_mem_nil, or_false] at hl
    simp only [R.hsMacPark, hsBase]
    omega
  have honly : d.Only (R.hsMacPark p :: (d.lanesOf p).flatMap stageRegs) [0xB7] c :=
    ((Dev.Only.mono (by simp) (by simp) hset).congr hregs).trans (Dev.Only.mono (fun _ h => List.mem_cons_of_mem _ h) (fun _ h => h) heach)
  have hget : ∀ f : Fld, f.addr = R.hsMacPark p → (c.raise 0xC9 [R.hsMacPark p]).get f = a.get f := fun f hf => by
    have hge : 0x81000 ≤ f.addr := by rw [hf]; exact hsMac_ge p 0x300
    rw [Dev.get_raise _ _ _ (.inr hge), heach.get_eq (fun hm => (hstage _ hm).2 hf) hge (by simp), Dev.get_congr hregs]
  refine ⟨(hget _ rfl).trans hpark, (hget _ rfl).trans hpstate, honly.raised_raise _ (by simp) (fun hm => ?_) (by decide)⟩
  rcases List.mem_cons.1 hm with hm | hm
  · simp only [R.hsMacPark, R.hrtEvtSrcCtl] at hm
    omega
  · have := (hstage _ hm).1
    simp only [R.hrtEvtSrcCtl] at this
    omega

theorem Dev.laneEvent_waits (d : Dev) (l n : Nat) (addrs : List Nat) : d.WaitKept (d.laneEvent l n addrs) := ((WaitKept.refl d).set _ _).raise _ _

theorem Dev.loopStage_waits (d : Dev) (l : Nat) : d.WaitKept (d.loopStage l) := by
  unfold Dev.loopStage Dev.enterActive Dev.setStage
  split
  · exact (WaitKept.refl _).set _ _
  · split
    · exact (((WaitKept.refl _).set _ _).setLane _ _).trans (Dev.laneEvent_waits _ _ _ _)
    · exact WaitKept.refl _

theorem Dev.laneStart_waits (d : Dev) (l : Nat) : d.WaitKept (d.laneStart l) := by
  unfold Dev.laneStart Dev.setStage
  split
  · exact (WaitKept.refl d).set _ _
  · exact (((((((WaitKept.refl d).set _ _).set _ _).set _ _).set _ _).setLane _ _).set _ _).trans (Dev.loopStage_waits _ _)

theorem Dev.unpark_waits (d : Dev) (p : Nat) : d.WaitKept (d.unpark p) :=
  (((((WaitKept.refl d).set _ _).set _ _).setPwr _).each _ _ fun x l => x.laneStart_waits l).raise _ _

/-! ### The tinder detector (R297) -/

theorem tinder_counts : ∀ (xs : List (BitVec 128)) {n : Nat}, xs.all tinderCounts = true → 640 ≤ n + xs.length → 640 ≤ xs.foldl tinderStep n
  | [], _, _, h => by simpa using h
  | x :: xs, n, hall, h => by
    rw [List.all_cons, Bool.and_eq_true] at hall
    obtain ⟨hx, hxs⟩ := hall
    refine tinder_counts xs hxs ?_
    unfold tinderStep
    split
    · omega
    · simp only [List.length_cons] at h
      omega

/-- The detector of a port after so many periods (R297). -/
def Dev.tinderCounted (d : Dev) (p n : Nat) : Dev := d.setPwr fun x => { x with tinderRun := Tbl.set 0 x.tinderRun p (if 640 ≤ n then 0 else n) }

theorem Dev.tinderCounted_run (d : Dev) (p n : Nat) : Tbl.get 0 (d.tinderCounted p n).pwr.tinderRun p = if 640 ≤ n then 0 else n :=
  Tbl.get_set_self _ _ _ _

/-- Signal at a port whose detector runs. -/
theorem State.tinder_ends {s : State} {p : Fin 96} {periods : List (BitVec 128)} {P : State → Prop} {e : Dev} (hs : s.dev.out = [])
    (hon : s.dev.tinderOn p = true)
    (he : ((s.dev.tinderCounted p (periods.foldl tinderStep (Tbl.get 0 s.dev.pwr.tinderRun p))).when
      (decide (640 ≤ periods.foldl tinderStep (Tbl.get 0 s.dev.pwr.tinderRun p))) fun d => d.tinderWake p) = e) (hw : e.waiting = [])
    (h : ∀ t : State, e.EndsAs t.dev → P t) : ∃ t, exec (.macTinderWake p periods) s = .next t ∧ P t := by
  have hf : (if !s.dev.tinderOn p then s.dev else
      let n := periods.foldl tinderStep (Tbl.get 0 s.dev.pwr.tinderRun p)
      (s.dev.tinderCounted p n).when (decide (640 ≤ n)) fun d => d.tinderWake p) = e := by
    rw [hon]
    exact he
  simp only [exec, execMacTinderWake]
  refine State.runServe_ends hs ((congrArg Dev.waiting hf).trans hw) fun t ht _ _ => h t ?_
  exact hf ▸ ht

/-- The fields of HSx_MAC_PARK. -/
def parkFields : List FieldRow := [⟨0, 1, .rw, .any⟩, ⟨4, 2, .ro, .any⟩]

theorem parkFields_sound : FieldRow.sound parkFields := by simp [FieldRow.sound, FieldRow.clear, parkFields]

theorem decodeAddr_hsMacPark (p : Fin 96) :
    ∃ r, decodeAddr (R.hsMacPark p) = some r ∧ r.row.name = .hsMacPark ∧ r.port = p ∧ r.row.fields = parkFields := by
  have h : (decodeAddr (R.hsMacPark p)).map (fun r => (r.row.name, r.port, r.row.fields)) = some (.hsMacPark, p.val, parkFields) := by
    revert p; decide +kernel
  simpa [Option.map_eq_some_iff] using h

/-- A host's write of PARK that is taken: it is stored, and acted upon as its value and the port's state say. -/
theorem State.park_takes {s : State} {p : Fin 96} {x : Nat} {o : Host.Outcome State Fault Refusal} {P : State → Prop} (hs : s.dev.out = [])
    (ho : o = s.hostField (F.hsMacParkPark p) x []) (ht : s.dev.Takes (R.hsMacPark p) (s.dev.withField (F.hsMacParkPark p) x))
    (h : ∀ (e : Dev) (t : State), s.dev.Only [R.hsMacPark p] [] e → e.get (F.hsMacParkPstate p) = s.dev.get (F.hsMacParkPstate p) →
      (((e.parkGo p (s.dev.withField (F.hsMacParkPark p) x)).emit (.writeDone (R.hsMacPark p) 0)).setWaiting []).EndsAs t.dev →
      t.outputs.head? = some (.writeDone (R.hsMacPark p) 0) → P t) : ∃ t, o = .next t ∧ P t := by
  obtain ⟨r, hr, hn, hport, hfields⟩ := decodeAddr_hsMacPark p
  refine State.plainWrite_takes (a := R.hsMacPark p) (u := fun d => d.withField (F.hsMacParkPark p) x)
    (g := fun d => (d.setReg (R.hsMacPark p) (r.row.merge (d.reg (R.hsMacPark p)) (s.dev.withField (F.hsMacParkPark p) x))).parkGo p
      (s.dev.withField (F.hsMacParkPark p) x))
    hs ho rfl ht (emberOfs_hs _ (by decide) (by decide)) hr (by simp [hn, RegName.plainWrite]) (Dev.ringsUp_of_lt ?_)
    (fun d => by simp only [Dev.writeGo, hn, hport]) fun l t hends hout => ?_
  · have : p.val < 96 := p.isLt
    simp only [R.hsMacPark, R.pciRxgBaselo, hsBase]
    omega
  · refine h _ t ?_ ?_ hends (by rw [hout]; rfl)
    · exact ((Dev.Only.refl _ _ s.dev).congr (Dev.setWaiting_keeps s.dev l).1).setReg _ (by simp)
    · refine (Dev.get_setReg_self _ (F.hsMacParkPstate p) _ rfl).trans ?_
      rw [RegRow.of_merge_ro hfields parkFields_sound (f := ⟨4, 2, .ro, .any⟩) (by simp [parkFields]) (.inl rfl) rfl rfl]
      rfl

theorem Dev.Only.get_port {d e : Dev} {regs evs : List Nat} (h : d.Only regs evs e) {p k : Nat} {f : Fld} (hf : f.addr = hsBase 0x40 p + k)
    (hr : hsBase 0x40 p + k ∉ regs) (hevs : ∀ n ∈ evs, n < 0x100) : e.get f = d.get f :=
  h.get_eq (hf ▸ hr) (hf ▸ hsMac_ge p k) hevs

/-- Settles O32: a port's link, its low-power idle, its parking and its tinder detector. -/
theorem portsIdleParkAndWake : Obligations.PortsIdleParkAndWake := by
  refine ⟨?_, ?_, ?_, ?_, ?_, ?_, ?_, ?_, ?_, ?_, ?_, ?_, ?_, ?_⟩
  · intro p
    refine State.of_sent ?_ fun _ h => h
    intro s hs hlanes hup hls
    simp only [exec, execMacLinkUp]
    refine State.run_ends hs rfl fun t ht hout hfz => ?_
    have hne : s.dev.lanesOf p ≠ [] := by simpa [Dev.lanesOf] using hlanes
    have hhead : (s.dev.lanesOf p).headD 0 ∈ s.dev.lanesOf p := by
      obtain ⟨l, ls, hl⟩ := List.exists_cons_of_ne_nil hne
      simp [hl]
    have hmode := (hls _ hhead).2.1
    have hall : ((s.dev.lanesOf p).all fun l => s.dev.stage l == 5 && s.dev.get (F.hsLnLoopMode l) == 0 && !s.dev.flag (F.hsLnPrbsGen l) && !s.dev.flag (F.hsLnPrbsChk l)) = true := by
      rw [List.all_eq_true]
      intro l hl
      obtain ⟨h5, h0, hgen, hchk⟩ := hls l hl
      simp [h5, h0, Dev.flag, hgen, hchk]
    rw [hmode, hup, hall] at ht
    have hempty : (s.dev.lanesOf p).isEmpty = false := by simpa using hne
    rw [hempty] at ht
    simp only [Bool.not_false, Bool.and_self, Dev.when_true, (by decide : ((0 : Nat) != 3) = true)] at ht
    have hlink : ((s.dev.set (F.hsMacBondLink p) 1).set (F.hsMacParkPstate p) 0).get (F.hsMacBondLink p) = 1 := by
      rw [Dev.get_set_ne _ _ (by simp [F.hsMacBondLink, F.hsMacParkPstate, R.hsMacBond, R.hsMacPark])]
      exact Dev.get_set_lt _ _ (by simp [Fld.fits, F.hsMacBondLink]) (by simp [F.hsMacBondLink])
    have hstate : ((s.dev.set (F.hsMacBondLink p) 1).set (F.hsMacParkPstate p) 0).get (F.hsMacParkPstate p) = 0 :=
      Dev.get_set_lt _ _ (by simp [Fld.fits, F.hsMacParkPstate]) (by simp [F.hsMacParkPstate])
    have hset : s.dev.Only [R.hsMacBond p, R.hsMacPark p] [] ((s.dev.set (F.hsMacBondLink p) 1).set (F.hsMacParkPstate p) 0) :=
      ((Dev.Only.refl _ _ _).set _ _ (by simp [F.hsMacBondLink])).set _ _ (by simp [F.hsMacParkPstate])
    generalize (s.dev.set (F.hsMacBondLink p) 1).set (F.hsMacParkPstate p) 0 = a at *
    have hregs : (a.each (s.dev.lanesOf p) fun d l => d.setLane l fun x => { x with legacyWait := false }).regs = a.regs :=
      Dev.each_keeps (P := fun x : Dev => x.regs = a.regs) _ _ (fun x l _ hx => ((Dev.setLane_keeps x l _).1).trans hx) a rfl
    generalize (a.each (s.dev.lanesOf p) fun d l => d.setLane l fun x => { x with legacyWait := false }) = b at *
    have hget : ∀ f : Fld, 0x81000 ≤ f.addr → t.dev.get f = a.get f := fun f hf => (ht.get f).trans ((Dev.get_raise _ _ _ (.inr hf)).trans (Dev.get_congr hregs f))
    have hbase := hsBase_ge 0x40 p
    refine ⟨?_, (hget _ (hsMac_ge _ _)).trans hstate, ht.raised.2 ((hset.congr hregs).raised_raise _ (by simp) ?_ (by decide)),
      ht.only.2 (Dev.Only.raise (Dev.Only.mono (fun _ h => h) (by simp) (hset.congr hregs)) _ _ (by simp))⟩
    · rw [Dev.linkUp, Dev.flag, hget _ (hsMac_ge p 0), hlink]
      rfl
    · simp only [List.mem_cons, List.not_mem_nil, or_false, R.hsMacBond, R.hsMacPark, R.hrtEvtSrcCtl]
      omega
  · intro p rxFrame
    refine State.of_sent ?_ fun _ h => h
    intro s hs hup hcur
    simp only [exec, execMacLinkDown]
    refine State.run_ends hs rfl fun t ht hout hfz => ?_
    obtain ⟨hdown, hraised, hrx, honly⟩ := Dev.macDown_idle hup hcur rxFrame
    exact ⟨(ht.flag _).trans hdown, ht.raised.2 hraised, (ht.get _).trans hrx, ht.only.2 honly⟩
  · intro p rxFrame x
    refine State.of_sent ?_ fun _ h => h
    intro s hs hup hcur
    simp only [exec, execMacLinkDown]
    refine State.run_ends hs rfl fun t ht hout hfz => ?_
    obtain ⟨hdown, hnone, hdrop, hraised⟩ := Dev.macDown_drops hup hcur rxFrame
    exact ⟨(ht.flag _).trans hdown, by rw [ht.mac]; exact hnone, (ht.get _).trans hdrop, ht.raised.2 hraised⟩
  · intro p
    refine State.of_sent ?_ fun _ h => h
    intro s hs hen hup htx hcur hgen hq
    simp only [exec, execLpiEnter]
    refine State.run_ends hs rfl fun t ht hout hfz => ?_
    have hbusy : s.dev.portBusy p = false := by
      rw [Dev.portBusy, List.any_eq_false]
      intro q hqm
      have := hq q hqm
      cases hp : (s.dev.queue q).pkts with
      | nil => simp
      | cons x xs => simpa using this x (by simp [hp])
    rw [hup, hcur, hgen, hbusy] at ht
    simp only [Dev.flag, hen, htx, Option.isNone_none, List.isEmpty_nil, Bool.not_false, Bool.and_self, (by decide : ((1 : Nat) != 0) = true),
      (by decide : ((0 : Nat) != 0) = false), Dev.when_true] at ht
    refine ⟨?_, ?_, ht.only.2 (((Dev.Only.refl _ _ _).set _ _ (by simp [F.hsMacLpistatTxlpi])).count _ _ (by simp [F.hsMacLpistatTxlpicnt]))⟩
    · rw [ht.get, Dev.count, Dev.get_set_apart _ _ _ _ (by simp [Fld.fits, F.hsMacLpistatTxlpi]) (by simp [Fld.apart, F.hsMacLpistatTxlpi, F.hsMacLpistatTxlpicnt])]
      exact Dev.get_set_lt _ _ (by simp [Fld.fits, F.hsMacLpistatTxlpi]) (by simp [F.hsMacLpistatTxlpi])
    · rw [ht.get, Dev.get_count_self _ _ _ (by simp [Fld.fits, F.hsMacLpistatTxlpicnt]),
        Dev.get_set_apart _ _ _ _ (by simp [Fld.fits, F.hsMacLpistatTxlpicnt]) (by simp [Fld.apart, F.hsMacLpistatTxlpi, F.hsMacLpistatTxlpicnt])]
      rfl
  · intro p
    refine State.of_sent ?_ fun _ h => h
    intro s hs hbusy
    simp only [exec, execLpiExit]
    refine State.run_ends hs rfl fun t ht hout hfz => ?_
    rw [hbusy, Dev.when_true] at ht
    obtain ⟨hzero, hwake, hcnt, honly⟩ := s.dev.leaveLpi_shows p
    exact ⟨(ht.get _).trans hzero, by rw [ht.mac]; exact hwake, (ht.get _).trans hcnt, ht.only.2 honly⟩
  · intro p
    refine State.of_sent ?_ fun _ h => h
    intro s hs hup hrx
    simp only [exec, execReceiverLpi, if_true]
    refine State.run_ends hs rfl fun t ht hout hfz => ?_
    simp only [hup, Dev.flag, hrx, Bool.true_and, (by decide : (!((0 : Nat) != 0)) = true), Dev.when_true] at ht
    refine ⟨?_, ?_, ht.only.2 (((Dev.Only.refl _ _ _).set _ _ (by simp [F.hsMacLpistatRxlpi])).count _ _ (by simp [F.hsMacLpistatRxlpicnt]))⟩
    · rw [ht.get, Dev.count, Dev.get_set_apart _ _ _ _ (by simp [Fld.fits, F.hsMacLpistatRxlpi]) (by simp [Fld.apart, F.hsMacLpistatRxlpi, F.hsMacLpistatRxlpicnt])]
      exact Dev.get_set_lt _ _ (by simp [Fld.fits, F.hsMacLpistatRxlpi]) (by simp [F.hsMacLpistatRxlpi])
    · rw [ht.get, Dev.get_count_self _ _ _ (by simp [Fld.fits, F.hsMacLpistatRxlpicnt]),
        Dev.get_set_apart _ _ _ _ (by simp [Fld.fits, F.hsMacLpistatRxlpicnt]) (by simp [Fld.apart, F.hsMacLpistatRxlpi, F.hsMacLpistatRxlpicnt])]
      rfl
  · intro p
    refine State.of_sent ?_ fun _ h => h
    intro s hs
    simp only [exec, execReceiverLpi, Bool.false_eq_true, if_false]
    refine State.run_ends hs rfl fun t ht hout hfz => ?_
    refine ⟨(ht.get _).trans ?_, ht.only.2 ((Dev.Only.refl _ _ _).set _ _ (by simp [F.hsMacLpistatRxlpi]))⟩
    exact Dev.get_set_lt _ _ (by simp [Fld.fits, F.hsMacLpistatRxlpi]) (by simp [F.hsMacLpistatRxlpi])
  · intro p
    refine State.of_sent ?_ fun _ h => h
    intro s hs hbusy
    simp only [exec, execLpiExit]
    refine State.run_ends hs rfl fun t ht hout hfz => ?_
    rw [hbusy, Dev.when_false] at ht
    exact ⟨ht.same.macs, ht.only.2 (Dev.Only.refl _ _ _)⟩
  · intro p
    refine State.of_sent ?_ fun s h => by simp -implicitDefEqProofs only [Dev.withField_setOut, Dev.takes_setOut] at h; exact h
    intro s hs htakes hpstate
    simp only [exec, execMacPark]
    refine State.park_takes hs rfl htakes fun e t honly hkept ht hout => ?_
    have hpark : (F.hsMacParkPark p).of (s.dev.withField (F.hsMacParkPark p) 1) = 1 := Fld.of_put _ _ _ (by simp [F.hsMacParkPark])
    have hgo : e.parkGo p (s.dev.withField (F.hsMacParkPark p) 1) = e.park p := by
      simp [Dev.parkGo, hpark, hkept, hpstate]
    rw [hgo] at ht
    obtain ⟨h1, h2, h3, h4, h5, h6, h7, h8, h9⟩ := e.park_shows p
    have hget : ∀ f, t.dev.get f = (e.park p).get f := fun f => (ht.get f).trans ((Dev.get_setWaiting _ _ _).trans (Dev.get_emit _ _ _))
    have hmac : t.dev.mac p = (e.park p).mac p := (ht.mac p).trans ((Dev.mac_setWaiting _ _ _).trans (Dev.mac_emit _ _ _))
    have hkeep : ∀ k, k ≠ 0x300 → ∀ f : Fld, f.addr = hsBase 0x40 p + k → e.get f = s.dev.get f := fun k hk f hf =>
      honly.get_port hf (by simpa [R.hsMacPark] using hk) (by simp)
    have hlanes : e.lanesOf p = s.dev.lanesOf p := by rw [Dev.lanesOf, Dev.lanesOf, hkeep 0 (by decide) _ rfl]
    have hup : e.linkUp p = s.dev.linkUp p := by rw [Dev.linkUp, Dev.linkUp, Dev.flag, Dev.flag, hkeep 0 (by decide) _ rfl]
    refine ⟨hout, (hget _).trans h1, (hget _).trans h2, ?_, fun l hl => (hget _).trans (h4 l (hlanes ▸ hl)), by rw [hmac, h5], by rw [hmac, h6], ?_,
      (hget _).trans h8, ?_⟩
    · rw [Dev.linkUp, Dev.flag, hget]
      exact h3
    · rw [hget, ← hkeep 0x81C (by decide) (F.hsMacRxerrCount p) rfl, ← hup]
      exact h7
    · refine ht.raised.2 (h9.of_ctl (honly _ ?_ (by simp)).symm rfl)
      have := hsBase_ge 0x40 p
      simp only [List.mem_singleton, R.hsMacPark, R.hrtEvtSrcCtl]
      omega
  · intro p
    refine State.of_sent ?_ fun s h => by simp -implicitDefEqProofs only [Dev.withField_setOut, Dev.takes_setOut] at h; exact h
    intro s hs htakes hpstate
    simp only [exec, execPortUnpark]
    refine State.park_takes hs rfl htakes fun e t honly hkept ht hout => ?_
    have hpark : (F.hsMacParkPark p).of (s.dev.withField (F.hsMacParkPark p) 0) = 0 := Fld.of_put _ _ _ (by simp [F.hsMacParkPark])
    have hgo : e.parkGo p (s.dev.withField (F.hsMacParkPark p) 0) = e.unpark p := by
      simp [Dev.parkGo, hpark, hkept, hpstate]
    rw [hgo] at ht
    obtain ⟨h1, h2, h3⟩ := e.unpark_shows p
    have hget : ∀ f, t.dev.get f = (e.unpark p).get f := fun f => (ht.get f).trans ((Dev.get_setWaiting _ _ _).trans (Dev.get_emit _ _ _))
    refine ⟨hout, (hget _).trans h1, (hget _).trans h2, ht.raised.2 (h3.of_ctl (honly _ ?_ (by simp)).symm rfl)⟩
    have := hsBase_ge 0x40 p
    simp only [List.mem_singleton, R.hsMacPark, R.hrtEvtSrcCtl]
    omega
  · intro p periods
    refine State.of_sent ?_ fun _ h => h
    intro s hs hwait hall hrun hon hpstate hauto
    have hn := tinder_counts periods hall hrun
    have htin : s.dev.tinderOn p = true := by simp [Dev.tinderOn, hon, hpstate]
    generalize hcount : periods.foldl tinderStep (Tbl.get 0 s.dev.pwr.tinderRun p) = n at *
    have hwake : (s.dev.tinderCounted p n).tinderWake p = (s.dev.tinderCounted p n).unpark p := by
      have hauto' : (s.dev.tinderCounted p n).flag F.hrtPwrCfgAutotin = false := by
        show s.dev.flag F.hrtPwrCfgAutotin = false
        simp [Dev.flag, hauto]
      have hon' : (s.dev.tinderCounted p n).cordOn (hsCord p) = true := hon
      simp [Dev.tinderWake, hon', hauto']
    refine State.tinder_ends (e := (s.dev.tinderCounted p n).unpark p) hs htin (by rw [hcount, decide_eq_true hn, Dev.when_true, hwake])
      (Eq.trans (Dev.unpark_waits _ _) hwait) fun t ht => ?_
    obtain ⟨h1, h2, h3⟩ := (s.dev.tinderCounted p n).unpark_shows p
    exact ⟨(ht.get _).trans h1, (ht.get _).trans h2, ht.raised.2 h3⟩
  · intro p periods
    refine State.of_sent ?_ fun _ h => h
    intro s hs hwait hall hrun hst hstandby hauto
    have hn := tinder_counts periods hall hrun
    have hoff : s.dev.cordOn (hsCord p) = false := by simp [Dev.cordOn, hst]
    have htin : s.dev.tinderOn p = true := by simp [Dev.tinderOn, hoff, hst, hstandby]
    generalize hcount : periods.foldl tinderStep (Tbl.get 0 s.dev.pwr.tinderRun p) = n at *
    have hwake : (s.dev.tinderCounted p n).tinderWake p = ((s.dev.tinderCounted p n).setPwr fun x =>
        { x with tinder := if x.tinder.contains p.val then x.tinder else x.tinder ++ [p.val] }).cordWake (hsCord p) .tinder := by
      have hauto' : (s.dev.tinderCounted p n).flag F.hrtPwrCfgAutotin = false := by
        show s.dev.flag F.hrtPwrCfgAutotin = false
        simp [Dev.flag, hauto]
      have hon' : (s.dev.tinderCounted p n).cordOn (hsCord p) = false := hoff
      have hst' : (s.dev.tinderCounted p n).cordSt (hsCord p) = 0 := hst
      simp [Dev.tinderWake, hon', hauto', hst']
    refine State.tinder_ends hs htin (by rw [hcount, decide_eq_true hn, Dev.when_true, hwake]) ?_ fun t ht => ⟨?_, ?_⟩
    · exact hwait
    · have hcord : hsCord p ≠ 0 := by simp only [hsCord]; omega
      rw [ht.cordSt, Dev.cordSt, if_neg hcord, Dev.cordWake, Dev.setCordInfo, Dev.get_setPwr, Dev.setSt]
      exact Dev.get_set_lt _ _ (by simp [Fld.fits, F.hrtPwrCordSt]) (by simp [F.hrtPwrCordSt])
    · rw [ht.same.pwr]
      simp only [Dev.cordWake, Dev.setCordInfo, Dev.setPwr, Dev.setSt, Dev.set, Dev.setReg]
      by_cases hc : (s.dev.tinderCounted p n).pwr.tinder.contains p.val = true
      · rw [if_pos hc]
        simpa using hc
      · rw [if_neg hc]
        simp
  · intro p x
    refine State.of_sent ?_ fun _ h => h
    intro s hs hwait htin hx hlt
    have hstep : [x].foldl tinderStep (Tbl.get 0 s.dev.pwr.tinderRun p) = 0 := by simp [tinderStep, hx, Nat.not_le.2 hlt]
    refine State.tinder_ends (e := s.dev.tinderCounted p 0) hs htin (by rw [hstep]; rfl) hwait fun t ht => ⟨?_, ht.only.2 ((Dev.Only.refl _ _ _).congr rfl)⟩
    rw [ht.same.pwr]
    exact s.dev.tinderCounted_run p 0
  · intro p x
    refine State.of_sent ?_ fun _ h => h
    intro s hs hwait htin hx hlt
    have hstep : [x].foldl tinderStep (Tbl.get 0 s.dev.pwr.tinderRun p) = Tbl.get 0 s.dev.pwr.tinderRun p + 1 := by
      simp [tinderStep, hx, Nat.not_le.2 (by omega : Tbl.get 0 s.dev.pwr.tinderRun p < 640)]
    refine State.tinder_ends (e := s.dev.tinderCounted p (Tbl.get 0 s.dev.pwr.tinderRun p + 1)) hs htin
      (by rw [hstep, decide_eq_false (by omega), Dev.when_false]) hwait fun t ht => ⟨?_, ht.only.2 ((Dev.Only.refl _ _ _).congr rfl)⟩
    rw [ht.same.pwr]
    exact (s.dev.tinderCounted_run p _).trans (if_neg (by omega))

end Sys2Proof.Machine
end

section
/-!
PROOFS. Transmit rings (R335, R338, R339).
-/

namespace Sys2Proof.Machine

set_option Elab.async false

/-! ### Registers stored and messages sent -/

/-- Of the device only the registers of `l` change; messages may leave. -/
structure Dev.Sends (l : List Nat) (d e : Dev) : Prop where
  only : d.Only l [] e
  same : d.QuietSame e
  sent : d.SentKept e

namespace Dev.Sends
variable {l : List Nat} {d e f : Dev}

theorem refl (l : List Nat) (d : Dev) : d.Sends l d := ⟨Dev.Only.refl l [] d, Dev.QuietSame.refl d, SentKept.refl d⟩
theorem trans (h : d.Sends l e) (k : e.Sends l f) : d.Sends l f := ⟨h.only.trans k.only, h.same.trans k.same, h.sent.trans k.sent⟩
theorem mono {m : List Nat} (h : d.Sends l e) (hl : ∀ a ∈ l, a ∈ m) : d.Sends m e := ⟨Dev.Only.mono hl (fun _ h => h) h.only, h.same, h.sent⟩

theorem set (h : d.Sends l e) (g : Fld) (x : Nat) (hg : g.addr ∈ l) : d.Sends l (e.set g x) :=
  ⟨h.only.set g x hg, h.same.trans (Dev.set_quiet e g x), h.sent⟩

theorem setFlag (h : d.Sends l e) (g : Fld) (b : Bool) (hg : g.addr ∈ l) : d.Sends l (e.setFlag g b) := h.set g _ hg
theorem emit (h : d.Sends l e) (o : Output) : d.Sends l (e.emit o) := ⟨h.only.emit o, h.same.trans (Dev.emit_quiet e o), h.sent.emit o⟩

theorem msixSend (h : d.Sends l e) (v : Nat) : d.Sends l (e.msixSend v) :=
  ⟨h.only.congr (e.msixSend_regs v), h.same.trans (e.msixSend_quiet v), h.sent.trans (e.msixSend_out v)⟩

theorem when (h : d.Sends l e) (c : Bool) (g : Dev → Dev) (hg : ∀ x : Dev, x.Sends l (g x)) : d.Sends l (e.when c g) := by
  cases c
  · exact h
  · exact h.trans (hg e)

theorem each {α : Type} (h : d.Sends l e) (xs : List α) (g : Dev → α → Dev) (hg : ∀ (x : Dev) (y : α), x.Sends l (g x y)) : d.Sends l (e.each xs g) :=
  Dev.each_keeps (P := d.Sends l) xs g (fun x y _ hx => hx.trans (hg x y)) e h

end Dev.Sends

theorem Dev.Stores.sent {l : List Nat} {d e : Dev} (h : d.Stores l e) : d.SentKept e := (SentKept.refl d).congr h.out

/-! ### A ring's pointers (R333, R340) -/

def ringHeadReg (tx : Bool) (r : Nat) : Nat := if tx then R.pciTxgHead r else R.pciRxgHead r

theorem ringHead_addr (tx : Bool) (r : Nat) : (ringHead tx r).addr = ringHeadReg tx r := by cases tx <;> rfl
theorem ringHead_fits (tx : Bool) (r : Nat) : (ringHead tx r).fits := by cases tx <;> simp [ringHead, ringF, Fld.fits, F.pciRxgHeadHead, F.pciTxgHeadHead]
theorem ringHead_width (tx : Bool) (r : Nat) : (ringHead tx r).width = 17 := by cases tx <;> rfl
theorem ringFill_addr (tx : Bool) (r : Nat) : (ringF tx F.pciRxgStatFill F.pciTxgStatFill r).addr = ringStatReg tx r := by cases tx <;> rfl
theorem ringAbove_addr (tx : Bool) (r : Nat) : (ringF tx F.pciRxgStatAbove F.pciTxgStatAbove r).addr = ringStatReg tx r := by cases tx <;> rfl

theorem ringRegs_range (tx : Bool) (r : Nat) : 0xC100000 ≤ ringHeadReg tx r ∧ 0xC100000 ≤ ringStatReg tx r ∧ ringHeadReg tx r ≠ ringStatReg tx r := by
  cases tx <;> simp only [ringHeadReg, ringStatReg, R.pciRxgHead, R.pciTxgHead, R.pciRxgStat, R.pciTxgStat, if_true, Bool.false_eq_true, if_false] <;> omega

theorem Dev.ringRefresh_sends (d : Dev) (tx : Bool) (r : Nat) (msg : Bool) : d.Sends [ringStatReg tx r] (d.ringRefresh tx r msg) := by
  have hf : (ringF tx F.pciRxgStatFill F.pciTxgStatFill r).addr ∈ [ringStatReg tx r] := by rw [ringFill_addr]; simp
  have ha : (ringF tx F.pciRxgStatAbove F.pciTxgStatAbove r).addr ∈ [ringStatReg tx r] := by rw [ringAbove_addr]; simp
  unfold Dev.ringRefresh
  dsimp only
  split
  · exact ((Sends.refl _ d).set _ _ hf).set _ _ ha
  · exact (((Sends.refl _ d).set _ _ hf).setFlag _ _ ha).when _ _ fun x => (Sends.refl _ x).msixSend _

/-- HEAD passes completed descriptors, and FILL follows. -/
theorem Dev.ringPass_shows (d : Dev) (tx : Bool) (r n : Nat) :
    d.Sends [ringHeadReg tx r, ringStatReg tx r] (d.ringPass tx r n) ∧ (d.ringPass tx r n).get (ringHead tx r) = (d.get (ringHead tx r) + n) % 131072 := by
  have hset : d.Sends [ringHeadReg tx r, ringStatReg tx r] (d.set (ringHead tx r) ((d.get (ringHead tx r) + n) % 131072)) :=
    (Sends.refl _ d).set _ _ (by rw [ringHead_addr]; simp)
  have hval : (d.set (ringHead tx r) ((d.get (ringHead tx r) + n) % 131072)).get (ringHead tx r) = (d.get (ringHead tx r) + n) % 131072 :=
    Dev.get_set_lt _ _ (ringHead_fits tx r) (by rw [ringHead_width]; exact Nat.mod_lt _ (by decide))
  unfold Dev.ringPass
  generalize d.set (ringHead tx r) ((d.get (ringHead tx r) + n) % 131072) = e at *
  have hr := e.ringRefresh_sends tx r true
  obtain ⟨h1, -, h3⟩ := ringRegs_range tx r
  refine ⟨hset.trans (hr.mono (by simp)), ?_⟩
  rw [hr.only.get_eq (by rw [ringHead_addr]; simpa using h3) (by rw [ringHead_addr]; omega) (by simp), hval]

theorem Dev.ring_setRing_self (d : Dev) (tx : Bool) (r : Nat) (f : Ring → Ring) : (d.setRing tx r f).ring tx r = f (d.ring tx r) := Tbl.get_modify_self _ _ _ _
@[simp] theorem Dev.get_setRing (d : Dev) (tx : Bool) (r : Nat) (f : Ring → Ring) (g : Fld) : (d.setRing tx r f).get g = d.get g := rfl
@[simp] theorem Dev.setRing_regs (d : Dev) (tx : Bool) (r : Nat) (f : Ring → Ring) : (d.setRing tx r f).regs = d.regs := rfl
@[simp] theorem Dev.setRing_out (d : Dev) (tx : Bool) (r : Nat) (f : Ring → Ring) : (d.setRing tx r f).out = d.out := rfl
@[simp] theorem Dev.setRing_pkt (d : Dev) (tx : Bool) (r : Nat) (f : Ring → Ring) : (d.setRing tx r f).pkt = d.pkt := rfl
theorem Dev.QuietSame.ring {d e : Dev} (h : d.QuietSame e) (tx : Bool) (r : Nat) : e.ring tx r = d.ring tx r := by rw [Dev.ring, h.pcie, Dev.ring]

/-- The host address of a descriptor stands while the ring's base and size do. -/
theorem Dev.descAddr_congr {d e : Dev} (h : e.regs = d.regs) (tx : Bool) (r c : Nat) : e.descAddr tx r c = d.descAddr tx r c := by
  simp only [Dev.descAddr, Dev.ringSlots, Dev.get_congr h]

/-! ### Completed transmit descriptors (R338) -/

/-- Dword 7 of a completed descriptor as the host's memory takes it. -/
def Dev.doneAt (d : Dev) (r c st : Nat) : Output := .dmaWrite (d.descAddr true r c + 28) (leBytes 4 (2 ^ 31 + st * 2 ^ 28))

/-- The completed descriptors at the head of a transmit ring leave it, written in ring order. -/
structure Dev.Settles (r : Nat) (d e : Dev) : Prop where
  only : d.Only [R.pciTxgHead r, R.pciTxgStat r] [] e
  pkt : e.pkt = d.pkt
  sent : d.SentKept e
  ring : e.ring true r = { d.ring true r with fetched := (d.ring true r).fetched.dropWhile fun t => t.status.isSome }
  head : e.get (F.pciTxgHeadHead r) = (d.get (F.pciTxgHeadHead r) + ((d.ring true r).fetched.takeWhile fun t => t.status.isSome).length) % 131072
  done : ∀ i (h : i < ((d.ring true r).fetched.takeWhile fun t => t.status.isSome).length),
    d.doneAt r (d.get (F.pciTxgHeadHead r) + i) ((((d.ring true r).fetched.takeWhile fun t => t.status.isSome)[i]).status.getD 0) ∈ e.out

theorem drop_takeWhile_length {α : Type} (p : α → Bool) (l : List α) : l.drop (l.takeWhile p).length = l.dropWhile p :=
  calc l.drop (l.takeWhile p).length = (l.takeWhile p ++ l.dropWhile p).drop (l.takeWhile p).length := by rw [List.takeWhile_append_dropWhile]
    _ = l.dropWhile p := List.drop_left

/-- Messages that depend on the registers alone, sent one after the other. -/
theorem Dev.each_emits {α : Type} (o : Dev → α → Output) : ∀ (xs : List α) (d : Dev), (∀ e : Dev, e.regs = d.regs → ∀ y, o e y = o d y) →
    (d.each xs fun d y => d.emit (o d y)).regs = d.regs ∧ d.Sends [] (d.each xs fun d y => d.emit (o d y))
      ∧ ∀ y ∈ xs, o d y ∈ (d.each xs fun d y => d.emit (o d y)).out
  | [], d, _ => ⟨rfl, Sends.refl _ d, by simp⟩
  | x :: xs, d, h => by
    obtain ⟨hregs, hsends, hmem⟩ := Dev.each_emits o xs (d.emit (o d x)) fun e he y => (h e he y).trans (h (d.emit (o d x)) rfl y).symm
    rw [Dev.each_cons]
    refine ⟨hregs, ((Sends.refl _ d).emit _).trans hsends, fun y hy => ?_⟩
    rcases List.mem_cons.1 hy with rfl | hy
    · exact hsends.sent.mem (by simp)
    · rw [← h (d.emit (o d x)) rfl y]
      exact hmem y hy

theorem Dev.txDones_shows (d : Dev) (r h : Nat) (l : List TxDesc) :
    (d.each l.zipIdx fun d t => d.txDone r (h + t.2) (t.1.status.getD 0)).regs = d.regs
      ∧ d.Sends [] (d.each l.zipIdx fun d t => d.txDone r (h + t.2) (t.1.status.getD 0))
      ∧ ∀ y ∈ l.zipIdx, d.doneAt r (h + y.2) (y.1.status.getD 0) ∈ (d.each l.zipIdx fun d t => d.txDone r (h + t.2) (t.1.status.getD 0)).out :=
  Dev.each_emits (fun (e : Dev) (x : TxDesc × Nat) => e.doneAt r (h + x.2) (x.1.status.getD 0)) l.zipIdx d
    fun e he y => by simp only [Dev.doneAt, Dev.descAddr_congr he]

theorem Dev.txSettle_settles (d : Dev) (r : Nat) : d.Settles r (d.txSettle r) := by
  have hhead : d.get (F.pciTxgHeadHead r) < 131072 := d.get_lt _
  unfold Dev.txSettle
  dsimp only
  generalize hdone : ((d.ring true r).fetched.takeWhile fun t => t.status.isSome) = done
  cases done with
  | nil =>
    have hdrop := drop_takeWhile_length (fun t : TxDesc => t.status.isSome) (d.ring true r).fetched
    rw [hdone, List.length_nil, List.drop_zero] at hdrop
    refine ⟨Dev.Only.refl _ _ d, rfl, SentKept.refl d, ?_, ?_, ?_⟩
    · rw [← hdrop]
      rfl
    · rw [hdone]
      simp only [List.isEmpty_nil, if_true, List.length_nil]
      omega
    · rw [hdone]
      intro i h
      simp at h
  | cons t ts =>
    rw [List.isEmpty_cons, if_neg (by simp), ← hdone, drop_takeWhile_length]
    obtain ⟨hregs, hsends, hmem⟩ := d.txDones_shows r (d.get (F.pciTxgHeadHead r)) ((d.ring true r).fetched.takeWhile fun t => t.status.isSome)
    generalize (d.each ((d.ring true r).fetched.takeWhile fun t => t.status.isSome).zipIdx
      fun e x => e.txDone r (d.get (F.pciTxgHeadHead r) + x.2) (x.1.status.getD 0)) = e at *
    have hself := e.ring_setRing_self true r fun g => { g with fetched := (d.ring true r).fetched.dropWhile fun t => t.status.isSome }
    have hget := fun f => e.get_setRing true r (fun g => { g with fetched := (d.ring true r).fetched.dropWhile fun t => t.status.isSome }) f
    have haregs := e.setRing_regs true r fun g => { g with fetched := (d.ring true r).fetched.dropWhile fun t => t.status.isSome }
    have haout := e.setRing_out true r fun g => { g with fetched := (d.ring true r).fetched.dropWhile fun t => t.status.isSome }
    have hapkt := e.setRing_pkt true r fun g => { g with fetched := (d.ring true r).fetched.dropWhile fun t => t.status.isSome }
    generalize (e.setRing true r fun g => { g with fetched := (d.ring true r).fetched.dropWhile fun t => t.status.isSome }) = a at *
    obtain ⟨hpass, hval⟩ := a.ringPass_shows true r ((d.ring true r).fetched.takeWhile fun t => t.status.isSome).length
    have hkeep : a.get (ringHead true r) = d.get (F.pciTxgHeadHead r) := (hget _).trans (Dev.get_congr hregs _)
    generalize a.ringPass true r ((d.ring true r).fetched.takeWhile fun t => t.status.isSome).length = b at *
    refine ⟨?_, ?_, ?_, ?_, ?_, fun i hi => ?_⟩
    · exact ((hsends.only.mono (by simp) (by simp)).congr haregs).trans hpass.only
    · rw [hpass.same.pkt, hapkt, hsends.same.pkt]
    · exact (hsends.sent.congr haout).trans hpass.sent
    · rw [hpass.same.ring, hself, hsends.same.ring]
    · rw [← hkeep]
      exact hval
    · refine hpass.sent.mem (haout ▸ hmem ⟨_, i⟩ ?_)
      exact List.mem_zipIdx_iff_getElem?.2 (by simp [hi])

/-! ### Frames that end in error (R339, R346) -/

/-- The event of a ring over what its registers held. -/
theorem Dev.ringEvent_shows {d e : Dev} {l : List Nat} (h : d.Only l [] e) (hl : ∀ a ∈ l, 0x81000 ≤ a) (tx : Bool) {r n : Nat} (hr : r < 2048)
    (hn : neverRaised n = false) (addrs : List Nat) :
    d.Raised n (e.ringEvent tx r n addrs) ∧ (e.ringEvent tx r n addrs).get F.pciEpRlogRing = r
      ∧ (e.ringEvent tx r n addrs).get F.pciEpRlogDir = tx.toNat ∧ e.Marks [R.pciEpRlog] [n] (e.ringEvent tx r n addrs)
      ∧ e.SentKept (e.ringEvent tx r n addrs) := by
  unfold Dev.ringEvent
  have hlog : e.Stores [R.pciEpRlog] ((e.set F.pciEpRlogRing r).setFlag F.pciEpRlogDir tx) :=
    ((Stores.refl _ e).set _ _ (by simp [F.pciEpRlogRing])).setFlag _ _ (by simp [F.pciEpRlogDir])
  have hring : ((e.set F.pciEpRlogRing r).setFlag F.pciEpRlogDir tx).get F.pciEpRlogRing = r := by
    rw [Dev.setFlag, Dev.get_set_apart _ _ _ _ (by simp [Fld.fits, F.pciEpRlogRing]) (by simp [Fld.apart, F.pciEpRlogRing, F.pciEpRlogDir])]
    exact Dev.get_set_lt _ _ (by simp [Fld.fits, F.pciEpRlogRing]) (by simpa [F.pciEpRlogRing] using hr)
  have hdir : ((e.set F.pciEpRlogRing r).setFlag F.pciEpRlogDir tx).get F.pciEpRlogDir = tx.toNat := by
    have : (if tx then 1 else 0) = tx.toNat := by cases tx <;> rfl
    rw [Dev.setFlag, this]
    exact Dev.get_set_lt _ _ (by simp [Fld.fits, F.pciEpRlogDir]) (by cases tx <;> simp [F.pciEpRlogDir])
  generalize (e.set F.pciEpRlogRing r).setFlag F.pciEpRlogDir tx = a at *
  have hhigh : ∀ f : Fld, f.addr = R.pciEpRlog → (a.raise n addrs).get f = a.get f := fun f hf =>
    Dev.get_raise _ _ _ (.inr (by rw [hf]; decide))
  refine ⟨?_, (hhigh _ rfl).trans hring, (hhigh _ rfl).trans hdir, ?_, hlog.sent.trans (a.raise_out n addrs)⟩
  · refine ((Dev.Only.mono (l' := R.pciEpRlog :: l) (by simp +contextual) (fun _ h => h) h).trans (Dev.Only.mono (by simp) (by simp) hlog.only)).raised_raise
      addrs (by simp) (fun hm => ?_) hn
    have hlt : n < 0x100 := by
      simp only [neverRaised, Bool.or_eq_false_iff, decide_eq_false_iff_not] at hn
      omega
    rcases List.mem_cons.1 hm with hm | hm
    · simp only [R.hrtEvtSrcCtl, R.pciEpRlog] at hm
      omega
    · have := hl _ hm
      simp only [R.hrtEvtSrcCtl] at this
      omega
  · exact Marks.raise ⟨Dev.Only.mono (fun _ h => h) (by simp) hlog.only, hlog.same⟩ _ _ (by simp)

/-- A transmit frame that completes in error is counted and raised. -/
theorem Dev.txBad_shows (d : Dev) {r : Nat} (hr : r < 2048) (st : Nat) :
    (d.txBad r st).get (F.pciTxgDropTodrop r) = satAdd 16 (d.get (F.pciTxgDropTodrop r)) 1 ∧ d.Raised (if st = 3 then 0xF5 else 0xF4) (d.txBad r st)
      ∧ (d.txBad r st).get F.pciEpRlogRing = r ∧ (d.txBad r st).get F.pciEpRlogDir = 1
      ∧ d.Marks [R.pciTxgDrop r, R.pciEpRlog] [if st = 3 then 0xF5 else 0xF4] (d.txBad r st) ∧ d.SentKept (d.txBad r st) := by
  unfold Dev.txBad
  have hcnt : (d.count (F.pciTxgDropTodrop r) 1).get (F.pciTxgDropTodrop r) = satAdd 16 (d.get (F.pciTxgDropTodrop r)) 1 :=
    Dev.get_count_self _ _ _ (by simp [Fld.fits, F.pciTxgDropTodrop])
  have hst : d.Stores [R.pciTxgDrop r] (d.count (F.pciTxgDropTodrop r) 1) := (Stores.refl _ d).count _ _ (by simp [F.pciTxgDropTodrop])
  have hv : neverRaised (if st = 3 then 0xF5 else 0xF4) = false := by split <;> decide
  generalize hn : (if st = 3 then 0xF5 else 0xF4) = n at *
  generalize d.count (F.pciTxgDropTodrop r) 1 = e at *
  obtain ⟨hraised, hring, hdir, hmarks, hsent⟩ := Dev.ringEvent_shows hst.only (by simp [R.pciTxgDrop]; omega) true hr hv [R.pciTxgDrop r]
  have hlt : n < 0x100 := by subst hn; split <;> decide
  refine ⟨?_, hraised, hring, hdir, ?_, ?_⟩
  · rw [hmarks.only.get_eq (by simp [F.pciTxgDropTodrop, R.pciTxgDrop, R.pciEpRlog]; omega) (by simp only [F.pciTxgDropTodrop, R.pciTxgDrop]; omega) (by simpa using hlt), hcnt]
  · exact Marks.trans ⟨Dev.Only.mono (by simp) (by simp) hst.only, hst.same⟩ (hmarks.mono (by simp) (fun _ h => h))
  · exact hst.sent.trans hsent

/-! ### Frames among fetched descriptors -/

theorem splitOpen_open {l : List TxDesc} (h : ∀ x ∈ l, x.status = none ∧ x.eof = false) : splitOpen l = ([], l) := by
  have hfold : ∀ (m : List (TxDesc × Nat)), (∀ x ∈ m, x.1.eof = false) →
      m.foldl (fun n x => if x.1.eof && x.1.status.isNone then x.2 + 1 else n) 0 = 0 := by
    intro m
    induction m with
    | nil => exact fun _ => rfl
    | cons x xs ih => exact fun hm => by simpa [hm x (by simp)] using ih fun y hy => hm y (List.mem_cons_of_mem _ hy)
  unfold splitOpen
  rw [hfold]
  · rfl
  · intro x hx
    exact (h x.1 (List.fst_mem_of_mem_zipIdx hx)).2

theorem takeWhile_of_status_none {l : List TxDesc} (h : ∀ x ∈ l, x.status = none) : (l.takeWhile fun t => t.status.isSome) = []
    ∧ (l.dropWhile fun t => t.status.isSome) = l := by
  cases l with
  | nil => exact ⟨rfl, rfl⟩
  | cons x xs => simp [h x (by simp)]

theorem giveStatus_isSome (st : Nat) (l : List TxDesc) : ∀ x ∈ giveStatus st l, x.status.isSome = true := by
  intro x hx
  obtain ⟨t, -, rfl⟩ := List.mem_map.1 hx
  cases h : t.status <;> simp [h]

/-- Descriptors completed at the head of a list, and none behind them. -/
theorem takeWhile_completed {a b : List TxDesc} (ha : ∀ x ∈ a, x.status.isSome = true) (hb : ∀ x ∈ b, x.status = none) :
    ((a ++ b).takeWhile fun t => t.status.isSome) = a ∧ ((a ++ b).dropWhile fun t => t.status.isSome) = b := by
  obtain ⟨h1, h2⟩ := takeWhile_of_status_none hb
  rw [List.takeWhile_append_of_pos ha, List.dropWhile_append_of_pos ha, h1, h2, List.append_nil]
  exact ⟨rfl, rfl⟩

/-! ### What a fetched descriptor makes of its ring (R338, R339) -/

theorem Ring.take_joins {g : Ring} {eof : Bool} {data : List Byte} (hbad : g.bad = false) (hopen : ∀ x ∈ g.fetched, x.status = none ∧ x.eof = false)
    (hmin : eof = true → 14 ≤ (g.fetched.map (·.data.length)).sum + data.length) (hmax : (g.fetched.map (·.data.length)).sum + data.length ≤ 12288) :
    g.take g.fetched.isEmpty eof false data = ({ g with fetched := g.fetched ++ [⟨g.fetched.isEmpty, eof, data, none⟩], bad := false }, 0) := by
  have hany : (g.fetched.any fun t => t.status.isNone) = !g.fetched.isEmpty := by
    cases h : g.fetched with
    | nil => rfl
    | cons x xs => simp [(hopen x (by simp [h])).1]
  have hsum : ((g.fetched ++ [(⟨g.fetched.isEmpty, eof, data, none⟩ : TxDesc)]).map fun t : TxDesc => if t.status.isSome then 0 else t.data.length).sum
      = (g.fetched.map (·.data.length)).sum + data.length := by
    rw [List.map_append, List.sum_append]
    have hmap : (g.fetched.map fun t : TxDesc => if t.status.isSome then 0 else t.data.length) = g.fetched.map (·.data.length) :=
      List.map_congr_left fun x hx => by simp [(hopen x hx).1]
    rw [hmap]
    simp
  unfold Ring.take
  rw [splitOpen_open hopen]
  dsimp only
  have hcut : (!g.fetched.isEmpty && (g.fetched.isEmpty || false)) = false := by cases g.fetched.isEmpty <;> rfl
  have hdead : (!!g.fetched.isEmpty && !g.fetched.isEmpty) = false := by cases g.fetched.isEmpty <;> rfl
  have htot : (decide (12288 < (g.fetched.map (·.data.length)).sum + data.length)
      || eof && decide ((g.fetched.map (·.data.length)).sum + data.length < 14)) = false := by
    cases eof
    · simpa using hmax
    · simpa using ⟨hmax, hmin rfl⟩
  simp only [hany, hbad, hcut, hdead, Bool.false_and, Bool.false_eq_true, if_false, hsum, htot, List.nil_append]

theorem Ring.take_fails {g : Ring} {sof eof faulty : Bool} {data : List Byte} (hnil : g.fetched = []) (hbad : g.bad = false) (hf : faulty = true ∨ sof = false) :
    g.take sof eof faulty data = ({ g with fetched := [⟨sof, eof, [], some 2⟩], bad := faulty && sof && !eof }, 1) := by
  unfold Ring.take
  rw [hnil, splitOpen_open (l := []) (by simp)]
  rcases hf with rfl | rfl
  · cases sof <;> cases eof <;> simp [hbad]
  · cases faulty <;> cases eof <;> simp [hbad]

theorem Ring.take_skips {g : Ring} {eof faulty : Bool} {data : List Byte} (hnil : g.fetched = []) (hbad : g.bad = true) :
    g.take false eof faulty data = ({ g with fetched := [⟨false, eof, [], some 2⟩], bad := !eof }, 0) := by
  unfold Ring.take
  rw [hnil, splitOpen_open (l := []) (by simp)]
  simp [hbad]

/-- The first complete frame of a list. -/
theorem find_eof {f rest : List TxDesc} {e : TxDesc} (hf : ∀ x ∈ f, x.status = none ∧ x.eof = false) (hnone : e.status = none) (heof : e.eof = true) :
    ((f ++ e :: rest).zipIdx.find? fun x => x.1.eof && x.1.status.isNone) = some (e, f.length) := by
  rw [List.zipIdx_append, List.find?_append]
  have hno : (f.zipIdx.find? fun x => x.1.eof && x.1.status.isNone) = none := by
    rw [List.find?_eq_none]
    intro x hx
    simp [(hf x.1 (List.fst_mem_of_mem_zipIdx hx)).2]
  rw [hno]
  simp [hnone, heof]

theorem fitBytes_length (n : Nat) (l : List Byte) : (fitBytes n l).length = n := by simp [fitBytes]

theorem Dev.txSettle_none {d : Dev} {r : Nat} (h : ∀ x ∈ (d.ring true r).fetched, x.status = none) : d.txSettle r = d := by
  unfold Dev.txSettle
  dsimp only
  rw [(takeWhile_of_status_none h).1]
  rfl

/-- Completed descriptors at the head of a transmit ring, and none behind them. -/
theorem Dev.Settles.of_split {d e : Dev} {r : Nat} (h : d.Settles r e) {a rest : List TxDesc} (hf : (d.ring true r).fetched = a ++ rest)
    (ha : ∀ x ∈ a, x.status.isSome = true) (hrest : ∀ x ∈ rest, x.status = none) :
    e.ring true r = { d.ring true r with fetched := rest } ∧ e.get (F.pciTxgHeadHead r) = (d.get (F.pciTxgHeadHead r) + a.length) % 131072
      ∧ ∀ i (hi : i < a.length), d.doneAt r (d.get (F.pciTxgHeadHead r) + i) (a[i].status.getD 0) ∈ e.out := by
  obtain ⟨htake, hdrop⟩ := takeWhile_completed ha hrest
  have hring := h.ring
  have hhead := h.head
  have hdone := h.done
  rw [hf, hdrop] at hring
  rw [hf, htake] at hhead
  refine ⟨hring, hhead, fun i hi => ?_⟩
  have hlist : ((d.ring true r).fetched.takeWhile fun t => t.status.isSome) = a := by rw [hf, htake]
  have := hdone i (by rw [hlist]; exact hi)
  simpa only [hlist] using this

/-- The registers that place a transmit ring's descriptors. -/
def descRegs (r : Nat) : List Nat := [R.pciTxgBasehi r, R.pciTxgBaselo r, R.pciTxgCfg r]

theorem Dev.Only.descAddr {d e : Dev} {l evs : List Nat} {r : Nat} (h : d.Only l evs e) (hl : ∀ a ∈ descRegs r, a ∉ l) (hevs : ∀ n ∈ evs, n < 0x100) (c : Nat) :
    e.descAddr true r c = d.descAddr true r c := by
  have hget : ∀ f : Fld, f.addr ∈ descRegs r → e.get f = d.get f := fun f hf => by
    refine h.get_eq (hl _ hf) ?_ hevs
    simp only [descRegs, R.pciTxgBasehi, R.pciTxgBaselo, R.pciTxgCfg, List.mem_cons, List.not_mem_nil, or_false] at hf
    omega
  simp only [Dev.descAddr, Dev.ringSlots, ringF, if_true, hget (F.pciTxgBasehiBase r) (by simp [descRegs, F.pciTxgBasehiBase]),
    hget (F.pciTxgBaseloBase r) (by simp [descRegs, F.pciTxgBaseloBase]), hget (F.pciTxgCfgSize r) (by simp [descRegs, F.pciTxgCfgSize])]

/-- The descriptors of a ring stand at their places when its counts change. -/
theorem Dev.Only.doneAt {d e : Dev} {l evs : List Nat} {r : Nat} (h : d.Only l evs e) (hl : ∀ a ∈ l, a = R.pciTxgDrop r ∨ a = R.pciEpRlog)
    (hevs : ∀ n ∈ evs, n < 0x100) (c st : Nat) : e.doneAt r c st = d.doneAt r c st := by
  rw [Dev.doneAt, h.descAddr (fun a ha hm => ?_) hevs, Dev.doneAt]
  have hx := hl a hm
  simp only [descRegs, R.pciTxgBasehi, R.pciTxgBaselo, R.pciTxgCfg, List.mem_cons, List.not_mem_nil, or_false] at ha
  simp only [R.pciTxgDrop, R.pciEpRlog] at hx
  omega

/-- A fetch that goes ahead (R338). -/
theorem Dev.fetchGoes {d : Dev} {r : Nat} {words : List Word} (hdma : d.dmaOk = true) (hen : d.get (F.pciTxgCfgEn r) = 1) (hfl : d.get (F.pciTxgStatFlbusy r) = 0)
    (hheld : (d.ring true r).fetched.length < d.ringHeld true r)
    (hroom : (d.ring true r).bad = true ∧ (words.getD 2 0).toNat.testBit 16 = false ∨ d.txStore + (words.getD 2 0).toNat % 65536 ≤ 2 ^ 21) :
    (!d.dmaOk || !d.flag (F.pciTxgCfgEn r) || d.flag (F.pciTxgStatFlbusy r) || decide (d.ringHeld true r ≤ (d.ring true r).fetched.length)
      || !((d.ring true r).bad && !(words.getD 2 0).toNat.testBit 16 || decide (d.txStore + (words.getD 2 0).toNat % 65536 ≤ 2 ^ 21))) = false := by
  have hok : ((d.ring true r).bad && !(words.getD 2 0).toNat.testBit 16 || decide (d.txStore + (words.getD 2 0).toNat % 65536 ≤ 2 ^ 21)) = true := by
    rcases hroom with ⟨h1, h2⟩ | h
    · rw [h1, h2]; rfl
    · rw [decide_eq_true h, Bool.or_true]
  rw [hok]
  simp [hdma, Dev.flag, hen, hfl, hheld]

/-- The first complete frame of a ring, taken from its descriptors. -/
theorem frame_of_list {f : List TxDesc} {e : TxDesc} (hf : ∀ x ∈ f, x.status = none ∧ x.eof = false) (hnone : e.status = none) (rest : List TxDesc) :
    (f ++ e :: rest).take (f.length + 1) = f ++ [e] ∧ (f ++ e :: rest).drop (f.length + 1) = rest
      ∧ (((f ++ [e]).filter fun t => t.status.isNone).flatMap fun t => t.data) = (f ++ [e]).flatMap (·.data) := by
  have hfilter : ((f ++ [e]).filter fun t => t.status.isNone) = f ++ [e] := by
    refine List.filter_eq_self.2 fun x hx => ?_
    rcases List.mem_append.1 hx with hx | hx
    · simp [(hf x hx).1]
    · simp [List.mem_singleton.1 hx, hnone]
  exact ⟨by simp [List.take_append], by simp [List.drop_append], by rw [hfilter]⟩

theorem frame_open {f : List TxDesc} {e : TxDesc} (hf : ∀ x ∈ f, x.status = none ∧ x.eof = false) (hnone : e.status = none) : ∀ x ∈ f ++ [e], x.status = none := by
  intro x hx
  rcases List.mem_append.1 hx with hx | hx
  · exact (hf x hx).1
  · rw [List.mem_singleton.1 hx, hnone]

theorem giveStatus_getElem {l : List TxDesc} (h : ∀ x ∈ l, x.status = none) {st i : Nat} (hi : i < (giveStatus st l).length) :
    ((giveStatus st l)[i]).status.getD 0 = st := by
  simp [giveStatus, h _ (List.getElem_mem _)]

theorem Dev.linkPush_links (d : Dev) (k : Nat) (p : Pkt) : Tbl.get [] (d.linkPush k p).pkt.links k = Tbl.get [] d.pkt.links k ++ [p] :=
  Tbl.get_modify_self [] d.pkt.links k fun l => l ++ [p]

/-- Settles O40: a transmit ring fetches, submits and times out. -/
theorem transmitRingsSend : Obligations.TransmitRingsSend := by
  refine ⟨?_, ?_, ?_, ?_, ?_, ?_⟩
  · intro r words data l len eof
    refine State.of_sent ?_ fun _ h => h
    intro s hs hl hbad hopen hdma hen hfl hheld hlen hroom hfault hsof heof hmin hmax
    simp only [exec, execTxgFetch]
    refine State.run_ends hs rfl fun t ht hout hfz => ?_
    have hgo := Dev.fetchGoes (words := words) hdma hen hfl (hl ▸ hheld) (.inr (hlen ▸ hroom))
    have htake := Ring.take_joins (g := s.dev.ring true r) (eof := eof) (data := fitBytes len data) hbad (by rwa [hl]) (by rw [hl, fitBytes_length]; exact hmin)
      (by rw [hl, fitBytes_length]; exact hmax)
    rw [hl] at htake
    rw [hgo, if_neg (by decide), hfault, heof, ← hlen, hsof, htake] at ht hout
    have hring : (s.dev.setRing true r fun _ => { s.dev.ring true r with fetched := l ++ [⟨l.isEmpty, eof, fitBytes len data, none⟩], bad := false }).ring true r
        = { s.dev.ring true r with fetched := l ++ [⟨l.isEmpty, eof, fitBytes len data, none⟩], bad := false } := Dev.ring_setRing_self _ _ _ _
    have hregs := s.dev.setRing_regs true r fun _ => { s.dev.ring true r with fetched := l ++ [⟨l.isEmpty, eof, fitBytes len data, none⟩], bad := false }
    have hsent := s.dev.setRing_out true r fun _ => { s.dev.ring true r with fetched := l ++ [⟨l.isEmpty, eof, fitBytes len data, none⟩], bad := false }
    generalize (s.dev.setRing true r fun _ => { s.dev.ring true r with fetched := l ++ [⟨l.isEmpty, eof, fitBytes len data, none⟩], bad := false }) = a at *
    rw [List.range_zero, Dev.each_nil, Dev.txSettle_none (by
      rw [hring]
      intro x hx
      rcases List.mem_append.1 hx with hx | hx
      · exact (hopen x hx).1
      · rw [List.mem_singleton.1 hx])] at ht hout
    refine ⟨by rw [ht.same.ring, hring], by rw [hout, hsent, hs]; rfl, ht.only.2 ((Dev.Only.refl _ _ _).congr hregs)⟩
  · intro r words data h
    refine State.of_sent ?_ fun _ h => h
    intro s hs hnil hbad hdma hen hfl hheld hroom hf hh
    simp only [exec, execTxgFetch]
    refine State.run_ends hs rfl fun t ht hout hfz => ?_
    have hgo := Dev.fetchGoes (words := words) hdma hen hfl (by rw [hnil]; exact hheld) (.inr hroom)
    rw [hgo, if_neg (by decide), Ring.take_fails hnil hbad hf] at ht hout
    generalize hg : ({ s.dev.ring true r with
      fetched := [⟨(words.getD 2 0).toNat.testBit 16, (words.getD 2 0).toNat.testBit 17, [], some 2⟩],
      bad := descFaulty words && (words.getD 2 0).toNat.testBit 16 && !(words.getD 2 0).toNat.testBit 17 } : Ring) = g at ht hout
    have hring := s.dev.ring_setRing_self true r fun _ => g
    have hregs := s.dev.setRing_regs true r fun _ => g
    generalize (s.dev.setRing true r fun _ => g) = a at *
    rw [show List.range 1 = [0] from rfl, Dev.each_cons, Dev.each_nil] at ht hout
    obtain ⟨hcnt, hraised, hrlog, hdir, hmarks, -⟩ := a.txBad_shows r.isLt 2
    rw [if_neg (by decide)] at hraised hmarks
    generalize a.txBad r 2 = b at *
    have hbring : b.ring true r = g := (hmarks.same.ring true r).trans hring
    have hst := b.txSettle_settles r
    generalize b.txSettle r = c at *
    have hhead : b.get (F.pciTxgHeadHead r) = h := by
      rw [hmarks.only.get_eq (by simp [F.pciTxgHeadHead, R.pciTxgHead, R.pciTxgDrop, R.pciEpRlog]; omega) (by simp only [F.pciTxgHeadHead, R.pciTxgHead]; omega) (by simp),
        Dev.get_congr hregs, hh]
    obtain ⟨hcring, hchead, hdone⟩ := hst.of_split (a := [⟨(words.getD 2 0).toNat.testBit 16, (words.getD 2 0).toNat.testBit 17, [], some 2⟩]) (rest := [])
      (by rw [hbring, ← hg]; rfl) (by simp) (by simp)
    have hab : s.dev.Only [R.pciTxgDrop r, R.pciEpRlog] [0xF4] b := ((Dev.Only.refl _ _ _).congr hregs).trans hmarks.only
    have hplace : ∀ c st, b.doneAt r c st = s.dev.doneAt r c st := hab.doneAt (by simp) (by simp)
    have hlate : ∀ f : Fld, f.addr = R.pciTxgDrop r ∨ f.addr = R.pciEpRlog → t.dev.get f = b.get f := fun f hf => by
      refine (ht.get f).trans (hst.only.get_eq ?_ ?_ (by simp))
      · simp only [R.pciTxgDrop, R.pciEpRlog] at hf
        simp only [R.pciTxgHead, R.pciTxgStat, List.mem_cons, List.not_mem_nil, or_false]
        omega
      · simp only [R.pciTxgDrop, R.pciEpRlog] at hf
        omega
    refine ⟨by rw [ht.same.ring, hcring], ?_, by rw [ht.get, hchead, hhead]; rfl, ?_, ?_, ?_, (hlate _ (.inr rfl)).trans hrlog, (hlate _ (.inr rfl)).trans hdir, ?_⟩
    · rw [ht.same.ring, hcring, hbring, ← hg]
    · rw [hout]
      have := hdone 0 (by simp)
      rw [hplace, hhead, Nat.add_zero] at this
      exact List.mem_append_left _ this
    · rw [hlate _ (.inl rfl), hcnt, Dev.get_congr hregs]
    · refine ht.raised.2 ((hraised.of_ctl (Dev.reg_congr hregs _).symm rfl).only hst.only (by simp) ?_)
      simp only [R.pciTxgHead, R.pciTxgStat, R.hrtEvtSrcCtl, List.mem_cons, List.not_mem_nil, or_false]
      omega
    · exact ht.only.2 ((Dev.Only.mono (by simp) (fun _ h => h) hab).trans (Dev.Only.mono (by simp) (by simp) hst.only))
  · intro r words data h
    refine State.of_sent ?_ fun _ h => h
    intro s hs hnil hbad hdma hen hfl hheld hsof hh
    simp only [exec, execTxgFetch]
    refine State.run_ends hs rfl fun t ht hout hfz => ?_
    have hgo := Dev.fetchGoes (words := words) hdma hen hfl (by rw [hnil]; exact hheld) (.inl ⟨hbad, hsof⟩)
    rw [hgo, if_neg (by decide), hsof, Ring.take_skips hnil hbad] at ht hout
    generalize hg : ({ s.dev.ring true r with
      fetched := [⟨false, (words.getD 2 0).toNat.testBit 17, [], some 2⟩], bad := !(words.getD 2 0).toNat.testBit 17 } : Ring) = g at ht hout
    have hring := s.dev.ring_setRing_self true r fun _ => g
    have hregs := s.dev.setRing_regs true r fun _ => g
    generalize (s.dev.setRing true r fun _ => g) = a at *
    rw [List.range_zero, Dev.each_nil] at ht hout
    have hst := a.txSettle_settles r
    generalize a.txSettle r = c at *
    obtain ⟨hcring, hchead, hdone⟩ := hst.of_split (a := [⟨false, (words.getD 2 0).toNat.testBit 17, [], some 2⟩]) (rest := [])
      (by rw [hring, ← hg]; rfl) (by simp) (by simp)
    have hhead : a.get (F.pciTxgHeadHead r) = h := (Dev.get_congr hregs _).trans hh.symm
    refine ⟨by rw [ht.same.ring, hcring], by rw [ht.same.ring, hcring, hring, ← hg], by rw [ht.get, hchead, hhead]; rfl, ?_, ?_⟩
    · rw [hout]
      have := hdone 0 (by simp)
      rw [hhead, Nat.add_zero, Dev.doneAt, Dev.descAddr_congr hregs] at this
      exact List.mem_append_left _ this
    · exact ht.only.2 (((Dev.Only.refl _ _ _).congr hregs).trans hst.only)
  · intro r f rest e h
    refine State.of_sent ?_ fun _ h => h
    intro s hs hl hf hnone heof hrest hdma hok hh
    simp only [exec, execTxgFrameSubmit]
    refine State.run_ends hs rfl fun t ht hout hfz => ?_
    obtain ⟨htake, hdrop, hbytes⟩ := frame_of_list hf hnone rest
    simp only [Dev.tailFirst, hl, find_eof hf hnone heof, hdma, hok, Bool.not_true, Bool.false_eq_true, if_false, if_true, htake, hdrop, hbytes] at ht hout
    have hring := s.dev.ring_setRing_self true r fun g => { g with fetched := giveStatus 0 (f ++ [e]) ++ rest }
    have hregs := s.dev.setRing_regs true r fun g => { g with fetched := giveStatus 0 (f ++ [e]) ++ rest }
    have hpkt := s.dev.setRing_pkt true r fun g => { g with fetched := giveStatus 0 (f ++ [e]) ++ rest }
    generalize (s.dev.setRing true r fun g => { g with fetched := giveStatus 0 (f ++ [e]) ++ rest }) = a at *
    have hpush : (a.linkPush 4 { src := 160, srcn := r, bytes := (f ++ [e]).flatMap (·.data) }).ring true r = a.ring true r := rfl
    have hpregs : (a.linkPush 4 { src := 160, srcn := r, bytes := (f ++ [e]).flatMap (·.data) }).regs = a.regs := rfl
    have hlinks : Tbl.get [] (a.linkPush 4 { src := 160, srcn := r, bytes := (f ++ [e]).flatMap (·.data) }).pkt.links 4
        = Tbl.get [] a.pkt.links 4 ++ [({ src := 160, srcn := r, bytes := (f ++ [e]).flatMap (·.data) } : Pkt)] := a.linkPush_links 4 _
    generalize a.linkPush 4 { src := 160, srcn := r, bytes := (f ++ [e]).flatMap (·.data) } = b at *
    have hbregs : b.regs = s.dev.regs := hpregs.trans hregs
    have hst := b.txSettle_settles r
    generalize b.txSettle r = c at *
    obtain ⟨hcring, hchead, hdone⟩ := hst.of_split (a := giveStatus 0 (f ++ [e])) (rest := rest) (by rw [hpush, hring]) (giveStatus_isSome 0 _) hrest
    have hhead : b.get (F.pciTxgHeadHead r) = h := (Dev.get_congr hbregs _).trans hh.symm
    refine ⟨by rw [ht.same.ring, hcring], by rw [ht.same.pkt, hst.pkt, hlinks, hpkt], ?_, fun i hi => ?_, ?_⟩
    · rw [ht.get, hchead, hhead]
      simp [giveStatus, Nat.add_assoc]
    · rw [hout]
      have := hdone i (by simp [giveStatus]; omega)
      rw [giveStatus_getElem (frame_open hf hnone), hhead, Dev.doneAt, Dev.descAddr_congr hbregs] at this
      exact List.mem_append_left _ this
    · exact ht.only.2 (((Dev.Only.refl _ _ _).congr hbregs).trans hst.only)
  · intro r f rest e h
    refine State.of_sent ?_ fun _ h => h
    intro s hs hl hf hnone heof hrest hdma hok hh
    simp only [exec, execTxgFrameSubmit]
    refine State.run_ends hs rfl fun t ht hout hfz => ?_
    obtain ⟨htake, hdrop, hbytes⟩ := frame_of_list hf hnone rest
    simp only [Dev.tailFirst, hl, find_eof hf hnone heof, hdma, hok, Bool.not_true, Bool.false_eq_true, if_false, htake, hdrop] at ht hout
    have hring := s.dev.ring_setRing_self true r fun g => { g with fetched := giveStatus 4 (f ++ [e]) ++ rest }
    have hregs := s.dev.setRing_regs true r fun g => { g with fetched := giveStatus 4 (f ++ [e]) ++ rest }
    have hpkt := s.dev.setRing_pkt true r fun g => { g with fetched := giveStatus 4 (f ++ [e]) ++ rest }
    generalize (s.dev.setRing true r fun g => { g with fetched := giveStatus 4 (f ++ [e]) ++ rest }) = a at *
    have hcnt : (a.count (F.pciTxgDropTodrop r) 1).get (F.pciTxgDropTodrop r) = satAdd 16 (a.get (F.pciTxgDropTodrop r)) 1 :=
      Dev.get_count_self _ _ _ (by simp [Fld.fits, F.pciTxgDropTodrop])
    have hcount : a.Stores [R.pciTxgDrop r] (a.count (F.pciTxgDropTodrop r) 1) := (Dev.Stores.refl _ a).count _ _ (by simp [F.pciTxgDropTodrop])
    generalize a.count (F.pciTxgDropTodrop r) 1 = b at *
    have hab : s.dev.Only [R.pciTxgDrop r] [] b := ((Dev.Only.refl _ _ _).congr hregs).trans hcount.only
    have hst := b.txSettle_settles r
    generalize b.txSettle r = c at *
    have hbring : b.ring true r = a.ring true r := hcount.same.ring true r
    obtain ⟨hcring, hchead, hdone⟩ := hst.of_split (a := giveStatus 4 (f ++ [e])) (rest := rest) (by rw [hbring, hring]) (giveStatus_isSome 4 _) hrest
    have hhead : b.get (F.pciTxgHeadHead r) = h := by
      rw [hab.get_eq (by simp [F.pciTxgHeadHead, R.pciTxgHead, R.pciTxgDrop]) (by simp only [F.pciTxgHeadHead, R.pciTxgHead]; omega) (by simp), hh]
    refine ⟨by rw [ht.same.ring, hcring], by rw [ht.same.pkt, hst.pkt, hcount.same.pkt, hpkt], fun i hi => ?_, ?_, ?_⟩
    · rw [hout]
      have := hdone i (by simp [giveStatus]; omega)
      rw [giveStatus_getElem (frame_open hf hnone), hab.doneAt (by simp) (by simp), hhead] at this
      exact List.mem_append_left _ this
    · rw [ht.get, hst.only.get_eq (by simp [F.pciTxgDropTodrop, R.pciTxgHead, R.pciTxgDrop, R.pciTxgStat]) (by simp only [F.pciTxgDropTodrop, R.pciTxgDrop]; omega) (by simp),
        hcnt, Dev.get_congr hregs]
    · exact ht.only.2 ((Dev.Only.mono (by simp) (by simp) hab).trans (Dev.Only.mono (by simp) (by simp) hst.only))
  · intro r l h
    refine State.of_sent ?_ fun _ h => h
    intro s hs hl hne hopen hlen hh
    simp only [exec, execTxgTimeout]
    refine State.run_ends hs rfl fun t ht hout hfz => ?_
    have hany : (l.any fun t => t.status.isNone) = true := by
      obtain ⟨x, xs, rfl⟩ := List.exists_cons_of_ne_nil hne
      simp [(hopen x (by simp)).1]
    simp only [hl, splitOpen_open hopen, hany, Dev.when_true, List.nil_append] at ht hout
    generalize hunread : giveStatus 3 l ++ List.replicate (s.dev.ringHeld true r - l.length) (⟨false, false, [], some 3⟩ : TxDesc) = m at *
    have hm : m.length = s.dev.ringHeld true r := by
      rw [← hunread]
      simp [giveStatus]
      omega
    have hmst : ∀ x ∈ m, x.status = some 3 := by
      rw [← hunread]
      intro x hx
      rcases List.mem_append.1 hx with hx | hx
      · obtain ⟨y, hy, rfl⟩ := List.mem_map.1 hx
        simp [(hopen y hy).1]
      · rw [List.eq_of_mem_replicate hx]
    have hring := s.dev.ring_setRing_self true r fun g => { g with fetched := m }
    have hregs := s.dev.setRing_regs true r fun g => { g with fetched := m }
    generalize (s.dev.setRing true r fun g => { g with fetched := m }) = a at *
    obtain ⟨hcnt, hraised, hrlog, hdir, hmarks, -⟩ := a.txBad_shows r.isLt 3
    rw [if_pos rfl] at hraised hmarks
    generalize a.txBad r 3 = b at *
    have hbring : b.ring true r = a.ring true r := hmarks.same.ring true r
    have hab : s.dev.Only [R.pciTxgDrop r, R.pciEpRlog] [0xF5] b := ((Dev.Only.refl _ _ _).congr hregs).trans hmarks.only
    have hst := b.txSettle_settles r
    generalize b.txSettle r = c at *
    obtain ⟨hcring, hchead, hdone⟩ := hst.of_split (a := m) (rest := []) (by rw [hbring, hring, List.append_nil]) (fun x hx => by simp [hmst x hx]) (by simp)
    have hhead : b.get (F.pciTxgHeadHead r) = h := by
      rw [hab.get_eq (by simp [F.pciTxgHeadHead, R.pciTxgHead, R.pciTxgDrop, R.pciEpRlog]; omega) (by simp only [F.pciTxgHeadHead, R.pciTxgHead]; omega) (by simp), hh]
    have hlate : ∀ f : Fld, f.addr = R.pciTxgDrop r ∨ f.addr = R.pciEpRlog → t.dev.get f = b.get f := fun f hf => by
      simp only [R.pciTxgDrop, R.pciEpRlog] at hf
      refine (ht.get f).trans (hst.only.get_eq ?_ (by omega) (by simp))
      simp only [R.pciTxgHead, R.pciTxgStat, List.mem_cons, List.not_mem_nil, or_false]
      omega
    refine ⟨by rw [ht.same.ring, hcring], ?_, by rw [ht.get, hchead, hhead, hm], fun i hi => ?_, ?_, (hlate _ (.inr rfl)).trans hrlog, (hlate _ (.inr rfl)).trans hdir⟩
    · refine ht.raised.2 ((hraised.of_ctl (Dev.reg_congr hregs _).symm rfl).only hst.only (by simp) ?_)
      simp only [R.pciTxgHead, R.pciTxgStat, R.hrtEvtSrcCtl, List.mem_cons, List.not_mem_nil, or_false]
      omega
    · rw [hout]
      have := hdone i (by omega)
      rw [hab.doneAt (by simp) (by simp), hhead, hmst _ (List.getElem_mem _)] at this
      exact List.mem_append_left _ this
    · rw [hlate _ (.inl rfl), hcnt, Dev.get_congr hregs]

end Sys2Proof.Machine
end

section
/-!
PROOFS. Receive rings (R334, R336, R337, R344).
-/

namespace Sys2Proof.Machine

set_option Elab.async false

/-! ### Buffers taken and moved (R252, R254) -/

theorem isEvt_of_evtRegs {n a : Nat} (hn : n < 0x100) (h : a ∈ evtRegs n) : isEvt a = true := by
  simp only [evtRegs, R.hrtEvtSrcCtl, R.hrtEvtSrcFirstns, R.hrtEvtSrcFirstw, List.mem_cons, List.not_mem_nil, or_false] at h
  simp only [isEvt, Bool.and_eq_true, decide_eq_true_eq]
  omega

/-- Registers that a predicate picks are all that change. -/
theorem Dev.Only.kept {d e : Dev} {l evs : List Nat} (h : d.Only l evs e) {p : Nat → Bool} (hl : ∀ a ∈ l, p a = true) (hevs : ∀ n ∈ evs, n < 0x100)
    (hp : evs ≠ [] → ∀ a, isEvt a = true → p a = true) : d.RegsKept p e := by
  intro a ha
  refine h a (fun hm => ?_) fun n hn hm => ?_
  · simp [hl a hm] at ha
  · simp [hp (List.ne_nil_of_mem hn) a (isEvt_of_evtRegs (hevs n hn) hm)] at ha

theorem Dev.RegsKept.trans {d e f : Dev} {p : Nat → Bool} (h : d.RegsKept p e) (k : e.RegsKept p f) : d.RegsKept p f :=
  fun a ha => (k a ha).trans (h a ha)

theorem bufRegs_inCord {a : Nat} (h : a ∈ bufRegs) : inCord 9 a = true := by
  have := bufRegs_range h
  simp only [inCord, decide_eq_true_eq]
  omega

/-- Two devices differ in the registers and the state of the buffers, in messages and the choice of what is free. -/
structure Dev.BufMoves (d e : Dev) : Prop where
  only : d.Only bufRegs [0xE0, 0xE1, 0xE3] e
  pcie : e.pcie = d.pcie
  pkt : e.pkt = d.pkt
  time : e.time = d.time
  sent : d.SentKept e

namespace Dev.BufMoves
variable {d e f : Dev}

theorem refl (d : Dev) : d.BufMoves d := ⟨Dev.Only.refl _ _ d, rfl, rfl, rfl, SentKept.refl d⟩
theorem trans (h : d.BufMoves e) (k : e.BufMoves f) : d.BufMoves f :=
  ⟨h.only.trans k.only, k.pcie.trans h.pcie, k.pkt.trans h.pkt, k.time.trans h.time, h.sent.trans k.sent⟩

theorem of_frees (h : d.Frees e) (hs : d.SentKept e) : d.BufMoves e := by
  obtain ⟨honly, b, hsame⟩ := h
  exact ⟨honly, hsame.pcie, hsame.pkt, hsame.time, hs⟩

end Dev.BufMoves

theorem Dev.freeBufs_moves (d : Dev) (bs : List Nat) (agent : Nat) : d.BufMoves (d.freeBufs bs agent) :=
  .of_frees (d.freeBufs_frees bs agent) (d.freeBufs_sent bs agent)

theorem Dev.moveBufs_moves (d : Dev) (bs : List Nat) (agent dst : Nat) : d.BufMoves (d.moveBufs bs agent dst) := by
  refine Dev.each_keeps (P := d.BufMoves) bs _ (fun x b _ hx => hx.trans ?_) d (.refl d)
  unfold Dev.moveBuf
  split
  · exact .refl x
  · cases x.owner b with
    | none => exact .of_frees (x.bufReject_frees _ _ _) (x.bufReject_sent _ _ _)
    | some r =>
      dsimp only
      split
      · exact .of_frees ((Dev.Frees.refl x).setBuf _) (SentKept.refl x)
      · exact .of_frees (x.bufReject_frees _ _ _) (x.bufReject_sent _ _ _)

/-- The buffers that a request takes, one after the other (R254). -/
def Dev.takeBufs (d : Dev) (p c n agent : Nat) : Dev × List Nat :=
  (List.range n).foldl (fun (a : Dev × List Nat) _ => let t := a.1.takeBuf p c agent; (t.1, a.2 ++ [t.2])) (d, [])

/-- The buffers taken are those that the owners, the registers and the free choice say. -/
theorem Dev.takeBufs_congr {d e : Dev} (hb : e.buf = d.buf) (hf : e.free = d.free) (hr : e.regs = d.regs) (p c n agent : Nat) :
    (e.takeBufs p c n agent).2 = (d.takeBufs p c n agent).2 := by
  refine (List.foldl_rel (a := (e, ([] : List Nat))) (b := (d, ([] : List Nat))) (r := fun (a b : Dev × List Nat) => a.1.buf = b.1.buf ∧ a.1.free = b.1.free ∧ a.1.regs = b.1.regs ∧ a.2 = b.2)
    ⟨hb, hf, hr, rfl⟩ fun _ _ a b h => ?_).2.2.2
  obtain ⟨h1, h2, h3, h4⟩ := h
  have hsize : a.1.get (F.bufPoolCfgSize p) = b.1.get (F.bufPoolCfgSize p) := Dev.get_congr h3 _
  simp only [Dev.takeBuf, Dev.setOwner, Dev.setBuf, h1, h2, hsize, h3, h4, and_self]

theorem Dev.takeBuf_moves (d : Dev) (p c agent : Nat) : d.BufMoves (d.takeBuf p c agent).1 :=
  ⟨(Dev.Only.refl _ _ d).congr rfl, rfl, rfl, rfl, SentKept.refl d⟩

theorem Dev.takeBufs_moves (d : Dev) (p c n agent : Nat) : d.BufMoves (d.takeBufs p c n agent).1 :=
  List.foldlRecOn (motive := fun a : Dev × List Nat => d.BufMoves a.1) (List.range n) _ (.refl d) fun a h _ _ => h.trans (a.1.takeBuf_moves p c agent)

/-- A request granted (R254). -/
theorem Dev.allocBufs_some {d : Dev} {p c n agent : Nat} {x : Dev × List Nat} (hp : p < 64) (hc : c < 16) (h : d.allocBufs p c n agent = some x) {e : Dev}
    (hb : e.buf = d.buf) (hf : e.free = d.free) (hr : e.regs = d.regs) : ∃ a, e.allocBufs p c n agent = some (a, x.2) ∧ e.BufMoves a := by
  have hget : ∀ f : Fld, e.get f = d.get f := fun f => Dev.get_congr hr f
  unfold Dev.allocBufs at h ⊢
  dsimp only at h ⊢
  simp only [hget]
  split at h
  · simp at h
  · rename_i hmax
    split at h
    · simp at h
    · rename_i hfree
      rw [if_neg hmax, if_neg hfree]
      obtain rfl := Option.some.inj h
      have hused : e.BufMoves ((e.set (F.bufPclsUsedUsed (16 * p + c)) (d.get (F.bufPclsUsedUsed (16 * p + c)) + n)).set (F.bufPoolFreeShfree p)
          (d.get (F.bufPoolFreeShfree p) - (n - min n (d.get (F.bufPclsMinMin (16 * p + c)) - d.get (F.bufPclsUsedUsed (16 * p + c)))))) :=
        ⟨((Dev.Only.refl _ _ e).set _ _ (bufPclsUsed_mem (by omega))).set _ _ (bufPoolFree_mem ⟨p, hp⟩), rfl, rfl, rfl, SentKept.refl e⟩
      refine ⟨_, congrArg some (Prod.ext rfl ?_), (hused.trans (Dev.takeBufs_moves _ p c n agent)).trans (.of_frees (Dev.poolLow_frees _ p) (Dev.poolLow_sent _ p))⟩
      refine Dev.takeBufs_congr ?_ ?_ ?_ p c n agent
      · exact hb
      · exact hf
      · simp only [Dev.set, Dev.setReg, Dev.reg, hr]

/-! ### A packet written to a ring (R334, R336) -/

/-- The data of buffer `i` of a packet, and its descriptor, as the host's memory takes them. -/
def Dev.dataAt (d : Dev) (r : Nat) (p : Pkt) (addrs : List (BitVec 64)) (i : Nat) : Output :=
  .dmaWrite ((addrs.getD i 0).toNat / 64 * 64) ((p.bytes.drop (d.bufSz r * i)).take (d.bufSz r))

def Dev.descAt (d : Dev) (r : Nat) (p : Pkt) (addrs : List (BitVec 64)) (h n st i : Nat) : Output :=
  .dmaWrite (d.descAddr false r (h + i)) (rxDesc p (addrs.getD i 0).toNat ((p.bytes.drop (d.bufSz r * i)).take (d.bufSz r)).length (i == 0) (i + 1 == n) st)

theorem Dev.bufSz_congr {d e : Dev} (h : e.regs = d.regs) (r : Nat) : e.bufSz r = d.bufSz r := by simp only [Dev.bufSz, Dev.get_congr h]

theorem Dev.writeDescs_shows (d : Dev) (r : Nat) (p : Pkt) (addrs : List (BitVec 64)) (n st : Nat) :
    (d.writeDescs r p addrs n st).regs = d.regs ∧ d.Sends [] (d.writeDescs r p addrs n st)
      ∧ ∀ i < n, d.dataAt r p addrs i ∈ (d.writeDescs r p addrs n st).out
        ∧ d.descAt r p addrs (d.get (F.pciRxgHeadHead r)) n st i ∈ (d.writeDescs r p addrs n st).out := by
  obtain ⟨hregs, hsends, hmem⟩ := Dev.each_emits (fun (_ : Dev) (i : Nat) => d.dataAt r p addrs i) (List.range n) d fun _ _ _ => rfl
  have hdef : d.writeDescs r p addrs n st = (d.each (List.range n) fun e i => e.emit (d.dataAt r p addrs i)).each (List.range n) fun e i =>
      e.emit (.dmaWrite (e.descAddr false r (d.get (F.pciRxgHeadHead r) + i)) (rxDesc p (addrs.getD i 0).toNat
        ((p.bytes.drop (d.bufSz r * i)).take (d.bufSz r)).length (i == 0) (i + 1 == n) st)) := rfl
  rw [hdef]
  generalize (d.each (List.range n) fun e i => e.emit (d.dataAt r p addrs i)) = a at *
  obtain ⟨hregs', hsends', hmem'⟩ := Dev.each_emits (fun (e : Dev) (i : Nat) => .dmaWrite (e.descAddr false r (d.get (F.pciRxgHeadHead r) + i))
    (rxDesc p (addrs.getD i 0).toNat ((p.bytes.drop (d.bufSz r * i)).take (d.bufSz r)).length (i == 0) (i + 1 == n) st)) (List.range n) a
    fun e he i => by rw [Dev.descAddr_congr he]
  refine ⟨hregs'.trans hregs, hsends.trans hsends', fun i hi => ⟨hsends'.sent.mem (hmem i (List.mem_range.2 hi)), ?_⟩⟩
  have := hmem' i (List.mem_range.2 hi)
  rwa [Dev.descAddr_congr hregs] at this

/-- A packet written to its ring, with its whole set of descriptors there (R336). -/
structure Dev.Delivers (r : Nat) (x : QPkt) (rest : List QPkt) (addrs : List (BitVec 64)) (n : Nat) (d e : Dev) : Prop where
  kept : d.RegsKept (fun a => inCord 12 a || inCord 9 a || isEvt a) e
  others : ∀ f : Fld, f.addr ≠ R.pciRxgHead r → f.addr ≠ R.pciRxgStat r → inCord 12 f.addr = true → e.get f = d.get f
  ring : (e.ring false r).pending = rest
  head : e.get (F.pciRxgHeadHead r) = (d.get (F.pciRxgHeadHead r) + n) % 131072
  sent : d.SentKept e
  written : ∀ i < n, d.dataAt r x.pkt addrs i ∈ e.out ∧ d.descAt r x.pkt addrs (d.get (F.pciRxgHeadHead r)) n 0 i ∈ e.out

theorem Dev.delivers (d : Dev) {r : Nat} (hr : r < 2048) (x : QPkt) (rest : List QPkt) (addrs : List (BitVec 64)) (n : Nat) :
    d.Delivers r x rest addrs n ((((d.writeDescs r x.pkt addrs n 0).setRing false r fun g => { g with pending := rest }).freeBufs x.bufs 28).ringPass false r n) := by
  obtain ⟨hregs, hsends, hwritten⟩ := d.writeDescs_shows r x.pkt addrs n 0
  generalize d.writeDescs r x.pkt addrs n 0 = a at *
  have hring := a.ring_setRing_self false r fun g => { g with pending := rest }
  have hbregs := a.setRing_regs false r fun g => { g with pending := rest }
  have hbout := a.setRing_out false r fun g => { g with pending := rest }
  generalize (a.setRing false r fun g => { g with pending := rest }) = b at *
  have hfree := b.freeBufs_moves x.bufs 28
  generalize b.freeBufs x.bufs 28 = c at *
  obtain ⟨hpass, hhead⟩ := c.ringPass_shows false r n
  generalize c.ringPass false r n = e at *
  have hdb : b.regs = d.regs := hbregs.trans hregs
  have hbuf : ∀ f : Fld, inCord 12 f.addr = true → c.get f = d.get f := fun f hf => by
    simp only [inCord, decide_eq_true_eq] at hf
    rw [hfree.only.get_eq (fun hm => by have := bufRegs_range hm; omega) (by omega) (by simp), Dev.get_congr hdb]
  have hhr : inCord 12 (R.pciRxgHead r) = true ∧ inCord 12 (R.pciRxgStat r) = true :=
    ⟨decide_eq_true (by simp only [R.pciRxgHead]; omega), decide_eq_true (by simp only [R.pciRxgStat]; omega)⟩
  refine ⟨?_, fun f h1 h2 hf => ?_, ?_, ?_, ?_, fun i hi => ?_⟩
  · have h1 : d.RegsKept (fun a => inCord 12 a || inCord 9 a || isEvt a) b := fun a _ => Dev.reg_congr hdb a
    have h2 : b.RegsKept (fun a => inCord 12 a || inCord 9 a || isEvt a) c := hfree.only.kept (fun a ha => by simp [bufRegs_inCord ha]) (by simp) fun _ a ha => by simp [ha]
    have h3 : c.RegsKept (fun a => inCord 12 a || inCord 9 a || isEvt a) e := hpass.only.kept (fun a ha => by
      simp only [ringHeadReg, ringStatReg, Bool.false_eq_true, if_false, List.mem_cons, List.not_mem_nil, or_false] at ha
      rcases ha with rfl | rfl
      · simp [hhr.1]
      · simp [hhr.2]) (by simp) (by simp)
    exact (h1.trans h2).trans h3
  · have : 0x81000 ≤ f.addr := by
      simp only [inCord, decide_eq_true_eq] at hf
      omega
    rw [hpass.only.get_eq (by simpa [ringHeadReg, ringStatReg] using ⟨h1, h2⟩) this (by simp), hbuf f hf]
  · rw [hpass.same.ring, Dev.ring, hfree.pcie, ← Dev.ring, hring]
  · have : c.get (ringHead false r) = d.get (F.pciRxgHeadHead r) := hbuf _ hhr.1
    rw [← this]
    exact hhead
  · exact ((hsends.sent.congr hbout).trans hfree.sent).trans hpass.sent
  · obtain ⟨h1, h2⟩ := hwritten i hi
    have hae : a.SentKept e := (((SentKept.refl a).congr hbout).trans hfree.sent).trans hpass.sent
    exact ⟨hae.mem h1, hae.mem h2⟩

/-! ### A packet that joins its ring (R336, R337) -/

theorem Dev.nextDecided_ring {d : Dev} {r n : Nat} {p : Pkt} {rest : List Decided} (hok : d.trafficOk 8 = true) (h : d.pkt.decided = ⟨.ring r, p, n⟩ :: rest) :
    d.nextDecided false = some ⟨.ring r, p, n⟩ := by
  unfold Dev.nextDecided
  rw [hok, h]
  simp

/-- The packet that leaves the decided ones. -/
def Dev.ringTaken (d : Dev) (x : Decided) : Dev := d.setPkt fun y => { y with decided := y.decided.erase x }

theorem Dev.ringTaken_pkt {d : Dev} {x : Decided} {rest : List Decided} (h : d.pkt.decided = x :: rest) : (d.ringTaken x).pkt.decided = rest := by
  simp [Dev.ringTaken, Dev.setPkt, h]

theorem Dev.ringTaken_keeps (d : Dev) (x : Decided) :
    (d.ringTaken x).regs = d.regs ∧ (d.ringTaken x).pcie = d.pcie ∧ (d.ringTaken x).buf = d.buf ∧ (d.ringTaken x).free = d.free
      ∧ (d.ringTaken x).time = d.time ∧ (d.ringTaken x).out = d.out := ⟨rfl, rfl, rfl, rfl, rfl, rfl⟩

/-- A packet that joins the pending list of a ring in service (R336). -/
theorem Dev.ringPush_joins {d : Dev} {r n : Nat} {p : Pkt} {bs : List Nat} {a : Dev} (hrel : d.released 12 = true) (hperst : d.pcie.perst = false)
    (hen : d.get (F.pciRxgCfgEn r) = 1)
    (ha : d.allocBufs (d.get (F.pciRxgCfgPool r)) (d.get (F.bufSrcClsClass p.src))
      (if d.get (F.bufPoolCfgKind (d.get (F.pciRxgCfgPool r))) = 0 then (p.bytes.length + 2047) / 2048 else 1) n = some (a, bs)) :
    (d.ringPush r p n).1 = (a.moveBufs bs n 28).setRing false r fun g => { g with pending := g.pending ++ [⟨p, bs, d.time.ticks⟩] } := by
  have hon : d.cordOn 12 = true := by
    simp only [Dev.released, beq_iff_eq] at hrel
    simp [Dev.cordOn, hrel]
  have hn : (if d.flag (F.bufPoolCfgKind (d.get (F.pciRxgCfgPool r))) then 1 else (p.bytes.length + 2047) / 2048)
      = (if d.get (F.bufPoolCfgKind (d.get (F.pciRxgCfgPool r))) = 0 then (p.bytes.length + 2047) / 2048 else 1) := by
    by_cases h : d.get (F.bufPoolCfgKind (d.get (F.pciRxgCfgPool r))) = 0 <;> simp [Dev.flag, h]
  unfold Dev.ringPush
  simp only [hon, hperst, Dev.flag, hen, hrel, Bool.not_true, Bool.or_self, Bool.false_eq_true, if_false, (by decide : ((1 : Nat) != 0) = true)]
  simp only [Dev.flag] at hn
  rw [hn, ha]
  rfl

/-- The packet at the head of a ring's pending list, written to the host. -/
def Dev.rxgWritten (d : Dev) (r : Nat) (x : QPkt) (rest : List QPkt) (addrs : List (BitVec 64)) : Dev :=
  (((d.writeDescs r x.pkt addrs (d.descsOf r x) 0).setRing false r fun g => { g with pending := rest }).freeBufs x.bufs 28).ringPass false r (d.descsOf r x)

/-- What a frame write makes of a device. -/
def Dev.rxgWriteFrom (r : Nat) (addrs : List (BitVec 64)) (tail : Option (BitVec 17)) (d0 : Dev) : Dev :=
  let d := d0.tailFirst false r tail
  let still (d : Dev) : Dev := d.when tail.isSome fun d => d.ringRefresh false r true
  match (d.ring false r).pending with
  | [] => still d
  | x :: rest =>
    if !d.dmaOk || !d.trafficOk 12 || !d.flag (F.pciRxgCfgEn r) || d.flag (F.pciRxgStatFlbusy r) || d.ringHeld false r < d.descsOf r x then still d
    else d.rxgWritten r x rest addrs

theorem execRxgFrameWrite_eq (r : Fin 2048) (addrs : List (BitVec 64)) (tail : Option (BitVec 17)) (s : State) :
    execRxgFrameWrite r addrs tail s = s.run fun _ => Dev.rxgWriteFrom r addrs tail := by
  unfold execRxgFrameWrite Dev.rxgWriteFrom
  rfl

theorem Dev.rxgWriteFrom_delivers {d0 : Dev} {r : Nat} {x : QPkt} {rest : List QPkt} {addrs : List (BitVec 64)} {tail : Option (BitVec 17)} {d : Dev}
    (hd : d0.tailFirst false r tail = d)
    (hpend : (d.ring false r).pending = x :: rest) (hdma : d.dmaOk = true) (htraffic : d.trafficOk 12 = true) (hen : d.get (F.pciRxgCfgEn r) = 1)
    (hfl : d.get (F.pciRxgStatFlbusy r) = 0) (hheld : d.descsOf r x ≤ d.ringHeld false r) :
    d0.rxgWriteFrom r addrs tail = d.rxgWritten r x rest addrs := by
  unfold Dev.rxgWriteFrom
  rw [hd]
  dsimp only
  rw [hpend]
  dsimp only
  rw [if_neg]
  simp [hdma, htraffic, Dev.flag, hen, hfl, hheld]

/-- A write of TAIL in the clock of a completion (R344). -/
theorem Dev.tailFirst_sets {d : Dev} {r : Nat} {v : BitVec 17} (hrel : d.released 12 = true) (hperst : d.pcie.perst = false)
    (htail : d.ringTailCheck false r (v.setWidth 32) = 0) :
    (d.tailFirst false r (some v)) = (d.set (F.pciRxgTailTail r) v.toNat).emit (.writeDone (R.pciRxgTail r) 0) := by
  have hon : d.cordOn 12 = true := by
    simp only [Dev.released, beq_iff_eq] at hrel
    simp [Dev.cordOn, hrel]
  simp only [Dev.tailFirst]
  rw [hon, hperst, htail]
  rfl

theorem Dev.dmaOk_released {d : Dev} (h : d.dmaOk = true) : d.released 12 = true := by
  simp only [Dev.dmaOk, Bool.and_eq_true] at h
  exact h.1.2

theorem Dev.trafficOk_twelve (d : Dev) : d.trafficOk 12 = (d.released 12 && (d.released 8 && d.released 9)) := by simp [Dev.trafficOk, Dev.needs]

/-- DMA and the traffic of PCI go on through changes of PCI's own registers that leave the link as it is. -/
theorem Dev.Only.dma_traffic {d e : Dev} {l : List Nat} (h : d.Only l [] e) (hl : ∀ a ∈ l, 0xC100000 ≤ a) :
    e.dmaOk = d.dmaOk ∧ e.trafficOk 12 = d.trafficOk 12 := by
  have hout : ∀ a < 0xC100000, a ∉ l := fun a ha hm => by
    have := hl a hm
    omega
  have hget : ∀ f : Fld, f.addr < 0xC100000 → e.get f = d.get f := fun f hf =>
    congrArg f.of (h f.addr (hout _ hf) (by simp))
  have hcord : ∀ c < 0x100, e.cordSt c = d.cordSt c := fun c hc => h.cordSt_eq hc (hout _ ((R.hrtPwrCord_lt hc).trans (by decide)))
  simp only [Dev.dmaOk, Dev.trafficOk_twelve, Dev.flag, Dev.released, hcord 12 (by decide), hcord 8 (by decide), hcord 9 (by decide),
    hget F.pciEpStatDlup (by decide), hget F.hrtPwrStateCur (by decide), and_self]

theorem Dev.ring_setRing_ne (d : Dev) {tx tx' : Bool} {r q : Nat} (f : Ring → Ring) (h : ringKey tx' q ≠ ringKey tx r) :
    (d.setRing tx r f).ring tx' q = d.ring tx' q := Tbl.get_modify_ne _ _ _ _ h

/-- A packet joins the pending list of a ring in service, with the buffers it gets (R336). -/
theorem State.rxgPacket_joins (r n : Nat) (p : Pkt) (rest : List Decided) (bs : List Nat) (s : State) : s.dev.trafficOk 8 = true →
    s.dev.pkt.decided = ⟨.ring r, p, n⟩ :: rest → s.dev.released 12 = true → s.dev.pcie.perst = false →
    s.dev.get (F.pciRxgCfgEn r) = 1 →
    (∃ x : Dev, s.dev.allocBufs (s.dev.get (F.pciRxgCfgPool r)) (s.dev.get (F.bufSrcClsClass p.src))
      (if s.dev.get (F.bufPoolCfgKind (s.dev.get (F.pciRxgCfgPool r))) = 0 then (p.bytes.length + 2047) / 2048 else 1) n = some (x, bs)) →
    ∃ t, exec .rxgPacket s = .next t ∧ t.dev.pkt.decided = rest
      ∧ (t.dev.ring false r).pending = (s.dev.ring false r).pending ++ [⟨p, bs, s.dev.time.ticks⟩]
      ∧ (∀ (tx : Bool) (q : Nat), q < 2048 → r < 2048 → (tx = true ∨ q ≠ r) → t.dev.ring tx q = s.dev.ring tx q)
      ∧ s.dev.RegsKept (fun a => inCord 9 a || isEvt a) t.dev := by
  revert s
  refine State.of_sent ?_ fun s h => ?_
  case refine_2 =>
    intro h1 h2 h3 h4 h5 ⟨x, halloc⟩
    obtain ⟨y, hy, -⟩ := Dev.allocBufs_some (e := s.dev.setOut []) (s.dev.get_lt _) (s.dev.get_lt _) halloc rfl rfl rfl
    exact h h1 h2 h3 h4 h5 ⟨y, hy⟩
  intro s hs hok hdec hrel hperst hen ⟨x, halloc⟩
  simp only [exec, execRxgPacket]
  refine State.run_ends hs rfl fun t ht hout hfz => ?_
  simp only [Dev.nextDecided_ring hok hdec] at ht
  have hpkt := Dev.ringTaken_pkt hdec
  obtain ⟨hregs, hpcie, hbuf, hfree, htime, -⟩ := s.dev.ringTaken_keeps ⟨.ring r, p, n⟩
  change (((s.dev.ringTaken ⟨.ring r, p, n⟩).ringPush r p n).1).EndsAs t.dev at ht
  generalize s.dev.ringTaken ⟨.ring r, p, n⟩ = e at *
  obtain ⟨a, ha, hmoves⟩ := Dev.allocBufs_some (s.dev.get_lt _) (s.dev.get_lt _) halloc hbuf hfree hregs
  have hget : ∀ f, s.dev.get f = e.get f := fun f => (Dev.get_congr hregs f).symm
  simp only [hget] at ha hen
  rw [Dev.ringPush_joins (by rw [← hrel]; simp only [Dev.released, Dev.cordSt, hget]) (by rw [hpcie]; exact hperst) hen ha] at ht
  have hall := hmoves.trans (a.moveBufs_moves bs n 28)
  generalize a.moveBufs bs n 28 = b at *
  have hring : ∀ tx q, b.ring tx q = s.dev.ring tx q := fun tx q => by rw [Dev.ring, hall.pcie, hpcie, Dev.ring]
  refine ⟨?_, ?_, fun tx q hq hr hne => ?_, ?_⟩
  · rw [ht.same.pkt, Dev.setRing_pkt, hall.pkt, hpkt]
  · rw [ht.same.ring, Dev.ring_setRing_self, hring, htime]
  · rw [ht.same.ring, ← hring]
    refine Dev.ring_setRing_ne _ _ ?_
    rcases hne with rfl | hne
    · simp only [ringKey, if_true, Bool.false_eq_true, if_false]
      omega
    · cases tx <;> simp only [ringKey, if_true, Bool.false_eq_true, if_false] <;> omega
  · refine ht.regsKept.2 ?_
    have h1 : s.dev.RegsKept (fun a => inCord 9 a || isEvt a) e := fun a _ => Dev.reg_congr hregs a
    exact h1.trans (hall.only.kept (fun a ha => by simp [bufRegs_inCord ha]) (by simp) fun _ a ha => by simp [ha])

/-- Settles O39: a receive ring takes packets, delivers them and times out. -/
theorem receiveRingsDeliver : Obligations.ReceiveRingsDeliver := by
  refine ⟨fun r n p rest x s hok hdec hrel hperst hen halloc => State.rxgPacket_joins r n p rest x.2 s hok hdec hrel hperst hen ⟨x.1, halloc⟩, ?_, ?_, ?_, ?_, ?_⟩
  · intro r n p rest
    refine State.of_sent ?_ fun _ h => h
    intro s hs hok hdec hon hperst hoff
    simp only [exec, execRxgPacket]
    refine State.run_ends hs rfl fun t ht hout hfz => ?_
    simp only [Dev.nextDecided_ring hok hdec] at ht
    have hpkt := Dev.ringTaken_pkt hdec
    obtain ⟨hregs, hpcie, -⟩ := s.dev.ringTaken_keeps ⟨.ring r, p, n⟩
    change (((s.dev.ringTaken ⟨.ring r, p, n⟩).ringPush r p n).1).EndsAs t.dev at ht
    generalize s.dev.ringTaken ⟨.ring r, p, n⟩ = e at *
    have hget : ∀ f, e.get f = s.dev.get f := fun f => Dev.get_congr hregs f
    have hon' : e.cordOn 12 = true := by rw [← hon]; simp only [Dev.cordOn, Dev.cordSt, hget]
    have hoff' : (!e.flag (F.pciRxgCfgEn r) || !e.released 12) = true := by
      have hrel : e.released 12 = s.dev.released 12 := by simp only [Dev.released, Dev.cordSt, hget]
      rcases hoff with h | h
      · simp [Dev.flag, hget, h]
      · simp [hrel, h]
    have hpush : (e.ringPush r p n).1 = e.count (F.pciRxgDropTodrop r) 1 := by
      unfold Dev.ringPush
      rw [hon', hpcie, hperst, hoff']
      rfl
    rw [hpush] at ht
    refine ⟨?_, ht.same.pcie.trans hpcie, ?_, ?_⟩
    · rw [ht.same.pkt]
      exact hpkt
    · rw [ht.get, Dev.get_count_self _ _ _ (by simp [Fld.fits, F.pciRxgDropTodrop]), hget]
      rfl
    · exact ht.only.2 (((Dev.Only.refl _ _ s.dev).congr hregs).count _ _ (by simp [F.pciRxgDropTodrop]))
  · intro r n p rest
    refine State.of_sent ?_ fun _ h => h
    intro s hs hok hdec hoff
    simp only [exec, execRxgPacket]
    refine State.run_ends hs rfl fun t ht hout hfz => ?_
    simp only [Dev.nextDecided_ring hok hdec] at ht
    have hpkt := Dev.ringTaken_pkt hdec
    obtain ⟨hregs, hpcie, -⟩ := s.dev.ringTaken_keeps ⟨.ring r, p, n⟩
    change (((s.dev.ringTaken ⟨.ring r, p, n⟩).ringPush r p n).1).EndsAs t.dev at ht
    generalize s.dev.ringTaken ⟨.ring r, p, n⟩ = e at *
    have hoff' : (!e.cordOn 12 || e.pcie.perst) = true := by
      have hon : e.cordOn 12 = s.dev.cordOn 12 := by simp only [Dev.cordOn, Dev.cordSt, Dev.get_congr hregs]
      rcases hoff with h | h
      · simp [hon, h]
      · simp [hpcie, h]
    have hpush : (e.ringPush r p n).1 = e := by
      unfold Dev.ringPush
      rw [hoff']
      rfl
    rw [hpush] at ht
    refine ⟨?_, ht.same.pcie.trans hpcie, ht.only.2 ((Dev.Only.refl _ _ s.dev).congr hregs)⟩
    rw [ht.same.pkt]
    exact hpkt
  · intro r x rest addrs h
    refine State.of_sent ?_ fun _ h => h
    intro s hs hpend hdma htraffic hen hfl hheld hh
    subst hh
    simp only [exec, execRxgFrameWrite_eq]
    refine State.run_ends hs rfl fun t ht hout hfz => ?_
    rw [Dev.rxgWriteFrom_delivers (d := s.dev) (Dev.tailFirst.eq_1 _ _ _) hpend hdma htraffic hen hfl hheld] at ht hout
    have hdel := s.dev.delivers r.isLt x rest addrs (s.dev.descsOf r x)
    change Dev.EndsAs (Dev.rxgWritten s.dev r x rest addrs) _ at ht
    change t.outputs = (Dev.rxgWritten s.dev r x rest addrs).out ++ s.outputs at hout
    change s.dev.Delivers _ _ _ _ _ (Dev.rxgWritten s.dev r x rest addrs) at hdel
    generalize Dev.rxgWritten s.dev r x rest addrs = e at *
    refine ⟨?_, (ht.get _).trans hdel.head, fun i hi => ?_, ?_, ht.regsKept.2 hdel.kept⟩
    · rw [ht.same.ring, hdel.ring]
    · obtain ⟨h1, h2⟩ := hdel.written i hi
      rw [hout]
      exact ⟨List.mem_append_left _ h1, List.mem_append_left _ h2⟩
    · exact (ht.get _).trans (hdel.others _ (by simp [F.pciRxgDropTodrop, R.pciRxgDrop, R.pciRxgHead]) (by simp [F.pciRxgDropTodrop, R.pciRxgDrop, R.pciRxgStat])
        (decide_eq_true (by simp only [F.pciRxgDropTodrop, R.pciRxgDrop]; omega)))
  · intro r x rest addrs v h
    refine State.of_sent ?_ fun _ h => h
    intro s hs hpend hdma htraffic hperst hen hfl htail hh hheld
    subst hh
    simp only [exec, execRxgFrameWrite_eq]
    refine State.run_ends hs rfl fun t ht hout hfz => ?_
    have hrel : s.dev.released 12 = true := Dev.dmaOk_released hdma
    have htailed := Dev.tailFirst_sets hrel hperst htail
    have hget : ∀ f : Fld, f.addr ≠ R.pciRxgTail r → ((s.dev.set (F.pciRxgTailTail r) v.toNat).emit (.writeDone (R.pciRxgTail r) 0)).get f = s.dev.get f :=
      fun f hf => Dev.get_set_ne _ _ hf
    have hself : ((s.dev.set (F.pciRxgTailTail r) v.toNat).emit (.writeDone (R.pciRxgTail r) 0)).get (F.pciRxgTailTail r) = v.toNat :=
      Dev.get_set_lt _ _ (by simp [Fld.fits, F.pciRxgTailTail]) v.isLt
    have honly : s.dev.Only [R.pciRxgTail r] [] ((s.dev.set (F.pciRxgTailTail r) v.toNat).emit (.writeDone (R.pciRxgTail r) 0)) :=
      (Dev.Only.refl _ _ _).set _ _ (by simp [F.pciRxgTailTail])
    have hring : ((s.dev.set (F.pciRxgTailTail r) v.toNat).emit (.writeDone (R.pciRxgTail r) 0)).ring false r = s.dev.ring false r := rfl
    have hout' : .writeDone (R.pciRxgTail r) 0 ∈ ((s.dev.set (F.pciRxgTailTail r) v.toNat).emit (.writeDone (R.pciRxgTail r) 0)).out := List.mem_cons_self
    generalize (s.dev.set (F.pciRxgTailTail r) v.toNat).emit (.writeDone (R.pciRxgTail r) 0) = d at *
    have hsize : d.descsOf r x = s.dev.descsOf r x := by
      simp only [Dev.descsOf, Dev.bufSz, hget (F.pciRxgLevelBufsz r) (by simp [F.pciRxgLevelBufsz, R.pciRxgLevel, R.pciRxgTail])]
    have hhead : d.get (F.pciRxgHeadHead r) = s.dev.get (F.pciRxgHeadHead r) := hget _ (by simp [F.pciRxgHeadHead, R.pciRxgHead, R.pciRxgTail])
    have hheld' : d.ringHeld false r = unsignedOf 17 ((v.toNat : Int) - (s.dev.get (F.pciRxgHeadHead r) : Nat)) := by
      simp only [Dev.ringHeld, ringTail, ringHead, ringF, Bool.false_eq_true, if_false, hself, hhead]
    obtain ⟨hdma', htraffic'⟩ := honly.dma_traffic (by simp only [List.mem_singleton, forall_eq, R.pciRxgTail]; omega)
    rw [Dev.rxgWriteFrom_delivers htailed (by rw [hring]; exact hpend) (hdma'.trans hdma) (htraffic'.trans htraffic)
      ((hget _ (by simp [F.pciRxgCfgEn, R.pciRxgCfg, R.pciRxgTail])).trans hen) ((hget _ (by simp [F.pciRxgStatFlbusy, R.pciRxgStat, R.pciRxgTail])).trans hfl)
      (by rw [hsize, hheld']; exact hheld)] at ht hout
    have hdel := d.delivers r.isLt x rest addrs (d.descsOf r x)
    change d.Delivers _ _ _ _ _ (Dev.rxgWritten d r x rest addrs) at hdel
    generalize Dev.rxgWritten d r x rest addrs = e at *
    refine ⟨?_, ?_, ?_, ?_, ht.regsKept.2 (Dev.RegsKept.trans (honly.kept ?_ (by simp) (by simp)) hdel.kept)⟩
    · rw [ht.same.ring, hdel.ring]
    · rw [hout]
      exact List.mem_append_left _ (hdel.sent.mem hout')
    · rw [ht.get, hdel.others _ (by simp [F.pciRxgTailTail, R.pciRxgTail, R.pciRxgHead]) (by simp [F.pciRxgTailTail, R.pciRxgTail, R.pciRxgStat])
        (decide_eq_true (by simp only [F.pciRxgTailTail, R.pciRxgTail]; omega)), hself]
    · rw [ht.get, hdel.head, hhead, hsize]
    · intro a ha
      have : inCord 12 a = true := decide_eq_true (by simp only [List.mem_singleton, R.pciRxgTail] at ha; omega)
      simp [this]
  · intro r x rest
    refine State.of_sent ?_ fun _ h => h
    intro s hs hpend hen hheld
    simp only [exec, execRxgTimeout]
    refine State.run_ends hs rfl fun t ht hout hfz => ?_
    rw [hpend] at ht
    change Dev.EndsAs (s.dev.when _ _) _ at ht
    rw [show (s.dev.flag (F.pciRxgCfgEn r) && decide (s.dev.ringHeld false r < s.dev.descsOf r x)) = true by simp [Dev.flag, hen, hheld], Dev.when] at ht
    have hring := s.dev.ring_setRing_self false r fun g => { g with pending := rest }
    have hbregs := s.dev.setRing_regs false r fun g => { g with pending := rest }
    simp only [if_true] at ht
    generalize (s.dev.setRing false r fun g => { g with pending := rest }) = b at *
    have hfree := b.freeBufs_moves x.bufs 28
    generalize b.freeBufs x.bufs 28 = c at *
    have hget : ∀ f : Fld, inCord 12 f.addr = true → c.get f = s.dev.get f := fun f hf => by
      simp only [inCord, decide_eq_true_eq] at hf
      rw [hfree.only.get_eq (fun hm => by have := bufRegs_range hm; omega) (by omega) (by simp), Dev.get_congr hbregs]
    have hcnt : (c.count (F.pciRxgDropTodrop r) 1).get (F.pciRxgDropTodrop r) = satAdd 16 (s.dev.get (F.pciRxgDropTodrop r)) 1 := by
      rw [Dev.get_count_self _ _ _ (by simp [Fld.fits, F.pciRxgDropTodrop]), hget _ (decide_eq_true (by simp only [F.pciRxgDropTodrop, R.pciRxgDrop]; omega))]
      rfl
    have hst : c.Stores [R.pciRxgDrop r] (c.count (F.pciRxgDropTodrop r) 1) := (Dev.Stores.refl _ c).count _ _ (by simp [F.pciRxgDropTodrop])
    generalize c.count (F.pciRxgDropTodrop r) 1 = y at *
    obtain ⟨hraised, hrlog, hdir, hmarks, -⟩ := Dev.ringEvent_shows (Dev.Only.refl [] [] y) (by simp) false r.isLt (n := 0xF5) (by decide) [R.pciRxgDrop r]
    generalize y.ringEvent false r 0xF5 [R.pciRxgDrop r] = e at *
    refine ⟨?_, ?_, ?_, (ht.get _).trans hrlog, (ht.get _).trans hdir, ht.regsKept.2 ?_⟩
    · rw [ht.same.ring, hmarks.same.ring, hst.same.ring, Dev.ring, hfree.pcie, ← Dev.ring, hring]
    · refine ht.raised.2 (hraised.of_ctl ?_ rfl)
      have h1 : R.hrtEvtSrcCtl 0xF5 ≠ R.pciRxgDrop r := by simp only [R.hrtEvtSrcCtl, R.pciRxgDrop]; omega
      have h2 : R.hrtEvtSrcCtl 0xF5 ∉ bufRegs := fun hm => by
        have := bufRegs_range hm
        simp only [R.hrtEvtSrcCtl] at this
        omega
      rw [← Dev.reg_congr hbregs, ← hfree.only _ h2 (fun n hn => evtCtl_notMem_evtRegs (by rintro rfl; revert hn; decide)), hst.only _ (by simpa using h1) (by simp)]
    · rw [ht.get, hmarks.only.get_eq (by simp [F.pciRxgDropTodrop, R.pciRxgDrop, R.pciEpRlog]; omega) (by simp only [F.pciRxgDropTodrop, R.pciRxgDrop]; omega) (by simp), hcnt]
    · have h1 : s.dev.RegsKept (fun a => [R.pciRxgDrop r, R.pciEpRlog].contains a || inCord 9 a || isEvt a) b := fun a _ => Dev.reg_congr hbregs a
      refine h1.trans ((hfree.only.kept (fun a ha => by simp [bufRegs_inCord ha]) (by simp) fun _ a ha => by simp [ha]).trans ?_)
      exact (hst.only.kept (by simp) (by simp) (by simp)).trans (hmarks.only.kept (by simp) (by simp) fun _ a ha => by simp [ha])

end Sys2Proof.Machine
end

section
/-!
PROOFS. Which parts of a device, and which registers, a function of the model may change; that it keeps what is in form.
-/

namespace Sys2Proof.Machine

set_option Elab.async false

/-! ### Which parts of a device a function changes -/

/-- The parts of a device beside its registers. -/
inductive Part where
  | free | out | inReset | powered | blown | aerrAdr | straps | time | ash | hearth | img | ember | spr | pwr | waiting | pcie | msixTable | msixHeld
  | engines | convs | waves | scs | grps | crys | pkt | buf | macs | lanes | inj | tap | reclaim
  deriving DecidableEq

/-- A part is the same in two devices. -/
def Part.same : Part → Dev → Dev → Prop
  | free, d, e => e.free = d.free
  | out, d, e => e.out = d.out
  | inReset, d, e => e.inReset = d.inReset
  | powered, d, e => e.powered = d.powered
  | blown, d, e => e.blown = d.blown
  | aerrAdr, d, e => e.aerrAdr = d.aerrAdr
  | straps, d, e => e.straps = d.straps
  | time, d, e => e.time = d.time
  | ash, d, e => e.ash = d.ash
  | hearth, d, e => e.hearth = d.hearth
  | img, d, e => e.img = d.img
  | ember, d, e => e.ember = d.ember
  | spr, d, e => e.spr = d.spr
  | pwr, d, e => e.pwr = d.pwr
  | waiting, d, e => e.waiting = d.waiting
  | pcie, d, e => e.pcie = d.pcie
  | msixTable, d, e => e.msixTable = d.msixTable
  | msixHeld, d, e => e.msixHeld = d.msixHeld
  | engines, d, e => e.engines = d.engines
  | convs, d, e => e.convs = d.convs
  | waves, d, e => e.waves = d.waves
  | scs, d, e => e.scs = d.scs
  | grps, d, e => e.grps = d.grps
  | crys, d, e => e.crys = d.crys
  | pkt, d, e => e.pkt = d.pkt
  | buf, d, e => e.buf = d.buf
  | macs, d, e => e.macs = d.macs
  | lanes, d, e => e.lanes = d.lanes
  | inj, d, e => e.inj_ = d.inj_
  | tap, d, e => e.tap = d.tap
  | reclaim, d, e => e.reclaim = d.reclaim

theorem Part.same_refl (x : Part) (d : Dev) : x.same d d := by cases x <;> rfl

theorem Part.same_trans {x : Part} {d e f : Dev} (h : x.same d e) (k : x.same e f) : x.same d f := by
  cases x <;> exact Eq.trans k h

/-- The counter lies in its widths, and the memories have their canonical form (R348). -/
structure Dev.Formed (d : Dev) : Prop where
  time : d.time.InRange
  regs : Tbl.wf regReset d.regs = true
  mram : Tbl.wf (fun _ => 0) d.img.mram = true
  ember : Tbl.wf (fun _ => 0) d.ember.bytes = true

/-- Two devices differ in the named parts and the registers of `p` alone, and what the one has in form the other has. -/
structure Dev.Moves (l : List Part) (p : Nat → Prop) (d e : Dev) : Prop where
  parts : ∀ x ∉ l, x.same d e
  regs : ∀ a, ¬ p a → e.reg a = d.reg a
  form : d.Formed → e.Formed

namespace Dev.Moves
variable {l l' : List Part} {p q : Nat → Prop} {d e f : Dev}

theorem refl (l : List Part) (p : Nat → Prop) (d : Dev) : d.Moves l p d := ⟨fun x _ => x.same_refl d, fun _ _ => rfl, id⟩

theorem trans (h : d.Moves l p e) (k : e.Moves l p f) : d.Moves l p f :=
  ⟨fun x hx => Part.same_trans (h.parts x hx) (k.parts x hx), fun a ha => (k.regs a ha).trans (h.regs a ha), k.form ∘ h.form⟩

theorem mono (h : d.Moves l p e) (hl : ∀ x ∈ l, x ∈ l' := by decide) (hp : ∀ a, p a → q a) : d.Moves l' q e :=
  ⟨fun x hx => h.parts x fun hm => hx (hl x hm), fun a ha => h.regs a fun hm => ha (hp a hm), h.form⟩

theorem setReg (h : d.Moves l p e) (a : Nat) (v : Word) (ha : p a) : d.Moves l p (e.setReg a v) :=
  h.trans ⟨fun x _ => by cases x <;> rfl, fun b hb => Dev.reg_setReg_ne _ _ fun he => hb (he ▸ ha),
    fun hf => ⟨hf.time, Tbl.wf_set regReset a v hf.regs, hf.mram, hf.ember⟩⟩

theorem set (h : d.Moves l p e) (g : Fld) (x : Nat) (ha : p g.addr) : d.Moves l p (e.set g x) := h.setReg _ _ ha
theorem setInt (h : d.Moves l p e) (g : Fld) (x : Int) (ha : p g.addr) : d.Moves l p (e.setInt g x) := h.setReg _ _ ha
theorem setFlag (h : d.Moves l p e) (g : Fld) (x : Bool) (ha : p g.addr) : d.Moves l p (e.setFlag g x) := h.setReg _ _ ha
theorem count (h : d.Moves l p e) (g : Fld) (n : Nat) (ha : p g.addr) : d.Moves l p (e.count g n) := h.setReg _ _ ha

theorem when (h : d.Moves l p e) (c : Bool) (g : Dev → Dev) (hg : ∀ x : Dev, x.Moves l p (g x)) : d.Moves l p (e.when c g) := by
  cases c
  · exact h
  · exact h.trans (hg e)

theorem each {α : Type} (h : d.Moves l p e) (xs : List α) (g : Dev → α → Dev) (hg : ∀ (y : Dev) x, x ∈ xs → y.Moves l p (g y x)) :
    d.Moves l p (e.each xs g) :=
  Dev.each_keeps (P := d.Moves l p) xs g (fun y x hx hy => hy.trans (hg y x hx)) e h

/-- An update of one part. -/
theorem part (h : d.Moves l p e) {k : Part} (hl : k ∈ l) (hr : f.regs = e.regs) (hform : e.Formed → f.Formed) (hf : ∀ x, x ≠ k → x.same e f) :
    d.Moves l p f :=
  h.trans ⟨fun x hx => hf x fun he => hx (he ▸ hl), fun a _ => Dev.reg_congr hr a, hform⟩

theorem emit (h : d.Moves l p e) (o : Output) (hl : .out ∈ l := by decide) : d.Moves l p (e.emit o) :=
  h.part hl rfl (fun hf => ⟨hf.time, hf.regs, hf.mram, hf.ember⟩) fun x hx => by
    cases x
    case out => exact absurd rfl hx
    all_goals rfl

theorem setEng (h : d.Moves l p e) (k : Nat) (g : Engine → Engine) (hl : .engines ∈ l := by decide) : d.Moves l p (e.setEng k g) :=
  h.part hl rfl (fun hf => ⟨hf.time, hf.regs, hf.mram, hf.ember⟩) fun x hx => by
    cases x
    case engines => exact absurd rfl hx
    all_goals rfl

theorem setConv (h : d.Moves l p e) (k : Nat) (g : Conv → Conv) (hl : .convs ∈ l := by decide) : d.Moves l p (e.setConv k g) :=
  h.part hl rfl (fun hf => ⟨hf.time, hf.regs, hf.mram, hf.ember⟩) fun x hx => by
    cases x
    case convs => exact absurd rfl hx
    all_goals rfl

theorem setWave (h : d.Moves l p e) (k : Nat) (g : Wave → Wave) (hl : .waves ∈ l := by decide) : d.Moves l p (e.setWave k g) :=
  h.part hl rfl (fun hf => ⟨hf.time, hf.regs, hf.mram, hf.ember⟩) fun x hx => by
    cases x
    case waves => exact absurd rfl hx
    all_goals rfl

theorem setSc (h : d.Moves l p e) (w k : Nat) (g : Subc → Subc) (hl : .scs ∈ l := by decide) : d.Moves l p (e.setSc w k g) :=
  h.part hl rfl (fun hf => ⟨hf.time, hf.regs, hf.mram, hf.ember⟩) fun x hx => by
    cases x
    case scs => exact absurd rfl hx
    all_goals rfl

theorem setGrp (h : d.Moves l p e) (w k : Nat) (g : Grp → Grp) (hl : .grps ∈ l := by decide) : d.Moves l p (e.setGrp w k g) :=
  h.part hl rfl (fun hf => ⟨hf.time, hf.regs, hf.mram, hf.ember⟩) fun x hx => by
    cases x
    case grps => exact absurd rfl hx
    all_goals rfl

theorem setCry (h : d.Moves l p e) (w k : Nat) (g : Crypto → Crypto) (hl : .crys ∈ l := by decide) : d.Moves l p (e.setCry w k g) :=
  h.part hl rfl (fun hf => ⟨hf.time, hf.regs, hf.mram, hf.ember⟩) fun x hx => by
    cases x
    case crys => exact absurd rfl hx
    all_goals rfl

theorem setSpr1 (h : d.Moves l p e) (k : Nat) (g : SprEng → SprEng) (hl : .spr ∈ l := by decide) : d.Moves l p (e.setSpr1 k g) :=
  h.part hl rfl (fun hf => ⟨hf.time, hf.regs, hf.mram, hf.ember⟩) fun x hx => by
    cases x
    case spr => exact absurd rfl hx
    all_goals rfl

theorem setSpr (h : d.Moves l p e) (g : SprSt → SprSt) (hl : .spr ∈ l := by decide) : d.Moves l p (e.setSpr g) :=
  h.part hl rfl (fun hf => ⟨hf.time, hf.regs, hf.mram, hf.ember⟩) fun x hx => by
    cases x
    case spr => exact absurd rfl hx
    all_goals rfl

theorem setPcie (h : d.Moves l p e) (g : Pcie → Pcie) (hl : .pcie ∈ l := by decide) : d.Moves l p (e.setPcie g) :=
  h.part hl rfl (fun hf => ⟨hf.time, hf.regs, hf.mram, hf.ember⟩) fun x hx => by
    cases x
    case pcie => exact absurd rfl hx
    all_goals rfl

theorem setPwr (h : d.Moves l p e) (g : PwrSt → PwrSt) (hl : .pwr ∈ l := by decide) : d.Moves l p (e.setPwr g) :=
  h.part hl rfl (fun hf => ⟨hf.time, hf.regs, hf.mram, hf.ember⟩) fun x hx => by
    cases x
    case pwr => exact absurd rfl hx
    all_goals rfl

theorem setCordInfo (h : d.Moves l p e) (c : Nat) (g : CordSt → CordSt) (hl : .pwr ∈ l := by decide) : d.Moves l p (e.setCordInfo c g) :=
  h.part hl rfl (fun hf => ⟨hf.time, hf.regs, hf.mram, hf.ember⟩) fun x hx => by
    cases x
    case pwr => exact absurd rfl hx
    all_goals rfl

theorem setImg (h : d.Moves l p e) (g : ImgSt → ImgSt) (hg : Tbl.wf (fun _ => 0) e.img.mram = true → Tbl.wf (fun _ => 0) (g e.img).mram = true) (hl : .img ∈ l := by decide) : d.Moves l p (e.setImg g) :=
  h.part hl rfl (fun hf => ⟨hf.time, hf.regs, hg hf.mram, hf.ember⟩) fun x hx => by
    cases x
    case img => exact absurd rfl hx
    all_goals rfl

theorem setEmber (h : d.Moves l p e) (g : EmberSt → EmberSt) (hg : Tbl.wf (fun _ => 0) e.ember.bytes = true → Tbl.wf (fun _ => 0) (g e.ember).bytes = true) (hl : .ember ∈ l := by decide) : d.Moves l p (e.setEmber g) :=
  h.part hl rfl (fun hf => ⟨hf.time, hf.regs, hf.mram, hg hf.ember⟩) fun x hx => by
    cases x
    case ember => exact absurd rfl hx
    all_goals rfl

theorem setHearth (h : d.Moves l p e) (g : HearthSt → HearthSt) (hl : .hearth ∈ l := by decide) : d.Moves l p (e.setHearth g) :=
  h.part hl rfl (fun hf => ⟨hf.time, hf.regs, hf.mram, hf.ember⟩) fun x hx => by
    cases x
    case hearth => exact absurd rfl hx
    all_goals rfl

theorem setPkt (h : d.Moves l p e) (g : PktSt → PktSt) (hl : .pkt ∈ l := by decide) : d.Moves l p (e.setPkt g) :=
  h.part hl rfl (fun hf => ⟨hf.time, hf.regs, hf.mram, hf.ember⟩) fun x hx => by
    cases x
    case pkt => exact absurd rfl hx
    all_goals rfl

theorem setMac (h : d.Moves l p e) (k : Nat) (g : Mac → Mac) (hl : .macs ∈ l := by decide) : d.Moves l p (e.setMac k g) :=
  h.part hl rfl (fun hf => ⟨hf.time, hf.regs, hf.mram, hf.ember⟩) fun x hx => by
    cases x
    case macs => exact absurd rfl hx
    all_goals rfl

theorem setLane (h : d.Moves l p e) (k : Nat) (g : Lane → Lane) (hl : .lanes ∈ l := by decide) : d.Moves l p (e.setLane k g) :=
  h.part hl rfl (fun hf => ⟨hf.time, hf.regs, hf.mram, hf.ember⟩) fun x hx => by
    cases x
    case lanes => exact absurd rfl hx
    all_goals rfl

theorem setInj (h : d.Moves l p e) (k : Nat) (g : Inj → Inj) (hl : .inj ∈ l := by decide) : d.Moves l p (e.setInj k g) :=
  h.part hl rfl (fun hf => ⟨hf.time, hf.regs, hf.mram, hf.ember⟩) fun x hx => by
    cases x
    case inj => exact absurd rfl hx
    all_goals rfl

theorem setRing (h : d.Moves l p e) (tx : Bool) (r : Nat) (g : Ring → Ring) (hl : .pcie ∈ l := by decide) : d.Moves l p (e.setRing tx r g) :=
  h.part hl rfl (fun hf => ⟨hf.time, hf.regs, hf.mram, hf.ember⟩) fun x hx => by
    cases x
    case pcie => exact absurd rfl hx
    all_goals rfl

theorem setBuf (h : d.Moves l p e) (g : BufSt → BufSt) (hl : .buf ∈ l := by decide) : d.Moves l p (e.setBuf g) :=
  h.part hl rfl (fun hf => ⟨hf.time, hf.regs, hf.mram, hf.ember⟩) fun x hx => by
    cases x
    case buf => exact absurd rfl hx
    all_goals rfl

theorem setWaiting (h : d.Moves l p e) (w : List Access) (hl : .waiting ∈ l := by decide) : d.Moves l p (e.setWaiting w) :=
  h.part hl rfl (fun hf => ⟨hf.time, hf.regs, hf.mram, hf.ember⟩) fun x hx => by
    cases x
    case waiting => exact absurd rfl hx
    all_goals rfl

theorem setOut (h : d.Moves l p e) (w : List Output) (hl : .out ∈ l := by decide) : d.Moves l p (e.setOut w) :=
  h.part hl rfl (fun hf => ⟨hf.time, hf.regs, hf.mram, hf.ember⟩) fun x hx => by
    cases x
    case out => exact absurd rfl hx
    all_goals rfl

theorem setTime (h : d.Moves l p e) (g : TimeSt → TimeSt) (hg : e.time.InRange → (g e.time).InRange) (hl : .time ∈ l := by decide) : d.Moves l p (e.setTime g) :=
  h.part hl rfl (fun hf => ⟨hg hf.time, hf.regs, hf.mram, hf.ember⟩) fun x hx => by
    cases x
    case time => exact absurd rfl hx
    all_goals rfl

theorem setQueue (h : d.Moves l p e) (q : Nat) (g : Queue → Queue) (hl : .buf ∈ l := by decide) : d.Moves l p (e.setQueue q g) :=
  h.part hl rfl (fun hf => ⟨hf.time, hf.regs, hf.mram, hf.ember⟩) fun x hx => by
    cases x
    case buf => exact absurd rfl hx
    all_goals rfl

theorem setSampler (h : d.Moves l p e) (k : Nat) (g : Sampler → Sampler) (hl : .buf ∈ l := by decide) : d.Moves l p (e.setSampler k g) :=
  h.part hl rfl (fun hf => ⟨hf.time, hf.regs, hf.mram, hf.ember⟩) fun x hx => by
    cases x
    case buf => exact absurd rfl hx
    all_goals rfl

theorem setOwner (h : d.Moves l p e) (b : Nat) (r : Option BufRec) (hl : .buf ∈ l := by decide) : d.Moves l p (e.setOwner b r) :=
  h.part hl rfl (fun hf => ⟨hf.time, hf.regs, hf.mram, hf.ember⟩) fun x hx => by
    cases x
    case buf => exact absurd rfl hx
    all_goals rfl

theorem setRule (h : d.Moves l p e) (r : Nat) (g : Rule → Rule) (hl : .pkt ∈ l := by decide) : d.Moves l p (e.setRule r g) :=
  h.part hl rfl (fun hf => ⟨hf.time, hf.regs, hf.mram, hf.ember⟩) fun x hx => by
    cases x
    case pkt => exact absurd rfl hx
    all_goals rfl

theorem setTrans (h : d.Moves l p e) (g : Trans → Trans) (hl : .pwr ∈ l := by decide) : d.Moves l p (e.setTrans g) :=
  h.part hl rfl (fun hf => ⟨hf.time, hf.regs, hf.mram, hf.ember⟩) fun x hx => by
    cases x
    case pwr => exact absurd rfl hx
    all_goals rfl

theorem setReload (h : d.Moves l p e) (r : Option Reload) (hl : .img ∈ l := by decide) : d.Moves l p (e.setReload r) :=
  h.part hl rfl (fun hf => ⟨hf.time, hf.regs, hf.mram, hf.ember⟩) fun x hx => by
    cases x
    case img => exact absurd rfl hx
    all_goals rfl

theorem setFree (h : d.Moves l p e) (n : Nat) (hl : .free ∈ l := by decide) : d.Moves l p ({ e with free := n }) :=
  h.part hl rfl (fun hf => ⟨hf.time, hf.regs, hf.mram, hf.ember⟩) fun x hx => by
    cases x
    case free => exact absurd rfl hx
    all_goals rfl

theorem setReclaim (h : d.Moves l p e) (c : List Nat) (hl : .reclaim ∈ l := by decide) : d.Moves l p ({ e with reclaim := c }) :=
  h.part hl rfl (fun hf => ⟨hf.time, hf.regs, hf.mram, hf.ember⟩) fun x hx => by
    cases x
    case reclaim => exact absurd rfl hx
    all_goals rfl

theorem setWl (h : d.Moves l p e) (w : Nat) (g : WlTime → WlTime) (hl : .time ∈ l := by decide) : d.Moves l p (e.setWl w g) :=
  h.setTime _ (fun ht => by split <;> exact ht) hl

theorem setSt (h : d.Moves l p e) (c n : Nat) (hp : p (R.hrtPwrCord c)) : d.Moves l p (e.setSt c n) := h.set _ _ hp

theorem msixSend (h : d.Moves l p e) (v : Nat) (ho : .out ∈ l := by decide) (hh : .msixHeld ∈ l := by decide) : d.Moves l p (e.msixSend v) := by
  unfold Dev.msixSend
  split
  · exact h.emit _ ho
  · split
    · exact h
    · exact h.part hh rfl (fun hf => ⟨hf.time, hf.regs, hf.mram, hf.ember⟩) fun x hx => by
        cases x
        case msixHeld => exact absurd rfl hx
        all_goals rfl

theorem ashAdd (h : d.Moves l p e) (kind evt code : Nat) (data : List Byte) (from_ : List Nat) (hl : .ash ∈ l := by decide) :
    d.Moves l p (e.ashAdd kind evt code data from_) := by
  have key : ∀ a : AshSt, d.Moves l p { e with ash := a } := fun a => h.part hl rfl (fun hf => ⟨hf.time, hf.regs, hf.mram, hf.ember⟩) fun x hx => by
    cases x
    case ash => exact absurd rfl hx
    all_goals rfl
  unfold Dev.ashAdd
  dsimp only
  split
  · exact key _
  · split
    · exact key _
    · exact key _

/-- The parts that an event may change. -/
def evtParts : List Part := [.out, .ash, .msixHeld]

theorem raiseWords (h : d.Moves l p e) (n : Nat) (det : List Word) (from_ : List Nat) (hp : ∀ a ∈ evtRegs n, p a) (hl : ∀ x ∈ evtParts, x ∈ l := by decide) :
    d.Moves l p (e.raiseWords n det from_) := by
  obtain ⟨ho, ha, hh⟩ : Part.out ∈ l ∧ Part.ash ∈ l ∧ Part.msixHeld ∈ l := ⟨hl _ (by decide), hl _ (by decide), hl _ (by decide)⟩
  unfold Dev.raiseWords
  split
  · exact h
  · unfold Dev.groupEdge Dev.evtMark
    refine ((((h.when _ _ fun x => ?_).count _ _ ?_).set _ _ ?_).when _ _ fun x => (refl l p x).ashAdd _ _ _ _ _ ha).when _ _ fun x => (refl l p x).msixSend _ ho hh
    · exact ((refl l p x).set _ _ (hp _ (by simp [evtRegs, F.hrtEvtSrcFirstnsValue]))).set _ _ (hp _ (by simp [evtRegs, F.hrtEvtSrcFirstwValue]))
    · exact hp _ (by simp [evtRegs, F.hrtEvtSrcCtlCount])
    · exact hp _ (by simp [evtRegs, F.hrtEvtSrcCtlStat])

theorem raise (h : d.Moves l p e) (n : Nat) (addrs : List Nat) (hp : ∀ a ∈ evtRegs n, p a) (hl : ∀ x ∈ evtParts, x ∈ l := by decide) :
    d.Moves l p (e.raise n addrs) := h.raiseWords n _ _ hp hl

theorem get (h : d.Moves l p e) {g : Fld} (hg : ¬ p g.addr) : e.get g = d.get g := congrArg g.of (h.regs _ hg)

end Dev.Moves

end Sys2Proof.Machine
end

section
/-!
PROOFS. Cord commands of the host (R390, R393).
-/

namespace Sys2Proof.Machine

set_option Elab.async false

/-! ### Writes that a command of the system cord refuses -/

theorem Dev.applyWrite_stored {d : Dev} {a : Nat} {r : RegAt} (hctl : r.row.name ≠ .hrtEvtSrcCtl) (hup : d.ringsUp a) (fz : Fuses) (v : Word)
    (written : List (BitVec 64)) : d.applyWrite fz a r v written = (d.setReg a (r.row.merge (d.reg a) v)).writeGo fz r (d.reg a) v written := by
  unfold Dev.applyWrite
  unfold Dev.ringsUp at hup
  simp only [hup, Bool.false_eq_true, if_false, hctl]

/-- A host write that its command refuses ends with its code, recorded (R456, R457). -/
theorem State.write_refused {s : State} {a : Nat} {u : Dev → Word} {v : Word} {written : List (BitVec 64)} {o : Host.Outcome State Fault Refusal}
    {P : State → Prop} {r : RegAt} {g : Dev → Dev} {c : Nat} (hs : s.dev.out = []) (ho : o = s.run fun fz d => d.arrive fz a 4 (some (u d)) written)
    (hu : u s.dev = v) (ht : s.dev.Takes a v) (he : emberOfs a = none) (hr : decodeAddr a = some r) (h0 : c ≠ 0) (h4 : c ≠ 4) (h5 : c ≠ 5)
    (hg : ∀ l, (s.dev.setWaiting l).sysWrite s.fuses a r v written = (g (s.dev.setWaiting l), c))
    (h : ∀ l t, ((((g (s.dev.setWaiting l)).accessError c a true).emit (.writeDone a c)).setWaiting []).EndsAs t.dev →
      t.outputs.head? = some (.writeDone a c) → P t) : ∃ t, o = .next t ∧ P t := by
  obtain ⟨l, hl⟩ := Dev.arrive_write_of_answers ht.answers s.fuses v written
  have hcode : (s.dev.setWaiting l).writeCode a r v true = 0 := (Dev.writeCode_setWaiting _ _ _ _ _ _).trans (ht.code hr)
  have hpath : (s.dev.setWaiting l).pathCode a 4 = 0 := (Dev.pathCode_setWaiting _ _ _ _).trans ht.answers.pathCode
  have hcord : (c == 4 || c == 5) = false := by simp [h4, h5]
  have hacc : (s.dev.setWaiting l).writeAccess s.fuses a 4 v written = ((g (s.dev.setWaiting l)).accessError c a true).emit (.writeDone a c) := by
    simp [Dev.writeAccess, hpath, he, hr, Dev.regWrite, hcode, hg l, h0, Dev.accessFailed, hcord]
  rw [hacc] at hl
  refine State.run_ends hs ho fun t hends hout _ => h l t ?_ ?_
  · rwa [hu, hl] at hends
  · rw [hout, hu, hl]
    rfl

/-! ### Cord commands (R390, R393) -/

def cordFields : List FieldRow :=
  [⟨0, 3, .ro, .any⟩, ⟨4, 2, .ro, .any⟩, ⟨6, 1, .ro, .any⟩, ⟨8, 8, .rw, (.nat 1 100)⟩, ⟨16, 8, .rc, .any⟩, ⟨24, 2, .wo, .any⟩]

theorem cordFields_sound : FieldRow.sound cordFields := by simp [FieldRow.sound, FieldRow.clear, cordFields]

theorem decodeAddr_hrtPwrCord (c : Fin 13) (hc : 1 ≤ c.val) :
    ∃ r, decodeAddr (R.hrtPwrCord c) = some r ∧ r.row.name = .hrtPwrCord ∧ r.i + 1 = c ∧ r.row.fields = cordFields := by
  have h : (decodeAddr (R.hrtPwrCord c)).map (fun r => (r.row.name, r.i + 1, r.row.fields)) = some (.hrtPwrCord, c.val, cordFields) := by
    revert hc; revert c; decide +kernel
  simpa [Option.map_eq_some_iff] using h

theorem emberOfs_hrt {a : Nat} (h : a < 0x80000) : emberOfs a = none := by
  unfold emberOfs
  exact if_neg (by omega)

theorem Dev.withField_cordCmd (d : Dev) (c x : Nat) : (F.hrtPwrCordCmd c).of (d.withField (F.hrtPwrCordCmd c) x) = x % 4 :=
  Fld.of_put _ _ _ (by simp [F.hrtPwrCordCmd])

/-- A cord command that no check refuses: the device as its write leaves it, and the command's effect. -/
theorem State.cordCmd_takes {s : State} {c : Fin 13} {x : Nat} {P : State → Prop} (hs : s.dev.out = []) (hc : 1 ≤ c.val)
    (ht : s.dev.Takes (R.hrtPwrCord c) (s.dev.withField (F.hrtPwrCordCmd c) x))
    (hok : s.dev.cordCmdCheck c (s.dev.withField (F.hrtPwrCordCmd c) x) = 0)
    (h : ∀ (e : Dev) (t : State), s.dev.Only [R.hrtPwrCord c] [] e → e.cordSt c = s.dev.cordSt c → e.pwr = s.dev.pwr → e.spr = s.dev.spr → e.out = [] →
      (((e.cordCmdGo c (s.dev.withField (F.hrtPwrCordCmd c) x)).emit (.writeDone (R.hrtPwrCord c) 0)).setWaiting []).EndsAs t.dev →
      t.outputs = .writeDone (R.hrtPwrCord c) 0 :: (e.cordCmdGo c (s.dev.withField (F.hrtPwrCordCmd c) x)).out ++ s.outputs → P t) :
    ∃ t, s.hostField (F.hrtPwrCordCmd c) x [] = .next t ∧ P t := by
  obtain ⟨r, hr, hn, hi, hfields⟩ := decodeAddr_hrtPwrCord c hc
  have hlow := R.hrtPwrCord_lt (c := c) (by omega)
  refine State.write_takes (a := R.hrtPwrCord c) (u := fun d => d.withField (F.hrtPwrCordCmd c) x)
    (g := fun d => (d.setReg (R.hrtPwrCord c) (r.row.merge (d.reg (R.hrtPwrCord c)) (s.dev.withField (F.hrtPwrCordCmd c) x))).cordCmdGo c
      (s.dev.withField (F.hrtPwrCordCmd c) x)) hs rfl rfl ht (emberOfs_hrt hlow) hr (fun l => ?_) fun l t hends hout => ?_
  · have hput : (s.dev.setWaiting l).applyWrite s.fuses (R.hrtPwrCord c) r (s.dev.withField (F.hrtPwrCordCmd c) x) []
        = (s.dev.setWaiting l).setReg (R.hrtPwrCord c) (r.row.merge ((s.dev.setWaiting l).reg (R.hrtPwrCord c)) (s.dev.withField (F.hrtPwrCordCmd c) x)) := by
      rw [Dev.applyWrite_stored (by simp [hn]) (Dev.ringsUp_of_lt (by simp only [R.pciRxgBaselo]; omega))]
      simp only [Dev.writeGo, hn]
    have hok' : (s.dev.setWaiting l).cordCmdCheck c (s.dev.withField (F.hrtPwrCordCmd c) x) = 0 := hok
    simp [Dev.sysWrite, hn, hi, hok', hput]
  · refine h _ t ?_ ?_ ?_ ?_ ?_ hends hout
    · exact ((Dev.Only.refl _ _ s.dev).congr (Dev.setWaiting_keeps s.dev l).1).setReg _ (by simp)
    · simp only [Dev.cordSt]
      refine congrArg _ ((Dev.get_setReg_self _ (F.hrtPwrCordSt c) _ rfl).trans ?_)
      rw [RegRow.of_merge_ro hfields cordFields_sound (f := ⟨0, 3, .ro, .any⟩) (by simp [cordFields]) (.inl rfl) rfl rfl]
      rfl
    · rfl
    · rfl
    · exact hs

theorem Dev.Moves.accessError {l : List Part} {p : Nat → Prop} {d e : Dev} (h : d.Moves l p e) (c a : Nat) (wr : Bool) (hp : p R.hrtGlbAerr)
    (hev : ∀ a ∈ evtRegs 0x01, p a) (ha : .aerrAdr ∈ l := by decide) (hl : ∀ x ∈ evtParts, x ∈ l := by decide) : d.Moves l p (e.accessError c a wr) := by
  have hmark : d.Moves l p (e.markAerr c a wr) := by
    unfold Dev.markAerr
    exact ((((h.set _ _ hp).set _ _ hp).setFlag _ _ hp).set _ _ hp).count _ _ hp
  rw [Dev.accessError_eq]
  generalize e.markAerr c a wr = b at *
  have hset : d.Moves l p (b.setAerrAdr a) := hmark.part ha rfl (fun hf => ⟨hf.time, hf.regs, hf.mram, hf.ember⟩) fun x hx => by
    cases x
    case aerrAdr => exact absurd rfl hx
    all_goals rfl
  exact hset.raiseWords _ _ _ hev hl

/-- A cord command that its check refuses ends with code 10 and nothing done (R390, R393). -/
theorem State.cordCmd_refused {s : State} {c : Fin 13} {x : Nat} (hs : s.dev.out = []) (hc : 1 ≤ c.val)
    (ht : s.dev.Takes (R.hrtPwrCord c) (s.dev.withField (F.hrtPwrCordCmd c) x))
    (hno : s.dev.cordCmdCheck c (s.dev.withField (F.hrtPwrCordCmd c) x) = 10) :
    ∃ t, s.hostField (F.hrtPwrCordCmd c) x [] = .next t ∧ t.outputs.head? = some (.writeDone (R.hrtPwrCord c) 10) ∧ t.dev.get F.hrtGlbAerrCode = 10
      ∧ t.dev.pwr = s.dev.pwr ∧ s.dev.Only [R.hrtGlbAerr] [0x01] t.dev := by
  obtain ⟨r, hr, hn, hi, -⟩ := decodeAddr_hrtPwrCord c hc
  refine State.write_refused (a := R.hrtPwrCord c) (u := fun d => d.withField (F.hrtPwrCordCmd c) x) (g := id) hs rfl rfl ht
    (emberOfs_hrt (R.hrtPwrCord_lt (c := c) (by omega))) hr (c := 10) (by decide) (by decide) (by decide) (fun l => ?_) fun l t hends hout => ?_
  · have hno' : (s.dev.setWaiting l).cordCmdCheck c (s.dev.withField (F.hrtPwrCordCmd c) x) = 10 := hno
    simp [Dev.sysWrite, hn, hi, hno']
  · have honly := (s.dev.setWaiting l).accessError_only 10 (R.hrtPwrCord c) true
    have hcode := (s.dev.setWaiting l).accessError_code (c := 10) (by decide) (R.hrtPwrCord c) true
    have hpwr : ((s.dev.setWaiting l).accessError 10 (R.hrtPwrCord c) true).pwr = s.dev.pwr := by
      exact ((Dev.Moves.refl _ _ (s.dev.setWaiting l)).accessError 10 (R.hrtPwrCord c) true (l := .aerrAdr :: Dev.Moves.evtParts)
        (p := fun _ => True) trivial (fun _ _ => trivial)).parts .pwr (by decide)
    simp only [id] at hends
    generalize (s.dev.setWaiting l).accessError 10 (R.hrtPwrCord c) true = e at *
    exact ⟨hout, (hends.get _).trans hcode, hends.same.pwr.trans hpwr, hends.only.2 (((Dev.Only.refl _ _ s.dev).congr (Dev.setWaiting_keeps s.dev l).1).trans honly)⟩

theorem Dev.cordSt_of_get {d : Dev} {c : Nat} (hc : 1 ≤ c) : d.cordSt c = d.get (F.hrtPwrCordSt c) := by
  rw [Dev.cordSt, if_neg (by omega)]

/-- ST as it is set (R389). -/
theorem Dev.cordSt_setSt (d : Dev) {c n : Nat} (hc : 1 ≤ c) (hn : n < 8) : (d.setSt c n).cordSt c = n := by
  rw [Dev.cordSt_of_get hc]
  exact Dev.get_set_lt _ _ (by simp [Fld.fits, F.hrtPwrCordSt]) hn

@[simp] theorem Dev.cordSt_setCordInfo (d : Dev) (c k : Nat) (f : CordSt → CordSt) : (d.setCordInfo c f).cordSt k = d.cordSt k := rfl

theorem Dev.cordInfo_setCordInfo_self (d : Dev) (c : Nat) (f : CordSt → CordSt) : (d.setCordInfo c f).cordInfo c = f (d.cordInfo c) :=
  Tbl.get_modify_self _ _ _ _

namespace Dev.Moves
variable {l : List Part} {p : Nat → Prop} {d e : Dev}

theorem rampNext (h : d.Moves l p e) (w : Nat) (hl : .waves ∈ l := by decide) : d.Moves l p (e.rampNext w) := by
  unfold Dev.rampNext
  split
  · exact h.setWave _ _ hl
  · split
    · exact h
    · split
      · exact h.setWave _ _ hl
      · exact h.when _ _ fun x => (refl l p x).setWave _ _ hl

theorem txRefresh (h : d.Moves l p e) (hp : ∀ a ∈ txRegs, p a) (hl : .waves ∈ l := by decide) : d.Moves l p e.txRefresh := by
  refine ((h.rampNext 0 hl).rampNext 1 hl).each _ _ fun y k hk => (refl l p y).when _ _ fun x => (refl l p x).set _ _ (hp _ ?_)
  simp only [List.mem_cons, List.not_mem_nil, or_false] at hk
  rcases hk with rfl | rfl | rfl <;> simp [txRegs, F.leTxcStatState]

end Dev.Moves

/-- A cord whose drain starts (R393). -/
theorem Dev.startDrain_shows (d : Dev) {c : Nat} (hc : 1 ≤ c) (hc' : c < 0x100) (why : Why) :
    (d.startDrain c why).cordSt c = 6 ∧ ((d.startDrain c why).cordInfo c).why = why := by
  unfold Dev.startDrain
  have hst : (((d.withdraw c).setSt c 6).setCordInfo c fun x => { x with why := why }).cordSt c = 6 := Dev.cordSt_setSt _ hc (by decide)
  have hinfo : ((((d.withdraw c).setSt c 6).setCordInfo c fun x => { x with why := why }).cordInfo c).why = why := by rw [Dev.cordInfo_setCordInfo_self]
  generalize ((d.withdraw c).setSt c 6).setCordInfo c (fun x => { x with why := why }) = e at *
  have hmoves := (Dev.Moves.refl [.waves] (· ∈ txRegs) e).txRefresh fun _ h => h
  refine ⟨(e.txRefresh_only.cordSt_eq hc' fun hm => ?_).trans hst, ?_⟩
  · have := txRegs_range hm
    have := R.hrtPwrCord_lt hc'
    omega
  · rw [Dev.cordInfo, show e.txRefresh.pwr = e.pwr from hmoves.parts .pwr (by decide)]
    exact hinfo

/-- CLEAR of a cord (R390). -/
theorem Dev.clear_shows (d : Dev) {c : Nat} (hc : 1 ≤ c) (hc' : c < 13) :
    let e := (((d.setSt c 0).setCordInfo c fun x => { x with tripped := false, cmd := none }).raise 0x18 [R.hrtPwrCord c])
    e.cordSt c = 0 ∧ d.Raised 0x18 e ∧ d.Only [R.hrtPwrCord c] [0x18] e ∧ e.spr = d.spr := by
  intro e
  have hlow := R.hrtPwrCord_lt (c := c) (by omega)
  have honly : d.Only [R.hrtPwrCord c] [] ((d.setSt c 0).setCordInfo c fun x => { x with tripped := false, cmd := none }) :=
    (Dev.Only.refl _ _ d).set _ _ (by simp [F.hrtPwrCordSt])
  have hst : ((d.setSt c 0).setCordInfo c fun x => { x with tripped := false, cmd := none }).cordSt c = 0 := Dev.cordSt_setSt _ hc (by decide)
  have hspr : ((d.setSt c 0).setCordInfo c fun x => { x with tripped := false, cmd := none }).spr = d.spr := rfl
  subst e
  generalize ((d.setSt c 0).setCordInfo c fun x => { x with tripped := false, cmd := none }) = b at *
  refine ⟨?_, (b.raised_raise _ _ (by decide)).of_ctl ?_ rfl, ?_, (b.raise_quiet _ _).spr.trans hspr⟩
  · rw [Dev.cordSt_of_get hc] at hst ⊢
    exact (Dev.get_raise _ _ _ (.inl hlow)).trans hst
  · exact (honly _ (by simp only [List.mem_singleton, R.hrtEvtSrcCtl, R.hrtPwrCord]; omega) (by simp)).symm
  · exact (Dev.Only.mono (fun _ h => h) (by simp) honly).raise _ _ (by simp)

theorem Dev.role_setRole (d : Dev) {e n : Nat} (hn : n < 8) : (d.setRole e n).role e = n := by
  have hset : (d.set (F.hrtSprEngRole e) n).role e = n := Dev.get_set_lt _ _ (by simp [Fld.fits, F.hrtSprEngRole]) hn
  unfold Dev.setRole Dev.when
  split
  · exact (Dev.get_set_ne _ _ (by simp only [F.hrtSprEngRole, F.hrtSprStatSeasrem, R.hrtSprEng, R.hrtSprStat]; omega)).trans hset
  · exact hset

/-- The registers of the sparing controller that a role or the state of a move shows in. -/
def sprRegs (e : Nat) : List Nat := [R.hrtSprEng e, R.hrtSprStat]

theorem Dev.setRole_only (d : Dev) (e n : Nat) : d.Only (sprRegs e) [] (d.setRole e n) := by
  have h : d.Only (sprRegs e) [] (d.set (F.hrtSprEngRole e) n) := (Dev.Only.refl _ _ d).set _ _ (by simp [sprRegs, F.hrtSprEngRole])
  exact h.when _ _ fun _ => h.set F.hrtSprStatSeasrem 0 (by simp [sprRegs, F.hrtSprStatSeasrem])

theorem Dev.get_sprShow (d : Dev) {f : Fld} (hf : f.addr ≠ R.hrtSprStat) : d.sprShow.get f = d.get f := Dev.get_set_ne _ _ hf

theorem Dev.get_cordWake (d : Dev) (c : Nat) (why : Why) (f : Fld) (hf : f.addr ≠ R.hrtPwrCord c) : (d.cordWake c why).get f = d.get f :=
  (Dev.get_congr (d := d.setSt c 1) rfl f).trans (Dev.get_set_ne _ _ hf)

theorem Dev.cordSt_cordWake (d : Dev) {c : Nat} (hc : 1 ≤ c) (why : Why) : (d.cordWake c why).cordSt c = 1 := Dev.cordSt_setSt d hc (by decide)

/-- CLEAR of an engine that no trip took down: it goes to repair (R393). -/
theorem Dev.clearEngine_repairs {d : Dev} {e : Nat} (he : e < 3) (h : (d.spr1 e).trip = none) :
    (d.clearEngine e).cordSt (1 + e) = 1 ∧ (d.clearEngine e).role e = 2 ∧ d.Only (R.hrtPwrCord (1 + e) :: sprRegs e) [] (d.clearEngine e) := by
  unfold Dev.clearEngine
  simp only [h]
  have hregs : (d.setSpr1 e fun x => { x with trip := none, broken := false, loading := false }).regs = d.regs := rfl
  generalize d.setSpr1 e (fun x => { x with trip := none, broken := false, loading := false }) = b at *
  have hrole := b.role_setRole (e := e) (n := 2) (by decide)
  have honly := b.setRole_only e 2
  generalize b.setRole e 2 = c at *
  have hst := Dev.cordSt_cordWake c (c := 1 + e) (by omega) .sparing
  have hget : ∀ f : Fld, f.addr ≠ R.hrtPwrCord (1 + e) → (c.cordWake (1 + e) .sparing).get f = c.get f := c.get_cordWake _ _
  have hwake : c.Only (R.hrtPwrCord (1 + e) :: sprRegs e) [] (c.cordWake (1 + e) .sparing) := (Dev.Only.refl _ _ c).set _ _ (by simp [F.hrtPwrCordSt])
  generalize c.cordWake (1 + e) .sparing = x at *
  have hshow : x.Only (R.hrtPwrCord (1 + e) :: sprRegs e) [] x.sprShow := (Dev.Only.refl _ _ x).set _ _ (by simp [sprRegs, F.hrtSprStatState])
  refine ⟨?_, ?_, (((Dev.Only.refl _ _ d).congr hregs).trans (honly.mono (fun _ h => List.mem_cons_of_mem _ h) (fun _ h => h))).trans (hwake.trans hshow)⟩
  · rw [Dev.cordSt_of_get (by omega)] at hst ⊢
    refine (x.get_sprShow ?_).trans hst
    simp only [F.hrtPwrCordSt, R.hrtSprStat, R.hrtPwrCord]
    omega
  · rw [Dev.role] at hrole ⊢
    refine (x.get_sprShow ?_).trans ((hget _ ?_).trans hrole)
    · simp only [F.hrtSprEngRole, R.hrtSprStat, R.hrtSprEng]
      omega
    · simp only [F.hrtSprEngRole, R.hrtPwrCord, R.hrtSprEng]
      omega

/-- Settles O47: the host's commands on cords, run or refused. -/
theorem cordCommandsRun : Obligations.CordCommandsRun := by
  refine ⟨?_, ?_, ?_, ?_, ?_, ?_, ?_⟩
  · intro c
    refine State.of_sent ?_ fun s h => by simp -implicitDefEqProofs only [Dev.withField_setOut, Dev.takes_setOut] at h; exact h
    intro s hs ht h4 h11 htrans hst
    refine State.cordCmd_takes hs (by omega) ht ?_ fun e t honly hcord hpwr hspr hout0 hends hout => ?_
    · simp [Dev.cordCmdCheck, Dev.withField_cordCmd, htrans, hst]
      omega
    · have hgo : e.cordCmdGo c (s.dev.withField (F.hrtPwrCordCmd c) 1) = e.cordWake c .command := by
        simp -implicitDefEqProofs [Dev.cordCmdGo, Dev.withField_cordCmd, hcord, hst]
      rw [hgo] at hends hout
      have hwake := e.cordSt_cordWake (c := c) (by omega) .command
      have hout1 : (e.cordWake c .command).out = e.out := rfl
      have hwhy : ((e.cordWake c .command).cordInfo c).why = .command := by rw [Dev.cordWake, Dev.cordInfo_setCordInfo_self]
      have hon : e.Only [R.hrtPwrCord c] [] (e.cordWake c .command) := (Dev.Only.refl _ _ e).set _ _ (by simp [F.hrtPwrCordSt])
      generalize e.cordWake c .command = x at *
      refine ⟨?_, (hends.cordSt _).trans hwake, ?_, hends.only.2 (honly.trans hon)⟩
      · rw [hout, hout1, hout0]
        rfl
      · rw [Dev.cordInfo, hends.same.pwr]
        exact hwhy
  · intro c
    refine State.of_sent ?_ fun s h => by simp -implicitDefEqProofs only [Dev.withField_setOut, Dev.takes_setOut] at h; exact h
    intro s hs ht h4 h11 htrans hst
    refine State.cordCmd_takes hs (by omega) ht ?_ fun e t honly hcord hpwr hspr hout0 hends hout => ?_
    · simp [Dev.cordCmdCheck, Dev.withField_cordCmd, htrans]
      omega
    · have hgo : e.cordCmdGo c (s.dev.withField (F.hrtPwrCordCmd c) 2) = e.startDrain c .command := by
        rcases hst with h | h <;> simp -implicitDefEqProofs [Dev.cordCmdGo, Dev.withField_cordCmd, hcord, h]
      rw [hgo] at hends hout
      obtain ⟨hdrain, hwhy⟩ := e.startDrain_shows (c := c) (by omega) (by omega) .command
      generalize e.startDrain c .command = x at *
      refine ⟨by rw [hout]; rfl, (hends.cordSt _).trans hdrain, ?_⟩
      rw [Dev.cordInfo, hends.same.pwr]
      exact hwhy
  · intro c
    refine State.of_sent ?_ fun s h => by simp -implicitDefEqProofs only [Dev.withField_setOut, Dev.takes_setOut] at h; exact h
    intro s hs ht hc hno
    refine State.cordCmd_refused hs hc ht ?_
    rcases hno with h | h | h | h | h <;> simp [Dev.cordCmdCheck, Dev.withField_cordCmd, Dev.flag, h, ← Option.ne_none_iff_isSome]
  · intro c
    refine State.of_sent ?_ fun s h => by simp -implicitDefEqProofs only [Dev.withField_setOut, Dev.takes_setOut] at h; exact h
    intro s hs ht hc hno
    refine State.cordCmd_refused hs hc ht ?_
    rcases hno with h | h | h | h | h | h <;> simp [Dev.cordCmdCheck, Dev.withField_cordCmd, Dev.flag, h, ← Option.ne_none_iff_isSome]
  · intro c
    refine State.of_sent ?_ fun s h => by simp -implicitDefEqProofs only [Dev.withField_setOut, Dev.takes_setOut] at h; exact h
    intro s hs ht hc hno
    refine State.cordCmd_refused hs hc ht ?_
    rcases hno with h | h | h | h <;> simp [Dev.cordCmdCheck, Dev.withField_cordCmd, Dev.flag, h, ← Option.ne_none_iff_isSome]
  · intro c
    refine State.of_sent ?_ fun s h => by simp -implicitDefEqProofs only [Dev.withField_setOut, Dev.takes_setOut] at h; exact h
    intro s hs ht h4 h11 htrans hst htrip
    refine State.cordCmd_takes hs (by omega) ht ?_ fun e t honly hcord hpwr hspr hout0 hends hout => ?_
    · simp [Dev.cordCmdCheck, Dev.withField_cordCmd, htrans, hst, Dev.flag, htrip]
      omega
    · have hgo : e.cordCmdGo c (s.dev.withField (F.hrtPwrCordCmd c) 3)
          = ((e.setSt c 0).setCordInfo c fun x => { x with tripped := false, cmd := none }).raise 0x18 [R.hrtPwrCord c] := by
        have : (decide (1 ≤ c.val) && decide (c.val ≤ 3)) = false := by simp; omega
        simp -implicitDefEqProofs [Dev.cordCmdGo, Dev.withField_cordCmd, Dev.cordCleared, this]
      rw [hgo] at hends hout
      obtain ⟨hst', hraised, hon, -⟩ := e.clear_shows (c := c) (by omega) (by omega)
      generalize ((e.setSt c 0).setCordInfo c fun x => { x with tripped := false, cmd := none }).raise 0x18 [R.hrtPwrCord c] = x at *
      refine ⟨by rw [hout]; rfl, (hends.cordSt _).trans hst', hends.raised.2 (hraised.of_ctl ?_ rfl), hends.only.2 ((Dev.Only.mono (fun _ h => h) (by simp) honly).trans hon)⟩
      exact (honly _ (by simp only [List.mem_singleton, R.hrtEvtSrcCtl, R.hrtPwrCord]; omega) (by simp)).symm
  · intro c
    refine State.of_sent ?_ fun s h => by simp -implicitDefEqProofs only [Dev.withField_setOut, Dev.takes_setOut] at h; exact h
    intro s hs ht h1 h3 htrans hst htrip hnone
    refine State.cordCmd_takes hs (by omega) ht ?_ fun e t honly hcord hpwr hspr hout0 hends hout => ?_
    · simp [Dev.cordCmdCheck, Dev.withField_cordCmd, htrans, hst, Dev.flag, htrip]
      omega
    · have hgo : e.cordCmdGo c (s.dev.withField (F.hrtPwrCordCmd c) 3)
          = (((e.setSt c 0).setCordInfo c fun x => { x with tripped := false, cmd := none }).raise 0x18 [R.hrtPwrCord c]).clearEngine (c - 1) := by
        have : (decide (1 ≤ c.val) && decide (c.val ≤ 3)) = true := by simp; omega
        simp -implicitDefEqProofs [Dev.cordCmdGo, Dev.withField_cordCmd, Dev.cordCleared, this]
      rw [hgo] at hends hout
      obtain ⟨-, hraised, -, hspr'⟩ := e.clear_shows (c := c) (by omega) (by omega)
      generalize ((e.setSt c 0).setCordInfo c fun x => { x with tripped := false, cmd := none }).raise 0x18 [R.hrtPwrCord c] = x at *
      have hx : (x.spr1 (c - 1)).trip = none := by rw [Dev.spr1, hspr', hspr]; exact hnone
      obtain ⟨hst', hrole, hon⟩ := Dev.clearEngine_repairs (e := c.val - 1) (by omega) hx
      generalize x.clearEngine (c - 1) = y at *
      refine ⟨by rw [hout]; rfl, ?_, (hends.get _).trans hrole, hends.raised.2 (hraised.of_ctl ?_ ?_)⟩
      · rw [show 1 + (c.val - 1) = c.val by omega] at hst'
        exact (hends.cordSt _).trans hst'
      · exact (honly _ (by simp only [List.mem_singleton, R.hrtEvtSrcCtl, R.hrtPwrCord]; omega) (by simp)).symm
      · exact hon _ (by simp only [sprRegs, List.mem_cons, List.not_mem_nil, or_false, R.hrtEvtSrcCtl, R.hrtPwrCord, R.hrtSprEng, R.hrtSprStat]; omega) (by simp)

end Sys2Proof.Machine
end

section
/-!
PROOFS. Reset, power and clocks (R21 to R25, R34, R409, R423, R470 to R472).
-/

namespace Sys2Proof.Machine

set_option Elab.async false

/-! ### Reset and loss of power (R454, R470 to R472) -/

theorem Tbl.get_filter {α : Type} (d : α) (p : Nat → Bool) (t : Tbl α) (k : Nat) :
    Tbl.get d (t.filter fun x => p x.1) k = if p k then Tbl.get d t k else d := by
  induction t with
  | nil => simp [Tbl.get]
  | cons x t ih =>
    obtain ⟨j, v⟩ := x
    rw [List.filter_cons]
    cases hj : p j with
    | true =>
      simp only [if_true, Tbl.get, ih]
      by_cases h : j = k
      · subst h
        simp [hj]
      · simp [h]
    | false =>
      simp only [Bool.false_eq_true, if_false, Tbl.get, ih]
      by_cases h : j = k
      · subst h
        simp [hj]
      · simp [h]

/-- The cords are off at reset. -/
theorem cordSt_of_cleared {d : Dev} (h : d.regs = []) {c : Nat} (h1 : 1 ≤ c) (h12 : c ≤ 12) : d.cordSt c = 0 := by
  have key : ∀ c : Fin 13, 1 ≤ c.val → (F.hrtPwrCordSt c).of (regReset (R.hrtPwrCord c)) = 0 := by decide +kernel
  rw [Dev.cordSt, if_neg (by omega), Dev.get, Dev.reg, h]
  exact key ⟨c, by omega⟩ h1

/-! ### Firmware (R408, R409) -/

theorem Dev.verifyFw_congr {d e : Dev} (hi : e.img = d.img) (hb : e.blown = d.blown) (fz : Fuses) (k : Nat) : e.verifyFw fz k = d.verifyFw fz k := by
  have hm : ∀ o n, e.mramAt o n = d.mramAt o n := fun o n => by simp only [Dev.mramAt, hi]
  have hs : ∀ base len b, e.sigOk fz base len b = d.sigOk fz base len b := fun base len b => by simp only [Dev.sigOk, Dev.digest, Dev.revoked, hm, hb]
  simp only [Dev.verifyFw, hm, hs, Dev.digest]

namespace Dev.Moves
variable {l : List Part} {p : Nat → Prop} {d e : Dev}

theorem ashNote (h : d.Moves l p e) (code : Nat) (hf : .free ∈ l := by decide) (ha : .ash ∈ l := by decide) : d.Moves l p (e.ashNote code) :=
  (h.setFree _ hf).ashAdd _ _ _ _ _ ha

end Dev.Moves

theorem Dev.ashNote_regs (d : Dev) (code : Nat) : (d.ashNote code).regs = d.regs := by
  unfold Dev.ashNote Dev.ashAdd
  dsimp only
  split
  · rfl
  · split <;> rfl

/-- The status of Hearth once firmware runs. -/
structure Dev.FwRuns (slot reason : Nat) (f : Nat × Nat × List Byte) (d e : Dev) : Prop where
  run : e.get F.hrtHstStatFwrun = 1
  recovery : e.get F.hrtHstStatRecovery = 0
  slot : e.get F.hrtHstStatFwslot = slot
  reason : e.get F.hrtHstStatRstreason = reason
  seq : e.get F.hrtHstFwseqValue = f.1 % 2 ^ 32
  ver : e.get F.hrtHstFwverValue = f.2.1 % 2 ^ 32
  raised : d.Raised 0x00 e
  only : d.Only [R.hrtHstStat, R.hrtHstFwseq, R.hrtHstFwver] [0x00] e
  moves : d.Moves (.free :: Dev.Moves.evtParts) (fun _ => True) e

theorem Dev.runFirmware_shows (d : Dev) {slot reason : Nat} (hslot : slot < 2) (hreason : reason < 16) (f : Nat × Nat × List Byte) :
    d.FwRuns slot reason f (d.runFirmware slot f reason) := by
  unfold Dev.runFirmware
  have hrec : ((((d.set F.hrtHstStatRecovery 0).set F.hrtHstStatFwslot slot).set F.hrtHstFwseqValue f.1).set F.hrtHstFwverValue f.2.1).get
      F.hrtHstStatRecovery = 0 := by
    rw [Dev.get_set_ne _ _ (by decide), Dev.get_set_ne _ _ (by decide), Dev.get_set_apart _ _ _ _ (by simp [Fld.fits, F.hrtHstStatRecovery])
      (by simp [Fld.apart, F.hrtHstStatRecovery, F.hrtHstStatFwslot])]
    exact Dev.get_set_lt _ _ (by simp [Fld.fits, F.hrtHstStatRecovery]) (by decide)
  have hsl : ((((d.set F.hrtHstStatRecovery 0).set F.hrtHstStatFwslot slot).set F.hrtHstFwseqValue f.1).set F.hrtHstFwverValue f.2.1).get
      F.hrtHstStatFwslot = slot := by
    rw [Dev.get_set_ne _ _ (by decide), Dev.get_set_ne _ _ (by decide)]
    exact Dev.get_set_lt _ _ (by simp [Fld.fits, F.hrtHstStatFwslot]) (by simpa [F.hrtHstStatFwslot] using hslot)
  have hseq : ((((d.set F.hrtHstStatRecovery 0).set F.hrtHstStatFwslot slot).set F.hrtHstFwseqValue f.1).set F.hrtHstFwverValue f.2.1).get
      F.hrtHstFwseqValue = f.1 % 2 ^ 32 := by
    rw [Dev.get_set_ne _ _ (by decide)]
    exact Dev.get_set_self _ _ _ (by simp [Fld.fits, F.hrtHstFwseqValue])
  have hver : ((((d.set F.hrtHstStatRecovery 0).set F.hrtHstStatFwslot slot).set F.hrtHstFwseqValue f.1).set F.hrtHstFwverValue f.2.1).get
      F.hrtHstFwverValue = f.2.1 % 2 ^ 32 := by
    generalize ((d.set F.hrtHstStatRecovery 0).set F.hrtHstStatFwslot slot).set F.hrtHstFwseqValue f.1 = a
    exact Dev.get_set_self _ _ _ (by simp [Fld.fits, F.hrtHstFwverValue])
  have honly : d.Only [R.hrtHstStat, R.hrtHstFwseq, R.hrtHstFwver] [] ((((d.set F.hrtHstStatRecovery 0).set F.hrtHstStatFwslot slot).set
      F.hrtHstFwseqValue f.1).set F.hrtHstFwverValue f.2.1) :=
    ((((Dev.Only.refl _ _ d).set _ _ (by decide)).set _ _ (by simp [F.hrtHstStatFwslot])).set _ _ (by simp [F.hrtHstFwseqValue])).set _ _
      (by simp [F.hrtHstFwverValue])
  have hmoves : d.Moves (.free :: Dev.Moves.evtParts) (fun _ => True) ((((d.set F.hrtHstStatRecovery 0).set F.hrtHstStatFwslot slot).set
      F.hrtHstFwseqValue f.1).set F.hrtHstFwverValue f.2.1) :=
    ((((Dev.Moves.refl _ _ d).set _ _ trivial).set _ _ trivial).set _ _ trivial).set _ _ trivial
  generalize (((d.set F.hrtHstStatRecovery 0).set F.hrtHstStatFwslot slot).set F.hrtHstFwseqValue f.1).set F.hrtHstFwverValue f.2.1 = x at *
  unfold Dev.fwStart
  dsimp only
  have hcont : x.Moves (.free :: Dev.Moves.evtParts) (fun _ => True) { x with ash := { x.ash with newest := x.ashScan } } :=
    (Dev.Moves.refl _ _ x).part (k := .ash) (by decide) rfl (fun hf => ⟨hf.time, hf.regs, hf.mram, hf.ember⟩) fun y hy => by
      cases y
      case ash => exact absurd rfl hy
      all_goals rfl
  have hregs : ({ x with ash := { x.ash with newest := x.ashScan } } : Dev).regs = x.regs := rfl
  generalize ({ x with ash := { x.ash with newest := x.ashScan } } : Dev) = y at *
  have hget : ∀ g : Fld, y.get g = x.get g := Dev.get_congr hregs
  have hrun : ((y.set F.hrtHstStatFwrun 1).set F.hrtHstStatRstreason reason).get F.hrtHstStatFwrun = 1 := by
    rw [Dev.get_set_apart _ _ _ _ (by simp [Fld.fits, F.hrtHstStatFwrun]) (by simp [Fld.apart, F.hrtHstStatFwrun, F.hrtHstStatRstreason])]
    exact Dev.get_set_lt _ _ (by simp [Fld.fits, F.hrtHstStatFwrun]) (by decide)
  have hreason' : ((y.set F.hrtHstStatFwrun 1).set F.hrtHstStatRstreason reason).get F.hrtHstStatRstreason = reason :=
    Dev.get_set_lt _ _ (by simp [Fld.fits, F.hrtHstStatRstreason]) hreason
  have hrec' : ((y.set F.hrtHstStatFwrun 1).set F.hrtHstStatRstreason reason).get F.hrtHstStatRecovery = 0 := by
    rw [Dev.get_set_apart _ _ _ _ (by simp [Fld.fits, F.hrtHstStatRecovery]) (by simp [Fld.apart, F.hrtHstStatRecovery, F.hrtHstStatRstreason]),
      Dev.get_set_apart _ _ _ _ (by simp [Fld.fits, F.hrtHstStatRecovery]) (by simp [Fld.apart, F.hrtHstStatRecovery, F.hrtHstStatFwrun]), hget, hrec]
  have hsl' : ((y.set F.hrtHstStatFwrun 1).set F.hrtHstStatRstreason reason).get F.hrtHstStatFwslot = slot := by
    rw [Dev.get_set_apart _ _ _ _ (by simp [Fld.fits, F.hrtHstStatFwslot]) (by simp [Fld.apart, F.hrtHstStatFwslot, F.hrtHstStatRstreason]),
      Dev.get_set_apart _ _ _ _ (by simp [Fld.fits, F.hrtHstStatFwslot]) (by simp [Fld.apart, F.hrtHstStatFwslot, F.hrtHstStatFwrun]), hget, hsl]
  have hkept : ∀ g : Fld, g.addr ≠ R.hrtHstStat → ((y.set F.hrtHstStatFwrun 1).set F.hrtHstStatRstreason reason).get g = x.get g := fun g hg => by
    rw [Dev.get_set_ne _ _ hg, Dev.get_set_ne _ _ hg, hget]
  have honly' : y.Only [R.hrtHstStat, R.hrtHstFwseq, R.hrtHstFwver] [] ((y.set F.hrtHstStatFwrun 1).set F.hrtHstStatRstreason reason) :=
    ((Dev.Only.refl _ _ y).set _ _ (by decide)).set _ _ (by decide)
  have hmoves' : y.Moves (.free :: Dev.Moves.evtParts) (fun _ => True) ((y.set F.hrtHstStatFwrun 1).set F.hrtHstStatRstreason reason) :=
    ((Dev.Moves.refl _ _ y).set _ _ trivial).set _ _ trivial
  generalize (y.set F.hrtHstStatFwrun 1).set F.hrtHstStatRstreason reason = z at *
  have hnote := z.ashNote_regs 1
  have hmoves'' : z.Moves (.free :: Dev.Moves.evtParts) (fun _ => True) (z.ashNote 1) := (Dev.Moves.refl _ _ z).ashNote 1
  generalize z.ashNote 1 = u at *
  have hget' : ∀ g : Fld, g.addr < 0x80000 → (u.raise 0x00 [R.hrtHstStat]).get g = z.get g := fun g hg =>
    (Dev.get_raise _ _ _ (.inl hg)).trans (Dev.get_congr hnote g)
  have hall : d.Only [R.hrtHstStat, R.hrtHstFwseq, R.hrtHstFwver] [] u := ((honly.congr hregs).trans honly').congr hnote
  refine ⟨(hget' _ (by decide)).trans hrun, (hget' _ (by decide)).trans hrec', (hget' _ (by decide)).trans hsl', (hget' _ (by decide)).trans hreason',
    (hget' _ (by decide)).trans ((hkept _ (by decide)).trans hseq), (hget' _ (by decide)).trans ((hkept _ (by decide)).trans hver), ?_, ?_, ?_⟩
  · exact (u.raised_raise _ _ (by decide)).of_ctl (hall _ (by decide) (by simp)).symm rfl
  · exact (hall.mono (fun _ h => h) (by simp)).raise _ _ (by simp)
  · exact (hmoves.trans (hcont.trans (hmoves'.trans hmoves''))).raise _ _ (fun _ _ => trivial)

/-! ### Clocks (R21 to R23, R423) -/

theorem Dev.get_clkF_set_self (d : Dev) (f : Fld) (m x : Nat) (hf : f.lsb + m < 32) (hx : x < 2) : (d.set (clkF f m) x).get (clkF f m) = x :=
  Dev.get_set_lt _ _ (by simp only [Fld.fits, clkF]; omega) (by simpa [clkF] using hx)

/-- What a clock monitor that finds its clock good shows. -/
theorem Dev.clkGood_shows (d : Dev) {m : Nat} (hm : m < 4) : (d.clkGood m).get (clkF F.hrtSnsStatClkok m) = 1 ∧ d.Only [R.hrtSnsStat] [] (d.clkGood m)
    ∧ (d.clkGood m).time = d.time := by
  refine ⟨Dev.get_clkF_set_self _ _ _ _ ?_ (by decide), (Dev.Only.refl _ _ d).set _ _ (by simp [clkF, F.hrtSnsStatClkok]), rfl⟩
  simp only [F.hrtSnsStatClkok]
  omega

/-- What a clock monitor that enters its fault shows. -/
theorem Dev.clkFault_shows (d : Dev) {m : Nat} (hm : m < 4) (h : m ∉ d.pwr.clkBad) :
    (d.clkFault m).get (clkF F.hrtSnsStatClkok m) = 0 ∧ (d.clkFault m).get (clkF F.hrtSnsStatClkstk m) = 1 ∧ d.Raised 0x06 (d.clkFault m)
      ∧ d.Only [R.hrtSnsStat] [0x06] (d.clkFault m) ∧ (d.clkFault m).time = d.time := by
  have hc : d.pwr.clkBad.contains m = false := by simpa using h
  have hdef : d.clkFault m = (((d.setPwr fun p => { p with clkBad := p.clkBad ++ [m] }).set (clkF F.hrtSnsStatClkok m) 0).set (clkF F.hrtSnsStatClkstk m) 1).raise 0x06
      [R.hrtSnsStat] := by
    rw [Dev.clkFault, hc]
    rfl
  rw [hdef]
  have hregs : (d.setPwr fun p => { p with clkBad := p.clkBad ++ [m] }).regs = d.regs := rfl
  have htime : (d.setPwr fun p => { p with clkBad := p.clkBad ++ [m] }).time = d.time := rfl
  generalize (d.setPwr fun p => { p with clkBad := p.clkBad ++ [m] }) = a at *
  have hok : ((a.set (clkF F.hrtSnsStatClkok m) 0).set (clkF F.hrtSnsStatClkstk m) 1).get (clkF F.hrtSnsStatClkok m) = 0 := by
    rw [Dev.get_set_apart _ _ _ _ (by simp only [Fld.fits, clkF, F.hrtSnsStatClkok]; omega) (by simp only [Fld.apart, clkF, F.hrtSnsStatClkok, F.hrtSnsStatClkstk]; omega)]
    exact Dev.get_clkF_set_self _ _ _ _ (by simp only [F.hrtSnsStatClkok]; omega) (by decide)
  have hstk := (a.set (clkF F.hrtSnsStatClkok m) 0).get_clkF_set_self F.hrtSnsStatClkstk m 1 (by simp only [F.hrtSnsStatClkstk]; omega) (by decide)
  have hst : a.Stores [R.hrtSnsStat] ((a.set (clkF F.hrtSnsStatClkok m) 0).set (clkF F.hrtSnsStatClkstk m) 1) :=
    ((Dev.Stores.refl _ a).set _ _ (by simp [clkF, F.hrtSnsStatClkok])).set _ _ (by simp [clkF, F.hrtSnsStatClkstk])
  generalize (a.set (clkF F.hrtSnsStatClkok m) 0).set (clkF F.hrtSnsStatClkstk m) 1 = b at *
  have hget : ∀ f : Fld, f.addr = R.hrtSnsStat → (b.raise 0x06 [R.hrtSnsStat]).get f = b.get f := fun f hf => Dev.get_raise _ _ _ (.inl (hf ▸ by decide))
  refine ⟨(hget _ rfl).trans hok, (hget _ rfl).trans hstk, (b.raised_raise _ _ (by decide)).of_ctl ?_ rfl, ?_, ?_⟩
  · rw [hst.only _ (by decide) (by simp), Dev.reg_congr hregs]
  · exact ((((Dev.Only.refl [R.hrtSnsStat] [] d).congr hregs).trans hst.only).mono (fun _ h => h) (by simp)).raise _ _ (by simp)
  · rw [(b.raise_quiet _ _).time, hst.same.time, htime]

/-- Hearth's clock is the best one there is (R21). -/
theorem Dev.hearthClock_shows (d : Dev) :
    d.hearthClock.get F.hrtClkStatHrtsrc = (if d.get F.hrtClkStatRootlock = 1 then 2 else if d.get F.hrtClkStatRefok = 1 then 1 else 0)
      ∧ d.Stores [R.hrtClkStat] d.hearthClock
      ∧ (∀ f : Fld, f.fits → F.hrtClkStatHrtsrc.apart f → d.hearthClock.get f = d.get f) := by
  have hflag : ∀ f : Fld, f.width = 1 → (d.flag f = true ↔ d.get f = 1) := fun f hf => by
    have := d.get_lt f
    rw [hf] at this
    simp only [Dev.flag, bne_iff_ne]
    omega
  refine ⟨?_, (Dev.Stores.refl _ d).set _ _ (by decide), fun f hf ha => Dev.get_set_apart _ _ _ _ hf ha⟩
  refine (Dev.get_set_lt _ _ (by simp [Fld.fits, F.hrtClkStatHrtsrc]) ?_).trans ?_
  · simp only [F.hrtClkStatHrtsrc]
    split
    · decide
    · split <;> decide
  · simp only [hflag F.hrtClkStatRootlock rfl, hflag F.hrtClkStatRefok rfl]

theorem Dev.aim_keeps (d : Dev) : d.aim.regs = d.regs ∧ d.aim.time.frozen = d.time.frozen := by
  unfold Dev.aim
  cases d.serving (d.get F.hrtClkDiscSrc) with
  | none => exact ⟨rfl, rfl⟩
  | some e => exact ⟨rfl, rfl⟩

/-- The fields of CLK_STAT that disciplining has nothing to do with. -/
def clkLow (f : Fld) : Prop := f.addr = R.hrtClkStat ∧ (f.lsb + f.width ≤ 4 ∨ (8 ≤ f.lsb ∧ f.lsb + f.width ≤ 10))

/-- What disciplining may change (R23, R24). -/
theorem Dev.discipline_shows (d : Dev) : d.Only [R.hrtClkStat] [] d.discipline ∧ d.discipline.time.frozen = d.time.frozen
    ∧ ∀ f : Fld, clkLow f → d.discipline.get f = d.get f := by
  let Q (e : Dev) : Prop := d.Only [R.hrtClkStat] [] e ∧ e.time.frozen = d.time.frozen ∧ ∀ f : Fld, clkLow f → e.get f = d.get f
  have hset : ∀ (e : Dev) (g : Fld) (x : Nat), g.addr = R.hrtClkStat → (4 ≤ g.lsb ∧ g.lsb + g.width ≤ 8 ∨ 10 ≤ g.lsb) → Q e → Q (e.set g x) := fun e g x hg hr ⟨h1, h2, h3⟩ =>
    ⟨h1.set _ _ (by simp [hg]), h2, fun f ⟨hf, hb⟩ => (Dev.get_set_apart _ _ _ _ (by simp only [Fld.fits]; omega) (by simp only [Fld.apart]; omega)).trans (h3 f ⟨hf, hb⟩)⟩
  have h1 : ∀ a b : Bool, Q ((d.setFlag F.hrtClkStatDiscact a).setFlag F.hrtClkStatDischold b) := fun a b =>
    hset _ _ _ rfl (.inl (by decide)) (hset _ _ _ rfl (.inl (by decide)) ⟨Dev.Only.refl _ _ d, rfl, fun _ _ => rfl⟩)
  have haim : ∀ e, Q e → Q e.aim := fun e ⟨h1, h2, h3⟩ =>
    ⟨h1.congr e.aim_keeps.1, e.aim_keeps.2.trans h2, fun f hf => (Dev.get_congr e.aim_keeps.1 f).trans (h3 f hf)⟩
  have hwhen : ∀ (e : Dev) (c : Bool) (g : Dev → Dev), Q e → (∀ x, Q x → Q (g x)) → Q (e.when c g) := fun e c g he hg => by
    cases c
    · exact he
    · exact hg e he
  unfold Dev.discipline
  exact hwhen _ _ _ (hwhen _ _ _ (h1 _ _) haim) fun x hx => hset x _ _ rfl (.inr (by decide)) hx

theorem Dev.showSteer_shows (d : Dev) (v : Int) : (d.showSteer v).steering = max (-800000) (min 800000 v) ∧ d.Only [R.hrtClkSteer, R.hrtClkStat] [] (d.showSteer v)
    ∧ (d.showSteer v).time = d.time ∧ ∀ f : Fld, f.addr ≠ R.hrtClkSteer → f.fits → F.hrtClkStatDisclim.apart f → (d.showSteer v).get f = d.get f := by
  unfold Dev.showSteer
  dsimp only
  refine ⟨?_, ((Dev.Only.refl _ _ d).setInt _ _ (by decide)).setFlag _ _ (by decide), rfl, fun f hf hfit ha => ?_⟩
  · have hfit : F.hrtClkSteerSteer.fits := by simp [Fld.fits, F.hrtClkSteerSteer]
    rw [Dev.steering, Dev.getInt, Dev.get_setFlag_apart _ _ _ _ hfit (.inl (by decide)), ← Dev.getInt, Dev.getInt_setInt_self _ _ hfit (by decide)]
    · simp only [F.hrtClkSteerSteer]; omega
    · simp only [F.hrtClkSteerSteer]; omega
  · rw [Dev.get_setFlag_apart _ _ _ _ hfit ha]
    exact Dev.get_set_ne _ _ hf

/-- Fields of registers of their own, set one after the other. -/
theorem Dev.each_set_shows (f : Nat → Fld) (x : Nat → Nat) (hfits : ∀ i, (f i).fits) (hne : ∀ i j, i ≠ j → (f i).addr ≠ (f j).addr) (l : List Nat) (d : Dev) :
    (∀ i ∈ l, (d.each l fun d i => d.set (f i) (x i)).get (f i) = x i % 2 ^ (f i).width)
      ∧ d.Moves [] (fun a => ∃ i ∈ l, a = (f i).addr) (d.each l fun d i => d.set (f i) (x i)) := by
  refine ⟨?_, (Dev.Moves.refl _ _ d).each _ _ fun y k hk => (Dev.Moves.refl _ _ y).set _ _ ⟨k, hk, rfl⟩⟩
  induction l generalizing d with
  | nil => simp
  | cons j t ih =>
    intro i hi
    rw [Dev.each_cons]
    by_cases ht : i ∈ t
    · exact ih _ i ht
    · obtain rfl : i = j := by simpa [ht] using hi
      have hm : (d.set (f i) (x i)).Moves [] (fun a => ∃ k ∈ t, a = (f k).addr) ((d.set (f i) (x i)).each t fun d i => d.set (f i) (x i)) :=
        (Dev.Moves.refl _ _ _).each _ _ fun y k hk => (Dev.Moves.refl _ _ y).set _ _ ⟨k, hk, rfl⟩
      rw [hm.get fun ⟨k, hk, he⟩ => hne i k (fun h => ht (h ▸ hk)) he]
      exact Dev.get_set_self _ _ _ (hfits i)

theorem Dev.fwSelect_first {fz : Fuses} {d : Dev} {f : Nat × Nat × List Byte} (ha : d.verifyFw fz 0 = some f) (hb : d.verifyFw fz 1 = none) (reason : Nat) :
    d.fwSelect fz reason = (d.setFlag F.hrtHstStatFwdisp false).runFirmware 0 f reason := by
  unfold Dev.fwSelect
  rw [ha, hb]
  rfl

theorem Dev.fwSelect_none {fz : Fuses} {d : Dev} (ha : d.verifyFw fz 0 = none) (hb : d.verifyFw fz 1 = none) (reason : Nat) :
    d.fwSelect fz reason = (d.set F.hrtHstStatFwrun 0).set F.hrtHstStatRecovery 1 := by
  unfold Dev.fwSelect
  rw [ha, hb]
  rfl

/-- The device that leaves reset, before its firmware is chosen (R34, R417, R423). -/
def Dev.risen (fz : Fuses) (d : Dev) (straps : Nat) : Dev :=
  ({ d with inReset := false, powered := true, straps := straps }.set F.hrtSmbStatAddr (0x58 + straps)).each (List.range 16) fun d i =>
    d.set (F.hrtSnsRailNom i) (fz.rails.getD i 0)

theorem Dev.risen_shows (fz : Fuses) (d : Dev) {straps : Nat} (h : straps < 4) :
    (d.risen fz straps).get F.hrtSmbStatAddr = 0x58 + straps ∧ (d.risen fz straps).inReset = false ∧ (d.risen fz straps).powered = true
      ∧ (∀ i < 16, (d.risen fz straps).get (F.hrtSnsRailNom i) = fz.rails.getD i 0 % 2 ^ 16) ∧ (d.risen fz straps).img = d.img
      ∧ (d.risen fz straps).blown = d.blown ∧ (d.risen fz straps).reg (R.hrtEvtSrcCtl 0) = d.reg (R.hrtEvtSrcCtl 0) := by
  unfold Dev.risen
  obtain ⟨hr, hp, himg, hblown, hregs⟩ : ({ d with inReset := false, powered := true, straps := straps } : Dev).inReset = false
      ∧ ({ d with inReset := false, powered := true, straps := straps } : Dev).powered = true
      ∧ ({ d with inReset := false, powered := true, straps := straps } : Dev).img = d.img
      ∧ ({ d with inReset := false, powered := true, straps := straps } : Dev).blown = d.blown
      ∧ ({ d with inReset := false, powered := true, straps := straps } : Dev).regs = d.regs := ⟨rfl, rfl, rfl, rfl, rfl⟩
  generalize ({ d with inReset := false, powered := true, straps := straps } : Dev) = y at *
  have haddr : (y.set F.hrtSmbStatAddr (0x58 + straps)).get F.hrtSmbStatAddr = 0x58 + straps :=
    Dev.get_set_lt _ _ (by simp [Fld.fits, F.hrtSmbStatAddr]) (by simp only [F.hrtSmbStatAddr]; omega)
  have hset : y.Moves [] (· = R.hrtSmbStat) (y.set F.hrtSmbStatAddr (0x58 + straps)) := (Dev.Moves.refl _ _ y).set _ _ rfl
  generalize y.set F.hrtSmbStatAddr (0x58 + straps) = a at *
  obtain ⟨hvals, hmoves⟩ := Dev.each_set_shows F.hrtSnsRailNom (fun i => fz.rails.getD i 0) (fun i => by simp [Fld.fits, F.hrtSnsRailNom])
    (fun i j hij => by simp only [F.hrtSnsRailNom, R.hrtSnsRail]; omega) (List.range 16) a
  generalize (a.each (List.range 16) fun d i => d.set (F.hrtSnsRailNom i) (fz.rails.getD i 0)) = b at *
  have hlow : ∀ x, (∃ i ∈ List.range 16, x = (F.hrtSnsRailNom i).addr) → 0x60000 ≤ x ∧ x < 0x61000 := by
    rintro x ⟨i, hi, rfl⟩
    simp only [List.mem_range] at hi
    simp only [F.hrtSnsRailNom, R.hrtSnsRail]
    omega
  refine ⟨?_, (hmoves.parts .inReset (by decide)).trans ((hset.parts .inReset (by decide)).trans hr), ?_, fun i hi => hvals i (List.mem_range.2 hi), ?_, ?_, ?_⟩
  · rw [hmoves.get fun hx => absurd (hlow _ hx) (by decide), haddr]
  · exact (hmoves.parts .powered (by decide)).trans ((hset.parts .powered (by decide)).trans hp)
  · exact (hmoves.parts .img (by decide)).trans ((hset.parts .img (by decide)).trans himg)
  · exact (hmoves.parts .blown (by decide)).trans ((hset.parts .blown (by decide)).trans hblown)
  · rw [hmoves.regs _ fun hx => absurd (hlow _ hx) (by decide), hset.regs _ (by decide), Dev.reg_congr hregs]

/-- The reference clock is back (R21). -/
def Dev.refclkBack (d : Dev) : Dev := ((d.set F.hrtClkStatRefok 1).clkGood 0).hearthClock

theorem Dev.refclkBack_shows (d : Dev) : d.refclkBack.get F.hrtClkStatRefok = 1 ∧ d.refclkBack.get (clkF F.hrtSnsStatClkok 0) = 1
    ∧ d.refclkBack.get F.hrtClkStatHrtsrc = (if d.get F.hrtClkStatRootlock = 1 then 2 else 1)
    ∧ d.Only [R.hrtClkStat, R.hrtSnsStat] [] d.refclkBack ∧ d.refclkBack.time = d.time := by
  unfold Dev.refclkBack
  have hset : (d.set F.hrtClkStatRefok 1).get F.hrtClkStatRefok = 1 := Dev.get_set_lt _ _ (by simp [Fld.fits, F.hrtClkStatRefok]) (by decide)
  have hroot : (d.set F.hrtClkStatRefok 1).get F.hrtClkStatRootlock = d.get F.hrtClkStatRootlock :=
    Dev.get_set_apart _ _ _ _ (by simp [Fld.fits, F.hrtClkStatRootlock]) (by simp [Fld.apart, F.hrtClkStatRootlock, F.hrtClkStatRefok])
  have hst : d.Stores [R.hrtClkStat] (d.set F.hrtClkStatRefok 1) := (Dev.Stores.refl _ d).set _ _ (by decide)
  generalize d.set F.hrtClkStatRefok 1 = a at *
  obtain ⟨hok, hon, htime⟩ := a.clkGood_shows (m := 0) (by decide)
  have hget : ∀ f : Fld, f.addr = R.hrtClkStat → (a.clkGood 0).get f = a.get f := fun f hf => congrArg f.of (hon _ (by rw [hf]; decide) (by simp))
  generalize a.clkGood 0 = b at *
  obtain ⟨hsrc, hstb, hkeep⟩ := b.hearthClock_shows
  generalize b.hearthClock = c at *
  refine ⟨?_, ?_, ?_, ?_, ?_⟩
  · rw [hkeep _ (by simp [Fld.fits, F.hrtClkStatRefok]) (by simp [Fld.apart, F.hrtClkStatRefok, F.hrtClkStatHrtsrc]), hget _ rfl, hset]
  · rw [hkeep _ (by simp [Fld.fits, clkF, F.hrtSnsStatClkok]) (.inl (by decide)), hok]
  · rw [hsrc, hget _ rfl, hget _ rfl, hset, hroot]
    rfl
  · exact (Dev.Only.mono (by simp) (by simp) hst.only).trans ((Dev.Only.mono (by simp) (by simp) hon).trans (Dev.Only.mono (by simp) (by simp) hstb.only))
  · rw [hstb.same.time, htime, hst.same.time]

/-- Settles O54: reset, power and clocks. -/
theorem deviceStartsAndStops : Obligations.DeviceStartsAndStops := by
  refine ⟨?_, ?_, ?_, ?_, ?_, ?_, ?_, ?_, ?_⟩
  · intro ns
    refine State.of_sent ?_ fun _ h => h
    intro s hs hns hpow
    simp only [exec, execDeviceReset]
    rw [if_neg (by omega)]
    refine State.run_ends hs rfl fun t ht hout hfz => ?_
    simp only [hpow, decide_eq_true hns, Bool.and_self, Dev.when_true] at ht
    have hbytes : ∀ k, Tbl.get 0 (s.dev.cleared fun b => decide (4 ≤ b)).ember.bytes k = if 4 ≤ k / 2 ^ 21 then Tbl.get 0 s.dev.ember.bytes k else 0 := fun k => by
      have := Tbl.get_filter (0 : Byte) (fun k => decide (4 ≤ k / 2 ^ 21)) s.dev.ember.bytes k
      simp only [decide_eq_true_eq] at this
      exact this
    refine ⟨ht.same.inReset, ht.regs, ht.same.waiting, ht.same.time, ?_, ht.same.blown, fun c => cordSt_of_cleared ht.regs, fun b o hb ho => ?_, fun b o hb ho => ?_⟩
    · rw [ht.same.img]
      rfl
    · rw [Dev.bankByte, ht.same.ember]
      split
      · split
        · rfl
        · rfl
      · rw [hbytes, if_neg (by omega)]
    · rw [Dev.bankByte, if_neg (by omega), ht.same.ember, hbytes, if_pos (by omega), Dev.bankByte, if_neg (by omega)]
  · intro ns s hns
    simp only [exec, execDeviceReset]
    rw [if_neg (by omega)]
    refine State.run_unchanged ?_
    rw [show decide (2500 ≤ ns) = false from decide_eq_false (by omega), Bool.and_false, Dev.when_false]
  · refine State.of_sent ?_ fun _ h => h
    intro s hs
    simp only [exec, execPowerLoss]
    refine State.run_ends hs rfl fun t ht hout hfz => ⟨ht.same.powered, ht.same.inReset, ht.regs, ht.same.time, ?_, ?_, ht.same.blown⟩
    · rw [ht.same.ember]
      simp [Dev.cleared]
    · rw [ht.same.img]
      rfl
  · intro straps f s hres ha hb
    revert s
    refine State.of_sent ?_ fun s h hres ha hb => ?_
    case refine_2 =>
      refine h hres ?_ ?_
      · rw [← ha]
        exact Dev.verifyFw_congr rfl rfl _ _
      · rw [← hb]
        exact Dev.verifyFw_congr rfl rfl _ _
    intro s hs hres ha hb
    simp only [exec, execDeviceBringup]
    refine State.run_ends hs rfl fun t ht hout hfz => ?_
    simp only [hres, Dev.when_true] at ht
    change ((s.dev.risen s.fuses straps).fwSelect s.fuses 0).EndsAs t.dev at ht
    obtain ⟨haddr, hr, hp, hrails, himg, hblown, hctl⟩ := Dev.risen_shows s.fuses s.dev straps.isLt
    have ha' := (Dev.verifyFw_congr himg hblown s.fuses 0).trans ha
    have hb' := (Dev.verifyFw_congr himg hblown s.fuses 1).trans hb
    generalize s.dev.risen s.fuses straps = a at *
    rw [Dev.fwSelect_first ha' hb'] at ht
    have hflag : a.Moves [] (· = R.hrtHstStat) (a.setFlag F.hrtHstStatFwdisp false) := (Dev.Moves.refl _ _ a).setFlag _ _ rfl
    generalize a.setFlag F.hrtHstStatFwdisp false = b at *
    have hfw := b.runFirmware_shows (slot := 0) (reason := 0) (by decide) (by decide) f
    generalize b.runFirmware 0 f 0 = e at *
    refine ⟨?_, ?_, ?_, (ht.get _).trans hfw.run, (ht.get _).trans hfw.recovery, (ht.get _).trans hfw.slot, (ht.get _).trans hfw.reason, ?_, fun i hi => ?_⟩
    · exact ht.same.inReset.trans ((hfw.moves.parts .inReset (by decide)).trans ((hflag.parts .inReset (by decide)).trans hr))
    · exact ht.same.powered.trans ((hfw.moves.parts .powered (by decide)).trans ((hflag.parts .powered (by decide)).trans hp))
    · rw [ht.get, hfw.only.get_eq (by decide) (by decide) (by simp), hflag.get (by decide), haddr]
    · refine ht.raised.2 (hfw.raised.of_ctl ?_ rfl)
      rw [hflag.regs _ (by decide), hctl]
    · rw [ht.get, ← hrails i hi, Dev.get, Dev.get, hfw.only _ ?_ ?_, hflag.regs _ ?_]
      · simp only [F.hrtSnsRailNom, R.hrtSnsRail, R.hrtHstStat]; omega
      · simp only [F.hrtSnsRailNom, R.hrtSnsRail, R.hrtHstStat, R.hrtHstFwseq, R.hrtHstFwver, List.mem_cons, List.not_mem_nil, or_false]; omega
      · exact fun n _ => notMem_evtRegs_of_low (by simp only [F.hrtSnsRailNom, R.hrtSnsRail]; omega)
  · intro straps s hres ha hb
    revert s
    refine State.of_sent ?_ fun s h hres ha hb => ?_
    case refine_2 =>
      refine h hres ?_ ?_
      · rw [← ha]
        exact Dev.verifyFw_congr rfl rfl _ _
      · rw [← hb]
        exact Dev.verifyFw_congr rfl rfl _ _
    intro s hs hres ha hb
    simp only [exec, execDeviceBringup]
    refine State.run_ends hs rfl fun t ht hout hfz => ?_
    simp only [hres, Dev.when_true] at ht
    change ((s.dev.risen s.fuses straps).fwSelect s.fuses 0).EndsAs t.dev at ht
    obtain ⟨haddr, hr, -, -, himg, hblown, -⟩ := Dev.risen_shows s.fuses s.dev straps.isLt
    have ha' := (Dev.verifyFw_congr himg hblown s.fuses 0).trans ha
    have hb' := (Dev.verifyFw_congr himg hblown s.fuses 1).trans hb
    generalize s.dev.risen s.fuses straps = a at *
    rw [Dev.fwSelect_none ha' hb'] at ht
    have hrun : ((a.set F.hrtHstStatFwrun 0).set F.hrtHstStatRecovery 1).get F.hrtHstStatFwrun = 0 := by
      rw [Dev.get_set_apart _ _ _ _ (by simp [Fld.fits, F.hrtHstStatFwrun]) (by simp [Fld.apart, F.hrtHstStatFwrun, F.hrtHstStatRecovery])]
      exact Dev.get_set_lt _ _ (by simp [Fld.fits, F.hrtHstStatFwrun]) (by decide)
    have hrec : ((a.set F.hrtHstStatFwrun 0).set F.hrtHstStatRecovery 1).get F.hrtHstStatRecovery = 1 :=
      Dev.get_set_lt _ _ (by simp [Fld.fits, F.hrtHstStatRecovery]) (by decide)
    have hmoves : a.Moves [] (· = R.hrtHstStat) ((a.set F.hrtHstStatFwrun 0).set F.hrtHstStatRecovery 1) :=
      ((Dev.Moves.refl [] (· = R.hrtHstStat) a).set _ _ rfl).set _ _ rfl
    generalize (a.set F.hrtHstStatFwrun 0).set F.hrtHstStatRecovery 1 = e at *
    exact ⟨ht.same.inReset.trans ((hmoves.parts .inReset (by decide)).trans hr), (ht.get _).trans hrun, (ht.get _).trans hrec,
      (ht.get _).trans ((hmoves.get (by decide)).trans haddr)⟩
  · refine State.of_sent ?_ fun _ h => h
    intro s hs hres href
    simp only [exec, execRefclkValid]
    refine State.run_ends hs rfl fun t ht hout hfz => ?_
    have hc : (!s.dev.inReset && !s.dev.flag F.hrtClkStatRefok) = true := by simp [hres, Dev.flag, href]
    rw [hc, Dev.when_true] at ht
    obtain ⟨hrefok, hclk, hsrc, honly, htime⟩ := s.dev.refclkBack_shows
    have hsteer : s.dev.refclkBack.steering = s.dev.steering := by
      rw [Dev.steering, Dev.getInt, Dev.get, honly _ (by decide) (by simp)]
      rfl
    change (((match s.dev.refclkBack.time.frozen with
      | some v => s.dev.refclkBack.showSteer v
      | none => s.dev.refclkBack).setTime fun t => { t with frozen := none }).discipline).EndsAs t.dev at ht
    generalize s.dev.refclkBack = a at *
    rw [htime] at ht
    obtain ⟨b, hb, hval, hon, hlow⟩ : ∃ b : Dev, (match s.dev.time.frozen with
        | some v => a.showSteer v
        | none => a) = b ∧ b.steering = (match s.dev.time.frozen with
        | some v => max (-800000) (min 800000 v)
        | none => s.dev.steering) ∧ a.Only [R.hrtClkSteer, R.hrtClkStat] [] b
        ∧ ∀ f : Fld, f.addr ≠ R.hrtClkSteer → f.fits → F.hrtClkStatDisclim.apart f → b.get f = a.get f := by
      refine ⟨_, rfl, ?_⟩
      cases s.dev.time.frozen with
      | none => exact ⟨hsteer, Dev.Only.refl _ _ a, fun _ _ _ _ => rfl⟩
      | some v =>
        obtain ⟨h1, h2, -, h4⟩ := a.showSteer_shows v
        exact ⟨h1, h2, h4⟩
    rw [hb] at ht
    have hregs : (b.setTime fun t => { t with frozen := none }).regs = b.regs := rfl
    have hfroz : (b.setTime fun t => { t with frozen := none }).time.frozen = none := rfl
    generalize b.setTime (fun t => { t with frozen := none }) = x at *
    obtain ⟨hdon, hdf, hdlow⟩ := x.discipline_shows
    generalize x.discipline = y at *
    have hfield : ∀ f : Fld, clkLow f → f.fits → F.hrtClkStatDisclim.apart f → y.get f = a.get f := fun f hf hfit ha => by
      rw [hdlow f hf, Dev.get_congr hregs, hlow f (by rw [hf.1]; decide) hfit ha]
    refine ⟨?_, ?_, ?_, ?_, ?_, ?_⟩
    · rw [ht.get, hfield _ ⟨rfl, by decide⟩ (by simp [Fld.fits, F.hrtClkStatRefok]) (by simp [Fld.apart, F.hrtClkStatRefok, F.hrtClkStatDisclim]), hrefok]
    · rw [ht.get, Dev.get, hdon _ (by decide) (by simp), Dev.reg_congr hregs, hon _ (by decide) (by simp)]
      exact hclk
    · rw [ht.get, hfield _ ⟨rfl, by decide⟩ (by simp [Fld.fits, F.hrtClkStatHrtsrc]) (by simp [Fld.apart, F.hrtClkStatHrtsrc, F.hrtClkStatDisclim]), hsrc]
    · rw [ht.same.time, hdf, hfroz]
    · refine Eq.trans ?_ hval
      rw [Dev.steering, ht.getInt, Dev.getInt, Dev.get, hdon _ (by decide) (by simp), Dev.reg_congr hregs]
      rfl
    · refine ht.only.2 ((honly.mono ?_ (fun _ h => h)).trans (((hon.mono ?_ (fun _ h => h)).congr hregs).trans (hdon.mono ?_ (fun _ h => h))))
      · simp
      · simp
      · simp
  · refine State.of_sent ?_ fun _ h => h
    intro s hs href hbad
    simp only [exec, execRefclkLost]
    refine State.run_ends hs rfl fun t ht hout hfz => ?_
    have hc : s.dev.flag F.hrtClkStatRefok = true := by simp [Dev.flag, href]
    rw [hc, Dev.when_true] at ht
    have hoff : ((s.dev.set F.hrtClkStatRefok 0).set F.hrtClkStatReflost 1).get F.hrtClkStatRefok = 0 := by
      rw [Dev.get_set_apart _ _ _ _ (by simp [Fld.fits, F.hrtClkStatRefok]) (by simp [Fld.apart, F.hrtClkStatRefok, F.hrtClkStatReflost])]
      exact Dev.get_set_lt _ _ (by simp [Fld.fits, F.hrtClkStatRefok]) (by decide)
    have hlost : ((s.dev.set F.hrtClkStatRefok 0).set F.hrtClkStatReflost 1).get F.hrtClkStatReflost = 1 :=
      Dev.get_set_lt _ _ (by simp [Fld.fits, F.hrtClkStatReflost]) (by decide)
    have hroot : ((s.dev.set F.hrtClkStatRefok 0).set F.hrtClkStatReflost 1).get F.hrtClkStatRootlock = s.dev.get F.hrtClkStatRootlock := by
      rw [Dev.get_set_apart _ _ _ _ (by simp [Fld.fits, F.hrtClkStatRootlock]) (by simp [Fld.apart, F.hrtClkStatRootlock, F.hrtClkStatReflost]),
        Dev.get_set_apart _ _ _ _ (by simp [Fld.fits, F.hrtClkStatRootlock]) (by simp [Fld.apart, F.hrtClkStatRootlock, F.hrtClkStatRefok])]
    have hst : s.dev.Stores [R.hrtClkStat] ((s.dev.set F.hrtClkStatRefok 0).set F.hrtClkStatReflost 1) :=
      ((Dev.Stores.refl _ _).set _ _ (by decide)).set _ _ (by decide)
    generalize (s.dev.set F.hrtClkStatRefok 0).set F.hrtClkStatReflost 1 = a at *
    obtain ⟨hok, hstk, hraised, hon, -⟩ := a.clkFault_shows (m := 0) (by decide) (by rw [hst.same.pwr]; exact hbad)
    generalize a.clkFault 0 = b at *
    have hget : ∀ f : Fld, f.addr = R.hrtClkStat → b.get f = a.get f := fun f hf => congrArg f.of (hon _ (by rw [hf]; decide) (by rw [hf]; decide))
    obtain ⟨hsrc, hstb, hkeep⟩ := b.hearthClock_shows
    generalize b.hearthClock = c at *
    have hregs : (c.setTime fun x => { x with frozen := some s.dev.steering }).regs = c.regs := rfl
    have hfroz : (c.setTime fun x => { x with frozen := some s.dev.steering }).time.frozen = some s.dev.steering := rfl
    generalize (c.setTime fun x => { x with frozen := some s.dev.steering }) = x at *
    obtain ⟨hdon, hdf, hdlow⟩ := x.discipline_shows
    generalize x.discipline = y at *
    have hsns : ∀ f : Fld, f.addr = R.hrtSnsStat → y.get f = b.get f := fun f hf => by
      rw [Dev.get, hdon _ (by rw [hf]; decide) (by simp), Dev.reg_congr hregs, hstb.only _ (by rw [hf]; decide) (by simp)]
      rfl
    have hfield : ∀ f : Fld, clkLow f → f.fits → F.hrtClkStatHrtsrc.apart f → y.get f = a.get f := fun f hf hfit ha => by
      rw [hdlow f hf, Dev.get_congr hregs, hkeep f hfit ha, hget f hf.1]
    have hall : s.dev.Only [R.hrtClkStat, R.hrtSnsStat] [0x06] y :=
      (Dev.Only.mono (by simp) (by simp) hst.only).trans ((Dev.Only.mono (by simp) (by simp) hon).trans
        (((Dev.Only.mono (by simp) (by simp) hstb.only).congr hregs).trans (Dev.Only.mono (by simp) (by simp) hdon)))
    refine ⟨?_, ?_, ?_, ?_, ht.raised.2 (hraised.of_ctl ?_ ?_), ?_, ?_, ?_, ?_, ht.only.2 hall⟩
    · rw [ht.get, hfield _ ⟨rfl, by decide⟩ (by simp [Fld.fits, F.hrtClkStatRefok]) (by simp [Fld.apart, F.hrtClkStatRefok, F.hrtClkStatHrtsrc]), hoff]
    · rw [ht.get, hfield _ ⟨rfl, by decide⟩ (by simp [Fld.fits, F.hrtClkStatReflost]) (by simp [Fld.apart, F.hrtClkStatReflost, F.hrtClkStatHrtsrc]), hlost]
    · rw [ht.get, hsns _ rfl, hok]
    · rw [ht.get, hsns _ rfl, hstk]
    · exact (hst.only _ (by decide) (by simp)).symm
    · rw [hdon _ (by decide) (by simp), Dev.reg_congr hregs, hstb.only _ (by decide) (by simp)]
    · rw [ht.get, hdlow _ ⟨rfl, by decide⟩, Dev.get_congr hregs, hsrc, hget _ rfl, hget _ rfl, hoff, hroot]
      rfl
    · rw [ht.get, Dev.get, hall _ (by decide) (by decide)]
      rfl
    · rw [ht.same.time, hdf, hfroz]
    · rw [Dev.steering, ht.getInt, Dev.getInt, Dev.get, hall _ (by decide) (by decide)]
      rfl
  · refine State.of_sent ?_ fun _ h => h
    intro s hs hres hlock href
    simp only [exec, execRootLock]
    refine State.run_ends hs rfl fun t ht hout hfz => ?_
    have hc : (!s.dev.inReset && !s.dev.flag F.hrtClkStatRootlock && (s.dev.pwr.rootSeen || s.dev.flag F.hrtClkStatRefok)) = true := by
      simp [hres, Dev.flag, href, hlock]
    rw [hc, Dev.when_true] at ht
    have hon1 : (s.dev.set F.hrtClkStatRootlock 1).get F.hrtClkStatRootlock = 1 :=
      Dev.get_set_lt _ _ (by simp [Fld.fits, F.hrtClkStatRootlock]) (by decide)
    have hst : s.dev.Stores [R.hrtClkStat] (s.dev.set F.hrtClkStatRootlock 1) := (Dev.Stores.refl _ _).set _ _ (by decide)
    generalize s.dev.set F.hrtClkStatRootlock 1 = a at *
    obtain ⟨-, hon, htime⟩ := a.clkGood_shows (m := 1) (by decide)
    have hget : ∀ f : Fld, f.addr = R.hrtClkStat → (a.clkGood 1).get f = a.get f := fun f hf => congrArg f.of (hon _ (by rw [hf]; decide) (by simp))
    generalize a.clkGood 1 = b at *
    obtain ⟨hsrc, hstb, hkeep⟩ := b.hearthClock_shows
    generalize b.hearthClock = c at *
    have hregs : (c.setPwr fun p => { p with rootSeen := true }).regs = c.regs := rfl
    have htime' : (c.setPwr fun p => { p with rootSeen := true }).time = c.time := rfl
    generalize (c.setPwr fun p => { p with rootSeen := true }) = x at *
    have hrun : (x.set F.hrtTimStatRun 1).get F.hrtTimStatRun = 1 := Dev.get_set_lt _ _ (by simp [Fld.fits, F.hrtTimStatRun]) (by decide)
    have hst' : x.Stores [R.hrtTimStat] (x.set F.hrtTimStatRun 1) := (Dev.Stores.refl _ _).set _ _ (by decide)
    have hcord : ∀ d : Dev, s.dev.Only [R.hrtClkStat, R.hrtSnsStat, R.hrtTimStat] [] d → d.cordSt 12 = s.dev.cordSt 12 := fun d h =>
      h.cordSt_eq (by decide) (by decide)
    have hx : s.dev.Only [R.hrtClkStat, R.hrtSnsStat, R.hrtTimStat] [] x :=
      (((Dev.Only.mono (by simp) (by simp) hst.only).trans (Dev.Only.mono (by simp) (by simp) hon)).trans (Dev.Only.mono (by simp) (by simp) hstb.only)).congr hregs
    rw [hcord x hx] at ht
    have hy := hx.trans (Dev.Only.mono (by simp) (by simp) hst'.only)
    have hlow : ∀ f : Fld, f.addr = R.hrtClkStat → (x.set F.hrtTimStatRun 1).get f = c.get f := fun f hf => by
      rw [Dev.get, hst'.only _ (by rw [hf]; decide) (by simp), Dev.reg_congr hregs]
      rfl
    generalize x.set F.hrtTimStatRun 1 = y at *
    obtain ⟨z, hz, hzcord, hzget, hztime, hzon⟩ : ∃ z : Dev, (y.when (s.dev.cordSt 12 == 0) fun d => d.setSt 12 2) = z
        ∧ z.cordSt 12 = (if s.dev.cordSt 12 = 0 then 2 else s.dev.cordSt 12) ∧ (∀ f : Fld, f.addr ≠ R.hrtPwrCord 12 → z.get f = y.get f)
        ∧ z.time = y.time ∧ y.Only [R.hrtPwrCord 12] [] z := by
      refine ⟨_, rfl, ?_⟩
      by_cases h : s.dev.cordSt 12 = 0
      · rw [h, if_pos rfl]
        exact ⟨Dev.cordSt_setSt _ (by decide) (by decide), fun f hf => Dev.get_set_ne _ _ hf,
          ((Dev.Moves.refl [] (fun _ => True) y).setSt 12 2 trivial).parts .time (by decide), (Dev.Only.refl _ _ y).set _ _ (by decide)⟩
      · rw [show (s.dev.cordSt 12 == 0) = false by simpa using h, if_neg h]
        exact ⟨hcord y hy, fun _ _ => rfl, rfl, Dev.Only.refl _ _ y⟩
    rw [hz] at ht
    refine ⟨?_, ?_, ?_, ?_, (ht.cordSt _).trans hzcord, ht.only.2 ((Dev.Only.mono (by simp) (by simp) hy).trans (Dev.Only.mono (by simp) (by simp) hzon))⟩
    · rw [ht.get, hzget _ (by decide), hlow _ rfl, hkeep _ (by simp [Fld.fits, F.hrtClkStatRootlock]) (by simp [Fld.apart, F.hrtClkStatRootlock, F.hrtClkStatHrtsrc]),
        hget _ rfl, hon1]
    · rw [ht.get, hzget _ (by decide), hlow _ rfl, hsrc, hget _ rfl, hon1, if_pos rfl]
    · rw [ht.get, hzget _ (by decide), hrun]
    · rw [ht.same.time, hztime, hst'.same.time, htime', hstb.same.time, htime, hst.same.time]
  · refine State.of_sent ?_ fun _ h => h
    intro s hs hlock hbad
    simp only [exec, execRootUnlock]
    refine State.run_ends hs rfl fun t ht hout hfz => ?_
    have hc : s.dev.flag F.hrtClkStatRootlock = true := by simp [Dev.flag, hlock]
    rw [hc, Dev.when_true] at ht
    have hoff : ((s.dev.set F.hrtClkStatRootlock 0).set F.hrtClkStatRootunlock 1).get F.hrtClkStatRootlock = 0 := by
      rw [Dev.get_set_apart _ _ _ _ (by simp [Fld.fits, F.hrtClkStatRootlock]) (by simp [Fld.apart, F.hrtClkStatRootlock, F.hrtClkStatRootunlock])]
      exact Dev.get_set_lt _ _ (by simp [Fld.fits, F.hrtClkStatRootlock]) (by decide)
    have hlost : ((s.dev.set F.hrtClkStatRootlock 0).set F.hrtClkStatRootunlock 1).get F.hrtClkStatRootunlock = 1 :=
      Dev.get_set_lt _ _ (by simp [Fld.fits, F.hrtClkStatRootunlock]) (by decide)
    have href : ((s.dev.set F.hrtClkStatRootlock 0).set F.hrtClkStatRootunlock 1).get F.hrtClkStatRefok = s.dev.get F.hrtClkStatRefok := by
      rw [Dev.get_set_apart _ _ _ _ (by simp [Fld.fits, F.hrtClkStatRefok]) (by simp [Fld.apart, F.hrtClkStatRefok, F.hrtClkStatRootunlock]),
        Dev.get_set_apart _ _ _ _ (by simp [Fld.fits, F.hrtClkStatRefok]) (by simp [Fld.apart, F.hrtClkStatRefok, F.hrtClkStatRootlock])]
    have hst : s.dev.Stores [R.hrtClkStat] ((s.dev.set F.hrtClkStatRootlock 0).set F.hrtClkStatRootunlock 1) :=
      ((Dev.Stores.refl _ _).set _ _ (by decide)).set _ _ (by decide)
    generalize (s.dev.set F.hrtClkStatRootlock 0).set F.hrtClkStatRootunlock 1 = a at *
    obtain ⟨-, -, hraised, hon, -⟩ := a.clkFault_shows (m := 1) (by decide) (by rw [hst.same.pwr]; exact hbad)
    generalize a.clkFault 1 = b at *
    have hget : ∀ f : Fld, f.addr = R.hrtClkStat → b.get f = a.get f := fun f hf => congrArg f.of (hon _ (by rw [hf]; decide) (by rw [hf]; decide))
    obtain ⟨hsrc, hstb, hkeep⟩ := b.hearthClock_shows
    generalize b.hearthClock = c at *
    have hall : s.dev.Only [R.hrtClkStat, R.hrtSnsStat] [0x06] c :=
      (Dev.Only.mono (by simp) (by simp) hst.only).trans ((Dev.Only.mono (by simp) (by simp) hon).trans (Dev.Only.mono (by simp) (by simp) hstb.only))
    refine ⟨?_, ?_, ?_, ht.raised.2 (hraised.of_ctl (hst.only _ (by decide) (by simp)).symm (hstb.only _ (by decide) (by simp))), ?_, ht.only.2 hall⟩
    · rw [ht.get, hkeep _ (by simp [Fld.fits, F.hrtClkStatRootlock]) (by simp [Fld.apart, F.hrtClkStatRootlock, F.hrtClkStatHrtsrc]), hget _ rfl, hoff]
    · rw [ht.get, hkeep _ (by simp [Fld.fits, F.hrtClkStatRootunlock]) (by simp [Fld.apart, F.hrtClkStatRootunlock, F.hrtClkStatHrtsrc]), hget _ rfl, hlost]
    · rw [ht.get, hsrc, hget _ rfl, hget _ rfl, hoff, href]
      rfl
    · rw [ht.get, Dev.get, hall _ (by decide) (by decide)]
      rfl

end Sys2Proof.Machine
end

section
/-!
PROOFS. The mailbox (R409, R411): a request served, and its answer; little-endian numbers.
-/

namespace Sys2Proof.Machine

set_option Elab.async false

/-! ### Little-endian bytes (R5) -/

theorem leAt_succ (l : List Byte) (o n : Nat) : leAt l o (n + 1) = leAt l o n + (l.getD (o + n) 0).toNat * 2 ^ (8 * n) := by
  simp only [leAt, List.range_succ, List.foldl_append, List.foldl_cons, List.foldl_nil]

theorem leAt_congr {l m : List Byte} {o o' n : Nat} (h : ∀ i < n, l.getD (o + i) 0 = m.getD (o' + i) 0) : leAt l o n = leAt m o' n := by
  induction n with
  | zero => rfl
  | succ n ih => rw [leAt_succ, leAt_succ, ih fun i hi => h i (by omega), h n (by omega)]

theorem leAt_append_left {l : List Byte} (m : List Byte) {o n : Nat} (h : o + n ≤ l.length) : leAt (l ++ m) o n = leAt l o n :=
  leAt_congr fun i hi => List.getD_append _ _ _ _ (by omega)

theorem leAt_append_right (l m : List Byte) (o n : Nat) : leAt (l ++ m) (l.length + o) n = leAt m o n :=
  leAt_congr fun i _ => by
    rw [List.getD_append_right _ _ _ _ (by omega)]
    congr 1
    omega

theorem leAt_append_at {l : List Byte} (m : List Byte) {o n k : Nat} (h : l.length + o = k) : leAt (l ++ m) k n = leAt m o n :=
  h ▸ leAt_append_right l m o n

@[simp] theorem leBytes_length (n x : Nat) : (leBytes n x).length = n := by simp [leBytes]

theorem leBytes_getD {n i : Nat} (x : Nat) (h : i < n) : (leBytes n x).getD i 0 = BitVec.ofNat 8 (x / 2 ^ (8 * i)) := by
  rw [List.getD_eq_getElem _ _ (by simpa using h)]
  simp [leBytes]

/-- Bytes of a number, read back. -/
theorem leAt_leBytes {n o k : Nat} (x : Nat) (h : o + k ≤ n) : leAt (leBytes n x) o k = x / 2 ^ (8 * o) % 2 ^ (8 * k) := by
  induction k with
  | zero => simp [leAt, Nat.mod_one]
  | succ k ih =>
    rw [leAt_succ, ih (by omega), leBytes_getD x (by omega), BitVec.toNat_ofNat, show 8 * (k + 1) = 8 * k + 8 by omega, Nat.pow_add, Nat.mod_mul,
      show 8 * (o + k) = 8 * o + 8 * k by omega, Nat.pow_add, ← Nat.div_div_eq_div_mul, Nat.mul_comm (2 ^ (8 * k))]

/-! ### The end of a mailbox command (R411, R417) -/

/-- Registers of their own, stored one after the other. -/
theorem Dev.each_setReg_shows (a : Nat → Nat) (v : Nat → Word) (hne : ∀ i j, i ≠ j → a i ≠ a j) (l : List Nat) (d : Dev) :
    (∀ i ∈ l, (d.each l fun d i => d.setReg (a i) (v i)).reg (a i) = v i)
      ∧ d.Moves [] (fun x => ∃ i ∈ l, x = a i) (d.each l fun d i => d.setReg (a i) (v i)) := by
  refine ⟨?_, (Dev.Moves.refl _ _ d).each _ _ fun y k hk => (Dev.Moves.refl _ _ y).setReg _ _ ⟨k, hk, rfl⟩⟩
  induction l generalizing d with
  | nil => simp
  | cons j t ih =>
    intro i hi
    rw [Dev.each_cons]
    by_cases ht : i ∈ t
    · exact ih _ i ht
    · obtain rfl : i = j := by simpa [ht] using hi
      have hm : (d.setReg (a i) (v i)).Moves [] (fun x => ∃ k ∈ t, x = a k) ((d.setReg (a i) (v i)).each t fun d i => d.setReg (a i) (v i)) :=
        (Dev.Moves.refl _ _ _).each _ _ fun y k hk => (Dev.Moves.refl _ _ y).setReg _ _ ⟨k, hk, rfl⟩
      rw [hm.regs _ fun ⟨k, hk, he⟩ => hne i k (fun h => ht (h ▸ hk)) he, Dev.reg_setReg_self]

/-- The parts that the end of a mailbox command may change. -/
def mbxParts : List Part := .hearth :: Dev.Moves.evtParts

theorem isEvt_evtRegs {n : Nat} (hn : n < 0x100) {a : Nat} (h : a ∈ evtRegs n) : (isMbx a || isEvt a) = true := by
  simp [isEvt_of_evtRegs hn h]

/-- A command over PCIe ends in the mailbox's registers. -/
theorem Dev.mbxEnd_pcie {d : Dev} {q : MbxReq} {status : Nat} {data : List Byte} (hq : q.smb = false) (hst : status < 256) (hlen : data.length ≤ 248) :
    d.Answered q status data (d.mbxEnd q status data) ∧ d.Moves mbxParts (fun a => (isMbx a || isEvt a) = true) (d.mbxEnd q status data) := by
  unfold Dev.mbxEnd
  rw [hq, if_neg (by decide)]
  dsimp only
  have hbytes : (leBytes 4 (status + data.length * 2 ^ 16) ++ data).length = data.length + 4 := by
    rw [List.length_append, leBytes_length]
    omega
  rw [show leBytes 4 (status + data.length * 2 ^ 16) ++ data = mbxBytes status data from rfl] at *
  have hreqs : (d.setHearth fun h => { h with reqs := h.reqs.drop 1 }).hearth.reqs = d.hearth.reqs.drop 1 := rfl
  have hregs : (d.setHearth fun h => { h with reqs := h.reqs.drop 1 }).regs = d.regs := rfl
  have hmov : d.Moves mbxParts (fun a => (isMbx a || isEvt a) = true) (d.setHearth fun h => { h with reqs := h.reqs.drop 1 }) :=
    (Dev.Moves.refl _ _ d).setHearth _
  generalize (d.setHearth fun h => { h with reqs := h.reqs.drop 1 }) = x at *
  obtain ⟨hwords, hw⟩ := Dev.each_setReg_shows R.hrtMbxRsp (fun i => BitVec.ofNat 32 (leAt (mbxBytes status data) (4 * i) 4))
    (fun i j hij => by simp only [R.hrtMbxRsp]; omega) (List.range (((mbxBytes status data).length + 3) / 4)) x
  generalize (x.each (List.range (((mbxBytes status data).length + 3) / 4)) fun d i => d.setReg (R.hrtMbxRsp i)
    (BitVec.ofNat 32 (leAt (mbxBytes status data) (4 * i) 4))) = y at *
  have hlow : ∀ a, (∃ i ∈ List.range (((mbxBytes status data).length + 3) / 4), a = R.hrtMbxRsp i) → 0x70200 ≤ a ∧ a < 0x70300 := by
    rintro a ⟨i, hi, rfl⟩
    rw [List.mem_range, hbytes] at hi
    simp only [R.hrtMbxRsp]
    omega
  have hbusy : ((y.set F.hrtMbxCtlBusy 0).set F.hrtMbxCtlStatus status).get F.hrtMbxCtlBusy = 0 := by
    rw [Dev.get_set_apart _ _ _ _ (by simp [Fld.fits, F.hrtMbxCtlBusy]) (by simp [Fld.apart, F.hrtMbxCtlBusy, F.hrtMbxCtlStatus])]
    exact Dev.get_set_lt _ _ (by simp [Fld.fits, F.hrtMbxCtlBusy]) (by decide)
  have hstatus : ((y.set F.hrtMbxCtlBusy 0).set F.hrtMbxCtlStatus status).get F.hrtMbxCtlStatus = status :=
    Dev.get_set_lt _ _ (by simp [Fld.fits, F.hrtMbxCtlStatus]) hst
  have hset : y.Moves [] (· = R.hrtMbxCtl) ((y.set F.hrtMbxCtlBusy 0).set F.hrtMbxCtlStatus status) :=
    ((Dev.Moves.refl [] (· = R.hrtMbxCtl) y).set _ _ rfl).set _ _ rfl
  generalize (y.set F.hrtMbxCtlBusy 0).set F.hrtMbxCtlStatus status = z at *
  have hget : ∀ f : Fld, f.addr < 0x80000 → (z.raise 0x02 [R.hrtMbxRsp 0]).get f = z.get f := fun f hf => Dev.get_raise _ _ _ (.inl hf)
  have hraise : z.Moves mbxParts (fun a => (isMbx a || isEvt a) = true) (z.raise 0x02 [R.hrtMbxRsp 0]) :=
    (Dev.Moves.refl _ _ z).raise _ _ fun a ha => isEvt_evtRegs (by decide) ha
  have hall : x.Moves mbxParts (fun a => (isMbx a || isEvt a) = true) z := by
    refine (hw.mono (by decide) fun a ha => ?_).trans (hset.mono (by decide) fun a ha => ?_)
    · have := hlow a ha
      have hr : (decide (R.hrtMbxRsp 0 ≤ a) && decide (a ≤ R.hrtMbxRsp 63)) = true := by
        obtain ⟨i, -, rfl⟩ := ha
        rw [Bool.and_eq_true, decide_eq_true_eq, decide_eq_true_eq]
        simp only [R.hrtMbxRsp] at this ⊢
        omega
      simp [isMbx, hr]
    · simp [isMbx, ha]
  refine ⟨⟨?_, fun h => absurd h (by simp [hq]), fun _ => ⟨(hget _ (by decide)).trans hbusy, (hget _ (by decide)).trans hstatus, ?_, fun i hi => ?_⟩⟩,
    hmov.trans (hall.trans hraise)⟩
  · rw [(z.raise_quiet _ _).hearth, hset.parts .hearth (by decide), hw.parts .hearth (by decide), hreqs]
  · refine (z.raised_raise _ _ (by decide)).of_ctl ?_ rfl
    rw [hset.regs _ (by decide), hw.regs _ fun h => absurd (hlow _ h) (by decide), Dev.reg_congr hregs]
  · have hi' : i ∈ List.range (((mbxBytes status data).length + 3) / 4) := by
      rw [List.mem_range, hbytes]
      exact hi
    have := hlow _ ⟨i, hi', rfl⟩
    rw [Dev.reg_raise _ _ _ (.inl (by omega)), hset.regs _ (by simp only [R.hrtMbxCtl]; omega), hwords i hi']

/-- A command ends with its status and data (R411, R417). -/
theorem Dev.mbxEnd_answers (d : Dev) (q : MbxReq) {status : Nat} {data : List Byte} (hst : status < 256) (hlen : data.length ≤ 248) :
    d.Answered q status data (d.mbxEnd q status data) ∧ d.Moves mbxParts (fun a => (isMbx a || isEvt a) = true) (d.mbxEnd q status data) := by
  cases hq : q.smb with
  | false => exact Dev.mbxEnd_pcie hq hst hlen
  | true =>
    have hend : d.mbxEnd q status data
        = (d.setHearth fun h => { h with reqs := h.reqs.drop 1 }).setHearth fun h => { h with smbRsp := mbxBytes status data, smbDone := true } := by
      unfold Dev.mbxEnd
      rw [hq]
      rfl
    rw [hend]
    exact ⟨⟨rfl, fun _ => ⟨rfl, rfl⟩, fun h => absurd h (by simp [hq])⟩, ((Dev.Moves.refl _ _ d).setHearth _).setHearth _⟩

/-- The answer over what a command has done before, where it left the mailbox alone. -/
theorem Dev.Answered.of_before {d d' e : Dev} {q : MbxReq} {status : Nat} {data : List Byte} (h : d'.Answered q status data e)
    (hreqs : d'.hearth.reqs = d.hearth.reqs) (hctl : d'.reg (R.hrtEvtSrcCtl 0x02) = d.reg (R.hrtEvtSrcCtl 0x02)) : d.Answered q status data e := by
  obtain ⟨hr, hsmb, hpcie⟩ := h
  refine ⟨hr.trans (congrArg _ hreqs), hsmb, fun hq => ?_⟩
  obtain ⟨h1, h2, h3, h4⟩ := hpcie hq
  exact ⟨h1, h2, h3.of_ctl hctl.symm rfl, h4⟩

theorem Dev.EndsAs.answered {e t d : Dev} (h : e.EndsAs t) {q : MbxReq} {status : Nat} {data : List Byte} (k : d.Answered q status data e) :
    d.Answered q status data t := by
  obtain ⟨hr, hsmb, hpcie⟩ := k
  refine ⟨?_, fun hq => ?_, fun hq => ?_⟩
  · rw [h.same.hearth, hr]
  · rw [h.same.hearth]
    exact hsmb hq
  · obtain ⟨h1, h2, h3, h4⟩ := hpcie hq
    exact ⟨(h.get _).trans h1, (h.get _).trans h2, h.raised.2 h3, fun i hi => (h.reg _).trans (h4 i hi)⟩

/-- A command that is a run ends in a state whose device is that of its effect, with the entries it adds to the log's queue closed. -/
theorem State.run_closes {s : State} {o : Host.Outcome State Fault Refusal} {f : Fuses → Dev → Dev} {P : State → Prop} (hs : s.dev.out = [])
    (ho : o = s.run f)
    (h : ∀ t : State, (f s.fuses s.dev).EndsAs t.dev → t.outputs = (f s.fuses s.dev).out ++ s.outputs →
      t.dev.ash = ((f s.fuses s.dev).closeLog s.dev.ash.queue.length).ash → P t) :
    ∃ t, o = .next t ∧ P t := by
  have hd : s.dev.setOut [] = s.dev := by rw [Dev.setOut, ← hs]
  refine ⟨_, ho.trans (State.run_eq s f), h _ ?_ ?_ ?_⟩
  · rw [hd]
    exact ⟨rfl, rfl, by constructor <;> rfl⟩
  · rw [hd]
  · rw [hd]
    rfl

/-- The request that Hearth serves. -/
theorem Dev.Asked.reqs {d : Dev} {q : MbxReq} (h : d.Asked q) : ∃ rest, d.hearth.reqs = q :: rest := by
  obtain ⟨hhead, -⟩ := h
  cases hr : d.hearth.reqs with
  | nil => simp [hr] at hhead
  | cons x xs =>
    obtain rfl : x = q := by simpa [hr] using hhead
    exact ⟨xs, rfl⟩

/-- A mailbox command served, with what it leaves of the log's queue (R409, R411). -/
theorem State.mailbox_closes {s : State} {q : MbxReq} {mine : Nat → Bool} {f : Fuses → Dev → MbxReq → Dev} {e : Dev} {P : State → Prop} (hs : s.dev.out = [])
    (hq : s.dev.Asked q) (hm : mine q.opcode = true) (hf : f s.fuses s.dev q = e) (hw : e.waiting = [])
    (h : ∀ t : State, e.EndsAs t.dev → t.outputs = e.out ++ s.outputs → t.dev.ash = (e.closeLog s.dev.ash.queue.length).ash → P t) :
    ∃ t, s.mailbox mine f = .next t ∧ P t := by
  obtain ⟨rest, hreqs⟩ := hq.reqs
  obtain ⟨-, hrun, hrec, hlen, -⟩ := hq
  refine State.run_closes hs (f := fun fz d => (match d.hearth.reqs with
    | [] => d
    | q :: _ =>
      if !mine q.opcode || !d.fwServes then d
      else if 248 < q.len then d.mbxEnd q 0x02 q.noData
      else if d.flag F.hrtHstStatRecovery && !recoveryOp q.opcode then d.mbxEnd q 0x0C q.noData
      else f fz d q).serve fz) rfl fun t ht hout hash => ?_
  have hserves : (!mine q.opcode || !s.dev.fwServes) = false := by simp [hm, Dev.fwServes, Dev.flag, hrun]
  have hrec' : (s.dev.flag F.hrtHstStatRecovery && !recoveryOp q.opcode) = false := by simp [Dev.flag, hrec]
  simp -implicitDefEqProofs only [hreqs, hserves, hrec', Bool.false_eq_true, if_false, if_neg (by omega : ¬ 248 < q.len), hf, Dev.serve_idle hw] at ht hout hash
  exact h t ht hout hash

theorem State.mailbox_ends {s : State} {q : MbxReq} {mine : Nat → Bool} {f : Fuses → Dev → MbxReq → Dev} {e : Dev} {P : State → Prop} (hs : s.dev.out = [])
    (hq : s.dev.Asked q) (hm : mine q.opcode = true) (hf : f s.fuses s.dev q = e) (hw : e.waiting = [])
    (h : ∀ t : State, e.EndsAs t.dev → t.outputs = e.out ++ s.outputs → P t) : ∃ t, s.mailbox mine f = .next t ∧ P t :=
  State.mailbox_closes hs hq hm hf hw fun t ht hout _ => h t ht hout

theorem Dev.Asked.waiting {d : Dev} {q : MbxReq} (h : d.Asked q) : d.waiting = [] := by
  obtain ⟨-, -, -, -, hw⟩ := h
  exact hw

end Sys2Proof.Machine
end

section
/-!
PROOFS. The ash log and the SMBus target (R417, R424, R425).
-/

namespace Sys2Proof.Machine

set_option Elab.async false

/-! ### The ash log (R424, R425) -/

theorem beBytes_length (n x : Nat) : (beBytes n x).length = n := by simp [beBytes]

theorem AshItem.bytes_length (i : AshItem) (e : Nat) : (i.bytes e).length = 32 := by
  simp [AshItem.bytes, beBytes_length, fitBytes_length]

/-- A block of MRAM just written, and every other one (R424). -/
theorem Dev.mramPut_block (d : Dev) (k : Nat) {l : List Byte} (hl : l.length = 32) :
    (d.mramPut (32 * k) l).mramAt (32 * k) 32 = l ∧ ∀ a, a / 32 ≠ k → Tbl.get 0 (d.mramPut (32 * k) l).img.mram a = Tbl.get 0 d.img.mram a := by
  refine ⟨?_, fun a ha => Dev.mramPut_out _ _ _ (by omega)⟩
  refine List.ext_getElem (by simp [Dev.mramAt, hl]) fun i h1 h2 => ?_
  simp only [Dev.mramAt, List.getElem_map, List.getElem_range]
  rw [Dev.mramPut_in _ _ _ h2, List.getD_eq_getElem _ _ h2]

/-- An entry that closes after `n` others is the first of its clock unless it is of an event. -/
theorem Dev.closeLog_note {d : Dev} {n : Nat} {old new : List AshItem} {i : AshItem} (hq : d.ash.queue = old ++ i :: new) (hn : old.length = n)
    (hkind : i.kind ≠ 1) (hfrom : i.from_ = []) : ∃ more, (d.closeLog n).ash.queue = old ++ i :: more := by
  unfold Dev.closeLog
  dsimp only
  rw [hq, List.take_append_of_le_length (by omega), List.take_of_length_le (by omega), List.drop_append_of_le_length (by omega),
    List.drop_of_length_le (by omega), List.nil_append, List.map_cons, List.foldr_cons]
  simp only [hfrom, List.isEmpty_nil, if_true]
  generalize (List.map _ new).foldr ashInsert [] = m
  cases m with
  | nil => exact ⟨[], rfl⟩
  | cons y t => exact ⟨y :: t, by simp [ashInsert, hkind]⟩

/-- An entry offered to a queue with room, before any loss (R425). -/
theorem Dev.ashAdd_room {d : Dev} (hlost : d.ash.lost = 0) (hroom : ashLoad d.ash.queue < 256) (kind evt code : Nat) (data : List Byte) :
    (d.ashAdd kind evt code data).ash.queue = d.ash.queue ++ [⟨d.time.ns, d.time.wraps, kind, evt, code % 2 ^ 16, fitBytes 12 data, []⟩]
      ∧ (d.ashAdd kind evt code data).ash.newest = d.ash.newest := by
  unfold Dev.ashAdd
  dsimp only
  rw [if_neg (by omega), if_pos hlost]
  exact ⟨rfl, rfl⟩

theorem Dev.ashAdd_log (d : Dev) (kind evt code : Nat) (data : List Byte) (from_ : List Nat) :
    ∃ new, (d.ashAdd kind evt code data from_).ash.queue = d.ash.queue ++ new := by
  unfold Dev.ashAdd
  dsimp only
  split
  · exact ⟨[], (List.append_nil _).symm⟩
  · split
    · exact ⟨_, rfl⟩
    · exact ⟨_, rfl⟩

/-- What an event adds to the log's queue stands behind what waits there (R425). -/
theorem Dev.raise_log (d : Dev) (n : Nat) (addrs : List Nat) : ∃ new, (d.raise n addrs).ash.queue = d.ash.queue ++ new := by
  unfold Dev.raise Dev.raiseWords
  split
  · exact ⟨[], (List.append_nil _).symm⟩
  · have hmark : (d.evtMark n).ash = d.ash := by
      unfold Dev.evtMark
      exact (((((Dev.Moves.refl [] (fun _ => True) d).when _ _ fun x => ((Dev.Moves.refl _ _ x).set _ _ trivial).set _ _ trivial).count _ _ trivial).set _ _
        trivial).parts .ash (by decide))
    have hedge : ∀ (e : Dev) (g : Nat) (b : Bool), (e.groupEdge g b).ash = e.ash := fun e g b =>
      ((Dev.Moves.refl [.out, .msixHeld] (fun _ => True) e).when _ _ fun x => (Dev.Moves.refl _ _ x).msixSend _).parts .ash (by decide)
    dsimp only
    rw [hedge, ← hmark]
    generalize d.evtMark n = e
    cases (!d.flag (F.hrtEvtSrcCtlStat n) && d.flag (F.hrtEvtSrcCtlLog n)) with
    | false => exact ⟨[], (List.append_nil _).symm⟩
    | true => exact e.ashAdd_log _ _ _ _ _

theorem Dev.mbxEnd_log (d : Dev) (q : MbxReq) (status : Nat) (data : List Byte) : ∃ new, (d.mbxEnd q status data).ash.queue = d.ash.queue ++ new := by
  unfold Dev.mbxEnd
  dsimp only
  split
  · exact ⟨[], (List.append_nil _).symm⟩
  · generalize hx : (((d.setHearth fun h => { h with reqs := h.reqs.drop 1 }).each (List.range (((leBytes 4 (status + data.length * 2 ^ 16) ++ data).length + 3) / 4)) fun d i =>
      d.setReg (R.hrtMbxRsp i) (BitVec.ofNat 32 (leAt (leBytes 4 (status + data.length * 2 ^ 16) ++ data) (4 * i) 4))).set F.hrtMbxCtlBusy 0).set F.hrtMbxCtlStatus status = x
    have hm : d.Moves [.hearth] (fun _ => True) x := by
      rw [← hx]
      exact ((((Dev.Moves.refl _ _ d).setHearth _).each _ _ fun y i _ => (Dev.Moves.refl _ _ y).setReg _ _ trivial).set _ _ trivial).set _ _ trivial
    obtain ⟨new, hnew⟩ := x.raise_log 0x02 [R.hrtMbxRsp 0]
    exact ⟨new, hnew.trans (congrArg (fun a : AshSt => a.queue ++ new) (hm.parts .ash (by decide)))⟩

theorem Dev.ashHeld_length {d : Dev} {m : Nat} {b : List Byte} (h : d.ashHeld m = some b) : b.length = 32 := by
  unfold Dev.ashHeld Dev.ashAt at h
  dsimp only at h
  split at h
  · rename_i c hc
    split at hc
    · split at h
      · obtain rfl := Option.some.inj h
        rw [← Option.some.inj hc]
        simp [Dev.mramAt]
      · simp at h
    · simp at hc
  · simp at h

/-- The oldest entry is not newer than the newest. -/
theorem Dev.ashOldest_not_newer (d : Dev) {m : Nat} (hm : m < 2 ^ 32) : newer (d.ashOldest m) m = false := by
  have hcases : d.ashOldest m = m ∨ ∃ k < 262144, d.ashOldest m = (m + 2 ^ 32 - 262143 + k) % 2 ^ 32 := by
    unfold Dev.ashOldest
    cases h : (List.range 262144).findSome? fun k => let e := (m + 2 ^ 32 - 262143 + k) % 2 ^ 32; if (d.ashHeld e).isSome then some e else none with
    | none => exact .inl rfl
    | some e =>
      obtain ⟨k, hk, he⟩ := List.exists_of_findSome?_eq_some h
      dsimp only at he
      split at he
      · exact .inr ⟨k, List.mem_range.1 hk, (Option.some.inj he).symm⟩
      · simp at he
  have hback : sfnSub (d.ashOldest m) m = 0 ∨ 2 ^ 31 ≤ sfnSub (d.ashOldest m) m := by
    simp only [sfnSub, unsignedOf]
    rcases hcases with h | ⟨k, hk, h⟩
    · rw [h]
      omega
    · rw [h]
      omega
  simp only [newer, Bool.and_eq_false_iff, decide_eq_false_iff_not]
  omega

/-- The newest entry read alone (R424). -/
theorem Dev.ashFrom_newest {d : Dev} {m : Nat} {b : List Byte} (hm : m < 2 ^ 32) (hb : d.ashHeld m = some b) : d.ashFrom m 1 m = b := by
  have hsub : sfnSub m m = 0 := by simp [sfnSub, unsignedOf]
  have hnew : newer m m = false := by simp [newer, hsub]
  simp [Dev.ashFrom, hnew, hsub, List.range_one, Nat.mod_eq_of_lt (show m < 4294967296 from hm), hb]

/-- The device with the note of a request in its log's queue. -/
def Dev.noted (d : Dev) (q : MbxReq) : Dev :=
  let d1 := d.ashAdd 3 0 (leAt q.args 0 2) (q.args.drop 4)
  { d1 with free := d1.free + 1 }

theorem Dev.noted_shows (d : Dev) (q : MbxReq) (hlost : d.ash.lost = 0) (hroom : ashLoad d.ash.queue < 256) :
    (d.noted q).ash.queue = d.ash.queue ++ [⟨d.time.ns, d.time.wraps, 3, 0, leAt q.args 0 2 % 2 ^ 16, fitBytes 12 (q.args.drop 4), []⟩]
      ∧ (d.noted q).regs = d.regs ∧ (d.noted q).waiting = d.waiting ∧ (d.noted q).hearth = d.hearth := by
  obtain ⟨hqueue, -⟩ := Dev.ashAdd_room hlost hroom 3 0 (leAt q.args 0 2) (q.args.drop 4)
  have hadd := (Dev.Moves.refl [.ash] (fun _ => True) d).ashAdd 3 0 (leAt q.args 0 2) (q.args.drop 4) []
  have hregs := d.ashAdd_regs 3 0 (leAt q.args 0 2) (q.args.drop 4) []
  unfold Dev.noted
  generalize d.ashAdd 3 0 (leAt q.args 0 2) (q.args.drop 4) = e at *
  exact ⟨hqueue, hregs, hadd.parts .waiting (by decide), hadd.parts .hearth (by decide)⟩

/-- A note with room for its entry answers with the entry's number (R425). -/
theorem Dev.noteEnd_eq (d : Dev) (q : MbxReq) (hlost : d.ash.lost = 0) (hroom : ashLoad d.ash.queue < 256) :
    (let full := decide (256 ≤ ashLoad d.ash.queue)
      let d1 := d.ashAdd 3 0 (leAt q.args 0 2) (q.args.drop 4)
      let e := if full then (Config.freeWord d.free).toNat else (d1.ashNext + d1.ash.queue.length - 1) % 2 ^ 32
      { d1 with free := d1.free + 1 }.mbxEnd q 0 (leBytes 4 e))
      = (d.noted q).mbxEnd q 0 (leBytes 4 ((d.ashNext + d.ash.queue.length) % 2 ^ 32)) := by
  obtain ⟨hqueue, hnewest⟩ := Dev.ashAdd_room hlost hroom 3 0 (leAt q.args 0 2) (q.args.drop 4)
  have hnext : (d.ashAdd 3 0 (leAt q.args 0 2) (q.args.drop 4)).ashNext = d.ashNext := by simp only [Dev.ashNext, hnewest]
  have hlen : (d.ashAdd 3 0 (leAt q.args 0 2) (q.args.drop 4)).ash.queue.length = d.ash.queue.length + 1 := by rw [hqueue, List.length_append, List.length_singleton]
  dsimp only
  rw [decide_eq_false (by omega), if_neg (by decide), hnext, hlen]
  rfl

/-! ### The SMBus target (R417) -/

theorem Dev.smbTake_own {d : Dev} {own : Byte} {pecOk : Bool} (hr : d.inReset = false) (hp : pecOk = true) (f : Dev → Dev) : d.smbTake own own pecOk f = f d := by
  simp [Dev.smbTake, hr, hp]

theorem Dev.smbTake_bad {d : Dev} {own : Byte} {pecOk : Bool} (hr : d.inReset = false) (hp : pecOk = false) (f : Dev → Dev) :
    d.smbTake own own pecOk f = d.count F.hrtSmbStatPecerr 1 := by
  simp [Dev.smbTake, hr, hp]

theorem Dev.smbTake_other {d : Dev} {code own : Byte} (hr : d.inReset = false) (h : code ≠ own) (pecOk : Bool) (f : Dev → Dev) :
    d.smbTake code own pecOk f = d.emit (.smbNak code) := by
  simp [Dev.smbTake, hr, h]

/-- A transaction counted and nothing else (R417). -/
theorem Dev.smbCount_shows (d : Dev) {f : Fld} (hf : f.fits) (hw : f.width = 8) (ha : f.addr = R.hrtSmbStat) :
    (d.count f 1).get f = satAdd 8 (d.get f) 1 ∧ d.Only [R.hrtSmbStat] [] (d.count f 1) ∧ (d.count f 1).hearth = d.hearth ∧ (d.count f 1).out = d.out := by
  have hm : d.Moves [] (fun _ => True) (d.count f 1) := (Dev.Moves.refl _ _ d).count _ _ trivial
  exact ⟨hw ▸ Dev.get_count_self _ _ _ hf, (Dev.Only.refl _ _ d).count _ _ (by simp [ha]), hm.parts .hearth (by decide), hm.parts .out (by decide)⟩

/-- The status byte that the target returns. -/
def Dev.smbState (d : Dev) : Byte :=
  let bit (b : Bool) (n : Nat) : Nat := if b then n else 0
  BitVec.ofNat 8 (bit d.smbBusy 1 + bit d.hearth.smbDone 2 + bit ((List.range 16).any fun g => d.groupPending g) 4 + bit (d.flag F.hrtHstStatRecovery) 8)

theorem Dev.smbState_bits (d : Dev) : d.smbState < 16#8 ∧ d.smbState.getLsbD 0 = d.smbBusy ∧ d.smbState.getLsbD 1 = d.hearth.smbDone
    ∧ d.smbState.getLsbD 2 = ((List.range 16).any fun g => d.groupPending g) ∧ d.smbState.getLsbD 3 = d.flag F.hrtHstStatRecovery := by
  unfold Dev.smbState
  generalize d.smbBusy = a, d.hearth.smbDone = b, ((List.range 16).any fun g => d.groupPending g) = c, d.flag F.hrtHstStatRecovery = e
  revert a b c e
  decide

/-- Settles O51: the ash log and the SMBus target. -/
theorem logAndSmbusServe : Obligations.LogAndSmbusServe := by
  refine ⟨?_, ?_, ?_, ?_, ?_, ?_, ?_, ?_, ?_, ?_, ?_, ?_, ?_⟩
  · intro i rest e
    refine State.of_sent ?_ fun _ h => h
    intro s hs hq hrun he
    simp only [exec, execAshLogEntry]
    refine State.run_closes hs rfl fun t ht hout hash => ?_
    have hf : s.dev.flag F.hrtHstStatFwrun = true := by simp [Dev.flag, hrun]
    subst he
    simp only [hq, hf, Bool.not_true, Bool.false_eq_true, if_false] at ht hash
    rw [show 0x3000000 + 32 * (s.dev.ashNext % 262144) = 32 * (0x180000 + s.dev.ashNext % 262144) by omega] at *
    obtain ⟨hput, hkeep⟩ := s.dev.mramPut_block (0x180000 + s.dev.ashNext % 262144) (i.bytes_length s.dev.ashNext)
    refine ⟨?_, ?_, ?_, fun a ha => ?_, ht.only.2 ((Dev.Only.refl _ _ _).congr rfl)⟩
    · rw [hash, Dev.closeLog]
      simp [List.take_of_length_le, List.drop_of_length_le]
    · rw [hash]
      rfl
    · rw [Dev.mramAt, ht.same.img]
      exact hput
    · rw [ht.same.img]
      exact hkeep a (by omega)
  · intro q
    refine State.of_sent ?_ fun _ h => h
    intro s hs hq hop hlen hargs hlost hroom
    have hbody := s.dev.noteEnd_eq q hlost hroom
    obtain ⟨hnote, hnregs, hnw, hnh⟩ := s.dev.noted_shows q hlost hroom
    replace hnw := hnw.trans hq.waiting
    generalize s.dev.noted q = d at *
    obtain ⟨hans, hmoves⟩ := d.mbxEnd_answers q (status := 0) (data := leBytes 4 ((s.dev.ashNext + s.dev.ash.queue.length) % 2 ^ 32)) (by decide) (by simp)
    obtain ⟨new, hnew⟩ := d.mbxEnd_log q 0 (leBytes 4 ((s.dev.ashNext + s.dev.ash.queue.length) % 2 ^ 32))
    generalize d.mbxEnd q 0 (leBytes 4 ((s.dev.ashNext + s.dev.ash.queue.length) % 2 ^ 32)) = e at *
    rw [hnote, List.append_assoc] at hnew
    obtain ⟨more, hmore⟩ := Dev.closeLog_note hnew rfl (by simp) rfl
    refine exists_comm.1 ⟨more, ?_⟩
    simp only [exec, execLogNote]
    refine State.mailbox_closes hs hq (by simp [hop]) ?_ ((hmoves.parts .waiting (by decide)).trans hnw) fun t ht hout hash => ⟨?_, ?_⟩
    · rw [if_neg (by simp [hlen, hargs])]
      exact hbody
    · rw [hash]
      exact hmore
    · exact ht.answered (hans.of_before (by rw [hnh]) (Dev.reg_congr hnregs _))
  · intro q m b
    refine State.of_sent ?_ fun _ h => h
    intro s hs hq hop hlen hargs hnewest hm hb
    simp only [exec, execLogRead]
    obtain ⟨hans, hmoves⟩ := s.dev.mbxEnd_answers q (status := 0) (data := b) (by decide) (by rw [Dev.ashHeld_length hb]; decide)
    · have h0 : leAt q.args 0 4 = m := by
        rw [hargs, leAt_append_left _ (by simp), leAt_leBytes m (by decide)]
        simp [Nat.mod_eq_of_lt (show m < 4294967296 from hm)]
      have h1 : leAt q.args 4 1 = 1 := by
        rw [hargs, leAt_append_at _ (show (leBytes 4 m).length + 0 = 4 by simp), leAt_leBytes 1 (by decide)]
        decide
      have h2 : leAt q.args 5 3 = 0 := by
        rw [hargs, leAt_append_at _ (show (leBytes 4 m).length + 1 = 5 by simp), leAt_leBytes 1 (by decide)]
        decide
      have h3 : q.args.length = 8 := by simp [hargs]
      refine State.mailbox_ends hs hq (e := s.dev.mbxEnd q 0 b) (by simp [hop]) ?_ ((hmoves.parts .waiting (by decide)).trans hq.waiting) fun t ht hout => ⟨ht.answered hans, ?_⟩
      · simp only [h0, h1, h2, h3, hlen, hnewest]
        simp [s.dev.ashOldest_not_newer hm, Dev.ashFrom_newest hm hb]
      · exact ht.same.img.trans (hmoves.parts .img (by decide))
  · intro q m
    refine State.of_sent ?_ fun _ h => h
    intro s hs hq hop hlen hnewest
    simp only [exec, execLogInfo]
    obtain ⟨hans, hmoves⟩ := s.dev.mbxEnd_answers q (status := 0)
      (data := leBytes 4 (s.dev.ashOldest m) ++ leBytes 4 m ++ leBytes 4 (s.dev.ash.lostAll + s.dev.ash.lost)) (by decide) (by simp)
    refine State.mailbox_ends hs hq (by simp [hop]) ?_ ((hmoves.parts .waiting (by decide)).trans hq.waiting) fun t ht hout =>
      ⟨ht.same.img.trans (hmoves.parts .img (by decide)), ht.answered hans⟩
    rw [if_neg (by simp [hlen]), hnewest]
  · intro bytes pec
    refine State.of_sent ?_ fun _ h => h
    intro s hs hres hbusy h4 h252 hpec
    simp only [exec, execSmbBlockWrite]
    refine State.run_ends hs rfl fun t ht hout hfz => ?_
    rw [Dev.smbTake_own hres (by simpa using hpec), hbusy, if_neg (by decide), if_neg (by simp; omega)] at ht
    exact ⟨by rw [ht.same.hearth]; rfl, ht.only.2 ((Dev.Only.refl _ _ _).congr rfl)⟩
  · intro bytes pec
    refine State.of_sent ?_ fun _ h => h
    intro s hs hres hpec
    simp only [exec, execSmbBlockWrite]
    refine State.run_ends hs rfl fun t ht hout hfz => ?_
    rw [Dev.smbTake_bad hres (by simpa using hpec)] at ht
    obtain ⟨hcnt, honly, hhearth, -⟩ := s.dev.smbCount_shows (f := F.hrtSmbStatPecerr) (by simp [Fld.fits, F.hrtSmbStatPecerr]) rfl rfl
    exact ⟨ht.same.hearth.trans hhearth, (ht.get _).trans hcnt, ht.only.2 honly⟩
  · intro bytes pec
    refine State.of_sent ?_ fun _ h => h
    intro s hs hres hbusy hpec
    simp only [exec, execSmbBlockWrite]
    refine State.run_ends hs rfl fun t ht hout hfz => ?_
    rw [Dev.smbTake_own hres (by simpa using hpec), hbusy, if_pos rfl] at ht
    obtain ⟨hcnt, honly, hhearth, -⟩ := s.dev.smbCount_shows (f := F.hrtSmbStatOvr) (by simp [Fld.fits, F.hrtSmbStatOvr]) rfl rfl
    exact ⟨ht.same.hearth.trans hhearth, (ht.get _).trans hcnt, ht.only.2 honly⟩
  · intro code pec bytes
    refine State.of_sent ?_ fun _ h => h
    intro s hs hres hcode
    simp only [exec, execSmbBlockWrite]
    refine State.run_ends hs rfl fun t ht hout hfz => ?_
    rw [Dev.smbTake_other hres hcode] at ht hout
    exact ⟨by rw [hout, Dev.emit_out, hs]; rfl, by rw [ht.same.hearth]; rfl, ht.only.2 ((Dev.Only.refl _ _ _).congr rfl)⟩
  · refine State.of_sent ?_ fun _ h => h
    intro s hs hres hbusy
    simp only [exec, execSmbBlockRead]
    refine State.run_ends hs rfl fun t ht hout hfz => ?_
    rw [Dev.smbTake_own hres rfl, hbusy, if_pos rfl] at ht hout
    exact ⟨by rw [ht.same.hearth]; rfl, by rw [hout, Dev.smbReturn, Dev.emit_out, hs]; rfl⟩
  · intro b
    refine State.of_sent ?_ fun _ h => h
    intro s hs hres hbusy hb hne
    simp only [exec, execSmbBlockRead]
    refine State.run_ends hs rfl fun t ht hout hfz => ?_
    rw [Dev.smbTake_own hres rfl, hbusy, if_neg (by decide), ← hb, if_neg (by simpa using hne)] at ht hout
    refine ⟨by rw [ht.same.hearth]; rfl, ht.only.2 ((Dev.Only.refl _ _ _).congr rfl), ?_⟩
    rw [hout, Dev.smbReturn, Dev.emit_out, show (s.dev.setHearth fun h => { h with smbDone := false }).out = s.dev.out from rfl, hs]
    rfl
  · intro code ok
    refine State.of_sent ?_ fun _ h => h
    intro s hs hres hcode
    simp only [exec, execSmbBlockRead]
    refine State.run_ends hs rfl fun t ht hout hfz => ?_
    rw [Dev.smbTake_other hres hcode] at ht hout
    exact ⟨by rw [hout, Dev.emit_out, hs]; rfl, by rw [ht.same.hearth]; rfl⟩
  · refine State.of_sent ?_ fun _ h => h
    intro s hs hres
    refine exists_comm.1 ⟨s.dev.smbState, ?_⟩
    simp only [exec, execSmbReadByte]
    refine State.run_ends hs rfl fun t ht hout hfz => ?_
    rw [Dev.smbTake_own hres rfl] at ht hout
    obtain ⟨hlt, hbusy, hdone, hevt, hrec⟩ := s.dev.smbState_bits
    refine ⟨?_, hlt, hbusy, hdone, hevt, hrec, ht.only.2 ((Dev.Only.refl _ _ _).congr rfl)⟩
    rw [hout, Dev.smbReturn, Dev.emit_out, hs]
    rfl
  · refine State.of_sent ?_ fun _ h => h
    intro s hs hres
    simp only [exec, execSmbReadByte]
    refine State.run_ends hs rfl fun t ht hout hfz => ?_
    rw [Dev.smbTake_bad hres rfl] at ht hout
    obtain ⟨hcnt, honly, hhearth, ho⟩ := s.dev.smbCount_shows (f := F.hrtSmbStatPecerr) (by simp [Fld.fits, F.hrtSmbStatPecerr]) rfl rfl
    exact ⟨by rw [hout, ho, hs]; rfl, ht.same.hearth.trans hhearth, (ht.get _).trans hcnt, ht.only.2 honly⟩

end Sys2Proof.Machine
end

section
/-!
PROOFS. PROOFS. Fields set one after another; which parts of a device a function changes, its registers aside.
-/

namespace Sys2Proof.Machine

set_option Elab.async false

/-! ### Fields set one after another -/

/-- The second of two fields keeps its value where the first is set, as a test. -/
def Fld.parted (f g : Fld) : Bool :=
  decide (g.lsb + g.width ≤ 32) && (f.addr != g.addr || decide (f.lsb + f.width ≤ g.lsb) || decide (g.lsb + g.width ≤ f.lsb))

theorem Dev.get_set_off (d : Dev) (f g : Fld) (x : Nat) (h : f.parted g = true) : (d.set f x).get g = d.get g := by
  simp only [Fld.parted, Bool.and_eq_true, Bool.or_eq_true, decide_eq_true_eq, bne_iff_ne] at h
  exact Dev.get_set_apart d f g x h.1 (or_assoc.1 h.2)

theorem Dev.get_set_on (d : Dev) (f : Fld) (x : Nat) (h : decide (f.lsb + f.width ≤ 32) = true) : (d.set f x).get f = x % 2 ^ f.width :=
  Dev.get_set_self d f x (by simpa [Fld.fits] using h)

theorem Dev.flag_set_off (d : Dev) (f g : Fld) (x : Nat) (h : f.parted g = true) : (d.set f x).flag g = d.flag g := by
  simp only [Dev.flag, Dev.get_set_off d f g x h]

theorem Dev.get_setFlag_off (d : Dev) (f g : Fld) (b : Bool) (h : f.parted g = true) : (d.setFlag f b).get g = d.get g := Dev.get_set_off d f g _ h

theorem Dev.get_setFlag_on (d : Dev) (f : Fld) (b : Bool) (h : decide (f.lsb + f.width ≤ 32) = true) :
    (d.setFlag f b).get f = (if b then 1 else 0) % 2 ^ f.width := Dev.get_set_on d f _ h

theorem Dev.get_count_off (d : Dev) (f g : Fld) (n : Nat) (h : f.parted g = true) : (d.count f n).get g = d.get g := Dev.get_set_off d f g _ h

theorem Dev.get_setReg_off (d : Dev) (a : Nat) (v : Word) (g : Fld) (h : (g.addr != a) = true) : (d.setReg a v).get g = d.get g :=
  Dev.get_setReg_ne d a v g (by simpa using h)

@[simp] theorem Dev.get_setReload (d : Dev) (r : Option Reload) (g : Fld) : (d.setReload r).get g = d.get g := rfl
@[simp] theorem Dev.get_setCordInfo (d : Dev) (c : Nat) (f : CordSt → CordSt) (g : Fld) : (d.setCordInfo c f).get g = d.get g := rfl
@[simp] theorem Dev.get_setTrans (d : Dev) (f : Trans → Trans) (g : Fld) : (d.setTrans f).get g = d.get g := rfl

/-- The registers listed, and those of the events listed. -/
def shown (xs evs : List Nat) (a : Nat) : Prop := a ∈ xs ∨ ∃ n ∈ evs, a ∈ evtRegs n

theorem shown_mono {xs ys evs fs : List Nat} (hx : ∀ a ∈ xs, a ∈ ys) (he : ∀ n ∈ evs, n ∈ fs) (a : Nat) (h : shown xs evs a) : shown ys fs a :=
  h.imp (hx a) fun ⟨n, hn, ha⟩ => ⟨n, he n hn, ha⟩

/-- What no register of the list and no event shows: below the event sources, or above them. -/
theorem not_shown {xs evs : List Nat} {a : Nat} (hx : a ∉ xs) (ha : a < 0x80000 ∨ 0x81000 ≤ a) (he : ∀ n ∈ evs, n < 0x100) : ¬ shown xs evs a := by
  rintro (h | ⟨n, hn, h⟩)
  · exact hx h
  · have := he n hn
    simp only [evtRegs, R.hrtEvtSrcCtl, R.hrtEvtSrcFirstns, R.hrtEvtSrcFirstw, List.mem_cons, List.not_mem_nil, or_false] at h
    omega

theorem Dev.Moves.only {l : List Part} {xs evs : List Nat} {d e : Dev} (h : d.Moves l (shown xs evs) e) : d.Only xs evs e :=
  fun a ha he => h.regs a fun hs => hs.elim ha fun ⟨n, hn, hm⟩ => he n hn hm

theorem Dev.Moves.raised {l : List Part} {xs evs : List Nat} {d e : Dev} (h : d.Moves l (shown xs evs) e) (n : Nat) (addrs : List Nat)
    (hn : n ∈ evs) (hl : ∀ x ∈ Dev.Moves.evtParts, x ∈ l := by decide) : d.Moves l (shown xs evs) (e.raise n addrs) :=
  h.raise n addrs (fun _ ha => .inr ⟨n, hn, ha⟩) hl

/-! ### Which parts of a device a function changes, its registers aside -/

/-- A memory stays in form where some of its bytes are lost. -/
theorem Tbl.wf_filter (t : Tbl Byte) (q : Nat × Byte → Bool) (h : Tbl.wf (fun _ => 0) t = true) : Tbl.wf (fun _ => 0) (t.filter q) = true := by
  unfold Tbl.wf at *
  simp only [Bool.and_eq_true, List.all_eq_true] at *
  exact ⟨Tbl.rising_filter q h.1, fun x hx => h.2 x (List.mem_filter.1 hx).1⟩

/-- Two devices differ in the named parts and in registers alone, and what the one has in form the other has. -/
abbrev Dev.Goes (l : List Part) (d e : Dev) : Prop := d.Moves l (fun _ => True) e

namespace Dev.Goes
variable {l l' : List Part} {d e f : Dev}

theorem refl (l : List Part) (d : Dev) : d.Goes l d := Moves.refl l _ d
theorem thn (h : d.Goes l e) (k : e.Goes l' f) (hl : ∀ x ∈ l', x ∈ l := by decide) : d.Goes l f := h.trans (k.mono hl fun _ h => h)
theorem set (h : d.Goes l e) (g : Fld) (x : Nat) : d.Goes l (e.set g x) := Moves.set h g x trivial
theorem setReg (h : d.Goes l e) (a : Nat) (v : Word) : d.Goes l (e.setReg a v) := Moves.setReg h a v trivial
theorem setInt (h : d.Goes l e) (g : Fld) (x : Int) : d.Goes l (e.setInt g x) := Moves.setInt h g x trivial
theorem setFlag (h : d.Goes l e) (g : Fld) (x : Bool) : d.Goes l (e.setFlag g x) := Moves.setFlag h g x trivial
theorem count (h : d.Goes l e) (g : Fld) (n : Nat) : d.Goes l (e.count g n) := Moves.count h g n trivial
theorem setSt (h : d.Goes l e) (c n : Nat) : d.Goes l (e.setSt c n) := Moves.setSt h c n trivial
theorem raise (h : d.Goes l e) (n : Nat) (addrs : List Nat) (hl : ∀ x ∈ Moves.evtParts, x ∈ l := by decide) : d.Goes l (e.raise n addrs) :=
  Moves.raise h n addrs (fun _ _ => trivial) hl
theorem raiseWords (h : d.Goes l e) (n : Nat) (det : List Word) (from_ : List Nat) (hl : ∀ x ∈ Moves.evtParts, x ∈ l := by decide) :
    d.Goes l (e.raiseWords n det from_) :=
  Moves.raiseWords h n det from_ (fun _ _ => trivial) hl
theorem when (h : d.Goes l e) (c : Bool) (g : Dev → Dev) (hg : ∀ x : Dev, x.Goes l (g x)) : d.Goes l (e.when c g) := Moves.when h c g hg
theorem each {α : Type} (h : d.Goes l e) (xs : List α) (g : Dev → α → Dev) (hg : ∀ (y : Dev) x, y.Goes l (g y x)) : d.Goes l (e.each xs g) :=
  Moves.each h xs g fun y x _ => hg y x

theorem setEng (h : d.Goes l e) (k : Nat) (g : Engine → Engine) (hl : .engines ∈ l := by decide) : d.Goes l (e.setEng k g) := Moves.setEng h k g hl
theorem setConv (h : d.Goes l e) (k : Nat) (g : Conv → Conv) (hl : .convs ∈ l := by decide) : d.Goes l (e.setConv k g) := Moves.setConv h k g hl
theorem setWave (h : d.Goes l e) (k : Nat) (g : Wave → Wave) (hl : .waves ∈ l := by decide) : d.Goes l (e.setWave k g) := Moves.setWave h k g hl
theorem setSc (h : d.Goes l e) (w k : Nat) (g : Subc → Subc) (hl : .scs ∈ l := by decide) : d.Goes l (e.setSc w k g) := Moves.setSc h w k g hl
theorem setGrp (h : d.Goes l e) (w k : Nat) (g : Grp → Grp) (hl : .grps ∈ l := by decide) : d.Goes l (e.setGrp w k g) := Moves.setGrp h w k g hl
theorem setCry (h : d.Goes l e) (w k : Nat) (g : Crypto → Crypto) (hl : .crys ∈ l := by decide) : d.Goes l (e.setCry w k g) := Moves.setCry h w k g hl
theorem setSpr1 (h : d.Goes l e) (k : Nat) (g : SprEng → SprEng) (hl : .spr ∈ l := by decide) : d.Goes l (e.setSpr1 k g) := Moves.setSpr1 h k g hl
theorem setSpr (h : d.Goes l e) (g : SprSt → SprSt) (hl : .spr ∈ l := by decide) : d.Goes l (e.setSpr g) := Moves.setSpr h g hl
theorem setPcie (h : d.Goes l e) (g : Pcie → Pcie) (hl : .pcie ∈ l := by decide) : d.Goes l (e.setPcie g) := Moves.setPcie h g hl
theorem setPwr (h : d.Goes l e) (g : PwrSt → PwrSt) (hl : .pwr ∈ l := by decide) : d.Goes l (e.setPwr g) := Moves.setPwr h g hl
theorem setCordInfo (h : d.Goes l e) (c : Nat) (g : CordSt → CordSt) (hl : .pwr ∈ l := by decide) : d.Goes l (e.setCordInfo c g) := Moves.setCordInfo h c g hl
theorem setHearth (h : d.Goes l e) (g : HearthSt → HearthSt) (hl : .hearth ∈ l := by decide) : d.Goes l (e.setHearth g) := Moves.setHearth h g hl
theorem setPkt (h : d.Goes l e) (g : PktSt → PktSt) (hl : .pkt ∈ l := by decide) : d.Goes l (e.setPkt g) := Moves.setPkt h g hl
theorem setMac (h : d.Goes l e) (k : Nat) (g : Mac → Mac) (hl : .macs ∈ l := by decide) : d.Goes l (e.setMac k g) := Moves.setMac h k g hl
theorem setLane (h : d.Goes l e) (k : Nat) (g : Lane → Lane) (hl : .lanes ∈ l := by decide) : d.Goes l (e.setLane k g) := Moves.setLane h k g hl
theorem setInj (h : d.Goes l e) (k : Nat) (g : Inj → Inj) (hl : .inj ∈ l := by decide) : d.Goes l (e.setInj k g) := Moves.setInj h k g hl
theorem setRing (h : d.Goes l e) (tx : Bool) (r : Nat) (g : Ring → Ring) (hl : .pcie ∈ l := by decide) : d.Goes l (e.setRing tx r g) := Moves.setRing h tx r g hl
theorem setBuf (h : d.Goes l e) (g : BufSt → BufSt) (hl : .buf ∈ l := by decide) : d.Goes l (e.setBuf g) := Moves.setBuf h g hl
theorem setWaiting (h : d.Goes l e) (w : List Access) (hl : .waiting ∈ l := by decide) : d.Goes l (e.setWaiting w) := Moves.setWaiting h w hl
theorem setOut (h : d.Goes l e) (w : List Output) (hl : .out ∈ l := by decide) : d.Goes l (e.setOut w) := Moves.setOut h w hl
theorem setQueue (h : d.Goes l e) (q : Nat) (g : Queue → Queue) (hl : .buf ∈ l := by decide) : d.Goes l (e.setQueue q g) := Moves.setQueue h q g hl
theorem setSampler (h : d.Goes l e) (k : Nat) (g : Sampler → Sampler) (hl : .buf ∈ l := by decide) : d.Goes l (e.setSampler k g) := Moves.setSampler h k g hl
theorem setOwner (h : d.Goes l e) (b : Nat) (r : Option BufRec) (hl : .buf ∈ l := by decide) : d.Goes l (e.setOwner b r) := Moves.setOwner h b r hl
theorem setRule (h : d.Goes l e) (r : Nat) (g : Rule → Rule) (hl : .pkt ∈ l := by decide) : d.Goes l (e.setRule r g) := Moves.setRule h r g hl
theorem setTrans (h : d.Goes l e) (g : Trans → Trans) (hl : .pwr ∈ l := by decide) : d.Goes l (e.setTrans g) := Moves.setTrans h g hl
theorem setReload (h : d.Goes l e) (r : Option Reload) (hl : .img ∈ l := by decide) : d.Goes l (e.setReload r) := Moves.setReload h r hl
theorem setWl (h : d.Goes l e) (w : Nat) (g : WlTime → WlTime) (hl : .time ∈ l := by decide) : d.Goes l (e.setWl w g) := Moves.setWl h w g hl
theorem emit (h : d.Goes l e) (o : Output) (hl : .out ∈ l := by decide) : d.Goes l (e.emit o) := Moves.emit h o hl
theorem ashAdd (h : d.Goes l e) (kind evt code : Nat) (data : List Byte) (from_ : List Nat) (hl : .ash ∈ l := by decide) : d.Goes l (e.ashAdd kind evt code data from_) := Moves.ashAdd h kind evt code data from_ hl
theorem setImg (h : d.Goes l e) (g : ImgSt → ImgSt) (hg : Tbl.wf (fun _ => 0) e.img.mram = true → Tbl.wf (fun _ => 0) (g e.img).mram = true)
    (hl : .img ∈ l := by decide) : d.Goes l (e.setImg g) := Moves.setImg h g hg hl
theorem setEmber (h : d.Goes l e) (g : EmberSt → EmberSt) (hg : Tbl.wf (fun _ => 0) e.ember.bytes = true → Tbl.wf (fun _ => 0) (g e.ember).bytes = true)
    (hl : .ember ∈ l := by decide) : d.Goes l (e.setEmber g) := Moves.setEmber h g hg hl
theorem setTime (h : d.Goes l e) (g : TimeSt → TimeSt) (hg : e.time.InRange → (g e.time).InRange) (hl : .time ∈ l := by decide) :
    d.Goes l (e.setTime g) := Moves.setTime h g hg hl
theorem msixSend (h : d.Goes l e) (v : Nat) (ho : .out ∈ l := by decide) (hh : .msixHeld ∈ l := by decide) : d.Goes l (e.msixSend v) := Moves.msixSend h v ho hh

/-- Either of two devices. -/
theorem ite {c : Prop} [Decidable c] (h : d.Goes l e) (k : d.Goes l f) : d.Goes l (if c then e else f) := by
  split
  · exact h
  · exact k

/-- The device of an answer just made. -/
theorem pair {α : Type} (h : d.Goes l e) (a : α) : d.Goes l (e, a).1 := h

/-- The device of either of two answers. -/
theorem ite_fst {α : Type} {c : Prop} [Decidable c] {x y : Dev × α} (h : d.Goes l x.1) (k : d.Goes l y.1) : d.Goes l (if c then x else y).1 := by
  split
  · exact h
  · exact k

/-- The device of an answer. -/
theorem of_eq_fst {α : Type} {x : Dev × α} {y : Dev} {a : α} (h : d.Goes l x.1) (he : x = (y, a)) : d.Goes l y := by
  rw [he] at h
  exact h

/-- A fold that carries a device along. -/
theorem foldl_fst {α β : Type} (g : Dev × β → α → Dev × β) (hg : ∀ (a : Dev × β) x, a.1.Goes l (g a x).1) (xs : List α) {a : Dev × β} (h : d.Goes l a.1) :
    d.Goes l (xs.foldl g a).1 := by
  induction xs generalizing a with
  | nil => exact h
  | cons x t ih => exact ih (h.thn (hg a x) fun _ h => h)

/-- Registers dropped to their reset values (R388). -/
theorem dropRegs (h : d.Goes l e) (lo hi : Nat) : d.Goes l (e.dropRegs lo hi) :=
  Moves.trans h ⟨fun x _ => by cases x <;> rfl, fun _ ha => absurd trivial ha,
    fun hf => ⟨hf.time, Tbl.wf_dropRange regReset lo hi hf.regs, hf.mram, hf.ember⟩⟩

theorem with_aerrAdr (h : d.Goes l e) (a : Nat) (hl : .aerrAdr ∈ l := by decide) : d.Goes l { e with aerrAdr := a } :=
  Moves.part h hl rfl (fun hf => ⟨hf.time, hf.regs, hf.mram, hf.ember⟩) fun x hx => by
    cases x
    case aerrAdr => exact absurd rfl hx
    all_goals rfl

theorem with_time (h : d.Goes l e) (t : TimeSt) (ht : e.time.InRange → t.InRange) (hl : .time ∈ l := by decide) : d.Goes l { e with time := t } :=
  Moves.setTime h (fun _ => t) ht hl

theorem with_blown (h : d.Goes l e) (n : Nat) (hl : .blown ∈ l := by decide) : d.Goes l { e with blown := n } :=
  Moves.part h hl rfl (fun hf => ⟨hf.time, hf.regs, hf.mram, hf.ember⟩) fun x hx => by
    cases x
    case blown => exact absurd rfl hx
    all_goals rfl

theorem with_ash (h : d.Goes l e) (a : AshSt) (hl : .ash ∈ l := by decide) : d.Goes l { e with ash := a } :=
  Moves.part h hl rfl (fun hf => ⟨hf.time, hf.regs, hf.mram, hf.ember⟩) fun x hx => by
    cases x
    case ash => exact absurd rfl hx
    all_goals rfl

theorem with_tap (h : d.Goes l e) (t : TapInstr) (hl : .tap ∈ l := by decide) : d.Goes l { e with tap := t } :=
  Moves.part h hl rfl (fun hf => ⟨hf.time, hf.regs, hf.mram, hf.ember⟩) fun x hx => by
    cases x
    case tap => exact absurd rfl hx
    all_goals rfl

theorem with_msixHeld (h : d.Goes l e) (t : List Nat) (hl : .msixHeld ∈ l := by decide) : d.Goes l { e with msixHeld := t } :=
  Moves.part h hl rfl (fun hf => ⟨hf.time, hf.regs, hf.mram, hf.ember⟩) fun x hx => by
    cases x
    case msixHeld => exact absurd rfl hx
    all_goals rfl

theorem with_msixTable (h : d.Goes l e) (t : Tbl MsixVec) (hl : .msixTable ∈ l := by decide) : d.Goes l { e with msixTable := t } :=
  Moves.part h hl rfl (fun hf => ⟨hf.time, hf.regs, hf.mram, hf.ember⟩) fun x hx => by
    cases x
    case msixTable => exact absurd rfl hx
    all_goals rfl

theorem with_inj_ (h : d.Goes l e) (t : Tbl Inj) (hl : .inj ∈ l := by decide) : d.Goes l { e with inj_ := t } :=
  Moves.part h hl rfl (fun hf => ⟨hf.time, hf.regs, hf.mram, hf.ember⟩) fun x hx => by
    cases x
    case inj => exact absurd rfl hx
    all_goals rfl

theorem with_free (h : d.Goes l e) (n : Nat) (hl : .free ∈ l := by decide) : d.Goes l { e with free := n } := Moves.setFree h n hl
theorem with_reclaim (h : d.Goes l e) (c : List Nat) (hl : .reclaim ∈ l := by decide) : d.Goes l { e with reclaim := c } := Moves.setReclaim h c hl
theorem with_waiting (h : d.Goes l e) (w : List Access) (hl : .waiting ∈ l := by decide) : d.Goes l { e with waiting := w } := Moves.setWaiting h w hl
theorem with_pkt (h : d.Goes l e) (p : PktSt) (hl : .pkt ∈ l := by decide) : d.Goes l { e with pkt := p } := Moves.setPkt h (fun _ => p) hl
theorem with_buf (h : d.Goes l e) (b : BufSt) (hl : .buf ∈ l := by decide) : d.Goes l { e with buf := b } := Moves.setBuf h (fun _ => b) hl
theorem with_buf_reclaim (h : d.Goes l e) (b : BufSt) (c : List Nat) (hb : .buf ∈ l := by decide) (hr : .reclaim ∈ l := by decide) :
    d.Goes l { e with buf := b, reclaim := c } := (h.with_buf b hb).with_reclaim c hr

theorem with_macs_lanes (h : d.Goes l e) (m : Tbl Mac) (n : Tbl Lane) (hm : .macs ∈ l := by decide) (hn : .lanes ∈ l := by decide) :
    d.Goes l { e with macs := m, lanes := n } :=
  Moves.trans h ⟨fun x hx => by
    cases x
    case macs => exact absurd hm hx
    case lanes => exact absurd hn hx
    all_goals rfl, fun _ ha => absurd trivial ha, fun hf => ⟨hf.time, hf.regs, hf.mram, hf.ember⟩⟩

theorem with_scs_grps_crys (h : d.Goes l e) (s : Tbl Subc) (g : Tbl Grp) (c : Tbl Crypto) (hs : .scs ∈ l := by decide) (hg : .grps ∈ l := by decide)
    (hc : .crys ∈ l := by decide) : d.Goes l { e with scs := s, grps := g, crys := c } :=
  Moves.trans h ⟨fun x hx => by
    cases x
    case scs => exact absurd hs hx
    case grps => exact absurd hg hx
    case crys => exact absurd hc hx
    all_goals rfl, fun _ ha => absurd trivial ha, fun hf => ⟨hf.time, hf.regs, hf.mram, hf.ember⟩⟩

end Dev.Goes

end Sys2Proof.Machine
end

section
/-!
PROOFS. The parts of the device each function of the model moves, and that it keeps in form what is in form (R348): one lemma a function, named after it.
-/

namespace Sys2Proof.Machine

set_option Elab.async false

/-! ### The parts of the device each function of the model moves -/

/-- A function that moves parts of a list moves parts of a longer one. -/
theorem Dev.Goes.within {l l' : List Part} {d e : Dev} (k : d.Goes l' e) (hl : ∀ x ∈ l', x ∈ l := by decide) : d.Goes l e :=
  (Dev.Goes.refl _ _).thn k hl

theorem Dev.showNext_goes (d : Dev) (w : ℕ) (sc : ℕ) (next : Option ℕ) : d.Goes [] (Dev.showNext d w sc next) := by
  unfold Dev.showNext
  refine (Dev.Goes.refl _ _).each _ _ fun d e => ?_
  · split
    · exact ((Dev.Goes.refl _ _).set _ _).set _ _
    · exact (Dev.Goes.refl _ _).set _ _

theorem Dev.withdrawOwn_goes (d : Dev) (w : ℕ) (p : Proposal) : d.Goes [.waves] (Dev.withdrawOwn d w p) := by
  unfold Dev.withdrawOwn
  extract_lets +onlyGivenNames mine d1
  have hd1 : d.Goes [.waves] d1 := (Dev.Goes.refl _ _).setWave _ _
  exact hd1.when _ _ fun d => (Dev.Goes.refl _ _).each _ _ fun d c => (Dev.Goes.refl _ _).when _ _ fun d => Dev.Goes.within (Dev.showNext_goes _ _ _ _)

theorem Dev.sfEvent_goes (d : Dev) (w : ℕ) (c : ℕ) (addrs : List ℕ) : d.Goes [.out, .ash, .msixHeld] (Dev.sfEvent d w c addrs) := by
  unfold Dev.sfEvent
  exact (Dev.Goes.refl _ _).raise _ _

theorem Dev.abandon_goes (d : Dev) (w : ℕ) : d.Goes [.out, .ash, .msixHeld, .waves] (Dev.abandon d w) := by
  unfold Dev.abandon
  extract_lets +onlyGivenNames d0
  have hd0 : d.Goes [.out, .ash, .msixHeld, .waves] d0 := by
    unfold d0
    split
    · exact Dev.Goes.ite (Dev.Goes.within (Dev.withdrawOwn_goes _ _ _)) (Dev.Goes.refl _ _)
    · exact Dev.Goes.refl _ _
  exact (((hd0.setWave _ _).set _ _).set _ _).thn (Dev.sfEvent_goes _ _ _ _)

theorem Dev.setStage_goes (d : Dev) (l : ℕ) (n : ℕ) : d.Goes [] (Dev.setStage d l n) := by
  unfold Dev.setStage
  exact (Dev.Goes.refl _ _).set _ _

theorem Dev.laneEvent_goes (d : Dev) (l : ℕ) (n : ℕ) (addrs : List ℕ) : d.Goes [.out, .ash, .msixHeld] (Dev.laneEvent d l n addrs) := by
  unfold Dev.laneEvent
  extract_lets +onlyGivenNames h i f
  exact ((Dev.Goes.refl _ _).set _ _).raise _ _

theorem Dev.enterActive_goes (d : Dev) (l : ℕ) : d.Goes [.out, .ash, .msixHeld, .lanes] (Dev.enterActive d l) := by
  unfold Dev.enterActive
  exact ((Dev.Goes.within (Dev.setStage_goes _ _ _)).setLane _ _).thn (Dev.laneEvent_goes _ _ _ _)

theorem Dev.loopStage_goes (d : Dev) (l : ℕ) : d.Goes [.out, .ash, .msixHeld, .lanes] (Dev.loopStage d l) := by
  unfold Dev.loopStage
  exact Dev.Goes.ite (Dev.Goes.within (Dev.setStage_goes _ _ _)) (Dev.Goes.ite (Dev.Goes.within (Dev.enterActive_goes _ _)) (Dev.Goes.refl _ _))

theorem Dev.laneStart_goes (d : Dev) (l : ℕ) : d.Goes [.out, .ash, .msixHeld, .lanes] (Dev.laneStart d l) := by
  unfold Dev.laneStart
  refine Dev.Goes.ite (Dev.Goes.within (Dev.setStage_goes _ _ _)) ?_
  · extract_lets +onlyGivenNames d1
    have hd1 : d.Goes [.out, .ash, .msixHeld, .lanes] d1 := (((((Dev.Goes.refl _ _).set _ _).set _ _).set _ _).set _ _).setLane _ _
    exact (hd1.thn (Dev.setStage_goes _ _ _)).thn (Dev.loopStage_goes _ _)

theorem Dev.unpark_goes (d : Dev) (p : ℕ) : d.Goes [.out, .ash, .pwr, .msixHeld, .lanes] (Dev.unpark d p) := by
  unfold Dev.unpark
  exact (((((Dev.Goes.refl _ _).set _ _).set _ _).setPwr _).each _ _ fun d l => Dev.Goes.within (Dev.laneStart_goes _ _)).raise _ _

theorem Dev.wakePorts_goes (d : Dev) : d.Goes [.out, .ash, .pwr, .msixHeld, .lanes] (Dev.wakePorts d) := by
  unfold Dev.wakePorts
  exact ((Dev.Goes.refl _ _).each _ _ fun d p => (Dev.Goes.refl _ _).when _ _ fun d => Dev.Goes.within (Dev.unpark_goes _ _)).setPwr _

theorem Dev.noteDone_goes (d : Dev) (c : ℕ) (on : Bool) : d.Goes [.pwr] (Dev.noteDone d c on) := by
  unfold Dev.noteDone
  exact (Dev.Goes.refl _ _).setTrans _

theorem Dev.bufReject_goes (d : Dev) (b : ℕ) (agent : ℕ) (kind : ℕ) : d.Goes [.out, .ash, .msixHeld] (Dev.bufReject d b agent kind) := by
  unfold Dev.bufReject
  extract_lets +onlyGivenNames d1
  have hd1 : d.Goes [.out, .ash, .msixHeld] d1 := (((Dev.Goes.refl _ _).set _ _).set _ _).set _ _
  exact Dev.Goes.ite ((hd1.count _ _).raise _ _) ((hd1.count _ _).raise _ _)

theorem Dev.poolLow_goes (d : Dev) (p : ℕ) : d.Goes [.out, .ash, .msixHeld, .buf] (Dev.poolLow d p) := by
  unfold Dev.poolLow
  extract_lets +onlyGivenNames now was d1
  have hd1 : d.Goes [.out, .ash, .msixHeld, .buf] d1 := (Dev.Goes.refl _ _).setBuf _
  exact hd1.when _ _ fun d => (Dev.Goes.refl _ _).raise _ _

theorem Dev.giveBack_goes (d : Dev) (b : ℕ) (r : BufRec) : d.Goes [.out, .ash, .msixHeld, .buf] (Dev.giveBack d b r) := by
  unfold Dev.giveBack
  extract_lets +onlyGivenNames i used d1
  have hd1 : d.Goes [.out, .ash, .msixHeld, .buf] d1 := ((Dev.Goes.refl _ _).setOwner _ _).set _ _
  exact (hd1.when _ _ fun d => (Dev.Goes.refl _ _).set _ _).thn (Dev.poolLow_goes _ _)

theorem Dev.freeBuf_goes (d : Dev) (b : ℕ) (agent : ℕ) : d.Goes [.out, .ash, .msixHeld, .buf] (Dev.freeBuf d b agent) := by
  unfold Dev.freeBuf
  refine Dev.Goes.ite (Dev.Goes.refl _ _) ?_
  · split
    · exact Dev.Goes.within (Dev.bufReject_goes _ _ _ _)
    · exact Dev.Goes.ite (Dev.Goes.within (Dev.giveBack_goes _ _ _)) (Dev.Goes.within (Dev.bufReject_goes _ _ _ _))

theorem Dev.freeBufs_goes (d : Dev) (bs : List ℕ) (agent : ℕ) : d.Goes [.out, .ash, .msixHeld, .buf] (Dev.freeBufs d bs agent) := by
  unfold Dev.freeBufs
  exact (Dev.Goes.refl _ _).each _ _ fun d b => Dev.Goes.within (Dev.freeBuf_goes _ _ _)

theorem Dev.macDown_goes (d : Dev) (p : ℕ) (rxFrame : Bool) : d.Goes [.out, .ash, .msixHeld, .buf, .macs] (Dev.macDown d p rxFrame) := by
  unfold Dev.macDown
  refine (Dev.Goes.refl _ _).when _ _ fun d => ?_
  · extract_lets +onlyGivenNames d1 d2
    have hd1 : d.Goes [.out, .ash, .msixHeld, .buf, .macs] d1 := ((Dev.Goes.refl _ _).set _ _).when _ _ fun d => (Dev.Goes.refl _ _).count _ _
    have hd2 : d.Goes [.out, .ash, .msixHeld, .buf, .macs] d2 := by
      unfold d2
      split
      · exact ((hd1.setMac _ _).thn (Dev.freeBufs_goes _ _ _)).count _ _
      · exact hd1
    exact (hd2.setMac _ _).raise _ _

theorem Dev.macLost_goes (d : Dev) (p : ℕ) : d.Goes [.free, .out, .ash, .msixHeld, .buf, .macs] (Dev.macLost d p) := by
  unfold Dev.macLost
  exact (Dev.Goes.refl _ _).when _ _ fun d => ((Dev.Goes.refl _ _).with_free _).thn (Dev.macDown_goes _ _ _)

theorem Dev.pauseStat_goes (d : Dev) (p : ℕ) : d.Goes [] (Dev.pauseStat d p) := by
  unfold Dev.pauseStat
  extract_lets +onlyGivenNames m
  exact ((Dev.Goes.refl _ _).setFlag _ _).set _ _

theorem Dev.park_goes (d : Dev) (p : ℕ) : d.Goes [.free, .out, .ash, .msixHeld, .buf, .macs] (Dev.park d p) := by
  unfold Dev.park
  extract_lets +onlyGivenNames d1 d2
  have hd1 : d.Goes [.free, .out, .ash, .msixHeld, .buf, .macs] d1 := (Dev.Goes.within (Dev.macLost_goes _ _)).each _ _ fun d l => Dev.Goes.within (Dev.setStage_goes _ _ _)
  have hd2 : d.Goes [.free, .out, .ash, .msixHeld, .buf, .macs] d2 := ((hd1.setMac _ _).thn (Dev.pauseStat_goes _ _)).set _ _
  exact ((((hd2.set _ _).set _ _).set _ _).set _ _).raise _ _

theorem Dev.dozePorts_goes (d : Dev) : d.Goes [.free, .out, .ash, .pwr, .msixHeld, .buf, .macs] (Dev.dozePorts d) := by
  unfold Dev.dozePorts
  exact (Dev.Goes.refl _ _).each _ _ fun d p => Dev.Goes.ite (Dev.Goes.refl _ _) (Dev.Goes.ite ((Dev.Goes.refl _ _).when _ _ fun d => ((Dev.Goes.refl _ _).set _ _).count _ _) ((Dev.Goes.within (Dev.park_goes _ _)).setPwr _))

theorem Dev.nextPair_goes (r : PktRun) (l : List ℕ) (d : Dev) : d.Goes [.pkt] (Dev.nextPair r l d).1 := by
  have hrun : ∀ x : PktSt → PktSt, d.Goes [.pkt] (d.setPkt x) := fun x => (Dev.Goes.refl _ _).setPkt x
  induction l with
  | nil =>
    unfold Dev.nextPair
    exact Dev.Goes.ite_fst ((hrun _).pair _) ((hrun _).pair _)
  | cons p t ih =>
    unfold Dev.nextPair
    exact Dev.Goes.ite_fst ih ((hrun _).pair _)

theorem Dev.startRun_goes (d : Dev) (reload : Bool) : d.Goes [.pkt] (Dev.startRun d reload).1 := by
  unfold Dev.startRun
  extract_lets +onlyGivenNames x m
  exact Dev.Goes.within (Dev.nextPair_goes _ _ _)

theorem Dev.startShrink_goes (d : Dev) : d.Goes [.pkt] (Dev.startShrink d).1 := by
  unfold Dev.startShrink
  exact Dev.Goes.within (Dev.nextPair_goes _ _ _)

theorem Dev.cordWake_goes (d : Dev) (c : ℕ) (why : Why) : d.Goes [.pwr] (Dev.cordWake d c why) := by
  unfold Dev.cordWake
  exact ((Dev.Goes.refl _ _).setSt _ _).setCordInfo _ _

theorem Dev.rampNext_goes (d : Dev) (w : ℕ) : d.Goes [.waves] (Dev.rampNext d w) := by
  unfold Dev.rampNext
  split
  · exact (Dev.Goes.refl _ _).setWave _ _
  · exact Dev.Goes.ite (Dev.Goes.refl _ _) (Dev.Goes.ite ((Dev.Goes.refl _ _).setWave _ _) ((Dev.Goes.refl _ _).when _ _ fun d => (Dev.Goes.refl _ _).setWave _ _))

theorem Dev.txRefresh_goes (d : Dev) : d.Goes [.waves] (Dev.txRefresh d) := by
  unfold Dev.txRefresh
  exact ((Dev.Goes.within (Dev.rampNext_goes _ _)).thn (Dev.rampNext_goes _ _)).each _ _ fun d e => (Dev.Goes.refl _ _).when _ _ fun d => (Dev.Goes.refl _ _).set _ _

theorem Dev.cutBursts_goes (d : Dev) (w : ℕ) (counted : Bool) : d.Goes [.waves] (Dev.cutBursts d w counted) := by
  unfold Dev.cutBursts
  extract_lets +onlyGivenNames n
  exact (((Dev.Goes.refl _ _).when _ _ fun d => (Dev.Goes.refl _ _).count _ _).setWave _ _).thn (Dev.txRefresh_goes _)

theorem Dev.askDecode_goes (d : Dev) (w : ℕ) (m : ℕ) : d.Goes [.engines, .waves] (Dev.askDecode d w m) := by
  unfold Dev.askDecode
  extract_lets +onlyGivenNames d1
  have hd1 : d.Goes [.engines, .waves] d1 := (Dev.Goes.refl _ _).setWave _ _
  exact hd1.each _ _ fun d e => (Dev.Goes.refl _ _).setEng _ _

theorem Dev.setAct_goes (d : Dev) (w : ℕ) (st : ℕ) : d.Goes [.out, .ash, .msixHeld, .engines, .waves] (Dev.setAct d w st) := by
  unfold Dev.setAct
  exact Dev.Goes.ite (Dev.Goes.refl _ _) (((((Dev.Goes.refl _ _).set _ _).setWave _ _).thn (Dev.askDecode_goes _ _ _)).thn (Dev.sfEvent_goes _ _ _ _))

theorem Dev.actenWritten_goes (d : Dev) (w : ℕ) : d.Goes [.out, .ash, .msixHeld, .engines, .waves] (Dev.actenWritten d w) := by
  unfold Dev.actenWritten
  exact (Dev.Goes.refl _ _).when _ _ fun d => Dev.Goes.within (Dev.setAct_goes _ _ _)

theorem Dev.ringRefresh_goes (d : Dev) (tx : Bool) (r : ℕ) (msg : Bool) : d.Goes [.out, .msixHeld] (Dev.ringRefresh d tx r msg) := by
  unfold Dev.ringRefresh
  extract_lets +onlyGivenNames fill above
  refine Dev.Goes.ite (((Dev.Goes.refl _ _).set _ _).set _ _) ?_
  · extract_lets +onlyGivenNames n now
    exact (((Dev.Goes.refl _ _).set _ _).setFlag _ _).when _ _ fun x => (Dev.Goes.refl _ _).msixSend _

theorem Dev.enablesOff_goes (d : Dev) (c : ℕ) : d.Goes [.out, .msixHeld] (Dev.enablesOff d c) := by
  unfold Dev.enablesOff
  exact Dev.Goes.ite ((Dev.Goes.refl _ _).set _ _) (Dev.Goes.ite ((Dev.Goes.refl _ _).each _ _ fun d q => (Dev.Goes.refl _ _).set _ _) (Dev.Goes.ite ((Dev.Goes.refl _ _).each _ _ fun d r => ((Dev.Goes.refl _ _).set _ _).thn (Dev.ringRefresh_goes _ _ _ _)) (Dev.Goes.refl _ _)))

theorem Dev.keyAbandon_goes (d : Dev) (w : ℕ) : d.Goes [.waves] (Dev.keyAbandon d w) := by
  unfold Dev.keyAbandon
  extract_lets +onlyGivenNames mine
  exact (((Dev.Goes.refl _ _).setWave _ _).set _ _).set _ _

theorem Dev.lfAbandon_goes (d : Dev) (w : ℕ) : d.Goes [.out, .ash, .msixHeld, .waves] (Dev.lfAbandon d w) := by
  unfold Dev.lfAbandon
  extract_lets +onlyGivenNames v prf ksw
  exact (((Dev.Goes.refl _ _).when _ _ fun d => Dev.Goes.within (Dev.abandon_goes _ _)).when _ _ fun d => Dev.Goes.within (Dev.keyAbandon_goes _ _)).setWave _ _

theorem Dev.ringPass_goes (d : Dev) (tx : Bool) (r : ℕ) (n : ℕ) : d.Goes [.out, .msixHeld] (Dev.ringPass d tx r n) := by
  unfold Dev.ringPass
  exact ((Dev.Goes.refl _ _).set _ _).thn (Dev.ringRefresh_goes _ _ _ _)

theorem Dev.ringEmpty_goes (d : Dev) (tx : Bool) (r : ℕ) (ws : List (BitVec 64)) : d.Goes [.out, .ash, .pcie, .msixHeld, .buf] (Dev.ringEmpty d tx r ws) := by
  unfold Dev.ringEmpty
  extract_lets +onlyGivenNames g n
  exact (((Dev.Goes.refl _ _).each _ _ fun d x => Dev.Goes.within (Dev.freeBufs_goes _ _ _)).setRing _ _ _).count _ _

theorem Dev.txDone_goes (d : Dev) (r : ℕ) (c : ℕ) (st : ℕ) : d.Goes [.out] (Dev.txDone d r c st) := by
  unfold Dev.txDone
  exact (Dev.Goes.refl _ _).emit _

theorem Dev.writeDescs_goes (d : Dev) (r : ℕ) (p : Pkt) (addrs : List (BitVec 64)) (n : ℕ) (status : ℕ) : d.Goes [.out] (Dev.writeDescs d r p addrs n status) := by
  unfold Dev.writeDescs
  extract_lets +onlyGivenNames sz h part addr d1
  have hd1 : d.Goes [.out] d1 := (Dev.Goes.refl _ _).each _ _ fun d i => (Dev.Goes.refl _ _).emit _
  exact hd1.each _ _ fun d i => (Dev.Goes.refl _ _).emit _

theorem Dev.ringFlush_goes (d : Dev) (tx : Bool) (r : ℕ) (written : List (BitVec 64)) : d.Goes [.out, .ash, .pcie, .msixHeld, .buf] (Dev.ringFlush d tx r written) := by
  unfold Dev.ringFlush
  extract_lets +onlyGivenNames d1
  have hd1 : d.Goes [.out, .ash, .pcie, .msixHeld, .buf] d1 := (Dev.Goes.refl _ _).set _ _
  refine Dev.Goes.ite ?_ ?_
  · extract_lets +onlyGivenNames n h
    exact ((hd1.each _ _ fun d i => Dev.Goes.within (Dev.txDone_goes _ _ _ _)).thn (Dev.ringEmpty_goes _ _ _ _)).thn (Dev.ringPass_goes _ _ _ _)
  · split
    · exact hd1.thn (Dev.ringRefresh_goes _ _ _ _)
    · extract_lets +onlyGivenNames n'
      exact ((hd1.thn (Dev.writeDescs_goes _ _ _ _ _ _)).thn (Dev.ringEmpty_goes _ _ _ _)).thn (Dev.ringPass_goes _ _ _ _)

theorem Dev.withdraw_goes (d : Dev) (c : ℕ) : d.Goes [.out, .ash, .pcie, .msixHeld, .engines, .waves, .buf] (Dev.withdraw d c) := by
  unfold Dev.withdraw
  exact Dev.Goes.ite (Dev.Goes.within (Dev.cutBursts_goes _ _ _)) (Dev.Goes.ite ((((Dev.Goes.within (Dev.lfAbandon_goes _ _)).thn (Dev.cutBursts_goes _ _ _)).thn (Dev.enablesOff_goes _ _)).thn (Dev.actenWritten_goes _ _)) (Dev.Goes.ite (((Dev.Goes.refl _ _).each _ _ fun d r => Dev.Goes.within (Dev.ringFlush_goes _ _ _ _)).thn (Dev.enablesOff_goes _ _)) (Dev.Goes.within (Dev.enablesOff_goes _ _))))

theorem Dev.startDrain_goes (d : Dev) (c : ℕ) (why : Why) : d.Goes [.out, .ash, .pwr, .pcie, .msixHeld, .engines, .waves, .buf] (Dev.startDrain d c why) := by
  unfold Dev.startDrain
  exact (((Dev.Goes.within (Dev.withdraw_goes _ _)).setSt _ _).setCordInfo _ _).thn (Dev.txRefresh_goes _)

theorem Dev.sprShow_goes (d : Dev) : d.Goes [] (Dev.sprShow d) := by
  unfold Dev.sprShow
  exact (Dev.Goes.refl _ _).set _ _

theorem Dev.setRole_goes (d : Dev) (e : ℕ) (n : ℕ) : d.Goes [] (Dev.setRole d e n) := by
  unfold Dev.setRole
  exact ((Dev.Goes.refl _ _).set _ _).when _ _ fun d => (Dev.Goes.refl _ _).set _ _

theorem Dev.switchItem_goes (d : Dev) (c : ℕ) (on : Bool) : d.Goes [.free, .out, .ash, .pwr, .pcie, .msixHeld, .engines, .waves, .pkt, .buf, .macs, .lanes] (Dev.switchItem d c on).1 := by
  unfold Dev.switchItem
  refine Dev.Goes.ite_fst (Dev.Goes.ite_fst ((Dev.Goes.within (Dev.wakePorts_goes _)).pair _) (((Dev.Goes.within (Dev.dozePorts_goes _)).thn (Dev.noteDone_goes _ _ _)).pair _)) (Dev.Goes.ite_fst ((Dev.Goes.refl _ _).pair _) (Dev.Goes.ite_fst ?_ ?_))
  · extract_lets +onlyGivenNames full small
    exact Dev.Goes.ite_fst ((Dev.Goes.refl _ _).pair _) (Dev.Goes.ite_fst ((Dev.Goes.within (Dev.noteDone_goes _ _ _)).thn (Dev.startRun_goes _ _)) ((Dev.Goes.within (Dev.noteDone_goes _ _ _)).thn (Dev.startShrink_goes _)))
  · extract_lets +onlyGivenNames st
    exact Dev.Goes.ite_fst ((Dev.Goes.refl _ _).pair _) (Dev.Goes.ite_fst (Dev.Goes.ite_fst (((Dev.Goes.within (Dev.noteDone_goes _ _ _)).thn (Dev.cordWake_goes _ _ _)).pair _) ((Dev.Goes.refl _ _).pair _)) (Dev.Goes.ite_fst ((Dev.Goes.refl _ _).pair _) ((((Dev.Goes.within (Dev.noteDone_goes _ _ _)).thn (Dev.startDrain_goes _ _ _)).when _ _ fun d => (Dev.Goes.within (Dev.setRole_goes _ _ _)).thn (Dev.sprShow_goes _)).pair _)))

theorem Dev.goBack_goes (l : List (ℕ × Bool)) (d : Dev) : d.Goes [.free, .out, .ash, .pwr, .pcie, .msixHeld, .engines, .waves, .pkt, .buf, .macs, .lanes] (Dev.goBack l d).1 := by
  induction l generalizing d with
  | nil => exact ((Dev.Goes.refl _ _).setTrans _).pair _
  | cons x t ih =>
    have hy : d.Goes [.free, .out, .ash, .pwr, .pcie, .msixHeld, .engines, .waves, .pkt, .buf, .macs, .lanes] (d.switchItem x.1 x.2).1 := Dev.Goes.within (Dev.switchItem_goes _ _ _)
    exact Dev.Goes.ite_fst (hy.thn (ih _)) ((hy.setTrans _).pair _)

theorem Dev.pwrAbort_goes (d : Dev) (k : ℕ) : d.Goes [.out, .ash, .msixHeld] (Dev.pwrAbort d k) := by
  unfold Dev.pwrAbort
  exact ((((Dev.Goes.refl _ _).count _ _).set _ _).set _ _).raise _ _

theorem Dev.abortTrans_goes (d : Dev) (k : ℕ) : d.Goes [.free, .out, .ash, .pwr, .pcie, .msixHeld, .engines, .waves, .pkt, .buf, .macs, .lanes] (Dev.abortTrans d k).1 := by
  unfold Dev.abortTrans
  extract_lets +onlyGivenNames l
  exact (((Dev.Goes.within (Dev.pwrAbort_goes _ _)).set _ _).setTrans _).thn (Dev.goBack_goes _ _)

theorem Dev.goOn_goes (l : List (ℕ × Bool)) (d : Dev) : d.Goes [.free, .out, .ash, .pwr, .pcie, .msixHeld, .engines, .waves, .pkt, .buf, .macs, .lanes] (Dev.goOn l d).1 := by
  induction l generalizing d with
  | nil =>
    unfold Dev.goOn
    split
    · split
      · exact Dev.Goes.within (Dev.abortTrans_goes _ _)
      · exact ((Dev.Goes.refl _ _).setTrans _).pair _
    · exact Dev.Goes.refl _ _
  | cons x t ih =>
    have hy : d.Goes [.free, .out, .ash, .pwr, .pcie, .msixHeld, .engines, .waves, .pkt, .buf, .macs, .lanes] (d.switchItem x.1 x.2).1 := Dev.Goes.within (Dev.switchItem_goes _ _ _)
    unfold Dev.goOn
    split
    · split
      · exact Dev.Goes.within (Dev.abortTrans_goes _ _)
      · exact Dev.Goes.ite_fst (hy.thn (ih _)) ((hy.setTrans _).pair _)
    · exact Dev.Goes.refl _ _

theorem Dev.transStep_goes (d : Dev) : d.Goes [.free, .out, .ash, .pwr, .pcie, .msixHeld, .engines, .waves, .pkt, .buf, .macs, .lanes] (Dev.transStep d).1 := by
  unfold Dev.transStep
  split
  · exact (Dev.Goes.refl _ _).pair _
  · exact Dev.Goes.ite_fst (Dev.Goes.within (Dev.goBack_goes _ _)) (Dev.Goes.within (Dev.goOn_goes _ _))

theorem Dev.pwrRefuse_goes (d : Dev) (k : ℕ) : d.Goes [.out, .ash, .msixHeld] (Dev.pwrRefuse d k) := by
  unfold Dev.pwrRefuse
  exact ((((Dev.Goes.refl _ _).count _ _).set _ _).set _ _).raise _ _

theorem Dev.bankEntry_goes (d : Dev) : d.Goes [.out, .ash, .ember, .pcie, .msixHeld, .buf] (Dev.bankEntry d) := by
  unfold Dev.bankEntry
  extract_lets +onlyGivenNames d1
  have hd1 : d.Goes [.out, .ash, .ember, .pcie, .msixHeld, .buf] d1 := (Dev.Goes.refl _ _).setEmber _ (Tbl.wf_foldl_set _ _ _ _)
  exact (hd1.each _ _ fun d r => Dev.Goes.within (Dev.ringFlush_goes _ _ _ _)).thn (Dev.enablesOff_goes _ _)

theorem Dev.transSetup_goes (d : Dev) (t : ℕ) : d.Goes [.out, .ash, .ember, .pwr, .pcie, .msixHeld, .buf] (Dev.transSetup d t) := by
  unfold Dev.transSetup
  extract_lets +onlyGivenNames d1 l d2
  have hd1 : d.Goes [.out, .ash, .ember, .pwr, .pcie, .msixHeld, .buf] d1 := (Dev.Goes.refl _ _).when _ _ fun d => (Dev.Goes.refl _ _).each _ _ fun d c => (Dev.Goes.refl _ _).setCordInfo _ _
  have hd2 : d.Goes [.out, .ash, .ember, .pwr, .pcie, .msixHeld, .buf] d2 := hd1.when _ _ fun d => Dev.Goes.within (Dev.bankEntry_goes _)
  exact ((hd2.set _ _).set _ _).setPwr _

theorem Dev.snapShow_goes (d : Dev) (e : ℕ) : d.Goes [] (Dev.snapShow d e) := by
  unfold Dev.snapShow
  extract_lets +onlyGivenNames best
  cases best with
  | none => exact ((((Dev.Goes.refl _ _).set _ _).set _ _).set _ _).set _ _
  | some s => exact ((((Dev.Goes.refl _ _).set _ _).set _ _).setFlag _ _).set _ _

theorem Dev.loseBanks_goes (d : Dev) (lost : ℕ → Bool) : d.Goes [.ember] (Dev.loseBanks d lost) := by
  unfold Dev.loseBanks
  extract_lets +onlyGivenNames d1
  have hd1 : d.Goes [.ember] d1 := (Dev.Goes.refl _ _).setEmber _ (Tbl.wf_filter _ _)
  exact hd1.each _ _ fun d e => Dev.Goes.within (Dev.snapShow_goes _ _)

theorem Dev.bankExit_goes (d : Dev) (bad : ℕ) : d.Goes [.out, .ash, .ember, .msixHeld] (Dev.bankExit d bad) := by
  unfold Dev.bankExit
  extract_lets +onlyGivenNames keep d1 b
  have hd1 : d.Goes [.out, .ash, .ember, .msixHeld] d1 := Dev.Goes.within (Dev.loseBanks_goes _ _)
  exact hd1.when _ _ fun d => (Dev.Goes.refl _ _).raise _ _

theorem Dev.dozeDecode_goes (d : Dev) (old : ℕ) : d.Goes [.engines, .waves] (Dev.dozeDecode d old) := by
  unfold Dev.dozeDecode
  extract_lets +onlyGivenNames w
  exact (Dev.Goes.refl _ _).when _ _ fun d => Dev.Goes.within (Dev.askDecode_goes _ _ _)

theorem Dev.transFinish_goes (d : Dev) : d.Goes [.out, .ash, .ember, .pwr, .msixHeld, .engines, .waves] (Dev.transFinish d) := by
  unfold Dev.transFinish
  split
  · exact Dev.Goes.refl _ _
  · extract_lets +onlyGivenNames old d1
    have hd1 : d.Goes [.out, .ash, .ember, .pwr, .msixHeld, .engines, .waves] d1 := ((Dev.Goes.refl _ _).setPwr _).set _ _
    refine Dev.Goes.ite hd1 ?_
    · extract_lets +onlyGivenNames d1' d2 keep d3
      have hd1' : d.Goes [.out, .ash, .ember, .pwr, .msixHeld, .engines, .waves] d1' := hd1.when _ _ fun d => Dev.Goes.within (Dev.bankExit_goes _ _)
      have hd2 : d.Goes [.out, .ash, .ember, .pwr, .msixHeld, .engines, .waves] d2 := (hd1'.set _ _).set _ _
      have hd3 : d.Goes [.out, .ash, .ember, .pwr, .msixHeld, .engines, .waves] d3 := (hd2.thn (Dev.loseBanks_goes _ _)).setEmber _ fun h => h
      exact (hd3.thn (Dev.dozeDecode_goes _ _)).raise _ _

theorem Dev.startRequest_goes (d : Dev) (t : ℕ) : d.Goes [.free, .out, .ash, .ember, .pwr, .pcie, .msixHeld, .engines, .waves, .pkt, .buf, .macs, .lanes] (Dev.startRequest d t) := by
  unfold Dev.startRequest
  split
  · exact Dev.Goes.within (Dev.pwrRefuse_goes _ _)
  · extract_lets +onlyGivenNames x
    have hx : d.Goes [.free, .out, .ash, .ember, .pwr, .pcie, .msixHeld, .engines, .waves, .pkt, .buf, .macs, .lanes] x.1 := (Dev.Goes.within (Dev.transSetup_goes _ _)).thn (Dev.transStep_goes _)
    exact Dev.Goes.ite (hx.thn (Dev.transFinish_goes _)) hx

theorem Dev.runPending_goes (d : Dev) : d.Goes [.free, .out, .ash, .ember, .pwr, .pcie, .msixHeld, .engines, .waves, .pkt, .buf, .macs, .lanes] (Dev.runPending d) := by
  unfold Dev.runPending
  extract_lets +onlyGivenNames t
  refine Dev.Goes.ite (Dev.Goes.refl _ _) ?_
  · extract_lets +onlyGivenNames d1
    have hd1 : d.Goes [.free, .out, .ash, .ember, .pwr, .pcie, .msixHeld, .engines, .waves, .pkt, .buf, .macs, .lanes] d1 := (Dev.Goes.refl _ _).set _ _
    exact Dev.Goes.ite hd1 (hd1.thn (Dev.startRequest_goes _ _))

theorem Dev.powerGo_goes (d : Dev) : d.Goes [.free, .out, .ash, .ember, .pwr, .pcie, .msixHeld, .engines, .waves, .pkt, .buf, .macs, .lanes] (Dev.powerGo d) := by
  unfold Dev.powerGo
  extract_lets +onlyGivenNames x
  have hx : d.Goes [.free, .out, .ash, .ember, .pwr, .pcie, .msixHeld, .engines, .waves, .pkt, .buf, .macs, .lanes] x.1 := Dev.Goes.within (Dev.transStep_goes _)
  exact Dev.Goes.ite ((hx.thn (Dev.transFinish_goes _)).thn (Dev.runPending_goes _)) hx

theorem Dev.cfgStep_goes (d : Dev) (c : ℕ) (n : ℕ) : d.Goes [] (Dev.cfgStep d c n) := by
  unfold Dev.cfgStep
  exact ((Dev.Goes.refl _ _).set _ _).set _ _

theorem Dev.takeSlot_goes (d : Dev) (c : ℕ) : d.Goes [.img] (Dev.takeSlot d c) := by
  unfold Dev.takeSlot
  exact (Dev.Goes.refl _ _).setImg _ fun h => h

theorem Dev.reloadEnd_goes (d : Dev) (res : ℕ) (whole : Bool) : d.Goes [.free, .out, .ash, .img, .ember, .pwr, .pcie, .msixHeld, .engines, .waves, .pkt, .buf, .macs, .lanes] (Dev.reloadEnd d res whole) := by
  unfold Dev.reloadEnd
  extract_lets +onlyGivenNames d1
  have hd1 : d.Goes [.free, .out, .ash, .img, .ember, .pwr, .pcie, .msixHeld, .engines, .waves, .pkt, .buf, .macs, .lanes] d1 := (((Dev.Goes.within (Dev.cfgStep_goes _ _ _)).set _ _).set _ _).setReload _
  exact (hd1.when _ _ fun d => (Dev.Goes.refl _ _).set _ _).thn (Dev.runPending_goes _)

theorem Dev.showSeq_goes (d : Dev) (c : ℕ) : d.Goes [] (Dev.showSeq d c) := by
  unfold Dev.showSeq
  exact (Dev.Goes.refl _ _).set _ _

theorem Dev.reloadOff_goes (d : Dev) (c : ℕ) : d.Goes [.out, .ash, .img, .msixHeld] (Dev.reloadOff d c) := by
  unfold Dev.reloadOff
  exact ((Dev.Goes.within (Dev.takeSlot_goes _ _)).thn (Dev.showSeq_goes _ _)).raise _ _

theorem Dev.applyPolicies_goes (d : Dev) : d.Goes [.pwr] (Dev.applyPolicies d) := by
  unfold Dev.applyPolicies
  exact (Dev.Goes.refl _ _).when _ _ fun d => (Dev.Goes.refl _ _).each _ _ fun d c => (Dev.Goes.refl _ _).when _ _ fun d => Dev.Goes.within (Dev.cordWake_goes _ _ _)

theorem Dev.ashNote_goes (d : Dev) (code : ℕ) : d.Goes [.free, .ash] (Dev.ashNote d code) := by
  unfold Dev.ashNote
  exact ((Dev.Goes.refl _ _).with_free _).ashAdd _ _ _ _ _

theorem Dev.fwStart_goes (d : Dev) (reason : ℕ) : d.Goes [.free, .out, .ash, .msixHeld] (Dev.fwStart d reason) := by
  have h1 : d.Goes [.free, .out, .ash, .msixHeld] { d with ash := { d.ash with newest := d.ashScan } } := (Dev.Goes.refl _ _).with_ash _
  exact (((h1.set _ _).set _ _).thn (Dev.ashNote_goes _ _)).raise _ _

theorem applyAll_goes {ps : List Part} {f : Dev → Rec → Dev × Bool} (hf : ∀ (d : Dev) r, d.Goes ps (f d r).1) (l : List Rec) (d : Dev) :
    d.Goes ps (applyAll f l d).1 := by
  induction l generalizing d with
  | nil => exact Dev.Goes.refl _ _
  | cons r t ih => exact Dev.Goes.ite_fst ((hf d r).thn (ih _) fun _ h => h) (hf d r)

theorem Dev.groupEdge_goes (d : Dev) (g : ℕ) (was : Bool) : d.Goes [.out, .msixHeld] (Dev.groupEdge d g was) := by
  unfold Dev.groupEdge
  exact (Dev.Goes.refl _ _).when _ _ fun d => (Dev.Goes.refl _ _).msixSend _

theorem Dev.evtGo_goes (d : Dev) (n : ℕ) (was : Bool) : d.Goes [.out, .msixHeld] (Dev.evtGo d n was) := by
  unfold Dev.evtGo
  exact Dev.Goes.within (Dev.groupEdge_goes _ _ _)

theorem Dev.aim_goes (d : Dev) : d.Goes [.time] (Dev.aim d) := by
  unfold Dev.aim
  split
  · exact (Dev.Goes.refl _ _).with_time _ fun h => h
  · exact Dev.Goes.refl _ _

theorem Dev.discipline_goes (d : Dev) : d.Goes [.time] (Dev.discipline d) := by
  unfold Dev.discipline
  extract_lets +onlyGivenNames en lock act was d1
  have hd1 : d.Goes [.time] d1 := ((Dev.Goes.refl _ _).setFlag _ _).setFlag _ _
  exact (hd1.when _ _ fun d => Dev.Goes.within (Dev.aim_goes _)).when _ _ fun d => (Dev.Goes.refl _ _).set _ _

theorem Dev.holdBack_goes (d : Dev) (r : RegAt) (old : Word) (v : Word) : d.Goes [.engines] (Dev.holdBack d r old v) := by
  unfold Dev.holdBack
  extract_lets +onlyGivenNames e keep line sf
  split
  · exact (Dev.Goes.refl _ _).setEng _ _
  · exact ((Dev.Goes.refl _ _).setEng _ _).setEng _ _
  · exact (Dev.Goes.refl _ _).setEng _ _
  · exact (Dev.Goes.refl _ _).setEng _ _
  · exact (Dev.Goes.refl _ _).setEng _ _
  · exact (Dev.Goes.refl _ _).setEng _ _
  · exact (Dev.Goes.refl _ _).setEng _ _
  · exact Dev.Goes.refl _ _

theorem Dev.unmute_goes (d : Dev) (e : ℕ) : d.Goes [.engines] (Dev.unmute d e) := by
  unfold Dev.unmute
  exact (Dev.Goes.refl _ _).when _ _ fun d => (Dev.Goes.refl _ _).setEng _ _

theorem Dev.trdGo_goes (d : Dev) (w : ℕ) (v : Word) : d.Goes [.convs] (Dev.trdGo d w v) := by
  unfold Dev.trdGo
  exact (Dev.Goes.refl _ _).when _ _ fun d => ((Dev.Goes.refl _ _).setConv _ _).set _ _

theorem Dev.leaveSilence_goes (d : Dev) (w : ℕ) : d.Goes [.out, .ash, .msixHeld, .engines, .waves] (Dev.leaveSilence d w) := by
  unfold Dev.leaveSilence
  exact (Dev.Goes.refl _ _).when _ _ fun d => Dev.Goes.within (Dev.setAct_goes _ _ _)

theorem Dev.dropTid_goes (d : Dev) (w : ℕ) : d.Goes [.waves] (Dev.dropTid d w) := by
  unfold Dev.dropTid
  exact ((Dev.Goes.refl _ _).set _ _).setWave _ _

theorem Dev.deactivate_goes (d : Dev) (w : ℕ) : d.Goes [.out, .ash, .msixHeld, .engines, .waves] (Dev.deactivate d w) := by
  unfold Dev.deactivate
  extract_lets +onlyGivenNames st
  exact Dev.Goes.ite ((Dev.Goes.within (Dev.dropTid_goes _ _)).set _ _) (Dev.Goes.ite (((Dev.Goes.within (Dev.dropTid_goes _ _)).thn (Dev.cutBursts_goes _ _ _)).thn (Dev.setAct_goes _ _ _)) (Dev.Goes.refl _ _))

theorem Dev.actCtl_goes (d : Dev) (w : ℕ) (v : Word) : d.Goes [.out, .ash, .msixHeld, .engines, .waves] (Dev.actCtl d w v) := by
  unfold Dev.actCtl
  extract_lets +onlyGivenNames d1
  have hd1 : d.Goes [.out, .ash, .msixHeld, .engines, .waves] d1 := (Dev.Goes.refl _ _).when _ _ fun d => ((Dev.Goes.refl _ _).set _ _).thn (Dev.leaveSilence_goes _ _)
  exact hd1.when _ _ fun d => Dev.Goes.within (Dev.deactivate_goes _ _)

theorem Dev.sendCtrl_goes (d : Dev) (w : ℕ) (mtype : ℕ) (body : List Byte) : d.Goes [.waves] (Dev.sendCtrl d w mtype body) := by
  unfold Dev.sendCtrl
  exact (Dev.Goes.refl _ _).setWave _ _

theorem Dev.prfGo_goes (d : Dev) (w : ℕ) (v : Word) : d.Goes [.waves, .scs] (Dev.prfGo d w v) := by
  unfold Dev.prfGo
  refine Dev.Goes.ite (Dev.Goes.refl _ _) ?_
  · extract_lets +onlyGivenNames mdir dir op esfn codes mask seq body d1
    have hd1 : d.Goes [.waves, .scs] d1 := (((Dev.Goes.within (Dev.sendCtrl_goes _ _ _ _)).set _ _).set _ _).setWave _ _
    refine hd1.when _ _ fun d => (Dev.Goes.refl _ _).each _ _ fun d c => ?_
    · extract_lets +onlyGivenNames old
      exact (Dev.Goes.refl _ _).setSc _ _ _

theorem Dev.cryShow_goes (d : Dev) (w : ℕ) (g : ℕ) : d.Goes [] (Dev.cryShow d w g) := by
  unfold Dev.cryShow
  extract_lets +onlyGivenNames c n
  exact ((((((Dev.Goes.refl _ _).setFlag _ _).setFlag _ _).setFlag _ _).setFlag _ _).set _ _).set _ _

theorem Dev.keyLoad_goes (d : Dev) (w : ℕ) (g : ℕ) (rx : Bool) (k : ℕ) : d.Goes [.crys] (Dev.keyLoad d w g rx k) := by
  unfold Dev.keyLoad
  extract_lets +onlyGivenNames key salt halt d1
  have hd1 : d.Goes [.crys] d1 := Dev.Goes.ite ((Dev.Goes.refl _ _).setCry _ _ _) ((Dev.Goes.refl _ _).setCry _ _ _)
  exact ((hd1.each _ _ fun d i => (Dev.Goes.refl _ _).set _ _).set _ _).thn (Dev.cryShow_goes _ _ _)

theorem Dev.keyErase_goes (d : Dev) (w : ℕ) (g : ℕ) (rx : Bool) (k : ℕ) : d.Goes [.crys] (Dev.keyErase d w g rx k) := by
  unfold Dev.keyErase
  refine Dev.Goes.ite (((Dev.Goes.refl _ _).setCry _ _ _).thn (Dev.cryShow_goes _ _ _)) ?_
  · extract_lets +onlyGivenNames d1
    have hd1 : d.Goes [.crys] d1 := ((Dev.Goes.refl _ _).setCry _ _ _).thn (Dev.cryShow_goes _ _ _)
    exact hd1.when _ _ fun d => (Dev.Goes.refl _ _).set _ _

theorem Dev.kcmdGo_goes (d : Dev) (w : ℕ) (v : Word) : d.Goes [.crys] (Dev.kcmdGo d w v) := by
  unfold Dev.kcmdGo
  refine Dev.Goes.ite (Dev.Goes.refl _ _) ?_
  · extract_lets +onlyGivenNames g rx k
    exact Dev.Goes.ite (Dev.Goes.within (Dev.keyLoad_goes _ _ _ _ _)) (Dev.Goes.within (Dev.keyErase_goes _ _ _ _ _))

theorem Dev.kswGo_goes (d : Dev) (w : ℕ) (v : Word) : d.Goes [.waves] (Dev.kswGo d w v) := by
  unfold Dev.kswGo
  refine Dev.Goes.ite (Dev.Goes.refl _ _) ?_
  · extract_lets +onlyGivenNames mdir dir gid kidx esfn seq
    exact ((Dev.Goes.within (Dev.sendCtrl_goes _ _ _ _)).set _ _).setWave _ _

theorem Dev.clrFltTx_goes (d : Dev) (w : ℕ) (g : ℕ) : d.Goes [.crys] (Dev.clrFltTx d w g) := by
  unfold Dev.clrFltTx
  refine (Dev.Goes.refl _ _).when _ _ fun d => ?_
  · extract_lets +onlyGivenNames k
    exact Dev.Goes.ite ((Dev.Goes.refl _ _).set _ _) (Dev.Goes.ite ((Dev.Goes.refl _ _).set _ _) ((Dev.Goes.refl _ _).setCry _ _ _))

theorem Dev.clrFltRx_goes (d : Dev) (w : ℕ) (g : ℕ) : d.Goes [] (Dev.clrFltRx d w g) := by
  unfold Dev.clrFltRx
  exact (Dev.Goes.refl _ _).set _ _

theorem Dev.tmplGo_goes (d : Dev) (v : Word) : d.Goes [.out, .ash, .msixHeld, .pkt] (Dev.tmplGo d v) := by
  unfold Dev.tmplGo
  exact (Dev.Goes.refl _ _).when _ _ fun d => ((Dev.Goes.refl _ _).each _ _ fun d t => (Dev.Goes.refl _ _).each _ _ fun d a => (Dev.Goes.refl _ _).setPkt _).raise _ _

theorem Dev.setStaged_goes (d : Dev) (n : ℕ) (f : ℕ → Fld) (x : ℕ) : d.Goes [] (Dev.setStaged d n f x) := by
  unfold Dev.setStaged
  exact (Dev.Goes.refl _ _).each _ _ fun d w => (Dev.Goes.refl _ _).set _ _

theorem Dev.clsShow_goes (d : Dev) (r : Rule) : d.Goes [] (Dev.clsShow d r) := by
  unfold Dev.clsShow
  extract_lets +onlyGivenNames d1
  have hd1 : d.Goes [] d1 := ((Dev.Goes.within (Dev.setStaged_goes _ _ _ _)).thn (Dev.setStaged_goes _ _ _ _)).thn (Dev.setStaged_goes _ _ _ _)
  exact (((hd1.set _ _).set _ _).set _ _).set _ _

theorem Dev.clsGo_goes (d : Dev) (v : Word) : d.Goes [.pkt] (Dev.clsGo d v) := by
  unfold Dev.clsGo
  refine (Dev.Goes.refl _ _).when _ _ fun d => ?_
  · extract_lets +onlyGivenNames op i r
    refine Dev.Goes.ite (((Dev.Goes.refl _ _).setRule _ _).set _ _) (Dev.Goes.ite (((Dev.Goes.refl _ _).setRule _ _).set _ _) ?_)
    · extract_lets +onlyGivenNames st d1
      have hd1 : d.Goes [.pkt] d1 := (Dev.Goes.within (Dev.clsShow_goes _ _)).set _ _
      exact hd1.when _ _ fun d => (Dev.Goes.refl _ _).setRule _ _

theorem Dev.occupancy_goes (d : Dev) : d.Goes [.out, .ash, .msixHeld] (Dev.occupancy d) := by
  unfold Dev.occupancy
  extract_lets +onlyGivenNames used was thr
  exact (((Dev.Goes.refl _ _).set _ _).set _ _).when _ _ fun d => (Dev.Goes.refl _ _).raise _ _

theorem Dev.setSlot_goes (d : Dev) (i : ℕ) (e : Option Entry) : d.Goes [.out, .ash, .msixHeld, .pkt] (Dev.setSlot d i e) := by
  unfold Dev.setSlot
  exact ((Dev.Goes.refl _ _).setPkt _).thn (Dev.occupancy_goes _)

theorem Dev.moveChain_goes (d : Dev) (l : List ℕ) (dst : ℕ) : d.Goes [.out, .ash, .msixHeld, .pkt] (Dev.moveChain d l dst) := by
  induction l with
  | nil => exact Dev.Goes.refl _ _
  | cons v t ih =>
    unfold Dev.moveChain
    extract_lets +onlyGivenNames d1 place e
    exact ((Dev.Goes.thn ih (Dev.setSlot_goes d1 place e)).thn (Dev.setSlot_goes _ v none)).setPkt _

theorem Dev.replaceStash_goes (d : Dev) : d.Goes [.out, .ash, .msixHeld, .pkt] (Dev.replaceStash d) := by
  unfold Dev.replaceStash
  refine (Dev.Goes.refl _ _).each _ _ fun d i => ?_
  · split
    · exact Dev.Goes.refl _ _
    · split
      · exact Dev.Goes.within (Dev.moveChain_goes _ _ _)
      · exact Dev.Goes.within (Dev.moveChain_goes _ _ _)
      · exact Dev.Goes.refl _ _

theorem Dev.unhold_goes (d : Dev) (i : ℕ) : d.Goes [.pkt] (Dev.unhold d i) := by
  unfold Dev.unhold
  exact (Dev.Goes.refl _ _).setPkt _

theorem Dev.deleteSlot_goes (d : Dev) (i : ℕ) : d.Goes [.out, .ash, .msixHeld, .pkt] (Dev.deleteSlot d i) := by
  unfold Dev.deleteSlot
  exact ((Dev.Goes.within (Dev.setSlot_goes _ _ _)).thn (Dev.unhold_goes _ _)).thn (Dev.replaceStash_goes _)

theorem Dev.agerRun_goes (d : Dev) (dead : List (ℕ × ℕ × ℕ)) : d.Goes [.out, .ash, .msixHeld, .pkt] (Dev.agerRun d dead) := by
  unfold Dev.agerRun
  extract_lets +onlyGivenNames r d1
  have hr : d.Goes [.out, .ash, .msixHeld, .pkt] r.1 := by
    refine Dev.Goes.foldl_fst (a := (d, 0)) _ (fun a x => ?_) _ (Dev.Goes.refl _ _)
    split
    · exact Dev.Goes.ite_fst ((Dev.Goes.within (Dev.deleteSlot_goes _ _)).pair _) (Dev.Goes.refl _ _)
    · exact Dev.Goes.refl _ _
  clear_value r
  have hd1 : d.Goes [.out, .ash, .msixHeld, .pkt] d1 := (hr.setPkt _).count _ _
  exact hd1.raise _ _

theorem Dev.tableInsert_goes (d : Dev) (e : Entry) : d.Goes [.out, .ash, .msixHeld, .pkt] (Dev.tableInsert d e).1 := by
  unfold Dev.tableInsert
  extract_lets +onlyGivenNames b0 b1
  refine Dev.Goes.ite_fst ((Dev.Goes.refl _ _).pair _) ?_
  · split
    · exact (Dev.Goes.within (Dev.setSlot_goes _ _ _)).pair _
    · exact (Dev.Goes.within (Dev.setSlot_goes _ _ _)).pair _
    · split
      · extract_lets +onlyGivenNames at_
        exact ((Dev.Goes.within (Dev.moveChain_goes _ _ _)).thn (Dev.setSlot_goes _ _ _)).pair _
      · split
        · extract_lets +onlyGivenNames at_'
          exact ((Dev.Goes.within (Dev.moveChain_goes _ _ _)).thn (Dev.setSlot_goes _ _ _)).pair _
        · exact (Dev.Goes.refl _ _).pair _

theorem Dev.emtIdx_goes (d : Dev) (i : ℕ) : d.Goes [] (Dev.emtIdx d i) := by
  unfold Dev.emtIdx
  exact Dev.Goes.ite (((Dev.Goes.refl _ _).set _ _).set _ _) (((Dev.Goes.refl _ _).set _ _).set _ _)

theorem Dev.emtShow_goes (d : Dev) (e : Option Entry) : d.Goes [] (Dev.emtShow d e) := by
  unfold Dev.emtShow
  extract_lets +onlyGivenNames x
  exact ((((Dev.Goes.refl _ _).each _ _ fun d w => (Dev.Goes.refl _ _).set _ _).setReg _ _).set _ _).set _ _

theorem Dev.epochAdvance_goes (d : Dev) : d.Goes [.pkt] (Dev.epochAdvance d) := by
  unfold Dev.epochAdvance
  exact ((Dev.Goes.refl _ _).set _ _).when _ _ fun d => (Dev.Goes.refl _ _).setPkt _

theorem Dev.tableCommand_goes (d : Dev) (op : ℕ) (at_ : ℕ) : d.Goes [.out, .ash, .msixHeld, .pkt] (Dev.tableCommand d op at_).1 := by
  unfold Dev.tableCommand
  extract_lets +onlyGivenNames part key bad
  refine Dev.Goes.ite_fst (Dev.Goes.ite_fst ((Dev.Goes.refl _ _).pair _) ?_) (Dev.Goes.ite_fst (Dev.Goes.ite_fst ((Dev.Goes.refl _ _).pair _) ?_) (Dev.Goes.ite_fst (Dev.Goes.ite_fst ((Dev.Goes.refl _ _).pair _) ?_) (Dev.Goes.ite_fst ?_ (Dev.Goes.ite_fst (Dev.Goes.ite_fst ((Dev.Goes.refl _ _).pair _) ?_) (Dev.Goes.ite_fst (Dev.Goes.ite_fst ((Dev.Goes.refl _ _).pair _) ?_) ?_)))))
  · extract_lets +onlyGivenNames r
    have hr : d.Goes [.out, .ash, .msixHeld, .pkt] r.1 := Dev.Goes.within (Dev.tableInsert_goes _ _)
    split
    · exact (hr.thn (Dev.emtIdx_goes _ _)).pair _
    · exact (hr.when _ _ fun d => (Dev.Goes.refl _ _).raise _ _).pair _
  · split
    · exact (Dev.Goes.within (Dev.deleteSlot_goes _ _)).pair _
    · exact (Dev.Goes.refl _ _).pair _
  · split
    · extract_lets +onlyGivenNames e
      exact ((((Dev.Goes.refl _ _).setReg _ _).set _ _).thn (Dev.emtIdx_goes _ _)).pair _
    · exact (Dev.Goes.refl _ _).pair _
  · split
    · exact (Dev.Goes.within (Dev.emtShow_goes _ _)).pair _
    · exact (Dev.Goes.within (Dev.emtShow_goes _ _)).pair _
  · extract_lets +onlyGivenNames i
    refine Dev.Goes.ite_fst ((Dev.Goes.refl _ _).pair _) ?_
    · split
      · exact Dev.Goes.ite_fst (((Dev.Goes.within (Dev.setSlot_goes _ _ _)).thn (Dev.unhold_goes _ _)).pair _) ((Dev.Goes.refl _ _).pair _)
      · exact ((Dev.Goes.within (Dev.setSlot_goes _ _ _)).thn (Dev.unhold_goes _ _)).pair _
  · split
    · exact Dev.Goes.ite_fst ((Dev.Goes.within (Dev.deleteSlot_goes _ _)).pair _) ((Dev.Goes.refl _ _).pair _)
    · exact (Dev.Goes.refl _ _).pair _
  · extract_lets +onlyGivenNames d1
    have hd1 : d.Goes [.out, .ash, .msixHeld, .pkt] d1 := Dev.Goes.within (Dev.epochAdvance_goes _)
    exact (hd1.set _ _).pair _

theorem Dev.slotEcc_goes (d : Dev) (i : ℕ) : d.Goes [.out, .ash, .msixHeld, .pkt] (Dev.slotEcc d i) := by
  unfold Dev.slotEcc
  exact (((Dev.Goes.refl _ _).when _ _ fun d => Dev.Goes.within (Dev.deleteSlot_goes _ _)).thn (Dev.emtIdx_goes _ _)).raise _ _

theorem Dev.emtRun_goes (d : Dev) (op : ℕ) (at_ : ℕ) (even : Bool) (bad : List ℕ) : d.Goes [.out, .ash, .msixHeld, .pkt] (Dev.emtRun d op at_ even bad) := by
  unfold Dev.emtRun
  extract_lets +onlyGivenNames r d1
  have hr : d.Goes [.out, .ash, .msixHeld, .pkt] r.1 := ((Dev.Goes.refl _ _).each _ _ fun d i => Dev.Goes.within (Dev.slotEcc_goes _ _)).thn (Dev.tableCommand_goes _ _ _)
  have hd1 : d.Goes [.out, .ash, .msixHeld, .pkt] d1 := (hr.set _ _).when _ _ fun d => (Dev.Goes.refl _ _).set _ _
  exact hd1.when _ _ fun d => (Dev.Goes.refl _ _).raise _ _

theorem Dev.emtDo_goes (d : Dev) (j : EmtJob) : d.Goes [.out, .ash, .msixHeld, .pkt] (Dev.emtDo d j) := by
  unfold Dev.emtDo
  split
  · exact Dev.Goes.within (Dev.agerRun_goes _ _)
  · exact ((Dev.Goes.refl _ _).set _ _).thn (Dev.emtRun_goes _ _ _ _ _)

theorem Dev.emtOffer_goes (d : Dev) (j : EmtJob) : d.Goes [.out, .ash, .msixHeld, .pkt] (Dev.emtOffer d j) := by
  unfold Dev.emtOffer
  exact Dev.Goes.ite (Dev.Goes.within (Dev.emtDo_goes _ _)) (((Dev.Goes.refl _ _).setPkt _).when _ _ fun d => (Dev.Goes.refl _ _).set _ _)

theorem Dev.emtGo_goes (d : Dev) (v : Word) : d.Goes [.out, .ash, .msixHeld, .pkt] (Dev.emtGo d v) := by
  unfold Dev.emtGo
  exact (Dev.Goes.refl _ _).when _ _ fun d => ((Dev.Goes.refl _ _).setPkt _).thn (Dev.emtOffer_goes _ _)

theorem Dev.smpGo_goes (d : Dev) (v : Word) : d.Goes [.buf] (Dev.smpGo d v) := by
  unfold Dev.smpGo
  refine (Dev.Goes.refl _ _).when _ _ fun d => ?_
  · extract_lets +onlyGivenNames grp k x d1
    have hd1 : d.Goes [.buf] d1 := (Dev.Goes.refl _ _).each _ _ fun d wi => (Dev.Goes.refl _ _).set _ _
    exact Dev.Goes.ite hd1 ((hd1.each _ _ fun d b => (Dev.Goes.refl _ _).set _ _).when _ _ fun d => (Dev.Goes.refl _ _).setSampler _ _)

theorem Dev.noteDepth_goes (d : Dev) (q : ℕ) (drops : ℕ) (deqb : ℕ) : d.Goes [.buf] (Dev.noteDepth d q drops deqb) := by
  unfold Dev.noteDepth
  extract_lets +onlyGivenNames put d1
  have hd1 : d.Goes [.buf] d1 := (Dev.Goes.refl _ _).setSampler _ _
  split
  · exact hd1.setSampler _ _
  · exact hd1

theorem Dev.qmGo_goes (d : Dev) (v : Word) : d.Goes [.out, .ash, .msixHeld, .buf] (Dev.qmGo d v) := by
  unfold Dev.qmGo
  refine (Dev.Goes.refl _ _).when _ _ fun d => ?_
  · extract_lets +onlyGivenNames q ps d1
    have hd1 : d.Goes [.out, .ash, .msixHeld, .buf] d1 := ((Dev.Goes.refl _ _).each _ _ fun d x => Dev.Goes.within (Dev.freeBufs_goes _ _ _)).setQueue _ _
    exact (((hd1.set _ _).thn (Dev.noteDepth_goes _ _ _ _)).count _ _).set _ _

theorem Dev.noteLimits_goes (d : Dev) (p : ℕ) (old : Word) : d.Goes [.macs] (Dev.noteLimits d p old) := by
  unfold Dev.noteLimits
  extract_lets +onlyGivenNames l
  exact (Dev.Goes.refl _ _).when _ _ fun d => (Dev.Goes.refl _ _).setMac _ _

theorem Dev.gateRefresh_goes (d : Dev) (p : ℕ) : d.Goes [] (Dev.gateRefresh d p) := by
  unfold Dev.gateRefresh
  extract_lets +onlyGivenNames m e
  exact ((Dev.Goes.refl _ _).set _ _).set _ _

theorem Dev.gclGo_goes (d : Dev) (p : ℕ) (v : Word) : d.Goes [.out, .ash, .msixHeld, .macs] (Dev.gclGo d p v) := by
  unfold Dev.gclGo
  extract_lets +onlyGivenNames d0 d1
  have hd0 : d.Goes [.out, .ash, .msixHeld, .macs] d0 := (Dev.Goes.refl _ _).when _ _ fun d => ((Dev.Goes.refl _ _).setMac _ _).set _ _
  have hd1 : d.Goes [.out, .ash, .msixHeld, .macs] d1 := by
    refine hd0.when _ _ fun d => ?_
    · extract_lets +onlyGivenNames cyc t
      exact ((((Dev.Goes.refl _ _).setMac _ _).set _ _).set _ _).when _ _ fun d => (Dev.Goes.refl _ _).raise _ _
  exact hd1.thn (Dev.gateRefresh_goes _ _)

theorem Dev.parkGo_goes (d : Dev) (p : ℕ) (v : Word) : d.Goes [.free, .out, .ash, .pwr, .msixHeld, .buf, .macs, .lanes] (Dev.parkGo d p v) := by
  unfold Dev.parkGo
  extract_lets +onlyGivenNames now
  exact Dev.Goes.ite (Dev.Goes.ite (Dev.Goes.refl _ _) (Dev.Goes.within (Dev.park_goes _ _))) ((Dev.Goes.refl _ _).when _ _ fun d => Dev.Goes.within (Dev.unpark_goes _ _))

theorem Dev.txtsShow_goes (d : Dev) (p : ℕ) : d.Goes [] (Dev.txtsShow d p) := by
  unfold Dev.txtsShow
  extract_lets +onlyGivenNames q x
  exact ((((((Dev.Goes.refl _ _).set _ _).set _ _).set _ _).setFlag _ _).set _ _).set _ _

theorem Dev.txtsPop_goes (d : Dev) (p : ℕ) : d.Goes [.macs] (Dev.txtsPop d p) := by
  unfold Dev.txtsPop
  exact ((Dev.Goes.refl _ _).setMac _ _).thn (Dev.txtsShow_goes _ _)

theorem Dev.laneLinkDown_goes (d : Dev) (l : ℕ) : d.Goes [.free, .out, .ash, .msixHeld, .buf, .macs] (Dev.laneLinkDown d l) := by
  unfold Dev.laneLinkDown
  split
  · exact Dev.Goes.within (Dev.macLost_goes _ _)
  · exact Dev.Goes.refl _ _

theorem Dev.laneBack_goes (d : Dev) (l : ℕ) : d.Goes [.free, .out, .ash, .msixHeld, .buf, .macs, .lanes] (Dev.laneBack d l) := by
  unfold Dev.laneBack
  exact (Dev.Goes.within (Dev.laneStart_goes _ _)).thn (Dev.laneLinkDown_goes _ _)

theorem Dev.loopGo_goes (d : Dev) (l : ℕ) : d.Goes [.free, .out, .ash, .msixHeld, .buf, .macs, .lanes] (Dev.loopGo d l) := by
  unfold Dev.loopGo
  exact Dev.Goes.ite (Dev.Goes.refl _ _) (Dev.Goes.ite (((Dev.Goes.refl _ _).setLane _ _).thn (Dev.laneLinkDown_goes _ _)) (Dev.Goes.within (Dev.laneBack_goes _ _)))

theorem Dev.prbsGo_goes (d : Dev) (l : ℕ) (old : Word) : d.Goes [.free, .out, .ash, .msixHeld, .buf, .macs, .lanes] (Dev.prbsGo d l old) := by
  unfold Dev.prbsGo
  extract_lets +onlyGivenNames on now sent fresh d0 d1
  have hd0 : d.Goes [.free, .out, .ash, .msixHeld, .buf, .macs, .lanes] d0 := (Dev.Goes.refl _ _).when _ _ fun d => (Dev.Goes.refl _ _).emit _
  have hd1 : d.Goes [.free, .out, .ash, .msixHeld, .buf, .macs, .lanes] d1 := hd0.when _ _ fun d => ((Dev.Goes.refl _ _).set _ _).setLane _ _
  exact Dev.Goes.ite (hd1.thn (Dev.laneLinkDown_goes _ _)) (Dev.Goes.ite (hd1.thn (Dev.laneBack_goes _ _)) hd1)

theorem Dev.ringCfgGo_goes (d : Dev) (tx : Bool) (r : ℕ) (old : Word) (v : Word) (written : List (BitVec 64)) : d.Goes [.out, .ash, .pcie, .msixHeld, .buf] (Dev.ringCfgGo d tx r old v written) := by
  unfold Dev.ringCfgGo
  extract_lets +onlyGivenNames was now irq above d1
  have hd1 : d.Goes [.out, .ash, .pcie, .msixHeld, .buf] d1 := Dev.Goes.ite (((Dev.Goes.refl _ _).set _ _).thn (Dev.ringRefresh_goes _ _ _ _)) ((Dev.Goes.refl _ _).when _ _ fun d => (Dev.Goes.refl _ _).msixSend _)
  exact hd1.when _ _ fun d => Dev.Goes.within (Dev.ringFlush_goes _ _ _ _)

theorem Dev.stepGo_goes (d : Dev) (v : Word) : d.Goes [.time] (Dev.stepGo d v) := by
  unfold Dev.stepGo
  exact (Dev.Goes.refl _ _).when _ _ fun d => ((Dev.Goes.refl _ _).setTime _ fun h => h).set _ _

theorem Dev.nsBaseGo_goes (d : Dev) : d.Goes [.time] (Dev.nsBaseGo d) := by
  unfold Dev.nsBaseGo
  exact (Dev.Goes.refl _ _).setTime _ fun h => h

theorem Dev.ppsOff_goes (d : Dev) : d.Goes [.out, .time] (Dev.ppsOff d) := by
  unfold Dev.ppsOff
  exact (Dev.Goes.refl _ _).when _ _ fun d => ((Dev.Goes.refl _ _).setTime _ fun h => h).emit _

theorem Dev.gcfgGo_goes (d : Dev) (g : ℕ) (old : Word) : d.Goes [.out, .msixHeld] (Dev.gcfgGo d g old) := by
  unfold Dev.gcfgGo
  exact (Dev.Goes.refl _ _).when _ _ fun d => (Dev.Goes.refl _ _).msixSend _

theorem Dev.loadPause_goes (d : Dev) (p : ℕ) (c : Option ℕ) (n : ℕ) : d.Goes [.out, .ash, .msixHeld, .macs] (Dev.loadPause d p c n) := by
  unfold Dev.loadPause
  extract_lets +onlyGivenNames m was d1
  have hd1 : d.Goes [.out, .ash, .msixHeld, .macs] d1 := ((Dev.Goes.refl _ _).setMac _ _).thn (Dev.pauseStat_goes _ _)
  exact hd1.when _ _ fun d => (Dev.Goes.refl _ _).raise _ _

theorem Dev.pauseRx_goes (d : Dev) (p : ℕ) (f : List Byte) : d.Goes [.out, .ash, .msixHeld, .macs] (Dev.pauseRx d p f) := by
  unfold Dev.pauseRx
  extract_lets +onlyGivenNames mode ok op
  refine Dev.Goes.ite (((Dev.Goes.refl _ _).count _ _).thn (Dev.loadPause_goes _ _ _ _)) (Dev.Goes.ite ?_ (((Dev.Goes.refl _ _).count _ _).raise _ _))
  · extract_lets +onlyGivenNames en
    exact ((Dev.Goes.refl _ _).count _ _).each _ _ fun d c => Dev.Goes.within (Dev.loadPause_goes _ _ _ _)

theorem Dev.fiFollow_goes (d : Dev) (i : ℕ) (dir : ℕ) (x : FiUnit) : d.Goes [.inj] (Dev.fiFollow d i dir x).1 := by
  unfold Dev.fiFollow
  split
  · exact (Dev.Goes.refl _ _).pair _
  · exact Dev.Goes.ite_fst ((Dev.Goes.refl _ _).pair _) (Dev.Goes.ite_fst ((((Dev.Goes.refl _ _).setInj _ _).set _ _).pair _) (((Dev.Goes.refl _ _).setInj _ _).pair _))

theorem Dev.fiEvent_goes (d : Dev) (i : ℕ) (n : ℕ) : d.Goes [.out, .ash, .msixHeld] (Dev.fiEvent d i n) := by
  unfold Dev.fiEvent
  exact ((Dev.Goes.refl _ _).set _ _).raise _ _

theorem Dev.fiOff_goes (d : Dev) (i : ℕ) : d.Goes [] (Dev.fiOff d i) := by
  unfold Dev.fiOff
  exact (Dev.Goes.refl _ _).when _ _ fun d => (((Dev.Goes.refl _ _).set _ _).set _ _).set _ _

theorem Dev.fiPass_goes (d : Dev) (i : ℕ) (dir : ℕ) (idle : Bool) (x : FiUnit) : d.Goes [.out, .ash, .msixHeld, .buf, .inj] (Dev.fiPass d i dir idle x).1 := by
  unfold Dev.fiPass
  refine Dev.Goes.ite_fst ((Dev.Goes.refl _ _).pair _) (Dev.Goes.ite_fst (Dev.Goes.within (Dev.fiFollow_goes _ _ _ _)) ?_)
  · extract_lets +onlyGivenNames j g d1
    have hd1 : d.Goes [.out, .ash, .msixHeld, .buf, .inj] d1 := (Dev.Goes.refl _ _).setInj _ _
    refine Dev.Goes.ite_fst (hd1.thn (Dev.fiFollow_goes _ _ _ _)) ?_
    · extract_lets +onlyGivenNames act d2 r lim
      have hd2 : d.Goes [.out, .ash, .msixHeld, .buf, .inj] d2 := (hd1.setInj _ _).when _ _ fun d => Dev.Goes.within (Dev.fiEvent_goes _ _ _)
      have hr : d.Goes [.out, .ash, .msixHeld, .buf, .inj] r.1 := Dev.Goes.ite_fst (((hd2.thn (Dev.freeBufs_goes _ _ _)).count _ _).pair _) (Dev.Goes.ite_fst ((hd2.count _ _).thn (Dev.fiFollow_goes _ _ _ _)) (Dev.Goes.ite_fst ((hd2.count _ _).thn (Dev.fiFollow_goes _ _ _ _)) ((((hd2.count _ _).setInj _ _).set _ _).pair _)))
      exact (hr.when _ _ fun d => (Dev.Goes.within (Dev.fiOff_goes _ _)).thn (Dev.fiEvent_goes _ _ _)).pair _

theorem Dev.Goes.through {l : List Part} {d e : Dev} (h : d.Goes l e) (i dir : ℕ) (idle : Bool) (x : FiUnit) (next : Dev → FiUnit → Dev)
    (hf : ∀ (x : Dev) (u : FiUnit), x.Goes l (next x u)) (hl : ∀ x ∈ ([.out, .ash, .msixHeld, .buf, .inj] : List Part), x ∈ l := by decide) : d.Goes l (e.through i dir idle x next) :=
  (h.thn (Dev.fiPass_goes _ _ _ _ _) hl).each _ _ hf

theorem Dev.linkPush_goes (d : Dev) (k : ℕ) (p : Pkt) : d.Goes [.pkt] (Dev.linkPush d k p) := by
  unfold Dev.linkPush
  exact (Dev.Goes.refl _ _).setPkt _

theorem Dev.linkDrop_goes (d : Dev) (k : ℕ) (p : Pkt) : d.Goes [.out, .ash, .msixHeld] (Dev.linkDrop d k p) := by
  unfold Dev.linkDrop
  exact Dev.Goes.ite ((Dev.Goes.refl _ _).when _ _ fun d => ((Dev.Goes.refl _ _).count _ _).raise _ _) (Dev.Goes.ite ((Dev.Goes.refl _ _).when _ _ fun d => ((Dev.Goes.refl _ _).count _ _).raise _ _) ((Dev.Goes.refl _ _).when _ _ fun d => (Dev.Goes.refl _ _).count _ _))

theorem Dev.linkIn_goes (d : Dev) (k : ℕ) (p : Pkt) : d.Goes [.out, .ash, .msixHeld, .pkt] (Dev.linkIn d k p) := by
  unfold Dev.linkIn
  exact Dev.Goes.ite (Dev.Goes.within (Dev.linkPush_goes _ _ _)) (Dev.Goes.within (Dev.linkDrop_goes _ _ _))

theorem Dev.dhSend_goes (d : Dev) (p : ℕ) (x : Pkt) : d.Goes [.out, .ash, .msixHeld, .pkt, .buf, .inj] (Dev.dhSend d p x) := by
  unfold Dev.dhSend
  exact Dev.Goes.ite ((Dev.Goes.refl _ _).through _ _ _ _ _ fun d u => Dev.Goes.within (Dev.linkIn_goes _ _ _)) (Dev.Goes.within (Dev.linkDrop_goes _ _ _))

theorem Dev.countBytes_goes (d : Dev) (p : ℕ) (rx : Bool) (n : ℕ) : d.Goes [.macs] (Dev.countBytes d p rx n) := by
  unfold Dev.countBytes
  extract_lets +onlyGivenNames d1
  have hd1 : d.Goes [.macs] d1 := (Dev.Goes.refl _ _).setMac _ _
  exact Dev.Goes.ite (hd1.set _ _) (hd1.set _ _)

theorem Dev.macRx_goes (d : Dev) (p : ℕ) (f : List Byte) (pcs : Bool) : d.Goes [.out, .ash, .msixHeld, .pkt, .buf, .macs, .inj] (Dev.macRx d p f pcs) := by
  unfold Dev.macRx
  extract_lets +onlyGivenNames len body lim
  refine Dev.Goes.ite (((Dev.Goes.refl _ _).count _ _).raise _ _) (Dev.Goes.ite (((Dev.Goes.refl _ _).count _ _).raise _ _) (Dev.Goes.ite (((Dev.Goes.refl _ _).count _ _).raise _ _) (Dev.Goes.ite (((Dev.Goes.refl _ _).count _ _).raise _ _) (Dev.Goes.ite (((Dev.Goes.refl _ _).count _ _).raise _ _) (Dev.Goes.ite (Dev.Goes.within (Dev.pauseRx_goes _ _ _)) ?_)))))
  · extract_lets +onlyGivenNames x
    exact (((Dev.Goes.refl _ _).count _ _).thn (Dev.countBytes_goes _ _ _ _)).thn (Dev.dhSend_goes _ _ _)

theorem Dev.portRx_goes (d : Dev) (p : ℕ) (f : List Byte) (pcs : Bool) : d.Goes [.out, .ash, .msixHeld, .pkt, .buf, .macs, .inj] (Dev.portRx d p f pcs) := by
  unfold Dev.portRx
  exact (Dev.Goes.refl _ _).when _ _ fun d => (Dev.Goes.refl _ _).through _ _ _ _ _ fun d u => Dev.Goes.within (Dev.macRx_goes _ _ _ _)

theorem Dev.portOut_goes (d : Dev) (p : ℕ) (f : List Byte) : d.Goes [.out, .ash, .msixHeld, .pkt, .buf, .macs, .inj] (Dev.portOut d p f) := by
  unfold Dev.portOut
  exact Dev.Goes.ite (Dev.Goes.within (Dev.portRx_goes _ _ _ _)) ((Dev.Goes.refl _ _).emit _)

theorem Dev.cryCut_goes (d : Dev) (w : ℕ) (g : ℕ) : d.Goes [.crys] (Dev.cryCut d w g) := by
  unfold Dev.cryCut
  exact (Dev.Goes.refl _ _).setCry _ _ _

theorem Dev.missingCells_goes (d : Dev) (w : ℕ) (g : ℕ) (n : ℕ) : d.Goes [] (Dev.missingCells d w g n) := by
  unfold Dev.missingCells
  exact (Dev.Goes.refl _ _).when _ _ fun d => (Dev.Goes.refl _ _).count _ _

theorem Dev.accLose_goes (d : Dev) (w : ℕ) (g : ℕ) (urg : Bool) : d.Goes [.crys] (Dev.accLose d w g urg) := by
  unfold Dev.accLose
  exact (Dev.Goes.refl _ _).setCry _ _ _

theorem Dev.lfEvent_goes (d : Dev) (w : ℕ) (c : ℕ) (addrs : List ℕ) : d.Goes [.out, .ash, .msixHeld] (Dev.lfEvent d w c addrs) := by
  unfold Dev.lfEvent
  exact (Dev.Goes.refl _ _).raise _ _

theorem Dev.dropOpen_goes (d : Dev) (w : ℕ) (flow : ℕ) (mark : Bool) : d.Goes [.out, .ash, .msixHeld, .waves] (Dev.dropOpen d w flow mark) := by
  unfold Dev.dropOpen
  exact Dev.Goes.ite ((((Dev.Goes.refl _ _).setWave _ _).count _ _).thn (Dev.lfEvent_goes _ _ _ _)) (Dev.Goes.refl _ _)

theorem Dev.fmtFault_goes (d : Dev) (w : ℕ) : d.Goes [.out, .ash, .msixHeld] (Dev.fmtFault d w) := by
  unfold Dev.fmtFault
  exact ((Dev.Goes.refl _ _).count _ _).thn (Dev.lfEvent_goes _ _ _ _)

theorem Dev.ctlFld_goes (d : Dev) (w : ℕ) : d.Goes [.out, .ash, .msixHeld] (Dev.ctlFld d w) := by
  unfold Dev.ctlFld
  exact ((Dev.Goes.refl _ _).count _ _).thn (Dev.sfEvent_goes _ _ _ _)

theorem Dev.Goes.leafMessage {l : List Part} {d e : Dev} (h : d.Goes l e) (w : ℕ) (states : List ℕ) (bad : Bool) (f : Dev → Dev)
    (hf : ∀ x : Dev, x.Goes l (f x)) (hl : ∀ x ∈ ([.out, .ash, .msixHeld] : List Part), x ∈ l := by decide) : d.Goes l (e.leafMessage w states bad f) :=
  Dev.Goes.ite (h.thn (Dev.ctlFld_goes _ _) hl) (Dev.Goes.ite (h.thn (hf _) fun _ h => h) h)

theorem Dev.discover_goes (d : Dev) (w : ℕ) (peqd : ℕ) (rspread : ℕ) (alen : ℕ) (bkmax : ℕ) : d.Goes [.out, .ash, .msixHeld, .engines, .waves] (Dev.discover d w peqd rspread alen bkmax) := by
  unfold Dev.discover
  refine (Dev.Goes.refl _ _).leafMessage _ _ _ _ fun d => ?_
  · extract_lets +onlyGivenNames take
    refine Dev.Goes.ite ((Dev.Goes.refl _ _).setWave _ _) ?_
    · extract_lets +onlyGivenNames settled
      exact Dev.Goes.ite (((Dev.Goes.refl _ _).setWave _ _).thn (Dev.setAct_goes _ _ _)) ((Dev.Goes.refl _ _).setWave _ _)

theorem Dev.range_goes (d : Dev) (w : ℕ) (eqd : ℕ) (rtd : ℕ) (esfn : ℕ) : d.Goes [.out, .ash, .msixHeld, .waves] (Dev.range d w eqd rtd esfn) := by
  unfold Dev.range
  exact (Dev.Goes.refl _ _).leafMessage _ _ _ _ fun d => ((((Dev.Goes.refl _ _).set _ _).set _ _).setWave _ _).thn (Dev.sfEvent_goes _ _ _ _)

theorem Dev.assignId_goes (fz : Fuses) (d : Dev) (w : ℕ) (serial : ℕ) (tid : ℕ) : d.Goes [.out, .ash, .msixHeld, .engines, .waves] (Dev.assignId fz d w serial tid) := by
  unfold Dev.assignId
  exact (Dev.Goes.refl _ _).leafMessage _ _ _ _ fun d => Dev.Goes.ite (((((Dev.Goes.refl _ _).set _ _).setWave _ _).thn (Dev.setAct_goes _ _ _)).thn (Dev.sfEvent_goes _ _ _ _)) (Dev.Goes.refl _ _)

theorem Dev.profRefused_goes (d : Dev) (w : ℕ) : d.Goes [.out, .ash, .msixHeld] (Dev.profRefused d w) := by
  unfold Dev.profRefused
  exact ((Dev.Goes.refl _ _).count _ _).thn (Dev.sfEvent_goes _ _ _ _)

theorem Dev.sendAck_goes (d : Dev) (w : ℕ) (mtype : ℕ) (mseq : ℕ) (result : ℕ) (esfn : ℕ) : d.Goes [.waves] (Dev.sendAck d w mtype mseq result esfn) := by
  unfold Dev.sendAck
  exact Dev.Goes.within (Dev.sendCtrl_goes _ _ _ _)

theorem Dev.cancelChanges_goes (d : Dev) (w : ℕ) (dir : ℕ) (mask : ℕ) : d.Goes [.waves] (Dev.cancelChanges d w dir mask) := by
  unfold Dev.cancelChanges
  extract_lets +onlyGivenNames d1
  have hd1 : d.Goes [.waves] d1 := (Dev.Goes.refl _ _).setWave _ _
  exact hd1.when _ _ fun d => (Dev.Goes.refl _ _).each _ _ fun d k => Dev.Goes.within (Dev.showNext_goes _ _ _ _)

theorem Dev.pendChange_goes (d : Dev) (w : ℕ) (dir : ℕ) (sc : ℕ) (code : ℕ) (esfn : ℕ) (own : Bool) : d.Goes [.waves, .scs] (Dev.pendChange d w dir sc code esfn own) := by
  unfold Dev.pendChange
  extract_lets +onlyGivenNames old d1
  have hd1 : d.Goes [.waves, .scs] d1 := (Dev.Goes.refl _ _).setWave _ _
  exact Dev.Goes.ite (hd1.thn (Dev.showNext_goes _ _ _ _)) (hd1.setSc _ _ _)

theorem Dev.ackUntil_goes (d : Dev) (w : ℕ) (mtype : ℕ) (mseq : ℕ) (esfn : ℕ) (dir : ℕ) : d.Goes [.waves] (Dev.ackUntil d w mtype mseq esfn dir) := by
  unfold Dev.ackUntil
  exact ((Dev.Goes.refl _ _).setWave _ _).thn (Dev.sendAck_goes _ _ _ _ _ _)

theorem Dev.profileChange_goes (d : Dev) (w : ℕ) (tid : ℕ) (mseq : ℕ) (esfn : ℕ) (mdir : ℕ) (op : ℕ) (mask : ℕ) (codes : List ℕ) : d.Goes [.out, .ash, .msixHeld, .waves, .scs] (Dev.profileChange d w tid mseq esfn mdir op mask codes) := by
  unfold Dev.profileChange
  extract_lets +onlyGivenNames leaf st
  refine Dev.Goes.ite (Dev.Goes.within (Dev.ctlFld_goes _ _)) (Dev.Goes.ite (Dev.Goes.refl _ _) ?_)
  · extract_lets +onlyGivenNames dir res answer d1
    have hd1 : d.Goes [.out, .ash, .msixHeld, .waves, .scs] d1 := by
      unfold d1
      split
      · exact Dev.Goes.ite (Dev.Goes.within (Dev.abandon_goes _ _)) (Dev.Goes.refl _ _)
      · exact Dev.Goes.refl _ _
    refine Dev.Goes.ite ((hd1.thn (Dev.profRefused_goes _ _)).when _ _ fun d => Dev.Goes.within (Dev.sendAck_goes _ _ _ _ _ _)) ?_
    · extract_lets +onlyGivenNames d2
      have hd2 : d.Goes [.out, .ash, .msixHeld, .waves, .scs] d2 := Dev.Goes.ite (hd1.thn (Dev.cancelChanges_goes _ _ _ _)) (hd1.each _ _ fun d k => Dev.Goes.within (Dev.pendChange_goes _ _ _ _ _ _ _))
      exact Dev.Goes.ite (hd2.when _ _ fun d => Dev.Goes.within (Dev.sendAck_goes _ _ _ _ _ _)) (hd2.thn (Dev.ackUntil_goes _ _ _ _ _ _))

theorem Dev.pendKey_goes (d : Dev) (w : ℕ) (gid : ℕ) (kidx : ℕ) (esfn : ℕ) : d.Goes [.waves] (Dev.pendKey d w gid kidx esfn) := by
  unfold Dev.pendKey
  exact (Dev.Goes.refl _ _).setWave _ _

theorem Dev.keySwitch_goes (d : Dev) (w : ℕ) (tid : ℕ) (mseq : ℕ) (gid : ℕ) (mdir : ℕ) (kidx : ℕ) (esfn : ℕ) : d.Goes [.out, .ash, .msixHeld, .waves] (Dev.keySwitch d w tid mseq gid mdir kidx esfn) := by
  unfold Dev.keySwitch
  extract_lets +onlyGivenNames leaf st
  refine Dev.Goes.ite (Dev.Goes.within (Dev.ctlFld_goes _ _)) (Dev.Goes.ite (Dev.Goes.refl _ _) ?_)
  · extract_lets +onlyGivenNames res d1
    have hd1 : d.Goes [.out, .ash, .msixHeld, .waves] d1 := by
      unfold d1
      split
      · exact Dev.Goes.ite (Dev.Goes.within (Dev.keyAbandon_goes _ _)) (Dev.Goes.refl _ _)
      · exact Dev.Goes.refl _ _
    refine Dev.Goes.ite ((hd1.count _ _).thn (Dev.sendAck_goes _ _ _ _ _ _)) ?_
    · extract_lets +onlyGivenNames d2
      have hd2 : d.Goes [.out, .ash, .msixHeld, .waves] d2 := Dev.Goes.ite (hd1.thn (Dev.pendKey_goes _ _ _ _ _)) hd1
      exact Dev.Goes.ite (hd2.thn (Dev.sendAck_goes _ _ _ _ _ _)) (hd2.thn (Dev.ackUntil_goes _ _ _ _ _ _))

theorem Dev.timeOfDay_goes (d : Dev) (w : ℕ) (rsfn : ℕ) (sec : ℕ) (ns : ℕ) (frac : ℕ) : d.Goes [.out, .time, .ash, .msixHeld] (Dev.timeOfDay d w rsfn sec ns frac) := by
  unfold Dev.timeOfDay
  extract_lets +onlyGivenNames loc
  exact (((Dev.Goes.refl _ _).setWl _ _).count _ _).raiseWords _ _ _

theorem Dev.timeOfDayRx_goes (d : Dev) (w : ℕ) (rsfn : ℕ) (sec : ℕ) (ns : ℕ) (frac : ℕ) : d.Goes [.out, .time, .ash, .msixHeld] (Dev.timeOfDayRx d w rsfn sec ns frac) := by
  unfold Dev.timeOfDayRx
  exact Dev.Goes.ite (Dev.Goes.within (Dev.ctlFld_goes _ _)) (Dev.Goes.ite (Dev.Goes.refl _ _) (Dev.Goes.within (Dev.timeOfDay_goes _ _ _ _ _ _)))

theorem Dev.enterSilence_goes (d : Dev) (w : ℕ) : d.Goes [.out, .ash, .msixHeld, .engines, .waves] (Dev.enterSilence d w) := by
  unfold Dev.enterSilence
  extract_lets +onlyGivenNames st
  exact (Dev.Goes.ite (Dev.Goes.refl _ _) (((Dev.Goes.refl _ _).set _ _).thn (Dev.setAct_goes _ _ _))).thn (Dev.cutBursts_goes _ _ _)

theorem Dev.silence_goes (d : Dev) (w : ℕ) (tid : ℕ) (dur : ℕ) : d.Goes [.out, .ash, .msixHeld, .engines, .waves] (Dev.silence d w tid dur) := by
  unfold Dev.silence
  refine (Dev.Goes.refl _ _).leafMessage _ _ _ _ fun d => Dev.Goes.ite (Dev.Goes.refl _ _) (Dev.Goes.ite ((((Dev.Goes.refl _ _).set _ _).set _ _).thn (Dev.leaveSilence_goes _ _)) ?_)
  · extract_lets +onlyGivenNames was
    exact ((((Dev.Goes.refl _ _).set _ _).set _ _).when _ _ fun d => Dev.Goes.within (Dev.sfEvent_goes _ _ _ _)).thn (Dev.enterSilence_goes _ _)

theorem Dev.release_goes (d : Dev) (w : ℕ) (reason : ℕ) : d.Goes [.out, .ash, .msixHeld, .engines, .waves] (Dev.release d w reason) := by
  unfold Dev.release
  exact (Dev.Goes.refl _ _).leafMessage _ _ _ _ fun d => (((Dev.Goes.refl _ _).setWave _ _).thn (Dev.deactivate_goes _ _)).thn (Dev.sfEvent_goes _ _ _ _)

theorem Dev.gntBad_goes (d : Dev) (w : ℕ) (f : Fld) : d.Goes [.out, .ash, .msixHeld] (Dev.gntBad d w f) := by
  unfold Dev.gntBad
  exact ((Dev.Goes.refl _ _).count _ _).when _ _ fun d => Dev.Goes.within (Dev.sfEvent_goes _ _ _ _)

theorem Dev.oneGrant_goes (d0 : Dev) (w : ℕ) (tsfn : ℕ) (all : List GrantIn) (g : GrantIn) : d0.Goes [.out, .ash, .msixHeld, .waves] (Dev.oneGrant d0 w tsfn all g) := by
  unfold Dev.oneGrant
  extract_lets +onlyGivenNames tid st bcast d
  have hd : d0.Goes [.out, .ash, .msixHeld, .waves] d := (Dev.Goes.refl _ _).when _ _ fun d => (Dev.Goes.refl _ _).setWave _ _
  exact Dev.Goes.ite hd (Dev.Goes.ite (hd.thn (Dev.gntBad_goes _ _ _)) (Dev.Goes.ite hd (Dev.Goes.ite (hd.thn (Dev.gntBad_goes _ _ _)) (Dev.Goes.ite (hd.thn (Dev.gntBad_goes _ _ _)) (Dev.Goes.ite (hd.thn (Dev.gntBad_goes _ _ _)) (Dev.Goes.ite ((hd.count _ _).thn (Dev.sfEvent_goes _ _ _ _)) (Dev.Goes.ite (hd.thn (Dev.gntBad_goes _ _ _)) (Dev.Goes.ite hd (hd.setWave _ _)))))))))

theorem Dev.grantMap_goes (d : Dev) (w : ℕ) (tsfn : ℕ) (gs : List GrantIn) : d.Goes [.out, .ash, .msixHeld, .waves] (Dev.grantMap d w tsfn gs) := by
  unfold Dev.grantMap
  refine (Dev.Goes.refl _ _).leafMessage _ _ _ _ fun d => ?_
  · extract_lets +onlyGivenNames lead tid
    exact Dev.Goes.ite ((Dev.Goes.refl _ _).each _ _ fun d g => Dev.Goes.within (Dev.oneGrant_goes _ _ _ _ _)) ((Dev.Goes.refl _ _).each _ _ fun d x => Dev.Goes.within (Dev.gntBad_goes _ _ _))

theorem Dev.ackProfile_goes (d : Dev) (w : ℕ) (amseq : ℕ) (result : ℕ) : d.Goes [.out, .ash, .msixHeld, .waves, .scs] (Dev.ackProfile d w amseq result) := by
  unfold Dev.ackProfile
  extract_lets +onlyGivenNames d1
  have hd1 : d.Goes [.out, .ash, .msixHeld, .waves, .scs] d1 := (Dev.Goes.refl _ _).set _ _
  split
  · refine Dev.Goes.ite (Dev.Goes.ite (Dev.Goes.ite hd1 ?_) ((((hd1.setWave _ _).set _ _).set _ _).thn (Dev.profRefused_goes _ _))) (Dev.Goes.ite hd1 (hd1.thn (Dev.profRefused_goes _ _)))
    · extract_lets +onlyGivenNames d2
      have hd2 : d.Goes [.out, .ash, .msixHeld, .waves, .scs] d2 := hd1.setWave _ _
      exact Dev.Goes.ite (hd2.thn (Dev.cancelChanges_goes _ _ _ _)) (hd2.each _ _ fun d c => Dev.Goes.within (Dev.pendChange_goes _ _ _ _ _ _ _))
  · exact Dev.Goes.ite hd1 (hd1.thn (Dev.profRefused_goes _ _))

theorem Dev.ackKey_goes (d : Dev) (w : ℕ) (amseq : ℕ) (result : ℕ) : d.Goes [.waves] (Dev.ackKey d w amseq result) := by
  unfold Dev.ackKey
  extract_lets +onlyGivenNames d1
  have hd1 : d.Goes [.waves] d1 := ((Dev.Goes.refl _ _).set _ _).when _ _ fun d => (Dev.Goes.refl _ _).count _ _
  split
  · refine Dev.Goes.ite hd1 (Dev.Goes.ite ?_ (((hd1.setWave _ _).set _ _).set _ _))
    · extract_lets +onlyGivenNames d2
      have hd2 : d.Goes [.waves] d2 := hd1.setWave _ _
      exact Dev.Goes.ite (hd2.thn (Dev.pendKey_goes _ _ _ _ _)) hd2
  · exact hd1

theorem Dev.ack_goes (d : Dev) (w : ℕ) (amtype : ℕ) (amseq : ℕ) (result : ℕ) : d.Goes [.out, .ash, .msixHeld, .waves, .scs] (Dev.ack d w amtype amseq result) := by
  unfold Dev.ack
  exact Dev.Goes.ite (Dev.Goes.within (Dev.ctlFld_goes _ _)) (Dev.Goes.ite (Dev.Goes.refl _ _) (Dev.Goes.ite (Dev.Goes.within (Dev.ackProfile_goes _ _ _ _)) (Dev.Goes.ite (Dev.Goes.within (Dev.ackKey_goes _ _ _ _)) (Dev.Goes.refl _ _))))

theorem Dev.ctrlMessage_goes (fz : Fuses) (d : Dev) (w : ℕ) (tid : ℕ) (p : List Byte) : d.Goes [.out, .time, .ash, .msixHeld, .engines, .waves, .scs] (Dev.ctrlMessage fz d w tid p) := by
  unfold Dev.ctrlMessage
  extract_lets +onlyGivenNames n
  refine Dev.Goes.ite (Dev.Goes.within (Dev.ctlFld_goes _ _)) (Dev.Goes.ite (((Dev.Goes.refl _ _).count _ _).thn (Dev.sfEvent_goes _ _ _ _)) ?_)
  · extract_lets +onlyGivenNames ty mseq b need notHere
    refine Dev.Goes.ite (Dev.Goes.ite (Dev.Goes.within (Dev.discover_goes _ _ _ _ _ _)) (Dev.Goes.within (Dev.ctlFld_goes _ _))) (Dev.Goes.ite (Dev.Goes.ite (Dev.Goes.ite (Dev.Goes.refl _ _) (Dev.Goes.within (Dev.range_goes _ _ _ _ _))) (Dev.Goes.within (Dev.ctlFld_goes _ _))) (Dev.Goes.ite (Dev.Goes.ite (Dev.Goes.within (Dev.assignId_goes _ _ _ _ _)) (Dev.Goes.within (Dev.ctlFld_goes _ _))) (Dev.Goes.ite (Dev.Goes.ite (Dev.Goes.within (Dev.profileChange_goes _ _ _ _ _ _ _ _ _)) (Dev.Goes.within (Dev.ctlFld_goes _ _))) (Dev.Goes.ite (Dev.Goes.ite (Dev.Goes.within (Dev.keySwitch_goes _ _ _ _ _ _ _ _)) (Dev.Goes.within (Dev.ctlFld_goes _ _))) (Dev.Goes.ite (Dev.Goes.ite (Dev.Goes.within (Dev.timeOfDayRx_goes _ _ _ _ _ _)) (Dev.Goes.within (Dev.ctlFld_goes _ _))) (Dev.Goes.ite (Dev.Goes.ite (Dev.Goes.within (Dev.silence_goes _ _ _ _)) (Dev.Goes.within (Dev.ctlFld_goes _ _))) (Dev.Goes.ite (Dev.Goes.ite (Dev.Goes.ite (Dev.Goes.refl _ _) (Dev.Goes.within (Dev.release_goes _ _ _))) (Dev.Goes.within (Dev.ctlFld_goes _ _))) (Dev.Goes.ite ?_ (Dev.Goes.ite (Dev.Goes.ite (Dev.Goes.within (Dev.ack_goes _ _ _ _ _)) (Dev.Goes.within (Dev.ctlFld_goes _ _))) (Dev.Goes.ite (Dev.Goes.ite (Dev.Goes.ite (Dev.Goes.refl _ _) (Dev.Goes.within (Dev.ctlFld_goes _ _))) (Dev.Goes.within (Dev.ctlFld_goes _ _))) (Dev.Goes.ite (Dev.Goes.ite (Dev.Goes.ite (Dev.Goes.refl _ _) (Dev.Goes.within (Dev.ctlFld_goes _ _))) (Dev.Goes.within (Dev.ctlFld_goes _ _))) (Dev.Goes.ite (Dev.Goes.ite (Dev.Goes.within (Dev.ctlFld_goes _ _)) (Dev.Goes.ite (Dev.Goes.refl _ _) (Dev.Goes.within (Dev.ctlFld_goes _ _)))) (((Dev.Goes.refl _ _).count _ _).thn (Dev.sfEvent_goes _ _ _ _))))))))))))))
    · extract_lets +onlyGivenNames ngr
      exact Dev.Goes.ite (Dev.Goes.within (Dev.ctlFld_goes _ _)) (Dev.Goes.within (Dev.grantMap_goes _ _ _ _))

theorem Dev.ctrlRx_goes (fz : Fuses) (d : Dev) (w : ℕ) (g : ℕ) (h : CellHdr) (payload : List Byte) : d.Goes [.out, .time, .ash, .msixHeld, .engines, .waves, .scs] (Dev.ctrlRx fz d w g h payload) := by
  unfold Dev.ctrlRx
  extract_lets +onlyGivenNames part
  refine Dev.Goes.ite ?_ (Dev.Goes.ite (Dev.Goes.refl _ _) (Dev.Goes.within (Dev.ctrlMessage_goes _ _ _ _ _)))
  · extract_lets +onlyGivenNames tid
    exact Dev.Goes.ite (Dev.Goes.refl _ _) (Dev.Goes.within (Dev.ctrlMessage_goes _ _ _ _ _))

theorem Dev.setMark_goes (d : Dev) (w : ℕ) (flow : ℕ) (on : Bool) : d.Goes [.waves] (Dev.setMark d w flow on) := by
  unfold Dev.setMark
  exact (Dev.Goes.refl _ _).setWave _ _

theorem Dev.toDlp_goes (d : Dev) (w : ℕ) (g : ℕ) (flow : ℕ) (bytes : List Byte) : d.Goes [.out, .ash, .msixHeld, .pkt, .buf, .inj] (Dev.toDlp d w g flow bytes) := by
  unfold Dev.toDlp
  extract_lets +onlyGivenNames p
  exact Dev.Goes.ite ((Dev.Goes.refl _ _).through _ _ _ _ _ fun d u => Dev.Goes.within (Dev.linkIn_goes _ _ _)) (Dev.Goes.within (Dev.linkDrop_goes _ _ _))

theorem Dev.reassemble_goes (d : Dev) (w : ℕ) (g : ℕ) (h : CellHdr) (payload : List Byte) : d.Goes [.out, .ash, .msixHeld, .waves, .pkt, .buf, .inj] (Dev.reassemble d w g h payload) := by
  unfold Dev.reassemble
  extract_lets +onlyGivenNames part
  refine Dev.Goes.ite ?_ ?_
  · extract_lets +onlyGivenNames d1 d2
    have hd1 : d.Goes [.out, .ash, .msixHeld, .waves, .pkt, .buf, .inj] d1 := Dev.Goes.ite ((Dev.Goes.within (Dev.fmtFault_goes _ _)).thn (Dev.dropOpen_goes _ _ _ _)) (Dev.Goes.refl _ _)
    have hd2 : d.Goes [.out, .ash, .msixHeld, .waves, .pkt, .buf, .inj] d2 := hd1.thn (Dev.setMark_goes _ _ _ _)
    exact Dev.Goes.ite (((hd2.count _ _).thn (Dev.lfEvent_goes _ _ _ _)).when _ _ fun d => Dev.Goes.within (Dev.setMark_goes _ _ _ _)) (Dev.Goes.ite (hd2.thn (Dev.toDlp_goes _ _ _ _ _)) (hd2.setWave _ _))
  · split
    · exact Dev.Goes.ite ((Dev.Goes.refl _ _).when _ _ fun d => Dev.Goes.within (Dev.setMark_goes _ _ _ _)) (Dev.Goes.within (Dev.fmtFault_goes _ _))
    · extract_lets +onlyGivenNames all
      exact Dev.Goes.ite (Dev.Goes.within (Dev.dropOpen_goes _ _ _ _)) (Dev.Goes.ite (((Dev.Goes.refl _ _).setWave _ _).thn (Dev.toDlp_goes _ _ _ _ _)) ((Dev.Goes.refl _ _).setWave _ _))

theorem Dev.deliverCell_goes (fz : Fuses) (d : Dev) (w : ℕ) (g : ℕ) (h : CellHdr) (payload : List Byte) : d.Goes [.out, .time, .ash, .msixHeld, .engines, .waves, .scs, .pkt, .buf, .inj] (Dev.deliverCell fz d w g h payload) := by
  unfold Dev.deliverCell
  exact Dev.Goes.ite ((Dev.Goes.refl _ _).count _ _) (Dev.Goes.ite (Dev.Goes.within (Dev.ctrlRx_goes _ _ _ _ _ _)) (Dev.Goes.within (Dev.reassemble_goes _ _ _ _ _)))

theorem Dev.dropCells_goes (d : Dev) (w : ℕ) (cells : List (List Byte)) : d.Goes [.out, .ash, .msixHeld, .waves] (Dev.dropCells d w cells) := by
  unfold Dev.dropCells
  refine (Dev.Goes.refl _ _).each _ _ fun d c => ?_
  · extract_lets +onlyGivenNames h
    exact (Dev.Goes.refl _ _).when _ _ fun d => Dev.Goes.within (Dev.dropOpen_goes _ _ _ _)

theorem Dev.cryEvent_goes (d : Dev) (w : ℕ) (c : ℕ) (addrs : List ℕ) : d.Goes [.out, .ash, .msixHeld] (Dev.cryEvent d w c addrs) := by
  unfold Dev.cryEvent
  exact (Dev.Goes.refl _ _).raise _ _

theorem Dev.groupBad_goes (d : Dev) (w : ℕ) (f : Fld) (ev : ℕ) (a : ℕ) (cells : List (List Byte)) : d.Goes [.out, .ash, .msixHeld, .waves] (Dev.groupBad d w f ev a cells) := by
  unfold Dev.groupBad
  exact (((Dev.Goes.refl _ _).count _ _).thn (Dev.cryEvent_goes _ _ _ _)).thn (Dev.dropCells_goes _ _ _)

theorem Dev.mismatch_goes (d : Dev) (w : ℕ) (g : ℕ) (m : ℕ) : d.Goes [.out, .ash, .msixHeld] (Dev.mismatch d w g m).1 := by
  unfold Dev.mismatch
  extract_lets +onlyGivenNames d1
  have hd1 : d.Goes [.out, .ash, .msixHeld] d1 := (Dev.Goes.refl _ _).when _ _ fun d => ((Dev.Goes.refl _ _).count _ _).thn (Dev.cryEvent_goes _ _ _ _)
  exact hd1.pair _

theorem Dev.tagRx_goes (fz : Fuses) (d : Dev) (w : ℕ) (g : ℕ) (cell : List Byte) (mism : ℕ) : d.Goes [.out, .time, .ash, .msixHeld, .engines, .waves, .scs, .crys, .pkt, .buf, .inj] (Dev.tagRx fz d w g cell mism) := by
  unfold Dev.tagRx
  extract_lets +onlyGivenNames p flags urg k gctr c cells lost bad d0 err
  have hd0 : d.Goes [.out, .time, .ash, .msixHeld, .engines, .waves, .scs, .crys, .pkt, .buf, .inj] d0 := (Dev.Goes.refl _ _).setCry _ _ _
  refine Dev.Goes.ite (hd0.thn (Dev.dropCells_goes _ _ _)) (Dev.Goes.ite hd0 (Dev.Goes.ite (hd0.thn (Dev.groupBad_goes _ _ _ _ _ _)) (Dev.Goes.ite (hd0.thn (Dev.groupBad_goes _ _ _ _ _ _)) (Dev.Goes.ite (hd0.thn (Dev.groupBad_goes _ _ _ _ _ _)) (Dev.Goes.ite (hd0.thn (Dev.groupBad_goes _ _ _ _ _ _)) ?_)))))
  · extract_lets +onlyGivenNames m
    have hm : d.Goes [.out, .time, .ash, .msixHeld, .engines, .waves, .scs, .crys, .pkt, .buf, .inj] m.1 := hd0.thn (Dev.mismatch_goes _ _ _ _)
    refine Dev.Goes.ite (((hm.set _ _).thn (Dev.cryEvent_goes _ _ _ _)).thn (Dev.dropCells_goes _ _ _)) ?_
    · extract_lets +onlyGivenNames aad r
      refine Dev.Goes.ite (hm.thn (Dev.groupBad_goes _ _ _ _ _ _)) ?_
      · extract_lets +onlyGivenNames d1
        have hd1 : d.Goes [.out, .time, .ash, .msixHeld, .engines, .waves, .scs, .crys, .pkt, .buf, .inj] d1 := (hm.setCry _ _ _).set _ _
        exact hd1.each _ _ fun d ci => Dev.Goes.within (Dev.deliverCell_goes _ _ _ _ _ _)

theorem Dev.collect_goes (d : Dev) (w : ℕ) (g : ℕ) (urg : Bool) (cell : List Byte) : d.Goes [.out, .ash, .msixHeld, .waves, .crys] (Dev.collect d w g urg cell) := by
  unfold Dev.collect
  extract_lets +onlyGivenNames c cells
  refine Dev.Goes.ite (Dev.Goes.within (Dev.dropCells_goes _ _ _)) (Dev.Goes.ite ((Dev.Goes.refl _ _).setCry _ _ _) ?_)
  · extract_lets +onlyGivenNames d1 lost
    have hd1 : d.Goes [.out, .ash, .msixHeld, .waves, .crys] d1 := (Dev.Goes.refl _ _).setCry _ _ _
    exact Dev.Goes.ite (hd1.thn (Dev.dropCells_goes _ _ _)) (hd1.thn (Dev.groupBad_goes _ _ _ _ _ _))

theorem Dev.cellRx_goes (fz : Fuses) (d : Dev) (w : ℕ) (g : ℕ) (x : RxCell) (uncorr : Bool) (cell : List Byte) : d.Goes [.out, .time, .ash, .msixHeld, .engines, .waves, .scs, .crys, .pkt, .buf, .inj] (Dev.cellRx fz d w g x uncorr cell) := by
  unfold Dev.cellRx
  extract_lets +onlyGivenNames h enc
  exact Dev.Goes.ite ((Dev.Goes.refl _ _).count _ _) (Dev.Goes.ite ((((Dev.Goes.refl _ _).count _ _).thn (Dev.dropOpen_goes _ _ _ _)).thn (Dev.accLose_goes _ _ _ _)) (Dev.Goes.ite (((((Dev.Goes.refl _ _).count _ _).thn (Dev.lfEvent_goes _ _ _ _)).thn (Dev.dropOpen_goes _ _ _ _)).thn (Dev.accLose_goes _ _ _ _)) (Dev.Goes.ite (Dev.Goes.within (Dev.fmtFault_goes _ _)) (Dev.Goes.ite (Dev.Goes.within (Dev.fmtFault_goes _ _)) (Dev.Goes.ite (((Dev.Goes.within (Dev.fmtFault_goes _ _)).thn (Dev.dropOpen_goes _ _ _ _)).thn (Dev.accLose_goes _ _ _ _)) (Dev.Goes.ite (Dev.Goes.within (Dev.deliverCell_goes _ _ _ _ _ _)) (Dev.Goes.ite (Dev.Goes.within (Dev.tagRx_goes _ _ _ _ _ _)) (Dev.Goes.within (Dev.collect_goes _ _ _ _ _)))))))))

theorem Dev.linkAway_goes (d : Dev) (k : ℕ) (u : FiUnit) : d.Goes [.out, .ash, .msixHeld, .grps, .buf, .macs] (Dev.linkAway d k u) := by
  unfold Dev.linkAway
  exact Dev.Goes.ite (Dev.Goes.within (Dev.freeBufs_goes _ _ _)) (Dev.Goes.ite ((Dev.Goes.refl _ _).setGrp _ _ _) ((Dev.Goes.refl _ _).setMac _ _))

theorem Dev.fiNext_goes (fz : Fuses) (d : Dev) (i : ℕ) (dir : ℕ) (u : FiUnit) : d.Goes [.out, .time, .ash, .msixHeld, .engines, .waves, .scs, .grps, .crys, .pkt, .buf, .macs, .inj] (Dev.fiNext fz d i dir u) := by
  unfold Dev.fiNext
  refine Dev.Goes.ite ((Dev.Goes.refl _ _).when _ _ fun d => Dev.Goes.ite (Dev.Goes.within (Dev.macRx_goes _ _ _ _)) (Dev.Goes.within (Dev.portOut_goes _ _ _))) (Dev.Goes.ite ?_ (Dev.Goes.ite (Dev.Goes.within (Dev.linkIn_goes _ _ _)) (Dev.Goes.within (Dev.linkAway_goes _ _ _))))
  · extract_lets +onlyGivenNames w sc
    exact Dev.Goes.ite ((Dev.Goes.refl _ _).when _ _ fun d => Dev.Goes.ite ((Dev.Goes.within (Dev.missingCells_goes _ _ _ _)).thn (Dev.cryCut_goes _ _ _)) (Dev.Goes.within (Dev.cellRx_goes _ _ _ _ _ _ _))) (Dev.Goes.ite ((Dev.Goes.refl _ _).setSc _ _ _) ((Dev.Goes.refl _ _).when _ _ fun d => (Dev.Goes.refl _ _).emit _))

theorem Dev.fiRelease_goes (fz : Fuses) (d : Dev) (i : ℕ) : d.Goes [.out, .time, .ash, .msixHeld, .engines, .waves, .scs, .grps, .crys, .pkt, .buf, .macs, .inj] (Dev.fiRelease fz d i) := by
  unfold Dev.fiRelease
  extract_lets +onlyGivenNames j
  split
  · exact Dev.Goes.refl _ _
  · exact (((Dev.Goes.refl _ _).setInj _ _).set _ _).thn (Dev.fiNext_goes _ _ _ _ _)

theorem Dev.fiDisarm_goes (fz : Fuses) (d : Dev) (i : ℕ) : d.Goes [.out, .time, .ash, .msixHeld, .engines, .waves, .scs, .grps, .crys, .pkt, .buf, .macs, .inj] (Dev.fiDisarm fz d i) := by
  unfold Dev.fiDisarm
  exact (((Dev.Goes.refl _ _).set _ _).thn (Dev.fiOff_goes _ _)).thn (Dev.fiRelease_goes _ _ _)

theorem Dev.fiArm_goes (d : Dev) (i : ℕ) : d.Goes [.inj] (Dev.fiArm d i) := by
  unfold Dev.fiArm
  exact (((Dev.Goes.refl _ _).setInj _ _).set _ _).set _ _

theorem Dev.fiCtlGo_goes (fz : Fuses) (d : Dev) (i : ℕ) (old : Word) : d.Goes [.out, .time, .ash, .msixHeld, .engines, .waves, .scs, .grps, .crys, .pkt, .buf, .macs, .inj] (Dev.fiCtlGo fz d i old) := by
  unfold Dev.fiCtlGo
  exact Dev.Goes.ite (Dev.Goes.within (Dev.fiDisarm_goes _ _ _)) (Dev.Goes.ite (Dev.Goes.refl _ _) (Dev.Goes.within (Dev.fiArm_goes _ _)))

theorem Dev.fiKill_goes (fz : Fuses) (d : Dev) : d.Goes [.out, .time, .ash, .msixHeld, .engines, .waves, .scs, .grps, .crys, .pkt, .buf, .macs, .inj] (Dev.fiKill fz d) := by
  unfold Dev.fiKill
  exact (Dev.Goes.refl _ _).each _ _ fun d i => Dev.Goes.within (Dev.fiDisarm_goes _ _ _)

theorem Dev.writeGo_goes (fz : Fuses) (d : Dev) (r : RegAt) (old : Word) (v : Word) (written : List (BitVec 64)) : d.Goes [.free, .out, .blown, .time, .ash, .pwr, .pcie, .msixHeld, .engines, .convs, .waves, .scs, .grps, .crys, .pkt, .buf, .macs, .lanes, .inj] (Dev.writeGo fz d r old v written) := by
  unfold Dev.writeGo
  split
  · exact Dev.Goes.within (Dev.discipline_goes _)
  · exact Dev.Goes.within (Dev.holdBack_goes _ _ _ _)
  · exact Dev.Goes.within (Dev.holdBack_goes _ _ _ _)
  · exact Dev.Goes.within (Dev.holdBack_goes _ _ _ _)
  · exact Dev.Goes.within (Dev.holdBack_goes _ _ _ _)
  · exact Dev.Goes.within (Dev.holdBack_goes _ _ _ _)
  · exact Dev.Goes.within (Dev.holdBack_goes _ _ _ _)
  · exact Dev.Goes.within (Dev.holdBack_goes _ _ _ _)
  · exact (Dev.Goes.refl _ _).when _ _ fun d => Dev.Goes.within (Dev.unmute_goes _ _)
  · exact Dev.Goes.within (Dev.trdGo_goes _ _ _)
  · exact (Dev.Goes.refl _ _).when _ _ fun d => (Dev.Goes.refl _ _).setWave _ _
  · exact Dev.Goes.within (Dev.actenWritten_goes _ _)
  · exact Dev.Goes.within (Dev.actCtl_goes _ _ _)
  · exact Dev.Goes.within (Dev.prfGo_goes _ _ _)
  · exact Dev.Goes.within (Dev.kcmdGo_goes _ _ _)
  · exact Dev.Goes.within (Dev.kswGo_goes _ _ _)
  · exact (Dev.Goes.refl _ _).when _ _ fun d => Dev.Goes.within (Dev.clrFltTx_goes _ _ _)
  · exact (Dev.Goes.refl _ _).when _ _ fun d => Dev.Goes.within (Dev.clrFltRx_goes _ _ _)
  · exact Dev.Goes.within (Dev.tmplGo_goes _ _)
  · exact Dev.Goes.within (Dev.clsGo_goes _ _)
  · exact Dev.Goes.within (Dev.emtGo_goes _ _)
  · exact Dev.Goes.within (Dev.smpGo_goes _ _)
  · exact Dev.Goes.within (Dev.qmGo_goes _ _)
  · exact Dev.Goes.within (Dev.noteLimits_goes _ _ _)
  · exact Dev.Goes.within (Dev.gclGo_goes _ _ _)
  · exact Dev.Goes.within (Dev.parkGo_goes _ _ _)
  · exact (Dev.Goes.refl _ _).when _ _ fun d => Dev.Goes.within (Dev.txtsPop_goes _ _)
  · exact Dev.Goes.within (Dev.loopGo_goes _ _)
  · exact Dev.Goes.within (Dev.prbsGo_goes _ _ _)
  · exact Dev.Goes.within (Dev.ringCfgGo_goes _ _ _ _ _ _)
  · exact Dev.Goes.within (Dev.ringCfgGo_goes _ _ _ _ _ _)
  · exact Dev.Goes.within (Dev.ringRefresh_goes _ _ _ _)
  · exact Dev.Goes.within (Dev.ringRefresh_goes _ _ _ _)
  · exact Dev.Goes.within (Dev.ringRefresh_goes _ _ _ _)
  · exact Dev.Goes.within (Dev.ringRefresh_goes _ _ _ _)
  · exact Dev.Goes.within (Dev.stepGo_goes _ _)
  · exact Dev.Goes.within (Dev.nsBaseGo_goes _)
  · exact Dev.Goes.within (Dev.ppsOff_goes _)
  · exact Dev.Goes.within (Dev.gcfgGo_goes _ _ _)
  · exact (Dev.Goes.refl _ _).with_blown _
  · exact Dev.Goes.within (Dev.fiCtlGo_goes _ _ _ _)
  · exact Dev.Goes.within (Dev.fiCtlGo_goes _ _ _ _)
  · exact Dev.Goes.within (Dev.fiCtlGo_goes _ _ _ _)
  · exact (Dev.Goes.refl _ _).when _ _ fun d => Dev.Goes.within (Dev.fiKill_goes _ _)
  · exact Dev.Goes.refl _ _

theorem Dev.applyWrite_goes (fz : Fuses) (d : Dev) (a : ℕ) (r : RegAt) (v : Word) (written : List (BitVec 64)) : d.Goes [.free, .out, .blown, .time, .ash, .pwr, .pcie, .msixHeld, .engines, .convs, .waves, .scs, .grps, .crys, .pkt, .buf, .macs, .lanes, .inj] (Dev.applyWrite fz d a r v written) := by
  unfold Dev.applyWrite
  extract_lets +onlyGivenNames old
  refine Dev.Goes.ite (Dev.Goes.refl _ _) (Dev.Goes.ite (Dev.Goes.ite (Dev.Goes.refl _ _) ?_) (((Dev.Goes.refl _ _).setReg _ _).thn (Dev.writeGo_goes _ _ _ _ _ _)))
  · extract_lets +onlyGivenNames was
    exact ((Dev.Goes.refl _ _).setReg _ _).thn (Dev.evtGo_goes _ _ _)

theorem Dev.regset_goes {fz : Fuses} {d e : Dev} {p : ℕ × ℕ} (h : d.regset fz p = some e) : d.Goes [.free, .out, .blown, .time, .ash, .pwr, .pcie, .msixHeld, .engines, .convs, .waves, .scs, .grps, .crys, .pkt, .buf, .macs, .lanes, .inj] e := by
  unfold Dev.regset at h
  split at h
  · exact absurd h (by simp)
  · dsimp only at h
    split at h
    · exact absurd h (by simp)
    · rw [← Option.some.inj h]
      exact Dev.Goes.within (Dev.applyWrite_goes _ _ _ _ _ _)

theorem Dev.regsets_goes (fz : Fuses) (l : List (ℕ × ℕ)) (d : Dev) : d.Goes [.free, .out, .blown, .time, .ash, .pwr, .pcie, .msixHeld, .engines, .convs, .waves, .scs, .grps, .crys, .pkt, .buf, .macs, .lanes, .inj] (Dev.regsets fz l d).1 := by
  induction l generalizing d with
  | nil => exact Dev.Goes.refl _ _
  | cons p t ih =>
    unfold Dev.regsets
    split
    · next e he => exact (Dev.Goes.within (Dev.regset_goes he)).thn (ih _)
    · exact Dev.Goes.refl _ _

theorem Dev.applyGroup_goes (d : Dev) (w : ℕ) (dir : ℕ) (gid : ℕ) (enc : ℕ) (mask : ℕ) : d.Goes [.grps] (Dev.applyGroup d w dir gid enc mask) := by
  unfold Dev.applyGroup
  exact Dev.Goes.ite ((((((Dev.Goes.refl _ _).setGrp _ _ _).set _ _).set _ _).set _ _).set _ _) ((((Dev.Goes.refl _ _).setGrp _ _ _).set _ _).set _ _)

theorem Dev.applyQmap_goes (d : Dev) (first : ℕ) (count : ℕ) (sched : ℕ) (hp : ℕ) (sp : ℕ) (flags : ℕ) (shg : ℕ) : d.Goes [] (Dev.applyQmap d first count sched hp sp flags shg) := by
  unfold Dev.applyQmap
  refine (Dev.Goes.refl _ _).each _ _ fun d i => ?_
  · extract_lets +onlyGivenNames q
    exact ((((((Dev.Goes.refl _ _).set _ _).set _ _).set _ _).set _ _).set _ _).set _ _

theorem Dev.applyPort_goes (d : Dev) (p : ℕ) (k : ℕ) (lrate : ℕ) (flags : ℕ) (fec : ℕ) : d.Goes [] (Dev.applyPort d p k lrate flags fec) := by
  unfold Dev.applyPort
  extract_lets +onlyGivenNames lanes d1
  have hd1 : d.Goes [] d1 := ((((Dev.Goes.refl _ _).set _ _).set _ _).set _ _).set _ _
  exact hd1.each _ _ fun d i => (Dev.Goes.refl _ _).set _ _

theorem Dev.applyRec_goes (fz : Fuses) (d : Dev) (c : ℕ) (r : Rec) : d.Goes [.free, .out, .blown, .time, .ash, .pwr, .pcie, .msixHeld, .engines, .convs, .waves, .scs, .grps, .crys, .pkt, .buf, .macs, .lanes, .inj] (Dev.applyRec fz d c r).1 := by
  unfold Dev.applyRec
  split
  · exact Dev.Goes.within (Dev.regsets_goes _ _ _)
  · exact ((Dev.Goes.refl _ _).set _ _).pair _
  · exact ((Dev.Goes.refl _ _).setFlag _ _).pair _
  · refine ((Dev.Goes.refl _ _).each _ _ fun d i => ?_).pair _
    · extract_lets +onlyGivenNames x
      exact ((Dev.Goes.refl _ _).set _ _).set _ _
  · exact ((Dev.Goes.refl _ _).set _ _).pair _
  · exact (((Dev.Goes.refl _ _).setWave _ _).set _ _).pair _
  · exact (Dev.Goes.within (Dev.applyGroup_goes _ _ _ _ _ _)).pair _
  · exact (((Dev.Goes.refl _ _).set _ _).each _ _ fun d i => (Dev.Goes.refl _ _).set _ _).pair _
  · exact ((((Dev.Goes.refl _ _).set _ _).set _ _).set _ _).pair _
  · extract_lets +onlyGivenNames d1
    have hd1 : d.Goes [.free, .out, .blown, .time, .ash, .pwr, .pcie, .msixHeld, .engines, .convs, .waves, .scs, .grps, .crys, .pkt, .buf, .macs, .lanes, .inj] d1 := (((Dev.Goes.refl _ _).set _ _).set _ _).set _ _
    exact ((hd1.with_buf _).set _ _).pair _
  · extract_lets +onlyGivenNames d1'
    have hd1' : d.Goes [.free, .out, .blown, .time, .ash, .pwr, .pcie, .msixHeld, .engines, .convs, .waves, .scs, .grps, .crys, .pkt, .buf, .macs, .lanes, .inj] d1' := ((Dev.Goes.refl _ _).set _ _).set _ _
    exact (hd1'.set _ _).pair _
  · exact (Dev.Goes.within (Dev.applyQmap_goes _ _ _ _ _ _ _ _)).pair _
  · exact ((Dev.Goes.refl _ _).set _ _).pair _
  · exact ((Dev.Goes.refl _ _).each _ _ fun d i => (Dev.Goes.refl _ _).set _ _).pair _
  · exact (Dev.Goes.within (Dev.applyPort_goes _ _ _ _ _ _)).pair _
  · exact ((Dev.Goes.refl _ _).each _ _ fun d i => (Dev.Goes.refl _ _).set _ _).pair _

theorem Dev.applyLive_goes (fz : Fuses) (d : Dev) (c : ℕ) (r : Rec) : d.Goes [.free, .out, .blown, .time, .ash, .pwr, .pcie, .msixHeld, .engines, .convs, .waves, .scs, .grps, .crys, .pkt, .buf, .macs, .lanes, .inj] (Dev.applyLive fz d c r).1 := by
  unfold Dev.applyLive
  refine Dev.Goes.ite_fst ((Dev.Goes.refl _ _).pair _) (Dev.Goes.ite_fst ?_ (Dev.Goes.within (Dev.applyRec_goes _ _ _ _)))
  · split
    · exact ((Dev.Goes.refl _ _).set _ _).pair _
    · exact Dev.Goes.within (Dev.regsets_goes _ _ _)
    · exact (Dev.Goes.refl _ _).pair _

theorem Dev.applySecLive_goes (fz : Fuses) (d : Dev) (c : ℕ) : d.Goes [.free, .out, .blown, .time, .ash, .pwr, .pcie, .msixHeld, .engines, .convs, .waves, .scs, .grps, .crys, .pkt, .buf, .macs, .lanes, .inj] (Dev.applySecLive fz d c).1 :=
  (Dev.Goes.ite ((Dev.Goes.refl _ _).set _ _) (Dev.Goes.refl _ _)).thn (applyAll_goes (fun _ _ => Dev.applyLive_goes _ _ _ _) _ _)

theorem Dev.reloadFailEvent_goes (d : Dev) (res : ℕ) : d.Goes [.out, .ash, .msixHeld] (Dev.reloadFailEvent d res) := by
  unfold Dev.reloadFailEvent
  exact ((Dev.Goes.refl _ _).set _ _).raise _ _

theorem Dev.loseCodes_goes (d : Dev) (w : ℕ) : d.Goes [.waves] (Dev.loseCodes d w) := by
  unfold Dev.loseCodes
  exact (Dev.Goes.refl _ _).setWave _ _

theorem Dev.dropCord_goes (d : Dev) (c : ℕ) : d.Goes [] (Dev.dropCord d c) := by
  unfold Dev.dropCord
  exact (Dev.Goes.refl _ _).dropRegs _ _

theorem Dev.stopsServing_goes (d : Dev) (e : ℕ) : d.Goes [.spr] (Dev.stopsServing d e) := by
  unfold Dev.stopsServing
  exact (Dev.Goes.refl _ _).when _ _ fun d => (Dev.Goes.refl _ _).setSpr1 _ _

theorem Dev.wipeEngine_goes (d : Dev) (e : ℕ) : d.Goes [.spr, .engines, .convs, .waves] (Dev.wipeEngine d e) := by
  unfold Dev.wipeEngine
  extract_lets +onlyGivenNames d1
  have hd1 : d.Goes [.spr, .engines, .convs, .waves] d1 := (Dev.Goes.refl _ _).each _ _ fun d w => (Dev.Goes.refl _ _).when _ _ fun d => Dev.Goes.within (Dev.loseCodes_goes _ _)
  exact ((((hd1.thn (Dev.stopsServing_goes _ _)).thn (Dev.dropCord_goes _ _)).setConv _ _).setConv _ _).setEng _ _

theorem Dev.rxEvent_goes (d : Dev) (e : ℕ) (c : ℕ) (addrs : List ℕ) : d.Goes [.out, .ash, .msixHeld] (Dev.rxEvent d e c addrs) := by
  unfold Dev.rxEvent
  split
  · exact (Dev.Goes.refl _ _).when _ _ fun d => (Dev.Goes.refl _ _).raise _ _
  · exact Dev.Goes.refl _ _

theorem Dev.laserFailed_goes (d : Dev) (e : ℕ) (step : ℤ) : d.Goes [.out, .ash, .msixHeld, .engines] (Dev.laserFailed d e step) := by
  unfold Dev.laserFailed
  exact ((((Dev.Goes.refl _ _).setInt _ _).set _ _).setEng _ _).thn (Dev.rxEvent_goes _ _ _ _)

theorem Dev.dropStep_goes (d : Dev) (e : ℕ) : d.Goes [.out, .ash, .msixHeld, .engines] (Dev.dropStep d e) := by
  unfold Dev.dropStep
  split
  · exact Dev.Goes.within (Dev.laserFailed_goes _ _ _)
  · exact Dev.Goes.refl _ _

theorem Dev.wipeConv_goes (d : Dev) (w : ℕ) : d.Goes [.out, .ash, .msixHeld, .engines, .convs] (Dev.wipeConv d w) := by
  unfold Dev.wipeConv
  exact (((Dev.Goes.refl _ _).each _ _ fun d e => (Dev.Goes.within (Dev.dropStep_goes _ _)).setEng _ _).thn (Dev.dropCord_goes _ _)).setConv _ _

theorem Dev.dropLink_goes (d : Dev) (k : ℕ) : d.Goes [.pkt] (Dev.dropLink d k) := by
  unfold Dev.dropLink
  exact (Dev.Goes.refl _ _).setPkt _

theorem Dev.fiLost_goes (d : Dev) (i : ℕ) : d.Goes [.out, .ash, .msixHeld, .buf, .inj] (Dev.fiLost d i) := by
  unfold Dev.fiLost
  extract_lets +onlyGivenNames d1 d2
  have hd1 : d.Goes [.out, .ash, .msixHeld, .buf, .inj] d1 := (Dev.Goes.within (Dev.fiOff_goes _ _)).dropRegs _ _
  have hd2 : d.Goes [.out, .ash, .msixHeld, .buf, .inj] d2 := by
    unfold d2
    split
    · exact hd1.thn (Dev.freeBufs_goes _ _ _)
    · exact hd1
  exact hd2.with_inj_ _

theorem Dev.wipeFramer_goes (d0 : Dev) (w : ℕ) : d0.Goes [.out, .ash, .msixHeld, .waves, .scs, .grps, .crys, .pkt, .buf, .inj] (Dev.wipeFramer d0 w) := by
  unfold Dev.wipeFramer
  extract_lets +onlyGivenNames d held old d1
  have hd : d0.Goes [.out, .ash, .msixHeld, .waves, .scs, .grps, .crys, .pkt, .buf, .inj] d := Dev.Goes.within (Dev.lfAbandon_goes _ _)
  have hd1 : d0.Goes [.out, .ash, .msixHeld, .waves, .scs, .grps, .crys, .pkt, .buf, .inj] d1 := ((((((hd.each _ _ fun d k => Dev.Goes.within (Dev.fiLost_goes _ _)).thn (Dev.dropCord_goes _ _)).thn (Dev.dropLink_goes _ _)).setWave _ _).when _ _ fun d => Dev.Goes.within (Dev.loseCodes_goes _ _)).when _ _ fun d => (Dev.Goes.refl _ _).set _ _).when _ _ fun d => (Dev.Goes.refl _ _).set _ _
  exact hd1.with_scs_grps_crys _ _ _

theorem Dev.wipePkt_goes (d : Dev) : d.Goes [.out, .ash, .msixHeld, .pkt, .buf, .inj] (Dev.wipePkt d) := by
  unfold Dev.wipePkt
  extract_lets +onlyGivenNames d1 __src
  have hd1 : d.Goes [.out, .ash, .msixHeld, .pkt, .buf, .inj] d1 := (Dev.Goes.refl _ _).each _ _ fun d k => (Dev.Goes.refl _ _).each _ _ fun d p => Dev.Goes.within (Dev.linkDrop_goes _ _ _)
  have h__src : d.Goes [.out, .ash, .msixHeld, .pkt, .buf, .inj] __src := (hd1.each _ _ fun d k => Dev.Goes.within (Dev.fiLost_goes _ _)).thn (Dev.dropCord_goes _ _)
  exact h__src.with_pkt _

theorem Dev.wipeHs_goes (d : Dev) (c : ℕ) : d.Goes [.out, .ash, .msixHeld, .pkt, .buf, .macs, .lanes, .inj] (Dev.wipeHs d c) := by
  unfold Dev.wipeHs
  extract_lets +onlyGivenNames lo d1
  have hd1 : d.Goes [.out, .ash, .msixHeld, .pkt, .buf, .macs, .lanes, .inj] d1 := (((Dev.Goes.refl _ _).each _ _ fun d i => (Dev.Goes.within (Dev.macDown_goes _ _ _)).thn (Dev.fiLost_goes _ _)).thn (Dev.dropCord_goes _ _)).thn (Dev.dropLink_goes _ _)
  exact hd1.with_macs_lanes _ _

theorem Dev.wipePci_goes (d : Dev) : d.Goes [.pcie] (Dev.wipePci d) := by
  unfold Dev.wipePci
  extract_lets +onlyGivenNames sp wd up
  exact ((((Dev.Goes.within (Dev.dropCord_goes _ _)).set _ _).set _ _).set _ _).setPcie _

theorem Dev.wipe_goes (d : Dev) (c : ℕ) : d.Goes [.out, .time, .ash, .spr, .pcie, .msixHeld, .engines, .convs, .waves, .scs, .grps, .crys, .pkt, .buf, .macs, .lanes, .inj, .reclaim] (Dev.wipe d c) := by
  unfold Dev.wipe
  extract_lets +onlyGivenNames buf d1 owns
  have hbuf : d.Goes [.out, .time, .ash, .spr, .pcie, .msixHeld, .engines, .convs, .waves, .scs, .grps, .crys, .pkt, .buf, .macs, .lanes, .inj, .reclaim] buf := Dev.Goes.within (Dev.dropCord_goes _ _)
  have hd1 : d.Goes [.out, .time, .ash, .spr, .pcie, .msixHeld, .engines, .convs, .waves, .scs, .grps, .crys, .pkt, .buf, .macs, .lanes, .inj, .reclaim] d1 := by
    refine Dev.Goes.ite ?_ (Dev.Goes.ite ?_ (Dev.Goes.ite ?_ (Dev.Goes.ite ?_ (Dev.Goes.ite ?_ (Dev.Goes.ite ?_ ?_)))))
    · exact Dev.Goes.within (Dev.wipeEngine_goes _ _)
    · exact Dev.Goes.within (Dev.wipeConv_goes _ _)
    · exact Dev.Goes.within (Dev.wipeFramer_goes _ _)
    · exact Dev.Goes.within (Dev.wipePkt_goes _)
    · exact hbuf.with_buf_reclaim {} []
    · exact Dev.Goes.within (Dev.wipeHs_goes _ _)
    · exact Dev.Goes.within (Dev.wipePci_goes _)
  clear_value d1
  exact ((Dev.Goes.ite (hd1.with_reclaim _) hd1).thn (Dev.discipline_goes _)).thn (Dev.txRefresh_goes _)

theorem Dev.cordFail_goes (d : Dev) (c : ℕ) (counted : Bool) : d.Goes [.out, .time, .ash, .spr, .pwr, .pcie, .msixHeld, .engines, .convs, .waves, .scs, .grps, .crys, .pkt, .buf, .macs, .lanes, .inj, .reclaim] (Dev.cordFail d c counted) := by
  unfold Dev.cordFail
  extract_lets +onlyGivenNames d1
  have hd1 : d.Goes [.out, .time, .ash, .spr, .pwr, .pcie, .msixHeld, .engines, .convs, .waves, .scs, .grps, .crys, .pkt, .buf, .macs, .lanes, .inj, .reclaim] d1 := (((Dev.Goes.within (Dev.wipe_goes _ _)).setSt _ _).set _ _).setCordInfo _ _
  exact hd1.when _ _ fun d => ((Dev.Goes.refl _ _).count _ _).raise _ _

theorem Dev.reloadLive_goes (fz : Fuses) (d : Dev) (c : ℕ) : d.Goes [.free, .out, .blown, .time, .ash, .img, .spr, .pwr, .pcie, .msixHeld, .engines, .convs, .waves, .scs, .grps, .crys, .pkt, .buf, .macs, .lanes, .inj, .reclaim] (Dev.reloadLive fz d c).1 := by
  unfold Dev.reloadLive
  extract_lets +onlyGivenNames old fin x
  have hfin : ∀ e : Dev, e.Goes [.free, .out, .blown, .time, .ash, .img, .spr, .pwr, .pcie, .msixHeld, .engines, .convs, .waves, .scs, .grps, .crys, .pkt, .buf, .macs, .lanes, .inj, .reclaim] (fin e) := fun e =>
    ((Dev.Goes.within (Dev.showSeq_goes _ _)).when _ _ fun d => (Dev.Goes.within (Dev.fwStart_goes _ _)).thn (Dev.applyPolicies_goes _)).raise _ _
  have hx : d.Goes [.free, .out, .blown, .time, .ash, .img, .spr, .pwr, .pcie, .msixHeld, .engines, .convs, .waves, .scs, .grps, .crys, .pkt, .buf, .macs, .lanes, .inj, .reclaim] x.1 := (Dev.Goes.within (Dev.takeSlot_goes _ _)).thn (Dev.applySecLive_goes _ _ _)
  refine Dev.Goes.ite_fst (hx.thn (hfin _)) ?_
  extract_lets +onlyGivenNames y
  have hy : d.Goes [.free, .out, .blown, .time, .ash, .img, .spr, .pwr, .pcie, .msixHeld, .engines, .convs, .waves, .scs, .grps, .crys, .pkt, .buf, .macs, .lanes, .inj, .reclaim] y.1 := ((hx.thn (Dev.reloadFailEvent_goes _ _)).setImg _ fun h => h).thn (Dev.applySecLive_goes _ _ _)
  exact Dev.Goes.ite_fst (hy.thn (hfin _)) ((hy.when _ _ fun d => Dev.Goes.within (Dev.cordFail_goes _ _ _)).thn (Dev.reloadFailEvent_goes _ _))

theorem Dev.beginLoad_goes (d : Dev) (m : Move) : d.Goes [.spr] (Dev.beginLoad d m) := by
  unfold Dev.beginLoad
  exact (((Dev.Goes.within (Dev.setRole_goes _ _ _)).setSpr1 _ _).setSpr _).thn (Dev.sprShow_goes _)

theorem Dev.moveStart_goes (d : Dev) (m : Move) : d.Goes [.spr, .pwr] (Dev.moveStart d m) := by
  unfold Dev.moveStart
  extract_lets +onlyGivenNames m1 d1
  have hd1 : d.Goes [.spr, .pwr] d1 := (Dev.Goes.refl _ _).setSpr _
  exact Dev.Goes.ite (hd1.thn (Dev.beginLoad_goes _ _)) ((hd1.when _ _ fun d => Dev.Goes.within (Dev.cordWake_goes _ _ _)).thn (Dev.sprShow_goes _))

theorem Dev.select_goes (d : Dev) (w : ℕ) (e : ℕ) : d.Goes [] (Dev.select d w e) := by
  unfold Dev.select
  exact ((((Dev.Goes.refl _ _).set _ _).set _ _).set _ _).set _ _

theorem Dev.selectOn_goes (d : Dev) (w : ℕ) (e : ℕ) : d.Goes [.time, .waves] (Dev.selectOn d w e) := by
  unfold Dev.selectOn
  exact (((Dev.Goes.refl _ _).when _ _ fun d => Dev.Goes.within (Dev.select_goes _ _ _)).thn (Dev.discipline_goes _)).thn (Dev.txRefresh_goes _)

theorem Dev.reloadBegin_goes (d : Dev) (r : Reload) : d.Goes [.out, .time, .ash, .img, .spr, .pwr, .pcie, .msixHeld, .engines, .convs, .waves, .scs, .grps, .crys, .pkt, .buf, .macs, .lanes, .inj, .reclaim] (Dev.reloadBegin d r).1 := by
  unfold Dev.reloadBegin
  extract_lets +onlyGivenNames c st
  cases d.servesNow c with
  | some w =>
    have hstep : ∀ (x : Option Reload) n, d.Goes [.out, .time, .ash, .img, .spr, .pwr, .pcie, .msixHeld, .engines, .convs, .waves, .scs, .grps, .crys, .pkt, .buf, .macs, .lanes, .inj, .reclaim] ((d.setReload x).cfgStep c n) := fun x n => ((Dev.Goes.refl _ _).setReload x).thn (Dev.cfgStep_goes _ _ _)
    dsimp only
    generalize (if d.spr.move.isSome = true then none else d.spare : Option ℕ) = spare
    cases spare with
    | some e => exact (((hstep _ _).thn (Dev.moveStart_goes _ _)).raise _ _).pair _
    | none =>
      exact Dev.Goes.ite_fst ((((((((hstep _ _).thn (Dev.cutBursts_goes _ _ _)).thn (Dev.wipe_goes _ _)).thn (Dev.selectOn_goes _ _ _)).thn (Dev.takeSlot_goes _ _)).thn
        (Dev.cordWake_goes _ _ _))).pair _) (Dev.Goes.refl _ _)
  | none =>
    have hd1 : d.Goes [.out, .time, .ash, .img, .spr, .pwr, .pcie, .msixHeld, .engines, .convs, .waves, .scs, .grps, .crys, .pkt, .buf, .macs, .lanes, .inj, .reclaim] (d.setReload (some r)) := (Dev.Goes.refl _ _).setReload _
    exact Dev.Goes.ite_fst (((hd1.thn (Dev.takeSlot_goes _ _)).thn (Dev.cordWake_goes _ _ _)).thn (Dev.cfgStep_goes _ _ _)) (Dev.Goes.ite_fst
      ((hd1.setCordInfo _ _).thn (Dev.cfgStep_goes _ _ _)) ((hd1.thn (Dev.startDrain_goes _ _ _)).thn (Dev.cfgStep_goes _ _ _)))

theorem Dev.reloadNext_goes (fz : Fuses) (r : Reload) (l : List ℕ) (d : Dev) : d.Goes [.free, .out, .blown, .time, .ash, .img, .ember, .spr, .pwr, .pcie, .msixHeld, .engines, .convs, .waves, .scs, .grps, .crys, .pkt, .buf, .macs, .lanes, .inj, .reclaim] (Dev.reloadNext fz r l d) := by
  induction l generalizing d with
  | nil => exact Dev.Goes.within (Dev.reloadEnd_goes _ _ _)
  | cons c t ih =>
    unfold Dev.reloadNext
    extract_lets +onlyGivenNames r1 d1 d2 st
    have hd2 : d.Goes [.free, .out, .blown, .time, .ash, .img, .ember, .spr, .pwr, .pcie, .msixHeld, .engines, .convs, .waves, .scs, .grps, .crys, .pkt, .buf, .macs, .lanes, .inj, .reclaim] d2 := ((((Dev.Goes.refl _ _).setReload _).thn (Dev.cfgStep_goes _ _ _)).when _ _ fun d => (Dev.Goes.refl _ _).set _ _).raise _ _
    have hlive : d.Goes [.free, .out, .blown, .time, .ash, .img, .ember, .spr, .pwr, .pcie, .msixHeld, .engines, .convs, .waves, .scs, .grps, .crys, .pkt, .buf, .macs, .lanes, .inj, .reclaim] (d2.reloadLive fz c).1 := hd2.thn (Dev.reloadLive_goes _ _ _)
    have hrun : d.Goes [.free, .out, .blown, .time, .ash, .img, .ember, .spr, .pwr, .pcie, .msixHeld, .engines, .convs, .waves, .scs, .grps, .crys, .pkt, .buf, .macs, .lanes, .inj, .reclaim] (((d2.each (List.range 4) fun d k => d.fiLost (160 + k)).takeSlot 8 |>.cfgStep 8 1).startRun true).1 :=
      (((hd2.each _ _ fun d k => Dev.Goes.within (Dev.fiLost_goes _ _)).thn (Dev.takeSlot_goes _ _)).thn (Dev.cfgStep_goes _ _ _)).thn (Dev.startRun_goes _ _)
    have hbegin : d.Goes [.free, .out, .blown, .time, .ash, .img, .ember, .spr, .pwr, .pcie, .msixHeld, .engines, .convs, .waves, .scs, .grps, .crys, .pkt, .buf, .macs, .lanes, .inj, .reclaim] (d2.reloadBegin r1).1 := hd2.thn (Dev.reloadBegin_goes _ _)
    refine Dev.Goes.ite ((hd2.thn (Dev.reloadOff_goes _ _)).thn (ih _)) (Dev.Goes.ite (Dev.Goes.ite (hlive.thn (ih _)) (hlive.thn (Dev.reloadEnd_goes _ _ _)))
      (Dev.Goes.ite (Dev.Goes.ite ?_ hrun) (Dev.Goes.ite (hbegin.thn (Dev.reloadEnd_goes _ _ _)) hbegin)))
    exact ((hrun.thn (Dev.showSeq_goes _ _)).raise _ _).thn (ih _)

theorem Dev.reloadDone_goes (fz : Fuses) (d : Dev) (r : Reload) (res : ℕ) : d.Goes [.free, .out, .blown, .time, .ash, .img, .ember, .spr, .pwr, .pcie, .msixHeld, .engines, .convs, .waves, .scs, .grps, .crys, .pkt, .buf, .macs, .lanes, .inj, .reclaim] (Dev.reloadDone fz d r res) := by
  unfold Dev.reloadDone
  extract_lets +onlyGivenNames d1
  have hd1 : d.Goes [.free, .out, .blown, .time, .ash, .img, .ember, .spr, .pwr, .pcie, .msixHeld, .engines, .convs, .waves, .scs, .grps, .crys, .pkt, .buf, .macs, .lanes, .inj, .reclaim] d1 := (Dev.Goes.within (Dev.showSeq_goes _ _)).raise _ _
  exact Dev.Goes.ite (hd1.thn (Dev.reloadEnd_goes _ _ _)) (hd1.thn (Dev.reloadNext_goes _ _ _ _))

theorem Dev.reloadAfter_goes (fz : Fuses) (d : Dev) : d.Goes [.free, .out, .blown, .time, .ash, .img, .ember, .spr, .pwr, .pcie, .msixHeld, .engines, .convs, .waves, .scs, .grps, .crys, .pkt, .buf, .macs, .lanes, .inj, .reclaim] (Dev.reloadAfter fz d) := by
  unfold Dev.reloadAfter
  split
  · exact Dev.Goes.refl _ _
  · split
    · exact Dev.Goes.refl _ _
    · extract_lets +onlyGivenNames kind
      exact Dev.Goes.ite (Dev.Goes.ite (((((Dev.Goes.refl _ _).setReload _).thn (Dev.takeSlot_goes _ _)).thn (Dev.cordWake_goes _ _ _)).thn (Dev.cfgStep_goes _ _ _)) (Dev.Goes.within (Dev.reloadEnd_goes _ _ _))) (Dev.Goes.ite (Dev.Goes.ite (Dev.Goes.within (Dev.reloadDone_goes _ _ _ _)) (Dev.Goes.within (Dev.reloadDone_goes _ _ _ _))) (Dev.Goes.refl _ _))

theorem Dev.recallStep_goes (d : Dev) (w : ℕ) : d.Goes [.engines, .convs] (Dev.recallStep d w) := by
  unfold Dev.recallStep
  split
  · exact (((Dev.Goes.refl _ _).setConv _ _).setInt _ _).setEng _ _
  · exact Dev.Goes.refl _ _

theorem Dev.takeKind_goes (d : Dev) (e : ℕ) (m : ℕ) : d.Goes [] (Dev.takeKind d e m) := by
  unfold Dev.takeKind
  exact ((Dev.Goes.refl _ _).each _ _ fun d s => (Dev.Goes.refl _ _).set _ _).setFlag _ _

theorem Dev.clearLocks_goes (d : Dev) (e : ℕ) : d.Goes [.time] (Dev.clearLocks d e) := by
  unfold Dev.clearLocks
  exact (((Dev.Goes.refl _ _).each _ _ fun d s => ((Dev.Goes.refl _ _).set _ _).set _ _).set _ _).thn (Dev.discipline_goes _)

theorem Dev.disconnect_goes (d : Dev) (e : ℕ) : d.Goes [.time, .engines, .convs] (Dev.disconnect d e) := by
  unfold Dev.disconnect
  extract_lets +onlyGivenNames d0
  have hd0 : d.Goes [.time, .engines, .convs] d0 := (Dev.Goes.refl _ _).each _ _ fun d w => (Dev.Goes.refl _ _).when _ _ fun d => Dev.Goes.within (Dev.recallStep_goes _ _)
  exact ((((hd0.thn (Dev.clearLocks_goes _ _)).set _ _).thn (Dev.takeKind_goes _ _ _)).set _ _).setEng _ _

theorem Dev.overlapOff_goes (d : Dev) (m : Move) : d.Goes [.time, .engines, .convs] (Dev.overlapOff d m) := by
  unfold Dev.overlapOff
  exact ((Dev.Goes.refl _ _).when _ _ fun d => ((Dev.Goes.refl _ _).set _ _).set _ _).when _ _ fun d => Dev.Goes.within (Dev.disconnect_goes _ _)

theorem Dev.season_goes (d : Dev) (e : ℕ) : d.Goes [.spr] (Dev.season d e) := by
  unfold Dev.season
  exact (((Dev.Goes.within (Dev.setRole_goes _ _ _)).set _ _).setSpr1 _ _).thn (Dev.sprShow_goes _)

theorem Dev.cordOff_goes (d : Dev) (c : ℕ) : d.Goes [.out, .time, .ash, .spr, .pcie, .msixHeld, .engines, .convs, .waves, .scs, .grps, .crys, .pkt, .buf, .macs, .lanes, .inj, .reclaim] (Dev.cordOff d c) := by
  unfold Dev.cordOff
  exact ((Dev.Goes.within (Dev.wipe_goes _ _)).setSt _ _).set _ _

theorem Dev.moveOrWait_goes (d : Dev) (m : Move) : d.Goes [.out, .ash, .spr, .pwr, .msixHeld] (Dev.moveOrWait d m) := by
  unfold Dev.moveOrWait
  exact Dev.Goes.ite ((Dev.Goes.refl _ _).setSpr _) ((Dev.Goes.within (Dev.moveStart_goes _ _)).raise _ _)

theorem Dev.gapMark_goes (d : Dev) (w : ℕ) (g : ℕ) : d.Goes [.grps, .crys] (Dev.gapMark d w g) := by
  unfold Dev.gapMark
  split
  · exact (Dev.Goes.refl _ _).setGrp _ _ _
  · exact (Dev.Goes.refl _ _).setCry _ _ _

theorem Dev.gapStart_goes (d : Dev) (w : ℕ) (lost : ℕ) : d.Goes [.spr, .engines, .convs, .waves, .scs, .grps, .crys] (Dev.gapStart d w lost) := by
  unfold Dev.gapStart
  extract_lets +onlyGivenNames d1 d2 d3
  have hd1 : d.Goes [.spr, .engines, .convs, .waves, .scs, .grps, .crys] d1 := (Dev.Goes.within (Dev.recallStep_goes _ _)).setWave _ _
  have hd2 : d.Goes [.spr, .engines, .convs, .waves, .scs, .grps, .crys] d2 := hd1.each _ _ fun d k => (Dev.Goes.refl _ _).when _ _ fun d => (Dev.Goes.refl _ _).setSc _ _ _
  have hd3 : d.Goes [.spr, .engines, .convs, .waves, .scs, .grps, .crys] d3 := hd2.each _ _ fun d g => Dev.Goes.within (Dev.gapMark_goes _ _ _)
  exact ((hd3.count _ _).setSpr _).thn (Dev.txRefresh_goes _)

theorem Dev.give_goes (d : Dev) (w : ℕ) (e : Option ℕ) : d.Goes [] (Dev.give d w e) := by
  unfold Dev.give
  exact (Dev.Goes.refl _ _).set _ _

theorem Dev.noEngine_goes (d : Dev) (w : ℕ) : d.Goes [.out, .time, .ash, .spr, .msixHeld, .engines, .convs, .waves, .scs, .grps, .crys] (Dev.noEngine d w) := by
  unfold Dev.noEngine
  extract_lets +onlyGivenNames d0 d1
  have hd0 : d.Goes [.out, .time, .ash, .spr, .msixHeld, .engines, .convs, .waves, .scs, .grps, .crys] d0 := Dev.Goes.ite ((Dev.Goes.refl _ _).setWave _ _) (Dev.Goes.within (Dev.gapStart_goes _ _ _))
  have hd1 : d.Goes [.out, .time, .ash, .spr, .msixHeld, .engines, .convs, .waves, .scs, .grps, .crys] d1 := ((hd0.thn (Dev.give_goes _ _ _)).thn (Dev.selectOn_goes _ _ _)).setSpr _
  exact (hd1.thn (Dev.sprShow_goes _)).raise _ _

theorem Dev.moveEnd_goes (d : Dev) : d.Goes [.out, .time, .ash, .spr, .pwr, .msixHeld, .engines, .convs, .waves, .scs, .grps, .crys] (Dev.moveEnd d) := by
  unfold Dev.moveEnd
  extract_lets +onlyGivenNames free d1
  have hd1 : d.Goes [.out, .time, .ash, .spr, .pwr, .msixHeld, .engines, .convs, .waves, .scs, .grps, .crys] d1 := by
    refine Dev.Goes.setSpr ?_ _
    · split
      · exact (Dev.Goes.refl _ _).when _ _ fun d => (Dev.Goes.refl _ _).set _ _
      · exact Dev.Goes.refl _ _
  split
  · exact hd1.thn (Dev.sprShow_goes _)
  · extract_lets +onlyGivenNames d2
    have hd2 : d.Goes [.out, .time, .ash, .spr, .pwr, .msixHeld, .engines, .convs, .waves, .scs, .grps, .crys] d2 := hd1.setSpr _
    split
    · exact hd2.thn (Dev.moveOrWait_goes _ _)
    · exact Dev.Goes.ite ((hd2.when _ _ fun d => (Dev.Goes.refl _ _).set _ _).thn (Dev.noEngine_goes _ _)) ((hd2.when _ _ fun d => (Dev.Goes.refl _ _).set _ _).thn (Dev.sprShow_goes _))

theorem Dev.abandonMove_goes (d : Dev) (m : Move) (faulted : Bool) : d.Goes [.out, .time, .ash, .spr, .pwr, .pcie, .msixHeld, .engines, .convs, .waves, .scs, .grps, .crys, .pkt, .buf, .macs, .lanes, .inj, .reclaim] (Dev.abandonMove d m faulted) := by
  unfold Dev.abandonMove
  extract_lets +onlyGivenNames d1 d2
  have hd1 : d.Goes [.out, .time, .ash, .spr, .pwr, .pcie, .msixHeld, .engines, .convs, .waves, .scs, .grps, .crys, .pkt, .buf, .macs, .lanes, .inj, .reclaim] d1 := (Dev.Goes.within (Dev.overlapOff_goes _ _)).setSpr1 _ _
  have hd2 : d.Goes [.out, .time, .ash, .spr, .pwr, .pcie, .msixHeld, .engines, .convs, .waves, .scs, .grps, .crys, .pkt, .buf, .macs, .lanes, .inj, .reclaim] d2 := Dev.Goes.ite hd1 (Dev.Goes.ite (hd1.thn (Dev.season_goes _ _)) ((hd1.thn (Dev.cordOff_goes _ _)).thn (Dev.setRole_goes _ _ _)))
  exact (hd2.raise _ _).thn (Dev.moveEnd_goes _)

theorem Dev.abandonIf_goes (fz : Fuses) (d : Dev) (w : ℕ) (p : Dev → Move → Bool) : d.Goes [.free, .out, .blown, .time, .ash, .img, .ember, .spr, .pwr, .pcie, .msixHeld, .engines, .convs, .waves, .scs, .grps, .crys, .pkt, .buf, .macs, .lanes, .inj, .reclaim] (Dev.abandonIf fz d w p) := by
  unfold Dev.abandonIf
  split
  · exact (Dev.Goes.refl _ _).when _ _ fun d => ((Dev.Goes.within (Dev.abandonMove_goes _ _ _)).thn (Dev.reloadAfter_goes _ _)).thn (Dev.powerGo_goes _)
  · exact Dev.Goes.refl _ _

theorem Dev.accessError_goes (d : Dev) (code : ℕ) (a : ℕ) (wr : Bool) : d.Goes [.out, .aerrAdr, .ash, .msixHeld] (Dev.accessError d code a wr) := by
  unfold Dev.accessError
  extract_lets +onlyGivenNames d1
  have hd1 : d.Goes [.out, .aerrAdr, .ash, .msixHeld] d1 := (((((Dev.Goes.refl _ _).set _ _).set _ _).setFlag _ _).set _ _).count _ _
  exact (hd1.with_aerrAdr _).raiseWords _ _ _

theorem Dev.accessFailed_goes (d : Dev) (code : ℕ) (c : ℕ) : d.Goes [.out, .ash, .msixHeld] (Dev.accessFailed d code c) := by
  unfold Dev.accessFailed
  exact (Dev.Goes.refl _ _).when _ _ fun d => (Dev.Goes.refl _ _).raise _ _

theorem Dev.powerRequest_goes (d0 : Dev) (t : ℕ) : d0.Goes [.free, .out, .ash, .ember, .pwr, .pcie, .msixHeld, .engines, .waves, .pkt, .buf, .macs, .lanes] (Dev.powerRequest d0 t) := by
  unfold Dev.powerRequest
  extract_lets +onlyGivenNames d
  have hd : d0.Goes [.free, .out, .ash, .ember, .pwr, .pcie, .msixHeld, .engines, .waves, .pkt, .buf, .macs, .lanes] d := Dev.Goes.within (Dev.ashNote_goes _ _)
  exact Dev.Goes.ite hd (Dev.Goes.ite ((hd.thn (Dev.startRequest_goes _ _)).thn (Dev.runPending_goes _)) (Dev.Goes.ite (hd.set _ _) ((((hd.set _ _).count _ _).set _ _).raise _ _)))

theorem Dev.autoFull_goes (d : Dev) : d.Goes [.free, .out, .ash, .ember, .pwr, .pcie, .msixHeld, .engines, .waves, .pkt, .buf, .macs, .lanes] (Dev.autoFull d) := by
  unfold Dev.autoFull
  exact ((Dev.Goes.refl _ _).raise _ _).thn (Dev.powerRequest_goes _ _)

theorem Dev.accessWake_goes (d : Dev) (c : ℕ) : d.Goes [.free, .out, .ash, .ember, .pwr, .pcie, .msixHeld, .engines, .waves, .pkt, .buf, .macs, .lanes] (Dev.accessWake d c) := by
  unfold Dev.accessWake
  exact (Dev.Goes.within (Dev.cordWake_goes _ _ _)).when _ _ fun d => Dev.Goes.within (Dev.autoFull_goes _)

theorem Dev.actTimeout_goes (d : Dev) (w : ℕ) : d.Goes [.out, .ash, .msixHeld] (Dev.actTimeout d w) := by
  unfold Dev.actTimeout
  exact Dev.Goes.within (Dev.sfEvent_goes _ _ _ _)

theorem Dev.takeImage_goes (d : Dev) (slot : ℕ) (i : Image) : d.Goes [.img] (Dev.takeImage d slot i) := by
  unfold Dev.takeImage
  exact ((Dev.Goes.refl _ _).set _ _).setImg _ fun h => h

theorem Dev.takeEngmap_goes (d : Dev) : d.Goes [.img, .spr] (Dev.takeEngmap d) := by
  unfold Dev.takeEngmap
  split
  · exact Dev.Goes.refl _ _
  · extract_lets +onlyGivenNames d1
    have hd1 : d.Goes [.img, .spr] d1 := (((Dev.Goes.refl _ _).setImg _ fun h => h).thn (Dev.give_goes _ _ _)).thn (Dev.give_goes _ _ _)
    exact ((((hd1.thn (Dev.setRole_goes _ _ _)).thn (Dev.setRole_goes _ _ _)).thn (Dev.setRole_goes _ _ _)).setSpr1 _ _).setSpr1 _ _

theorem Dev.applySec_goes (fz : Fuses) (d : Dev) (c : ℕ) : d.Goes [.free, .out, .blown, .time, .ash, .pwr, .pcie, .msixHeld, .engines, .convs, .waves, .scs, .grps, .crys, .pkt, .buf, .macs, .lanes, .inj] (Dev.applySec fz d c).1 :=
  applyAll_goes (fun _ _ => Dev.applyRec_goes _ _ _ _) _ _

theorem Dev.biasAuto_goes (d : Dev) (w : ℕ) : d.Goes [.convs, .waves] (Dev.biasAuto d w) := by
  unfold Dev.biasAuto
  exact (Dev.Goes.refl _ _).when _ _ fun d => ((Dev.Goes.refl _ _).setConv _ _).setWave _ _

theorem Dev.connectDecode_goes (d : Dev) (e : ℕ) (m : ℕ) : d.Goes [.engines] (Dev.connectDecode d e m) := by
  unfold Dev.connectDecode
  exact (((Dev.Goes.refl _ _).set _ _).thn (Dev.takeKind_goes _ _ _)).setEng _ _

theorem Dev.dropPhase_goes (d : Dev) (e : ℕ) (m : ℕ) : d.Goes [.out, .ash, .msixHeld] (Dev.dropPhase d e m) := by
  unfold Dev.dropPhase
  exact (Dev.Goes.refl _ _).each _ _ fun d s => Dev.Goes.ite (((Dev.Goes.refl _ _).set _ _).when _ _ fun d => Dev.Goes.within (Dev.rxEvent_goes _ _ _ _)) (Dev.Goes.refl _ _)

theorem Dev.startAcq_goes (d : Dev) (e : ℕ) (step : ℕ) : d.Goes [.out, .ash, .msixHeld, .engines] (Dev.startAcq d e step) := by
  unfold Dev.startAcq
  extract_lets +onlyGivenNames d0 lim win range
  have hd0 : d.Goes [.out, .ash, .msixHeld, .engines] d0 := Dev.Goes.within (Dev.dropPhase_goes _ _ _)
  exact (((hd0.set _ _).count _ _).when _ _ fun d => (Dev.Goes.refl _ _).set _ _).setEng _ _

theorem Dev.connect_goes (d : Dev) (w : ℕ) (e : ℕ) : d.Goes [.out, .ash, .msixHeld, .engines, .waves] (Dev.connect d w e) := by
  unfold Dev.connect
  extract_lets +onlyGivenNames d1
  have hd1 : d.Goes [.out, .ash, .msixHeld, .engines, .waves] d1 := Dev.Goes.within (Dev.connectDecode_goes _ _ _)
  exact (Dev.Goes.ite (hd1.set _ _) (hd1.thn (Dev.startAcq_goes _ _ _))).thn (Dev.txRefresh_goes _)

theorem Dev.convUp_goes (d0 : Dev) (w : ℕ) : d0.Goes [.out, .ash, .msixHeld, .engines, .convs, .waves] (Dev.convUp d0 w) := by
  unfold Dev.convUp
  extract_lets +onlyGivenNames d
  have hd : d0.Goes [.out, .ash, .msixHeld, .engines, .convs, .waves] d := Dev.Goes.within (Dev.biasAuto_goes _ _)
  split
  · exact (hd.thn (Dev.select_goes _ _ _)).thn (Dev.txRefresh_goes _)
  · exact (hd.thn (Dev.select_goes _ _ _)).when _ _ fun d => Dev.Goes.within (Dev.connect_goes _ _ _)

theorem Dev.banked_goes (d : Dev) (w : ℕ) : d.Goes [] (Dev.banked d w) := by
  unfold Dev.banked
  extract_lets +onlyGivenNames b
  exact (Dev.Goes.refl _ _).when _ _ fun d => ((Dev.Goes.refl _ _).setReg _ _).setReg _ _

theorem Dev.codesFrom_goes (d : Dev) (w : ℕ) (e : ℕ) : d.Goes [.waves] (Dev.codesFrom d w e) := by
  unfold Dev.codesFrom
  extract_lets +onlyGivenNames put
  exact (Dev.Goes.refl _ _).setWave _ _

theorem Dev.engineCodes_goes (d : Dev) (w : ℕ) : d.Goes [.waves] (Dev.engineCodes d w) := by
  unfold Dev.engineCodes
  split
  · exact Dev.Goes.refl _ _
  · exact (Dev.Goes.refl _ _).when _ _ fun d => Dev.Goes.within (Dev.codesFrom_goes _ _ _)

theorem Dev.dropHeld_goes (d : Dev) (w : ℕ) (g : ℕ) : d.Goes [.grps, .crys] (Dev.dropHeld d w g) := by
  unfold Dev.dropHeld
  extract_lets +onlyGivenNames h
  exact ((Dev.Goes.within (Dev.missingCells_goes _ _ _ _)).when _ _ fun d => Dev.Goes.within (Dev.cryCut_goes _ _ _)).setGrp _ _ _

theorem Dev.groupWait_goes (d : Dev) (w : ℕ) (g : ℕ) : d.Goes [.grps, .crys] (Dev.groupWait d w g) := by
  unfold Dev.groupWait
  exact Dev.Goes.ite ((Dev.Goes.refl _ _).set _ _) ((Dev.Goes.within (Dev.dropHeld_goes _ _ _)).set _ _)

theorem Dev.beaconGroup_goes (d : Dev) (w : ℕ) (k : ℕ) : d.Goes [.grps, .crys] (Dev.beaconGroup d w k) := by
  unfold Dev.beaconGroup
  exact Dev.Goes.ite (Dev.Goes.refl _ _) (((((Dev.Goes.refl _ _).set _ _).set _ _).thn (Dev.groupWait_goes _ _ _)).setGrp _ _ _)

theorem Dev.alnStat_goes (d : Dev) (w : ℕ) : d.Goes [.waves, .grps, .crys] (Dev.alnStat d w) := by
  unfold Dev.alnStat
  extract_lets +onlyGivenNames dec all d1
  have hd1 : d.Goes [.waves, .grps, .crys] d1 := (Dev.Goes.refl _ _).setFlag _ _
  split
  · exact (((hd1.set _ _).set _ _).setWave _ _).thn (Dev.beaconGroup_goes _ _ _)
  · exact hd1.set _ _

theorem Dev.giveAlign_goes (d : Dev) (w : ℕ) (sc : ℕ) (a : Option AlnGive) : d.Goes [.engines] (Dev.giveAlign d w sc a) := by
  unfold Dev.giveAlign
  exact (Dev.Goes.refl _ _).each _ _ fun d e => (Dev.Goes.refl _ _).setEng _ _

theorem Dev.toSearch_goes (d : Dev) (w : ℕ) (sc : ℕ) : d.Goes [.engines, .waves, .scs, .grps, .crys] (Dev.toSearch d w sc) := by
  unfold Dev.toSearch
  extract_lets +onlyGivenNames d1
  have hd1 : d.Goes [.engines, .waves, .scs, .grps, .crys] d1 := ((((Dev.Goes.refl _ _).set _ _).set _ _).setSc _ _ _).thn (Dev.giveAlign_goes _ _ _ _)
  exact (hd1.each _ _ fun d g => Dev.Goes.within (Dev.groupWait_goes _ _ _)).thn (Dev.alnStat_goes _ _)

theorem Dev.framerDecode_goes (d : Dev) (w : ℕ) (m : ℕ) : d.Goes [.engines, .waves, .scs, .grps, .crys] (Dev.framerDecode d w m) := by
  unfold Dev.framerDecode
  refine ((Dev.Goes.refl _ _).each _ _ fun d k => ?_).thn (Dev.alnStat_goes _ _)
  · extract_lets +onlyGivenNames st
    exact Dev.Goes.ite ((Dev.Goes.within (Dev.toSearch_goes _ _ _)).setSc _ _ _) (Dev.Goes.ite ((Dev.Goes.within (Dev.toSearch_goes _ _ _)).set _ _) (Dev.Goes.refl _ _))

theorem Dev.framerUp_goes (d : Dev) (w : ℕ) (was : Option Bool) : d.Goes [.out, .time, .ash, .msixHeld, .engines, .convs, .waves, .scs, .grps, .crys] (Dev.framerUp d w was) := by
  unfold Dev.framerUp
  extract_lets +onlyGivenNames leaf m d1 now d2 d3
  have hd1 : d.Goes [.out, .time, .ash, .msixHeld, .engines, .convs, .waves, .scs, .grps, .crys] d1 := ((Dev.Goes.within (Dev.engineCodes_goes _ _)).thn (Dev.banked_goes _ _)).when _ _ fun d => ((Dev.Goes.refl _ _).set _ _).thn (Dev.discipline_goes _)
  have hd2 : d.Goes [.out, .time, .ash, .msixHeld, .engines, .convs, .waves, .scs, .grps, .crys] d2 := ((hd1.setWave _ _).thn (Dev.askDecode_goes _ _ _)).thn (Dev.framerDecode_goes _ _ _)
  have hd3 : d.Goes [.out, .time, .ash, .msixHeld, .engines, .convs, .waves, .scs, .grps, .crys] d3 := (hd2.when _ _ fun d => (Dev.Goes.refl _ _).setWave _ _).thn (Dev.biasAuto_goes _ _)
  refine Dev.Goes.thn ?_ (Dev.txRefresh_goes _)
  · split
    · exact hd3.when _ _ fun d => Dev.Goes.within (Dev.startAcq_goes _ _ _)
    · exact hd3

theorem Dev.portsUp_goes (d : Dev) (c : ℕ) : d.Goes [.out, .ash, .pwr, .msixHeld, .macs, .lanes] (Dev.portsUp d c) := by
  unfold Dev.portsUp
  extract_lets +onlyGivenNames lo d0 d1
  have hd0 : d.Goes [.out, .ash, .pwr, .msixHeld, .macs, .lanes] d0 := (Dev.Goes.refl _ _).each _ _ fun d p => (Dev.Goes.refl _ _).setMac _ _
  have hd1 : d.Goes [.out, .ash, .pwr, .msixHeld, .macs, .lanes] d1 := hd0.each _ _ fun d p => Dev.Goes.ite (Dev.Goes.refl _ _) (Dev.Goes.ite (Dev.Goes.ite (Dev.Goes.within (Dev.unpark_goes _ _)) (Dev.Goes.ite (Dev.Goes.refl _ _) (((Dev.Goes.refl _ _).set _ _).raise _ _))) ((Dev.Goes.refl _ _).each _ _ fun d l => Dev.Goes.within (Dev.laneStart_goes _ _)))
  exact hd1.setPwr _

theorem Dev.cordUp_goes (d : Dev) (c : ℕ) (was : Option Bool) : d.Goes [.out, .time, .ash, .pwr, .msixHeld, .engines, .convs, .waves, .scs, .grps, .crys, .macs, .lanes] (Dev.cordUp d c was) := by
  unfold Dev.cordUp
  extract_lets +onlyGivenNames d1
  have hd1 : d.Goes [.out, .time, .ash, .pwr, .msixHeld, .engines, .convs, .waves, .scs, .grps, .crys, .macs, .lanes] d1 := ((Dev.Goes.refl _ _).setSt _ _).thn (Dev.showSeq_goes _ _)
  exact Dev.Goes.ite (hd1.thn (Dev.convUp_goes _ _)) (Dev.Goes.ite (hd1.thn (Dev.framerUp_goes _ _ _)) (Dev.Goes.ite (hd1.thn (Dev.portsUp_goes _ _)) hd1))

theorem Dev.cordReady_goes (fz : Fuses) (d : Dev) (c : ℕ) : d.Goes [.free, .out, .blown, .time, .ash, .spr, .pwr, .pcie, .msixHeld, .engines, .convs, .waves, .scs, .grps, .crys, .pkt, .buf, .macs, .lanes, .inj, .reclaim] (Dev.cordReady fz d c).1 := by
  unfold Dev.cordReady
  extract_lets +onlyGivenNames was buf d1 x
  have hbuf : d.Goes [.free, .out, .blown, .time, .ash, .spr, .pwr, .pcie, .msixHeld, .engines, .convs, .waves, .scs, .grps, .crys, .pkt, .buf, .macs, .lanes, .inj, .reclaim] buf := Dev.Goes.within (Dev.dropCord_goes _ _)
  have hd1 : d.Goes [.free, .out, .blown, .time, .ash, .spr, .pwr, .pcie, .msixHeld, .engines, .convs, .waves, .scs, .grps, .crys, .pkt, .buf, .macs, .lanes, .inj, .reclaim] d1 := by
    refine Dev.Goes.ite ?_ (Dev.Goes.ite ?_ (Dev.Goes.ite ?_ (Dev.Goes.refl _ _)))
    · exact Dev.Goes.within (Dev.wipeEngine_goes _ _)
    · exact (Dev.Goes.refl _ _).setWave _ _
    · exact hbuf.with_buf_reclaim {} []
  have hx : d.Goes [.free, .out, .blown, .time, .ash, .spr, .pwr, .pcie, .msixHeld, .engines, .convs, .waves, .scs, .grps, .crys, .pkt, .buf, .macs, .lanes, .inj, .reclaim] x.1 := hd1.thn (Dev.applySec_goes _ _ _)
  exact Dev.Goes.ite_fst ((hx.thn (Dev.cordUp_goes _ _ _)).pair _) (hx.pair _)

theorem Dev.applyFailed_goes (d : Dev) (c : ℕ) : d.Goes [.out, .ash, .msixHeld] (Dev.applyFailed d c) := by
  unfold Dev.applyFailed
  exact (((Dev.Goes.within (Dev.enablesOff_goes _ _)).setSt _ _).set _ _).raise _ _

theorem Dev.bootApply_goes (fz : Fuses) (d : Dev) : d.Goes [.free, .out, .blown, .time, .ash, .img, .spr, .pwr, .pcie, .msixHeld, .engines, .convs, .waves, .scs, .grps, .crys, .pkt, .buf, .macs, .lanes, .inj, .reclaim] (Dev.bootApply fz d) := by
  unfold Dev.bootApply
  extract_lets +onlyGivenNames h d1 d2 p
  have hh : d.Goes [.free, .out, .blown, .time, .ash, .img, .spr, .pwr, .pcie, .msixHeld, .engines, .convs, .waves, .scs, .grps, .crys, .pkt, .buf, .macs, .lanes, .inj, .reclaim] h.1 := ((Dev.Goes.within (Dev.takeEngmap_goes _)).setImg _ fun h => h).thn (Dev.applySecLive_goes _ _ _)
  have hd1 : d.Goes [.free, .out, .blown, .time, .ash, .img, .spr, .pwr, .pcie, .msixHeld, .engines, .convs, .waves, .scs, .grps, .crys, .pkt, .buf, .macs, .lanes, .inj, .reclaim] d1 := Dev.Goes.ite (hh.thn (Dev.showSeq_goes _ _)) ((hh.set _ _).raise _ _)
  have hd2 : d.Goes [.free, .out, .blown, .time, .ash, .img, .spr, .pwr, .pcie, .msixHeld, .engines, .convs, .waves, .scs, .grps, .crys, .pkt, .buf, .macs, .lanes, .inj, .reclaim] d2 := hd1.each _ _ fun d c => (Dev.Goes.refl _ _).when _ _ fun d => Dev.Goes.within (Dev.cordWake_goes _ _ _)
  have hp : d.Goes [.free, .out, .blown, .time, .ash, .img, .spr, .pwr, .pcie, .msixHeld, .engines, .convs, .waves, .scs, .grps, .crys, .pkt, .buf, .macs, .lanes, .inj, .reclaim] p.1 := hd2.thn (Dev.cordReady_goes _ _ _)
  exact Dev.Goes.ite hp (hp.thn (Dev.applyFailed_goes _ _))

theorem Dev.reloadStart_goes (fz : Fuses) (d : Dev) (cords : List ℕ) (activate : Bool) (force : Bool) : d.Goes [.free, .out, .blown, .time, .ash, .img, .ember, .spr, .pwr, .pcie, .msixHeld, .engines, .convs, .waves, .scs, .grps, .crys, .pkt, .buf, .macs, .lanes, .inj, .reclaim] (Dev.reloadStart fz d cords activate force) := by
  unfold Dev.reloadStart
  extract_lets +onlyGivenNames d1
  have hd1 : d.Goes [.free, .out, .blown, .time, .ash, .img, .ember, .spr, .pwr, .pcie, .msixHeld, .engines, .convs, .waves, .scs, .grps, .crys, .pkt, .buf, .macs, .lanes, .inj, .reclaim] d1 := ((Dev.Goes.refl _ _).set _ _).set _ _
  exact hd1.thn (Dev.reloadNext_goes _ _ _ _)

theorem Dev.activateGo_goes (fz : Fuses) (d : Dev) (i : Image) (force : Bool) : d.Goes [.free, .out, .blown, .time, .ash, .img, .ember, .spr, .pwr, .pcie, .msixHeld, .engines, .convs, .waves, .scs, .grps, .crys, .pkt, .buf, .macs, .lanes, .inj, .reclaim] (Dev.activateGo fz d i force) := by
  unfold Dev.activateGo
  extract_lets +onlyGivenNames cords d1
  have hd1 : d.Goes [.free, .out, .blown, .time, .ash, .img, .ember, .spr, .pwr, .pcie, .msixHeld, .engines, .convs, .waves, .scs, .grps, .crys, .pkt, .buf, .macs, .lanes, .inj, .reclaim] d1 := Dev.Goes.within (Dev.takeImage_goes _ _ _)
  exact Dev.Goes.ite (((hd1.set _ _).set _ _).thn (Dev.bootApply_goes _ _)) (hd1.thn (Dev.reloadStart_goes _ _ _ _ _))

theorem Dev.advance_goes (d : Dev) (e : ℕ) : d.Goes [] (Dev.advance d e) := by
  unfold Dev.advance
  extract_lets +onlyGivenNames tl eq ph a n
  exact (Dev.Goes.refl _ _).set _ _

theorem Dev.advanceV_goes (d : Dev) (k : ℕ) (q : ℕ) (dist : ℤ) : d.Goes [] (Dev.advanceV d k q dist) := by
  unfold Dev.advanceV
  refine Dev.Goes.ite ?_ (Dev.Goes.refl _ _)
  · extract_lets +onlyGivenNames v
    exact ((Dev.Goes.refl _ _).when _ _ fun d => (Dev.Goes.refl _ _).set _ _).set _ _

theorem Dev.advertise_goes (d : Dev) (l : ℕ) : d.Goes [.out] (Dev.advertise d l) := by
  unfold Dev.advertise
  exact (Dev.Goes.refl _ _).emit _

theorem Dev.aerNote_goes (d : Dev) (why : DmaEnd) : d.Goes [.pcie] (Dev.aerNote d why) := by
  unfold Dev.aerNote
  extract_lets +onlyGivenNames bit
  split
  · exact Dev.Goes.refl _ _
  · exact (Dev.Goes.refl _ _).setPcie _
  · exact (Dev.Goes.refl _ _).setPcie _

theorem Dev.wantAbort_goes (d : Dev) (k : ℕ) : d.Goes [.pwr] (Dev.wantAbort d k) := by
  unfold Dev.wantAbort
  exact (Dev.Goes.refl _ _).setTrans _

theorem Dev.takeoverAborts_goes (d : Dev) : d.Goes [.pwr] (Dev.takeoverAborts d) := by
  unfold Dev.takeoverAborts
  split
  · exact Dev.Goes.ite (Dev.Goes.within (Dev.wantAbort_goes _ _)) (Dev.Goes.refl _ _)
  · exact Dev.Goes.refl _ _

theorem Dev.afterFault_goes (fz : Fuses) (d : Dev) : d.Goes [.free, .out, .blown, .time, .ash, .img, .ember, .spr, .pwr, .pcie, .msixHeld, .engines, .convs, .waves, .scs, .grps, .crys, .pkt, .buf, .macs, .lanes, .inj, .reclaim] (Dev.afterFault fz d) := by
  unfold Dev.afterFault
  exact ((Dev.Goes.within (Dev.reloadAfter_goes _ _)).thn (Dev.takeoverAborts_goes _)).thn (Dev.powerGo_goes _)

theorem Dev.alnLoss_goes (d : Dev) (w : ℕ) (sc : ℕ) : d.Goes [.out, .ash, .msixHeld, .engines, .waves, .scs, .grps, .crys] (Dev.alnLoss d w sc) := by
  unfold Dev.alnLoss
  exact (((Dev.Goes.within (Dev.toSearch_goes _ _ _)).set _ _).count _ _).thn (Dev.lfEvent_goes _ _ _ _)

theorem Dev.alignedTest_goes (d : Dev) (w : ℕ) (sc : ℕ) (pos : ℕ) (good : Bool) (beacon : Bool) : d.Goes [.out, .ash, .msixHeld, .engines, .waves, .scs, .grps, .crys] (Dev.alignedTest d w sc pos good beacon).1 := by
  unfold Dev.alignedTest
  extract_lets +onlyGivenNames own err run cmp d1 d2
  have hd1 : d.Goes [.out, .ash, .msixHeld, .engines, .waves, .scs, .grps, .crys] d1 := (Dev.Goes.refl _ _).setSc _ _ _
  have hd2 : d.Goes [.out, .ash, .msixHeld, .engines, .waves, .scs, .grps, .crys] d2 := hd1.when _ _ fun d => Dev.Goes.within (Dev.lfEvent_goes _ _ _ _)
  exact Dev.Goes.ite_fst ((hd2.thn (Dev.alnLoss_goes _ _ _)).pair _) (hd2.pair _)

theorem Dev.takeBuf_goes (d : Dev) (p : ℕ) (c : ℕ) (agent : ℕ) : d.Goes [.free, .buf] (Dev.takeBuf d p c agent).1 := by
  unfold Dev.takeBuf
  extract_lets +onlyGivenNames size i
  exact (((Dev.Goes.refl _ _).with_free _).setOwner _ _).pair _

theorem Dev.allocBufs_goes {d e : Dev} {p c n agent : ℕ} {bs : List ℕ} (h : d.allocBufs p c n agent = some (e, bs)) : d.Goes [.free, .out, .ash, .msixHeld, .buf] e := by
  unfold Dev.allocBufs at h
  dsimp only at h
  split at h
  · exact absurd h (by simp)
  · split at h
    · exact absurd h (by simp)
    · rw [← (Prod.mk.inj (Option.some.inj h)).1]
      refine (Dev.Goes.foldl_fst _ (fun a _ => ?_) _ (((Dev.Goes.refl _ _).set _ _).set _ _)).thn (Dev.poolLow_goes _ _)
      exact Dev.Goes.within (Dev.takeBuf_goes _ _ _ _)

theorem Dev.consume_goes (d : Dev) (w : ℕ) (g : ℕ) : d.Goes [.out, .ash, .msixHeld, .crys] (Dev.consume d w g).1 := by
  unfold Dev.consume
  extract_lets +onlyGivenNames k sl n warn d1 d2 d3
  have hd1 : d.Goes [.out, .ash, .msixHeld, .crys] d1 := ((Dev.Goes.refl _ _).setCry _ _ _).thn (Dev.cryShow_goes _ _ _)
  have hd2 : d.Goes [.out, .ash, .msixHeld, .crys] d2 := hd1.when _ _ fun d => ((Dev.Goes.refl _ _).set _ _).thn (Dev.cryEvent_goes _ _ _ _)
  have hd3 : d.Goes [.out, .ash, .msixHeld, .crys] d3 := hd2.when _ _ fun d => ((Dev.Goes.refl _ _).set _ _).thn (Dev.cryEvent_goes _ _ _ _)
  exact hd3.pair _

theorem Dev.freeCells_goes (d : Dev) (w : ℕ) (l : List TxCell) : d.Goes [.out, .ash, .msixHeld, .buf] (Dev.freeCells d w l) := by
  unfold Dev.freeCells
  exact Dev.Goes.within (Dev.freeBufs_goes _ _ _)

theorem Dev.sealCells_goes (d : Dev) (w : ℕ) (g : ℕ) (urg : Bool) (cells : List TxCell) (m : ℕ) : d.Goes [.out, .ash, .msixHeld, .crys, .buf] (Dev.sealCells d w g urg cells m).1 := by
  unfold Dev.sealCells
  extract_lets +onlyGivenNames k a b
  have ha : d.Goes [.out, .ash, .msixHeld, .crys, .buf] a.1 := Dev.Goes.within (Dev.consume_goes _ _ _)
  have hb : d.Goes [.out, .ash, .msixHeld, .crys, .buf] b.1 := ha.thn (Dev.mismatch_goes _ _ _ _)
  exact Dev.Goes.ite_fst (hb.pair _) ((((hb.set _ _).thn (Dev.cryEvent_goes _ _ _ _)).thn (Dev.freeCells_goes _ _ _)).pair _)

theorem Dev.burstCells_goes (d : Dev) (w g total : ℕ) (sealed : Bool) (cells : List TxCell) (mism : List ℕ) :
    d.Goes [.out, .ash, .msixHeld, .crys, .buf] (Dev.burstCells d w g total sealed cells mism).1 := by
  unfold Dev.burstCells
  refine Dev.Goes.ite_fst (Dev.Goes.refl _ _) (Dev.Goes.foldl_fst _ (fun a ch => Dev.Goes.ite_fst (Dev.Goes.refl _ _) ?_) _ (Dev.Goes.refl _ _))
  have hs : a.1.Goes [.out, .ash, .msixHeld, .crys, .buf] (a.1.sealCells w g false ch.1 (mism.getD ch.2 0)).1 := Dev.Goes.within (Dev.sealCells_goes _ _ _ _ _ _)
  split
  · next d1 q h => exact hs.of_eq_fst h
  · next d1 h => exact hs.of_eq_fst h

theorem Dev.burstInject_goes (d : Dev) (w sc : ℕ) (cells : List (List Byte)) : d.Goes [.out, .ash, .msixHeld, .scs, .buf, .inj] (Dev.burstInject d w sc cells).1 := by
  unfold Dev.burstInject
  extract_lets +onlyGivenNames r k
  have hr : d.Goes [.out, .ash, .msixHeld, .scs, .buf, .inj] r.1 := by
    refine Dev.Goes.foldl_fst (a := (d, (d.sc w sc).txOut)) _ (fun a c => ?_) _ (Dev.Goes.refl _ _)
    exact Dev.Goes.within (Dev.fiPass_goes _ _ _ _ _)
  exact hr.setSc _ _ _

theorem Dev.sendSet_goes (d : Dev) (w : ℕ) (gs : List Grant) (len : ℕ) (tid : ℕ) (prof : ℕ) (nblk : ℕ) (srf : Bool) (rng : Bool) (cells : List (List Byte)) (r : ℕ) : d.Goes [.out, .ash, .msixHeld, .waves, .scs, .buf, .inj] (Dev.sendSet d w gs len tid prof nblk srf rng cells r) := by
  unfold Dev.sendSet
  extract_lets +onlyGivenNames k muted d1
  have hd1 : d.Goes [.out, .ash, .msixHeld, .waves, .scs, .buf, .inj] d1 := by
    refine (Dev.Goes.refl _ _).each _ _ fun d gi => ?_
    · extract_lets +onlyGivenNames seq mine j
      have hj : d.Goes [.out, .ash, .msixHeld, .waves, .scs, .buf, .inj] j.1 := Dev.Goes.within (Dev.burstInject_goes _ _ _ _)
      exact (hj.setWave _ _).when _ _ fun d => (Dev.Goes.refl _ _).emit _
  exact hd1.thn (Dev.txRefresh_goes _)

theorem Dev.announce_goes (fz : Fuses) (d : Dev) (w : ℕ) (gid : ℕ) (g : Grant) : d.Goes [.free, .out, .ash, .msixHeld, .waves, .scs, .crys, .buf, .inj] (Dev.announce fz d w gid g) := by
  unfold Dev.announce
  extract_lets +onlyGivenNames v r sh m c
  have hc : d.Goes [.free, .out, .ash, .msixHeld, .waves, .scs, .crys, .buf, .inj] c.1 := ((Dev.Goes.refl _ _).with_free _).thn (Dev.burstCells_goes _ _ _ _ _ _ _)
  exact (hc.setWave _ _).thn (Dev.sendSet_goes _ _ _ _ _ _ _ _ _ _ _)

theorem Dev.moveBuf_goes (d : Dev) (b : ℕ) (agent : ℕ) (dst : ℕ) : d.Goes [.out, .ash, .msixHeld, .buf] (Dev.moveBuf d b agent dst) := by
  unfold Dev.moveBuf
  refine Dev.Goes.ite (Dev.Goes.refl _ _) ?_
  · split
    · exact Dev.Goes.within (Dev.bufReject_goes _ _ _ _)
    · exact Dev.Goes.ite ((Dev.Goes.refl _ _).setOwner _ _) (Dev.Goes.within (Dev.bufReject_goes _ _ _ _))

theorem Dev.moveBufs_goes (d : Dev) (bs : List ℕ) (agent : ℕ) (dst : ℕ) : d.Goes [.out, .ash, .msixHeld, .buf] (Dev.moveBufs d bs agent dst) := by
  unfold Dev.moveBufs
  exact (Dev.Goes.refl _ _).each _ _ fun d b => Dev.Goes.within (Dev.moveBuf_goes _ _ _ _)

theorem Dev.ringPush_goes (d : Dev) (r : ℕ) (p : Pkt) (slice : ℕ) : d.Goes [.free, .out, .ash, .pcie, .msixHeld, .buf] (Dev.ringPush d r p slice).1 := by
  unfold Dev.ringPush
  refine Dev.Goes.ite_fst (Dev.Goes.refl _ _) (Dev.Goes.ite_fst (((Dev.Goes.refl _ _).count _ _).pair _) ?_)
  extract_lets +onlyGivenNames pool len n c
  split
  · have hfail : d.Goes [.free, .out, .ash, .pcie, .msixHeld, .buf] (d.count (F.bufPclsFailFail (16 * pool + c)) 1) := (Dev.Goes.refl _ _).count _ _
    exact (hfail.raise _ _).pair _
  · next d1 bs h =>
    have hd1 : d.Goes [.free, .out, .ash, .pcie, .msixHeld, .buf] (d1.moveBufs bs slice 28) := (Dev.Goes.within (Dev.allocBufs_goes h)).thn (Dev.moveBufs_goes _ _ _ _)
    exact (hd1.setPcie _).pair _

theorem Dev.qDrop_goes (d : Dev) (q : ℕ) (reason : ℕ) : d.Goes [.out, .ash, .msixHeld, .buf] (Dev.qDrop d q reason) := by
  unfold Dev.qDrop
  exact (((((Dev.Goes.refl _ _).count _ _).set _ _).set _ _).raise _ _).thn (Dev.noteDepth_goes _ _ _ _)

theorem Dev.tagHead_goes (d : Dev) (q : ℕ) (len : ℕ) : d.Goes [.buf] (Dev.tagHead d q len) := by
  unfold Dev.tagHead
  extract_lets +onlyGivenNames s f
  exact (Dev.Goes.refl _ _).setQueue _ _

theorem Dev.enqueue_goes (d : Dev) (q : ℕ) (p : Pkt) (slice : ℕ) : d.Goes [.free, .out, .ash, .msixHeld, .buf] (Dev.enqueue d q p slice).1 := by
  unfold Dev.enqueue
  extract_lets +onlyGivenNames len
  refine Dev.Goes.ite_fst (Dev.Goes.within (Dev.qDrop_goes _ _ _)) (Dev.Goes.ite_fst (Dev.Goes.within (Dev.qDrop_goes _ _ _)) ?_)
  extract_lets +onlyGivenNames pn c
  split
  · exact (((Dev.Goes.refl _ _).count _ _).raise _ _).thn (Dev.qDrop_goes _ _ _)
  · next d1 bs h =>
    have h2 : d.Goes [.free, .out, .ash, .msixHeld, .buf] (d1.moveBufs bs slice 32) := (Dev.Goes.within (Dev.allocBufs_goes h)).thn (Dev.moveBufs_goes _ _ _ _)
    exact (((h2.when _ _ fun d => Dev.Goes.within (Dev.tagHead_goes _ _ _)).setQueue _ _).set _ _).thn (Dev.noteDepth_goes _ _ _ _)

theorem Dev.mirror_goes (d : Dev) (m : ℕ) (p : Pkt) (n : ℕ) : d.Goes [.free, .out, .ash, .pcie, .msixHeld, .buf] (Dev.mirror d m p n) := by
  unfold Dev.mirror
  refine Dev.Goes.ite (Dev.Goes.refl _ _) ?_
  · extract_lets +onlyGivenNames dst r
    have hr : d.Goes [.free, .out, .ash, .pcie, .msixHeld, .buf] r.1 := Dev.Goes.ite_fst (Dev.Goes.within (Dev.ringPush_goes _ _ _ _)) (Dev.Goes.within (Dev.enqueue_goes _ _ _ _))
    exact Dev.Goes.ite hr ((hr.count _ _).raise _ _)

theorem Dev.decideNext_goes (d : Dev) (dst : Dest) (p : Pkt) (n : ℕ) : d.Goes [.pkt] (Dev.decide_ d dst p n) := by
  unfold Dev.decide_
  exact (Dev.Goes.refl _ _).setPkt _

theorem Dev.applyAction_goes (d : Dev) (a : ℕ) (rule : Option ℕ) (ipOk : Bool) (emq : Option ℕ) (p : Pkt) (n : ℕ) : d.Goes [.free, .out, .ash, .pcie, .msixHeld, .pkt, .buf] (Dev.applyAction d a rule ipOk emq p n) := by
  unfold Dev.applyAction
  extract_lets +onlyGivenNames h pushBad d1 w d2 q d3 d4
  have hd1 : d.Goes [.free, .out, .ash, .pcie, .msixHeld, .pkt, .buf] d1 := (Dev.Goes.refl _ _).when _ _ fun d => ((Dev.Goes.refl _ _).count _ _).raise _ _
  have hd2 : d.Goes [.free, .out, .ash, .pcie, .msixHeld, .pkt, .buf] d2 := hd1.when _ _ fun d => ((Dev.Goes.refl _ _).count _ _).raise _ _
  have hd3 : d.Goes [.free, .out, .ash, .pcie, .msixHeld, .pkt, .buf] d3 := by
    unfold d3
    split
    · exact hd2.when _ _ fun d => (Dev.Goes.refl _ _).setRule _ _
    · exact hd2
  have hd4 : d.Goes [.free, .out, .ash, .pcie, .msixHeld, .pkt, .buf] d4 := hd3.when _ _ fun d => Dev.Goes.within (Dev.mirror_goes _ _ _ _)
  refine Dev.Goes.ite hd4 (Dev.Goes.ite (hd4.thn (Dev.decideNext_goes _ _ _ _)) ?_)
  · extract_lets +onlyGivenNames dst
    exact hd4.thn (Dev.decideNext_goes _ _ _ _)

theorem Dev.applyChange_goes (d : Dev) (w : ℕ) (p : ProfPend) : d.Goes [.waves] (Dev.applyChange d w p) := by
  unfold Dev.applyChange
  exact Dev.Goes.ite (((Dev.Goes.refl _ _).setWave _ _).each _ _ fun d e => (Dev.Goes.refl _ _).set _ _) (((Dev.Goes.refl _ _).setWave _ _).each _ _ fun d e => ((Dev.Goes.refl _ _).set _ _).set _ _)

theorem Dev.applyBack_goes (d : Dev) (w : ℕ) : d.Goes [.waves, .scs] (Dev.applyBack d w) := by
  unfold Dev.applyBack
  refine (Dev.Goes.refl _ _).each _ _ fun d k => ?_
  · split
    · exact (Dev.Goes.within (Dev.applyChange_goes _ _ _)).setSc _ _ _
    · exact Dev.Goes.refl _ _

theorem Dev.applyDecode_goes (d : Dev) (e : ℕ) : d.Goes [.out, .ash, .msixHeld, .engines] (Dev.applyDecode d e) := by
  unfold Dev.applyDecode
  split
  · exact Dev.Goes.refl _ _
  · extract_lets +onlyGivenNames was now old d1 d2
    have hd1 : d.Goes [.out, .ash, .msixHeld, .engines] d1 := ((Dev.Goes.refl _ _).set _ _).setEng _ _
    have hd2 : d.Goes [.out, .ash, .msixHeld, .engines] d2 := hd1.each _ _ fun d s => (((Dev.Goes.refl _ _).set _ _).set _ _).set _ _
    exact hd2.when _ _ fun d => (Dev.Goes.within (Dev.takeKind_goes _ _ _)).thn (Dev.rxEvent_goes _ _ _ _)

theorem Dev.applyKey_goes (d : Dev) (w : ℕ) (p : KeyPend) : d.Goes [.out, .ash, .msixHeld, .crys] (Dev.applyKey d w p) := by
  unfold Dev.applyKey
  extract_lets +onlyGivenNames d1 slot halt waits stop d2
  have hd1 : d.Goes [.out, .ash, .msixHeld, .crys] d1 := ((Dev.Goes.refl _ _).set _ _).thn (Dev.cryShow_goes _ _ _)
  have hd2 : d.Goes [.out, .ash, .msixHeld, .crys] d2 := Dev.Goes.ite ((hd1.set _ _).setCry _ _ _) (Dev.Goes.ite (((hd1.set _ _).setCry _ _ _).thn (Dev.cryEvent_goes _ _ _ _)) (hd1.when _ _ fun d => (Dev.Goes.refl _ _).setCry _ _ _))
  exact hd2.thn (Dev.cryEvent_goes _ _ _ _)

theorem Dev.txEvent_goes (d : Dev) (e : ℕ) (c : ℕ) (addrs : List ℕ) : d.Goes [.out, .ash, .msixHeld] (Dev.txEvent d e c addrs) := by
  unfold Dev.txEvent
  exact Dev.Goes.ite ((Dev.Goes.refl _ _).when _ _ fun d => (Dev.Goes.refl _ _).raise _ _) (Dev.Goes.ite ((Dev.Goes.refl _ _).when _ _ fun d => (Dev.Goes.refl _ _).raise _ _) (Dev.Goes.refl _ _))

theorem Dev.profEvent_goes (d : Dev) (w : ℕ) (sc : ℕ) : d.Goes [.out, .ash, .msixHeld, .waves] (Dev.profEvent d w sc) := by
  unfold Dev.profEvent
  split
  · exact Dev.Goes.within (Dev.txEvent_goes _ _ _ _)
  · exact (Dev.Goes.refl _ _).setWave _ _

theorem Dev.applyPend_goes (d : Dev) (w : ℕ) (dir : ℕ) (sfn : ℕ) : d.Goes [.out, .ash, .msixHeld, .waves] (Dev.applyPend d w dir sfn) := by
  unfold Dev.applyPend
  extract_lets +onlyGivenNames due d1
  have hd1 : d.Goes [.out, .ash, .msixHeld, .waves] d1 := ((Dev.Goes.refl _ _).setWave _ _).each _ _ fun d p => Dev.Goes.within (Dev.applyChange_goes _ _ _)
  split
  · exact hd1.thn (Dev.profEvent_goes _ _ _)
  · exact hd1

theorem Dev.moveTime_goes (d : Dev) (by_ : ℤ) : d.Goes [.out, .time, .ash, .msixHeld] (Dev.moveTime d by_) := by
  unfold Dev.moveTime
  extract_lets +onlyGivenNames r
  exact ((Dev.Goes.refl _ _).setTime _ fun _ => TimeSt.moved_inRange _ _).each _ _ fun d x => (Dev.Goes.refl _ _).raiseWords _ _ _

theorem Dev.applyStep_goes (d : Dev) : d.Goes [.out, .time, .ash, .msixHeld] (Dev.applyStep d) := by
  unfold Dev.applyStep
  split
  · exact Dev.Goes.refl _ _
  · extract_lets +onlyGivenNames d1
    have hd1 : d.Goes [.out, .time, .ash, .msixHeld] d1 := ((Dev.Goes.refl _ _).setTime _ fun h => h).thn (Dev.moveTime_goes _ _)
    exact ((hd1.set _ _).count _ _).raise _ _

theorem Dev.wakeFor_goes (d : Dev) (x : Access) : d.Goes [.free, .out, .ash, .ember, .pwr, .pcie, .msixHeld, .engines, .waves, .pkt, .buf, .macs, .lanes] (Dev.wakeFor d x) := by
  unfold Dev.wakeFor
  exact (Dev.Goes.refl _ _).when _ _ fun d => Dev.Goes.within (Dev.accessWake_goes _ _)

theorem Dev.lateness_goes (d : Dev) (x : Access) : d.Goes [.out, .ash, .msixHeld] (Dev.lateness d x) := by
  unfold Dev.lateness
  exact (Dev.Goes.refl _ _).when _ _ fun d => ((Dev.Goes.refl _ _).count _ _).raise _ _

theorem Dev.latchNs_goes (d : Dev) : d.Goes [] (Dev.latchNs d) := by
  unfold Dev.latchNs
  exact ((Dev.Goes.refl _ _).set _ _).set _ _

theorem Dev.latchGroup_goes (d : Dev) (a : ℕ) : d.Goes [] (Dev.latchGroup d a) := by
  unfold Dev.latchGroup
  refine Dev.Goes.ite (Dev.Goes.within (Dev.latchNs_goes _)) (Dev.Goes.ite ((Dev.Goes.refl _ _).set _ _) ((Dev.Goes.refl _ _).each _ _ fun d w => ?_))
  · extract_lets +onlyGivenNames x
    refine Dev.Goes.ite (((Dev.Goes.refl _ _).set _ _).set _ _) (Dev.Goes.ite (((Dev.Goes.refl _ _).set _ _).set _ _) (Dev.Goes.ite ?_ (Dev.Goes.ite ?_ (Dev.Goes.refl _ _))))
    · extract_lets +onlyGivenNames b
      exact ((Dev.Goes.refl _ _).set _ _).set _ _
    · extract_lets +onlyGivenNames l
      exact (((((((Dev.Goes.refl _ _).set _ _).set _ _).set _ _).set _ _).setFlag _ _).set _ _).set _ _

theorem Dev.latchBytes_goes (d : Dev) (p : ℕ) (rx : Bool) : d.Goes [.macs] (Dev.latchBytes d p rx) := by
  unfold Dev.latchBytes
  extract_lets +onlyGivenNames hi
  exact Dev.Goes.ite ((((Dev.Goes.refl _ _).set _ _).set _ _).setMac _ _) ((((Dev.Goes.refl _ _).set _ _).set _ _).setMac _ _)

theorem Dev.readEffect_goes (d : Dev) (a : ℕ) (r : RegAt) : d.Goes [.macs] (Dev.readEffect d a r) := by
  unfold Dev.readEffect
  extract_lets +onlyGivenNames d1
  have hd1 : d.Goes [.macs] d1 := (Dev.Goes.refl _ _).setReg _ _
  split
  · exact hd1.thn (Dev.latchGroup_goes _ _)
  · exact hd1.thn (Dev.latchGroup_goes _ _)
  · exact hd1.thn (Dev.latchGroup_goes _ _)
  · exact hd1.thn (Dev.latchGroup_goes _ _)
  · exact hd1.thn (Dev.latchGroup_goes _ _)
  · exact hd1.thn (Dev.latchGroup_goes _ _)
  · exact hd1.thn (Dev.latchBytes_goes _ _ _)
  · exact hd1.thn (Dev.latchBytes_goes _ _ _)
  · exact hd1.set _ _
  · exact hd1.set _ _
  · exact hd1

theorem Dev.readAccess_goes (fz : Fuses) (d : Dev) (a : ℕ) (size : ℕ) : d.Goes [.out, .aerrAdr, .ash, .msixHeld, .macs] (Dev.readAccess fz d a size) := by
  unfold Dev.readAccess
  extract_lets +onlyGivenNames code c
  refine Dev.Goes.ite ?_ ?_
  · split
    · exact (Dev.Goes.refl _ _).emit _
    · exact (Dev.Goes.within (Dev.readEffect_goes _ _ _)).emit _
    · exact Dev.Goes.refl _ _
  · extract_lets +onlyGivenNames d1
    have hd1 : d.Goes [.out, .aerrAdr, .ash, .msixHeld, .macs] d1 := (Dev.Goes.within (Dev.accessError_goes _ _ _ _)).thn (Dev.accessFailed_goes _ _ _)
    exact Dev.Goes.ite (hd1.emit _) (Dev.Goes.ite (hd1.emit _) (hd1.emit _))

theorem Dev.emberWrite_goes (d : Dev) (o : ℕ) (v : Word) : d.Goes [.ember] (Dev.emberWrite d o v) := by
  unfold Dev.emberWrite
  extract_lets +onlyGivenNames bank
  exact (Dev.Goes.refl _ _).when _ _ fun d => (Dev.Goes.refl _ _).setEmber _ (Tbl.wf_foldl_set _ _ _ _)

theorem Dev.sprRefuse_goes (d : Dev) : d.Goes [.out, .ash, .msixHeld] (Dev.sprRefuse d) := by
  unfold Dev.sprRefuse
  exact (Dev.Goes.refl _ _).raise _ _

theorem Dev.takeover_goes (d : Dev) (w : ℕ) (e : ℕ) (manual : Bool) : d.Goes [.out, .time, .ash, .spr, .pwr, .msixHeld, .engines, .convs, .waves, .scs, .grps, .crys] (Dev.takeover d w e manual) := by
  unfold Dev.takeover
  split
  · exact (Dev.Goes.within (Dev.give_goes _ _ _)).thn (Dev.moveOrWait_goes _ _)
  · exact Dev.Goes.within (Dev.noEngine_goes _ _)

theorem Dev.dropDue_goes (d : Dev) (e : ℕ) : d.Goes [.spr] (Dev.dropDue d e) := by
  unfold Dev.dropDue
  exact (Dev.Goes.refl _ _).when _ _ fun d => ((Dev.Goes.refl _ _).setSpr1 _ _).set _ _

theorem Dev.retire_goes (d : Dev) (e : ℕ) : d.Goes [.out, .time, .ash, .spr, .pcie, .msixHeld, .engines, .convs, .waves, .scs, .grps, .crys, .pkt, .buf, .macs, .lanes, .inj, .reclaim] (Dev.retire d e) := by
  unfold Dev.retire
  exact (((Dev.Goes.within (Dev.dropDue_goes _ _)).thn (Dev.cordOff_goes _ _)).setSt _ _).thn (Dev.setRole_goes _ _ _)

theorem Dev.toRepair_goes (d : Dev) (e : ℕ) : d.Goes [.out, .time, .ash, .spr, .pcie, .msixHeld, .engines, .convs, .waves, .scs, .grps, .crys, .pkt, .buf, .macs, .lanes, .inj, .reclaim] (Dev.toRepair d e) := by
  unfold Dev.toRepair
  extract_lets +onlyGivenNames d1
  have hd1 : d.Goes [.out, .time, .ash, .spr, .pcie, .msixHeld, .engines, .convs, .waves, .scs, .grps, .crys, .pkt, .buf, .macs, .lanes, .inj, .reclaim] d1 := (Dev.Goes.within (Dev.dropDue_goes _ _)).setSpr1 _ _
  exact Dev.Goes.ite (((hd1.thn (Dev.retire_goes _ _)).raise _ _).thn (Dev.sprShow_goes _)) (((hd1.when _ _ fun d => Dev.Goes.within (Dev.disconnect_goes _ _)).thn (Dev.setRole_goes _ _ _)).thn (Dev.sprShow_goes _))

theorem Dev.countFault_goes (d : Dev) (e : ℕ) : d.Goes [] (Dev.countFault d e) := by
  unfold Dev.countFault
  exact ((Dev.Goes.refl _ _).count _ _).count _ _

theorem Dev.markFault_goes (d : Dev) (e : ℕ) (cause : ℕ) : d.Goes [.out, .ash, .msixHeld] (Dev.markFault d e cause) := by
  unfold Dev.markFault
  exact (((Dev.Goes.refl _ _).set _ _).thn (Dev.countFault_goes _ _)).raise _ _

theorem Dev.servingFault_goes (d : Dev) (w : ℕ) (e : ℕ) (cause : ℕ) (lost : ℕ) (manual : Bool) : d.Goes [.out, .time, .ash, .spr, .pwr, .pcie, .msixHeld, .engines, .convs, .waves, .scs, .grps, .crys, .pkt, .buf, .macs, .lanes, .inj, .reclaim] (Dev.servingFault d w e cause lost manual) := by
  unfold Dev.servingFault
  exact ((((Dev.Goes.within (Dev.markFault_goes _ _ _)).thn (Dev.gapStart_goes _ _ _)).thn (Dev.stopsServing_goes _ _)).thn (Dev.toRepair_goes _ _)).thn (Dev.takeover_goes _ _ _ _)

theorem Dev.revertStart_goes (d : Dev) (w : ℕ) : d.Goes [.out, .ash, .spr, .pwr, .msixHeld] (Dev.revertStart d w) := by
  unfold Dev.revertStart
  split
  · exact Dev.Goes.ite (Dev.Goes.refl _ _) (Dev.Goes.ite (((Dev.Goes.refl _ _).set _ _).setSpr1 _ _) ((Dev.Goes.within (Dev.moveStart_goes _ _)).raise _ _))
  · exact Dev.Goes.refl _ _

theorem Dev.takeoverLost_goes (d : Dev) (m : Move) : d.Goes [.out, .time, .ash, .spr, .pwr, .msixHeld, .engines, .convs, .waves, .scs, .grps, .crys] (Dev.takeoverLost d m) := by
  unfold Dev.takeoverLost
  exact (((Dev.Goes.refl _ _).setSpr1 _ _).thn (Dev.noEngine_goes _ _)).thn (Dev.moveEnd_goes _)

theorem Dev.incomingGone_goes (d : Dev) (m : Move) (lost : ℕ) : d.Goes [.out, .time, .ash, .spr, .pwr, .pcie, .msixHeld, .engines, .convs, .waves, .scs, .grps, .crys, .pkt, .buf, .macs, .lanes, .inj, .reclaim] (Dev.incomingGone d m lost) := by
  unfold Dev.incomingGone
  exact Dev.Goes.ite (Dev.Goes.within (Dev.abandonMove_goes _ _ _)) (((Dev.Goes.refl _ _).when _ _ fun d => Dev.Goes.within (Dev.gapStart_goes _ _ _)).thn (Dev.takeoverLost_goes _ _))

theorem Dev.sprGo_goes (d : Dev) (v : Word) : d.Goes [.free, .out, .time, .ash, .spr, .pwr, .pcie, .msixHeld, .engines, .convs, .waves, .scs, .grps, .crys, .pkt, .buf, .macs, .lanes, .inj, .reclaim] (Dev.sprGo d v) := by
  unfold Dev.sprGo
  extract_lets +onlyGivenNames op w e d1
  have hd1 : d.Goes [.free, .out, .time, .ash, .spr, .pwr, .pcie, .msixHeld, .engines, .convs, .waves, .scs, .grps, .crys, .pkt, .buf, .macs, .lanes, .inj, .reclaim] d1 := ((Dev.Goes.refl _ _).with_free _).raise _ _
  clear_value op
  split
  · split
    · exact (hd1.set _ _).thn (Dev.moveOrWait_goes _ _)
    · exact hd1
  · exact (hd1.set _ _).thn (Dev.servingFault_goes _ _ _ _ _ _)
  · split
    · exact ((((hd1.thn (Dev.setRole_goes _ _ _)).setSpr1 _ _).set _ _).thn (Dev.sprShow_goes _)).thn (Dev.revertStart_goes _ _)
    · exact hd1
  · split
    · exact Dev.Goes.ite (((hd1.thn (Dev.retire_goes _ _)).thn (Dev.incomingGone_goes _ _ _)).thn (Dev.sprShow_goes _)) ((hd1.thn (Dev.retire_goes _ _)).thn (Dev.sprShow_goes _))
    · exact (hd1.thn (Dev.retire_goes _ _)).thn (Dev.sprShow_goes _)
  · exact (((hd1.set _ _).thn (Dev.setRole_goes _ _ _)).thn (Dev.cordWake_goes _ _ _)).thn (Dev.sprShow_goes _)
  · exact hd1

theorem Dev.slotBad_goes (d : Dev) (i : Option Image) : d.Goes [.out, .ash, .msixHeld] (Dev.slotBad d i) := by
  unfold Dev.slotBad
  exact (Dev.Goes.refl _ _).when _ _ fun d => (Dev.Goes.refl _ _).raise _ _

theorem Dev.showSlot_goes (d : Dev) (k : ℕ) (i : Option Image) : d.Goes [] (Dev.showSlot d k i) := by
  unfold Dev.showSlot
  exact Dev.Goes.ite (((Dev.Goes.refl _ _).setFlag _ _).set _ _) (((Dev.Goes.refl _ _).setFlag _ _).set _ _)

theorem Dev.checkInactive_goes (fz : Fuses) (d : Dev) : d.Goes [.out, .ash, .msixHeld] (Dev.checkInactive fz d).1 := by
  unfold Dev.checkInactive
  extract_lets +onlyGivenNames i
  exact ((Dev.Goes.within (Dev.showSlot_goes _ _ _)).thn (Dev.slotBad_goes _ _)).pair _

theorem Dev.cfgRefuse_goes (d : Dev) (code : ℕ) : d.Goes [.out, .ash, .msixHeld] (Dev.cfgRefuse d code) := by
  unfold Dev.cfgRefuse
  exact ((Dev.Goes.refl _ _).set _ _).raise _ _

theorem Dev.cfgTry_goes (fz : Fuses) (d0 : Dev) (v : Word) : d0.Goes [.free, .out, .ash, .msixHeld] (Dev.cfgTry fz d0 v).1 := by
  unfold Dev.cfgTry
  extract_lets +onlyGivenNames d x code
  have hd : d0.Goes [.free, .out, .ash, .msixHeld] d := Dev.Goes.within (Dev.ashNote_goes _ _)
  have hx : d0.Goes [.free, .out, .ash, .msixHeld] x.1 := Dev.Goes.ite_fst (hd.thn (Dev.checkInactive_goes _ _)) (hd.pair _)
  exact (Dev.Goes.ite hx (hx.thn (Dev.cfgRefuse_goes _ _))).pair _

theorem Dev.mramPut_goes (d : Dev) (o : ℕ) (l : List Byte) : d.Goes [.img] (Dev.mramPut d o l) :=
  (Dev.Goes.refl _ _).setImg _ (Dev.mramPut_wf d o l)

theorem Dev.resolveGo_goes (fz : Fuses) (d : Dev) (keep : ℕ) (force : Bool) : d.Goes [.free, .out, .blown, .time, .ash, .img, .ember, .spr, .pwr, .pcie, .msixHeld, .engines, .convs, .waves, .scs, .grps, .crys, .pkt, .buf, .macs, .lanes, .inj, .reclaim] (Dev.resolveGo fz d keep force) := by
  unfold Dev.resolveGo
  extract_lets +onlyGivenNames other d1 d2
  have hd1 : d.Goes [.free, .out, .blown, .time, .ash, .img, .ember, .spr, .pwr, .pcie, .msixHeld, .engines, .convs, .waves, .scs, .grps, .crys, .pkt, .buf, .macs, .lanes, .inj, .reclaim] d1 := (Dev.Goes.within (Dev.mramPut_goes _ _ _)).thn (Dev.showSlot_goes _ _ _)
  have hd2 : d.Goes [.free, .out, .blown, .time, .ash, .img, .ember, .spr, .pwr, .pcie, .msixHeld, .engines, .convs, .waves, .scs, .grps, .crys, .pkt, .buf, .macs, .lanes, .inj, .reclaim] d2 := (hd1.set _ _).set _ _
  refine Dev.Goes.ite hd2 ?_
  · extract_lets +onlyGivenNames x code
    have hx : d.Goes [.free, .out, .blown, .time, .ash, .img, .ember, .spr, .pwr, .pcie, .msixHeld, .engines, .convs, .waves, .scs, .grps, .crys, .pkt, .buf, .macs, .lanes, .inj, .reclaim] x.1 := hd2.thn (Dev.checkInactive_goes _ _)
    split
    · exact Dev.Goes.ite (hx.thn (Dev.activateGo_goes _ _ _ _)) (hx.thn (Dev.cfgRefuse_goes _ _))
    · exact hx.thn (Dev.cfgRefuse_goes _ _)

theorem Dev.cfgGo_goes (fz : Fuses) (d : Dev) (v : Word) (i : Option Image) : d.Goes [.free, .out, .blown, .time, .ash, .img, .ember, .spr, .pwr, .pcie, .msixHeld, .engines, .convs, .waves, .scs, .grps, .crys, .pkt, .buf, .macs, .lanes, .inj, .reclaim] (Dev.cfgGo fz d v i) := by
  unfold Dev.cfgGo
  extract_lets +onlyGivenNames op force
  clear_value op
  split
  · exact Dev.Goes.within (Dev.activateGo_goes _ _ _ _)
  · exact Dev.Goes.within (Dev.reloadStart_goes _ _ _ _ _)
  · exact Dev.Goes.within (Dev.resolveGo_goes _ _ _ _)
  · exact Dev.Goes.refl _ _

theorem Dev.clearEngine_goes (d : Dev) (e : ℕ) : d.Goes [.spr, .pwr] (Dev.clearEngine d e) := by
  unfold Dev.clearEngine
  extract_lets +onlyGivenNames trip d1
  have hd1 : d.Goes [.spr, .pwr] d1 := (Dev.Goes.refl _ _).setSpr1 _ _
  refine Dev.Goes.thn ?_ (Dev.sprShow_goes _)
  · clear_value trip
    split
    · exact Dev.Goes.ite (hd1.thn (Dev.setRole_goes _ _ _)) (Dev.Goes.ite ((hd1.setSt _ _).thn (Dev.setRole_goes _ _ _)) (Dev.Goes.ite ((((hd1.thn (Dev.give_goes _ _ _)).setSpr _).thn (Dev.setRole_goes _ _ _)).thn (Dev.cordWake_goes _ _ _)) (Dev.Goes.ite ((hd1.thn (Dev.season_goes _ _)).thn (Dev.cordWake_goes _ _ _)) ((hd1.thn (Dev.setRole_goes _ _ _)).thn (Dev.cordWake_goes _ _ _)))))
    · exact (hd1.thn (Dev.setRole_goes _ _ _)).thn (Dev.cordWake_goes _ _ _)

theorem Dev.cordCleared_goes (d : Dev) (c : ℕ) : d.Goes [.out, .ash, .spr, .pwr, .msixHeld] (Dev.cordCleared d c) := by
  unfold Dev.cordCleared
  extract_lets +onlyGivenNames d1
  have hd1 : d.Goes [.out, .ash, .spr, .pwr, .msixHeld] d1 := (((Dev.Goes.refl _ _).setSt _ _).setCordInfo _ _).raise _ _
  exact hd1.when _ _ fun d => Dev.Goes.within (Dev.clearEngine_goes _ _)

theorem Dev.cordCmdGo_goes (d : Dev) (c : ℕ) (v : Word) : d.Goes [.out, .ash, .spr, .pwr, .pcie, .msixHeld, .engines, .waves, .buf] (Dev.cordCmdGo d c v) := by
  unfold Dev.cordCmdGo
  extract_lets +onlyGivenNames cmd st wait
  exact Dev.Goes.ite (Dev.Goes.ite (Dev.Goes.within (Dev.cordWake_goes _ _ _)) (Dev.Goes.ite ((Dev.Goes.refl _ _).setCordInfo _ _) ((Dev.Goes.refl _ _).setCordInfo _ _))) (Dev.Goes.ite (Dev.Goes.ite ((Dev.Goes.refl _ _).setCordInfo _ _) (Dev.Goes.ite ((Dev.Goes.refl _ _).setCordInfo _ _) (Dev.Goes.within (Dev.startDrain_goes _ _ _)))) (Dev.Goes.ite (Dev.Goes.within (Dev.cordCleared_goes _ _)) (Dev.Goes.refl _ _)))

theorem Dev.mbxTake_goes (d : Dev) : d.Goes [.hearth] (Dev.mbxTake d) := by
  unfold Dev.mbxTake
  extract_lets +onlyGivenNames b q
  exact (((Dev.Goes.refl _ _).each _ _ fun d i => (Dev.Goes.refl _ _).setReg _ _).set _ _).setHearth _

theorem Dev.sysWrite_goes (fz : Fuses) (d : Dev) (a : ℕ) (r : RegAt) (v : Word) (written : List (BitVec 64)) : d.Goes [.free, .out, .blown, .time, .ash, .hearth, .img, .ember, .spr, .pwr, .pcie, .msixHeld, .engines, .convs, .waves, .scs, .grps, .crys, .pkt, .buf, .macs, .lanes, .inj, .reclaim] (Dev.sysWrite fz d a r v written).1 := by
  unfold Dev.sysWrite
  extract_lets +onlyGivenNames put go
  split
  · exact Dev.Goes.ite_fst ((Dev.Goes.within (Dev.sprRefuse_goes _)).pair _) (((Dev.Goes.within (Dev.applyWrite_goes _ _ _ _ _ _)).when _ _ fun d => (Dev.Goes.within (Dev.sprGo_goes _ _)).thn (Dev.afterFault_goes _ _)).pair _)
  · refine Dev.Goes.ite_fst ((Dev.Goes.within (Dev.applyWrite_goes _ _ _ _ _ _)).pair _) ?_
    · extract_lets +onlyGivenNames x
      have hx : d.Goes [.free, .out, .blown, .time, .ash, .hearth, .img, .ember, .spr, .pwr, .pcie, .msixHeld, .engines, .convs, .waves, .scs, .grps, .crys, .pkt, .buf, .macs, .lanes, .inj, .reclaim] x.1 := Dev.Goes.within (Dev.cfgTry_goes _ _ _)
      exact Dev.Goes.ite_fst (hx.pair _) (((hx.thn (Dev.applyWrite_goes _ _ _ _ _ _)).thn (Dev.cfgGo_goes _ _ _ _)).pair _)
  · exact ((Dev.Goes.within (Dev.applyWrite_goes _ _ _ _ _ _)).when _ _ fun d => Dev.Goes.within (Dev.powerRequest_goes _ _)).pair _
  · exact Dev.Goes.ite_fst ((Dev.Goes.refl _ _).pair _) (((Dev.Goes.within (Dev.applyWrite_goes _ _ _ _ _ _)).thn (Dev.cordCmdGo_goes _ _ _)).pair _)
  · exact Dev.Goes.ite_fst ((Dev.Goes.refl _ _).pair _) (((Dev.Goes.within (Dev.applyWrite_goes _ _ _ _ _ _)).when _ _ fun d => Dev.Goes.within (Dev.mbxTake_goes _)).pair _)
  · exact (Dev.Goes.within (Dev.applyWrite_goes _ _ _ _ _ _)).pair _

theorem Dev.regWrite_goes (fz : Fuses) (d : Dev) (a : ℕ) (r : RegAt) (v : Word) (host : Bool) (written : List (BitVec 64)) : d.Goes [.free, .out, .blown, .time, .ash, .hearth, .img, .ember, .spr, .pwr, .pcie, .msixHeld, .engines, .convs, .waves, .scs, .grps, .crys, .pkt, .buf, .macs, .lanes, .inj, .reclaim] (Dev.regWrite fz d a r v host written).1 := by
  unfold Dev.regWrite
  extract_lets +onlyGivenNames c
  exact Dev.Goes.ite_fst ((Dev.Goes.refl _ _).pair _) (Dev.Goes.within (Dev.sysWrite_goes _ _ _ _ _ _))

theorem Dev.writeAccess_goes (fz : Fuses) (d : Dev) (a : ℕ) (size : ℕ) (v : Word) (written : List (BitVec 64)) : d.Goes [.free, .out, .blown, .aerrAdr, .time, .ash, .hearth, .img, .ember, .spr, .pwr, .pcie, .msixHeld, .engines, .convs, .waves, .scs, .grps, .crys, .pkt, .buf, .macs, .lanes, .inj, .reclaim] (Dev.writeAccess fz d a size v written) := by
  unfold Dev.writeAccess
  extract_lets +onlyGivenNames code x d1
  have hx : d.Goes [.free, .out, .blown, .aerrAdr, .time, .ash, .hearth, .img, .ember, .spr, .pwr, .pcie, .msixHeld, .engines, .convs, .waves, .scs, .grps, .crys, .pkt, .buf, .macs, .lanes, .inj, .reclaim] x.1 := by
    refine Dev.Goes.ite_fst ((Dev.Goes.refl _ _).pair _) ?_
    · split
      · exact Dev.Goes.ite_fst ((Dev.Goes.refl _ _).pair _) ((Dev.Goes.within (Dev.emberWrite_goes _ _ _)).pair _)
      · exact Dev.Goes.within (Dev.regWrite_goes _ _ _ _ _ _ _)
      · exact (Dev.Goes.refl _ _).pair _
  have hd1 : d.Goes [.free, .out, .blown, .aerrAdr, .time, .ash, .hearth, .img, .ember, .spr, .pwr, .pcie, .msixHeld, .engines, .convs, .waves, .scs, .grps, .crys, .pkt, .buf, .macs, .lanes, .inj, .reclaim] d1 := Dev.Goes.ite hx ((hx.thn (Dev.accessError_goes _ _ _ _)).thn (Dev.accessFailed_goes _ _ _))
  exact hd1.emit _

theorem Dev.complete_goes (fz : Fuses) (d : Dev) (x : Access) : d.Goes [.free, .out, .blown, .aerrAdr, .time, .ash, .hearth, .img, .ember, .spr, .pwr, .pcie, .msixHeld, .engines, .convs, .waves, .scs, .grps, .crys, .pkt, .buf, .macs, .lanes, .inj, .reclaim] (Dev.complete fz d x) := by
  unfold Dev.complete
  split
  · exact (Dev.Goes.within (Dev.readAccess_goes _ _ _ _)).thn (Dev.lateness_goes _ _)
  · exact Dev.Goes.within (Dev.writeAccess_goes _ _ _ _ _ _)

theorem Dev.serveList_goes (fz : Fuses) (l : List Access) (d : Dev) : d.Goes [.free, .out, .blown, .aerrAdr, .time, .ash, .hearth, .img, .ember, .spr, .pwr, .waiting, .pcie, .msixHeld, .engines, .convs, .waves, .scs, .grps, .crys, .pkt, .buf, .macs, .lanes, .inj, .reclaim] (Dev.serveList fz l d) := by
  induction l generalizing d with
  | nil =>
    unfold Dev.serveList
    exact (Dev.Goes.refl _ _).with_waiting _
  | cons x t ih =>
    unfold Dev.serveList
    extract_lets +onlyGivenNames d1
    have hd1 : d.Goes [.free, .out, .blown, .aerrAdr, .time, .ash, .hearth, .img, .ember, .spr, .pwr, .waiting, .pcie, .msixHeld, .engines, .convs, .waves, .scs, .grps, .crys, .pkt, .buf, .macs, .lanes, .inj, .reclaim] d1 := Dev.Goes.within (Dev.wakeFor_goes _ _)
    exact Dev.Goes.ite (hd1.with_waiting _) ((hd1.thn (Dev.complete_goes _ _ _)).thn (ih _))

theorem Dev.serve_goes (fz : Fuses) (d : Dev) : d.Goes [.free, .out, .blown, .aerrAdr, .time, .ash, .hearth, .img, .ember, .spr, .pwr, .waiting, .pcie, .msixHeld, .engines, .convs, .waves, .scs, .grps, .crys, .pkt, .buf, .macs, .lanes, .inj, .reclaim] (Dev.serve fz d) := by
  unfold Dev.serve
  extract_lets +onlyGivenNames d1
  have hd1 : d.Goes [.free, .out, .blown, .aerrAdr, .time, .ash, .hearth, .img, .ember, .spr, .pwr, .waiting, .pcie, .msixHeld, .engines, .convs, .waves, .scs, .grps, .crys, .pkt, .buf, .macs, .lanes, .inj, .reclaim] d1 := (Dev.Goes.refl _ _).each _ _ fun d x => Dev.Goes.within (Dev.wakeFor_goes _ _)
  exact hd1.thn (Dev.serveList_goes _ _ _)

theorem Dev.arrive_goes (fz : Fuses) (d : Dev) (a : ℕ) (size : ℕ) (write : Option Word) (written : List (BitVec 64)) : d.Goes [.free, .out, .blown, .aerrAdr, .time, .ash, .hearth, .img, .ember, .spr, .pwr, .waiting, .pcie, .msixHeld, .engines, .convs, .waves, .scs, .grps, .crys, .pkt, .buf, .macs, .lanes, .inj, .reclaim] (Dev.arrive fz d a size write written) := by
  unfold Dev.arrive
  refine Dev.Goes.ite (Dev.Goes.refl _ _) ?_
  · extract_lets +onlyGivenNames x
    exact ((Dev.Goes.refl _ _).with_waiting _).thn (Dev.serve_goes _ _)

theorem Dev.asUsed_goes (d : Dev) (e : ℕ) : d.Goes [] (Dev.asUsed d e) := by
  unfold Dev.asUsed
  extract_lets +onlyGivenNames g
  exact (Dev.Goes.refl _ _).each _ _ fun d f => (Dev.Goes.refl _ _).set _ _

theorem Dev.badHeader_goes (d : Dev) (w : ℕ) (sc : ℕ) (crcBad : Bool) : d.Goes [.out, .ash, .msixHeld, .scs] (Dev.badHeader d w sc crcBad) := by
  unfold Dev.badHeader
  extract_lets +onlyGivenNames d1
  have hd1 : d.Goes [.out, .ash, .msixHeld, .scs] d1 := (Dev.Goes.refl _ _).setSc _ _ _
  exact Dev.Goes.ite ((hd1.count _ _).thn (Dev.lfEvent_goes _ _ _ _)) ((hd1.count _ _).thn (Dev.lfEvent_goes _ _ _ _))

theorem Dev.beaconBack_goes (d : Dev) (w : ℕ) : d.Goes [.waves] (Dev.beaconBack d w) := by
  unfold Dev.beaconBack
  exact (Dev.Goes.refl _ _).when _ _ fun d => ((Dev.Goes.refl _ _).set _ _).setWave _ _

theorem Dev.beaconLocked_goes (d : Dev) (w : ℕ) (sc : ℕ) : d.Goes [.out, .ash, .msixHeld, .engines, .waves] (Dev.beaconLocked d w sc) := by
  unfold Dev.beaconLocked
  exact (Dev.Goes.refl _ _).when _ _ fun d => Dev.Goes.within (Dev.setAct_goes _ _ _)

theorem Dev.beaconLost_goes (d : Dev) (w : ℕ) : d.Goes [.out, .ash, .msixHeld, .engines, .waves] (Dev.beaconLost d w) := by
  unfold Dev.beaconLost
  extract_lets +onlyGivenNames st
  exact Dev.Goes.ite (Dev.Goes.refl _ _) (Dev.Goes.ite (Dev.Goes.within (Dev.setAct_goes _ _ _)) (Dev.Goes.ite ((((Dev.Goes.refl _ _).set _ _).thn (Dev.cutBursts_goes _ _ _)).thn (Dev.sfEvent_goes _ _ _ _)) (Dev.Goes.refl _ _)))

theorem Dev.laneFail_goes (d : Dev) (l : ℕ) (n : ℕ) (addrs : List ℕ) : d.Goes [.free, .out, .ash, .msixHeld, .buf, .macs, .lanes] (Dev.laneFail d l n addrs) := by
  unfold Dev.laneFail
  extract_lets +onlyGivenNames d1
  have hd1 : d.Goes [.free, .out, .ash, .msixHeld, .buf, .macs, .lanes] d1 := ((((Dev.Goes.refl _ _).count _ _).thn (Dev.setStage_goes _ _ _)).setLane _ _).thn (Dev.laneEvent_goes _ _ _ _)
  exact hd1.thn (Dev.laneLinkDown_goes _ _)

theorem Dev.resolveFec_goes (d : Dev) (l : ℕ) (offer : ℕ) : d.Goes [.free, .out, .ash, .msixHeld, .buf, .macs, .lanes] (Dev.resolveFec d l offer).1 := by
  unfold Dev.resolveFec
  split
  · exact (Dev.Goes.refl _ _).pair _
  · extract_lets +onlyGivenNames p d1
    have hd1 : d.Goes [.free, .out, .ash, .msixHeld, .buf, .macs, .lanes] d1 := ((Dev.Goes.refl _ _).set _ _).setLane _ _
    exact Dev.Goes.ite_fst ((hd1.each _ _ fun d k => Dev.Goes.within (Dev.laneFail_goes _ _ _ _)).pair _) (hd1.pair _)

theorem Dev.sendKindling_goes (d : Dev) (l : ℕ) : d.Goes [.out] (Dev.sendKindling d l) := by
  unfold Dev.sendKindling
  exact (Dev.Goes.refl _ _).emit _

theorem Dev.lastKindling_goes (d : Dev) (l : ℕ) : d.Goes [.out] (Dev.lastKindling d l) := by
  unfold Dev.lastKindling
  exact (Dev.Goes.refl _ _).each _ _ fun d x => Dev.Goes.within (Dev.sendKindling_goes _ _)

theorem Dev.enterLock_goes (d : Dev) (l : ℕ) : d.Goes [.out, .lanes] (Dev.enterLock d l) := by
  unfold Dev.enterLock
  exact ((Dev.Goes.within (Dev.setStage_goes _ _ _)).setLane _ _).thn (Dev.sendKindling_goes _ _)

theorem Dev.initTaps_goes (d : Dev) (l : ℕ) : d.Goes [] (Dev.initTaps d l) := by
  unfold Dev.initTaps
  exact ((((Dev.Goes.refl _ _).set _ _).setInt _ _).setInt _ _).set _ _

theorem Dev.enterTrain_goes (d : Dev) (l : ℕ) : d.Goes [.out, .lanes] (Dev.enterTrain d l) := by
  unfold Dev.enterTrain
  exact Dev.Goes.ite (((Dev.Goes.within (Dev.setStage_goes _ _ _)).setLane _ _).emit _) ((Dev.Goes.within (Dev.initTaps_goes _ _)).thn (Dev.enterLock_goes _ _))

theorem Dev.capDone_goes (d : Dev) (l : ℕ) (msg : ℕ) : d.Goes [.free, .out, .ash, .msixHeld, .buf, .macs, .lanes] (Dev.capDone d l msg) := by
  unfold Dev.capDone
  extract_lets +onlyGivenNames mis
  refine Dev.Goes.ite (Dev.Goes.within (Dev.laneFail_goes _ _ _ _)) ?_
  · extract_lets +onlyGivenNames r
    have hr : d.Goes [.free, .out, .ash, .msixHeld, .buf, .macs, .lanes] r.1 := Dev.Goes.within (Dev.resolveFec_goes _ _ _)
    refine Dev.Goes.ite (hr.thn (Dev.laneFail_goes _ _ _ _)) ?_
    · extract_lets +onlyGivenNames pre d1
      have hd1 : d.Goes [.free, .out, .ash, .msixHeld, .buf, .macs, .lanes] d1 := ((hr.thn (Dev.lastKindling_goes _ _)).setFlag _ _).setFlag _ _
      exact Dev.Goes.ite ((((hd1.set _ _).setLane _ _).thn (Dev.enterTrain_goes _ _)).thn (Dev.laneEvent_goes _ _ _ _)) (hd1.thn (Dev.enterActive_goes _ _))

theorem Dev.catchHeaders_goes (d : Dev) (w : ℕ) (sc : ℕ) : d.Goes [.scs] (Dev.catchHeaders d w sc) := by
  unfold Dev.catchHeaders
  extract_lets +onlyGivenNames x k
  refine (Dev.Goes.refl _ _).when _ _ fun d => ?_
  · extract_lets +onlyGivenNames s y
    exact ((Dev.Goes.refl _ _).setSc _ _ _).set _ _

theorem Dev.catchUp_goes (d : Dev) (w : ℕ) (e : ℕ) : d.Goes [.out, .ash, .msixHeld, .waves] (Dev.catchUp d w e) := by
  unfold Dev.catchUp
  extract_lets +onlyGivenNames d1
  have hd1 : d.Goes [.out, .ash, .msixHeld, .waves] d1 := (Dev.Goes.refl _ _).when _ _ fun d => Dev.Goes.within (Dev.applyPend_goes _ _ _ _)
  split
  · exact (hd1.setWave _ _).raise _ _
  · exact hd1

theorem Dev.takeTurn_goes (fz : Fuses) (d : Dev) (w : ℕ) (g : ℕ) (x : RxCell) : d.Goes [.out, .time, .ash, .msixHeld, .engines, .waves, .scs, .grps, .crys, .pkt, .buf, .inj] (Dev.takeTurn fz d w g x) := by
  unfold Dev.takeTurn
  exact Dev.Goes.ite (Dev.Goes.within (Dev.cryCut_goes _ _ _)) (((Dev.Goes.refl _ _).setGrp _ _ _).each _ _ fun d u => Dev.Goes.within (Dev.cellRx_goes _ _ _ _ _ _ _))

theorem Dev.deskew_goes (fz : Fuses) (w g k : ℕ) (d : Dev) : d.Goes [.out, .time, .ash, .msixHeld, .engines, .waves, .scs, .grps, .crys, .pkt, .buf, .inj] (Dev.deskew fz w g k d) := by
  induction k generalizing d with
  | zero => exact Dev.Goes.refl _ _
  | succ k ih =>
    unfold Dev.deskew
    split
    · exact Dev.Goes.refl _ _
    · exact Dev.Goes.ite (Dev.Goes.refl _ _) ((((Dev.Goes.refl _ _).setGrp _ _ _).thn (Dev.takeTurn_goes _ _ _ _ _)).thn (ih _))

theorem Dev.startGroup_goes (d : Dev) (w : ℕ) (g : ℕ) : d.Goes [.grps, .crys] (Dev.startGroup d w g) := by
  unfold Dev.startGroup
  refine Dev.Goes.ite (Dev.Goes.refl _ _) ?_
  · extract_lets +onlyGivenNames firsts at_
    clear_value firsts
    split
    · exact Dev.Goes.refl _ _
    · extract_lets +onlyGivenNames p early
      exact ((Dev.Goes.within (Dev.missingCells_goes _ _ _ _)).when _ _ fun d => Dev.Goes.within (Dev.cryCut_goes _ _ _)).setGrp _ _ _

theorem Dev.slotArrive_goes (fz : Fuses) (d : Dev) (w : ℕ) (g : ℕ) (x : RxCell) : d.Goes [.out, .time, .ash, .msixHeld, .engines, .waves, .scs, .grps, .crys, .pkt, .buf, .inj] (Dev.slotArrive fz d w g x) := by
  unfold Dev.slotArrive
  refine Dev.Goes.ite ((Dev.Goes.within (Dev.missingCells_goes _ _ _ _)).thn (Dev.cryCut_goes _ _ _)) ?_
  · extract_lets +onlyGivenNames d1
    have hd1 : d.Goes [.out, .time, .ash, .msixHeld, .engines, .waves, .scs, .grps, .crys, .pkt, .buf, .inj] d1 := ((Dev.Goes.refl _ _).setGrp _ _ _).thn (Dev.startGroup_goes _ _ _)
    exact hd1.thn (Dev.deskew_goes _ _ _ _ _)

theorem Dev.cellArrive_goes (fz : Fuses) (d : Dev) (w : ℕ) (sc : ℕ) (k : ℕ) (uncorr : Bool) (cell : List Byte) (mism : ℕ) : d.Goes [.out, .time, .ash, .msixHeld, .engines, .waves, .scs, .grps, .crys, .pkt, .buf, .inj] (Dev.cellArrive fz d w sc k uncorr cell mism) := by
  unfold Dev.cellArrive
  split
  · exact Dev.Goes.refl _ _
  · extract_lets +onlyGivenNames miss n
    refine Dev.Goes.ite (((Dev.Goes.within (Dev.deskew_goes _ _ _ _ _)).thn (Dev.missingCells_goes _ _ _ _)).thn (Dev.cryCut_goes _ _ _)) ((Dev.Goes.refl _ _).when _ _ fun d => ?_)
    · extract_lets +onlyGivenNames r
      have hr : d.Goes [.out, .time, .ash, .msixHeld, .engines, .waves, .scs, .grps, .crys, .pkt, .buf, .inj] r.1 := Dev.Goes.within (Dev.fiPass_goes _ _ _ _ _)
      exact Dev.Goes.ite ((hr.thn (Dev.missingCells_goes _ _ _ _)).thn (Dev.cryCut_goes _ _ _)) (hr.thn (Dev.slotArrive_goes _ _ _ _ _))

theorem Dev.cellOut_goes (d : Dev) (w : ℕ) (sc : ℕ) : d.Goes [.out, .scs] (Dev.cellOut d w sc) := by
  unfold Dev.cellOut
  split
  · exact Dev.Goes.refl _ _
  · exact ((Dev.Goes.refl _ _).setSc _ _ _).when _ _ fun d => (Dev.Goes.refl _ _).emit _

theorem Dev.takeCell_goes (d : Dev) (w : ℕ) (g : ℕ) (n : ℕ) (urgCtl : Bool) : d.Goes [.waves, .grps] (Dev.takeCell d w g n urgCtl).1 := by
  unfold Dev.takeCell
  refine Dev.Goes.ite_fst ((Dev.Goes.refl _ _).pair _) ?_
  · split
    · exact ((Dev.Goes.refl _ _).setWave _ _).pair _
    · exact ((Dev.Goes.refl _ _).setGrp _ _ _).pair _
    · exact (Dev.Goes.refl _ _).pair _

theorem Dev.takeCells_goes (w g : ℕ) (urgCtl : Bool) (k n : ℕ) (d : Dev) : d.Goes [.waves, .grps] (Dev.takeCells w g urgCtl k n d).1 := by
  induction k generalizing n d with
  | zero => exact Dev.Goes.refl _ _
  | succ k ih => exact (Dev.Goes.within (Dev.takeCell_goes _ _ _ _ _)).thn (ih _ _)

theorem Dev.sealNext_goes (d : Dev) (w g m : ℕ) : d.Goes [.out, .ash, .msixHeld, .waves, .grps, .crys, .buf] (Dev.sealNext d w g m) := by
  unfold Dev.sealNext
  refine Dev.Goes.ite (Dev.Goes.refl _ _) ?_
  extract_lets +onlyGivenNames x a
  have ha : d.Goes [.out, .ash, .msixHeld, .waves, .grps, .crys, .buf] a.1 := Dev.Goes.within (Dev.takeCells_goes _ _ _ _ _ _)
  have hs : d.Goes [.out, .ash, .msixHeld, .waves, .grps, .crys, .buf] (a.1.sealCells w g false a.2 m).1 := ha.thn (Dev.sealCells_goes _ _ _ _ _ _)
  split
  · next d1 q h => exact (hs.of_eq_fst h).setGrp _ _ _
  · next d1 h => exact hs.of_eq_fst h

theorem Dev.Goes.cellInject {l : List Part} {d e : Dev} (h : d.Goes l e) (w sc dir : ℕ) (u : FiUnit) (next : Dev → FiUnit → Dev)
    (hf : ∀ (x : Dev) (u : FiUnit), x.Goes l (next x u)) (hl : ∀ x ∈ ([.out, .ash, .msixHeld, .buf, .inj] : List Part), x ∈ l := by decide) : d.Goes l (e.cellInject w sc dir u next) :=
  h.through _ _ _ _ _ hf hl

theorem Dev.sendCell_goes (d : Dev) (w : ℕ) (g : ℕ) (n : ℕ) (c : List Byte) : d.Goes [.out, .ash, .msixHeld, .scs, .grps, .buf, .inj] (Dev.sendCell d w g n c) := by
  unfold Dev.sendCell
  extract_lets +onlyGivenNames d1 sc
  have hd1 : d.Goes [.out, .ash, .msixHeld, .scs, .grps, .buf, .inj] d1 := (Dev.Goes.refl _ _).setGrp _ _ _
  exact hd1.when _ _ fun d => (Dev.Goes.refl _ _).cellInject _ _ _ _ _ fun d u => (Dev.Goes.refl _ _).setSc _ _ _

theorem Dev.refresh_goes (d : Dev) (w : ℕ) (g : ℕ) (q : TxGroup) : d.Goes [.out, .ash, .msixHeld, .crys, .buf] (Dev.refresh d w g q).1 := by
  unfold Dev.refresh
  extract_lets +onlyGivenNames s
  exact Dev.Goes.ite_fst ((Dev.Goes.refl _ _).pair _) (Dev.Goes.within (Dev.sealCells_goes _ _ _ _ _ _))

theorem Dev.sealedCell_goes (d : Dev) (w g n : ℕ) : d.Goes [.out, .ash, .msixHeld, .waves, .scs, .grps, .crys, .buf, .inj] (Dev.sealedCell d w g n) := by
  unfold Dev.sealedCell
  extract_lets +onlyGivenNames sn d0 idle
  have h0 : d.Goes [.out, .ash, .msixHeld, .waves, .scs, .grps, .crys, .buf, .inj] d0 := Dev.Goes.ite (Dev.Goes.within (Dev.sealNext_goes _ _ _ _)) (Dev.Goes.refl _ _)
  have hidle : ∀ e : Dev, e.Goes [.out, .ash, .msixHeld, .waves, .scs, .grps, .crys, .buf, .inj] (idle e) := fun e => Dev.Goes.within (Dev.sendCell_goes _ _ _ _ _)
  have hr : ∀ q, d.Goes [.out, .ash, .msixHeld, .waves, .scs, .grps, .crys, .buf, .inj] (d0.refresh w g q).1 := fun q => h0.thn (Dev.refresh_goes _ _ _ _)
  refine Dev.Goes.ite (h0.thn (hidle _)) ?_
  split
  · split
    · next d1 q h => exact (((hr _).of_eq_fst h).setGrp _ _ _).thn (Dev.sendCell_goes _ _ _ _ _)
    · next d1 h => exact ((hr _).of_eq_fst h).thn (hidle _)
  · split
    · next d1 q h => exact ((((hr _).of_eq_fst h).setGrp _ _ _).thn (Dev.sendCell_goes _ _ _ _ _)).thn (Dev.freeCells_goes _ _ _)
    · next d1 h => exact ((hr _).of_eq_fst h).thn (hidle _)
  · exact h0.thn (hidle _)

theorem Dev.nextCell_goes (d : Dev) (w : ℕ) (g : ℕ) : d.Goes [.out, .ash, .msixHeld, .waves, .scs, .grps, .crys, .buf, .inj] (Dev.nextCell d w g) := by
  unfold Dev.nextCell
  extract_lets +onlyGivenNames n
  refine Dev.Goes.ite (Dev.Goes.within (Dev.sealedCell_goes _ _ _ _)) ?_
  · extract_lets +onlyGivenNames a
    have ha : d.Goes [.out, .ash, .msixHeld, .waves, .scs, .grps, .crys, .buf, .inj] a.1 := Dev.Goes.within (Dev.takeCell_goes _ _ _ _ _)
    exact (ha.thn (Dev.sendCell_goes _ _ _ _ _)).thn (Dev.freeCells_goes _ _ _)

theorem Dev.cellBoundary_goes (w g k : ℕ) (d : Dev) : d.Goes [.out, .ash, .msixHeld, .waves, .scs, .grps, .crys, .buf, .inj] (Dev.cellBoundary w g k d) := by
  induction k generalizing d with
  | zero => exact Dev.Goes.refl _ _
  | succ k ih =>
    have h1 : d.Goes [.out, .ash, .msixHeld, .waves, .scs, .grps, .crys, .buf, .inj] (d.nextCell w g) := Dev.Goes.within (Dev.nextCell_goes _ _ _)
    exact Dev.Goes.ite (Dev.Goes.within (Dev.cellOut_goes _ _ _)) (Dev.Goes.ite h1 (Dev.Goes.ite (h1.thn (ih _)) (h1.thn (Dev.cellOut_goes _ _ _))))

theorem Dev.cfgRegWrite_goes (d : Dev) (r : CfgReg) (v : Word) : d.Goes [.pcie] (Dev.cfgRegWrite d r v) := by
  unfold Dev.cfgRegWrite
  extract_lets +onlyGivenNames put
  split
  · exact (Dev.Goes.refl _ _).setPcie _
  · exact (Dev.Goes.refl _ _).setPcie _
  · exact (Dev.Goes.refl _ _).setPcie _
  · exact (Dev.Goes.refl _ _).setPcie _
  · exact (Dev.Goes.refl _ _).setPcie _
  · exact (Dev.Goes.refl _ _).setPcie _
  · exact Dev.Goes.refl _ _
  · exact Dev.Goes.refl _ _
  · exact Dev.Goes.refl _ _
  · exact Dev.Goes.refl _ _
  · exact Dev.Goes.refl _ _

theorem Dev.classify_goes (d : Dev) (t : ℕ) (prof : ℕ) (ipOk : Bool) (emq : Option ℕ) (p : Pkt) (n : ℕ) : d.Goes [.free, .out, .ash, .pcie, .msixHeld, .pkt, .buf] (Dev.classify d t prof ipOk emq p n) := by
  unfold Dev.classify
  split
  · exact (Dev.Goes.refl _ _).count _ _
  · exact Dev.Goes.within (Dev.applyAction_goes _ _ _ _ _ _ _)
  · exact Dev.Goes.within (Dev.applyAction_goes _ _ _ _ _ _ _)

theorem Dev.cleared_goes (d : Dev) (banks : ℕ → Bool) : d.Goes [.inReset, .aerrAdr, .time, .ash, .hearth, .img, .ember, .spr, .pwr, .waiting, .pcie, .msixTable, .msixHeld, .engines, .convs, .waves, .scs, .grps, .crys, .pkt, .buf, .macs, .lanes, .inj, .reclaim] (Dev.cleared d banks) := by
  refine ⟨fun x hx => ?_, fun _ h => absurd trivial h, fun hf => ⟨by simp [Dev.cleared, TimeSt.InRange], rfl, hf.mram, Tbl.wf_filter _ _ hf.ember⟩⟩
  cases x
  case free | out | powered | blown | straps | tap => rfl
  all_goals exact absurd (by decide) hx

theorem Dev.clkFault_goes (d : Dev) (m : ℕ) : d.Goes [.out, .ash, .pwr, .msixHeld] (Dev.clkFault d m) := by
  unfold Dev.clkFault
  exact Dev.Goes.ite (Dev.Goes.refl _ _) (((((Dev.Goes.refl _ _).setPwr _).set _ _).set _ _).raise _ _)

theorem Dev.clkGood_goes (d : Dev) (m : ℕ) : d.Goes [.pwr] (Dev.clkGood d m) := by
  unfold Dev.clkGood
  exact ((Dev.Goes.refl _ _).setPwr _).set _ _

theorem Dev.closeLog_goes (d : Dev) (n : ℕ) : d.Goes [.ash] (Dev.closeLog d n) := by
  unfold Dev.closeLog
  extract_lets +onlyGivenNames fill
  exact (Dev.Goes.refl _ _).with_ash _

theorem Dev.commitItem_goes (d : Dev) (r : PmRegs) (i : PmItem) : d.Goes [] (Dev.commitItem d r i) := by
  unfold Dev.commitItem
  extract_lets +onlyGivenNames d1
  have hd1 : d.Goes [] d1 := by
    unfold d1
    split
    · exact Dev.Goes.refl _ _
    · exact Dev.Goes.ite ((Dev.Goes.refl _ _).count _ _) (((Dev.Goes.refl _ _).when _ _ fun d => (Dev.Goes.refl _ _).count _ _).when _ _ fun d => (Dev.Goes.refl _ _).count _ _)
  exact hd1.when _ _ fun d => (Dev.Goes.refl _ _).count _ _

theorem Dev.completeMove_goes (d : Dev) (m : Move) : d.Goes [.out, .time, .ash, .spr, .pwr, .pcie, .msixHeld, .engines, .convs, .waves, .scs, .grps, .crys, .pkt, .buf, .macs, .lanes, .inj, .reclaim] (Dev.completeMove d m) := by
  unfold Dev.completeMove
  extract_lets +onlyGivenNames d1 d2 d3 d4 d5
  have hd1 : d.Goes [.out, .time, .ash, .spr, .pwr, .pcie, .msixHeld, .engines, .convs, .waves, .scs, .grps, .crys, .pkt, .buf, .macs, .lanes, .inj, .reclaim] d1 := ((Dev.Goes.within (Dev.stopsServing_goes _ _)).thn (Dev.give_goes _ _ _)).thn (Dev.selectOn_goes _ _ _)
  have hd2 : d.Goes [.out, .time, .ash, .spr, .pwr, .pcie, .msixHeld, .engines, .convs, .waves, .scs, .grps, .crys, .pkt, .buf, .macs, .lanes, .inj, .reclaim] d2 := hd1.when _ _ fun d => Dev.Goes.within (Dev.disconnect_goes _ _)
  have hd3 : d.Goes [.out, .time, .ash, .spr, .pwr, .pcie, .msixHeld, .engines, .convs, .waves, .scs, .grps, .crys, .pkt, .buf, .macs, .lanes, .inj, .reclaim] d3 := by
    unfold d3
    split
    · exact (hd2.thn (Dev.cordOff_goes _ _)).thn (Dev.setRole_goes _ _ _)
    · exact (hd2.thn (Dev.cordOff_goes _ _)).thn (Dev.setRole_goes _ _ _)
    · exact (hd2.thn (Dev.cordOff_goes _ _)).thn (Dev.setRole_goes _ _ _)
    · exact (hd2.thn (Dev.cordOff_goes _ _)).thn (Dev.setRole_goes _ _ _)
    · exact (hd2.thn (Dev.cordOff_goes _ _)).thn (Dev.setRole_goes _ _ _)
    · exact (hd2.thn (Dev.cordOff_goes _ _)).thn (Dev.setRole_goes _ _ _)
  have hd4 : d.Goes [.out, .time, .ash, .spr, .pwr, .pcie, .msixHeld, .engines, .convs, .waves, .scs, .grps, .crys, .pkt, .buf, .macs, .lanes, .inj, .reclaim] d4 := hd3.setSpr1 _ _
  have hd5 : d.Goes [.out, .time, .ash, .spr, .pwr, .pcie, .msixHeld, .engines, .convs, .waves, .scs, .grps, .crys, .pkt, .buf, .macs, .lanes, .inj, .reclaim] d5 := hd4.setSpr1 _ _
  exact ((hd5.thn (Dev.txRefresh_goes _)).raise _ _).thn (Dev.moveEnd_goes _)

theorem Dev.cordCmdDue_goes (d : Dev) (c : ℕ) : d.Goes [.out, .ash, .pwr, .pcie, .msixHeld, .engines, .waves, .buf] (Dev.cordCmdDue d c) := by
  unfold Dev.cordCmdDue
  split
  · extract_lets +onlyGivenNames st d1
    have hd1 : d.Goes [.out, .ash, .pwr, .pcie, .msixHeld, .engines, .waves, .buf] d1 := (Dev.Goes.refl _ _).setCordInfo _ _
    exact Dev.Goes.ite (hd1.thn (Dev.cordWake_goes _ _ _)) (Dev.Goes.ite (hd1.thn (Dev.startDrain_goes _ _ _)) (Dev.Goes.refl _ _))
  · exact Dev.Goes.refl _ _

theorem Dev.countFrames_goes (d : Dev) (w : ℕ) (k : ℕ) : d.Goes [.waves, .scs] (Dev.countFrames d w k) := by
  unfold Dev.countFrames
  extract_lets +onlyGivenNames v n
  exact ((Dev.Goes.refl _ _).setWave _ _).each _ _ fun d sc => (Dev.Goes.refl _ _).setSc _ _ _

theorem Dev.drained_goes (d : Dev) (c : ℕ) : d.Goes [.free, .out, .time, .ash, .img, .ember, .spr, .pwr, .pcie, .msixHeld, .engines, .convs, .waves, .scs, .grps, .crys, .pkt, .buf, .macs, .lanes, .inj, .reclaim] (Dev.drained d c) := by
  unfold Dev.drained
  refine Dev.Goes.ite (Dev.Goes.refl _ _) ?_
  · split
    · exact (((Dev.Goes.within (Dev.wipe_goes _ _)).thn (Dev.takeSlot_goes _ _)).thn (Dev.cordWake_goes _ _ _)).thn (Dev.cfgStep_goes _ _ _)
    · exact (Dev.Goes.within (Dev.cordOff_goes _ _)).thn (Dev.powerGo_goes _)

theorem Dev.dropGrants_goes (d : Dev) (w : ℕ) (gs : List Grant) : d.Goes [.waves] (Dev.dropGrants d w gs) := by
  unfold Dev.dropGrants
  exact (Dev.Goes.refl _ _).setWave _ _

theorem Dev.txMove_goes (d : Dev) (w : ℕ) (frame : Bool) : d.Goes [.out, .ash, .msixHeld, .waves] (Dev.txMove d w frame) := by
  unfold Dev.txMove
  split
  · exact Dev.Goes.ite (Dev.Goes.refl _ _) ((((Dev.Goes.within (Dev.catchUp_goes _ _ _)).when _ _ fun d => (Dev.Goes.refl _ _).set _ _).setWave _ _).thn (Dev.txRefresh_goes _))
  · exact Dev.Goes.refl _ _

theorem Dev.engLine_goes (d : Dev) (e : ℕ) (b : ℕ) : d.Goes [.engines, .waves] (Dev.engLine d e b) := by
  unfold Dev.engLine
  extract_lets +onlyGivenNames g un on
  exact (((Dev.Goes.refl _ _).when _ _ fun d => (Dev.Goes.refl _ _).set _ _).setEng _ _).thn (Dev.txRefresh_goes _)

theorem Dev.engSend_goes (d : Dev) (e : ℕ) (b : ℕ) : d.Goes [.engines] (Dev.engSend d e b) := by
  unfold Dev.engSend
  exact (Dev.Goes.refl _ _).setEng _ _

theorem Dev.sendFrames_goes (d : Dev) (w : ℕ) (k : ℕ) (b : ℕ) : d.Goes [.out, .ash, .msixHeld, .engines, .waves, .scs] (Dev.sendFrames d w k b) := by
  unfold Dev.sendFrames
  extract_lets +onlyGivenNames n on d1
  have hd1 : d.Goes [.out, .ash, .msixHeld, .engines, .waves, .scs] d1 := (Dev.Goes.refl _ _).setWave _ _
  exact ((hd1.when _ _ fun d => Dev.Goes.within (Dev.countFrames_goes _ _ _)).each _ _ fun d e => (Dev.Goes.within (Dev.engLine_goes _ _ _)).when _ _ fun d => Dev.Goes.within (Dev.engSend_goes _ _ _)).thn (Dev.txMove_goes _ _ _)

theorem Dev.showSteer_goes (d : Dev) (v : ℤ) : d.Goes [] (Dev.showSteer d v) := by
  unfold Dev.showSteer
  extract_lets +onlyGivenNames x
  exact ((Dev.Goes.refl _ _).setInt _ _).setFlag _ _

theorem Dev.steer_goes (d : Dev) (was : ℕ) (now : ℕ) : d.Goes [] (Dev.steer d was now) := by
  unfold Dev.steer
  exact (Dev.Goes.refl _ _).when _ _ fun d => Dev.Goes.within (Dev.showSteer_goes _ _)

theorem Dev.engSuperframe_goes (d : Dev) (e : ℕ) (b : ℕ) : d.Goes [.engines] (Dev.engSuperframe d e b) := by
  unfold Dev.engSuperframe
  extract_lets +onlyGivenNames was now new ks
  exact ((Dev.Goes.refl _ _).each _ _ fun d s => (Dev.Goes.refl _ _).set _ _).setEng _ _

theorem Dev.engFree_goes (d : Dev) (e : ℕ) (b : ℕ) : d.Goes [.engines, .waves] (Dev.engFree d e b) := by
  unfold Dev.engFree
  exact (((Dev.Goes.within (Dev.engLine_goes _ _ _)).thn (Dev.engSend_goes _ _ _)).thn (Dev.engSuperframe_goes _ _ _)).setEng _ _

theorem Dev.portTx_goes (d : Dev) (p : ℕ) (f : List Byte) : d.Goes [.out, .ash, .msixHeld, .pkt, .buf, .macs, .inj] (Dev.portTx d p f) := by
  unfold Dev.portTx
  exact (Dev.Goes.refl _ _).through _ _ _ _ _ fun d u => Dev.Goes.within (Dev.portOut_goes _ _ _)

theorem Dev.sendGen_goes (d : Dev) (p : ℕ) : d.Goes [.out, .ash, .msixHeld, .pkt, .buf, .macs, .inj] (Dev.sendGen d p) := by
  unfold Dev.sendGen
  extract_lets +onlyGivenNames m
  exact (Dev.Goes.refl _ _).when _ _ fun d => ((Dev.Goes.refl _ _).setMac _ _).each _ _ fun d f => Dev.Goes.within (Dev.portTx_goes _ _ _)

theorem Dev.sendGens_goes (d : Dev) : d.Goes [.out, .ash, .msixHeld, .pkt, .buf, .macs, .inj] (Dev.sendGens d) := by
  unfold Dev.sendGens
  exact (Dev.Goes.refl _ _).each _ _ fun d p => Dev.Goes.within (Dev.sendGen_goes _ _)

theorem Dev.rampsNow_goes (d : Dev) : d.Goes [.waves] (Dev.rampsNow d) := by
  unfold Dev.rampsNow
  extract_lets +onlyGivenNames ramped muted burst
  exact (Dev.Goes.refl _ _).when _ _ fun d => ((Dev.Goes.refl _ _).each _ _ fun d w => (Dev.Goes.refl _ _).setWave _ _).thn (Dev.txRefresh_goes _)

theorem Dev.elapse_goes (d : Dev) (was now : ℕ) : d.Goes [.out, .ash, .msixHeld, .engines, .waves, .scs, .pkt, .buf, .macs, .inj] (Dev.elapse d was now) := by
  unfold Dev.elapse
  extract_lets +onlyGivenNames d1 d2
  have h1 : d.Goes [.out, .ash, .msixHeld, .engines, .waves, .scs, .pkt, .buf, .macs, .inj] d1 :=
    Dev.Goes.each (Dev.Goes.thn (Dev.Goes.refl _ _) (Dev.steer_goes _ _ _)) [0, 1] _ fun d w => (Dev.Goes.refl _ _).when _ _ fun d => Dev.Goes.within (Dev.sendFrames_goes _ _ _ _)
  have h2 : d.Goes [.out, .ash, .msixHeld, .engines, .waves, .scs, .pkt, .buf, .macs, .inj] d2 := h1.when _ _ fun d => (Dev.Goes.refl _ _).each _ _ fun d e => Dev.Goes.within (Dev.engFree_goes _ _ _)
  exact (h2.thn (Dev.rampsNow_goes _)).thn (Dev.sendGens_goes _)

theorem Dev.emtNext_goes (d : Dev) : d.Goes [.out, .ash, .msixHeld, .pkt] (Dev.emtNext d) := by
  unfold Dev.emtNext
  extract_lets +onlyGivenNames q
  exact ((Dev.Goes.refl _ _).setPkt _).each _ _ fun d j => Dev.Goes.within (Dev.emtDo_goes _ _)

theorem Dev.selectRx_goes (d : Dev) (w : ℕ) (e : ℕ) : d.Goes [.time, .waves] (Dev.selectRx d w e) := by
  unfold Dev.selectRx
  exact (((Dev.Goes.refl _ _).when _ _ fun d => (((Dev.Goes.refl _ _).set _ _).set _ _).set _ _).thn (Dev.discipline_goes _)).thn (Dev.txRefresh_goes _)

theorem Dev.outgoingFault_goes (d : Dev) (m : Move) (cause : ℕ) (lost : ℕ) : d.Goes [.out, .time, .ash, .spr, .pcie, .msixHeld, .engines, .convs, .waves, .scs, .grps, .crys, .pkt, .buf, .macs, .lanes, .inj, .reclaim] (Dev.outgoingFault d m cause lost) := by
  unfold Dev.outgoingFault
  extract_lets +onlyGivenNames d1
  have hd1 : d.Goes [.out, .time, .ash, .spr, .pcie, .msixHeld, .engines, .convs, .waves, .scs, .grps, .crys, .pkt, .buf, .macs, .lanes, .inj, .reclaim] d1 := ((Dev.Goes.within (Dev.markFault_goes _ _ _)).thn (Dev.gapStart_goes _ _ _)).thn (Dev.stopsServing_goes _ _)
  refine Dev.Goes.ite ?_ (Dev.Goes.ite (((((hd1.thn (Dev.toRepair_goes _ _)).thn (Dev.give_goes _ _ _)).setSpr _).thn (Dev.sprShow_goes _)).raise _ _) (((((hd1.thn (Dev.toRepair_goes _ _)).thn (Dev.noEngine_goes _ _)).setSpr _).thn (Dev.sprShow_goes _)).raise _ _))
  · extract_lets +onlyGivenNames d2 d3
    have hd2 : d.Goes [.out, .time, .ash, .spr, .pcie, .msixHeld, .engines, .convs, .waves, .scs, .grps, .crys, .pkt, .buf, .macs, .lanes, .inj, .reclaim] d2 := hd1.raise _ _
    have hd3 : d.Goes [.out, .time, .ash, .spr, .pcie, .msixHeld, .engines, .convs, .waves, .scs, .grps, .crys, .pkt, .buf, .macs, .lanes, .inj, .reclaim] d3 := (((hd2.thn (Dev.toRepair_goes _ _)).thn (Dev.give_goes _ _ _)).setWave _ _).thn (Dev.selectRx_goes _ _ _)
    exact ((hd3.setSpr _).thn (Dev.sprShow_goes _)).thn (Dev.txRefresh_goes _)

theorem Dev.engineFault_goes (d : Dev) (e : ℕ) (cause : ℕ) (lost : ℕ) : d.Goes [.out, .time, .ash, .spr, .pwr, .pcie, .msixHeld, .engines, .convs, .waves, .scs, .grps, .crys, .pkt, .buf, .macs, .lanes, .inj, .reclaim] (Dev.engineFault d e cause lost) := by
  unfold Dev.engineFault
  extract_lets +onlyGivenNames plain
  refine Dev.Goes.ite (Dev.Goes.refl _ _) ?_
  · split
    · dsimp only [plain]
      split
      · exact Dev.Goes.ite (Dev.Goes.within (Dev.servingFault_goes _ _ _ _ _ _)) ((Dev.Goes.within (Dev.markFault_goes _ _ _)).thn (Dev.toRepair_goes _ _))
      · exact (Dev.Goes.within (Dev.markFault_goes _ _ _)).thn (Dev.toRepair_goes _ _)
    · extract_lets +onlyGivenNames hitless
      refine Dev.Goes.ite ((((Dev.Goes.within (Dev.markFault_goes _ _ _)).thn (Dev.stopsServing_goes _ _)).thn (Dev.toRepair_goes _ _)).thn (Dev.incomingGone_goes _ _ _)) (Dev.Goes.ite (Dev.Goes.within (Dev.outgoingFault_goes _ _ _ _)) ?_)
      · dsimp only [plain]
        split
        · exact Dev.Goes.ite (Dev.Goes.within (Dev.servingFault_goes _ _ _ _ _ _)) ((Dev.Goes.within (Dev.markFault_goes _ _ _)).thn (Dev.toRepair_goes _ _))
        · exact (Dev.Goes.within (Dev.markFault_goes _ _ _)).thn (Dev.toRepair_goes _ _)

theorem Dev.takeCopy_goes (d0 : Dev) (w : ℕ) (e : ℕ) (sfn : ℕ → ℕ) : d0.Goes [.out, .ash, .msixHeld, .waves] (Dev.takeCopy d0 w e sfn) := by
  unfold Dev.takeCopy
  extract_lets +onlyGivenNames d v
  have hd : d0.Goes [.out, .ash, .msixHeld, .waves] d := (Dev.Goes.within (Dev.applyPend_goes _ _ _ _)).thn (Dev.applyPend_goes _ _ _ _)
  refine (hd.setWave _ _).each _ _ fun d k => ?_
  · extract_lets +onlyGivenNames d1
    have hd1 : d.Goes [.out, .ash, .msixHeld, .waves] d1 := ((Dev.Goes.refl _ _).set _ _).set _ _
    split
    · exact (hd1.set _ _).set _ _
    · exact hd1.set _ _

theorem Dev.takeFramerCopy_goes (d : Dev) (w : ℕ) (e : ℕ) : d.Goes [.out, .ash, .msixHeld, .waves] (Dev.takeFramerCopy d w e) := by
  unfold Dev.takeFramerCopy
  exact Dev.Goes.within (Dev.takeCopy_goes _ _ _ _)

theorem Dev.serveReady_goes (d : Dev) (e : ℕ) : d.Goes [.out, .ash, .spr, .msixHeld, .engines, .waves] (Dev.serveReady d e) := by
  unfold Dev.serveReady
  split
  · exact Dev.Goes.ite (Dev.Goes.refl _ _) (Dev.Goes.ite ((Dev.Goes.refl _ _).setSpr1 _ _) (((Dev.Goes.refl _ _).when _ _ fun d => Dev.Goes.within (Dev.takeFramerCopy_goes _ _ _)).when _ _ fun d => (Dev.Goes.within (Dev.select_goes _ _ _)).thn (Dev.connect_goes _ _ _)))
  · exact (Dev.Goes.refl _ _).when _ _ fun d => Dev.Goes.within (Dev.season_goes _ _)

theorem Dev.engineReady_goes (d : Dev) (e : ℕ) : d.Goes [.out, .ash, .spr, .msixHeld, .engines, .waves] (Dev.engineReady d e) := by
  unfold Dev.engineReady
  split
  · exact Dev.Goes.ite (Dev.Goes.within (Dev.serveReady_goes _ _)) (Dev.Goes.ite (Dev.Goes.within (Dev.beginLoad_goes _ _)) (Dev.Goes.refl _ _))
  · exact Dev.Goes.within (Dev.serveReady_goes _ _)

theorem Dev.enterHold_goes (d : Dev) (i : ℕ) : d.Goes [.out, .ash, .msixHeld, .pkt] (Dev.enterHold d i) := by
  unfold Dev.enterHold
  extract_lets +onlyGivenNames d1
  have hd1 : d.Goes [.out, .ash, .msixHeld, .pkt] d1 := Dev.Goes.within (Dev.setSlot_goes _ _ _)
  exact hd1.setPkt _

theorem Dev.evtMark_goes (d : Dev) (n : ℕ) : d.Goes [] (Dev.evtMark d n) := by
  unfold Dev.evtMark
  extract_lets +onlyGivenNames first
  exact (((Dev.Goes.refl _ _).when _ _ fun d => ((Dev.Goes.refl _ _).set _ _).set _ _).count _ _).set _ _

theorem Dev.fecBlock_goes (d : Dev) (w : ℕ) (sc : ℕ) (c : FecCopy) : d.Goes [.out, .ash, .msixHeld, .scs] (Dev.fecBlock d w sc c) := by
  unfold Dev.fecBlock
  extract_lets +onlyGivenNames bad d1 d2
  have hd1 : d.Goes [.out, .ash, .msixHeld, .scs] d1 := (Dev.Goes.refl _ _).setSc _ _ _
  have hd2 : d.Goes [.out, .ash, .msixHeld, .scs] d2 := hd1.when _ _ fun d => (Dev.Goes.refl _ _).count _ _
  exact hd2.when _ _ fun d => ((Dev.Goes.refl _ _).count _ _).thn (Dev.lfEvent_goes _ _ _ _)

theorem Dev.fwDisputed_goes (fz : Fuses) (d : Dev) : d.Goes [] (Dev.fwDisputed fz d) := by
  unfold Dev.fwDisputed
  split
  · exact (Dev.Goes.refl _ _).setFlag _ _
  · exact (Dev.Goes.refl _ _).set _ _

theorem Dev.runFirmware_goes (d : Dev) (slot : ℕ) (f : ℕ × ℕ × List Byte) (reason : ℕ) : d.Goes [.free, .out, .ash, .msixHeld] (Dev.runFirmware d slot f reason) := by
  unfold Dev.runFirmware
  exact (((((Dev.Goes.refl _ _).set _ _).set _ _).set _ _).set _ _).thn (Dev.fwStart_goes _ _)

theorem Dev.fwSelect_goes (fz : Fuses) (d : Dev) (reason : ℕ) : d.Goes [.free, .out, .ash, .msixHeld] (Dev.fwSelect fz d reason) := by
  unfold Dev.fwSelect
  extract_lets +onlyGivenNames a b
  split
  · exact ((Dev.Goes.refl _ _).set _ _).set _ _
  · split
    · exact ((Dev.Goes.refl _ _).setFlag _ _).thn (Dev.runFirmware_goes _ _ _ _)
    · exact Dev.Goes.refl _ _

theorem Dev.gapTest_goes (d : Dev) (w : ℕ) (sc : ℕ) (pos : ℕ) (good : Bool) (m : AwMatch) : d.Goes [.engines, .scs] (Dev.gapTest d w sc pos good m) := by
  unfold Dev.gapTest
  extract_lets +onlyGivenNames ok d1
  have hd1 : d.Goes [.engines, .scs] d1 := ((Dev.Goes.refl _ _).setSc _ _ _).thn (Dev.catchHeaders_goes _ _ _)
  exact hd1.when _ _ fun d => (Dev.Goes.refl _ _).each _ _ fun d e => (Dev.Goes.refl _ _).setEng _ _

theorem Dev.popHead_goes (d : Dev) (q : ℕ) (len : ℕ) : d.Goes [.buf] (Dev.popHead d q len) := by
  unfold Dev.popHead
  extract_lets +onlyGivenNames d1 d2
  have hd1 : d.Goes [.buf] d1 := ((Dev.Goes.refl _ _).setQueue _ _).set _ _
  have hd2 : d.Goes [.buf] d2 := by
    unfold d2
    split
    · exact hd1.thn (Dev.tagHead_goes _ _ _)
    · exact hd1
  exact hd2.thn (Dev.noteDepth_goes _ _ _ _)

theorem Dev.gateDropQueue_goes (p q n : ℕ) (d : Dev) : d.Goes [.out, .ash, .msixHeld, .buf] (Dev.gateDropQueue p q n d) := by
  induction n generalizing d with
  | zero => exact Dev.Goes.refl _ _
  | succ n ih =>
    unfold Dev.gateDropQueue
    split
    · exact Dev.Goes.refl _ _
    · exact Dev.Goes.ite (((((Dev.Goes.within (Dev.popHead_goes _ _ _)).thn (Dev.freeBufs_goes _ _ _)).count _ _).raise _ _).thn (ih _)) (Dev.Goes.refl _ _)

theorem Dev.gateDrops_goes (d : Dev) (p : ℕ) : d.Goes [.out, .ash, .msixHeld, .buf] (Dev.gateDrops d p) := by
  unfold Dev.gateDrops
  exact (Dev.Goes.refl _ _).when _ _ fun d => (Dev.Goes.refl _ _).each _ _ fun d q => Dev.Goes.within (Dev.gateDropQueue_goes _ _ _ _)

theorem Dev.goodHeader_goes (d : Dev) (w : ℕ) (sc : ℕ) (h : Header) : d.Goes [.out, .ash, .msixHeld, .scs] (Dev.goodHeader d w sc h).1 := by
  unfold Dev.goodHeader
  extract_lets +onlyGivenNames x prof numBad mis cnt adopt nx y d1 d2
  have hd1 : d.Goes [.out, .ash, .msixHeld, .scs] d1 := ((((Dev.Goes.refl _ _).setSc _ _ _).set _ _).setFlag _ _).set _ _
  have hd2 : d.Goes [.out, .ash, .msixHeld, .scs] d2 := hd1.when _ _ fun d => ((Dev.Goes.refl _ _).count _ _).thn (Dev.lfEvent_goes _ _ _ _)
  exact hd2.pair _

theorem Dev.grantedBurst_goes (d : Dev) (w : ℕ) (gid : ℕ) (g : Grant) (gs : List Grant) (mism : List ℕ) : d.Goes [.out, .ash, .msixHeld, .engines, .waves, .scs, .grps, .crys, .buf, .inj] (Dev.grantedBurst d w gid g gs mism) := by
  unfold Dev.grantedBurst
  extract_lets +onlyGivenNames st tid prof sh total on room
  split
  · extract_lets +onlyGivenNames ctl data d1 d1' c
    have hd1 : d.Goes [.out, .ash, .msixHeld, .engines, .waves, .scs, .grps, .crys, .buf, .inj] d1 := ((Dev.Goes.refl _ _).setWave _ _).setGrp _ _ _
    have hd1' : d.Goes [.out, .ash, .msixHeld, .engines, .waves, .scs, .grps, .crys, .buf, .inj] d1' := hd1.thn (Dev.freeCells_goes _ _ _)
    have hc : d.Goes [.out, .ash, .msixHeld, .engines, .waves, .scs, .grps, .crys, .buf, .inj] c.1 := hd1'.thn (Dev.burstCells_goes _ _ _ _ _ _ _)
    exact (hc.thn (Dev.sendSet_goes _ _ _ _ _ _ _ _ _ _ _)).when _ _ fun d => Dev.Goes.within (Dev.setAct_goes _ _ _)

theorem Dev.groupDepthSeen_goes (d : Dev) (q : ℕ) : d.Goes [.buf] (Dev.groupDepthSeen d q) := by
  unfold Dev.groupDepthSeen
  split
  · exact (Dev.Goes.refl _ _).setSampler _ _
  · exact Dev.Goes.refl _ _

theorem Dev.handOver_goes (d : Dev) (k : ℕ) (q : ℕ) (x : QPkt) : d.Goes [.out, .ash, .msixHeld, .grps, .buf, .macs, .inj] (Dev.handOver d k q x) := by
  unfold Dev.handOver
  extract_lets +onlyGivenNames l u
  exact (Dev.Goes.within (Dev.moveBufs_goes _ _ _ _)).through _ _ _ _ _ fun d u => Dev.Goes.within (Dev.linkAway_goes _ _ _)

theorem Dev.headerMode_goes (d : Dev) (w : ℕ) (sc : ℕ) (enc : Bool) (kex : Bool) : d.Goes [.out, .ash, .msixHeld, .scs] (Dev.headerMode d w sc enc kex) := by
  unfold Dev.headerMode
  extract_lets +onlyGivenNames gs ok
  exact ((Dev.Goes.refl _ _).setSc _ _ _).when _ _ fun d => (Dev.Goes.refl _ _).each _ _ fun d g => Dev.Goes.within (Dev.cryEvent_goes _ _ _ _)

theorem Dev.hearthClock_goes (d : Dev) : d.Goes [] (Dev.hearthClock d) := by
  unfold Dev.hearthClock
  exact (Dev.Goes.refl _ _).set _ _

theorem Dev.settling_goes (d : Dev) (w : ℕ) (step : ℤ) : d.Goes [.engines, .convs] (Dev.settling d w step) := by
  unfold Dev.settling
  exact ((Dev.Goes.refl _ _).setConv _ _).each _ _ fun d e => (Dev.Goes.refl _ _).setEng _ _

theorem Dev.hostAcked_goes (d : Dev) (w : ℕ) (cmd : ℕ) : d.Goes [.engines, .convs] (Dev.hostAcked d w cmd) := by
  unfold Dev.hostAcked
  exact (Dev.Goes.refl _ _).when _ _ fun d => Dev.Goes.within (Dev.settling_goes _ _ _)

theorem Dev.incomingLost_goes (d : Dev) (e : ℕ) : d.Goes [.out, .time, .ash, .spr, .pwr, .pcie, .msixHeld, .engines, .convs, .waves, .scs, .grps, .crys, .pkt, .buf, .macs, .lanes, .inj, .reclaim] (Dev.incomingLost d e) := by
  unfold Dev.incomingLost
  split
  · exact Dev.Goes.ite (Dev.Goes.ite (Dev.Goes.within (Dev.takeoverLost_goes _ _)) (Dev.Goes.within (Dev.abandonMove_goes _ _ _))) (Dev.Goes.refl _ _)
  · exact Dev.Goes.refl _ _

theorem Dev.inputEvent_goes (d : Dev) (w : ℕ) (c : ℕ) (addrs : List ℕ) : d.Goes [.out, .ash, .msixHeld] (Dev.inputEvent d w c addrs) := by
  unfold Dev.inputEvent
  exact (Dev.Goes.refl _ _).when _ _ fun d => (Dev.Goes.refl _ _).raise _ _

theorem Dev.laserWindow_goes (d : Dev) (e : ℕ) (off : ℤ) : d.Goes [.engines] (Dev.laserWindow d e off) := by
  unfold Dev.laserWindow
  extract_lets +onlyGivenNames d1
  have hd1 : d.Goes [.engines] d1 := (Dev.Goes.refl _ _).setInt _ _
  refine Dev.Goes.ite ?_ ((hd1.setEng _ _).set _ _)
  · extract_lets +onlyGivenNames q
    exact (hd1.setEng _ _).when _ _ fun d => (Dev.Goes.refl _ _).set _ _

theorem Dev.learnHead_goes (d : Dev) : d.Goes [.out, .ash, .msixHeld, .pkt] (Dev.learnHead d) := by
  unfold Dev.learnHead
  split
  · exact Dev.Goes.refl _ _
  · extract_lets +onlyGivenNames full taken q
    have htaken : d.Goes [.out, .ash, .msixHeld, .pkt] taken := (Dev.Goes.refl _ _).setPkt _
    split
    · refine Dev.Goes.ite htaken (Dev.Goes.ite (Dev.Goes.refl _ _) ?_)
      · extract_lets +onlyGivenNames x
        have hx : d.Goes [.out, .ash, .msixHeld, .pkt] x.1 := htaken.thn (Dev.tableInsert_goes _ _)
        split
        · exact hx.thn (Dev.enterHold_goes _ _)
        · exact hx.raise _ _
    · split
      · exact htaken
      · exact Dev.Goes.ite (htaken.count _ _) (Dev.Goes.ite ((htaken.count _ _).raise _ _) (Dev.Goes.ite ((htaken.count _ _).raise _ _) (Dev.Goes.ite (Dev.Goes.refl _ _) ((htaken.thn (Dev.setSlot_goes _ _ _)).thn (Dev.enterHold_goes _ _)))))

theorem Dev.leaveLpi_goes (d : Dev) (p : ℕ) : d.Goes [.macs] (Dev.leaveLpi d p) := by
  unfold Dev.leaveLpi
  exact (Dev.Goes.refl _ _).when _ _ fun d => ((Dev.Goes.refl _ _).set _ _).setMac _ _

theorem Dev.ringReset_goes (d : Dev) (tx : Bool) (r : ℕ) (cause : ℕ) : d.Goes [.out, .ash, .pcie, .msixHeld, .buf] (Dev.ringReset d tx r cause) := by
  unfold Dev.ringReset
  extract_lets +onlyGivenNames d1
  have hd1 : d.Goes [.out, .ash, .pcie, .msixHeld, .buf] d1 := ((((Dev.Goes.within (Dev.ringEmpty_goes _ _ _ _)).set _ _).set _ _).set _ _).set _ _
  exact (hd1.set _ _).thn (Dev.ringRefresh_goes _ _ _ _)

theorem Dev.linkLost_goes (d : Dev) : d.Goes [.out, .ash, .pcie, .msixHeld, .buf] (Dev.linkLost d) := by
  unfold Dev.linkLost
  refine (Dev.Goes.refl _ _).when _ _ fun d => ?_
  · extract_lets +onlyGivenNames d1
    have hd1 : d.Goes [.out, .ash, .pcie, .msixHeld, .buf] d1 := (((Dev.Goes.refl _ _).set _ _).set _ _).set _ _
    exact (hd1.each _ _ fun d r => Dev.Goes.within (Dev.ringReset_goes _ _ _ _)).raise _ _

theorem Dev.putCarried_goes (d : Dev) (a : ℕ) (v : Word) : d.Goes [] (Dev.putCarried d a v) := by
  unfold Dev.putCarried
  exact (Dev.Goes.refl _ _).setReg _ _

theorem Dev.loadSnap_goes (d : Dev) (w : ℕ) (e : ℕ) (s : Snap) : d.Goes [.out, .ash, .msixHeld, .engines, .waves] (Dev.loadSnap d w e s) := by
  unfold Dev.loadSnap
  extract_lets +onlyGivenNames base d1 d2 est d3
  have hd1 : d.Goes [.out, .ash, .msixHeld, .engines, .waves] d1 := (Dev.Goes.refl _ _).each _ _ fun d x => Dev.Goes.within (Dev.putCarried_goes _ _ _)
  have hd2 : d.Goes [.out, .ash, .msixHeld, .engines, .waves] d2 := hd1.each _ _ fun d x => Dev.Goes.within (Dev.putCarried_goes _ _ _)
  have hd3 : d.Goes [.out, .ash, .msixHeld, .engines, .waves] d3 := (hd2.setEng _ _).set _ _
  exact Dev.Goes.ite (hd3.thn (Dev.takeFramerCopy_goes _ _ _)) (((hd3.setWave _ _).thn (Dev.codesFrom_goes _ _ _)).thn (Dev.takeCopy_goes _ _ _ _))

theorem Dev.lockLost_goes (d : Dev) (l : ℕ) : d.Goes [.free, .out, .ash, .msixHeld, .buf, .macs, .lanes] (Dev.lockLost d l) := by
  unfold Dev.lockLost
  extract_lets +onlyGivenNames quiet
  exact (Dev.Goes.refl _ _).when _ _ fun d => ((((Dev.Goes.refl _ _).count _ _).thn (Dev.laneStart_goes _ _)).thn (Dev.laneEvent_goes _ _ _ _)).thn (Dev.laneLinkDown_goes _ _)

theorem Dev.postLearn_goes (d : Dev) (r : LrnReq) : d.Goes [.out, .ash, .msixHeld, .pkt] (Dev.postLearn d r) := by
  unfold Dev.postLearn
  exact Dev.Goes.ite (((Dev.Goes.refl _ _).count _ _).raise _ _) ((Dev.Goes.refl _ _).setPkt _)

theorem Dev.lookups_goes (d : Dev) (t : ℕ) (p : Pkt) : d.Goes [.out, .ash, .msixHeld, .pkt] (Dev.lookups d t p).1 := by
  unfold Dev.lookups
  extract_lets +onlyGivenNames cfg part touch hit d1 ent learns
  have hd1 : d.Goes [.out, .ash, .msixHeld, .pkt] d1 := by
    unfold d1
    clear_value hit
    split
    · dsimp only [touch]
      split
      · exact Dev.Goes.ite (Dev.Goes.refl _ _) (Dev.Goes.within (Dev.setSlot_goes _ _ _))
      · exact Dev.Goes.refl _ _
    · exact Dev.Goes.refl _ _
  refine Dev.Goes.ite_fst (hd1.pair _) ?_
  · extract_lets +onlyGivenNames sk
    split
    · extract_lets +onlyGivenNames e d2
      have hd2 : d.Goes [.out, .ash, .msixHeld, .pkt] d2 := by
        unfold d2
        dsimp only [touch]
        split
        · exact Dev.Goes.ite hd1 (hd1.thn (Dev.setSlot_goes _ _ _))
        · exact hd1
      exact Dev.Goes.ite_fst (hd2.pair _) ((hd2.thn (Dev.postLearn_goes _ _)).pair _)
    · exact (hd1.thn (Dev.postLearn_goes _ _)).pair _

theorem Dev.mbxNote_goes (d : Dev) (a : ℕ) (v : Word) : d.Goes [.ash] (Dev.mbxNote d a v) := by
  unfold Dev.mbxNote
  exact (Dev.Goes.refl _ _).ashAdd _ _ _ _ _

theorem Dev.mbxPut_goes (fz : Fuses) (d : Dev) (a : ℕ) (v : Word) : d.Goes [.free, .out, .blown, .time, .ash, .hearth, .img, .ember, .spr, .pwr, .pcie, .msixHeld, .engines, .convs, .waves, .scs, .grps, .crys, .pkt, .buf, .macs, .lanes, .inj, .reclaim] (Dev.mbxPut fz d a v).1 := by
  unfold Dev.mbxPut
  extract_lets +onlyGivenNames x
  have hx : d.Goes [.free, .out, .blown, .time, .ash, .hearth, .img, .ember, .spr, .pwr, .pcie, .msixHeld, .engines, .convs, .waves, .scs, .grps, .crys, .pkt, .buf, .macs, .lanes, .inj, .reclaim] x.1 := by
    unfold x
    split
    · exact Dev.Goes.ite_fst ((Dev.Goes.refl _ _).pair _) ((Dev.Goes.within (Dev.emberWrite_goes _ _ _)).pair _)
    · exact Dev.Goes.within (Dev.regWrite_goes _ _ _ _ _ _ _)
    · exact (Dev.Goes.refl _ _).pair _
  exact Dev.Goes.ite_fst ((hx.thn (Dev.mbxNote_goes _ _ _)).pair _) hx

theorem Dev.mbxWrites_goes (fz : Fuses) (level blk a : ℕ) (l : List ℕ) (d : Dev) (n : ℕ) : d.Goes [.free, .out, .blown, .time, .ash, .hearth, .img, .ember, .spr, .pwr, .pcie, .msixHeld, .engines, .convs, .waves, .scs, .grps, .crys, .pkt, .buf, .macs, .lanes, .inj, .reclaim] (Dev.mbxWrites fz level blk a l d n).1 := by
  induction l generalizing a d n with
  | nil => exact Dev.Goes.refl _ _
  | cons v l ih =>
    have hx : d.Goes [.free, .out, .blown, .time, .ash, .hearth, .img, .ember, .spr, .pwr, .pcie, .msixHeld, .engines, .convs, .waves, .scs, .grps, .crys, .pkt, .buf, .macs, .lanes, .inj, .reclaim] (d.mbxPut fz a (BitVec.ofNat 32 v)).1 := Dev.Goes.within (Dev.mbxPut_goes _ _ _ _)
    exact Dev.Goes.ite_fst (Dev.Goes.refl _ _) (Dev.Goes.ite_fst (Dev.Goes.refl _ _) (Dev.Goes.ite_fst hx (hx.thn (ih _ _ _))))

theorem Dev.mbxCut_goes (fz : Fuses) (d : Dev) (q : MbxReq) (k : ℕ) : d.Goes [.free, .out, .blown, .time, .ash, .hearth, .img, .ember, .spr, .pwr, .pcie, .msixHeld, .engines, .convs, .waves, .scs, .grps, .crys, .pkt, .buf, .macs, .lanes, .inj, .reclaim] (Dev.mbxCut fz d q k).1 := by
  unfold Dev.mbxCut
  extract_lets +onlyGivenNames blk a vs x
  have hx : d.Goes [.free, .out, .blown, .time, .ash, .hearth, .img, .ember, .spr, .pwr, .pcie, .msixHeld, .engines, .convs, .waves, .scs, .grps, .crys, .pkt, .buf, .macs, .lanes, .inj, .reclaim] x.1 := Dev.Goes.within (Dev.mbxWrites_goes _ _ _ _ _ _ _)
  exact hx.pair _

theorem Dev.mbxEnd_goes (d : Dev) (q : MbxReq) (status : ℕ) (data : List Byte) : d.Goes [.out, .ash, .hearth, .msixHeld] (Dev.mbxEnd d q status data) := by
  unfold Dev.mbxEnd
  extract_lets +onlyGivenNames b d1
  have hd1 : d.Goes [.out, .ash, .hearth, .msixHeld] d1 := (Dev.Goes.refl _ _).setHearth _
  refine Dev.Goes.ite (hd1.setHearth _) ?_
  · extract_lets +onlyGivenNames d2
    have hd2 : d.Goes [.out, .ash, .hearth, .msixHeld] d2 := hd1.each _ _ fun d i => (Dev.Goes.refl _ _).setReg _ _
    exact ((hd2.set _ _).set _ _).raise _ _

theorem Dev.mbxGetEffect_goes (d : Dev) (a : ℕ) : d.Goes [.macs] (Dev.mbxGetEffect d a) := by
  unfold Dev.mbxGetEffect
  split
  · exact Dev.Goes.within (Dev.readEffect_goes _ _ _)
  · exact Dev.Goes.refl _ _

theorem Dev.Goes.mbxReach {l : List Part} {d e : Dev} (h : d.Goes l e) (q : MbxReq) (a : ℕ) (data : List Byte) (f : Dev → Dev)
    (hf : ∀ x : Dev, x.Goes l (f x)) (hl : ∀ x ∈ ([.free, .out, .ash, .hearth, .ember, .pwr, .pcie, .msixHeld, .engines, .waves, .pkt, .buf, .macs, .lanes] : List Part), x ∈ l := by decide) : d.Goes l (e.mbxReach q a data f) := by
  have hwake : e.Goes [.free, .out, .ash, .hearth, .ember, .pwr, .pcie, .msixHeld, .engines, .waves, .pkt, .buf, .macs, .lanes] (e.when (e.cordSt (cordOf a) == 0) fun d => d.accessWake (cordOf a)) :=
    (Dev.Goes.refl _ _).when _ _ fun d => Dev.Goes.within (Dev.accessWake_goes _ _)
  have hfail : e.Goes [.free, .out, .ash, .hearth, .ember, .pwr, .pcie, .msixHeld, .engines, .waves, .pkt, .buf, .macs, .lanes] ((e.accessFailed (e.cordSt (cordOf a)) (cordOf a)).mbxEnd q 0x06 data) :=
    (Dev.Goes.within (Dev.accessFailed_goes _ _ _)).thn (Dev.mbxEnd_goes _ _ _ _)
  exact Dev.Goes.ite (h.thn (hf _) fun _ h => h) (Dev.Goes.ite (h.thn hwake hl) (h.thn hfail hl))

theorem Dev.mbxReads_goes (fz : Fuses) (a n : ℕ) (d : Dev) : d.Goes [.macs] (Dev.mbxReads fz a n d).1 := by
  induction n generalizing a d with
  | zero => exact Dev.Goes.refl _ _
  | succ n ih => exact (Dev.Goes.within (Dev.mbxGetEffect_goes _ _)).thn (ih _ _)

theorem Dev.mbxWr_goes (fz : Fuses) (d : Dev) (q : MbxReq) (blk : ℕ) : d.Goes [.free, .out, .blown, .time, .ash, .hearth, .img, .ember, .spr, .pwr, .pcie, .msixHeld, .engines, .convs, .waves, .scs, .grps, .crys, .pkt, .buf, .macs, .lanes, .inj, .reclaim] (Dev.mbxWr fz d q blk) := by
  unfold Dev.mbxWr
  extract_lets +onlyGivenNames a
  refine Dev.Goes.ite (Dev.Goes.within (Dev.mbxEnd_goes _ _ _ _)) ?_
  extract_lets +onlyGivenNames t
  refine Dev.Goes.ite (Dev.Goes.within (Dev.mbxEnd_goes _ _ _ _)) ((Dev.Goes.refl _ _).mbxReach _ _ _ _ fun d => ?_)
  have hput : d.Goes [.free, .out, .blown, .time, .ash, .hearth, .img, .ember, .spr, .pwr, .pcie, .msixHeld, .engines, .convs, .waves, .scs, .grps, .crys, .pkt, .buf, .macs, .lanes, .inj, .reclaim] (d.mbxPut fz a (BitVec.ofNat 32 (leAt q.args 4 4))).1 := Dev.Goes.within (Dev.mbxPut_goes _ _ _ _)
  exact Dev.Goes.ite (hput.thn (Dev.mbxEnd_goes _ _ _ _)) (hput.thn (Dev.mbxEnd_goes _ _ _ _))

theorem Dev.missBurst_goes (d : Dev) (w : ℕ) (gs : List Grant) : d.Goes [.waves] (Dev.missBurst d w gs) := by
  unfold Dev.missBurst
  exact ((Dev.Goes.refl _ _).count _ _).setWave _ _

theorem Dev.moveBack_goes (fz : Fuses) (d : Dev) (r : Reload) (w : ℕ) : d.Goes [.free, .out, .blown, .time, .ash, .img, .ember, .spr, .pwr, .pcie, .msixHeld, .engines, .convs, .waves, .scs, .grps, .crys, .pkt, .buf, .macs, .lanes, .inj, .reclaim] (Dev.moveBack fz d r w) := by
  unfold Dev.moveBack
  refine Dev.Goes.ite ?_ (Dev.Goes.within (Dev.reloadDone_goes _ _ _ _))
  · extract_lets +onlyGivenNames d1
    have hd1 : d.Goes [.free, .out, .blown, .time, .ash, .img, .ember, .spr, .pwr, .pcie, .msixHeld, .engines, .convs, .waves, .scs, .grps, .crys, .pkt, .buf, .macs, .lanes, .inj, .reclaim] d1 := ((Dev.Goes.refl _ _).setReload _).thn (Dev.cfgStep_goes _ _ _)
    exact (hd1.thn (Dev.moveStart_goes _ _)).raise _ _

theorem Dev.movePair_goes (d : Dev) (r : PktRun) (p : ℕ) : d.Goes [.pkt] (Dev.movePair d r p).1 := by
  unfold Dev.movePair
  extract_lets +onlyGivenNames dst d1
  have hd1 : d.Goes [.pkt] d1 := (Dev.Goes.refl _ _).each _ _ fun d x => (Dev.Goes.refl _ _).set _ _
  clear_value d1
  exact Dev.Goes.ite_fst (hd1.thn (Dev.nextPair_goes _ _ _)) ((hd1.setPkt _).pair _)

theorem Dev.msixEmit_goes (d : Dev) (v : ℕ) : d.Goes [.out] (Dev.msixEmit d v) := by
  unfold Dev.msixEmit
  extract_lets +onlyGivenNames m
  exact (Dev.Goes.refl _ _).emit _

theorem Dev.toAligned_goes (d : Dev) (w : ℕ) (sc : ℕ) (pos : ℕ) (m : AwMatch) : d.Goes [.engines, .waves, .scs, .grps, .crys] (Dev.toAligned d w sc pos m) := by
  unfold Dev.toAligned
  exact ((((((Dev.Goes.refl _ _).set _ _).set _ _).setFlag _ _).setSc _ _ _).thn (Dev.giveAlign_goes _ _ _ _)).thn (Dev.alnStat_goes _ _)

theorem Dev.openCand_goes (d : Dev) (w : ℕ) (sc : ℕ) (pos : ℕ) (m : AwMatch) (rest : List AlnCand) : d.Goes [.engines, .waves, .scs, .grps, .crys] (Dev.openCand d w sc pos m rest) := by
  unfold Dev.openCand
  exact Dev.Goes.ite (Dev.Goes.within (Dev.toAligned_goes _ _ _ _ _)) (Dev.Goes.ite ((((Dev.Goes.refl _ _).setSc _ _ _).set _ _).count _ _) (((Dev.Goes.refl _ _).setSc _ _ _).set _ _))

theorem Dev.overlap_goes (fz : Fuses) (d : Dev) (m : Move) : d.Goes [.free, .out, .blown, .time, .ash, .spr, .pwr, .pcie, .msixHeld, .engines, .convs, .waves, .scs, .grps, .crys, .pkt, .buf, .macs, .lanes, .inj] (Dev.overlap fz d m) := by
  unfold Dev.overlap
  split
  · exact (Dev.Goes.refl _ _).set _ _
  · extract_lets +onlyGivenNames d1 d2 d3
    have hd1 : d.Goes [.free, .out, .blown, .time, .ash, .spr, .pwr, .pcie, .msixHeld, .engines, .convs, .waves, .scs, .grps, .crys, .pkt, .buf, .macs, .lanes, .inj] d1 := (Dev.Goes.within (Dev.loadSnap_goes _ _ _ _)).setSpr1 _ _
    have hd2 : d.Goes [.free, .out, .blown, .time, .ash, .spr, .pwr, .pcie, .msixHeld, .engines, .convs, .waves, .scs, .grps, .crys, .pkt, .buf, .macs, .lanes, .inj] d2 := Dev.Goes.ite (hd1.thn (Dev.applySec_goes _ _ _)) hd1
    have hd3 : d.Goes [.free, .out, .blown, .time, .ash, .spr, .pwr, .pcie, .msixHeld, .engines, .convs, .waves, .scs, .grps, .crys, .pkt, .buf, .macs, .lanes, .inj] d3 := hd2.setSpr _
    exact hd3.when _ _ fun d => (((Dev.Goes.refl _ _).set _ _).set _ _).thn (Dev.connect_goes _ _ _)

theorem Dev.passTicks_goes (d : Dev) (n : ℕ) : d.Goes [.out, .time, .ash, .msixHeld, .engines, .waves, .scs, .pkt, .buf, .macs, .inj] (Dev.passTicks d n) := by
  unfold Dev.passTicks
  extract_lets +onlyGivenNames was
  exact ((Dev.Goes.refl _ _).setTime _ fun h => h).thn (Dev.elapse_goes _ _ _)

theorem Dev.pmSubcarrier_goes (d : Dev) (w : ℕ) (k : ℕ) (extra : ℕ) (spared : Bool) : d.Goes [.out, .ash, .msixHeld, .scs] (Dev.pmSubcarrier d w k extra spared).1 := by
  unfold Dev.pmSubcarrier
  extract_lets +onlyGivenNames x cb avg sd d1 d2 seen cls sps r d3
  have hd1 : d.Goes [.out, .ash, .msixHeld, .scs] d1 := ((Dev.Goes.refl _ _).set _ _).set _ _
  have hd2 : d.Goes [.out, .ash, .msixHeld, .scs] d2 := hd1.when _ _ fun d => Dev.Goes.within (Dev.lfEvent_goes _ _ _ _)
  have hd3 : d.Goes [.out, .ash, .msixHeld, .scs] d3 := hd2.setSc _ _ _
  exact (hd3.setFlag _ _).pair _

theorem Dev.pmZero_goes (d : Dev) (w : ℕ) : d.Goes [] (Dev.pmZero d w) := by
  unfold Dev.pmZero
  extract_lets +onlyGivenNames z
  exact (((((Dev.Goes.refl _ _).each _ _ fun d k => ((((Dev.Goes.refl _ _).set _ _).set _ _).set _ _).set _ _).set _ _).set _ _).set _ _).set _ _

theorem Dev.predictNext_goes (d : Dev) (w : ℕ) (sc : ℕ) : d.Goes [.scs] (Dev.predictNext d w sc) := by
  unfold Dev.predictNext
  extract_lets +onlyGivenNames s y
  exact ((Dev.Goes.refl _ _).when _ _ fun d => (Dev.Goes.refl _ _).set _ _).setSc _ _ _

theorem Dev.pushTs_goes (d : Dev) (p : ℕ) (x : Pkt) : d.Goes [.out, .ash, .msixHeld, .macs] (Dev.pushTs d p x) := by
  unfold Dev.pushTs
  split
  · exact Dev.Goes.refl _ _
  · exact Dev.Goes.ite (((Dev.Goes.refl _ _).count _ _).raise _ _) (((Dev.Goes.refl _ _).setMac _ _).thn (Dev.txtsShow_goes _ _))

theorem Dev.raiseOn_goes (d : Dev) (was : Bool) (now : Bool) (n : ℕ) (addrs : List ℕ) : d.Goes [.out, .ash, .msixHeld] (Dev.raiseOn d was now n addrs) := by
  unfold Dev.raiseOn
  exact (Dev.Goes.refl _ _).when _ _ fun d => (Dev.Goes.refl _ _).raise _ _

theorem Dev.rdiRx_goes (d : Dev) (w : ℕ) (sc : ℕ) (rdi : Bool) : d.Goes [.out, .ash, .msixHeld, .scs] (Dev.rdiRx d w sc rdi) := by
  unfold Dev.rdiRx
  extract_lets +onlyGivenNames any was d1
  have hd1 : d.Goes [.out, .ash, .msixHeld, .scs] d1 := (Dev.Goes.refl _ _).setSc _ _ _
  exact hd1.when _ _ fun d => Dev.Goes.within (Dev.lfEvent_goes _ _ _ _)

theorem Dev.restoreDown_goes (d : Dev) (r : Reload) (w : ℕ) : d.Goes [.out, .ash, .spr, .pwr, .msixHeld] (Dev.restoreDown d r w) := by
  unfold Dev.restoreDown
  exact (Dev.Goes.refl _ _).when _ _ fun d => (Dev.Goes.within (Dev.moveStart_goes _ _)).raise _ _

theorem Dev.reloadReady_goes (fz : Fuses) (d : Dev) (r : Reload) (ok : Bool) (seq0 : ℕ) : d.Goes [.free, .out, .blown, .time, .ash, .img, .ember, .spr, .pwr, .pcie, .msixHeld, .engines, .convs, .waves, .scs, .grps, .crys, .pkt, .buf, .macs, .lanes, .inj, .reclaim] (Dev.reloadReady fz d r ok seq0) := by
  unfold Dev.reloadReady
  extract_lets +onlyGivenNames c
  refine Dev.Goes.ite ?_ (Dev.Goes.ite ?_ ?_)
  · split
    · exact ((Dev.Goes.refl _ _).set _ _).thn (Dev.moveBack_goes _ _ _ _)
    · exact (Dev.Goes.within (Dev.restoreDown_goes _ _ _)).thn (Dev.reloadDone_goes _ _ _ _)
    · exact (Dev.Goes.ite ((Dev.Goes.refl _ _).when _ _ fun d => Dev.Goes.within (Dev.season_goes _ _)) (Dev.Goes.refl _ _)).thn (Dev.reloadDone_goes _ _ _ _)
  · extract_lets +onlyGivenNames d1 d2
    have hd1 : d.Goes [.free, .out, .blown, .time, .ash, .img, .ember, .spr, .pwr, .pcie, .msixHeld, .engines, .convs, .waves, .scs, .grps, .crys, .pkt, .buf, .macs, .lanes, .inj, .reclaim] d1 := (Dev.Goes.within (Dev.reloadFailEvent_goes _ _)).setImg _ fun h => h
    have hd2 : d.Goes [.free, .out, .blown, .time, .ash, .img, .ember, .spr, .pwr, .pcie, .msixHeld, .engines, .convs, .waves, .scs, .grps, .crys, .pkt, .buf, .macs, .lanes, .inj, .reclaim] d2 := by
      unfold d2
      split
      · exact (((hd1.thn (Dev.gapStart_goes _ _ _)).thn (Dev.give_goes _ _ _)).thn (Dev.selectOn_goes _ _ _)).setSpr _
      · exact hd1
    exact ((hd2.thn (Dev.wipe_goes _ _)).thn (Dev.cordWake_goes _ _ _)).thn (Dev.sprShow_goes _)
  · extract_lets +onlyGivenNames d1' d2'
    have hd1' : d.Goes [.free, .out, .blown, .time, .ash, .img, .ember, .spr, .pwr, .pcie, .msixHeld, .engines, .convs, .waves, .scs, .grps, .crys, .pkt, .buf, .macs, .lanes, .inj, .reclaim] d1' := (Dev.Goes.within (Dev.cordFail_goes _ _ _)).thn (Dev.reloadFailEvent_goes _ _)
    have hd2' : d.Goes [.free, .out, .blown, .time, .ash, .img, .ember, .spr, .pwr, .pcie, .msixHeld, .engines, .convs, .waves, .scs, .grps, .crys, .pkt, .buf, .macs, .lanes, .inj, .reclaim] d2' := hd1'.when _ _ fun d => (Dev.Goes.refl _ _).setSpr1 _ _
    refine Dev.Goes.thn ?_ (Dev.reloadEnd_goes _ _ _)
    · split
      · exact hd2'.thn (Dev.noEngine_goes _ _)
      · exact hd2'

theorem Dev.ready_goes (fz : Fuses) (d : Dev) (c : ℕ) (bad : ℕ) : d.Goes [.free, .out, .blown, .time, .ash, .img, .ember, .spr, .pwr, .pcie, .msixHeld, .engines, .convs, .waves, .scs, .grps, .crys, .pkt, .buf, .macs, .lanes, .inj, .reclaim] (Dev.ready fz d c bad) := by
  unfold Dev.ready
  refine Dev.Goes.ite (Dev.Goes.refl _ _) ?_
  · extract_lets +onlyGivenNames why first d0 seq0 x
    have hd0 : d.Goes [.free, .out, .blown, .time, .ash, .img, .ember, .spr, .pwr, .pcie, .msixHeld, .engines, .convs, .waves, .scs, .grps, .crys, .pkt, .buf, .macs, .lanes, .inj, .reclaim] d0 := (Dev.Goes.refl _ _).when _ _ fun d => (Dev.Goes.within (Dev.bankExit_goes _ _)).setTrans _
    have hx : d.Goes [.free, .out, .blown, .time, .ash, .img, .ember, .spr, .pwr, .pcie, .msixHeld, .engines, .convs, .waves, .scs, .grps, .crys, .pkt, .buf, .macs, .lanes, .inj, .reclaim] x.1 := (hd0.when _ _ fun d => Dev.Goes.within (Dev.takeSlot_goes _ _)).thn (Dev.cordReady_goes _ _ _)
    clear_value why
    split
    · exact (hx.thn (Dev.reloadReady_goes _ _ _ _ _)).thn (Dev.reloadAfter_goes _ _)
    · extract_lets +onlyGivenNames d1 d2 d3 d4
      have hd1 : d.Goes [.free, .out, .blown, .time, .ash, .img, .ember, .spr, .pwr, .pcie, .msixHeld, .engines, .convs, .waves, .scs, .grps, .crys, .pkt, .buf, .macs, .lanes, .inj, .reclaim] d1 := Dev.Goes.ite hx (hx.thn (Dev.applyFailed_goes _ _))
      have hd2 : d.Goes [.free, .out, .blown, .time, .ash, .img, .ember, .spr, .pwr, .pcie, .msixHeld, .engines, .convs, .waves, .scs, .grps, .crys, .pkt, .buf, .macs, .lanes, .inj, .reclaim] d2 := hd1.when _ _ fun d => (Dev.Goes.refl _ _).set _ _
      have hd3 : d.Goes [.free, .out, .blown, .time, .ash, .img, .ember, .spr, .pwr, .pcie, .msixHeld, .engines, .convs, .waves, .scs, .grps, .crys, .pkt, .buf, .macs, .lanes, .inj, .reclaim] d3 := hd2.when _ _ fun d => (Dev.Goes.refl _ _).raise _ _
      have hd4 : d.Goes [.free, .out, .blown, .time, .ash, .img, .ember, .spr, .pwr, .pcie, .msixHeld, .engines, .convs, .waves, .scs, .grps, .crys, .pkt, .buf, .macs, .lanes, .inj, .reclaim] d4 := Dev.Goes.ite (Dev.Goes.ite (hd3.thn (Dev.engineReady_goes _ _)) (hd3.thn (Dev.incomingLost_goes _ _))) hd3
      exact (hd4.thn (Dev.reloadAfter_goes _ _)).thn (Dev.powerGo_goes _)

theorem Dev.removed_goes (d : Dev) (l : ℕ) : d.Goes [.free, .out, .ash, .msixHeld, .buf, .macs, .lanes] (Dev.removed d l) := by
  unfold Dev.removed
  extract_lets +onlyGivenNames st m
  refine Dev.Goes.ite (Dev.Goes.refl _ _) (Dev.Goes.ite (((Dev.Goes.refl _ _).setLane _ _).thn (Dev.laneEvent_goes _ _ _ _)) ?_)
  · extract_lets +onlyGivenNames d1
    have hd1 : d.Goes [.free, .out, .ash, .msixHeld, .buf, .macs, .lanes] d1 := (Dev.Goes.within (Dev.laneStart_goes _ _)).thn (Dev.laneEvent_goes _ _ _ _)
    exact (hd1.when _ _ fun d => ((Dev.Goes.refl _ _).count _ _).thn (Dev.laneEvent_goes _ _ _ _)).thn (Dev.laneLinkDown_goes _ _)

theorem Dev.restartFreq_goes (d : Dev) (e : ℕ) : d.Goes [.out, .ash, .msixHeld] (Dev.restartFreq d e) := by
  unfold Dev.restartFreq
  exact (Dev.Goes.within (Dev.dropPhase_goes _ _ _)).set _ _

theorem Dev.returnEntry_goes (d : Dev) (r : PktRun) (i s : ℕ) : d.Goes [.pkt] (Dev.returnEntry d r i s).1 := by
  unfold Dev.returnEntry
  extract_lets +onlyGivenNames m d1
  have hd1 : d.Goes [.pkt] d1 := (Dev.Goes.refl _ _).set _ _
  clear_value d1
  exact Dev.Goes.ite_fst (hd1.thn (Dev.nextPair_goes _ _ _)) ((hd1.setPkt _).pair _)

theorem Dev.ringEvent_goes (d : Dev) (tx : Bool) (r : ℕ) (n : ℕ) (addrs : List ℕ) : d.Goes [.out, .ash, .msixHeld] (Dev.ringEvent d tx r n addrs) := by
  unfold Dev.ringEvent
  exact (((Dev.Goes.refl _ _).set _ _).setFlag _ _).raise _ _

theorem Dev.ringRegsReset_goes (d : Dev) (cause : ℕ) : d.Goes [.out, .ash, .pcie, .msixHeld, .buf] (Dev.ringRegsReset d cause) := by
  unfold Dev.ringRegsReset
  extract_lets +onlyGivenNames pools rs stat d0 d1
  have hd0 : d.Goes [.out, .ash, .pcie, .msixHeld, .buf] d0 := (Dev.Goes.refl _ _).each _ _ fun d r => Dev.Goes.within (Dev.ringEmpty_goes _ _ _ _)
  have hd1 : d.Goes [.out, .ash, .pcie, .msixHeld, .buf] d1 := (hd0.dropRegs _ _).setPcie _
  exact (hd1.each _ _ fun d p => (Dev.Goes.refl _ _).when _ _ fun d => (Dev.Goes.refl _ _).set _ _).each _ _ fun d r => (Dev.Goes.refl _ _).set _ _

theorem Dev.rollback_goes (d : Dev) (w : ℕ) (sc : ℕ) (sfn : ℕ) (prof : ℕ) : d.Goes [.out, .ash, .msixHeld, .scs] (Dev.rollback d w sc sfn prof) := by
  unfold Dev.rollback
  split
  · exact Dev.Goes.refl _ _
  · refine Dev.Goes.ite (Dev.Goes.refl _ _) ?_
    · extract_lets +onlyGivenNames seen
      refine Dev.Goes.ite ((Dev.Goes.refl _ _).setSc _ _ _) ?_
      · extract_lets +onlyGivenNames d1 cur
        have hd1 : d.Goes [.out, .ash, .msixHeld, .scs] d1 := (Dev.Goes.refl _ _).setSc _ _ _
        refine Dev.Goes.ite ?_ hd1
        · extract_lets +onlyGivenNames d2 d3
          have hd2 : d.Goes [.out, .ash, .msixHeld, .scs] d2 := hd1.setSc _ _ _
          have hd3 : d.Goes [.out, .ash, .msixHeld, .scs] d3 := Dev.Goes.ite (hd2.set _ _) hd2
          exact hd3.thn (Dev.sfEvent_goes _ _ _ _)

theorem Dev.ruleEcc_goes (d : Dev) (r : ℕ) : d.Goes [.out, .ash, .msixHeld, .pkt] (Dev.ruleEcc d r) := by
  unfold Dev.ruleEcc
  exact (Dev.Goes.refl _ _).when _ _ fun d => (((Dev.Goes.refl _ _).setRule _ _).set _ _).raise _ _

theorem Dev.runOver_goes (fz : Fuses) (d : Dev) (reload : Bool) : d.Goes [.free, .out, .blown, .time, .ash, .img, .ember, .spr, .pwr, .pcie, .msixHeld, .engines, .convs, .waves, .scs, .grps, .crys, .pkt, .buf, .macs, .lanes, .inj, .reclaim] (Dev.runOver fz d reload) := by
  unfold Dev.runOver
  split
  · exact Dev.Goes.within (Dev.reloadDone_goes _ _ _ _)
  · exact Dev.Goes.within (Dev.powerGo_goes _)

theorem Dev.searchTest_goes (d : Dev) (w : ℕ) (sc : ℕ) (pos : ℕ) (good : Bool) (m : AwMatch) : d.Goes [.engines, .waves, .scs, .grps, .crys] (Dev.searchTest d w sc pos good m) := by
  unfold Dev.searchTest
  extract_lets +onlyGivenNames cs
  split
  · exact Dev.Goes.ite (Dev.Goes.within (Dev.openCand_goes _ _ _ _ _ _)) (Dev.Goes.refl _ _)
  · extract_lets +onlyGivenNames rest
    exact Dev.Goes.ite (Dev.Goes.ite (Dev.Goes.within (Dev.toAligned_goes _ _ _ _ _)) ((Dev.Goes.refl _ _).setSc _ _ _)) (Dev.Goes.ite (Dev.Goes.within (Dev.openCand_goes _ _ _ _ _ _)) (((Dev.Goes.refl _ _).setSc _ _ _).set _ _))

theorem Dev.sendPause_goes (d : Dev) (p : ℕ) (t : ℕ) : d.Goes [.out, .ash, .msixHeld, .pkt, .buf, .macs, .inj] (Dev.sendPause d p t) := by
  unfold Dev.sendPause
  exact (((Dev.Goes.within (Dev.leaveLpi_goes _ _)).setMac _ _).thn (Dev.sendGen_goes _ _)).count _ _

theorem Dev.serveLoaded_goes (d : Dev) (e : ℕ) : d.Goes [.out, .time, .ash, .spr, .msixHeld, .engines, .waves] (Dev.serveLoaded d e) := by
  unfold Dev.serveLoaded
  split
  · exact (Dev.Goes.refl _ _).setSpr1 _ _
  · extract_lets +onlyGivenNames d1 d2
    have hd1 : d.Goes [.out, .time, .ash, .spr, .msixHeld, .engines, .waves] d1 := by
      unfold d1
      split
      · exact Dev.Goes.within (Dev.loadSnap_goes _ _ _ _)
      · exact Dev.Goes.refl _ _
    have hd2 : d.Goes [.out, .time, .ash, .spr, .msixHeld, .engines, .waves] d2 := (hd1.setSpr1 _ _).when _ _ fun d => (Dev.Goes.within (Dev.select_goes _ _ _)).thn (Dev.connect_goes _ _ _)
    exact ((hd2.thn (Dev.catchUp_goes _ _ _)).thn (Dev.discipline_goes _)).thn (Dev.txRefresh_goes _)

theorem Dev.shaperCharge_goes (d : Dev) (q : ℕ) (len : ℕ) : d.Goes [.buf] (Dev.shaperCharge d q len) := by
  unfold Dev.shaperCharge
  extract_lets +onlyGivenNames g d1
  have hd1 : d.Goes [.buf] d1 := (Dev.Goes.refl _ _).when _ _ fun d => (Dev.Goes.refl _ _).setQueue _ _
  exact hd1.when _ _ fun d => (Dev.Goes.refl _ _).setBuf _

theorem Dev.showSlots_goes (d : Dev) (a : Option Image) (b : Option Image) : d.Goes [] (Dev.showSlots d a b) := by
  unfold Dev.showSlots
  exact ((((Dev.Goes.refl _ _).setFlag _ _).setFlag _ _).set _ _).set _ _

theorem Dev.silenceTick_goes (d : Dev) (w : ℕ) : d.Goes [] (Dev.silenceTick d w) := by
  unfold Dev.silenceTick
  exact (Dev.Goes.refl _ _).when _ _ fun d => (Dev.Goes.refl _ _).set _ _

theorem Dev.skipSnap_goes (d : Dev) (e : ℕ) : d.Goes [.out, .ash, .msixHeld] (Dev.skipSnap d e) := by
  unfold Dev.skipSnap
  exact ((Dev.Goes.refl _ _).count _ _).raise _ _

theorem Dev.smbReturn_goes (d : Dev) (code : Byte) (block : Bool) (b : List Byte) : d.Goes [.out] (Dev.smbReturn d code block b) := by
  unfold Dev.smbReturn
  exact (Dev.Goes.refl _ _).emit _

theorem Dev.Goes.smbTake {l : List Part} {d e : Dev} (h : d.Goes l e) (code own : Byte) (pecOk : Bool) (f : Dev → Dev)
    (hf : ∀ x : Dev, x.Goes l (f x)) (hl : .out ∈ l := by decide) : d.Goes l (e.smbTake code own pecOk f) :=
  Dev.Goes.ite h (Dev.Goes.ite (h.emit _ hl) (Dev.Goes.ite (h.count _ _) (h.thn (hf _) fun _ h => h)))

theorem Dev.sojourn_goes (d : Dev) (q : ℕ) (enq : ℕ) : d.Goes [.out, .ash, .msixHeld, .buf] (Dev.sojourn d q enq) := by
  unfold Dev.sojourn
  extract_lets +onlyGivenNames b n d1
  have hd1 : d.Goes [.out, .ash, .msixHeld, .buf] d1 := (Dev.Goes.refl _ _).setSampler _ _
  exact hd1.when _ _ fun d => (Dev.Goes.refl _ _).raise _ _

theorem Dev.stampStart_goes (d : Dev) (w : ℕ) (kind : ℕ) (n : ℕ) : d.Goes [.time] (Dev.stampStart d w kind n) := by
  unfold Dev.stampStart
  extract_lets +onlyGivenNames t
  exact Dev.Goes.ite ((Dev.Goes.refl _ _).setWl _ _) (Dev.Goes.ite ((Dev.Goes.refl _ _).setWl _ _) ((Dev.Goes.refl _ _).setWl _ _))

theorem Dev.startBare_goes (d : Dev) (w : ℕ) (e : ℕ) : d.Goes [.out, .ash, .msixHeld, .engines, .convs, .waves] (Dev.startBare d w e) := by
  unfold Dev.startBare
  extract_lets +onlyGivenNames d0 d1
  have hd0 : d.Goes [.out, .ash, .msixHeld, .engines, .convs, .waves] d0 := ((Dev.Goes.refl _ _).setEng _ _).set _ _
  have hd1 : d.Goes [.out, .ash, .msixHeld, .engines, .convs, .waves] d1 := hd0.when _ _ fun d => (Dev.Goes.within (Dev.takeFramerCopy_goes _ _ _)).each _ _ fun d k => (Dev.Goes.refl _ _).set _ _
  exact hd1.setConv _ _

theorem Dev.steerBy_goes (d : Dev) (e : ℕ) : d.Goes [.time] (Dev.steerBy d e) := by
  unfold Dev.steerBy
  exact (Dev.Goes.refl _ _).when _ _ fun d => Dev.Goes.within (Dev.aim_goes _)

theorem Dev.superframeSent_goes (d : Dev) (w : ℕ) (n : ℕ) : d.Goes [.out, .ash, .msixHeld, .engines, .waves, .scs] (Dev.superframeSent d w n) := by
  unfold Dev.superframeSent
  extract_lets +onlyGivenNames v d1
  have hd1 : d.Goes [.out, .ash, .msixHeld, .engines, .waves, .scs] d1 := Dev.Goes.ite (Dev.Goes.refl _ _) (Dev.Goes.within (Dev.sendFrames_goes _ _ _ _))
  exact hd1.setWave _ _

theorem Dev.tailFirst_goes (d : Dev) (tx : Bool) (r : ℕ) (tail : Option (BitVec 17)) : d.Goes [.out] (Dev.tailFirst d tx r tail) := by
  unfold Dev.tailFirst
  split
  · exact Dev.Goes.refl _ _
  · exact (Dev.Goes.refl _ _).when _ _ fun d => ((Dev.Goes.refl _ _).set _ _).emit _

theorem Dev.takeHeader_goes (d : Dev) (w : ℕ) (sc : ℕ) (h : Header) : d.Goes [.out, .ash, .msixHeld, .engines, .waves, .scs] (Dev.takeHeader d w sc h) := by
  unfold Dev.takeHeader
  extract_lets +onlyGivenNames d1 d2
  have hd1 : d.Goes [.out, .ash, .msixHeld, .engines, .waves, .scs] d1 := Dev.Goes.within (Dev.goodHeader_goes _ _ _ _)
  have hd2 : d.Goes [.out, .ash, .msixHeld, .engines, .waves, .scs] d2 := ((hd1.thn (Dev.rdiRx_goes _ _ _ _)).thn (Dev.rollback_goes _ _ _ _ _)).thn (Dev.headerMode_goes _ _ _ _ _)
  exact (hd2.thn (Dev.beaconLocked_goes _ _ _)).thn (Dev.predictNext_goes _ _ _)

theorem Dev.takeLearn_goes (d : Dev) : d.Goes [.out, .ash, .msixHeld, .pkt] (Dev.takeLearn d) := by
  unfold Dev.takeLearn
  extract_lets +onlyGivenNames d1
  have hd1 : d.Goes [.out, .ash, .msixHeld, .pkt] d1 := Dev.Goes.within (Dev.learnHead_goes _)
  exact Dev.Goes.ite ((hd1.thn (Dev.emtNext_goes _)).setPkt _) (hd1.setPkt _)

theorem Dev.takeWave_goes (d : Dev) (m : Move) : d.Goes [.out, .time, .ash, .spr, .msixHeld, .engines, .convs, .waves] (Dev.takeWave d m) := by
  unfold Dev.takeWave
  extract_lets +onlyGivenNames d1 d2 d3
  have hd1 : d.Goes [.out, .time, .ash, .spr, .msixHeld, .engines, .convs, .waves] d1 := by
    unfold d1
    split
    · exact Dev.Goes.within (Dev.loadSnap_goes _ _ _ _)
    · exact (Dev.Goes.within (Dev.startBare_goes _ _ _)).set _ _
  have hd2 : d.Goes [.out, .time, .ash, .spr, .msixHeld, .engines, .convs, .waves] d2 := (((hd1.thn (Dev.dropDue_goes _ _)).setSpr1 _ _).setSpr _).thn (Dev.give_goes _ _ _)
  have hd3 : d.Goes [.out, .time, .ash, .spr, .msixHeld, .engines, .convs, .waves] d3 := ((hd2.setWave _ _).thn (Dev.selectRx_goes _ _ _)).when _ _ fun d => Dev.Goes.within (Dev.connect_goes _ _ _)
  exact ((hd3.thn (Dev.discipline_goes _)).thn (Dev.txRefresh_goes _)).thn (Dev.sprShow_goes _)

theorem Dev.tapStep_goes (d : Dev) (l : ℕ) (t : Tap) (up : Bool) : d.Goes [] (Dev.tapStep d l t up).1 := by
  unfold Dev.tapStep
  extract_lets +onlyGivenNames lrx limit
  refine Dev.Goes.ite_fst ((Dev.Goes.refl _ _).pair _) (Dev.Goes.ite_fst ((Dev.Goes.refl _ _).pair _) ?_)
  · extract_lets +onlyGivenNames v d1 out
    have hd1 : d.Goes [] d1 := (Dev.Goes.refl _ _).setInt _ _
    exact Dev.Goes.ite_fst ((Dev.Goes.refl _ _).pair _) ((hd1.setInt _ _).pair _)

theorem Dev.tick_goes (d : Dev) : d.Goes [.out, .time, .ash, .msixHeld, .engines, .waves, .scs, .pkt, .buf, .macs, .inj] (Dev.tick d) := by
  unfold Dev.tick
  extract_lets +onlyGivenNames d0
  have hd0 : d.Goes [.out, .time, .ash, .msixHeld, .engines, .waves, .scs, .pkt, .buf, .macs, .inj] d0 := Dev.Goes.within (Dev.passTicks_goes _ _)
  exact Dev.Goes.ite ((hd0.thn (Dev.moveTime_goes _ _)).thn (Dev.applyStep_goes _)) hd0

theorem Dev.ticksOn_goes (d : Dev) (n : ℕ) : d.Goes [.out, .time, .ash, .msixHeld, .engines, .waves, .scs, .pkt, .buf, .macs, .inj] (Dev.ticksOn d n) := by
  unfold Dev.ticksOn
  exact (Dev.Goes.within (Dev.passTicks_goes _ _)).when _ _ fun d => Dev.Goes.within (Dev.moveTime_goes _ _)

theorem Dev.tinderWake_goes (d : Dev) (p : ℕ) : d.Goes [.free, .out, .ash, .ember, .pwr, .pcie, .msixHeld, .engines, .waves, .pkt, .buf, .macs, .lanes] (Dev.tinderWake d p) := by
  unfold Dev.tinderWake
  extract_lets +onlyGivenNames c
  refine Dev.Goes.ite ((Dev.Goes.within (Dev.unpark_goes _ _)).when _ _ fun d => Dev.Goes.within (Dev.autoFull_goes _)) ?_
  · extract_lets +onlyGivenNames d1
    have hd1 : d.Goes [.free, .out, .ash, .ember, .pwr, .pcie, .msixHeld, .engines, .waves, .pkt, .buf, .macs, .lanes] d1 := (Dev.Goes.refl _ _).setPwr _
    exact Dev.Goes.ite (hd1.thn (Dev.autoFull_goes _)) (hd1.when _ _ fun d => Dev.Goes.within (Dev.cordWake_goes _ _ _))

theorem Dev.toBoundary_goes (d : Dev) (w : ℕ) : d.Goes [.out, .time, .ash, .msixHeld, .engines, .waves, .scs, .pkt, .buf, .macs, .inj] (Dev.toBoundary d w) := by
  unfold Dev.toBoundary
  extract_lets +onlyGivenNames r
  exact Dev.Goes.ite (Dev.Goes.refl _ _) ((Dev.Goes.within (Dev.tick_goes _)).thn (Dev.ticksOn_goes _ _))

theorem Dev.trainEye_goes (d : Dev) (l : ℕ) (height : ℕ) : d.Goes [.free, .out, .lanes] (Dev.trainEye d l height) := by
  unfold Dev.trainEye
  extract_lets +onlyGivenNames x
  refine Dev.Goes.ite (Dev.Goes.refl _ _) (Dev.Goes.ite ?_ (((Dev.Goes.refl _ _).setLane _ _).emit _))
  · extract_lets +onlyGivenNames r tap
    exact (((Dev.Goes.refl _ _).with_free _).setLane _ _).emit _

theorem Dev.trdDown_goes (d : Dev) (w : ℕ) : d.Goes [.out, .ash, .msixHeld] (Dev.trdDown d w) := by
  unfold Dev.trdDown
  exact (Dev.Goes.refl _ _).when _ _ fun d => ((Dev.Goes.refl _ _).set _ _).raise _ _

theorem Dev.trdFail_goes (d : Dev) (w : ℕ) : d.Goes [.convs] (Dev.trdFail d w) := by
  unfold Dev.trdFail
  exact (Dev.Goes.refl _ _).setConv _ _

theorem Dev.trdReportFail_goes (d : Dev) (w : ℕ) (src : TrdSource) (cmd : ℕ) (timeout : Bool) : d.Goes [.out, .ash, .msixHeld, .engines] (Dev.trdReportFail d w src cmd timeout) := by
  unfold Dev.trdReportFail
  split
  · exact Dev.Goes.within (Dev.laserFailed_goes _ _ _)
  · split
    · exact (Dev.Goes.refl _ _).when _ _ fun d => ((Dev.Goes.refl _ _).set _ _).thn (Dev.rxEvent_goes _ _ _ _)
    · exact Dev.Goes.refl _ _
  · exact Dev.Goes.refl _ _
  · exact Dev.Goes.refl _ _
  · exact Dev.Goes.refl _ _

theorem Dev.trdResult_goes (d : Dev) (w : ℕ) (src : TrdSource) (res : ℕ) : d.Goes [] (Dev.trdResult d w src res) := by
  unfold Dev.trdResult
  exact (Dev.Goes.refl _ _).when _ _ fun d => ((Dev.Goes.refl _ _).set _ _).set _ _

theorem Dev.tripReload_goes (d : Dev) : d.Goes [.free, .out, .ash, .img, .ember, .pwr, .pcie, .msixHeld, .engines, .waves, .pkt, .buf, .macs, .lanes] (Dev.tripReload d) := by
  unfold Dev.tripReload
  split
  · exact Dev.Goes.ite ((Dev.Goes.within (Dev.reloadFailEvent_goes _ _)).thn (Dev.reloadEnd_goes _ _ _)) (Dev.Goes.refl _ _)
  · exact Dev.Goes.refl _ _

theorem Dev.tripRoles_goes (d : Dev) : d.Goes [.spr, .waves] (Dev.tripRoles d) := by
  unfold Dev.tripRoles
  extract_lets +onlyGivenNames d1 d1' d2
  have hd1 : d.Goes [.spr, .waves] d1 := by
    unfold d1
    split
    · exact Dev.Goes.ite ((((Dev.Goes.within (Dev.give_goes _ _ _)).thn (Dev.setRole_goes _ _ _)).setSpr _).setWave _ _) (Dev.Goes.within (Dev.setRole_goes _ _ _))
    · exact Dev.Goes.refl _ _
  have hd1' : d.Goes [.spr, .waves] d1' := by
    unfold d1'
    split
    · exact Dev.Goes.ite (hd1.setSpr _) hd1
    · exact hd1
  have hd2 : d.Goes [.spr, .waves] d2 := hd1'.each _ _ fun d e => (Dev.Goes.refl _ _).setSpr1 _ _
  exact ((hd2.setSpr _).set _ _).thn (Dev.sprShow_goes _)

theorem Dev.tripTrans_goes (d : Dev) : d.Goes [.out, .ash, .pwr, .msixHeld] (Dev.tripTrans d) := by
  unfold Dev.tripTrans
  split
  · exact (((Dev.Goes.within (Dev.pwrAbort_goes _ _)).setPwr _).set _ _).set _ _
  · exact Dev.Goes.refl _ _

theorem Dev.txBad_goes (d : Dev) (r : ℕ) (st : ℕ) : d.Goes [.out, .ash, .msixHeld] (Dev.txBad d r st) := by
  unfold Dev.txBad
  exact ((Dev.Goes.refl _ _).count _ _).thn (Dev.ringEvent_goes _ _ _ _ _)

theorem Dev.txSettle_goes (d : Dev) (r : ℕ) : d.Goes [.out, .pcie, .msixHeld] (Dev.txSettle d r) := by
  unfold Dev.txSettle
  extract_lets +onlyGivenNames l done h
  exact Dev.Goes.ite (Dev.Goes.refl _ _) ((((Dev.Goes.refl _ _).each _ _ fun d t => Dev.Goes.within (Dev.txDone_goes _ _ _ _)).setRing _ _ _).thn (Dev.ringPass_goes _ _ _ _))

theorem Dev.updCheck_goes (fz : Fuses) (d : Dev) (u : UpdSession) : d.Goes [] (Dev.updCheck fz d u).1 := by
  unfold Dev.updCheck
  refine Dev.Goes.ite_fst ((Dev.Goes.within (Dev.fwDisputed_goes _ _)).pair _) ?_
  · extract_lets +onlyGivenNames i
    exact (Dev.Goes.within (Dev.showSlot_goes _ _ _)).pair _

theorem Dev.updOver_goes (d : Dev) (res : ℕ) : d.Goes [.free, .out, .ash, .hearth, .msixHeld] (Dev.updOver d res) := by
  unfold Dev.updOver
  exact (((((Dev.Goes.refl _ _).setHearth _).set _ _).set _ _).raise _ _).thn (Dev.ashNote_goes _ _)

theorem Dev.verifyFail_goes (d : Dev) (e : ℕ) : d.Goes [.out, .ash, .msixHeld, .engines] (Dev.verifyFail d e) := by
  unfold Dev.verifyFail
  extract_lets +onlyGivenNames est
  exact ((Dev.Goes.refl _ _).setEng _ _).thn (Dev.startAcq_goes _ _ _)

theorem Dev.wakeTimeout_goes (fz : Fuses) (d : Dev) (c : ℕ) : d.Goes [.free, .out, .blown, .time, .ash, .img, .ember, .spr, .pwr, .pcie, .msixHeld, .engines, .convs, .waves, .scs, .grps, .crys, .pkt, .buf, .macs, .lanes, .inj, .reclaim] (Dev.wakeTimeout fz d c) := by
  unfold Dev.wakeTimeout
  refine Dev.Goes.ite (Dev.Goes.refl _ _) ?_
  extract_lets +onlyGivenNames e why d1 lost d2
  have hd1 : d.Goes [.free, .out, .blown, .time, .ash, .img, .ember, .spr, .pwr, .pcie, .msixHeld, .engines, .convs, .waves, .scs, .grps, .crys, .pkt, .buf, .macs, .lanes, .inj, .reclaim] d1 := Dev.Goes.within (Dev.cordFail_goes _ _ _)
  have hlost : d.Goes [.free, .out, .blown, .time, .ash, .img, .ember, .spr, .pwr, .pcie, .msixHeld, .engines, .convs, .waves, .scs, .grps, .crys, .pkt, .buf, .macs, .lanes, .inj, .reclaim] lost := (hd1.setSpr1 _ _).thn (Dev.incomingLost_goes _ _)
  have hd2 : d.Goes [.free, .out, .blown, .time, .ash, .img, .ember, .spr, .pwr, .pcie, .msixHeld, .engines, .convs, .waves, .scs, .grps, .crys, .pkt, .buf, .macs, .lanes, .inj, .reclaim] d2 := by
    refine Dev.Goes.ite ?_ hd1
    split
    · exact (hlost.thn (Dev.setRole_goes _ _ _)).thn (Dev.noEngine_goes _ _)
    · exact (hlost.when _ _ fun d => Dev.Goes.within (Dev.setRole_goes _ _ _)).thn (Dev.sprShow_goes _)
  clear_value why d2
  split
  · exact hd2.thn (Dev.reloadEnd_goes _ _ _)
  · exact ((hd2.when _ _ fun d => Dev.Goes.within (Dev.wantAbort_goes _ _)).thn (Dev.reloadAfter_goes _ _)).thn (Dev.powerGo_goes _)

theorem Dev.writeSnap_goes (d : Dev) (e : ℕ) (w : ℕ) : d.Goes [.free, .ember] (Dev.writeSnap d e w) := by
  unfold Dev.writeSnap
  extract_lets +onlyGivenNames seq area sfn s
  exact (((Dev.Goes.refl _ _).with_free _).setEmber _ fun h => h).thn (Dev.snapShow_goes _ _)

end Sys2Proof.Machine
end

section
/-!
PROOFS. What every command and every tick leaves in form (O60).
-/

namespace Sys2Proof.Machine

set_option Elab.async false

/-! ### What every command leaves in form (R348) -/

/-- Every part of a device beside its registers. -/
def Part.all : List Part :=
  [.free, .out, .inReset, .powered, .blown, .aerrAdr, .straps, .time, .ash, .hearth, .img, .ember, .spr, .pwr, .waiting, .pcie, .msixTable, .msixHeld,
    .engines, .convs, .waves, .scs, .grps, .crys, .pkt, .buf, .macs, .lanes, .inj, .tap, .reclaim]

/-- Where an outcome is a next state, what the state before it has in form the next one has. -/
def State.Stays (s : State) (o : Host.Outcome State Fault Refusal) : Prop := ∀ t, o = .next t → s.dev.Formed → t.dev.Formed

theorem State.run_stays {s : State} {f : Fuses → Dev → Dev} (hf : ∀ d : Dev, d.Goes Part.all (f s.fuses d)) : s.Stays (s.run f) := by
  rintro t ht h
  obtain rfl := Host.Outcome.next.inj (ht.symm.trans (State.run_eq s f))
  obtain ⟨htime, hregs, hmram, hember⟩ := (hf (s.dev.setOut [])).form ⟨h.time, h.regs, h.mram, h.ember⟩
  exact ⟨htime, hregs, hmram, hember⟩

theorem State.runServe_stays {s : State} {f : Fuses → Dev → Dev} (hf : ∀ d : Dev, d.Goes Part.all (f s.fuses d)) : s.Stays (s.runServe f) :=
  State.run_stays fun d => (hf d).thn (Dev.serve_goes _ _)

theorem State.hostWrite_stays (s : State) (a : ℕ) (v : Word) : s.Stays (s.hostWrite a v) :=
  State.run_stays fun _ => Dev.Goes.within (Dev.arrive_goes _ _ _ _ _ _)

theorem State.hostRead_stays (s : State) (a : ℕ) : s.Stays (s.hostRead a) :=
  State.run_stays fun _ => Dev.Goes.within (Dev.arrive_goes _ _ _ _ _ _)

theorem State.hostField_stays (s : State) (f : Fld) (x : ℕ) (written : List (BitVec 64)) : s.Stays (s.hostField f x written) :=
  State.run_stays fun _ => Dev.Goes.within (Dev.arrive_goes _ _ _ _ _ _)

theorem State.clsReads_stays (s : State) (v : Word) (bad : Bool) : s.Stays (s.clsReads v bad) :=
  State.run_stays fun d => by
    have hd : d.Goes Part.all (d.arrive s.fuses R.pktClsCmd 4 (some v) []) := Dev.Goes.within (Dev.arrive_goes _ _ _ _ _ _)
    exact hd.when _ _ fun d => (Dev.Goes.within (Dev.ruleEcc_goes _ _)).thn (Dev.clsGo_goes _ _)

theorem State.emtWrite_stays (s : State) (v : Word) (bad : List ℕ) : s.Stays (s.emtWrite v bad) :=
  State.run_stays fun _ => (((Dev.Goes.refl _ _).setPkt _).thn (Dev.arrive_goes _ _ _ _ _ _)).setPkt _

/-- Another reset state, supply, set of straps or instruction of the test port keeps what is in form in form. -/
theorem Dev.Goes.repowered {d e : Dev} (h : d.Goes Part.all e) (r p : Bool) (n : ℕ) (i : TapInstr) :
    d.Goes Part.all { e with inReset := r, powered := p, straps := n, tap := i } :=
  Dev.Moves.trans h ⟨fun x hx => by
    cases x
    case inReset | powered | straps | tap => exact absurd (by decide) hx
    all_goals rfl, fun _ _ => rfl, fun hf => ⟨hf.time, hf.regs, hf.mram, hf.ember⟩⟩

theorem Dev.Goes.mbxWrote {d : Dev} {x : Dev × ℕ} (h : d.Goes Part.all x.1) (q : MbxReq) (data : List Byte) : d.Goes Part.all (Dev.mbxWrote x q data) :=
  Dev.Goes.ite (h.thn (Dev.mbxEnd_goes _ _ _ _)) (h.thn (Dev.mbxEnd_goes _ _ _ _))

theorem State.mailbox_stays {s : State} {mine : ℕ → Bool} {f : Fuses → Dev → MbxReq → Dev} (hf : ∀ (d : Dev) q, d.Goes Part.all (f s.fuses d q)) :
    s.Stays (s.mailbox mine f) :=
  State.runServe_stays fun d => by
    split
    · exact Dev.Goes.refl _ _
    · next q _ _ =>
      exact Dev.Goes.ite (Dev.Goes.refl _ _) (Dev.Goes.ite (Dev.Goes.within (Dev.mbxEnd_goes _ _ _ _))
        (Dev.Goes.ite (Dev.Goes.within (Dev.mbxEnd_goes _ _ _ _)) (hf _ _)))


theorem execAccessWake_stays (a : BitVec 28) (write : Option Word) (s : State) : s.Stays (execAccessWake a write s) :=
  State.run_stays fun d => Dev.Goes.within (Dev.arrive_goes _ _ _ _ _ _)

theorem execAck_stays (w : Fin 2) (amtype : Byte) (amseq : BitVec 16) (result : Byte) (_esfn : Word) (s : State) : s.Stays (execAck w amtype amseq result _esfn s) :=
  State.run_stays fun d => Dev.Goes.within (Dev.ack_goes _ _ _ _ _)

theorem execAckResend_stays (w : Fin 2) (s : State) : s.Stays (execAckResend w s) := by
  refine State.run_stays fun d => ?_
  extract_lets +onlyGivenNames live
  exact (Dev.Goes.refl _ _).setWave _ _

theorem execAcqTimeout_stays (e : Fin 3) (s : State) : s.Stays (execAcqTimeout e s) := by
  refine State.run_stays fun d => ?_
  extract_lets +onlyGivenNames a
  exact (Dev.Goes.refl _ _).when _ _ fun d => (Dev.Goes.within (Dev.rxEvent_goes _ _ _ _)).thn (Dev.startAcq_goes _ _ _)

theorem execAcquisitionStart_stays (e : Fin 3) (s : State) : s.Stays (execAcquisitionStart e s) :=
  State.run_stays fun d => (Dev.Goes.refl _ _).when _ _ fun d => Dev.Goes.within (Dev.startAcq_goes _ _ _)

theorem execActivate_stays (v : Word) (s : State) : s.Stays (execActivate v s) := State.hostWrite_stays _ _ _

theorem execAdcClip_stays (w : Fin 2) (ch : Fin 4) (clips : ℕ) (s : State) : s.Stays (execAdcClip w ch clips s) := by
  refine State.run_stays fun d => ?_
  extract_lets +onlyGivenNames now m m'
  refine (Dev.Goes.refl _ _).when _ _ fun d => ?_
  · extract_lets +onlyGivenNames d1
    have hd1 : d.Goes Part.all d1 := ((Dev.Goes.refl _ _).setConv _ _).setFlag _ _
    exact hd1.when _ _ fun d => (((Dev.Goes.refl _ _).set _ _).count _ _).when _ _ fun d => Dev.Goes.within (Dev.inputEvent_goes _ _ _ _)

theorem execAerrRead_stays (s : State) : s.Stays (execAerrRead s) := State.hostRead_stays _ _

theorem execAgeStep_stays (v : Word) (s : State) : s.Stays (execAgeStep v s) := State.hostWrite_stays _ _ _

theorem execAgerPassEnd_stays (bad : List ℕ) (s : State) : s.Stays (execAgerPassEnd bad s) := by
  refine State.run_stays fun d₀ => ?_
  refine Dev.Goes.ite (Dev.Goes.refl _ _) ?_
  · extract_lets +onlyGivenNames d old dead
    have hd : d₀.Goes Part.all d := (Dev.Goes.refl _ _).each _ _ fun d i => Dev.Goes.within (Dev.slotEcc_goes _ _)
    exact hd.thn (Dev.emtOffer_goes _ _)

theorem execAlignmentTest_stays (w : Fin 2) (sc : Fin 32) (pos : ℕ) (signs : BitVec 512) (s : State) : s.Stays (execAlignmentTest w sc pos signs s) := by
  refine State.run_stays fun d => ?_
  extract_lets +onlyGivenNames m good st
  refine Dev.Goes.ite (Dev.Goes.refl _ _) (Dev.Goes.ite ((Dev.Goes.refl _ _).when _ _ fun d => Dev.Goes.within (Dev.gapTest_goes _ _ _ _ _ _)) (Dev.Goes.ite ?_ (Dev.Goes.ite (Dev.Goes.ite ?_ (Dev.Goes.refl _ _)) (Dev.Goes.refl _ _))))
  · extract_lets +onlyGivenNames d1
    have hd1 : d.Goes Part.all d1 := Dev.Goes.within (Dev.searchTest_goes _ _ _ _ _ _)
    exact hd1.when _ _ fun d => Dev.Goes.within (Dev.beaconBack_goes _ _)
  · extract_lets +onlyGivenNames bcn r
    have hr : d.Goes Part.all r.1 := Dev.Goes.within (Dev.alignedTest_goes _ _ _ _ _ _)
    exact hr.when _ _ fun d => Dev.Goes.within (Dev.beaconLost_goes _ _)

theorem execAshLogEntry_stays (s : State) : s.Stays (execAshLogEntry s) := by
  refine State.run_stays fun d => ?_
  split
  · exact Dev.Goes.refl _ _
  · refine Dev.Goes.ite (Dev.Goes.refl _ _) ?_
    · extract_lets +onlyGivenNames e __src
      have h__src : d.Goes Part.all __src := Dev.Goes.within (Dev.mramPut_goes _ _ _)
      exact h__src.with_ash _

theorem execAssignId_stays (w : Fin 2) (serial : BitVec 64) (tid : BitVec 16) (s : State) : s.Stays (execAssignId w serial tid s) :=
  State.run_stays fun d => Dev.Goes.within (Dev.assignId_goes _ _ _ _ _)

theorem execAutonegDone_stays (l : Fin 96) (own : Bool) (offer : BitVec 4) (s : State) : s.Stays (execAutonegDone l own offer s) :=
  State.run_stays fun d => Dev.Goes.ite (Dev.Goes.refl _ _) (Dev.Goes.ite ((((Dev.Goes.refl _ _).setLane _ _).thn (Dev.enterTrain_goes _ _)).thn (Dev.laneEvent_goes _ _ _ _)) (Dev.Goes.within (Dev.laneFail_goes _ _ _ _)))

theorem execBlosstoExpiry_stays (w : Fin 2) (s : State) : s.Stays (execBlosstoExpiry w s) :=
  State.run_stays fun d => (Dev.Goes.refl _ _).when _ _ fun d => (((Dev.Goes.within (Dev.dropTid_goes _ _)).set _ _).thn (Dev.setAct_goes _ _ _)).thn (Dev.actTimeout_goes _ _)

theorem execBootSelection_stays (s : State) : s.Stays (execBootSelection s) := by
  refine State.runServe_stays fun d => ?_
  refine Dev.Goes.ite (Dev.Goes.refl _ _) ?_
  · extract_lets +onlyGivenNames a b d1
    have hd1 : d.Goes Part.all d1 := (((Dev.Goes.within (Dev.showSlots_goes _ _ _)).thn (Dev.slotBad_goes _ _)).thn (Dev.slotBad_goes _ _)).set _ _
    split
    · exact (hd1.set _ _).raise _ _
    · split
      · exact hd1
      · extract_lets +onlyGivenNames d2
        have hd2 : d.Goes Part.all d2 := (hd1.thn (Dev.takeImage_goes _ _ _)).when _ _ fun d => ((Dev.Goes.refl _ _).set _ _).raise _ _
        exact (hd2.raise _ _).thn (Dev.bootApply_goes _ _)

theorem execBufferFree_stays (b : BitVec 25) (agent : ℕ) (s : State) : s.Stays (execBufferFree b agent s) :=
  State.run_stays fun d => (Dev.Goes.refl _ _).when _ _ fun d => Dev.Goes.within (Dev.freeBuf_goes _ _ _)

theorem execBufferReclaim_stays (c : Fin 13) (s : State) : s.Stays (execBufferReclaim c s) := by
  refine State.run_stays fun d => ?_
  refine Dev.Goes.ite (Dev.Goes.refl _ _) ?_
  · extract_lets +onlyGivenNames mine d1
    have hd1 : d.Goes Part.all d1 := (Dev.Goes.refl _ _).each _ _ fun d b => Dev.Goes.within (Dev.freeBuf_goes _ _ _)
    exact ((hd1.with_reclaim _).count _ _).raise _ _

theorem execBurstEnd_stays (w : Fin 2) (sc : Fin 32) (tsfn : Word) (start : BitVec 10) (s : State) : s.Stays (execBurstEnd w sc tsfn start s) := by
  refine State.run_stays fun d => ?_
  extract_lets +onlyGivenNames mine
  exact (Dev.Goes.refl _ _).when _ _ fun d => (((Dev.Goes.refl _ _).setWave _ _).count _ _).thn (Dev.txRefresh_goes _)

theorem execBurstStart_stays (w : Fin 2) (sc : Fin 32) (tsfn : Word) (start : BitVec 10) (mism : List ℕ) (s : State) : s.Stays (execBurstStart w sc tsfn start mism s) := by
  refine State.run_stays fun d₀ => ?_
  split
  · exact Dev.Goes.refl _ _
  · extract_lets +onlyGivenNames d v st gid gs
    have hd : d₀.Goes Part.all d := Dev.Goes.within (Dev.txMove_goes _ _ _)
    exact Dev.Goes.ite ((hd.thn (Dev.dropGrants_goes _ _ _)).when _ _ fun d => (Dev.Goes.refl _ _).setWave _ _) (Dev.Goes.ite (hd.thn (Dev.missBurst_goes _ _ _)) (Dev.Goes.ite (((hd.count _ _).thn (Dev.dropGrants_goes _ _ _)).each _ _ fun d x => Dev.Goes.within (Dev.sfEvent_goes _ _ _ _)) (Dev.Goes.ite (hd.thn (Dev.announce_goes _ _ _ _ _)) (hd.thn (Dev.grantedBurst_goes _ _ _ _ _ _)))))

theorem execCad_stays (v : Word) (bad : List ℕ) (s : State) : s.Stays (execCad v bad s) := State.emtWrite_stays _ _ _

theorem execCdDrift_stays (e : Fin 3) (est : ℤ) (s : State) : s.Stays (execCdDrift e est s) := by
  refine State.run_stays fun d => ?_
  refine Dev.Goes.ite ?_ (Dev.Goes.refl _ _)
  · extract_lets +onlyGivenNames d1
    have hd1 : d.Goes Part.all d1 := (Dev.Goes.refl _ _).setInt _ _
    exact hd1.when _ _ fun d => (Dev.Goes.within (Dev.rxEvent_goes _ _ _ _)).setEng _ _

theorem execCdScanDone_stays (e : Fin 3) (est : Option ℤ) (s : State) : s.Stays (execCdScanDone e est s) := by
  refine State.run_stays fun d => ?_
  refine Dev.Goes.ite (Dev.Goes.refl _ _) (Dev.Goes.ite ?_ (Dev.Goes.ite ?_ (Dev.Goes.refl _ _)))
  · split
    · extract_lets +onlyGivenNames g v
      exact Dev.Goes.ite (Dev.Goes.refl _ _) ((((((Dev.Goes.refl _ _).setInt _ _).set _ _).set _ _).set _ _).setEng _ _)
    · exact Dev.Goes.ite ((Dev.Goes.within (Dev.rxEvent_goes _ _ _ _)).thn (Dev.startAcq_goes _ _ _)) ((Dev.Goes.refl _ _).setEng _ _)
  · split
    · exact Dev.Goes.ite (((Dev.Goes.refl _ _).setEng _ _).thn (Dev.advance_goes _ _)) (Dev.Goes.within (Dev.verifyFail_goes _ _))
    · exact Dev.Goes.within (Dev.verifyFail_goes _ _)

theorem execCellRx_stays (w : Fin 2) (sc : Fin 32) (k : ℕ) (uncorr : Bool) (cell : List Byte) (s : State) : s.Stays (execCellRx w sc k uncorr cell s) :=
  State.run_stays fun d => Dev.Goes.within (Dev.cellArrive_goes _ _ _ _ _ _ _ _)

theorem execCellTx_stays (w : Fin 2) (g : Fin 32) (s : State) : s.Stays (execCellTx w g s) :=
  State.run_stays fun d => Dev.Goes.ite (Dev.Goes.refl _ _) (Dev.Goes.within (Dev.cellBoundary_goes _ _ _ _))

theorem execCfg_stays (s : State) : s.Stays (execCfg s) := by
  refine State.mailbox_stays fun d q => Dev.Goes.ite (Dev.Goes.within (Dev.mbxEnd_goes _ _ _ _)) ?_
  split
  · extract_lets +onlyGivenNames x
    have hx : d.Goes Part.all x.1 := Dev.Goes.within (Dev.regWrite_goes _ _ _ _ _ _ _)
    exact hx.mbxWrote _ _
  · exact Dev.Goes.refl _ _

theorem execCfoAcqDone_stays (e : Fin 3) (cfo : ℤ) (s : State) : s.Stays (execCfoAcqDone e cfo s) :=
  State.run_stays fun d => Dev.Goes.ite (Dev.Goes.refl _ _) (Dev.Goes.ite (Dev.Goes.ite ((((Dev.Goes.refl _ _).setInt _ _).set _ _).thn (Dev.advance_goes _ _)) (Dev.Goes.refl _ _)) (Dev.Goes.ite (Dev.Goes.ite ((((Dev.Goes.refl _ _).setInt _ _).setEng _ _).thn (Dev.advance_goes _ _)) (Dev.Goes.within (Dev.verifyFail_goes _ _))) (Dev.Goes.refl _ _)))

theorem execCfoAcqFail_stays (e : Fin 3) (s : State) : s.Stays (execCfoAcqFail e s) :=
  State.run_stays fun d => Dev.Goes.ite (Dev.Goes.refl _ _) (Dev.Goes.ite ((Dev.Goes.within (Dev.rxEvent_goes _ _ _ _)).thn (Dev.restartFreq_goes _ _)) (Dev.Goes.ite (Dev.Goes.within (Dev.verifyFail_goes _ _)) (Dev.Goes.refl _ _)))

theorem execClockMonitor_stays (m : Fin 4) (ppm : ℤ) (s : State) : s.Stays (execClockMonitor m ppm s) :=
  State.run_stays fun d => Dev.Goes.ite (Dev.Goes.refl _ _) (Dev.Goes.ite (Dev.Goes.within (Dev.clkFault_goes _ _)) (Dev.Goes.within (Dev.clkGood_goes _ _)))

theorem execClsInvalidate_stays (v : Word) (s : State) : s.Stays (execClsInvalidate v s) := State.hostWrite_stays _ _ _

theorem execClsRead_stays (v : Word) (bad : Bool) (s : State) : s.Stays (execClsRead v bad s) := State.clsReads_stays _ _ _

theorem execClsReadclr_stays (v : Word) (bad : Bool) (s : State) : s.Stays (execClsReadclr v bad s) := State.clsReads_stays _ _ _

theorem execClsWrite_stays (v : Word) (s : State) : s.Stays (execClsWrite v s) := State.hostWrite_stays _ _ _

theorem execColdEngineIdleOff_stays (e : Fin 3) (s : State) : s.Stays (execColdEngineIdleOff e s) :=
  State.run_stays fun d => (Dev.Goes.refl _ _).when _ _ fun d => Dev.Goes.within (Dev.cordOff_goes _ _)

theorem execConfigurationRequest_stays (q : CfgReq) (s : State) : s.Stays (execConfigurationRequest q s) := by
  refine State.run_stays fun d => ?_
  refine Dev.Goes.ite (Dev.Goes.refl _ _) ?_
  · split
    · exact (Dev.Goes.refl _ _).emit _
    · exact (Dev.Goes.refl _ _).emit _
    · exact (Dev.Goes.refl _ _).emit _
    · exact ((Dev.Goes.refl _ _).setPcie _).emit _
    · exact ((Dev.Goes.refl _ _).setPcie _).emit _
    · exact ((Dev.Goes.refl _ _).setPcie _).emit _
    · exact (Dev.Goes.refl _ _).emit _
    · exact (Dev.Goes.within (Dev.cfgRegWrite_goes _ _ _)).emit _

theorem execCordClear_stays (c : Fin 13) (s : State) : s.Stays (execCordClear c s) := State.hostField_stays _ _ _ _

theorem execCordOff_stays (c : Fin 13) (s : State) : s.Stays (execCordOff c s) := State.hostField_stays _ _ _ _

theorem execCordOn_stays (c : Fin 13) (s : State) : s.Stays (execCordOn c s) := State.hostField_stays _ _ _ _

theorem execCordReady_stays (c : Fin 13) (badBanks : BitVec 16) (s : State) : s.Stays (execCordReady c badBanks s) :=
  State.runServe_stays fun d => ((Dev.Goes.within (Dev.ready_goes _ _ _ _)).thn (Dev.serve_goes _ _)).thn (Dev.cordCmdDue_goes _ _)

theorem execCorrectableEccError_stays (e : Fin 3) (inSecond : ℕ) (s : State) : s.Stays (execCorrectableEccError e inSecond s) :=
  State.runServe_stays fun d => (Dev.Goes.refl _ _).when _ _ fun d => ((Dev.Goes.refl _ _).count _ _).when _ _ fun d => (((Dev.Goes.refl _ _).with_free _).thn (Dev.engineFault_goes _ _ _ _)).thn (Dev.afterFault_goes _ _)

theorem execCrSlip_stays (e : Fin 3) (sc : Fin 32) (s : State) : s.Stays (execCrSlip e sc s) :=
  State.run_stays fun d => (Dev.Goes.refl _ _).when _ _ fun d => (((Dev.Goes.refl _ _).set _ _).count _ _).thn (Dev.rxEvent_goes _ _ _ _)

theorem execCrUnlock_stays (e : Fin 3) (sc : Fin 32) (s : State) : s.Stays (execCrUnlock e sc s) :=
  State.run_stays fun d => (Dev.Goes.refl _ _).when _ _ fun d => Dev.Goes.within (Dev.dropPhase_goes _ _ _)

theorem execCryClrflt_stays (w : Fin 2) (g : Fin 32) (rx : Bool) (s : State) : s.Stays (execCryClrflt w g rx s) := State.hostField_stays _ _ _ _

theorem execDeact_stays (w : Fin 2) (s : State) : s.Stays (execDeact w s) := State.hostField_stays _ _ _ _

theorem execDecodeSetChange_stays (e : Fin 3) (s : State) : s.Stays (execDecodeSetChange e s) := by
  refine State.run_stays fun d => ?_
  split
  · exact (Dev.Goes.within (Dev.applyDecode_goes _ _)).when _ _ fun d => Dev.Goes.within (Dev.framerDecode_goes _ _ _)
  · exact Dev.Goes.within (Dev.applyDecode_goes _ _)
  · exact Dev.Goes.refl _ _

theorem execDelete_stays (v : Word) (bad : List ℕ) (s : State) : s.Stays (execDelete v bad s) := State.emtWrite_stays _ _ _

theorem execDeviceBringup_stays (straps : Fin 4) (s : State) : s.Stays (execDeviceBringup straps s) := by
  refine State.run_stays fun d => (Dev.Goes.refl _ _).when _ _ fun d => ?_
  have hd1 : d.Goes Part.all ({ d with inReset := false, powered := true, straps := straps }.set F.hrtSmbStatAddr (0x58 + straps)) :=
    ((Dev.Goes.refl _ _).repowered _ _ _ _).set _ _
  exact (hd1.each _ _ fun d i => (Dev.Goes.refl _ _).set _ _).thn (Dev.fwSelect_goes _ _ _)

theorem execDeviceReset_stays (ns : ℕ) (s : State) : s.Stays (execDeviceReset ns s) := by
  unfold execDeviceReset
  split
  · intro t ht
    cases ht
  · exact State.run_stays fun d => (Dev.Goes.refl _ _).when _ _ fun d => Dev.Goes.within (Dev.cleared_goes _ _)

theorem execDiscover_stays (w : Fin 2) (peqd : BitVec 24) (rspread : BitVec 16) (alen : Byte) (bkmax : Byte) (s : State) : s.Stays (execDiscover w peqd rspread alen bkmax s) :=
  State.run_stays fun d => Dev.Goes.within (Dev.discover_goes _ _ _ _ _ _)

theorem execDisctoExpiry_stays (w : Fin 2) (s : State) : s.Stays (execDisctoExpiry w s) :=
  State.run_stays fun d => (Dev.Goes.refl _ _).when _ _ fun d => (Dev.Goes.within (Dev.setAct_goes _ _ _)).thn (Dev.actTimeout_goes _ _)

theorem execDozeSearchStep_stays (s : State) : s.Stays (execDozeSearchStep s) := by
  refine State.run_stays fun d => ?_
  extract_lets +onlyGivenNames w
  refine (Dev.Goes.refl _ _).when _ _ fun d => ?_
  · extract_lets +onlyGivenNames m
    exact Dev.Goes.within (Dev.askDecode_goes _ _ _)

theorem execDrainComplete_stays (c : Fin 13) (s : State) : s.Stays (execDrainComplete c s) :=
  State.runServe_stays fun d => (Dev.Goes.within (Dev.drained_goes _ _)).thn (Dev.cordCmdDue_goes _ _)

theorem execDrainTimeout_stays (c : Fin 13) (units : ℕ) (s : State) : s.Stays (execDrainTimeout c units s) :=
  State.runServe_stays fun d => (Dev.Goes.refl _ _).when _ _ fun d => (((Dev.Goes.refl _ _).count _ _).thn (Dev.drained_goes _ _)).thn (Dev.cordCmdDue_goes _ _)

theorem execEngineFault_stays (e : Fin 3) (cause : Fin 8) (other : Option (Fin 3 × Fin 8)) (lost : ℕ) (s : State) : s.Stays (execEngineFault e cause other lost s) := by
  refine State.runServe_stays fun d => ?_
  extract_lets +onlyGivenNames ok
  split
  · exact (Dev.Goes.refl _ _).when _ _ fun d => (Dev.Goes.within (Dev.engineFault_goes _ _ _ _)).thn (Dev.afterFault_goes _ _)
  · refine (Dev.Goes.refl _ _).when _ _ fun d => ?_
    · extract_lets +onlyGivenNames pri d1
      have hd1 : d.Goes Part.all d1 := Dev.Goes.ite ((Dev.Goes.within (Dev.engineFault_goes _ _ _ _)).thn (Dev.engineFault_goes _ _ _ _)) ((Dev.Goes.within (Dev.engineFault_goes _ _ _ _)).thn (Dev.engineFault_goes _ _ _ _))
      exact hd1.thn (Dev.afterFault_goes _ _)

theorem execEpochAdvance_stays (s : State) : s.Stays (execEpochAdvance s) :=
  State.run_stays fun d => (Dev.Goes.refl _ _).when _ _ fun d => Dev.Goes.within (Dev.epochAdvance_goes _)

theorem execEqConverged_stays (e : Fin 3) (mask : Word) (s : State) : s.Stays (execEqConverged e mask s) :=
  State.run_stays fun d => (Dev.Goes.refl _ _).when _ _ fun d => ((Dev.Goes.refl _ _).each _ _ fun d k => ((Dev.Goes.refl _ _).set _ _).setEng _ _).thn (Dev.advance_goes _ _)

theorem execEqSingular_stays (e : Fin 3) (sc : Fin 32) (s : State) : s.Stays (execEqSingular e sc s) :=
  State.run_stays fun d => (Dev.Goes.refl _ _).when _ _ fun d => (((Dev.Goes.refl _ _).set _ _).set _ _).thn (Dev.rxEvent_goes _ _ _ _)

theorem execEqSopRate_stays (e : Fin 3) (sc : Fin 32) (rate : ℕ) (dgd : ℕ) (s : State) : s.Stays (execEqSopRate e sc rate dgd s) := by
  refine State.run_stays fun d => ?_
  refine Dev.Goes.ite ?_ (Dev.Goes.refl _ _)
  · extract_lets +onlyGivenNames high was d1
    have hd1 : d.Goes Part.all d1 := (((Dev.Goes.refl _ _).set _ _).set _ _).setEng _ _
    exact hd1.when _ _ fun d => Dev.Goes.within (Dev.rxEvent_goes _ _ _ _)

theorem execEventMsienEnable_stays (g : Fin 16) (s : State) : s.Stays (execEventMsienEnable g s) := State.hostField_stays _ _ _ _

theorem execEventStatClear_stays (n : Fin 256) (raised : Bool) (s : State) : s.Stays (execEventStatClear n raised s) := State.hostField_stays _ _ _ _

theorem execEyeMeasure_stays (l : Fin 96) (height : ℕ) (width : ℕ) (snr : ℕ) (s : State) : s.Stays (execEyeMeasure l height width snr s) := by
  refine State.run_stays fun d => ?_
  refine Dev.Goes.ite ((Dev.Goes.refl _ _).when _ _ fun d => Dev.Goes.within (Dev.trainEye_goes _ _ _)) (Dev.Goes.ite (Dev.Goes.refl _ _) ?_)
  · extract_lets +onlyGivenNames low d1
    have hd1 : d.Goes Part.all d1 := ((((Dev.Goes.refl _ _).set _ _).set _ _).set _ _).setLane _ _
    exact hd1.when _ _ fun d => Dev.Goes.within (Dev.laneEvent_goes _ _ _ _)

theorem execFecBlockDecode_stays (w : Fin 2) (sc : Fin 32) (j : ℕ) (a : List ℤ) (b : Option (List ℤ)) (s : State) : s.Stays (execFecBlockDecode w sc j a b s) := by
  refine State.runServe_stays fun d => ?_
  split
  · exact Dev.Goes.refl _ _
  · refine Dev.Goes.ite (Dev.Goes.refl _ _) ?_
    · extract_lets +onlyGivenNames x d1
      have hd1 : d.Goes Part.all d1 := ((Dev.Goes.refl _ _).with_free _).thn (Dev.fecBlock_goes _ _ _ _)
      split
      · exact (hd1.with_free _).thn (Dev.abandonIf_goes _ _ _ _)
      · exact hd1

theorem execFiArm_stays (i : Fin 164) (s : State) : s.Stays (execFiArm i s) := State.hostField_stays _ _ _ _

theorem execFiDisarm_stays (i : Fin 164) (s : State) : s.Stays (execFiDisarm i s) := State.hostField_stays _ _ _ _

theorem execFiHoldTo_stays (i : Fin 164) (s : State) : s.Stays (execFiHoldTo i s) :=
  State.run_stays fun d => (Dev.Goes.refl _ _).when _ _ fun d => (Dev.Goes.within (Dev.fiRelease_goes _ _ _)).thn (Dev.fiEvent_goes _ _ _)

theorem execFiKill_stays (s : State) : s.Stays (execFiKill s) := State.hostField_stays _ _ _ _

theorem execFiUnit_stays (i : Fin 164) (dir : Fin 2) (a : ℕ) (b : ℕ) (bytes : List Byte) (s : State) : s.Stays (execFiUnit i dir a b bytes s) := by
  refine State.run_stays fun d => ?_
  extract_lets +onlyGivenNames cell
  exact (Dev.Goes.refl _ _).when _ _ fun d => (Dev.Goes.refl _ _).through _ _ _ _ _ fun d u => Dev.Goes.within (Dev.fiNext_goes _ _ _ _ _)

theorem execFlt24Expiry_stays (e : Fin 3) (s : State) : s.Stays (execFlt24Expiry e s) :=
  State.run_stays fun _ => (Dev.Goes.refl _ _).set _ _

theorem execForce_stays (v : Word) (s : State) : s.Stays (execForce v s) := State.hostWrite_stays _ _ _

theorem execFrameHeaderRx_stays (w : Fin 2) (sc : Fin 32) (llrs : List (ℤ × ℤ)) (s : State) : s.Stays (execFrameHeaderRx w sc llrs s) := by
  refine State.run_stays fun d₀ => ?_
  refine Dev.Goes.ite (Dev.Goes.refl _ _) ?_
  · extract_lets +onlyGivenNames d
    have hd : d₀.Goes Part.all d := Dev.Goes.within (Dev.catchHeaders_goes _ _ _)
    split
    · exact hd.thn (Dev.predictNext_goes _ _ _)
    · exact Dev.Goes.ite ((hd.thn (Dev.badHeader_goes _ _ _ _)).thn (Dev.predictNext_goes _ _ _)) (Dev.Goes.ite ((hd.thn (Dev.badHeader_goes _ _ _ _)).thn (Dev.predictNext_goes _ _ _)) (hd.thn (Dev.takeHeader_goes _ _ _ _)))

theorem execFwActivate_stays (s : State) : s.Stays (execFwActivate s) := by
  refine State.mailbox_stays fun d q => ?_
  extract_lets +onlyGivenNames a b rec_ k
  refine Dev.Goes.ite (Dev.Goes.within (Dev.mbxEnd_goes _ _ _ _)) (Dev.Goes.ite (Dev.Goes.within (Dev.mbxEnd_goes _ _ _ _)) ?_)
  · split
    · exact Dev.Goes.within (Dev.mbxEnd_goes _ _ _ _)
    · exact Dev.Goes.ite (Dev.Goes.within (Dev.mbxEnd_goes _ _ _ _)) ((Dev.Goes.within (Dev.mbxEnd_goes _ _ _ _)).thn (Dev.runFirmware_goes _ _ _ _))

theorem execGateEntryChange_stays (p : Fin 96) (s : State) : s.Stays (execGateEntryChange p s) :=
  State.run_stays fun d => (Dev.Goes.refl _ _).when _ _ fun d => ((Dev.Goes.refl _ _).setMac _ _).thn (Dev.gateRefresh_goes _ _)

theorem execGclCancel_stays (p : Fin 96) (s : State) : s.Stays (execGclCancel p s) := State.hostField_stays _ _ _ _

theorem execGclCommit_stays (p : Fin 96) (v : Word) (s : State) : s.Stays (execGclCommit p v s) := State.hostWrite_stays _ _ _

theorem execGrantMap_stays (w : Fin 2) (tsfn : Word) (gs : List GrantIn) (s : State) : s.Stays (execGrantMap w tsfn gs s) :=
  State.run_stays fun d => Dev.Goes.within (Dev.grantMap_goes _ _ _ _)

theorem execGroupFirstRead_stays (r : FirstReg) (s : State) : s.Stays (execGroupFirstRead r s) := State.hostRead_stays _ _

theorem execGroupResume_stays (w : Fin 2) (g : Fin 32) (s : State) : s.Stays (execGroupResume w g s) := by
  refine State.run_stays fun d => ?_
  extract_lets +onlyGivenNames m sk
  refine Dev.Goes.ite (Dev.Goes.refl _ _) (Dev.Goes.ite ((Dev.Goes.refl _ _).set _ _) ?_)
  · extract_lets +onlyGivenNames d1
    have hd1 : d.Goes Part.all d1 := (Dev.Goes.refl _ _).set _ _
    refine Dev.Goes.ite (((hd1.thn (Dev.dropHeld_goes _ _ _)).set _ _).when _ _ fun d => Dev.Goes.within (Dev.lfEvent_goes _ _ _ _)) ?_
    · extract_lets +onlyGivenNames d2
      have hd2 : d.Goes Part.all d2 := hd1.each _ _ fun d o => Dev.Goes.within (Dev.dropOpen_goes _ _ _ _)
      exact (hd2.thn (Dev.dropHeld_goes _ _ _)).set _ _

theorem execHaltResume_stays (w : Fin 2) (g : Fin 32) (s : State) : s.Stays (execHaltResume w g s) := by
  refine State.run_stays fun d => ?_
  split
  · exact Dev.Goes.refl _ _
  · refine Dev.Goes.ite ((Dev.Goes.refl _ _).setCry _ _ _) ?_
    · extract_lets +onlyGivenNames d1
      have hd1 : d.Goes Part.all d1 := ((((Dev.Goes.refl _ _).setCry _ _ _).set _ _).set _ _).thn (Dev.cryShow_goes _ _ _)
      exact hd1.when _ _ fun d => Dev.Goes.within (Dev.cryEvent_goes _ _ _ _)

theorem execHoldExpire_stays (s : State) : s.Stays (execHoldExpire s) := by
  refine State.run_stays fun d => ?_
  split
  · exact Dev.Goes.refl _ _
  · extract_lets +onlyGivenNames d1
    have hd1 : d.Goes Part.all d1 := (Dev.Goes.within (Dev.setSlot_goes _ _ _)).setPkt _
    exact hd1.when _ _ fun x => Dev.Goes.within (Dev.takeLearn_goes _)

theorem execIdtoExpiry_stays (w : Fin 2) (s : State) : s.Stays (execIdtoExpiry w s) := by
  refine State.run_stays fun d => ?_
  refine (Dev.Goes.refl _ _).when _ _ fun d => ?_
  · extract_lets +onlyGivenNames k
    exact (((Dev.Goes.refl _ _).with_free _).setWave _ _).thn (Dev.actTimeout_goes _ _)

theorem execInfo_stays (s : State) : s.Stays (execInfo s) :=
  State.mailbox_stays fun d q => Dev.Goes.ite (Dev.Goes.within (Dev.mbxEnd_goes _ _ _ _)) (Dev.Goes.within (Dev.mbxEnd_goes _ _ _ _))

theorem execInsert_stays (v : Word) (bad : List ℕ) (s : State) : s.Stays (execInsert v bad s) := State.emtWrite_stays _ _ _

theorem execKeyErase_stays (w : Fin 2) (v : Word) (s : State) : s.Stays (execKeyErase w v s) := State.hostWrite_stays _ _ _

theorem execKeyLoad_stays (w : Fin 2) (v : Word) (s : State) : s.Stays (execKeyLoad w v s) := State.hostWrite_stays _ _ _

theorem execKeyRevoke_stays (mask : BitVec 4) (s : State) : s.Stays (execKeyRevoke mask s) := State.hostField_stays _ _ _ _

theorem execKeySwitch_stays (w : Fin 2) (tid : BitVec 12) (mseq : BitVec 16) (gid : Byte) (mdir : Byte) (kidx : Byte) (esfn : Word) (s : State) : s.Stays (execKeySwitch w tid mseq gid mdir kidx esfn s) :=
  State.run_stays fun d => Dev.Goes.within (Dev.keySwitch_goes _ _ _ _ _ _ _ _)

theorem execKeySwitchApply_stays (w : Fin 2) (dir : Fin 2) (sfn : Word) (s : State) : s.Stays (execKeySwitchApply w dir sfn s) := by
  refine State.run_stays fun d => ?_
  extract_lets +onlyGivenNames n due d1
  have hd1 : d.Goes Part.all d1 := ((Dev.Goes.refl _ _).setWave _ _).each _ _ fun d p => Dev.Goes.within (Dev.applyKey_goes _ _ _)
  split
  · exact Dev.Goes.ite hd1 (Dev.Goes.ite (((hd1.setWave _ _).set _ _).set _ _) (hd1.thn (Dev.keyAbandon_goes _ _)))
  · exact hd1

theorem execKindlingFrameRx_stays (l : Fin 96) (frame : BitVec 128) (s : State) : s.Stays (execKindlingFrameRx l frame s) := by
  refine State.run_stays fun d => ?_
  extract_lets +onlyGivenNames f msg cseq good
  refine Dev.Goes.ite (Dev.Goes.refl _ _) (Dev.Goes.ite ((Dev.Goes.refl _ _).setLane _ _) ?_)
  · extract_lets +onlyGivenNames was ack d1 d2 d3
    have hd1 : d.Goes Part.all d1 := (((Dev.Goes.refl _ _).set _ _).set _ _).setLane _ _
    have hd2 : d.Goes Part.all d2 := hd1.when _ _ fun d => Dev.Goes.within (Dev.sendKindling_goes _ _)
    have hd3 : d.Goes Part.all d3 := hd2.when _ _ fun d => (Dev.Goes.refl _ _).setLane _ _
    split
    · exact hd3.when _ _ fun d => Dev.Goes.within (Dev.capDone_goes _ _ _)
    · exact hd3

theorem execKswGo_stays (w : Fin 2) (v : Word) (s : State) : s.Stays (execKswGo w v s) := State.hostWrite_stays _ _ _

theorem execLaneFecSecond_stays (l : Fin 96) (corrections : ℕ) (codewords : ℕ) (s : State) : s.Stays (execLaneFecSecond l corrections codewords s) := by
  refine State.run_stays fun d => ?_
  refine Dev.Goes.ite (Dev.Goes.refl _ _) ?_
  · extract_lets +onlyGivenNames high d1
    have hd1 : d.Goes Part.all d1 := ((Dev.Goes.refl _ _).count _ _).when _ _ fun d => (Dev.Goes.refl _ _).count _ _
    exact (hd1.setLane _ _).when _ _ fun d => Dev.Goes.within (Dev.laneEvent_goes _ _ _ _)

theorem execLaserLoopDecision_stays (e : Fin 3) (off : ℤ) (since : ℕ) (s : State) : s.Stays (execLaserLoopDecision e off since s) := by
  refine State.run_stays fun d => ?_
  split
  · exact Dev.Goes.refl _ _
  · refine Dev.Goes.ite (Dev.Goes.refl _ _) (Dev.Goes.ite (Dev.Goes.refl _ _) (Dev.Goes.ite ((Dev.Goes.refl _ _).when _ _ fun d => (Dev.Goes.refl _ _).setEng _ _) (Dev.Goes.ite ((Dev.Goes.refl _ _).when _ _ fun d => Dev.Goes.within (Dev.laserWindow_goes _ _ _)) ?_)))
    · extract_lets +onlyGivenNames d2
      have hd2 : d.Goes Part.all d2 := Dev.Goes.within (Dev.laserWindow_goes _ _ _)
      refine Dev.Goes.ite (hd2.set _ _) ?_
      · extract_lets +onlyGivenNames st cum
        refine Dev.Goes.ite ?_ ((((hd2.set _ _).setInt _ _).setEng _ _).setConv _ _)
        · extract_lets +onlyGivenNames was
          exact (hd2.set _ _).when _ _ fun d => Dev.Goes.within (Dev.rxEvent_goes _ _ _ _)

theorem execLearnRequest_stays (bad : List ℕ) (s : State) : s.Stays (execLearnRequest bad s) :=
  State.run_stays fun d => ((Dev.Goes.refl _ _).when _ _ fun d => (Dev.Goes.refl _ _).each _ _ fun d i => Dev.Goes.within (Dev.slotEcc_goes _ _)).thn (Dev.takeLearn_goes _)

theorem execLlrSat_stays (e : Fin 3) (sc : Fin 32) (labels : List (List ℤ)) (s : State) : s.Stays (execLlrSat e sc labels s) := by
  refine State.run_stays fun d => ?_
  split
  · exact Dev.Goes.refl _ _
  · refine Dev.Goes.ite ?_ (Dev.Goes.refl _ _)
    · extract_lets +onlyGivenNames llrs sat high was d1
      have hd1 : d.Goes Part.all d1 := (Dev.Goes.refl _ _).setEng _ _
      exact (hd1.when _ _ fun d => Dev.Goes.within (Dev.rxEvent_goes _ _ _ _)).setEng _ _

theorem execLnCapTo_stays (l : Fin 96) (s : State) : s.Stays (execLnCapTo l s) := by
  refine State.run_stays fun d => ?_
  refine Dev.Goes.ite (Dev.Goes.refl _ _) (Dev.Goes.ite (Dev.Goes.within (Dev.laneFail_goes _ _ _ _)) ?_)
  · extract_lets +onlyGivenNames r
    have hr : d.Goes Part.all r.1 := Dev.Goes.within (Dev.resolveFec_goes _ _ _)
    refine Dev.Goes.ite (hr.thn (Dev.laneFail_goes _ _ _ _)) ?_
    · extract_lets +onlyGivenNames d1
      have hd1 : d.Goes Part.all d1 := ((((hr.set _ _).setFlag _ _).set _ _).set _ _).set _ _
      exact (((hd1.thn (Dev.setStage_goes _ _ _)).thn (Dev.laneEvent_goes _ _ _ _)).thn (Dev.enterActive_goes _ _)).setLane _ _

theorem execLnDetect_stays (l : Fin 96) (s : State) : s.Stays (execLnDetect l s) :=
  State.run_stays fun d => Dev.Goes.ite (Dev.Goes.refl _ _) (Dev.Goes.ite (((Dev.Goes.refl _ _).setLane _ _).thn (Dev.advertise_goes _ _)) ((Dev.Goes.within (Dev.enterTrain_goes _ _)).thn (Dev.laneEvent_goes _ _ _ _)))

theorem execLnFecUncorr_stays (l : Fin 96) (s : State) : s.Stays (execLnFecUncorr l s) := by
  refine State.run_stays fun d => ?_
  refine (Dev.Goes.refl _ _).when _ _ fun d => ?_
  · extract_lets +onlyGivenNames p
    exact ((Dev.Goes.refl _ _).count _ _).thn (Dev.laneEvent_goes _ _ _ _)

theorem execLnLockLost_stays (l : Fin 96) (s : State) : s.Stays (execLnLockLost l s) :=
  State.run_stays fun d => Dev.Goes.within (Dev.lockLost_goes _ _)

theorem execLnLockTo_stays (l : Fin 96) (s : State) : s.Stays (execLnLockTo l s) :=
  State.run_stays fun d => (Dev.Goes.refl _ _).when _ _ fun d => Dev.Goes.within (Dev.laneFail_goes _ _ _ _)

theorem execLnPrbsErr_stays (l : Fin 96) (errors : ℕ) (s : State) : s.Stays (execLnPrbsErr l errors s) :=
  State.run_stays fun d => (Dev.Goes.refl _ _).when _ _ fun d => (((Dev.Goes.refl _ _).count _ _).when _ _ fun d => Dev.Goes.within (Dev.laneEvent_goes _ _ _ _)).setLane _ _

theorem execLnRemoved_stays (l : Fin 96) (s : State) : s.Stays (execLnRemoved l s) :=
  State.run_stays fun d => Dev.Goes.within (Dev.removed_goes _ _)

theorem execLnTrainTo_stays (l : Fin 96) (s : State) : s.Stays (execLnTrainTo l s) :=
  State.run_stays fun d => (Dev.Goes.refl _ _).when _ _ fun d => Dev.Goes.within (Dev.laneFail_goes _ _ _ _)

theorem execLogInfo_stays (s : State) : s.Stays (execLogInfo s) := by
  refine State.mailbox_stays fun d q => ?_
  refine Dev.Goes.ite (Dev.Goes.within (Dev.mbxEnd_goes _ _ _ _)) ?_
  · extract_lets +onlyGivenNames lost
    split
    · exact Dev.Goes.within (Dev.mbxEnd_goes _ _ _ _)
    · exact ((Dev.Goes.refl _ _).with_free _).thn (Dev.mbxEnd_goes _ _ _ _)

theorem execLogNote_stays (s : State) : s.Stays (execLogNote s) := by
  refine State.mailbox_stays fun d q => ?_
  refine Dev.Goes.ite (Dev.Goes.within (Dev.mbxEnd_goes _ _ _ _)) ?_
  · extract_lets +onlyGivenNames full d1 e
    have hd1 : d.Goes Part.all d1 := (Dev.Goes.refl _ _).ashAdd _ _ _ _ _
    exact (hd1.with_free _).thn (Dev.mbxEnd_goes _ _ _ _)

theorem execLogRead_stays (s : State) : s.Stays (execLogRead s) := by
  refine State.mailbox_stays fun d q => ?_
  extract_lets +onlyGivenNames e n
  refine Dev.Goes.ite (Dev.Goes.within (Dev.mbxEnd_goes _ _ _ _)) (Dev.Goes.ite (Dev.Goes.within (Dev.mbxEnd_goes _ _ _ _)) ?_)
  · split
    · exact Dev.Goes.within (Dev.mbxEnd_goes _ _ _ _)
    · extract_lets +onlyGivenNames o
      exact Dev.Goes.within (Dev.mbxEnd_goes _ _ _ _)

theorem execLookup_stays (v : Word) (bad : List ℕ) (s : State) : s.Stays (execLookup v bad s) := State.emtWrite_stays _ _ _

theorem execLoopMode_stays (l : Fin 96) (mode : Fin 4) (s : State) : s.Stays (execLoopMode l mode s) := State.hostField_stays _ _ _ _

theorem execLosClear_stays (w : Fin 2) (lvl : Word) (s : State) : s.Stays (execLosClear w lvl s) := by
  refine State.run_stays fun d => ?_
  refine (Dev.Goes.refl _ _).when _ _ fun d => ?_
  · extract_lets +onlyGivenNames d1
    have hd1 : d.Goes Part.all d1 := (Dev.Goes.refl _ _).setReg _ _
    exact hd1.when _ _ fun d => ((Dev.Goes.refl _ _).set _ _).each _ _ fun d e => Dev.Goes.within (Dev.startAcq_goes _ _ _)

theorem execLosttoExpiry_stays (w : Fin 2) (s : State) : s.Stays (execLosttoExpiry w s) :=
  State.run_stays fun d => (Dev.Goes.refl _ _).when _ _ fun d => ((Dev.Goes.within (Dev.dropTid_goes _ _)).thn (Dev.setAct_goes _ _ _)).thn (Dev.actTimeout_goes _ _)

theorem execLpiEnter_stays (p : Fin 96) (s : State) : s.Stays (execLpiEnter p s) :=
  State.run_stays fun _ => (Dev.Goes.refl _ _).when _ _ fun _ => ((Dev.Goes.refl _ _).set _ _).count _ _

theorem execLpiExit_stays (p : Fin 96) (s : State) : s.Stays (execLpiExit p s) :=
  State.run_stays fun d => (Dev.Goes.refl _ _).when _ _ fun d => Dev.Goes.within (Dev.leaveLpi_goes _ _)

theorem execMacFrameRx_stays (p : Fin 96) (f : List Byte) (pcs : Bool) (s : State) : s.Stays (execMacFrameRx p f pcs s) :=
  State.run_stays fun d => Dev.Goes.ite ((Dev.Goes.refl _ _).emit _) (Dev.Goes.within (Dev.portRx_goes _ _ _ _))

theorem execMacFrameTx_stays (p : Fin 96) (s : State) : s.Stays (execMacFrameTx p s) := by
  refine State.run_stays fun d => ?_
  split
  · exact Dev.Goes.refl _ _
  · extract_lets +onlyGivenNames f d1
    have hd1 : d.Goes Part.all d1 := ((Dev.Goes.refl _ _).setMac _ _).thn (Dev.freeBufs_goes _ _ _)
    exact (Dev.Goes.ite (hd1.count _ _) ((((hd1.thn (Dev.pushTs_goes _ _ _)).count _ _).thn (Dev.countBytes_goes _ _ _ _)).thn (Dev.portTx_goes _ _ _))).thn (Dev.sendGen_goes _ _)

theorem execMacGclSwitch_stays (p : Fin 96) (s : State) : s.Stays (execMacGclSwitch p s) := by
  refine State.run_stays fun d => ?_
  split
  · exact Dev.Goes.refl _ _
  · exact Dev.Goes.ite (Dev.Goes.refl _ _) ((((((Dev.Goes.refl _ _).setMac _ _).set _ _).thn (Dev.gateRefresh_goes _ _)).raise _ _).thn (Dev.gateDrops_goes _ _))

theorem execMacLinkDown_stays (p : Fin 96) (rxFrame : Bool) (s : State) : s.Stays (execMacLinkDown p rxFrame s) :=
  State.run_stays fun d => Dev.Goes.within (Dev.macDown_goes _ _ _)

theorem execMacLinkUp_stays (p : Fin 96) (s : State) : s.Stays (execMacLinkUp p s) := by
  refine State.run_stays fun d => ?_
  extract_lets +onlyGivenNames ls m
  exact (Dev.Goes.refl _ _).when _ _ fun d => ((((Dev.Goes.refl _ _).set _ _).set _ _).each _ _ fun d l => (Dev.Goes.refl _ _).setLane _ _).raise _ _

theorem execMacPark_stays (p : Fin 96) (s : State) : s.Stays (execMacPark p s) := State.hostField_stays _ _ _ _

theorem execMacTinderWake_stays (p : Fin 96) (periods : List (BitVec 128)) (s : State) : s.Stays (execMacTinderWake p periods s) := by
  refine State.runServe_stays fun d => ?_
  refine Dev.Goes.ite (Dev.Goes.refl _ _) ?_
  · extract_lets +onlyGivenNames n d1
    have hd1 : d.Goes Part.all d1 := (Dev.Goes.refl _ _).setPwr _
    exact hd1.when _ _ fun d => Dev.Goes.within (Dev.tinderWake_goes _ _)

theorem execMaskCheck_stays (e : Fin 3) (power : List Byte) (s : State) : s.Stays (execMaskCheck e power s) := by
  refine State.run_stays fun d => ?_
  refine Dev.Goes.ite ?_ (Dev.Goes.refl _ _)
  · extract_lets +onlyGivenNames d1
    have hd1 : d.Goes Part.all d1 := (Dev.Goes.refl _ _).each _ _ fun d b => (Dev.Goes.refl _ _).set _ _
    split
    · exact hd1
    · refine Dev.Goes.ite ?_ hd1
      · extract_lets +onlyGivenNames d2
        have hd2 : d.Goes Part.all d2 := (((hd1.set _ _).count _ _).set _ _).thn (Dev.txEvent_goes _ _ _ _)
        exact hd2.when _ _ fun d => (((Dev.Goes.refl _ _).set _ _).setEng _ _).thn (Dev.txEvent_goes _ _ _ _)

theorem execMbxUnknownOpcode_stays (s : State) : s.Stays (execMbxUnknownOpcode s) := by
  refine State.runServe_stays fun d => ?_
  split
  · exact Dev.Goes.refl _ _
  · exact (Dev.Goes.refl _ _).when _ _ fun d => Dev.Goes.within (Dev.mbxEnd_goes _ _ _ _)

theorem execMsixHeldSend_stays (v : Fin 512) (s : State) : s.Stays (execMsixHeldSend v s) :=
  State.run_stays fun d => (Dev.Goes.refl _ _).when _ _ fun d => ((Dev.Goes.refl _ _).with_msixHeld _).thn (Dev.msixEmit_goes _ _)

theorem execMsixTableWrite_stays (ofs : BitVec 16) (v : Option Word) (s : State) : s.Stays (execMsixTableWrite ofs v s) := by
  refine State.run_stays fun d => ?_
  extract_lets +onlyGivenNames o
  refine Dev.Goes.ite (Dev.Goes.refl _ _) ?_
  · split
    · exact (Dev.Goes.refl _ _).emit _
    · exact Dev.Goes.ite (Dev.Goes.refl _ _) ((Dev.Goes.refl _ _).with_msixTable _)

theorem execNcoRange_stays (e : Fin 3) (residual : ℤ) (s : State) : s.Stays (execNcoRange e residual s) :=
  State.run_stays fun d => (Dev.Goes.refl _ _).when _ _ fun d => (Dev.Goes.within (Dev.rxEvent_goes _ _ _ _)).thn (Dev.restartFreq_goes _ _)

theorem execPacketArrival_stays (k : Fin 5) (s : State) : s.Stays (execPacketArrival k s) := by
  refine State.run_stays fun d => ?_
  split
  · exact Dev.Goes.refl _ _
  · refine Dev.Goes.ite ((Dev.Goes.refl _ _).when _ _ fun d => ((Dev.Goes.refl _ _).setPkt _).thn (Dev.linkDrop_goes _ _ _)) ?_
    · extract_lets +onlyGivenNames p1 p0 i waits
      refine Dev.Goes.ite (Dev.Goes.refl _ _) ?_
      · extract_lets +onlyGivenNames n d1
        have hd1 : d.Goes Part.all d1 := (Dev.Goes.refl _ _).setPkt _
        exact Dev.Goes.ite ((hd1.count _ _).raise _ _) ((hd1.setPkt _).count _ _)

theorem execPauseFrameRx_stays (p : Fin 96) (f : List Byte) (s : State) : s.Stays (execPauseFrameRx p f s) :=
  State.run_stays fun d => (Dev.Goes.refl _ _).when _ _ fun d => Dev.Goes.ite ((Dev.Goes.refl _ _).emit _) (Dev.Goes.within (Dev.portRx_goes _ _ _ _))

theorem execPauseRepeat_stays (p : Fin 96) (s : State) : s.Stays (execPauseRepeat p s) :=
  State.run_stays fun d => (Dev.Goes.refl _ _).when _ _ fun d => Dev.Goes.within (Dev.sendPause_goes _ _ _)

theorem execPauseTimerExpire_stays (p : Fin 96) (c : Option (Fin 8)) (s : State) : s.Stays (execPauseTimerExpire p c s) :=
  State.run_stays fun d => ((Dev.Goes.refl _ _).setMac _ _).thn (Dev.pauseStat_goes _ _)

theorem execPauseXoff_stays (p : Fin 96) (arriving : ℕ) (s : State) : s.Stays (execPauseXoff p arriving s) :=
  State.run_stays fun d => (Dev.Goes.refl _ _).when _ _ fun d => (((Dev.Goes.refl _ _).set _ _).thn (Dev.sendPause_goes _ _ _)).raise _ _

theorem execPauseXon_stays (p : Fin 96) (arriving : ℕ) (s : State) : s.Stays (execPauseXon p arriving s) :=
  State.run_stays fun d => (Dev.Goes.refl _ _).when _ _ fun d => ((Dev.Goes.refl _ _).set _ _).thn (Dev.sendPause_goes _ _ _)

theorem execPciDmaErr_stays (tx : Bool) (r : Fin 2048) (why : DmaEnd) (s : State) : s.Stays (execPciDmaErr tx r why s) :=
  State.run_stays fun d => (Dev.Goes.refl _ _).when _ _ fun d => ((Dev.Goes.within (Dev.aerNote_goes _ _)).thn (Dev.ringReset_goes _ _ _ _)).thn (Dev.ringEvent_goes _ _ _ _ _)

theorem execPciFlushDone_stays (tx : Bool) (r : Fin 2048) (s : State) : s.Stays (execPciFlushDone tx r s) :=
  State.run_stays fun d => (Dev.Goes.refl _ _).when _ _ fun d => ((Dev.Goes.refl _ _).set _ _).thn (Dev.ringEvent_goes _ _ _ _ _)

theorem execPciLinkDown_stays (s : State) : s.Stays (execPciLinkDown s) :=
  State.run_stays fun d => Dev.Goes.within (Dev.linkLost_goes _)

theorem execPciRingPtr_stays (tx : Bool) (r : Fin 2048) (s : State) : s.Stays (execPciRingPtr tx r s) :=
  State.run_stays fun d => (Dev.Goes.refl _ _).when _ _ fun d => (Dev.Goes.within (Dev.ringReset_goes _ _ _ _)).thn (Dev.ringEvent_goes _ _ _ _ _)

theorem execPcieLinkUp_stays (speed : ℕ) (width : ℕ) (s : State) : s.Stays (execPcieLinkUp speed width s) := by
  refine State.run_stays fun d => ?_
  refine Dev.Goes.ite (Dev.Goes.refl _ _) ?_
  · extract_lets +onlyGivenNames d1
    have hd1 : d.Goes Part.all d1 := (((Dev.Goes.refl _ _).set _ _).set _ _).set _ _
    exact hd1.when _ _ fun d => (Dev.Goes.refl _ _).raise _ _

theorem execPciePerst_stays (low : Bool) (s : State) : s.Stays (execPciePerst low s) :=
  State.run_stays fun d => Dev.Goes.ite (((Dev.Goes.within (Dev.linkLost_goes _)).thn (Dev.ringRegsReset_goes _ _)).setPcie _) ((Dev.Goes.refl _ _).setPcie _)

theorem execPhaseLock_stays (e : Fin 3) (sc : Fin 32) (s : State) : s.Stays (execPhaseLock e sc s) :=
  State.run_stays fun d => (Dev.Goes.refl _ _).when _ _ fun d => (((Dev.Goes.refl _ _).set _ _).setEng _ _).thn (Dev.advance_goes _ _)

theorem execPktSlicePairEmpty_stays (s : State) : s.Stays (execPktSlicePairEmpty s) := by
  refine State.runServe_stays fun d => ?_
  split
  · exact Dev.Goes.refl _ _
  · split
    · refine Dev.Goes.ite (Dev.Goes.refl _ _) ?_
      · extract_lets +onlyGivenNames x
        have hx : d.Goes Part.all x.1 := Dev.Goes.within (Dev.movePair_goes _ _ _)
        exact Dev.Goes.ite (hx.thn (Dev.runOver_goes _ _ _)) hx
    · exact Dev.Goes.ite (Dev.Goes.refl _ _) ((((Dev.Goes.refl _ _).set _ _).setPkt _).thn (Dev.runOver_goes _ _ _))

theorem execPmClear_stays (w : Fin 2) (s : State) : s.Stays (execPmClear w s) := State.hostField_stays _ _ _ _

theorem execPmCommit_stays (w : Fin 2) (s : State) : s.Stays (execPmCommit w s) := by
  refine State.run_stays fun d => ?_
  split
  · exact Dev.Goes.refl _ _
  · extract_lets +onlyGivenNames d1 d2 d3
    have hd1 : d.Goes Part.all d1 := by
      refine (Dev.Goes.refl _ _).each _ _ fun d k => ?_
      · split
        · exact Dev.Goes.refl _ _
        · exact (Dev.Goes.within (Dev.commitItem_goes _ _ _)).setSc _ _ _
    have hd2 : d.Goes Part.all d2 := (hd1.setWave _ _).thn (Dev.commitItem_goes _ _ _)
    have hd3 : d.Goes Part.all d3 := hd2.set _ _
    exact (hd3.when _ _ fun d => Dev.Goes.within (Dev.lfEvent_goes _ _ _ _)).when _ _ fun d => Dev.Goes.within (Dev.lfEvent_goes _ _ _ _)

theorem execPmSecond_stays (w : Fin 2) (extra : List (Fin 32 × ℕ)) (spared : Word) (s : State) : s.Stays (execPmSecond w extra spared s) := by
  refine State.run_stays fun d => Dev.Goes.ite (Dev.Goes.refl _ _) ?_
  extract_lets +onlyGivenNames ex d0 r p d1
  have hd0 : d.Goes Part.all d0 := (Dev.Goes.refl _ _).when _ _ fun d => (Dev.Goes.within (Dev.pmZero_goes _ _)).setWave _ _
  have hr : d.Goes Part.all r.1 := by
    refine Dev.Goes.foldl_fst _ (fun a k => ?_) _ hd0
    have hk : a.1.Goes Part.all (a.1.pmSubcarrier w k (ex k) (spared.toNat.testBit k)).1 := Dev.Goes.within (Dev.pmSubcarrier_goes _ _ _ _ _)
    exact hk
  have hd1 : d.Goes Part.all d1 := (hr.setWave _ _).setFlag _ _
  exact (hd1.when _ _ fun d => Dev.Goes.within (Dev.lfEvent_goes _ _ _ _)).when _ _ fun d => Dev.Goes.within (Dev.lfEvent_goes _ _ _ _)

theorem execPortUnpark_stays (p : Fin 96) (s : State) : s.Stays (execPortUnpark p s) := State.hostField_stays _ _ _ _

theorem execPowerLoss_stays (s : State) : s.Stays (execPowerLoss s) :=
  State.run_stays fun d => (Dev.Goes.within (Dev.cleared_goes _ _)).repowered _ _ _ _

theorem execPowerRequest_stays (v : Word) (s : State) : s.Stays (execPowerRequest v s) := State.hostWrite_stays _ _ _

theorem execPpsIn_stays (high : ℕ) (s : State) : s.Stays (execPpsIn high s) := by
  refine State.run_stays fun d => ?_
  refine Dev.Goes.ite (Dev.Goes.refl _ _) ?_
  · extract_lets +onlyGivenNames short
    exact Dev.Goes.ite ((Dev.Goes.refl _ _).count _ _) (((((Dev.Goes.refl _ _).setTime _ fun h => h).count _ _).set _ _).raiseWords _ _ _)

theorem execPpsInLoss_stays (s : State) : s.Stays (execPpsInLoss s) :=
  State.run_stays fun d => (Dev.Goes.refl _ _).when _ _ fun d => ((Dev.Goes.refl _ _).set _ _).raise _ _

theorem execPpsOutFall_stays (s : State) : s.Stays (execPpsOutFall s) :=
  State.run_stays fun d => (Dev.Goes.refl _ _).when _ _ fun d => ((Dev.Goes.refl _ _).setTime _ fun h => h).emit _

theorem execPpsOutRise_stays (s : State) : s.Stays (execPpsOutRise s) := by
  refine State.run_stays fun d => ?_
  extract_lets +onlyGivenNames next
  exact (Dev.Goes.refl _ _).when _ _ fun d => (((Dev.Goes.refl _ _).set _ _).setTime _ fun h => h).emit _

theorem execPrbsCheckerLock_stays (l : Fin 96) (s : State) : s.Stays (execPrbsCheckerLock l s) :=
  State.run_stays fun d => (Dev.Goes.refl _ _).when _ _ fun d => ((Dev.Goes.refl _ _).set _ _).setLane _ _

theorem execPrbsControl_stays (l : Fin 96) (v : Word) (s : State) : s.Stays (execPrbsControl l v s) := State.hostWrite_stays _ _ _

theorem execPrfProposalExpire_stays (w : Fin 2) (s : State) : s.Stays (execPrfProposalExpire w s) := by
  refine State.run_stays fun d => ?_
  split
  · exact Dev.Goes.refl _ _
  · exact Dev.Goes.ite ((((Dev.Goes.within (Dev.applyPend_goes _ _ _ _)).setWave _ _).set _ _).set _ _) (Dev.Goes.within (Dev.abandon_goes _ _))

theorem execPrfReqGo_stays (w : Fin 2) (v : Word) (s : State) : s.Stays (execPrfReqGo w v s) := State.hostWrite_stays _ _ _

theorem execProfileChange_stays (w : Fin 2) (tid : BitVec 12) (mseq : BitVec 16) (esfn : Word) (mdir : Byte) (op : Byte) (mask : Word) (codes : List Byte) (s : State) : s.Stays (execProfileChange w tid mseq esfn mdir op mask codes s) :=
  State.run_stays fun d => Dev.Goes.within (Dev.profileChange_goes _ _ _ _ _ _ _ _ _)

theorem execQFlushDone_stays (s : State) : s.Stays (execQFlushDone s) :=
  State.run_stays fun d => (Dev.Goes.refl _ _).when _ _ fun d => ((Dev.Goes.refl _ _).set _ _).raise _ _

theorem execQmFlush_stays (v : Word) (s : State) : s.Stays (execQmFlush v s) := State.hostWrite_stays _ _ _

theorem execQualLatch_stays (e : Fin 3) (sc : Fin 32) (level : ℤ) (evm : ℕ) (s : State) : s.Stays (execQualLatch e sc level evm s) := by
  refine State.run_stays fun d => ?_
  refine Dev.Goes.ite ?_ (Dev.Goes.refl _ _)
  · extract_lets +onlyGivenNames wide lvl low was d1 d2
    have hd1 : d.Goes Part.all d1 := ((((Dev.Goes.refl _ _).setFlag _ _).setInt _ _).set _ _).set _ _
    have hd2 : d.Goes Part.all d2 := hd1.setEng _ _
    exact hd2.when _ _ fun d => Dev.Goes.within (Dev.rxEvent_goes _ _ _ _)

theorem execQueueEnqueue_stays (s : State) : s.Stays (execQueueEnqueue s) := by
  refine State.run_stays fun d => ?_
  split
  · exact ((Dev.Goes.refl _ _).setPkt _).thn (Dev.enqueue_goes _ _ _ _)
  · exact Dev.Goes.refl _ _

theorem execRailSample_stays (i : Fin 16) (mv : List ℕ) (s : State) : s.Stays (execRailSample i mv s) := by
  refine State.run_stays fun d => ?_
  refine Dev.Goes.ite (Dev.Goes.refl _ _) ?_
  · extract_lets +onlyGivenNames nom low high wasLow wasHigh with_ bad d1 d2 d3
    have hd1 : d.Goes Part.all d1 := ((Dev.Goes.refl _ _).set _ _).set _ _
    have hd2 : d.Goes Part.all d2 := hd1.setPwr _
    have hd3 : d.Goes Part.all d3 := hd2.when _ _ fun d => (Dev.Goes.refl _ _).raise _ _
    exact hd3.when _ _ fun d => Dev.Goes.within (Dev.wantAbort_goes _ _)

theorem execRange_stays (w : Fin 2) (eqd : BitVec 24) (rtd : BitVec 24) (esfn : Word) (s : State) : s.Stays (execRange w eqd rtd esfn s) :=
  State.run_stays fun d => Dev.Goes.within (Dev.range_goes _ _ _ _ _)

theorem execRcFieldRead_stays (a : BitVec 28) (size : ℕ) (s : State) : s.Stays (execRcFieldRead a size s) :=
  State.run_stays fun d => Dev.Goes.within (Dev.arrive_goes _ _ _ _ _ _)

theorem execRd_stays (s : State) : s.Stays (execRd s) := by
  refine State.mailbox_stays fun d q => ?_
  extract_lets +onlyGivenNames a n ok
  refine Dev.Goes.ite (Dev.Goes.within (Dev.mbxEnd_goes _ _ _ _)) (Dev.Goes.ite (Dev.Goes.within (Dev.mbxEnd_goes _ _ _ _)) ((Dev.Goes.refl _ _).mbxReach _ _ _ _ fun d => ?_))
  · extract_lets +onlyGivenNames x
    have hx : d.Goes Part.all x.1 := Dev.Goes.within (Dev.mbxReads_goes _ _ _ _)
    exact hx.thn (Dev.mbxEnd_goes _ _ _ _)

theorem execReadidx_stays (v : Word) (bad : List ℕ) (s : State) : s.Stays (execReadidx v bad s) := State.emtWrite_stays _ _ _

theorem execReassemblyTimeout_stays (w : Fin 2) (flow : BitVec 20) (s : State) : s.Stays (execReassemblyTimeout w flow s) :=
  State.run_stays fun d => Dev.Goes.ite (Dev.Goes.within (Dev.dropOpen_goes _ _ _ _)) (Dev.Goes.within (Dev.setMark_goes _ _ _ _))

theorem execReceiverLpi_stays (p : Fin 96) (quiet : Bool) (s : State) : s.Stays (execReceiverLpi p quiet s) :=
  State.run_stays fun _ => Dev.Goes.ite ((Dev.Goes.refl _ _).when _ _ fun _ => ((Dev.Goes.refl _ _).set _ _).count _ _) ((Dev.Goes.refl _ _).set _ _)

theorem execRefclkLost_stays (s : State) : s.Stays (execRefclkLost s) :=
  State.run_stays fun d => (Dev.Goes.refl _ _).when _ _ fun d => ((((((Dev.Goes.refl _ _).set _ _).set _ _).thn (Dev.clkFault_goes _ _)).thn (Dev.hearthClock_goes _)).setTime _ fun h => h).thn (Dev.discipline_goes _)

theorem execRefclkValid_stays (s : State) : s.Stays (execRefclkValid s) := by
  refine State.run_stays fun d => ?_
  refine (Dev.Goes.refl _ _).when _ _ fun d => ?_
  · extract_lets +onlyGivenNames d1 d2
    have hd1 : d.Goes Part.all d1 := (((Dev.Goes.refl _ _).set _ _).thn (Dev.clkGood_goes _ _)).thn (Dev.hearthClock_goes _)
    have hd2 : d.Goes Part.all d2 := by
      unfold d2
      split
      · exact hd1.thn (Dev.showSteer_goes _ _)
      · exact hd1
    exact (hd2.setTime _ fun h => h).thn (Dev.discipline_goes _)

theorem execRegisterWrite_stays (a : BitVec 28) (size : ℕ) (v : Word) (s : State) : s.Stays (execRegisterWrite a size v s) :=
  State.run_stays fun d => Dev.Goes.within (Dev.arrive_goes _ _ _ _ _ _)

theorem execRelease_stays (w : Fin 2) (reason : Byte) (s : State) : s.Stays (execRelease w reason s) :=
  State.run_stays fun d => Dev.Goes.within (Dev.release_goes _ _ _)

theorem execReload_stays (v : Word) (s : State) : s.Stays (execReload v s) := State.hostWrite_stays _ _ _

theorem execRepairSelfTestDone_stays (e : Fin 3) (clean : Bool) (s : State) : s.Stays (execRepairSelfTestDone e clean s) :=
  State.run_stays fun d => (Dev.Goes.refl _ _).when _ _ fun d => Dev.Goes.ite ((Dev.Goes.within (Dev.season_goes _ _)).raise _ _) (((Dev.Goes.within (Dev.retire_goes _ _)).thn (Dev.sprShow_goes _)).raise _ _)

theorem execResolve_stays (v : Word) (s : State) : s.Stays (execResolve v s) := State.hostWrite_stays _ _ _

theorem execRestore_stays (w : Fin 2) (s : State) : s.Stays (execRestore w s) := by
  refine State.run_stays fun d => ?_
  split
  · exact (Dev.Goes.refl _ _).when _ _ fun d => (Dev.Goes.within (Dev.moveStart_goes _ _)).raise _ _
  · exact Dev.Goes.refl _ _

theorem execResume_stays (w : Fin 2) (s : State) : s.Stays (execResume w s) := State.hostField_stays _ _ _ _

theorem execRetire_stays (v : Word) (s : State) : s.Stays (execRetire v s) := State.hostWrite_stays _ _ _

theorem execRetryExpire_stays (l : Fin 96) (s : State) : s.Stays (execRetryExpire l s) :=
  State.run_stays fun d => (Dev.Goes.refl _ _).when _ _ fun d => Dev.Goes.within (Dev.laneStart_goes _ _)

theorem execRevertMove_stays (w : Fin 2) (clean : ℕ) (s : State) : s.Stays (execRevertMove w clean s) := by
  refine State.runServe_stays fun d => ?_
  split
  · refine (Dev.Goes.refl _ _).when _ _ fun d => ?_
    · extract_lets +onlyGivenNames d1
      have hd1 : d.Goes Part.all d1 := Dev.Goes.within (Dev.toBoundary_goes _ _)
      exact Dev.Goes.ite (Dev.Goes.refl _ _) (((hd1.thn (Dev.completeMove_goes _ _)).thn (Dev.reloadAfter_goes _ _)).thn (Dev.powerGo_goes _))
  · exact Dev.Goes.refl _ _

theorem execRevertNow_stays (v : Word) (s : State) : s.Stays (execRevertNow v s) := State.hostWrite_stays _ _ _

theorem execRevertStart_stays (w : Fin 2) (s : State) : s.Stays (execRevertStart w s) :=
  State.run_stays fun d => Dev.Goes.within (Dev.revertStart_goes _ _)

theorem execRevertTimeout_stays (w : Fin 2) (s : State) : s.Stays (execRevertTimeout w s) :=
  State.runServe_stays fun d => Dev.Goes.within (Dev.abandonIf_goes _ _ _ _)

theorem execRingDisable_stays (tx : Bool) (r : Fin 2048) (written : List (BitVec 64)) (s : State) : s.Stays (execRingDisable tx r written s) := State.hostField_stays _ _ _ _

theorem execRingEnable_stays (tx : Bool) (r : Fin 2048) (s : State) : s.Stays (execRingEnable tx r s) := State.hostField_stays _ _ _ _

theorem execRingFlush_stays (tx : Bool) (r : Fin 2048) (written : List (BitVec 64)) (s : State) : s.Stays (execRingFlush tx r written s) := State.hostField_stays _ _ _ _

theorem execRingIrqEnable_stays (tx : Bool) (r : Fin 2048) (s : State) : s.Stays (execRingIrqEnable tx r s) := State.hostField_stays _ _ _ _

theorem execRingTailWrite_stays (tx : Bool) (r : Fin 2048) (v : Word) (s : State) : s.Stays (execRingTailWrite tx r v s) := State.hostWrite_stays _ _ _

theorem execRngtoExpiry_stays (w : Fin 2) (s : State) : s.Stays (execRngtoExpiry w s) :=
  State.run_stays fun d => (Dev.Goes.refl _ _).when _ _ fun d => ((Dev.Goes.within (Dev.dropTid_goes _ _)).thn (Dev.setAct_goes _ _ _)).thn (Dev.actTimeout_goes _ _)

theorem execRootLock_stays (s : State) : s.Stays (execRootLock s) := by
  refine State.run_stays fun d => ?_
  refine (Dev.Goes.refl _ _).when _ _ fun d => ?_
  · extract_lets +onlyGivenNames d1
    have hd1 : d.Goes Part.all d1 := ((((Dev.Goes.refl _ _).set _ _).thn (Dev.clkGood_goes _ _)).thn (Dev.hearthClock_goes _)).setPwr _
    exact (hd1.set _ _).when _ _ fun d => (Dev.Goes.refl _ _).setSt _ _

theorem execRootUnlock_stays (s : State) : s.Stays (execRootUnlock s) :=
  State.run_stays fun d => (Dev.Goes.refl _ _).when _ _ fun d => ((((Dev.Goes.refl _ _).set _ _).set _ _).thn (Dev.clkFault_goes _ _)).thn (Dev.hearthClock_goes _)

theorem execRxLos_stays (w : Fin 2) (lvl : Word) (s : State) : s.Stays (execRxLos w lvl s) := by
  refine State.run_stays fun d => ?_
  refine (Dev.Goes.refl _ _).when _ _ fun d => ?_
  · extract_lets +onlyGivenNames d1
    have hd1 : d.Goes Part.all d1 := (Dev.Goes.refl _ _).setReg _ _
    exact hd1.when _ _ fun d => (((Dev.Goes.within (Dev.recallStep_goes _ _)).set _ _).set _ _).thn (Dev.inputEvent_goes _ _ _ _)

theorem execRxgFrameWrite_stays (r : Fin 2048) (addrs : List (BitVec 64)) (tail : Option (BitVec 17)) (s : State) : s.Stays (execRxgFrameWrite r addrs tail s) := by
  refine State.run_stays fun d₀ => ?_
  extract_lets +onlyGivenNames d still
  have hd : d₀.Goes Part.all d := Dev.Goes.within (Dev.tailFirst_goes _ _ _ _)
  split
  · exact hd.when _ _ fun d => Dev.Goes.within (Dev.ringRefresh_goes _ _ _ _)
  · extract_lets +onlyGivenNames n
    exact Dev.Goes.ite (hd.when _ _ fun d => Dev.Goes.within (Dev.ringRefresh_goes _ _ _ _)) ((((hd.thn (Dev.writeDescs_goes _ _ _ _ _ _)).setRing _ _ _).thn (Dev.freeBufs_goes _ _ _)).thn (Dev.ringPass_goes _ _ _ _))

theorem execRxgPacket_stays (s : State) : s.Stays (execRxgPacket s) := by
  refine State.run_stays fun d => ?_
  split
  · exact ((Dev.Goes.refl _ _).setPkt _).thn (Dev.ringPush_goes _ _ _ _)
  · exact Dev.Goes.refl _ _

theorem execRxgTimeout_stays (r : Fin 2048) (s : State) : s.Stays (execRxgTimeout r s) := by
  refine State.run_stays fun d => ?_
  split
  · exact Dev.Goes.refl _ _
  · exact (Dev.Goes.refl _ _).when _ _ fun d => ((((Dev.Goes.refl _ _).setRing _ _ _).thn (Dev.freeBufs_goes _ _ _)).count _ _).thn (Dev.ringEvent_goes _ _ _ _ _)

theorem execSamplerLatch_stays (k : Fin 8448) (s : State) : s.Stays (execSamplerLatch k s) := by
  refine State.run_stays fun d => ?_
  refine Dev.Goes.ite (Dev.Goes.refl _ _) ?_
  · extract_lets +onlyGivenNames r grp x thr high d1 d2
    have hd1 : d.Goes Part.all d1 := (Dev.Goes.refl _ _).setSampler _ _
    have hd2 : d.Goes Part.all d2 := Dev.Goes.ite hd1 (hd1.thn (Dev.groupDepthSeen_goes _ _))
    exact hd2.when _ _ fun d => (Dev.Goes.refl _ _).raise _ _

theorem execSamplerRead_stays (v : Word) (s : State) : s.Stays (execSamplerRead v s) := State.hostWrite_stays _ _ _

theorem execSchedulerSelect_stays (k : Fin 160) (corrected : ℕ) (ecc : Bool) (s : State) : s.Stays (execSchedulerSelect k corrected ecc s) := by
  refine State.run_stays fun d₀ => ?_
  extract_lets +onlyGivenNames d
  have hd : d₀.Goes Part.all d := (Dev.Goes.refl _ _).when _ _ fun d => Dev.Goes.within (Dev.gateDrops_goes _ _)
  refine Dev.Goes.ite hd ?_
  · split
    · exact hd
    · split
      · exact hd
      · extract_lets +onlyGivenNames len d1
        have hd1 : d₀.Goes Part.all d1 := ((((hd.thn (Dev.advanceV_goes _ _ _ _)).thn (Dev.shaperCharge_goes _ _ _)).thn (Dev.popHead_goes _ _ _)).thn (Dev.sojourn_goes _ _ _)).count _ _
        exact Dev.Goes.ite (((hd1.thn (Dev.freeBufs_goes _ _ _)).count _ _).raise _ _) (hd1.thn (Dev.handOver_goes _ _ _ _))

theorem execSealGroup_stays (w : Fin 2) (g : Fin 32) (mismatches : ℕ) (s : State) : s.Stays (execSealGroup w g mismatches s) :=
  State.run_stays fun d => (Dev.Goes.refl _ _).when _ _ fun d => Dev.Goes.within (Dev.sealNext_goes _ _ _ _)

theorem execSeasonPassDone_stays (e : Fin 3) (clean : Bool) (left : ℕ) (again : Bool) (s : State) : s.Stays (execSeasonPassDone e clean left again s) :=
  State.run_stays fun d => (Dev.Goes.refl _ _).when _ _ fun d => Dev.Goes.ite (((Dev.Goes.refl _ _).set _ _).setSpr1 _ _) (((Dev.Goes.within (Dev.countFault_goes _ _)).thn (Dev.toRepair_goes _ _)).raise _ _)

theorem execSeasoningDone_stays (e : Fin 3) (s : State) : s.Stays (execSeasoningDone e s) :=
  State.run_stays fun d => (Dev.Goes.refl _ _).when _ _ fun d => (Dev.Goes.within (Dev.setRole_goes _ _ _)).thn (Dev.sprShow_goes _)

theorem execSensorRead_stays (i : Fin 24) (t : ℤ) (s : State) : s.Stays (execSensorRead i t s) := by
  refine State.run_stays fun d => ?_
  refine Dev.Goes.ite (Dev.Goes.refl _ _) ?_
  · extract_lets +onlyGivenNames hot warn d1 d2 d3
    have hd1 : d.Goes Part.all d1 := ((Dev.Goes.refl _ _).setInt _ _).setInt _ _
    have hd2 : d.Goes Part.all d2 := hd1.setPwr _
    have hd3 : d.Goes Part.all d3 := hd2.when _ _ fun d => ((Dev.Goes.refl _ _).setPwr _).raise _ _
    exact hd3.when _ _ fun d => (Dev.Goes.refl _ _).setPwr _

theorem execShaperRefill_stays (s : State) : s.Stays (execShaperRefill s) := by
  refine State.run_stays fun d => ?_
  refine (Dev.Goes.refl _ _).when _ _ fun d => ?_
  · extract_lets +onlyGivenNames d1
    have hd1 : d.Goes Part.all d1 := by
      refine (Dev.Goes.refl _ _).each _ _ fun d q => ?_
      · extract_lets +onlyGivenNames x en
        refine Dev.Goes.ite ?_ (Dev.Goes.refl _ _)
        · extract_lets +onlyGivenNames r
          exact (Dev.Goes.refl _ _).setQueue _ _
    refine hd1.each _ _ fun d g => ?_
    · extract_lets +onlyGivenNames x' en'
      refine Dev.Goes.ite ?_ (Dev.Goes.refl _ _)
      · extract_lets +onlyGivenNames r'
        exact (Dev.Goes.refl _ _).setBuf _

theorem execSilence_stays (w : Fin 2) (tid : BitVec 12) (dur : BitVec 16) (s : State) : s.Stays (execSilence w tid dur s) :=
  State.run_stays fun d => Dev.Goes.within (Dev.silence_goes _ _ _ _)

theorem execSilenceExpiry_stays (w : Fin 2) (s : State) : s.Stays (execSilenceExpiry w s) :=
  State.run_stays fun d => (((Dev.Goes.refl _ _).set _ _).set _ _).thn (Dev.leaveSilence_goes _ _)

theorem execSliceProcess_stays (n : Fin 24) (badRules : List ℕ) (badSlots : List ℕ) (s : State) : s.Stays (execSliceProcess n badRules badSlots s) := by
  refine State.run_stays fun d => ?_
  split
  · exact Dev.Goes.refl _ _
  · extract_lets +onlyGivenNames d0 d1 prof t r nest act d2
    have hd0 : d.Goes Part.all d0 := (Dev.Goes.refl _ _).setPkt _
    have hd1 : d.Goes Part.all d1 := (hd0.each _ _ fun d r => Dev.Goes.within (Dev.ruleEcc_goes _ _)).each _ _ fun d i => Dev.Goes.within (Dev.slotEcc_goes _ _)
    have hd2 : d.Goes Part.all d2 := hd1.when _ _ fun d => ((Dev.Goes.refl _ _).count _ _).raise _ _
    refine Dev.Goes.ite hd2 (Dev.Goes.ite (hd2.thn (Dev.decideNext_goes _ _ _ _)) ?_)
    · extract_lets +onlyGivenNames p1 l p2 ipOk
      have hl : d.Goes Part.all l.1 := hd2.thn (Dev.lookups_goes _ _ _)
      exact hl.thn (Dev.classify_goes _ _ _ _ _ _ _)

theorem execSmbBlockRead_stays (code : Byte) (pecOk : Bool) (s : State) : s.Stays (execSmbBlockRead code pecOk s) :=
  State.run_stays fun d => (Dev.Goes.refl _ _).smbTake _ _ _ _ fun d => Dev.Goes.ite (Dev.Goes.within (Dev.smbReturn_goes _ _ _ _)) (Dev.Goes.ite (((Dev.Goes.refl _ _).with_free _).thn (Dev.smbReturn_goes _ _ _ _)) (((Dev.Goes.refl _ _).setHearth _).thn (Dev.smbReturn_goes _ _ _ _)))

theorem execSmbBlockWrite_stays (code : Byte) (bytes : List Byte) (pec : Byte) (s : State) : s.Stays (execSmbBlockWrite code bytes pec s) :=
  State.run_stays fun d => (Dev.Goes.refl _ _).smbTake _ _ _ _ fun d => Dev.Goes.ite ((Dev.Goes.refl _ _).count _ _) (Dev.Goes.ite (Dev.Goes.refl _ _) ((Dev.Goes.refl _ _).setHearth _))

theorem execSmbReadByte_stays (code : Byte) (pecOk : Bool) (s : State) : s.Stays (execSmbReadByte code pecOk s) := by
  refine State.run_stays fun d => ?_
  extract_lets +onlyGivenNames bit
  exact (Dev.Goes.refl _ _).smbTake _ _ _ _ fun d => Dev.Goes.within (Dev.smbReturn_goes _ _ _ _)

theorem execSnapshotLoaded_stays (e : Fin 3) (s : State) : s.Stays (execSnapshotLoaded e s) := by
  refine State.runServe_stays fun d => ?_
  refine Dev.Goes.ite (Dev.Goes.refl _ _) ?_
  · split
    · exact Dev.Goes.ite (Dev.Goes.within (Dev.serveLoaded_goes _ _)) (Dev.Goes.ite (Dev.Goes.refl _ _) (Dev.Goes.ite (Dev.Goes.within (Dev.takeWave_goes _ _)) (Dev.Goes.within (Dev.overlap_goes _ _ _))))
    · exact Dev.Goes.within (Dev.serveLoaded_goes _ _)

theorem execSnapshotWrite_stays (e : Fin 3) (done : Bool) (s : State) : s.Stays (execSnapshotWrite e done s) := by
  refine State.run_stays fun d => ?_
  extract_lets +onlyGivenNames d1 d2
  have hd1 : d.Goes Part.all d1 := Dev.Goes.within (Dev.engSuperframe_goes _ _ _)
  have hd2 : d.Goes Part.all d2 := hd1.setSpr1 _ _
  split
  · exact Dev.Goes.ite (hd2.thn (Dev.writeSnap_goes _ _ _)) (hd2.thn (Dev.skipSnap_goes _ _))
  · exact hd2.when _ _ fun d => Dev.Goes.within (Dev.skipSnap_goes _ _)

theorem execSpareSelfTest_stays (s : State) : s.Stays (execSpareSelfTest s) := by
  refine State.run_stays fun d => ?_
  split
  · exact (Dev.Goes.refl _ _).when _ _ fun d => ((Dev.Goes.within (Dev.setRole_goes _ _ _)).when _ _ fun d => Dev.Goes.within (Dev.cordWake_goes _ _ _)).thn (Dev.sprShow_goes _)
  · exact Dev.Goes.refl _ _

theorem execSpareTestDone_stays (clean : Bool) (s : State) : s.Stays (execSpareTestDone clean s) := by
  refine State.run_stays fun d => ?_
  split
  · exact Dev.Goes.ite (((Dev.Goes.within (Dev.cordOff_goes _ _)).thn (Dev.setRole_goes _ _ _)).thn (Dev.sprShow_goes _)) ((((Dev.Goes.within (Dev.markFault_goes _ _ _)).thn (Dev.retire_goes _ _)).thn (Dev.sprShow_goes _)).raise _ _)
  · exact Dev.Goes.refl _ _

theorem execSprGapLimit_stays (w : Fin 2) (s : State) : s.Stays (execSprGapLimit w s) :=
  State.run_stays fun d => (Dev.Goes.refl _ _).when _ _ fun d => ((Dev.Goes.refl _ _).setSpr _).raise _ _

theorem execSpreadEntryReturn_stays (i : Fin 256) (s : State) : s.Stays (execSpreadEntryReturn i s) := by
  refine State.runServe_stays fun d => ?_
  split
  · exact Dev.Goes.refl _ _
  · split
    · exact Dev.Goes.refl _ _
    · extract_lets +onlyGivenNames n
      refine Dev.Goes.ite (Dev.Goes.refl _ _) ?_
      · extract_lets +onlyGivenNames x
        have hx : d.Goes Part.all x.1 := Dev.Goes.within (Dev.returnEntry_goes _ _ _ _)
        exact Dev.Goes.ite (hx.thn (Dev.runOver_goes _ _ _)) hx

theorem execSuperframeStamp_stays (w : Fin 2) (kind : Fin 3) (n : Word) (s : State) : s.Stays (execSuperframeStamp w kind n s) := by
  refine State.run_stays fun d => ?_
  extract_lets +onlyGivenNames gap sc
  refine Dev.Goes.ite ?_ (Dev.Goes.ite ((Dev.Goes.within (Dev.superframeSent_goes _ _ _)).when _ _ fun d => Dev.Goes.within (Dev.stampStart_goes _ _ _ _)) (Dev.Goes.within (Dev.stampStart_goes _ _ _ _)))
  · extract_lets +onlyGivenNames ok
    exact ((Dev.Goes.within (Dev.silenceTick_goes _ _)).setWave _ _).when _ _ fun d => Dev.Goes.within (Dev.stampStart_goes _ _ _ _)

theorem execSweeperVisit_stays (q : Fin 8192) (s : State) : s.Stays (execSweeperVisit q s) := by
  refine State.run_stays fun d => ?_
  extract_lets +onlyGivenNames vq
  exact (Dev.Goes.refl _ _).when _ _ fun d => (Dev.Goes.refl _ _).setQueue _ _

theorem execSwitch_stays (v : Word) (s : State) : s.Stays (execSwitch v s) := State.hostWrite_stays _ _ _

theorem execSymbolLock_stays (l : Fin 96) (s : State) : s.Stays (execSymbolLock l s) := by
  refine State.run_stays fun d => ?_
  refine Dev.Goes.ite (Dev.Goes.refl _ _) (Dev.Goes.ite (Dev.Goes.within (Dev.enterActive_goes _ _)) ?_)
  · extract_lets +onlyGivenNames req d1
    have hd1 : d.Goes Part.all d1 := (Dev.Goes.within (Dev.setStage_goes _ _ _)).setLane _ _
    exact hd1.thn (Dev.sendKindling_goes _ _)

theorem execTagRx_stays (w : Fin 2) (sc : Fin 32) (k : ℕ) (cell : List Byte) (mismatches : ℕ) (s : State) : s.Stays (execTagRx w sc k cell mismatches s) := by
  refine State.run_stays fun d => ?_
  extract_lets +onlyGivenNames c
  exact (Dev.Goes.refl _ _).when _ _ fun d => Dev.Goes.within (Dev.cellArrive_goes _ _ _ _ _ _ _ _)

theorem execTakeoverGapEnd_stays (w : Fin 2) (gap : ℕ) (s : State) : s.Stays (execTakeoverGapEnd w gap s) := by
  refine State.run_stays fun d => ?_
  split
  · refine (Dev.Goes.refl _ _).when _ _ fun d => ?_
    · extract_lets +onlyGivenNames d1
      have hd1 : d.Goes Part.all d1 := (((Dev.Goes.refl _ _).setWave _ _).set _ _).when _ _ fun d => (Dev.Goes.refl _ _).count _ _
      exact (hd1.raise _ _).thn (Dev.moveEnd_goes _)
  · exact Dev.Goes.refl _ _

theorem execTapActive_stays (s : State) : s.Stays (execTapActive s) :=
  State.run_stays fun d => ((Dev.Goes.refl _ _).with_tap _).raise _ _

theorem execTapInstruction_stays (i : TapInstr) (s : State) : s.Stays (execTapInstruction i s) := by
  refine State.run_stays fun d => ?_
  extract_lets +onlyGivenNames free j
  exact ((Dev.Goes.refl _ _).with_tap _).emit _

theorem execTemplateCommit_stays (s : State) : s.Stays (execTemplateCommit s) := State.hostField_stays _ _ _ _

theorem execThermTrip_stays (s : State) : s.Stays (execThermTrip s) := by
  refine State.runServe_stays fun d => ?_
  refine (Dev.Goes.refl _ _).when _ _ fun d => ?_
  · extract_lets +onlyGivenNames d1 d2 d3
    have hd1 : d.Goes Part.all d1 := (Dev.Goes.within (Dev.tripRoles_goes _)).thn (Dev.tripTrans_goes _)
    have hd2 : d.Goes Part.all d2 := hd1.each _ _ fun d c => (Dev.Goes.within (Dev.cordFail_goes _ _ _)).setCordInfo _ _
    have hd3 : d.Goes Part.all d3 := (hd2.set _ _).setPwr _
    exact ((hd3.raise _ _).thn (Dev.tripReload_goes _)).thn (Dev.runPending_goes _)

theorem execTimNsRead_stays (s : State) : s.Stays (execTimNsRead s) := State.hostRead_stays _ _

theorem execTimeOfDay_stays (w : Fin 2) (rsfn : Word) (sec : BitVec 48) (ns : Word) (frac : BitVec 16) (s : State) : s.Stays (execTimeOfDay w rsfn sec ns frac s) :=
  State.run_stays fun d => Dev.Goes.within (Dev.timeOfDayRx_goes _ _ _ _ _ _)

theorem execTimeStep_stays (v : Word) (s : State) : s.Stays (execTimeStep v s) := State.hostWrite_stays _ _ _

theorem execTimeWrap_stays (s : State) : s.Stays (execTimeWrap s) := by
  refine State.run_stays fun d => ?_
  refine Dev.Goes.ite (Dev.Goes.refl _ _) ?_
  · extract_lets +onlyGivenNames d1 inc
    have hd1 : d.Goes Part.all d1 := Dev.Goes.within (Dev.tick_goes _)
    exact hd1.thn (Dev.ticksOn_goes _ _)

theorem execTimingLock_stays (e : Fin 3) (offset : ℤ) (tejit : ℕ) (s : State) : s.Stays (execTimingLock e offset tejit s) :=
  State.run_stays fun d => (Dev.Goes.refl _ _).when _ _ fun d => (((((((Dev.Goes.refl _ _).setInt _ _).set _ _).set _ _).setEng _ _).thn (Dev.discipline_goes _)).thn (Dev.steerBy_goes _ _)).thn (Dev.advance_goes _ _)

theorem execTodSend_stays (w : Fin 2) (s : State) : s.Stays (execTodSend w s) := by
  refine State.run_stays fun d => ?_
  extract_lets +onlyGivenNames t
  refine Dev.Goes.ite (Dev.Goes.refl _ _) ?_
  · extract_lets +onlyGivenNames e
    exact Dev.Goes.ite (((Dev.Goes.refl _ _).count _ _).raise _ _) (Dev.Goes.within (Dev.sendCtrl_goes _ _ _ _))

theorem execTrUnlock_stays (e : Fin 3) (offset : ℤ) (tejit : ℕ) (s : State) : s.Stays (execTrUnlock e offset tejit s) := by
  refine State.run_stays fun d => ?_
  refine Dev.Goes.ite ?_ (Dev.Goes.refl _ _)
  · extract_lets +onlyGivenNames d1 d2 d3
    have hd1 : d.Goes Part.all d1 := (((Dev.Goes.refl _ _).setInt _ _).set _ _).set _ _
    have hd2 : d.Goes Part.all d2 := (hd1.when _ _ fun d => (Dev.Goes.refl _ _).set _ _).thn (Dev.rxEvent_goes _ _ _ _)
    have hd3 : d.Goes Part.all d3 := (hd2.thn (Dev.dropPhase_goes _ _ _)).thn (Dev.discipline_goes _)
    exact hd3.thn (Dev.startAcq_goes _ _ _)

theorem execTrainingDone_stays (l : Fin 96) (s : State) : s.Stays (execTrainingDone l s) :=
  State.run_stays fun d => (Dev.Goes.refl _ _).when _ _ fun d => Dev.Goes.within (Dev.enterLock_goes _ _)

theorem execTrainingRequest_stays (l : Fin 96) (q : TrainReq) (s : State) : s.Stays (execTrainingRequest l q s) := by
  refine State.run_stays fun d => ?_
  refine Dev.Goes.ite (Dev.Goes.refl _ _) (Dev.Goes.ite (((Dev.Goes.refl _ _).count _ _).thn (Dev.laneEvent_goes _ _ _ _)) ?_)
  refine Dev.Goes.ite (((((Dev.Goes.refl _ _).set _ _).set _ _).set _ _).set _ _ |>.emit _) (Dev.Goes.ite ((Dev.Goes.within (Dev.initTaps_goes _ _)).emit _) ?_)
  extract_lets +onlyGivenNames r
  have hr : d.Goes Part.all r.1 := by
    refine Dev.Goes.foldl_fst _ (fun a x => ?_) _ (Dev.Goes.refl _ _)
    have hx : a.1.Goes Part.all (a.1.tapStep l x.1 x.2).1 := Dev.Goes.within (Dev.tapStep_goes _ _ _ _)
    exact hx
  exact hr.emit _

theorem execTrdGo_stays (w : Fin 2) (v : Word) (s : State) : s.Stays (execTrdGo w v s) := State.hostWrite_stays _ _ _

theorem execTripClear_stays (s : State) : s.Stays (execTripClear s) :=
  State.run_stays fun _ => (Dev.Goes.refl _ _).when _ _ fun _ => (Dev.Goes.refl _ _).set _ _

theorem execTuruidCommandStart_stays (w : Fin 2) (s : State) : s.Stays (execTuruidCommandStart w s) := by
  refine State.run_stays fun d => ?_
  refine Dev.Goes.ite (Dev.Goes.refl _ _) ?_
  · split
    · exact Dev.Goes.refl _ _
    · extract_lets +onlyGivenNames f
      exact ((Dev.Goes.refl _ _).setConv _ _).emit _

theorem execTuruidHeartbeat_stays (w : Fin 2) (s : State) : s.Stays (execTuruidHeartbeat w s) :=
  State.run_stays fun d => (Dev.Goes.refl _ _).when _ _ fun d => (Dev.Goes.refl _ _).setConv _ _

theorem execTuruidReply_stays (w : Fin 2) (frame : BitVec 48) (s : State) : s.Stays (execTuruidReply w frame s) := by
  refine State.run_stays fun d => ?_
  split
  · exact Dev.Goes.refl _ _
  · extract_lets +onlyGivenNames f ty arg good
    refine Dev.Goes.ite ?_ ((((((Dev.Goes.within (Dev.trdFail_goes _ _)).thn (Dev.trdResult_goes _ _ _ _)).count _ _).raise _ _).thn (Dev.trdDown_goes _ _)).thn (Dev.trdReportFail_goes _ _ _ _ _))
    · extract_lets +onlyGivenNames d1 d2
      have hd1 : d.Goes Part.all d1 := ((((Dev.Goes.refl _ _).setConv _ _).set _ _).thn (Dev.trdResult_goes _ _ _ _)).when _ _ fun d => (Dev.Goes.refl _ _).set _ _
      have hd2 : d.Goes Part.all d2 := Dev.Goes.ite ((hd1.count _ _).raise _ _) hd1
      split
      · exact Dev.Goes.ite (hd2.thn (Dev.settling_goes _ _ _)) (hd2.thn (Dev.laserFailed_goes _ _ _))
      · exact hd2.when _ _ fun d => Dev.Goes.within (Dev.hostAcked_goes _ _ _)
      · exact hd2
      · exact hd2.when _ _ fun d => (Dev.Goes.refl _ _).setInt _ _
      · exact hd2

theorem execTuruidTimeout_stays (w : Fin 2) (s : State) : s.Stays (execTuruidTimeout w s) := by
  refine State.run_stays fun d => ?_
  split
  · exact Dev.Goes.refl _ _
  · exact (((((Dev.Goes.within (Dev.trdFail_goes _ _)).thn (Dev.trdResult_goes _ _ _ _)).count _ _).raise _ _).thn (Dev.trdDown_goes _ _)).thn (Dev.trdReportFail_goes _ _ _ _ _)

theorem execTxDacClip_stays (e : Fin 3) (ch : Fin 4) (xs : List ℤ) (s : State) : s.Stays (execTxDacClip e ch xs s) := by
  refine State.run_stays fun d => ?_
  extract_lets +onlyGivenNames clips now was m past d1
  have hd1 : d.Goes Part.all d1 := ((Dev.Goes.refl _ _).setEng _ _).setFlag _ _
  exact hd1.when _ _ fun d => (((Dev.Goes.refl _ _).set _ _).count _ _).when _ _ fun d => Dev.Goes.within (Dev.txEvent_goes _ _ _ _)

theorem execTxPolice_stays (w : Fin 2) (s : State) : s.Stays (execTxPolice w s) :=
  State.run_stays fun d => (Dev.Goes.refl _ _).when _ _ fun d => (((Dev.Goes.refl _ _).set _ _).thn (Dev.enterSilence_goes _ _)).thn (Dev.sfEvent_goes _ _ _ _)

theorem execTxProfileApply_stays (w : Fin 2) (dir : Fin 2) (sfn : Word) (s : State) : s.Stays (execTxProfileApply w dir sfn s) :=
  State.run_stays fun d => ((Dev.Goes.refl _ _).when _ _ fun d => Dev.Goes.within (Dev.applyBack_goes _ _)).thn (Dev.applyPend_goes _ _ _ _)

theorem execTxgFetch_stays (r : Fin 2048) (words : List Word) (data : List Byte) (s : State) : s.Stays (execTxgFetch r words data s) := by
  refine State.run_stays fun d => ?_
  extract_lets +onlyGivenNames g len sof room
  refine Dev.Goes.ite (Dev.Goes.refl _ _) ?_
  · extract_lets +onlyGivenNames x
    exact (((Dev.Goes.refl _ _).setRing _ _ _).each _ _ fun d x => Dev.Goes.within (Dev.txBad_goes _ _ _)).thn (Dev.txSettle_goes _ _)

theorem execTxgFrameSubmit_stays (r : Fin 2048) (tail : Option (BitVec 17)) (s : State) : s.Stays (execTxgFrameSubmit r tail s) := by
  refine State.run_stays fun d₀ => ?_
  extract_lets +onlyGivenNames d still l
  have hd : d₀.Goes Part.all d := Dev.Goes.within (Dev.tailFirst_goes _ _ _ _)
  split
  · exact hd.when _ _ fun d => Dev.Goes.within (Dev.ringRefresh_goes _ _ _ _)
  · extract_lets +onlyGivenNames frame bytes ok d1
    have hd1 : d₀.Goes Part.all d1 := hd.setRing _ _ _
    exact Dev.Goes.ite (hd.when _ _ fun d => Dev.Goes.within (Dev.ringRefresh_goes _ _ _ _)) (Dev.Goes.ite ((hd1.thn (Dev.linkPush_goes _ _ _)).thn (Dev.txSettle_goes _ _)) ((hd1.count _ _).thn (Dev.txSettle_goes _ _)))

theorem execTxgTimeout_stays (r : Fin 2048) (s : State) : s.Stays (execTxgTimeout r s) := by
  refine State.run_stays fun d => ?_
  extract_lets +onlyGivenNames l o unread
  exact (Dev.Goes.refl _ _).when _ _ fun d => (((Dev.Goes.refl _ _).setRing _ _ _).thn (Dev.txBad_goes _ _ _)).thn (Dev.txSettle_goes _ _)

theorem execTxtsPop_stays (p : Fin 96) (s : State) : s.Stays (execTxtsPop p s) := State.hostField_stays _ _ _ _

theorem execUnmute_stays (e : Fin 3) (s : State) : s.Stays (execUnmute e s) := State.hostField_stays _ _ _ _

theorem execUnretire_stays (v : Word) (s : State) : s.Stays (execUnretire v s) := State.hostWrite_stays _ _ _

theorem execUpdAbort_stays (s : State) : s.Stays (execUpdAbort s) :=
  State.mailbox_stays fun d q => Dev.Goes.ite (Dev.Goes.within (Dev.mbxEnd_goes _ _ _ _)) (Dev.Goes.ite (Dev.Goes.within (Dev.mbxEnd_goes _ _ _ _)) ((Dev.Goes.within (Dev.updOver_goes _ _)).thn (Dev.mbxEnd_goes _ _ _ _)))

theorem execUpdBegin_stays (s : State) : s.Stays (execUpdBegin s) := by
  refine State.mailbox_stays fun d q => ?_
  extract_lets +onlyGivenNames target len range
  refine Dev.Goes.ite (Dev.Goes.within (Dev.mbxEnd_goes _ _ _ _)) (Dev.Goes.ite (Dev.Goes.within (Dev.mbxEnd_goes _ _ _ _)) (Dev.Goes.ite (Dev.Goes.within (Dev.mbxEnd_goes _ _ _ _)) (Dev.Goes.ite (Dev.Goes.within (Dev.mbxEnd_goes _ _ _ _)) ?_)))
  · extract_lets +onlyGivenNames slot u d1 d2
    have hd1 : d.Goes Part.all d1 := Dev.Goes.within (Dev.mramPut_goes _ _ _)
    have hd2 : d.Goes Part.all d2 := Dev.Goes.ite hd1 (Dev.Goes.ite (hd1.set _ _) (hd1.set _ _))
    exact (((hd2.setHearth _).set _ _).setFlag _ _).thn (Dev.mbxEnd_goes _ _ _ _)

theorem execUpdData_stays (s : State) : s.Stays (execUpdData s) := by
  refine State.mailbox_stays fun d q => ?_
  extract_lets +onlyGivenNames o b
  refine Dev.Goes.ite (Dev.Goes.within (Dev.mbxEnd_goes _ _ _ _)) ?_
  · split
    · exact Dev.Goes.within (Dev.mbxEnd_goes _ _ _ _)
    · refine Dev.Goes.ite (Dev.Goes.within (Dev.mbxEnd_goes _ _ _ _)) ?_
      · extract_lets +onlyGivenNames head k
        exact ((Dev.Goes.within (Dev.mramPut_goes _ _ _)).setHearth _).thn (Dev.mbxEnd_goes _ _ _ _)

theorem execUpdEnd_stays (s : State) : s.Stays (execUpdEnd s) := by
  refine State.mailbox_stays fun d q => ?_
  refine Dev.Goes.ite (Dev.Goes.within (Dev.mbxEnd_goes _ _ _ _)) ?_
  · split
    · exact Dev.Goes.within (Dev.mbxEnd_goes _ _ _ _)
    · extract_lets +onlyGivenNames x
      have hx : d.Goes Part.all x.1 := (Dev.Goes.within (Dev.mramPut_goes _ _ _)).thn (Dev.updCheck_goes _ _ _)
      exact (hx.thn (Dev.updOver_goes _ _)).thn (Dev.mbxEnd_goes _ _ _ _)

theorem execUpdSessionTimeout_stays (s : State) : s.Stays (execUpdSessionTimeout s) :=
  State.run_stays fun d => (Dev.Goes.refl _ _).when _ _ fun d => Dev.Goes.within (Dev.updOver_goes _ _)

theorem execUrgentPair_stays (w : Fin 2) (g : Fin 32) (mismatches : ℕ) (s : State) : s.Stays (execUrgentPair w g mismatches s) := by
  refine State.run_stays fun d => Dev.Goes.ite (Dev.Goes.refl _ _) ?_
  split
  · exact Dev.Goes.refl _ _
  · next m t _ =>
    extract_lets +onlyGivenNames d0
    have hd0 : d.Goes Part.all d0 := (Dev.Goes.refl _ _).setWave _ _
    have hseal : d.Goes Part.all (d0.sealCells w g true [ctrlCell 0xFFFFF 6 m] mismatches).1 := hd0.thn (Dev.sealCells_goes _ _ _ _ _ _)
    split
    · next heq => exact Dev.Goes.setGrp (heq ▸ hseal : d.Goes Part.all (_, some _).1) _ _ _
    · next heq => exact (heq ▸ hseal : d.Goes Part.all (_, none).1)

theorem execWakeTimeout_stays (c : Fin 13) (s : State) : s.Stays (execWakeTimeout c s) :=
  State.runServe_stays fun d => Dev.Goes.within (Dev.wakeTimeout_goes _ _ _)

theorem execWatchdogRestart_stays (done : ℕ) (s : State) : s.Stays (execWatchdogRestart done s) := by
  refine State.runServe_stays fun d => ?_
  refine Dev.Goes.ite (Dev.Goes.refl _ _) ?_
  · extract_lets +onlyGivenNames d1
    have hd1 : d.Goes Part.all d1 := by
      unfold d1
      split
      · exact Dev.Goes.refl _ _
      · extract_lets +onlyGivenNames d0 x
        have hd0 : d.Goes Part.all d0 := by
          unfold d0
          split
          · exact (Dev.Goes.refl _ _).when _ _ fun d => (Dev.Goes.within (Dev.mramPut_goes _ _ _)).thn (Dev.updOver_goes _ _)
          · exact Dev.Goes.refl _ _
        have hx : d.Goes Part.all x.1 := hd0.thn (Dev.mbxCut_goes _ _ _ _)
        exact hx.thn (Dev.mbxEnd_goes _ _ _ _)
    exact hd1.thn (Dev.fwSelect_goes _ _ _)

theorem execWr_stays (s : State) : s.Stays (execWr s) :=
  State.mailbox_stays fun d q => Dev.Goes.within (Dev.mbxWr_goes _ _ _ _)

theorem execWr0_stays (s : State) : s.Stays (execWr0 s) :=
  State.mailbox_stays fun d q => Dev.Goes.within (Dev.mbxWr_goes _ _ _ _)

theorem execWriteidx_stays (v : Word) (bad : List ℕ) (s : State) : s.Stays (execWriteidx v bad s) := State.emtWrite_stays _ _ _

theorem execWrm_stays (s : State) : s.Stays (execWrm s) := by
  refine State.mailbox_stays fun d q => ?_
  extract_lets +onlyGivenNames a
  refine Dev.Goes.ite (Dev.Goes.within (Dev.mbxEnd_goes _ _ _ _)) ?_
  extract_lets +onlyGivenNames t
  refine Dev.Goes.ite (Dev.Goes.within (Dev.mbxEnd_goes _ _ _ _)) ((Dev.Goes.refl _ _).mbxReach _ _ _ _ fun d => ?_)
  extract_lets +onlyGivenNames new
  have hput : d.Goes Part.all (d.mbxPut s.fuses a new).1 := Dev.Goes.within (Dev.mbxPut_goes _ _ _ _)
  exact hput.mbxWrote _ _

theorem execWrn_stays (s : State) : s.Stays (execWrn s) := by
  refine State.mailbox_stays fun d q => ?_
  extract_lets +onlyGivenNames blk a n none_
  refine Dev.Goes.ite (Dev.Goes.within (Dev.mbxEnd_goes _ _ _ _)) (Dev.Goes.ite (Dev.Goes.within (Dev.mbxEnd_goes _ _ _ _)) (Dev.Goes.ite (Dev.Goes.within (Dev.mbxEnd_goes _ _ _ _)) ?_))
  · extract_lets +onlyGivenNames t
    refine Dev.Goes.ite (Dev.Goes.within (Dev.mbxEnd_goes _ _ _ _)) ((Dev.Goes.refl _ _).mbxReach _ _ _ _ fun d => ?_)
    · extract_lets +onlyGivenNames x
      have hx : d.Goes Part.all x.1 := Dev.Goes.within (Dev.mbxWrites_goes _ _ _ _ _ _ _)
      exact hx.thn (Dev.mbxEnd_goes _ _ _ _)

/-- What is in form before a command is in form after it. -/
theorem exec_stays (i : Instr) (s : State) : s.Stays (exec i s) := by
  unfold exec
  cases i with
  | deviceReset ns => exact execDeviceReset_stays ns s
  | deviceBringup straps => exact execDeviceBringup_stays straps s
  | powerLoss => exact execPowerLoss_stays s
  | refclkValid => exact execRefclkValid_stays s
  | refclkLost => exact execRefclkLost_stays s
  | rootLock => exact execRootLock_stays s
  | rootUnlock => exact execRootUnlock_stays s
  | registerWrite a size v => exact execRegisterWrite_stays a size v s
  | aerrRead => exact execAerrRead_stays s
  | timNsRead => exact execTimNsRead_stays s
  | groupFirstRead r => exact execGroupFirstRead_stays r s
  | rcFieldRead a size => exact execRcFieldRead_stays a size s
  | accessWake a write => exact execAccessWake_stays a write s
  | cordReady c badBanks => exact execCordReady_stays c badBanks s
  | wakeTimeout c => exact execWakeTimeout_stays c s
  | coldEngineIdleOff e => exact execColdEngineIdleOff_stays e s
  | rxLos w lvl => exact execRxLos_stays w lvl s
  | losClear w lvl => exact execLosClear_stays w lvl s
  | adcClip w ch clips => exact execAdcClip_stays w ch clips s
  | acquisitionStart e => exact execAcquisitionStart_stays e s
  | cdScanDone e est => exact execCdScanDone_stays e est s
  | cfoAcqDone e cfo => exact execCfoAcqDone_stays e cfo s
  | cfoAcqFail e => exact execCfoAcqFail_stays e s
  | ncoRange e residual => exact execNcoRange_stays e residual s
  | timingLock e offset tejit => exact execTimingLock_stays e offset tejit s
  | trUnlock e offset tejit => exact execTrUnlock_stays e offset tejit s
  | eqConverged e mask => exact execEqConverged_stays e mask s
  | phaseLock e sc => exact execPhaseLock_stays e sc s
  | crUnlock e sc => exact execCrUnlock_stays e sc s
  | crSlip e sc => exact execCrSlip_stays e sc s
  | eqSingular e sc => exact execEqSingular_stays e sc s
  | cdDrift e est => exact execCdDrift_stays e est s
  | acqTimeout e => exact execAcqTimeout_stays e s
  | laserLoopDecision e off since => exact execLaserLoopDecision_stays e off since s
  | decodeSetChange e => exact execDecodeSetChange_stays e s
  | qualLatch e sc level evm => exact execQualLatch_stays e sc level evm s
  | eqSopRate e sc rate dgd => exact execEqSopRate_stays e sc rate dgd s
  | llrSat e sc labels => exact execLlrSat_stays e sc labels s
  | txProfileApply w dir sfn => exact execTxProfileApply_stays w dir sfn s
  | maskCheck e power => exact execMaskCheck_stays e power s
  | unmute e => exact execUnmute_stays e s
  | txDacClip e ch xs => exact execTxDacClip_stays e ch xs s
  | trdGo w v => exact execTrdGo_stays w v s
  | turuidCommandStart w => exact execTuruidCommandStart_stays w s
  | turuidReply w frame => exact execTuruidReply_stays w frame s
  | turuidTimeout w => exact execTuruidTimeout_stays w s
  | turuidHeartbeat w => exact execTuruidHeartbeat_stays w s
  | alignmentTest w sc pos signs => exact execAlignmentTest_stays w sc pos signs s
  | frameHeaderRx w sc llrs => exact execFrameHeaderRx_stays w sc llrs s
  | fecBlockDecode w sc j a b => exact execFecBlockDecode_stays w sc j a b s
  | pmSecond w extra spared => exact execPmSecond_stays w extra spared s
  | pmCommit w => exact execPmCommit_stays w s
  | pmClear w => exact execPmClear_stays w s
  | cellRx w sc k uncorr cell => exact execCellRx_stays w sc k uncorr cell s
  | reassemblyTimeout w flow => exact execReassemblyTimeout_stays w flow s
  | groupResume w g => exact execGroupResume_stays w g s
  | cellTx w g => exact execCellTx_stays w g s
  | discover w peqd rspread alen bkmax => exact execDiscover_stays w peqd rspread alen bkmax s
  | assignId w serial tid => exact execAssignId_stays w serial tid s
  | range w eqd rtd esfn => exact execRange_stays w eqd rtd esfn s
  | grantMap w tsfn gs => exact execGrantMap_stays w tsfn gs s
  | profileChange w tid mseq esfn mdir op mask codes => exact execProfileChange_stays w tid mseq esfn mdir op mask codes s
  | keySwitch w tid mseq gid mdir kidx esfn => exact execKeySwitch_stays w tid mseq gid mdir kidx esfn s
  | timeOfDay w rsfn sec ns frac => exact execTimeOfDay_stays w rsfn sec ns frac s
  | silence w tid dur => exact execSilence_stays w tid dur s
  | silenceExpiry w => exact execSilenceExpiry_stays w s
  | release w reason => exact execRelease_stays w reason s
  | ack w amtype amseq result _esfn => exact execAck_stays w amtype amseq result _esfn s
  | ackResend w => exact execAckResend_stays w s
  | prfReqGo w v => exact execPrfReqGo_stays w v s
  | prfProposalExpire w => exact execPrfProposalExpire_stays w s
  | kswGo w v => exact execKswGo_stays w v s
  | todSend w => exact execTodSend_stays w s
  | disctoExpiry w => exact execDisctoExpiry_stays w s
  | idtoExpiry w => exact execIdtoExpiry_stays w s
  | rngtoExpiry w => exact execRngtoExpiry_stays w s
  | losttoExpiry w => exact execLosttoExpiry_stays w s
  | blosstoExpiry w => exact execBlosstoExpiry_stays w s
  | burstStart w sc tsfn start mism => exact execBurstStart_stays w sc tsfn start mism s
  | burstEnd w sc tsfn start => exact execBurstEnd_stays w sc tsfn start s
  | txPolice w => exact execTxPolice_stays w s
  | resume w => exact execResume_stays w s
  | deact w => exact execDeact_stays w s
  | sealGroup w g mismatches => exact execSealGroup_stays w g mismatches s
  | urgentPair w g mismatches => exact execUrgentPair_stays w g mismatches s
  | tagRx w sc k cell mismatches => exact execTagRx_stays w sc k cell mismatches s
  | keySwitchApply w dir sfn => exact execKeySwitchApply_stays w dir sfn s
  | haltResume w g => exact execHaltResume_stays w g s
  | keyLoad w v => exact execKeyLoad_stays w v s
  | keyErase w v => exact execKeyErase_stays w v s
  | cryClrflt w g rx => exact execCryClrflt_stays w g rx s
  | engineFault e cause other lost => exact execEngineFault_stays e cause other lost s
  | takeoverGapEnd w gap => exact execTakeoverGapEnd_stays w gap s
  | sprGapLimit w => exact execSprGapLimit_stays w s
  | snapshotWrite e done => exact execSnapshotWrite_stays e done s
  | repairSelfTestDone e clean => exact execRepairSelfTestDone_stays e clean s
  | seasonPassDone e clean left again => exact execSeasonPassDone_stays e clean left again s
  | seasoningDone e => exact execSeasoningDone_stays e s
  | revertStart w => exact execRevertStart_stays w s
  | revertMove w clean => exact execRevertMove_stays w clean s
  | revertTimeout w => exact execRevertTimeout_stays w s
  | restore w => exact execRestore_stays w s
  | spareSelfTest => exact execSpareSelfTest_stays s
  | spareTestDone clean => exact execSpareTestDone_stays clean s
  | switch v => exact execSwitch_stays v s
  | force v => exact execForce_stays v s
  | revertNow v => exact execRevertNow_stays v s
  | retire v => exact execRetire_stays v s
  | unretire v => exact execUnretire_stays v s
  | packetArrival k => exact execPacketArrival_stays k s
  | sliceProcess n badRules badSlots => exact execSliceProcess_stays n badRules badSlots s
  | templateCommit => exact execTemplateCommit_stays s
  | clsWrite v => exact execClsWrite_stays v s
  | clsRead v bad => exact execClsRead_stays v bad s
  | clsInvalidate v => exact execClsInvalidate_stays v s
  | clsReadclr v bad => exact execClsReadclr_stays v bad s
  | insert v bad => exact execInsert_stays v bad s
  | delete v bad => exact execDelete_stays v bad s
  | lookup v bad => exact execLookup_stays v bad s
  | readidx v bad => exact execReadidx_stays v bad s
  | writeidx v bad => exact execWriteidx_stays v bad s
  | cad v bad => exact execCad_stays v bad s
  | ageStep v => exact execAgeStep_stays v s
  | epochAdvance => exact execEpochAdvance_stays s
  | agerPassEnd bad => exact execAgerPassEnd_stays bad s
  | learnRequest bad => exact execLearnRequest_stays bad s
  | holdExpire => exact execHoldExpire_stays s
  | queueEnqueue => exact execQueueEnqueue_stays s
  | bufferFree b agent => exact execBufferFree_stays b agent s
  | bufferReclaim c => exact execBufferReclaim_stays c s
  | schedulerSelect k corrected ecc => exact execSchedulerSelect_stays k corrected ecc s
  | sweeperVisit q => exact execSweeperVisit_stays q s
  | shaperRefill => exact execShaperRefill_stays s
  | samplerLatch k => exact execSamplerLatch_stays k s
  | samplerRead v => exact execSamplerRead_stays v s
  | qmFlush v => exact execQmFlush_stays v s
  | qFlushDone => exact execQFlushDone_stays s
  | macFrameRx p f pcs => exact execMacFrameRx_stays p f pcs s
  | pauseFrameRx p f => exact execPauseFrameRx_stays p f s
  | pauseTimerExpire p c => exact execPauseTimerExpire_stays p c s
  | macFrameTx p => exact execMacFrameTx_stays p s
  | pauseXoff p arriving => exact execPauseXoff_stays p arriving s
  | pauseRepeat p => exact execPauseRepeat_stays p s
  | pauseXon p arriving => exact execPauseXon_stays p arriving s
  | gclCommit p v => exact execGclCommit_stays p v s
  | macGclSwitch p => exact execMacGclSwitch_stays p s
  | gclCancel p => exact execGclCancel_stays p s
  | gateEntryChange p => exact execGateEntryChange_stays p s
  | macLinkUp p => exact execMacLinkUp_stays p s
  | macLinkDown p rxFrame => exact execMacLinkDown_stays p rxFrame s
  | lpiEnter p => exact execLpiEnter_stays p s
  | lpiExit p => exact execLpiExit_stays p s
  | macPark p => exact execMacPark_stays p s
  | portUnpark p => exact execPortUnpark_stays p s
  | macTinderWake p periods => exact execMacTinderWake_stays p periods s
  | txtsPop p => exact execTxtsPop_stays p s
  | lnDetect l => exact execLnDetect_stays l s
  | autonegDone l own offer => exact execAutonegDone_stays l own offer s
  | trainingRequest l q => exact execTrainingRequest_stays l q s
  | trainingDone l => exact execTrainingDone_stays l s
  | lnTrainTo l => exact execLnTrainTo_stays l s
  | symbolLock l => exact execSymbolLock_stays l s
  | lnLockTo l => exact execLnLockTo_stays l s
  | kindlingFrameRx l frame => exact execKindlingFrameRx_stays l frame s
  | lnCapTo l => exact execLnCapTo_stays l s
  | retryExpire l => exact execRetryExpire_stays l s
  | lnRemoved l => exact execLnRemoved_stays l s
  | lnLockLost l => exact execLnLockLost_stays l s
  | eyeMeasure l height width snr => exact execEyeMeasure_stays l height width snr s
  | lnFecUncorr l => exact execLnFecUncorr_stays l s
  | laneFecSecond l corrections codewords => exact execLaneFecSecond_stays l corrections codewords s
  | loopMode l mode => exact execLoopMode_stays l mode s
  | prbsControl l v => exact execPrbsControl_stays l v s
  | lnPrbsErr l errors => exact execLnPrbsErr_stays l errors s
  | pcieLinkUp speed width => exact execPcieLinkUp_stays speed width s
  | pciLinkDown => exact execPciLinkDown_stays s
  | pciePerst low => exact execPciePerst_stays low s
  | ringTailWrite tx r v => exact execRingTailWrite_stays tx r v s
  | ringEnable tx r => exact execRingEnable_stays tx r s
  | ringDisable tx r written => exact execRingDisable_stays tx r written s
  | ringFlush tx r written => exact execRingFlush_stays tx r written s
  | pciFlushDone tx r => exact execPciFlushDone_stays tx r s
  | ringIrqEnable tx r => exact execRingIrqEnable_stays tx r s
  | rxgPacket => exact execRxgPacket_stays s
  | rxgFrameWrite r addrs tail => exact execRxgFrameWrite_stays r addrs tail s
  | rxgTimeout r => exact execRxgTimeout_stays r s
  | txgFetch r words data => exact execTxgFetch_stays r words data s
  | txgFrameSubmit r tail => exact execTxgFrameSubmit_stays r tail s
  | txgTimeout r => exact execTxgTimeout_stays r s
  | pciRingPtr tx r => exact execPciRingPtr_stays tx r s
  | pciDmaErr tx r why => exact execPciDmaErr_stays tx r why s
  | timeWrap => exact execTimeWrap_stays s
  | timeStep v => exact execTimeStep_stays v s
  | superframeStamp w kind n => exact execSuperframeStamp_stays w kind n s
  | ppsIn high => exact execPpsIn_stays high s
  | ppsInLoss => exact execPpsInLoss_stays s
  | ppsOutRise => exact execPpsOutRise_stays s
  | ppsOutFall => exact execPpsOutFall_stays s
  | bootSelection => exact execBootSelection_stays s
  | activate v => exact execActivate_stays v s
  | reload v => exact execReload_stays v s
  | resolve v => exact execResolve_stays v s
  | drainComplete c => exact execDrainComplete_stays c s
  | drainTimeout c units => exact execDrainTimeout_stays c units s
  | pktSlicePairEmpty => exact execPktSlicePairEmpty_stays s
  | spreadEntryReturn idx => exact execSpreadEntryReturn_stays idx s
  | powerRequest v => exact execPowerRequest_stays v s
  | cordOn c => exact execCordOn_stays c s
  | cordOff c => exact execCordOff_stays c s
  | cordClear c => exact execCordClear_stays c s
  | dozeSearchStep => exact execDozeSearchStep_stays s
  | info => exact execInfo_stays s
  | rd => exact execRd_stays s
  | wr0 => exact execWr0_stays s
  | wr => exact execWr_stays s
  | wrm => exact execWrm_stays s
  | wrn => exact execWrn_stays s
  | mbxUnknownOpcode => exact execMbxUnknownOpcode_stays s
  | updBegin => exact execUpdBegin_stays s
  | updData => exact execUpdData_stays s
  | updEnd => exact execUpdEnd_stays s
  | updAbort => exact execUpdAbort_stays s
  | updSessionTimeout => exact execUpdSessionTimeout_stays s
  | fwActivate => exact execFwActivate_stays s
  | cfg => exact execCfg_stays s
  | logRead => exact execLogRead_stays s
  | logNote => exact execLogNote_stays s
  | logInfo => exact execLogInfo_stays s
  | smbBlockRead code pecOk => exact execSmbBlockRead_stays code pecOk s
  | smbReadByte code pecOk => exact execSmbReadByte_stays code pecOk s
  | watchdogRestart done => exact execWatchdogRestart_stays done s
  | sensorRead idx t => exact execSensorRead_stays idx t s
  | thermTrip => exact execThermTrip_stays s
  | tripClear => exact execTripClear_stays s
  | railSample idx mv => exact execRailSample_stays idx mv s
  | clockMonitor m ppm => exact execClockMonitor_stays m ppm s
  | eventStatClear n raised => exact execEventStatClear_stays n raised s
  | eventMsienEnable g => exact execEventMsienEnable_stays g s
  | msixHeldSend v => exact execMsixHeldSend_stays v s
  | ashLogEntry => exact execAshLogEntry_stays s
  | fiArm idx => exact execFiArm_stays idx s
  | fiDisarm idx => exact execFiDisarm_stays idx s
  | fiKill => exact execFiKill_stays s
  | fiUnit idx dir a b bytes => exact execFiUnit_stays idx dir a b bytes s
  | fiHoldTo idx => exact execFiHoldTo_stays idx s
  | tapActive => exact execTapActive_stays s
  | tapInstruction idx => exact execTapInstruction_stays idx s
  | keyRevoke mask => exact execKeyRevoke_stays mask s
  | snapshotLoaded e => exact execSnapshotLoaded_stays e s
  | flt24Expiry e => exact execFlt24Expiry_stays e s
  | correctableEccError e inSecond => exact execCorrectableEccError_stays e inSecond s
  | prbsCheckerLock l => exact execPrbsCheckerLock_stays l s
  | receiverLpi p quiet => exact execReceiverLpi_stays p quiet s
  | smbBlockWrite code bytes pec => exact execSmbBlockWrite_stays code bytes pec s
  | configurationRequest q => exact execConfigurationRequest_stays q s
  | msixTableWrite ofs v => exact execMsixTableWrite_stays ofs v s

theorem step_stays (s : State) : s.Stays (step s) := by
  unfold step
  split
  · exact State.run_stays fun d => Dev.Goes.within (Dev.tick_goes d)
  · next c rest _ => exact exec_stays c { s with pending := rest }

/-- Settles O60: every function of the model keeps in form what is in form, and a step is a tick or a command. -/
theorem counterAndMemoriesStayInForm : Obligations.CounterAndMemoriesStayInForm := by
  intro s t htime hregs hmram hember hstep
  obtain ⟨htime', hregs', hmram', hember'⟩ := step_stays s t hstep ⟨htime, hregs, hmram, hember⟩
  exact ⟨htime', hregs', hmram', hember'⟩

end Sys2Proof.Machine
end

section
/-!
PROOFS. What of Hearth's registers a function of the model leaves: up to those of its own events, all but a list (R9, R27).
-/

namespace Sys2Proof.Machine

/-- Registers of a range lost (R12). -/
theorem Dev.reg_dropRegs (d : Dev) (lo hi a : ℕ) : (d.dropRegs lo hi).reg a = if lo ≤ a ∧ a < hi then regReset a else d.reg a := by
  simp only [Dev.reg, Dev.dropRegs, Tbl.dropRange]
  rw [Tbl.get_filter (regReset a) (fun k => decide (k < lo) || decide (hi ≤ k))]
  by_cases h : lo ≤ a ∧ a < hi
  · rw [if_pos h, if_neg (by simp; omega)]
  · rw [if_neg h, if_pos (by simp; omega)]

theorem Dev.reg_dropRegs_out (d : Dev) (lo hi : ℕ) {a : ℕ} (h : a < lo ∨ hi ≤ a) : (d.dropRegs lo hi).reg a = d.reg a := by
  rw [Dev.reg_dropRegs, if_neg (by omega)]

/-! ### Registers of Hearth a function leaves (R9, R27) -/

/-- Of the registers of Hearth up to those of its own events (0 to 0x1F), other values stand in the registers and events of two lists only. -/
def Dev.Spares (xs evs : List ℕ) (d e : Dev) : Prop := ∀ a, a < 0x80200 → a ∉ xs → (∀ n ∈ evs, a ∉ evtRegs n) → e.reg a = d.reg a

namespace Dev.Spares

variable {xs ys evs fs : List ℕ} {d e f : Dev}

theorem refl (xs evs : List ℕ) (d : Dev) : d.Spares xs evs d := fun _ _ _ _ => rfl

theorem thn (h : d.Spares xs evs e) (k : e.Spares ys fs f) (hl : ∀ x ∈ ys, x ∈ xs := by decide) (he : ∀ n ∈ fs, n ∈ evs := by decide) : d.Spares xs evs f :=
  fun a ha hx hn => (k a ha (fun hy => hx (hl a hy)) fun n hm => hn n (he n hm)).trans (h a ha hx hn)

theorem within (k : d.Spares ys fs e) (hl : ∀ x ∈ ys, x ∈ xs := by decide) (he : ∀ n ∈ fs, n ∈ evs := by decide) : d.Spares xs evs e := (refl xs evs d).thn k hl he

/-- A register below the events that the list lacks is as before. -/
theorem reg (h : d.Spares xs evs e) {a : ℕ} (ha : a < 0x80000) (hx : a ∉ xs) : e.reg a = d.reg a := h a (by omega) hx fun _ _ => notMem_evtRegs_of_low ha

theorem get (h : d.Spares xs evs e) {g : Fld} (ha : g.addr < 0x80000 := by decide) (hx : g.addr ∉ xs := by decide) : e.get g = d.get g := by
  simp only [Dev.get, h.reg ha hx]

theorem flag (h : d.Spares xs evs e) {g : Fld} (ha : g.addr < 0x80000 := by decide) (hx : g.addr ∉ xs := by decide) : e.flag g = d.flag g := by
  simp only [Dev.flag, h.get ha hx]

theorem cordSt (h : d.Spares xs evs e) {c : ℕ} (hc : c < 0x100) (hx : R.hrtPwrCord c ∉ xs) : e.cordSt c = d.cordSt c := by
  have := R.hrtPwrCord_lt hc
  simp only [Dev.cordSt]
  rw [h.get (g := F.hrtPwrCordSt c) (by simp only [F.hrtPwrCordSt]; omega) hx]

/-- The control register of an event of Hearth that the list lacks. -/
theorem ctl (h : d.Spares xs evs e) {n : ℕ} (hn : n < 0x20 := by decide) (hx : ∀ a ∈ xs, a < 0x80000 := by decide) (he : n ∉ evs := by decide) :
    e.reg (R.hrtEvtSrcCtl n) = d.reg (R.hrtEvtSrcCtl n) := by
  refine h _ (by simp only [R.hrtEvtSrcCtl]; omega) (fun hm => ?_) fun m hm hmem => ?_
  · have := hx _ hm
    simp only [R.hrtEvtSrcCtl] at this
    omega
  · have hne : m ≠ n := fun h => he (h ▸ hm)
    simp only [evtRegs, R.hrtEvtSrcCtl, R.hrtEvtSrcFirstns, R.hrtEvtSrcFirstw, List.mem_cons, List.not_mem_nil, or_false] at hmem
    omega

theorem setReg (h : d.Spares xs evs e) (b : ℕ) (v : Word) (hb : 0x80200 ≤ b ∨ b ∈ xs) : d.Spares xs evs (e.setReg b v) := fun a ha hx hn => by
  have hne : a ≠ b := by
    rintro rfl
    exact hb.elim (by omega) hx
  exact (Dev.reg_setReg_ne _ _ hne).trans (h a ha hx hn)

theorem set (h : d.Spares xs evs e) (g : Fld) (x : ℕ) (hg : 0x80200 ≤ g.addr ∨ g.addr ∈ xs) : d.Spares xs evs (e.set g x) := h.setReg _ _ hg
theorem setInt (h : d.Spares xs evs e) (g : Fld) (x : ℤ) (hg : 0x80200 ≤ g.addr ∨ g.addr ∈ xs) : d.Spares xs evs (e.setInt g x) := h.setReg _ _ hg
theorem setFlag (h : d.Spares xs evs e) (g : Fld) (x : Bool) (hg : 0x80200 ≤ g.addr ∨ g.addr ∈ xs) : d.Spares xs evs (e.setFlag g x) := h.setReg _ _ hg
theorem count (h : d.Spares xs evs e) (g : Fld) (x : ℕ) (hg : 0x80200 ≤ g.addr ∨ g.addr ∈ xs) : d.Spares xs evs (e.count g x) := h.setReg _ _ hg

theorem dropRegs (h : d.Spares xs evs e) (lo hi : ℕ) (hlo : 0x80200 ≤ lo) : d.Spares xs evs (e.dropRegs lo hi) := fun a ha hx hn =>
  (Dev.reg_dropRegs_out _ _ _ (.inl (by omega))).trans (h a ha hx hn)

/-- Where an event of a list or of another cord is raised. -/
theorem notMem_evtRegs {a n : ℕ} (ha : a < 0x80200) (hn : ∀ m ∈ evs, a ∉ evtRegs m) (h : 0x20 ≤ n ∨ n ∈ evs) : a ∉ evtRegs n := by
  rcases h with h | h
  · simp only [evtRegs, R.hrtEvtSrcCtl, R.hrtEvtSrcFirstns, R.hrtEvtSrcFirstw, List.mem_cons, List.not_mem_nil, or_false]
    omega
  · exact hn n h

theorem raiseWords (h : d.Spares xs evs e) (n : ℕ) (det : List Word) (l : List ℕ) (hn : 0x20 ≤ n ∨ n ∈ evs) : d.Spares xs evs (e.raiseWords n det l) :=
  fun a ha hx he => (((Dev.Moves.refl Dev.Moves.evtParts (· ∈ evtRegs n) e).raiseWords n det l fun _ h => h).regs a (notMem_evtRegs ha he hn)).trans (h a ha hx he)

theorem raise (h : d.Spares xs evs e) (n : ℕ) (l : List ℕ) (hn : 0x20 ≤ n ∨ n ∈ evs) : d.Spares xs evs (e.raise n l) :=
  fun a ha hx he => (((Dev.Moves.refl Dev.Moves.evtParts (· ∈ evtRegs n) e).raise n l fun _ h => h).regs a (notMem_evtRegs ha he hn)).trans (h a ha hx he)

theorem when (h : d.Spares xs evs e) (b : Bool) (g : Dev → Dev) (hg : ∀ x : Dev, x.Spares xs evs (g x)) : d.Spares xs evs (e.when b g) := by
  cases b
  · exact h
  · exact h.thn (hg e) (fun _ h => h) fun _ h => h

theorem each {α : Type} (h : d.Spares xs evs e) (l : List α) (g : Dev → α → Dev) (hg : ∀ (x : Dev) a, x.Spares xs evs (g x a)) : d.Spares xs evs (e.each l g) := by
  induction l generalizing e with
  | nil => exact h
  | cons a t ih => exact ih (h.thn (hg e a) (fun _ h => h) fun _ h => h)

theorem ite {b : Prop} [Decidable b] (h : d.Spares xs evs e) (k : d.Spares xs evs f) : d.Spares xs evs (if b then e else f) := by
  split
  · exact h
  · exact k

theorem ite_fst {α : Type} {b : Prop} [Decidable b] {x y : Dev × α} (h : d.Spares xs evs x.1) (k : d.Spares xs evs y.1) : d.Spares xs evs (if b then x else y).1 := by
  split
  · exact h
  · exact k

theorem pair {α : Type} (h : d.Spares xs evs e) (a : α) : d.Spares xs evs (e, a).1 := h

theorem msixSend (h : d.Spares xs evs e) (v : ℕ) : d.Spares xs evs (e.msixSend v) := fun a ha hx hn => by
  rw [Dev.reg, Dev.msixSend_regs]
  exact h a ha hx hn

theorem ashAdd (h : d.Spares xs evs e) (kind evt code : ℕ) (data : List Byte) (l : List ℕ) : d.Spares xs evs (e.ashAdd kind evt code data l) := fun a ha hx hn => by
  rw [Dev.reg, Dev.ashAdd_regs]
  exact h a ha hx hn

theorem setEng (h : d.Spares xs evs e) (k : ℕ) (g : Engine → Engine) : d.Spares xs evs (e.setEng k g) := h
theorem setConv (h : d.Spares xs evs e) (k : ℕ) (g : Conv → Conv) : d.Spares xs evs (e.setConv k g) := h
theorem setWave (h : d.Spares xs evs e) (k : ℕ) (g : Wave → Wave) : d.Spares xs evs (e.setWave k g) := h
theorem setSc (h : d.Spares xs evs e) (w k : ℕ) (g : Subc → Subc) : d.Spares xs evs (e.setSc w k g) := h
theorem setGrp (h : d.Spares xs evs e) (w k : ℕ) (g : Grp → Grp) : d.Spares xs evs (e.setGrp w k g) := h
theorem setCry (h : d.Spares xs evs e) (w k : ℕ) (g : Crypto → Crypto) : d.Spares xs evs (e.setCry w k g) := h
theorem setSpr1 (h : d.Spares xs evs e) (k : ℕ) (g : SprEng → SprEng) : d.Spares xs evs (e.setSpr1 k g) := h
theorem setSpr (h : d.Spares xs evs e) (g : SprSt → SprSt) : d.Spares xs evs (e.setSpr g) := h
theorem setPcie (h : d.Spares xs evs e) (g : Pcie → Pcie) : d.Spares xs evs (e.setPcie g) := h
theorem setPwr (h : d.Spares xs evs e) (g : PwrSt → PwrSt) : d.Spares xs evs (e.setPwr g) := h
theorem setCordInfo (h : d.Spares xs evs e) (c : ℕ) (g : CordSt → CordSt) : d.Spares xs evs (e.setCordInfo c g) := h
theorem setHearth (h : d.Spares xs evs e) (g : HearthSt → HearthSt) : d.Spares xs evs (e.setHearth g) := h
theorem setPkt (h : d.Spares xs evs e) (g : PktSt → PktSt) : d.Spares xs evs (e.setPkt g) := h
theorem setMac (h : d.Spares xs evs e) (k : ℕ) (g : Mac → Mac) : d.Spares xs evs (e.setMac k g) := h
theorem setLane (h : d.Spares xs evs e) (k : ℕ) (g : Lane → Lane) : d.Spares xs evs (e.setLane k g) := h
theorem setInj (h : d.Spares xs evs e) (k : ℕ) (g : Inj → Inj) : d.Spares xs evs (e.setInj k g) := h
theorem setRing (h : d.Spares xs evs e) (tx : Bool) (r : ℕ) (g : Ring → Ring) : d.Spares xs evs (e.setRing tx r g) := h
theorem setBuf (h : d.Spares xs evs e) (g : BufSt → BufSt) : d.Spares xs evs (e.setBuf g) := h
theorem setWaiting (h : d.Spares xs evs e) (w : List Access) : d.Spares xs evs (e.setWaiting w) := h
theorem setOut (h : d.Spares xs evs e) (w : List Output) : d.Spares xs evs (e.setOut w) := h
theorem setQueue (h : d.Spares xs evs e) (q : ℕ) (g : Queue → Queue) : d.Spares xs evs (e.setQueue q g) := h
theorem setSampler (h : d.Spares xs evs e) (k : ℕ) (g : Sampler → Sampler) : d.Spares xs evs (e.setSampler k g) := h
theorem setOwner (h : d.Spares xs evs e) (b : ℕ) (r : Option BufRec) : d.Spares xs evs (e.setOwner b r) := h
theorem setRule (h : d.Spares xs evs e) (r : ℕ) (g : Rule → Rule) : d.Spares xs evs (e.setRule r g) := h
theorem setTrans (h : d.Spares xs evs e) (g : Trans → Trans) : d.Spares xs evs (e.setTrans g) := h
theorem setReload (h : d.Spares xs evs e) (r : Option Reload) : d.Spares xs evs (e.setReload r) := h
theorem setWl (h : d.Spares xs evs e) (w : ℕ) (g : WlTime → WlTime) : d.Spares xs evs (e.setWl w g) := h
theorem setImg (h : d.Spares xs evs e) (g : ImgSt → ImgSt) : d.Spares xs evs (e.setImg g) := h
theorem setEmber (h : d.Spares xs evs e) (g : EmberSt → EmberSt) : d.Spares xs evs (e.setEmber g) := h
theorem setTime (h : d.Spares xs evs e) (g : TimeSt → TimeSt) : d.Spares xs evs (e.setTime g) := h
theorem emit (h : d.Spares xs evs e) (o : Output) : d.Spares xs evs (e.emit o) := h
theorem with_aerrAdr (h : d.Spares xs evs e) (x : ℕ) : d.Spares xs evs { e with aerrAdr := x } := h
theorem with_time (h : d.Spares xs evs e) (x : TimeSt) : d.Spares xs evs { e with time := x } := h
theorem with_blown (h : d.Spares xs evs e) (x : ℕ) : d.Spares xs evs { e with blown := x } := h
theorem with_ash (h : d.Spares xs evs e) (x : AshSt) : d.Spares xs evs { e with ash := x } := h
theorem with_free (h : d.Spares xs evs e) (x : ℕ) : d.Spares xs evs { e with free := x } := h
theorem with_reclaim (h : d.Spares xs evs e) (x : List ℕ) : d.Spares xs evs { e with reclaim := x } := h
theorem with_pkt (h : d.Spares xs evs e) (x : PktSt) : d.Spares xs evs { e with pkt := x } := h
theorem with_buf (h : d.Spares xs evs e) (x : BufSt) : d.Spares xs evs { e with buf := x } := h
theorem with_inj_ (h : d.Spares xs evs e) (x : Tbl Inj) : d.Spares xs evs { e with inj_ := x } := h
theorem with_waiting (h : d.Spares xs evs e) (x : List Access) : d.Spares xs evs { e with waiting := x } := h
theorem with_buf_reclaim (h : d.Spares xs evs e) (x : BufSt) (y : List ℕ) : d.Spares xs evs { e with buf := x, reclaim := y } := h
theorem with_macs_lanes (h : d.Spares xs evs e) (x : Tbl Mac) (y : Tbl Lane) : d.Spares xs evs { e with macs := x, lanes := y } := h
theorem with_scs_grps_crys (h : d.Spares xs evs e) (x : Tbl Subc) (y : Tbl Grp) (z : Tbl Crypto) : d.Spares xs evs { e with scs := x, grps := y, crys := z } := h

end Dev.Spares

set_option Elab.async false

theorem R.leRxcCfostat_high (e : ℕ) : 0x80200 ≤ R.leRxcCfostat e := by
  unfold R.leRxcCfostat
  omega

theorem R.leRxcStat_high (e : ℕ) : 0x80200 ≤ R.leRxcStat e := by
  unfold R.leRxcStat
  omega

theorem R.leTxsProf_high (e s : ℕ) : 0x80200 ≤ R.leTxsProf e s := by
  unfold R.leTxsProf
  omega

theorem R.lfPrfStat_high (w : ℕ) : 0x80200 ≤ R.lfPrfStat w := by
  unfold R.lfPrfStat
  omega

theorem R.lfCryKswstat_high (w : ℕ) : 0x80200 ≤ R.lfCryKswstat w := by
  unfold R.lfCryKswstat
  omega

theorem R.bufPclsUsed_high (i : ℕ) : 0x80200 ≤ R.bufPclsUsed i := by
  unfold R.bufPclsUsed
  omega

theorem R.bufPoolFree_high (p : ℕ) : 0x80200 ≤ R.bufPoolFree p := by
  unfold R.bufPoolFree
  omega

theorem R.lfCellDlpdrop_high (w : ℕ) : 0x80200 ≤ R.lfCellDlpdrop w := by
  unfold R.lfCellDlpdrop
  omega

theorem R.hsMacDhdrop_high (p : ℕ) : 0x80200 ≤ R.hsMacDhdrop p := by
  unfold R.hsMacDhdrop hsBase
  omega

theorem R.pciTxgDrop_high (r : ℕ) : 0x80200 ≤ R.pciTxgDrop r := by
  unfold R.pciTxgDrop
  omega

theorem R.hsMacBond_high (p : ℕ) : 0x80200 ≤ R.hsMacBond p := by
  unfold R.hsMacBond hsBase
  omega

theorem R.hsMacRxerr_high (p : ℕ) : 0x80200 ≤ R.hsMacRxerr p := by
  unfold R.hsMacRxerr hsBase
  omega

theorem R.hsMacTxdrop_high (p : ℕ) : 0x80200 ≤ R.hsMacTxdrop p := by
  unfold R.hsMacTxdrop hsBase
  omega

theorem R.leTxcStat_high (e : ℕ) : 0x80200 ≤ R.leTxcStat e := by
  unfold R.leTxcStat
  omega

theorem R.lfGntMiss_high (w : ℕ) : 0x80200 ≤ R.lfGntMiss w := by
  unfold R.lfGntMiss
  omega

theorem R.lfActStat_high (w : ℕ) : 0x80200 ≤ R.lfActStat w := by
  unfold R.lfActStat
  omega

theorem R.pciRxgStat_high (r : ℕ) : 0x80200 ≤ R.pciRxgStat r := by
  unfold R.pciRxgStat
  omega

theorem R.pciTxgStat_high (r : ℕ) : 0x80200 ≤ R.pciTxgStat r := by
  unfold R.pciTxgStat
  omega

theorem R.lfActCfg_high (w : ℕ) : 0x80200 ≤ R.lfActCfg w := by
  unfold R.lfActCfg
  omega

theorem R.bufQPar_high (q : ℕ) : 0x80200 ≤ R.bufQPar q := by
  unfold R.bufQPar
  omega

theorem R.cvSelStat_high (w : ℕ) : 0x80200 ≤ R.cvSelStat w := by
  unfold R.cvSelStat
  omega

theorem R.leRxsQual_high (e s : ℕ) : 0x80200 ≤ R.leRxsQual e s := by
  unfold R.leRxsQual
  omega

theorem R.leRxcDecode_high (e : ℕ) : 0x80200 ≤ R.leRxcDecode e := by
  unfold R.leRxcDecode
  omega

theorem R.leRxsStat_high (e s : ℕ) : 0x80200 ≤ R.leRxsStat e s := by
  unfold R.leRxsStat
  omega

theorem R.leRxcCdstat_high (e : ℕ) : 0x80200 ≤ R.leRxcCdstat e := by
  unfold R.leRxcCdstat
  omega

theorem R.lfActEqd_high (w : ℕ) : 0x80200 ≤ R.lfActEqd w := by
  unfold R.lfActEqd
  omega

theorem R.lfActRtd_high (w : ℕ) : 0x80200 ≤ R.lfActRtd w := by
  unfold R.lfActRtd
  omega

theorem R.lfCellLost_high (w : ℕ) : 0x80200 ≤ R.lfCellLost w := by
  unfold R.lfCellLost
  omega

theorem R.lfGrpStat_high (w g : ℕ) : 0x80200 ≤ R.lfGrpStat w g := by
  unfold R.lfGrpStat
  omega

theorem R.lfGrpMemb_high (w g : ℕ) : 0x80200 ≤ R.lfGrpMemb w g := by
  unfold R.lfGrpMemb
  omega

theorem R.lfAlnStat_high (w : ℕ) : 0x80200 ≤ R.lfAlnStat w := by
  unfold R.lfAlnStat
  omega

theorem R.lfScsAln_high (w s : ℕ) : 0x80200 ≤ R.lfScsAln w s := by
  unfold R.lfScsAln
  omega

theorem R.hsLnStat_high (p : ℕ) : 0x80200 ≤ R.hsLnStat p := by
  unfold R.hsLnStat hsBase
  omega

theorem R.hsMacPark_high (p : ℕ) : 0x80200 ≤ R.hsMacPark p := by
  unfold R.hsMacPark hsBase
  omega

theorem R.hsMacFcstat_high (p : ℕ) : 0x80200 ≤ R.hsMacFcstat p := by
  unfold R.hsMacFcstat hsBase
  omega

theorem R.hsMacLpistat_high (p : ℕ) : 0x80200 ≤ R.hsMacLpistat p := by
  unfold R.hsMacLpistat hsBase
  omega

theorem R.leRxsLlrcfg_high (e s : ℕ) : 0x80200 ≤ R.leRxsLlrcfg e s := by
  unfold R.leRxsLlrcfg
  omega

theorem R.pciRxgCfg_high (r : ℕ) : 0x80200 ≤ R.pciRxgCfg r := by
  unfold R.pciRxgCfg
  omega

theorem R.pciTxgCfg_high (r : ℕ) : 0x80200 ≤ R.pciTxgCfg r := by
  unfold R.pciTxgCfg
  omega

theorem R.pciRxgHead_high (r : ℕ) : 0x80200 ≤ R.pciRxgHead r := by
  unfold R.pciRxgHead
  omega

theorem R.pciTxgHead_high (r : ℕ) : 0x80200 ≤ R.pciTxgHead r := by
  unfold R.pciTxgHead
  omega

theorem R.pciRxgDrop_high (r : ℕ) : 0x80200 ≤ R.pciRxgDrop r := by
  unfold R.pciRxgDrop
  omega

theorem R.hsLngSum0_high (h : ℕ) : 0x80200 ≤ R.hsLngSum0 h := by
  unfold R.hsLngSum0
  omega

theorem R.hsLngSum1_high (h : ℕ) : 0x80200 ≤ R.hsLngSum1 h := by
  unfold R.hsLngSum1
  omega

theorem ringF_high {rx tg : ℕ → Fld} (hrx : ∀ r, 0x80200 ≤ (rx r).addr) (htg : ∀ r, 0x80200 ≤ (tg r).addr) (tx : Bool) (r : ℕ) : 0x80200 ≤ (ringF tx rx tg r).addr := by
  cases tx
  · exact hrx r
  · exact htg r

theorem ringEn_high (tx : Bool) (r : ℕ) : 0x80200 ≤ (ringEn tx r).addr := ringF_high R.pciRxgCfg_high R.pciTxgCfg_high tx r
theorem ringHead_high (tx : Bool) (r : ℕ) : 0x80200 ≤ (ringHead tx r).addr := ringF_high R.pciRxgHead_high R.pciTxgHead_high tx r
theorem ringFlbusy_high (tx : Bool) (r : ℕ) : 0x80200 ≤ (ringFlbusy tx r).addr := ringF_high R.pciRxgStat_high R.pciTxgStat_high tx r
theorem ringFldrop_high (tx : Bool) (r : ℕ) : 0x80200 ≤ (ringFldrop tx r).addr := ringF_high R.pciRxgDrop_high R.pciTxgDrop_high tx r
theorem fiF_high (i off lsb width : ℕ) : 0x80200 ≤ (fiF i off lsb width).addr := (by decide : 0x80200 ≤ 0x6A00000).trans (fiF_ge i off lsb width)

theorem Dev.loseCodes_spares (d : Dev) (w : ℕ) : d.Spares [] [] (Dev.loseCodes d w) := by
  unfold Dev.loseCodes
  exact (Dev.Spares.refl _ _ _).setWave _ _

theorem Dev.dropCord_spares (d : Dev) (c : ℕ) (hc : 1 ≤ c) : d.Spares [] [] (d.dropCord c) := (Dev.Spares.refl _ _ _).dropRegs _ _ (by omega)

theorem Dev.stopsServing_spares (d : Dev) (e : ℕ) : d.Spares [] [] (Dev.stopsServing d e) := by
  unfold Dev.stopsServing
  exact (Dev.Spares.refl _ _ _).when _ _ fun d => (Dev.Spares.refl _ _ _).setSpr1 _ _

theorem Dev.wipeEngine_spares (d : Dev) (e : ℕ) : d.Spares [] [] (Dev.wipeEngine d e) := by
  unfold Dev.wipeEngine
  extract_lets +onlyGivenNames d1
  have hd1 : d.Spares [] [] d1 := (Dev.Spares.refl _ _ _).each _ _ fun d w => (Dev.Spares.refl _ _ _).when _ _ fun d => Dev.Spares.within (Dev.loseCodes_spares _ _)
  exact ((((hd1.thn (Dev.stopsServing_spares _ _)).thn (Dev.dropCord_spares _ _ (by omega))).setConv _ _).setConv _ _).setEng _ _

theorem Dev.rxEvent_spares (d : Dev) (e : ℕ) (c : ℕ) (addrs : List ℕ) : d.Spares [] [] (Dev.rxEvent d e c addrs) := by
  unfold Dev.rxEvent
  split
  · exact (Dev.Spares.refl _ _ _).when _ _ fun d => (Dev.Spares.refl _ _ _).raise _ _ (.inl (by omega))
  · exact Dev.Spares.refl _ _ _

theorem Dev.laserFailed_spares (d : Dev) (e : ℕ) (step : ℤ) : d.Spares [] [] (Dev.laserFailed d e step) := by
  unfold Dev.laserFailed
  exact ((((Dev.Spares.refl _ _ _).setInt _ _ (.inl (R.leRxcCfostat_high _))).set _ _ (.inl (R.leRxcStat_high _))).setEng _ _).thn (Dev.rxEvent_spares _ _ _ _)

theorem Dev.dropStep_spares (d : Dev) (e : ℕ) : d.Spares [] [] (Dev.dropStep d e) := by
  unfold Dev.dropStep
  split
  · exact Dev.Spares.within (Dev.laserFailed_spares _ _ _)
  · exact Dev.Spares.refl _ _ _

theorem Dev.wipeConv_spares (d : Dev) (w : ℕ) : d.Spares [] [] (Dev.wipeConv d w) := by
  unfold Dev.wipeConv
  exact (((Dev.Spares.refl _ _ _).each _ _ fun d e => (Dev.Spares.within (Dev.dropStep_spares _ _)).setEng _ _).thn (Dev.dropCord_spares _ _ (by omega))).setConv _ _

theorem Dev.showNext_spares (d : Dev) (w : ℕ) (sc : ℕ) (next : Option ℕ) : d.Spares [] [] (Dev.showNext d w sc next) := by
  unfold Dev.showNext
  refine (Dev.Spares.refl _ _ _).each _ _ fun d e => ?_
  · split
    · exact ((Dev.Spares.refl _ _ _).set _ _ (.inl (R.leTxsProf_high _ _))).set _ _ (.inl (R.leTxsProf_high _ _))
    · exact (Dev.Spares.refl _ _ _).set _ _ (.inl (R.leTxsProf_high _ _))

theorem Dev.withdrawOwn_spares (d : Dev) (w : ℕ) (p : Proposal) : d.Spares [] [] (Dev.withdrawOwn d w p) := by
  unfold Dev.withdrawOwn
  extract_lets +onlyGivenNames mine d1
  have hd1 : d.Spares [] [] d1 := (Dev.Spares.refl _ _ _).setWave _ _
  exact hd1.when _ _ fun d => (Dev.Spares.refl _ _ _).each _ _ fun d c => (Dev.Spares.refl _ _ _).when _ _ fun d => Dev.Spares.within (Dev.showNext_spares _ _ _ _)

theorem Dev.sfEvent_spares (d : Dev) (w : ℕ) (c : ℕ) (addrs : List ℕ) : d.Spares [] [] (Dev.sfEvent d w c addrs) := by
  unfold Dev.sfEvent
  exact (Dev.Spares.refl _ _ _).raise _ _ (.inl (by omega))

theorem Dev.abandon_spares (d : Dev) (w : ℕ) : d.Spares [] [] (Dev.abandon d w) := by
  unfold Dev.abandon
  extract_lets +onlyGivenNames d0
  have hd0 : d.Spares [] [] d0 := by
    unfold d0
    split
    · exact Dev.Spares.ite (Dev.Spares.within (Dev.withdrawOwn_spares _ _ _)) (Dev.Spares.refl _ _ _)
    · exact Dev.Spares.refl _ _ _
  exact (((hd0.setWave _ _).set _ _ (.inl (R.lfPrfStat_high _))).set _ _ (.inl (R.lfPrfStat_high _))).thn (Dev.sfEvent_spares _ _ _ _)

theorem Dev.keyAbandon_spares (d : Dev) (w : ℕ) : d.Spares [] [] (Dev.keyAbandon d w) := by
  unfold Dev.keyAbandon
  extract_lets +onlyGivenNames mine
  exact (((Dev.Spares.refl _ _ _).setWave _ _).set _ _ (.inl (R.lfCryKswstat_high _))).set _ _ (.inl (R.lfCryKswstat_high _))

theorem Dev.lfAbandon_spares (d : Dev) (w : ℕ) : d.Spares [] [] (Dev.lfAbandon d w) := by
  unfold Dev.lfAbandon
  extract_lets +onlyGivenNames v prf ksw
  exact (((Dev.Spares.refl _ _ _).when _ _ fun d => Dev.Spares.within (Dev.abandon_spares _ _)).when _ _ fun d => Dev.Spares.within (Dev.keyAbandon_spares _ _)).setWave _ _

theorem Dev.dropLink_spares (d : Dev) (k : ℕ) : d.Spares [] [] (Dev.dropLink d k) := by
  unfold Dev.dropLink
  exact (Dev.Spares.refl _ _ _).setPkt _

theorem Dev.fiOff_spares (d : Dev) (i : ℕ) : d.Spares [] [] (Dev.fiOff d i) := by
  unfold Dev.fiOff
  exact (Dev.Spares.refl _ _ _).when _ _ fun d => (((Dev.Spares.refl _ _ _).set _ _ (.inl (fiF_high _ _ _ _))).set _ _ (.inl (fiF_high _ _ _ _))).set _ _ (.inl (by decide))

theorem Dev.bufReject_spares (d : Dev) (b : ℕ) (agent : ℕ) (kind : ℕ) : d.Spares [] [] (Dev.bufReject d b agent kind) := by
  unfold Dev.bufReject
  extract_lets +onlyGivenNames d1
  have hd1 : d.Spares [] [] d1 := (((Dev.Spares.refl _ _ _).set _ _ (.inl (by decide))).set _ _ (.inl (by decide))).set _ _ (.inl (by decide))
  exact Dev.Spares.ite ((hd1.count _ _ (.inl (by decide))).raise _ _ (.inl (by decide))) ((hd1.count _ _ (.inl (by decide))).raise _ _ (.inl (by decide)))

theorem Dev.poolLow_spares (d : Dev) (p : ℕ) : d.Spares [] [] (Dev.poolLow d p) := by
  unfold Dev.poolLow
  extract_lets +onlyGivenNames now was d1
  have hd1 : d.Spares [] [] d1 := (Dev.Spares.refl _ _ _).setBuf _
  exact hd1.when _ _ fun d => (Dev.Spares.refl _ _ _).raise _ _ (.inl (by decide))

theorem Dev.giveBack_spares (d : Dev) (b : ℕ) (r : BufRec) : d.Spares [] [] (Dev.giveBack d b r) := by
  unfold Dev.giveBack
  extract_lets +onlyGivenNames i used d1
  have hd1 : d.Spares [] [] d1 := ((Dev.Spares.refl _ _ _).setOwner _ _).set _ _ (.inl (R.bufPclsUsed_high _))
  exact (hd1.when _ _ fun d => (Dev.Spares.refl _ _ _).set _ _ (.inl (R.bufPoolFree_high _))).thn (Dev.poolLow_spares _ _)

theorem Dev.freeBuf_spares (d : Dev) (b : ℕ) (agent : ℕ) : d.Spares [] [] (Dev.freeBuf d b agent) := by
  unfold Dev.freeBuf
  refine Dev.Spares.ite (Dev.Spares.refl _ _ _) ?_
  · split
    · exact Dev.Spares.within (Dev.bufReject_spares _ _ _ _)
    · exact Dev.Spares.ite (Dev.Spares.within (Dev.giveBack_spares _ _ _)) (Dev.Spares.within (Dev.bufReject_spares _ _ _ _))

theorem Dev.freeBufs_spares (d : Dev) (bs : List ℕ) (agent : ℕ) : d.Spares [] [] (Dev.freeBufs d bs agent) := by
  unfold Dev.freeBufs
  exact (Dev.Spares.refl _ _ _).each _ _ fun d b => Dev.Spares.within (Dev.freeBuf_spares _ _ _)

theorem Dev.fiLost_spares (d : Dev) (i : ℕ) : d.Spares [] [] (Dev.fiLost d i) := by
  unfold Dev.fiLost
  extract_lets +onlyGivenNames d1 d2
  have hd1 : d.Spares [] [] d1 := (Dev.Spares.within (Dev.fiOff_spares _ _)).dropRegs _ _ ((by decide : 0x80200 ≤ 0x6A00000).trans (fiBase_ge _))
  have hd2 : d.Spares [] [] d2 := by
    unfold d2
    split
    · exact hd1.thn (Dev.freeBufs_spares _ _ _)
    · exact hd1
  exact hd2.with_inj_ _

theorem Dev.wipeFramer_spares (d0 : Dev) (w : ℕ) : d0.Spares [] [] (Dev.wipeFramer d0 w) := by
  unfold Dev.wipeFramer
  extract_lets +onlyGivenNames d held old d1
  have hd : d0.Spares [] [] d := Dev.Spares.within (Dev.lfAbandon_spares _ _)
  have hd1 : d0.Spares [] [] d1 := ((((((hd.each _ _ fun d k => Dev.Spares.within (Dev.fiLost_spares _ _)).thn (Dev.dropCord_spares _ _ (by omega))).thn (Dev.dropLink_spares _ _)).setWave _ _).when _ _ fun d => Dev.Spares.within (Dev.loseCodes_spares _ _)).when _ _ fun d => (Dev.Spares.refl _ _ _).set _ _ (.inl (R.lfPrfStat_high _))).when _ _ fun d => (Dev.Spares.refl _ _ _).set _ _ (.inl (R.lfCryKswstat_high _))
  exact hd1.with_scs_grps_crys _ _ _

theorem Dev.linkDrop_spares (d : Dev) (k : ℕ) (p : Pkt) : d.Spares [] [] (Dev.linkDrop d k p) := by
  unfold Dev.linkDrop
  exact Dev.Spares.ite ((Dev.Spares.refl _ _ _).when _ _ fun d => ((Dev.Spares.refl _ _ _).count _ _ (.inl (R.lfCellDlpdrop_high _))).raise _ _ (.inl (by omega))) (Dev.Spares.ite ((Dev.Spares.refl _ _ _).when _ _ fun d => ((Dev.Spares.refl _ _ _).count _ _ (.inl (R.hsMacDhdrop_high _))).raise _ _ (.inl (by decide))) ((Dev.Spares.refl _ _ _).when _ _ fun d => (Dev.Spares.refl _ _ _).count _ _ (.inl (R.pciTxgDrop_high _))))

theorem Dev.wipePkt_spares (d : Dev) : d.Spares [] [] (Dev.wipePkt d) := by
  unfold Dev.wipePkt
  extract_lets +onlyGivenNames d1 __src
  have hd1 : d.Spares [] [] d1 := (Dev.Spares.refl _ _ _).each _ _ fun d k => (Dev.Spares.refl _ _ _).each _ _ fun d p => Dev.Spares.within (Dev.linkDrop_spares _ _ _)
  have h__src : d.Spares [] [] __src := (hd1.each _ _ fun d k => Dev.Spares.within (Dev.fiLost_spares _ _)).thn (Dev.dropCord_spares _ _ (by omega))
  exact h__src.with_pkt _

theorem Dev.macDown_spares (d : Dev) (p : ℕ) (rxFrame : Bool) : d.Spares [] [] (Dev.macDown d p rxFrame) := by
  unfold Dev.macDown
  refine (Dev.Spares.refl _ _ _).when _ _ fun d => ?_
  · extract_lets +onlyGivenNames d1 d2
    have hd1 : d.Spares [] [] d1 := ((Dev.Spares.refl _ _ _).set _ _ (.inl (R.hsMacBond_high _))).when _ _ fun d => (Dev.Spares.refl _ _ _).count _ _ (.inl (R.hsMacRxerr_high _))
    have hd2 : d.Spares [] [] d2 := by
      unfold d2
      split
      · exact ((hd1.setMac _ _).thn (Dev.freeBufs_spares _ _ _)).count _ _ (.inl (R.hsMacTxdrop_high _))
      · exact hd1
    exact (hd2.setMac _ _).raise _ _ (.inl (by decide))

theorem Dev.wipeHs_spares (d : Dev) (c : ℕ) (hc : 1 ≤ c) : d.Spares [] [] (Dev.wipeHs d c) := by
  unfold Dev.wipeHs
  extract_lets +onlyGivenNames lo d1
  have hd1 : d.Spares [] [] d1 := (((Dev.Spares.refl _ _ _).each _ _ fun d i => (Dev.Spares.within (Dev.macDown_spares _ _ _)).thn (Dev.fiLost_spares _ _)).thn (Dev.dropCord_spares _ _ hc)).thn (Dev.dropLink_spares _ _)
  exact hd1.with_macs_lanes _ _

theorem Dev.wipePci_spares (d : Dev) : d.Spares [] [] (Dev.wipePci d) := by
  unfold Dev.wipePci
  extract_lets +onlyGivenNames sp wd up
  exact ((((Dev.Spares.within (Dev.dropCord_spares _ _ (by omega))).set _ _ (.inl (by decide))).set _ _ (.inl (by decide))).set _ _ (.inl (by decide))).setPcie _

theorem Dev.rampNext_spares (d : Dev) (w : ℕ) : d.Spares [] [] (Dev.rampNext d w) := by
  unfold Dev.rampNext
  split
  · exact (Dev.Spares.refl _ _ _).setWave _ _
  · exact Dev.Spares.ite (Dev.Spares.refl _ _ _) (Dev.Spares.ite ((Dev.Spares.refl _ _ _).setWave _ _) ((Dev.Spares.refl _ _ _).when _ _ fun d => (Dev.Spares.refl _ _ _).setWave _ _))

theorem Dev.txRefresh_spares (d : Dev) : d.Spares [] [] (Dev.txRefresh d) := by
  unfold Dev.txRefresh
  exact ((Dev.Spares.within (Dev.rampNext_spares _ _)).thn (Dev.rampNext_spares _ _)).each _ _ fun d e => (Dev.Spares.refl _ _ _).when _ _ fun d => (Dev.Spares.refl _ _ _).set _ _ (.inl (R.leTxcStat_high _))

theorem Dev.aim_spares (d : Dev) : d.Spares [] [] (Dev.aim d) := by
  unfold Dev.aim
  split
  · exact (Dev.Spares.refl _ _ _).with_time _
  · exact Dev.Spares.refl _ _ _

theorem Dev.discipline_spares (d : Dev) : d.Spares [R.hrtClkStat] [] (Dev.discipline d) := by
  unfold Dev.discipline
  extract_lets +onlyGivenNames en lock act was d1
  have hd1 : d.Spares [R.hrtClkStat] [] d1 := ((Dev.Spares.refl _ _ _).setFlag _ _ (.inr (by decide))).setFlag _ _ (.inr (by decide))
  exact (hd1.when _ _ fun d => Dev.Spares.within (Dev.aim_spares _)).when _ _ fun d => (Dev.Spares.refl _ _ _).set _ _ (.inr (by decide))

theorem Dev.wipe_spares (d : Dev) (c : ℕ) : d.Spares [R.hrtClkStat] [] (Dev.wipe d c) := by
  unfold Dev.wipe
  extract_lets +onlyGivenNames buf d1 owns
  have hbuf : d.Spares [R.hrtClkStat] [] buf := Dev.Spares.within (Dev.dropCord_spares _ _ (by decide))
  have hd1 : d.Spares [R.hrtClkStat] [] d1 := by
    unfold d1
    split_ifs with _ _ _ _ _ h6
    · exact Dev.Spares.within (Dev.wipeEngine_spares _ _)
    · exact Dev.Spares.within (Dev.wipeConv_spares _ _)
    · exact Dev.Spares.within (Dev.wipeFramer_spares _ _)
    · exact Dev.Spares.within (Dev.wipePkt_spares _)
    · exact hbuf.with_buf_reclaim {} []
    · exact Dev.Spares.within (Dev.wipeHs_spares _ _ (by omega))
    · exact Dev.Spares.within (Dev.wipePci_spares _)
  clear_value d1
  exact ((Dev.Spares.ite (hd1.with_reclaim _) hd1).thn (Dev.discipline_spares _)).thn (Dev.txRefresh_spares _)

theorem Dev.cutBursts_spares (d : Dev) (w : ℕ) (counted : Bool) : d.Spares [] [] (Dev.cutBursts d w counted) := by
  unfold Dev.cutBursts
  extract_lets +onlyGivenNames n
  exact (((Dev.Spares.refl _ _ _).when _ _ fun d => (Dev.Spares.refl _ _ _).count _ _ (.inl (R.lfGntMiss_high _))).setWave _ _).thn (Dev.txRefresh_spares _)

theorem Dev.askDecode_spares (d : Dev) (w : ℕ) (m : ℕ) : d.Spares [] [] (Dev.askDecode d w m) := by
  unfold Dev.askDecode
  extract_lets +onlyGivenNames d1
  have hd1 : d.Spares [] [] d1 := (Dev.Spares.refl _ _ _).setWave _ _
  exact hd1.each _ _ fun d e => (Dev.Spares.refl _ _ _).setEng _ _

theorem Dev.setAct_spares (d : Dev) (w : ℕ) (st : ℕ) : d.Spares [] [] (Dev.setAct d w st) := by
  unfold Dev.setAct
  exact Dev.Spares.ite (Dev.Spares.refl _ _ _) (((((Dev.Spares.refl _ _ _).set _ _ (.inl (R.lfActStat_high _))).setWave _ _).thn (Dev.askDecode_spares _ _ _)).thn (Dev.sfEvent_spares _ _ _ _))

theorem Dev.actenWritten_spares (d : Dev) (w : ℕ) : d.Spares [] [] (Dev.actenWritten d w) := by
  unfold Dev.actenWritten
  exact (Dev.Spares.refl _ _ _).when _ _ fun d => Dev.Spares.within (Dev.setAct_spares _ _ _)

theorem Dev.ringRefresh_spares (d : Dev) (tx : Bool) (r : ℕ) (msg : Bool) : d.Spares [] [] (Dev.ringRefresh d tx r msg) := by
  unfold Dev.ringRefresh
  extract_lets +onlyGivenNames fill above
  refine Dev.Spares.ite (((Dev.Spares.refl _ _ _).set _ _ (.inl (ringF_high R.pciRxgStat_high R.pciTxgStat_high _ _))).set _ _ (.inl (ringF_high R.pciRxgStat_high R.pciTxgStat_high _ _))) ?_
  · extract_lets +onlyGivenNames n now
    exact (((Dev.Spares.refl _ _ _).set _ _ (.inl (ringF_high R.pciRxgStat_high R.pciTxgStat_high _ _))).setFlag _ _ (.inl (ringF_high R.pciRxgStat_high R.pciTxgStat_high _ _))).when _ _ fun x => (Dev.Spares.refl _ _ _).msixSend _

theorem Dev.enablesOff_spares (d : Dev) (c : ℕ) : d.Spares [] [] (Dev.enablesOff d c) := by
  unfold Dev.enablesOff
  exact Dev.Spares.ite ((Dev.Spares.refl _ _ _).set _ _ (.inl (R.lfActCfg_high _))) (Dev.Spares.ite ((Dev.Spares.refl _ _ _).each _ _ fun d q => (Dev.Spares.refl _ _ _).set _ _ (.inl (R.bufQPar_high _))) (Dev.Spares.ite ((Dev.Spares.refl _ _ _).each _ _ fun d r => ((Dev.Spares.refl _ _ _).set _ _ (.inl (ringEn_high _ _))).thn (Dev.ringRefresh_spares _ _ _ _)) (Dev.Spares.refl _ _ _)))

theorem Dev.ringPass_spares (d : Dev) (tx : Bool) (r : ℕ) (n : ℕ) : d.Spares [] [] (Dev.ringPass d tx r n) := by
  unfold Dev.ringPass
  exact ((Dev.Spares.refl _ _ _).set _ _ (.inl (ringHead_high _ _))).thn (Dev.ringRefresh_spares _ _ _ _)

theorem Dev.ringEmpty_spares (d : Dev) (tx : Bool) (r : ℕ) (ws : List (BitVec 64)) : d.Spares [] [] (Dev.ringEmpty d tx r ws) := by
  unfold Dev.ringEmpty
  extract_lets +onlyGivenNames g n
  exact (((Dev.Spares.refl _ _ _).each _ _ fun d x => Dev.Spares.within (Dev.freeBufs_spares _ _ _)).setRing _ _ _).count _ _ (.inl (ringFldrop_high _ _))

theorem Dev.txDone_spares (d : Dev) (r : ℕ) (c : ℕ) (st : ℕ) : d.Spares [] [] (Dev.txDone d r c st) := by
  unfold Dev.txDone
  exact (Dev.Spares.refl _ _ _).emit _

theorem Dev.writeDescs_spares (d : Dev) (r : ℕ) (p : Pkt) (addrs : List (BitVec 64)) (n : ℕ) (status : ℕ) : d.Spares [] [] (Dev.writeDescs d r p addrs n status) := by
  unfold Dev.writeDescs
  extract_lets +onlyGivenNames sz h part addr d1
  have hd1 : d.Spares [] [] d1 := (Dev.Spares.refl _ _ _).each _ _ fun d i => (Dev.Spares.refl _ _ _).emit _
  exact hd1.each _ _ fun d i => (Dev.Spares.refl _ _ _).emit _

theorem Dev.ringFlush_spares (d : Dev) (tx : Bool) (r : ℕ) (written : List (BitVec 64)) : d.Spares [] [] (Dev.ringFlush d tx r written) := by
  unfold Dev.ringFlush
  extract_lets +onlyGivenNames d1
  have hd1 : d.Spares [] [] d1 := (Dev.Spares.refl _ _ _).set _ _ (.inl (ringFlbusy_high _ _))
  refine Dev.Spares.ite ?_ ?_
  · extract_lets +onlyGivenNames n h
    exact ((hd1.each _ _ fun d i => Dev.Spares.within (Dev.txDone_spares _ _ _ _)).thn (Dev.ringEmpty_spares _ _ _ _)).thn (Dev.ringPass_spares _ _ _ _)
  · split
    · exact hd1.thn (Dev.ringRefresh_spares _ _ _ _)
    · extract_lets +onlyGivenNames n'
      exact ((hd1.thn (Dev.writeDescs_spares _ _ _ _ _ _)).thn (Dev.ringEmpty_spares _ _ _ _)).thn (Dev.ringPass_spares _ _ _ _)

theorem Dev.withdraw_spares (d : Dev) (c : ℕ) : d.Spares [] [] (Dev.withdraw d c) := by
  unfold Dev.withdraw
  exact Dev.Spares.ite (Dev.Spares.within (Dev.cutBursts_spares _ _ _)) (Dev.Spares.ite ((((Dev.Spares.within (Dev.lfAbandon_spares _ _)).thn (Dev.cutBursts_spares _ _ _)).thn (Dev.enablesOff_spares _ _)).thn (Dev.actenWritten_spares _ _)) (Dev.Spares.ite (((Dev.Spares.refl _ _ _).each _ _ fun d r => Dev.Spares.within (Dev.ringFlush_spares _ _ _ _)).thn (Dev.enablesOff_spares _ _)) (Dev.Spares.within (Dev.enablesOff_spares _ _))))

theorem Dev.biasAuto_spares (d : Dev) (w : ℕ) : d.Spares [] [] (Dev.biasAuto d w) := by
  unfold Dev.biasAuto
  exact (Dev.Spares.refl _ _ _).when _ _ fun d => ((Dev.Spares.refl _ _ _).setConv _ _).setWave _ _

theorem Dev.select_spares (d : Dev) (w : ℕ) (e : ℕ) : d.Spares [] [] (Dev.select d w e) := by
  unfold Dev.select
  exact ((((Dev.Spares.refl _ _ _).set _ _ (.inl (R.cvSelStat_high _))).set _ _ (.inl (R.cvSelStat_high _))).set _ _ (.inl (R.cvSelStat_high _))).set _ _ (.inl (R.cvSelStat_high _))

theorem Dev.takeKind_spares (d : Dev) (e : ℕ) (m : ℕ) : d.Spares [] [] (Dev.takeKind d e m) := by
  unfold Dev.takeKind
  exact ((Dev.Spares.refl _ _ _).each _ _ fun d s => (Dev.Spares.refl _ _ _).set _ _ (.inl (R.leRxsQual_high _ _))).setFlag _ _ (.inl (R.leRxcStat_high _))

theorem Dev.connectDecode_spares (d : Dev) (e : ℕ) (m : ℕ) : d.Spares [] [] (Dev.connectDecode d e m) := by
  unfold Dev.connectDecode
  exact (((Dev.Spares.refl _ _ _).set _ _ (.inl (R.leRxcDecode_high _))).thn (Dev.takeKind_spares _ _ _)).setEng _ _

theorem Dev.dropPhase_spares (d : Dev) (e : ℕ) (m : ℕ) : d.Spares [] [] (Dev.dropPhase d e m) := by
  unfold Dev.dropPhase
  exact (Dev.Spares.refl _ _ _).each _ _ fun d s => Dev.Spares.ite (((Dev.Spares.refl _ _ _).set _ _ (.inl (R.leRxsStat_high _ _))).when _ _ fun d => Dev.Spares.within (Dev.rxEvent_spares _ _ _ _)) (Dev.Spares.refl _ _ _)

theorem Dev.startAcq_spares (d : Dev) (e : ℕ) (step : ℕ) : d.Spares [] [] (Dev.startAcq d e step) := by
  unfold Dev.startAcq
  extract_lets +onlyGivenNames d0 lim win range
  have hd0 : d.Spares [] [] d0 := Dev.Spares.within (Dev.dropPhase_spares _ _ _)
  exact (((hd0.set _ _ (.inl (R.leRxcStat_high _))).count _ _ (.inl (R.leRxcStat_high _))).when _ _ fun d => (Dev.Spares.refl _ _ _).set _ _ (.inl (R.leRxcCdstat_high _))).setEng _ _

theorem Dev.connect_spares (d : Dev) (w : ℕ) (e : ℕ) : d.Spares [] [] (Dev.connect d w e) := by
  unfold Dev.connect
  extract_lets +onlyGivenNames d1
  have hd1 : d.Spares [] [] d1 := Dev.Spares.within (Dev.connectDecode_spares _ _ _)
  exact (Dev.Spares.ite (hd1.set _ _ (.inl (R.leRxcStat_high _))) (hd1.thn (Dev.startAcq_spares _ _ _))).thn (Dev.txRefresh_spares _)

theorem Dev.convUp_spares (d0 : Dev) (w : ℕ) : d0.Spares [] [] (Dev.convUp d0 w) := by
  unfold Dev.convUp
  extract_lets +onlyGivenNames d
  have hd : d0.Spares [] [] d := Dev.Spares.within (Dev.biasAuto_spares _ _)
  split
  · exact (hd.thn (Dev.select_spares _ _ _)).thn (Dev.txRefresh_spares _)
  · exact (hd.thn (Dev.select_spares _ _ _)).when _ _ fun d => Dev.Spares.within (Dev.connect_spares _ _ _)

theorem Dev.banked_spares (d : Dev) (w : ℕ) : d.Spares [] [] (Dev.banked d w) := by
  unfold Dev.banked
  extract_lets +onlyGivenNames b
  exact (Dev.Spares.refl _ _ _).when _ _ fun d => ((Dev.Spares.refl _ _ _).setReg _ _ (.inl (R.lfActEqd_high _))).setReg _ _ (.inl (R.lfActRtd_high _))

theorem Dev.codesFrom_spares (d : Dev) (w : ℕ) (e : ℕ) : d.Spares [] [] (Dev.codesFrom d w e) := by
  unfold Dev.codesFrom
  extract_lets +onlyGivenNames put
  exact (Dev.Spares.refl _ _ _).setWave _ _

theorem Dev.engineCodes_spares (d : Dev) (w : ℕ) : d.Spares [] [] (Dev.engineCodes d w) := by
  unfold Dev.engineCodes
  split
  · exact Dev.Spares.refl _ _ _
  · exact (Dev.Spares.refl _ _ _).when _ _ fun d => Dev.Spares.within (Dev.codesFrom_spares _ _ _)

theorem Dev.missingCells_spares (d : Dev) (w : ℕ) (g : ℕ) (n : ℕ) : d.Spares [] [] (Dev.missingCells d w g n) := by
  unfold Dev.missingCells
  exact (Dev.Spares.refl _ _ _).when _ _ fun d => (Dev.Spares.refl _ _ _).count _ _ (.inl (R.lfCellLost_high _))

theorem Dev.cryCut_spares (d : Dev) (w : ℕ) (g : ℕ) : d.Spares [] [] (Dev.cryCut d w g) := by
  unfold Dev.cryCut
  exact (Dev.Spares.refl _ _ _).setCry _ _ _

theorem Dev.dropHeld_spares (d : Dev) (w : ℕ) (g : ℕ) : d.Spares [] [] (Dev.dropHeld d w g) := by
  unfold Dev.dropHeld
  extract_lets +onlyGivenNames h
  exact ((Dev.Spares.within (Dev.missingCells_spares _ _ _ _)).when _ _ fun d => Dev.Spares.within (Dev.cryCut_spares _ _ _)).setGrp _ _ _

theorem Dev.groupWait_spares (d : Dev) (w : ℕ) (g : ℕ) : d.Spares [] [] (Dev.groupWait d w g) := by
  unfold Dev.groupWait
  exact Dev.Spares.ite ((Dev.Spares.refl _ _ _).set _ _ (.inl (R.lfGrpStat_high _ _))) ((Dev.Spares.within (Dev.dropHeld_spares _ _ _)).set _ _ (.inl (R.lfGrpStat_high _ _)))

theorem Dev.beaconGroup_spares (d : Dev) (w : ℕ) (k : ℕ) : d.Spares [] [] (Dev.beaconGroup d w k) := by
  unfold Dev.beaconGroup
  exact Dev.Spares.ite (Dev.Spares.refl _ _ _) (((((Dev.Spares.refl _ _ _).set _ _ (.inl (R.lfGrpMemb_high _ _))).set _ _ (.inl (R.lfGrpStat_high _ _))).thn (Dev.groupWait_spares _ _ _)).setGrp _ _ _)

theorem Dev.alnStat_spares (d : Dev) (w : ℕ) : d.Spares [] [] (Dev.alnStat d w) := by
  unfold Dev.alnStat
  extract_lets +onlyGivenNames dec all d1
  have hd1 : d.Spares [] [] d1 := (Dev.Spares.refl _ _ _).setFlag _ _ (.inl (R.lfAlnStat_high _))
  split
  · exact (((hd1.set _ _ (.inl (R.lfAlnStat_high _))).set _ _ (.inl (R.lfAlnStat_high _))).setWave _ _).thn (Dev.beaconGroup_spares _ _ _)
  · exact hd1.set _ _ (.inl (R.lfAlnStat_high _))

theorem Dev.giveAlign_spares (d : Dev) (w : ℕ) (sc : ℕ) (a : Option AlnGive) : d.Spares [] [] (Dev.giveAlign d w sc a) := by
  unfold Dev.giveAlign
  exact (Dev.Spares.refl _ _ _).each _ _ fun d e => (Dev.Spares.refl _ _ _).setEng _ _

theorem Dev.toSearch_spares (d : Dev) (w : ℕ) (sc : ℕ) : d.Spares [] [] (Dev.toSearch d w sc) := by
  unfold Dev.toSearch
  extract_lets +onlyGivenNames d1
  have hd1 : d.Spares [] [] d1 := ((((Dev.Spares.refl _ _ _).set _ _ (.inl (R.lfScsAln_high _ _))).set _ _ (.inl (R.lfScsAln_high _ _))).setSc _ _ _).thn (Dev.giveAlign_spares _ _ _ _)
  exact (hd1.each _ _ fun d g => Dev.Spares.within (Dev.groupWait_spares _ _ _)).thn (Dev.alnStat_spares _ _)

theorem Dev.framerDecode_spares (d : Dev) (w : ℕ) (m : ℕ) : d.Spares [] [] (Dev.framerDecode d w m) := by
  unfold Dev.framerDecode
  refine ((Dev.Spares.refl _ _ _).each _ _ fun d k => ?_).thn (Dev.alnStat_spares _ _)
  · extract_lets +onlyGivenNames st
    exact Dev.Spares.ite ((Dev.Spares.within (Dev.toSearch_spares _ _ _)).setSc _ _ _) (Dev.Spares.ite ((Dev.Spares.within (Dev.toSearch_spares _ _ _)).set _ _ (.inl (R.lfScsAln_high _ _))) (Dev.Spares.refl _ _ _))

theorem Dev.framerUp_spares (d : Dev) (w : ℕ) (was : Option Bool) : d.Spares [R.hrtClkDisc, R.hrtClkStat] [] (Dev.framerUp d w was) := by
  unfold Dev.framerUp
  extract_lets +onlyGivenNames leaf m d1 now d2 d3
  have hd1 : d.Spares [R.hrtClkDisc, R.hrtClkStat] [] d1 := ((Dev.Spares.within (Dev.engineCodes_spares _ _)).thn (Dev.banked_spares _ _)).when _ _ fun d => ((Dev.Spares.refl _ _ _).set _ _ (.inr (by decide))).thn (Dev.discipline_spares _)
  have hd2 : d.Spares [R.hrtClkDisc, R.hrtClkStat] [] d2 := ((hd1.setWave _ _).thn (Dev.askDecode_spares _ _ _)).thn (Dev.framerDecode_spares _ _ _)
  have hd3 : d.Spares [R.hrtClkDisc, R.hrtClkStat] [] d3 := (hd2.when _ _ fun d => (Dev.Spares.refl _ _ _).setWave _ _).thn (Dev.biasAuto_spares _ _)
  refine Dev.Spares.thn ?_ (Dev.txRefresh_spares _)
  · split
    · exact hd3.when _ _ fun d => Dev.Spares.within (Dev.startAcq_spares _ _ _)
    · exact hd3

theorem Dev.setStage_spares (d : Dev) (l : ℕ) (n : ℕ) : d.Spares [] [] (Dev.setStage d l n) := by
  unfold Dev.setStage
  exact (Dev.Spares.refl _ _ _).set _ _ (.inl (R.hsLnStat_high _))

theorem Dev.laneEvent_spares (d : Dev) (l n : ℕ) (addrs : List ℕ) (hn : 0x20 ≤ n) : d.Spares [] [] (d.laneEvent l n addrs) := by
  unfold Dev.laneEvent
  extract_lets +onlyGivenNames h i f
  have hf : 0x80200 ≤ f.addr := by
    unfold f
    split
    · exact R.hsLngSum0_high _
    · exact R.hsLngSum1_high _
  exact ((Dev.Spares.refl _ _ _).set _ _ (.inl hf)).raise _ _ (.inl hn)

theorem Dev.enterActive_spares (d : Dev) (l : ℕ) : d.Spares [] [] (Dev.enterActive d l) := by
  unfold Dev.enterActive
  exact ((Dev.Spares.within (Dev.setStage_spares _ _ _)).setLane _ _).thn (Dev.laneEvent_spares _ _ _ _ (by omega))

theorem Dev.loopStage_spares (d : Dev) (l : ℕ) : d.Spares [] [] (Dev.loopStage d l) := by
  unfold Dev.loopStage
  exact Dev.Spares.ite (Dev.Spares.within (Dev.setStage_spares _ _ _)) (Dev.Spares.ite (Dev.Spares.within (Dev.enterActive_spares _ _)) (Dev.Spares.refl _ _ _))

theorem Dev.laneStart_spares (d : Dev) (l : ℕ) : d.Spares [] [] (Dev.laneStart d l) := by
  unfold Dev.laneStart
  refine Dev.Spares.ite (Dev.Spares.within (Dev.setStage_spares _ _ _)) ?_
  · extract_lets +onlyGivenNames d1
    have hd1 : d.Spares [] [] d1 := (((((Dev.Spares.refl _ _ _).set _ _ (.inl (R.hsLnStat_high _))).set _ _ (.inl (R.hsLnStat_high _))).set _ _ (.inl (R.hsLnStat_high _))).set _ _ (.inl (R.hsLnStat_high _))).setLane _ _
    exact (hd1.thn (Dev.setStage_spares _ _ _)).thn (Dev.loopStage_spares _ _)

theorem Dev.unpark_spares (d : Dev) (p : ℕ) : d.Spares [] [] (Dev.unpark d p) := by
  unfold Dev.unpark
  exact (((((Dev.Spares.refl _ _ _).set _ _ (.inl (R.hsMacPark_high _))).set _ _ (.inl (R.hsMacPark_high _))).setPwr _).each _ _ fun d l => Dev.Spares.within (Dev.laneStart_spares _ _)).raise _ _ (.inl (by decide))

theorem Dev.portsUp_spares (d : Dev) (c : ℕ) : d.Spares [] [] (Dev.portsUp d c) := by
  unfold Dev.portsUp
  extract_lets +onlyGivenNames lo d0 d1
  have hd0 : d.Spares [] [] d0 := (Dev.Spares.refl _ _ _).each _ _ fun d p => (Dev.Spares.refl _ _ _).setMac _ _
  have hd1 : d.Spares [] [] d1 := hd0.each _ _ fun d p => Dev.Spares.ite (Dev.Spares.refl _ _ _) (Dev.Spares.ite (Dev.Spares.ite (Dev.Spares.within (Dev.unpark_spares _ _)) (Dev.Spares.ite (Dev.Spares.refl _ _ _) (((Dev.Spares.refl _ _ _).set _ _ (.inl (R.hsMacPark_high _))).raise _ _ (.inl (by decide))))) ((Dev.Spares.refl _ _ _).each _ _ fun d l => Dev.Spares.within (Dev.laneStart_spares _ _)))
  exact hd1.setPwr _

theorem Dev.macLost_spares (d : Dev) (p : ℕ) : d.Spares [] [] (Dev.macLost d p) := by
  unfold Dev.macLost
  exact (Dev.Spares.refl _ _ _).when _ _ fun d => ((Dev.Spares.refl _ _ _).with_free _).thn (Dev.macDown_spares _ _ _)

theorem Dev.pauseStat_spares (d : Dev) (p : ℕ) : d.Spares [] [] (Dev.pauseStat d p) := by
  unfold Dev.pauseStat
  extract_lets +onlyGivenNames m
  exact ((Dev.Spares.refl _ _ _).setFlag _ _ (.inl (R.hsMacFcstat_high _))).set _ _ (.inl (R.hsMacFcstat_high _))

theorem Dev.park_spares (d : Dev) (p : ℕ) : d.Spares [] [] (Dev.park d p) := by
  unfold Dev.park
  extract_lets +onlyGivenNames d1 d2
  have hd1 : d.Spares [] [] d1 := (Dev.Spares.within (Dev.macLost_spares _ _)).each _ _ fun d l => Dev.Spares.within (Dev.setStage_spares _ _ _)
  have hd2 : d.Spares [] [] d2 := ((hd1.setMac _ _).thn (Dev.pauseStat_spares _ _)).set _ _ (.inl (R.hsMacFcstat_high _))
  exact ((((hd2.set _ _ (.inl (R.hsMacLpistat_high _))).set _ _ (.inl (R.hsMacLpistat_high _))).set _ _ (.inl (R.hsMacPark_high _))).set _ _ (.inl (R.hsMacPark_high _))).raise _ _ (.inl (by decide))

theorem Dev.dozePorts_spares (d : Dev) : d.Spares [] [] (Dev.dozePorts d) := by
  unfold Dev.dozePorts
  exact (Dev.Spares.refl _ _ _).each _ _ fun d p => Dev.Spares.ite (Dev.Spares.refl _ _ _) (Dev.Spares.ite ((Dev.Spares.refl _ _ _).when _ _ fun d => ((Dev.Spares.refl _ _ _).set _ _ (.inl (R.hsMacLpistat_high _))).count _ _ (.inl (R.hsMacLpistat_high _))) ((Dev.Spares.within (Dev.park_spares _ _)).setPwr _))

theorem Dev.wakePorts_spares (d : Dev) : d.Spares [] [] (Dev.wakePorts d) := by
  unfold Dev.wakePorts
  exact ((Dev.Spares.refl _ _ _).each _ _ fun d p => (Dev.Spares.refl _ _ _).when _ _ fun d => Dev.Spares.within (Dev.unpark_spares _ _)).setPwr _

theorem Dev.dozeDecode_spares (d : Dev) (old : ℕ) : d.Spares [] [] (Dev.dozeDecode d old) := by
  unfold Dev.dozeDecode
  extract_lets +onlyGivenNames w
  exact (Dev.Spares.refl _ _ _).when _ _ fun d => Dev.Spares.within (Dev.askDecode_spares _ _ _)

theorem Dev.applyChange_spares (d : Dev) (w : ℕ) (p : ProfPend) : d.Spares [] [] (Dev.applyChange d w p) := by
  unfold Dev.applyChange
  exact Dev.Spares.ite (((Dev.Spares.refl _ _ _).setWave _ _).each _ _ fun d e => (Dev.Spares.refl _ _ _).set _ _ (.inl (R.leRxsLlrcfg_high _ _))) (((Dev.Spares.refl _ _ _).setWave _ _).each _ _ fun d e => ((Dev.Spares.refl _ _ _).set _ _ (.inl (R.leTxsProf_high _ _))).set _ _ (.inl (R.leTxsProf_high _ _)))

theorem Dev.txEvent_spares (d : Dev) (e : ℕ) (c : ℕ) (addrs : List ℕ) : d.Spares [] [] (Dev.txEvent d e c addrs) := by
  unfold Dev.txEvent
  exact Dev.Spares.ite ((Dev.Spares.refl _ _ _).when _ _ fun d => (Dev.Spares.refl _ _ _).raise _ _ (.inl (by omega))) (Dev.Spares.ite ((Dev.Spares.refl _ _ _).when _ _ fun d => (Dev.Spares.refl _ _ _).raise _ _ (.inl (by omega))) (Dev.Spares.refl _ _ _))

theorem Dev.profEvent_spares (d : Dev) (w : ℕ) (sc : ℕ) : d.Spares [] [] (Dev.profEvent d w sc) := by
  unfold Dev.profEvent
  split
  · exact Dev.Spares.within (Dev.txEvent_spares _ _ _ _)
  · exact (Dev.Spares.refl _ _ _).setWave _ _

theorem Dev.applyPend_spares (d : Dev) (w : ℕ) (dir : ℕ) (sfn : ℕ) : d.Spares [] [] (Dev.applyPend d w dir sfn) := by
  unfold Dev.applyPend
  extract_lets +onlyGivenNames due d1
  have hd1 : d.Spares [] [] d1 := ((Dev.Spares.refl _ _ _).setWave _ _).each _ _ fun d p => Dev.Spares.within (Dev.applyChange_spares _ _ _)
  split
  · exact hd1.thn (Dev.profEvent_spares _ _ _)
  · exact hd1

theorem Dev.catchUp_spares (d : Dev) (w : ℕ) (e : ℕ) : d.Spares [] [] (Dev.catchUp d w e) := by
  unfold Dev.catchUp
  extract_lets +onlyGivenNames d1
  have hd1 : d.Spares [] [] d1 := (Dev.Spares.refl _ _ _).when _ _ fun d => Dev.Spares.within (Dev.applyPend_spares _ _ _ _)
  split
  · exact (hd1.setWave _ _).raise _ _ (.inl (by omega))
  · exact hd1

theorem Dev.takeCopy_spares (d0 : Dev) (w : ℕ) (e : ℕ) (sfn : ℕ → ℕ) : d0.Spares [] [] (Dev.takeCopy d0 w e sfn) := by
  unfold Dev.takeCopy
  extract_lets +onlyGivenNames d v
  have hd : d0.Spares [] [] d := (Dev.Spares.within (Dev.applyPend_spares _ _ _ _)).thn (Dev.applyPend_spares _ _ _ _)
  refine (hd.setWave _ _).each _ _ fun d k => ?_
  · extract_lets +onlyGivenNames d1
    have hd1 : d.Spares [] [] d1 := ((Dev.Spares.refl _ _ _).set _ _ (.inl (R.leRxsLlrcfg_high _ _))).set _ _ (.inl (R.leTxsProf_high _ _))
    split
    · exact (hd1.set _ _ (.inl (R.leTxsProf_high _ _))).set _ _ (.inl (R.leTxsProf_high _ _))
    · exact hd1.set _ _ (.inl (R.leTxsProf_high _ _))

theorem Dev.takeFramerCopy_spares (d : Dev) (w : ℕ) (e : ℕ) : d.Spares [] [] (Dev.takeFramerCopy d w e) := by
  unfold Dev.takeFramerCopy
  exact Dev.Spares.within (Dev.takeCopy_spares _ _ _ _)

end Sys2Proof.Machine
end

section
/-!
PROOFS. Configuration commands, reloads of cords, drains, and runs over the slices of PKT (O45).
-/

namespace Sys2Proof.Machine

set_option Elab.async false

/-! ### Commands of HRT_CFG_CMD (R372, R373) -/

theorem cfgWord_op (v : Word) {op : Nat} (h : op < 4) : F.hrtCfgCmdOp.of (cfgWord v op) = op := by
  rw [cfgWord, Fld.of_put_apart _ _ _ _ (by simp [F.hrtCfgCmdOp]) (by simp [F.hrtCfgCmdOp, F.hrtCfgCmdGo]), Fld.of_put _ _ _ (by simp [F.hrtCfgCmdOp])]
  exact Nat.mod_eq_of_lt h

theorem cfgWord_apart (v : Word) (op : Nat) {g : Fld} (h2 : 2 ≤ g.lsb) (h31 : g.lsb + g.width ≤ 31) : g.of (cfgWord v op) = g.of v := by
  rw [cfgWord, Fld.of_put_apart _ _ _ _ (by omega) (by simp only [F.hrtCfgCmdGo]; omega), Fld.of_put_apart _ _ _ _ (by omega) (by simp only [F.hrtCfgCmdOp]; omega)]

theorem cfgWord_go (v : Word) (op : Nat) : (cfgWord v op).getLsbD 31 = true := by
  rw [cfgWord, Fld.getLsbD_put _ _ _ _ (by decide)]
  simp [F.hrtCfgCmdGo]

theorem decodeAddr_hrtCfgCmd : ∃ r, decodeAddr R.hrtCfgCmd = some r ∧ r.row.name = .hrtCfgCmd := by
  have h : (decodeAddr R.hrtCfgCmd).map (fun r => r.row.name) = some .hrtCfgCmd := by decide +kernel
  simpa [Option.map_eq_some_iff] using h

/-- The write of a command stores it, and nothing else (R372). -/
theorem Dev.applyWrite_cfgCmd (d : Dev) {r : RegAt} (hn : r.row.name = .hrtCfgCmd) (fz : Fuses) (v : Word) (written : List (BitVec 64)) :
    d.applyWrite fz R.hrtCfgCmd r v written = d.setReg R.hrtCfgCmd (r.row.merge (d.reg R.hrtCfgCmd) v) := by
  rw [Dev.applyWrite_stored (by simp [hn]) (Dev.ringsUp_of_lt (by decide))]
  simp only [Dev.writeGo, hn]

/-- A command that no check refuses: what follows is its effect on the device checked and written. -/
theorem State.cfgCmd_takes {s : State} {v : Word} {op : Nat} {P : State → Prop} (hs : s.dev.out = []) (ht : s.dev.Takes R.hrtCfgCmd (cfgWord v op))
    (hok : ∀ l, ((s.dev.setWaiting l).cfgTry s.fuses (cfgWord v op)).2.1 = 0)
    (h : ∀ l w t, ((((((s.dev.setWaiting l).cfgTry s.fuses (cfgWord v op)).1.setReg R.hrtCfgCmd w).cfgGo s.fuses (cfgWord v op)
        ((s.dev.setWaiting l).cfgTry s.fuses (cfgWord v op)).2.2).emit (.writeDone R.hrtCfgCmd 0)).setWaiting []).EndsAs t.dev →
      t.outputs.head? = some (.writeDone R.hrtCfgCmd 0) → P t) :
    ∃ t, s.hostWrite R.hrtCfgCmd (cfgWord v op) = .next t ∧ P t := by
  obtain ⟨r, hr, hn⟩ := decodeAddr_hrtCfgCmd
  refine State.write_takes (u := fun _ => cfgWord v op)
    (g := fun d => (((d.cfgTry s.fuses (cfgWord v op)).1.setReg R.hrtCfgCmd (r.row.merge ((d.cfgTry s.fuses (cfgWord v op)).1.reg R.hrtCfgCmd) (cfgWord v op))).cfgGo
      s.fuses (cfgWord v op) (d.cfgTry s.fuses (cfgWord v op)).2.2)) hs rfl rfl ht (emberOfs_hrt (by decide)) hr (fun l => ?_) fun l t hends hout => ?_
  · simp [Dev.sysWrite, hn, cfgWord_go, hok l, Dev.applyWrite_cfgCmd _ hn]
  · exact h l _ t hends (by rw [hout]; rfl)

/-- A command that a check of R373 refuses ends with code 10, and what the check has changed. -/
theorem State.cfgCmd_refused {s : State} {v : Word} {op : Nat} {P : State → Prop} (hs : s.dev.out = []) (ht : s.dev.Takes R.hrtCfgCmd (cfgWord v op))
    (hno : ∀ l, ((s.dev.setWaiting l).cfgTry s.fuses (cfgWord v op)).2.1 ≠ 0)
    (h : ∀ l t, (((((s.dev.setWaiting l).cfgTry s.fuses (cfgWord v op)).1.accessError 10 R.hrtCfgCmd true).emit (.writeDone R.hrtCfgCmd 10)).setWaiting []).EndsAs t.dev →
      t.outputs.head? = some (.writeDone R.hrtCfgCmd 10) → P t) :
    ∃ t, s.hostWrite R.hrtCfgCmd (cfgWord v op) = .next t ∧ P t := by
  obtain ⟨r, hr, hn⟩ := decodeAddr_hrtCfgCmd
  refine State.write_refused (u := fun _ => cfgWord v op) (g := fun d => (d.cfgTry s.fuses (cfgWord v op)).1) hs rfl rfl ht (emberOfs_hrt (by decide)) hr
    (c := 10) (by decide) (by decide) (by decide) (fun l => ?_) h
  simp [Dev.sysWrite, hn, cfgWord_go, hno l]

/-- A command that verifies no slot: its note in the ash log, then the checks of R373. -/
theorem Dev.cfgTry_plain (d : Dev) (fz : Fuses) {v : Word} (h : F.hrtCfgCmdOp.of v ≠ 1) :
    d.cfgTry fz v = (if (d.ashNote 3).cfgCode v none = 0 then d.ashNote 3 else (d.ashNote 3).cfgRefuse ((d.ashNote 3).cfgCode v none),
      (d.ashNote 3).cfgCode v none, none) := by
  unfold Dev.cfgTry
  simp [h]

/-- A refused command: RESULT, and its event (R373). -/
theorem Dev.cfgRefuse_shows (d : Dev) {code : Nat} (hc : code < 256) :
    (d.cfgRefuse code).get F.hrtCfgStatResult = code ∧ d.Raised 0x0E (d.cfgRefuse code)
      ∧ d.Moves Dev.Moves.evtParts (shown [R.hrtCfgStat] [0x0E]) (d.cfgRefuse code) := by
  have hget := d.get_set_lt F.hrtCfgStatResult (x := code) (by simp [Fld.fits, F.hrtCfgStatResult]) hc
  have hmoves : d.Moves Dev.Moves.evtParts (shown [R.hrtCfgStat] [0x0E]) (d.set F.hrtCfgStatResult code) :=
    (Dev.Moves.refl _ _ d).set _ _ (.inl (by decide))
  have hreg : (d.set F.hrtCfgStatResult code).reg (R.hrtEvtSrcCtl 0x0E) = d.reg (R.hrtEvtSrcCtl 0x0E) := Dev.reg_set_ne _ _ (by decide)
  unfold Dev.cfgRefuse
  generalize d.set F.hrtCfgStatResult code = b at *
  refine ⟨(Dev.get_raise _ _ _ (.inl (by decide))).trans hget, (b.raised_raise _ _ (by decide)).of_ctl ?_ rfl, hmoves.raised _ _ (by decide)⟩
  rw [hreg]

/-! ### Reloads of cords that are off or Held (R372, R374) -/

/-- The record and the first event of a cord's reload (R372). -/
def Dev.reloadMark (d : Dev) (r : Reload) (c : Nat) (t : List Nat) : Dev :=
  (((d.setReload (some { cord := c, rest := t, activate := r.activate, force := r.force, old := d.sec c, res := r.res })).cfgStep c 0).when
    r.activate fun d => d.set F.hrtCfgStatMixed 1).raise 0x0B [R.hrtCfgStat]

/-- A reload that takes effect at once, in its place in the order of its command. -/
def Dev.reloadPass (d : Dev) (r : Reload) (c : Nat) (t : List Nat) : Dev := (d.reloadMark r c t).reloadOff c

/-- What a reload that takes effect at once leaves (R372, R374). -/
structure Dev.PassedOff (d : Dev) (c : Nat) (e : Dev) : Prop where
  moves : d.Moves (.img :: Dev.Moves.evtParts) (shown [R.hrtCfgStat, R.hrtCfgCseq c] [0x0B, 0x0C]) e
  slot : e.img.slot = d.img.slot
  seq : e.img.seq = d.img.seq
  sec : e.sec c = Tbl.get {} d.img.slot c
  sec_ne : ∀ k, k ≠ c → e.sec k = d.sec k
  cseq : e.get (F.hrtCfgCseqSseq c) = (Tbl.get ({} : Sec) d.img.slot c).sseq % 2 ^ 32
  begins : d.Raised 0x0B e
  ends : d.Raised 0x0C e

theorem R.hrtCfgCseq_lt {c : Nat} (h : c < 16) : R.hrtCfgCseq c < 0x50000 := by
  unfold R.hrtCfgCseq
  omega

theorem Dev.reloadOff_shows (d : Dev) {c : Nat} (hc : c < 16) :
    let e := d.reloadOff c
    d.Moves (.img :: Dev.Moves.evtParts) (shown [R.hrtCfgCseq c] [0x0C]) e ∧ e.img = (d.takeSlot c).img
      ∧ e.get (F.hrtCfgCseqSseq c) = (Tbl.get ({} : Sec) d.img.slot c).sseq % 2 ^ 32 ∧ d.Raised 0x0C e := by
  intro e
  have hlow := R.hrtCfgCseq_lt hc
  have hsec : (d.takeSlot c).sec c = Tbl.get ({} : Sec) d.img.slot c := Tbl.get_set_self _ _ _ _
  have hmoves : d.Moves (.img :: Dev.Moves.evtParts) (shown [R.hrtCfgCseq c] []) ((d.takeSlot c).showSeq c) :=
    ((Dev.Moves.refl _ _ d).setImg _ id).set _ _ (.inl (by simp [F.hrtCfgCseqSseq]))
  have hget : ((d.takeSlot c).showSeq c).get (F.hrtCfgCseqSseq c) = (Tbl.get ({} : Sec) d.img.slot c).sseq % 2 ^ 32 := by
    rw [Dev.showSeq, hsec, Dev.get_set_self _ _ _ (by simp [Fld.fits, F.hrtCfgCseqSseq])]
    rfl
  have himg : ((d.takeSlot c).showSeq c).img = (d.takeSlot c).img := rfl
  subst e
  unfold Dev.reloadOff
  generalize (d.takeSlot c).showSeq c = b at *
  refine ⟨(hmoves.mono (by decide) (shown_mono (fun _ h => h) (by simp))).raised _ _ (by decide), (b.raise_quiet _ _).img.trans himg,
    (Dev.get_raise _ _ _ (.inl (by simp only [F.hrtCfgCseqSseq]; omega))).trans hget, (b.raised_raise _ _ (by decide)).of_ctl ?_ rfl⟩
  exact (hmoves.only _ (by simp only [List.mem_singleton, R.hrtEvtSrcCtl]; omega) (by simp)).symm

theorem Dev.reloadMark_shows (d : Dev) (r : Reload) (c : Nat) (t : List Nat) :
    let e := d.reloadMark r c t
    d.Moves (.img :: Dev.Moves.evtParts) (shown [R.hrtCfgStat] [0x0B]) e ∧ d.Raised 0x0B e
      ∧ e.img = { d.img with reload := some { cord := c, rest := t, activate := r.activate, force := r.force, old := d.sec c, res := r.res } }
      ∧ e.get F.hrtCfgStatBusy = d.get F.hrtCfgStatBusy := by
  intro e
  subst e
  unfold Dev.reloadMark
  have hmoves : d.Moves (.img :: Dev.Moves.evtParts) (shown [R.hrtCfgStat] [])
      (((d.setReload (some { cord := c, rest := t, activate := r.activate, force := r.force, old := d.sec c, res := r.res })).cfgStep c 0).when
        r.activate fun d => d.set F.hrtCfgStatMixed 1) :=
    ((((Dev.Moves.refl _ _ d).setReload _).set F.hrtCfgStatCord _ (.inl (by decide))).set F.hrtCfgStatStep _ (.inl (by decide))).when _ _ fun x =>
      (Dev.Moves.refl _ _ x).set F.hrtCfgStatMixed _ (.inl (by decide))
  have himg : (((d.setReload (some { cord := c, rest := t, activate := r.activate, force := r.force, old := d.sec c, res := r.res })).cfgStep
      c 0).when r.activate fun d => d.set F.hrtCfgStatMixed 1).img
      = { d.img with reload := some { cord := c, rest := t, activate := r.activate, force := r.force, old := d.sec c, res := r.res } } := by
    cases r.activate <;> rfl
  have hbusy : (((d.setReload (some { cord := c, rest := t, activate := r.activate, force := r.force, old := d.sec c, res := r.res })).cfgStep
      c 0).when r.activate fun d => d.set F.hrtCfgStatMixed 1).get F.hrtCfgStatBusy = d.get F.hrtCfgStatBusy := by
    cases r.activate <;> simp -implicitDefEqProofs (disch := decide) only [Dev.when_true, Dev.when_false, Dev.cfgStep, Dev.get_set_off, Dev.get_setReload]
  generalize ((d.setReload (some { cord := c, rest := t, activate := r.activate, force := r.force, old := d.sec c, res := r.res })).cfgStep
      c 0).when r.activate (fun d => d.set F.hrtCfgStatMixed 1) = b at *
  refine ⟨(hmoves.mono (by decide) (shown_mono (fun _ h => h) (by simp))).raised _ _ (by decide), (b.raised_raise _ _ (by decide)).of_ctl ?_ rfl,
    (b.raise_quiet _ _).img.trans himg, (Dev.get_raise _ _ _ (.inl (by decide))).trans hbusy⟩
  exact (hmoves.only _ (by decide) (by simp)).symm

theorem Dev.reloadMark_cordSt (d : Dev) (r : Reload) (c : Nat) (t : List Nat) {k : Nat} (hk : k < 0x100) : (d.reloadMark r c t).cordSt k = d.cordSt k :=
  have hlow := R.hrtPwrCord_lt hk
  congrArg (fun n => if k = 0 then 3 else n) ((d.reloadMark_shows r c t).1.get (g := F.hrtPwrCordSt k)
    (not_shown (by simp only [F.hrtPwrCordSt, List.mem_singleton, R.hrtPwrCord, R.hrtCfgStat]; omega) (.inl (by simp only [F.hrtPwrCordSt]; omega)) (by simp)))

theorem Dev.reloadPass_shows (d : Dev) (r : Reload) {c : Nat} (hc : c < 16) (t : List Nat) : d.PassedOff c (d.reloadPass r c t) := by
  have hlow := R.hrtCfgCseq_lt hc
  obtain ⟨hm, hr, hi, -⟩ := d.reloadMark_shows r c t
  unfold Dev.reloadPass
  generalize d.reloadMark r c t = b at *
  have hslot : b.img.slot = d.img.slot := by rw [hi]
  have hsecs : b.img.secs = d.img.secs := by rw [hi]
  have hseq : b.img.seq = d.img.seq := by rw [hi]
  obtain ⟨km, ki, kg, kr⟩ := b.reloadOff_shows hc
  generalize b.reloadOff c = e at *
  refine ⟨(hm.mono (by decide) (shown_mono (by simp) (by simp))).trans (km.mono (by decide) (shown_mono (by simp) (by simp))), ?_, ?_, ?_, fun k hk => ?_,
    hslot ▸ kg, ?_, ?_⟩
  · rw [ki]; exact hslot
  · rw [ki]; exact hseq
  · rw [Dev.sec, ki, ← hslot]
    exact Tbl.get_set_self _ _ _ _
  · rw [Dev.sec, ki, Dev.sec, ← hsecs]
    exact Tbl.get_set_ne _ _ _ _ hk
  · refine hr.of_ctl rfl (km.only _ ?_ (by simp [evtRegs, R.hrtEvtSrcCtl, R.hrtEvtSrcFirstns, R.hrtEvtSrcFirstw]))
    simp only [List.mem_singleton, R.hrtEvtSrcCtl]; omega
  · exact kr.of_ctl (hm.only _ (by decide) (by simp [evtRegs, R.hrtEvtSrcCtl, R.hrtEvtSrcFirstns, R.hrtEvtSrcFirstw])).symm rfl

theorem Dev.reloadNext_off {d : Dev} {c : Nat} (hc : c ≠ 0) (hc' : c < 16) (h : d.cordSt c = 0 ∨ d.cordSt c = 5) (fz : Fuses) (r : Reload) (t : List Nat) :
    Dev.reloadNext fz r (c :: t) d = Dev.reloadNext fz r t (d.reloadPass r c t) := by
  rw [← d.reloadMark_cordSt r c t (show c < 0x100 by omega)] at h
  rw [Dev.reloadNext]
  exact if_pos ⟨hc, h⟩

/-- The end of a command with no request pending (R372). -/
theorem Dev.reloadEnd_shows (d : Dev) {res : Nat} (hres : res < 256) (hpend : d.get F.hrtPwrStatePend = 3) :
    let e := d.reloadEnd res true
    e.get F.hrtCfgStatBusy = 0 ∧ e.get F.hrtCfgStatResult = res ∧ e.get F.hrtCfgStatMixed = 0 ∧ e.get F.hrtCfgStatActslot = d.get F.hrtCfgStatActslot
      ∧ e.img = { d.img with reload := none } ∧ d.Moves [.img] (shown [R.hrtCfgStat] []) e := by
  intro e
  have he : e = ((((d.cfgStep 15 0).set F.hrtCfgStatBusy 0).set F.hrtCfgStatResult res).setReload none).set F.hrtCfgStatMixed 0 := by
    show Dev.runPending _ = _
    unfold Dev.runPending
    simp -implicitDefEqProofs (disch := decide) only [Dev.cfgStep, Dev.when_true, Dev.get_set_off, Dev.get_setReload, hpend]
    simp
  rw [he]
  refine ⟨?_, ?_, ?_, ?_, rfl, ((((((Dev.Moves.refl _ _ d).set F.hrtCfgStatCord _ (.inl (by decide))).set F.hrtCfgStatStep _ (.inl (by decide))).set F.hrtCfgStatBusy _
    (.inl (by decide))).set F.hrtCfgStatResult _ (.inl (by decide))).setReload _).set F.hrtCfgStatMixed _ (.inl (by decide))⟩
  · simp -implicitDefEqProofs (disch := decide) only [Dev.get_set_off, Dev.get_setReload, Dev.get_set_on]
    rfl
  · simp -implicitDefEqProofs (disch := decide) only [Dev.get_set_off, Dev.get_setReload, Dev.get_set_on]
    exact Nat.mod_eq_of_lt hres
  · simp -implicitDefEqProofs (disch := decide) only [Dev.get_set_on]
    rfl
  · simp -implicitDefEqProofs (disch := decide) only [Dev.cfgStep, Dev.get_set_off, Dev.get_setReload]

/-- BUSY and RESULT as a command starts (R372). -/
theorem Dev.cfgBegin_moves (d : Dev) : d.Moves [] (shown [R.hrtCfgStat] []) ((d.set F.hrtCfgStatBusy 1).set F.hrtCfgStatResult 0) :=
  ((Dev.Moves.refl _ _ d).set F.hrtCfgStatBusy _ (.inl (by decide))).set F.hrtCfgStatResult _ (.inl (by decide))

theorem Dev.Moves.cordSt {l : List Part} {xs evs : List Nat} {d e : Dev} (h : d.Moves l (shown xs evs) e) {c : Nat} (hc : c < 0x100)
    (hx : R.hrtPwrCord c ∉ xs) (he : ∀ n ∈ evs, n < 0x100) : e.cordSt c = d.cordSt c := by
  have := R.hrtPwrCord_lt hc
  simp only [Dev.cordSt]
  rw [h.get (g := F.hrtPwrCordSt c) (not_shown hx (.inl (by simp only [F.hrtPwrCordSt]; omega)) he)]

/-- A RELOAD of a cord that is off or Held (R372, R374). -/
theorem Dev.reloadStart_off {d : Dev} {c : Nat} (hc : c ≠ 0) (hc' : c < 16) (h : d.cordSt c = 0 ∨ d.cordSt c = 5) (hpend : d.get F.hrtPwrStatePend = 3)
    (fz : Fuses) (force : Bool) :
    let e := d.reloadStart fz [c] false force
    e.sec c = Tbl.get {} d.img.slot c ∧ e.get (F.hrtCfgCseqSseq c) = (Tbl.get ({} : Sec) d.img.slot c).sseq % 2 ^ 32 ∧ d.Raised 0x0B e ∧ d.Raised 0x0C e
      ∧ e.get F.hrtCfgStatBusy = 0 ∧ e.get F.hrtCfgStatResult = 0
      ∧ d.Moves (.img :: Dev.Moves.evtParts) (shown [R.hrtCfgStat, R.hrtCfgCseq c] [0x0B, 0x0C]) e := by
  intro e
  have hlow := R.hrtCfgCseq_lt hc'
  have hm := d.cfgBegin_moves
  subst e
  unfold Dev.reloadStart
  have himg : ((d.set F.hrtCfgStatBusy 1).set F.hrtCfgStatResult 0).img = d.img := hm.parts .img (by decide)
  dsimp only
  generalize (d.set F.hrtCfgStatBusy 1).set F.hrtCfgStatResult 0 = a at *
  have hst : a.cordSt c = d.cordSt c := hm.cordSt (by omega) (by simp only [List.mem_singleton, R.hrtPwrCord, R.hrtCfgStat]; omega) (by simp)
  have hpa : a.get F.hrtPwrStatePend = 3 := (hm.get (not_shown (by decide) (.inl (by decide)) (by simp))).trans hpend
  rw [Dev.reloadNext_off hc hc' (hst ▸ h)]
  have hp := a.reloadPass_shows { cord := 15, rest := [], activate := false, force := force, old := {} } hc' []
  generalize a.reloadPass { cord := 15, rest := [], activate := false, force := force, old := {} } c [] = b at *
  have hpb : b.get F.hrtPwrStatePend = 3 :=
    (hp.moves.get (not_shown (by simp only [List.mem_cons, List.not_mem_nil, or_false, F.hrtPwrStatePend, R.hrtPwrState, R.hrtCfgStat, R.hrtCfgCseq]; omega)
      (.inl (by decide)) (by decide))).trans hpa
  rw [Dev.reloadNext]
  obtain ⟨hbusy, hres, -, -, hi, km⟩ := b.reloadEnd_shows (res := 0) (by decide) hpb
  generalize b.reloadEnd 0 true = e at *
  refine ⟨?_, ?_, ?_, ?_, hbusy, hres, ((hm.mono (by decide) (shown_mono (by simp) (by simp))).trans hp.moves).trans (km.mono (by decide) (shown_mono (by simp) (by simp)))⟩
  · rw [Dev.sec, hi, ← himg]
    exact hp.sec
  · rw [km.get (not_shown (by simp only [List.mem_singleton, F.hrtCfgCseqSseq, R.hrtCfgStat, R.hrtCfgCseq]; omega)
      (.inl (by simp only [F.hrtCfgCseqSseq]; omega)) (by simp)), ← himg]
    exact hp.cseq
  · exact hp.begins.of_ctl (hm.only _ (by decide) (by simp)).symm (km.only _ (by decide) (by simp))
  · exact hp.ends.of_ctl (hm.only _ (by decide) (by simp)).symm (km.only _ (by decide) (by simp))

theorem Dev.cfgGo_reload (d : Dev) (fz : Fuses) {v : Word} (h : F.hrtCfgCmdOp.of v = 2) (i : Option Image) :
    d.cfgGo fz v i = d.reloadStart fz [F.hrtCfgCmdCord.of v] false (F.hrtCfgCmdForce.of v == 1) := by
  unfold Dev.cfgGo
  simp only [h]

theorem hrtCfgCmdCord_lt (v : Word) : F.hrtCfgCmdCord.of v < 16 := Nat.mod_lt _ (by decide)

/-- A RELOAD without a serving engine is refused by a transition alone, by a pending request, or where no image is in force (R373). -/
theorem Dev.cfgCode_reload {d : Dev} {v : Word} (hop : F.hrtCfgCmdOp.of v = 2) (hboot : d.get F.hrtCfgStatBootpend = 0) (hbusy : d.get F.hrtCfgStatBusy = 0)
    (hno : d.get F.hrtCfgStatNoimg = 0) (htrans : d.pwr.trans = none) (hpend : d.get F.hrtPwrStatePend = 3) (hs : d.servesNow (F.hrtCfgCmdCord.of v) = none) :
    d.cfgCode v none = 0 := by
  simp [Dev.cfgCode, Dev.flag, hboot, hbusy, hop, hs, htrans, hpend, hno]

theorem Dev.servesNow_off {d : Dev} {c : Nat} (h : d.cordSt c = 0 ∨ d.cordSt c = 5) : d.servesNow c = none := by
  have hoff : d.cordOn c = false := by
    rcases h with h | h <;> simp [Dev.cordOn, h]
  simp [Dev.servesNow, hoff]

theorem Dev.servesNow_other {d : Dev} {c : Nat} (h : 4 ≤ c) : d.servesNow c = none := by
  unfold Dev.servesNow
  exact if_neg (by omega)

/-- The checks of a command leave all but the ash log (R372, R424). -/
theorem State.cfgNote_moves (s : State) (l : List Access) : s.dev.Moves [.free, .ash, .waiting] (shown [] []) ((s.dev.setWaiting l).ashNote 3) :=
  ((Dev.Moves.refl _ _ s.dev).setWaiting l).ashNote 3

/-- What a command finds where its checks have changed nothing but the ash log. -/
structure Dev.CfgNoted (d e : Dev) : Prop where
  moves : d.Moves [.free, .ash, .waiting] (shown [] []) e
  get : ∀ f : Fld, e.get f = d.get f
  cordSt : ∀ c, e.cordSt c = d.cordSt c
  trans : e.pwr = d.pwr
  img : e.img = d.img

theorem Dev.CfgNoted.of_moves {d e : Dev} (h : d.Moves [.free, .ash, .waiting] (shown [] []) e) : d.CfgNoted e := by
  have hget : ∀ f : Fld, e.get f = d.get f := fun f => h.get (by simp [shown])
  exact ⟨h, hget, fun c => by simp only [Dev.cordSt, hget], h.parts .pwr (by decide), h.parts .img (by decide)⟩

/-- A RELOAD that no check refuses: what follows is the start of the reload (R373). -/
theorem State.reload_takes {s : State} {v : Word} {c : Nat} {P : State → Prop} (hs : s.dev.out = []) (ht : s.dev.Takes R.hrtCfgCmd (cfgWord v 2))
    (hboot : s.dev.get F.hrtCfgStatBootpend = 0) (hbusy : s.dev.get F.hrtCfgStatBusy = 0) (hno : s.dev.get F.hrtCfgStatNoimg = 0)
    (htrans : s.dev.pwr.trans = none) (hpend : s.dev.get F.hrtPwrStatePend = 3) (hc : c = F.hrtCfgCmdCord.of v)
    (hserves : ∀ e, s.dev.CfgNoted e → e.servesNow c = none)
    (h : ∀ (force : Bool) e t, s.dev.Moves [.free, .ash, .waiting] (shown [R.hrtCfgCmd] []) e →
      (((e.reloadStart s.fuses [c] false force).emit (.writeDone R.hrtCfgCmd 0)).setWaiting []).EndsAs t.dev →
      t.outputs.head? = some (.writeDone R.hrtCfgCmd 0) → P t) :
    ∃ t, s.hostWrite R.hrtCfgCmd (cfgWord v 2) = .next t ∧ P t := by
  subst hc
  have hop := cfgWord_op v (op := 2) (by decide)
  have hcord : F.hrtCfgCmdCord.of (cfgWord v 2) = F.hrtCfgCmdCord.of v := cfgWord_apart v 2 (by decide) (by decide)
  have hcode : ∀ l, ((s.dev.setWaiting l).ashNote 3).cfgCode (cfgWord v 2) none = 0 := fun l => by
    have hn := Dev.CfgNoted.of_moves (s.cfgNote_moves l)
    refine Dev.cfgCode_reload hop ?_ ?_ ?_ ?_ ?_ ?_
    · rw [hn.get, hboot]
    · rw [hn.get, hbusy]
    · rw [hn.get, hno]
    · rw [hn.trans, htrans]
    · rw [hn.get, hpend]
    · rw [hcord]
      exact hserves _ hn
  have htry : ∀ l, (s.dev.setWaiting l).cfgTry s.fuses (cfgWord v 2) = ((s.dev.setWaiting l).ashNote 3, 0, none) := fun l => by
    rw [Dev.cfgTry_plain _ _ (by rw [hop]; decide), hcode l, if_pos rfl]
  refine State.cfgCmd_takes hs ht (fun l => by rw [htry]) fun l w t hends hout => ?_
  rw [htry, Dev.cfgGo_reload _ _ hop, hcord] at hends
  exact h _ _ t (((s.cfgNote_moves l).mono (by decide) (shown_mono (by simp) (by simp))).setReg _ _ (.inl (by simp))) hends hout

/-! ### A drain that ends (R374, R388) -/

theorem Dev.cordInfo_congr {d e : Dev} (h : e.pwr = d.pwr) (c : Nat) : e.cordInfo c = d.cordInfo c := by rw [Dev.cordInfo, h, Dev.cordInfo]

theorem Dev.powerGo_idle {d : Dev} (h : d.pwr.trans = none) : d.powerGo = d := by
  simp [Dev.powerGo, Dev.transStep, h]

theorem Dev.cordCmdDue_idle {d : Dev} {c : Nat} (h : (d.cordInfo c).cmd = none) : d.cordCmdDue c = d := by
  simp [Dev.cordCmdDue, h]

theorem Dev.reg_dropCord (d : Dev) {c a : Nat} (ha : inCord c a = true) : (d.dropCord c).reg a = regReset a := by
  simp only [inCord, decide_eq_true_eq] at ha
  exact (d.reg_dropRegs _ _ a).trans (if_pos (by omega))

theorem Dev.wipePkt_reset (d : Dev) {a : Nat} (ha : inCord 8 a = true) : d.wipePkt.reg a = regReset a := by
  unfold Dev.wipePkt
  extract_lets d1 x
  have hdrop : x.reg a = regReset a := Dev.reg_dropCord _ ha
  clear_value x
  exact hdrop

theorem Dev.wipeHs_reset (d : Dev) {c a : Nat} (ha : inCord c a = true) : (d.wipeHs c).reg a = regReset a := by
  unfold Dev.wipeHs
  extract_lets lo d1
  have hd1 : d1.reg a = regReset a := by
    unfold d1
    exact (d.each (List.range 48) fun d i => (d.macDown (lo + i) false).fiLost (lo + i)).reg_dropCord ha
  clear_value d1
  exact hd1

/-- The registers of PKT, BUF and the HS cords are lost with their cord (R12, R388). -/
theorem Dev.wipe_reset (d : Dev) {c a : Nat} (h8 : 8 ≤ c) (h11 : c ≤ 11) (ha : inCord c a = true) : (d.wipe c).reg a = regReset a := by
  have hrange : 8 * 2 ^ 24 ≤ a := by
    simp only [inCord, decide_eq_true_eq] at ha
    omega
  have hshown : ∀ e : Dev, e.discipline.txRefresh.reg a = e.reg a := fun e => by
    rw [e.discipline.txRefresh_only a (fun hm => by have := txRegs_range hm; omega) (by simp),
      e.discipline_shows.1 a (by simp only [R.hrtClkStat, List.mem_singleton]; omega) (by simp)]
  have howns : ∀ (b : Bool) (x : Dev) (l : List Nat), (if b then { x with reclaim := l } else x).reg a = x.reg a := fun b x l => by cases b <;> rfl
  unfold Dev.wipe
  refine (hshown _).trans ((howns _ _ _).trans ?_)
  rw [if_neg (show ¬(c = 1 ∨ c = 2 ∨ c = 3) by omega), if_neg (show ¬(c = 4 ∨ c = 5) by omega), if_neg (show ¬(c = 6 ∨ c = 7) by omega)]
  by_cases hpkt : c = 8
  · rw [if_pos hpkt]
    exact d.wipePkt_reset (hpkt ▸ ha)
  rw [if_neg hpkt]
  by_cases hbuf : c = 9
  · rw [if_pos hbuf]
    exact d.reg_dropCord (hbuf ▸ ha)
  rw [if_neg hbuf, if_pos (show c = 10 ∨ c = 11 by omega)]
  exact d.wipeHs_reset ha

/-- What the loss of a cord's power leaves (R388). -/
structure Dev.PoweredOff (d : Dev) (c : Nat) (e : Dev) : Prop where
  cordSt : e.cordSt c = 0
  woke : e.get (F.hrtPwrCordWoke c) = 0
  pwr : e.pwr = d.pwr
  waiting : e.waiting = d.waiting
  img : e.img = d.img
  spares : d.Spares [R.hrtClkStat, R.hrtPwrCord c] [] e
  lost : 8 ≤ c → c ≤ 11 → ∀ a, inCord c a = true → e.reg a = regReset a

theorem Dev.cordOff_shows (d : Dev) {c : Nat} (hc : 1 ≤ c) (hc' : c < 0x100) : d.PoweredOff c (d.cordOff c) := by
  have hgoes := d.wipe_goes c
  have hspares := d.wipe_spares c
  have hreset := fun h8 h11 a => d.wipe_reset (c := c) (a := a) h8 h11
  have hlow := R.hrtPwrCord_lt hc'
  unfold Dev.cordOff
  generalize d.wipe c = e at *
  have hst : (e.setSt c 0).cordSt c = 0 := Dev.cordSt_setSt _ hc (by decide)
  have hkeep : ∀ a, inCord c a = true → ((e.setSt c 0).set (F.hrtPwrCordWoke c) 0).reg a = e.reg a := fun a ha => by
    have hne : a ≠ R.hrtPwrCord c := by
      simp only [inCord, decide_eq_true_eq] at ha
      omega
    rw [Dev.reg_set_ne _ _ (by simpa [F.hrtPwrCordWoke] using hne)]
    exact Dev.reg_set_ne _ _ (by simpa [F.hrtPwrCordSt] using hne)
  refine ⟨?_, Dev.get_set_lt _ _ (by simp [Fld.fits, F.hrtPwrCordWoke]) (by simp), hgoes.parts .pwr (by decide), hgoes.parts .waiting (by decide),
    hgoes.parts .img (by decide), ?_, fun h8 h11 a ha => (hkeep a ha).trans (hreset h8 h11 a ha)⟩
  · rw [Dev.cordSt_of_get hc] at hst ⊢
    rw [Dev.get_set_apart _ _ _ _ (by simp [Fld.fits, F.hrtPwrCordSt]) (by simp [F.hrtPwrCordWoke, F.hrtPwrCordSt, Fld.apart]), hst]
  · exact ((Dev.Spares.within hspares (by simp)).set _ _ (.inr (by simp [F.hrtPwrCordSt]))).set _ _ (.inr (by simp [F.hrtPwrCordWoke]))

/-- A drain that ends outside a reload, with no transition (R393, R398). -/
theorem Dev.drained_off {d : Dev} {c : Nat} (hc : 1 ≤ c) (hc' : c < 0x100) (hst : d.cordSt c = 6) (hwhy : (d.cordInfo c).why ≠ .reload) (hcmd : (d.cordInfo c).cmd = none)
    (htrans : d.pwr.trans = none) : (d.drained c).cordCmdDue c = d.cordOff c := by
  have hoff := d.cordOff_shows hc hc'
  have hdrained : d.drained c = d.cordOff c := by
    unfold Dev.drained
    rw [if_neg (by simp [hst]; omega)]
    split
    · exact absurd ‹_› hwhy
    · exact Dev.powerGo_idle (hoff.pwr ▸ htrans)
  rw [hdrained]
  refine Dev.cordCmdDue_idle ?_
  rw [Dev.cordInfo, hoff.pwr]
  exact hcmd

theorem Dev.cfgStep_moves (d : Dev) (c n : Nat) : d.Moves [] (shown [R.hrtCfgStat] []) (d.cfgStep c n) :=
  ((Dev.Moves.refl _ _ d).set F.hrtCfgStatCord _ (.inl (by decide))).set F.hrtCfgStatStep _ (.inl (by decide))

theorem Dev.cfgStep_cordSt (d : Dev) (c n : Nat) {k : Nat} (hk : k < 0x100) : (d.cfgStep c n).cordSt k = d.cordSt k :=
  (d.cfgStep_moves c n).cordSt hk (by simp only [List.mem_singleton, R.hrtPwrCord, R.hrtCfgStat]; omega) (by simp)

theorem Dev.cfgStep_cordInfo (d : Dev) (c n : Nat) (k : Nat) : (d.cfgStep c n).cordInfo k = d.cordInfo k := by
  rw [Dev.cordInfo, (d.cfgStep_moves c n).parts .pwr (by decide)]
  rfl

theorem Dev.cordWake_cordInfo (d : Dev) (c : Nat) (why : Why) : (d.cordWake c why).cordInfo c = { d.cordInfo c with why := why, tripped := false } := by
  rw [Dev.cordWake, Dev.cordInfo_setCordInfo_self]
  rfl

/-- A drain for a reload that ends: the cord is wiped, takes its new section and wakes (R374). -/
theorem Dev.drained_reload {d : Dev} {c : Nat} (hc : 1 ≤ c) (hc' : c < 0x100) (hst : d.cordSt c = 6) (hwhy : (d.cordInfo c).why = .reload) (hcmd : (d.cordInfo c).cmd = none) :
    let e := (d.drained c).cordCmdDue c
    e.cordSt c = 1 ∧ e.sec c = Tbl.get {} d.img.slot c ∧ e.get F.hrtCfgStatStep = 2 ∧ e.waiting = d.waiting := by
  intro e
  have hgoes := d.wipe_goes c
  have hdrained : d.drained c = (((d.wipe c).takeSlot c).cordWake c .reload).cfgStep c 2 := by
    unfold Dev.drained
    rw [if_neg (by simp [hst]; omega)]
    simp only [hwhy]
  have himg : (d.wipe c).img = d.img := hgoes.parts .img (by decide)
  have hinfo : (d.wipe c).cordInfo c = d.cordInfo c := by
    rw [Dev.cordInfo, show (d.wipe c).pwr = d.pwr from hgoes.parts .pwr (by decide)]
    rfl
  have hwait : (d.wipe c).waiting = d.waiting := hgoes.parts .waiting (by decide)
  subst e
  rw [hdrained]
  generalize d.wipe c = w at *
  have hsec : ((w.takeSlot c).cordWake c .reload).sec c = Tbl.get {} d.img.slot c := by
    rw [← himg]
    exact Tbl.get_set_self _ _ _ _
  have hcord : ((w.takeSlot c).cordWake c .reload).cordSt c = 1 := Dev.cordSt_cordWake _ hc _
  have hnone : (((w.takeSlot c).cordWake c .reload).cordInfo c).cmd = none := by
    rw [Dev.cordWake_cordInfo]
    exact (congrArg CordSt.cmd hinfo).trans hcmd
  have hw : ((w.takeSlot c).cordWake c .reload).waiting = d.waiting := hwait
  generalize (w.takeSlot c).cordWake c .reload = x at *
  have hmoves := x.cfgStep_moves c 2
  rw [Dev.cordCmdDue_idle (by rw [Dev.cfgStep_cordInfo, hnone])]
  refine ⟨(x.cfgStep_cordSt _ _ hc').trans hcord, ?_, Dev.get_set_on _ F.hrtCfgStatStep 2 (by decide), (hmoves.parts .waiting (by decide)).trans hw⟩
  rw [Dev.sec, show (x.cfgStep c 2).img = x.img from hmoves.parts .img (by decide)]
  exact hsec

theorem Dev.startDrain_spares (d : Dev) (c : Nat) (why : Why) : d.Spares [R.hrtPwrCord c] [] (d.startDrain c why) := by
  unfold Dev.startDrain
  exact (((Dev.Spares.within (d.withdraw_spares c) (by simp)).set _ _ (.inr (by simp [F.hrtPwrCordSt]))).setCordInfo _ _).thn (Dev.txRefresh_spares _) (by simp)

theorem Dev.startDrain_img (d : Dev) (c : Nat) (why : Why) : (d.startDrain c why).img = d.img := (d.startDrain_goes c why).parts .img (by decide)

/-- A reload whose cord, neither an engine's nor HRT, PKT or BUF, is in service: the record, and the drain (R374). -/
theorem Dev.reloadBegin_drains {d : Dev} {r : Reload} (h4 : 4 ≤ r.cord) (hst : d.cordSt r.cord = 3) :
    d.reloadBegin r = (((d.setReload (some r)).startDrain r.cord .reload).cfgStep r.cord 1, false) := by
  unfold Dev.reloadBegin
  simp [Dev.servesNow_other h4, hst]

theorem Dev.reloadNext_drains {d : Dev} {c : Nat} (h4 : 4 ≤ c) (hc' : c < 16) (h8 : c ≠ 8) (h9 : c ≠ 9) (hst : d.cordSt c = 3) (fz : Fuses) (r : Reload) (t : List Nat) :
    Dev.reloadNext fz r (c :: t) d
      = (((d.reloadMark r c t).setReload (some { cord := c, rest := t, activate := r.activate, force := r.force, old := d.sec c, res := r.res })).startDrain c
        .reload).cfgStep c 1 := by
  have hmark : (d.reloadMark r c t).cordSt c = 3 := (d.reloadMark_cordSt r c t (by omega)).trans hst
  have hbegin := Dev.reloadBegin_drains (d := d.reloadMark r c t)
    (r := { cord := c, rest := t, activate := r.activate, force := r.force, old := d.sec c, res := r.res }) h4 hmark
  rw [Dev.reloadNext]
  unfold Dev.reloadMark at hmark hbegin ⊢
  simp only [hmark, hbegin, h8, h9, show c ≠ 0 by omega, false_and, and_false, if_false, Nat.reduceEqDiff, ne_eq, not_false_eq_true, Bool.false_eq_true, or_self]

/-- A reload of a cord that must drain first: BUSY, the record of the reload, and the drain (R374). -/
theorem Dev.reloadStart_drains {d : Dev} {c : Nat} (h4 : 4 ≤ c) (hc' : c < 16) (h8 : c ≠ 8) (h9 : c ≠ 9) (hst : d.cordSt c = 3) (fz : Fuses) (force : Bool) :
    let e := d.reloadStart fz [c] false force
    e.cordSt c = 6 ∧ (e.cordInfo c).why = .reload ∧ e.img.reload.map (·.cord) = some c ∧ e.get F.hrtCfgStatBusy = 1 ∧ e.get F.hrtCfgStatCord = c
      ∧ e.get F.hrtCfgStatStep = 1 ∧ d.Raised 0x0B e := by
  intro e
  have hlow := R.hrtPwrCord_lt (c := c) (by omega)
  have hm := d.cfgBegin_moves
  have hbusy : ((d.set F.hrtCfgStatBusy 1).set F.hrtCfgStatResult 0).get F.hrtCfgStatBusy = 1 := by
    rw [Dev.get_set_off _ _ _ _ (by decide), Dev.get_set_on _ _ _ (by decide)]
    rfl
  subst e
  unfold Dev.reloadStart
  dsimp only
  generalize (d.set F.hrtCfgStatBusy 1).set F.hrtCfgStatResult 0 = a at *
  have hsa : a.cordSt c = 3 := (hm.cordSt (by omega) (by simp only [List.mem_singleton, R.hrtPwrCord, R.hrtCfgStat]; omega) (by simp)).trans hst
  rw [Dev.reloadNext_drains h4 hc' h8 h9 hsa]
  obtain ⟨-, kr, -, kb⟩ := a.reloadMark_shows { cord := 15, rest := [], activate := false, force := force, old := {} } c []
  generalize a.reloadMark { cord := 15, rest := [], activate := false, force := force, old := {} } c [] = b at *
  dsimp only
  have hreload : (b.setReload (some { cord := c, rest := [], activate := false, force := force, old := a.sec c })).img.reload.map (·.cord) = some c := rfl
  have hbb : (b.setReload (some { cord := c, rest := [], activate := false, force := force, old := a.sec c })).get F.hrtCfgStatBusy = 1 := kb.trans hbusy
  have hraised : a.Raised 0x0B (b.setReload (some { cord := c, rest := [], activate := false, force := force, old := a.sec c })) := kr
  generalize b.setReload (some { cord := c, rest := [], activate := false, force := force, old := a.sec c }) = x at *
  obtain ⟨hdrain, hwhy⟩ := x.startDrain_shows (c := c) (by omega) (by omega) .reload
  have himg := x.startDrain_img c .reload
  have hsp := x.startDrain_spares c .reload
  generalize x.startDrain c .reload = y at *
  have hstep := y.cfgStep_moves c 1
  refine ⟨(y.cfgStep_cordSt _ _ (by omega)).trans hdrain, ?_, ?_, ?_, ?_, Dev.get_set_on _ F.hrtCfgStatStep 1 (by decide), ?_⟩
  · rw [Dev.cfgStep_cordInfo]
    exact hwhy
  · rw [show (y.cfgStep c 1).img = x.img from (hstep.parts .img (by decide)).trans himg]
    exact hreload
  · simp -implicitDefEqProofs (disch := decide) only [Dev.cfgStep, Dev.get_set_off]
    exact (hsp.get (by decide) (by simp only [List.mem_singleton, F.hrtCfgStatBusy, R.hrtPwrCord, R.hrtCfgStat]; omega)).trans hbb
  · simp -implicitDefEqProofs (disch := decide) only [Dev.cfgStep, Dev.get_set_off, Dev.get_set_on]
    exact Nat.mod_eq_of_lt hc'
  · refine hraised.of_ctl (hm.only _ (by decide) (by simp)).symm ((hstep.only _ (by decide) (by simp)).trans (hsp.ctl (by decide) (fun k hk => ?_)))
    rw [List.mem_singleton.1 hk]
    omega

/-! ### Runs over the slices of PKT (R225, R379, R380) -/

/-- Entries of the spread map set one after another. -/
theorem Dev.spreadSet_shows (v : Nat → Nat) (hv : ∀ k, v k < 32) (l : List (Nat × Nat)) (d : Dev) :
    let e := d.each l fun d x => d.set (F.pktSprMapSlice x.1) (v x.2)
    (∀ i ∈ l.map Prod.fst, ∃ k, e.get (F.pktSprMapSlice i) = v k) ∧ (∀ i, i ∉ l.map Prod.fst → e.get (F.pktSprMapSlice i) = d.get (F.pktSprMapSlice i))
      ∧ d.Moves [] (0x8000000 ≤ ·) e := by
  induction l generalizing d with
  | nil => exact ⟨by simp, fun _ _ => rfl, Dev.Moves.refl _ _ d⟩
  | cons x t ih =>
    obtain ⟨hin, hout, hm⟩ := ih (d.set (F.pktSprMapSlice x.1) (v x.2))
    have hne : ∀ i, i ≠ x.1 → (F.pktSprMapSlice i).addr ≠ (F.pktSprMapSlice x.1).addr := fun i h => by simp only [F.pktSprMapSlice, R.pktSprMap]; omega
    refine ⟨fun i hi => ?_, fun i hi => ?_, ((Dev.Moves.refl _ _ d).set _ _ (by simp only [F.pktSprMapSlice, R.pktSprMap]; omega)).trans hm⟩
    · by_cases ht : i ∈ t.map Prod.fst
      · exact hin i ht
      · obtain rfl : i = x.1 := by simpa [ht] using hi
        exact ⟨x.2, (hout _ ht).trans (Dev.get_set_lt _ _ (by simp [Fld.fits, F.pktSprMapSlice]) (hv _))⟩
    · simp only [List.map_cons, List.mem_cons, not_or] at hi
      exact (hout i hi.2).trans (Dev.get_set_ne _ _ (hne i hi.1))

theorem Dev.nextPair_regs (r : PktRun) (l : List Nat) (d : Dev) : (Dev.nextPair r l d).1.regs = d.regs := by
  induction l generalizing d with
  | nil =>
    unfold Dev.nextPair
    split <;> rfl
  | cons p t ih =>
    unfold Dev.nextPair
    extract_lets es
    split
    · exact ih d
    · rfl

/-- The end of a run outside a reload and a transition. -/
theorem Dev.runOver_idle {d : Dev} (hr : d.img.reload = none) (ht : d.pwr.trans = none) (fz : Fuses) (b : Bool) : d.runOver fz b = d := by
  simp [Dev.runOver, hr, Dev.powerGo_idle ht]

/-- What follows a step of a run outside a reload and a transition: the registers stand. -/
theorem Dev.runGoes_shows {d e : Dev} {b : Bool} (hgoes : d.Goes [.pkt] e) (hr : d.img.reload = none) (ht : d.pwr.trans = none) (fz : Fuses) (f : Bool) :
    (if b then e.runOver fz f else e) = e := by
  have hi : e.img.reload = none := (congrArg ImgSt.reload (hgoes.parts .img (by decide))).trans hr
  have hp : e.pwr.trans = none := (congrArg PwrSt.trans (hgoes.parts .pwr (by decide))).trans ht
  cases b
  · rfl
  · exact Dev.runOver_idle hi hp fz f

/-- The slices the entries of a pair go to. -/
def Dev.moveTargets (d : Dev) (r : PktRun) (p : Nat) : List Nat := if r.shrink then List.range 6 else (List.range d.sliceCount).filter fun n => n / 2 != p

theorem Dev.moveTargets_lt (d : Dev) (r : PktRun) (p k : Nat) : (d.moveTargets r p).getD k 0 < 32 := by
  rcases Nat.lt_or_ge k (d.moveTargets r p).length with h | h
  · rw [List.getD_eq_getElem _ _ h]
    have hmem := List.getElem_mem h
    generalize (d.moveTargets r p)[k] = n at *
    unfold Dev.moveTargets at hmem
    split at hmem
    · rw [List.mem_range] at hmem
      omega
    · rw [List.mem_filter, List.mem_range, Dev.sliceCount] at hmem
      have := hmem.1
      split at this <;> omega
  · rw [List.getD_eq_default _ _ h]
    decide

theorem Dev.moveTargets_shrink {d : Dev} {r : PktRun} {p : Nat} (h : r.shrink = true) (k : Nat) :
    (d.moveTargets r p).getD (k % (d.moveTargets r p).length) 0 < 6 := by
  have hlen : k % (d.moveTargets r p).length < (d.moveTargets r p).length := Nat.mod_lt _ (by simp [Dev.moveTargets, h])
  rw [List.getD_eq_getElem _ _ hlen]
  have hmem := List.getElem_mem hlen
  generalize (d.moveTargets r p)[k % (d.moveTargets r p).length] = n at *
  simpa [Dev.moveTargets, h] using hmem

theorem Dev.moveTargets_other {d : Dev} {r : PktRun} {p : Nat} (h : r.shrink = false) (hcur : d.get F.hrtPwrStateCur ≠ 1) (k : Nat) :
    let n := (d.moveTargets r p).getD (k % (d.moveTargets r p).length) 0
    n < 24 ∧ n / 2 ≠ p := by
  have hpos : 0 < (d.moveTargets r p).length := by
    refine List.length_pos_of_mem (a := if p = 0 then 2 else 0) ?_
    simp only [Dev.moveTargets, h, Bool.false_eq_true, if_false, Dev.sliceCount, hcur, List.mem_filter, List.mem_range, bne_iff_ne]
    split <;> omega
  have hlen : k % (d.moveTargets r p).length < (d.moveTargets r p).length := Nat.mod_lt _ hpos
  intro n
  have hmem : n ∈ d.moveTargets r p := by
    unfold n
    rw [List.getD_eq_getElem _ _ hlen]
    exact List.getElem_mem hlen
  simpa [Dev.moveTargets, h, Dev.sliceCount, hcur] using hmem

/-- The entries of the pair in hand as they move. -/
theorem Dev.movePair_eq (d : Dev) (r : PktRun) (p : Nat) :
    d.movePair r p =
      let d1 := d.each r.held.zipIdx fun e x => e.set (F.pktSprMapSlice x.1) ((d.moveTargets r p).getD (x.2 % (d.moveTargets r p).length) 0)
      if r.shrink then Dev.nextPair r r.pairs d1
      else (d1.setPkt fun x => { x with run := some { r with held := [], moved := r.held.map fun i => (i, Tbl.get 0 r.newMap i) } }, false) := by
  unfold Dev.movePair
  rfl

/-- The pair in hand is empty (R379, R380): where its entries go, and what stands. -/
theorem Dev.movePair_shows (d : Dev) (r : PktRun) (p : Nat) :
    let e := (d.movePair r p).1
    (r.shrink = true → ∀ i ∈ r.held, e.get (F.pktSprMapSlice i) < 6)
      ∧ (r.shrink = false → d.get F.hrtPwrStateCur ≠ 1 →
        (∀ i ∈ r.held, e.get (F.pktSprMapSlice i) < 24 ∧ e.get (F.pktSprMapSlice i) / 2 ≠ p)
          ∧ e.pkt.run = some { r with held := [], moved := r.held.map fun i => (i, Tbl.get 0 r.newMap i) })
      ∧ (∀ i, i ∉ r.held → e.get (F.pktSprMapSlice i) = d.get (F.pktSprMapSlice i)) := by
  intro e
  obtain ⟨hin, hout, -⟩ := Dev.spreadSet_shows (fun k => (d.moveTargets r p).getD (k % (d.moveTargets r p).length) 0) (fun _ => d.moveTargets_lt r p _)
    r.held.zipIdx d
  have hfst : r.held.zipIdx.map Prod.fst = r.held := List.zipIdx_map_fst _ _
  rw [hfst] at hin hout
  have heq := d.movePair_eq r p
  extract_lets d1 at heq
  have hget : ∀ i, e.get (F.pktSprMapSlice i) = d1.get (F.pktSprMapSlice i) := fun i => by
    unfold e
    rw [heq]
    cases r.shrink
    · rfl
    · exact Dev.get_congr (Dev.nextPair_regs _ _ _) _
  simp only [hget]
  refine ⟨fun hs i hi => ?_, fun hs hcur => ⟨fun i hi => ?_, ?_⟩, fun i hi => hout i hi⟩
  · obtain ⟨k, hk⟩ := hin i hi
    rw [hk]
    exact Dev.moveTargets_shrink hs k
  · obtain ⟨k, hk⟩ := hin i hi
    rw [hk]
    exact Dev.moveTargets_other hs hcur k
  · unfold e
    rw [heq, hs]
    rfl

theorem Dev.returnEntry_shows (d : Dev) (r : PktRun) {i n : Nat} {rest : List (Nat × Nat)} (hmoved : r.moved = (i, n) :: rest) (hrest : ∀ x ∈ rest, x.1 ≠ i)
    (hn : n < 24) :
    let e := (d.returnEntry r i n).1
    e.get (F.pktSprMapSlice i) = n ∧ (rest ≠ [] → e.pkt.run = some { r with moved := rest }) := by
  have hfilter : (r.moved.filter fun x => x.1 != i) = rest := by
    rw [hmoved, List.filter_cons_of_neg (by simp)]
    exact List.filter_eq_self.2 fun x hx => by simpa using hrest x hx
  have hset : (d.set (F.pktSprMapSlice i) n).get (F.pktSprMapSlice i) = n :=
    Dev.get_set_lt _ _ (by simp [Fld.fits, F.pktSprMapSlice]) (by simp only [F.pktSprMapSlice]; omega)
  unfold Dev.returnEntry
  simp only [hfilter]
  cases rest with
  | nil => exact ⟨(Dev.get_congr (Dev.nextPair_regs _ _ _) _).trans hset, fun h => absurd rfl h⟩
  | cons x t => exact ⟨hset, fun _ => rfl⟩

/-- What a RELOAD writes before its reload starts touches no register but the command's (R372). -/
theorem Dev.cfgReady {s : State} {e : Dev} (h : s.dev.Moves [.free, .ash, .waiting] (shown [R.hrtCfgCmd] []) e) :
    (∀ c, c < 0x100 → e.cordSt c = s.dev.cordSt c) ∧ e.get F.hrtPwrStatePend = s.dev.get F.hrtPwrStatePend ∧ e.img = s.dev.img
      ∧ e.reg (R.hrtEvtSrcCtl 0x0B) = s.dev.reg (R.hrtEvtSrcCtl 0x0B) ∧ e.reg (R.hrtEvtSrcCtl 0x0C) = s.dev.reg (R.hrtEvtSrcCtl 0x0C) := by
  refine ⟨fun c hc => h.cordSt hc ?_ (by simp), h.get (not_shown (by decide) (.inl (by decide)) (by simp)), h.parts .img (by decide),
    h.only _ (by decide) (by simp), h.only _ (by decide) (by simp)⟩
  simp only [List.mem_singleton, R.hrtPwrCord, R.hrtCfgCmd]
  omega

/-- A command that R373 refuses without a look at a slot: RESULT, its event and the error code. -/
theorem State.cfgCmd_shut {s : State} {v : Word} {op code : Nat} (hs : s.dev.out = []) (ht : s.dev.Takes R.hrtCfgCmd (cfgWord v op)) (hop : op < 4) (hop1 : op ≠ 1)
    (hc0 : code ≠ 0) (hc : code < 256) (hcode : ∀ e, s.dev.CfgNoted e → e.cfgCode (cfgWord v op) none = code) :
    ∃ t, s.hostWrite R.hrtCfgCmd (cfgWord v op) = .next t ∧ t.outputs.head? = some (.writeDone R.hrtCfgCmd 10) ∧ t.dev.get F.hrtCfgStatResult = code
      ∧ s.dev.Raised 0x0E t.dev ∧ t.dev.img = s.dev.img ∧ s.dev.Only [R.hrtCfgStat, R.hrtGlbAerr] [0x0E, 0x01] t.dev := by
  have htry : ∀ l, (s.dev.setWaiting l).cfgTry s.fuses (cfgWord v op) = (((s.dev.setWaiting l).ashNote 3).cfgRefuse code, code, none) := fun l => by
    rw [Dev.cfgTry_plain _ _ (by rwa [cfgWord_op v hop]), hcode _ (.of_moves (s.cfgNote_moves l)), if_neg hc0]
  refine State.cfgCmd_refused hs ht (fun l => by rw [htry]; exact hc0) fun l t hends hout => ⟨hout, ?_⟩
  rw [htry] at hends
  have hn := s.cfgNote_moves l
  obtain ⟨hres, hraised, hr⟩ := ((s.dev.setWaiting l).ashNote 3).cfgRefuse_shows hc
  dsimp only at hends
  generalize (s.dev.setWaiting l).ashNote 3 = a at *
  generalize a.cfgRefuse code = b at *
  have he : b.Moves (.aerrAdr :: Dev.Moves.evtParts) (shown [R.hrtGlbAerr] [0x01]) (b.accessError 10 R.hrtCfgCmd true) :=
    (Dev.Moves.refl _ _ b).accessError 10 R.hrtCfgCmd true (.inl (by decide)) fun _ h => .inr ⟨0x01, by decide, h⟩
  generalize b.accessError 10 R.hrtCfgCmd true = x at *
  have hall : s.dev.Moves Part.all (shown [R.hrtCfgStat, R.hrtGlbAerr] [0x0E, 0x01]) x :=
    ((hn.mono (by decide) (shown_mono (by simp) (by simp))).trans (hr.mono (by decide) (shown_mono (by simp) (by simp)))).trans
      (he.mono (by decide) (shown_mono (by simp) (by simp)))
  refine ⟨(hends.get _).trans ((he.get (not_shown (by decide) (.inl (by decide)) (by decide))).trans hres),
    hends.raised.2 (hraised.of_ctl (hn.only _ (by decide) (by simp)).symm (he.only _ (by decide) (by decide))), ?_, hends.only.2 hall.only⟩
  rw [hends.same.img]
  exact (he.parts .img (by decide)).trans ((hr.parts .img (by decide)).trans (hn.parts .img (by decide)))

/-- Settles O45: a cord off or Held is reloaded at once, another one drains, is wiped and wakes again, and slices give up and take back their entries. -/
theorem cordsAreReloaded : Obligations.CordsAreReloaded := by
  refine ⟨?_, ?_, ?_, ?_, ?_, ?_, ?_, ?_⟩
  · intro v c
    refine State.of_sent ?_ fun s h => by simp -implicitDefEqProofs only [Dev.takes_setOut] at h; exact h
    intro s hs ht hboot hbusy hno htrans hpend hc hc0 hst
    have hc' : c < 16 := hc ▸ hrtCfgCmdCord_lt v
    refine State.reload_takes hs ht hboot hbusy hno htrans hpend hc (fun e he => Dev.servesNow_off (by rwa [he.cordSt])) fun force e t hm hends hout => ⟨hout, ?_⟩
    obtain ⟨hcord, hp, himg, h0B, h0C⟩ := Dev.cfgReady hm
    obtain ⟨hsec, hseq, hbegin, hend, hbusy', hres, km⟩ := Dev.reloadStart_off hc0 hc' (by rwa [hcord c (by omega)]) (hp.trans hpend) s.fuses force
    have hall : s.dev.Moves Part.all (shown [R.hrtCfgCmd, R.hrtCfgStat, R.hrtCfgCseq c] [0x0B, 0x0C]) (e.reloadStart s.fuses [c] false force) :=
      (hm.mono (by decide) (shown_mono (by simp) (by simp))).trans (km.mono (by decide) (shown_mono (fun _ h => List.mem_cons_of_mem R.hrtCfgCmd h) fun _ h => h))
    generalize e.reloadStart s.fuses [c] false force = x at *
    refine ⟨?_, (hends.get _).trans (himg ▸ hseq), hends.raised.2 (hbegin.of_ctl h0B.symm rfl), hends.raised.2 (hend.of_ctl h0C.symm rfl), (hends.get _).trans hbusy',
      (hends.get _).trans hres, hends.only.2 hall.only⟩
    rw [Dev.sec, hends.same.img, ← himg]
    exact hsec
  · intro v c
    refine State.of_sent ?_ fun s h => by simp -implicitDefEqProofs only [Dev.takes_setOut] at h; exact h
    intro s hs ht hboot hbusy hno htrans hpend hc h4 h8 h9 hst
    have hc' : c < 16 := hc ▸ hrtCfgCmdCord_lt v
    refine State.reload_takes hs ht hboot hbusy hno htrans hpend hc (fun e _ => Dev.servesNow_other h4) fun force e t hm hends hout => ⟨hout, ?_⟩
    obtain ⟨hcord, -, -, h0B, -⟩ := Dev.cfgReady hm
    obtain ⟨hdrain, hwhy, hreload, hbusy', hcordf, hstep, hbegin⟩ := Dev.reloadStart_drains h4 hc' h8 h9 ((hcord c (by omega)).trans hst) s.fuses force
    generalize e.reloadStart s.fuses [c] false force = x at *
    refine ⟨(hends.cordSt _).trans hdrain, ?_, ?_, (hends.get _).trans hbusy', (hends.get _).trans hcordf, (hends.get _).trans hstep, hends.raised.2 (hbegin.of_ctl h0B.symm rfl)⟩
    · rw [Dev.cordInfo, hends.same.pwr]
      exact hwhy
    · rw [hends.same.img]
      exact hreload
  · intro v
    refine State.of_sent ?_ fun s h => by simp -implicitDefEqProofs only [Dev.takes_setOut] at h; exact h
    intro s hs ht hboot hbusy
    refine State.cfgCmd_shut hs ht (by decide) (by decide) (by decide) (by decide) fun e he => ?_
    simp [Dev.cfgCode, Dev.flag, he.get, hboot, hbusy]
  · intro c
    refine State.of_sent ?_ fun _ h => h
    intro s hs ⟨hwait, _, htrans⟩ hc hst hwhy hcmd
    simp only [exec, execDrainComplete]
    have hoff := Dev.drained_off hc (by omega) hst hwhy hcmd htrans
    have hshows := s.dev.cordOff_shows hc (by omega)
    refine State.runServe_ends hs (by rw [hoff, hshows.waiting, hwait]) fun t ht _ _ => ?_
    rw [hoff] at ht
    refine ⟨(ht.cordSt _).trans hshows.cordSt, (ht.get _).trans hshows.woke, fun h8 h11 a ha => (ht.reg _).trans (hshows.lost h8 h11 a ha)⟩
  · intro c
    refine State.of_sent ?_ fun _ h => h
    intro s hs hwait hc hst hwhy hcmd
    simp only [exec, execDrainComplete]
    obtain ⟨hcord, hsec, hstep, hw⟩ := Dev.drained_reload hc (by omega) hst hwhy hcmd
    refine State.runServe_ends hs (hw.trans hwait) fun t ht _ _ => ⟨(ht.cordSt _).trans hcord, ?_, (ht.get _).trans hstep⟩
    rw [Dev.sec, ht.same.img]
    exact hsec
  · intro c units
    refine State.of_sent ?_ fun _ h => h
    intro s hs ⟨hwait, _, htrans⟩ hc hst hwhy hcmd
    simp only [exec, execDrainTimeout]
    have hlow := R.hrtPwrCord_lt (c := c) (by omega)
    have hmoves : s.dev.Moves [] (· = R.hrtCfgDrain) (s.dev.count F.hrtCfgDrainDraindrop units) := (Dev.Moves.refl _ _ _).count _ _ rfl
    have hself : (s.dev.count F.hrtCfgDrainDraindrop units).get F.hrtCfgDrainDraindrop = satAdd 16 (s.dev.get F.hrtCfgDrainDraindrop) units :=
      Dev.get_count_self _ _ _ (by simp [Fld.fits, F.hrtCfgDrainDraindrop])
    have hwhen : ∀ f : Dev → Dev, s.dev.when (c.val != 0 && s.dev.cordSt c == 6) f = f s.dev := fun f => by
      rw [show ((c.val != 0 && s.dev.cordSt c == 6)) = true by simp [hst]; omega, Dev.when_true]
    have hpwr : (s.dev.count F.hrtCfgDrainDraindrop units).pwr = s.dev.pwr := hmoves.parts .pwr (by decide)
    have hsa : (s.dev.count F.hrtCfgDrainDraindrop units).cordSt c = 6 := by
      refine Eq.trans ?_ hst
      simp only [Dev.cordSt]
      rw [hmoves.get (g := F.hrtPwrCordSt c) (by simp only [F.hrtPwrCordSt, R.hrtPwrCord, R.hrtCfgDrain]; omega)]
    have hia : (s.dev.count F.hrtCfgDrainDraindrop units).cordInfo c = s.dev.cordInfo c := Dev.cordInfo_congr hpwr c
    have hoff := Dev.drained_off hc (by omega) hsa (by rw [hia]; exact hwhy) (by rw [hia]; exact hcmd) (by rw [hpwr]; exact htrans)
    have hshows := (s.dev.count F.hrtCfgDrainDraindrop units).cordOff_shows hc (by omega)
    have hw : (s.dev.count F.hrtCfgDrainDraindrop units).waiting = [] := (hmoves.parts .waiting (by decide)).trans hwait
    refine State.runServe_ends hs (by rw [hwhen, hoff, hshows.waiting, hw]) fun t ht _ _ => ?_
    rw [hwhen, hoff] at ht
    refine ⟨(ht.cordSt _).trans hshows.cordSt, (ht.get _).trans ((hshows.spares.get (by decide) ?_).trans hself)⟩
    simp only [List.mem_cons, List.not_mem_nil, or_false, F.hrtCfgDrainDraindrop, R.hrtCfgDrain, R.hrtClkStat, R.hrtPwrCord]
    omega
  · intro r p
    refine State.of_sent ?_ fun _ h => h
    intro s hs ⟨hwait, hreload, htrans⟩ hrun hcur hp hheld hi he1 he2
    simp only [exec, execPktSlicePairEmpty]
    obtain ⟨hshrink, hspread, hstand⟩ := s.dev.movePair_shows r p
    have hgoes := s.dev.movePair_goes r p
    have hidle := Dev.runGoes_shows (b := (s.dev.movePair r p).2) hgoes hreload htrans s.fuses r.reload
    generalize hx : s.dev.movePair r p = x at *
    refine State.runServe_ends hs ?_ fun t ht _ _ => ?_
    · simp only [hrun, hcur, hx, hidle]
      simpa [hheld, he1, he2] using (hgoes.parts .waiting (by decide)).trans hwait
    · simp only [hrun, hcur, hx, hidle] at ht
      simp only [hheld, he1, he2, List.isEmpty_iff, Bool.not_true, Bool.or_false, if_false] at ht
      simp only [ht.get, ht.same.pkt]
      exact ⟨hshrink, hspread, fun i _ hi => hstand i hi⟩
  · intro i n r rest
    refine State.of_sent ?_ fun _ h => h
    intro s hs ⟨hwait, hreload, htrans⟩ hrun hmoved hrest hn hstore hdec
    simp only [exec, execSpreadEntryReturn]
    obtain ⟨hset, hnext⟩ := s.dev.returnEntry_shows r hmoved hrest hn
    have hgoes := s.dev.returnEntry_goes r i n
    have hidle := Dev.runGoes_shows (b := (s.dev.returnEntry r i n).2) hgoes hreload htrans s.fuses r.reload
    have hfind : r.moved.find? (fun x => x.1 == i.val) = some (i.val, n) := by rw [hmoved, List.find?_cons_of_pos (by simp)]
    have hgone : ((Tbl.get [] s.dev.pkt.stores (s.dev.get (F.pktSprMapSlice i))).any (fun p => p.hash % 256 == i.val)
        || s.dev.pkt.decided.any (fun x => x.pkt.hash % 256 == i.val)) = false := by
      rw [Bool.or_eq_false_iff, List.any_eq_false, List.any_eq_false]
      exact ⟨fun p hp => by simpa using hstore p hp, fun x hx => by simpa using hdec x hx⟩
    generalize hx : s.dev.returnEntry r i n = x at *
    refine State.runServe_ends hs ?_ fun t ht _ _ => ?_
    · simp only [hrun, hfind, hgone, Bool.false_eq_true, if_false, hx, hidle]
      exact (hgoes.parts .waiting (by decide)).trans hwait
    · simp only [hrun, hfind, hgone, Bool.false_eq_true, if_false, hx, hidle] at ht
      simp only [ht.get, ht.same.pkt]
      exact ⟨hset, hnext⟩

end Sys2Proof.Machine
end

section
/-!
PROOFS. Mailbox commands on registers (O49).
-/

namespace Sys2Proof.Machine

set_option Elab.async false

/-! ### Registers a mailbox command reads and writes (R412 to R416) -/

/-- The end of a command leaves the control register of every event but its own. -/
theorem Dev.mbxEnd_ctl (d : Dev) (q : MbxReq) {status : Nat} {data : List Byte} (hlen : data.length ≤ 248) {n : Nat} (hn : n ≠ 0x02) :
    (d.mbxEnd q status data).reg (R.hrtEvtSrcCtl n) = d.reg (R.hrtEvtSrcCtl n) := by
  have hreqs : d.Moves mbxParts (· ≠ R.hrtEvtSrcCtl n) (d.setHearth fun h => { h with reqs := h.reqs.drop 1 }) := (Dev.Moves.refl _ _ d).setHearth _
  suffices h : d.Moves mbxParts (· ≠ R.hrtEvtSrcCtl n) (d.mbxEnd q status data) from h.regs _ (by simp)
  unfold Dev.mbxEnd
  dsimp only
  split
  · exact hreqs.setHearth _
  · refine ((((hreqs.each _ _ fun y i hi => (Dev.Moves.refl _ _ y).setReg _ _ ?_).set F.hrtMbxCtlBusy _ ?_).set F.hrtMbxCtlStatus _ ?_).raise 0x02 _ fun a ha => ?_)
    · simp only [List.mem_range, List.length_append, leBytes_length] at hi
      simp only [R.hrtMbxRsp, R.hrtEvtSrcCtl]
      omega
    · simp only [F.hrtMbxCtlBusy, R.hrtMbxCtl, R.hrtEvtSrcCtl]
      omega
    · simp only [F.hrtMbxCtlStatus, R.hrtMbxCtl, R.hrtEvtSrcCtl]
      omega
    · simp only [evtRegs, R.hrtEvtSrcCtl, R.hrtEvtSrcFirstns, R.hrtEvtSrcFirstw, List.mem_cons, List.not_mem_nil, or_false] at ha ⊢
      omega

/-- A mailbox command served that ends after some work: the answer, and what it leaves. -/
theorem State.mailbox_works {s : State} {q : MbxReq} {mine : Nat → Bool} {f : Fuses → Dev → MbxReq → Dev} {d' : Dev} {status : Nat} {data : List Byte} {P : State → Prop}
    (hs : s.dev.out = []) (hq : s.dev.Asked q) (hm : mine q.opcode = true) (hf : f s.fuses s.dev q = d'.mbxEnd q status data) (hst : status < 256)
    (hlen : data.length ≤ 248) (hreqs : d'.hearth.reqs = s.dev.hearth.reqs) (hctl : d'.reg (R.hrtEvtSrcCtl 0x02) = s.dev.reg (R.hrtEvtSrcCtl 0x02))
    (hw : d'.waiting = s.dev.waiting)
    (h : ∀ t : State, s.dev.Answered q status data t.dev → (∀ a, (isMbx a || isEvt a) = false → t.dev.reg a = d'.reg a) →
      (∀ n, n ≠ 0x02 → t.dev.reg (R.hrtEvtSrcCtl n) = d'.reg (R.hrtEvtSrcCtl n)) → t.dev.img = d'.img → P t) :
    ∃ t, s.mailbox mine f = .next t ∧ P t := by
  obtain ⟨hans, hmoves⟩ := d'.mbxEnd_answers q hst hlen
  exact State.mailbox_ends hs hq hm hf ((hmoves.parts .waiting (by decide)).trans (hw.trans hq.waiting)) fun t ht _ =>
    h t (ht.answered (hans.of_before hreqs hctl)) (fun a ha => (ht.reg a).trans (hmoves.regs a (by simp [ha])))
      (fun n hn => (ht.reg _).trans (d'.mbxEnd_ctl q hlen hn)) (ht.same.img.trans (hmoves.parts .img (by decide)))

/-- A mailbox command that ends at once. -/
theorem State.mailbox_refuses {s : State} {q : MbxReq} {mine : Nat → Bool} {f : Fuses → Dev → MbxReq → Dev} {status : Nat} {data : List Byte}
    (hs : s.dev.out = []) (hq : s.dev.Asked q) (hm : mine q.opcode = true) (hf : f s.fuses s.dev q = s.dev.mbxEnd q status data) (hst : status < 256)
    (hlen : data.length ≤ 248) :
    ∃ t, s.mailbox mine f = .next t ∧ s.dev.Answered q status data t.dev ∧ s.dev.RegsKept (fun a => isMbx a || isEvt a) t.dev :=
  State.mailbox_works hs hq hm hf hst hlen rfl rfl rfl fun _ hans hregs _ _ => ⟨hans, fun a ha => hregs a ha⟩

/-- A write that meets no code, of a register that only stores it, and its record (R415, R416). -/
def Dev.mbxStored (d : Dev) (a : Nat) (r : RegAt) (v : Word) : Dev := (d.setReg a (r.row.merge (d.reg a) v)).mbxNote a v

theorem Dev.mbxPut_stores {d : Dev} {a : Nat} {r : RegAt} {v : Word} {fz : Fuses} (he : emberOfs a = none) (hr : decodeAddr a = some r)
    (hcode : d.writeCode a r v false = 0) (hn : r.row.name.plainWrite = true) (hup : a < R.pciRxgBaselo 0)
    (hgo : ∀ (e : Dev) (old : Word), e.writeGo fz r old v [] = e) : d.mbxPut fz a v = (d.mbxStored a r v, 0) := by
  unfold Dev.mbxPut
  simp only [he, hr, Dev.regWrite, hcode, ne_eq, not_true, if_false, Dev.sysWrite_plain hn (Dev.ringsUp_of_lt hup), hgo]
  rfl

/-- What a write stored leaves of the mailbox, and elsewhere. -/
theorem Dev.mbxStored_moves (d : Dev) (a : Nat) (r : RegAt) (v : Word) :
    d.Moves [.ash] (· = a) (d.mbxStored a r v) ∧ (d.mbxStored a r v).reg a = r.row.merge (d.reg a) v := by
  have hset : d.Moves [.ash] (· = a) (d.setReg a (r.row.merge (d.reg a) v)) := (Dev.Moves.refl _ _ d).setReg _ _ rfl
  refine ⟨hset.ashAdd _ _ _ _ _, ?_⟩
  rw [Dev.reg, Dev.mbxStored, Dev.mbxNote, Dev.ashAdd_regs]
  exact Dev.reg_setReg_self _ _ _

/-! ### HRT_PWR_CFG, HRT_PWR_RETAIN and HRT_CFG_DRAIN through a mailbox -/

/-- The three one-bit fields of HRT_PWR_CFG. -/
def pwrCfgFields : List FieldRow := [⟨0, 1, .rw, .any⟩, ⟨1, 1, .rw, .any⟩, ⟨2, 1, .rw, .any⟩]

theorem decodeAddr_hrtPwrCfg : ∃ r, decodeAddr R.hrtPwrCfg = some r ∧ r.row.name = .hrtPwrCfg ∧ r.row.fields = pwrCfgFields ∧ r.row.group = some .power := by
  have h : (decodeAddr R.hrtPwrCfg).map (fun r => (r.row.name, r.row.fields, r.row.group)) = some (.hrtPwrCfg, pwrCfgFields, some .power) := by decide +kernel
  simpa [Option.map_eq_some_iff] using h

theorem decodeAddr_hrtPwrRetain :
    ∃ r, decodeAddr R.hrtPwrRetain = some r ∧ r.row.name = .hrtPwrRetain ∧ r.row.fields = [⟨0, 16, .rw, .any⟩] ∧ r.row.group = some .power := by
  have h : (decodeAddr R.hrtPwrRetain).map (fun r => (r.row.name, r.row.fields, r.row.group)) = some (.hrtPwrRetain, [⟨0, 16, .rw, .any⟩], some .power) := by
    decide +kernel
  simpa [Option.map_eq_some_iff] using h

theorem decodeAddr_hrtCfgDrain :
    ∃ r, decodeAddr R.hrtCfgDrain = some r ∧ r.row.name = .hrtCfgDrain ∧ r.row.fields = [⟨0, 8, .rw, .nat 1 255⟩, ⟨16, 16, .rc, .any⟩] ∧ r.row.group = none := by
  have h : (decodeAddr R.hrtCfgDrain).map (fun r => (r.row.name, r.row.fields, r.row.group))
      = some (.hrtCfgDrain, [⟨0, 8, .rw, .nat 1 255⟩, ⟨16, 16, .rc, .any⟩], none) := by
    decide +kernel
  simpa [Option.map_eq_some_iff] using h

/-- A register of the system cord that no chapter checks and no enable withholds: the table alone refuses a write. -/
theorem Dev.writeCode_system {d : Dev} {a : Nat} {r : RegAt} {v : Word} (hc : d.chapterCode r v = 0) (ha : cordOf a = 0) (hn : r.row.name.enable = none) :
    d.writeCode a r v false = d.tableCode a r v false := by
  have hst : d.cordSt 0 = 3 := rfl
  have hw : d.withheld a r v = false := by simp [Dev.withheld, ha, hst, hn]
  simp only [Dev.writeCode, Bool.false_and, Bool.false_eq_true, if_false, hc, hw, ne_eq, not_true]
  split
  · rfl
  · simp_all

theorem BitVec.exists_fin8 {v : Word} (h : v < 8#32) : ∃ k : Fin 8, v = BitVec.ofNat 32 k := by
  have hv : v.toNat < 8 := by simpa [BitVec.lt_def] using h
  exact ⟨⟨v.toNat, hv⟩, by simp⟩

/-- A value within the bits of HRT_PWR_CFG is written whole, and read whole. -/
theorem pwrCfg_merge {r : RegRow} (hf : r.fields = pwrCfgFields) {old v : Word} (ho : old < 8#32) (hv : v < 8#32) : r.merge old v = v := by
  obtain ⟨o, rfl⟩ := BitVec.exists_fin8 ho
  obtain ⟨k, rfl⟩ := BitVec.exists_fin8 hv
  rw [RegRow.merge_eq, hf]
  revert o k
  decide +kernel

theorem pwrCfg_only {r : RegRow} (hf : r.fields = pwrCfgFields) {v : Word} (hv : v < 8#32) : r.only (· != .wo) v = v := by
  obtain ⟨k, rfl⟩ := BitVec.exists_fin8 hv
  rw [RegRow.only, hf]
  revert k
  decide +kernel

theorem pwrCfg_tableCode (d : Dev) {a : Nat} {r : RegAt} (hf : r.row.fields = pwrCfgFields) {v : Word} (hv : v < 8#32) : d.tableCode a r v false = 0 := by
  obtain ⟨k, rfl⟩ := BitVec.exists_fin8 hv
  have hmask : ∀ k : Fin 8, BitVec.ofNat 32 k &&& ~~~(pwrCfgFields.foldl (fun m f => (f.fld 0).put m (2 ^ f.width - 1)) 0) = 0 := by decide +kernel
  simp only [Dev.tableCode, RegRow.mask, hf, hmask k]
  simp [pwrCfgFields, FieldType.writable, FieldRange.ok]

/-- A value of `k` bits sets no bit beside the lowest `k`. -/
theorem BitVec.ofNat_and_not {b k : Nat} (hb : b < 2 ^ k) {m : Word} (hm : ∀ i < k, m.getLsbD i = true) : BitVec.ofNat 32 b &&& ~~~m = 0 := by
  refine BitVec.eq_of_getLsbD_eq fun i hi => ?_
  rw [BitVec.getLsbD_and, BitVec.getLsbD_not, BitVec.getLsbD_ofNat]
  rcases Nat.lt_or_ge i k with h | h
  · simp [hm i h]
  · simp [Nat.testBit_lt_two_pow (Nat.lt_of_lt_of_le hb (Nat.pow_le_pow_right (by decide) h))]

theorem pwrRetain_tableCode (d : Dev) {a : Nat} {r : RegAt} (hf : r.row.fields = [⟨0, 16, .rw, .any⟩]) {b : Nat} (hb : b < 65536) :
    d.tableCode a r (BitVec.ofNat 32 b) false = 0 := by
  have hmask : BitVec.ofNat 32 b &&& ~~~(([⟨0, 16, .rw, .any⟩] : List FieldRow).foldl (fun m f => (f.fld 0).put m (2 ^ f.width - 1)) 0) = 0 :=
    BitVec.ofNat_and_not (k := 16) hb (by decide +kernel)
  simp only [Dev.tableCode, RegRow.mask, hf, hmask]
  simp [FieldType.writable, FieldRange.ok]

theorem cfgDrain_tableCode (d : Dev) {a : Nat} {r : RegAt} (hf : r.row.fields = [⟨0, 8, .rw, .nat 1 255⟩, ⟨16, 16, .rc, .any⟩]) {v : Nat} (h1 : 1 ≤ v) (h255 : v ≤ 255) :
    d.tableCode a r (BitVec.ofNat 32 v) false = 0 := by
  have hmask : BitVec.ofNat 32 v &&& ~~~(([⟨0, 8, .rw, .nat 1 255⟩, ⟨16, 16, .rc, .any⟩] : List FieldRow).foldl (fun m f => (f.fld 0).put m (2 ^ f.width - 1)) 0) = 0 :=
    BitVec.ofNat_and_not (k := 8) (by omega) (by decide +kernel)
  have hof : (FieldRow.fld ⟨0, 8, .rw, .nat 1 255⟩ 0).of (BitVec.ofNat 32 v) = v := by
    simp only [Fld.of, FieldRow.fld, BitVec.toNat_ofNat, pow_zero, Nat.div_one]
    omega
  simp only [Dev.tableCode, RegRow.mask, hf, hmask]
  simp [FieldType.writable, FieldRange.ok, hof]
  omega

theorem cordOf_low {a : Nat} (h : a < 2 ^ 24) : cordOf a = 0 := Nat.div_eq_of_lt h

/-- The writes of HRT_PWR_CFG, HRT_PWR_RETAIN and HRT_CFG_DRAIN that a mailbox makes. -/
theorem Dev.mbxPut_pwrCfg (d : Dev) (fz : Fuses) {v : Word} (hv : v < 8#32) (ho : d.reg R.hrtPwrCfg < 8#32) :
    ∃ e : Dev, d.mbxPut fz R.hrtPwrCfg v = (e, 0) ∧ d.Moves [.ash] (· = R.hrtPwrCfg) e ∧ e.reg R.hrtPwrCfg = v := by
  obtain ⟨r, hr, hn, hf, -⟩ := decodeAddr_hrtPwrCfg
  have hcode : d.writeCode R.hrtPwrCfg r v false = 0 :=
    (Dev.writeCode_system (by simp [Dev.chapterCode, hn]) (cordOf_low (by decide)) (by simp [hn, RegName.enable])).trans (pwrCfg_tableCode d hf hv)
  obtain ⟨hm, hreg⟩ := d.mbxStored_moves R.hrtPwrCfg r v
  exact ⟨_, Dev.mbxPut_stores (by decide) hr hcode (by rw [hn]; rfl) (by decide) fun e old => by simp only [Dev.writeGo, hn], hm, hreg.trans (pwrCfg_merge hf ho hv)⟩

theorem Dev.mbxPut_pwrRetain (d : Dev) (fz : Fuses) {b : Nat} (hb : b < 65536) :
    ∃ e : Dev, d.mbxPut fz R.hrtPwrRetain (BitVec.ofNat 32 b) = (e, 0) ∧ d.Moves [.ash] (· = R.hrtPwrRetain) e ∧ e.get F.hrtPwrRetainBanks = b := by
  obtain ⟨r, hr, hn, hf, -⟩ := decodeAddr_hrtPwrRetain
  have hcode : d.writeCode R.hrtPwrRetain r (BitVec.ofNat 32 b) false = 0 :=
    (Dev.writeCode_system (by simp [Dev.chapterCode, hn]) (cordOf_low (by decide)) (by simp [hn, RegName.enable])).trans (pwrRetain_tableCode d hf hb)
  obtain ⟨hm, hreg⟩ := d.mbxStored_moves R.hrtPwrRetain r (BitVec.ofNat 32 b)
  refine ⟨_, Dev.mbxPut_stores (by decide) hr hcode (by rw [hn]; rfl) (by decide) fun e old => by simp only [Dev.writeGo, hn], hm, ?_⟩
  rw [Dev.get, show F.hrtPwrRetainBanks.addr = R.hrtPwrRetain from rfl, hreg, RegRow.of_merge_rw hf (by simp [FieldRow.sound]) (List.mem_singleton_self _) (.inl rfl) rfl rfl]
  simp only [Fld.of, F.hrtPwrRetainBanks, BitVec.toNat_ofNat, pow_zero, Nat.div_one]
  omega

theorem Dev.mbxPut_cfgDrain (d : Dev) (fz : Fuses) {v : Nat} (h1 : 1 ≤ v) (h255 : v ≤ 255) :
    ∃ e : Dev, d.mbxPut fz R.hrtCfgDrain (BitVec.ofNat 32 v) = (e, 0) ∧ d.Moves [.ash] (· = R.hrtCfgDrain) e ∧ e.get F.hrtCfgDrainDrainto = v
      ∧ e.get F.hrtCfgDrainDraindrop = d.get F.hrtCfgDrainDraindrop := by
  obtain ⟨r, hr, hn, hf, -⟩ := decodeAddr_hrtCfgDrain
  have hcode : d.writeCode R.hrtCfgDrain r (BitVec.ofNat 32 v) false = 0 :=
    (Dev.writeCode_system (by simp [Dev.chapterCode, hn]) (cordOf_low (by decide)) (by simp [hn, RegName.enable])).trans (cfgDrain_tableCode d hf h1 h255)
  obtain ⟨hm, hreg⟩ := d.mbxStored_moves R.hrtCfgDrain r (BitVec.ofNat 32 v)
  have hsound : FieldRow.sound [⟨0, 8, .rw, .nat 1 255⟩, ⟨16, 16, .rc, .any⟩] := by simp [FieldRow.sound, FieldRow.clear]
  refine ⟨_, Dev.mbxPut_stores (by decide) hr hcode (by rw [hn]; rfl) (by decide) fun e old => by simp only [Dev.writeGo, hn], hm, ?_, ?_⟩
  · rw [Dev.get, show F.hrtCfgDrainDrainto.addr = R.hrtCfgDrain from rfl, hreg, RegRow.of_merge_rw hf hsound (List.mem_cons_self ..) (.inl rfl) rfl rfl]
    simp only [Fld.of, F.hrtCfgDrainDrainto, BitVec.toNat_ofNat, pow_zero, Nat.div_one]
    omega
  · rw [Dev.get, show F.hrtCfgDrainDraindrop.addr = R.hrtCfgDrain from rfl, hreg,
      RegRow.of_merge_ro hf hsound (List.mem_cons_of_mem _ (List.mem_singleton_self _)) (.inr rfl) rfl rfl]
    rfl

/-! ### The arguments and the target of a mailbox command (R411, R414, R415) -/

theorem leAt_first (x : Nat) (m : List Byte) : leAt (leBytes 4 x ++ m) 0 4 = x % 2 ^ 32 := by
  rw [leAt_append_left m (by simp), leAt_leBytes x (by decide)]
  simp

theorem leAt_next (x : Nat) (m : List Byte) (o n : Nat) : leAt (leBytes 4 x ++ m) (4 + o) n = leAt m o n :=
  leAt_append_at m (by simp)

theorem leAt_only (x : Nat) : leAt (leBytes 4 x) 0 4 = x % 2 ^ 32 := by
  have h := leAt_first x []
  rwa [List.append_nil] at h

theorem mbxTarget_cfgDrain (level : Nat) : mbxTarget level 0 R.hrtCfgDrain = 0 := by
  obtain ⟨r, hr, -, -, hg⟩ := decodeAddr_hrtCfgDrain
  simp only [mbxTarget, show R.hrtCfgDrain % 4 = 0 from rfl, emberOfs_hrt (show R.hrtCfgDrain < 0x80000 by decide), hr, hg, cordOf_low (show R.hrtCfgDrain < 2 ^ 24 by decide)]
  simp

theorem mbxTarget_power {a : Nat} {r : RegAt} (ha : a % 4 = 0) (hlow : a < 0x80000) (hr : decodeAddr a = some r) (hg : r.row.group = some .power) (level : Nat) :
    mbxTarget level 1 a = if expertIn level (some .power) then 4 else 0 := by
  simp only [mbxTarget, ha, emberOfs_hrt hlow, hr, hg]
  simp [blockGroup]

theorem mbxTarget_pwrCfg (level : Nat) : mbxTarget level 1 R.hrtPwrCfg = if expertIn level (some .power) then 4 else 0 := by
  obtain ⟨r, hr, -, -, hg⟩ := decodeAddr_hrtPwrCfg
  exact mbxTarget_power (by decide) (by decide) hr hg level

theorem mbxTarget_pwrRetain (level : Nat) : mbxTarget level 1 R.hrtPwrRetain = if expertIn level (some .power) then 4 else 0 := by
  obtain ⟨r, hr, -, -, hg⟩ := decodeAddr_hrtPwrRetain
  exact mbxTarget_power (by decide) (by decide) hr hg level

theorem keyAt_pwrCfg : keyAt R.hrtPwrCfg = false := by
  obtain ⟨r, hr, -, -, hg⟩ := decodeAddr_hrtPwrCfg
  simp [keyAt, hr, hg]

/-- A register of the system cord answers a mailbox command at once. -/
theorem Dev.mbxCord_system (d : Dev) {a : Nat} (ha : a < 2 ^ 24) : d.mbxCord a = 0 := by simp [Dev.mbxCord, cordOf_low ha]

theorem Dev.mbxReach_answers {d : Dev} {a : Nat} (h : d.mbxCord a = 0) (q : MbxReq) (data : List Byte) (f : Dev → Dev) : d.mbxReach q a data f = f d := by
  simp [Dev.mbxReach, h]

theorem Dev.mbxReach_system (d : Dev) {a : Nat} (ha : a < 2 ^ 24) (q : MbxReq) (data : List Byte) (f : Dev → Dev) : d.mbxReach q a data f = f d :=
  Dev.mbxReach_answers (d.mbxCord_system ha) q data f

theorem Dev.mbxWrote_good {d e : Dev} {fz : Fuses} {a : Nat} {v : Word} (h : d.mbxPut fz a v = (e, 0)) (q : MbxReq) (data : List Byte) :
    Dev.mbxWrote (d.mbxPut fz a v) q data = e.mbxEnd q 0 data := by
  simp [Dev.mbxWrote, h]

/-- A write of one value, its arguments read. -/
theorem Dev.mbxWr_args (d : Dev) (fz : Fuses) {q : MbxReq} (blk : Nat) {a v : Nat} (hl : q.len = 8) (hargs : q.args = leBytes 4 a ++ leBytes 4 v) (ha : a < 2 ^ 24) :
    d.mbxWr fz q blk = if mbxTarget q.level blk a ≠ 0 then d.mbxEnd q (mbxTarget q.level blk a) [] else Dev.mbxWrote (d.mbxPut fz a (BitVec.ofNat 32 v)) q [] := by
  have h0 : leAt q.args 0 4 = a := by
    rw [hargs, leAt_first]
    omega
  have h4 : leAt q.args 4 4 = v % 2 ^ 32 := by rw [hargs, leAt_next a _ 0, leAt_only]
  have hal : q.args.length = 8 := by simp [hargs]
  have hv : BitVec.ofNat 32 (v % 2 ^ 32) = BitVec.ofNat 32 v := BitVec.eq_of_toNat_eq (by simp)
  unfold Dev.mbxWr
  dsimp only
  rw [if_neg (by simp [hl, hal]), h0, h4, Dev.mbxReach_system d ha, hv]

/-- A mailbox command whose writes all stand: it ends with status 0, and beside what it wrote it changes only its answer. -/
theorem State.mailbox_writes {s : State} {q : MbxReq} {mine : Nat → Bool} {f : Fuses → Dev → MbxReq → Dev} {e : Dev} {w : List Nat} {data : List Byte} {P : State → Prop}
    (hs : s.dev.out = []) (hq : s.dev.Asked q) (hm : mine q.opcode = true) (hf : f s.fuses s.dev q = e.mbxEnd q 0 data) (hlen : data.length ≤ 248)
    (he : s.dev.Moves [.ash] (· ∈ w) e) (hw : R.hrtEvtSrcCtl 0x02 ∉ w)
    (h : ∀ t : State, s.dev.Answered q 0 data t.dev → (∀ a, (isMbx a || isEvt a) = false → t.dev.reg a = e.reg a) →
      s.dev.RegsKept (fun a => decide (a ∈ w) || (isMbx a || isEvt a)) t.dev → P t) :
    ∃ t, s.mailbox mine f = .next t ∧ P t := by
  refine State.mailbox_works hs hq hm hf (by decide) hlen (congrArg HearthSt.reqs (he.parts .hearth (by decide))) (he.regs _ hw) (he.parts .waiting (by decide)) fun t hans hregs _ _ => ?_
  refine h t hans hregs fun a ha => ?_
  simp only [Bool.or_eq_false_iff, decide_eq_false_iff_not] at ha
  obtain ⟨haw, hmbx, hevt⟩ := ha
  exact (hregs a (by simp [hmbx, hevt])).trans (he.regs a haw)

/-! ### A register as a mailbox command reads it (R412, R414) -/

theorem findRow_mem {l : List RegRow} {c b o : Nat} {r : RegAt} (h : findRow l c b o = some r) : r.row ∈ l := by
  induction l with
  | nil => exact absurd h (by simp [findRow])
  | cons x l ih =>
    simp only [findRow] at h
    split at h
    · split at h
      · obtain rfl := Option.some.inj h
        exact List.mem_cons_self
      · exact List.mem_cons_of_mem _ (ih h)
    · exact List.mem_cons_of_mem _ (ih h)

theorem decodeAddr_mem {a : Nat} {r : RegAt} (h : decodeAddr a = some r) : r.row ∈ regTable := by
  unfold decodeAddr at h
  split at h
  · exact findRow_mem h
  · exact absurd h (by simp)

/-- The byte counts of a port and a sensor's register hold an RC field. -/
theorem regTable_cleared : ∀ r ∈ regTable, r.name = .hsMacRxbylo ∨ r.name = .hsMacTxbylo ∨ r.name = .hrtSnsTemp → ∃ f ∈ r.fields, f.ty = .rc := by
  decide +kernel

theorem Dev.Moves.ite {l : List Part} {p : Nat → Prop} {c : Prop} [Decidable c] {d x y : Dev} (hx : d.Moves l p x) (hy : d.Moves l p y) :
    d.Moves l p (if c then x else y) := by
  split
  · exact hx
  · exact hy

/-- The latch of a group leaves every control register of an event. -/
theorem Dev.latchGroup_moves (d : Dev) (a : Nat) : d.Moves [] (· < 0x80000) (d.latchGroup a) := by
  unfold Dev.latchGroup
  refine Dev.Moves.ite ?_ (Dev.Moves.ite ?_ ((Dev.Moves.refl _ _ d).each _ _ fun e w hw => ?_))
  · exact ((Dev.Moves.refl _ _ d).set _ _ (by decide)).set _ _ (by decide)
  · exact (Dev.Moves.refl _ _ d).set _ _ (by decide)
  · have hlow : R.hrtTimWlLocsub w < 0x80000 := by
      simp only [List.mem_cons, List.not_mem_nil, or_false] at hw
      simp only [R.hrtTimWlLocsub]
      omega
    have hfld : ∀ (f : Fld), f.addr ≤ R.hrtTimWlLocsub w → f.addr < 0x80000 := fun f h => Nat.lt_of_le_of_lt h hlow
    have hstep := Dev.Moves.refl [] (· < 0x80000) e
    dsimp only
    refine Dev.Moves.ite ?_ (Dev.Moves.ite ?_ (Dev.Moves.ite ?_ (Dev.Moves.ite ?_ hstep)))
    · exact (hstep.set _ _ (hfld _ (by simp [F.hrtTimWlRxnsNs, R.hrtTimWlRxns, R.hrtTimWlLocsub]))).set _ _ (hfld _ (by simp [F.hrtTimWlRxsubSub, R.hrtTimWlRxsub, R.hrtTimWlLocsub]))
    · exact (hstep.set _ _ (hfld _ (by simp [F.hrtTimWlTxnsNs, R.hrtTimWlTxns, R.hrtTimWlLocsub]))).set _ _ (hfld _ (by simp [F.hrtTimWlTxsubSub, R.hrtTimWlTxsub, R.hrtTimWlLocsub]))
    · exact (hstep.set _ _ (hfld _ (by simp [F.hrtTimWlBnsNs, R.hrtTimWlBns, R.hrtTimWlLocsub]))).set _ _ (hfld _ (by simp [F.hrtTimWlBsubSub, R.hrtTimWlBsub, R.hrtTimWlLocsub]))
    · exact ((((((hstep.set _ _ (hfld _ (by simp [F.hrtTimWlTodsechiSec, R.hrtTimWlTodsechi, R.hrtTimWlLocsub]))).set _ _
        (hfld _ (by simp [F.hrtTimWlTodsecloSec, R.hrtTimWlTodseclo, R.hrtTimWlLocsub]))).set _ _ (hfld _ (by simp [F.hrtTimWlTodnsNs, R.hrtTimWlTodns, R.hrtTimWlLocsub]))).set _ _
          (hfld _ (by simp [F.hrtTimWlTodfracFrac, R.hrtTimWlTodfrac, R.hrtTimWlLocsub]))).setFlag _ _ (hfld _ (by simp [F.hrtTimWlTodfracLocv, R.hrtTimWlTodfrac, R.hrtTimWlLocsub]))).set _ _
            (hfld _ (by simp [F.hrtTimWlLocnsNs, R.hrtTimWlLocns, R.hrtTimWlLocsub]))).set _ _ (hfld _ (by simp [F.hrtTimWlLocsubSub, R.hrtTimWlLocsub]))

/-- A read of a register without an RC field changes only what its group latches. -/
theorem Dev.readEffect_moves (d : Dev) {a : Nat} {r : RegAt} (hr : decodeAddr a = some r) (hrc : ∀ f ∈ r.row.fields, f.ty ≠ .rc) :
    d.Moves [] (· < 0x80000) (d.readEffect a r) := by
  have hrow := regTable_cleared r.row (decodeAddr_mem hr)
  have hsame : d.Moves [] (· < 0x80000) (d.setReg a (r.row.afterRead a (d.reg a))) := by
    rw [RegRow.afterRead_of_kept hrc]
    have hany := (Dev.Moves.refl [] (fun _ => True) d).setReg a (d.reg a) trivial
    exact ⟨hany.parts, fun b _ => d.setReg_same a b, hany.form⟩
  unfold Dev.readEffect
  dsimp only
  generalize d.setReg a (r.row.afterRead a (d.reg a)) = e at hsame
  split
  case h_1 | h_2 | h_3 | h_4 | h_5 | h_6 => exact hsame.trans (e.latchGroup_moves a)
  case h_10 => exact hsame.set _ _ (by decide)
  case h_11 => exact hsame
  case h_7 hname | h_8 hname | h_9 hname =>
    obtain ⟨f, hf, hty⟩ := hrow (by simp [hname])
    exact absurd hty (hrc f hf)

theorem Dev.mbxReads_one (d : Dev) (fz : Fuses) {a : Nat} {r : RegAt} (he : emberOfs a = none) (hr : decodeAddr a = some r) :
    Dev.mbxReads fz a 1 d = (d.readEffect a r, leBytes 4 (d.readValue fz a r).toNat) := by
  simp only [Dev.mbxReads, Dev.mbxGet, Dev.mbxGetEffect, he, hr, List.append_nil]

theorem Dev.mbxGet_pwrCfg (d : Dev) (fz : Fuses) (h : d.reg R.hrtPwrCfg < 8#32) : d.mbxGet fz R.hrtPwrCfg = d.reg R.hrtPwrCfg := by
  obtain ⟨r, hr, hn, hf, -⟩ := decodeAddr_hrtPwrCfg
  have hview : d.timeView R.hrtPwrCfg = none := by
    simp [Dev.timeView, R.hrtPwrCfg, R.hrtTimNs, R.hrtTimPpsinns, R.hrtTimWlRxsfn, R.hrtTimWlTxsfn, R.hrtTimWlBseq, R.hrtTimWlTodrsfn]
  have hraw : d.rawValue fz R.hrtPwrCfg r = d.reg R.hrtPwrCfg := by
    unfold Dev.rawValue
    rw [hn]
    simp only [hview]
  simp only [Dev.mbxGet, emberOfs_hrt (show R.hrtPwrCfg < 0x80000 by decide), hr, Dev.readValue, hraw, pwrCfg_only hf h]

/-- A register's value with the bits of a mask replaced stays within the bits of both. -/
theorem BitVec.masked_lt {o m : Word} (ho : o < 8#32) (hm : m < 8#32) (v : Word) : (o &&& ~~~m) ||| (v &&& m) < 8#32 := by
  simp only [BitVec.lt_def, BitVec.toNat_or, BitVec.toNat_and, BitVec.toNat_ofNat] at *
  exact Nat.or_lt_two_pow (n := 3) (Nat.lt_of_le_of_lt Nat.and_le_left ho) (Nat.lt_of_le_of_lt Nat.and_le_right hm)

/-- The arguments of a masked write. -/
theorem Dev.mbxMasked_args {d : Dev} {fz : Fuses} {q : MbxReq} {a m v : Nat} (hargs : q.args = leBytes 4 a ++ leBytes 4 m ++ leBytes 4 v)
    (b : Nat) : d.mbxMasked fz q b = (d.mbxGet fz b &&& ~~~(BitVec.ofNat 32 m)) ||| (BitVec.ofNat 32 v &&& BitVec.ofNat 32 m) := by
  have hmod : ∀ x, BitVec.ofNat 32 (x % 2 ^ 32) = BitVec.ofNat 32 x := fun x => BitVec.eq_of_toNat_eq (by simp)
  have hm : leAt q.args 4 4 = m % 2 ^ 32 := by rw [hargs, List.append_assoc, leAt_next a _ 0, leAt_first]
  have hv : leAt q.args 8 4 = v % 2 ^ 32 := by rw [hargs, List.append_assoc, leAt_next a _ 4, leAt_next m _ 0, leAt_only]
  simp only [Dev.mbxMasked, hm, hv, hmod]

theorem expertIn_code (level : Nat) (g : Option Group) : (if expertIn level g then 4 else 0) = 0 ↔ expertIn level g = false := by
  cases expertIn level g <;> simp

/-- INFO answers the identity and the state of the firmware (R414). -/
theorem State.info_answers {s : State} {q : MbxReq} (hs : s.dev.out = []) (hq : s.dev.Asked q) (hop : q.opcode = 0) (hl : q.len = 0) :
    ∃ t, exec .info s = .next t ∧ s.dev.Answered q 0 (leBytes 4 (s.dev.reg R.hrtGlbId).toNat ++ leBytes 4 (s.dev.reg R.hrtHstFwver).toNat
        ++ leBytes 4 (s.dev.reg R.hrtHstFwseq).toNat ++ leBytes 4 (s.dev.reg R.hrtHstStat).toNat) t.dev
      ∧ s.dev.RegsKept (fun a => isMbx a || isEvt a) t.dev := by
  simp only [exec, execInfo]
  refine State.mailbox_refuses hs hq (by simp [hop]) ?_ (by decide) (by simp)
  rw [if_neg (by simp [hl])]
  simp only [List.flatMap_cons, List.flatMap_nil, List.append_nil, List.append_assoc]

/-- RD answers the value a read returns (R414). -/
theorem State.rd_answers {s : State} {q : MbxReq} {a : Nat} {r : RegAt} (hs : s.dev.out = []) (hq : s.dev.Asked q) (hop : q.opcode = 1) (hl : q.len = 8)
    (hargs : q.args = leBytes 4 a ++ leBytes 4 1) (h4 : a % 4 = 0) (ha : a < 2 ^ 32) (he : emberOfs a = none) (hr : decodeAddr a = some r)
    (hrc : ∀ f ∈ r.row.fields, f.ty ≠ .rc) (hc : s.dev.mbxCord a = 0) :
    ∃ t, exec .rd s = .next t ∧ s.dev.Answered q 0 (leBytes 4 (s.dev.readValue s.fuses a r).toNat) t.dev := by
  have h0 : leAt q.args 0 4 = a := by
    rw [hargs, leAt_first]
    omega
  have hn : leAt q.args 4 1 = 1 := by rw [hargs, leAt_next a _ 0, leAt_leBytes 1 (by decide)]; rfl
  have hz : leAt q.args 5 3 = 0 := by rw [hargs, leAt_next a _ 1, leAt_leBytes 1 (by decide)]; rfl
  have hal : q.args.length = 8 := by simp [hargs]
  have hm := s.dev.readEffect_moves hr hrc
  simp only [exec, execRd]
  refine State.mailbox_works (d' := s.dev.readEffect a r) (status := 0) (data := leBytes 4 (s.dev.readValue s.fuses a r).toNat) hs hq (by simp [hop]) ?_ (by decide) (by simp) ?_ ?_ ?_ fun t hans _ _ _ => hans
  · rw [if_neg (by simp [hl, hal]), if_neg (by simp [hn, hz, h0, h4, he, hr]), h0, hn, Dev.mbxReach_answers hc, Dev.mbxReads_one _ _ he hr]
  · exact congrArg HearthSt.reqs (hm.parts .hearth (by decide))
  · exact hm.regs _ (by decide)
  · exact hm.parts .waiting (by decide)

/-- A write by WR of HRT_PWR_CFG (R414, R415). -/
theorem State.wr_pwrCfg {s : State} {q : MbxReq} {v : Nat} (hs : s.dev.out = []) (hq : s.dev.Asked q) (hop : q.opcode = 0x100) (hl : q.len = 8)
    (hargs : q.args = leBytes 4 R.hrtPwrCfg ++ leBytes 4 v) (hv : v < 8) (ho : s.dev.reg R.hrtPwrCfg < 8#32) (hx : expertIn q.level (some .power) = false) :
    ∃ t, exec .wr s = .next t ∧ t.dev.reg R.hrtPwrCfg = BitVec.ofNat 32 v ∧ s.dev.Answered q 0 [] t.dev
      ∧ s.dev.RegsKept (fun a => a == R.hrtPwrCfg || isMbx a || isEvt a) t.dev := by
  obtain ⟨e, hput, hmv, hreg⟩ := s.dev.mbxPut_pwrCfg s.fuses (v := BitVec.ofNat 32 v) (by simp [BitVec.lt_def]; omega) ho
  simp only [exec, execWr]
  refine State.mailbox_writes (e := e) (w := [R.hrtPwrCfg]) (data := []) hs hq (by simp only [hop]; decide) ?_ (by simp) (hmv.mono (by simp) (by simp)) (by decide) fun t hans hregs hk => ?_
  · rw [hop, show 0x100 / 256 = 1 from rfl, Dev.mbxWr_args _ _ _ hl hargs (by decide), mbxTarget_pwrCfg, hx, if_neg (by simp), Dev.mbxWrote_good hput]
  · exact ⟨(hregs _ (by decide)).trans hreg, hans, fun a ha => hk a (by simpa [Bool.or_assoc] using ha)⟩

/-- WR0 writes a register of no function group (R414, R415). -/
theorem State.wr0_cfgDrain {s : State} {q : MbxReq} {v : Nat} (hs : s.dev.out = []) (hq : s.dev.Asked q) (hop : q.opcode = 2) (hl : q.len = 8)
    (hargs : q.args = leBytes 4 R.hrtCfgDrain ++ leBytes 4 v) (h1 : 1 ≤ v) (h255 : v ≤ 255) :
    ∃ t, exec .wr0 s = .next t ∧ t.dev.get F.hrtCfgDrainDrainto = v ∧ s.dev.Answered q 0 [] t.dev
      ∧ t.dev.get F.hrtCfgDrainDraindrop = s.dev.get F.hrtCfgDrainDraindrop
      ∧ s.dev.RegsKept (fun a => a == R.hrtCfgDrain || isMbx a || isEvt a) t.dev := by
  obtain ⟨e, hput, hmv, hto, hdrop⟩ := s.dev.mbxPut_cfgDrain s.fuses h1 h255
  simp only [exec, execWr0]
  refine State.mailbox_writes (e := e) (w := [R.hrtCfgDrain]) (data := []) hs hq (by simp [hop]) ?_ (by simp) (hmv.mono (by simp) (by simp)) (by decide) fun t hans hregs hk => ?_
  · rw [Dev.mbxWr_args _ _ _ hl hargs (by decide), mbxTarget_cfgDrain, if_neg (by simp), Dev.mbxWrote_good hput]
  · have hget : ∀ g : Fld, g.addr = R.hrtCfgDrain → t.dev.get g = e.get g := fun g hg => congrArg g.of (hregs g.addr (by rw [hg]; decide))
    exact ⟨(hget _ rfl).trans hto, hans, (hget _ rfl).trans hdrop, fun a ha => hk a (by simpa [Bool.or_assoc] using ha)⟩

/-- WRM, its arguments read. -/
theorem State.wrm_pwrCfg {s : State} {q : MbxReq} {m v : Nat} {x : Word} (hs : s.dev.out = []) (hq : s.dev.Asked q) (hop : q.opcode = 0x101) (hl : q.len = 12)
    (hargs : q.args = leBytes 4 R.hrtPwrCfg ++ leBytes 4 m ++ leBytes 4 v) (hm : m < 8) (ho : s.dev.reg R.hrtPwrCfg < 8#32)
    (hx : expertIn q.level (some .power) = false) (hval : x = (s.dev.reg R.hrtPwrCfg &&& ~~~(BitVec.ofNat 32 m)) ||| (BitVec.ofNat 32 v &&& BitVec.ofNat 32 m)) :
    ∃ t, exec .wrm s = .next t ∧ t.dev.reg R.hrtPwrCfg = x ∧ s.dev.Answered q 0 (leBytes 4 x.toNat) t.dev
      ∧ s.dev.RegsKept (fun a => a == R.hrtPwrCfg || isMbx a || isEvt a) t.dev := by
  have hxlt : x < 8#32 := hval ▸ BitVec.masked_lt ho (by simp [BitVec.lt_def]; omega) _
  obtain ⟨e, hput, hmv, hreg⟩ := s.dev.mbxPut_pwrCfg s.fuses hxlt ho
  have h0 : leAt q.args 0 4 = R.hrtPwrCfg := by rw [hargs, List.append_assoc, leAt_first]; rfl
  have hal : q.args.length = 12 := by simp [hargs]
  have hmask : s.dev.mbxMasked s.fuses q R.hrtPwrCfg = x := by rw [Dev.mbxMasked_args hargs, Dev.mbxGet_pwrCfg _ _ ho, hval]
  simp only [exec, execWrm]
  refine State.mailbox_writes (e := e) (w := [R.hrtPwrCfg]) (data := leBytes 4 x.toNat) hs hq (by simp only [hop]; decide) ?_ (by simp) (hmv.mono (by simp) (by simp)) (by decide)
    fun t hans hregs hk => ?_
  · rw [if_neg (by simp [hl, hal]), h0, hop, show 0x101 / 256 = 1 from rfl, mbxTarget_pwrCfg, hx, if_neg (by simp), Dev.mbxReach_system _ (by decide), hmask,
      Dev.mbxWrote_good hput, keyAt_pwrCfg]
    rfl
  · exact ⟨(hregs _ (by decide)).trans hreg, hans, fun a ha => hk a (by simpa [Bool.or_assoc] using ha)⟩

/-- WR and WRM of a group at expert level (R383, R414). -/
theorem State.wr_expert {s : State} {q : MbxReq} {v : Nat} (hs : s.dev.out = []) (hq : s.dev.Asked q) (hop : q.opcode = 0x100) (hl : q.len = 8)
    (hargs : q.args = leBytes 4 R.hrtPwrCfg ++ leBytes 4 v) (hx : expertIn q.level (some .power) = true) :
    ∃ t, exec .wr s = .next t ∧ s.dev.Answered q 4 [] t.dev ∧ s.dev.RegsKept (fun a => isMbx a || isEvt a) t.dev := by
  simp only [exec, execWr]
  refine State.mailbox_refuses hs hq (by simp only [hop]; decide) ?_ (by decide) (by simp)
  rw [hop, show 0x100 / 256 = 1 from rfl, Dev.mbxWr_args _ _ _ hl hargs (by decide), mbxTarget_pwrCfg, hx, if_pos (by simp), if_pos rfl]

theorem State.wrm_expert {s : State} {q : MbxReq} {m v : Nat} (hs : s.dev.out = []) (hq : s.dev.Asked q) (hop : q.opcode = 0x101) (hl : q.len = 12)
    (hargs : q.args = leBytes 4 R.hrtPwrCfg ++ leBytes 4 m ++ leBytes 4 v) (hx : expertIn q.level (some .power) = true) :
    ∃ t, exec .wrm s = .next t ∧ s.dev.Answered q 4 [] t.dev ∧ s.dev.RegsKept (fun a => isMbx a || isEvt a) t.dev := by
  have h0 : leAt q.args 0 4 = R.hrtPwrCfg := by rw [hargs, List.append_assoc, leAt_first]; rfl
  have hal : q.args.length = 12 := by simp [hargs]
  simp only [exec, execWrm]
  refine State.mailbox_refuses hs hq (by simp only [hop]; decide) ?_ (by decide) (by simp)
  rw [if_neg (by simp [hl, hal]), h0, hop, show 0x101 / 256 = 1 from rfl, mbxTarget_pwrCfg, hx, if_pos (by simp), if_pos rfl]

/-! ### WRN (R414) -/

theorem MbxReq.noData_wrn {q : MbxReq} (hop : q.opcode = 0x102) : q.noData = leBytes 4 0 := by
  unfold MbxReq.noData
  rw [hop]
  rfl

/-- The count and the address of a write of several registers. -/
theorem MbxReq.wrn_args {q : MbxReq} {a n : Nat} {data : List Byte} (hargs : q.args = leBytes 4 a ++ leBytes 4 n ++ data) (ha : a < 2 ^ 32) (hn : n < 256) :
    leAt q.args 0 4 = a ∧ leAt q.args 4 1 = n ∧ leAt q.args 5 3 = 0 := by
  rw [hargs, List.append_assoc]
  refine ⟨?_, ?_, ?_⟩
  · rw [leAt_first]
    omega
  · rw [leAt_next a _ 0, leAt_append_left _ (by simp), leAt_leBytes n (by decide)]
    simp only [Nat.mul_zero, pow_zero, Nat.div_one]
    omega
  · rw [leAt_next a _ 1, leAt_append_left _ (by simp), leAt_leBytes n (by decide)]
    omega

theorem State.wrn_expert {s : State} {q : MbxReq} {v : Nat} (hs : s.dev.out = []) (hq : s.dev.Asked q) (hop : q.opcode = 0x102) (hl : q.len = 12)
    (hargs : q.args = leBytes 4 R.hrtPwrCfg ++ leBytes 4 1 ++ leBytes 4 v) (hx : expertIn q.level (some .power) = true) :
    ∃ t, exec .wrn s = .next t ∧ s.dev.Answered q 4 (leBytes 4 0) t.dev ∧ s.dev.RegsKept (fun a => isMbx a || isEvt a) t.dev := by
  obtain ⟨h0, h1, h5⟩ := MbxReq.wrn_args hargs (by decide) (by decide)
  have hal : q.args.length = 12 := by simp [hargs]
  simp only [exec, execWrn]
  refine State.mailbox_refuses hs hq (by simp only [hop]; decide) ?_ (by decide) (by simp)
  rw [if_neg (by simp [hl, hal]), h1, h5, if_neg (by simp), hl, if_neg (by decide), h0, MbxReq.noData_wrn hop, hop, show 0x102 / 256 = 1 from rfl,
    mbxTarget_pwrCfg, hx, if_pos (by simp), if_pos rfl]

/-- A write of HRT_PWR_CFG and of HRT_PWR_RETAIN behind it. -/
theorem Dev.mbxWrites_two {d e f : Dev} {fz : Fuses} {level v b : Nat} (hx : expertIn level (some .power) = false)
    (he : d.mbxPut fz R.hrtPwrCfg (BitVec.ofNat 32 v) = (e, 0)) (hf : e.mbxPut fz R.hrtPwrRetain (BitVec.ofNat 32 b) = (f, 0)) :
    Dev.mbxWrites fz level 1 R.hrtPwrCfg [v, b] d 0 = (f, 2, 0, 0) := by
  have hnext : R.hrtPwrCfg + 4 = R.hrtPwrRetain := rfl
  have h1 : mbxTarget level 1 R.hrtPwrCfg = 0 := by rw [mbxTarget_pwrCfg, hx]; rfl
  have h2 : mbxTarget level 1 R.hrtPwrRetain = 0 := by rw [mbxTarget_pwrRetain, hx]; rfl
  simp only [Dev.mbxWrites, hnext, h1, h2, d.mbxCord_system (show R.hrtPwrCfg < 2 ^ 24 by decide), e.mbxCord_system (show R.hrtPwrRetain < 2 ^ 24 by decide), he, hf]
  rfl

theorem State.wrn_pwr {s : State} {q : MbxReq} {v b : Nat} (hs : s.dev.out = []) (hq : s.dev.Asked q) (hop : q.opcode = 0x102) (hl : q.len = 16)
    (hargs : q.args = leBytes 4 R.hrtPwrCfg ++ leBytes 4 2 ++ leBytes 4 v ++ leBytes 4 b) (hv : v < 8) (hb : b < 65536)
    (ho : s.dev.reg R.hrtPwrCfg < 8#32) (hx : expertIn q.level (some .power) = false) :
    ∃ t, exec .wrn s = .next t ∧ t.dev.reg R.hrtPwrCfg = BitVec.ofNat 32 v ∧ t.dev.get F.hrtPwrRetainBanks = b
      ∧ s.dev.Answered q 0 (leBytes 4 2) t.dev
      ∧ s.dev.RegsKept (fun a => a == R.hrtPwrCfg || a == R.hrtPwrRetain || isMbx a || isEvt a) t.dev := by
  obtain ⟨e, hput, hmv, hreg⟩ := s.dev.mbxPut_pwrCfg s.fuses (v := BitVec.ofNat 32 v) (by simp [BitVec.lt_def]; omega) ho
  obtain ⟨f, hputf, hmvf, hget⟩ := e.mbxPut_pwrRetain s.fuses hb
  obtain ⟨h0, h1, h5⟩ := MbxReq.wrn_args ((List.append_assoc _ _ _) ▸ hargs) (by decide) (by decide)
  have hal : q.args.length = 16 := by simp [hargs]
  have hvals : q.values = [v, b] := by
    have hv0 : leAt q.args (8 + 4 * 0) 4 = v := by
      rw [hargs, List.append_assoc, List.append_assoc, show 8 + 4 * 0 = 4 + 4 from rfl, leAt_next, leAt_next _ _ 0, leAt_first]
      omega
    have hv1 : leAt q.args (8 + 4 * 1) 4 = b := by
      rw [hargs, List.append_assoc, List.append_assoc, show 8 + 4 * 1 = 4 + (4 + 4) from rfl, leAt_next, leAt_next, leAt_next _ _ 0, leAt_only]
      omega
    rw [MbxReq.values, h1]
    simp [List.range_succ, hv0, hv1]
  have hmoves : s.dev.Moves [.ash] (· ∈ [R.hrtPwrCfg, R.hrtPwrRetain]) f := (hmv.mono (by simp) (by simp)).trans (hmvf.mono (by simp) (by simp))
  simp only [exec, execWrn]
  refine State.mailbox_writes (e := f) (w := [R.hrtPwrCfg, R.hrtPwrRetain]) (data := leBytes 4 2) hs hq (by simp only [hop]; decide) ?_ (by simp) hmoves (by decide)
    fun t hans hregs hk => ?_
  · rw [if_neg (by simp [hl, hal]), h1, h5, if_neg (by simp), hl, if_neg (by decide), h0, MbxReq.noData_wrn hop, hop, show 0x102 / 256 = 1 from rfl,
      mbxTarget_pwrCfg, hx, if_neg (by simp), Dev.mbxReach_system _ (by decide), hvals, Dev.mbxWrites_two hx hput hputf]
    rfl
  · refine ⟨(hregs _ (by decide)).trans ((hmvf.regs _ (by decide)).trans hreg), (congrArg F.hrtPwrRetainBanks.of (hregs R.hrtPwrRetain (by decide))).trans hget, hans, fun a ha => hk a ?_⟩
    simpa [Bool.or_assoc] using ha

/-- An opcode of no command (R414). -/
theorem State.unknownOpcode_refused {s : State} {q : MbxReq} (hs : s.dev.out = []) (hq : s.dev.Asked q) (hop : knownOp q.opcode = false) :
    ∃ t, exec .mbxUnknownOpcode s = .next t ∧ s.dev.Answered q 1 [] t.dev ∧ s.dev.RegsKept (fun a => isMbx a || isEvt a) t.dev := by
  obtain ⟨rest, hreqs⟩ := hq.reqs
  have hwait := hq.waiting
  obtain ⟨-, hrun, -, hlen, -⟩ := hq
  obtain ⟨hans, hmoves⟩ := s.dev.mbxEnd_answers q (status := 1) (data := []) (by decide) (by simp)
  have hserves : (!knownOp q.opcode && s.dev.fwServes) = true := by simp [hop, Dev.fwServes, Dev.flag, hrun]
  simp only [exec, execMbxUnknownOpcode]
  refine State.runServe_ends hs ?_ fun t ht _ _ => ?_
  · simp -implicitDefEqProofs only [hreqs, Dev.when, hserves, if_true, if_neg (by omega : ¬ 248 < q.len)]
    exact (hmoves.parts .waiting (by decide)).trans hwait
  · simp -implicitDefEqProofs only [hreqs, Dev.when, hserves, if_true, if_neg (by omega : ¬ 248 < q.len)] at ht
    exact ⟨ht.answered hans, fun a ha => (ht.reg a).trans (hmoves.regs a (by simpa using ha))⟩

/-- CFG reloads a cord that is off or Held (R373, R374, R414). -/
theorem State.cfg_reloads {s : State} {q : MbxReq} {v : Word} {c : Nat} {r : RegAt} (hs : s.dev.out = []) (hq : s.dev.Asked q) (hop : q.opcode = 0x20)
    (hl : q.len = 4) (hargs : q.args = leBytes 4 v.toNat) (hr : decodeAddr R.hrtCfgCmd = some r)
    (hcode : s.dev.writeCode R.hrtCfgCmd r (F.hrtCfgCmdGo.put v 1) false = 0) (hcmd : F.hrtCfgCmdOp.of v = 2) (hcord : c = F.hrtCfgCmdCord.of v) (hc : c ≠ 0)
    (hst : s.dev.cordSt c = 0 ∨ s.dev.cordSt c = 5) (hboot : s.dev.get F.hrtCfgStatBootpend = 0) (hbusy : s.dev.get F.hrtCfgStatBusy = 0)
    (hno : s.dev.get F.hrtCfgStatNoimg = 0) (htrans : s.dev.pwr.trans = none) (hpend : s.dev.get F.hrtPwrStatePend = 3) :
    ∃ t, exec .cfg s = .next t ∧ t.dev.sec c = Tbl.get {} s.dev.img.slot c ∧ s.dev.Raised 0x0C t.dev
      ∧ s.dev.Answered q 0 (leBytes 4 (t.dev.reg R.hrtCfgStat).toNat) t.dev := by
  obtain ⟨r', hr', hn⟩ := decodeAddr_hrtCfgCmd
  obtain rfl : r' = r := Option.some.inj (hr'.symm.trans hr)
  have hc' : c < 16 := hcord ▸ hrtCfgCmdCord_lt v
  have h0 : BitVec.ofNat 32 (leAt q.args 0 4) = v := by
    rw [hargs, leAt_only, Nat.mod_eq_of_lt v.isLt]
    simp
  have hal : q.args.length = 4 := by simp [hargs]
  generalize hv' : F.hrtCfgCmdGo.put v 1 = v' at hcode
  have hop' : F.hrtCfgCmdOp.of v' = 2 := by rw [← hv', Fld.of_put_apart _ _ _ _ (by decide) (by decide), hcmd]
  have hcord' : F.hrtCfgCmdCord.of v' = c := by rw [← hv', Fld.of_put_apart _ _ _ _ (by decide) (by decide), hcord]
  have hgo' : v'.getLsbD 31 = true := by
    rw [← hv', Fld.getLsbD_put _ _ _ _ (by decide)]
    simp [F.hrtCfgCmdGo]
  have hnote : s.dev.Moves [.free, .ash] (shown [] []) (s.dev.ashNote 3) := (Dev.Moves.refl _ _ s.dev).ashNote 3
  have hn3 := Dev.CfgNoted.of_moves (hnote.mono (by decide) fun _ h => h)
  have hccode : (s.dev.ashNote 3).cfgCode v' none = 0 := by
    refine Dev.cfgCode_reload hop' ?_ ?_ ?_ ?_ ?_ ?_
    · rw [hn3.get, hboot]
    · rw [hn3.get, hbusy]
    · rw [hn3.get, hno]
    · rw [hn3.trans, htrans]
    · rw [hn3.get, hpend]
    · rw [hcord']
      exact Dev.servesNow_off (by rwa [hn3.cordSt])
  have htry : s.dev.cfgTry s.fuses v' = (s.dev.ashNote 3, 0, none) := by rw [Dev.cfgTry_plain _ _ (by rw [hop']; decide), hccode, if_pos rfl]
  obtain ⟨w, hw⟩ : ∃ w, s.dev.regWrite s.fuses R.hrtCfgCmd r' v' false []
      = (((s.dev.ashNote 3).setReg R.hrtCfgCmd w).reloadStart s.fuses [c] false (F.hrtCfgCmdForce.of v' == 1), 0) := by
    refine ⟨r'.row.merge ((s.dev.ashNote 3).reg R.hrtCfgCmd) v', ?_⟩
    unfold Dev.regWrite
    simp [hcode, Dev.sysWrite, hn, hgo', htry, Dev.applyWrite_cfgCmd _ hn, Dev.cfgGo_reload _ _ hop', hcord']
  have hbefore : s.dev.Moves [.free, .ash] (shown [R.hrtCfgCmd] []) ((s.dev.ashNote 3).setReg R.hrtCfgCmd w) :=
    (hnote.mono (by decide) (shown_mono (by simp) (by simp))).setReg _ _ (.inl (by simp))
  generalize (s.dev.ashNote 3).setReg R.hrtCfgCmd w = e at hw hbefore
  obtain ⟨hcordSt, hp, himg, -, h0C⟩ := Dev.cfgReady (hbefore.mono (by decide) fun _ h => h)
  obtain ⟨hsec, -, -, hend, -, -, km⟩ := Dev.reloadStart_off hc hc' (by rwa [hcordSt c (by omega)]) (hp.trans hpend) s.fuses (F.hrtCfgCmdForce.of v' == 1)
  have hall : s.dev.Moves (.img :: .free :: Dev.Moves.evtParts) (shown [R.hrtCfgCmd, R.hrtCfgStat, R.hrtCfgCseq c] [0x0B, 0x0C])
      (e.reloadStart s.fuses [c] false (F.hrtCfgCmdForce.of v' == 1)) :=
    (hbefore.mono (by decide) (shown_mono (by simp) (by simp))).trans (km.mono (by decide) (shown_mono (fun _ h => List.mem_cons_of_mem R.hrtCfgCmd h) fun _ h => h))
  generalize e.reloadStart s.fuses [c] false (F.hrtCfgCmdForce.of v' == 1) = x at *
  have hctl : x.reg (R.hrtEvtSrcCtl 0x02) = s.dev.reg (R.hrtEvtSrcCtl 0x02) :=
    hall.only _ (by simp only [List.mem_cons, List.not_mem_nil, or_false, R.hrtEvtSrcCtl, R.hrtCfgCmd, R.hrtCfgStat, R.hrtCfgCseq]; omega)
      fun n hn => evtCtl_notMem_evtRegs (by rintro rfl; exact absurd hn (by decide))
  simp only [exec, execCfg]
  refine State.mailbox_works (d' := x) (status := 0) (data := leBytes 4 (x.reg R.hrtCfgStat).toNat) hs hq (by simp [hop]) ?_ (by decide) (by simp)
    (congrArg HearthSt.reqs (hall.parts .hearth (by decide))) hctl (hall.parts .waiting (by decide)) fun t hans hregs hctls himg' => ?_
  · rw [if_neg (by simp [hl, hal]), hr]
    simp -implicitDefEqProofs only [h0, hv', hw, Dev.mbxWrote, if_true]
  · have hstat : t.dev.reg R.hrtCfgStat = x.reg R.hrtCfgStat := hregs _ (by decide)
    refine ⟨?_, hend.of_ctl h0C.symm (hctls 0x0C (by decide)), by rwa [hstat]⟩
    rw [Dev.sec, himg', ← himg]
    exact hsec

theorem Dev.writeCode_setOut (d : Dev) (l : List Output) (a : Nat) (r : RegAt) (v : Word) (b : Bool) : (d.setOut l).writeCode a r v b = d.writeCode a r v b := rfl

theorem State.mailbox_setOut (s : State) (mine : Nat → Bool) (f : Fuses → Dev → MbxReq → Dev) :
    State.mailbox { s with dev := s.dev.setOut [] } mine f = s.mailbox mine f := rfl

theorem State.cfg_setOut (s : State) : exec .cfg { s with dev := s.dev.setOut [] } = exec .cfg s := by
  simp only [exec, execCfg]
  exact s.mailbox_setOut _ _

/-! ### Mailbox commands on registers (R411 to R416) -/

/-- Settles O49: a command ends once, with its answer alone behind its writes. -/
theorem mailboxCommandsAreServed : Obligations.MailboxCommandsAreServed := by
  unfold Obligations.MailboxCommandsAreServed
  refine ⟨?_, ?_, ?_, ?_, ?_, ?_, ?_, ?_, ?_, ?_, ?_⟩
  · intro q
    refine State.of_sent ?_ fun _ h => h
    exact fun s hs hq hop hl => State.info_answers hs hq hop hl
  · intro q a r
    refine State.of_sent ?_ fun _ h => h
    exact fun s hs hq hop hl hargs h4 ha he hr hrc hc => State.rd_answers hs hq hop hl hargs h4 ha he hr hrc hc
  · intro q v
    refine State.of_sent ?_ fun _ h => h
    exact fun s hs hq hop hl hargs h1 h255 => State.wr0_cfgDrain hs hq hop hl hargs h1 h255
  · intro q v
    refine State.of_sent ?_ fun _ h => h
    exact fun s hs hq hop hl hargs hv ho hx => State.wr_pwrCfg hs hq hop hl hargs hv ho hx
  · intro q v
    refine State.of_sent ?_ fun _ h => h
    exact fun s hs hq hop hl hargs hx => State.wr_expert hs hq hop hl hargs hx
  · intro q m v
    refine State.of_sent ?_ fun _ h => h
    exact fun s hs hq hop hl hargs hx => State.wrm_expert hs hq hop hl hargs hx
  · intro q v
    refine State.of_sent ?_ fun _ h => h
    exact fun s hs hq hop hl hargs hx => State.wrn_expert hs hq hop hl hargs hx
  · intro q m v x
    refine State.of_sent ?_ fun _ h => h
    exact fun s hs hq hop hl hargs hm ho hx hval => State.wrm_pwrCfg hs hq hop hl hargs hm ho hx hval
  · intro q v b
    refine State.of_sent ?_ fun _ h => h
    exact fun s hs hq hop hl hargs hv hb ho hx => State.wrn_pwr hs hq hop hl hargs hv hb ho hx
  · intro q
    refine State.of_sent ?_ fun _ h => h
    exact fun s hs hq hop => State.unknownOpcode_refused hs hq hop
  · intro q v c r
    refine State.of_sent ?_ fun s h hq hop hl hargs hr hcode hcmd hcord hc hst hboot hbusy hno htrans hpend =>
      s.cfg_setOut ▸ h hq hop hl hargs hr ((Dev.writeCode_setOut _ _ _ _ _ _).trans hcode) hcmd hcord hc hst hboot hbusy hno htrans hpend
    exact fun s hs hq hop hl hargs hr hcode hcmd hcord hc hst hboot hbusy hno htrans hpend =>
      State.cfg_reloads hs hq hop hl hargs hr hcode hcmd hcord hc hst hboot hbusy hno htrans hpend

end Sys2Proof.Machine
end

section
/-!
PROOFS. Requests of power states (O46).
-/

namespace Sys2Proof.Machine

set_option Elab.async false

/-! ### Requests of a power state (R399, R401) -/

theorem decodeAddr_hrtPwrReq : ∃ r, decodeAddr R.hrtPwrReq = some r ∧ r.row.name = .hrtPwrReq := by
  have h : (decodeAddr R.hrtPwrReq).map (fun r => r.row.name) = some .hrtPwrReq := by decide +kernel
  simpa [Option.map_eq_some_iff] using h

theorem hrtPwrReq_state (v : Word) : F.hrtPwrReqState.of (F.hrtPwrReqGo.put v 1) = F.hrtPwrReqState.of v :=
  Fld.of_put_apart _ _ _ _ (by decide) (by decide)

theorem hrtPwrReq_go (v : Word) : (F.hrtPwrReqGo.put v 1).getLsbD 31 = true := by
  rw [Fld.getLsbD_put _ _ _ _ (by decide)]
  simp [F.hrtPwrReqGo]

/-- What a request finds: the device before the write, beside HRT_PWR_REQ and the ash log. -/
structure Dev.PwrAsked (d e : Dev) : Prop where
  moves : d.Moves [.free, .ash, .waiting] (shown [R.hrtPwrReq] []) e
  out : e.out = d.out

theorem Dev.PwrAsked.get {d e : Dev} (h : d.PwrAsked e) (f : Fld) (hf : f.addr ≠ R.hrtPwrReq) : e.get f = d.get f := h.moves.get (by simpa [shown] using hf)

theorem Dev.PwrAsked.pwr {d e : Dev} (h : d.PwrAsked e) : e.pwr = d.pwr := h.moves.parts .pwr (by decide)

theorem Dev.PwrAsked.cordSt {d e : Dev} (h : d.PwrAsked e) (c : Nat) : e.cordSt c = d.cordSt c := by
  have hget := h.get (F.hrtPwrCordSt c) (by simp only [F.hrtPwrCordSt, R.hrtPwrCord, R.hrtPwrReq]; omega)
  simp only [Dev.cordSt, hget]

/-- A request of the host, once the write's own checks have passed. -/
theorem State.powerRequest_takes {s : State} {v : Word} {P : State → Prop} (hs : s.dev.out = []) (ht : s.dev.Takes R.hrtPwrReq (F.hrtPwrReqGo.put v 1))
    (h : ∀ e d t, s.dev.PwrAsked e → s.dev.PwrAsked d → d.ashNote 5 = e → (((d.powerRequest (F.hrtPwrReqState.of v)).emit (.writeDone R.hrtPwrReq 0)).setWaiting []).EndsAs t.dev →
      t.outputs = .writeDone R.hrtPwrReq 0 :: (d.powerRequest (F.hrtPwrReqState.of v)).out ++ s.outputs → P t) :
    ∃ t, exec (.powerRequest v) s = .next t ∧ P t := by
  obtain ⟨r, hr, hn⟩ := decodeAddr_hrtPwrReq
  simp only [exec, execPowerRequest]
  refine State.write_takes (u := fun _ => F.hrtPwrReqGo.put v 1)
    (g := fun d => (d.setReg R.hrtPwrReq (r.row.merge (d.reg R.hrtPwrReq) (F.hrtPwrReqGo.put v 1))).powerRequest (F.hrtPwrReqState.of v)) hs rfl rfl ht (emberOfs_hrt (by decide)) hr
    (fun l => ?_) fun l t hends hout => ?_
  · simp only [Dev.sysWrite, hn, hrtPwrReq_go, hrtPwrReq_state, Dev.when, if_true]
    rw [Dev.applyWrite_stored (by simp [hn]) (Dev.ringsUp_of_lt (by decide))]
    simp only [Dev.writeGo, hn]
  · have hset : s.dev.Moves [.free, .ash, .waiting] (shown [R.hrtPwrReq] []) ((s.dev.setWaiting l).setReg R.hrtPwrReq
        (r.row.merge ((s.dev.setWaiting l).reg R.hrtPwrReq) (F.hrtPwrReqGo.put v 1))) := ((Dev.Moves.refl _ _ s.dev).setWaiting l).setReg _ _ (.inl (by simp))
    have hsame : ((s.dev.setWaiting l).setReg R.hrtPwrReq (r.row.merge ((s.dev.setWaiting l).reg R.hrtPwrReq) (F.hrtPwrReqGo.put v 1))).out = s.dev.out :=
      (((Dev.Moves.refl [.waiting] (fun _ => True) s.dev).setWaiting l).setReg _ _ trivial).parts .out (by decide)
    refine h _ _ t ⟨hset.ashNote 5, Eq.trans ?_ hsame⟩ ⟨hset, hsame⟩ rfl hends hout
    exact ((Dev.Moves.refl [.free, .ash] (fun _ => True) _).ashNote 5).parts .out (by decide)

/-! #### What refuses a request -/

/-- What the power controller reads of a device, beside its own registers (R394, R398, R401). -/
structure Dev.PwrSame (d e : Dev) : Prop where
  dozewl : e.get F.hrtPwrCfgDozewl = d.get F.hrtPwrCfgDozewl
  pol : ∀ c, e.get (F.hrtPwrCordPol c) = d.get (F.hrtPwrCordPol c)
  role : ∀ k < 3, e.role k = d.role k
  act : ∀ w, e.get (F.lfActStatState w) = d.get (F.lfActStatState w)
  assigned : ∀ w, e.assigned w = d.assigned w
  cordSt : ∀ c, e.cordSt c = d.cordSt c
  wasOn : ∀ c, (e.cordInfo c).wasOn = (d.cordInfo c).wasOn
  wave : ∀ w, e.wave w = d.wave w
  spr : e.spr = d.spr
  flag : ∀ f ∈ [F.hrtCfgStatNoimg, F.hrtCfgStatDisputed, F.hrtCfgStatMixed, F.hrtClkStatRefok], e.flag f = d.flag f

/-- Beside the request and the state of the power controller nothing it reads has changed. -/
theorem Dev.PwrSame.of_moves {l : List Part} {d e : Dev} (h : d.Moves l (shown [R.hrtPwrReq, R.hrtPwrState] []) e) (hw : Part.waves ∉ l) (hs : Part.spr ∉ l)
    (hinfo : ∀ c, (e.cordInfo c).wasOn = (d.cordInfo c).wasOn) : d.PwrSame e := by
  have hget : ∀ f : Fld, f.addr ≠ R.hrtPwrReq → f.addr ≠ R.hrtPwrState → e.get f = d.get f := fun f h1 h2 => h.get (by simpa [shown] using ⟨h1, h2⟩)
  have hcord : ∀ c, R.hrtPwrCord c ≠ R.hrtPwrReq ∧ R.hrtPwrCord c ≠ R.hrtPwrState := fun c => by
    simp only [R.hrtPwrCord, R.hrtPwrReq, R.hrtPwrState]
    omega
  refine ⟨hget _ (by decide) (by decide), fun c => hget _ (hcord c).1 (hcord c).2, fun k hk => ?_, fun w => ?_, fun w => ?_, fun c => ?_, hinfo, fun w => ?_,
    h.parts .spr hs, fun f hf => ?_⟩
  · exact hget (F.hrtSprEngRole k) (by simp only [F.hrtSprEngRole, R.hrtSprEng, R.hrtPwrReq]; omega) (by simp only [F.hrtSprEngRole, R.hrtSprEng, R.hrtPwrState]; omega)
  · exact hget (F.lfActStatState w) (by simp only [F.lfActStatState, R.lfActStat, R.hrtPwrReq]; omega) (by simp only [F.lfActStatState, R.lfActStat, R.hrtPwrState]; omega)
  · rw [Dev.assigned, hget _ (by unfold sprEngF; split <;> decide) (by unfold sprEngF; split <;> decide), Dev.assigned]
  · have hst := hget (F.hrtPwrCordSt c) (hcord c).1 (hcord c).2
    simp only [Dev.cordSt, hst]
  · rw [Dev.wave, show e.waves = d.waves from h.parts .waves hw, Dev.wave]
  · simp only [List.mem_cons, List.not_mem_nil, or_false] at hf
    rcases hf with rfl | rfl | rfl | rfl
    · simp only [Dev.flag, hget F.hrtCfgStatNoimg (by decide) (by decide)]
    · simp only [Dev.flag, hget F.hrtCfgStatDisputed (by decide) (by decide)]
    · simp only [Dev.flag, hget F.hrtCfgStatMixed (by decide) (by decide)]
    · simp only [Dev.flag, hget F.hrtClkStatRefok (by decide) (by decide)]

section
variable {d e : Dev} (h : d.PwrSame e)
include h

theorem Dev.PwrSame.dozeKeeps (c : Nat) : e.dozeKeeps c = d.dozeKeeps c := by simp only [Dev.dozeKeeps, h.dozewl, h.assigned, h.spr]

theorem Dev.PwrSame.turnsOff (t c : Nat) : e.turnsOff t c = d.turnsOff t c := by simp only [Dev.turnsOff, h.dozeKeeps]

theorem Dev.PwrSame.turnsOn (t c : Nat) : e.turnsOn t c = d.turnsOn t c := by
  simp only [Dev.turnsOn, h.dozeKeeps, h.pol, h.wasOn]
  by_cases hc : c ≤ 3
  · rw [if_pos hc, if_pos hc, h.role (c - 1) (by omega)]
  · rw [if_neg hc, if_neg hc]

theorem Dev.PwrSame.engineBusy {k : Nat} (hk : k < 3) : e.engineBusy k = d.engineBusy k := by
  simp only [Dev.engineBusy, Dev.moves, h.cordSt, h.spr, h.role k hk]

theorem Dev.PwrSame.dozeActive : e.dozeActive = d.dozeActive := by simp only [Dev.dozeActive, h.dozewl, h.wave, h.act]

theorem Dev.PwrSame.refuser (t : Nat) : e.refuser t = d.refuser t := by
  have hfind : ([0, 1, 2].find? fun k => e.turnsOff t (1 + k) && e.engineBusy k) = [0, 1, 2].find? fun k => d.turnsOff t (1 + k) && d.engineBusy k := by
    simp only [List.find?_cons, h.turnsOff, h.engineBusy (show 0 < 3 by decide), h.engineBusy (show 1 < 3 by decide), h.engineBusy (show 2 < 3 by decide), List.find?_nil]
  simp only [Dev.refuser, hfind, h.turnsOn, h.cordSt, h.dozewl, h.wave, h.dozeActive, h.spr, h.flag F.hrtCfgStatNoimg (by simp), h.flag F.hrtCfgStatDisputed (by simp),
    h.flag F.hrtCfgStatMixed (by simp), h.flag F.hrtClkStatRefok (by simp)]

end

theorem Dev.PwrAsked.same {d e : Dev} (h : d.PwrAsked e) : d.PwrSame e :=
  Dev.PwrSame.of_moves (l := [.free, .ash, .waiting]) (h.moves.mono (by decide) (shown_mono (by simp) (by simp))) (by decide) (by decide) fun c => by rw [Dev.cordInfo, h.pwr, Dev.cordInfo]

/-- The codes of the refusals (R401). -/
theorem Dev.refuser_le {d : Dev} {t k : Nat} (h : d.refuser t = some k) : k ≤ 0x25 := by
  unfold Dev.refuser at h
  dsimp only at h
  split at h
  case h_1 e he =>
    have hm := List.mem_of_find?_eq_some he
    simp only [List.mem_cons, List.not_mem_nil, or_false] at hm
    obtain rfl := Option.some.inj h
    omega
  case h_2 =>
    split_ifs at h <;> simp only [Option.some.injEq] at h <;> omega

/-- What a request that nothing refuses has met. -/
structure Dev.Unrefused (d : Dev) (t : Nat) : Prop where
  active : t = 1 → d.dozeActive = false
  bare : t = 1 → d.spr.bare.contains (d.get F.hrtPwrCfgDozewl) = false
  ref : ∀ c, 1 ≤ c → c < 12 → d.turnsOn t c = true → d.cordSt c = 0 → d.flag F.hrtClkStatRefok = true

theorem Dev.Unrefused.of_none {d : Dev} {t : Nat} (h : d.refuser t = none) : d.Unrefused t := by
  unfold Dev.refuser at h
  dsimp only at h
  split at h
  case h_1 => exact absurd h (by simp)
  case h_2 =>
    split_ifs at h with h1 h2 h3 h4 h5
    refine ⟨fun ht => by simpa [ht] using h2, fun ht => by simpa [ht] using h3, fun c hc hc' hon hst => ?_⟩
    by_contra hno
    refine h5 (Bool.and_eq_true_iff.2 ⟨List.any_eq_true.2 ⟨c, List.mem_range.2 hc', ?_⟩, by simpa using hno⟩)
    simp [hc, hon, hst]

theorem Dev.powerRequest_same {d e : Dev} (he : d.ashNote 5 = e) {t : Nat} (h : t = e.get F.hrtPwrStateTgt) : d.powerRequest t = e := by
  unfold Dev.powerRequest
  rw [he]
  exact if_pos h

theorem Dev.powerRequest_starts {d e : Dev} (he : d.ashNote 5 = e) {t : Nat} (h : t ≠ e.get F.hrtPwrStateTgt) (ht : e.pwr.trans = none) (hr : e.img.reload = none) :
    d.powerRequest t = (e.startRequest t).runPending := by
  unfold Dev.powerRequest
  rw [he]
  dsimp only
  rw [if_neg h, if_pos (by simp [ht, hr])]

theorem Dev.powerRequest_waits {d e : Dev} (he : d.ashNote 5 = e) {t : Nat} (h : t ≠ e.get F.hrtPwrStateTgt) (ht : e.pwr.trans ≠ none) (hp : e.get F.hrtPwrStatePend = 3) :
    d.powerRequest t = e.set F.hrtPwrStatePend t := by
  have hsome : e.pwr.trans.isNone = false := by rwa [Option.isNone_eq_false_iff, Option.isSome_iff_ne_none]
  unfold Dev.powerRequest
  rw [he]
  dsimp only
  rw [if_neg h, if_neg (by simp [hsome]), if_pos hp]

theorem Dev.powerRequest_supersedes {d e : Dev} (he : d.ashNote 5 = e) {t : Nat} (h : t ≠ e.get F.hrtPwrStateTgt) (ht : e.pwr.trans ≠ none) (hp : e.get F.hrtPwrStatePend ≠ 3) :
    d.powerRequest t = (((e.set F.hrtPwrStatePend t).count (F.hrtPwrRefcntRef 0x2F) 1).set F.hrtPwrStateLastcode 0x2F).raise 0x13 [R.hrtPwrRefcnt 0x2F] := by
  have hsome : e.pwr.trans.isNone = false := by rwa [Option.isNone_eq_false_iff, Option.isSome_iff_ne_none]
  unfold Dev.powerRequest
  rw [he]
  dsimp only
  rw [if_neg h, if_neg (by simp [hsome]), if_neg hp]

theorem Dev.runPending_none {d : Dev} (h : d.get F.hrtPwrStatePend = 3) : d.runPending = d := by
  unfold Dev.runPending
  dsimp only
  rw [if_pos (by simp [h])]

theorem hrtPwrReqState_lt (v : Word) : F.hrtPwrReqState.of v < 4 := Nat.mod_lt _ (by decide)

/-- A refusal: its counter, the last code, and its event (R401). -/
theorem Dev.pwrRefuse_shows (d : Dev) {k : Nat} (hk : k ≤ 0x25) :
    (d.pwrRefuse k).get (F.hrtPwrRefcntRef k) = satAdd 16 (d.get (F.hrtPwrRefcntRef k)) 1 ∧ (d.pwrRefuse k).get F.hrtPwrStateLastkind = 0
      ∧ (d.pwrRefuse k).get F.hrtPwrStateLastcode = k ∧ (∀ f ∈ [F.hrtPwrStateCur, F.hrtPwrStateTgt, F.hrtPwrStatePend], (d.pwrRefuse k).get f = d.get f)
      ∧ d.Raised 0x11 (d.pwrRefuse k) ∧ d.Moves Dev.Moves.evtParts (shown [R.hrtPwrState, R.hrtPwrRefcnt k] [0x11]) (d.pwrRefuse k) := by
  have hreg : R.hrtPwrRefcnt k ≠ R.hrtPwrState ∧ R.hrtPwrRefcnt k < 0x80000 := by
    simp only [R.hrtPwrRefcnt, R.hrtPwrState]
    omega
  have hmoves : d.Moves Dev.Moves.evtParts (shown [R.hrtPwrState, R.hrtPwrRefcnt k] [0x11]) (((d.count (F.hrtPwrRefcntRef k) 1).set F.hrtPwrStateLastkind 0).set F.hrtPwrStateLastcode k) :=
    (((Dev.Moves.refl _ _ d).count _ _ (.inl (by simp [F.hrtPwrRefcntRef]))).set _ _ (.inl (by simp [F.hrtPwrStateLastkind]))).set _ _ (.inl (by simp [F.hrtPwrStateLastcode]))
  have hcnt : (((d.count (F.hrtPwrRefcntRef k) 1).set F.hrtPwrStateLastkind 0).set F.hrtPwrStateLastcode k).get (F.hrtPwrRefcntRef k) = satAdd 16 (d.get (F.hrtPwrRefcntRef k)) 1 := by
    rw [Dev.get_set_ne _ _ hreg.1, Dev.get_set_ne _ _ hreg.1, Dev.get_count_self _ _ _ (by simp [Fld.fits, F.hrtPwrRefcntRef])]
    rfl
  have hkind : (((d.count (F.hrtPwrRefcntRef k) 1).set F.hrtPwrStateLastkind 0).set F.hrtPwrStateLastcode k).get F.hrtPwrStateLastkind = 0 := by
    rw [Dev.get_set_off _ _ _ _ (by decide), Dev.get_set_on _ _ _ (by decide), Nat.zero_mod]
  have hcode : (((d.count (F.hrtPwrRefcntRef k) 1).set F.hrtPwrStateLastkind 0).set F.hrtPwrStateLastcode k).get F.hrtPwrStateLastcode = k :=
    Dev.get_set_lt _ _ (by simp [Fld.fits, F.hrtPwrStateLastcode]) (Nat.lt_of_le_of_lt hk (by decide))
  have hkeep : ∀ f ∈ [F.hrtPwrStateCur, F.hrtPwrStateTgt, F.hrtPwrStatePend],
      (((d.count (F.hrtPwrRefcntRef k) 1).set F.hrtPwrStateLastkind 0).set F.hrtPwrStateLastcode k).get f = d.get f := fun f hf => by
    have hp : F.hrtPwrStateLastcode.parted f = true ∧ F.hrtPwrStateLastkind.parted f = true ∧ f.addr = R.hrtPwrState := by
      revert hf; revert f; decide
    rw [Dev.get_set_off _ _ _ _ hp.1, Dev.get_set_off _ _ _ _ hp.2.1, Dev.count, Dev.get_set_ne _ _ (by rw [hp.2.2]; exact hreg.1.symm)]
  have hctl : (((d.count (F.hrtPwrRefcntRef k) 1).set F.hrtPwrStateLastkind 0).set F.hrtPwrStateLastcode k).reg (R.hrtEvtSrcCtl 0x11) = d.reg (R.hrtEvtSrcCtl 0x11) := by
    refine (Dev.reg_set_ne _ _ (by decide)).trans ((Dev.reg_set_ne _ _ (by decide)).trans (Dev.reg_set_ne _ _ ?_))
    simp only [F.hrtPwrRefcntRef, R.hrtPwrRefcnt, R.hrtEvtSrcCtl]
    omega
  unfold Dev.pwrRefuse
  generalize ((d.count (F.hrtPwrRefcntRef k) 1).set F.hrtPwrStateLastkind 0).set F.hrtPwrStateLastcode k = e at *
  refine ⟨(Dev.get_raise _ _ _ (.inl hreg.2)).trans hcnt, (Dev.get_raise _ _ _ (.inl (by decide))).trans hkind, (Dev.get_raise _ _ _ (.inl (by decide))).trans hcode,
    fun f hf => (Dev.get_raise _ _ _ (.inl ?_)).trans (hkeep f hf), (e.raised_raise _ _ (by decide)).of_ctl hctl.symm rfl, hmoves.raised 0x11 _ (by simp)⟩
  revert hf; revert f; decide

theorem Dev.startRequest_refused {d : Dev} {t k : Nat} (h : d.refuser t = some k) : d.startRequest t = d.pwrRefuse k := by
  unfold Dev.startRequest
  rw [h]

/-- A request behind another one that waits: it takes its place, with the code and the event (R399, R401). -/
theorem Dev.superseded_shows (d : Dev) {t : Nat} (ht : t < 4) :
    let e := (((d.set F.hrtPwrStatePend t).count (F.hrtPwrRefcntRef 0x2F) 1).set F.hrtPwrStateLastcode 0x2F).raise 0x13 [R.hrtPwrRefcnt 0x2F]
    e.get F.hrtPwrStatePend = t ∧ e.get (F.hrtPwrRefcntRef 0x2F) = satAdd 16 (d.get (F.hrtPwrRefcntRef 0x2F)) 1 ∧ e.get F.hrtPwrStateLastcode = 0x2F ∧ d.Raised 0x13 e
      ∧ d.Moves Dev.Moves.evtParts (shown [R.hrtPwrState, R.hrtPwrRefcnt 0x2F] [0x13]) e := by
  have hmoves : d.Moves Dev.Moves.evtParts (shown [R.hrtPwrState, R.hrtPwrRefcnt 0x2F] [0x13])
      (((d.set F.hrtPwrStatePend t).count (F.hrtPwrRefcntRef 0x2F) 1).set F.hrtPwrStateLastcode 0x2F) :=
    (((Dev.Moves.refl _ _ d).set _ _ (.inl (by decide))).count _ _ (.inl (by decide))).set _ _ (.inl (by decide))
  have hpend : (((d.set F.hrtPwrStatePend t).count (F.hrtPwrRefcntRef 0x2F) 1).set F.hrtPwrStateLastcode 0x2F).get F.hrtPwrStatePend = t := by
    rw [Dev.get_set_off _ _ _ _ (by decide), Dev.get_count_off _ _ _ _ (by decide), Dev.get_set_lt _ _ (by simp [Fld.fits, F.hrtPwrStatePend]) ht]
  have hcnt : (((d.set F.hrtPwrStatePend t).count (F.hrtPwrRefcntRef 0x2F) 1).set F.hrtPwrStateLastcode 0x2F).get (F.hrtPwrRefcntRef 0x2F)
      = satAdd 16 (d.get (F.hrtPwrRefcntRef 0x2F)) 1 := by
    rw [Dev.get_set_off _ _ _ _ (by decide), Dev.get_count_self _ _ _ (by simp [Fld.fits, F.hrtPwrRefcntRef]), Dev.get_set_off _ _ _ _ (by decide)]
    rfl
  have hcode : (((d.set F.hrtPwrStatePend t).count (F.hrtPwrRefcntRef 0x2F) 1).set F.hrtPwrStateLastcode 0x2F).get F.hrtPwrStateLastcode = 0x2F :=
    Dev.get_set_lt _ _ (by simp [Fld.fits, F.hrtPwrStateLastcode]) (by decide)
  have hctl : (((d.set F.hrtPwrStatePend t).count (F.hrtPwrRefcntRef 0x2F) 1).set F.hrtPwrStateLastcode 0x2F).reg (R.hrtEvtSrcCtl 0x13) = d.reg (R.hrtEvtSrcCtl 0x13) :=
    (Dev.reg_set_ne _ _ (by decide)).trans ((Dev.reg_set_ne _ _ (by decide)).trans (Dev.reg_set_ne _ _ (by decide)))
  dsimp only
  generalize ((d.set F.hrtPwrStatePend t).count (F.hrtPwrRefcntRef 0x2F) 1).set F.hrtPwrStateLastcode 0x2F = e at *
  exact ⟨(Dev.get_raise _ _ _ (.inl (by decide))).trans hpend, (Dev.get_raise _ _ _ (.inl (by decide))).trans hcnt, (Dev.get_raise _ _ _ (.inl (by decide))).trans hcode,
    (e.raised_raise _ _ (by decide)).of_ctl hctl.symm rfl, hmoves.raised 0x13 _ (by simp)⟩

/-! ### A transition up to its first cord (R394, R398) -/

theorem Dev.setTrans_moves (d : Dev) (f : Trans → Trans) : d.Moves [.pwr] (shown [] []) (d.setTrans f) := (Dev.Moves.refl _ _ d).setPwr _

/-- A transition that meets no abort at its present item. -/
structure Dev.Unabort (d : Dev) (t : Trans) : Prop where
  abort : t.abort = none
  active : t.target = 1 → d.dozeActive = false
  bare : t.target = 1 → d.spr.bare.contains (d.get F.hrtPwrCfgDozewl) = false

theorem Dev.Unabort.none_of {d : Dev} {t : Trans} (h : d.Unabort t) {c : Nat} {on : Bool} (href : on = true → c ≤ 11 → d.cordSt c = 0 → d.flag F.hrtClkStatRefok = true) :
    d.abortCode t (some (c, on)) = none := by
  have hnow : d.abortNow t (some (c, on)) = none := by
    unfold Dev.abortNow
    rw [if_neg (fun ⟨h1, h2⟩ => by simp [h.active h1] at h2), if_neg (fun ⟨h1, h2⟩ => Bool.false_ne_true ((h.bare h1).symm.trans h2))]
    cases on with
    | false => rfl
    | true => exact if_neg fun ⟨h1, h2, h3⟩ => by simp [href rfl h1 h2] at h3
  unfold Dev.abortCode
  rw [h.abort, hnow]

/-- An item of a cord that is off and is to go off is passed over. -/
theorem Dev.goOn_off {d : Dev} {t : Trans} (ht : d.pwr.trans = some t) (h : d.Unabort t) {c : Nat} (hc : c ≠ 20 ∧ c ≠ 21) (hst : d.cordSt c = 0) (l : List (Nat × Bool)) :
    Dev.goOn ((c, false) :: l) d = Dev.goOn l d := by
  have hp : d.inProgress c = false := by simp [Dev.inProgress, hc, hst]
  have hs : d.switchItem c false = (d, true) := by simp [Dev.switchItem, hc, hp, hst]
  rw [Dev.goOn, ht]
  simp only [hp, Bool.false_eq_true, if_false, h.none_of (c := c) (on := false) (by simp), hs, if_true]

theorem Dev.goOn_offs {d : Dev} {t : Trans} (ht : d.pwr.trans = some t) (h : d.Unabort t) {l1 : List (Nat × Bool)}
    (hl : ∀ x ∈ l1, x.2 = false ∧ x.1 ≤ 11 ∧ d.cordSt x.1 = 0) (l : List (Nat × Bool)) : Dev.goOn (l1 ++ l) d = Dev.goOn l d := by
  induction l1 with
  | nil => rfl
  | cons x l1 ih =>
    obtain ⟨c, on⟩ := x
    obtain ⟨rfl, hc, hst⟩ := hl _ List.mem_cons_self
    rw [List.cons_append, Dev.goOn_off ht h (by omega) hst, ih fun y hy => hl y (List.mem_cons_of_mem _ hy)]

/-- An item of a cord that is off and is to go on wakes it. -/
def Dev.wakesItem (d : Dev) (c : Nat) (l : List (Nat × Bool)) : Dev :=
  ((d.noteDone c true).cordWake c .trans).setTrans fun r => { r with todo := (c, true) :: l }

theorem Dev.goOn_on {d : Dev} {t : Trans} (ht : d.pwr.trans = some t) (h : d.Unabort t) {c : Nat} (hc : c ≤ 11) (hst : d.cordSt c = 0)
    (href : d.flag F.hrtClkStatRefok = true) (l : List (Nat × Bool)) : Dev.goOn ((c, true) :: l) d = (d.wakesItem c l, false) := by
  have hp : d.inProgress c = false := by simp [Dev.inProgress, hst]; omega
  have hs : d.switchItem c true = ((d.noteDone c true).cordWake c .trans, false) := by
    unfold Dev.switchItem
    rw [if_neg (show c ≠ 20 by omega), hp, if_neg (by simp), if_neg (show c ≠ 21 by omega)]
    simp [hst]
  rw [Dev.goOn, ht]
  simp only [hp, Bool.false_eq_true, if_false, h.none_of (c := c) (on := true) fun _ _ _ => href, hs]
  rfl

/-- What the wake of the first cord leaves. -/
theorem Dev.wakesItem_shows {d : Dev} {t : Trans} (ht : d.pwr.trans = some t) (hdone : t.done = []) (hback : t.back = false) {c : Nat} (hc : 1 ≤ c) (l : List (Nat × Bool)) :
    (d.wakesItem c l).cordSt c = 1 ∧ ((d.wakesItem c l).cordInfo c).why = .trans
      ∧ ((d.wakesItem c l).pwr.trans.map fun x => (x.target, x.done, x.back)) = some (t.target, [(c, true)], false)
      ∧ d.Moves [.pwr] (shown [R.hrtPwrCord c] []) (d.wakesItem c l) := by
  have hnote := (d.setTrans_moves fun t => { t with done := t.done ++ [(c, true)] }).mono (l' := [.pwr]) (q := shown [R.hrtPwrCord c] []) (by decide) (shown_mono (by simp) (by simp))
  refine ⟨Dev.cordSt_cordWake (d.noteDone c true) hc .trans, ?_, ?_, ?_⟩
  · rw [Dev.wakesItem, show ∀ (e : Dev) f, (e.setTrans f).cordInfo c = e.cordInfo c from fun _ _ => rfl, Dev.cordWake_cordInfo]
  · simp only [Dev.wakesItem, Dev.setTrans, Dev.noteDone, Dev.cordWake, Dev.setCordInfo, Dev.setSt, Dev.setPwr, Dev.set, Dev.setReg, ht, Option.map_some, hdone, hback, List.nil_append]
  · unfold Dev.wakesItem
    exact ((hnote.set (F.hrtPwrCordSt c) 1 (.inl (by simp [F.hrtPwrCordSt]))).setCordInfo _ _).setTrans _

/-! #### The start of a transition -/

/-- TGT, BUSY and the items of a transition that starts. -/
def Dev.transBegun (d : Dev) (t : Nat) (l : List (Nat × Bool)) : Dev :=
  ((d.set F.hrtPwrStateTgt t).set F.hrtPwrStateBusy 1).setPwr fun p => { p with trans := some { target := t, todo := l } }

theorem Dev.transBegun_shows (d : Dev) {t : Nat} (ht : t < 4) (l : List (Nat × Bool)) :
    (d.transBegun t l).get F.hrtPwrStateTgt = t ∧ (d.transBegun t l).get F.hrtPwrStateBusy = 1 ∧ (d.transBegun t l).get F.hrtPwrStateCur = d.get F.hrtPwrStateCur
      ∧ (d.transBegun t l).get F.hrtPwrStatePend = d.get F.hrtPwrStatePend ∧ d.Moves [.pwr] (shown [R.hrtPwrState] []) (d.transBegun t l) := by
  have hget : ∀ f : Fld, (d.transBegun t l).get f = ((d.set F.hrtPwrStateTgt t).set F.hrtPwrStateBusy 1).get f := fun f => by
    unfold Dev.transBegun
    exact Dev.get_setPwr _ _ f
  refine ⟨?_, ?_, ?_, ?_, (((Dev.Moves.refl _ _ d).set _ _ (.inl (by decide))).set _ _ (.inl (by decide))).setPwr _⟩
  · rw [hget, Dev.get_set_off _ _ _ _ (by decide), Dev.get_set_lt _ _ (by simp [Fld.fits, F.hrtPwrStateTgt]) ht]
  · rw [hget, Dev.get_set_on _ _ _ (by decide)]
    rfl
  · rw [hget, Dev.get_set_off _ _ _ _ (by decide), Dev.get_set_off _ _ _ _ (by decide)]
  · rw [hget, Dev.get_set_off _ _ _ _ (by decide), Dev.get_set_off _ _ _ _ (by decide)]

theorem Dev.transBegun_pwr (d : Dev) (t : Nat) (l : List (Nat × Bool)) : (d.transBegun t l).pwr = { d.pwr with trans := some { target := t, todo := l } } := by
  have h : ((d.set F.hrtPwrStateTgt t).set F.hrtPwrStateBusy 1).pwr = d.pwr :=
    (((Dev.Moves.refl [] (fun _ => True) d).set _ _ trivial).set _ _ trivial).parts .pwr (by decide)
  unfold Dev.transBegun
  rw [← h]
  generalize (d.set F.hrtPwrStateTgt t).set F.hrtPwrStateBusy 1 = x
  rfl

theorem Dev.transBegun_same (d : Dev) (t : Nat) (l : List (Nat × Bool)) : d.PwrSame (d.transBegun t l) :=
  Dev.PwrSame.of_moves (l := [.pwr]) ((((Dev.Moves.refl _ _ d).set _ _ (.inl (by decide))).set _ _ (.inl (by decide))).setPwr _) (by decide) (by decide) fun _ => by
    rw [Dev.cordInfo, Dev.transBegun_pwr, Dev.cordInfo]

theorem Dev.transSetup_on {d : Dev} {t : Nat} (hcur : d.get F.hrtPwrStateCur ≠ 0) (ht : t ≠ 2) : d.transSetup t = d.transBegun t (d.transItems t) := by
  have h1 : (d.get F.hrtPwrStateCur == 0) = false := by simpa using hcur
  have h2 : (t == 2) = false := by simpa using ht
  simp only [Dev.transSetup, h1, h2, Dev.when, Bool.false_eq_true, if_false, Dev.transBegun]

theorem Dev.startRequest_on {d : Dev} {t : Nat} (h : d.refuser t = none) {e : Dev} (hgo : (d.transSetup t).transStep = (e, false)) : d.startRequest t = e := by
  unfold Dev.startRequest
  rw [h]
  simp only [hgo, Bool.false_eq_true, if_false]

theorem Dev.transStep_begun (d : Dev) (t : Nat) (l : List (Nat × Bool)) : (d.transBegun t l).transStep = Dev.goOn l (d.transBegun t l) := rfl

theorem Dev.Unrefused.unabort {d e : Dev} {t : Nat} (h : d.Unrefused t) (hs : d.PwrSame e) {x : Trans} (hx : x.target = t) (ha : x.abort = none) : e.Unabort x :=
  ⟨ha, fun h1 => hs.dozeActive.trans (h.active (hx ▸ h1)), fun h1 => by rw [hs.spr, hs.dozewl]; exact h.bare (hx ▸ h1)⟩

/-- The first cord of a range that a filter keeps. -/
theorem filter_range_first {p : Nat → Bool} {lo n c : Nat} (hlo : lo ≤ c) (hc : c < lo + n) (hp : p c = true) (hfirst : ∀ j, lo ≤ j → j < c → p j = false) :
    ∃ l, ((List.range n).map (lo + ·)).filter p = c :: l := by
  induction n generalizing lo with
  | zero => omega
  | succ n ih =>
    rw [List.range_succ_eq_map, List.map_cons, List.map_map, show (lo + ·) ∘ Nat.succ = (lo + 1 + ·) from funext fun x => by simp only [Function.comp_apply]; omega]
    by_cases h : lo = c
    · subst h
      exact ⟨_, List.filter_cons_of_pos hp⟩
    · obtain ⟨l, hl⟩ := ih (lo := lo + 1) (by omega) (by omega) fun j h1 h2 => hfirst j (by omega) h2
      exact ⟨l, (List.filter_cons_of_neg (by simp [hfirst lo (Nat.le_refl _) (by omega)])).trans hl⟩

/-- A request that starts with the wake of a cord (R398). -/
theorem Dev.startRequest_wakes {e : Dev} {t c : Nat} (hno : e.refuser t = none) (hcur : e.get F.hrtPwrStateCur ≠ 0) (ht2 : t ≠ 2) (ht : t < 4)
    (hitems : ∃ l1 l2, e.transItems t = l1 ++ (c, true) :: l2 ∧ ∀ x ∈ l1, x.2 = false ∧ x.1 ≤ 11 ∧ e.cordSt x.1 = 0) (hc : 1 ≤ c) (hc' : c ≤ 11) (hon : e.turnsOn t c = true)
    (hst : e.cordSt c = 0) :
    let x := e.startRequest t
    x.get F.hrtPwrStateTgt = t ∧ x.get F.hrtPwrStateBusy = 1 ∧ x.get F.hrtPwrStateCur = e.get F.hrtPwrStateCur ∧ x.get F.hrtPwrStatePend = e.get F.hrtPwrStatePend
      ∧ x.cordSt c = 1 ∧ (x.cordInfo c).why = .trans ∧ (x.pwr.trans.map fun y => (y.target, y.done, y.back)) = some (t, [(c, true)], false)
      ∧ e.Moves [.pwr] (shown [R.hrtPwrState, R.hrtPwrCord c] []) x := by
  obtain ⟨l1, l2, hitems, hl1⟩ := hitems
  have hun := Dev.Unrefused.of_none hno
  obtain ⟨htgt, hbusy, hcur', hpend, hm⟩ := e.transBegun_shows ht (e.transItems t)
  have hsame := e.transBegun_same t (e.transItems t)
  have htrans : (e.transBegun t (e.transItems t)).pwr.trans = some { target := t, todo := e.transItems t } := by rw [Dev.transBegun_pwr]
  have hno : e.startRequest t = (e.transBegun t (e.transItems t)).wakesItem c l2 := by
    refine Dev.startRequest_on hno ?_
    rw [Dev.transSetup_on hcur ht2, Dev.transStep_begun, hitems]
    rw [hitems] at hsame htrans
    have hab := hun.unabort hsame (x := { target := t, todo := l1 ++ (c, true) :: l2 }) rfl rfl
    rw [Dev.goOn_offs htrans hab fun x hx => by rw [hsame.cordSt]; exact hl1 x hx]
    exact Dev.goOn_on htrans hab hc' (by rw [hsame.cordSt, hst]) (by rw [hsame.flag _ (by simp)]; exact hun.ref c hc (by omega) hon hst) l2
  rw [hno]
  obtain ⟨hst', hwhy, hmap, hw⟩ := Dev.wakesItem_shows htrans rfl rfl hc l2
  generalize e.transBegun t (e.transItems t) = b at *
  have hget : ∀ f : Fld, f.addr = R.hrtPwrState → (b.wakesItem c l2).get f = b.get f := fun f hf => hw.get (by
    rw [hf]
    exact not_shown (by simp only [List.mem_singleton, R.hrtPwrState, R.hrtPwrCord]; omega) (.inl (by decide)) (by simp))
  exact ⟨(hget _ rfl).trans htgt, (hget _ rfl).trans hbusy, (hget _ rfl).trans hcur', (hget _ rfl).trans hpend, hst', hwhy, hmap,
    (hm.mono (by decide) (shown_mono (by simp) (by simp))).trans (hw.mono (by decide) (shown_mono (by simp) (by simp)))⟩

/-- The items of a request for FULL, and of one for DOZE out of BANKED, up to the first cord that goes on. -/
theorem Dev.transItems_full {e : Dev} {c : Nat} (hc : 1 ≤ c) (hc' : c ≤ 8) (hon : e.turnsOn 0 c = true) (hfirst : ∀ j, 1 ≤ j → j < c → e.turnsOn 0 j = false) :
    ∃ l, e.transItems 0 = [] ++ (c, true) :: l := by
  obtain ⟨l, hl⟩ := filter_range_first (p := fun c => e.turnsOn 0 c) (lo := 1) (n := 8) hc (by omega) hon hfirst
  exact ⟨_, by simp only [Dev.transItems, show ¬((0 : Nat) = 2) by decide, show ¬((0 : Nat) = 1) by decide, if_false, show 9 - 1 = 8 from rfl, hl, List.map_cons, List.cons_append, List.nil_append]; rfl⟩

theorem Dev.transItems_doze {e : Dev} {c : Nat} (hcur : e.get F.hrtPwrStateCur = 2) (hc : 1 ≤ c) (hc' : c ≤ 8) (hon : e.turnsOn 1 c = true)
    (hfirst : ∀ j, 1 ≤ j → j < c → e.turnsOn 1 j = false) :
    ∃ l1 l2, e.transItems 1 = l1 ++ (c, true) :: l2 ∧ ∀ x ∈ l1, x.2 = false ∧ 1 ≤ x.1 ∧ x.1 ≤ 11 := by
  obtain ⟨l, hl⟩ := filter_range_first (p := fun c => e.turnsOn 1 c) (lo := 1) (n := 8) hc (by omega) hon hfirst
  have hoff : ∀ x ∈ (((List.range 11).map (11 - ·)).filter fun c => e.turnsOff 1 c).map fun c => (c, false), x.2 = false ∧ 1 ≤ x.1 ∧ x.1 ≤ 11 := fun x hx => by
    simp only [List.mem_map, List.mem_filter, List.mem_range] at hx
    obtain ⟨_, ⟨⟨k, hk, rfl⟩, -⟩, rfl⟩ := hx
    exact ⟨rfl, by omega, by omega⟩
  exact ⟨_, _, by
    simp only [Dev.transItems, show ¬((1 : Nat) = 2) by decide, if_true, if_false, hcur, show ¬((2 : Nat) = 0) by decide, show 9 - 1 = 8 from rfl, hl, List.map_cons, List.nil_append,
      List.append_assoc, List.cons_append]
    rfl, hoff⟩

/-! ### Rings that stand disabled while a cord is withdrawn (R393, R397) -/

/-- A field that is zero stays zero where any field is set to zero. -/
theorem Dev.get_set_zero (d : Dev) (f : Fld) {g : Fld} (h : d.get g = 0) : (d.set f 0).get g = 0 := by
  by_cases ha : g.addr = f.addr
  · have hreg : (d.set f 0).reg g.addr = f.put (d.reg g.addr) 0 := by rw [ha, Dev.set, Dev.reg_setReg_self]
    refine Nat.zero_of_testBit_eq_false fun i => ?_
    have hbit := congrArg (·.testBit i) h
    simp only [Dev.get, Fld.testBit_of, Nat.zero_testBit] at hbit
    rw [Dev.get, Fld.testBit_of, hreg]
    by_cases hi : g.lsb + i < 32
    · rw [Fld.getLsbD_put _ _ _ _ hi]
      split
      · simp
      · exact hbit
    · simp [BitVec.getLsbD_of_ge _ _ (Nat.le_of_not_lt hi)]
  · rw [Dev.get_set_ne _ _ ha, h]

/-- Fields of the PCI cord that are zero stay so. -/
def Dev.StaysClear (d e : Dev) : Prop := ∀ g : Fld, 0xC000000 ≤ g.addr → d.get g = 0 → e.get g = 0

namespace Dev.StaysClear
variable {d e f : Dev}

theorem refl (d : Dev) : d.StaysClear d := fun _ _ h => h
theorem thn (h : d.StaysClear e) (k : e.StaysClear f) : d.StaysClear f := fun g hg hd => k g hg (h g hg hd)
theorem of_only {l evs : List Nat} (h : d.Only l evs e) (hl : ∀ a ∈ l, a < 0xC000000) (he : ∀ n ∈ evs, n < 0x100) : d.StaysClear e := fun g hg hd => by
  have hreg : e.reg g.addr = d.reg g.addr := h _ (fun hm => by have := hl _ hm; omega) fun n hn hm => by
    have := he n hn
    simp only [evtRegs, R.hrtEvtSrcCtl, R.hrtEvtSrcFirstns, R.hrtEvtSrcFirstw, List.mem_cons, List.not_mem_nil, or_false] at hm
    omega
  exact (congrArg g.of hreg).trans hd
theorem zero (h : d.StaysClear e) (f : Fld) : d.StaysClear (e.set f 0) := h.thn fun _ _ hd => e.get_set_zero f hd
theorem set (h : d.StaysClear e) (f : Fld) (x : Nat) (ha : f.addr < 0xC000000) : d.StaysClear (e.set f x) :=
  h.thn fun g hg hd => by rw [Dev.get_set_ne _ _ (by omega), hd]
theorem count (h : d.StaysClear e) (f : Fld) (x : Nat) (ha : f.addr < 0xC000000) : d.StaysClear (e.count f x) := h.set _ _ ha
theorem setWave (h : d.StaysClear e) (w : Nat) (g : Wave → Wave) : d.StaysClear (e.setWave w g) := h
theorem setEng (h : d.StaysClear e) (k : Nat) (g : Engine → Engine) : d.StaysClear (e.setEng k g) := h
theorem setCordInfo (h : d.StaysClear e) (c : Nat) (g : CordSt → CordSt) : d.StaysClear (e.setCordInfo c g) := h
theorem raise (h : d.StaysClear e) {n : Nat} (addrs : List Nat) (hn : n < 0x100) : d.StaysClear (e.raise n addrs) :=
  h.thn (of_only (l := []) (evs := [n]) ((Dev.Only.refl _ _ e).raise n addrs (by simp)) (by simp) (by simpa using hn))
theorem when (h : d.StaysClear e) (c : Bool) (g : Dev → Dev) (hg : ∀ x : Dev, x.StaysClear (g x)) : d.StaysClear (e.when c g) := by
  cases c
  · exact h
  · exact h.thn (hg e)
theorem each {α : Type} (h : d.StaysClear e) (xs : List α) (g : Dev → α → Dev) (hg : ∀ (y : Dev) x, x ∈ xs → y.StaysClear (g y x)) : d.StaysClear (e.each xs g) := by
  unfold Dev.each
  induction xs generalizing e with
  | nil => exact h
  | cons x xs ih => exact ih (h.thn (hg e x List.mem_cons_self)) fun y z hz => hg y z (List.mem_cons_of_mem _ hz)
theorem txRefresh (h : d.StaysClear e) : d.StaysClear e.txRefresh :=
  h.thn (of_only e.txRefresh_only (fun a ha => by have := txRegs_range ha; omega) (by simp))

end Dev.StaysClear

theorem Dev.withdrawOwn_clear (d : Dev) (w : Nat) (p : Proposal) : d.StaysClear (d.withdrawOwn w p) := by
  unfold Dev.withdrawOwn
  refine ((Dev.StaysClear.refl d).setWave _ _).when _ _ fun x => (Dev.StaysClear.refl x).each _ _ fun y c _ => (Dev.StaysClear.refl y).when _ _ fun z => ?_
  exact (Dev.StaysClear.refl z).each _ _ fun z' k _ => (Dev.StaysClear.refl z').zero _

theorem Dev.abandon_clear (d : Dev) {w : Nat} (hw : w < 2) : d.StaysClear (d.abandon w) := by
  have hlow : R.lfPrfStat w < 0xC000000 := by
    simp only [R.lfPrfStat]
    omega
  have hev : 0x70 + 2 * 15 + w < 0x100 := by omega
  unfold Dev.abandon Dev.sfEvent
  refine ((((Dev.StaysClear.thn ?_ ((Dev.StaysClear.refl _).setWave _ _)).zero _).set _ _ hlow).raise _ hev)
  cases (d.wave w).proposal with
  | none => exact .refl d
  | some p =>
    dsimp only
    split
    · exact d.withdrawOwn_clear w p
    · exact .refl d

theorem Dev.keyAbandon_clear (d : Dev) {w : Nat} (hw : w < 2) : d.StaysClear (d.keyAbandon w) := by
  unfold Dev.keyAbandon
  refine (((Dev.StaysClear.refl d).setWave _ _).zero _).set _ _ ?_
  simp only [F.lfCryKswstatResult, R.lfCryKswstat]
  omega

theorem Dev.cutBursts_clear (d : Dev) {w : Nat} (hw : w < 2) (counted : Bool) : d.StaysClear (d.cutBursts w counted) := by
  unfold Dev.cutBursts
  refine (((Dev.StaysClear.refl d).when _ _ fun x => (Dev.StaysClear.refl x).count _ _ ?_).setWave _ _).txRefresh
  simp only [F.lfGntMissMiss, R.lfGntMiss]
  omega

theorem Dev.setAct_clear (d : Dev) {w : Nat} (hw : w < 2) {st : Nat} (hst : st < 8) : d.StaysClear (d.setAct w st) :=
  .of_only (d.setAct_state hw hst).2 (fun a ha => by simp only [List.mem_singleton, R.lfActStat] at ha; omega) fun n hn => by simp only [List.mem_singleton] at hn; omega

/-- The withdrawal of a cord other than PCI leaves every ring disabled that was (R393). -/
theorem Dev.withdraw_clear (d : Dev) {c : Nat} (hc : c ≤ 11) : d.StaysClear (d.withdraw c) := by
  have hoff : ∀ x : Dev, x.StaysClear (x.enablesOff c) := fun x => by
    unfold Dev.enablesOff
    split
    · exact (Dev.StaysClear.refl x).zero _
    · split
      · exact (Dev.StaysClear.refl x).each _ _ fun y _ _ => (Dev.StaysClear.refl y).zero _
      · rw [if_neg (by omega)]
        exact .refl x
  unfold Dev.withdraw
  split
  · exact d.cutBursts_clear (by omega) true
  · split
    next h67 =>
      have hw : c - 6 < 2 := by omega
      have hab : d.StaysClear (d.lfAbandon (c - 6)) := by
        unfold Dev.lfAbandon
        exact (((Dev.StaysClear.refl d).when _ _ fun x => x.abandon_clear hw).when _ _ fun x => x.keyAbandon_clear hw).setWave _ _
      refine ((hab.thn (Dev.cutBursts_clear _ hw true)).thn (hoff _)).thn ?_
      unfold Dev.actenWritten
      exact (Dev.StaysClear.refl _).when _ _ fun x => x.setAct_clear hw (by decide)
    · rw [if_neg (by omega)]
      exact hoff d

/-! ### Entry to BANKED (R394, R397) -/

/-- Bytes written one after another, read back. -/
theorem Tbl.get_foldl_zipIdx (l : List Byte) (b : Nat) : ∀ (n : Nat) (t : Tbl Byte) (k : Nat),
    Tbl.get 0 ((l.zipIdx n).foldl (fun t x => Tbl.set 0 t (b + x.2) x.1) t) k = if b + n ≤ k ∧ k < b + n + l.length then l.getD (k - (b + n)) 0 else Tbl.get 0 t k := by
  induction l with
  | nil =>
    intro n t k
    rw [if_neg (by simp only [List.length_nil]; omega)]
    rfl
  | cons x l ih =>
    intro n t k
    rw [List.zipIdx_cons, List.foldl_cons, ih]
    simp only [List.length_cons]
    by_cases hk : k = b + n
    · subst hk
      rw [if_neg (by omega), if_pos (by omega), Nat.sub_self, Tbl.get_set_self]
      rfl
    · by_cases hin : b + (n + 1) ≤ k ∧ k < b + (n + 1) + l.length
      · rw [if_pos hin, if_pos (by omega), show k - (b + n) = k - (b + (n + 1)) + 1 by omega]
        rfl
      · rw [if_neg hin, if_neg (by omega), Tbl.get_set_ne _ _ _ _ hk]

theorem Dev.bankRecord_length (d : Dev) : d.bankRecord.length = 44 := by simp [Dev.bankRecord, beBytes_length]

theorem Dev.bankRecord_congr {d e : Dev} (h : ∀ a, a ≠ R.hrtPwrReq → e.reg a = d.reg a) (ht : e.time = d.time) (hw : e.waves = d.waves) : e.bankRecord = d.bankRecord := by
  have hget : ∀ f : Fld, f.addr ≠ R.hrtPwrReq → e.get f = d.get f := fun f hf => congrArg f.of (h _ hf)
  have hwave : ∀ w, e.wave w = d.wave w := fun w => by rw [Dev.wave, hw, Dev.wave]
  have hsfn : ∀ w sc, e.get (F.lfScsSfnSfn w sc) = d.get (F.lfScsSfnSfn w sc) := fun w sc => hget _ (by simp only [F.lfScsSfnSfn, R.lfScsSfn, R.hrtPwrReq]; omega)
  have hdir : ∀ w, e.dirSfn w 0 = d.dirSfn w 0 := fun w => by
    simp only [Dev.dirSfn, Dev.beaconSfn, hwave, hsfn, hget (F.lfAlnStatBcnsc w) (by simp only [F.lfAlnStatBcnsc, R.lfAlnStat, R.hrtPwrReq]; omega)]
  have hst : ∀ w, e.get (F.lfActStatState w) = d.get (F.lfActStatState w) := fun w => hget _ (by simp only [F.lfActStatState, R.lfActStat, R.hrtPwrReq]; omega)
  have htid : ∀ w, e.get (F.lfActIdTid w) = d.get (F.lfActIdTid w) := fun w => hget _ (by simp only [F.lfActIdTid, R.lfActId, R.hrtPwrReq]; omega)
  have heqd : ∀ w, e.reg (R.lfActEqd w) = d.reg (R.lfActEqd w) := fun w => h _ (by simp only [R.lfActEqd, R.hrtPwrReq]; omega)
  have hrtd : ∀ w, e.reg (R.lfActRtd w) = d.reg (R.lfActRtd w) := fun w => h _ (by simp only [R.lfActRtd, R.hrtPwrReq]; omega)
  simp only [Dev.bankRecord, hwave, hst, htid, heqd, hrtd, hdir, ht]

theorem ringEn_addr (tx : Bool) (r : Nat) : (ringEn tx r).addr = (if tx then 0xC200008 else 0xC100008) + 0x20 * r := by cases tx <;> rfl

/-- A ring that stands disabled, through the work on another ring and on itself. -/
theorem Dev.ringRefresh_en (d : Dev) (tx tx' : Bool) (r q : Nat) (msg : Bool) : (d.ringRefresh tx' q msg).get (ringEn tx r) = d.get (ringEn tx r) := by
  have hne : (ringEn tx r).addr ∉ [ringStatReg tx' q] := by
    simp only [ringEn_addr, ringStatReg, R.pciTxgStat, R.pciRxgStat, List.mem_singleton]
    cases tx <;> cases tx' <;> simp <;> omega
  exact (d.ringRefresh_sends tx' q msg).only.get_eq hne (by rw [ringEn_addr]; cases tx <;> simp <;> omega) (by simp)

/-- Rings disabled one after another. -/
theorem Dev.ringsOff_get (d : Dev) (l : List (Bool × Nat)) (tx : Bool) (r : Nat) (h : (tx, r) ∈ l ∨ d.get (ringEn tx r) = 0) :
    (d.each l fun d r => (d.set (ringEn r.1 r.2) 0).ringRefresh r.1 r.2 false).get (ringEn tx r) = 0 := by
  unfold Dev.each
  induction l generalizing d with
  | nil => exact h.elim (fun h => absurd h (by simp)) id
  | cons x l ih =>
    rw [List.foldl_cons]
    refine ih _ (or_iff_not_imp_left.2 fun hno => ?_)
    rw [Dev.ringRefresh_en]
    rcases h with h | h
    · rcases List.mem_cons.1 h with rfl | h
      · exact Dev.get_set_lt _ _ (by cases tx <;> simp [ringEn, ringF, Fld.fits, F.pciTxgCfgEn, F.pciRxgCfgEn]) (by cases tx <;> simp [ringEn, ringF, F.pciTxgCfgEn, F.pciRxgCfgEn])
      · exact absurd h hno
    · exact d.get_set_zero _ h

theorem Dev.mem_enabledRings {d : Dev} {tx : Bool} {r : Nat} (hr : r < 2048) (h : d.get (ringEn tx r) ≠ 0) : (tx, r) ∈ d.enabledRings := by
  unfold Dev.enabledRings
  cases tx with
  | false => exact List.mem_append_left _ (List.mem_map.2 ⟨r, List.mem_filter.2 ⟨List.mem_range.2 hr, by simpa [Dev.flag, ringEn, ringF] using h⟩, rfl⟩)
  | true => exact List.mem_append_right _ (List.mem_map.2 ⟨r, List.mem_filter.2 ⟨List.mem_range.2 hr, by simpa [Dev.flag, ringEn, ringF] using h⟩, rfl⟩)

theorem Dev.enablesOff_rings (d : Dev) (tx : Bool) {r : Nat} (hr : r < 2048) : (d.enablesOff 12).get (ringEn tx r) = 0 := by
  unfold Dev.enablesOff
  rw [if_neg (by decide), if_neg (by decide), if_pos rfl]
  exact d.ringsOff_get _ tx r (or_iff_not_imp_right.2 fun h => Dev.mem_enabledRings hr h)

/-- Entry to BANKED: the record stands in bank 3, every ring is disabled, and no cord has changed. -/
theorem Dev.bankEntry_shows (d : Dev) :
    (∀ i < 44, Tbl.get 0 d.bankEntry.ember.bytes (3 * 2 ^ 21 + i) = d.bankRecord.getD i 0) ∧ (∀ (tx : Bool) (r : Nat), r < 2048 → d.bankEntry.get (ringEn tx r) = 0)
      ∧ d.Spares [] [] d.bankEntry := by
  unfold Dev.bankEntry
  have hbytes : ∀ i < 44, Tbl.get 0 (d.setEmber fun m => { m with bytes := (d.bankRecord.zipIdx).foldl (fun t x => Tbl.set 0 t (3 * 2 ^ 21 + x.2) x.1) m.bytes }).ember.bytes (3 * 2 ^ 21 + i)
      = d.bankRecord.getD i 0 := fun i hi => by
    refine (Tbl.get_foldl_zipIdx d.bankRecord (3 * 2 ^ 21) 0 d.ember.bytes _).trans ?_
    rw [if_pos (by rw [Dev.bankRecord_length]; omega), show 3 * 2 ^ 21 + i - (3 * 2 ^ 21 + 0) = i by omega]
  have hsp : d.Spares [] [] (d.setEmber fun m => { m with bytes := (d.bankRecord.zipIdx).foldl (fun t x => Tbl.set 0 t (3 * 2 ^ 21 + x.2) x.1) m.bytes }) := .setEmber (.refl _ _ _) _
  dsimp only
  generalize d.setEmber (fun m => { m with bytes := (d.bankRecord.zipIdx).foldl (fun t x => Tbl.set 0 t (3 * 2 ^ 21 + x.2) x.1) m.bytes }) = a at *
  have hg : a.Goes [.out, .ash, .pcie, .msixHeld, .buf] (a.each a.enabledRings fun d r => d.ringFlush r.1 r.2 []) :=
    (Dev.Goes.refl _ _).each _ _ fun x r => x.ringFlush_goes r.1 r.2 []
  have hs : a.Spares [] [] (a.each a.enabledRings fun d r => d.ringFlush r.1 r.2 []) := (Dev.Spares.refl _ _ _).each _ _ fun x r => x.ringFlush_spares r.1 r.2 []
  generalize (a.each a.enabledRings fun d r => d.ringFlush r.1 r.2 []) = b at *
  refine ⟨fun i hi => ?_, fun tx r hr => b.enablesOff_rings tx hr, (hsp.thn hs).thn (b.enablesOff_spares 12)⟩
  rw [show (b.enablesOff 12).ember = a.ember from ((b.enablesOff_goes 12).parts .ember (by decide)).trans (hg.parts .ember (by decide))]
  exact hbytes i hi

/-! #### The first cord that a request for BANKED drains (R398) -/

/-- Which cords are on, noted where FULL is left. -/
def Dev.onsNoted (d : Dev) : Dev :=
  d.when (d.get F.hrtPwrStateCur == 0) fun d => d.each ((List.range 11).map (1 + ·)) fun d c =>
    d.setCordInfo c fun x => { x with wasOn := decide (1 ≤ d.cordSt c) && decide (d.cordSt c ≤ 3) }

theorem Dev.onsNoted_moves (d : Dev) : d.Moves [.pwr] (shown [] []) d.onsNoted :=
  (Dev.Moves.refl _ _ d).when _ _ fun x => (Dev.Moves.refl _ _ x).each _ _ fun y c _ => (Dev.Moves.refl _ _ y).setCordInfo _ _

theorem Dev.transSetup_banked (d : Dev) : d.transSetup 2 = d.onsNoted.bankEntry.transBegun 2 (d.onsNoted.transItems 2) := rfl

/-- The items of a request for BANKED, about one cord. -/
theorem Dev.transItems_banked (d : Dev) {c : Nat} (hc : 1 ≤ c) (hc' : c ≤ 11) :
    ∃ l1 l2, d.transItems 2 = l1 ++ (c, false) :: l2 ∧ ∀ x ∈ l1, x.2 = false ∧ c < x.1 ∧ x.1 ≤ 11 := by
  have hall : d.transItems 2 = ((List.range 11).map (11 - ·)).map fun c => (c, false) := by
    simp only [Dev.transItems, if_true, Dev.turnsOff, BEq.rfl, Bool.true_or, List.filter_true]
  have hsplit : ∀ c : Fin 12, 1 ≤ c.val →
      ((List.range 11).map (11 - ·)).map (fun c => (c, false)) = ((List.range (11 - c.val)).map fun k => (11 - k, false)) ++ (c.val, false) :: ((List.range (c.val - 1)).map fun k => (c.val - 1 - k, false)) := by
    decide
  refine ⟨_, _, hall.trans (hsplit ⟨c, by omega⟩ hc), fun x hx => ?_⟩
  simp only [List.mem_map, List.mem_range] at hx
  obtain ⟨k, hk, rfl⟩ := hx
  exact ⟨rfl, by omega, by omega⟩

/-- An item of a cord in service that is to go off starts its drain. -/
def Dev.drainsItem (d : Dev) (c : Nat) (l : List (Nat × Bool)) : Dev :=
  (((d.noteDone c false).startDrain c .trans).when (decide (c ≤ 3) && d.role (c - 1) == 5) fun d => (d.setRole (c - 1) 0).sprShow).setTrans fun r => { r with todo := (c, false) :: l }

theorem Dev.goOn_drain {d : Dev} {t : Trans} (ht : d.pwr.trans = some t) (h : d.Unabort t) {c : Nat} (hc : c ≤ 11) (hst : d.cordSt c = 2 ∨ d.cordSt c = 3)
    (l : List (Nat × Bool)) : Dev.goOn ((c, false) :: l) d = (d.drainsItem c l, false) := by
  have hp : d.inProgress c = false := by rcases hst with hst | hst <;> simp [Dev.inProgress, hst] <;> omega
  have hs : d.switchItem c false = (((d.noteDone c false).startDrain c .trans).when (decide (c ≤ 3) && d.role (c - 1) == 5) fun d => (d.setRole (c - 1) 0).sprShow, false) := by
    unfold Dev.switchItem
    rw [if_neg (show c ≠ 20 by omega), hp, if_neg (by simp), if_neg (show c ≠ 21 by omega)]
    dsimp only
    rw [if_neg (by omega), if_neg (by simp), if_neg (by omega)]
  rw [Dev.goOn, ht]
  simp only [hp, Bool.false_eq_true, if_false, h.none_of (c := c) (on := false) (by simp), hs]
  rfl

theorem Dev.startDrain_trans (d : Dev) (c : Nat) (why : Why) : (d.startDrain c why).pwr.trans = d.pwr.trans := by
  unfold Dev.startDrain
  rw [(Dev.txRefresh_goes _).parts .pwr (by decide)]
  have h := (d.withdraw_goes c).parts .pwr (by decide)
  generalize d.withdraw c = e at *
  exact (congrArg PwrSt.trans h : e.pwr.trans = d.pwr.trans)

theorem Dev.startDrain_clear (d : Dev) {c : Nat} (hc : c ≤ 11) (why : Why) : d.StaysClear (d.startDrain c why) := by
  unfold Dev.startDrain
  refine (((d.withdraw_clear hc).set (F.hrtPwrCordSt c) 6 ?_).setCordInfo _ _).txRefresh
  simp only [F.hrtPwrCordSt, R.hrtPwrCord]
  omega

/-- What the drain of the first cord leaves. -/
theorem Dev.drainsItem_shows {d : Dev} {t : Trans} (ht : d.pwr.trans = some t) (hdone : t.done = []) (hback : t.back = false) {c : Nat} (hc : 1 ≤ c) (hc' : c ≤ 11)
    (l : List (Nat × Bool)) :
    (d.drainsItem c l).cordSt c = 6 ∧ ((d.drainsItem c l).cordInfo c).why = .trans
      ∧ ((d.drainsItem c l).pwr.trans.map fun x => (x.target, x.done, x.back)) = some (t.target, [(c, false)], false)
      ∧ (∀ f : Fld, f.addr = R.hrtPwrState → (d.drainsItem c l).get f = d.get f) ∧ (d.drainsItem c l).ember = d.ember ∧ d.StaysClear (d.drainsItem c l) := by
  obtain ⟨hst, hwhy⟩ := (d.noteDone c false).startDrain_shows hc (by omega) .trans
  have htr := (d.noteDone c false).startDrain_trans c .trans
  have hsp := (d.noteDone c false).startDrain_spares c .trans
  have hem : ((d.noteDone c false).startDrain c .trans).ember = d.ember := ((d.noteDone c false).startDrain_goes c .trans).parts .ember (by decide)
  have hcl : d.StaysClear ((d.noteDone c false).startDrain c .trans) := (d.noteDone c false).startDrain_clear hc' .trans
  have hnote : (d.noteDone c false).pwr.trans = some { t with done := t.done ++ [(c, false)] } := congrArg (Option.map _) ht
  have hstate : ∀ f : Fld, f.addr = R.hrtPwrState → ((d.noteDone c false).startDrain c .trans).get f = d.get f := fun f hf =>
    hsp.get (by rw [hf]; decide) (by simp only [hf, List.mem_singleton, R.hrtPwrState, R.hrtPwrCord]; omega)
  unfold Dev.drainsItem
  rw [hnote] at htr
  generalize (d.noteDone c false).startDrain c .trans = e at *
  have hrole : e.Moves [] (fun a => c ≤ 3 ∧ a ∈ sprRegs (c - 1)) (e.when (decide (c ≤ 3) && d.role (c - 1) == 5) fun d => (d.setRole (c - 1) 0).sprShow) := by
    unfold Dev.when
    split
    next h =>
      have h3 : c ≤ 3 := by simpa using (Bool.and_eq_true_iff.1 h).1
      refine ⟨((e.setRole_goes _ _).thn (Dev.sprShow_goes _)).parts, fun a ha => ?_, ((e.setRole_goes _ _).thn (Dev.sprShow_goes _)).form⟩
      have hno : a ∉ sprRegs (c - 1) := fun hm => ha ⟨h3, hm⟩
      exact (Dev.reg_set_ne _ _ fun hm => hno (by simp [sprRegs, hm, F.hrtSprStatState])).trans (e.setRole_only (c - 1) 0 a hno (by simp))
    · exact .refl _ _ e
  generalize (e.when (decide (c ≤ 3) && d.role (c - 1) == 5) fun d => (d.setRole (c - 1) 0).sprShow) = x at *
  have hspr : ∀ a, c ≤ 3 ∧ a ∈ sprRegs (c - 1) → 0x2000C ≤ a ∧ a ≤ 0x20020 := fun a ⟨h3, hm⟩ => by
    simp only [sprRegs, List.mem_cons, List.not_mem_nil, or_false, R.hrtSprEng, R.hrtSprStat] at hm
    omega
  have hget : ∀ f : Fld, 0x50000 ≤ f.addr → x.get f = e.get f := fun f hf => hrole.get fun hm => by
    have := hspr _ hm
    omega
  have hpwr : x.pwr = e.pwr := hrole.parts .pwr (by decide)
  refine ⟨?_, ?_, ?_, fun f hf => (hget f (by rw [hf]; decide)).trans (hstate f hf), (hrole.parts .ember (by decide)).trans hem,
    hcl.thn fun g hg hz => (hget g (by omega)).trans hz⟩
  · rw [Dev.cordSt_of_get hc] at hst ⊢
    exact (hget _ (by simp only [F.hrtPwrCordSt, R.hrtPwrCord]; omega)).trans hst
  · exact (congrArg CordSt.why (Dev.cordInfo_congr hpwr c)).trans hwhy
  · have htrx : x.pwr.trans = some { t with done := t.done ++ [(c, false)] } := by rw [hpwr, htr]
    simp only [Dev.setTrans, Dev.setPwr, htrx, Option.map_some, hdone, hback, List.nil_append]

/-! ### The ports that DOZE takes (R395) -/

theorem isEvt_low {a : Nat} (h : a < 0x80000) : isEvt a = false := by
  rw [isEvt, Bool.and_eq_false_iff]
  exact .inl (decide_eq_false (by omega))

theorem isEvt_high {a : Nat} (h : 0x81000 ≤ a) : isEvt a = false := by
  rw [isEvt, Bool.and_eq_false_iff]
  exact .inr (decide_eq_false (by omega))

theorem of_isEvt_false {a : Nat} (h : isEvt a = false) : a < 0x80000 ∨ 0x81000 ≤ a := by
  rcases Bool.and_eq_false_iff.1 h with h | h
  · exact .inl (Nat.lt_of_not_le (of_decide_eq_false h))
  · exact .inr (Nat.le_of_not_lt (of_decide_eq_false h))

theorem hsBase_ne {p q k : Nat} (h : p ≠ q) (hk : k < 0x10000) (j : Nat) (hj : j < 0x10000) : hsBase 0x40 p + j ≠ hsBase 0x40 q + k := by
  simp only [hsBase]
  omega

/-- What a port that parks changes, beside the event sources, lies in its own block, in its lanes', and in BUF. -/
theorem notMem_parkRegs {p q k : Nat} (h : p ≠ q) (hk : k < 0x10000) (ls : List Nat) : hsBase 0x40 q + k ∉ parkRegs p ls := by
  intro hm
  simp only [parkRegs, List.mem_append, List.mem_cons, List.not_mem_nil, or_false, List.mem_map] at hm
  rcases hm with ((hm | hm | hm) | hm) | ⟨l, -, hl⟩
  · exact hsBase_ne h hk 0x1C (by decide) hm.symm
  · exact hsBase_ne h hk 0x204 (by decide) hm.symm
  · exact hsBase_ne h hk 0x300 (by decide) hm.symm
  · have hb := hsBase_ge 0x40 q
    obtain ⟨h1, h2⟩ := (linkRegs_range hm).2 (by omega)
    simp only [hsBase] at h1 h2
    omega
  · simp only [R.hsLnStat, hsBase] at hl
    omega

theorem parkRegs_ge {p a : Nat} {ls : List Nat} (h : a ∈ parkRegs p ls) : 0x9000000 ≤ a := by
  simp only [parkRegs, List.mem_append, List.mem_cons, List.not_mem_nil, or_false, List.mem_map] at h
  have hb := hsBase_ge 0x40 p
  rcases h with ((rfl | rfl | rfl) | h) | ⟨l, -, rfl⟩
  · simp only [R.hsMacFcstat]; omega
  · simp only [R.hsMacLpistat]; omega
  · simp only [R.hsMacPark]; omega
  · exact (linkRegs_range h).1
  · have := hsBase_ge 0 l
    simp only [R.hsLnStat]
    omega

theorem Dev.park_only (d : Dev) (p : Nat) : d.Only (parkRegs p (d.lanesOf p)) (0xCE :: linkEvents) (d.park p) := by
  obtain ⟨-, hlost, -⟩ := d.macLost_shows p
  unfold Dev.park Dev.pauseStat
  dsimp only
  have h1 : d.Only (parkRegs p (d.lanesOf p)) (0xCE :: linkEvents) (d.macLost p) :=
    Dev.Only.mono (fun _ h => List.mem_append_left _ (List.mem_append_right _ h)) (fun _ h => List.mem_cons_of_mem _ h) hlost
  generalize d.macLost p = a at *
  have h2 : a.Only (parkRegs p (d.lanesOf p)) (0xCE :: linkEvents) (a.each (d.lanesOf p) fun d l => d.setStage l 0) :=
    Dev.Only.mono (fun _ h => List.mem_append_right _ h) (by simp) (a.stagesOff_shows (d.lanesOf p)).1
  have hmem : ∀ x ∈ [R.hsMacFcstat p, R.hsMacLpistat p, R.hsMacPark p], x ∈ parkRegs p (d.lanesOf p) := fun x hx =>
    List.mem_append_left _ (List.mem_append_left _ hx)
  generalize (a.each (d.lanesOf p) fun d l => d.setStage l 0) = b at *
  have h3 : d.Only (parkRegs p (d.lanesOf p)) (0xCE :: linkEvents) (b.setMac p fun m => { m with pause := 0, pfc := [], wakeAt := 0 }) :=
    (h1.trans h2).congr (Dev.setMac_keeps _ _ _).1
  generalize (b.setMac p fun m => { m with pause := 0, pfc := [], wakeAt := 0 }) = c at *
  exact (((((((h3.setFlag _ _ (hmem _ (by simp [F.hsMacFcstatTxpaused]))).set _ _ (hmem _ (by simp [F.hsMacFcstatPfcstop]))).set _ _
    (hmem _ (by simp [F.hsMacFcstatXoffact]))).set _ _ (hmem _ (by simp [F.hsMacLpistatTxlpi]))).set _ _ (hmem _ (by simp [F.hsMacLpistatRxlpi]))).set _ _
    (hmem _ (by simp [F.hsMacParkPark]))).set _ _ (hmem _ (by simp [F.hsMacParkPstate]))).raise _ _ (by simp)

/-- One port as DOZE takes it. -/
def Dev.dozePort (d : Dev) (p : Nat) : Dev :=
  if !d.released (hsCord p) || d.get (F.hsMacBondLanes p) = 0 || d.get (F.hsMacParkPstate p) = 1 then d
  else if d.get (F.hsMacBondClass p) = 0 && d.flag (F.hsMacLpiEn p) then
    d.when (d.linkUp p && !d.flag (F.hsMacLpistatTxlpi p) && (d.mac p).cur.isNone) fun d =>
      (d.set (F.hsMacLpistatTxlpi p) 1).count (F.hsMacLpistatTxlpicnt p) 1
  else (d.park p).setPwr fun x => { x with parked := x.parked ++ [p] }

theorem Dev.dozePorts_eq (d : Dev) : d.dozePorts = d.each (List.range 96) Dev.dozePort := rfl

/-- What a port taken into DOZE leaves: everything below BUF but the event sources, the other ports, the cords, the transition. -/
structure Dev.DozeKept (q : Nat → Prop) (d e : Dev) : Prop where
  regs : ∀ a, a < 0x9000000 → isEvt a = false → e.reg a = d.reg a
  ports : ∀ p, q p → ∀ k, k < 0x10000 → e.reg (hsBase 0x40 p + k) = d.reg (hsBase 0x40 p + k)
  cords : e.pwr.cords = d.pwr.cords
  trans : e.pwr.trans = d.pwr.trans
  parked : ∀ p ∈ d.pwr.parked, p ∈ e.pwr.parked

theorem Dev.DozeKept.refl (q : Nat → Prop) (d : Dev) : d.DozeKept q d := ⟨fun _ _ _ => rfl, fun _ _ _ _ => rfl, rfl, rfl, fun _ h => h⟩

theorem Dev.DozeKept.thn {q : Nat → Prop} {d e f : Dev} (h : d.DozeKept q e) (k : e.DozeKept q f) : d.DozeKept q f :=
  ⟨fun a ha he => (k.regs a ha he).trans (h.regs a ha he), fun p hp j hj => (k.ports p hp j hj).trans (h.ports p hp j hj), k.cords.trans h.cords, k.trans.trans h.trans,
    fun p hp => k.parked p (h.parked p hp)⟩

theorem Dev.DozeKept.of_only {q : Nat → Prop} {d e : Dev} {p : Nat} {ls evs : List Nat} (h : d.Only (parkRegs p ls) evs e) (he : ∀ n ∈ evs, n < 0x100)
    (hq : ∀ r, q r → r ≠ p) (hpwr : e.pwr.cords = d.pwr.cords ∧ e.pwr.trans = d.pwr.trans ∧ ∀ p ∈ d.pwr.parked, p ∈ e.pwr.parked) : d.DozeKept q e := by
  have hevt : ∀ a, isEvt a = false → ∀ n ∈ evs, a ∉ evtRegs n := fun a ha n hn hm => by
    rw [isEvt_of_evtRegs (he n hn) hm] at ha
    exact absurd ha (by simp)
  refine ⟨fun a ha hae => h a (fun hm => by have := parkRegs_ge hm; omega) (hevt a hae), fun r hr k hk => h _ (notMem_parkRegs (hq r hr).symm hk ls) (hevt _ ?_), hpwr.1, hpwr.2.1, hpwr.2.2⟩
  have := hsBase_ge 0x40 r
  simp only [isEvt, Bool.and_eq_false_iff, decide_eq_false_iff_not]
  omega

theorem Dev.dozePort_kept (d : Dev) (p : Nat) {q : Nat → Prop} (hq : ∀ r, q r → r ≠ p) : d.DozeKept q (d.dozePort p) := by
  have hmem : R.hsMacLpistat p ∈ parkRegs p [] := by simp [parkRegs]
  unfold Dev.dozePort
  split
  · exact .refl _ d
  · split
    · have hlpi : d.Only (parkRegs p []) [] (d.when (d.linkUp p && !d.flag (F.hsMacLpistatTxlpi p) && (d.mac p).cur.isNone) fun d =>
          (d.set (F.hsMacLpistatTxlpi p) 1).count (F.hsMacLpistatTxlpicnt p) 1) :=
        (Dev.Only.refl _ _ d).when _ _ fun _ => ((Dev.Only.refl _ _ d).set _ _ hmem).count _ _ hmem
      have hpwr : (d.when (d.linkUp p && !d.flag (F.hsMacLpistatTxlpi p) && (d.mac p).cur.isNone) fun d =>
          (d.set (F.hsMacLpistatTxlpi p) 1).count (F.hsMacLpistatTxlpicnt p) 1).pwr = d.pwr :=
        ((Dev.Goes.refl [] d).when _ _ fun x => ((Dev.Goes.refl [] x).set _ _).count _ _).parts .pwr (by decide)
      exact .of_only hlpi (by simp) hq (by simp [hpwr])
    · have hpark := d.park_only p
      have hpwr : (d.park p).pwr = d.pwr := (d.park_goes p).parts .pwr (by decide)
      generalize d.park p = e at *
      refine .of_only (evs := 0xCE :: linkEvents) hpark (by decide) hq ⟨?_, ?_, fun r hr => List.mem_append_left _ ?_⟩
      · exact (congrArg PwrSt.cords hpwr : e.pwr.cords = d.pwr.cords)
      · exact (congrArg PwrSt.trans hpwr : e.pwr.trans = d.pwr.trans)
      · rw [hpwr]
        exact hr

theorem Dev.dozePort_each (d : Dev) (l : List Nat) {q : Nat → Prop} (hq : ∀ p ∈ l, ∀ r, q r → r ≠ p) : d.DozeKept q (d.each l Dev.dozePort) :=
  Dev.each_keeps (P := fun x : Dev => d.DozeKept q x) l _ (fun x p hp h => h.thn (x.dozePort_kept p (hq p hp))) d (.refl q d)

/-- A port of a class beside the service ports is parked. -/
theorem Dev.dozePort_parks {d : Dev} {p : Nat} (hrel : d.released (hsCord p) = true) (hl : d.get (F.hsMacBondLanes p) ≠ 0) (hc : d.get (F.hsMacBondClass p) ≠ 0)
    (hp : d.get (F.hsMacParkPstate p) ≠ 1) : (d.dozePort p).get (F.hsMacParkPstate p) = 1 ∧ p ∈ (d.dozePort p).pwr.parked := by
  obtain ⟨-, hstate, -⟩ := d.park_shows p
  unfold Dev.dozePort
  rw [if_neg (by simp [hrel, hl, hp]), if_neg (by simp [hc])]
  exact ⟨hstate, List.mem_append_right _ (List.mem_singleton_self p)⟩

/-- The ports as DOZE takes them. -/
theorem Dev.dozePorts_parks {d : Dev} {q : Nat} (hq : q < 96) (hrel : d.released (hsCord q) = true) (hl : d.get (F.hsMacBondLanes q) ≠ 0) (hc : d.get (F.hsMacBondClass q) ≠ 0)
    (hp : d.get (F.hsMacParkPstate q) ≠ 1) : d.dozePorts.get (F.hsMacParkPstate q) = 1 ∧ q ∈ d.dozePorts.pwr.parked := by
  have hsplit : List.range 96 = List.range q ++ q :: (List.range (95 - q)).map (q + 1 + ·) := by
    rw [show 96 = q + (1 + (95 - q)) by omega, List.range_add, List.range_add, List.map_append, List.map_map]
    congr 2
    simp
  have hbefore := d.dozePort_each (List.range q) (q := (· = q)) fun p hp r hr => by
    have := List.mem_range.1 hp
    omega
  rw [Dev.dozePorts_eq, hsplit, Dev.each, List.foldl_append, List.foldl_cons]
  change ((Dev.each _ _ _ : Dev).get _ = 1 ∧ q ∈ (Dev.each _ _ _ : Dev).pwr.parked)
  change d.DozeKept (· = q) (List.foldl Dev.dozePort d (List.range q)) at hbefore
  generalize List.foldl Dev.dozePort d (List.range q) = b at *
  have hget : ∀ f : Fld, ∀ k < 0x10000, f.addr = hsBase 0x40 q + k → b.get f = d.get f := fun f k hk hf => congrArg f.of (hf ▸ hbefore.ports q rfl k hk)
  have hcord : b.released (hsCord q) = d.released (hsCord q) := by
    have h1 : ∀ n < 0x100, b.cordSt n = d.cordSt n := fun n hn => by
      have hreg : b.get (F.hrtPwrCordSt n) = d.get (F.hrtPwrCordSt n) := congrArg (F.hrtPwrCordSt n).of (hbefore.regs _ (by simp only [F.hrtPwrCordSt, R.hrtPwrCord]; omega)
        (isEvt_low (by simp only [F.hrtPwrCordSt, R.hrtPwrCord]; omega)))
      simp only [Dev.cordSt, hreg]
    rw [Dev.released, h1 _ (by simp only [hsCord]; omega), Dev.released]
  obtain ⟨hst, hmem⟩ := Dev.dozePort_parks (d := b) (hcord.trans hrel) (by rw [hget (F.hsMacBondLanes q) 0 (by decide) rfl]; exact hl)
    (by rw [hget (F.hsMacBondClass q) 0 (by decide) rfl]; exact hc) (by rw [hget (F.hsMacParkPstate q) 0x300 (by decide) rfl]; exact hp)
  generalize b.dozePort q = c at *
  have hafter := c.dozePort_each ((List.range (95 - q)).map (q + 1 + ·)) (q := (· = q)) fun p hp r hr => by
    obtain ⟨x, -, rfl⟩ := List.mem_map.1 hp
    omega
  exact ⟨(congrArg (F.hsMacParkPstate q).of (hafter.ports q rfl 0x300 (by decide))).trans hst, hafter.parked q hmem⟩

theorem Dev.dozePorts_kept (d : Dev) : d.DozeKept (fun _ => False) d.dozePorts := d.dozePort_each _ fun _ _ _ h => absurd h id

/-- A run of PKT goes on with the first pair that has entries. -/
theorem Dev.nextPair_finds (r : PktRun) (d : Dev) : ∀ l : List Nat, (∃ p ∈ l, d.entriesOf p ≠ []) →
    ∃ l1 p l2, l = l1 ++ p :: l2 ∧ (∀ q ∈ l1, d.entriesOf q = []) ∧ d.entriesOf p ≠ []
      ∧ Dev.nextPair r l d = (d.setPkt fun x => { x with run := some { r with pairs := l2, cur := some p, held := d.entriesOf p, moved := [] } }, false)
  | [], h => absurd h (by simp)
  | p :: l, h => by
    by_cases hp : d.entriesOf p = []
    · have hl : ∃ p ∈ l, d.entriesOf p ≠ [] := by
        obtain ⟨q, hq, he⟩ := h
        rcases List.mem_cons.1 hq with rfl | hq
        · exact absurd hp he
        · exact ⟨q, hq, he⟩
      obtain ⟨l1, q, l2, rfl, hno, he, hn⟩ := Dev.nextPair_finds r d l hl
      refine ⟨p :: l1, q, l2, rfl, ?_, he, ?_⟩
      · simpa [hp] using hno
      · rw [Dev.nextPair, hp]
        exact hn
    · refine ⟨[], p, l, rfl, by simp, hp, ?_⟩
      rw [Dev.nextPair, if_neg (by simpa using hp)]

/-- A request for BANKED: the record, the rings, and the drain of the first cord in service (R394, R397, R398). -/
theorem Dev.startRequest_banked {e : Dev} {c : Nat} (hno : e.refuser 2 = none) (hc : 1 ≤ c) (hc' : c ≤ 11) (hst : e.cordSt c = 2 ∨ e.cordSt c = 3)
    (hoff : ∀ j, c < j → j ≤ 11 → e.cordSt j = 0) :
    let x := e.startRequest 2
    x.get F.hrtPwrStateTgt = 2 ∧ x.get F.hrtPwrStateBusy = 1 ∧ x.get F.hrtPwrStateCur = e.get F.hrtPwrStateCur ∧ x.get F.hrtPwrStatePend = e.get F.hrtPwrStatePend
      ∧ x.cordSt c = 6 ∧ (x.cordInfo c).why = .trans ∧ (x.pwr.trans.map fun y => (y.target, y.done, y.back)) = some (2, [(c, false)], false)
      ∧ (∀ i < 44, Tbl.get 0 x.ember.bytes (3 * 2 ^ 21 + i) = e.bankRecord.getD i 0) ∧ (∀ (tx : Bool) (r : Nat), r < 2048 → x.get (ringEn tx r) = 0) := by
  intro x
  have hnoted := e.onsNoted_moves
  obtain ⟨l1, l2, hitems, hl1⟩ := e.onsNoted.transItems_banked hc hc'
  have hgo : e.startRequest 2 = (e.onsNoted.bankEntry.transBegun 2 (e.onsNoted.transItems 2)).drainsItem c l2 := by
    refine Dev.startRequest_on hno ?_
    have hcord : ∀ k < 0x100, (e.onsNoted.bankEntry.transBegun 2 (e.onsNoted.transItems 2)).cordSt k = e.cordSt k := fun k hk => by
      rw [(e.onsNoted.bankEntry.transBegun_same 2 _).cordSt, (e.onsNoted.bankEntry_shows).2.2.cordSt hk (by simp)]
      exact hnoted.cordSt hk (by simp) (by simp)
    have htrans : (e.onsNoted.bankEntry.transBegun 2 (e.onsNoted.transItems 2)).pwr.trans = some { target := 2, todo := e.onsNoted.transItems 2 } := by rw [Dev.transBegun_pwr]
    rw [Dev.transSetup_banked, Dev.transStep_begun, hitems]
    rw [hitems] at hcord htrans
    have hun : (e.onsNoted.bankEntry.transBegun 2 (l1 ++ (c, false) :: l2)).Unabort { target := 2, todo := l1 ++ (c, false) :: l2 } :=
      ⟨rfl, fun h => absurd h (by simp), fun h => absurd h (by simp)⟩
    rw [Dev.goOn_offs htrans hun fun y hy => by
      obtain ⟨h1, h2, h3⟩ := hl1 y hy
      exact ⟨h1, h3, (hcord _ (by omega)).trans (hoff _ h2 h3)⟩]
    exact Dev.goOn_drain htrans hun hc' (by rwa [hcord _ (by omega)]) l2
  have hrec : e.onsNoted.bankRecord = e.bankRecord :=
    Dev.bankRecord_congr (fun a _ => hnoted.regs a (by simp [shown])) (hnoted.parts .time (by decide)) (hnoted.parts .waves (by decide))
  have hnget : ∀ f : Fld, e.onsNoted.get f = e.get f := fun f => hnoted.get (by simp [shown])
  obtain ⟨hbytes, hrings, hsp⟩ := e.onsNoted.bankEntry_shows
  have hstate : ∀ f : Fld, f.addr = R.hrtPwrState → e.onsNoted.bankEntry.get f = e.get f := fun f hf => (hsp.get (by rw [hf]; decide) (by simp)).trans (hnget f)
  obtain ⟨htgt, hbusy, hcur, hpend, hm⟩ := e.onsNoted.bankEntry.transBegun_shows (t := 2) (by decide) (e.onsNoted.transItems 2)
  have htrans : (e.onsNoted.bankEntry.transBegun 2 (e.onsNoted.transItems 2)).pwr.trans = some { target := 2, todo := e.onsNoted.transItems 2 } := by rw [Dev.transBegun_pwr]
  rw [hrec] at hbytes
  have hx : x = (e.onsNoted.bankEntry.transBegun 2 (e.onsNoted.transItems 2)).drainsItem c l2 := hgo
  clear_value x
  subst hx
  generalize e.onsNoted.bankEntry = k at *
  obtain ⟨hst', hwhy, hmap, hget, hember, hclear⟩ := Dev.drainsItem_shows htrans rfl rfl hc hc' l2
  generalize k.transBegun 2 (e.onsNoted.transItems 2) = b at *
  have hem : (b.drainsItem c l2).ember = k.ember := hember.trans (hm.parts .ember (by decide))
  refine ⟨(hget _ rfl).trans htgt, (hget _ rfl).trans hbusy, (hget _ rfl).trans (hcur.trans (hstate _ rfl)), (hget _ rfl).trans (hpend.trans (hstate _ rfl)), hst', hwhy, hmap,
    fun i hi => by rw [hem]; exact hbytes i hi, fun tx r hr => hclear _ ?_ ?_⟩
  · rw [ringEn_addr]
    cases tx <;> simp <;> omega
  · exact (hm.get (not_shown (by rw [ringEn_addr]; cases tx <;> simp [R.hrtPwrState] <;> omega) (.inr (by rw [ringEn_addr]; cases tx <;> simp <;> omega)) (by simp))).trans (hrings tx r hr)

/-! #### A request for DOZE out of FULL (R395) -/

theorem Dev.entriesOf_congr {d e : Dev} (h : ∀ i < 256, e.get (F.pktSprMapSlice i) = d.get (F.pktSprMapSlice i)) (p : Nat) : e.entriesOf p = d.entriesOf p :=
  List.filter_congr fun i hi => by rw [h i (List.mem_range.1 hi)]

/-- The ports, and the first pair of slices given up. -/
def Dev.dozeItems (d : Dev) (l : List (Nat × Bool)) : Dev :=
  ((d.dozePorts.noteDone 20 false).noteDone 21 false).startShrink.1.setTrans fun r => { r with todo := (21, false) :: l }

theorem Dev.goOn_doze {d : Dev} {t : Trans} (ht : d.pwr.trans = some t) (h : d.Unabort t) (h' : ∀ u : Trans, u.abort = none → u.target = t.target → (d.dozePorts.noteDone 20 false).Unabort u)
    (hrun : d.pkt.run = none) (hrel : (d.dozePorts.noteDone 20 false).released 8 = true) (hsome : ∃ i < 256, 6 ≤ (d.dozePorts.noteDone 20 false).get (F.pktSprMapSlice i))
    (hgoes : ((d.dozePorts.noteDone 20 false).noteDone 21 false).startShrink.2 = false) (l : List (Nat × Bool)) :
    Dev.goOn ((20, false) :: (21, false) :: l) d = (d.dozeItems l, false) := by
  have htr : (d.dozePorts.noteDone 20 false).pwr.trans = some { t with done := t.done ++ [(20, false)] } := congrArg (Option.map _) (d.dozePorts_kept.trans.trans ht)
  have hrun' : (d.dozePorts.noteDone 20 false).pkt.run = none := (congrArg PktSt.run (d.dozePorts_goes.parts .pkt (by decide))).trans hrun
  have hs20 : d.switchItem 20 false = (d.dozePorts.noteDone 20 false, true) := rfl
  have hp20 : d.inProgress 20 = false := rfl
  rw [Dev.goOn, ht]
  simp only [hp20, Bool.false_eq_true, if_false, h.none_of (c := 20) (on := false) (by simp), hs20, if_true]
  have h21 := h' { t with done := t.done ++ [(20, false)] } h.abort rfl
  unfold Dev.dozeItems
  generalize d.dozePorts.noteDone 20 false = e at *
  have hp21 : e.inProgress 21 = false := by simp [Dev.inProgress, hrun']
  have hsmall : ((List.range 256).all fun i => decide (e.get (F.pktSprMapSlice i) < 6)) = false := by
    obtain ⟨i, hi, h6⟩ := hsome
    exact List.all_eq_false.2 ⟨i, List.mem_range.2 hi, by simpa using h6⟩
  have hs21 : e.switchItem 21 false = (e.noteDone 21 false).startShrink := by
    unfold Dev.switchItem
    rw [if_neg (by decide), hp21, if_neg (by simp), if_pos rfl]
    dsimp only
    rw [if_neg (by simp [hrel, hsmall]), if_neg (by simp)]
  rw [Dev.goOn, htr]
  simp only [hp21, Bool.false_eq_true, if_false, h21.none_of (c := 21) (on := false) (by simp), hs21, hgoes]

theorem Dev.Unrefused.unabort_of {d e : Dev} {t : Nat} (h : d.Unrefused t) (hreg : ∀ a, a < 0x9000000 → isEvt a = false → a ≠ R.hrtPwrState → e.reg a = d.reg a)
    (hw : e.waves = d.waves) (hs : e.spr = d.spr) {u : Trans} (hu : u.target = t) (ha : u.abort = none) : e.Unabort u := by
  have hwl : e.get F.hrtPwrCfgDozewl = d.get F.hrtPwrCfgDozewl := congrArg F.hrtPwrCfgDozewl.of (hreg R.hrtPwrCfg (by decide) (by decide) (by decide))
  have hlt : d.get F.hrtPwrCfgDozewl < 2 := d.get_lt _
  have hst : e.get (F.lfActStatState (d.get F.hrtPwrCfgDozewl)) = d.get (F.lfActStatState (d.get F.hrtPwrCfgDozewl)) := by
    refine congrArg (F.lfActStatState (d.get F.hrtPwrCfgDozewl)).of (hreg _ ?_ ?_ ?_)
    · simp only [F.lfActStatState, R.lfActStat]
      omega
    · refine isEvt_high ?_
      simp only [F.lfActStatState, R.lfActStat]
      omega
    · simp only [F.lfActStatState, R.lfActStat, R.hrtPwrState]
      omega
  have hact : e.dozeActive = d.dozeActive := by simp only [Dev.dozeActive, hwl, hst, Dev.wave, hw]
  exact ⟨ha, fun h1 => hact.trans (h.active (hu ▸ h1)), fun h1 => by rw [hs, hwl]; exact h.bare (hu ▸ h1)⟩

/-- A map entry of a slice stands among those of its pair. -/
theorem Dev.mem_entriesOf {d : Dev} {i p : Nat} : i ∈ d.entriesOf p ↔ i < 256 ∧ d.get (F.pktSprMapSlice i) / 2 = p := by simp [Dev.entriesOf]

/-- The first pair given up is the highest of those with entries (R380, R395). -/
theorem Dev.startShrink_finds {d : Dev} (hsome : ∃ i < 256, 6 ≤ d.get (F.pktSprMapSlice i)) (hall : ∀ i < 256, d.get (F.pktSprMapSlice i) < 24) :
    ∃ r p, d.startShrink = (d.setPkt fun x => { x with run := some r }, false) ∧ r.shrink = true ∧ r.cur = some p ∧ 3 ≤ p ∧ r.held = d.entriesOf p ∧ r.held ≠ []
      ∧ ∀ q, p < q → d.entriesOf q = [] := by
  have hex : ∃ p ∈ (List.range 9).map (11 - ·), d.entriesOf p ≠ [] := by
    obtain ⟨i, hi, h6⟩ := hsome
    have h24 := hall i hi
    refine ⟨d.get (F.pktSprMapSlice i) / 2, List.mem_map.2 ⟨11 - d.get (F.pktSprMapSlice i) / 2, List.mem_range.2 (by omega), by omega⟩, ?_⟩
    exact List.ne_nil_of_mem (Dev.mem_entriesOf.2 ⟨hi, rfl⟩)
  obtain ⟨l1, p, l2, hl, hno, hp, hn⟩ := Dev.nextPair_finds { seed := d.get F.pktSprCfgSeed, shrink := true } d _ hex
  have hmem : ∀ q, q ∈ (List.range 9).map (11 - ·) ↔ 3 ≤ q ∧ q ≤ 11 := fun q => by
    simp only [List.mem_map, List.mem_range]
    exact ⟨fun ⟨k, hk, h⟩ => by omega, fun h => ⟨11 - q, by omega, by omega⟩⟩
  have hfall : ((List.range 9).map (11 - ·)).Pairwise (· > ·) := by decide
  refine ⟨_, p, hn, rfl, rfl, ((hmem p).1 (by rw [hl]; simp)).1, rfl, hp, fun q hq => ?_⟩
  by_cases h11 : q ≤ 11
  · have hin := (hmem q).2 ⟨by have := ((hmem p).1 (by rw [hl]; simp)).1; omega, h11⟩
    rw [hl] at hin hfall
    rcases List.mem_append.1 hin with h | h
    · exact hno q h
    · rcases List.mem_cons.1 h with rfl | h
      · exact absurd hq (Nat.lt_irrefl _)
      · have := (List.pairwise_cons.1 (List.pairwise_append.1 hfall).2.1).1 q h
        omega
  · refine List.eq_nil_iff_forall_not_mem.2 fun i hi => ?_
    obtain ⟨hi, hd⟩ := Dev.mem_entriesOf.1 hi
    have := hall i hi
    omega

theorem Dev.shrinks_of_map {e y : Dev} (hmap : ∀ i < 256, y.get (F.pktSprMapSlice i) = e.get (F.pktSprMapSlice i)) (hsome : ∃ i < 256, 6 ≤ e.get (F.pktSprMapSlice i))
    (hall : ∀ i < 256, e.get (F.pktSprMapSlice i) < 24) :
    ∃ r p, y.startShrink = (y.setPkt fun x => { x with run := some r }, false)
      ∧ r.shrink = true ∧ r.cur = some p ∧ 3 ≤ p ∧ r.held = e.entriesOf p ∧ r.held ≠ [] ∧ ∀ q, p < q → e.entriesOf q = [] := by
  have hsome' : ∃ i < 256, 6 ≤ y.get (F.pktSprMapSlice i) := by
    obtain ⟨i, hi, h6⟩ := hsome
    exact ⟨i, hi, Nat.le_trans h6 (Nat.le_of_eq (hmap i hi).symm)⟩
  obtain ⟨r, p, hshrink, hr1, hr2, hr3, hr4, hr5, hr6⟩ := Dev.startShrink_finds hsome' fun i hi => Nat.lt_of_le_of_lt (Nat.le_of_eq (hmap i hi)) (hall i hi)
  exact ⟨r, p, hshrink, hr1, hr2, hr3, hr4.trans (Dev.entriesOf_congr hmap p), hr5, fun q hq => (Dev.entriesOf_congr hmap q).symm.trans (hr6 q hq)⟩

theorem Dev.get_noteDone (d : Dev) (c : Nat) (on : Bool) (f : Fld) : (d.noteDone c on).get f = d.get f := rfl

/-- The transition to DOZE as it stands before its first item. -/
structure Dev.DozeBegun (e b : Dev) (l : List (Nat × Bool)) : Prop where
  tgt : b.get F.hrtPwrStateTgt = 1
  busy : b.get F.hrtPwrStateBusy = 1
  cur : b.get F.hrtPwrStateCur = 0
  pend : b.get F.hrtPwrStatePend = e.get F.hrtPwrStatePend
  moves : e.Moves [.pwr] (shown [R.hrtPwrState] []) b
  trans : b.pwr.trans = some { target := 1, todo := (20, false) :: (21, false) :: l }

theorem Dev.transSetup_doze {e : Dev} (hcur : e.get F.hrtPwrStateCur = 0) : ∃ l, e.transSetup 1 = e.onsNoted.transBegun 1 ((20, false) :: (21, false) :: l)
    ∧ e.DozeBegun (e.onsNoted.transBegun 1 ((20, false) :: (21, false) :: l)) l := by
  have hnoted := e.onsNoted_moves
  have hnget : ∀ f : Fld, e.onsNoted.get f = e.get f := fun f => hnoted.get (by simp [shown])
  obtain ⟨l, hitems⟩ : ∃ l, e.onsNoted.transItems 1 = (20, false) :: (21, false) :: l := by
    have hc : e.onsNoted.get F.hrtPwrStateCur = 0 := (hnget _).trans hcur
    exact ⟨_, by simp only [Dev.transItems, show ¬((1 : Nat) = 2) by decide, if_false, if_true, hc, List.cons_append, List.nil_append]; rfl⟩
  obtain ⟨htgt, hbusy, hcur', hpend, hm⟩ := e.onsNoted.transBegun_shows (t := 1) (by decide) ((20, false) :: (21, false) :: l)
  refine ⟨l, ?_, htgt, hbusy, hcur'.trans ((hnget _).trans hcur), hpend.trans (hnget _), (hnoted.mono (by decide) (shown_mono (by simp) (by simp))).trans hm, by rw [Dev.transBegun_pwr]⟩
  rw [← hitems]
  rfl

section
variable {e b : Dev} {l : List (Nat × Bool)} (h : e.DozeBegun b l)
include h

theorem Dev.DozeBegun.reg {a : Nat} (ha : a < 0x80000 ∨ 0x81000 ≤ a) (hne : a ≠ R.hrtPwrState) : b.reg a = e.reg a :=
  h.moves.regs a (not_shown (by simpa using hne) ha (by simp))

theorem Dev.DozeBegun.portsReg {a : Nat} (ha : a < 0x9000000) (hev : isEvt a = false) (hne : a ≠ R.hrtPwrState) : b.dozePorts.reg a = e.reg a :=
  (b.dozePorts_kept.regs a ha hev).trans (h.reg (of_isEvt_false hev) hne)

theorem Dev.DozeBegun.map : ∀ i < 256, b.dozePorts.get (F.pktSprMapSlice i) = e.get (F.pktSprMapSlice i) := fun i hi => by
  refine congrArg (F.pktSprMapSlice i).of (h.portsReg ?_ (isEvt_high ?_) ?_)
  · simp only [F.pktSprMapSlice, R.pktSprMap]
    omega
  · simp only [F.pktSprMapSlice, R.pktSprMap]
    omega
  · simp only [F.pktSprMapSlice, R.pktSprMap, R.hrtPwrState]
    omega

omit h in
theorem Dev.released_congr {d y : Dev} {n : Nat} (hn : n < 0x100) (hy : ∀ a, a < 0x80000 → a ≠ R.hrtPwrState → y.reg a = d.reg a) : y.released n = d.released n := by
  have hst : y.get (F.hrtPwrCordSt n) = d.get (F.hrtPwrCordSt n) :=
    congrArg (F.hrtPwrCordSt n).of (hy _ (by simp only [F.hrtPwrCordSt, R.hrtPwrCord]; omega) (by simp only [F.hrtPwrCordSt, R.hrtPwrCord, R.hrtPwrState]; omega))
  simp only [Dev.released, Dev.cordSt, hst]

theorem Dev.DozeBegun.goes (hun : e.Unrefused 1) (hrel : e.released 8 = true) (hrun : e.pkt.run = none) (hsome : ∃ i < 256, 6 ≤ e.get (F.pktSprMapSlice i))
    (hgoes : ((b.dozePorts.noteDone 20 false).noteDone 21 false).startShrink.2 = false) :
    Dev.goOn ((20, false) :: (21, false) :: l) b = (b.dozeItems l, false) := by
  have hparts := b.dozePorts_goes
  have hrelY : (b.dozePorts.noteDone 20 false).released 8 = true :=
    (Dev.released_congr (y := b.dozePorts.noteDone 20 false) (by decide) fun a ha hne => h.portsReg (by omega) (isEvt_low ha) hne).trans hrel
  refine Dev.goOn_doze h.trans ?_ (fun u ha hu => ?_) ((congrArg PktSt.run (h.moves.parts .pkt (by decide))).trans hrun) hrelY ?_ hgoes l
  · exact hun.unabort_of (fun a _ hev hne => h.reg (of_isEvt_false hev) hne) (h.moves.parts .waves (by decide)) (h.moves.parts .spr (by decide)) rfl rfl
  · exact hun.unabort_of (e := b.dozePorts.noteDone 20 false) (fun a ha hev hne => h.portsReg ha hev hne)
      ((hparts.parts .waves (by decide)).trans (h.moves.parts .waves (by decide))) ((hparts.parts .spr (by decide)).trans (h.moves.parts .spr (by decide))) hu ha
  · obtain ⟨i, hi, h6⟩ := hsome
    exact ⟨i, hi, Nat.le_trans h6 (Nat.le_of_eq (h.map i hi).symm)⟩

theorem Dev.DozeBegun.parks {q : Nat} (hq : q < 96) (hrel : e.released (hsCord q) = true) (hl : e.get (F.hsMacBondLanes q) ≠ 0) (hc : e.get (F.hsMacBondClass q) ≠ 0)
    (hp : e.get (F.hsMacParkPstate q) ≠ 1) : b.dozePorts.get (F.hsMacParkPstate q) = 1 ∧ q ∈ b.dozePorts.pwr.parked := by
  have hport : ∀ f : Fld, 0x9000000 ≤ f.addr → b.get f = e.get f := fun f hf => congrArg f.of (h.reg (.inr (by omega)) (by simp only [R.hrtPwrState]; omega))
  have hrelb : b.released (hsCord q) = e.released (hsCord q) := Dev.released_congr (by simp only [hsCord]; omega) fun a ha hne => h.reg (.inl ha) hne
  have hge : ∀ k, 0x9000000 ≤ hsBase 0x40 q + k := fun k => by
    have := hsBase_ge 0x40 q
    omega
  exact Dev.dozePorts_parks hq (hrelb.trans hrel) (by rw [hport _ (hge 0)]; exact hl) (by rw [hport _ (hge 0)]; exact hc) (by rw [hport _ (hge 0x300)]; exact hp)

end

theorem Dev.dozeItems_shows {y : Dev} {t : Trans} (ht : y.pwr.trans = some t) (hdone : t.done = []) (hback : t.back = false) (r : PktRun) (l : List (Nat × Bool)) :
    let x := (((y.noteDone 20 false).noteDone 21 false).setPkt fun x => { x with run := some r }).setTrans fun r => { r with todo := (21, false) :: l }
    (∀ f, x.get f = y.get f) ∧ x.pkt.run = some r ∧ x.pwr.parked = y.pwr.parked
      ∧ (x.pwr.trans.map fun y => (y.target, y.done, y.back)) = some (t.target, [(20, false), (21, false)], false) := by
  refine ⟨fun _ => rfl, rfl, rfl, ?_⟩
  simp only [Dev.setTrans, Dev.setPkt, Dev.noteDone, Dev.setPwr, ht, Option.map_some, hdone, hback, List.nil_append, List.cons_append]

/-- A request for DOZE out of FULL: the ports parked, and the first pair of slices beside the lowest six given up (R395, R398). -/
theorem Dev.startRequest_doze {e : Dev} (hno : e.refuser 1 = none) (hcur : e.get F.hrtPwrStateCur = 0) (hrel : e.released 8 = true) (hrun : e.pkt.run = none)
    (hsome : ∃ i < 256, 6 ≤ e.get (F.pktSprMapSlice i)) (hall : ∀ i < 256, e.get (F.pktSprMapSlice i) < 24) :
    let x := e.startRequest 1
    x.get F.hrtPwrStateTgt = 1 ∧ x.get F.hrtPwrStateBusy = 1 ∧ x.get F.hrtPwrStateCur = 0 ∧ x.get F.hrtPwrStatePend = e.get F.hrtPwrStatePend
      ∧ (∃ r p, x.pkt.run = some r ∧ r.shrink = true ∧ r.cur = some p ∧ 3 ≤ p ∧ r.held = e.entriesOf p ∧ r.held ≠ [] ∧ ∀ q, p < q → e.entriesOf q = [])
      ∧ (x.pwr.trans.map fun y => (y.target, y.done, y.back)) = some (1, [(20, false), (21, false)], false)
      ∧ (∀ q < 96, e.released (hsCord q) = true → e.get (F.hsMacBondLanes q) ≠ 0 → e.get (F.hsMacBondClass q) ≠ 0 → e.get (F.hsMacParkPstate q) ≠ 1 →
          x.get (F.hsMacParkPstate q) = 1 ∧ q ∈ x.pwr.parked) := by
  intro x
  obtain ⟨l, hsetup, h⟩ := Dev.transSetup_doze hcur
  have hstep := Dev.transStep_begun e.onsNoted 1 ((20, false) :: (21, false) :: l)
  generalize e.onsNoted.transBegun 1 ((20, false) :: (21, false) :: l) = b at *
  have hmap := h.map
  have hgoes := h.goes (Dev.Unrefused.of_none hno) hrel hrun hsome
  have hparks := fun q hq => h.parks (q := q) hq
  have htrD : b.dozePorts.pwr.trans = some { target := 1, todo := (20, false) :: (21, false) :: l } := b.dozePorts_kept.trans.trans h.trans
  have hstate : ∀ f : Fld, f.addr = R.hrtPwrState → b.dozePorts.get f = b.get f := fun f hf => congrArg f.of (b.dozePorts_kept.regs _ (by rw [hf]; decide) (by rw [hf]; decide))
  unfold Dev.dozeItems at hgoes
  generalize b.dozePorts = y at *
  obtain ⟨r, p, hshrink, hr⟩ := Dev.shrinks_of_map (y := (y.noteDone 20 false).noteDone 21 false)
    (fun i hi => by rw [Dev.get_noteDone, Dev.get_noteDone]; exact hmap i hi) hsome hall
  rw [hshrink] at hgoes
  have hgo : x = _ := Dev.startRequest_on hno (by rw [hsetup, hstep]; exact hgoes rfl)
  obtain ⟨hget, hpkt, hparked, hmap'⟩ := Dev.dozeItems_shows htrD rfl rfl r l
  generalize (((y.noteDone 20 false).noteDone 21 false).setPkt fun x => { x with run := some r }).setTrans (fun r => { r with todo := (21, false) :: l }) = z at *
  clear_value x
  subst hgo
  simp only [hget, hparked]
  exact ⟨(hstate F.hrtPwrStateTgt rfl).trans h.tgt, (hstate F.hrtPwrStateBusy rfl).trans h.busy, (hstate F.hrtPwrStateCur rfl).trans h.cur, (hstate F.hrtPwrStatePend rfl).trans h.pend,
    ⟨r, p, hpkt, hr⟩, hmap', fun q hq h1 h2 h3 h4 => hparks q hq h1 h2 h3 h4⟩

theorem Dev.PwrAsked.reload {d e : Dev} (h : d.PwrAsked e) : e.img.reload = d.img.reload := congrArg ImgSt.reload (h.moves.parts .img (by decide))

theorem Dev.PwrAsked.ctl {d e : Dev} (h : d.PwrAsked e) (n : Nat) : e.reg (R.hrtEvtSrcCtl n) = d.reg (R.hrtEvtSrcCtl n) :=
  h.moves.regs _ (by simp only [shown, List.mem_singleton, List.not_mem_nil, false_and, exists_false, or_false, R.hrtEvtSrcCtl, R.hrtPwrReq]; omega)

/-- The end of a request that has started, where no other one waits. -/
theorem State.powerRequest_starts {s : State} {v : Word} {P : State → Prop} (hs : s.dev.out = []) (ht : s.dev.Takes R.hrtPwrReq (F.hrtPwrReqGo.put v 1))
    (htgt : F.hrtPwrReqState.of v ≠ s.dev.get F.hrtPwrStateTgt) (htr : s.dev.pwr.trans = none) (hrl : s.dev.img.reload = none) (hpend : s.dev.get F.hrtPwrStatePend = 3)
    (hkeep : ∀ e, s.dev.PwrAsked e → (e.startRequest (F.hrtPwrReqState.of v)).get F.hrtPwrStatePend = e.get F.hrtPwrStatePend)
    (h : ∀ e t, s.dev.PwrAsked e → (((e.startRequest (F.hrtPwrReqState.of v)).emit (.writeDone R.hrtPwrReq 0)).setWaiting []).EndsAs t.dev →
      t.outputs.head? = some (.writeDone R.hrtPwrReq 0) → P t) :
    ∃ t, exec (.powerRequest v) s = .next t ∧ P t := by
  refine State.powerRequest_takes hs ht fun e d t he hd hde hends hout => ?_
  have hstart : d.powerRequest (F.hrtPwrReqState.of v) = e.startRequest (F.hrtPwrReqState.of v) := by
    rw [Dev.powerRequest_starts hde (by rwa [he.get _ (by decide)]) (by rw [he.pwr, htr]) (by rw [he.reload, hrl])]
    exact Dev.runPending_none (by rw [hkeep e he, he.get _ (by decide), hpend])
  rw [hstart] at hends hout
  exact h e t he hends (by rw [hout]; rfl)

/-- A request whose first item is the wake of a cord. -/
theorem State.powerRequest_wakes {s : State} {v : Word} {c n : Nat} (hs : s.dev.out = []) (ht : s.dev.Takes R.hrtPwrReq (F.hrtPwrReqGo.put v 1)) (hv : F.hrtPwrReqState.of v = n)
    (hn : n = 0 ∨ n = 1) (htgt : s.dev.get F.hrtPwrStateTgt ≠ n) (hcur : s.dev.get F.hrtPwrStateCur ≠ 0) (htr : s.dev.pwr.trans = none) (hrl : s.dev.img.reload = none)
    (hpend : s.dev.get F.hrtPwrStatePend = 3) (href : s.dev.refuser n = none) (hc : 1 ≤ c) (hc' : c ≤ 8) (hon : s.dev.turnsOn n c = true) (hst : s.dev.cordSt c = 0)
    (hitems : ∀ e, s.dev.PwrAsked e → ∃ l1 l2, e.transItems n = l1 ++ (c, true) :: l2 ∧ ∀ x ∈ l1, x.2 = false ∧ x.1 ≤ 11 ∧ e.cordSt x.1 = 0) :
    ∃ t, exec (.powerRequest v) s = .next t ∧ t.dev.get F.hrtPwrStateTgt = n ∧ t.dev.get F.hrtPwrStateBusy = 1
      ∧ t.dev.get F.hrtPwrStateCur = s.dev.get F.hrtPwrStateCur ∧ t.dev.cordSt c = 1 ∧ (t.dev.cordInfo c).why = .trans
      ∧ (t.dev.pwr.trans.map fun x => (x.target, x.done, x.back)) = some (n, [(c, true)], false)
      ∧ s.dev.Only [R.hrtPwrReq, R.hrtPwrState, R.hrtPwrCord c] [] t.dev := by
  subst hv
  have hstart := fun e (he : s.dev.PwrAsked e) =>
    Dev.startRequest_wakes (e := e) (t := F.hrtPwrReqState.of v) (by rw [he.same.refuser, href]) (by rwa [he.get _ (by decide)]) (by omega) (by omega) (hitems e he) hc (by omega)
      (by rw [he.same.turnsOn, hon]) (by rw [he.cordSt, hst])
  refine State.powerRequest_starts hs ht htgt.symm htr hrl hpend (fun e he => (hstart e he).2.2.2.1) fun e t he hends _ => ?_
  obtain ⟨h1, h2, h3, -, h5, h6, h7, h8⟩ := hstart e he
  have hall : s.dev.Moves [.free, .ash, .waiting, .pwr] (shown [R.hrtPwrReq, R.hrtPwrState, R.hrtPwrCord c] []) (e.startRequest (F.hrtPwrReqState.of v)) :=
    (he.moves.mono (by decide) (shown_mono (by simp) (by simp))).trans (h8.mono (by decide) (shown_mono (by simp) (by simp)))
  generalize e.startRequest (F.hrtPwrReqState.of v) = x at *
  refine ⟨(hends.get _).trans h1, (hends.get _).trans h2, (hends.get _).trans (h3.trans (he.get _ (by decide))), (hends.cordSt _).trans h5, ?_, ?_, hends.only.2 hall.only⟩
  · rw [Dev.cordInfo, hends.same.pwr]
    exact h6
  · rw [hends.same.pwr]
    exact h7

theorem Dev.PwrAsked.entries {d e : Dev} (h : d.PwrAsked e) (p : Nat) : e.entriesOf p = d.entriesOf p :=
  Dev.entriesOf_congr (fun i hi => h.get _ (by simp only [F.pktSprMapSlice, R.pktSprMap, R.hrtPwrReq]; omega)) p

/-! ### State requests (R394, R395, R397 to R401) -/

/-- Settles O46: a request starts at its first item, is refused, waits, or takes another one's place. -/
theorem stateRequestsAreServed : Obligations.StateRequestsAreServed := by
  unfold Obligations.StateRequestsAreServed
  refine ⟨?_, ?_, ?_, ?_, ?_, ?_, ?_, ?_⟩
  · intro v
    refine State.of_sent ?_ fun s h => by simp -implicitDefEqProofs only [Dev.takes_setOut] at h; exact h
    intro s hs ht htgt
    refine State.powerRequest_takes hs ht fun e d t he hd hde hends hout => ?_
    rw [Dev.powerRequest_same hde (by rw [he.get _ (by decide), htgt])] at hends hout
    refine ⟨by rw [hout, he.out, hs]; rfl, hends.same.pwr.trans he.pwr, hends.only.2 he.moves.only⟩
  · intro v k
    refine State.of_sent ?_ fun s h => by simp -implicitDefEqProofs only [Dev.takes_setOut] at h; exact h
    intro s hs ht htgt htr hrl hpend href
    have hk := Dev.refuser_le href
    have hkne : R.hrtPwrRefcnt k ≠ R.hrtPwrReq := by
      simp only [R.hrtPwrRefcnt, R.hrtPwrReq]
      omega
    have hstart := fun e (he : s.dev.PwrAsked e) => Dev.startRequest_refused (d := e) (by rw [he.same.refuser, href])
    refine State.powerRequest_starts hs ht htgt htr hrl hpend (fun e he => ?_) fun e t he hends hout => ⟨hout, ?_⟩
    · obtain ⟨-, -, -, hkeep, -⟩ := e.pwrRefuse_shows hk
      rw [hstart e he, hkeep _ (by simp)]
    · obtain ⟨hcnt, hkind, hcode, hkeep, hraise, hm⟩ := e.pwrRefuse_shows hk
      rw [hstart e he] at hends
      have hall : s.dev.Moves (.free :: .waiting :: Dev.Moves.evtParts) (shown [R.hrtPwrReq, R.hrtPwrState, R.hrtPwrRefcnt k] [0x11]) (e.pwrRefuse k) :=
        (he.moves.mono (by decide) (shown_mono (by simp) (by simp))).trans (hm.mono (by decide) (shown_mono (fun _ h => List.mem_cons_of_mem _ h) fun _ h => h))
      generalize e.pwrRefuse k = x at *
      refine ⟨?_, (hends.get _).trans hkind, (hends.get _).trans hcode, (hends.get _).trans ((hkeep _ (by simp)).trans (he.get _ (by decide))),
        (hends.get _).trans ((hkeep _ (by simp)).trans (he.get _ (by decide))), hends.same.pwr.trans ((hm.parts .pwr (by decide)).trans he.pwr),
        hends.raised.2 (hraise.of_ctl (he.ctl _).symm rfl), hends.only.2 hall.only⟩
      exact (hends.get _).trans (hcnt.trans (by rw [he.get _ hkne]))
  · intro v c
    refine State.of_sent ?_ fun s h => by simp -implicitDefEqProofs only [Dev.takes_setOut] at h; exact h
    intro s hs ht hv htgt hcur htr hrl hpend href hc hc' hon hst hfirst
    refine State.powerRequest_wakes hs ht hv (.inl rfl) htgt hcur htr hrl hpend href hc hc' hon hst fun e he => ?_
    obtain ⟨l, hl⟩ := Dev.transItems_full (e := e) hc hc' (by rw [he.same.turnsOn, hon]) fun j h1 h2 => by rw [he.same.turnsOn, hfirst j h1 h2]
    exact ⟨[], l, hl, by simp⟩
  · intro v c
    refine State.of_sent ?_ fun s h => by simp -implicitDefEqProofs only [Dev.takes_setOut] at h; exact h
    intro s hs ht hv htgt hcur htr hrl hpend href hc hc' hon hoff hfirst
    have hwake := State.powerRequest_wakes hs ht hv (.inr rfl) htgt (by rw [hcur]; decide) htr hrl hpend href hc hc' hon (hoff c hc (by omega)) fun e he => by
      obtain ⟨l1, l2, hl, hl1⟩ := Dev.transItems_doze (e := e) (by rw [he.get _ (by decide), hcur]) hc hc' (by rw [he.same.turnsOn, hon]) fun j h1 h2 => by
        rw [he.same.turnsOn, hfirst j h1 h2]
      refine ⟨l1, l2, hl, fun x hx => ?_⟩
      obtain ⟨h1, h2, h3⟩ := hl1 x hx
      exact ⟨h1, h3, (he.cordSt _).trans (hoff _ h2 h3)⟩
    rwa [hcur] at hwake
  · intro v c
    refine State.of_sent ?_ fun s h => by simp -implicitDefEqProofs only [Dev.takes_setOut] at h; exact h
    intro s hs ht hv htgt htr hrl hpend href hc hc' hst hoff
    have hstart := fun e (he : s.dev.PwrAsked e) => Dev.startRequest_banked (e := e) (by rw [he.same.refuser, href]) hc hc' (by rwa [he.cordSt])
      fun j h1 h2 => (he.cordSt j).trans (hoff j h1 h2)
    refine State.powerRequest_starts hs ht (by rw [hv]; exact htgt.symm) htr hrl hpend (fun e he => ?_) fun e t he hends _ => ?_
    · rw [hv]
      exact (hstart e he).2.2.2.1
    · obtain ⟨h1, h2, h3, -, h5, h6, h7, h8, h9⟩ := hstart e he
      have hrec : e.bankRecord = s.dev.bankRecord :=
        Dev.bankRecord_congr (fun a ha => he.moves.regs a (by simpa [shown] using ha)) (he.moves.parts .time (by decide)) (he.moves.parts .waves (by decide))
      rw [hv] at hends
      generalize e.startRequest 2 = x at *
      refine ⟨(hends.get _).trans h1, (hends.get _).trans h2, (hends.get _).trans (h3.trans (he.get _ (by decide))), (hends.cordSt _).trans h5, ?_, ?_, fun i hi => ?_,
        fun tx r hr => (hends.get _).trans (h9 tx r hr)⟩
      · rw [Dev.cordInfo, hends.same.pwr]
        exact h6
      · rw [hends.same.pwr]
        exact h7
      · rw [hends.same.ember, ← hrec]
        exact h8 i hi
  · intro v
    refine State.of_sent ?_ fun s h => by simp -implicitDefEqProofs only [Dev.takes_setOut] at h; exact h
    intro s hs ht hv htgt hcur htr hrl hpend href hrel hrun hsome hall
    have hmap : ∀ e, s.dev.PwrAsked e → ∀ i, e.get (F.pktSprMapSlice i) = s.dev.get (F.pktSprMapSlice i) := fun e he i =>
      he.get _ (by simp only [F.pktSprMapSlice, R.pktSprMap, R.hrtPwrReq]; omega)
    have hstart := fun e (he : s.dev.PwrAsked e) => Dev.startRequest_doze (e := e) (by rw [he.same.refuser, href]) (by rw [he.get _ (by decide), hcur])
      (by rw [Dev.released, he.cordSt]; exact hrel) (by rw [he.moves.parts .pkt (by decide)]; exact hrun) (by simpa only [hmap e he] using hsome) (by simpa only [hmap e he] using hall)
    suffices h : ∃ t, exec (.powerRequest v) s = .next t ∧ ∃ r p, t.dev.get F.hrtPwrStateTgt = 1 ∧ t.dev.get F.hrtPwrStateBusy = 1
        ∧ t.dev.get F.hrtPwrStateCur = 0 ∧ t.dev.pkt.run = some r ∧ r.shrink = true ∧ r.cur = some p ∧ 3 ≤ p ∧ r.held = s.dev.entriesOf p
        ∧ r.held ≠ [] ∧ (∀ q, p < q → s.dev.entriesOf q = [])
        ∧ (t.dev.pwr.trans.map fun x => (x.target, x.done, x.back)) = some (1, [(20, false), (21, false)], false)
        ∧ (∀ q < 96, s.dev.released (hsCord q) = true → s.dev.get (F.hsMacBondLanes q) ≠ 0 → s.dev.get (F.hsMacBondClass q) ≠ 0 →
            s.dev.get (F.hsMacParkPstate q) ≠ 1 → t.dev.get (F.hsMacParkPstate q) = 1 ∧ q ∈ t.dev.pwr.parked) by
      obtain ⟨t, ht, r, p, h⟩ := h
      exact ⟨t, r, p, ht, h⟩
    refine State.powerRequest_starts hs ht (by rw [hv]; exact htgt.symm) htr hrl hpend (fun e he => ?_) fun e t he hends _ => ?_
    · rw [hv]
      exact (hstart e he).2.2.2.1
    · obtain ⟨h1, h2, h3, -, ⟨r, p, hr1, hr2, hr3, hr4, hr5, hr6, hr7⟩, h6, h7⟩ := hstart e he
      rw [hv] at hends
      generalize e.startRequest 1 = x at *
      refine ⟨r, p, (hends.get _).trans h1, (hends.get _).trans h2, (hends.get _).trans h3, ?_, hr2, hr3, hr4, hr5.trans (he.entries p), hr6, fun q hq => (he.entries q).symm.trans (hr7 q hq), ?_,
        fun q hq g1 g2 g3 g4 => ?_⟩
      · rw [hends.same.pkt]
        exact hr1
      · rw [hends.same.pwr]
        exact h6
      · have hport : ∀ f : Fld, 0x9000000 ≤ f.addr → e.get f = s.dev.get f := fun f hf => he.get _ (by simp only [R.hrtPwrReq]; omega)
        have hge : ∀ k, 0x9000000 ≤ hsBase 0x40 q + k := fun k => by
          have := hsBase_ge 0x40 q
          omega
        have h8 := h7 q hq (by rw [Dev.released, he.cordSt]; exact g1) (by rw [hport _ (hge 0)]; exact g2) (by rw [hport _ (hge 0)]; exact g3) (by rw [hport _ (hge 0x300)]; exact g4)
        exact ⟨(hends.get _).trans h8.1, by rw [hends.same.pwr]; exact h8.2⟩
  · intro v
    refine State.of_sent ?_ fun s h => by simp -implicitDefEqProofs only [Dev.takes_setOut] at h; exact h
    intro s hs ht htgt htr hpend
    refine State.powerRequest_takes hs ht fun e d t he hd hde hends _ => ?_
    rw [Dev.powerRequest_waits hde (by rwa [he.get _ (by decide)]) (by rwa [he.pwr]) (by rw [he.get _ (by decide), hpend])] at hends
    have hset : e.Moves [] (shown [R.hrtPwrReq, R.hrtPwrState] []) (e.set F.hrtPwrStatePend (F.hrtPwrReqState.of v)) := (Dev.Moves.refl _ _ e).set _ _ (.inl (by decide))
    have hval := e.get_set_lt F.hrtPwrStatePend (by simp [Fld.fits, F.hrtPwrStatePend]) (hrtPwrReqState_lt v)
    generalize e.set F.hrtPwrStatePend (F.hrtPwrReqState.of v) = x at *
    refine ⟨(hends.get _).trans hval, hends.same.pwr.trans ((hset.parts .pwr (by decide)).trans he.pwr),
      hends.only.2 ((he.moves.mono (l' := [.free, .ash, .waiting]) (by decide) (shown_mono (by simp) (by simp))).trans (hset.mono (by decide) fun _ h => h)).only⟩
  · intro v
    refine State.of_sent ?_ fun s h => by simp -implicitDefEqProofs only [Dev.takes_setOut] at h; exact h
    intro s hs ht htgt htr hpend
    refine State.powerRequest_takes hs ht fun e d t he hd hde hends _ => ?_
    rw [Dev.powerRequest_supersedes hde (by rwa [he.get _ (by decide)]) (by rwa [he.pwr]) (by rwa [he.get _ (by decide)])] at hends
    obtain ⟨h1, h2, h3, h4, h5⟩ := e.superseded_shows (hrtPwrReqState_lt v)
    have hall : s.dev.Moves (.free :: .waiting :: Dev.Moves.evtParts) (shown [R.hrtPwrReq, R.hrtPwrState, R.hrtPwrRefcnt 0x2F] [0x13])
        ((((e.set F.hrtPwrStatePend (F.hrtPwrReqState.of v)).count (F.hrtPwrRefcntRef 0x2F) 1).set F.hrtPwrStateLastcode 0x2F).raise 0x13 [R.hrtPwrRefcnt 0x2F]) :=
      (he.moves.mono (by decide) (shown_mono (by simp) (by simp))).trans (h5.mono (by decide) (shown_mono (fun _ h => List.mem_cons_of_mem _ h) fun _ h => h))
    generalize (((e.set F.hrtPwrStatePend (F.hrtPwrReqState.of v)).count (F.hrtPwrRefcntRef 0x2F) 1).set F.hrtPwrStateLastcode 0x2F).raise 0x13 [R.hrtPwrRefcnt 0x2F] = x at *
    exact ⟨(hends.get _).trans h1, (hends.get _).trans (h2.trans (by rw [he.get _ (by decide)])), (hends.get _).trans h3, hends.raised.2 (h4.of_ctl (he.ctl _).symm rfl), hends.only.2 hall.only⟩

end Sys2Proof.Machine
end

section
/-!
PROOFS. Wakes of cords and the search of DOZE (O48).
-/

namespace Sys2Proof.Machine

set_option Elab.async false

/-! ### A cord of PKT or BUF that reports ready (R371, R388, R391) -/

/-- What a wake leaves of a cord before its section is applied: BUF starts anew (R388). -/
structure Dev.Cleared (d : Dev) (c : Nat) (e : Dev) : Prop where
  regs : ∀ a, inCord 9 a = false → e.reg a = d.reg a
  same : c = 8 → e.regs = d.regs
  img : e.img = d.img
  pwr : e.pwr = d.pwr
  waiting : e.waiting = d.waiting

theorem Dev.cleared_wipe (d : Dev) : d.Cleared 9 { (d.dropCord 9) with buf := {}, reclaim := [] } := by
  refine ⟨fun a ha => ?_, fun h => absurd h (by decide), rfl, rfl, rfl⟩
  have hout : a < 9 * 2 ^ 24 ∨ (9 + 1) * 2 ^ 24 ≤ a := by
    simp only [inCord, decide_eq_false_iff_not] at ha
    omega
  exact Dev.reg_dropRegs_out d _ _ hout

/-- A cord of PKT or BUF reports ready: its section is applied to what the wake leaves, and it is released. -/
theorem Dev.cordReady_plain {d : Dev} {c : Nat} (hc : c = 8 ∨ c = 9) (hwhy : (d.cordInfo c).why ≠ .reload) (fz : Fuses) :
    ∃ b : Dev, d.Cleared c b ∧ d.cordReady fz c = if (b.applySec fz c).2 then (((b.applySec fz c).1.setSt c 3).showSeq c, true) else ((b.applySec fz c).1, false) := by
  rcases hc with rfl | rfl
  · refine ⟨d, ⟨fun _ _ => rfl, fun _ => rfl, rfl, rfl, rfl⟩, ?_⟩
    unfold Dev.cordReady Dev.cordUp
    rfl
  · refine ⟨{ (d.dropCord 9) with buf := {}, reclaim := [] }, d.cleared_wipe, ?_⟩
    unfold Dev.cordReady Dev.cordUp
    rw [if_neg (show ¬((9 : Nat) = 1 ∨ (9 : Nat) = 2 ∨ (9 : Nat) = 3) by decide), if_neg (show ¬((9 : Nat) = 6 ∨ (9 : Nat) = 7) by decide),
      if_pos (show (9 : Nat) = 9 ∧ (d.cordInfo 9).why ≠ .reload from ⟨rfl, hwhy⟩)]
    rfl

theorem Dev.applySec_nil {d : Dev} {c : Nat} (h : (d.sec c).recs = []) (fz : Fuses) : d.applySec fz c = (d, true) := by
  rw [Dev.applySec, h]
  rfl

/-- A REGSET record that names no register fails, and with it the section (R371). -/
theorem Dev.applySec_fails {d : Dev} {c : Nat} {x : Nat × Nat} {rest : List Rec} (h : (d.sec c).recs = .regset [x] :: rest) (hx : decodeAddr x.1 = none) (fz : Fuses) :
    d.applySec fz c = (d, false) := by
  rw [Dev.applySec, h, applyAll, Dev.applyRec, Dev.regsets, Dev.regset, hx]
  rfl

/-- A cord that reports ready outside a reload and a transition (R391). -/
theorem Dev.ready_plain {d e : Dev} {c : Nat} {ok : Bool} (hc : 4 ≤ c) (hst : d.cordSt c = 1) (hroot : d.get F.hrtClkStatRootlock = 1) (hwhy : (d.cordInfo c).why ≠ .reload)
    (htrans : d.pwr.trans = none) (fz : Fuses) (he : (d.takeSlot c).cordReady fz c = (e, ok)) (hrl : e.img.reload = none) (hpwr : e.pwr.trans = none) (bad : Nat) :
    d.ready fz c bad = (((if ok then e else e.applyFailed c).when ((d.cordInfo c).why == .access) fun d => d.set (F.hrtPwrCordWoke c) 1).when
      ((d.cordInfo c).why == .access || (d.cordInfo c).why == .command) fun d => d.raise 0x15 [R.hrtPwrCord c]) := by
  have hfirst : (d.get F.hrtPwrStateCur == 2 && d.pwr.trans.any fun t => t.target != 2 && !t.back && !t.checked) = false := by simp [htrans]
  have hnr : ((d.cordInfo c).why != .reload) = true := by simpa using hwhy
  have hgo : d.ready fz c bad = (((((if ok then e else e.applyFailed c).when ((d.cordInfo c).why == .access) fun d => d.set (F.hrtPwrCordWoke c) 1).when
      ((d.cordInfo c).why == .access || (d.cordInfo c).why == .command) fun d => d.raise 0x15 [R.hrtPwrCord c]).reloadAfter fz).powerGo) := by
    unfold Dev.ready
    rw [if_neg (by simp [hst, Dev.flag, hroot]; omega)]
    simp -implicitDefEqProofs only [hfirst, Dev.when_false, hnr, Dev.when_true, he]
    split
    · exact absurd ‹_› hwhy
    · rw [if_neg (show ¬ c ≤ 3 by omega)]
  have hmoves : e.Goes [.out, .ash, .msixHeld] ((((if ok then e else e.applyFailed c).when ((d.cordInfo c).why == .access) fun d => d.set (F.hrtPwrCordWoke c) 1).when
      ((d.cordInfo c).why == .access || (d.cordInfo c).why == .command) fun d => d.raise 0x15 [R.hrtPwrCord c])) := by
    refine ((Dev.Goes.ite (.refl _ e) ?_).when _ _ fun x => (Dev.Goes.refl _ x).set _ _).when _ _ fun x => (Dev.Goes.refl _ x).raise _ _
    exact (e.applyFailed_goes c).within
  rw [hgo]
  generalize ((if ok then e else e.applyFailed c).when ((d.cordInfo c).why == .access) fun d => d.set (F.hrtPwrCordWoke c) 1).when
      ((d.cordInfo c).why == .access || (d.cordInfo c).why == .command) (fun d => d.raise 0x15 [R.hrtPwrCord c]) = x at *
  have hxr : x.img.reload = none := (congrArg ImgSt.reload (hmoves.parts .img (by decide))).trans hrl
  have hxp : x.pwr.trans = none := (congrArg PwrSt.trans (hmoves.parts .pwr (by decide))).trans hpwr
  rw [Dev.reloadAfter, hxr]
  exact Dev.powerGo_idle hxp

theorem Dev.takeSlot_sec (d : Dev) (c : Nat) : (d.takeSlot c).sec c = Tbl.get {} d.img.slot c := by
  rw [Dev.sec, Dev.takeSlot]
  exact Tbl.get_set_self _ _ _ _

theorem R.hrtCfgCseq_ne_cord {c k : Nat} (hc : c < 16) : R.hrtCfgCseq c ≠ R.hrtPwrCord k := by
  simp only [R.hrtCfgCseq, R.hrtPwrCord]
  omega

/-- A cord released: ST 3, and the sequence number of its section. -/
theorem Dev.released_shows (b : Dev) {c : Nat} (hc : 1 ≤ c) (hc' : c < 16) :
    let e := (b.setSt c 3).showSeq c
    e.cordSt c = 3 ∧ e.get (F.hrtCfgCseqSseq c) = (b.sec c).sseq % 2 ^ 32 ∧ b.Moves [] (shown [R.hrtPwrCord c, R.hrtCfgCseq c] []) e := by
  intro e
  have hst : (b.setSt c 3).cordSt c = 3 := Dev.cordSt_setSt _ hc (by decide)
  refine ⟨?_, Dev.get_set_self _ _ _ (by simp [Fld.fits, F.hrtCfgCseqSseq]), ((Dev.Moves.refl _ _ b).set (F.hrtPwrCordSt c) 3 (.inl (by simp [F.hrtPwrCordSt]))).set _ _ (.inl (by simp [F.hrtCfgCseqSseq]))⟩
  rw [Dev.cordSt_of_get hc] at hst ⊢
  exact (Dev.get_set_ne _ _ (R.hrtCfgCseq_ne_cord hc').symm).trans hst

/-- WOKE and the event of a wake that is over (R391). -/
theorem Dev.woken_shows (e : Dev) {c : Nat} (hc : 1 ≤ c) (hc' : c < 16) :
    let x := (e.set (F.hrtPwrCordWoke c) 1).raise 0x15 [R.hrtPwrCord c]
    x.cordSt c = e.cordSt c ∧ x.get (F.hrtPwrCordWoke c) = 1 ∧ e.Raised 0x15 x ∧ e.Moves Dev.Moves.evtParts (shown [R.hrtPwrCord c] [0x15]) x := by
  intro x
  have hlow := R.hrtPwrCord_lt (c := c) (by omega)
  have hm : e.Moves Dev.Moves.evtParts (shown [R.hrtPwrCord c] [0x15]) (e.set (F.hrtPwrCordWoke c) 1) := (Dev.Moves.refl _ _ e).set _ _ (.inl (by simp [F.hrtPwrCordWoke]))
  refine ⟨?_, ?_, ?_, hm.raised 0x15 _ (by simp)⟩
  · rw [Dev.cordSt_of_get hc, Dev.cordSt_of_get hc]
    exact (Dev.get_raise _ _ _ (.inl hlow)).trans (Dev.get_set_apart _ _ _ _ (by simp [Fld.fits, F.hrtPwrCordSt]) (by simp [Fld.apart, F.hrtPwrCordWoke, F.hrtPwrCordSt]))
  · exact (Dev.get_raise _ _ _ (.inl hlow)).trans (Dev.get_set_lt _ _ (by simp [Fld.fits, F.hrtPwrCordWoke]) (by simp [F.hrtPwrCordWoke]))
  · refine ((e.set (F.hrtPwrCordWoke c) 1).raised_raise _ _ (by decide)).of_ctl (Eq.symm (Dev.reg_set_ne _ _ ?_)) rfl
    simp only [F.hrtPwrCordWoke, R.hrtPwrCord, R.hrtEvtSrcCtl]
    omega

/-- A cord of PKT or BUF that an access has woken is ready, with nothing in its section. -/
theorem Dev.ready_access {d : Dev} {c : Nat} (hcalm : d.Calm) (hc : c = 8 ∨ c = 9) (hst : d.cordSt c = 1) (hroot : d.get F.hrtClkStatRootlock = 1)
    (hwhy : (d.cordInfo c).why = .access) (hrecs : (Tbl.get ({} : Sec) d.img.slot c).recs = []) (fz : Fuses) :
    let x := d.ready fz c 0
    x.cordSt c = 3 ∧ x.sec c = Tbl.get {} d.img.slot c ∧ x.get (F.hrtCfgCseqSseq c) = (Tbl.get ({} : Sec) d.img.slot c).sseq % 2 ^ 32
      ∧ x.get (F.hrtPwrCordWoke c) = 1 ∧ d.Raised 0x15 x ∧ x.pwr = d.pwr ∧ x.waiting = d.waiting ∧ (c = 8 → d.Only [R.hrtPwrCord c, R.hrtCfgCseq c] [0x15] x)
      ∧ d.RegsKept (fun a => [R.hrtPwrCord c, R.hrtCfgCseq c].contains a || inCord 9 a || isEvt a) x := by
  intro x
  obtain ⟨hwait, hrl, htr⟩ := hcalm
  have hc1 : 4 ≤ c ∧ c < 16 := by omega
  obtain ⟨b, hb, hready⟩ := Dev.cordReady_plain (d := d.takeSlot c) hc (show (d.cordInfo c).why ≠ .reload by rw [hwhy]; decide) fz
  have hsec : b.sec c = Tbl.get {} d.img.slot c := by rw [← d.takeSlot_sec c, Dev.sec, hb.img, Dev.sec]
  rw [Dev.applySec_nil (by rw [hsec, hrecs]) fz] at hready
  obtain ⟨hst3, hseq, hm⟩ := b.released_shows (c := c) (by omega) (by omega)
  have hx : x = (((b.setSt c 3).showSeq c).set (F.hrtPwrCordWoke c) 1).raise 0x15 [R.hrtPwrCord c] := by
    have h := Dev.ready_plain hc1.1 hst hroot (by rw [hwhy]; decide) htr fz hready
      ((congrArg ImgSt.reload ((hm.parts .img (by decide)).trans hb.img)).trans hrl) ((congrArg PwrSt.trans ((hm.parts .pwr (by decide)).trans hb.pwr)).trans htr) 0
    rw [hwhy] at h
    exact h
  clear_value x
  subst hx
  generalize (b.setSt c 3).showSeq c = e at *
  obtain ⟨hst', hwoke, hraise, hm'⟩ := e.woken_shows (c := c) (by omega) (by omega)
  have hreg : ∀ a, ¬ shown [R.hrtPwrCord c, R.hrtCfgCseq c] [0x15] a → ((e.set (F.hrtPwrCordWoke c) 1).raise 0x15 [R.hrtPwrCord c]).reg a = b.reg a := fun a ha =>
    (hm'.regs a fun h => ha (shown_mono (by simp) (by simp) a h)).trans (hm.regs a fun h => ha (shown_mono (by simp) (by simp) a h))
  have hctl : e.reg (R.hrtEvtSrcCtl 0x15) = d.reg (R.hrtEvtSrcCtl 0x15) := (hm.regs _ (by
    simp only [shown, List.mem_cons, List.not_mem_nil, or_false, false_and, exists_false, R.hrtEvtSrcCtl, R.hrtPwrCord, R.hrtCfgCseq]
    omega)).trans (hb.regs _ (by decide))
  have hseqreg : ((e.set (F.hrtPwrCordWoke c) 1).raise 0x15 [R.hrtPwrCord c]).get (F.hrtCfgCseqSseq c) = e.get (F.hrtCfgCseqSseq c) :=
    hm'.get (not_shown (by simp only [List.mem_singleton]; exact R.hrtCfgCseq_ne_cord hc1.2) (.inl (by simp only [F.hrtCfgCseqSseq, R.hrtCfgCseq]; omega)) (by simp))
  refine ⟨hst'.trans hst3, ?_, hseqreg.trans (hseq.trans (by rw [hsec])), hwoke, hraise.of_ctl hctl.symm rfl, (hm'.parts .pwr (by decide)).trans ((hm.parts .pwr (by decide)).trans hb.pwr),
    (hm'.parts .waiting (by decide)).trans ((hm.parts .waiting (by decide)).trans hb.waiting), fun h8 a ha he => (hreg a ?_).trans (Dev.reg_congr (hb.same h8) a), fun a ha => ?_⟩
  · rw [Dev.sec, hm'.parts .img (by decide), hm.parts .img (by decide)]
    exact hsec
  · exact fun h => h.elim ha fun ⟨n, hn, hm⟩ => he n hn hm
  · simp only [Bool.or_eq_false_iff] at ha
    obtain ⟨⟨hl, h9⟩, hev⟩ := ha
    refine (hreg a fun h => h.elim (fun h => ?_) fun ⟨n, hn, hm⟩ => ?_).trans (hb.regs a h9)
    · exact absurd (List.contains_iff_mem.2 h) (by rw [hl]; simp)
    · rw [List.mem_singleton.1 hn] at hm
      rw [isEvt_of_evtRegs (by decide) hm] at hev
      exact absurd hev (by simp)

/-- PKT's section fails at the cord's wake: powered, not released (R371). -/
theorem Dev.ready_fails {d : Dev} {x : Nat × Nat} {rest : List Rec} (hcalm : d.Calm) (hst : d.cordSt 8 = 1) (hroot : d.get F.hrtClkStatRootlock = 1)
    (hwhy : (d.cordInfo 8).why = .command) (hrecs : (Tbl.get ({} : Sec) d.img.slot 8).recs = .regset [x] :: rest) (hx : decodeAddr x.1 = none) (fz : Fuses) :
    let y := d.ready fz 8 0
    y.cordSt 8 = 2 ∧ (y.get F.hrtCfgFailmaskCords).testBit 8 = true ∧ d.Raised 0x0D y ∧ y.pwr = d.pwr ∧ y.waiting = d.waiting
      ∧ d.Only [R.hrtPwrCord 8, R.hrtCfgFailmask] [0x0D, 0x15] y := by
  intro y
  obtain ⟨hwait, hrl, htr⟩ := hcalm
  obtain ⟨b, hb, hready⟩ := Dev.cordReady_plain (d := d.takeSlot 8) (.inl rfl) (show (d.cordInfo 8).why ≠ .reload by rw [hwhy]; decide) fz
  have hsec : b.sec 8 = Tbl.get {} d.img.slot 8 := by rw [← d.takeSlot_sec 8, Dev.sec, hb.img, Dev.sec]
  rw [Dev.applySec_fails (by rw [hsec, hrecs]) hx fz] at hready
  have hy : y = (b.applyFailed 8).raise 0x15 [R.hrtPwrCord 8] := by
    have h := Dev.ready_plain (by decide) hst hroot (by rw [hwhy]; decide) htr fz hready ((congrArg ImgSt.reload hb.img).trans hrl) ((congrArg PwrSt.trans hb.pwr).trans htr) 0
    have h1 : (Why.command == Why.access) = false := rfl
    simp -implicitDefEqProofs only [hwhy, h1, BEq.rfl, Dev.when_false, Bool.or_true, Dev.when_true, Bool.false_eq_true, if_false] at h
    exact h
  have hoff : b.enablesOff 8 = b := by
    unfold Dev.enablesOff
    rw [if_neg (by decide), if_neg (by decide), if_neg (by decide)]
  have hfail : b.applyFailed 8 = ((b.setSt 8 2).set F.hrtCfgFailmaskCords (setBit (b.get F.hrtCfgFailmaskCords) 8)).raise 0x0D [R.hrtCfgStat, R.hrtCfgFailmask] := by
    unfold Dev.applyFailed
    rw [hoff]
  have hm : b.Moves Dev.Moves.evtParts (shown [R.hrtPwrCord 8, R.hrtCfgFailmask] [0x0D, 0x15]) ((b.setSt 8 2).set F.hrtCfgFailmaskCords (setBit (b.get F.hrtCfgFailmaskCords) 8)) :=
    ((Dev.Moves.refl _ _ b).set (F.hrtPwrCordSt 8) 2 (.inl (by decide))).set _ _ (.inl (by decide))
  have hbit : (((b.setSt 8 2).set F.hrtCfgFailmaskCords (setBit (b.get F.hrtCfgFailmaskCords) 8)).get F.hrtCfgFailmaskCords).testBit 8 = true := by
    rw [Dev.get_set_on _ _ _ (by decide), Nat.testBit_mod_two_pow, setBit, Nat.testBit_or, Nat.testBit_two_pow_self]
    simp [F.hrtCfgFailmaskCords]
  have hst2 : ((b.setSt 8 2).set F.hrtCfgFailmaskCords (setBit (b.get F.hrtCfgFailmaskCords) 8)).cordSt 8 = 2 := by
    have h := Dev.cordSt_setSt b (c := 8) (n := 2) (by decide) (by decide)
    rw [Dev.cordSt_of_get (by decide)] at h ⊢
    exact (Dev.get_set_ne _ _ (by decide)).trans h
  have hctl : ((b.setSt 8 2).set F.hrtCfgFailmaskCords (setBit (b.get F.hrtCfgFailmaskCords) 8)).reg (R.hrtEvtSrcCtl 0x0D) = b.reg (R.hrtEvtSrcCtl 0x0D) :=
    (Dev.reg_set_ne _ _ (by decide)).trans (Dev.reg_set_ne _ _ (by decide))
  rw [hfail] at hy
  clear_value y
  subst hy
  generalize (b.setSt 8 2).set F.hrtCfgFailmaskCords (setBit (b.get F.hrtCfgFailmaskCords) 8) = e at *
  have h1 := e.raised_raise 0x0D [R.hrtCfgStat, R.hrtCfgFailmask] (by decide)
  have hm1 := hm.raised 0x0D [R.hrtCfgStat, R.hrtCfgFailmask] (by simp)
  have hget1 : ∀ f : Fld, f.addr < 0x80000 → (e.raise 0x0D [R.hrtCfgStat, R.hrtCfgFailmask]).get f = e.get f := fun f hf => Dev.get_raise _ _ _ (.inl hf)
  generalize e.raise 0x0D [R.hrtCfgStat, R.hrtCfgFailmask] = f at *
  have hm2 := hm1.raised 0x15 [R.hrtPwrCord 8] (by simp)
  have hget2 : ∀ g : Fld, g.addr < 0x80000 → (f.raise 0x15 [R.hrtPwrCord 8]).get g = e.get g := fun g hg => (Dev.get_raise _ _ _ (.inl hg)).trans (hget1 g hg)
  have hctl2 : (f.raise 0x15 [R.hrtPwrCord 8]).reg (R.hrtEvtSrcCtl 0x0D) = f.reg (R.hrtEvtSrcCtl 0x0D) :=
    ((Dev.Only.refl [] [0x15] f).raise 0x15 [R.hrtPwrCord 8] (by simp)) _ (by simp) (by decide)
  refine ⟨?_, by rw [hget2 _ (by decide)]; exact hbit, h1.of_ctl (hctl.trans (Dev.reg_congr (hb.same rfl) _)).symm hctl2, (hm2.parts .pwr (by decide)).trans hb.pwr,
    (hm2.parts .waiting (by decide)).trans hb.waiting, fun a ha he => (hm2.only a ha he).trans (Dev.reg_congr (hb.same rfl) a)⟩
  rw [Dev.cordSt_of_get (by decide)] at hst2 ⊢
  exact (hget2 _ (by decide)).trans hst2

/-- A cord that is marked FAILED: ST 4, and no WOKE. -/
theorem Dev.markFailed_shows (a : Dev) {c : Nat} (hc : 1 ≤ c) :
    let b := (a.setSt c 4).set (F.hrtPwrCordWoke c) 0
    b.cordSt c = 4 ∧ b.get (F.hrtPwrCordFailcnt c) = a.get (F.hrtPwrCordFailcnt c) ∧ a.Moves [] (· = R.hrtPwrCord c) b := by
  intro b
  refine ⟨?_, ?_, ((Dev.Moves.refl _ (· = R.hrtPwrCord c) a).set (F.hrtPwrCordSt c) 4 rfl).set (F.hrtPwrCordWoke c) 0 rfl⟩
  · have hst := Dev.cordSt_setSt a hc (n := 4) (by decide)
    rw [Dev.cordSt_of_get hc] at hst ⊢
    rw [Dev.get_set_apart _ _ _ _ (by simp [Fld.fits, F.hrtPwrCordSt]) (by simp [F.hrtPwrCordWoke, F.hrtPwrCordSt, Fld.apart]), hst]
  · rw [Dev.get_set_apart _ _ _ _ (by simp [Fld.fits, F.hrtPwrCordFailcnt]) (by simp [F.hrtPwrCordWoke, F.hrtPwrCordFailcnt, Fld.apart])]
    exact Dev.get_set_apart _ _ _ _ (by simp [Fld.fits, F.hrtPwrCordFailcnt]) (by simp [F.hrtPwrCordSt, F.hrtPwrCordFailcnt, Fld.apart])

/-- A failed wake is counted, with its event. -/
theorem Dev.countFailed_shows (b : Dev) {c : Nat} (hc : 1 ≤ c) (hc' : c < 16) :
    let e := (b.count (F.hrtPwrCordFailcnt c) 1).raise 0x16 [R.hrtPwrCord c]
    e.cordSt c = b.cordSt c ∧ e.get (F.hrtPwrCordFailcnt c) = satAdd 8 (b.get (F.hrtPwrCordFailcnt c)) 1 ∧ b.Raised 0x16 e := by
  have hlow := R.hrtPwrCord_lt (c := c) (by omega)
  refine ⟨?_, (Dev.get_raise _ _ _ (.inl hlow)).trans (Dev.get_count_self _ _ _ (by simp [Fld.fits, F.hrtPwrCordFailcnt])),
    (Dev.raised_raise _ _ _ (by decide)).of_ctl (((Dev.Moves.refl [] (· = R.hrtPwrCord c) b).count _ _ rfl).regs _ ?_).symm rfl⟩
  · rw [Dev.cordSt_of_get hc, Dev.cordSt_of_get hc]
    exact (Dev.get_raise _ _ _ (.inl hlow)).trans (Dev.get_set_apart _ _ _ _ (by simp [Fld.fits, F.hrtPwrCordSt]) (by simp [F.hrtPwrCordSt, F.hrtPwrCordFailcnt, Fld.apart]))
  · simp only [R.hrtPwrCord, R.hrtEvtSrcCtl]
    omega

/-- A cord whose wake has taken longer than WAKETO is FAILED (R389). -/
theorem Dev.cordFail_shows (d : Dev) {c : Nat} (hc : 1 ≤ c) (hc' : c < 16) :
    let e := d.cordFail c true
    e.cordSt c = 4 ∧ e.get (F.hrtPwrCordFailcnt c) = satAdd 8 (d.get (F.hrtPwrCordFailcnt c)) 1 ∧ d.Raised 0x16 e := by
  have hsp := d.wipe_spares c
  have hcnt : (d.wipe c).get (F.hrtPwrCordFailcnt c) = d.get (F.hrtPwrCordFailcnt c) :=
    hsp.get (by simp only [F.hrtPwrCordFailcnt, R.hrtPwrCord]; omega) (by simp only [F.hrtPwrCordFailcnt, R.hrtPwrCord, R.hrtClkStat, List.mem_singleton]; omega)
  have hctl : (d.wipe c).reg (R.hrtEvtSrcCtl 0x16) = d.reg (R.hrtEvtSrcCtl 0x16) := hsp.ctl
  have hne : R.hrtEvtSrcCtl 0x16 ≠ R.hrtPwrCord c := by
    simp only [R.hrtPwrCord, R.hrtEvtSrcCtl]
    omega
  unfold Dev.cordFail
  generalize d.wipe c = a at *
  obtain ⟨hst, hget, hm⟩ := a.markFailed_shows hc
  generalize (a.setSt c 4).set (F.hrtPwrCordWoke c) 0 = b at *
  have hregs : (b.setCordInfo c fun x => { x with cmd := none }).regs = b.regs := rfl
  dsimp only
  generalize (b.setCordInfo c fun x => { x with cmd := none }) = b' at *
  obtain ⟨hst', hget', hraise⟩ := b'.countFailed_shows hc hc'
  rw [Dev.when_true]
  refine ⟨hst'.trans ?_, hget'.trans (by rw [Dev.get_congr hregs, hget, hcnt]), hraise.of_ctl ?_ rfl⟩
  · rw [Dev.cordSt_of_get hc] at hst ⊢
    rw [Dev.get_congr hregs, hst]
  · rw [Dev.reg_congr hregs, hm.regs _ hne, hctl]

theorem Dev.cordFail_trans (d : Dev) (c : Nat) : (d.cordFail c true).pwr.trans = d.pwr.trans := by
  have hw : (d.wipe c).pwr = d.pwr := (d.wipe_goes c).parts .pwr (by decide)
  unfold Dev.cordFail
  generalize d.wipe c = a at *
  rw [← hw]
  have h1 : a.Moves [] (fun _ => True) ((a.setSt c 4).set (F.hrtPwrCordWoke c) 0) := ((Dev.Moves.refl [] _ a).set _ _ trivial).set _ _ trivial
  rw [← h1.parts .pwr (by decide)]
  generalize (a.setSt c 4).set (F.hrtPwrCordWoke c) 0 = b at *
  have h2 : (b.setCordInfo c fun x => { x with cmd := none }).pwr.trans = b.pwr.trans := rfl
  rw [← h2]
  generalize (b.setCordInfo c fun x => { x with cmd := none }) = b at *
  exact congrArg PwrSt.trans ((((Dev.Moves.refl Dev.Moves.evtParts (fun _ => True) b).count _ _ trivial).raise 0x16 [R.hrtPwrCord c] (fun _ _ => trivial) (by decide)).parts .pwr (by decide))

theorem Dev.wakeTimeout_fails {d : Dev} {c : Nat} (hcalm : d.Calm) (hc : 4 ≤ c) (hc' : c < 16) (hst : d.cordSt c = 1) (hwhy : (d.cordInfo c).why ≠ .reload) (fz : Fuses) :
    d.wakeTimeout fz c = d.cordFail c true := by
  obtain ⟨-, hrl, htr⟩ := hcalm
  have hgoes := d.cordFail_goes c true
  have htrans := d.cordFail_trans c
  have himg : (d.cordFail c true).img = d.img := hgoes.parts .img (by decide)
  unfold Dev.wakeTimeout
  rw [if_neg (by simp [hst]; omega)]
  dsimp only
  rw [if_neg (show ¬ c ≤ 3 by omega)]
  generalize d.cordFail c true = e at *
  have hnone : e.pwr.trans = none := htrans.trans htr
  split
  · exact absurd ‹_› hwhy
  · rw [hnone]
    simp only [Option.isSome_none, Dev.when_false, Dev.reloadAfter, himg, hrl]
    exact Dev.powerGo_idle hnone

/-! ### An access that wakes its cord (R30, R391) -/

theorem Dev.cordSt_cordWake_ne (d : Dev) {c k : Nat} (h : k ≠ c) (why : Why) : (d.cordWake c why).cordSt k = d.cordSt k := by
  have hget := d.get_cordWake c why (F.hrtPwrCordSt k) (by simp only [F.hrtPwrCordSt, R.hrtPwrCord]; omega)
  simp only [Dev.cordSt, hget]

theorem Dev.pathCode_cordWake {d : Dev} {c : Nat} (hc : 1 ≤ c) (h : d.cordSt c = 0) (a size : Nat) (why : Why) : (d.cordWake c why).pathCode a size = d.pathCode a size := by
  have hflag : ∀ f : Fld, f.addr = R.hrtCfgStat → (d.cordWake c why).flag f = d.flag f := fun f hf => by
    have hget := d.get_cordWake c why f (by rw [hf]; simp only [R.hrtCfgStat, R.hrtPwrCord]; omega)
    simp only [Dev.flag, hget]
  have hfail : ∀ k n, n = 4 ∨ n = 5 → ((d.cordWake c why).cordSt k == n) = (d.cordSt k == n) := fun k n hn => by
    by_cases hk : k = c
    · subst hk
      rw [d.cordSt_cordWake hc, h]
      rcases hn with rfl | rfl <;> rfl
    · rw [d.cordSt_cordWake_ne hk]
  simp only [Dev.pathCode, hflag F.hrtCfgStatBootpend rfl, hflag F.hrtCfgStatNoimg rfl, hfail _ 4 (.inl rfl), hfail _ 5 (.inr rfl)]

theorem Dev.arrive_wakes {d : Dev} {a c : Nat} {w : Option Word} (hc : c = cordOf a) (hwait : d.waiting = []) (h12 : d.cordSt 12 ≠ 0) (hup : d.get F.pciEpStatDlup = 1)
    (hpath : d.pathCode a 4 = 0) (hst : d.cordSt c = 0) (hauto : d.get F.hrtPwrCfgAutoacc = 0 ∨ d.get F.hrtPwrStateCur = 0) (fz : Fuses) (written : List (BitVec 64)) :
    d.arrive fz a 4 w written = (d.cordWake c .access).setWaiting [{ addr := a, size := 4, write := w, at_ := d.time.ticks, written := written }] := by
  subst hc
  have hc1 : cordOf a ≠ 0 := fun h => by simp [h, Dev.cordSt] at hst
  have hno : (d.flag F.hrtPwrCfgAutoacc && d.get F.hrtPwrStateCur != 0) = false := by
    rcases hauto with h | h <;> simp [Dev.flag, h]
  generalize hx : ({ addr := a, size := 4, write := w, at_ := d.time.ticks, written := written } : Access) = x
  have hxa : x.addr = a := by rw [← hx]
  have hxs : x.size = 4 := by rw [← hx]
  have harr : d.arrive fz a 4 w written = (d.setWaiting [x]).serve fz := by
    unfold Dev.arrive
    rw [if_neg (by simp [h12, Dev.flag, hup]), hwait, hx]
    rfl
  have hwake : (d.setWaiting [x]).wakeFor x = (d.cordWake (cordOf a) .access).setWaiting [x] := by
    unfold Dev.wakeFor Dev.accessWake
    rw [hxa, hxs, Dev.pathCode_setWaiting, hpath]
    have h1 : (((0 : Nat) == 0) && cordOf a != 0 && (d.setWaiting [x]).cordSt (cordOf a) == 0) = true := by
      rw [show (d.setWaiting [x]).cordSt (cordOf a) = d.cordSt (cordOf a) from rfl, hst]
      simpa using hc1
    rw [h1, Dev.when_true, show ((d.setWaiting [x]).flag F.hrtPwrCfgAutoacc && (d.setWaiting [x]).get F.hrtPwrStateCur != 0) = false from hno]
    rfl
  have hst1 : (d.cordWake (cordOf a) .access).cordSt (cordOf a) = 1 := d.cordSt_cordWake (by omega) _
  have hp1 : (d.cordWake (cordOf a) .access).pathCode a 4 = 0 := (Dev.pathCode_cordWake (by omega) hst a 4 _).trans hpath
  rw [harr]
  unfold Dev.serve
  rw [show (d.setWaiting [x]).waiting = [x] from rfl, Dev.each_cons, Dev.each_nil, hwake]
  generalize d.cordWake (cordOf a) .access = e at *
  have hagain : (e.setWaiting [x]).wakeFor x = e.setWaiting [x] := by
    unfold Dev.wakeFor
    rw [hxa, hxs, show (e.setWaiting [x]).cordSt (cordOf a) = 1 from hst1]
    simp
  have hmust : (e.setWaiting [x]).mustWait x = true := by
    unfold Dev.mustWait
    dsimp only
    rw [hxa, hxs, Dev.pathCode_setWaiting, hp1, show (e.setWaiting [x]).cordSt (cordOf a) = 1 from hst1]
    simpa using hc1
  dsimp only
  rw [show (e.setWaiting [x]).waiting = [x] from rfl, Dev.serveList, hagain]
  simp only [hmust, if_true]
  rfl

/-! ### The search of DOZE (R396) -/

theorem Dev.serving_mem_enginesOf {d : Dev} {w e : Nat} (h : d.serving w = some e) (he : e < 3) : e ∈ d.enginesOf w := by
  rw [Dev.enginesOf, List.mem_filter]
  refine ⟨by simp only [List.mem_cons, List.not_mem_nil]; omega, ?_⟩
  simp [Dev.names, h]

theorem Dev.eng_setEng_ne (d : Dev) {e k : Nat} (f : Engine → Engine) (h : k ≠ e) : (d.setEng e f).eng k = d.eng k := Tbl.get_modify_ne _ _ _ _ h

/-- Engines that are asked for a decode set hold it for their next boundary; the wavelength's own set stands. -/
theorem Dev.each_pendDecode (d : Dev) (l : List Nat) (m : Nat) :
    let x := d.each l fun d e => d.setEng e fun g => { g with pendDecode := some m }
    x.regs = d.regs ∧ x.waves = d.waves ∧ x.out = d.out ∧ ∀ e, e ∈ l ∨ (d.eng e).pendDecode = some m → (x.eng e).pendDecode = some m := by
  induction l generalizing d with
  | nil => exact ⟨rfl, rfl, rfl, fun e h => h.elim (fun h => absurd h (by simp)) id⟩
  | cons k ks ih =>
    obtain ⟨hr, hw, ho, he⟩ := ih (d.setEng k fun g => { g with pendDecode := some m })
    refine ⟨hr, hw, ho, fun e h => he e ?_⟩
    by_cases hek : e = k
    · subst hek
      exact .inr (by rw [Dev.eng_setEng_self])
    · refine h.imp (fun h => (List.mem_cons.1 h).resolve_left hek) fun h => ?_
      rw [Dev.eng_setEng_ne _ _ hek]
      exact h

theorem Dev.askDecode_shows (d : Dev) (w m : Nat) :
    (d.askDecode w m).regs = d.regs ∧ ((d.askDecode w m).wave w).decode = m ∧ (d.askDecode w m).out = d.out
      ∧ ∀ e, d.serving w = some e → e < 3 → ((d.askDecode w m).eng e).pendDecode = some m := by
  obtain ⟨hr, hw, ho, he⟩ := (d.setWave w fun v => { v with decode := m }).each_pendDecode ((d.setWave w fun v => { v with decode := m }).enginesOf w) m
  refine ⟨hr, ?_, ho, fun e hs h3 => he e (.inl (Dev.serving_mem_enginesOf ?_ h3))⟩
  · rw [show ((d.askDecode w m).wave w) = Tbl.get {} (d.askDecode w m).waves w from rfl, show (d.askDecode w m).waves = _ from hw]
    exact congrArg Wave.decode (d.wave_setWave_self w _)
  · rw [← hs, Dev.serving, Dev.serving, d.wave_setWave_self]
    rfl

/-- A cord that reports ready, or whose wake times out, with no command of its own outstanding and no access waiting. -/
theorem State.runServe_plain {s : State} {f : Fuses → Dev → Dev} {x : Dev} {P : State → Prop} (hs : s.dev.out = []) (hf : f s.fuses s.dev = x) (hw : x.waiting = [])
    (h : ∀ t : State, x.EndsAs t.dev → t.fuses = s.fuses → P t) : ∃ t, s.runServe f = .next t ∧ P t :=
  State.runServe_ends hs (by rw [hf]; exact hw) fun t ht _ hfz => h t (by rw [← hf]; exact ht) hfz

theorem Dev.cordCmdDue_same {d x : Dev} {c : Nat} (hp : x.pwr = d.pwr) (h : (d.cordInfo c).cmd = none) : x.cordCmdDue c = x :=
  Dev.cordCmdDue_idle (by rw [Dev.cordInfo_congr hp, h])

/-- A cord woken by the access that waits for it. -/
theorem Dev.accessWoken_shows (d : Dev) {c : Nat} (hc : 1 ≤ c) (l : List Access) :
    let e := (d.cordWake c .access).setWaiting l
    e.cordSt c = 1 ∧ (e.cordInfo c).why = .access ∧ e.waiting = l ∧ e.out = d.out ∧ d.Only [R.hrtPwrCord c] [] e := by
  refine ⟨d.cordSt_cordWake hc .access, congrArg CordSt.why (d.cordWake_cordInfo c .access), rfl, (d.cordWake_goes c .access).parts .out (by decide), fun a ha _ => ?_⟩
  exact ((Dev.Moves.refl [] (· = R.hrtPwrCord c) d).set (F.hrtPwrCordSt c) 1 rfl).regs a (by simpa using ha)

/-- Settles O48, clause by clause. -/
theorem cordsWakeAndSearchGoesOn : Obligations.CordsWakeAndSearchGoesOn := by
  unfold Obligations.CordsWakeAndSearchGoesOn
  refine ⟨?_, ?_, ?_, ?_, ?_⟩
  · intro a w c
    refine State.of_sent ?_ fun _ h => h
    intro s hs hc hwait h12 hup hpath hst hauto
    have hc1 : 1 ≤ c := by
      by_contra hlt
      have h0 : c = 0 := by omega
      rw [h0] at hst
      simp [Dev.cordSt] at hst
    simp only [exec, execAccessWake]
    have harr := Dev.arrive_wakes (w := w) hc hwait h12 hup hpath hst hauto s.fuses []
    refine State.run_ends hs rfl fun t ht hout hfz => ?_
    simp only [harr] at ht hout
    obtain ⟨h1, hwhy, hw, ho, honly⟩ := s.dev.accessWoken_shows hc1 [{ addr := a.toNat, size := 4, write := w, at_ := s.dev.time.ticks, written := [] }]
    refine ⟨(ht.cordSt c).trans h1, ?_, ht.same.waiting.trans hw, by rw [hout, ho, hs]; rfl, ht.only.2 honly⟩
    rw [Dev.cordInfo_congr ht.same.pwr, hwhy]
  · intro c
    refine State.of_sent ?_ fun _ h => h
    intro s hs hcalm hc hst hroot hwhy hcmd hrecs
    obtain ⟨h3, hsec, hseq, hwoke, hraise, hp, hw, honly, hkept⟩ := Dev.ready_access hcalm hc hst hroot hwhy hrecs s.fuses
    simp only [exec, execCordReady]
    refine State.runServe_plain hs (x := s.dev.ready s.fuses c 0) ?_ (hw.trans hcalm.1) fun t ht hfz => ?_
    · rw [show (0 : BitVec 16).toNat = 0 from rfl, Dev.serve_idle (hw.trans hcalm.1), Dev.cordCmdDue_same hp hcmd]
    · refine ⟨(ht.cordSt _).trans h3, ?_, (ht.get _).trans hseq, (ht.get _).trans hwoke, ht.raised.2 hraise, fun h8 => ht.only.2 (honly h8), ht.regsKept.2 hkept⟩
      rw [← hsec, Dev.sec, ht.same.img, Dev.sec]
  · intro c x rest
    refine State.of_sent ?_ fun _ h => h
    intro s hs hcalm hc hst hroot hwhy hcmd hrecs hx
    rw [hc] at hst hwhy hcmd hrecs ⊢
    obtain ⟨h2, hbit, hraise, hp, hw, honly⟩ := Dev.ready_fails hcalm hst hroot hwhy hrecs hx s.fuses
    simp only [exec, execCordReady, hc]
    refine State.runServe_plain hs (x := s.dev.ready s.fuses 8 0) ?_ (hw.trans hcalm.1) fun t ht hfz => ?_
    · rw [show (0 : BitVec 16).toNat = 0 from rfl, Dev.serve_idle (hw.trans hcalm.1), Dev.cordCmdDue_same hp hcmd]
    · exact ⟨(ht.cordSt _).trans h2, by rw [ht.get]; exact hbit, ht.raised.2 hraise, ht.only.2 honly⟩
  · intro c
    refine State.of_sent ?_ fun _ h => h
    intro s hs hcalm h4 h11 hst hwhy
    obtain ⟨hst4, hcnt, hraise⟩ := s.dev.cordFail_shows (c := c) (by omega) (by omega)
    simp only [exec, execWakeTimeout]
    refine State.runServe_plain hs (Dev.wakeTimeout_fails hcalm h4 (by omega) hst hwhy _) ?_ fun t ht hfz => ?_
    · exact ((s.dev.cordFail_goes c true).parts .waiting (by decide)).trans hcalm.1
    · exact ⟨(ht.cordSt _).trans hst4, (ht.get _).trans hcnt, ht.raised.2 hraise⟩
  · intro w e m
    refine State.of_sent ?_ fun _ h => h
    intro s hs hw hdoze hon hleaf hact hbcn hm hserv he
    simp only [exec, execDozeSearchStep]
    refine State.run_ends hs rfl fun t ht hout hfz => ?_
    have hcond : (s.dev.get F.hrtPwrStateCur == 1 && s.dev.cordOn (6 + w) && (s.dev.wave w).leaf && s.dev.get (F.lfActStatState w) == 0 && !s.dev.flag (F.lfAlnStatBcnv w)) = true := by
      simp [hdoze, hon, hleaf, hact, Dev.flag, hbcn]
    rw [← hw, hcond, Dev.when_true, hm] at ht
    obtain ⟨hregs, hdec, -, hpend⟩ := s.dev.askDecode_shows w (if m = 0xFF then 0xFF00 else if m = 0xFF00 then 0xFF0000 else if m = 0xFF0000 then 0xFF000000 else 0xFF)
    have hdec' := (congrArg Wave.decode (ht.wave w)).trans hdec
    refine ⟨ht.only.2 fun a _ _ => Dev.reg_congr hregs a, ?_, hdec'⟩
    rw [ht.eng, hpend e hserv he, hdec']

end Sys2Proof.Machine
end

section
/-!
PROOFS. Boot selection, ACTIVATE and RESOLVE (O44).
-/

namespace Sys2Proof.Machine

set_option Elab.async false

/-! ### The verification of a slot (R367) -/

theorem Dev.parseSec_congr {d e : Dev} (h : ∀ o n, e.mramAt o n = d.mramAt o n) (base sigofs c pos : Nat) (x : List Byte) :
    e.parseSec base sigofs c pos x = d.parseSec base sigofs c pos x := by
  simp only [Dev.parseSec, h]

theorem Dev.parseSecs_congr {d e : Dev} (h : ∀ o n, e.mramAt o n = d.mramAt o n) (base sigofs n : Nat) :
    ∀ c pos, e.parseSecs base sigofs n c pos = d.parseSecs base sigofs n c pos := by
  induction n with
  | zero => exact fun _ _ => rfl
  | succ n ih =>
    intro c pos
    simp only [Dev.parseSecs, h, Dev.parseSec_congr h, ih]

theorem Dev.verifySlot_congr {d e : Dev} (hi : e.img.mram = d.img.mram) (hb : e.blown = d.blown) (fz : Fuses) (k : Nat) : e.verifySlot fz k = d.verifySlot fz k := by
  have hm : ∀ o n, e.mramAt o n = d.mramAt o n := fun o n => by simp only [Dev.mramAt, hi]
  have hs : ∀ base len b, e.sigOk fz base len b = d.sigOk fz base len b := fun base len b => by simp only [Dev.sigOk, Dev.digest, Dev.revoked, hm, hb]
  simp only [Dev.verifySlot, hm, hs, Dev.digest, Dev.parseSecs_congr hm]

/-- VALA or VALB of a slot, and the register of its sequence number. -/
def slotValF (k : Nat) : Fld := if k = 0 then F.hrtCfgStatVala else F.hrtCfgStatValb

theorem Dev.showSlot_moves (d : Dev) (k : Nat) (i : Option Image) : d.Moves [] (shown [R.hrtCfgStat, R.hrtCfgSeqa, R.hrtCfgSeqb] []) (d.showSlot k i) := by
  unfold Dev.showSlot
  refine .ite ?_ ?_
  · exact ((Dev.Moves.refl _ _ d).setFlag F.hrtCfgStatVala _ (.inl (by decide))).set F.hrtCfgSeqaSeq _ (.inl (by decide))
  · exact ((Dev.Moves.refl _ _ d).setFlag F.hrtCfgStatValb _ (.inl (by decide))).set F.hrtCfgSeqbSeq _ (.inl (by decide))

theorem Dev.showSlot_img (d : Dev) (k : Nat) (i : Option Image) : (d.showSlot k i).img = d.img := (d.showSlot_moves k i).parts .img (by decide)

/-- A slot shown changes no other field of HRT_CFG_STAT. -/
theorem Dev.get_showSlot (d : Dev) (k : Nat) (i : Option Image) {f : Fld} (ha : F.hrtCfgStatVala.parted f = true) (hb : F.hrtCfgStatValb.parted f = true)
    (hsa : F.hrtCfgSeqaSeq.parted f = true) (hsb : F.hrtCfgSeqbSeq.parted f = true) : (d.showSlot k i).get f = d.get f := by
  unfold Dev.showSlot Dev.setFlag
  split
  · rw [Dev.get_set_off _ _ _ _ hsa, Dev.get_set_off _ _ _ _ ha]
  · rw [Dev.get_set_off _ _ _ _ hsb, Dev.get_set_off _ _ _ _ hb]

theorem Dev.showSlot_val (d : Dev) (k : Nat) (i : Option Image) : (d.showSlot k i).get (slotValF k) = i.isSome.toNat := by
  unfold Dev.showSlot Dev.setFlag slotValF
  split
  · rw [Dev.get_set_off _ _ _ _ (by decide), Dev.get_set_on _ _ _ (by decide)]
    cases i <;> rfl
  · rw [Dev.get_set_off _ _ _ _ (by decide), Dev.get_set_on _ _ _ (by decide)]
    cases i <;> rfl

/-! ### ACTIVATE of a slot that does not verify (R367, R373) -/

/-- An ACTIVATE looks at the inactive slot first (R367, R372). -/
theorem Dev.cfgTry_activate {d : Dev} {v : Word} (fz : Fuses) (hop : F.hrtCfgCmdOp.of v = 1) (hboot : d.get F.hrtCfgStatBootpend = 0) (hbusy : d.get F.hrtCfgStatBusy = 0) :
    let x := (d.ashNote 3).checkInactive fz
    let code := x.1.activateCode x.2 (F.hrtCfgCmdForce.of v == 1) false
    d.cfgTry fz v = (if code = 0 then x.1 else x.1.cfgRefuse code, code, x.2) := by
  intro x code
  have hget : ∀ f : Fld, (d.ashNote 3).get f = d.get f := fun f => Dev.get_congr (d.ashNote_regs 3) f
  have hx : ∀ f : Fld, F.hrtCfgStatVala.parted f = true → F.hrtCfgStatValb.parted f = true → F.hrtCfgSeqaSeq.parted f = true → F.hrtCfgSeqbSeq.parted f = true →
      f.addr < 0x80000 → x.1.get f = d.get f := fun f ha hb hsa hsb hf => by
    have hs := ((d.ashNote 3).get_showSlot (d.ashNote 3).inactive ((d.ashNote 3).verifySlot fz (d.ashNote 3).inactive) ha hb hsa hsb).trans (hget f)
    show (Dev.slotBad _ _).get f = _
    unfold Dev.slotBad
    cases ((d.ashNote 3).verifySlot fz (d.ashNote 3).inactive).isNone with
    | false => exact hs
    | true =>
      rw [Dev.when_true]
      exact (Dev.get_raise _ _ _ (.inl hf)).trans hs
  have hcode : x.1.cfgCode v x.2 = code := by
    unfold Dev.cfgCode
    simp only [Dev.flag, hx F.hrtCfgStatBootpend (by decide) (by decide) (by decide) (by decide) (by decide),
      hx F.hrtCfgStatBusy (by decide) (by decide) (by decide) (by decide) (by decide), hboot, hbusy, hop]
    rfl
  have hlook : (decide (F.hrtCfgCmdOp.of v = 1) && !(d.ashNote 3).flag F.hrtCfgStatBootpend && !(d.ashNote 3).flag F.hrtCfgStatBusy) = true := by
    simp [hop, Dev.flag, hget, hboot, hbusy]
  unfold Dev.cfgTry
  simp only [hlook, if_true]
  rw [show ((d.ashNote 3).checkInactive fz).1.cfgCode v ((d.ashNote 3).checkInactive fz).2 = code from hcode]

/-- What the check of an inactive slot that does not verify leaves (R367). -/
theorem Dev.slotRefused_shows (d : Dev) {code : Nat} (hc : code < 256) (k : Nat) :
    let e := ((d.showSlot k none).slotBad none).cfgRefuse code
    e.get F.hrtCfgStatResult = code ∧ d.Raised 0x0E e ∧ d.Raised 0x09 e ∧ e.get F.hrtCfgStatBusy = d.get F.hrtCfgStatBusy
      ∧ d.Moves Dev.Moves.evtParts (shown [R.hrtCfgStat, R.hrtCfgSeqa, R.hrtCfgSeqb] [0x09, 0x0E]) e := by
  intro e
  have hm := d.showSlot_moves k none
  have hbusy := d.get_showSlot k none (f := F.hrtCfgStatBusy) (by decide) (by decide) (by decide) (by decide)
  have hbad : (d.showSlot k none).slotBad none = (d.showSlot k none).raise 0x09 [R.hrtCfgStat] := rfl
  subst e
  rw [hbad]
  generalize d.showSlot k none = a at *
  have ha := a.raised_raise 0x09 [R.hrtCfgStat] (by decide)
  have hma : d.Moves Dev.Moves.evtParts (shown [R.hrtCfgStat, R.hrtCfgSeqa, R.hrtCfgSeqb] [0x09, 0x0E]) (a.raise 0x09 [R.hrtCfgStat]) :=
    (hm.mono (by simp) (shown_mono (by simp) (by simp))).raised 0x09 [R.hrtCfgStat] (by simp)
  have hba : (a.raise 0x09 [R.hrtCfgStat]).get F.hrtCfgStatBusy = a.get F.hrtCfgStatBusy := Dev.get_raise _ _ _ (.inl (by decide))
  have hctl : (a.raise 0x09 [R.hrtCfgStat]).reg (R.hrtEvtSrcCtl 0x0E) = d.reg (R.hrtEvtSrcCtl 0x0E) :=
    ((Dev.Moves.refl Dev.Moves.evtParts (shown [] [0x09]) a).raised 0x09 [R.hrtCfgStat] (by simp)).only _ (by simp) (by decide) |>.trans (hm.only _ (by decide) (by simp))
  generalize a.raise 0x09 [R.hrtCfgStat] = b at *
  obtain ⟨hres, hraise, hr⟩ := b.cfgRefuse_shows hc
  have hb2 : (b.cfgRefuse code).get F.hrtCfgStatBusy = b.get F.hrtCfgStatBusy := by
    unfold Dev.cfgRefuse
    rw [Dev.get_raise _ _ _ (.inl (by decide)), Dev.get_set_off _ _ _ _ (by decide)]
  generalize b.cfgRefuse code = e at *
  refine ⟨hres, hraise.of_ctl hctl.symm rfl, ha.of_ctl (hm.only _ (by decide) (by simp)).symm (hr.only _ (by decide) (by decide)), hb2.trans (hba.trans hbusy), hma.trans (hr.mono (by simp) (shown_mono (by simp) (by simp)))⟩

theorem Dev.inactive_noted (s : State) (l : List Access) : ((s.dev.setWaiting l).ashNote 3).inactive = s.dev.inactive := by
  simp only [Dev.inactive, (Dev.CfgNoted.of_moves (s.cfgNote_moves l)).get]

theorem Dev.verifySlot_noted (s : State) (l : List Access) (fz : Fuses) (k : Nat) : ((s.dev.setWaiting l).ashNote 3).verifySlot fz k = s.dev.verifySlot fz k :=
  Dev.verifySlot_congr (congrArg ImgSt.mram (Dev.CfgNoted.of_moves (s.cfgNote_moves l)).img) ((s.cfgNote_moves l).parts .blown (by decide)) fz k

/-- ACTIVATE with an inactive slot that does not verify (R367, R373). -/
theorem State.activate_bad {s : State} {v : Word} (hs : s.dev.out = []) (ht : s.dev.Takes R.hrtCfgCmd (cfgWord v 1)) (hboot : s.dev.get F.hrtCfgStatBootpend = 0)
    (hbusy : s.dev.get F.hrtCfgStatBusy = 0) (hbad : s.dev.verifySlot s.fuses s.dev.inactive = none) :
    ∃ t, s.hostWrite R.hrtCfgCmd (cfgWord v 1) = .next t ∧ t.outputs.head? = some (.writeDone R.hrtCfgCmd 10) ∧ t.dev.get F.hrtCfgStatResult = 2
      ∧ s.dev.Raised 0x0E t.dev ∧ s.dev.Raised 0x09 t.dev ∧ t.dev.get F.hrtGlbAerrCode = 10 ∧ t.dev.get F.hrtCfgStatBusy = 0
      ∧ t.dev.img = s.dev.img := by
  have htry : ∀ l, (s.dev.setWaiting l).cfgTry s.fuses (cfgWord v 1)
      = (((((s.dev.setWaiting l).ashNote 3).showSlot s.dev.inactive none).slotBad none).cfgRefuse 2, 2, none) := fun l => by
    rw [Dev.cfgTry_activate (d := s.dev.setWaiting l) s.fuses (cfgWord_op v (by decide)) hboot hbusy]
    simp only [Dev.checkInactive, Dev.inactive_noted, Dev.verifySlot_noted, hbad, Dev.activateCode]
    rfl
  refine State.cfgCmd_refused hs ht (fun l => by rw [htry]; exact (by decide : (2 : Nat) ≠ 0)) fun l t hends hout => ⟨hout, ?_⟩
  rw [htry] at hends
  have hn := s.cfgNote_moves l
  dsimp only at hends
  generalize (s.dev.setWaiting l).ashNote 3 = a at *
  obtain ⟨hres, h0E, h09, hb, hm⟩ := a.slotRefused_shows (code := 2) (by decide) s.dev.inactive
  generalize ((a.showSlot s.dev.inactive none).slotBad none).cfgRefuse 2 = b at *
  have he : b.Moves (.aerrAdr :: Dev.Moves.evtParts) (shown [R.hrtGlbAerr] [0x01]) (b.accessError 10 R.hrtCfgCmd true) :=
    (Dev.Moves.refl _ _ b).accessError 10 R.hrtCfgCmd true (.inl (by decide)) fun _ h => .inr ⟨0x01, by decide, h⟩
  have hcode := b.accessError_code (c := 10) (by decide) R.hrtCfgCmd true
  generalize b.accessError 10 R.hrtCfgCmd true = x at *
  refine ⟨(hends.get _).trans ((he.get (not_shown (by decide) (.inl (by decide)) (by decide))).trans hres),
    hends.raised.2 (h0E.of_ctl (hn.only _ (by decide) (by simp)).symm (he.only _ (by decide) (by decide))),
    hends.raised.2 (h09.of_ctl (hn.only _ (by decide) (by simp)).symm (he.only _ (by decide) (by decide))), (hends.get _).trans hcode,
    (hends.get _).trans ((he.get (not_shown (by decide) (.inl (by decide)) (by decide))).trans (hb.trans ((hn.get (by simp [shown])).trans hbusy))), ?_⟩
  rw [hends.same.img]
  exact (he.parts .img (by decide)).trans ((hm.parts .img (by decide)).trans (hn.parts .img (by decide)))

/-! ### RESOLVE (R370) -/

/-- RESOLVE in favour of the slot in force: the other one's header is erased, and the dispute is over (R370). -/
theorem Dev.resolveGo_keeps {d : Dev} {keep : Nat} (hkeep : keep = d.get F.hrtCfgStatActslot) (fz : Fuses) (force : Bool) :
    let e := d.resolveGo fz keep force
    e.get F.hrtCfgStatDisputed = 0 ∧ e.get F.hrtCfgStatResult = 0 ∧ e.get (slotValF (1 - keep)) = 0 ∧ e.img = (d.mramPut (slotBase (1 - keep)) (List.replicate 256 0)).img := by
  intro e
  have hm := (d.mramPut (slotBase (1 - keep)) (List.replicate 256 0)).showSlot_moves (1 - keep) none
  have hact := (d.mramPut (slotBase (1 - keep)) (List.replicate 256 0)).get_showSlot (1 - keep) none (f := F.hrtCfgStatActslot) (by decide) (by decide) (by decide) (by decide)
  have hval := (d.mramPut (slotBase (1 - keep)) (List.replicate 256 0)).showSlot_val (1 - keep) none
  have hreg : (d.mramPut (slotBase (1 - keep)) (List.replicate 256 0)).get F.hrtCfgStatActslot = d.get F.hrtCfgStatActslot :=
    (show ∀ l, (d.mramPut (slotBase (1 - keep)) l).get F.hrtCfgStatActslot = d.get F.hrtCfgStatActslot from fun _ => rfl) _
  have he : e = (((d.mramPut (slotBase (1 - keep)) (List.replicate 256 0)).showSlot (1 - keep) none).set F.hrtCfgStatDisputed 0).set F.hrtCfgStatResult 0 := by
    show Dev.resolveGo fz d keep force = _
    unfold Dev.resolveGo
    dsimp only
    rw [Dev.get_set_off _ _ _ _ (by decide), Dev.get_set_off _ _ _ _ (by decide), hact, hreg, if_pos hkeep]
  rw [he]
  have hi := Dev.showSlot_img (d.mramPut (slotBase (1 - keep)) (List.replicate 256 0)) (1 - keep) none
  clear he
  clear_value e
  generalize d.mramPut (slotBase (1 - keep)) (List.replicate 256 0) = a at *
  generalize a.showSlot (1 - keep) none = b at *
  refine ⟨?_, ?_, ?_, ((((Dev.Moves.refl [] (fun _ => True) b).set _ _ trivial).set _ _ trivial).parts .img (by decide)).trans hi⟩
  · rw [Dev.get_set_off _ _ _ _ (by decide), Dev.get_set_on _ _ _ (by decide)]
    rfl
  · rw [Dev.get_set_on _ _ _ (by decide)]
    rfl
  · have hp : F.hrtCfgStatDisputed.parted (slotValF (1 - keep)) = true ∧ F.hrtCfgStatResult.parted (slotValF (1 - keep)) = true := by
      unfold slotValF
      split <;> decide
    rw [Dev.get_set_off _ _ _ _ hp.2, Dev.get_set_off _ _ _ _ hp.1, hval]
    rfl

/-! ### ACTIVATE of a slot that verifies (R372) -/

/-- What the reloads of cords that are off or Held leave, one after another (R372, R374). -/
structure Dev.PassedAll (d : Dev) (cs : List Nat) (e : Dev) : Prop where
  secs : ∀ c ∈ cs, e.sec c = Tbl.get {} d.img.slot c
  cseqs : ∀ c ∈ cs, e.get (F.hrtCfgCseqSseq c) = (Tbl.get ({} : Sec) d.img.slot c).sseq % 2 ^ 32
  secs_ne : ∀ k, k ∉ cs → e.sec k = d.sec k
  cseqs_ne : ∀ k, k ∉ cs → k < 16 → e.get (F.hrtCfgCseqSseq k) = d.get (F.hrtCfgCseqSseq k)
  seq : e.img.seq = d.img.seq
  reload : e.img.reload = none
  busy : e.get F.hrtCfgStatBusy = 0
  result : e.get F.hrtCfgStatResult = 0
  mixed : e.get F.hrtCfgStatMixed = 0
  actslot : e.get F.hrtCfgStatActslot = d.get F.hrtCfgStatActslot

theorem Dev.PassedOff.cordSt {d e : Dev} {c : Nat} (h : d.PassedOff c e) {k : Nat} (hk : k < 0x100) (hc : c < 16) : e.cordSt k = d.cordSt k :=
  h.moves.cordSt hk (by simp only [List.mem_cons, List.not_mem_nil, or_false, R.hrtPwrCord, R.hrtCfgStat, R.hrtCfgCseq]; omega) (by simp)

theorem Dev.reloadPass_actslot (d : Dev) (r : Reload) {c : Nat} (hc : c < 16) (t : List Nat) :
    (d.reloadPass r c t).get F.hrtCfgStatActslot = d.get F.hrtCfgStatActslot := by
  have hact : (d.reloadMark r c t).get F.hrtCfgStatActslot = d.get F.hrtCfgStatActslot := by
    unfold Dev.reloadMark
    rw [Dev.get_raise _ _ _ (.inl (by decide))]
    cases r.activate <;> simp -implicitDefEqProofs (disch := decide) only [Dev.when_true, Dev.when_false, Dev.cfgStep, Dev.get_set_off, Dev.get_setReload]
  obtain ⟨hm, -⟩ := (d.reloadMark r c t).reloadOff_shows hc
  exact (hm.get (not_shown (by simp only [List.mem_singleton, F.hrtCfgStatActslot, R.hrtCfgStat, R.hrtCfgCseq]; omega) (.inl (by decide)) (by simp))).trans hact

theorem Dev.reloadNext_passes (fz : Fuses) {r : Reload} (hres : r.res = 0) (cs : List Nat) : ∀ {d : Dev}, (∀ c ∈ cs, c ≠ 0 ∧ c < 16 ∧ (d.cordSt c = 0 ∨ d.cordSt c = 5)) →
    cs.Nodup → d.get F.hrtPwrStatePend = 3 → d.PassedAll cs (Dev.reloadNext fz r cs d) := by
  induction cs with
  | nil =>
    intro d _ _ hpend
    obtain ⟨hbusy, hr, hmixed, hact, hi, hm⟩ := d.reloadEnd_shows (res := 0) (by decide) hpend
    rw [Dev.reloadNext, hres]
    exact ⟨by simp, by simp, fun k _ => by rw [Dev.sec, hi, Dev.sec], fun k _ hk => hm.get (not_shown
      (by simp only [List.mem_singleton, F.hrtCfgCseqSseq, R.hrtCfgStat, R.hrtCfgCseq]; omega) (.inl (by simp only [F.hrtCfgCseqSseq, R.hrtCfgCseq]; omega)) (by simp)),
      by rw [hi], by rw [hi], hbusy, hr, hmixed, hact⟩
  | cons c t ih =>
    intro d hcs hnd hpend
    obtain ⟨hc0, hc16, hst⟩ := hcs c (List.mem_cons_self ..)
    have hp := d.reloadPass_shows r hc16 t
    have hact := d.reloadPass_actslot r hc16 t
    rw [Dev.reloadNext_off hc0 hc16 hst]
    generalize d.reloadPass r c t = b at *
    have hpb : b.get F.hrtPwrStatePend = 3 :=
      (hp.moves.get (not_shown (by simp only [List.mem_cons, List.not_mem_nil, or_false, F.hrtPwrStatePend, R.hrtPwrState, R.hrtCfgStat, R.hrtCfgCseq]; omega)
        (.inl (by decide)) (by decide))).trans hpend
    obtain ⟨hnot, hndt⟩ := List.nodup_cons.1 hnd
    have hall := ih (d := b) (fun k hk => by
      obtain ⟨h0, h16, h⟩ := hcs k (List.mem_cons_of_mem _ hk)
      rw [hp.cordSt (by omega) hc16]
      exact ⟨h0, h16, h⟩) hndt hpb
    generalize Dev.reloadNext fz r t b = e at *
    refine ⟨List.forall_mem_cons.2 ⟨?_, fun k hk => ?_⟩, List.forall_mem_cons.2 ⟨?_, fun k hk => ?_⟩, fun k hk => ?_, fun k hk h16 => ?_, hall.seq.trans hp.seq, hall.reload,
      hall.busy, hall.result, hall.mixed, hall.actslot.trans hact⟩
    · rw [hall.secs_ne c hnot, hp.sec]
    · rw [hall.secs k hk, hp.slot]
    · rw [hall.cseqs_ne c hnot hc16, hp.cseq]
    · rw [hall.cseqs k hk, hp.slot]
    · rw [List.mem_cons, not_or] at hk
      obtain ⟨hkc, hkt⟩ := hk
      rw [hall.secs_ne k hkt, hp.sec_ne k hkc]
    · rw [List.mem_cons, not_or] at hk
      obtain ⟨hkc, hkt⟩ := hk
      rw [hall.cseqs_ne k hkt h16]
      exact hp.moves.get (not_shown (by simp only [List.mem_cons, List.not_mem_nil, or_false, F.hrtCfgCseqSseq, R.hrtCfgStat, R.hrtCfgCseq]; omega)
        (.inl (by simp only [F.hrtCfgCseqSseq, R.hrtCfgCseq]; omega)) (by simp))

/-! #### What an accepted ACTIVATE finds -/

/-- The table of sections of an image holds each cord's section. -/
theorem Tbl.get_sections (l : List Sec) : ∀ (n : Nat) (t : Tbl Sec) (k : Nat),
    Tbl.get {} ((l.zipIdx n).foldl (fun t x => Tbl.set {} t x.2 x.1) t) k = if n ≤ k ∧ k < n + l.length then l.getD (k - n) {} else Tbl.get {} t k := by
  induction l with
  | nil =>
    intro n t k
    simp only [List.zipIdx_nil, List.foldl_nil, List.length_nil]
    rw [if_neg (by omega)]
  | cons x xs ih =>
    intro n t k
    rw [List.zipIdx_cons, List.foldl_cons, ih]
    by_cases hk : k = n
    · subst hk
      rw [if_neg (by omega), Tbl.get_set_self, if_pos (by simp)]
      simp
    · rw [Tbl.get_set_ne _ _ _ _ hk]
      by_cases hin : n + 1 ≤ k ∧ k < n + 1 + xs.length
      · rw [if_pos hin, if_pos (by simp only [List.length_cons]; omega), show k - n = (k - (n + 1)) + 1 by omega, List.getD_cons_succ]
      · rw [if_neg hin, if_neg (by simp only [List.length_cons]; omega)]

theorem Dev.takeImage_slot (d : Dev) (k : Nat) (i : Image) (c : Nat) : Tbl.get {} (d.takeImage k i).img.slot c = i.secs.getD c {} := by
  refine (Tbl.get_sections i.secs 0 [] c).trans ?_
  by_cases h : 0 ≤ c ∧ c < 0 + i.secs.length
  · rw [if_pos h]
    rfl
  · rw [if_neg h, List.getD_eq_default _ _ (by omega)]
    rfl

/-- The device in which an ACTIVATE is checked differs in the slot's own registers and the ash log alone. -/
structure Dev.Checked (d e : Dev) : Prop where
  moves : d.Moves [.free, .ash, .waiting] (shown [R.hrtCfgStat, R.hrtCfgSeqa, R.hrtCfgSeqb] []) e
  get : ∀ f : Fld, F.hrtCfgStatVala.parted f = true → F.hrtCfgStatValb.parted f = true → F.hrtCfgSeqaSeq.parted f = true → F.hrtCfgSeqbSeq.parted f = true → e.get f = d.get f

theorem Dev.checked_showSlot (s : State) (l : List Access) (k : Nat) (i : Image) : s.dev.Checked (((s.dev.setWaiting l).ashNote 3).showSlot k (some i)) := by
  have hn := Dev.CfgNoted.of_moves (s.cfgNote_moves l)
  refine ⟨(hn.moves.mono (by simp) (shown_mono (by simp) (by simp))).trans ((Dev.showSlot_moves _ _ _).mono (by simp) fun _ h => h), fun f ha hb hsa hsb => ?_⟩
  rw [Dev.get_showSlot _ _ _ ha hb hsa hsb, hn.get]

namespace Dev.Checked
variable {d e : Dev} (h : d.Checked e)
include h

theorem low {f : Fld} (hf : f.addr ≠ R.hrtCfgStat) (ha : f.addr ≠ R.hrtCfgSeqa) (hb : f.addr ≠ R.hrtCfgSeqb) (hlow : f.addr < 0x80000) : e.get f = d.get f :=
  h.moves.get (not_shown (by simp [hf, ha, hb]) (.inl hlow) (by simp))

theorem img : e.img = d.img := h.moves.parts .img (by decide)
theorem pwr : e.pwr = d.pwr := h.moves.parts .pwr (by decide)
theorem spr : e.spr = d.spr := h.moves.parts .spr (by decide)

theorem sec (c : Nat) : e.sec c = d.sec c := by rw [Dev.sec, h.img, Dev.sec]

theorem cordSt {c : Nat} (hc : c < 0x100) : e.cordSt c = d.cordSt c :=
  h.moves.cordSt hc (by simp only [List.mem_cons, List.not_mem_nil, or_false, R.hrtPwrCord, R.hrtCfgStat, R.hrtCfgSeqa, R.hrtCfgSeqb]; omega) (by simp)

theorem diffCords (i : Image) : e.diffCords i = d.diffCords i := by simp only [Dev.diffCords, h.sec]

end Dev.Checked

theorem Dev.any_servesNow_off {d : Dev} {cs : List Nat} (h : ∀ c ∈ cs, d.cordSt c = 0 ∨ d.cordSt c = 5) : (cs.any fun c => (d.servesNow c).isSome) = false := by
  rw [List.any_eq_false]
  intro c hc
  rw [Dev.servesNow_off (h c hc)]
  simp

theorem Dev.mem_diffCords {d : Dev} {i : Image} {c : Nat} (h : c ∈ d.diffCords i) : c < 13 := List.mem_range.1 (List.mem_filter.1 h).1

theorem Dev.diffCords_nodup (d : Dev) (i : Image) : (d.diffCords i).Nodup := List.nodup_range.filter _

/-- What R373 asks of an ACTIVATE that touches no serving engine is as it was before the slot was looked at. -/
theorem Dev.Checked.activateCode {d e : Dev} (h : d.Checked e) {i : Image} (hoff : ∀ c ∈ d.diffCords i, d.cordSt c = 0 ∨ d.cordSt c = 5) (force : Bool) :
    e.activateCode (some i) force false = d.activateCode (some i) force false := by
  have h1 := Dev.any_servesNow_off hoff
  have h2 : ((e.diffCords i).any fun c => (e.servesNow c).isSome) = false := by
    refine Dev.any_servesNow_off fun c hc => ?_
    rw [h.diffCords] at hc
    rw [h.cordSt (by have := Dev.mem_diffCords hc; omega)]
    exact hoff c hc
  simp only [Dev.activateCode, Dev.flag, h1, h2, Bool.and_false, h.sec, h.img, h.pwr, h.get F.hrtCfgStatNoimg (by decide) (by decide) (by decide) (by decide),
    h.get F.hrtCfgStatDisputed (by decide) (by decide) (by decide) (by decide), h.low (f := F.hrtPwrStatePend) (by decide) (by decide) (by decide) (by decide)]

theorem Dev.takeImage_seq (d : Dev) (k : Nat) (i : Image) : (d.takeImage k i).img.seq = i.seq := by
  unfold Dev.takeImage
  generalize d.set F.hrtCfgStatActslot k = a
  rfl

theorem Dev.takeImage_actslot (d : Dev) (k : Nat) (i : Image) : (d.takeImage k i).get F.hrtCfgStatActslot = k % 2 := by
  have h := d.get_set_on F.hrtCfgStatActslot k (by decide)
  unfold Dev.takeImage
  generalize d.set F.hrtCfgStatActslot k = a at *
  exact h

/-- An accepted ACTIVATE over cords that are off or Held: each takes its section at once (R372, R374). -/
theorem Dev.activateGo_off {d : Dev} {i : Image} (hno : d.get F.hrtCfgStatNoimg = 0) (hpend : d.get F.hrtPwrStatePend = 3)
    (hoff : ∀ c ∈ d.diffCords i, c ≠ 0 ∧ (d.cordSt c = 0 ∨ d.cordSt c = 5)) (fz : Fuses) (force : Bool) :
    let e := d.activateGo fz i force
    e.get F.hrtCfgStatResult = 0 ∧ e.get F.hrtCfgStatBusy = 0 ∧ e.get F.hrtCfgStatMixed = 0 ∧ e.get F.hrtCfgStatActslot = d.inactive % 2
      ∧ (∀ c ∈ d.diffCords i, e.sec c = i.secs.getD c {} ∧ e.get (F.hrtCfgCseqSseq c) = (i.secs.getD c {}).sseq % 2 ^ 32)
      ∧ e.img.seq = i.seq ∧ e.img.reload = none := by
  intro e
  have hm : d.Moves [.img] (shown [R.hrtCfgStat] []) (d.takeImage d.inactive i) := ((Dev.Moves.refl _ _ d).set F.hrtCfgStatActslot _ (.inl (by decide))).setImg _ id
  have hslot := d.takeImage_slot d.inactive i
  have hseq : (d.takeImage d.inactive i).img.seq = i.seq := d.takeImage_seq d.inactive i
  have hact : (d.takeImage d.inactive i).get F.hrtCfgStatActslot = d.inactive % 2 := d.takeImage_actslot d.inactive i
  have he : e = (d.takeImage d.inactive i).reloadStart fz (d.diffCords i) true force := by
    show Dev.activateGo fz d i force = _
    unfold Dev.activateGo
    dsimp only
    rw [if_neg (by simp [Dev.flag, hno])]
  clear_value e
  subst he
  generalize d.takeImage d.inactive i = a at *
  have hb := a.cfgBegin_moves
  have hbact : ((a.set F.hrtCfgStatBusy 1).set F.hrtCfgStatResult 0).get F.hrtCfgStatActslot = a.get F.hrtCfgStatActslot := by
    rw [Dev.get_set_off _ _ _ _ (by decide), Dev.get_set_off _ _ _ _ (by decide)]
  unfold Dev.reloadStart
  dsimp only
  have himg : ((a.set F.hrtCfgStatBusy 1).set F.hrtCfgStatResult 0).img = a.img := hb.parts .img (by decide)
  generalize (a.set F.hrtCfgStatBusy 1).set F.hrtCfgStatResult 0 = b at *
  have hnot : ∀ k, R.hrtPwrCord k ∉ [R.hrtCfgStat] := fun k => by
    simp only [List.mem_singleton, R.hrtPwrCord, R.hrtCfgStat]
    omega
  have hst : ∀ c < 0x100, b.cordSt c = d.cordSt c := fun c hc => (hb.cordSt hc (hnot c) (by simp)).trans (hm.cordSt hc (hnot c) (by simp))
  have hall := Dev.reloadNext_passes fz (r := { cord := 15, rest := [], activate := true, force := force, old := {} }) rfl (d.diffCords i) (d := b) (fun c hc => by
    have hlt := Dev.mem_diffCords hc
    rw [hst c (by omega)]
    exact ⟨(hoff c hc).1, by omega, (hoff c hc).2⟩) (d.diffCords_nodup i)
    ((hb.get (not_shown (by decide) (.inl (by decide)) (by simp))).trans ((hm.get (not_shown (by decide) (.inl (by decide)) (by simp))).trans hpend))
  refine ⟨hall.result, hall.busy, hall.mixed, hall.actslot.trans (hbact.trans hact), fun c hc => ⟨?_, ?_⟩, hall.seq.trans (by rw [himg, hseq]), hall.reload⟩
  · rw [hall.secs c hc, himg, hslot]
  · rw [hall.cseqs c hc, himg, hslot]

theorem Dev.pend_of_activateCode {d : Dev} {i : Image} {force kept : Bool} (h : d.activateCode (some i) force kept = 0) : d.get F.hrtPwrStatePend = 3 := by
  unfold Dev.activateCode at h
  dsimp only at h
  split_ifs at h with _ _ _ _ _ _ hlast
  simp only [Bool.or_eq_true, not_or, bne_iff_ne, ne_eq, not_not] at hlast
  exact hlast.2

/-- An ACTIVATE of an image whose cords are all off or Held (R372). -/
theorem State.activate_takes {s : State} {v : Word} {i : Image} (hs : s.dev.out = []) (ht : s.dev.Takes R.hrtCfgCmd (cfgWord v 1)) (hboot : s.dev.get F.hrtCfgStatBootpend = 0)
    (hbusy : s.dev.get F.hrtCfgStatBusy = 0) (hno : s.dev.get F.hrtCfgStatNoimg = 0) (hi : s.dev.verifySlot s.fuses s.dev.inactive = some i)
    (hcode : s.dev.activateCode (some i) (F.hrtCfgCmdForce.of v == 1) false = 0)
    (hoff : ∀ c ∈ s.dev.diffCords i, c ≠ 0 ∧ (s.dev.cordSt c = 0 ∨ s.dev.cordSt c = 5)) :
    ∃ t, s.hostWrite R.hrtCfgCmd (cfgWord v 1) = .next t ∧ t.outputs.head? = some (.writeDone R.hrtCfgCmd 0) ∧ t.dev.get F.hrtCfgStatResult = 0
      ∧ t.dev.get F.hrtCfgStatBusy = 0 ∧ t.dev.get F.hrtCfgStatMixed = 0 ∧ t.dev.get F.hrtCfgStatActslot = s.dev.inactive % 2
      ∧ (∀ c ∈ s.dev.diffCords i, t.dev.sec c = i.secs.getD c {}
          ∧ t.dev.get (F.hrtCfgCseqSseq c) = (i.secs.getD c {}).sseq % 2 ^ 32)
      ∧ t.dev.img.seq = i.seq ∧ t.dev.img.reload = none := by
  have hpend := Dev.pend_of_activateCode hcode
  have hforce : F.hrtCfgCmdForce.of (cfgWord v 1) = F.hrtCfgCmdForce.of v := cfgWord_apart v 1 (by decide) (by decide)
  have htry : ∀ l, (s.dev.setWaiting l).cfgTry s.fuses (cfgWord v 1) = (((s.dev.setWaiting l).ashNote 3).showSlot s.dev.inactive (some i), 0, some i) := fun l => by
    have hc := (Dev.checked_showSlot s l s.dev.inactive i).activateCode (fun c hc => (hoff c hc).2) (F.hrtCfgCmdForce.of v == 1)
    have hgood : ∀ x : Dev, x.slotBad (some i) = x := fun x => rfl
    rw [Dev.cfgTry_activate (d := s.dev.setWaiting l) s.fuses (cfgWord_op v (by decide)) hboot hbusy]
    simp only [Dev.checkInactive, Dev.inactive_noted, Dev.verifySlot_noted, hi, hforce, hgood, hc, hcode]
    rfl
  refine State.cfgCmd_takes hs ht (fun l => by rw [htry]) fun l w t hends hout => ⟨hout, ?_⟩
  rw [htry] at hends
  have hchk := Dev.checked_showSlot s l s.dev.inactive i
  dsimp only at hends
  generalize ((s.dev.setWaiting l).ashNote 3).showSlot s.dev.inactive (some i) = a at *
  have hgo : (a.setReg R.hrtCfgCmd w).cfgGo s.fuses (cfgWord v 1) (some i) = (a.setReg R.hrtCfgCmd w).activateGo s.fuses i (F.hrtCfgCmdForce.of v == 1) := by
    unfold Dev.cfgGo
    simp only [cfgWord_op v (op := 1) (by decide), hforce]
  rw [hgo] at hends
  have hget : ∀ f : Fld, f.addr ≠ R.hrtCfgCmd → (a.setReg R.hrtCfgCmd w).get f = a.get f := fun f hf => Dev.get_setReg_ne _ _ _ _ hf
  have hin : (a.setReg R.hrtCfgCmd w).inactive = s.dev.inactive := by
    simp only [Dev.inactive, hget F.hrtCfgStatActslot (by decide), hchk.get F.hrtCfgStatActslot (by decide) (by decide) (by decide) (by decide)]
  have hdiff : (a.setReg R.hrtCfgCmd w).diffCords i = s.dev.diffCords i := by
    rw [← hchk.diffCords i]
    have himg : (a.setReg R.hrtCfgCmd w).img = a.img := ((Dev.Moves.refl [] (fun _ => True) a).setReg R.hrtCfgCmd w trivial).parts .img (by decide)
    have hsecs : ∀ c, (a.setReg R.hrtCfgCmd w).sec c = a.sec c := fun c => by rw [Dev.sec, himg, Dev.sec]
    simp only [Dev.diffCords, hsecs]
  have hst : ∀ c < 0x100, (a.setReg R.hrtCfgCmd w).cordSt c = s.dev.cordSt c := fun c hc => by
    rw [← hchk.cordSt hc]
    simp only [Dev.cordSt, hget (F.hrtPwrCordSt c) (by simp only [F.hrtPwrCordSt, R.hrtPwrCord, R.hrtCfgCmd]; omega)]
  have hnoimg : (a.setReg R.hrtCfgCmd w).get F.hrtCfgStatNoimg = 0 :=
    (hget F.hrtCfgStatNoimg (by decide)).trans ((hchk.get F.hrtCfgStatNoimg (by decide) (by decide) (by decide) (by decide)).trans hno)
  have hpend' : (a.setReg R.hrtCfgCmd w).get F.hrtPwrStatePend = 3 := (hget F.hrtPwrStatePend (by decide)).trans ((hchk.low (f := F.hrtPwrStatePend) (by decide) (by decide) (by decide) (by decide)).trans hpend)
  generalize a.setReg R.hrtCfgCmd w = b at *
  obtain ⟨hres, hb, hmixed, hact, hsecs, hseq, hreload⟩ := Dev.activateGo_off hnoimg hpend' (i := i) (fun c hc => by
    rw [hdiff] at hc
    have hlt := Dev.mem_diffCords hc
    rw [hst c (by omega)]
    exact hoff c hc) s.fuses (F.hrtCfgCmdForce.of v == 1)
  rw [hdiff] at hsecs
  generalize b.activateGo s.fuses i (F.hrtCfgCmdForce.of v == 1) = e at *
  refine ⟨(hends.get _).trans hres, (hends.get _).trans hb, (hends.get _).trans hmixed, (hends.get _).trans (hact.trans (by rw [hin])), fun c hc => ⟨?_, ?_⟩, ?_, ?_⟩
  · rw [Dev.sec, hends.same.img]
    exact (hsecs c hc).1
  · exact (hends.get _).trans (hsecs c hc).2
  · rw [hends.same.img]
    exact hseq
  · rw [hends.same.img]
    exact hreload

/-! ### Boot selection (R367 to R371) -/

theorem Dev.showSlots_shows (d : Dev) (a b : Option Image) :
    let e := d.showSlots a b
    e.get F.hrtCfgStatVala = a.isSome.toNat ∧ e.get F.hrtCfgStatValb = b.isSome.toNat ∧ e.get F.hrtCfgSeqaSeq = ((a.map (·.seq)).getD 0) % 2 ^ 32
      ∧ d.Moves [] (shown [R.hrtCfgStat, R.hrtCfgSeqa, R.hrtCfgSeqb] []) e := by
  have hone : ∀ x : Option Image, (if x.isSome then 1 else 0) % 2 ^ 1 = x.isSome.toNat := fun x => by cases x <;> rfl
  unfold Dev.showSlots Dev.setFlag
  refine ⟨?_, ?_, ?_, ((((Dev.Moves.refl _ _ d).set F.hrtCfgStatVala _ (.inl (by decide))).set F.hrtCfgStatValb _ (.inl (by decide))).set F.hrtCfgSeqaSeq _
    (.inl (by decide))).set F.hrtCfgSeqbSeq _ (.inl (by decide))⟩
  · simp -implicitDefEqProofs (disch := decide) only [Dev.get_set_off, Dev.get_set_on]
    exact hone a
  · simp -implicitDefEqProofs (disch := decide) only [Dev.get_set_off, Dev.get_set_on]
    exact hone b
  · simp -implicitDefEqProofs (disch := decide) only [Dev.get_set_off, Dev.get_set_on]
    rfl

/-- A slot that fails verification at boot or activation changes the source of its event alone. -/
theorem Dev.slotBad_shows (d : Dev) (i : Option Image) :
    d.Moves Dev.Moves.evtParts (shown [] [0x09]) (d.slotBad i) ∧ ∀ f : Fld, f.addr < 0x80000 → (d.slotBad i).get f = d.get f := by
  unfold Dev.slotBad
  cases i.isNone with
  | false => exact ⟨.refl _ _ d, fun _ _ => rfl⟩
  | true => exact ⟨(Dev.Moves.refl _ _ d).raised 0x09 _ (by simp), fun f hf => by
      rw [Dev.when_true]
      exact Dev.get_raise _ _ _ (.inl hf)⟩

/-- Both slots as boot selection has verified them. -/
def Dev.slotsSeen (d : Dev) (a b : Option Image) : Dev := (((d.showSlots a b).slotBad a).slotBad b).set F.hrtCfgStatBootpend 0

theorem Dev.slotsSeen_shows (d : Dev) (a b : Option Image) :
    let e := d.slotsSeen a b
    e.get F.hrtCfgStatBootpend = 0 ∧ e.get F.hrtCfgStatVala = a.isSome.toNat ∧ e.get F.hrtCfgStatValb = b.isSome.toNat
      ∧ e.get F.hrtCfgSeqaSeq = ((a.map (·.seq)).getD 0) % 2 ^ 32 ∧ d.Moves Dev.Moves.evtParts (shown [R.hrtCfgStat, R.hrtCfgSeqa, R.hrtCfgSeqb] [0x09]) e := by
  obtain ⟨hva, hvb, hsa, hm⟩ := d.showSlots_shows a b
  unfold Dev.slotsSeen
  generalize d.showSlots a b = x at *
  obtain ⟨hm1, hg1⟩ := x.slotBad_shows a
  generalize x.slotBad a = y at *
  obtain ⟨hm2, hg2⟩ := y.slotBad_shows b
  generalize y.slotBad b = z at *
  have hall : d.Moves Dev.Moves.evtParts (shown [R.hrtCfgStat, R.hrtCfgSeqa, R.hrtCfgSeqb] [0x09]) z :=
    ((hm.mono (by simp) (shown_mono (by simp) (by simp))).trans (hm1.mono (by simp) (shown_mono (by simp) (by simp)))).trans (hm2.mono (by simp) (shown_mono (by simp) (by simp)))
  refine ⟨Dev.get_set_on _ _ _ (by decide), ?_, ?_, ?_, hall.set _ _ (.inl (by decide))⟩
  · rw [Dev.get_set_off _ _ _ _ (by decide), hg2 _ (by decide), hg1 _ (by decide), hva]
  · rw [Dev.get_set_off _ _ _ _ (by decide), hg2 _ (by decide), hg1 _ (by decide), hvb]
  · rw [Dev.get_set_off _ _ _ _ (by decide), hg2 _ (by decide), hg1 _ (by decide), hsa]

/-- A boot without a valid slot (R369). -/
def Dev.bootNone (d : Dev) : Dev := ((d.slotsSeen none none).set F.hrtCfgStatNoimg 1).raise 0x0F [R.hrtCfgStat]

theorem satAdd_twice {x : Nat} : satAdd 16 (satAdd 16 x 1) 1 = satAdd 16 x 2 := by
  simp only [satAdd]
  omega

theorem Dev.bootNone_count (d : Dev) : d.bootNone.get (F.hrtEvtSrcCtlCount 0x09) = satAdd 16 (d.get (F.hrtEvtSrcCtlCount 0x09)) 2 := by
  obtain ⟨-, -, -, hm⟩ := d.showSlots_shows none none
  have hb : ∀ x : Dev, x.slotBad none = x.raise 0x09 [R.hrtCfgStat] := fun x => rfl
  unfold Dev.bootNone Dev.slotsSeen
  rw [hb, hb]
  have h0 : (d.showSlots none none).reg (R.hrtEvtSrcCtl 0x09) = d.reg (R.hrtEvtSrcCtl 0x09) := hm.only _ (by decide) (by simp)
  generalize d.showSlots none none = x at *
  have h1 := x.raised_raise 0x09 [R.hrtCfgStat] (by decide)
  generalize x.raise 0x09 [R.hrtCfgStat] = y at *
  have h2 := y.raised_raise 0x09 [R.hrtCfgStat] (by decide)
  generalize y.raise 0x09 [R.hrtCfgStat] = z at *
  have h3 : ((z.set F.hrtCfgStatBootpend 0).set F.hrtCfgStatNoimg 1).reg (R.hrtEvtSrcCtl 0x09) = z.reg (R.hrtEvtSrcCtl 0x09) :=
    (Dev.reg_set_ne _ _ (by decide)).trans (Dev.reg_set_ne _ _ (by decide))
  generalize (z.set F.hrtCfgStatBootpend 0).set F.hrtCfgStatNoimg 1 = w at *
  have h4 : (w.raise 0x0F [R.hrtCfgStat]).reg (R.hrtEvtSrcCtl 0x09) = w.reg (R.hrtEvtSrcCtl 0x09) :=
    ((Dev.Only.refl [] [0x0F] w).raise 0x0F [R.hrtCfgStat] (by simp)) _ (by simp) (by decide)
  have hget := congrArg (F.hrtEvtSrcCtlCount 0x09).of (h4.trans h3)
  refine hget.trans (h2.2.trans ?_)
  rw [h1.2, satAdd_twice]
  exact congrArg (fun w => satAdd 16 ((F.hrtEvtSrcCtlCount 0x09).of w) 2) h0

theorem Dev.bootNone_shows (d : Dev) :
    let e := d.bootNone
    e.get F.hrtCfgStatBootpend = 0 ∧ e.get F.hrtCfgStatNoimg = 1 ∧ e.get F.hrtCfgStatVala = 0 ∧ e.get F.hrtCfgStatValb = 0 ∧ d.Raised 0x0F e
      ∧ d.Moves Dev.Moves.evtParts (shown [R.hrtCfgStat, R.hrtCfgSeqa, R.hrtCfgSeqb] [0x09, 0x0F]) e := by
  obtain ⟨hbp, hva, hvb, -, hm⟩ := d.slotsSeen_shows none none
  unfold Dev.bootNone
  generalize d.slotsSeen none none = x at *
  have hm1 : d.Moves Dev.Moves.evtParts (shown [R.hrtCfgStat, R.hrtCfgSeqa, R.hrtCfgSeqb] [0x09, 0x0F]) (x.set F.hrtCfgStatNoimg 1) :=
    (hm.mono (by simp) (shown_mono (by simp) (by simp))).set _ _ (.inl (by decide))
  have hlow : ∀ f : Fld, f.addr < 0x80000 → F.hrtCfgStatNoimg.parted f = true → ((x.set F.hrtCfgStatNoimg 1).raise 0x0F [R.hrtCfgStat]).get f = x.get f := fun f hf hp =>
    (Dev.get_raise _ _ _ (.inl hf)).trans (Dev.get_set_off _ _ _ _ hp)
  refine ⟨(hlow _ (by decide) (by decide)).trans hbp, (Dev.get_raise _ _ _ (.inl (by decide))).trans (Dev.get_set_on _ _ _ (by decide)),
    (hlow _ (by decide) (by decide)).trans hva, (hlow _ (by decide) (by decide)).trans hvb,
    (Dev.raised_raise _ _ _ (by decide)).of_ctl ?_ rfl, hm1.raised _ _ (by simp)⟩
  exact ((Dev.reg_set_ne _ _ (by decide)).trans (hm.only _ (by decide) (by decide))).symm

/-! #### The records a slot verifies (R364, R367) -/

/-- A record that a section of HRT may hold. -/
def Rec.ofHearth : Rec → Prop
  | .regset _ | .ctllevel _ | .cordpol _ | .retain _ => True
  | .engmap a b s => a ≤ 2 ∧ b ≤ 2 ∧ s ≤ 2
  | _ => False

/-- A record that a section of PCI may hold. -/
def Rec.ofPcie : Rec → Prop
  | .regset _ => True
  | .ringpool f n _ => f + n ≤ 2048
  | _ => False

/-- A parser's branch that gives a record. -/
theorem ofIf {p : Prop} [Decidable p] {x r : Rec} (h : (if p then some x else none) = some r) : p ∧ x = r := by
  split at h
  · exact ⟨‹p›, Option.some.inj h⟩
  · cases h

theorem engmap_le {a b s : Nat} (h : [a, b, s].all (fun x => decide (x ≤ 2)) = true) : a ≤ 2 ∧ b ≤ 2 ∧ s ≤ 2 := by
  simpa using h

theorem parseRec_hearth {rt : Nat} {b : List Byte} {r : Rec} (h : parseRec 0 rt b = some r) : r.ofHearth := by
  unfold parseRec at h
  dsimp only at h
  by_cases hrt : rt = 1
  · rw [if_pos hrt] at h
    obtain ⟨hc, rfl⟩ := ofIf h
    exact trivial
  rw [if_neg hrt] at h
  clear hrt
  by_cases hrt : rt = 0x100
  · rw [if_pos hrt] at h
    obtain ⟨hc, rfl⟩ := ofIf h
    exact trivial
  rw [if_neg hrt] at h
  clear hrt
  by_cases hrt : rt = 0x101
  · rw [if_pos hrt] at h
    obtain ⟨hc, rfl⟩ := ofIf h
    exact engmap_le hc.2.2.2.1
  rw [if_neg hrt] at h
  clear hrt
  by_cases hrt : rt = 0x102
  · rw [if_pos hrt] at h
    obtain ⟨hc, rfl⟩ := ofIf h
    exact trivial
  rw [if_neg hrt] at h
  clear hrt
  by_cases hrt : rt = 0x103
  · rw [if_pos hrt] at h
    obtain ⟨hc, rfl⟩ := ofIf h
    exact trivial
  rw [if_neg hrt] at h
  clear hrt
  by_cases hrt : rt = 0x300
  · rw [if_pos hrt] at h
    obtain ⟨hc, rfl⟩ := ofIf h
    exact absurd hc.1 (by decide)
  rw [if_neg hrt] at h
  clear hrt
  by_cases hrt : rt = 0x301
  · rw [if_pos hrt] at h
    obtain ⟨hc, rfl⟩ := ofIf h
    exact absurd hc.1 (by decide)
  rw [if_neg hrt] at h
  clear hrt
  by_cases hrt : rt = 0x400
  · rw [if_pos hrt] at h
    obtain ⟨hc, rfl⟩ := ofIf h
    exact absurd hc.1 (by decide)
  rw [if_neg hrt] at h
  clear hrt
  by_cases hrt : rt = 0x401
  · rw [if_pos hrt] at h
    obtain ⟨hc, rfl⟩ := ofIf h
    exact absurd hc.1 (by decide)
  rw [if_neg hrt] at h
  clear hrt
  by_cases hrt : rt = 0x500
  · rw [if_pos hrt] at h
    obtain ⟨hc, rfl⟩ := ofIf h
    exact absurd hc.1 (by decide)
  rw [if_neg hrt] at h
  clear hrt
  by_cases hrt : rt = 0x501
  · rw [if_pos hrt] at h
    obtain ⟨hc, rfl⟩ := ofIf h
    exact absurd hc.1 (by decide)
  rw [if_neg hrt] at h
  clear hrt
  by_cases hrt : rt = 0x502
  · rw [if_pos hrt] at h
    obtain ⟨hc, rfl⟩ := ofIf h
    exact absurd hc.1 (by decide)
  rw [if_neg hrt] at h
  clear hrt
  by_cases hrt : rt = 0x503
  · rw [if_pos hrt] at h
    obtain ⟨hc, rfl⟩ := ofIf h
    exact absurd hc.1 (by decide)
  rw [if_neg hrt] at h
  clear hrt
  by_cases hrt : rt = 0x504
  · rw [if_pos hrt] at h
    obtain ⟨hc, rfl⟩ := ofIf h
    exact absurd hc.1 (by decide)
  rw [if_neg hrt] at h
  clear hrt
  by_cases hrt : rt = 0x600
  · rw [if_pos hrt] at h
    obtain ⟨hc, rfl⟩ := ofIf h
    exact absurd hc.1 (by decide)
  rw [if_neg hrt] at h
  clear hrt
  by_cases hrt : rt = 0x700
  · rw [if_pos hrt] at h
    obtain ⟨hc, rfl⟩ := ofIf h
    exact absurd hc.1 (by decide)
  rw [if_neg hrt] at h
  clear hrt
  cases h

theorem parseRec_pcie {rt : Nat} {b : List Byte} {r : Rec} (h : parseRec 12 rt b = some r) : r.ofPcie := by
  unfold parseRec at h
  dsimp only at h
  by_cases hrt : rt = 1
  · rw [if_pos hrt] at h
    obtain ⟨hc, rfl⟩ := ofIf h
    exact trivial
  rw [if_neg hrt] at h
  clear hrt
  by_cases hrt : rt = 0x100
  · rw [if_pos hrt] at h
    obtain ⟨hc, rfl⟩ := ofIf h
    exact absurd hc.1 (by decide)
  rw [if_neg hrt] at h
  clear hrt
  by_cases hrt : rt = 0x101
  · rw [if_pos hrt] at h
    obtain ⟨hc, rfl⟩ := ofIf h
    exact absurd hc.1 (by decide)
  rw [if_neg hrt] at h
  clear hrt
  by_cases hrt : rt = 0x102
  · rw [if_pos hrt] at h
    obtain ⟨hc, rfl⟩ := ofIf h
    exact absurd hc.1 (by decide)
  rw [if_neg hrt] at h
  clear hrt
  by_cases hrt : rt = 0x103
  · rw [if_pos hrt] at h
    obtain ⟨hc, rfl⟩ := ofIf h
    exact absurd hc.1 (by decide)
  rw [if_neg hrt] at h
  clear hrt
  by_cases hrt : rt = 0x300
  · rw [if_pos hrt] at h
    obtain ⟨hc, rfl⟩ := ofIf h
    exact absurd hc.1 (by decide)
  rw [if_neg hrt] at h
  clear hrt
  by_cases hrt : rt = 0x301
  · rw [if_pos hrt] at h
    obtain ⟨hc, rfl⟩ := ofIf h
    exact absurd hc.1 (by decide)
  rw [if_neg hrt] at h
  clear hrt
  by_cases hrt : rt = 0x400
  · rw [if_pos hrt] at h
    obtain ⟨hc, rfl⟩ := ofIf h
    exact absurd hc.1 (by decide)
  rw [if_neg hrt] at h
  clear hrt
  by_cases hrt : rt = 0x401
  · rw [if_pos hrt] at h
    obtain ⟨hc, rfl⟩ := ofIf h
    exact absurd hc.1 (by decide)
  rw [if_neg hrt] at h
  clear hrt
  by_cases hrt : rt = 0x500
  · rw [if_pos hrt] at h
    obtain ⟨hc, rfl⟩ := ofIf h
    exact absurd hc.1 (by decide)
  rw [if_neg hrt] at h
  clear hrt
  by_cases hrt : rt = 0x501
  · rw [if_pos hrt] at h
    obtain ⟨hc, rfl⟩ := ofIf h
    exact absurd hc.1 (by decide)
  rw [if_neg hrt] at h
  clear hrt
  by_cases hrt : rt = 0x502
  · rw [if_pos hrt] at h
    obtain ⟨hc, rfl⟩ := ofIf h
    exact absurd hc.1 (by decide)
  rw [if_neg hrt] at h
  clear hrt
  by_cases hrt : rt = 0x503
  · rw [if_pos hrt] at h
    obtain ⟨hc, rfl⟩ := ofIf h
    exact absurd hc.1 (by decide)
  rw [if_neg hrt] at h
  clear hrt
  by_cases hrt : rt = 0x504
  · rw [if_pos hrt] at h
    obtain ⟨hc, rfl⟩ := ofIf h
    exact absurd hc.1 (by decide)
  rw [if_neg hrt] at h
  clear hrt
  by_cases hrt : rt = 0x600
  · rw [if_pos hrt] at h
    obtain ⟨hc, rfl⟩ := ofIf h
    exact absurd hc.1 (by decide)
  rw [if_neg hrt] at h
  clear hrt
  by_cases hrt : rt = 0x700
  · rw [if_pos hrt] at h
    obtain ⟨hc, rfl⟩ := ofIf h
    exact hc.2.2.2.1
  rw [if_neg hrt] at h
  clear hrt
  cases h

theorem parseRecs_mem {c : Nat} {P : Rec → Prop} (hP : ∀ rt b r, parseRec c rt b = some r → P r) :
    ∀ (n : Nat) (b : List Byte) (rs : List Rec), parseRecs c n b = some rs → ∀ r ∈ rs, P r := by
  intro n
  induction n with
  | zero =>
    intro b rs h
    cases b with
    | nil => cases h; simp
    | cons x xs => cases h
  | succ n ih =>
    intro b rs h
    cases b with
    | nil => cases h; simp
    | cons x xs =>
      simp only [parseRecs] at h
      split_ifs at h
      split at h
      · next r t hr ht =>
        cases h
        exact List.forall_mem_cons.2 ⟨hP _ _ _ hr, ih _ _ ht⟩
      · cases h

theorem Dev.parseSec_mem {d : Dev} {base sigofs c pos p : Nat} {x : List Byte} {s : Sec} {P : Rec → Prop} (hP : ∀ rt b r, parseRec c rt b = some r → P r)
    (h : d.parseSec base sigofs c pos x = some (s, p)) : ∀ r ∈ s.recs, P r := by
  unfold Dev.parseSec at h
  dsimp only at h
  by_cases h1 : (!zeroAt x 20 12 || beAt x 0 4 % 4 != 0 || beAt x 4 4 % 4 != 0
      || (if beAt x 4 4 = 0 then beAt x 0 4 != 0 else decide (beAt x 0 4 < pos) || decide (sigofs < beAt x 0 4 + beAt x 4 4))) = true
  · rw [if_pos h1] at h
    cases h
  · rw [if_neg h1] at h
    split at h
    · cases h
    · split at h
      · next rs hrs =>
        split at h
        · cases h
          exact parseRecs_mem hP _ _ _ hrs
        · cases h
      · cases h

theorem Dev.parseSecs_mem {d : Dev} {base sigofs : Nat} {k : Nat} {P : Rec → Prop} (hP : ∀ rt b r, parseRec k rt b = some r → P r) :
    ∀ (n c pos : Nat) (l : List Sec) (p : Nat), c ≤ k → d.parseSecs base sigofs n c pos = some (l, p) → ∀ r ∈ (l.getD (k - c) {}).recs, P r := by
  intro n
  induction n with
  | zero =>
    intro c pos l p _ h
    cases h
    simp
  | succ n ih =>
    intro c pos l p hc h
    simp only [Dev.parseSecs] at h
    split at h
    · cases h
    · next sec q hsec =>
      split at h
      · cases h
      · next t q' ht =>
        cases h
        rcases Nat.eq_or_lt_of_le hc with rfl | hlt
        · rw [Nat.sub_self, List.getD_cons_zero]
          exact Dev.parseSec_mem hP hsec
        · rw [show k - c = (k - (c + 1)) + 1 by omega, List.getD_cons_succ]
          exact ih _ _ _ _ hlt ht

/-- A verified slot's sections for HRT and PCI hold what these cords have (R364). -/
theorem Dev.verifySlot_recs {d : Dev} {fz : Fuses} {k : Nat} {a : Image} (h : d.verifySlot fz k = some a) :
    (∀ r ∈ (a.secs.getD 0 {}).recs, r.ofHearth) ∧ ∀ r ∈ (a.secs.getD 12 {}).recs, r.ofPcie := by
  unfold Dev.verifySlot at h
  dsimp only at h
  split at h
  · cases h
  · split at h
    · cases h
    · next ss fin hss =>
      split at h
      · cases h
        exact ⟨Dev.parseSecs_mem (k := 0) (fun _ _ _ => parseRec_hearth) _ _ _ _ _ (by decide) hss,
          Dev.parseSecs_mem (k := 12) (fun _ _ _ => parseRec_pcie) _ _ _ _ _ (by decide) hss⟩
      · cases h

/-! #### What the sections of a boot leave (R17, R361, R371) -/

/-- The fields a boot's image does not name: those of the slots, of BOOT_DONE, and the states of the cords. -/
def bootField (f : Fld) : Prop :=
  f ∈ [F.hrtCfgStatBootpend, F.hrtCfgStatActslot, F.hrtCfgStatVala, F.hrtCfgStatValb, F.hrtCfgSeqaSeq, F.hrtEvtSrcCtlStat 0x08, F.hrtEvtSrcCtlCount 0x08]
    ∨ ∃ c, 4 ≤ c ∧ c ≤ 11 ∧ f = F.hrtPwrCordSt c

/-- Those fields are as they were. -/
def Dev.BootKept (d e : Dev) : Prop := ∀ f, bootField f → e.get f = d.get f

theorem bootField.addr {f : Fld} (h : bootField f) :
    f.addr = R.hrtCfgStat ∨ f.addr = R.hrtCfgSeqa ∨ f.addr = R.hrtEvtSrcCtl 0x08 ∨ ∃ c, 4 ≤ c ∧ c ≤ 11 ∧ f.addr = R.hrtPwrCord c := by
  rcases h with h | ⟨c, h4, h11, rfl⟩
  · simp only [List.mem_cons, List.not_mem_nil, or_false] at h
    rcases h with rfl | rfl | rfl | rfl | rfl | rfl | rfl <;> simp [F.hrtCfgStatBootpend, F.hrtCfgStatActslot, F.hrtCfgStatVala, F.hrtCfgStatValb, F.hrtCfgSeqaSeq,
      F.hrtEvtSrcCtlStat, F.hrtEvtSrcCtlCount]
  · exact .inr (.inr (.inr ⟨c, h4, h11, rfl⟩))

namespace Dev.BootKept
variable {d e : Dev}

theorem refl (d : Dev) : d.BootKept d := fun _ _ => rfl

theorem trans {x : Dev} (h : d.BootKept e) (k : e.BootKept x) : d.BootKept x := fun f hf => (k f hf).trans (h f hf)

/-- A register of none of these fields. -/
theorem set (h : d.BootKept e) (g : Fld) (x : Nat) (hs : g.addr ≠ R.hrtCfgStat := by decide) (ha : g.addr ≠ R.hrtCfgSeqa := by decide)
    (he : g.addr ≠ R.hrtEvtSrcCtl 0x08 := by decide) (hc : g.addr < 0x50100 ∨ 0x50140 ≤ g.addr := by decide) :
    d.BootKept (e.set g x) := fun f hf => by
  refine (Dev.get_set_ne _ _ ?_).trans (h f hf)
  rcases hf.addr with h | h | h | ⟨c, h4, h11, h⟩
  · rw [h]; exact hs.symm
  · rw [h]; exact ha.symm
  · rw [h]; exact he.symm
  · rw [h]
    simp only [R.hrtPwrCord]
    omega

theorem when (h : d.BootKept e) (b : Bool) (f : Dev → Dev) (hf : ∀ x, d.BootKept x → d.BootKept (f x)) : d.BootKept (e.when b f) := by
  cases b with
  | false => exact h
  | true => exact hf _ h

theorem each {α : Type} (l : List α) (f : Dev → α → Dev) (hf : ∀ x, ∀ a ∈ l, d.BootKept x → d.BootKept (f x a)) (h : d.BootKept e) : d.BootKept (e.each l f) := by
  induction l generalizing e with
  | nil => exact h
  | cons a t ih => exact ih (fun x b hb => hf x b (List.mem_cons_of_mem _ hb)) (hf e a (List.mem_cons_self ..) h)

/-- A change of what no register shows. -/
theorem congr {x : Dev} (h : d.BootKept e) (hr : x.regs = e.regs) : d.BootKept x := fun f hf => (Dev.get_congr hr f).trans (h f hf)

/-- POL and WAKETO of a cord (R388). -/
theorem policy (h : d.BootKept e) {g : Fld} (x c : Nat) (hg : g.addr = R.hrtPwrCord c) (hc : c < 0x100) (hl : 3 ≤ g.lsb) : d.BootKept (e.set g x) := fun f hf => by
  refine Eq.trans ?_ (h f hf)
  rcases hf with h | ⟨k, h4, h11, rfl⟩
  · refine Dev.get_set_ne _ _ ?_
    rw [hg]
    simp only [List.mem_cons, List.not_mem_nil, or_false] at h
    rcases h with rfl | rfl | rfl | rfl | rfl | rfl | rfl <;> (simp only [F.hrtCfgStatBootpend, F.hrtCfgStatActslot, F.hrtCfgStatVala, F.hrtCfgStatValb, F.hrtCfgSeqaSeq,
      F.hrtEvtSrcCtlStat, F.hrtEvtSrcCtlCount, R.hrtCfgStat, R.hrtCfgSeqa, R.hrtEvtSrcCtl, R.hrtPwrCord]; omega)
  · refine Dev.get_set_apart _ _ _ _ (by simp [Fld.fits, F.hrtPwrCordSt]) (.inr (.inr ?_))
    simp only [F.hrtPwrCordSt]
    omega

/-- ENGPEND. -/
theorem engpend (h : d.BootKept e) (x : Nat) : d.BootKept (e.set F.hrtCfgStatEngpend x) := fun f hf => by
  refine Eq.trans ?_ (h f hf)
  rcases hf with h | ⟨k, h4, h11, rfl⟩
  · simp only [List.mem_cons, List.not_mem_nil, or_false] at h
    rcases h with rfl | rfl | rfl | rfl | rfl | rfl | rfl <;> exact Dev.get_set_off _ _ _ _ (by decide)
  · refine Dev.get_set_ne _ _ ?_
    simp only [F.hrtPwrCordSt, F.hrtCfgStatEngpend, R.hrtPwrCord, R.hrtCfgStat]
    omega

end Dev.BootKept

/-- A record of HRT's section, other than REGSET, applies and keeps those fields. -/
theorem Dev.applyRec_hearth (fz : Fuses) (d : Dev) {r : Rec} (h : r.ofHearth) (hr : ∀ p, r ≠ .regset p) : (d.applyRec fz 0 r).2 = true ∧ d.BootKept (d.applyRec fz 0 r).1 := by
  cases r with
  | regset p => exact absurd rfl (hr p)
  | ctllevel e => exact ⟨rfl, (Dev.BootKept.refl d).set F.hrtCfgCtllvlExpert e⟩
  | engmap a b s => exact ⟨rfl, (Dev.BootKept.refl d).engpend _⟩
  | cordpol l =>
    refine ⟨rfl, Dev.BootKept.each _ _ (fun x i hi hx => ?_) (.refl d)⟩
    have hi := List.mem_range.1 hi
    exact (hx.policy _ (i + 1) rfl (by omega) (by simp [F.hrtPwrCordPol])).policy _ (i + 1) rfl (by omega) (by simp [F.hrtPwrCordWaketo])
  | retain b => exact ⟨rfl, (Dev.BootKept.refl d).set F.hrtPwrRetainBanks b⟩
  | _ => exact absurd h (by simp [Rec.ofHearth])

theorem applyAll_kept {Q : Dev → Dev → Prop} (hrefl : ∀ d, Q d d) (htrans : ∀ {a b c}, Q a b → Q b c → Q a c) {f : Dev → Rec → Dev × Bool} (l : List Rec)
    (hf : ∀ d, ∀ r ∈ l, (f d r).2 = true ∧ Q d (f d r).1) : ∀ d, (applyAll f l d).2 = true ∧ Q d (applyAll f l d).1 := by
  induction l with
  | nil => exact fun d => ⟨rfl, hrefl d⟩
  | cons r t ih =>
    intro d
    obtain ⟨hok, hq⟩ := hf d r (List.mem_cons_self ..)
    obtain ⟨hok', hq'⟩ := ih (fun e x hx => hf e x (List.mem_cons_of_mem _ hx)) (f d r).1
    simp only [applyAll, hok, if_true]
    exact ⟨hok', htrans hq hq'⟩

/-- HRT's section at a boot (R371). -/
theorem Dev.applySecLive_hearth (fz : Fuses) (d : Dev) (h : ∀ r ∈ (d.sec 0).recs, r.ofHearth ∧ ∀ p, r ≠ .regset p) :
    (d.applySecLive fz 0).2 = true ∧ d.BootKept (d.applySecLive fz 0).1 := by
  obtain ⟨hok, hk⟩ := applyAll_kept Dev.BootKept.refl Dev.BootKept.trans (f := fun d r => d.applyLive fz 0 r) (d.sec 0).recs (fun e r hr => by
    have hl : e.applyLive fz 0 r = e.applyRec fz 0 r := rfl
    rw [hl]
    exact e.applyRec_hearth fz (h r hr).1 (h r hr).2) (d.set F.hrtPwrRetainBanks 0xF)
  exact ⟨hok, ((Dev.BootKept.refl d).set F.hrtPwrRetainBanks 0xF).trans hk⟩

theorem Dev.setRole_kept {d e : Dev} (h : d.BootKept e) {k : Nat} (hk : k ≤ 2) (n : Nat) : d.BootKept (e.setRole k n) := by
  unfold Dev.setRole
  refine (h.set _ _ ?_ ?_ ?_ ?_).when _ _ fun x hx => hx.set F.hrtSprStatSeasrem 0
  all_goals
    simp only [F.hrtSprEngRole, R.hrtSprEng, R.hrtCfgStat, R.hrtCfgSeqa, R.hrtEvtSrcCtl]
    omega

theorem Dev.give_kept {d e : Dev} (h : d.BootKept e) (w : Nat) (x : Option Nat) : d.BootKept (e.give w x) := by
  unfold Dev.give sprEngF
  split
  · exact h.set F.hrtSprStatWaeng _
  · exact h.set F.hrtSprStatWbeng _

/-- The engine map of a verified image (R17). -/
theorem Dev.takeEngmap_kept (d : Dev) (h : ∀ r ∈ (Tbl.get ({} : Sec) d.img.slot 0).recs, r.ofHearth) : d.BootKept d.takeEngmap := by
  unfold Dev.takeEngmap
  split
  · exact .refl d
  · next m hm =>
    obtain ⟨r, hr, hmap⟩ := List.exists_of_findSome?_eq_some hm
    have hle : m.1 ≤ 2 ∧ m.2.1 ≤ 2 ∧ m.2.2 ≤ 2 := by
      have hof := h r hr
      split at hmap
      · cases hmap
        exact hof
      · cases hmap
    have h0 : d.BootKept (d.setImg fun x => { x with engmap := m }) := (Dev.BootKept.refl d).congr rfl
    have h1 := Dev.setRole_kept (Dev.setRole_kept (Dev.setRole_kept (Dev.give_kept (Dev.give_kept h0 0 (some m.1)) 1 (some m.2.1)) hle.1 1) hle.2.1 1) hle.2.2 0
    exact h1.congr rfl

/-- The cords of policy 0 woken in order (R371): a cord of the list that is off wakes where its policy says so. -/
def Dev.bootWake (d : Dev) (c : Nat) : Dev :=
  d.when (d.cordSt c == 0 && (if c ≤ 3 then d.role (c - 1) == 1 else d.get (F.hrtPwrCordPol c) == 0)) fun d => d.cordWake c .boot

theorem Dev.bootWake_ne (d : Dev) {c : Nat} (a : Nat) (h : a ≠ R.hrtPwrCord c) : (d.bootWake c).reg a = d.reg a := by
  unfold Dev.bootWake
  refine Dev.Moves.regs (l := [.pwr]) (p := (· = R.hrtPwrCord c)) ?_ a h
  exact (Dev.Moves.refl [.pwr] (· = R.hrtPwrCord c) d).when _ _ fun x => ((Dev.Moves.refl [.pwr] (· = R.hrtPwrCord c) x).set (F.hrtPwrCordSt c) 1 rfl).setCordInfo _ _

theorem Dev.bootWake_self (d : Dev) {c : Nat} (hc : 4 ≤ c) (hst : d.cordSt c = 0) :
    (d.bootWake c).cordSt c = (if d.get (F.hrtPwrCordPol c) = 0 then 1 else 0) ∧ (d.bootWake c).get (F.hrtPwrCordPol c) = d.get (F.hrtPwrCordPol c) := by
  unfold Dev.bootWake
  rw [hst, if_neg (show ¬ c ≤ 3 by omega)]
  by_cases hp : d.get (F.hrtPwrCordPol c) = 0
  · rw [if_pos hp, hp]
    refine ⟨d.cordSt_cordWake (by omega) .boot, ?_⟩
    have h := (Dev.get_congr (d := d.setSt c 1) (e := d.cordWake c .boot) rfl (F.hrtPwrCordPol c)).trans (Dev.get_set_apart _ _ _ _ (by simp [Fld.fits, F.hrtPwrCordPol]) (by simp [Fld.apart, F.hrtPwrCordSt, F.hrtPwrCordPol]))
    rw [hp] at h
    exact h
  · have hn : (d.get (F.hrtPwrCordPol c) == 0) = false := by simpa using hp
    rw [if_neg hp, hn]
    exact ⟨hst, rfl⟩

theorem R.hrtPwrCord_ne {c k : Nat} (h : c ≠ k) : R.hrtPwrCord c ≠ R.hrtPwrCord k := by
  simp only [R.hrtPwrCord]
  omega

theorem Dev.bootWakes_others (l : List Nat) (a : Nat) (ha : ∀ c ∈ l, a ≠ R.hrtPwrCord c) : ∀ d : Dev, (d.each l Dev.bootWake).reg a = d.reg a := by
  induction l with
  | nil => exact fun _ => rfl
  | cons c t ih => exact fun d => (ih (fun k hk => ha k (List.mem_cons_of_mem _ hk)) _).trans (d.bootWake_ne a (ha c (List.mem_cons_self ..)))

theorem Dev.bootWakes_shows (l : List Nat) (hnd : l.Nodup) {c : Nat} (hc : 4 ≤ c) (hcl : c ∈ l) : ∀ d : Dev, d.cordSt c = 0 →
    (d.each l Dev.bootWake).cordSt c = (if (d.each l Dev.bootWake).get (F.hrtPwrCordPol c) = 0 then 1 else 0) := by
  have hcong : ∀ {x y : Dev}, x.reg (R.hrtPwrCord c) = y.reg (R.hrtPwrCord c) → ∀ f : Fld, f.addr = R.hrtPwrCord c → x.get f = y.get f := fun h f hf => by
    simp only [Dev.get, hf, h]
  induction l with
  | nil => simp at hcl
  | cons k t ih =>
    intro d hst
    obtain ⟨hk, ht⟩ := List.nodup_cons.1 hnd
    rw [Dev.each_cons]
    by_cases hck : c = k
    · subst hck
      obtain ⟨h1, h2⟩ := d.bootWake_self hc hst
      have hreg := Dev.bootWakes_others t (R.hrtPwrCord c) (fun k hkt => R.hrtPwrCord_ne fun h => hk (h ▸ hkt)) (d.bootWake c)
      rw [Dev.cordSt_of_get (by omega), hcong hreg _ rfl, hcong hreg _ rfl, h2, ← h1, Dev.cordSt_of_get (by omega)]
    · have hreg := d.bootWake_ne (R.hrtPwrCord c) (R.hrtPwrCord_ne hck)
      refine ih ht ((List.mem_cons.1 hcl).resolve_left hck) _ ?_
      rw [Dev.cordSt_of_get (by omega)] at hst ⊢
      rw [hcong hreg _ rfl, hst]

/-- A record of PCI's section, other than REGSET, applies and touches PCI's registers alone. -/
theorem Dev.applyRec_pcie (fz : Fuses) (d : Dev) {r : Rec} (h : r.ofPcie) (hr : ∀ p, r ≠ .regset p) :
    (d.applyRec fz 12 r).2 = true ∧ ∀ a, a < 0xC000000 → (d.applyRec fz 12 r).1.reg a = d.reg a := by
  cases r with
  | regset p => exact absurd rfl (hr p)
  | ringpool f n p =>
    refine ⟨rfl, fun a ha => ?_⟩
    have hm : d.Moves [] (0xC000000 ≤ ·) (d.each (List.range n) fun d i => d.set (F.pciRxgCfgPool (f + i)) p) :=
      (Dev.Moves.refl _ _ d).each _ _ fun x i _ => (Dev.Moves.refl _ _ x).set _ _ (by simp only [F.pciRxgCfgPool, R.pciRxgCfg]; omega)
    exact hm.regs a (by omega)
  | _ => exact absurd h (by simp [Rec.ofPcie])

/-- PCI released at a boot, with its section applied (R34, R371). -/
theorem Dev.cordReady_pcie (fz : Fuses) (d : Dev) (h : ∀ r ∈ (d.sec 12).recs, r.ofPcie ∧ ∀ p, r ≠ .regset p) :
    (d.cordReady fz 12).2 = true ∧ (d.cordReady fz 12).1.cordSt 12 = 3
      ∧ ∀ a, a < 0xC000000 → a ≠ R.hrtPwrCord 12 → a ≠ R.hrtCfgCseq 12 → (d.cordReady fz 12).1.reg a = d.reg a := by
  obtain ⟨hok, hk⟩ := applyAll_kept (Q := fun d e => ∀ a, a < 0xC000000 → e.reg a = d.reg a) (fun _ _ _ => rfl) (fun h k a ha => (k a ha).trans (h a ha))
    (f := fun d r => d.applyRec fz 12 r) (d.sec 12).recs (fun e r hr => e.applyRec_pcie fz (h r hr).1 (h r hr).2) d
  have hready : d.cordReady fz 12 = if (d.applySec fz 12).2 then ((((d.applySec fz 12).1.setSt 12 3).showSeq 12), true) else ((d.applySec fz 12).1, false) := rfl
  rw [hready, show (d.applySec fz 12).2 = true from hok, if_pos rfl]
  replace hk : ∀ a, a < 0xC000000 → (d.applySec fz 12).1.reg a = d.reg a := hk
  obtain ⟨hst, -, hm⟩ := (d.applySec fz 12).1.released_shows (c := 12) (by decide) (by decide)
  exact ⟨rfl, hst, fun a ha h1 h2 => (hm.only a (by simp [h1, h2]) (by simp)).trans (hk a ha)⟩

theorem Dev.takeEngmap_img (d : Dev) : d.takeEngmap.img.slot = d.img.slot ∧ d.takeEngmap.img.kslot = d.img.kslot := by
  unfold Dev.takeEngmap
  split
  · exact ⟨rfl, rfl⟩
  · next m _ =>
    generalize hx : d.setImg (fun x => { x with engmap := m }) = x
    have hs : x.img.slot = d.img.slot ∧ x.img.kslot = d.img.kslot := by rw [← hx]; exact ⟨rfl, rfl⟩
    have hg : x.Moves [.spr] (fun _ => True) (((((((x.give 0 (some m.1)).give 1 (some m.2.1)).setRole m.1 1).setRole m.2.1 1).setRole m.2.2 0).setSpr1 m.1 fun y =>
        { y with home := 0 }).setSpr1 m.2.1 fun y => { y with home := 1 }) :=
      ((((((((Dev.Moves.refl _ _ x).set _ _ trivial).set _ _ trivial).set _ _ trivial).when _ _ fun y => (Dev.Moves.refl _ _ y).set _ _ trivial)).set _ _ trivial).when _ _
        fun y => (Dev.Moves.refl _ _ y).set _ _ trivial) |>.set _ _ trivial |>.when _ _ (fun y => (Dev.Moves.refl _ _ y).set _ _ trivial) |>.setSpr1 _ _ |>.setSpr1 _ _
    dsimp only
    rw [hg.parts .img (by decide)]
    exact hs

/-- The sections of the image applied at a boot (R34, R369, R371). -/
structure Dev.Booted (d e : Dev) : Prop where
  kept : ∀ f ∈ [F.hrtCfgStatBootpend, F.hrtCfgStatActslot, F.hrtCfgStatVala, F.hrtCfgStatValb, F.hrtCfgSeqaSeq, F.hrtEvtSrcCtlStat 0x08, F.hrtEvtSrcCtlCount 0x08],
    e.get f = d.get f
  pcie : e.cordSt 12 = 3
  secs : ∀ c, e.sec c = Tbl.get {} d.img.slot c
  kslot : e.img.kslot = d.img.kslot
  wakes : ∀ c, 4 ≤ c → c ≤ 11 → d.cordSt c = 0 → e.cordSt c = if e.get (F.hrtPwrCordPol c) = 0 then 1 else 0

theorem Dev.bootApply_booted (fz : Fuses) (d : Dev) (h0 : ∀ r ∈ (Tbl.get ({} : Sec) d.img.slot 0).recs, r.ofHearth ∧ ∀ p, r ≠ .regset p)
    (h12 : ∀ r ∈ (Tbl.get ({} : Sec) d.img.slot 12).recs, r.ofPcie ∧ ∀ p, r ≠ .regset p) : d.Booted (d.bootApply fz) := by
  have hmap := d.takeEngmap_kept fun r hr => (h0 r hr).1
  obtain ⟨hslot, hkslot⟩ := d.takeEngmap_img
  unfold Dev.bootApply
  dsimp only
  generalize d.takeEngmap = a at *
  generalize hb : a.setImg (fun m => { m with secs := m.slot }) = b
  have hsec : ∀ c, b.sec c = Tbl.get {} d.img.slot c := fun c => by rw [← hb, ← hslot]; rfl
  have hbk : b.img.kslot = d.img.kslot := by rw [← hb]; exact hkslot
  have hkb : d.BootKept b := hmap.congr (by rw [← hb]; rfl)
  obtain ⟨hok, hlive⟩ := b.applySecLive_hearth fz fun r hr => h0 r (by rwa [← hsec])
  have himg : (b.applySecLive fz 0).1.img = b.img := (b.applySecLive_goes fz 0).parts .img (by decide)
  rw [hok]
  simp only [if_true]
  generalize (b.applySecLive fz 0).1 = c at *
  have hkc : d.BootKept (c.showSeq 0) := ((hkb.trans hlive).set (F.hrtCfgCseqSseq 0) _)
  have hci : (c.showSeq 0).img = c.img := ((Dev.Moves.refl [] (fun _ => True) c).set _ _ trivial).parts .img (by decide)
  generalize c.showSeq 0 = e at *
  have hwake : (e.each ((List.range 11).map (1 + ·)) fun d c =>
    d.when (d.cordSt c == 0 && (if c ≤ 3 then d.role (c - 1) == 1 else d.get (F.hrtPwrCordPol c) == 0)) fun d => d.cordWake c .boot) = e.each ((List.range 11).map (1 + ·)) Dev.bootWake := rfl
  rw [hwake]
  have hothers := Dev.bootWakes_others ((List.range 11).map (1 + ·)) (d := e)
  have hshows := fun c h4 h11 => Dev.bootWakes_shows ((List.range 11).map (1 + ·)) (by decide) (c := c) h4 h11 e
  have hwi : (e.each ((List.range 11).map (1 + ·)) Dev.bootWake).img = e.img := by
    refine ((Dev.Moves.refl [.pwr] (fun _ => True) e).each _ _ fun x c _ => ?_).parts .img (by decide)
    exact (Dev.Moves.refl [.pwr] (fun _ => True) x).when _ _ fun x => ((Dev.Moves.refl [.pwr] (fun _ => True) x).set (F.hrtPwrCordSt c) 1 trivial).setCordInfo _ _
  generalize e.each ((List.range 11).map (1 + ·)) Dev.bootWake = w at *
  have hwsec : ∀ c, w.sec c = Tbl.get {} d.img.slot c := fun c => by rw [← hsec, Dev.sec, hwi, hci, himg, Dev.sec]
  obtain ⟨hrok, hr12, hrreg⟩ := w.cordReady_pcie fz fun r hr => h12 r (by rwa [← hwsec])
  have hri : (w.cordReady fz 12).1.img = w.img := (w.cordReady_goes fz 12).parts .img (by decide)
  rw [hrok]
  simp only [if_true]
  generalize (w.cordReady fz 12).1 = x at *
  have himgs : x.img = b.img := by rw [hri, hwi, hci, himg]
  have hget : ∀ f : Fld, f.addr < 0xC000000 → f.addr ≠ R.hrtPwrCord 12 → f.addr ≠ R.hrtCfgCseq 12 → x.get f = w.get f := fun f h1 h2 h3 => congrArg f.of (hrreg _ h1 h2 h3)
  refine ⟨fun f hf => ?_, hr12, fun c => by rw [← hsec, Dev.sec, himgs, Dev.sec], by rw [himgs, hbk], fun c h4 h11 hst => ?_⟩
  · have hb : bootField f := .inl hf
    have hfa : f.addr = R.hrtCfgStat ∨ f.addr = R.hrtCfgSeqa ∨ f.addr = R.hrtEvtSrcCtl 0x08 := by
      simp only [List.mem_cons, List.not_mem_nil, or_false] at hf
      rcases hf with rfl | rfl | rfl | rfl | rfl | rfl | rfl <;> simp [F.hrtCfgStatBootpend, F.hrtCfgStatActslot, F.hrtCfgStatVala, F.hrtCfgStatValb, F.hrtCfgSeqaSeq,
        F.hrtEvtSrcCtlStat, F.hrtEvtSrcCtlCount]
    have hout : w.get f = e.get f := congrArg f.of (hothers f.addr fun c hc => by
      obtain ⟨k, hk, rfl⟩ := List.mem_map.1 hc
      have := List.mem_range.1 hk
      simp only [R.hrtCfgStat, R.hrtCfgSeqa, R.hrtEvtSrcCtl, R.hrtPwrCord] at hfa ⊢
      omega)
    rw [hget f (by simp only [R.hrtCfgStat, R.hrtCfgSeqa, R.hrtEvtSrcCtl] at hfa; omega) (by simp only [R.hrtCfgStat, R.hrtCfgSeqa, R.hrtEvtSrcCtl, R.hrtPwrCord] at hfa ⊢; omega)
      (by simp only [R.hrtCfgStat, R.hrtCfgSeqa, R.hrtEvtSrcCtl, R.hrtCfgCseq] at hfa ⊢; omega), hout, hkc f hb]
  · have hmem : c ∈ (List.range 11).map (1 + ·) := List.mem_map.2 ⟨c - 1, List.mem_range.2 (by omega), by omega⟩
    have haddr : R.hrtPwrCord c < 0xC000000 ∧ R.hrtPwrCord c ≠ R.hrtPwrCord 12 ∧ R.hrtPwrCord c ≠ R.hrtCfgCseq 12 := by
      simp only [R.hrtPwrCord, R.hrtCfgCseq]
      omega
    have hste : e.cordSt c = 0 := by
      rw [Dev.cordSt_of_get (by omega)] at hst ⊢
      rw [hkc _ (.inr ⟨c, h4, h11, rfl⟩), hst]
    have := hshows c h4 hmem hste
    rw [Dev.cordSt_of_get (by omega)] at this ⊢
    rw [hget (F.hrtPwrCordSt c) haddr.1 haddr.2.1 haddr.2.2, hget (F.hrtPwrCordPol c) haddr.1 haddr.2.1 haddr.2.2, this]

theorem Dev.get_takeImage (d : Dev) (k : Nat) (i : Image) (f : Fld) : (d.takeImage k i).get f = (d.set F.hrtCfgStatActslot k).get f := by
  unfold Dev.takeImage
  generalize d.set F.hrtCfgStatActslot k = a
  rfl

theorem Dev.takeImage_kslot (d : Dev) (k : Nat) (i : Image) : (d.takeImage k i).img.kslot = i.kslot := by
  unfold Dev.takeImage
  generalize d.set F.hrtCfgStatActslot k = a
  rfl

/-- Boot selection with the slot of the one valid image (R368, R369). -/
theorem Dev.bootOne_shows {d : Dev} {fz : Fuses} {k : Nat} {a : Image} (ha : d.verifySlot fz k = some a) (hset : ∀ c p, Rec.regset p ∉ (a.secs.getD c {}).recs) (fz' : Fuses) :
    let e := (((d.slotsSeen (some a) none).takeImage 0 a).raise 0x08 [R.hrtCfgStat, R.hrtCfgSeqa, R.hrtCfgSeqb]).bootApply fz'
    e.get F.hrtCfgStatBootpend = 0 ∧ e.get F.hrtCfgStatActslot = 0 ∧ e.get F.hrtCfgStatVala = 1 ∧ e.get F.hrtCfgStatValb = 0
      ∧ e.get F.hrtCfgSeqaSeq = a.seq % 2 ^ 32 ∧ d.Raised 0x08 e ∧ e.img.kslot = a.kslot ∧ e.cordSt 12 = 3 ∧ (∀ c, e.sec c = a.secs.getD c {})
      ∧ (∀ c, 4 ≤ c → c ≤ 11 → d.cordSt c = 0 → e.cordSt c = if e.get (F.hrtPwrCordPol c) = 0 then 1 else 0) ∧ e.waiting = d.waiting := by
  obtain ⟨hbp, hva, hvb, hsa, hm⟩ := d.slotsSeen_shows (some a) none
  obtain ⟨hrec0, hrec12⟩ := Dev.verifySlot_recs ha
  generalize d.slotsSeen (some a) none = x at *
  have hslot := x.takeImage_slot 0 a
  have hact := x.takeImage_actslot 0 a
  have hk : (x.takeImage 0 a).img.kslot = a.kslot := x.takeImage_kslot 0 a
  have hget : ∀ f : Fld, F.hrtCfgStatActslot.parted f = true → (x.takeImage 0 a).get f = x.get f := fun f hf =>
    (x.get_takeImage 0 a f).trans (Dev.get_set_off _ _ _ _ hf)
  have hmt : x.Moves [.img] (shown [R.hrtCfgStat] []) (x.takeImage 0 a) := ((Dev.Moves.refl _ _ x).set F.hrtCfgStatActslot _ (.inl (by decide))).setImg _ id
  have hy : d.Moves (.img :: Dev.Moves.evtParts) (shown [R.hrtCfgStat, R.hrtCfgSeqa, R.hrtCfgSeqb] [0x09]) (x.takeImage 0 a) :=
    (hm.mono (fun _ h => List.mem_cons_of_mem _ h) (shown_mono (by simp) (by simp))).trans (hmt.mono (by simp) (shown_mono (by simp) (by simp)))
  generalize x.takeImage 0 a = y at *
  have hraise := y.raised_raise 0x08 [R.hrtCfgStat, R.hrtCfgSeqa, R.hrtCfgSeqb] (by decide)
  have hlow : ∀ f : Fld, f.addr < 0x80000 → (y.raise 0x08 [R.hrtCfgStat, R.hrtCfgSeqa, R.hrtCfgSeqb]).get f = y.get f := fun f hf => Dev.get_raise _ _ _ (.inl hf)
  have hq := y.raise_quiet 0x08 [R.hrtCfgStat, R.hrtCfgSeqa, R.hrtCfgSeqb]
  generalize y.raise 0x08 [R.hrtCfgStat, R.hrtCfgSeqa, R.hrtCfgSeqb] = z at *
  have hzs : ∀ c, Tbl.get {} z.img.slot c = a.secs.getD c {} := fun c => by rw [hq.img, hslot]
  have hboot := z.bootApply_booted fz' (fun r hr => by
    rw [hzs] at hr
    exact ⟨hrec0 r hr, fun p h => hset 0 p (h ▸ hr)⟩) (fun r hr => by
    rw [hzs] at hr
    exact ⟨hrec12 r hr, fun p h => hset 12 p (h ▸ hr)⟩)
  have hw := (z.bootApply_goes fz').parts .waiting (by decide)
  generalize z.bootApply fz' = e at *
  have hst : ∀ c, 4 ≤ c → c ≤ 11 → z.cordSt c = d.cordSt c := fun c h4 h11 => by
    have haddr := R.hrtPwrCord_lt (c := c) (by omega)
    rw [Dev.cordSt_of_get (by omega), Dev.cordSt_of_get (by omega), hlow _ (by simp only [F.hrtPwrCordSt]; omega), hy.get (not_shown
      (by simp only [List.mem_cons, List.not_mem_nil, or_false, F.hrtPwrCordSt, R.hrtPwrCord, R.hrtCfgStat, R.hrtCfgSeqa, R.hrtCfgSeqb]; omega)
      (.inl (by simp only [F.hrtPwrCordSt]; omega)) (by simp))]
  refine ⟨?_, ?_, ?_, ?_, ?_, ⟨?_, ?_⟩, ?_, hboot.pcie, fun c => (hboot.secs c).trans (hzs c), fun c h4 h11 h => hboot.wakes c h4 h11 ((hst c h4 h11).trans h), ?_⟩
  · rw [hboot.kept _ (by simp), hlow _ (by decide), hget _ (by decide), hbp]
  · rw [hboot.kept _ (by simp), hlow _ (by decide), hact]
  · rw [hboot.kept _ (by simp), hlow _ (by decide), hget _ (by decide), hva]
    rfl
  · rw [hboot.kept _ (by simp), hlow _ (by decide), hget _ (by decide), hvb]
    rfl
  · rw [hboot.kept _ (by simp), hlow _ (by decide), hget _ (by decide), hsa]
    rfl
  · rw [hboot.kept _ (by simp), hraise.1]
  · rw [hboot.kept _ (by simp), hraise.2]
    exact congrArg (fun w => satAdd 16 ((F.hrtEvtSrcCtlCount 0x08).of w) 1) (hy.only _ (by decide) (by decide))
  · rw [hboot.kslot, hq.img, hk]
  · rw [hw, hq.waiting, hy.parts .waiting (by decide)]

/-- RESOLVE in favour of the slot in force (R370). -/
theorem State.resolve_keeps {s : State} {v : Word} {keep : Nat} (hs : s.dev.out = []) (ht : s.dev.Takes R.hrtCfgCmd (cfgWord v 3))
    (hboot : s.dev.get F.hrtCfgStatBootpend = 0) (hbusy : s.dev.get F.hrtCfgStatBusy = 0) (hdis : s.dev.get F.hrtCfgStatDisputed = 1) (hkeep : keep = F.hrtCfgCmdSlot.of v)
    (hval : s.dev.get (if keep = 0 then F.hrtCfgStatVala else F.hrtCfgStatValb) = 1) (hact : keep = s.dev.get F.hrtCfgStatActslot) :
    ∃ t, s.hostWrite R.hrtCfgCmd (cfgWord v 3) = .next t ∧ t.outputs.head? = some (.writeDone R.hrtCfgCmd 0) ∧ t.dev.get F.hrtCfgStatDisputed = 0
      ∧ t.dev.get F.hrtCfgStatResult = 0 ∧ t.dev.get (if keep = 0 then F.hrtCfgStatValb else F.hrtCfgStatVala) = 0
      ∧ (∀ k < 256, Tbl.get 0 t.dev.img.mram (slotBase (1 - keep) + k) = 0)
      ∧ (∀ k, k < slotBase (1 - keep) ∨ slotBase (1 - keep) + 256 ≤ k → Tbl.get 0 t.dev.img.mram k = Tbl.get 0 s.dev.img.mram k) := by
  have hop := cfgWord_op v (op := 3) (by decide)
  have hslot : F.hrtCfgCmdSlot.of (cfgWord v 3) = keep := (cfgWord_apart v 3 (by decide) (by decide)).trans hkeep.symm
  have hk2 : keep < 2 := hkeep ▸ Nat.mod_lt _ (by decide)
  have hcode : ∀ l, ((s.dev.setWaiting l).ashNote 3).cfgCode (cfgWord v 3) none = 0 := fun l => by
    have hn := Dev.CfgNoted.of_moves (s.cfgNote_moves l)
    unfold Dev.cfgCode
    simp only [Dev.flag, hn.get, hboot, hbusy, hop, hslot, hdis, hval]
    rfl
  have htry : ∀ l, (s.dev.setWaiting l).cfgTry s.fuses (cfgWord v 3) = ((s.dev.setWaiting l).ashNote 3, 0, none) := fun l => by
    rw [Dev.cfgTry_plain _ _ (by rw [hop]; decide), hcode l, if_pos rfl]
  refine State.cfgCmd_takes hs ht (fun l => by rw [htry]) fun l w t hends hout => ⟨hout, ?_⟩
  rw [htry] at hends
  have hn := Dev.CfgNoted.of_moves (s.cfgNote_moves l)
  dsimp only at hends
  generalize (s.dev.setWaiting l).ashNote 3 = a at *
  have hgo : (a.setReg R.hrtCfgCmd w).cfgGo s.fuses (cfgWord v 3) none = (a.setReg R.hrtCfgCmd w).resolveGo s.fuses keep (F.hrtCfgCmdForce.of (cfgWord v 3) == 1) := by
    unfold Dev.cfgGo
    simp only [hop, hslot]
  rw [hgo] at hends
  have hactb : keep = (a.setReg R.hrtCfgCmd w).get F.hrtCfgStatActslot := by rw [Dev.get_setReg_off _ _ _ _ (by decide), hn.get, hact]
  have himg : (a.setReg R.hrtCfgCmd w).img = s.dev.img := (((Dev.Moves.refl [] (fun _ => True) a).setReg R.hrtCfgCmd w trivial).parts .img (by decide)).trans hn.img
  generalize a.setReg R.hrtCfgCmd w = b at *
  obtain ⟨hd, hr, hv, hi⟩ := Dev.resolveGo_keeps hactb s.fuses (F.hrtCfgCmdForce.of (cfgWord v 3) == 1)
  generalize b.resolveGo s.fuses keep (F.hrtCfgCmdForce.of (cfgWord v 3) == 1) = e at *
  have hother : slotValF (1 - keep) = if keep = 0 then F.hrtCfgStatValb else F.hrtCfgStatVala := by
    unfold slotValF
    rcases (show keep = 0 ∨ keep = 1 by omega) with rfl | rfl <;> rfl
  refine ⟨(hends.get _).trans hd, (hends.get _).trans hr, ?_, fun k hk => ?_, fun k hk => ?_⟩
  · rw [← hother]
    exact (hends.get _).trans hv
  · rw [hends.same.img]
    show Tbl.get 0 e.img.mram _ = 0
    rw [hi, Dev.mramPut_in _ _ _ (by rw [List.length_replicate]; exact hk), List.getD_eq_getElem _ _ (by rw [List.length_replicate]; exact hk), List.getElem_replicate]
  · rw [hends.same.img]
    show Tbl.get 0 e.img.mram _ = _
    rw [hi, Dev.mramPut_out _ _ _ (by rw [List.length_replicate]; exact hk), himg]

/-- Boot selection runs (R34, R367). -/
theorem bootSelects {d : Dev} (hreset : d.inReset = false) (hpend : d.get F.hrtCfgStatBootpend = 1) (hrun : d.get F.hrtHstStatFwrun = 1) (hrec : d.get F.hrtHstStatRecovery = 0)
    (hsrc : d.get F.hrtClkStatHrtsrc = 2) :
    (d.inReset || !d.flag F.hrtCfgStatBootpend || !d.flag F.hrtHstStatFwrun || d.flag F.hrtHstStatRecovery || d.get F.hrtClkStatHrtsrc != 2) = false := by
  simp [Dev.flag, hreset, hpend, hrun, hrec, hsrc]

theorem State.runServe_setOut (s : State) (f : Fuses → Dev → Dev) : ({ s with dev := s.dev.setOut [] } : State).runServe f = s.runServe f := rfl

theorem State.bootSelection_setOut (s : State) : exec .bootSelection { s with dev := s.dev.setOut [] } = exec .bootSelection s := by
  simp only [exec, execBootSelection]
  exact State.runServe_setOut s _

theorem Dev.verifySlot_setOut (d : Dev) (l : List Output) (fz : Fuses) (k : Nat) : (d.setOut l).verifySlot fz k = d.verifySlot fz k := Dev.verifySlot_congr rfl rfl fz k

/-- Settles O44, clause by clause: a boot with no valid slot and with one, an ACTIVATE refused and one accepted, and RESOLVE. -/
theorem imagesAreSelectedAndActivated : Obligations.ImagesAreSelectedAndActivated := by
  unfold Obligations.ImagesAreSelectedAndActivated
  refine ⟨?_, ?_, ?_, ?_, ?_, ?_⟩
  · refine State.of_sent ?_ fun s h => by simp -implicitDefEqProofs only [State.bootSelection_setOut, Dev.verifySlot_setOut] at h; exact h
    intro s hs hw hreset hpend hrun hrec hsrc ha hb
    obtain ⟨hbp, hno, hva, hvb, hraise, hm⟩ := s.dev.bootNone_shows
    have hcount := s.dev.bootNone_count
    simp only [exec, execBootSelection]
    refine State.runServe_plain hs (x := s.dev.bootNone) ?_ ((hm.parts .waiting (by decide)).trans hw) fun t ht hfz =>
      ⟨(ht.get _).trans hbp, (ht.get _).trans hno, (ht.get _).trans hva, (ht.get _).trans hvb, ht.raised.2 hraise, (ht.get _).trans hcount, ht.only.2 hm.only⟩
    simp only [bootSelects hreset hpend hrun hrec hsrc, Bool.false_eq_true, if_false, ha, hb, Option.map_none, selectSlot]
    rfl
  · intro a
    refine State.of_sent ?_ fun s h => by simp -implicitDefEqProofs only [State.bootSelection_setOut, Dev.verifySlot_setOut] at h; exact h
    intro s hs hw hreset hpend hrun hrec hsrc ha hb hset _
    obtain ⟨hbp, hact, hva, hvb, hsa, hraise, hk, h12, hsecs, hwakes, hwait⟩ := Dev.bootOne_shows ha hset s.fuses
    simp only [exec, execBootSelection]
    refine State.runServe_plain hs
      (x := (((s.dev.slotsSeen (some a) none).takeImage 0 a).raise 0x08 [R.hrtCfgStat, R.hrtCfgSeqa, R.hrtCfgSeqb]).bootApply s.fuses) ?_ (hwait.trans hw) fun t ht hfz => ?_
    · simp only [bootSelects hreset hpend hrun hrec hsrc, Bool.false_eq_true, if_false, ha, hb, Option.map_none, Option.map_some, selectSlot]
      rfl
    · generalize (((s.dev.slotsSeen (some a) none).takeImage 0 a).raise 0x08 [R.hrtCfgStat, R.hrtCfgSeqa, R.hrtCfgSeqb]).bootApply s.fuses = e at *
      refine ⟨(ht.get _).trans hbp, (ht.get _).trans hact, (ht.get _).trans hva, (ht.get _).trans hvb, (ht.get _).trans hsa, ht.raised.2 hraise, ?_, (ht.cordSt _).trans h12,
        fun c => ?_, fun c h4 h11 h => ?_⟩
      · rw [ht.same.img, hk]
      · rw [← hsecs, Dev.sec, ht.same.img, Dev.sec]
      · rw [ht.cordSt, ht.get, hwakes c h4 h11 h]
  · intro v
    refine State.of_sent ?_ fun s h => by simp -implicitDefEqProofs only [Dev.takes_setOut, Dev.verifySlot_setOut] at h; exact h
    intro s hs ht hboot hbusy hbad
    exact State.activate_bad hs ht hboot hbusy hbad
  · intro v i
    refine State.of_sent ?_ fun s h => by simp -implicitDefEqProofs only [Dev.takes_setOut, Dev.verifySlot_setOut] at h; exact h
    intro s hs ht hboot hbusy hno hi hcode hoff
    exact State.activate_takes hs ht hboot hbusy hno hi hcode hoff
  · intro v keep
    refine State.of_sent ?_ fun s h => by simp -implicitDefEqProofs only [Dev.takes_setOut] at h; exact h
    intro s hs ht hboot hbusy hdis hkeep hval hact
    exact State.resolve_keeps hs ht hboot hbusy hdis hkeep hval hact
  · intro v
    refine State.of_sent ?_ fun s h => by simp -implicitDefEqProofs only [Dev.takes_setOut] at h; exact h
    intro s hs ht hboot hbusy hdis
    obtain ⟨t, ho, hout, hres, hraise, himg, -⟩ := State.cfgCmd_shut (v := v) (op := 3) (code := 0xB) hs ht (by decide) (by decide) (by decide) (by decide) fun e he => by
      simp [Dev.cfgCode, Dev.flag, he.get, hboot, hbusy, hdis, cfgWord_op v (op := 3) (by decide)]
    exact ⟨t, ho, hout, hres, hraise, himg⟩

end Sys2Proof.Machine
end

section
/-!
PROOFS. The refutation of O52.
-/

namespace Sys2Proof.Machine

set_option Elab.async false

/-- A sensor has read hot twice, and the move in progress gives as its incoming engine the number at which the role field stands in the
register of cord 12's state. -/
def wildMoveState : State :=
  { State.reset with
    dev := { Dev.inService [(F.hrtPwrStatePend, 3), (F.hrtPwrCordSt 12, 3)] with
      pwr := { State.reset.dev.pwr with hot2 := [0] }
      spr := { State.reset.dev.spr with move := some { kind := .switch, wl := 0, inc := 49224, out := 0 } } } }

/-- A cord that loses its power at a trip leaves the fields outside its own registers. -/
theorem Dev.cordFail_get (d : Dev) (c : Nat) {f : Fld} (hlow : f.addr < 0x80000) (hclk : f.addr ≠ R.hrtClkStat) (hne : f.addr ≠ R.hrtPwrCord c) :
    (d.cordFail c false).get f = d.get f := by
  have hw : (d.wipe c).get f = d.get f := (d.wipe_spares c).get (by omega) (by simpa using hclk)
  unfold Dev.cordFail
  rw [Dev.when_false, Dev.get_setCordInfo, Dev.get_set_ne _ _ hne]
  exact (Dev.get_set_ne _ _ hne).trans hw

/-- The cords a trip takes down (R421). -/
def Dev.tripCords (d : Dev) : Dev := d.each ((List.range 11).map (11 - ·)) fun d c => (d.cordFail c false).setCordInfo c fun x => { x with tripped := true }

theorem Dev.tripCords_get (d : Dev) {f : Fld} (hlow : f.addr < 0x80000) (hclk : f.addr ≠ R.hrtClkStat) (hne : ∀ c, c ≤ 11 → f.addr ≠ R.hrtPwrCord c) : d.tripCords.get f = d.get f := by
  unfold Dev.tripCords
  have hall : ∀ c ∈ (List.range 11).map (11 - ·), c ≤ 11 := by decide
  generalize (List.range 11).map (11 - ·) = l at *
  induction l generalizing d with
  | nil => rfl
  | cons c t ih =>
    rw [Dev.each_cons, ih _ fun k hk => hall k (List.mem_cons_of_mem _ hk)]
    have hc := d.cordFail_get c hlow hclk (hne c (hall c (List.mem_cons_self ..)))
    rw [Dev.get_setCordInfo, hc]

theorem Dev.tripCords_goes (d : Dev) :
    d.Goes [.out, .time, .ash, .spr, .pwr, .pcie, .msixHeld, .engines, .convs, .waves, .scs, .grps, .crys, .pkt, .buf, .macs, .lanes, .inj, .reclaim] d.tripCords :=
  (Dev.Goes.refl _ d).each _ _ fun _ _ => (Dev.cordFail_goes _ _ _).setCordInfo _ _

/-- With no reload and no request pending, a trip ends with its mark and its event (R421). -/
theorem State.thermTrip_ends {s : State} (hs : s.dev.out = []) (hw : s.dev.waiting = []) (hhot : s.dev.pwr.hot2 ≠ []) (htrip : s.dev.get F.hrtSnsStatTripped = 0)
    (hreload : s.dev.img.reload = none) (hpend : s.dev.tripRoles.tripTrans.get F.hrtPwrStatePend = 3) :
    ∃ t, exec .thermTrip s = .next t ∧ t.dev.get (F.hrtPwrCordSt 12) = s.dev.tripRoles.tripTrans.get (F.hrtPwrCordSt 12) := by
  simp only [exec, execThermTrip]
  have hgo : s.dev.Goes [.out, .ash, .pwr, .msixHeld, .spr, .waves] s.dev.tripRoles.tripTrans := s.dev.tripRoles_goes.within.thn s.dev.tripRoles.tripTrans_goes
  have hi : s.dev.tripRoles.tripTrans.img = s.dev.img := hgo.parts .img (by decide)
  have hwt : s.dev.tripRoles.tripTrans.waiting = s.dev.waiting := hgo.parts .waiting (by decide)
  have hcond : (!s.dev.pwr.hot2.isEmpty && !s.dev.flag F.hrtSnsStatTripped) = true := by simp [Dev.flag, htrip, hhot]
  have hhot' : (s.dev.tripRoles.tripTrans.tripCords.set F.hrtSnsStatTripped 1).get F.hrtPwrStatePend = 3 := by
    rw [Dev.get_set_off _ _ _ _ (by decide), Dev.tripCords_get _ (by decide) (by decide) (fun c hc => by simp only [F.hrtPwrStatePend, R.hrtPwrState, R.hrtPwrCord]; omega), hpend]
  have hst : (s.dev.tripRoles.tripTrans.tripCords.set F.hrtSnsStatTripped 1).get (F.hrtPwrCordSt 12) = s.dev.tripRoles.tripTrans.get (F.hrtPwrCordSt 12) := by
    rw [Dev.get_set_off _ _ _ _ (by decide), Dev.tripCords_get _ (by decide) (by decide) (fun c hc => by simp only [F.hrtPwrCordSt, R.hrtPwrCord]; omega)]
  have htc := s.dev.tripRoles.tripTrans.tripCords_goes
  have hti : (s.dev.tripRoles.tripTrans.tripCords.set F.hrtSnsStatTripped 1).img = s.dev.img :=
    ((htc.set _ _).parts .img (by decide)).trans hi
  have htw : (s.dev.tripRoles.tripTrans.tripCords.set F.hrtSnsStatTripped 1).waiting = [] :=
    ((htc.set _ _).parts .waiting (by decide)).trans (hwt.trans hw)
  refine State.runServe_plain hs
    (x := ((s.dev.tripRoles.tripTrans.tripCords.set F.hrtSnsStatTripped 1).setPwr fun p => { p with parked := [] }).raise 0x04 [R.hrtSnsStat]) ?_ ?_ fun t ht _ => ?_
  · rw [hcond, Dev.when_true]
    show (Dev.tripReload (Dev.raise (Dev.setPwr (Dev.set s.dev.tripRoles.tripTrans.tripCords _ _) _) _ _)).runPending = _
    generalize s.dev.tripRoles.tripTrans.tripCords.set F.hrtSnsStatTripped 1 = b at *
    have hq := (b.setPwr fun p => { p with parked := [] }).raise_quiet 0x04 [R.hrtSnsStat]
    have hx : ((b.setPwr fun p => { p with parked := [] }).raise 0x04 [R.hrtSnsStat]).get F.hrtPwrStatePend = 3 :=
      (Dev.get_raise _ _ _ (.inl (by decide))).trans hhot'
    have hxi : ((b.setPwr fun p => { p with parked := [] }).raise 0x04 [R.hrtSnsStat]).img.reload = none := by
      rw [hq.img]
      exact (congrArg ImgSt.reload hti).trans hreload
    generalize (b.setPwr fun p => { p with parked := [] }).raise 0x04 [R.hrtSnsStat] = x at *
    rw [Dev.tripReload, hxi]
    exact Dev.runPending_none hx
  · generalize s.dev.tripRoles.tripTrans.tripCords.set F.hrtSnsStatTripped 1 = b at *
    exact ((b.setPwr fun p => { p with parked := [] }).raise_quiet 0x04 [R.hrtSnsStat]).waiting.trans htw
  · generalize s.dev.tripRoles.tripTrans.tripCords.set F.hrtSnsStatTripped 1 = b at *
    exact (ht.get _).trans ((Dev.get_raise _ _ _ (.inl (by decide))).trans hst)

/-- The trip gives back the incoming engine's role, and cord 12 goes to state 0. -/
theorem wildMoveState_tripRoles : wildMoveState.dev.tripRoles.tripTrans.get F.hrtPwrStatePend = 3 ∧ wildMoveState.dev.tripRoles.tripTrans.get (F.hrtPwrCordSt 12) = 0 := by
  decide +kernel

/-- Refutes O52: a trip that ends a move whose incoming engine is not one of the three writes over the state of cord 12. -/
theorem not_sensorsEventsAndKeysAct : ¬ Obligations.SensorsEventsAndKeysAct := by
  rintro ⟨-, h, -⟩
  obtain ⟨hpend, hrole⟩ := wildMoveState_tripRoles
  obtain ⟨t, ht, -, -, -, -, hkept⟩ := h wildMoveState (by decide +kernel) (by decide +kernel) (by decide +kernel) (by decide +kernel)
  obtain ⟨t', ht', hst⟩ := State.thermTrip_ends (s := wildMoveState) (by decide +kernel) (by decide +kernel) (by decide +kernel) (by decide +kernel) (by decide +kernel) hpend
  obtain rfl : t = t' := by
    rw [ht] at ht'
    exact Host.Outcome.next.inj ht'
  rw [Dev.cordSt_of_get (by decide), hst, hrole] at hkept
  exact absurd hkept (by decide +kernel)

end Sys2Proof.Machine
end

section
/-!
PROOFS. The update path and restarts of the firmware (O50).
-/

namespace Sys2Proof.Machine

set_option Elab.async false

theorem Dev.setHearth_regs (d : Dev) (f : HearthSt → HearthSt) : (d.setHearth f).regs = d.regs := rfl

theorem Dev.hearth_setHearth (d : Dev) (f : HearthSt → HearthSt) : (d.setHearth f).hearth = f d.hearth := rfl

/-- The end of a mailbox command leaves an update session as it is. -/
theorem Dev.mbxEnd_session (d : Dev) (q : MbxReq) (status : Nat) (data : List Byte) : (d.mbxEnd q status data).hearth.session = d.hearth.session := by
  unfold Dev.mbxEnd
  dsimp only
  split
  · rfl
  · have h1 : (d.setHearth fun h => { h with reqs := h.reqs.drop 1 }).hearth.session = d.hearth.session := rfl
    generalize (d.setHearth fun h => { h with reqs := h.reqs.drop 1 }) = x at *
    have hm : x.Moves Dev.Moves.evtParts (fun _ => True)
        ((((x.each (List.range (((leBytes 4 (status + data.length * 2 ^ 16) ++ data).length + 3) / 4)) fun d i =>
          d.setReg (R.hrtMbxRsp i) (BitVec.ofNat 32 (leAt (leBytes 4 (status + data.length * 2 ^ 16) ++ data) (4 * i) 4))).set F.hrtMbxCtlBusy 0).set
          F.hrtMbxCtlStatus status).raise 0x02 [R.hrtMbxRsp 0]) :=
      ((((Dev.Moves.refl _ _ x).each _ _ fun y i _ => (Dev.Moves.refl _ _ y).setReg _ _ trivial).set _ _ trivial).set _ _ trivial).raise _ _ (fun _ _ => trivial) (by decide)
    exact (congrArg HearthSt.session (hm.parts .hearth (by decide))).trans h1

/-- A mailbox command served that ends after some work: the answer, and what it leaves, its session too. -/
theorem State.mailbox_updates {s : State} {q : MbxReq} {mine : Nat → Bool} {f : Fuses → Dev → MbxReq → Dev} {d' : Dev} {status : Nat} {data : List Byte} {P : State → Prop}
    (hs : s.dev.out = []) (hq : s.dev.Asked q) (hm : mine q.opcode = true) (hf : f s.fuses s.dev q = d'.mbxEnd q status data) (hst : status < 256)
    (hlen : data.length ≤ 248) (hreqs : d'.hearth.reqs = s.dev.hearth.reqs) (hctl : d'.reg (R.hrtEvtSrcCtl 0x02) = s.dev.reg (R.hrtEvtSrcCtl 0x02))
    (hw : d'.waiting = s.dev.waiting)
    (h : ∀ t : State, s.dev.Answered q status data t.dev → t.dev.get F.hrtHstStatUpdact = d'.get F.hrtHstStatUpdact → t.dev.get F.hrtHstStatUpdmbx = d'.get F.hrtHstStatUpdmbx →
      t.dev.get F.hrtHstStatUpdres = d'.get F.hrtHstStatUpdres → t.dev.reg (R.hrtEvtSrcCtl 0x07) = d'.reg (R.hrtEvtSrcCtl 0x07) →
      t.dev.img = d'.img → t.dev.hearth.session = d'.hearth.session → P t) :
    ∃ t, s.mailbox mine f = .next t ∧ P t := by
  obtain ⟨hans, hmoves⟩ := d'.mbxEnd_answers q hst hlen
  refine State.mailbox_ends hs hq hm hf ((hmoves.parts .waiting (by decide)).trans (hw.trans hq.waiting)) fun t ht _ => ?_
  have hget : ∀ f : Fld, f.addr = R.hrtHstStat → t.dev.get f = d'.get f := fun f hf => (ht.get f).trans (hmoves.get (by rw [hf]; decide))
  exact h t (ht.answered (hans.of_before hreqs hctl)) (hget _ rfl) (hget _ rfl) (hget _ rfl) ((ht.reg _).trans (d'.mbxEnd_ctl q hlen (by decide)))
    (ht.same.img.trans (hmoves.parts .img (by decide))) ((congrArg HearthSt.session ht.same.hearth).trans (d'.mbxEnd_session q status data))

/-! ### An update session begins (R418) -/

/-- A session over a configuration slot, whose header is erased (R418). -/
def Dev.updBegun (d : Dev) (u : UpdSession) : Dev :=
  let d1 := d.mramPut u.base (List.replicate 256 0)
  (((if u.slot = 0 then d1.set F.hrtCfgSeqaSeq 0 else d1.set F.hrtCfgSeqbSeq 0).setHearth fun h => { h with session := some u }).set F.hrtHstStatUpdact 1).setFlag
    F.hrtHstStatUpdmbx u.smb

theorem Dev.mramPut_moves (d : Dev) (o : Nat) (l : List Byte) : d.Moves [.img] (fun _ => False) (d.mramPut o l) :=
  (Dev.Moves.refl _ _ d).setImg _ (Dev.mramPut_wf d o l)

theorem Dev.updBegun_shows (d : Dev) (u : UpdSession) :
    let e := d.updBegun u
    e.get F.hrtHstStatUpdact = 1 ∧ e.get F.hrtHstStatUpdmbx = (if u.smb then 1 else 0) ∧ e.hearth = { d.hearth with session := some u }
      ∧ e.img = (d.mramPut u.base (List.replicate 256 0)).img ∧ d.Moves [.img, .hearth] (shown [R.hrtCfgSeqa, R.hrtCfgSeqb, R.hrtHstStat] []) e := by
  have hm := d.mramPut_moves u.base (List.replicate 256 0)
  have hh : (d.mramPut u.base (List.replicate 256 0)).hearth = d.hearth := hm.parts .hearth (by decide)
  unfold Dev.updBegun Dev.setFlag
  dsimp only
  generalize d.mramPut u.base (List.replicate 256 0) = a at *
  have hb : a.Moves [] (shown [R.hrtCfgSeqa, R.hrtCfgSeqb] []) (if u.slot = 0 then a.set F.hrtCfgSeqaSeq 0 else a.set F.hrtCfgSeqbSeq 0) :=
    .ite ((Dev.Moves.refl _ _ a).set _ _ (.inl (by decide))) ((Dev.Moves.refl _ _ a).set _ _ (.inl (by decide)))
  generalize (if u.slot = 0 then a.set F.hrtCfgSeqaSeq 0 else a.set F.hrtCfgSeqbSeq 0) = b at *
  have hbh : (b.setHearth fun h => { h with session := some u }).hearth = { d.hearth with session := some u } := by
    rw [Dev.hearth_setHearth, hb.parts .hearth (by decide), hh]
  have hbm : d.Moves [.img, .hearth] (shown [R.hrtCfgSeqa, R.hrtCfgSeqb, R.hrtHstStat] []) (b.setHearth fun h => { h with session := some u }) :=
    ((hm.mono (by simp) fun _ h => h.elim).trans (hb.mono (by simp) (shown_mono (by simp) (by simp)))).setHearth _
  have hbi : (b.setHearth fun h => { h with session := some u }).img = a.img := hb.parts .img (by decide)
  generalize (b.setHearth fun h => { h with session := some u }) = c at *
  have hset := ((Dev.Moves.refl [] (shown [R.hrtHstStat] []) c).set F.hrtHstStatUpdact 1 (.inl (by decide))).set F.hrtHstStatUpdmbx (if u.smb then 1 else 0) (.inl (by decide))
  refine ⟨?_, ?_, (hset.parts .hearth (by decide)).trans hbh, (hset.parts .img (by decide)).trans hbi, hbm.trans (hset.mono (by simp) (shown_mono (by simp) (by simp)))⟩
  · rw [Dev.get_set_off _ _ _ _ (by decide), Dev.get_set_on _ _ _ (by decide)]
    rfl
  · rw [Dev.get_set_on _ _ _ (by decide)]
    cases u.smb <;> rfl

theorem State.updBegin_opens {s : State} {q : MbxReq} {len : Nat} (hs : s.dev.out = []) (hq : s.dev.Asked q) (hop : q.opcode = 0x10) (hl : q.len = 8)
    (hargs : q.args = leBytes 4 0 ++ leBytes 4 len) (hlo : 1128 ≤ len) (hhi : len ≤ 25165824) (h4 : len % 4 = 0) (hden : s.dev.updDenied = false)
    (hno : s.dev.hearth.session = none) :
    ∃ t, exec .updBegin s = .next t ∧ t.dev.hearth.session = some ⟨q.smb, false, s.dev.inactive, len, List.replicate 256 0⟩
      ∧ (∀ k < 256, Tbl.get 0 t.dev.img.mram (slotBase s.dev.inactive + k) = 0) ∧ t.dev.get F.hrtHstStatUpdact = 1
      ∧ t.dev.get F.hrtHstStatUpdmbx = (if q.smb then 1 else 0) ∧ s.dev.Answered q 0 [BitVec.ofNat 8 s.dev.inactive] t.dev := by
  have ht : leAt q.args 0 1 = 0 ∧ leAt q.args 1 3 = 0 := by
    rw [hargs, leAt_append_left _ (by simp), leAt_append_left _ (by simp), leAt_leBytes 0 (by decide), leAt_leBytes 0 (by decide)]
    simp
  have hlen : leAt q.args 4 4 = len := by
    rw [hargs, show (4 : Nat) = 4 + 0 from rfl, leAt_next, leAt_only]
    omega
  have hal : q.args.length = 8 := by simp [hargs]
  obtain ⟨hact, hmbx, hh, hi, hm⟩ := s.dev.updBegun_shows ⟨q.smb, false, s.dev.inactive, len, List.replicate 256 0⟩
  simp only [exec, execUpdBegin]
  refine State.mailbox_updates (d' := s.dev.updBegun ⟨q.smb, false, s.dev.inactive, len, List.replicate 256 0⟩) (status := 0) (data := [BitVec.ofNat 8 s.dev.inactive]) hs hq
    (by simp [hop]) ?_ (by decide) (by simp) (by rw [hh]) (hm.only _ (by decide) (by simp)) (hm.parts .waiting (by decide)) fun t hans h1 h2 _ _ h5 h6 => ?_
  · simp only [ht.1, ht.2, hlen, hl, hal, hden, hno]
    rw [if_neg (by simp), if_neg (by simp [hlo, hhi, h4]), if_neg (by simp), if_neg (by simp)]
    rfl
  · refine ⟨by rw [h6, hh], fun k hk => ?_, h1.trans hact, h2.trans hmbx, hans⟩
    rw [h5, hi]
    show Tbl.get 0 (s.dev.mramPut (slotBase s.dev.inactive) (List.replicate 256 0)).img.mram _ = 0
    rw [Dev.mramPut_in _ _ _ (by rw [List.length_replicate]; exact hk), List.getD_eq_getElem _ _ (by rw [List.length_replicate]; exact hk), List.getElem_replicate]

theorem Dev.ownSession_own {d : Dev} {q : MbxReq} {u : UpdSession} (h : d.hearth.session = some u) (hu : u.smb = q.smb) : d.ownSession q = some u := by
  rw [Dev.ownSession, h]
  simp [hu]

theorem Dev.ownSession_none {d : Dev} {q : MbxReq} (h : d.hearth.session = none) : d.ownSession q = none := by rw [Dev.ownSession, h]

/-- A session that is over shows its result (R418). -/
theorem Dev.updOver_shows (d : Dev) {res : Nat} (hres : res < 8) :
    let e := d.updOver res
    e.get F.hrtHstStatUpdact = 0 ∧ e.get F.hrtHstStatUpdres = res ∧ d.Raised 0x07 e ∧ e.hearth = { d.hearth with session := none }
      ∧ d.Moves (.free :: .hearth :: Dev.Moves.evtParts) (shown [R.hrtHstStat] [0x07]) e := by
  have hh : (d.setHearth fun h => { h with session := none }).hearth = { d.hearth with session := none } := rfl
  have hm : d.Moves (.free :: .hearth :: Dev.Moves.evtParts) (shown [R.hrtHstStat] [0x07]) (d.setHearth fun h => { h with session := none }) :=
    (Dev.Moves.refl _ _ d).setHearth _
  have hr : (d.setHearth fun h => { h with session := none }).regs = d.regs := rfl
  unfold Dev.updOver
  generalize (d.setHearth fun h => { h with session := none }) = a at *
  have hset : a.Moves [] (shown [R.hrtHstStat] []) ((a.set F.hrtHstStatUpdact 0).set F.hrtHstStatUpdres res) :=
    ((Dev.Moves.refl _ _ a).set _ _ (.inl (by decide))).set _ _ (.inl (by decide))
  have hact : ((a.set F.hrtHstStatUpdact 0).set F.hrtHstStatUpdres res).get F.hrtHstStatUpdact = 0 := by
    rw [Dev.get_set_off _ _ _ _ (by decide), Dev.get_set_on _ _ _ (by decide)]
    rfl
  have hresf : ((a.set F.hrtHstStatUpdact 0).set F.hrtHstStatUpdres res).get F.hrtHstStatUpdres = res := by
    rw [Dev.get_set_on _ _ _ (by decide)]
    exact Nat.mod_eq_of_lt hres
  generalize (a.set F.hrtHstStatUpdact 0).set F.hrtHstStatUpdres res = b at *
  have hraise := b.raised_raise 0x07 [R.hrtHstStat] (by decide)
  have hbm := (hm.trans (hset.mono (by simp) (shown_mono (by simp) (by simp)))).raised 0x07 [R.hrtHstStat] (by simp) (by decide)
  have hget : ∀ f : Fld, f.addr < 0x80000 → (b.raise 0x07 [R.hrtHstStat]).get f = b.get f := fun f hf => Dev.get_raise _ _ _ (.inl hf)
  have hbh := (b.raise_quiet 0x07 [R.hrtHstStat]).hearth
  generalize b.raise 0x07 [R.hrtHstStat] = c at *
  have hn : c.Moves [.free, .ash] (fun _ => False) (c.ashNote 2) := (Dev.Moves.refl _ _ c).ashNote 2
  have hnr := c.ashNote_regs 2
  have hg := fun f : Fld => Dev.get_congr hnr f
  refine ⟨by rw [hg, hget _ (by decide), hact], by rw [hg, hget _ (by decide), hresf], hraise.of_ctl ?_ (Dev.reg_congr hnr _), ?_, hbm.trans (hn.mono (by decide) fun _ h => h.elim)⟩
  · rw [hset.only _ (by decide) (by simp), Dev.reg_congr hr]
  · rw [hn.parts .hearth (by decide), hbh, hset.parts .hearth (by decide), hh]

theorem State.updAbort_ends {s : State} {q : MbxReq} {u : UpdSession} (hs : s.dev.out = []) (hq : s.dev.Asked q) (hop : q.opcode = 0x13) (hl : q.len = 0)
    (hu : s.dev.hearth.session = some u) (hown : u.smb = q.smb) :
    ∃ t, exec .updAbort s = .next t ∧ t.dev.hearth.session = none ∧ t.dev.get F.hrtHstStatUpdres = 3 ∧ s.dev.Raised 0x07 t.dev
      ∧ t.dev.img = s.dev.img ∧ s.dev.Answered q 0 [] t.dev := by
  obtain ⟨-, hres, hraise, hh, hm⟩ := s.dev.updOver_shows (res := 3) (by decide)
  simp only [exec, execUpdAbort]
  refine State.mailbox_updates (d' := s.dev.updOver 3) (status := 0) (data := []) hs hq (by simp [hop]) ?_ (by decide) (by simp) (by rw [hh])
    (hm.only _ (by decide) (by decide)) (hm.parts .waiting (by decide)) fun t hans _ _ h3 h4 h5 h6 => ?_
  · simp only [hl, Dev.ownSession_own hu hown]
    rfl
  · exact ⟨by rw [h6, hh], h3.trans hres, hraise.of_ctl rfl h4, by rw [h5, hm.parts .img (by decide)], hans⟩

theorem State.updSessionTimeout_ends {s : State} (hs : s.dev.out = []) (hu : s.dev.hearth.session ≠ none) :
    ∃ t, exec .updSessionTimeout s = .next t ∧ t.dev.hearth.session = none ∧ t.dev.get F.hrtHstStatUpdact = 0
      ∧ t.dev.get F.hrtHstStatUpdres = 4 ∧ s.dev.Raised 0x07 t.dev ∧ s.dev.Only [R.hrtHstStat] [0x07] t.dev := by
  obtain ⟨hact, hres, hraise, hh, hm⟩ := s.dev.updOver_shows (res := 4) (by decide)
  simp only [exec, execUpdSessionTimeout]
  refine State.run_ends hs rfl fun t ht hout hfz => ?_
  rw [Option.isSome_iff_ne_none.2 hu, Dev.when_true] at ht
  exact ⟨by rw [ht.same.hearth, hh], (ht.get _).trans hact, (ht.get _).trans hres, ht.raised.2 hraise, ht.only.2 hm.only⟩

/-! ### The data of a session (R418) -/

/-- The header of a session with the bytes of a piece of data at its place. -/
def UpdSession.headed (u : UpdSession) (o : Nat) (b : List Byte) : List Byte :=
  (List.range 256).map fun i => if o ≤ i && i < o + b.length then b.getD (i - o) 0 else u.header.getD i 0

theorem UpdSession.headed_getD (u : UpdSession) {o k : Nat} {b : List Byte} (hk : k < b.length) (h : o + k < 256) : (u.headed o b).getD (o + k) 0 = b.getD k 0 := by
  rw [UpdSession.headed, List.getD_eq_getElem _ _ (by simpa using h), List.getElem_map, List.getElem_range]
  simp [hk]

/-- The part of the data behind the header goes to its place. -/
theorem Dev.mramPut_data (d : Dev) (base o : Nat) (b : List Byte) :
    let e := d.mramPut (base + o + min b.length (256 - o)) (b.drop (min b.length (256 - o)))
    (∀ k < b.length, 256 ≤ o + k → Tbl.get 0 e.img.mram (base + o + k) = b.getD k 0)
      ∧ ∀ k < 256, Tbl.get 0 e.img.mram (base + k) = Tbl.get 0 d.img.mram (base + k) := by
  refine ⟨fun k hk h => ?_, fun k hk => ?_⟩
  · have hle : min b.length (256 - o) ≤ k := by omega
    rw [show base + o + k = base + o + min b.length (256 - o) + (k - min b.length (256 - o)) by omega, Dev.mramPut_in _ _ _ (by rw [List.length_drop]; omega)]
    rw [List.getD_eq_getElem _ _ (by rw [List.length_drop]; omega), List.getElem_drop, List.getD_eq_getElem _ _ hk]
    congr 1
    omega
  · by_cases hb : b.length ≤ 256 - o
    · rw [show min b.length (256 - o) = b.length by omega, List.drop_length]
      rfl
    · exact Dev.mramPut_out _ _ _ (.inl (by omega))

theorem State.updData_stores {s : State} {q : MbxReq} {u : UpdSession} {o : Nat} {b : List Byte} (hs : s.dev.out = []) (hq : s.dev.Asked q) (hop : q.opcode = 0x11)
    (hargs : q.args = leBytes 4 o ++ b) (hl : q.len = q.args.length) (hb : 4 ≤ b.length) (hb' : b.length ≤ 240) (hb4 : b.length % 4 = 0)
    (hu : s.dev.hearth.session = some u) (hown : u.smb = q.smb) (ho : o % 4 = 0) (hin : o + b.length ≤ u.len) (hlen : u.len < 2 ^ 32) :
    ∃ t, exec .updData s = .next t ∧ s.dev.Answered q 0 [] t.dev
      ∧ (∀ k < b.length, 256 ≤ o + k → Tbl.get 0 t.dev.img.mram (u.base + o + k) = b.getD k 0)
      ∧ (∀ k < b.length, o + k < 256 → ((t.dev.hearth.session.map (·.header)).getD []).getD (o + k) 0 = b.getD k 0)
      ∧ (∀ k < 256, Tbl.get 0 t.dev.img.mram (u.base + k) = Tbl.get 0 s.dev.img.mram (u.base + k)) := by
  have h0 : leAt q.args 0 4 = o := by
    rw [hargs, leAt_first]
    omega
  have hdrop : q.args.drop 4 = b := by rw [hargs, List.drop_left' (by simp)]
  have hal : q.args.length = 4 + b.length := by simp [hargs]
  obtain ⟨hdata, hkeep⟩ := s.dev.mramPut_data u.base o b
  have hm := s.dev.mramPut_moves (u.base + o + min b.length (256 - o)) (b.drop (min b.length (256 - o)))
  simp only [exec, execUpdData]
  generalize hx : s.dev.mramPut (u.base + o + min b.length (256 - o)) (b.drop (min b.length (256 - o))) = x at *
  refine State.mailbox_updates (d' := x.setHearth fun h => { h with session := some { u with header := u.headed o b } }) (status := 0) (data := []) hs hq (by simp [hop]) ?_ (by decide) (by simp)
    (congrArg HearthSt.reqs (hm.parts .hearth (by decide)) : x.hearth.reqs = s.dev.hearth.reqs) (hm.regs _ (by simp)) (hm.parts .waiting (by decide)) fun t hans _ _ _ _ h5 h6 => ?_
  · simp only [h0, hdrop, Dev.ownSession_own hu hown, hl, hal]
    rw [if_neg (by simp; omega), if_neg (by simp [ho]; omega), ← hx]
    rfl
  · refine ⟨hans, fun k hk h => ?_, fun k hk h => ?_, fun k hk => ?_⟩
    · rw [h5]
      exact hdata k hk h
    · rw [h6]
      exact u.headed_getD hk h
    · rw [h5]
      exact hkeep k hk

theorem Dev.fwDisputed_moves (fz : Fuses) (d : Dev) : d.Moves [] (shown [R.hrtHstStat] []) (d.fwDisputed fz) := by
  unfold Dev.fwDisputed
  split
  · exact (Dev.Moves.refl _ _ d).setFlag _ _ (.inl (by decide))
  · exact (Dev.Moves.refl _ _ d).set _ _ (.inl (by decide))

theorem Dev.updCheck_moves (fz : Fuses) (d : Dev) (u : UpdSession) :
    d.Moves [] (shown [R.hrtHstStat, R.hrtCfgStat, R.hrtCfgSeqa, R.hrtCfgSeqb] []) (d.updCheck fz u).1 := by
  unfold Dev.updCheck
  split
  · exact (d.fwDisputed_moves fz).mono (by simp) (shown_mono (by simp) (by simp))
  · exact (d.showSlot_moves _ _).mono (by simp) (shown_mono (by simp) (by simp))

theorem Dev.updCheck_ok (fz : Fuses) (d : Dev) (u : UpdSession) :
    (d.updCheck fz u).2 = if u.firmware then (d.verifyFw fz u.slot).isSome else (d.verifySlot fz u.slot).isSome := by
  unfold Dev.updCheck
  split <;> rfl

theorem State.updEnd_checks {s : State} {q : MbxReq} {u : UpdSession} {ok : Bool} (hs : s.dev.out = []) (hq : s.dev.Asked q) (hop : q.opcode = 0x12) (hl : q.len = 0)
    (hu : s.dev.hearth.session = some u) (hown : u.smb = q.smb) (hhead : u.header.length = 256)
    (hok : ok = (if u.firmware then ((s.dev.mramPut u.base u.header).verifyFw s.fuses u.slot).isSome
      else ((s.dev.mramPut u.base u.header).verifySlot s.fuses u.slot).isSome)) :
    ∃ t, exec .updEnd s = .next t ∧ t.dev.hearth.session = none ∧ t.dev.get F.hrtHstStatUpdact = 0
      ∧ (∀ k < 256, Tbl.get 0 t.dev.img.mram (u.base + k) = u.header.getD k 0)
      ∧ t.dev.get F.hrtHstStatUpdres = (if ok then 1 else 2) ∧ s.dev.Raised 0x07 t.dev
      ∧ s.dev.Answered q (if ok then 0 else 9) [] t.dev := by
  have hmp := s.dev.mramPut_moves u.base u.header
  have hin : ∀ k < 256, Tbl.get 0 (s.dev.mramPut u.base u.header).img.mram (u.base + k) = u.header.getD k 0 := fun k hk => s.dev.mramPut_in _ _ (by omega)
  rw [← Dev.updCheck_ok] at hok
  have hres : (if ok then 1 else 2) < 8 := by cases ok <;> decide
  have hst : (if ok then 0 else 9) < 256 := by cases ok <;> decide
  have hf : s.dev.ownSession q = some u := Dev.ownSession_own hu hown
  have hbody : (if q.len ≠ 0 then s.dev.mbxEnd q 0x02 []
      else match s.dev.ownSession q with
        | none => s.dev.mbxEnd q 0x08 []
        | some u =>
          let x := (s.dev.mramPut u.base u.header).updCheck s.fuses u
          (x.1.updOver (if x.2 then 1 else 2)).mbxEnd q (if x.2 then 0 else 0x09) [])
      = ((((s.dev.mramPut u.base u.header).updCheck s.fuses u).1.updOver (if ok then 1 else 2)).mbxEnd q (if ok then 0 else 9) []) := by
    rw [if_neg (by simp [hl]), hf, hok]
  have hcm := (s.dev.mramPut u.base u.header).updCheck_moves s.fuses u
  generalize hx : s.dev.mramPut u.base u.header = x at *
  generalize hy : (x.updCheck s.fuses u).1 = y at *
  have hall : s.dev.Moves [.img] (shown [R.hrtHstStat, R.hrtCfgStat, R.hrtCfgSeqa, R.hrtCfgSeqb] []) y := (hmp.mono (by simp) fun _ h => h.elim).trans (hcm.mono (by simp) fun _ h => h)
  obtain ⟨hact, hresf, hraise, hh, hm⟩ := y.updOver_shows hres
  have hfull := (hall.mono (l' := .img :: .free :: .hearth :: Dev.Moves.evtParts) (q := shown [R.hrtHstStat, R.hrtCfgStat, R.hrtCfgSeqa, R.hrtCfgSeqb] [0x07]) (by simp) (shown_mono (by simp) (by simp))).trans
    (hm.mono (fun _ h => List.mem_cons_of_mem _ h) (shown_mono (by simp) (by simp)))
  have hyh : y.hearth = s.dev.hearth := hall.parts .hearth (by decide)
  have hyi : y.img = x.img := hcm.parts .img (by decide)
  generalize y.updOver (if ok then 1 else 2) = z at *
  simp only [exec, execUpdEnd]
  refine State.mailbox_updates (d' := z) (status := if ok then 0 else 9) (data := []) hs hq (by simp [hop]) hbody hst (by simp) (by rw [hh, hyh])
    (hfull.only _ (by decide) (by decide)) (hfull.parts .waiting (by decide)) fun t hans h1 _ h3 h4 h5 h6 => ?_
  refine ⟨by rw [h6, hh], h1.trans hact, fun k hk => ?_, h3.trans hresf, hraise.of_ctl (hall.only _ (by decide) (by simp)).symm h4, hans⟩
  rw [h5, hm.parts .img (by decide), hyi]
  exact hin k hk

theorem State.updBegin_denied {s : State} {q : MbxReq} (hs : s.dev.out = []) (hq : s.dev.Asked q) (hop : q.opcode = 0x10) (hl : q.len = 8)
    (hargs : q.args = leBytes 4 0 ++ leBytes 4 1128) (hden : s.dev.updDenied = true) :
    ∃ t, exec .updBegin s = .next t ∧ t.dev.img = s.dev.img ∧ t.dev.hearth.session = s.dev.hearth.session ∧ s.dev.Answered q 7 [] t.dev := by
  simp only [exec, execUpdBegin]
  refine State.mailbox_updates (d' := s.dev) (status := 7) (data := []) hs hq (by simp [hop]) ?_ (by decide) (by simp) rfl rfl rfl fun t hans _ _ _ _ h5 h6 => ⟨h5, h6, hans⟩
  rw [hargs]
  simp only [hl]
  rw [if_neg (by simp), if_neg (by decide), if_pos hden]

theorem State.updAbort_refused {s : State} {q : MbxReq} (hs : s.dev.out = []) (hq : s.dev.Asked q) (hop : q.opcode = 0x13) (hl : q.len = 0)
    (hno : s.dev.hearth.session = none) : ∃ t, exec .updAbort s = .next t ∧ s.dev.Answered q 8 [] t.dev := by
  simp only [exec, execUpdAbort]
  obtain ⟨t, ht, hans, -⟩ := State.mailbox_refuses (mine := (· == 0x13)) (f := fun _ d q =>
    if q.len ≠ 0 then d.mbxEnd q 0x02 []
    else if (d.ownSession q).isNone then d.mbxEnd q 0x08 [] else (d.updOver 3).mbxEnd q 0 []) (status := 8) (data := []) hs hq (by simp [hop])
    (by simp [hl, Dev.ownSession_none hno]) (by decide) (by simp)
  exact ⟨t, ht, hans⟩

/-! ### The firmware that runs after an answer (R409, R410, R419) -/

/-- An answer stays where Hearth and the registers of the mailbox do. -/
theorem Dev.Answered.kept {d a e : Dev} {q : MbxReq} {status : Nat} {data : List Byte} (h : d.Answered q status data a) (hlen : data.length ≤ 248) (hh : e.hearth = a.hearth)
    (hctl : e.reg R.hrtMbxCtl = a.reg R.hrtMbxCtl) (hrsp : ∀ i < 64, e.reg (R.hrtMbxRsp i) = a.reg (R.hrtMbxRsp i))
    (hsrc : e.reg (R.hrtEvtSrcCtl 0x02) = a.reg (R.hrtEvtSrcCtl 0x02)) : d.Answered q status data e := by
  obtain ⟨hr, hsmb, hpcie⟩ := h
  refine ⟨by rw [hh, hr], fun hq => by rw [hh]; exact hsmb hq, fun hq => ?_⟩
  obtain ⟨h1, h2, h3, h4⟩ := hpcie hq
  exact ⟨(congrArg F.hrtMbxCtlBusy.of hctl).trans h1, (congrArg F.hrtMbxCtlStatus.of hctl).trans h2, h3.of_ctl rfl hsrc,
    fun i hi => (hrsp i (by omega)).trans (h4 i hi)⟩

theorem Dev.Answered.of_only {d a e : Dev} {q : MbxReq} {status : Nat} {data : List Byte} {l : List Part} (h : d.Answered q status data a) (hlen : data.length ≤ 248)
    (hm : a.Moves l (fun _ => True) e) (hl : Part.hearth ∉ l) (ho : a.Only [R.hrtHstStat, R.hrtHstFwseq, R.hrtHstFwver] [0x00] e) : d.Answered q status data e := by
  refine h.kept hlen (hm.parts .hearth hl) (ho _ (by decide) (by decide)) (fun i hi => ho _ ?_ ?_) (ho _ (by decide) (by decide))
  · simp only [List.mem_cons, List.not_mem_nil, or_false, not_or, R.hrtMbxRsp, R.hrtHstStat, R.hrtHstFwseq, R.hrtHstFwver]
    omega
  · simp only [List.mem_cons, List.not_mem_nil, or_false, forall_eq]
    exact notMem_evtRegs_of_low (by simp only [R.hrtMbxRsp]; omega)

theorem State.fwActivate_runs {s : State} {q : MbxReq} {k : Nat} {f : Nat × Nat × List Byte} (hs : s.dev.out = []) (hq : s.dev.Asked q) (hop : q.opcode = 0x14) (hl : q.len = 0)
    (hbusy : s.dev.get F.hrtCfgStatBusy = 0) (htr : s.dev.pwr.trans = none) (hk : k = 1 - s.dev.get F.hrtHstStatFwslot)
    (hf : s.dev.verifyFw s.fuses k = some f) (hnew : newer f.1 (s.dev.get F.hrtHstFwseqValue) = true) :
    ∃ t, exec .fwActivate s = .next t ∧ t.dev.get F.hrtHstStatFwslot = k ∧ t.dev.get F.hrtHstFwseqValue = f.1 % 2 ^ 32
      ∧ t.dev.get F.hrtHstFwverValue = f.2.1 % 2 ^ 32 ∧ t.dev.get F.hrtHstStatRstreason = 2 ∧ t.dev.get F.hrtHstStatFwrun = 1
      ∧ s.dev.Raised 0x00 t.dev ∧ s.dev.Answered q 0 [] t.dev := by
  have hrec : s.dev.flag F.hrtHstStatRecovery = false := by
    obtain ⟨-, -, h, -⟩ := hq
    simp [Dev.flag, h]
  have hsel : (if k = 0 then s.dev.verifyFw s.fuses 0 else s.dev.verifyFw s.fuses 1) = some f := by
    rcases (by omega : k = 0 ∨ k = 1) with h | h <;> simpa [h] using hf
  have hb : s.dev.flag F.hrtCfgStatBusy = false := by simp [Dev.flag, hbusy]
  obtain ⟨hans, hm⟩ := s.dev.mbxEnd_answers q (status := 0) (data := []) (by decide) (by simp)
  have hctl := s.dev.mbxEnd_ctl q (status := 0) (data := []) (by simp) (n := 0x00) (by decide)
  simp only [exec, execFwActivate]
  have hruns := (s.dev.mbxEnd q 0 []).runFirmware_shows (slot := k) (reason := 2) (by omega) (by decide) f
  refine State.mailbox_ends (e := (s.dev.mbxEnd q 0 []).runFirmware k f 2) hs hq (by simp [hop]) ?_ ?_ fun t ht _ => ?_
  · simp only [hrec, ← hk, Bool.false_eq_true, if_false]
    rw [if_neg (by simp [hl]), if_neg (by simp [hb, htr]), hsel]
    simp only [hnew]
    rfl
  · exact (hruns.moves.parts .waiting (by decide)).trans ((hm.parts .waiting (by decide)).trans hq.waiting)
  · exact ⟨(ht.get _).trans hruns.slot, (ht.get _).trans hruns.seq, (ht.get _).trans hruns.ver, (ht.get _).trans hruns.reason, (ht.get _).trans hruns.run,
      ht.raised.2 (hruns.raised.of_ctl hctl.symm rfl), ht.answered (hans.of_only (by simp) hruns.moves (by decide) hruns.only)⟩

/-- The device whose firmware has restarted behind the end of a command (R410). -/
def Dev.restarted (fz : Fuses) (x : Dev) (q : MbxReq) (data : List Byte) : Dev := (x.mbxEnd q 0x0D data).fwSelect fz 1

theorem Dev.restarted_shows {fz : Fuses} {x : Dev} {f : Nat × Nat × List Byte} (ha : x.verifyFw fz 0 = some f) (hb : x.verifyFw fz 1 = none) (q : MbxReq)
    {data : List Byte} (hlen : data.length ≤ 248) :
    let e := x.restarted fz q data
    e.get F.hrtHstStatFwslot = 0 ∧ e.get F.hrtHstStatRstreason = 1 ∧ e.get F.hrtHstStatFwrun = 1 ∧ e.get F.hrtHstStatRecovery = 0 ∧ x.Raised 0x00 e
      ∧ x.Answered q 0x0D data e ∧ e.waiting = x.waiting
      ∧ ∀ a, isMbx a = false → isEvt a = false → a ∉ [R.hrtHstStat, R.hrtHstFwseq, R.hrtHstFwver] → e.reg a = x.reg a := by
  obtain ⟨hans, hm⟩ := x.mbxEnd_answers q (status := 0x0D) (by decide) hlen
  have hctl := x.mbxEnd_ctl q (status := 0x0D) hlen (n := 0x00) (by decide)
  have hcongr : ∀ k, (x.mbxEnd q 0x0D data).verifyFw fz k = x.verifyFw fz k := Dev.verifyFw_congr (hm.parts .img (by decide)) (hm.parts .blown (by decide)) fz
  have he : x.restarted fz q data = ((x.mbxEnd q 0x0D data).setFlag F.hrtHstStatFwdisp false).runFirmware 0 f 1 :=
    Dev.fwSelect_first ((hcongr 0).trans ha) ((hcongr 1).trans hb) 1
  dsimp only
  rw [he]
  generalize x.mbxEnd q 0x0D data = a at *
  have hs : a.Moves [] (shown [R.hrtHstStat] []) (a.setFlag F.hrtHstStatFwdisp false) := (Dev.Moves.refl _ _ a).setFlag _ _ (.inl (by decide))
  generalize a.setFlag F.hrtHstStatFwdisp false = b at *
  have hruns := b.runFirmware_shows (slot := 0) (reason := 1) (by decide) (by decide) f
  generalize b.runFirmware 0 f 1 = e at *
  have hb : x.Answered q 0x0D data b := hans.of_only hlen (hs.mono (q := fun _ => True) (l' := []) (by simp) fun _ _ => trivial) (by simp) (fun a ha _ => hs.only a (fun h => ha (by simp at h; simp [h])) (by simp))
  refine ⟨hruns.slot, hruns.reason, hruns.run, hruns.recovery, hruns.raised.of_ctl ((hs.only _ (by decide) (by simp)).trans hctl).symm rfl, hb.of_only hlen hruns.moves (by decide) hruns.only,
    (hruns.moves.parts .waiting (by decide)).trans ((hs.parts .waiting (by decide)).trans (hm.parts .waiting (by decide))), fun a h1 h2 h3 => ?_⟩
  have hev : ∀ n ∈ [0x00], a ∉ evtRegs n := fun n hn h => by
    rw [isEvt_of_evtRegs (by simp at hn; omega) h] at h2
    simp at h2
  exact (hruns.only a h3 hev).trans ((hs.only a (fun h => h3 (by simp at h; simp [h])) (by simp)).trans (hm.regs a (by simp [h1, h2])))

/-- A restart of the firmware in service, of whose command in progress some writes were made (R410). -/
theorem State.watchdogRestart_ends {s : State} {q : MbxReq} {f : Nat × Nat × List Byte} {done n : Nat} {x : Dev} {P : State → Prop} (hs : s.dev.out = []) (hq : s.dev.Asked q)
    (hreset : s.dev.inReset = false) (hno : s.dev.hearth.session = none) (hcut : s.dev.mbxCut s.fuses q done = (x, n)) {l : List Nat}
    (hx : s.dev.Moves [.ash] (· ∈ l) x) (hctl : ∀ e, R.hrtEvtSrcCtl e ∉ l)
    (ha : s.dev.verifyFw s.fuses 0 = some f) (hb : s.dev.verifyFw s.fuses 1 = none)
    (h : ∀ t : State, t.dev.get F.hrtHstStatFwslot = 0 → t.dev.get F.hrtHstStatRstreason = 1 → t.dev.get F.hrtHstStatFwrun = 1 → t.dev.get F.hrtHstStatRecovery = 0 →
      s.dev.Raised 0x00 t.dev → s.dev.Answered q 0x0D (if (opBlock q.opcode 2).isSome then leBytes 4 n else []) t.dev →
      (∀ a, isMbx a = false → isEvt a = false → a ∉ [R.hrtHstStat, R.hrtHstFwseq, R.hrtHstFwver] → t.dev.reg a = x.reg a) → P t) :
    ∃ t, exec (.watchdogRestart done) s = .next t ∧ P t := by
  have hvf : ∀ k, x.verifyFw s.fuses k = s.dev.verifyFw s.fuses k := Dev.verifyFw_congr (hx.parts .img (by decide)) (hx.parts .blown (by decide)) s.fuses
  have hlen : (if (opBlock q.opcode 2).isSome then leBytes 4 n else []).length ≤ 248 := by split <;> simp
  obtain ⟨hslot, hreason, hrun, hrec, hraise, hans, hwait, hregs⟩ := Dev.restarted_shows ((hvf 0).trans ha) ((hvf 1).trans hb) q hlen
  simp only [exec, execWatchdogRestart]
  refine State.runServe_plain hs (x := x.restarted s.fuses q (if (opBlock q.opcode 2).isSome then leBytes 4 n else [])) ?_ ?_ fun t ht _ => ?_
  · obtain ⟨rest, hreqs⟩ := hq.reqs
    have hfr : s.dev.flag F.hrtHstStatFwrun = true := by
      obtain ⟨-, h, -⟩ := hq
      simp [Dev.flag, h]
    rw [if_neg (by simp [hreset, hfr]), hreqs]
    simp only [Dev.ownSession_none hno, hcut]
    rfl
  · exact hwait.trans ((hx.parts .waiting (by decide)).trans hq.waiting)
  · refine h t ((ht.get _).trans hslot) ((ht.get _).trans hreason) ((ht.get _).trans hrun) ((ht.get _).trans hrec) (ht.raised.2 (hraise.of_ctl ?_ rfl))
      (ht.answered (hans.of_before (congrArg HearthSt.reqs (hx.parts .hearth (by decide))) (hx.regs _ (hctl _)))) fun a h1 h2 h3 => (ht.reg a).trans (hregs a h1 h2 h3)
    exact (hx.regs _ (hctl _)).symm

theorem Dev.mbxCut_none (d : Dev) (fz : Fuses) (q : MbxReq) : d.mbxCut fz q 0 = (d, 0) := by
  unfold Dev.mbxCut
  dsimp only
  rw [List.take_zero]
  rfl

/-- The first write of a WRN of HRT_PWR_CFG is made (R410). -/
theorem Dev.mbxCut_pwrCfg {d e : Dev} {fz : Fuses} {q : MbxReq} {v b : Nat} (hop : q.opcode = 0x102) (hl : q.len = 16)
    (hargs : q.args = leBytes 4 R.hrtPwrCfg ++ leBytes 4 2 ++ leBytes 4 v ++ leBytes 4 b) (hv : v < 8) (hx : expertIn q.level (some .power) = false)
    (he : d.mbxPut fz R.hrtPwrCfg (BitVec.ofNat 32 v) = (e, 0)) : d.mbxCut fz q 1 = (e, 1) := by
  obtain ⟨h0, h1, h5⟩ := MbxReq.wrn_args ((List.append_assoc _ _ _) ▸ hargs) (by decide) (by decide)
  have hal : q.args.length = 16 := by simp [hargs]
  have hv0 : leAt q.args (8 + 4 * 0) 4 = v := by
    rw [hargs, List.append_assoc, List.append_assoc, show 8 + 4 * 0 = 4 + 4 from rfl, leAt_next, leAt_next _ _ 0, leAt_first]
    omega
  have hvals : q.values.take 1 = [v] := by
    rw [MbxReq.values, h1, ← hv0]
    rfl
  have hb0 : (opBlock 0x102 0).isSome = false := by decide
  have hb1 : (opBlock 0x102 1).isSome = false := by decide
  have hb2 : (opBlock 0x102 2).isSome = true := by decide
  have hw : Dev.mbxWrites fz q.level 1 R.hrtPwrCfg [v] d 0 = (e, 1, 0, 0) := by
    have ht : mbxTarget q.level 1 R.hrtPwrCfg = 0 := by rw [mbxTarget_pwrCfg, hx]; rfl
    simp only [Dev.mbxWrites, ht, d.mbxCord_system (show R.hrtPwrCfg < 2 ^ 24 by decide), he]
    rfl
  unfold Dev.mbxCut
  simp only [h0, h1, h5, hal, hl, hb0, hb1, hb2, hop]
  rw [if_neg (by simp), if_neg (by simp), if_neg (by simp), if_neg (by simp), if_pos (by simp), hvals, show 0x102 / 256 = 1 from rfl, hw]

theorem State.updBegin_setOut (s : State) : exec .updBegin { s with dev := s.dev.setOut [] } = exec .updBegin s := by
  simp only [exec, execUpdBegin]
  exact s.mailbox_setOut _ _

theorem Dev.verifyFw_setOut (d : Dev) (l : List Output) (fz : Fuses) (k : Nat) : (d.setOut l).verifyFw fz k = d.verifyFw fz k := Dev.verifyFw_congr rfl rfl fz k

theorem Dev.verifyFw_mramPut_setOut (d : Dev) (l : List Output) (o : Nat) (b : List Byte) (fz : Fuses) (k : Nat) :
    ((d.setOut l).mramPut o b).verifyFw fz k = (d.mramPut o b).verifyFw fz k := Dev.verifyFw_congr rfl rfl fz k

theorem Dev.verifySlot_mramPut_setOut (d : Dev) (l : List Output) (o : Nat) (b : List Byte) (fz : Fuses) (k : Nat) :
    ((d.setOut l).mramPut o b).verifySlot fz k = (d.mramPut o b).verifySlot fz k := Dev.verifySlot_congr rfl rfl fz k

/-- Settles O50, clause by clause: the session of an update, FW_ACTIVATE, and a restart in the course of a command. -/
theorem updatesAndRestartsRun : Obligations.UpdatesAndRestartsRun := by
  unfold Obligations.UpdatesAndRestartsRun
  refine ⟨?_, ?_, ?_, ?_, ?_, ?_, ?_, ?_, ?_, ?_⟩
  · intro q len
    refine State.of_sent ?_ fun s h => by simp -implicitDefEqProofs only [State.updBegin_setOut] at h; exact h
    exact fun s hs hq hop hl hargs hlo hhi h4 hden hno => State.updBegin_opens hs hq hop hl hargs hlo hhi h4 hden hno
  · intro q
    refine State.of_sent ?_ fun s h => by simp -implicitDefEqProofs only [State.updBegin_setOut] at h; exact h
    exact fun s hs hq hop hl hargs hden => State.updBegin_denied hs hq hop hl hargs hden
  · intro q u o b
    refine State.of_sent ?_ fun s h => by simp -implicitDefEqProofs only [exec, execUpdData, State.mailbox_setOut] at h; simp only [exec, execUpdData]; exact h
    exact fun s hs hq hop hargs hl hb hb' hb4 hu hown ho hin hlen => State.updData_stores hs hq hop hargs hl hb hb' hb4 hu hown ho hin hlen
  · intro q u ok
    refine State.of_sent ?_ fun s h => by
      simp -implicitDefEqProofs only [Dev.verifyFw_mramPut_setOut, Dev.verifySlot_mramPut_setOut] at h
      exact h
    exact fun s hs hq hop hl hu hown hhead hok => State.updEnd_checks hs hq hop hl hu hown hhead hok
  · intro q u
    refine State.of_sent ?_ fun s h => h
    exact fun s hs hq hop hl hu hown => State.updAbort_ends hs hq hop hl hu hown
  · intro q
    refine State.of_sent ?_ fun s h => h
    exact fun s hs hq hop hl hno => State.updAbort_refused hs hq hop hl hno
  · refine State.of_sent ?_ fun s h => h
    exact fun s hs hu => State.updSessionTimeout_ends hs hu
  · intro q k f
    refine State.of_sent ?_ fun s h => by simp -implicitDefEqProofs only [Dev.verifyFw_setOut] at h; exact h
    exact fun s hs hq hop hl hbusy htr hk hf hnew => State.fwActivate_runs hs hq hop hl hbusy htr hk hf hnew
  · intro q f
    refine State.of_sent ?_ fun s h => by simp -implicitDefEqProofs only [Dev.verifyFw_setOut] at h; exact h
    exact fun s hs hq hreset hno ha hb => State.watchdogRestart_ends hs hq hreset hno (s.dev.mbxCut_none s.fuses q) (l := []) (Dev.Moves.refl _ _ _) (by simp) ha hb
      fun t h1 h2 h3 h4 h5 h6 _ => ⟨h1, h2, h3, h4, h5, h6⟩
  · intro q v b f
    refine State.of_sent ?_ fun s h => by simp -implicitDefEqProofs only [Dev.verifyFw_setOut] at h; exact h
    intro s hs hq hop hl hargs hv ho hx hreset hno ha hb
    obtain ⟨e, hput, hm, hreg⟩ := s.dev.mbxPut_pwrCfg s.fuses (v := BitVec.ofNat 32 v) (by simp [BitVec.lt_def]; omega) ho
    refine State.watchdogRestart_ends hs hq hreset hno (Dev.mbxCut_pwrCfg hop hl hargs hv hx hput) (l := [R.hrtPwrCfg]) (hm.mono (by simp) (by simp))
      (fun e => by simp [R.hrtEvtSrcCtl, R.hrtPwrCfg]; omega) ha hb
      fun t _ h2 _ _ _ h6 hregs => ⟨(hregs _ (by decide) (by decide) (by decide)).trans hreg, ?_, h2, ?_⟩
    · exact (hregs _ (by decide) (by decide) (by decide)).trans (hm.regs _ (by decide))
    · rwa [hop, if_pos (by decide)] at h6

end Sys2Proof.Machine
end

section
/-!
PROOFS. The PCIe link, its rings and the endpoint (O37).
-/

namespace Sys2Proof.Machine

set_option Elab.async false

/-! ### A ring reset (R343) -/

/-- The first register of a ring. -/
def ringBase (tx : Bool) (r : Nat) : Nat := (if tx then 0xC200000 else 0xC100000) + 0x20 * r

/-- The registers of a ring that its reset changes. -/
def ringRegs (tx : Bool) (r : Nat) : List Nat := [ringBase tx r + 0x8, ringBase tx r + 0x10, ringBase tx r + 0x14, ringBase tx r + 0x18, ringBase tx r + 0x1C]

/-- The cause of a ring's last reset. -/
def ringRstc (tx : Bool) (r : Nat) : Fld := ringF tx F.pciRxgStatRstc F.pciTxgStatRstc r

theorem ringFields_addr (tx : Bool) (r : Nat) :
    (ringEn tx r).addr = ringBase tx r + 0x8 ∧ (ringHead tx r).addr = ringBase tx r + 0x10 ∧ (ringTail tx r).addr = ringBase tx r + 0x14
      ∧ (ringFlbusy tx r).addr = ringBase tx r + 0x18 ∧ (ringRstc tx r).addr = ringBase tx r + 0x18 ∧ (ringFldrop tx r).addr = ringBase tx r + 0x1C := by
  have ho : ∀ b o : Nat, b + o + 0x20 * r = b + 0x20 * r + o := fun b o => Nat.add_right_comm _ _ _
  cases tx with
  | false => exact ⟨ho 0xC100000 0x8, ho 0xC100000 0x10, ho 0xC100000 0x14, ho 0xC100000 0x18, ho 0xC100000 0x18, ho 0xC100000 0x1C⟩
  | true => exact ⟨ho 0xC200000 0x8, ho 0xC200000 0x10, ho 0xC200000 0x14, ho 0xC200000 0x18, ho 0xC200000 0x18, ho 0xC200000 0x1C⟩

theorem ringStat_addr (tx : Bool) (r : Nat) : ringStatReg tx r = ringBase tx r + 0x18 := by
  cases tx with
  | false => exact Nat.add_right_comm 0xC100000 0x18 (0x20 * r)
  | true => exact Nat.add_right_comm 0xC200000 0x18 (0x20 * r)

theorem ringBase_low (tx : Bool) (r : Nat) : 0xC100000 ≤ ringBase tx r := by cases tx <;> simp only [ringBase, Bool.false_eq_true, if_true, if_false] <;> omega

theorem ringRegs_bounds {tx : Bool} {r a : Nat} (hr : r < 2048) (h : a ∈ ringRegs tx r) :
    ringBase tx r < a ∧ a < ringBase tx r + 0x20 ∧ 0xC100000 ≤ a ∧ a < 0xC210000 := by
  simp only [ringRegs, ringBase, List.mem_cons, List.not_mem_nil, or_false] at h ⊢
  cases tx <;> simp only [Bool.false_eq_true, if_true, if_false] at h ⊢ <;> omega

/-- Two rings share no register. -/
theorem ringBase_apart {tx tx' : Bool} {r q : Nat} (hr : r < 2048) (hq : q < 2048) (h : (tx, r) ≠ (tx', q)) :
    ringBase tx r + 0x20 ≤ ringBase tx' q ∨ ringBase tx' q + 0x20 ≤ ringBase tx r := by
  simp only [ringBase]
  cases tx <;> cases tx' <;> simp at h ⊢ <;> omega

theorem ringKey_ne {tx tx' : Bool} {r q : Nat} (hr : r < 2048) (hq : q < 2048) (h : (tx, r) ≠ (tx', q)) : ringKey tx r ≠ ringKey tx' q := by
  simp only [ringKey]
  cases tx <;> cases tx' <;> simp at h ⊢ <;> omega

/-- A ring out of service with the cause of it. -/
structure Dev.Stopped (tx : Bool) (r cause : Nat) (e : Dev) : Prop where
  en : e.get (ringEn tx r) = 0
  head : e.get (ringHead tx r) = 0
  tail : e.get (ringTail tx r) = 0
  rstc : e.get (ringRstc tx r) = cause
  ring : e.ring tx r = {}

theorem Dev.BufSame.ring {d e : Dev} (h : d.BufSame e) (tx : Bool) (r : Nat) : e.ring tx r = d.ring tx r := by
  obtain ⟨b, hb⟩ := h
  exact hb.ring tx r

/-- What an emptied ring leaves: the ring holds nothing, and only its buffers and its count of frames are touched. -/
theorem Dev.ringEmpty_shows (d : Dev) (tx : Bool) (r : Nat) (ws : List (BitVec 64)) :
    let e := d.ringEmpty tx r ws
    e.ring tx r = {} ∧ (∀ (tx' : Bool) (q : Nat), ringKey tx' q ≠ ringKey tx r → e.ring tx' q = d.ring tx' q)
      ∧ d.Only (bufRegs ++ [ringBase tx r + 0x1C]) [0xE0, 0xE1, 0xE3] e := by
  have hf : d.Frees (d.each (d.ring tx r).pending fun d x => d.freeBufs x.bufs 28) := (Dev.Frees.refl d).each _ _ fun e x => e.freeBufs_frees _ _
  unfold Dev.ringEmpty
  dsimp only
  generalize d.each (d.ring tx r).pending (fun d x => d.freeBufs x.bufs 28) = a at *
  generalize (if tx then _ else _ : Nat) = n
  have hself : (a.setRing tx r fun _ => {}).ring tx r = {} := a.ring_setRing_self _ _ _
  have hne : ∀ (tx' : Bool) (q : Nat), ringKey tx' q ≠ ringKey tx r → (a.setRing tx r fun _ => {}).ring tx' q = a.ring tx' q := fun tx' q h => a.ring_setRing_ne _ h
  have hregs : (a.setRing tx r fun _ => {}).regs = a.regs := rfl
  generalize (a.setRing tx r fun _ => {}) = b at *
  have hring : ∀ (tx' : Bool) (q : Nat), (b.count (ringFldrop tx r) n).ring tx' q = b.ring tx' q := fun tx' q => (b.set_quiet _ _).ring tx' q
  refine ⟨(hring _ _).trans hself, fun tx' q h => (hring _ _).trans ((hne tx' q h).trans (hf.same.ring tx' q)), ?_⟩
  exact ((hf.only.mono (fun x h => List.mem_append_left _ h) (by simp)).congr hregs).count _ _ (by rw [(ringFields_addr tx r).2.2.2.2.2]; simp)

theorem Dev.ringRefresh_off {d : Dev} {tx : Bool} {r : Nat} (h : d.get (ringEn tx r) = 0) (msg : Bool) :
    d.ringRefresh tx r msg = (d.set (ringF tx F.pciRxgStatFill F.pciTxgStatFill r) 0).set (ringF tx F.pciRxgStatAbove F.pciTxgStatAbove r) 0 := by
  unfold Dev.ringRefresh
  simp [Dev.flag, h]

/-- A reset stops its ring and touches no other (R343, R344). -/
theorem Dev.ringReset_shows (d : Dev) (tx : Bool) (r : Nat) {cause : Nat} (hc : cause < 4) :
    let e := d.ringReset tx r cause
    e.Stopped tx r cause ∧ (∀ (tx' : Bool) (q : Nat), ringKey tx' q ≠ ringKey tx r → e.ring tx' q = d.ring tx' q)
      ∧ d.Only (bufRegs ++ ringRegs tx r) [0xE0, 0xE1, 0xE3] e := by
  obtain ⟨hself, hne, hon⟩ := d.ringEmpty_shows tx r []
  obtain ⟨hea, hha, hta, hfa, hra, -⟩ := ringFields_addr tx r
  unfold Dev.ringReset
  dsimp only
  generalize d.ringEmpty tx r [] = a at *
  have hen : (ringEn tx r).fits ∧ (ringHead tx r).fits ∧ (ringTail tx r).fits ∧ (ringRstc tx r).fits := by
    cases tx <;> simp [ringEn, ringHead, ringTail, ringRstc, ringF, Fld.fits, F.pciRxgCfgEn, F.pciTxgCfgEn, F.pciRxgHeadHead, F.pciTxgHeadHead, F.pciRxgTailTail, F.pciTxgTailTail,
      F.pciRxgStatRstc, F.pciTxgStatRstc]
  obtain ⟨hef, hhf, htf, hrf⟩ := hen
  have hen0 : (a.set (ringEn tx r) 0).get (ringEn tx r) = 0 := by rw [Dev.get_set_self _ _ _ hef, Nat.zero_mod]
  have hhd0 : ((a.set (ringEn tx r) 0).set (ringHead tx r) 0).get (ringHead tx r) = 0 := by rw [Dev.get_set_self _ _ _ hhf, Nat.zero_mod]
  have htl0 : (((a.set (ringEn tx r) 0).set (ringHead tx r) 0).set (ringTail tx r) 0).get (ringTail tx r) = 0 := by rw [Dev.get_set_self _ _ _ htf, Nat.zero_mod]
  have hring : ∀ (tx' : Bool) (q : Nat), ((((a.set (ringEn tx r) 0).set (ringHead tx r) 0).set (ringTail tx r) 0).set (ringFlbusy tx r) 0).ring tx' q = a.ring tx' q :=
    fun tx' q => ((((a.set_quiet _ _).trans (Dev.set_quiet _ _ _)).trans (Dev.set_quiet _ _ _)).trans (Dev.set_quiet _ _ _)).ring tx' q
  have hone : d.Only (bufRegs ++ ringRegs tx r) [0xE0, 0xE1, 0xE3] ((((a.set (ringEn tx r) 0).set (ringHead tx r) 0).set (ringTail tx r) 0).set (ringFlbusy tx r) 0) :=
    (((((hon.mono (fun a ha => by rcases List.mem_append.1 ha with h | h; exact List.mem_append_left _ h; exact List.mem_append_right _ (by simp at h; simp [h, ringRegs])) (by simp)).set _ _
      (by simp [hea, ringRegs])).set _ _ (by simp [hha, ringRegs])).set _ _ (by simp [hta, ringRegs])).set _ _ (by simp [hfa, ringRegs]))
  have hen1 := Dev.get_set_zero (((a.set (ringEn tx r) 0).set (ringHead tx r) 0).set (ringTail tx r) 0) (ringFlbusy tx r) (Dev.get_set_zero _ (ringTail tx r) (Dev.get_set_zero _ (ringHead tx r) hen0))
  have hhd1 := Dev.get_set_zero (((a.set (ringEn tx r) 0).set (ringHead tx r) 0).set (ringTail tx r) 0) (ringFlbusy tx r) (Dev.get_set_zero _ (ringTail tx r) hhd0)
  have htl1 := Dev.get_set_zero (((a.set (ringEn tx r) 0).set (ringHead tx r) 0).set (ringTail tx r) 0) (ringFlbusy tx r) htl0
  generalize (((a.set (ringEn tx r) 0).set (ringHead tx r) 0).set (ringTail tx r) 0).set (ringFlbusy tx r) 0 = b at *
  have hoff : (b.set (ringRstc tx r) cause).get (ringEn tx r) = 0 := by rw [Dev.get_set_ne _ _ (by rw [hea, hra]; omega), hen1]
  have hrstc : (b.set (ringRstc tx r) cause).get (ringRstc tx r) = cause := Dev.get_set_lt _ _ hrf (by cases tx <;> exact hc)
  have hcr : (b.set (ringRstc tx r) cause).ringRefresh tx r false = _ := Dev.ringRefresh_off hoff false
  have hsends := (b.set (ringRstc tx r) cause).ringRefresh_sends tx r false
  have hring2 : ∀ (tx' : Bool) (q : Nat), ((b.set (ringRstc tx r) cause).ringRefresh tx r false).ring tx' q = b.ring tx' q := fun tx' q => by
    rw [hcr]
    exact (((b.set_quiet _ _).trans (Dev.set_quiet _ _ _)).trans (Dev.set_quiet _ _ _)).ring tx' q
  refine ⟨⟨?_, ?_, ?_, ?_, (hring2 _ _).trans ((hring _ _).trans hself)⟩, fun tx' q h => (hring2 _ _).trans ((hring _ _).trans (hne tx' q h)), ?_⟩
  · exact (Dev.ringRefresh_en _ _ _ _ _ _).trans hoff
  · show ((b.set (ringRstc tx r) cause).ringRefresh tx r false).get _ = 0
    rw [hcr]
    refine Dev.get_set_zero _ _ (Dev.get_set_zero _ _ ?_)
    rw [Dev.get_set_ne _ _ (by rw [hha, hra]; omega), hhd1]
  · show ((b.set (ringRstc tx r) cause).ringRefresh tx r false).get _ = 0
    rw [hcr]
    refine Dev.get_set_zero _ _ (Dev.get_set_zero _ _ ?_)
    rw [Dev.get_set_ne _ _ (by rw [hta, hra]; omega), htl1]
  · show ((b.set (ringRstc tx r) cause).ringRefresh tx r false).get _ = cause
    rw [hcr, Dev.get_set_apart _ _ _ _ hrf (by cases tx <;> simp [ringRstc, ringF, Fld.apart, F.pciRxgStatRstc, F.pciTxgStatRstc, F.pciRxgStatAbove, F.pciTxgStatAbove]),
      Dev.get_set_apart _ _ _ _ hrf (by cases tx <;> simp [ringRstc, ringF, Fld.apart, F.pciRxgStatRstc, F.pciTxgStatRstc, F.pciRxgStatFill, F.pciTxgStatFill]), hrstc]
  · exact (hone.set _ _ (by simp [hra, ringRegs])).trans (hsends.only.mono (by simp [ringStat_addr, ringRegs]) (by simp))

/-! ### The rings of a link that is lost (R343, R346) -/

/-- The registers that ring resets touch: those of the rings, and of the buffers given back. -/
def ringReach (a : Nat) : Prop := a ∈ bufRegs ∨ 0xC100000 ≤ a ∧ a < 0xC210000

/-- Rings have been reset between two devices; the pools of the receive rings stay. -/
structure Dev.RingsGo (d e : Dev) : Prop where
  reach : ∀ a, ¬ ringReach a → (∀ n ∈ [0xE0, 0xE1, 0xE3], a ∉ evtRegs n) → e.reg a = d.reg a
  pool : ∀ q, e.get (F.pciRxgCfgPool q) = d.get (F.pciRxgCfgPool q)

theorem Dev.RingsGo.refl (d : Dev) : d.RingsGo d := ⟨fun _ _ _ => rfl, fun _ => rfl⟩

theorem Dev.RingsGo.trans {d e f : Dev} (h : d.RingsGo e) (k : e.RingsGo f) : d.RingsGo f :=
  ⟨fun a ha hn => (k.reach a ha hn).trans (h.reach a ha hn), fun q => (k.pool q).trans (h.pool q)⟩

theorem Dev.RingsGo.of_only {d e : Dev} {l : List Nat} (h : d.Only l [0xE0, 0xE1, 0xE3] e)
    (hl : ∀ a ∈ l, a ∈ bufRegs ∨ 0xC100000 ≤ a ∧ a < 0xC210000 ∧ a % 0x20 ≠ 8) : d.RingsGo e := by
  refine ⟨fun a ha hn => h a (fun hm => ha ?_) hn, fun q => h.get_eq (fun hm => ?_) (by simp only [F.pciRxgCfgPool, R.pciRxgCfg]; omega) (by decide)⟩
  · rcases hl a hm with hb | ⟨h1, h2, -⟩
    · exact .inl hb
    · exact .inr ⟨h1, h2⟩
  · rcases hl _ hm with hb | ⟨-, -, h3⟩
    · obtain ⟨-, hlt⟩ := bufRegs_range hb
      simp only [F.pciRxgCfgPool, R.pciRxgCfg] at hlt
      omega
    · simp only [F.pciRxgCfgPool, R.pciRxgCfg] at h3
      omega

theorem Dev.ringReset_ringsGo (d : Dev) (tx : Bool) {r : Nat} (hr : r < 2048) (cause : Nat) : d.RingsGo (d.ringReset tx r cause) := by
  obtain ⟨-, -, hon⟩ := d.ringEmpty_shows tx r []
  obtain ⟨hea, hha, hta, hfa, hra, -⟩ := ringFields_addr tx r
  have hb : ringBase tx r % 0x20 = 0 ∧ 0xC100000 ≤ ringBase tx r ∧ ringBase tx r + 0x20 ≤ 0xC210000 := by
    unfold ringBase
    cases tx <;> simp <;> omega
  have hgo := Dev.RingsGo.of_only hon fun a ha => by
    rcases List.mem_append.1 ha with h | h
    · exact .inl h
    · simp only [List.mem_singleton] at h
      omega
  unfold Dev.ringReset
  dsimp only
  generalize d.ringEmpty tx r [] = a at *
  have hen : a.RingsGo (a.set (ringEn tx r) 0) := by
    refine ⟨fun x hx _ => Dev.reg_set_ne _ _ fun h => hx (.inr ?_), fun q => Dev.get_set_apart _ _ _ _ (by simp [Fld.fits, F.pciRxgCfgPool]) ?_⟩
    · rw [h, hea]
      omega
    · by_cases h : (F.pciRxgCfgPool q).addr = (ringEn tx r).addr
      · right
        cases tx <;> simp [ringEn, ringF, F.pciRxgCfgEn, F.pciTxgCfgEn, F.pciRxgCfgPool]
      · exact .inl (Ne.symm h)
  have hgo2 := hgo.trans hen
  generalize a.set (ringEn tx r) 0 = b at *
  have hsets : b.Only [ringBase tx r + 0x10, ringBase tx r + 0x14, ringBase tx r + 0x18] [0xE0, 0xE1, 0xE3]
      ((((b.set (ringHead tx r) 0).set (ringTail tx r) 0).set (ringFlbusy tx r) 0).set (ringRstc tx r) cause) :=
    ((((Dev.Only.refl _ _ b).set _ _ (by simp [hha])).set _ _ (by simp [hta])).set _ _ (by simp [hfa])).set _ _ (by simp [hra])
  have hall := hsets.trans ((((((b.set (ringHead tx r) 0).set (ringTail tx r) 0).set (ringFlbusy tx r) 0).set (ringRstc tx r) cause).ringRefresh_sends tx r false).only.mono
    (by simp [ringStat_addr]) (by simp))
  exact hgo2.trans (Dev.RingsGo.of_only hall fun a ha => .inr (by simp at ha; omega))

/-- A ring that is stopped stays so while rings are reset. -/
theorem Dev.Stopped.reset {d : Dev} {tx tx' : Bool} {r q cause : Nat} (hr : r < 2048) (hq : q < 2048) (hc : cause < 4) (h : (tx, r) = (tx', q) ∨ d.Stopped tx r cause) :
    (d.ringReset tx' q cause).Stopped tx r cause := by
  obtain ⟨hself, hne, hon⟩ := d.ringReset_shows tx' q hc
  by_cases he : (tx, r) = (tx', q)
  · cases he
    exact hself
  · obtain ⟨h1, h2, h3, h4, h5⟩ := h.resolve_left he
    obtain ⟨hea, hha, hta, -, hra, -⟩ := ringFields_addr tx r
    have hget : ∀ f : Fld, ringBase tx r ≤ f.addr → f.addr < ringBase tx r + 0x20 → (d.ringReset tx' q cause).get f = d.get f := fun f hf hf' => by
      have hlow := ringBase_low tx r
      refine hon.get_eq (fun hm => ?_) (by omega) (by decide)
      rcases List.mem_append.1 hm with hm | hm
      · have := (bufRegs_range hm).2
        omega
      · obtain ⟨hlo, hhi, -⟩ := ringRegs_bounds hq hm
        have := ringBase_apart hr hq he
        omega
    exact ⟨(hget _ (by omega) (by omega)).trans h1, (hget _ (by omega) (by omega)).trans h2, (hget _ (by omega) (by omega)).trans h3,
      (hget _ (by omega) (by omega)).trans h4, (hne _ _ (ringKey_ne hr hq he)).trans h5⟩

theorem Dev.ringsReset_shows (l : List (Bool × Nat)) (d : Dev) (hl : ∀ x ∈ l, x.2 < 2048) {cause : Nat} (hc : cause < 4) :
    let e := d.each l fun d r => d.ringReset r.1 r.2 cause
    d.RingsGo e ∧ ∀ (tx : Bool) (r : Nat), r < 2048 → (tx, r) ∈ l ∨ d.Stopped tx r cause → e.Stopped tx r cause := by
  unfold Dev.each
  induction l generalizing d with
  | nil => exact ⟨Dev.RingsGo.refl d, fun tx r _ h => h.elim (fun h => absurd h (by simp)) id⟩
  | cons x l ih =>
    have hx := hl x (by simp)
    obtain ⟨hgo, hstop⟩ := ih (d.ringReset x.1 x.2 cause) fun y hy => hl y (List.mem_cons_of_mem _ hy)
    refine ⟨(d.ringReset_ringsGo x.1 hx cause).trans hgo, fun tx r hr h => hstop tx r hr ?_⟩
    rcases h with h | h
    · rcases List.mem_cons.1 h with h | h
      · exact .inr (Dev.Stopped.reset hr hx hc (.inl h))
      · exact .inl h
    · exact .inr (Dev.Stopped.reset hr hx hc (.inr h))

theorem Dev.enabledRings_lt {d : Dev} {x : Bool × Nat} (h : x ∈ d.enabledRings) : x.2 < 2048 := by
  rcases List.mem_append.1 h with h | h <;> obtain ⟨r, hr, rfl⟩ := List.mem_map.1 h <;> exact List.mem_range.1 (List.mem_filter.1 hr).1

theorem Dev.QuietSame.stopped {d e : Dev} (h : d.QuietSame e) (hr : ∀ a, 0x81000 ≤ a → e.reg a = d.reg a) {tx : Bool} {r cause : Nat} (k : d.Stopped tx r cause) : e.Stopped tx r cause := by
  obtain ⟨h1, h2, h3, h4, h5⟩ := k
  obtain ⟨hea, hha, hta, -, hra, -⟩ := ringFields_addr tx r
  have hlow := ringBase_low tx r
  have hget : ∀ f : Fld, 0x81000 ≤ f.addr → e.get f = d.get f := fun f hf => congrArg f.of (hr _ hf)
  exact ⟨(hget _ (by omega)).trans h1, (hget _ (by omega)).trans h2, (hget _ (by omega)).trans h3, (hget _ (by omega)).trans h4, (h.ring _ _).trans h5⟩

/-- A link that is lost resets every ring in service and says so once (R343, R346). -/
theorem Dev.linkLost_shows {d : Dev} (hup : d.get F.pciEpStatDlup = 1) :
    let e := d.linkLost
    e.get F.pciEpStatDlup = 0 ∧ e.get F.pciEpStatSpeed = 0 ∧ e.get F.pciEpStatWidth = 0 ∧ d.Raised 0xF0 e
      ∧ (∀ (tx : Bool) (r : Nat), r < 2048 → d.get (ringEn tx r) = 1 → e.Stopped tx r 3)
      ∧ (∀ q, e.get (F.pciRxgCfgPool q) = d.get (F.pciRxgCfgPool q))
      ∧ ∀ a, ¬ ringReach a → a ≠ R.pciEpStat → (∀ n ∈ [0xE0, 0xE1, 0xE3, 0xF0], a ∉ evtRegs n) → e.reg a = d.reg a := by
  have hset : d.Only [R.pciEpStat] [] (((d.set F.pciEpStatSpeed 0).set F.pciEpStatWidth 0).set F.pciEpStatDlup 0) :=
    (((Dev.Only.refl _ _ d).set _ _ (by decide)).set _ _ (by decide)).set _ _ (by decide)
  have hs : (((d.set F.pciEpStatSpeed 0).set F.pciEpStatWidth 0).set F.pciEpStatDlup 0).get F.pciEpStatSpeed = 0 :=
    Dev.get_set_zero _ _ (Dev.get_set_zero _ _ (by rw [Dev.get_set_on _ _ _ (by decide)]; rfl))
  have hw : (((d.set F.pciEpStatSpeed 0).set F.pciEpStatWidth 0).set F.pciEpStatDlup 0).get F.pciEpStatWidth = 0 :=
    Dev.get_set_zero _ _ (by rw [Dev.get_set_on _ _ _ (by decide)]; rfl)
  have hd : (((d.set F.pciEpStatSpeed 0).set F.pciEpStatWidth 0).set F.pciEpStatDlup 0).get F.pciEpStatDlup = 0 := by
    rw [Dev.get_set_on _ _ _ (by decide)]
    rfl
  unfold Dev.linkLost
  rw [show d.flag F.pciEpStatDlup = true by simp [Dev.flag, hup], Dev.when_true]
  dsimp only
  generalize ((d.set F.pciEpStatSpeed 0).set F.pciEpStatWidth 0).set F.pciEpStatDlup 0 = a at *
  obtain ⟨hgo, hstop⟩ := Dev.ringsReset_shows a.enabledRings a (fun x hx => Dev.enabledRings_lt hx) (cause := 3) (by decide)
  generalize (a.each a.enabledRings fun d r => d.ringReset r.1 r.2 3) = b at *
  have hreach : ¬ ringReach R.pciEpStat := by
    rintro (h | h)
    · exact absurd (bufRegs_range h).2 (by decide)
    · exact absurd h.1 (by decide)
  have hep : b.reg R.pciEpStat = a.reg R.pciEpStat := hgo.reach _ hreach (by decide)
  have hbc : b.reg (R.hrtEvtSrcCtl 0xF0) = d.reg (R.hrtEvtSrcCtl 0xF0) := (hgo.reach _ (by
    rintro (h | h)
    · exact absurd (bufRegs_range h).1 (by decide)
    · exact absurd h.1 (by decide)) (by decide)).trans (hset _ (by decide) (by simp))
  have hraise := (b.raised_raise 0xF0 [R.pciEpStat] (by decide)).of_ctl hbc.symm rfl
  have hget : ∀ f : Fld, f.addr < 0x80000 ∨ 0x81000 ≤ f.addr → (b.raise 0xF0 [R.pciEpStat]).get f = b.get f := fun f hf => Dev.get_raise _ _ _ hf
  have hquiet := b.raise_quiet 0xF0 [R.pciEpStat]
  have hon : b.Only [] [0xF0] (b.raise 0xF0 [R.pciEpStat]) := (Dev.Only.refl _ _ b).raise _ _ (by simp)
  refine ⟨?_, ?_, ?_, hraise, fun tx r hr he => ?_, fun q => ?_, fun x hx hne hn => ?_⟩
  · exact (hget _ (.inr (by decide))).trans ((congrArg F.pciEpStatDlup.of hep).trans hd)
  · exact (hget _ (.inr (by decide))).trans ((congrArg F.pciEpStatSpeed.of hep).trans hs)
  · exact (hget _ (.inr (by decide))).trans ((congrArg F.pciEpStatWidth.of hep).trans hw)
  · refine hquiet.stopped (fun x hx => hon.reg_eq (by simp) hx (by decide)) (hstop tx r hr (.inl (Dev.mem_enabledRings hr ?_)))
    have hea := (ringFields_addr tx r).1
    have hlow := ringBase_low tx r
    have hea' : a.get (ringEn tx r) = d.get (ringEn tx r) := hset.get_eq (by simp [hea, R.pciEpStat]; omega) (by omega) (by simp)
    rw [hea', he]
    decide
  · exact (hget _ (.inr (by simp only [F.pciRxgCfgPool, R.pciRxgCfg]; omega))).trans ((hgo.pool q).trans (hset.get_eq (by simp [F.pciRxgCfgPool, R.pciRxgCfg, R.pciEpStat]; omega)
      (by simp only [F.pciRxgCfgPool, R.pciRxgCfg]; omega) (by simp)))
  · exact (hon x (by simp) (by simpa using hn 0xF0 (by simp))).trans ((hgo.reach x hx fun n h => hn n (by simp at h ⊢; omega)).trans (hset x (by simpa using hne) (by simp)))

/-! ### The reset values of the ring registers (R453, R473) -/

/-- A row that may hold an offset of a block. -/
def RegRow.holds (row : RegRow) (c b o : Nat) : Bool :=
  decide (row.cord ≤ c ∧ c < row.cord + row.cords ∧ row.blk ≤ b ∧ b < row.blk + row.blks) && (row.indices o).isSome

theorem findRow_holds {l : List RegRow} {c b o : Nat} {r : RegAt} (h : findRow l c b o = some r) : r.row ∈ l ∧ r.row.holds c b o = true := by
  induction l with
  | nil => exact absurd h (by simp [findRow])
  | cons x l ih =>
    simp only [findRow] at h
    split at h
    · next hc =>
      split at h
      · next hi =>
        obtain rfl := Option.some.inj h
        exact ⟨List.mem_cons_self, by simp [RegRow.holds, hc, hi]⟩
      · exact ⟨List.mem_cons_of_mem _ (ih h).1, (ih h).2⟩
    · exact ⟨List.mem_cons_of_mem _ (ih h).1, (ih h).2⟩

/-- The reset value of an address, from those of the rows that may hold it. -/
theorem regReset_of_rows {a : Nat} {P : Word → Prop} (h0 : P 0)
    (h : ∀ row ∈ regTable, row.holds (a / 2 ^ 24) (a / 2 ^ 16 % 256) (a % 2 ^ 16) = true → row.name ≠ .leTxpTap ∧ P (BitVec.ofNat 32 row.reset)) : P (regReset a) := by
  unfold regReset
  cases hd : decodeAddr a with
  | none => exact h0
  | some r =>
    unfold decodeAddr at hd
    split at hd
    · obtain ⟨hm, hh⟩ := findRow_holds hd
      obtain ⟨hn, hp⟩ := h _ hm hh
      simpa [hn] using hp
    · exact absurd hd (by simp)

/-- An offset that a row of stride 32 holds, within the stride. -/
theorem RegRow.indices_mod {row : RegRow} {o : Nat} (h : (row.indices o).isSome = true) (h1 : row.st1 = 32) (h2 : row.n2 = 1) (h3 : row.st2 = 0) (hoff : row.off < 32) :
    o % 32 = row.off := by
  unfold RegRow.indices at h
  rw [h1, h2, h3] at h
  split at h
  · exact absurd h (by simp)
  · simp at h
    omega

/-- The rows of the ring registers. -/
theorem regTable_rings : ∀ b ∈ [0x10, 0x20], ∀ row ∈ regTable, row.cord ≤ 12 ∧ 12 < row.cord + row.cords ∧ row.blk ≤ b ∧ b < row.blk + row.blks →
    row.name ≠ .leTxpTap ∧ row.st1 = 32 ∧ row.n2 = 1 ∧ row.st2 = 0 ∧ row.off < 32 ∧ (row.off = 8 → row.reset = 0xA000006) ∧ (row.off = 0x14 → row.reset = 0) := by
  decide +kernel

/-- A ring's CFG and TAIL at reset. -/
theorem regReset_ring (tx : Bool) {r : Nat} (hr : r < 2048) :
    (regReset (ringBase tx r + 0x8) = 0 ∨ regReset (ringBase tx r + 0x8) = 0xA000006#32) ∧ regReset (ringBase tx r + 0x14) = 0 := by
  have hrows : ∀ o : Nat, o < 32 → ∀ row ∈ regTable, row.holds ((ringBase tx r + o) / 2 ^ 24) ((ringBase tx r + o) / 2 ^ 16 % 256) ((ringBase tx r + o) % 2 ^ 16) = true →
      row.name ≠ .leTxpTap ∧ row.off = o ∧ (row.off = 8 → row.reset = 0xA000006) ∧ (row.off = 0x14 → row.reset = 0) := by
    intro o ho row hm hh
    have hb : (ringBase tx r + o) / 2 ^ 24 = 12 ∧ (ringBase tx r + o) / 2 ^ 16 % 256 ∈ [0x10, 0x20] ∧ (ringBase tx r + o) % 2 ^ 16 % 32 = o := by
      simp only [ringBase, List.mem_cons, List.not_mem_nil, or_false]
      cases tx <;> simp only [Bool.false_eq_true, if_true, if_false] <;> omega
    obtain ⟨hc, hblk, hmod⟩ := hb
    simp only [RegRow.holds, Bool.and_eq_true, decide_eq_true_eq, hc] at hh
    obtain ⟨hn, h1, h2, h3, hoff, h8, h14⟩ := regTable_rings _ hblk row hm hh.1
    exact ⟨hn, (RegRow.indices_mod hh.2 h1 h2 h3 hoff).symm.trans hmod, h8, h14⟩
  refine ⟨regReset_of_rows (P := fun x => x = 0 ∨ x = 0xA000006#32) (.inl rfl) fun row hm hh => ?_, regReset_of_rows (P := (· = 0)) rfl fun row hm hh => ?_⟩
  · obtain ⟨hn, ho, h8, -⟩ := hrows 8 (by decide) row hm hh
    exact ⟨hn, .inr (by rw [h8 ho])⟩
  · obtain ⟨hn, ho, -, h14⟩ := hrows 0x14 (by decide) row hm hh
    exact ⟨hn, by rw [h14 ho]; rfl⟩

/-! ### The reset of the ring registers (R32, R473) -/

/-- Pools written back one after another into registers that hold them or none. -/
theorem Dev.poolsBack_get (f : Nat → Nat) (hf : ∀ q, f q < 64) (l : List Nat) (d : Dev) (h : ∀ q ∈ l, d.get (F.pciRxgCfgPool q) = f q ∨ d.get (F.pciRxgCfgPool q) = 0)
    {q : Nat} (hq : q ∈ l ∨ d.get (F.pciRxgCfgPool q) = f q) :
    (d.each l fun d p => d.when (f p != 0) fun d => d.set (F.pciRxgCfgPool p) (f p)).get (F.pciRxgCfgPool q) = f q := by
  induction l generalizing d with
  | nil => exact hq.resolve_left (by simp)
  | cons p l ih =>
    rw [Dev.each_cons]
    have hp : ∀ k, (d.when (f p != 0) fun d => d.set (F.pciRxgCfgPool p) (f p)).get (F.pciRxgCfgPool k) = if k = p then f p else d.get (F.pciRxgCfgPool k) := by
      intro k
      by_cases h0 : f p = 0
      · rw [show (f p != 0) = false by simp [h0], Dev.when_false]
        split
        · next hk => rcases h p List.mem_cons_self with h | h <;> rw [hk, h, h0]
        · rfl
      · rw [show (f p != 0) = true by simp [h0], Dev.when_true]
        split
        · next hk =>
          rw [hk]
          exact Dev.get_set_lt _ _ (by simp [Fld.fits, F.pciRxgCfgPool]) (hf p)
        · next hk => exact Dev.get_set_ne _ _ (by simp only [F.pciRxgCfgPool, R.pciRxgCfg]; omega)
    refine ih _ (fun k hk => ?_) ?_
    · rw [hp]
      split
      · next hk => exact .inl (by rw [hk])
      · exact h k (List.mem_cons_of_mem _ hk)
    · rw [hp]
      split
      · next hk => exact .inr (by rw [hk])
      · next hk => exact hq.imp (fun h => (List.mem_cons.1 h).resolve_left hk) id

theorem ringReach_low {a : Nat} (h : a < 0x9000000) : ¬ ringReach a := by
  rintro (hb | hb)
  · have := (bufRegs_range hb).1
    omega
  · omega

theorem ringReach_cords {a : Nat} (h : ringReach a) : inCord 12 a = true ∨ inCord 9 a = true := by
  simp only [inCord, decide_eq_true_eq]
  rcases h with hb | hb
  · obtain ⟨hlo, hhi⟩ := bufRegs_range hb
    omega
  · omega

theorem ringFields_fits (tx : Bool) (r : Nat) : (ringEn tx r).fits ∧ (ringTail tx r).fits := by
  cases tx <;> simp [ringEn, ringTail, ringF, Fld.fits, F.pciRxgCfgEn, F.pciTxgCfgEn, F.pciRxgTailTail, F.pciTxgTailTail]

/-- A pool's field shares no bit with a ring's enable. -/
theorem pool_apart_en (q : Nat) (tx : Bool) (r : Nat) : (F.pciRxgCfgPool q).apart (ringEn tx r) := by
  by_cases h : (F.pciRxgCfgPool q).addr = (ringEn tx r).addr
  · right
    cases tx <;> simp [ringEn, ringF, F.pciRxgCfgEn, F.pciTxgCfgEn, F.pciRxgCfgPool]
  · exact .inl h

theorem zipIdx_map_range {α : Type} (f : Nat → α) (n : Nat) : ((List.range n).map f).zipIdx = (List.range n).map fun i => (f i, i) := by
  refine List.ext_getElem (by simp) fun i h1 h2 => ?_
  simp

theorem Dev.each_map {α β : Type} (f : Dev → β → Dev) (g : α → β) (l : List α) (d : Dev) : d.each (l.map g) f = d.each l fun d x => f d (g x) := by
  unfold Dev.each
  rw [List.foldl_map]

/-- A ring's base lies among the ring registers, at the start of a stride. -/
theorem ringBase_bounds (tx : Bool) {r : Nat} (hr : r < 2048) : 0xC100000 ≤ ringBase tx r ∧ ringBase tx r + 0x20 ≤ 0xC210000 ∧ ringBase tx r % 0x20 = 0 := by
  unfold ringBase
  cases tx <;> simp only [Bool.false_eq_true, if_true, if_false] <;> omega

/-- A field untouched while pools and then causes are written back. -/
theorem Dev.ringsBack_get (c : Dev) (f : Nat → Nat) (stat : List (Bool × Nat)) (cause : Nat) {g : Fld} (hg : g.fits) (hp : ∀ q, (F.pciRxgCfgPool q).apart g)
    (hs : ∀ x ∈ stat, g.addr ≠ (ringRstc x.1 x.2).addr) :
    ((c.each (List.range 2048) fun e p => e.when (f p != 0) fun e => e.set (F.pciRxgCfgPool p) (f p)).each stat fun e x => e.set (ringRstc x.1 x.2) cause).get g = c.get g := by
  refine Dev.each_keeps (P := fun e => e.get g = c.get g) _ _ (fun x y hy hx => (Dev.get_set_ne _ _ (hs y hy)).trans hx) _ ?_
  refine Dev.each_keeps (P := fun e => e.get g = c.get g) _ _ (fun x y _ hx => ?_) _ rfl
  cases (f y != 0)
  · exact hx
  · exact (Dev.get_set_apart _ _ _ _ hg (hp y)).trans hx

/-- The fields of a ring's CFG and TAIL in their reset values. -/
theorem ringFields_reset (tx : Bool) (r : Nat) :
    (ringEn tx r).of 0 = 0 ∧ (ringEn tx r).of 0xA000006#32 = 0 ∧ (ringTail tx r).of 0 = 0 ∧ (F.pciRxgCfgPool r).of 0 = 0 ∧ (F.pciRxgCfgPool r).of 0xA000006#32 = 0 := by
  cases tx <;> simp [ringEn, ringTail, ringF, Fld.of, F.pciRxgCfgEn, F.pciTxgCfgEn, F.pciRxgTailTail, F.pciTxgTailTail, F.pciRxgCfgPool]

/-- What the writing back of pools and causes leaves alone. -/
theorem Dev.ringsBack_moves (c : Dev) (f : Nat → Nat) {stat : List (Bool × Nat)} (hs : ∀ x ∈ stat, x.2 < 2048) (cause : Nat) :
    c.Moves [] ringReach ((c.each (List.range 2048) fun e p => e.when (f p != 0) fun e => e.set (F.pciRxgCfgPool p) (f p)).each stat fun e x => e.set (ringRstc x.1 x.2) cause) := by
  refine ((Dev.Moves.refl _ _ c).each _ _ fun y x hx => (Dev.Moves.refl _ _ y).when _ _ fun z => (Dev.Moves.refl _ _ z).set _ _ (.inr ?_)).each _ _ fun y x hx =>
    (Dev.Moves.refl _ _ y).set _ _ (.inr ?_)
  · have hr := hs x hx
    obtain ⟨hlo, hhi, -⟩ := ringBase_bounds x.1 hr
    rw [(ringFields_addr x.1 x.2).2.2.2.2.1]
    omega
  · have := List.mem_range.1 hx
    simp only [F.pciRxgCfgPool, R.pciRxgCfg]
    omega

/-- The rings' registers are at their reset values but for pools and causes, and the rings hold nothing (R32, R473). -/
theorem Dev.ringRegsReset_shows (d : Dev) (cause : Nat) :
    let e := d.ringRegsReset cause
    (∀ (tx : Bool) (r : Nat), r < 2048 → e.get (ringEn tx r) = 0 ∧ e.get (ringTail tx r) = 0) ∧ (∀ q < 2048, e.get (F.pciRxgCfgPool q) = d.get (F.pciRxgCfgPool q))
      ∧ e.pcie.rings = [] ∧ ∀ a, ¬ ringReach a → (∀ n ∈ [0xE0, 0xE1, 0xE3], a ∉ evtRegs n) → e.reg a = d.reg a := by
  unfold Dev.ringRegsReset
  dsimp only
  generalize hst : (((List.range 2048).filter fun r => d.get (F.pciRxgStatRstc r) == cause).map (fun r => (false, r))
    ++ ((List.range 2048).filter fun r => d.get (F.pciTxgStatRstc r) == cause).map fun r => (true, r)) = stat
  have hstat : ∀ x ∈ stat, x.2 < 2048 := by
    rw [← hst]
    intro x hx
    rcases List.mem_append.1 hx with h | h <;> obtain ⟨r, hr, rfl⟩ := List.mem_map.1 h <;> exact List.mem_range.1 (List.mem_filter.1 hr).1
  rw [zipIdx_map_range, Dev.each_map]
  have hgo : d.RingsGo (d.each d.enabledRings fun d r => d.ringEmpty r.1 r.2 []) := by
    refine Dev.each_keeps _ _ (fun x y hy hx => hx.trans (Dev.RingsGo.of_only (x.ringEmpty_shows y.1 y.2 []).2.2 fun a ha => ?_)) _ (Dev.RingsGo.refl d)
    rcases List.mem_append.1 ha with h | h
    · exact .inl h
    · have hlt := Dev.enabledRings_lt hy
      simp only [List.mem_singleton, ringBase] at h
      split at h <;> omega
  generalize (d.each d.enabledRings fun d r => d.ringEmpty r.1 r.2 []) = a at *
  have hin : ∀ x, 0xC100000 ≤ x → x < 0xC210000 → (a.dropRegs (R.pciRxgBaselo 0) (R.pciTxgBaselo 2048)).reg x = regReset x := fun x h1 h2 => by
    rw [Dev.reg_dropRegs, if_pos (by simp only [R.pciRxgBaselo, R.pciTxgBaselo]; omega)]
  have hout : ∀ x, ¬ ringReach x → (a.dropRegs (R.pciRxgBaselo 0) (R.pciTxgBaselo 2048)).reg x = a.reg x := fun x hx => by
    rw [Dev.reg_dropRegs, if_neg fun h => hx (.inr (by simp only [R.pciRxgBaselo, R.pciTxgBaselo] at h; omega))]
  generalize a.dropRegs (R.pciRxgBaselo 0) (R.pciTxgBaselo 2048) = b at *
  have hreg : ∀ x, (b.setPcie fun x => { x with rings := [] }).reg x = b.reg x := fun _ => rfl
  have hrings : (b.setPcie fun x => { x with rings := [] }).pcie.rings = [] := rfl
  generalize (b.setPcie fun x => { x with rings := [] }) = c at *
  have hback := fun {g : Fld} => Dev.ringsBack_get (g := g) c (fun q => d.get (F.pciRxgCfgPool q)) stat cause
  have hmove := c.ringsBack_moves (fun q => d.get (F.pciRxgCfgPool q)) hstat cause
  refine ⟨fun tx r hr => ?_, fun q hq => ?_, (congrArg Pcie.rings (hmove.parts .pcie (by decide))).trans hrings,
    fun x hx hn => (hmove.regs x hx).trans ((hreg x).trans ((hout x hx).trans (hgo.reach x hx hn)))⟩
  · obtain ⟨hlo, hhi, hmod⟩ := ringBase_bounds tx hr
    obtain ⟨hea, -, hta, -, -, -⟩ := ringFields_addr tx r
    obtain ⟨hef, htf⟩ := ringFields_fits tx r
    obtain ⟨hen, htl⟩ := regReset_ring tx hr
    have hne : ∀ x ∈ stat, ∀ o < 0x18, ringBase tx r + o ≠ (ringRstc x.1 x.2).addr := fun x hx o ho => by
      obtain ⟨-, -, hm⟩ := ringBase_bounds x.1 (hstat x hx)
      rw [(ringFields_addr x.1 x.2).2.2.2.2.1]
      omega
    refine ⟨(hback hef (fun q => pool_apart_en q tx r) fun x hx => by rw [hea]; exact hne x hx _ (by decide)).trans ?_,
      (hback htf (fun q => .inl (by simp only [F.pciRxgCfgPool, R.pciRxgCfg, hta]; omega)) fun x hx => by rw [hta]; exact hne x hx _ (by decide)).trans ?_⟩
    · have hval : c.reg (ringEn tx r).addr = regReset (ringBase tx r + 0x8) := by rw [hreg, hea, hin _ (by omega) (by omega)]
      show (ringEn tx r).of (c.reg (ringEn tx r).addr) = 0
      rw [hval]
      obtain ⟨h0, h6, -⟩ := ringFields_reset tx r
      rcases hen with h | h
      · rw [h, h0]
      · rw [h, h6]
    · have hval : c.reg (ringTail tx r).addr = regReset (ringBase tx r + 0x14) := by rw [hreg, hta, hin _ (by omega) (by omega)]
      show (ringTail tx r).of (c.reg (ringTail tx r).addr) = 0
      rw [hval, htl, (ringFields_reset tx r).2.2.1]
  · refine Dev.each_keeps (P := fun e => e.get (F.pciRxgCfgPool q) = d.get (F.pciRxgCfgPool q)) _ _ (fun x y hy hx => (Dev.get_set_ne _ _ ?_).trans hx) _
      (Dev.poolsBack_get (fun q => d.get (F.pciRxgCfgPool q)) (fun k => Dev.get_lt _ _) _ _ (fun k hk => .inr ?_) (.inl (List.mem_range.2 hq)))
    · obtain ⟨-, -, hm⟩ := ringBase_bounds y.1 (hstat y hy)
      rw [show (ringF y.1 F.pciRxgStatRstc F.pciTxgStatRstc y.2).addr = _ from (ringFields_addr y.1 y.2).2.2.2.2.1]
      simp only [F.pciRxgCfgPool, R.pciRxgCfg]
      omega
    · have hk' := List.mem_range.1 hk
      have hval : c.reg (F.pciRxgCfgPool k).addr = regReset (ringBase false k + 0x8) := by
        rw [hreg, show (F.pciRxgCfgPool k).addr = ringBase false k + 0x8 from (ringFields_addr false k).1]
        obtain ⟨hlo, hhi, -⟩ := ringBase_bounds false hk'
        exact hin _ (by omega) (by omega)
      show (F.pciRxgCfgPool k).of (c.reg (F.pciRxgCfgPool k).addr) = 0
      rw [hval]
      obtain ⟨-, -, -, h0, h6⟩ := ringFields_reset false k
      rcases (regReset_ring false hk').1 with h | h
      · rw [h, h0]
      · rw [h, h6]

/-! ### The link and PERST (R343, R346, R473) -/

theorem State.pcieLinkUp_shows {s : State} {speed width : Nat} (hs : s.dev.out = []) (hon : s.dev.cordOn 12 = true) (hp : s.dev.pcie.perst = false) (h1 : 1 ≤ speed) (h5 : speed ≤ 5)
    (hw : width = 1 ∨ width = 2 ∨ width = 4 ∨ width = 8) :
    ∃ t, exec (.pcieLinkUp speed width) s = .next t ∧ t.dev.get F.pciEpStatDlup = 1 ∧ t.dev.get F.pciEpStatSpeed = speed
      ∧ t.dev.get F.pciEpStatWidth = width ∧ (speed < 5 ∨ width < 8 → s.dev.Raised 0xF1 t.dev)
      ∧ s.dev.Only [R.pciEpStat] (if speed < 5 ∨ width < 8 then [0xF1] else []) t.dev := by
  simp only [exec, execPcieLinkUp]
  refine State.run_ends hs rfl fun t ht hout hfz => ?_
  have hcond : (!s.dev.cordOn 12 || s.dev.pcie.perst || decide (speed < 1) || decide (5 < speed) || !([1, 2, 4, 8].contains width)) = false := by
    rcases hw with rfl | rfl | rfl | rfl <;> simp [hon, hp] <;> omega
  rw [hcond, if_neg Bool.false_ne_true] at ht
  have hset : s.dev.Only [R.pciEpStat] [] (((s.dev.set F.pciEpStatSpeed speed).set F.pciEpStatWidth width).set F.pciEpStatDlup 1) :=
    (((Dev.Only.refl _ _ _).set _ _ (by decide)).set _ _ (by decide)).set _ _ (by decide)
  have hsp : (((s.dev.set F.pciEpStatSpeed speed).set F.pciEpStatWidth width).set F.pciEpStatDlup 1).get F.pciEpStatSpeed = speed := by
    simp -implicitDefEqProofs (disch := decide) only [Dev.get_set_off, Dev.get_set_on]
    exact Nat.mod_eq_of_lt (by show speed < 8; omega)
  have hwd : (((s.dev.set F.pciEpStatSpeed speed).set F.pciEpStatWidth width).set F.pciEpStatDlup 1).get F.pciEpStatWidth = width := by
    simp -implicitDefEqProofs (disch := decide) only [Dev.get_set_off, Dev.get_set_on]
    exact Nat.mod_eq_of_lt (by show width < 16; omega)
  have hdl : (((s.dev.set F.pciEpStatSpeed speed).set F.pciEpStatWidth width).set F.pciEpStatDlup 1).get F.pciEpStatDlup = 1 := by
    rw [Dev.get_set_on _ _ _ (by decide)]
    rfl
  generalize ((s.dev.set F.pciEpStatSpeed speed).set F.pciEpStatWidth width).set F.pciEpStatDlup 1 = a at *
  by_cases hlow : speed < 5 ∨ width < 8
  · rw [show (decide (speed < 5) || decide (width < 8)) = true by simpa using hlow, Dev.when_true] at ht
    have hget : ∀ f : Fld, 0x81000 ≤ f.addr → t.dev.get f = a.get f := fun f hf => (ht.get f).trans (Dev.get_raise _ _ _ (.inr hf))
    refine ⟨(hget _ (by decide)).trans hdl, (hget _ (by decide)).trans hsp, (hget _ (by decide)).trans hwd, fun _ => ?_, ?_⟩
    · exact ht.raised.2 (hset.raised_raise (n := 0xF1) _ (by simp) (by decide) (by decide))
    · rw [if_pos hlow]
      exact ht.only.2 ((hset.mono (by simp) (by simp)).raise _ _ (by simp))
  · rw [show (decide (speed < 5) || decide (width < 8)) = false by simpa using hlow, Dev.when_false] at ht
    refine ⟨(ht.get _).trans hdl, (ht.get _).trans hsp, (ht.get _).trans hwd, fun h => absurd h hlow, ?_⟩
    rw [if_neg hlow]
    exact ht.only.2 hset

theorem Dev.EndsAs.stopped {e t : Dev} (h : e.EndsAs t) {tx : Bool} {r cause : Nat} (k : e.Stopped tx r cause) : t.Stopped tx r cause := by
  obtain ⟨h1, h2, h3, h4, h5⟩ := k
  exact ⟨(h.get _).trans h1, (h.get _).trans h2, (h.get _).trans h3, (h.get _).trans h4, (h.same.ring _ _).trans h5⟩

theorem State.pciLinkDown_stops {s : State} (hs : s.dev.out = []) (hup : s.dev.get F.pciEpStatDlup = 1) :
    ∃ t, exec .pciLinkDown s = .next t ∧ t.dev.get F.pciEpStatDlup = 0 ∧ t.dev.get F.pciEpStatSpeed = 0
      ∧ t.dev.get F.pciEpStatWidth = 0 ∧ s.dev.Raised 0xF0 t.dev
      ∧ (∀ (tx : Bool) (r : Nat), r < 2048 → s.dev.get (ringEn tx r) = 1 →
          t.dev.get (ringEn tx r) = 0 ∧ t.dev.get (ringHead tx r) = 0 ∧ t.dev.get (ringTail tx r) = 0
            ∧ t.dev.get (ringF tx F.pciRxgStatRstc F.pciTxgStatRstc r) = 3 ∧ t.dev.ring tx r = {})
      ∧ s.dev.RegsKept (fun a => inCord 12 a || inCord 9 a || isEvt a) t.dev := by
  obtain ⟨hd, hsp, hw, hraise, hstop, -, hregs⟩ := Dev.linkLost_shows hup
  simp only [exec, execPciLinkDown]
  refine State.run_ends hs rfl fun t ht hout hfz => ?_
  refine ⟨(ht.get _).trans hd, (ht.get _).trans hsp, (ht.get _).trans hw, ht.raised.2 hraise, fun tx r hr he => ?_, fun a ha => (ht.reg a).trans (hregs a ?_ ?_ ?_)⟩
  · obtain ⟨h1, h2, h3, h4, h5⟩ := ht.stopped (hstop tx r hr he)
    exact ⟨h1, h2, h3, h4, h5⟩
  · intro h
    rcases ringReach_cords h with h | h <;> simp [h] at ha
  · rintro rfl
    simp [show inCord 12 R.pciEpStat = true by decide] at ha
  · intro n hn h
    have := isEvt_of_evtRegs (by simp at hn; omega) h
    simp [this] at ha

/-- The endpoint with its link lost and its rings reset (R473). -/
theorem Dev.perst_shows (d : Dev) :
    let e := d.linkLost.ringRegsReset 3
    e.get F.pciEpStatDlup = 0 ∧ (d.get F.pciEpStatDlup = 1 → d.Raised 0xF0 e) ∧ e.pcie.rings = [] ∧ e.msixTable = d.msixTable
      ∧ (∀ (tx : Bool) (r : Nat), r < 2048 → e.get (ringEn tx r) = 0 ∧ e.get (ringTail tx r) = 0)
      ∧ ∀ r < 2048, e.get (F.pciRxgCfgPool r) = d.get (F.pciRxgCfgPool r) := by
  obtain ⟨hrings, hpool, hnil, hregs⟩ := d.linkLost.ringRegsReset_shows 3
  have hep : (d.linkLost.ringRegsReset 3).get F.pciEpStatDlup = d.linkLost.get F.pciEpStatDlup := congrArg F.pciEpStatDlup.of (hregs _ (by
    rintro (h | h)
    · exact absurd (bufRegs_range h).2 (by decide)
    · exact absurd h.1 (by decide)) (by decide))
  have hctl : (d.linkLost.ringRegsReset 3).reg (R.hrtEvtSrcCtl 0xF0) = d.linkLost.reg (R.hrtEvtSrcCtl 0xF0) := hregs _ (ringReach_low (by decide)) (by decide)
  have hmsix : (d.linkLost.ringRegsReset 3).msixTable = d.msixTable :=
    ((d.linkLost.ringRegsReset_goes 3).parts .msixTable (by decide)).trans (d.linkLost_goes.parts .msixTable (by decide))
  by_cases hup : d.get F.pciEpStatDlup = 1
  · obtain ⟨hd, -, -, hraise, -, hpl, -⟩ := Dev.linkLost_shows hup
    exact ⟨hep.trans hd, fun _ => hraise.of_ctl rfl hctl, hnil, hmsix, hrings, fun r hr => (hpool r hr).trans (hpl r)⟩
  · have hd : d.get F.pciEpStatDlup = 0 := by
      have : d.get F.pciEpStatDlup < 2 := d.get_lt _
      omega
    have hl : d.linkLost = d := by
      unfold Dev.linkLost
      rw [show d.flag F.pciEpStatDlup = false by simp [Dev.flag, hd], Dev.when_false]
    exact ⟨hep.trans (by rw [hl, hd]), fun h => absurd h hup, hnil, hmsix, hrings, fun r hr => (hpool r hr).trans (by rw [hl])⟩

theorem State.perst_low {s : State} (hs : s.dev.out = []) :
    ∃ t, exec (.pciePerst true) s = .next t ∧ t.dev.pcie.perst = true ∧ t.dev.pcie.memEnable = false
      ∧ t.dev.pcie.busMaster = false ∧ t.dev.pcie.msixEnable = false ∧ t.dev.pcie.rings = [] ∧ t.dev.pcie.caps = [] ∧ t.dev.get F.pciEpStatDlup = 0
      ∧ (s.dev.get F.pciEpStatDlup = 1 → s.dev.Raised 0xF0 t.dev) ∧ t.dev.msixTable = s.dev.msixTable
      ∧ (∀ (tx : Bool) (r : Nat), r < 2048 → t.dev.get (ringEn tx r) = 0 ∧ t.dev.get (ringTail tx r) = 0)
      ∧ (∀ r < 2048, t.dev.get (F.pciRxgCfgPool r) = s.dev.get (F.pciRxgCfgPool r)) := by
  obtain ⟨hd, hraise, hnil, hmsix, hrings, hpool⟩ := s.dev.perst_shows
  simp only [exec, execPciePerst]
  refine State.run_ends hs rfl fun t ht hout hfz => ?_
  rw [if_pos trivial] at ht
  generalize s.dev.linkLost.ringRegsReset 3 = a at *
  have hp := ht.same.pcie
  have hregs : ∀ x, t.dev.reg x = a.reg x := fun x => ht.reg x
  have hget : ∀ f : Fld, t.dev.get f = a.get f := fun f => congrArg f.of (hregs _)
  refine ⟨by rw [hp]; rfl, by rw [hp]; rfl, by rw [hp]; rfl, by rw [hp]; rfl, ?_, by rw [hp]; rfl, (hget _).trans hd,
    fun h => (hraise h).of_ctl rfl (hregs _), ht.same.msixTable.trans hmsix, fun tx r hr => ?_, fun r hr => (hget _).trans (hpool r hr)⟩
  · rw [hp]
    exact hnil
  · rw [hget, hget]
    exact hrings tx r hr

/-! ### Configuration requests and the MSI-X table (R327, R328, R427) -/

/-- A configuration request that is answered: the answer, and the device of its work. -/
theorem State.configRequest_answers {s : State} {q : CfgReq} {x : Dev} {v : Word} {P : State → Prop} (hs : s.dev.out = []) (hon : s.dev.cordOn 12 = true) (hp : s.dev.pcie.perst = false)
    (hx : (match q with
    | .readId => s.dev.emit (.configDone 0x96241FD7)
    | .readClass => s.dev.emit (.configDone 0x028000B1)
    | .readBar i => s.dev.emit (.configDone (s.dev.barValue i))
    | .writeBar i v => (s.dev.setPcie fun x => { x with bars := Tbl.set 0 x.bars i v }).emit (.configDone 0)
    | .command m b => (s.dev.setPcie fun x => { x with memEnable := m, busMaster := b }).emit (.configDone 0)
    | .msix e f => (s.dev.setPcie fun x => { x with msixEnable := e, msixFuncMask := f }).emit (.configDone 0)
    | .readReg r => s.dev.emit (.configDone (s.dev.cfgReg r))
    | .writeReg r v => (s.dev.cfgRegWrite r v).emit (.configDone 0)) = x.emit (.configDone v)) (hxo : x.out = [])
    (h : ∀ t : State, (x.emit (.configDone v)).EndsAs t.dev → t.outputs = .configDone v :: s.outputs → P t) :
    ∃ t, exec (.configurationRequest q) s = .next t ∧ P t := by
  simp only [exec, execConfigurationRequest]
  refine State.run_ends hs rfl fun t ht hout hfz => ?_
  rw [if_neg (by simp [hon, hp])] at ht hout
  have heq := (show _ = x.emit (.configDone v) from hx)
  refine h t ?_ ?_
  · rw [← heq]
    exact ht
  · refine hout.trans ?_
    refine (congrArg (fun d : Dev => d.out ++ s.outputs) heq).trans ?_
    simp [hxo]

theorem State.configReads {s : State} {i : Fin 6} (hs : s.dev.out = []) (hon : s.dev.cordOn 12 = true) (hp : s.dev.pcie.perst = false) :
    (∃ t, exec (.configurationRequest .readId) s = .next t ∧ t.outputs = .configDone 0x96241FD7#32 :: s.outputs)
      ∧ (∃ t, exec (.configurationRequest .readClass) s = .next t ∧ t.outputs = .configDone 0x028000B1#32 :: s.outputs)
      ∧ (∃ t, exec (.configurationRequest (.readBar i)) s = .next t ∧ t.outputs = .configDone (s.dev.barValue i) :: s.outputs
          ∧ (4 ≤ i.val → s.dev.barValue i = 0)) :=
  ⟨State.configRequest_answers (x := s.dev) hs hon hp rfl hs fun _ _ h => h, State.configRequest_answers (x := s.dev) hs hon hp rfl hs fun _ _ h => h,
    State.configRequest_answers (x := s.dev) hs hon hp rfl hs fun _ _ h => ⟨h, fun hi => by
      unfold Dev.barValue
      rw [if_neg (by omega), if_neg (by omega), if_neg (by omega)]⟩⟩

theorem State.configBar {s : State} {i : Fin 6} {v : Word} (hs : s.dev.out = []) (hon : s.dev.cordOn 12 = true) (hp : s.dev.pcie.perst = false) :
    ∃ t, exec (.configurationRequest (.writeBar i v)) s = .next t
      ∧ t.dev.barValue i = (if i.val = 0 then (v &&& 0xF0000000#32) ||| 4#32 else if i.val = 2 then (v &&& 0xFFFF0000#32) ||| 4#32
          else if i.val = 1 ∨ i.val = 3 then v else 0) ∧ s.dev.Only [] [] t.dev := by
  refine State.configRequest_answers (x := s.dev.setPcie fun x => { x with bars := Tbl.set 0 x.bars i v }) hs hon hp rfl hs fun t ht _ => ⟨?_, ?_⟩
  · have hv : Tbl.get 0 t.dev.pcie.bars i = v := by
      rw [ht.same.pcie]
      exact Tbl.get_set_self 0 _ _ _
    simp only [Dev.barValue, hv]
  · exact ht.only.2 (Dev.Only.of_regs rfl _ _)

theorem State.configEnables {s : State} {a b : Bool} (hs : s.dev.out = []) (hon : s.dev.cordOn 12 = true) (hp : s.dev.pcie.perst = false) :
    (∃ t, exec (.configurationRequest (.command a b)) s = .next t ∧ t.dev.pcie = { s.dev.pcie with memEnable := a, busMaster := b })
      ∧ (∃ t, exec (.configurationRequest (.msix a b)) s = .next t
          ∧ t.dev.pcie = { s.dev.pcie with msixEnable := a, msixFuncMask := b }) :=
  ⟨State.configRequest_answers (x := s.dev.setPcie fun x => { x with memEnable := a, busMaster := b }) hs hon hp rfl hs fun _ ht _ => ht.same.pcie,
    State.configRequest_answers (x := s.dev.setPcie fun x => { x with msixEnable := a, msixFuncMask := b }) hs hon hp rfl hs fun _ ht _ => ht.same.pcie⟩

theorem State.configReg {s : State} {q : CfgReg} (hs : s.dev.out = []) (hon : s.dev.cordOn 12 = true) (hp : s.dev.pcie.perst = false) :
    ∃ t, exec (.configurationRequest (.readReg q)) s = .next t ∧ t.outputs = .configDone (s.dev.cfgReg q) :: s.outputs ∧ t.dev.pcie = s.dev.pcie :=
  State.configRequest_answers (x := s.dev) hs hon hp rfl hs fun _ ht h => ⟨h, ht.same.pcie⟩

/-- A write of the device control register, and what it leaves of the other capability registers (R327). -/
theorem State.configDevCtl {s : State} {v : Word} (hs : s.dev.out = []) (hon : s.dev.cordOn 12 = true) (hp : s.dev.pcie.perst = false) :
    ∃ t, exec (.configurationRequest (.writeReg .devCtl v)) s = .next t ∧ t.dev.cfgReg .devCtl = v &&& 0x71EF#32
      ∧ (∀ q, q ≠ .devCtl → t.dev.cfgReg q = s.dev.cfgReg q) ∧ s.dev.Only [] [] t.dev := by
  refine State.configRequest_answers (x := s.dev.cfgRegWrite .devCtl v) hs hon hp rfl hs fun t ht _ => ?_
  have hcaps : t.dev.pcie.caps = Tbl.set 0x2000 s.dev.pcie.caps (cfgKey .devCtl) (v &&& 0x71EF#32) := by
    rw [ht.same.pcie]
    rfl
  refine ⟨?_, fun q hq => ?_, ht.only.2 (Dev.Only.of_regs rfl _ _)⟩
  · simp only [Dev.cfgReg, hcaps]
    exact Tbl.get_set_self _ _ _ _
  · cases q with
    | devCtl => exact absurd rfl hq
    | linkCtl | devCtl2 | l1Ctl | aerStatus | aerMask =>
      simp only [Dev.cfgReg, hcaps]
      exact Tbl.get_set_ne _ _ _ _ (by decide)
    | devCap | linkCap | devCap2 | l1Cap | intPin => rfl

/-- A vector with one of its words written. -/
def MsixVec.written (m : MsixVec) (o : Nat) (v : Word) : MsixVec :=
  if o / 4 % 4 = 0 then { m with addrLo := v } else if o / 4 % 4 = 1 then { m with addrHi := v }
  else if o / 4 % 4 = 2 then { m with data := v } else { m with masked := v.getLsbD 0 }

theorem State.msixWrite {s : State} {ofs : BitVec 16} {v : Word} {m : MsixVec} (hs : s.dev.out = []) (hlo : ofs.toNat < 0x2000) (h4 : ofs.toNat % 4 = 0) (hon : s.dev.cordOn 12 = true)
    (hm : m = Tbl.get {} s.dev.msixTable (ofs.toNat / 16)) :
    ∃ t, exec (.msixTableWrite ofs (some v)) s = .next t
      ∧ Tbl.get {} t.dev.msixTable (ofs.toNat / 16) = (if ofs.toNat % 16 = 0 then { m with addrLo := v }
          else if ofs.toNat % 16 = 4 then { m with addrHi := v } else if ofs.toNat % 16 = 8 then { m with data := v }
          else { m with masked := v.getLsbD 0 })
      ∧ (∀ k, k ≠ ofs.toNat / 16 → Tbl.get {} t.dev.msixTable k = Tbl.get {} s.dev.msixTable k) ∧ s.dev.Only [] [] t.dev := by
  have ho : ofs.toNat / 4 * 4 = ofs.toNat := by omega
  simp only [exec, execMsixTableWrite, ho]
  refine State.run_ends hs rfl fun t ht hout hfz => ?_
  rw [if_neg (by simp [hon]), if_neg (by omega)] at ht
  have htab : t.dev.msixTable = Tbl.modify {} s.dev.msixTable (ofs.toNat / 16) fun m => m.written ofs.toNat v := ht.same.msixTable
  refine ⟨?_, fun k hk => ?_, ht.only.2 (Dev.Only.of_regs rfl _ _)⟩
  · rw [htab, Tbl.get_modify_self, ← hm, MsixVec.written]
    have h0 : ofs.toNat / 4 % 4 = 0 ↔ ofs.toNat % 16 = 0 := by omega
    have h1 : ofs.toNat / 4 % 4 = 1 ↔ ofs.toNat % 16 = 4 := by omega
    have h2 : ofs.toNat / 4 % 4 = 2 ↔ ofs.toNat % 16 = 8 := by omega
    simp only [h0, h1, h2]
  · rw [htab, Tbl.get_modify_ne _ _ _ _ hk]

theorem State.msixWrite_outside {s : State} {ofs : BitVec 16} {v : Word} (hs : s.dev.out = []) (hhi : 0x2000 ≤ ofs.toNat) :
    ∃ t, exec (.msixTableWrite ofs (some v)) s = .next t ∧ t.dev.msixTable = s.dev.msixTable ∧ s.dev.Only [] [] t.dev := by
  have ho : 0x2000 ≤ ofs.toNat / 4 * 4 := by omega
  simp only [exec, execMsixTableWrite]
  refine State.run_ends hs rfl fun t ht hout hfz => ?_
  rw [if_pos ho, ite_self] at ht
  exact ⟨ht.same.msixTable, ht.only.2 (Dev.Only.refl _ _ _)⟩

/-- The number with a set of bits put in one after another. -/
theorem testBit_foldl_setBit (p : Nat → Bool) (l : List Nat) (n i : Nat) :
    (l.foldl (fun n i => if p i then setBit n i else n) n).testBit i = (n.testBit i || (decide (i ∈ l) && p i)) := by
  induction l generalizing n with
  | nil => simp
  | cons x l ih =>
    rw [List.foldl_cons, ih]
    by_cases hx : x = i
    · subst hx
      cases hp : p x <;> simp [setBit]
    · have hne : (n ||| 2 ^ x).testBit i = n.testBit i := by simp [Nat.testBit_or, hx]
      cases hp : p x <;> simp [setBit, hne, Ne.symm hx]

/-- A word of BAR2, as its offset says (R328). -/
theorem Dev.bar2_eq {d : Dev} {o : Nat} {x : Word} {m : MsixVec} (hm : m = Tbl.get {} d.msixTable (o / 16))
    (hx : o < 0x2000 ∧ x = [m.addrLo, m.addrHi, m.data, if m.masked then 1 else 0].getD (o / 4 % 4) 0
      ∨ 0x2000 ≤ o ∧ o < 0x2040 ∧ (∀ i < 32, x.getLsbD i = d.msixHeld.contains (8 * (o - 0x2000) + i))
      ∨ 0x2040 ≤ o ∧ x = 0) : d.bar2 o = x := by
  unfold Dev.bar2
  dsimp only
  rw [← hm]
  rcases hx with ⟨hlo, rfl⟩ | ⟨hlo, hhi, hx⟩ | ⟨hlo, rfl⟩
  · rw [if_pos hlo]
    have hcase : o / 4 % 4 = 0 ∨ o / 4 % 4 = 1 ∨ o / 4 % 4 = 2 ∨ o / 4 % 4 = 3 := by omega
    rcases hcase with h | h | h | h <;> rw [h]
    · rfl
    · rfl
    · rfl
    · cases m.masked <;> rfl
  · rw [if_neg (by omega), if_pos hhi]
    refine BitVec.eq_of_getLsbD_eq fun i hi => ?_
    rw [hx i hi, BitVec.getLsbD_ofNat, testBit_foldl_setBit]
    simp [hi]
  · rw [if_neg (by omega), if_neg (by omega)]

theorem State.msixRead {s : State} {ofs : BitVec 16} {x : Word} {m : MsixVec} (hs : s.dev.out = []) (h4 : ofs.toNat % 4 = 0) (hon : s.dev.cordOn 12 = true)
    (hm : m = Tbl.get {} s.dev.msixTable (ofs.toNat / 16))
    (hx : ofs.toNat < 0x2000 ∧ x = [m.addrLo, m.addrHi, m.data, if m.masked then 1 else 0].getD (ofs.toNat / 4 % 4) 0
      ∨ 0x2000 ≤ ofs.toNat ∧ ofs.toNat < 0x2040 ∧ (∀ i < 32, x.getLsbD i = s.dev.msixHeld.contains (8 * (ofs.toNat - 0x2000) + i))
      ∨ 0x2040 ≤ ofs.toNat ∧ x = 0) :
    ∃ t, exec (.msixTableWrite ofs none) s = .next t ∧ t.outputs = .bar2Read ofs.toNat x :: s.outputs ∧ s.dev.Only [] [] t.dev := by
  have ho : ofs.toNat / 4 * 4 = ofs.toNat := by omega
  simp only [exec, execMsixTableWrite, ho]
  refine State.run_ends hs rfl fun t ht hout hfz => ?_
  rw [if_neg (by simp [hon])] at ht hout
  rw [Dev.bar2_eq hm hx] at ht hout
  exact ⟨by rw [hout, Dev.emit_out, hs]; rfl, ht.only.2 ((Dev.Only.refl _ _ _).emit _)⟩

theorem State.msixHeldSend_sends {s : State} {v : Fin 512} {m : MsixVec} (hs : s.dev.out = []) (hheld : v.val ∈ s.dev.msixHeld) (hready : s.dev.msixReady v = true)
    (hm : m = Tbl.get {} s.dev.msixTable v) :
    ∃ t, exec (.msixHeldSend v) s = .next t ∧ t.outputs = .msix v m.addrHi m.addrLo m.data :: s.outputs
      ∧ v.val ∉ t.dev.msixHeld ∧ (∀ u ∈ s.dev.msixHeld, u ≠ v.val → u ∈ t.dev.msixHeld) ∧ s.dev.Only [] [] t.dev := by
  simp only [exec, execMsixHeldSend]
  refine State.run_ends hs rfl fun t ht hout hfz => ?_
  rw [show (s.dev.msixHeld.contains v.val && s.dev.msixReady v) = true by simp [hheld, hready], Dev.when_true] at ht hout
  have hh : t.dev.msixHeld = s.dev.msixHeld.filter (· != v.val) := ht.held
  refine ⟨?_, by simp [hh], fun u hu hne => by simp [hh, hu, hne], ht.only.2 (Dev.Only.of_regs rfl _ _)⟩
  rw [hout, Dev.msixEmit, Dev.emit_out, hm]
  simp [hs]

/-- Settles O37, clause by clause: the link, PERST, configuration requests, the MSI-X table and a held message. -/
theorem linkAndEndpointFollow : Obligations.LinkAndEndpointFollow := by
  unfold Obligations.LinkAndEndpointFollow
  refine ⟨?_, ?_, ?_, ?_, ?_, ?_, ?_, ?_, ?_, ?_, ?_, ?_, ?_⟩
  · intro speed width
    refine State.of_sent ?_ fun s h => h
    exact fun s hs hon hp h1 h5 hw => State.pcieLinkUp_shows hs hon hp h1 h5 hw
  · refine State.of_sent ?_ fun s h => h
    exact fun s hs hup => State.pciLinkDown_stops hs hup
  · refine State.of_sent ?_ fun s h => h
    exact fun s hs => State.perst_low hs
  · refine State.of_sent ?_ fun s h => h
    intro s hs
    simp only [exec, execPciePerst]
    refine State.run_ends hs rfl fun t ht hout hfz => ?_
    rw [if_neg (by simp)] at ht
    exact ⟨ht.same.pcie, ht.only.2 (Dev.Only.of_regs rfl _ _)⟩
  · intro i
    refine State.of_sent ?_ fun s h => h
    exact fun s hs hon hp => State.configReads hs hon hp
  · intro i v
    refine State.of_sent ?_ fun s h => h
    exact fun s hs hon hp => State.configBar hs hon hp
  · intro a b
    refine State.of_sent ?_ fun s h => h
    exact fun s hs hon hp => State.configEnables hs hon hp
  · intro ofs v m
    refine State.of_sent ?_ fun s h => h
    exact fun s hs hlo h4 hon hm => State.msixWrite hs hlo h4 hon hm
  · intro ofs v
    refine State.of_sent ?_ fun s h => h
    exact fun s hs hhi => State.msixWrite_outside hs hhi
  · intro ofs x m
    refine State.of_sent ?_ fun s h => h
    exact fun s hs h4 hon hm hx => State.msixRead hs h4 hon hm hx
  · intro q
    refine State.of_sent ?_ fun s h => h
    exact fun s hs hon hp => State.configReg hs hon hp
  · intro v
    refine State.of_sent ?_ fun s h => h
    exact fun s hs hon hp => State.configDevCtl hs hon hp
  · intro v m
    refine State.of_sent ?_ fun s h => h
    exact fun s hs hheld hready hm => State.msixHeldSend_sends hs hheld hready hm

end Sys2Proof.Machine
end

section
/-!
PROOFS. The injectors and the units at their points (O53).
-/

namespace Sys2Proof.Machine

set_option Elab.async false

/-! ### Injectors and their registers (R431, R432, R436) -/

/-- The registers of two injectors lie apart. -/
theorem fiBase_apart {i j : Nat} (hi : i < 164) (hj : j < 164) (h : i ≠ j) : fiBase i + 0x1C ≤ fiBase j ∨ fiBase j + 0x1C ≤ fiBase i := by
  simp only [fiBase, R.hsFiCtl, R.lfFiCtl, R.pktFiCtl, hsBase]
  split <;> split <;> (try split) <;> (try split) <;> omega

theorem fiF_addr (i off lsb width : Nat) : (fiF i off lsb width).addr = fiBase i + off := rfl

/-- The fields of an injector's CTL register. -/
def fiCtlFields : List FieldRow :=
  [⟨0, 1, .rw, .any⟩, ⟨1, 1, .rw, .any⟩, ⟨2, 2, .rw, .nat 0 2⟩, ⟨4, 2, .rw, .nat 0 2⟩, ⟨6, 1, .rw, .any⟩, ⟨8, 4, .rw, .nat 1 15⟩, ⟨16, 8, .rw, .nat 1 255⟩, ⟨24, 8, .rw, .any⟩]

theorem fiCtlFields_sound : FieldRow.sound fiCtlFields := by simp [FieldRow.sound, FieldRow.clear, fiCtlFields]

theorem decodeAddr_fiBase (i : Fin 164) :
    ∃ r, decodeAddr (fiBase i) = some r ∧ (r.row.name = .hsFiCtl ∨ r.row.name = .lfFiCtl ∨ r.row.name = .pktFiCtl) ∧ r.injector = i ∧ r.row.fields = fiCtlFields := by
  have h : ∃ n ∈ [RegName.hsFiCtl, .lfFiCtl, .pktFiCtl], (decodeAddr (fiBase i)).map (fun r => (r.row.name, r.injector, r.row.fields)) = some (n, i.val, fiCtlFields) := by
    revert i
    decide +kernel
  obtain ⟨n, hn, h⟩ := h
  obtain ⟨r, hr, he⟩ := Option.map_eq_some_iff.1 h
  simp only [Prod.mk.injEq] at he
  obtain ⟨h1, h2, h3⟩ := he
  refine ⟨r, hr, ?_, h2, h3⟩
  rw [h1]
  simpa using hn

theorem emberOfs_fiBase (i : Fin 164) : emberOfs (fiBase i) = none := by
  revert i
  decide +kernel

theorem fiBase_lt {i : Nat} (hi : i < 164) : fiBase i < 0xC000000 := by
  simp only [fiBase, R.hsFiCtl, R.lfFiCtl, R.pktFiCtl, hsBase]
  split
  · omega
  · split <;> omega

/-- A host's write of EN that is taken: stored, and acted upon (R432, R436). -/
theorem State.fiCtl_takes {s : State} {i : Fin 164} {x : Nat} {o : Host.Outcome State Fault Refusal} {P : State → Prop} (hs : s.dev.out = [])
    (ho : o = s.hostField (fiF i 0 0 1) x []) (ht : s.dev.Takes (fiBase i) (s.dev.withField (fiF i 0 0 1) x)) (hx : x < 2)
    (h : ∀ (e : Dev) (t : State), s.dev.Moves [.waiting] (· = fiBase i) e → e.get (fiF i 0 0 1) = x → e.out = [] →
      (((e.fiCtlGo s.fuses i (s.dev.reg (fiBase i))).emit (.writeDone (fiBase i) 0)).setWaiting []).EndsAs t.dev →
      t.outputs = .writeDone (fiBase i) 0 :: (e.fiCtlGo s.fuses i (s.dev.reg (fiBase i))).out ++ s.outputs → P t) : ∃ t, o = .next t ∧ P t := by
  obtain ⟨r, hr, hn, hinj, hfields⟩ := decodeAddr_fiBase i
  refine State.plainWrite_takes (a := fiBase i) (u := fun d => d.withField (fiF i 0 0 1) x)
    (g := fun d => (d.setReg (fiBase i) (r.row.merge (d.reg (fiBase i)) (s.dev.withField (fiF i 0 0 1) x))).fiCtlGo s.fuses i (d.reg (fiBase i)))
    hs ho rfl ht (emberOfs_fiBase i) hr (by rcases hn with hn | hn | hn <;> simp [hn, RegName.plainWrite]) (Dev.ringsUp_of_lt ?_)
    (fun d => by rcases hn with hn | hn | hn <;> simp only [Dev.writeGo, hn, hinj]) fun l t hends hout => ?_
  · exact (fiBase_lt i.isLt).trans_le (by decide)
  · refine h _ t ?_ ?_ ?_ hends hout
    · exact ((Dev.Moves.refl _ _ s.dev).setWaiting l).setReg _ _ rfl
    · refine (Dev.get_setReg_self _ (fiF i 0 0 1) _ rfl).trans ?_
      rw [RegRow.of_merge_rw hfields fiCtlFields_sound (f := ⟨0, 1, .rw, .any⟩) (by simp [fiCtlFields]) (.inl rfl) rfl rfl]
      exact (Fld.of_put _ _ _ (by simp [fiF])).trans (Nat.mod_eq_of_lt hx)
    · exact hs

/-- An injector's EN cleared, and its arming with it (R436). -/
theorem Dev.fiOff_shows (d : Dev) (i : Nat) :
    let e := (d.set (fiF i 0 0 1) 0).fiOff i
    e.get (fiF i 0 0 1) = 0 ∧ e.get (fiF i 0x14 0 1) = 0
      ∧ (d.get (fiF i 0x14 0 1) = 1 → e.get F.hrtFiGlobalArmcnt = d.get F.hrtFiGlobalArmcnt - 1)
      ∧ d.Moves [] (shown [fiBase i, fiBase i + 0x14, R.hrtFiGlobal] []) e := by
  have hlow := fiBase_ge i
  have hset : d.Moves [] (shown [fiBase i, fiBase i + 0x14, R.hrtFiGlobal] []) (d.set (fiF i 0 0 1) 0) := (Dev.Moves.refl _ _ d).set _ _ (.inl (by simp [fiF_addr]))
  have hen : (d.set (fiF i 0 0 1) 0).get (fiF i 0 0 1) = 0 := Dev.get_set_lt _ _ (by simp [Fld.fits, fiF]) (by simp [fiF])
  have harm : (d.set (fiF i 0 0 1) 0).get (fiF i 0x14 0 1) = d.get (fiF i 0x14 0 1) := Dev.get_set_ne _ _ (by simp [fiF_addr])
  have hcnt : (d.set (fiF i 0 0 1) 0).get F.hrtFiGlobalArmcnt = d.get F.hrtFiGlobalArmcnt :=
    Dev.get_set_ne _ _ (by rw [fiF_addr]; simp only [F.hrtFiGlobalArmcnt, R.hrtFiGlobal]; omega)
  unfold Dev.fiOff
  generalize d.set (fiF i 0 0 1) 0 = a at *
  cases hf : a.flag (fiF i 0x14 0 1) with
  | false =>
    rw [Dev.when_false]
    have h0 : a.get (fiF i 0x14 0 1) = 0 := by simpa [Dev.flag] using hf
    exact ⟨hen, h0, fun h => absurd (harm.symm.trans h0) (by omega), hset⟩
  | true =>
    rw [Dev.when_true]
    have hlt : a.get F.hrtFiGlobalArmcnt < 256 := a.get_lt _
    refine ⟨?_, ?_, fun _ => ?_, ((hset.set _ _ (.inl (by simp [fiF_addr]))).set _ _ (.inl (by simp [fiF_addr]))).set _ _ (.inl (by simp [F.hrtFiGlobalArmcnt]))⟩
    · rw [Dev.get_set_ne _ _ (by rw [fiF_addr]; simp only [F.hrtFiGlobalArmcnt, R.hrtFiGlobal]; omega)]
      exact Dev.get_set_zero _ _ (Dev.get_set_zero _ _ hen)
    · rw [Dev.get_set_ne _ _ (by rw [fiF_addr]; simp only [F.hrtFiGlobalArmcnt, R.hrtFiGlobal]; omega)]
      exact Dev.get_set_lt _ _ (by simp [Fld.fits, fiF]) (by simp [fiF])
    · rw [Dev.get_set_lt _ _ (by simp [Fld.fits, F.hrtFiGlobalArmcnt]) (by show _ < 256; omega), hcnt]

theorem Dev.inj_congr {d e : Dev} (h : e.inj_ = d.inj_) (i : Nat) : e.inj i = d.inj i := by rw [Dev.inj, h, Dev.inj]

theorem Dev.inj_setInj_ne (d : Dev) {i j : Nat} (f : Inj → Inj) (h : j ≠ i) : (d.setInj i f).inj j = d.inj j := by
  unfold Dev.inj Dev.setInj
  exact Tbl.get_modify_ne _ _ _ f h

theorem Dev.fiRelease_none {d : Dev} {i : Nat} (h : (d.inj i).held = none) (fz : Fuses) : d.fiRelease fz i = d := by
  unfold Dev.fiRelease
  dsimp only
  rw [h]

/-- An injector that holds nothing, disarmed. -/
theorem Dev.fiDisarm_idle {d : Dev} {i : Nat} (h : (d.inj i).held = none) (fz : Fuses) : d.fiDisarm fz i = (d.set (fiF i 0 0 1) 0).fiOff i := by
  obtain ⟨-, -, -, hm⟩ := d.fiOff_shows i
  exact Dev.fiRelease_none (by rw [Dev.inj_congr (hm.parts .inj (by decide))]; exact h) fz

/-- A unit held on its way into PKT goes on (R433, R434). -/
theorem Dev.fiRelease_link {d : Dev} {i : Nat} {u : FiUnit} (hi : 160 ≤ i) (hok : d.trafficOk 8 = true) (hdir : (d.inj i).dir = 0) (hh : (d.inj i).held = some u) (fz : Fuses) :
    let e := d.fiRelease fz i
    (e.inj i).held = none ∧ (∀ j, j ≠ i → e.inj j = d.inj j) ∧ e.get (fiF i 0x14 1 1) = 0 ∧ e.get (fiF i 0x14 0 1) = d.get (fiF i 0x14 0 1)
      ∧ Tbl.get [] e.pkt.links (i - 160) = Tbl.get [] d.pkt.links (i - 160) ++ [u.pkt]
      ∧ d.Moves [.inj, .pkt] (shown [fiBase i + 0x14] []) e := by
  have hb : ∀ u : FiUnit, u.behind i (d.inj i).dir (d.inj i).place = u := fun u => by
    unfold FiUnit.behind
    rw [if_neg (by omega)]
  have heq : d.fiRelease fz i = (((d.setInj i fun j => { j with held := none, after := 0 }).set (fiF i 0x14 1 1) 0)).linkIn (i - 160) u.pkt := by
    unfold Dev.fiRelease
    dsimp only
    rw [hh]
    dsimp only
    rw [hb, ite_self, hdir, Dev.fiNext, if_neg (by omega), if_neg (by omega), if_pos rfl]
  dsimp only
  rw [heq]
  have hinj : ((d.setInj i fun j => { j with held := none, after := 0 }).inj i).held = none := by rw [Dev.inj_setInj_self]
  have hm : d.Moves [.inj, .pkt] (shown [fiBase i + 0x14] []) (d.setInj i fun j => { j with held := none, after := 0 }) := (Dev.Moves.refl _ _ d).setInj _ _
  have hpkt : (d.setInj i fun j => { j with held := none, after := 0 }).pkt = d.pkt := rfl
  have hne : ∀ j, j ≠ i → (d.setInj i fun j => { j with held := none, after := 0 }).inj j = d.inj j := fun j hj =>
    Dev.inj_setInj_ne _ _ hj
  have hget : ∀ f : Fld, (d.setInj i fun j => { j with held := none, after := 0 }).get f = d.get f := fun _ => rfl
  generalize (d.setInj i fun j => { j with held := none, after := 0 }) = a at *
  have hs : a.Moves [] (shown [fiBase i + 0x14] []) (a.set (fiF i 0x14 1 1) 0) := (Dev.Moves.refl _ _ a).set _ _ (.inl (by simp [fiF_addr]))
  have hbit : (a.set (fiF i 0x14 1 1) 0).get (fiF i 0x14 1 1) = 0 := Dev.get_set_lt _ _ (by simp [Fld.fits, fiF]) (by simp [fiF])
  have harm : (a.set (fiF i 0x14 1 1) 0).get (fiF i 0x14 0 1) = d.get (fiF i 0x14 0 1) := by
    rw [Dev.get_set_apart _ _ _ _ (by simp [Fld.fits, fiF]) (by simp [Fld.apart, fiF]), hget]
  generalize a.set (fiF i 0x14 1 1) 0 = b at *
  have hall := hm.trans (hs.mono (l' := [.inj, .pkt]) (by simp) fun _ h => h)
  have hok' : b.trafficOk 8 = true := (Dev.Only.trafficOk_eight hall.only (fun x hx => by
    have := fiBase_ge i
    simp at hx
    omega)).trans hok
  rw [Dev.linkIn, if_pos hok']
  have hbi : ∀ j, (b.linkPush (i - 160) u.pkt).inj j = a.inj j := Dev.inj_congr (hs.parts .inj (by decide))
  refine ⟨by rw [hbi]; exact hinj, fun j hj => (hbi j).trans (hne j hj), hbit, harm, ?_, hall.setPkt _⟩
  show Tbl.get [] (Tbl.modify [] b.pkt.links (i - 160) (· ++ [u.pkt])) (i - 160) = _
  rw [Tbl.get_modify_self, hs.parts .pkt (by decide), hpkt]

theorem State.fiArm_arms {s : State} {i : Fin 164} (hs : s.dev.out = []) (ht : s.dev.Takes (fiBase i) (s.dev.withField (fiF i 0 0 1) 1)) (hoff : s.dev.get (fiF i 0 0 1) = 0) :
    ∃ t, exec (.fiArm i) s = .next t ∧ t.outputs = .writeDone (fiBase i) 0 :: s.outputs ∧ t.dev.get (fiF i 0 0 1) = 1
      ∧ t.dev.get (fiF i 0x14 0 1) = 1 ∧ t.dev.get F.hrtFiGlobalArmcnt = (s.dev.get F.hrtFiGlobalArmcnt + 1) % 256
      ∧ (t.dev.inj i).u = 0 ∧ (t.dev.inj i).gen = s.dev.get (fiF i 0xC 0 32) ∧ (t.dev.inj i).sel = 0
      ∧ (t.dev.inj i).held = (s.dev.inj i).held ∧ s.dev.Only [fiBase i, fiBase i + 0x14, R.hrtFiGlobal] [] t.dev := by
  have hlow := fiBase_ge i
  simp only [exec, execFiArm]
  refine State.fiCtl_takes hs rfl ht (by decide) fun e t hm hen hout hends houts => ?_
  have hold : (fiF i 0 0 1).of (s.dev.reg (fiBase i)) = 0 := hoff
  have hgo : e.fiCtlGo s.fuses i (s.dev.reg (fiBase i)) = e.fiArm i := by
    unfold Dev.fiCtlGo
    rw [if_neg (by simp [Dev.flag, hen]), if_neg (by simp [hold])]
  rw [hgo] at hends houts
  have hglob : e.get F.hrtFiGlobalArmcnt = s.dev.get F.hrtFiGlobalArmcnt := hm.get (by simp only [F.hrtFiGlobalArmcnt, R.hrtFiGlobal]; omega)
  have hseed : e.get (fiF i 0xC 0 32) = s.dev.get (fiF i 0xC 0 32) := hm.get (by simp [fiF_addr])
  have hei : e.inj i = s.dev.inj i := Dev.inj_congr (hm.parts .inj (by decide)) i
  unfold Dev.fiArm at hends houts
  have hinj : (e.setInj i fun j => { j with u := 0, gen := e.get (fiF i 0xC 0 32), sel := 0 }).inj i = { e.inj i with u := 0, gen := e.get (fiF i 0xC 0 32), sel := 0 } :=
    Dev.inj_setInj_self _ _ _
  have hma : s.dev.Moves [.waiting, .inj] (shown [fiBase i, fiBase i + 0x14, R.hrtFiGlobal] []) (e.setInj i fun j => { j with u := 0, gen := e.get (fiF i 0xC 0 32), sel := 0 }) :=
    (hm.mono (l' := [.waiting, .inj]) (by simp) fun a ha => .inl (by simp [ha])).setInj _ _
  have hget : ∀ f : Fld, (e.setInj i fun j => { j with u := 0, gen := e.get (fiF i 0xC 0 32), sel := 0 }).get f = e.get f := fun _ => rfl
  have hao : (e.setInj i fun j => { j with u := 0, gen := e.get (fiF i 0xC 0 32), sel := 0 }).out = [] := hout
  generalize (e.setInj i fun j => { j with u := 0, gen := e.get (fiF i 0xC 0 32), sel := 0 }) = a at *
  have hset : a.Moves [] (shown [fiBase i, fiBase i + 0x14, R.hrtFiGlobal] []) ((a.set (fiF i 0x14 0 1) 1).set F.hrtFiGlobalArmcnt (e.get F.hrtFiGlobalArmcnt + 1)) :=
    ((Dev.Moves.refl _ _ a).set _ _ (.inl (by simp [fiF_addr]))).set _ _ (.inl (by simp [F.hrtFiGlobalArmcnt]))
  have h1 : ((a.set (fiF i 0x14 0 1) 1).set F.hrtFiGlobalArmcnt (e.get F.hrtFiGlobalArmcnt + 1)).get (fiF i 0 0 1) = 1 := by
    rw [Dev.get_set_ne _ _ (by rw [fiF_addr]; simp only [F.hrtFiGlobalArmcnt, R.hrtFiGlobal]; omega), Dev.get_set_ne _ _ (by simp [fiF_addr]), hget, hen]
  have h2 : ((a.set (fiF i 0x14 0 1) 1).set F.hrtFiGlobalArmcnt (e.get F.hrtFiGlobalArmcnt + 1)).get (fiF i 0x14 0 1) = 1 := by
    rw [Dev.get_set_ne _ _ (by rw [fiF_addr]; simp only [F.hrtFiGlobalArmcnt, R.hrtFiGlobal]; omega)]
    exact Dev.get_set_lt _ _ (by simp [Fld.fits, fiF]) (by simp [fiF])
  have h3 : ((a.set (fiF i 0x14 0 1) 1).set F.hrtFiGlobalArmcnt (e.get F.hrtFiGlobalArmcnt + 1)).get F.hrtFiGlobalArmcnt = (s.dev.get F.hrtFiGlobalArmcnt + 1) % 256 := by
    rw [Dev.get_set_on _ _ _ (by decide), hglob]
    rfl
  generalize (a.set (fiF i 0x14 0 1) 1).set F.hrtFiGlobalArmcnt (e.get F.hrtFiGlobalArmcnt + 1) = b at *
  have hti : t.dev.inj i = { e.inj i with u := 0, gen := e.get (fiF i 0xC 0 32), sel := 0 } :=
    (Dev.inj_congr hends.same.inj_ i).trans ((Dev.inj_congr (hset.parts .inj (by decide)) i).trans hinj)
  refine ⟨by rw [houts, hset.parts .out (by decide), hao]; rfl, (hends.get _).trans h1, (hends.get _).trans h2, (hends.get _).trans h3, by rw [hti], by rw [hti, hseed], by rw [hti],
    by rw [hti, hei], hends.only.2 ?_⟩
  exact ((hma.trans (hset.mono (by simp) fun _ h => h)).only.emit _).congr (Dev.setWaiting_keeps _ _).1

theorem Dev.fiCtlGo_off {e : Dev} {i : Nat} (h : e.get (fiF i 0 0 1) = 0) (fz : Fuses) (old : Word) : e.fiCtlGo fz i old = e.fiDisarm fz i := by
  unfold Dev.fiCtlGo
  rw [if_pos (by simp [Dev.flag, h])]

theorem State.fiDisarm_ends {s : State} {i : Fin 164} (hs : s.dev.out = []) (ht : s.dev.Takes (fiBase i) (s.dev.withField (fiF i 0 0 1) 0))
    (harm : s.dev.get (fiF i 0x14 0 1) = 1) (hheld : (s.dev.inj i).held = none) :
    ∃ t, exec (.fiDisarm i) s = .next t ∧ t.outputs = .writeDone (fiBase i) 0 :: s.outputs ∧ t.dev.get (fiF i 0 0 1) = 0
      ∧ t.dev.get (fiF i 0x14 0 1) = 0 ∧ t.dev.get F.hrtFiGlobalArmcnt = s.dev.get F.hrtFiGlobalArmcnt - 1
      ∧ s.dev.Only [fiBase i, fiBase i + 0x14, R.hrtFiGlobal] [] t.dev := by
  have hlow := fiBase_ge i
  simp only [exec, execFiDisarm]
  refine State.fiCtl_takes hs rfl ht (by decide) fun e t hm hen hout hends houts => ?_
  rw [Dev.fiCtlGo_off hen, Dev.fiDisarm_idle (by rw [Dev.inj_congr (hm.parts .inj (by decide))]; exact hheld)] at hends houts
  obtain ⟨h1, h2, h3, hx⟩ := e.fiOff_shows i
  generalize (e.set (fiF i 0 0 1) 0).fiOff i = x at *
  have hea : e.get (fiF i 0x14 0 1) = 1 := (hm.get (by simp [fiF_addr])).trans harm
  have heg : e.get F.hrtFiGlobalArmcnt = s.dev.get F.hrtFiGlobalArmcnt := hm.get (by simp only [F.hrtFiGlobalArmcnt, R.hrtFiGlobal]; omega)
  refine ⟨by rw [houts, hx.parts .out (by decide), hout]; rfl, (hends.get _).trans h1, (hends.get _).trans h2, (hends.get _).trans ((h3 hea).trans (by rw [heg])), hends.only.2 ?_⟩
  have hall := (hm.mono (q := shown [fiBase i, fiBase i + 0x14, R.hrtFiGlobal] []) (l' := [.waiting]) (by simp) fun a ha => .inl (by simp [ha])).trans (hx.mono (by simp) fun _ h => h)
  exact (hall.only.emit _).congr (Dev.setWaiting_keeps _ _).1

/-- The cords of PKT stand as they did after writes of an injector's registers. -/
theorem Dev.trafficOk_fi {d e : Dev} {l : List Part} {i : Nat} (h : d.Moves l (shown [fiBase i, fiBase i + 0x14, R.hrtFiGlobal] []) e) : e.trafficOk 8 = d.trafficOk 8 :=
  Dev.Only.trafficOk_eight h.only fun x hx => by
    have := fiBase_ge i
    have hg : R.hrtFiGlobal = 0xB0000 := rfl
    simp at hx
    omega

/-- An injector with a unit held on its way into PKT, disarmed (R436). -/
theorem Dev.fiDisarm_link {d : Dev} {i : Nat} {u : FiUnit} (hi : 160 ≤ i) (hok : d.trafficOk 8 = true) (hdir : (d.inj i).dir = 0) (hh : (d.inj i).held = some u) (fz : Fuses) :
    let e := d.fiDisarm fz i
    (e.inj i).held = none ∧ (∀ j, j ≠ i → e.inj j = d.inj j) ∧ e.get (fiF i 0x14 1 1) = 0 ∧ e.get (fiF i 0 0 1) = 0 ∧ e.get (fiF i 0x14 0 1) = 0
      ∧ Tbl.get [] e.pkt.links (i - 160) = Tbl.get [] d.pkt.links (i - 160) ++ [u.pkt]
      ∧ d.Moves [.inj, .pkt] (shown [fiBase i, fiBase i + 0x14, R.hrtFiGlobal] []) e := by
  obtain ⟨h1, h2, -, hx⟩ := d.fiOff_shows i
  unfold Dev.fiDisarm
  generalize (d.set (fiF i 0 0 1) 0).fiOff i = x at *
  have hinj : x.inj i = d.inj i := Dev.inj_congr (hx.parts .inj (by decide)) i
  obtain ⟨ha, hne, hb, harm, hc, hm⟩ := Dev.fiRelease_link hi ((Dev.trafficOk_fi hx).trans hok) (by rw [hinj, hdir]) (by rw [hinj, hh]) fz
  refine ⟨ha, fun j hj => (hne j hj).trans (Dev.inj_congr (hx.parts .inj (by decide)) j), hb, (hm.get fun h => ?_).trans h1, harm.trans h2, by rw [hc, hx.parts .pkt (by decide)],
    (hx.mono (by simp) fun _ h => h).trans (hm.mono (fun _ h => h) (shown_mono (by simp) (by simp)))⟩
  rcases h with h | ⟨n, hn, -⟩
  · simp [fiF_addr] at h
  · simp at hn

theorem State.fiDisarm_releases {s : State} {i : Fin 164} {u : FiUnit} (hs : s.dev.out = []) (ht : s.dev.Takes (fiBase i) (s.dev.withField (fiF i 0 0 1) 0)) (hi : 160 ≤ i.val)
    (hok : s.dev.trafficOk 8 = true) (hdir : (s.dev.inj i).dir = 0) (hh : (s.dev.inj i).held = some u) :
    ∃ t, exec (.fiDisarm i) s = .next t ∧ (t.dev.inj i).held = none ∧ t.dev.get (fiF i 0x14 1 1) = 0
      ∧ Tbl.get [] t.dev.pkt.links (i.val - 160) = Tbl.get [] s.dev.pkt.links (i.val - 160) ++ [u.pkt] := by
  simp only [exec, execFiDisarm]
  refine State.fiCtl_takes hs rfl ht (by decide) fun e t hm hen hout hends houts => ?_
  rw [Dev.fiCtlGo_off hen] at hends
  have hinj : e.inj i = s.dev.inj i := Dev.inj_congr (hm.parts .inj (by decide)) i
  have hmx : s.dev.Moves [.waiting] (shown [fiBase i, fiBase i + 0x14, R.hrtFiGlobal] []) e := hm.mono (by simp) fun a ha => .inl (by simp [ha])
  obtain ⟨h1, -, h2, -, -, h3, -⟩ := Dev.fiDisarm_link hi ((Dev.trafficOk_fi hmx).trans hok) (by rw [hinj, hdir]) (by rw [hinj, hh]) s.fuses
  refine ⟨(congrArg Inj.held (Dev.inj_congr hends.same.inj_ i)).trans h1, (hends.get _).trans h2, ?_⟩
  rw [hends.same.pkt]
  exact h3.trans (by rw [hm.parts .pkt (by decide)])

/-! ### KILL (R436) -/

/-- The registers of a list of injectors that KILL may touch. -/
def fiRegs (l : List Nat) : List Nat := R.hrtFiGlobal :: l.flatMap fun i => [fiBase i, fiBase i + 0x14]

theorem mem_fiRegs {l : List Nat} {a : Nat} : a ∈ fiRegs l ↔ a = R.hrtFiGlobal ∨ ∃ i ∈ l, a = fiBase i ∨ a = fiBase i + 0x14 := by simp [fiRegs]

/-- Injectors that hold nothing, disarmed one after another. -/
theorem Dev.fiDisarms_idle (fz : Fuses) (l : List Nat) (d : Dev) (hl : ∀ i ∈ l, i < 164 ∧ (d.inj i).held = none) :
    let e := d.each l fun d i => d.fiDisarm fz i
    (∀ i < 164, i ∈ l ∨ d.get (fiF i 0 0 1) = 0 ∧ d.get (fiF i 0x14 0 1) = 0 → e.get (fiF i 0 0 1) = 0 ∧ e.get (fiF i 0x14 0 1) = 0)
      ∧ d.Moves [] (shown (fiRegs l) []) e := by
  induction l generalizing d with
  | nil => exact ⟨fun i _ h => h.resolve_left (by simp), Dev.Moves.refl _ _ d⟩
  | cons k l ih =>
    obtain ⟨hk, hheld⟩ := hl k List.mem_cons_self
    obtain ⟨h1, h2, -, hm⟩ := d.fiOff_shows k
    simp only [Dev.each_cons, Dev.fiDisarm_idle hheld]
    generalize (d.set (fiF k 0 0 1) 0).fiOff k = x at *
    obtain ⟨hz, hmx⟩ := ih x fun i hi => ⟨(hl i (List.mem_cons_of_mem _ hi)).1, by
      rw [Dev.inj_congr (hm.parts .inj (by decide))]
      exact (hl i (List.mem_cons_of_mem _ hi)).2⟩
    refine ⟨fun i hi h => hz i hi ?_, ?_⟩
    · by_cases hik : i = k
      · exact .inr (hik ▸ ⟨h1, h2⟩)
      · refine h.imp (fun h => (List.mem_cons.1 h).resolve_left hik) fun h => ?_
        have hne : ∀ o < 0x1C, ¬ shown [fiBase k, fiBase k + 0x14, R.hrtFiGlobal] [] (fiBase i + o) := by
          rintro o ho (hx | ⟨n, hn, -⟩)
          · have := fiBase_apart hi hk hik
            have := fiBase_ge i
            have hg : R.hrtFiGlobal = 0xB0000 := rfl
            simp at hx
            omega
          · simp at hn
        exact ⟨(hm.get (hne _ (by decide))).trans h.1, (hm.get (hne _ (by decide))).trans h.2⟩
    · refine (hm.mono (by simp) ?_).trans (hmx.mono (by simp) ?_)
      · refine shown_mono (fun a ha => mem_fiRegs.2 ?_) (by simp)
        simp only [List.mem_cons, List.not_mem_nil, or_false] at ha
        rcases ha with rfl | rfl | rfl
        · exact .inr ⟨k, by simp, .inl rfl⟩
        · exact .inr ⟨k, by simp, .inr rfl⟩
        · exact .inl rfl
      · refine shown_mono (fun a ha => mem_fiRegs.2 ?_) (by simp)
        exact (mem_fiRegs.1 ha).imp id fun ⟨j, hj, h⟩ => ⟨j, List.mem_cons_of_mem _ hj, h⟩

/-- A host's write of KILL that is taken (R436). -/
theorem State.fiKill_takes {s : State} {P : State → Prop} (hs : s.dev.out = []) (ht : s.dev.Takes R.hrtFiGlobal (s.dev.withField F.hrtFiGlobalKill 1))
    (h : ∀ (e : Dev) (t : State), s.dev.Moves [.waiting] (· = R.hrtFiGlobal) e → e.out = [] →
      (((e.fiKill s.fuses).emit (.writeDone R.hrtFiGlobal 0)).setWaiting []).EndsAs t.dev → t.outputs = .writeDone R.hrtFiGlobal 0 :: (e.fiKill s.fuses).out ++ s.outputs → P t) :
    ∃ t, exec .fiKill s = .next t ∧ P t := by
  have hdec : ∃ r, decodeAddr R.hrtFiGlobal = some r ∧ r.row.name = .hrtFiGlobal := by
    have h : (decodeAddr R.hrtFiGlobal).map (fun r => r.row.name) = some .hrtFiGlobal := by decide +kernel
    simpa [Option.map_eq_some_iff] using h
  obtain ⟨r, hr, hn⟩ := hdec
  have hkill : F.hrtFiGlobalKill.of (s.dev.withField F.hrtFiGlobalKill 1) = 1 := Fld.of_put _ _ _ (by decide)
  simp only [exec, execFiKill]
  refine State.plainWrite_takes (a := R.hrtFiGlobal) (u := fun d => d.withField F.hrtFiGlobalKill 1) (v := s.dev.withField F.hrtFiGlobalKill 1)
    (g := fun d => (d.setReg R.hrtFiGlobal (r.row.merge (d.reg R.hrtFiGlobal) (s.dev.withField F.hrtFiGlobalKill 1))).fiKill s.fuses)
    hs rfl rfl ht (by decide) hr (by simp [hn, RegName.plainWrite]) (Dev.ringsUp_of_lt (by decide)) (fun d => ?_) fun l t hends hout => ?_
  · simp only [Dev.writeGo, hn, hkill]
    rfl
  · have hm : s.dev.Moves [.waiting] (· = R.hrtFiGlobal) ((s.dev.setWaiting l).setReg R.hrtFiGlobal (r.row.merge ((s.dev.setWaiting l).reg R.hrtFiGlobal)
        (s.dev.withField F.hrtFiGlobalKill 1))) := ((Dev.Moves.refl _ _ s.dev).setWaiting l).setReg _ _ rfl
    exact h _ t hm ((hm.parts .out (by decide)).trans hs) hends hout

theorem State.fiKill_disarms {s : State} (hs : s.dev.out = []) (ht : s.dev.Takes R.hrtFiGlobal (s.dev.withField F.hrtFiGlobalKill 1)) (hidle : ∀ i < 164, (s.dev.inj i).held = none) :
    ∃ t, exec .fiKill s = .next t ∧ t.outputs = .writeDone R.hrtFiGlobal 0 :: s.outputs
      ∧ ∀ i < 164, t.dev.get (fiF i 0 0 1) = 0 ∧ t.dev.get (fiF i 0x14 0 1) = 0 := by
  refine State.fiKill_takes hs ht fun e t hm hout hends houts => ?_
  obtain ⟨hz, hk⟩ := Dev.fiDisarms_idle s.fuses (List.range 164) e fun i hi => ⟨List.mem_range.1 hi, by
    rw [Dev.inj_congr (hm.parts .inj (by decide))]
    exact hidle i (List.mem_range.1 hi)⟩
  unfold Dev.fiKill at hends houts
  generalize (e.each (List.range 164) fun d i => d.fiDisarm s.fuses i) = x at *
  refine ⟨by rw [houts, hk.parts .out (by decide), hout]; rfl, fun i hi => ?_⟩
  obtain ⟨h1, h2⟩ := hz i hi (.inl (List.mem_range.2 hi))
  exact ⟨(hends.get _).trans h1, (hends.get _).trans h2⟩

theorem State.fiKill_releases {s : State} {i : Fin 164} {u : FiUnit} (hs : s.dev.out = []) (ht : s.dev.Takes R.hrtFiGlobal (s.dev.withField F.hrtFiGlobalKill 1)) (hi : 160 ≤ i.val)
    (hok : s.dev.trafficOk 8 = true) (hh : (s.dev.inj i).held = some u) (hdir : (s.dev.inj i).dir = 0) (hidle : ∀ j < 164, j ≠ i.val → (s.dev.inj j).held = none) :
    ∃ t, exec .fiKill s = .next t ∧ (t.dev.inj i).held = none ∧ t.dev.get (fiF i 0x14 1 1) = 0 ∧ t.dev.get (fiF i 0 0 1) = 0
      ∧ t.dev.get (fiF i 0x14 0 1) = 0
      ∧ Tbl.get [] t.dev.pkt.links (i.val - 160) = Tbl.get [] s.dev.pkt.links (i.val - 160) ++ [u.pkt] := by
  refine State.fiKill_takes hs ht fun e t hm hout hends houts => ?_
  have hinj : ∀ j, e.inj j = s.dev.inj j := Dev.inj_congr (hm.parts .inj (by decide))
  obtain ⟨l, l', hl⟩ := List.append_of_mem (List.mem_range.2 i.isLt)
  have hnd : (l ++ i.val :: l').Nodup := hl ▸ List.nodup_range
  have hlt : ∀ j ∈ l ++ i.val :: l', j < 164 := fun j hj => List.mem_range.1 (hl ▸ hj)
  have hni : i.val ∉ l ∧ i.val ∉ l' := by
    obtain ⟨-, h2, h3⟩ := List.nodup_append.1 hnd
    exact ⟨fun h => h3 _ h _ List.mem_cons_self rfl, (List.nodup_cons.1 h2).1⟩
  obtain ⟨-, hma⟩ := Dev.fiDisarms_idle s.fuses l e fun j hj => ⟨hlt j (by simp [hj]), by
    rw [hinj]
    exact hidle j (hlt j (by simp [hj])) fun h => hni.1 (h ▸ hj)⟩
  have heach : e.fiKill s.fuses = ((e.each l fun d i => d.fiDisarm s.fuses i).fiDisarm s.fuses i).each l' fun d i => d.fiDisarm s.fuses i := by
    unfold Dev.fiKill
    rw [hl, Dev.each, List.foldl_append, List.foldl_cons]
    rfl
  rw [heach] at hends
  generalize (e.each l fun d i => d.fiDisarm s.fuses i) = x at *
  have hxi : ∀ j, x.inj j = s.dev.inj j := fun j => (Dev.inj_congr (hma.parts .inj (by decide)) j).trans (hinj j)
  have hxo : x.trafficOk 8 = true := (Dev.Only.trafficOk_eight hma.only fun a ha => by
    have hg : R.hrtFiGlobal = 0xB0000 := rfl
    rcases mem_fiRegs.1 ha with h | ⟨j, -, h⟩
    · omega
    · have := fiBase_ge j
      omega).trans ((Dev.Only.trafficOk_eight (regs := [R.hrtFiGlobal]) (evs := []) (hm.mono (l' := [.waiting]) (q := shown [R.hrtFiGlobal] []) (by simp) fun a ha => .inl (by simp [ha])).only
        (by decide)).trans hok)
  obtain ⟨h1, hne, h2, h3, h4, h5, hmi⟩ := Dev.fiDisarm_link hi hxo (by rw [hxi, hdir]) (by rw [hxi, hh]) s.fuses
  generalize x.fiDisarm s.fuses i = y at *
  obtain ⟨-, hmb⟩ := Dev.fiDisarms_idle s.fuses l' y fun j hj => ⟨hlt j (by simp [hj]), by
    have hji : j ≠ i.val := fun h => hni.2 (h ▸ hj)
    rw [hne j hji, hxi]
    exact hidle j (hlt j (by simp [hj])) hji⟩
  generalize (y.each l' fun d i => d.fiDisarm s.fuses i) = z at *
  have hout' : ∀ o < 0x1C, ¬ shown (fiRegs l') [] (fiBase i + o) := by
    rintro o ho (hx | ⟨n, hn, -⟩)
    · have := fiBase_ge i
      rcases mem_fiRegs.1 hx with h | ⟨j, hj, h⟩
      · have hg : R.hrtFiGlobal = 0xB0000 := rfl
        omega
      · have := fiBase_apart i.isLt (hlt j (by simp [hj])) fun h => hni.2 (h ▸ hj)
        omega
    · simp at hn
  have hget : ∀ o lsb w, o < 0x1C → t.dev.get (fiF i o lsb w) = y.get (fiF i o lsb w) := fun o lsb w ho => (hends.get _).trans (hmb.get (hout' o ho))
  refine ⟨(congrArg Inj.held ((Dev.inj_congr hends.same.inj_ i).trans (Dev.inj_congr (hmb.parts .inj (by decide)) i))).trans h1, (hget _ _ _ (by decide)).trans h2,
    (hget _ _ _ (by decide)).trans h3, (hget _ _ _ (by decide)).trans h4, ?_⟩
  rw [show t.dev.pkt = y.pkt from hends.same.pkt.trans (hmb.parts .pkt (by decide)), h5, hma.parts .pkt (by decide), hm.parts .pkt (by decide)]

theorem State.fiHoldTo_releases {s : State} {i : Fin 164} {u : FiUnit} (hs : s.dev.out = []) (hi : 160 ≤ i.val) (hok : s.dev.trafficOk 8 = true)
    (hdir : (s.dev.inj i).dir = 0) (hh : (s.dev.inj i).held = some u) :
    ∃ t, exec (.fiHoldTo i) s = .next t ∧ (t.dev.inj i).held = none ∧ t.dev.get (fiF i 0x14 1 1) = 0
      ∧ Tbl.get [] t.dev.pkt.links (i.val - 160) = Tbl.get [] s.dev.pkt.links (i.val - 160) ++ [u.pkt]
      ∧ s.dev.Raised 0xFE t.dev ∧ t.dev.get F.hrtFiGlobalLastinj = i
      ∧ s.dev.Only [fiBase i + 0x14, R.hrtFiGlobal] [0xFE] t.dev := by
  have hlow := fiBase_ge i
  simp only [exec, execFiHoldTo]
  refine State.run_ends hs rfl fun t ht hout hfz => ?_
  rw [hh, Option.isSome_some, Dev.when_true] at ht
  obtain ⟨h1, -, h2, -, h3, hm⟩ := Dev.fiRelease_link hi hok hdir hh s.fuses
  generalize s.dev.fiRelease s.fuses i = x at *
  have hset : x.Moves [] (shown [R.hrtFiGlobal] []) (x.set F.hrtFiGlobalLastinj i) := (Dev.Moves.refl _ _ x).set _ _ (.inl (by decide))
  have hlast : (x.set F.hrtFiGlobalLastinj i).get F.hrtFiGlobalLastinj = i := Dev.get_set_lt _ _ (by simp [Fld.fits, F.hrtFiGlobalLastinj]) (by show i.val < 256; omega)
  unfold Dev.fiEvent at ht
  have hall := (hm.mono (l' := [.inj, .pkt]) (q := shown [fiBase i + 0x14, R.hrtFiGlobal] []) (fun _ h => h) (shown_mono (by simp) (by simp))).trans (hset.mono (by simp) (shown_mono (by simp) (by simp)))
  generalize x.set F.hrtFiGlobalLastinj i = y at *
  have hraise : s.dev.Raised 0xFE (y.raise 0xFE [R.hrtFiGlobal]) := hall.only.raised_raise _ (by simp) (by
    have hc : R.hrtEvtSrcCtl 0xFE < 0x81000 := by decide
    have hg : R.hrtFiGlobal = 0xB0000 := rfl
    simp only [List.mem_cons, List.not_mem_nil, or_false, not_or]
    exact ⟨by omega, by rw [hg]; decide⟩) (by decide)
  have hget : ∀ f : Fld, 0x81000 ≤ f.addr → t.dev.get f = y.get f := fun f hf => (ht.get f).trans (Dev.get_raise _ _ _ (.inr hf))
  refine ⟨?_, ?_, ?_, ht.raised.2 hraise, (hget _ (by decide)).trans hlast, ht.only.2 ?_⟩
  · have hti : t.dev.inj i = x.inj i := (Dev.inj_congr ht.same.inj_ i).trans ((Dev.inj_congr (y.raise_quiet 0xFE [R.hrtFiGlobal]).inj_ i).trans (Dev.inj_congr (hset.parts .inj (by decide)) i))
    rw [hti, h1]
  · refine (hget _ (by rw [fiF_addr]; omega)).trans ((hset.get ?_).trans h2)
    rintro (h | ⟨n, hn, -⟩)
    · have hg : R.hrtFiGlobal = 0xB0000 := rfl
      simp [fiF_addr] at h
      omega
    · simp at hn
  · rw [show t.dev.pkt = x.pkt from ht.same.pkt.trans ((y.raise_quiet 0xFE [R.hrtFiGlobal]).pkt.trans (hset.parts .pkt (by decide)))]
    exact h3
  · exact (hall.only.mono (by simp) (by simp)).raise _ _ (by simp)

/-! ### A unit at its injector (R432, R433) -/

theorem Dev.fiFollow_pass {d : Dev} {i dir : Nat} (h : (d.inj i).held = none ∨ (d.inj i).dir ≠ dir) (x : FiUnit) : d.fiFollow i dir x = (d, [x]) := by
  unfold Dev.fiFollow
  split
  · rfl
  · next hh =>
    rw [if_pos]
    exact h.resolve_left (by simp [hh])

/-- A unit of the other direction passes an armed injector. -/
theorem Dev.fiPass_other {d : Dev} {i dir : Nat} (hd : d.get (fiF i 0 1 1) ≠ dir) (h : (d.inj i).held = none ∨ (d.inj i).dir ≠ dir) (x : FiUnit) : d.fiPass i dir false x = (d, [x]) := by
  unfold Dev.fiPass
  rw [if_neg (by simp), if_pos (by simp [hd]), Dev.fiFollow_pass h]

/-- The injector has numbered and selected a unit. -/
def Dev.fiChosen (d : Dev) (i : Nat) : Dev :=
  ((d.setInj i fun j => { j with u := j.u + 1, gen := fiGen (d.inj i).gen }).setInj i fun j => { j with sel := j.sel + 1 }).when ((d.inj i).sel == 0) fun d => d.fiEvent i 0xFC

/-- An injector without a limit that takes every unit acts on this one. -/
theorem Dev.fiPass_chosen {d : Dev} {i dir : Nat} (hd : d.get (fiF i 0 1 1) = dir) (harm : d.get (fiF i 0x14 0 1) = 1) (hm : d.get (fiF i 0 4 2) = 0) (hn : d.get (fiF i 4 0 16) = 1)
    (hlim : d.get (fiF i 0x10 0 32) = 0) (x : FiUnit) :
    d.fiPass i dir false x = if d.get (fiF i 0 2 2) = 0 then (((d.fiChosen i).freeBufs x.bufs x.agent).count (fiF i 0x18 0 32) 1, [])
        else if d.get (fiF i 0 2 2) = 1 then ((d.fiChosen i).count (fiF i 0x18 0 32) 1).fiFollow i dir (d.fiCorrupt i x)
        else if (d.inj i).held.isSome then ((d.fiChosen i).count (fiF i 0x14 16 16) 1).fiFollow i dir x
        else ((((d.fiChosen i).count (fiF i 0x18 0 32) 1).setInj i fun j => { j with held := some x, dir := dir, after := 0 }).set (fiF i 0x14 1 1) 1, []) := by
  have hsel : ∀ g, d.fiSelects i (d.inj i).u g = true := fun g => by
    unfold Dev.fiSelects
    dsimp only
    rw [if_pos hm, hn]
    simp [Nat.mod_one]
  have hs : (d.setInj i fun j => { j with u := j.u + 1, gen := fiGen (d.inj i).gen }).fiSelects i (d.inj i).u (fiGen (d.inj i).gen) = true := hsel _
  unfold Dev.fiPass
  rw [if_neg (by simp), if_neg (by simp [Dev.flag, harm, hd])]
  dsimp only
  rw [if_neg (by rw [hsel]; simp), hlim]
  simp only [bne_self_eq_false, Bool.false_and, Dev.when_false]
  rfl

/-- The lower stage of a unit that leaves a port: its pins (R319, R431). -/
theorem Dev.fiNext_port {d : Dev} {i : Nat} (hi : i < 96) (hrel : d.released (hsCord i) = true) (h1 : d.get (F.hsLnLoopMode i) ≠ 1) (h2 : d.get (F.hsLnLoopMode i) ≠ 2) (fz : Fuses) (u : FiUnit) :
    d.fiNext fz i 1 u = d.emit (.portFrame i u.pkt.bytes) := by
  unfold Dev.fiNext
  rw [if_pos hi, hrel, Dev.when_true, if_neg (by decide), Dev.portOut, if_neg (by simp [h1, h2])]

/-- A unit at the injector of a port goes through it. -/
theorem State.fiUnit_goes {s : State} {i : Fin 164} {dir : Fin 2} {a b : Nat} {bytes : List Byte} {P : State → Prop} {x : Dev} (hs : s.dev.out = []) (hi : i.val < 96)
    (harm : s.dev.get (fiF i 0x14 0 1) = 1)
    (hx : s.dev.through i dir false { pkt := { src := i.val, bytes := bytes }, a := a, b := b } (fun d u => d.fiNext s.fuses i dir u) = x)
    (h : ∀ t : State, x.EndsAs t.dev → t.outputs = x.out ++ s.outputs → P t) : ∃ t, exec (.fiUnit i dir a b bytes) s = .next t ∧ P t := by
  have hcell : (decide (96 ≤ i.val) && decide (i.val < 160)) = false := by
    rw [decide_eq_false (by omega)]
    rfl
  simp only [exec, execFiUnit]
  refine State.run_ends hs rfl fun t ht hout hfz => h t ?_ ?_ <;> rw [← hx]
  · simp only [hcell, Dev.flag, harm, if_pos hi] at ht
    exact ht
  · simp only [hcell, Dev.flag, harm, if_pos hi] at hout
    exact hout

theorem State.fiUnit_passes {s : State} {i : Fin 164} {a b : Nat} {bytes : List Byte} (hs : s.dev.out = []) (hi : i.val < 96) (hrel : s.dev.released (hsCord i) = true)
    (h1 : s.dev.get (F.hsLnLoopMode i) ≠ 1) (h2 : s.dev.get (F.hsLnLoopMode i) ≠ 2) (harm : s.dev.get (fiF i 0x14 0 1) = 1) (hd : s.dev.get (fiF i 0 1 1) = 0)
    (hheld : (s.dev.inj i).held = none ∨ (s.dev.inj i).dir = 0) :
    ∃ t, exec (.fiUnit i 1 a b bytes) s = .next t ∧ t.outputs = .portFrame i bytes :: s.outputs ∧ t.dev.inj i = s.dev.inj i
      ∧ s.dev.Only [] [] t.dev := by
  refine State.fiUnit_goes (x := s.dev.emit (.portFrame i bytes)) hs hi harm ?_ fun t ht hout => ?_
  · unfold Dev.through
    rw [Dev.fiPass_other (by rw [hd]; decide) (hheld.imp id fun h => by rw [h]; decide)]
    exact Dev.fiNext_port hi hrel h1 h2 s.fuses _
  · exact ⟨by rw [hout, Dev.emit_out, hs]; rfl, Dev.inj_congr ht.same.inj_ i, ht.only.2 ((Dev.Only.refl _ _ _).emit _)⟩

/-- An injector that has selected before numbers and selects without an event. -/
theorem Dev.fiChosen_quiet {d : Dev} {i : Nat} (h : (d.inj i).sel ≠ 0) :
    (((d.fiChosen i).inj i).u = (d.inj i).u + 1 ∧ ((d.fiChosen i).inj i).sel = (d.inj i).sel + 1 ∧ ((d.fiChosen i).inj i).held = (d.inj i).held)
      ∧ d.Moves [.inj] (fun _ => False) (d.fiChosen i) := by
  unfold Dev.fiChosen
  rw [show ((d.inj i).sel == 0) = false by simpa using h, Dev.when_false]
  refine ⟨?_, ((Dev.Moves.refl _ _ d).setInj _ _).setInj _ _⟩
  simp only [Dev.inj_setInj_self, and_self]

theorem State.fiUnit_acts {s : State} {i : Fin 164} {a b act : Nat} {bytes : List Byte} (hs : s.dev.out = []) (hi : i.val < 96)
    (hrel : s.dev.released (hsCord i) = true) (h1 : s.dev.get (F.hsLnLoopMode i) ≠ 1) (h2 : s.dev.get (F.hsLnLoopMode i) ≠ 2) (harm : s.dev.get (fiF i 0x14 0 1) = 1)
    (hd : s.dev.get (fiF i 0 1 1) = 1) (hm : s.dev.get (fiF i 0 4 2) = 0) (hn : s.dev.get (fiF i 4 0 16) = 1) (hlim : s.dev.get (fiF i 0x10 0 32) = 0)
    (hsel : (s.dev.inj i).sel ≠ 0) (hheld : (s.dev.inj i).held = none) (hact : act = s.dev.get (fiF i 0 2 2)) (hle : act ≤ 1) :
    ∃ t, exec (.fiUnit i 1 a b bytes) s = .next t ∧ (t.dev.inj i).u = (s.dev.inj i).u + 1 ∧ (t.dev.inj i).sel = (s.dev.inj i).sel + 1
      ∧ (act = 0 → t.outputs = s.outputs)
      ∧ (act = 1 → t.outputs = .portFrame i (bytes.modify (min (s.dev.get (fiF i 0 24 8)) (bytes.length - 1))
          (· ^^^ BitVec.ofNat 8 (s.dev.get (fiF i 0 16 8)))) :: s.outputs)
      ∧ t.dev.get (fiF i 0x18 0 32) = satAdd 32 (s.dev.get (fiF i 0x18 0 32)) 1 ∧ s.dev.Only [fiBase i + 0x18] [] t.dev := by
  obtain ⟨⟨hu, hsl, hhd⟩, hch⟩ := Dev.fiChosen_quiet hsel
  have hlow := fiBase_ge i
  have hcm : (s.dev.fiChosen i).Moves [] (shown [fiBase i + 0x18] []) ((s.dev.fiChosen i).count (fiF i 0x18 0 32) 1) := (Dev.Moves.refl _ _ _).count _ _ (.inl (by simp [fiF_addr]))
  have hcnt : ((s.dev.fiChosen i).count (fiF i 0x18 0 32) 1).get (fiF i 0x18 0 32) = satAdd 32 (s.dev.get (fiF i 0x18 0 32)) 1 :=
    (Dev.get_count_self _ _ _ (by simp [Fld.fits, fiF])).trans (by rw [hch.get (by simp)]; rfl)
  have hpass := Dev.fiPass_chosen (dir := 1) hd harm hm hn hlim { pkt := { src := i.val, bytes := bytes }, a := a, b := b }
  rw [show (s.dev.fiChosen i).freeBufs ([] : List Nat) 0 = s.dev.fiChosen i from rfl] at hpass
  generalize (s.dev.fiChosen i) = y at *
  have hall : s.dev.Moves [.inj] (shown [fiBase i + 0x18] []) (y.count (fiF i 0x18 0 32) 1) := (hch.mono (by simp) fun _ h => h.elim).trans (hcm.mono (by simp) fun _ h => h)
  have hzi : (y.count (fiF i 0x18 0 32) 1).inj i = y.inj i := Dev.inj_congr (hcm.parts .inj (by decide)) i
  generalize y.count (fiF i 0x18 0 32) 1 = z at *
  have hzo : z.out = [] := (hall.parts .out (by decide)).trans hs
  rcases Nat.le_one_iff_eq_zero_or_eq_one.1 hle with h0 | h0
  · rw [← hact, if_pos h0] at hpass
    refine State.fiUnit_goes (x := z) hs hi harm (by unfold Dev.through; exact (congrArg (fun r : Dev × List FiUnit => r.1.each r.2 _) hpass)) fun t ht hout => ?_
    have hti : t.dev.inj i = y.inj i := (Dev.inj_congr ht.same.inj_ i).trans hzi
    exact ⟨by rw [hti, hu], by rw [hti, hsl], fun _ => by rw [hout, hzo]; rfl, fun h => absurd (h0.symm.trans h) (by decide), (ht.get _).trans hcnt, ht.only.2 hall.only⟩
  · rw [← hact, if_neg (by omega), if_pos h0, Dev.fiFollow_pass (.inl (by rw [hzi, hhd, hheld]))] at hpass
    have hcord : z.released (hsCord i) = true := by
      have hlt : hsCord i < 0x100 := by simp only [hsCord]; omega
      rw [Dev.released, hall.only.cordSt_eq hlt (by have := R.hrtPwrCord_lt hlt; simp; omega)]
      exact hrel
    have hloop : z.get (F.hsLnLoopMode i) = s.dev.get (F.hsLnLoopMode i) := hall.get (not_shown (by
        simp only [F.hsLnLoopMode, R.hsLnLoop, fiBase, if_pos hi, R.hsFiCtl, hsBase, List.mem_singleton]
        omega) (.inr (by simp only [F.hsLnLoopMode, R.hsLnLoop, hsBase]; omega)) (by simp))
    refine State.fiUnit_goes (x := z.emit (.portFrame i (s.dev.fiCorrupt i { pkt := { src := i.val, bytes := bytes }, a := a, b := b }).pkt.bytes)) hs hi harm ?_ fun t ht hout => ?_
    · unfold Dev.through
      refine (congrArg (fun r : Dev × List FiUnit => r.1.each r.2 fun d u => d.fiNext s.fuses i 1 u) hpass).trans ?_
      exact Dev.fiNext_port hi hcord (by rw [hloop]; exact h1) (by rw [hloop]; exact h2) s.fuses _
    · have hti : t.dev.inj i = y.inj i := (Dev.inj_congr ht.same.inj_ i).trans hzi
      exact ⟨by rw [hti, hu], by rw [hti, hsl], fun h => absurd (h0.symm.trans h) (by decide), fun _ => by rw [hout, Dev.emit_out, hzo]; rfl, (ht.get _).trans hcnt,
        ht.only.2 (hall.only.emit _)⟩

theorem State.fiUnit_holds {s : State} {i : Fin 164} {a b : Nat} {bytes : List Byte} (hs : s.dev.out = []) (hi : i.val < 96) (harm : s.dev.get (fiF i 0x14 0 1) = 1)
    (hd : s.dev.get (fiF i 0 1 1) = 0) (hm : s.dev.get (fiF i 0 4 2) = 0) (hn : s.dev.get (fiF i 4 0 16) = 1) (hlim : s.dev.get (fiF i 0x10 0 32) = 0)
    (hsel : (s.dev.inj i).sel = 0) (hheld : (s.dev.inj i).held = none) (hact : s.dev.get (fiF i 0 2 2) = 2) :
    ∃ t, exec (.fiUnit i 0 a b bytes) s = .next t ∧ (t.dev.inj i).held.map (·.pkt.bytes) = some bytes
      ∧ (t.dev.inj i).dir = 0 ∧ t.dev.get (fiF i 0x14 1 1) = 1 ∧ s.dev.Raised 0xFC t.dev ∧ t.dev.get F.hrtFiGlobalLastinj = i
      ∧ t.dev.get (fiF i 0x18 0 32) = satAdd 32 (s.dev.get (fiF i 0x18 0 32)) 1
      ∧ s.dev.Only [fiBase i + 0x14, fiBase i + 0x18, R.hrtFiGlobal] [0xFC] t.dev := by
  have hlow := fiBase_ge i
  have hg : R.hrtFiGlobal = 0xB0000 := rfl
  have hpass := Dev.fiPass_chosen (dir := 0) hd harm hm hn hlim { pkt := { src := i.val, bytes := bytes }, a := a, b := b }
  rw [hact, if_neg (by decide), if_neg (by decide), hheld, if_neg (by simp)] at hpass
  -- the event, then the count, then the hold
  have hch : s.dev.Raised 0xFC (s.dev.fiChosen i) ∧ (s.dev.fiChosen i).get F.hrtFiGlobalLastinj = i ∧ s.dev.Only [R.hrtFiGlobal] [0xFC] (s.dev.fiChosen i) := by
    unfold Dev.fiChosen
    rw [show ((s.dev.inj i).sel == 0) = true by simpa using hsel, Dev.when_true, Dev.fiEvent]
    have hy : ((s.dev.setInj i fun j => { j with u := j.u + 1, gen := fiGen (s.dev.inj i).gen }).setInj i fun j => { j with sel := j.sel + 1 }).regs = s.dev.regs := rfl
    generalize ((s.dev.setInj i fun j => { j with u := j.u + 1, gen := fiGen (s.dev.inj i).gen }).setInj i fun j => { j with sel := j.sel + 1 }) = y at *
    have hset : s.dev.Only [R.hrtFiGlobal] [] (y.set F.hrtFiGlobalLastinj i) := ((Dev.Only.refl _ _ _).congr hy).set _ _ (by decide)
    exact ⟨hset.raised_raise _ (by simp) (by decide) (by decide), (Dev.get_raise _ _ _ (.inr (by decide))).trans (Dev.get_set_lt _ _ (by simp [Fld.fits, F.hrtFiGlobalLastinj])
      (by show i.val < 256; omega)), (hset.mono (by simp) (by simp)).raise _ _ (by simp)⟩
  obtain ⟨hraise, hlast, hon⟩ := hch
  generalize (s.dev.fiChosen i) = y at *
  have hcm : y.Only [fiBase i + 0x14, fiBase i + 0x18] [] (y.count (fiF i 0x18 0 32) 1) := (Dev.Only.refl _ _ y).count _ _ (by simp [fiF_addr])
  have hcnt : (y.count (fiF i 0x18 0 32) 1).get (fiF i 0x18 0 32) = satAdd 32 (s.dev.get (fiF i 0x18 0 32)) 1 :=
    (Dev.get_count_self _ _ _ (by simp [Fld.fits, fiF])).trans (by
      rw [hon.get_eq (by rw [fiF_addr]; simp; omega) (by rw [fiF_addr]; omega) (by decide)]
      rfl)
  generalize y.count (fiF i 0x18 0 32) 1 = z at *
  have hw : (z.setInj i fun j => { j with held := some { pkt := { src := i.val, bytes := bytes }, a := a, b := b }, dir := 0, after := 0 }).inj i
      = { z.inj i with held := some { pkt := { src := i.val, bytes := bytes }, a := a, b := b }, dir := 0, after := 0 } := Dev.inj_setInj_self _ _ _
  have hwr : (z.setInj i fun j => { j with held := some { pkt := { src := i.val, bytes := bytes }, a := a, b := b }, dir := 0, after := 0 }).regs = z.regs := rfl
  generalize (z.setInj i fun j => { j with held := some { pkt := { src := i.val, bytes := bytes }, a := a, b := b }, dir := 0, after := 0 }) = w at *
  have hset : y.Only [fiBase i + 0x14, fiBase i + 0x18] [] (w.set (fiF i 0x14 1 1) 1) := (hcm.congr hwr).set _ _ (by simp [fiF_addr])
  refine State.fiUnit_goes (x := w.set (fiF i 0x14 1 1) 1) hs hi harm (by unfold Dev.through; exact (congrArg (fun r : Dev × List FiUnit => r.1.each r.2 _) hpass)) fun t ht hout => ?_
  have hti : t.dev.inj i = w.inj i := Dev.inj_congr (ht.same.inj_.trans (Dev.set_quiet _ _ _).inj_) i
  refine ⟨by rw [hti, hw]; rfl, by rw [hti, hw], (ht.get _).trans (Dev.get_set_lt _ _ (by simp [Fld.fits, fiF]) (by simp [fiF])),
    ht.raised.2 (hraise.only hset (by simp) ?_), ?_, ?_, ht.only.2 ?_⟩
  · have hc : R.hrtEvtSrcCtl 0xFC < 0x81000 := by decide
    simp
    omega
  · exact (ht.get _).trans ((hset.get_eq (by simp [F.hrtFiGlobalLastinj]; omega) (by decide) (by simp)).trans hlast)
  · exact (ht.get _).trans ((Dev.get_set_ne _ _ (by simp [fiF_addr])).trans ((Dev.get_congr hwr _).trans hcnt))
  · exact (hon.mono (by simp) (by simp)).trans (hset.mono (by simp) (by simp))

/-- Settles O53, clause by clause: arming and disarming, KILL, a unit passed, dropped, corrupted and held, and one held too long. -/
theorem injectorsArmActAndStop : Obligations.InjectorsArmActAndStop := by
  unfold Obligations.InjectorsArmActAndStop
  refine ⟨?_, ?_, ?_, ?_, ?_, ?_, ?_, ?_, ?_⟩
  · intro i
    refine State.of_sent ?_ fun s h => by simp -implicitDefEqProofs only [Dev.takes_setOut, Dev.withField_setOut] at h; exact h
    exact fun s hs ht hoff => State.fiArm_arms hs ht hoff
  · intro i
    refine State.of_sent ?_ fun s h => by simp -implicitDefEqProofs only [Dev.takes_setOut, Dev.withField_setOut] at h; exact h
    exact fun s hs ht _ harm hheld => State.fiDisarm_ends hs ht harm hheld
  · intro i u
    refine State.of_sent ?_ fun s h => by simp -implicitDefEqProofs only [Dev.takes_setOut, Dev.withField_setOut] at h; exact h
    exact fun s hs ht hi hok hdir hh => State.fiDisarm_releases hs ht hi hok hdir hh
  · refine State.of_sent ?_ fun s h => by simp -implicitDefEqProofs only [Dev.takes_setOut, Dev.withField_setOut] at h; exact h
    exact fun s hs ht hidle => State.fiKill_disarms hs ht hidle
  · intro i u
    refine State.of_sent ?_ fun s h => by simp -implicitDefEqProofs only [Dev.takes_setOut, Dev.withField_setOut] at h; exact h
    exact fun s hs ht hi hok hh hdir hidle => State.fiKill_releases hs ht hi hok hh hdir hidle
  · intro i a b bytes
    refine State.of_sent ?_ fun s h => h
    exact fun s hs hi hrel h1 h2 harm hd hheld => State.fiUnit_passes hs hi hrel h1 h2 harm hd hheld
  · intro i a b act bytes
    refine State.of_sent ?_ fun s h => h
    exact fun s hs hi hrel h1 h2 harm hd hm hn hlim hsel hheld hact hle => State.fiUnit_acts hs hi hrel h1 h2 harm hd hm hn hlim hsel hheld hact hle
  · intro i a b bytes
    refine State.of_sent ?_ fun s h => h
    exact fun s hs hi harm hd hm hn hlim hsel hheld hact _ => State.fiUnit_holds hs hi harm hd hm hn hlim hsel hheld hact
  · intro i u
    refine State.of_sent ?_ fun s h => h
    exact fun s hs hi hok hdir hh => State.fiHoldTo_releases hs hi hok hdir hh

end Sys2Proof.Machine
end

section
/-!
PROOFS. BAR0 accesses as they complete (O55).
-/

namespace Sys2Proof.Machine

set_option Elab.async false

/-! ### An access error as it is recorded (R428, R457) -/

/-- An access error: its code, cord, direction and address, the count of them, and REG_REJECT. -/
theorem Dev.accessError_shows (d : Dev) {c : Nat} (hc : c < 256) (a : Nat) (wr : Bool) :
    let e := d.accessError c a wr
    e.get F.hrtGlbAerrCode = c ∧ e.get F.hrtGlbAerrCord = cordOf a % 16 ∧ e.get F.hrtGlbAerrWr = (if wr then 1 else 0) ∧ e.get F.hrtGlbAerrStk = 1
      ∧ e.get F.hrtGlbAerrCount = satAdd 16 (d.get F.hrtGlbAerrCount) 1 ∧ e.aerrAdr = a ∧ d.Raised 0x01 e ∧ d.Only [R.hrtGlbAerr] [0x01] e := by
  have hon := d.accessError_only c a wr
  rw [Dev.accessError_eq] at hon ⊢
  have hget : ∀ f : Fld, f.addr = R.hrtGlbAerr → (((d.markAerr c a wr).setAerrAdr a).raiseWords 0x01 [(d.markAerr c a wr).reg R.hrtGlbAerr, BitVec.ofNat 32 a]).get f
      = (d.markAerr c a wr).get f := fun f hf => (Dev.get_raiseWords _ _ _ neverRaised_rejection (by rw [hf]; decide)).trans (Dev.get_setAerrAdr _ _ _)
  have hmark : d.Only [R.hrtGlbAerr] [] ((d.markAerr c a wr).setAerrAdr a) := (d.markAerr_only c a wr []).congr (Dev.setAerrAdr_keeps _ a).1
  have hadr : ((d.markAerr c a wr).setAerrAdr a).aerrAdr = a := rfl
  refine ⟨(hget _ rfl).trans (d.markAerr_code hc a wr), (hget _ rfl).trans ?_, (hget _ rfl).trans ?_, (hget _ rfl).trans ?_, (hget _ rfl).trans ?_,
    (Dev.raiseWords_quiet _ _ _ neverRaised_rejection).aerrAdr.trans hadr, hmark.raised_raiseWords _ _ (by simp) (by decide) neverRaised_rejection, hon⟩
  all_goals unfold Dev.markAerr Dev.count Dev.setFlag
  · simp -implicitDefEqProofs (disch := decide) only [Dev.get_set_off, Dev.get_set_on]
    exact Nat.mod_eq_of_lt (Nat.mod_lt _ (by decide))
  · simp -implicitDefEqProofs (disch := decide) only [Dev.get_set_off, Dev.get_set_on]
    cases wr <;> rfl
  · simp -implicitDefEqProofs (disch := decide) only [Dev.get_set_off, Dev.get_set_on]
    rfl
  · simp -implicitDefEqProofs (disch := decide) only [Dev.get_set_off, Dev.get_set_on]
    have hlt := d.get_lt F.hrtGlbAerrCount
    refine Nat.mod_eq_of_lt ?_
    show satAdd 16 _ 1 < 2 ^ 16
    unfold satAdd
    omega

/-- What an access that no register answers leaves: its error, and for a cord that has failed or is Held its event (R387, R456). -/
def Dev.accessMet (d : Dev) (c a : Nat) (wr : Bool) : Dev := (d.accessError c a wr).accessFailed c (cordOf a)

theorem Dev.accessMet_shows (d : Dev) {c : Nat} (hc : c < 256) (a : Nat) (wr : Bool) :
    let e := d.accessMet c a wr
    e.get F.hrtGlbAerrCode = c ∧ e.get F.hrtGlbAerrCord = cordOf a % 16 ∧ e.get F.hrtGlbAerrWr = (if wr then 1 else 0) ∧ e.get F.hrtGlbAerrStk = 1
      ∧ e.get F.hrtGlbAerrCount = satAdd 16 (d.get F.hrtGlbAerrCount) 1 ∧ e.aerrAdr = a ∧ d.Raised 0x01 e ∧ (c = 4 ∨ c = 5 → d.Raised 0x17 e)
      ∧ d.Only [R.hrtGlbAerr] (if c = 4 ∨ c = 5 then [0x01, 0x17] else [0x01]) e := by
  obtain ⟨h1, h2, h3, h4, h5, h6, h7, hon⟩ := d.accessError_shows hc a wr
  unfold Dev.accessMet Dev.accessFailed
  generalize d.accessError c a wr = x at *
  by_cases h : c = 4 ∨ c = 5
  · rw [if_pos h, show (c == 4 || c == 5) = true by simpa using h, Dev.when_true]
    have hget : ∀ f : Fld, f.addr < 0x80000 ∨ 0x81000 ≤ f.addr → (x.raise 0x17 [R.hrtPwrCord (cordOf a)]).get f = x.get f := fun f hf => Dev.get_raise _ _ _ hf
    have hr : x.Only [] [0x17] (x.raise 0x17 [R.hrtPwrCord (cordOf a)]) := (Dev.Only.refl _ _ x).raise _ _ (by simp)
    exact ⟨(hget _ (.inl (by decide))).trans h1, (hget _ (.inl (by decide))).trans h2, (hget _ (.inl (by decide))).trans h3, (hget _ (.inl (by decide))).trans h4,
      (hget _ (.inl (by decide))).trans h5, (Dev.raise_quiet x 0x17 _).aerrAdr.trans h6, h7.only hr (by simp) (by simp),
      fun _ => hon.raised_raise (n := 0x17) _ (by simp) (by decide) (by decide), (hon.mono (by simp) (by simp)).trans (hr.mono (by simp) (by simp))⟩
  · rw [if_neg h, show (c == 4 || c == 5) = false by simpa using h, Dev.when_false]
    exact ⟨h1, h2, h3, h4, h5, h6, h7, fun hx => absurd hx h, hon⟩

/-! ### Accesses that meet a code, and accesses that wait (R30, R387, R456) -/

/-- An access that meets a code on its path is neither woken for nor made to wait. -/
theorem Dev.arrive_met {d : Dev} {a size k : Nat} {w : Option Word} (hwait : d.waiting = []) (h12 : d.cordSt 12 ≠ 0) (hup : d.get F.pciEpStatDlup = 1)
    (hpath : d.pathCode a size = k) (hk : k ≠ 0) (fz : Fuses) (written : List (BitVec 64)) :
    ∃ x : Access, x.addr = a ∧ x.size = size ∧ x.write = w ∧ x.at_ = d.time.ticks ∧ x.written = written
      ∧ d.arrive fz a size w written = ((d.setWaiting [x]).complete fz x).setWaiting [] := by
  refine ⟨{ addr := a, size := size, write := w, at_ := d.time.ticks, written := written }, rfl, rfl, rfl, rfl, rfl, ?_⟩
  generalize hx : ({ addr := a, size := size, write := w, at_ := d.time.ticks, written := written } : Access) = x
  have hxa : x.addr = a ∧ x.size = size := by rw [← hx]; exact ⟨rfl, rfl⟩
  have hcode : (d.setWaiting [x]).pathCode x.addr x.size = k := by rw [hxa.1, hxa.2, Dev.pathCode_setWaiting, hpath]
  have hwake : (d.setWaiting [x]).wakeFor x = d.setWaiting [x] := by
    unfold Dev.wakeFor
    rw [hcode, show (k == 0) = false by simpa using hk]
    rfl
  have hmust : (d.setWaiting [x]).mustWait x = false := by
    unfold Dev.mustWait
    rw [hcode, show (k == 0) = false by simpa using hk]
    rfl
  calc d.arrive fz a size w written
      = (d.setWaiting [x]).serve fz := by
        unfold Dev.arrive
        rw [if_neg (by simp [h12, Dev.flag, hup]), hwait, hx]
        rfl
    _ = Dev.serveList fz [x] (d.setWaiting [x]) := by
        unfold Dev.serve
        rw [show (d.setWaiting [x]).waiting = [x] from rfl, Dev.each_cons, Dev.each_nil, hwake]
        rfl
    _ = ((d.setWaiting [x]).complete fz x).setWaiting [] := by
        simp only [Dev.serveList, hwake, hmust]
        rfl

theorem Dev.pathCode_lt (d : Dev) (a size : Nat) : d.pathCode a size < 6 := by
  unfold Dev.pathCode
  dsimp only
  repeat' split
  all_goals decide

theorem State.write_met {s : State} {a : BitVec 28} {size : Nat} {v : Word} {k : Nat} (hs : s.dev.out = []) (hwait : s.dev.waiting = []) (h12 : s.dev.cordSt 12 ≠ 0)
    (hup : s.dev.get F.pciEpStatDlup = 1) (hpath : s.dev.pathCode a.toNat size = k) (hk : k ≠ 0) :
    ∃ t, exec (.registerWrite a size v) s = .next t ∧ t.outputs.head? = some (.writeDone a.toNat k)
      ∧ t.dev.get F.hrtGlbAerrCode = k ∧ t.dev.get F.hrtGlbAerrCord = cordOf a.toNat % 16 ∧ t.dev.get F.hrtGlbAerrWr = 1
      ∧ t.dev.get F.hrtGlbAerrStk = 1 ∧ t.dev.aerrAdr = a.toNat ∧ s.dev.Raised 0x01 t.dev
      ∧ (k = 4 ∨ k = 5 → s.dev.Raised 0x17 t.dev)
      ∧ s.dev.Only [R.hrtGlbAerr] (if k = 4 ∨ k = 5 then [0x01, 0x17] else [0x01]) t.dev := by
  obtain ⟨x, hxa, hxs, hxw, -, -, harr⟩ := Dev.arrive_met (w := some v) hwait h12 hup hpath hk s.fuses []
  have hdone : (s.dev.setWaiting [x]).complete s.fuses x = ((s.dev.setWaiting [x]).accessMet k a.toNat true).emit (.writeDone a.toNat k) := by
    unfold Dev.complete Dev.writeAccess
    rw [hxw, hxa, hxs]
    dsimp only
    rw [Dev.pathCode_setWaiting, hpath, if_pos hk]
    dsimp only
    rw [if_neg hk]
    rfl
  obtain ⟨h1, h2, h3, h4, -, h6, h7, h8, hon⟩ := (s.dev.setWaiting [x]).accessMet_shows (c := k) ((hpath ▸ s.dev.pathCode_lt _ _).trans (by decide)) a.toNat true
  simp only [exec, execRegisterWrite]
  refine State.run_ends hs rfl fun t ht hout hfz => ?_
  rw [harr, hdone] at ht hout
  generalize (s.dev.setWaiting [x]).accessMet k a.toNat true = y at *
  refine ⟨by rw [hout]; rfl, (ht.get _).trans h1, (ht.get _).trans h2, (ht.get _).trans h3, (ht.get _).trans h4, ht.same.aerrAdr.trans h6, ht.raised.2 h7, fun h => ht.raised.2 (h8 h), ?_⟩
  exact ht.only.2 hon

theorem State.read_met {s : State} {a : BitVec 28} {size k : Nat} (hs : s.dev.out = []) (hwait : s.dev.waiting = []) (h12 : s.dev.cordSt 12 ≠ 0)
    (hup : s.dev.get F.pciEpStatDlup = 1) (hpath : s.dev.pathCode a.toNat size = k) (hk : k ≠ 0) :
    ∃ t, exec (.rcFieldRead a size) s = .next t ∧ t.dev.get F.hrtGlbAerrCode = k ∧ t.dev.get F.hrtGlbAerrWr = 0
      ∧ t.dev.aerrAdr = a.toNat ∧ t.outputs.head? = some (if k = 4 then .readDone a.toNat (BitVec.ofNat 32 (0xFA110000 + cordOf a.toNat))
          else if k = 5 then .readDone a.toNat 0 else .readUnsupported a.toNat)
      ∧ s.dev.Only [R.hrtGlbAerr] (if k = 4 ∨ k = 5 then [0x01, 0x17] else [0x01]) t.dev := by
  obtain ⟨x, hxa, hxs, hxw, hxt, -, harr⟩ := Dev.arrive_met (w := none) hwait h12 hup hpath hk s.fuses []
  have htime : ((s.dev.setWaiting [x]).accessMet k a.toNat false).time = s.dev.time := by
    have h1 : ((s.dev.setWaiting [x]).accessError k a.toNat false).time = s.dev.time := (Dev.accessError_goes _ _ _ _).parts .time (by decide)
    unfold Dev.accessMet Dev.accessFailed
    generalize (s.dev.setWaiting [x]).accessError k a.toNat false = y at *
    cases (k == 4 || k == 5)
    · exact h1
    · exact (Dev.raise_quiet y 0x17 _).time.trans h1
  have hdone : ∃ o, o = (if k = 4 then Output.readDone a.toNat (BitVec.ofNat 32 (0xFA110000 + cordOf a.toNat)) else if k = 5 then .readDone a.toNat 0 else .readUnsupported a.toNat)
      ∧ (s.dev.setWaiting [x]).complete s.fuses x = ((s.dev.setWaiting [x]).accessMet k a.toNat false).emit o := by
    refine ⟨_, rfl, ?_⟩
    have hread : (s.dev.setWaiting [x]).readAccess s.fuses a.toNat size = ((s.dev.setWaiting [x]).accessMet k a.toNat false).emit
        (if k = 4 then .readDone a.toNat (BitVec.ofNat 32 (0xFA110000 + cordOf a.toNat)) else if k = 5 then .readDone a.toNat 0 else .readUnsupported a.toNat) := by
      unfold Dev.readAccess
      dsimp only
      rw [Dev.pathCode_setWaiting, hpath, if_neg hk]
      split
      · rfl
      · split <;> rfl
    unfold Dev.complete
    rw [hxw, hxa, hxs]
    dsimp only
    rw [hread]
    generalize (s.dev.setWaiting [x]).accessMet k a.toNat false = y at *
    unfold Dev.lateness
    rw [Dev.emit_time, htime, hxt, Nat.sub_self, Nat.zero_mul, decide_eq_false (Nat.not_lt_zero _), Bool.and_false, Dev.when_false]
  obtain ⟨o, ho, hdone⟩ := hdone
  obtain ⟨h1, -, h3, -, -, h6, -, -, hon⟩ := (s.dev.setWaiting [x]).accessMet_shows (c := k) ((hpath ▸ s.dev.pathCode_lt _ _).trans (by decide)) a.toNat false
  simp only [exec, execRcFieldRead]
  refine State.run_ends hs rfl fun t ht hout hfz => ?_
  rw [harr, hdone] at ht hout
  generalize (s.dev.setWaiting [x]).accessMet k a.toNat false = y at *
  refine ⟨(ht.get _).trans h1, (ht.get _).trans h3, ht.same.aerrAdr.trans h6, by rw [hout, ← ho]; rfl, ht.only.2 hon⟩

theorem State.write_waits {s : State} {a : BitVec 28} {v : Word} (hs : s.dev.out = []) (hwait : s.dev.waiting = []) (h12 : s.dev.cordSt 12 ≠ 0) (hup : s.dev.get F.pciEpStatDlup = 1)
    (hpath : s.dev.pathCode a.toNat 4 = 0) (hst : s.dev.cordSt (cordOf a.toNat) = 1) :
    ∃ t, exec (.registerWrite a 4 v) s = .next t
      ∧ t.dev.waiting = [{ addr := a.toNat, size := 4, write := some v, at_ := s.dev.time.ticks }] ∧ t.outputs = s.outputs
      ∧ s.dev.Only [] [] t.dev := by
  have hc0 : cordOf a.toNat ≠ 0 := fun h => by simp [h, Dev.cordSt] at hst
  generalize hx : ({ addr := a.toNat, size := 4, write := some v, at_ := s.dev.time.ticks } : Access) = x
  have hxa : x.addr = a.toNat ∧ x.size = 4 := by rw [← hx]; exact ⟨rfl, rfl⟩
  have hstx : (s.dev.setWaiting [x]).cordSt (cordOf x.addr) = 1 := by rw [hxa.1]; exact hst
  have hwake : (s.dev.setWaiting [x]).wakeFor x = s.dev.setWaiting [x] := by
    unfold Dev.wakeFor
    rw [hstx]
    simp
  have hmust : (s.dev.setWaiting [x]).mustWait x = true := by
    unfold Dev.mustWait
    dsimp only
    rw [hstx, hxa.1, hxa.2, Dev.pathCode_setWaiting, hpath]
    simpa using hc0
  have harr : s.dev.arrive s.fuses a.toNat 4 (some v) [] = s.dev.setWaiting [x] := by
    calc s.dev.arrive s.fuses a.toNat 4 (some v) []
        = (s.dev.setWaiting [x]).serve s.fuses := by
          unfold Dev.arrive
          rw [if_neg (by simp [h12, Dev.flag, hup]), hwait, ← hx]
          rfl
      _ = Dev.serveList s.fuses [x] (s.dev.setWaiting [x]) := by
          unfold Dev.serve
          rw [show (s.dev.setWaiting [x]).waiting = [x] from rfl, Dev.each_cons, Dev.each_nil, hwake]
          rfl
      _ = s.dev.setWaiting [x] := by
          simp only [Dev.serveList, hwake, hmust]
          rfl
  simp only [exec, execRegisterWrite]
  refine State.run_ends hs rfl fun t ht hout hfz => ?_
  rw [harr] at ht hout
  exact ⟨ht.same.waiting, by rw [hout]; exact congrArg (· ++ s.outputs) hs, ht.only.2 (Dev.Only.of_regs rfl _ _)⟩

/-! ### Registers that only store what is written (R7, R66) -/

/-- Registers whose write acts on nothing but what an engine holds back of it. -/
def plainNames : List RegName := [.hrtCfgDrain, .hrtPwrCfg, .hrtPwrRetain, .hrtPwrEmbwin, .hrtSnsTthr, .hrtSnsRlim, .hrtTimInc, .hrtTimStepns,
  .hrtTimPpsnext, .hrtTimPpsper, .hrtTimSecbasehi, .hrtTimSecbaselo, .pciEpCfg, .bufQPar, .bufQLim, .bufQShp, .bufPoolLow,
  .bufPclsMax, .pktClsMirror, .hsMacFc, .hsMacFcthr, .hsLnCfg, .cvTrdArg, .cvTrdCfg, .leRxcCdcfg, .leRxcCfg]

theorem plainNames_plain : ∀ n ∈ plainNames, n.plainWrite = true := by decide

/-- None of them is a ring's. -/
theorem regTable_plain : ∀ row ∈ regTable, row.name ∈ plainNames → row.cord + row.cords ≤ 12 ∨ row.cord + row.cords ≤ 13 ∧ row.blk + row.blks ≤ 0x10 := by decide +kernel

/-- What such a write does beside storing shows nowhere. -/
theorem Dev.writeGo_plain (d : Dev) {r : RegAt} (h : r.row.name ∈ plainNames) (fz : Fuses) (old v : Word) (written : List (BitVec 64)) :
    (d.writeGo fz r old v written).regs = d.regs ∧ (d.writeGo fz r old v written).out = d.out := by
  have hhold : (d.holdBack r old v).regs = d.regs ∧ (d.holdBack r old v).out = d.out := by
    unfold Dev.holdBack
    dsimp only
    split <;> exact ⟨rfl, rfl⟩
  simp only [plainNames, List.mem_cons, List.not_mem_nil, or_false] at h
  unfold Dev.writeGo
  rcases h with h | h | h | h | h | h | h | h | h | h | h | h | h | h | h | h | h | h | h | h | h | h | h | h | h | h <;> rw [h] <;> dsimp only
  all_goals try exact hhold
  all_goals exact ⟨rfl, rfl⟩

theorem ringsUp_plain {d : Dev} {a : Nat} {r : RegAt} (hr : decodeAddr a = some r) (h : r.row.name ∈ plainNames) : d.ringsUp a := by
  refine Dev.ringsUp_of_lt ?_
  unfold decodeAddr at hr
  split at hr
  · next hlt =>
    obtain ⟨hm, hh⟩ := findRow_holds hr
    simp only [RegRow.holds, Bool.and_eq_true, decide_eq_true_eq] at hh
    have := regTable_plain _ hm h
    simp only [R.pciRxgBaselo]
    omega
  · exact absurd hr (by simp)

theorem State.write_stores {s : State} {a : BitVec 28} {v : Word} {r : RegAt} (hs : s.dev.out = []) (ht : s.dev.Takes a.toNat v) (he : emberOfs a.toNat = none)
    (hr : decodeAddr a.toNat = some r) (hn : r.row.name ∈ plainNames) :
    ∃ t, exec (.registerWrite a 4 v) s = .next t ∧ t.dev.reg a.toNat = r.row.merge (s.dev.reg a.toNat) v
      ∧ t.outputs = .writeDone a.toNat 0 :: s.outputs ∧ s.dev.Only [a.toNat] [] t.dev := by
  simp only [exec, execRegisterWrite]
  refine State.plainWrite_takes (u := fun _ => v) (v := v)
    (g := fun d => (d.setReg a.toNat (r.row.merge (d.reg a.toNat) v)).writeGo s.fuses r (d.reg a.toNat) v [])
    hs rfl rfl ht he hr (plainNames_plain _ hn) (ringsUp_plain hr hn) (fun _ => rfl) fun l t hends hout => ?_
  obtain ⟨hregs, ho⟩ := ((s.dev.setWaiting l).setReg a.toNat (r.row.merge ((s.dev.setWaiting l).reg a.toNat) v)).writeGo_plain hn s.fuses ((s.dev.setWaiting l).reg a.toNat) v []
  have hreg : ∀ b, t.dev.reg b = ((s.dev.setWaiting l).setReg a.toNat (r.row.merge ((s.dev.setWaiting l).reg a.toNat) v)).reg b := fun b => (hends.reg b).trans (Dev.reg_congr hregs b)
  have hstore : ((s.dev.setWaiting l).setReg a.toNat (r.row.merge ((s.dev.setWaiting l).reg a.toNat) v)).out = [] := hs
  refine ⟨(hreg _).trans (Dev.reg_setReg_self _ _ _), by rw [hout, ho, hstore]; rfl, fun b hb _ => (hreg b).trans (Dev.reg_setReg_ne _ _ (by simpa using hb))⟩

/-- A write that meets a code of its register (R456, R457). -/
theorem State.write_rejected {s : State} {a : BitVec 28} {v : Word} {r : RegAt} {k : Nat} (hs : s.dev.out = []) (ha : s.dev.Answers a.toNat) (he : emberOfs a.toNat = none)
    (hr : decodeAddr a.toNat = some r) (hk : s.dev.writeCode a.toNat r v true = k) (hmem : k ∈ [6, 7, 8, 9, 10]) :
    ∃ t, exec (.registerWrite a 4 v) s = .next t ∧ t.outputs.head? = some (.writeDone a.toNat k)
      ∧ t.dev.get F.hrtGlbAerrCode = k ∧ t.dev.get F.hrtGlbAerrCord = cordOf a.toNat % 16 ∧ t.dev.get F.hrtGlbAerrWr = 1
      ∧ t.dev.get F.hrtGlbAerrStk = 1 ∧ t.dev.get F.hrtGlbAerrCount = satAdd 16 (s.dev.get F.hrtGlbAerrCount) 1
      ∧ t.dev.aerrAdr = a.toNat ∧ s.dev.Raised 0x01 t.dev ∧ s.dev.Only [R.hrtGlbAerr] [0x01] t.dev := by
  obtain ⟨l, hl⟩ := Dev.arrive_write_of_answers ha s.fuses v []
  simp only [List.mem_cons, List.not_mem_nil, or_false] at hmem
  rw [Dev.writeAccess_refused ((Dev.pathCode_setWaiting _ _ _ _).trans ha.pathCode) he hr ((Dev.writeCode_setWaiting _ _ _ _ _ _).trans hk) (by omega) (by omega) (by omega)] at hl
  obtain ⟨h1, h2, h3, h4, h5, h6, h7, hon⟩ := (s.dev.setWaiting l).accessError_shows (c := k) (by omega) a.toNat true
  simp only [exec, execRegisterWrite]
  refine State.run_ends hs rfl fun t ht hout hfz => ?_
  rw [hl] at ht hout
  generalize (s.dev.setWaiting l).accessError k a.toNat true = y at *
  exact ⟨by rw [hout]; rfl, (ht.get _).trans h1, (ht.get _).trans h2, (ht.get _).trans h3, (ht.get _).trans h4, (ht.get _).trans h5, ht.same.aerrAdr.trans h6, ht.raised.2 h7,
    ht.only.2 hon⟩

/-! ### Reads that clear (R7, R457) -/

/-- What a reading leaves of a field. -/
theorem RegRow.of_afterRead {r : RegRow} {l : List FieldRow} (hl : r.fields = l) (hsound : FieldRow.sound l) {f : FieldRow} (hf : f ∈ l) {g : Fld} (hlsb : g.lsb = f.lsb)
    (hwidth : g.width = f.width) (a : Nat) (v : Word) : g.of (r.afterRead a v) = if f.ty = .rc then g.of (regReset a) else g.of v := by
  have hg : g.of = (f.fld 0).of := by
    funext w
    simp only [Fld.of, FieldRow.fld, hlsb, hwidth]
  have hlocal : FieldRow.Local (fun x f => match f.ty with
      | .rc => (f.fld 0).put x ((f.fld 0).of (regReset a))
      | .rw | .rwq | .wo | .w1c | .ro => x) l := by
    refine ⟨fun x _ g a hg hc => ?_, fun x hx a b h => ?_⟩
    · cases x.ty
      case rc => exact Fld.of_put_apart _ _ _ _ hg hc.symm
      all_goals rfl
    · cases x.ty
      case rc => exact (Fld.of_put _ _ _ (hsound.1 x hx).1).trans (Fld.of_put _ _ _ (hsound.1 x hx).1).symm
      all_goals exact h
  have hfold : (f.fld 0).of (r.afterRead a v) = (f.fld 0).of (match f.ty with
      | .rc => (f.fld 0).put v ((f.fld 0).of (regReset a))
      | .rw | .rwq | .wo | .w1c | .ro => v) := by
    unfold RegRow.afterRead
    rw [hl]
    exact FieldRow.of_foldl hlocal hsound hf v
  rw [hg, hfold]
  cases f.ty
  case rc => exact (Fld.of_put _ _ _ (hsound.1 f hf).1).trans (Nat.mod_eq_of_lt (Nat.mod_lt _ (Nat.two_pow_pos _)))
  all_goals rfl

def aerrFields : List FieldRow := [⟨0, 8, .ro, .any⟩, ⟨8, 4, .ro, .any⟩, ⟨12, 1, .ro, .any⟩, ⟨13, 1, .w1c, .any⟩, ⟨16, 16, .rc, .any⟩]

theorem aerrFields_sound : FieldRow.sound aerrFields := by simp [FieldRow.sound, FieldRow.clear, aerrFields]

theorem decodeAddr_aerr : ∃ r, decodeAddr R.hrtGlbAerr = some r ∧ r.row.name = .hrtGlbAerr ∧ r.row.fields = aerrFields := by
  have h : (decodeAddr R.hrtGlbAerr).map (fun r => (r.row.name, r.row.fields)) = some (.hrtGlbAerr, aerrFields) := by decide +kernel
  simpa [Option.map_eq_some_iff] using h

theorem regReset_aerr : regReset R.hrtGlbAerr = 0#32 := by decide +kernel

theorem regReset_drain : regReset R.hrtCfgDrain = 0xA#32 := by decide +kernel

/-- What the reading of a register leaves of the device: the register as its reading leaves it, a field written beside it, and no output of its own. -/
theorem Dev.read_leaves (d : Dev) (l : List Access) (a : Nat) (v : Word) (o : Output) : ((d.setWaiting l).setReg a v).out = d.out
    ∧ ((((d.setWaiting l).setReg a v).emit o).setWaiting []).reg a = v ∧ d.Only [a] [] ((((d.setWaiting l).setReg a v).emit o).setWaiting []) :=
  ⟨rfl, Dev.reg_setReg_self _ _ _, (Dev.Only.setReg (d := d) (e := d.setWaiting l) (Dev.Only.of_regs rfl _ _) v (List.mem_singleton.2 rfl)).congr rfl⟩

theorem Dev.read_latches (d : Dev) (l : List Access) {a : Nat} (v : Word) {g : Fld} (n : Nat) (o : Output) (hg : g.fits) (ha : a ≠ g.addr) :
    (((d.setWaiting l).setReg a v).set g n).out = d.out ∧ (((((d.setWaiting l).setReg a v).set g n).emit o).setWaiting []).reg a = v
    ∧ (((((d.setWaiting l).setReg a v).set g n).emit o).setWaiting []).get g = n % 2 ^ g.width
    ∧ d.Only [a, g.addr] [] (((((d.setWaiting l).setReg a v).set g n).emit o).setWaiting []) :=
  ⟨rfl, (Dev.reg_set_ne _ _ ha).trans (Dev.reg_setReg_self _ _ _), Dev.get_set_self _ _ _ hg,
    (Dev.Only.set (Dev.Only.setReg (d := d) (e := d.setWaiting l) (Dev.Only.of_regs rfl _ _) v (by simp)) g n (by simp)).congr rfl⟩

theorem State.aerrRead_shows {s : State} (hs : s.dev.out = []) (ha : s.dev.Answers R.hrtGlbAerr) :
    ∃ t x, exec .aerrRead s = .next t ∧ t.outputs = .readDone R.hrtGlbAerr x :: s.outputs
      ∧ F.hrtGlbAerrCode.of x = s.dev.get F.hrtGlbAerrCode ∧ F.hrtGlbAerrCord.of x = s.dev.get F.hrtGlbAerrCord
      ∧ F.hrtGlbAerrWr.of x = s.dev.get F.hrtGlbAerrWr ∧ F.hrtGlbAerrStk.of x = s.dev.get F.hrtGlbAerrStk
      ∧ F.hrtGlbAerrCount.of x = s.dev.get F.hrtGlbAerrCount ∧ t.dev.get F.hrtGlbAerrCount = 0
      ∧ t.dev.get F.hrtGlbAerrCode = s.dev.get F.hrtGlbAerrCode ∧ t.dev.get F.hrtGlbAerradrAddr = s.dev.aerrAdr % 2 ^ 32
      ∧ s.dev.Only [R.hrtGlbAerr, R.hrtGlbAerradr] [] t.dev := by
  obtain ⟨r, hr, hn, hf⟩ := decodeAddr_aerr
  suffices h : ∃ t, exec .aerrRead s = .next t ∧ ∃ x, t.outputs = .readDone R.hrtGlbAerr x :: s.outputs
      ∧ F.hrtGlbAerrCode.of x = s.dev.get F.hrtGlbAerrCode ∧ F.hrtGlbAerrCord.of x = s.dev.get F.hrtGlbAerrCord
      ∧ F.hrtGlbAerrWr.of x = s.dev.get F.hrtGlbAerrWr ∧ F.hrtGlbAerrStk.of x = s.dev.get F.hrtGlbAerrStk
      ∧ F.hrtGlbAerrCount.of x = s.dev.get F.hrtGlbAerrCount ∧ t.dev.get F.hrtGlbAerrCount = 0
      ∧ t.dev.get F.hrtGlbAerrCode = s.dev.get F.hrtGlbAerrCode ∧ t.dev.get F.hrtGlbAerradrAddr = s.dev.aerrAdr % 2 ^ 32
      ∧ s.dev.Only [R.hrtGlbAerr, R.hrtGlbAerradr] [] t.dev from by
    obtain ⟨t, ht, x, h⟩ := h
    exact ⟨t, x, ht, h⟩
  simp only [exec, execAerrRead]
  refine State.read_answers (a := R.hrtGlbAerr) (r := r) hs rfl ha (by decide) hr
    (g := fun d => (d.setReg R.hrtGlbAerr (r.row.afterRead R.hrtGlbAerr (d.reg R.hrtGlbAerr))).set F.hrtGlbAerradrAddr d.aerrAdr) (fun d => by unfold Dev.readEffect; rw [hn])
    fun l t ht hout => ⟨(s.dev.setWaiting l).readValue s.fuses R.hrtGlbAerr r, ?_, ?_⟩
  · rw [hout, (s.dev.read_latches l (g := F.hrtGlbAerradrAddr) _ _ (.readDone 0 0) (by simp [Fld.fits, F.hrtGlbAerradrAddr]) (by decide)).1, hs]
    rfl
  · have hraw : (s.dev.setWaiting l).rawValue s.fuses R.hrtGlbAerr r = s.dev.reg R.hrtGlbAerr := by
      unfold Dev.rawValue
      rw [hn]
      rfl
    have hval : ∀ (g : Fld) (f : FieldRow), f ∈ aerrFields → f.ty ≠ .wo → g.lsb = f.lsb → g.width = f.width → g.of ((s.dev.setWaiting l).readValue s.fuses R.hrtGlbAerr r)
        = g.of (s.dev.reg R.hrtGlbAerr) := fun g f hm hty hl hw => by
      unfold Dev.readValue
      rw [RegRow.of_only hf aerrFields_sound hm hl hw, hraw, if_pos (by simpa using hty)]
    obtain ⟨-, hown, hlatch, honly⟩ := s.dev.read_latches l (r.row.afterRead R.hrtGlbAerr (s.dev.reg R.hrtGlbAerr)) (g := F.hrtGlbAerradrAddr) s.dev.aerrAdr
      (.readDone R.hrtGlbAerr ((s.dev.setWaiting l).readValue s.fuses R.hrtGlbAerr r)) (by simp [Fld.fits, F.hrtGlbAerradrAddr]) (show R.hrtGlbAerr ≠ _ by decide)
    have hreg := (ht.reg _).trans hown
    refine ⟨hval _ ⟨0, 8, .ro, .any⟩ (by simp [aerrFields]) (by simp) rfl rfl, hval _ ⟨8, 4, .ro, .any⟩ (by simp [aerrFields]) (by simp) rfl rfl,
      hval _ ⟨12, 1, .ro, .any⟩ (by simp [aerrFields]) (by simp) rfl rfl, hval _ ⟨13, 1, .w1c, .any⟩ (by simp [aerrFields]) (by simp) rfl rfl,
      hval _ ⟨16, 16, .rc, .any⟩ (by simp [aerrFields]) (by simp) rfl rfl, ?_, ?_, ?_, ?_⟩
    · rw [Dev.get, show F.hrtGlbAerrCount.addr = R.hrtGlbAerr from rfl, hreg, RegRow.of_afterRead hf aerrFields_sound (f := ⟨16, 16, .rc, .any⟩) (by simp [aerrFields]) rfl rfl, if_pos rfl,
        regReset_aerr]
      rfl
    · rw [Dev.get, show F.hrtGlbAerrCode.addr = R.hrtGlbAerr from rfl, hreg, RegRow.of_afterRead hf aerrFields_sound (f := ⟨0, 8, .ro, .any⟩) (by simp [aerrFields]) rfl rfl, if_neg (by simp)]
      rfl
    · exact (ht.get _).trans hlatch
    · exact ht.only.2 honly

theorem State.drainRead_clears {s : State} {a : BitVec 28} (hs : s.dev.out = []) (haddr : a.toNat = R.hrtCfgDrain) (ha : s.dev.Answers R.hrtCfgDrain) :
    ∃ t x, exec (.rcFieldRead a 4) s = .next t ∧ t.outputs = .readDone R.hrtCfgDrain x :: s.outputs
      ∧ F.hrtCfgDrainDraindrop.of x = s.dev.get F.hrtCfgDrainDraindrop ∧ F.hrtCfgDrainDrainto.of x = s.dev.get F.hrtCfgDrainDrainto
      ∧ t.dev.get F.hrtCfgDrainDraindrop = 0 ∧ t.dev.get F.hrtCfgDrainDrainto = s.dev.get F.hrtCfgDrainDrainto
      ∧ s.dev.Only [R.hrtCfgDrain] [] t.dev := by
  obtain ⟨r, hr, hn, hf, -⟩ := decodeAddr_hrtCfgDrain
  have hsound : FieldRow.sound [⟨0, 8, .rw, .nat 1 255⟩, ⟨16, 16, .rc, .any⟩] := by simp [FieldRow.sound, FieldRow.clear]
  suffices h : ∃ t, exec (.rcFieldRead a 4) s = .next t ∧ ∃ x, t.outputs = .readDone R.hrtCfgDrain x :: s.outputs
      ∧ F.hrtCfgDrainDraindrop.of x = s.dev.get F.hrtCfgDrainDraindrop ∧ F.hrtCfgDrainDrainto.of x = s.dev.get F.hrtCfgDrainDrainto
      ∧ t.dev.get F.hrtCfgDrainDraindrop = 0 ∧ t.dev.get F.hrtCfgDrainDrainto = s.dev.get F.hrtCfgDrainDrainto
      ∧ s.dev.Only [R.hrtCfgDrain] [] t.dev from by
    obtain ⟨t, ht, x, h⟩ := h
    exact ⟨t, x, ht, h⟩
  simp only [exec, execRcFieldRead, haddr]
  refine State.read_answers (a := R.hrtCfgDrain) (r := r) hs rfl ha (by decide) hr
    (g := fun d => d.setReg R.hrtCfgDrain (r.row.afterRead R.hrtCfgDrain (d.reg R.hrtCfgDrain))) (fun d => by unfold Dev.readEffect; rw [hn]) fun l t ht hout =>
      ⟨(s.dev.setWaiting l).readValue s.fuses R.hrtCfgDrain r, ?_, ?_⟩
  · rw [hout, (s.dev.read_leaves l _ _ (.readDone 0 0)).1, hs]
    rfl
  · have hraw : (s.dev.setWaiting l).rawValue s.fuses R.hrtCfgDrain r = s.dev.reg R.hrtCfgDrain := by
      unfold Dev.rawValue
      rw [hn]
      rfl
    obtain ⟨-, hown, honly⟩ := s.dev.read_leaves l R.hrtCfgDrain (r.row.afterRead R.hrtCfgDrain (s.dev.reg R.hrtCfgDrain))
      (.readDone R.hrtCfgDrain ((s.dev.setWaiting l).readValue s.fuses R.hrtCfgDrain r))
    have hreg := (ht.reg _).trans hown
    refine ⟨?_, ?_, ?_, ?_, ht.only.2 honly⟩
    · unfold Dev.readValue
      rw [RegRow.of_only hf hsound (f := ⟨16, 16, .rc, .any⟩) (by simp) rfl rfl, hraw, if_pos (by rfl)]
      rfl
    · unfold Dev.readValue
      rw [RegRow.of_only hf hsound (f := ⟨0, 8, .rw, .nat 1 255⟩) (by simp) rfl rfl, hraw, if_pos (by rfl)]
      rfl
    · rw [Dev.get, show F.hrtCfgDrainDraindrop.addr = R.hrtCfgDrain from rfl, hreg, RegRow.of_afterRead hf hsound (f := ⟨16, 16, .rc, .any⟩) (by simp) rfl rfl, if_pos rfl, regReset_drain]
      rfl
    · rw [Dev.get, show F.hrtCfgDrainDrainto.addr = R.hrtCfgDrain from rfl, hreg, RegRow.of_afterRead hf hsound (f := ⟨0, 8, .rw, .nat 1 255⟩) (by simp) rfl rfl, if_neg (by simp)]
      rfl

/-! ### The ember window (R200, R397) -/

/-- Bytes put at consecutive places by a fold over their numbers. -/
theorem Tbl.get_foldl_range (f : Nat → Byte) (b n : Nat) (t : Tbl Byte) {k : Nat} (hk : k < n) :
    Tbl.get 0 ((List.range n).foldl (fun t i => Tbl.set 0 t (b + i) (f i)) t) (b + k) = f k := by
  induction n with
  | zero => omega
  | succ n ih =>
    rw [List.range_succ, List.foldl_append, List.foldl_cons, List.foldl_nil]
    by_cases h : k = n
    · rw [h, Tbl.get_set_self]
    · rw [Tbl.get_set_ne _ _ _ _ (by omega), ih (by omega)]

theorem Dev.writeAccess_ember {d : Dev} {a o : Nat} (hp : d.pathCode a 4 = 0) (he : emberOfs a = some o) (hbank : ¬ d.get F.hrtPwrEmbwinBank ≤ 3) (fz : Fuses) (v : Word)
    (written : List (BitVec 64)) : d.writeAccess fz a 4 v written = (d.emberWrite o v).emit (.writeDone a 0) := by
  simp [Dev.writeAccess, hp, he, hbank]

theorem State.emberWrite_stores {s : State} {a : BitVec 28} {o : Nat} {v : Word} (hs : s.dev.out = []) (he : emberOfs a.toNat = some o) (ha : s.dev.Answers a.toNat)
    (hbank : 4 ≤ s.dev.get F.hrtPwrEmbwinBank) (hkept : s.dev.ember.kept.testBit (s.dev.get F.hrtPwrEmbwinBank) = true) :
    ∃ t, exec (.registerWrite a 4 v) s = .next t ∧ t.outputs = .writeDone a.toNat 0 :: s.outputs
      ∧ (∀ k < 4, t.dev.bankByte (s.dev.get F.hrtPwrEmbwinBank) (s.dev.bankOfs o + k) = BitVec.ofNat 8 (v.toNat / 2 ^ (8 * k)))
      ∧ s.dev.Only [] [] t.dev := by
  obtain ⟨l, hl⟩ := Dev.arrive_write_of_answers ha s.fuses v []
  have hacc : (s.dev.setWaiting l).writeAccess s.fuses a.toNat 4 v [] = ((s.dev.setWaiting l).emberWrite o v).emit (.writeDone a.toNat 0) :=
    Dev.writeAccess_ember ((Dev.pathCode_setWaiting _ _ _ _).trans ha.pathCode) he (by rw [Dev.get_setWaiting]; omega) _ _ _
  have hput : (s.dev.setWaiting l).emberWrite o v = (s.dev.setWaiting l).setEmber fun m => { m with
      bytes := (List.range 4).foldl (fun t i => Tbl.set 0 t (s.dev.get F.hrtPwrEmbwinBank * 2 ^ 21 + s.dev.bankOfs o + i) (BitVec.ofNat 8 (v.toNat / 2 ^ (8 * i)))) m.bytes } := by
    unfold Dev.emberWrite
    dsimp only
    rw [show (s.dev.setWaiting l).ember.kept.testBit ((s.dev.setWaiting l).get F.hrtPwrEmbwinBank) = true from hkept, Dev.when_true]
    rfl
  rw [hacc, hput] at hl
  simp only [exec, execRegisterWrite]
  refine State.run_ends hs rfl fun t ht hout hfz => ?_
  rw [hl] at ht hout
  refine ⟨?_, fun k hk => ?_, ht.only.2 (Dev.Only.of_regs rfl _ _)⟩
  · rw [hout]
    exact congrArg (fun x : List Output => .writeDone a.toNat 0 :: x ++ s.outputs) hs
  unfold Dev.bankByte
  rw [if_neg (by omega), ht.same.ember, ← Nat.add_assoc]
  exact Tbl.get_foldl_range (fun i => BitVec.ofNat 8 (v.toNat / 2 ^ (8 * i))) (s.dev.get F.hrtPwrEmbwinBank * 2 ^ 21 + s.dev.bankOfs o) 4 s.dev.ember.bytes hk

/-- Settles O55, clause by clause: writes stored, refused and unanswered, the error record read, a read that clears, the ember window, and an access that waits. -/
theorem hostAccessesComplete : Obligations.HostAccessesComplete := by
  unfold Obligations.HostAccessesComplete
  refine ⟨?_, ?_, ?_, ?_, ?_, ?_, ?_, ?_, ?_⟩
  · intro a v r
    refine State.of_sent ?_ fun s h => by simp -implicitDefEqProofs only [Dev.takes_setOut] at h; exact h
    exact fun s hs ht he hr hn => State.write_stores hs ht he hr hn
  · intro a v r k
    refine State.of_sent ?_ fun s h => by simp -implicitDefEqProofs only [Dev.writeCode_setOut] at h; exact h
    exact fun s hs ha he hr hk hmem => State.write_rejected hs ha he hr hk hmem
  · intro a size v k
    refine State.of_sent ?_ fun s h => h
    exact fun s hs hwait h12 hup hpath hk => State.write_met hs hwait h12 hup hpath hk
  · intro a size k
    refine State.of_sent ?_ fun s h => h
    exact fun s hs hwait h12 hup hpath hk => State.read_met hs hwait h12 hup hpath hk
  · refine State.of_sent ?_ fun s h => h
    exact fun s hs ha => State.aerrRead_shows hs ha
  · intro a
    refine State.of_sent ?_ fun s h => h
    exact fun s hs haddr ha => State.drainRead_clears hs haddr ha
  · intro a size s h
    unfold Dev.pathCode
    dsimp only
    rw [if_pos h]
  · intro a o v
    refine State.of_sent ?_ fun s h => h
    exact fun s hs he ha hbank hkept => State.emberWrite_stores hs he ha hbank hkept
  · intro a v
    refine State.of_sent ?_ fun s h => h
    exact fun s hs hwait h12 hup hpath hst => State.write_waits hs hwait h12 hup hpath hst

end Sys2Proof.Machine
end

section
/-!
PROOFS. Admission to a queue (O26).
-/

namespace Sys2Proof.Machine

set_option Elab.async false

/-! ### A packet turned away (R259) -/

theorem Dev.noteDepth_keeps (d : Dev) (q drops deqb : Nat) : (d.noteDepth q drops deqb).regs = d.regs ∧ (d.noteDepth q drops deqb).pkt = d.pkt
    ∧ (d.noteDepth q drops deqb).buf.queues = d.buf.queues ∧ (d.noteDepth q drops deqb).buf.owners = d.buf.owners := by
  unfold Dev.noteDepth
  dsimp only
  split <;> exact ⟨rfl, rfl, rfl, rfl⟩

/-- What a packet discarded at admission leaves (R259). -/
structure Dev.Turned (q reason : Nat) (d e : Dev) : Prop where
  drops : e.get (F.bufQDropCount q) = satAdd 32 (d.get (F.bufQDropCount q)) 1
  logQ : e.get F.bufQmLogQ = q
  logReason : e.get F.bufQmLogReason = reason
  raised : d.Raised 0xE6 e
  only : d.Only [R.bufQDrop q, R.bufQmLog] [0xE6] e
  pkt : e.pkt = d.pkt
  queues : e.buf.queues = d.buf.queues
  owners : e.buf.owners = d.buf.owners

theorem Dev.qDrop_turned (d : Dev) {q reason : Nat} (hq : q < 8192) (hr : reason < 4) : d.Turned q reason (d.qDrop q reason) := by
  have hlog : R.bufQmLog ≠ R.bufQDrop q := by simp only [R.bufQmLog, R.bufQDrop]; omega
  have hcnt := d.get_count_self (F.bufQDropCount q) 1 (by simp [Fld.fits, F.bufQDropCount])
  have hcpkt : (d.count (F.bufQDropCount q) 1).pkt = d.pkt ∧ (d.count (F.bufQDropCount q) 1).buf = d.buf := ⟨rfl, rfl⟩
  have hcount : d.Only [R.bufQDrop q, R.bufQmLog] [] (d.count (F.bufQDropCount q) 1) := (Dev.Only.refl _ _ d).count _ _ (by simp [F.bufQDropCount])
  unfold Dev.qDrop
  generalize d.count (F.bufQDropCount q) 1 = a at *
  have hq1 := a.get_set_lt F.bufQmLogQ (x := q) (by simp [Fld.fits, F.bufQmLogQ]) hq
  have hd1 := a.get_set_ne (f := F.bufQmLogQ) (g := F.bufQDropCount q) q hlog.symm
  have hbpkt : (a.set F.bufQmLogQ q).pkt = a.pkt ∧ (a.set F.bufQmLogQ q).buf = a.buf := ⟨rfl, rfl⟩
  have hb := hcount.set F.bufQmLogQ q (by simp [F.bufQmLogQ])
  generalize a.set F.bufQmLogQ q = b at *
  have hr2 := b.get_set_lt F.bufQmLogReason (x := reason) (by simp [Fld.fits, F.bufQmLogReason]) hr
  have hq2 := b.get_set_apart F.bufQmLogReason F.bufQmLogQ reason (by simp [Fld.fits, F.bufQmLogQ]) (by simp [Fld.apart, F.bufQmLogQ, F.bufQmLogReason])
  have hd2 := b.get_set_ne (f := F.bufQmLogReason) (g := F.bufQDropCount q) reason hlog.symm
  have hcp : (b.set F.bufQmLogReason reason).pkt = b.pkt ∧ (b.set F.bufQmLogReason reason).buf = b.buf := ⟨rfl, rfl⟩
  have hc := hb.set F.bufQmLogReason reason (by simp [F.bufQmLogReason])
  generalize b.set F.bufQmLogReason reason = c at *
  obtain ⟨hregs, hpkt, hqueues, howners⟩ := (c.raise 0xE6 [R.bufQmLog, R.bufQDrop q]).noteDepth_keeps q 1 0
  have hquiet := c.raise_quiet 0xE6 [R.bufQmLog, R.bufQDrop q]
  have hget := fun f : Fld => Dev.get_congr hregs f
  refine ⟨?_, ?_, ?_, ?_, ?_, ?_, ?_, ?_⟩
  · rw [hget, Dev.get_raise _ _ _ (.inr (by simp only [F.bufQDropCount, R.bufQDrop]; omega)), hd2, hd1, hcnt]
    rfl
  · rw [hget, Dev.get_raise _ _ _ (.inr (by decide)), hq2, hq1]
  · rw [hget, Dev.get_raise _ _ _ (.inr (by decide)), hr2]
  · exact (hc.raised_raise _ (by simp) (by simp [R.hrtEvtSrcCtl, R.bufQDrop, R.bufQmLog]; omega) (by decide)).of_ctl rfl (Dev.reg_congr hregs _)
  · exact ((hc.mono (fun _ h => h) (by simp)).raise 0xE6 _ (by simp)).congr hregs
  · rw [hpkt, hquiet.pkt, hcp.1, hbpkt.1, hcpkt.1]
  · rw [hqueues, hquiet.buf, hcp.2, hbpkt.2, hcpkt.2]
  · rw [howners, hquiet.buf, hcp.2, hbpkt.2, hcpkt.2]

/-- A failed allocation: counted, its event, and the packet discarded (R254, R259). -/
structure Dev.Failed (q i : Nat) (d e : Dev) : Prop where
  fails : e.get (F.bufPclsFailFail i) = satAdd 32 (d.get (F.bufPclsFailFail i)) 1
  logReason : e.get F.bufQmLogReason = 3
  raisedFail : d.Raised 0xE2 e
  raisedDrop : d.Raised 0xE6 e
  only : d.Only [R.bufQDrop q, R.bufQmLog, R.bufPclsFail i] [0xE2, 0xE6] e
  queues : e.buf.queues = d.buf.queues
  owners : e.buf.owners = d.buf.owners

theorem Dev.failed_turned (d : Dev) {q i : Nat} (hq : q < 8192) (hi : i < 1024) :
    d.Failed q i (((d.count (F.bufPclsFailFail i) 1).raise 0xE2 [R.bufPclsFail i]).qDrop q 3)
      ∧ (((d.count (F.bufPclsFailFail i) 1).raise 0xE2 [R.bufPclsFail i]).qDrop q 3).pkt = d.pkt := by
  obtain ⟨hcnt, hraised, hpkt, honly⟩ := d.count_raise_shows (F.bufPclsFailFail i) [R.bufPclsFail i] (n := 0xE2) (by simp [Fld.fits, F.bufPclsFailFail])
    (by simp only [F.bufPclsFailFail, R.bufPclsFail]; omega) (by decide)
  have hbuf : ((d.count (F.bufPclsFailFail i) 1).raise 0xE2 [R.bufPclsFail i]).buf = d.buf := ((d.count (F.bufPclsFailFail i) 1).raise_quiet _ _).buf
  generalize (d.count (F.bufPclsFailFail i) 1).raise 0xE2 [R.bufPclsFail i] = a at *
  have ht := a.qDrop_turned (reason := 3) hq (by omega)
  generalize a.qDrop q 3 = b at *
  refine ⟨⟨?_, ht.logReason, ?_, ?_, ?_, by rw [ht.queues, hbuf], by rw [ht.owners, hbuf]⟩, ht.pkt.trans hpkt⟩
  · rw [ht.only.get_eq (by simp [F.bufPclsFailFail, R.bufPclsFail, R.bufQDrop, R.bufQmLog]; omega) (by simp only [F.bufPclsFailFail, R.bufPclsFail]; omega) (by simp), hcnt]
    rfl
  · exact hraised.of_ctl rfl (ht.only _ (by simp [R.hrtEvtSrcCtl, R.bufQDrop, R.bufQmLog]; omega) (by simp [evtRegs, R.hrtEvtSrcCtl, R.hrtEvtSrcFirstns, R.hrtEvtSrcFirstw]))
  · exact ht.raised.of_ctl (honly _ (by simp [F.bufPclsFailFail, R.hrtEvtSrcCtl, R.bufPclsFail]; omega) (by simp [evtRegs, R.hrtEvtSrcCtl, R.hrtEvtSrcFirstns, R.hrtEvtSrcFirstw])).symm rfl
  · exact (honly.mono (by simp [F.bufPclsFailFail]) (by simp)).trans (ht.only.mono (by simp) (by simp))

/-! ### A packet admitted (R254, R259) -/

/-- Buffers taken and moved: registers of the manager's errors alone, and the queues as they were. -/
structure Dev.BufTaken (d e : Dev) : Prop where
  only : d.Only [R.bufBmErr, R.bufBmErrlog] [0xE0, 0xE1, 0xE3] e
  queues : e.buf.queues = d.buf.queues
  pkt : e.pkt = d.pkt
  time : e.time = d.time

namespace Dev.BufTaken
variable {d e f : Dev}

theorem refl (d : Dev) : d.BufTaken d := ⟨Dev.Only.refl _ _ d, rfl, rfl, rfl⟩

theorem trans (h : d.BufTaken e) (k : e.BufTaken f) : d.BufTaken f :=
  ⟨h.only.trans k.only, k.queues.trans h.queues, k.pkt.trans h.pkt, k.time.trans h.time⟩

theorem set (h : d.BufTaken e) (g : Fld) (x : Nat) (hg : g.addr ∈ [R.bufBmErr, R.bufBmErrlog]) : d.BufTaken (e.set g x) :=
  ⟨h.only.set g x hg, h.queues, h.pkt, h.time⟩

theorem raise (h : d.BufTaken e) (n : Nat) (l : List Nat) (hn : n ∈ [0xE0, 0xE1, 0xE3]) : d.BufTaken (e.raise n l) :=
  ⟨h.only.raise n l hn, by rw [(e.raise_quiet n l).buf, h.queues], (e.raise_quiet n l).pkt.trans h.pkt, (e.raise_quiet n l).time.trans h.time⟩

theorem owners (h : d.BufTaken e) (b : Nat) (r : Option BufRec) : d.BufTaken (e.setOwner b r) := ⟨h.only.congr rfl, h.queues, h.pkt, h.time⟩

end Dev.BufTaken

theorem Dev.bufReject_taken (d : Dev) (b agent kind : Nat) : d.BufTaken (d.bufReject b agent kind) := by
  have h := (((Dev.BufTaken.refl d).set F.bufBmErrlogBuf b (by decide)).set F.bufBmErrlogAgent agent (by decide)).set F.bufBmErrlogKind kind (by decide)
  unfold Dev.bufReject
  dsimp only
  generalize ((d.set F.bufBmErrlogBuf b).set F.bufBmErrlogAgent agent).set F.bufBmErrlogKind kind = e at *
  split
  · exact (h.set F.bufBmErrDbl _ (by decide)).raise _ _ (by simp)
  · exact (h.set F.bufBmErrNown _ (by decide)).raise _ _ (by simp)

theorem Dev.moveBufs_taken (d : Dev) (bs : List Nat) (agent dst : Nat) : d.BufTaken (d.moveBufs bs agent dst) := by
  refine Dev.each_keeps (P := d.BufTaken) bs _ (fun x b _ hx => hx.trans ?_) d (.refl d)
  unfold Dev.moveBuf
  split
  · exact .refl x
  · cases x.owner b with
    | none => exact x.bufReject_taken _ _ _
    | some r =>
      dsimp only
      split
      · exact (Dev.BufTaken.refl x).owners _ _
      · exact x.bufReject_taken _ _ _

theorem Dev.poolLow_taken (d : Dev) (p : Nat) : d.BufTaken (d.poolLow p) := by
  unfold Dev.poolLow
  have h : ∀ f : List Nat → List Nat, d.BufTaken (d.setBuf fun b => { b with low := f b.low }) := fun _ => ⟨(Dev.Only.refl _ _ d).congr rfl, rfl, rfl, rfl⟩
  have hlow := h fun l => if decide (d.get (F.bufPoolFreeShfree p) < d.get (F.bufPoolLowLowthr p)) then (if d.buf.low.contains p then l else p :: l) else l.filter (· != p)
  cases hc : decide (d.get (F.bufPoolFreeShfree p) < d.get (F.bufPoolLowLowthr p)) && !d.buf.low.contains p <;> dsimp only <;> rw [hc]
  · exact hlow
  · exact hlow.raise 0xE3 _ (by simp)

theorem Dev.takeBufs_taken (d : Dev) (p c n agent : Nat) : (d.takeBufs p c n agent).2.length = n ∧ d.BufTaken (d.takeBufs p c n agent).1 := by
  unfold Dev.takeBufs
  induction n with
  | zero => exact ⟨rfl, .refl d⟩
  | succ n ih =>
    rw [List.range_succ, List.foldl_append, List.foldl_cons, List.foldl_nil]
    obtain ⟨hlen, htaken⟩ := ih
    exact ⟨by simp [hlen], htaken.trans ⟨(Dev.Only.refl _ _ _).congr rfl, rfl, rfl, rfl⟩⟩

/-- A request granted whole: the buffers it takes and the class's use (R254). -/
theorem Dev.allocBufs_grants {d : Dev} {b c m i agent : Nat} (hb : b < 64) (hc : c < 16) (hi : i = 16 * b + c) (hmax : d.get (F.bufPclsUsedUsed i) + m ≤ d.get (F.bufPclsMaxMax i))
    (hfree : m - min m (d.get (F.bufPclsMinMin i) - d.get (F.bufPclsUsedUsed i)) ≤ d.get (F.bufPoolFreeShfree b)) :
    ∃ a bs, d.allocBufs b c m agent = some (a, bs) ∧ bs.length = m ∧ a.get (F.bufPclsUsedUsed i) = d.get (F.bufPclsUsedUsed i) + m ∧ a.buf.queues = d.buf.queues
      ∧ a.pkt = d.pkt ∧ a.time = d.time ∧ d.Only bufRegs [0xE0, 0xE1, 0xE3] a := by
  subst hi
  have hlt : d.get (F.bufPclsMaxMax (16 * b + c)) < 2 ^ 25 := d.get_lt _
  unfold Dev.allocBufs
  dsimp only
  rw [if_neg (by omega), if_neg (by omega)]
  generalize hx : d.get (F.bufPclsUsedUsed (16 * b + c)) = x at *
  generalize d.get (F.bufPoolFreeShfree b) - (m - min m (d.get (F.bufPclsMinMin (16 * b + c)) - x)) = y
  have hused := d.get_set_lt (F.bufPclsUsedUsed (16 * b + c)) (x := x + m) (by simp [Fld.fits, F.bufPclsUsedUsed]) (by simp only [F.bufPclsUsedUsed]; omega)
  have honly : d.Only bufRegs [0xE0, 0xE1, 0xE3] (d.set (F.bufPclsUsedUsed (16 * b + c)) (x + m)) := (Dev.Only.refl _ _ d).set _ _ (bufPclsUsed_mem (by omega))
  have hkept : (d.set (F.bufPclsUsedUsed (16 * b + c)) (x + m)).buf = d.buf ∧ (d.set (F.bufPclsUsedUsed (16 * b + c)) (x + m)).pkt = d.pkt
    ∧ (d.set (F.bufPclsUsedUsed (16 * b + c)) (x + m)).time = d.time := ⟨rfl, rfl, rfl⟩
  generalize d.set (F.bufPclsUsedUsed (16 * b + c)) (x + m) = e at *
  have hused' := e.get_set_ne (f := F.bufPoolFreeShfree b) (g := F.bufPclsUsedUsed (16 * b + c)) y
    (by simp only [F.bufPoolFreeShfree, F.bufPclsUsedUsed, R.bufPoolFree, R.bufPclsUsed]; omega)
  have honly' := honly.set (F.bufPoolFreeShfree b) y (bufPoolFree_mem ⟨b, hb⟩)
  have hkept' : (e.set (F.bufPoolFreeShfree b) y).buf = e.buf ∧ (e.set (F.bufPoolFreeShfree b) y).pkt = e.pkt ∧ (e.set (F.bufPoolFreeShfree b) y).time = e.time := ⟨rfl, rfl, rfl⟩
  generalize e.set (F.bufPoolFreeShfree b) y = f at *
  obtain ⟨hlen, htaken⟩ := f.takeBufs_taken b c m agent
  have hall := htaken.trans ((f.takeBufs b c m agent).1.poolLow_taken b)
  refine ⟨_, _, rfl, hlen, ?_, ?_, ?_, ?_, ?_⟩
  · rw [← hused, ← hused']
    exact hall.only.get_eq (by simp [F.bufPclsUsedUsed, R.bufPclsUsed, R.bufBmErr, R.bufBmErrlog]; omega) (by simp only [F.bufPclsUsedUsed, R.bufPclsUsed]; omega) (by simp)
  · exact hall.queues.trans ((congrArg BufSt.queues hkept'.1).trans (congrArg BufSt.queues hkept.1))
  · exact hall.pkt.trans (hkept'.2.1.trans hkept.2.1)
  · exact hall.time.trans (hkept'.2.2.trans hkept.2.2)
  · exact honly'.trans (hall.only.mono (fun a ha => by
      simp only [List.mem_cons, List.not_mem_nil, or_false] at ha
      exact mem_bufRegs.2 (by tauto)) fun _ h => h)

theorem Dev.allocBufs_refuses {d : Dev} {b c m agent : Nat} (h : d.get (F.bufPclsMaxMax (16 * b + c)) < d.get (F.bufPclsUsedUsed (16 * b + c)) + m
      ∨ d.get (F.bufPoolFreeShfree b) < m - min m (d.get (F.bufPclsMinMin (16 * b + c)) - d.get (F.bufPclsUsedUsed (16 * b + c)))) :
    d.allocBufs b c m agent = none := by
  unfold Dev.allocBufs
  dsimp only
  split
  · rfl
  · next hmax => rw [if_pos (h.resolve_left hmax)]

theorem Dev.poolFor_lt (d : Dev) (q len : Nat) : (d.poolFor q len).1 < 64 := by
  unfold Dev.poolFor
  split
  · exact d.get_lt (F.bufQMapSpool q)
  · exact d.get_lt (F.bufQMapHpool q)

theorem Dev.poolFor_congr {d e : Dev} (h : e.regs = d.regs) (q len : Nat) : e.poolFor q len = d.poolFor q len := by
  unfold Dev.poolFor Dev.flag
  rw [Dev.get_congr h, Dev.get_congr h, Dev.get_congr h]

/-! ### The queue that gets the packet -/

theorem Dev.queue_setQueue_self (d : Dev) (q : Nat) (f : Queue → Queue) : (d.setQueue q f).queue q = f (d.queue q) := Tbl.get_modify_self _ _ _ _

theorem Dev.queue_setQueue_ne (d : Dev) {q r : Nat} (f : Queue → Queue) (h : r ≠ q) : (d.setQueue q f).queue r = d.queue r := Tbl.get_modify_ne _ _ _ _ h

theorem Dev.EndsAs.queue {e t : Dev} (h : e.EndsAs t) (r : Nat) : t.queue r = e.queue r := by simp only [Dev.queue, h.same.buf]

/-- What the last steps of an enqueue leave: the packet behind those queued, and the depth. -/
theorem Dev.enqueue_ends (d : Dev) (q : Nat) (c : Bool) (len x : Nat) (p : Pkt) (bs : List Nat) {e : Dev}
    (he : e = (((d.when c fun d => d.tagHead q len).setQueue q fun y => { y with pkts := y.pkts ++ [⟨p, bs, (d.when c fun d => d.tagHead q len).time.ticks⟩] }).set
      (F.bufQDepthCount q) x).noteDepth q 0 0) :
    (e.queue q).pkts = (d.queue q).pkts ++ [⟨p, bs, d.time.ticks⟩] ∧ e.get (F.bufQDepthCount q) = x % 2 ^ 32 ∧ (∀ r, r ≠ q → e.queue r = d.queue r)
      ∧ e.pkt = d.pkt ∧ d.Only [R.bufQDepth q] [] e := by
  have htag : ((d.when c fun d => d.tagHead q len).queue q).pkts = (d.queue q).pkts ∧ (∀ r, r ≠ q → (d.when c fun d => d.tagHead q len).queue r = d.queue r)
      ∧ (d.when c fun d => d.tagHead q len).regs = d.regs ∧ (d.when c fun d => d.tagHead q len).time = d.time ∧ (d.when c fun d => d.tagHead q len).pkt = d.pkt := by
    cases c
    · exact ⟨rfl, fun _ _ => rfl, rfl, rfl, rfl⟩
    · rw [Dev.when_true]
      exact ⟨by rw [Dev.tagHead, Dev.queue_setQueue_self], fun r hr => Dev.queue_setQueue_ne _ _ hr, rfl, rfl, rfl⟩
  obtain ⟨hpkts, hother, hregs, htime, hpkt⟩ := htag
  generalize (d.when c fun d => d.tagHead q len) = a at *
  obtain ⟨hnregs, hnpkt, hnq, -⟩ := ((a.setQueue q fun y => { y with pkts := y.pkts ++ [⟨p, bs, a.time.ticks⟩] }).set (F.bufQDepthCount q) x).noteDepth_keeps q 0 0
  rw [← he] at hnregs hnpkt hnq
  have hself := a.queue_setQueue_self q fun y => { y with pkts := y.pkts ++ [⟨p, bs, a.time.ticks⟩] }
  have hne : ∀ r, r ≠ q → _ := fun r hr => a.queue_setQueue_ne (q := q) (fun y => { y with pkts := y.pkts ++ [⟨p, bs, a.time.ticks⟩] }) (r := r) hr
  have hbk : (a.setQueue q fun y => { y with pkts := y.pkts ++ [⟨p, bs, a.time.ticks⟩] }).pkt = a.pkt
    ∧ (a.setQueue q fun y => { y with pkts := y.pkts ++ [⟨p, bs, a.time.ticks⟩] }).regs = a.regs := ⟨rfl, rfl⟩
  generalize (a.setQueue q fun y => { y with pkts := y.pkts ++ [⟨p, bs, a.time.ticks⟩] }) = b at *
  have hqueue : ∀ r, e.queue r = b.queue r := fun r => by rw [Dev.queue, hnq]; rfl
  refine ⟨?_, ?_, fun r hr => ?_, ?_, ?_⟩
  · rw [hqueue, hself, htime]
    simp only [hpkts]
  · rw [Dev.get_congr hnregs]
    exact Dev.get_set_self _ _ _ (by simp [Fld.fits, F.bufQDepthCount])
  · rw [hqueue, hne r hr, hother r hr]
  · rw [hnpkt, ← hpkt, ← hbk.1]
    rfl
  · have h : d.Only [R.bufQDepth q] [] b := Dev.Only.of_regs (hbk.2.trans hregs) _ _
    exact (h.set (F.bufQDepthCount q) x (by simp [F.bufQDepthCount])).congr hnregs

theorem Dev.enqueue_admits {d : Dev} {q len : Nat} {p : Pkt} {slice : Nat} {a : Dev} {bs : List Nat} (hlen : len = p.bytes.length) (hen : d.get (F.bufQParEn q) = 1)
    (hlim : d.get (F.bufQDepthCount q) + len ≤ d.get (F.bufQLimLimit q) * 64)
    (ha : d.allocBufs (d.poolFor q len).1 (d.get (F.bufSrcClsClass p.src)) (d.poolFor q len).2 slice = some (a, bs)) :
    (d.enqueue q p slice).1 = ((((a.moveBufs bs slice 32).when (d.queue q).pkts.isEmpty fun d => d.tagHead q len).setQueue q fun y => { y with
      pkts := y.pkts ++ [⟨p, bs, ((a.moveBufs bs slice 32).when (d.queue q).pkts.isEmpty fun d => d.tagHead q len).time.ticks⟩] }).set
      (F.bufQDepthCount q) (d.get (F.bufQDepthCount q) + len)).noteDepth q 0 0 := by
  subst hlen
  unfold Dev.enqueue
  dsimp only
  rw [if_neg (by simp [Dev.flag, hen]), if_neg (by omega), ha]

theorem Dev.enqueue_fails {d : Dev} {q len i : Nat} {p : Pkt} {slice : Nat} (hlen : len = p.bytes.length) (hen : d.get (F.bufQParEn q) = 1)
    (hlim : d.get (F.bufQDepthCount q) + len ≤ d.get (F.bufQLimLimit q) * 64) (hi : i = 16 * (d.poolFor q len).1 + d.get (F.bufSrcClsClass p.src))
    (ha : d.allocBufs (d.poolFor q len).1 (d.get (F.bufSrcClsClass p.src)) (d.poolFor q len).2 slice = none) :
    (d.enqueue q p slice).1 = ((d.count (F.bufPclsFailFail i) 1).raise 0xE2 [R.bufPclsFail i]).qDrop q 3 := by
  subst hlen hi
  unfold Dev.enqueue
  dsimp only
  rw [if_neg (by simp [Dev.flag, hen]), if_neg (by omega), ha]

theorem Dev.enqueue_drops {d : Dev} {q : Nat} {p : Pkt} {slice : Nat} : (d.get (F.bufQParEn q) = 0 → (d.enqueue q p slice).1 = d.qDrop q 1)
    ∧ (d.get (F.bufQParEn q) = 1 → d.get (F.bufQLimLimit q) * 64 < d.get (F.bufQDepthCount q) + p.bytes.length → (d.enqueue q p slice).1 = d.qDrop q 2) := by
  unfold Dev.enqueue
  dsimp only
  exact ⟨fun hen => by rw [if_pos (by simp [Dev.flag, hen])], fun hen hlim => by rw [if_neg (by simp [Dev.flag, hen]), if_pos hlim]⟩

/-! ### QUEUE_ENQUEUE -/

theorem Dev.nextDecided_queue {d : Dev} {q n : Nat} {p : Pkt} {rest : List Decided} (hok : d.trafficOk 8 = true) (h : d.pkt.decided = ⟨.queue q, p, n⟩ :: rest) :
    d.nextDecided true = some ⟨.queue q, p, n⟩ := by
  unfold Dev.nextDecided
  rw [hok, h]
  simp

/-- The first decided packet, bound for a queue, leaves PKT and meets its admission (R223, R259). -/
theorem State.queueEnqueue_ends {s : State} {q n : Nat} {p : Pkt} {rest : List Decided} {P : State → Prop} (hs : s.dev.out = []) (hok : s.dev.trafficOk 8 = true)
    (hdec : s.dev.pkt.decided = ⟨.queue q, p, n⟩ :: rest)
    (h : ∀ d t : Dev, d.pkt.decided = rest → d.regs = s.dev.regs → d.buf = s.dev.buf → d.time = s.dev.time → (d.enqueue q p n).1.EndsAs t →
      ∀ u : State, u.dev = t → P u) : ∃ t, exec .queueEnqueue s = .next t ∧ P t := by
  simp only [exec, execQueueEnqueue]
  refine State.run_ends hs rfl fun t ht hout hfz => ?_
  simp only [Dev.nextDecided_queue hok hdec] at ht
  obtain ⟨hregs, -, hbuf, -, htime, -⟩ := s.dev.ringTaken_keeps ⟨.queue q, p, n⟩
  exact h (s.dev.ringTaken ⟨.queue q, p, n⟩) t.dev (Dev.ringTaken_pkt hdec) hregs hbuf htime ht t rfl

theorem Dev.turned_shows {s d t : Dev} {q reason : Nat} {rest : List Decided} (hregs : d.regs = s.regs) (hbuf : d.buf = s.buf) (hrest : d.pkt.decided = rest)
    (hq : q < 8192) (hr : reason < 4) (ht : (d.qDrop q reason).EndsAs t) : t.pkt.decided = rest ∧ t.buf.queues = s.buf.queues
      ∧ t.get (F.bufQDropCount q) = satAdd 32 (s.get (F.bufQDropCount q)) 1 ∧ t.get F.bufQmLogQ = q
      ∧ t.get F.bufQmLogReason = reason ∧ s.Raised 0xE6 t ∧ s.Only [R.bufQDrop q, R.bufQmLog] [0xE6] t := by
  have h := d.qDrop_turned hq hr
  exact ⟨by rw [ht.same.pkt, h.pkt, hrest], by rw [ht.same.buf, h.queues, hbuf], by rw [ht.get, h.drops, Dev.get_congr hregs], (ht.get _).trans h.logQ, (ht.get _).trans h.logReason,
    ht.raised.2 (h.raised.of_ctl (Dev.reg_congr hregs _).symm rfl), ht.only.2 ((Dev.Only.of_regs hregs _ _).trans h.only)⟩

/-- The pool has no buffers for the packet (R254). -/
theorem State.queueEnqueue_fails {s : State} {q n i b m : Nat} {p : Pkt} {rest : List Decided} (hs : s.dev.out = []) (hok : s.dev.trafficOk 8 = true)
    (hdec : s.dev.pkt.decided = ⟨.queue q, p, n⟩ :: rest) (hq : q < 8192) (hen : s.dev.get (F.bufQParEn q) = 1)
    (hlim : s.dev.get (F.bufQDepthCount q) + p.bytes.length ≤ s.dev.get (F.bufQLimLimit q) * 64) (hpool : s.dev.poolFor q p.bytes.length = (b, m))
    (hi : i = 16 * b + s.dev.get (F.bufSrcClsClass p.src))
    (h : s.dev.get (F.bufPclsMaxMax i) < s.dev.get (F.bufPclsUsedUsed i) + m
      ∨ s.dev.get (F.bufPoolFreeShfree b) < m - min m (s.dev.get (F.bufPclsMinMin i) - s.dev.get (F.bufPclsUsedUsed i))) :
    ∃ t, exec .queueEnqueue s = .next t ∧ s.dev.Failed q i t.dev ∧ t.dev.pkt.decided = rest := by
  refine State.queueEnqueue_ends hs hok hdec fun d t hrest hregs hbuf htime ht u hu => ?_
  subst hu
  have hget : ∀ f, s.dev.get f = d.get f := fun f => (Dev.get_congr hregs f).symm
  have hpool' : d.poolFor q p.bytes.length = (b, m) := (Dev.poolFor_congr hregs _ _).trans hpool
  have hb : b < 64 := by
    have := d.poolFor_lt q p.bytes.length
    rwa [hpool'] at this
  simp only [hget] at hen hlim hi h
  have hi' : i < 1024 := by
    have : d.get (F.bufSrcClsClass p.src) < 16 := d.get_lt _
    omega
  rw [Dev.enqueue_fails rfl hen hlim (i := i) (by rw [hpool']; exact hi) (by rw [hpool']; exact Dev.allocBufs_refuses (by rw [← hi]; exact h))] at ht
  obtain ⟨hf, hpkt⟩ := d.failed_turned hq hi'
  exact ⟨⟨by rw [ht.get, hf.fails, hget], (ht.get _).trans hf.logReason, ht.raised.2 (hf.raisedFail.of_ctl (Dev.reg_congr hregs _).symm rfl),
    ht.raised.2 (hf.raisedDrop.of_ctl (Dev.reg_congr hregs _).symm rfl), ht.only.2 ((Dev.Only.of_regs hregs _ _).trans hf.only),
    by rw [ht.same.buf, hf.queues, hbuf], by rw [ht.same.buf, hf.owners, hbuf]⟩, by rw [ht.same.pkt, hpkt, hrest]⟩

/-- Settles O26: a packet is queued, or turned away with its reason. -/
theorem queuesAdmitOrDrop : Obligations.QueuesAdmitOrDrop := by
  unfold Obligations.QueuesAdmitOrDrop
  refine ⟨?_, ?_, ?_, ?_, ?_⟩
  · intro q n i b m p rest
    refine State.of_sent ?_ fun _ h => h
    intro s hs hok hdec hq hen hlim hpool hi hmax hfree
    suffices h : ∃ t, exec .queueEnqueue s = .next t ∧ ∃ bs : List Nat, bs.length = m ∧ t.dev.pkt.decided = rest
      ∧ (t.dev.queue q).pkts = (s.dev.queue q).pkts ++ [⟨p, bs, s.dev.time.ticks⟩]
      ∧ t.dev.get (F.bufQDepthCount q) = (s.dev.get (F.bufQDepthCount q) + p.bytes.length) % 2 ^ 32
      ∧ t.dev.get (F.bufPclsUsedUsed i) = s.dev.get (F.bufPclsUsedUsed i) + m
      ∧ (∀ r, r ≠ q → t.dev.queue r = s.dev.queue r) ∧ s.dev.RegsKept (fun a => inCord 9 a || isEvt a) t.dev from by
      obtain ⟨t, ht, bs, h⟩ := h
      exact ⟨t, bs, ht, h⟩
    refine State.queueEnqueue_ends hs hok hdec fun d t hrest hregs hbuf htime ht u hu => ?_
    subst hu
    have hget : ∀ f, s.dev.get f = d.get f := fun f => (Dev.get_congr hregs f).symm
    have hpool' : d.poolFor q p.bytes.length = (b, m) := (Dev.poolFor_congr hregs _ _).trans hpool
    simp only [hget] at hen hlim hi hmax hfree
    have hb : b < 64 := by
      have := d.poolFor_lt q p.bytes.length
      rwa [hpool'] at this
    obtain ⟨a, bs, ha, hlen, hused, hqueues, hpkt, hatime, honly⟩ := Dev.allocBufs_grants (agent := n) hb (d.get_lt (F.bufSrcClsClass p.src)) hi hmax hfree
    rw [Dev.enqueue_admits rfl hen hlim (by rw [hpool']; exact ha)] at ht
    have hmoved := a.moveBufs_taken bs n 32
    generalize a.moveBufs bs n 32 = e at *
    obtain ⟨hpkts, hdepth, hother, hepkt, heonly⟩ := e.enqueue_ends q (d.queue q).pkts.isEmpty p.bytes.length (d.get (F.bufQDepthCount q) + p.bytes.length) p bs rfl
    have hqueue : ∀ r, e.queue r = s.dev.queue r := fun r => by
      rw [Dev.queue, hmoved.queues, hqueues, hbuf]
      rfl
    refine ⟨bs, hlen, ?_, ?_, ?_, ?_, fun r hr => ?_, ?_⟩
    · rw [ht.same.pkt, hepkt, hmoved.pkt, hpkt, hrest]
    · rw [ht.queue]
      refine hpkts.trans ?_
      rw [hqueue, hmoved.time, hatime, htime]
    · rw [ht.get, hdepth, hget]
    · have hi' : i < 1024 := by
        have := d.get_lt (F.bufSrcClsClass p.src)
        simp only [F.bufSrcClsClass] at this hi
        omega
      rw [ht.get, heonly.get_eq (by simp [F.bufPclsUsedUsed, R.bufPclsUsed, R.bufQDepth]; omega) (by simp only [F.bufPclsUsedUsed, R.bufPclsUsed]; omega) (by simp),
        hmoved.only.get_eq (by simp [F.bufPclsUsedUsed, R.bufPclsUsed, R.bufBmErr, R.bufBmErrlog]; omega) (by simp only [F.bufPclsUsedUsed, R.bufPclsUsed]; omega) (by simp), hused, hget]
    · rw [ht.queue]
      exact (hother r hr).trans (hqueue r)
    · refine ht.regsKept.2 ?_
      have h1 : s.dev.RegsKept (fun a => inCord 9 a || isEvt a) d := fun a _ => Dev.reg_congr hregs a
      have h2 : d.RegsKept (fun a => inCord 9 a || isEvt a) a := honly.kept (fun a ha => by simp [bufRegs_inCord ha]) (by simp) fun _ a ha => by simp [ha]
      have h3 : a.RegsKept (fun a => inCord 9 a || isEvt a) e := hmoved.only.kept (by simp [inCord, R.bufBmErr, R.bufBmErrlog]) (by simp) fun _ a ha => by simp [ha]
      exact ((h1.trans h2).trans h3).trans (heonly.kept (by simp [inCord, R.bufQDepth]; omega) (by simp) (by simp))
  · intro q n p rest
    refine State.of_sent ?_ fun _ h => h
    intro s hs hok hdec hq hen
    refine State.queueEnqueue_ends hs hok hdec fun d t hrest hregs hbuf htime ht u hu => ?_
    subst hu
    rw [Dev.enqueue_drops.1 ((Dev.get_congr hregs _).trans hen)] at ht
    exact Dev.turned_shows hregs hbuf hrest hq (by omega) ht
  · intro q n p rest
    refine State.of_sent ?_ fun _ h => h
    intro s hs hok hdec hq hen hlim
    refine State.queueEnqueue_ends hs hok hdec fun d t hrest hregs hbuf htime ht u hu => ?_
    subst hu
    rw [Dev.enqueue_drops.2 ((Dev.get_congr hregs _).trans hen) (by simpa only [Dev.get_congr hregs] using hlim)] at ht
    exact Dev.turned_shows hregs hbuf hrest hq (by omega) ht
  · intro q n i p rest
    refine State.of_sent ?_ fun _ h => h
    intro s hs hok hdec hq hen hlim hi hmax
    obtain ⟨t, ht, hf, -⟩ := State.queueEnqueue_fails hs hok hdec hq hen hlim rfl hi (.inl hmax)
    exact ⟨t, ht, hf.queues, hf.owners, hf.fails, hf.logReason, hf.raisedFail, hf.raisedDrop, hf.only⟩
  · intro q n i b m p rest
    refine State.of_sent ?_ fun _ h => h
    intro s hs hok hdec hq hen hlim hpool hi hmax hfree
    obtain ⟨t, ht, hf, hrest⟩ := State.queueEnqueue_fails hs hok hdec hq hen hlim hpool hi (.inr hfree)
    exact ⟨t, ht, hrest, hf.queues, hf.owners, hf.fails, hf.logReason, hf.raisedFail, hf.raisedDrop, hf.only⟩

end Sys2Proof.Machine
end
